-- ==== Sys2Proof/Word.lean ====
section
/-! DEFINITION. Word and byte types, and the numbered instances of R3: channels, clusters, cores, tiles, spares, contexts,
request table entries and fabric ports. -/

namespace Sys2Proof

/-- One byte of a tier, a frame or a message. -/
abbrev Byte := BitVec 8
/-- A 32-bit register word (R435). -/
abbrev Word := BitVec 32
/-- A 64-bit register pair or address. -/
abbrev Word64 := BitVec 64
/-- The bits of an IEEE 754 binary32 value (R108, FP32). -/
abbrev F32 := BitVec 32
/-- The bits of a BF16 value (R108, R120). -/
abbrev BF16 := BitVec 16

/-- Channel ch0 to ch7 (R3). -/
abbrev ChId := Fin 8
/-- Cluster cl0 to cl7 within a channel (R3). -/
abbrev ClId := Fin 8
/-- Core co0 to co7 within a cluster (R3). -/
abbrev CoId := Fin 8
/-- Tile t0 to t15 within a core (R3). -/
abbrev TileIx := Fin 16
/-- Spare s0 to s3 within a cluster (R3). -/
abbrev SpareIx := Fin 4
/-- Context 0 to 63 (R447). -/
abbrev CtxId := Fin 64
/-- Request table entry 0 to 511 of a channel (R216). -/
abbrev EntryIx := Fin 512
/-- Fabric port p0 to p7 of a channel (R344). -/
abbrev PortIx := Fin 8

/-- A cluster of the module, as in ch3.cl5 (R3). -/
structure ClusterRef where
  ch : ChId
  cl : ClId
deriving DecidableEq, Repr

/-- A core of the module, as in ch3.cl5.co2 (R3). -/
structure CoreRef where
  ch : ChId
  cl : ClId
  co : CoId
deriving DecidableEq, Repr

/-- A tile index of a core, as in ch3.cl5.co2.t11 (R3). -/
structure TileRef where
  ch : ChId
  cl : ClId
  co : CoId
  t : TileIx
deriving DecidableEq, Repr

/-- A spare of a cluster, as in ch3.cl5.s1 (R3). -/
structure SpareRef where
  ch : ChId
  cl : ClId
  s : SpareIx
deriving DecidableEq, Repr

/-- A tile index of a cluster, a spare among them: 16 a core, then the four spares (R57, R77). -/
structure IndexRef where
  ch : ChId
  cl : ClId
  tile : Fin 132
deriving DecidableEq, Repr

/-- A request table entry of a channel (R216). -/
structure SeqRef where
  ch : ChId
  e : EntryIx
deriving DecidableEq, Repr

def ClusterRef.ix (c : ClusterRef) : Nat := c.ch.val * 8 + c.cl.val
/-- Place of a tile among the module's: 132 a cluster. -/
def IndexRef.ix (x : IndexRef) : Nat := (x.ch.val * 8 + x.cl.val) * 132 + x.tile.val
def CoreRef.ix (c : CoreRef) : Nat := (c.ch.val * 8 + c.cl.val) * 8 + c.co.val
def SeqRef.ix (r : SeqRef) : Nat := r.ch.val * 512 + r.e.val
def CoreRef.cluster (c : CoreRef) : ClusterRef := ⟨c.ch, c.cl⟩
def TileRef.core (t : TileRef) : CoreRef := ⟨t.ch, t.cl, t.co⟩
def TileRef.cluster (t : TileRef) : ClusterRef := ⟨t.ch, t.cl⟩
/-- The place of a core tile among the 132 tiles and spares of its cluster. -/
def TileRef.ix (t : TileRef) : Nat := t.cluster.ix * 132 + t.co.val * 16 + t.t.val
/-- The place of a spare among the 132 tiles and spares of its cluster. -/
def SpareRef.ix (s : SpareRef) : Nat := (s.ch.val * 8 + s.cl.val) * 132 + 128 + s.s.val

end Sys2Proof
end

