-- ==== Sys2Proof/Syntax.lean ====
section
/-! DEFINITION. The commands of the module: one constructor of Instr per row of spec/opcode_table.json, with the operands
the row's rule names. Rows with no field in the table take their operands from the rule they cite: who acts, on which instance,
and what the world outside the block supplies (written values, messages, measurements, readings, host memory that is read). -/

namespace Sys2Proof

/-- Who makes an access on the host port, or the management path (R436, R447, R490). -/
inductive Fn where
  | pf0
  | vf (n : Fin 63)   -- VF(n + 1), which serves context n + 1 (R447)
  | mgt               -- the management controller of the window's die (R490)
deriving DecidableEq, Repr

/-- Host memory as the module's reads of it return it: listed bytes, 0 where unlisted (R254, R271). -/
abbrev HostView := List (Nat × Byte)

/-- The logits of one position of one sequence, as the engines formed them: listed tokens, `floor` for every other
token (R229). `draft` tells the draft model's logits from the target's (R230). -/
structure LogitRow where
  seq : SeqRef
  pos : Nat
  draft : Bool
  floor : F32
  listed : List (Nat × F32)
deriving DecidableEq, Repr

/-- The state that a step leaves in a state layer: after its position of that index, from 0 (R205). -/
structure StateRow where
  seq : SeqRef
  layer : Nat
  index : Nat
  bytes : List Byte
deriving DecidableEq, Repr

/-- Where a group's released result goes: the core's scratchpad, the cluster buffer, or a node of its reduction (R141). -/
inductive GroupDest where
  | scratchpad (addr : Fin 4194304)
  | buffer (addr : Fin 33554432)
  | node
deriving DecidableEq, Repr

/-- An accumulation group the plan opens at a boundary, with the settings of R141. Its reduction is that of a column range of a layer, or in a
backward pass of a row range, over one micro-batch. -/
structure GroupOpen where
  core : CoreRef
  g : Fin 16
  ctx : CtxId
  layer : Nat
  transpose : Bool
  first : Nat              -- first column, or row, of the range
  run : Nat                -- micro-batch: the same number on every core that takes part
  src : Fin 3              -- 0 ARR, 1 PAE, 2 VEC
  ofmt : Fin 3             -- 0 FP32, 1 BF16, 2 E4M3
  cols : Nat
  vecs : Nat
  nLeaf : Nat
  bias : Option Nat        -- offset of the bias in the pattern's VECTORS
  dest : GroupDest
  exec : Nat               -- layer execution whose late decision accepts an ARR group; 0 for none
deriving DecidableEq, Repr

/-- The key and value of one head and position of a layer, as the plank's work of the sequence's step formed them: after rotary
positions and before rotation (R114, R123). -/
structure KvRow where
  seq : SeqRef
  layer : Nat
  head : Nat
  pos : Nat
  key : List F32
  value : List F32
deriving DecidableEq, Repr

/-- A circular region the plan defines at a boundary (R311, R320). -/
structure RegionDef where
  core : CoreRef
  rgn : Fin 64
  base : Fin 8192          -- in units of 512 bytes
  size : Fin 14            -- Z = 512 × 2^size
  prod : Fin 6
  cons : Fin 7
  ctx : CtxId
deriving DecidableEq, Repr

/-- An object the plan arms at a boundary: one of its own, or a pattern ID of a context (R322, R324). -/
structure PlanArm where
  ch : ChId
  obj : Option (Fin 16384)     -- none: the pattern ID below
  ctx : CtxId
  vid : Fin 1024
  target : Nat
  seq : Option SeqRef          -- the step that needs it
deriving DecidableEq, Repr

/-- A message that work of a channel sends on the fabric (R350 to R352). -/
inductive FabSend where
  | write (ctx : CtxId) (stream : Nat) (dst : Word64) (data : List Byte)
  | read (ctx : CtxId) (stream : Nat) (dst : Word64) (len : Nat) (tag : Nat) (to_ : Word64) (seq : Option SeqRef)
  | signal (node : Fin 32768) (ch : ChId) (ctx : CtxId) (vid : Fin 4096) (srcCtx : CtxId) (consume : Bool) (value : Nat) (stream : Nat)
      (id : Nat) (seq : Option SeqRef)
deriving DecidableEq, Repr

/-- The operation of a collective (R359). -/
inductive CollOp where
  | sum | topk (k : Nat) | bcast
deriving DecidableEq, Repr

/-- What a tree node above core level reduces: the level (1 cluster, 2 channel, 3 module, 4 system), and the reduction (R148, R156), the
attention leaves of a head group and part of a step (R170), or a broadcast (R359). -/
inductive NodeKey where
  | sum (level ctx layer : Nat) (transpose : Bool) (first run : Nat)
  | topk (level ctx layer run : Nat)
  | attn (seq : SeqRef) (layer group part : Nat)
  | cast (ctx collId : Nat)
deriving DecidableEq, Repr

/-- The same reduction at another level. -/
def NodeKey.at (k : NodeKey) (level : Nat) : NodeKey :=
  match k with
  | .sum _ c l t f r => .sum level c l t f r
  | .topk _ c l r => .topk level c l r
  | k => k

/-- A run of a collective that the plan opens on a channel: its descriptor, this channel's place, and what it reduces: its leaf is the root of
its module's tree (R148, R359, R360). -/
structure CollOpen where
  ch : ChId
  ctx : CtxId
  collId : Nat
  inst : Nat
  parts : List (Fin 32768 × ChId × Word64)   -- participants in ascending node ID, with the address of each one's collective buffer
  op : CollOp
  vid : Fin 1024                              -- pattern sync ID
  stream : Nat
  core : CoreRef                              -- core that holds the module's root and receives the root's value (R149)
  key : NodeKey
  data : List F32                             -- a broadcast's value, on its root
deriving DecidableEq, Repr

/-- A range lent to a node, channel and context (R354). -/
structure LendRange where
  ch : ChId
  first : Nat             -- device address
  len : Nat
  node : Fin 32768
  srcCh : ChId
  srcCtx : CtxId
deriving DecidableEq, Repr

/-- A frame of a page that the plan copies to a core's scratchpad (R194, R195): the core, where in T0, the sequence, layer, page and frame. -/
structure StageReq where
  core : CoreRef
  addr : Nat
  seq : SeqRef
  layer : Nat
  page : Nat
  k : Nat
deriving DecidableEq, Repr

/-- What the plan sets up at a boundary beside the steps (R195, R311, R313, R322, R354, R359). -/
structure PlanIssue where
  regions : List RegionDef
  freeRegions : List (CoreRef × Fin 64)
  arms : List PlanArm
  disarms : List (ChId × Fin 16384)
  lends : List LendRange
  unlends : List LendRange
  sends : List (ChId × FabSend)
  colls : List CollOpen
  stages : List StageReq
  unstages : List StageReq
deriving DecidableEq, Repr

/-- A plan that sets up nothing. -/
def PlanIssue.none : PlanIssue := ⟨[], [], [], [], [], [], [], [], [], []⟩

/-- What a plank boundary takes from outside the model: host memory it reads (R271), the logits that the steps finishing now
formed (R229), the groups the plan opens for the work it issues (R141), the layer executions it plans per cluster (R132), the steps in flight whose carried work has not finished (R20, R21), and the candidates for
which no engine share is left (R227). -/
structure BoundaryEnv where
  host : HostView
  logits : List LogitRow
  states : List StateRow          -- the states that state layers of the steps finishing now have left (R205)
  opens : List GroupOpen
  planned : List (Nat × Nat)      -- cluster ch × 8 + cl, number of layer executions
  late : List SeqRef              -- steps whose carried work is still unfinished at this boundary
  full : List SeqRef              -- candidates whose step does not fit the engines' shares up to FILL_PCT
  lent : List (ChId × Fin 32768 × ChId × Nat)   -- frames that channels of other modules lend: borrower, node, channel, frame (R531)
  issue : PlanIssue
deriving DecidableEq, Repr

/-- A boundary with nothing to take. -/
def BoundaryEnv.none : BoundaryEnv := ⟨[], [], [], [], [], [], [], [], PlanIssue.none⟩

/-- Deviation of one analogue sum from the exact sum of the programmed levels, in units of 2^-16 level unit, keyed by
slot × 4096 + pair (R35, R81); unlisted pairs deviate by 0. It is what noise, drift and stuck cells add. -/
abbrev AnalogDev := List (Nat × Int)

/-- An MVM descriptor as it reaches a tile's sequencer (R48, R50). -/
structure MvmDesc where
  slice : Fin 8
  exec : Nat                     -- layer execution of the core, whose held codes are the input (R113, R126)
  seq : Option SeqRef            -- the step's sequence, for slips (R19)
  group : Fin 16
  epoch : Fin 4                  -- EPOCH of the group when the MVM was issued (R142, R143)
  vec : Fin 16
deriving DecidableEq, Repr

/-- One partial of one query row (R168): the row's KV head, its query head among the G of that head, its position; running maximum,
running sum, accumulator. -/
structure AttnPartial where
  head : Nat
  g : Nat
  pos : Nat
  m : F32
  l : F32
  acc : List F32
deriving DecidableEq, Repr

/-- A value at a tree node: a sum with the counts of R144 (`arr`: of array leaves, R154), a top-k list with its count of valid entries (R155,
R156), or attention partials, one per query row (R168). -/
inductive LeafVal where
  | sum (arr : Bool) (vals : List F32) (len npart : Nat)
  | topk (k : Nat) (entries : List (F32 × Word)) (valid : Nat)
  | attn (rows : List AttnPartial)
deriving DecidableEq, Repr

/-- A leaf that arrives, with the core that it comes to, or of whose channel it is the root: at an accumulation group, from a PAE or vector engine, with its products (R143, R144), or the adapter leaf, which the
PAE computes from the vector (R272); at a module's node, a channel's root over the fabric (R148); or a vector engine's own part of a vector that a top-k takes, from its first position
on (R156). -/
inductive LeafMsg where
  | group (g : Fin 16) (epoch : Fin 4) (leaf : Nat) (vec : Fin 16) (vals : List F32) (len : Nat)
  | adapter (g : Fin 16) (vec : Fin 16)
  | module (key : NodeKey)
  | part (ctx : CtxId) (layer run base : Nat) (xs : List F32)
deriving DecidableEq, Repr

/-- An attention item: one head group, one leaf of R165, and the row pass of a decode step or the query block of a chunk (R166, R177, R180),
with the query rows before rotation, in order of head, then position (R123, R177). -/
structure AttnItem where
  seq : SeqRef
  layer : Nat
  group : Nat
  leaf : Nat
  part : Nat
  qs : List (List F32)
deriving DecidableEq, Repr

/-- A backward attention item, by the partition of the forward pass: per row the output gradient and the forward output (R182). -/
structure BwdItem where
  seq : SeqRef
  layer : Nat
  group : Nat
  leaf : Nat
  part : Nat
  rows : List (List F32 × List F32)
deriving DecidableEq, Repr

/-- A spill-layer item on a PAE: input vectors of the micro-batch, and the accumulation group leaf they feed (R264). -/
structure SpillItem where
  ctx : CtxId
  layer : Nat
  block : Nat
  xs : List (List F32)
  core : CoreRef
  group : Fin 16
  leaf : Nat
deriving DecidableEq, Repr

/-- A layer execution handed to the fuller: its layer, its core, and the vectors of its micro-batch before rotation (R113, R126). -/
structure ExecReq where
  transpose : Bool            -- inputs of transpose reads (R123): the vectors have the layer's COLS elements
  ctx : CtxId
  layer : Nat
  exec : Nat
  seq : Option SeqRef
  xs : List (List F32)
deriving DecidableEq, Repr

/-- What the fuller has finished: a layer execution's inputs, or keys and values that go into their pages (R113, R114, R126). -/
inductive FullerWork where
  | exec (e : ExecReq)
  | kv (rows : List KvRow)
deriving DecidableEq, Repr

/-- New tables of one tile measured by a blocking run (R422, R423). Pairs and converters not listed keep 1.0 or 0. -/
structure TileCal where
  tile : Fin 20                      -- 0 to 15 core tiles, 16 to 19 the cluster's spares
  b : List (Nat × F32)               -- base gain per physical pair (R70)
  o : List (Nat × F32)               -- base offset per physical pair (R70)
  r : List (Nat × F32)               -- gain-code ratio, keyed converter × 8 + code (R70)
  vConv : F32
  vCell : F32
  rowG : List (Nat × F32)            -- transpose row gains (R55)
  rowO : List (Nat × F32)
  probe : List F32                   -- the 16-probe burst's mean per level reference (R74)
  convFail : List Nat                -- converters whose trim stays out of tolerance at a tap limit (R423)
  driverFail : Bool
  rowConvFail : Bool
  taps : List (Nat × Nat)            -- delay taps of row drivers as the run trimmed them: row and tap, 0 to 31 (R34, R422)
  thr : List (Nat × Nat)             -- threshold taps: column converter 0 to 531, or 532 + row converter, and tap, 0 to 63 (R422)
deriving DecidableEq, Repr

/-- The two words of a 64-bit load register, or of each register of R256. -/
inductive LdrReg where
  | nextLo | nextHi | sizeLo | sizeHi | progLo | progHi | rcmpLo | rcmpHi
deriving DecidableEq, Repr

/-- A requester of the scratchpad, in the issue order of R302. -/
inductive Requester where
  | dma | acc | fuller | latch | dae | vector | pounce
deriving DecidableEq, Repr

/-- The byte ranges a scratchpad request names (R302, R308, R309). -/
inductive SpdRange where
  | contiguous (addr len : Nat)
  | transposed (addr pitch : Nat)
  | strided (addr e n stride : Nat)
  | region (rgn : Fin 64) (len : Nat)
deriving DecidableEq, Repr

/-- A scratchpad request as it reaches the issue stage (R302). -/
structure SpdReq where
  who : Requester
  write : Bool
  range : SpdRange
  data : List Byte         -- for a write; for a DMA write it may arrive later (R303)
deriving DecidableEq, Repr

/-- A scratchpad bank, an HBM4 pseudo-channel or a capacity-tier rank: what may power down (R314, R315). -/
inductive PdTarget where
  | bank (core : CoreRef) (b : Fin 32)
  | hbm (ch : ChId) (pc : Fin 128)
  | t2 (ch : ChId) (rank : Fin 16)
deriving DecidableEq, Repr

/-- The fields of a remote signal (R334). -/
structure RemoteSignal where
  dstCh : ChId
  dstCtx : CtxId
  vid : Fin 4096
  srcNode : Fin 32768
  srcCh : ChId
  srcCtx : CtxId
  consume : Bool
  value : Nat
  stream : Nat
  mark : Nat
deriving DecidableEq, Repr

/-- Partner identity in HELLO (R346, R357, R393, R458). -/
structure Hello where
  node : Option (Fin 32768)
  ch : ChId
  port : PortIx
  fault : Fin 3
  standby : Bool
deriving DecidableEq, Repr

/-- WRITE, READ and READ_RESP header granule (R350). -/
structure MsgHdr where
  hops : Fin 16
  stream : Nat
  srcNode : Fin 32768
  srcCh : ChId
  srcCtx : CtxId
  dst : Word64
  offset : Nat
  tag : Nat
  len : Nat
  status : Byte
deriving DecidableEq, Repr

/-- DIGEST message (R360). -/
structure Digest where
  dstCh : ChId
  ctx : CtxId
  collId : Nat
  inst : Nat
  srcNode : Fin 32768
  srcCh : ChId
  srcCtx : CtxId
  level : Fin 16
  stream : Nat
  markEnd : Nat
  len : Nat
  digest : Word64
  addr : Word64       -- where the covered bytes lie in the receiver's collective buffer
deriving DecidableEq, Repr

/-- TIME message (R364, R365, R367). -/
structure TimeMsg where
  master : Fin 32768
  hops : Nat
  time : Word64
  plank : Word64
  minWin : Nat
  change : Option (Word64 × Nat × Nat)   -- boundary, period in µs, fill target
deriving DecidableEq, Repr

/-- Why a port retrains (R346). -/
inductive RetrainWhy where
  | lockLoss | uncorrectable | replays
deriving DecidableEq, Repr

/-- How a message without an address comes in: the channel and port that receive it, the node and channel that it is for, and those that sent
it (R350, R355). -/
structure MsgWay where
  ch : ChId
  p : PortIx
  node : Fin 32768
  dstCh : ChId
  srcNode : Fin 32768
  srcCh : ChId
deriving DecidableEq, Repr

/-- What a flit carries besides its payload granules (R347), and the codewords that the FEC corrected, or could not correct, under it (R344). -/
structure Flit where
  fecCor : Nat
  fecUnc : Nat
  crcOk : Bool
  seq : Fin 4096
  ack : Fin 4096
  nak : Bool
  crdVc : Fin 4
  crd : Fin 32
  granules : List (Fin 4)   -- virtual channel of every message granule, in order; empty: NULL granules only
deriving DecidableEq, Repr

/-- A fault source of a channel's collector (R371) or of the hub's (R375). -/
inductive FaultSrc where
  | chan (ch : ChId) (ix : Fin 96)
  | hub (s : Fin 5)
deriving DecidableEq, Repr

/-- The instance a channel source names in its page's status: a tile or spare of a cluster (0 to 127 core tiles co × 16 + t,
128 to 131 spares), one of its column converters, a fabric port, or the request table entry a ring translation failed for (R246). -/
inductive FltAt where
  | none
  | tile (cl : ClId) (t : Fin 132)
  | conv (cl : ClId) (t : Fin 132) (k : Fin 532)
  | port (p : PortIx)
  | entry (e : EntryIx)
deriving DecidableEq, Repr

/-- Who read the data in which an uncorrectable memory error was found (R392). -/
inductive MemReader where
  | engine | loadCopy (ctx : CtxId) | bar2 (fn : Fn)
deriving DecidableEq, Repr

/-- Where a parity or memory error is detected (R392). -/
inductive ParityAt where
  | block (ch : ChId) (ix : Fin 96)
  | hub (s : Fin 2)
  | memory (ch : ChId) (r : MemReader)
  | corrected (ch : ChId)       -- more than 1,024 corrected errors within 1 s
deriving DecidableEq, Repr

/-- A fast meter: a rail of a cluster, or VIN (R404, R479). -/
inductive MeterAt where
  | rail (c : ClusterRef) (r : Fin 5)
  | vin
deriving DecidableEq, Repr

/-- How a BAR2 access goes (R444, R445, R446). -/
inductive Bar2Op where
  | read (len : Nat)
  | write (bytes : List Byte)
deriving DecidableEq, Repr

/-- The waits of R476 that end a start with INIT_FAIL, and the two that do not. -/
inductive InitWait where
  | mgtVerify | training | t1Zero | arrayCheck | retention | hubReady
deriving DecidableEq, Repr

/-- How the rates of R430 code: 1 2.5, 2 5.0, 3 8, 4 16, 5 32, 6 64 GT/s (HUB_STA.RATE). -/
abbrev LinkRate := Fin 7

/-- An operation on a sync object (R326, R328). -/
inductive SyncOp where
  | arm (target : Nat) | signal (value : Nat) | consume (value : Nat) | wait (threshold : Nat) (who : Nat) (seq : Option SeqRef)
deriving DecidableEq, Repr

/-- A management target: 0 to 7 the channels, 8 the hub (R481). -/
abbrev MgtIx := Fin 9

/-- Who a debug session speaks for (R510): the unlock level asked. -/
inductive PemorLevel where
  | locked | read | full
deriving DecidableEq, Repr

/-- The core's pounce unit has finished a tile's share: the CLK_CORE cycles that the result waited for it (R68). -/
structure PounceShare where
  tile : TileRef
  late : Nat
deriving DecidableEq, Repr

/-- The next block of a DAE's item is there: the CLK_CORE cycles that the DAE waited for it (R176). -/
structure BlockArrival where
  core : CoreRef
  late : Nat
deriving DecidableEq, Repr

/-- A circular region has room again: the CLK_CORE cycles that the producer waited (R312). -/
structure RegionRoom where
  rgn : Fin 64
  cycles : Nat
deriving DecidableEq, Repr

/-- A power-down wait is over: the frames that writes reached within it (R314, R315). -/
structure PdWait where
  unit : PdTarget
  late : List Nat
deriving DecidableEq, Repr

/-- A port of a channel. -/
structure ChPort where
  ch : ChId
  p : PortIx
deriving DecidableEq, Repr

/-- A remote signal as it comes in: the channel and port that receive it and the node that it is for (R334, R350). -/
structure SignalMsg where
  ch : ChId
  p : PortIx
  node : Fin 32768
  sig : RemoteSignal
deriving DecidableEq, Repr

/-- A DIGEST as it comes in: the channel and port that receive it and the node that it is for (R350, R360). -/
structure DigestMsg where
  ch : ChId
  p : PortIx
  node : Fin 32768
  digest : Digest
deriving DecidableEq, Repr

/-- The receiving half of a message's way: the channel and port it comes in at, and the node and channel it is for (R350). -/
structure MsgDst where
  ch : ChId
  p : PortIx
  node : Fin 32768
  dstCh : ChId
deriving DecidableEq, Repr

/-- A channel of a node of the fabric (R350). -/
structure NodeCh where
  node : Fin 32768
  ch : ChId
deriving DecidableEq, Repr

/-- The commands: one constructor per row of the opcode table, in the table's order. -/
inductive Instr where
  | plankBoundary (env : BoundaryEnv)
  | hubLinkFail (ch : ChId)
  | mvmDescriptor (tile : TileRef) (d : MvmDesc) (dev : AnalogDev)
  | transposeRead (tile : TileRef) (d : MvmDesc) (dev : AnalogDev)
  | mvmSumsArrive (tile : TileRef)
  | pounceShareDone (share : PounceShare)
  | rereadComplete (tile : TileRef) (dev : AnalogDev)
  | referenceProbe (tile : IndexRef) (dev : AnalogDev)
  | driftIntervalEnd (ch : ChId)
  | refreshWaitExpire (tile : TileRef)
  | localisationProbe (tile : TileRef) (subBlock : Fin 8) (dev : AnalogDev)
  | localisationRunEnd (tile : TileRef)
  | shadowReplay (c : ClusterRef) (dev : AnalogDev)
  | shadowDigitalCheck (c : ClusterRef)
  | shadowDwellEnd (c : ClusterRef)
  | fullerQuantiseDone (core : CoreRef) (w : FullerWork)
  | wideModeHoldEnd (c : ClusterRef)
  | leafArrival (core : CoreRef) (leaf : LeafMsg)
  | daeItemStart (core : CoreRef) (item : AttnItem)
  | daeBlockArrive (block : BlockArrival)
  | paeItemStart (c : ClusterRef) (item : AttnItem)
  | paeStageDone (c : ClusterRef)
  | paeBackwardItem (c : ClusterRef) (item : BwdItem)
  | spillLayerItem (c : ClusterRef) (item : SpillItem)
  | kvpHoldExpire (r : SeqRef)
  | pageMoveDone (r : SeqRef) (layer page : Nat) (ok : Bool)
  | checkpointValid (r : SeqRef)
  | hoodCopyDone (r : SeqRef)
  | hoodExpire (r : SeqRef)
  | hoodRestoreDone (r : SeqRef) (host : HostView) (logOk : Bool)
  | restoreWaitExpire (r : SeqRef)
  | stateWAdmit (fn : Fn) (r : SeqRef)
  | stateWFree (fn : Fn) (r : SeqRef)
  | rqtEntryFieldWrite (fn : Fn) (r : SeqRef) (off : Fin 128) (bytes : List Byte)
  | cmdNone (fn : Fn) (r : SeqRef)
  | cmdPause (fn : Fn) (r : SeqRef)
  | cmdResume (fn : Fn) (r : SeqRef)
  | cmdPark (fn : Fn) (r : SeqRef)
  | cmdCancel (fn : Fn) (r : SeqRef)
  | deadlineExpire (r : SeqRef)
  | consumedWrite (fn : Fn) (r : SeqRef) (value : Word)
  | pendingRecordWrite (r : SeqRef)
  | rqtPartWrite (fn : Fn) (ch : ChId) (ctx : CtxId) (value : Word)
  | plkCtlWrite (fn : Fn) (value : Word)
  | ldrLoad (fn : Fn) (ctx : CtxId)
  | ldrSwap (fn : Fn) (ctx : CtxId)
  | ldrAbort (fn : Fn) (ctx : CtxId)
  | ldrGo (fn : Fn) (ctx : CtxId)
  | ldrUnload (fn : Fn) (ctx : CtxId)
  | ldrConfigWrite (fn : Fn) (ctx : CtxId) (reg : LdrReg) (value : Word)
  | loadFetchDone (ctx : CtxId) (host : HostView)
  | loadCheckDone (ctx : CtxId)
  | loadCopyDone (ctx : CtxId) (host : HostView) (xferOk : Bool)
  | loadProgramDone (ctx : CtxId)
  | unloadComplete (ctx : CtxId)
  | tileVerifyDone (ch : ChId) (cl : ClId) (tile : Fin 132) (missed : List Nat) (iterations : Nat) (probe : List F32)
  | adpLoad (fn : Fn) (ctx : CtxId) (slot : Fin 64)
  | adpCommit (fn : Fn) (ctx : CtxId) (slot : Fin 64)
  | adpUnload (fn : Fn) (ctx : CtxId) (slot : Fin 64)
  | adapterLoadDone (ctx : CtxId) (slot : Fin 64) (host : HostView)
  | tuningBackwardDone (r : SeqRef) (grads losses : List F32)
  | plcCxSnapGo (fn : Fn) (ctx : CtxId)
  | plcChCtlWrite (fn : Fn) (ch : ChId) (value : Word)
  | spdRequestIssue (core : CoreRef) (req : SpdReq)
  | spdAccessStart (core : CoreRef) (entry : Nat)
  | gatherSlotTimeout (core : CoreRef) (slot : Fin 4)
  | regionRoomAvailable (core : CoreRef) (room : RegionRoom)
  | bankIdleExpire (t : PdTarget)
  | bankWritesDrained (t : PdTarget)
  | bankPdWaitExpire (wait : PdWait)
  | synMap (fn : Fn) (ch : ChId) (ctx : CtxId) (vid : Fin 4096)
  | synUnmap (fn : Fn) (ch : ChId) (ctx : CtxId) (vid : Fin 4096)
  | synArm (fn : Fn) (ch : ChId) (ctx : CtxId) (vid : Fin 4096)
  | synSignal (fn : Fn) (ch : ChId) (ctx : CtxId) (vid : Fin 4096) (value : BitVec 16)
  | synConsume (fn : Fn) (ch : ChId) (ctx : CtxId) (vid : Fin 4096) (value : BitVec 16)
  | engineSignal (ch : ChId) (obj : Fin 65536) (ctx : CtxId) (op : SyncOp)
  | syncWaitTimeout (ch : ChId) (obj : Fin 65536) (who : Nat)
  | remoteSignalArrive (msg : SignalMsg)
  | signalHoldTimeout (ch : ChId) (obj : Fin 65536)
  | signalResendTimer (ch : ChId) (held : Nat)
  | evfCtlWrite (fn : Fn) (ch : ChId) (value : Word)
  | portSignalDetect (ch : ChId) (p : PortIx)
  | portRetryTimer (ch : ChId) (p : PortIx)
  | portTrainingDone (ch : ChId) (p : PortIx) (h : Hello)
  | portTrainingFail (ch : ChId) (p : PortIx)
  | portRetrainTrigger (ch : ChId) (p : PortIx) (why : RetrainWhy)
  | flitReceive (ch : ChId) (p : PortIx) (f : Flit)
  | fabricWriteReceive (ch : ChId) (p : PortIx) (h : MsgHdr) (data : List Byte)
  | fabricReadReceive (ch : ChId) (p : PortIx) (h : MsgHdr)
  | readRespReceive (link : ChPort) (h : MsgHdr) (data : List Byte)
  | readTimeout (ch : ChId) (tag : Nat)
  | digestReceive (msg : DigestMsg)
  | replyReceive (w : MsgWay) (stream : Nat) (tag : Nat) (status : Byte)
  | collFailReceive (w : MsgWay) (ctx : CtxId) (collId inst : Nat) (code : Byte)
  | helloReceive (ch : ChId) (p : PortIx) (h : Hello)
  | enumReceive (ch : ChId) (p : PortIx) (id : Nat)
  | enumRepeatTimer
  | assignReceive (ch : ChId) (p : PortIx) (id : Fin 32768)
  | timeReceive (ch : ChId) (p : PortIx) (m : TimeMsg)
  | timeSendTimer
  | linkDelayMeasure (ch : ChId) (p : PortIx) (delay : Nat)
  | timeHoldoverExpire
  | notreadyReceive (dst : MsgDst) (stream : Nat) (src : NodeCh)
  | notreadyResendTimer (ch : ChId) (stream : Nat)
  | streamIdleExpire (ch : ChId) (stream : Nat)
  | plankInEdge (offset : Int)
  | evfNodeWrite (fn : Fn) (value : Word)
  | evfTimeCtlWrite (fn : Fn) (value : Word)
  | evfRtDataWrite (fn : Fn) (ch : ChId) (value : Word)
  | faultSourceRaise (src : FaultSrc) (at_ : FltAt)
  | parityError (at_ : ParityAt)
  | pgFrcWrite (fn : Fn) (page : Nat) (mask : Word)
  | pgFltClear (fn : Fn) (page : Nat) (mask : Word)
  | pgSevWrite (fn : Fn) (page : Nat) (second : Bool) (value : Word)
  | quietPeriodExpire (ch : ChId)
  | fltCmdContain (fn : Fn) (ch : ChId)
  | fltCmdHalt (fn : Fn) (ch : ChId)
  | hubGroupComplete (ch : ChId)
  | fltDlvSelWrite (fn : Fn) (value : Word)
  | monConversionEnd (c : ClusterRef) (code : BitVec 24) (overload : Bool)
  | fastMeterSample (m : MeterAt) (amps volts : Nat)
  | inletTempRead (t : Option (BitVec 16))
  | thermalOffsetUpdate (c : ClusterRef)
  | throttleGraceExpire (c : ClusterRef)
  | throttleTighten (c : ClusterRef)
  | clockSlowStep (c : ClusterRef)
  | orderlyStopComplete (ch : ChId)
  | diodeComparatorTrip (c : ClusterRef) (d : Fin 4)
  | thmLimWrite (fn : Fn) (ch : ChId) (value : Word)
  | blockingRunDone (core : CoreRef) (cals : List TileCal)
  | bkgLateExpire (core : CoreRef)
  | bkgCmdRun (fn : Fn) (core : CoreRef)
  | hostLinkTrained (rate : LinkRate) (width : Fin 17) (flit : Bool)
  | functionLevelReset (ctx : CtxId)
  | vfDisable (numVfs : Fin 64)
  | hubCxCreate (fn : Fn) (ctx : CtxId)
  | hubCxDestroy (fn : Fn) (ctx : CtxId)
  | contextCleaningDone (ctx : CtxId)
  | bar2Access (fn : Fn) (off : Nat) (op : Bar2Op)
  | hubApWrite (fn : Fn) (a : Fin 16) (value : Word)
  | accessDeny (fn : Fn) (off : Nat) (write : Bool)
  | counterLoRead (fn : Fn) (off : Nat)
  | cntClr (fn : Fn) (page : Nat) (value : Word)
  | registerWrite (fn : Fn) (off : Nat) (size : Fin 4) (value : Word64)   -- a write of 2 ^ size bytes (R435)
  | powerOnReset (slotId : BitVec 6)
  | mgtFwVerifyDone (tgt : MgtIx)
  | vinStart
  | powerFailure
  | perstNAssert
  | perstNRelease
  | hubConfigReady
  | channelReadySet (ch : ChId)
  | t2ZeroingDone (ch : ChId)
  | initLimitExpire (ch : ChId) (w : InitWait)
  | c1Entry (ch : ChId)
  | pwrChCmdC2 (fn : Fn) (ch : ChId)
  | pwrChCmdC0 (fn : Fn) (ch : ChId) (drifted : List (Nat × Nat))
  | channelReset (fn : Fn) (ch : ChId)
  | haltedReset (fn : Fn) (ch : ChId) (drifted : List (Nat × Nat))
  | pwrModCmdM0 (fn : Fn) (drifted : List (Nat × Nat))
  | pwrModCmdM2 (fn : Fn)
  | pwrModCmdM3 (fn : Fn)
  | thermtripVinTimeout
  | entdaa (tgt : MgtIx) (addr : BitVec 7)
  | setnewda (tgt : MgtIx) (addr : BitVec 7)
  | rstdaa
  | enec (tgt : Option MgtIx)
  | disec (tgt : Option MgtIx)
  | getpid (tgt : MgtIx)
  | getbcr (tgt : MgtIx)
  | getdcr (tgt : MgtIx)
  | getstatus (tgt : MgtIx)
  | setmwl (tgt : Option MgtIx) (n : BitVec 16)
  | getmwl (tgt : MgtIx)
  | setmrl (tgt : Option MgtIx) (n : BitVec 16) (ibi : Option Byte)
  | getmrl (tgt : MgtIx)
  | ibiRetry (tgt : MgtIx) (accepted : Bool)
  | mgtResponseRead (tgt : MgtIx)
  | mgtRequestInvalid (tgt : MgtIx) (opcode tag : Byte) (crcOk lenOk : Bool)
  | getInfo (tgt : MgtIx) (tag : Byte)
  | readReg (tgt : MgtIx) (tag : Byte) (off : Nat) (words : Nat)
  | writeReg (tgt : MgtIx) (tag : Byte) (off : Nat) (words : List Word)
  | setTime (tgt : MgtIx) (tag : Byte) (ms : Word64)
  | getTime (tgt : MgtIx) (tag : Byte)
  | evrRead (tgt : MgtIx) (tag : Byte) (first : Nat) (count : Nat)
  | evrClear (tgt : MgtIx) (tag : Byte)
  | attest (tgt : MgtIx) (tag : Byte) (nonce : List Byte)
  | getCert (tgt : MgtIx) (tag : Byte) (index : Byte) (off : Nat)
  | fwStage (tgt : MgtIx) (tag : Byte) (kind : Byte) (off : Nat) (chunk : List Byte)
  | fwActivate (tgt : MgtIx) (tag : Byte) (kind : Byte)
  | svnCommit (tgt : MgtIx) (tag : Byte) (kind : Byte)
  | serviceOut (tgt : MgtIx) (tag : Byte)
  | mgtRestart (tgt : MgtIx) (tag : Byte)
  | getEvents (tgt : MgtIx) (tag : Byte)
  | secFwStage (fn : Fn) (value : Word) (host : HostView)
  | secFwActivate (fn : Fn) (value : Word)
  | evrNvWrite (ch : ChId) (ok : Bool)
  | evrTokenRefill (ch : ChId) (code : BitVec 16)
  | evrCurWrite (fn : Fn) (ch : ChId) (hi : Bool) (value : Word)
  | pemorId (ch : ChId)
  | pemorUnlock (ch : ChId) (level : PemorLevel)
  | pemorResp (ch : ChId) (sig : List Byte)
  | pemorLock (ch : ChId)
  | pemorStatus (ch : ChId)
  | pemorRd (ch : ChId) (off n : Nat)
  | pemorEvr (ch : ChId) (seq : Option Nat) (n : Option Nat)
  | pemorMon (ch : ChId) (cl : ClId)
  | pemorBaud (ch : ChId) (rate : Nat)
  | pemorWr (ch : ChId) (off : Nat) (value : Word)
  | pemorForce (ch : ChId) (ix : Fin 96)
  | pemorMem (ch : ChId) (addr : Word64) (n : Nat)
  | pemorJtagOpen (ch : ChId)
  | pemorJtagClose (ch : ChId)
  | pemorIdleTimeout (ch : ChId)
  | pemorNonceExpire (ch : ChId)
  | unlockLockoutEnd (ch : ChId)
  | vauxLoss
  | configRequest (fn : Fn)
  | vfEnable (numVfs : Fin 64)
  | functionD3hot (ctx : CtxId) (d3 : Bool)
  | arrTcmd (fn : Fn) (core : CoreRef) (value : Word)
  | evfEnumWrite (fn : Fn) (value : Word)
  | createDone (ctx : CtxId)
deriving DecidableEq, Repr

end Sys2Proof
end

