-- ==== Sys2Proof/Config.lean ====
section
/-! DEFINITION. What an implementation fixes and the spec does not give: free values. Each is an opaque constant without a body,
so that nothing can be proved of its value. -/

namespace Sys2Proof.Config

/-- Whether the module is a GK9600-L2, and not a GK9600-L4 (R1). -/
opaque isL2 : Bool
/-- T1 frames that the firmware of a channel sets for its fixed working area (R194). -/
opaque workSet : Nat
/-- T1 frames of a channel's fixed working area: at most 4 GiB (R194). -/
def workFrames : Nat := min 16384 workSet
/-- Physical position of a column pair across the crossbar (R29 says only that the numbers are not positions). -/
opaque pairPos : Nat → Nat
/-- The n-th 32-byte nonce a channel's random source gives (R510). -/
opaque nonce : Nat → Nat → List Byte
/-- The module's 16-byte factory serial (R431, R489). -/
opaque serial : List Byte
/-- Ed25519 signature of a channel's identity key over a message (R498, R499). -/
opaque idSign : Nat → List Byte → List Byte
/-- Whether a 64-byte signature by Audaku's debug key verifies over a message (R510). -/
opaque debugVerify : List Byte → List Byte → Bool
/-- Whether a signature by firmware key KEY_ID verifies over the signed bytes (R494). -/
opaque fwVerify : Nat → List Byte → List Byte → Bool
/-- Whether a firmware key is revoked by a fuse (R494). -/
opaque keyRevoked : Nat → Bool
/-- Certificates of a channel: index 0 its device certificate, 1 the intermediate (R498). -/
opaque cert : Nat → Nat → List Byte
/-- Measurement of the boot ROM of a die (R499, R513). -/
opaque romMeas : Nat → List Byte
/-- What the boot ROM's entry of an attestation report names: 0 KIND, 1 slot, 2 SVN (R499 gives no value). -/
opaque romEntry : Nat → Nat
/-- Bus number of PF0's Routing ID as the host assigns it (R431). -/
opaque pf0Rid : Nat
/-- Length in ns of one execution of a layer of a pattern, by its descriptor's ROWS and COLS, and its KIND plus 256 for each position of
a prefill chunk (R14, R23, R227): the manual gives no formula. -/
opaque layerTime : Nat → Nat → Nat → Nat
/-- Attention items of a head group and row pass that the plan counts one after the other on one engine in a step, by MAX_LEN and SEG_LEN:
R23 has one depth D for every length of a sequence, and gives no count (R167). -/
opaque planLeaves : Nat → Nat → Nat
/-- Time in ns that a PAE takes to stage a leaf of so many bytes (R180): the manual gives none. -/
opaque stageTime : Nat → Nat
/-- Thermal constants of a cluster in the factory base table: 0 r_d in K/W, 1 tau_d in s, 2 r_p, 3 tau_p (R405). -/
opaque thermal : Nat → Nat → BitVec 32
/-- Temperature, in 1/16 °C, that a diode's factory coefficients make of a 24-bit code (R406); diode = cluster × 4 + d. -/
opaque diodeTemp : Nat → Int → Int
/-- Fine reading in A or V of monitor inputs 20 to 29 of a cluster, from a 24-bit code (R400, R404). -/
opaque railFine : Nat → Nat → Int → BitVec 32
/-- The pseudo-random number that chooses whether the n-th forward MVM of a cluster's victim is replayed (R100): the manual gives no
generator. -/
opaque shadowPick : Nat → Nat → Nat
/-- How many slices of a tile the carder had verified when programming was stopped, by tile and plank (R60). -/
opaque slicesVerified : Nat → Nat → Nat
/-- Nominal code of the bandgap check (R400 input 34, R424). -/
opaque bandgapCode : Int
/-- A fresh free value of `n` bits for a result the spec states no value for, by the ticket the state draws. -/
opaque freeValue : Nat → Nat
/-- Numbers of a result the spec leaves open, by operands (a reduction whose arithmetic the vector engine does). -/
opaque vectorResult : Nat → List Nat → List Nat

/-- The pseudo-channel (0 to 127) or capacity-tier rank (from 128 on) that holds a device address: the manual gives no interleaving. -/
opaque memUnit : Nat → Nat

/-- Exponent of a power-of-two scale over a vector with an infinity or a NaN: R172 and R178 give none. -/
opaque openExp : List Nat → Int
/-- Place of a row's saved statistics (kind 0) and saved query (kind 1) in the area of STAT_ADDR, by layer, query head and position:
R181 gives no layout. -/
opaque statPlace : Nat → Nat → Nat → Nat → Nat

end Sys2Proof.Config
end

