-- ==== Sys2Proof/Machine/Regs.lean ====
section
/-! DEFINITION. The register pages of BAR0: their places (R441), their headers (R439), and every register of every page map with
its offset, its reset value and its writable bits (R4, R5), page by page as the chapters give them. -/

namespace Sys2Proof

/-- A register row of a page map: offset, number of consecutive words, reset value, bits a write stores (RW), bits a
written 1 clears (W1C), and whether the word is half of a 64-bit counter. -/
structure RegRow where
  off : Nat
  n : Nat
  reset : Word
  rw : Word
  w1c : Word
  ctr : Bool
deriving DecidableEq, Repr

/-- The kinds of page (PG_ID block types). -/
inductive PageKind where
  | hub
  | hubCx
  | arrCh
  | arr
  | arrSpr
  | corCh
  | cor
  | pnc
  | fulCh
  | ful
  | accCh
  | acc
  | attCh
  | att
  | kvpCh
  | kvpCx
  | rqtCh
  | rqtCx
  | plk
  | plkCh
  | ldrCh
  | ldrCx
  | adpCx
  | plcCh
  | plcCx
  | spdCh
  | spd
  | synCh
  | synCx
  | evfMod
  | evfCh
  | fltCh
  | fltMod
  | monCh
  | mon
  | thmCh
  | bkgCh
  | pwrMod
  | pwrCh
  | mgtCh
  | secCh
  | evrCh
  | secMod
deriving DecidableEq, Repr

namespace Off
abbrev PG_ID : Nat := 0x000
abbrev PG_CAP : Nat := 0x004
abbrev PG_CTL : Nat := 0x008
abbrev PG_STA : Nat := 0x00C
abbrev PG_FLT : Nat := 0x010
abbrev PG_FRC : Nat := 0x014
abbrev PG_SEV0 : Nat := 0x018
abbrev PG_SEV1 : Nat := 0x01C
abbrev PG_CNT : Nat := 0x020
abbrev HUB_CTL : Nat := 0x100
abbrev HUB_STA : Nat := 0x104
abbrev HUB_CAP : Nat := 0x108
abbrev HUB_AP : Nat := 0x140
abbrev HUB_DENY : Nat := 0x200
abbrev HUB_APMISS : Nat := 0x208
abbrev HUB_BADSZ : Nat := 0x210
abbrev HUB_LDN : Nat := 0x218
abbrev HUB_HALTWR : Nat := 0x220
abbrev HUB_RRS : Nat := 0x228
abbrev HUB_CX_CFG : Nat := 0x100
abbrev HUB_CX_CMD : Nat := 0x104
abbrev HUB_CX_STA : Nat := 0x108
abbrev HUB_CX_FN : Nat := 0x10C
abbrev HUB_CX_FLR : Nat := 0x140
abbrev HUB_CX_CREATE : Nat := 0x148
abbrev ARR_CTL : Nat := 0x100
abbrev ARR_STA : Nat := 0x104
abbrev ARR_TCMD : Nat := 0x110
abbrev ARR_TCMD_STA : Nat := 0x114
abbrev ARR_TSTA : Nat := 0x140
abbrev ARR_TWEAR : Nat := 0x180
abbrev ARR_TCSAT : Nat := 0x1C0
abbrev ARR_MVM : Nat := 0x200
abbrev ARR_SLOT : Nat := 0x208
abbrev ARR_SKIP : Nat := 0x210
abbrev ARR_SPLIT : Nat := 0x218
abbrev ARR_EXACT : Nat := 0x220
abbrev ARR_CSAT : Nat := 0x228
abbrev ARR_TRANS : Nat := 0x230
abbrev ARR_TSAT : Nat := 0x238
abbrev ARR_SSTA : Nat := 0x100
abbrev ARR_SWEAR : Nat := 0x110
abbrev COR_DRIFT : Nat := 0x100
abbrev COR_CONF : Nat := 0x104
abbrev COR_SHD_CTL : Nat := 0x108
abbrev COR_RFW : Nat := 0x10C
abbrev COR_SHD_VIC : Nat := 0x110
abbrev COR_DRIFT_UPD : Nat := 0x140
abbrev COR_REFRESH : Nat := 0x148
abbrev COR_SHD_CMP : Nat := 0x150
abbrev COR_SHD_DIS : Nat := 0x158
abbrev COR_PROBE_MISS : Nat := 0x160
abbrev COR_CTL : Nat := 0x100
abbrev COR_STA : Nat := 0x104
abbrev COR_TSTA : Nat := 0x140
abbrev COR_REREAD : Nat := 0x200
abbrev COR_LOWCONF : Nat := 0x208
abbrev COR_UNCHK : Nat := 0x210
abbrev COR_DUPSEL : Nat := 0x218
abbrev COR_LOC : Nat := 0x220
abbrev COR_REMAP : Nat := 0x228
abbrev COR_PROBE : Nat := 0x230
abbrev PNC_CTL : Nat := 0x100
abbrev PNC_STA : Nat := 0x104
abbrev PNC_OUT : Nat := 0x200
abbrev PNC_RES : Nat := 0x208
abbrev PNC_OVF : Nat := 0x210
abbrev PNC_CLIP : Nat := 0x218
abbrev PNC_LATE : Nat := 0x220
abbrev PNC_DCOL : Nat := 0x228
abbrev FUL_CTL : Nat := 0x100
abbrev FUL_STORM : Nat := 0x104
abbrev FUL_CL_STA : Nat := 0x110
abbrev FUL_STORMS : Nat := 0x140
abbrev FUL_RENEW : Nat := 0x148
abbrev FUL_WIDE : Nat := 0x150
abbrev FUL_ROT : Nat := 0x200
abbrev FUL_QEL : Nat := 0x208
abbrev FUL_SAT : Nat := 0x210
abbrev FUL_ZER : Nat := 0x218
abbrev FUL_EXEC : Nat := 0x220
abbrev FUL_FB6 : Nat := 0x228
abbrev FUL_FB8 : Nat := 0x230
abbrev FUL_EARLY : Nat := 0x238
abbrev FUL_FINAL : Nat := 0x240
abbrev FUL_SKIP : Nat := 0x248
abbrev FUL_KVSAT : Nat := 0x250
abbrev FUL_KVZER : Nat := 0x258
abbrev FUL_KV8 : Nat := 0x260
abbrev ACC_CTL : Nat := 0x100
abbrev ACC_CH_STA : Nat := 0x104
abbrev ACC_XNODE : Nat := 0x140
abbrev ACC_XUNB : Nat := 0x148
abbrev ACC_STA : Nat := 0x100
abbrev ACC_GSTA : Nat := 0x140
abbrev ACC_GLEN : Nat := 0x180
abbrev ACC_OPEN : Nat := 0x200
abbrev ACC_REOPEN : Nat := 0x208
abbrev ACC_STALE : Nat := 0x210
abbrev ACC_UNB : Nat := 0x218
abbrev ACC_OSAT : Nat := 0x220
abbrev ACC_TOPK : Nat := 0x228
abbrev ATT_CTL : Nat := 0x100
abbrev ATT_CAP : Nat := 0x104
abbrev ATT_RESCALE : Nat := 0x140
abbrev ATT_UFLOW : Nat := 0x148
abbrev ATT_NAN : Nat := 0x150
abbrev ATT_REPASS : Nat := 0x158
abbrev ATT_XCL : Nat := 0x160
abbrev ATT_PSTA : Nat := 0x100
abbrev ATT_DSTA : Nat := 0x104
abbrev ATT_PMAC : Nat := 0x200
abbrev ATT_PITEM : Nat := 0x208
abbrev ATT_DMAC : Nat := 0x210
abbrev ATT_DITEM : Nat := 0x218
abbrev ATT_DBYT_T0 : Nat := 0x220
abbrev ATT_DBYT_T1 : Nat := 0x228
abbrev ATT_DBYT_T2 : Nat := 0x230
abbrev ATT_PBYT : Nat := 0x238
abbrev ATT_STAT : Nat := 0x240
abbrev KVP_CTL : Nat := 0x100
abbrev KVP_CKPT : Nat := 0x104
abbrev KVP_HOLD : Nat := 0x108
abbrev KVP_T1_TOT : Nat := 0x110
abbrev KVP_T1_FREE : Nat := 0x114
abbrev KVP_T2_TOT : Nat := 0x118
abbrev KVP_T2_FREE : Nat := 0x11C
abbrev KVP_T3_OUT : Nat := 0x120
abbrev KVP_T3_IN : Nat := 0x124
abbrev KVP_RSV : Nat := 0x128
abbrev KVP_HOODS : Nat := 0x12C
abbrev KVP_ALLOC : Nat := 0x140
abbrev KVP_DEMOTE : Nat := 0x148
abbrev KVP_PROMOTE : Nat := 0x150
abbrev KVP_DROP : Nat := 0x158
abbrev KVP_RECOMP : Nat := 0x160
abbrev KVP_HELD : Nat := 0x168
abbrev KVP_NOSTATE : Nat := 0x170
abbrev KVP_EXPIRED : Nat := 0x178
abbrev KVP_CKPT_CNT : Nat := 0x180
abbrev KVP_ROLLBACK : Nat := 0x188
abbrev KVP_WINFREE : Nat := 0x190
abbrev KVP_SCRUB : Nat := 0x198
abbrev KVP_CX_CFG : Nat := 0x100
abbrev KVP_CX_GEOM : Nat := 0x104
abbrev KVP_CX_HBASE : Nat := 0x110
abbrev KVP_CX_HSIZE : Nat := 0x118
abbrev KVP_CX_HFREE : Nat := 0x11C
abbrev KVP_CX_T1_USED : Nat := 0x120
abbrev KVP_CX_T2_USED : Nat := 0x124
abbrev KVP_CX_T3_USED : Nat := 0x128
abbrev KVP_CX_T4_USED : Nat := 0x12C
abbrev KVP_CX_DROP : Nat := 0x140
abbrev KVP_CX_NOSTATE : Nat := 0x148
abbrev KVP_CX_EXPIRED : Nat := 0x150
abbrev KVP_CX_RSHORT : Nat := 0x158
abbrev RQT_CTL : Nat := 0x100
abbrev RQT_STA : Nat := 0x104
abbrev RQT_CAP : Nat := 0x108
abbrev RQT_PART : Nat := 0x200
abbrev RQT_ADMIT : Nat := 0x300
abbrev RQT_REJECT : Nat := 0x308
abbrev RQT_DONE : Nat := 0x310
abbrev RQT_FAIL : Nat := 0x318
abbrev RQT_TOK : Nat := 0x320
abbrev RQT_RINGHOLD : Nat := 0x328
abbrev RQT_IGNWR : Nat := 0x330
abbrev RQT_BADCONS : Nat := 0x338
abbrev RQT_NANSAMP : Nat := 0x340
abbrev RQT_DRAFT_PROP : Nat := 0x348
abbrev RQT_DRAFT_ACC : Nat := 0x350
abbrev RQT_CX_CFG : Nat := 0x100
abbrev RQT_CX_PART : Nat := 0x104
abbrev RQT_CX_DEPTH : Nat := 0x108
abbrev RQT_CX_PREF : Nat := 0x10C
abbrev RQT_CX_STG_BASE : Nat := 0x110
abbrev RQT_CX_STG_SIZE : Nat := 0x118
abbrev RQT_CX_MAXLEN : Nat := 0x11C
abbrev RQT_CX_VOCAB : Nat := 0x120
abbrev RQT_CX_ADMIT : Nat := 0x200
abbrev RQT_CX_REJECT : Nat := 0x208
abbrev RQT_CX_TOK : Nat := 0x210
abbrev RQT_CX_DONE : Nat := 0x218
abbrev RQT_CX_FAIL : Nat := 0x220
abbrev PLK_CTL : Nat := 0x100
abbrev PLK_STA : Nat := 0x104
abbrev PLK_APPLY : Nat := 0x108
abbrev PLK_CNT : Nat := 0x110
abbrev PLK_TIME : Nat := 0x118
abbrev PLK_NEXT : Nat := 0x120
abbrev PLK_MINWIN : Nat := 0x128
abbrev PLK_CH_STA : Nat := 0x100
abbrev PLK_SLIP : Nat := 0x140
abbrev PLK_OVERRUN : Nat := 0x148
abbrev LDR_CH_CTL : Nat := 0x100
abbrev LDR_CH_STA : Nat := 0x104
abbrev LDR_WEAR_MAX : Nat := 0x108
abbrev LDR_WEAR90_N : Nat := 0x10C
abbrev LDR_PASS : Nat := 0x140
abbrev LDR_VITER : Nat := 0x148
abbrev LDR_PAIRFAIL : Nat := 0x150
abbrev LDR_WRETIRE : Nat := 0x158
abbrev LDR_CMD : Nat := 0x100
abbrev LDR_CMD_STA : Nat := 0x104
abbrev LDR_WR_STA : Nat := 0x108
abbrev LDR_OPT : Nat := 0x10C
abbrev LDR_NEXT : Nat := 0x110
abbrev LDR_SIZE : Nat := 0x118
abbrev LDR_PROG : Nat := 0x120
abbrev LDR_RCMP : Nat := 0x128
abbrev LDR_CX_STA : Nat := 0x130
abbrev LDR_EPOCH : Nat := 0x134
abbrev LDR_WAVE : Nat := 0x138
abbrev LDR_TILES : Nat := 0x13C
abbrev LDR_HELD : Nat := 0x140
abbrev LDR_SWAPS : Nat := 0x148
abbrev ADP_CMD : Nat := 0x100
abbrev ADP_CMD_STA : Nat := 0x104
abbrev ADP_SRC : Nat := 0x108
abbrev ADP_SIZE : Nat := 0x110
abbrev ADP_SLOT : Nat := 0x140
abbrev ADP_COMMIT : Nat := 0x240
abbrev PLC_CH_CTL : Nat := 0x100
abbrev PLC_CH_STA : Nat := 0x104
abbrev PLC_SMOVE : Nat := 0x140
abbrev PLC_ADOPT : Nat := 0x148
abbrev PLC_STANDIN : Nat := 0x150
abbrev PLC_VICTIM : Nat := 0x158
abbrev PLC_HOME : Nat := 0x160
abbrev PLC_BGMOVE : Nat := 0x168
abbrev PLC_DEFER : Nat := 0x170
abbrev PLC_CX_CFG : Nat := 0x100
abbrev PLC_CX_RES : Nat := 0x104
abbrev PLC_CX_STA : Nat := 0x108
abbrev PLC_CX_SNAP_ADDR : Nat := 0x110
abbrev PLC_CX_SNAP_SIZE : Nat := 0x118
abbrev PLC_CX_SNAP_CMD : Nat := 0x11C
abbrev PLC_CX_SNAP_STA : Nat := 0x120
abbrev PLC_CX_GEN : Nat := 0x128
abbrev PLC_CX_IMG : Nat := 0x130
abbrev PLC_CX_IMGSZ : Nat := 0x138
abbrev SPD_CH_CTL : Nat := 0x100
abbrev SPD_PDWAIT : Nat := 0x104
abbrev SPD_PDIDLE : Nat := 0x108
abbrev SPD_DROP : Nat := 0x140
abbrev SPD_PDN : Nat := 0x148
abbrev SPD_WAKE : Nat := 0x150
abbrev SPD_STA : Nat := 0x100
abbrev SPD_BANKPD : Nat := 0x104
abbrev SPD_RGN : Nat := 0x108
abbrev SPD_ACC : Nat := 0x200
abbrev SPD_SBWAIT : Nat := 0x208
abbrev SPD_SBFULL : Nat := 0x210
abbrev SPD_GFLUSH : Nat := 0x218
abbrev SPD_RWAIT : Nat := 0x220
abbrev SPD_RCFG : Nat := 0x400
abbrev SPD_RHEAD : Nat := 0x500
abbrev SPD_RTAIL : Nat := 0x600
abbrev SYN_CTL : Nat := 0x100
abbrev SYN_HOLD : Nat := 0x104
abbrev SYN_WAITMAX : Nat := 0x108
abbrev SYN_STA : Nat := 0x10C
abbrev SYN_SIG : Nat := 0x140
abbrev SYN_RSIG : Nat := 0x148
abbrev SYN_HELDN : Nat := 0x150
abbrev SYN_HOLDTO : Nat := 0x158
abbrev SYN_NOROOM : Nat := 0x160
abbrev SYN_TENANT : Nat := 0x168
abbrev SYN_BROKEN : Nat := 0x170
abbrev SYN_DISC : Nat := 0x178
abbrev SYN_WAITTO : Nat := 0x180
abbrev SYN_CX_CMD : Nat := 0x100
abbrev SYN_CX_CMD_STA : Nat := 0x104
abbrev SYN_CX_TARGET : Nat := 0x108
abbrev SYN_CX_PEER : Nat := 0x10C
abbrev SYN_CX_QSEL : Nat := 0x110
abbrev SYN_CX_QSTA : Nat := 0x114
abbrev SYN_CX_QCNT : Nat := 0x118
abbrev SYN_CX_MAPPED : Nat := 0x11C
abbrev SYN_CX_SIG : Nat := 0x140
abbrev SYN_CX_TENANT : Nat := 0x148
abbrev SYN_CX_BROKEN : Nat := 0x150
abbrev EVF_NODE : Nat := 0x100
abbrev EVF_ENUM : Nat := 0x104
abbrev EVF_TIME_CTL : Nat := 0x108
abbrev EVF_TIME_STA : Nat := 0x10C
abbrev EVF_TOFF : Nat := 0x110
abbrev EVF_TIMEMSG : Nat := 0x140
abbrev EVF_PINMISS : Nat := 0x148
abbrev EVF_ENUMFWD : Nat := 0x150
abbrev EVF_CTL : Nat := 0x100
abbrev EVF_REPIN : Nat := 0x104
abbrev EVF_RT_IDX : Nat := 0x108
abbrev EVF_RT_DATA : Nat := 0x10C
abbrev EVF_CH_STA : Nat := 0x110
abbrev EVF_SIB : Nat := 0x120
abbrev EVF_NRSENT : Nat := 0x140
abbrev EVF_NRDROP : Nat := 0x148
abbrev EVF_REORD : Nat := 0x150
abbrev EVF_REMREJ : Nat := 0x158
abbrev EVF_HOPDROP : Nat := 0x160
abbrev EVF_COLL : Nat := 0x168
abbrev EVF_COLLFAIL : Nat := 0x170
abbrev EVF_DIGEST : Nat := 0x178
abbrev FLT_CTL : Nat := 0x100
abbrev FLT_STA : Nat := 0x104
abbrev FLT_CMD : Nat := 0x108
abbrev FLT_QLEFT : Nat := 0x10C
abbrev FLT_ACT : Nat := 0x110
abbrev FLT_CONTAIN : Nat := 0x140
abbrev FLT_RECOV : Nat := 0x148
abbrev FLT_RESTART : Nat := 0x150
abbrev FLT_REISSUE : Nat := 0x158
abbrev FLT_REPLAY : Nat := 0x160
abbrev FLT_RFAIL : Nat := 0x168
abbrev FLT_TENTER : Nat := 0x170
abbrev FLT_MOD_STA : Nat := 0x100
abbrev FLT_MOD_CFG : Nat := 0x104
abbrev FLT_DLV_SEL : Nat := 0x108
abbrev FLT_DLV_REC : Nat := 0x10C
abbrev FLT_DLV_POS : Nat := 0x110
abbrev FLT_MOD_HALT : Nat := 0x140
abbrev MON_CTL : Nat := 0x100
abbrev MON_STA : Nat := 0x104
abbrev MON_SLOT : Nat := 0x140
abbrev MON_RES : Nat := 0x180
abbrev MON_ISLOT : Nat := 0x1C0
abbrev MON_IRES : Nat := 0x1F0
abbrev MON_CONV : Nat := 0x200
abbrev MON_INJ : Nat := 0x208
abbrev MON_DISC : Nat := 0x210
abbrev MON_TRGMRG : Nat := 0x218
abbrev THM_CTL : Nat := 0x100
abbrev THM_LIM : Nat := 0x104
abbrev THM_GRACE : Nat := 0x108
abbrev THM_SD : Nat := 0x10C
abbrev THM_SD_TTL : Nat := 0x110
abbrev THM_SENS : Nat := 0x114
abbrev THM_SBAD : Nat := 0x118
abbrev THM_TIN : Nat := 0x11C
abbrev THM_CH_STA : Nat := 0x120
abbrev THM_CL : Nat := 0x140
abbrev THM_MOD : Nat := 0x160
abbrev THM_ASK : Nat := 0x180
abbrev THM_ENF : Nat := 0x188
abbrev THM_CUTPL : Nat := 0x190
abbrev THM_SLOWPL : Nat := 0x198
abbrev BKG_CTL : Nat := 0x100
abbrev BKG_LATE : Nat := 0x104
abbrev BKG_CMD : Nat := 0x108
abbrev BKG_CMD_STA : Nat := 0x10C
abbrev BKG_STA : Nat := 0x110
abbrev BKG_RUNS : Nat := 0x140
abbrev BKG_HELD : Nat := 0x148
abbrev BKG_TAPS : Nat := 0x150
abbrev BKG_STORE : Nat := 0x158
abbrev BKG_CO : Nat := 0x200
abbrev PWR_MOD_CAP : Nat := 0x100
abbrev PWR_MOD_CMD : Nat := 0x104
abbrev PWR_MOD_STA : Nat := 0x108
abbrev PWR_MOD_VIN : Nat := 0x10C
abbrev PWR_CAPCUT : Nat := 0x140
abbrev PWR_CH_CTL : Nat := 0x100
abbrev PWR_CH_CMD : Nat := 0x104
abbrev PWR_CH_STA : Nat := 0x108
abbrev PWR_CH_UNPWR : Nat := 0x10C
abbrev PWR_CH_TREADY : Nat := 0x110
abbrev PWR_C2 : Nat := 0x140
abbrev PWR_VTILE : Nat := 0x148
abbrev PWR_VPAIR : Nat := 0x150
abbrev MGT_CTL : Nat := 0x100
abbrev MGT_STA : Nat := 0x104
abbrev MGT_PID : Nat := 0x108
abbrev MGT_CAL : Nat := 0x110
abbrev MGT_TSTA : Nat := 0x118
abbrev MGT_REQ : Nat := 0x140
abbrev MGT_REJ : Nat := 0x148
abbrev MGT_IBI : Nat := 0x150
abbrev SEC_STA : Nat := 0x100
abbrev SEC_FW0 : Nat := 0x104
abbrev SEC_FW1 : Nat := 0x108
abbrev SEC_MINSVN : Nat := 0x10C
abbrev SEC_MEAS : Nat := 0x200
abbrev SEC_ATT : Nat := 0x140
abbrev SEC_UNLK : Nat := 0x148
abbrev SEC_UFAIL : Nat := 0x150
abbrev EVR_CTL : Nat := 0x100
abbrev EVR_STA : Nat := 0x104
abbrev EVR_OLDEST : Nat := 0x108
abbrev EVR_NEWEST : Nat := 0x110
abbrev EVR_CUR : Nat := 0x118
abbrev EVR_WSTA : Nat := 0x120
abbrev EVR_WSEQ : Nat := 0x124
abbrev EVR_WIN : Nat := 0x140
abbrev EVR_REC : Nat := 0x160
abbrev EVR_SUPP : Nat := 0x168
abbrev SEC_HUBFW : Nat := 0x100
abbrev SEC_HUBMIN : Nat := 0x104
abbrev SEC_FW_SRC : Nat := 0x108
abbrev SEC_FW_SIZE : Nat := 0x110
abbrev SEC_FW_CMD : Nat := 0x114
abbrev SEC_FW_STA : Nat := 0x118
abbrev SEC_HUBMGT : Nat := 0x11C
abbrev MON_CH_STA : Nat := 0x100
abbrev EVF_PSTA : Nat := 0x200
abbrev EVF_FECCOR : Nat := 0x208
abbrev EVF_FECUNC : Nat := 0x210
abbrev EVF_CRCERR : Nat := 0x218
abbrev EVF_REPLAY : Nat := 0x220
abbrev EVF_RETRAIN : Nat := 0x228
abbrev EVF_TXFLIT : Nat := 0x230
abbrev EVF_RXFLIT : Nat := 0x238
end Off

/-- PG_ID block type of a page (R439 and the chapters). -/
def PageKind.blockType : PageKind → Nat
  | .hub => 0x0001
  | .hubCx => 0x0002
  | .arrCh => 0x0020
  | .arr => 0x0021
  | .arrSpr => 0x0022
  | .corCh => 0x0023
  | .cor => 0x0024
  | .pnc => 0x0025
  | .fulCh => 0x0026
  | .ful => 0x0027
  | .accCh => 0x0028
  | .acc => 0x0029
  | .attCh => 0x002A
  | .att => 0x002B
  | .kvpCh => 0x002C
  | .kvpCx => 0x002D
  | .rqtCh => 0x002E
  | .rqtCx => 0x002F
  | .plk => 0x0030
  | .plkCh => 0x0031
  | .ldrCh => 0x0032
  | .ldrCx => 0x0033
  | .adpCx => 0x0034
  | .plcCh => 0x0035
  | .plcCx => 0x0036
  | .spdCh => 0x0037
  | .spd => 0x0038
  | .synCh => 0x0039
  | .synCx => 0x003A
  | .evfMod => 0x003B
  | .evfCh => 0x003C
  | .fltCh => 0x003D
  | .fltMod => 0x003E
  | .monCh => 0x003F
  | .mon => 0x0040
  | .thmCh => 0x0041
  | .bkgCh => 0x0042
  | .pwrMod => 0x0043
  | .pwrCh => 0x0044
  | .mgtCh => 0x0045
  | .secCh => 0x0046
  | .evrCh => 0x0047
  | .secMod => 0x0048

/-- Reset value of PG_SEV0, which encodes the default severities (R62, R104, R137 and so on). -/
def PageKind.sev0 : PageKind → Word
  | .hub => 0xF
  | .hubCx => 0x0
  | .arrCh => 0x265
  | .arr => 0x0
  | .arrSpr => 0x0
  | .corCh => 0xA54
  | .cor => 0x0
  | .pnc => 0x0
  | .fulCh => 0xA
  | .ful => 0x0
  | .accCh => 0xAA
  | .acc => 0x0
  | .attCh => 0xAA
  | .att => 0x0
  | .kvpCh => 0x22A
  | .kvpCx => 0x0
  | .rqtCh => 0xA
  | .rqtCx => 0x0
  | .plk => 0x0
  | .plkCh => 0x0
  | .ldrCh => 0x246
  | .ldrCx => 0x0
  | .adpCx => 0x0
  | .plcCh => 0x82
  | .plcCx => 0x0
  | .spdCh => 0x80A
  | .spd => 0x0
  | .synCh => 0xA
  | .synCx => 0x0
  | .evfMod => 0x0
  | .evfCh => 0x206
  | .fltCh => 0x2AB
  | .fltMod => 0x0
  | .monCh => 0x52
  | .mon => 0x0
  | .thmCh => 0xF02
  | .bkgCh => 0x16
  | .pwrMod => 0x0
  | .pwrCh => 0xE
  | .mgtCh => 0x2
  | .secCh => 0x0
  | .evrCh => 0x0
  | .secMod => 0x0

/-- Fault sources the page owns (PG_CAP.NSRC). -/
def PageKind.nsrc : PageKind → Nat
  | .hub => 5
  | .hubCx => 0
  | .arrCh => 6
  | .arr => 0
  | .arrSpr => 0
  | .corCh => 8
  | .cor => 0
  | .pnc => 0
  | .fulCh => 4
  | .ful => 0
  | .accCh => 5
  | .acc => 0
  | .attCh => 5
  | .att => 0
  | .kvpCh => 6
  | .kvpCx => 0
  | .rqtCh => 3
  | .rqtCx => 0
  | .plk => 0
  | .plkCh => 0
  | .ldrCh => 6
  | .ldrCx => 0
  | .adpCx => 0
  | .plcCh => 4
  | .plcCx => 0
  | .spdCh => 6
  | .spd => 0
  | .synCh => 6
  | .synCx => 0
  | .evfMod => 0
  | .evfCh => 9
  | .fltCh => 8
  | .fltMod => 0
  | .monCh => 4
  | .mon => 0
  | .thmCh => 6
  | .bkgCh => 4
  | .pwrMod => 0
  | .pwrCh => 2
  | .mgtCh => 2
  | .secCh => 2
  | .evrCh => 0
  | .secMod => 0

/-- PG_CAP.CX: the function of the page's context may reach the page. PLK and FLT_MOD are read by every function. -/
def PageKind.cx : PageKind → Bool
  | .hub => false
  | .hubCx => true
  | .arrCh => false
  | .arr => false
  | .arrSpr => false
  | .corCh => false
  | .cor => false
  | .pnc => false
  | .fulCh => false
  | .ful => false
  | .accCh => false
  | .acc => false
  | .attCh => false
  | .att => false
  | .kvpCh => false
  | .kvpCx => true
  | .rqtCh => false
  | .rqtCx => true
  | .plk => true
  | .plkCh => false
  | .ldrCh => false
  | .ldrCx => true
  | .adpCx => true
  | .plcCh => false
  | .plcCx => true
  | .spdCh => false
  | .spd => false
  | .synCh => false
  | .synCx => true
  | .evfMod => false
  | .evfCh => false
  | .fltCh => false
  | .fltMod => true
  | .monCh => false
  | .mon => false
  | .thmCh => false
  | .bkgCh => false
  | .pwrMod => false
  | .pwrCh => false
  | .mgtCh => false
  | .secCh => false
  | .evrCh => false
  | .secMod => false

/-- PG_CAP.MGT: the management controller may reach the page. -/
def PageKind.mgt : PageKind → Bool
  | .hub => true
  | .hubCx => false
  | .arrCh => false
  | .arr => false
  | .arrSpr => false
  | .corCh => false
  | .cor => false
  | .pnc => false
  | .fulCh => false
  | .ful => false
  | .accCh => false
  | .acc => false
  | .attCh => false
  | .att => false
  | .kvpCh => false
  | .kvpCx => false
  | .rqtCh => false
  | .rqtCx => false
  | .plk => false
  | .plkCh => false
  | .ldrCh => false
  | .ldrCx => false
  | .adpCx => false
  | .plcCh => false
  | .plcCx => false
  | .spdCh => false
  | .spd => false
  | .synCh => false
  | .synCx => false
  | .evfMod => false
  | .evfCh => false
  | .fltCh => true
  | .fltMod => false
  | .monCh => false
  | .mon => false
  | .thmCh => true
  | .bkgCh => false
  | .pwrMod => true
  | .pwrCh => true
  | .mgtCh => true
  | .secCh => true
  | .evrCh => true
  | .secMod => true

/-- The header every page begins with (R439), apart from the values that depend on the page. -/
def headerRows : List RegRow :=
  [⟨0x008, 1, 0, 1, 0, false⟩, ⟨0x00C, 1, 1, 0, 3, false⟩, ⟨0x010, 1, 0, 0, 0xFFFF, false⟩, ⟨0x014, 1, 0, 0, 0, false⟩,
   ⟨0x01C, 1, 0, 0xFFFFFFFF, 0, false⟩, ⟨0x020, 1, 0, 0, 0, true⟩]

/-- Page map hub. -/
def rows_hub : List RegRow :=
  [⟨0x100, 1, 0x3, 0x3, 0x0, false⟩, ⟨0x104, 1, 0x0, 0x0, 0x0, false⟩, ⟨0x108, 1, 0x20040FF, 0x0, 0x0, false⟩, ⟨0x140, 16, 0x0, 0xFFF, 0x0, false⟩,
   ⟨0x200, 1, 0x0, 0x0, 0x0, true⟩, ⟨0x204, 1, 0x0, 0x0, 0x0, true⟩, ⟨0x208, 1, 0x0, 0x0, 0x0, true⟩, ⟨0x20C, 1, 0x0, 0x0, 0x0, true⟩,
   ⟨0x210, 1, 0x0, 0x0, 0x0, true⟩, ⟨0x214, 1, 0x0, 0x0, 0x0, true⟩, ⟨0x218, 1, 0x0, 0x0, 0x0, true⟩, ⟨0x21C, 1, 0x0, 0x0, 0x0, true⟩,
   ⟨0x220, 1, 0x0, 0x0, 0x0, true⟩, ⟨0x224, 1, 0x0, 0x0, 0x0, true⟩, ⟨0x228, 1, 0x0, 0x0, 0x0, true⟩, ⟨0x22C, 1, 0x0, 0x0, 0x0, true⟩]

/-- Page map hubCx. -/
def rows_hubCx : List RegRow :=
  [⟨0x100, 1, 0x0, 0x1FFFF, 0x0, false⟩, ⟨0x104, 1, 0x0, 0x0, 0x0, false⟩, ⟨0x108, 1, 0x0, 0x0, 0x0, false⟩, ⟨0x10C, 1, 0x0, 0x0, 0x0, false⟩,
   ⟨0x140, 1, 0x0, 0x0, 0x0, true⟩, ⟨0x144, 1, 0x0, 0x0, 0x0, true⟩, ⟨0x148, 1, 0x0, 0x0, 0x0, true⟩, ⟨0x14C, 1, 0x0, 0x0, 0x0, true⟩]

/-- Page map arrCh. -/
def rows_arrCh : List RegRow :=
  []

/-- Page map arr. -/
def rows_arr : List RegRow :=
  [⟨0x100, 1, 0x1F, 0x1F, 0x0, false⟩, ⟨0x104, 1, 0x0, 0x0, 0x0, false⟩, ⟨0x110, 1, 0x0, 0x0, 0x0, false⟩, ⟨0x114, 1, 0x0, 0x0, 0x0, false⟩,
   ⟨0x140, 16, 0x10000, 0x0, 0x20, false⟩, ⟨0x180, 16, 0x0, 0x0, 0x0, false⟩, ⟨0x1C0, 16, 0x0, 0x0, 0x0, false⟩, ⟨0x200, 1, 0x0, 0x0, 0x0, true⟩,
   ⟨0x204, 1, 0x0, 0x0, 0x0, true⟩, ⟨0x208, 1, 0x0, 0x0, 0x0, true⟩, ⟨0x20C, 1, 0x0, 0x0, 0x0, true⟩, ⟨0x210, 1, 0x0, 0x0, 0x0, true⟩,
   ⟨0x214, 1, 0x0, 0x0, 0x0, true⟩, ⟨0x218, 1, 0x0, 0x0, 0x0, true⟩, ⟨0x21C, 1, 0x0, 0x0, 0x0, true⟩, ⟨0x220, 1, 0x0, 0x0, 0x0, true⟩,
   ⟨0x224, 1, 0x0, 0x0, 0x0, true⟩, ⟨0x228, 1, 0x0, 0x0, 0x0, true⟩, ⟨0x22C, 1, 0x0, 0x0, 0x0, true⟩, ⟨0x230, 1, 0x0, 0x0, 0x0, true⟩,
   ⟨0x234, 1, 0x0, 0x0, 0x0, true⟩, ⟨0x238, 1, 0x0, 0x0, 0x0, true⟩, ⟨0x23C, 1, 0x0, 0x0, 0x0, true⟩]

/-- Page map arrSpr. -/
def rows_arrSpr : List RegRow :=
  [⟨0x100, 4, 0x5, 0x0, 0x0, false⟩, ⟨0x110, 4, 0x0, 0x0, 0x0, false⟩]

/-- Page map corCh. -/
def rows_corCh : List RegRow :=
  [⟨0x100, 1, 0x101000, 0x1FFFFF, 0x0, false⟩, ⟨0x104, 1, 0x81850, 0xFFFFF, 0x0, false⟩, ⟨0x108, 1, 0x1400A1, 0x1F01F1, 0x0, false⟩, ⟨0x10C, 1, 0x400, 0xFFFF, 0x0, false⟩,
   ⟨0x110, 8, 0x0, 0x0, 0x0, false⟩, ⟨0x140, 1, 0x0, 0x0, 0x0, true⟩, ⟨0x144, 1, 0x0, 0x0, 0x0, true⟩, ⟨0x148, 1, 0x0, 0x0, 0x0, true⟩,
   ⟨0x14C, 1, 0x0, 0x0, 0x0, true⟩, ⟨0x150, 1, 0x0, 0x0, 0x0, true⟩, ⟨0x154, 1, 0x0, 0x0, 0x0, true⟩, ⟨0x158, 1, 0x0, 0x0, 0x0, true⟩,
   ⟨0x15C, 1, 0x0, 0x0, 0x0, true⟩, ⟨0x160, 1, 0x0, 0x0, 0x0, true⟩, ⟨0x164, 1, 0x0, 0x0, 0x0, true⟩]

/-- Page map cor. -/
def rows_cor : List RegRow :=
  [⟨0x100, 1, 0x1F, 0x1F, 0x0, false⟩, ⟨0x104, 1, 0x0, 0x0, 0x0, false⟩, ⟨0x140, 16, 0x8080, 0x0, 0x0, false⟩, ⟨0x200, 1, 0x0, 0x0, 0x0, true⟩,
   ⟨0x204, 1, 0x0, 0x0, 0x0, true⟩, ⟨0x208, 1, 0x0, 0x0, 0x0, true⟩, ⟨0x20C, 1, 0x0, 0x0, 0x0, true⟩, ⟨0x210, 1, 0x0, 0x0, 0x0, true⟩,
   ⟨0x214, 1, 0x0, 0x0, 0x0, true⟩, ⟨0x218, 1, 0x0, 0x0, 0x0, true⟩, ⟨0x21C, 1, 0x0, 0x0, 0x0, true⟩, ⟨0x220, 1, 0x0, 0x0, 0x0, true⟩,
   ⟨0x224, 1, 0x0, 0x0, 0x0, true⟩, ⟨0x228, 1, 0x0, 0x0, 0x0, true⟩, ⟨0x22C, 1, 0x0, 0x0, 0x0, true⟩, ⟨0x230, 1, 0x0, 0x0, 0x0, true⟩,
   ⟨0x234, 1, 0x0, 0x0, 0x0, true⟩]

/-- Page map pnc. -/
def rows_pnc : List RegRow :=
  [⟨0x100, 1, 0x60, 0x7F, 0x0, false⟩, ⟨0x104, 1, 0x0, 0x0, 0x0, false⟩, ⟨0x200, 1, 0x0, 0x0, 0x0, true⟩, ⟨0x204, 1, 0x0, 0x0, 0x0, true⟩,
   ⟨0x208, 1, 0x0, 0x0, 0x0, true⟩, ⟨0x20C, 1, 0x0, 0x0, 0x0, true⟩, ⟨0x210, 1, 0x0, 0x0, 0x0, true⟩, ⟨0x214, 1, 0x0, 0x0, 0x0, true⟩,
   ⟨0x218, 1, 0x0, 0x0, 0x0, true⟩, ⟨0x21C, 1, 0x0, 0x0, 0x0, true⟩, ⟨0x220, 1, 0x0, 0x0, 0x0, true⟩, ⟨0x224, 1, 0x0, 0x0, 0x0, true⟩,
   ⟨0x228, 1, 0x0, 0x0, 0x0, true⟩, ⟨0x22C, 1, 0x0, 0x0, 0x0, true⟩]

/-- Page map fulCh. -/
def rows_fulCh : List RegRow :=
  [⟨0x100, 1, 0x7, 0x7, 0x0, false⟩, ⟨0x104, 1, 0x400010, 0xFFF007F, 0x0, false⟩, ⟨0x110, 8, 0x0, 0x0, 0x0, false⟩, ⟨0x140, 1, 0x0, 0x0, 0x0, true⟩,
   ⟨0x144, 1, 0x0, 0x0, 0x0, true⟩, ⟨0x148, 1, 0x0, 0x0, 0x0, true⟩, ⟨0x14C, 1, 0x0, 0x0, 0x0, true⟩, ⟨0x150, 1, 0x0, 0x0, 0x0, true⟩,
   ⟨0x154, 1, 0x0, 0x0, 0x0, true⟩]

/-- Page map ful. -/
def rows_ful : List RegRow :=
  [⟨0x200, 1, 0x0, 0x0, 0x0, true⟩, ⟨0x204, 1, 0x0, 0x0, 0x0, true⟩, ⟨0x208, 1, 0x0, 0x0, 0x0, true⟩, ⟨0x20C, 1, 0x0, 0x0, 0x0, true⟩,
   ⟨0x210, 1, 0x0, 0x0, 0x0, true⟩, ⟨0x214, 1, 0x0, 0x0, 0x0, true⟩, ⟨0x218, 1, 0x0, 0x0, 0x0, true⟩, ⟨0x21C, 1, 0x0, 0x0, 0x0, true⟩,
   ⟨0x220, 1, 0x0, 0x0, 0x0, true⟩, ⟨0x224, 1, 0x0, 0x0, 0x0, true⟩, ⟨0x228, 1, 0x0, 0x0, 0x0, true⟩, ⟨0x22C, 1, 0x0, 0x0, 0x0, true⟩,
   ⟨0x230, 1, 0x0, 0x0, 0x0, true⟩, ⟨0x234, 1, 0x0, 0x0, 0x0, true⟩, ⟨0x238, 1, 0x0, 0x0, 0x0, true⟩, ⟨0x23C, 1, 0x0, 0x0, 0x0, true⟩,
   ⟨0x240, 1, 0x0, 0x0, 0x0, true⟩, ⟨0x244, 1, 0x0, 0x0, 0x0, true⟩, ⟨0x248, 1, 0x0, 0x0, 0x0, true⟩, ⟨0x24C, 1, 0x0, 0x0, 0x0, true⟩,
   ⟨0x250, 1, 0x0, 0x0, 0x0, true⟩, ⟨0x254, 1, 0x0, 0x0, 0x0, true⟩, ⟨0x258, 1, 0x0, 0x0, 0x0, true⟩, ⟨0x25C, 1, 0x0, 0x0, 0x0, true⟩,
   ⟨0x260, 1, 0x0, 0x0, 0x0, true⟩, ⟨0x264, 1, 0x0, 0x0, 0x0, true⟩]

/-- Page map accCh. -/
def rows_accCh : List RegRow :=
  [⟨0x100, 1, 0x1, 0x1, 0x0, false⟩, ⟨0x104, 1, 0x0, 0x0, 0x1, false⟩, ⟨0x140, 1, 0x0, 0x0, 0x0, true⟩, ⟨0x144, 1, 0x0, 0x0, 0x0, true⟩,
   ⟨0x148, 1, 0x0, 0x0, 0x0, true⟩, ⟨0x14C, 1, 0x0, 0x0, 0x0, true⟩]

/-- Page map acc. -/
def rows_acc : List RegRow :=
  [⟨0x100, 1, 0x0, 0x0, 0x400, false⟩, ⟨0x140, 16, 0x0, 0x0, 0x0, false⟩, ⟨0x180, 16, 0x0, 0x0, 0x0, false⟩, ⟨0x200, 1, 0x0, 0x0, 0x0, true⟩,
   ⟨0x204, 1, 0x0, 0x0, 0x0, true⟩, ⟨0x208, 1, 0x0, 0x0, 0x0, true⟩, ⟨0x20C, 1, 0x0, 0x0, 0x0, true⟩, ⟨0x210, 1, 0x0, 0x0, 0x0, true⟩,
   ⟨0x214, 1, 0x0, 0x0, 0x0, true⟩, ⟨0x218, 1, 0x0, 0x0, 0x0, true⟩, ⟨0x21C, 1, 0x0, 0x0, 0x0, true⟩, ⟨0x220, 1, 0x0, 0x0, 0x0, true⟩,
   ⟨0x224, 1, 0x0, 0x0, 0x0, true⟩, ⟨0x228, 1, 0x0, 0x0, 0x0, true⟩, ⟨0x22C, 1, 0x0, 0x0, 0x0, true⟩]

/-- Page map attCh. -/
def rows_attCh : List RegRow :=
  [⟨0x100, 1, 0x3, 0x3, 0x0, false⟩, ⟨0x104, 1, 0x40202D2, 0x0, 0x0, false⟩, ⟨0x140, 1, 0x0, 0x0, 0x0, true⟩, ⟨0x144, 1, 0x0, 0x0, 0x0, true⟩,
   ⟨0x148, 1, 0x0, 0x0, 0x0, true⟩, ⟨0x14C, 1, 0x0, 0x0, 0x0, true⟩, ⟨0x150, 1, 0x0, 0x0, 0x0, true⟩, ⟨0x154, 1, 0x0, 0x0, 0x0, true⟩,
   ⟨0x158, 1, 0x0, 0x0, 0x0, true⟩, ⟨0x15C, 1, 0x0, 0x0, 0x0, true⟩, ⟨0x160, 1, 0x0, 0x0, 0x0, true⟩, ⟨0x164, 1, 0x0, 0x0, 0x0, true⟩]

/-- Page map att. -/
def rows_att : List RegRow :=
  [⟨0x100, 1, 0x0, 0x0, 0x0, false⟩, ⟨0x104, 1, 0x0, 0x0, 0x0, false⟩, ⟨0x200, 1, 0x0, 0x0, 0x0, true⟩, ⟨0x204, 1, 0x0, 0x0, 0x0, true⟩,
   ⟨0x208, 1, 0x0, 0x0, 0x0, true⟩, ⟨0x20C, 1, 0x0, 0x0, 0x0, true⟩, ⟨0x210, 1, 0x0, 0x0, 0x0, true⟩, ⟨0x214, 1, 0x0, 0x0, 0x0, true⟩,
   ⟨0x218, 1, 0x0, 0x0, 0x0, true⟩, ⟨0x21C, 1, 0x0, 0x0, 0x0, true⟩, ⟨0x220, 1, 0x0, 0x0, 0x0, true⟩, ⟨0x224, 1, 0x0, 0x0, 0x0, true⟩,
   ⟨0x228, 1, 0x0, 0x0, 0x0, true⟩, ⟨0x22C, 1, 0x0, 0x0, 0x0, true⟩, ⟨0x230, 1, 0x0, 0x0, 0x0, true⟩, ⟨0x234, 1, 0x0, 0x0, 0x0, true⟩,
   ⟨0x238, 1, 0x0, 0x0, 0x0, true⟩, ⟨0x23C, 1, 0x0, 0x0, 0x0, true⟩, ⟨0x240, 1, 0x0, 0x0, 0x0, true⟩, ⟨0x244, 1, 0x0, 0x0, 0x0, true⟩]

/-- Page map kvpCh. -/
def rows_kvpCh : List RegRow :=
  [⟨0x100, 1, 0x5, 0x7, 0x0, false⟩, ⟨0x104, 1, 0x40, 0xFFF, 0x0, false⟩, ⟨0x108, 1, 0x10000, 0xFFFFFF, 0x0, false⟩, ⟨0x110, 1, 0x0, 0x0, 0x0, false⟩,
   ⟨0x114, 1, 0x0, 0x0, 0x0, false⟩, ⟨0x118, 1, 0x0, 0x0, 0x0, false⟩, ⟨0x11C, 1, 0x0, 0x0, 0x0, false⟩, ⟨0x120, 1, 0x0, 0x0, 0x0, false⟩,
   ⟨0x124, 1, 0x0, 0x0, 0x0, false⟩, ⟨0x128, 1, 0x0, 0x0, 0x0, false⟩, ⟨0x12C, 1, 0x0, 0x0, 0x0, false⟩, ⟨0x140, 1, 0x0, 0x0, 0x0, true⟩,
   ⟨0x144, 1, 0x0, 0x0, 0x0, true⟩, ⟨0x148, 1, 0x0, 0x0, 0x0, true⟩, ⟨0x14C, 1, 0x0, 0x0, 0x0, true⟩, ⟨0x150, 1, 0x0, 0x0, 0x0, true⟩,
   ⟨0x154, 1, 0x0, 0x0, 0x0, true⟩, ⟨0x158, 1, 0x0, 0x0, 0x0, true⟩, ⟨0x15C, 1, 0x0, 0x0, 0x0, true⟩, ⟨0x160, 1, 0x0, 0x0, 0x0, true⟩,
   ⟨0x164, 1, 0x0, 0x0, 0x0, true⟩, ⟨0x168, 1, 0x0, 0x0, 0x0, true⟩, ⟨0x16C, 1, 0x0, 0x0, 0x0, true⟩, ⟨0x170, 1, 0x0, 0x0, 0x0, true⟩,
   ⟨0x174, 1, 0x0, 0x0, 0x0, true⟩, ⟨0x178, 1, 0x0, 0x0, 0x0, true⟩, ⟨0x17C, 1, 0x0, 0x0, 0x0, true⟩, ⟨0x180, 1, 0x0, 0x0, 0x0, true⟩,
   ⟨0x184, 1, 0x0, 0x0, 0x0, true⟩, ⟨0x188, 1, 0x0, 0x0, 0x0, true⟩] ++
  [⟨0x18C, 1, 0x0, 0x0, 0x0, true⟩, ⟨0x190, 1, 0x0, 0x0, 0x0, true⟩, ⟨0x194, 1, 0x0, 0x0, 0x0, true⟩, ⟨0x198, 1, 0x0, 0x0, 0x0, true⟩,
   ⟨0x19C, 1, 0x0, 0x0, 0x0, true⟩]

/-- Page map kvpCx. -/
def rows_kvpCx : List RegRow :=
  [⟨0x100, 1, 0x0, 0x37FF, 0x0, false⟩, ⟨0x104, 1, 0x0, 0x0, 0x0, false⟩, ⟨0x110, 1, 0x0, 0xFFFC0000, 0x0, false⟩, ⟨0x114, 1, 0x0, 0xFFFFFFFF, 0x0, false⟩,
   ⟨0x118, 1, 0x0, 0xFFFFFF, 0x0, false⟩, ⟨0x11C, 1, 0x0, 0x0, 0x0, false⟩, ⟨0x120, 1, 0x0, 0x0, 0x0, false⟩, ⟨0x124, 1, 0x0, 0x0, 0x0, false⟩,
   ⟨0x128, 1, 0x0, 0x0, 0x0, false⟩, ⟨0x12C, 1, 0x0, 0x0, 0x0, false⟩, ⟨0x140, 1, 0x0, 0x0, 0x0, true⟩, ⟨0x144, 1, 0x0, 0x0, 0x0, true⟩,
   ⟨0x148, 1, 0x0, 0x0, 0x0, true⟩, ⟨0x14C, 1, 0x0, 0x0, 0x0, true⟩, ⟨0x150, 1, 0x0, 0x0, 0x0, true⟩, ⟨0x154, 1, 0x0, 0x0, 0x0, true⟩,
   ⟨0x158, 1, 0x0, 0x0, 0x0, true⟩, ⟨0x15C, 1, 0x0, 0x0, 0x0, true⟩]

/-- Page map rqtCh. -/
def rows_rqtCh : List RegRow :=
  [⟨0x100, 1, 0x3, 0x3, 0x0, false⟩, ⟨0x104, 1, 0x0, 0x0, 0x0, false⟩, ⟨0x108, 1, 0x1040200, 0x0, 0x0, false⟩, ⟨0x200, 64, 0x0, 0xFFFFFFFF, 0x0, false⟩,
   ⟨0x300, 1, 0x0, 0x0, 0x0, true⟩, ⟨0x304, 1, 0x0, 0x0, 0x0, true⟩, ⟨0x308, 1, 0x0, 0x0, 0x0, true⟩, ⟨0x30C, 1, 0x0, 0x0, 0x0, true⟩,
   ⟨0x310, 1, 0x0, 0x0, 0x0, true⟩, ⟨0x314, 1, 0x0, 0x0, 0x0, true⟩, ⟨0x318, 1, 0x0, 0x0, 0x0, true⟩, ⟨0x31C, 1, 0x0, 0x0, 0x0, true⟩,
   ⟨0x320, 1, 0x0, 0x0, 0x0, true⟩, ⟨0x324, 1, 0x0, 0x0, 0x0, true⟩, ⟨0x328, 1, 0x0, 0x0, 0x0, true⟩, ⟨0x32C, 1, 0x0, 0x0, 0x0, true⟩,
   ⟨0x330, 1, 0x0, 0x0, 0x0, true⟩, ⟨0x334, 1, 0x0, 0x0, 0x0, true⟩, ⟨0x338, 1, 0x0, 0x0, 0x0, true⟩, ⟨0x33C, 1, 0x0, 0x0, 0x0, true⟩,
   ⟨0x340, 1, 0x0, 0x0, 0x0, true⟩, ⟨0x344, 1, 0x0, 0x0, 0x0, true⟩, ⟨0x348, 1, 0x0, 0x0, 0x0, true⟩, ⟨0x34C, 1, 0x0, 0x0, 0x0, true⟩,
   ⟨0x350, 1, 0x0, 0x0, 0x0, true⟩, ⟨0x354, 1, 0x0, 0x0, 0x0, true⟩]

/-- Page map rqtCx. -/
def rows_rqtCx : List RegRow :=
  [⟨0x100, 1, 0x0, 0x7FF, 0x0, false⟩, ⟨0x104, 1, 0x0, 0x0, 0x0, false⟩, ⟨0x108, 1, 0x0, 0x0, 0x0, false⟩, ⟨0x10C, 1, 0x0, 0x0, 0x0, false⟩,
   ⟨0x110, 1, 0x0, 0x0, 0x0, false⟩, ⟨0x114, 1, 0x0, 0x0, 0x0, false⟩, ⟨0x118, 1, 0x0, 0x0, 0x0, false⟩, ⟨0x11C, 1, 0x0, 0x0, 0x0, false⟩,
   ⟨0x120, 1, 0x0, 0x0, 0x0, false⟩, ⟨0x200, 1, 0x0, 0x0, 0x0, true⟩, ⟨0x204, 1, 0x0, 0x0, 0x0, true⟩, ⟨0x208, 1, 0x0, 0x0, 0x0, true⟩,
   ⟨0x20C, 1, 0x0, 0x0, 0x0, true⟩, ⟨0x210, 1, 0x0, 0x0, 0x0, true⟩, ⟨0x214, 1, 0x0, 0x0, 0x0, true⟩, ⟨0x218, 1, 0x0, 0x0, 0x0, true⟩,
   ⟨0x21C, 1, 0x0, 0x0, 0x0, true⟩, ⟨0x220, 1, 0x0, 0x0, 0x0, true⟩, ⟨0x224, 1, 0x0, 0x0, 0x0, true⟩]

/-- Page map plk. -/
def rows_plk : List RegRow :=
  [⟨0x100, 1, 0x5510, 0x17FFF, 0x0, false⟩, ⟨0x104, 1, 0x551000, 0x0, 0x0, false⟩, ⟨0x108, 1, 0x0, 0x0, 0x0, false⟩, ⟨0x10C, 1, 0x0, 0x0, 0x0, false⟩,
   ⟨0x110, 1, 0x0, 0x0, 0x0, false⟩, ⟨0x114, 1, 0x0, 0x0, 0x0, false⟩, ⟨0x118, 1, 0x0, 0x0, 0x0, false⟩, ⟨0x11C, 1, 0x0, 0x0, 0x0, false⟩,
   ⟨0x120, 1, 0x0, 0x0, 0x0, false⟩, ⟨0x124, 1, 0x0, 0x0, 0x0, false⟩, ⟨0x128, 1, 0x0, 0x0, 0x0, false⟩]

/-- Page map plkCh. -/
def rows_plkCh : List RegRow :=
  [⟨0x100, 1, 0x0, 0x0, 0x0, false⟩, ⟨0x140, 1, 0x0, 0x0, 0x0, true⟩, ⟨0x144, 1, 0x0, 0x0, 0x0, true⟩, ⟨0x148, 1, 0x0, 0x0, 0x0, true⟩,
   ⟨0x14C, 1, 0x0, 0x0, 0x0, true⟩]

/-- Page map ldrCh. -/
def rows_ldrCh : List RegRow :=
  [⟨0x100, 1, 0x8, 0xF, 0x0, false⟩, ⟨0x104, 1, 0x0, 0x0, 0x0, false⟩, ⟨0x108, 1, 0x0, 0x0, 0x0, false⟩, ⟨0x10C, 1, 0x0, 0x0, 0x0, false⟩,
   ⟨0x140, 1, 0x0, 0x0, 0x0, true⟩, ⟨0x144, 1, 0x0, 0x0, 0x0, true⟩, ⟨0x148, 1, 0x0, 0x0, 0x0, true⟩, ⟨0x14C, 1, 0x0, 0x0, 0x0, true⟩,
   ⟨0x150, 1, 0x0, 0x0, 0x0, true⟩, ⟨0x154, 1, 0x0, 0x0, 0x0, true⟩, ⟨0x158, 1, 0x0, 0x0, 0x0, true⟩, ⟨0x15C, 1, 0x0, 0x0, 0x0, true⟩]

/-- Page map ldrCx. -/
def rows_ldrCx : List RegRow :=
  [⟨0x100, 1, 0x0, 0x0, 0x0, false⟩, ⟨0x104, 1, 0x0, 0x0, 0x0, false⟩, ⟨0x108, 1, 0x0, 0x0, 0x0, false⟩, ⟨0x10C, 1, 0x0, 0x1, 0x0, false⟩,
   ⟨0x110, 1, 0x0, 0xFFFFF000, 0x0, false⟩, ⟨0x114, 1, 0x0, 0xFFFFFFFF, 0x0, false⟩, ⟨0x118, 1, 0x0, 0xFFFFFFFF, 0x0, false⟩, ⟨0x11C, 1, 0x0, 0xFFFFFFFF, 0x0, false⟩,
   ⟨0x120, 1, 0x0, 0xFFFFFFF0, 0x0, false⟩, ⟨0x124, 1, 0x0, 0xFFFFFFFF, 0x0, false⟩, ⟨0x128, 1, 0x0, 0xFFFFFFC0, 0x0, false⟩, ⟨0x12C, 1, 0x0, 0xFFFFFFFF, 0x0, false⟩,
   ⟨0x130, 1, 0x0, 0x0, 0x0, false⟩, ⟨0x134, 1, 0x0, 0x0, 0x0, false⟩, ⟨0x138, 1, 0x0, 0x0, 0x0, false⟩, ⟨0x13C, 1, 0x0, 0x0, 0x0, false⟩,
   ⟨0x140, 1, 0x0, 0x0, 0x0, true⟩, ⟨0x144, 1, 0x0, 0x0, 0x0, true⟩, ⟨0x148, 1, 0x0, 0x0, 0x0, true⟩, ⟨0x14C, 1, 0x0, 0x0, 0x0, true⟩]

/-- Page map adpCx. -/
def rows_adpCx : List RegRow :=
  [⟨0x100, 1, 0x0, 0x0, 0x0, false⟩, ⟨0x104, 1, 0x0, 0x0, 0x0, false⟩, ⟨0x108, 1, 0x0, 0xFFFFF000, 0x0, false⟩, ⟨0x10C, 1, 0x0, 0xFFFFFFFF, 0x0, false⟩,
   ⟨0x110, 1, 0x0, 0xFFFFFFFF, 0x0, false⟩, ⟨0x140, 64, 0x0, 0x0, 0x0, false⟩, ⟨0x240, 1, 0x0, 0x0, 0x0, true⟩, ⟨0x244, 1, 0x0, 0x0, 0x0, true⟩]

/-- Page map plcCh. -/
def rows_plcCh : List RegRow :=
  [⟨0x100, 1, 0x10A01410, 0x1FFFFFFF, 0x0, false⟩, ⟨0x104, 1, 0x0, 0x0, 0x0, false⟩, ⟨0x140, 1, 0x0, 0x0, 0x0, true⟩, ⟨0x144, 1, 0x0, 0x0, 0x0, true⟩,
   ⟨0x148, 1, 0x0, 0x0, 0x0, true⟩, ⟨0x14C, 1, 0x0, 0x0, 0x0, true⟩, ⟨0x150, 1, 0x0, 0x0, 0x0, true⟩, ⟨0x154, 1, 0x0, 0x0, 0x0, true⟩,
   ⟨0x158, 1, 0x0, 0x0, 0x0, true⟩, ⟨0x15C, 1, 0x0, 0x0, 0x0, true⟩, ⟨0x160, 1, 0x0, 0x0, 0x0, true⟩, ⟨0x164, 1, 0x0, 0x0, 0x0, true⟩,
   ⟨0x168, 1, 0x0, 0x0, 0x0, true⟩, ⟨0x16C, 1, 0x0, 0x0, 0x0, true⟩, ⟨0x170, 1, 0x0, 0x0, 0x0, true⟩, ⟨0x174, 1, 0x0, 0x0, 0x0, true⟩]

/-- Page map plcCx. -/
def rows_plcCx : List RegRow :=
  [⟨0x100, 1, 0xFF, 0x7FF, 0x0, false⟩, ⟨0x104, 1, 0x0, 0xFFFFFF, 0x0, false⟩, ⟨0x108, 1, 0x0, 0x0, 0x0, false⟩, ⟨0x110, 1, 0x0, 0xFFFFFFC0, 0x0, false⟩,
   ⟨0x114, 1, 0x0, 0xFFFFFFFF, 0x0, false⟩, ⟨0x118, 1, 0x0, 0xFFFFFFFF, 0x0, false⟩, ⟨0x11C, 1, 0x0, 0x0, 0x0, false⟩, ⟨0x120, 1, 0x0, 0x0, 0x0, false⟩,
   ⟨0x128, 1, 0x0, 0x0, 0x0, false⟩, ⟨0x12C, 1, 0x0, 0x0, 0x0, false⟩, ⟨0x130, 1, 0x0, 0x0, 0x0, false⟩, ⟨0x134, 1, 0x0, 0x0, 0x0, false⟩,
   ⟨0x138, 1, 0x0, 0x0, 0x0, false⟩, ⟨0x13C, 1, 0x0, 0x0, 0x0, false⟩]

/-- Page map spdCh. -/
def rows_spdCh : List RegRow :=
  [⟨0x100, 1, 0x3, 0x3, 0x0, false⟩, ⟨0x104, 1, 0xA, 0xFFF, 0x0, false⟩, ⟨0x108, 1, 0x4, 0xFF, 0x0, false⟩, ⟨0x140, 1, 0x0, 0x0, 0x0, true⟩,
   ⟨0x144, 1, 0x0, 0x0, 0x0, true⟩, ⟨0x148, 1, 0x0, 0x0, 0x0, true⟩, ⟨0x14C, 1, 0x0, 0x0, 0x0, true⟩, ⟨0x150, 1, 0x0, 0x0, 0x0, true⟩,
   ⟨0x154, 1, 0x0, 0x0, 0x0, true⟩]

/-- Page map spd. -/
def rows_spd : List RegRow :=
  [⟨0x100, 1, 0x0, 0x0, 0x0, false⟩, ⟨0x104, 1, 0x0, 0x0, 0x0, false⟩, ⟨0x108, 1, 0x0, 0x0, 0x0, false⟩, ⟨0x10C, 1, 0x0, 0x0, 0x0, false⟩,
   ⟨0x200, 1, 0x0, 0x0, 0x0, true⟩, ⟨0x204, 1, 0x0, 0x0, 0x0, true⟩, ⟨0x208, 1, 0x0, 0x0, 0x0, true⟩, ⟨0x20C, 1, 0x0, 0x0, 0x0, true⟩,
   ⟨0x210, 1, 0x0, 0x0, 0x0, true⟩, ⟨0x214, 1, 0x0, 0x0, 0x0, true⟩, ⟨0x218, 1, 0x0, 0x0, 0x0, true⟩, ⟨0x21C, 1, 0x0, 0x0, 0x0, true⟩,
   ⟨0x220, 1, 0x0, 0x0, 0x0, true⟩, ⟨0x224, 1, 0x0, 0x0, 0x0, true⟩, ⟨0x400, 64, 0x0, 0x0, 0x0, false⟩, ⟨0x500, 64, 0x0, 0x0, 0x0, false⟩,
   ⟨0x600, 64, 0x0, 0x0, 0x0, false⟩]

/-- Page map synCh. -/
def rows_synCh : List RegRow :=
  [⟨0x100, 1, 0x1, 0x1, 0x0, false⟩, ⟨0x104, 1, 0xC8, 0xFFF, 0x0, false⟩, ⟨0x108, 1, 0x1000, 0xFFFFFF, 0x0, false⟩, ⟨0x10C, 1, 0x0, 0x0, 0x0, false⟩,
   ⟨0x140, 1, 0x0, 0x0, 0x0, true⟩, ⟨0x144, 1, 0x0, 0x0, 0x0, true⟩, ⟨0x148, 1, 0x0, 0x0, 0x0, true⟩, ⟨0x14C, 1, 0x0, 0x0, 0x0, true⟩,
   ⟨0x150, 1, 0x0, 0x0, 0x0, true⟩, ⟨0x154, 1, 0x0, 0x0, 0x0, true⟩, ⟨0x158, 1, 0x0, 0x0, 0x0, true⟩, ⟨0x15C, 1, 0x0, 0x0, 0x0, true⟩,
   ⟨0x160, 1, 0x0, 0x0, 0x0, true⟩, ⟨0x164, 1, 0x0, 0x0, 0x0, true⟩, ⟨0x168, 1, 0x0, 0x0, 0x0, true⟩, ⟨0x16C, 1, 0x0, 0x0, 0x0, true⟩,
   ⟨0x170, 1, 0x0, 0x0, 0x0, true⟩, ⟨0x174, 1, 0x0, 0x0, 0x0, true⟩, ⟨0x178, 1, 0x0, 0x0, 0x0, true⟩, ⟨0x17C, 1, 0x0, 0x0, 0x0, true⟩,
   ⟨0x180, 1, 0x0, 0x0, 0x0, true⟩, ⟨0x184, 1, 0x0, 0x0, 0x0, true⟩]

/-- Page map synCx. -/
def rows_synCx : List RegRow :=
  [⟨0x100, 1, 0x0, 0x0, 0x0, false⟩, ⟨0x104, 1, 0x0, 0x0, 0x0, false⟩, ⟨0x108, 1, 0x1, 0xFFFFFF, 0x0, false⟩, ⟨0x10C, 1, 0x0, 0x1FFFFFF, 0x0, false⟩,
   ⟨0x110, 1, 0x0, 0xFFF, 0x0, false⟩, ⟨0x114, 1, 0x0, 0x0, 0x0, false⟩, ⟨0x118, 1, 0x0, 0x0, 0x0, false⟩, ⟨0x11C, 1, 0x0, 0x0, 0x0, false⟩,
   ⟨0x140, 1, 0x0, 0x0, 0x0, true⟩, ⟨0x144, 1, 0x0, 0x0, 0x0, true⟩, ⟨0x148, 1, 0x0, 0x0, 0x0, true⟩, ⟨0x14C, 1, 0x0, 0x0, 0x0, true⟩,
   ⟨0x150, 1, 0x0, 0x0, 0x0, true⟩, ⟨0x154, 1, 0x0, 0x0, 0x0, true⟩]

/-- Page map evfMod. -/
def rows_evfMod : List RegRow :=
  [⟨0x100, 1, 0x0, 0xFFFF, 0x0, false⟩, ⟨0x104, 1, 0x0, 0x7FFF0003, 0x0, false⟩, ⟨0x108, 1, 0x1400, 0xFF03, 0x0, false⟩, ⟨0x10C, 1, 0x0, 0x0, 0x0, false⟩,
   ⟨0x110, 1, 0x0, 0x0, 0x0, false⟩, ⟨0x140, 1, 0x0, 0x0, 0x0, true⟩, ⟨0x144, 1, 0x0, 0x0, 0x0, true⟩, ⟨0x148, 1, 0x0, 0x0, 0x0, true⟩,
   ⟨0x14C, 1, 0x0, 0x0, 0x0, true⟩, ⟨0x150, 1, 0x0, 0x0, 0x0, true⟩, ⟨0x154, 1, 0x0, 0x0, 0x0, true⟩]

/-- Page map evfCh. -/
def rows_evfCh : List RegRow :=
  [⟨0x100, 1, 0x1FF, 0x1FF, 0x0, false⟩, ⟨0x104, 1, 0x8, 0xFF, 0x0, false⟩, ⟨0x108, 1, 0x0, 0x7FFF, 0x0, false⟩, ⟨0x10C, 1, 0x0, 0x1FF, 0x0, false⟩,
   ⟨0x110, 1, 0x0, 0x0, 0x0, false⟩, ⟨0x120, 8, 0x0, 0xFF, 0x0, false⟩, ⟨0x140, 1, 0x0, 0x0, 0x0, true⟩, ⟨0x144, 1, 0x0, 0x0, 0x0, true⟩,
   ⟨0x148, 1, 0x0, 0x0, 0x0, true⟩, ⟨0x14C, 1, 0x0, 0x0, 0x0, true⟩, ⟨0x150, 1, 0x0, 0x0, 0x0, true⟩, ⟨0x154, 1, 0x0, 0x0, 0x0, true⟩,
   ⟨0x158, 1, 0x0, 0x0, 0x0, true⟩, ⟨0x15C, 1, 0x0, 0x0, 0x0, true⟩, ⟨0x160, 1, 0x0, 0x0, 0x0, true⟩, ⟨0x164, 1, 0x0, 0x0, 0x0, true⟩,
   ⟨0x168, 1, 0x0, 0x0, 0x0, true⟩, ⟨0x16C, 1, 0x0, 0x0, 0x0, true⟩, ⟨0x170, 1, 0x0, 0x0, 0x0, true⟩, ⟨0x174, 1, 0x0, 0x0, 0x0, true⟩,
   ⟨0x178, 1, 0x0, 0x0, 0x0, true⟩, ⟨0x17C, 1, 0x0, 0x0, 0x0, true⟩, ⟨0x200, 1, 0x0, 0x0, 0x0, false⟩, ⟨0x208, 1, 0x0, 0x0, 0x0, true⟩,
   ⟨0x20C, 1, 0x0, 0x0, 0x0, true⟩, ⟨0x210, 1, 0x0, 0x0, 0x0, true⟩, ⟨0x214, 1, 0x0, 0x0, 0x0, true⟩, ⟨0x218, 1, 0x0, 0x0, 0x0, true⟩,
   ⟨0x21C, 1, 0x0, 0x0, 0x0, true⟩, ⟨0x220, 1, 0x0, 0x0, 0x0, true⟩] ++
  [⟨0x224, 1, 0x0, 0x0, 0x0, true⟩, ⟨0x228, 1, 0x0, 0x0, 0x0, true⟩, ⟨0x22C, 1, 0x0, 0x0, 0x0, true⟩, ⟨0x230, 1, 0x0, 0x0, 0x0, true⟩,
   ⟨0x234, 1, 0x0, 0x0, 0x0, true⟩, ⟨0x238, 1, 0x0, 0x0, 0x0, true⟩, ⟨0x23C, 1, 0x0, 0x0, 0x0, true⟩, ⟨0x240, 1, 0x0, 0x0, 0x0, false⟩,
   ⟨0x248, 1, 0x0, 0x0, 0x0, true⟩, ⟨0x24C, 1, 0x0, 0x0, 0x0, true⟩, ⟨0x250, 1, 0x0, 0x0, 0x0, true⟩, ⟨0x254, 1, 0x0, 0x0, 0x0, true⟩,
   ⟨0x258, 1, 0x0, 0x0, 0x0, true⟩, ⟨0x25C, 1, 0x0, 0x0, 0x0, true⟩, ⟨0x260, 1, 0x0, 0x0, 0x0, true⟩, ⟨0x264, 1, 0x0, 0x0, 0x0, true⟩,
   ⟨0x268, 1, 0x0, 0x0, 0x0, true⟩, ⟨0x26C, 1, 0x0, 0x0, 0x0, true⟩, ⟨0x270, 1, 0x0, 0x0, 0x0, true⟩, ⟨0x274, 1, 0x0, 0x0, 0x0, true⟩,
   ⟨0x278, 1, 0x0, 0x0, 0x0, true⟩, ⟨0x27C, 1, 0x0, 0x0, 0x0, true⟩, ⟨0x280, 1, 0x0, 0x0, 0x0, false⟩, ⟨0x288, 1, 0x0, 0x0, 0x0, true⟩,
   ⟨0x28C, 1, 0x0, 0x0, 0x0, true⟩, ⟨0x290, 1, 0x0, 0x0, 0x0, true⟩, ⟨0x294, 1, 0x0, 0x0, 0x0, true⟩, ⟨0x298, 1, 0x0, 0x0, 0x0, true⟩,
   ⟨0x29C, 1, 0x0, 0x0, 0x0, true⟩, ⟨0x2A0, 1, 0x0, 0x0, 0x0, true⟩] ++
  [⟨0x2A4, 1, 0x0, 0x0, 0x0, true⟩, ⟨0x2A8, 1, 0x0, 0x0, 0x0, true⟩, ⟨0x2AC, 1, 0x0, 0x0, 0x0, true⟩, ⟨0x2B0, 1, 0x0, 0x0, 0x0, true⟩,
   ⟨0x2B4, 1, 0x0, 0x0, 0x0, true⟩, ⟨0x2B8, 1, 0x0, 0x0, 0x0, true⟩, ⟨0x2BC, 1, 0x0, 0x0, 0x0, true⟩, ⟨0x2C0, 1, 0x0, 0x0, 0x0, false⟩,
   ⟨0x2C8, 1, 0x0, 0x0, 0x0, true⟩, ⟨0x2CC, 1, 0x0, 0x0, 0x0, true⟩, ⟨0x2D0, 1, 0x0, 0x0, 0x0, true⟩, ⟨0x2D4, 1, 0x0, 0x0, 0x0, true⟩,
   ⟨0x2D8, 1, 0x0, 0x0, 0x0, true⟩, ⟨0x2DC, 1, 0x0, 0x0, 0x0, true⟩, ⟨0x2E0, 1, 0x0, 0x0, 0x0, true⟩, ⟨0x2E4, 1, 0x0, 0x0, 0x0, true⟩,
   ⟨0x2E8, 1, 0x0, 0x0, 0x0, true⟩, ⟨0x2EC, 1, 0x0, 0x0, 0x0, true⟩, ⟨0x2F0, 1, 0x0, 0x0, 0x0, true⟩, ⟨0x2F4, 1, 0x0, 0x0, 0x0, true⟩,
   ⟨0x2F8, 1, 0x0, 0x0, 0x0, true⟩, ⟨0x2FC, 1, 0x0, 0x0, 0x0, true⟩, ⟨0x300, 1, 0x0, 0x0, 0x0, false⟩, ⟨0x308, 1, 0x0, 0x0, 0x0, true⟩,
   ⟨0x30C, 1, 0x0, 0x0, 0x0, true⟩, ⟨0x310, 1, 0x0, 0x0, 0x0, true⟩, ⟨0x314, 1, 0x0, 0x0, 0x0, true⟩, ⟨0x318, 1, 0x0, 0x0, 0x0, true⟩,
   ⟨0x31C, 1, 0x0, 0x0, 0x0, true⟩, ⟨0x320, 1, 0x0, 0x0, 0x0, true⟩] ++
  [⟨0x324, 1, 0x0, 0x0, 0x0, true⟩, ⟨0x328, 1, 0x0, 0x0, 0x0, true⟩, ⟨0x32C, 1, 0x0, 0x0, 0x0, true⟩, ⟨0x330, 1, 0x0, 0x0, 0x0, true⟩,
   ⟨0x334, 1, 0x0, 0x0, 0x0, true⟩, ⟨0x338, 1, 0x0, 0x0, 0x0, true⟩, ⟨0x33C, 1, 0x0, 0x0, 0x0, true⟩, ⟨0x340, 1, 0x0, 0x0, 0x0, false⟩,
   ⟨0x348, 1, 0x0, 0x0, 0x0, true⟩, ⟨0x34C, 1, 0x0, 0x0, 0x0, true⟩, ⟨0x350, 1, 0x0, 0x0, 0x0, true⟩, ⟨0x354, 1, 0x0, 0x0, 0x0, true⟩,
   ⟨0x358, 1, 0x0, 0x0, 0x0, true⟩, ⟨0x35C, 1, 0x0, 0x0, 0x0, true⟩, ⟨0x360, 1, 0x0, 0x0, 0x0, true⟩, ⟨0x364, 1, 0x0, 0x0, 0x0, true⟩,
   ⟨0x368, 1, 0x0, 0x0, 0x0, true⟩, ⟨0x36C, 1, 0x0, 0x0, 0x0, true⟩, ⟨0x370, 1, 0x0, 0x0, 0x0, true⟩, ⟨0x374, 1, 0x0, 0x0, 0x0, true⟩,
   ⟨0x378, 1, 0x0, 0x0, 0x0, true⟩, ⟨0x37C, 1, 0x0, 0x0, 0x0, true⟩, ⟨0x380, 1, 0x0, 0x0, 0x0, false⟩, ⟨0x388, 1, 0x0, 0x0, 0x0, true⟩,
   ⟨0x38C, 1, 0x0, 0x0, 0x0, true⟩, ⟨0x390, 1, 0x0, 0x0, 0x0, true⟩, ⟨0x394, 1, 0x0, 0x0, 0x0, true⟩, ⟨0x398, 1, 0x0, 0x0, 0x0, true⟩,
   ⟨0x39C, 1, 0x0, 0x0, 0x0, true⟩, ⟨0x3A0, 1, 0x0, 0x0, 0x0, true⟩] ++
  [⟨0x3A4, 1, 0x0, 0x0, 0x0, true⟩, ⟨0x3A8, 1, 0x0, 0x0, 0x0, true⟩, ⟨0x3AC, 1, 0x0, 0x0, 0x0, true⟩, ⟨0x3B0, 1, 0x0, 0x0, 0x0, true⟩,
   ⟨0x3B4, 1, 0x0, 0x0, 0x0, true⟩, ⟨0x3B8, 1, 0x0, 0x0, 0x0, true⟩, ⟨0x3BC, 1, 0x0, 0x0, 0x0, true⟩, ⟨0x3C0, 1, 0x0, 0x0, 0x0, false⟩,
   ⟨0x3C8, 1, 0x0, 0x0, 0x0, true⟩, ⟨0x3CC, 1, 0x0, 0x0, 0x0, true⟩, ⟨0x3D0, 1, 0x0, 0x0, 0x0, true⟩, ⟨0x3D4, 1, 0x0, 0x0, 0x0, true⟩,
   ⟨0x3D8, 1, 0x0, 0x0, 0x0, true⟩, ⟨0x3DC, 1, 0x0, 0x0, 0x0, true⟩, ⟨0x3E0, 1, 0x0, 0x0, 0x0, true⟩, ⟨0x3E4, 1, 0x0, 0x0, 0x0, true⟩,
   ⟨0x3E8, 1, 0x0, 0x0, 0x0, true⟩, ⟨0x3EC, 1, 0x0, 0x0, 0x0, true⟩, ⟨0x3F0, 1, 0x0, 0x0, 0x0, true⟩, ⟨0x3F4, 1, 0x0, 0x0, 0x0, true⟩,
   ⟨0x3F8, 1, 0x0, 0x0, 0x0, true⟩, ⟨0x3FC, 1, 0x0, 0x0, 0x0, true⟩]

/-- Page map fltCh. -/
def rows_fltCh : List RegRow :=
  [⟨0x100, 1, 0x3800FA, 0x3FFFFF, 0x0, false⟩, ⟨0x104, 1, 0x7F0, 0x0, 0x0, false⟩, ⟨0x108, 1, 0x0, 0x0, 0x0, false⟩, ⟨0x10C, 1, 0x0, 0x0, 0x0, false⟩,
   ⟨0x110, 3, 0x0, 0x0, 0x0, false⟩, ⟨0x140, 1, 0x0, 0x0, 0x0, true⟩, ⟨0x144, 1, 0x0, 0x0, 0x0, true⟩, ⟨0x148, 1, 0x0, 0x0, 0x0, true⟩,
   ⟨0x14C, 1, 0x0, 0x0, 0x0, true⟩, ⟨0x150, 1, 0x0, 0x0, 0x0, true⟩, ⟨0x154, 1, 0x0, 0x0, 0x0, true⟩, ⟨0x158, 1, 0x0, 0x0, 0x0, true⟩,
   ⟨0x15C, 1, 0x0, 0x0, 0x0, true⟩, ⟨0x160, 1, 0x0, 0x0, 0x0, true⟩, ⟨0x164, 1, 0x0, 0x0, 0x0, true⟩, ⟨0x168, 1, 0x0, 0x0, 0x0, true⟩,
   ⟨0x16C, 1, 0x0, 0x0, 0x0, true⟩, ⟨0x170, 1, 0x0, 0x0, 0x0, false⟩, ⟨0x174, 1, 0x0, 0x0, 0x0, false⟩]

/-- Page map fltMod. -/
def rows_fltMod : List RegRow :=
  [⟨0x100, 1, 0x0, 0x0, 0x0, false⟩, ⟨0x104, 1, 0x0, 0x7FF, 0x0, false⟩, ⟨0x108, 1, 0x0, 0xFFF, 0x0, false⟩, ⟨0x10C, 1, 0x0, 0x0, 0x0, false⟩,
   ⟨0x110, 1, 0x0, 0x0, 0x0, false⟩, ⟨0x140, 1, 0x0, 0x0, 0x0, true⟩, ⟨0x144, 1, 0x0, 0x0, 0x0, true⟩]

/-- Page map monCh. -/
def rows_monCh : List RegRow :=
  [⟨0x100, 1, 0x0, 0x0, 0x0, false⟩]

/-- Page map mon. -/
def rows_mon : List RegRow :=
  [⟨0x100, 1, 0x3F1, 0x3FF, 0x0, false⟩, ⟨0x104, 1, 0x0, 0x0, 0x0, false⟩, ⟨0x140, 16, 0x0, 0x3FFF, 0x0, false⟩, ⟨0x180, 16, 0x0, 0x0, 0x0, false⟩,
   ⟨0x1C0, 12, 0x0, 0x7FFF, 0x0, false⟩, ⟨0x1F0, 4, 0x0, 0x0, 0x0, false⟩, ⟨0x200, 1, 0x0, 0x0, 0x0, true⟩, ⟨0x204, 1, 0x0, 0x0, 0x0, true⟩,
   ⟨0x208, 1, 0x0, 0x0, 0x0, true⟩, ⟨0x20C, 1, 0x0, 0x0, 0x0, true⟩, ⟨0x210, 1, 0x0, 0x0, 0x0, true⟩, ⟨0x214, 1, 0x0, 0x0, 0x0, true⟩,
   ⟨0x218, 1, 0x0, 0x0, 0x0, true⟩, ⟨0x21C, 1, 0x0, 0x0, 0x0, true⟩]

/-- Page map thmCh. -/
def rows_thmCh : List RegRow :=
  [⟨0x100, 1, 0x6, 0x3FFF, 0x0, false⟩, ⟨0x104, 1, 0x73695F, 0xFFFFFF, 0x0, false⟩, ⟨0x108, 1, 0xC35, 0xFFFFFF, 0x0, false⟩, ⟨0x10C, 1, 0xC8, 0xFFFF, 0x0, false⟩,
   ⟨0x110, 1, 0x5265C00, 0xFFFFFFFF, 0x0, false⟩, ⟨0x114, 1, 0x0, 0xFFFFFFFF, 0x0, false⟩, ⟨0x118, 1, 0x0, 0x0, 0x0, false⟩, ⟨0x11C, 1, 0x0, 0x0, 0x0, false⟩,
   ⟨0x120, 1, 0x0, 0x0, 0x0, false⟩, ⟨0x140, 8, 0x0, 0x0, 0x0, false⟩, ⟨0x160, 8, 0x0, 0x0, 0x0, false⟩, ⟨0x180, 1, 0x0, 0x0, 0x0, true⟩,
   ⟨0x184, 1, 0x0, 0x0, 0x0, true⟩, ⟨0x188, 1, 0x0, 0x0, 0x0, true⟩, ⟨0x18C, 1, 0x0, 0x0, 0x0, true⟩, ⟨0x190, 1, 0x0, 0x0, 0x0, true⟩,
   ⟨0x194, 1, 0x0, 0x0, 0x0, true⟩, ⟨0x198, 1, 0x0, 0x0, 0x0, true⟩, ⟨0x19C, 1, 0x0, 0x0, 0x0, true⟩]

/-- Page map bkgCh. -/
def rows_bkgCh : List RegRow :=
  [⟨0x100, 1, 0x91, 0x1FF, 0x0, false⟩, ⟨0x104, 1, 0x10000, 0xFFFFFF, 0x0, false⟩, ⟨0x108, 1, 0x0, 0x0, 0x0, false⟩, ⟨0x10C, 1, 0x0, 0x0, 0x0, false⟩,
   ⟨0x110, 1, 0x0, 0x0, 0x0, false⟩, ⟨0x140, 1, 0x0, 0x0, 0x0, true⟩, ⟨0x144, 1, 0x0, 0x0, 0x0, true⟩, ⟨0x148, 1, 0x0, 0x0, 0x0, true⟩,
   ⟨0x14C, 1, 0x0, 0x0, 0x0, true⟩, ⟨0x150, 1, 0x0, 0x0, 0x0, true⟩, ⟨0x154, 1, 0x0, 0x0, 0x0, true⟩, ⟨0x158, 1, 0x0, 0x0, 0x0, true⟩,
   ⟨0x15C, 1, 0x0, 0x0, 0x0, true⟩, ⟨0x200, 64, 0x0, 0x0, 0x0, false⟩]

/-- Page map pwrMod. -/
def rows_pwrMod : List RegRow :=
  [⟨0x100, 1, 0x38, 0x3F, 0x0, false⟩, ⟨0x104, 1, 0x0, 0x0, 0x0, false⟩, ⟨0x108, 1, 0x0, 0x0, 0x0, false⟩, ⟨0x10C, 1, 0x0, 0x0, 0x0, false⟩,
   ⟨0x140, 1, 0x0, 0x0, 0x0, true⟩, ⟨0x144, 1, 0x0, 0x0, 0x0, true⟩]

/-- Page map pwrCh. -/
def rows_pwrCh : List RegRow :=
  [⟨0x100, 1, 0x110, 0x1FF, 0x0, false⟩, ⟨0x104, 1, 0x0, 0x0, 0x0, false⟩, ⟨0x108, 1, 0x18, 0x0, 0x0, false⟩, ⟨0x10C, 1, 0x0, 0x0, 0x0, false⟩,
   ⟨0x110, 1, 0x0, 0x0, 0x0, false⟩, ⟨0x140, 1, 0x0, 0x0, 0x0, true⟩, ⟨0x144, 1, 0x0, 0x0, 0x0, true⟩, ⟨0x148, 1, 0x0, 0x0, 0x0, true⟩,
   ⟨0x14C, 1, 0x0, 0x0, 0x0, true⟩, ⟨0x150, 1, 0x0, 0x0, 0x0, true⟩, ⟨0x154, 1, 0x0, 0x0, 0x0, true⟩]

/-- Page map mgtCh. -/
def rows_mgtCh : List RegRow :=
  [⟨0x100, 1, 0x3, 0x3, 0x0, false⟩, ⟨0x104, 1, 0x0, 0x0, 0x0, false⟩, ⟨0x108, 1, 0x0, 0x0, 0x0, false⟩, ⟨0x10C, 1, 0x0, 0x0, 0x0, false⟩,
   ⟨0x110, 1, 0x0, 0x0, 0x0, false⟩, ⟨0x114, 1, 0x0, 0x0, 0x0, false⟩, ⟨0x118, 1, 0x0, 0x0, 0x0, false⟩, ⟨0x140, 1, 0x0, 0x0, 0x0, true⟩,
   ⟨0x144, 1, 0x0, 0x0, 0x0, true⟩, ⟨0x148, 1, 0x0, 0x0, 0x0, true⟩, ⟨0x14C, 1, 0x0, 0x0, 0x0, true⟩, ⟨0x150, 1, 0x0, 0x0, 0x0, true⟩,
   ⟨0x154, 1, 0x0, 0x0, 0x0, true⟩]

/-- Page map secCh. -/
def rows_secCh : List RegRow :=
  [⟨0x100, 1, 0x0, 0x0, 0x0, false⟩, ⟨0x104, 2, 0x0, 0x0, 0x0, false⟩, ⟨0x10C, 1, 0x0, 0x0, 0x0, false⟩, ⟨0x140, 1, 0x0, 0x0, 0x0, true⟩,
   ⟨0x144, 1, 0x0, 0x0, 0x0, true⟩, ⟨0x148, 1, 0x0, 0x0, 0x0, true⟩, ⟨0x14C, 1, 0x0, 0x0, 0x0, true⟩, ⟨0x150, 1, 0x0, 0x0, 0x0, true⟩,
   ⟨0x154, 1, 0x0, 0x0, 0x0, true⟩, ⟨0x200, 64, 0x0, 0x0, 0x0, false⟩]

/-- Page map evrCh. -/
def rows_evrCh : List RegRow :=
  [⟨0x100, 1, 0x1010, 0xFFFF, 0x0, false⟩, ⟨0x104, 1, 0x0, 0x0, 0x0, false⟩, ⟨0x108, 1, 0x0, 0x0, 0x0, false⟩, ⟨0x10C, 1, 0x0, 0x0, 0x0, false⟩,
   ⟨0x110, 1, 0x0, 0x0, 0x0, false⟩, ⟨0x114, 1, 0x0, 0x0, 0x0, false⟩, ⟨0x118, 1, 0x0, 0xFFFFFFFF, 0x0, false⟩, ⟨0x11C, 1, 0x0, 0xFFFF, 0x0, false⟩,
   ⟨0x120, 1, 0x0, 0x0, 0x0, false⟩, ⟨0x124, 1, 0x0, 0x0, 0x0, false⟩, ⟨0x128, 1, 0x0, 0x0, 0x0, false⟩, ⟨0x140, 8, 0x0, 0x0, 0x0, false⟩,
   ⟨0x160, 1, 0x0, 0x0, 0x0, true⟩, ⟨0x164, 1, 0x0, 0x0, 0x0, true⟩, ⟨0x168, 1, 0x0, 0x0, 0x0, true⟩, ⟨0x16C, 1, 0x0, 0x0, 0x0, true⟩]

/-- Page map secMod. -/
def rows_secMod : List RegRow :=
  [⟨0x100, 1, 0x0, 0x0, 0x0, false⟩, ⟨0x104, 1, 0x0, 0x0, 0x0, false⟩, ⟨0x108, 1, 0x0, 0xFFFFF000, 0x0, false⟩, ⟨0x10C, 1, 0x0, 0xFFFFFFFF, 0x0, false⟩,
   ⟨0x110, 1, 0x0, 0xFFFFFFFF, 0x0, false⟩, ⟨0x114, 1, 0x0, 0x0, 0x0, false⟩, ⟨0x118, 1, 0x0, 0x0, 0x0, false⟩, ⟨0x11C, 1, 0x0, 0x0, 0x0, false⟩]

/-- The register rows of a page's body. -/
def PageKind.rows : PageKind → List RegRow
  | .hub => rows_hub
  | .hubCx => rows_hubCx
  | .arrCh => rows_arrCh
  | .arr => rows_arr
  | .arrSpr => rows_arrSpr
  | .corCh => rows_corCh
  | .cor => rows_cor
  | .pnc => rows_pnc
  | .fulCh => rows_fulCh
  | .ful => rows_ful
  | .accCh => rows_accCh
  | .acc => rows_acc
  | .attCh => rows_attCh
  | .att => rows_att
  | .kvpCh => rows_kvpCh
  | .kvpCx => rows_kvpCx
  | .rqtCh => rows_rqtCh
  | .rqtCx => rows_rqtCx
  | .plk => rows_plk
  | .plkCh => rows_plkCh
  | .ldrCh => rows_ldrCh
  | .ldrCx => rows_ldrCx
  | .adpCx => rows_adpCx
  | .plcCh => rows_plcCh
  | .plcCx => rows_plcCx
  | .spdCh => rows_spdCh
  | .spd => rows_spd
  | .synCh => rows_synCh
  | .synCx => rows_synCx
  | .evfMod => rows_evfMod
  | .evfCh => rows_evfCh
  | .fltCh => rows_fltCh
  | .fltMod => rows_fltMod
  | .monCh => rows_monCh
  | .mon => rows_mon
  | .thmCh => rows_thmCh
  | .bkgCh => rows_bkgCh
  | .pwrMod => rows_pwrMod
  | .pwrCh => rows_pwrCh
  | .mgtCh => rows_mgtCh
  | .secCh => rows_secCh
  | .evrCh => rows_evrCh
  | .secMod => rows_secMod

end Sys2Proof
end

