-- ==== Sys2Proof/Machine/Store.lean ====
section
/-! DEFINITION. Sparse data by key in one canonical form: keys strictly rising, and no entry equal to what an unlisted key
reads as; and the bit-field, byte-order and list helpers the whole model uses. -/

namespace Sys2Proof

/-- Sparse data: pairs of a key and a value. -/
abbrev Store (α : Type) := List (Nat × α)

/-- What key `k` reads as; `d` where it is unlisted. -/
def Store.get {α : Type} (d : α) (k : Nat) : Store α → α
  | [] => d
  | (j, v) :: m => if j = k then v else Store.get d k m

/-- Drops key `k`. -/
def Store.erase {α : Type} (k : Nat) : Store α → Store α
  | [] => []
  | (j, v) :: m => if j = k then Store.erase k m else (j, v) :: Store.erase k m

/-- Lists `v` at key `k`. -/
def Store.put {α : Type} (k : Nat) (v : α) : Store α → Store α
  | [] => [(k, v)]
  | (j, w) :: m => if j = k then (k, v) :: m else if k < j then (k, v) :: (j, w) :: m else (j, w) :: Store.put k v m

/-- Writes `v` at key `k` of a store whose unlisted key `k` reads `d k`; writing that value removes the entry. -/
def Store.setD {α : Type} [DecidableEq α] (d : Nat → α) (k : Nat) (v : α) (m : Store α) : Store α :=
  if v = d k then m.erase k else m.put k v

/-- Writes `v` at key `k` of a store whose unlisted keys all read `d`. -/
def Store.set {α : Type} [DecidableEq α] (d : α) (k : Nat) (v : α) (m : Store α) : Store α :=
  m.setD (fun _ => d) k v

/-- Every key of `m` is at least `b`, keys rise, and no value is what the key reads as unlisted. -/
def Store.wfFrom {α : Type} [DecidableEq α] (d : Nat → α) : Nat → Store α → Bool
  | _, [] => true
  | b, (j, v) :: m => decide (b ≤ j) && decide (v ≠ d j) && Store.wfFrom d (j + 1) m

/-- The canonical form. -/
def Store.wf {α : Type} [DecidableEq α] (d : Nat → α) (m : Store α) : Bool := m.wfFrom d 0

/-- Keeps the entries whose key satisfies `p`. -/
def Store.keep {α : Type} (p : Nat → Bool) (m : Store α) : Store α := List.filter (fun e => p e.1) m

/-- Drops the keys `lo` to `hi - 1`. -/
def Store.drop {α : Type} (lo hi : Nat) (m : Store α) : Store α := m.keep fun k => k < lo || hi ≤ k

/-- Rewrites every listed value; a value that becomes the default leaves the list. -/
def Store.mapV {α : Type} [DecidableEq α] (d : α) (f : Nat → α → α) (m : Store α) : Store α :=
  m.filterMap fun e => let v := f e.1 e.2; if v = d then none else some (e.1, v)

/-- The same, where what an unlisted key reads as depends on the key. -/
def Store.mapV' {α : Type} [DecidableEq α] (d : Nat → α) (f : Nat → α → α) (m : Store α) : Store α :=
  m.filterMap fun e => let v := f e.1 e.2; if v = d e.1 then none else some (e.1, v)

/-! ### Bit fields and bytes -/

/-- Bits `[hi:lo]` of a register word. -/
def fld (w : Word) (hi lo : Nat) : Nat := w.toNat / 2 ^ lo % 2 ^ (hi + 1 - lo)

/-- `w` with bits `[hi:lo]` replaced by the low bits of `v`. -/
def setFld (w : Word) (hi lo v : Nat) : Word :=
  let n := 2 ^ (hi + 1 - lo)
  BitVec.ofNat 32 (w.toNat - fld w hi lo * 2 ^ lo + v % n * 2 ^ lo)

/-- Bit `i` of a word. -/
def bit (w : Word) (i : Nat) : Bool := w.toNat.testBit i

/-- `w` with bit `i` set to `b`. -/
def setBit (w : Word) (i : Nat) (b : Bool) : Word := setFld w i i b.toNat

/-- A Nat with bit `i` set to `b`. -/
def natSetBit (n i : Nat) (b : Bool) : Nat :=
  if n.testBit i = b then n else if b then n + 2 ^ i else n - 2 ^ i

/-- The `n` bytes of `v`, little-endian. -/
def toBytes : Nat → Nat → List Byte
  | 0, _ => []
  | n + 1, v => BitVec.ofNat 8 v :: toBytes n (v / 256)

/-- The value of little-endian bytes. -/
def ofBytes : List Byte → Nat
  | [] => 0
  | b :: bs => b.toNat + 256 * ofBytes bs

/-- CRC-32 of IEEE 802.3: reflected, polynomial 0xEDB88320, complemented at both ends (R37, R148, R189, R418). -/
def crc32 (bs : List Byte) : Nat :=
  0xFFFFFFFF - bs.foldl (fun c b =>
    (List.range 8).foldl (fun c _ => if c % 2 = 1 then (c / 2) ^^^ 0xEDB88320 else c / 2) (c ^^^ b.toNat)) 0xFFFFFFFF

/-- Bits `[hi:lo]` of a Nat. -/
def nfld (v hi lo : Nat) : Nat := v / 2 ^ lo % 2 ^ (hi + 1 - lo)

/-- `v` counted up by `n`, stopping at `top`. -/
def satAdd (top v n : Nat) : Nat := min top (v + n)

/-- Rounds up to a whole number of units. -/
def ceilDiv (a b : Nat) : Nat := (a + b - 1) / b

/-- Insertion into a list that `le` orders; equal elements keep their order. -/
def insertBy {α : Type} (le : α → α → Bool) (x : α) : List α → List α
  | [] => [x]
  | y :: ys => if le y x then y :: insertBy le x ys else x :: y :: ys

/-- Stable sort by `le`. -/
def sortBy {α : Type} (le : α → α → Bool) (l : List α) : List α := l.foldl (fun acc x => insertBy le x acc) []

/-- The element at `i`, or `d`. -/
def nth {α : Type} (d : α) (l : List α) (i : Nat) : α := l.getD i d

/-- `l` with element `i` rewritten. -/
def modifyAt {α : Type} (f : α → α) : Nat → List α → List α
  | _, [] => []
  | 0, x :: xs => f x :: xs
  | i + 1, x :: xs => x :: modifyAt f i xs

/-- All channel numbers. -/
def allCh : List ChId := List.finRange 8

end Sys2Proof
end

