-- ==== Sys2Proof/Machine/Pages.lean ====
section
/-! DEFINITION. Where every register page stands in BAR0 (R441), the page an address falls in, who is granted it (R436, R441),
its PG_ID and PG_CAP (R439), and the reset value and write masks of each of its words. -/

namespace Sys2Proof

/-- A register page: its kind, its channel (0 for hub pages) and its instance: the context, the cluster, or the core
index cl × 8 + co; 0 where the page has one instance. -/
structure Page where
  kind : PageKind
  ch : Nat
  inst : Nat
deriving DecidableEq, Repr

/-- W(ch), the channel window (R441). -/
def chanWin (ch : Nat) : Nat := 0x0400000 + ch * 0x0400000

/-- Where a page of this kind stands (R441). -/
def Page.base (p : Page) : Nat :=
  let w := chanWin p.ch
  let cx := 0x0100000 + p.inst * 0x4000
  let ccx := w + 0x40000 + p.inst * 0x4000
  let cl := w + 0x140000 + p.inst * 0x4000
  let co := w + 0x200000 + p.inst * 0x8000
  match p.kind with
  | .hub => 0x0000000
  | .plk => 0x0001000
  | .fltMod => 0x0002000
  | .evfMod => 0x0003000
  | .pwrMod => 0x0004000
  | .secMod => 0x0005000
  | .hubCx => cx
  | .ldrCx => cx + 0x1000
  | .adpCx => cx + 0x2000
  | .plcCx => cx + 0x3000
  | .fltCh => w
  | .pwrCh => w + 0x1000
  | .mgtCh => w + 0x2000
  | .secCh => w + 0x3000
  | .evrCh => w + 0x4000
  | .plkCh => w + 0x5000
  | .rqtCh => w + 0x6000
  | .kvpCh => w + 0x7000
  | .ldrCh => w + 0x8000
  | .plcCh => w + 0x9000
  | .arrCh => w + 0xA000
  | .corCh => w + 0xB000
  | .fulCh => w + 0xC000
  | .accCh => w + 0xD000
  | .attCh => w + 0xE000
  | .spdCh => w + 0xF000
  | .synCh => w + 0x10000
  | .evfCh => w + 0x11000
  | .monCh => w + 0x12000
  | .thmCh => w + 0x13000
  | .bkgCh => w + 0x14000
  | .rqtCx => ccx
  | .kvpCx => ccx + 0x1000
  | .synCx => ccx + 0x2000
  | .att => cl
  | .mon => cl + 0x1000
  | .arrSpr => cl + 0x2000
  | .arr => co
  | .cor => co + 0x1000
  | .pnc => co + 0x2000
  | .ful => co + 0x3000
  | .acc => co + 0x4000
  | .spd => co + 0x5000

/-- The page of a hub offset below 0x040_0000 (R441). -/
def Page.ofHub (a : Nat) : Option Page :=
  if a < 0x6000 then
    match a / 0x1000 with
    | 0 => some ⟨.hub, 0, 0⟩ | 1 => some ⟨.plk, 0, 0⟩ | 2 => some ⟨.fltMod, 0, 0⟩
    | 3 => some ⟨.evfMod, 0, 0⟩ | 4 => some ⟨.pwrMod, 0, 0⟩ | _ => some ⟨.secMod, 0, 0⟩
  else if 0x100000 ≤ a ∧ a < 0x200000 then
    let n := (a - 0x100000) / 0x4000
    match (a - 0x100000) % 0x4000 / 0x1000 with
    | 0 => some ⟨.hubCx, 0, n⟩ | 1 => some ⟨.ldrCx, 0, n⟩ | 2 => some ⟨.adpCx, 0, n⟩ | _ => some ⟨.plcCx, 0, n⟩
  else none

/-- The page at offset `o` of a channel window (R441). -/
def Page.ofWindow (ch o : Nat) : Option Page :=
  if o < 0x15000 then
    let one (k : PageKind) : Option Page := some ⟨k, ch, 0⟩
    match o / 0x1000 with
    | 0 => one .fltCh | 1 => one .pwrCh | 2 => one .mgtCh | 3 => one .secCh | 4 => one .evrCh | 5 => one .plkCh
    | 6 => one .rqtCh | 7 => one .kvpCh | 8 => one .ldrCh | 9 => one .plcCh | 10 => one .arrCh | 11 => one .corCh
    | 12 => one .fulCh | 13 => one .accCh | 14 => one .attCh | 15 => one .spdCh | 16 => one .synCh | 17 => one .evfCh
    | 18 => one .monCh | 19 => one .thmCh | _ => one .bkgCh
  else if 0x40000 ≤ o ∧ o < 0x140000 then
    let n := (o - 0x40000) / 0x4000
    match (o - 0x40000) % 0x4000 / 0x1000 with
    | 0 => some ⟨.rqtCx, ch, n⟩ | 1 => some ⟨.kvpCx, ch, n⟩ | 2 => some ⟨.synCx, ch, n⟩ | _ => none
  else if 0x140000 ≤ o ∧ o < 0x160000 then
    let n := (o - 0x140000) / 0x4000
    match (o - 0x140000) % 0x4000 / 0x1000 with
    | 0 => some ⟨.att, ch, n⟩ | 1 => some ⟨.mon, ch, n⟩ | 2 => some ⟨.arrSpr, ch, n⟩ | _ => none
  else if 0x200000 ≤ o ∧ o < 0x400000 then
    let n := (o - 0x200000) / 0x8000
    match (o - 0x200000) % 0x8000 / 0x1000 with
    | 0 => some ⟨.arr, ch, n⟩ | 1 => some ⟨.cor, ch, n⟩ | 2 => some ⟨.pnc, ch, n⟩ | 3 => some ⟨.ful, ch, n⟩
    | 4 => some ⟨.acc, ch, n⟩ | 5 => some ⟨.spd, ch, n⟩ | _ => none
  else none

/-- The page an offset of BAR0 falls in; none in reserved ranges and in the request table windows (R441). -/
def Page.ofAddr (a : Nat) : Option Page :=
  if a < 0x400000 then Page.ofHub a
  else if a < 0x2400000 then Page.ofWindow (a / 0x400000 - 1) (a % 0x400000)
  else none

/-- Whether the page stands in the hub. -/
def PageKind.inHub : PageKind → Bool
  | .hub | .plk | .fltMod | .evfMod | .pwrMod | .secMod | .hubCx | .ldrCx | .adpCx | .plcCx => true
  | _ => false

/-- The request table entry an offset of BAR0 falls in, with the byte offset within it (R216, R441). -/
def rqtOfAddr (a : Nat) : Option (Nat × Nat × Nat) :=
  if 0x400000 ≤ a ∧ a < 0x2400000 ∧ 0x20000 ≤ a % 0x400000 ∧ a % 0x400000 < 0x30000 then
    let o := a % 0x400000 - 0x20000
    some (a / 0x400000 - 1, o / 128, o % 128)
  else none

/-- PG_ID (R439). -/
def Page.id (p : Page) : Word := BitVec.ofNat 32 (p.kind.blockType * 65536 + p.inst * 256 + 1)

/-- PG_CAP (R439). -/
def Page.cap (p : Page) : Word :=
  BitVec.ofNat 32 (p.kind.nsrc + p.kind.cx.toNat * 32 + p.kind.mgt.toNat * 64 + 0xB1 * 256)

/-- The row of a page map that word offset `o` falls in. -/
def findRow (o : Nat) : List RegRow → Option RegRow
  | [] => none
  | r :: rs => if r.off ≤ o ∧ o < r.off + 4 * r.n then some r else findRow o rs

/-- The row of word offset `o` of a page, header included (R439). -/
def PageKind.row (k : PageKind) (o : Nat) : Option RegRow :=
  if o < 0x100 then findRow o headerRows else findRow o k.rows

/-- Inputs of the default regular sequence, slots 0 to 15 (R401). -/
def defaultSlots : List Nat := [30, 31, 32, 33, 20, 21, 22, 23, 24, 25, 26, 27, 28, 29, 34, 35]
/-- Inputs of the default injected sequences STORM, THERMAL and BLOCK (R402). -/
def defaultInjected : List Nat := [28, 26, 30, 32, 30, 31, 32, 33, 0, 26, 28, 8]

/-- Reset value of a word of a page (R4, R439, R401, R402). -/
def Page.reset (p : Page) (o : Nat) : Word :=
  if o = 0x000 then p.id else if o = 0x004 then p.cap
  else if o = 0x018 then p.kind.sev0
  else if p.kind = .mon ∧ 0x140 ≤ o ∧ o < 0x180 then BitVec.ofNat 32 (nth 0 defaultSlots ((o - 0x140) / 4))
  else if p.kind = .mon ∧ 0x1C0 ≤ o ∧ o < 0x1F0 then BitVec.ofNat 32 (nth 0 defaultInjected ((o - 0x1C0) / 4) + 2 ^ 14)
  else match p.kind.row o with
    | some r => r.reset
    | none => 0

/-- What a word of BAR0 holds before anything is written (R4). -/
def regReset (a : Nat) : Word :=
  match Page.ofAddr a with
  | some p => p.reset (a % 0x1000)
  | none => 0

/-- Whether a function other than PF0 and management may read the page, as context `n` (R436, R441). -/
def Page.grantsRead (p : Page) (n : Nat) : Bool :=
  match p.kind with
  | .plk | .fltMod => true
  | .hubCx | .ldrCx | .adpCx | .plcCx | .rqtCx | .kvpCx | .synCx => p.inst = n
  | _ => false

/-- Whether the function of context `n` ≠ 0 may write the page (R436, R441, R452). -/
def Page.grantsWrite (p : Page) (n : Nat) : Bool :=
  match p.kind with
  | .ldrCx | .adpCx | .plcCx | .rqtCx | .kvpCx | .synCx => p.inst = n
  | _ => false

end Sys2Proof
end

