-- ==== Sys2Proof/Machine/Float.lean ====
section
/-! DEFINITION. FP32 arithmetic as R140 fixes it: IEEE 754 binary32, round to nearest with ties to even, subnormals kept, every
NaN result 0x7FC0_0000; computed on exact integers. Correctly rounded exponential and logarithm (R169). Exact fractions. -/

namespace Sys2Proof

/-- The one NaN the module writes (R140). -/
def F32.nan : F32 := 0x7FC00000#32
def F32.inf : F32 := 0x7F800000#32
def F32.ninf : F32 := 0xFF800000#32
def F32.one : F32 := 0x3F800000#32

def F32.neg? (x : F32) : Bool := x.toNat ≥ 0x80000000
def F32.mag (x : F32) : Nat := x.toNat % 0x80000000
def F32.isNan (x : F32) : Bool := F32.mag x > 0x7F800000
def F32.isInf (x : F32) : Bool := F32.mag x = 0x7F800000
def F32.isZero (x : F32) : Bool := F32.mag x = 0
def F32.flip (x : F32) : F32 := x ^^^ 0x80000000#32
def F32.withSign (neg : Bool) (m : Nat) : F32 := BitVec.ofNat 32 (m + neg.toNat * 0x80000000)

/-- The magnitude of a finite value, in units of 2^-149. -/
def F32.magFix (x : F32) : Nat :=
  let m := F32.mag x
  let e := m / 0x800000
  if e = 0 then m else (m % 0x800000 + 0x800000) * 2 ^ (e - 1)

/-- A finite value, in units of 2^-149. -/
def F32.fix (x : F32) : Int := if F32.neg? x then - (F32.magFix x : Int) else F32.magFix x

/-- `n / d` rounded to the nearest integer, ties to even. -/
def rneDiv (n d : Nat) : Nat :=
  let q := n / d
  let r := n % d
  if 2 * r < d then q else if 2 * r > d then q + 1 else q + q % 2

/-- floor (log2 (n / d)) + 1024, for 0 < n, 0 < d. -/
def floorLog2 (n d : Nat) : Nat :=
  let e := 1024 + Nat.log2 n - Nat.log2 d
  if n * 2 ^ 1024 < d * 2 ^ e then e - 1 else e

/-- The FP32 value nearest to ± n / d, ties to even. -/
def F32.ofRat (neg : Bool) (n d : Nat) : F32 :=
  if n = 0 ∨ d = 0 then F32.withSign neg 0
  else
    -- q + 149, with 2^q the weight of the last kept bit
    let q := floorLog2 n d + 126 - 1024
    let m := rneDiv (n * 2 ^ 149) (d * 2 ^ q)
    let b := q * 0x800000 + m
    F32.withSign neg (min b 0x7F800000)

/-- An exact integer number of units 2^-149 · 2^-s, rounded; a zero result carries `zneg`. -/
def F32.ofFix (v : Int) (s : Nat) (zneg : Bool) : F32 :=
  if v = 0 then F32.withSign zneg 0 else F32.ofRat (v < 0) v.natAbs (2 ^ (149 + s))

def F32.add (a b : F32) : F32 :=
  if F32.isNan a || F32.isNan b then F32.nan
  else if F32.isInf a then (if F32.isInf b && F32.neg? a != F32.neg? b then F32.nan else a)
  else if F32.isInf b then b
  else F32.ofFix (F32.fix a + F32.fix b) 0 (F32.neg? a && F32.neg? b)

def F32.sub (a b : F32) : F32 := if F32.isNan b then F32.nan else F32.add a (F32.flip b)

def F32.mul (a b : F32) : F32 :=
  let s := F32.neg? a != F32.neg? b
  if F32.isNan a || F32.isNan b then F32.nan
  else if F32.isInf a || F32.isInf b then
    (if F32.isZero a || F32.isZero b then F32.nan else F32.withSign s 0x7F800000)
  else F32.ofFix (F32.fix a * F32.fix b) 149 s

def F32.div (a b : F32) : F32 :=
  let s := F32.neg? a != F32.neg? b
  if F32.isNan a || F32.isNan b then F32.nan
  else if F32.isInf a then (if F32.isInf b then F32.nan else F32.withSign s 0x7F800000)
  else if F32.isInf b then F32.withSign s 0
  else if F32.isZero b then (if F32.isZero a then F32.nan else F32.withSign s 0x7F800000)
  else F32.ofRat s (F32.magFix a) (F32.magFix b)

/-- IEEE 754 ordered less-than; false where either is a NaN. -/
def F32.lt (a b : F32) : Bool :=
  if F32.isNan a || F32.isNan b then false
  else
    let key (x : F32) : Int := if F32.neg? x then - (F32.mag x : Int) else F32.mag x
    key a < key b

def F32.le (a b : F32) : Bool := !(F32.isNan a || F32.isNan b) && !F32.lt b a
/-- IEEE 754 equality: +0 and −0 are equal, a NaN equals nothing. -/
def F32.eq (a b : F32) : Bool := F32.le a b && F32.le b a
def F32.max (a b : F32) : F32 := if F32.isNan a || F32.isNan b then F32.nan else if F32.lt a b then b else a
def F32.abs (a : F32) : F32 := F32.withSign false (F32.mag a)

def F32.ofInt (v : Int) : F32 := F32.ofRat (v < 0) v.natAbs 1
def F32.ofNat (v : Nat) : F32 := F32.ofRat false v 1
/-- x · 2^(−k), an exact exponent step but for results below the subnormal range, which flush to zero when `flush` (R122). -/
def F32.scaleDown (x : F32) (k : Nat) (flush : Bool) : F32 :=
  if F32.isNan x then F32.nan else if F32.isInf x then x
  else if flush && F32.magFix x < 2 ^ k then F32.withSign (F32.neg? x) 0
  else F32.ofRat (F32.neg? x) (F32.magFix x) (2 ^ (149 + k))

/-- x rounded to the nearest integer, ties to even; 0 for a NaN, ± 2^200 for an infinity. -/
def F32.toIntRne (x : F32) : Int :=
  let m : Int := if F32.isNan x then 0 else if F32.isInf x then (2 : Int) ^ 200 else rneDiv (F32.magFix x) (2 ^ 149)
  if F32.neg? x then -m else m

/-- ln 2 in units of 2^-256. -/
def ln2Fix : Nat := 80260960185991308862233904206310070533990667611589946606122867505419956976172

/-- Sum of the terms r^k / k! from term `k` with value `t`. -/
def expTerms (r : Nat) : Nat → Nat → Nat → Nat
  | 0, _, _ => 0
  | f + 1, k, t => t + expTerms r f (k + 1) (t * r / 2 ^ 256 / (k + 1))

/-- Correctly rounded e^x (R169): 256-bit fixed point, rounded once. -/
def F32.exp (x : F32) : F32 :=
  if F32.isNan x then F32.nan
  else if F32.isInf x then (if F32.neg? x then 0#32 else F32.inf)
  else if F32.isZero x then F32.one
  else if F32.magFix x > 110 * 2 ^ 149 then (if F32.neg? x then 0#32 else F32.inf)
  else
    let v := F32.fix x * 2 ^ 107
    let k := v / (ln2Fix : Int)
    let r := (v - k * ln2Fix).toNat
    let e := expTerms r 70 0 (2 ^ 256)
    -- e^x = e · 2^k / 2^256, with k ≥ -160
    F32.ofRat false (e * 2 ^ (k + 200).toNat) (2 ^ 456)

/-- Sum of z^(2i+1) / (2i+1), z in units of 2^-256. -/
def atanhTerms (z2 : Nat) : Nat → Nat → Nat → Nat
  | 0, _, _ => 0
  | f + 1, k, t => t / k + atanhTerms z2 f (k + 2) (t * z2 / 2 ^ 256)

/-- Correctly rounded ln x (R181): 256-bit fixed point, rounded once; −∞ at ±0, NaN below. -/
def F32.ln (x : F32) : F32 :=
  if F32.isNan x then F32.nan
  else if F32.isZero x then F32.ninf
  else if F32.neg? x then F32.nan
  else if F32.isInf x then F32.inf
  else if x = F32.one then 0#32
  else
    let m := F32.magFix x
    let l := Nat.log2 m
    -- m = f · 2^l with 1 ≤ f < 2; taken down to 2/3 ≤ f < 4/3
    let e : Int := (l : Int) - 149
    let big := 3 * m ≥ 4 * 2 ^ l
    let d := if big then 2 ^ (l + 1) else 2 ^ l
    let e := if big then e + 1 else e
    let zn := if m ≥ d then m - d else d - m
    let z := zn * 2 ^ 256 / (m + d)
    let a := 2 * atanhTerms (z * z / 2 ^ 256) 90 1 z
    let t : Int := e * ln2Fix + (if m ≥ d then (a : Int) else - (a : Int))
    F32.ofRat (t < 0) t.natAbs (2 ^ 256)

/-! ### Exact fractions, for comparisons the spec states in real numbers -/

/-- An exact fraction; `den` is never 0 in what the functions below build from FP32 values and Nats. -/
structure Fr where
  num : Int
  den : Nat
deriving DecidableEq, Repr

def Fr.ofNat (n : Nat) : Fr := ⟨n, 1⟩
def Fr.ofInt (n : Int) : Fr := ⟨n, 1⟩
def Fr.ofF (x : F32) : Fr := ⟨if F32.isNan x || F32.isInf x then 0 else F32.fix x, 2 ^ 149⟩
def Fr.add (a b : Fr) : Fr := if a.den = b.den then ⟨a.num + b.num, a.den⟩ else ⟨a.num * b.den + b.num * a.den, a.den * b.den⟩
def Fr.neg (a : Fr) : Fr := ⟨-a.num, a.den⟩
def Fr.sub (a b : Fr) : Fr := Fr.add a (Fr.neg b)
def Fr.mul (a b : Fr) : Fr := ⟨a.num * b.num, a.den * b.den⟩
def Fr.div (a b : Fr) : Fr := if b.num = 0 then ⟨0, 1⟩ else ⟨(if b.num < 0 then -a.num else a.num) * b.den, a.den * b.num.natAbs⟩
def Fr.lt (a b : Fr) : Bool := a.num * b.den < b.num * a.den
def Fr.le (a b : Fr) : Bool := !Fr.lt b a
def Fr.sq (a : Fr) : Fr := Fr.mul a a
def Fr.sum (l : List Fr) : Fr := l.foldl Fr.add ⟨0, 1⟩
/-- ⌊a⌋. -/
def Fr.floor (a : Fr) : Int := a.num / (a.den : Int)
/-- a rounded to FP32. -/
def Fr.toF (a : Fr) : F32 := F32.ofRat (a.num < 0) a.num.natAbs a.den

end Sys2Proof
end

