-- ==== Sys2Proof/Machine/Formats.lean ====
section
/-! DEFINITION. The number formats of R108: array input codes (R33, R109 to R111), narrow floats (R120), key/value blocks
(R114 to R117), W5 rows (R119), the fuller's signs and butterflies (R121, R122), and the order of top-k (R155, R156). -/

namespace Sys2Proof

/-! ### Narrow floats (R120) -/

/-- A narrow float format: mantissa bits, the weight 2^-ulp of the lowest subnormal, and the code of the largest finite value. -/
structure MiniFmt where
  mb : Nat
  ulp : Nat
  top : Nat
deriving DecidableEq, Repr

def e4m3 : MiniFmt := ⟨3, 9, 0x7E⟩
def e5m2 : MiniFmt := ⟨2, 16, 0x7B⟩
def e2m1 : MiniFmt := ⟨1, 1, 7⟩
def e2m3 : MiniFmt := ⟨3, 3, 31⟩
def e3m2 : MiniFmt := ⟨2, 4, 31⟩

/-- Magnitude code of n / d in a narrow format: nearest, ties to even, saturating at the largest finite magnitude (R120). -/
def MiniFmt.enc (f : MiniFmt) (n d : Nat) : Nat :=
  if n = 0 ∨ d = 0 then 0
  else
    let q := floorLog2 n d + f.ulp - f.mb - 1024
    min (q * 2 ^ f.mb + rneDiv (n * 2 ^ f.ulp) (d * 2 ^ q)) f.top

/-- Whether n / d rounds beyond the largest finite magnitude of the format. -/
def MiniFmt.over (f : MiniFmt) (n d : Nat) : Bool :=
  if n = 0 ∨ d = 0 then false
  else
    let q := floorLog2 n d + f.ulp - f.mb - 1024
    q * 2 ^ f.mb + rneDiv (n * 2 ^ f.ulp) (d * 2 ^ q) > f.top

/-- The value of a magnitude code, in units of 2^-ulp. -/
def MiniFmt.dec (f : MiniFmt) (c : Nat) : Nat :=
  let e := c / 2 ^ f.mb
  if e = 0 then c else (c % 2 ^ f.mb + 2 ^ f.mb) * 2 ^ (e - 1)

/-- An E4M3 byte of an FP32 value: sign, then magnitude; NaN is S.1111.111 and comes only from a NaN (R120). -/
def e4m3Of (x : F32) : Byte :=
  let m := if F32.isNan x then 0x7F else if F32.isInf x then 0x7E else e4m3.enc (F32.magFix x) (2 ^ 149)
  BitVec.ofNat 8 (m + (F32.neg? x).toNat * 128)

/-- Whether the conversion to E4M3 saturates (R145). -/
def e4m3Sat (x : F32) : Bool := F32.isInf x || (!F32.isNan x && e4m3.over (F32.magFix x) (2 ^ 149))

/-- The FP32 value of an E4M3 byte. -/
def e4m3Val (b : Byte) : F32 :=
  let m := b.toNat % 128
  if m = 0x7F then F32.nan else F32.ofRat (b.toNat ≥ 128) (e4m3.dec m) (2 ^ 9)

/-- FP32 to BF16: nearest, ties to even, saturating at the largest finite magnitude; infinities only from infinities (R120). -/
def bf16Of (x : F32) : BF16 :=
  if F32.isNan x then 0x7FC0#16
  else if F32.isInf x then BitVec.ofNat 16 (x.toNat / 65536)
  else BitVec.ofNat 16 (min (rneDiv (F32.mag x) 65536) 0x7F7F + (F32.neg? x).toNat * 0x8000)

def bf16Sat (x : F32) : Bool := !F32.isNan x && !F32.isInf x && rneDiv (F32.mag x) 65536 > 0x7F7F

/-- BF16 to FP32, exact. -/
def bf16Val (b : BF16) : F32 := BitVec.ofNat 32 (b.toNat * 65536)

/-! ### Array input codes -/

/-- Width of an array input format from its code: 0 A4, 1 A6, 2 A8 (R32). -/
def fmtBits (f : Nat) : Nat := 4 + 2 * f

/-- Range of a b-bit two's complement code, as (lowest, highest) (R33). -/
def codeLo (b : Nat) : Int := - (2 : Int) ^ (b - 1)
def codeHi (b : Nat) : Int := (2 : Int) ^ (b - 1) - 1
def clampInt (lo hi v : Int) : Int := if v < lo then lo else if v > hi then hi else v

/-- Bit p of a code in b-bit two's complement (R33). -/
def codeBit (b : Nat) (v : Int) (p : Nat) : Bool := (v % (2 : Int) ^ b).toNat.testBit p

/-- Weight of plane p of b (R33). -/
def planeWeight (b p : Nat) : Int := if p + 1 = b then - (2 : Int) ^ p else (2 : Int) ^ p

/-- s_b of a layer (R109). -/
def inScaleOf (inScale : F32) (b : Nat) : F32 := F32.scaleDown inScale ((b - 4) / 2) false

/-- Class of a quantised element (R111). -/
inductive QClass where
  | served | saturated | zeroed | ordinary
deriving DecidableEq, Repr

/-- A quantised element: the array code, the class, and v rounded to BF16 for the pounce unit (R109 to R111). -/
structure QElem where
  code : Int
  cls : QClass
  v : BF16
deriving DecidableEq, Repr

/-- |v| > OUT_MUL × 2^(b−1), OUT_MUL in sixteenths (R110). -/
def outlierQ (b outMul16 : Nat) (v : F32) : Bool :=
  F32.isInf v || (!F32.isNan v && F32.magFix v * 16 > outMul16 * 2 ^ (b - 1) * 2 ^ 149)

/-- Class and code of an element that is not served (R109, R111). -/
def quantElem (b : Nat) (x v : F32) : QElem :=
  let r := F32.toIntRne v
  let c := clampInt (codeLo b) (codeHi b) r
  ⟨c, if r ≠ c then .saturated else if c = 0 ∧ !F32.isZero x then .zeroed else .ordinary, bf16Of v⟩

/-- The rows that go to the pounce unit: the CAP qualifying rows of largest magnitude, equal magnitudes by lower row, as
ascending row numbers; and whether more qualified (R95, R99). -/
def pickOutliers (b outMul16 cap : Nat) (vs : List F32) : List Nat × Bool :=
  let q := (vs.zipIdx).filter fun e => outlierQ b outMul16 e.1
  let top := (sortBy (fun a c => F32.mag a.1 > F32.mag c.1 || (F32.mag a.1 == F32.mag c.1 && a.2 ≤ c.2)) q).take cap
  (sortBy (fun a c => decide (a ≤ c)) (top.map (·.2)), q.length > cap)

/-- One slice's share of the rotated input at b bits (R95, R109 to R111). -/
def quantSlice (b outMul16 cap : Nat) (scale : F32) (xs : List F32) : List QElem × Bool :=
  let vs := xs.map (fun x => F32.div x scale)
  let (served, ovf) := pickOutliers b outMul16 cap vs
  ((xs.zip vs).zipIdx.map fun e =>
    if served.contains e.2 then ⟨0, .served, bf16Of e.1.2⟩ else quantElem b e.1.1 e.1.2, ovf)

/-! ### Key and value blocks (R114 to R117) -/

/-- Code width of a KV format: 2, 3, 4, or 8 for KV8. -/
abbrev KvFmt := Nat

/-- Largest code of KV2, KV3, KV4 (R114). -/
def kvQmax (q : Nat) : Nat := 2 ^ (q - 1) - 1

/-- Scale byte of a KV2 to KV4 block whose largest magnitude is amax (R116). -/
def kvScale (q : Nat) (amax : F32) : Byte :=
  if F32.isZero amax then 0
  else
    let n := F32.magFix amax
    let d := kvQmax q * 2 ^ 149
    -- smallest E4M3 value at least n / d
    let c := e4m3.enc n d
    let c := if e4m3.dec c * d < n * 2 ^ 9 then c + 1 else c
    BitVec.ofNat 8 (max 1 (min c 0x7E))

/-- Codes of one KV2 to KV4 block, with the KV SAT and KV ZER counts (R116). -/
def kvCodes (q : Nat) (s : Byte) (xs : List F32) : List Int × Nat × Nat :=
  let qm : Int := kvQmax q
  let r := xs.map fun x =>
    if s = 0 then ((0 : Int), false, false)
    else
      let r := F32.toIntRne (F32.div x (e4m3Val s))
      let c := clampInt (-qm) qm r
      (c, decide (r ≠ c), decide (c = 0) && !F32.isZero x)
  (r.map (·.1), (r.filter (·.2.1)).length, (r.filter (·.2.2)).length)

/-- E8M0 scale byte of a KV8 block: 2^(⌊log2 amax⌋ − 8), clamped to 2^−127 (R117). -/
def kv8Scale (amax : F32) : Byte :=
  if F32.isZero amax then 0
  else BitVec.ofNat 8 (Nat.log2 (F32.magFix amax) + 127 - 149 - 8)

/-- Codes of one KV8 block and its saturations: E4M3 elements in units of the scale (R117). -/
def kv8Codes (s : Byte) (xs : List F32) : List Byte × Nat :=
  let sc (x : F32) : Nat × Nat := (F32.magFix x * 2 ^ 127, 2 ^ 149 * 2 ^ s.toNat)
  (xs.map (fun x => BitVec.ofNat 8 (e4m3.enc (sc x).1 (sc x).2 + (F32.neg? x).toNat * 128)),
   (xs.filter (fun x => e4m3.over (sc x).1 (sc x).2)).length)

/-- The value of a code of q bits, in two's complement (R114). -/
def kvCodeVal (q c : Nat) : Int := if c ≥ 2 ^ (q - 1) then (c : Int) - (2 : Int) ^ q else c

/-- The 32 elements of a block: code string and scale byte (R114, R115, R117). -/
def kvDecode (q : KvFmt) (codes : List Byte) (s : Byte) : List F32 :=
  if q = 8 then
    codes.map fun c =>
      let m := c.toNat % 128
      if m = 0x7F ∨ s = 0xFF then F32.nan
      else F32.ofRat (c.toNat ≥ 128) (e4m3.dec m * 2 ^ s.toNat) (2 ^ (9 + 127))
  else
    let v := ofBytes codes
    (List.range 32).map fun e => F32.mul (F32.ofInt (kvCodeVal q (v / 2 ^ (q * e) % 2 ^ q))) (e4m3Val s)

/-- The code string of a KV2 to KV4 block: element e in bits [q·e + q − 1 : q·e] (R115). -/
def kvPack (q : Nat) (cs : List Int) : List Byte :=
  toBytes (4 * q) ((cs.zipIdx).foldl (fun acc e => acc + (e.1 % (2 : Int) ^ q).toNat * 2 ^ (q * e.2)) 0)

/-- One block written: code bytes, scale byte, KV SAT and KV ZER counts (R116, R117). -/
def kvEncode (q : KvFmt) (xs : List F32) : List Byte × Byte × Nat × Nat :=
  let amax := xs.foldl (fun a x => F32.max a (F32.abs x)) 0#32
  if q = 8 then
    let s := kv8Scale amax
    let (cs, sat) := kv8Codes s xs
    (cs, s, sat, 0)
  else
    let s := kvScale q amax
    let (cs, sat, zer) := kvCodes q s xs
    (kvPack q cs, s, sat, zer)

/-- Bytes of one block's codes (R114). -/
def kvCodeBytes (q : KvFmt) : Nat := 4 * q

/-! ### W5 rows (R119) -/

/-- Level of logical column j in a W5 row; none for the invalid code 0b10000. -/
def w5Level (row : List Byte) (j : Nat) : Option Int :=
  let c := ofBytes ((row.drop (5 * j / 8)).take 2) / 2 ^ (5 * j % 8) % 32
  if c = 16 then none else some (if c > 16 then (c : Int) - 32 else c)

/-! ### The fuller (R121, R122) -/

/-- Whether σ(seed, i) is −1 (R121). -/
def rotSign (seed : Word) (i : Nat) : Bool :=
  let x := seed ^^^ BitVec.ofNat 32 (i * 0x9E3779B9)
  let x := (x ^^^ (x >>> 16)) * 0x7FEB352D#32
  let x := (x ^^^ (x >>> 15)) * 0x846CA68B#32
  let x := x ^^^ (x >>> 16)
  x.toNat % 2 = 1

/-- One butterfly stage of stride h over a vector: (a, b) becomes (a + b, a − b) (R122). -/
def butterfly (h : Nat) (v : List F32) : List F32 :=
  (v.zipIdx).map fun e =>
    if e.2 / h % 2 = 0 then F32.add e.1 (v.getD (e.2 + h) 0#32) else F32.sub (v.getD (e.2 - h) 0#32) e.1

/-- H of order 2^e over each block, stage by stage. -/
def hadamard (e : Nat) (v : List F32) : List F32 := (List.range e).foldl (fun v s => butterfly (2 ^ s) v) v

/-- One element's sign of D (R121); a NaN stays the quiet NaN (R140). -/
def signOf (seed : Word) (i : Nat) (x : F32) : F32 := if rotSign seed i && !F32.isNan x then F32.flip x else x

/-- y = 2^(−k) × H × D × x (R121, R122, R123). -/
def rotateBy (k e : Nat) (seed : Word) (x : List F32) : List F32 :=
  let d := (x.zipIdx).map fun p => signOf seed p.2 p.1
  (hadamard e d).map fun y => F32.scaleDown y k true

/-- The fuller's rotation of an array input (R121). -/
def rotate (e : Nat) (seed : Word) (x : List F32) : List F32 := rotateBy (e / 2) e seed x

/-- Rotating an attention output back: 2^(−⌈e/2⌉) × D × H × o (R123). -/
def rotateBack (e : Nat) (seed : Word) (o : List F32) : List F32 :=
  (((hadamard e o).map fun y => F32.scaleDown y ((e + 1) / 2) true).zipIdx).map fun p => signOf seed p.2 p.1

/-! ### Trees and top-k -/

/-- One level of the canonical pairwise tree: 0 + 1, 2 + 3, …, an odd last element passes up (R147). -/
def treeLevel {α : Type} (f : α → α → α) : List α → List α
  | a :: b :: l => f a b :: treeLevel f l
  | l => l

/-- `n` levels of the tree. -/
def treeLevels {α : Type} (f : α → α → α) : Nat → List α → List α
  | 0, l => l
  | n + 1, l => treeLevels f n (treeLevel f l)

/-- The root of the canonical tree over the leaves, in order; `d` for no leaves (R147). -/
def treeReduce {α : Type} (f : α → α → α) (d : α) (l : List α) : α := (treeLevels f (Nat.log2 l.length + 1) l).headD d

/-- ⌈log2 n⌉, the depth of the tree over n leaves (R147). -/
def treeDepth (n : Nat) : Nat := if n ≤ 1 then 0 else Nat.log2 (n - 1) + 1

/-- R155: whether entry a comes before entry b. -/
def topkBefore (a b : F32 × Word) : Bool :=
  match F32.isNan a.1, F32.isNan b.1 with
  | true, true => a.2.toNat < b.2.toNat
  | true, false => false
  | false, true => true
  | false, false => F32.lt b.1 a.1 || (F32.eq a.1 b.1 && decide (a.2.toNat < b.2.toNat))

/-- The first k entries of the union (R156). -/
def topkMerge (k : Nat) (a b : List (F32 × Word)) : List (F32 × Word) :=
  (sortBy (fun x y => !topkBefore y x) (a ++ b)).take k

end Sys2Proof
end

