-- ==== Sys2Proof/Machine/PartsArray.lean ====
section
/-! DEFINITION. Data of the array side: patterns and their layers (R252, R253), tiles with their slices, levels, maps and
coefficients (R28 to R106), layer executions (R126), accumulation groups (R141), and the cluster's storm and shadow state. -/

namespace Sys2Proof

/-! ### Patterns -/

/-- A slice block of a layer (R253), where its slices lie, and whether its tiles verified for this epoch. -/
structure Block where
  row0 : Nat
  col0 : Nat
  rspan : Nat
  cspan : Nat
  inFmt : Nat
  tFmt : Nat
  rowGroup : Nat          -- rows
  colGroup : Nat          -- pairs
  gain : Nat
  tGain : Nat
  planPasses : Nat
  resOff : Nat            -- byte offset of the block's residual entries in RESID
  resN : Nat
  w5Off : Nat             -- byte offset of the block's first row string in W5
  tiles : List Nat        -- tile keys that hold it: one, or two for DUP
deriving DecidableEq, Repr

/-- A layer descriptor (R253), with its placement. -/
structure Layer where
  kind : Nat
  draft : Bool
  modelOk : Bool         -- MODEL is 0 or 1
  spillOk : Bool
  splitCh : Bool
  dup : Bool
  rows : Nat
  cols : Nat
  maxReads : Nat
  confLim4 : Nat
  inScale : F32
  wScale : F32
  outMul : Nat
  rotE : Nat
  satLim : Nat
  zerLim : Nat
  kvFmt : Nat             -- 2, 3 or 4
  kvE : Nat
  rotSeed : Word
  qkSeed : Word
  vSeed : Word
  tree : Nat
  w5Off : Nat
  resOff : Nat
  resCnt : Nat
  vecOff : Option Nat
  attKind : Nat
  win : Nat
  glbMode : Nat
  glbStride : Nat
  ng : Nat
  hKv : Nat
  g : Nat
  dH : Nat
  hpc : Nat
  segLen : Nat
  qblk : Nat
  qfmt : Nat
  bfmt : Nat
  smScale : F32
  moeK : Nat
  nExpert : Nat
  stateBytes : Nat
  blocks : List Block
  spill : Bool
  switched : Bool         -- R268, for the new pattern of a swap
  inPlace : Bool
  programming : Bool
deriving DecidableEq, Repr

/-- A record of the TREES section (R252). -/
structure TreeRec where
  levels : Nat
  leaves : List Nat
deriving DecidableEq, Repr

/-- A pattern as the module holds it: the parsed header, layers and trees, and the image's bytes as copied to T1 (R257). -/
structure Pattern where
  maxLen : Nat
  vocab : Nat
  chunk : Nat
  draftLim : Nat
  layers : List Layer
  trees : List TreeRec
  w5 : Nat                -- offset of each section in the image, and its size
  w5Size : Nat
  resid : Nat
  residSize : Nat
  vectors : Nat
  vectorsSize : Nat
  embed : Nat
  embedSize : Nat
  img : Store Byte        -- the digital parts, keyed by image offset; unlisted bytes are 0
  imgAddr : Nat
  imgSize : Nat
deriving DecidableEq, Repr

/-! ### Tiles -/

/-- Tile states with their codes (R57). -/
inductive TState where
  | idle | ready | programming | blocking | shadow | spare | retired
deriving DecidableEq, Repr

def TState.code : TState → Nat
  | .idle => 0 | .ready => 1 | .programming => 2 | .blocking => 3 | .shadow => 4 | .spare => 5 | .retired => 6

/-- A slice held by a tile (R31, R32, R37): a block of a layer of a context, at a place on the tile. -/
structure Slice where
  layer : Nat
  block : Nat
  newPat : Bool                   -- a slice of the pattern a swap brings in (R266)
  rowO : Nat
  rowN : Nat
  colO : Nat
  colN : Nat
  inFmt : Nat
  rowGroup : Nat
  gain : Nat
  planPasses : Nat
  tFmt : Nat
  colGroup : Nat
  tGain : Nat
  w : Store Int                   -- levels of the W5 copy, keyed row × 2048 + column, local to the slice (R119)
  res : List (Nat × Nat × Int)    -- residual entries: row, column, residual (R97)
  dup : Option Nat                -- the other tile of a duplicated pair (R93)
  massSub : List Nat              -- MASS_SUB per 256-row sub-block (R37)
  massFull : List Nat             -- MASS_FULL per row group
  tMassSub : List Nat             -- column masses for transpose reads (R54)
  tMassFull : List Nat
  massCrc : Option Word           -- check word of the mass table, once written (R37)
  verified : Bool
deriving DecidableEq, Repr

/-- What a programming pass is for (R58, R77, R91, R266). -/
inductive ProgWhy where
  | load | refresh | column | wave | standin | adopt | shadow | retention | spill
deriving DecidableEq, Repr

/-- The part a spare plays (R65). -/
inductive SpareRole where
  | none | adopted (tile : Nat) | standin (tile : Nat) | shadowing (tile : Nat)
deriving DecidableEq, Repr

/-- Where an MVM of a tile stands (R67, R84). -/
inductive MvmPhase where
  | reading         -- its sums have not reached the correction path
  | rereading       -- a re-read is queued or running
  | decided         -- checked; waits for the other half of a duplicated pair (R93)
  | waiting         -- its values stand; waits for the pounce share (R68)
deriving DecidableEq, Repr

/-- The input of an MVM: the code of each row of the slice (R33), and the outlier rows served with v in units of the input scale,
in ascending order (R96, R110). -/
structure MvmIn where
  codes : List Int
  outs : List (Nat × BF16)
deriving DecidableEq, Repr

/-- The codes of a range of a layer input at one format (R95, R113). -/
structure QPart where
  lo : Nat
  span : Nat
  fmt : Nat
  inp : MvmIn
  ovf : Bool               -- more outliers qualified than CAP (R99)
deriving DecidableEq, Repr

/-- Work of a step on a tile that did not fit: the step, if any, and the time it takes in ns (R19, R20). -/
abbrev CarryWork := Option SeqRef × Nat

/-- An MVM in a tile's queue or in the correction path. -/
structure Mvm where
  d : MvmDesc
  inp : MvmIn                -- as latched (R48 step 1)
  transpose : Bool
  exact : Bool
  bits : Nat
  gain : Nat
  sums : Store Int           -- INT32 sums of R51, keyed by physical pair (or row), added over the reads
  wOff : Int                 -- sum of plane weights over the slots read (R69)
  pSum : Nat                 -- sum of squared plane weights over the slots read (R81)
  slots : Nat
  sat : Nat                  -- converter saturations of the first read (R41)
  bandSat : Bool             -- a band converter saturated (R82)
  reads : Nat
  pounce : Bool              -- the pounce share is complete
  vals : List F32            -- corrected logical columns, once formed
  failed : Bool              -- the last check failed (R84, R93)
  lowConf : Bool             -- accepted although the check failed (R85)
  drift : List F32           -- the coefficient set of its reads: drift factors and offset updates (R75)
  dOff : List F32
  phase : MvmPhase
deriving DecidableEq, Repr

/-- A localisation run: probes taken of each sub-block, and their readings, keyed sub-block × 2048 + column, as sums (R89). -/
structure LocRun where
  done : Store Nat
  gain : Nat
  sums : Store Int
deriving DecidableEq, Repr

/-- A current table of the calibration store: trims, correction and row coefficients, noise constants (R418). -/
structure CalTable where
  b : Store F32
  o : Store F32
  r : Store F32
  vConv : F32
  vCell : F32
  rowG : Store F32
  rowO : Store F32
  taps : Store Nat
  thr : Store Nat
deriving DecidableEq, Repr

/-- An array engine. Tile key: cluster × 132 + co × 16 + t, spares at + 128 (R3). -/
structure Tile where
  state : TState
  next : Option TState              -- a state change that takes effect at a boundary (R58)
  ctx : Option Nat
  slices : List Slice
  levels : Store Int                -- programmed level of each pair, keyed row × 2128 + pair (R28)
  colMap : Store Nat                -- remapped logical columns (R29)
  pairsUsed : Nat                   -- spare pairs used by remapping
  wear : Nat
  warned : Bool
  suspect : Bool
  suspectAt : Nat                   -- plank at which SUSPECT was set (R289)
  role : SpareRole
  barred : Bool                     -- a count stands against this spare (R103)
  offline : Bool                    -- OFFLINE took effect; ONLINE returns it (R64)
  prog : Option ProgWhy
  mvms : List Mvm
  reread : List Mvm                 -- the re-read buffer: the last four MVMs with their inputs (R67)
  slack : Nat                       -- ns of slack left in this plank (R18)
  planned : Nat                     -- ns of MVMs that the plan counts on the tile in this plank (R18)
  missed : List CarryWork           -- work of this plank that becomes carried work at its end (R19)
  carried : List CarryWork          -- carried work that runs from t0 of this plank (R20)
  -- coefficients of the last blocking run (R70, R81, R55), unlisted 1.0 or 0
  calB : Store F32
  calO : Store F32
  calR : Store F32
  vConv : F32
  vCell : F32
  rowG : Store F32
  rowO : Store F32
  taps : Store Nat                  -- 5-bit delay tap of each row driver (R34)
  thr : Store Nat                   -- threshold taps of converters (R422)
  copyA : Option CalTable           -- copies of the tile's current table in the calibration store, none where one is not valid (R418)
  copyB : Option CalTable
  newB : Bool                       -- copy B is the newest valid one
  transBad : Bool                   -- TRANS_ROWCONV set for this tile (R56)
  -- drift tracking (R71 to R76)
  probeBase : List F32              -- mean of the burst per level reference
  drift : List F32                  -- drift factor per level reference
  dOff : List F32                   -- offset update per zero reference
  zeroSum : List F32                -- sums of the zero references' corrected values in this interval (R72)
  zeroW : Int                       -- and of w_off of the same MVMs
  probeSum : List F32
  probes : Nat
  missRun : Nat
  probePlan : Bool                  -- the plan counts a probe per plank for the tile (R76)
  coefNext : Option (List F32 × List F32)  -- new drift factors and offsets, for the next boundary (R75)
  refreshDue : Option Nat           -- plank at which the refresh fell due (R77)
  refreshLate : Bool                -- REFRESH_WAIT has passed (R78)
  -- band check (R79 to R92)
  bandK : Nat
  bandN : Nat
  window : List F32                 -- persistence values, newest first (R88)
  loc : Option LocRun
  flaggedAt : Store Nat             -- plank + 1 at which a column was last flagged (R90)
  digCols : List Nat                -- digital stand-in columns (R92)
  colJobs : List (Nat × Option Nat) -- column re-programs due (none) and remaps to a spare pair (R91)
  calDue : Bool                     -- a spare that the next blocking run of its cluster calibrates (R419)
  replaceBy : Option Nat            -- a spare is to replace the tile; the source raised when it verifies (R90, R277)
deriving DecidableEq, Repr

/-- A tile's values in the factory base table: the spec gives none but the typical noise constants of its examples (DESIGN CHOICE). -/
def CalTable.base : CalTable := ⟨[], [], [], 0x3E800000#32, 0x3CA3D70A#32, [], [], [], []⟩

/-- A tile fresh from the factory, with nothing on it; its noise constants are those of the base table (DESIGN CHOICE: R81 gives none before
the first blocking run). -/
def Tile.fresh (st : TState) : Tile where
  state := st
  next := none
  ctx := none
  slices := []
  levels := []
  colMap := []
  pairsUsed := 0
  wear := 0
  warned := false
  suspect := false
  suspectAt := 0
  role := .none
  barred := false
  offline := false
  prog := none
  mvms := []
  reread := []
  slack := 0
  planned := 0
  missed := []
  carried := []
  calB := []
  calO := []
  calR := []
  vConv := 0x3E800000#32
  vCell := 0x3CA3D70A#32
  rowG := []
  rowO := []
  taps := []
  thr := []
  copyA := none
  copyB := none
  newB := false
  transBad := false
  probeBase := List.replicate 7 F32.one
  drift := List.replicate 7 F32.one
  dOff := List.replicate 7 0#32
  zeroSum := List.replicate 7 0#32
  zeroW := 0
  probeSum := List.replicate 7 0#32
  probes := 0
  missRun := 0
  probePlan := false
  coefNext := none
  refreshDue := none
  refreshLate := false
  bandK := 0
  bandN := 0
  window := []
  loc := none
  flaggedAt := []
  digCols := []
  colJobs := []
  calDue := false
  replaceBy := none

/-- Whether a tile key names a spare. -/
def isSpare (k : Nat) : Bool := k % 132 ≥ 128
/-- Cluster ch × 8 + cl of a tile key. -/
def tileCl (k : Nat) : Nat := k / 132
/-- Channel of a tile key. -/
def tileCh (k : Nat) : Nat := k / 1056
/-- Core index (ch × 8 + cl) × 8 + co of a core tile's key. -/
def tileCore (k : Nat) : Nat := k / 132 * 8 + k % 132 / 16

/-- What an unlisted tile is at power-on (R57, R65). -/
def Tile.reset (k : Nat) : Tile := Tile.fresh (if isSpare k then .spare else .idle)

/-! ### Executions and accumulation groups -/

/-- The counters and held codes of one execution at one format (R111, R113). -/
structure FmtCount where
  sat : Nat
  zer : Nat
  ovf : Bool
  blocks : List (List (BitVec 6 × BitVec 6))   -- SAT and ZER of each 32-element block, per vector
  parts : List (List QPart)                    -- held codes, per vector
deriving DecidableEq, Repr

inductive GState where
  | free | opened | held
deriving DecidableEq, Repr

/-- A leaf waiting in a group: index, vector, values and counts (R143, R144). -/
structure Leaf where
  ix : Nat
  vec : Nat
  vals : List F32
  len : Nat
  npart : Nat
  lowConf : Bool        -- the result is marked LOWCONF (R85)
deriving DecidableEq, Repr

/-- An accumulation group (R141 to R145). After release the status fields keep their last values (R160). -/
structure Group where
  state : GState
  src : Nat
  ofmt : Nat
  cols : Nat
  vecs : Nat
  nLeaf : Nat
  bias : List F32
  dest : GroupDest
  epoch : Nat
  len : Nat
  npart : Nat
  unbounded : Bool
  depth : Nat
  lowConf : Bool                -- a leaf was marked LOWCONF (R85)
  ctx : Nat
  layer : Nat
  transpose : Bool              -- the reduction that the group belongs to, and its micro-batch (R148)
  first : Nat
  run : Nat
  exec : Nat
  leaves : List Leaf
  seen : List (Nat × Nat)       -- leaves and vectors that have arrived in this EPOCH, also after release (R143)
  result : List (List F32)      -- roots per vector, bias applied, while HELD
deriving DecidableEq, Repr

/-- A layer execution of a core (R126). -/
structure Exec where
  id : Nat
  transpose : Bool              -- inputs of transpose reads, which never raise fallback (R123)
  ctx : Nat
  layer : Nat
  seq : Option SeqRef
  fmt : Nat                     -- 0 A4, 1 A6, 2 A8
  gainUp : Nat                  -- 1 when the raised gain of R42 applies
  xs : List (List F32)          -- the rotated input vectors (R113)
  nElem : Nat
  counts : List FmtCount        -- at A4, A6, A8
  convSat : Nat                 -- converter saturations of first reads (R41), counted into SAT
  anySat : Bool                 -- any converter saturation, whatever CSAT_FB_EN (R42)
  ovf : Bool                    -- an MVM overflowed its outlier cap (R99)
  mvms : Nat                    -- tile MVMs that make it up
  seen : Nat                    -- first reads whose sums have arrived
  asked : Bool                  -- asked for fallback in this plank (R132)
  bad8 : Bool                   -- found in trouble at A8 in this plank (R135)
  accepted : Bool
  repeated : Bool               -- a late decision moved it one rung (R130)
  issued : Nat                  -- MVMs issued since the last decision
  snap : List (Nat × Group)     -- groups as they stood at that decision, for a repeat the storm rule cancels (R133)
  snapMvms : List (Nat × Mvm)   -- and its MVMs still in tiles
deriving DecidableEq, Repr

def Group.fresh : Group where
  state := .free
  src := 0
  ofmt := 0
  cols := 0
  vecs := 0
  nLeaf := 0
  bias := []
  dest := .scratchpad 0
  epoch := 0
  len := 0
  npart := 0
  unbounded := false
  depth := 0
  lowConf := false
  ctx := 0
  layer := 0
  transpose := false
  first := 0
  run := 0
  exec := 0
  leaves := []
  seen := []
  result := []

/-- A tree descriptor: the reduction of a layer's column range, or row range of a backward pass, and its leaf set as tile indexes in order, with
its CRC-32 check word (R148, R150). -/
structure TreeDesc where
  ctx : Nat
  layer : Nat
  transpose : Bool
  first : Nat
  tiles : List Nat
  crc : Word
deriving DecidableEq, Repr

/-- A tree node above core level, or one that merges attention leaves or top-k lists (R148, R156, R170). -/
structure TreeNode where
  nLeaf : Nat
  leaves : List (Nat × LeafVal)
  root : Option LeafVal
deriving DecidableEq, Repr

def TreeNode.fresh : TreeNode := ⟨0, [], none⟩

/-- The storm rule's state of a cluster (R132 to R135). -/
structure Storm where
  planned : Nat       -- P of the plank
  asks : Nat
  trouble8 : Nat      -- executions in trouble at A8 in this plank
  renew : Bool        -- the plank that ends had too many of them (R135)
  ended : Bool        -- STORM_HOLD has expired (R135)
  now : Bool
  wide : Bool
  left : Nat          -- HOLD_LEFT
  checked : Nat       -- checked MVMs of this plank (R87)
  firstFail : Nat     -- of these, first reads over CONF_LIM
deriving DecidableEq, Repr

def Storm.fresh : Storm := ⟨0, 0, 0, false, false, false, false, 0, 0, 0⟩

/-- Shadow replay of a cluster (R100 to R103). -/
structure Shadow where
  victim : Nat           -- core tile within the cluster, 0 to 127
  valid : Bool
  spare : Nat            -- 0 to 3
  vicCnt : Nat
  sprCnt : Nat
  dwellEnd : Bool        -- the dwell has ended; the change waits for a boundary
  confirm : Bool         -- a localisation action has taken effect (R103)
  keep : Bool            -- the victim keeps its place for a further dwell
  since : Nat            -- plank at which the dwell began (R100)
  seen : Nat             -- forward MVMs of the victim, for the pseudo-random choice (R100)
  sample : Option Mvm    -- the shadow buffer: the MVM that is to be replayed (R100, R102)
  held : Option (List F32 × List F32 × List F32 × List Int)  -- victim, spare and digital values, input (R102)
deriving DecidableEq, Repr

def Shadow.fresh : Shadow := ⟨0, false, 0, 0, 0, false, false, false, 0, 0, none, none⟩

end Sys2Proof
end

