-- ==== Sys2Proof/Machine/PartsSys.lean ====
section
/-! DEFINITION. Data of the system side: what leaves the module (writes, messages, interrupts, lines), management targets and
firmware (R481 to R500), the event recorder (R501 to R507), the Pemor monitor (R508 to R510), contexts' functions, and the
hub's delivery table (R385). -/

namespace Sys2Proof

/-! ### What leaves the module -/

/-- Messages a channel sends on the fabric, with the fields their rules give. -/
inductive FabMsg where
  | hello (node : Option Nat) (ch port fault : Nat) (standby : Bool)
  | enum (id : Nat)
  | assign (id : Nat)
  | probeAnswer
  | time (m : TimeMsg)
  | write (h : MsgHdr) (data : List Byte)
  | read (h : MsgHdr)
  | readResp (h : MsgHdr) (data : List Byte)
  | signal (node : Nat) (s : RemoteSignal)
  | reply (node ch stream tag status : Nat)
  | notReady (node ch stream : Nat)
  | digest (node : Nat) (d : Digest)
  | collFail (node ch ctx collId inst code : Nat)
  | lend (node ch ctx frames : Nat)
  | flitCtrl (ack crdVc crd : Nat)
  | flitNak (seq : Nat)
  | replay (seq : Nat)
deriving DecidableEq, Repr

/-- One thing the module puts on one of its interfaces. -/
inductive Out where
  | hostWrite (fn : Nat) (addr : Nat) (bytes : List Byte)    -- a posted write by the function of context fn
  | hostCopy (fn : Nat) (addr : Nat) (src : Nat) (n : Nat)   -- n bytes of device memory from src, as posted writes (hoods, R210)
  | msix (fn : Nat) (vec : Nat)
  | readData (fn : Nat) (off : Nat) (bytes : List Byte)      -- the completion of a host read
  | abort (fn : Nat)                                         -- Completer Abort
  | retryStatus (fn : Nat)                                   -- Configuration Request Retry Status
  | configOk (fn : Nat) (ok : Bool)
  | ibi (tgt : Nat) (kind state cause seq : Nat)
  | i3c (tgt : Nat) (ack : Bool) (bytes : List Byte)         -- answer to a CCC or a private transfer
  | fabric (ch : Nat) (port : Option Nat) (m : FabMsg)
  | uart (ch : Nat) (line : String) (words : List Nat)
  | plankOut                                                 -- one pulse of PLANK_OUT (R525)
deriving DecidableEq, Repr

/-! ### Management -/

/-- One slot of a firmware kind (R493). -/
structure FwSlot where
  valid : Bool
  svn : Nat
  meas : List Byte          -- SHA-512 of the signed bytes, once verified
deriving DecidableEq, Repr

def FwSlot.empty : FwSlot := ⟨false, 0, []⟩

/-- A kind of firmware on a die (R493 to R497). -/
structure Fw where
  active : Nat              -- 0 slot A, 1 slot B
  slotA : FwSlot
  slotB : FwSlot
  pending : Bool
  running : Bool            -- an image of the kind runs
  runSlot : Nat
  runSvn : Nat
  meas : List Byte          -- measurement of the image that runs
  minSvn : Nat
  commits : Nat
  path : Option Nat         -- a staging that is not complete: 0 by I3C, 1 by PF0
  staged : Store Byte       -- bytes staged into the slot that is not active
  got : List (Nat × Nat)    -- ranges of bytes staged: first, and one past the last
  fallback : Bool
deriving DecidableEq, Repr

/-- A kind as it leaves the factory: slot A holds the image. -/
def Fw.fresh : Fw where
  active := 0
  slotA := ⟨true, 0, []⟩
  slotB := FwSlot.empty
  pending := false
  running := false
  runSlot := 0
  runSvn := 0
  meas := []
  minSvn := 0
  commits := 0
  path := none
  staged := []
  got := []
  fallback := false

/-- A management controller's I3C target: 0 to 7 the channels, 8 the hub (R481 to R492). -/
structure Mgt where
  acks : Bool               -- step 4 of R470 is passed
  bootRom : Bool
  da : Option Nat
  ibiEn : Bool
  mwl : Nat
  mrl : Nat
  ibiMax : Nat
  ibi : Option (Nat × Nat × Nat × Nat)  -- pending KIND, STATE, CAUSE, SEQ
  evs : List (Nat × Nat × Nat × Nat)    -- event summary: KIND with its newest STATE, CAUSE, SEQ
  resp : Option (List Byte)
  restarting : Bool
  calBase : Nat             -- calendar time in ms at mgtMs = calAt
  calAt : Nat
  tset : Bool
  reports : Nat             -- attestation reports signed since power-on
deriving DecidableEq, Repr

def Mgt.fresh : Mgt where
  acks := false
  bootRom := false
  da := none
  ibiEn := true
  mwl := 1030
  mrl := 1030
  ibiMax := 4
  ibi := none
  evs := []
  resp := none
  restarting := false
  calBase := 0
  calAt := 0
  tset := false
  reports := 0

/-! ### Event recorder -/

/-- An event record (R501). -/
structure EvRec where
  seq : Nat
  code : Nat
  source : Nat
  flags : Nat
  time : Nat
  supp : Nat
  data : List Byte
deriving DecidableEq, Repr

/-- A channel's recorder (R501 to R507). -/
structure Recorder where
  recs : Store (Option EvRec)     -- slot SEQ mod 8,192
  next : Nat                      -- next SEQ
  oldest : Nat
  stored : Nat                    -- records below this SEQ have reached non-volatile memory
  nvFail : Bool
  used : Store Nat                -- tokens taken per code since it was full (R504)
  supp : Store Nat                -- suppressed per code since its last record
  cursors : List Nat              -- PF0, management, Pemor (R506)
  curLo : List Nat                -- low word waiting for its _HI, per reader
deriving DecidableEq, Repr

def Recorder.fresh : Recorder where
  recs := []
  next := 1
  oldest := 1
  stored := 1
  nvFail := false
  used := []
  supp := []
  cursors := [0, 0, 0]
  curLo := [0, 0, 0]

/-! ### Pemor monitor -/

/-- A channel's Pemor monitor (R508 to R510). -/
structure Pemor where
  level : PemorLevel
  nonce : Option (Nat × PemorLevel)  -- nonce number and the level asked
  nonces : Nat                      -- nonces drawn, the index of the free random source
  fails : List Nat                  -- times in ms of recent failures
  lockout : Bool
  opened : Bool                     -- opened since power-on reset
  jtag : Bool
  jtagOpened : Bool
  baud : Nat
deriving DecidableEq, Repr

def Pemor.fresh : Pemor where
  level := .locked
  nonce := none
  nonces := 0
  fails := []
  lockout := false
  opened := false
  jtag := false
  jtagOpened := false
  baud := 921600

/-! ### Hub -/

/-- A group of ring writes of one entry (R385): what the host port will carry, and what the delivery table takes from it. -/
structure RingGroup where
  seq : SeqRef
  writes : List Out
  word : Nat             -- its status word (R238)
  pos : Nat              -- committed length it carries as a tag
  complete : Bool
deriving DecidableEq, Repr

/-- Delivery table entry (R385). -/
structure Dlv where
  recs : Nat
  pos : Nat
  gen : Nat
  ringAddr : Nat
  ringLog2 : Nat
  statusAddr : Nat
  irq : Bool
  ctx : Nat
  last : Nat             -- bits [39:32] of the last status word forwarded: STATE, STOP and STOP_WHY
  live : Bool
deriving DecidableEq, Repr

def Dlv.fresh : Dlv := ⟨0, 0, 0, 0, 0, 0, false, 0, 0, false⟩

/-- How a context came to be cleaned (R449). -/
inductive CleanWhy where
  | none | destroy | flr | vfOff
deriving DecidableEq, Repr

end Sys2Proof
end

