-- ==== Sys2Proof/Machine/PartsLink.lean ====
section
/-! DEFINITION. Data of scratchpads (R300 to R314), sync objects and remote signals (R321 to R336), fabric ports, streams and
collectives (R346 to R362), time (R363 to R366), and the attention engines' running items (R165 to R182). -/

namespace Sys2Proof

/-! ### Scratchpads -/

/-- A request in the scoreboard (R303): its bounding range in 4-byte units, and the bytes it names, in order. -/
structure SbEnt where
  id : Nat                  -- issue position
  req : SpdReq
  lo : Nat
  hi : Nat                  -- first byte after the range
  addrs : List Nat          -- the bytes of the access, in order
  rgn : Option Nat
  rgnLen : Nat
deriving DecidableEq, Repr

/-- A gather slot: its row, when it was first written, and the bytes its mask holds (R306). -/
structure GSlot where
  id : Nat
  row : Nat
  bytes : Store (Option Byte)
deriving DecidableEq, Repr

/-- A circular region (R311): byte counts modulo 2Z; `wIss` and `rIss` are the head and tail with every issued access counted. -/
structure Region where
  valid : Bool
  base : Nat
  size : Nat
  prod : Nat
  cons : Nat
  ctx : Nat
  head : Nat
  tail : Nat
  wIss : Nat
  rIss : Nat
deriving DecidableEq, Repr

def Region.fresh : Region := ⟨false, 0, 0, 0, 0, 0, 0, 0, 0, 0⟩

/-- Power of a bank, pseudo-channel or rank (R314): up, waiting since an issue position, or powered down. -/
inductive Pd where
  | up | waiting (t0 : Nat) | down
deriving DecidableEq, Repr

/-- A core's scratchpad beside its bytes. -/
structure Spd where
  next : Nat                    -- next issue position
  ents : List SbEnt             -- oldest first
  gather : List GSlot           -- oldest first
  wait : List SpdReq            -- requests stopped at issue, in issue order (R303)
  rwait : List SpdReq           -- requests that wait for room or data in a region (R312)
  regions : Store Region
  banks : Store Pd
  used : Store Nat              -- plank + 1 at which a bank was last used
  readOut : List Byte           -- data of the last completed read
  dmaEnd : Nat                  -- shared status code of the last DMA write that completed
deriving DecidableEq, Repr

def Spd.fresh : Spd := ⟨0, [], [], [], [], [], [], [], [], 0⟩

/-! ### Sync objects -/

/-- A wait on an object (R326, R327). -/
structure SyWait where
  who : Nat
  threshold : Nat
  seq : Option SeqRef
  met : Bool
  until_ : Nat              -- plank at which SYN_WAITMAX has passed
deriving DecidableEq, Repr

/-- A sync object (R321); `state` 0 FREE, 1 ARMED, 2 BROKEN. -/
structure SyObj where
  state : Nat
  count : Nat
  target : Nat
  ctx : Nat
  code : Nat
  waits : List SyWait
deriving DecidableEq, Repr

def SyObj.fresh : SyObj := ⟨0, 0, 0, 0, 0, []⟩

/-- A translation entry (R323): the physical object and the peer binding of SYN_CX_PEER. -/
structure SyMap where
  obj : Nat
  peer : Word
deriving DecidableEq, Repr

/-- A remote signal that waits for its data (R335). -/
structure HeldSig where
  sig : RemoteSignal
  obj : Nat
  order : Nat
deriving DecidableEq, Repr

/-- A signal this channel sent and that may still be refused (R335). -/
structure SentSig where
  id : Nat
  sig : RemoteSignal
  node : Nat
  since : Nat
  refused : Bool
  seq : Option SeqRef
deriving DecidableEq, Repr

/-- Bytes of a stream that have reached their memory (R335, R353): the contiguous prefix, and ranges beyond it. -/
structure Arrived where
  prefix_ : Nat
  ahead : List (Nat × Nat)
deriving DecidableEq, Repr

def Arrived.fresh : Arrived := ⟨0, []⟩

/-- A channel's sync objects and signals. -/
structure Sync where
  objs : Store SyObj
  maps : Store (Option SyMap)   -- context × 4096 + virtual ID
  held : List HeldSig           -- oldest first
  nextHeld : Nat
  sent : List SentSig
deriving DecidableEq, Repr

def Sync.fresh : Sync := ⟨[], [], [], 0, []⟩

/-! ### Fabric -/

/-- A message on its way out of a port: virtual channel, granules still to place, stream it belongs to, and the message. -/
structure TxMsg where
  vc : Nat
  left : Nat
  stream : Option Nat
  msg : FabMsg
deriving DecidableEq, Repr

/-- A fabric port (R346 to R349). `state`: 0 DISABLED, 1 DOWN, 2 TRAINING, 3 UP, 4 RETRAIN. -/
structure Port where
  state : Nat
  partner : Option Hello
  fast : Bool                   -- a retrain's fast re-lock is still running
  fails : List Nat              -- times, ms, of failed full trainings
  seqTx : Nat
  seqRx : Nat
  replay : List (Nat × List TxMsg)   -- flits not acknowledged: SEQ, and the messages that ended in it
  txq : List TxMsg
  credits : List Nat            -- per virtual channel
  owed : List Nat               -- granules received and not yet returned as credits
deriving DecidableEq, Repr

def Port.fresh : Port := ⟨0, none, false, [], 0, 0, [], [], [512, 512, 128, 32], [0, 0, 0, 0]⟩

/-- A stream this channel sends (R351, R352, R358). -/
structure Stream where
  port : Option Nat
  offset : Nat                  -- data bytes sent, modulo 2^48
  held : Bool                   -- a NOTREADY holds it
  since : Option Nat            -- time of the first NOTREADY
  last : Option (Nat × Nat × FabMsg)   -- destination node and channel of the last message, and the message
  wait : List (Nat × Nat × FabMsg)
deriving DecidableEq, Repr

def Stream.fresh : Stream := ⟨none, 0, false, none, none, []⟩

/-- A READ that waits for its data (R354). -/
structure OpenRead where
  tag : Nat
  stream : Nat
  dest : Nat                    -- device address that receives the data
  seq : Option SeqRef
deriving DecidableEq, Repr

/-- A collective in progress on this channel (R359 to R362). -/
structure Coll where
  o : CollOpen
  me : Nat                      -- this channel's place among the participants
  val : Option LeafVal          -- what has been reduced so far; none until the own leaf is there
  have_ : List Nat              -- tree levels whose contribution has been added
  early : List (Nat × LeafVal)  -- checked contributions of higher levels
  sent : Bool                   -- contribution sent to the parent; on the root, the result to a child
  retried : Bool                -- a result failed its check once and was sent again
  done : Bool                   -- the root's value has been released here
deriving DecidableEq, Repr

/-- Route entries lo to hi: the ports, or none for the sibling ports toward ch0; and VALID (R355, R357). -/
structure RouteRange where
  lo : Nat
  hi : Nat
  ports : Option Nat
  valid : Bool
deriving DecidableEq, Repr

/-- A channel's fabric. -/
structure Fab where
  ports : Store Port
  routes : List RouteRange      -- the first range that holds an index is its entry
  streams : Store Stream
  arrived : Store Arrived       -- (source node × 8 + channel) × 65536 + stream
  lends : List LendRange
  reads : List OpenRead
  ended : Store Nat             -- status of the last READ that ended, per tag
  digests : List Digest
  colls : List Coll
  nrAt : List (Nat × Nat × Nat) -- NOTREADY answers of the last 10 µs: port, source node, time
deriving DecidableEq, Repr

def Fab.fresh : Fab := ⟨[], [], [], [], [], [], [], [], [], []⟩

/-- The module's device time as the fabric or PLANK_IN steers it (R363 to R367). -/
structure FTime where
  heard : Store (Nat × Nat)     -- per module port: master and its hops, plus 1 in the first
  delays : Store Nat            -- per module port, ns
  minWins : Store Nat           -- per module port: PLK_MINWIN the partner reported
  from_ : Option Nat            -- module port that time is taken from
  lastMsg : Nat                 -- plank of the last TIME message taken
  slew : Int                    -- ns still to remove
  edge : Bool                   -- an edge was accepted in this plank
  misses : Nat                  -- edges ignored or missing in a row
  skew : Int                    -- ns by which the next boundary moves onto the edge
  change : Option (Nat × Nat × Nat)   -- boundary, period and fill target that the master named
deriving DecidableEq, Repr

def FTime.fresh : FTime := ⟨[], [], [], none, 0, 0, false, 0, 0, none⟩

/-! ### Attention -/

/-- A query row of an item: its KV head, its query head among the G of that head, its position, and the rotated query (R123, R172). -/
structure QRow where
  head : Nat
  g : Nat
  pos : Nat
  q : List F32
deriving DecidableEq, Repr

/-- Elements of one head's key or value by 32-element block, each with its block scale. -/
abbrev KvVec := List (List F32 × F32)

/-- What the entries of a page hold of one head and position: the tier it was read from and its bytes (R173, R178). -/
structure KvAt where
  head : Nat
  pos : Nat
  key : KvVec
  val : KvVec
  tier : Nat
  bytes : Nat
deriving DecidableEq, Repr

/-- An item on a DAE or PAE: its query rows, the blocks of positions still to do, each row's m, l and acc, and on a PAE the leaf as it was
staged in the cluster buffer (R168, R180). -/
structure AttnRun where
  item : AttnItem
  qs : List QRow
  blocks : List (List Nat)
  rows : List AttnPartial
  staged : List KvAt
deriving DecidableEq, Repr

/-- The sums of a tuning step's backward pass in one layer, over the items done so far: dq by head, query head and position; dk and dv by head
and position (R182). -/
structure BwdSums where
  seq : SeqRef
  layer : Nat
  dq : List ((Nat × Nat × Nat) × List F32)
  dk : List ((Nat × Nat) × List F32)
  dv : List ((Nat × Nat) × List F32)
deriving DecidableEq, Repr

/-- What a PAE does. The model does backward, spill and transpose items in one command: `kind` tells the last item's sort until the next item
or boundary (R185). -/
structure Pae where
  run : Option AttnRun
  kind : Nat                    -- 0 nothing, 1 attention, 2 spill, 3 backward, 4 transpose fallback
  ctx : Nat
  back : Option BwdSums
deriving DecidableEq, Repr

def Pae.fresh : Pae := ⟨none, 0, 0, none⟩

end Sys2Proof
end

