-- ==== Sys2Proof/Machine/PartsSense.lean ====
section
/-! DEFINITION. Data of the measuring side: the monitor converter's sequencer (R398 to R403), fast meters (R404), the thermal
model, states and cuts of a cluster (R405 to R414), the power cap's cut of a channel (R27), and blocking runs of a core (R419). -/

namespace Sys2Proof

/-- A cluster's monitor converter: the slot in progress and what waits (R399, R402). -/
structure Mon where
  slot : Nat                    -- regular slot in progress
  inj : Option (Nat × Nat)      -- injected sequence in progress: kind (0 STORM, 1 THERMAL, 2 BLOCK) and slot
  queue : List Nat              -- kinds waiting, in order of arrival
  discard : Nat                 -- outputs still to discard for settling
  words : List Int              -- outputs taken for the slot
  ovl : Bool                    -- the modulator overloaded during the slot
  core : Nat                    -- core of the last blocking run that began, for BLOCK
  passes : Nat                  -- passes of the regular sequence, modulo 256
  lastInj : Nat                 -- kind of the last injected sequence
  ovlSeen : Bool                -- MON_STA.OVL
  src : Nat                     -- INPUT and SUB the multiplexer stands at (R399)
  rate : Nat                    -- rate of the conversions (R398)
deriving DecidableEq, Repr

def Mon.fresh : Mon := ⟨0, none, [], 3, [], false, 0, 0, 0, false, 30, 0⟩

/-- A rail's fast meter: samples of this plank, and the corrections toward the fine readings (R404). -/
structure Meter where
  n : Nat
  amps : Nat              -- sum of samples, mA
  volts : Nat             -- sum of samples, mV
  corA : F32              -- corrections, added to the plank's means in A and V
  corV : F32
  lastA : F32             -- corrected means of the previous plank
  lastV : F32
deriving DecidableEq, Repr

def Meter.fresh : Meter := ⟨0, 0, 0, 0, 0, 0, 0⟩

/-- Thermal states with their codes (R410, R427). -/
inductive ThState where
  | nominal | warning | asked | enforced | shutdown
deriving DecidableEq, Repr

def ThState.code : ThState → Nat
  | .nominal => 0 | .warning => 1 | .asked => 2 | .enforced => 3 | .shutdown => 4

/-- A cut of new steps: `l` the limit; B0 is `sum` / 64, the steps of the last 64 planks (R27, R412). -/
structure Cut where
  l : Nat
  sum : Nat
  lifting : Bool
deriving DecidableEq, Repr

/-- A cluster's thermal model, state and enforcement (R405 to R414). -/
structure Therm where
  started : Bool
  pd : F32
  pp : F32
  o : F32
  tModel : F32
  tCl : F32
  diodes : List (Option Int)     -- last reading of d0 to d3, 1/16 °C
  off3 : List Nat                -- successive readings away from the neighbours' median (R407)
  frozen : Bool                  -- fast meter corrections frozen (R424)
  hist : List F32                -- T_sd of the last boundaries, newest first (R414)
  histCl : List F32              -- T_cl of the last boundaries, newest first (R412)
  sinceOffset : Nat              -- boundaries since the offset last moved (R406)
  state : ThState
  grace : Nat                    -- planks of the grace time left (R411)
  graceEnded : Bool
  steps : List Nat               -- new steps given per plank, newest first (R412)
  served : List Nat              -- the same as the cluster was last in service (R413)
  cut : Option Cut
  tick : Nat                     -- boundaries since enforcement began, or since its last step
  clock : Nat                    -- 0 full, 1 and 2 the stages of R413
  clockT : F32                   -- T_cl when the present clock stage began
deriving DecidableEq, Repr

def Therm.fresh : Therm where
  started := false
  pd := 0
  pp := 0
  o := 0
  tModel := 0
  tCl := 0
  diodes := [none, none, none, none]
  off3 := [0, 0, 0, 0]
  frozen := false
  hist := []
  histCl := []
  sinceOffset := 0
  state := .nominal
  grace := 0
  graceEnded := false
  steps := []
  served := []
  cut := none
  tick := 0
  clock := 0
  clockT := 0

/-- The power cap's cut of a channel and the steps it planned (R27). -/
structure CapCut where
  steps : List Nat
  cut : Option Cut
deriving DecidableEq, Repr

def CapCut.fresh : CapCut := ⟨[], none⟩

/-- A core's blocking runs (R419 to R422). -/
structure Bkg where
  due : Option Nat               -- device time at which the run fell due
  waited : Nat                   -- planks waited since
  late : Bool                    -- BKG_LATE passed: the run goes ahead with the tiles that are free
  running : Option Nat           -- device time of the run's start
  tRun : Option Int              -- T_RUN, 1/16 °C
  skip : List Nat                -- tiles the last run left out (PARTIAL); they stay due
  done : Bool                    -- the run's measurements are in; the tiles return at a boundary
deriving DecidableEq, Repr

def Bkg.fresh : Bkg := ⟨none, 0, false, none, none, [], false⟩

end Sys2Proof
end

