-- ==== Sys2Proof/Machine/PartsServe.lean ====
section
/-! DEFINITION. Data of the serving side: sequences with their steps, pages and hoods (R186 to R245), frame stores of a channel
(R194), loads, swaps and adapters of a context (R257 to R275). -/

namespace Sys2Proof

/-! ### Pages -/

/-- State of a page's entries (R192). -/
inductive PState where
  | present | absent
deriving DecidableEq, Repr

/-- Where a frame lies: tier 1 to 4; for T3 the channel of this module that lent it; and its index there (R186, R192, R531). -/
structure Frame where
  tier : Nat
  ch : Nat
  ix : Nat
deriving DecidableEq, Repr

/-- A move under way: the target frames, and whether the copy is done (R196). `bg` counts it against MIG_MAX (R293). -/
structure PMove where
  dst : List Frame
  done : Bool
  failed : Bool
  bg : Bool
  reads : List Nat          -- tags of the READs that bring it from T3 (R9)
deriving DecidableEq, Repr

/-- A page of an attention layer, or a state page (R192, R205): what its page-table entries hold. -/
structure PageSt where
  state : PState
  fmt : Nat                 -- 2, 3, 4 or 8
  isGlobal : Bool
  tent : Bool
  isState : Bool
  fill : Nat
  frames : List Frame
  move : Option PMove       -- MOVING
  dropping : Bool           -- a drop decided at the last boundary (R199)
  cur : Nat                 -- state pages: the frame that is committed, and the index of the state in it
  curIx : Nat
deriving DecidableEq, Repr

/-! ### Steps -/

/-- What a step does (R23, R201, R276). -/
inductive StepKind where
  | decode | prefill | recompute (page : Nat) | replay | backward
deriving DecidableEq, Repr

/-- A stage: the layers that it runs, in order, each with the vectors of the step that it runs there (R23). A layer whose vectors do not all
fit stands in several stages. -/
abbrev Stage := List (Nat × Nat)

/-- A step in flight (R23, R24). -/
structure Step where
  kind : StepKind
  start : Nat               -- first position
  stop : Nat                -- position after its last, drafts not counted
  drafts : Nat
  sample : Bool             -- its last position is followed by a sampled token
  epoch : Nat
  adpGen : Nat              -- adapter generation pinned (R274)
  stages : List Stage       -- stages still to run (R23)
  slip : Nat                -- planks by which carried work holds the stage up: 0 none, 1 running, 2 in overrun (R19 to R21)
  ended : Bool              -- its last stage finished in the plank now ending
deriving DecidableEq, Repr

/-! ### Sequences -/

/-- A record that waits for ring room: its word, and the state, STOP_WHY and REASON of its own status word (R240). -/
structure PendRec where
  word : Nat
  st : Nat
  why : Nat
  reason : Nat
deriving DecidableEq, Repr

/-- Why a sequence is STOPPING (R220). -/
inductive Stopping where
  | no
  | park (ttl : Nat) (tier : Option Nat) (t1 : Bool) (ckpt : Bool) (copied : Bool)
  | ending (why code : Nat)
  | thermal (ttl : Nat)     -- checkpointed by an orderly thermal stop, with the TTL of a hood in place (R415)
deriving DecidableEq, Repr

/-- A checkpoint slot (R208, R209). -/
structure Ckpt where
  valid : Bool
  clen : Nat
  delivered : Nat
  newTok : Nat
  progress : List Nat
  epoch : Nat
  number : Nat
  partials : Store Nat        -- partial pages copied: page key to the positions held
deriving DecidableEq, Repr

def Ckpt.none : Ckpt := ⟨false, 0, 0, 0, [], 0, 0, []⟩

/-- Tuning of an entry: the saved statistics, and whether the backward pass runs (R181, R276). -/
structure Tune where
  forward : Bool
  losses : List F32
deriving DecidableEq, Repr

/-- What the module keeps for an entry beside its 128 bytes. The admission count survives every end of a sequence (R189). -/
structure Seq where
  adm : Nat
  ctx : Nat
  home : Nat                     -- home cluster (R291)
  newHome : Option Nat
  samp : List Byte               -- the copied sampling block (R222)
  progress : List Nat            -- stop progress of each sequence (R232)
  last : Nat                     -- boundary of the last commit, or of acceptance (R226)
  step : Option Step
  held : Option (Nat × Nat)      -- hold under R199 or R529: first plank, HOLD_MAX then in force
  pend : List PendRec            -- records that wait for ring room (R240)
  ringRsv : Bool                 -- the record reserved for a hood (R245)
  rsv : Nat                      -- T1 frames reserved and unused (R215)
  stopping : Stopping
  restore : Option (Nat × Bool)  -- a resume of a hood: plank in which its wait ends without a deadline, and whether its frames are taken (R212)
  ready : Bool                   -- the copies of the restore are done
  pages : Store PageSt           -- keyed layer × 2^17 + page
  log : List Frame               -- token log frames, in order (R206)
  logW : List Nat                -- the words logged, by position (R206, R207)
  turnStart : Nat                -- committed length at the turn's start
  kept : Nat × List Nat          -- log words kept for re-issue once the log is freed: first position and words (R387)
  group : List Nat               -- record words issued in this boundary and not yet followed by their status word (R237)
  swDue : Bool                   -- a status word is due
  irqDue : Bool                  -- with the message of R241
  slotA : Ckpt
  slotB : Ckpt
  newest : Nat
  ckptFrames : List Frame        -- frames of both slots
  copying : Option Ckpt          -- a checkpoint that is being written (R209)
  ckptAgain : Bool               -- its write was dropped: it is taken again at the next boundary (R316)
  hoodTier : Nat                 -- tier of the hood, 0 for none or when parked in place
  hoodAux : List Frame           -- hood frames of the token log and of directory and leaves: while parking all, then the latter
  restoreLog : List Frame        -- T2 frames taken for the log of a restore
  parkFrom : Nat                 -- state from which the park was requested (R388)
  inPlace : Bool                 -- parked by an orderly stop (R415)
  cmdOpen : Bool                 -- CMD_STA shows PENDING for a park or restore, and no command was written since (R242, R243)
  past : Bool                    -- E passes in the running plank, and no resume was written before it (R212)
  recomp : Nat                   -- next position of the recompute of a page (R201)
  work : List Frame              -- working state frames of a recompute (R201)
  replay : List (Nat × Nat × Bool) -- ranges still to re-run after a restart, and whether a token follows (R390)
  lastWord : Nat                 -- word of the last ring record, for EXPIRED (R211)
  failMs : List Nat              -- device times, ms, of steps that failed for a collective or remote leaf (R391)
  epochTok : Nat                 -- epoch parity of the last committed token
  tune : Option Tune
  mark : Bool                    -- marked for RECOMPUTE by a swap (R271)
  endedAt : Option Nat           -- plank in which the sequence became DONE or FAILED (R234)
deriving DecidableEq, Repr

def Seq.fresh : Seq where
  adm := 0
  ctx := 0
  home := 0
  newHome := none
  samp := []
  progress := List.replicate 8 0
  last := 0
  step := none
  held := none
  pend := []
  ringRsv := false
  rsv := 0
  stopping := .no
  restore := none
  ready := false
  pages := []
  log := []
  logW := []
  turnStart := 0
  kept := (0, [])
  group := []
  swDue := false
  irqDue := false
  slotA := Ckpt.none
  slotB := Ckpt.none
  newest := 0
  ckptFrames := []
  copying := none
  ckptAgain := false
  hoodTier := 0
  hoodAux := []
  restoreLog := []
  parkFrom := 0
  inPlace := false
  cmdOpen := false
  past := false
  recomp := 0
  work := []
  replay := []
  lastWord := 0
  failMs := []
  epochTok := 0
  tune := none
  mark := false
  endedAt := none

/-! ### Frames of a channel -/

/-- A frame's state: the context that last owned it plus 1, and whether it is in use (R190). -/
structure FrameSt where
  owner : Nat
  used : Bool
deriving DecidableEq, Repr

def FrameSt.fresh : FrameSt := ⟨0, false⟩

/-- Ranges of T1 set aside outside the state frames: first frame, frames, context (R194). -/
structure T1Range where
  first : Nat
  n : Nat
  ctx : Nat
  staging : Bool
deriving DecidableEq, Repr

/-- A page-table leaf: frame, place in it (0 to 15), entry of the sequence, and index of the leaf pointer that names it (R191). -/
structure LeafSlot where
  frame : Nat
  slot : Nat
  r : Nat
  ptr : Nat
deriving DecidableEq, Repr

/-- A frame of a page that has a copy in a core's scratchpad (R195): the core, the address there, sequence, page key, frame index k, and the frame
that was copied. -/
structure Staged where
  core : Nat
  addr : Nat
  r : Nat
  key : Nat
  k : Nat
  frame : Frame
deriving DecidableEq, Repr

/-- A field of a page directory, page-table leaf or token log that a host write has changed: its device address, the bytes that the module had
written there, and what they read as until the module writes the field again (R193). -/
structure Tamper where
  addr : Nat
  was : List Byte
  now : List Byte
deriving DecidableEq, Repr

/-- The state memory of a channel (R194, R214). -/
structure Mem where
  t1 : Store FrameSt
  t2 : Store FrameSt
  ranges : List T1Range
  dirs : List (Nat × Nat × Nat)   -- page directories: frame, quarter, entry (R191)
  leaves : List LeafSlot          -- page-table leaves, 16 to a frame (R191)
  lent : List Nat                 -- T2 frames lent to other channels of the module (R531)
  zeroed : Bool            -- T1 has been written with zeros (step 4 of R471)
  zeroed2 : Bool           -- T2 has been written with zeros (R475)
  t2Known : Bool           -- KVP_T2_TOT reports the full count (R475)
deriving DecidableEq, Repr

def Mem.fresh : Mem := ⟨[], [], [], [], [], [], false, false, false⟩

/-! ### Contexts -/

/-- An adapter image (R272). -/
structure AdpImg where
  rank : Nat
  alpha : F32
  layers : List (Nat × Nat × Nat)     -- layer, A_OFF, B_OFF
  bytes : Store Byte
  size : Nat
deriving DecidableEq, Repr

/-- An adapter slot (R273, R274). -/
structure Adp where
  state : Nat                -- 0 EMPTY, 1 ACTIVE, 2 STAGED, 3 LOADING
  gen : Nat
  active : Option AdpImg
  standby : Option AdpImg
  old : Option AdpImg        -- the previous generation while steps pin it
  wait : List Nat            -- channels a commit has still to reach
  genOn : List Nat           -- generation in force on each channel
  committing : Bool          -- a COMMIT has not reached every channel yet (R273)
  lost : Bool                -- its buffers went with a channel: EMPTY once no live or PARKED entry names it (R295)
deriving DecidableEq, Repr

def Adp.fresh : Adp := ⟨0, 0, none, none, none, [], List.replicate 8 0, false, false⟩

/-- A load, swap or unload under way (R257, R266, R281). PHASE stands in LDR_CMD_STA. -/
structure Load where
  swap : Bool
  image : Store Byte          -- bytes read from the image, by offset
  tiles : List Nat            -- tiles this load or swap programs
  tilesDone : Nat
  placed : Bool
  waveOn : Bool
  goNow : Bool                -- GO, or WAVE_MAN 0
  wavePos : Nat
deriving DecidableEq, Repr

def Load.fresh : Load := ⟨false, [], [], 0, false, false, false, 0⟩

/-- A context's state beside its pages (R447). -/
structure Ctx where
  pat : Option Pattern            -- the loaded pattern
  newPat : Option Pattern         -- the pattern a load or swap brings in
  load : Load
  adps : Store Adp
  depth : Nat                     -- D and DP (R23)
  depthP : Nat
  cleaning : CleanWhy             -- CLEANING, and why (R449)
  dmaOff : Bool                   -- the cleaning has begun: the function's DMA is stopped (R449)
  creating : Bool                 -- a CREATE has allocated the staging areas and zeroes them (R448)
  snapGo : Bool                   -- a placement snapshot waits for its boundary (R296)
  hoodFrames : List Nat           -- hood area frames in use, channel × 2^24 + index (R210)
  t1Short : List Nat              -- reserved T1 frames per channel, unused (R294)
  d3 : Bool                       -- its function is in D3hot (R433)
deriving DecidableEq, Repr

def Ctx.fresh : Ctx where
  pat := none
  newPat := none
  load := Load.fresh
  adps := []
  depth := 0
  depthP := 0
  cleaning := .none
  dmaOff := false
  creating := false
  snapGo := false
  hoodFrames := []
  t1Short := List.replicate 8 0
  d3 := false

end Sys2Proof
end

