-- ==== Sys2Proof/Machine/State.lean ====
section
/-! DEFINITION. The machine's state, plain data: the queue of waiting commands, and the module: its registers, memories, engines,
tables, links and pins. State.reset is the module right after power-on reset (R4, R462). -/

namespace Sys2Proof.Machine

/-- Where the machine stops with a fault. No command of this hardware does: every error the spec names is a register bit, a
status code or a recorded event, and the machine goes on. -/
inductive Fault where
  /-- Raised by nothing: kept so that the type is not empty. Safe. -/
  | never
deriving DecidableEq, Repr

/-- Why a command is refused. -/
inductive Refusal where
  /-- Raised by an arm of exec whose command has no meaning yet. Safe: the machine stops. -/
  | notModelled (mnemonic : String)
deriving DecidableEq, Repr

/-- A core's state beside its tiles (R13). -/
structure Core where
  groups : Store Group            -- 0 to 15 (R141)
  execs : List Exec               -- layer executions in progress (R126)
  nodes : List (NodeKey × TreeNode) -- tree nodes and attention merges of this core's vector engine (R148, R170)
  bkg : Bkg                       -- blocking runs (R419)
  spd : Spd                       -- scratchpad (R300)
  dae : Option AttnRun            -- item on the DAE (R167)
  used : Nat                      -- ns that waits have taken out of the slack of the core's digital engines in this plank (R18, R68, R176)
deriving DecidableEq, Repr

def Core.fresh : Core := ⟨[], [], [], Bkg.fresh, Spd.fresh, none, 0⟩

/-- A cluster's state beside its cores (R8). -/
structure Cluster where
  storm : Storm
  shadow : Shadow
  mon : Mon                       -- monitor converter (R398)
  meters : List Meter             -- fast meters of VDD_CORE, VDD_ARR, VDD_SRAM, VDD_ANA and VPRG (R404)
  therm : Therm                   -- thermal model and state (R405)
  pae : Pae                       -- prefill attention engine (R167)
deriving DecidableEq, Repr

def Cluster.fresh : Cluster := ⟨Storm.fresh, Shadow.fresh, Mon.fresh, List.replicate 5 Meter.fresh, Therm.fresh, Pae.fresh⟩

/-- A channel's state beside its clusters (R8). -/
structure Chan where
  time : Nat                      -- device time, ns (R12)
  plank : Nat                     -- plank counter
  linkUp : Bool                   -- the hub link (R10)
  inReset : Bool                  -- a channel reset or HALTED reset runs (R446)
  deferred : List (Nat × FltAt)   -- DEGRADE actions waiting for the exit (R377)
  quietEnd : Nat                  -- CLK_MGT time, ns, at which the running quiet period ends (R381, R396)
  quietDone : Bool                -- the quiet period has ended; the exit is due
  safeDue : Bool                  -- the channel has entered CONTAINED or HALTED in this command: R378 goes on
  haltDue : Bool                  -- it has entered HALTED: the hub's words follow (R384)
  noticeDue : Bool                -- its fault state has changed: HELLO goes out on every UP port (R393)
  resumeDue : Bool                -- a HALTED reset has cleared HALTED; the first boundary handles the entries (R464)
  placeDue : Bool                 -- its slices are to be placed elsewhere at the next boundary (R295)
  offers : List Frame             -- T3 frames that other modules lend at this boundary (R531)
  exits : List Nat                -- CLK_MGT times, ms, of the last 15 exits (R382)
  longSum : List Nat              -- layers that raised LONG_SUM in this drift interval (R154)
  driftLeft : Nat                 -- planks left of the running drift interval (R75)
  carried : List Nat              -- entries whose work was carried in the plank now running (R19, R20)
  slipNow : List Nat              -- entries whose slip this plank has been counted (R19)
  cap : CapCut                    -- the power cap's cut (R27)
  irqSent : List Nat              -- contexts that had their message of R241 in this boundary
  baseBad : Nat                   -- copies of the factory base table that have failed their check (R418)
  orderly : Bool                  -- an orderly thermal stop runs (R415)
  stopCkpt : Bool                 -- its checkpoints have been started (step 3 of R415)
  tripped : Bool                  -- a hard stop asserted THERMTRIP_N (R416)
  sync : Sync                     -- sync objects and signals (R321)
  fab : Fab                       -- fabric (R344)
  memPd : Store Pd                -- pseudo-channels 0 to 127, ranks from 128 on (R315)
  idle : Nat                      -- planks without work (R457)
  unpwr : Nat                     -- seconds the arrays were unpowered before the last start, 2^32 − 1 if VAUX was lost too (R468, R469)
  offAt : Option Nat              -- CLK_MGT time, ms, at which the arrays lost power
  startAt : Nat                   -- CLK_MGT time, ms, of t1 or of the reset that runs (PWR_CH_TREADY)
  saved : Bool                    -- C2 holds the channel's settings in T1 (R458)
  evr : Recorder
  pemor : Pemor
deriving DecidableEq, Repr

def Chan.fresh : Chan where
  time := 0
  plank := 0
  linkUp := false
  inReset := false
  deferred := []
  quietEnd := 0
  quietDone := false
  safeDue := false
  haltDue := false
  noticeDue := false
  resumeDue := false
  placeDue := false
  offers := []
  exits := []
  longSum := []
  driftLeft := 4096
  carried := []
  slipNow := []
  cap := CapCut.fresh
  irqSent := []
  baseBad := 0
  orderly := false
  stopCkpt := false
  tripped := false
  sync := Sync.fresh
  fab := Fab.fresh
  memPd := []
  idle := 0
  unpwr := 0xFFFFFFFF
  offAt := none
  startAt := 0
  saved := false
  evr := Recorder.fresh
  pemor := Pemor.fresh

/-- The module. -/
structure Dev where
  out : List Out                  -- what has left the module, oldest first
  regs : Store Word               -- BAR0 words, keyed by PF0 offset; unlisted words hold their reset value (R4)
  eff : Store Word                -- settings in force of registers whose writes take effect at a boundary
  latch : Store (Nat × Word)      -- counter latch per page and function (R438), keyed page offset × 65 + function
  mem : Store Byte                -- T1 and T2 of every channel, keyed by device address (R443)
  t0 : Store Byte                 -- scratchpads, keyed core × 2^22 + address (R300)
  cbuf : Store Byte               -- cluster buffers, keyed cluster × 2^25 + address
  chans : Store Chan
  clusters : Store Cluster        -- ch × 8 + cl
  cores : Store Core              -- (ch × 8 + cl) × 8 + co
  tiles : Store Tile              -- tile keys
  ctxs : Store Ctx
  trees : List TreeDesc           -- tree descriptors (R148, R150)
  staged : List Staged            -- T0 copies of pages (R195)
  tamper : List Tamper            -- bytes of page tables and logs that host writes have changed (R193)
  rqt : Store Byte                -- request table entries, keyed (ch × 512 + entry) × 128 + offset (R216, R217)
  seqs : Store Seq                -- ch × 512 + entry
  mems : Store Mem                -- frames of each channel (R194)
  mgts : Store Mgt
  fws : Store Fw                  -- die × 3 + KIND, die 8 the hub
  dlv : Store Dlv                 -- ch × 512 + entry
  hubGroups : List RingGroup      -- groups the hub link carries, oldest first
  time : Nat                      -- the hub's device time, ns
  plank : Nat                     -- the hub's plank number
  ftime : FTime                   -- how device time is steered (R363)
  mgtNs : Nat                     -- time on CLK_MGT since power-on reset, ns
  opSecs : Nat                    -- operating seconds since manufacture (R502)
  porCount : Nat                  -- power-on resets since manufacture
  vinMeter : Meter                -- the VIN meter's samples of this plank (R404, R479)
  vinHist : List Nat              -- VIN power of the last planks, mW, newest first (R27)
  vinLow : Nat                    -- boundaries since the mean last reached 95 % of the cap (R27)
  aux : Bool                      -- VAUX is at or above 3.0 V
  vin : Bool                      -- VIN side powered (R453)
  auxPg : Bool                    -- AUX_PG released high (R522)
  thermtrip : Bool                -- THERMTRIP_N driven low (R522)
  selfOff : Bool                  -- own regulators shut down until power-on reset (R524)
  perstLow : Bool                 -- PERST_N is low
  perstReset : Bool               -- it was asserted while the module ran, and a reset follows its release (R465)
  hubReady : Bool                 -- the hub answers configuration requests (R472)
  numVfs : Nat                    -- VFs enabled under the SR-IOV capability (R447)
  hubHalt : Bool                  -- a hub source acted at HALT (R375)
  slotId : BitVec 6               -- SLOT_ID as sampled (R455)
  ticket : Nat                    -- next index of a free value (the model's own)
deriving DecidableEq, Repr

/-- The state: the commands waiting, first in first out, and the module. -/
structure State where
  pending : List Instr
  m : Dev
deriving DecidableEq, Repr

/-- The module right after power-on reset (R4, R462, R466). -/
def Dev.reset : Dev where
  out := []
  regs := []
  eff := []
  latch := []
  mem := []
  t0 := []
  cbuf := []
  chans := []
  clusters := []
  cores := []
  tiles := []
  ctxs := []
  trees := []
  staged := []
  tamper := []
  rqt := []
  seqs := []
  mems := []
  mgts := []
  fws := []
  dlv := []
  hubGroups := []
  time := 0
  plank := 0
  ftime := FTime.fresh
  mgtNs := 0
  opSecs := 0
  porCount := 1
  vinMeter := Meter.fresh
  vinHist := []
  vinLow := 0
  aux := true
  vin := false
  auxPg := false
  thermtrip := false
  selfOff := false
  perstLow := true
  perstReset := false
  hubReady := false
  numVfs := 0
  hubHalt := false
  slotId := 0
  ticket := 0

def State.reset : State := ⟨[], Dev.reset⟩

end Sys2Proof.Machine
end

