-- ==== Sys2Proof/Machine/Ops.lean ====
section
/-! DEFINITION. The named operations on the module that every family uses: reading and writing register words and memory
bytes, counters (R438 to R440), the parts of State by key, the event recorder (R501 to R505), in-band interrupts (R486), and
raising a fault source with what follows from its severity (R371 to R384, R393). -/

namespace Sys2Proof.Machine

open Sys2Proof

/-! ### Registers -/

/-- Offset in BAR0 of word `o` of a page. -/
def pageOff (k : PageKind) (ch inst o : Nat) : Nat := Page.base ⟨k, ch, inst⟩ + o

def Dev.reg (s : Dev) (a : Nat) : Word := s.regs.get (regReset a) a
def Dev.setReg (s : Dev) (a : Nat) (w : Word) : Dev := { s with regs := s.regs.setD regReset a w }

/-- Word `o` of a page. -/
def Dev.rd (s : Dev) (k : PageKind) (ch inst o : Nat) : Word := s.reg (pageOff k ch inst o)
def Dev.wr (s : Dev) (k : PageKind) (ch inst o : Nat) (w : Word) : Dev := s.setReg (pageOff k ch inst o) w
/-- Field `[hi:lo]` of word `o` of a page. -/
def Dev.rdF (s : Dev) (k : PageKind) (ch inst o hi lo : Nat) : Nat := fld (s.rd k ch inst o) hi lo
def Dev.wrF (s : Dev) (k : PageKind) (ch inst o hi lo v : Nat) : Dev :=
  s.wr k ch inst o (setFld (s.rd k ch inst o) hi lo v)

/-- The setting in force of a register whose writes take effect at a boundary (R63, R105 and others). -/
def Dev.inForce (s : Dev) (k : PageKind) (ch inst o hi lo : Nat) : Nat :=
  let a := pageOff k ch inst o
  fld (s.eff.get (regReset a) a) hi lo

/-- The 64-bit value of a _LO, _HI pair. -/
def Dev.rd64 (s : Dev) (k : PageKind) (ch inst o : Nat) : Nat := (s.rd k ch inst o).toNat + (s.rd k ch inst (o + 4)).toNat * 2 ^ 32
def Dev.wr64 (s : Dev) (k : PageKind) (ch inst o v : Nat) : Dev :=
  (s.wr k ch inst o (BitVec.ofNat 32 v)).wr k ch inst (o + 4) (BitVec.ofNat 32 (v / 2 ^ 32))

/-- Counts a 64-bit counter up by `n`, unless CNT_FREEZE holds the page's counters (R439). -/
def Dev.bump (s : Dev) (k : PageKind) (ch inst o n : Nat) : Dev :=
  if n = 0 ∨ s.rdF k ch inst Off.PG_CTL 0 0 = 1 then s
  else s.wr64 k ch inst o (s.rd64 k ch inst o + n)

/-! ### Parts by key -/

def Dev.chan (s : Dev) (ch : Nat) : Chan := s.chans.get Chan.fresh ch
def Dev.modChan (s : Dev) (ch : Nat) (f : Chan → Chan) : Dev := { s with chans := s.chans.set Chan.fresh ch (f (s.chan ch)) }
def Dev.clus (s : Dev) (c : Nat) : Cluster := s.clusters.get Cluster.fresh c
def Dev.modClus (s : Dev) (c : Nat) (f : Cluster → Cluster) : Dev :=
  { s with clusters := s.clusters.set Cluster.fresh c (f (s.clus c)) }
def Dev.core (s : Dev) (c : Nat) : Core := s.cores.get Core.fresh c
def Dev.modCore (s : Dev) (c : Nat) (f : Core → Core) : Dev := { s with cores := s.cores.set Core.fresh c (f (s.core c)) }
def Dev.tile (s : Dev) (t : Nat) : Tile := s.tiles.get (Tile.reset t) t
def Dev.modTile (s : Dev) (t : Nat) (f : Tile → Tile) : Dev := { s with tiles := s.tiles.setD Tile.reset t (f (s.tile t)) }
def Dev.ctx (s : Dev) (n : Nat) : Ctx := s.ctxs.get Ctx.fresh n
def Dev.modCtx (s : Dev) (n : Nat) (f : Ctx → Ctx) : Dev := { s with ctxs := s.ctxs.set Ctx.fresh n (f (s.ctx n)) }
def Dev.mgt (s : Dev) (t : Nat) : Mgt := s.mgts.get Mgt.fresh t
def Dev.modMgt (s : Dev) (t : Nat) (f : Mgt → Mgt) : Dev := { s with mgts := s.mgts.set Mgt.fresh t (f (s.mgt t)) }
def Dev.seq (s : Dev) (r : Nat) : Seq := s.seqs.get Seq.fresh r
def Dev.modSeq (s : Dev) (r : Nat) (f : Seq → Seq) : Dev := { s with seqs := s.seqs.set Seq.fresh r (f (s.seq r)) }
def Dev.memOf (s : Dev) (ch : Nat) : Mem := s.mems.get Mem.fresh ch
def Dev.modMem (s : Dev) (ch : Nat) (f : Mem → Mem) : Dev := { s with mems := s.mems.set Mem.fresh ch (f (s.memOf ch)) }
def Dev.group (s : Dev) (core g : Nat) : Group := (s.core core).groups.get Group.fresh g
def Dev.modGroup (s : Dev) (core g : Nat) (f : Group → Group) : Dev :=
  s.modCore core fun c => { c with groups := c.groups.set Group.fresh g (f (c.groups.get Group.fresh g)) }
def Dev.dlvOf (s : Dev) (k : Nat) : Dlv := s.dlv.get Dlv.fresh k
def Dev.modDlv (s : Dev) (k : Nat) (f : Dlv → Dlv) : Dev := { s with dlv := s.dlv.set Dlv.fresh k (f (s.dlvOf k)) }

/-- Whether a write or message of a function does not leave the module: the function is in D3hot, or its context is being cleaned
(R432, R449). -/
def Dev.muted (s : Dev) : Out → Bool
  | .hostWrite fn _ _ | .hostCopy fn _ _ _ | .msix fn _ => let c := s.ctx fn; c.d3 || c.dmaOff
  | _ => false
/-- Puts one thing on an interface of the module. -/
def Dev.emit (s : Dev) (o : Out) : Dev := if s.muted o then s else { s with out := s.out ++ [o] }
def Dev.emits (s : Dev) (os : List Out) : Dev := { s with out := s.out ++ os.filter fun o => !s.muted o }

/-! ### Memory -/

/-- Byte of T1 or T2 at a device address (R443); unlisted bytes are 0 (R471, R475). -/
def Dev.byte (s : Dev) (a : Nat) : Byte := s.mem.get 0 a
def Dev.setByte (s : Dev) (a : Nat) (b : Byte) : Dev := { s with mem := s.mem.set 0 a b }
def Dev.bytes (s : Dev) (a n : Nat) : List Byte := (List.range n).map fun i => s.byte (a + i)
def Dev.setBytes (s : Dev) (a : Nat) : List Byte → Dev
  | [] => s
  | b :: bs => (s.setByte a b).setBytes (a + 1) bs
/-- `n` little-endian bytes at `a`. -/
def Dev.peek (s : Dev) (a n : Nat) : Nat := ofBytes (s.bytes a n)
/-- Writes zeros over `n` bytes from `a`. -/
def Dev.zero (s : Dev) (a n : Nat) : Dev := { s with mem := s.mem.drop a (a + n) }

/-- First device address of T1 (`tier` 1) or T2 (`tier` 2) of a channel (R350, R443): CH in bits 48:46, TIER in 45:44, which is 0 for T1
and 1 for T2. -/
def tierBase (ch tier : Nat) : Nat := ch * 2 ^ 46 + (tier - 1) * 2 ^ 44

/-- A byte of host memory. -/
def hostByte (h : HostView) (a : Nat) : Byte := Store.get 0 a h
def hostPeek (h : HostView) (a n : Nat) : Nat := ofBytes ((List.range n).map fun i => hostByte h (a + i))

/-! ### The plank (R14, R18) -/

/-- The plank period in force, in ns, and the fill target in force, in percent (R14, R18, R250). -/
def Dev.periodNs (s : Dev) : Nat := s.rdF .plk 0 0 Off.PLK_STA 15 8 * 1000
def Dev.fillPct (s : Dev) : Nat := s.rdF .plk 0 0 Off.PLK_STA 22 16
/-- The work window: the plank without its boundary time of 1.6 µs (R18). -/
def Dev.workWindow (s : Dev) : Nat := s.periodNs - 1600
/-- The share of a work window that the plan fills, in ns (R18). -/
def Dev.shareNs (s : Dev) : Nat := s.workWindow * s.fillPct / 100

/-! ### Channel states -/

/-- FLT_STA.STATE: 0 NORMAL, 1 CONTAINED, 2 HALTED (R396). -/
def Dev.fltState (s : Dev) (ch : Nat) : Nat := s.rdF .fltCh ch 0 Off.FLT_STA 1 0
/-- PWR_CH_STA.CSTATE: 0 C0, 1 C1, 2 C2 (R480). -/
def Dev.cstate (s : Dev) (ch : Nat) : Nat := s.rdF .pwrCh ch 0 Off.PWR_CH_STA 1 0
def Dev.chReady (s : Dev) (ch : Nat) : Bool := s.rdF .pwrCh ch 0 Off.PWR_CH_STA 2 2 = 1
def Dev.chInit (s : Dev) (ch : Nat) : Bool := s.rdF .pwrCh ch 0 Off.PWR_CH_STA 3 3 = 1
/-- Whether a channel takes no access of the hub: its hub link is down, it is in C2, or it is in a reset (R446, R459). -/
def Dev.chClosed (s : Dev) (ch : Nat) : Bool := !(s.chan ch).linkUp || s.cstate ch = 2 || (s.chan ch).inReset
/-- Whether the channel performs the boundary steps of R16: powered, ready, NORMAL and not in the safe state (R379, R459, R465, R474). -/
def Dev.serves (s : Dev) (ch : Nat) : Bool :=
  s.vin && s.fltState ch = 0 && s.rdF .fltCh ch 0 Off.FLT_STA 2 2 = 0 && s.cstate ch ≠ 2 && s.chReady ch

/-! ### The event recorder -/

/-- CLK_MGT time in ms. -/
def Dev.mgtMs (s : Dev) : Nat := s.mgtNs / 1000000
/-- Calendar time of a controller, in ms (R502). -/
def Dev.calendar (s : Dev) (t : Nat) : Nat := (s.mgt t).calBase + (s.mgtMs - (s.mgt t).calAt)

/-- CRC-16, polynomial 0x1021, initial value 0xFFFF (R487, R501). -/
def crc16 (bs : List Byte) : Nat :=
  bs.foldl (fun c b =>
    (List.range 8).foldl (fun c _ => if c ≥ 0x8000 then (c * 2 % 0x10000) ^^^ 0x1021 else c * 2)
      (c ^^^ (b.toNat * 256))) 0xFFFF

/-- An event to record: code, originator, collector index or 127, cluster or 8, PRIV, FORCED, and DATA (R501, R503). -/
structure Ev where
  code : Nat
  orig : Nat
  ix : Nat
  cl : Nat
  priv : Bool
  forced : Bool
  data : List Nat
deriving DecidableEq, Repr

/-- A plain event of an originator. -/
def Ev.plain (code orig : Nat) (priv : Bool) (data : List Nat) : Ev := ⟨code, orig, 127, 8, priv, false, data⟩

/-- Merges an event into a target's pending in-band interrupt: the kind of higher priority, the newer values of an equal kind
(R486). -/
def ibiMerge (old : Option (Nat × Nat × Nat × Nat)) (new : Nat × Nat × Nat × Nat) : Nat × Nat × Nat × Nat :=
  match old with
  | none => new
  | some o => if o.1 < new.1 then o else new

/-- Makes an event the pending in-band interrupt of a target, or merges it into the one that is pending. -/
def Dev.postIbi (s : Dev) (t : Nat) (e : Nat × Nat × Nat × Nat) : Dev :=
  let m := s.mgt t
  let p := ibiMerge m.ibi e
  let s := s.modMgt t fun m => { m with ibi := some p }
  if m.ibi.isNone then s.emit (.ibi t p.1 p.2.1 p.2.2.1 p.2.2.2) else s

/-- An event of a target: the summary takes it, and with interrupts enabled an in-band interrupt is raised (R485, R486). -/
def Dev.raiseIbi (s : Dev) (t kind state cause seq : Nat) : Dev :=
  let e := (kind, state, cause, seq % 256)
  let s := s.modMgt t fun m => { m with evs := (m.evs.filter fun x => x.1 ≠ kind) ++ [e] }
  let m := s.mgt t
  if m.ibiEn && !m.restarting && m.acks && m.da.isSome then s.postIbi t e else s

/-- A value below `n` that the spec leaves open: a free value, by the ticket that this draw takes. -/
def Dev.draw (s : Dev) (n : Nat) : Dev × Nat := ({ s with ticket := s.ticket + 1 }, Config.freeValue s.ticket % n)

/-- An event that no record marks: the sequence byte of its in-band interrupt is open (R485). -/
def Dev.raiseIbiBare (s : Dev) (t kind state cause : Nat) : Dev :=
  let d := s.draw 256
  d.1.raiseIbi t kind state cause d.2

/-- Low byte of the sequence number of a channel's newest record. -/
def Dev.lastSeq (s : Dev) (ch : Nat) : Nat := (s.chan ch).evr.next - 1

/-- Writes an event record with the next SEQ, taking a token of its code (R501 to R503). -/
def Dev.writeRec (s : Dev) (ch : Nat) (e : Ev) : Dev :=
  let r := (s.chan ch).evr
  let time := if e.priv then s.calendar ch else s.opSecs % 2 ^ 32 + s.porCount * 2 ^ 32
  let flags := e.priv.toNat + (s.mgt ch).tset.toNat * 2 + e.forced.toNat * 4 + e.priv.toNat * 8
  let rc : EvRec := ⟨r.next % 2 ^ 48, e.code, e.orig + e.ix * 16 + e.cl * 2048, flags, time % 2 ^ 64,
    min 65535 (r.supp.get 0 e.code), (e.data.map (BitVec.ofNat 8)).take 8⟩
  let s := s.modChan ch fun c => { c with evr := { r with
    recs := r.recs.set none (r.next % 8192) (some rc)
    next := r.next + 1
    oldest := max r.oldest (r.next + 1 - 8192)
    used := r.used.set 0 e.code (r.used.get 0 e.code + 1)
    supp := r.supp.set 0 e.code 0 } }
  let s := s.bump .evrCh ch 0 Off.EVR_REC 1
  -- SECURITY interrupt for a privileged firmware or security record (R485)
  if e.priv && 0x300 ≤ e.code && e.code ≤ 0x312 then s.raiseIbi ch 5 0 (e.code % 256) r.next else s

/-- Writes an event record if its code has a token; otherwise it is counted as suppressed (R504). -/
def Dev.record (s : Dev) (ch : Nat) (e : Ev) : Dev :=
  let r := (s.chan ch).evr
  if r.used.get 0 e.code < max 1 (s.rdF .evrCh ch 0 Off.EVR_CTL 15 8) then s.writeRec ch e
  else
    let s := s.modChan ch fun c => { c with evr := { r with supp := r.supp.set 0 e.code (r.supp.get 0 e.code + 1) } }
    s.bump .evrCh ch 0 Off.EVR_SUPP 1

/-! ### Collector indexes -/

/-- The page and source of a collector index (R371). -/
def collector (ix : Nat) : PageKind × Nat :=
  if ix < 8 then (.fltCh, ix) else if ix < 14 then (.arrCh, ix - 8) else if ix < 22 then (.corCh, ix - 14)
  else if ix < 26 then (.fulCh, ix - 22) else if ix < 31 then (.accCh, ix - 26) else if ix < 36 then (.attCh, ix - 31)
  else if ix < 42 then (.kvpCh, ix - 36) else if ix < 45 then (.rqtCh, ix - 42) else if ix < 51 then (.ldrCh, ix - 45)
  else if ix < 55 then (.plcCh, ix - 51) else if ix < 61 then (.spdCh, ix - 55) else if ix < 67 then (.synCh, ix - 61)
  else if ix < 76 then (.evfCh, ix - 67) else if ix < 80 then (.monCh, ix - 76) else if ix < 86 then (.thmCh, ix - 80)
  else if ix < 90 then (.bkgCh, ix - 86) else if ix < 92 then (.mgtCh, ix - 90) else if ix < 94 then (.secCh, ix - 92)
  else (.pwrCh, ix - 94)

/-- First collector index of a page's sources (R371). -/
def PageKind.collBase : PageKind → Option Nat
  | .fltCh => some 0 | .arrCh => some 8 | .corCh => some 14 | .fulCh => some 22 | .accCh => some 26 | .attCh => some 31
  | .kvpCh => some 36 | .rqtCh => some 42 | .ldrCh => some 45 | .plcCh => some 51 | .spdCh => some 55 | .synCh => some 61
  | .evfCh => some 67 | .monCh => some 76 | .thmCh => some 80 | .bkgCh => some 86 | .mgtCh => some 90 | .secCh => some 92
  | .pwrCh => some 94
  | _ => none

/-- Sources whose severity is fixed: FLT_PARITY, THM_SHUTDOWN, THERMTRIP and INIT_FAIL act at HALT (R374, R417, R478). -/
def fixedHalt (ix : Nat) : Bool := ix = 0 || ix = 84 || ix = 85 || ix = 95

end Sys2Proof.Machine
end

