-- ==== Sys2Proof/Machine/Faults.lean ====
section
/-! DEFINITION. Raising a fault source and what follows from its severity: counting and recording (R372 to R374), the redundant
actions of DEGRADE (R376, R377), entry to CONTAINED and HALTED (R378, R384), and the notices (R393). -/

namespace Sys2Proof.Machine
open Sys2Proof

/-! ### Redundant actions on tiles (R58, R62, R104, R278) -/

/-- Spares that work under a tile's index. -/
def Dev.sparesOf (s : Dev) (k : Nat) : List Nat :=
  ((List.range 4).map fun i => tileCl k * 132 + 128 + i).filter fun sp =>
    (s.tile sp).role = .standin k || (s.tile sp).role = .adopted k || (s.tile sp).role = .shadowing k

/-- Index under which a tile works: a spare's is that of the tile it replaces (R57). -/
def Dev.statusIx (s : Dev) (k : Nat) : Nat :=
  if isSpare k then match (s.tile k).role with | .adopted t | .standin t | .shadowing t => t | .none => k else k

/-- A tile enters RETIRED for good. It keeps the list of its slices until a spare has adopted them; its levels are of no more use. -/
def Dev.retireNow (s : Dev) (k : Nat) : Dev :=
  s.modTile k fun t => { t with state := .retired, next := none, prog := none, mvms := [], carried := [], missed := [], loc := none, refreshDue := none }

/-- Retires a tile: at once when no work is issued to it, else at a boundary free of carried work (R22, R58). -/
def Dev.retireTile (s : Dev) (k : Nat) : Dev :=
  let t := s.tile k
  if t.mvms.isEmpty && t.carried.isEmpty && t.missed.isEmpty then s.retireNow k
  else s.modTile k fun t => { t with next := some .retired, prog := none, loc := none, refreshDue := none }

/-- The spare of the tile's cluster that has the given role, if any (R57, R65). -/
def Dev.spareWith (s : Dev) (cl : Nat) (p : SpareRole → Bool) : Option Nat :=
  ((List.range 4).map fun i => cl * 132 + 128 + i).find? fun k => p (s.tile k).role

/-- A spare takes a tile's place for good: one that serves or holds a verified copy at once, another when it has verified. -/
def Dev.adoptSpare (s : Dev) (k sp : Nat) : Dev :=
  let t := s.tile sp
  if t.state = .ready then (s.modTile sp fun t => { t with role := .adopted k }).bump .plcCh (tileCh k) 0 Off.PLC_ADOPT 1
  else if t.state = .shadow then
    (s.modTile sp fun t => { t with role := .adopted k, next := some .ready }).bump .plcCh (tileCh k) 0 Off.PLC_ADOPT 1
  else s.modTile sp fun t => { t with role := .adopted k, prog := some .adopt }

/-- Retires a tile under a DEGRADE source: the spare that stands in for it, or else the one that shadows it, is adopted in its place; with
neither, Scaes adopts a free one (R103, R104, R288). -/
def Dev.retireAdopt (s : Dev) (k : Nat) : Dev :=
  let sp (p : SpareRole → Bool) : Option Nat :=
    ((List.range 4).map fun i => tileCl k * 132 + 128 + i).find? fun x => p (s.tile x).role && (s.tile x).state ≠ .retired
  let s' := s.retireTile k
  match sp (· = .standin k) with
  | some x => s'.adoptSpare k x
  | none =>
    match sp (· = .shadowing k) with
    | some x => (s'.adoptSpare k x).modClus (tileCl k) fun c => { c with shadow := { c.shadow with valid := false } }
    | none => s'

/-- Spare pairs 2,048 to 2,111 not yet used whose converter is not `conv` (R29, R62). -/
def freePairs (t : Tile) (conv : Nat) : List Nat :=
  ((List.range 64).map (2048 + ·)).filter fun p => !(t.colMap.any fun e => e.2 = p) && p / 4 ≠ conv && t.pairsUsed ≤ p - 2048

/-- Logical columns of a tile's slices that a converter serves under the column map. -/
def convColumns (t : Tile) (conv : Nat) : List Nat :=
  (List.range 2048).filter fun j =>
    Store.get j j t.colMap / 4 = conv && t.slices.any fun sl => sl.colO ≤ j && j < sl.colO + sl.colN

/-- Moves the columns of a stuck converter to spare pairs of other converters; retires the tile when too few are left (R62, R423). -/
def Dev.remapConverter (s : Dev) (k conv : Nat) : Dev :=
  let t := s.tile k
  let cols := convColumns t conv
  let free := freePairs t conv
  if cols.length ≤ free.length then
    s.modTile k fun t => { t with colJobs := t.colJobs ++ (cols.zip free).map fun e => (e.1, some e.2),
                                  pairsUsed := t.pairsUsed + cols.length }
  else s.retireAdopt k

/-- The key of the tile a fault names. -/
def fltTile (ch : Nat) : FltAt → Option Nat
  | .tile cl t => some ((ch * 8 + cl.val) * 132 + t.val)
  | .conv cl t _ => some ((ch * 8 + cl.val) * 132 + t.val)
  | _ => none

/-- The redundant action of a source set to DEGRADE; none where its chapter names none (R62, R104, R278, R376, R377). A source
that names no instance acts on none. -/
def Dev.degradeTiles (s : Dev) (ch ix : Nat) (at_ : FltAt) : Option Dev :=
  match fltTile ch at_ with
  | none => some s
  | some k =>
    if ix = 8 then (match at_ with | .conv _ _ c => some (s.remapConverter k c.val) | _ => some (s.retireAdopt k))
    else if ix = 11 then
      -- the tile is programmed again from the pattern; a shadow copy as the copy it is
      some (s.modTile k fun t => if t.state = .ready || t.state = .blocking || t.state = .shadow then
        { t with next := some .programming, prog := some (if t.state = .shadow then .shadow else .load),
                 slices := t.slices.map fun sl => { sl with verified := false, massCrc := none } } else t)
    else some (s.retireAdopt k)

/-- The cluster a fault names. -/
def fltCluster (ch : Nat) : FltAt → Option Nat
  | .tile cl _ => some (ch * 8 + cl.val)
  | .conv cl _ _ => some (ch * 8 + cl.val)
  | _ => none

/-- The DEGRADE action of MON_REF and MON_STALL: the cluster's diodes count as broken and its fast meter corrections freeze (R424). -/
def Dev.distrustMonitor (s : Dev) (cl : Nat) : Dev :=
  let s := s.modClus cl fun c => { c with therm := { c.therm with frozen := true } }
  s.wrF .thmCh (cl / 8) 0 Off.THM_SBAD (4 * (cl % 8) + 3) (4 * (cl % 8)) 15

/-- A blocking run falls due for a core; with the first of a cluster's, the cluster's spares too (R419). -/
def Dev.bkgDue (s : Dev) (c : Nat) : Dev :=
  let busy (i : Nat) : Bool := let b := (s.core (c / 8 * 8 + i)).bkg; b.due.isSome || b.running.isSome
  let s := if (List.range 8).any busy then s
    else (List.range 4).foldl (fun s i => s.modTile (c / 8 * 132 + 128 + i) fun t => { t with calDue := true }) s
  s.modCore c fun x => { x with bkg := { x.bkg with due := if x.bkg.due.isSome then x.bkg.due else some (s.chan (c / 64)).time } }

/-- A tile that works with the values of a table. -/
def useTable (c : CalTable) (t : Tile) : Tile :=
  { t with calB := c.b, calO := c.o, calR := c.r, vConv := c.vConv, vCell := c.vCell, rowG := c.rowG, rowO := c.rowO, taps := c.taps, thr := c.thr }

/-- The table a tile works with. -/
def tableOf (t : Tile) : CalTable := ⟨t.calB, t.calO, t.calR, t.vConv, t.vCell, t.rowG, t.rowO, t.taps, t.thr⟩

/-- A new table is written into the copy that does not hold the newest valid one (R418). -/
def sealTable (t : Tile) : Tile :=
  if t.newB then { t with copyA := some (tableOf t), newB := false } else { t with copyB := some (tableOf t), newB := true }

/-- The copy that serves when the newest one fails its check (R418). -/
def otherCopy (t : Tile) : Option CalTable := if t.newB then t.copyA else t.copyB

/-- The newest copy fails its check: the other one is used, or the factory base values where it has failed too (R418). -/
def copyFails (t : Tile) : Tile :=
  useTable ((otherCopy t).getD CalTable.base)
    (if t.newB then { t with copyB := none, newB := false } else { t with copyA := none, newB := t.copyB.isSome })

/-- A copy of a tile's current table fails its check; where both have, a run falls due at once for its core: for a spare the core it serves,
or core 0 of its cluster (R418, R419). -/
def Dev.calCrc (s : Dev) (k : Nat) : Dev :=
  let t := s.tile k
  let s := s.modTile k copyFails
  if (otherCopy t).isSome then s
  else
    let s := s.modTile k fun t => { t with calDue := isSpare k }
    s.bkgDue (match t.role with | .adopted x => tileCore x | .standin x => tileCore x | _ => if isSpare k then tileCl k * 8 else tileCore k)

/-- A copy of the channel's factory base table fails its check (R418). -/
def Dev.baseFails (s : Dev) (ch : Nat) : Dev := s.modChan ch fun c => { c with baseBad := c.baseBad + 1 }

/-- What a check of the calibration store finds, before CAL_CRC acts: a tile's table, or the factory base table where no tile is named
(DESIGN CHOICE: the raise carries no other sign of the table). -/
def Dev.storeFails (s : Dev) (ch : Nat) (at_ : FltAt) : Dev :=
  match fltTile ch at_ with | some k => s.calCrc k | none => s.baseFails ch

/-- The redundant action of a source whose severity is DEGRADE, or none where its chapter names none (R376, R377). -/
def Dev.degrade (s : Dev) (ch ix : Nat) (at_ : FltAt) : Option Dev :=
  if [8, 9, 11, 15, 16, 17, 46, 48].contains ix then s.degradeTiles ch ix at_
  else if ix = 78 ∨ ix = 79 then some (match fltCluster ch at_ with | some cl => s.distrustMonitor cl | none => s)
  else if ix = 87 then some s      -- the other copy is in use already (R418)
  else if ix = 88 then some (match at_ with
    | .conv _ _ c => (match fltTile ch at_ with | some k => s.remapConverter k c.val | none => s)
    | .tile _ _ => (match fltTile ch at_ with | some k => s.retireAdopt k | none => s)
    | _ => s)
  else if ix = 68 then some s      -- a port that is not UP is left out of routing already (R346)
  else none

/-! ### Entry to the safe state -/

/-- A tile whose channel enters the safe state: its MVMs are abandoned; programming stops, and the slices not yet verified are marked so,
from the first of which the carder restarts (R60). -/
def stopTile (k plank : Nat) (t : Tile) : Tile :=
  let t := { t with mvms := [], reread := [], missed := [], carried := [] }
  if t.state = .programming && t.prog ≠ some .column then
    { t with slices := t.slices.zipIdx.map fun e => { e.1 with verified := e.1.verified || decide (e.2 < Config.slicesVerified k plank) } }
  else t

/-- What entry to CONTAINED or HALTED does to the engines of a channel: MVMs and programming in progress are abandoned, groups
return to FREE (R60, R142, R378 step 5). -/
def Dev.stopArray (s : Dev) (ch : Nat) : Dev :=
  { s with
    tiles := s.tiles.mapV' Tile.reset fun k t => if tileCh k = ch then stopTile k (s.chan ch).plank t else t
    cores := s.cores.mapV Core.fresh fun c x => if c / 64 = ch then
      { x with execs := [], nodes := [], dae := none, groups := x.groups.mapV Group.fresh fun _ g =>
          { g with state := .free, leaves := [], result := [] } } else x
    clusters := s.clusters.mapV Cluster.fresh fun c x => if c / 8 = ch then { x with pae := Pae.fresh } else x }

/-- Everything entry to the safe state stops in a channel (R378 steps 3 to 6). -/
def Dev.safeState (s : Dev) (ch : Nat) : Dev :=
  let s := s.stopArray ch
  -- the hub discards the groups it holds incomplete (R385)
  { s with hubGroups := s.hubGroups.filter fun g => g.seq.ch.val ≠ ch || g.complete }

/-- The notices of a fault state change (R393): interrupt, HELLO on every UP port, MSI-X and a privileged record. -/
def Dev.fltNotice (s : Dev) (ch : Nat) : Dev :=
  let st := s.fltState ch
  let cause := s.rdF .fltCh ch 0 Off.FLT_STA 10 4
  let s := s.record ch (Ev.plain 0x100 0 true [st, cause])
  let s := if s.rdF .fltCh ch 0 Off.FLT_CTL 21 21 = 1 then s.raiseIbi ch 1 st cause (s.lastSeq ch) else s
  if s.rdF .fltCh ch 0 Off.FLT_CTL 20 20 = 1 then s.emit (.msix 0 (s.rdF .fltMod 0 0 Off.FLT_MOD_CFG 10 0)) else s

/-- Writes FLT_STA for an entry and latches its device time (R378 step 2, R396). -/
def Dev.enterFlt (s : Dev) (ch st cause : Nat) (forced : Bool) : Dev :=
  let w := s.rd .fltCh ch 0 Off.FLT_STA
  let w := setFld (setFld (setFld (setFld w 1 0 st) 2 2 1) 3 3 forced.toNat) 10 4 cause
  (s.wr .fltCh ch 0 Off.FLT_STA w).wr64 .fltCh ch 0 Off.FLT_TENTER (s.chan ch).time

/-- Starts, or restarts, the quiet period (R376, R381). -/
def Dev.startQuiet (s : Dev) (ch : Nat) : Dev :=
  s.modChan ch fun c => { c with quietEnd := s.mgtNs + max 1 (s.rdF .fltCh ch 0 Off.FLT_CTL 15 0) * 1000000, quietDone := false }

/-- Entry to CONTAINED; a channel already CONTAINED restarts its quiet period, and a HALTED one stays so (R376, R378). -/
def Dev.contain (s : Dev) (ch cause : Nat) (forced : Bool) : Dev :=
  match s.fltState ch with
  | 0 =>
    let s := (s.enterFlt ch 1 cause forced).startQuiet ch
    let s := (s.bump .fltCh ch 0 Off.FLT_CONTAIN 1).safeState ch
    (s.modChan ch fun c => { c with safeDue := true, noticeDue := true }).fltNotice ch
  | 1 =>
    -- a running quiet period keeps the length with which it started; a restart takes the one in force (R396)
    s.startQuiet ch
  | _ => s

/-- Entry to HALTED from any other state (R376, R384). -/
def Dev.halt (s : Dev) (ch cause : Nat) (forced : Bool) : Dev :=
  if s.fltState ch = 2 then s
  else
    let s := s.enterFlt ch 2 cause forced
    let s := (s.bump .fltMod 0 0 Off.FLT_MOD_HALT 1).safeState ch
    let s := s.modChan ch fun c => { c with quietDone := false, deferred := [], safeDue := true, haltDue := true, noticeDue := true }
    s.fltNotice ch

/-- Acts on a source at a severity (R376, R377). -/
def Dev.actSev (s : Dev) (ch ix sev : Nat) (forced : Bool) (at_ : FltAt) : Dev :=
  match sev with
  | 0 => s
  | 1 =>
    match s.degrade ch ix at_ with
    | none => s.contain ch ix forced
    | some s' => if s.fltState ch = 1 then s.modChan ch fun c => { c with deferred := c.deferred ++ [(ix, at_)] } else s'
  | 2 => s.contain ch ix forced
  | _ => s.halt ch ix forced

/-- The severity of a source that is raised now: PG_SEV0, or the higher of both when its sticky bit is set (R373, R374). -/
def Dev.sevOf (s : Dev) (ch ix : Nat) : Nat :=
  let (k, n) := collector ix
  if fixedHalt ix then 3
  else
    let s0 := s.rdF k ch 0 Off.PG_SEV0 (2 * n + 1) (2 * n)
    if bit (s.rd k ch 0 Off.PG_FLT) n then max s0 (s.rdF k ch 0 Off.PG_SEV1 (2 * n + 1) (2 * n)) else s0

/-- The tile a raise names shows it in ARR_TSTA.FLT, a spare under the index it serves (R57, R62); TRANS_ROWCONV ends its transpose reads
(R56). -/
def Dev.markTile (s : Dev) (ch ix : Nat) (at_ : FltAt) : Dev :=
  if 8 ≤ ix ∧ ix < 14 then
    match fltTile ch at_ with
    | some k =>
      let s := if ix = 13 then s.modTile k fun t => { t with transBad := true } else s
      let x := s.statusIx k
      if isSpare x then s else s.wrF .arr ch (tileCore x % 64) (Off.ARR_TSTA + 4 * (x % 132 % 16)) 5 5 1
    | none => s
  else s

/-- Counts and records a raise: sticky bit, PG_CNT, and the event record of its code (R373). -/
def Dev.noteRaise (s : Dev) (ch ix : Nat) (forced : Bool) (at_ : FltAt) (data : List Nat) : Dev :=
  let (k, n) := collector ix
  let cl := match at_ with | .tile c _ => c.val | .conv c _ _ => c.val | _ => 8
  let s := s.wr k ch 0 Off.PG_FLT (setBit (s.rd k ch 0 Off.PG_FLT) n true)
  let s := s.wr k ch 0 Off.PG_CNT (BitVec.ofNat 32 (satAdd 0xFFFFFFFF (s.rd k ch 0 Off.PG_CNT).toNat 1))
  (s.markTile ch ix at_).record ch ⟨1 + ix, 0, ix, cl, false, forced, data⟩

/-- Raises fault source `ix` of a channel (R373). -/
def Dev.raiseAt (s : Dev) (ch ix : Nat) (forced : Bool) (at_ : FltAt) (data : List Nat) : Dev :=
  let (k, n) := collector ix
  if ix ≥ 96 ∨ k.nsrc ≤ n then s      -- indexes not used by a page are never raised (R371)
  else
    let sev := s.sevOf ch ix
    (s.noteRaise ch ix forced at_ data).actSev ch ix sev forced at_

/-- Raises a source as hardware does, without an instance. -/
def Dev.raise (s : Dev) (ch ix : Nat) : Dev := s.raiseAt ch ix false .none []
/-- Raises a source that names a tile, by its key. -/
def Dev.raiseTile (s : Dev) (ix k : Nat) : Dev :=
  s.raiseAt (tileCh k) ix false (.tile (Fin.ofNat 8 (tileCl k % 8)) (Fin.ofNat 132 (k % 132))) []

/-- Raises a source of the hub, which acts at RECORD or HALT only (R375). -/
def Dev.hubRaise (s : Dev) (n : Nat) : Dev :=
  let s0 := s.rdF .hub 0 0 Off.PG_SEV0 (2 * n + 1) (2 * n)
  let rep := bit (s.rd .hub 0 0 Off.PG_FLT) n
  let sev := if rep then max s0 (s.rdF .hub 0 0 Off.PG_SEV1 (2 * n + 1) (2 * n)) else s0
  let s := s.wr .hub 0 0 Off.PG_FLT (setBit (s.rd .hub 0 0 Off.PG_FLT) n true)
  let s := s.wr .hub 0 0 Off.PG_CNT (BitVec.ofNat 32 (satAdd 0xFFFFFFFF (s.rd .hub 0 0 Off.PG_CNT).toNat 1))
  if sev = 3 then { s with hubHalt := true } else s

end Sys2Proof.Machine
end

