-- ==== Sys2Proof/Machine/Reduce.lean ====
section
/-! DEFINITION. Reduction trees above core level: tree descriptors (R148, R150), nodes and their values (R147, R149, R154 to R156, R159), and the
way of a value from a core to its module's root (R148). -/

namespace Sys2Proof.Machine
open Sys2Proof

/-- Channel of a core index, and the core's instance within its channel. -/
def coreCh (c : Nat) : Nat := c / 64
def coreIn (c : Nat) : Nat := c % 64

/-- Elementwise FP32 addition of two vectors. -/
def vadd (a b : List F32) : List F32 := List.zipWith F32.add a b

/-- The layer a step meets: the new pattern's once the wave has switched it, else the loaded pattern's (R268). -/
def Dev.layerOf (s : Dev) (ctx l : Nat) : Option Layer :=
  let c := s.ctx ctx
  match c.newPat.bind (·.layers[l]?) with
  | some n => if n.switched then some n else c.pat.bind (·.layers[l]?)
  | none => c.pat.bind (·.layers[l]?)

/-! ### Tree descriptors (R148, R150) -/

/-- The check word of a tree descriptor: CRC-32 over its fields (the order of the fields is a DESIGN CHOICE). -/
def treeCrc (d : TreeDesc) : Word :=
  crc32 (toBytes 2 d.ctx ++ toBytes 4 d.layer ++ toBytes 1 d.transpose.toNat ++ toBytes 4 d.first ++ (d.tiles.map (toBytes 4)).flatten)
/-- Whether the check word of a descriptor holds. -/
def descOk (d : TreeDesc) : Bool := decide (d.crc = treeCrc d)

/-- First column, or row, of a block's reduction. -/
def redFirst (transpose : Bool) (b : Block) : Nat := if transpose then b.row0 else b.col0

/-- Tile indexes that take part in a reduction of a layer, in order; the two tiles of a duplicated pair make one leaf (R143, R148). -/
def redTiles (l : Layer) (transpose : Bool) (first : Nat) : List Nat :=
  sortBy (fun a b => decide (a ≤ b)) ((l.blocks.filter fun b => redFirst transpose b = first).filterMap fun b => b.tiles.min?)

/-- The descriptors that a layer's placement makes (R148). -/
def layerTrees (ctx li : Nat) (l : Layer) : List TreeDesc :=
  [false, true].flatMap fun t => ((l.blocks.map (redFirst t)).eraseDups).map fun f =>
    let d : TreeDesc := ⟨ctx, li, t, f, redTiles l t f, 0⟩
    { d with crc := treeCrc d }

/-- The descriptor of a reduction. -/
def Dev.treeOf (s : Dev) (ctx layer : Nat) (transpose : Bool) (first : Nat) : Option TreeDesc :=
  s.trees.find? fun d => d.ctx = ctx && d.layer = layer && d.transpose = transpose && d.first = first

/-- Cores that take part in a reduction, in order. -/
def descCores (d : TreeDesc) : List Nat := (d.tiles.map tileCore).eraseDups

/-- Cores whose vector engines hold the parts of a vector that a top-k of a layer takes: those that hold the roots of that layer's reductions, or
of the layer with weights before it (R148, R156). -/
def Dev.topkCores (s : Dev) (ctx layer : Nat) : List Nat :=
  let ds := s.trees.filter fun d => d.ctx = ctx && !d.transpose && !d.tiles.isEmpty && decide (d.layer ≤ layer)
  let li := (ds.map (·.layer)).foldl max 0
  (sortBy (fun a b => decide (a ≤ b)) ((ds.filter fun d => d.layer = li).filterMap fun d => d.tiles.head?.map tileCore)).eraseDups

/-- The cores that take part in what a node reduces, unless a descriptor that names them fails its check. -/
def Dev.keyCores (s : Dev) (key : NodeKey) : Option (List Nat) :=
  match key with
  | .sum _ ctx layer t f _ => match s.treeOf ctx layer t f with
    | some d => if descOk d then some (descCores d) else none
    | none => some []
  | .topk _ ctx layer _ =>
    if s.trees.any fun d => d.ctx = ctx && decide (d.layer ≤ layer) && !descOk d then none else some (s.topkCores ctx layer)
  | _ => some []

/-- Context of a reduction, where its key names one; an attention node's is that of its sequence. -/
def keyCtx : NodeKey → Option Nat
  | .sum _ c .. | .topk _ c .. | .cast c _ => some c
  | .attn .. => none

/-! ### Values and nodes (R147, R149, R154 to R156) -/

/-- Whether counts exceed the bounded limits of R154: 32 leaves and 65,536 contributions for ARR, 2^20 otherwise. -/
def overLong (arr : Bool) (len npart : Nat) : Bool := if arr then npart > 32 || len > 65536 else len > 2 ^ 20

/-- Whether a sum's counts exceed the limits. -/
def valLong : LeafVal → Bool
  | .sum arr _ len npart => overLong arr len npart
  | _ => false

/-- LEN and NPART of two values added: they saturate (R144). -/
def lenAdd (a b : Nat) : Nat := satAdd (2 ^ 21 - 1) a b
def npartAdd (a b : Nat) : Nat := satAdd 127 a b

/-- A list of k entries: what it holds, then surplus entries −∞ at position 0xFFFF_FFFF (R155). -/
def topkVal (k : Nat) (es : List (F32 × Word)) : LeafVal :=
  let es := es.take k
  .topk k (es ++ List.replicate (k - es.length) (F32.ninf, 0xFFFFFFFF#32)) es.length

/-- The top k of a vector engine's own part, whose first element has position `base` (R156). -/
def localTop (k base : Nat) (xs : List F32) : LeafVal :=
  topkVal k (topkMerge k ((xs.zipIdx).map fun e => (e.1, BitVec.ofNat 32 (base + e.2))) [])

/-- A value on its way up a tree, and the nodes that first exceeded a limit. -/
structure Merged where
  v : LeafVal
  unb : Nat
deriving DecidableEq, Repr

/-- A tree node's two children: sums are added with their counts (R144, R149), top-k lists merged (R156). -/
def mergeVal (a b : Merged) : Merged :=
  let r : LeafVal := match a.v, b.v with
    | .sum arr x l n, .sum arr' y l' n' => .sum (arr && arr') (vadd x y) (lenAdd l l') (npartAdd n n')
    | .topk k x n, .topk _ y n' => topkVal k (topkMerge k (x.take n) (y.take n'))
    | x, _ => x
  ⟨r, a.unb + b.unb + (valLong r && !valLong a.v && !valLong b.v : Bool).toNat⟩

/-- Marks a sum above core level beyond the limits: LONG_SUM once per layer per drift interval (R154, R159). -/
def Dev.markLong (s : Dev) (ch ctx layer n : Nat) : Dev :=
  if n = 0 then s
  else
    let s := (s.wrF .accCh ch 0 Off.ACC_CH_STA 0 0 1).bump .accCh ch 0 Off.ACC_XUNB n
    let key := ctx * 65536 + layer
    if s.inForce .accCh ch 0 Off.ACC_CTL 0 0 = 1 ∧ ¬ (s.chan ch).longSum.contains key then
      (s.modChan ch fun x => { x with longSum := key :: x.longSum }).raise ch 30
    else s

/-- Counts the merges that a node has done on a core's vector engine (R159, R160). -/
def Dev.countMerges (s : Dev) (c : Nat) (key : NodeKey) (n : Nat) (m : Merged) : Dev :=
  let ch := coreCh c
  let s := s.bump .accCh ch 0 Off.ACC_XNODE n
  match key with
  | .topk .. => s.bump .acc ch (coreIn c) Off.ACC_TOPK n
  | .sum _ ctx layer _ _ _ => s.markLong ch ctx layer m.unb
  | _ => s

/-- A node of a core's vector engine. -/
def Dev.treeNode (s : Dev) (c : Nat) (key : NodeKey) : TreeNode :=
  (((s.core c).nodes.find? fun e => e.1 = key).map (·.2)).getD TreeNode.fresh
def Dev.dropNode (s : Dev) (c : Nat) (key : NodeKey) : Dev := s.modCore c fun x => { x with nodes := x.nodes.filter fun e => decide (e.1 ≠ key) }
def Dev.putNode (s : Dev) (c : Nat) (key : NodeKey) (n : TreeNode) : Dev :=
  s.modCore c fun x => { x with nodes := x.nodes.filter (fun e => decide (e.1 ≠ key)) ++ [(key, n)] }

/-- The leaves of a node once a further one has arrived, in order; none where it has arrived before. A node that has formed its root starts
anew (R143, R149). -/
def nodeTake (old : TreeNode) (n leaf : Nat) (v : LeafVal) : Option TreeNode :=
  let nd : TreeNode := if old.root.isSome || old.leaves.isEmpty then ⟨n, [], none⟩ else old
  if nd.leaves.any fun e => e.1 = leaf then none
  else some { nd with leaves := sortBy (fun a b => decide (a.1 ≤ b.1)) (nd.leaves ++ [(leaf, v)]) }

/-- A leaf arrives at a node of a core; with the last one the root is formed, which is passed on (R147, R149). A second leaf of one index is a
duplicate (R143). -/
def Dev.nodeLeaf (s : Dev) (c : Nat) (key : NodeKey) (n leaf : Nat) (v : LeafVal) : Dev × Option LeafVal :=
  match nodeTake (s.treeNode c key) n leaf v with
  | none => (s.raise (coreCh c) 27, none)
  | some nd =>
    if nd.leaves.length < n then (s.putNode c key nd, none)
    else
      let m := treeReduce mergeVal ⟨v, 0⟩ (nd.leaves.map fun e => ⟨e.2, 0⟩)
      ((s.dropNode c key).countMerges c key (n - 1) m, some m.v)

/-- The part of the machine that one node of a level spans, and the leaf of that node that a core belongs to (R148). -/
def levelUnit (level c : Nat) : Nat := if level = 1 then c / 8 else if level = 2 then c / 64 else 0
def levelLeaf (level c : Nat) : Nat := if level = 1 then c else if level = 2 then c / 8 else c / 64

/-- A value formed on core `c` rises through the levels of its reduction to the module's root. A node is computed by the lowest core that takes
part below it (for the channel level this is a DESIGN CHOICE: R148 leaves the engine to the pattern's tree descriptor, whose record in R252 names
none). A level with one leaf passes its value on. A channel's root whose module node lies on another channel waits for the fabric (R9). -/
def Dev.rise (s : Dev) (cores : List Nat) (key : NodeKey) (c : Nat) (v : LeafVal) : List Nat → Dev
  | [] => s.putNode c (key.at 3) ⟨0, [], some v⟩
  | lv :: rest =>
    let mine := cores.filter fun x => levelUnit lv x = levelUnit lv c
    let ids := (mine.map (levelLeaf lv)).eraseDups
    let e := mine.headD c
    if ids.length ≤ 1 then s.rise cores key c v rest
    else if coreCh e ≠ coreCh c then s.putNode c (key.at (lv - 1)) ⟨0, [], some v⟩
    else
      let r := s.nodeLeaf e (key.at lv) ids.length (ids.idxOf (levelLeaf lv c)) v
      match r.2 with
      | some root => r.1.rise cores key e root rest
      | none => r.1

/-- A value enters its reduction at core `c`. A descriptor whose check word fails raises TREE_DESC, and nothing is formed (R148, R158). -/
def Dev.enterTree (s : Dev) (key : NodeKey) (c : Nat) (v : LeafVal) : Dev :=
  match s.keyCores key with
  | some cores => s.rise cores key c v [1, 2, 3]
  | none => s.raise (coreCh c) 28

/-- A channel's root arrives at its module's node on another channel, over the fabric (R9, R148). -/
def Dev.moduleLeaf (s : Dev) (key : NodeKey) (src : Nat) : Dev :=
  match s.keyCores key with
  | none => s
  | some cores =>
    let e := cores.headD 0
    match cores.find? fun c => coreCh c = src with
    | some c =>
      (match (s.treeNode c (key.at 2)).root with
      | some v =>
        if coreCh e = src then s
        else
          let ids := (cores.map coreCh).eraseDups
          let r := (s.dropNode c (key.at 2)).nodeLeaf e (key.at 3) ids.length (ids.idxOf src) v
          match r.2 with
          | some root => r.1.putNode e (key.at 3) ⟨0, [], some root⟩
          | none => r.1
      | none => s)
    | none => s

end Sys2Proof.Machine
end

