-- ==== Sys2Proof/Machine/AccumOps.lean ====
section
/-! DEFINITION. Accumulation groups: opening, arrival of leaves, completion, holding and release (R141 to R149, R154). -/

namespace Sys2Proof.Machine
open Sys2Proof

/-- Scratchpad bytes that the plan reserves for a group: room for every leaf that may wait for its sibling (R141). -/
def groupReserve (g : Group) : Nat :=
  if g.state = .free then 0 else g.cols * g.vecs * 4 * (ceilDiv g.nLeaf 2 - ((List.range (g.nLeaf / 2)).filter fun p =>
    g.leaves.any (fun l => l.ix = 2 * p) && g.leaves.any (fun l => l.ix = 2 * p + 1)).length)

/-- Whether an active adapter of a context adapts a layer, which gives a group one leaf more (R141, R272). -/
def Dev.adapted (s : Dev) (ctx layer : Nat) : Bool :=
  (s.ctx ctx).adps.any fun e => e.2.active.any fun a => a.layers.any fun l => l.1 = layer

/-- Leaves that the tiles of a core make of a reduction (R148). -/
def Dev.coreLeaves (s : Dev) (c ctx layer : Nat) (transpose : Bool) (first : Nat) : Nat :=
  match s.layerOf ctx layer with
  | some l => ((redTiles l transpose first).filter fun k => tileCore k = c).length
  | none => 0

/-- Whether a group's settings keep to R141: COLS, VECS and NLEAF in range, the leaves of an array group those of the placement, with one more for
an adapter, and room in the scratchpad for what may wait. -/
def Dev.groupFits (s : Dev) (o : GroupOpen) : Bool :=
  let n := s.coreLeaves o.core.ix o.ctx.val o.layer o.transpose o.first
  let adp := s.adapted o.ctx.val o.layer
  let held := ((s.core o.core.ix).groups.map fun e => groupReserve e.2).sum
  64 ≤ o.cols && o.cols ≤ 2048 && o.cols % 64 = 0 && 1 ≤ o.vecs && o.vecs ≤ 16 && o.cols * o.vecs ≤ 32768
    && 1 ≤ o.nLeaf && o.nLeaf ≤ (if adp then 17 else 16) && (o.src ≠ 0 || o.nLeaf = n || (adp && o.nLeaf = n + 1))
    && held + o.cols * o.vecs * 4 * ceilDiv o.nLeaf 2 ≤ 4194304

/-- The bias vector of a group: FP32 values at an offset in the pattern's VECTORS; only a group whose root is the layer's takes one (R141,
R252). -/
def Dev.biasOf (s : Dev) (o : GroupOpen) : List F32 :=
  match o.bias, (s.ctx o.ctx.val).pat with
  | some off, some p => if o.dest = .node then [] else
    (List.range o.cols).map fun i => BitVec.ofNat 32 (ofBytes ((List.range 4).map fun j => p.img.get 0 (p.vectors + off + 4 * i + j)))
  | _, _ => []

/-- Opens a group for new work: EPOCH increments, the counts are cleared (R141, R142). An open group is left as it is, and settings outside R141
open none. -/
def Dev.openGroup (s : Dev) (o : GroupOpen) : Dev :=
  let c := o.core.ix
  let g := s.group c o.g.val
  if g.state ≠ .free ∨ !s.groupFits o then s
  else
    let bias := s.biasOf o
    let s := s.modGroup c o.g.val fun g => { Group.fresh with
      state := .opened, src := o.src.val, ofmt := o.ofmt.val, cols := o.cols, vecs := o.vecs, nLeaf := o.nLeaf, bias := bias,
      dest := o.dest, epoch := (g.epoch + 1) % 4, ctx := o.ctx.val, layer := o.layer, transpose := o.transpose, first := o.first, run := o.run,
      exec := o.exec }
    s.bump .acc (coreCh c) (coreIn c) Off.ACC_OPEN 1

/-- Reopens a group for a repeat: cleared, EPOCH increments, same settings (R142). -/
def Dev.reopenGroup (s : Dev) (c g : Nat) : Dev :=
  if (s.group c g).state = .free then s
  else
    let s := s.modGroup c g fun g => { g with
      state := .opened, epoch := (g.epoch + 1) % 4, len := 0, npart := 0, unbounded := false, depth := 0, leaves := [], seen := [], result := [] }
    s.bump .acc (coreCh c) (coreIn c) Off.ACC_REOPEN 1

/-- Bytes of a released value in OFMT, and whether the conversion saturated (R145). -/
def ofmtBytes (ofmt : Nat) (x : F32) : List Byte × Bool :=
  match ofmt with
  | 0 => (toBytes 4 x.toNat, false)
  | 1 => (toBytes 2 (bf16Of x).toNat, bf16Sat x)
  | _ => ([e4m3Of x], e4m3Sat x)

/-- The FP32 value of a released value. -/
def ofmtVal (ofmt : Nat) (x : F32) : F32 :=
  match ofmt with
  | 0 => x
  | 1 => bf16Val (bf16Of x)
  | _ => e4m3Val (e4m3Of x)

/-- Writes bytes to a core's scratchpad, or to its cluster's buffer, from an address on. -/
def Dev.putScratch (s : Dev) (c a : Nat) : List Byte → Dev
  | [] => s
  | b :: bs => ({ s with t0 := s.t0.set 0 (c * 2 ^ 22 + a % 2 ^ 22) b } : Dev).putScratch c (a + 1) bs
def Dev.putBuffer (s : Dev) (cl a : Nat) : List Byte → Dev
  | [] => s
  | b :: bs => ({ s with cbuf := s.cbuf.set 0 (cl * 2 ^ 25 + a % 2 ^ 25) b } : Dev).putBuffer cl (a + 1) bs

/-- Releases an accepted group: converts its root to OFMT, writes it to DEST or passes it up its reduction with its counts, and frees the group,
whose status keeps its last values (R142, R144, R145, R148, R160). -/
def Dev.releaseGroup (s : Dev) (c g : Nat) : Dev :=
  let gr := s.group c g
  if gr.state ≠ .held then s
  else
    let cv := (gr.result.flatten).map (ofmtBytes gr.ofmt)
    let s := s.bump .acc (coreCh c) (coreIn c) Off.ACC_OSAT (cv.filter (·.2)).length
    let s := s.modGroup c g fun g => { g with state := .free, leaves := [], result := [] }
    let bs := (cv.map (·.1)).flatten
    match gr.dest with
    | .scratchpad a => s.putScratch c a.val bs
    | .buffer a => s.putBuffer (c / 8) a.val bs
    | .node => s.enterTree (.sum 1 gr.ctx gr.layer gr.transpose gr.first gr.run) c
        (.sum (gr.src = 0) ((gr.result.flatten).map (ofmtVal gr.ofmt)) gr.len gr.npart)

/-- Sets UNBOUNDED of a group and raises LONG_SUM once per layer per drift interval (R154). -/
def Dev.markUnbounded (s : Dev) (c g : Nat) : Dev :=
  let gr := s.group c g
  let ch := coreCh c
  let s := s.modGroup c g fun g => { g with unbounded := true }
  let s := (s.wrF .acc ch (coreIn c) Off.ACC_STA 10 10 1).bump .acc ch (coreIn c) Off.ACC_UNB 1
  let key := gr.ctx * 65536 + gr.layer
  if s.inForce .accCh ch 0 Off.ACC_CTL 0 0 = 1 ∧ ¬ (s.chan ch).longSum.contains key then
    (s.modChan ch fun x => { x with longSum := key :: x.longSum }).raise ch 30
  else s

/-- The leaves of one vector, in leaf order. -/
def leavesOf (g : Group) (v : Nat) : List Leaf :=
  sortBy (fun a b => decide (a.ix ≤ b.ix)) (g.leaves.filter fun l => l.vec = v)

/-- Whether the execution that must accept an ARR group has done so; PAE and VEC groups need none (R142). -/
def Dev.groupAccepted (s : Dev) (c : Nat) (g : Group) : Bool :=
  g.src ≠ 0 || g.exec = 0 || (s.core c).execs.any fun e => e.id = g.exec && e.accepted

/-- One level of the canonical tree over leaves of which some are not there yet. -/
def pairUp {α : Type} (f : α → α → α) : List (Option α) → List (Option α)
  | a :: b :: r => (match a, b with | some x, some y => some (f x y) | _, _ => none) :: pairUp f r
  | l => l

/-- Every value that the canonical tree has formed so far, leaves included (R147, R149). -/
def formed {α : Type} (f : α → α → α) : Nat → List (Option α) → List α
  | 0, l => l.filterMap id
  | n + 1, l => l.filterMap id ++ formed f n (pairUp f l)

/-- Counts at a node of a group: LEN, NPART and additions on the longest path (R144, R151). -/
abbrev NodeCount := Nat × Nat × Nat
def countAdd (a b : NodeCount) : NodeCount := (lenAdd a.1 b.1, npartAdd a.2.1 b.2.1, max a.2.2 b.2.2 + 1)

/-- Counts of all that a group has formed so far. -/
def groupFormed (g : Group) : List NodeCount :=
  (List.range g.vecs).flatMap fun v => formed countAdd 5 ((List.range g.nLeaf).map fun i =>
    (g.leaves.find? fun l => l.ix = i && l.vec = v).map fun l => (l.len, l.npart, 0))

/-- DEPTH so far, and UNBOUNDED with the first value that exceeds a limit (R154, R160). -/
def Dev.groupStatus (s : Dev) (c g : Nat) : Dev :=
  let fs := groupFormed (s.group c g)
  let s := s.modGroup c g fun x => { x with depth := (fs.map (·.2.2)).foldl max 0 }
  let gr := s.group c g
  if !gr.unbounded && fs.any fun x => overLong (gr.src = 0) x.1 x.2.1 then s.markUnbounded c g else s

/-- When every leaf of every vector is present: the roots along the canonical tree, the bias, and HELD; then release if the
result is accepted (R142, R147, R149). -/
def Dev.closeGroup (s : Dev) (c g : Nat) : Dev :=
  let gr := s.group c g
  if gr.state = .opened ∧ gr.leaves.length = gr.nLeaf * gr.vecs ∧ gr.nLeaf > 0 then
    let roots := (List.range gr.vecs).map fun v =>
      let r := treeReduce vadd [] ((leavesOf gr v).map (·.vals))
      if gr.bias.isEmpty then r else vadd r gr.bias
    let s := s.modGroup c g fun x => { x with state := .held, result := roots, lowConf := x.lowConf || x.leaves.any (·.lowConf) }
    if s.groupAccepted c gr then s.releaseGroup c g else s
  else s

/-- A leaf value arrives at a group: one of another EPOCH is stale, and one that came before in this EPOCH is a duplicate, also once the group is
FREE again (R143, R144). -/
def Dev.leafAt (s : Dev) (c g epoch : Nat) (l : Leaf) : Dev :=
  let gr := s.group c g
  if gr.epoch ≠ epoch then s.bump .acc (coreCh c) (coreIn c) Off.ACC_STALE 1
  else if gr.seen.contains (l.ix, l.vec) then s.raise (coreCh c) 27
  else if gr.state = .free ∨ gr.nLeaf ≤ l.ix ∨ gr.vecs ≤ l.vec then s.bump .acc (coreCh c) (coreIn c) Off.ACC_STALE 1
  else
    -- LEN and NPART count a leaf once, whatever the number of vectors
    let first := !gr.leaves.any fun x => x.ix = l.ix
    let s := s.modGroup c g fun x => { x with
      leaves := x.leaves ++ [l]
      seen := x.seen ++ [(l.ix, l.vec)]
      len := if first then lenAdd x.len l.len else x.len
      npart := if first then npartAdd x.npart l.npart else x.npart }
    (s.groupStatus c g).closeGroup c g

end Sys2Proof.Machine
end

