-- ==== Sys2Proof/Machine/ArrayOps.lean ====
section
/-! DEFINITION. The shared operations of the array and the correction path: mass tables and pass lists (R37 to R39), the read of
a slice slot by slot (R33 to R45, R51), gain and offset (R69, R70), the band check (R79 to R81), the pounce share (R96 to R98),
slack and carried work (R18 to R20). -/

namespace Sys2Proof.Machine
open Sys2Proof

/-! ### Layers and serving tiles -/

/-- The tile or spare that serves under a tile's index: a spare in READY that stands in for it or is adopted in its place; else the tile
itself, or the spare adopted for it while that is in a blocking run or is re-programmed (R57, R419). -/
def Dev.serving (s : Dev) (k : Nat) : Nat :=
  let sps := (List.range 4).map fun i => tileCl k * 132 + 128 + i
  let again (t : Tile) : Bool := t.state = .blocking || (t.state = .programming && (t.prog = some .refresh || t.prog = some .column))
  ((sps.find? fun sp => (s.tile sp).state = .ready && ((s.tile sp).role = .standin k || (s.tile sp).role = .adopted k))
    <|> sps.find? fun sp => (s.tile sp).role = .adopted k && again (s.tile sp)).getD k

/-- Whether the slices under a tile's index run as spill layers: no tile or spare holds them verified, the refresh runs in place, or the
tile is at the end of its wear and no spare takes over (R78, R92, R104, R264, R277). -/
def Dev.sliceSpills (s : Dev) (k : Nat) : Bool :=
  let v := s.serving k
  let t := s.tile v
  !t.slices.isEmpty && (t.state = .retired || (t.state = .programming && t.prog = some .refresh && t.refreshLate)
    || (t.replaceBy = some 48 && !(s.sparesOf k).any fun sp => sp ≠ v && (s.tile sp).role = .adopted k))

/-- The leaf that a block makes in its group: the tiles of the core that take part, in order of their indexes (R3, R148). Forward groups
add the blocks of one column range, transpose groups those of one row range. -/
def leafIx (l : Layer) (b : Block) (c : Nat) (transpose : Bool) : Nat :=
  let at_ (x : Block) : Option Nat := ((x.tiles.filter fun k => tileCore k = c).foldl (fun (m : Option Nat) k =>
    match m with | some j => some (min j k) | none => some k) none)
  let sib (x : Block) : Bool := if transpose then x.row0 = b.row0 && x.rspan = b.rspan else x.col0 = b.col0 && x.cspan = b.cspan
  match at_ b with
  | some k => (l.blocks.filter fun x => sib x && match at_ x with | some j => decide (j < k) | none => false).length
  | none => (l.blocks.takeWhile fun x => decide (x ≠ b)).countP sib

/-- The core a tile or spare works for. -/
def Dev.tileServes (s : Dev) (k : Nat) : Nat :=
  if isSpare k then
    match (s.tile k).role with
    | .adopted t | .standin t | .shadowing t => tileCore t
    | .none => tileCl k * 8
  else tileCore k

/-! ### Mass tables (R37, R38, R54) -/

/-- Sum of |w| per line and position over lines lo to hi − 1: the largest over the other axis. `key` gives the axis position. -/
def maxMass (w : Store Int) (inRange : Nat → Bool) (axis : Nat → Nat) : Nat :=
  let sums : Store Nat := w.foldl (fun acc e =>
    if inRange e.1 then acc.put (axis e.1) (acc.get 0 (axis e.1) + e.2.natAbs) else acc) []
  sums.foldl (fun m e => max m e.2) 0

/-- MASS_SUB per 256-row sub-block of the slice (R37). -/
def massSub (sl : Slice) : List Nat :=
  (List.range (sl.rowN / 256)).map fun k => maxMass sl.w (fun e => e / 2048 / 256 = k) (· % 2048) + 128

/-- MASS_FULL per row group (R37). -/
def massFull (sl : Slice) : List Nat :=
  (List.range (sl.rowN / max 1 sl.rowGroup)).map fun g =>
    maxMass sl.w (fun e => e / 2048 / sl.rowGroup = g) (· % 2048) + sl.rowGroup / 2

/-- The row masses of transpose reads, per 256-pair column sub-block and per column group (R54). -/
def tMassSub (sl : Slice) : List Nat :=
  (List.range (ceilDiv sl.colN 256)).map fun k => maxMass sl.w (fun e => e % 2048 / 256 = k) (· / 2048) + 128
def tMassFull (sl : Slice) : List Nat :=
  (List.range (ceilDiv sl.colN (max 1 sl.colGroup))).map fun g =>
    maxMass sl.w (fun e => e % 2048 / sl.colGroup = g) (· / 2048) + sl.colGroup / 2

/-- FS(c) (R35) and CHK(c) (R36). -/
def fullScale (c : Nat) : Nat := 254 * 2 ^ c
def chkLimit (c : Nat) : Nat := fullScale c * 8 / 10
def codeStep (c : Nat) : Nat := 2 ^ (c + 1)

/-- The check word of a slice's mass table: CRC-32 over its 16-bit words in order, little-endian (R37). -/
def massCheck (sl : Slice) : Word :=
  BitVec.ofNat 32 (crc32 (((sl.massSub ++ sl.massFull ++ sl.tMassSub ++ sl.tMassFull).map (toBytes 2)).flatten))

/-- Whether a slice has a valid mass table (R37). -/
def tableOk (sl : Slice) : Bool := sl.massCrc = some (massCheck sl)

/-! ### The pass list of a plane (R39) -/

/-- Twice the bound on every column's sum over some sub-blocks (R39). -/
def passBound2 (sub n : List Nat) (blocks : List Nat) (full : Option Nat) : Nat :=
  let b := (blocks.map fun k => min (2 * nth 0 sub k) (31 * nth 0 n k)).sum
  match full with
  | some f => min b (2 * f)
  | none => b

/-- The passes of a gated group, and how many were skipped for want of an active row (R39, R44). -/
def passList (sub n : List Nat) (chk : Nat) (skip : Bool) : Nat → List Nat → Option Nat → List (List Nat) × Nat
  | 0, blocks, _ => ([blocks], 0)
  | f + 1, blocks, full =>
    if skip && (blocks.map (nth 0 n)).sum = 0 then ([], 1)
    else if passBound2 sub n blocks full ≤ 2 * chk ∨ blocks.length ≤ 1 then ([blocks], 0)
    else
      let h := blocks.length / 2
      let a := passList sub n chk skip f (blocks.take h) none
      let b := passList sub n chk skip f (blocks.drop h) none
      (a.1 ++ b.1, a.2 + b.2)

/-- The passes of one plane over every group: safe groups in one pass, gated groups split (R38, R39); SPLIT_EN 0 splits none. An
empty plane counts once per row group, since each group is a pass of its own (DESIGN CHOICE: R44 counts "a plane, or a pass"). -/
def planePasses (sub full n : List Nat) (perGroup chk : Nat) (skip split : Bool) : List (List Nat) × Nat :=
  (List.range (ceilDiv sub.length (max 1 perGroup))).foldl (fun acc g =>
    let blocks := (List.range perGroup).map (g * perGroup + ·) |>.filter (· < sub.length)
    let safe := nth 0 full g ≤ chk
    let r := if safe || !split then
        (if skip && (blocks.map (nth 0 n)).sum = 0 then ([], 1) else ([blocks], 0))
      else passList sub n chk skip 8 blocks (some (nth 0 full g))
    (acc.1 ++ r.1, acc.2 + r.2)) ([], 0)

/-! ### Reading a slice (R33 to R45, R51) -/

/-- What one read of a slice gives. -/
structure ReadRes where
  sums : Store Int
  slots : Nat
  skipped : Nat
  extra : Nat          -- slots beyond PLAN_PASSES (R43)
  unread : Nat         -- planned slots that were not read
  wOff : Int
  pSum : Nat
  sat : Nat
  bandSat : Bool
deriving DecidableEq, Repr

def ReadRes.empty : ReadRes := ⟨[], 0, 0, 0, 0, 0, 0, 0, false⟩

/-- The code of an analogue sum in 2^-16 level units at gain code c, and whether the converter saturates (R35). Between the ends the
code is the nearest one, ties to the even code (DESIGN CHOICE: R35 gives no rounding). -/
def convert (c : Nat) (v : Int) : Int × Bool :=
  let m := rneDiv v.natAbs (65536 * codeStep c)
  let code : Int := if v < 0 then -(m : Int) else m
  (clampInt (-127) 127 code, decide (v.natAbs > (fullScale c + 2 ^ c) * 65536))

/-- One slot: the driven lines' levels summed per sensed line, with the analogue deviation of this slot, converted (R35). -/
def slotRead (c slot : Nat) (w : Int) (contrib : Store Int) (dev : AnalogDev) (keep : Nat → Bool) (r : ReadRes) : ReadRes :=
  let dv := dev.filterMap fun e => if e.1 / 4096 = slot ∧ keep (e.1 % 4096) then some (e.1 % 4096, e.2) else none
  let tot : Store Int := dv.foldl (fun acc e => acc.put e.1 (acc.get 0 e.1 + e.2)) contrib
  let codes := tot.map fun e => (e.1, convert c e.2)
  { r with
    sums := codes.foldl (fun acc e => acc.set 0 e.1 (acc.get 0 e.1 + w * e.2.1)) r.sums
    slots := r.slots + 1
    wOff := r.wOff + w
    pSum := r.pSum + (w * w).toNat
    sat := r.sat + (codes.filter (·.2.2)).length
    bandSat := r.bandSat || codes.any fun e => e.2.2 && (e.1 = 2112 || e.1 = 2113) }

/-- Levels summed per physical pair over the active rows of a pass, in 2^-16 level units. -/
def rowContrib (levels : Store Int) (active : Nat → Bool) (keep : Nat → Bool) : Store Int :=
  levels.foldl (fun acc e =>
    if active (e.1 / 2128) && keep (e.1 % 2128) then acc.put (e.1 % 2128) (acc.get 0 (e.1 % 2128) + e.2 * 65536) else acc) []

/-- Levels summed per row over the driven pairs of a transpose pass (R53). -/
def colContrib (levels : Store Int) (active : Nat → Bool) (keep : Nat → Bool) : Store Int :=
  levels.foldl (fun acc e =>
    if active (e.1 % 2128) && keep (e.1 / 2128) then acc.put (e.1 / 2128) (acc.get 0 (e.1 / 2128) + e.2 * 65536) else acc) []

/-- How a read runs: the format's width, the gain code, SKIP_EN and SPLIT_EN. -/
structure ReadHow where
  bits : Nat
  gain : Nat
  skip : Bool
  split : Bool
deriving DecidableEq, Repr

/-- All slots of a read, plane by plane, pass by pass (R34, R39, R43, R44). `lines` counts the driven lines' codes, `contrib`
gives the sums for a set of driven lines. -/
def readSlots (h : ReadHow) (codes : List Int) (sub full : List Nat) (perGroup planned slot0 : Nat)
    (contrib : (Nat → Bool) → Store Int) (dev : AnalogDev) (keep : Nat → Bool) : ReadRes :=
  (List.range h.bits).foldl (fun r p =>
    let on (i : Nat) : Bool := codeBit h.bits (nth 0 codes i) p
    let n := (List.range sub.length).map fun k => ((List.range 256).filter fun i => on (k * 256 + i)).length
    let (ps, sk) := planePasses sub full n perGroup (chkLimit h.gain) h.skip h.split
    let r := ps.foldl (fun r blocks =>
      slotRead h.gain (slot0 + r.slots) (planeWeight h.bits p) (contrib fun i => blocks.contains (i / 256) && on i) dev keep r) r
    { r with skipped := r.skipped + sk
             extra := r.extra + (ps.length - planned)
             unread := r.unread + (planned - ps.length) }) ReadRes.empty

/-- Physical pair of logical column j (R29). -/
def physPair (t : Tile) (j : Nat) : Nat := Store.get j j t.colMap

/-- Logical columns counted in the band pairs: every column of every slice of the tile (R79). -/
def bandCols (t : Tile) : List Nat := (List.range 2048).filter fun j => t.slices.any fun sl => sl.colO ≤ j && j < sl.colO + sl.colN

/-- Physical pairs whose codes the correction path keeps: mapped columns, band pairs and reference pairs (R30). -/
def keptPair (t : Tile) (p : Nat) : Bool :=
  p ≥ 2112 || (if p < 2048 then physPair t p = p && t.slices.any fun sl => sl.colO ≤ p && p < sl.colO + sl.colN
    else t.colMap.any fun e => e.2 = p)

/-- A forward read of a slice (R33, R39, R51). -/
def forwardRead (t : Tile) (sl : Slice) (codes : List Int) (h : ReadHow) (slot0 : Nat) (dev : AnalogDev) : ReadRes :=
  readSlots h codes sl.massSub sl.massFull (sl.rowGroup / 256) (max (sl.rowN / max 1 sl.rowGroup) sl.planPasses) slot0
    (fun act => rowContrib t.levels (fun r => sl.rowO ≤ r && r < sl.rowO + sl.rowN && act (r - sl.rowO)) (keptPair t)) dev (keptPair t)

/-- A transpose read of a slice: the logical columns are driven, each row is sensed (R53, R54). -/
def transposeReadOf (t : Tile) (sl : Slice) (codes : List Int) (h : ReadHow) (dev : AnalogDev) : ReadRes :=
  let inv (p : Nat) : Option Nat :=
    ((List.range sl.colN).map (sl.colO + ·)).find? fun j => physPair t j = p
  let keep (r : Nat) : Bool := sl.rowO ≤ r && r < sl.rowO + sl.rowN
  readSlots h codes sl.tMassSub sl.tMassFull (sl.colGroup / 256) (ceilDiv sl.colN (max 1 sl.colGroup)) 0
    (fun act => colContrib t.levels (fun p => match inv p with | some j => act (j - sl.colO) | none => false) keep) dev keep

/-! ### Gain and offset (R69, R70) -/

/-- Linear interpolation between the two references nearest to position x, exact, rounded once to FP32; beyond the outermost
reference that reference's value (R75). -/
def interp (refs : List (Nat × F32)) (x : Nat) : F32 :=
  let below := (refs.filter fun r => r.1 ≤ x).foldl (fun (b : Option (Nat × F32)) r =>
    match b with | some c => if c.1 ≤ r.1 then some r else b | none => some r) none
  let above := (refs.filter fun r => x < r.1).foldl (fun (b : Option (Nat × F32)) r =>
    match b with | some c => if r.1 < c.1 then some r else b | none => some r) none
  match below, above with
  | some a, some b =>
    if a.2 = b.2 then a.2
    else (Fr.add (Fr.ofF a.2) (Fr.mul (Fr.sub (Fr.ofF b.2) (Fr.ofF a.2)) ⟨(x - a.1 : Nat), b.1 - a.1⟩)).toF
  | some a, none => a.2
  | none, some b => b.2
  | none, none => 0#32

/-- Value of seven references at a pair's physical position. Equal references need no position. -/
def refAt (pos : Nat → Nat) (first : Nat) (vals : List F32) (p : Nat) : F32 :=
  match vals with
  | [] => 0#32
  | v :: vs => if vs.all (· = v) then v else interp ((v :: vs).zipIdx.map fun e => (pos (first + e.2), e.1)) (pos p)

/-- d(j) of a physical pair: from the level references, pairs 2,121 to 2,127 (R70, R71). -/
def driftAt (pos : Nat → Nat) (t : Tile) (p : Nat) : F32 := refAt pos 2121 t.drift p
/-- o[j]: base offset plus the zero references' update, pairs 2,114 to 2,120 (R70, R71). -/
def offsetAt (pos : Nat → Nat) (t : Tile) (p : Nat) : F32 := F32.add (Store.get 0#32 p t.calO) (refAt pos 2114 t.dOff p)
/-- Column gain b[j] × d(j) (R70). -/
def colGain (pos : Nat → Nat) (t : Tile) (p : Nat) : F32 := F32.mul (Store.get F32.one p t.calB) (driftAt pos t p)
/-- g[j] = b[j] × r(k, c) × d(j), converter k = p / 4 (R70). -/
def gainAt (pos : Nat → Nat) (t : Tile) (p c : Nat) : F32 :=
  F32.mul (F32.mul (Store.get F32.one p t.calB) (Store.get F32.one (p / 4 * 8 + c) t.calR)) (driftAt pos t p)

/-- Corrected value of a pair from sums added over n reads (R69, R84): three roundings. -/
def corrected (pos : Nat → Nat) (t : Tile) (p c n : Nat) (sum wOff : Int) : F32 :=
  let v := sum * (codeStep c : Int)
  F32.div (F32.sub (F32.ofRat (v < 0) v.natAbs n) (F32.mul (offsetAt pos t p) (F32.ofInt wOff))) (gainAt pos t p c)

/-! ### Band check (R79 to R81) -/

/-- r_a and r_b, exact on the corrected values (R80). `dig` gives the digital value of a stand-in column. -/
def bandResiduals (y : Nat → F32) (phys : Nat → Nat) (cols : List Nat) (k : Nat) (dig : Nat → Option F32) : Fr × Fr :=
  let col (j : Nat) : Fr := Fr.ofF ((dig j).getD (y (phys j)))
  let sa := Fr.sum (cols.map col)
  let sb := Fr.sum (cols.map fun j => if j % 2 = 0 then col j else Fr.neg (col j))
  (Fr.sub (Fr.mul (Fr.ofNat (2 ^ k)) (Fr.ofF (y 2112))) sa, Fr.sub (Fr.mul (Fr.ofNat (2 ^ k)) (Fr.ofF (y 2113))) sb)

/-- σ² of R81. -/
def sigma2 (nCols k c pSum q n : Nat) (vConv vCell : F32) : Fr :=
  let per := Fr.add (Fr.mul (Fr.ofNat (codeStep c * codeStep c * pSum)) (Fr.ofF vConv)) (Fr.mul (Fr.ofNat q) (Fr.ofF vCell))
  Fr.add (Fr.mul (Fr.mul (Fr.ofNat (nCols + 4 ^ k)) per) ⟨1, max 1 n⟩) ⟨(q * (nCols + 2 * 4 ^ k) : Nat), 12⟩

/-- The per-column variance: R81 with n_cols = 0 and K = 0 (R89, R101). -/
def sigmaCol2 (c pSum q n : Nat) (vConv vCell : F32) : Fr := sigma2 0 0 c pSum q n vConv vCell

/-- Sum of the squared input codes (R81). -/
def sumSq (codes : List Int) : Nat := (codes.map fun c => (c * c).toNat).sum

/-- max(|r_a|, |r_b|) / σ > lim16 / 16, compared as squares (R81, R84). -/
def overConf (r : Fr × Fr) (s2 : Fr) (lim16 : Nat) : Bool :=
  let m := if Fr.lt (Fr.sq r.1) (Fr.sq r.2) then Fr.sq r.2 else Fr.sq r.1
  Fr.lt (Fr.mul (Fr.mul (Fr.ofNat (lim16 * lim16)) ⟨1, 256⟩) s2) m

/-! ### The pounce share (R96 to R98) -/

/-- The input of a row in units of the input scale: an outlier's own value, else its code (R97). -/
def inputOf (d : MvmIn) (row : Nat) : F32 :=
  match d.outs.find? fun o => o.1 = row with
  | some o => bf16Val o.2
  | none => F32.ofInt (nth 0 d.codes row)

/-- The pounce share of one logical column: outlier rows ascending, then residual entries in stored order (R98). -/
def pounceShare (sl : Slice) (d : MvmIn) (resEn : Bool) (col : Nat) : F32 :=
  let a := d.outs.foldl (fun acc o => F32.add acc (F32.mul (bf16Val o.2) (F32.ofInt (sl.w.get 0 (o.1 * 2048 + col))))) 0#32
  if resEn then
    sl.res.foldl (fun acc e => if e.2.1 = col ∧ ¬ F32.isZero (inputOf d e.1) then
      F32.add acc (F32.mul (F32.ofInt e.2.2) (inputOf d e.1)) else acc) a
  else a

/-- The same in a transpose read, row and column exchanged: outliers of y against W5 columns (R98). -/
def pounceShareT (sl : Slice) (d : MvmIn) (resEn : Bool) (row : Nat) : F32 :=
  let a := d.outs.foldl (fun acc o => F32.add acc (F32.mul (bf16Val o.2) (F32.ofInt (sl.w.get 0 (row * 2048 + o.1))))) 0#32
  if resEn then
    sl.res.foldl (fun acc e => if e.1 = row ∧ ¬ F32.isZero (inputOf d e.2.1) then
      F32.add acc (F32.mul (F32.ofInt e.2.2) (inputOf d e.2.1)) else acc) a
  else a

/-- The whole value of a stand-in column, from the W5 copy and the input (R92): FP32 sum over the rows in order. -/
def digitalColumn (sl : Slice) (codes : List Int) (col : Nat) : F32 :=
  (codes.zipIdx).foldl (fun acc e =>
    let w := sl.w.get 0 (e.2 * 2048 + col)
    if e.1 = 0 ∨ w = 0 then acc else F32.add acc (F32.mul (F32.ofInt e.1) (F32.ofInt w))) 0#32

/-! ### Slack and carried work (R18 to R22) -/

/-- Whether carried work uses a tile, or another that works under its index (R22). -/
def Dev.carriedOn (s : Dev) (k : Nat) : Bool :=
  let ix := s.statusIx k
  (k :: ix :: s.sparesOf ix).any fun x => !(s.tile x).carried.isEmpty

/-- Counts an entry's slip, once per step per plank (R19). -/
def Dev.slipOnce (s : Dev) (ch e : Nat) : Dev :=
  if (s.chan ch).slipNow.contains e then s
  else (s.modChan ch fun c => { c with slipNow := e :: c.slipNow }).bump .plkCh ch 0 Off.PLK_SLIP 1

/-- A step has carried work: one slip per step per plank (R19). -/
def Dev.carry (s : Dev) (seq : Option SeqRef) : Dev :=
  match seq with
  | none => s
  | some r =>
    let e := r.e.val
    (s.modChan r.ch.val fun c => { c with carried := if c.carried.contains e then c.carried else e :: c.carried }).slipOnce r.ch.val e

/-- Whether a step already has work on the tile that did not fit in this plank: all its later work there follows it (R19). -/
def stepMissed (t : Tile) (seq : Option SeqRef) : Bool := seq.isSome && t.missed.any fun e => e.1 = seq

/-- Takes ns from a tile's slack; what does not fit, and what follows it of the same step, becomes carried work (R19, R43). -/
def Dev.takeSlack (s : Dev) (k ns : Nat) (seq : Option SeqRef) : Dev :=
  if ns = 0 then s
  else if ns ≤ (s.tile k).slack ∧ !stepMissed (s.tile k) seq then s.modTile k fun t => { t with slack := t.slack - ns }
  else (s.modTile k fun t => { t with missed := t.missed ++ [(seq, ns)] }).carry seq

/-- Time of a planned MVM on a tile: of a step whose work there has missed the plank, it is carried with it (R19). -/
def Dev.plannedWork (s : Dev) (k ns : Nat) (seq : Option SeqRef) : Dev :=
  if stepMissed (s.tile k) seq then s.modTile k fun t => { t with missed := t.missed ++ [(seq, ns)] } else s

def Dev.giveSlack (s : Dev) (k ns : Nat) : Dev := s.modTile k fun t => { t with slack := t.slack + ns }

/-- Takes ns from the slack of a core's digital engines; what does not fit makes the step's work carried work (R19, R68). -/
def Dev.takeCore (s : Dev) (c ns : Nat) (seq : Option SeqRef) : Dev :=
  if ns = 0 then s
  else if (s.core c).used + ns ≤ s.workWindow - s.shareNs then s.modCore c fun x => { x with used := x.used + ns }
  else s.carry seq

/-- What a plank's time leaves of carried work, which runs in order; `late` steps keep a place however short their work (R20, R21). -/
def carryLeft (late : Option SeqRef → Bool) : Nat → List CarryWork → List CarryWork
  | _, [] => []
  | ns, (q, n) :: l =>
    if n ≤ ns then (if late q then (q, 0) :: carryLeft late (ns - n) l else carryLeft late (ns - n) l)
    else (q, n - ns) :: carryLeft late 0 l

/-- At t0 the work that missed its plank joins what is left of the carried work (R20). -/
def Dev.shiftCarry (s : Dev) (ns : Nat) (late : List SeqRef) : Dev :=
  let isLate (q : Option SeqRef) : Bool := match q with | some r => late.contains r | none => false
  { s with tiles := s.tiles.mapV' Tile.reset fun _ t =>
      if t.carried.isEmpty && t.missed.isEmpty then t else { t with carried := carryLeft isLate ns t.carried ++ t.missed, missed := [] } }

/-- Whether a step has carried work on some tile. -/
def Dev.stepCarried (s : Dev) (r : SeqRef) : Bool := s.tiles.any fun e => e.2.carried.any fun w => w.1 = some r

/-- Time of one MVM as the plan counts it (R32, R49). -/
def mvmNs (bits passes : Nat) : Nat := 32 + 64 * (bits * passes)

/-- Passes per plane that the plan counts for a slice or a block (R32). -/
def planPassesOf (rows group planPasses : Nat) : Nat := max (rows / max 1 group) planPasses

end Sys2Proof.Machine
end

