-- ==== Sys2Proof/Machine/Sense.lean ====
section
/-! DEFINITION. The measuring and thermal family: the monitor converter (R398 to R404), diodes (R407, R408), the thermal model and
states (R405, R406, R409 to R417), and the power cap (R27). -/

namespace Sys2Proof.Machine
open Sys2Proof

/-- The cluster a raise names, as a tile of it. -/
def atCluster (cl : Nat) : FltAt := .tile (Fin.ofNat 8 (cl % 8)) 0

def Dev.modMon (s : Dev) (cl : Nat) (f : Mon → Mon) : Dev := s.modClus cl fun c => { c with mon := f c.mon }
def Dev.modTherm (s : Dev) (cl : Nat) (f : Therm → Therm) : Dev := s.modClus cl fun c => { c with therm := f c.therm }
def Dev.therm (s : Dev) (cl : Nat) : Therm := (s.clus cl).therm
def Dev.monReg (s : Dev) (cl o : Nat) : Word := s.rd .mon (cl / 8) (cl % 8) o
/-- A setting of the page as it is in force: writes take effect at the next boundary (R425). -/
def Dev.monSet (s : Dev) (cl o : Nat) : Word := BitVec.ofNat 32 (s.inForce .mon (cl / 8) (cl % 8) o 31 0)

/-- A trigger of an injected sequence: queued, or merged with one of its kind that waits already (R402). -/
def Dev.monTrigger (s : Dev) (cl kind : Nat) : Dev :=
  if !bit (s.monSet cl Off.MON_CTL) 9 then s
  else if (s.clus cl).mon.queue.contains kind then s.bump .mon (cl / 8) (cl % 8) Off.MON_TRGMRG 1
  else s.modMon cl fun m => { m with queue := m.queue ++ [kind] }

/-- The BLOCK trigger of a run on core `co` of the cluster (R402, R422). -/
def Dev.monBlock (s : Dev) (cl co : Nat) : Dev := (s.modMon cl fun m => { m with core := co }).monTrigger cl 2

/-- The slot register in progress, with the core under the run put into BLOCK's slots 0 and 3 (R402). -/
def Dev.monSlot (s : Dev) (cl : Nat) : Word :=
  let m := (s.clus cl).mon
  match m.inj with
  | none => s.monSet cl (Off.MON_SLOT + 4 * m.slot)
  | some (k, i) =>
    let w := s.monSet cl (Off.MON_ISLOT + 4 * (4 * k + i))
    if k = 2 ∧ i = 0 then setFld w 5 0 m.core
    else if k = 2 ∧ i = 3 then setFld (setFld w 5 0 (8 + m.core)) 9 6 0
    else w

/-- The next used slot of an injected sequence from slot `i` on (MON_ISLOT.VALID, R425). -/
def Dev.injSlot (s : Dev) (cl k i : Nat) : Option Nat :=
  (List.range 4).find? fun j => i ≤ j && bit (s.monSet cl (Off.MON_ISLOT + 4 * (4 * k + j))) 14

/-- Starts the next waiting sequence, in the order THERMAL, BLOCK, STORM (R402); without one, the regular slot runs again from its
start. -/
def Dev.monNext (s : Dev) (cl : Nat) : Dev :=
  let m := (s.clus cl).mon
  let fresh (m : Mon) : Mon := { m with discard := 3, words := [], ovl := false }
  match [1, 2, 0].find? fun k => m.queue.contains k with
  | none => s.modMon cl fun m => fresh { m with inj := none }
  | some k =>
    match s.injSlot cl k 0 with
    | some i => s.modMon cl fun m => fresh { m with inj := some (k, i), queue := m.queue.erase k, lastInj := k }
    | none =>
      let s := s.modMon cl fun m => fresh { m with inj := none, queue := m.queue.erase k, lastInj := k }
      s.bump .mon (cl / 8) (cl % 8) Off.MON_INJ 1

/-- The mean of a slot's words, rounded to nearest with ties to even (R399). -/
def meanRne (ws : List Int) : Int :=
  let n := ws.length
  let t := ws.sum
  if n = 0 then 0
  else
    let q := t / (n : Int)
    let r := (t % (n : Int)).toNat
    if 2 * r < n then q else if 2 * r > n then q + 1 else if q % 2 = 0 then q else q + 1

/-! ### Diodes -/

/-- The neighbours of diode d of cluster cl within a channel, as cluster × 4 + d (R407). -/
def diodeNeighbours (cl d : Nat) : List Nat :=
  (((List.range 4).filter (· ≠ d)).map (cl * 4 + ·)) ++
    ((if 0 < cl then [(cl - 1) * 4 + d] else []) ++ (if cl < 7 then [(cl + 1) * 4 + d] else []))

def Dev.diodeBroken (s : Dev) (ch k : Nat) : Bool := bit (s.rd .thmCh ch 0 Off.THM_SBAD) k
def Dev.diodeLast (s : Dev) (ch k : Nat) : Option Int := (nth none (s.therm (ch * 8 + k / 4)).diodes (k % 4))

/-- Last readings of the healthy diodes among the given ones. -/
def Dev.healthy (s : Dev) (ch : Nat) (ks : List Nat) : List Int :=
  ks.filterMap fun k => if s.diodeBroken ch k then none else s.diodeLast ch k

/-- Twice the median of some readings: the middle one, or the sum of the two middle ones. -/
def median2 (l : List Int) : Int :=
  let a := sortBy (fun x y => decide (x ≤ y)) l
  let n := a.length
  if n % 2 = 1 then 2 * nth 0 a (n / 2) else nth 0 a (n / 2 - 1) + nth 0 a (n / 2)

/-- Finds a diode broken: SENSOR_BAD, and THERMAL runs (R407). -/
def Dev.breakDiode (s : Dev) (ch k : Nat) : Dev :=
  if s.diodeBroken ch k then s
  else
    let cl := ch * 8 + k / 4
    let s := s.wr .thmCh ch 0 Off.THM_SBAD (setBit (s.rd .thmCh ch 0 Off.THM_SBAD) k true)
    (s.raiseAt ch 81 false (atCluster cl) []).monTrigger cl 1

/-- A diode's reading arrives (R407). -/
def Dev.diodeReading (s : Dev) (cl d : Nat) (t : Int) (ovl : Bool) : Dev :=
  let ch := cl / 8
  let k := cl % 8 * 4 + d
  let hn := s.healthy ch (diodeNeighbours (cl % 8) d)
  let away := !hn.isEmpty && ((2 * t - median2 hn).natAbs > 192)
  let n := if away then nth 0 (s.therm cl).off3 d + 1 else 0
  let s := s.modTherm cl fun th => { th with diodes := modifyAt (fun _ => some t) d th.diodes, off3 := modifyAt (fun _ => n) d th.off3 }
  if ovl || t < -320 || t > 2400 || n ≥ 3 then s.breakDiode ch k else s

/-! ### Results -/

/-- Sets a cluster's bit in MON_CH_STA: 0 STALL, 1 OVL, 2 REF_BAD (R424). -/
def Dev.monChSta (s : Dev) (cl which : Nat) (b : Bool) : Dev :=
  let w := s.rd .monCh (cl / 8) 0 Off.MON_CH_STA
  s.wr .monCh (cl / 8) 0 Off.MON_CH_STA (setBit w (8 * which + cl % 8) b)

/-- One eighth of the way from `a` to `b` in FP32. -/
def eighth (a b : F32) : F32 := F32.add a (F32.scaleDown (F32.sub b a) 3 false)

/-- A fine rail reading trims that rail's fast meter by one eighth of the difference (R404). -/
def Dev.trimMeter (s : Dev) (cl i : Nat) (code : Int) : Dev :=
  if (s.therm cl).frozen then s
  else
    let fine := Config.railFine cl i code
    s.modClus cl fun c => { c with meters := modifyAt (fun m =>
      if i < 5 then { m with corA := F32.add m.corA (F32.scaleDown (F32.sub fine m.lastA) 3 false) }
      else { m with corV := F32.add m.corV (F32.scaleDown (F32.sub fine m.lastV) 3 false) }) (i % 5) c.meters }

/-- Whether a reference reading is off by more than 0.5 % (R424). -/
def refOff (code want : Int) : Bool := 200 * (code - want).natAbs > want.natAbs

/-- What a slot's result is used for (R400, R403 to R407, R424). -/
def Dev.useResult (s : Dev) (cl input : Nat) (code : Int) (ovl : Bool) : Dev :=
  if 20 ≤ input ∧ input < 30 then s.trimMeter cl (input - 20) code
  else if 30 ≤ input ∧ input < 34 then
    s.diodeReading cl (input - 30) (Config.diodeTemp (cl * 4 + (input - 30)) code) ovl
  else if input = 34 ∨ input = 36 then
    let bad := refOff code (if input = 34 then Config.bandgapCode else 0x7FFFFF)
    let s := s.monChSta cl 2 bad
    if bad then s.raiseAt (cl / 8) 78 false (atCluster cl) [] else s
  else s

/-- Writes a result register: CODE and the next TAG (R403). -/
def Dev.putResult (s : Dev) (cl o : Nat) (code : Int) : Dev :=
  let tag := fld (s.monReg cl o) 31 24
  s.wr .mon (cl / 8) (cl % 8) o (BitVec.ofNat 32 ((code % 2 ^ 24).toNat + (tag + 1) % 256 * 2 ^ 24))

/-- A slot is complete: its result is written and used, and the sequencer goes on (R401 to R403). -/
def Dev.slotDone (s : Dev) (cl : Nat) : Dev :=
  let m := (s.clus cl).mon
  let input := fld (s.monSlot cl) 5 0
  let code := meanRne m.words
  let o := match m.inj with | none => Off.MON_RES + 4 * m.slot | some (_, i) => Off.MON_IRES + 4 * i
  let s := (s.putResult cl o code).monChSta cl 1 m.ovl
  let s := s.modMon cl fun m => { m with ovlSeen := m.ovl }
  let s := if m.ovl then s.raiseAt (cl / 8) 77 false (atCluster cl) [] else s
  let s := match m.inj with
    | some (0, i) => s.record (cl / 8) ⟨25, 0, 24, cl % 8, false, false, (toBytes 8 (input + i * 256 + (code % 2 ^ 24).toNat * 65536)).map BitVec.toNat⟩
    | _ => s
  let s := s.useResult cl input code m.ovl
  match m.inj with
  | some (k, i) =>
    match s.injSlot cl k (i + 1) with
    | some j => s.modMon cl fun m => { m with inj := some (k, j), discard := 3, words := [], ovl := false }
    | none => (s.bump .mon (cl / 8) (cl % 8) Off.MON_INJ 1).monNext cl
  | none =>
    let n := fld (s.monSet cl Off.MON_CTL) 8 5
    s.modMon cl fun m => { m with slot := if m.slot ≥ n then 0 else m.slot + 1, passes := if m.slot ≥ n then (m.passes + 1) % 256 else m.passes,
                                  discard := 3, words := [], ovl := false }

/-- After any switch of input or rate the first three outputs are discarded, and the slot in progress starts again (R399). -/
def Dev.monSettle (s : Dev) (cl : Nat) : Dev :=
  let m := (s.clus cl).mon
  let src := fld (s.monSlot cl) 9 0
  let rate := fld (s.monSet cl Off.MON_CTL) 3 1
  if src = m.src ∧ rate = m.rate then s
  else s.modMon cl fun m => { m with src := src, rate := rate, discard := 3, words := [], ovl := false }

/-- MON_CONVERSION_END: a conversion of a cluster's monitor converter ends (R398 to R403). -/
def Dev.monEnd (s : Dev) (cl : Nat) (code : BitVec 24) (ovl : Bool) : Dev :=
  let ctl := s.monSet cl Off.MON_CTL
  if !bit ctl 0 ∨ !s.vin then s
  else
    let s := (s.bump .mon (cl / 8) (cl % 8) Off.MON_CONV 1).monChSta cl 0 false
    let m := (s.clus cl).mon
    let v : Int := code.toInt
    let v := if ovl then (if v < 0 then -0x7FFFFF else 0x7FFFFF) else v
    let s :=
      if m.inj.isNone && !bit ctl 4 then s
      else if m.discard > 0 then
        (s.modMon cl fun m => { m with discard := m.discard - 1, ovl := m.ovl || ovl }).bump .mon (cl / 8) (cl % 8) Off.MON_DISC 1
      else
        let s := s.modMon cl fun m => { m with words := m.words ++ [v], ovl := m.ovl || ovl }
        if (s.clus cl).mon.words.length > fld (s.monSlot cl) 13 10 then s.slotDone cl else s
    let m := (s.clus cl).mon
    (if m.inj.isNone && !m.queue.isEmpty then s.monNext cl else s).monSettle cl

/-- FAST_METER_SAMPLE: a rail's or VIN's fast meter samples current and voltage, here in mA and mV (R404). -/
def Dev.meterSample (s : Dev) (at_ : MeterAt) (amps volts : Nat) : Dev :=
  let add (m : Meter) : Meter := { m with n := m.n + 1, amps := m.amps + amps, volts := m.volts + volts }
  match at_ with
  | .rail c r => s.modClus c.ix fun c => { c with meters := modifyAt add r.val c.meters }
  | .vin => { s with vinMeter := add s.vinMeter }

/-- The mean of a meter over the plank, corrected; a plank without samples keeps the last one. -/
def Meter.close (m : Meter) : Meter :=
  if m.n = 0 then m
  else
    let mean (t : Nat) : F32 := F32.ofRat false t (m.n * 1000)
    { m with n := 0, amps := 0, volts := 0, lastA := F32.add (mean m.amps) m.corA, lastV := F32.add (mean m.volts) m.corV }

/-- INLET_TEMP_READ: the controller reads the inlet thermistor and passes the value to every channel; a failed thermistor counts as
35 °C (R405). -/
def Dev.inletRead (s : Dev) (t : Option (BitVec 16)) : Dev :=
  let w : Word := match t with | some v => v.setWidth 32 | none => BitVec.ofNat 32 (560 + 65536)
  if (s.mgt 8).restarting then s else allCh.foldl (fun s ch => s.wr .thmCh ch.val 0 Off.THM_TIN w) s

/-! ### The thermal model (R405, R406) -/

/-- A signed value in 1/16 °C as FP32 °C. -/
def t16 (v : Int) : F32 := F32.scaleDown (F32.ofInt v) 4 false
/-- The signed 16-bit field of a temperature (R427). -/
def t16Of (x : F32) : Nat :=
  let v := F32.toIntRne (F32.mul x (F32.ofNat 16))
  ((max (-32768) (min 32767 v)) % 65536).toNat

def Dev.tIn (s : Dev) (ch : Nat) : F32 := t16 ((BitVec.ofNat 16 (s.rdF .thmCh ch 0 Off.THM_TIN 15 0)).toInt)

/-- Power of a cluster's rails over the previous plank, in W (R404, R405). -/
def railPower (ms : List Meter) : F32 := ms.foldl (fun a m => F32.add a (F32.mul m.lastA m.lastV)) 0#32

/-- Share of the way to a settled value in one plank: 1 − exp(−plank / tau) (R405). -/
def settleShare (ns : Nat) (tau : F32) : F32 := F32.sub F32.one (F32.exp (F32.flip (F32.div (F32.ofRat false ns 1000000000) tau)))

/-- The model of a cluster at a boundary, in the order R405 writes it: t_model, then pd and pp. -/
def thermModel (k : Nat → F32) (ns : Nat) (tIn pCl pCh : F32) (th : Therm) : Therm :=
  let th := if th.started then th else { th with started := true, pd := pCl, pp := pCh, o := 0 }
  let t := F32.add (F32.add (F32.add tIn th.o) (F32.mul (k 0) th.pd)) (F32.mul (k 2) th.pp)
  { th with
    tModel := t
    pd := F32.add th.pd (F32.mul (F32.sub pCl th.pd) (settleShare ns (k 1)))
    pp := F32.add th.pp (F32.mul (F32.sub pCh th.pp) (settleShare ns (k 3))) }

/-- Values of a cluster's diodes: healthy readings and CROSSCHECK values, and whether any diode counts as hot (R406, R408). -/
def Dev.diodeValues (s : Dev) (cl : Nat) : List F32 × Bool :=
  let ch := cl / 8
  (List.range 4).foldl (fun acc d =>
    let k := cl % 8 * 4 + d
    if !s.diodeBroken ch k then
      match s.diodeLast ch k with | some v => (acc.1 ++ [t16 v], acc.2) | none => acc
    else
      let hn := s.healthy ch (diodeNeighbours (cl % 8) d)
      let hi := hn.foldl max (hn.headD 0)
      let lo := hn.foldl min (hn.headD 0)
      if s.inForce .thmCh ch 0 Off.THM_SENS k k = 0 ∧ hn.length ≥ 2 ∧ hi - lo ≤ 96 then (acc.1 ++ [t16 hi], acc.2)
      else (acc.1, true)) ([], false)

/-- Thresholds in force: WARN, THR and SD in °C (R409). -/
def Dev.thmLims (s : Dev) (ch : Nat) : Nat × Nat × Nat :=
  (s.inForce .thmCh ch 0 Off.THM_LIM 7 0, s.inForce .thmCh ch 0 Off.THM_LIM 15 8, s.inForce .thmCh ch 0 Off.THM_LIM 23 16)

/-- THERMAL_OFFSET_UPDATE: the offset moves toward the diodes' mean by one eighth, within ±10 °C (R406). -/
def Dev.offsetUpdate (s : Dev) (cl : Nat) : Dev :=
  let th := s.therm cl
  let hs := s.healthy (cl / 8) ((List.range 4).map (cl % 8 * 4 + ·))
  if th.sinceOffset < 256 ∨ !th.started then s
  else if hs.isEmpty then s.modTherm cl fun th => { th with sinceOffset := 0 }
  else
    let mean := F32.ofRat (hs.sum < 0) hs.sum.natAbs (16 * hs.length)
    let diff := F32.sub mean th.tModel
    let ten := F32.ofNat 10
    let o := F32.add th.o (F32.scaleDown diff 3 false)
    let o := if F32.lt ten o then ten else if F32.lt o (F32.flip ten) then F32.flip ten else o
    let s := s.modTherm cl fun th => { th with o := o, sinceOffset := 0 }
    let left := F32.sub diff (F32.sub o th.o)
    if F32.abs o = ten ∧ F32.lt (F32.ofNat 8) (F32.abs left) then s.raiseAt (cl / 8) 82 false (atCluster cl) [] else s

/-! ### Thermal states (R409 to R414) -/

/-- R410: in service. -/
def Dev.inService (s : Dev) (ch : Nat) : Bool := s.fltState ch = 0 && s.chReady ch && s.ctxs.any fun e => e.2.pat.isSome

/-- Whether the predicted time to SD is at most `ms` milliseconds (R414): (SD − T) · k · period ≤ ms · (T − T_old), for a rise. -/
def predictedWithin (sd : Nat) (hist : List F32) (ns ms : Nat) : Bool :=
  match hist with
  | [] => false
  | t :: _ =>
    let k := hist.length - 1
    let old := nth t hist k
    let rise := Fr.sub (Fr.ofF t) (Fr.ofF old)
    k > 0 && Fr.lt (Fr.ofNat 0) rise
      && Fr.le (Fr.mul (Fr.sub (Fr.ofNat sd) (Fr.ofF t)) (Fr.ofNat (k * ns))) (Fr.mul (Fr.ofNat (ms * 1000000)) rise)

/-- R410: the first transition that applies. -/
def thermNext (warn thr sd : Nat) (t : F32) (tsd : F32) (soon serving : Bool) (th : Therm) : ThState :=
  let ge (x : F32) (n : Nat) : Bool := F32.le (F32.ofNat n) x
  if th.state ≠ .shutdown ∧ (ge tsd sd ∨ soon) then .shutdown
  else match th.state with
    | .nominal => if ge t thr then (if serving then .asked else .enforced) else if ge t warn then .warning else .nominal
    | .warning => if ge t thr then (if serving then .asked else .enforced) else if ge t (warn - 5) then .warning else .nominal
    | .asked => if th.graceEnded && ge t (thr - 5) then .enforced else if ge t (thr - 5) then .asked else .warning
    | .enforced => if ge t (thr - 5) then .enforced else .warning
    | .shutdown => .shutdown

/-- The cut an entry to THROTTLE_ENFORCED in service starts from the steps given, or goes on with (R412). -/
def startCut (th : Therm) (steps : List Nat) : Option Cut :=
  match th.cut with
  | some c => some { c with lifting := false }
  | none => let b := steps.sum; some ⟨max 1 (3 * b / 256), b, false⟩

/-- A hard stop: THERMTRIP at HALT, and THERMTRIP_N asserted until a power-on reset (R416). -/
def Dev.hardStop (s : Dev) (ch : Nat) : Dev :=
  if (s.chan ch).tripped then s
  else
    let s := s.modChan ch fun c => { c with tripped := true, orderly := false, stopCkpt := false }
    { s with thermtrip := true }.raise ch 85

/-- The SHUTDOWN rule's stop of the whole channel: hard, or orderly (R414, R415). -/
def Dev.thermStop (s : Dev) (ch : Nat) (hard : Bool) : Dev :=
  if hard then s.hardStop ch
  else if (s.chan ch).tripped then s
  else s.modChan ch fun c => { c with orderly := true }

/-- What a change of a cluster's thermal state brings: the record, THERMAL on a rise, counts, the grace time, THROTTLE, the cut or
the slower clock, and its lifting (R410 to R413, R426). -/
def Dev.thermEnter (s : Dev) (cl : Nat) (st : ThState) (serving : Bool) : Dev :=
  let ch := cl / 8
  let th := s.therm cl
  let s := s.modTherm cl fun th => { th with state := st }
  let s := s.record ch ⟨0x110, 3, 127, cl % 8, false, false, [cl % 8, st.code] ++ (toBytes 2 (t16Of th.tCl)).map BitVec.toNat⟩
  let s := if st.code > th.state.code then s.monTrigger cl 1 else s
  let worst := ((List.range 8).map fun i => if ch * 8 + i = cl then th.state.code else (s.therm (ch * 8 + i)).state.code).foldl max 0
  let s := if st.code > worst then s.raiseIbi ch 2 st.code (cl % 8) (s.lastSeq ch) else s
  match st with
  | .asked =>
    let s := s.modTherm cl fun th => { th with grace := max 1 (s.inForce .thmCh ch 0 Off.THM_GRACE 23 0), graceEnded := false }
    s.bump .thmCh ch 0 Off.THM_ASK 1
  | .enforced =>
    let s := s.modTherm cl fun th => if serving then { th with cut := startCut th th.steps, tick := 0 }
      else { th with clock := max 1 th.clock, clockT := th.tCl, tick := 0 }
    (s.bump .thmCh ch 0 Off.THM_ENF 1).raiseAt ch 83 false (atCluster cl) []
  | .warning => if th.state.code > 1 then s.modTherm cl fun th => { th with cut := th.cut.map fun c => { c with lifting := true }, tick := 0 } else s
  | _ => s

/-- Whether a state change sends the message of ASK_IRQ_EN (R411). -/
def asksHost (old new : ThState) : Bool :=
  old ≠ new && (new.code ≥ 2 || (new = .warning && old.code > 1))

/-- One step of lifting: L rises by one until it reaches B0 (R27, R412). -/
def liftCut (c : Cut) : Option Cut := if 64 * (c.l + 1) ≥ c.sum then none else some { c with l := c.l + 1 }

/-- Boundary step 6 of one cluster (R16, R405 to R414): model, values, transition; whether it asks for a message and how it stops. -/
def Dev.thermCluster (s : Dev) (cl ns : Nat) (pCl pCh : F32) : Dev × Bool × Nat :=
  let ch := cl / 8
  let lims := s.thmLims ch
  let serving := s.inService ch
  let s := s.modTherm cl fun th => thermModel (fun i => Config.thermal cl i) ns (s.tIn ch) pCl pCh th
  let th := s.therm cl
  let dv := s.diodeValues cl
  let tsd := dv.1.foldl F32.max th.tModel
  let tcl := if dv.2 then F32.max tsd (F32.ofNat lims.2.1) else tsd
  let hist := (tsd :: th.hist).take 65
  let lead := max 21 (s.inForce .thmCh ch 0 Off.THM_SD 15 0)
  let soon := predictedWithin lims.2.2 hist ns lead
  let s := s.modTherm cl fun th => { th with
    tCl := tcl, hist := hist, histCl := (tcl :: th.histCl).take 65, sinceOffset := th.sinceOffset + 1,
    grace := th.grace - 1, tick := th.tick + 1 }
  let th := s.therm cl
  let st := thermNext lims.1 lims.2.1 lims.2.2 tcl tsd soon serving th
  let stop := if F32.le (F32.ofNat lims.2.2) tsd || predictedWithin lims.2.2 hist ns 20 then 2
    else if st = .shutdown ∧ th.state ≠ .shutdown then 1 else 0
  let s' := if st ≠ th.state then s.thermEnter cl st serving
    else if st = .enforced then
      -- a cluster that leaves service enforces by its clock, one that comes back into it by a cut (R412, R413)
      if serving ∧ th.cut.isNone then s.modTherm cl fun th => { th with clock := 0, cut := startCut th th.served, tick := 0 }
      else if !serving ∧ th.clock = 0 then s.modTherm cl fun th => { th with clock := 1, clockT := th.tCl, tick := 0 }
      else s
    else s.modTherm cl fun th => { th with cut := match th.cut with
        | some c => if c.lifting then liftCut c else some c
        | none => none }
  (if serving then s'.modTherm cl fun th => { th with served := th.steps } else s', asksHost th.state st, stop)

/-- Boundary step 6 of a channel (R16, R405 to R415). -/
def Dev.thermChannel (s : Dev) (ch ns : Nat) : Dev :=
  let cls := (List.range 8).map (ch * 8 + ·)
  let s := cls.foldl (fun s cl => s.modClus cl fun c => { c with meters := c.meters.map Meter.close }) s
  let pw (cl : Nat) : F32 := railPower (s.clus cl).meters
  let pCh := cls.foldl (fun a cl => F32.add a (pw cl)) 0#32
  let was := (s.chan ch).orderly
  let r := cls.foldl (fun (acc : Dev × Bool × Nat × Bool) cl =>
    let old := (acc.1.therm cl).state
    let x := acc.1.thermCluster cl ns (pw cl) pCh
    let entered := old ≠ .shutdown && (x.1.therm cl).state = .shutdown
    -- a stop starts on entry to SHUTDOWN; an orderly one turns hard for any cluster (R415)
    (x.1, acc.2.1 || x.2.1, max acc.2.2.1 (if entered || was then x.2.2 else 0), acc.2.2.2 || entered)) (s, false, 0, false)
  let s := r.1
  let s := s.bump .thmCh ch 0 Off.THM_CUTPL (cls.filter fun cl => (s.therm cl).cut.isSome).length
  let s := s.bump .thmCh ch 0 Off.THM_SLOWPL (cls.any fun cl => (s.therm cl).clock > 0).toNat
  let s := if r.2.2.1 = 2 then s.thermStop ch true else if r.2.2.2 then s.thermStop ch false else s
  if r.2.1 ∧ s.inForce .thmCh ch 0 Off.THM_CTL 2 2 = 1 then s.emit (.msix 0 (s.inForce .thmCh ch 0 Off.THM_CTL 13 3)) else s

/-- THROTTLE_GRACE_EXPIRE: the grace time of an ask ends, in its last plank or later (R411). -/
def Dev.graceEnd (s : Dev) (cl : Nat) : Dev :=
  let th := s.therm cl
  if th.state = .asked ∧ th.grace ≤ 1 then s.modTherm cl fun th => { th with graceEnded := true } else s

/-- Whether T_cl is not below its value 64 boundaries earlier (R412). -/
def notCooler (th : Therm) : Bool :=
  match th.histCl with
  | [] => true
  | t :: _ => F32.le (nth t th.histCl 64) t

/-- THROTTLE_TIGHTEN: every 64 planks an enforced cut tightens unless the cluster has cooled (R412). -/
def Dev.tighten (s : Dev) (cl : Nat) : Dev :=
  let th := s.therm cl
  match th.cut with
  | some c =>
    if th.state = .enforced ∧ th.tick ≥ 64 then
      s.modTherm cl fun th => { th with tick := 0, cut := some (if notCooler th then { c with l := max (max 1 (c.sum / 512)) (3 * c.l / 4) } else c) }
    else s
  | none => s

/-- CLOCK_SLOW_STEP: after 64 planks an enforced cluster out of service slows further unless it has cooled; after the return to
WARNING the clock steps back one stage (R413). -/
def Dev.clockStep (s : Dev) (cl : Nat) : Dev :=
  let th := s.therm cl
  if th.tick < 64 ∨ th.clock = 0 then s
  else if th.state = .enforced then
    s.modTherm cl fun th => { th with tick := 0, clock := if F32.lt th.tCl th.clockT then th.clock else 2, clockT := th.tCl }
  else if th.state.code ≤ 1 then s.modTherm cl fun th => { th with tick := 0, clock := th.clock - 1 }
  else s


/-- A channel that leaves CONTAINED with a divided clock runs at full rate again from the exit boundary (R413). -/
def Dev.clockBack (s : Dev) (ch : Nat) : Dev :=
  (List.range 8).foldl (fun s cl => s.modTherm (ch * 8 + cl) fun th => { th with clock := 0 }) s

/-- Forgets the thermal states of a channel: the model starts afresh and broken diodes count again (R405, R407, R414, R466). -/
def Dev.clearTherm (s : Dev) (ch : Nat) : Dev :=
  let s := (List.range 8).foldl (fun s cl => s.modTherm (ch * 8 + cl) fun _ => Therm.fresh) s
  (s.modChan ch fun c => { c with orderly := false, stopCkpt := false, cap := CapCut.fresh }).wr .thmCh ch 0 Off.THM_SBAD 0

/-! ### The power cap (R27) -/

/-- The cap in force, in W: 1,200 to 2,800 (R27, R479). -/
def Dev.capWatts (s : Dev) : Nat := 50 * s.inForce .pwrMod 0 0 Off.PWR_MOD_CAP 5 0

/-- Mean VIN power over the last 64 planks, as a fraction in mW; before 64 have run, over those that have (DESIGN CHOICE: R27 names 64
planks only). -/
def Dev.vinMean (s : Dev) : Fr := ⟨(s.vinHist.sum : Nat), max 1 s.vinHist.length⟩

/-- The cut of one channel when the mean P exceeds the cap C, both in mW; B0 is over 64 planks (R27). -/
def capCut (c : CapCut) (p : Fr) (capMw : Nat) : CapCut :=
  let scale (n d : Nat) : Nat := (n * capMw * p.den) / (max 1 (d * p.num.toNat))
  match c.cut with
  | none => let b := c.steps.sum; { c with cut := some ⟨max 1 (scale b 64), b, false⟩ }
  | some k => { c with cut := some { k with l := max (max 1 (k.sum / 512)) (scale k.l 1), lifting := false } }

/-- The power-cap decisions of a boundary, for the whole module (R16 step 6, R27). A plank in which the VIN meter gave no sample counts with
the power of the plank before it (DESIGN CHOICE: R27 and R404 let no such plank be). -/
def Dev.capBoundary (s : Dev) : Dev :=
  let m := s.vinMeter
  let mw := if m.n = 0 then s.vinHist.headD 0 else m.amps * m.volts / (m.n * m.n) / 1000
  let s := if m.n = 0 then s else s.wrF .pwrMod 0 0 Off.PWR_MOD_VIN 12 0 (min 8191 (m.volts / (10 * m.n)))
  let s := { s with vinMeter := { m with n := 0, amps := 0, volts := 0 }, vinHist := (mw :: s.vinHist).take 64 }
  let p := s.vinMean
  let cap := s.capWatts * 1000
  let modAll (s : Dev) (f : CapCut → CapCut) : Dev := allCh.foldl (fun s ch => s.modChan ch.val fun c => { c with cap := f c.cap }) s
  let s :=
    if Fr.lt (Fr.ofNat cap) p then modAll { s with vinLow := 0 } fun c => capCut c p cap
    else
      let s := { s with vinLow := if Fr.lt (Fr.mul (Fr.ofNat 20) p) (Fr.ofNat (19 * cap)) then s.vinLow + 1 else 0 }
      if s.vinLow ≥ 64 then modAll s fun c => { c with cut := c.cut.bind liftCut } else s
  let cutting := allCh.any fun ch => match (s.chan ch.val).cap.cut with | some k => 64 * k.l < k.sum | none => false
  s.bump .pwrMod 0 0 Off.PWR_CAPCUT cutting.toNat

/-! ### Status words -/

/-- Status words of a MON page (R425). -/
def Dev.monView (s : Dev) (cl o : Nat) : Option Word :=
  if o = Off.MON_STA then
    let m := (s.clus cl).mon
    let slot := match m.inj with | some (_, i) => i | none => m.slot
    some (BitVec.ofNat 32 (slot + m.inj.isSome.toNat * 16 + m.lastInj * 32 + m.ovlSeen.toNat * 128 + m.passes * 256))
  else none

/-- Highest diode value of a cluster, hot ones at the threshold in force (R408, R427). -/
def Dev.highDiode (s : Dev) (cl : Nat) : F32 :=
  let dv := s.diodeValues cl
  let vs := dv.1 ++ (if dv.2 then [F32.ofNat (s.thmLims (cl / 8)).2.1] else [])
  vs.foldl F32.max (vs.headD 0#32)

/-- L × 256 / B0, 256 when there is no cut (R427). -/
def cutRatio (c : Option Cut) : Nat :=
  match c with
  | none => 256
  | some c => if c.sum = 0 then 256 else min 511 (c.l * 256 * 64 / c.sum)

/-- Status words of a THM_CH page (R427); the ratio reads 0, the word's reset value, until the model first runs. -/
def Dev.thmView (s : Dev) (ch o : Nat) : Option Word :=
  let cls := (List.range 8).map (ch * 8 + ·)
  if o = Off.THM_CH_STA then
    some (BitVec.ofNat 32 ((cls.map fun cl => (s.therm cl).state.code).foldl max 0
      + (cls.map fun cl => (s.therm cl).clock).foldl max 0 * 8 + (s.chan ch).tripped.toNat * 32))
  else if Off.THM_CL ≤ o ∧ o < Off.THM_CL + 32 then
    let th := s.therm (ch * 8 + (o - Off.THM_CL) / 4)
    some (BitVec.ofNat 32 (t16Of th.tCl + th.state.code * 2 ^ 16 + (if th.started then cutRatio th.cut else 0) * 2 ^ 19))
  else if Off.THM_MOD ≤ o ∧ o < Off.THM_MOD + 32 then
    let cl := ch * 8 + (o - Off.THM_MOD) / 4
    some (BitVec.ofNat 32 (t16Of (s.therm cl).tModel + t16Of (s.highDiode cl) * 65536))
  else none

/-- THM_LIM as a write leaves it: applied only within the limits of R409. -/
def limOk (v : Word) : Bool :=
  let w := fld v 7 0; let t := fld v 15 8; let d := fld v 23 16
  60 ≤ w && w + 5 ≤ t && t + 5 ≤ d && d ≤ 115

end Sys2Proof.Machine
end

