-- ==== Sys2Proof/Machine/Fallback.lean ====
section
/-! DEFINITION. Layer executions and the fallback ladder (R126 to R131), the storm rule and wide mode (R132 to R135). -/

namespace Sys2Proof.Machine
open Sys2Proof

def Dev.execOf (s : Dev) (c id : Nat) : Option Exec := (s.core c).execs.find? fun e => e.id = id
def Dev.modExec (s : Dev) (c id : Nat) (f : Exec → Exec) : Dev :=
  s.modCore c fun x => { x with execs := x.execs.map fun e => if e.id = id then f e else e }

/-- The counters of an execution at its format. -/
def fmtCount (e : Exec) (f : Nat) : FmtCount := nth ⟨0, 0, false, [], []⟩ e.counts f

/-- R127: whether counters over n_elem elements show trouble. -/
def inTrouble (ovf : Bool) (sat zer nElem satLim zerLim : Nat) : Bool :=
  ovf || sat * 65536 > satLim * nElem || zer * 65536 > zerLim * nElem

/-- Trouble of an execution at its format, converter saturations of first reads included (R127). -/
def execTrouble (e : Exec) (l : Layer) : Bool :=
  let c := fmtCount e e.fmt
  inTrouble (e.ovf || c.ovf) (c.sat + e.convSat) c.zer e.nElem l.satLim l.zerLim

/-- The narrowest wider format whose input counters are clear, or A8 (R128). -/
def narrowestClear (e : Exec) (l : Layer) : Nat :=
  let clear (f : Nat) : Bool := let c := fmtCount e f; !inTrouble c.ovf c.sat c.zer e.nElem l.satLim l.zerLim
  if e.fmt = 0 && clear 1 then 1 else 2

/-- The accumulation groups that wait for an execution's late decision (R129, R141). -/
def Dev.execGroups (s : Dev) (c id : Nat) : List Nat :=
  ((s.core c).groups.filter fun g => g.2.exec = id && g.2.src = 0 && g.2.state ≠ .free).map (·.1)

/-- Drops the MVMs of an execution from the tiles that serve its core; queued re-reads are cancelled and not counted (R86). -/
def Dev.dropMvms (s : Dev) (c id : Nat) : Dev :=
  { s with tiles := s.tiles.mapV' Tile.reset fun k t =>
      if s.tileServes k = c then { t with mvms := t.mvms.filter fun m => m.d.exec ≠ id || m.transpose } else t }

/-- Releases the groups of an accepted execution, and forgets the execution once none of them is open or held (R129). -/
def Dev.settleExec (s : Dev) (c id : Nat) : Dev :=
  match s.execOf c id with
  | none => s
  | some e =>
    if !e.accepted then s
    else
      let s := (s.execGroups c id).foldl (fun s g => s.releaseGroup c g) s
      if (s.execGroups c id).isEmpty then
        s.modCore c fun x => { x with execs := x.execs.filter fun x => x.id ≠ id }
      else s

/-- Accepts an execution at its current format (R128). -/
def Dev.acceptExec (s : Dev) (c id : Nat) : Dev := (s.modExec c id fun e => { e with accepted := true }).settleExec c id

/-- Counts the elements an execution uses at a format (R139). -/
def Dev.countElems (s : Dev) (c : Nat) (e : Exec) : Dev :=
  let k := fmtCount e e.fmt
  let up (s : Dev) (o n : Nat) : Dev := s.bump .ful (coreCh c) (coreIn c) o n
  up (up (up s Off.FUL_QEL e.nElem) Off.FUL_SAT k.sat) Off.FUL_ZER k.zer

/-- Counts a layer execution and its elements (R139). -/
def Dev.countQuant (s : Dev) (c : Nat) (e : Exec) : Dev := (s.countElems c e).bump .ful (coreCh c) (coreIn c) Off.FUL_EXEC 1

/-- FB_FINAL: trouble accepted at A8, counted and recorded; an overflow accepted there is counted too (R99, R131). -/
def Dev.fbFinal (s : Dev) (c : Nat) (e : Exec) : Dev :=
  let ch := coreCh c
  let s := s.bump .ful ch (coreIn c) Off.FUL_FINAL 1
  let s := s.record ch ⟨0x121, 4, 127, coreIn c / 8, false, false, [e.layer % 256, e.layer / 256, coreIn c / 8]⟩
  if e.ovf || (fmtCount e 2).ovf then
    (s.bump .pnc ch (coreIn c) Off.PNC_CLIP 1).record ch
      ⟨0x122, 4, 127, coreIn c / 8, false, false, [e.layer % 256, e.layer / 256, coreIn c / 8]⟩
  else s

/-- Declares a storm in a cluster: counted, STORM raised, and repeats decided but not yet issued are cancelled, their held results
accepted (R132, R133). -/
def Dev.declareStorm (s : Dev) (cl : Nat) : Dev :=
  let ch := cl / 8
  let s := s.modClus cl fun x => { x with storm := { x.storm with now := true } }
  let s := s.bump .fulCh ch 0 Off.FUL_STORMS 1
  let s := s.raiseAt ch 24 false (.tile (Fin.ofNat 8 (cl % 8)) 0) []
  (List.range 8).foldl (fun s co =>
    let c := cl * 8 + co
    ((s.core c).execs.filter fun e => e.repeated && e.issued = 0 && !e.accepted).foldl (fun s e =>
      let s := e.snap.foldl (fun s p => s.modGroup c p.1 fun _ => p.2) s
      let s := e.snapMvms.foldl (fun s p => s.modTile p.1 fun t => { t with mvms := t.mvms ++ [p.2] }) s
      let s := s.bump .ful ch (coreIn c) Off.FUL_SKIP 1
      s.acceptExec c e.id) s) s

/-- An execution found in trouble asks for fallback, once per plank; the ask that crosses STORM_FRAC × P declares a storm (R132). -/
def Dev.askFallback (s : Dev) (c id : Nat) : Dev :=
  match s.execOf c id with
  | none => s
  | some e =>
    let cl := c / 8
    let ch := coreCh c
    if e.asked then s
    else
      let s := s.modExec c id fun e => { e with asked := true }
      let s := s.modClus cl fun x => { x with storm := { x.storm with asks := x.storm.asks + 1 } }
      let st := (s.clus cl).storm
      if s.inForce .fulCh ch 0 Off.FUL_CTL 2 2 = 1 ∧ ¬ st.wide ∧ ¬ st.now
          ∧ st.asks * 64 > s.inForce .fulCh ch 0 Off.FUL_STORM 6 0 * st.planned then s.declareStorm cl
      else s

/-- Repeats an execution one rung wider: held results and queued re-reads are discarded, its groups reopen, and the raised gain
code applies when converter saturation occurred (R42, R129, R130). -/
def Dev.repeatExec (s : Dev) (c id : Nat) (e : Exec) : Dev :=
  let ch := coreCh c
  let f := min 2 (e.fmt + 1)
  let gu := if e.anySat && s.inForce .arr ch (coreIn c) Off.ARR_CTL 2 2 = 1 then e.gainUp + 1 else e.gainUp
  let gs := s.execGroups c id
  let snap := gs.map fun g => (g, s.group c g)
  let left := (s.tiles.map fun t => if s.tileServes t.1 = c then
    (t.2.mvms.filter fun m => m.d.exec = id && !m.transpose).map fun m => (t.1, m) else []).flatten
  let s := s.dropMvms c id
  let s := gs.foldl (fun s g => s.reopenGroup c g) s
  let e' := { e with fmt := f, gainUp := gu, convSat := 0, anySat := false, ovf := false, seen := 0, issued := 0,
                     repeated := true, snap := snap, snapMvms := left }
  let s := s.modExec c id fun _ => e'
  let s := s.bump .ful ch (coreIn c) (if f = 1 then Off.FUL_FB6 else Off.FUL_FB8) 1
  s.countQuant c e'

/-- An execution found in trouble at A8 counts for the renewal of wide mode, once per plank (R135). -/
def Dev.countBad8 (s : Dev) (c id : Nat) : Dev :=
  match s.execOf c id with
  | some e => if e.bad8 then s
    else (s.modExec c id fun e => { e with bad8 := true }).modClus (c / 8) fun x => { x with storm := { x.storm with trouble8 := x.storm.trouble8 + 1 } }
  | none => s

/-- The decision on an execution, early or late (R128 to R133). -/
def Dev.decideExec (s : Dev) (c id : Nat) (early : Bool) : Dev :=
  match s.execOf c id with
  | none => s
  | some e =>
    match s.layerOf e.ctx e.layer with
    | none => if early then s else s.acceptExec c id
    | some l =>
      let ch := coreCh c
      let trouble := execTrouble e l
      let s := if trouble && e.fmt = 2 then s.countBad8 c id else s
      if !trouble || s.inForce .fulCh ch 0 Off.FUL_CTL 0 0 = 0 then (if early then s else s.acceptExec c id)
      else
        let s := s.askFallback c id
        if e.fmt = 2 then
          -- trouble at A8 found early is final once; the late decision accepts the results
          if early then s else (s.fbFinal c e).acceptExec c id
        else if (s.clus (c / 8)).storm.now then
          if early then s else (s.bump .ful ch (coreIn c) Off.FUL_SKIP 1).acceptExec c id
        else if early then
          let f := narrowestClear e l
          let s := s.modExec c id fun e => { e with fmt := f }
          (s.bump .ful ch (coreIn c) (if f = 1 then Off.FUL_FB6 else Off.FUL_FB8) 1).bump .ful ch (coreIn c) Off.FUL_EARLY 1
        else s.repeatExec c id e

/-- The sums of a first read of an execution's MVM have arrived: its saturations join the counters, and the last one brings the
late decision (R41, R127, R128). -/
def Dev.firstRead (s : Dev) (c : Nat) (m : Mvm) : Dev :=
  let id := m.d.exec
  match s.execOf c id with
  | none => s
  | some e =>
    if e.accepted then s
    else
      let fb := s.inForce .arr (coreCh c) (coreIn c) Off.ARR_CTL 4 4 = 1
      let s := s.modExec c id fun e => { e with
        seen := e.seen + 1, convSat := e.convSat + (if fb then m.sat else 0), anySat := e.anySat || m.sat > 0 }
      if e.seen + 1 ≥ e.mvms then s.decideExec c id false else s

/-- Blocks of a layer that an execution of a core reads: those with a tile of the core (R126). -/
def blocksOn (l : Layer) (c : Nat) : List Block := l.blocks.filter fun b => b.tiles.any fun k => tileCore k = c

/-- The ranges of a vector that blocks take, each once, with the format of each: IN_FMT or the execution's where that is wider; for
transpose inputs the blocks' columns at T_FMT (R95, R112, R123). -/
def rangesOf (bs : List Block) (transpose : Bool) (f : Nat) : List (Nat × Nat × Nat) :=
  (bs.map fun b => if transpose then (b.col0, b.cspan, b.tFmt) else (b.row0, b.rspan, max b.inFmt f)).eraseDups

/-- A range of a vector quantised at its format: elements in order, and whether more outliers qualified than CAP (R95, R109 to R111). -/
def quantRange (l : Layer) (cap : Nat) (x : List F32) (r : Nat × Nat × Nat) : List QElem × Bool :=
  let b := fmtBits r.2.2
  quantSlice b l.outMul cap (inScaleOf l.inScale b) ((x.drop r.1).take r.2.1)

/-- The codes and served outliers of a quantised range (R96, R110, R113). -/
def partOf (r : Nat × Nat × Nat) (q : List QElem × Bool) : QPart :=
  ⟨r.1, r.2.1, r.2.2, ⟨q.1.map (·.code), (q.1.zipIdx.filter fun e => e.1.cls = .served).map fun e => (e.2, e.1.v)⟩, q.2⟩

/-- The class of every element of a vector of n, each counted once: of ranges that overlap the first one counts (R112); none outside
every range. -/
def classesOf (n : Nat) (rs : List ((Nat × Nat × Nat) × List QElem)) : List (Option QClass) :=
  (List.range n).map fun i => (rs.find? fun r => r.1.1 ≤ i && i < r.1.1 + r.1.2.1).bind fun r => (r.2[i - r.1.1]?).map (·.cls)

/-- SAT and ZER of each 32-element block aligned to index 0 (R111). -/
def blockCounts (cs : List (Option QClass)) : List (BitVec 6 × BitVec 6) :=
  (List.range (ceilDiv cs.length 32)).map fun i =>
    let b := (cs.drop (32 * i)).take 32
    (BitVec.ofNat 6 (b.countP fun c => c = some .saturated), BitVec.ofNat 6 (b.countP fun c => c = some .zeroed))

/-- Counters and held codes of one vector at one format of the execution (R95, R110 to R113). -/
def quantVector (l : Layer) (bs : List Block) (transpose : Bool) (cap f : Nat) (x : List F32) : FmtCount :=
  let qs := (rangesOf bs transpose f).map fun r => (r, quantRange l cap x r)
  let blks := blockCounts (classesOf x.length (qs.map fun q => (q.1, q.2.1)))
  ⟨(blks.map fun b => b.1.toNat).sum, (blks.map fun b => b.2.toNat).sum, qs.any fun q => q.2.2, [blks], [qs.map fun q => partOf q.1 q.2]⟩

/-- Sums the counters of two vectors. -/
def addCounts (a b : FmtCount) : FmtCount := ⟨a.sat + b.sat, a.zer + b.zer, a.ovf || b.ovf, a.blocks ++ b.blocks, a.parts ++ b.parts⟩

/-- Elements that an execution quantises of a vector of n: those in some range of its blocks (R112, R127). -/
def elemsOf (n : Nat) (rs : List (Nat × Nat × Nat)) : Nat :=
  ((List.range n).filter fun i => rs.any fun r => r.1 ≤ i && i < r.1 + r.2.1).length

/-- The execution that a request makes, counted at its format and at every wider one (R113). It starts at the narrowest IN_FMT of its
blocks, or at A8 in wide mode; a block with a wider IN_FMT runs at that (DESIGN CHOICE: R32 gives IN_FMT per slice, R130 per layer). -/
def newExec (l : Layer) (c cap : Nat) (wide : Bool) (q : ExecReq) : Exec :=
  let bs := blocksOn l c
  let f0 := if q.transpose then 0 else if wide then 2 else (bs.map (·.inFmt)).foldl min 2
  let xs := q.xs.map (rotate l.rotE l.rotSeed)
  let count (f : Nat) : FmtCount :=
    if f < f0 then ⟨0, 0, false, [], []⟩ else xs.foldl (fun acc x => addCounts acc (quantVector l bs q.transpose cap f x)) ⟨0, 0, false, [], []⟩
  ⟨q.exec, q.transpose, q.ctx.val, q.layer, q.seq, f0, 0, xs, (xs.map fun x => elemsOf x.length (rangesOf bs q.transpose f0)).sum,
    [count 0, count 1, count 2], 0, false, false, ((bs.map fun b => b.tiles.countP fun k => tileCore k = c).sum) * xs.length, 0,
    false, false, q.transpose, false, 0, [], []⟩

/-- FULLER_QUANTISE_DONE: the fuller has rotated and quantised every vector of an execution at its format and each wider one; the
early decision follows (R109 to R113, R121 to R128). Inputs of transpose reads only join the core's counters (R123). -/
def Dev.quantiseDone (s : Dev) (c : Nat) (q : ExecReq) : Dev :=
  match s.layerOf q.ctx.val q.layer with
  | none => s
  | some l =>
    let ch := coreCh c
    let e := newExec l c (s.rdF .pnc ch (coreIn c) Off.PNC_CTL 5 0) (s.clus (c / 8)).storm.wide q
    let s := s.modCore c fun x => { x with execs := (x.execs.filter fun y => y.id ≠ q.exec) ++ [e] }
    let s := s.bump .ful ch (coreIn c) Off.FUL_ROT q.xs.length
    if q.transpose then s.countElems c e
    else
      let s := if s.inForce .fulCh ch 0 Off.FUL_CTL 1 1 = 1 then s.decideExec c q.exec true else s
      match s.execOf c q.exec with
      | some e => s.countQuant c e
      | none => s

/-- Before the settings of a new plank take effect: whether the plank that ends had too many executions in trouble at A8 (R135, R136). -/
def Dev.stormEnd (s : Dev) (cl : Nat) : Dev :=
  let st := (s.clus cl).storm
  if st.wide && decide (st.trouble8 * 64 > s.inForce .fulCh (cl / 8) 0 Off.FUL_STORM 6 0 * st.planned) then
    s.modClus cl fun x => { x with storm := { x.storm with renew := true } }
  else s

/-- Whether a cluster's first reads failed too often in the plank that ends (R87). -/
def confStormed (st : Storm) : Bool := st.firstFail * 16 > st.checked

/-- The boundary's part of the storm rule in one cluster, before the plan: the hold counts down, wide mode starts at the first boundary
after a storm, a hold in which too many executions were in trouble restarts, and the plank's counts start afresh (R132, R134, R135). The
injected sequence of a confidence storm starts where the plank's first reads failed too often (R87). -/
def Dev.stormBoundary (s : Dev) (cl : Nat) : Dev :=
  let ch := cl / 8
  let st := (s.clus cl).storm
  let hold := max 1 (s.inForce .fulCh ch 0 Off.FUL_STORM 27 16)
  let s := if st.renew then (s.bump .fulCh ch 0 Off.FUL_RENEW 1).raiseAt ch 25 false (.tile (Fin.ofNat 8 (cl % 8)) 0) [] else s
  let (wide, left) :=
    if st.renew then (true, hold)
    else if st.wide then (decide (st.left > 1) && !st.ended, if st.ended then 0 else st.left - 1)
    else if st.now then (true, hold)
    else (false, 0)
  let s := if wide then s.bump .fulCh ch 0 Off.FUL_WIDE 1 else s
  let s := s.modClus cl fun x => { x with storm := { Storm.fresh with wide := wide, left := left } }
  let s := (List.range 8).foldl (fun s co => s.modCore (cl * 8 + co) fun x =>
    if x.execs.isEmpty then x else { x with execs := x.execs.map fun e => { e with asked := false, bad8 := false } }) s
  if confStormed st then s.monTrigger cl 0 else s

/-- WIDE_MODE_HOLD_END: STORM_HOLD has run out; the cluster returns at the next boundary to each layer's formats (R135). -/
def Dev.holdEnd (s : Dev) (cl : Nat) : Dev :=
  let st := (s.clus cl).storm
  if st.wide && decide (st.left ≤ 1) then s.modClus cl fun x => { x with storm := { x.storm with ended := true } } else s

end Sys2Proof.Machine
end

