-- ==== Sys2Proof/Machine/Array.lean ====
section
/-! DEFINITION. The array and correction families: MVMs and transpose reads (R28 to R56), the correction path (R67 to R87, R93),
persistence and localisation (R88 to R92), drift tracking (R72 to R78), and shadow replay (R100 to R103). -/

namespace Sys2Proof.Machine
open Sys2Proof

def Dev.pos (_ : Dev) : Nat → Nat := Config.pairPos

/-- Counts converter saturations of a tile: ARR_TCSAT, which stops at its top, and ARR_CSAT (R41, R63). A spare counts under the index
it serves; one in SHADOW serves none, and counts in ARR_CSAT only. -/
def Dev.countSat (s : Dev) (k n : Nat) : Dev :=
  if n = 0 then s
  else
    let t := s.statusIx k
    let c := s.tileServes k
    let o := Off.ARR_TCSAT + 4 * (t % 132 % 16)
    let s := if isSpare t || (s.tile k).state = .shadow then s else
      s.wr .arr (coreCh c) (coreIn c) o (BitVec.ofNat 32 (satAdd 0xFFFFFFFF (s.rd .arr (coreCh c) (coreIn c) o).toNat n))
    s.bump .arr (coreCh c) (coreIn c) Off.ARR_CSAT n

/-- Counts slots, skipped passes and split slots on the core's page (R63). -/
def Dev.countSlots (s : Dev) (k slots skipped extra : Nat) : Dev :=
  let c := s.tileServes k
  let up (s : Dev) (o n : Nat) : Dev := s.bump .arr (coreCh c) (coreIn c) o n
  up (up (up s Off.ARR_SLOT slots) Off.ARR_SKIP skipped) Off.ARR_SPLIT extra

/-- Counts one read's slots on the core's page (R63). -/
def Dev.countRead (s : Dev) (k : Nat) (r : ReadRes) : Dev := s.countSlots k r.slots r.skipped r.extra

/-- How a core's settings have a tile read (R44, R63). -/
def Dev.readHow (s : Dev) (k bits gain : Nat) : ReadHow :=
  let c := s.tileServes k
  ⟨bits, gain, s.inForce .arr (coreCh c) (coreIn c) Off.ARR_CTL 0 0 = 1, s.inForce .arr (coreCh c) (coreIn c) Off.ARR_CTL 1 1 = 1⟩

/-- Keeps an MVM in the tile's re-read buffer, which holds the last four (R67). -/
def pushReread (t : Tile) (m : Mvm) : Tile := { t with reread := (m :: t.reread).take 4 }

/-- Residual entries an input meets with a non-zero row, or column in a transpose read (R97, R98). -/
def resApplied (sl : Slice) (d : MvmIn) (transpose : Bool) : Nat :=
  (sl.res.filter fun e => !F32.isZero (inputOf d (if transpose then e.2.1 else e.1))).length

/-- Whether a core applies weight residuals (PNC_CTL.RES_EN). -/
def Dev.resEn (s : Dev) (c : Nat) : Bool := s.rdF .pnc (coreCh c) (coreIn c) Off.PNC_CTL 6 6 = 1

/-- Whether the pounce unit meets the invalid W5 code on an outlier's row, or column in a transpose read (R119). -/
def w5Bad (sl : Slice) (d : MvmIn) (transpose : Bool) : Bool :=
  sl.w.any fun e => e.2 = -16 && d.outs.any fun o => o.1 = (if transpose then e.1 % 2048 else e.1 / 2048)

/-- Whether the other half of a duplicated pair has the same MVM already, so that its pounce share is computed (R93). -/
def Dev.pairHas (s : Dev) (sl : Slice) (d : MvmDesc) : Bool :=
  match sl.dup with
  | some o => (s.tile (s.serving o)).mvms.any fun x => x.d = d && !x.transpose
  | none => false

/-- The pounce unit starts on an MVM: outlier rows and residual entries served, an overflow counted, an invalid W5 code (R96 to R99,
R107, R119). The share of a duplicated pair is computed once (R93). -/
def Dev.pounceStart (s : Dev) (k : Nat) (sl : Slice) (d : MvmDesc) (q : QPart) (transpose : Bool) : Dev :=
  let c := s.tileServes k
  let up (s : Dev) (o n : Nat) : Dev := s.bump .pnc (coreCh c) (coreIn c) o n
  let s := if s.pairHas sl d then s
    else up (up s Off.PNC_OUT q.inp.outs.length) Off.PNC_RES (if s.resEn c then resApplied sl q.inp transpose else 0)
  let s := up s Off.PNC_OVF (q.ovf && !transpose).toNat
  if w5Bad sl q.inp transpose then s.raise (coreCh c) 18 else s

/-- Whether an MVM leaves nothing to the pounce unit. -/
def noShare (sl : Slice) (q : QPart) (resEn : Bool) : Bool := q.inp.outs.isEmpty && (!resEn || sl.res.isEmpty)

/-- The layer and block of a slice. -/
def Dev.sliceBlock (s : Dev) (t : Tile) (sl : Slice) : Option (Layer × Block) :=
  (s.layerOf (t.ctx.getD 0) sl.layer).bind fun l => (l.blocks[sl.block]?).map fun b => (l, b)

/-- What the plan needs for an MVM and its input: the execution's held codes of the slice's rows, or columns, at the format that the
slice runs at (R113, R126, R130). A slice runs at its own IN_FMT unless the execution is wider. -/
def Dev.heldInput (s : Dev) (t : Tile) (sl : Slice) (c : Nat) (d : MvmDesc) (transpose : Bool) : Option (Exec × QPart) :=
  match s.execOf c d.exec, s.sliceBlock t sl with
  | some e, some (_, b) =>
    let f := if transpose then sl.tFmt else max sl.inFmt e.fmt
    if e.transpose ≠ transpose then none
    else ((nth [] (fmtCount e e.fmt).parts d.vec.val).find? fun p =>
      p.fmt = f && (if transpose then p.lo = b.col0 && p.span = b.cspan else p.lo = b.row0 && p.span = b.rspan)).map fun p => (e, p)
  | _, _ => none

/-- MVMs of a tile that its sequencer runs or holds queued: forward MVMs, transpose reads and re-reads (R50, R86). -/
def queued (t : Tile) : List Mvm := t.mvms.filter fun m => m.phase = .reading || m.phase = .rereading

/-- MVM_DESCRIPTOR: a forward MVM reaches the sequencer of the tile that serves an index (R48, R50, R57). One that finds the queue of
four full is not taken, and one for a slice that a READY tile does not hold is taken as one for a tile not READY (DESIGN CHOICE: the plan
issues neither). Before the fuller has quantised its vectors, no MVM of an execution issues (R113, R128). -/
def Dev.mvmStart (s : Dev) (ix : Nat) (d : MvmDesc) (dev : AnalogDev) : Dev :=
  let k := s.serving ix
  let t := s.tile k
  match t.state, t.slices[d.slice.val]? with
  | .ready, some sl =>
    let c := s.tileServes k
    match s.heldInput t sl c d false with
    | none => s
    | some (e, q) =>
      if (queued t).length ≥ 5 then s
      else
        let bits := fmtBits q.fmt
        let gain := min 7 (sl.gain + e.gainUp)
        let repeated := e.repeated
        let s := s.modExec c d.exec fun e => { e with issued := e.issued + 1 }
        let s := s.pounceStart k sl d q false
        -- the plan counted the slice's own format, or A8 in wide mode (R25); what an early decision adds comes out of the slack
        let planned := planPassesOf sl.rowN sl.rowGroup sl.planPasses * fmtBits (if (s.clus (c / 8)).storm.wide then 2 else sl.inFmt)
        let m : Mvm := ⟨d, q.inp, false, q.inp.codes.all (· = 0), bits, gain, [], 0, 0, 0, 0, false, 1, noShare sl q (s.resEn c), [],
          false, false, t.drift, t.dOff, .reading⟩
        if m.exact then
          -- EXACT (R45): the whole time planned returns to the slack (R66's example)
          let s := s.modTile k fun t => pushReread { t with mvms := t.mvms ++ [m] } m
          (s.bump .arr (coreCh c) (coreIn c) Off.ARR_EXACT 1).giveSlack k (if repeated then 0 else 32 + 64 * planned)
        else
          let r := forwardRead t sl q.inp.codes (s.readHow k bits gain) 0 dev
          let m := { m with sums := r.sums, wOff := r.wOff, pSum := r.pSum, slots := r.slots, sat := r.sat, bandSat := r.bandSat }
          let s := s.modTile k fun t => pushReread { t with mvms := t.mvms ++ [m] } m
          let s := (s.countRead k r).countSat k r.sat
          if repeated then s.takeSlack k (32 + 64 * r.slots) d.seq
          else ((s.giveSlack k (64 * (planned - r.slots))).plannedWork k (32 + 64 * min planned r.slots) d.seq).takeSlack k (64 * (r.slots - planned)) d.seq
  | _, _ => s.raiseTile 12 k

/-- Whether a tile may perform transpose reads (R56). -/
def Dev.transOk (s : Dev) (k : Nat) : Bool :=
  let c := s.tileServes k
  s.inForce .arr (coreCh c) (coreIn c) Off.ARR_CTL 3 3 = 1 && !(s.tile k).transBad

/-- TRANSPOSE_READ: it shares the tile's queue with forward MVMs (R50, R53 to R55). An all-zero y is not read and counts in ARR_TRANS
only (DESIGN CHOICE: R45 speaks of MVM inputs, and ARR_EXACT may or may not take transpose reads in). -/
def Dev.transposeRead (s : Dev) (k : Nat) (t : Tile) (sl : Slice) (d : MvmDesc) (q : QPart) (dev : AnalogDev) : Dev :=
  if (queued t).length ≥ 5 then s
  else
    let c := s.tileServes k
    let bits := fmtBits sl.tFmt
    let s := s.pounceStart k sl d q true
    let planned := ceilDiv sl.colN (max 1 sl.colGroup) * bits
    let zero := q.inp.codes.all (· = 0)
    let r := if zero then ReadRes.empty else transposeReadOf t sl q.inp.codes (s.readHow k bits sl.tGain) dev
    let m : Mvm := ⟨d, q.inp, true, zero, bits, sl.tGain, r.sums, r.wOff, r.pSum, r.slots, 0, false, 1, noShare sl q (s.resEn c), [],
      false, false, t.drift, t.dOff, .reading⟩
    let s := s.modTile k fun t => { t with mvms := t.mvms ++ [m] }
    let s := (s.bump .arr (coreCh c) (coreIn c) Off.ARR_TSAT r.sat).countRead k r
    if zero then s.giveSlack k (32 + 64 * planned)
    else ((s.giveSlack k (64 * r.unread)).plannedWork k (32 + 64 * (r.slots - r.extra)) d.seq).takeSlack k (64 * r.extra) d.seq

/-! ### Results -/

/-- Combined scale of a layer at an execution's format: s_b × W_SCALE, formed once (R126, R140). -/
def combinedScale (l : Layer) (bits : Nat) : F32 := F32.mul (inScaleOf l.inScale bits) l.wScale

/-- A tile with the coefficient set that an MVM's reads use (R75). -/
def withCoef (t : Tile) (m : Mvm) : Tile := { t with drift := m.drift, dOff := m.dOff }

/-- The digital stand-in columns that lie in a slice, if stand-ins are used (R92). -/
def standinCols (t : Tile) (sl : Slice) (digOn : Bool) : List Nat :=
  if digOn then t.digCols.filter fun j => sl.colO ≤ j && j < sl.colO + sl.colN else []

/-- Values of the slice's logical columns from an MVM's sums, before the pounce share; stand-in columns digital (R69, R92). -/
def colValues (pos : Nat → Nat) (t : Tile) (sl : Slice) (m : Mvm) (digOn : Bool) : List F32 :=
  (List.range sl.colN).map fun j =>
    if digOn && t.digCols.contains (sl.colO + j) then digitalColumn sl m.inp.codes j
    else if m.exact then 0#32
    else
      let p := physPair t (sl.colO + j)
      corrected pos (withCoef t m) p m.gain m.reads (m.sums.get 0 p) m.wOff

/-- Values of a transpose read: one per row of the slice, with the row's own gain and offset (R55). -/
def rowValues (t : Tile) (sl : Slice) (m : Mvm) : List F32 :=
  (List.range sl.rowN).map fun i =>
    let r := sl.rowO + i
    if m.exact then 0#32
    else
      let v := m.sums.get 0 r * (codeStep m.gain : Int)
      F32.div (F32.sub (F32.ofInt v) (F32.mul (Store.get 0#32 r t.rowO) (F32.ofInt m.wOff))) (Store.get F32.one r t.rowG)

/-- The pounce share added and the combined scale applied: the leaf's values (R98, R126). -/
def leafValues (sl : Slice) (m : Mvm) (resEn : Bool) (scale : F32) (ys : List F32) : List F32 :=
  (ys.zipIdx).map fun e => F32.mul (F32.add e.1 (if m.transpose then pounceShareT sl m.inp resEn e.2 else pounceShare sl m.inp resEn e.2)) scale

/-- A forward MVM of the cluster's victim passes: one in 2^RATE_LOG2, chosen pseudo-randomly, goes into the shadow buffer (R100). -/
def Dev.shadowSample (s : Dev) (k : Nat) (m : Mvm) : Dev :=
  let cl := tileCl k
  let sh := (s.clus cl).shadow
  if m.transpose || m.exact || !sh.valid || decide (s.statusIx k ≠ cl * 132 + sh.victim) then s
  else
    let n := 2 ^ s.inForce .corCh (cl / 8) 0 Off.COR_SHD_CTL 8 4
    s.modClus cl fun x => { x with shadow := { x.shadow with
      seen := sh.seen + 1, sample := if Config.shadowPick cl sh.seen % n = 0 then some m else sh.sample } }

/-- The leaf that a slice's result makes in its group, and the layer's combined scale (R126, R148). -/
def Dev.leafOf (s : Dev) (k : Nat) (sl : Slice) (m : Mvm) (ys : List F32) : Leaf :=
  let c := s.tileServes k
  match s.sliceBlock (s.tile k) sl with
  | some (l, b) => ⟨leafIx l b c m.transpose, m.d.vec.val, leafValues sl m (s.resEn c) (combinedScale l m.bits) ys,
      if m.transpose then sl.colN else sl.rowN, 1, m.lowConf⟩
  | none => ⟨0, m.d.vec.val, leafValues sl m (s.resEn c) F32.one ys, if m.transpose then sl.colN else sl.rowN, 1, m.lowConf⟩

/-- An MVM's result enters its accumulation group, and its re-read buffer entry is released (R67 step 7). -/
def Dev.deliver (s : Dev) (k : Nat) (sl : Slice) (m : Mvm) (ys : List F32) : Dev :=
  let c := s.tileServes k
  let leaf := s.leafOf k sl m ys
  let s := (s.shadowSample k m).modTile k fun t => { t with
    mvms := t.mvms.erase m, reread := t.reread.filter fun x => decide (x.d ≠ m.d) || x.transpose != m.transpose }
  (s.leafAt c m.d.group.val m.d.epoch.val leaf).settleExec c m.d.exec

/-- Adds an MVM record in place of an old one. -/
def Dev.putMvm (s : Dev) (k : Nat) (old new : Mvm) : Dev :=
  s.modTile k fun t => { t with mvms := t.mvms.map fun m => if m = old then new else m }

/-- A re-read enters the queue directly behind the MVM then running, ahead of every other one (R86). -/
def Dev.queueReread (s : Dev) (k : Nat) (m : Mvm) : Dev :=
  s.modTile k fun t =>
    let l := t.mvms.erase m
    let i := l.findIdx fun x => x.phase = .reading || x.phase = .rereading
    { t with mvms := l.take (i + 1) ++ { m with phase := .rereading } :: l.drop (i + 1) }

/-- Mean of two results (R93). -/
def meanVals (a b : List F32) : List F32 := List.zipWith (fun x y => F32.scaleDown (F32.add x y) 1 false) a b

/-- The other tile's MVM of a duplicated pair, if it still has it (R93, R94). -/
def Dev.dupMvm (s : Dev) (sl : Slice) (m : Mvm) : Option (Nat × Mvm) :=
  sl.dup.bind fun o =>
    let k := s.serving o
    if (s.tile k).state = .ready then ((s.tile k).mvms.find? fun x => x.d = m.d && !x.transpose).map fun x => (k, x)
    else none

/-- A result that stands goes on: it waits for the pounce share if that is not complete (R68). -/
def Dev.passOn (s : Dev) (k : Nat) (sl : Slice) (old m : Mvm) (ys : List F32) : Dev :=
  let m' := { m with vals := ys, phase := .waiting }
  let s := s.putMvm k old m'
  if m'.pounce then s.deliver k sl m' ys else s

/-- Starts a localisation run, which raises BAND_PERSIST (R88, R89). -/
def Dev.startLoc (s : Dev) (k : Nat) : Dev :=
  let t := s.tile k
  let c := s.tileServes k
  if t.loc.isSome then s
  else
    let top := ((t.slices.map (·.massSub)).flatten).foldl max 0
    let gain := ((List.range 8).find? fun g => top ≤ chkLimit g).getD 7
    let s := s.modTile k fun t => { t with window := [], loc := some ⟨[], gain, []⟩ }
    (s.bump .cor (coreCh c) (coreIn c) Off.COR_LOC 1).raiseTile 14 k

/-- Takes a final result into the persistence window (R88). -/
def Dev.persist (s : Dev) (k : Nat) (r : Fr × Fr) (s2 : Fr) : Dev :=
  let c := s.tileServes k
  let ch := coreCh c
  let v := (Fr.div (Fr.add (Fr.sq r.1) (Fr.sq r.2)) (Fr.mul (Fr.ofNat 2) s2)).toF
  let w := 2 ^ s.inForce .corCh ch 0 Off.COR_CONF 19 16
  let s := s.modTile k fun t => { t with window := (v :: t.window).take w }
  let win := (s.tile k).window
  let lim := s.inForce .corCh ch 0 Off.COR_CONF 15 8
  if win.length = w ∧ s.inForce .cor ch (coreIn c) Off.COR_CTL 2 2 = 1
      ∧ Fr.lt ⟨(lim * w : Nat), 16⟩ (Fr.sum (win.map Fr.ofF)) then s.startLoc k
  else s

/-- Whether the cores of a tile use digital stand-in columns (COR_CTL.DIGCOL_EN). -/
def Dev.digOn (s : Dev) (k : Nat) : Bool :=
  let c := s.tileServes k
  s.inForce .cor (coreCh c) (coreIn c) Off.COR_CTL 3 3 = 1

/-- Whether a result has no band check: a band converter saturated, or band checks are off (R82, R106). -/
def Dev.unchecked (s : Dev) (k : Nat) (m : Mvm) : Bool :=
  let c := s.tileServes k
  m.bandSat || s.inForce .cor (coreCh c) (coreIn c) Off.COR_CTL 0 0 = 0

/-- The band residuals of an MVM's reads so far, and their σ² (R80, R81). -/
def Dev.figureOf (s : Dev) (k : Nat) (sl : Slice) (m : Mvm) : (Fr × Fr) × Fr :=
  let t := withCoef (s.tile k) m
  let y (p : Nat) : F32 := corrected s.pos t p m.gain m.reads (m.sums.get 0 p) m.wOff
  let cols := standinCols t sl (s.digOn k)
  let dig (j : Nat) : Option F32 := if cols.contains j then some (digitalColumn sl m.inp.codes (j - sl.colO)) else none
  (bandResiduals y (physPair t) (bandCols t) t.bandK dig,
   sigma2 t.bandN t.bandK m.gain m.pSum (sumSq m.inp.codes) m.reads t.vConv t.vCell)

/-- CONF_LIM in sixteenths and MAX_READS of a slice's layer, as the settings in force have them (R83, R106). -/
def Dev.confOf (s : Dev) (k : Nat) (sl : Slice) : Nat × Nat :=
  let c := s.tileServes k
  let ch := coreCh c
  let def_ := s.inForce .corCh ch 0 Off.COR_CONF 7 0
  let one := s.inForce .cor ch (coreIn c) Off.COR_CTL 1 1 = 0
  match s.layerOf ((s.tile k).ctx.getD 0) sl.layer with
  | some l => (if l.confLim4 = 0 then def_ else l.confLim4 * 4, if one then 1 else l.maxReads)
  | none => (def_, 1)

/-- A half of a duplicated pair ends: its own final result joins its persistence window (R88, R93). -/
def Dev.persistHalf (s : Dev) (k : Nat) (sl : Slice) (m : Mvm) : Dev :=
  if s.unchecked k m then s else let f := s.figureOf k sl m; s.persist k f.1 f.2

/-- Counts an accepted result that is marked LOWCONF (R85). -/
def Dev.countLow (s : Dev) (k : Nat) (low : Bool) : Dev :=
  let c := s.tileServes k
  s.bump .cor (coreCh c) (coreIn c) Off.COR_LOWCONF low.toNat

/-- Both halves of a duplicated pair stand with a result: `out` goes on under the first tile's MVM, the other's is done (R93). -/
def Dev.pairDone (s : Dev) (k : Nat) (sl : Slice) (m : Mvm) (k2 : Nat) (m2 : Mvm) (out : List F32) (low : Bool) : Dev :=
  let s := (s.countLow k low).modTile k2 fun t => { t with
    mvms := t.mvms.erase m2, reread := t.reread.filter fun x => decide (x.d ≠ m2.d) || x.transpose }
  let s := s.passOn k sl m { m with pounce := m.pounce || m2.pounce, lowConf := low } out
  (s.persistHalf k sl m).persistHalf k2 sl m2

/-- The decision on a duplicated pair whose halves have both been checked (R93): after re-reads, or without any, the mean of all reads is
checked with the mean residuals and a quarter of the summed σ². -/
def Dev.pairDecide (s : Dev) (k : Nat) (sl : Slice) (m : Mvm) (k2 : Nat) (m2 : Mvm) : Dev :=
  let c := s.tileServes k
  let mean := meanVals m.vals m2.vals
  if m.reads = 1 && !m.failed && !m2.failed then s.pairDone k sl m k2 m2 mean false
  else if m.reads = 1 && m.failed != m2.failed then
    (s.bump .cor (coreCh c) (coreIn c) Off.COR_DUPSEL 1).pairDone k sl m k2 m2 (if m.failed then m2.vals else m.vals) false
  else
    let (lim, most) := s.confOf k sl
    let a := s.figureOf k sl m
    let b := s.figureOf k2 sl m2
    let half (x y : Fr) : Fr := Fr.mul ⟨1, 2⟩ (Fr.add x y)
    let fail := (m.reads = 1) || !(s.unchecked k m || s.unchecked k2 m2) &&
      overConf (half a.1.1 b.1.1, half a.1.2 b.1.2) (Fr.mul ⟨1, 4⟩ (Fr.add a.2 b.2)) lim
    if fail && m.reads < most then (s.queueReread k m).queueReread k2 m2
    else
      let low := !(s.unchecked k m || s.unchecked k2 m2) &&
        overConf (half a.1.1 b.1.1, half a.1.2 b.1.2) (Fr.mul ⟨1, 4⟩ (Fr.add a.2 b.2)) lim
      s.pairDone k sl m k2 m2 mean low

/-- The confidence decision on an MVM's sums so far (R80 to R86, R93). `sl` is the slice of tile `k`. -/
def Dev.checkMvm (s : Dev) (k : Nat) (sl : Slice) (m : Mvm) : Dev :=
  let c := s.tileServes k
  let ch := coreCh c
  let ci := coreIn c
  let ys := colValues s.pos (s.tile k) sl m (s.digOn k)
  let un := s.unchecked k m
  let f := s.figureOf k sl m
  let (lim, most) := s.confOf k sl
  let fail := !un && overConf f.1 f.2 lim
  let s := if un then s.bump .cor ch ci Off.COR_UNCHK 1
    else if m.reads = 1 then s.modClus (c / 8) fun x => { x with storm := { x.storm with
      checked := x.storm.checked + 1, firstFail := x.storm.firstFail + fail.toNat } }
    else s
  match s.dupMvm sl m with
  | some (k2, m2) =>
    let m' := { m with vals := ys, failed := fail, phase := .decided }
    let s := s.putMvm k m m'
    if m2.phase = .decided then s.pairDecide k sl m' k2 m2 else s
  | none =>
    if fail && m.reads < most then s.queueReread k m
    else
      let s := (s.countLow k fail).passOn k sl m { m with lowConf := fail } ys
      if un then s else s.persist k f.1 f.2

/-- Takes the zero references of a service MVM into the offset tracker: their corrected values, and w_off beside them (R72). -/
def Dev.trackZero (s : Dev) (k : Nat) (m : Mvm) : Dev :=
  let t := s.tile k
  let v (i : Nat) : F32 := corrected s.pos (withCoef t m) (2114 + i) m.gain 1 (m.sums.get 0 (2114 + i)) m.wOff
  s.modTile k fun t => { t with zeroSum := (t.zeroSum.zipIdx).map (fun e => F32.add e.1 (v e.2)), zeroW := t.zeroW + m.wOff }

/-- Counts an MVM or transpose read that has run to its end (R63), and the stand-in columns the pounce unit computes for it (R92, R107). -/
def Dev.countDone (s : Dev) (k : Nat) (sl : Slice) (m : Mvm) : Dev :=
  let c := s.tileServes k
  if m.transpose then s.bump .arr (coreCh c) (coreIn c) Off.ARR_TRANS 1
  else (s.bump .arr (coreCh c) (coreIn c) Off.ARR_MVM 1).bump .pnc (coreCh c) (coreIn c) Off.PNC_DCOL
    (standinCols (s.tile k) sl (s.digOn k)).length

/-- MVM_SUMS_ARRIVE: the sums of the MVM at the front of the queue reach the correction path (R67). The late decision of its execution
follows the check (R128). -/
def Dev.sumsArrive (s : Dev) (ix : Nat) : Dev :=
  let k := s.serving ix
  let t := s.tile k
  match (queued t).head? with
  | none => s
  | some m =>
    if m.phase ≠ .reading then s
    else
      match t.slices[m.d.slice.val]? with
      | none => s.modTile k fun t => { t with mvms := t.mvms.erase m }
      | some sl =>
        let c := s.tileServes k
        let s := s.countDone k sl m
        if m.transpose then s.passOn k sl m m (rowValues t sl m)
        else if m.exact then (s.passOn k sl m m (colValues s.pos t sl m (s.digOn k))).firstRead c m
        else ((s.trackZero k m).checkMvm k sl m).firstRead c m

/-- POUNCE_SHARE_DONE: the pounce share of the oldest MVM that lacks it is complete, `late` CLK_CORE cycles after its result stood; a
result that waited goes on, and the wait falls on the core's slack (R68, R98). -/
def Dev.pounceDone (s : Dev) (ix late : Nat) : Dev :=
  let k := s.serving ix
  let t := s.tile k
  match t.mvms.find? fun m => !m.pounce with
  | none => s
  | some m =>
    let m' := { m with pounce := true }
    let s := s.putMvm k m m'
    match m.phase, t.slices[m.d.slice.val]? with
    | .waiting, some sl =>
      let c := s.tileServes k
      let s := (s.bump .pnc (coreCh c) (coreIn c) Off.PNC_LATE late).takeCore c (ceilDiv (late * 5) 8) m.d.seq
      s.deliver k sl m' m'.vals
    | _, _ => s

/-- What further reads of an MVM add: slots, skipped passes, split slots and saturations. -/
structure ReadCount where
  slots : Nat
  skipped : Nat
  extra : Nat
  sat : Nat
deriving DecidableEq, Repr

/-- Adds the further reads of a re-read to an MVM's sums (R84). -/
def addReads (t : Tile) (sl : Slice) (h : ReadHow) (dev : AnalogDev) (n : Nat) (m : Mvm) : Mvm × ReadCount :=
  (List.range n).foldl (fun acc i =>
    let r := forwardRead t sl m.inp.codes h (i * 64) dev
    ({ acc.1 with sums := r.sums.foldl (fun a e => a.set 0 e.1 (a.get 0 e.1 + e.2)) acc.1.sums, bandSat := acc.1.bandSat || r.bandSat,
                  reads := acc.1.reads + 1 },
     ⟨acc.2.slots + r.slots, acc.2.skipped + r.skipped, acc.2.extra + r.extra, acc.2.sat + r.sat⟩)) (m, ⟨0, 0, 0, 0⟩)

/-- REREAD_COMPLETE: the re-read at the front of the tile's queue is done; the check repeats (R84 to R86). -/
def Dev.rereadDone (s : Dev) (ix : Nat) (dev : AnalogDev) : Dev :=
  let k := s.serving ix
  let t := s.tile k
  match (queued t).head? with
  | none => s
  | some m =>
    match t.slices[m.d.slice.val]? with
    | none => s
    | some sl =>
      if m.phase ≠ .rereading then s
      else
        let c := s.tileServes k
        let n := if m.reads = 1 then 1 else 2
        let (m', r) := addReads t sl (s.readHow k m.bits m.gain) dev n m
        let s := s.putMvm k m m'
        let s := (s.bump .cor (coreCh c) (coreIn c) Off.COR_REREAD n).countSlots k r.slots r.skipped r.extra
        let s := (s.countSat k r.sat).takeSlack k (32 * n + 64 * r.slots) m.d.seq
        s.checkMvm k sl m'

/-! ### Drift tracking (R73 to R78) -/

/-- Rows that a reference probe drives: those of level references 0 to 6 in each 256-row sub-block (R71, R73). -/
def probeRow (row : Nat) : Bool := row % 256 ≤ 199 && row % 32 = 7

/-- REFERENCE_PROBE: code 1 in plane 0 on the 56 level-reference rows, one slot at gain code 0; the readings of the level references, in
level units, join the interval's means. It runs in the slack of a tile in READY or a spare in SHADOW (R73, R74). -/
def Dev.probe (s : Dev) (k : Nat) (dev : AnalogDev) : Dev :=
  let t := s.tile k
  let c := s.tileServes k
  let ch := tileCh k
  if s.inForce .cor ch (coreIn c) Off.COR_CTL 4 4 = 0 ∨ ¬ (t.state = .ready ∨ t.state = .shadow)
      ∨ t.probes ≥ s.inForce .corCh ch 0 Off.COR_DRIFT 20 16 ∨ t.slack < 96 then s
  else
    let keep (p : Nat) : Bool := 2121 ≤ p
    let r := slotRead 0 0 1 (rowContrib t.levels probeRow keep) dev keep ReadRes.empty
    let reading (q : Nat) : F32 := F32.ofInt (r.sums.get 0 (2121 + q) * (codeStep 0 : Int))
    let s := s.modTile k fun t => { t with
      probeSum := (t.probeSum.zipIdx).map (fun e => F32.add e.1 (reading e.2)), probes := t.probes + 1, slack := t.slack - 96 }
    (s.bump .cor ch (coreIn c) Off.COR_PROBE 1).countSlots k 1 0 0

/-- The end of a drift interval on one tile in READY (R75, R76). The offset update adds the quotient of the summed corrected values and
the summed w_off (DESIGN CHOICE: R72 and R75 do not say how the averages become an offset per conversion). -/
def Dev.driftTile (s : Dev) (k : Nat) : Dev :=
  let t := s.tile k
  let ch := tileCh k
  let c := s.tileServes k
  let probeN := s.inForce .corCh ch 0 Off.COR_DRIFT 20 16
  let frozen := s.inForce .cor ch (coreIn c) Off.COR_CTL 4 4 = 0
  let offs := if t.zeroW = 0 then t.dOff
    else (t.dOff.zipIdx).map fun e => F32.add e.1 (F32.div (nth 0#32 t.zeroSum e.2) (F32.ofInt t.zeroW))
  let short := t.probes * 2 < probeN
  let d := if short || frozen then t.drift
    else (t.probeBase.zipIdx).map fun e => F32.div (F32.div (nth 0#32 t.probeSum e.2) (F32.ofNat t.probes)) e.1
  let jump := (d.zipIdx).any fun e =>
    let x := Fr.sub (Fr.ofF e.1) (Fr.ofF (nth F32.one t.drift e.2))
    Fr.lt ⟨1, 20⟩ x || Fr.lt x ⟨-1, 20⟩
  let miss := if short && !frozen then t.missRun + 1 else 0
  let s := s.modTile k fun t => { t with
    coefNext := some (d, offs), zeroSum := List.replicate 7 0#32, zeroW := 0, probeSum := List.replicate 7 0#32, probes := 0, missRun := miss,
    probePlan := short && !frozen && (t.probePlan || miss ≥ 4) }
  let s := if short && !frozen then s.bump .corCh ch 0 Off.COR_PROBE_MISS 1 else s
  let s := if miss = 4 then s.raiseTile 20 k else s
  if jump then s.raiseTile 21 k else s

/-- DRIFT_INTERVAL_END: the channel's interval ends; new coefficients wait for the next boundary (R75). -/
def Dev.driftEnd (s : Dev) (ch : Nat) : Dev :=
  if (s.chan ch).driftLeft ≠ 0 then s
  else
    let s := (s.tiles.filter fun e => tileCh e.1 = ch ∧ e.2.state = .ready).foldl (fun s e => s.driftTile e.1) s
    s.modChan ch fun c => { c with driftLeft := max 1 (s.inForce .corCh ch 0 Off.COR_DRIFT 15 0), longSum := [] }

/-- Whether a pair's column gain lies outside 0.80 to 1.25 (R77). -/
def gainOut (g : F32) : Bool := Fr.lt (Fr.ofF g) ⟨4, 5⟩ || Fr.lt ⟨5, 4⟩ (Fr.ofF g)

/-- New coefficients take effect at a boundary free of carried work on the tile; a gain of any pair out of range makes it due for refresh
(R22, R75, R77). -/
def Dev.applyCoef (s : Dev) (k : Nat) : Dev :=
  let t := s.tile k
  match t.coefNext with
  | none => s
  | some (d, o) =>
    if s.carriedOn k then s
    else
      let t' := { t with drift := d, dOff := o, coefNext := none }
      let out := (List.range 2128).any fun p => gainOut (colGain s.pos t' p)
      let s := s.modTile k fun _ => { t' with
        refreshDue := if out && t.refreshDue.isNone && t.state = .ready then some (s.chan (tileCh k)).plank else t.refreshDue }
      s.bump .corCh (tileCh k) 0 Off.COR_DRIFT_UPD 1

/-- REFRESH_WAIT_EXPIRE: a refresh that found no spare for REFRESH_WAIT planks is done in place; an adopted spare is refreshed so under
the index it serves (R78). -/
def Dev.refreshWait (s : Dev) (ix : Nat) : Dev :=
  let k := ((s.sparesOf ix).find? fun sp => (s.tile sp).role = .adopted ix && (s.tile sp).state ≠ .retired).getD ix
  let ch := tileCh k
  match (s.tile k).refreshDue with
  | some p =>
    if (s.chan ch).plank ≥ p + max 1 (s.inForce .corCh ch 0 Off.COR_RFW 15 0) ∧ (s.spareWith (tileCl ix) (· = .standin ix)).isNone then
      s.modTile k fun t => { t with refreshLate := true }
    else s
  | none => s

/-! ### Localisation (R89 to R92) -/

/-- LOCALISATION_PROBE: code 1 in plane 0 on every row of one sub-block, one slot, in the slack; each sub-block has four (R89). -/
def Dev.locProbe (s : Dev) (ix m : Nat) (dev : AnalogDev) : Dev :=
  let k := s.serving ix
  let t := s.tile k
  match t.loc with
  | none => s
  | some lr =>
    if lr.done.get 0 m ≥ 4 ∨ t.slack < 96 then s
    else
      let keep := keptPair t
      let r := slotRead lr.gain 0 1 (rowContrib t.levels (fun row => row / 256 = m) keep) dev keep ReadRes.empty
      let cols := bandCols t
      let sums := cols.foldl (fun acc j =>
        let key := m * 2048 + j
        acc.set 0 key (acc.get 0 key + r.sums.get 0 (physPair t j))) lr.sums
      let s := s.modTile k fun t => { t with
        loc := some { lr with done := lr.done.put m (lr.done.get 0 m + 1), sums := sums }, slack := t.slack - 96 }
      (s.countSlots k 1 0 0).countSat k r.sat

/-- Expected sum of a logical column over a sub-block of the tile, from the W5 copy (R89). -/
def expectedSub (t : Tile) (m j : Nat) : Int :=
  ((t.slices.filter fun sl => sl.colO ≤ j && j < sl.colO + sl.colN).map fun sl =>
    (sl.w.filter fun e => e.1 % 2048 + sl.colO = j ∧ (e.1 / 2048 + sl.rowO) / 256 = m).foldl (fun a e => a + e.2) 0).sum

/-- Whether a column is flagged: the mean of its four readings is off by more than 4 σ and two code steps in some sub-block (R89). -/
def flagged (pos : Nat → Nat) (t : Tile) (lr : LocRun) (j : Nat) : Bool :=
  let p := physPair t j
  let s2 := sigmaCol2 lr.gain 1 256 4 t.vConv t.vCell
  let lim := Fr.mul (Fr.ofNat 16) s2
  let two := Fr.ofNat (4 * codeStep lr.gain * codeStep lr.gain)
  let lim := if Fr.lt lim two then two else lim
  (List.range 8).any fun m =>
    let y := corrected pos t p lr.gain 4 (lr.sums.get 0 (m * 2048 + j)) 1
    Fr.lt lim (Fr.sq (Fr.sub (Fr.ofF y) (Fr.ofInt (expectedSub t m j))))

/-- Whether some spare of the cluster is free: in SPARE or SHADOW, and not barred (R59, R288). -/
def Dev.spareFree (s : Dev) (cl : Nat) : Bool :=
  (List.range 4).any fun i => let t := s.tile (cl * 132 + 128 + i); (t.state = .spare || t.state = .shadow) && !t.barred

/-- What follows for one flagged column (R90, R92). An action clears the persistence window (R88). -/
def Dev.flagColumn (s : Dev) (k j : Nat) : Dev :=
  let t := s.tile k
  let now := (s.chan (tileCh k)).plank
  let c := s.tileServes k
  let last := t.flaggedAt.get 0 j
  let again := (last ≠ 0 && now < last - 1 + 2 ^ 20) || (t.colMap.any fun e => e.1 = j)
  let s := s.modTile k fun t => { t with flaggedAt := t.flaggedAt.set 0 j (now + 1) }
  let addDig (t : Tile) : Tile := { t with digCols := if t.digCols.contains j then t.digCols else t.digCols ++ [j], window := [] }
  -- a fifth column while four stand-ins are in use leaves the tile no way to serve it
  if t.digCols.length ≥ 4 ∧ !t.digCols.contains j then s.raiseTile 15 k
  else if !again then s.modTile k fun t => addDig { t with colJobs := t.colJobs ++ [(j, none)] }
  else
    match (freePairs t 0x1000).head? with
    | some p =>
      let s := s.modTile k fun t => addDig { t with colJobs := t.colJobs ++ [(j, some p)], pairsUsed := t.pairsUsed + 1 }
      s.bump .cor (coreCh c) (coreIn c) Off.COR_REMAP 1
    | none =>
      if s.spareFree (tileCl k) then s.modTile k fun t => addDig { t with replaceBy := some 15 } else s.raiseTile 15 k

/-- LOCALISATION_RUN_END: after four probes of each sub-block, flagged columns are acted on, or the tile is marked suspect (R89, R90). -/
def Dev.locEnd (s : Dev) (ix : Nat) : Dev :=
  let k := s.serving ix
  let t := s.tile k
  match t.loc with
  | none => s
  | some lr =>
    if (List.range 8).any fun m => decide (lr.done.get 0 m < 4) then s
    else
      let bad := (bandCols t).filter (flagged s.pos t lr)
      let s := s.modTile k fun t => { t with loc := none }
      if bad.isEmpty then
        s.modTile k fun t => { t with suspect := true, suspectAt := if t.suspect then t.suspectAt else (s.chan (tileCh k)).plank }
      else bad.foldl (fun s j => s.flagColumn k j) s

/-! ### Shadow replay (R100 to R103) -/

/-- The sum of R101 over the columns, with the given factor on the variance, as (Σ d² / (f s²)). -/
def zSum (a b : List F32) (s2 : Fr) (f : Nat) : Fr :=
  Fr.sum ((a.zip b).map fun e => Fr.div (Fr.sq (Fr.sub (Fr.ofF e.1) (Fr.ofF e.2))) (Fr.mul (Fr.ofNat f) s2))

/-- z > 4 for a sum over n columns: (A − n) / √(2n) > 4 (R101). -/
def zOver (a : Fr) (n : Nat) : Bool :=
  let d := Fr.sub a (Fr.ofNat n)
  Fr.lt (Fr.ofNat 0) d && Fr.lt (Fr.ofNat (32 * n)) (Fr.sq d)

/-- SHADOW_REPLAY: the spare re-executes the MVM in the shadow buffer; a disagreement is counted and held for the digital check (R100,
R101). The noise constants of both sides' comparison are the victim's (DESIGN CHOICE: R101 names one variance and no tile). -/
def Dev.shadowReplay (s : Dev) (cl : Nat) (dev : AnalogDev) : Dev :=
  let ch := cl / 8
  let sh := (s.clus cl).shadow
  let vk := s.serving (cl * 132 + sh.victim)
  let sk := cl * 132 + 128 + sh.spare
  let vt := s.tile vk
  let st := s.tile sk
  if s.inForce .corCh ch 0 Off.COR_SHD_CTL 0 0 = 0 ∨ ¬ sh.valid ∨ st.state ≠ .shadow then s
  else
    match sh.sample with
    | none => s
    | some m =>
      match vt.slices[m.d.slice.val]?, st.slices[m.d.slice.val]? with
      | some vs, some ss =>
        let r := forwardRead st ss m.inp.codes (s.readHow sk m.bits m.gain) 0 dev
        let sm := { m with sums := r.sums, wOff := r.wOff, pSum := r.pSum, reads := 1, drift := st.drift, dOff := st.dOff }
        let a := colValues s.pos vt vs m false
        let b := colValues s.pos st ss sm false
        let s2 := sigmaCol2 m.gain m.pSum (sumSq m.inp.codes) 1 vt.vConv vt.vCell
        let s := (s.countRead sk r).countSat sk r.sat
        let s := (s.bump .corCh ch 0 Off.COR_SHD_CMP 1).modClus cl fun x => { x with shadow := { x.shadow with sample := none } }
        if zOver (zSum a b s2 2) vs.colN then
          let dig := (List.range vs.colN).map fun j => digitalColumn vs m.inp.codes j
          let s := s.bump .corCh ch 0 Off.COR_SHD_DIS 1
          s.modClus cl fun x => { x with shadow := { x.shadow with held := some (a, b, dig, m.gain :: m.pSum :: m.inp.codes) } }
        else s
      | _, _ => s

/-- Two counts against the victim (R103): suspect and localisation first, then SHADOW_CONFIRMED. -/
def Dev.victimCounted (s : Dev) (cl : Nat) : Dev :=
  let sh := (s.clus cl).shadow
  if sh.vicCnt < 2 then s
  else
    let vk := cl * 132 + sh.victim
    let k := s.serving vk
    if sh.confirm then
      let s := s.modClus cl fun x => { x with shadow := { x.shadow with vicCnt := 0, valid := false, confirm := false } }
      s.raiseTile 17 vk
    else
      let s := s.modClus cl fun x => { x with shadow := { x.shadow with vicCnt := 0, keep := true } }
      let s := s.modTile k fun t => { t with suspect := true, suspectAt := if t.suspect then t.suspectAt else (s.chan (cl / 8)).plank }
      s.startLoc k

/-- Two counts against the spare (R103): it is barred until a blocking run passes, and the shadow moves to another. -/
def Dev.spareCounted (s : Dev) (cl : Nat) : Dev :=
  let sh := (s.clus cl).shadow
  if sh.sprCnt < 2 then s
  else
    let s := s.modTile (cl * 132 + 128 + sh.spare) fun t => { t with barred := true, next := some .spare, role := .none, slices := [], ctx := none }
    s.modClus cl fun x => { x with shadow := { x.shadow with sprCnt := 0, valid := false, sample := none } }

/-- SHADOW_DIGITAL_CHECK: each side is compared with the digital result, and counted where it differs (R102, R103). -/
def Dev.shadowCheck (s : Dev) (cl : Nat) : Dev :=
  let sh := (s.clus cl).shadow
  match sh.held with
  | none => s
  | some (a, b, dig, g :: p :: codes) =>
    let vt := s.tile (s.serving (cl * 132 + sh.victim))
    let st := s.tile (cl * 132 + 128 + sh.spare)
    let va := sigmaCol2 g.toNat p.toNat (sumSq codes) 1 vt.vConv vt.vCell
    let vb := sigmaCol2 g.toNat p.toNat (sumSq codes) 1 st.vConv st.vCell
    let ca := (zOver (zSum a dig va 1) dig.length).toNat
    let cb := (zOver (zSum b dig vb 1) dig.length).toNat
    let s := s.modClus cl fun x => { x with shadow := { x.shadow with
      held := none, vicCnt := x.shadow.vicCnt + ca, sprCnt := x.shadow.sprCnt + cb } }
    (s.victimCounted cl).spareCounted cl
  | some _ => s.modClus cl fun x => { x with shadow := { x.shadow with held := none } }

/-- SHADOW_DWELL_END: 2^DWELL_LOG2 planks of the victim's dwell have passed; the change waits for the boundary (R100, R289). -/
def Dev.dwellEnd (s : Dev) (cl : Nat) : Dev :=
  if (s.chan (cl / 8)).plank < (s.clus cl).shadow.since + 2 ^ s.inForce .corCh (cl / 8) 0 Off.COR_SHD_CTL 20 16 then s
  else s.modClus cl fun x => { x with shadow := { x.shadow with dwellEnd := true } }

end Sys2Proof.Machine
end

