-- ==== Sys2Proof/Machine/Carder.lean ====
section
/-! DEFINITION. The carder: slices read from a pattern's image (R97, R119), programming and verifying a tile (R61, R71, R79, R262,
R263, R277), and the transitions of tile states at boundaries (R22, R57 to R59). -/

namespace Sys2Proof.Machine
open Sys2Proof

/-! ### Slices from the image (R97, R119, R252) -/

def imgBytes (p : Pattern) (a n : Nat) : List Byte := (List.range n).map fun i => p.img.get 0 (a + i)

/-- W5 levels of a block, keyed row × 2048 + column; unlisted levels are 0. The invalid code stays −16, so that the pounce unit meets it
(R119). -/
def blockLevels (p : Pattern) (b : Block) : Store Int :=
  (List.range b.rspan).foldl (fun (acc : Store Int) r =>
    let row := imgBytes p (p.w5 + b.w5Off + r * (b.cspan * 5 / 8)) (b.cspan * 5 / 8)
    (List.range b.cspan).foldl (fun (acc : Store Int) c => acc.set 0 (r * 2048 + c) ((w5Level row c).getD (-16))) acc) []

/-- A residual entry (R97). -/
def resEntry (w : Nat) : Nat × Nat × Int :=
  let r := nfld w 31 22
  (nfld w 10 0, nfld w 21 11, if r ≥ 512 then (r : Int) - 1024 else r)

/-- Residual entries of a block. -/
def blockRes (p : Pattern) (b : Block) : List (Nat × Nat × Int) :=
  (List.range b.resN).map fun i => resEntry (ofBytes (imgBytes p (p.resid + b.resOff + 4 * i) 4))

/-- The slice a block makes on a tile of its own (R253, R285). -/
def sliceOf (li bi : Nat) (newPat : Bool) (b : Block) (dup : Option Nat) : Slice where
  layer := li
  block := bi
  newPat := newPat
  rowO := 0
  rowN := b.rspan
  colO := 0
  colN := b.cspan
  inFmt := b.inFmt
  rowGroup := b.rowGroup
  gain := b.gain
  planPasses := b.planPasses
  tFmt := b.tFmt
  colGroup := b.colGroup
  tGain := b.tGain
  w := []
  res := []
  dup := dup
  massSub := []
  massFull := []
  tMassSub := []
  tMassFull := []
  massCrc := none
  verified := false

/-- The pattern a slice belongs to: the loaded one, or the one that a load or swap brings in. -/
def Dev.slicePat (s : Dev) (ctx : Nat) (newPat : Bool) : Option Pattern :=
  if newPat then (s.ctx ctx).newPat else (s.ctx ctx).pat

/-- A slice with its levels and residual entries, from a pattern. -/
def fillSlice (p : Option Pattern) (sl : Slice) : Slice :=
  match p with
  | some p =>
    match p.layers[sl.layer]? with
    | some l =>
      match l.blocks[sl.block]? with
      | some b => { sl with w := blockLevels p b, res := blockRes p b }
      | none => sl
    | none => sl
  | none => sl

/-- Fills a tile's slices from the W5 copies of their epochs (R263 step 1, R270). -/
def Dev.fetchLevels (s : Dev) (k : Nat) : Dev :=
  let n := (s.tile k).ctx.getD 64
  s.modTile k fun t => { t with slices := t.slices.map fun sl => fillSlice (s.slicePat n sl.newPat) sl }

/-! ### Target levels of a tile (R71, R79) -/

/-- round(x / 2^k), halves away from zero. -/
def shiftRound (x : Int) (k : Nat) : Int :=
  let m := (2 * x.natAbs + 2 ^ k) / (2 * 2 ^ k)
  if x < 0 then -(m : Int) else m

/-- S[i] and T[i] of every row with a weight (R79). -/
def bandSums (sls : List Slice) : Store (Int × Int) :=
  sls.foldl (fun (acc : Store (Int × Int)) sl => sl.w.foldl (fun (acc : Store (Int × Int)) e =>
    let i := sl.rowO + e.1 / 2048
    let j := sl.colO + e.1 % 2048
    let o : Int × Int := Store.get (0, 0) i acc
    acc.put i (o.1 + e.2, o.2 + (if j % 2 = 0 then e.2 else -e.2))) acc) []

/-- Mass of a band pair over rows lo to hi − 1 at shift k. -/
def bandMass (st : Store (Int × Int)) (k lo hi : Nat) (second : Bool) : Nat :=
  st.foldl (fun a e => if lo ≤ e.1 && e.1 < hi then a + (shiftRound (if second then e.2.2 else e.2.1) k).natAbs else a) 0

/-- Whether shift k satisfies both conditions of R79. -/
def bandFits (sls : List Slice) (st : Store (Int × Int)) (k : Nat) : Bool :=
  (st.all fun e => e.2.1.natAbs ≤ 15 * 2 ^ k && e.2.2.natAbs ≤ 15 * 2 ^ k) && sls.all fun sl =>
    [false, true].all fun x =>
      ((massSub sl).zipIdx.all fun m => bandMass st k (sl.rowO + m.2 * 256) (sl.rowO + m.2 * 256 + 256) x + 128 ≤ m.1)
        && ((massFull sl).zipIdx.all fun m =>
          bandMass st k (sl.rowO + m.2 * sl.rowGroup) (sl.rowO + (m.2 + 1) * sl.rowGroup) x + sl.rowGroup / 2 ≤ m.1)

/-- The band shift K (R79). -/
def bandShift (sls : List Slice) : Nat :=
  let st := bandSums sls
  ((List.range 16).find? fun k => bandFits sls st k).getD 15

/-- Programmed levels of a tile: mapped pairs, band pairs and level references (R71, R79). -/
def targetLevels (t : Tile) (k : Nat) : Store Int :=
  let st := bandSums t.slices
  let a := t.slices.foldl (fun (acc : Store Int) sl => sl.w.foldl (fun (acc : Store Int) e =>
    acc.set 0 ((sl.rowO + e.1 / 2048) * 2128 + physPair t (sl.colO + e.1 % 2048)) e.2) acc) ([] : Store Int)
  let b := st.foldl (fun (acc : Store Int) e =>
    (Store.set 0 (e.1 * 2128 + 2112) (shiftRound e.2.1 k) acc).set 0 (e.1 * 2128 + 2113) (shiftRound e.2.2 k)) a
  (List.range 7).foldl (fun (acc : Store Int) q => (List.range 8).foldl (fun (acc : Store Int) m =>
    acc.set 0 ((256 * m + 32 * q + 7) * 2128 + 2121 + q) 15) acc) b

/-- The mass tables of a slice, with their check word (R37, R54). -/
def withMass (sl : Slice) : Slice :=
  let sl := { sl with massSub := massSub sl, massFull := massFull sl, tMassSub := tMassSub sl, tMassFull := tMassFull sl, verified := true }
  { sl with massCrc := some (massCheck sl) }

/-- A tile after a full programming pass: levels, mass tables, band data, and the burst that makes every d(j) 1.0 (R74, R263). -/
def programmed (t : Tile) (probe : List F32) : Tile :=
  let k := bandShift t.slices
  let t := { t with digCols := [], colJobs := t.colJobs.filter fun j => j.2.isSome }
  { t with
    levels := targetLevels t k
    slices := t.slices.map withMass
    bandK := k
    bandN := (bandCols t).length
    probeBase := if probe.length = 7 then probe else t.probeBase
    drift := List.replicate 7 F32.one
    probeSum := List.replicate 7 0#32
    probes := 0
    zeroSum := List.replicate 7 0#32
    zeroW := 0
    coefNext := none
    window := [] }

/-! ### Wear (R61, R277) -/

/-- One programming pass on a tile: wear, its warning, and the limit. A spare without work retires at the limit at once; a tile
keeps serving until a spare has its slices. -/
def Dev.wearPass (s : Dev) (k : Nat) : Dev :=
  let t := s.tile k
  let w := t.wear + 1
  let s := s.modTile k fun t => { t with wear := w, warned := t.warned || w ≥ 9000000 }
  let s := s.bump .ldrCh (tileCh k) 0 Off.LDR_PASS 1
  let s := if w ≥ 9000000 && !t.warned then s.raiseTile 47 k else s
  if w ≥ 10000000 then
    if isSpare k && t.role = .none then s.retireTile k
    else s.modTile k fun t => { t with replaceBy := some (t.replaceBy.getD 48) }
  else s

/-! ### Verify (R262) -/

/-- Remaps columns that missed twice to free spare pairs; answers whether every one found a pair. -/
def Dev.remapMissed (s : Dev) (k : Nat) : List Nat → Dev × Bool
  | [] => (s, true)
  | j :: js =>
    match (freePairs (s.tile k) 0x10000).head? with
    | none => (s, false)
    | some p =>
      let s := s.modTile k fun t => { t with colMap := t.colMap.put j p, pairsUsed := t.pairsUsed + 1 }
      (s.bump .ldrCh (tileCh k) 0 Off.LDR_PAIRFAIL 1).remapMissed k js

/-- The state a verified tile enters at the next boundary. -/
def verifiedState (t : Tile) : TState := if t.prog = some .shadow then .shadow else .ready

/-- Column jobs of one plank: at most 4,096 cell pairs, two columns of 2,048 rows (R91). -/
def plankJobs (t : Tile) : List (Nat × Option Nat) := t.colJobs.take 2

/-- Writes the column data of a plank's column jobs: the new pairs and their levels; the action clears the persistence window (R88, R90,
R91). -/
def columnsDone (t : Tile) : Tile :=
  let js := plankJobs t
  let map := js.foldl (fun (m : Store Nat) j => match j.2 with | some p => m.put j.1 p | none => m) t.colMap
  let t' := { t with colMap := map, digCols := t.digCols.filter fun c => !js.any fun j => j.1 = c, colJobs := t.colJobs.drop 2, window := [] }
  { t' with levels := targetLevels t' t'.bandK }

/-- A column re-program that fails verify is remapped to a spare pair (R90). -/
def Dev.columnFailed (s : Dev) (k j : Nat) : Dev :=
  let t := s.tile k
  match (freePairs t 0x10000).head? with
  | some p =>
    let s := s.modTile k fun t => { t with
      colJobs := (t.colJobs.filter fun x => x.1 ≠ j) ++ [(j, some p)], pairsUsed := t.pairsUsed + 1 }
    s.bump .cor (coreCh (s.tileServes k)) (coreIn (s.tileServes k)) Off.COR_REMAP 1
  | none =>
    -- the column stays a digital stand-in until the spare verifies
    let s := s.modTile k fun t => { t with
      colJobs := t.colJobs.filter fun x => x.1 ≠ j, digCols := if t.digCols.contains j then t.digCols else t.digCols ++ [j] }
    if s.spareFree (tileCl k) && (s.tile k).digCols.length ≤ 4 then s.modTile k fun t => { t with replaceBy := some 15 } else s.raiseTile 15 k

/-- TILE_VERIFY_DONE: the carder has finished a tile that it was programming; its new state waits for the boundary (R262, R263). -/
def Dev.verifyTile (s : Dev) (k : Nat) (missed : List Nat) (iters : Nat) (probe : List F32) : Dev :=
  let t := s.tile k
  let ch := tileCh k
  if t.state ≠ .programming ∨ t.next.isSome ∨ s.fltState ch ≠ 0 then s
  else
    let s := s.bump .ldrCh ch 0 Off.LDR_VITER iters
    if t.prog = some .column then
      -- the boundary that ends the plank applies the column map (R91)
      missed.foldl (fun s j => if (plankJobs t).any fun x => x.1 = j then s.columnFailed k j else s) s
    else
      let r := s.remapMissed k missed
      let s := r.1.wearPass k
      if r.2 then
        s.modTile k fun t => if t.state = .retired then t else { programmed t probe with next := some (verifiedState t) }
      else if t.prog = some .refresh then s.raiseTile 16 k
      else (s.retireTile k).raiseTile 46 k

/-! ### Spares (R57, R65, R288) -/

/-- Spares of a cluster that may take new work: in SPARE without a role, or, failing that, one that holds a shadow copy. -/
def Dev.freeSpare (s : Dev) (cl : Nat) (mayShadow : Bool) : Option Nat :=
  let sps := (List.range 4).map fun i => cl * 132 + 128 + i
  let wear (a b : Nat) : Bool := decide ((s.tile a).wear ≤ (s.tile b).wear)
  let ok (k : Nat) : Bool :=
    let t := s.tile k
    !t.barred && t.state = .spare && t.role = .none && t.next.isNone && t.wear < 10000000
  let sh (k : Nat) : Bool :=
    let t := s.tile k
    !t.barred && t.wear < 10000000 && match t.role with | .shadowing _ => t.state = .shadow || t.state = .spare || t.state = .programming | _ => false
  (sortBy wear (sps.filter ok)).head? <|> (if mayShadow then (sortBy wear (sps.filter sh)).head? else none)

/-- A spare takes the slices held under a tile's index and waits for a writer (R77, R100). -/
def Dev.assignSpare (s : Dev) (sp k : Nat) (role : SpareRole) (why : ProgWhy) : Dev :=
  let src := s.tile (s.serving k)
  let s := if (s.clus (tileCl k)).shadow.valid && (match (s.tile sp).role with | .shadowing _ => true | _ => false) then
      s.modClus (tileCl k) fun c => { c with shadow := { c.shadow with valid := false } } else s
  s.modTile sp fun t => { t with
    state := .spare, role := role, ctx := src.ctx, slices := src.slices.map fun sl => { sl with massCrc := none, verified := false },
    next := some .programming, prog := some why, mvms := [], reread := [], digCols := [], colJobs := [], window := [], loc := none }

/-- A programming pass that is stopped has written cells, and adds to the tile's wear (R61). -/
def Dev.stopPass (s : Dev) (k : Nat) : Dev := if (s.tile k).state = .programming then s.wearPass k else s

/-- A spare ends its part: it holds nothing and returns to SPARE, or to RETIRED at the end of its wear (R277). -/
def Dev.releaseSpare (s : Dev) (sp : Nat) : Dev :=
  (s.stopPass sp).modTile sp fun t => if t.state = .retired then { t with role := .none, slices := [], ctx := none } else
    { t with state := if t.wear ≥ 10000000 then .retired else .spare, role := .none, ctx := none, slices := [], next := none, prog := none, mvms := [], reread := [] }

/-- A core tile gives up its slices: it holds nothing in use (R57 IDLE). A RETIRED tile stays so. -/
def Dev.idleTile (s : Dev) (k : Nat) : Dev :=
  (s.stopPass k).modTile k fun t => { t with
    state := if t.state = .retired then .retired else .idle, ctx := none, slices := [], next := none, prog := none, mvms := [], reread := [],
    digCols := [], colJobs := [], window := [], loc := none, refreshDue := none, refreshLate := false, coefNext := none, suspect := false }

/-- A tile's index is freed: the tile and every spare under it hold nothing. -/
def Dev.freeIndex (s : Dev) (k : Nat) : Dev := (s.sparesOf k).foldl (fun s sp => s.releaseSpare sp) (s.idleTile k)

/-! ### Transitions at a boundary (R22, R58) -/

/-- What a tile command of the tile's core reports (R64). -/
def Dev.tcmdSta (s : Dev) (k code : Nat) : Dev :=
  let c := tileCore k
  let o := Off.ARR_TCMD_STA
  if fld (s.rd .arr (coreCh c) (coreIn c) o) 11 8 = k % 132 % 16 ∧ fld (s.rd .arr (coreCh c) (coreIn c) o) 7 0 = 1 then
    s.wrF .arr (coreCh c) (coreIn c) o 7 0 code
  else s

/-- A programmed tile or spare has entered READY: what its programming was for is complete (R77, R90, R92, R277). -/
def Dev.becameReady (s : Dev) (k : Nat) (why : Option ProgWhy) : Dev :=
  let ch := tileCh k
  match why, (s.tile k).role with
  | some .refresh, _ =>
    let s := s.bump .corCh ch 0 Off.COR_REFRESH 1
    let ix := match (s.tile k).role with | .adopted t => t | _ => k
    match s.spareWith (tileCl k) fun r => r = .standin ix with
    | some sp => if sp = k then s else s.releaseSpare sp
    | none => s
  | some .standin, .standin t =>
    let s := s.bump .plcCh ch 0 Off.PLC_STANDIN 1
    if (s.tile t).offline then (s.idleTile t).tcmdSta t 0 else s
  | some .adopt, .adopted t =>
    let s := (s.bump .plcCh ch 0 Off.PLC_ADOPT 1)
    let old := ((s.sparesOf t).find? fun sp => sp ≠ k && (s.tile sp).role = .adopted t).getD t
    match (s.tile old).replaceBy with
    | some ix =>
      let s := (s.retireNow old).modTile old fun x => { x with replaceBy := none }
      let s := if isSpare old then s.releaseSpare old else s
      let s := s.bump .ldrCh ch 0 Off.LDR_WRETIRE (ix = 48 : Bool).toNat
      s.raiseTile ix old
    | none => if isSpare old then s.releaseSpare old else s
  | _, _ => s

/-- Writers of a channel that program a tile now (R279). -/
def Dev.writersBusy (s : Dev) (ch : Nat) : Nat :=
  (s.tiles.filter fun e => tileCh e.1 = ch ∧ e.2.state = .programming).length

/-- One tile's due transition at a boundary; deferred under R22 while carried work uses the tile, or while no writer is free. -/
def Dev.moveTile (s : Dev) (k : Nat) : Dev :=
  let ch := tileCh k
  let t := s.tile k
  match t.next with
  | none => s
  | some st =>
    if s.carriedOn k then s.bump .plcCh ch 0 Off.PLC_DEFER 1
    else
      match st with
      | .programming =>
        if t.state = .blocking ∧ (s.core (s.tileServes k)).bkg.running.isSome then s   -- the run goes on to its end (R59)
        -- no pass beyond the limit: the tile is out, and a spare takes its slices (R277)
        else if t.wear ≥ 10000000 then ((s.retireNow k).modTile k fun t => { t with replaceBy := none }).raiseTile 48 k
        else if s.writersBusy ch < max 1 (s.inForce .ldrCh ch 0 Off.LDR_CH_CTL 3 0) then
          let s := s.modTile k fun t => { t with state := .programming, next := none, mvms := [], reread := [] }
          if t.prog = some .column then s
          else (s.fetchLevels k).modTile k fun t => { t with slices := t.slices.map fun sl => { sl with verified := false } }
        else s
      | .ready =>
        if t.slices.all tableOk then
          let s := s.modTile k fun t => { t with state := .ready, next := none, prog := none, refreshDue := none, refreshLate := false }
          s.becameReady k t.prog
        else
          -- no slice without a valid table enters READY (R37): the tile is programmed again
          s.modTile k fun t => { t with next := some .programming, prog := some (t.prog.getD .load) }
      | .shadow =>
        let s := s.modTile k fun t => { t with state := .shadow, next := none, prog := none }
        s.modClus (tileCl k) fun c => { c with shadow := { c.shadow with valid := true, spare := k % 132 - 128 } }
      | .spare => s.releaseSpare k
      | .idle => s.idleTile k
      | .blocking => s.modTile k fun t => { t with state := .blocking, next := none }
      | .retired => s.retireNow k

/-- Order of the tiles that wait for a writer: the swap wave, then refresh and column work, then the rest; the lower name first
(R59). -/
def progRank (t : Tile) : Nat :=
  match t.prog with
  | some .wave => 0
  | some .refresh | some .column => 1
  | some .adopt => 2
  | some .standin => 3
  | some .shadow => 5
  | _ => 4

/-- A tile whose column work is due, or whose column plank has ended (R90, R91). -/
def Dev.columnWork (s : Dev) (k : Nat) : Dev :=
  let t := s.tile k
  if t.state = .programming ∧ t.prog = some .column then
    let s := (s.modTile k columnsDone).wearPass k
    let s := s.modTile k fun t => if t.state = .retired then t else { t with state := .ready, prog := none }
    let cl := tileCl k
    if (s.clus cl).shadow.victim + cl * 132 = k then s.modClus cl fun c => { c with shadow := { c.shadow with confirm := true } } else s
  else if t.state = .ready ∧ !t.colJobs.isEmpty ∧ t.next.isNone ∧ t.wear < 10000000 then
    s.modTile k fun t => { t with next := some .programming, prog := some .column }
  else s

/-- The tile, or the spare adopted in its place, whose refresh a READY spare stands in for: it is programmed from this boundary on (R77
step 3), or as soon as a blocking run or column work that holds it ends (R59). -/
def Dev.startRefresh (s : Dev) (sp : Nat) : Dev :=
  match (s.tile sp).role, (s.tile sp).state with
  | .standin t, .ready =>
    let v := ((s.sparesOf t).find? fun x => (s.tile x).role = .adopted t).getD t
    s.modTile v fun x => if x.state = .ready && x.refreshDue.isSome && x.next.isNone then
      { x with next := some .programming, prog := some .refresh } else x
  | _, _ => s

/-- Tiles of a channel that the state lists. -/
def Dev.tileKeys (s : Dev) (ch : Nat) : List Nat := (s.tiles.filter fun e => tileCh e.1 = ch).map (·.1)

/-- Boundary step 4 for the tiles of a channel: column work, then every transition that is due but entry to PROGRAMMING (R22, R58, R59),
RETIRED first. -/
def Dev.leaveTiles (s : Dev) (ch : Nat) : Dev :=
  let s := (s.tileKeys ch).foldl (fun s k => s.columnWork k) s
  let s := ((s.tileKeys ch).filter fun k => (s.tile k).next = some .retired).foldl (fun s k => s.moveTile k) s
  let due := (s.tileKeys ch).filter fun k => (s.tile k).next.isSome && (s.tile k).next ≠ some .programming
  let s := due.foldl (fun s k => s.moveTile k) s
  (s.tileKeys ch).foldl (fun s k => if isSpare k then s.startRefresh k else s) s

/-- Entry to PROGRAMMING at a boundary, in the order of the waiting tiles (R59). -/
def Dev.programTiles (s : Dev) (ch : Nat) : Dev :=
  let waits := (s.tileKeys ch).filter fun k => (s.tile k).next = some .programming
  (sortBy (fun a b => decide (progRank (s.tile a) ≤ progRank (s.tile b))) waits).foldl (fun s k => s.moveTile k) s

end Sys2Proof.Machine
end

