-- ==== Sys2Proof/Machine/Entry.lean ====
section
/-! DEFINITION. Request table entries, their rings and status words (R216 to R221, R236 to R241), and what the hub keeps of them
(R385). -/

namespace Sys2Proof.Machine
open Sys2Proof

/-! ### Entry fields (R217) -/

namespace Ent
abbrev STATE_W : Nat := 0x00
abbrev CMD_W : Nat := 0x04
abbrev PRIO : Nat := 0x08
abbrev CONTEXT : Nat := 0x09
abbrev ADAPTER : Nat := 0x0A
abbrev FLAGS : Nat := 0x0C
abbrev DEADLINE : Nat := 0x10
abbrev PROMPT_ADDR : Nat := 0x18
abbrev PROMPT_LEN : Nat := 0x20
abbrev PROMPT_POS : Nat := 0x24
abbrev LEN : Nat := 0x28
abbrev CLEN : Nat := 0x2C
abbrev SAMP_PTR : Nat := 0x30
abbrev RING_ADDR : Nat := 0x38
abbrev RING_CFG : Nat := 0x40
abbrev CONSUMED : Nat := 0x44
abbrev WRITTEN : Nat := 0x48
abbrev NEW_TOK : Nat := 0x4C
abbrev STATUS_ADDR : Nat := 0x50
abbrev PT_ROOT : Nat := 0x58
abbrev SEQ_TAG : Nat := 0x60
abbrev TUNE_PTR : Nat := 0x68
abbrev TTL : Nat := 0x70
abbrev EXPIRY : Nat := 0x78
end Ent

/-- Channel of an entry key, and its index in the channel. -/
def entCh (r : Nat) : Nat := r / 512
def entIx (r : Nat) : Nat := r % 512

/-- `n` little-endian bytes of an entry at offset `o`. -/
def Dev.ent (s : Dev) (r o n : Nat) : Nat := ofBytes ((List.range n).map fun i => s.rqt.get 0 (r * 128 + o + i))

/-- Stores bytes of an entry from offset `o` on. -/
def putEntry (r o : Nat) : List Byte → Store Byte → Store Byte
  | [], m => m
  | b :: bs, m => putEntry r (o + 1) bs (m.set 0 (r * 128 + o) b)

def Dev.setEnt (s : Dev) (r o n v : Nat) : Dev := { s with rqt := putEntry r o (toBytes n v) s.rqt }

/-! State codes (R220). -/
namespace St
abbrev FREE : Nat := 0
abbrev ADMITTED : Nat := 1
abbrev PREFILL : Nat := 2
abbrev DECODE : Nat := 3
abbrev PAUSED : Nat := 4
abbrev PARKED : Nat := 5
abbrev STOPPING : Nat := 6
abbrev DONE : Nat := 7
abbrev FAILED : Nat := 8
end St

/-! Shared status codes. -/
namespace Code
abbrev OK : Nat := 0x00
abbrev PENDING : Nat := 0x01
abbrev BUSY : Nat := 0x02
abbrev RANGE : Nat := 0x03
abbrev NOSPACE : Nat := 0x04
abbrev NOSTATE : Nat := 0x05
abbrev DEADLINE : Nat := 0x06
abbrev TENANT : Nat := 0x07
abbrev LINK : Nat := 0x08
abbrev WITHDRAWN : Nat := 0x09
abbrev HALTED : Nat := 0x0A
abbrev EXPIRED : Nat := 0x0B
abbrev REJECTED : Nat := 0x0C
abbrev TIMEOUT : Nat := 0x0D
abbrev DROPPED : Nat := 0x0E
end Code

def Dev.stateW (s : Dev) (r : Nat) : Nat := s.ent r Ent.STATE_W 4
def Dev.st (s : Dev) (r : Nat) : Nat := nfld (s.stateW r) 3 0
def Dev.setSt (s : Dev) (r st : Nat) : Dev :=
  s.setEnt r Ent.STATE_W 4 (s.stateW r / 16 * 16 + st)
/-- Sets STATE, REASON, DETAIL and STOP_WHY together (R219). -/
def Dev.setStateW (s : Dev) (r st reason detail why : Nat) : Dev :=
  s.setEnt r Ent.STATE_W 4 (st + reason * 256 + detail * 65536 + why * 2 ^ 24)
def Dev.reason (s : Dev) (r : Nat) : Nat := nfld (s.stateW r) 15 8
def Dev.stopWhy (s : Dev) (r : Nat) : Nat := nfld (s.stateW r) 26 24
def Dev.clen (s : Dev) (r : Nat) : Nat := s.ent r Ent.CLEN 4
def Dev.written (s : Dev) (r : Nat) : Nat := s.ent r Ent.WRITTEN 4
def Dev.prio (s : Dev) (r : Nat) : Nat := s.ent r Ent.PRIO 1 % 16
def Dev.deadline (s : Dev) (r : Nat) : Nat := s.ent r Ent.DEADLINE 8
def Dev.flag (s : Dev) (r i : Nat) : Bool := (s.ent r Ent.FLAGS 4).testBit i

/-- "Live": any state but FREE, DONE and FAILED (R217). -/
def liveSt (st : Nat) : Bool := st ≠ St.FREE && st ≠ St.DONE && st ≠ St.FAILED
def Dev.live (s : Dev) (r : Nat) : Bool := liveSt (s.st r)

/-- The entries of a channel that hold anything, in ascending order. -/
def Dev.entries (s : Dev) (ch : Nat) : List Nat :=
  (List.range 512).map (ch * 512 + ·) |>.filter fun r => s.rqt.any fun e => e.1 / 128 = r

/-- The context whose partition holds an entry index of a channel (R247). -/
def Dev.partOwner (s : Dev) (ch ix : Nat) : Option Nat :=
  (List.range 64).find? fun n =>
    let w := s.rd .rqtCh ch 0 (Off.RQT_PART + 4 * n)
    fld w 8 0 ≤ ix && ix < fld w 8 0 + fld w 18 9

/-- A field of a context's RQT_PART: 0 BASE, 1 COUNT, 2 PRIO_MAX, 3 STEP_MAX. -/
def Dev.part (s : Dev) (ch n : Nat) : Nat × Nat × Nat × Nat :=
  let w := s.rd .rqtCh ch 0 (Off.RQT_PART + 4 * n)
  (fld w 8 0, fld w 18 9, fld w 22 19, fld w 31 23)

/-! ### Records and status words -/

/-- A token record's word (R236). -/
def recordWord (token epoch : Nat) (stop : Bool) (code : Nat) (notok : Bool) : Nat :=
  (if notok then 0 else token % 2 ^ 24) + epoch % 2 * 2 ^ 24
    + (if stop then 2 ^ 25 + code % 32 * 2 ^ 26 + notok.toNat * 2 ^ 31 else 0)

/-- Slots of the ring that hold nothing unread (R240). -/
def Dev.ringRoom (s : Dev) (r : Nat) : Nat :=
  2 ^ nfld (s.ent r Ent.RING_CFG 4) 4 0 - (s.written r + 2 ^ 32 - s.ent r Ent.CONSUMED 4) % 2 ^ 32

/-- Free records, less the one reserved for a hood's ending (R240, R245). -/
def Dev.ringFree (s : Dev) (r : Nat) : Nat := s.ringRoom r - (s.seq r).ringRsv.toNat

/-- A status word is due for an entry; with the message of R241 when `irq`. -/
def Dev.note (s : Dev) (r : Nat) (irq : Bool) : Dev := s.modSeq r fun q => { q with swDue := true, irqDue := q.irqDue || irq }

/-- Issues a record into the entry's group of this boundary (R237). -/
def Dev.putRec (s : Dev) (r word : Nat) : Dev :=
  let ch := entCh r
  let s := s.setEnt r Ent.WRITTEN 4 ((s.written r + 1) % 2 ^ 32)
  let s := s.modSeq r fun q => { q with group := q.group ++ [word], lastWord := word, swDue := true }
  (s.bump .rqtCh ch 0 Off.RQT_TOK 1).bump .rqtCx ch (s.seq r).ctx Off.RQT_CX_TOK 1

/-- Sets STOP and CODE on the entry's last token record of this boundary; none if it has none (R233). -/
def markLast (code : Nat) (ws : List Nat) : Option (List Nat) :=
  match ws.reverse with
  | [] => none
  | w :: rest => if w ≥ 2 ^ 31 then none else some (rest.reverse ++ [w % 2 ^ 25 + 2 ^ 25 + code % 32 * 2 ^ 26])

/-- A status-only record, which waits where the ring is full or another record waits already (R240). -/
def Dev.statusOnly (s : Dev) (r word why : Nat) : Dev :=
  if (s.seq r).pend.isEmpty ∧ s.ringFree r ≥ 1 then s.putRec r word
  else s.modSeq r fun q => { q with pend := q.pend ++ [⟨word, s.st r, why, s.reason r⟩] }

/-- The status word of an entry that shows a state, STOP_WHY and REASON (R238). -/
def Dev.statusWordAs (s : Dev) (r st why reason : Nat) : Nat :=
  let q := s.seq r
  s.written r + st * 2 ^ 32 + (if q.lastWord.testBit 25 then 2 ^ 36 else 0) + why * 2 ^ 37 + reason % 32 * 2 ^ 40 + q.adm % 65536 * 2 ^ 48

/-- The status word of an entry as it stands (R238). -/
def Dev.statusWord (s : Dev) (r : Nat) : Nat := s.statusWordAs r (s.st r) (s.stopWhy r) (s.reason r)

/-- Closes the entry's group: its records, the status word and the message of R241, onto the hub link as one group (R237, R241,
R385). -/
def Dev.closeRingWith (s : Dev) (r word : Nat) : Dev :=
  let q := s.seq r
  if !q.swDue then s
  else
    let ch := entCh r
    let ring := s.ent r Ent.RING_ADDR 8
    let size := 2 ^ nfld (s.ent r Ent.RING_CFG 4) 4 0
    let first := s.written r + 2 ^ 32 - q.group.length
    let recs := q.group.zipIdx.map fun e => Out.hostWrite q.ctx (ring + 4 * ((first + e.2) % 2 ^ 32 % size)) (toBytes 4 e.1)
    let sw := Out.hostWrite q.ctx (s.ent r Ent.STATUS_ADDR 8) (toBytes 8 word)
    let irq := q.irqDue && s.flag r 2 && s.inForce .rqtCh ch 0 Off.RQT_CTL 1 1 = 1 && !(s.chan ch).irqSent.contains q.ctx
    let msg := if irq then [Out.msix q.ctx (s.rdF .rqtCx ch q.ctx Off.RQT_CX_CFG 10 0)] else []
    let s := if irq then s.modChan ch fun c => { c with irqSent := q.ctx :: c.irqSent } else s
    let s := s.modSeq r fun q => { q with group := [], swDue := false, irqDue := false }
    if (s.chan ch).linkUp ∧ s.fltState ch = 0 then
      { s with hubGroups := s.hubGroups ++
          [⟨⟨Fin.ofNat 8 ch, Fin.ofNat 512 (entIx r)⟩, recs ++ [sw] ++ msg, word, s.clen r, false⟩] }
    else s

/-- The same with the status word of the entry as it stands. -/
def Dev.closeRing (s : Dev) (r : Nat) : Dev := s.closeRingWith r (s.statusWord r)

/-- Closes the groups of every entry of a channel, in ascending order (R237). -/
def Dev.closeRings (s : Dev) (ch : Nat) : Dev := (s.entries ch).foldl (fun s r => s.closeRing r) s

/-- HUB_GROUP_COMPLETE: the hub has received all of a channel's oldest group and forwards it in order (R385, R386). A hub at HALT
carries no host traffic (R375). -/
def Dev.groupComplete (s : Dev) (ch : Nat) : Dev :=
  match s.hubGroups.find? fun g => g.seq.ch.val = ch with
  | none => s
  | some g =>
    if s.hubHalt ∨ !s.vin then s
    else
      let k := g.seq.ix
      let q := s.seq k
      let s := { s with hubGroups := s.hubGroups.erase g }.emits g.writes
      s.modDlv k fun d => { d with
        recs := g.word % 2 ^ 32, pos := g.pos, gen := nfld g.word 63 48, last := nfld g.word 39 32, ctx := q.ctx, live := s.live k }

/-! ### Host writes (R217 to R219, R242) -/

/-- Who may write the byte at offset `o` of an entry in state `st`: 0 never, 1 now (R217). -/
def entryWritable (pf0 : Bool) (st o : Nat) : Bool :=
  let free := st = St.FREE
  let idle := free || st = St.PAUSED || st = St.PARKED
  if o < 0x08 then false
  else if o = 0x08 then idle
  else if o = 0x09 then free && pf0
  else if o < 0x10 then free
  else if o < 0x18 then true
  else if o < 0x24 then idle
  else if o < 0x30 then false
  else if o < 0x38 then idle
  else if o < 0x44 then free
  else if o < 0x48 then true
  else if o < 0x50 then false
  else if o < 0x58 then free
  else if o < 0x68 then false
  else if o < 0x70 then free
  else if o < 0x74 then true
  else false

/-- An entry write that is ignored counts in RQT_IGNWR (R218). -/
def Dev.ignWrite (s : Dev) (r : Nat) : Dev := s.bump .rqtCh (entCh r) 0 Off.RQT_IGNWR 1

/-- A host write to STATE_W: 1 admits a FREE entry, 0 frees a DONE or FAILED one (R219). A write through a virtual function sets
CONTEXT (R217). -/
def Dev.writeStateW (s : Dev) (fn : Nat) (r v : Nat) : Dev :=
  let st := s.st r
  if st = St.FREE ∧ v % 16 = 1 then
    (if fn = 0 then s else s.setEnt r Ent.CONTEXT 1 fn).setSt r St.ADMITTED
  else if (st = St.DONE ∨ st = St.FAILED) ∧ v % 16 = 0 then
    s.setSt r St.FREE
  else s.ignWrite r

/-- A 32-bit write to CMD_W (R242). -/
def Dev.writeCmdW (s : Dev) (r v : Nat) : Dev :=
  let s := if (s.seq r).cmdOpen then s.modSeq r fun q => { q with cmdOpen := false } else s
  s.setEnt r Ent.CMD_W 4 (v % 8 + Code.PENDING * 256)

/-- A write of CONSUMED that would pass WRITTEN − CONSUMED beyond the ring is ignored (R240). -/
def Dev.writeConsumed (s : Dev) (r v : Nat) : Dev :=
  let size := 2 ^ nfld (s.ent r Ent.RING_CFG 4) 4 0
  if (s.written r + 2 ^ 32 - v % 2 ^ 32) % 2 ^ 32 > size then s.bump .rqtCh (entCh r) 0 Off.RQT_BADCONS 1
  else s.setEnt r Ent.CONSUMED 4 v

/-- A write of some bytes of an entry by a function (R217 to R219, R240, R242). -/
def Dev.entryWrite (s : Dev) (fn r o : Nat) (bs : List Byte) : Dev :=
  let n := bs.length
  if n = 0 ∨ o + n > 128 then s
  else if o = Ent.STATE_W ∧ n = 4 then s.writeStateW fn r (ofBytes bs)
  else if o = Ent.CMD_W ∧ n = 4 then s.writeCmdW r (ofBytes bs)
  else if o = Ent.CONSUMED ∧ n = 4 then s.writeConsumed r (ofBytes bs)
  else
    let st := s.st r
    if (List.range n).all fun i => entryWritable (fn = 0) st (o + i) then
      let s := if fn = 0 then s else s.setEnt r Ent.CONTEXT 1 fn
      { s with rqt := putEntry r o bs s.rqt }
    else s.ignWrite r

end Sys2Proof.Machine
end

