-- ==== Sys2Proof/Machine/FabBase.lean ====
section
/-! DEFINITION. Sending on the fabric: node ID (R356), routes and the choice of a port (R352, R355), flits against credits and the
replay buffer (R347 to R349), and what a port's state changes bring (R346, R353, R393). -/

namespace Sys2Proof.Machine
open Sys2Proof

def Dev.fab (s : Dev) (ch : Nat) : Fab := (s.chan ch).fab
def Dev.modFab (s : Dev) (ch : Nat) (f : Fab → Fab) : Dev := s.modChan ch fun c => { c with fab := f c.fab }
def Dev.port (s : Dev) (ch p : Nat) : Port := (s.fab ch).ports.get Port.fresh p
def Dev.modPort (s : Dev) (ch p : Nat) (f : Port → Port) : Dev :=
  s.modFab ch fun x => { x with ports := x.ports.set Port.fresh p (f (x.ports.get Port.fresh p)) }
def Dev.stream (s : Dev) (ch st : Nat) : Stream := (s.fab ch).streams.get Stream.fresh st
def Dev.modStream (s : Dev) (ch st : Nat) (f : Stream → Stream) : Dev :=
  s.modFab ch fun x => { x with streams := x.streams.set Stream.fresh st (f (x.streams.get Stream.fresh st)) }
/-- Counts on a port block of an EVF_CH page (R370). -/
def Dev.portBump (s : Dev) (ch p o n : Nat) : Dev := s.bump .evfCh ch 0 (o + p * 0x40) n
def Dev.evfBump (s : Dev) (ch o n : Nat) : Dev := s.bump .evfCh ch 0 o n

/-- The module's node ID, once valid (R356, R369). -/
def Dev.node (s : Dev) : Option Nat :=
  let w := s.rd .evfMod 0 0 Off.EVF_NODE
  if bit w 15 then some (fld w 14 0) else none

/-- Whether a channel's fabric runs: powered, and not in C2 (R456). -/
def Dev.fabOn (s : Dev) (ch : Nat) : Bool := s.vin && s.cstate ch ≠ 2

/-- Virtual channel of a message (R349, R350). -/
def msgVc : FabMsg → Nat
  | .write .. | .read .. => 0
  | .readResp .. => 1
  | .signal .. | .reply .. | .digest .. | .collFail .. => 2
  | _ => 3

/-- Granules of a message (R350). -/
def msgGranules : FabMsg → Nat
  | .write _ d => 1 + ceilDiv d.length 32
  | .readResp _ d => 1 + ceilDiv d.length 32
  | .digest .. => 2
  | _ => 1

/-- What a CONTAINED or HALTED channel's egress still carries: link maintenance, refusals and withdrawals (R354, R362, R378). -/
def maintenance (m : FabMsg) : Bool :=
  msgVc m = 3 || (match m with | .reply .. | .collFail .. => true | _ => false)

/-- The ports a destination node and channel allows, as a mask; none where no entry is valid (R355). -/
def Dev.routeMask (s : Dev) (ch node dstCh : Nat) : Option Nat :=
  let sib (n : Nat) : Nat := s.rdF .evfCh ch 0 (Off.EVF_SIB + 4 * n) 7 0
  if s.node = some node then some (sib dstCh)
  else match (s.fab ch).routes.find? fun r => r.lo ≤ node && node ≤ r.hi with
    | some r => if r.valid then some (match r.ports with | some m => m | none => sib 0) else none
    | none => none

/-- The port a message takes: the UP port of the mask with the most credits, or the lowest UP port (R355). -/
def Dev.choosePort (s : Dev) (ch mask vc : Nat) : Option Nat :=
  let up := (List.range 8).filter fun p => mask.testBit p && (s.port ch p).state = 3
  if s.rdF .evfCh ch 0 Off.EVF_CTL 8 8 = 1 then
    let cred (p : Nat) : Nat := nth 0 (s.port ch p).credits vc
    up.foldl (fun (b : Option Nat) p => match b with | none => some p | some q => if cred p > cred q then some p else some q) none
  else up.head?

/-- The message whose granules a flit takes next: VC3 first, then one that has begun, since a message's granules go out back to back, then in
order the first whose virtual channel has a credit (R349; the order among the virtual channels is a DESIGN CHOICE). -/
def nextTx (credits : List Nat) (q : List TxMsg) : Option TxMsg :=
  let may (m : TxMsg) : Bool := 0 < nth 0 credits m.vc
  match q.find? fun m => m.vc = 3 && may m with
  | some m => some m
  | none =>
    match q.find? fun m => m.vc ≠ 3 && m.left < msgGranules m.msg with
    | some m => if may m then some m else none
    | none => q.find? fun m => m.vc ≠ 3 && may m

/-- A flit that is being filled: the messages still queued, the credits left, the granules free, and the messages that end in it. -/
structure FlitFill where
  q : List TxMsg
  credits : List Nat
  room : Nat
  ended : List TxMsg

/-- Fills a flit with granules of one message after the other, 64 in all (R347, R349). `n` bounds the messages. -/
def fillFlit : Nat → FlitFill → FlitFill
  | 0, f => f
  | n + 1, f =>
    match nextTx f.credits f.q with
    | none => f
    | some m =>
      let g := min f.room (min m.left (nth 0 f.credits m.vc))
      let credits := modifyAt (fun c => c - g) m.vc f.credits
      if g = 0 then f
      else if m.left ≤ g then fillFlit n ⟨f.q.erase m, credits, f.room - g, f.ended ++ [{ m with left := msgGranules m.msg }]⟩
      else ⟨f.q.map fun x => if x = m then { m with left := m.left - g } else x, credits, f.room - g, f.ended⟩

/-- Sends flits while credits and the replay buffer allow (R348, R349). `n` bounds the flits. -/
def Dev.pump (s : Dev) (ch p : Nat) : Nat → Dev
  | 0 => s
  | n + 1 =>
    let pt := s.port ch p
    let f := fillFlit (pt.txq.length + 1) ⟨pt.txq, pt.credits, 64, []⟩
    if pt.state ≠ 3 ∨ 64 ≤ pt.replay.length ∨ f.room = 64 then s
    else
      let sq := (pt.seqTx + 1) % 4096
      let s := s.modPort ch p fun x => { x with seqTx := sq, txq := f.q, replay := x.replay ++ [(sq, f.ended)], credits := f.credits }
      let s := s.portBump ch p Off.EVF_TXFLIT 1
      (f.ended.foldl (fun s m => s.emit (.fabric ch (some p) m.msg)) s).pump ch p n

/-- Queues a message on a port and sends what can go. -/
def Dev.queueMsg (s : Dev) (ch p : Nat) (stream : Option Nat) (m : FabMsg) : Dev :=
  let s := s.modPort ch p fun x => { x with txq := x.txq ++ [⟨msgVc m, msgGranules m, stream, m⟩] }
  s.pump ch p 128

/-- A link-maintenance message on one port. -/
def Dev.sendOn (s : Dev) (ch p : Nat) (m : FabMsg) : Dev := if s.fabOn ch then s.queueMsg ch p none m else s

/-- Sends a message to a node and channel; none where it ends with LINK for want of a port, or WITHDRAWN in a channel whose egress is
closed (R355, R378). -/
def Dev.sendTo (s : Dev) (ch node dstCh : Nat) (stream : Option Nat) (m : FabMsg) : Option Dev :=
  if !s.fabOn ch || (s.fltState ch ≠ 0 && !maintenance m) then none
  else
    let mask := (s.routeMask ch node dstCh).getD 0
    let pinned := match stream with
      | some st => (s.stream ch st).port.filter fun p => (s.port ch p).state = 3
      | none => none
    match pinned.or (s.choosePort ch mask (msgVc m)) with
    | none => none
    | some p =>
      let s := match stream with | some st => s.modStream ch st fun x => { x with port := some p } | none => s
      some (s.queueMsg ch p stream m)

/-- The same, where nothing waits for the outcome. -/
def Dev.send (s : Dev) (ch node dstCh : Nat) (m : FabMsg) : Dev := (s.sendTo ch node dstCh none m).getD s

/-- Sends a message of a stream, which a NOTREADY may hold (R351, R358). -/
def Dev.sendStream (s : Dev) (ch node dstCh st : Nat) (m : FabMsg) : Option Dev :=
  if (s.stream ch st).held then some (s.modStream ch st fun x => { x with wait := x.wait ++ [(node, dstCh, m)] })
  else (s.sendTo ch node dstCh (some st) m).map fun s => s.modStream ch st fun x => { x with last := some (node, dstCh, m) }

def addrNode (a : Word64) : Nat := a.toNat / 2 ^ 49
def addrCh (a : Word64) : Nat := a.toNat / 2 ^ 46 % 8
/-- The device address of a global address (R443). -/
def devAddr (a : Word64) : Nat := a.toNat % 2 ^ 49

/-- A WRITE on a stream: OFFSET counts the stream's data bytes so far (R350). -/
def Dev.sendWrite (s : Dev) (ch ctx st : Nat) (dst : Word64) (data : List Byte) : Option Dev :=
  match s.node with
  | none => none
  | some n =>
    let off := (s.stream ch st).offset
    let h : MsgHdr := ⟨0, st, Fin.ofNat 32768 n, Fin.ofNat 8 ch, Fin.ofNat 64 ctx, dst, off, 0, data.length, 0⟩
    (s.sendStream ch (addrNode dst) (addrCh dst) st (.write h data)).map fun s =>
      s.modStream ch st fun x => { x with offset := (off + data.length) % 2 ^ 48 }

/-- WRITEs of at most 131,072 bytes each. -/
def Dev.sendWrites (s : Dev) (ch ctx st : Nat) (dst : Word64) (data : List Byte) : Nat → Option Dev
  | 0 => some s
  | n + 1 =>
    if data.isEmpty then some s
    else match s.sendWrite ch ctx st dst (data.take 131072) with
      | some s => s.sendWrites ch ctx st (dst + 131072) (data.drop 131072) n
      | none => none

/-- A READ on a stream, open until its data come or its time is over (R354). -/
def Dev.sendRead (s : Dev) (ch ctx : Nat) (src : Word64) (len : Nat) (r : OpenRead) : Option Dev :=
  match s.node with
  | none => none
  | some n =>
    let h : MsgHdr := ⟨0, r.stream, Fin.ofNat 32768 n, Fin.ofNat 8 ch, Fin.ofNat 64 ctx, src, 0, r.tag, len, 0⟩
    (s.modFab ch fun x => { x with reads := x.reads ++ [r] }).sendStream ch (addrNode src) (addrCh src) r.stream (.read h)

/-- HELLO of a channel on one port (R346, R393). -/
def Dev.helloOn (s : Dev) (ch p : Nat) (standby : Bool) : Dev :=
  s.sendOn ch p (.hello s.node ch p (s.fltState ch) standby)

def Dev.upPorts (s : Dev) (ch : Nat) : List Nat := (List.range 8).filter fun p => (s.port ch p).state = 3

/-- HELLO on every UP port of a channel. -/
def Dev.helloAll (s : Dev) (ch : Nat) (standby : Bool) : Dev := (s.upPorts ch).foldl (fun s p => s.helloOn ch p standby) s

/-- HELLO on every UP port of every channel: the node ID has changed (R356). -/
def Dev.helloModule (s : Dev) : Dev := (List.range 8).foldl (fun s ch => s.helloAll ch false) s

/-- A port that is powered takes the state its PORT_EN bit gives it (R346). -/
def Dev.enablePorts (s : Dev) (ch : Nat) : Dev :=
  (List.range 8).foldl (fun s p =>
    let en := s.rdF .evfCh ch 0 Off.EVF_CTL p p = 1 && s.fabOn ch
    let st := (s.port ch p).state
    if !en && st ≠ 0 then s.modPort ch p fun _ => Port.fresh
    else if en && st = 0 then s.modPort ch p fun x => { x with state := 1 }
    else s) s

/-- Channel time, ms. -/
def Dev.chMs (s : Dev) (ch : Nat) : Nat := (s.chan ch).time / 1000000

/-- PORT_SIGNAL_DETECT and PORT_RETRY_TIMER: training starts on a DOWN port (R346). -/
def Dev.startTraining (s : Dev) (ch p : Nat) : Dev :=
  if (s.port ch p).state = 1 ∧ s.fabOn ch then s.modPort ch p fun x => { x with state := 2, partner := none } else s

/-- A sibling entry is filled from HELLO on a port whose partner is in the same node (R357). An entry that software wrote stays. -/
def Dev.learnSibling (s : Dev) (ch p : Nat) (h : Hello) : Dev :=
  let o := Off.EVF_SIB + 4 * h.ch.val
  let w := s.rd .evfCh ch 0 o
  match s.node, h.node with
  | some n, some k =>
    if n = k.val ∧ (bit w 8 ∨ fld w 7 0 = 0) then s.wr .evfCh ch 0 o (setBit (setBit w p true) 8 true) else s
  | _, _ => s

/-- What HELLO tells of a partner: identity, siblings, fault state, standby (R346, R357, R393, R458). -/
def Dev.takeHello (s : Dev) (ch p : Nat) (h : Hello) : Dev :=
  let old := (s.port ch p).partner
  let s := (s.modPort ch p fun x => { x with partner := some h }).learnSibling ch p h
  let was := match old with | some o => o.fault.val | none => 0
  let node := match h.node with | some n => n.val | none => 0
  let s := if was ≠ h.fault.val then
    s.record ch ⟨0x101, 5, 127, 8, false, false, [node % 256, node / 256, h.ch.val, h.fault.val]⟩ else s
  if h.standby then s.modPort ch p fun x => { x with state := 1, txq := [], replay := [] } else s

/-- PORT_TRAINING_DONE: lock and HELLO bring the port UP; a port that trained in full starts its sequence and credits afresh (R346). -/
def Dev.trained (s : Dev) (ch p : Nat) (h : Hello) : Dev :=
  let pt := s.port ch p
  if pt.state = 2 then
    let s := s.modPort ch p fun x => { Port.fresh with state := 3, fails := x.fails }
    ((s.takeHello ch p h).helloOn ch p false).pump ch p 128
  else if pt.state = 4 then
    let s := s.modPort ch p fun x => { x with state := 3, fast := false }
    ((s.takeHello ch p h).helloOn ch p false).pump ch p 128
  else s

/-- PORT_TRAINING_FAIL: a first training returns to DOWN; in RETRAIN the fast re-lock is followed by full trainings, and the third that
fails within 10 s ends in DOWN with PORT_DOWN (R346). -/
def Dev.trainFail (s : Dev) (ch p : Nat) : Dev :=
  let pt := s.port ch p
  if pt.state = 2 then s.modPort ch p fun x => { x with state := 1 }
  else if pt.state = 4 then
    if pt.fast then s.modPort ch p fun x => { x with fast := false }
    else
      let now := s.chMs ch
      let fails := now :: pt.fails.filter fun t => decide (now < t + 10000)
      if fails.length ≥ 3 then
        (s.modPort ch p fun _ => { Port.fresh with state := 1 }).raiseAt ch 68 false (.port (Fin.ofNat 8 p)) [p]
      else s.modPort ch p fun x => { x with fails := fails }
  else s

/-- Streams whose messages a list of queued messages carries. -/
def txStreams (ms : List TxMsg) : List Nat := (ms.filterMap (·.stream)).eraseDups

/-- Sends the messages of a port that retrains again on another port of their route, and pins their streams there; messages without
another port wait (R353). `dest` gives a message's destination. -/
def msgDest : FabMsg → Option (Nat × Nat)
  | .write h _ => some (h.dst.toNat / 2 ^ 49, h.dst.toNat / 2 ^ 46 % 8)
  | .read h => some (h.dst.toNat / 2 ^ 49, h.dst.toNat / 2 ^ 46 % 8)
  | .readResp h _ => some (h.dst.toNat / 2 ^ 49, h.dst.toNat / 2 ^ 46 % 8)
  | .reply n c _ _ _ => some (n, c)
  | .collFail n c .. => some (n, c)
  | .signal n s => some (n, s.dstCh.val)
  | .digest n d => some (n, d.dstCh.val)
  | .notReady n c _ => some (n, c)
  | _ => none

/-- PORT_RETRAIN_TRIGGER: the port enters RETRAIN and hands its replay buffer over, with a message of which only a part has gone out (R346,
R353). -/
def Dev.retrain (s : Dev) (ch p : Nat) (why : RetrainWhy) : Dev :=
  let pt := s.port ch p
  if pt.state ≠ 3 then s
  else
    let begun (m : TxMsg) : Bool := m.left < msgGranules m.msg
    let ms := (pt.replay.map (·.2)).flatten ++ (pt.txq.filter begun).map fun m => { m with left := msgGranules m.msg }
    let s := s.modPort ch p fun x => { x with state := 4, fast := true, replay := [], txq := x.txq.filter fun m => !begun m }
    let s := s.portBump ch p Off.EVF_RETRAIN 1
    let s := ms.foldl (fun s m =>
      let other := match msgDest m.msg with
        | some (n, c) => s.choosePort ch ((s.routeMask ch n c).getD 0) m.vc
        | none => none
      match other with
      | some q =>
        let s := match m.stream with | some st => s.modStream ch st fun x => { x with port := some q } | none => s
        s.queueMsg ch q m.stream m.msg
      | none => s.modPort ch p fun x => { x with txq := x.txq ++ [m] }) s
    match why with
    | .replays => s.raiseAt ch 69 false (.port (Fin.ofNat 8 p)) [p]
    | _ => s

end Sys2Proof.Machine
end

