-- ==== Sys2Proof/Machine/Sampler.lean ====
section
/-! DEFINITION. The sampler (R228 to R230) and the stop conditions (R231, R232): the draw, the kept prefix, speculative
verification, and the progress of stop sequences. -/

namespace Sys2Proof

/-! ### The sampling block (R228) -/

/-- `n` little-endian bytes of a block at offset `o`. -/
def blkN (b : List Byte) (o n : Nat) : Nat := ofBytes ((b.drop o).take n)

namespace Blk
def temp (b : List Byte) : F32 := BitVec.ofNat 32 (blkN b 0 4)
def topP (b : List Byte) : F32 := BitVec.ofNat 32 (blkN b 4 4)
def topK (b : List Byte) : Nat := blkN b 8 1
def nStopTok (b : List Byte) : Nat := blkN b 9 1
def nStopSeq (b : List Byte) : Nat := blkN b 10 1
def draftMax (b : List Byte) : Nat := blkN b 11 1
def maxNew (b : List Byte) : Nat := blkN b 12 4
def seed (b : List Byte) : Nat := blkN b 16 8
def stopTok (b : List Byte) (i : Nat) : Nat := blkN b (0x40 + 4 * i) 4
def stopLen (b : List Byte) (i : Nat) : Nat := blkN b (0x80 + i) 1
def stopWord (b : List Byte) (i j : Nat) : Nat := blkN b (0x100 + 64 * i + 4 * j) 4
end Blk

/-- Whether a byte of the block must be 0: one that R228 lists for no field. -/
def blkMustZero (o : Nat) : Bool := (0x18 ≤ o && o < 0x40) || (0x88 ≤ o && o < 0x100) || 0x300 ≤ o

/-- R228: every used field in range, for a pattern's vocabulary and draft limit. -/
def blkOk (b : List Byte) (vocab draftLim : Nat) : Bool :=
  let t := Blk.temp b
  let p := Blk.topP b
  let tokOk (w : Nat) : Bool := w < 2 ^ 24 && w < vocab
  let n := Blk.nStopSeq b
  (t = 0 || (F32.le (F32.ofRat false 1 256) t && F32.le t (F32.ofNat 256)))
    && F32.lt 0 p && F32.le p F32.one
    && 1 ≤ Blk.topK b && Blk.topK b ≤ 64 && Blk.nStopTok b ≤ 16 && n ≤ 8
    && Blk.draftMax b ≤ draftLim && 1 ≤ Blk.maxNew b && Blk.maxNew b ≤ 4194304
    && ((List.range (Blk.nStopTok b)).all fun i => tokOk (Blk.stopTok b i))
    && ((List.range n).all fun i => 1 ≤ Blk.stopLen b i && Blk.stopLen b i ≤ 16
        && ((List.range (Blk.stopLen b i)).all fun j => tokOk (Blk.stopWord b i j)))
    && ((b.zipIdx).all fun e => !blkMustZero e.2 || e.1 = 0)

/-! ### Drawing (R229) -/

/-- The 64-bit generator, and its top 24 bits as a uniform number in [0, 1). -/
def drawBits (seed ctr : Nat) : Nat :=
  let m := 2 ^ 64
  let x := (seed + ctr * 0x9E3779B97F4A7C15) % m
  let x := ((x ^^^ (x >>> 30)) * 0xBF58476D1CE4E5B9) % m
  let x := ((x ^^^ (x >>> 27)) * 0x94D049BB133111EB) % m
  let x := x ^^^ (x >>> 31)
  x >>> 40
def draw (seed ctr : Nat) : F32 := F32.ofRat false (drawBits seed ctr) 16777216

/-- The k highest entries of a row in the order of R155: listed tokens and the lowest of the others, which hold the floor. -/
def topOf (row : LogitRow) (vocab k : Nat) : List (F32 × Word) :=
  let listed := (row.listed.filter fun e => e.1 < vocab).map fun e => (e.2, BitVec.ofNat 32 e.1)
  let others := ((List.range (k + listed.length)).filter fun t => t < vocab && !(row.listed.any fun e => e.1 = t)).take k
  topkMerge k listed (others.map fun t => (row.floor, BitVec.ofNat 32 t))

/-- Weights of the top entries: exp((value − top) / TEMP), +0 for a NaN or −∞ (R229). -/
def weights (temp : F32) (top : List (F32 × Word)) : List F32 :=
  match top with
  | [] => []
  | t :: _ => top.map fun e =>
    if F32.isNan e.1 || (F32.isInf e.1 && F32.neg? e.1) then 0 else F32.exp (F32.div (F32.sub e.1 t.1) temp)

/-- Pairwise sum along the canonical tree of R147. -/
def pairSum (l : List F32) : F32 := treeReduce F32.add 0 l

/-- The smallest prefix that reaches the limit, as a count and its running sum (R229). -/
def keepPrefix (lim : F32) : List F32 → Nat → F32 → Nat × F32
  | [], n, acc => (n, acc)
  | w :: ws, n, acc =>
    let acc := F32.add acc w
    if F32.le lim acc then (n + 1, acc) else keepPrefix lim ws (n + 1) acc

/-- A kept distribution: tokens with their weights, in top order, and the running sum `acc`; `single` when the largest value is
non-finite or TEMP is 0, which leaves top[0] alone (R229). -/
structure Kept where
  toks : List (Nat × F32)
  acc : F32
  nonfinite : Bool
deriving DecidableEq, Repr

def keptOf (row : LogitRow) (vocab : Nat) (b : List Byte) : Kept :=
  let top := topOf row vocab (Blk.topK b)
  match top with
  | [] => ⟨[(0, F32.one)], F32.one, false⟩
  | t :: _ =>
    let bad := F32.isNan t.1 || F32.isInf t.1
    if bad ∨ Blk.temp b = 0 then ⟨[(t.2.toNat, F32.one)], F32.one, bad⟩
    else
      let ws := weights (Blk.temp b) top
      let k := keepPrefix (F32.mul (Blk.topP b) (pairSum ws)) ws 0 0
      ⟨((top.zip ws).take k.1).map fun e => (e.1.2.toNat, e.2), k.2, false⟩

/-- The first token whose running sum exceeds `u`; the last one otherwise (R229). -/
def walkFrom (u : F32) : List (Nat × F32) → F32 → Nat → Nat
  | [], _, last => last
  | (t, w) :: rest, c, _ =>
    let c := F32.add c w
    if F32.lt u c then t else walkFrom u rest c t

/-- Samples from a kept distribution with draw number `ctr` (R229). -/
def sampleKept (k : Kept) (seed ctr : Nat) : Nat :=
  match k.toks with
  | [(t, _)] => t
  | _ => walkFrom (F32.mul (draw seed ctr) k.acc) k.toks 0 0

/-- Probability of a token in a kept distribution (R230). -/
def probOf (k : Kept) (t : Nat) : F32 :=
  match k.toks.find? fun e => e.1 = t with
  | some e => F32.div e.2 k.acc
  | none => 0

/-- The token that replaces a rejected draft: from max(0, P − Q), or from P where that is 0 everywhere (R230). -/
def residualToken (p q : Kept) (seed pos : Nat) : Nat :=
  let r := p.toks.map fun e => (e.1, F32.max 0 (F32.sub (probOf p e.1) (probOf q e.1)))
  let tot := pairSum (r.map (·.2))
  if F32.lt 0 tot then
    let u := F32.mul (draw seed (2 * pos)) tot
    let lastPos := match (r.filter fun e => F32.lt 0 e.2).getLast? with | some e => e.1 | none => 0
    let t := walkFrom u r 0 lastPos
    -- the walk's fallback is the last entry with a positive residual
    if (r.foldl (fun c e => F32.add c e.2) 0#32) |> F32.lt u then t else lastPos
  else sampleKept p seed (2 * pos)

/-- Treats the drafts in order: the committed tokens, how many drafts were accepted, and how many target positions had a
non-finite largest logit (R230). `tgt i` is the target's kept distribution at position pos + i, `dft i` the draft's. -/
def verifyDrafts (temp0 : Bool) (seed : Nat) (tgt dft : Nat → Kept) : List Nat → Nat → Nat → List Nat × Nat × Nat
  | [], i, pos => let p := tgt i; ([sampleKept p seed (2 * (pos + i))], 0, p.nonfinite.toNat)
  | d :: ds, i, pos =>
    let p := tgt i
    let nf := p.nonfinite.toNat
    let q := pos + i
    let ok := if temp0 then (p.toks.head?.map (·.1)) = some d
      else F32.lt (F32.mul (draw seed (2 * q + 1)) (probOf (dft i) d)) (probOf p d)
    if ok then
      let r := verifyDrafts temp0 seed tgt dft ds (i + 1) pos
      (d :: r.1, r.2.1 + 1, r.2.2 + nf)
    else ([if temp0 then (match p.toks with | e :: _ => e.1 | [] => 0) else residualToken p (dft i) seed q], 0, nf)

/-! ### Stop conditions (R231, R232) -/

/-- Tokens of stop sequence i. -/
def stopSeq (b : List Byte) (i : Nat) : List Nat := (List.range (Blk.stopLen b i)).map fun j => Blk.stopWord b i j % 2 ^ 24

/-- Progress after one more token: the longest prefix of the sequence that ends the output, the whole one included. The output's
relevant end is the prefix already matched followed by the token. -/
def advanceOne (sq : List Nat) (have_ : Nat) (tok : Nat) : Nat :=
  let out := sq.take have_ ++ [tok]
  ((List.range (min sq.length out.length + 1)).filter fun k => sq.take k = out.drop (out.length - k)).foldl max 0

/-- Progress of every stop sequence after a token; a complete one falls back to its longest proper prefix (R232). -/
def advanceAll (b : List Byte) (pr : List Nat) (tok : Nat) : List Nat × Bool :=
  let raw := (List.range 8).map fun i =>
    if i < Blk.nStopSeq b then advanceOne (stopSeq b i) (nth 0 pr i) tok else 0
  let full (i : Nat) : Bool := i < Blk.nStopSeq b && nth 0 raw i = Blk.stopLen b i
  let proper (i : Nat) : Nat :=
    let sq := stopSeq b i
    ((List.range sq.length).filter fun k => sq.take k = sq.drop (sq.length - k)).foldl max 0
  ((List.range 8).map fun i => if full i then proper i else nth 0 raw i, (List.range 8).any full)

/-- STOP_WHY of a committed token at a position, 0 for none, and the new progress (R231). -/
def stopWhyOf (b : List Byte) (pr : List Nat) (tok newTok pos maxLen : Nat) : Nat × List Nat :=
  let a := advanceAll b pr tok
  let why :=
    if (List.range (Blk.nStopTok b)).any fun i => Blk.stopTok b i % 2 ^ 24 = tok then 1
    else if a.2 then 2
    else if newTok ≥ Blk.maxNew b then 3
    else if pos + 1 ≥ maxLen then 5
    else 0
  (why, a.1)

end Sys2Proof
end

