-- ==== Sys2Proof/Machine/Frames.lean ====
section
/-! DEFINITION. State memory: page geometry (R187), the frames of each tier and who holds them (R190, R194, R215, R294, R531), leaves and directories
(R191), and what a sequence holds. -/

namespace Sys2Proof.Machine
open Sys2Proof

/-! ### Page geometry (R186, R187, R191) -/

abbrev frameBytes : Nat := 262144
/-- Sixteen times b(fmt), the bytes of one head and position (R186). -/
def bytes16 (dH q : Nat) : Nat := dH * (4 * q + 1)
def isAttn (l : Layer) : Bool := l.kind = 2
def isSsm (l : Layer) : Bool := l.kind = 10
/-- Attention and state layers with their index in the pattern. -/
def pageLayers (p : Pattern) : List (Nat × Layer) := (p.layers.zipIdx.map fun e => (e.2, e.1)).filter fun e => isAttn e.2 || isSsm e.2
def attnLayers (p : Pattern) : List (Nat × Layer) := (pageLayers p).filter fun e => isAttn e.2
/-- span_l of a layer (R187). -/
def spanOf (l : Layer) : Nat :=
  ([1024, 512, 256, 128, 64].find? fun n => n * l.hKv * bytes16 l.dH l.kvFmt ≤ 262080 * 16).getD 64
/-- SPAN of a pattern. -/
def spanP (p : Pattern) : Nat :=
  match (attnLayers p).map fun e => spanOf e.2 with
  | [] => 64
  | a :: as => as.foldl min a
/-- f(fmt): frames of a page of the layer in a format. -/
def framesOf (span : Nat) (l : Layer) (q : Nat) : Nat :=
  let hpf := min l.hKv (262080 * 16 / (span * bytes16 l.dH q))
  if hpf = 0 then l.hKv else ceilDiv l.hKv hpf
/-- Heads that one frame of the layer's pages holds in a format. -/
def headsPerFrame (span : Nat) (l : Layer) (q : Nat) : Nat := max 1 (min l.hKv (262080 * 16 / (span * bytes16 l.dH q)))
/-- The smallest power of two that is at least `n`. -/
def pow2Up (n : Nat) : Nat := if n ≤ 1 then 1 else 2 ^ (Nat.log2 (n - 1) + 1)
/-- F, the slot size. -/
def slotF (p : Pattern) : Nat :=
  let a := ((attnLayers p).map fun e => framesOf (spanP p) e.2 8).foldl max 1
  pow2Up (if (pageLayers p).any (fun e => isSsm e.2) then max 2 a else a)
/-- LPL of a pattern (R191). -/
def lplP (p : Pattern) : Nat := ceilDiv (ceilDiv p.maxLen (spanP p) * slotF p) 1024

/-- Whether a position is global for a layer (R163). -/
def isGlobalPos (l : Layer) (j : Nat) : Bool :=
  l.attKind = 1 && match l.glbMode with
    | 1 => j < l.ng
    | 2 => j % l.glbStride = 0 && j / l.glbStride < l.ng
    | _ => false
/-- Whether a page of a layer holds a global position. -/
def pageGlobal (l : Layer) (span i : Nat) : Bool :=
  l.attKind = 1 && match l.glbMode with
    | 1 => i * span < l.ng
    | 2 => let first := ceilDiv (i * span) l.glbStride; first < l.ng && first * l.glbStride < (i + 1) * span
    | _ => false

/-! ### Frames -/

/-- T1 frames of a channel's HBM, and T2 frames of its capacity tier (R8, R194). -/
def t1Frames : Nat := 1048576
def t2Frames : Nat := if Config.isL2 then 1048576 else 2097152

/-- KVP_T1_TOT: what is left beside the working area, the staging areas and the digital parts; 0 before initialisation (R194). -/
def Dev.t1Tot (s : Dev) (ch : Nat) : Nat :=
  let m := s.memOf ch
  if m.zeroed then t1Frames - Config.workFrames - (m.ranges.map (·.n)).sum else 0
/-- KVP_T2_TOT, reported from READY on; the free frames are counted once T2 has been zeroed (R475). -/
def Dev.t2Tot (s : Dev) (ch : Nat) : Nat := if (s.memOf ch).t2Known then t2Frames else 0

/-- Entry keys of a channel that have a sequence. -/
def Dev.seqsOf (s : Dev) (ch : Nat) : List Nat := (s.seqs.map (·.1)).filter fun r => entCh r = ch
/-- Reserved frames not yet used: per sequence and per context (R214, R294). -/
def Dev.rsvOf (s : Dev) (ch : Nat) : Nat :=
  ((s.seqsOf ch).map fun r => (s.seq r).rsv).sum + (s.ctxs.map fun e => nth 0 e.2.t1Short ch).sum
def Dev.t1Used (s : Dev) (ch : Nat) : Nat := ((s.memOf ch).t1.filter fun e => e.2.used).length
def Dev.t2Used (s : Dev) (ch : Nat) : Nat := ((s.memOf ch).t2.filter fun e => e.2.used).length
/-- KVP_T1_FREE, reservations excluded (R214). -/
def Dev.t1Free (s : Dev) (ch : Nat) : Nat := s.t1Tot ch - s.t1Used ch - s.rsvOf ch
def Dev.t2Free (s : Dev) (ch : Nat) : Nat := if (s.memOf ch).zeroed2 then t2Frames - s.t2Used ch else 0

/-- The lowest index from `b` on that no listed frame uses. -/
def nextFree : Store FrameSt → Nat → Nat
  | [], b => b
  | (k, v) :: m, b => if k < b then nextFree m b else if k = b && v.used then nextFree m (b + 1) else b

/-- The lowest free T1 index from `b` on, outside the ranges set aside. -/
def freeT1Ix (m : Mem) : Nat → Nat → Nat
  | 0, b => b
  | f + 1, b =>
    let i := nextFree m.t1 b
    match m.ranges.find? fun g => g.first ≤ i && i < g.first + g.n with
    | some g => freeT1Ix m f (g.first + g.n)
    | none => i

/-- First device address of a frame of T1, T2 or T3; that of a frame lent by another module is its global address with the node raised by one,
outside the device's own addresses. -/
def frameBase (f : Frame) : Nat := tierBase f.ch (if f.tier = 1 then 1 else 2) + f.ix * frameBytes

/-- Takes one T1 frame for a context; a frame that another context owned last is cleared first (R190). -/
def Dev.takeT1One (s : Dev) (ch ctx : Nat) : Dev × Frame :=
  let m := s.memOf ch
  let i := freeT1Ix m (m.ranges.length + 1) Config.workFrames
  let old := (m.t1.get FrameSt.fresh i).owner
  let s := s.modMem ch fun m => { m with t1 := m.t1.set FrameSt.fresh i ⟨ctx + 1, true⟩ }
  let s := if old ≠ 0 ∧ old ≠ ctx + 1 then
      (s.zero (tierBase ch 1 + i * frameBytes) frameBytes).bump .kvpCh ch 0 Off.KVP_SCRUB 1
    else s
  (s.bump .kvpCh ch 0 Off.KVP_ALLOC 1, ⟨1, ch, i⟩)

/-- The same in T2. -/
def Dev.takeT2One (s : Dev) (ch ctx : Nat) : Dev × Frame :=
  let i := nextFree (s.memOf ch).t2 0
  let old := ((s.memOf ch).t2.get FrameSt.fresh i).owner
  let s := s.modMem ch fun m => { m with t2 := m.t2.set FrameSt.fresh i ⟨ctx + 1, true⟩ }
  let s := if old ≠ 0 ∧ old ≠ ctx + 1 then
      (s.zero (tierBase ch 2 + i * frameBytes) frameBytes).bump .kvpCh ch 0 Off.KVP_SCRUB 1
    else s
  (s.bump .kvpCh ch 0 Off.KVP_ALLOC 1, ⟨2, ch, i⟩)

/-- Takes `n` frames with one of the above. -/
def takeMany (one : Dev → Dev × Frame) : Nat → Dev → Dev × List Frame
  | 0, s => (s, [])
  | n + 1, s =>
    let a := one s
    let b := takeMany one n a.1
    (b.1, a.2 :: b.2)
def Dev.takeT1 (s : Dev) (ch ctx n : Nat) : Dev × List Frame := takeMany (fun s => s.takeT1One ch ctx) n s
def Dev.takeT2 (s : Dev) (ch ctx n : Nat) : Dev × List Frame := takeMany (fun s => s.takeT2One ch ctx) n s

/-- Frees a frame of any tier; a T4 frame carries channel × 64 + context in `ch`. -/
def Dev.freeFrame (s : Dev) (f : Frame) : Dev :=
  let clear (m : Store FrameSt) : Store FrameSt := m.set FrameSt.fresh f.ix ⟨(m.get FrameSt.fresh f.ix).owner, false⟩
  match f.tier with
  | 1 => s.modMem f.ch fun m => { m with t1 := clear m.t1 }
  | 2 => s.modMem f.ch fun m => { m with t2 := clear m.t2 }
  | 3 => s.modMem f.ch fun m => { m with t2 := clear m.t2, lent := m.lent.erase f.ix }
  | _ => s.modCtx (f.ch % 64) fun c => { c with hoodFrames := c.hoodFrames.erase (f.ch / 64 * 2 ^ 24 + f.ix) }
def Dev.freeFrames (s : Dev) (fs : List Frame) : Dev := fs.foldl (fun s f => s.freeFrame f) s

/-! ### Lending (R531) -/

/-- Whether fabric traffic finds a way from a channel to another of the module: the module has a node ID, and a port of the sibling mask is UP
or retrains (R346, R355, R358). -/
def Dev.sibLink (s : Dev) (a b : Nat) : Bool :=
  let m := s.rdF .evfCh a 0 (Off.EVF_SIB + 4 * b) 7 0
  s.node.isSome && (List.range 8).any fun p => m.testBit p && ((s.port a p).state = 3 || (s.port a p).state = 4)

/-- Whether two channels of the module reach each other (R9). -/
def Dev.siblings (s : Dev) (a b : Nat) : Bool := s.sibLink a b && s.sibLink b a

/-- Frames that a peer of the module can lend to a channel: its T2 stays above 1/16 free, and the fabric joins the two (R9, R531). -/
def Dev.lendable (s : Dev) (ch p : Nat) : Nat :=
  if s.fltState p = 0 ∧ s.chReady p ∧ s.siblings ch p then s.t2Free p - s.t2Tot p / 16 else 0
/-- The other channels, in ascending order starting after the borrower's own. -/
def peersOf (ch : Nat) : List Nat := (List.range 7).map fun i => (ch + 1 + i) % 8
/-- Frames that the peers of the module, then channels of other modules at this boundary, lend. -/
def Dev.t3Free (s : Dev) (ch : Nat) : Nat := ((peersOf ch).map fun p => s.lendable ch p).sum + (s.chan ch).offers.length

/-- Borrows `n` frames from the peers in order, then from other modules; the caller has checked `t3Free`. -/
def Dev.takeT3 (s : Dev) (ch ctx n : Nat) : Dev × List Frame :=
  let t := (peersOf ch).foldl (fun acc p =>
    let k := min (n - acc.2.length) (acc.1.lendable ch p)
    let t := acc.1.takeT2 p ctx k
    let fs := t.2.map fun f => (⟨3, p, f.ix⟩ : Frame)
    (t.1.modMem p fun m => { m with lent := m.lent ++ fs.map (·.ix) }, acc.2 ++ fs)) ((s, []) : Dev × List Frame)
  let k := n - t.2.length
  let far := (t.1.chan ch).offers.take k
  (t.1.modChan ch fun c => { c with offers := c.offers.drop k }, t.2 ++ far)

/-- The frames that channels of other modules lend to a channel at a boundary, as answers to Scaes: those of nodes with a valid route entry, in
ascending node ID (R531). -/
def Dev.takeOffers (s : Dev) (ch : Nat) (ls : List (ChId × Fin 32768 × ChId × Nat)) : Dev :=
  let far := ls.filter fun l => l.1.val = ch && s.node ≠ some l.2.1.val && (s.routeMask ch l.2.1.val l.2.2.1.val).isSome
  s.modChan ch fun c => { c with offers := (sortBy (fun a b => decide (a.ch ≤ b.ch)) (far.map fun l =>
    (⟨3, 8 * (l.2.1.val + 1) + l.2.2.1.val, l.2.2.2⟩ : Frame))).eraseDups }

/-- Hood area frames of a context in use on a channel. -/
def Dev.t4Used (s : Dev) (ch ctx : Nat) : List Nat := ((s.ctx ctx).hoodFrames.filter fun k => k / 2 ^ 24 = ch).map (· % 2 ^ 24)
/-- Free frames of a context's hood area (KVP_CX_HFREE). -/
def Dev.t4Free (s : Dev) (ch ctx : Nat) : Nat := s.rdF .kvpCx ch ctx Off.KVP_CX_HSIZE 23 0 - (s.t4Used ch ctx).length
/-- The lowest index not in a list. -/
def lowestNot (l : List Nat) : Nat := ((List.range (l.length + 1)).find? fun i => !l.contains i).getD 0
def Dev.takeT4 (s : Dev) (ch ctx n : Nat) : Dev × List Frame :=
  takeMany (fun s =>
    let i := lowestNot (s.t4Used ch ctx)
    (s.modCtx ctx fun c => { c with hoodFrames := c.hoodFrames ++ [ch * 2 ^ 24 + i] }, ⟨4, ch * 64 + ctx, i⟩)) n s

/-! ### Sequences and their pages -/

/-- Key of a page within a sequence. -/
def pageKey (layer page : Nat) : Nat := layer * 2 ^ 17 + page
def keyLayer (k : Nat) : Nat := k / 2 ^ 17
def keyPage (k : Nat) : Nat := k % 2 ^ 17

def Dev.patOf (s : Dev) (ctx : Nat) : Option Pattern := (s.ctx ctx).pat
def Dev.seqPat (s : Dev) (r : Nat) : Option Pattern := s.patOf (s.seq r).ctx

/-- Every frame a sequence holds, moves included. -/
def seqFrames (q : Seq) : List Frame :=
  ((q.pages.map fun e => e.2.frames ++ (match e.2.move with | some m => m.dst | none => [])).flatten) ++ q.log ++ q.ckptFrames ++ q.work ++ q.hoodAux ++ q.restoreLog

/-- Place of a layer among the attention and state layers of its pattern, which is its number in page tables and headers (R189, R191). -/
def pageOrd (p : Pattern) (layer : Nat) : Nat := ((pageLayers p).map (·.1)).idxOf layer

/-- Leaf pointer of a sequence's page (R191). -/
def leafOfKey (pat : Pattern) (k : Nat) : Nat := pageOrd pat (keyLayer k) * lplP pat + keyPage k * slotF pat / 1024

/-- Leaf pointers of a sequence whose leaves hold an entry that is not EMPTY (R191). -/
def leafPtrs (p : Pattern) (q : Seq) : List Nat :=
  (q.pages.map fun e => leafOfKey p e.1).eraseDups

/-- Page-table leaves that an entry holds in T1: pointer indexes (R191). -/
def Dev.leavesOf (s : Dev) (r : Nat) : List Nat :=
  match s.seqPat r with
  | some p => if (s.seq r).hoodTier ≠ 0 then [] else leafPtrs p (s.seq r)
  | none => []

/-- Owner of leaf frames, which are shared by sequences of every context: no context's number. -/
abbrev leafOwner : Nat := 64

/-- A leaf of an entry is placed at the lowest free place of a leaf frame, or in a new one (R191). -/
def Dev.addLeaf (s : Dev) (ch r ptr : Nat) : Dev :=
  let ls := (s.memOf ch).leaves
  let spot := (ls.map (·.frame)).eraseDups.findSome? fun f =>
    ((List.range 16).find? fun i => !ls.any fun l => l.frame = f && l.slot = i).map fun i => (f, i)
  let t := match spot with
    | some x => (s, x)
    | none => let t := s.takeT1One ch leafOwner; (t.1, (t.2.ix, 0))
  t.1.modMem ch fun m => { m with leaves := m.leaves ++ [⟨t.2.1, t.2.2, r, ptr⟩] }

/-- The leaves of a channel, 16 to a frame, are brought to what its sequences need; a leaf frame without a leaf is freed (R191). -/
def Dev.fitLeaves (s : Dev) (ch : Nat) : Dev :=
  let want := (s.seqsOf ch).flatMap fun r => (s.leavesOf r).map fun p => (r, p)
  let old := (s.memOf ch).leaves
  let kept := old.filter fun l => want.contains (l.r, l.ptr)
  let gone := ((old.map (·.frame)).eraseDups).filter fun f => !kept.any fun l => l.frame = f
  let s := (s.freeFrames (gone.map fun i => ⟨1, ch, i⟩)).modMem ch fun m => { m with leaves := kept }
  (want.filter fun w => !kept.any fun l => l.r = w.1 && l.ptr = w.2).foldl (fun s w => s.addLeaf ch w.1 w.2) s

/-- Leaf frames that further leaves of a channel take (R191). -/
def Dev.leafNeed (s : Dev) (ch n : Nat) : Nat :=
  let ls := (s.memOf ch).leaves
  ceilDiv (n - (16 * ((ls.map (·.frame)).eraseDups).length - ls.length)) 16

/-- Whether a quarter of a directory frame is free already (R191). -/
def Dev.dirRoom (s : Dev) (ch : Nat) : Option (Nat × Nat) :=
  let d := (s.memOf ch).dirs
  ((d.map (·.1)).eraseDups.findSome? fun f =>
    ((List.range 4).find? fun q => !d.any fun e => e.1 = f && e.2.1 = q).map fun q => (f, q))

/-- Allocates a page directory and writes its address to PT_ROOT (R191, R223). -/
def Dev.takeDir (s : Dev) (r : Nat) : Dev :=
  let ch := entCh r
  let ctx := (s.seq r).ctx
  let (s, f, q) := match s.dirRoom ch with
    | some (f, q) => (s, f, q)
    | none => let t := s.takeT1One ch ctx; (t.1, t.2.ix, 0)
  let s := s.modMem ch fun m => { m with dirs := m.dirs ++ [(f, q, r)] }
  s.setEnt r Ent.PT_ROOT 8 (tierBase ch 1 + f * frameBytes + q * 65536)

/-- Frees a sequence's directory, and its frame with the last one. -/
def Dev.freeDir (s : Dev) (r : Nat) : Dev :=
  let ch := entCh r
  let old := (s.memOf ch).dirs
  let new := old.filter fun e => e.2.2 ≠ r
  let gone := (old.map (·.1)).eraseDups.filter fun f => !new.any fun e => e.1 = f
  let s := s.freeFrames (gone.map fun i => ⟨1, ch, i⟩)
  s.modMem ch fun m => { m with dirs := new }

/-- Frames one checkpoint slot takes: the header, SPAN − 1 positions of every layer at KV8, and the state frames (R209). -/
def slotFrames (p : Pattern) : Nat :=
  let kv := ((attnLayers p).map fun e => (spanP p - 1) * e.2.hKv * bytes16 e.2.dH 8 / 16).sum
  let st := (((pageLayers p).filter fun e => isSsm e.2).length) * frameBytes
  ceilDiv (256 + kv + st) frameBytes

/-- Frees every page wholly at or beyond a length, and counts the positions rolled back (R203). -/
def Dev.freeBeyond (s : Dev) (r len : Nat) (count : Bool) : Dev :=
  match s.seqPat r with
  | none => s
  | some p =>
    let q := s.seq r
    let span := spanP p
    let gone := q.pages.filter fun e => !e.2.isState && keyPage e.1 * span ≥ len
    let s := s.freeFrames ((gone.map fun e => e.2.frames ++ (match e.2.move with | some m => m.dst | none => [])).flatten)
    let s := s.modSeq r fun q => { q with pages := (q.pages.filter fun e => e.2.isState || keyPage e.1 * span < len).map fun e =>
      (e.1, if e.2.isState || e.2.state = .absent then e.2 else { e.2 with fill := min span (len - keyPage e.1 * span), tent := false }) }
    if count then s.bump .kvpCh (entCh r) 0 Off.KVP_ROLLBACK (s.ent r Ent.LEN 4 - len) else s

/-- Frees everything a sequence holds: pages, log, checkpoint slots, directory and reservation (R235, R240). Its words from DLV_POS
on are kept for a re-issue (R387). -/
def Dev.freeAll (s : Dev) (r : Nat) : Dev :=
  let q := s.seq r
  let s := (s.freeFrames (seqFrames q)).freeDir r
  let pos := (s.dlvOf r).pos
  (s.modSeq r fun q => { q with
    kept := (pos, q.logW.drop pos), pages := [], log := [], logW := [], ckptFrames := [], work := [], slotA := Ckpt.none, slotB := Ckpt.none,
    copying := none, ckptAgain := false, rsv := 0, step := none, held := none, replay := [], restore := none, hoodTier := 0, hoodAux := [], restoreLog := [], inPlace := false, past := false }).fitLeaves (entCh r)

end Sys2Proof.Machine
end

