-- ==== Sys2Proof/Machine/Tables.lean ====
section
/-! DEFINITION. Page tables, token logs and frame headers as the bytes that memory holds (R188, R189, R191, R192, R206): what the module has written,
what a host write has changed (R193), and the walks that check them. -/

namespace Sys2Proof.Machine
open Sys2Proof

/-! ### Page-table entries (R192) -/

/-- What a page-table entry says. `state`: 0 EMPTY, 1 PRESENT, 2 ABSENT, 3 MOVING. -/
structure PtEntry where
  state : Nat
  fmt : Nat
  isGlobal : Bool
  tent : Bool
  fill : Nat
  ctx : Nat
  frame : Frame
deriving DecidableEq, Repr

/-- Code of a KV format in entries and headers (R189, R192). -/
def fmtCode (q : Nat) : Nat := match q with | 2 => 0 | 3 => 1 | 4 => 2 | 8 => 3 | _ => 0
def fmtOfCode (c : Nat) : Nat := match c with | 0 => 2 | 1 => 3 | 2 => 4 | _ => 8

/-- Global address of a frame of T1, T2 or T3 (R350): its module's node, channel, tier and place. -/
def Dev.globalOf (s : Dev) (f : Frame) : Nat :=
  let node := if f.ch < 8 then s.node.getD 0 else f.ch / 8 - 1
  node * 2 ^ 49 + tierBase (f.ch % 8) (if f.tier = 1 then 1 else 2) + f.ix * frameBytes

/-- The frame that a global address names, as a frame of a channel's sequences. -/
def Dev.frameOfGlobal (s : Dev) (ch a : Nat) : Frame :=
  let node := a / 2 ^ 49
  let c := a / 2 ^ 46 % 8
  let ix := a % 2 ^ 44 / frameBytes
  if s.node.getD 0 ≠ node then ⟨3, 8 * (node + 1) + c, ix⟩
  else if a / 2 ^ 44 % 4 = 0 then ⟨1, c, ix⟩
  else ⟨if c = ch then 2 else 3, c, ix⟩

/-- Bytes of a page-table entry, its CRC-16 over the ten bytes of bits 79:0, lowest first (R192). -/
def Dev.entryBytes (s : Dev) (e : PtEntry) : List Byte :=
  let addr := if e.frame.tier = 4 then e.frame.ix * 2 ^ 18 else s.globalOf e.frame
  let addr := if e.state = 1 ∨ e.state = 3 then addr else 0
  let lo := addr / 2 ^ 18 * 2 ^ 18 % 2 ^ 64 + e.state * 2 ^ 16 + fmtCode e.fmt * 2 ^ 13 + e.isGlobal.toNat * 2 ^ 12 + e.tent.toNat * 2 ^ 11 + e.fill % 2048
  let b := toBytes 8 lo ++ toBytes 1 (e.ctx % 64 + (if e.frame.tier = 4 then 64 else 0)) ++ [0#8]
  b ++ toBytes 2 (crc16 b) ++ toBytes 4 0

/-- Reads a page-table entry of a channel; none where its CHECK fails or its FMT is invalid (R192). -/
def Dev.entryOf (s : Dev) (ch : Nat) (bs : List Byte) : Option PtEntry :=
  let lo := ofBytes (bs.take 8)
  let hi := ofBytes ((bs.drop 8).take 2)
  let frame : Frame := if hi.testBit 6 then ⟨4, ch * 64 + hi % 64, lo / 2 ^ 18⟩ else s.frameOfGlobal ch (lo / 2 ^ 18 * 2 ^ 18)
  if ofBytes ((bs.drop 10).take 2) ≠ crc16 (bs.take 10) ∨ nfld lo 15 13 > 3 then none
  else some ⟨nfld lo 17 16, fmtOfCode (nfld lo 15 13), lo.testBit 12, lo.testBit 11, nfld lo 10 0, hi % 64, frame⟩

/-- An EMPTY entry. -/
def emptyEntry (ctx : Nat) : PtEntry := ⟨0, 2, false, false, 0, ctx, ⟨1, 0, 0⟩⟩

/-- Entry k of a page as the module keeps it (R192). -/
def pageEntry (p : Pattern) (ctx key k : Nat) (pg : PageSt) : PtEntry :=
  match pg.frames[k]? with
  | some f => if pg.state = .absent then ⟨2, pg.fmt, pg.isGlobal, pg.tent, pg.fill, ctx, ⟨1, 0, 0⟩⟩
    else ⟨if pg.move.isSome then 3 else 1, pg.fmt, pg.isGlobal, pg.tent, pg.fill, ctx, f⟩
  | none =>
    let n := match p.layers[keyLayer key]? with
      | some l => if pg.isState then 2 else framesOf (spanP p) l pg.fmt
      | none => 0
    if pg.state = .absent ∧ k < n then ⟨2, pg.fmt, pg.isGlobal, pg.tent, pg.fill, ctx, ⟨1, 0, 0⟩⟩ else emptyEntry ctx

/-- The entry at place `e` of the leaf that pointer `ptr` of a sequence names (R191). -/
def Dev.leafEntry (s : Dev) (r ptr e : Nat) : PtEntry :=
  let q := s.seq r
  match s.seqPat r with
  | none => emptyEntry q.ctx
  | some p =>
    let x := ptr % lplP p * 1024 + e
    let layer := ((pageLayers p).map (·.1)).getD (ptr / lplP p) 0
    let key := pageKey layer (x / slotF p)
    match q.pages.find? fun g => g.1 = key with
    | some (_, pg) => pageEntry p q.ctx key (x % slotF p) pg
    | none => emptyEntry q.ctx

/-! ### Directories and logs (R191, R206) -/

/-- Device address of a frame, as directories hold it. -/
def optAddr : Option Frame → Nat
  | some f => frameBase f
  | none => 0

/-- Header of a directory: RSV, checkpoint slots, NEWEST and its CRC-32 (R191). -/
def dirHeader (q : Seq) : List Byte :=
  let b := toBytes 8 (q.rsv % 2048) ++ toBytes 8 (optAddr q.ckptFrames.head?) ++ toBytes 8 (optAddr q.ckptFrames[q.ckptFrames.length / 2]?)
    ++ toBytes 1 q.newest ++ List.replicate (252 - 25) 0#8
  b ++ toBytes 4 (crc32 b)

/-- The field of a directory at an offset: its first offset and its bytes (R191). -/
def Dev.dirUnit (s : Dev) (r o : Nat) : Nat × List Byte :=
  let q := s.seq r
  if o < 0x200 then (o / 8 * 8, toBytes 8 (optAddr q.log[o / 8]?))
  else if o < 0x300 then (0x200, dirHeader q)
  else if o < 0x400 then (o / 8 * 8, List.replicate 8 0#8)
  else
    let ptr := (o - 0x400) / 8
    let ch := entCh r
    (o / 8 * 8, match (s.memOf ch).leaves.find? fun l => l.r = r && l.ptr = ptr with
      | some l => toBytes 8 (tierBase ch 1 + l.frame * frameBytes + l.slot * 16384 + 1)
      | none => List.replicate 8 0#8)

/-- The log word at a device address of T2: entry and position (R206). -/
def Dev.logAt (s : Dev) (ch ix o : Nat) : Option (Nat × Nat) :=
  s.seqs.findSome? fun e => (e.2.log.findIdx? fun f => (f.tier = 2 || f.tier = 3) && f.ch = ch && f.ix = ix).bind fun i =>
    let pos := i * 65536 + o / 4
    if pos < e.2.logW.length then some (e.1, pos) else none

/-- The field of a directory, page-table leaf or token log that holds a device address: its first address and the bytes that the module has
written there. -/
def Dev.metaUnit (s : Dev) (a : Nat) : Option (Nat × List Byte) :=
  let ch := a / 2 ^ 46
  let ix := a % 2 ^ 44 / frameBytes
  let o := a % frameBytes
  if a / 2 ^ 44 % 4 = 0 then
    match (s.memOf ch).dirs.find? fun d => d.1 = ix && d.2.1 = o / 65536 with
    | some d =>
      let u := s.dirUnit d.2.2 (o % 65536)
      some (a - o % 65536 + u.1, u.2)
    | none => ((s.memOf ch).leaves.find? fun l => l.frame = ix && l.slot = o / 16384).map fun l =>
      (a - o % 16, s.entryBytes (s.leafEntry l.r l.ptr (o % 16384 / 16)))
  else (s.logAt ch ix o).map fun x => (a - o % 4, toBytes 4 (nth 0 (s.seq x.1).logW x.2))

/-! ### Reads and host writes (R193) -/

/-- The bytes of a field as memory holds them. -/
def Dev.unitNow (s : Dev) (u : Nat × List Byte) : List Byte :=
  match s.tamper.find? fun t => t.addr = u.1 && t.was = u.2 with
  | some t => t.now
  | none => u.2

/-- A byte of T1 or T2 as memory holds it. -/
def Dev.viewByte (s : Dev) (a : Nat) : Byte :=
  match s.metaUnit a with
  | some u => nth 0 (s.unitNow u) (a - u.1)
  | none => s.byte a
def Dev.viewBytes (s : Dev) (a n : Nat) : List Byte := (List.range n).map fun i => s.viewByte (a + i)

/-- A host write of bytes to T1 or T2, which R193 forbids for directories, leaves and logs and which changes them all the same. -/
def Dev.hostPoke (s : Dev) (a : Nat) : List Byte → Dev
  | [] => s
  | b :: bs =>
    let s := match s.metaUnit a with
      | some u =>
        let t : Tamper := ⟨u.1, u.2, (s.unitNow u).set (a - u.1) b⟩
        { s with tamper := (s.tamper.filter fun (x : Tamper) => decide (x.addr ≠ u.1)) ++ [t] }
      | none => s.setByte a b
    s.hostPoke (a + 1) bs

/-- Host writes to fields that the module has written since are gone. -/
def Dev.dropTamper (s : Dev) : Dev :=
  { s with tamper := s.tamper.filter fun t => match s.metaUnit t.addr with | some u => u.1 = t.addr && u.2 = t.was | none => false }

/-- The words of a sequence's token log as memory holds them. -/
def Dev.logView (s : Dev) (r : Nat) : List Nat :=
  let q := s.seq r
  if s.tamper.isEmpty then q.logW
  else q.logW.zipIdx.map fun e => match q.log[e.2 / 65536]? with
    | some f => if f.tier = 4 then e.1 else ofBytes (s.viewBytes (frameBase f + e.2 % 65536 * 4) 4)
    | none => e.1

/-! ### Walks -/

/-- Whether the header of a sequence's directory passes its check (R191, R213). -/
def Dev.dirOk (s : Dev) (r : Nat) : Bool :=
  let b := s.viewBytes (s.ent r Ent.PT_ROOT 8 + 0x200) 256
  ofBytes (b.drop 252) = crc32 (b.take 252)

/-- NEWEST as the directory header holds it (R191, R389). -/
def Dev.newestOf (s : Dev) (r : Nat) : Nat := (s.viewByte (s.ent r Ent.PT_ROOT 8 + 0x218)).toNat % 2

/-- A walk from the page-table root to entry k of a page: directory, leaf pointer, leaf. None where a pointer is not VALID, or the entry fails its
check or names another context (R191, R192). -/
def Dev.walk (s : Dev) (r key k : Nat) : Option PtEntry :=
  match s.seqPat r with
  | none => none
  | some p =>
    let e := keyPage key * slotF p + k
    let ptr := pageOrd p (keyLayer key) * lplP p + e / 1024
    let lp := ofBytes (s.viewBytes (s.ent r Ent.PT_ROOT 8 + 0x400 + 8 * ptr) 8)
    if lp % 16384 ≠ 1 then none
    else match s.entryOf (entCh r) (s.viewBytes (lp - 1 + 16 * (e % 1024)) 16) with
      | some x => if x.ctx = (s.seq r).ctx then some x else none
      | none => none

/-- The entries of a page that are PRESENT or MOVING, with their frames, as a walk finds them; none where one fails. -/
def Dev.walkPage (s : Dev) (r key : Nat) : Option (List Frame) :=
  match (s.seq r).pages.find? fun e => e.1 = key with
  | none => some []
  | some (_, pg) => (List.range pg.frames.length).foldl (fun acc k =>
    acc.bind fun fs => match s.walk r key k with
      | some x => if x.state = 1 ∨ x.state = 3 then some (fs ++ [x.frame]) else none
      | none => none) (some [])

/-! ### Frame headers (R189) -/

/-- The header that a frame of a page carries (R189). `crc` is the BODY_CRC of a frame in T4, else 0. -/
def Dev.frameHeader (s : Dev) (r key k crc : Nat) (pg : PageSt) : List Byte :=
  let q := s.seq r
  let layer := match s.seqPat r with | some p => pageOrd p (keyLayer key) | none => 0
  let flags := fmtCode pg.fmt + pg.isGlobal.toNat * 4 + pg.tent.toNat * 8 + pg.isState.toNat * 16
  let fill := if pg.isState then (if k = pg.cur then pg.curIx else 0) else pg.fill
  let b := toBytes 8 (entIx r + entCh r * 512 + q.adm * 4096) ++ toBytes 2 layer ++ toBytes 1 k ++ toBytes 1 flags ++ toBytes 4 (keyPage key)
    ++ toBytes 2 fill ++ toBytes 1 q.ctx ++ [0#8] ++ toBytes 4 crc ++ List.replicate 36 0#8
  b ++ toBytes 4 (crc32 b)

/-- Offset of the header in its frame (R188). -/
abbrev hdrOff : Nat := 0x3FFC0

/-- Writes the headers of a page's frames, which lie in T1, T2 or T3 (R189). -/
def Dev.putHeaders (s : Dev) (r key : Nat) (pg : PageSt) : Dev :=
  (pg.frames.zipIdx).foldl (fun s e =>
    if e.1.tier = 4 then s else s.setBytes (frameBase e.1 + hdrOff) (s.frameHeader r key e.2 0 pg)) s

/-- Whether the header of a frame passes its check and names what its entry stands for (R189). -/
def Dev.headerOk (s : Dev) (r key k : Nat) (f : Frame) : Bool :=
  let q := s.seq r
  let b := s.bytes (frameBase f + hdrOff) 64
  let layer := match s.seqPat r with | some p => pageOrd p (keyLayer key) | none => 0
  let is (o n v : Nat) : Bool := ofBytes ((b.drop o).take n) = v
  f.tier = 4 || (is 0x3C 4 (crc32 (b.take 60)) && is 0 8 (entIx r + entCh r * 512 + q.adm * 4096) && is 8 2 layer && is 0xA 1 k
    && is 0xC 4 (keyPage key) && is 0x12 1 q.ctx)
def Dev.headersOk (s : Dev) (r key : Nat) (fs : List Frame) : Bool := fs.zipIdx.all fun e => s.headerOk r key e.2 e.1

/-- A walk of the mover to a page that it copies: PT_CHECK where the directory or an entry fails, FRAME_HDR where a header does; else the frames
(R189, R192, R213). -/
def Dev.moverWalk (s : Dev) (r key : Nat) : Dev × Option (List Frame) :=
  match if s.dirOk r then s.walkPage r key else none with
  | none => (s.raise (entCh r) 36, none)
  | some fs => if s.headersOk r key fs then (s, some fs) else (s.raise (entCh r) 37, none)

/-- Copies `n` bytes of T1, T2 or T3 from one address to another. -/
def Dev.copyRange (s : Dev) (src dst n : Nat) : Dev :=
  let bs := s.mem.keep fun k => decide (src ≤ k) && decide (k < src + n)
  let s := s.zero dst n
  { s with mem := bs.foldl (fun m e => m.set 0 (dst + (e.1 - src)) e.2) s.mem }

/-- Copies the bytes of a frame (R196). -/
def Dev.copyFrame (s : Dev) (a b : Frame) : Dev :=
  if a.tier = 4 ∨ b.tier = 4 then s else s.copyRange (frameBase a) (frameBase b) frameBytes

/-- The bytes of a copy to or from a T3 frame go over the fabric: WRITEs to the peer that lent it, or READs from it, on a stream of the
channel for each context (R9, R196, R350, R354; the stream's number is a DESIGN CHOICE). It answers the tags of the READs. -/
def Dev.shipFrame (s : Dev) (ch ctx : Nat) (a b : Frame) : Dev × List Nat :=
  let st := 65472 + ctx
  if b.tier = 3 ∧ a.tier ≠ 3 then
    ((s.sendWrites ch ctx st (BitVec.ofNat 64 (s.globalOf b)) (s.bytes (frameBase a) frameBytes) 2).getD s, [])
  else if a.tier = 3 ∧ (b.tier = 1 ∨ b.tier = 2) then
    [0, 131072].foldl (fun (acc : Dev × List Nat) o =>
      let r : OpenRead := ⟨lowestNot ((acc.1.fab ch).reads.map (·.tag)), st, frameBase b + o, none⟩
      match acc.1.sendRead ch ctx (BitVec.ofNat 64 (s.globalOf a + o)) 131072 r with
      | some s => (s, acc.2 ++ [r.tag])
      | none => acc) (s, [])
  else (s, [])

end Sys2Proof.Machine
end

