-- ==== Sys2Proof/Machine/Paging.lean ====
section
/-! DEFINITION. Pages: key sets and needs (R163, R201), opening, moving and dropping (R196 to R200), growth (R199, R529), window pages (R198). -/

namespace Sys2Proof.Machine
open Sys2Proof

/-! ### Frames of a page (R187, R188) -/

/-- Offsets in a frame of a head's key codes, value codes, key scales and value scales at a position of the page (R188). -/
def kvOffsets (span dH q nh j p : Nat) : Nat × Nat × Nat × Nat :=
  let c := dH * q / 8
  let sb := dH / 32
  let s0 := nh * 2 * span * c
  (j * 2 * span * c + p * c, j * 2 * span * c + span * c + p * c,
   s0 + j * 2 * span * sb + p * sb, s0 + j * 2 * span * sb + span * sb + p * sb)

/-- The frame of a page that holds a head, with the head's place in it and the heads it holds (R187). -/
def headPlace (span : Nat) (l : Layer) (pg : PageSt) (head : Nat) : Option (Frame × Nat × Nat) :=
  let h := headsPerFrame span l pg.fmt
  pg.frames[head / h]?.map fun f => (f, head % h, min h (l.hKv - head / h * h))

/-! ### Key sets and needs -/

/-- Whether the key set of a query at position p of a layer meets a page (R163). -/
def keyPageNeeded (l : Layer) (span p i : Nat) : Bool :=
  i * span ≤ p && (l.attKind = 0 || (i + 1) * span > p + 1 - l.win || (pageGlobal l span i))

/-- The page indexes with ABSENT entries in the key set of a step at position p, ascending (R201). -/
def Dev.absentPages (s : Dev) (r p : Nat) : List Nat :=
  match s.seqPat r with
  | none => []
  | some pat =>
    let span := spanP pat
    let hit := (s.seq r).pages.filter fun e =>
      e.2.state = .absent && match pat.layers[keyLayer e.1]? with
        | some l => isAttn l && keyPageNeeded l span p (keyPage e.1)
        | none => false
    sortBy (fun a b => decide (a ≤ b)) (hit.map fun e => keyPage e.1).eraseDups

/-- Whether a page of the key set lies in T3 (R174). -/
def Dev.pagesInT3 (s : Dev) (r p : Nat) : List Nat :=
  match s.seqPat r with
  | none => []
  | some pat => ((s.seq r).pages.filter fun e =>
      e.2.state = .present && (e.2.frames.any fun f => f.tier = 3) && match pat.layers[keyLayer e.1]? with
        | some l => !isAttn l || keyPageNeeded l (spanP pat) p (keyPage e.1)
        | none => false).map (·.1)

/-- Whether a page of the key set is being dropped (R200). -/
def Dev.keyDropping (s : Dev) (r p : Nat) : Bool :=
  match s.seqPat r with
  | none => false
  | some pat => (s.seq r).pages.any fun e => e.2.dropping && match pat.layers[keyLayer e.1]? with
    | some l => !isAttn l || keyPageNeeded l (spanP pat) p (keyPage e.1)
    | none => false

/-- Formats of new pages: KV8 while the home cluster is in wide mode (R118, R134, R197). -/
def Dev.newFmt (s : Dev) (r : Nat) (l : Layer) : Nat := if (s.clus (entCh r * 8 + (s.seq r).home)).storm.wide then 8 else l.kvFmt

/-- Pages (key, layer) of positions `a` to `b − 1` that no entry names yet, and the state pages on the first position (R197, R205). -/
def Dev.missingPages (s : Dev) (r a b : Nat) : List (Nat × Layer) :=
  match s.seqPat r with
  | none => []
  | some pat =>
    let span := spanP pat
    let pages := (s.seq r).pages
    let idxs := (List.range (ceilDiv b span - a / span)).map (a / span + ·)
    ((pageLayers pat).map fun e =>
      if isSsm e.2 then (if pages.any (fun x => x.1 = pageKey e.1 0) then [] else [(pageKey e.1 0, e.2)])
      else (idxs.filter fun i => !pages.any fun x => x.1 = pageKey e.1 i).map fun i => (pageKey e.1 i, e.2)).flatten

/-- Frames a missing page takes. -/
def Dev.pageNeed (s : Dev) (r : Nat) (span : Nat) (e : Nat × Layer) : Nat :=
  if isSsm e.2 then 2 else framesOf span e.2 (s.newFmt r e.2)

/-- Opens a page: takes its frames in T1, writes their headers and lists it (R189, R197, R204). The caller has made sure of the room. -/
def Dev.openPage (s : Dev) (r : Nat) (span len : Nat) (e : Nat × Layer) : Dev :=
  let ch := entCh r
  let n := s.pageNeed r span e
  let fmt := s.newFmt r e.2
  let t := s.takeT1 ch (s.seq r).ctx n
  let i := keyPage e.1
  let home := (s.seq r).home
  let s := t.1.bump .ful ch (home * 8) Off.FUL_KV8 (if !isSsm e.2 && (s.clus (ch * 8 + home)).storm.wide then n else 0)
  let pg : PageSt := ⟨.present, if isSsm e.2 then 0 else fmt, pageGlobal e.2 span i, !isSsm e.2 && i * span > len, isSsm e.2, 0, t.2, none, false, 0, 0⟩
  (s.modSeq r fun q => { q with pages := q.pages.put e.1 pg }).putHeaders r e.1 pg

/-! ### Moves (R196) -/

/-- Tiers a sequence's pages lie in, the targets of moves included. -/
def seqTiers (q : Seq) : List Nat :=
  ((q.pages.map fun e => (e.2.frames ++ (match e.2.move with | some m => m.dst | none => [])).map (·.tier)).flatten).eraseDups

/-- Whether moving a page to a tier keeps the sequence in at most two tiers (R196). -/
def tierFits (q : Seq) (t : Nat) : Bool := let ts := seqTiers q; ts.contains t || ts.length < 2

/-- A copy of a page to frames already taken begins: the entry is MOVING, and what crosses the fabric is sent (R9, R196). -/
def Dev.beginMove (s : Dev) (r key : Nat) (pg : PageSt) (dst : List Frame) (bg : Bool) : Dev :=
  let t := (pg.frames.zip dst).foldl (fun (acc : Dev × List Nat) p =>
    let t := acc.1.shipFrame (entCh r) (s.seq r).ctx p.1 p.2
    (t.1, acc.2 ++ t.2)) (s, [])
  t.1.modSeq r fun q => { q with pages := q.pages.put key { pg with move := some ⟨dst, false, false, bg, t.2⟩ } }

/-- Starts a move of a page: the mover walks to it, the target frames are taken, and its entries are MOVING (R192, R196). A page that the walk
finds at fault is not moved. -/
def Dev.startMove (s : Dev) (r key tier : Nat) (bg : Bool) : Dev :=
  match (s.seq r).pages.find? fun e => e.1 = key, s.moverWalk r key with
  | none, _ => s
  | some _, (s, none) => s
  | some (_, pg), (s, some _) =>
    let n := pg.frames.length
    let ch := entCh r
    let ctx := (s.seq r).ctx
    let t := match tier with
      | 1 => s.takeT1 ch ctx n
      | 2 => s.takeT2 ch ctx n
      | _ => s.takeT3 ch ctx n
    t.1.beginMove r key pg t.2 bg

/-- PAGE_MOVE_DONE: the copy of a page has ended; a failed one leaves the page at its source and raises MOVE_FAIL, and so does one whose entries or
headers the mover finds at fault, with its own source (R189, R192, R196). -/
def Dev.moveDone (s : Dev) (r layer page : Nat) (ok : Bool) : Dev :=
  let key := pageKey layer page
  match (s.seq r).pages.find? fun e => e.1 = key with
  | some (_, pg) =>
    match pg.move with
    | none => s
    | some m =>
      if m.done then s
      else
        let stay (s : Dev) : Dev := (s.freeFrames m.dst).modSeq r fun q => { q with pages := q.pages.put key { pg with move := none } }
        if !ok then (stay s).raise (entCh r) 41
        else match s.moverWalk r key with
          | (s, some _) => s.modSeq r fun q => { q with pages := q.pages.put key { pg with move := some { m with done := true } } }
          | (s, none) => stay s
  | none => s

/-- Boundary step 4 of one page: a finished move switches the entries, and a drop takes effect (R196, R199). -/
def Dev.settlePage (s : Dev) (r : Nat) (key : Nat) (carried : Bool) : Dev :=
  match (s.seq r).pages.find? fun e => e.1 = key with
  | none => s
  | some (_, pg) =>
    let ch := entCh r
    if pg.dropping then
      let s := s.freeFrames (pg.frames ++ (match pg.move with | some m => m.dst | none => []))
      s.modSeq r fun q => { q with pages := q.pages.put key { pg with state := .absent, frames := [], move := none, dropping := false, fill := pg.fill } }
    else
      match pg.move with
      | some m =>
        if !m.done then s
        else if carried then s.bump .plcCh ch 0 Off.PLC_DEFER 1
        else
          let s := (((s.walkPage r key).getD pg.frames).zip m.dst).foldl (fun s e => s.copyFrame e.1 e.2) s
          let s := s.freeFrames pg.frames
          let pg' : PageSt := { pg with frames := m.dst, move := none }
          let s := (s.modSeq r fun q => { q with pages := q.pages.put key pg' }).putHeaders r key pg'
          let up := (m.dst.head?.map (·.tier)).getD 0 < (pg.frames.head?.map (·.tier)).getD 0
          s.bump .kvpCh ch 0 (if up then Off.KVP_PROMOTE else Off.KVP_DEMOTE) 1
      | none => s

def Dev.settlePages (s : Dev) (r : Nat) (carried : Bool) : Dev :=
  ((s.seq r).pages.map (·.1)).foldl (fun s k => s.settlePage r k carried) s

/-! ### When no frame is free (R199, R200, R529) -/

/-- Victim order: lowest priority, then latest deadline with 0 latest, then highest entry (R200). -/
def Dev.victimBefore (s : Dev) (a b : Nat) : Bool :=
  let dl (r : Nat) : Nat := if s.deadline r = 0 then 2 ^ 64 else s.deadline r
  if s.prio a ≠ s.prio b then s.prio a < s.prio b
  else if dl a ≠ dl b then dl a > dl b
  else entIx a ≥ entIx b

/-- T1 frames that demotions and drops already decided will free (R199). -/
def Dev.leavingT1 (s : Dev) (ch : Nat) : Nat :=
  ((s.seqsOf ch).map fun r => ((s.seq r).pages.map fun e =>
    if e.2.dropping || (match e.2.move with | some m => m.dst.any (fun f => f.tier ≠ 1) | none => false) then
      (e.2.frames.filter fun f => f.tier = 1).length else 0).sum).sum

/-- T2 frames that demotions already decided will free (R529). -/
def Dev.leavingT2 (s : Dev) (ch : Nat) : Nat :=
  ((s.seqsOf ch).map fun r => ((s.seq r).pages.map fun e =>
    if e.2.move.any fun m => m.dst.any fun f => f.tier = 3 then (e.2.frames.filter fun f => f.tier = 2).length else 0).sum).sum

/-- Pages of a sequence that lie in a tier and do not move, in descending page index. -/
def stayPages (q : Seq) (tier : Nat) : List (Nat × PageSt) :=
  sortBy (fun a b => decide (keyPage a.1 ≥ keyPage b.1)) (q.pages.filter fun e =>
    e.2.state = .present && e.2.move.isNone && !e.2.dropping && e.2.frames.all (fun f => f.tier = tier) && !e.2.frames.isEmpty)

/-- The tier a page demoted from T1 goes to: T2, or T3 where T2 is full and the peers lend (R199, R529, R531). -/
def Dev.demoteTier (s : Dev) (r n : Nat) : Option Nat :=
  let ch := entCh r
  let q := s.seq r
  if n ≤ s.t2Free ch then (if tierFits q 2 then some 2 else none)
  else if n ≤ s.t3Free ch && tierFits q 3 then some 3 else none

/-- Demotes pages of PAUSED sequences of a channel until `short` frames are leaving; answers what is still short (R199 step 2, R200). -/
def Dev.startDemotions (s : Dev) (ch short : Nat) (bg t2only : Bool) (skip : Nat → Bool) : Dev × Nat :=
  let vs := sortBy s.victimBefore ((s.seqsOf ch).filter fun r => s.st r = St.PAUSED && !skip r)
  vs.foldl (fun acc r =>
    (stayPages (acc.1.seq r) 1).foldl (fun acc e =>
      if acc.2 = 0 then acc
      else
        match acc.1.demoteTier r e.2.frames.length with
        | some t => if t = 3 && t2only then acc
                    else (acc.1.startMove r e.1 t bg, acc.2 - e.2.frames.length)
        | none => acc) acc) (s, short)

/-- Whether a page index of a sequence can be dropped: PRESENT in T1, none GLOBAL, none read by carried work (R200). -/
def droppable (q : Seq) (i : Nat) : Bool :=
  let es := q.pages.filter fun e => !e.2.isState && keyPage e.1 = i
  (es.any fun e => e.2.state = .present && e.2.move.isNone && (e.2.frames.any fun f => f.tier = 1)) && es.all fun e => !e.2.isGlobal && !e.2.dropping

/-- Drops one page index of a sequence at the next boundary: every attention layer's page (R200). -/
def Dev.dropIndex (s : Dev) (r i : Nat) : Dev × Nat :=
  let q := s.seq r
  let n := ((q.pages.filter fun e => !e.2.isState && keyPage e.1 = i && e.2.move.isNone).map fun e => (e.2.frames.filter fun f => f.tier = 1).length).sum
  let mark (e : Nat × PageSt) : Nat × PageSt :=
    if !e.2.isState && keyPage e.1 = i && e.2.state = .present then (e.1, { e.2 with dropping := true }) else e
  let s := s.modSeq r fun q => { q with pages := q.pages.map mark }
  ((s.bump .kvpCh (entCh r) 0 Off.KVP_DROP 1).bump .kvpCx (entCh r) q.ctx Off.KVP_CX_DROP 1, n)

/-- Drops indexes of one victim, lowest first, until the shortfall is met. -/
def Dev.dropFrom (s : Dev) (r : Nat) : List Nat → Nat → Dev × Nat
  | [], short => (s, short)
  | i :: is, short =>
    if short = 0 then (s, 0)
    else if droppable (s.seq r) i then
      let d := s.dropIndex r i
      d.1.dropFrom r is (short - d.2)
    else s.dropFrom r is short

/-- Drops pages of candidate victims for a growing sequence (R199 step 3, R200). `took` are the sequences that take frames at this
boundary. -/
def Dev.dropPages (s : Dev) (r short : Nat) (took : List Nat) : Dev × Nat :=
  let ch := entCh r
  let xctx := s.inForce .kvpCh ch 0 Off.KVP_CTL 1 1 = 1
  let ok (v : Nat) : Bool :=
    let q := s.seq v
    v ≠ r && !took.contains v && (xctx || q.ctx = (s.seq r).ctx) && q.step.isNone && s.prio v ≤ s.prio r
      && (s.st v = St.PAUSED || s.st v = St.PREFILL || s.st v = St.DECODE)
  let vs := sortBy s.victimBefore ((s.seqsOf ch).filter ok)
  vs.foldl (fun acc v =>
    if acc.2 = 0 ∨ (s.chan ch).carried.contains (entIx v) then acc
    else
      let idx := sortBy (fun a b => decide (a ≤ b)) (((acc.1.seq v).pages.filter fun e => !e.2.isState).map fun e => keyPage e.1).eraseDups
      acc.1.dropFrom v idx acc.2) (s, short)

/-- What growth answers: frames are there, the sequence is held, or it must stop (R199). -/
inductive Grow where
  | ok | held | nostate
deriving DecidableEq, Repr

/-- Holds a sequence until its deadline or HOLD_MAX planks; each plank counts in KVP_HELD (R199 step 4, R529 step 3). -/
def Dev.holdOrStop (s : Dev) (r : Nat) : Dev × Grow :=
  let ch := entCh r
  let now := (s.chan ch).plank
  let s := s.modSeq r fun q => { q with held := some (q.held.getD (now, max 1 (s.inForce .kvpCh ch 0 Off.KVP_HOLD 23 0))) }
  let h := (s.seq r).held.getD (now, 1)
  let spent := if s.deadline r ≠ 0 then (s.chan ch).time ≥ s.deadline r else now ≥ h.1 + h.2
  if spent then (s, .nostate) else (s.bump .kvpCh ch 0 Off.KVP_HELD 1, .held)

/-- T1 frames reserved for the context of a sequence on its channel (R294). -/
def Dev.cxRsv (s : Dev) (r : Nat) : Nat := nth 0 (s.ctx (s.seq r).ctx).t1Short (entCh r)

/-- Step 1 of R199: the free T1 frames, and for what they do not cover the reservations of the sequence, then of its context (R294); none where
they do not suffice. -/
def Dev.useFree (s : Dev) (r n : Nat) : Option Dev :=
  let q := s.seq r
  let beyond := n - s.t1Free (entCh r)
  if beyond ≤ q.rsv + s.cxRsv r then
    let fromSeq := min beyond q.rsv
    some ((s.modSeq r fun q => { q with rsv := q.rsv - fromSeq }).modCtx q.ctx fun c =>
      { c with t1Short := modifyAt (fun k => k - (beyond - fromSeq)) (entCh r) c.t1Short })
  else none

/-- T1 frames that are still missing beside those that step 1 and what is leaving give. -/
def Dev.shortT1 (s : Dev) (r n : Nat) : Nat := n - s.t1Free (entCh r) - (s.seq r).rsv - s.cxRsv r - s.leavingT1 (entCh r)

/-- Makes room for `n` T1 frames for a sequence by the order of R199; `drop` is false for recompute, replay and restore. The
frames are there on `ok`: the reservations of the sequence, then of its context, cover what the free ones do not. -/
def Dev.roomT1 (s : Dev) (r n : Nat) (drop : Bool) (took : List Nat) : Dev × Grow :=
  let ch := entCh r
  match s.useFree r n with
  | some s => (s.modSeq r fun q => { q with held := none }, .ok)
  | none =>
    let short := s.shortT1 r n
    let a := if short = 0 then (s, 0) else s.startDemotions ch short false false (fun _ => false)
    let b := if a.2 = 0 ∨ !drop ∨ s.inForce .kvpCh ch 0 Off.KVP_CTL 0 0 = 0 then a else a.1.dropPages r a.2 took
    b.1.holdOrStop r

/-- Demotes T2 pages of PAUSED sequences to T3 until `short` frames are leaving (R529 step 2). -/
def Dev.demoteT2 (s : Dev) (ch short : Nat) : Dev :=
  let vs := sortBy s.victimBefore ((s.seqsOf ch).filter fun v => s.st v = St.PAUSED)
  (vs.foldl (fun acc v =>
    (stayPages (acc.1.seq v) 2).foldl (fun acc e =>
      if acc.2 = 0 then acc
      else if e.2.frames.length ≤ acc.1.t3Free ch && tierFits (acc.1.seq v) 3 then
        (acc.1.startMove v e.1 3 false, acc.2 - e.2.frames.length)
      else acc) acc) (s, short)).1

/-- Makes room for `n` T2 frames by the order of R529. -/
def Dev.roomT2 (s : Dev) (r n : Nat) : Dev × Grow :=
  let ch := entCh r
  if n ≤ s.t2Free ch then (s, .ok) else (s.demoteT2 ch (n - s.t2Free ch - s.leavingT2 ch)).holdOrStop r

/-- T1 frames that missing pages take, with those of the leaves that they need first (R191, R197). -/
def Dev.missNeed (s : Dev) (r : Nat) (pat : Pattern) (miss : List (Nat × Layer)) : Nat :=
  let new := (miss.map fun e => leafOfKey pat e.1).eraseDups.filter fun x => !(s.leavesOf r).contains x
  (miss.map fun e => s.pageNeed r (spanP pat) e).sum + (if miss.isEmpty then 0 else s.leafNeed (entCh r) new.length)

/-- Opens the pages that a step over positions `a` to `b − 1` needs, and takes its log frames up to position `logTo`; `extra` frames
of working state. A step that re-runs positions never drops pages; a recompute (`fresh` false) opens no EMPTY entry (R197, R199,
R201, R206, R390). -/
def Dev.grow (s : Dev) (r a b logTo extra : Nat) (fresh drop : Bool) (took : List Nat) : Dev × Grow :=
  match s.seqPat r with
  | none => (s, .nostate)
  | some pat =>
    let span := spanP pat
    let miss := if fresh then s.missingPages r a b else []
    let absent := (s.seq r).pages.filter fun e => !drop && e.2.state = .absent && e.2.frames.isEmpty && a / span ≤ keyPage e.1 && keyPage e.1 < ceilDiv b span
    let layerOf (k : Nat) : Option Layer := pat.layers[keyLayer k]?
    let nAbs := (absent.map fun e => match layerOf e.1 with | some l => framesOf span l e.2.fmt | none => 0).sum
    let n := s.missNeed r pat miss + nAbs + extra
    let logN := ceilDiv logTo 65536 - (s.seq r).log.length
    -- the allocator walks to the entries that it opens (R192)
    let bad := miss.any fun e => (s.leavesOf r).contains (leafOfKey pat e.1) && (s.walk r e.1 0).isNone
    let t2 := if bad ∨ !s.dirOk r then (s.raise (entCh r) 36, Grow.held) else if logN = 0 then (s, Grow.ok) else s.roomT2 r logN
    match t2.2 with
    | .ok =>
      let g := if n = 0 then (t2.1.modSeq r fun q => { q with held := none }, Grow.ok) else t2.1.roomT1 r n drop took
      match g.2 with
      | .ok =>
        let s := g.1
        let ctx := (s.seq r).ctx
        let t := s.takeT2 (entCh r) ctx logN
        let s := t.1.modSeq r fun q => { q with log := q.log ++ t.2 }
        let s := miss.foldl (fun s e => s.openPage r span (s.clen r) e) s
        let s := absent.foldl (fun s e => match layerOf e.1 with
          | some l =>
            let t := s.takeT1 (entCh r) ctx (framesOf span l e.2.fmt)
            let pg : PageSt := { e.2 with frames := t.2, fill := 0 }
            (t.1.modSeq r fun q => { q with pages := q.pages.put e.1 pg }).putHeaders r e.1 pg
          | none => s) s
        let w := s.takeT1 (entCh r) ctx extra
        ((w.1.modSeq r fun q => { q with work := q.work ++ w.2 }).fitLeaves (entCh r), .ok)
      | _ => g
    | _ => t2

/-! ### Window pages (R198) -/

/-- Frees WINDOW pages whose last position lies before p − WIN + 1 for the next position p. -/
def Dev.winFree (s : Dev) (r p : Nat) : Dev :=
  let ch := entCh r
  match s.seqPat r with
  | none => s
  | some pat =>
    if s.inForce .kvpCh ch 0 Off.KVP_CTL 2 2 = 0 then s
    else
      let span := spanP pat
      let gone := (s.seq r).pages.filter fun e => !e.2.isState && !e.2.isGlobal && match pat.layers[keyLayer e.1]? with
        | some l => l.attKind = 1 && (keyPage e.1 + 1) * span + l.win ≤ p + 1
        | none => false
      let s := s.freeFrames ((gone.map fun e => e.2.frames ++ (match e.2.move with | some m => m.dst | none => [])).flatten)
      let s := s.modSeq r fun q => { q with pages := q.pages.filter fun e => !(gone.any fun g => g.1 = e.1) }
      s.bump .kvpCh ch 0 Off.KVP_WINFREE gone.length

end Sys2Proof.Machine
end

