-- ==== Sys2Proof/Machine/Life.lean ====
section
/-! DEFINITION. The life of a sequence beside its steps: endings (R231 to R235, R240), checkpoints (R208, R209), hoods (R210 to R212,
R245), admission (R222, R223) and the commands of CMD_W (R242 to R244). -/

namespace Sys2Proof.Machine
open Sys2Proof

def Dev.planksOf (s : Dev) (r : Nat) : Nat := (s.chan (entCh r)).plank
def Dev.timeOf (s : Dev) (r : Nat) : Nat := (s.chan (entCh r)).time
def Dev.cmdSta (s : Dev) (r code : Nat) : Dev := s.setEnt r (Ent.CMD_W + 1) 1 code

/-! ### Checkpoints -/

/-- What a checkpoint of the sequence holds now (R208). -/
def Dev.ckptNow (s : Dev) (r : Nat) : Ckpt :=
  let q := s.seq r
  let span := match s.seqPat r with | some p => spanP p | none => 64
  let len := s.clen r
  let parts : Store Nat := q.pages.filterMap fun e =>
    if e.2.isState then some (e.1, e.2.cur * 16 + e.2.curIx)
    else if keyPage e.1 * span < len ∧ len < (keyPage e.1 + 1) * span then some (e.1, len - keyPage e.1 * span) else none
  ⟨true, len, s.written r, s.ent r Ent.NEW_TOK 4, q.progress, q.epochTok, max q.slotA.number q.slotB.number + 1, parts⟩

/-- Address and length of the runs of bytes that n positions of a frame of a page hold: codes head by head, then scales (R188). -/
def frameRuns (span dH q nh n : Nat) : List (Nat × Nat) :=
  let c := dH * q / 8
  let sb := dH / 32
  let s0 := nh * 2 * span * c
  let each (o x : Nat) : List (Nat × Nat) := (List.range (2 * nh)).map fun j => (o + j * span * x, n * x)
  each 0 c ++ each s0 sb

/-- The runs of bytes of a checkpoint's body, in layer order, then frame order: partial pages, then state frames (R208). Runs of a page that has
no frame have no address. -/
def Dev.ckptRuns (s : Dev) (r : Nat) (c : Ckpt) : List (Option Nat × Nat) :=
  match s.seqPat r with
  | none => []
  | some p =>
    let span := spanP p
    let pages := (sortBy (fun a b => decide (a.1 ≤ b.1)) c.partials).filterMap fun e =>
      ((s.seq r).pages.find? fun g => g.1 = e.1).bind fun g => (p.layers[keyLayer e.1]?).map fun l => (e.2, l, g.2)
    let kv := (pages.filter fun x => !x.2.2.isState).flatMap fun x =>
      let nf := framesOf span x.2.1 x.2.2.fmt
      let h := headsPerFrame span x.2.1 x.2.2.fmt
      (List.range nf).flatMap fun k => (frameRuns span x.2.1.dH x.2.2.fmt (min h (x.2.1.hKv - k * h)) x.1).map fun run =>
        ((x.2.2.frames[k]?).map fun f => frameBase f + run.1, run.2)
    let st := (pages.filter fun x => x.2.2.isState).map fun x => ((x.2.2.frames[x.1 / 16]?).map frameBase, frameBytes)
    kv ++ st

/-- Copies a run of bytes to or from a place in a slot, frame by frame. -/
def Dev.slotCopy (s : Dev) (slot : List Frame) (save : Bool) : Nat → Nat → Nat → Nat → Dev
  | 0, _, _, _ => s
  | m + 1, pos, a, n =>
    if n = 0 then s
    else match slot[pos / frameBytes]? with
      | none => s
      | some f =>
        let k := min n (frameBytes - pos % frameBytes)
        let x := frameBase f + pos % frameBytes
        (if save then s.copyRange a x k else s.copyRange x a k).slotCopy slot save m (pos + k) (a + k) (n - k)

/-- Writes the body of a checkpoint to a slot, or writes it back into its frames (R208, R389). -/
def Dev.slotBody (s : Dev) (r : Nat) (c : Ckpt) (slot : List Frame) (save : Bool) : Dev :=
  ((s.ckptRuns r c).foldl (fun (acc : Dev × Nat) run =>
    (match run.1 with | some a => acc.1.slotCopy slot save (run.2 / frameBytes + 2) acc.2 a run.2 | none => acc.1, acc.2 + run.2)) (s, 256)).1

/-- The frames of slot A (0) or B (1) (R209). -/
def slotOf (q : Seq) (i : Nat) : List Frame :=
  let n := q.ckptFrames.length / 2
  if i = 0 then q.ckptFrames.take n else q.ckptFrames.drop n

/-- The header of a checkpoint, with its CRC-32 (R208). -/
def Dev.ckptHeader (s : Dev) (r : Nat) (c : Ckpt) : List Byte :=
  let q := s.seq r
  let prog := ((c.progress.take 8).zipIdx.map fun e => e.1 % 16 * 2 ^ (4 * e.2)).sum
  let b := toBytes 8 (entIx r + entCh r * 512 + q.adm * 4096) ++ toBytes 4 c.clen ++ toBytes 4 c.delivered ++ toBytes 8 (2 * c.clen)
    ++ toBytes 4 c.newTok ++ toBytes 4 prog ++ toBytes 4 (c.epoch % 2) ++ toBytes 4 ((s.ckptRuns r c).map (·.2)).sum
    ++ List.replicate (0xF8 - 0x28) 0#8 ++ toBytes 4 c.number
  b ++ toBytes 4 (crc32 b)

/-- Whether the CRC of a slot's header verifies (R209). -/
def Dev.slotOk (s : Dev) (q : Seq) (i : Nat) : Bool :=
  match slotOf q i with
  | f :: _ => let b := s.bytes (frameBase f) 256; ofBytes (b.drop 252) = crc32 (b.take 252)
  | [] => false

/-- Starts a checkpoint: the pages and state frames go into the slot that NEWEST does not name, which is not valid until its header stands (R208,
R209). A frame that the mover finds at fault is not checkpointed (R189). -/
def Dev.startCkpt (s : Dev) (r : Nat) : Dev :=
  let c := s.ckptNow r
  let w := c.partials.foldl (fun (acc : Dev × Bool) e => if acc.2 then
    let m := acc.1.moverWalk r e.1
    (m.1, m.2.isSome) else acc) (s, true)
  if !w.2 then w.1
  else
    let s := w.1
    let slot := slotOf (s.seq r) (1 - (s.seq r).newest)
    let s := match slot with | f :: _ => s.zero (frameBase f) 256 | [] => s
    (s.slotBody r c slot true).modSeq r fun q => { q with copying := some c, ckptAgain := false }

/-- A checkpoint whose write was dropped is taken again (R209, R316). -/
def Dev.redoCkpt (s : Dev) (r : Nat) : Dev :=
  if (s.seq r).ckptAgain && s.live r && (s.seq r).copying.isNone then (s.startCkpt r).modSeq r fun q => { q with ckptAgain := false } else s

/-- Step 4 of an orderly thermal stop for one sequence: parked in place if PARK_EN and its ring allow, else PAUSED with REASON
HALTED (R415). -/
def Dev.thermalPark (s : Dev) (r ttl : Nat) : Dev :=
  let ch := entCh r
  let q := s.seq r
  let park := s.inForce .thmCh ch 0 Off.THM_CTL 1 1 = 1 && (q.ringRsv || s.ringFree r ≥ 1)
  let s := s.modSeq r fun q => { q with stopping := .no, rsv := 0, ringRsv := park, inPlace := park }
  let s := if park then (s.setSt r St.PARKED).setEnt r Ent.EXPIRY 8 (s.timeOf r + ttl * 1000000)
    else s.setStateW r St.PAUSED Code.HALTED 0 (s.stopWhy r)
  let w := s.ent r Ent.CMD_W 4
  let s := if q.ringRsv && q.cmdOpen && nfld w 15 8 = Code.PENDING && nfld w 2 0 = 0 then s.cmdSta r (if park then Code.OK else Code.HALTED) else s
  s.note r true

/-- CHECKPOINT_VALID: the slot's CRC word is written, and NEWEST names it (R209). -/
def Dev.ckptValid (s : Dev) (r : Nat) : Dev :=
  match (s.seq r).copying with
  | none => s
  | some c =>
    let s := match slotOf (s.seq r) (1 - (s.seq r).newest) with
      | f :: _ => s.setBytes (frameBase f) (s.ckptHeader r c)
      | [] => s
    let s := s.modSeq r fun q =>
      let q := { q with copying := none, newest := 1 - q.newest }
      let q := if q.newest = 0 then { q with slotA := c } else { q with slotB := c }
      { q with stopping := match q.stopping with
        | .park ttl t t1 _ cp => .park ttl t t1 t1 cp
        | x => x }
    let s := s.bump .kvpCh (entCh r) 0 Off.KVP_CKPT_CNT 1
    match (s.seq r).stopping with
    | .thermal ttl => (s.thermalPark r ttl).closeRing r
    | _ => s

/-! ### Endings -/

/-- Abandons the step in flight: its entries beyond the committed length are freed (R203, R233). -/
def Dev.dropStep (s : Dev) (r : Nat) : Dev :=
  match (s.seq r).step with
  | none => s
  | some st =>
    let s := (s.freeFrames (s.seq r).work).modSeq r fun q => { q with step := none, work := [] }
    match st.kind with
    | .recompute _ => s
    | _ => (s.freeBeyond r (s.clen r) true).setEnt r Ent.LEN 4 (s.clen r)

/-- Marks every attention page of a sequence ABSENT and frees its frames: the RECOMPUTE policy of a swap (R271). -/
def Dev.absentAll (s : Dev) (r : Nat) : Dev :=
  let q := s.seq r
  let s := s.freeFrames ((q.pages.map fun e => if e.2.isState then [] else
    e.2.frames ++ (match e.2.move with | some m => m.dst | none => [])).flatten)
  s.modSeq r fun q => { q with mark := false, pages := q.pages.map fun e =>
    (e.1, if e.2.isState then e.2 else { e.2 with state := .absent, frames := [], move := none, dropping := false }) }

/-- A marked sequence loses its pages once it has no old-epoch step in flight; one that is PARKED, when it is restored (R271). -/
def Dev.dropMarked (s : Dev) (r : Nat) : Dev :=
  let q := s.seq r
  if q.mark && q.step.isNone && s.live r && q.hoodTier = 0 && s.st r ≠ St.PARKED then s.absentAll r else s

/-- A step in flight is abandoned, and what it wrote is rolled back; a marked sequence then has no old-epoch step any more (R203, R271). -/
def Dev.abandon (s : Dev) (r : Nat) : Dev := (s.dropStep r).dropMarked r

/-- The frames a park has taken for its hood are freed, and its moves end (R210, R388). -/
def Dev.abandonHood (s : Dev) (r : Nat) : Dev :=
  let q := s.seq r
  match q.stopping with
  | .park _ _ true _ _ =>
    let s := s.freeFrames (q.hoodAux ++ ((q.pages.map fun e => match e.2.move with | some m => m.dst | none => []).flatten))
    s.modSeq r fun q => { q with hoodAux := [], hoodTier := 0, pages := q.pages.map fun e => (e.1, { e.2 with move := none }) }
  | _ => s

/-- A sequence whose final record is written becomes DONE or FAILED (R221, R240, R241). -/
def Dev.finishSeq (s : Dev) (r : Nat) : Dev :=
  let ch := entCh r
  let failed := s.stopWhy r = 7
  let s := s.setSt r (if failed then St.FAILED else St.DONE)
  let s := s.modSeq r fun q => { q with stopping := .no, ringRsv := false, endedAt := some (s.planksOf r) }
  let s := s.bump .rqtCh ch 0 (if failed then Off.RQT_FAIL else Off.RQT_DONE) 1
  (s.bump .rqtCx ch (s.seq r).ctx (if failed then Off.RQT_CX_FAIL else Off.RQT_CX_DONE) 1).note r true

/-- Whether an ending ends only the turn: KEEP with a stop condition 1 to 3 or the deadline (R235). -/
def Dev.turnOnly (s : Dev) (r why : Nat) : Bool := s.flag r 0 && (1 ≤ why && why ≤ 4)

/-- Ends a turn or a sequence with STOP_WHY and a code; `onTok` when its last token record of this boundary carries STOP (R231 to
R235, R240). -/
def Dev.endSeq (s : Dev) (r why code : Nat) (onTok : Bool) : Dev :=
  let st := s.st r
  let stopping := match (s.seq r).stopping with | .ending _ _ => true | _ => false
  if !liveSt st || st = St.ADMITTED || stopping then s
  else
    let s := s.abandon r
    let s := s.modSeq r fun q => { q with restore := none, held := none }
    let keep := s.turnOnly r why
    let parking := match (s.seq r).stopping with | .park .. => true | _ => false
    let s := s.setStateW r (s.st r) code 0 why
    let marked := if onTok then markLast code (s.seq r).group else none
    let s := match marked with
      | some ws => s.modSeq r fun q => { q with group := ws, lastWord := (ws.getLast?).getD 0 }
      | none => s
    let s :=
      if keep then
        let s := (s.setEnt r Ent.PROMPT_LEN 4 0).setEnt r Ent.PROMPT_POS 4 0
        let s := s.modSeq r fun q => { q with logW := q.logW.take (s.clen r) }
        if parking then s else (s.startCkpt r).setSt r St.PAUSED
      else
        let s := s.abandonHood r
        let s := s.modSeq r fun q => { q with stopping := .ending why code, ringRsv := false, replay := [] }
        (s.setSt r St.STOPPING).freeAll r
    let s := match marked with
      | some _ => s
      | none => s.statusOnly r (recordWord 0 (s.seq r).epochTok true code true) why
    let wrote := (s.seq r).pend.isEmpty
    let s : Dev := if !keep && wrote then s.finishSeq r else s
    s.note r (wrote || (keep && !parking))

/-- Ends a sequence FAILED with a code (R234); NOSTATE is counted (R199). -/
def Dev.failSeq (s : Dev) (r code : Nat) : Dev :=
  let ch := entCh r
  let s := if code = Code.NOSTATE then
      (s.bump .kvpCh ch 0 Off.KVP_NOSTATE 1).bump .kvpCx ch (s.seq r).ctx Off.KVP_CX_NOSTATE 1 else s
  s.endSeq r 7 code false

/-- PENDING_RECORD_WRITE: records that wait are written in order as ring slots are free, each followed by its status word; with the last
one an ending sequence is done (R240). -/
def Dev.pendingWrite (s : Dev) (r : Nat) : Dev :=
  (s.seq r).pend.foldl (fun s p =>
    if (s.seq r).pend.head? = some p ∧ s.ringFree r ≥ 1 then
      let s := (s.modSeq r fun q => { q with pend := q.pend.tail }).putRec r p.word |>.note r true
      let ending := match (s.seq r).stopping with | .ending _ _ => true | _ => false
      if !(s.seq r).pend.isEmpty then s.closeRingWith r (s.statusWordAs r p.st p.why p.reason)
      else (if ending && s.st r = St.STOPPING then s.finishSeq r else s).closeRing r
    else s) s

/-- DEADLINE_EXPIRE: device time at t0 is at or past the deadline of a sequence in PREFILL, DECODE or STOPPING (R233). -/
def Dev.deadlineHit (s : Dev) (r : Nat) : Dev :=
  let st := s.st r
  let d := s.deadline r
  -- a parking sequence whose turn has ended has no turn left to end (R210, R235)
  if d ≠ 0 ∧ s.timeOf r ≥ d ∧ (st = St.PREFILL ∨ st = St.DECODE ∨ (st = St.STOPPING ∧ s.stopWhy r = 0)) then
    s.endSeq r 4 Code.DEADLINE (!(s.seq r).group.isEmpty)
  else s

/-! ### Hoods -/

/-- Frames a hood of the sequence takes: pages, leaves and directory, and the log (R210). -/
def Dev.hoodNeed (s : Dev) (r : Nat) : Nat × Nat :=
  let q := s.seq r
  let leaves := match s.seqPat r with | some p => (leafPtrs p q).length | none => 0
  ((q.pages.map fun e => e.2.frames.length).sum, q.log.length + 1 + ceilDiv leaves 16)

/-- Whether a tier has `n` frames for a hood. -/
def Dev.tierHas (s : Dev) (ch ctx n t : Nat) : Bool :=
  match t with
  | 2 => n ≤ s.t2Free ch
  | 3 => n ≤ s.t3Free ch
  | _ => n ≤ s.t4Free ch ctx

/-- The hood tier: the one HOOD_TIER names if it has the frames, else T2, T3, T4 in this order (R210). -/
def Dev.chooseTier (s : Dev) (r : Nat) : Option Nat :=
  let ch := entCh r
  let ctx := (s.seq r).ctx
  let n := (s.hoodNeed r).1 + (s.hoodNeed r).2
  let want := s.inForce .kvpCx ch ctx Off.KVP_CX_CFG 13 12
  let named := match want with | 0 => none | w => if s.tierHas ch ctx n (w + 1) then some (w + 1) else none
  named <|> [2, 3, 4].find? fun t => s.tierHas ch ctx n t

def Dev.takeTier (s : Dev) (ch ctx n t : Nat) : Dev × List Frame :=
  match t with
  | 2 => s.takeT2 ch ctx n
  | 3 => s.takeT3 ch ctx n
  | _ => s.takeT4 ch ctx n

/-- Gives the reservation of a sequence back to the free pool (R210 step 2). -/
def Dev.freeRsv (s : Dev) (r : Nat) : Dev := s.modSeq r fun q => { q with rsv := 0 }

/-- A park is given up because no tier has the frames (R210). -/
def Dev.giveUpPark (s : Dev) (r : Nat) : Dev :=
  let s := s.setStateW r St.PAUSED Code.NOSPACE 0 (s.stopWhy r)
  let s := s.modSeq r fun q => { q with stopping := .no, ringRsv := false }
  (s.cmdSta r Code.NOSPACE).note r true

/-- The mover walks to every page with frames of a sequence (R189, R192). -/
def Dev.moverWalks (s : Dev) (r : Nat) : Dev × Bool :=
  (s.seq r).pages.foldl (fun (acc : Dev × Bool) e => if acc.2 && !e.2.frames.isEmpty && e.2.state = .present then
    let m := acc.1.moverWalk r e.1
    (m.1, m.2.isSome) else acc) (s, true)

/-- The boundary t1 of a park: no step is in flight, so the checkpoint starts, the reservation returns, and the copies begin
(R210 steps 2 and 3). -/
def Dev.parkStep2 (s : Dev) (r : Nat) : Dev :=
  let q := s.seq r
  match q.stopping with
  | .park ttl _ false _ _ =>
    if q.step.isSome ∨ !q.replay.isEmpty then s
    else if !(s.moverWalks r).2 then (s.moverWalks r).1
    else
      let ch := entCh r
      let s := (s.startCkpt r).freeRsv r
      match s.chooseTier r with
      | none => s.giveUpPark r
      | some t =>
        let need := s.hoodNeed r
        let aux := s.takeTier ch q.ctx need.2 t
        let s := aux.1.modSeq r fun q => { q with hoodAux := aux.2, stopping := .park ttl (some t) true false false }
        (s.seq r).pages.foldl (fun s e =>
          if e.2.frames.isEmpty then s
          else
            let old := match e.2.move with | some m => m.dst | none => []
            let s := s.freeFrames old
            let d := s.takeTier ch q.ctx e.2.frames.length t
            d.1.beginMove r e.1 e.2 d.2 false) s
  | _ => s

/-- HOOD_COPY_DONE: every copy of the hood is complete; those to T4 have gone to the host, each with its new header and BODY_CRC (R189, R210
step 3). -/
def Dev.hoodCopied (s : Dev) (r : Nat) : Dev :=
  match (s.seq r).stopping with
  | .park ttl (some t) true ck false =>
    let q := s.seq r
    let base := s.rd64 .kvpCx (entCh r) q.ctx Off.KVP_CX_HBASE
    let s := if t = 4 then
        s.emits ((q.pages.map fun e => match e.2.move with
          | some m => (e.2.frames.zip m.dst).map fun p =>
              Out.hostCopy q.ctx (base + p.2.ix * frameBytes) (frameBase p.1) frameBytes
          | none => []).flatten ++ (q.pages.map fun e => match e.2.move with
          | some m => ((e.2.frames.zip m.dst).zipIdx).map fun p =>
              let pg : PageSt := { e.2 with frames := m.dst, move := none }
              Out.hostWrite q.ctx (base + p.1.2.ix * frameBytes + hdrOff)
                (s.frameHeader r e.1 p.2 (crc32 (s.bytes (frameBase p.1.1) hdrOff)) pg)
          | none => []).flatten)
      else s
    s.modSeq r fun q => { q with stopping := .park ttl (some t) true ck true }
  | _ => s

/-- The first boundary after the checkpoint and every copy: entries switch to the hood, and the state becomes PARKED (R210 step 4). -/
def Dev.parkStep4 (s : Dev) (r : Nat) : Dev :=
  match (s.seq r).stopping with
  | .park ttl (some t) true true true =>
    let q := s.seq r
    let s := q.pages.foldl (fun s e => match e.2.move with
      | some m =>
        let s := (((s.walkPage r e.1).getD e.2.frames).zip m.dst).foldl (fun s p => s.copyFrame p.1 p.2) s
        let s := s.freeFrames e.2.frames
        let pg : PageSt := { e.2 with frames := m.dst, move := none }
        (s.modSeq r fun q => { q with pages := q.pages.put e.1 pg }).putHeaders r e.1 pg
      | none => s) s
    let s := (s.freeFrames q.log).freeDir r
    let s := s.modSeq r fun q => { q with
      log := q.hoodAux.take q.log.length, hoodAux := q.hoodAux.drop q.log.length, hoodTier := t, stopping := .no }
    let s := (s.setSt r St.PARKED).setEnt r Ent.EXPIRY 8 (s.timeOf r + ttl * 1000000)
    ((s.cmdSta r Code.OK).note r true).fitLeaves (entCh r)
  | _ => s

/-- The frames of a hood and everything with it are freed (R211, R243). -/
def Dev.dropHood (s : Dev) (r : Nat) : Dev := (s.setEnt r Ent.EXPIRY 8 0).freeAll r

/-- Whether a resume of the entry is written and not yet applied (R212). -/
def Dev.resumeIn (s : Dev) (r : Nat) : Bool :=
  nfld (s.ent r Ent.CMD_W 4) 15 8 = Code.PENDING && nfld (s.ent r Ent.CMD_W 4) 2 0 = 2

/-- HOOD_EXPIRE: E, which falls in the running plank of `ns`, passes; a resume written later comes too late (R212). -/
def Dev.hoodPast (s : Dev) (r ns : Nat) : Dev :=
  if s.st r = St.PARKED ∧ s.ent r Ent.EXPIRY 8 ≤ s.timeOf r + ns ∧ (s.seq r).restore.isNone ∧ !s.resumeIn r then
    s.modSeq r fun q => { q with past := true }
  else s

/-- At the first boundary at or after E the hood is freed; the reserved record carries EXPIRED (R211, R245). A resume written before E
is honoured (R212). -/
def Dev.hoodExpired (s : Dev) (r : Nat) : Dev :=
  let e := s.ent r Ent.EXPIRY 8
  let waiting := s.resumeIn r && !(s.seq r).past
  if s.st r ≠ St.PARKED ∨ s.timeOf r < e ∨ (s.seq r).restore.isSome ∨ waiting then s
  else
    let ch := entCh r
    let s := s.dropHood r
    let s := s.setStateW r St.STOPPING Code.EXPIRED 0 7
    let s := s.modSeq r fun q => { q with ringRsv := false }
    let s := s.putRec r (recordWord 0 (s.seq r).epochTok true Code.EXPIRED true)
    let s := s.finishSeq r
    (s.bump .kvpCh ch 0 Off.KVP_EXPIRED 1).bump .kvpCx ch (s.seq r).ctx Off.KVP_CX_EXPIRED 1

/-! ### Admission (R222, R223) -/

/-- Staging area of a context on a channel: base address and bytes (R222, R249). -/
def Dev.staging (s : Dev) (ch ctx : Nat) : Nat × Nat :=
  match (s.memOf ch).ranges.find? fun g => g.staging && g.ctx = ctx with
  | some g => (tierBase ch 1 + g.first * frameBytes, s.rdF .hubCx 0 ctx Off.HUB_CX_CFG 23 0 * 4096)
  | none => (0, 0)

def Dev.inStaging (s : Dev) (ch ctx a n : Nat) : Bool :=
  let g := s.staging ch ctx
  g.1 ≤ a && a + n ≤ g.1 + g.2

/-- The sampling block at SAMP_PTR, if it lies in the staging area and every used field is in range (R222, R228). -/
def Dev.readBlock (s : Dev) (r : Nat) : List Byte := s.bytes (s.ent r Ent.SAMP_PTR 8) 1024

/-- Check 0x06 with an upper limit on the prompt's length (R223, R244). -/
def Dev.promptOk (s : Dev) (r ctx lim : Nat) : Bool :=
  let n := s.ent r Ent.PROMPT_LEN 4
  let a := s.ent r Ent.PROMPT_ADDR 8
  1 ≤ n && n ≤ lim && a % 4 = 0 && s.inStaging (entCh r) ctx a (4 * n)
/-- Check 0x07. -/
def Dev.sampOk (s : Dev) (r ctx : Nat) : Bool :=
  let a := s.ent r Ent.SAMP_PTR 8
  a % 1024 = 0 && s.inStaging (entCh r) ctx a 1024
/-- Check 0x08. -/
def Dev.blockOk (s : Dev) (r ctx : Nat) : Bool :=
  match s.patOf ctx with
  | some p => blkOk (s.readBlock r) p.vocab p.draftLim
  | none => false

/-- Bytes of one rotated query row in a PAE operand format: the codes, and the scales of MX formats or the row's 2^e of FP8 (R120, R172, R181; the
two bytes for e are a DESIGN CHOICE). -/
def qRowBytes (dH qfmt : Nat) : Nat :=
  match qfmt with
  | 0 => dH / 2 + dH / 32
  | 1 => dH * 6 / 8 + dH / 32
  | 2 => dH + dH / 32
  | 3 => dH + 2
  | _ => 2 * dH

/-- Check 0x0B: a valid tuning descriptor (R276): SLOT the entry's adapter, with an active generation, and every buffer inside the
staging area and large enough. -/
def Dev.tuneOk (s : Dev) (r ctx : Nat) : Bool :=
  let ch := entCh r
  let a := s.ent r Ent.TUNE_PTR 8
  let slot := s.peek a 2
  let n := s.ent r Ent.PROMPT_LEN 4
  match s.patOf ctx, ((s.ctx ctx).adps.get Adp.fresh slot).active with
  | some p, some img =>
    let stat := n * ((attnLayers p).map fun e => e.2.hKv * e.2.g * (8 + qRowBytes e.2.dH e.2.qfmt)).sum
    let grad := (img.layers.map fun l => match p.layers[l.1]? with
      | some ly => 4 * img.rank * (ly.rows + ly.cols)
      | none => 0).sum
    a % 256 = 0 && s.inStaging ch ctx a 64 && slot = s.ent r Ent.ADAPTER 2 && slot < 64
      && s.inStaging ch ctx (s.peek (a + 8) 8) (4 * n)
      && stat ≤ s.peek (a + 0x18) 4 && s.inStaging ch ctx (s.peek (a + 0x10) 8) (s.peek (a + 0x18) 4)
      && grad ≤ s.peek (a + 0x28) 4 && s.inStaging ch ctx (s.peek (a + 0x20) 8) (s.peek (a + 0x28) 4)
      && s.inStaging ch ctx (s.peek (a + 0x30) 8) (4 * n)
  | _, _ => false

/-- R223: the first admission check that fails, with its REASON. -/
def Dev.admissionCheck (s : Dev) (r : Nat) : Option (Nat × Nat) :=
  let ch := entCh r
  let ctx := s.ent r Ent.CONTEXT 1 % 64
  let fail (bad : Bool) (d code : Nat) (k : Option (Nat × Nat)) : Option (Nat × Nat) := if bad then some (d, code) else k
  let ring := s.ent r Ent.RING_CFG 4
  let lg := ring % 32
  let adp := s.ent r Ent.ADAPTER 2
  let maxLen := match s.patOf ctx with | some p => p.maxLen | none => 0
  let slotN := match s.patOf ctx with | some p => 2 * slotFrames p | none => 0
  fail (s.partOwner ch (entIx r) ≠ some ctx ∨ (s.patOf ctx).isNone) 0x01 Code.TENANT <|
  fail (s.rdF .ldrCx 0 ctx Off.LDR_CMD_STA 18 16 = 7) 0x02 Code.REJECTED <|
  fail (s.ent r Ent.FLAGS 4 / 8 ≠ 0 ∨ s.ent r Ent.CMD_W 4 % 8 > 4) 0x03 Code.RANGE <|
  fail (s.prio r > (s.part ch ctx).2.2.1) 0x04 Code.RANGE <|
  fail (s.deadline r ≠ 0 ∧ s.deadline r ≤ s.timeOf r) 0x05 Code.DEADLINE <|
  fail (!s.promptOk r ctx (maxLen - 1)) 0x06 Code.RANGE <|
  fail (!s.sampOk r ctx) 0x07 Code.RANGE <|
  fail (!s.blockOk r ctx) 0x08 Code.RANGE <|
  fail (ring / 32 ≠ 0 ∨ lg < 10 ∨ lg > 24 ∨ s.ent r Ent.RING_ADDR 8 % (4 * 2 ^ lg) ≠ 0 ∨ s.ent r Ent.STATUS_ADDR 8 % 8 ≠ 0) 0x09 Code.RANGE <|
  fail (adp ≠ 0xFFFF ∧ (adp ≥ 64 ∨ ((s.ctx ctx).adps.get Adp.fresh adp).gen = 0)) 0x0A Code.RANGE <|
  fail (s.flag r 1 ∧ (s.inForce .attCh ch 0 Off.ATT_CTL 0 0 = 0 ∨ !s.tuneOk r ctx)) 0x0B Code.REJECTED <|
  fail ((s.dirRoom ch).isNone ∧ s.t1Free ch = 0 ∨ s.t2Free ch < slotN) 0x0C Code.NOSPACE none

/-- The home cluster with the fewest sequences homed in DECODE or PREFILL, ties to the lower index (R291). -/
def Dev.pickHome (s : Dev) (ch : Nat) : Nat :=
  let load (c : Nat) : Nat := ((s.seqsOf ch).filter fun r => (s.seq r).home = c && (s.st r = St.PREFILL || s.st r = St.DECODE)).length
  (List.range 8).foldl (fun b c => if load c < load b then c else b) 0

/-- Accepts an entry (R223). -/
def Dev.accept (s : Dev) (r : Nat) : Dev :=
  let ch := entCh r
  let ctx := s.ent r Ent.CONTEXT 1 % 64
  let old := s.seq r
  let adm := old.adm + 1
  let blk := s.readBlock r
  let home := s.pickHome ch
  let tune : Option Tune := if s.flag r 1 then some ⟨true, []⟩ else none
  let now := (s.chan ch).plank
  let s := s.modSeq r fun _ => { Seq.fresh with adm := adm, ctx := ctx, home := home, samp := blk, last := now, tune := tune }
  let s := s.setEnt r Ent.SEQ_TAG 8 (entIx r + ch * 512 + adm * 4096)
  let s := s.takeDir r
  let n := match s.patOf ctx with | some p => 2 * slotFrames p | none => 0
  let t := s.takeT2 ch ctx n
  let want := s.inForce .kvpCx ch ctx Off.KVP_CX_CFG 10 0
  let cx := nth 0 (t.1.ctx ctx).t1Short ch
  let got := min want (t.1.t1Free ch + cx)
  let s := t.1.modSeq r fun q => { q with ckptFrames := t.2, rsv := got }
  let s := s.modCtx ctx fun c => { c with t1Short := modifyAt (fun k => k - min k got) ch c.t1Short }
  let s := s.bump .kvpCx ch ctx Off.KVP_CX_RSHORT (got < want : Bool).toNat
  let s := [Ent.PROMPT_POS, Ent.LEN, Ent.CLEN, Ent.NEW_TOK, Ent.WRITTEN].foldl (fun s o => s.setEnt r o 4 0) s
  let s := (s.setEnt r Ent.EXPIRY 8 0).setStateW r St.PREFILL 0 0 0
  let s := s.modDlv r fun d => { d with
    recs := 0, pos := 0, gen := adm % 65536, ringAddr := s.ent r Ent.RING_ADDR 8, ringLog2 := s.ent r Ent.RING_CFG 4 % 32,
    statusAddr := s.ent r Ent.STATUS_ADDR 8, irq := s.flag r 2, ctx := ctx, last := St.PREFILL, live := true }
  ((s.bump .rqtCh ch 0 Off.RQT_ADMIT 1).bump .rqtCx ch ctx Off.RQT_CX_ADMIT 1).note r false

/-- Rejects an entry: back to FREE with REASON and DETAIL (R223). -/
def Dev.reject (s : Dev) (r detail code : Nat) : Dev :=
  let ch := entCh r
  let s := s.setStateW r St.FREE code detail 0
  (s.bump .rqtCh ch 0 Off.RQT_REJECT 1).bump .rqtCx ch (s.ent r Ent.CONTEXT 1 % 64) Off.RQT_CX_REJECT 1

/-! ### Commands of CMD_W (R242 to R245) -/

/-- R244: what a resume of a sequence in PAUSED gives: the new state, and whether it starts a turn; none where a check fails. -/
def Dev.resumeTo (s : Dev) (r : Nat) : Option (Nat × Bool) :=
  let pos := s.ent r Ent.PROMPT_POS 4
  let len := s.ent r Ent.PROMPT_LEN 4
  let ctx := (s.seq r).ctx
  if pos = 0 ∧ len ≥ 1 then
    match s.patOf ctx with
    | some p =>
      if s.promptOk r ctx (p.maxLen - 1 - s.clen r) && s.sampOk r ctx && s.blockOk r ctx then some (St.PREFILL, true) else none
    | none => none
  else if pos < len then some (St.PREFILL, false)
  else some (St.DECODE, false)

/-- Applies a resume of a sequence whose state stands in T1 and T2 (R244). -/
def Dev.resumeNow (s : Dev) (r : Nat) : Dev × Bool :=
  match s.resumeTo r with
  | none => (s, false)
  | some (st, turn) =>
    let s := if turn then
        let blk := s.readBlock r
        let n := s.clen r
        (s.modSeq r fun q => { q with samp := blk, progress := List.replicate 8 0, turnStart := n, logW := q.logW.take n }).setEnt
          r Ent.NEW_TOK 4 0
      else s
    let s := s.modSeq r fun q => { q with last := if q.last = 0 then (s.chan (entCh r)).plank else q.last }
    ((s.setStateW r st 0 0 0).note r false, true)

/-- Takes the frames of a restore: pages, leaves and directory in T1 by steps 1 and 2 of R199, the log in T2 by steps 1 and 2 of R529; false where
they cannot be had yet (R212). -/
def Dev.restoreFrames (s : Dev) (r : Nat) : Dev × Bool :=
  let ch := entCh r
  let q := s.seq r
  let leaves := match s.seqPat r with | some p => (leafPtrs p q).length | none => 0
  let n := ((q.pages.filter fun e => e.2.state = .present).map fun e => e.2.frames.length).sum + s.leafNeed ch leaves + (s.dirRoom ch).isNone.toNat
  let logN := q.log.length
  match if logN ≤ s.t2Free ch then s.useFree r n else none with
  | some s =>
    let s := s.takeDir r
    let t := s.takeT2 ch q.ctx logN
    let s := t.1.modSeq r fun q => { q with restoreLog := t.2, restore := q.restore.map fun x => (x.1, true) }
    ((s.seq r).pages.foldl (fun s e =>
      if e.2.state = .present then
        let d := s.takeT1 ch q.ctx e.2.frames.length
        d.1.beginMove r e.1 e.2 d.2 false
      else s) s, true)
  | none =>
    let a := s.startDemotions ch (s.shortT1 r n) false false (fun v => v = r)
    (a.1.demoteT2 ch (logN - a.1.t2Free ch - a.1.leavingT2 ch), false)

/-- Starts a restore of a hood (R212); one parked in place needs no copy (R415). -/
def Dev.startRestore (s : Dev) (r : Nat) : Dev :=
  let stop := s.planksOf r + max 1 (s.inForce .kvpCh (entCh r) 0 Off.KVP_HOLD 23 0)
  let s := s.modSeq r fun q => { q with restore := some (stop, false), home := s.pickHome (entCh r) }
  if (s.seq r).inPlace then s.modSeq r fun q => { q with restore := some (stop, true), ready := true }
  else
    match s.restoreFrames r with
    | (s', true) => s'
    | (s', false) => s'.bump .kvpCh (entCh r) 0 Off.KVP_HELD 1

/-- Frees what a restore had taken, and refuses the resume with a code; the hood stays PARKED (R212). -/
def Dev.refuseRestore (s : Dev) (r code : Nat) : Dev :=
  let q := s.seq r
  let s := s.freeFrames (q.restoreLog ++ ((q.pages.map fun e => match e.2.move with | some m => m.dst | none => []).flatten))
  let s := s.modSeq r fun q => { q with
    restoreLog := [], restore := none, ready := false, pages := q.pages.map fun e => (e.1, { e.2 with move := none }) }
  (s.freeDir r).cmdSta r code

/-- RESTORE_WAIT_EXPIRE: the wait for frames of a restore has reached the deadline or its HOLD_MAX and ends with NOSPACE (R212, R214). -/
def Dev.restoreExpired (s : Dev) (r : Nat) : Dev :=
  match (s.seq r).restore with
  | some (stop, false) =>
    let d := s.deadline r
    if (d ≠ 0 ∧ s.timeOf r ≥ d) ∨ (d = 0 ∧ s.planksOf r ≥ stop) then s.refuseRestore r Code.NOSPACE else s
  | _ => s

/-- A held restore asks again at each boundary, until its wait ends; each plank counts in KVP_HELD (R199, R212). -/
def Dev.retryRestore (s : Dev) (r : Nat) : Dev :=
  match (s.seq r).restore with
  | some (_, false) =>
    let t := s.restoreFrames r
    if t.2 then t.1
    else
      let s := t.1.restoreExpired r
      if (s.seq r).restore.isSome then s.bump .kvpCh (entCh r) 0 Off.KVP_HELD 1 else s
  | _ => s

/-- Bytes of a context's hood area in host memory: those of a frame (R210). -/
def Dev.hoodByte (s : Dev) (host : HostView) (r ix o : Nat) : Byte :=
  hostByte host (s.rd64 .kvpCx (entCh r) (s.seq r).ctx Off.KVP_CX_HBASE + ix * frameBytes + o)

/-- Whether frame k of a page comes back from T4 with a header that passes its check and names it (R189). -/
def Dev.hoodHeaderOk (s : Dev) (host : HostView) (r key k : Nat) (pg : PageSt) (f : Frame) : Bool :=
  let b := (List.range 64).map fun i => s.hoodByte host r f.ix (hdrOff + i)
  let want := s.frameHeader r key k 0 pg
  ofBytes (b.drop 60) = crc32 (b.take 60) && b.take 0xB = want.take 0xB && (b.drop 0xC).take 4 = (want.drop 0xC).take 4
    && (b.drop 0x12).take 1 = (want.drop 0x12).take 1

/-- Whether a frame comes back from T4 with the body that its BODY_CRC tells (R189, R212). -/
def Dev.hoodBodyOk (s : Dev) (host : HostView) (r : Nat) (f : Frame) : Bool :=
  ofBytes ((List.range 4).map fun i => s.hoodByte host r f.ix (hdrOff + 0x14 + i)) =
    crc32 ((List.range hdrOff).map fun o => s.hoodByte host r f.ix o)

/-- Brings a frame from T4 to the module. -/
def Dev.hoodFetch (s : Dev) (host : HostView) (r : Nat) (f : Frame) (to_ : Frame) : Dev :=
  let a := s.rd64 .kvpCx (entCh r) (s.seq r).ctx Off.KVP_CX_HBASE + f.ix * frameBytes
  let bs := host.filter fun e => decide (a ≤ e.1) && decide (e.1 < a + frameBytes)
  let s := s.zero (frameBase to_) frameBytes
  { s with mem := bs.foldr (fun e m => m.set 0 (frameBase to_ + (e.1 - a)) e.2) s.mem }

/-- One page of a restore: a frame from T4 whose BODY_CRC fails makes the page ABSENT, the others are brought in (R212). -/
def Dev.restorePage (s : Dev) (host : HostView) (r : Nat) (e : Nat × PageSt) : Dev :=
  if e.2.state = .absent || !(e.2.frames.any fun f => f.tier = 4) then s
  else if e.2.frames.all fun f => s.hoodBodyOk host r f then
    match e.2.move with
    | some m => (e.2.frames.zip m.dst).foldl (fun s x => s.hoodFetch host r x.1 x.2) s
    | none => s
  else
    let s := s.freeFrames (e.2.frames ++ (match e.2.move with | some m => m.dst | none => []))
    s.modSeq r fun q => { q with pages := q.pages.put e.1 { e.2 with state := .absent, frames := [], move := none } }

/-- HOOD_RESTORE_DONE: the copies of a restore are done. A bad log word refuses the resume; a header that fails raises FRAME_HDR, and the hood is
not restored; frames of T4 come from host memory (R189, R212). -/
def Dev.restoreDone (s : Dev) (r : Nat) (host : HostView) (logOk : Bool) : Dev :=
  match (s.seq r).restore with
  | some (_, true) =>
    let q := s.seq r
    if q.ready ∧ q.inPlace = false then s
    else if !logOk then (s.refuseRestore r Code.REJECTED).raise (entCh r) 38
    else if q.inPlace then s.modSeq r fun q => { q with ready := true }
    else if q.pages.any fun e => e.2.state = .present && (e.2.frames.zipIdx).any fun f =>
        !(if f.1.tier = 4 then s.hoodHeaderOk host r e.1 f.2 e.2 f.1 else s.headerOk r e.1 f.2 f.1) then
      s.raise (entCh r) 37
    else (q.pages.foldl (fun s e => s.restorePage host r e) s).modSeq r fun q => { q with ready := true }
  | _ => s

/-- At the boundary after its copies a restored sequence leaves its hood, and the resume is checked (R212, R244). -/
def Dev.finishRestore (s : Dev) (r : Nat) : Dev :=
  let q := s.seq r
  match q.restore with
  | some (_, true) =>
    if !q.ready then s
    else
      let s := if q.inPlace then s
        else
          let s := q.pages.foldl (fun s e => match e.2.move with
            | some m =>
              let s := (e.2.frames.zip m.dst).foldl (fun s p => s.copyFrame p.1 p.2) s
              let s := s.freeFrames e.2.frames
              let pg : PageSt := { e.2 with frames := m.dst, move := none }
              ((s.modSeq r fun q => { q with pages := q.pages.put e.1 pg }).putHeaders r e.1 pg).bump .kvpCh (entCh r) 0 Off.KVP_PROMOTE 1
            | none => s) s
          let s := s.freeFrames (q.log ++ q.hoodAux)
          s.modSeq r fun q => { q with log := q.restoreLog, restoreLog := [], hoodAux := [] }
      let s := s.modSeq r fun q =>
        let lose (e : Nat × PageSt) : Nat × PageSt := if q.mark && !e.2.isState then (e.1, { e.2 with state := .absent, frames := [] }) else e
        { q with hoodTier := 0, inPlace := false, restore := none, ready := false, ringRsv := false, pages := q.pages.map lose }
      let s := if q.mark then (s.freeFrames ((q.pages.map fun e => if e.2.isState then [] else match e.2.move with
          | some m => m.dst | none => e.2.frames).flatten)).modSeq r fun q => { q with mark := false } else s
      let s := (s.setEnt r Ent.EXPIRY 8 0).fitLeaves (entCh r)
      let s := s.setSt r St.PAUSED
      match s.resumeNow r with
      | (s', true) => s'.cmdSta r Code.OK
      | (s', false) => (s'.cmdSta r Code.RANGE).note r true
  | _ => s

/-- PAUSE (R243). -/
def Dev.applyPause (s : Dev) (r : Nat) : Dev :=
  let st := s.st r
  if st = St.PREFILL ∨ st = St.DECODE then ((s.setSt r St.PAUSED).cmdSta r Code.OK).note r true
  else if st = St.PAUSED then s.cmdSta r Code.OK
  else if st = St.STOPPING then s.cmdSta r Code.BUSY
  else s.cmdSta r Code.RANGE

/-- RESUME (R243, R244, R212). -/
def Dev.applyResume (s : Dev) (r : Nat) : Dev :=
  let st := s.st r
  if st = St.PAUSED then
    match s.resumeNow r with
    | (s', true) => s'.cmdSta r Code.OK
    | (s', false) => s'.cmdSta r Code.RANGE
  else if st = St.PARKED then
    if (s.seq r).restore.isSome then s else ((s.cmdSta r Code.PENDING).modSeq r fun q => { q with cmdOpen := true }).startRestore r
  else if st = St.PREFILL ∨ st = St.DECODE then s.cmdSta r Code.OK
  else if st = St.STOPPING then s.cmdSta r Code.BUSY
  else s.cmdSta r Code.RANGE

/-- PARK (R243, R245, R210). -/
def Dev.applyPark (s : Dev) (r : Nat) : Dev :=
  let st := s.st r
  let ttl := s.ent r Ent.TTL 4
  if st = St.PREFILL ∨ st = St.DECODE ∨ st = St.PAUSED then
    if ttl = 0 then s.cmdSta r Code.RANGE
    else if s.ringFree r = 0 then s.cmdSta r Code.NOSPACE
    else
      let s := s.modSeq r fun q => { q with ringRsv := true, stopping := .park ttl none false false false, parkFrom := st, cmdOpen := true }
      ((s.setSt r St.STOPPING).cmdSta r Code.PENDING).note r false
  else if st = St.PARKED then
    if ttl = 0 then s.cmdSta r Code.RANGE
    else ((s.setEnt r Ent.EXPIRY 8 (s.timeOf r + ttl * 1000000)).modSeq r fun q => { q with past := false }).cmdSta r Code.OK
  else if st = St.STOPPING then s.cmdSta r Code.BUSY
  else s.cmdSta r Code.RANGE

/-- CANCEL (R243): STOP_WHY 6 with code OK. -/
def Dev.applyCancel (s : Dev) (r : Nat) : Dev :=
  let st := s.st r
  if st = St.PREFILL ∨ st = St.DECODE ∨ st = St.PAUSED then (s.endSeq r 6 Code.OK false).cmdSta r Code.OK
  else if st = St.STOPPING then
    match (s.seq r).stopping with
    | .park .. => (s.endSeq r 6 Code.OK false).cmdSta r Code.OK
    | _ => s.cmdSta r Code.BUSY
  else if st = St.PARKED then
    let s := (s.dropHood r).modSeq r fun q => { q with ringRsv := false }
    let s := s.setStateW r St.STOPPING Code.OK 0 6
    let s := s.putRec r (recordWord 0 (s.seq r).epochTok true Code.OK true)
    (s.finishSeq r).cmdSta r Code.OK
  else s.cmdSta r Code.RANGE

/-- The scan applies an entry's pending command and clears CMD to NONE (R242). PENDING of a park or restore that runs is no command. -/
def Dev.applyCmd (s : Dev) (r : Nat) : Dev :=
  let w := s.ent r Ent.CMD_W 4
  let parking := match (s.seq r).stopping with | .park .. => true | _ => false
  if nfld w 15 8 ≠ Code.PENDING || (nfld w 2 0 = 0 && (s.seq r).cmdOpen && ((s.seq r).restore.isSome || parking)) then s
  else
    let c := nfld w 2 0
    let s := s.setEnt r Ent.CMD_W 1 0
    -- step 2 of this boundary left it STOPPING, to be DONE or FAILED with its final record (R234)
    let ending := (s.st r = St.DONE || s.st r = St.FAILED) && (s.seq r).endedAt = some (s.planksOf r)
    if ending && 1 ≤ c && c ≤ 4 then s.cmdSta r Code.BUSY
    else match c with
    | 0 => s.cmdSta r Code.OK
    | 1 => s.applyPause r
    | 2 => s.applyResume r
    | 3 => s.applyPark r
    | 4 => s.applyCancel r
    | _ => s.cmdSta r Code.RANGE

/-- Boundary step 5 of one entry: admission, then its command (R223, R242). -/
def Dev.scanEntry (s : Dev) (r : Nat) : Dev :=
  if s.st r = St.ADMITTED then
    match s.admissionCheck r with
    | some (d, code) => s.reject r d code
    | none =>
      let s := s.accept r
      let c := s.ent r Ent.CMD_W 4
      if nfld c 2 0 = 0 then s.applyCmd r else (s.setEnt r Ent.CMD_W 4 (c % 8 + Code.PENDING * 256)).applyCmd r
  else s.applyCmd r

/-- Boundary step 5 (R16, R223, R242): the scan of a channel, if SCAN_EN and no orderly stop holds it (R247, R415). A park whose
sequence has no step in flight passes to step 2 at the same boundary (R210). -/
def Dev.scan (s : Dev) (ch : Nat) : Dev :=
  if s.inForce .rqtCh ch 0 Off.RQT_CTL 0 0 = 0 ∨ (s.chan ch).orderly then s
  else
    let s := (s.entries ch).foldl (fun s r => s.scanEntry r) s
    ((s.entries ch).foldl (fun s r => s.parkStep2 r) s).closeRings ch

end Sys2Proof.Machine
end

