-- ==== Sys2Proof/Machine/Serve.lean ====
section
/-! DEFINITION. Boundary steps 1 to 3 of the serving side: stages and carried work of the steps in flight (R19 to R23), keys and values
written into pages (R114 to R118, R188), and the commit of finished steps (R202 to R208, R229 to R232). -/

namespace Sys2Proof.Machine
open Sys2Proof

/-! ### Keys and values (R114 to R118, R188) -/

/-- The blocks of one vector in a KV format: code bytes, scale bytes, KV SAT and KV ZER (R114 to R117). -/
def kvVector (q : Nat) (xs : List F32) : List Byte × List Byte × Nat × Nat :=
  (List.range (xs.length / 32)).foldl (fun acc b =>
    let e := kvEncode q ((xs.drop (32 * b)).take 32)
    (acc.1 ++ e.1, acc.2.1 ++ [e.2.1], acc.2.2.1 + e.2.2.1, acc.2.2.2 + e.2.2.2)) ([], [], 0, 0)

/-- Writes bytes of a frame of a page, and of its staged copies in the same cycle (R195). -/
def Dev.frameWrite (s : Dev) (r key k : Nat) (f : Frame) (o : Nat) (bs : List Byte) : Dev :=
  let s := s.setBytes (frameBase f + o) bs
  (s.staged.filter fun x => x.r = r && x.key = key && x.k = k && x.frame = f).foldl (fun s x => s.putScratch x.core (x.addr + o) bs) s

/-- A key and a value are rotated, quantised and written into the frame of their page, which raises the page's FILL; a recompute step writes ABSENT
entries only (R118, R123, R139, R188, R192, R201). The fuller is that of core `c`, which lies in the sequence's home cluster. -/
def Dev.putKv (s : Dev) (c : Nat) (w : KvRow) : Dev :=
  let r := w.seq.ix
  match s.seqPat r, (s.seq r).step with
  | some pat, some st =>
    match pat.layers[w.layer]?, (s.seq r).pages.find? fun e => e.1 = pageKey w.layer (w.pos / spanP pat) with
    | some l, some (_, pg) =>
      let rec_ := match st.kind with | .recompute _ => true | _ => false
      let inStep := st.start ≤ w.pos && w.pos < st.stop + st.drafts
      match headPlace (spanP pat) l pg w.head with
      | some (f, j, nh) =>
        if !inStep || (rec_ && pg.state = .present) || f.tier > 2 || c / 8 ≠ entCh r * 8 + (s.seq r).home then s
        else
          let k := kvVector pg.fmt (rotateBy ((l.kvE + 1) / 2) l.kvE l.qkSeed w.key)
          let v := kvVector pg.fmt (rotate l.kvE l.vSeed w.value)
          let o := kvOffsets (spanP pat) l.dH pg.fmt nh j (w.pos % spanP pat)
          let key := pageKey w.layer (w.pos / spanP pat)
          let n := w.head / headsPerFrame (spanP pat) l pg.fmt
          let s := [(o.1, k.1), (o.2.1, v.1), (o.2.2.1, k.2.1), (o.2.2.2, v.2.1)].foldl (fun s x => s.frameWrite r key n f x.1 x.2) s
          let s := s.modSeq r fun q => { q with pages := q.pages.put key { pg with fill := max pg.fill (w.pos % spanP pat + 1) } }
          let s := (s.bump .ful (entCh r) (coreIn c) Off.FUL_KVSAT (k.2.2.1 + v.2.2.1)).bump .ful (entCh r) (coreIn c) Off.FUL_KVZER (k.2.2.2 + v.2.2.2)
          s.bump .ful (entCh r) (coreIn c) Off.FUL_ROT 2
      | none => s
    | _, _ => s
  | _, _ => s

/-! ### Stages (R20 to R23, R269) -/

/-- Whether a step's next stage holds a layer that the wave has not switched to the step's epoch (R269). -/
def Dev.stageBlocked (s : Dev) (r : Nat) (st : Step) : Bool :=
  let c := s.ctx (s.seq r).ctx
  c.load.waveOn && st.epoch = (s.rd .ldrCx 0 (s.seq r).ctx Off.LDR_EPOCH).toNat && (st.stages.headD []).any fun w => c.load.wavePos ≤ w.1

/-- Whether a tile that a step's next stage needs satisfies `p`. -/
def Dev.stageNeeds (s : Dev) (r : Nat) (st : Step) (p : Tile → Bool) : Bool :=
  (st.stages.headD []).any fun w => match s.layerOf (s.seq r).ctx w.1 with
    | some l => ((l.blocks.map (·.tiles)).flatten).any fun k => p (s.tile (s.serving k))
    | none => false

/-- Whether an item of the sequence's running step is still on an attention engine of its channel (R167, R176). -/
def Dev.engineBusy (s : Dev) (r : Nat) : Bool :=
  let mine (a : AttnRun) : Bool := a.item.seq.ix = r
  (s.cores.any fun e => e.1 / 64 = entCh r && e.2.dae.any mine) || (s.clusters.any fun e => e.1 / 8 = entCh r && e.2.pae.run.any mine)

/-- Whether engine work of the sequence waits on a sync object (R327). -/
def Dev.waitsOpen (s : Dev) (r : Nat) : Bool :=
  let mine (w : SyWait) : Bool := !w.met && w.seq.any fun q => q.ix = r
  (List.range 8).any fun ch => (s.chan ch).sync.objs.any fun o => o.2.waits.any mine

/-- Whether work of a step is unfinished at the boundary: carried in the plank that ends, left over from an earlier one, an item on an
engine, or work that waits on a sync object (R19, R20, R167, R327). -/
def Dev.unfinished (s : Dev) (r : Nat) (late : Bool) : Bool :=
  late || s.waitsOpen r || (s.chan (entCh r)).carried.contains (entIx r) || s.stepCarried ⟨Fin.ofNat 8 (entCh r), Fin.ofNat 512 (entIx r)⟩ || s.engineBusy r

/-- A step's work has slipped twice: a plank overrun, counted and recorded (R21). -/
def Dev.overrun (s : Dev) (r : Nat) (st : Step) : Dev :=
  let l := ((st.stages.headD []).headD (0, 0)).1
  let home := (s.seq r).home
  (s.bump .plkCh (entCh r) 0 Off.PLK_OVERRUN 1).record (entCh r) ⟨0x120, 4, 127, home, false, false, [l % 256, l / 256, home]⟩

/-- The plank's end for a step in flight: its stage is done, or work that missed the plank holds it, for one plank or into overrun; each plank
of carried work counts a slip (R19 to R21). Work still unfinished at a third or later boundary stays the same overrun: it is counted and
recorded once (DESIGN CHOICE: R21 speaks of the second slip only). -/
def Dev.advanceStep (s : Dev) (r : Nat) (late : Bool) : Dev :=
  let ch := entCh r
  match (s.seq r).step with
  | none => s
  | some st =>
    let put (s : Dev) (st : Step) : Dev := s.modSeq r fun q => { q with step := some st }
    let finish (st : Step) : Step := { st with stages := st.stages.tail, slip := 0, ended := st.stages.tail.isEmpty }
    match st.kind with
    | .backward => s
    | _ =>
      if s.unfinished r late then
        let s := s.slipOnce ch (entIx r)
        if st.slip = 0 then put s { st with slip := 1 }
        else put (if st.slip = 1 then s.overrun r st else s) { st with slip := 2 }
      else if st.slip ≠ 0 then put s (finish st)
      else if s.stageBlocked r st then s.bump .ldrCx 0 (s.seq r).ctx Off.LDR_HELD 1
      -- tiles in a blocking run hold the stage (R421); one in its column plank makes it a plank late (R91)
      else if s.stageNeeds r st fun t => t.state = .blocking then s.bump .bkgCh ch 0 Off.BKG_HELD 1
      else if s.stageNeeds r st fun t => t.state = .programming && t.prog = some .column then s.slipOnce ch (entIx r)
      else put s (finish st)

/-! ### Commit -/

/-- A row of logits of a step; a row the engines did not give is all +0. -/
def logitRow (ls : List LogitRow) (r : Nat) (draft : Bool) (pos : Nat) : LogitRow :=
  (ls.find? fun x => x.seq.ix = r && x.draft = draft && x.pos = pos).getD
    ⟨⟨Fin.ofNat 8 (entCh r), Fin.ofNat 512 (entIx r)⟩, pos, draft, 0, []⟩

/-- Tokens a step yields from position `p` on with `n` drafts, the drafts accepted, and the positions with a non-finite largest
logit (R229, R230). -/
def stepTokens (ls : List LogitRow) (r vocab : Nat) (blk : List Byte) (p n : Nat) : List Nat × Nat × Nat :=
  let tgt (i : Nat) : Kept := keptOf (logitRow ls r false (p + i)) vocab blk
  let dft (i : Nat) : Kept := keptOf (logitRow ls r true (p + i)) vocab blk
  let ds := (List.range n).map fun k => sampleKept (dft k) (Blk.seed blk ^^^ (2 ^ 64 - 1)) (2 * (p + k))
  verifyDrafts (Blk.temp blk = 0) (Blk.seed blk) tgt dft ds 0 p

/-- Commits tokens in position order until one meets a stop condition; answers STOP_WHY, and how many were committed (R207, R231,
R232, R236). -/
def Dev.commitToks (s : Dev) (r epoch maxLen : Nat) : List Nat → Nat → Dev × Nat × Nat
  | [], m => (s, 0, m)
  | t :: ts, m =>
    let pos := s.clen r
    let new := s.ent r Ent.NEW_TOK 4 + 1
    let s := (s.setEnt r Ent.NEW_TOK 4 new).setEnt r Ent.CLEN 4 (pos + 1)
    let s := s.modSeq r fun q => { q with logW := q.logW.take pos ++ [t % 2 ^ 24 + epoch % 2 * 2 ^ 24], epochTok := epoch % 2 }
    let s := s.putRec r (recordWord t epoch false 0 false)
    let w := stopWhyOf (s.seq r).samp (s.seq r).progress t new pos maxLen
    let s := s.modSeq r fun q => { q with progress := w.2 }
    if w.1 ≠ 0 then (s, w.1, m + 1) else s.commitToks r epoch maxLen ts (m + 1)

/-- The state pages of a sequence take over the frame a step wrote, at the index of the last accepted position, which its header records (R205). -/
def Dev.switchStates (s : Dev) (r ix : Nat) : Dev :=
  let s := s.modSeq r fun q => { q with pages := q.pages.map fun e =>
    (e.1, if e.2.isState then { e.2 with cur := 1 - e.2.cur, curIx := ix, fill := ix } else e.2) }
  ((s.seq r).pages.filter fun e => e.2.isState && e.2.state = .present).foldl (fun s e => s.putHeaders r e.1 e.2) s

/-- Whether growth from `a` to `b` passes a multiple of the checkpoint interval (R208). -/
def passesInterval (a b i : Nat) : Bool := b / max 1 i ≠ a / max 1 i

/-- What follows every commit: rejected positions are rolled back, LEN follows CLEN, window pages go, a checkpoint starts at the
interval (R198, R203, R208). -/
def Dev.afterCommit (s : Dev) (r old : Nat) : Dev :=
  let len := s.clen r
  let s := (s.freeBeyond r len true).setEnt r Ent.LEN 4 len
  let s := (s.winFree r len).fitLeaves (entCh r)
  if passesInterval old len (s.inForce .kvpCh (entCh r) 0 Off.KVP_CKPT 11 0) then s.startCkpt r else s

/-- Commits tokens sampled by a step at the committed length: log, records, counters, roll-back, stop (R202, R203, R230, R231). -/
def Dev.commitTokens (s : Dev) (r old : Nat) (st : Step) (ls : List LogitRow) : Dev :=
  match s.seqPat r with
  | none => s
  | some pat =>
    let ch := entCh r
    let t := stepTokens ls r pat.vocab (s.seq r).samp (s.clen r) st.drafts
    let s := s.bump .rqtCh ch 0 Off.RQT_NANSAMP t.2.2
    let c := s.commitToks r st.epoch pat.maxLen t.1 0
    let s := (c.1.bump .rqtCh ch 0 Off.RQT_DRAFT_PROP st.drafts).bump .rqtCh ch 0 Off.RQT_DRAFT_ACC (min t.2.1 c.2.2)
    let s := match st.kind with | .decode => s.switchStates r (c.2.2 - 1) | _ => s
    let s := if s.st r = St.PREFILL then (s.setSt r St.DECODE).note r false else s
    let s := s.afterCommit r old
    if c.2.1 ≠ 0 then s.endSeq r c.2.1 Code.OK true else s

/-- The state that a step leaves in a state layer goes into the frame that is not committed, at the place of its position; only a decode step has
more than one. A recompute's working state lies in its two working frames in turn, chunk by chunk, the layers one after another (R201, R205; the
place within the working frames is a DESIGN CHOICE). -/
def Dev.putState (s : Dev) (w : StateRow) : Dev :=
  let r := w.seq.ix
  match s.seqPat r, (s.seq r).step with
  | some pat, some st =>
    match pat.layers[w.layer]? with
    | some l =>
      if !isSsm l || !st.ended || w.bytes.length ≠ l.stateBytes then s
      else match st.kind with
        | .recompute _ =>
          let ord := (((pageLayers pat).filter fun e => isSsm e.2).map (·.1)).idxOf w.layer
          (match (s.seq r).work[st.start / max 1 pat.chunk % 2]? with
          | some f => if w.index = 0 ∧ (ord + 1) * l.stateBytes ≤ frameBytes then s.setBytes (frameBase f + ord * l.stateBytes) w.bytes else s
          | none => s)
        | .backward => s
        | k =>
          let n := if k = .decode then st.drafts else 0
          (match (s.seq r).pages.find? fun e => e.1 = pageKey w.layer 0 with
          | some (_, pg) => (match pg.frames[1 - pg.cur]? with
            | some f => if w.index ≤ n && f.tier ≤ 2 then s.setBytes (frameBase f + w.index * l.stateBytes) w.bytes else s
            | none => s)
          | none => s)
    | none => s
  | _, _ => s

/-- A recompute step commits: at the end of its page index the ABSENT entries are PRESENT again (R201). -/
def Dev.commitRecompute (s : Dev) (r page stop : Nat) : Dev :=
  match s.seqPat r with
  | none => s
  | some pat =>
    let top := min ((page + 1) * spanP pat) (s.clen r)
    if stop < top then s.modSeq r fun q => { q with recomp := stop }
    else
      let s := s.freeFrames (s.seq r).work
      let s := s.modSeq r fun q => { q with
        recomp := 0, work := []
        pages := q.pages.map fun e => (e.1, if keyPage e.1 = page && e.2.state = .absent && !e.2.frames.isEmpty then
          { e.2 with state := .present } else e.2) }
      s.bump .kvpCh (entCh r) 0 Off.KVP_RECOMP 1

/-- Boundary step 2 of one sequence: its step, if its last stage is done, commits (R16, R202, R230). -/
def Dev.commitStep (s : Dev) (r : Nat) (ls : List LogitRow) : Dev :=
  match (s.seq r).step with
  | none => s
  | some st =>
    if !st.ended then s
    else
      let old := s.clen r
      let now := (s.chan (entCh r)).plank
      let s := s.modSeq r fun q => { q with step := none, last := now }
      let s := match st.kind with
        | .decode => s.commitTokens r old st ls
        | .recompute page => s.commitRecompute r page st.stop
        | .replay =>
          let s := s.bump .fltCh (entCh r) 0 Off.FLT_REPLAY (st.stop - st.start)
          let s := s.modSeq r fun q => { q with replay := match q.replay with
            | (_, b, tok) :: rest => if st.stop < b then (st.stop, b, tok) :: rest else rest
            | [] => [] }
          let s := s.switchStates r 0
          if st.sample then s.commitTokens r old st ls else s
        | _ =>
          let s := (s.setEnt r Ent.CLEN 4 st.stop).switchStates r 0
          if st.sample then s.commitTokens r old st ls else s.afterCommit r old
      -- a marked sequence loses its pages when its last old-epoch step commits (R271)
      s.dropMarked r

/-- Boundary steps 1 to 3 of a channel's sequences: stages move on, finished steps commit, deadlines and expiries fall, and the
records are issued (R16, R211, R233, R237). -/
def Dev.commitAll (s : Dev) (ch : Nat) (env : BoundaryEnv) : Dev :=
  let late (r : Nat) : Bool := env.late.any fun x => x.ix = r
  let rs := s.entries ch
  let s := rs.foldl (fun s r => s.advanceStep r (late r)) s
  let s := (env.states.filter fun w => w.seq.ch.val = ch).foldl (fun s w => s.putState w) s
  let s := rs.foldl (fun s r => s.commitStep r env.logits) s
  let s := rs.foldl (fun s r => s.redoCkpt r) s
  let s := rs.foldl (fun s r => s.deadlineHit r) s
  let s := rs.foldl (fun s r => s.hoodExpired r) s
  s.closeRings ch

end Sys2Proof.Machine
end

