-- ==== Sys2Proof/Machine/Plan.lean ====
section
/-! DEFINITION. Boundary step 7 (R16, R23 to R27, R197 to R202, R224 to R227): stages and depth, the candidates in order, the growth of
their pages, and the step each one gets; the background moves of R293, the reservations of R294 and the preferred channel of R292. -/

namespace Sys2Proof.Machine
open Sys2Proof

/-! ### Stages and depth (R14, R18, R23) -/

/-- Time of one MVM of a slice block as the plan counts it: at its own IN_FMT, or at A8 where a tile that holds it lies in a cluster in wide
mode; a block of a spill layer takes none (R18, R25, R49). -/
def blockNs (wide : Nat → Bool) (b : Block) : Nat :=
  if b.tiles.isEmpty then 0
  else mvmNs (fmtBits (if b.tiles.any fun k => wide (tileCl k) then 2 else b.inFmt)) (planPassesOf b.rspan b.rowGroup b.planPasses)

/-- Time of one execution of a layer for a micro-batch of `n` vectors: its tiles in parallel, one MVM for each vector, and the digital engines
(R18, R126). -/
def batchNs (wide : Nat → Bool) (l : Layer) (n : Nat) : Nat :=
  Config.layerTime l.rows l.cols (l.kind + 256 * n) + n * ((l.blocks.map (blockNs wide)).foldl max 0)

/-- Time of a DAE item over a whole leaf in T1, at its most rows (R175, R177). -/
def daeItemNs (l : Layer) (drafts : Nat) : Nat :=
  350 + ceilDiv ((ceilDiv l.segLen 256 * (min 256 (l.hpc * l.g * (1 + drafts)) * l.dH + 16) + 8) * 5) 8

/-- MACs of a PAE per CLK_CORE cycle on a layer's operands (R13, R178). -/
def paeMacs (l : Layer) : Nat := if l.qfmt = 0 && l.kvFmt ≤ 3 then 32768 else if l.qfmt = 4 then 8192 else 16384

/-- Time of a PAE item over a whole leaf: its two products for QBLK × G rows of each head, and the staging of the leaf (R180). -/
def paeItemNs (l : Layer) : Nat :=
  ceilDiv (2 * l.qblk * l.g * l.hpc * l.dH * l.segLen * 5) (paeMacs l * 8) + Config.stageTime (ceilDiv (l.segLen * l.hpc * 2 * l.dH * 33) 32)

/-- A unit of work that the plan counts whole (R18, R167): its layer, the vectors of an array execution, and its time. -/
structure PlanUnit where
  layer : Nat
  vecs : Nat
  ns : Nat

/-- The units of a layer for a step: executions of up to 16 vectors, or attention items (R126, R167). `chunk` is 0 for a decode step. A layer
of the draft model runs once for each draft that a step may propose, a layer of the target once more (R24, R230). -/
def layerUnits (p : Pattern) (wide : Nat → Bool) (chunk li : Nat) (l : Layer) : List PlanUnit :=
  let groups := ceilDiv l.hKv (max 1 l.hpc)
  if isAttn l then
    if chunk = 0 then List.replicate (groups * Config.planLeaves p.maxLen l.segLen) ⟨li, 0, daeItemNs l p.draftLim⟩
    else List.replicate (groups * ceilDiv chunk (max 1 l.qblk) * Config.planLeaves p.maxLen l.segLen) ⟨li, 0, paeItemNs l⟩
  else
    let n := if chunk ≠ 0 then chunk else if l.draft then p.draftLim else 1 + p.draftLim
    (List.range (ceilDiv n 16)).map fun i => ⟨li, min 16 (n - 16 * i), batchNs wide l (min 16 (n - 16 * i))⟩

/-- Adds a unit to a stage, newest layer first. -/
def stageAdd (st : Stage) (u : PlanUnit) : Stage :=
  match st with
  | (l, n) :: r => if l = u.layer then (l, n + u.vecs) :: r else (u.layer, u.vecs) :: st
  | [] => [(u.layer, u.vecs)]

/-- Cuts units into stages that each fit a share; a unit longer than the share is a stage of its own (R23). -/
def cutUnits (share : Nat) : List PlanUnit → Stage → Nat → List Stage
  | [], st, _ => if st.isEmpty then [] else [st.reverse]
  | u :: us, st, used =>
    if !st.isEmpty ∧ used + u.ns > share then st.reverse :: cutUnits share us (stageAdd [] u) u.ns
    else cutUnits share us (stageAdd st u) (used + u.ns)

/-- The stages of a step of a pattern (R23, R25). -/
def stagesOf (p : Pattern) (wide : Nat → Bool) (share chunk : Nat) : List Stage :=
  cutUnits share ((p.layers.zipIdx.map fun e => layerUnits p wide chunk e.2 e.1).flatten) [] 0

/-- Longest single execution of a layer: a micro-batch of at most 16 vectors, or one attention item of either engine (R14, R167, R180). -/
def layerMax (p : Pattern) (l : Layer) : Nat :=
  if isAttn l then max (daeItemNs l p.draftLim) (paeItemNs l)
  else ((List.range 17).map fun n => batchNs (fun _ => false) l n).foldl max 0

/-- Longest single layer execution of a pattern (R14). -/
def longestExec (p : Pattern) : Nat := (p.layers.map (layerMax p)).foldl max 0

/-- D and DP of a pattern for the period and fill target in force, as they are outside wide mode (R23, R227). -/
def Dev.setDepth (s : Dev) (ctx : Nat) : Dev :=
  let len (p : Pattern) (chunk : Nat) : Nat := (stagesOf p (fun _ => false) s.shareNs chunk).length
  match s.patOf ctx with
  | some p => s.modCtx ctx fun c => { c with depth := len p 0, depthP := len p p.chunk }
  | none => s.modCtx ctx fun c => { c with depth := 0, depthP := 0 }

/-- Whether a cluster is in wide mode (R134). -/
def Dev.wide (s : Dev) (cl : Nat) : Bool := (s.clus cl).storm.wide

/-! ### What the plan counts on each tile (R18, R20, R76) -/

/-- The tiles that a stage of a context's step uses, each with the time of its MVMs (R18). Slices that run as spill layers use none. -/
def Dev.stageWork (s : Dev) (ctx : Nat) (st : Stage) : List (Nat × Nat) :=
  (st.map fun w => match s.layerOf ctx w.1 with
    | some l => if l.spill then [] else (l.blocks.map fun b =>
        ((b.tiles.filter fun k => !s.sliceSpills k).map fun k => (s.serving k, w.2 * blockNs s.wide b))).flatten
    | none => []).flatten

/-- Adds a stage's work to what the plan counts. -/
def Dev.planWork (s : Dev) (ctx : Nat) (st : Stage) : Dev :=
  (s.stageWork ctx st).foldl (fun s e => s.modTile e.1 fun t => { t with planned := t.planned + e.2 }) s

/-- What carried work takes of a tile's work window: what of it the boundary time does not hold (R20). -/
def carryNs (t : Tile) : Nat := (t.carried.map (·.2)).sum - 1600

/-- Whether a stage fits every tile it uses: up to the fill target of what carried work leaves of the window. A stage that needs more than
that by itself has a tile without other work (R18, R20, R23). -/
def Dev.arrayFits (s : Dev) (ctx : Nat) (st : Stage) : Bool :=
  (s.stageWork ctx st).all fun e =>
    let t := s.tile e.1
    t.planned + e.2 ≤ (s.workWindow - carryNs t) * s.fillPct / 100 || (t.planned = 0 && t.carried.isEmpty)

/-- Longest single layer execution of the loaded patterns, PLK_MINWIN (R250). -/
def Dev.minWin (s : Dev) : Nat := (s.ctxs.map fun e => match e.2.pat with | some p => longestExec p | none => 0).foldl max 0

/-! ### The candidates (R225, R226) -/

/-- R226: PRIO, DEADLINE, the boundary of the last commit, entry index. -/
def Dev.planBefore (s : Dev) (a b : Nat) : Bool :=
  let dl (r : Nat) : Nat := if s.deadline r = 0 then 2 ^ 64 else s.deadline r
  if s.prio a ≠ s.prio b then s.prio a > s.prio b
  else if dl a ≠ dl b then dl a < dl b
  else if (s.seq a).last ≠ (s.seq b).last then (s.seq a).last < (s.seq b).last
  else entIx a ≤ entIx b

/-- The epoch of a context (R266). -/
def Dev.epoch (s : Dev) (ctx : Nat) : Nat := (s.rd .ldrCx 0 ctx Off.LDR_EPOCH).toNat

/-- Whether an entry may be given a step: PREFILL or DECODE with none in flight, or a replay still to run (R225, R388, R390). -/
def Dev.mayStep (s : Dev) (r : Nat) : Bool :=
  let q := s.seq r
  let st := s.st r
  let parking := match q.stopping with | .park .. => true | _ => false
  q.step.isNone && (st = St.PREFILL || st = St.DECODE || (st = St.STOPPING && parking && !q.replay.isEmpty))

/-- Whether the ring has room for a step (R225, R240). -/
def Dev.ringFits (s : Dev) (r : Nat) : Bool :=
  (s.seq r).pend.isEmpty && 1 + Blk.draftMax (s.seq r).samp ≤ s.ringFree r

/-- Steps in flight in a channel of a sort. -/
def Dev.inFlight (s : Dev) (ch : Nat) (p : StepKind → Bool) : Nat :=
  ((s.seqsOf ch).filter fun r => match (s.seq r).step with | some st => p st.kind | none => false).length
def isDecode (k : StepKind) : Bool := match k with | .decode => true | _ => false
def isPrefill (k : StepKind) : Bool := match k with | .prefill | .recompute _ | .replay => true | _ => false

/-- Steps of a context in flight in a channel. -/
def Dev.ctxSteps (s : Dev) (ch ctx : Nat) : Nat := ((s.seqsOf ch).filter fun r => (s.seq r).ctx = ctx && (s.seq r).step.isSome).length

/-- What the plan has given out at this boundary: entries that took a step, and how many per home cluster. -/
structure PlanAcc where
  took : List Nat
  perCl : List Nat

/-- Whether the limits allow one more new step: 256 decode and 32 prefill steps, STEP_MAX, the thermal cut of the home cluster and the
power cap's cut (R24, R27, R227, R412). -/
def Dev.limitsFit (s : Dev) (r : Nat) (decode : Bool) (a : PlanAcc) : Bool :=
  let ch := entCh r
  let q := s.seq r
  (if decode then s.inFlight ch isDecode < 256 else s.inFlight ch isPrefill < 32)
    && s.ctxSteps ch q.ctx < min 256 (s.part ch q.ctx).2.2.2
    && (match (s.chan ch).cap.cut with | some c => a.took.length < c.l | none => true)
    && (match (s.therm (ch * 8 + q.home)).cut with | some c => nth 0 a.perCl q.home < c.l | none => true)

/-- Puts a step in flight (R23, R227, R267, R274). -/
def Dev.startStep (s : Dev) (r : Nat) (kind : StepKind) (start stop drafts : Nat) (sample : Bool) : Dev :=
  let ch := entCh r
  let q := s.seq r
  let a := s.ent r Ent.ADAPTER 2
  let gen := if a < 64 then nth 0 ((s.ctx q.ctx).adps.get Adp.fresh a).genOn ch else 0
  let stages := match s.seqPat r, kind with
    | _, .backward => []
    | some p, .decode => stagesOf p s.wide s.shareNs 0
    | some p, _ => stagesOf p s.wide s.shareNs (stop - start)
    | none, _ => []
  let epoch := s.epoch q.ctx
  let s := s.modSeq r fun q => { q with step := some ⟨kind, start, stop, drafts, sample, epoch, gen, stages, 0, false⟩, held := none }
  let s := s.planWork q.ctx (stages.headD [])
  match kind with
  | .decode | .prefill => s.setEnt r Ent.LEN 4 (stop + drafts)
  | _ => s

/-- Whether the wave lets a new step start: every layer of its first stage has switched (R269). -/
def Dev.waveLets (s : Dev) (r : Nat) (st : Stage) : Bool :=
  let c := s.ctx (s.seq r).ctx
  !c.load.waveOn || st.all fun w => w.1 < c.load.wavePos

/-- First position and end of the next step of a sequence that does not decode: a replay, the recompute of a page, or a prefill chunk (R201,
R224, R390). -/
def Dev.chunkOf (s : Dev) (r : Nat) (p : Pattern) (absent : List Nat) : Nat × Nat :=
  let q := s.seq r
  match q.replay, absent with
  | (a, b, _) :: _, _ => (a, min (a + p.chunk) b)
  | [], page :: _ =>
    let first := if (pageLayers p).any fun e => isSsm e.2 then 0 else page * spanP p
    let start := max first q.recomp
    (start, min (start + p.chunk) (min ((page + 1) * spanP p) (s.clen r)))
  | [], [] =>
    let l := s.clen r
    (l, min (l + p.chunk) (q.logW.length + (s.ent r Ent.PROMPT_LEN 4 - s.ent r Ent.PROMPT_POS 4)))

/-! ### The step a candidate gets -/

/-- A growth that fails ends the sequence with NOSTATE (R199 step 5); a replay's also fails the restart (R391). -/
def Dev.growFail (s : Dev) (r : Nat) : Dev :=
  if (s.seq r).replay.isEmpty then (s.failSeq r Code.NOSTATE).closeRing r
  else ((s.failSeq r Code.NOSTATE).closeRing r).raise (entCh r) 7 |>.bump .fltCh (entCh r) 0 Off.FLT_RFAIL 1

/-- A decode step at the committed length, its drafts cut to the frames at hand (R201, R202). -/
def Dev.planDecode (s : Dev) (r : Nat) (p : Pattern) (took : List Nat) : Dev × Bool :=
  let ch := entCh r
  let l := s.clen r
  let q := s.seq r
  let n := min (Blk.draftMax q.samp) (p.maxLen - 1 - l)
  let span := spanP p
  let need := s.missNeed r p (s.missingPages r l (l + 1 + n))
  let n := if need ≤ s.t1Free ch + q.rsv + s.cxRsv r then n else min n ((l / span + 1) * span - 1 - l)
  match s.grow r l (l + 1 + n) (l + 1 + n) 0 true true took with
  | (s, .ok) => (s.startStep r .decode l (l + 1) n true, true)
  | (s, .held) => (s, false)
  | (s, .nostate) => (s.growFail r, false)

/-- The prompt words of the next chunk that are not logged yet: the good ones, and whether a bad one follows (R207, R224). -/
def Dev.promptWords (s : Dev) (r vocab n : Nat) : List Nat × Bool :=
  let a := s.ent r Ent.PROMPT_ADDR 8 + 4 * s.ent r Ent.PROMPT_POS 4
  let ws := (List.range n).map fun i => s.peek (a + 4 * i) 4 % 2 ^ 24
  let good := ws.takeWhile fun w => w < vocab
  (good, good.length < n)

/-- Logs prompt words (R206, R207). -/
def Dev.logPrompt (s : Dev) (r : Nat) (ws : List Nat) : Dev :=
  let e := s.epoch (s.seq r).ctx % 2
  let s := s.modSeq r fun q => { q with logW := q.logW ++ ws.map fun w => w + e * 2 ^ 24 + 2 ^ 25 }
  s.setEnt r Ent.PROMPT_POS 4 (s.ent r Ent.PROMPT_POS 4 + ws.length)

/-- A prefill chunk from the committed length on: words already logged, then words of the prompt; the last chunk samples a token, or for
a tuning entry the backward pass follows (R207, R224, R276). -/
def Dev.planPrefill (s : Dev) (r : Nat) (p : Pattern) (took : List Nat) : Dev × Bool :=
  let l := s.clen r
  let logged := (s.seq r).logW.length
  let rest := s.ent r Ent.PROMPT_LEN 4 - s.ent r Ent.PROMPT_POS 4
  let tune := (s.seq r).tune.isSome
  let stop := (s.chunkOf r p []).2
  if stop ≤ l then
    if tune then (s.startStep r .backward l l 0 false, true) else (s, false)
  else
    let ws := s.promptWords r p.vocab (stop - logged)
    match s.grow r l (if ws.2 then l else stop) (logged + ws.1.length) 0 true true took with
    | (s, .ok) =>
      let s := s.logPrompt r ws.1
      if ws.2 then
        (((s.setStateW r St.PAUSED Code.RANGE 0x0D (s.stopWhy r)).note r true).closeRing r, false)
      else (s.startStep r .prefill l stop 0 (stop = logged + rest && !tune), true)
    | (s, .held) => (s, false)
    | (s, .nostate) => (s.growFail r, false)

/-- A recompute step of the lowest page index with ABSENT entries (R201). -/
def Dev.planRecompute (s : Dev) (r page : Nat) (p : Pattern) (took : List Nat) : Dev × Bool :=
  let q := s.seq r
  let ssm := (pageLayers p).any fun e => isSsm e.2
  let (start, stop) := s.chunkOf r p [page]
  let extra := if ssm && q.work.isEmpty then 2 else 0
  match s.grow r (page * spanP p) ((page + 1) * spanP p) 0 extra false false took with
  | (s, .ok) => (s.startStep r (.recompute page) start stop 0 false, true)
  | (s, .held) => (s, false)
  | (s, .nostate) => (s.growFail r, false)

/-- A replay step of the next range of a restarted sequence (R390). -/
def Dev.planReplay (s : Dev) (r : Nat) (p : Pattern) (took : List Nat) : Dev × Bool :=
  match (s.seq r).replay with
  | [] => (s, false)
  | (a, b, tok) :: _ =>
    let stop := (s.chunkOf r p []).2
    match s.grow r a stop 0 0 true false took with
    | (s, .ok) => (s.startStep r .replay a stop 0 (tok && stop = b), true)
    | (s, .held) => (s, false)
    | (s, .nostate) => (s.growFail r, false)

/-- Pages of the next key set that lie in T3 are brought to T1, or to T2 where T1 has too few frames (R174, R293). -/
def Dev.recall (s : Dev) (r : Nat) (keys : List Nat) : Dev :=
  keys.foldl (fun s k =>
    match (s.seq r).pages.find? fun e => e.1 = k with
    | some (_, pg) =>
      let n := pg.frames.length
      if pg.move.isSome then s
      else if n ≤ s.t1Free (entCh r) && tierFits (s.seq r) 1 then s.startMove r k 1 false
      else if n ≤ s.t2Free (entCh r) && tierFits (s.seq r) 2 then s.startMove r k 2 false
      else s
    | none => s) s

/-- The plan's decision on one candidate (R200, R225 to R227). `full` holds where the shares of the other engines have no room for its step. -/
def Dev.planOne (s : Dev) (r : Nat) (full : Bool) (a : PlanAcc) : Dev × PlanAcc :=
  let ch := entCh r
  match s.seqPat r with
  | none => (s, a)
  | some p =>
    if !s.mayStep r || !s.serves ch then (s, a)
    else if !s.ringFits r then (s.bump .rqtCh ch 0 Off.RQT_RINGHOLD 1, a)
    else
      let q := s.seq r
      let pos := if q.replay.isEmpty then s.clen r else (q.replay.headD (0, 0, false)).1
      let absent := if q.replay.isEmpty then s.absentPages r pos else []
      let t3 := s.pagesInT3 r pos
      let decode := q.replay.isEmpty && absent.isEmpty && s.st r = St.DECODE
      let c := s.chunkOf r p absent
      let st := if !decode && c.2 ≤ c.1 then [] else (stagesOf p s.wide s.shareNs (if decode then 0 else c.2 - c.1)).headD []
      if !t3.isEmpty then (s.recall r t3, a)
      else if s.keyDropping r pos || full || !s.limitsFit r decode a || !s.waveLets r st || !s.arrayFits q.ctx st then (s, a)
      else
        let x :=
          if !q.replay.isEmpty then s.planReplay r p a.took
          else match absent with
            | page :: _ => s.planRecompute r page p a.took
            | [] => if decode then s.planDecode r p a.took else s.planPrefill r p a.took
        (x.1, if x.2 then ⟨r :: a.took, modifyAt (· + 1) q.home a.perCl⟩ else a)

/-- A home cluster change takes effect while no step is in flight (R291). -/
def Dev.settleHome (s : Dev) (r : Nat) : Dev :=
  match (s.seq r).newHome with
  | some h =>
    if (s.seq r).step.isSome then s
    else (s.modSeq r fun q => { q with home := h, newHome := none }).bump .plcCh (entCh r) 0 Off.PLC_HOME 1
  | none => s

/-- KVP_HOLD_EXPIRE: a hold under R199 or R529 has reached the deadline or HOLD_MAX: the sequence stops with NOSTATE. -/
def Dev.holdExpired (s : Dev) (r : Nat) : Dev :=
  match (s.seq r).held with
  | some (p0, n) =>
    let d := s.deadline r
    if (if d ≠ 0 then s.timeOf r ≥ d else s.planksOf r ≥ p0 + n) then s.growFail r else s
  | none => s

/-- Before the plan gives steps out, it counts the stages that steps in flight run in this plank, and one probe for each tile short of probes
(R18, R76). A step held up by carried work runs no stage (R20). -/
def Dev.countWork (s : Dev) : Dev :=
  let s := { s with tiles := s.tiles.mapV' Tile.reset fun _ t => { t with planned := if t.probePlan then 96 else 0 } }
  s.seqs.foldl (fun s e => match e.2.step with
    | some st => if st.slip = 0 && !s.stageBlocked e.1 st then s.planWork e.2.ctx (st.stages.headD []) else s
    | none => s) s

/-- A channel that plans no step at a boundary counts none in the means of the power and thermal cuts (R27, R412). -/
def Dev.noPlan (s : Dev) (ch : Nat) : Dev :=
  let s := s.modChan ch fun c => { c with cap := { c.cap with steps := (0 :: c.cap.steps).take 64 } }
  (List.range 8).foldl (fun s cl => s.modTherm (ch * 8 + cl) fun th => { th with steps := (0 :: th.steps).take 64 }) s

/-- Boundary step 7 of a channel (R16). No step is planned during an orderly thermal stop (R415). -/
def Dev.plan (s : Dev) (ch : Nat) (full : List SeqRef) : Dev :=
  let s := (s.seqsOf ch).foldl (fun s r => s.settleHome r) s
  let cands := if (s.chan ch).orderly then [] else sortBy s.planBefore ((s.seqsOf ch).filter fun r => s.mayStep r)
  let r := cands.foldl (fun (acc : Dev × PlanAcc) r => acc.1.planOne r (full.any fun x => x.ix = r) acc.2) (s, ⟨[], List.replicate 8 0⟩)
  let s := r.1.modChan ch fun c => { c with cap := { c.cap with steps := (r.2.took.length :: c.cap.steps).take 64 } }
  (List.range 8).foldl (fun s cl => s.modTherm (ch * 8 + cl) fun th => { th with steps := (nth 0 r.2.perCl cl :: th.steps).take 64 }) s

/-! ### Background moves (R293) and reservations (R294) -/

/-- Demotes pages of PAUSED sequences to T2 within a budget of frames; answers what is left of the shortfall and of the budget. -/
def Dev.bgDemote (s : Dev) (ch short budget : Nat) : Dev × Nat × Nat :=
  let vs := sortBy s.victimBefore ((s.seqsOf ch).filter fun r =>
    s.st r = St.PAUSED && s.inForce .plcCx 0 (s.seq r).ctx Off.PLC_CX_CFG 9 9 = 0)
  vs.foldl (fun acc r =>
    (stayPages (acc.1.seq r) 1).foldl (fun acc e =>
      let n := e.2.frames.length
      if acc.2.1 = 0 ∨ n > acc.2.2 then acc
      else if n ≤ acc.1.t2Free ch && tierFits (acc.1.seq r) 2 then (acc.1.startMove r e.1 2 true, acc.2.1 - n, acc.2.2 - n)
      else acc) acc) (s, short, budget)

/-- Promotes T2 pages of sequences in PREFILL or DECODE to T1 within the frames above HIGH and a budget. -/
def Dev.bgPromote (s : Dev) (ch room budget : Nat) : Dev × Nat :=
  let vs := sortBy s.planBefore ((s.seqsOf ch).filter fun r => s.st r = St.PREFILL || s.st r = St.DECODE)
  let x := vs.foldl (fun (acc : Dev × Nat × Nat) r =>
    (stayPages (acc.1.seq r) 2).foldl (fun acc e =>
      let n := e.2.frames.length
      if n > acc.2.1 ∨ n > acc.2.2 then acc
      else if tierFits (acc.1.seq r) 1 then (acc.1.startMove r e.1 1 true, acc.2.1 - n, acc.2.2 - n)
      else acc) acc) (s, room, budget)
  (x.1, x.2.2)

/-- Background migration of a channel at a boundary (R293, R298). -/
def Dev.migrate (s : Dev) (ch : Nat) : Dev :=
  let f (hi lo : Nat) : Nat := s.inForce .plcCh ch 0 Off.PLC_CH_CTL hi lo
  let tot := s.t1Tot ch
  let low := f 17 8 * tot / 1000
  let high := f 27 18 * tot / 1000
  let free := s.t1Free ch
  let was := bit (s.rd .plcCh ch 0 Off.PLC_CH_STA) 0
  let demoting := f 28 28 = 1 && (free < low || (was && free < high))
  let d := if demoting then s.bgDemote ch (high - free - s.leavingT1 ch) (f 7 0) else (s, 0, f 7 0)
  let p := if f 28 28 = 1 && !demoting && high < free then d.1.bgPromote ch (free - high) d.2.2 else (d.1, d.2.2)
  let s := p.1.bump .plcCh ch 0 Off.PLC_BGMOVE (f 7 0 - p.2)
  s.wr .plcCh ch 0 Off.PLC_CH_STA (BitVec.ofNat 32 (demoting.toNat + (p.2 < d.2.2 : Bool).toNat * 2 + (free < low : Bool).toNat * 4))

/-- T1 frames a context's sequences hold on a channel, reservations of sequences included; directories and leaves, which share frames
with those of other contexts, count by the frames that they would fill on their own (R191, R215, R294). -/
def Dev.ctxT1 (s : Dev) (ch ctx : Nat) : Nat :=
  let m := s.memOf ch
  let rs := (s.seqsOf ch).filter fun r => (s.seq r).ctx = ctx
  (m.t1.filter fun e => e.2.used && e.2.owner = ctx + 1 && !(m.dirs.any fun d => d.1 = e.1) && !m.leaves.any fun l => l.frame = e.1).length
    + ceilDiv (m.dirs.filter fun d => rs.contains d.2.2).length 4
    + ceilDiv ((rs.map fun r => (s.leavesOf r).length).sum) 16 + (rs.map fun r => (s.seq r).rsv).sum

/-- The reservation of a context on a channel is brought toward PLC_CX_RES (R294). -/
def Dev.topUp (s : Dev) (ch ctx : Nat) : Dev :=
  let have_ := nth 0 (s.ctx ctx).t1Short ch
  let want := s.inForce .plcCx 0 ctx Off.PLC_CX_RES 23 0 - s.ctxT1 ch ctx
  s.modCtx ctx fun c => { c with t1Short := modifyAt (fun _ => min want (have_ + s.t1Free ch)) ch c.t1Short }

/-- Whether a context's reservation is short on some channel (PLC_CX_STA.RES_SHORT). -/
def Dev.resShort (s : Dev) (ctx : Nat) : Bool :=
  allCh.any fun ch => nth 0 (s.ctx ctx).t1Short ch.val + s.ctxT1 ch.val ctx < s.inForce .plcCx 0 ctx Off.PLC_CX_RES 23 0

/-! ### The preferred channel (R292) -/

/-- Channels a context may use (PLC_CX_CFG.CH_MASK). -/
def Dev.mask (s : Dev) (ctx : Nat) : List Nat :=
  (allCh.map (·.val)).filter fun ch => bit (BitVec.ofNat 32 (s.inForce .plcCx 0 ctx Off.PLC_CX_CFG 7 0)) ch

/-- Live entries of a context on a channel, and free entries of its partition. -/
def Dev.partLoad (s : Dev) (ch ctx : Nat) : Nat × Nat :=
  let p := s.part ch ctx
  let rs := (List.range p.2.1).map fun i => ch * 512 + p.1 + i
  ((rs.filter fun r => s.live r).length, (rs.filter fun r => s.st r = St.FREE).length)

/-- Whether a channel holds the digital parts of a context's pattern (R530). -/
def Dev.holdsParts (s : Dev) (ch ctx : Nat) : Bool := (s.memOf ch).ranges.any fun g => g.ctx = ctx && !g.staging

/-- RQT_CX_PREF of a context: channel, and whether it is valid; a channel that has not received the parts of the pattern is not named (R292,
R530). -/
def Dev.prefOf (s : Dev) (ctx : Nat) : Nat × Bool :=
  let cands := (s.mask ctx).filter fun ch => (s.partLoad ch ctx).2 > 0 && ((s.patOf ctx).isNone || s.holdsParts ch ctx)
  let better (a b : Nat) : Bool :=
    let x := (s.partLoad a ctx).1 * (s.part b ctx).2.1
    let y := (s.partLoad b ctx).1 * (s.part a ctx).2.1
    if x ≠ y then x < y else s.t1Free a > s.t1Free b
  match cands with
  | [] => (0, false)
  | c :: cs => (cs.foldl (fun b ch => if better ch b then ch else b) c, true)

/-- Writes RQT_CX_PREF of every context in use (R283, R292). -/
def Dev.writePrefs (s : Dev) : Dev :=
  (s.ctxs.map (·.1)).foldl (fun s n =>
    let p := s.prefOf n
    allCh.foldl (fun s ch => s.wr .rqtCx ch.val n Off.RQT_CX_PREF (BitVec.ofNat 32 (p.1 + p.2.toNat * 8))) s) s

end Sys2Proof.Machine
end

