-- ==== Sys2Proof/Machine/Place.lean ====
section
/-! DEFINITION. Placement by Scaes (R283 to R296, R530): slice blocks onto tiles, spares for adoption, stand-in and shadow, spill
layers, what follows when a channel leaves service, and placement snapshots. -/

namespace Sys2Proof.Machine
open Sys2Proof

/-! ### Eligible tiles (R285) -/

/-- Whether a channel takes placements: in service, or CONTAINED for a time (R257, R295). -/
def Dev.placeable (s : Dev) (ch : Nat) : Bool := s.vin && s.fltState ch ≠ 2 && s.cstate ch ≠ 2 && s.chReady ch

/-- Whether a tile may take a slice: IDLE, held by no context, not OFFLINE, with no spare under its index, and below its last pass. -/
def Dev.eligible (s : Dev) (k : Nat) : Bool :=
  let t := s.tile k
  t.state = .idle && t.ctx.isNone && t.next.isNone && !t.offline && t.wear < 10000000 && (s.sparesOf k).isEmpty

/-- Eligible tiles of a core, lowest WEAR first, ties to the lower index. -/
def Dev.coreFree (s : Dev) (core : Nat) : List Nat :=
  let ks := ((List.range 16).map fun t => core / 8 * 132 + core % 8 * 16 + t).filter fun k => s.eligible k
  sortBy (fun a b => decide ((s.tile a).wear ≤ (s.tile b).wear)) ks

def chanCores (ch : Nat) : List Nat := (List.range 64).map (ch * 64 + ·)
def Dev.chanFree (s : Dev) (ch : Nat) : Nat := ((chanCores ch).map fun c => (s.coreFree c).length).sum

/-- Channels of a context's CH_MASK that take placements, in the order PACK gives (R286). -/
def Dev.placeOrder (s : Dev) (ctx : Nat) : List Nat :=
  let chs := (s.mask ctx).filter fun ch => s.placeable ch
  if s.inForce .plcCx 0 ctx Off.PLC_CX_CFG 8 8 = 1 then chs
  else sortBy (fun a b => decide (s.chanFree a ≥ s.chanFree b)) chs

/-! ### Placing a layer (R284, R285) -/

/-- Takes blocks core by core, as many as each core has tiles for; `per` tiles to a block. What is left over comes back too. -/
def Dev.spread (s : Dev) (per : Nat) : List Nat → List Nat → List (Nat × List Nat) × List Nat
  | [], bs => ([], bs)
  | c :: cs, bs =>
    let free := s.coreFree c
    let n := free.length / per
    let here := (bs.take n).zipIdx.map fun e => (e.1, (free.drop (e.2 * per)).take per)
    let r := s.spread per cs (bs.drop n)
    (here ++ r.1, r.2)

/-- A placement of blocks over some cores, if they all fit. -/
def Dev.fitOver (s : Dev) (per : Nat) (cores bs : List Nat) : Option (List (Nat × List Nat)) :=
  let r := s.spread per cores bs
  if r.2.isEmpty then some r.1 else none

/-- Where the blocks of one tree record go on a channel: the lowest core with enough tiles; else over a cluster, or over the channel,
where LEVELS allows it (R252, R284, R285). -/
def Dev.fitRecord (s : Dev) (ch per levels : Nat) (bs : List Nat) : Option (List (Nat × List Nat)) :=
  let cores := chanCores ch
  (cores.findSome? fun c => s.fitOver per [c] bs)
    <|> (if levels.testBit 0 then (List.range 8).findSome? fun cl => s.fitOver per ((List.range 8).map fun co => ch * 64 + cl * 8 + co) bs else none)
    <|> (if levels.testBit 1 then s.fitOver per cores bs else none)

/-- Holds tiles for blocks of a layer: the tiles are the context's, and the blocks name them. -/
def Dev.holdBlocks (s : Dev) (ctx li : Nat) (newPat : Bool) (l : Layer) (why : ProgWhy) (ps : List (Nat × List Nat)) : Dev :=
  let s := ps.foldl (fun s p =>
    match l.blocks[p.1]? with
    | some b => p.2.foldl (fun s k =>
        let other := (p.2.filter fun x => x ≠ k).head?
        s.modTile k fun t => { t with ctx := some ctx, slices := [sliceOf li p.1 newPat b other], prog := some why }) s
    | none => s) s
  let setB (b : Block) (i : Nat) : Block := match ps.find? (·.1 = i) with | some x => { b with tiles := x.2 } | none => b
  let setL (l : Layer) : Layer := { l with spill := false, blocks := l.blocks.zipIdx.map fun e => setB e.1 e.2 }
  let setP (p : Pattern) : Pattern := { p with layers := modifyAt setL li p.layers }
  s.modCtx ctx fun c => if newPat then { c with newPat := c.newPat.map setP } else { c with pat := c.pat.map setP }

/-- Reduction records of a layer: its TREES record, and every block it does not name on its own (R252). -/
def layerRecords (p : Pattern) (l : Layer) : List (Nat × List Nat) :=
  let r := nth ⟨0, []⟩ p.trees l.tree
  let named := r.leaves.filter fun b => b < l.blocks.length
  (if named.isEmpty then [] else [(r.levels, named)])
    ++ ((List.range l.blocks.length).filter fun b => !named.contains b).map fun b => (0, [b])

/-- Places the records of a layer on one channel, one after the other. -/
def Dev.placeRecords (s : Dev) (ctx li : Nat) (newPat : Bool) (l : Layer) (why : ProgWhy) (ch : Nat) :
    List (Nat × List Nat) → Option Dev
  | [] => some s
  | (levels, bs) :: rs =>
    match s.fitRecord ch (if l.dup then 2 else 1) levels bs with
    | some ps => (s.holdBlocks ctx li newPat l why ps).placeRecords ctx li newPat l why ch rs
    | none => none

/-- Places a layer wholly: on one channel, or over channels where SPLIT_CH and LEVELS allow it (R284 to R286). -/
def Dev.placeLayer (s : Dev) (ctx li : Nat) (newPat : Bool) (why : ProgWhy) : Option Dev :=
  match s.slicePat ctx newPat with
  | none => none
  | some p =>
    match p.layers[li]? with
    | none => none
    | some l =>
      if l.blocks.isEmpty then some s
      else
        let recs := layerRecords p l
        let chs := s.placeOrder ctx
        (chs.findSome? fun ch => s.placeRecords ctx li newPat l why ch recs)
          <|> (if l.splitCh && recs.all fun r => r.2.length ≤ 1 || r.1.testBit 2 then
              (s.fitOver (if l.dup then 2 else 1) ((chs.map chanCores).flatten) (List.range l.blocks.length)).map
                fun ps => s.holdBlocks ctx li newPat l why ps
            else none)

/-- The order in which layers are placed: SPILL_OK = 0 first, then by size, largest first (R285). -/
def placeSeq (p : Pattern) : List Nat :=
  let ls := p.layers.zipIdx.filter fun e => !e.1.blocks.isEmpty
  ((ls.filter fun e => !e.1.spillOk) ++
    sortBy (fun a b => decide (a.1.rows * a.1.cols ≥ b.1.rows * b.1.cols)) (ls.filter fun e => e.1.spillOk)).map (·.2)

/-- Makes a layer a spill layer. -/
def Dev.spillLayer (s : Dev) (ctx li : Nat) (newPat : Bool) : Dev :=
  let setP (p : Pattern) : Pattern := { p with layers := modifyAt (fun l => { l with spill := true, programming := false, blocks := l.blocks.map fun b => { b with tiles := [] } }) li p.layers }
  s.modCtx ctx fun c => if newPat then { c with newPat := c.newPat.map setP } else { c with pat := c.pat.map setP }

/-- Rewrites a layer of a context's pattern. -/
def Dev.modLayer (s : Dev) (ctx li : Nat) (newPat : Bool) (f : Layer → Layer) : Dev :=
  let setP (p : Pattern) : Pattern := { p with layers := modifyAt f li p.layers }
  s.modCtx ctx fun c => if newPat then { c with newPat := c.newPat.map setP } else { c with pat := c.pat.map setP }

/-- Tiles that hold blocks of a layer. -/
def layerTiles (l : Layer) : List Nat := (l.blocks.map (·.tiles)).flatten

/-- Whether every block of a layer is served by a verified tile, or the layer has none, or it spills. -/
def Dev.layerReady (s : Dev) (l : Layer) : Bool :=
  l.blocks.isEmpty || l.spill ||
    (l.blocks.all fun b => !b.tiles.isEmpty) && (layerTiles l).all fun k => let t := s.tile (s.serving k); t.state = .ready || t.state = .blocking

/-- Starts the programming of tiles that a placement holds. -/
def Dev.startTiles (s : Dev) (ks : List Nat) : Dev :=
  ks.foldl (fun s k => s.modTile k fun t => if t.state = .idle then { t with next := some .programming } else t) s

/-- Notes the boundary of a context's last placement change (R299). -/
def Dev.placed (s : Dev) (ctx : Nat) : Dev := s.wr64 .plcCx 0 ctx Off.PLC_CX_GEN s.plank

/-! ### Digital parts in T1 (R530) -/

/-- Where a range of `n` frames goes: the highest hole. -/
def pickRange (m : Mem) (n : Nat) : Nat :=
  let used := m.t1.filter fun e => e.2.used
  let tops := t1Frames :: (m.ranges.map (·.first) ++ used.map (·.1))
  let ok (a : Nat) : Bool := Config.workFrames ≤ a && (m.ranges.all fun g => a + n ≤ g.first || g.first + g.n ≤ a)
    && used.all fun e => e.1 < a || a + n ≤ e.1
  ((tops.map (· - n)).filter ok).foldl max 0

/-- Whether a channel has room for a range of `n` frames. -/
def Dev.rangeFits (s : Dev) (ch n : Nat) : Bool := n = 0 || n ≤ s.t1Free ch && Config.workFrames ≤ pickRange (s.memOf ch) n

/-- Channels on whose PAEs a spill layer of a context runs: every channel of CH_MASK that takes placements if SPLIT_CH is 1, else one of them, the
lowest (R530; which one is a DESIGN CHOICE). -/
def Dev.spillOn (s : Dev) (ctx : Nat) (l : Layer) : List Nat :=
  let chs := (s.mask ctx).filter s.placeable
  if l.splitCh then chs else chs.take 1

/-- Bytes of a pattern's parts on a channel: W5 and residuals of the blocks there and of the spill layers that run there, VECTORS and EMBED whole. -/
def Dev.partBytes (s : Dev) (ctx : Nat) (p : Pattern) (ch : Nat) : Nat :=
  let blk (b : Block) : Nat := b.rspan * (b.cspan * 5 / 8) + 4 * b.resN
  let here (l : Layer) (b : Block) : Bool := (l.spill && (s.spillOn ctx l).contains ch) || b.tiles.any fun k => tileCh k = ch
  let w := (p.layers.map fun l => (l.blocks.map fun b => if here l b then blk b else 0).sum).sum
  w + p.vectorsSize + p.embedSize

/-- Bytes of the adapter buffers of a context on a channel: every image of a slot whose adapted layers the channel holds (R273). -/
def adapterBytes (adps : Store Adp) (p : Pattern) (ch : Nat) : Nat :=
  let here (a : AdpImg) : Bool := a.layers.any fun l => match p.layers[l.1]? with
    | some y => y.blocks.any fun b => b.tiles.any fun k => tileCh k = ch
    | none => false
  (adps.map fun e => (([e.2.active, e.2.standby, e.2.old].filterMap id).map fun a => if here a then a.size else 0).sum).sum

/-- Frames of the parts of a pattern that each channel of the mask receives. -/
def Dev.partFrames (s : Dev) (ctx : Nat) (p : Pattern) : List (Nat × Nat) :=
  (s.mask ctx).filterMap fun ch =>
    if s.placeable ch then some (ch, ceilDiv (s.partBytes ctx p ch + adapterBytes (s.ctx ctx).adps p ch) frameBytes) else none

/-- Sets a range of a channel's T1 aside for a context's parts. -/
def Dev.takeRange (s : Dev) (ch ctx n : Nat) : Dev :=
  if n = 0 then s else s.modMem ch fun m => { m with ranges := m.ranges ++ [⟨pickRange m n, n, ctx, false⟩] }

/-- Writes zeros over a context's digital parts on every channel and frees them (R261, R281). -/
def Dev.freeParts (s : Dev) (ctx : Nat) : Dev :=
  allCh.foldl (fun s ch =>
    let gs := (s.memOf ch.val).ranges.filter fun g => g.ctx = ctx && !g.staging
    let s := gs.foldl (fun s g => s.zero (tierBase ch.val 1 + g.first * frameBytes) (g.n * frameBytes)) s
    s.modMem ch.val fun m => { m with ranges := m.ranges.filter fun g => !(g.ctx = ctx && !g.staging) }) s

/-- Places a context's parts afresh after a placement change (R530). -/
def Dev.refitParts (s : Dev) (ctx : Nat) : Dev :=
  match s.patOf ctx with
  | none => s
  | some p => (s.partFrames ctx p).foldl (fun s e => s.takeRange e.1 ctx e.2) (s.freeParts ctx)

/-- A channel that CH_MASK has come to name receives the parts of a pattern from one that holds them, once it has room (R530). -/
def Dev.spreadParts (s : Dev) (ctx : Nat) : Dev :=
  match s.patOf ctx with
  | none => s
  | some p => (s.partFrames ctx p).foldl (fun s e =>
      if s.holdsParts e.1 ctx || !s.rangeFits e.1 e.2 then s else s.takeRange e.1 ctx e.2) s

/-! ### Spares (R77, R78, R90, R92, R100, R277, R288, R289) -/

/-- Whether the slices under a tile's index have no tile: it is RETIRED and no spare is adopted, or being adopted, for it. -/
def Dev.orphan (s : Dev) (k : Nat) : Bool :=
  let t := s.tile k
  t.state = .retired && !t.slices.isEmpty && !((s.sparesOf k).any fun sp => (s.tile sp).role = .adopted k && (s.tile sp).state ≠ .retired)

/-- Tile indexes of a cluster that have something listed. -/
def Dev.indexesOf (s : Dev) (cl : Nat) : List Nat := ((s.tiles.map (·.1)).filter fun k => tileCl k = cl && !isSpare k)

/-- The tile or adopted spare that holds an index for good. -/
def Dev.holder (s : Dev) (k : Nat) : Nat := ((s.sparesOf k).find? fun sp => (s.tile sp).role = .adopted k && (s.tile sp).state ≠ .retired).getD k

/-- Adoption in place of tiles that are RETIRED or are to be replaced (R288 step 1). -/
def Dev.adoptions (s : Dev) (cl : Nat) : Dev :=
  (s.indexesOf cl).foldl (fun s k =>
    let due := s.orphan k || ((s.tile (s.holder k)).replaceBy.isSome &&
      !((s.sparesOf k).any fun sp => sp ≠ s.holder k && (s.tile sp).role = .adopted k))
    if !due then s
    else match s.freeSpare cl true with
      | some sp =>
        let s := (s.sparesOf k).foldl (fun s x => if (s.tile x).state = .retired then s.releaseSpare x else s) s
        s.assignSpare sp k (.adopted k) .adopt
      | none => s) s

/-- Stand-ins for tiles due for refresh, earliest first, and for tiles told to go OFFLINE (R64, R77, R288 step 2). -/
def Dev.standins (s : Dev) (cl : Nat) : Dev :=
  let due (k : Nat) : Option Nat :=
    let h := s.tile (s.holder k)
    if h.state ≠ .ready || (s.sparesOf k).any fun sp => (s.tile sp).role = .standin k then none
    else if h.refreshDue.isSome && h.wear < 10000000 then h.refreshDue
    else if h.offline then some (s.chan (cl / 8)).plank
    else none
  let ks := (s.indexesOf cl).filterMap fun k => (due k).map fun d => (k, d)
  (sortBy (fun (a b : Nat × Nat) => decide (a.2 ≤ b.2)) ks).foldl (fun s e =>
    match s.freeSpare cl true with
    | some sp => s.assignSpare sp e.1 (.standin e.1) .standin
    | none =>
      let h := s.holder e.1
      -- refreshed in place once REFRESH_WAIT has passed (R78)
      if (s.tile h).refreshLate && (s.tile h).next.isNone then
        s.modTile h fun t => { t with next := some .programming, prog := some .refresh }
      else s) s

/-- The next shadow victim of a cluster: SUSPECT longest, else the next READY index in cyclic order (R289). -/
def Dev.nextVictim (s : Dev) (cl : Nat) : Option Nat :=
  let sh := (s.clus cl).shadow
  let ready (i : Nat) : Bool := (s.tile (s.serving (cl * 132 + i))).state = .ready
  let sus := (List.range 128).filter fun i => (s.tile (s.serving (cl * 132 + i))).suspect && ready i
  match sus with
  | a :: as => some (as.foldl (fun b i => if (s.tile (s.serving (cl * 132 + i))).suspectAt < (s.tile (s.serving (cl * 132 + b))).suspectAt then i else b) a)
  | [] => ((List.range 128).map fun i => (sh.victim + 1 + i) % 128).find? ready

/-- The shadow copy of a cluster: its dwell, its victim and its spare (R100, R103, R288 step 3, R289). -/
def Dev.shadowWork (s : Dev) (cl : Nat) : Dev :=
  let ch := cl / 8
  let on := s.inForce .corCh ch 0 Off.COR_SHD_CTL 0 0 = 1
  let sh := (s.clus cl).shadow
  let copies := ((List.range 4).map fun i => cl * 132 + 128 + i).filter fun sp =>
    match (s.tile sp).role with | .shadowing _ => true | _ => false
  let modSh (s : Dev) (f : Shadow → Shadow) : Dev := s.modClus cl fun c => { c with shadow := f c.shadow }
  if !on then
    if copies.isEmpty then s else modSh (copies.foldl (fun s sp => s.releaseSpare sp) s) fun x => { x with valid := false, dwellEnd := false }
  else if sh.dwellEnd && sh.keep then modSh s fun x => { x with dwellEnd := false, keep := false, since := (s.chan ch).plank }
  else if sh.dwellEnd then
    let s := copies.foldl (fun s sp => s.releaseSpare sp) s
    match s.nextVictim cl with
    | some v => modSh (s.bump .plcCh ch 0 Off.PLC_VICTIM 1) fun _ => { Shadow.fresh with victim := v, since := (s.chan ch).plank }
    | none => modSh s fun x => { x with dwellEnd := false, valid := false }
  else if !copies.isEmpty then s
  else
    let v := if (s.tile (s.serving (cl * 132 + sh.victim))).state = .ready then some sh.victim else s.nextVictim cl
    match v, s.freeSpare cl false with
    | some v, some sp =>
      let s := if v = sh.victim then s else modSh (s.bump .plcCh ch 0 Off.PLC_VICTIM 1) fun _ => { Shadow.fresh with victim := v, since := (s.chan ch).plank }
      s.assignSpare sp (cl * 132 + v) (.shadowing (cl * 132 + v)) .shadow
    | _, _ => s

/-- The spares of a channel's clusters, demand by demand (R288). -/
def Dev.spareWork (s : Dev) (ch : Nat) : Dev :=
  (List.range 8).foldl (fun s i => ((s.adoptions (ch * 8 + i)).standins (ch * 8 + i)).shadowWork (ch * 8 + i)) s

/-! ### Spill layers (R264, R287) -/

/-- Loaded contexts no load, swap or unload works on. -/
def Dev.settled (s : Dev) : List Nat :=
  (s.ctxs.filter fun e => e.2.pat.isSome && e.2.newPat.isNone && s.rdF .ldrCx 0 e.1 Off.LDR_CMD_STA 18 16 = 0).map (·.1)

/-- Counts the blocks of a layer that have come to channels, each on its own (R299). -/
def Dev.blocksMoved (s : Dev) (l : Layer) : Dev :=
  l.blocks.foldl (fun s b => match b.tiles with | k :: _ => s.bump .plcCh (tileCh k) 0 Off.PLC_SMOVE 1 | [] => s) s

/-- Moves spill layers of a context onto free tiles, and switches those whose tiles have all verified (R287). -/
def Dev.unspill (s : Dev) (ctx : Nat) : Dev :=
  match s.patOf ctx with
  | none => s
  | some p => (placeSeq p).foldl (fun s li =>
      match (s.patOf ctx).bind (·.layers[li]?) with
      | none => s
      | some l =>
        let ks := layerTiles l
        if l.programming then
          if !ks.all fun k => (s.tile (s.serving k)).state = .ready then s
          else match ks.find? fun k => s.carriedOn k with
            | some k => s.bump .plcCh (tileCh k) 0 Off.PLC_DEFER 1
            | none =>
              let s := (s.modLayer ctx li false fun l => { l with spill := false, programming := false }).placed ctx
              (s.refitParts ctx).blocksMoved l
        else if l.spill then
          match s.placeLayer ctx li false .spill with
          | some s' =>
            let s' := s'.modLayer ctx li false fun l => { l with spill := true, programming := true }
            match (s'.patOf ctx).bind (·.layers[li]?) with
            | some l => s'.startTiles (layerTiles l)
            | none => s
          | none => s
        else s) s

/-! ### A channel leaves service (R295) -/

/-- Ends every sequence of a context FAILED with HALTED on the channels that run boundaries (R295). -/
def Dev.failCtx (s : Dev) (ctx : Nat) (p : Nat → Bool) : Dev :=
  ((s.seqs.map (·.1)).filter fun r => (s.seq r).ctx = ctx && s.live r && s.fltState (entCh r) = 0 && p r).foldl
    (fun s r => (s.failSeq r Code.HALTED).closeRing r) s

/-- Sequences of a context that has lost a layer end at the first boundary that their channel runs (R295). -/
def Dev.failLost (s : Dev) (ctx : Nat) : Dev :=
  if s.rdF .plcCx 0 ctx Off.PLC_CX_STA 0 0 = 1 then s.failCtx ctx fun _ => true else s

/-- A layer gives up its tiles. -/
def Dev.unplace (s : Dev) (ctx li : Nat) (newPat : Bool) (l : Layer) : Dev :=
  ((layerTiles l).foldl (fun s k => s.freeIndex k) s).modLayer ctx li newPat fun l => { l with blocks := l.blocks.map fun b => { b with tiles := [] } }

/-- Tiles of a layer as a pattern now places it. -/
def Dev.tilesOf (s : Dev) (ctx li : Nat) (newPat : Bool) : List Nat :=
  match (s.slicePat ctx newPat).bind (·.layers[li]?) with | some l => layerTiles l | none => []

/-- Re-places one layer in force of a context away from a lost channel, from the kept image; that of a swap in progress is kept (R254, R295). -/
def Dev.rehome (s : Dev) (ctx ch li : Nat) (newPat : Bool) : Dev :=
  match (s.slicePat ctx newPat).bind (·.layers[li]?) with
  | none => s
  | some l =>
    let s := s.unplace ctx li newPat l
    let kept := newPat || s.inForce .plcCx 0 ctx Off.PLC_CX_CFG 10 10 = 1
    let r := if kept then
        match s.placeLayer ctx li newPat .spill with
        | some s' =>
          let s' := s'.startTiles (s'.tilesOf ctx li newPat)
          some (match (s'.slicePat ctx newPat).bind (·.layers[li]?) with | some l => s'.blocksMoved l | none => s')
        | none => if l.spillOk then some (s.spillLayer ctx li newPat) else none
      else none
    match r with
    | some s => s
    | none =>
      let s := s.wrF .plcCx 0 ctx Off.PLC_CX_STA 0 0 1
      (s.raise ch 52).failCtx ctx fun _ => true

/-- Adapter slots of a context whose only copies lay on a lost channel (R295). -/
def Dev.loseAdapters (s : Dev) (ctx ch : Nat) : Dev :=
  match s.patOf ctx with
  | none => s
  | some p =>
    (s.ctx ctx).adps.foldl (fun s e =>
      match e.2.active with
      | none => s
      | some img =>
        let chs := ((img.layers.map fun l => match p.layers[l.1]? with | some ly => (layerTiles ly).map tileCh | none => []).flatten).eraseDups
        if chs.contains ch && chs.all (fun c => c = ch) then
          let s := s.failCtx ctx fun r => s.ent r Ent.ADAPTER 2 = e.1
          s.modCtx ctx fun c => { c with adps := c.adps.set Adp.fresh e.1 { c.adps.get Adp.fresh e.1 with lost := true } }
        else s) s

/-- A lost adapter slot becomes EMPTY once no live or PARKED entry names it (R295). -/
def Dev.sweepAdapters (s : Dev) : Dev :=
  s.ctxs.foldl (fun s c => c.2.adps.foldl (fun s e =>
    if e.2.lost && !(s.seqs.any fun q => q.2.ctx = c.1 && s.live q.1 && s.ent q.1 Ent.ADAPTER 2 = e.1) then
      s.modCtx c.1 fun c => { c with adps := c.adps.erase e.1 }
    else s) s) s

/-- Layers of a pattern that have tiles on a channel, in the order of placement (R285). -/
def hitLayers (p : Pattern) (ch : Nat) : List Nat :=
  (placeSeq p).filter fun li => (p.layers[li]?).any fun l => (layerTiles l).any fun k => tileCh k = ch

/-- Whether the wave of a swap has switched a layer (R268). -/
def Dev.switchedAt (s : Dev) (ctx li : Nat) : Bool := ((s.ctx ctx).newPat.bind (·.layers[li]?)).any Layer.switched

/-- A channel has left service: every layer in force that had slices on it is placed elsewhere, spills, or is lost (R295). -/
def Dev.replaceChannel (s : Dev) (ch : Nat) : Dev :=
  (s.ctxs.filter fun e => e.2.pat.isSome).foldl (fun s e =>
    let hits (newPat : Bool) : List Nat := match s.slicePat e.1 newPat with
      | some p => (hitLayers p ch).filter fun li => s.switchedAt e.1 li = newPat
      | none => []
    let spills := match s.patOf e.1 with | some p => p.layers.any (·.spill) | none => false
    if (hits false).isEmpty && (hits true).isEmpty then (if spills then s.refitParts e.1 else s)
    else
      let s' := (hits false).foldl (fun s li => s.rehome e.1 ch li false) (s.loseAdapters e.1 ch)
      (((hits true).foldl (fun s li => s.rehome e.1 ch li true) s').refitParts e.1).placed e.1) s

/-! ### Snapshots (R296) -/

/-- An 8-byte slice block entry. While a swap's wave runs, a layer that it has not switched still has the epoch before (R266, R268). -/
def Dev.snapBlock (s : Dev) (ctx li bi : Nat) (l : Layer) (k : Nat) : Nat :=
  let v := s.serving k
  let old := (s.ctx ctx).load.waveOn && !l.switched
  li % 65536 + bi % 65536 * 2 ^ 16 + tileCh k * 2 ^ 32 + tileCl k % 8 * 2 ^ 35 + k % 132 / 16 % 8 * 2 ^ 38 + k % 132 % 16 * 2 ^ 41
    + (v ≠ k : Bool).toNat * 2 ^ 45 + (l.spill || s.sliceSpills k).toNat * 2 ^ 46
    + ((s.rd .ldrCx 0 ctx Off.LDR_EPOCH).toNat + old.toNat) % 2 * 2 ^ 47

/-- An 8-byte sequence entry. -/
def Dev.snapSeq (s : Dev) (r : Nat) : Nat :=
  let q := s.seq r
  let fr := (q.pages.map fun e => e.2.frames).flatten
  entIx r + entCh r * 2 ^ 9 + q.home % 8 * 2 ^ 12 + ((List.range 5).map fun t => if fr.any fun f => f.tier = t then 2 ^ t else 0).sum * 2 ^ 15
    + fr.length % 2 ^ 24 * 2 ^ 20

/-- The layers that a context's steps meet (R268). -/
def Dev.layersNow (s : Dev) (ctx : Nat) (p : Pattern) : List Layer :=
  p.layers.zipIdx.map fun e => (s.layerOf ctx e.2).getD e.1

/-- Boundary step 4: Scaes writes the leaf sets of the placement in force into a context's tree descriptors. A descriptor whose reduction has
carried work, on its old or its new leaf set, stays until a boundary without it (R22, R148, R150). -/
def Dev.treeStep (s : Dev) (ctx : Nat) : Dev :=
  let mine := s.trees.filter fun d => d.ctx = ctx
  let same (a b : TreeDesc) : Bool := a.layer = b.layer && a.transpose = b.transpose && a.first = b.first
  let want := match (s.ctx ctx).pat with
    | some p => (s.layersNow ctx p).zipIdx.flatMap fun (e : Layer × Nat) => layerTrees ctx e.2 e.1
    | none => []
  let busy (d : TreeDesc) : Bool := d.tiles.any fun k => s.carriedOn k
  let next (d : TreeDesc) : TreeDesc := match mine.find? (same d) with
    | some o => if o.tiles = d.tiles || busy o || busy d then o else d
    | none => d
  let left := mine.filter fun o => busy o && !want.any (same o)
  { s with trees := s.trees.filter (fun d => decide (d.ctx ≠ ctx)) ++ want.map next ++ left }

/-- Whether a layer spills, wholly or under some tile's index (R264). -/
def Dev.layerSpills (s : Dev) (l : Layer) : Bool := l.spill || (layerTiles l).any fun k => s.sliceSpills k

/-- Blocks of a layer with the tiles of their entries; a spill layer's name the PAE of its first core's cluster. -/
def Dev.snapBlocks (s : Dev) (ctx : Nat) (p : Pattern) : List Nat :=
  ((s.layersNow ctx p).zipIdx.map fun e => (e.1.blocks.zipIdx.map fun b =>
    (if b.1.tiles.isEmpty then [(s.spillOn ctx e.1).headD ((s.mask ctx).headD 0) * 1056] else b.1.tiles).map fun k => s.snapBlock ctx e.2 b.2 e.1 k).flatten).flatten

/-- Writes a placement snapshot that waits, after boundary step 4 (R296). -/
def Dev.snapshot (s : Dev) (ctx : Nat) : Dev :=
  if !(s.ctx ctx).snapGo then s
  else
    let s := s.modCtx ctx fun c => { c with snapGo := false }
    let blks := match s.patOf ctx with | some p => s.snapBlocks ctx p | none => []
    let seqs := ((s.seqs.map (·.1)).filter fun r => (s.seq r).ctx = ctx && s.live r && s.st r ≠ St.ADMITTED).map fun r => s.snapSeq r
    let spills := match s.patOf ctx with | some p => ((s.layersNow ctx p).filter fun l => s.layerSpills l).length | none => 0
    let n := 64 + 8 * blks.length + 8 * seqs.length
    if n > s.rdF .plcCx 0 ctx Off.PLC_CX_SNAP_SIZE 31 0 then s.wrF .plcCx 0 ctx Off.PLC_CX_SNAP_STA 7 0 Code.NOSPACE
    else
      let hdr := toBytes 8 s.plank ++ toBytes 4 blks.length ++ toBytes 4 seqs.length ++ toBytes 4 (s.rd .ldrCx 0 ctx Off.LDR_EPOCH).toNat
        ++ toBytes 4 spills ++ List.replicate 40 0
      let body := (blks.map (toBytes 8)).flatten ++ (seqs.map (toBytes 8)).flatten
      let s := s.emit (.hostWrite ctx (s.rd64 .plcCx 0 ctx Off.PLC_CX_SNAP_ADDR / 64 * 64) (hdr ++ body))
      s.wrF .plcCx 0 ctx Off.PLC_CX_SNAP_STA 7 0 Code.OK

/-! ### Writes (R298, R299) -/

/-- PLC_CX_SNAP_CMD: GO asks for a snapshot at the next boundary (R296). -/
def Dev.snapCmd (s : Dev) (ctx : Nat) (w : Word) : Dev :=
  if !bit w 0 then s
  else if (s.ctx ctx).snapGo then s.wrF .plcCx 0 ctx Off.PLC_CX_SNAP_STA 7 0 Code.BUSY
  else (s.modCtx ctx fun c => { c with snapGo := true }).wrF .plcCx 0 ctx Off.PLC_CX_SNAP_STA 7 0 Code.PENDING

/-- PLC_CH_CTL: a write with LOW at or above HIGH, or HIGH above 500, is not applied (R298). -/
def Dev.plcChCtl (s : Dev) (ch : Nat) (w : Word) : Dev :=
  if fld w 17 8 ≥ fld w 27 18 ∨ fld w 27 18 > 500 then s
  else s.wr .plcCh ch 0 Off.PLC_CH_CTL (w &&& 0x1FFFFFFF#32)

/-- Status words of a PLC_CX page (R299). -/
def Dev.plcCxView (s : Dev) (ctx o : Nat) : Option Word :=
  if o = Off.PLC_CX_STA then
    let chs := match s.patOf ctx with
      | some p => ((p.layers.map fun l => (layerTiles l).map tileCh).flatten).eraseDups
      | none => []
    let m := ((List.range 8).map fun ch => if chs.contains ch then 2 ^ ch else 0).sum
    some (BitVec.ofNat 32 (s.rdF .plcCx 0 ctx Off.PLC_CX_STA 0 0 + (s.resShort ctx).toNat * 2 + m * 4))
  else none

end Sys2Proof.Machine
end

