-- ==== Sys2Proof/Machine/Attn.lean ====
section
/-! DEFINITION. The attention engines (R163 to R182): items of a step and their key positions, conversion of operands, scores, online softmax over
blocks, merging of leaves and the root's output, the backward pass; leaves that arrive at groups and nodes (R143, R148, R156); and the other work of
a PAE: spill layers (R264) and transpose fallback (R56). -/

namespace Sys2Proof.Machine
open Sys2Proof

/-! ### Positions of an item (R163, R165) -/

/-- Whether a query at position p of a layer sees position j (R163). -/
def sees (l : Layer) (p j : Nat) : Bool := j ≤ p && (l.attKind = 0 || p < j + l.win || isGlobalPos l j)

/-- Cuts a list into runs of `n`. -/
def chunksOf (n : Nat) (xs : List Nat) : List (List Nat) := (List.range (ceilDiv xs.length n)).map fun i => (xs.drop (n * i)).take n
def chunks32 (xs : List F32) : List (List F32) := (List.range (ceilDiv xs.length 32)).map fun i => (xs.drop (32 * i)).take 32

/-- The global positions of a layer, in ascending order. -/
def globals (l : Layer) : List Nat :=
  if l.attKind = 1 then
    match l.glbMode with
    | 1 => List.range l.ng
    | 2 => (List.range l.ng).map (· * l.glbStride)
    | _ => []
  else []

/-- The blocks of a leaf of an item whose query positions run from a to b: leaf 0 the global one, then the window leaves (R165). -/
def leafBlocks (l : Layer) (a b leaf : Nat) : List (List Nat) :=
  if leaf = 0 then chunksOf 256 ((globals l).filter fun g => g + l.win ≤ a)
  else
    let w := if l.attKind = 0 then 0 else a + 1 - l.win
    let seg := w / l.segLen + (leaf - 1)
    let lo := max w (seg * l.segLen)
    let hi := min (b + 1) ((seg + 1) * l.segLen)
    if hi ≤ lo then []
    else (List.range ((hi - 1) / 256 + 1 - lo / 256)).map fun i =>
      let s := max lo ((lo / 256 + i) * 256)
      (List.range (min hi ((lo / 256 + i + 1) * 256) - s)).map (s + ·)

/-- The leaves of an item that are not empty, in order (R165). -/
def itemLeaves (l : Layer) (a b : Nat) : List Nat :=
  let w := if l.attKind = 0 then 0 else a + 1 - l.win
  (List.range (b / max 1 l.segLen - w / max 1 l.segLen + 2)).filter fun i => !(leafBlocks l a b i).isEmpty

/-- An item's place in its layer: the pattern and layer, its query rows as KV head, query head and position, the leaves of its rows, and its own
place among them (R165, R166, R177, R180). -/
structure ItemPlace where
  pat : Pattern
  l : Layer
  rows : List (Nat × Nat × Nat)
  a : Nat                       -- first and last query position
  b : Nat
  leaves : List Nat
deriving DecidableEq, Repr

/-- The rows of a head group at some query positions, in order of head, then position (R177). -/
def groupRows (l : Layer) (group a n : Nat) : List (Nat × Nat × Nat) :=
  ((List.range l.hpc).map (group * l.hpc + ·)).filter (· < l.hKv) |>.flatMap fun h =>
    (List.range l.g).flatMap fun g => (List.range n).map fun i => (h, g, a + i)

/-- The place of an item over some rows; none where it has no row, or its leaf is empty. -/
def placeOf (pat : Pattern) (l : Layer) (rows : List (Nat × Nat × Nat)) (leaf : Nat) : Option ItemPlace :=
  match rows.map (·.2.2) with
  | [] => none
  | p :: ps =>
    let a := ps.foldl min p
    let b := ps.foldl max p
    let ls := itemLeaves l a b
    if ls.contains leaf then some ⟨pat, l, rows, a, b, ls⟩ else none

/-! ### Conversion of operands (R120, R172, R178) -/

/-- x × 2^e, rounded once. -/
def mulPow (x : F32) (e : Int) : F32 :=
  if F32.isNan x || F32.isInf x then x
  else F32.ofRat (F32.neg? x) (F32.magFix x * 2 ^ e.toNat) (2 ^ (149 + (-e).toNat))

/-- Element format of a PAE operand format, and what R172 or the MX rule takes from ⌊log2 amax⌋ (R120, R172). -/
def opFmt (fmt : Nat) : MiniFmt × Int :=
  match fmt with
  | 0 => (e2m1, 2)
  | 1 => (e2m3, 2)
  | 2 => (e4m3, 8)
  | _ => (e4m3, 7)

/-- The power of two that scales a run: ⌊log2 amax⌋ − k; 0 for zeros; open where an element is infinite or a NaN (R172, R178). -/
def runExp (fmt : Nat) (xs : List F32) : Int :=
  if xs.any fun x => F32.isNan x || F32.isInf x then Config.openExp (xs.map (·.toNat))
  else
    let m := xs.foldl (fun a x => max a (F32.magFix x)) 0
    let e := if m = 0 then 0 else (Nat.log2 m : Int) - 149 - (opFmt fmt).2
    if fmt ≤ 2 then clampInt (-127) 127 e else e

/-- An element x / 2^e in a narrow format; a NaN stays one where the format has it. -/
def opElem (f : MiniFmt) (e : Int) (x : F32) : F32 :=
  if F32.isNan x then F32.nan
  else
    let c := if F32.isInf x then f.top else f.enc (F32.magFix x * 2 ^ (-e).toNat) (2 ^ (149 + e.toNat))
    F32.ofRat (F32.neg? x) (f.dec c) (2 ^ f.ulp)

/-- A run of up to 32 operands: elements and the exponent of their scale. In an MX block that holds a NaN every element is one. -/
def toRun (fmt : Nat) (xs : List F32) : List F32 × Int :=
  if fmt = 4 then (xs.map fun x => bf16Val (bf16Of x), 0)
  else
    let e := runExp fmt xs
    let bad := fmt ≤ 2 && xs.any F32.isNan
    (xs.map fun x => if bad then F32.nan else opElem (opFmt fmt).1 e x, e)

/-- A query row: its runs, and the exponent of its own scale, which only FP8 has (R172, R178). -/
def convRow (fmt : Nat) (q : List F32) : List (List F32 × Int) × Int :=
  if fmt = 3 then
    let e := runExp 3 q
    ((chunks32 q).map fun c => (c.map (opElem e4m3 e), 0), e)
  else ((chunks32 q).map (toRun fmt), 0)

/-- The factor of a row's scores: SM_SCALE, with the row's 2^e where it has one (R172). -/
def rowScale (fmt : Nat) (sm : F32) (e : Int) : F32 := if fmt = 3 then mulPow sm e else sm

/-- FP32 pairwise sum (R147). -/
def tsum (xs : List F32) : F32 := treeReduce F32.add 0#32 xs
def dot (a b : List F32) : F32 := tsum (List.zipWith F32.mul a b)

/-! ### Keys and values as the engines take them (R173, R174, R178) -/

/-- A key or value from `cs` and `sc`, which give code bytes and scale bytes from an offset on. In the PAE a KV4 element is an E2M3 element, whose
unused code −8 stays −8 (R114, R120, R178). -/
def decodeVec (rd : Nat → Nat → List Byte) (q dH codes scales : Nat) : KvVec :=
  (List.range (dH / 32)).map fun b =>
    let cs := rd (codes + b * kvCodeBytes q) (kvCodeBytes q)
    let sc := ofBytes (rd (scales + b) 1)
    if q = 8 then (cs.map e4m3Val, if sc = 0xFF then F32.nan else F32.ofRat false (2 ^ sc) (2 ^ 127))
    else
      let v := ofBytes cs
      ((List.range 32).map fun e => F32.ofInt (kvCodeVal q (v / 2 ^ (q * e) % 2 ^ q)), e4m3Val (BitVec.ofNat 8 sc))

/-- Whether a frame belongs to a context (R174). -/
def Dev.frameOwned (s : Dev) (ctx : Nat) (f : Frame) : Bool :=
  (if f.tier = 1 then ((s.memOf f.ch).t1.get FrameSt.fresh f.ix).owner else ((s.memOf f.ch).t2.get FrameSt.fresh f.ix).owner) = ctx + 1

/-- The entry that an engine follows to frame k of a page, and the frame and format that it reads: none where the walk fails, or the entry is empty
or absent, names a frame of another context or one outside T1 and T2 of the channel (R174, R183, R192). The page that a recompute step is writing is
read where it is being written (R201). -/
def Dev.engineWalk (s : Dev) (r key k : Nat) : Option PtEntry :=
  let q := s.seq r
  let re : Option PageSt := match q.step with
    | some st => (match st.kind with
      | .recompute page => ((q.pages.find? fun e => e.1 = key).map (·.2)).filter fun pg => keyPage key = page && pg.state = .absent
      | _ => none)
    | none => none
  match re with
  | some pg => (pg.frames[k]?).map fun f => ⟨1, pg.fmt, pg.isGlobal, pg.tent, pg.fill, q.ctx, f⟩
  | none => (s.walk r key k).filter fun e =>
      (e.state = 1 || e.state = 3) && e.frame.tier ≤ 2 && e.frame.ch = entCh r && s.frameOwned q.ctx e.frame

/-- What reading keys and values comes to: a walk fails, a position is not written yet, or the entries of every head and position. -/
inductive KvRead where
  | fault
  | wait
  | got (kvs : List KvAt)
deriving DecidableEq, Repr

/-- The entries of some heads at some positions, each page walked once. A core's DAE reads a page's staged copy in its own scratchpad (R173, R174,
R178, R190, R195). -/
def Dev.readKv (s : Dev) (core : Option Nat) (r layer : Nat) (pat : Pattern) (l : Layer) (heads poss : List Nat) : KvRead :=
  let span := spanP pat
  let frameNo (key head : Nat) : Nat := match (s.seq r).pages.find? fun e => e.1 = key with
    | some (_, pg) => head / headsPerFrame span l pg.fmt
    | none => 0
  let keys := ((poss.map (· / span)).eraseDups).map (pageKey layer)
  let walks := keys.flatMap fun key => ((heads.map (frameNo key)).eraseDups).map fun k => ((key, k), s.engineWalk r key k)
  if walks.any fun w => w.2.isNone then .fault
  else
    let ent (h j : Nat) : PtEntry := let key := pageKey layer (j / span)
      ((walks.find? fun w => w.1 = (key, frameNo key h)).bind (·.2)).getD (emptyEntry 0)
    if poss.any fun j => heads.any fun h => (ent h j).fill ≤ j % span then .wait
    else .got (heads.flatMap fun h => poss.map fun j =>
      let e := ent h j
      let n := headsPerFrame span l e.fmt
      let o := kvOffsets span l.dH e.fmt (min n (l.hKv - h / n * n)) (h % n) (j % span)
      let copy := core.bind fun c => s.staged.find? fun x => x.core = c && x.r = r && x.key = pageKey layer (j / span) && x.frame = e.frame
      let rd (a m : Nat) : List Byte := match copy with
        | some x => (List.range m).map fun i => s.t0.get 0 (x.core * 2 ^ 22 + (x.addr + a + i) % 2 ^ 22)
        | none => s.bytes (frameBase e.frame + a) m
      ⟨h, j, decodeVec rd e.fmt l.dH o.1 o.2.2.1, decodeVec rd e.fmt l.dH o.2.1 o.2.2.2, if copy.isSome then 0 else e.frame.tier,
        bytes16 l.dH e.fmt / 16⟩)

/-! ### Scores and online softmax (R168, R172, R173, R178) -/

/-- The score of a converted query row at a position. -/
def scoreOf (q : List (List F32 × Int) × F32) (k : KvVec) : F32 :=
  F32.mul (tsum (List.zipWith (fun a b => mulPow (F32.mul (dot a.1 b.1) b.2) a.2) q.1 k)) q.2

/-- The weights of one run as the products take them: in the DAE, those below 2^−16 of the largest become 0 (R173). -/
def weightRun (fmt : Nat) (dae : Bool) (ws : List F32) : List F32 × Int :=
  let m := ws.foldl (fun a x => max a (F32.magFix x)) 0
  let r := toRun fmt ws
  (List.zipWith (fun w x => if dae && !F32.isNan w && F32.magFix w * 2 ^ 16 < m then 0#32 else x) ws r.1, r.2)

/-- Σ p · v over a block's unmasked positions: per 32-element value block and per run of 32 positions, runs summed pairwise. `ps` gives
place in the block and weight (R173, R178). -/
def weighted (fmt : Nat) (dae : Bool) (dH : Nat) (ps : List (Nat × F32 × KvVec)) : List F32 :=
  ((List.range (dH / 32)).map fun b =>
    let runs := ((ps.map (·.1 / 32)).eraseDups).map fun u =>
      let xs := ps.filter fun e => e.1 / 32 = u
      let blk (e : Nat × F32 × KvVec) : List F32 × F32 := e.2.2.getD b ([], 0#32)
      (weightRun fmt dae (xs.map fun e => F32.mul e.2.1 (blk e).2), xs.map fun e => (blk e).1)
    (List.range 32).map fun i => tsum (runs.map fun r => mulPow (dot r.1.1 (r.2.map fun v => nth 0#32 v i)) r.1.2)).flatten

/-- A row's partial after one block, with the rescales and zero factors it took (R168, R169). -/
def rowBlock (fmt : Nat) (dae : Bool) (l : Layer) (q : QRow) (p : AttnPartial) (blk : List Nat) (kvs : List KvAt) : AttnPartial × Nat × Nat :=
  let seen := (blk.zipIdx).filter fun e => sees l q.pos e.1
  let cr := convRow fmt q.q
  let cq := (cr.1, rowScale fmt l.smScale cr.2)
  let kv (j : Nat) : KvAt := (kvs.find? fun k => k.head = q.head && k.pos = j).getD ⟨0, 0, [], [], 0, 0⟩
  let sc := seen.map fun e => (e.2, scoreOf cq (kv e.1).key, (kv e.1).val)
  match sc with
  | [] => (p, 0, 0)
  | x :: xs =>
    let mb := xs.foldl (fun a e => F32.max a e.2.1) x.2.1
    let raise := F32.lt p.m mb
    let re := raise && p.m ≠ F32.ninf
    let f := F32.exp (F32.sub p.m mb)
    let p1 : AttnPartial := if re then { p with l := F32.mul p.l f, acc := p.acc.map fun a => F32.mul a f } else p
    let m := if raise then mb else p.m
    let ps := sc.map fun e => (e.1, F32.exp (F32.sub e.2.1 m), e.2.2)
    ({ p1 with m := m, l := F32.add p1.l (tsum (ps.map (·.2.1))), acc := vadd p1.acc (weighted fmt dae l.dH ps) },
     re.toNat, (re && F32.isZero f).toNat)

/-- Empty partials of rows. -/
def freshRows (l : Layer) (qs : List QRow) : List AttnPartial :=
  qs.map fun q => ⟨q.head, q.g, q.pos, F32.ninf, 0#32, List.replicate l.dH 0#32⟩

/-- One block over every row; with it the rescales and zero factors (R168, R169). -/
def blockRows (fmt : Nat) (dae : Bool) (l : Layer) (qs : List QRow) (rows : List AttnPartial) (blk : List Nat) (kvs : List KvAt) :
    List AttnPartial × Nat × Nat :=
  let out := (qs.zip rows).map fun e => rowBlock fmt dae l e.1 e.2 blk kvs
  (out.map (·.1), (out.map (·.2.1)).sum, (out.map (·.2.2)).sum)

/-! ### Tree nodes and the attention root (R148, R149, R154, R156, R170, R171, R181) -/

/-- Merges two partials of one row, with the zero factors taken (R170). -/
def mergePartial (x y : AttnPartial) : AttnPartial × Nat :=
  let m := F32.max x.m y.m
  let f (z : F32) : F32 := if z = m then F32.one else F32.exp (F32.sub z m)
  ({ x with m := m, l := F32.add (F32.mul x.l (f x.m)) (F32.mul y.l (f y.m)),
            acc := List.zipWith (fun a b => F32.add (F32.mul a (f x.m)) (F32.mul b (f y.m))) x.acc y.acc },
   (F32.isZero (f x.m)).toNat + (F32.isZero (f y.m)).toNat)

/-- Where a tuning step keeps a row's pair (kind 0) or its query (kind 1): in the area that STAT_ADDR names (R181, R276). -/
def Dev.statAt (s : Dev) (r layer qhead pos kind n : Nat) : Nat :=
  let a := s.ent r Ent.TUNE_PTR 8
  s.peek (a + 0x10) 8 + Config.statPlace layer qhead pos kind % (s.peek (a + 0x18) 4 + 1 - n)

/-- Whether an entry's step is the forward pass of a tuning step (R181). -/
def Dev.tuning (s : Dev) (r : Nat) : Bool := match (s.seq r).tune with | some t => t.forward | none => false

/-- One row at the attention root: acc / l, its NaN counted, its statistics saved in a tuning step (R171, R181). -/
def Dev.rootRow (s : Dev) (c r layer : Nat) (l : Layer) (p : AttnPartial) : Dev :=
  let ch := coreCh c
  let s := if (p.acc.map fun a => F32.div a p.l).any F32.isNan then (s.bump .attCh ch 0 Off.ATT_NAN 1).raise ch 35 else s
  if s.tuning r then
    let s := s.setBytes (s.statAt r layer (p.head * l.g + p.g) p.pos 0 8) (toBytes 4 p.m.toNat ++ toBytes 4 (F32.add p.m (F32.ln p.l)).toNat)
    s.bump .att ch (c / 8 % 8) Off.ATT_STAT 1
  else s

/-- What an attention root releases: each row's output, rotated back (R123, R171). -/
def rootOut (l : Layer) (p : AttnPartial) : AttnPartial :=
  { p with acc := rotateBack l.kvE l.vSeed (p.acc.map fun a => F32.div a p.l) }

/-- Merging two leaves row by row: values, rescales, zero factors (R169, R170). -/
def mergeRows (x y : List AttnPartial × Nat × Nat) : List AttnPartial × Nat × Nat :=
  let m := List.zipWith mergePartial x.1 y.1
  (m.map (·.1), x.2.1 + y.2.1 + 2 * m.length, x.2.2 + y.2.2 + (m.map (·.2)).sum)

/-- Core whose vector engine merges a sequence's leaves: core 0 of its home cluster (R170). -/
def Dev.homeCore (s : Dev) (r : Nat) : Nat := (entCh r * 8 + (s.seq r).home) * 8

/-- The attention root: its statistics, and each row's output rotated back by the fuller (R123, R171, R181). -/
def Dev.attnRoot (s : Dev) (c : Nat) (key : NodeKey) (r layer : Nat) (l : Layer) (m : List AttnPartial × Nat × Nat) (n : Nat) : Dev :=
  let ch := coreCh c
  let s := (s.bump .attCh ch 0 Off.ATT_RESCALE m.2.1).bump .attCh ch 0 Off.ATT_UFLOW m.2.2
  let s := s.bump .accCh ch 0 Off.ACC_XNODE (n - 1)
  let s := m.1.foldl (fun s p => s.rootRow c r layer l p) s
  (s.putNode c key ⟨0, [], some (.attn (m.1.map (rootOut l)))⟩).bump .ful ch (coreIn c) Off.FUL_ROT m.1.length

/-- An item's leaf goes to the node of the home core that merges the leaves of its rows; with the last one the root is formed (R147, R167, R170). -/
def Dev.itemLeaf (s : Dev) (item : AttnItem) (p : ItemPlace) (rows : List AttnPartial) : Dev :=
  let r := item.seq.ix
  let c := s.homeCore r
  let key : NodeKey := .attn item.seq item.layer item.group item.part
  match nodeTake (s.treeNode c key) p.leaves.length (p.leaves.idxOf item.leaf) (.attn rows) with
  | none => s.raise (coreCh c) 27
  | some nd =>
    if nd.leaves.length < p.leaves.length then s.putNode c key nd
    else
      let vals := nd.leaves.map fun e => match e.2 with | .attn rs => (rs, 0, 0) | _ => ([], 0, 0)
      s.attnRoot c key r item.layer p.l (treeReduce mergeRows ([], 0, 0) vals) p.leaves.length

/-! ### Leaves that arrive (R143, R148, R156) -/

/-- Channels of the module between which a root travels over the fabric (R9). -/
def Dev.fabricJoins (s : Dev) (a b : Nat) : Bool := a = b || s.siblings a b

/-- Row `i` of a BF16 matrix of `n` columns at an offset of an adapter image, as FP32 values (R272). -/
def adapterRow (img : Store Byte) (off n i : Nat) : List F32 :=
  (List.range n).map fun j => bf16Val (img.get 0 (off + 2 * (i * n + j) + 1) ++ img.get 0 (off + 2 * (i * n + j)))

/-- ALPHA × B(Ax) for the columns from `first` on: x and Ax are rounded to BF16 and the products are summed in FP32; that Ax is rounded too is a
DESIGN CHOICE (R272). -/
def adapterVals (img : AdpImg) (aOff bOff rows first cols : Nat) (x : List F32) : List F32 :=
  let narrow (v : F32) : F32 := bf16Val (bf16Of v)
  let x := x.map narrow
  let ax := (List.range img.rank).map fun i => narrow (dot (adapterRow img.bytes aOff rows i) x)
  (List.range cols).map fun j => F32.mul img.alpha (dot (adapterRow img.bytes bOff img.rank (first + j)) ax)

/-- The adapter image that a sequence's step pins, if its entry names one (R274). -/
def Dev.pinnedAdapter (s : Dev) (r : Nat) : Option AdpImg :=
  (s.seq r).step.bind fun st =>
    let a := (s.ctx (s.seq r).ctx).adps.get Adp.fresh (s.ent r Ent.ADAPTER 2)
    if st.adpGen = a.gen then a.active else a.old

/-- The adapter leaf of a vector enters, as the last leaf, the group of the lowest-index core that holds a slice of the column block; LEN counts
the products with B (R272; which products LEN counts is a DESIGN CHOICE). -/
def Dev.adapterLeaf (s : Dev) (c g vec : Nat) : Dev :=
  let gr := s.group c g
  match s.layerOf gr.ctx gr.layer, (s.execOf c gr.exec).bind fun e => e.seq.bind fun q => (s.pinnedAdapter q.ix).map fun img => (e, img) with
  | some l, some (e, img) =>
    (match img.layers.find? (·.1 = gr.layer), ((redTiles l false gr.first).map tileCore).head? with
    | some (_, aOff, bOff), some low =>
      if gr.state = .free ∨ gr.src ≠ 0 ∨ gr.transpose ∨ low ≠ c ∨ !s.serves (coreCh c) then s
      else
        let vals := adapterVals img aOff bOff l.rows gr.first gr.cols (nth [] e.xs vec)
        let s := s.bump .att (coreCh c) (c / 8 % 8) Off.ATT_PMAC (img.rank * (l.rows + gr.cols))
        s.leafAt c g gr.epoch ⟨gr.nLeaf - 1, vec, vals, img.rank, 1, false⟩
    | _, _ => s)
  | _, _ => s

/-- LEAF_ARRIVAL: a PAE or vector leaf, or the adapter leaf, reaches a group; a channel's root reaches its module's node; or a vector engine has its
own part of a vector that a top-k takes, and forms its top k (R143, R148, R155, R156, R272). Array leaves come from their tiles. -/
def Dev.leafArrive (s : Dev) (core : CoreRef) : LeafMsg → Dev
  | .group g epoch leaf vec vals len =>
    let gr := s.group core.ix g.val
    if gr.state ≠ .free && gr.epoch = epoch.val && gr.src = 0 then s
    else s.leafAt core.ix g.val epoch.val ⟨leaf, vec.val, vals, len, 1, false⟩
  | .adapter g vec => s.adapterLeaf core.ix g.val vec.val
  | .module key =>
    (match s.keyCores key with
    | some (c :: _) => if s.fabricJoins core.ch.val (coreCh c) then s.moduleLeaf key core.ch.val else s
    | some [] => s
    | none => s.raise core.ch.val 28)
  | .part ctx layer run base xs =>
    let k := match s.layerOf ctx.val layer with
      | some l => if l.kind = 7 then l.moeK else 64
      | none => 64
    let key : NodeKey := .topk 1 ctx.val layer run
    if !(s.topkCores ctx.val layer).contains core.ix then s
    else (s.bump .acc core.ch.val (coreIn core.ix) Off.ACC_TOPK 1).enterTree key core.ix (localTop k base xs)

/-! ### Items (R166, R167, R175 to R180) -/

/-- The layer of an item, if its sequence runs, the layer attends, and the stage that its step is in holds the layer. -/
def Dev.itemLayer (s : Dev) (r layer : Nat) : Option (Pattern × Layer × Step) :=
  match s.seqPat r, (s.seq r).step with
  | some p, some st => (p.layers[layer]?).bind fun l =>
      if isAttn l && s.live r && (st.stages.headD []).any fun w => w.1 = layer then some (p, l, st) else none
  | _, _ => none

/-- The place of a DAE item: a row pass of at most 256 rows of a decode step (R166, R177). -/
def Dev.daePlace (s : Dev) (item : AttnItem) : Option ItemPlace :=
  (s.itemLayer item.seq.ix item.layer).bind fun x =>
    if x.2.2.kind = .decode then
      placeOf x.1 x.2.1 (((groupRows x.2.1 item.group x.2.2.start (1 + x.2.2.drafts)).drop (256 * item.part)).take 256) item.leaf
    else none

/-- The place of a PAE item: QBLK query positions of a chunk (R166, R180). -/
def Dev.paePlace (s : Dev) (item : AttnItem) : Option ItemPlace :=
  (s.itemLayer item.seq.ix item.layer).bind fun x =>
    let a := x.2.2.start + item.part * x.2.1.qblk
    match x.2.2.kind with
    | .decode | .backward => none
    | _ => placeOf x.1 x.2.1 (groupRows x.2.1 item.group a (min x.2.1.qblk (x.2.2.stop - a))) item.leaf

/-- An item's query rows, rotated by the fuller; none where the rows that it brings are not those of its place (R123). -/
def queryRows (p : ItemPlace) (qs : List (List F32)) : Option (List QRow) :=
  if qs.length = p.rows.length && qs.all fun q => q.length = p.l.dH then
    some ((p.rows.zip qs).map fun e => ⟨e.1.1, e.1.2.1, e.1.2.2, rotateBy (p.l.kvE / 2) p.l.kvE p.l.qkSeed e.2⟩)
  else none

/-- The fuller has rotated an item's query rows; the items of the other leaves of the rows take the same ones (R123, R139). -/
def Dev.countQueries (s : Dev) (c : Nat) (p : ItemPlace) (leaf : Nat) : Dev :=
  if p.leaves.head? = some leaf then s.bump .ful (coreCh c) (coreIn c) Off.FUL_ROT p.rows.length else s

/-- Whether the channel's engines work: powered, ready and not in the safe state (R379). -/
def Dev.engines (s : Dev) (ch : Nat) : Bool := s.serves ch

/-- DAE_ITEM_START: an item issues to an idle DAE of the home channel; without XCL_EN only of the home cluster, and on no
other cluster that is THROTTLE_ENFORCED (R166, R175, R177, R412). -/
def Dev.daeStart (s : Dev) (core : CoreRef) (item : AttnItem) : Dev :=
  let c := core.ix
  let ch := core.ch.val
  let away := core.cl.val ≠ (s.seq item.seq.ix).home
  match s.daePlace item with
  | none => s
  | some p =>
    match queryRows p item.qs with
    | none => s
    | some qs =>
      if (s.core c).dae.isSome ∨ core.ch ≠ item.seq.ch ∨ !s.engines ch ∨ (away ∧ (s.inForce .attCh ch 0 Off.ATT_CTL 1 1 = 0 ∨ (s.clus (ch * 8 + core.cl.val)).therm.state = .enforced)) then s
      else
        let s := s.bump .att ch core.cl.val Off.ATT_DITEM 1
        let s := s.bump .attCh ch 0 Off.ATT_XCL (decide away).toNat
        let s := s.bump .attCh ch 0 Off.ATT_REPASS (decide (item.part ≠ 0)).toNat
        let s := s.countQueries c p item.leaf
        s.modCore c fun x => { x with dae := some ⟨item, qs, leafBlocks p.l p.a p.b item.leaf, freshRows p.l qs, []⟩ }

/-- Counts what a block or a leaf took: rescales and zero factors (R169). -/
def Dev.countSoftmax (s : Dev) (ch : Nat) (x : Nat × Nat) : Dev :=
  (s.bump .attCh ch 0 Off.ATT_RESCALE x.1).bump .attCh ch 0 Off.ATT_UFLOW x.2

/-- DAE_BLOCK_ARRIVE: the next block's scores, rescale and value products; with the last block the leaf is written (R168, R173, R175). A wait for
the block falls on the core's slack (R19, R176). An entry that cannot be followed raises PAGE_WALK and ends the item (R183); a block whose positions
are not all written has not arrived (R179). -/
def Dev.daeBlock (s : Dev) (core : CoreRef) (late : Nat) : Dev :=
  let c := core.ix
  let ch := core.ch.val
  match (s.core c).dae with
  | none => s
  | some a =>
    match a.blocks, s.daePlace a.item with
    | b :: bs, some p =>
      (match s.readKv (some c) a.item.seq.ix a.item.layer p.pat p.l ((a.qs.map (·.head)).eraseDups) b with
      | .fault => (s.modCore c fun x => { x with dae := none }).raise ch 34
      | .wait => s
      | .got kvs =>
        let out := blockRows 3 true p.l a.qs a.rows b kvs
        let by_ (t : Nat) : Nat := ((kvs.filter fun k => k.tier = t).map (·.bytes)).sum
        let up (s : Dev) (o n : Nat) : Dev := s.bump .att ch core.cl.val o n
        let s := (s.takeCore c (ceilDiv (late * 5) 8) (some a.item.seq)).countSoftmax ch out.2
        let s := up s Off.ATT_DMAC (2 * a.rows.length * p.l.dH * b.length)
        let s := up (up (up s Off.ATT_DBYT_T0 (by_ 0)) Off.ATT_DBYT_T1 (by_ 1)) Off.ATT_DBYT_T2 (by_ 2)
        if bs.isEmpty then (s.modCore c fun x => { x with dae := none }).itemLeaf a.item p out.1
        else s.modCore c fun x => { x with dae := some { a with blocks := bs, rows := out.1 } })
    | _, _ => s.modCore c fun x => { x with dae := none }

/-- PAE_ITEM_START: an item issues to the idle PAE of the home cluster and stages its leaf from T1 or T2 (R166, R174, R180). -/
def Dev.paeStart (s : Dev) (c : ClusterRef) (item : AttnItem) : Dev :=
  let r := item.seq.ix
  match s.paePlace item with
  | none => s
  | some p =>
    match queryRows p item.qs with
    | none => s
    | some qs =>
      if (s.clus c.ix).pae.run.isSome ∨ c.ch ≠ item.seq.ch ∨ c.cl.val ≠ (s.seq r).home ∨ !s.engines c.ch.val then s
      else
        let bs := leafBlocks p.l p.a p.b item.leaf
        match s.readKv none r item.layer p.pat p.l ((qs.map (·.head)).eraseDups) bs.flatten with
        | .fault => s.raise c.ch.val 34
        | .wait => s
        | .got kvs =>
          let s := (s.bump .att c.ch.val c.cl.val Off.ATT_PBYT (kvs.map (·.bytes)).sum).countQueries (c.ix * 8) p item.leaf
          s.modClus c.ix fun x => { x with pae := { x.pae with
            run := some ⟨item, qs, bs, freshRows p.l qs, kvs⟩, kind := 1, ctx := (s.seq r).ctx } }

/-- Every block of a staged leaf in order (R168). -/
def leafRows (fmt : Nat) (l : Layer) (qs : List QRow) (kvs : List KvAt) (blocks : List (List Nat)) (rows : List AttnPartial) :
    List AttnPartial × Nat × Nat :=
  blocks.foldl (fun acc b =>
    let o := blockRows fmt false l qs acc.1 b kvs
    (o.1, acc.2.1 + o.2.1, acc.2.2 + o.2.2)) (rows, 0, 0)

/-- Magnitude code of an element that already has a value of the format, with its sign above it. -/
def elemCode (f : MiniFmt) (width : Nat) (x : F32) : Nat :=
  (if F32.isNan x then 2 ^ (width - 1) - 1 else f.enc (F32.magFix x) (2 ^ 149)) + (F32.neg? x).toNat * 2 ^ (width - 1)

/-- Bits of an element of a PAE operand format. -/
def opBits (fmt : Nat) : Nat := match fmt with | 0 => 4 | 1 => 6 | 4 => 16 | _ => 8

/-- Bytes of a converted query row: codes, then the E8M0 scales of MX formats, or e of FP8 in two bytes (R172, R181). -/
def queryBytes (fmt : Nat) (row : List (List F32 × Int) × Int) : List Byte :=
  let es := (row.1.map (·.1)).flatten
  let w := opBits fmt
  if fmt = 4 then (es.map fun x => toBytes 2 (bf16Of x).toNat).flatten
  else
    let v := (es.zipIdx).foldl (fun acc e => acc + elemCode (opFmt fmt).1 w e.1 * 2 ^ (w * e.2)) 0
    toBytes (es.length * w / 8) v ++
      (if fmt = 3 then toBytes 2 ((row.2 % 65536).toNat) else row.1.map fun r => BitVec.ofNat 8 ((r.2 + 127).toNat))

/-- A converted query row from its bytes. -/
def queryRow (fmt dH : Nat) (bs : List Byte) : List (List F32 × Int) × Int :=
  let w := opBits fmt
  let v := ofBytes bs
  let el (i : Nat) : F32 :=
    let c := v / 2 ^ (w * i) % 2 ^ w
    if fmt = 4 then bf16Val (BitVec.ofNat 16 c)
    else
      let f := (opFmt fmt).1
      let m := c % 2 ^ (w - 1)
      if w = 8 && m = 127 then F32.nan else F32.ofRat (decide (2 ^ (w - 1) ≤ c)) (f.dec m) (2 ^ f.ulp)
  let n := dH * w / 8
  let e2 := ofBytes ((bs.drop n).take 2)
  ((List.range (dH / 32)).map fun b =>
    ((List.range 32).map fun i => el (32 * b + i),
     if fmt ≤ 2 then ((nth 0 bs (n + b)).toNat : Int) - 127 else 0),
   if fmt = 3 then (if e2 ≥ 32768 then (e2 : Int) - 65536 else e2) else 0)

/-- A tuning step keeps the query rows in the format used (R181). -/
def Dev.keepQueries (s : Dev) (item : AttnItem) (p : ItemPlace) (qs : List QRow) : Dev :=
  let r := item.seq.ix
  if s.tuning r && p.leaves.head? = some item.leaf then
    qs.foldl (fun (s : Dev) q =>
      let bs := queryBytes p.l.qfmt (convRow p.l.qfmt q.q)
      s.setBytes (s.statAt r item.layer (q.head * p.l.g + q.g) q.pos 1 bs.length) bs) s
  else s

/-- PAE_STAGE_DONE: online softmax over the staged leaf, which is written to the home cluster's buffer (R168, R178, R180). -/
def Dev.paeStage (s : Dev) (c : ClusterRef) : Dev :=
  match (s.clus c.ix).pae.run with
  | none => s
  | some a =>
    let s := s.modClus c.ix fun x => { x with pae := { x.pae with run := none, kind := 0, ctx := 0 } }
    match s.paePlace a.item with
    | none => s
    | some p =>
      let out := leafRows p.l.qfmt p.l a.qs a.staged a.blocks a.rows
      let up (s : Dev) (o n : Nat) : Dev := s.bump .att c.ch.val c.cl.val o n
      let s := up (up (s.countSoftmax c.ch.val out.2) Off.ATT_PMAC (2 * a.rows.length * p.l.dH * (a.blocks.map List.length).sum)) Off.ATT_PITEM 1
      (s.keepQueries a.item p a.qs).itemLeaf a.item p out.1

/-! ### The backward pass (R182) -/

/-- A dot product in BFMT: operands converted in runs of 32 along the sum, FP32 partials summed pairwise. -/
def bdot (bfmt : Nat) (xs ys : List F32) : F32 :=
  let fmt := if bfmt = 0 then 2 else 4
  tsum (List.zipWith (fun a b =>
    let x := toRun fmt a
    let y := toRun fmt b
    mulPow (dot x.1 y.1) (x.2 + y.2)) (chunks32 xs) (chunks32 ys))

/-- The dequantised elements of a key or value. -/
def kvFlat (v : KvVec) : List F32 := (v.map fun b => b.1.map fun x => F32.mul x b.2).flatten

/-- Transpose of the rotation of R121 with factor 2^(−k). -/
def rotateT (k e : Nat) (seed : Word) (y : List F32) : List F32 :=
  (((hadamard e y).map fun v => F32.scaleDown v k true).zipIdx).map fun p => signOf seed p.2 p.1

/-- A row of the backward pass: head, query head, position, its converted query, L, the output gradient and dsum = rowsum(d_o × o) (R182). -/
structure BwdRow where
  head : Nat
  g : Nat
  pos : Nat
  q : List (List F32 × Int) × Int
  bigL : F32
  dO : List F32
  dsum : F32

/-- Values of a converted query row. -/
def rowVals (row : List (List F32 × Int) × Int) : List F32 := row.1.flatMap fun r => r.1.map fun x => mulPow (mulPow x r.2) row.2

/-- The sums of one item: p, dp and ds of every row and position that it sees, and what they add to dq, dk and dv, in the domain of the stored
keys and values (R182). -/
def backward (l : Layer) (seq : SeqRef) (layer : Nat) (rows : List BwdRow) (blocks : List (List Nat)) (kvs : List KvAt) : BwdSums :=
  let kv (h j : Nat) : KvAt := (kvs.find? fun k => k.head = h && k.pos = j).getD ⟨0, 0, [], [], 0, 0⟩
  let w (q : BwdRow) (j : Nat) : F32 :=
    if sees l q.pos j then F32.exp (F32.sub (scoreOf (q.q.1, rowScale l.qfmt l.smScale q.q.2) (kv q.head j).key) q.bigL) else 0#32
  let ds (q : BwdRow) (j : Nat) : F32 :=
    if sees l q.pos j then F32.mul (w q j) (F32.sub (bdot l.bfmt q.dO (kvFlat (kv q.head j).val)) q.dsum) else 0#32
  let heads := (rows.map (·.head)).eraseDups
  let ix := List.range l.dH
  let dq (q : BwdRow) : List F32 :=
    blocks.foldl (fun acc blk => vadd acc (ix.map fun d =>
      F32.mul (bdot l.bfmt (blk.map (ds q)) (blk.map fun j => nth 0#32 (kvFlat (kv q.head j).key) d)) l.smScale)) (List.replicate l.dH 0#32)
  let col (f : BwdRow → Nat → F32) (g : BwdRow → List F32) (h j : Nat) : List F32 :=
    let rs := rows.filter fun q => q.head = h
    ix.map fun d => bdot l.bfmt (rs.map fun q => f q j) (rs.map fun q => nth 0#32 (g q) d)
  let each (f : Nat → Nat → List F32) : List ((Nat × Nat) × List F32) := heads.flatMap fun h => blocks.flatten.map fun j => ((h, j), f h j)
  { seq := seq, layer := layer
    dq := rows.map fun q => ((q.head, q.g, q.pos), dq q)
    dk := each fun h j => (col ds (fun q => rowVals q.q) h j).map fun x => F32.mul x l.smScale
    dv := each fun h j => col w (·.dO) h j }

/-- Adds gradients to sums, key by key, in FP32 (R182). -/
def addGrads {κ : Type} [DecidableEq κ] (xs ys : List (κ × List F32)) : List (κ × List F32) :=
  ys.foldl (fun acc y => if acc.any fun x => x.1 = y.1 then acc.map fun x => if x.1 = y.1 then (x.1, vadd x.2 y.2) else x else acc ++ [y]) xs

/-- The sums of a sequence's layer go on; those of another one start anew. -/
def addBwd (old : Option BwdSums) (x : BwdSums) : BwdSums :=
  match old with
  | some o => if o.seq = x.seq ∧ o.layer = x.layer then
      { x with dq := addGrads o.dq x.dq, dk := addGrads o.dk x.dk, dv := addGrads o.dv x.dv } else x
  | none => x

/-- What the fuller returns of the sums: each gradient through the transpose of its rotation (R123, R182). -/
def bwdReturn (l : Layer) (b : BwdSums) : BwdSums :=
  { b with
    dq := b.dq.map fun e => (e.1, rotateT (l.kvE / 2) l.kvE l.qkSeed e.2)
    dk := b.dk.map fun e => (e.1, rotateT ((l.kvE + 1) / 2) l.kvE l.qkSeed e.2)
    dv := b.dv.map fun e => (e.1, rotateT (l.kvE / 2) l.kvE l.vSeed e.2) }

/-- The place of a backward item: the query blocks of the forward pass in order, chunk by chunk (R182). -/
def Dev.bwdPlace (s : Dev) (item : BwdItem) : Option ItemPlace :=
  let r := item.seq.ix
  match s.seqPat r, (s.seq r).step with
  | some pat, some st => (pat.layers[item.layer]?).bind fun l =>
      let per := max 1 (ceilDiv pat.chunk (max 1 l.qblk))
      let a := item.part / per * pat.chunk + item.part % per * l.qblk
      let b := min (a + l.qblk) (min ((item.part / per + 1) * pat.chunk) (s.clen r))
      if st.kind = .backward ∧ isAttn l ∧ (s.seq r).tune.isSome then placeOf pat l (groupRows l item.group a (b - a)) item.leaf else none
  | _, _ => none

/-- PAE_BACKWARD_ITEM: a backward item on the PAE of the home cluster. The queries and L are those that the forward pass saved. It does not issue
while a page of its key set is absent (R166, R181, R182). -/
def Dev.paeBackward (s : Dev) (c : ClusterRef) (item : BwdItem) : Dev :=
  let r := item.seq.ix
  match s.bwdPlace item with
  | none => s
  | some p =>
    let l := p.l
    if (s.clus c.ix).pae.run.isSome ∨ c.ch ≠ item.seq.ch ∨ c.cl.val ≠ (s.seq r).home ∨ !s.engines c.ch.val
        ∨ item.rows.length ≠ p.rows.length ∨ p.rows.any (fun q => !(s.absentPages r q.2.2).isEmpty) then s
    else
      let bs := leafBlocks l p.a p.b item.leaf
      match s.readKv none r item.layer p.pat l ((p.rows.map (·.1)).eraseDups) bs.flatten with
      | .fault => s.raise c.ch.val 34
      | .wait => s
      | .got kvs =>
        let row (e : (Nat × Nat × Nat) × List F32 × List F32) : BwdRow :=
          let h := e.1.1 * l.g + e.1.2.1
          let n := qRowBytes l.dH l.qfmt
          ⟨e.1.1, e.1.2.1, e.1.2.2, queryRow l.qfmt l.dH (s.bytes (s.statAt r item.layer h e.1.2.2 1 n) n),
            BitVec.ofNat 32 (s.peek (s.statAt r item.layer h e.1.2.2 0 8 + 4) 4), e.2.1, dot e.2.1 e.2.2⟩
        let sums := backward l item.seq item.layer ((p.rows.zip item.rows).map row) bs kvs
        let up (s : Dev) (o n : Nat) : Dev := s.bump .att c.ch.val c.cl.val o n
        let s := up s Off.ATT_PBYT (kvs.map (·.bytes)).sum
        let s := up (up s Off.ATT_PMAC (5 * p.rows.length * l.dH * bs.flatten.length)) Off.ATT_PITEM 1
        s.modClus c.ix fun x => { x with pae := { x.pae with kind := 3, ctx := (s.seq r).ctx, back := some (addBwd x.pae.back sums) } }

/-! ### Spill layers (R264) -/

/-- One output column of a spill block: MXFP8 inputs against W5 levels, FP32 partials per 32 rows, then the residual share. -/
def spillColumn (w : Store Int) (res : List (Nat × Nat × Int)) (runs : List (List F32 × Int)) (scale : F32) (col : Nat) : F32 :=
  let a := tsum ((runs.zipIdx).map fun e =>
    mulPow (dot e.1.1 ((List.range e.1.1.length).map fun i => F32.ofInt (w.get 0 ((e.2 * 32 + i) * 2048 + col)))) e.1.2)
  let x (row : Nat) : F32 := match runs[row / 32]? with
    | some r => mulPow (nth 0#32 r.1 (row % 32)) r.2
    | none => 0#32
  let a := res.foldl (fun acc e => if e.2.1 = col ∧ ¬ F32.isZero (x e.1) then F32.add acc (F32.mul (F32.ofInt e.2.2) (x e.1)) else acc) a
  F32.mul a scale

/-- The pattern whose image holds a layer's W5 copy: the new one's once the wave has switched the layer (R268). -/
def Dev.patOfLayer (s : Dev) (ctx layer : Nat) : Option Pattern :=
  match (s.ctx ctx).newPat with
  | some n => if (n.layers[layer]?).any Layer.switched then some n else (s.ctx ctx).pat
  | none => (s.ctx ctx).pat

/-- A PAE that does an item of a kind at once, and its MACs (R185). -/
def Dev.paeDid (s : Dev) (cl kind ctx macs : Nat) : Dev :=
  (s.modClus cl fun x => { x with pae := { x.pae with kind := kind, ctx := ctx } }).bump .att (cl / 8) (cl % 8) Off.ATT_PMAC macs

/-- Whether a block runs as part of a spill layer: the layer does, or the slice on one of its tiles (R78, R92, R264). -/
def Dev.blockSpills (s : Dev) (l : Layer) (b : Block) : Bool := l.spill || b.tiles.any fun k => s.sliceSpills k

/-- SPILL_LAYER_ITEM: a block of a spill layer on the PAE of the cluster that holds its groups, on inputs that the fuller has rotated; the leaves
are PAE-sourced, and the pounce unit of the owning core adds the residual share (R98, R264). -/
def Dev.spillItem (s : Dev) (c : ClusterRef) (item : SpillItem) : Dev :=
  let k := item.core.ix
  match s.layerOf item.ctx.val item.layer, s.patOfLayer item.ctx.val item.layer with
  | some l, some p =>
    (match l.blocks[item.block]? with
    | none => s
    | some b =>
      if !s.blockSpills l b ∨ (l.spill ∧ !(s.spillOn item.ctx.val l).contains c.ch.val) ∨ item.core.cluster ≠ c ∨ (s.clus c.ix).pae.run.isSome ∨ !s.engines c.ch.val then s
      else
        let w := blockLevels p b
        let res := if s.resEn k then blockRes p b else []
        let s := s.paeDid c.ix 2 item.ctx.val (b.rspan * b.cspan * item.xs.length)
        let s := s.bump .ful (coreCh k) (coreIn k) Off.FUL_ROT item.xs.length
        let epoch := (s.group k item.group.val).epoch
        (item.xs.zipIdx).foldl (fun (s : Dev) e =>
          let x := ((rotate l.rotE l.rotSeed e.1).drop b.row0).take b.rspan
          let runs := (chunks32 x).map (toRun 2)
          let vals := (List.range b.cspan).map fun j => spillColumn w res runs l.wScale j
          let s := s.bump .pnc (coreCh k) (coreIn k) Off.PNC_RES (res.filter fun e => !F32.isZero (nth 0#32 x e.1)).length
          s.leafAt k item.group.val epoch ⟨item.leaf, e.2, vals, b.rspan, 1, false⟩) s)
  | _, _ => s

/-! ### Transpose work (R53 to R56) -/

/-- Transpose work of a slice on the PAE, from the W5 copy (R56): MXFP8 inputs against W5 levels along the columns, then the residual share with
row and column exchanged (R98). -/
def Dev.transposeOnPae (s : Dev) (k : Nat) (sl : Slice) (d : MvmDesc) : Dev :=
  let c := s.tileServes k
  let cl := c / 8
  let ctx := (s.tile k).ctx.getD 0
  match s.execOf c d.exec, s.sliceBlock (s.tile k) sl, s.patOfLayer ctx sl.layer with
  | some e, some (l, b), some p =>
    if !e.transpose ∨ (s.clus cl).pae.run.isSome then s
    else
      let w : Store Int := (blockLevels p b).foldl (fun acc x => acc.set 0 (x.1 % 2048 * 2048 + x.1 / 2048) x.2) []
      let res := if s.resEn c then (blockRes p b).map fun x => (x.2.1, x.1, x.2.2) else []
      let y := ((nth [] e.xs d.vec.val).drop b.col0).take b.cspan
      let vals := (List.range b.rspan).map fun i => spillColumn w res ((chunks32 y).map (toRun 2)) l.wScale i
      let s := s.paeDid cl 4 ctx (b.rspan * b.cspan)
      let s := s.bump .pnc (coreCh c) (coreIn c) Off.PNC_RES (res.filter fun x => !F32.isZero (nth 0#32 y x.1)).length
      (s.leafAt c d.group.val d.epoch.val ⟨leafIx l b c true, d.vec.val, vals, b.cspan, 1, false⟩).settleExec c d.exec
  | _, _, _ => s

/-- TRANSPOSE_READ: the tile that serves an index forms Wᵀy for a slice, or, where it may not, the PAE does from the W5 copy (R53, R56). A
descriptor for a tile that is not READY raises NOT_READY_ISSUE (R57). -/
def Dev.transposeStart (s : Dev) (ix : Nat) (d : MvmDesc) (dev : AnalogDev) : Dev :=
  let k := s.serving ix
  let t := s.tile k
  match t.state, t.slices[d.slice.val]? with
  | .ready, some sl =>
    if !s.transOk k then s.transposeOnPae k sl d
    else match s.heldInput t sl (s.tileServes k) d true with
      | some (_, q) => s.transposeRead k t sl d q dev
      | none => s
  | _, _ => s.raiseTile 12 k

/-! ### Views (R185) -/

/-- ATT_PSTA. An item that the model does in one command shows until the PAE takes another, or the next boundary (DESIGN CHOICE). -/
def Dev.attPsta (s : Dev) (cl : Nat) : Word :=
  let p := (s.clus cl).pae
  BitVec.ofNat 32 (if p.kind = 0 then 0
    else 1 + (decide (p.kind = 2)).toNat * 2 + (decide (p.kind = 3)).toNat * 4 + (decide (p.kind = 4)).toNat * 8 + p.ctx * 16 + 1024)

/-- ATT_DSTA. -/
def Dev.attDsta (s : Dev) (cl : Nat) : Word :=
  BitVec.ofNat 32 (((List.range 8).map fun co =>
    match (s.core (cl * 8 + co)).dae with
    | some a => 2 ^ co + (if (s.seq a.item.seq.ix).home ≠ cl % 8 then 2 ^ (8 + co) else 0)
    | none => 0).sum)

end Sys2Proof.Machine
end

