-- ==== Sys2Proof/Machine/Calib.lean ====
section
/-! DEFINITION. Blocking runs of a core (R419 to R423, R429) and the tile commands of R64. -/

namespace Sys2Proof.Machine
open Sys2Proof

def Dev.modBkg (s : Dev) (c : Nat) (f : Bkg → Bkg) : Dev := s.modCore c fun x => { x with bkg := f x.bkg }

/-- Tiles and spares a run of a core covers: its core tiles, and the spares that stand in or are adopted for them (R419). -/
def Dev.runTiles (s : Dev) (c : Nat) : List Nat :=
  let core := (List.range 16).map fun t => c / 8 * 132 + c % 8 * 16 + t
  let sps := ((List.range 4).map fun i => c / 8 * 132 + 128 + i).filter fun sp =>
    match (s.tile sp).role with | .adopted t => tileCore t = c | .standin t => tileCore t = c | _ => false
  core ++ sps

/-- Spares in SPARE that the run calibrates too (R419). -/
def Dev.runSpares (s : Dev) (c : Nat) : List Nat :=
  ((List.range 4).map fun i => c / 8 * 132 + 128 + i).filter fun sp =>
    (s.tile sp).calDue && (s.tile sp).state = .spare && (s.tile sp).role = .none && (s.tile sp).next.isNone

/-- Whether a tile is in PROGRAMMING, or is to enter it first (R59, R420). -/
def progDue (t : Tile) : Bool := t.state = .programming || t.next = some .programming

/-- Runs under way in a channel. -/
def Dev.runsActive (s : Dev) (ch : Nat) : Nat := ((chanCores ch).filter fun c => (s.core c).bkg.running.isSome).length

/-- Cores of a channel whose runs are due, oldest first, ties to the lower name (R420). -/
def Dev.dueCores (s : Dev) (ch : Nat) : List Nat :=
  let due (c : Nat) : Nat := (s.core c).bkg.due.getD 0
  sortBy (fun a b => decide (due a ≤ due b)) ((chanCores ch).filter fun c => (s.core c).bkg.due.isSome && (s.core c).bkg.running.isNone)

/-- Starts a run: its READY tiles and the free spares due enter BLOCKING, and BLOCK is triggered (R402, R422). -/
def Dev.startRun (s : Dev) (c : Nat) : Dev :=
  let b := (s.core c).bkg
  let ks := if b.skip.isEmpty then s.runTiles c else (s.runTiles c).filter fun k => b.skip.contains k
  let out := ks.filter fun k => progDue (s.tile k)
  let s := ((ks.filter fun k => (s.tile k).state = .ready && !progDue (s.tile k)) ++ s.runSpares c).foldl
    (fun s k => s.modTile k fun t => { t with state := .blocking, next := none, mvms := [], reread := [] }) s
  let s := s.modBkg c fun b => { b with
    running := some (s.chan (c / 64)).time, due := if out.isEmpty then none else b.due, waited := 0, late := false, skip := out, done := false }
  s.monBlock (c / 8) (c % 8)

/-- Boundary step 4: due runs start, one core per cluster and MAXRUN per channel, or eight before READY (R420). -/
def Dev.startRuns (s : Dev) (ch : Nat) : Dev :=
  let most := if s.chReady ch then max 1 (s.inForce .bkgCh ch 0 Off.BKG_CTL 8 6) else 8
  (s.dueCores ch).foldl (fun s c =>
    let b := (s.core c).bkg
    let ks := s.runTiles c
    let clBusy := (List.range 8).any fun i => (s.core (c / 8 * 8 + i)).bkg.running.isSome
    if ks.any (fun k => progDue (s.tile k)) && !b.late then s.modBkg c fun b => { b with waited := b.waited + 1 }
    else if clBusy || s.runsActive ch ≥ most then s
    else if ks.any fun k => s.carriedOn k then s.bump .plcCh ch 0 Off.PLC_DEFER 1
    else s.startRun c) s

/-- Runs fall due where the cluster's temperature has left that of the core's last run (R419). -/
def Dev.tempRuns (s : Dev) (ch : Nat) : Dev :=
  if s.inForce .bkgCh ch 0 Off.BKG_CTL 0 0 = 0 then s
  else
    let delta : Int := (max 2 (s.inForce .bkgCh ch 0 Off.BKG_CTL 5 1) : Nat) * 16
    (chanCores ch).foldl (fun s c =>
      let b := (s.core c).bkg
      match b.tRun with
      | some r =>
        let t := (BitVec.ofNat 16 (t16Of (s.therm (c / 8)).tCl)).toInt
        if b.due.isNone && b.running.isNone && decide (delta < (t - r).natAbs) then s.bkgDue c else s
      | none => s) s

/-- The tiles of a run that has ended return, and T_RUN is recorded (R422 step 8). A tile whose mass table failed meanwhile does not enter
READY: it waits for a writer (R37, R62). -/
def Dev.endRuns (s : Dev) (ch : Nat) : Dev :=
  ((chanCores ch).filter fun c => (s.core c).bkg.done).foldl (fun s c =>
    let s := (s.runTiles c).foldl (fun s k =>
      let t := s.tile k
      if t.state ≠ .blocking then s
      else if t.slices.all tableOk then s.modTile k fun t => { t with state := .ready, window := [] }
      else s.modTile k fun t => { t with window := [], next := some .programming, prog := some (t.prog.getD .load) }) s
    let s := ((List.range 4).map fun i => c / 8 * 132 + 128 + i).foldl (fun s k =>
      if (s.tile k).state = .blocking then s.modTile k fun t => { t with state := .spare, window := [], calDue := false } else s) s
    let s := s.modBkg c fun b => { b with
      running := none, done := false, tRun := some (BitVec.ofNat 16 (t16Of (s.therm (c / 8)).tCl)).toInt }
    s.bump .bkgCh ch 0 Off.BKG_RUNS 1) s

/-- The part of a channel's boundary step 4 that is blocking runs. -/
def Dev.runBoundary (s : Dev) (ch : Nat) : Dev := ((s.endRuns ch).tempRuns ch).startRuns ch

/-- Where a trim ends: a run moves a tap by at most 16 steps (R423). -/
def trimTap (old new : Nat) : Nat := min (max new (old - 16)) (old + 16)

/-- A store of taps after a run, and how many taps the run moved (R34, R422, R423). -/
def trimTaps (old : Store Nat) (l : List (Nat × Nat)) : Store Nat × Nat :=
  l.foldl (fun (a : Store Nat × Nat) e =>
    let t := trimTap (a.1.get 0 e.1) e.2
    (a.1.set 0 e.1 t, a.2 + ((t : Int) - (a.1.get 0 e.1 : Nat)).natAbs)) (old, 0)

/-- A tile's new tables: coefficients, trims, and the drift baseline of the 16-probe burst (R422 steps 2 to 7). -/
def newTables (c : TileCal) (t : Tile) : Tile :=
  let store (l : List (Nat × F32)) (d : F32) : Store F32 := l.foldl (fun (m : Store F32) e => m.set d e.1 e.2) []
  { t with
    calB := store c.b F32.one
    calO := store c.o 0#32
    calR := store c.r F32.one
    vConv := c.vConv
    vCell := c.vCell
    rowG := store c.rowG F32.one
    rowO := store c.rowO 0#32
    taps := (trimTaps t.taps c.taps).1
    thr := (trimTaps t.thr c.thr).1
    transBad := c.rowConvFail
    probeBase := if c.probe.length = 7 then c.probe else t.probeBase
    drift := List.replicate 7 F32.one
    dOff := List.replicate 7 0#32
    probeSum := List.replicate 7 0#32
    probes := 0
    zeroSum := List.replicate 7 0#32
    zeroW := 0
    missRun := 0
    probePlan := false
    coefNext := none
    barred := t.barred && (!c.convFail.isEmpty || c.driverFail || c.rowConvFail) }

/-- One tile's measurements: its table is written, and what fails is raised; a spare that passes is no longer barred (R103, R422, R423). -/
def Dev.calTile (s : Dev) (core : CoreRef) (c : TileCal) : Dev :=
  let k := if c.tile.val < 16 then core.cluster.ix * 132 + core.co.val * 16 + c.tile.val else core.cluster.ix * 132 + 112 + c.tile.val
  let t := s.tile k
  let mine := c.tile.val < 16 || t.state = .blocking
  if t.state = .programming ∨ t.state = .retired ∨ !mine then s
  else
    let ch := core.ch.val
    let s := (s.modTile k fun t => sealTable (newTables c t)).bump .bkgCh ch 0 Off.BKG_TAPS ((trimTaps t.taps c.taps).2 + (trimTaps t.thr c.thr).2)
    let s := s.bump .bkgCh ch 0 Off.BKG_STORE 1
    let s := if c.rowConvFail then s.raiseTile 13 k else s
    let at_ : Fin 132 := Fin.ofNat 132 (k % 132)
    let s := c.convFail.foldl (fun s n => s.raiseAt ch 88 false (.conv core.cl at_ (Fin.ofNat 532 n)) []) s
    if c.driverFail then s.raiseAt ch 88 false (.tile core.cl at_) [] else s

/-- BLOCKING_RUN_DONE: a run's measurements are in; its tiles return at the next boundary (R422). -/
def Dev.runDone (s : Dev) (core : CoreRef) (cals : List TileCal) : Dev :=
  let b := (s.core core.ix).bkg
  if b.running.isNone ∨ b.done then s
  else (cals.foldl (fun s c => s.calTile core c) s).modBkg core.ix fun b => { b with done := true }

/-- BKG_LATE_EXPIRE: a run has waited BKG_LATE planks for tiles in PROGRAMMING (R420). -/
def Dev.runLate (s : Dev) (core : CoreRef) : Dev :=
  let b := (s.core core.ix).bkg
  if b.due.isNone ∨ b.running.isSome ∨ b.late ∨ b.waited < max 1 (s.inForce .bkgCh core.ch.val 0 Off.BKG_LATE 23 0) then s
  else (s.modBkg core.ix fun b => { b with late := true }).raise core.ch.val 89

/-- BKG_CMD (R429). -/
def Dev.bkgCmd (s : Dev) (ch : Nat) (w : Word) : Dev :=
  let c := ch * 64 + fld w 2 0 * 8 + fld w 5 3
  let b := (s.core c).bkg
  if fld w 8 6 ≠ 1 then s.wrF .bkgCh ch 0 Off.BKG_CMD_STA 7 0 Code.RANGE
  else if b.due.isSome ∨ b.running.isSome then s.wrF .bkgCh ch 0 Off.BKG_CMD_STA 7 0 Code.BUSY
  else (s.bkgDue c).wrF .bkgCh ch 0 Off.BKG_CMD_STA 7 0 Code.OK

/-- BKG_STA and BKG_CO of a channel (R429). -/
def Dev.bkgView (s : Dev) (ch o : Nat) : Option Word :=
  if o = Off.BKG_STA then
    some (BitVec.ofNat 32 (min 15 (s.runsActive ch) + ((chanCores ch).filter fun c => (s.core c).bkg.due.isSome).length * 16))
  else if Off.BKG_CO ≤ o ∧ o < Off.BKG_CO + 256 then
    let b := (s.core (ch * 64 + (o - Off.BKG_CO) / 4)).bkg
    some (BitVec.ofNat 32 (((b.tRun.getD 0) % 65536).toNat + b.due.isSome.toNat * 2 ^ 16 + b.running.isSome.toNat * 2 ^ 17
      + (!b.skip.isEmpty).toNat * 2 ^ 18))
  else none

/-! ### Tile commands (R64) -/

/-- ARR_TCMD: OFFLINE moves a tile's slices onto a spare and puts it into IDLE; ONLINE returns an IDLE tile to the pool. R64 does not say
what ONLINE does to a tile that is not IDLE, nor when OFFLINE of an IDLE one ends (DESIGN CHOICE: ONLINE answers OK and cancels an OFFLINE
that waits; OFFLINE of an IDLE tile answers OK at once). -/
def Dev.tileCmd (s : Dev) (ch core : Nat) (w : Word) : Dev :=
  let i := fld w 3 0
  let k := (ch * 8 + core / 8) * 132 + core % 8 * 16 + i
  let t := s.tile k
  let rep (s : Dev) (code : Nat) : Dev :=
    s.wr .arr ch core Off.ARR_TCMD_STA (BitVec.ofNat 32 (code + i * 256))
  let cmd := fld w 6 4
  if cmd ≠ 1 ∧ cmd ≠ 2 ∨ t.state = .retired then rep s Code.RANGE
  else if t.state = .programming ∨ t.state = .blocking then rep s Code.BUSY
  else if cmd = 2 then rep (s.modTile k fun t => { t with offline := false }) Code.OK
  else if t.state = .idle then rep (s.modTile k fun t => { t with offline := true }) Code.OK
  else if (s.freeSpare (tileCl k) true).isNone then rep s Code.NOSPACE
  else rep (s.modTile k fun t => { t with offline := true }) Code.PENDING

end Sys2Proof.Machine
end

