-- ==== Sys2Proof/Machine/Image.lean ====
section
/-! DEFINITION. The pattern image: its header, sections, layer descriptors and trees (R252, R253), the load checks (R258, R265, R275),
and adapter images (R272). -/

namespace Sys2Proof.Machine
open Sys2Proof

/-- `n` little-endian bytes of an image at an offset; unlisted bytes are 0. -/
def rdImg (img : Store Byte) (a n : Nat) : Nat := ofBytes ((List.range n).map fun i => img.get 0 (a + i))
/-- A 32-bit pattern of an image. -/
def rdF32 (img : Store Byte) (a : Nat) : F32 := BitVec.ofNat 32 (rdImg img a 4)

/-- The bytes of host memory from an address on, as an image of a given size. -/
def cutImage (h : HostView) (a n : Nat) : Store Byte := h.filterMap fun e => if a ≤ e.1 ∧ e.1 < a + n ∧ e.2 ≠ 0 then some (e.1 - a, e.2) else none

/-! ### Header and sections (R252) -/

/-- Offset and size of the section of a type. -/
def section_ (img : Store Byte) (n ty : Nat) : Option (Nat × Nat) :=
  ((List.range (min n 6)).find? fun i => rdImg img (0x100 + 32 * i) 4 = ty).map fun i =>
    (rdImg img (0x100 + 32 * i + 8) 8, rdImg img (0x100 + 32 * i + 16) 8)

def sectionOr (img : Store Byte) (n ty : Nat) : Nat × Nat := (section_ img n ty).getD (0, 0)

/-- Whether bytes of an image that the tables do not list are 0 (R252, R272). -/
def zeroAt (img : Store Byte) (a n : Nat) : Bool := img.all fun e => decide (e.1 < a ∨ a + n ≤ e.1) || e.2 = 0

/-- Check 0x02: sizes, the section table and its bounds; unlisted bytes of the header and of the table's six entries are 0 (which check
refuses them is a DESIGN CHOICE). -/
def sectionsOk (img : Store Byte) (size : Nat) : Bool :=
  let n := rdImg img 0x14 4
  let tab := (List.range (min n 6)).map fun i => (rdImg img (0x100 + 32 * i) 4, rdImg img (0x100 + 32 * i + 8) 8, rdImg img (0x100 + 32 * i + 16) 8)
  rdImg img 0x08 8 = size && 6 ≤ n && n ≤ 15
    && ((List.range 6).all fun t => (tab.filter fun e => e.1 = t + 1).length = 1)
    && zeroAt img 0x25 (0x100 - 0x25) && ((List.range 6).all fun i => zeroAt img (0x104 + 32 * i) 4 && zeroAt img (0x118 + 32 * i) 8)
    && ((List.range (n - 6)).all fun i => rdImg img (0x100 + 32 * (6 + i)) 4 = 0)
    && (tab.all fun e => e.2.1 % 64 = 0 && e.2.1 + e.2.2 ≤ size && 0x100 + 32 * n ≤ e.2.1)
    && (tab.zipIdx.all fun a => tab.zipIdx.all fun b => a.2 = b.2 || a.1.2.1 + a.1.2.2 ≤ b.1.2.1 || b.1.2.1 + b.1.2.2 ≤ a.1.2.1)

/-! ### Layers (R253) -/

def groupSize (c : Nat) : Nat := 256 * 2 ^ c

/-- A slice block entry at `a`; its W5 and residual places are filled in by `placeBlock`. -/
def rdBlock (img : Store Byte) (a : Nat) : Block where
  row0 := rdImg img a 4
  col0 := rdImg img (a + 4) 4
  rspan := rdImg img (a + 8) 2
  cspan := rdImg img (a + 10) 2
  inFmt := nfld (rdImg img (a + 12) 1) 1 0
  tFmt := nfld (rdImg img (a + 12) 1) 3 2
  rowGroup := groupSize (nfld (rdImg img (a + 12) 1) 5 4)
  colGroup := groupSize (nfld (rdImg img (a + 12) 1) 7 6)
  gain := nfld (rdImg img (a + 13) 1) 2 0
  tGain := nfld (rdImg img (a + 13) 1) 5 3
  planPasses := rdImg img (a + 14) 1
  resOff := 0
  resN := 0
  w5Off := 0
  tiles := []

/-- Bytes of a block's row strings (R119). -/
def blockW5 (b : Block) : Nat := b.rspan * (b.cspan * 5 / 8)

/-- Gives each block its place in W5 and in RESID: the counts stand at the head of the layer's area (R252). -/
def placeBlocks (img : Store Byte) (resid resOff w5 : Nat) (hasRes : Bool) (n : Nat) : List Block → Nat → Nat → Nat → List Block
  | [], _, _, _ => []
  | b :: bs, i, wOff, rOff =>
    let cnt := if hasRes then rdImg img (resid + resOff + 4 * i) 4 else 0
    { b with w5Off := w5 + wOff, resN := cnt, resOff := rOff } ::
      placeBlocks img resid resOff w5 hasRes n bs (i + 1) (wOff + blockW5 b) (rOff + 4 * cnt)

/-- The layer descriptor at `a`. -/
def rdLayer (img : Store Byte) (resid a : Nat) : Layer :=
  let nBlk := rdImg img (a + 0x0C) 2
  let flags := rdImg img (a + 0x02) 2
  let resOff := rdImg img (a + 0x38) 8
  let resCnt := rdImg img (a + 0x40) 4
  let w5 := rdImg img (a + 0x30) 8
  let blocks := (List.range nBlk).map fun i => rdBlock img (a + 128 + 16 * i)
  let vec := rdImg img (a + 0x48) 8
  let att := a + 0x50
  { kind := rdImg img a 1, draft := rdImg img (a + 1) 1 = 1, modelOk := rdImg img (a + 1) 1 ≤ 1, spillOk := flags.testBit 0, splitCh := flags.testBit 1, dup := flags.testBit 2,
    rows := rdImg img (a + 4) 4, cols := rdImg img (a + 8) 4, maxReads := rdImg img (a + 0x0E) 1, confLim4 := rdImg img (a + 0x0F) 1,
    inScale := rdF32 img (a + 0x10), wScale := rdF32 img (a + 0x14), outMul := rdImg img (a + 0x18) 1, rotE := rdImg img (a + 0x19) 1,
    satLim := rdImg img (a + 0x1A) 2, zerLim := rdImg img (a + 0x1C) 2, kvFmt := rdImg img (a + 0x1E) 1 + 2, kvE := rdImg img (a + 0x1F) 1,
    rotSeed := BitVec.ofNat 32 (rdImg img (a + 0x20) 4), qkSeed := BitVec.ofNat 32 (rdImg img (a + 0x24) 4),
    vSeed := BitVec.ofNat 32 (rdImg img (a + 0x28) 4), tree := rdImg img (a + 0x2C) 4, w5Off := w5, resOff := resOff, resCnt := resCnt,
    vecOff := if vec = 2 ^ 64 - 1 then none else some vec,
    attKind := rdImg img att 1, win := 2 ^ rdImg img (att + 1) 1, glbMode := rdImg img (att + 2) 1, glbStride := 2 ^ rdImg img (att + 3) 1,
    ng := rdImg img (att + 4) 2, hKv := rdImg img (att + 6) 1, g := rdImg img (att + 7) 1, dH := 2 ^ rdImg img (att + 8) 1,
    hpc := rdImg img (att + 9) 1, segLen := 2 ^ rdImg img (att + 10) 1, qblk := 2 ^ rdImg img (att + 11) 1, qfmt := rdImg img (att + 12) 1,
    bfmt := rdImg img (att + 13) 1, smScale := rdF32 img (att + 16), moeK := rdImg img (a + 0x64) 1, nExpert := rdImg img (a + 0x66) 2,
    stateBytes := rdImg img (a + 0x68) 4,
    blocks := placeBlocks img resid resOff w5 (decide (0 < resCnt)) nBlk blocks 0 0 (resOff + 4 * nBlk),
    spill := false, switched := false, inPlace := false, programming := false }

/-- `n` layer descriptors from `a` on, none where one runs past `stop`. -/
def rdLayers (img : Store Byte) (resid stop : Nat) : Nat → Nat → Option (List Layer)
  | 0, _ => some []
  | n + 1, a =>
    let size := 128 + 16 * rdImg img (a + 0x0C) 2
    if a + 128 > stop ∨ a + size > stop then none
    else (rdLayers img resid stop n (a + size)).map (rdLayer img resid a :: ·)

/-- The records of the TREES section. -/
def rdTrees (img : Store Byte) (stop : Nat) : Nat → Nat → List TreeRec
  | 0, _ => []
  | f + 1, a =>
    let n := rdImg img a 2
    if a + 4 + 2 * n > stop ∨ n = 0 then []
    else ⟨rdImg img (a + 2) 1, (List.range n).map fun i => rdImg img (a + 4 + 2 * i) 2⟩ :: rdTrees img stop f (a + 4 + 2 * n)

/-- The pattern of an image, if its descriptors lie inside LAYERS (check 0x03). -/
def parsePattern (img : Store Byte) (addr size : Nat) : Option Pattern :=
  let n := rdImg img 0x14 4
  let sec (t : Nat) : Nat × Nat := sectionOr img n t
  (rdLayers img (sec 3).1 ((sec 1).1 + (sec 1).2) (min 4096 (rdImg img 0x10 4)) (sec 1).1).map fun ls =>
    { maxLen := rdImg img 0x18 4, vocab := rdImg img 0x1C 4, chunk := rdImg img 0x20 4, draftLim := rdImg img 0x24 1, layers := ls,
      trees := rdTrees img ((sec 5).1 + (sec 5).2) ((sec 5).2 / 4) (sec 5).1,
      w5 := (sec 2).1, w5Size := (sec 2).2, resid := (sec 3).1, residSize := (sec 3).2, vectors := (sec 4).1, vectorsSize := (sec 4).2,
      embed := (sec 6).1, embedSize := (sec 6).2, img := [], imgAddr := addr, imgSize := size }

/-! ### Per-layer checks (R32, R83, R97, R121, R125, R155, R162, R164, R187, R191, R205) -/

def hasSlices (l : Layer) : Bool := l.kind = 1 || l.kind = 9
/-- A positive, normal FP32 value. -/
def posNormal (x : F32) : Bool := let e := x.toNat / 2 ^ 23; 1 ≤ e && e ≤ 254
def powIn (lo hi x : Nat) : Bool := lo ≤ x && x ≤ hi && 2 ^ Nat.log2 x = x

/-- Check 0x04 of a layer. -/
def layerSettingsOk (p : Pattern) (l : Layer) : Bool :=
  (1 ≤ l.kind && l.kind ≤ 11) && l.modelOk
    && (!hasSlices l ||
        ((l.maxReads = 1 || l.maxReads = 2 || l.maxReads = 4) && (l.confLim4 = 0 || (4 ≤ l.confLim4 && l.confLim4 ≤ 63))
          && posNormal l.inScale && 16 ≤ l.outMul && l.outMul ≤ 128 && 6 ≤ l.rotE && l.rotE ≤ 12
          && (l.blocks.all fun b => b.inFmt ≤ 2 && b.tFmt ≤ 2 && 1 ≤ b.planPasses && b.planPasses ≤ 8
                && b.rspan % b.rowGroup = 0 && (ceilDiv b.cspan 256 * 256) % b.colGroup = 0)
          && l.w5Off + (l.blocks.map blockW5).sum ≤ p.w5Size))
    && (l.resCnt = 0 || (l.resOff % 4 = 0 && l.resOff + 4 * l.blocks.length + 4 * l.resCnt ≤ p.residSize))
    && (match l.vecOff with | some v => v < p.vectorsSize | none => true)
    && (!isAttn l ||
        (l.kvFmt ≤ 4 && 6 ≤ l.kvE && l.kvE ≤ 12 && l.attKind ≤ 1 && (l.attKind = 0 || powIn 256 131072 l.win) && l.glbMode ≤ 2
          && l.ng ≤ 512 && (l.glbMode ≠ 0 || l.ng = 0) && (l.glbMode ≠ 2 || powIn 256 65536 l.glbStride)
          && 1 ≤ l.hKv && l.hKv ≤ 128 && 1 ≤ l.g && l.g ≤ 128 && [64, 128, 256, 512].contains l.dH && l.dH = 2 ^ l.kvE
          && 1 ≤ l.hpc && l.hpc ≤ 4 && powIn 256 16384 l.segLen && powIn 16 256 l.qblk && l.qblk * l.g ≤ 4096 && posNormal l.smScale))

def blocksOverlap (a b : Block) : Bool :=
  a.row0 < b.row0 + b.rspan && b.row0 < a.row0 + a.rspan && a.col0 < b.col0 + b.cspan && b.col0 < a.col0 + a.cspan

/-- Check 0x05: block geometry; the blocks tile the matrix. -/
def blocksOk (l : Layer) : Bool :=
  if !hasSlices l then l.blocks.isEmpty
  else !l.blocks.isEmpty
    && (l.blocks.all fun b => b.row0 % 256 = 0 && b.col0 % 64 = 0 && b.rspan % 256 = 0 && 256 ≤ b.rspan && b.rspan ≤ 2048
          && b.cspan % 64 = 0 && 64 ≤ b.cspan && b.cspan ≤ 2048 && b.row0 + b.rspan ≤ l.rows && b.col0 + b.cspan ≤ l.cols)
    && (l.blocks.map fun b => b.rspan * b.cspan).sum = l.rows * l.cols
    && (l.blocks.zipIdx.all fun a => l.blocks.zipIdx.all fun b => a.2 = b.2 || !blocksOverlap a.1 b.1)

/-- Check 0x06: residual counts. -/
def residOk (l : Layer) : Bool := (l.blocks.all fun b => b.resN ≤ 4096) && (l.blocks.map (·.resN)).sum = l.resCnt

/-- Check 0x07 of a run of W5 codes: none is 0b10000. -/
def w5Clean (img : Store Byte) (a n : Nat) : Bool :=
  (List.range (n * 8 / 5)).all fun j => rdImg img (a + 5 * j / 8) 2 / 2 ^ (5 * j % 8) % 32 ≠ 16

/-- Check 0x0A of layer `i`: MAX_LEN, page geometry and state layers; the layer whose leaf pointers pass 8,064 fails. -/
def geometryOk (p : Pattern) (l : Layer) (i : Nat) : Bool :=
  (!isAttn l || p.maxLen ≤ (if l.attKind = 0 then 262144 else 4194304))
    && (!isSsm l || (l.stateBytes ≠ 0 && l.stateBytes % 64 = 0 && l.stateBytes * (1 + p.draftLim) ≤ 262080))
    && p.maxLen ≤ 4194304 && (!isAttn l || pow2Up (framesOf (spanP p) l 8) ≤ 32) 
    && (!(isAttn l || isSsm l) || ((pageLayers p).filter fun e => e.1 ≤ i).length * lplP p ≤ 8064)

/-- Check 0x0C: a layer's tree record names blocks of the layer, each once. -/
def treeOk (p : Pattern) (l : Layer) : Bool :=
  l.blocks.isEmpty || match p.trees[l.tree]? with
    | some r => (r.leaves.all fun b => b < l.blocks.length) && decide r.leaves.Nodup
    | none => false

/-- Check 0x0D: swap compatibility (R265). -/
def swapOk (old new : Pattern) : Bool :=
  let key (p : Pattern) := (pageLayers p).map fun e =>
    (isAttn e.2, if isAttn e.2 then (e.2.hKv, e.2.dH, e.2.kvE, e.2.qkSeed.toNat, e.2.vSeed.toNat) else (0, 0, 0, 0, 0))
  key old = key new && spanP old = spanP new && slotF old = slotF new && old.maxLen ≤ new.maxLen && old.vocab ≤ new.vocab

/-- Whether an adapter's layers are PROJ layers of a pattern with equal sizes (R275). -/
def adapterFits (old new : Pattern) (img : AdpImg) : Bool :=
  img.layers.all fun a => match old.layers[a.1]?, new.layers[a.1]? with
    | some x, some y => y.kind = 1 && x.rows = y.rows && x.cols = y.cols
    | _, _ => false

/-- The first layer that fails a check. -/
def firstBad (p : Pattern) (ok : Layer → Nat → Bool) : Option Nat := (p.layers.zipIdx.find? fun e => !ok e.1 e.2).map (·.2)

/-- Checks 0x01 to 0x06 and 0x08 to 0x0E in their order: the first that fails, with its layer (R258). -/
def Dev.imageChecks (s : Dev) (ctx : Nat) (swap : Bool) (img : Store Byte) (size : Nat) : Option (Nat × Nat) × Option Pattern :=
  let p? := parsePattern img 0 size
  let fail (bad : Bool) (d : Nat) (k : Option (Nat × Nat)) : Option (Nat × Nat) := if bad then some (d, 0) else k
  let each (p : Pattern) (ok : Layer → Bool) (d : Nat) (k : Option (Nat × Nat)) : Option (Nat × Nat) :=
    match firstBad p (fun l _ => ok l) with | some l => some (d, l) | none => k
  let geometry (p : Pattern) (k : Option (Nat × Nat)) : Option (Nat × Nat) :=
    match firstBad p (geometryOk p) with | some l => some (0x0A, l) | none => k
  let first :=
    fail (rdImg img 0 4 ≠ 0x54504B47 || rdImg img 4 4 / 65536 ≠ 1) 0x01 <|
    fail (!sectionsOk img size) 0x02 none
  match first with
  | some f => (some f, none)
  | none =>
    match p? with
    | none => (some (0x03, 0), none)
    | some p =>
      let n := rdImg img 0x10 4
      let old := s.patOf ctx
      let r :=
        fail (n < 1 || n > 4096 || p.draftLim > 8 || (p.draftLim ≠ 0 && !p.layers.any (·.draft)) || p.vocab < 2 || p.vocab > 2 ^ 24
          || !powIn 64 4096 p.chunk) 0x03 <|
        each p (layerSettingsOk p) 0x04 <|
        each p blocksOk 0x05 <|
        each p residOk 0x06 <|
        each p (fun l => (!hasSlices l || l.rows % 2 ^ l.rotE = 0) && (!isAttn l || l.dH % 2 ^ l.kvE = 0)) 0x08 <|
        each p (fun l => l.kind ≠ 7 || (1 ≤ l.moeK && l.moeK ≤ 64 && l.moeK ≤ l.nExpert)) 0x09 <|
        geometry p <|
        each p (fun l => !isAttn l || (l.qfmt ≤ 4 && l.bfmt ≤ 1)) 0x0B <|
        fail (!p.layers.all (treeOk p)) 0x0C <|
        fail (swap && match old with | some o => !swapOk o p | none => true) 0x0D <|
        fail (swap && match old with
          | some o => (s.ctx ctx).adps.any fun e => ([e.2.active, e.2.standby].filterMap id).any fun a => !adapterFits o p a
          | none => false) 0x0E none
      (r, some p)

/-- These checks and then check 0x10: no execution of a layer is longer than the work window (R14, R258). -/
def Dev.loadChecks (s : Dev) (ctx : Nat) (swap : Bool) (img : Store Byte) (size : Nat) : Option (Nat × Nat) × Option Pattern :=
  match s.imageChecks ctx swap img size with
  | (none, some p) => ((firstBad p fun l _ => layerMax p l ≤ s.workWindow).map fun l => (0x10, l), some p)
  | r => r

/-! ### Adapter images (R272) -/

/-- An adapter image's settings, or the DETAIL of the rule it breaks. -/
def parseAdapter (p : Pattern) (img : Store Byte) (size : Nat) : AdpImg ⊕ Nat :=
  let rank := rdImg img 0x10 2
  let n := rdImg img 0x12 2
  let ls := (List.range n).map fun i => (rdImg img (0x40 + 16 * i) 4, rdImg img (0x44 + 16 * i) 4, rdImg img (0x48 + 16 * i) 4)
  if rdImg img 0 4 ≠ 0x50414B47 ∨ rdImg img 4 4 / 65536 ≠ 1 ∨ rdImg img 8 8 ≠ size ∨ n < 1 ∨ n > 4096 ∨ !zeroAt img 0x18 0x28
      ∨ !(List.range n).all (fun i => zeroAt img (0x4C + 16 * i) 4) then .inr 0x01
  else
    let inside := 0x40 + 16 * n ≤ size && ls.all fun l => match p.layers[l.1]? with
      | some y => l.2.1 + 2 * rank * y.rows ≤ size && l.2.2 + 2 * rank * y.cols ≤ size
      | none => true
    let lays := (ls.all fun l => match p.layers[l.1]? with | some y => y.kind = 1 | none => false) && decide (ls.map (·.1)).Nodup
    if !inside then .inr 0x02
    else if rank < 1 ∨ rank > 64 ∨ !lays then .inr 0x03
    else .inl ⟨rank, rdF32 img 0x14, ls, img, size⟩

end Sys2Proof.Machine
end

