-- ==== Sys2Proof/Machine/Load.lean ====
section
/-! DEFINITION. The loading family: commands of LDR_CMD (R255 to R259), the phases of a load or swap (R257, R266), the swap wave
(R266 to R271), UNLOAD (R281), adapters (R273, R274) and tuning (R276). -/

namespace Sys2Proof.Machine
open Sys2Proof

namespace Ph
abbrev NONE : Nat := 0
abbrev FETCH : Nat := 1
abbrev CHECK : Nat := 2
abbrev COPY : Nat := 3
abbrev PROGRAM : Nat := 4
abbrev READY_WAVE : Nat := 5
abbrev WAVE : Nat := 6
abbrev UNLOAD : Nat := 7
end Ph

/-- HUB_CX_STA.STATE: 0 NONE, 1 ACTIVE, 2 CLEANING (R447). -/
def Dev.ctxState (s : Dev) (n : Nat) : Nat := s.rdF .hubCx 0 n Off.HUB_CX_STA 1 0

def Dev.phase (s : Dev) (ctx : Nat) : Nat := s.rdF .ldrCx 0 ctx Off.LDR_CMD_STA 18 16
def Dev.ldrSta (s : Dev) (ctx code detail : Nat) : Dev :=
  (s.wrF .ldrCx 0 ctx Off.LDR_CMD_STA 7 0 code).wrF .ldrCx 0 ctx Off.LDR_CMD_STA 15 8 detail

/-- The progress word, as one 16-byte posted write (R259). -/
def Dev.progWord (s : Dev) (ctx status detail layer : Nat) : Dev :=
  let ld := (s.ctx ctx).load
  let v := status + detail * 2 ^ 8 + s.phase ctx * 2 ^ 16 + layer % 2 ^ 32 * 2 ^ 32 + ld.tilesDone % 2 ^ 32 * 2 ^ 64 + ld.tiles.length % 2 ^ 32 * 2 ^ 96
  s.emit (.hostWrite ctx (s.rd64 .ldrCx 0 ctx Off.LDR_PROG / 16 * 16) (toBytes 16 v))

/-- A phase change writes the progress word (R257, R259). -/
def Dev.setPhase (s : Dev) (ctx ph : Nat) : Dev :=
  let s := s.wrF .ldrCx 0 ctx Off.LDR_CMD_STA 18 16 ph
  s.progWord ctx Code.PENDING 0 (if ph = Ph.WAVE then (s.ctx ctx).load.wavePos else 0)

def Dev.modLoad (s : Dev) (ctx : Nat) (f : Load → Load) : Dev := s.modCtx ctx fun c => { c with load := f c.load }

/-! ### Tiles of a context -/

/-- A tile's index is given back at the next boundary (R58): the tile enters IDLE and its spares SPARE. -/
def Dev.releaseIndex (s : Dev) (k : Nat) : Dev :=
  let drop (st : TState) (t : Tile) : Tile :=
    if t.state = .retired then { t with slices := [], ctx := none }
    else if t.state = .idle then { t with slices := [], ctx := none, next := none, prog := none }
    else { t with next := some st, prog := none, mvms := [], reread := [], replaceBy := none, refreshDue := none }
  (s.sparesOf k).foldl (fun s sp => s.modTile sp (drop .spare)) (s.modTile k (drop .idle))

/-- Tile indexes a context holds. -/
def Dev.ctxTiles (s : Dev) (ctx : Nat) (p : Slice → Bool) : List Nat :=
  ((s.tiles.filter fun e => e.2.ctx = some ctx ∧ e.2.slices.any p).map (·.1)).filter fun k => !isSpare k

/-- The tiles of the pattern that a load or swap brings in. -/
def newTiles (p : Pattern) : List Nat := (p.layers.map layerTiles).flatten

/-- Frees what a load or swap has taken; the loaded pattern keeps its own parts (R257, R258). -/
def Dev.dropNew (s : Dev) (ctx : Nat) : Dev :=
  let s := (s.ctxTiles ctx fun sl => sl.newPat).foldl (fun s k => s.releaseIndex k) s
  let s := s.modCtx ctx fun c => { c with newPat := none, load := Load.fresh }
  if (s.patOf ctx).isSome then s.refitParts ctx else s.freeParts ctx

/-- Ends a load or swap with a failure: the final progress word names the phase in which it ended (R258, R259). -/
def Dev.failLoad (s : Dev) (ctx status detail layer : Nat) : Dev :=
  let s := (s.ldrSta ctx status detail).progWord ctx status detail layer
  (s.dropNew ctx).wrF .ldrCx 0 ctx Off.LDR_CMD_STA 18 16 Ph.NONE

/-! ### Commands (R255) -/

/-- A command accepted: STATUS PENDING, DETAIL 0, and its code in CMD. -/
def Dev.ldrAccept (s : Dev) (ctx cmd : Nat) : Dev := (s.ldrSta ctx Code.PENDING 0).wrF .ldrCx 0 ctx Off.LDR_CMD_STA 21 19 cmd

def Dev.loadCmd (s : Dev) (ctx : Nat) : Dev :=
  if s.phase ctx ≠ Ph.NONE then s.ldrSta ctx Code.BUSY 0
  else if (s.patOf ctx).isSome then s.ldrSta ctx Code.RANGE 0
  else ((s.ldrAccept ctx 1).modLoad ctx fun _ => Load.fresh).setPhase ctx Ph.FETCH

def Dev.swapCmd (s : Dev) (ctx : Nat) : Dev :=
  if s.phase ctx ≠ Ph.NONE then s.ldrSta ctx Code.BUSY 0
  else if (s.patOf ctx).isNone then s.ldrSta ctx Code.RANGE 0
  else ((s.ldrAccept ctx 2).modLoad ctx fun _ => { Load.fresh with swap := true }).setPhase ctx Ph.FETCH

/-- ABORT ends a swap before its wave: what it took is freed, and the old pattern serves on. -/
def Dev.abortCmd (s : Dev) (ctx : Nat) : Dev :=
  if !(s.ctx ctx).load.swap ∨ s.phase ctx = Ph.NONE ∨ s.phase ctx = Ph.UNLOAD then s.ldrSta ctx Code.RANGE 0
  else if s.phase ctx = Ph.WAVE then s.ldrSta ctx Code.BUSY 0
  else (s.ldrAccept ctx 3).failLoad ctx Code.OK 0 0

def Dev.goCmd (s : Dev) (ctx : Nat) : Dev :=
  if s.phase ctx ≠ Ph.READY_WAVE then s.ldrSta ctx Code.RANGE 0
  else (s.ldrAccept ctx 5).modLoad ctx fun l => { l with goNow := true }

/-- UNLOAD stops a swap in progress; before its wave, what it took is freed at once (R255, R281). -/
def Dev.unloadCmd (s : Dev) (ctx : Nat) : Dev :=
  if (s.patOf ctx).isNone then s.ldrSta ctx Code.RANGE 0
  else
    let s := if (s.ctx ctx).load.swap ∧ s.phase ctx ≠ Ph.WAVE then s.dropNew ctx else s
    (s.ldrAccept ctx 4).wrF .ldrCx 0 ctx Off.LDR_CMD_STA 18 16 Ph.UNLOAD

/-- What the context's state makes of a command: NONE refuses every one, CLEANING ignores it (R255, R449). -/
def Dev.ldrGate (s : Dev) (ctx : Nat) (run : Dev → Dev) : Dev :=
  match s.ctxState ctx with
  | 1 => run s
  | 0 => s.ldrSta ctx Code.RANGE 0
  | _ => s

/-- A write of LDR_CMD. -/
def Dev.ldrCommand (s : Dev) (ctx cmd : Nat) : Dev :=
  s.ldrGate ctx fun s => match cmd with
    | 1 => s.loadCmd ctx
    | 2 => s.swapCmd ctx
    | 3 => s.abortCmd ctx
    | 4 => s.unloadCmd ctx
    | 5 => s.goCmd ctx
    | _ => s.ldrSta ctx Code.RANGE 0

/-- A write to LDR_NEXT, LDR_SIZE, LDR_PROG or LDR_RCMP: not applied unless PHASE is NONE (R256). -/
def Dev.ldrWrite (s : Dev) (ctx o : Nat) (w : Word) : Dev :=
  if s.ctxState ctx = 2 then s
  else if s.phase ctx ≠ Ph.NONE then s.wr .ldrCx 0 ctx Off.LDR_WR_STA (BitVec.ofNat 32 Code.BUSY)
  else
    let mask : Word := if o = Off.LDR_NEXT then 0xFFFFF000 else if o = Off.LDR_PROG then 0xFFFFFFF0 else if o = Off.LDR_RCMP then 0xFFFFFFC0 else 0xFFFFFFFF
    (s.wr .ldrCx 0 ctx o (w &&& mask)).wr .ldrCx 0 ctx Off.LDR_WR_STA (BitVec.ofNat 32 Code.OK)

/-! ### Phases (R257, R266) -/

/-- LOAD_FETCH_DONE: the parts the checks read have been fetched. -/
def Dev.fetchDone (s : Dev) (ctx : Nat) (h : HostView) : Dev :=
  if s.phase ctx ≠ Ph.FETCH then s
  else
    let a := s.rd64 .ldrCx 0 ctx Off.LDR_NEXT
    let n := s.rd64 .ldrCx 0 ctx Off.LDR_SIZE
    (s.modLoad ctx fun l => { l with image := cutImage h a n }).setPhase ctx Ph.CHECK

/-- Places layers ahead in order; one that finds no room waits for the wave, and later ones may still fit (R266). -/
def Dev.placeAhead (s : Dev) (ctx : Nat) (why : ProgWhy) : List Nat → Dev
  | [] => s
  | li :: rest =>
    match s.placeLayer ctx li true why with
    | some s' => s'.placeAhead ctx why rest
    | none => s.placeAhead ctx why rest

/-- Places the layers of a load; those that find no room spill where they may. The first that may not is what check 0x20 fails on. -/
def Dev.placeLoad (s : Dev) (ctx : Nat) (p : Pattern) : List Nat → Option Dev
  | [] => some s
  | li :: rest =>
    match s.placeLayer ctx li true .load with
    | some s' => s'.placeLoad ctx p rest
    | none => match p.layers[li]? with
      | some l => if l.spillOk then (s.spillLayer ctx li true).placeLoad ctx p rest else none
      | none => none

/-- LOAD_CHECK_DONE: the checks that need no weight data, placement and T1 room (R257, R258, R266). -/
def Dev.checkDone (s : Dev) (ctx : Nat) : Dev :=
  if s.phase ctx ≠ Ph.CHECK then s
  else
    let ld := (s.ctx ctx).load
    let r := s.loadChecks ctx ld.swap ld.image (s.rd64 .ldrCx 0 ctx Off.LDR_SIZE)
    match r.1, r.2 with
    | some f, _ => s.failLoad ctx Code.REJECTED f.1 f.2
    | none, none => s.failLoad ctx Code.REJECTED 0x03 0
    | none, some p =>
      let s := s.modCtx ctx fun c => { c with newPat := some p }
      let placed := if ld.swap then some (s.placeAhead ctx .load (placeSeq p)) else s.placeLoad ctx p (placeSeq p)
      match placed with
      | none => s.failLoad ctx Code.NOSPACE 0x20 0
      | some s =>
        let need := match (s.ctx ctx).newPat with | some p => s.partFrames ctx p | none => []
        if need.any fun e => !s.rangeFits e.1 e.2 then s.failLoad ctx Code.NOSPACE 0x21 0
        else
          let s := need.foldl (fun s e => s.takeRange e.1 ctx e.2) s
          let ts := match (s.ctx ctx).newPat with | some p => newTiles p | none => []
          (s.modLoad ctx fun l => { l with tiles := ts, placed := true }).setPhase ctx Ph.COPY

/-- LOAD_COPY_DONE: the bytes have been copied; checks 0x07 and 0x0F (R257, R258, R278). -/
def Dev.copyDone (s : Dev) (ctx : Nat) (h : HostView) (ok : Bool) : Dev :=
  if s.phase ctx ≠ Ph.COPY then s
  else match (s.ctx ctx).newPat with
    | none => s
    | some p =>
      let a := s.rd64 .ldrCx 0 ctx Off.LDR_NEXT
      let n := s.rd64 .ldrCx 0 ctx Off.LDR_SIZE
      let img := cutImage h a n
      let bad := firstBad p fun l _ => w5Clean img (p.w5 + l.w5Off) (l.blocks.map blockW5).sum
      match bad with
      | some l => s.failLoad ctx Code.REJECTED 0x07 l
      | none =>
        if !w5Clean img (p.embed + 4 * p.vocab) (p.embedSize - 4 * p.vocab) then s.failLoad ctx Code.REJECTED 0x07 0xFFFFFFFF
        else if !ok then
          let ch := ((s.partFrames ctx p).map (·.1)).headD 0
          (s.failLoad ctx Code.REJECTED 0x0F 0).raise ch 50
        else
          let s := s.modCtx ctx fun c => { c with newPat := some { p with img := img, imgAddr := a } }
          (s.startTiles (s.ctx ctx).load.tiles).setPhase ctx Ph.PROGRAM

/-- A new pattern's slices become the loaded pattern's (R257, R268). -/
def Dev.adoptPattern (s : Dev) (ctx : Nat) : Dev :=
  let own := fun (_ : Nat) (t : Tile) => (if t.ctx = some ctx then { t with slices := t.slices.map fun sl => { sl with newPat := false } } else t)
  let s := { s with tiles := s.tiles.mapV' Tile.reset own }
  let fresh (l : Layer) : Layer := { l with switched := false, inPlace := false, programming := false }
  let s := s.modCtx ctx fun c => { c with
    pat := c.newPat.map fun p => { p with layers := p.layers.map fresh }, newPat := none, load := Load.fresh }
  let s := (s.setDepth ctx).refitParts ctx
  let s := s.wr64 .plcCx 0 ctx Off.PLC_CX_IMG (s.rd64 .ldrCx 0 ctx Off.LDR_NEXT)
  let s := s.wr64 .plcCx 0 ctx Off.PLC_CX_IMGSZ (s.rd64 .ldrCx 0 ctx Off.LDR_SIZE)
  (s.wrF .plcCx 0 ctx Off.PLC_CX_STA 0 0 0).placed ctx

/-- Ends a load or swap OK: the final progress word, then PHASE NONE (R257, R259, R268). -/
def Dev.finishLoad (s : Dev) (ctx : Nat) : Dev :=
  let swap := (s.ctx ctx).load.swap
  let s := (s.ldrSta ctx Code.OK 0).progWord ctx Code.OK 0 0
  let s := s.adoptPattern ctx
  let s := if swap then s.bump .ldrCx 0 ctx Off.LDR_SWAPS 1 else s.wr .ldrCx 0 ctx Off.LDR_EPOCH 0
  s.wrF .ldrCx 0 ctx Off.LDR_CMD_STA 18 16 Ph.NONE

/-- Whether every slice that is placed has verified. -/
def Dev.allVerified (s : Dev) (ctx : Nat) : Bool :=
  (s.ctx ctx).load.tiles.all fun k => let t := s.tile (s.serving k); t.state = .ready || t.state = .blocking || t.next = some TState.ready

/-- LOAD_PROGRAM_DONE: every placed slice is programmed and verified (R257, R266). -/
def Dev.programDone (s : Dev) (ctx : Nat) : Dev :=
  if s.phase ctx ≠ Ph.PROGRAM ∨ !s.allVerified ctx then s
  else if (s.ctx ctx).load.swap then s.setPhase ctx Ph.READY_WAVE
  else s.finishLoad ctx

/-- A tile of a load or swap has verified: counted, with a progress word after every 64 (R259). -/
def Dev.loadTileDone (s : Dev) (ctx : Nat) : Dev :=
  let s := s.modLoad ctx fun l => { l with tilesDone := l.tilesDone + 1 }
  let ld := (s.ctx ctx).load
  if ld.tilesDone % 64 = 0 then s.progWord ctx Code.PENDING 0 (if ld.waveOn then ld.wavePos else 0) else s

/-- TILE_VERIFY_DONE, with what it means for a load or swap (R259, R262). -/
def Dev.tileVerifyDone (s : Dev) (k : Nat) (missed : List Nat) (iters : Nat) (probe : List F32) : Dev :=
  let t := s.tile k
  let s' := s.verifyTile k missed iters probe
  let why := t.prog = some .load || t.prog = some .wave
  if t.state = .programming && t.next.isNone && why && (s'.tile k).next = some .ready then
    match t.ctx with
    | some n => if (s.ctx n).newPat.isSome then s'.loadTileDone n else s'
    | none => s'
  else s'

/-! ### The wave (R266 to R271) -/

/-- Whether an old-epoch step of the context is inside layer `li` or has it ahead (R268). -/
def Dev.oldStepNeeds (s : Dev) (ctx li : Nat) : Bool :=
  s.seqs.any fun e => e.2.ctx = ctx && s.fltState (entCh e.1) ≠ 2 && match e.2.step with
    | some st => st.epoch < s.epoch ctx && (match st.kind with | .backward => true | _ => st.stages.any fun a => a.any fun w => li ≤ w.1)
    | none => false

/-- Re-programs the old layer's own tiles with the new layer's blocks (R268); a layer that has too few runs as a spill layer. -/
def Dev.placeInPlace (s : Dev) (ctx li : Nat) : Dev :=
  match (s.patOf ctx).bind (·.layers[li]?), (s.ctx ctx).newPat.bind (·.layers[li]?) with
  | old, some new =>
    let per := if new.dup then 2 else 1
    let own := match old with | some l => (layerTiles l).filter fun k => (s.tile k).state = TState.ready && (s.tile k).wear < 10000000 && (s.sparesOf k).isEmpty | none => []
    if new.blocks.length * per ≤ own.length then
      let ps := (List.range new.blocks.length).map fun b => (b, (own.drop (b * per)).take per)
      let used := (ps.map (·.2)).flatten
      let s := s.modLayer ctx li false fun l => { l with blocks := l.blocks.map fun b => { b with tiles := b.tiles.filter fun k => !used.contains k } }
      let s := s.holdBlocks ctx li true new .wave ps
      let s := used.foldl (fun s k => s.modTile k fun t => { t with next := some .programming }) s
      let s := s.modLoad ctx fun l => { l with tiles := l.tiles ++ used }
      s.modLayer ctx li true fun l => { l with inPlace := true, programming := true }
    else s.spillLayer ctx li true
  | _, none => s

/-- One step of the wave at its position; answers whether it may go on (R268). -/
def Dev.waveLayer (s : Dev) (ctx : Nat) : Dev × Bool :=
  let pos := (s.ctx ctx).load.wavePos
  match (s.ctx ctx).newPat.bind (·.layers[pos]?) with
  | none => (s, false)
  | some l =>
    if s.oldStepNeeds ctx pos then (s, false)
    else if s.layerReady l then
      let old := match (s.patOf ctx).bind (·.layers[pos]?) with | some o => layerTiles o | none => []
      let s := s.modLayer ctx pos true fun l => { l with switched := true, programming := false }
      let s := old.foldl (fun s k => s.releaseIndex k) s
      (s.modLoad ctx fun l => { l with wavePos := pos + 1 }, true)
    else if (layerTiles l).isEmpty then
      match s.placeLayer ctx pos true .wave with
      | some s' =>
        let ts := match (s'.ctx ctx).newPat.bind (·.layers[pos]?) with | some l => layerTiles l | none => []
        ((s'.startTiles ts).modLoad ctx fun l => { l with tiles := l.tiles ++ ts }, false)
      | none => (s.placeInPlace ctx pos, false)
    else (s, false)

/-- Repeats the wave's step while it goes on. -/
def Dev.waveRun (s : Dev) (ctx : Nat) : Nat → Dev
  | 0 => s
  | f + 1 => let r := s.waveLayer ctx; if r.2 then r.1.waveRun ctx f else r.1

/-- Layers behind the wave's position take tiles that have become free (R266, R268). -/
def Dev.waveAhead (s : Dev) (ctx : Nat) : Dev :=
  match (s.ctx ctx).newPat with
  | none => s
  | some p =>
    let open_ := (p.layers.zipIdx.filter fun e => (s.ctx ctx).load.wavePos ≤ e.2 && !e.1.blocks.isEmpty && !e.1.spill && (layerTiles e.1).isEmpty).map (·.2)
    let s' := s.placeAhead ctx .wave open_
    let ts := match (s'.ctx ctx).newPat with
      | some q => ((q.layers.zipIdx.filter fun e => open_.contains e.2).map fun e => layerTiles e.1).flatten
      | none => []
    (s'.startTiles ts).modLoad ctx fun l => { l with tiles := l.tiles ++ ts }

/-- The sequences that the bitmap at LDR_RCMP marks are set for RECOMPUTE at Sw (R271). -/
def Dev.markRecompute (s : Dev) (ctx : Nat) (h : HostView) : Dev :=
  let a := s.rd64 .ldrCx 0 ctx Off.LDR_RCMP
  if a = 0 then s
  else ((s.seqs.map (·.1)).filter fun r => (s.seq r).ctx = ctx && s.live r && s.st r ≠ St.ADMITTED
      && (hostByte h (a + r / 8)).toNat.testBit (r % 8)).foldl (fun s r =>
    let s := s.modSeq r fun q => { q with mark := true }
    if (s.seq r).step.isNone ∧ s.st r ≠ St.PARKED then s.absentAll r else s) s

/-- Boundary step 4 of a context under a swap: Sw, then the wave (R266, R268, R271). -/
def Dev.waveBoundary (s : Dev) (ctx : Nat) (h : HostView) : Dev :=
  let go := (s.ctx ctx).load.goNow || s.rdF .ldrCx 0 ctx Off.LDR_OPT 0 0 = 0
  let s := if s.phase ctx = Ph.READY_WAVE ∧ go then
      let s := s.wr .ldrCx 0 ctx Off.LDR_EPOCH (s.rd .ldrCx 0 ctx Off.LDR_EPOCH + 1)
      let s := s.modLoad ctx fun l => { l with waveOn := true, wavePos := 0 }
      (s.setPhase ctx Ph.WAVE).markRecompute ctx h
    else s
  if s.phase ctx ≠ Ph.WAVE then s
  else
    let n := match (s.ctx ctx).newPat with | some p => p.layers.length | none => 0
    let s := (s.waveRun ctx (n + 1)).waveAhead ctx
    if (s.ctx ctx).load.wavePos ≥ n then s.finishLoad ctx else s

/-! ### A channel leaves service during a load or swap (R257, R270, R295) -/

/-- Re-places a layer that a load or swap brings in and that does not serve yet. Without room a load's layer spills where it may, or the load
fails; a swap's waits for the wave, or spills once the wave runs (R257, R270). -/
def Dev.rehomeNew (s : Dev) (ctx li : Nat) : Dev :=
  match (s.ctx ctx).newPat.bind (·.layers[li]?) with
  | none => s
  | some l =>
    let ld := (s.ctx ctx).load
    let olds := layerTiles l
    let s := (s.unplace ctx li true l).modLoad ctx fun x => { x with tiles := x.tiles.filter fun k => !olds.contains k }
    match s.placeLayer ctx li true (if ld.waveOn then .wave else .load) with
    | some s' =>
      let n := s'.tilesOf ctx li true
      let s' := s'.modLoad ctx fun x => { x with tiles := x.tiles ++ n }
      if s.phase ctx = Ph.COPY then s' else s'.startTiles n
    | none =>
      if ld.waveOn || (!ld.swap && l.spillOk) then s.spillLayer ctx li true
      else if ld.swap then s
      else s.failLoad ctx Code.NOSPACE 0x20 0

/-- The layers that a load or swap has placed on a channel that leaves service. -/
def Dev.replaceNew (s : Dev) (ch : Nat) : Dev :=
  s.ctxs.foldl (fun s e => match (s.ctx e.1).newPat with
    | some p => ((hitLayers p ch).filter fun li => !s.switchedAt e.1 li).foldl (fun s li => s.rehomeNew e.1 li) s
    | none => s) s

/-- Boundary step 4 for a channel that has left service: its slices are placed elsewhere, once no carried work uses a tile of the layers
concerned (R22, R295). -/
def Dev.placeBoundary (s : Dev) (ch : Nat) : Dev :=
  if !(s.chan ch).placeDue then s
  else
    let ks := (s.ctxs.map fun e => ([e.2.pat, e.2.newPat].filterMap id).map fun p =>
      ((hitLayers p ch).map fun li => ((p.layers[li]?).map layerTiles).getD []).flatten).flatten.flatten
    match ks.find? fun k => tileCh k ≠ ch && s.carriedOn k with
    | some k => s.bump .plcCh (tileCh k) 0 Off.PLC_DEFER 1
    | none => ((s.replaceChannel ch).replaceNew ch).modChan ch fun c => { c with placeDue := false }

/-! ### UNLOAD (R281) -/

/-- Cancels one entry of a context that unloads, as by CANCEL, without touching CMD_W. -/
def Dev.cancelEntry (s : Dev) (r : Nat) : Dev :=
  let w := s.ent r Ent.CMD_W 4
  let ending := match (s.seq r).stopping with | .ending _ _ => true | _ => false
  if ending || s.st r = St.ADMITTED then s
  else ((s.applyCancel r).setEnt r Ent.CMD_W 4 w).closeRing r

/-- At a boundary, the entries of a context that unloads are cancelled on a channel that performs its steps (R281). -/
def Dev.unloadBoundary (s : Dev) (ch ctx : Nat) : Dev :=
  if s.phase ctx ≠ Ph.UNLOAD then s
  else ((s.seqsOf ch).filter fun r => (s.seq r).ctx = ctx && s.live r).foldl (fun s r => s.cancelEntry r) s

/-- Frees the tiles, adapters, patterns and parts of a context (R261, R281). -/
def Dev.freePattern (s : Dev) (ctx : Nat) : Dev :=
  let s := (s.ctxTiles ctx fun _ => true).foldl (fun s k => s.releaseIndex k) s
  let s := s.freeParts ctx
  s.modCtx ctx fun c => { c with pat := none, newPat := none, load := Load.fresh, adps := [], depth := 0, depthP := 0 }

/-- UNLOAD_COMPLETE: every entry of the context is DONE, FAILED or FREE, so what the pattern held is freed (R281). -/
def Dev.unloadDone (s : Dev) (ctx : Nat) : Dev :=
  if s.phase ctx ≠ Ph.UNLOAD ∨ s.seqs.any (fun e => e.2.ctx = ctx && s.live e.1) then s
  else
    let s := s.freePattern ctx
    ((s.ldrSta ctx Code.OK 0).wrF .ldrCx 0 ctx Off.LDR_CMD_STA 18 16 Ph.NONE).placed ctx

/-! ### Adapters (R272 to R274) -/

def Dev.adpOf (s : Dev) (ctx slot : Nat) : Adp := (s.ctx ctx).adps.get Adp.fresh slot
def Dev.modAdp (s : Dev) (ctx slot : Nat) (f : Adp → Adp) : Dev :=
  s.modCtx ctx fun c => { c with adps := c.adps.set Adp.fresh slot (f (c.adps.get Adp.fresh slot)) }
def Dev.adpSta (s : Dev) (ctx slot code detail : Nat) : Dev :=
  s.wr .adpCx 0 ctx Off.ADP_CMD_STA (BitVec.ofNat 32 (code + slot * 2 ^ 8 + detail * 2 ^ 14))

/-- Steps of a context that pin a generation of a slot other than the active one. -/
def Dev.oldPins (s : Dev) (ctx slot : Nat) : Nat :=
  (s.seqs.filter fun e => e.2.ctx = ctx && s.ent e.1 Ent.ADAPTER 2 = slot && (match e.2.step with
    | some st => decide (st.adpGen ≠ (s.adpOf ctx slot).gen) | none => false)).length

def Dev.oldHeld (s : Dev) (ctx slot : Nat) : Bool := (s.adpOf ctx slot).old.isSome

/-- Whether a live or PARKED entry names a slot, or a step pins it. -/
def Dev.slotNamed (s : Dev) (ctx slot : Nat) : Bool :=
  s.seqs.any fun e => e.2.ctx = ctx && s.ent e.1 Ent.ADAPTER 2 = slot && (s.live e.1 || e.2.step.isSome)

/-- Channels that hold an adapter image's layers. -/
def Dev.adpChans (s : Dev) (ctx : Nat) (img : AdpImg) : List Nat :=
  match s.patOf ctx with
  | some p => ((img.layers.map fun l => match p.layers[l.1]? with | some y => (layerTiles y).map tileCh | none => []).flatten).eraseDups
  | none => []

def Dev.adpLoadCmd (s : Dev) (ctx slot : Nat) : Dev :=
  let a := s.adpOf ctx slot
  if a.state = 3 ∨ a.state = 2 ∨ s.oldHeld ctx slot then s.adpSta ctx slot Code.BUSY 0
  else if (s.patOf ctx).isNone then s.adpSta ctx slot Code.RANGE 0
  else (s.modAdp ctx slot fun a => { a with state := 3 }).adpSta ctx slot Code.PENDING 0

def Dev.adpCommitCmd (s : Dev) (ctx slot : Nat) : Dev :=
  let a := s.adpOf ctx slot
  match a.state, a.standby with
  | 2, some img =>
    let chs := s.adpChans ctx img
    (s.modAdp ctx slot fun a => { a with
      state := 1, gen := (a.gen + 1) % 65536, old := a.active, active := a.standby, standby := none, wait := chs,
      committing := true }).adpSta ctx slot Code.PENDING 0
  | _, _ => s.adpSta ctx slot Code.RANGE 0

def Dev.adpUnloadCmd (s : Dev) (ctx slot : Nat) : Dev :=
  if s.slotNamed ctx slot then s.adpSta ctx slot Code.BUSY 0
  else ((s.modCtx ctx fun c => { c with adps := c.adps.erase slot }).refitParts ctx).adpSta ctx slot Code.OK 0

/-- What the context's state makes of an adapter command (R255). -/
def Dev.adpGate (s : Dev) (ctx slot : Nat) (run : Dev → Dev) : Dev :=
  match s.ctxState ctx with
  | 1 => run s
  | 0 => s.adpSta ctx slot Code.RANGE 0
  | _ => s

/-- A write of ADP_CMD (R273). -/
def Dev.adpCommand (s : Dev) (ctx : Nat) (w : Word) : Dev :=
  let slot := fld w 5 0
  s.adpGate ctx slot fun s => match fld w 9 8 with
    | 1 => s.adpLoadCmd ctx slot
    | 2 => s.adpCommitCmd ctx slot
    | 3 => s.adpUnloadCmd ctx slot
    | _ => s.adpSta ctx slot Code.RANGE 0

/-- ADAPTER_LOAD_DONE: the image is in the standby buffer, or breaks a rule (R272, R273). One that does not fit the pattern a running swap brings
in is refused as one whose LAYER is wrong (DESIGN CHOICE: the swap's check 0x0E passed before it was there, R275). -/
def Dev.adpLoaded (s : Dev) (ctx slot : Nat) (h : HostView) : Dev :=
  let a := s.adpOf ctx slot
  match a.state, s.patOf ctx with
  | 3, some p =>
    let n := (s.rd .adpCx 0 ctx Off.ADP_SIZE).toNat
    match parseAdapter p (cutImage h (s.rd64 .adpCx 0 ctx Off.ADP_SRC / 4096 * 4096) n) n with
    | .inl img =>
      if (s.ctx ctx).newPat.all fun q => adapterFits p q img then
        ((s.modAdp ctx slot fun a => { a with state := 2, standby := some img }).refitParts ctx).adpSta ctx slot Code.OK 0
      else (s.modAdp ctx slot fun a => { a with state := if a.active.isSome then 1 else 0 }).adpSta ctx slot Code.REJECTED 0x03
    | .inr d => (s.modAdp ctx slot fun a => { a with state := if a.active.isSome then 1 else 0 }).adpSta ctx slot Code.REJECTED d
  | _, _ => s

/-- At a boundary a channel takes the active generation of every slot (R273). -/
def Dev.adpBoundary (s : Dev) (ch : Nat) : Dev :=
  s.ctxs.foldl (fun s c => c.2.adps.foldl (fun s e => s.modAdp c.1 e.1 fun a =>
    { a with genOn := modifyAt (fun _ => a.gen) ch a.genOn, wait := a.wait.filter fun x => x ≠ ch }) s) s

/-- The end of commits at a boundary: channels that are HALTED or in C2 are not waited for; an old buffer that no step pins any more
is freed (R273, R274). -/
def Dev.adpSettle (s : Dev) : Dev :=
  s.ctxs.foldl (fun s c => c.2.adps.foldl (fun s e =>
    let a := s.adpOf c.1 e.1
    let wait := a.wait.filter fun ch => s.fltState ch ≠ 2 && s.cstate ch ≠ 2
    let s := s.modAdp c.1 e.1 fun a => { a with wait := wait }
    let sta := s.rd .adpCx 0 c.1 Off.ADP_CMD_STA
    let s := if a.committing && wait.isEmpty then
        let s := (s.modAdp c.1 e.1 fun a => { a with committing := false }).bump .adpCx 0 c.1 Off.ADP_COMMIT 1
        -- the status shows the last command's slot only
        if fld sta 7 0 = Code.PENDING && fld sta 13 8 = e.1 then s.adpSta c.1 e.1 Code.OK 0 else s
      else s
    if a.old.isSome && wait.isEmpty && s.oldPins c.1 e.1 = 0 then (s.modAdp c.1 e.1 fun a => { a with old := none }).refitParts c.1 else s) s) s

/-! ### Tuning (R276) -/

/-- TUNING_BACKWARD_DONE: gradients and losses are written, and the entry ends DONE with a status-only record of code OK (R276). -/
def Dev.tuningDone (s : Dev) (r : Nat) (grads losses : List F32) : Dev :=
  match (s.seq r).step with
  | some st =>
    match st.kind with
    | .backward =>
      let a := s.ent r Ent.TUNE_PTR 8
      let words (l : List F32) : List Byte := (l.map fun x => toBytes 4 x.toNat).flatten
      let s := s.setBytes (s.peek (a + 0x20) 8) ((words grads).take (s.peek (a + 0x28) 4))
      let s := s.setBytes (s.peek (a + 0x30) 8) ((words losses).take (4 * s.ent r Ent.PROMPT_LEN 4))
      let s := s.modSeq r fun q => { q with step := none }
      (s.endSeq r 0 Code.OK false).closeRing r
    | _ => s
  | none => s

/-! ### Status words (R279, R280, R282) -/

def Dev.ldrCxView (s : Dev) (ctx o : Nat) : Option Word :=
  let c := s.ctx ctx
  if o = Off.LDR_CX_STA then
    let old := s.seqs.any fun e => e.2.ctx = ctx && match e.2.step with | some st => decide (st.epoch < s.epoch ctx) | none => false
    some (BitVec.ofNat 32 (c.pat.isSome.toNat + (c.load.swap && s.phase ctx ≠ Ph.NONE && s.phase ctx ≠ Ph.UNLOAD).toNat * 2
      + (s.phase ctx = Ph.UNLOAD : Bool).toNat * 4 + old.toNat * 8))
  else if o = Off.LDR_WAVE then
    some (BitVec.ofNat 32 (c.load.wavePos % 65536 + (match c.pat with | some p => p.layers.length | none => 0) * 65536))
  else if o = Off.LDR_TILES then
    some (BitVec.ofNat 32 ((s.tiles.filter fun e => e.2.ctx = some ctx).length
      + (match c.pat with | some p => (p.layers.filter fun l => l.spill).length | none => 0) * 65536))
  else none

def Dev.ldrChView (s : Dev) (ch o : Nat) : Option Word :=
  let ts := s.tiles.filter fun e => tileCh e.1 = ch
  if o = Off.LDR_CH_STA then
    some (BitVec.ofNat 32 (s.writersBusy ch + (ts.filter fun e => e.2.next = some .programming).length * 16))
  else if o = Off.LDR_WEAR_MAX then some (BitVec.ofNat 32 ((ts.map fun e => e.2.wear).foldl max 0))
  else if o = Off.LDR_WEAR90_N then some (BitVec.ofNat 32 (ts.filter fun e => e.2.wear ≥ 9000000).length)
  else none

def Dev.adpView (s : Dev) (ctx o : Nat) : Option Word :=
  if Off.ADP_SLOT ≤ o ∧ o < Off.ADP_SLOT + 256 then
    let k := (o - Off.ADP_SLOT) / 4
    let a := s.adpOf ctx k
    some (BitVec.ofNat 32 (a.gen + a.state * 2 ^ 16 + a.old.isSome.toNat * 2 ^ 18 + min 2048 (s.oldPins ctx k) * 2 ^ 19))
  else none

end Sys2Proof.Machine
end

