-- ==== Sys2Proof/Machine/Scratch.lean ====
section
/-! DEFINITION. Scratchpads (R300 to R320): issue and the scoreboard, the gather buffer, patterned reads, circular regions, and
the power-down of banks, pseudo-channels and ranks. A command's accesses start and complete together. -/

namespace Sys2Proof.Machine
open Sys2Proof

def Dev.spd (s : Dev) (c : Nat) : Spd := (s.core c).spd
def Dev.modSpd (s : Dev) (c : Nat) (f : Spd → Spd) : Dev := s.modCore c fun x => { x with spd := f x.spd }
def Dev.spdBump (s : Dev) (c o n : Nat) : Dev := s.bump .spd (c / 64) (c % 64) o n
def Dev.spdCh (s : Dev) (c o n : Nat) : Dev := s.bump .spdCh (c / 64) 0 o n

def spdBytes : Nat := 0x400000
/-- Bank and row of a scratchpad address (R300). -/
def bankOf (a : Nat) : Nat := a / 512 % 32
def rowOf (a : Nat) : Nat := a / 512
/-- Distinct rows that some bytes touch: bank accesses (R301). -/
def rowsOf (as : List Nat) : List Nat := (as.map rowOf).eraseDups

/-- Code of a requester as PROD and CONS name it (R320). -/
def reqCode : Requester → Nat
  | .dma => 0 | .acc => 1 | .fuller => 2 | .vector => 3 | .dae => 4 | .pounce => 5 | .latch => 6

def rgnZ (r : Region) : Nat := 512 * 2 ^ r.size

/-- Bytes of a contiguous range, in order. -/
def spanFrom (a n : Nat) : List Nat := (List.range n).map (a + ·)

/-- Bytes a request names, in the order they are returned; none where it may not be issued (R302, R308 to R310, R312). -/
def spdAddrs (rs : Store Region) (q : SpdReq) : Option (List Nat) :=
  match q.range with
  | .contiguous a n => if 0 < n && n ≤ 16384 && a + n ≤ spdBytes then some (spanFrom a n) else none
  | .transposed a p =>
    let ok := !q.write && a % 64 = 0 && p % 64 = 0 && 64 ≤ p && p ≤ 2 ^ 20 && a + 31 * p + 64 ≤ spdBytes
    if ok then some ((List.range 32).map fun j => ((List.range 32).map fun i => [a + i * p + 2 * j, a + i * p + 2 * j + 1]).flatten).flatten
    else none
  | .strided a e n st =>
    let ok := !q.write && [4, 8, 16, 32, 64].contains e && 1 ≤ n && n ≤ 512 && n * e ≤ 16384 && st % e = 0 && e ≤ st && st ≤ 2 ^ 20
      && a + (n - 1) * st + e ≤ spdBytes
    if ok then some ((List.range n).map fun k => spanFrom (a + k * st) e).flatten else none
  | .region g n =>
    let r := rs.get Region.fresh g.val
    let who := if q.write then r.prod else r.cons
    if r.valid && who = reqCode q.who && 0 < n && n % 4 = 0 && n ≤ rgnZ r && n ≤ 16384 then
      let at_ := if q.write then r.wIss else r.rIss
      some ((List.range n).map fun i => r.base * 512 + (at_ + i) % rgnZ r)
    else none

/-- A request of 4 to 64 bytes aligned to its size is narrow (R306). -/
def narrow (q : SpdReq) : Bool :=
  match q.range with
  | .contiguous a n => [4, 8, 16, 32, 64].contains n && a % n = 0
  | _ => false

/-- Scoreboard entries in use (R303, R306). -/
def sbUsed (p : Spd) : Nat := p.ents.length + p.gather.length

/-- Whether a region has room for a write, or data for a read (R312). -/
def regionReady (rs : Store Region) (q : SpdReq) : Bool :=
  match q.range with
  | .region g n =>
    let r := rs.get Region.fresh g.val
    let m := 2 * rgnZ r
    if q.write then (r.wIss + m - r.head) % m + n ≤ rgnZ r else n ≤ (r.tail + m - r.rIss) % m
  | _ => true

/-- Writes bytes of a core's scratchpad. -/
def Dev.putT0 (s : Dev) (c : Nat) (as : List Nat) (bs : List Byte) : Dev :=
  (as.zip bs).foldl (fun s e => { s with t0 := s.t0.set 0 (c * 2 ^ 22 + e.1) e.2 }) s

/-- Writes only the bytes a mask holds. -/
def Dev.putMasked (s : Dev) (c row : Nat) (m : Store (Option Byte)) : Dev :=
  m.foldl (fun s e => match e.2 with | some b => { s with t0 := s.t0.set 0 (c * 2 ^ 22 + row * 512 + e.1) b } | none => s) s

/-- An earlier request that holds a later one back: overlapping, and not both reads (R304). -/
def holdsBack (a b : SbEnt) : Bool := a.id < b.id && a.lo < b.hi && b.lo < a.hi && (a.req.write || b.req.write)

/-- The head or tail of a region advances when an access through it completes (R311). -/
def advanceRegion (p : Spd) (e : SbEnt) : Spd :=
  match e.rgn with
  | none => p
  | some g =>
    let f (r : Region) : Region :=
      let m := 2 * rgnZ r
      if e.req.write then { r with tail := (r.tail + e.rgnLen) % m } else { r with head := (r.head + e.rgnLen) % m }
    { p with regions := p.regions.set Region.fresh g (f (p.regions.get Region.fresh g)) }

/-- A request's accesses start and complete: data moves, the entry is released, a region's pointer advances (R301, R303, R311). -/
def Dev.runEntry (s : Dev) (c : Nat) (e : SbEnt) : Dev :=
  let s := if e.req.write then s.putT0 c e.addrs e.req.data
    else
      let d := e.addrs.map fun a => s.t0.get 0 (c * 2 ^ 22 + a)
      s.modSpd c fun p => { p with readOut := d }
  let s := s.modSpd c fun p => advanceRegion { p with ents := p.ents.filter fun x => decide (x.id ≠ e.id) } e
  let s := s.spdBump c Off.SPD_ACC (rowsOf e.addrs).length
  if e.req.write && e.req.who = .dma then s.modSpd c fun p => { p with dmaEnd := 0 } else s

/-- A gather slot is flushed by one masked row write, in its place in the issue order (R306): earlier reads of its row go first. -/
def Dev.flushSlot (s : Dev) (c : Nat) (g : GSlot) : Dev :=
  let lo := g.row * 512
  let before := (s.spd c).ents.filter fun x => x.id < g.id && x.lo < lo + 512 && lo < x.hi
  let s := (sortBy (fun a b => decide (a.id ≤ b.id)) before).foldl (fun s e => s.runEntry c e) s
  let s := s.modSpd c fun p => { p with gather := p.gather.filter fun x => decide (x.id ≠ g.id) }
  ((s.putMasked c g.row g.bytes).spdBump c Off.SPD_ACC 1).spdBump c Off.SPD_GFLUSH 1

/-- Wakes banks that a request is issued to (R314 step 6). -/
def Dev.wakeBanks (s : Dev) (c : Nat) (as : List Nat) : Dev :=
  let plank := (s.chan (c / 64)).plank
  (as.map bankOf).eraseDups.foldl (fun s b =>
    let s := if ((s.spd c).banks.get Pd.up b) ≠ Pd.up then
        (s.modSpd c fun p => { p with banks := p.banks.set Pd.up b Pd.up }).spdCh c Off.SPD_WAKE 1 else s
    s.modSpd c fun p => { p with used := p.used.set 0 b (plank + 1) }) s

/-- A narrow write joins a gather slot (R306). -/
def Dev.gatherWrite (s : Dev) (c : Nat) (as : List Nat) (data : List Byte) : Dev :=
  let row := rowOf (as.headD 0)
  let put (m : Store (Option Byte)) : Store (Option Byte) :=
    (as.zip data).foldl (fun (m : Store (Option Byte)) e => m.set none (e.1 % 512) (some e.2)) m
  let merge (s : Dev) : Dev := s.modSpd c fun p => { p with
    gather := p.gather.map fun g => if g.row = row then { g with bytes := put g.bytes } else g }
  let s := if (s.spd c).gather.any fun g => g.row = row then merge s
    else
      let s := match (s.spd c).gather with
        | g :: rest => if rest.length ≥ 3 then s.flushSlot c g else s
        | [] => s
      s.modSpd c fun p => { p with next := p.next + 1, gather := p.gather ++ [⟨p.next, row, put []⟩] }
  match (s.spd c).gather.find? fun g => g.row = row && g.bytes.length = 512 with
  | some g => s.flushSlot c g
  | none => s

/-- Takes a scoreboard entry for a request, or joins the gather buffer (R303, R306). Flushes slots it overlaps first. -/
def Dev.issueReq (s : Dev) (c : Nat) (q : SpdReq) (as : List Nat) : Dev :=
  let s := s.wakeBanks c as
  let rgn := match q.range with | .region g _ => some g.val | _ => none
  let lo := match rgn with | some g => ((s.spd c).regions.get Region.fresh g).base * 512 | none => (as.foldl min spdBytes) / 4 * 4
  let hi := match rgn with
    | some g => lo + rgnZ ((s.spd c).regions.get Region.fresh g)
    | none => ((as.foldl max 0) / 4 + 1) * 4
  let over_ := (s.spd c).gather.filter fun g => g.row * 512 < hi && lo < g.row * 512 + 512
  if q.write && narrow q then s.gatherWrite c as q.data
  else
    let s := over_.foldl (fun s g => s.flushSlot c g) s
    let e : SbEnt := ⟨(s.spd c).next, q, lo, hi, as, rgn, as.length⟩
    let move (r : Region) : Region :=
      if q.write then { r with wIss := (r.wIss + as.length) % (2 * rgnZ r) } else { r with rIss := (r.rIss + as.length) % (2 * rgnZ r) }
    let moved (rs : Store Region) : Store Region :=
      match rgn with
      | some g => rs.set Region.fresh g (move (rs.get Region.fresh g))
      | none => rs
    s.modSpd c fun p => { p with next := p.next + 1, ents := p.ents ++ [e], regions := moved p.regions }

/-- SPD_REQUEST_ISSUE: a request reaches the issue stage (R302 to R306, R310, R312). In a channel that is not NORMAL it is discarded, and
a DMA write ends with WITHDRAWN (R317, R378). -/
def Dev.spdIssue (s : Dev) (c : Nat) (q : SpdReq) : Dev :=
  let ch := c / 64
  if s.fltState ch ≠ 0 then
    if q.write && q.who = .dma then s.modSpd c fun p => { p with dmaEnd := 0x09 } else s
  else match spdAddrs (s.spd c).regions q with
    | none => s.raise ch 60
    | some as =>
      if !regionReady (s.spd c).regions q then
        s.modSpd c fun p => { p with rwait := p.rwait ++ [q] }
      else if 64 ≤ sbUsed (s.spd c) || !(s.spd c).wait.isEmpty then
        (s.modSpd c fun p => { p with wait := p.wait ++ [q] }).spdBump c Off.SPD_SBFULL 1
      else s.issueReq c q as

/-- Issues requests that an entry's release lets through, in order. -/
def Dev.issueWaiting (s : Dev) (c : Nat) : Nat → Dev
  | 0 => s
  | n + 1 =>
    match (s.spd c).wait with
    | q :: rest =>
      if 64 ≤ sbUsed (s.spd c) then s
      else
        let s := s.modSpd c fun p => { p with wait := rest }
        match spdAddrs (s.spd c).regions q with
        | some as => (s.issueReq c q as).issueWaiting c n
        | none => (s.raise (c / 64) 60).issueWaiting c n
    | [] => s

/-- SPD_ACCESS_START: a request that waits starts its accesses unless an earlier one holds it back (R301, R304, R305). -/
def Dev.spdStart (s : Dev) (c id : Nat) : Dev :=
  match (s.spd c).ents.find? (·.id = id) with
  | none => s
  | some e =>
    if (s.spd c).ents.any fun x => holdsBack x e then s.spdBump c Off.SPD_SBWAIT 1
    else (s.runEntry c e).issueWaiting c ((s.spd c).wait.length)

/-- GATHER_SLOT_TIMEOUT: a slot 64 cycles after its first write is flushed (R306). `k` counts the occupied slots, oldest first. -/
def Dev.gatherTimeout (s : Dev) (c k : Nat) : Dev :=
  match (s.spd c).gather[k]? with
  | some g => (s.flushSlot c g).issueWaiting c ((s.spd c).wait.length)
  | none => s

/-- REGION_ROOM_AVAILABLE: the requests that wait on a region have waited so many cycles, which count and fall on the core's slack, and the oldest
proceeds if the room or the data is there (R19, R312). -/
def Dev.regionRoom (s : Dev) (c g cycles : Nat) : Dev :=
  let names (q : SpdReq) : Bool := match q.range with | .region r _ => r.val = g | _ => false
  let n := ((s.spd c).rwait.filter names).length
  let s := if n = 0 then s else (s.spdBump c Off.SPD_RWAIT (n * cycles)).takeCore c (ceilDiv (cycles * 5) 8) none
  match (s.spd c).rwait.find? fun q => names q && regionReady (s.spd c).regions q with
  | none => s
  | some q => (s.modSpd c fun p => { p with rwait := p.rwait.erase q }).spdIssue c q

/-! ### Power-down (R314 to R316) -/

def Dev.bankPd (s : Dev) (c b : Nat) : Pd := (s.spd c).banks.get Pd.up b
def Dev.setBank (s : Dev) (c b : Nat) (p : Pd) : Dev := s.modSpd c fun x => { x with banks := x.banks.set Pd.up b p }
def Dev.unitPd (s : Dev) (ch u : Nat) : Pd := (s.chan ch).memPd.get Pd.up u
def Dev.setUnit (s : Dev) (ch u : Nat) (p : Pd) : Dev := s.modChan ch fun x => { x with memPd := x.memPd.set Pd.up u p }

/-- Whether the orderable number has a bank or unit: the L2 has half the packages, and so half the ranks, of the L4 (R1).
-- DESIGN CHOICE (two ranks a package: the spec names ranks and does not count them). -/
def PdTarget.there : PdTarget → Bool
  | .t2 _ rank => !Config.isL2 || rank.val < 8
  | _ => true

/-- Writes issued to a bank before position `t0` that are not complete. -/
def Dev.bankWrites (s : Dev) (c b t0 : Nat) : List SbEnt :=
  (s.spd c).ents.filter fun e => e.req.write && e.id < t0 && e.addrs.any fun a => bankOf a = b

/-- BANK_IDLE_EXPIRE: a bank unused for PD_IDLE planks, or an idle memory unit, receives a power-down request (R314, R315). -/
def Dev.pdRequest (s : Dev) : PdTarget → Dev
  | .bank core b =>
    let c := core.ix
    let ch := c / 64
    let idle := (s.chan ch).plank + 1 - (s.spd c).used.get 0 b.val
    if s.inForce .spdCh ch 0 Off.SPD_CH_CTL 0 0 = 1 ∧ s.bankPd c b.val = Pd.up ∧ max 1 (s.inForce .spdCh ch 0 Off.SPD_PDIDLE 7 0) ≤ idle
    then s.setBank c b.val (Pd.waiting (s.spd c).next) else s
  | .hbm ch pc =>
    if s.inForce .spdCh ch.val 0 Off.SPD_CH_CTL 1 1 = 1 ∧ s.unitPd ch.val pc.val = Pd.up
    then s.setUnit ch.val pc.val (Pd.waiting 0) else s
  | .t2 ch rank =>
    if PdTarget.there (.t2 ch rank) ∧ s.inForce .spdCh ch.val 0 Off.SPD_CH_CTL 1 1 = 1 ∧ s.unitPd ch.val (128 + rank.val) = Pd.up
    then s.setUnit ch.val (128 + rank.val) (Pd.waiting 0) else s

/-- BANK_WRITES_DRAINED: no earlier write is left, and the bank or unit powers down (R314 step 3). -/
def Dev.pdDrained (s : Dev) : PdTarget → Dev
  | .bank core b =>
    match s.bankPd core.ix b.val with
    | .waiting t0 =>
      if (s.bankWrites core.ix b.val t0).isEmpty then (s.setBank core.ix b.val Pd.down).spdCh core.ix Off.SPD_PDN 1 else s
    | _ => s
  | .hbm ch pc =>
    match s.unitPd ch.val pc.val with
    | .waiting _ => (s.setUnit ch.val pc.val Pd.down).bump .spdCh ch.val 0 Off.SPD_PDN 1
    | _ => s
  | .t2 ch rank =>
    match s.unitPd ch.val (128 + rank.val) with
    | .waiting _ =>
      if PdTarget.there (.t2 ch rank) then (s.setUnit ch.val (128 + rank.val) Pd.down).bump .spdCh ch.val 0 Off.SPD_PDN 1 else s
    | _ => s

/-- A memory unit powers down after its wait, and `n` writes that were still late are discarded (R315). -/
def Dev.unitExpired (s : Dev) (ch u ix n : Nat) : Dev :=
  let s := (s.setUnit ch u Pd.down).bump .spdCh ch 0 Off.SPD_PDN 1
  if n = 0 then s else (s.bump .spdCh ch 0 Off.SPD_DROP n).raise ch ix

/-- BANK_PD_WAIT_EXPIRE: writes that are still late are discarded with DROPPED, and the bank or unit powers down (R314 step 4, R315). -/
def Dev.pdExpired (s : Dev) (n : Nat) : PdTarget → Dev
  | .bank core b =>
    let c := core.ix
    match s.bankPd c b.val with
    | .waiting t0 =>
      let late := s.bankWrites c b.val t0
      let s := s.modSpd c fun p => { p with
        ents := p.ents.filter fun e => !late.any fun x => x.id = e.id
        dmaEnd := if late.any fun e => e.req.who = .dma then 0x0E else p.dmaEnd }
      let s := (s.setBank c b.val Pd.down).spdCh c Off.SPD_PDN 1
      let s := if late.isEmpty then s else (s.spdCh c Off.SPD_DROP late.length).raise (c / 64) 57
      s.issueWaiting c ((s.spd c).wait.length)
    | _ => s
  | .hbm ch pc =>
    match s.unitPd ch.val pc.val with
    | .waiting _ => s.unitExpired ch.val pc.val 58 n
    | _ => s
  | .t2 ch rank =>
    match s.unitPd ch.val (128 + rank.val) with
    | .waiting _ =>
      if PdTarget.there (.t2 ch rank) then s.unitExpired ch.val (128 + rank.val) 59 n else s
    | _ => s

/-- An access to a device address wakes its unit (R314 step 6, R315). -/
def Dev.wakeUnit (s : Dev) (ch a : Nat) : Dev :=
  if (s.chan ch).memPd.isEmpty then s
  else
    let u := Config.memUnit a
    if s.unitPd ch u ≠ Pd.up then (s.setUnit ch u Pd.up).bump .spdCh ch 0 Off.SPD_WAKE 1 else s

/-- Entry to CONTAINED: requests, gather slots and region pointers go, DMA writes end with WITHDRAWN; bytes stay (R317). -/
def Dev.dropScratch (s : Dev) (ch : Nat) : Dev :=
  { s with cores := s.cores.mapV Core.fresh fun c x =>
      if c / 64 = ch then
        let dma := x.spd.ents.any (fun e => e.req.write && e.req.who = .dma)
        { x with spd := { x.spd with
            ents := [], gather := [], wait := [], rwait := []
            dmaEnd := if dma then 0x09 else x.spd.dmaEnd
            regions := x.spd.regions.mapV Region.fresh fun _ r => { r with head := 0, tail := 0, wIss := 0, rIss := 0 } } }
      else x }

/-- The plan defines and frees regions at a boundary; a region that is not empty is not freed (R311, R313). -/
def Dev.defineRegion (s : Dev) (d : RegionDef) : Dev :=
  let g := d.rgn.val
  let r : Region := ⟨true, d.base.val, d.size.val, d.prod.val, d.cons.val, d.ctx.val, 0, 0, 0, 0⟩
  s.modSpd d.core.ix fun p =>
    if (p.regions.get Region.fresh g).valid then p else { p with regions := p.regions.set Region.fresh g r }
def Dev.freeRegion (s : Dev) (c g : Nat) : Dev :=
  s.modSpd c fun p =>
    let r := p.regions.get Region.fresh g
    if r.head = r.tail && r.wIss = r.tail && r.rIss = r.head then { p with regions := p.regions.set Region.fresh g Region.fresh } else p

/-- Status words of an SPD page (R320). -/
def Dev.spdView (s : Dev) (c o : Nat) : Option Word :=
  let p := s.spd c
  let rg (i : Nat) : Region := p.regions.get Region.fresh i
  let w (n : Nat) : Option Word := some (BitVec.ofNat 32 n)
  let down (b : Nat) : Bool := p.banks.get Pd.up b = Pd.down
  let bits (n : Nat) (f : Nat → Bool) : Nat := ((List.range n).map fun i => (f i).toNat * 2 ^ i).sum
  if o = Off.SPD_STA then w (sbUsed p % 128 + p.gather.length * 2 ^ 7 + (p.banks.filter fun e => e.2 = Pd.down).length * 2 ^ 10)
  else if o = Off.SPD_BANKPD then w (bits 32 down)
  else if o = Off.SPD_RGN then w (bits 32 fun i => (rg i).valid)
  else if o = Off.SPD_RGN + 4 then w (bits 32 fun i => (rg (i + 32)).valid)
  else if 0x400 ≤ o ∧ o < 0x500 then
    let r := rg ((o - 0x400) / 4)
    w (r.base + r.size * 2 ^ 13 + r.prod * 2 ^ 17 + r.cons * 2 ^ 20 + r.valid.toNat * 2 ^ 23 + r.ctx * 2 ^ 24)
  else if 0x500 ≤ o ∧ o < 0x600 then w (rg ((o - 0x500) / 4)).head
  else if 0x600 ≤ o ∧ o < 0x700 then w (rg ((o - 0x600) / 4)).tail
  else none

end Sys2Proof.Machine
end

