-- ==== Sys2Proof/Machine/Sync.lean ====
section
/-! DEFINITION. Sync objects (R321 to R331), virtual IDs and their commands (R323 to R325, R342), waits (R326, R327), remote signals
and the hold (R332 to R337), and containment (R339). -/

namespace Sys2Proof.Machine
open Sys2Proof

def Dev.sync (s : Dev) (ch : Nat) : Sync := (s.chan ch).sync
def Dev.modSync (s : Dev) (ch : Nat) (f : Sync → Sync) : Dev := s.modChan ch fun c => { c with sync := f c.sync }
def Dev.obj (s : Dev) (ch o : Nat) : SyObj := (s.sync ch).objs.get SyObj.fresh o
def Dev.modObj (s : Dev) (ch o : Nat) (f : SyObj → SyObj) : Dev :=
  s.modSync ch fun x => { x with objs := x.objs.set SyObj.fresh o (f (x.objs.get SyObj.fresh o)) }
def mapKey (ctx vid : Nat) : Nat := ctx * 4096 + vid
def Dev.mapOf (s : Dev) (ch ctx vid : Nat) : Option SyMap := (s.sync ch).maps.get none (mapKey ctx vid)
def Dev.syBump (s : Dev) (ch o n : Nat) : Dev := s.bump .synCh ch 0 o n

/-- A step that failed for a collective or a remote leaf is abandoned and planned again; more than three such failures within 1 s end
the sequence with the failing code (R391). -/
def Dev.stepFail (s : Dev) (r code : Nat) : Dev :=
  if !s.live r then s
  else
    let now := s.chMs (entCh r)
    let fails := now :: (s.seq r).failMs.filter fun t => decide (now < t + 1000)
    let s := (s.abandon r).modSeq r fun q => { q with failMs := fails }
    if fails.length > 3 then s.failSeq r code else s

/-- What a failed wait does to the work that waited (R327, R330, R391). -/
def Dev.failWait (s : Dev) (code : Nat) (w : SyWait) : Dev :=
  match w.seq with
  | none => s
  | some r =>
    if !s.live r.ix then s
    else if code = Code.LINK ∨ code = Code.WITHDRAWN ∨ code = Code.REJECTED then s.stepFail r.ix code
    else (s.abandon r.ix).failSeq r.ix code

/-- An object enters BROKEN with a code: counted, and every waiter returns at once (R330, R331). -/
def Dev.breakObj (s : Dev) (ch o code : Nat) : Dev :=
  let b := s.obj ch o
  let s := s.modObj ch o fun x => { x with state := 2, code := code, waits := [] }
  let s := s.syBump ch Off.SYN_BROKEN 1
  let s := if o ≥ 16384 then s.bump .synCx ch b.ctx Off.SYN_CX_BROKEN 1 else s
  (b.waits.filter fun w => !w.met).foldl (fun s w => s.failWait code w) s

/-- ARM: COUNT 0 and TARGET; signals held for an armed object go (R322). -/
def Dev.armObj (s : Dev) (ch o target ctx : Nat) : Dev :=
  let armed := (s.obj ch o).state = 1
  let s := if armed then s.modSync ch fun x => { x with held := x.held.filter fun h => decide (h.obj ≠ o) } else s
  s.modObj ch o fun x => { x with
    state := 1, count := 0, target := max 1 target % 2 ^ 24, code := 0, ctx := ctx, waits := x.waits.filter fun w => !w.met }

/-- An object returns to FREE; its waits go with the work that held them (R322). -/
def Dev.freeObj (s : Dev) (ch o : Nat) : Dev := s.modObj ch o fun x => { x with state := 0, count := 0, target := 0, code := 0, waits := [] }

/-- Satisfies the waits that COUNT has reached (R326). -/
def Dev.meetWaits (s : Dev) (ch o : Nat) : Dev :=
  s.modObj ch o fun x => { x with waits := x.waits.map fun w => if w.threshold ≤ x.count then { w with met := true } else w }

/-- A signal or consume reaches an object: applied, discarded, or the object breaks; answers whether it was applied (R326, R329, R330). -/
def Dev.applySig (s : Dev) (ch o : Nat) (consume : Bool) (value : Nat) : Dev × Bool :=
  let x := s.obj ch o
  if x.state ≠ 1 then (s.syBump ch Off.SYN_DISC 1, false)
  else if consume && decide (x.count < value) then ((s.breakObj ch o Code.RANGE).raise ch 63, false)
  else if !consume && decide (x.target < x.count + value) then ((s.breakObj ch o Code.RANGE).raise ch 64, false)
  else
    let s := s.modObj ch o fun y => { y with count := if consume then y.count - value else y.count + value }
    ((s.syBump ch Off.SYN_SIG 1).meetWaits ch o, true)

/-- A signal of a context that does not own the object is blocked (R332). -/
def Dev.blockSig (s : Dev) (ch ctx node dstCtx : Nat) : Dev :=
  let s := (s.syBump ch Off.SYN_TENANT 1).bump .synCx ch dstCtx Off.SYN_CX_TENANT 1
  s.raiseAt ch 66 false .none [ctx, node % 256, node / 256]

/-- ENGINE_SIGNAL: an engine's operation on an object, or a wait (R322, R326, R328 to R332). Waits of a contained channel are not taken. -/
def Dev.engineOp (s : Dev) (ch o ctx : Nat) (op : SyncOp) : Dev :=
  let x := s.obj ch o
  let own := (s.node).getD 0
  match op with
  | .arm target => if o < 16384 ∨ x.ctx = ctx then s.armObj ch o target ctx else s.blockSig ch ctx own x.ctx
  | .signal v => if x.state ≠ 0 ∧ x.ctx ≠ ctx then s.blockSig ch ctx own x.ctx else (s.applySig ch o false v).1
  | .consume v => if x.state ≠ 0 ∧ x.ctx ≠ ctx then s.blockSig ch ctx own x.ctx else (s.applySig ch o true v).1
  | .wait t who seq =>
    let w : SyWait := ⟨who, t, seq, false, (s.chan ch).plank + max 1 (s.inForce .synCh ch 0 Off.SYN_WAITMAX 23 0)⟩
    if s.fltState ch ≠ 0 then s
    else if x.state = 2 then s.failWait x.code w
    else (s.modObj ch o fun y => { y with waits := y.waits ++ [{ w with met := decide (y.state = 1 ∧ t ≤ y.count) }] })

/-! ### Host commands (R324, R325, R342) -/

/-- The result word of SYN_CX_CMD_STA. -/
def Dev.synSta (s : Dev) (ch ctx vid code : Nat) : Dev :=
  s.wr .synCx ch ctx Off.SYN_CX_CMD_STA (BitVec.ofNat 32 (code + vid * 256))

/-- The lowest physical object from 16,384 on that no entry maps. -/
def Dev.freePhys (s : Dev) (ch : Nat) : Option Nat :=
  let used := (s.sync ch).maps.filterMap fun e => e.2.map (·.obj)
  let o := ((List.range (used.length + 1)).map (16384 + ·)).find? fun o => !used.contains o
  o.filter fun o => decide (o < 65536)

def Dev.synMap (s : Dev) (ch ctx vid : Nat) : Dev :=
  let peer := s.rd .synCx ch ctx Off.SYN_CX_PEER
  let put (o : Nat) (s : Dev) : Dev := s.modSync ch fun x => { x with maps := x.maps.set none (mapKey ctx vid) (some ⟨o, peer⟩) }
  match s.mapOf ch ctx vid with
  | some m => (put m.obj s).synSta ch ctx vid Code.OK
  | none =>
    match s.freePhys ch with
    | none => s.synSta ch ctx vid Code.NOSPACE
    | some o => ((put o s).modObj ch o fun _ => { SyObj.fresh with ctx := ctx }).synSta ch ctx vid Code.OK

/-- Removes a mapping: the object returns to the pool, and signals held for it go. -/
def Dev.dropMap (s : Dev) (ch ctx vid : Nat) : Dev :=
  match s.mapOf ch ctx vid with
  | none => s
  | some m =>
    let s := s.modSync ch fun x => { x with
      maps := x.maps.set none (mapKey ctx vid) none, held := x.held.filter fun h => decide (h.obj ≠ m.obj) }
    s.modObj ch m.obj fun _ => SyObj.fresh

def Dev.synUnmap (s : Dev) (ch ctx vid : Nat) : Dev :=
  match s.mapOf ch ctx vid with
  | none => s.synSta ch ctx vid Code.RANGE
  | some m =>
    let x := s.obj ch m.obj
    if x.state = 1 && x.waits.any fun w => !w.met then s.synSta ch ctx vid Code.BUSY
    else (s.dropMap ch ctx vid).synSta ch ctx vid Code.OK

/-- A host command reaches the object of a host ID: RANGE for a pattern ID, an unmapped ID or a zero amount (R324, R329). -/
def Dev.synOp (s : Dev) (ch ctx vid cmd value : Nat) : Dev :=
  match s.mapOf ch ctx vid with
  | none => s.synSta ch ctx vid Code.RANGE
  | some m =>
    if vid < 1024 then s.synSta ch ctx vid Code.RANGE
    else if cmd = 3 then
      (s.armObj ch m.obj (max 1 (s.rdF .synCx ch ctx Off.SYN_CX_TARGET 23 0)) ctx).synSta ch ctx vid Code.OK
    else if value = 0 then s.synSta ch ctx vid Code.RANGE
    else
      let (s', ok) := s.applySig ch m.obj (cmd = 5) value
      if ok then (s'.bump .synCx ch ctx Off.SYN_CX_SIG 1).synSta ch ctx vid Code.OK else s'.synSta ch ctx vid Code.RANGE

/-- A write of SYN_CX_CMD (R342). -/
def Dev.synCommand (s : Dev) (ch ctx : Nat) (w : Word) : Dev :=
  let vid := fld w 11 0
  match fld w 14 12 with
  | 1 => s.synMap ch ctx vid
  | 2 => s.synUnmap ch ctx vid
  | 3 => s.synOp ch ctx vid 3 1
  | 4 => s.synOp ch ctx vid 4 (fld w 31 16)
  | 5 => s.synOp ch ctx vid 5 (fld w 31 16)
  | _ => s.synSta ch ctx vid Code.RANGE

/-! ### Remote signals (R332 to R337) -/

def arrKey (node ch stream : Nat) : Nat := (node * 8 + ch) * 65536 + stream % 65536

/-- Whether every byte up to MARK has arrived (R335). -/
def Dev.covered (s : Dev) (ch : Nat) (g : RemoteSignal) : Bool :=
  let a := ((s.fab ch).arrived.get Arrived.fresh (arrKey g.srcNode.val g.srcCh.val g.stream)).prefix_
  (a + 2 ^ 48 - g.mark % 2 ^ 48) % 2 ^ 48 < 2 ^ 47

/-- Whether a translation entry admits a signal's source (R333). -/
def peerOk (m : SyMap) (g : RemoteSignal) : Bool :=
  bit m.peer 24 && fld m.peer 14 0 = g.srcNode.val && fld m.peer 17 15 = g.srcCh.val && fld m.peer 23 18 = g.srcCtx.val

/-- SIG_HOLD_TIMEOUT in force, in ns. -/
def Dev.holdNs (s : Dev) (ch : Nat) : Nat := max 1 (s.inForce .synCh ch 0 Off.SYN_HOLD 11 0) * 1000

def Dev.heldFor (s : Dev) (ch o : Nat) : Nat := ((s.sync ch).held.filter fun h => h.obj = o).length

def Dev.holdSig (s : Dev) (ch o : Nat) (g : RemoteSignal) : Dev :=
  (s.modSync ch fun x => { x with nextHeld := x.nextHeld + 1, held := x.held ++ [⟨g, o, x.nextHeld⟩] }).syBump ch Off.SYN_HELDN 1

/-- SIGNAL_HOLD_TIMEOUT: an object with a held signal whose time has run out breaks with LINK (R336). -/
def Dev.holdTimeout (s : Dev) (ch o : Nat) : Dev :=
  if s.heldFor ch o = 0 then s
  else
    let s := s.modSync ch fun x => { x with held := x.held.filter fun h => decide (h.obj ≠ o) }
    (((s.syBump ch Off.SYN_HOLDTO 1).breakObj ch o Code.LINK)).raise ch 65

/-- The sender's resend timer: a refused signal goes out again every 1 µs, or ends with LINK once SIG_HOLD_TIMEOUT has passed since
its first sending (R335). -/
def Dev.resendSig (s : Dev) (ch id : Nat) : Dev :=
  match (s.sync ch).sent.find? fun x => x.id = id && x.refused with
  | none => s
  | some x =>
    if (s.chan ch).time ≥ x.since + s.holdNs ch then
      let s := s.modSync ch fun y => { y with sent := y.sent.filter fun z => decide (z.id ≠ id) }
      match x.seq with | some r => s.stepFail r.ix Code.LINK | none => s
    else
      let s := s.modSync ch fun y => { y with sent := y.sent.map fun z => if z.id = id then { z with refused := false } else z }
      (s.sendStream ch x.node x.sig.dstCh.val x.sig.stream (.signal x.node x.sig)).getD s

/-! ### Containment and tear-down -/

/-- Entry to CONTAINED or HALTED: held signals go, plan objects are FREE, and ARMED host and pattern IDs break with WITHDRAWN (R339).
Their waiters' work is restarted with the channel. -/
def Dev.dropSync (s : Dev) (ch : Nat) : Dev :=
  let armed := (s.sync ch).objs.filter fun e => e.2.state = 1 && decide (16384 ≤ e.1)
  let s := s.modSync ch fun x => { x with
    held := [], sent := []
    objs := x.objs.mapV SyObj.fresh fun o y =>
      if o < 16384 then { y with state := 0, count := 0, target := 0, code := 0, waits := [] }
      else if y.state = 1 then { y with state := 2, code := Code.WITHDRAWN, waits := [] } else { y with waits := [] } }
  let s := s.syBump ch Off.SYN_BROKEN armed.length
  armed.foldl (fun s e => s.bump .synCx ch e.2.ctx Off.SYN_CX_BROKEN 1) s

/-- Removes every mapping of a context in a channel (R325, R449). -/
def Dev.dropMaps (s : Dev) (ch ctx : Nat) : Dev :=
  (((s.sync ch).maps.map (·.1)).filter fun k => k / 4096 = ctx).foldl (fun s k => s.dropMap ch ctx (k % 4096)) s

/-- The plan arms and frees its objects at a boundary (R322, R324). A step whose pattern ID is not mapped ends with RANGE. -/
def Dev.planArm (s : Dev) (a : PlanArm) : Dev :=
  match a.obj with
  | some o => s.armObj a.ch.val o.val a.target a.ctx.val
  | none =>
    match s.mapOf a.ch.val a.ctx.val a.vid.val with
    | some m => s.armObj a.ch.val m.obj a.target a.ctx.val
    | none => match a.seq with | some r => if s.live r.ix then (s.abandon r.ix).failSeq r.ix Code.RANGE else s | none => s

/-- Status words of a SYN_CH page (R341). -/
def Dev.synView (s : Dev) (ch o : Nat) : Option Word :=
  let x := s.sync ch
  if o = Off.SYN_STA then some (BitVec.ofNat 32 ((x.objs.filter fun e => e.2.state = 1).length + x.held.length * 2 ^ 17)) else none

/-- Status words of a SYN_CX page (R342). -/
def Dev.synCxView (s : Dev) (ch ctx o : Nat) : Option Word :=
  let m := s.mapOf ch ctx (s.rdF .synCx ch ctx Off.SYN_CX_QSEL 11 0)
  let w (n : Nat) : Option Word := some (BitVec.ofNat 32 n)
  if o = Off.SYN_CX_QSTA then
    match m with
    | none => w 0
    | some m =>
      let b := s.obj ch m.obj
      w (b.state + 4 + (bit m.peer 24).toNat * 8 + b.code * 16 + s.heldFor ch m.obj * 2 ^ 12)
  else if o = Off.SYN_CX_QCNT then w (match m with | some m => (s.obj ch m.obj).count | none => 0)
  else if o = Off.SYN_CX_MAPPED then w ((s.sync ch).maps.filter fun e => e.1 / 4096 = ctx).length
  else none

end Sys2Proof.Machine
end

