-- ==== Sys2Proof/Machine/Contexts.lean ====
section
/-! DEFINITION. Contexts and their functions (R447 to R449): creation, what puts a context into CLEANING, the cleaning at the first
boundary, and its end. -/

namespace Sys2Proof.Machine
open Sys2Proof

/-- HUB_CX_FN.FN_EN: PF0 always, VFn while NumVFs is at least n (R447, R452). -/
def Dev.fnEnabled (s : Dev) (n : Nat) : Bool := n = 0 || n ≤ s.numVfs

def Dev.cxState (s : Dev) (n st : Nat) : Dev := s.wrF .hubCx 0 n Off.HUB_CX_STA 1 0 st
def Dev.cxSta (s : Dev) (n code : Nat) : Dev := s.wrF .hubCx 0 n Off.HUB_CX_STA 15 8 code
def Dev.cxDone (s : Dev) (n mask : Nat) : Dev := s.wrF .hubCx 0 n Off.HUB_CX_STA 23 16 mask

/-- Frames of a staging area of STG_SIZE × 4 KiB. -/
def Dev.stagingFrames (s : Dev) (n : Nat) : Nat := ceilDiv (s.rdF .hubCx 0 n Off.HUB_CX_CFG 16 0 * 4096) frameBytes

/-- Whether every channel has the T1 for a context's staging area (R448). -/
def Dev.stagingFits (s : Dev) (n : Nat) : Bool := allCh.all fun ch => s.rangeFits ch.val (s.stagingFrames n)

/-- Allocates a context's staging area on a channel, written with zeros. -/
def Dev.takeStaging (s : Dev) (ch n : Nat) : Dev :=
  let k := s.stagingFrames n
  let a := pickRange (s.memOf ch) k
  (s.zero (tierBase ch 1 + a * frameBytes) (k * frameBytes)).modMem ch fun m => { m with ranges := m.ranges ++ [⟨a, k, n, true⟩] }

/-- Writes zeros over a context's staging area on a channel and frees it (R449). -/
def Dev.freeStaging (s : Dev) (ch n : Nat) : Dev :=
  let gs := (s.memOf ch).ranges.filter fun g => g.ctx = n && g.staging
  let s := gs.foldl (fun s g => s.zero (tierBase ch 1 + g.first * frameBytes) (g.n * frameBytes)) s
  s.modMem ch fun m => { m with ranges := m.ranges.filter fun g => !(g.ctx = n && g.staging) }

/-- Takes the staging areas of every channel. -/
def Dev.takeStagings (s : Dev) (n : Nat) : Dev := allCh.foldl (fun s ch => s.takeStaging ch.val n) s

/-- HUB_CX_CREATE: RANGE, BUSY or NOSPACE, else PENDING while the staging areas are written with zeros (R448). -/
def Dev.cxCreate (s : Dev) (n : Nat) : Dev :=
  if !s.fnEnabled n ∨ s.rdF .hubCx 0 n Off.HUB_CX_CFG 16 0 = 0 then s.cxSta n Code.RANGE
  else if s.ctxState n ≠ 0 ∨ (s.ctx n).creating then s.cxSta n Code.BUSY
  else if !s.stagingFits n then s.cxSta n Code.NOSPACE
  else ((s.takeStagings n).modCtx n fun c => { c with creating := true }).cxDone n 0 |>.cxSta n Code.PENDING

/-- The context becomes ACTIVE, and the creation is counted (R448, R452). -/
def Dev.cxActive (s : Dev) (n : Nat) : Dev :=
  ((((s.modCtx n fun c => { c with creating := false }).cxState n 1).cxDone n 0xFF).cxSta n Code.OK).bump .hubCx 0 n Off.HUB_CX_CREATE 1

/-- CREATE_DONE: the staging area is zeroed in every channel (R448). -/
def Dev.createDone (s : Dev) (n : Nat) : Dev := if (s.ctx n).creating then s.cxActive n else s

/-- A context enters CLEANING (R449); one that does not exist has nothing to clean. -/
def Dev.cxClean (s : Dev) (n : Nat) (why : CleanWhy) : Dev :=
  if s.ctxState n = 2 then (if why = .flr then s else s.modCtx n fun c => { c with cleaning := why })
  else if s.ctxState n = 0 ∧ !(s.ctx n).creating then s
  else ((s.modCtx n fun c => { c with cleaning := why, creating := false, dmaOff := false }).cxState n 2).cxDone n 0

/-- HUB_CX_DESTROY: RANGE while NONE; BUSY while CLEANING, which then ends in NONE (R452). -/
def Dev.cxDestroy (s : Dev) (n : Nat) : Dev :=
  match s.ctxState n with
  | 0 => s.cxSta n Code.RANGE
  | 2 => (s.cxClean n .destroy).cxSta n Code.BUSY
  | _ => (s.cxClean n .destroy).cxSta n Code.PENDING

/-- HUB_CX_CMD (R452). -/
def Dev.hubCxCmd (s : Dev) (n : Nat) (w : Word) : Dev :=
  match fld w 1 0 with
  | 1 => s.cxCreate n
  | 2 => s.cxDestroy n
  | _ => s.cxSta n Code.RANGE

/-- Contexts 1 to 63 whose VF is not enabled enter CLEANING. -/
def Dev.cleanDisabled (s : Dev) (why : CleanWhy) : Dev :=
  (List.range 64).foldl (fun s n => if s.fnEnabled n then s else s.cxClean n why) s

/-- FUNCTION_LEVEL_RESET of a function; one of PF0 clears VF Enable, so every context enters CLEANING (R449). -/
def Dev.flr (s : Dev) (n : Nat) : Dev :=
  if !s.fnEnabled n then s
  else
    let s := (s.bump .hubCx 0 n Off.HUB_CX_FLR 1).modCtx n fun c => { c with d3 := false }
    let s := s.cxClean n .flr
    if n = 0 then ({ s with numVfs := 0 }).cleanDisabled .flr else s

/-- VF_DISABLE: NumVFs falls, or VF Enable is cleared (R447, R449). -/
def Dev.vfDisable (s : Dev) (num : Nat) : Dev :=
  if s.numVfs ≤ num then s else ({ s with numVfs := num }).cleanDisabled .vfOff

/-- VF_ENABLE, refused when the hub firmware failed verification, and not answered before the hub is ready (R447, R472). -/
def Dev.vfEnable (s : Dev) (num : Nat) : Dev :=
  if !s.hubReady then (s.bump .hub 0 0 Off.HUB_RRS 1).emit (.retryStatus 0)
  else if s.rdF .pwrMod 0 0 Off.PWR_MOD_STA 3 3 = 1 then s.emit (.configOk 0 false)
  else ({ s with numVfs := max s.numVfs num }).emit (.configOk 0 true)

/-! ### Cleaning (R449) -/

/-- An entry of a cleaned context returns to FREE: its step, pages, log, hood and fields go; the admission count and SEQ_TAG stay (R189,
R466). -/
def Dev.clearEntry (s : Dev) (r : Nat) : Dev :=
  let s := (s.abandon r).freeAll r
  let adm := (s.seq r).adm
  let tag := s.ent r Ent.SEQ_TAG 8
  let s := { s with rqt := s.rqt.drop (r * 128) (r * 128 + 128), dlv := s.dlv.erase r }
  let s := (s.setEnt r Ent.SEQ_TAG 8 tag).modSeq r fun _ => { Seq.fresh with adm := adm }
  { s with hubGroups := s.hubGroups.filter fun g => g.seq.ix ≠ r }

/-- What the engines of a channel do for a context ends. -/
def Dev.stopCtxWork (s : Dev) (ch n : Nat) : Dev :=
  let mine (q : SeqRef) : Bool := (s.seq q.ix).ctx = n
  let item (d : Option AttnRun) : Option AttnRun := d.filter fun r => !mine r.item.seq
  { s with
    tiles := s.tiles.mapV' Tile.reset fun k t => if tileCh k = ch && t.ctx = some n then { t with mvms := [], reread := [] } else t
    cores := s.cores.mapV Core.fresh fun c x => if c / 64 = ch then
      { x with
        execs := x.execs.filter (·.ctx ≠ n), dae := item x.dae
        nodes := x.nodes.filter fun e => match e.1 with
          | .attn q .. => !mine q
          | k => decide (keyCtx k ≠ some n)
        groups := x.groups.mapV Group.fresh fun _ g =>
          if g.ctx = n then { g with state := .free, leaves := [], result := [] } else g } else x
    clusters := s.clusters.mapV Cluster.fresh fun c x => if c / 8 = ch then
      { x with pae := if (item x.pae.run).isSome || x.pae.run.isNone && x.pae.ctx ≠ n then x.pae else Pae.fresh } else x }

/-- Drops the registers of a page, which return to their reset values with DEFAULTED set (R466, R467). -/
def Dev.dropPage (s : Dev) (k : PageKind) (ch inst : Nat) : Dev :=
  let a := Page.base ⟨k, ch, inst⟩
  { s with regs := s.regs.drop a (a + 0x1000), eff := s.eff.drop a (a + 0x1000) }

/-- The cleaning of a context in one channel. -/
def Dev.cleanCh (s : Dev) (n ch : Nat) : Dev :=
  let s := s.stopCtxWork ch n
  let rs := (s.entries ch).filter fun r => s.partOwner ch (entIx r) = some n || s.live r && (s.seq r).ctx = n
  let s := rs.foldl (fun s r => s.clearEntry r) s
  let s := (s.dropMaps ch n).freeStaging ch n
  (((s.dropPage .rqtCx ch n).dropPage .kvpCx ch n).dropPage .synCx ch n).fitLeaves ch

/-- The first boundary after a context entered CLEANING: its function's DMA stops, and everything it holds goes (R449, R466). -/
def Dev.cleanBoundary (s : Dev) (n : Nat) : Dev :=
  if s.ctxState n ≠ 2 ∨ (s.ctx n).dmaOff then s
  else
    let s := s.modCtx n fun c => { c with dmaOff := true }
    let s := (List.range 8).foldl (fun s ch => s.cleanCh n ch) s
    let s := s.freePattern n
    let s := s.modCtx n fun c => { Ctx.fresh with cleaning := c.cleaning, dmaOff := true, d3 := c.d3 }
    ((s.dropPage .ldrCx 0 n).dropPage .adpCx 0 n).dropPage .plcCx 0 n

/-- CONTEXT_CLEANING_DONE: the context is NONE, or is created again where a Function Level Reset left its function enabled (R449). -/
def Dev.cleaningDone (s : Dev) (n : Nat) : Dev :=
  let c := s.ctx n
  if s.ctxState n ≠ 2 ∨ !c.dmaOff then s
  else
    let s := ((s.modCtx n fun c => { c with cleaning := .none, dmaOff := false }).cxState n 0).cxDone n 0xFF
    match c.cleaning with
    | .flr =>
      if !s.fnEnabled n then s
      else if !s.stagingFits n then s.cxSta n Code.NOSPACE
      else (s.takeStagings n).cxActive n
    | .destroy => if s.rdF .hubCx 0 n Off.HUB_CX_STA 15 8 = Code.PENDING then s.cxSta n Code.OK else s
    | _ => s

/-- FUNCTION_D3HOT: in D3hot a function's DMA stops (R432). -/
def Dev.d3hot (s : Dev) (n : Nat) (d3 : Bool) : Dev :=
  if s.fnEnabled n then s.modCtx n fun c => { c with d3 := d3 } else s

/-- Status words of a HUB_CX page (R452). -/
def Dev.hubCxView (s : Dev) (n o : Nat) : Option Word :=
  if o = Off.HUB_CX_FN then
    some (BitVec.ofNat 32 ((Config.pf0Rid + n) % 65536 + (s.fnEnabled n).toNat * 65536))
  else none

end Sys2Proof.Machine
end

