-- ==== Sys2Proof/Machine/Fabric.lean ====
section
/-! DEFINITION. What the fabric brings: flits (R348), WRITEs and READs in lent ranges (R350 to R354), forwarding (R355), refusals,
NOTREADY (R358), remote signals (R335), and collectives with their checks (R359 to R362). -/

namespace Sys2Proof.Machine
open Sys2Proof

/-- CRC-64, ECMA-182 polynomial, initial value 0, no reflection, no final XOR (R360). -/
def crc64 (bs : List Byte) : Nat :=
  bs.foldl (fun c b =>
    (List.range 8).foldl (fun c _ => if c ≥ 2 ^ 63 then (c * 2 % 2 ^ 64) ^^^ 0x42F0E1EBA9EA3693 else c * 2)
      (c ^^^ (b.toNat * 2 ^ 56))) 0

/-- FLIT_RECEIVE: a flit is checked, acknowledged or NAKed, and what it returns is taken; its codewords count (R344, R347 to R349, R370). -/
def Dev.flitIn (s : Dev) (ch p : Nat) (f : Flit) : Dev :=
  let pt := s.port ch p
  if pt.state ≠ 3 then s
  else
  let s := (s.portBump ch p Off.EVF_FECCOR f.fecCor).portBump ch p Off.EVF_FECUNC f.fecUnc
  if !f.crcOk ∨ f.fecUnc ≠ 0 then (s.portBump ch p Off.EVF_CRCERR 1).emit (.fabric ch (some p) (.flitNak pt.seqRx))
  else
    -- credits returned, flits acknowledged
    let acked (e : Nat × List TxMsg) : Bool := decide ((f.ack.val + 4096 - e.1) % 4096 < 64)
    let s := s.modPort ch p fun x => { x with
      credits := modifyAt (fun c => c + 16 * f.crd.val) f.crdVc.val x.credits
      replay := x.replay.filter fun e => !acked e }
    let s := if f.nak then
        let again := (s.port ch p).replay
        (again.foldl (fun s e => s.emit (.fabric ch (some p) (.replay e.1))) s).portBump ch p Off.EVF_REPLAY 1
      else s
    let s :=
      if f.granules.isEmpty then s
      else if f.seq.val ≠ (pt.seqRx + 1) % 4096 then s.emit (.fabric ch (some p) (.flitNak pt.seqRx))
      else
        let s := s.portBump ch p Off.EVF_RXFLIT 1
        let owed := f.granules.foldl (fun o g => modifyAt (· + 1) g.val o) (s.port ch p).owed
        -- credits go back in units of 16 granules, one virtual channel to a flit
        match (List.range 4).find? fun v => nth 0 owed v ≥ 16 with
        | some v =>
          let n := min 31 (nth 0 owed v / 16)
          (s.modPort ch p fun x => { x with seqRx := f.seq.val, owed := modifyAt (fun o => o - 16 * n) v owed }).emit
            (.fabric ch (some p) (.flitCtrl f.seq.val v n))
        | none => (s.modPort ch p fun x => { x with seqRx := f.seq.val, owed := owed }).emit (.fabric ch (some p) (.flitCtrl f.seq.val 0 0))
    s.pump ch p 128

/-! ### Arrival -/

/-- A module without an ID answers with NOTREADY, once per source node and port in 10 µs, and discards the rest (R358). -/
def Dev.notReady (s : Dev) (ch p srcNode srcCh stream : Nat) : Dev :=
  let now := (s.chan ch).time
  let recent := (s.fab ch).nrAt.filter fun e => decide (now < e.2.2 + 10000)
  if recent.any fun e => e.1 = p && e.2.1 = srcNode then (s.modFab ch fun x => { x with nrAt := recent }).evfBump ch Off.EVF_NRDROP 1
  else
    let s := s.modFab ch fun x => { x with nrAt := recent ++ [(p, srcNode, now)] }
    (s.sendOn ch p (.notReady srcNode srcCh stream)).evfBump ch Off.EVF_NRSENT 1

def addrTier (a : Word64) : Nat := a.toNat / 2 ^ 44 % 4
def addrOff (a : Word64) : Nat := a.toNat % 2 ^ 44
/-- Bytes of a tier of a channel (R8). -/
def tierBytes (tier : Nat) : Nat := (if tier = 0 then t1Frames else t2Frames) * frameBytes

/-- Sends a refusal to a message's source (R354). -/
def Dev.refuse (s : Dev) (ch : Nat) (h : MsgHdr) (status : Nat) : Dev :=
  s.send ch h.srcNode.val h.srcCh.val (.reply h.srcNode.val h.srcCh.val h.stream h.tag status)

/-- Whether a T2 frame is lent to a channel of this module for one of the context's sequences (R531). -/
def Dev.lentFrame (s : Dev) (ch ix srcCh srcCtx : Nat) : Bool :=
  s.seqs.any fun e => entCh e.1 = srcCh && e.2.ctx = srcCtx && (seqFrames e.2).any fun f => f.tier = 3 && f.ch = ch && f.ix = ix

/-- Whether a range was lent to a message's node, channel and context (R354). -/
def Dev.lentTo (s : Dev) (ch : Nat) (h : MsgHdr) (len : Nat) : Bool :=
  let a := devAddr h.dst
  let inRange (l : LendRange) : Bool :=
    l.node = h.srcNode && l.srcCh = h.srcCh && l.srcCtx = h.srcCtx && l.first ≤ a && a + len ≤ l.first + l.len
  (s.fab ch).lends.any inRange ||
    (addrTier h.dst = 1 && s.node = some h.srcNode.val && addrOff h.dst % frameBytes + len ≤ frameBytes &&
      s.lentFrame ch (addrOff h.dst / frameBytes) h.srcCh.val h.srcCtx.val)

/-- The checks of a WRITE or READ: none if it is admitted, else the refusal's status (R350, R354). -/
def Dev.refusal (s : Dev) (ch : Nat) (h : MsgHdr) (len : Nat) : Option Nat :=
  if s.fltState ch ≠ 0 then some Code.WITHDRAWN
  else if addrTier h.dst ≥ 2 ∨ tierBytes (addrTier h.dst) < addrOff h.dst + len ∨ len = 0 ∨ 131072 < len then some Code.RANGE
  else if !s.chReady ch || !s.lentTo ch h len then some Code.TENANT
  else none

/-- Forwards a message for another node or channel, one hop on (R355). -/
def Dev.forward (s : Dev) (ch : Nat) (h : MsgHdr) (m : MsgHdr → FabMsg) : Dev :=
  let key := 65536 + arrKey h.srcNode.val h.srcCh.val h.stream
  (s.sendTo ch (addrNode h.dst) (addrCh h.dst) (some key) (m { h with hops := h.hops + 1 })).getD s

/-- What happens to a message without an address before its own handling: answered NOTREADY, forwarded, or taken. It carries no hop count (R350,
R355, R358). -/
def Dev.routeWay (s : Dev) (w : MsgWay) (stream : Nat) (m : FabMsg) (take : Dev → Dev) : Dev :=
  match s.node with
  | none => s.notReady w.ch.val w.p.val w.srcNode.val w.srcCh.val stream
  | some n =>
    if w.node.val = n ∧ w.dstCh = w.ch then take s
    else (s.sendTo w.ch.val w.node.val w.dstCh.val (some (65536 + arrKey w.srcNode.val w.srcCh.val stream)) m).getD s

/-- What happens to a message before its own handling: discarded at HOPS 15, answered NOTREADY, forwarded, or taken (R355, R358). -/
def Dev.route (s : Dev) (ch p : Nat) (h : MsgHdr) (m : MsgHdr → FabMsg) (take : Dev → Dev) : Dev :=
  match s.node with
  | none => s.notReady ch p h.srcNode.val h.srcCh.val h.stream
  | some n =>
    if h.hops.val = 15 then (s.evfBump ch Off.EVF_HOPDROP 1).raise ch 75
    else if addrNode h.dst = n ∧ addrCh h.dst = ch then take s
    else s.forward ch h m

/-- Takes a WRITE's bytes into ARRIVED: the prefix grows, or the range waits ahead of it (R353). -/
def arriveBytes (a : Arrived) (off len : Nat) : Arrived × Bool :=
  let d := (off + 2 ^ 48 - a.prefix_) % 2 ^ 48
  if d = 0 then
    let rec_ := fun (x : Arrived) => match x.ahead.find? fun e => e.1 = x.prefix_ with
      | some e => Arrived.mk ((x.prefix_ + e.2) % 2 ^ 48) (x.ahead.erase e)
      | none => x
    ((List.range a.ahead.length).foldl (fun x _ => rec_ x) ⟨(a.prefix_ + len) % 2 ^ 48, a.ahead⟩, false)
  else if d < 2 ^ 47 then (⟨a.prefix_, a.ahead ++ [(off, len)]⟩, true)
  else (a, false)

/-! ### Collectives (R359 to R362) -/

/-- Levels at which participant `me` of `n` receives a contribution. -/
def collLevels (n me : Nat) : List Nat :=
  (List.range 15).filter fun l => me % 2 ^ (l + 1) = 0 && decide (me + 2 ^ l < n)

/-- The level of a participant's own contribution: the number of trailing zeros of its index. -/
def collUp (me : Nat) : Nat := ((List.range 15).find? fun l => me / 2 ^ l % 2 = 1).getD 0

/-- Pairs of a top-k list from words in turn. -/
def pairsOf : List F32 → List (F32 × Word)
  | a :: b :: r => (a, b) :: pairsOf r
  | _ => []

/-- The words of a contribution or result: a sum's values, or the entries of a top-k list, and one word of counts at the end: LEN in bits 20:0,
NPART in bits 27:21 and the mark of array leaves in bit 28, or the number of valid entries. R360 gives no form to the counts that go up with a
root (R144, R155): the word is a DESIGN CHOICE. -/
def collWords : LeafVal → List Word
  | .sum arr xs len npart => xs ++ [BitVec.ofNat 32 (len + npart * 2 ^ 21 + arr.toNat * 2 ^ 28)]
  | .topk _ es n => (es.map fun e => [e.1, e.2]).flatten ++ [BitVec.ofNat 32 n]
  | .attn _ => []

/-- The value that words bring for an operation. -/
def collVal (op : CollOp) (ws : List Word) : LeafVal :=
  let c := ws.getLastD 0#32
  match op with
  | .topk k => .topk k (pairsOf ws.dropLast) c.toNat
  | _ => .sum (bit c 28) ws.dropLast (fld c 20 0) (fld c 27 21)

/-- A status code that came from another module: what is no shared code is taken as LINK, a failure, so that no such code is ever returned (R7,
DESIGN CHOICE). -/
def peerCode (w : Nat) : Nat := if w ≤ 0x0E then w else Code.LINK

def Dev.modColl (s : Dev) (ch : Nat) (o : CollOpen) (f : Coll → Coll) : Dev :=
  s.modFab ch fun x => { x with colls := x.colls.map fun c => if c.o = o then f c else c }
def Dev.dropColl (s : Dev) (ch : Nat) (o : CollOpen) : Dev :=
  s.modFab ch fun x => { x with colls := x.colls.filter fun c => decide (c.o ≠ o) }

/-- The collective object of a run (R359). -/
def Dev.collObj (s : Dev) (o : CollOpen) : Option Nat := (s.mapOf o.ch.val o.ctx.val o.vid.val).map (·.obj)

/-- A collective fails on this participant: its object breaks with the code, and the run ends (R330, R362). -/
def Dev.collBreak (s : Dev) (c : Coll) (code : Nat) : Dev :=
  let ch := c.o.ch.val
  let s := (s.dropColl ch c.o).evfBump ch Off.EVF_COLLFAIL 1
  match s.collObj c.o with
  | some o => if (s.obj ch o).state = 1 then s.breakObj ch o code else s
  | none => s

/-- The header bytes 0x02 to 0x17 of a DIGEST. -/
def digestHdr (d : Digest) : List Byte :=
  toBytes 2 d.collId ++ toBytes 4 d.inst ++ toBytes 3 (d.srcNode.val + d.srcCh.val * 2 ^ 15 + d.srcCtx.val * 2 ^ 18) ++
  toBytes 1 d.level.val ++ toBytes 2 d.stream ++ toBytes 6 d.markEnd ++ toBytes 4 d.len

/-- The CRC-64 of a DIGEST over some data (R360). -/
def digestOf (d : Digest) (data : List Byte) : Word64 := BitVec.ofNat 64 (crc64 (data ++ digestHdr d))

/-- Sends a contribution or a result to a participant: WRITEs into its buffer, DIGEST, SIGNAL (R360). Each level has its own place in
the buffer. -/
def Dev.sendColl (s : Dev) (c : Coll) (target level : Nat) : Option Dev :=
  let o := c.o
  let ch := o.ch.val
  match o.parts[target]?, s.node with
  | some (node, dch, buf), some n =>
    let data := ((collWords (c.val.getD (.attn []))).map fun v => toBytes 4 v.toNat).flatten
    let dst := buf + BitVec.ofNat 64 (level * data.length)
    match s.sendWrites ch o.ctx.val o.stream dst data (data.length / 131072 + 1) with
    | none => none
    | some s =>
      let mark := (s.stream ch o.stream).offset
      let d : Digest := ⟨dch, o.ctx, o.collId, o.inst, Fin.ofNat 32768 n, o.ch, o.ctx, Fin.ofNat 16 level, o.stream, mark, data.length, 0, dst⟩
      let d := { d with digest := digestOf d data }
      let g : RemoteSignal := ⟨dch, o.ctx, Fin.ofNat 4096 o.vid.val, Fin.ofNat 32768 n, o.ch, o.ctx, false, 1, o.stream, mark⟩
      match s.sendStream ch node.val dch.val o.stream (.digest node.val d) with
      | none => none
      | some s => s.sendStream ch node.val dch.val o.stream (.signal node.val g)
  | _, _ => none

/-- A participant releases the root's value and sends it on to its children, in descending level order (R149, R359). -/
def Dev.releaseColl (s : Dev) (c : Coll) : Dev :=
  let s := s.putNode c.o.core.ix (c.o.key.at 4) ⟨0, [], c.val⟩
  let s := s.evfBump c.o.ch.val Off.EVF_COLL 1
  let s := s.modColl c.o.ch.val c.o fun _ => { c with sent := true, done := true }
  (collLevels c.o.parts.length c.me).reverse.foldl (fun s l => (s.sendColl c (c.me + 2 ^ l) 15).getD s) s

/-- COLL_FAIL to every other participant. -/
def Dev.failAll (s : Dev) (c : Coll) (code : Nat) (ps : List Nat) : Dev :=
  ps.foldl (fun s i => match c.o.parts[i]? with
    | some (node, ch, _) => s.send c.o.ch.val node.val ch.val (.collFail node.val ch.val c.o.ctx.val c.o.collId c.o.inst code)
    | none => s) s

/-- The root takes a failure notice: ignored once the result has gone out, else every participant fails (R362). -/
def Dev.rootFail (s : Dev) (c : Coll) (code : Nat) : Dev :=
  if c.done then s else (s.failAll c code ((List.range c.o.parts.length).filter fun i => decide (i ≠ c.me))).collBreak c code

/-- A participant gives notice of a failure to the root (R362). -/
def Dev.noticeRoot (s : Dev) (c : Coll) (code : Nat) : Dev :=
  if c.me = 0 then s.rootFail c code
  else match c.o.parts[0]? with
    | some (node, ch, _) => s.send c.o.ch.val node.val ch.val (.collFail node.val ch.val c.o.ctx.val c.o.collId c.o.inst code)
    | none => s

/-- Adds checked contributions to the own leaf in level order, each counted as a node (R144, R154, R159); with the last, the root releases and any
other participant sends its own on (R359). -/
def Dev.collStep (s : Dev) (c : Coll) : Nat → Dev
  | 0 => s.modColl c.o.ch.val c.o fun _ => c
  | n + 1 =>
    match c.val, (collLevels c.o.parts.length c.me).find? fun l => !c.have_.contains l with
    | none, _ => s.modColl c.o.ch.val c.o fun _ => c
    | some v, some l =>
      (match c.early.find? (·.1 = l) with
      | some e =>
        let m := mergeVal ⟨v, 0⟩ ⟨e.2, 0⟩
        (s.countMerges c.o.core.ix c.o.key 1 m).collStep { c with val := some m.v, have_ := c.have_ ++ [l], early := c.early.erase e } n
      | none => s.modColl c.o.ch.val c.o fun _ => c)
    | some _, none =>
      if c.sent then s.modColl c.o.ch.val c.o fun _ => c
      else if c.me = 0 then s.releaseColl c
      else
        match s.sendColl c (c.me - 2 ^ collUp c.me) (collUp c.me) with
        | some s => s.modColl c.o.ch.val c.o fun _ => { c with sent := true }
        | none => s.collBreak c Code.LINK

/-- The root of the module's tree has been formed: it is the participant's leaf (R148, R359). -/
def Dev.feedColl (s : Dev) (c : Coll) : Dev :=
  if c.val.isSome || c.done || decide (c.o.op = .bcast) then s
  else match (s.treeNode c.o.core.ix (c.o.key.at 3)).root with
    | some v => (s.dropNode c.o.core.ix (c.o.key.at 3)).collStep { c with val := some v } 16
    | none => s

/-- Collectives whose leaf has been formed take it. -/
def Dev.feedColls (s : Dev) : Dev :=
  (List.range 8).foldl (fun s ch => (s.fab ch).colls.foldl (fun s c => s.feedColl c) s) s

/-- The plan opens a run. Participants stand in ascending node ID, and participant i is leaf i; a broadcast has contributions from none (R359).
A module without a valid node ID, or one that the descriptor does not name, takes no part. -/
def Dev.openColl (s : Dev) (o : CollOpen) : Dev :=
  let o := { o with parts := sortBy (fun a b => decide (a.1.val ≤ b.1.val)) o.parts }
  match s.node.bind fun n => o.parts.findIdx? fun p => p.1.val = n && p.2.1 = o.ch with
  | none => s
  | some me =>
    let c : Coll := ⟨o, me, if o.op = .bcast && me = 0 then some (.sum false o.data 0 0) else none, [], [], false, false, false⟩
    let s := s.modFab o.ch.val fun x => { x with
      colls := x.colls.filter (fun y => !(y.o.ctx = o.ctx && y.o.collId = o.collId && y.done)) ++ [c] }
    match o.op with
    | .bcast => if me = 0 then s.releaseColl c else s
    | _ => s.feedColl c

/-- A checked contribution or result is taken (R359, R361). -/
def Dev.collTake (s : Dev) (c : Coll) (d : Digest) (data : List Byte) : Dev :=
  let vals := (List.range (data.length / 4)).map fun i => BitVec.ofNat 32 (ofBytes ((data.drop (4 * i)).take 4))
  let v := collVal c.o.op vals
  if d.level.val = 15 then s.releaseColl { c with val := some v }
  else s.collStep { c with early := c.early ++ [(d.level.val, v)] } 16

/-- A check fails: the contribution is rejected to the root; a result is asked for once more, and then the participant and its subtree
fail (R361, R362). -/
def Dev.collReject (s : Dev) (c : Coll) (d : Digest) : Dev :=
  let ch := c.o.ch.val
  let s := (s.evfBump ch Off.EVF_DIGEST 1).raise ch 70
  if d.level.val ≠ 15 then s.noticeRoot c Code.REJECTED
  else if !c.retried then
    let s := s.modColl ch c.o fun x => { x with retried := true }
    s.send ch d.srcNode.val d.srcCh.val (.reply d.srcNode.val d.srcCh.val d.stream c.me Code.REJECTED)
  else
    let kids := (collLevels c.o.parts.length c.me).map fun l => c.me + 2 ^ l
    (s.failAll c Code.REJECTED kids).collBreak c Code.REJECTED

/-! ### Signals that wait (R335, R337, R361) -/

/-- The run a signal on a collective object belongs to. -/
def Dev.collOf (s : Dev) (ch o : Nat) : Option Coll := (s.fab ch).colls.find? fun c => !c.done && decide (s.collObj c.o = some o)

/-- Tries to apply a signal; answers the state, and whether the signal is done with. A signal on a collective object needs its DIGEST,
which is checked first. -/
def Dev.trySig (s : Dev) (ch o : Nat) (g : RemoteSignal) : Dev × Bool :=
  if !s.covered ch g then (s, false)
  else match s.collOf ch o with
    | none => ((s.applySig ch o g.consume g.value).1, true)
    | some c =>
      let same (d : Digest) : Bool :=
        d.srcNode = g.srcNode && d.srcCh = g.srcCh && d.stream = g.stream && d.markEnd = g.mark && d.collId = c.o.collId && d.inst = c.o.inst
      match (s.fab ch).digests.find? same with
      | none => (s, false)
      | some d =>
        let s := s.modFab ch fun x => { x with digests := x.digests.erase d }
        let data := s.bytes (devAddr d.addr) d.len
        if digestOf d data = d.digest then
          ((s.applySig ch o g.consume g.value).1.collTake c d data, true)
        else (s.collReject c d, true)

/-- Applies every held signal that has become covered, oldest first (R335, R337). -/
def Dev.releaseHeld (s : Dev) (ch : Nat) : Dev :=
  (s.sync ch).held.foldl (fun s h =>
    if (s.sync ch).held.contains h then
      let (s', done) := s.trySig ch h.obj h.sig
      if done then s'.modSync ch fun x => { x with held := x.held.erase h } else s'
    else s) s

/-- REMOTE_SIGNAL_ARRIVE: refused, blocked, applied if covered, or held (R332, R333, R335, R339, R341). -/
def Dev.signalIn (s : Dev) (g : RemoteSignal) : Dev :=
  let ch := g.dstCh.val
  let s := s.syBump ch Off.SYN_RSIG 1
  let back (code : Nat) (s : Dev) : Dev := s.send ch g.srcNode.val g.srcCh.val (.reply g.srcNode.val g.srcCh.val g.stream g.mark code)
  if s.fltState ch ≠ 0 then back Code.WITHDRAWN s
  else if s.inForce .synCh ch 0 Off.SYN_CTL 0 0 = 0 then back Code.LINK s
  else match (s.mapOf ch g.dstCtx.val g.vid.val).filter fun m => peerOk m g with
    | none => back Code.TENANT (s.blockSig ch g.srcCtx.val g.srcNode.val g.dstCtx.val)
    | some m =>
      let (s', done) := s.trySig ch m.obj g
      if done then s'
      else if (s'.sync ch).held.length ≥ 1024 ∨ s'.heldFor ch m.obj ≥ 8 then back Code.NOSPACE (s'.syBump ch Off.SYN_NOROOM 1)
      else s'.holdSig ch m.obj g

/-- SYNC_WAIT_TIMEOUT: a wait that SYN_WAITMAX planks did not satisfy ends with TIMEOUT; a collective's run fails (R327, R362). -/
def Dev.waitTimeout (s : Dev) (ch o who : Nat) : Dev :=
  match (s.obj ch o).waits.find? fun w => w.who = who && !w.met with
  | none => s
  | some w =>
    if (s.chan ch).plank < w.until_ then s
    else
      let s := s.modObj ch o fun x => { x with waits := x.waits.erase w }
      let s := (s.syBump ch Off.SYN_WAITTO 1).failWait Code.TIMEOUT w
      match s.collOf ch o with
      | some c => (s.dropColl ch c.o).evfBump ch Off.EVF_COLLFAIL 1
      | none => s

/-! ### Messages -/

/-- FABRIC_WRITE_RECEIVE (R351, R353, R354). -/
def Dev.writeIn (s : Dev) (ch p : Nat) (h : MsgHdr) (data : List Byte) : Dev :=
  s.route ch p h (fun h => .write h data) fun s =>
    match s.refusal ch h data.length with
    | some code =>
      let s := if code = Code.TENANT then (s.evfBump ch Off.EVF_REMREJ 1).raise ch 72 else s
      s.refuse ch h code
    | none =>
      let s := (s.wakeUnit ch (devAddr h.dst)).setBytes (devAddr h.dst) data
      let key := arrKey h.srcNode.val h.srcCh.val h.stream
      let (a, early) := arriveBytes ((s.fab ch).arrived.get Arrived.fresh key) h.offset data.length
      let s := s.modFab ch fun x => { x with arrived := x.arrived.set Arrived.fresh key a }
      (if early then s.evfBump ch Off.EVF_REORD 1 else s).releaseHeld ch

/-- FABRIC_READ_RECEIVE (R350, R354). -/
def Dev.readIn (s : Dev) (ch p : Nat) (h : MsgHdr) : Dev :=
  s.route ch p h .read fun s =>
    match s.refusal ch h h.len with
    | some code =>
      let s := if code = Code.TENANT then (s.evfBump ch Off.EVF_REMREJ 1).raise ch 72 else s
      s.refuse ch h code
    | none =>
      let s := s.wakeUnit ch (devAddr h.dst)
      let back : Word64 := BitVec.ofNat 64 (h.srcNode.val * 2 ^ 49 + h.srcCh.val * 2 ^ 46)
      s.send ch h.srcNode.val h.srcCh.val (.readResp { h with dst := back, hops := 0, status := 0 } (s.viewBytes (devAddr h.dst) h.len))

/-- A READ ends: its status stands for its tag, and work that failed is abandoned (R354, R391). -/
def Dev.endRead (s : Dev) (ch : Nat) (r : OpenRead) (status : Nat) : Dev :=
  let s := s.modFab ch fun x => { x with reads := x.reads.erase r, ended := x.ended.set 0 r.tag (status + 1) }
  match r.seq with
  | some q => if status = 0 then s else if status = Code.LINK ∨ status = Code.WITHDRAWN ∨ status = Code.REJECTED then s.stepFail q.ix status
      else (s.abandon q.ix).failSeq q.ix status
  | none => s

/-- READ_RESP_RECEIVE (R350). -/
def Dev.readRespIn (s : Dev) (ch p : Nat) (h : MsgHdr) (data : List Byte) : Dev :=
  s.route ch p h (fun h => .readResp h data) fun s =>
    match (s.fab ch).reads.find? fun r => r.tag = h.tag && r.stream = h.stream with
    | none => s
    | some r =>
      if s.fltState ch ≠ 0 then s.endRead ch r Code.WITHDRAWN
      else
        let s := if h.status = 0 then s.setBytes r.dest data else s
        s.endRead ch r (peerCode h.status.toNat)

/-- READ_TIMEOUT: no response after 100 µs (R354). -/
def Dev.readTimeout (s : Dev) (ch tag : Nat) : Dev :=
  match (s.fab ch).reads.find? (·.tag = tag) with
  | some r => s.endRead ch r Code.LINK
  | none => s

/-- DIGEST_RECEIVE: kept for its signal, which is tried again (R361). -/
def Dev.digestIn (s : Dev) (d : Digest) : Dev :=
  let ch := d.dstCh.val
  if s.fltState ch ≠ 0 then s
  else (s.modFab ch fun x => { x with digests := x.digests ++ [d] }).releaseHeld ch

/-- REPLY_RECEIVE: a refusal ends a READ, holds a signal back for its resend timer or ends it, or asks for a result again (R335, R354, R362). -/
def Dev.replyIn (s : Dev) (ch st tag status : Nat) : Dev :=
  match (s.fab ch).reads.find? fun r => r.tag = tag && r.stream = st with
  | some r => s.endRead ch r (peerCode status)
  | none =>
    match (s.sync ch).sent.find? fun x => x.sig.stream = st && x.sig.mark = tag with
    | some x =>
      if status = Code.NOSPACE then
        s.modSync ch fun y => { y with sent := y.sent.map fun z => if z.id = x.id then { z with refused := true } else z }
      else
        let s := s.modSync ch fun y => { y with sent := y.sent.erase x }
        (match x.seq with | some r => s.failWait (peerCode status) ⟨0, 0, some r, false, 0⟩ | none => s)
    | none =>
      match (s.fab ch).colls.find? fun c => c.o.stream = st && c.done with
      | some c => if status = Code.REJECTED ∧ tag < c.o.parts.length then (s.sendColl c tag 15).getD s else s
      | none => s

/-- COLL_FAIL_RECEIVE (R362). -/
def Dev.collFailIn (s : Dev) (ch ctx collId inst code : Nat) : Dev :=
  match (s.fab ch).colls.find? fun c => c.o.ctx.val = ctx && c.o.collId = collId && c.o.inst = inst with
  | none => s
  | some c =>
    if c.me = 0 then s.rootFail c (peerCode code)
    else if c.done then s
    else s.collBreak c (peerCode code)

/-- Sends what work of a channel asks for (R335, R350 to R354). What finds no way ends with LINK. -/
def Dev.fabSend (s : Dev) (ch : Nat) : FabSend → Dev
  | .write ctx st dst data => (s.sendWrite ch ctx.val st dst data).getD s
  | .read ctx st dst len tag dest seq =>
    let r : OpenRead := ⟨tag, st, devAddr dest, seq⟩
    (match s.sendRead ch ctx.val dst len r with
    | some s => s
    | none => (s.modFab ch fun x => { x with reads := x.reads ++ [r] }).endRead ch r Code.LINK)
  | .signal node dch ctx vid srcCtx consume value st id seq =>
    let g : RemoteSignal := ⟨dch, ctx, vid, Fin.ofNat 32768 (s.node.getD 0), Fin.ofNat 8 ch, srcCtx, consume, value, st, (s.stream ch st).offset⟩
    let x : SentSig := ⟨id, g, node.val, (s.chan ch).time, false, seq⟩
    match if s.node.isSome then s.sendStream ch node.val dch.val st (.signal node.val g) else none with
    | some s => s.modSync ch fun y => { y with sent := y.sent.filter (fun z => decide (z.id ≠ id)) ++ [x] }
    | none => s.failWait Code.LINK ⟨0, 0, seq, false, 0⟩

/-! ### NOTREADY and idle streams (R352, R358) -/

/-- NOTREADY_RECEIVE: only the stream concerned is held (R358). -/
def Dev.notReadyIn (s : Dev) (ch st : Nat) : Dev :=
  s.modStream ch st fun x => if x.last.isSome then { x with held := true, since := x.since.or (some (s.chan ch).time) } else x

/-- NOTREADY_RESEND_TIMER: the held message goes out again; after 1 s the stream's messages end with LINK (R358). -/
def Dev.notReadyTimer (s : Dev) (ch st : Nat) : Dev :=
  let x := s.stream ch st
  match x.since, x.last with
  | some t, some (node, dch, m) =>
    if !x.held then
      -- the last resend was not refused again: the waiting messages follow
      let s := s.modStream ch st fun y => { y with since := none, wait := [] }
      x.wait.foldl (fun s e => (s.sendStream ch e.1 e.2.1 st e.2.2).getD s) s
    else if (s.chan ch).time ≥ t + 1000000000 then
      let s := s.modStream ch st fun y => { y with held := false, since := none, last := none, wait := [] }
      ((s.fab ch).reads.filter fun r => r.stream = st).foldl (fun s r => s.endRead ch r Code.LINK) s
    else
      let s := s.modStream ch st fun y => { y with held := false }
      (s.sendTo ch node dch (some st) m).getD s
  | _, _ => s

/-- STREAM_IDLE_EXPIRE: with every flit of it acknowledged, an idle stream may take another port (R352). -/
def Dev.streamIdle (s : Dev) (ch st : Nat) : Dev :=
  match (s.stream ch st).port with
  | none => s
  | some p =>
    let pt := s.port ch p
    let busy := pt.txq.any (fun m => m.stream = some st) || pt.replay.any (fun e => e.2.any fun m => m.stream = some st)
    if busy then s else s.modStream ch st fun x => { x with port := none }

/-- Entry to CONTAINED or HALTED: notice to the roots, then the runs end, and what waits on the fabric goes (R362, R378). -/
def Dev.dropFabric (s : Dev) (ch : Nat) : Dev :=
  let runs := (s.fab ch).colls.filter fun c => !c.done
  let s := runs.foldl (fun s c => if c.sent || c.me = 0 then s.noticeRoot c Code.WITHDRAWN else s) s
  let s := s.evfBump ch Off.EVF_COLLFAIL ((s.fab ch).colls.filter fun c => !c.done).length
  s.modFab ch fun x => { x with colls := [], digests := [], reads := [] }

end Sys2Proof.Machine
end

