-- ==== Sys2Proof/Machine/Recover.lean ====
section
/-! DEFINITION. What follows containment: the words the hub writes for a HALTED channel (R384), the exit from CONTAINED (R381 to
R383), re-issue (R387), restart and replay (R388 to R391), the registers of the FLT pages and of page headers that act (R374,
R395 to R397, R440), and parity errors (R392). -/

namespace Sys2Proof.Machine
open Sys2Proof

/-! ### Outputs of a channel that has left service (R378, R384, R393) -/

/-- The hub writes one HALTED status word for each live entry of a channel, from its delivery table (R384). -/
def Dev.haltWords (s : Dev) (ch : Nat) : Dev :=
  if !s.vin || s.hubHalt then s
  else
    s.dlv.foldl (fun s e =>
      if e.1 / 512 = ch && e.2.live then
        let w := e.2.recs + e.2.last * 2 ^ 32 + Code.HALTED * 2 ^ 40 + e.2.gen * 2 ^ 48
        let s := s.emit (.hostWrite e.2.ctx e.2.statusAddr (toBytes 8 w))
        if e.2.irq && s.rdF .rqtCh ch 0 Off.RQT_CTL 1 1 = 1 then s.emit (.msix e.2.ctx (s.rdF .rqtCx ch e.2.ctx Off.RQT_CX_CFG 10 0)) else s
      else s) s

/-- PWR_MOD_STA.READY: the hub answers configuration, and every channel is READY or HALTED (R474). -/
def Dev.modReady (s : Dev) : Bool := s.vin && s.hubReady && (List.range 8).all fun ch => s.chReady ch || s.fltState ch = 2

/-- A READY interrupt of the hub's target when the module has become ready (R485). -/
def Dev.noteReady (was : Bool) (s : Dev) : Dev := if !was && s.modReady then s.raiseIbiBare 8 3 1 0 else s

/-- What a change of a channel's fault state in this command brings with it. A channel that was not READY may complete the module's
READY by its halt. -/
def Dev.settleCh (s : Dev) (ch : Nat) : Dev :=
  let c := s.chan ch
  let s := s.modChan ch fun c => { c with safeDue := false, haltDue := false, noticeDue := false }
  let s := if c.safeDue then ((s.dropFabric ch).dropSync ch).dropScratch ch else s
  let s := if c.haltDue then ((s.haltWords ch).noteReady (s.chReady ch)).modChan ch fun c => { c with placeDue := true } else s
  if c.noticeDue then s.helloAll ch false else s

/-- Whether anything of a channel's change of state is still to follow in this command. -/
def Chan.due (c : Chan) : Bool := c.safeDue || c.haltDue || c.noticeDue

/-- A channel with nothing to follow. -/
def Chan.undue (c : Chan) : Chan := { c with safeDue := false, haltDue := false, noticeDue := false }

/-- Settles every channel, and again while the settling of one has moved another, at most `n` times. -/
def Dev.settleFor (s : Dev) : Nat → Dev
  | 0 => { s with chans := s.chans.mapV Chan.fresh fun _ c => c.undue }
  | n + 1 =>
    if s.chans.any fun e => e.2.due then ((List.range 8).foldl (fun s ch => s.settleCh ch) s).settleFor n else s

/-- Whether a T3 frame of a channel's sequence can still be reached: its peer is in service, and the fabric joins the two (R196). -/
def Dev.t3Reach (s : Dev) (ch : Nat) (f : Frame) : Bool :=
  if f.ch < 8 then s.fltState f.ch ≠ 2 && s.cstate f.ch ≠ 2 && s.siblings ch f.ch
  else match s.routeMask ch (f.ch / 8 - 1) (f.ch % 8) with
    | some m => (List.range 8).any fun p => m.testBit p && ((s.port ch p).state = 3 || (s.port ch p).state = 4)
    | none => false

/-- Whether a READ has ended with LINK (R354). -/
def Dev.readLost (s : Dev) (ch tag : Nat) : Bool :=
  (s.fab ch).reads.all (fun r => decide (r.tag ≠ tag)) && (s.fab ch).ended.get 0 tag = Code.LINK + 1

/-- PRESENT pages that a failed T3 peer holds become ABSENT (R196), at the boundary that finds it so. -/
def Dev.loseT3 (s : Dev) : Dev :=
  s.seqs.foldl (fun s e =>
    let lost := e.2.pages.filter fun (p : Nat × PageSt) => p.2.state = .present &&
      p.2.frames.any fun f => f.tier = 3 && (!s.t3Reach (entCh e.1) f || p.2.move.any fun m => m.reads.any (s.readLost (entCh e.1)))
    if lost.isEmpty then s
    else
      let s := s.freeFrames ((lost.map fun p => p.2.frames ++ (match p.2.move with | some m => m.dst | none => [])).flatten)
      let lose (p : Nat × PageSt) : Nat × PageSt :=
        if lost.any fun x => x.1 = p.1 then (p.1, { p.2 with state := .absent, frames := [], move := none, dropping := false }) else p
      s.modSeq e.1 fun q => { q with pages := q.pages.map lose }) s

/-- What changes of fault state in a command bring with them in the rest of the module. A channel's state rises at most twice in a command, so
sixteen rounds leave nothing over. -/
def Dev.settle (s : Dev) : Dev := s.settleFor 16

/-! ### Re-issue (R387) -/

/-- Log words of an entry from a position up to its committed length that are not prompt positions, as record words. -/
def Dev.undelivered (s : Dev) (r pos : Nat) : List Nat :=
  let q := s.seq r
  let ws := if q.logW.isEmpty then q.kept.2.drop (pos - q.kept.1) else ((s.logView r).take (s.clen r)).drop pos
  (ws.filter fun w => !w.testBit 25).map fun w => w % 2 ^ 25

/-- R387 for one entry: WRITTEN returns to DLV_REC, and the undelivered records are issued again. -/
def Dev.reissue (s : Dev) (r : Nat) : Dev :=
  let st := s.st r
  let d := s.dlvOf r
  let u := (s.written r + 2 ^ 32 - d.recs) % 2 ^ 32
  if st = St.FREE ∨ st = St.ADMITTED ∨ u = 0 then s
  else
    let q := s.seq r
    let toks := s.undelivered r d.pos
    let ws :=
      if toks.length < u then toks ++ [q.lastWord]
      else if q.lastWord.testBit 25 && !q.lastWord.testBit 31 then toks.dropLast ++ [q.lastWord] else toks
    let s := s.setEnt r Ent.WRITTEN 4 ((d.recs + ws.length) % 2 ^ 32)
    let s := s.modSeq r fun q => { q with group := ws, swDue := true, irqDue := q.irqDue || q.lastWord.testBit 25 }
    s.bump .fltCh (entCh r) 0 Off.FLT_REISSUE ws.length

/-! ### Restart (R388 to R390) -/

/-- A write to a frame that was discarded at a power-down: a page move to it leaves its page at the source, and a checkpoint that it was part of is
taken again at the next boundary (R316). A copy of a hood that is being parked or restored runs again (DESIGN CHOICE: the park waits for it). -/
def Dev.lateWrite (s : Dev) (f : Frame) : Dev :=
  (s.seqs.map (·.1)).foldl (fun s r =>
    let q := s.seq r
    let hood := q.restore.isSome || match q.stopping with | .park .. => true | _ => false
    let hit (e : Nat × PageSt) : Bool := match e.2.move with | some m => m.dst.contains f | none => false
    let s := if hood then s else (q.pages.filter hit).foldl (fun s e => match e.2.move with
      | some m => (s.freeFrames m.dst).modSeq r fun q => { q with pages := q.pages.put e.1 { e.2 with move := none } }
      | none => s) s
    if q.copying.isSome && (slotOf q (1 - q.newest)).contains f then s.modSeq r fun q => { q with copying := none, ckptAgain := true } else s) s

/-- What the writes discarded at a power-down leave behind: a staged copy that one was to fill is dropped, and at a memory unit the frames (R316). -/
def Dev.lateWrites (s : Dev) (late : List Nat) : PdTarget → Dev
  | .bank core b => match s.bankPd core.ix b.val with
    | .waiting t0 =>
      let es := (s.bankWrites core.ix b.val t0).filter fun e => e.req.who = .dma
      { s with staged := s.staged.filter fun x => !(x.core = core.ix && es.any fun e => decide (x.addr < e.hi ∧ e.lo < x.addr + frameBytes)) }
    | _ => s
  | .hbm ch pc => match s.unitPd ch.val pc.val with
    | .waiting _ => late.foldl (fun s i => s.lateWrite ⟨1, ch.val, i⟩) s
    | _ => s
  | .t2 ch rank => match s.unitPd ch.val (128 + rank.val) with
    | .waiting _ => if PdTarget.there (.t2 ch rank) then late.foldl (fun s i => (s.lateWrite ⟨2, ch.val, i⟩).lateWrite ⟨3, ch.val, i⟩) s else s
    | _ => s

/-- Every page move of a sequence ends with the page at its source (R196, R388). -/
def Dev.dropMoves (s : Dev) (r : Nat) : Dev :=
  let s := s.freeFrames (((s.seq r).pages.map fun e => match e.2.move with | some m => m.dst | none => []).flatten)
  s.modSeq r fun q => { q with pages := q.pages.map fun e => (e.1, { e.2 with move := none }) }

/-- The checkpoint a restart uses, with its slot: the one that NEWEST names, else the other, each failure raising CKPT_CHECK (R389). A directory
header that fails its check raises PT_CHECK, and the module's own NEWEST stands (R213, DESIGN CHOICE). -/
def Dev.restartSlot (s : Dev) (r : Nat) : Dev × Option (Ckpt × List Frame) :=
  let q := s.seq r
  let root := s.ent r Ent.PT_ROOT 8 ≠ 0
  let s := if root && !s.dirOk r then s.raise (entCh r) 36 else s
  let n := if root && s.dirOk r then s.newestOf r else q.newest
  let ok (i : Nat) : Option (Ckpt × List Frame) :=
    let c := if i = 0 then q.slotA else q.slotB
    if c.valid && s.slotOk q i then some (c, slotOf q i) else none
  match ok n with
  | some c => (s, some c)
  | none =>
    let s := s.raise (entCh r) 39
    match ok (1 - n) with
    | some c => (s, some c)
    | none => (s.raise (entCh r) 39, none)

/-- Stop progress over the logged tokens of the current turn from `b` to the committed length (R389). -/
def Dev.reprogress (s : Dev) (r b : Nat) (pr : List Nat) : List Nat :=
  let q := s.seq r
  (((s.logView r).take (s.clen r)).zipIdx).foldl (fun pr e =>
    if b ≤ e.2 && q.turnStart ≤ e.2 && !e.1.testBit 25 then (advanceAll q.samp pr (e.1 % 2 ^ 24)).1 else pr) pr

/-- R389 and R390: the state up to B is restored, and positions B to CLEN − 1 are to be replayed; `sample` where a token follows. -/
def Dev.restartSeq (s : Dev) (r : Nat) (sample : Bool) : Dev :=
  let s := (s.abandon r).dropMoves r
  let k := s.restartSlot r
  let s := k.1.modSeq r fun q => { q with copying := none }
  let s := match k.2 with
    | some (c, slot) =>
      let s := (s.slotBody r c slot false).freeBeyond r c.clen false
      let back (e : Nat × PageSt) : Nat × PageSt :=
        if e.2.isState then let i := c.partials.get 0 e.1; (e.1, { e.2 with cur := i / 16, curIx := i % 16 }) else e
      s.modSeq r fun q => { q with pages := q.pages.map back }
    | none =>
      let s := s.freeFrames (((s.seq r).pages.map fun (e : Nat × PageSt) => e.2.frames).flatten)
      s.modSeq r fun q => { q with pages := [] }
  let b := match k.2 with | some (c, _) => c.clen | none => 0
  let pr := match k.2 with | some (c, _) => c.progress | none => List.replicate 8 0
  let n := s.clen r
  let pr := s.reprogress r b pr
  let s := s.modSeq r fun q => { q with progress := pr, recomp := 0, held := none, replay := if b < n then [(b, n, sample)] else [] }
  (s.fitLeaves (entCh r)).bump .fltCh (entCh r) 0 Off.FLT_RESTART 1

/-- R388 for one entry. A PAUSED sequence is checkpointed where its last checkpoint is older than its committed length (R208). -/
def Dev.exitEntry (s : Dev) (r : Nat) : Dev :=
  let st := s.st r
  let q := s.seq r
  let thermal := match q.stopping with | .thermal _ => true | _ => false
  let s := if thermal then s.modSeq r fun q => { q with stopping := .no } else s
  if st = St.PREFILL ∨ st = St.DECODE then
    if s.flag r 1 then s.failSeq r Code.WITHDRAWN else s.restartSeq r (st = St.DECODE)
  else if st = St.STOPPING then
    match q.stopping with
    | .park ttl _ t1 _ _ =>
      let sample := q.parkFrom = St.DECODE && !t1 && q.step.isSome
      let s := (s.abandonHood r).modSeq r fun q => { q with stopping := .park ttl none false false false }
      s.restartSeq r sample
    | _ => s
  else if st = St.PAUSED then
    let last := if q.newest = 0 then q.slotA else q.slotB
    let s := (s.dropMoves r).modSeq r fun q => { q with copying := none }
    if (if last.valid then last.clen else 0) < s.clen r then s.startCkpt r else s
  else if st = St.PARKED then
    match q.restore with
    | none => s
    | some (p, _) =>
      if q.inPlace then s
      else
        let s := (s.freeFrames q.restoreLog).dropMoves r
        let s := (s.freeDir r).modSeq r fun q => { q with restoreLog := [], ready := false, restore := some (p, false) }
        (s.restoreFrames r).1
  else s

/-- Steps 1 to 4 of R383, for a channel that has returned to NORMAL: re-issue, then restarts. -/
def Dev.returnToService (s : Dev) (ch : Nat) : Dev :=
  let rs := s.entries ch
  let s := rs.foldl (fun s r => s.reissue r) s
  let s := s.closeRings ch
  (rs.foldl (fun s r => s.exitEntry r) s).closeRings ch

/-- The exit from CONTAINED at a boundary, unless R382 makes it HALTED. -/
def Dev.exitContained (s : Dev) (ch : Nat) : Dev :=
  let now := s.mgtMs
  let past := (s.chan ch).exits
  let n := (past.filter fun t => now ≤ t + 3600000).length + 1
  if n > s.rdF .fltCh ch 0 Off.FLT_CTL 19 16 then (s.halt ch 6 false).raise ch 6
  else
    let w := s.rd .fltCh ch 0 Off.FLT_STA
    let s := s.wr .fltCh ch 0 Off.FLT_STA (setFld (setFld w 2 0 0) 14 11 n)
    let s := s.bump .fltCh ch 0 Off.FLT_RECOV 1
    let acts := (s.chan ch).deferred
    let s := s.modChan ch fun c => { c with exits := (now :: past).take 15, deferred := [], quietDone := false, noticeDue := true }
    let s := acts.foldl (fun s a => match s.degrade ch a.1 a.2 with | some s' => s' | none => s) s
    ((s.clockBack ch).fltNotice ch).returnToService ch

/-- QUIET_PERIOD_EXPIRE: the quiet period runs out on CLK_MGT, in the running plank or earlier; the exit follows at the next boundary
(R381). -/
def Dev.quietExpire (s : Dev) (ch : Nat) : Dev :=
  if s.fltState ch = 1 ∧ (s.chan ch).quietEnd ≤ s.mgtNs + s.periodNs then s.modChan ch fun c => { c with quietDone := true } else s

/-! ### Registers -/

/-- FLT_CMD (R396). -/
def Dev.fltCmd (s : Dev) (ch : Nat) (w : Word) : Dev :=
  match fld w 1 0 with
  | 1 => (s.contain ch 126 true).wrF .fltCh ch 0 Off.FLT_STA 23 16 Code.OK
  | 2 => (s.halt ch 126 true).wrF .fltCh ch 0 Off.FLT_STA 23 16 Code.OK
  | _ => s.wrF .fltCh ch 0 Off.FLT_STA 23 16 Code.RANGE

/-- FLT_DLV_SEL loads FLT_DLV_REC and FLT_DLV_POS (R397). -/
def Dev.dlvSel (s : Dev) (w : Word) : Dev :=
  let s := s.wr .fltMod 0 0 Off.FLT_DLV_SEL (w &&& 0xFFF#32)
  let d := s.dlvOf (fld w 11 9 * 512 + fld w 8 0)
  (s.wr .fltMod 0 0 Off.FLT_DLV_REC (BitVec.ofNat 32 d.recs)).wr .fltMod 0 0 Off.FLT_DLV_POS (BitVec.ofNat 32 (d.pos % 2 ^ 23))

/-- FLT_QLEFT and FLT_ACT (R396). -/
def Dev.fltView (s : Dev) (ch o : Nat) : Option Word :=
  if o = Off.FLT_QLEFT then
    some (BitVec.ofNat 32 (if s.fltState ch = 1 then min 65535 (((s.chan ch).quietEnd - s.mgtNs + 999999) / 1000000) else 0))
  else if Off.FLT_ACT ≤ o ∧ o < Off.FLT_ACT + 12 then
    let k := (o - Off.FLT_ACT) / 4
    some (BitVec.ofNat 32 (((List.range 32).map fun i =>
      let c := collector (32 * k + i)
      if bit (s.rd c.1 ch 0 Off.PG_FLT) c.2 then 2 ^ i else 0).sum))
  else none

/-- FLT_MOD_STA (R397). -/
def Dev.fltModView (s : Dev) (o : Nat) : Option Word :=
  if o = Off.FLT_MOD_STA then
    some (BitVec.ofNat 32 ((List.range 8).map fun ch =>
      s.fltState ch * 2 ^ (2 * ch) + s.rdF .fltCh ch 0 Off.FLT_STA 2 2 * 2 ^ (16 + ch)).sum)
  else none

/-- Raises several sources of one page in one cycle, in ascending order: every one is noted, the highest severity among them acts, and
PG_STA.OVR is set (R373, R378). -/
def Dev.raiseTogether (s : Dev) (p : Page) (ixs : List Nat) : Dev :=
  let sev (ix : Nat) : Nat := let v := s.sevOf p.ch ix; if v = 1 ∧ (s.degrade p.ch ix .none).isNone then 2 else v
  let top := (ixs.map sev).foldl max 0
  let acting := ixs.filter fun ix => sev ix = top
  let s := ixs.foldl (fun s ix => s.noteRaise p.ch ix true .none []) s
  let s := acting.foldl (fun s ix => s.actSev p.ch ix top true .none) s
  s.setReg (p.base + Off.PG_STA) (setBit (s.reg (p.base + Off.PG_STA)) 1 true)

/-- PG_FRC: every bit of a source the page owns raises it once, as forced (R374). -/
def Dev.pgForce (s : Dev) (p : Page) (w : Word) : Dev :=
  let ns := (List.range p.kind.nsrc).filter fun n => bit w n
  match PageKind.collBase p.kind, ns with
  | none, _ => ns.foldl (fun s n => s.hubRaise n) s
  | some b, [n] => s.raiseAt p.ch (b + n) true .none []
  | some _, [] => s
  | some b, _ => s.raiseTogether p (ns.map (b + ·))

/-- PG_FLT: a 1 clears the sticky bit (R372). -/
def Dev.pgClear (s : Dev) (p : Page) (w : Word) : Dev :=
  let a := p.base + Off.PG_FLT
  s.setReg a (s.reg a &&& ~~~w)

/-- PG_SEV0 and PG_SEV1: fixed severities, fields of no source, and DEGRADE or CONTAIN for a source of the hub are not stored (R374,
R440, R450). -/
def Dev.pgSev (s : Dev) (p : Page) (o : Nat) (w : Word) : Dev :=
  let a := p.base + o
  s.setReg a ((List.range p.kind.nsrc).foldl (fun v n =>
    let x := fld w (2 * n + 1) (2 * n)
    let keep := match PageKind.collBase p.kind with
      | some b => fixedHalt (b + n)
      | none => x = 1 || x = 2
    if keep then v else setFld v (2 * n + 1) (2 * n) x) (s.reg a))

/-! ### Parity and memory errors (R392) -/

/-- Collector indexes of the sources that a parity error raises. -/
def paritySources : List Nat :=
  [0, 10, 18, 19, 22, 23, 26, 29, 31, 32, 33, 38, 40, 42, 43, 45, 49, 51, 55, 56, 61, 62, 67, 71, 76, 80, 86, 90]

/-- PARITY_ERROR: raises the source of the place where the error was found; errors found for a load copy or a BAR2 read are reported
to that requester only (R392). -/
def Dev.parityError (s : Dev) : ParityAt → Dev
  | .block ch ix => if paritySources.contains ix.val then s.raise ch.val ix.val else s
  | .hub n => s.hubRaise n.val
  | .memory ch .engine => s.raise ch.val 4
  | .memory _ (.loadCopy ctx) => if s.phase ctx.val = Ph.COPY then s.failLoad ctx.val Code.REJECTED 0x0F 0 else s
  | .memory _ (.bar2 fn) => s.emit (.abort (match fn with | .vf n => n.val + 1 | _ => 0))
  | .corrected ch => s.raise ch.val 5

end Sys2Proof.Machine
end

