-- ==== Sys2Proof/Machine/Time.lean ====
section
/-! DEFINITION. Node IDs and chain enumeration (R356, R357), device time and plank alignment (R363 to R367), and the plank period
(R14, R250). -/

namespace Sys2Proof.Machine
open Sys2Proof

def Dev.modTime (s : Dev) (f : FTime → FTime) : Dev := { s with ftime := f s.ftime }
def Dev.tsta (s : Dev) (hi lo : Nat) : Nat := s.rdF .evfMod 0 0 Off.EVF_TIME_STA hi lo
def Dev.setTsta (s : Dev) (hi lo v : Nat) : Dev := s.wrF .evfMod 0 0 Off.EVF_TIME_STA hi lo v
def Dev.timeMode (s : Dev) : Nat := s.rdF .evfMod 0 0 Off.EVF_TIME_CTL 1 0

/-- Whether some context is loaded (R356, R364). -/
def Dev.anyLoaded (s : Dev) : Bool := s.ctxs.any fun e => e.2.pat.isSome

/-! ### Node IDs (R356, R357) -/

/-- The routes that chain enumeration fills (R357). -/
def Dev.fillRoutes (s : Dev) (n base : Nat) : Dev :=
  (List.range 8).foldl (fun s ch => s.modFab ch fun x => { x with routes :=
    (if ch = 0 then
      (if base < n then [RouteRange.mk base (n - 1) (some 1) true] else []) ++ (if n < 32767 then [RouteRange.mk (n + 1) 32767 (some 2) true] else [])
    else [RouteRange.mk 0 32767 none true]) ++ x.routes }) s

/-- ENUM with this module's ID + 1 on ch0.p1, while that port is UP (R357). -/
def Dev.sendEnum (s : Dev) (n : Nat) : Dev :=
  if n < 32767 ∧ (s.port 0 1).state = 3 then (s.sendOn 0 1 (.enum (n + 1))).bump .evfMod 0 0 Off.EVF_ENUMFWD 1 else s

/-- The node ID becomes valid: neighbours hear of it in HELLO (R346, R357). -/
def Dev.setNode (s : Dev) (n : Nat) : Dev :=
  let w := s.rd .evfMod 0 0 Off.EVF_NODE
  if s.node = some n then s
  else (s.wr .evfMod 0 0 Off.EVF_NODE (setFld (setFld w 14 0 n) 15 15 1)).helloModule

/-- Whether an ASSIGN of `n` is accepted: no ID, the present ID, or no context loaded (R356). -/
def Dev.assignOk (s : Dev) (n : Nat) : Bool := s.node.isNone || s.node = some n || !s.anyLoaded

def Dev.chainOn (s : Dev) : Bool := s.rdF .evfMod 0 0 Off.EVF_ENUM 0 0 = 1
def Dev.chainBase (s : Dev) : Nat := s.rdF .evfMod 0 0 Off.EVF_ENUM 30 16

/-- EVF_NODE: VALID 1 acts as ASSIGN; VALID 0 removes the ID while no context is loaded (R356, R369). -/
def Dev.nodeWrite (s : Dev) (v : Word) : Dev :=
  let sta (c : Nat) (s : Dev) : Dev := s.wrF .evfMod 0 0 Off.EVF_NODE 23 16 c
  if bit v 15 then
    if s.assignOk (fld v 14 0) then sta Code.OK (s.setNode (fld v 14 0)) else sta Code.REJECTED s
  else if s.anyLoaded && s.node.isSome then sta Code.REJECTED s
  else
    let had := s.node.isSome
    let s := s.wr .evfMod 0 0 Off.EVF_NODE (setFld (setFld (s.rd .evfMod 0 0 Off.EVF_NODE) 14 0 (fld v 14 0)) 15 15 0)
    sta Code.OK (if had then s.helloModule else s)

/-- EVF_ENUM: with CHAIN_EN and ROOT the module takes BASE and starts the chain (R357). -/
def Dev.enumWrite (s : Dev) (v : Word) : Dev :=
  let s := s.wr .evfMod 0 0 Off.EVF_ENUM (v &&& 0x7FFF0003#32)
  let n := fld v 30 16
  if bit v 0 && bit v 1 && s.assignOk n then ((s.setNode n).fillRoutes n n).sendEnum n else s

/-- ENUM_RECEIVE on ch0.p0 (R357). -/
def Dev.enumIn (s : Dev) (ch p id : Nat) : Dev :=
  if !s.chainOn || ch ≠ 0 || p ≠ 0 || 32767 < id then s
  else match s.node with
    | none => ((s.setNode id).fillRoutes id s.chainBase).sendEnum id
    | some n =>
      if n = id then s
      else (s.sendOn 0 0 (.reply 0 0 0 id Code.REJECTED)).raiseAt 0 73 false (.port 0) [id % 256, id / 256]

/-- ENUM_REPEAT_TIMER: again until the neighbour's HELLO reports the ID (R357). -/
def Dev.enumTimer (s : Dev) : Dev :=
  match s.node with
  | none => s
  | some n =>
    let told := match (s.port 0 1).partner with | some h => decide (h.node.map (·.val) = some (n + 1)) | none => false
    if s.chainOn && !told then s.sendEnum n else s

/-- ASSIGN_RECEIVE (R356). -/
def Dev.assignIn (s : Dev) (ch p id : Nat) : Dev :=
  if s.assignOk id then s.setNode id else s.sendOn ch p (.reply 0 0 0 id Code.REJECTED)

/-- HELLO_RECEIVE on a port that is UP (R346, R357, R393, R458). -/
def Dev.helloIn (s : Dev) (ch p : Nat) (h : Hello) : Dev := if (s.port ch p).state = 3 then s.takeHello ch p h else s

/-- EVF_RT_DATA: the entry at IDX, then IDX increments (R370). -/
def Dev.routeWrite (s : Dev) (ch : Nat) (v : Word) : Dev :=
  let i := s.rdF .evfCh ch 0 Off.EVF_RT_IDX 14 0
  let s := s.modFab ch fun x => { x with routes := ⟨i, i, some (fld v 7 0), bit v 8⟩ :: x.routes.filter fun r => !(r.lo = i && r.hi = i) }
  s.wrF .evfCh ch 0 Off.EVF_RT_IDX 14 0 ((i + 1) % 32768)

/-- What EVF_RT_DATA reads at IDX. -/
def Dev.routeRead (s : Dev) (ch : Nat) : Nat :=
  let i := s.rdF .evfCh ch 0 Off.EVF_RT_IDX 14 0
  match (s.fab ch).routes.find? fun r => r.lo ≤ i && i ≤ r.hi with
  | some r => (match r.ports with | some m => m | none => s.rdF .evfCh ch 0 Off.EVF_SIB 7 0) + r.valid.toNat * 256
  | none => 0

/-! ### Device time (R363 to R367) -/

/-- Whether the module follows another's time: FABRIC, or MASTER overridden by a lower one (R363, R365). -/
def Dev.followsTime (s : Dev) : Bool := s.timeMode = 3 || (s.timeMode = 1 && s.tsta 27 27 = 1)

/-- An offset in the field of EVF_TOFF: two's complement, saturating. -/
def toffOf (v : Int) : Nat := ((if v > 32767 then 32767 else if v < -32768 then -32768 else v) % 65536).toNat

/-- The port that time is taken from: the lowest master, then the fewest hops, then the lowest module port (R364, R365). -/
def Dev.timePort (s : Dev) : Option Nat :=
  let up := s.ftime.heard.filter fun e => (s.port (e.1 / 8) (e.1 % 8)).state = 3
  up.foldl (fun (b : Option Nat) e => match b with
    | none => some e.1
    | some k =>
      let v := s.ftime.heard.get (0, 0) k
      if e.2.1 < v.1 || (e.2.1 = v.1 && e.2.2 < v.2) then some e.1 else some k) none

/-- Sets device time and plank number of the hub and of every channel its link reaches. -/
def Dev.setClock (s : Dev) (t plank : Nat) : Dev :=
  { s with time := t, plank := plank
           chans := (List.range 8).foldl (fun (m : Store Chan) ch =>
             let c := m.get Chan.fresh ch
             if c.linkUp then m.set Chan.fresh ch { c with time := t, plank := plank } else m) s.chans }

/-- TIME_RECEIVE (R364, R365, R367). -/
def Dev.timeIn (s : Dev) (ch p : Nat) (m : TimeMsg) : Dev :=
  let k := ch * 8 + p
  let s := s.bump .evfMod 0 0 Off.EVF_TIMEMSG 1
  let s := s.modTime fun t => { t with heard := t.heard.set (0, 0) k (m.master.val + 1, m.hops), minWins := t.minWins.set 0 k m.minWin }
  let lower := match s.node with | some n => decide (m.master.val < n) | none => false
  let s := if s.timeMode = 1 && lower then s.setTsta 27 27 1 else s
  if !s.followsTime || s.timePort ≠ some k then s
  else
    let at_ := m.time.toNat + s.ftime.delays.get 0 k
    let off : Int := (at_ : Int) - s.time
    let s := s.wrF .evfMod 0 0 Off.EVF_TOFF 15 0 (toffOf off)
    let s := if s.ftime.from_.isNone && !s.anyLoaded then (s.setClock at_ m.plank.toNat).modTime fun t => { t with slew := 0 }
      else s.modTime fun t => { t with slew := off }
    let s := s.modTime fun t => { t with from_ := some k, lastMsg := s.plank }
    let s := (((s.setTsta 2 0 1).setTsta 17 3 m.master.val).setTsta 18 18 1).setTsta 26 19 (m.hops + 1)
    match m.change, s.ftime.change with
    | some (b, per, fill), none =>
      (s.modTime fun t => { t with change := some (b.toNat, per, fill) }).wr64 .plk 0 0 Off.PLK_APPLY b.toNat
    | _, _ => s

/-- TIME_SEND_TIMER: a master with a valid ID, or a module that follows one, sends time on (R364, R365, R367). -/
def Dev.timeSend (s : Dev) : Dev :=
  match s.node with
  | none => s
  | some n =>
    let master := s.timeMode = 1 && s.tsta 27 27 = 0
    let follows := s.followsTime && s.tsta 0 0 = 1
    if !master && !follows then s
    else
      let hops := if master then 0 else s.tsta 26 19
      let who := if master then n else s.tsta 17 3
      let change := s.ftime.change.map fun c => (BitVec.ofNat 64 c.1, c.2.1, c.2.2)
      let msg : TimeMsg := ⟨Fin.ofNat 32768 who, hops, BitVec.ofNat 64 s.time, BitVec.ofNat 64 s.plank, s.minWin, change⟩
      let ports := ((List.range 8).map fun ch => (s.upPorts ch).map fun p => (ch, p)).flatten
      let wants (e : Nat × Nat) : Bool :=
        let same := match (s.port e.1 e.2).partner with | some h => decide (h.node.map (·.val) = some n) | none => false
        let v := s.ftime.heard.get (0, 0) (e.1 * 8 + e.2)
        !same && s.ftime.from_ ≠ some (e.1 * 8 + e.2) && (v.1 ≠ who + 1 || hops < v.2)
      (ports.filter wants).foldl (fun s e => s.sendOn e.1 e.2 (.time msg)) s

def Dev.linkDelay (s : Dev) (ch p d : Nat) : Dev := s.modTime fun t => { t with delays := t.delays.set 0 (ch * 8 + p) d }

/-- The channel whose EVF_CH page raises TIME_LOST: the one that receives time. -/
def Dev.timeCh (s : Dev) : Nat := match s.ftime.from_ with | some k => k / 8 | none => 0

/-- TIME_HOLDOVER_EXPIRE (R364). -/
def Dev.holdoverEnd (s : Dev) : Dev :=
  if s.followsTime && s.tsta 1 1 = 1 then ((s.setTsta 2 0 4).modTime fun t => { t with slew := 0 }).raise s.timeCh 74 else s

/-- An edge is ignored or missing: the third in a row sets TIME_LOST (R366). -/
def Dev.edgeMissed (s : Dev) : Dev :=
  let n := s.ftime.misses + 1
  let s := s.modTime fun t => { t with misses := n }
  if n = 3 then (s.setTsta 2 0 4).raise s.timeCh 74 else s

/-- PLANK_IN_EDGE, `off` ns after the expected boundary; sampled in PIN mode only (R366, R525). -/
def Dev.plankIn (s : Dev) (off : Int) : Dev :=
  if s.timeMode ≠ 2 then s
  else if off.natAbs ≤ 10 * max 1 (s.rdF .evfMod 0 0 Off.EVF_TIME_CTL 15 8) then
    let s := s.modTime fun t => { t with edge := true, misses := 0, skew := off }
    (s.wrF .evfMod 0 0 Off.EVF_TOFF 15 0 (toffOf off)).setTsta 2 0 1
  else (s.bump .evfMod 0 0 Off.EVF_PINMISS 1).edgeMissed

/-- EVF_TIME_CTL: a write of MODE clears CONFLICT; a change of mode forgets what the module followed (R363, R365). -/
def Dev.timeCtl (s : Dev) (v : Word) : Dev :=
  let old := s.timeMode
  let v := if fld v 15 8 = 0 then setFld v 15 8 1 else v
  let s := (s.wr .evfMod 0 0 Off.EVF_TIME_CTL (v &&& 0xFF03#32)).setTsta 27 27 0
  if s.timeMode = old then s
  else
    let s := (s.wr .evfMod 0 0 Off.EVF_TIME_STA 0).modTime fun t => { t with from_ := none, slew := 0, misses := 0, edge := false, skew := 0 }
    match s.timeMode, s.node with
    | 1, some n => (s.setTsta 17 3 n).setTsta 18 18 1
    | _, _ => s

/-- A boundary's part of time keeping: slewing at 1 ns per µs, HOLDOVER when a message is missing, a missing edge (R364, R366). -/
def Dev.keepTime (s : Dev) : Dev :=
  let us : Int := s.periodNs / 1000
  let d := max (-us) (min us s.ftime.slew)
  let s := { s with time := ((s.time : Int) + d).toNat }
  let s := s.modTime fun t => { t with slew := t.slew - d }
  let s := if s.followsTime && s.tsta 0 0 = 1 && decide (s.ftime.lastMsg + 64 < s.plank) then s.setTsta 1 1 1 else s
  if s.timeMode = 2 then
    let s := if s.ftime.edge then s else s.edgeMissed
    s.modTime fun t => { t with edge := false }
  else s

/-! ### The plank period (R14, R250, R367) -/

/-- Longest single layer execution that a new period must leave room for: on a master, of every module that reported (R14, R367). -/
def Dev.minWinAll (s : Dev) : Nat := (s.ftime.minWins.map (·.2)).foldl max s.minWin

/-- PLK_CTL (R14, R250, R367). -/
def Dev.plkCtl (s : Dev) (v : Word) : Dev :=
  let sta (c : Nat) (s : Dev) : Dev := s.wrF .plk 0 0 Off.PLK_STA 7 0 c
  let per := fld v 7 0
  let fill := fld v 14 8
  if s.timeMode ≥ 2 ∨ s.followsTime then sta Code.REJECTED s
  else if s.ftime.change.isSome then sta Code.BUSY s
  else if per < 4 ∨ 128 < per ∨ fill < 50 ∨ 100 < fill ∨ per * 1000 < s.minWinAll + 1600 then sta Code.RANGE s
  else
    let b := s.plank + (if s.timeMode = 1 then 65 else 3)
    let s := s.wr .plk 0 0 Off.PLK_CTL (v &&& 0x17FFF#32)
    sta Code.PENDING ((s.modTime fun t => { t with change := some (b, per, fill) }).wr64 .plk 0 0 Off.PLK_APPLY b)

/-- At the boundary that PLK_APPLY names the period and the fill target change in every channel (R14, R250). -/
def Dev.applyPeriod (s : Dev) : Dev :=
  match s.ftime.change with
  | some (b, per, fill) =>
    if s.plank < b then s
    else
      let own := s.rdF .plk 0 0 Off.PLK_STA 7 0
      let s := (s.wrF .plk 0 0 Off.PLK_STA 15 8 per).wrF .plk 0 0 Off.PLK_STA 22 16 fill
      let s := if own = Code.PENDING || own = Code.BUSY then s.wrF .plk 0 0 Off.PLK_STA 7 0 Code.OK else s
      let s := s.modTime fun t => { t with change := none }
      (s.ctxs.filter fun e => e.2.pat.isSome).foldl (fun s e => s.setDepth e.1) s
  | none => s

/-- Status words of the PLK page (R250); PLK_NEXT reads 0, its reset value, until the first boundary. -/
def Dev.plkView (s : Dev) (o : Nat) : Option Word :=
  let lo (n : Nat) : Option Word := some (BitVec.ofNat 32 n)
  if o = Off.PLK_CNT then lo s.plank
  else if o = Off.PLK_CNT + 4 then lo (s.plank / 2 ^ 32)
  else if o = Off.PLK_TIME then lo s.time
  else if o = Off.PLK_TIME + 4 then lo (s.time / 2 ^ 32)
  else if o = Off.PLK_NEXT then lo (if s.time = 0 then 0 else s.time + s.periodNs)
  else if o = Off.PLK_NEXT + 4 then lo (if s.time = 0 then 0 else (s.time + s.periodNs) / 2 ^ 32)
  else if o = Off.PLK_MINWIN then lo (s.minWin % 2 ^ 18)
  else none

/-- Status words of an EVF_CH page (R370). -/
def Dev.evfChView (s : Dev) (ch o : Nat) : Option Word :=
  let bits (f : Nat → Bool) : Nat := ((List.range 8).map fun p => (f p).toNat * 2 ^ p).sum
  let st (p : Nat) : Nat := (s.port ch p).state
  if o = Off.EVF_RT_DATA then some (BitVec.ofNat 32 (s.routeRead ch))
  else if o = Off.EVF_CH_STA then
    some (BitVec.ofNat 32 (bits (fun p => st p = 3) + bits (fun p => st p = 4) * 2 ^ 8 + bits (fun p => st p = 1 || st p = 2) * 2 ^ 16))
  else if 0x200 ≤ o ∧ o < 0x400 ∧ (o - 0x200) % 0x40 = 0 then
    let p := (o - 0x200) / 0x40
    match (s.port ch p).partner with
    | some h =>
      let node := match h.node with | some n => n.val * 8 + 2 ^ 18 | none => 0
      some (BitVec.ofNat 32 (st p + node + h.ch.val * 2 ^ 19 + h.port.val * 2 ^ 22 + 2 ^ 25))
    | none => some (BitVec.ofNat 32 (st p))
  else none

/-- EVF_NODE with LOCKED (R369). -/
def Dev.evfModView (s : Dev) (o : Nat) : Option Word :=
  if o = Off.EVF_NODE then some (setFld (s.rd .evfMod 0 0 Off.EVF_NODE) 24 24 s.anyLoaded.toNat) else none

end Sys2Proof.Machine
end

