-- ==== Sys2Proof/Machine/Boundary.lean ====
section
/-! DEFINITION. The plank boundary: time and the eight steps of R16 over every channel, the orderly thermal stop (R415), C1 (R457), and
what the plan issues at step 8. -/

namespace Sys2Proof.Machine
open Sys2Proof

/-- Does `f` on every channel in turn. -/
def Dev.eachCh (s : Dev) (f : Dev → Nat → Dev) : Dev := (List.range 8).foldl f s
/-- The same on the channels that perform the boundary steps (R16, R379). -/
def Dev.eachServing (s : Dev) (f : Dev → Nat → Dev) : Dev := s.eachCh fun s ch => if s.serves ch then f s ch else s

/-! ### Time (R12, R16 step 1) -/

/-- Time on CLK_MGT, and the operating seconds it completes (R502). -/
def Dev.mgtTick (s : Dev) (ns : Nat) : Dev :=
  { s with mgtNs := s.mgtNs + ns, opSecs := s.opSecs + ((s.mgtNs + ns) / 1000000000 - s.mgtNs / 1000000000) }

/-- A channel's counters: the hub's over its link, else its own; a channel in C2 keeps none (R12, R458). -/
def Dev.chTick (s : Dev) (ns ch : Nat) : Dev :=
  if s.cstate ch = 2 then s
  else s.modChan ch fun c =>
    if c.linkUp then { c with time := s.time, plank := s.plank } else { c with time := c.time + ns, plank := c.plank + 1 }

/-- Clusters of the channels that perform the boundary steps. -/
def Dev.servingClusters (s : Dev) : List Nat := (List.range 64).filter fun cl => s.serves (cl / 8)

/-- The plank ends: its time has gone to carried work, work that missed it is carried now, and the storm rule judges it by the settings it ran
under (R20, R136). -/
def Dev.endPlank (s : Dev) (ns : Nat) (late : List SeqRef) : Dev :=
  s.servingClusters.foldl (fun s cl => s.stormEnd cl) (s.shiftCarry ns late)

/-- Step 1 of the boundary: settings take effect, the plank counter increments, PLANK_OUT pulses, time is corrected and a period change
applies (R12, R14, R364 to R366, R525). -/
def Dev.timeStep (s : Dev) (late : List SeqRef) : Dev :=
  let ns := ((s.periodNs : Int) + s.ftime.skew).toNat
  let s := s.endPlank ns late
  let s := { s with eff := s.regs }.modTime fun t => { t with skew := 0 }
  let s := ({ s with time := s.time + ns, plank := s.plank + 1 }.mgtTick ns).keepTime
  let s := if s.inForce .plk 0 0 Off.PLK_CTL 16 16 = 1 then s.emit .plankOut else s
  let s := s.applyPeriod
  s.eachCh fun s ch => (s.chTick ns ch).modChan ch fun c => { c with driftLeft := c.driftLeft - 1, irqSent := [] }

/-! ### The orderly thermal stop (R415) -/

/-- Sequences of a channel that an orderly stop has still to settle. -/
def Dev.stopLeft (s : Dev) (ch : Nat) : Bool :=
  (s.seqsOf ch).any fun r =>
    let st := s.st r
    st = St.PREFILL || st = St.DECODE || st = St.STOPPING || (match (s.seq r).stopping with | .thermal _ => true | _ => false)

/-- One sequence of an orderly stop is checkpointed; a park's hood copy is abandoned, and its TTL kept (step 3 of R415). -/
def Dev.stopSeq (s : Dev) (r : Nat) : Dev :=
  let ch := entCh r
  let st := s.st r
  let ttl := max 1 (s.inForce .thmCh ch 0 Off.THM_SD_TTL 31 0)
  match (s.seq r).stopping with
  | .park t _ _ _ _ => ((s.abandonHood r).startCkpt r).modSeq r fun q => { q with stopping := .thermal t }
  | .no =>
    if st = St.PREFILL ∨ st = St.DECODE ∨ st = St.PAUSED then (s.startCkpt r).modSeq r fun q => { q with stopping := .thermal ttl, replay := [] }
    else s
  | _ => s

/-- Step 3 of an orderly stop, once no step is in flight. -/
def Dev.stopBoundary (s : Dev) (ch : Nat) : Dev :=
  let c := s.chan ch
  if !c.orderly ∨ c.stopCkpt ∨ (s.seqsOf ch).any (fun r => (s.seq r).step.isSome) then s
  else ((s.seqsOf ch).foldl (fun s r => s.stopSeq r) s).modChan ch fun c => { c with stopCkpt := true }

/-- ORDERLY_STOP_COMPLETE: every sequence of the channel is done, so THM_SHUTDOWN halts it (step 5 of R415). -/
def Dev.orderlyDone (s : Dev) (ch : Nat) : Dev :=
  let c := s.chan ch
  if c.orderly ∧ c.stopCkpt ∧ !s.stopLeft ch then
    (s.modChan ch fun c => { c with orderly := false, stopCkpt := false }).raise ch 84
  else s

/-! ### Steps 2 to 4 -/

/-- Exit from CONTAINED where it is due, the entries of a HALTED reset, and steps 1 to 3 of the sequences (R383, R464, R16). -/
def Dev.commitStep2 (s : Dev) (env : BoundaryEnv) (ch : Nat) : Dev :=
  let c := s.chan ch
  let s := if s.fltState ch = 1 ∧ c.quietDone then s.exitContained ch else s
  if !s.serves ch then s
  else
    let s := if c.resumeDue then (s.modChan ch fun c => { c with resumeDue := false }).returnToService ch else s
    s.commitAll ch env

/-- Step 4 for one sequence: page moves, drops, parks and ended restores (R196, R199, R210, R212). -/
def Dev.settleSeq (s : Dev) (r : Nat) : Dev :=
  let carried := match (s.seq r).step with | some st => st.slip ≠ 0 | none => false
  let s := s.settlePages r carried
  let s := if (s.chan (entCh r)).orderly then s else (s.parkStep4 r).parkStep2 r
  s.finishRestore r

/-- Whether a channel's tiles move: in service, or in a start before READY, and not in an orderly stop (R415, R471). -/
def Dev.tilesMove (s : Dev) (ch : Nat) : Bool :=
  (s.serves ch || s.vin && s.fltState ch = 0 && s.cstate ch ≠ 2 && s.chInit ch) && !(s.chan ch).orderly

/-- Step 4 of a channel's tiles and blocking runs (R58, R75, R288, R420). -/
def Dev.tileStep4 (s : Dev) (ch : Nat) : Dev :=
  if !s.tilesMove ch then s
  else
    let s := (s.tileKeys ch).foldl (fun s k => s.applyCoef k) s
    (((s.leaveTiles ch).spareWork ch).programTiles ch).runBoundary ch

/-- Step 4 of the contexts: spill layers, adapters, waves, unloads, cleaning, snapshots, tree descriptors (R148, R268, R273, R281, R287, R296,
R449). -/
def Dev.ctxStep4 (s : Dev) (env : BoundaryEnv) : Dev :=
  let ns := s.ctxs.map (·.1)
  let s := ns.foldl (fun s n => s.cleanBoundary n) s
  let s := s.eachCh fun s ch => s.placeBoundary ch
  let s := s.settled.foldl (fun s n => (s.unspill n).spreadParts n) s
  let s := ns.foldl (fun s n => s.failLost n) s
  let s := ((s.eachServing fun s ch => s.adpBoundary ch).adpSettle).sweepAdapters
  let s := ns.foldl (fun s n => s.waveBoundary n env.host) s
  let s := s.eachServing fun s ch => ns.foldl (fun s n => s.unloadBoundary ch n) s
  let s := ns.foldl (fun s n => s.snapshot n) s
  ns.foldl (fun s n => s.treeStep n) s

def Dev.step4 (s : Dev) (env : BoundaryEnv) : Dev :=
  let s := s.eachServing fun s ch => ((s.seqsOf ch).foldl (fun s r => s.settleSeq r) s).stopBoundary ch
  let s := s.eachServing fun s ch => (s.seqsOf ch).foldl (fun s r => s.retryRestore r) s
  ((s.eachCh fun s ch => s.tileStep4 ch).ctxStep4 env).eachServing fun s ch => s.closeRings ch

/-! ### Steps 5 to 7 -/

/-- Entries of a channel whose host command waits for the scan. -/
def Dev.waiting (s : Dev) (ch : Nat) : List Nat :=
  (s.entries ch).filter fun r =>
    let w := s.ent r Ent.CMD_W 4
    nfld w 2 0 ≠ 0 && nfld w 15 8 = Code.PENDING

/-- Whether anything keeps a channel from C1, or takes it out (R457). -/
def Dev.chBusy (s : Dev) (ch : Nat) : Bool :=
  ((s.seqsOf ch).any fun r =>
    let st := s.st r
    st = St.PREFILL || st = St.DECODE || st = St.STOPPING || (s.seq r).pages.any fun (e : Nat × PageSt) => e.2.move.isSome)
  || !(s.chan ch).carried.isEmpty || (s.tiles.any fun e => tileCh e.1 = ch && !e.2.carried.isEmpty)
  || (s.ctxs.any fun e => s.phase e.1 ≠ Ph.NONE && (s.mask e.1).contains ch)
  || (s.tiles.any fun e => tileCh e.1 = ch && (e.2.state = .programming || e.2.state = .blocking))

/-- Step 5 with C1: the scan that starts work returns the channel to C0 (R16, R457). -/
def Dev.scanStep (s : Dev) (ch : Nat) : Dev :=
  let cmds := s.waiting ch
  let s := s.scan ch
  let left := s.waiting ch
  if cmds.any (fun r => !left.contains r) ∨ s.chBusy ch then
    (if s.cstate ch = 1 then s.wrF .pwrCh ch 0 Off.PWR_CH_STA 1 0 0 else s).modChan ch fun c => { c with idle := 0 }
  else s.modChan ch fun c => { c with idle := c.idle + 1 }

/-- C1_ENTRY: the channel gates its engine clocks after C1_IDLE idle planks (R457). -/
def Dev.c1Enter (s : Dev) (ch : Nat) : Dev :=
  let c1 := s.inForce .pwrCh ch 0 Off.PWR_CH_CTL 8 8 = 1
  if s.serves ch ∧ s.cstate ch = 0 ∧ c1 ∧ max 1 (s.inForce .pwrCh ch 0 Off.PWR_CH_CTL 7 0) ≤ (s.chan ch).idle ∧ !s.chBusy ch then
    s.wrF .pwrCh ch 0 Off.PWR_CH_STA 1 0 1
  else s

/-- Step 6: the thermal model of every powered channel, and the power cap (R16, R379, R405, R27). -/
def Dev.thermStep (s : Dev) : Dev :=
  let ns := s.periodNs
  (s.eachCh fun s ch => if s.cstate ch = 2 then s else s.thermChannel ch ns).capBoundary

/-- Step 7: wide mode, the plan, background moves and reservations (R16, R134, R226, R292 to R294). -/
def Dev.planStep (s : Dev) (env : BoundaryEnv) : Dev :=
  let s := (s.servingClusters.foldl (fun s cl => s.stormBoundary cl) s).countWork
  let s := s.eachCh fun s ch => if s.serves ch then ((s.plan ch env.full).migrate ch).closeRings ch else s.noPlan ch
  let act := (s.ctxs.map (·.1)).filter fun n => s.ctxState n = 1
  (s.eachServing fun s ch => act.foldl (fun s n => s.topUp ch n) s).writePrefs

/-! ### Step 8 -/

/-- The staged copy that a request names. -/
def stagedOf (e : StageReq) (f : Frame) : Staged := ⟨e.core.ix, e.addr, e.seq.ix, pageKey e.layer e.page, e.k, f⟩

/-- A frame of a page in T1 or T2 of a decoding sequence is copied to the scratchpad of a core of its home channel (R194, R195). -/
def Dev.stagePage (s : Dev) (e : StageReq) : Dev :=
  let r := e.seq.ix
  match ((s.seq r).pages.find? fun g => g.1 = pageKey e.layer e.page).bind fun g => g.2.frames[e.k]?.map fun f => (g.2, f) with
  | some (pg, f) =>
    if pg.state = .absent ∨ pg.isState ∨ f.tier > 2 ∨ s.st r ≠ St.DECODE ∨ e.core.ch ≠ e.seq.ch ∨ 4194304 < e.addr + frameBytes then s
    else
      let a := e.core.ix * 2 ^ 22 + e.addr
      let b := frameBase f
      let bs := s.mem.keep fun k => decide (b ≤ k) && decide (k < b + frameBytes)
      { s with
        t0 := bs.foldl (fun m x => m.set 0 (a + (x.1 - b)) x.2) (s.t0.drop a (a + frameBytes))
        staged := s.staged.filter (fun x => decide (x.core ≠ e.core.ix ∨ x.addr ≠ e.addr)) ++ [stagedOf e f] }
  | none => s

/-- A staged copy is dropped: the page's frame holds the same bytes (R195). -/
def Dev.unstage (s : Dev) (e : StageReq) : Dev :=
  { s with staged := s.staged.filter fun x => !(x.core = e.core.ix && x.addr = e.addr && x.r = e.seq.ix) }

/-- Copies of frames that their pages have left are dropped (R195, R196). -/
def Dev.dropStaged (s : Dev) : Dev :=
  { s with staged := s.staged.filter fun x => (s.seq x.r).pages.any fun g => g.1 = x.key && g.2.frames[x.k]? = some x.frame }

/-- What the plan sets up beside the steps, in the channels that run (R195, R311, R322, R354, R359). -/
def Dev.issueStep (s : Dev) (p : PlanIssue) : Dev :=
  let s := p.freeRegions.foldl (fun s e => if s.serves e.1.ch.val then s.freeRegion e.1.ix e.2.val else s) s
  let s := p.regions.foldl (fun s d => if s.serves d.core.ch.val then s.defineRegion d else s) s
  let s := p.disarms.foldl (fun s e => if s.serves e.1.val then s.freeObj e.1.val e.2.val else s) s
  let s := p.arms.foldl (fun s a => if s.serves a.ch.val then s.planArm a else s) s
  let s := p.unlends.foldl (fun s l => s.modFab l.ch.val fun f => { f with lends := f.lends.filter fun x => x ≠ l }) s
  let s := p.lends.foldl (fun s l => if s.serves l.ch.val && (s.fab l.ch.val).lends.length < 1024 then s.modFab l.ch.val fun f => { f with lends := f.lends ++ [l] } else s) s
  let s := p.unstages.foldl (fun s e => s.unstage e) s
  let s := p.stages.foldl (fun s e => if s.serves e.seq.ch.val then s.stagePage e else s) s
  let s := p.sends.foldl (fun s e => if s.serves e.1.val then s.fabSend e.1.val e.2 else s) s
  (p.colls.foldl (fun s o => if s.serves o.ch.val then s.openColl o else s) s).feedColls

/-- Slack of a tile in the new plank: what carried work and the plan leave empty of its work window (R18, R20). -/
def Dev.slackOf (s : Dev) (t : Tile) : Nat := if t.slices.isEmpty then 0 else s.workWindow - carryNs t - t.planned

/-- Step 8: groups open, the slack is set, the storm rule's P is taken, and the marks of the plank that ended go (R18, R132). -/
def Dev.issueAll (s : Dev) (env : BoundaryEnv) : Dev :=
  let s := env.opens.foldl (fun s o => if s.serves o.core.ch.val then s.openGroup o else s) s
  let s := s.issueStep env.issue
  let s := { s with
    tiles := s.tiles.mapV' Tile.reset fun _ t => { t with slack := s.slackOf t }
    cores := s.cores.mapV Core.fresh fun _ c => { c with used := 0 } }
  let s := s.servingClusters.foldl (fun s cl => s.modClus cl fun x => { x with storm := { x.storm with
    planned := ((env.planned.find? (·.1 = cl)).map (·.2)).getD 0 } }) s
  let s := { s with clusters := s.clusters.mapV Cluster.fresh fun _ x => if x.pae.run.isNone then { x with pae := { x.pae with kind := 0, ctx := 0 } } else x }
  (s.eachCh fun s ch => s.modChan ch fun c => { c with carried := [], slipNow := [], irqSent := [], offers := [] }).dropTamper

/-- PLANK_BOUNDARY (R16). Without VIN only CLK_MGT goes on. -/
def Dev.boundary (s : Dev) (env : BoundaryEnv) : Dev :=
  if !s.vin then s.mgtTick s.periodNs
  else
    let s := (s.timeStep env.late).eachCh fun s ch => (s.takeOffers ch env.lent).commitStep2 env ch
    let s := (s.loseT3.step4 env).eachServing fun s ch => s.scanStep ch
    ((s.thermStep).planStep env).dropStaged.issueAll env

end Sys2Proof.Machine
end

