-- ==== Sys2Proof/Machine/Sha.lean ====
section
/-! DEFINITION. SHA-512 (FIPS 180-4), the measurement of firmware images and the configuration digest (R493, R499). The constants
are computed as that standard defines them, from the square and cube roots of the first primes. -/

namespace Sys2Proof.Machine
open Sys2Proof

abbrev W64 := BitVec 64

/-- The largest r below 2^n with r^k ≤ x. -/
def rootBits (k x : Nat) : Nat → Nat → Nat
  | 0, r => r
  | n + 1, r => if (r + 2 ^ n) ^ k ≤ x then rootBits k x n (r + 2 ^ n) else rootBits k x n r

/-- The first 80 primes. -/
def primes80 : List Nat :=
  ((List.range 410).filter fun n => 2 ≤ n && (List.range 21).all fun d => d < 2 || n ≤ d || n % d ≠ 0).take 80

/-- The first 64 bits of the fractional parts of the cube roots of the first 80 primes, and of the square roots of the first 8. -/
def shaK : List W64 := primes80.map fun p => BitVec.ofNat 64 (rootBits 3 (p * 2 ^ 192) 68 0)
def shaH : List W64 := (primes80.take 8).map fun p => BitVec.ofNat 64 (rootBits 2 (p * 2 ^ 128) 70 0)

def shaS (a b c : Nat) (x : W64) : W64 := x.rotateRight a ^^^ x.rotateRight b ^^^ x.rotateRight c
def shaG (a b c : Nat) (x : W64) : W64 := x.rotateRight a ^^^ x.rotateRight b ^^^ (x >>> c)

/-- The 80 words of a block's message schedule, from its 16 words. -/
def shaSchedule (ws : List W64) : List W64 :=
  (List.range 64).foldl (fun w i =>
    w ++ [shaG 19 61 6 (nth 0 w (i + 14)) + nth 0 w (i + 9) + shaG 1 8 7 (nth 0 w (i + 1)) + nth 0 w i]) ws

/-- One round on the eight working words. -/
def shaRound (v : List W64) (kw : W64 × W64) : List W64 :=
  match v with
  | [a, b, c, d, e, f, g, h] =>
    let t1 := h + shaS 14 18 41 e + ((e &&& f) ^^^ (~~~e &&& g)) + kw.1 + kw.2
    let t2 := shaS 28 34 39 a + ((a &&& b) ^^^ (a &&& c) ^^^ (b &&& c))
    [t1 + t2, a, b, c, d + t1, e, f, g]
  | _ => v

/-- A big-endian value. -/
def ofBig (bs : List Byte) : Nat := bs.foldl (fun n b => n * 256 + b.toNat) 0

def shaBlock (h : List W64) (b : List Byte) : List W64 :=
  let ws := (List.range 16).map fun i => BitVec.ofNat 64 (ofBig ((b.drop (8 * i)).take 8))
  let v := (shaK.zip (shaSchedule ws)).foldl shaRound h
  List.zipWith (· + ·) h v

/-- The padded message: a one bit, zeros, and the length in bits over 16 bytes. -/
def shaPad (m : List Byte) : List Byte :=
  m ++ [0x80#8] ++ List.replicate ((239 - m.length % 128) % 128) 0 ++ (toBytes 16 (8 * m.length)).reverse

/-- The 64 bytes of SHA-512 over a message. -/
def sha512 (m : List Byte) : List Byte :=
  let p := shaPad m
  let h := (List.range (p.length / 128)).foldl (fun h i => shaBlock h ((p.drop (128 * i)).take 128)) shaH
  (h.map fun w => (toBytes 8 w.toNat).reverse).flatten

end Sys2Proof.Machine
end

