-- ==== Sys2Proof/Machine/Firmware.lean ====
section
/-! DEFINITION. Firmware (R493 to R497): slots, the checks of an image, staging, activation, the boot of a kind, and SVN commits. -/

namespace Sys2Proof.Machine
open Sys2Proof

/-- Key of a kind of firmware on a die; die 8 is the hub. -/
def fwKey (die kind : Nat) : Nat := die * 3 + kind
def Dev.fw (s : Dev) (k : Nat) : Fw := s.fws.get Fw.fresh k
def Dev.modFw (s : Dev) (k : Nat) (f : Fw → Fw) : Dev := { s with fws := s.fws.set Fw.fresh k (f (s.fw k)) }

/-- Whether a die holds firmware of a kind (R489, R493). -/
def fwHas (die kind : Nat) : Bool := kind = 0 || (kind = 1 && die < 8) || (kind = 2 && die = 8)

def fwSlot (f : Fw) (i : Nat) : FwSlot := if i = 0 then f.slotA else f.slotB
def fwSetSlot (f : Fw) (i : Nat) (v : FwSlot) : Fw := if i = 0 then { f with slotA := v } else { f with slotB := v }
/-- The slot that is not active. -/
def fwOther (f : Fw) : Nat := 1 - f.active

/-- Record of a firmware event in a channel; the hub has no recorder (R503). -/
def Dev.fwRecord (s : Dev) (code die kind slot svn : Nat) : Dev :=
  if die < 8 then s.record die (Ev.plain code 2 true [kind, slot, svn % 256, svn / 256]) else s

/-! ### The image (R493, R494) -/

/-- Largest BODY_SIZE of a kind. -/
def fwCap (kind : Nat) : Nat := if kind = 0 then 2 ^ 20 else if kind = 1 then 2 ^ 23 else 2 ^ 22

def fwPeek (b : Store Byte) (a n : Nat) : Nat := ofBytes ((List.range n).map fun i => b.get 0 (a + i))
def fwBytes (b : Store Byte) (n : Nat) : List Byte := (List.range n).map fun i => b.get 0 i
/-- Signed bytes of an image, by its header. -/
def fwSigned (b : Store Byte) : Nat := 0x40 + fwPeek b 0x0C 4

/-- How far bytes from 0 on are covered by ranges. -/
def reachFrom0 (got : List (Nat × Nat)) : Nat :=
  (sortBy (fun x y => decide (x.1 ≤ y.1)) got).foldl (fun r (e : Nat × Nat) => if e.1 ≤ r then max r e.2 else r) 0

/-- Whether a staging holds its header and everything its header announces. -/
def fwComplete (f : Fw) : Bool := 0x40 ≤ reachFrom0 f.got && fwSigned f.staged + 64 ≤ reachFrom0 f.got

/-- Header fields of R493, and zeros in the bytes it does not list. -/
def fwHeaderOk (b : Store Byte) : Bool :=
  fwPeek b 0 4 = 0x57464B47 && fwPeek b 0x06 2 = 0 && fwPeek b 0x0A 2 = 0
    && (List.range 40).all fun i => b.get 0 (0x18 + i) = 0

/-- DETAIL of the first check that fails, in code order; 0 where the image is valid (R494). -/
def fwCheck (f : Fw) (kind : Nat) : Nat :=
  let b := f.staged
  let key := fwPeek b 5 1
  let n := fwSigned b
  if !fwHeaderOk b then 1
  else if fwCap kind + 0x40 < n ∨ !fwComplete f then 2
  else if 1 < key ∨ Config.keyRevoked key then 3
  else if !Config.fwVerify key (fwBytes b n) ((List.range 64).map fun i => b.get 0 (n + i)) then 4
  else if fwPeek b 8 2 < f.minSvn then 5
  else if fwPeek b 4 1 ≠ kind then 6
  else 0

/-! ### Boot (R495) -/

/-- An image runs: its slot, SVN and measurement are kept for attestation. -/
def Dev.fwRun (s : Dev) (die kind slot : Nat) : Dev :=
  let k := fwKey die kind
  let s := s.modFw k fun f => { f with
    active := slot, pending := false, running := true, runSlot := slot, runSvn := (fwSlot f slot).svn, meas := (fwSlot f slot).meas }
  s.fwRecord 0x0300 die kind slot (s.fw k).runSvn

/-- The boot of a kind: the active slot, else the other with FW_VERIFY and FW_FALLBACK; the second part says whether one verified. -/
def Dev.fwBoot (s : Dev) (die kind : Nat) : Dev × Bool :=
  let k := fwKey die kind
  let f := s.fw k
  let a := f.active
  let o := (fwOther f)
  if (fwSlot f a).valid then (s.fwRun die kind a, true)
  else
    let s := s.fwRecord 0x0301 die kind a (fwSlot f a).svn
    if (fwSlot f o).valid then
      let s := (s.fwRun die kind o).modFw k fun f => { f with fallback := true }
      (if die < 8 then s.raise die 92 else s, true)
    else
      let s := (s.fwRecord 0x0301 die kind o (fwSlot f o).svn).modFw k fun f => { f with running := false, pending := false }
      (s, false)

/-! ### Staging and activation (R495, R496) -/

/-- Puts bytes of an image into the slot that is not active; a chunk at offset 0 starts anew and invalidates that slot. -/
def fwTake (f : Fw) (path off : Nat) (bytes : List Byte) : Fw :=
  let f := if off = 0 then { (fwSetSlot f (fwOther f) FwSlot.empty) with staged := [], got := [], path := some path } else f
  { f with staged := (bytes.zipIdx).foldl (fun (b : Store Byte) e => b.set 0 (off + e.2) e.1) f.staged,
           got := f.got ++ [(off, off + bytes.length)] }

/-- Ends a staging that has everything its header announces. -/
def Dev.fwStaged (s : Dev) (die kind : Nat) : Dev :=
  let k := fwKey die kind
  let f := s.fw k
  if fwComplete f then
    (s.modFw k fun f => { f with path := none }).fwRecord 0x0302 die kind (fwOther f) (fwPeek f.staged 8 2)
  else s

/-- A chunk of an image by I3C (path 0): BUSY while the other path stages, RANGE beyond the largest image, REJECTED where no staging
runs that the chunk could go on with. -/
def Dev.fwChunk (s : Dev) (die kind off : Nat) (bytes : List Byte) : Dev × Nat :=
  let k := fwKey die kind
  let f := s.fw k
  if fwCap kind + 0x80 < off + bytes.length then (s, Code.RANGE)
  else if f.path = some 1 then (s, Code.BUSY)
  else if off ≠ 0 ∧ f.path = none then (s, Code.REJECTED)
  else ((s.modFw k fun f => fwTake f 0 off bytes).fwStaged die kind, Code.OK)

/-- The whole image from host memory (path 1), which SEC_FW_CMD STAGE reads at once. -/
def Dev.fwWhole (s : Dev) (die kind : Nat) (bytes : List Byte) : Dev :=
  (((s.modFw (fwKey die kind) fun f => fwTake f 1 0 bytes).fwStaged die kind)).modFw (fwKey die kind) fun f => { f with path := none }

/-- Activation of the slot that is not active: code and DETAIL (R494 to R496). A slot whose image was verified before needs no bytes. -/
def Dev.fwActivate (s : Dev) (die kind : Nat) : Dev × Nat × Nat :=
  let k := fwKey die kind
  let f := s.fw k
  let sl := fwSlot f (fwOther f)
  if sl.valid then
    ((s.modFw k fun f => { f with active := (fwOther f), pending := true }).fwRecord 0x0303 die kind (fwOther f) sl.svn, Code.OK, 0)
  else
    let d := fwCheck f kind
    if d ≠ 0 then (s.fwRecord 0x0301 die kind (fwOther f) (fwPeek f.staged 8 2), Code.REJECTED, d)
    else
      let svn := fwPeek f.staged 8 2
      let v : FwSlot := ⟨true, svn, sha512 (fwBytes f.staged (fwSigned f.staged))⟩
      ((s.modFw k fun f => { (fwSetSlot f (fwOther f) v) with active := (fwOther f), pending := true, staged := [], got := [], path := none }).fwRecord
        0x0303 die kind (fwOther f) svn, Code.OK, 0)

/-- SVN_COMMIT: the fused minimum rises to the SVN of the running image, at most 64 times (R497). -/
def Dev.svnCommit (s : Dev) (die kind : Nat) : Dev × Nat :=
  let k := fwKey die kind
  let f := s.fw k
  if !f.running then (s, Code.REJECTED)
  else if 64 ≤ f.commits then (s, Code.NOSPACE)
  else
    let m := max f.minSvn f.runSvn
    let fit (x : FwSlot) : FwSlot := if x.svn < m then { x with valid := false } else x
    ((s.modFw k fun f => { f with minSvn := m, commits := f.commits + 1, slotA := fit f.slotA, slotB := fit f.slotB }).fwRecord
      0x0304 die kind f.runSlot f.runSvn, Code.OK)

/-! ### SEC_FW_CMD (R515) -/

/-- The dies a SEC_FW_CMD names: channels by bit, and 8 for the hub. -/
def fwTargets (w : Word) : List Nat :=
  let chs := (List.range 8).filter fun ch => bit w (2 + ch)
  match fld w 1 0 with
  | 0 => chs ++ (if bit w 12 then [8] else [])
  | 1 => chs
  | 2 => [8]
  | _ => []

/-- Writes SEC_FW_STA. -/
def Dev.fwSta (s : Dev) (code detail : Nat) (done : List Nat) : Dev :=
  let m := (done.filter (· < 8)).foldl (fun n ch => n + 2 ^ (16 + ch)) 0
  s.wr .secMod 0 0 Off.SEC_FW_STA (BitVec.ofNat 32 (code + detail * 256 + m + (if done.contains 8 then 2 ^ 24 else 0)))

/-- SEC_FW_CMD STAGE: the image goes from host memory to every die named, or to none while one of them stages by the other path. -/
def Dev.secStage (s : Dev) (w : Word) (host : HostView) : Dev :=
  let kind := fld w 1 0
  let ds := fwTargets w
  let n := (s.rd .secMod 0 0 Off.SEC_FW_SIZE).toNat
  let a := s.rd64 .secMod 0 0 Off.SEC_FW_SRC
  if ds.isEmpty then s.fwSta Code.RANGE 0 []
  else if ds.any fun d => (s.fw (fwKey d kind)).path.isSome then s.fwSta Code.BUSY 0 []
  else if n = 0 ∨ fwCap kind + 0x80 < n then s.fwSta Code.REJECTED 2 []
  else
    let bytes := (List.range n).map fun i => hostByte host (a + i)
    (ds.foldl (fun s d => s.fwWhole d kind bytes) s).fwSta Code.OK 0 ds

/-- SEC_FW_CMD ACTIVATE on every die named; the first failure gives STATUS and DETAIL, and the done bits name the others. -/
def Dev.secActivate (s : Dev) (w : Word) : Dev :=
  let kind := fld w 1 0
  let ds := fwTargets w
  if ds.isEmpty then s.fwSta Code.RANGE 0 []
  else
    let r := ds.foldl (fun (r : Dev × List Nat × Nat × Nat) d =>
      let (s, c, x) := r.1.fwActivate d kind
      if c = Code.OK then (s, r.2.1 ++ [d], r.2.2)
      else (s, r.2.1, if r.2.2.1 = Code.OK then (c, x) else r.2.2)) (s, [], Code.OK, 0)
    r.1.fwSta r.2.2.1 r.2.2.2 r.2.1

/-- SEC_FW_CMD: CMD codes other than STAGE and ACTIVATE give RANGE (R515). -/
def Dev.secFwCmd (s : Dev) (w : Word) (host : HostView) : Dev :=
  match fld w 11 10 with
  | 1 => s.secStage w host
  | 2 => s.secActivate w
  | _ => s.fwSta Code.RANGE 0 []

/-- SEC_FW0 and its like (R513, R515). -/
def fwWord (f : Fw) : Word :=
  BitVec.ofNat 32 (f.active + f.slotA.valid.toNat * 2 + f.slotB.valid.toNat * 4 + f.pending.toNat * 8 + f.runSvn % 65536 * 65536)

/-- Measurement words hold 64 bytes; an image of which no measurement is known reads 0. -/
def measBytes (m : List Byte) : List Byte := (m ++ List.replicate 64 0).take 64

/-- The boot ROM's measurement and those of the kinds that run on a channel's module (R513). -/
def Dev.measOf (s : Dev) (ch i : Nat) : List Byte :=
  match i with
  | 0 => measBytes (Config.romMeas ch)
  | 1 => measBytes (s.fw (fwKey ch 0)).meas
  | 2 => measBytes (s.fw (fwKey ch 1)).meas
  | _ => measBytes (s.fw (fwKey 8 2)).meas

/-- Firmware words of the SEC pages (R513, R515). -/
def Dev.secChView (s : Dev) (ch o : Nat) : Option Word :=
  if o = Off.SEC_FW0 then some (fwWord (s.fw (fwKey ch 0)))
  else if o = Off.SEC_FW1 then some (fwWord (s.fw (fwKey ch 1)))
  else if o = Off.SEC_MINSVN then
    some (BitVec.ofNat 32 ((s.fw (fwKey ch 0)).minSvn % 65536 + (s.fw (fwKey ch 1)).minSvn % 65536 * 65536))
  else if 0x200 ≤ o ∧ o < 0x300 then
    some (BitVec.ofNat 32 (ofBytes (((s.measOf ch ((o - 0x200) / 64)).drop ((o - 0x200) % 64)).take 4)))
  else if o = Off.SEC_STA then
    let p := (s.chan ch).pemor
    let lv := match p.level with | .locked => 0 | .read => 1 | .full => 2
    let fb := (s.fw (fwKey ch 0)).fallback || (s.fw (fwKey ch 1)).fallback
    some (BitVec.ofNat 32 (lv + p.opened.toNat * 4 + p.jtag.toNat * 8 + fb.toNat * 16))
  else none

def Dev.secModView (s : Dev) (o : Nat) : Option Word :=
  if o = Off.SEC_HUBFW then some (fwWord (s.fw (fwKey 8 2)))
  else if o = Off.SEC_HUBMIN then
    some (BitVec.ofNat 32 ((s.fw (fwKey 8 2)).minSvn % 65536 + (s.fw (fwKey 8 0)).minSvn % 65536 * 65536))
  else if o = Off.SEC_HUBMGT then some (fwWord (s.fw (fwKey 8 0)))
  else none

end Sys2Proof.Machine
end

