-- ==== Sys2Proof/Machine/Power.lean ====
section
/-! DEFINITION. Supplies, power states, resets and start-up (R453 to R480): what each of them keeps and clears (R466), the start of the
management side, of the channels and of the host port, C1 and C2, and the status words of the PWR pages. -/

namespace Sys2Proof.Machine
open Sys2Proof

/-! ### What survives (R466) -/

/-- A tile after its channel's logic was cleared or unpowered: its levels, RETIRED, its wear and its calibration tables stay. -/
def keepTile (k : Nat) (t : Tile) : Tile :=
  { Tile.reset k with
    state := if t.state = .retired then .retired else (Tile.reset k).state
    levels := t.levels, colMap := t.colMap, pairsUsed := t.pairsUsed
    wear := t.wear + (decide (t.state = .programming)).toNat, warned := t.warned
    calB := t.calB, calO := t.calO, calR := t.calR, vConv := t.vConv, vCell := t.vCell, rowG := t.rowG, rowO := t.rowO
    taps := t.taps, thr := t.thr, copyA := t.copyA, copyB := t.copyB, newB := t.newB, probeBase := t.probeBase }

/-- Whether a BAR0 word belongs to the management side: the MGT, SEC and EVR pages, and SEC_MOD (R466). -/
def mgtSide (a : Nat) : Bool :=
  match Page.ofAddr a with
  | some p => (match p.kind with | .mgtCh | .secCh | .evrCh | .secMod => true | _ => false)
  | none => false

/-- A channel after its logic was cleared: the recorder and the monitor stay, the monitor LOCKED at a reset of the channel. -/
def keepChan (time : Bool) (c : Chan) : Chan :=
  { Chan.fresh with
    time := if time then c.time else 0
    plank := if time then c.plank else 0
    placeDue := time && c.placeDue
    baseBad := c.baseBad, unpwr := c.unpwr, offAt := c.offAt, startAt := c.startAt, evr := c.evr, pemor := c.pemor }

/-- Bytes of an entry that keep its tag (R189, R466). -/
def isTagByte (k : Nat) : Bool := Ent.SEQ_TAG ≤ k % 128 && k % 128 < Ent.SEQ_TAG + 8

/-- What keeps through PERST_N (`perst`), or through M3 and power-on reset: everything else returns to its power-on value (R466). -/
def Dev.wiped (s : Dev) (perst : Bool) : Dev :=
  let node := pageOff .evfMod 0 0 Off.EVF_NODE
  let kept (a : Nat) : Bool := mgtSide a || perst && a = node
  { Dev.reset with
    out := s.out
    regs := s.regs.keep kept
    eff := s.eff.keep kept
    chans := s.chans.mapV Chan.fresh fun _ c => keepChan perst c
    tiles := s.tiles.mapV' Tile.reset keepTile
    rqt := if perst then s.rqt.keep isTagByte else []
    seqs := if perst then s.seqs.mapV Seq.fresh fun _ q => { Seq.fresh with adm := q.adm } else []
    mgts := s.mgts
    fws := s.fws
    time := if perst then s.time else 0
    plank := if perst then s.plank else 0
    mgtNs := s.mgtNs
    opSecs := s.opSecs
    porCount := s.porCount
    aux := s.aux
    vin := perst && s.vin
    auxPg := s.auxPg
    thermtrip := s.thermtrip
    selfOff := s.selfOff
    perstLow := s.perstLow
    slotId := s.slotId
    ticket := s.ticket }

/-- Notes that a channel's arrays lose power, unless they have none already (R468). -/
def Dev.arraysOff (s : Dev) (ch : Nat) : Dev :=
  s.modChan ch fun c => if c.offAt.isSome then c else { c with offAt := some s.mgtMs }

/-- Notes that they have power again: PWR_CH_UNPWR (R468). -/
def Dev.arraysOn (s : Dev) (ch : Nat) : Dev :=
  s.modChan ch fun c => match c.offAt with
    | some t => { c with offAt := none, unpwr := min 0xFFFFFFFF ((s.mgtMs - t) / 1000) }
    | none => c

/-- T0, cluster buffers, sync object counts and held signals of a channel are cleared; its mappings stay (R466). -/
def Dev.dropVolatile (s : Dev) (ch : Nat) : Dev :=
  let s := { s with
    t0 := s.t0.drop (ch * 2 ^ 28) ((ch + 1) * 2 ^ 28), cbuf := s.cbuf.drop (ch * 2 ^ 28) ((ch + 1) * 2 ^ 28)
    staged := s.staged.filter fun x => x.core / 64 ≠ ch }
  s.modChan ch fun c => { c with sync := { c.sync with objs := [], held := [], sent := [] } }

/-! ### Status words -/

def Dev.chSta (s : Dev) (ch hi lo v : Nat) : Dev := s.wrF .pwrCh ch 0 Off.PWR_CH_STA hi lo v
def Dev.modSta (s : Dev) (hi lo v : Nat) : Dev := s.wrF .pwrMod 0 0 Off.PWR_MOD_STA hi lo v
/-- PWR_CH_STA.CMD_STA and PWR_MOD_STA.CMD_STA. -/
def Dev.pwrSta (s : Dev) (ch code : Nat) : Dev := s.chSta ch 15 8 code
def Dev.modCmdSta (s : Dev) (code : Nat) : Dev := s.modSta 28 21 code
def Dev.initStep (s : Dev) (ch : Nat) : Nat := s.rdF .pwrCh ch 0 Off.PWR_CH_STA 6 4

/-! ### Safe state without a fault (R454, R461, R465) -/

/-- Puts a channel into the safe state of R378 without a source: its state and CAUSE stay. -/
def Dev.forceSafe (s : Dev) (ch : Nat) : Dev :=
  let s := (s.wrF .fltCh ch 0 Off.FLT_STA 2 2 1).safeState ch
  s.modChan ch fun c => { c with safeDue := true }

/-- A power state change or reset in a channel's recorder (R503): 0x0201 to 0x0203, with a kind and a state. -/
def Dev.pwrRecord (s : Dev) (ch code kind st : Nat) : Dev := s.record ch (Ev.plain code 6 true [kind, st])

/-! ### Start of a channel (R471, R495) -/

/-- Whether a channel has its supply: VIN, and management firmware that runs (R476). -/
def Dev.powered (s : Dev) (ch : Nat) : Bool := s.vin && !(s.mgt ch).bootRom

/-- Every core of a channel is due for a blocking run (R419). -/
def Dev.allDue (s : Dev) (ch : Nat) : Dev := (List.range 64).foldl (fun s c => s.bkgDue (ch * 64 + c)) s

/-- A start that fails: INIT_STEP keeps its step, and INIT_FAIL acts at HALT (R476, R478). -/
def Dev.initFail (s : Dev) (ch step : Nat) : Dev := ((((s.chSta ch 3 3 0).chSta ch 6 4 step).modChan ch fun c => { c with inReset := false })).raise ch 95

/-- Without a valid copy of the factory base table the channel enters HALTED with CAUSE CAL_CRC, whatever the severity, and no reset
clears that (R418). -/
def Dev.baseCheck (s : Dev) (ch : Nat) : Dev := if (s.chan ch).baseBad ≥ 2 then s.halt ch 87 false else s

/-- Start of a channel whose logic is clear, up to its array check: KIND 1 boots, ports train, T1 is written with zeros, T2 follows, and
every core is due for a run. -/
def Dev.chanStart (s : Dev) (ch : Nat) : Dev :=
  let s := (s.arraysOn ch).modChan ch fun c => { c with linkUp := true, startAt := s.mgtMs }
  let s := s.modMem ch fun _ => { Mem.fresh with zeroed := true }
  let s := (((s.chSta ch 1 0 0).chSta ch 2 2 0).chSta ch 3 3 1).chSta ch 6 4 4
  let b := s.fwBoot ch 1
  if b.2 then ((b.1.enablePorts ch).allDue ch).baseCheck ch else b.1.initFail ch 1

/-- Staging areas of every created context and parts of every loaded pattern are placed again in the channels (R463, R530). -/
def Dev.rebuildShare (s : Dev) (ch : Nat) : Dev :=
  let s := (s.ctxs.map (·.1)).foldl (fun s n => if s.ctxState n = 1 ∨ (s.ctx n).creating then s.takeStaging ch n else s) s
  s.settled.foldl (fun s n => s.refitParts n) s

/-! ### Power-on, VIN and power failure (R453, R454, R462, R470) -/

/-- Whether a record has reached non-volatile memory. -/
def keptRec (stored : Nat) (r : Nat × Option EvRec) : Bool := match r.2 with | some x => decide (x.seq < stored) | none => false

/-- A channel's management side without VAUX: the mirror, the monitor and the unpowered-time count are gone (R469, R505). -/
def loseMirror (c : Chan) : Chan :=
  let e := c.evr
  let r := { Recorder.fresh with recs := e.recs.filter (keptRec e.stored), next := e.next + 63, oldest := e.oldest, stored := e.next + 63 }
  { c with unpwr := 0xFFFFFFFF, offAt := none, pemor := Pemor.fresh, evr := r }

/-- VAUX is lost: AUX_PG falls, the management side loses its state, records that had not reached non-volatile memory are gone, numbering
goes on at the high-water mark, and the count of unpowered time is lost (R469, R505, R522). -/
def Dev.vauxLoss (s : Dev) : Dev :=
  if !s.aux then s
  else
    let stopFw (_ : Nat) (f : Fw) : Fw := { f with running := false, path := none }
    let s := { s with aux := false, auxPg := false, mgts := [], fws := s.fws.mapV Fw.fresh stopFw }
    (List.range 8).foldl (fun s ch => s.modChan ch loseMirror) s

/-- POWER_ON_RESET: VAUX rises to 3.0 V (R455, R462, R466, R470). -/
def Dev.powerOn (s : Dev) (slot : BitVec 6) : Dev :=
  let s := (s.vauxLoss).wiped false
  let s := { s with regs := [], eff := [], mgts := [], aux := true, auxPg := false, thermtrip := false, selfOff := false }
  let s := { s with mgtNs := 0, porCount := s.porCount + 1, slotId := slot, perstLow := true }
  { s with chans := s.chans.mapV Chan.fresh fun _ c => { c with startAt := 0 } }

/-- The event a target still owes, as its in-band interrupt: the kind of highest priority in its summary (R486). -/
def Dev.flushSummary (s : Dev) (t : Nat) : Dev :=
  let m := s.mgt t
  match (sortBy (fun a b => decide (a.1 ≤ b.1)) m.evs).head? with
  | some e => if m.ibi.isNone && m.ibiEn && m.acks && !m.restarting && m.da.isSome then s.postIbi t e else s
  | none => s

/-- MGT_FW_VERIFY_DONE: a controller's boot ROM has verified its firmware, at power-on or at MGT_RESTART (R470, R492, R495). -/
def Dev.mgtVerified (s : Dev) (t : Nat) : Dev :=
  let m := s.mgt t
  if !s.aux ∨ (m.acks ∧ !m.restarting) then s
  else
    let b := s.fwBoot t 0
    let s := b.1.modMgt t fun x => { x with acks := true, bootRom := !b.2, restarting := false }
    if m.restarting then s.flushSummary t
    else
      let s := if t < 8 then s.pwrRecord t 0x0200 0 0 else s
      if (List.range 9).all fun i => (s.mgt i).acks then { s with auxPg := true } else s

/-- VIN_START: t1 of R453. Steps 1 to 4 of R471 pass for every channel that is powered. -/
def Dev.vinOn (s : Dev) : Dev :=
  if !s.auxPg ∨ s.vin ∨ s.selfOff then s
  else
    let b := ({ s with vin := true }).fwBoot 8 2
    let s := if b.2 then b.1 else b.1.modSta 3 3 1
    s.eachCh fun s ch => if s.powered ch then s.chanStart ch else s

/-- The module goes to M3: VIN is off (R454, R461, R466). -/
def Dev.enterM3 (s : Dev) : Dev :=
  let s := s.eachCh fun s ch => s.arraysOff ch
  let s := s.wiped false
  { s with fws := s.fws.mapV Fw.fresh fun k f => if k % 3 = 0 then f else { f with running := false } }

/-- POWER_FAILURE: VIN or PWRGD_IN is gone. With OFF_OK it is the removal the module was told of (R454, R461). -/
def Dev.powerFail (s : Dev) : Dev :=
  if !s.vin then s
  else
    let told := s.rdF .pwrMod 0 0 Off.PWR_MOD_STA 4 4 = 1
    let s := if told then s else ((s.eachCh fun s ch => s.forceSafe ch).settle).eachCh fun s ch => s.pwrRecord ch 0x0201 0 3
    s.enterM3

/-- THERMTRIP_VIN_TIMEOUT: VIN remains 100 ms after THERMTRIP_N, so the module shuts down its own regulators (R524). -/
def Dev.thermtripTimeout (s : Dev) : Dev :=
  if s.thermtrip ∧ s.vin then { (s.powerFail) with selfOff := true } else s

/-! ### The host port (R465, R472) -/

/-- PERST_N_ASSERT: with the hub ready, every channel enters the safe state, and a reset follows the release (R462, R465). -/
def Dev.perstAssert (s : Dev) : Dev :=
  let was := s.perstReset || s.hubReady
  let s := { s with perstLow := true }
  if s.vin ∧ s.hubReady then
    let s := ((s.eachCh fun s ch => s.forceSafe ch).settle).wr .hub 0 0 Off.HUB_STA 0
    { s with perstLow := true, hubReady := false, perstReset := was }
  else s

/-- PERST_N_RELEASE: after an assertion while the hub was ready, the hub and every channel are reset, and each channel restarts at step 3
of R471 (R465, R466, R477, R495). -/
def Dev.perstRelease (s : Dev) : Dev :=
  let s := { s with perstLow := false }
  if !s.perstReset ∨ !s.vin then { s with perstReset := false }
  else
    let left := (List.range 8).filter fun ch => s.fltState ch ≠ 0
    let s := (s.wiped true).eachCh fun s ch => (s.modChan ch fun c => { c with startAt := s.mgtMs }).pwrRecord ch 0x0202 1 0
    let s := left.foldl (fun s ch => s.fltNotice ch) s
    let b := s.fwBoot 8 2
    let s := if b.2 then b.1 else b.1.modSta 3 3 1
    s.eachCh fun s ch => if s.powered ch then s.chanStart ch else s

/-- HUB_CONFIG_READY: from now on the hub answers configuration requests (R472). -/
def Dev.hubConfigReady (s : Dev) : Dev :=
  if s.vin ∧ !s.perstLow then Dev.noteReady s.modReady { s with hubReady := true } else s

/-- HOST_LINK_TRAINED: the link is in L0 at a rate and width, in flit mode or not; below 64 GT/s or x16 raises LINK_DEGRADE
(R430, R450, R451). -/
def Dev.linkTrained (s : Dev) (rate width : Nat) (flit : Bool) : Dev :=
  if s.vin ∧ !s.perstLow ∧ 1 ≤ rate then
    let low := decide (rate < 6) || decide (width < 16)
    let s := s.wr .hub 0 0 Off.HUB_STA (BitVec.ofNat 32 (rate + width * 8 + flit.toNat * 256 + low.toNat * 512))
    if low then s.hubRaise 4 else s
  else s

/-- CONFIG_REQUEST of a function: retry status until the hub is ready; only PF0's is answered where the hub firmware failed (R472). -/
def Dev.configReq (s : Dev) (n : Nat) : Dev :=
  if !s.vin ∨ s.perstLow then s
  else if !s.hubReady then (s.bump .hub 0 0 Off.HUB_RRS 1).emit (.retryStatus n)
  else s.emit (.configOk n (n = 0 || s.fnEnabled n && s.rdF .pwrMod 0 0 Off.PWR_MOD_STA 3 3 = 0))

/-! ### READY and the limits of a start (R474 to R476) -/

/-- Whether nothing is left of a start's own work: no run due or under way, no tile in a retention re-program. -/
def Dev.startDone (s : Dev) (ch : Nat) : Bool :=
  ((List.range 64).all fun c => let b := (s.core (ch * 64 + c)).bkg; b.due.isNone && b.running.isNone) &&
  s.tiles.all fun e => !(tileCh e.1 = ch && e.2.prog = some .retention)

/-- The temperature and clock conditions of R474. -/
def Dev.coolEnough (s : Dev) (ch : Nat) : Bool :=
  (List.range 8).all fun cl =>
    let th := s.therm (ch * 8 + cl)
    th.clock = 0 && F32.lt th.tCl (t16 ((((s.thmLims ch).2.2 : Nat) - 5 : Int) * 16))

/-- CHANNEL_READY_SET: the start's steps are complete, and the conditions of R474 hold; else the channel waits. -/
def Dev.readySet (s : Dev) (ch : Nat) : Dev :=
  if !s.powered ch ∨ !s.chInit ch ∨ s.initStep ch < 4 ∨ s.cstate ch = 2 ∨ !s.startDone ch then s
  else
  let s := s.modChan ch fun c => { c with inReset := false }
  if s.fltState ch ≠ 0 then s
  else if !s.coolEnough ch then s.chSta ch 6 4 6
  else
    let was := s.modReady
    let ms := min 65535 (s.mgtMs - (s.chan ch).startAt)
    let s := (((s.chSta ch 2 2 1).chSta ch 3 3 0).chSta ch 6 4 0).wr .pwrCh ch 0 Off.PWR_CH_TREADY (BitVec.ofNat 32 ms)
    let s := s.modMem ch fun m => { m with t2Known := true }
    let s := if s.rdF .pwrCh ch 0 Off.PWR_CH_STA 15 8 = Code.PENDING then s.pwrSta ch Code.OK else s
    let s := if s.rdF .pwrMod 0 0 Off.PWR_MOD_STA 28 21 = Code.PENDING ∧ (List.range 8).all (fun c => !s.chInit c)
      then s.modCmdSta Code.OK else s
    Dev.noteReady was (s.raiseIbiBare ch 3 1 0)

/-- T2_ZEROING_DONE: every frame of T2 has been written with zeros (R475). -/
def Dev.t2Zeroed (s : Dev) (ch : Nat) : Dev :=
  if s.powered ch ∧ (s.memOf ch).zeroed then s.modMem ch fun m => { m with zeroed2 := true } else s

/-- INIT_LIMIT_EXPIRE: a wait of R476 has reached its limit. -/
def Dev.initLimit (s : Dev) (ch : Nat) (w : InitWait) : Dev :=
  let fail (step : Nat) : Dev := if s.powered ch ∧ s.chInit ch ∧ s.cstate ch ≠ 2 then s.initFail ch step else s
  match w with
  | .mgtVerify =>
    if s.aux ∧ !(s.mgt ch).acks then
      let s := s.modMgt ch fun m => { m with acks := true, bootRom := true }
      if (List.range 9).all fun i => (s.mgt i).acks then { s with auxPg := true } else s
    else s
  | .training => fail 2
  | .t1Zero => fail 3
  | .arrayCheck => fail 4
  | .retention => fail 5
  | .hubReady => s.hubConfigReady

/-! ### C2 (R458 to R461, R468) -/

/-- KVP_T3_IN: T2 frames a channel lends. -/
def Dev.t3In (s : Dev) (ch : Nat) : Nat := (s.memOf ch).lent.length
/-- KVP_T3_OUT: frames its sequences hold in T3. -/
def Dev.t3Out (s : Dev) (ch : Nat) : Nat :=
  ((s.seqs.filter fun e => entCh e.1 = ch).map fun e => ((seqFrames e.2).filter fun f => f.tier = 3).length).sum

/-- What makes a C2 command report BUSY (R458, R477). -/
def Dev.c2Refused (s : Dev) (ch : Nat) : Bool :=
  s.chInit ch ||
  ((s.entries ch).any fun r => let st := s.st r; st = St.ADMITTED || st = St.PREFILL || st = St.DECODE || st = St.STOPPING) ||
  (s.ctxs.any fun e => s.phase e.1 ≠ 0 && (s.mask e.1).contains ch) ||
  s.t3In ch ≠ 0 || s.t3Out ch ≠ 0

/-- Blocking runs of a channel that is switched off: their tiles return, and the cores stay due. -/
def Dev.endRunsOff (s : Dev) (ch : Nat) : Dev :=
  let back (k : Nat) (t : Tile) : Tile :=
    if tileCh k = ch && t.state = .blocking then { t with state := if isSpare k && t.role = .none then .spare else .ready, next := none } else t
  let stop (c : Nat) (x : Core) : Core :=
    if c / 64 = ch && x.bkg.running.isSome then
      { x with bkg := { x.bkg with due := x.bkg.due.or x.bkg.running, running := none, done := false } }
    else x
  { s with tiles := s.tiles.mapV' Tile.reset back, cores := s.cores.mapV Core.fresh stop }

/-- A channel enters C2: HELLO with the standby mark, then its ports, clocks and memories stop; settings, tables and counters are kept
(R458, R466). -/
def Dev.enterC2 (s : Dev) (ch : Nat) : Dev :=
  let s := s.helloAll ch true
  let s := (((s.stopArray ch).endRunsOff ch).dropFabric ch).dropScratch ch
  let s := ((s.chSta ch 1 0 2).chSta ch 2 2 0).pwrSta ch Code.OK
  let s := ((s.enablePorts ch).dropVolatile ch).arraysOff ch
  let s := s.modChan ch fun c => { c with saved := true, idle := 0, memPd := [] }
  (s.bump .pwrCh ch 0 Off.PWR_C2 1).pwrRecord ch 0x0203 2 2

/-- PWR_CH_CMD C2 (R458). -/
def Dev.c2Cmd (s : Dev) (ch : Nat) : Dev :=
  if s.c2Refused ch then s.pwrSta ch Code.BUSY
  else if s.cstate ch = 2 then s.pwrSta ch Code.OK
  else s.enterC2 ch

/-- Tiles and spares of a channel that hold slices, a shadow copy or a stand-in (R468). -/
def Dev.heldTiles (s : Dev) (ch : Nat) : List Nat :=
  (s.tiles.filter fun e => tileCh e.1 = ch && (e.2.state = .ready || e.2.state = .shadow) && !e.2.slices.isEmpty).map (·.1)

/-- The retention verify by unpowered seconds: none up to 72 h, pair by pair up to 365 days, a full re-program beyond; `drifted` lists
tiles with the pairs found more than half a level off. A verify also checks the mass tables against their check words (R468). -/
def Dev.retention (s : Dev) (ch : Nat) (drifted : List (Nat × Nat)) : Dev :=
  let secs := (s.chan ch).unpwr
  let ks := s.heldTiles ch
  if secs ≤ 259200 then s
  else
    let s := (s.bump .pwrCh ch 0 Off.PWR_VTILE ks.length).chSta ch 6 4 5
    if secs ≤ 31536000 then
      let s := (drifted.filter fun e => ks.contains e.1 && 0 < e.2).foldl
        (fun s e => (s.bump .pwrCh ch 0 Off.PWR_VPAIR e.2).wearPass e.1) s
      ks.foldl (fun s k => if (s.tile k).slices.all tableOk then s else s.raiseTile 11 k) s
    else ks.foldl (fun s k => s.modTile k fun t => { t with next := some .programming, prog := some .retention }) s

/-- PWR_CH_CMD C0: without effect on a channel that is not in C2; else power, memories, settings, the retention verify, then the runs due
(R460). -/
def Dev.c0Cmd (s : Dev) (ch : Nat) (drifted : List (Nat × Nat)) : Dev :=
  if s.cstate ch ≠ 2 then s.pwrSta ch Code.OK
  else
    let s := (s.arraysOn ch).modChan ch fun c => { c with saved := false, startAt := s.mgtMs }
    let s := ((((s.chSta ch 1 0 0).chSta ch 3 3 1).chSta ch 6 4 4).pwrSta ch Code.PENDING).pwrRecord ch 0x0203 2 0
    (s.retention ch drifted).enablePorts ch

/-! ### Channel reset and HALTED reset (R463, R464) -/

/-- Clears a channel as the survival table gives for a channel reset. -/
def Dev.clearChannel (s : Dev) (ch : Nat) : Dev :=
  let s := (s.entries ch).foldl (fun s r => if s.st r = St.FREE then s else s.clearEntry r) s
  let w := chanWin ch
  let out (a : Nat) : Bool := a < w || w + 0x400000 ≤ a || mgtSide a
  let mine (k n : Nat) : Bool := k / n = ch
  { s with
    regs := s.regs.keep out
    eff := s.eff.keep out
    latch := s.latch.keep fun k => out (k / 65)
    mem := s.mem.drop (tierBase ch 0) (tierBase (ch + 1) 0)
    t0 := s.t0.drop (ch * 2 ^ 28) ((ch + 1) * 2 ^ 28)
    cbuf := s.cbuf.drop (ch * 2 ^ 28) ((ch + 1) * 2 ^ 28)
    chans := s.chans.mapV Chan.fresh fun k c => if k = ch then
      { (keepChan true c) with pemor := { c.pemor with level := .locked, nonce := none, jtag := false } } else c
    clusters := s.clusters.keep fun k => !mine k 8
    cores := s.cores.keep fun k => !mine k 64
    tiles := s.tiles.mapV' Tile.reset fun k t => if mine k 1056 then keepTile k t else t
    rqt := s.rqt.keep fun k => !mine k 65536 || isTagByte k
    seqs := s.seqs.mapV Seq.fresh fun k q => if mine k 512 then { Seq.fresh with adm := q.adm } else q
    staged := s.staged.filter fun x => x.core / 64 ≠ ch
    tamper := s.tamper.filter fun x => x.addr / 2 ^ 46 ≠ ch
    mems := s.mems.erase ch
    dlv := s.dlv.keep fun k => !mine k 512
    hubGroups := s.hubGroups.filter fun g => g.seq.ch.val ≠ ch
    ctxs := s.ctxs.mapV Ctx.fresh fun _ c => { c with t1Short := modifyAt (fun _ => 0) ch c.t1Short } }

/-- PWR_CH_CMD CHANNEL_RESET: BUSY during a reset or start; else the channel is HALTED with CAUSE 126 unless it is already, cleared,
restarted, and every context's share of it rebuilt (R463). -/
def Dev.chanReset (s : Dev) (ch : Nat) : Dev :=
  if s.chInit ch then s.pwrSta ch Code.BUSY
  else
    let s := if s.fltState ch = 2 then s else (s.halt ch 126 false).settle
    let s := ((s.clearChannel ch).modChan ch fun c => { c with startAt := s.mgtMs }).pwrRecord ch 0x0202 3 0
    ((((s.fltNotice ch).modChan ch fun c => { c with inReset := true }).chanStart ch).rebuildShare ch).pwrSta ch Code.PENDING

/-- PWR_CH_CMD HALTED_RESET: RANGE unless the channel is HALTED; clears HALTED, the safe state and SHUTDOWN, and keeps its tables,
memories and settings (R464, R466). -/
def Dev.haltedReset (s : Dev) (ch : Nat) (drifted : List (Nat × Nat)) : Dev :=
  if s.chInit ch then s.pwrSta ch Code.BUSY
  else if s.fltState ch ≠ 2 then s.pwrSta ch Code.RANGE
  else
    let off := decide (s.cstate ch = 2)
    let s := (s.wrF .fltCh ch 0 Off.FLT_STA 2 0 0).clearTherm ch
    let s := ((s.endRunsOff ch).dropScratch ch).dropVolatile ch
    let s := s.modChan ch fun c => { c with
      resumeDue := true, noticeDue := true, tripped := false, inReset := true, startAt := s.mgtMs,
      pemor := { c.pemor with level := .locked, nonce := none, jtag := false } }
    let s := (((s.chSta ch 2 2 0).chSta ch 3 3 1).chSta ch 6 4 4).pwrSta ch Code.PENDING
    let s := if s.cstate ch = 2 then (s.arraysOn ch).chSta ch 1 0 0 else s
    let s := (s.fltNotice ch).pwrRecord ch 0x0202 4 0
    ((if off then s.retention ch drifted else s).enablePorts ch).baseCheck ch

/-- PWR_CH_CMD (R480). -/
def Dev.pwrChCmd (s : Dev) (ch : Nat) (w : Word) : Dev :=
  match fld w 2 0 with
  | 1 => s.c2Cmd ch
  | 2 => s.c0Cmd ch []
  | 3 => s.chanReset ch
  | 4 => s.haltedReset ch []
  | _ => s.pwrSta ch Code.RANGE

/-! ### PWR_MOD_CMD (R460, R461) -/

/-- M0: C0 to every channel in C2; OK at once where there is none. -/
def Dev.m0Cmd (s : Dev) (drifted : List (Nat × Nat)) : Dev :=
  if (List.range 8).all fun ch => s.cstate ch ≠ 2 then s.modCmdSta Code.OK
  else (s.eachCh fun s ch => if s.cstate ch = 2 then s.c0Cmd ch drifted else s).modCmdSta Code.PENDING

/-- M2: C2 to every channel; BUSY if any refused. -/
def Dev.m2Cmd (s : Dev) : Dev :=
  let any := (List.range 8).any fun ch => s.c2Refused ch
  (s.eachCh fun s ch => s.c2Cmd ch).modCmdSta (if any then Code.BUSY else Code.OK)

/-- M3: every channel enters the safe state, the event is recorded, and VIN may be removed. -/
def Dev.m3Cmd (s : Dev) : Dev :=
  let s := s.eachCh fun s ch => (s.forceSafe ch).pwrRecord ch 0x0203 3 3
  (s.modSta 4 4 1).modCmdSta Code.OK

/-- PWR_MOD_CMD (R479). -/
def Dev.pwrModCmd (s : Dev) (w : Word) : Dev :=
  match fld w 1 0 with
  | 0 => s.m0Cmd []
  | 2 => s.m2Cmd
  | 3 => s.m3Cmd
  | _ => s.modCmdSta Code.RANGE

/-! ### Views and pins -/

/-- MSTATE: 0 M0, 1 M1, 2 M2 (R456, R479). -/
def Dev.mstate (s : Dev) : Nat :=
  let cs := (List.range 8).map fun ch => s.cstate ch
  if cs.contains 0 then 0 else if cs.contains 1 then 1 else 2

/-- Status words of PWR_MOD (R479). -/
def Dev.pwrModView (s : Dev) (o : Nat) : Option Word :=
  let bits (f : Nat → Bool) : Nat := ((List.range 8).filter f).foldl (fun n ch => n + 2 ^ ch) 0
  if o = Off.PWR_MOD_STA then
    let w := s.rd .pwrMod 0 0 Off.PWR_MOD_STA
    some (BitVec.ofNat 32 (s.mstate + s.modReady.toNat * 4 + fld w 3 3 * 8 + fld w 4 4 * 16
      + bits (fun ch => s.chReady ch) * 2 ^ 5 + bits (fun ch => s.cstate ch = 2) * 2 ^ 13 + fld w 28 21 * 2 ^ 21))
  else if o = Off.PWR_MOD_VIN then
    let p := s.vinMean
    let w := p.num.toNat / (max 1 p.den * 1000)
    some (BitVec.ofNat 32 (fld (s.rd .pwrMod 0 0 Off.PWR_MOD_VIN) 12 0 + min 65535 w * 65536))
  else none

def Dev.pwrChView (s : Dev) (ch o : Nat) : Option Word :=
  if o = Off.PWR_CH_UNPWR then some (BitVec.ofNat 32 (s.chan ch).unpwr) else none

/-- ALERT_N is low: a channel is CONTAINED or HALTED, a cluster is in THROTTLE_ASKED or above, or a hub source acted at HALT (R522). -/
def Dev.alertLow (s : Dev) : Bool :=
  s.hubHalt || (List.range 8).any (fun ch => s.fltState ch ≠ 0) || s.clusters.any fun e => 2 ≤ e.2.therm.state.code

end Sys2Proof.Machine
end

