-- ==== Sys2Proof/Machine/Records.lean ====
section
/-! DEFINITION. Reading the event recorder (R501 to R507, R514): a record's bytes, the readers' cursors and windows, the clear, the
write to non-volatile memory, and the refill of tokens. -/

namespace Sys2Proof.Machine
open Sys2Proof

/-- The 32 bytes of a record (R501). -/
def recBytes (r : EvRec) : List Byte :=
  let b := toBytes 6 r.seq ++ toBytes 2 r.code ++ toBytes 2 r.source ++ toBytes 1 r.flags ++ [0#8] ++ toBytes 8 r.time ++ toBytes 2 r.supp
    ++ (r.data ++ List.replicate 8 0).take 8
  b ++ toBytes 2 (crc16 b)

def Dev.evr (s : Dev) (ch : Nat) : Recorder := (s.chan ch).evr
def Dev.modEvr (s : Dev) (ch : Nat) (f : Recorder → Recorder) : Dev := s.modChan ch fun c => { c with evr := f c.evr }

/-- The record with a SEQ, while it is readable. -/
def Dev.recAt (s : Dev) (ch seq : Nat) : Option EvRec :=
  match (s.evr ch).recs.get none (seq % 8192) with
  | some r => if r.seq = seq ∧ (s.evr ch).oldest ≤ seq then some r else none
  | none => none

/-- Readable records from a SEQ on, in order, at most `n`. -/
def Dev.recsFrom (s : Dev) (ch first n : Nat) : List EvRec := (List.range n).filterMap fun i => s.recAt ch (first + i)

/-- A cursor of a reader: 0 PF0, 1 management, 2 the Pemor monitor (R506). -/
def Dev.cursor (s : Dev) (ch rdr : Nat) : Nat := nth 0 (s.evr ch).cursors rdr

/-- A write of EVR_CUR: the low word waits for its _HI (R506). -/
def Dev.curWrite (s : Dev) (ch rdr : Nat) (hi : Bool) (w : Word) : Dev :=
  s.modEvr ch fun r =>
    if hi then { r with cursors := modifyAt (fun _ => w.toNat % 65536 * 2 ^ 32 + nth 0 r.curLo rdr) rdr r.cursors }
    else { r with curLo := modifyAt (fun _ => w.toNat) rdr r.curLo }

/-- EVR_CLEAR: a record 0x0321 takes the next SEQ, which becomes the oldest; every earlier record is gone (R507). -/
def Dev.evrClear (s : Dev) (ch : Nat) : Dev :=
  let r := s.evr ch
  let range := [r.oldest, r.next - 1].flatMap fun v => (toBytes 4 v).map (·.toNat)
  let s := s.modEvr ch fun r => { r with recs := [], oldest := r.next, stored := r.next }
  s.writeRec ch (Ev.plain 0x0321 1 true range)

/-- EVR_NV_WRITE: the next mirrored record reaches non-volatile memory, or the write fails (R501). -/
def Dev.nvWrite (s : Dev) (ch : Nat) (ok : Bool) : Dev :=
  let r := s.evr ch
  if !s.aux ∨ r.next ≤ r.stored then s
  else if ok then s.modEvr ch fun r => { r with stored := r.stored + 1 }
  else (s.modEvr ch fun r => { r with nvFail := true }).raise ch 91

/-- EVR_TOKEN_REFILL: a code's bucket gains a token (R504). -/
def Dev.tokenRefill (s : Dev) (ch code : Nat) : Dev :=
  s.modEvr ch fun r => { r with used := r.used.set 0 code (r.used.get 0 code - 1) }

/-- Words of an EVR_CH page as a reader sees them (R506, R514). -/
def Dev.evrView (s : Dev) (ch rdr o : Nat) : Option Word :=
  let r := s.evr ch
  let cur := s.cursor ch rdr
  let newest := r.next - 1
  let slot := r.recs.get none (cur % 8192)
  let seq := match slot with | some x => x.seq | none => 0
  let lo (v : Nat) : Option Word := some (BitVec.ofNat 32 v)
  let hi (v : Nat) : Option Word := some (BitVec.ofNat 32 (v / 2 ^ 32 % 65536))
  if o = Off.EVR_STA then lo ((decide (8192 ≤ r.next - r.oldest)).toNat + r.nvFail.toNat * 2)
  else if o = Off.EVR_OLDEST then lo r.oldest
  else if o = Off.EVR_OLDEST + 4 then hi r.oldest
  else if o = Off.EVR_NEWEST then lo newest
  else if o = Off.EVR_NEWEST + 4 then hi newest
  else if o = Off.EVR_CUR then lo cur
  else if o = Off.EVR_CUR + 4 then hi cur
  else if o = Off.EVR_WSTA then
    lo ((s.recAt ch cur).isSome.toNat + (decide (cur < r.oldest)).toNat * 2 + (decide (newest < cur)).toNat * 4)
  else if o = Off.EVR_WSEQ then lo seq
  else if o = Off.EVR_WSEQ + 4 then hi seq
  else if Off.EVR_WIN ≤ o ∧ o < Off.EVR_WIN + 32 then
    lo (match slot with | some x => ofBytes (((recBytes x).drop (o - Off.EVR_WIN)).take 4) | none => 0)
  else none

end Sys2Proof.Machine
end

