-- ==== Sys2Proof/Machine/Views.lean ====
section
/-! DEFINITION. What a read of a register word gives (R438, R439): status words that are computed from the state, and stored words for
the rest, page by page as the page maps name them. -/

namespace Sys2Proof.Machine
open Sys2Proof

def wordOf (n : Nat) : Word := BitVec.ofNat 32 n

/-- Word `o` of an array of `n` words from `base`, by its place. -/
def arrView (o base n : Nat) (f : Nat → Nat) : Option Word :=
  if base ≤ o ∧ o < base + 4 * n then some (wordOf (f ((o - base) / 4))) else none

/-! ### Array pages (R63, R65) -/

/-- ARR_TSTA of a tile, with the FLT bit that is stored (R63). -/
def Dev.tstaOf (s : Dev) (k flt : Nat) : Nat :=
  let t := s.tile k
  let st := (s.sparesOf k).any fun sp => (s.tile sp).role = .standin k
  t.state.code + st.toNat * 8 + t.suspect.toNat * 16 + flt * 32 + min 8 t.slices.length * 64 + (64 - min 64 t.pairsUsed) * 1024
    + (t.ctx.getD 0) * 2 ^ 17 + t.ctx.isSome.toNat * 2 ^ 23

/-- ARR_TWEAR and ARR_SWEAR. -/
def wearWord (t : Tile) : Nat := t.wear % 2 ^ 24 + (decide (9000000 ≤ t.wear)).toNat * 2 ^ 24

/-- Tile keys of a core, by its index in the module. -/
def coreTiles (c : Nat) : List Nat := (List.range 16).map fun i => c / 8 * 132 + c % 8 * 16 + i

/-- ARR_STA, ARR_TSTA and ARR_TWEAR (R63). An index that an adopted spare serves counts in N_READY by the spare's state, and in N_RETIRED by
the retired tile's (DESIGN CHOICE: R63 does not say which of the two it counts). -/
def Dev.arrPageView (s : Dev) (c o : Nat) : Option Word :=
  let ks := coreTiles c
  let key (i : Nat) : Nat := nth 0 ks i
  if o = Off.ARR_STA then
    let n (p : Tile → Bool) : Nat := (ks.filter fun k => p (s.tile k)).length
    let standins := ks.filter fun k => (s.sparesOf k).any fun sp => (s.tile sp).role = .standin k
    let ready := (ks.filter fun k => (s.tile (s.serving k)).state = .ready).length
    some (wordOf (ready + n (fun t => t.state = .programming) * 2 ^ 5 + n (fun t => t.state = .blocking) * 2 ^ 10
      + n (fun t => t.state = .retired) * 2 ^ 15 + (!standins.isEmpty).toNat * 2 ^ 20))
  else
    (arrView o Off.ARR_TSTA 16 fun i =>
      s.tstaOf (key i) (s.rdF .arr (coreCh c) (coreIn c) (Off.ARR_TSTA + 4 * i) 5 5)).or
    (arrView o Off.ARR_TWEAR 16 fun i => wearWord (s.tile (key i)))

/-- ARR_SSTA of a spare (R65). -/
def Dev.sstaOf (s : Dev) (k : Nat) : Nat :=
  let t := s.tile k
  let at_ (x : Nat) : Nat := x % 132 / 16 * 8 + x % 132 % 16 * 64
  t.state.code + (match t.role with
    | .none => 0 | .adopted x => at_ x + 2 ^ 10 | .standin x => at_ x + 2 ^ 11 | .shadowing x => at_ x + 2 ^ 12)
    + (t.ctx.getD 0) * 2 ^ 13

def Dev.arrSprView (s : Dev) (cl o : Nat) : Option Word :=
  (arrView o Off.ARR_SSTA 4 fun i => s.sstaOf (cl * 132 + 128 + i)).or
  (arrView o Off.ARR_SWEAR 4 fun i => wearWord (s.tile (cl * 132 + 128 + i)))

/-! ### Correction, pounce and fuller pages (R105 to R107, R137) -/

def Dev.corChView (s : Dev) (ch o : Nat) : Option Word :=
  arrView o Off.COR_SHD_VIC 8 fun i =>
    let h := (s.clus (ch * 8 + i)).shadow
    h.victim % 16 + h.victim / 16 % 8 * 16 + h.valid.toNat * 128 + h.spare * 256 + min 3 h.vicCnt * 1024 + min 3 h.sprCnt * 4096

/-- A gain in units of 1/128, at most 255. -/
def gain128 (g : F32) : Nat := min 255 (Fr.floor (Fr.mul (Fr.ofF g) ⟨128, 1⟩)).toNat

/-- COR_TSTA of a tile (R106). -/
def Dev.corTsta (s : Dev) (k : Nat) : Nat :=
  let t := s.tile k
  let gs := ((bandCols t).map (physPair t ·)).map fun p => gain128 (colGain s.pos t p)
  let lo := if gs.isEmpty then 128 else gs.foldl min 255
  let hi := if gs.isEmpty then 128 else gs.foldl max 0
  let dup := (s.tile (s.serving k)).state = .ready && t.slices.any fun sl => match sl.dup with | some x => (s.tile (s.serving x)).state = .ready | none => false
  lo + hi * 2 ^ 8 + min 7 t.digCols.length * 2 ^ 16 + t.refreshDue.isSome.toNat * 2 ^ 19 + t.loc.isSome.toNat * 2 ^ 20 + dup.toNat * 2 ^ 21
    + t.bandK % 16 * 2 ^ 22

def Dev.corView (s : Dev) (c o : Nat) : Option Word :=
  let ts := (coreTiles c).map fun k => s.tile k
  if o = Off.COR_STA then
    some (wordOf (min 127 (ts.map fun t => t.digCols.length).sum + (ts.filter fun t => t.refreshDue.isSome).length * 2 ^ 7
      + (ts.filter fun t => t.suspect).length * 2 ^ 12 + (ts.any fun t => t.loc.isSome).toNat * 2 ^ 17))
  else arrView o Off.COR_TSTA 16 fun i => s.corTsta (nth 0 (coreTiles c) i)

def Dev.pncView (s : Dev) (c o : Nat) : Option Word :=
  if o = Off.PNC_STA then
    some (wordOf (min 4096 (((coreTiles c).map fun k => ((s.tile k).slices.map fun sl => sl.res.length).sum).foldl max 0)))
  else none

def Dev.fulChView (s : Dev) (ch o : Nat) : Option Word :=
  arrView o Off.FUL_CL_STA 8 fun i =>
    let x := (s.clus (ch * 8 + i)).storm
    x.wide.toNat + x.left % 4096 * 2 + x.now.toNat * 2 ^ 13

/-! ### Accumulation and attention pages (R160, R185) -/

def gstaCode : GState → Nat
  | .free => 0 | .opened => 1 | .held => 2

def Dev.accView (s : Dev) (c o : Nat) : Option Word :=
  let gs := (List.range 16).map fun g => s.group c g
  if o = Off.ACC_STA then
    let n (p : Group → Bool) : Nat := (gs.filter p).length
    some (wordOf (n (fun g => g.state ≠ .free) + n (fun g => g.state = .held) * 32
      + s.rdF .acc (coreCh c) (coreIn c) Off.ACC_STA 10 10 * 1024))
  else
    let g (i : Nat) : Group := nth Group.fresh gs i
    (arrView o Off.ACC_GSTA 16 fun i =>
      gstaCode (g i).state + (g i).src % 4 * 4 + (g i).ofmt % 4 * 16 + (g i).epoch % 4 * 64 + (g i).unbounded.toNat * 256
        + (g i).depth % 32 * 512 + (g i).nLeaf % 32 * 2 ^ 14 + (g i).ctx % 64 * 2 ^ 19).or
    (arrView o Off.ACC_GLEN 16 fun i => min 2097151 (g i).len + min 127 (g i).npart * 2 ^ 21)

def Dev.attView (s : Dev) (cl o : Nat) : Option Word :=
  if o = Off.ATT_PSTA then some (s.attPsta cl) else if o = Off.ATT_DSTA then some (s.attDsta cl) else none

/-! ### State memory and serving pages (R214, R215, R247, R249) -/

/-- Frames of a tier that the sequences of a channel hold, for one context or for all. -/
def Dev.tierHeld (s : Dev) (ch tier : Nat) (ctx : Option Nat) : Nat :=
  ((s.seqs.filter fun e => entCh e.1 = ch && (match ctx with | some n => e.2.ctx = n | none => true)).map fun e =>
    ((seqFrames e.2).filter fun f => f.tier = tier).length).sum

def Dev.kvpChView (s : Dev) (ch o : Nat) : Option Word :=
  let w (n : Nat) : Option Word := some (wordOf (n % 2 ^ 24))
  if o = Off.KVP_T1_TOT then w (s.t1Tot ch)
  else if o = Off.KVP_T1_FREE then w (s.t1Free ch)
  else if o = Off.KVP_T2_TOT then w (s.t2Tot ch)
  else if o = Off.KVP_T2_FREE then w (s.t2Free ch)
  else if o = Off.KVP_T3_OUT then w (s.t3Out ch)
  else if o = Off.KVP_T3_IN then w (s.t3In ch)
  else if o = Off.KVP_RSV then w (s.rsvOf ch)
  else if o = Off.KVP_HOODS then w ((s.entries ch).filter fun r => s.st r = St.PARKED).length
  else none

def Dev.kvpCxView (s : Dev) (ch n o : Nat) : Option Word :=
  let w (v : Nat) : Option Word := some (wordOf (v % 2 ^ 24))
  if o = Off.KVP_CX_CFG then
    some (setFld (s.rd .kvpCx ch n Off.KVP_CX_CFG) 14 14 (!(s.t4Used ch n).isEmpty).toNat)
  else if o = Off.KVP_CX_GEOM then
    some (match s.patOf n with
      | some p => wordOf (spanP p + slotF p * 2 ^ 11 + (pageLayers p).length * 2 ^ 17)
      | none => 0)
  else if o = Off.KVP_CX_HFREE then w (s.t4Free ch n)
  else if o = Off.KVP_CX_T1_USED then w (s.ctxT1 ch n + nth 0 (s.ctx n).t1Short ch)
  else if o = Off.KVP_CX_T2_USED then w (s.tierHeld ch 2 (some n))
  else if o = Off.KVP_CX_T3_USED then w (s.tierHeld ch 3 (some n))
  else if o = Off.KVP_CX_T4_USED then w (s.t4Used ch n).length
  else none

def Dev.rqtChView (s : Dev) (ch o : Nat) : Option Word :=
  if o = Off.RQT_STA then
    some (wordOf (((s.entries ch).filter fun r => s.live r).length + s.inFlight ch isDecode * 2 ^ 10 + s.inFlight ch isPrefill * 2 ^ 19))
  else none

def Dev.rqtCxView (s : Dev) (ch n o : Nat) : Option Word :=
  let c := s.ctx n
  let g := s.staging ch n
  if o = Off.RQT_CX_PART then some (s.rd .rqtCh ch 0 (Off.RQT_PART + 4 * n))
  else if o = Off.RQT_CX_DEPTH then
    some (match c.pat with | some p => wordOf (c.depth % 256 + c.depthP % 256 * 256 + p.draftLim % 16 * 2 ^ 16) | none => 0)
  else if o = Off.RQT_CX_STG_BASE then some (wordOf g.1)
  else if o = Off.RQT_CX_STG_BASE + 4 then some (wordOf (g.1 / 2 ^ 32))
  else if o = Off.RQT_CX_STG_SIZE then some (wordOf (g.2 / 4096))
  else if o = Off.RQT_CX_MAXLEN then some (match c.pat with | some p => wordOf p.maxLen | none => 0)
  else if o = Off.RQT_CX_VOCAB then some (match c.pat with | some p => wordOf p.vocab | none => 0)
  else none

/-- Steps carried into the current plank, and OVERRUN (R251). -/
def Dev.plkChView (s : Dev) (ch o : Nat) : Option Word :=
  if o = Off.PLK_CH_STA then
    let sl := (s.seqs.filter fun e => entCh e.1 = ch).filterMap fun e => e.2.step.map (·.slip)
    some (wordOf (min 511 (sl.filter (· ≠ 0)).length + (sl.any (· = 2)).toNat * 512))
  else none

/-! ### Hub and management pages (R451, R512) -/

/-- HUB_STA with CH_LINK, and HUB_CAP with T2_GIB (R2). -/
def Dev.hubView (s : Dev) (o : Nat) : Option Word :=
  if o = Off.HUB_STA then
    let links := ((List.range 8).map fun ch => (s.chan ch).linkUp.toNat * 2 ^ ch).sum
    some (setFld (s.rd .hub 0 0 Off.HUB_STA) 17 10 links)
  else if o = Off.HUB_CAP then some (if Config.isL2 then 0x010040FF else 0x020040FF)
  else none

/-- The 48-bit provisional ID of a target (R482). -/
def Dev.pid (s : Dev) (t : Nat) : Nat := 0x5A3 * 2 ^ 33 + 0x9600 * 2 ^ 16 + t * 2 ^ 12 + s.slotId.toNat * 2 ^ 6

/-- Kinds of a target's event summary, one bit each: KIND 1 in bit 0. -/
def Dev.summary (s : Dev) (t : Nat) : Nat := (((s.mgt t).evs.map (·.1)).eraseDups.map fun k => 2 ^ (k - 1)).sum

def Dev.mgtView (s : Dev) (ch o : Nat) : Option Word :=
  let m := s.mgt ch
  let cal := s.calendar ch
  if o = Off.MGT_STA then
    some (wordOf ((m.da.getD 0) % 128 + m.da.isSome.toNat * 128 + m.ibiEn.toNat * 256 + m.bootRom.toNat * 512 + s.slotId.toNat * 1024
      + s.summary ch % 16 * 65536))
  else if o = Off.MGT_PID then some (wordOf (s.pid ch))
  else if o = Off.MGT_PID + 4 then some (wordOf (s.pid ch / 2 ^ 32))
  else if o = Off.MGT_CAL then some (wordOf cal)
  else if o = Off.MGT_CAL + 4 then some (wordOf (cal / 2 ^ 32))
  else if o = Off.MGT_TSTA then some (wordOf m.tset.toNat)
  else none

/-! ### Every page -/

/-- A status word of a page; none where the word is stored. `rdr` is the reader of the event recorder (R506). -/
def Dev.view (s : Dev) (p : Page) (rdr o : Nat) : Option Word :=
  let cl := p.ch * 8 + p.inst
  let c := p.ch * 64 + p.inst
  match p.kind with
  | .hub => s.hubView o
  | .hubCx => s.hubCxView p.inst o
  | .arr => s.arrPageView c o
  | .arrSpr => s.arrSprView cl o
  | .corCh => s.corChView p.ch o
  | .cor => s.corView c o
  | .pnc => s.pncView c o
  | .fulCh => s.fulChView p.ch o
  | .acc => s.accView c o
  | .att => s.attView cl o
  | .kvpCh => s.kvpChView p.ch o
  | .kvpCx => s.kvpCxView p.ch p.inst o
  | .rqtCh => s.rqtChView p.ch o
  | .rqtCx => s.rqtCxView p.ch p.inst o
  | .plk => s.plkView o
  | .plkCh => s.plkChView p.ch o
  | .ldrCh => s.ldrChView p.ch o
  | .ldrCx => s.ldrCxView p.inst o
  | .adpCx => s.adpView p.inst o
  | .plcCx => s.plcCxView p.inst o
  | .spd => s.spdView c o
  | .synCh => s.synView p.ch o
  | .synCx => s.synCxView p.ch p.inst o
  | .evfMod => s.evfModView o
  | .evfCh => s.evfChView p.ch o
  | .fltCh => s.fltView p.ch o
  | .fltMod => s.fltModView o
  | .mon => s.monView cl o
  | .thmCh => s.thmView p.ch o
  | .bkgCh => s.bkgView p.ch o
  | .pwrMod => s.pwrModView o
  | .pwrCh => s.pwrChView p.ch o
  | .mgtCh => s.mgtView p.ch o
  | .secCh => s.secChView p.ch o
  | .evrCh => s.evrView p.ch rdr o
  | .secMod => s.secModView o
  | .arrCh | .ful | .accCh | .attCh | .plcCh | .spdCh | .monCh => none

/-- Offsets that read 0 though a page map names them: write-only words, and reserved ones (R436, R439). -/
def Dev.pageWord (s : Dev) (p : Page) (rdr o : Nat) : Word :=
  if o < 0x100 then (if o = Off.PG_FRC then 0 else if p.kind.nsrc = 0 ∧ (o = Off.PG_FLT ∨ o = Off.PG_SEV0 ∨ o = Off.PG_SEV1) then 0 else s.reg (p.base + o))
  else match s.view p rdr o with
    | some w => w
    | none => if (p.kind.row o).isSome then s.reg (p.base + o) else 0

/-! ### The counter latch (R438) -/

/-- Pairs that are latched together: 64-bit counters, the PLK pairs, MGT_CAL, FLT_TENTER and the SEQ pairs of the recorder. -/
def pairLo (k : PageKind) (o : Nat) : Bool :=
  match k with
  | .plk => o = Off.PLK_APPLY || o = Off.PLK_CNT || o = Off.PLK_TIME || o = Off.PLK_NEXT
  | .evrCh => o = Off.EVR_OLDEST || o = Off.EVR_NEWEST || o = Off.EVR_CUR || o = Off.EVR_WSEQ || o = Off.EVR_REC || o = Off.EVR_SUPP
  | .mgtCh => o = Off.MGT_CAL || o = Off.MGT_REQ || o = Off.MGT_REJ || o = Off.MGT_IBI
  | .fltCh => o = Off.FLT_TENTER || (match k.row o with | some r => r.ctr && o % 8 = 0 && 0x100 ≤ o | none => false)
  | _ => match k.row o with | some r => r.ctr && o % 8 = 0 && 0x100 ≤ o | none => false

/-- Key of the latch of a page for a reader: context 0 to 63, 64 for management. -/
def latchKey (p : Page) (f : Nat) : Nat := p.base * 65 + f

/-- A read of one word: a _LO word loads the reader's latch, its _HI word gives the latch if that pair loaded it last. -/
def Dev.readPage (s : Dev) (p : Page) (f rdr o : Nat) : Dev × Word :=
  let w := s.pageWord p rdr o
  if pairLo p.kind o then
    ({ s with latch := s.latch.set (0, 0) (latchKey p f) (o, s.pageWord p rdr (o + 4)) }, w)
  else if 4 ≤ o ∧ pairLo p.kind (o - 4) then
    let l := s.latch.get (0, 0) (latchKey p f)
    (s, if l.1 = o - 4 then l.2 else w)
  else (s, w)

end Sys2Proof.Machine
end

