-- ==== Sys2Proof/Machine/RegAccess.lean ====
section
/-! DEFINITION. Accesses to the register pages, the request table windows and BAR2 (R434 to R446): who is granted what, what a channel's
state does to an access, the page header, and what a written value becomes. -/

namespace Sys2Proof.Machine
open Sys2Proof

/-- What a register write may need beside its value: host memory that a STAGE reads (R515), and the tiles whose levels drifted while the
arrays had no power (R468). -/
structure WrEnv where
  host : HostView
  drifted : List (Nat × Nat)

def WrEnv.none : WrEnv := ⟨[], []⟩

/-- Number of an accessor: 0 PF0, n VFn, 64 management. -/
def fnIx : Fn → Nat
  | .pf0 => 0
  | .vf n => n.val + 1
  | .mgt => 64

/-- An access outside a function's grant: counted in HUB_DENY, and ACCESS_DENY raised (R436). -/
def Dev.deny (s : Dev) : Dev := (s.bump .hub 0 0 Off.HUB_DENY 1).hubRaise 3

/-- Whether the host port decodes a function's BARs: the hub is configured and out of reset, and the function is enabled. -/
def Dev.fnOn (s : Dev) (fn : Fn) : Bool := s.vin && !s.hubHalt && !s.perstLow && s.hubReady && s.fnEnabled (fnIx fn)

/-- HUB_FAIL: without its firmware the hub answers its HUB and PWR_MOD pages only (R472). -/
def Dev.hubFail (s : Dev) : Bool := s.rdF .pwrMod 0 0 Off.PWR_MOD_STA 3 3 = 1

/-- Pages that belong to a context and are closed while it is cleaned (R449). -/
def ctxPage : PageKind → Bool
  | .ldrCx | .adpCx | .plcCx | .rqtCx | .kvpCx | .synCx => true
  | _ => false

/-- Pages of the management side, which management reaches in every power state (R490, R512 to R515). -/
def mgtPage : PageKind → Bool
  | .mgtCh | .secCh | .evrCh | .secMod => true
  | _ => false

/-- Whether an accessor may read a page (R436, R441, R490). -/
def Dev.mayRead (s : Dev) (p : Page) : Fn → Bool
  | .pf0 => !s.hubFail || p.kind = .hub || p.kind = .pwrMod
  | .vf n => !s.hubFail && p.grantsRead (n.val + 1)
  | .mgt => true

/-- Whether an accessor may write word `o` of a page. PF0 writes of MGT_CH, SEC_CH and EVR_CH only its cursor; a context function no
header control; management the pages that name it and the header of every page (R440, R441, R490, R506, R512). -/
def Dev.mayWrite (s : Dev) (p : Page) (o : Nat) : Fn → Bool
  | .pf0 =>
    (!s.hubFail || p.kind = .hub || p.kind = .pwrMod) &&
      match p.kind with
      | .mgtCh | .secCh => false
      | .evrCh => o = Off.EVR_CUR || o = Off.EVR_CUR + 4
      | _ => true
  | .vf n =>
    !s.hubFail && p.grantsWrite (n.val + 1) &&
      !(o = Off.PG_CTL || o = Off.PG_FLT || o = Off.PG_FRC || o = Off.PG_SEV0 || o = Off.PG_SEV1)
  | .mgt => p.kind.mgt || o < 0x100

/-- Whether a channel's window answers the host; in C2 only PWR_CH is left of it (R446, R459). -/
def Dev.windowUp (s : Dev) (p : Page) : Bool :=
  !s.chClosed p.ch || ((s.chan p.ch).linkUp && !(s.chan p.ch).inReset && p.kind = .pwrCh)

/-- Whether a channel's pages answer management: the channel is powered and not in C2, or the page is PWR_CH or of the management side. -/
def Dev.mgtUp (s : Dev) (p : Page) : Bool :=
  mgtPage p.kind || p.kind = .pwrCh || p.kind = .pwrMod || (s.vin && (p.kind.inHub || s.cstate p.ch ≠ 2))

/-! ### What a written value becomes -/

/-- A field below `m` is stored as `m`. -/
def raiseTo (hi lo m : Nat) (w : Word) : Word := if fld w hi lo < m then setFld w hi lo m else w
/-- A field above `m` is stored as `m`. -/
def lowerTo (hi lo m : Nat) (w : Word) : Word := if m < fld w hi lo then setFld w hi lo m else w
/-- A field outside `a` to `b` is stored as `v`. -/
def elseAs (hi lo a b v : Nat) (w : Word) : Word := if fld w hi lo < a ∨ b < fld w hi lo then setFld w hi lo v else w

/-- What the field tables of the chapters store for values out of range; `old` is the register's present value. -/
def normWord (k : PageKind) (inst o : Nat) (old w : Word) : Word :=
  match k with
  | .kvpCh => if o = Off.KVP_CKPT then raiseTo 11 0 16 w else if o = Off.KVP_HOLD then raiseTo 23 0 1 w else w
  | .fltCh => if o = Off.FLT_CTL then raiseTo 15 0 1 w else w
  | .plcCx => if o = Off.PLC_CX_CFG then elseAs 7 0 1 255 255 w else w
  | .spdCh => if o = Off.SPD_PDWAIT then raiseTo 11 0 1 w else if o = Off.SPD_PDIDLE then raiseTo 7 0 1 w else w
  | .synCh => if o = Off.SYN_HOLD then raiseTo 11 0 1 w else if o = Off.SYN_WAITMAX then raiseTo 23 0 1 w else w
  | .synCx => if o = Off.SYN_CX_TARGET then raiseTo 23 0 1 w else w
  | .evfCh => if o = Off.EVF_REPIN then raiseTo 7 0 1 w else w
  | .bkgCh =>
    if o = Off.BKG_LATE then raiseTo 23 0 1 w
    else if o = Off.BKG_CTL then raiseTo 8 6 1 (raiseTo 5 1 2 w) else w
  | .corCh =>
    if o = Off.COR_RFW then raiseTo 15 0 1 w
    else if o = Off.COR_DRIFT then raiseTo 20 16 8 (raiseTo 15 0 256 w)
    else if o = Off.COR_CONF then elseAs 19 16 6 10 8 (raiseTo 15 8 17 (raiseTo 7 0 16 w)) else w
  | .thmCh =>
    if o = Off.THM_GRACE then raiseTo 23 0 1 w
    else if o = Off.THM_SD then raiseTo 15 0 21 w
    else if o = Off.THM_SD_TTL then raiseTo 31 0 1 w
    else if o = Off.THM_LIM then (if limOk w then w else old) else w
  | .pwrCh => if o = Off.PWR_CH_CTL then raiseTo 7 0 1 w else w
  | .pwrMod => if o = Off.PWR_MOD_CAP then lowerTo 5 0 56 (raiseTo 5 0 24 w) else w
  | .evrCh => if o = Off.EVR_CTL then raiseTo 15 8 1 (raiseTo 7 0 1 w) else w
  | .hubCx => if o = Off.HUB_CX_CFG then lowerTo 16 0 65536 w else w
  | .hub =>
    if Off.HUB_AP ≤ o ∧ o < Off.HUB_AP + 64 ∧ (!bit w 10 ∨ Config.isL2) ∧ 63 < fld w 6 0 then old else w
  | .mon =>
    if o = Off.MON_CTL then elseAs 3 1 0 5 5 w
    else if ((Off.MON_SLOT ≤ o ∧ o < Off.MON_SLOT + 64) ∨ (Off.MON_ISLOT ≤ o ∧ o < Off.MON_ISLOT + 48)) ∧ 37 ≤ fld w 5 0 then old
    else w
  | .ldrCh => if o = Off.LDR_CH_CTL then lowerTo 3 0 8 (raiseTo 3 0 1 w) else w
  | .pnc => if o = Off.PNC_CTL then elseAs 5 0 1 32 32 w else w
  | .fulCh => if o = Off.FUL_STORM then raiseTo 27 16 1 (lowerTo 6 0 64 (raiseTo 6 0 1 w)) else w
  | .rqtCx => if o = Off.RQT_CX_CFG ∧ inst ≠ 0 ∧ 32 ≤ fld w 10 0 then old else w
  | _ => w

/-- An ordinary register: bits written 1 clear W1C bits, RW bits take the value, the rest stays (R4, R5). -/
def Dev.plainWrite (s : Dev) (p : Page) (o : Nat) (w : Word) : Dev :=
  match p.kind.row o with
  | none => s
  | some r =>
    let a := p.base + o
    let old := s.reg a
    let v := normWord p.kind p.inst o old w
    s.setReg a ((old &&& ~~~r.rw &&& ~~~(w &&& r.w1c)) ||| (v &&& r.rw))

/-- RQT_PART: not applied where the range overlaps another partition, runs beyond entry 511, or would change the owner of an entry that is
not FREE (R248). -/
def Dev.partWrite (s : Dev) (ch n : Nat) (w : Word) : Dev :=
  let w := lowerTo 31 23 256 w
  let b := fld w 8 0
  let c := fld w 18 9
  let old := s.part ch n
  let overlaps := (List.range 64).any fun m =>
    let q := s.part ch m
    decide (m ≠ n) && decide (0 < c) && decide (0 < q.2.1) && decide (b < q.1 + q.2.1) && decide (q.1 < b + c)
  let moves := (List.range 512).any fun i =>
    let was := decide (old.1 ≤ i) && decide (i < old.1 + old.2.1)
    let is := decide (b ≤ i) && decide (i < b + c)
    (was != is) && decide (s.st (ch * 512 + i) ≠ St.FREE)
  if overlaps || decide (512 < b + c) || moves then s
  else s.wr .rqtCh ch 0 (Off.RQT_PART + 4 * n) w

/-- KVP_CX_CFG.HOOD_LOCK: a hood of the context is in T4, so its hood area may not move (R215). -/
def Dev.hoodLock (s : Dev) (ch n : Nat) : Bool := !(s.t4Used ch n).isEmpty

/-- EVF_CTL: the ports follow their enable bits (R346). -/
def Dev.evfCtl (s : Dev) (p : Page) (w : Word) : Dev := (s.plainWrite p Off.EVF_CTL w).enablePorts p.ch

/-- CNT_CLR: PG_CNT and every counter of the page are set to 0 (R439). -/
def Dev.clearCounters (s : Dev) (p : Page) : Dev :=
  (p.kind.rows.filter (·.ctr)).foldl (fun s r => (List.range r.n).foldl (fun s i => s.setReg (p.base + r.off + 4 * i) 0) s)
    (s.setReg (p.base + Off.PG_CNT) 0)

/-- A write of the page header (R372, R374, R439, R440). -/
def Dev.headerWrite (s : Dev) (p : Page) (o : Nat) (w : Word) : Dev :=
  if o = Off.PG_CTL then
    let s := s.plainWrite p o w
    if bit w 1 then s.clearCounters p else s
  else if o = Off.PG_FLT then s.pgClear p w
  else if o = Off.PG_FRC then s.pgForce p w
  else if o = Off.PG_SEV0 ∨ o = Off.PG_SEV1 then s.pgSev p o w
  else s.plainWrite p o w

/-- A write of the page body: registers that start something, and ordinary ones. -/
def Dev.bodyWrite (s : Dev) (p : Page) (rdr o : Nat) (w : Word) (env : WrEnv) : Dev :=
  let plain := s.plainWrite p o w
  match p.kind with
  | .hubCx =>
    if o = Off.HUB_CX_CMD then s.hubCxCmd p.inst w
    else if o = Off.HUB_CX_CFG then (if s.ctxState p.inst = 0 then plain else s)
    else plain
  | .plk => if o = Off.PLK_CTL then s.plkCtl w else plain
  | .fltMod => if o = Off.FLT_DLV_SEL then s.dlvSel w else plain
  | .evfMod =>
    if o = Off.EVF_NODE then s.nodeWrite w
    else if o = Off.EVF_ENUM then s.enumWrite w
    else if o = Off.EVF_TIME_CTL then s.timeCtl w
    else plain
  | .pwrMod =>
    if o = Off.PWR_MOD_CMD then
      (if fld w 1 0 = 0 then s.m0Cmd env.drifted else s.pwrModCmd w)
    else plain
  | .secMod => if o = Off.SEC_FW_CMD then s.secFwCmd w env.host else plain
  | .ldrCx =>
    if o = Off.LDR_CMD then s.ldrCommand p.inst (fld w 2 0)
    else if Off.LDR_NEXT ≤ o ∧ o < Off.LDR_RCMP + 8 then s.ldrWrite p.inst o w
    else plain
  | .adpCx => if o = Off.ADP_CMD then s.adpCommand p.inst w else plain
  | .plcCx => if o = Off.PLC_CX_SNAP_CMD then s.snapCmd p.inst w else plain
  | .plcCh => if o = Off.PLC_CH_CTL then s.plcChCtl p.ch w else plain
  | .fltCh => if o = Off.FLT_CMD then s.fltCmd p.ch w else plain
  | .pwrCh =>
    if o = Off.PWR_CH_CMD then
      (match fld w 2 0 with
       | 2 => s.c0Cmd p.ch env.drifted
       | 4 => s.haltedReset p.ch env.drifted
       | _ => s.pwrChCmd p.ch w)
    else plain
  | .evrCh =>
    if o = Off.EVR_CUR then s.curWrite p.ch rdr false w
    else if o = Off.EVR_CUR + 4 then s.curWrite p.ch rdr true w
    else plain
  | .rqtCh =>
    if Off.RQT_PART ≤ o ∧ o < Off.RQT_PART + 256 then s.partWrite p.ch ((o - Off.RQT_PART) / 4) w else plain
  | .bkgCh => if o = Off.BKG_CMD then s.bkgCmd p.ch w else plain
  | .arr => if o = Off.ARR_TCMD then s.tileCmd p.ch p.inst w else plain
  | .synCx => if o = Off.SYN_CX_CMD then s.synCommand p.ch p.inst w else plain
  | .evfCh =>
    if o = Off.EVF_CTL then s.evfCtl p w
    else if o = Off.EVF_RT_DATA then s.routeWrite p.ch w
    else plain
  | .kvpCx =>
    if (o = Off.KVP_CX_HBASE ∨ o = Off.KVP_CX_HBASE + 4 ∨ o = Off.KVP_CX_HSIZE) ∧ s.hoodLock p.ch p.inst then s
    else plain
  | _ => plain

/-! ### Writes -/

/-- A write that reaches its page. -/
def Dev.pageWrite (s : Dev) (p : Page) (rdr o : Nat) (w : Word) (env : WrEnv) : Dev :=
  if o < 0x100 then s.headerWrite p o w else s.bodyWrite p rdr o w env

/-- A host write of an entry's bytes: PF0 reaches every entry, a context function those of its partition; those of a context that is
cleaned are closed (R216, R446, R449). -/
def Dev.rqtWrite (s : Dev) (fn : Fn) (ch e o : Nat) (bs : List Byte) : Dev :=
  let own := s.partOwner ch e
  let cleaning := match own with
    | some n => s.ctxState n = 2
    | none => false
  let granted := match fn with
    | .pf0 => !s.hubFail
    | .vf n => !s.hubFail && decide (own = some (n.val + 1))
    | .mgt => false
  if fn = .mgt then s
  else if !s.fnOn fn then s
  else if !granted || cleaning then s.deny
  else if s.chClosed ch then s.bump .hub 0 0 Off.HUB_LDN 1
  else s.entryWrite (fnIx fn) (ch * 512 + e) o bs

/-- A write of one word by a host function (R384, R435, R436, R441, R446, R449). -/
def Dev.hostWrite (s : Dev) (fn : Fn) (a : Nat) (w : Word) (env : WrEnv) : Dev :=
  if !s.fnOn fn then s
  else match rqtOfAddr a, Page.ofAddr a with
    | some (ch, e, o), _ => if a % 4 ≠ 0 then s.bump .hub 0 0 Off.HUB_BADSZ 1 else s.rqtWrite fn ch e o (toBytes 4 w.toNat)
    | none, none => s.deny
    | none, some p =>
      let o := a % 0x1000
      if !s.mayWrite p o fn || (ctxPage p.kind && s.ctxState p.inst = 2) then s.deny
      else if a % 4 ≠ 0 then s.bump .hub 0 0 Off.HUB_BADSZ 1
      else if p.kind.inHub then s.pageWrite p 0 o w env
      else if !s.windowUp p then s.bump .hub 0 0 Off.HUB_LDN 1
      else if fn = .pf0 && s.fltState p.ch = 2 && p.kind ≠ .fltCh && p.kind ≠ .pwrCh then s
      else s.pageWrite p 0 o w env

/-- A write of one word by a management controller, as reader `rdr` of the recorder: 1 management, 2 the Pemor monitor (R490, R510). -/
def Dev.mgtWrite (s : Dev) (rdr a : Nat) (w : Word) (env : WrEnv) : Dev :=
  match Page.ofAddr a with
  | none => s
  | some p =>
    let o := a % 0x1000
    if a % 4 ≠ 0 ∨ !s.mayWrite p o .mgt ∨ !s.mgtUp p then s else s.pageWrite p rdr o w env

/-- A register write (R438). -/
def Dev.writeWord (s : Dev) (fn : Fn) (a : Nat) (w : Word) (env : WrEnv) : Dev :=
  match fn with
  | .mgt => s.mgtWrite 1 a w env
  | _ => s.hostWrite fn a w env

/-- Whether an access of a host function falls outside its grant (R216, R436, R449). -/
def Dev.refuses (s : Dev) (fn : Fn) (a : Nat) (write : Bool) : Bool :=
  match rqtOfAddr a, Page.ofAddr a with
  | some (ch, e, _), _ =>
    let own := s.partOwner ch e
    let cleaning := match own with | some n => s.ctxState n = 2 | none => false
    s.hubFail || (match fn with | .vf n => decide (own ≠ some (n.val + 1)) | _ => false) || (write && cleaning)
  | none, none => true
  | none, some p => if write then !s.mayWrite p (a % 0x1000) fn || (ctxPage p.kind && s.ctxState p.inst = 2) else !s.mayRead p fn

/-- A write of 1, 2, 4 or 8 bytes. Pages take aligned 32-bit writes, and 64-bit ones as the low word followed by the high word; others are
discarded and counted. A request table window takes every size (R435). -/
def Dev.sizedWrite (s : Dev) (fn : Fn) (a n v : Nat) : Dev :=
  if n = 4 then s.writeWord fn a (BitVec.ofNat 32 v) WrEnv.none
  else if n = 8 ∧ a % 8 = 0 then
    (s.writeWord fn a (BitVec.ofNat 32 v) WrEnv.none).writeWord fn (a + 4) (BitVec.ofNat 32 (v / 2 ^ 32)) WrEnv.none
  else if fn ≠ .mgt && (rqtOfAddr a).isSome && a % n = 0 then
    match rqtOfAddr a with
    | some (ch, e, o) => s.rqtWrite fn ch e o (toBytes n v)
    | none => s
  else if fn = .mgt ∨ !s.fnOn fn then s
  else if s.refuses fn a true then s.deny
  else s.bump .hub 0 0 Off.HUB_BADSZ 1

/-! ### Reads -/

/-- A read of one word by a host function: the state after it, and the word (R435, R436, R438, R446). -/
def Dev.hostRead (s : Dev) (fn : Fn) (a : Nat) : Dev × Word :=
  if !s.fnOn fn then (s, 0xFFFFFFFF)
  else match rqtOfAddr a, Page.ofAddr a with
    | some (ch, e, o), _ =>
      let granted := match fn with
        | .vf n => !s.hubFail && decide (s.partOwner ch e = some (n.val + 1))
        | _ => !s.hubFail
      if !granted then (s.deny, 0)
      else if s.chClosed ch then (s.bump .hub 0 0 Off.HUB_LDN 1, 0xFFFFFFFF)
      else (s, BitVec.ofNat 32 (s.ent (ch * 512 + e) (o / 4 * 4) 4))
    | none, none => (s.deny, 0)
    | none, some p =>
      if !s.mayRead p fn then (s.deny, 0)
      else if p.kind.inHub || s.windowUp p then s.readPage p (fnIx fn) 0 (a % 0x1000 / 4 * 4)
      else (s.bump .hub 0 0 Off.HUB_LDN 1, 0xFFFFFFFF)

/-- A read of one word by a management controller, as reader `rdr` of the recorder (R490, R510). -/
def Dev.mgtRead (s : Dev) (rdr a : Nat) : Dev × Word :=
  match Page.ofAddr a with
  | none => (s, 0)
  | some p => if s.mgtUp p then s.readPage p (63 + rdr) rdr (a % 0x1000 / 4 * 4) else (s, 0xFFFFFFFF)

/-- A register read, whose word leaves the module as the read's completion. -/
def Dev.readWord (s : Dev) (fn : Fn) (a : Nat) : Dev :=
  match fn with
  | .mgt => (s.mgtRead 1 a).1
  | _ =>
    let r := s.hostRead fn a
    r.1.emit (.readData (fnIx fn) a (toBytes 4 r.2.toNat))

/-! ### BAR2 (R443 to R446) -/

/-- What a BAR2 access does where it reaches device memory at `d` of a channel: `reach` bytes lie inside what the window maps. A host
write lands on directories, leaves and logs too, which R193 forbids the host and every later check finds. -/
def Dev.memAccess (s : Dev) (fn : Fn) (off ch d reach : Nat) : Bar2Op → Dev
  | .read n =>
    let s := if reach < n then s.bump .hub 0 0 Off.HUB_APMISS 1 else s
    s.emit (.readData (fnIx fn) off ((List.range n).map fun i => if i < reach then s.viewByte (d + i) else 0))
  | .write bs =>
    if s.fltState ch = 2 then s.bump .hub 0 0 Off.HUB_HALTWR 1
    else
      let s := if reach < bs.length then s.bump .hub 0 0 Off.HUB_APMISS 1 else s
      s.hostPoke d (bs.take reach)

/-- A BAR2 access that reaches no memory: it reads 0, or is ignored, and counts in HUB_APMISS (R444, R445). -/
def Dev.apMiss (s : Dev) (fn : Fn) (off : Nat) : Bar2Op → Dev
  | .read n => (s.bump .hub 0 0 Off.HUB_APMISS 1).emit (.readData (fnIx fn) off (List.replicate n 0))
  | .write _ => s.bump .hub 0 0 Off.HUB_APMISS 1

/-- A BAR2 access to a channel whose hub link is down or that is in a reset or in C2: all ones, counted in HUB_LDN (R446). -/
def Dev.linkDownAccess (s : Dev) (fn : Fn) (off : Nat) : Bar2Op → Dev
  | .read n => (s.bump .hub 0 0 Off.HUB_LDN 1).emit (.readData (fnIx fn) off (List.replicate n 0xFF))
  | .write _ => s.bump .hub 0 0 Off.HUB_LDN 1

/-- Where a BAR2 offset leads for a function: channel, device address, and how many bytes from there on are mapped; none where no
enabled aperture or window decodes it (R444, R445). -/
def Dev.bar2Map (s : Dev) (fn : Fn) (off : Nat) : Option (Nat × Nat × Nat) :=
  match fn with
  | .mgt => none
  | .pf0 =>
    let w := s.rd .hub 0 0 (Off.HUB_AP + 4 * (off / 2 ^ 32))
    if off / 2 ^ 32 < 16 ∧ bit w 11 ∧ bit (s.rd .hub 0 0 Off.HUB_CTL) 0 then
      some (fld w 9 7, tierBase (fld w 9 7) (fld w 10 10 + 1) + fld w 6 0 * 2 ^ 32 + off % 2 ^ 32, 2 ^ 32 - off % 2 ^ 32)
    else none
  | .vf n =>
    let ch := off / 2 ^ 28
    let o := off % 2 ^ 28
    let area := s.staging ch (n.val + 1)
    if ch < 8 ∧ bit (s.rd .hub 0 0 Off.HUB_CTL) 1 ∧ o < area.2 then some (ch, area.1 + o, area.2 - o) else none

/-- BAR2_ACCESS. -/
def Dev.bar2 (s : Dev) (fn : Fn) (off : Nat) (op : Bar2Op) : Dev :=
  if fn = .mgt ∨ !s.fnOn fn ∨ s.hubFail then s
  else
    let ch := match fn with
      | .vf _ => off / 2 ^ 28
      | _ => match s.bar2Map fn off with
        | some m => m.1
        | none => 8
    if ch < 8 ∧ s.chClosed ch then s.linkDownAccess fn off op
    else match s.bar2Map fn off with
      | none => s.apMiss fn off op
      | some (ch, d, reach) => s.memAccess fn off ch d reach op

end Sys2Proof.Machine
end

