-- ==== Sys2Proof/Machine/Mgmt.lean ====
section
/-! DEFINITION. Platform management over I3C: common command codes (R481 to R484), in-band interrupts (R485, R486), requests and
responses (R487 to R492), and attestation (R498 to R500). A request completes in the command that carries it (DESIGN CHOICE). -/

namespace Sys2Proof.Machine
open Sys2Proof

/-! ### Addressing (R481, R484) -/

/-- Whether a target acknowledges its dynamic address: it has passed step 4 of R470, has an address, and does not restart. -/
def Dev.tgtAcks (s : Dev) (t : Nat) : Bool := let m := s.mgt t; s.aux && m.acks && !m.restarting && m.da.isSome

/-- Whether a target takes part on the bus at all. -/
def Dev.tgtOnBus (s : Dev) (t : Nat) : Bool := let m := s.mgt t; s.aux && m.acks && !m.restarting

def Dev.nack (s : Dev) (t : Nat) : Dev := s.emit (.i3c t false [])

/-- A direct CCC that reads: the bytes, or NACK. -/
def Dev.cccRead (s : Dev) (t : Nat) (bs : List Byte) : Dev := if s.tgtAcks t then s.emit (.i3c t true bs) else s.nack t

/-- A CCC that writes, direct or broadcast. A direct one is NACKed by a target that does not answer. -/
def Dev.cccWrite (s : Dev) (tgt : Option Nat) (f : Dev → Nat → Dev) : Dev :=
  match tgt with
  | some t => if s.tgtAcks t then f (s.emit (.i3c t true [])) t else s.nack t
  | none => (List.range 9).foldl (fun s t => if s.tgtOnBus t then f s t else s) s

/-- Bytes of a number, most significant first. -/
def bigBytes (n v : Nat) : List Byte := (toBytes n v).reverse

/-- ENTDAA: a target without an address offers its PID, BCR and DCR, and takes the address (R482). -/
def Dev.entdaa (s : Dev) (t addr : Nat) : Dev :=
  if s.tgtOnBus t ∧ (s.mgt t).da = none then
    (s.emit (.i3c t true (bigBytes 6 (s.pid t) ++ [0x0E#8, 0x00#8]))).modMgt t fun m => { m with da := some addr }
  else s

def Dev.setNewDa (s : Dev) (t addr : Nat) : Dev := s.cccWrite (some t) fun s t => s.modMgt t fun m => { m with da := some addr }

/-- RSTDAA: every target loses its address; a pending response is kept. -/
def Dev.rstDaa (s : Dev) : Dev := s.cccWrite none fun s t => s.modMgt t fun m => { m with da := none }

/-- ENEC: one in-band interrupt follows where the summary is not empty (R486). -/
def Dev.enecCmd (s : Dev) (tgt : Option Nat) : Dev :=
  s.cccWrite tgt fun s t => (s.modMgt t fun m => { m with ibiEn := true }).flushSummary t

def Dev.disecCmd (s : Dev) (tgt : Option Nat) : Dev := s.cccWrite tgt fun s t => s.modMgt t fun m => { m with ibiEn := false }

/-- GETSTATUS: [3:0] pending kinds, [7:6] 1 in boot ROM mode; two bytes, the high one first. -/
def Dev.getStatusCmd (s : Dev) (t : Nat) : Dev :=
  s.cccRead t [0#8, BitVec.ofNat 8 (s.summary t % 16 + (s.mgt t).bootRom.toNat * 64)]

def Dev.setMwlCmd (s : Dev) (tgt : Option Nat) (n : Nat) : Dev := s.cccWrite tgt fun s t => s.modMgt t fun m => { m with mwl := min 1030 n }

def Dev.setMrlCmd (s : Dev) (tgt : Option Nat) (n : Nat) (ibi : Option Nat) : Dev :=
  s.cccWrite tgt fun s t => s.modMgt t fun m =>
    { m with mrl := min 1030 n, ibiMax := match ibi with | some k => min 4 k | none => m.ibiMax }

/-- IBI_RETRY: the pending in-band interrupt is sent again; an accepted one is pending no more, and counts (R486, R512). -/
def Dev.ibiAgain (s : Dev) (t : Nat) (accepted : Bool) : Dev :=
  let m := s.mgt t
  match m.ibi with
  | none => s
  | some e =>
    if !s.tgtAcks t ∨ !m.ibiEn then s
    else
      let s := s.emit (.ibi t e.1 e.2.1 e.2.2.1 e.2.2.2)
      if accepted then
        let s := s.modMgt t fun m => { m with ibi := none }
        if t < 8 then s.bump .mgtCh t 0 Off.MGT_IBI 1 else s
      else s

/-! ### Requests and responses (R487, R488) -/

/-- A response frame. -/
def frame (status tag : Nat) (payload : List Byte) : List Byte :=
  let b := toBytes 1 status ++ toBytes 1 tag ++ toBytes 2 payload.length ++ payload
  b ++ toBytes 2 (crc16 b)

/-- A response is ready: kept until the next request is accepted, and announced. One longer than the read limit becomes RANGE. -/
def Dev.respond (s : Dev) (t tag status : Nat) (payload : List Byte) : Dev :=
  let over_ := decide ((s.mgt t).mrl < 6 + payload.length)
  let st := if over_ then Code.RANGE else status
  let s := s.modMgt t fun m => { m with resp := some (frame st tag (if over_ then [] else payload)) }
  let s := if t < 8 ∧ (st = Code.RANGE ∨ st = Code.REJECTED) then s.bump .mgtCh t 0 Off.MGT_REJ 1 else s
  s.raiseIbiBare t 4 st tag

/-- A private write that carries a request of `len` payload bytes: NACKed by a target that does not answer; RANGE beyond the write limit,
or in boot ROM mode where the command is not served there; else `run` gives state, status and payload. -/
def Dev.request (s : Dev) (t tag len : Nat) (boot : Bool) (run : Dev → Dev × Nat × List Byte) : Dev :=
  if !s.tgtAcks t then s.nack t
  else
    let s := s.emit (.i3c t true [])
    let s := if t < 8 then s.bump .mgtCh t 0 Off.MGT_REQ 1 else s
    if (s.mgt t).mwl < 6 + len ∨ ((s.mgt t).bootRom ∧ !boot) then s.respond t tag Code.RANGE []
    else
      let r := run s
      r.1.respond t tag r.2.1 r.2.2

/-- MGT_REQUEST_INVALID: a request that fails its CRC or its length is REJECTED; an unknown opcode, or a payload that its opcode does not
take, is RANGE. -/
def Dev.badRequest (s : Dev) (t tag : Nat) (ok : Bool) : Dev :=
  s.request t tag 0 true fun s => (s, if ok then Code.RANGE else Code.REJECTED, [])

/-- MGT_RESPONSE_READ: the response, or PENDING with LEN 0 before the first. -/
def Dev.respRead (s : Dev) (t : Nat) : Dev := s.cccRead t ((s.mgt t).resp.getD (frame Code.PENDING 0 []))

/-! ### The commands (R489) -/

/-- GET_INFO: PID, serial, stepping, the state words, and the thermal state of each cluster, one byte each; the hub answers with
FLT_MOD_STA and PWR_MOD_STA for the module. -/
def Dev.infoOf (s : Dev) (t : Nat) : List Byte :=
  let head := toBytes 6 (s.pid t) ++ (Config.serial ++ List.replicate 16 0).take 16 ++ [0xB1#8]
  if t < 8 then
    head ++ toBytes 4 (s.rd .fltCh t 0 Off.FLT_STA).toNat ++ toBytes 4 (s.rd .pwrCh t 0 Off.PWR_CH_STA).toNat ++
      (List.range 8).map fun cl => BitVec.ofNat 8 (s.therm (t * 8 + cl)).state.code
  else
    head ++ toBytes 4 (s.pageWord ⟨.fltMod, 0, 0⟩ 1 Off.FLT_MOD_STA).toNat ++ toBytes 4 (s.pageWord ⟨.pwrMod, 0, 0⟩ 1 Off.PWR_MOD_STA).toNat

/-- Whether word `a` of BAR0 stands on a page of a target's window: a channel's window, or the hub region. -/
def inWindow (t a : Nat) : Bool :=
  match Page.ofAddr a with
  | some p => if t < 8 then !p.kind.inHub && p.ch = t else p.kind.inHub
  | none => false

/-- READ_REG: consecutive words of pages of the window, for a reader of the recorder (R490). -/
def Dev.readRegs (s : Dev) (rdr t off n : Nat) : Dev × Nat × List Byte :=
  if n = 0 ∨ 64 < n ∨ off % 4 ≠ 0 ∨ !((List.range n).all fun i => inWindow t (off + 4 * i)) then (s, Code.RANGE, [])
  else
    let r := (List.range n).foldl (fun (r : Dev × List Byte) i =>
      let x := r.1.mgtRead rdr (off + 4 * i)
      (x.1, r.2 ++ toBytes 4 x.2.toNat)) (s, [])
    (r.1, Code.OK, r.2)

/-- Whether management may write word `a` in a target's window (R490). -/
def Dev.mgtMay (s : Dev) (t a : Nat) : Bool :=
  inWindow t a && (match Page.ofAddr a with | some p => s.mayWrite p (a % 0x1000) .mgt | none => false)

/-- WRITE_REG: words in request order, or none where one lies outside the limits (R490). -/
def Dev.writeRegs (s : Dev) (rdr t off : Nat) (ws : List Word) : Dev × Nat × List Byte :=
  let n := ws.length
  if n = 0 ∨ 64 < n ∨ off % 4 ≠ 0 ∨ !((List.range n).all fun i => s.mgtMay t (off + 4 * i)) then (s, Code.RANGE, [])
  else (ws.zipIdx.foldl (fun s e => s.mgtWrite rdr (off + 4 * e.2) e.1 WrEnv.none) s, Code.OK, [])

/-- SET_TIME of one controller; a channel records it with the old time (R503). -/
def Dev.setCal (s : Dev) (t ms : Nat) : Dev :=
  let old := s.calendar t
  let s := s.modMgt t fun m => { m with calBase := ms, calAt := s.mgtMs, tset := true }
  if t < 8 then s.record t (Ev.plain 0x0320 1 true ((toBytes 8 old).map (·.toNat))) else s

/-- SET_TIME: the hub target sets all nine controllers. -/
def Dev.setTimeCmd (s : Dev) (t ms : Nat) : Dev :=
  if t < 8 then s.setCal t ms else (List.range 9).foldl (fun s i => s.setCal i ms) s

/-- EVR_READ: a count byte, then the records that are still there. With the count byte, 31 records fill a payload (R487). -/
def Dev.readEvr (s : Dev) (t first n : Nat) : Dev × Nat × List Byte :=
  if 8 ≤ t ∨ n = 0 ∨ 32 < n then (s, Code.RANGE, [])
  else
    let rs := (s.recsFrom t first n).take 31
    (s, Code.OK, BitVec.ofNat 8 rs.length :: rs.flatMap recBytes)

def Dev.clearEvr (s : Dev) (t : Nat) : Dev × Nat × List Byte :=
  if t < 8 then (s.evrClear t, Code.OK, []) else (s, Code.RANGE, [])

/-- GET_CERT: up to 1,024 bytes of a certificate from an offset on (R498). -/
def Dev.certOf (s : Dev) (t ix off : Nat) : Dev × Nat × List Byte :=
  if 8 ≤ t ∨ 1 < ix then (s, Code.RANGE, []) else (s, Code.OK, ((Config.cert t ix).drop off).take 1024)

def Dev.stageChunk (s : Dev) (t kind off : Nat) (bytes : List Byte) : Dev × Nat × List Byte :=
  if !fwHas t kind ∨ bytes.length = 0 ∨ 1016 < bytes.length then (s, Code.RANGE, [])
  else let r := s.fwChunk t kind off bytes; (r.1, r.2, [])

def Dev.activateCmd (s : Dev) (t kind : Nat) : Dev × Nat × List Byte :=
  if !fwHas t kind then (s, Code.RANGE, []) else let r := s.fwActivate t kind; (r.1, r.2.1, [])

def Dev.commitCmd (s : Dev) (t kind : Nat) : Dev × Nat × List Byte :=
  if !fwHas t kind then (s, Code.RANGE, []) else let r := s.svnCommit t kind; (r.1, r.2, [])

/-- SERVICE_OUT: the channel enters HALTED with CAUSE 126 (R491). -/
def Dev.serviceOutCmd (s : Dev) (t : Nat) : Dev × Nat × List Byte :=
  if t < 8 then ((s.halt t 126 false).record t (Ev.plain 0x0322 1 true []), Code.OK, []) else (s, Code.RANGE, [])

/-- MGT_RESTART: the target answers nothing until its firmware has been verified again; the monitor is LOCKED (R492, R509). -/
def Dev.restartCmd (s : Dev) (t : Nat) : Dev :=
  let s := s.modMgt t fun m => { m with restarting := true }
  if t < 8 then s.modChan t fun c => { c with pemor := { c.pemor with level := .locked, nonce := none, jtag := false } } else s

/-- GET_EVENTS returns the summary and clears it (R486). -/
def Dev.eventsCmd (s : Dev) (t : Nat) : Dev × Nat × List Byte :=
  let b := BitVec.ofNat 8 (s.summary t)
  (s.modMgt t fun m => { m with evs := [] }, Code.OK, [b])

/-! ### Attestation (R499, R500) -/

/-- The pages of a channel window, in BAR0 order (R441). -/
def windowPages (ch : Nat) : List Page :=
  let one : List PageKind := [.fltCh, .pwrCh, .mgtCh, .secCh, .evrCh, .plkCh, .rqtCh, .kvpCh, .ldrCh, .plcCh, .arrCh, .corCh, .fulCh,
    .accCh, .attCh, .spdCh, .synCh, .evfCh, .monCh, .thmCh, .bkgCh]
  let cxs : List PageKind := [.rqtCx, .kvpCx, .synCx]
  let cls : List PageKind := [.att, .mon, .arrSpr]
  let cos : List PageKind := [.arr, .cor, .pnc, .ful, .acc, .spd]
  one.map (⟨·, ch, 0⟩) ++ (List.range 64).flatMap (fun n => cxs.map (⟨·, ch, n⟩)) ++
    (List.range 8).flatMap (fun n => cls.map (⟨·, ch, n⟩)) ++ (List.range 64).flatMap fun n => cos.map (⟨·, ch, n⟩)

def Dev.wordBytes (s : Dev) (k : PageKind) (ch o : Nat) : List Byte := toBytes 4 (s.pageWord ⟨k, ch, 0⟩ 1 o).toNat

/-- The configuration digest of a channel. -/
def Dev.configDigest (s : Dev) (ch : Nat) : List Byte :=
  sha512 ((windowPages ch).flatMap (fun p =>
      toBytes 4 (s.pageWord p 1 Off.PG_SEV0).toNat ++ toBytes 4 (s.pageWord p 1 Off.PG_SEV1).toNat) ++
    s.wordBytes .fltCh ch Off.FLT_CTL ++ s.wordBytes .thmCh ch Off.THM_LIM ++ s.wordBytes .thmCh ch Off.THM_SENS ++
    s.wordBytes .evrCh ch Off.EVR_CTL ++ s.wordBytes .mgtCh ch Off.MGT_CTL ++ s.wordBytes .pwrMod 0 Off.PWR_MOD_CAP ++
    s.wordBytes .evfMod 0 Off.EVF_NODE ++ s.wordBytes .secCh ch Off.SEC_STA ++ measBytes (s.fw (fwKey 8 0)).meas)

/-- An entry of the report: kind, slot, SVN and measurement of what runs. -/
def Dev.fwEntry (s : Dev) (ch i : Nat) : List Byte :=
  let f := match i with
    | 1 => s.fw (fwKey ch 0)
    | 2 => s.fw (fwKey ch 1)
    | _ => s.fw (fwKey 8 2)
  let head := if i = 0 then toBytes 1 (Config.romEntry 0) ++ toBytes 1 (Config.romEntry 1) ++ toBytes 2 0 ++ toBytes 4 (Config.romEntry 2)
    else toBytes 1 (i - 1) ++ toBytes 1 f.runSlot ++ toBytes 2 0 ++ toBytes 4 f.runSvn
  head ++ s.measOf ch i

/-- Bytes 0x000 to 0x1BF of the report. -/
def Dev.reportBody (s : Dev) (ch : Nat) (nonce : List Byte) : List Byte :=
  let m := s.mgt ch
  let p := (s.chan ch).pemor
  let fb := (s.fw (fwKey ch 0)).fallback || (s.fw (fwKey ch 1)).fallback
  let flags := m.tset.toNat + (p.level ≠ .locked : Bool).toNat * 2 + p.opened.toNat * 4 + p.jtagOpened.toNat * 8 + s.fltState ch * 16
    + fb.toNat * 64
  toBytes 4 0x54414B47 ++ toBytes 2 1 ++ toBytes 1 ch ++ toBytes 1 s.slotId.toNat ++ (Config.serial ++ List.replicate 16 0).take 16 ++
    [0xB1#8, 0xB1#8] ++ List.replicate 6 0 ++ (nonce ++ List.replicate 32 0).take 32 ++ toBytes 8 m.reports ++ toBytes 8 (s.chan ch).time ++
    toBytes 8 (s.calendar ch) ++ toBytes 4 flags ++ toBytes 4 0 ++ (List.range 4).flatMap (fun i => s.fwEntry ch i) ++ s.configDigest ch

/-- ATTEST: the report, signed with the channel's identity key; the hub has none (R498). -/
def Dev.attestCmd (s : Dev) (t : Nat) (nonce : List Byte) : Dev × Nat × List Byte :=
  if 8 ≤ t ∨ nonce.length ≠ 32 then (s, Code.RANGE, [])
  else
    let b := s.reportBody t nonce
    let sig := (Config.idSign t b ++ List.replicate 64 0).take 64
    ((s.modMgt t fun m => { m with reports := m.reports + 1 }).bump .secCh t 0 Off.SEC_ATT 1, Code.OK, b ++ sig)

end Sys2Proof.Machine
end

