-- ==== Sys2Proof/Machine/Pemor.lean ====
section
/-! DEFINITION. The Pemor monitor on a channel's debug UART (R508 to R510): unlocking, its commands, and its return to LOCKED. -/

namespace Sys2Proof.Machine
open Sys2Proof

def Dev.pem (s : Dev) (ch : Nat) : Pemor := (s.chan ch).pemor
def Dev.modPem (s : Dev) (ch : Nat) (f : Pemor → Pemor) : Dev := s.modChan ch fun c => { c with pemor := f c.pemor }
def Dev.line (s : Dev) (ch : Nat) (text : String) (ws : List Nat) : Dev := s.emit (.uart ch text ws)

/-- Level codes of R510 and R513. -/
def lvl : PemorLevel → Nat
  | .locked => 0 | .read => 1 | .full => 2

/-- Whether the monitor runs: VAUX is there, and its controller has started. -/
def Dev.pemOn (s : Dev) (ch : Nat) : Bool := let m := s.mgt ch; s.aux && m.acks && !m.restarting

/-- A command that needs a level: without the level, and in boot ROM mode, it prints denied and does nothing. -/
def Dev.pemCmd (s : Dev) (ch need : Nat) (run : Dev → Dev) : Dev :=
  if !s.pemOn ch then s
  else if (s.mgt ch).bootRom ∨ lvl (s.pem ch).level < need then s.line ch "denied" []
  else run s

/-- Words of eight hex digits of some bytes. -/
def hexWords (bs : List Byte) : List Nat :=
  (List.range (bs.length / 4)).map fun i => ofBytes ((bs.drop (4 * i)).take 4).reverse

def Dev.pemId (s : Dev) (ch : Nat) : Dev :=
  if s.pemOn ch then
    s.line ch "id" (hexWords ((Config.serial ++ List.replicate 16 0).take 16) ++ [ch, 0xB1, lvl (s.pem ch).level, (s.mgt ch).bootRom.toNat])
  else s

/-- The nonce that was printed last, 32 bytes. -/
def nonceBytes (ch k : Nat) : List Byte := (Config.nonce ch k ++ List.replicate 32 0).take 32

/-- unlock: a fresh nonce for one attempt at a level; refused while PEMOR_EN is 0 and after three failures (R509, R510). -/
def Dev.pemUnlock (s : Dev) (ch : Nat) (level : PemorLevel) : Dev :=
  s.pemCmd ch 0 fun s =>
    let p := s.pem ch
    if s.rdF .mgtCh ch 0 Off.MGT_CTL 0 0 = 0 ∨ p.lockout ∨ level = .locked then s.line ch "denied" []
    else
      (s.modPem ch fun p => { p with nonce := some (p.nonces, level), nonces := p.nonces + 1 }).line ch "nonce"
        (hexWords (nonceBytes ch p.nonces))

/-- An unlock event in the recorder: level, and path 0 UART or 1 JTAG (R503). -/
def Dev.pemRecord (s : Dev) (ch code level path : Nat) : Dev := s.record ch (Ev.plain code 2 true [level, path])

/-- A failed attempt: recorded, counted, UNLOCK_FAIL, and the third within 10 minutes refuses unlock (R510). -/
def Dev.unlockFailed (s : Dev) (ch level : Nat) : Dev :=
  let s := ((s.pemRecord ch 0x0311 level 0).bump .secCh ch 0 Off.SEC_UFAIL 1).raise ch 93
  let now := s.mgtMs
  let fs := now :: (s.pem ch).fails.filter fun t => decide (now < t + 600000)
  (s.modPem ch fun p => if 3 ≤ fs.length then { p with fails := [], lockout := true } else { p with fails := fs }).line ch "failed" []

/-- resp: the signature over the message of R510 opens the level; the nonce serves for one attempt. -/
def Dev.pemResp (s : Dev) (ch : Nat) (sig : List Byte) : Dev :=
  s.pemCmd ch 0 fun s =>
    let p := s.pem ch
    if s.rdF .mgtCh ch 0 Off.MGT_CTL 0 0 = 0 ∨ p.lockout then s.line ch "denied" []
    else
      let s := s.modPem ch fun p => { p with nonce := none }
      match p.nonce with
      | none => s.unlockFailed ch 0
      | some (k, level) =>
        let msg := [0x50#8, 0x45#8, 0x4D#8, 0x4F#8, 0x52#8] ++ (Config.serial ++ List.replicate 16 0).take 16 ++
          [BitVec.ofNat 8 ch, BitVec.ofNat 8 (lvl level)] ++ nonceBytes ch k
        if sig.length = 64 ∧ Config.debugVerify msg sig then
          (((s.modPem ch fun p => { p with level := level, opened := true }).pemRecord ch 0x0310 (lvl level) 0).bump .secCh ch 0 Off.SEC_UNLK 1).line
            ch "open" [lvl level]
        else s.unlockFailed ch (lvl level)

/-- Return to LOCKED, with the JTAG debug instructions closed; recorded when a level was open (R509). -/
def Dev.relock (s : Dev) (ch : Nat) : Dev :=
  let l := (s.pem ch).level
  let s := s.modPem ch fun p => { p with level := .locked, jtag := false }
  if l = .locked then s else s.pemRecord ch 0x0312 (lvl l) 0

def Dev.pemLock (s : Dev) (ch : Nat) : Dev := s.pemCmd ch 0 fun s => s.relock ch

/-- status: fault, thermal, power and ready states. -/
def Dev.pemStatus (s : Dev) (ch : Nat) : Dev :=
  s.pemCmd ch 1 fun s =>
    s.line ch "status" [s.fltState ch, fld (s.pageWord ⟨.thmCh, ch, 0⟩ 2 Off.THM_CH_STA) 2 0, s.cstate ch, (s.chReady ch).toNat]

/-- rd: up to 64 words of the channel window, as READ_REG. -/
def Dev.pemRead (s : Dev) (ch off n : Nat) : Dev :=
  s.pemCmd ch 1 fun s =>
    let r := s.readRegs 2 ch off n
    if r.2.1 = Code.OK then r.1.line ch "rd" ((List.range n).map fun i => ofBytes ((r.2.2.drop (4 * i)).take 4))
    else s.line ch "range" []

/-- evr: up to 32 records from the Pemor cursor on, which moves past them; a SEQ sets it first (R506). -/
def Dev.pemEvr (s : Dev) (ch : Nat) (seq n : Option Nat) : Dev :=
  s.pemCmd ch 1 fun s =>
    let k := n.getD 1
    if k = 0 ∨ 32 < k then s.line ch "range" []
    else
      let first := seq.getD (s.cursor ch 2)
      let rs := s.recsFrom ch first k
      let next := match rs.getLast? with | some r => r.seq + 1 | none => first
      (s.modEvr ch fun r => { r with cursors := modifyAt (fun _ => next % 2 ^ 48) 2 r.cursors }).line ch "evr" ((rs.flatMap recBytes).map (·.toNat))

/-- mon: MON_RES of a cluster. -/
def Dev.pemMon (s : Dev) (ch cl : Nat) : Dev :=
  s.pemCmd ch 1 fun s =>
    s.line ch "mon" ((List.range 16).map fun i => (s.pageWord ⟨.mon, ch, cl⟩ 2 (Off.MON_RES + 4 * i)).toNat)

/-- baud: applies after the reply, and is kept until power-on reset. -/
def Dev.pemBaud (s : Dev) (ch rate : Nat) : Dev :=
  s.pemCmd ch 1 fun s =>
    if [115200, 460800, 921600, 1500000, 3000000].contains rate then (s.line ch "baud" [rate]).modPem ch fun p => { p with baud := rate }
    else s.line ch "range" []

/-- wr: one word, as WRITE_REG. -/
def Dev.pemWrite (s : Dev) (ch off : Nat) (w : Word) : Dev :=
  s.pemCmd ch 2 fun s =>
    let r := s.writeRegs 2 ch off [w]
    r.1.line ch (if r.2.1 = Code.OK then "ok" else "range") []

/-- force: raises a source as PG_FRC does, marked FORCED. -/
def Dev.pemForce (s : Dev) (ch ix : Nat) : Dev := s.pemCmd ch 2 fun s => s.raiseAt ch ix true .none []

/-- mem: up to 256 bytes of the channel's T1 or T2. -/
def Dev.pemMem (s : Dev) (ch addr n : Nat) : Dev :=
  s.pemCmd ch 2 fun s =>
    let tier := addr / 2 ^ 44 % 4
    if n = 0 ∨ 256 < n ∨ 2 ≤ tier ∨ addr / 2 ^ 46 ≠ ch ∨ tierBytes tier < addr % 2 ^ 44 + n then s.line ch "range" []
    else s.line ch "mem" ((s.viewBytes addr n).map (·.toNat))

/-- jtag open, while JTAG_DBG_EN is 1. -/
def Dev.jtagOpen (s : Dev) (ch : Nat) : Dev :=
  s.pemCmd ch 2 fun s =>
    if s.rdF .mgtCh ch 0 Off.MGT_CTL 1 1 = 0 then s.line ch "denied" []
    else (s.modPem ch fun p => { p with jtag := true, jtagOpened := true }).pemRecord ch 0x0310 2 1

def Dev.jtagClose (s : Dev) (ch : Nat) : Dev :=
  s.pemCmd ch 2 fun s => if (s.pem ch).jtag then (s.modPem ch fun p => { p with jtag := false }).pemRecord ch 0x0312 2 1 else s

/-- PEMOR_IDLE_TIMEOUT: 30 minutes without input. -/
def Dev.pemIdle (s : Dev) (ch : Nat) : Dev := if s.pemOn ch then s.relock ch else s

/-- PEMOR_NONCE_EXPIRE: 60 s after the nonce was printed. -/
def Dev.nonceExpire (s : Dev) (ch : Nat) : Dev := s.modPem ch fun p => { p with nonce := none }

/-- UNLOCK_LOCKOUT_END: 10 minutes after the third failure. -/
def Dev.lockoutEnd (s : Dev) (ch : Nat) : Dev := s.modPem ch fun p => { p with lockout := false }

end Sys2Proof.Machine
end

