-- ==== Sys2Proof/Machine/Exec.lean ====
section
/-! DEFINITION. What every meaning shares: the answer of a command, and the conditions under which a channel works. -/

namespace Sys2Proof.Machine
open Sys2Proof

/-- Every command's answer. -/
abbrev Answer := Host.Outcome State Fault Refusal

/-- The answer of a command that leaves the module as `m`: what a change of fault state brings with it follows within the command (R378,
R384, R393). -/
def State.done (s : State) (m : Dev) : Answer := .next { s with m := m.settle }

/-- `f` where a condition holds; else the event has no cause, and nothing happens. -/
def Dev.only (s : Dev) (b : Bool) (f : Dev → Dev) : Dev := if b then f s else s

/-- Whether a channel's engines run: powered, NORMAL, not in the safe state and not in C2 (R378, R458). -/
def Dev.running (s : Dev) (ch : Nat) : Bool :=
  s.vin && s.fltState ch = 0 && s.rdF .fltCh ch 0 Off.FLT_STA 2 2 = 0 && s.cstate ch ≠ 2

/-- The same where an orderly thermal stop ends programming and blocking runs (R415). -/
def Dev.programs (s : Dev) (ch : Nat) : Bool := s.running ch && !(s.chan ch).orderly

/-- Whether a channel's logic is powered: what goes on while it is CONTAINED (R379). -/
def Dev.alive (s : Dev) (ch : Nat) : Bool := s.vin && s.cstate ch ≠ 2

/-- Whether the work of a load or swap moves on: no channel of the context's mask is CONTAINED (R270). -/
def Dev.loadMoves (s : Dev) (ctx : Nat) : Bool := s.vin && (s.mask ctx).all fun ch => s.fltState ch ≠ 1

/-- Offset in BAR0 of a context's word in the hub region. -/
def cxOff (k : PageKind) (ctx o : Nat) : Nat := pageOff k 0 ctx o

/-- A host write of one word, with nothing read from host memory. -/
def Dev.put (s : Dev) (fn : Fn) (a : Nat) (w : Word) : Dev := s.writeWord fn a w WrEnv.none

/-- A 32-bit host write into a request table entry. -/
def Dev.putEnt (s : Dev) (fn : Fn) (r : SeqRef) (o v : Nat) : Dev := s.rqtWrite fn r.ch.val r.e.val o (toBytes 4 v)

/-- RING_XLATE names an entry: the sequence ends FAILED with DROPPED; nothing more is written to its ring or status word (R246). -/
def Dev.ringLost (s : Dev) (r : Nat) : Dev :=
  if !s.live r ∨ s.st r = St.ADMITTED then s
  else
    let ch := entCh r
    let ctx := (s.seq r).ctx
    let s := ((s.abandon r).abandonHood r).modSeq r fun q => { q with
      restore := none, held := none, stopping := .no, ringRsv := false, replay := [], group := [], pend := [], swDue := false, irqDue := false }
    let s := ((s.freeAll r).setStateW r St.FAILED Code.DROPPED 0 7).modDlv r fun d => { d with live := false }
    let s := { s with hubGroups := s.hubGroups.filter fun g => decide (g.seq.ix ≠ r) }
    (s.bump .rqtCh ch 0 Off.RQT_FAIL 1).bump .rqtCx ch ctx Off.RQT_CX_FAIL 1

end Sys2Proof.Machine
end

