-- ==== Sys2Proof/Machine/ExecArray.lean ====
section
/-! DEFINITION. Meanings of the commands of tiles, correction, formats, accumulation and attention. -/

namespace Sys2Proof.Machine
open Sys2Proof

/-- The answer of a command that may form the root of a module's tree: a collective that waits for it takes it (R359). -/
def State.doneTree (s : State) (m : Dev) : Answer := s.done m.feedColls

/-- MVM_DESCRIPTOR (R48, R50). -/
def execMvmDescriptor (tile : TileRef) (d : MvmDesc) (dev : AnalogDev) (s : State) : Answer :=
  s.doneTree (s.m.only (s.m.running tile.ch.val) fun m => m.mvmStart tile.ix d dev)

/-- TRANSPOSE_READ (R53). -/
def execTransposeRead (tile : TileRef) (d : MvmDesc) (dev : AnalogDev) (s : State) : Answer :=
  s.doneTree (s.m.only (s.m.running tile.ch.val) fun m => m.transposeStart tile.ix d dev)

/-- MVM_SUMS_ARRIVE (R67). -/
def execMvmSumsArrive (tile : TileRef) (s : State) : Answer :=
  s.doneTree (s.m.only (s.m.running tile.ch.val) fun m => m.sumsArrive tile.ix)

/-- POUNCE_SHARE_DONE (R68). -/
def execPounceShareDone (share : PounceShare) (s : State) : Answer :=
  s.doneTree (s.m.only (s.m.running share.tile.ch.val) fun m => m.pounceDone share.tile.ix share.late)

/-- REREAD_COMPLETE (R84). -/
def execRereadComplete (tile : TileRef) (dev : AnalogDev) (s : State) : Answer :=
  s.doneTree (s.m.only (s.m.running tile.ch.val) fun m => m.rereadDone tile.ix dev)

/-- REFERENCE_PROBE (R73). -/
def execReferenceProbe (tile : IndexRef) (dev : AnalogDev) (s : State) : Answer :=
  s.done (s.m.only (s.m.running tile.ch.val) fun m => m.probe tile.ix dev)

/-- DRIFT_INTERVAL_END (R75). -/
def execDriftIntervalEnd (ch : ChId) (s : State) : Answer :=
  s.done (s.m.only (s.m.running ch.val) fun m => m.driftEnd ch.val)

/-- REFRESH_WAIT_EXPIRE (R78). -/
def execRefreshWaitExpire (tile : TileRef) (s : State) : Answer :=
  s.done (s.m.only (s.m.running tile.ch.val) fun m => m.refreshWait tile.ix)

/-- LOCALISATION_PROBE (R89). -/
def execLocalisationProbe (tile : TileRef) (subBlock : Fin 8) (dev : AnalogDev) (s : State) : Answer :=
  s.done (s.m.only (s.m.running tile.ch.val) fun m => m.locProbe tile.ix subBlock.val dev)

/-- LOCALISATION_RUN_END (R90). -/
def execLocalisationRunEnd (tile : TileRef) (s : State) : Answer :=
  s.done (s.m.only (s.m.running tile.ch.val) fun m => m.locEnd tile.ix)

/-- SHADOW_REPLAY (R101). -/
def execShadowReplay (c : ClusterRef) (dev : AnalogDev) (s : State) : Answer :=
  s.done (s.m.only (s.m.running c.ch.val) fun m => m.shadowReplay c.ix dev)

/-- SHADOW_DIGITAL_CHECK (R102). -/
def execShadowDigitalCheck (c : ClusterRef) (s : State) : Answer :=
  s.done (s.m.only (s.m.running c.ch.val) fun m => m.shadowCheck c.ix)

/-- SHADOW_DWELL_END (R100). -/
def execShadowDwellEnd (c : ClusterRef) (s : State) : Answer :=
  s.done (s.m.only (s.m.running c.ch.val) fun m => m.dwellEnd c.ix)

/-- What the fuller of a core has finished: a layer execution's inputs, or keys and values (R113, R114). -/
def Dev.fullerDone (s : Dev) (c : Nat) : FullerWork → Dev
  | .exec e => s.quantiseDone c e
  | .kv rows => rows.foldl (fun s w => s.putKv c w) s

/-- FULLER_QUANTISE_DONE (R113, R114, R126). -/
def execFullerQuantiseDone (core : CoreRef) (w : FullerWork) (s : State) : Answer :=
  s.doneTree (s.m.only (s.m.running core.ch.val) fun m => m.fullerDone core.ix w)

/-- WIDE_MODE_HOLD_END (R135). -/
def execWideModeHoldEnd (c : ClusterRef) (s : State) : Answer :=
  s.done (s.m.only (s.m.running c.ch.val) fun m => m.holdEnd c.ix)

/-- DAE_ITEM_START (R166). -/
def execDaeItemStart (core : CoreRef) (item : AttnItem) (s : State) : Answer :=
  s.done (s.m.daeStart core item)

/-- DAE_BLOCK_ARRIVE (R168, R175). -/
def execDaeBlockArrive (block : BlockArrival) (s : State) : Answer :=
  s.done (s.m.only (s.m.running block.core.ch.val) fun m => m.daeBlock block.core block.late)

/-- PAE_ITEM_START (R166, R180). -/
def execPaeItemStart (c : ClusterRef) (item : AttnItem) (s : State) : Answer :=
  s.done (s.m.paeStart c item)

/-- PAE_STAGE_DONE (R178, R180). -/
def execPaeStageDone (c : ClusterRef) (s : State) : Answer :=
  s.done (s.m.only (s.m.running c.ch.val) fun m => m.paeStage c)

/-- PAE_BACKWARD_ITEM (R182). -/
def execPaeBackwardItem (c : ClusterRef) (item : BwdItem) (s : State) : Answer :=
  s.done (s.m.paeBackward c item)

/-- SPILL_LAYER_ITEM (R264). -/
def execSpillLayerItem (c : ClusterRef) (item : SpillItem) (s : State) : Answer :=
  s.doneTree (s.m.only (s.m.running c.ch.val) fun m => m.spillItem c item)

/-- TILE_VERIFY_DONE (R262). -/
def execTileVerifyDone (ch : ChId) (cl : ClId) (tile : Fin 132) (missed : List Nat) (iterations : Nat) (probe : List F32) (s : State) : Answer :=
  s.done (s.m.only (s.m.programs ch.val) fun m => m.tileVerifyDone ((ch.val * 8 + cl.val) * 132 + tile.val) missed iterations probe)

/-- LEAF_ARRIVAL (R143, R148, R149, R156). -/
def execLeafArrival (core : CoreRef) (leaf : LeafMsg) (s : State) : Answer :=
  s.doneTree (s.m.only (s.m.running core.ch.val) fun m => m.leafArrive core leaf)

end Sys2Proof.Machine
end

