-- ==== Sys2Proof/Machine/ExecCore.lean ====
section
/-! DEFINITION. Meanings of the commands of the scratchpads and of synchronisation. -/

namespace Sys2Proof.Machine
open Sys2Proof

/-- Channel of what may power down. -/
def pdCh : PdTarget → Nat
  | .bank core _ => core.ch.val
  | .hbm ch _ => ch.val
  | .t2 ch _ => ch.val

/-- A word of SYN_CX_CMD (R342): object, command, amount. -/
def synWord (cmd : Nat) (vid : Fin 4096) (value : BitVec 16) : Word := BitVec.ofNat 32 (vid.val + cmd * 2 ^ 12 + value.toNat * 2 ^ 16)

/-- SPD_REQUEST_ISSUE (R302). -/
def execSpdRequestIssue (core : CoreRef) (req : SpdReq) (s : State) : Answer :=
  s.done (s.m.only (s.m.alive core.ch.val) fun m => m.spdIssue core.ix req)

/-- SPD_ACCESS_START (R304). -/
def execSpdAccessStart (core : CoreRef) (entry : Nat) (s : State) : Answer :=
  s.done (s.m.only (s.m.running core.ch.val) fun m => m.spdStart core.ix entry)

/-- GATHER_SLOT_TIMEOUT (R306). -/
def execGatherSlotTimeout (core : CoreRef) (slot : Fin 4) (s : State) : Answer :=
  s.done (s.m.only (s.m.running core.ch.val) fun m => m.gatherTimeout core.ix slot.val)

/-- REGION_ROOM_AVAILABLE (R312). -/
def execRegionRoomAvailable (core : CoreRef) (room : RegionRoom) (s : State) : Answer :=
  s.done (s.m.only (s.m.running core.ch.val) fun m => m.regionRoom core.ix room.rgn.val room.cycles)

/-- BANK_IDLE_EXPIRE (R314, R315). -/
def execBankIdleExpire (t : PdTarget) (s : State) : Answer :=
  s.done (s.m.only (s.m.alive (pdCh t)) fun m => m.pdRequest t)

/-- BANK_WRITES_DRAINED (R314). -/
def execBankWritesDrained (t : PdTarget) (s : State) : Answer :=
  s.done (s.m.only (s.m.alive (pdCh t)) fun m => m.pdDrained t)

/-- BANK_PD_WAIT_EXPIRE (R314). -/
def execBankPdWaitExpire (wait : PdWait) (s : State) : Answer :=
  s.done (s.m.only (s.m.alive (pdCh wait.unit)) fun m => (m.lateWrites wait.late wait.unit).pdExpired wait.late.length wait.unit)

/-- SYN_CX_CMD MAP (R325, R342). -/
def execSynMap (fn : Fn) (ch : ChId) (ctx : CtxId) (vid : Fin 4096) (s : State) : Answer :=
  s.done (s.m.put fn (pageOff .synCx ch.val ctx.val Off.SYN_CX_CMD) (synWord 1 vid 0))

/-- SYN_CX_CMD UNMAP (R325, R342). -/
def execSynUnmap (fn : Fn) (ch : ChId) (ctx : CtxId) (vid : Fin 4096) (s : State) : Answer :=
  s.done (s.m.put fn (pageOff .synCx ch.val ctx.val Off.SYN_CX_CMD) (synWord 2 vid 0))

/-- SYN_CX_CMD ARM (R325, R342). -/
def execSynArm (fn : Fn) (ch : ChId) (ctx : CtxId) (vid : Fin 4096) (s : State) : Answer :=
  s.done (s.m.put fn (pageOff .synCx ch.val ctx.val Off.SYN_CX_CMD) (synWord 3 vid 0))

/-- SYN_CX_CMD SIGNAL (R329, R342). -/
def execSynSignal (fn : Fn) (ch : ChId) (ctx : CtxId) (vid : Fin 4096) (value : BitVec 16) (s : State) : Answer :=
  s.done (s.m.put fn (pageOff .synCx ch.val ctx.val Off.SYN_CX_CMD) (synWord 4 vid value))

/-- SYN_CX_CMD CONSUME (R329, R342). -/
def execSynConsume (fn : Fn) (ch : ChId) (ctx : CtxId) (vid : Fin 4096) (value : BitVec 16) (s : State) : Answer :=
  s.done (s.m.put fn (pageOff .synCx ch.val ctx.val Off.SYN_CX_CMD) (synWord 5 vid value))

/-- ENGINE_SIGNAL (R326). -/
def execEngineSignal (ch : ChId) (obj : Fin 65536) (ctx : CtxId) (op : SyncOp) (s : State) : Answer :=
  s.done (s.m.only (s.m.alive ch.val) fun m => m.engineOp ch.val obj.val ctx.val op)

/-- SYNC_WAIT_TIMEOUT (R327). -/
def execSyncWaitTimeout (ch : ChId) (obj : Fin 65536) (who : Nat) (s : State) : Answer :=
  s.done (s.m.only (s.m.alive ch.val) fun m => m.waitTimeout ch.val obj.val who)

/-- REMOTE_SIGNAL_ARRIVE (R335). -/
def execRemoteSignalArrive (msg : SignalMsg) (s : State) : Answer :=
  let sig := msg.sig
  s.done (s.m.only (s.m.fabOn msg.ch.val) fun m =>
    m.routeWay ⟨msg.ch, msg.p, msg.node, sig.dstCh, sig.srcNode, sig.srcCh⟩ sig.stream (.signal msg.node.val sig) fun m => m.signalIn sig)

/-- SIGNAL_HOLD_TIMEOUT (R336). -/
def execSignalHoldTimeout (ch : ChId) (obj : Fin 65536) (s : State) : Answer :=
  s.done (s.m.only (s.m.alive ch.val) fun m => m.holdTimeout ch.val obj.val)

/-- SIGNAL_RESEND_TIMER (R335). -/
def execSignalResendTimer (ch : ChId) (held : Nat) (s : State) : Answer :=
  s.done (s.m.only (s.m.fabOn ch.val) fun m => m.resendSig ch.val held)

end Sys2Proof.Machine
end

