-- ==== Sys2Proof/Machine/ExecFabric.lean ====
section
/-! DEFINITION. Meanings of the commands of the fabric and of time. -/

namespace Sys2Proof.Machine
open Sys2Proof

/-- Whether a stream's last message went to a node, so that its NOTREADY concerns it (R358). -/
def Dev.streamTo (s : Dev) (ch stream node : Nat) : Bool :=
  match (s.stream ch stream).last with
  | some l => decide (l.1 = node)
  | none => false

/-- A write of EVF_CTL (R346). -/
def execEvfCtlWrite (fn : Fn) (ch : ChId) (value : Word) (s : State) : Answer :=
  s.done (s.m.put fn (pageOff .evfCh ch.val 0 Off.EVF_CTL) value)

/-- PORT_SIGNAL_DETECT (R346). -/
def execPortSignalDetect (ch : ChId) (p : PortIx) (s : State) : Answer :=
  s.done (s.m.startTraining ch.val p.val)

/-- PORT_RETRY_TIMER (R346). -/
def execPortRetryTimer (ch : ChId) (p : PortIx) (s : State) : Answer :=
  s.done (s.m.startTraining ch.val p.val)

/-- PORT_TRAINING_DONE (R346). -/
def execPortTrainingDone (ch : ChId) (p : PortIx) (h : Hello) (s : State) : Answer :=
  s.done (s.m.only (s.m.fabOn ch.val) fun m => m.trained ch.val p.val h)

/-- PORT_TRAINING_FAIL (R346). -/
def execPortTrainingFail (ch : ChId) (p : PortIx) (s : State) : Answer :=
  s.done (s.m.only (s.m.fabOn ch.val) fun m => m.trainFail ch.val p.val)

/-- PORT_RETRAIN_TRIGGER (R346). -/
def execPortRetrainTrigger (ch : ChId) (p : PortIx) (why : RetrainWhy) (s : State) : Answer :=
  s.done (s.m.only (s.m.fabOn ch.val) fun m => m.retrain ch.val p.val why)

/-- FLIT_RECEIVE (R348). -/
def execFlitReceive (ch : ChId) (p : PortIx) (f : Flit) (s : State) : Answer :=
  s.done (s.m.only (s.m.fabOn ch.val) fun m => m.flitIn ch.val p.val f)

/-- FABRIC_WRITE_RECEIVE (R353, R354). -/
def execFabricWriteReceive (ch : ChId) (p : PortIx) (h : MsgHdr) (data : List Byte) (s : State) : Answer :=
  s.done (s.m.only (s.m.fabOn ch.val) fun m => m.writeIn ch.val p.val h data)

/-- FABRIC_READ_RECEIVE (R354). -/
def execFabricReadReceive (ch : ChId) (p : PortIx) (h : MsgHdr) (s : State) : Answer :=
  s.done (s.m.only (s.m.fabOn ch.val) fun m => m.readIn ch.val p.val h)

/-- READ_RESP_RECEIVE (R350). -/
def execReadRespReceive (link : ChPort) (h : MsgHdr) (data : List Byte) (s : State) : Answer :=
  s.done (s.m.only (s.m.fabOn link.ch.val) fun m => m.readRespIn link.ch.val link.p.val h data)

/-- READ_TIMEOUT (R354). -/
def execReadTimeout (ch : ChId) (tag : Nat) (s : State) : Answer :=
  s.done (s.m.only (s.m.fabOn ch.val) fun m => m.readTimeout ch.val tag)

/-- DIGEST_RECEIVE (R361). -/
def execDigestReceive (msg : DigestMsg) (s : State) : Answer :=
  let d := msg.digest
  s.done (s.m.only (s.m.fabOn msg.ch.val) fun m =>
    m.routeWay ⟨msg.ch, msg.p, msg.node, d.dstCh, d.srcNode, d.srcCh⟩ d.stream (.digest msg.node.val d) fun m => m.digestIn d)

/-- REPLY_RECEIVE (R354). -/
def execReplyReceive (w : MsgWay) (stream : Nat) (tag : Nat) (status : Byte) (s : State) : Answer :=
  s.done (s.m.only (s.m.fabOn w.ch.val) fun m =>
    m.routeWay w stream (.reply w.node.val w.dstCh.val stream tag status.toNat) fun m => m.replyIn w.ch.val stream tag status.toNat)

/-- COLL_FAIL_RECEIVE (R362). -/
def execCollFailReceive (w : MsgWay) (ctx : CtxId) (collId inst : Nat) (code : Byte) (s : State) : Answer :=
  s.done (s.m.only (s.m.fabOn w.ch.val) fun m =>
    m.routeWay w 0 (.collFail w.node.val w.dstCh.val ctx.val collId inst code.toNat) fun m => m.collFailIn w.ch.val ctx.val collId inst code.toNat)

/-- HELLO_RECEIVE (R346, R393). -/
def execHelloReceive (ch : ChId) (p : PortIx) (h : Hello) (s : State) : Answer :=
  s.done (s.m.only (s.m.fabOn ch.val) fun m => m.helloIn ch.val p.val h)

/-- ENUM_RECEIVE (R357). -/
def execEnumReceive (ch : ChId) (p : PortIx) (id : Nat) (s : State) : Answer :=
  s.done (s.m.only (s.m.fabOn ch.val) fun m => m.enumIn ch.val p.val id)

/-- ENUM_REPEAT_TIMER (R357). -/
def execEnumRepeatTimer (s : State) : Answer :=
  s.done (s.m.only (s.m.fabOn 0) fun m => m.enumTimer)

/-- ASSIGN_RECEIVE (R356). -/
def execAssignReceive (ch : ChId) (p : PortIx) (id : Fin 32768) (s : State) : Answer :=
  s.done (s.m.only (s.m.fabOn ch.val) fun m => m.assignIn ch.val p.val id.val)

/-- TIME_RECEIVE (R364). -/
def execTimeReceive (ch : ChId) (p : PortIx) (m : TimeMsg) (s : State) : Answer :=
  s.done (s.m.only (s.m.fabOn ch.val) fun d => d.timeIn ch.val p.val m)

/-- TIME_SEND_TIMER (R364). -/
def execTimeSendTimer (s : State) : Answer :=
  s.done (s.m.only s.m.vin fun m => m.timeSend)

/-- LINK_DELAY_MEASURE (R364). -/
def execLinkDelayMeasure (ch : ChId) (p : PortIx) (delay : Nat) (s : State) : Answer :=
  s.done (s.m.only (s.m.fabOn ch.val) fun m => m.linkDelay ch.val p.val delay)

/-- TIME_HOLDOVER_EXPIRE (R364). -/
def execTimeHoldoverExpire (s : State) : Answer :=
  s.done (s.m.only s.m.vin fun m => m.holdoverEnd)

/-- NOTREADY_RECEIVE; a module without an ID has sent nothing that it could concern (R358). -/
def execNotreadyReceive (dst : MsgDst) (stream : Nat) (src : NodeCh) (s : State) : Answer :=
  let w : MsgWay := ⟨dst.ch, dst.p, dst.node, dst.dstCh, src.node, src.ch⟩
  s.done (s.m.only (s.m.fabOn w.ch.val && s.m.node.isSome) fun m =>
    m.routeWay w stream (.notReady w.node.val w.dstCh.val stream) fun m =>
      m.only (m.streamTo w.ch.val stream w.srcNode.val) fun m => m.notReadyIn w.ch.val stream)

/-- NOTREADY_RESEND_TIMER (R358). -/
def execNotreadyResendTimer (ch : ChId) (stream : Nat) (s : State) : Answer :=
  s.done (s.m.only (s.m.fabOn ch.val) fun m => m.notReadyTimer ch.val stream)

/-- STREAM_IDLE_EXPIRE (R352). -/
def execStreamIdleExpire (ch : ChId) (stream : Nat) (s : State) : Answer :=
  s.done (s.m.only (s.m.fabOn ch.val) fun m => m.streamIdle ch.val stream)

/-- PLANK_IN_EDGE (R366). -/
def execPlankInEdge (offset : Int) (s : State) : Answer :=
  s.done (s.m.only s.m.vin fun m => m.plankIn offset)

/-- A write of EVF_NODE (R356). -/
def execEvfNodeWrite (fn : Fn) (value : Word) (s : State) : Answer :=
  s.done (s.m.put fn (pageOff .evfMod 0 0 Off.EVF_NODE) value)

/-- A write of EVF_ENUM (R357). -/
def execEvfEnumWrite (fn : Fn) (value : Word) (s : State) : Answer :=
  s.done (s.m.put fn (pageOff .evfMod 0 0 Off.EVF_ENUM) value)

/-- A write of EVF_TIME_CTL (R363). -/
def execEvfTimeCtlWrite (fn : Fn) (value : Word) (s : State) : Answer :=
  s.done (s.m.put fn (pageOff .evfMod 0 0 Off.EVF_TIME_CTL) value)

/-- A write of EVF_RT_DATA (R370). -/
def execEvfRtDataWrite (fn : Fn) (ch : ChId) (value : Word) (s : State) : Answer :=
  s.done (s.m.put fn (pageOff .evfCh ch.val 0 Off.EVF_RT_DATA) value)

end Sys2Proof.Machine
end

