-- ==== Sys2Proof/Machine/ExecFault.lean ====
section
/-! DEFINITION. Meanings of the commands of faults and recovery. -/

namespace Sys2Proof.Machine
open Sys2Proof

/-- What a condition leaves beside its source: a failed store table (R418), a monitor converter that stalls (R424). -/
def Dev.conditionMet (s : Dev) (ch ix : Nat) (at_ : FltAt) : Dev :=
  if ix = 87 then s.storeFails ch at_
  else if ix = 79 then (match fltCluster ch at_ with | some cl => s.monChSta cl 0 true | none => s)
  else s

/-- A raise as hardware makes it. A channel's sources need its supply, but for those of the management side; RING_XLATE with an entry ends
that sequence as well (R246, R371, R375). -/
def Dev.sourceRaise (s : Dev) (src : FaultSrc) (at_ : FltAt) : Dev :=
  match src with
  | .hub n => if s.vin then s.hubRaise n.val else s
  | .chan ch ix =>
    if !s.aux ∨ (!s.vin ∧ ix.val < 90) then s
    else
      let s := ((s.conditionMet ch.val ix.val at_).raiseAt ch.val ix.val false at_ []).baseCheck ch.val
      match at_ with
      | .entry e => if ix.val = 44 then s.ringLost (ch.val * 512 + e.val) else s
      | _ => s

/-- HUB_LINK_FAIL (R10, R450). -/
def execHubLinkFail (ch : ChId) (s : State) : Answer :=
  s.done (s.m.only s.m.vin fun m => (m.modChan ch.val fun c => { c with linkUp := false }).hubRaise 2)

/-- FAULT_SOURCE_RAISE (R373, R375, R246). -/
def execFaultSourceRaise (src : FaultSrc) (at_ : FltAt) (s : State) : Answer :=
  s.done (s.m.sourceRaise src at_)

/-- PARITY_ERROR (R392). -/
def execParityError (at_ : ParityAt) (s : State) : Answer :=
  s.done (s.m.only s.m.aux fun m => m.parityError at_)

/-- A write of PG_FRC (R374). -/
def execPgFrcWrite (fn : Fn) (page : Nat) (mask : Word) (s : State) : Answer :=
  s.done (s.m.put fn (page + Off.PG_FRC) mask)

/-- A write of PG_FLT (R372). -/
def execPgFltClear (fn : Fn) (page : Nat) (mask : Word) (s : State) : Answer :=
  s.done (s.m.put fn (page + Off.PG_FLT) mask)

/-- A write of PG_SEV0 or PG_SEV1 (R374, R440). -/
def execPgSevWrite (fn : Fn) (page : Nat) (second : Bool) (value : Word) (s : State) : Answer :=
  s.done (s.m.put fn (page + (if second then Off.PG_SEV1 else Off.PG_SEV0)) value)

/-- QUIET_PERIOD_EXPIRE (R381). -/
def execQuietPeriodExpire (ch : ChId) (s : State) : Answer :=
  s.done (s.m.quietExpire ch.val)

/-- FLT_CMD CONTAIN (R396). -/
def execFltCmdContain (fn : Fn) (ch : ChId) (s : State) : Answer :=
  s.done (s.m.put fn (pageOff .fltCh ch.val 0 Off.FLT_CMD) 1)

/-- FLT_CMD HALT (R396). -/
def execFltCmdHalt (fn : Fn) (ch : ChId) (s : State) : Answer :=
  s.done (s.m.put fn (pageOff .fltCh ch.val 0 Off.FLT_CMD) 2)

/-- HUB_GROUP_COMPLETE (R385). -/
def execHubGroupComplete (ch : ChId) (s : State) : Answer :=
  s.done (s.m.groupComplete ch.val)

/-- A write of FLT_DLV_SEL (R397). -/
def execFltDlvSelWrite (fn : Fn) (value : Word) (s : State) : Answer :=
  s.done (s.m.put fn (pageOff .fltMod 0 0 Off.FLT_DLV_SEL) value)

end Sys2Proof.Machine
end

