-- ==== Sys2Proof/Machine/ExecHost.lean ====
section
/-! DEFINITION. Meanings of the commands of the host port. -/

namespace Sys2Proof.Machine
open Sys2Proof

/-- A configuration request of a function (R472). -/
def Dev.configOf (s : Dev) (fn : Fn) : Dev :=
  match fn with
  | .mgt => s
  | _ => s.configReq (fnIx fn)

/-- An access outside its function's grant: a read gives 0, a write is ignored; either is counted and raised (R436). An access that the
grant covers has no such effect. -/
def Dev.denied (s : Dev) (fn : Fn) (a : Nat) (write : Bool) : Dev :=
  if fn = .mgt ∨ !s.fnOn fn then s
  else if s.refuses fn a write then
    if write then s.deny else s.deny.emit (.readData (fnIx fn) a (toBytes 4 0))
  else s

/-- HOST_LINK_TRAINED (R430). -/
def execHostLinkTrained (rate : LinkRate) (width : Fin 17) (flit : Bool) (s : State) : Answer :=
  s.done (s.m.linkTrained rate.val width.val flit)

/-- FUNCTION_LEVEL_RESET (R449). -/
def execFunctionLevelReset (ctx : CtxId) (s : State) : Answer :=
  s.done (s.m.only s.m.vin fun m => m.flr ctx.val)

/-- VF_ENABLE (R447, R472). -/
def execVfEnable (numVfs : Fin 64) (s : State) : Answer :=
  s.done (s.m.only s.m.vin fun m => m.vfEnable numVfs.val)

/-- VF_DISABLE (R449). -/
def execVfDisable (numVfs : Fin 64) (s : State) : Answer :=
  s.done (s.m.only s.m.vin fun m => m.vfDisable numVfs.val)

/-- FUNCTION_D3HOT (R432). -/
def execFunctionD3hot (ctx : CtxId) (d3 : Bool) (s : State) : Answer :=
  s.done (s.m.only s.m.vin fun m => m.d3hot ctx.val d3)

/-- CONFIG_REQUEST (R472). -/
def execConfigRequest (fn : Fn) (s : State) : Answer :=
  s.done (s.m.configOf fn)

/-- HUB_CX_CMD CREATE (R448). -/
def execHubCxCreate (fn : Fn) (ctx : CtxId) (s : State) : Answer :=
  s.done (s.m.put fn (cxOff .hubCx ctx.val Off.HUB_CX_CMD) 1)

/-- HUB_CX_CMD DESTROY (R449). -/
def execHubCxDestroy (fn : Fn) (ctx : CtxId) (s : State) : Answer :=
  s.done (s.m.put fn (cxOff .hubCx ctx.val Off.HUB_CX_CMD) 2)

/-- CREATE_DONE (R448). -/
def execCreateDone (ctx : CtxId) (s : State) : Answer :=
  s.done (s.m.only s.m.vin fun m => m.createDone ctx.val)

/-- CONTEXT_CLEANING_DONE (R449). -/
def execContextCleaningDone (ctx : CtxId) (s : State) : Answer :=
  s.done (s.m.only s.m.vin fun m => m.cleaningDone ctx.val)

/-- BAR2_ACCESS (R444 to R446). -/
def execBar2Access (fn : Fn) (off : Nat) (op : Bar2Op) (s : State) : Answer :=
  s.done (s.m.bar2 fn off op)

/-- A write of HUB_AP (R444). -/
def execHubApWrite (fn : Fn) (a : Fin 16) (value : Word) (s : State) : Answer :=
  s.done (s.m.put fn (pageOff .hub 0 0 (Off.HUB_AP + 4 * a.val)) value)

/-- ACCESS_DENY (R436). -/
def execAccessDeny (fn : Fn) (off : Nat) (write : Bool) (s : State) : Answer :=
  s.done (s.m.denied fn off write)

/-- COUNTER_LO_READ (R438). -/
def execCounterLoRead (fn : Fn) (off : Nat) (s : State) : Answer :=
  s.done (s.m.readWord fn off)

/-- A write of PG_CTL, which with CNT_CLR clears the counters of the page (R439). -/
def execCntClr (fn : Fn) (page : Nat) (value : Word) (s : State) : Answer :=
  s.done (s.m.put fn (page + Off.PG_CTL) value)

/-- REGISTER_WRITE (R435, R438). -/
def execRegisterWrite (fn : Fn) (off : Nat) (size : Fin 4) (value : Word64) (s : State) : Answer :=
  s.done (s.m.sizedWrite fn off (2 ^ size.val) value.toNat)

end Sys2Proof.Machine
end

