-- ==== Sys2Proof/Machine/ExecLoad.lean ====
section
/-! DEFINITION. Meanings of the commands of loading, adapters and placement. -/

namespace Sys2Proof.Machine
open Sys2Proof

/-- Offset of a load register's word. -/
def ldrRegOff : LdrReg → Nat
  | .nextLo => Off.LDR_NEXT | .nextHi => Off.LDR_NEXT + 4 | .sizeLo => Off.LDR_SIZE | .sizeHi => Off.LDR_SIZE + 4
  | .progLo => Off.LDR_PROG | .progHi => Off.LDR_PROG + 4 | .rcmpLo => Off.LDR_RCMP | .rcmpHi => Off.LDR_RCMP + 4

/-- LDR_CMD LOAD (R255, R257). -/
def execLdrLoad (fn : Fn) (ctx : CtxId) (s : State) : Answer :=
  s.done (s.m.put fn (cxOff .ldrCx ctx.val Off.LDR_CMD) 1)

/-- LDR_CMD SWAP (R255, R266). -/
def execLdrSwap (fn : Fn) (ctx : CtxId) (s : State) : Answer :=
  s.done (s.m.put fn (cxOff .ldrCx ctx.val Off.LDR_CMD) 2)

/-- LDR_CMD ABORT (R255, R258). -/
def execLdrAbort (fn : Fn) (ctx : CtxId) (s : State) : Answer :=
  s.done (s.m.put fn (cxOff .ldrCx ctx.val Off.LDR_CMD) 3)

/-- LDR_CMD GO (R255, R267). -/
def execLdrGo (fn : Fn) (ctx : CtxId) (s : State) : Answer :=
  s.done (s.m.put fn (cxOff .ldrCx ctx.val Off.LDR_CMD) 5)

/-- LDR_CMD UNLOAD (R255, R281). -/
def execLdrUnload (fn : Fn) (ctx : CtxId) (s : State) : Answer :=
  s.done (s.m.put fn (cxOff .ldrCx ctx.val Off.LDR_CMD) 4)

/-- A write of a load register (R256). -/
def execLdrConfigWrite (fn : Fn) (ctx : CtxId) (reg : LdrReg) (value : Word) (s : State) : Answer :=
  s.done (s.m.put fn (cxOff .ldrCx ctx.val (ldrRegOff reg)) value)

/-- LOAD_FETCH_DONE (R257). -/
def execLoadFetchDone (ctx : CtxId) (host : HostView) (s : State) : Answer :=
  s.done (s.m.only s.m.vin fun m => m.fetchDone ctx.val host)

/-- LOAD_CHECK_DONE (R258). -/
def execLoadCheckDone (ctx : CtxId) (s : State) : Answer :=
  s.done (s.m.only s.m.vin fun m => m.checkDone ctx.val)

/-- LOAD_COPY_DONE (R257). -/
def execLoadCopyDone (ctx : CtxId) (host : HostView) (xferOk : Bool) (s : State) : Answer :=
  s.done (s.m.only (s.m.loadMoves ctx.val) fun m => m.copyDone ctx.val host xferOk)

/-- LOAD_PROGRAM_DONE (R257). -/
def execLoadProgramDone (ctx : CtxId) (s : State) : Answer :=
  s.done (s.m.only (s.m.loadMoves ctx.val) fun m => m.programDone ctx.val)

/-- UNLOAD_COMPLETE (R281). -/
def execUnloadComplete (ctx : CtxId) (s : State) : Answer :=
  s.done (s.m.only s.m.vin fun m => m.unloadDone ctx.val)

/-- ADP_CMD LOAD (R273). -/
def execAdpLoad (fn : Fn) (ctx : CtxId) (slot : Fin 64) (s : State) : Answer :=
  s.done (s.m.put fn (cxOff .adpCx ctx.val Off.ADP_CMD) (BitVec.ofNat 32 (slot.val + 256)))

/-- ADP_CMD COMMIT (R273). -/
def execAdpCommit (fn : Fn) (ctx : CtxId) (slot : Fin 64) (s : State) : Answer :=
  s.done (s.m.put fn (cxOff .adpCx ctx.val Off.ADP_CMD) (BitVec.ofNat 32 (slot.val + 512)))

/-- ADP_CMD UNLOAD (R273). -/
def execAdpUnload (fn : Fn) (ctx : CtxId) (slot : Fin 64) (s : State) : Answer :=
  s.done (s.m.put fn (cxOff .adpCx ctx.val Off.ADP_CMD) (BitVec.ofNat 32 (slot.val + 768)))

/-- ADAPTER_LOAD_DONE (R272). -/
def execAdapterLoadDone (ctx : CtxId) (slot : Fin 64) (host : HostView) (s : State) : Answer :=
  s.done (s.m.only (s.m.loadMoves ctx.val) fun m => m.adpLoaded ctx.val slot.val host)

/-- PLC_CX_SNAP_CMD GO (R296). -/
def execPlcCxSnapGo (fn : Fn) (ctx : CtxId) (s : State) : Answer :=
  s.done (s.m.put fn (cxOff .plcCx ctx.val Off.PLC_CX_SNAP_CMD) 1)

/-- A write of PLC_CH_CTL (R298). -/
def execPlcChCtlWrite (fn : Fn) (ch : ChId) (value : Word) (s : State) : Answer :=
  s.done (s.m.put fn (pageOff .plcCh ch.val 0 Off.PLC_CH_CTL) value)

end Sys2Proof.Machine
end

