-- ==== Sys2Proof/Machine/ExecMgmt.lean ====
section
/-! DEFINITION. Meanings of the commands of management, security, the event recorder and the Pemor monitor. -/

namespace Sys2Proof.Machine
open Sys2Proof

/-- ENTDAA (R482, R484). -/
def execEntdaa (tgt : MgtIx) (addr : BitVec 7) (s : State) : Answer :=
  s.done (s.m.entdaa tgt.val addr.toNat)

/-- SETNEWDA (R484). -/
def execSetnewda (tgt : MgtIx) (addr : BitVec 7) (s : State) : Answer :=
  s.done (s.m.setNewDa tgt.val addr.toNat)

/-- RSTDAA (R484). -/
def execRstdaa (s : State) : Answer :=
  s.done s.m.rstDaa

/-- ENEC (R484, R486). -/
def execEnec (tgt : Option MgtIx) (s : State) : Answer :=
  s.done (s.m.enecCmd (tgt.map (·.val)))

/-- DISEC (R484). -/
def execDisec (tgt : Option MgtIx) (s : State) : Answer :=
  s.done (s.m.disecCmd (tgt.map (·.val)))

/-- GETPID (R482, R484). -/
def execGetpid (tgt : MgtIx) (s : State) : Answer :=
  s.done (s.m.cccRead tgt.val (bigBytes 6 (s.m.pid tgt.val)))

/-- GETBCR (R482). -/
def execGetbcr (tgt : MgtIx) (s : State) : Answer :=
  s.done (s.m.cccRead tgt.val [0x0E#8])

/-- GETDCR (R482). -/
def execGetdcr (tgt : MgtIx) (s : State) : Answer :=
  s.done (s.m.cccRead tgt.val [0x00#8])

/-- GETSTATUS (R484). -/
def execGetstatus (tgt : MgtIx) (s : State) : Answer :=
  s.done (s.m.getStatusCmd tgt.val)

/-- SETMWL (R484). -/
def execSetmwl (tgt : Option MgtIx) (n : BitVec 16) (s : State) : Answer :=
  s.done (s.m.setMwlCmd (tgt.map (·.val)) n.toNat)

/-- GETMWL (R484). -/
def execGetmwl (tgt : MgtIx) (s : State) : Answer :=
  s.done (s.m.cccRead tgt.val (bigBytes 2 (s.m.mgt tgt.val).mwl))

/-- SETMRL (R484). -/
def execSetmrl (tgt : Option MgtIx) (n : BitVec 16) (ibi : Option Byte) (s : State) : Answer :=
  s.done (s.m.setMrlCmd (tgt.map (·.val)) n.toNat (ibi.map (·.toNat)))

/-- GETMRL (R484). -/
def execGetmrl (tgt : MgtIx) (s : State) : Answer :=
  s.done (s.m.cccRead tgt.val (bigBytes 2 (s.m.mgt tgt.val).mrl ++ [BitVec.ofNat 8 (s.m.mgt tgt.val).ibiMax]))

/-- IBI_RETRY (R486). -/
def execIbiRetry (tgt : MgtIx) (accepted : Bool) (s : State) : Answer :=
  s.done (s.m.ibiAgain tgt.val accepted)

/-- MGT_RESPONSE_READ (R488). -/
def execMgtResponseRead (tgt : MgtIx) (s : State) : Answer :=
  s.done (s.m.respRead tgt.val)

/-- MGT_REQUEST_INVALID (R488). -/
def execMgtRequestInvalid (tgt : MgtIx) (_opcode tag : Byte) (crcOk lenOk : Bool) (s : State) : Answer :=
  s.done (s.m.badRequest tgt.val tag.toNat (crcOk && lenOk))

/-- GET_INFO (R489). -/
def execGetInfo (tgt : MgtIx) (tag : Byte) (s : State) : Answer :=
  s.done (s.m.request tgt.val tag.toNat 0 true fun m => (m, Code.OK, m.infoOf tgt.val))

/-- READ_REG (R490). -/
def execReadReg (tgt : MgtIx) (tag : Byte) (off : Nat) (words : Nat) (s : State) : Answer :=
  s.done (s.m.request tgt.val tag.toNat 5 false fun m => m.readRegs 1 tgt.val off words)

/-- WRITE_REG (R490). -/
def execWriteReg (tgt : MgtIx) (tag : Byte) (off : Nat) (words : List Word) (s : State) : Answer :=
  s.done (s.m.request tgt.val tag.toNat (4 + 4 * words.length) false fun m => m.writeRegs 1 tgt.val off words)

/-- SET_TIME (R489). -/
def execSetTime (tgt : MgtIx) (tag : Byte) (ms : Word64) (s : State) : Answer :=
  s.done (s.m.request tgt.val tag.toNat 8 true fun m => (m.setTimeCmd tgt.val ms.toNat, Code.OK, []))

/-- GET_TIME (R489). -/
def execGetTime (tgt : MgtIx) (tag : Byte) (s : State) : Answer :=
  s.done (s.m.request tgt.val tag.toNat 0 true fun m => (m, Code.OK, toBytes 8 (m.calendar tgt.val) ++ toBytes 1 (m.mgt tgt.val).tset.toNat))

/-- EVR_READ (R506). -/
def execEvrRead (tgt : MgtIx) (tag : Byte) (first : Nat) (count : Nat) (s : State) : Answer :=
  s.done (s.m.request tgt.val tag.toNat 7 true fun m => m.readEvr tgt.val first count)

/-- EVR_CLEAR (R507). -/
def execEvrClear (tgt : MgtIx) (tag : Byte) (s : State) : Answer :=
  s.done (s.m.request tgt.val tag.toNat 0 false fun m => m.clearEvr tgt.val)

/-- ATTEST (R499). -/
def execAttest (tgt : MgtIx) (tag : Byte) (nonce : List Byte) (s : State) : Answer :=
  s.done (s.m.request tgt.val tag.toNat nonce.length false fun m => m.attestCmd tgt.val nonce)

/-- GET_CERT (R498). -/
def execGetCert (tgt : MgtIx) (tag : Byte) (index : Byte) (off : Nat) (s : State) : Answer :=
  s.done (s.m.request tgt.val tag.toNat 3 true fun m => m.certOf tgt.val index.toNat off)

/-- FW_STAGE (R495). -/
def execFwStage (tgt : MgtIx) (tag : Byte) (kind : Byte) (off : Nat) (chunk : List Byte) (s : State) : Answer :=
  s.done (s.m.request tgt.val tag.toNat (5 + chunk.length) true fun m => m.stageChunk tgt.val kind.toNat off chunk)

/-- FW_ACTIVATE (R495). -/
def execFwActivate (tgt : MgtIx) (tag : Byte) (kind : Byte) (s : State) : Answer :=
  s.done (s.m.request tgt.val tag.toNat 1 true fun m => m.activateCmd tgt.val kind.toNat)

/-- SVN_COMMIT (R497). -/
def execSvnCommit (tgt : MgtIx) (tag : Byte) (kind : Byte) (s : State) : Answer :=
  s.done (s.m.request tgt.val tag.toNat 1 false fun m => m.commitCmd tgt.val kind.toNat)

/-- SERVICE_OUT (R491). -/
def execServiceOut (tgt : MgtIx) (tag : Byte) (s : State) : Answer :=
  s.done (s.m.request tgt.val tag.toNat 0 false fun m => m.serviceOutCmd tgt.val)

/-- MGT_RESTART (R492). -/
def execMgtRestart (tgt : MgtIx) (tag : Byte) (s : State) : Answer :=
  s.done (s.m.request tgt.val tag.toNat 0 true fun m => (m.restartCmd tgt.val, Code.OK, []))

/-- GET_EVENTS (R486). -/
def execGetEvents (tgt : MgtIx) (tag : Byte) (s : State) : Answer :=
  s.done (s.m.request tgt.val tag.toNat 0 true fun m => m.eventsCmd tgt.val)

/-- SEC_FW_CMD STAGE (R515). -/
def execSecFwStage (fn : Fn) (value : Word) (host : HostView) (s : State) : Answer :=
  s.done (s.m.writeWord fn (pageOff .secMod 0 0 Off.SEC_FW_CMD) (setFld value 11 10 1) ⟨host, []⟩)

/-- SEC_FW_CMD ACTIVATE (R515). -/
def execSecFwActivate (fn : Fn) (value : Word) (s : State) : Answer :=
  s.done (s.m.put fn (pageOff .secMod 0 0 Off.SEC_FW_CMD) (setFld value 11 10 2))

/-- EVR_NV_WRITE (R501). -/
def execEvrNvWrite (ch : ChId) (ok : Bool) (s : State) : Answer :=
  s.done (s.m.nvWrite ch.val ok)

/-- EVR_TOKEN_REFILL (R504). -/
def execEvrTokenRefill (ch : ChId) (code : BitVec 16) (s : State) : Answer :=
  s.done (s.m.only s.m.aux fun m => m.tokenRefill ch.val code.toNat)

/-- A write of EVR_CUR (R506). -/
def execEvrCurWrite (fn : Fn) (ch : ChId) (hi : Bool) (value : Word) (s : State) : Answer :=
  s.done (s.m.put fn (pageOff .evrCh ch.val 0 (Off.EVR_CUR + (if hi then 4 else 0))) value)

/-- id (R510). -/
def execPemorId (ch : ChId) (s : State) : Answer :=
  s.done (s.m.pemId ch.val)

/-- unlock (R510). -/
def execPemorUnlock (ch : ChId) (level : PemorLevel) (s : State) : Answer :=
  s.done (s.m.pemUnlock ch.val level)

/-- resp (R510). -/
def execPemorResp (ch : ChId) (sig : List Byte) (s : State) : Answer :=
  s.done (s.m.pemResp ch.val sig)

/-- lock (R509). -/
def execPemorLock (ch : ChId) (s : State) : Answer :=
  s.done (s.m.pemLock ch.val)

/-- status (R510). -/
def execPemorStatus (ch : ChId) (s : State) : Answer :=
  s.done (s.m.pemStatus ch.val)

/-- rd (R510). -/
def execPemorRd (ch : ChId) (off n : Nat) (s : State) : Answer :=
  s.done (s.m.pemRead ch.val off n)

/-- evr (R506, R510). -/
def execPemorEvr (ch : ChId) (seq : Option Nat) (n : Option Nat) (s : State) : Answer :=
  s.done (s.m.pemEvr ch.val seq n)

/-- mon (R510). -/
def execPemorMon (ch : ChId) (cl : ClId) (s : State) : Answer :=
  s.done (s.m.pemMon ch.val cl.val)

/-- baud (R510). -/
def execPemorBaud (ch : ChId) (rate : Nat) (s : State) : Answer :=
  s.done (s.m.pemBaud ch.val rate)

/-- wr (R510). -/
def execPemorWr (ch : ChId) (off : Nat) (value : Word) (s : State) : Answer :=
  s.done (s.m.pemWrite ch.val off value)

/-- force (R510). -/
def execPemorForce (ch : ChId) (ix : Fin 96) (s : State) : Answer :=
  s.done (s.m.pemForce ch.val ix.val)

/-- mem (R510). -/
def execPemorMem (ch : ChId) (addr : Word64) (n : Nat) (s : State) : Answer :=
  s.done (s.m.pemMem ch.val addr.toNat n)

/-- jtag open (R510). -/
def execPemorJtagOpen (ch : ChId) (s : State) : Answer :=
  s.done (s.m.jtagOpen ch.val)

/-- jtag close (R510). -/
def execPemorJtagClose (ch : ChId) (s : State) : Answer :=
  s.done (s.m.jtagClose ch.val)

/-- PEMOR_IDLE_TIMEOUT (R509). -/
def execPemorIdleTimeout (ch : ChId) (s : State) : Answer :=
  s.done (s.m.pemIdle ch.val)

/-- PEMOR_NONCE_EXPIRE (R510). -/
def execPemorNonceExpire (ch : ChId) (s : State) : Answer :=
  s.done (s.m.nonceExpire ch.val)

/-- UNLOCK_LOCKOUT_END (R510). -/
def execUnlockLockoutEnd (ch : ChId) (s : State) : Answer :=
  s.done (s.m.lockoutEnd ch.val)

end Sys2Proof.Machine
end

