-- ==== Sys2Proof/Machine/ExecPower.lean ====
section
/-! DEFINITION. Meanings of the commands of power, resets and the start. -/

namespace Sys2Proof.Machine
open Sys2Proof

/-- POWER_ON_RESET (R462). -/
def execPowerOnReset (slotId : BitVec 6) (s : State) : Answer :=
  s.done (s.m.powerOn slotId)

/-- MGT_FW_VERIFY_DONE (R470). -/
def execMgtFwVerifyDone (tgt : MgtIx) (s : State) : Answer :=
  s.done (s.m.mgtVerified tgt.val)

/-- VIN_START (R453). -/
def execVinStart (s : State) : Answer :=
  s.done s.m.vinOn

/-- POWER_FAILURE (R454). -/
def execPowerFailure (s : State) : Answer :=
  s.done s.m.powerFail

/-- PERST_N_ASSERT (R465). -/
def execPerstNAssert (s : State) : Answer :=
  s.done s.m.perstAssert

/-- PERST_N_RELEASE (R465). -/
def execPerstNRelease (s : State) : Answer :=
  s.done s.m.perstRelease

/-- HUB_CONFIG_READY (R472). -/
def execHubConfigReady (s : State) : Answer :=
  s.done s.m.hubConfigReady

/-- CHANNEL_READY_SET (R474). -/
def execChannelReadySet (ch : ChId) (s : State) : Answer :=
  s.done (s.m.readySet ch.val)

/-- T2_ZEROING_DONE (R475). -/
def execT2ZeroingDone (ch : ChId) (s : State) : Answer :=
  s.done (s.m.t2Zeroed ch.val)

/-- INIT_LIMIT_EXPIRE (R476). -/
def execInitLimitExpire (ch : ChId) (w : InitWait) (s : State) : Answer :=
  s.done (s.m.initLimit ch.val w)

/-- PWR_CH_CMD C2 (R458). -/
def execPwrChCmdC2 (fn : Fn) (ch : ChId) (s : State) : Answer :=
  s.done (s.m.put fn (pageOff .pwrCh ch.val 0 Off.PWR_CH_CMD) 1)

/-- PWR_CH_CMD C0 (R459). -/
def execPwrChCmdC0 (fn : Fn) (ch : ChId) (drifted : List (Nat × Nat)) (s : State) : Answer :=
  s.done (s.m.writeWord fn (pageOff .pwrCh ch.val 0 Off.PWR_CH_CMD) 2 ⟨[], drifted⟩)

/-- PWR_CH_CMD CHANNEL_RESET (R463). -/
def execChannelReset (fn : Fn) (ch : ChId) (s : State) : Answer :=
  s.done (s.m.put fn (pageOff .pwrCh ch.val 0 Off.PWR_CH_CMD) 3)

/-- PWR_CH_CMD HALTED_RESET (R464). -/
def execHaltedReset (fn : Fn) (ch : ChId) (drifted : List (Nat × Nat)) (s : State) : Answer :=
  s.done (s.m.writeWord fn (pageOff .pwrCh ch.val 0 Off.PWR_CH_CMD) 4 ⟨[], drifted⟩)

/-- PWR_MOD_CMD M0 (R460). -/
def execPwrModCmdM0 (fn : Fn) (drifted : List (Nat × Nat)) (s : State) : Answer :=
  s.done (s.m.writeWord fn (pageOff .pwrMod 0 0 Off.PWR_MOD_CMD) 0 ⟨[], drifted⟩)

/-- PWR_MOD_CMD M2 (R460). -/
def execPwrModCmdM2 (fn : Fn) (s : State) : Answer :=
  s.done (s.m.put fn (pageOff .pwrMod 0 0 Off.PWR_MOD_CMD) 2)

/-- PWR_MOD_CMD M3 (R461). -/
def execPwrModCmdM3 (fn : Fn) (s : State) : Answer :=
  s.done (s.m.put fn (pageOff .pwrMod 0 0 Off.PWR_MOD_CMD) 3)

/-- THERMTRIP_VIN_TIMEOUT (R524). -/
def execThermtripVinTimeout (s : State) : Answer :=
  s.done s.m.thermtripTimeout

/-- VAUX_LOSS (R454, R469). -/
def execVauxLoss (s : State) : Answer :=
  s.done s.m.vauxLoss

end Sys2Proof.Machine
end

