-- ==== Sys2Proof/Machine/ExecSense.lean ====
section
/-! DEFINITION. Meanings of the commands of monitoring, thermal protection and calibration. -/

namespace Sys2Proof.Machine
open Sys2Proof

/-- MON_CONVERSION_END (R398 to R403). -/
def execMonConversionEnd (c : ClusterRef) (code : BitVec 24) (overload : Bool) (s : State) : Answer :=
  s.done (s.m.only (s.m.alive c.ch.val) fun m => m.monEnd c.ix code overload)

/-- FAST_METER_SAMPLE (R404, R479), in mA and mV. -/
def execFastMeterSample (x : MeterAt) (amps volts : Nat) (s : State) : Answer :=
  s.done (s.m.only s.m.vin fun m => m.meterSample x amps volts)

/-- INLET_TEMP_READ (R405). -/
def execInletTempRead (t : Option (BitVec 16)) (s : State) : Answer :=
  s.done (s.m.only s.m.vin fun m => m.inletRead t)

/-- THERMAL_OFFSET_UPDATE (R406). -/
def execThermalOffsetUpdate (c : ClusterRef) (s : State) : Answer :=
  s.done (s.m.only (s.m.alive c.ch.val) fun m => m.offsetUpdate c.ix)

/-- THROTTLE_GRACE_EXPIRE (R411). -/
def execThrottleGraceExpire (c : ClusterRef) (s : State) : Answer :=
  s.done (s.m.only (s.m.alive c.ch.val) fun m => m.graceEnd c.ix)

/-- THROTTLE_TIGHTEN (R412). -/
def execThrottleTighten (c : ClusterRef) (s : State) : Answer :=
  s.done (s.m.only (s.m.alive c.ch.val) fun m => m.tighten c.ix)

/-- CLOCK_SLOW_STEP (R413). -/
def execClockSlowStep (c : ClusterRef) (s : State) : Answer :=
  s.done (s.m.only (s.m.alive c.ch.val) fun m => m.clockStep c.ix)

/-- ORDERLY_STOP_COMPLETE (R415). -/
def execOrderlyStopComplete (ch : ChId) (s : State) : Answer :=
  s.done (s.m.only (s.m.alive ch.val) fun m => m.orderlyDone ch.val)

/-- DIODE_COMPARATOR_TRIP: a hard stop of the channel that holds the diode (R416). -/
def execDiodeComparatorTrip (c : ClusterRef) (_d : Fin 4) (s : State) : Answer :=
  s.done (s.m.only s.m.vin fun m => m.hardStop c.ch.val)

/-- A write of THM_LIM (R409). -/
def execThmLimWrite (fn : Fn) (ch : ChId) (value : Word) (s : State) : Answer :=
  s.done (s.m.put fn (pageOff .thmCh ch.val 0 Off.THM_LIM) value)

/-- BLOCKING_RUN_DONE (R422). -/
def execBlockingRunDone (core : CoreRef) (cals : List TileCal) (s : State) : Answer :=
  s.done (s.m.only (s.m.programs core.ch.val) fun m => m.runDone core cals)

/-- BKG_LATE_EXPIRE (R420). -/
def execBkgLateExpire (core : CoreRef) (s : State) : Answer :=
  s.done (s.m.only (s.m.running core.ch.val) fun m => m.runLate core)

/-- BKG_CMD RUN (R429). -/
def execBkgCmdRun (fn : Fn) (core : CoreRef) (s : State) : Answer :=
  s.done (s.m.put fn (pageOff .bkgCh core.ch.val 0 Off.BKG_CMD) (BitVec.ofNat 32 (core.cl.val + core.co.val * 8 + 64)))

/-- A write of ARR_TCMD (R64). -/
def execArrTcmd (fn : Fn) (core : CoreRef) (value : Word) (s : State) : Answer :=
  s.done (s.m.put fn (pageOff .arr core.ch.val (core.cl.val * 8 + core.co.val) Off.ARR_TCMD) value)

end Sys2Proof.Machine
end

