-- ==== Sys2Proof/Machine/ExecServe.lean ====
section
/-! DEFINITION. Meanings of the plank boundary and of the commands of state memory, the request table and serving. -/

namespace Sys2Proof.Machine
open Sys2Proof

/-- PLANK_BOUNDARY (R16). -/
def execPlankBoundary (env : BoundaryEnv) (s : State) : Answer :=
  s.done (s.m.boundary env)

/-- KVP_HOLD_EXPIRE (R199). -/
def execKvpHoldExpire (r : SeqRef) (s : State) : Answer :=
  s.done (s.m.only (s.m.serves r.ch.val) fun m => m.holdExpired r.ix)

/-- PAGE_MOVE_DONE (R196). -/
def execPageMoveDone (r : SeqRef) (layer page : Nat) (ok : Bool) (s : State) : Answer :=
  s.done (s.m.only (s.m.serves r.ch.val) fun m => m.moveDone r.ix layer page ok)

/-- CHECKPOINT_VALID (R209). -/
def execCheckpointValid (r : SeqRef) (s : State) : Answer :=
  s.done (s.m.only (s.m.serves r.ch.val) fun m => m.ckptValid r.ix)

/-- HOOD_COPY_DONE (R210). -/
def execHoodCopyDone (r : SeqRef) (s : State) : Answer :=
  s.done (s.m.only (s.m.serves r.ch.val) fun m => m.hoodCopied r.ix)

/-- HOOD_EXPIRE (R211, R212). -/
def execHoodExpire (r : SeqRef) (s : State) : Answer :=
  s.done (s.m.only (s.m.serves r.ch.val) fun m => m.hoodPast r.ix m.periodNs)

/-- HOOD_RESTORE_DONE (R212). -/
def execHoodRestoreDone (r : SeqRef) (host : HostView) (logOk : Bool) (s : State) : Answer :=
  s.done (s.m.only (s.m.serves r.ch.val) fun m => m.restoreDone r.ix host logOk)

/-- RESTORE_WAIT_EXPIRE (R212). -/
def execRestoreWaitExpire (r : SeqRef) (s : State) : Answer :=
  s.done (s.m.only (s.m.serves r.ch.val) fun m => m.restoreExpired r.ix)

/-- STATE_W_ADMIT (R219). -/
def execStateWAdmit (fn : Fn) (r : SeqRef) (s : State) : Answer :=
  s.done (s.m.putEnt fn r Ent.STATE_W 1)

/-- STATE_W_FREE (R219). -/
def execStateWFree (fn : Fn) (r : SeqRef) (s : State) : Answer :=
  s.done (s.m.putEnt fn r Ent.STATE_W 0)

/-- RQT_ENTRY_FIELD_WRITE (R218). -/
def execRqtEntryFieldWrite (fn : Fn) (r : SeqRef) (off : Fin 128) (bytes : List Byte) (s : State) : Answer :=
  s.done (s.m.rqtWrite fn r.ch.val r.e.val off.val bytes)

/-- CMD_NONE (R242). -/
def execCmdNone (fn : Fn) (r : SeqRef) (s : State) : Answer :=
  s.done (s.m.putEnt fn r Ent.CMD_W 0)

/-- CMD_PAUSE (R243). -/
def execCmdPause (fn : Fn) (r : SeqRef) (s : State) : Answer :=
  s.done (s.m.putEnt fn r Ent.CMD_W 1)

/-- CMD_RESUME (R243). -/
def execCmdResume (fn : Fn) (r : SeqRef) (s : State) : Answer :=
  s.done (s.m.putEnt fn r Ent.CMD_W 2)

/-- CMD_PARK (R243). -/
def execCmdPark (fn : Fn) (r : SeqRef) (s : State) : Answer :=
  s.done (s.m.putEnt fn r Ent.CMD_W 3)

/-- CMD_CANCEL (R243). -/
def execCmdCancel (fn : Fn) (r : SeqRef) (s : State) : Answer :=
  s.done (s.m.putEnt fn r Ent.CMD_W 4)

/-- DEADLINE_EXPIRE (R233). -/
def execDeadlineExpire (r : SeqRef) (s : State) : Answer :=
  s.done (s.m.only (s.m.serves r.ch.val) fun m => m.deadlineHit r.ix)

/-- CONSUMED_WRITE (R240). -/
def execConsumedWrite (fn : Fn) (r : SeqRef) (value : Word) (s : State) : Answer :=
  s.done (s.m.putEnt fn r Ent.CONSUMED value.toNat)

/-- PENDING_RECORD_WRITE (R240). -/
def execPendingRecordWrite (r : SeqRef) (s : State) : Answer :=
  s.done (s.m.only (s.m.serves r.ch.val) fun m => m.pendingWrite r.ix)

/-- A write of RQT_PART (R248). -/
def execRqtPartWrite (fn : Fn) (ch : ChId) (ctx : CtxId) (value : Word) (s : State) : Answer :=
  s.done (s.m.put fn (pageOff .rqtCh ch.val 0 (Off.RQT_PART + 4 * ctx.val)) value)

/-- A write of PLK_CTL (R250). -/
def execPlkCtlWrite (fn : Fn) (value : Word) (s : State) : Answer :=
  s.done (s.m.put fn (pageOff .plk 0 0 Off.PLK_CTL) value)

/-- TUNING_BACKWARD_DONE (R276). -/
def execTuningBackwardDone (r : SeqRef) (grads losses : List F32) (s : State) : Answer :=
  s.done (s.m.only (s.m.serves r.ch.val) fun m => m.tuningDone r.ix grads losses)

/-- C1_ENTRY (R457). -/
def execC1Entry (ch : ChId) (s : State) : Answer :=
  s.done (s.m.c1Enter ch.val)

end Sys2Proof.Machine
end

