-- ==== Sys2Proof/Machine/Dispatch.lean ====
section
/-! DEFINITION. exec: one arm per command of the table, each one direct call of its meaning. -/

namespace Sys2Proof.Machine

open Sys2Proof

/-- The effect of a command on everything but the queue. -/
def exec (i : Instr) (s : State) : Host.Outcome State Fault Refusal :=
  match i with
  | .plankBoundary env => Sys2Proof.Machine.execPlankBoundary env s
  | .hubLinkFail ch => Sys2Proof.Machine.execHubLinkFail ch s
  | .mvmDescriptor tile d dev => Sys2Proof.Machine.execMvmDescriptor tile d dev s
  | .transposeRead tile d dev => Sys2Proof.Machine.execTransposeRead tile d dev s
  | .mvmSumsArrive tile => Sys2Proof.Machine.execMvmSumsArrive tile s
  | .pounceShareDone share => Sys2Proof.Machine.execPounceShareDone share s
  | .rereadComplete tile dev => Sys2Proof.Machine.execRereadComplete tile dev s
  | .referenceProbe tile dev => Sys2Proof.Machine.execReferenceProbe tile dev s
  | .driftIntervalEnd ch => Sys2Proof.Machine.execDriftIntervalEnd ch s
  | .refreshWaitExpire tile => Sys2Proof.Machine.execRefreshWaitExpire tile s
  | .localisationProbe tile subBlock dev => Sys2Proof.Machine.execLocalisationProbe tile subBlock dev s
  | .localisationRunEnd tile => Sys2Proof.Machine.execLocalisationRunEnd tile s
  | .shadowReplay c dev => Sys2Proof.Machine.execShadowReplay c dev s
  | .shadowDigitalCheck c => Sys2Proof.Machine.execShadowDigitalCheck c s
  | .shadowDwellEnd c => Sys2Proof.Machine.execShadowDwellEnd c s
  | .fullerQuantiseDone core w => Sys2Proof.Machine.execFullerQuantiseDone core w s
  | .wideModeHoldEnd c => Sys2Proof.Machine.execWideModeHoldEnd c s
  | .leafArrival core leaf => Sys2Proof.Machine.execLeafArrival core leaf s
  | .daeItemStart core item => Sys2Proof.Machine.execDaeItemStart core item s
  | .daeBlockArrive block => Sys2Proof.Machine.execDaeBlockArrive block s
  | .paeItemStart c item => Sys2Proof.Machine.execPaeItemStart c item s
  | .paeStageDone c => Sys2Proof.Machine.execPaeStageDone c s
  | .paeBackwardItem c item => Sys2Proof.Machine.execPaeBackwardItem c item s
  | .spillLayerItem c item => Sys2Proof.Machine.execSpillLayerItem c item s
  | .kvpHoldExpire r => Sys2Proof.Machine.execKvpHoldExpire r s
  | .pageMoveDone r layer page ok => Sys2Proof.Machine.execPageMoveDone r layer page ok s
  | .checkpointValid r => Sys2Proof.Machine.execCheckpointValid r s
  | .hoodCopyDone r => Sys2Proof.Machine.execHoodCopyDone r s
  | .hoodExpire r => Sys2Proof.Machine.execHoodExpire r s
  | .hoodRestoreDone r host logOk => Sys2Proof.Machine.execHoodRestoreDone r host logOk s
  | .restoreWaitExpire r => Sys2Proof.Machine.execRestoreWaitExpire r s
  | .stateWAdmit fn r => Sys2Proof.Machine.execStateWAdmit fn r s
  | .stateWFree fn r => Sys2Proof.Machine.execStateWFree fn r s
  | .rqtEntryFieldWrite fn r off bytes => Sys2Proof.Machine.execRqtEntryFieldWrite fn r off bytes s
  | .cmdNone fn r => Sys2Proof.Machine.execCmdNone fn r s
  | .cmdPause fn r => Sys2Proof.Machine.execCmdPause fn r s
  | .cmdResume fn r => Sys2Proof.Machine.execCmdResume fn r s
  | .cmdPark fn r => Sys2Proof.Machine.execCmdPark fn r s
  | .cmdCancel fn r => Sys2Proof.Machine.execCmdCancel fn r s
  | .deadlineExpire r => Sys2Proof.Machine.execDeadlineExpire r s
  | .consumedWrite fn r value => Sys2Proof.Machine.execConsumedWrite fn r value s
  | .pendingRecordWrite r => Sys2Proof.Machine.execPendingRecordWrite r s
  | .rqtPartWrite fn ch ctx value => Sys2Proof.Machine.execRqtPartWrite fn ch ctx value s
  | .plkCtlWrite fn value => Sys2Proof.Machine.execPlkCtlWrite fn value s
  | .ldrLoad fn ctx => Sys2Proof.Machine.execLdrLoad fn ctx s
  | .ldrSwap fn ctx => Sys2Proof.Machine.execLdrSwap fn ctx s
  | .ldrAbort fn ctx => Sys2Proof.Machine.execLdrAbort fn ctx s
  | .ldrGo fn ctx => Sys2Proof.Machine.execLdrGo fn ctx s
  | .ldrUnload fn ctx => Sys2Proof.Machine.execLdrUnload fn ctx s
  | .ldrConfigWrite fn ctx reg value => Sys2Proof.Machine.execLdrConfigWrite fn ctx reg value s
  | .loadFetchDone ctx host => Sys2Proof.Machine.execLoadFetchDone ctx host s
  | .loadCheckDone ctx => Sys2Proof.Machine.execLoadCheckDone ctx s
  | .loadCopyDone ctx host xferOk => Sys2Proof.Machine.execLoadCopyDone ctx host xferOk s
  | .loadProgramDone ctx => Sys2Proof.Machine.execLoadProgramDone ctx s
  | .unloadComplete ctx => Sys2Proof.Machine.execUnloadComplete ctx s
  | .tileVerifyDone ch cl tile missed iterations probe => Sys2Proof.Machine.execTileVerifyDone ch cl tile missed iterations probe s
  | .adpLoad fn ctx slot => Sys2Proof.Machine.execAdpLoad fn ctx slot s
  | .adpCommit fn ctx slot => Sys2Proof.Machine.execAdpCommit fn ctx slot s
  | .adpUnload fn ctx slot => Sys2Proof.Machine.execAdpUnload fn ctx slot s
  | .adapterLoadDone ctx slot host => Sys2Proof.Machine.execAdapterLoadDone ctx slot host s
  | .tuningBackwardDone r grads losses => Sys2Proof.Machine.execTuningBackwardDone r grads losses s
  | .plcCxSnapGo fn ctx => Sys2Proof.Machine.execPlcCxSnapGo fn ctx s
  | .plcChCtlWrite fn ch value => Sys2Proof.Machine.execPlcChCtlWrite fn ch value s
  | .spdRequestIssue core req => Sys2Proof.Machine.execSpdRequestIssue core req s
  | .spdAccessStart core entry => Sys2Proof.Machine.execSpdAccessStart core entry s
  | .gatherSlotTimeout core slot => Sys2Proof.Machine.execGatherSlotTimeout core slot s
  | .regionRoomAvailable core room => Sys2Proof.Machine.execRegionRoomAvailable core room s
  | .bankIdleExpire t => Sys2Proof.Machine.execBankIdleExpire t s
  | .bankWritesDrained t => Sys2Proof.Machine.execBankWritesDrained t s
  | .bankPdWaitExpire wait => Sys2Proof.Machine.execBankPdWaitExpire wait s
  | .synMap fn ch ctx vid => Sys2Proof.Machine.execSynMap fn ch ctx vid s
  | .synUnmap fn ch ctx vid => Sys2Proof.Machine.execSynUnmap fn ch ctx vid s
  | .synArm fn ch ctx vid => Sys2Proof.Machine.execSynArm fn ch ctx vid s
  | .synSignal fn ch ctx vid value => Sys2Proof.Machine.execSynSignal fn ch ctx vid value s
  | .synConsume fn ch ctx vid value => Sys2Proof.Machine.execSynConsume fn ch ctx vid value s
  | .engineSignal ch obj ctx op => Sys2Proof.Machine.execEngineSignal ch obj ctx op s
  | .syncWaitTimeout ch obj who => Sys2Proof.Machine.execSyncWaitTimeout ch obj who s
  | .remoteSignalArrive msg => Sys2Proof.Machine.execRemoteSignalArrive msg s
  | .signalHoldTimeout ch obj => Sys2Proof.Machine.execSignalHoldTimeout ch obj s
  | .signalResendTimer ch held => Sys2Proof.Machine.execSignalResendTimer ch held s
  | .evfCtlWrite fn ch value => Sys2Proof.Machine.execEvfCtlWrite fn ch value s
  | .portSignalDetect ch p => Sys2Proof.Machine.execPortSignalDetect ch p s
  | .portRetryTimer ch p => Sys2Proof.Machine.execPortRetryTimer ch p s
  | .portTrainingDone ch p h => Sys2Proof.Machine.execPortTrainingDone ch p h s
  | .portTrainingFail ch p => Sys2Proof.Machine.execPortTrainingFail ch p s
  | .portRetrainTrigger ch p why => Sys2Proof.Machine.execPortRetrainTrigger ch p why s
  | .flitReceive ch p f => Sys2Proof.Machine.execFlitReceive ch p f s
  | .fabricWriteReceive ch p h data => Sys2Proof.Machine.execFabricWriteReceive ch p h data s
  | .fabricReadReceive ch p h => Sys2Proof.Machine.execFabricReadReceive ch p h s
  | .readRespReceive link h data => Sys2Proof.Machine.execReadRespReceive link h data s
  | .readTimeout ch tag => Sys2Proof.Machine.execReadTimeout ch tag s
  | .digestReceive msg => Sys2Proof.Machine.execDigestReceive msg s
  | .replyReceive w stream tag status => Sys2Proof.Machine.execReplyReceive w stream tag status s
  | .collFailReceive w ctx collId inst code => Sys2Proof.Machine.execCollFailReceive w ctx collId inst code s
  | .helloReceive ch p h => Sys2Proof.Machine.execHelloReceive ch p h s
  | .enumReceive ch p id => Sys2Proof.Machine.execEnumReceive ch p id s
  | .enumRepeatTimer => Sys2Proof.Machine.execEnumRepeatTimer s
  | .assignReceive ch p id => Sys2Proof.Machine.execAssignReceive ch p id s
  | .timeReceive ch p m => Sys2Proof.Machine.execTimeReceive ch p m s
  | .timeSendTimer => Sys2Proof.Machine.execTimeSendTimer s
  | .linkDelayMeasure ch p delay => Sys2Proof.Machine.execLinkDelayMeasure ch p delay s
  | .timeHoldoverExpire => Sys2Proof.Machine.execTimeHoldoverExpire s
  | .notreadyReceive dst stream src => Sys2Proof.Machine.execNotreadyReceive dst stream src s
  | .notreadyResendTimer ch stream => Sys2Proof.Machine.execNotreadyResendTimer ch stream s
  | .streamIdleExpire ch stream => Sys2Proof.Machine.execStreamIdleExpire ch stream s
  | .plankInEdge offset => Sys2Proof.Machine.execPlankInEdge offset s
  | .evfNodeWrite fn value => Sys2Proof.Machine.execEvfNodeWrite fn value s
  | .evfTimeCtlWrite fn value => Sys2Proof.Machine.execEvfTimeCtlWrite fn value s
  | .evfRtDataWrite fn ch value => Sys2Proof.Machine.execEvfRtDataWrite fn ch value s
  | .faultSourceRaise src at_ => Sys2Proof.Machine.execFaultSourceRaise src at_ s
  | .parityError at_ => Sys2Proof.Machine.execParityError at_ s
  | .pgFrcWrite fn page mask => Sys2Proof.Machine.execPgFrcWrite fn page mask s
  | .pgFltClear fn page mask => Sys2Proof.Machine.execPgFltClear fn page mask s
  | .pgSevWrite fn page second value => Sys2Proof.Machine.execPgSevWrite fn page second value s
  | .quietPeriodExpire ch => Sys2Proof.Machine.execQuietPeriodExpire ch s
  | .fltCmdContain fn ch => Sys2Proof.Machine.execFltCmdContain fn ch s
  | .fltCmdHalt fn ch => Sys2Proof.Machine.execFltCmdHalt fn ch s
  | .hubGroupComplete ch => Sys2Proof.Machine.execHubGroupComplete ch s
  | .fltDlvSelWrite fn value => Sys2Proof.Machine.execFltDlvSelWrite fn value s
  | .monConversionEnd c code overload => Sys2Proof.Machine.execMonConversionEnd c code overload s
  | .fastMeterSample m amps volts => Sys2Proof.Machine.execFastMeterSample m amps volts s
  | .inletTempRead t => Sys2Proof.Machine.execInletTempRead t s
  | .thermalOffsetUpdate c => Sys2Proof.Machine.execThermalOffsetUpdate c s
  | .throttleGraceExpire c => Sys2Proof.Machine.execThrottleGraceExpire c s
  | .throttleTighten c => Sys2Proof.Machine.execThrottleTighten c s
  | .clockSlowStep c => Sys2Proof.Machine.execClockSlowStep c s
  | .orderlyStopComplete ch => Sys2Proof.Machine.execOrderlyStopComplete ch s
  | .diodeComparatorTrip c d => Sys2Proof.Machine.execDiodeComparatorTrip c d s
  | .thmLimWrite fn ch value => Sys2Proof.Machine.execThmLimWrite fn ch value s
  | .blockingRunDone core cals => Sys2Proof.Machine.execBlockingRunDone core cals s
  | .bkgLateExpire core => Sys2Proof.Machine.execBkgLateExpire core s
  | .bkgCmdRun fn core => Sys2Proof.Machine.execBkgCmdRun fn core s
  | .hostLinkTrained rate width flit => Sys2Proof.Machine.execHostLinkTrained rate width flit s
  | .functionLevelReset ctx => Sys2Proof.Machine.execFunctionLevelReset ctx s
  | .vfDisable numVfs => Sys2Proof.Machine.execVfDisable numVfs s
  | .hubCxCreate fn ctx => Sys2Proof.Machine.execHubCxCreate fn ctx s
  | .hubCxDestroy fn ctx => Sys2Proof.Machine.execHubCxDestroy fn ctx s
  | .contextCleaningDone ctx => Sys2Proof.Machine.execContextCleaningDone ctx s
  | .bar2Access fn off op => Sys2Proof.Machine.execBar2Access fn off op s
  | .hubApWrite fn a value => Sys2Proof.Machine.execHubApWrite fn a value s
  | .accessDeny fn off write => Sys2Proof.Machine.execAccessDeny fn off write s
  | .counterLoRead fn off => Sys2Proof.Machine.execCounterLoRead fn off s
  | .cntClr fn page value => Sys2Proof.Machine.execCntClr fn page value s
  | .registerWrite fn off size value => Sys2Proof.Machine.execRegisterWrite fn off size value s
  | .powerOnReset slotId => Sys2Proof.Machine.execPowerOnReset slotId s
  | .mgtFwVerifyDone tgt => Sys2Proof.Machine.execMgtFwVerifyDone tgt s
  | .vinStart => Sys2Proof.Machine.execVinStart s
  | .powerFailure => Sys2Proof.Machine.execPowerFailure s
  | .perstNAssert => Sys2Proof.Machine.execPerstNAssert s
  | .perstNRelease => Sys2Proof.Machine.execPerstNRelease s
  | .hubConfigReady => Sys2Proof.Machine.execHubConfigReady s
  | .channelReadySet ch => Sys2Proof.Machine.execChannelReadySet ch s
  | .t2ZeroingDone ch => Sys2Proof.Machine.execT2ZeroingDone ch s
  | .initLimitExpire ch w => Sys2Proof.Machine.execInitLimitExpire ch w s
  | .c1Entry ch => Sys2Proof.Machine.execC1Entry ch s
  | .pwrChCmdC2 fn ch => Sys2Proof.Machine.execPwrChCmdC2 fn ch s
  | .pwrChCmdC0 fn ch drifted => Sys2Proof.Machine.execPwrChCmdC0 fn ch drifted s
  | .channelReset fn ch => Sys2Proof.Machine.execChannelReset fn ch s
  | .haltedReset fn ch drifted => Sys2Proof.Machine.execHaltedReset fn ch drifted s
  | .pwrModCmdM0 fn drifted => Sys2Proof.Machine.execPwrModCmdM0 fn drifted s
  | .pwrModCmdM2 fn => Sys2Proof.Machine.execPwrModCmdM2 fn s
  | .pwrModCmdM3 fn => Sys2Proof.Machine.execPwrModCmdM3 fn s
  | .thermtripVinTimeout => Sys2Proof.Machine.execThermtripVinTimeout s
  | .entdaa tgt addr => Sys2Proof.Machine.execEntdaa tgt addr s
  | .setnewda tgt addr => Sys2Proof.Machine.execSetnewda tgt addr s
  | .rstdaa => Sys2Proof.Machine.execRstdaa s
  | .enec tgt => Sys2Proof.Machine.execEnec tgt s
  | .disec tgt => Sys2Proof.Machine.execDisec tgt s
  | .getpid tgt => Sys2Proof.Machine.execGetpid tgt s
  | .getbcr tgt => Sys2Proof.Machine.execGetbcr tgt s
  | .getdcr tgt => Sys2Proof.Machine.execGetdcr tgt s
  | .getstatus tgt => Sys2Proof.Machine.execGetstatus tgt s
  | .setmwl tgt n => Sys2Proof.Machine.execSetmwl tgt n s
  | .getmwl tgt => Sys2Proof.Machine.execGetmwl tgt s
  | .setmrl tgt n ibi => Sys2Proof.Machine.execSetmrl tgt n ibi s
  | .getmrl tgt => Sys2Proof.Machine.execGetmrl tgt s
  | .ibiRetry tgt accepted => Sys2Proof.Machine.execIbiRetry tgt accepted s
  | .mgtResponseRead tgt => Sys2Proof.Machine.execMgtResponseRead tgt s
  | .mgtRequestInvalid tgt opcode tag crcOk lenOk => Sys2Proof.Machine.execMgtRequestInvalid tgt opcode tag crcOk lenOk s
  | .getInfo tgt tag => Sys2Proof.Machine.execGetInfo tgt tag s
  | .readReg tgt tag off words => Sys2Proof.Machine.execReadReg tgt tag off words s
  | .writeReg tgt tag off words => Sys2Proof.Machine.execWriteReg tgt tag off words s
  | .setTime tgt tag ms => Sys2Proof.Machine.execSetTime tgt tag ms s
  | .getTime tgt tag => Sys2Proof.Machine.execGetTime tgt tag s
  | .evrRead tgt tag first count => Sys2Proof.Machine.execEvrRead tgt tag first count s
  | .evrClear tgt tag => Sys2Proof.Machine.execEvrClear tgt tag s
  | .attest tgt tag nonce => Sys2Proof.Machine.execAttest tgt tag nonce s
  | .getCert tgt tag index off => Sys2Proof.Machine.execGetCert tgt tag index off s
  | .fwStage tgt tag kind off chunk => Sys2Proof.Machine.execFwStage tgt tag kind off chunk s
  | .fwActivate tgt tag kind => Sys2Proof.Machine.execFwActivate tgt tag kind s
  | .svnCommit tgt tag kind => Sys2Proof.Machine.execSvnCommit tgt tag kind s
  | .serviceOut tgt tag => Sys2Proof.Machine.execServiceOut tgt tag s
  | .mgtRestart tgt tag => Sys2Proof.Machine.execMgtRestart tgt tag s
  | .getEvents tgt tag => Sys2Proof.Machine.execGetEvents tgt tag s
  | .secFwStage fn value host => Sys2Proof.Machine.execSecFwStage fn value host s
  | .secFwActivate fn value => Sys2Proof.Machine.execSecFwActivate fn value s
  | .evrNvWrite ch ok => Sys2Proof.Machine.execEvrNvWrite ch ok s
  | .evrTokenRefill ch code => Sys2Proof.Machine.execEvrTokenRefill ch code s
  | .evrCurWrite fn ch hi value => Sys2Proof.Machine.execEvrCurWrite fn ch hi value s
  | .pemorId ch => Sys2Proof.Machine.execPemorId ch s
  | .pemorUnlock ch level => Sys2Proof.Machine.execPemorUnlock ch level s
  | .pemorResp ch sig => Sys2Proof.Machine.execPemorResp ch sig s
  | .pemorLock ch => Sys2Proof.Machine.execPemorLock ch s
  | .pemorStatus ch => Sys2Proof.Machine.execPemorStatus ch s
  | .pemorRd ch off n => Sys2Proof.Machine.execPemorRd ch off n s
  | .pemorEvr ch seq n => Sys2Proof.Machine.execPemorEvr ch seq n s
  | .pemorMon ch cl => Sys2Proof.Machine.execPemorMon ch cl s
  | .pemorBaud ch rate => Sys2Proof.Machine.execPemorBaud ch rate s
  | .pemorWr ch off value => Sys2Proof.Machine.execPemorWr ch off value s
  | .pemorForce ch ix => Sys2Proof.Machine.execPemorForce ch ix s
  | .pemorMem ch addr n => Sys2Proof.Machine.execPemorMem ch addr n s
  | .pemorJtagOpen ch => Sys2Proof.Machine.execPemorJtagOpen ch s
  | .pemorJtagClose ch => Sys2Proof.Machine.execPemorJtagClose ch s
  | .pemorIdleTimeout ch => Sys2Proof.Machine.execPemorIdleTimeout ch s
  | .pemorNonceExpire ch => Sys2Proof.Machine.execPemorNonceExpire ch s
  | .unlockLockoutEnd ch => Sys2Proof.Machine.execUnlockLockoutEnd ch s
  | .vauxLoss => Sys2Proof.Machine.execVauxLoss s
  | .configRequest fn => Sys2Proof.Machine.execConfigRequest fn s
  | .vfEnable numVfs => Sys2Proof.Machine.execVfEnable numVfs s
  | .functionD3hot ctx d3 => Sys2Proof.Machine.execFunctionD3hot ctx d3 s
  | .arrTcmd fn core value => Sys2Proof.Machine.execArrTcmd fn core value s
  | .evfEnumWrite fn value => Sys2Proof.Machine.execEvfEnumWrite fn value s
  | .createDone ctx => Sys2Proof.Machine.execCreateDone ctx s

end Sys2Proof.Machine
end

