-- ==== Sys2Proof/WellFormed.lean ====
section
/-! DEFINITION. Which commands are well formed: an operand that the types leave wider than the spec's field is in the field's range.
Nothing in exec asks for it: a command outside it has the meaning its definition gives. Rows with no check hold by their types. -/

namespace Sys2Proof

/-- Host addresses have 64 bits (R271). -/
def hostWf (h : HostView) : Bool := h.all fun e => decide (e.1 < 18446744073709551616)

/-- A BAR0 offset of a management request has four bytes (R489). -/
def off32 (off : Nat) : Bool := decide (off < 4294967296)

/-- A row of logits names tokens of 24 bits (R217), at a position a sequence can have (R196). -/
def LogitRow.wf (r : LogitRow) : Bool := decide (r.pos ≤ 4194304) && r.listed.all fun e => decide (e.1 < 16777216)

/-- What a boundary takes (R16). -/
def BoundaryEnv.wf (e : BoundaryEnv) : Bool :=
  hostWf e.host && e.logits.all LogitRow.wf && e.planned.all fun p => decide (p.1 < 64)

/-- A vector that a top-k takes has at most 2^24 elements (R155); a root that comes over the fabric is that of a channel (R148). -/
def LeafMsg.wf : LeafMsg → Bool
  | .group .. | .adapter .. => true
  | .module (.sum l ..) | .module (.topk l ..) => decide (l = 3)
  | .module .. => false
  | .part _ _ _ b xs => decide (b + xs.length ≤ 16777216)

/-- An attention item has query rows, 256 at most on a DAE (R166, R177). -/
def AttnItem.wf (i : AttnItem) : Bool := !i.qs.isEmpty

/-- The fuller has finished something. -/
def FullerWork.wf : FullerWork → Bool
  | .exec e => !e.xs.isEmpty
  | .kv rows => !rows.isEmpty

/-- Scratchpad addresses have 22 bits, and a request names at most 16 KiB (R300, R302). -/
def SpdRange.wf : SpdRange → Bool
  | .contiguous a n => decide (a < 4194304) && decide (1 ≤ n) && decide (n ≤ 16384)
  | .transposed a _ => decide (a < 4194304)
  | .strided a _ n _ => decide (a < 4194304) && decide (1 ≤ n)
  | .region _ n => decide (1 ≤ n) && decide (n ≤ 16384)

def SpdReq.wf (r : SpdReq) : Bool := r.range.wf

/-- Fields of a message header (R350). -/
def MsgHdr.wf (h : MsgHdr) : Bool :=
  decide (h.stream < 65536) && decide (h.offset < 281474976710656) && decide (h.tag < 65536) && decide (h.len ≤ 131072)

/-- Physical pairs 0 to 2,127 and converters 0 to 531 of a tile (R29, R35); delay taps 0 to 31 and threshold taps 0 to 63 (R423). -/
def TileCal.wf (c : TileCal) : Bool :=
  c.b.all (fun e => decide (e.1 < 2128)) && c.o.all (fun e => decide (e.1 < 2128)) && c.convFail.all (fun k => decide (k < 532)) &&
  c.taps.all (fun e => decide (e.1 < 2048) && decide (e.2 < 32)) && c.thr.all fun e => decide (e.1 < 1044) && decide (e.2 < 64)

/-- A BAR2 access moves at least one byte (R444). -/
def Bar2Op.wf : Bar2Op → Bool
  | .read n => decide (1 ≤ n)
  | .write bs => !bs.isEmpty

/-- Whether a command is well formed. -/
def Instr.wf : Instr → Bool
  | .plankBoundary env => env.wf
  | .hubLinkFail _ => true
  | .mvmDescriptor _ _ _ => true
  | .transposeRead _ _ _ => true
  | .mvmSumsArrive _ => true
  | .pounceShareDone _ => true
  | .rereadComplete _ _ => true
  | .referenceProbe _ _ => true
  | .driftIntervalEnd _ => true
  | .refreshWaitExpire _ => true
  | .localisationProbe _ _ _ => true
  | .localisationRunEnd _ => true
  | .shadowReplay _ _ => true
  | .shadowDigitalCheck _ => true
  | .shadowDwellEnd _ => true
  | .fullerQuantiseDone _ w => w.wf
  | .wideModeHoldEnd _ => true
  | .leafArrival _ m => m.wf
  | .daeItemStart _ it => it.wf
  | .daeBlockArrive _ => true
  | .paeItemStart _ it => it.wf
  | .paeStageDone _ => true
  | .paeBackwardItem _ it => !it.rows.isEmpty
  | .spillLayerItem _ it => !it.xs.isEmpty
  | .kvpHoldExpire _ => true
  | .pageMoveDone _ layer page _ => decide (layer < 65536) && decide (page < 16777216)
  | .checkpointValid _ => true
  | .hoodCopyDone _ => true
  | .hoodExpire _ => true
  | .hoodRestoreDone _ h _ => hostWf h
  | .restoreWaitExpire _ => true
  | .stateWAdmit _ _ => true
  | .stateWFree _ _ => true
  | .rqtEntryFieldWrite _ _ off bs => !bs.isEmpty && decide (off.val + bs.length ≤ 128)
  | .cmdNone _ _ => true
  | .cmdPause _ _ => true
  | .cmdResume _ _ => true
  | .cmdPark _ _ => true
  | .cmdCancel _ _ => true
  | .deadlineExpire _ => true
  | .consumedWrite _ _ _ => true
  | .pendingRecordWrite _ => true
  | .rqtPartWrite _ _ _ _ => true
  | .plkCtlWrite _ _ => true
  | .ldrLoad _ _ => true
  | .ldrSwap _ _ => true
  | .ldrAbort _ _ => true
  | .ldrGo _ _ => true
  | .ldrUnload _ _ => true
  | .ldrConfigWrite _ _ _ _ => true
  | .loadFetchDone _ h => hostWf h
  | .loadCheckDone _ => true
  | .loadCopyDone _ h _ => hostWf h
  | .loadProgramDone _ => true
  | .unloadComplete _ => true
  | .tileVerifyDone _ _ _ missed _ probe => decide (missed.length ≤ 2128) && decide (probe.length ≤ 2128)
  | .adpLoad _ _ _ => true
  | .adpCommit _ _ _ => true
  | .adpUnload _ _ _ => true
  | .adapterLoadDone _ _ h => hostWf h
  | .tuningBackwardDone _ _ _ => true
  | .plcCxSnapGo _ _ => true
  | .plcChCtlWrite _ _ _ => true
  | .spdRequestIssue _ r => r.wf
  | .spdAccessStart _ e => decide (e < 64)
  | .gatherSlotTimeout _ _ => true
  | .regionRoomAvailable .. => true
  | .bankIdleExpire _ => true
  | .bankWritesDrained _ => true
  | .bankPdWaitExpire .. => true
  | .synMap _ _ _ _ => true
  | .synUnmap _ _ _ _ => true
  | .synArm _ _ _ _ => true
  | .synSignal _ _ _ _ _ => true
  | .synConsume _ _ _ _ _ => true
  | .engineSignal _ _ _ _ => true
  | .syncWaitTimeout _ _ _ => true
  | .remoteSignalArrive g => decide (g.sig.value < 65536) && decide (g.sig.stream < 65536) && decide (g.sig.mark < 281474976710656)
  | .signalHoldTimeout _ _ => true
  | .signalResendTimer _ _ => true
  | .evfCtlWrite _ _ _ => true
  | .portSignalDetect _ _ => true
  | .portRetryTimer _ _ => true
  | .portTrainingDone _ _ _ => true
  | .portTrainingFail _ _ => true
  | .portRetrainTrigger _ _ _ => true
  | .flitReceive _ _ f => decide (f.granules.length ≤ 64)
  | .fabricWriteReceive _ _ h d => h.wf && decide (1 ≤ d.length) && decide (d.length ≤ 131072) && decide (d.length = h.len)
  | .fabricReadReceive _ _ h => h.wf && decide (1 ≤ h.len)
  | .readRespReceive _ h _ => h.wf
  | .readTimeout _ tag => decide (tag < 65536)
  | .digestReceive d => decide (d.digest.stream < 65536) && decide (d.digest.markEnd < 281474976710656)
  | .replyReceive _ st tag _ => decide (st < 65536) && decide (tag < 65536)
  | .collFailReceive _ _ _ _ _ => true
  | .helloReceive _ _ _ => true
  | .enumReceive _ _ id => decide (id < 65536)
  | .enumRepeatTimer => true
  | .assignReceive _ _ _ => true
  | .timeReceive _ _ _ => true
  | .timeSendTimer => true
  | .linkDelayMeasure _ _ _ => true
  | .timeHoldoverExpire => true
  | .notreadyReceive _ st _ => decide (st < 65536)
  | .notreadyResendTimer _ st => decide (st < 65536)
  | .streamIdleExpire _ st => decide (st < 65536)
  | .plankInEdge _ => true
  | .evfNodeWrite _ _ => true
  | .evfTimeCtlWrite _ _ => true
  | .evfRtDataWrite _ _ _ => true
  | .faultSourceRaise _ _ => true
  | .parityError _ => true
  | .pgFrcWrite _ page _ => decide (page % 4096 = 0)
  | .pgFltClear _ page _ => decide (page % 4096 = 0)
  | .pgSevWrite _ page _ _ => decide (page % 4096 = 0)
  | .quietPeriodExpire _ => true
  | .fltCmdContain _ _ => true
  | .fltCmdHalt _ _ => true
  | .hubGroupComplete _ => true
  | .fltDlvSelWrite _ _ => true
  | .monConversionEnd _ _ _ => true
  | .fastMeterSample _ a v => decide (a < 1048576) && decide (v < 1048576)
  | .inletTempRead _ => true
  | .thermalOffsetUpdate _ => true
  | .throttleGraceExpire _ => true
  | .throttleTighten _ => true
  | .clockSlowStep _ => true
  | .orderlyStopComplete _ => true
  | .diodeComparatorTrip _ _ => true
  | .thmLimWrite _ _ _ => true
  | .blockingRunDone _ cs => cs.all TileCal.wf
  | .bkgLateExpire _ => true
  | .bkgCmdRun _ _ => true
  | .hostLinkTrained _ _ _ => true
  | .functionLevelReset _ => true
  | .vfDisable _ => true
  | .hubCxCreate _ _ => true
  | .hubCxDestroy _ _ => true
  | .contextCleaningDone _ => true
  | .bar2Access _ off op => decide (off < 68719476736) && op.wf
  | .hubApWrite _ _ _ => true
  | .accessDeny _ off _ => off32 off
  | .counterLoRead _ off => off32 off
  | .cntClr _ page _ => decide (page % 4096 = 0)
  | .registerWrite _ off _ _ => off32 off
  | .powerOnReset _ => true
  | .mgtFwVerifyDone _ => true
  | .vinStart => true
  | .powerFailure => true
  | .perstNAssert => true
  | .perstNRelease => true
  | .hubConfigReady => true
  | .channelReadySet _ => true
  | .t2ZeroingDone _ => true
  | .initLimitExpire _ _ => true
  | .c1Entry _ => true
  | .pwrChCmdC2 _ _ => true
  | .pwrChCmdC0 _ _ _ => true
  | .channelReset _ _ => true
  | .haltedReset _ _ _ => true
  | .pwrModCmdM0 _ _ => true
  | .pwrModCmdM2 _ => true
  | .pwrModCmdM3 _ => true
  | .thermtripVinTimeout => true
  | .entdaa _ _ => true
  | .setnewda _ _ => true
  | .rstdaa => true
  | .enec _ => true
  | .disec _ => true
  | .getpid _ => true
  | .getbcr _ => true
  | .getdcr _ => true
  | .getstatus _ => true
  | .setmwl _ _ => true
  | .getmwl _ => true
  | .setmrl _ _ _ => true
  | .getmrl _ => true
  | .ibiRetry _ _ => true
  | .mgtResponseRead _ => true
  | .mgtRequestInvalid _ _ _ _ _ => true
  | .getInfo _ _ => true
  | .readReg _ _ off n => off32 off && decide (1 ≤ n) && decide (n ≤ 64)
  | .writeReg _ _ off ws => off32 off && decide (1 ≤ ws.length) && decide (ws.length ≤ 64)
  | .setTime _ _ _ => true
  | .getTime _ _ => true
  | .evrRead _ _ first n => decide (first < 281474976710656) && decide (1 ≤ n) && decide (n ≤ 32)
  | .evrClear _ _ => true
  | .attest _ _ nonce => decide (nonce.length = 32)
  | .getCert _ _ _ off => decide (off < 65536)
  | .fwStage _ _ _ off chunk => off32 off && decide (1 ≤ chunk.length) && decide (chunk.length ≤ 1016)
  | .fwActivate _ _ _ => true
  | .svnCommit _ _ _ => true
  | .serviceOut _ _ => true
  | .mgtRestart _ _ => true
  | .getEvents _ _ => true
  | .secFwStage _ _ h => hostWf h
  | .secFwActivate _ _ => true
  | .evrNvWrite _ _ => true
  | .evrTokenRefill _ _ => true
  | .evrCurWrite _ _ _ _ => true
  | .pemorId _ => true
  | .pemorUnlock _ level => decide (level ≠ .locked)
  | .pemorResp _ sig => decide (sig.length = 64)
  | .pemorLock _ => true
  | .pemorStatus _ => true
  | .pemorRd _ _ _ => true
  | .pemorEvr _ _ _ => true
  | .pemorMon _ _ => true
  | .pemorBaud _ _ => true
  | .pemorWr _ _ _ => true
  | .pemorForce _ _ => true
  | .pemorMem _ _ _ => true
  | .pemorJtagOpen _ => true
  | .pemorJtagClose _ => true
  | .pemorIdleTimeout _ => true
  | .pemorNonceExpire _ => true
  | .unlockLockoutEnd _ => true
  | .vauxLoss => true
  | .configRequest _ => true
  | .vfEnable _ => true
  | .functionD3hot _ _ => true
  | .arrTcmd _ _ _ => true
  | .evfEnumWrite _ _ => true
  | .createDone _ => true

end Sys2Proof
end

