-- ==== Sys2Proof/Safety.lean ====
section
/-! DEFINITION. What counts as a safe run, in the terms the statements use: no change of a channel's fault state left without what
follows it, memory in its canonical form, runs of steps; and the conditions under which commands reach what they act on. -/

namespace Sys2Proof

/-- The instances of a page that exist: channel pages in channels 0 to 7, with their contexts, clusters or cores (R441). -/
def Page.valid (p : Page) : Bool :=
  match p.kind with
  | .hub | .plk | .fltMod | .evfMod | .pwrMod | .secMod => p.ch = 0 && p.inst = 0
  | .hubCx | .ldrCx | .adpCx | .plcCx => p.ch = 0 && decide (p.inst < 64)
  | .rqtCx | .kvpCx | .synCx => decide (p.ch < 8) && decide (p.inst < 64)
  | .att | .mon | .arrSpr => decide (p.ch < 8) && decide (p.inst < 8)
  | .arr | .cor | .pnc | .ful | .acc | .spd => decide (p.ch < 8) && decide (p.inst < 64)
  | _ => decide (p.ch < 8) && p.inst = 0

end Sys2Proof

namespace Sys2Proof.Machine
open Sys2Proof

/-- No change of a channel's fault state still waits for what must follow it: the drops of R378, the hub's words and the re-placement of
R384 and R295, the HELLO messages of R393. -/
def Dev.Settled (m : Dev) : Prop := (m.chans.all fun e => !e.2.due) = true

/-- The memory of T1 and T2 is in canonical form: addresses strictly rising, and no entry equal to what an unlisted address reads as. -/
abbrev Memory.wf (m : Store Byte) : Prop := Store.wf (fun _ => (0 : Byte)) m = true

/-- The register words are in canonical form. -/
abbrev Registers.wf (m : Store Word) : Prop := Store.wf regReset m = true

/-- `k` steps from a state reach another. -/
inductive Reaches : Nat → State → State → Prop where
  | refl (s : State) : Reaches 0 s s
  | step {k : Nat} {s t u : State} (h : Sys2Proof.Machine.step s = .next t) (r : Reaches k t u) : Reaches (k + 1) s u

/-- A run is safe where no step of it stops: every reachable state has a next one. -/
def State.Safe (s : State) : Prop := ∀ k t, Reaches k s t → ∃ u, Sys2Proof.Machine.step t = .next u

/-- A command answers a next state of which `P` holds. -/
def Answers (c : Instr) (s : State) (P : State → Prop) : Prop := ∃ t, exec c s = .next t ∧ P t

/-- A command answers the state that differs from `s` in the module alone, which is then `m`. -/
def Gives (c : Instr) (s : State) (m : Dev) : Prop := exec c s = .next { s with m := m }

/-- A command of the engines that form sums leaves the module as some `m`, and `P` holds then; the answer is what follows within the command: a
collective that waits for a root takes it, and a change of fault state has its effects (R359, R378). -/
def Forms (c : Instr) (s : State) (P : State → Prop) : Prop := ∃ m : Dev, exec c s = .next { s with m := m.feedColls.settle } ∧ P { s with m := m }

/-- A command's own effect leaves the module as some `m`, and `P` holds then; what a change of fault state brings with it (R295, R378, R384, R393)
follows within the command. -/
def Does (c : Instr) (s : State) (P : State → Prop) : Prop := ∃ m : Dev, exec c s = .next { s with m := m.settle } ∧ P { s with m := m }

/-- One thing more has left the module. -/
def Dev.says (m : Dev) (o : Out) : Dev := { m with out := m.out ++ [o] }

/-! ### Frames -/

/-- Nothing that serving uses has changed: the memories, the request table, sequences, contexts, frames, tiles, cores and clusters. -/
structure SameWork (s t : State) : Prop where
  pending : t.pending = s.pending
  mem : t.m.mem = s.m.mem
  t0 : t.m.t0 = s.m.t0
  cbuf : t.m.cbuf = s.m.cbuf
  rqt : t.m.rqt = s.m.rqt
  seqs : t.m.seqs = s.m.seqs
  ctxs : t.m.ctxs = s.m.ctxs
  mems : t.m.mems = s.m.mems
  tiles : t.m.tiles = s.m.tiles
  cores : t.m.cores = s.m.cores
  clusters : t.m.clusters = s.m.clusters

/-- Every register word outside a set keeps its value. -/
def SameRegs (s t : State) (p : Nat → Prop) : Prop := ∀ a, ¬ p a → t.m.reg a = s.m.reg a

/-- Every byte of device memory keeps its value. -/
def SameBytes (s t : State) : Prop := ∀ a, t.m.byte a = s.m.byte a

/-- Nothing but some bytes of one request table entry has changed: those at the offsets that `p` admits. -/
structure OnlyEntry (s t : State) (r : Nat) (p : Nat → Prop) : Prop where
  pending : t.pending = s.pending
  mem : t.m.mem = s.m.mem
  regs : t.m.regs = s.m.regs
  seqs : t.m.seqs = s.m.seqs
  ctxs : t.m.ctxs = s.m.ctxs
  mems : t.m.mems = s.m.mems
  tiles : t.m.tiles = s.m.tiles
  cores : t.m.cores = s.m.cores
  clusters : t.m.clusters = s.m.clusters
  out : t.m.out = s.m.out
  rqt : ∀ a, (∀ o, o < 128 → p o → a ≠ r * 128 + o) → t.m.rqt.get 0 a = s.m.rqt.get 0 a

/-- The registers that raising a source of a channel may change beside FLT_STA and its like: the header of the source's page, and the
recorder's counters. -/
def raiseRegs (ch ix a : Nat) : Prop :=
  a = pageOff (collector ix).1 ch 0 Off.PG_FLT ∨ a = pageOff (collector ix).1 ch 0 Off.PG_CNT ∨
  a = pageOff .evrCh ch 0 Off.EVR_REC ∨ a = pageOff .evrCh ch 0 (Off.EVR_REC + 4) ∨
  a = pageOff .evrCh ch 0 Off.EVR_SUPP ∨ a = pageOff .evrCh ch 0 (Off.EVR_SUPP + 4)

/-- Offset `a` of BAR0 lies in a page. -/
def inPage (k : PageKind) (ch inst a : Nat) : Prop := pageOff k ch inst 0 ≤ a ∧ a < pageOff k ch inst 0x1000

/-- Pages whose body starts nothing: every word is an ordinary register (R4, R5). -/
def ordinaryPages : List PageKind :=
  [.arrCh, .arrSpr, .corCh, .cor, .pnc, .fulCh, .ful, .accCh, .acc, .attCh, .att, .kvpCh, .rqtCx, .plkCh, .ldrCh, .spdCh, .spd, .synCh, .monCh, .mon, .thmCh]

/-! ### Conditions -/

/-- A write that `fn` makes of word `o` of a page is granted and reaches the page (R384, R436, R441, R446, R449, R490). -/
def Dev.Writes (m : Dev) (fn : Fn) (p : Page) (o : Nat) : Prop :=
  match fn with
  | .mgt => m.mayWrite p o .mgt = true ∧ m.mgtUp p = true
  | _ => m.fnOn fn = true ∧ m.mayWrite p o fn = true ∧ (ctxPage p.kind = true → m.ctxState p.inst ≠ 2) ∧
      (p.kind.inHub = false → m.windowUp p = true ∧ (fn = .pf0 → m.fltState p.ch = 2 → p.kind = .fltCh ∨ p.kind = .pwrCh))

/-- A read that `fn` makes of a page is granted and reaches it (R436, R446). -/
def Dev.Reads (m : Dev) (fn : Fn) (p : Page) : Prop :=
  fn ≠ .mgt ∧ m.fnOn fn = true ∧ m.mayRead p fn = true ∧ (p.kind.inHub = true ∨ m.windowUp p = true)

/-- `fn` reaches an entry of a request table: the entry is its own, or `fn` is PF0; the channel is open, and no context that owns the entry
is being cleaned (R216, R446, R449). -/
def Dev.TableOn (m : Dev) (fn : Fn) (r : SeqRef) : Prop :=
  fn ≠ .mgt ∧ m.fnOn fn = true ∧ m.hubFail = false ∧ m.chClosed r.ch.val = false ∧
  (∀ n, m.partOwner r.ch.val r.e.val = some n → m.ctxState n ≠ 2) ∧
  ∀ n, fn = .vf n → m.partOwner r.ch.val r.e.val = some (n.val + 1)

/-- A sequence that may end at once: no step in flight, nothing stopping, no record waiting, and a free slot in its ring (R240). -/
def Dev.EndsNow (m : Dev) (r : Nat) : Prop :=
  (m.seq r).step = none ∧ (m.seq r).stopping = .no ∧ (m.seq r).pend = [] ∧ 1 ≤ m.ringFree r

/-- A source of a channel acts at RECORD: no change of state follows from raising it (R372, R376). -/
def Dev.Records (m : Dev) (ch ix : Nat) : Prop := m.sevOf ch ix = 0

/-- An open group of a core still waits for a leaf of a vector in an epoch, and for more than that (R142, R143); a sum beyond the limits of R154
would only be recorded. -/
def Dev.Awaits (m : Dev) (c g epoch ix vec : Nat) : Prop :=
  (m.group c g).state = .opened ∧ (m.group c g).epoch = epoch ∧ ix < (m.group c g).nLeaf ∧ vec < (m.group c g).vecs ∧
  (m.group c g).seen.contains (ix, vec) = false ∧ (m.group c g).leaves.length + 1 ≠ (m.group c g).nLeaf * (m.group c g).vecs ∧ m.Records (coreCh c) 30

/-- A management target serves requests of `len` payload bytes: it acknowledges, has its full firmware, and takes the request and a
response of `n` bytes within its limits (R481, R484). -/
def Dev.Serves (m : Dev) (t len n : Nat) : Prop :=
  m.tgtAcks t = true ∧ (m.mgt t).bootRom = false ∧ 6 + len ≤ (m.mgt t).mwl ∧ 6 + n ≤ (m.mgt t).mrl

/-- No context holds a pattern, and the channel runs no collective: what stops with the channel leaves nothing to place again (R295, R362). -/
def Dev.NoWork (m : Dev) (ch : Nat) : Prop := (∀ e ∈ m.ctxs, e.2.pat = none) ∧ (m.chan ch).fab.colls = []

/-- The Pemor monitor of a channel answers commands at a level (R508 to R510). -/
def Dev.PemOpen (m : Dev) (ch need : Nat) : Prop :=
  m.pemOn ch = true ∧ (m.mgt ch).bootRom = false ∧ need ≤ lvl (m.pem ch).level

end Sys2Proof.Machine
end

