-- ==== Sys2Proof/Certificates/Slice0/Obligations.lean ====
section
/-! DEFINITION. The statements for the provers. Each is about the machine, in the terms of Sys2Proof/Safety.lean; its docstring names the
rules of the spec it rests on. -/

open Sys2Proof Sys2Proof.Machine

/-! ### The machine -/

/-- A step takes the command at the front of the queue: it is exec of that command on the state with the queue's rest. -/
def Obligations.StepRunsFront : Prop :=
  ∀ (s : State) (c : Instr) (rest : List Instr), s.pending = c :: rest → step s = exec c { s with pending := rest }

/-- With nothing waiting the block idles: the step answers the same state (the model's choice, log entry 2). No command stops the machine, and
no command touches the queue: every state has a next one (log entry 1: what the hardware calls an error is a register bit, a status code or
an event). -/
def Obligations.NothingStops : Prop :=
  (∀ s : State, s.pending = [] → step s = .next s) ∧
  ((∀ (c : Instr) (s : State), Answers c s fun t => t.pending = s.pending) ∧ ∀ s : State, s.Safe)

/-- After every step from a settled state, no change of a channel's fault state still waits for what must follow it: the drops of R378, the
hub's HALTED words and the re-placement of R384 and R295, and the HELLO messages of R393. After a command this holds whatever the state
before. -/
def Obligations.StepLeavesNothingWaiting : Prop :=
  (∀ s t : State, s.m.Settled → step s = .next t → t.m.Settled) ∧
  (∀ (c : Instr) (s t : State), exec c s = .next t → t.m.Settled ∧ ∀ ch, (t.m.chan ch).safeDue = false ∧ (t.m.chan ch).haltDue = false ∧
    (t.m.chan ch).noticeDue = false)

/-- At reset nothing waits, the queue is empty, and memory and registers are in canonical form. -/
def Obligations.ResetIsSettled : Prop :=
  State.reset.m.Settled ∧ State.reset.pending = [] ∧ Memory.wf State.reset.m.mem ∧ Registers.wf State.reset.m.regs

/-- What reset leaves (R4, R462): every register word at the reset value its page map gives, every setting in force at the same value, memory
with nothing listed, no VIN, every channel NORMAL in C0 and not READY, and the worked values of some page maps. -/
def Obligations.ResetValues : Prop :=
  (∀ a, State.reset.m.reg a = regReset a) ∧
  (∀ k ch inst o hi lo, State.reset.m.inForce k ch inst o hi lo = State.reset.m.rdF k ch inst o hi lo) ∧
  (∀ a, State.reset.m.byte a = 0) ∧
  (∀ ch, ch < 8 → State.reset.m.fltState ch = 0 ∧ State.reset.m.cstate ch = 0 ∧ State.reset.m.chReady ch = false) ∧
  (∀ ch, ch < 8 →
    State.reset.m.rd .kvpCh ch 0 Off.KVP_CTL = 5 ∧ State.reset.m.rd .kvpCh ch 0 Off.KVP_CKPT = 0x40 ∧
    State.reset.m.rd .kvpCh ch 0 Off.KVP_HOLD = 0x10000 ∧ State.reset.m.rd .arrCh ch 0 Off.PG_SEV0 = 0x265) ∧
  State.reset.m.vin = false ∧ State.reset.m.perstLow = true ∧ State.reset.m.hubReady = false

/-! ### Register pages, the request table window and memory -/

/-- Every offset of every page that exists falls in that page and in no request table window: the pages of R441 do not overlap. Byte `o` of
entry `e` of a channel stands at offset 0x2_0000 + 128 × e + o of the channel's window, and on no page (R216, R441). -/
def Obligations.AddressMapIsDisjoint : Prop :=
  (∀ p : Page, p.valid = true → ∀ o, o < 0x1000 → Page.ofAddr (p.base + o) = some p ∧ rqtOfAddr (p.base + o) = none) ∧
  (∀ ch e o, ch < 8 → e < 512 → o < 128 →
    rqtOfAddr (chanWin ch + 0x20000 + 128 * e + o) = some (ch, e, o) ∧ Page.ofAddr (chanWin ch + 0x20000 + 128 * e + o) = none)

/-- Device memory: bytes written read back in order, every other byte keeps its value, and zeroing a range clears exactly that range. Every
operation on device memory and on register words keeps the canonical form, so that equal memories are equal data: two memories in canonical
form that read the same at every address are the same. A word of a page that is written reads back, and every word of every other page, and
every other word of that page, keeps its value. -/
def Obligations.MemoryAndRegistersHold : Prop :=
  (∀ (m : Dev) (a : Nat) (bs : List Byte),
    (m.setBytes a bs).bytes a bs.length = bs ∧
    (∀ b, b < a ∨ a + bs.length ≤ b → (m.setBytes a bs).byte b = m.byte b) ∧
    ∀ n b, (m.zero a n).byte b = if a ≤ b ∧ b < a + n then 0 else m.byte b) ∧
  ((∀ (m : Dev) (a : Nat) (bs : List Byte), Memory.wf m.mem → Memory.wf (m.setBytes a bs).mem) ∧
  (∀ (m : Dev) (a n : Nat), Memory.wf m.mem → Memory.wf (m.zero a n).mem) ∧
  (∀ (m : Dev) (a : Nat) (w : Word), Registers.wf m.regs → Registers.wf (m.setReg a w).regs) ∧
  ∀ m n : Dev, Memory.wf m.mem → Memory.wf n.mem → (∀ a, m.byte a = n.byte a) → m.mem = n.mem) ∧
  (∀ (m : Dev) (p q : Page) (o r : Nat) (w : Word), p.valid = true → q.valid = true → o < 0x1000 → r < 0x1000 →
    (m.wr p.kind p.ch p.inst o w).rd q.kind q.ch q.inst r = if p = q ∧ o = r then w else m.rd q.kind q.ch q.inst r)

/-! ### Platform management -/

/-- A direct CCC that reads is answered by a target that acknowledges: GETPID with the six bytes of the provisional ID of R482, BCR 0x0E, DCR
0x00, GETSTATUS with the pending kinds and the boot ROM mode, the limits with their values, and a private read with the response that is
kept, or PENDING with LEN 0 before the first (R481, R482, R484, R488). Nothing else changes. A target that does not acknowledge its address
NACKs every direct CCC and every private transfer, and nothing else changes: before step 4 of R470, without an address, or during a restart
(R481, R484, R492). CCCs that write: a target without an address offers PID, BCR and DCR and takes the address given; SETNEWDA changes it;
RSTDAA takes it from every target on the bus and keeps the response; ENEC and DISEC, to one target or to all, switch the interrupts, and an
event that waited is then sent; the limits take the value set, at most 1,030 (R482, R484, R486). Registers, memory and every other target
stay. -/
def Obligations.ManagementBusAnswers : Prop :=
  (∀ (s : State) (t : MgtIx), s.m.Settled → s.m.tgtAcks t.val = true →
    Gives (.getpid t) s (s.m.says (.i3c t.val true
      (bigBytes 6 (0x5A3 * 2 ^ 33 + 0x9600 * 2 ^ 16 + t.val * 2 ^ 12 + s.m.slotId.toNat * 2 ^ 6)))) ∧
    Gives (.getbcr t) s (s.m.says (.i3c t.val true [0x0E])) ∧
    Gives (.getdcr t) s (s.m.says (.i3c t.val true [0x00])) ∧
    Gives (.getstatus t) s (s.m.says (.i3c t.val true
      [0, BitVec.ofNat 8 (s.m.summary t.val % 16 + if (s.m.mgt t.val).bootRom then 64 else 0)])) ∧
    Gives (.getmwl t) s (s.m.says (.i3c t.val true (bigBytes 2 (s.m.mgt t.val).mwl))) ∧
    Gives (.getmrl t) s (s.m.says (.i3c t.val true (bigBytes 2 (s.m.mgt t.val).mrl ++ [BitVec.ofNat 8 (s.m.mgt t.val).ibiMax]))) ∧
    ∀ r, Gives (.mgtResponseRead t) { s with m := s.m.modMgt t.val fun m => { m with resp := r } }
      ((s.m.modMgt t.val fun m => { m with resp := r }).says (.i3c t.val true (r.getD (frame Code.PENDING 0 []))))) ∧
  (∀ (s : State) (t : MgtIx), s.m.Settled → s.m.tgtAcks t.val = false →
    ∀ c, c ∈ [Instr.getpid t, .getbcr t, .getdcr t, .getstatus t, .getmwl t, .getmrl t, .mgtResponseRead t, .enec (some t), .disec (some t)] ∨
        (∃ a, c = .setnewda t a) ∨ (∃ n, c = .setmwl (some t) n) ∨ (∃ n i, c = .setmrl (some t) n i) ∨
        (∃ tag, c ∈ [Instr.getInfo t tag, .getTime t tag, .evrClear t tag, .serviceOut t tag, .mgtRestart t tag, .getEvents t tag]) →
      Gives c s (s.m.says (.i3c t.val false []))) ∧
  (∀ (s : State) (t : MgtIx) (addr : BitVec 7) (n : BitVec 16) (ibi : Option Byte), s.m.Settled →
    (s.m.tgtOnBus t.val = true → (s.m.mgt t.val).da = none →
      Gives (.entdaa t addr) s ((s.m.says (.i3c t.val true (bigBytes 6 (s.m.pid t.val) ++ [0x0E, 0x00]))).modMgt t.val fun m =>
        { m with da := some addr.toNat })) ∧
    (∀ u, u < 9 → s.m.tgtOnBus u = true →
      let keeps (r : State) : Prop := SameWork s r ∧ r.m.regs = s.m.regs
      (Answers .rstdaa s fun r => keeps r ∧ r.m.mgt u = { s.m.mgt u with da := none }) ∧
      (Answers (.enec none) s fun r => keeps r ∧ (r.m.mgt u).ibiEn = true) ∧
      (Answers (.disec none) s fun r => keeps r ∧ r.m.mgt u = { s.m.mgt u with ibiEn := false }) ∧
      (Answers (.setmwl none n) s fun r => keeps r ∧ r.m.mgt u = { s.m.mgt u with mwl := min 1030 n.toNat }) ∧
      (Answers (.setmrl none n ibi) s fun r => keeps r ∧ r.m.mgt u = { s.m.mgt u with
        mrl := min 1030 n.toNat, ibiMax := match ibi with | some k => min 4 k.toNat | none => (s.m.mgt u).ibiMax })) ∧
    (s.m.tgtAcks t.val = true →
      let said := s.m.says (.i3c t.val true [])
      Gives (.setnewda t addr) s (said.modMgt t.val fun m => { m with da := some addr.toNat }) ∧
      Gives (.disec (some t)) s (said.modMgt t.val fun m => { m with ibiEn := false }) ∧
      ((s.m.mgt t.val).evs = [] ∨ (s.m.mgt t.val).ibi.isSome = true → Gives (.enec (some t)) s (said.modMgt t.val fun m => { m with ibiEn := true })) ∧
      (∀ e es, sortBy (fun a b => decide (a.1 ≤ b.1)) (s.m.mgt t.val).evs = e :: es → (s.m.mgt t.val).ibi = none →
        Gives (.enec (some t)) s ((said.modMgt t.val fun m => { m with ibiEn := true, ibi := some e }).says (.ibi t.val e.1 e.2.1 e.2.2.1 e.2.2.2))) ∧
      Gives (.setmwl (some t) n) s (said.modMgt t.val fun m => { m with mwl := min 1030 n.toNat }) ∧
      Gives (.setmrl (some t) n ibi) s (said.modMgt t.val fun m => { m with
        mrl := min 1030 n.toNat, ibiMax := match ibi with | some k => min 4 k.toNat | none => m.ibiMax })))

/-- Requests that read: the target acknowledges, and keeps the response frame until the next request: status, TAG, LEN, payload and CRC-16.
GET_TIME gives the calendar time and TSET, GET_EVENTS the event summary, which it clears but for the response's own event, GET_CERT the
bytes of a certificate, EVR_READ a count and the records still there, and a malformed or unknown request REJECTED or RANGE (R486 to R489,
R498, R506). No work of the channel changes. ATTEST answers with the report over the nonce and the channel's signature, 512 bytes, and
counts; READ_REG answers with the words of its channel's window (R490, R498, R499). A pending in-band interrupt is sent again; an accepted
one is pending no more, and counts in MGT_IBI of its channel (R486, R512). -/
def Obligations.ManagementReads : Prop :=
  (∀ (s : State) (t : MgtIx) (tag : Byte), s.m.Settled →
    (s.m.Serves t.val 0 9 → Answers (.getTime t tag) s fun r => SameWork s r ∧
      (r.m.mgt t.val).resp = some (frame Code.OK tag.toNat
        (toBytes 8 (s.m.calendar t.val) ++ [if (s.m.mgt t.val).tset then 1 else 0]))) ∧
    (s.m.Serves t.val 0 1 → Answers (.getEvents t tag) s fun r => SameWork s r ∧
      (r.m.mgt t.val).resp = some (frame Code.OK tag.toNat [BitVec.ofNat 8 (s.m.summary t.val)]) ∧ r.m.summary t.val = 2 ^ 3) ∧
    (s.m.Serves t.val 0 (s.m.infoOf t.val).length → t.val < 8 → s.m.rdF .mgtCh t.val 0 Off.PG_CTL 0 0 = 0 →
      Answers (.getInfo t tag) s fun r => SameWork s r ∧ (r.m.mgt t.val).resp = some (frame Code.OK tag.toNat (s.m.infoOf t.val)) ∧
        r.m.rd64 .mgtCh t.val 0 Off.MGT_REQ = (s.m.rd64 .mgtCh t.val 0 Off.MGT_REQ + 1) % 2 ^ 64) ∧
    (∀ (ix : Byte) (off : Nat), t.val < 8 → ix.toNat ≤ 1 → s.m.Serves t.val 3 (((Config.cert t.val ix.toNat).drop off).take 1024).length →
      Answers (.getCert t tag ix off) s fun r => SameWork s r ∧
        (r.m.mgt t.val).resp = some (frame Code.OK tag.toNat (((Config.cert t.val ix.toNat).drop off).take 1024))) ∧
    (∀ first n, t.val < 8 → 1 ≤ n → n ≤ 31 → s.m.Serves t.val 7 (1 + 32 * n) → Answers (.evrRead t tag first n) s fun r => SameWork s r ∧
      (r.m.mgt t.val).resp = some (frame Code.OK tag.toNat
        (BitVec.ofNat 8 (s.m.recsFrom t.val first n).length :: (s.m.recsFrom t.val first n).flatMap recBytes))) ∧
    (∀ (op : Byte) (crc len : Bool), s.m.Serves t.val 0 0 → Answers (.mgtRequestInvalid t op tag crc len) s fun r => SameWork s r ∧
      (r.m.mgt t.val).resp = some (frame (if crc && len then Code.RANGE else Code.REJECTED) tag.toNat []))) ∧
  (∀ (s : State) (ch : ChId) (tag : Byte), s.m.Settled →
    let t : MgtIx := ⟨ch.val, by omega⟩
    (∀ nonce : List Byte, nonce.length = 32 → s.m.Serves ch.val 32 512 →
      Answers (.attest t tag nonce) s fun r => SameWork s r ∧ (r.m.mgt ch.val).reports = (s.m.mgt ch.val).reports + 1 ∧
        ∃ body sig : List Byte, sig.length = 64 ∧ (r.m.mgt ch.val).resp = some (frame Code.OK tag.toNat (body ++ sig)) ∧
          body.take 4 = [0x47, 0x4B, 0x41, 0x54] ∧ (body.drop 0x20).take 32 = nonce) ∧
    (∀ off n, 1 ≤ n → n ≤ 64 → off % 4 = 0 → (∀ i, i < n → inWindow ch.val (off + 4 * i) = true) → s.m.Serves ch.val 5 (4 * n) →
      Answers (.readReg t tag off n) s fun r => SameWork s r ∧ ∃ ws : List Word, ws.length = n ∧
        (r.m.mgt ch.val).resp = some (frame Code.OK tag.toNat (ws.flatMap fun w => toBytes 4 w.toNat)) ∧
        ws.head? = some (((s.m.says (.i3c ch.val true [])).bump .mgtCh ch.val 0 Off.MGT_REQ 1).mgtRead 1 off).2) ∧
    (s.m.Serves ch.val 5 4 → Answers (.readReg t tag (pageOff .kvpCh ch.val 0 Off.KVP_CKPT) 1) s fun r => SameWork s r ∧
      (s.m.mgtUp ⟨.kvpCh, ch.val, 0⟩ = true →
        (r.m.mgt ch.val).resp = some (frame Code.OK tag.toNat (toBytes 4 (s.m.rd .kvpCh ch.val 0 Off.KVP_CKPT).toNat))))) ∧
  (∀ (s : State) (t : MgtIx) (k st cause seq : Nat), s.m.Settled → s.m.tgtAcks t.val = true → (s.m.mgt t.val).ibiEn = true →
    (s.m.mgt t.val).ibi = some (k, st, cause, seq) →
    Gives (.ibiRetry t false) s (s.m.says (.ibi t.val k st cause seq)) ∧
    Answers (.ibiRetry t true) s fun r =>
      r.m.out = s.m.out ++ [.ibi t.val k st cause seq] ∧ (r.m.mgt t.val).ibi = none ∧ SameWork s r ∧
      (t.val < 8 → s.m.rdF .mgtCh t.val 0 Off.PG_CTL 0 0 = 0 →
        r.m.rd64 .mgtCh t.val 0 Off.MGT_IBI = (s.m.rd64 .mgtCh t.val 0 Off.MGT_IBI + 1) % 2 ^ 64))

/-- Requests that act: SET_TIME sets the controller's calendar time and TSET, EVR_CLEAR leaves its own record 0x0321 as the oldest and newest,
FW_STAGE takes the bytes into the slot that is not active, which it invalidates at offset 0 and goes on with at another, SVN_COMMIT raises
the fused minimum to the running image's SVN, WRITE_REG writes a word, and MGT_RESTART stops answering (R489 to R492, R495, R497, R502,
R507). FW_ACTIVATE of a slot whose image was verified before makes it the active one, to run from the next start of its kind, and answers
OK, and the slots' contents stay; a staged image that passes the checks fills the slot and becomes active in the same way, and one that
fails one is REJECTED and changes no slot (R494 to R496). SERVICE_OUT takes a channel that is not HALTED out of service: it enters HALTED
with CAUSE 126, memory stays, and the response is OK; and the answer, where the channel is NORMAL, with no collective running and no pattern
loaded, is such a state (R384, R491). -/
def Obligations.ManagementActs : Prop :=
  (∀ (s : State) (ch : ChId) (tag : Byte), s.m.Settled →
    let t : MgtIx := ⟨ch.val, by omega⟩
    (∀ ms : Word64, s.m.Serves ch.val 8 0 → Answers (.setTime t tag ms) s fun r => SameWork s r ∧
      r.m.calendar ch.val = ms.toNat ∧ (r.m.mgt ch.val).tset = true ∧ (r.m.mgt ch.val).resp = some (frame Code.OK tag.toNat [])) ∧
    (s.m.Serves ch.val 0 0 → Answers (.evrClear t tag) s fun r => SameWork s r ∧
      (r.m.chan ch.val).evr.oldest = (s.m.chan ch.val).evr.next ∧ (r.m.chan ch.val).evr.next = (s.m.chan ch.val).evr.next + 1 ∧
      ((r.m.recAt ch.val (s.m.chan ch.val).evr.next).map (·.code) = some 0x0321 ∨ 2 ^ 48 ≤ (s.m.chan ch.val).evr.next) ∧
      ∀ q, q < (s.m.chan ch.val).evr.next → r.m.recAt ch.val q = none) ∧
    (∀ (kind : Byte) (chunk : List Byte), fwHas ch.val kind.toNat = true → 1 ≤ chunk.length → chunk.length ≤ 1016 →
      s.m.Serves ch.val (5 + chunk.length) 0 → (s.m.fw (fwKey ch.val kind.toNat)).path ≠ some 1 →
      Answers (.fwStage t tag kind 0 chunk) s fun r => SameWork s r ∧
        let f := s.m.fw (fwKey ch.val kind.toNat)
        let f' := r.m.fw (fwKey ch.val kind.toNat)
        (r.m.mgt ch.val).resp = some (frame Code.OK tag.toNat []) ∧ fwSlot f' (fwOther f) = FwSlot.empty ∧
          fwSlot f' f.active = fwSlot f f.active ∧ ∀ i, i < chunk.length → f'.staged.get 0 i = chunk.getD i 0) ∧
    (∀ (kind : Byte) (off : Nat) (chunk : List Byte), fwHas ch.val kind.toNat = true → 1 ≤ chunk.length → chunk.length ≤ 1016 → off ≠ 0 →
      off + chunk.length ≤ fwCap kind.toNat + 0x80 → s.m.Serves ch.val (5 + chunk.length) 0 → (s.m.fw (fwKey ch.val kind.toNat)).path = some 0 →
      Answers (.fwStage t tag kind off chunk) s fun r => SameWork s r ∧
        let f := s.m.fw (fwKey ch.val kind.toNat)
        let f' := r.m.fw (fwKey ch.val kind.toNat)
        (r.m.mgt ch.val).resp = some (frame Code.OK tag.toNat []) ∧ f'.slotA = f.slotA ∧ f'.slotB = f.slotB ∧ f'.got = f.got ++ [(off, off + chunk.length)] ∧
          ∀ a, f'.staged.get 0 a = if off ≤ a ∧ a < off + chunk.length then nth 0 chunk (a - off) else f.staged.get 0 a) ∧
    (∀ kind : Byte, fwHas ch.val kind.toNat = true → s.m.Serves ch.val 1 0 → (s.m.fw (fwKey ch.val kind.toNat)).running = true →
      (s.m.fw (fwKey ch.val kind.toNat)).commits < 64 → Answers (.svnCommit t tag kind) s fun r => SameWork s r ∧
        let f := s.m.fw (fwKey ch.val kind.toNat)
        let f' := r.m.fw (fwKey ch.val kind.toNat)
        f'.minSvn = max f.minSvn f.runSvn ∧ f'.commits = f.commits + 1 ∧ (r.m.mgt ch.val).resp = some (frame Code.OK tag.toNat [])) ∧
    (∀ (k : PageKind) (o : Nat) (row : RegRow) (w : Word), k = .thmCh ∨ k = .mgtCh → 0x100 ≤ o → o < 0x1000 → o % 4 = 0 → k.row o = some row → row.ctr = false →
      s.m.mgtUp ⟨k, ch.val, 0⟩ = true → s.m.Serves ch.val 8 0 → Answers (.writeReg t tag (pageOff k ch.val 0 o) [w]) s fun r => SameWork s r ∧
        r.m.rd k ch.val 0 o = ((s.m.rd k ch.val 0 o &&& ~~~row.rw &&& ~~~(w &&& row.w1c)) ||| (normWord k 0 o (s.m.rd k ch.val 0 o) w &&& row.rw)) ∧
        (r.m.mgt ch.val).resp = some (frame Code.OK tag.toNat [])) ∧
    (s.m.Serves ch.val 0 0 → Answers (.mgtRestart t tag) s fun r => SameWork s r ∧
      (r.m.mgt ch.val).restarting = true ∧ r.m.tgtAcks ch.val = false ∧ (r.m.chan ch.val).pemor.level = .locked)) ∧
  (∀ (s : State) (t : MgtIx) (tag kind : Byte), s.m.Settled → fwHas t.val kind.toNat = true → s.m.Serves t.val 1 0 →
    let g := s.m.fw (fwKey t.val kind.toNat)
    ((fwSlot g (fwOther g)).valid = false → Answers (.fwActivate t tag kind) s fun r => SameWork s r ∧
      let f' := r.m.fw (fwKey t.val kind.toNat)
      (fwCheck g kind.toNat = 0 → f'.active = fwOther g ∧ f'.pending = true ∧ (fwSlot f' (fwOther g)).valid = true ∧
        (fwSlot f' (fwOther g)).svn = fwPeek g.staged 8 2 ∧ fwSlot f' g.active = fwSlot g g.active ∧ (r.m.mgt t.val).resp = some (frame Code.OK tag.toNat [])) ∧
      (fwCheck g kind.toNat ≠ 0 → f' = g ∧ (r.m.mgt t.val).resp = some (frame Code.REJECTED tag.toNat []))) ∧
    ((fwSlot (s.m.fw (fwKey t.val kind.toNat)) (fwOther (s.m.fw (fwKey t.val kind.toNat)))).valid = true →
    Answers (.fwActivate t tag kind) s fun r => SameWork s r ∧
      let f := s.m.fw (fwKey t.val kind.toNat)
      let f' := r.m.fw (fwKey t.val kind.toNat)
      f'.active = fwOther f ∧ f'.pending = true ∧ f'.slotA = f.slotA ∧ f'.slotB = f.slotB ∧
        f'.runSlot = f.runSlot ∧ (r.m.mgt t.val).resp = some (frame Code.OK tag.toNat []))) ∧
  (∀ (s : State) (ch : ChId) (tag : Byte), s.m.Serves ch.val 0 0 → s.m.fltState ch.val ≠ 2 →
    let halts (r : State) : Prop := r.m.fltState ch.val = 2 ∧ r.m.rdF .fltCh ch.val 0 Off.FLT_STA 10 4 = 126 ∧ SameBytes s r ∧ r.m.rqt = s.m.rqt ∧
      (r.m.mgt ch.val).resp = some (frame Code.OK tag.toNat [])
    Does (.serviceOut ⟨ch.val, by omega⟩ tag) s halts ∧
    (s.m.Settled → s.m.fltState ch.val = 0 → s.m.NoWork ch.val → Answers (.serviceOut ⟨ch.val, by omega⟩ tag) s halts))

/-- SEC_FW_CMD: STAGE takes the image from host memory into the slot that is not active of every die it names, or of none while one of them
stages by I3C (BUSY); ACTIVATE makes a verified slot the active one. SEC_FW_STA gives the code and a done bit per die (R495, R496, R515). -/
def Obligations.SecFwCommands : Prop :=
  ∀ (s : State) (fn : Fn) (w : Word) (host : HostView), s.m.Settled → s.m.Writes fn ⟨.secMod, 0, 0⟩ Off.SEC_FW_CMD →
    let kind := fld w 1 0
    let ds := fwTargets w
    let n := (s.m.rd .secMod 0 0 Off.SEC_FW_SIZE).toNat
    let done (r : State) (d : Nat) : Prop := r.m.rdF .secMod 0 0 Off.SEC_FW_STA (16 + d) (16 + d) = 1
    ds ≠ [] →
    (1 ≤ n → n ≤ fwCap kind + 0x80 → (∀ d ∈ ds, (s.m.fw (fwKey d kind)).path = none) →
      Answers (.secFwStage fn w host) s fun r => SameWork s r ∧ r.m.rdF .secMod 0 0 Off.SEC_FW_STA 7 0 = Code.OK ∧
        ∀ d ∈ ds, done r d ∧ (r.m.fw (fwKey d kind)).got = [(0, n)] ∧
          ∀ i, i < n → (r.m.fw (fwKey d kind)).staged.get 0 i = hostByte host (s.m.rd64 .secMod 0 0 Off.SEC_FW_SRC + i)) ∧
    (∀ d ∈ ds, (s.m.fw (fwKey d kind)).path = some 0 → Answers (.secFwStage fn w host) s fun r => SameWork s r ∧
      r.m.fws = s.m.fws ∧ r.m.rdF .secMod 0 0 Off.SEC_FW_STA 7 0 = Code.BUSY) ∧
    ((∀ d ∈ ds, (fwSlot (s.m.fw (fwKey d kind)) (fwOther (s.m.fw (fwKey d kind)))).valid = true) →
      Answers (.secFwActivate fn w) s fun r => SameWork s r ∧ r.m.rdF .secMod 0 0 Off.SEC_FW_STA 7 0 = Code.OK ∧
        ∀ d ∈ ds, done r d ∧ (r.m.fw (fwKey d kind)).active = fwOther (s.m.fw (fwKey d kind)))

/-- The event recorder: a record reaches non-volatile memory, or the failure is kept and raised; a code's bucket gains a token; EVR_CUR moves
the writer's cursor when its high word is written, and no other reader's (R501, R504, R506). -/
def Obligations.RecorderCommands : Prop :=
  ∀ (s : State) (ch : ChId), s.m.Settled →
    (s.m.aux = true → (s.m.chan ch.val).evr.stored < (s.m.chan ch.val).evr.next → Answers (.evrNvWrite ch true) s fun r => SameWork s r ∧
      r.m.regs = s.m.regs ∧ (r.m.chan ch.val).evr.stored = (s.m.chan ch.val).evr.stored + 1) ∧
    (s.m.aux = true → (s.m.chan ch.val).evr.stored < (s.m.chan ch.val).evr.next → s.m.Records ch.val 91 →
      Answers (.evrNvWrite ch false) s fun r => SameWork s r ∧ (r.m.chan ch.val).evr.nvFail = true ∧
        bit (r.m.rd .mgtCh ch.val 0 Off.PG_FLT) 1 = true) ∧
    (∀ code : BitVec 16, s.m.aux = true → Answers (.evrTokenRefill ch code) s fun r => SameWork s r ∧ r.m.regs = s.m.regs ∧
      (r.m.chan ch.val).evr.used.get 0 code.toNat = (s.m.chan ch.val).evr.used.get 0 code.toNat - 1 ∧
      ∀ c, c ≠ code.toNat → (r.m.chan ch.val).evr.used.get 0 c = (s.m.chan ch.val).evr.used.get 0 c) ∧
    (∀ (fn : Fn) (rdr : Nat) (w : Word), (fn = .pf0 ∧ rdr = 0) ∨ (fn = .mgt ∧ rdr = 1) →
      (s.m.Writes fn ⟨.evrCh, ch.val, 0⟩ (Off.EVR_CUR + 4) → (s.m.chan ch.val).evr.cursors.length = 3 →
        Answers (.evrCurWrite fn ch true w) s fun r => SameWork s r ∧ r.m.regs = s.m.regs ∧
          r.m.cursor ch.val rdr = w.toNat % 65536 * 2 ^ 32 + nth 0 (s.m.chan ch.val).evr.curLo rdr ∧
          ∀ k, k ≠ rdr → r.m.cursor ch.val k = s.m.cursor ch.val k) ∧
      (s.m.Writes fn ⟨.evrCh, ch.val, 0⟩ Off.EVR_CUR → (s.m.chan ch.val).evr.curLo.length = 3 →
        Answers (.evrCurWrite fn ch false w) s fun r => SameWork s r ∧ r.m.regs = s.m.regs ∧
          nth 0 (r.m.chan ch.val).evr.curLo rdr = w.toNat ∧ ∀ k, r.m.cursor ch.val k = s.m.cursor ch.val k))

/-! ### The Pemor monitor -/

/-- Pemor commands that only print: id at every level; status, rd, evr, mon and baud at READ; mem at FULL, with the bytes of the channel's T1 or
T2 (R508, R510). evr moves the Pemor cursor past what it printed, baud keeps the rate; nothing else changes. A Pemor command above the
monitor's level, or any but id in boot ROM mode, prints denied and does nothing (R509, R510). -/
def Obligations.PemorPrintsAndDenies : Prop :=
  (∀ (s : State) (ch : ChId), s.m.Settled →
    (s.m.pemOn ch.val = true → Gives (.pemorId ch) s (s.m.says (.uart ch.val "id"
      (hexWords ((Config.serial ++ List.replicate 16 0).take 16) ++ [ch.val, 0xB1, lvl (s.m.pem ch.val).level, (s.m.mgt ch.val).bootRom.toNat])))) ∧
    (s.m.PemOpen ch.val 1 →
      Gives (.pemorStatus ch) s (s.m.says (.uart ch.val "status"
        [s.m.fltState ch.val, fld (s.m.pageWord ⟨.thmCh, ch.val, 0⟩ 2 Off.THM_CH_STA) 2 0, s.m.cstate ch.val, (s.m.chReady ch.val).toNat])) ∧
      (∀ off n, 1 ≤ n → n ≤ 64 → off % 4 = 0 → (∀ i, i < n → inWindow ch.val (off + 4 * i) = true) → Answers (.pemorRd ch off n) s fun r => SameWork s r ∧
        r.m.regs = s.m.regs ∧ ∃ ws, ws.length = n ∧ ws.head? = some (s.m.mgtRead 2 off).2.toNat ∧ r.m.out = s.m.out ++ [.uart ch.val "rd" ws]) ∧
      (∀ q n, 1 ≤ n → n ≤ 32 → (s.m.chan ch.val).evr.cursors.length = 3 → Answers (.pemorEvr ch (some q) (some n)) s fun r => SameWork s r ∧
        r.m.out = s.m.out ++ [.uart ch.val "evr" (((s.m.recsFrom ch.val q n).flatMap recBytes).map (·.toNat))] ∧
        r.m.cursor ch.val 0 = s.m.cursor ch.val 0 ∧
        r.m.cursor ch.val 2 = (match (s.m.recsFrom ch.val q n).getLast? with | some x => x.seq + 1 | none => q) % 2 ^ 48) ∧
      (∀ cl : ClId, Gives (.pemorMon ch cl) s (s.m.says (.uart ch.val "mon"
        ((List.range 16).map fun i => (s.m.pageWord ⟨.mon, ch.val, cl.val⟩ 2 (Off.MON_RES + 4 * i)).toNat)))) ∧
      (∀ rate, rate ∈ [115200, 460800, 921600, 1500000, 3000000] →
        Gives (.pemorBaud ch rate) s ((s.m.says (.uart ch.val "baud" [rate])).modPem ch.val fun p => { p with baud := rate }))) ∧
    (s.m.PemOpen ch.val 2 → ∀ (addr : Word64) (n : Nat), 1 ≤ n → n ≤ 256 → addr.toNat / 2 ^ 46 = ch.val → addr.toNat / 2 ^ 44 % 4 ≤ 1 →
      addr.toNat % 2 ^ 44 + n ≤ tierBytes (addr.toNat / 2 ^ 44 % 4) →
      Gives (.pemorMem ch addr n) s (s.m.says (.uart ch.val "mem" ((s.m.viewBytes addr.toNat n).map (·.toNat)))))) ∧
  (∀ (s : State) (ch : ChId), s.m.Settled → s.m.pemOn ch.val = true →
    ((s.m.mgt ch.val).bootRom = true ∨ (s.m.pem ch.val).level = .locked →
      ∀ c, c ∈ [Instr.pemorStatus ch, .pemorJtagOpen ch, .pemorJtagClose ch] ∨ (∃ o n, c = .pemorRd ch o n) ∨ (∃ q n, c = .pemorEvr ch q n) ∨
        (∃ cl, c = .pemorMon ch cl) ∨ (∃ b, c = .pemorBaud ch b) ∨ (∃ o w, c = .pemorWr ch o w) ∨ (∃ i, c = .pemorForce ch i) ∨
        (∃ a n, c = .pemorMem ch a n) → Gives c s (s.m.says (.uart ch.val "denied" []))) ∧
    ((s.m.pem ch.val).level = .read →
      ∀ c, c ∈ [Instr.pemorJtagOpen ch, .pemorJtagClose ch] ∨ (∃ o w, c = .pemorWr ch o w) ∨ (∃ i, c = .pemorForce ch i) ∨
        (∃ a n, c = .pemorMem ch a n) → Gives c s (s.m.says (.uart ch.val "denied" []))) ∧
    (s.m.rdF .mgtCh ch.val 0 Off.MGT_CTL 0 0 = 0 →
      ∀ level, Gives (.pemorUnlock ch level) s (s.m.says (.uart ch.val "denied" []))))

/-- Unlocking the Pemor monitor: unlock prints a fresh nonce, good for one attempt at one level; resp with a good signature opens that level,
and a bad one opens nothing; lock and 30 minutes without input return to LOCKED and close JTAG; a nonce expires; a lockout ends (R509,
R510). No work of the channel changes. The Pemor commands of level FULL: wr writes one word as WRITE_REG, force raises a source as PG_FRC
does, jtag open and close move the JTAG debug instructions while JTAG_DBG_EN is 1 (R490, R510). -/
def Obligations.PemorUnlocksAndActs : Prop :=
  (∀ (s : State) (ch : ChId), s.m.Settled →
    let p := s.m.pem ch.val
    (∀ level, level ≠ .locked → s.m.PemOpen ch.val 0 → s.m.rdF .mgtCh ch.val 0 Off.MGT_CTL 0 0 = 1 → p.lockout = false →
      Gives (.pemorUnlock ch level) s ((s.m.modPem ch.val fun p => { p with nonce := some (p.nonces, level), nonces := p.nonces + 1 }).says
        (.uart ch.val "nonce" (hexWords (nonceBytes ch.val p.nonces))))) ∧
    (∀ (sig : List Byte) (k : Nat) (level : PemorLevel), s.m.PemOpen ch.val 0 → s.m.rdF .mgtCh ch.val 0 Off.MGT_CTL 0 0 = 1 →
      p.lockout = false → p.nonce = some (k, level) → sig.length = 64 → s.m.Records ch.val 93 →
      let good := Config.debugVerify ([0x50, 0x45, 0x4D, 0x4F, 0x52] ++ (Config.serial ++ List.replicate 16 0).take 16 ++
        [BitVec.ofNat 8 ch.val, BitVec.ofNat 8 (lvl level)] ++ nonceBytes ch.val k) sig
      Answers (.pemorResp ch sig) s fun r => SameWork s r ∧ (r.m.pem ch.val).nonce = none ∧
        (r.m.pem ch.val).level = (if good = true then level else p.level) ∧ (r.m.pem ch.val).opened = (good || p.opened)) ∧
    (s.m.PemOpen ch.val 0 → Answers (.pemorLock ch) s fun r => SameWork s r ∧ (r.m.pem ch.val).level = .locked ∧ (r.m.pem ch.val).jtag = false) ∧
    (s.m.pemOn ch.val = true → Answers (.pemorIdleTimeout ch) s fun r =>
      SameWork s r ∧ (r.m.pem ch.val).level = .locked ∧ (r.m.pem ch.val).jtag = false) ∧
    Gives (.pemorNonceExpire ch) s (s.m.modPem ch.val fun p => { p with nonce := none }) ∧
    Gives (.unlockLockoutEnd ch) s (s.m.modPem ch.val fun p => { p with lockout := false })) ∧
  (∀ (s : State) (ch : ChId), s.m.Settled → s.m.PemOpen ch.val 2 →
    (∀ (k : PageKind) (o : Nat) (row : RegRow) (w : Word), k = .thmCh ∨ k = .mgtCh → 0x100 ≤ o → o < 0x1000 → o % 4 = 0 → k.row o = some row →
      s.m.mgtUp ⟨k, ch.val, 0⟩ = true → Answers (.pemorWr ch (pageOff k ch.val 0 o) w) s fun r => SameWork s r ∧
        r.m.rd k ch.val 0 o = ((s.m.rd k ch.val 0 o &&& ~~~row.rw &&& ~~~(w &&& row.w1c)) ||| (normWord k 0 o (s.m.rd k ch.val 0 o) w &&& row.rw)) ∧
        SameRegs s r (· = pageOff k ch.val 0 o) ∧ r.m.out = s.m.out ++ [.uart ch.val "ok" []]) ∧
    (∀ ix : Fin 96, (collector ix.val).2 < (collector ix.val).1.nsrc → s.m.Records ch.val ix.val →
      Answers (.pemorForce ch ix) s fun r => SameWork s r ∧
        bit (r.m.rd (collector ix.val).1 ch.val 0 Off.PG_FLT) (collector ix.val).2 = true) ∧
    (s.m.rdF .mgtCh ch.val 0 Off.MGT_CTL 1 1 = 1 → Answers (.pemorJtagOpen ch) s fun r => SameWork s r ∧
      (r.m.pem ch.val).jtag = true ∧ (r.m.pem ch.val).jtagOpened = true) ∧
    ((s.m.pem ch.val).jtag = true → Answers (.pemorJtagClose ch) s fun r => SameWork s r ∧ (r.m.pem ch.val).jtag = false))

/-! ### Supplies, resets and the start -/

/-- Power-on reset returns every register, memory byte, request table entry, sequence and context to its power-on value, samples SLOT_ID,
counts, and keeps of the tiles what R466 lists: levels, column maps, wear, RETIRED and the calibration tables (R455, R462, R466). Supplies:
VIN starts once AUX_PG is high; its loss leaves nothing of the VIN side, and with OFF_OK all that M3 keeps stays as it was; a loss of VAUX
clears the management side and moves every recorder's numbering to its high-water mark; 100 ms after THERMTRIP_N the module switches its own
regulators off (R453, R454, R461, R469, R505, R524). -/
def Obligations.SuppliesAndPowerOn : Prop :=
  ((∀ (s : State) (slot : BitVec 6), Answers (.powerOnReset slot) s fun r =>
    (∀ a, r.m.reg a = regReset a) ∧ (∀ a, r.m.byte a = 0) ∧ r.m.rqt = [] ∧ r.m.seqs = [] ∧ r.m.ctxs = [] ∧
    r.m.slotId = slot ∧ r.m.porCount = s.m.porCount + 1 ∧ r.m.opSecs = s.m.opSecs ∧ r.m.aux = true ∧ r.m.vin = false ∧ r.m.perstLow = true ∧
    r.m.hubReady = false ∧ r.m.tiles = s.m.tiles.mapV' Tile.reset keepTile ∧ r.pending = s.pending) ∧
  ∀ k t, (keepTile k t).levels = t.levels ∧ (keepTile k t).colMap = t.colMap ∧ (keepTile k t).wear = t.wear ∧ (keepTile k t).calB = t.calB ∧
    (keepTile k t).slices = [] ∧ (t.state = .retired → (keepTile k t).state = .retired)) ∧
  (∀ s : State, s.m.Settled →
    (s.m.auxPg = true → s.m.vin = false → s.m.selfOff = false → (∀ ch, ch < 8 → (fwSlot (s.m.fw (fwKey ch 1)) (s.m.fw (fwKey ch 1)).active).valid = true ∧
        (s.m.chan ch).baseBad < 2) →
      Answers .vinStart s fun r => r.m.vin = true ∧ SameBytes s r ∧ r.m.rqt = s.m.rqt ∧ ∀ ch, ch < 8 → (s.m.mgt ch).bootRom = false →
        r.m.chInit ch = true ∧ r.m.initStep ch = 4 ∧ r.m.chReady ch = false ∧ (r.m.chan ch).linkUp = true) ∧
    (s.m.vin = true → (Answers .powerFailure s fun r => r.m.vin = false ∧ r.m.mem = [] ∧ r.m.rqt = [] ∧ r.m.ctxs = [] ∧ r.m.seqs = [] ∧ r.m.hubReady = false) ∧
      (s.m.thermtrip = true → Answers .thermtripVinTimeout s fun r => r.m.vin = false ∧ r.m.selfOff = true ∧ r.m.mem = [] ∧ r.m.rqt = [] ∧ r.m.ctxs = [])) ∧
    (s.m.vin = true → s.m.rdF .pwrMod 0 0 Off.PWR_MOD_STA 4 4 = 1 →
      (Answers .powerFailure s fun r => r.m.vin = false ∧ r.m.mem = [] ∧ r.m.rqt = [] ∧ r.m.ctxs = [] ∧ r.m.hubReady = false ∧
        r.m.aux = s.m.aux ∧ r.m.mgts = s.m.mgts ∧ r.m.slotId = s.m.slotId ∧ r.m.tiles = s.m.tiles.mapV' Tile.reset keepTile) ∧
      (s.m.thermtrip = true → Answers .thermtripVinTimeout s fun r => r.m.vin = false ∧ r.m.selfOff = true ∧ r.m.mem = [])) ∧
    (s.m.aux = true → Answers .vauxLoss s fun r => r.m.aux = false ∧ r.m.auxPg = false ∧ r.m.mgts = [] ∧ r.m.regs = s.m.regs ∧ SameWork s r ∧
      ∀ ch, ch < 8 → (r.m.chan ch).evr.next = (s.m.chan ch).evr.next + 63 ∧ (r.m.chan ch).pemor = Pemor.fresh))

/-- The start of the management side: a controller whose active slot verifies acknowledges from then on, and the ninth raises AUX_PG; one that
reaches the limit of 100 ms acknowledges in boot ROM mode; one that restarts answers again once its firmware verifies (R470, R481, R492,
R495, R522). The end of a start: the hub answers configuration from HUB_CONFIG_READY on; a channel whose start is complete, NORMAL and cool
becomes READY, OK where a command waited for it; T2 counts as zeroed; a start that overruns a limit ends with INIT_FAIL at HALT and the step
that failed (R472, R474 to R476, R478). -/
def Obligations.StartsComplete : Prop :=
  (∀ (s : State) (t : MgtIx), s.m.Settled → s.m.aux = true →
    ((s.m.mgt t.val).acks = true → (s.m.mgt t.val).restarting = true → (fwSlot (s.m.fw (fwKey t.val 0)) (s.m.fw (fwKey t.val 0)).active).valid = true →
      Answers (.mgtFwVerifyDone t) s fun r => SameWork s r ∧ (r.m.mgt t.val).restarting = false ∧ (r.m.mgt t.val).acks = true ∧ (r.m.mgt t.val).bootRom = false ∧
        (r.m.mgt t.val).resp = (s.m.mgt t.val).resp) ∧
    ((s.m.mgt t.val).acks = false → (s.m.mgt t.val).restarting = false → (fwSlot (s.m.fw (fwKey t.val 0)) (s.m.fw (fwKey t.val 0)).active).valid = true →
      Answers (.mgtFwVerifyDone t) s fun r => SameWork s r ∧ (r.m.mgt t.val).acks = true ∧ (r.m.mgt t.val).bootRom = false ∧
        (r.m.fw (fwKey t.val 0)).running = true ∧ ((∀ i, i < 9 → i ≠ t.val → (s.m.mgt i).acks = true) → r.m.auxPg = true)) ∧
    ((s.m.mgt t.val).acks = false → ∀ ch : ChId, ch.val = t.val → Answers (.initLimitExpire ch .mgtVerify) s fun r => SameWork s r ∧ r.m.regs = s.m.regs ∧
      (r.m.mgt t.val).acks = true ∧ (r.m.mgt t.val).bootRom = true)) ∧
  (∀ (s : State) (ch : ChId), s.m.Settled →
    (s.m.vin = true → s.m.perstLow = false → Answers .hubConfigReady s fun r => r.m.hubReady = true ∧ SameWork s r ∧ r.m.regs = s.m.regs) ∧
    (s.m.powered ch.val = true → s.m.chInit ch.val = true → 4 ≤ s.m.initStep ch.val → s.m.cstate ch.val = 0 → s.m.startDone ch.val = true →
      s.m.fltState ch.val = 0 → s.m.coolEnough ch.val = true →
      Answers (.channelReadySet ch) s fun r => r.m.chReady ch.val = true ∧ r.m.chInit ch.val = false ∧ r.m.initStep ch.val = 0 ∧
        (r.m.chan ch.val).inReset = false ∧ SameBytes s r ∧ r.m.tiles = s.m.tiles ∧
        (s.m.rdF .pwrCh ch.val 0 Off.PWR_CH_STA 15 8 = Code.PENDING → r.m.rdF .pwrCh ch.val 0 Off.PWR_CH_STA 15 8 = Code.OK)) ∧
    (s.m.powered ch.val = true → (s.m.memOf ch.val).zeroed = true →
      Gives (.t2ZeroingDone ch) s (s.m.modMem ch.val fun m => { m with zeroed2 := true })) ∧
    (s.m.powered ch.val = true → s.m.chInit ch.val = true → s.m.cstate ch.val ≠ 2 → s.m.fltState ch.val ≠ 2 → ∀ w k, (w, k) ∈ [(InitWait.training, 2), (.t1Zero, 3), (.arrayCheck, 4), (.retention, 5)] →
      Does (.initLimitExpire ch w) s fun r => r.m.chInit ch.val = false ∧ r.m.initStep ch.val = k ∧ r.m.fltState ch.val = 2 ∧
        r.m.rdF .fltCh ch.val 0 Off.FLT_STA 10 4 = 95 ∧ SameBytes s r ∧ r.m.rqt = s.m.rqt) ∧
    (s.m.powered ch.val = true → s.m.chInit ch.val = true → s.m.cstate ch.val = 0 → s.m.fltState ch.val = 0 → s.m.NoWork ch.val →
      Answers (.initLimitExpire ch .t1Zero) s fun r => r.m.chInit ch.val = false ∧ r.m.initStep ch.val = 3 ∧ r.m.fltState ch.val = 2 ∧
        r.m.rdF .fltCh ch.val 0 Off.FLT_STA 10 4 = 95 ∧ SameBytes s r))

/-- PERST_N: asserted while the hub runs it stops the hub, and a reset is due; released with none due it only rises; released with one due,
memory, request table and contexts are cleared and the channels start again, each in INIT (R462, R465, R466). Channel reset and HALTED
reset: a reset of a channel that starts is BUSY, a HALTED reset of one that is not HALTED is RANGE; a channel reset clears the channel's
memory and table and starts it again; a HALTED reset clears HALTED, keeps memory, table and settings, and waits for READY (R463, R464, R466,
R480). -/
def Obligations.ResetsClear : Prop :=
  (∀ s : State, s.m.Settled →
    (s.m.vin = true → s.m.hubReady = true → (Answers .perstNAssert s fun r =>
      r.m.perstLow = true ∧ r.m.hubReady = false ∧ r.m.perstReset = true ∧ r.m.rd .hub 0 0 Off.HUB_STA = 0)) ∧
    (s.m.hubReady = false → Gives .perstNAssert s { s.m with perstLow := true }) ∧
    (s.m.perstReset = false → Gives .perstNRelease s { s.m with perstLow := false, perstReset := false }) ∧
    (s.m.perstReset = true → s.m.vin = true →
      (∀ ch, ch < 8 → (fwSlot (s.m.fw (fwKey ch 1)) (s.m.fw (fwKey ch 1)).active).valid = true ∧ (s.m.chan ch).baseBad < 2) →
      Answers .perstNRelease s fun r => r.m.perstLow = false ∧ r.m.perstReset = false ∧ r.m.vin = true ∧ r.m.mem = [] ∧ r.m.ctxs = [] ∧
        r.m.time = s.m.time ∧ r.m.plank = s.m.plank ∧ ∀ ch, ch < 8 → (s.m.mgt ch).bootRom = false → r.m.chInit ch = true ∧ r.m.chReady ch = false)) ∧
  (∀ (s : State) (fn : Fn) (ch : ChId) (drifted : List (Nat × Nat)), s.m.Settled → s.m.vin = true → s.m.Writes fn ⟨.pwrCh, ch.val, 0⟩ Off.PWR_CH_CMD → s.m.chClosed ch.val = false →
    (s.m.chInit ch.val = true → Answers (.channelReset fn ch) s fun r => SameWork s r ∧
      r.m.rdF .pwrCh ch.val 0 Off.PWR_CH_STA 15 8 = Code.BUSY ∧ SameRegs s r (· = pageOff .pwrCh ch.val 0 Off.PWR_CH_STA)) ∧
    (s.m.chInit ch.val = false → s.m.fltState ch.val = 0 → Answers (.haltedReset fn ch drifted) s fun r => SameWork s r ∧
      r.m.rdF .pwrCh ch.val 0 Off.PWR_CH_STA 15 8 = Code.RANGE ∧ SameRegs s r (· = pageOff .pwrCh ch.val 0 Off.PWR_CH_STA)) ∧
    (s.m.chInit ch.val = false → s.m.fltState ch.val = 2 → (fwSlot (s.m.fw (fwKey ch.val 1)) (s.m.fw (fwKey ch.val 1)).active).valid = true → (s.m.chan ch.val).baseBad < 2 →
      Does (.channelReset fn ch) s fun r => r.m.fltState ch.val = 0 ∧ r.m.chInit ch.val = true ∧ (r.m.chan ch.val).inReset = true ∧
        (∀ a, tierBase ch.val 0 ≤ a → a < tierBase (ch.val + 1) 0 → r.m.byte a = 0) ∧ (∀ e, e < 512 → r.m.st (ch.val * 512 + e) = St.FREE) ∧
        r.m.rdF .pwrCh ch.val 0 Off.PWR_CH_STA 15 8 = Code.PENDING) ∧
    (s.m.chInit ch.val = false → s.m.fltState ch.val = 2 → s.m.ctxs = [] → (∀ r, s.m.st r = St.FREE) → (s.m.chan ch.val).baseBad < 2 →
      (fwSlot (s.m.fw (fwKey ch.val 1)) (s.m.fw (fwKey ch.val 1)).active).valid = true →
      Answers (.channelReset fn ch) s fun r => r.m.fltState ch.val = 0 ∧ r.m.chInit ch.val = true ∧ (r.m.chan ch.val).inReset = true ∧
        (∀ a, tierBase ch.val 0 ≤ a → a < tierBase (ch.val + 1) 0 → r.m.byte a = 0) ∧
        (∀ a, a < tierBase ch.val 0 ∨ tierBase (ch.val + 1) 0 ≤ a → r.m.byte a = s.m.byte a) ∧
        r.m.rdF .pwrCh ch.val 0 Off.PWR_CH_STA 15 8 = Code.PENDING) ∧
    (s.m.chInit ch.val = false → s.m.fltState ch.val = 2 → s.m.cstate ch.val ≠ 2 → (s.m.chan ch.val).baseBad < 2 → Answers (.haltedReset fn ch drifted) s fun r =>
      r.m.fltState ch.val = 0 ∧ r.m.chInit ch.val = true ∧ r.m.chReady ch.val = false ∧ (r.m.chan ch.val).inReset = true ∧
        (r.m.chan ch.val).resumeDue = true ∧ SameBytes s r ∧ r.m.rqt = s.m.rqt ∧ r.m.seqs = s.m.seqs ∧
        r.m.rdF .pwrCh ch.val 0 Off.PWR_CH_STA 15 8 = Code.PENDING))

/-- C1 and C2: a channel idle for C1_IDLE planks, and not busy, enters C1; C2 of an idle channel keeps its memory and settings, stops its link's
work and counts; C0 of a channel that is in C2 starts its return, PENDING until it is READY, and after a year without power re-programs
every tile that holds slices; M0 does so with every channel in C2, and with none is OK (R457 to R460, R468, R480). M2 puts every channel
that refuses nothing into C2 and reads OK; M3 puts every channel into the safe state, sets OFF_OK and reads OK (R460, R461, R479). -/
def Obligations.PowerStatesMove : Prop :=
  (∀ (s : State) (fn : Fn) (ch : ChId), s.m.Settled → s.m.vin = true →
    (s.m.serves ch.val = true → s.m.cstate ch.val = 0 → s.m.inForce .pwrCh ch.val 0 Off.PWR_CH_CTL 8 8 = 1 → s.m.chBusy ch.val = false →
      max 1 (s.m.inForce .pwrCh ch.val 0 Off.PWR_CH_CTL 7 0) ≤ (s.m.chan ch.val).idle →
      Answers (.c1Entry ch) s fun r => SameWork s r ∧ r.m.cstate ch.val = 1 ∧ SameRegs s r (· = pageOff .pwrCh ch.val 0 Off.PWR_CH_STA)) ∧
    (s.m.Writes fn ⟨.pwrCh, ch.val, 0⟩ Off.PWR_CH_CMD → s.m.cstate ch.val ≠ 2 → s.m.c2Refused ch.val = false → (s.m.chan ch.val).fab.colls = [] →
      Answers (.pwrChCmdC2 fn ch) s fun r => r.m.cstate ch.val = 2 ∧ r.m.chReady ch.val = false ∧ (r.m.chan ch.val).saved = true ∧ SameBytes s r ∧
        r.m.rqt = s.m.rqt ∧ r.m.rdF .pwrCh ch.val 0 Off.PWR_CH_STA 15 8 = Code.OK) ∧
    (s.m.Writes fn ⟨.pwrCh, ch.val, 0⟩ Off.PWR_CH_CMD → s.m.cstate ch.val ≠ 2 → s.m.c2Refused ch.val = false → Does (.pwrChCmdC2 fn ch) s fun r =>
      r.m.cstate ch.val = 2 ∧ r.m.chReady ch.val = false ∧ (r.m.chan ch.val).saved = true ∧ r.m.rdF .pwrCh ch.val 0 Off.PWR_CH_STA 15 8 = Code.OK) ∧
    (∀ t0, s.m.Writes fn ⟨.pwrCh, ch.val, 0⟩ Off.PWR_CH_CMD → s.m.cstate ch.val = 2 → (s.m.chan ch.val).offAt = some t0 → t0 + 31536001000 ≤ s.m.mgtMs →
      ∀ drifted, Answers (.pwrChCmdC0 fn ch drifted) s fun r =>
        r.m.cstate ch.val = 0 ∧ r.m.chInit ch.val = true ∧ r.m.initStep ch.val = 5 ∧ SameBytes s r ∧ r.m.rqt = s.m.rqt ∧
        r.m.rdF .pwrCh ch.val 0 Off.PWR_CH_STA 15 8 = Code.PENDING ∧ ∀ k ∈ s.m.heldTiles ch.val, (r.m.tile k).prog = some .retention ∧ (r.m.tile k).next = some .programming) ∧
    (∀ t0, s.m.Writes fn ⟨.pwrCh, ch.val, 0⟩ Off.PWR_CH_CMD → s.m.cstate ch.val = 2 → (s.m.chan ch.val).offAt = some t0 → s.m.mgtMs < t0 + 259201000 →
      ∀ drifted, Answers (.pwrChCmdC0 fn ch drifted) s fun r =>
        r.m.cstate ch.val = 0 ∧ r.m.chInit ch.val = true ∧ r.m.initStep ch.val = 4 ∧ (r.m.chan ch.val).saved = false ∧ SameBytes s r ∧
        r.m.rqt = s.m.rqt ∧ r.m.tiles = s.m.tiles ∧ r.m.rdF .pwrCh ch.val 0 Off.PWR_CH_STA 15 8 = Code.PENDING) ∧
    (s.m.Writes fn ⟨.pwrMod, 0, 0⟩ Off.PWR_MOD_CMD → (∀ c, c < 8 → s.m.cstate c ≠ 2) → ∀ drifted, Answers (.pwrModCmdM0 fn drifted) s fun r => SameWork s r ∧
      r.m.rdF .pwrMod 0 0 Off.PWR_MOD_STA 28 21 = Code.OK ∧ SameRegs s r (· = pageOff .pwrMod 0 0 Off.PWR_MOD_STA)) ∧
    (s.m.Writes fn ⟨.pwrMod, 0, 0⟩ Off.PWR_MOD_CMD → (∃ c, c < 8 ∧ s.m.cstate c = 2) →
      (∀ c, c < 8 → s.m.cstate c = 2 → ∃ t0, (s.m.chan c).offAt = some t0 ∧ s.m.mgtMs < t0 + 259201000) → ∀ drifted, Answers (.pwrModCmdM0 fn drifted) s fun r =>
        r.m.rdF .pwrMod 0 0 Off.PWR_MOD_STA 28 21 = Code.PENDING ∧ SameBytes s r ∧ r.m.rqt = s.m.rqt ∧ r.m.tiles = s.m.tiles ∧
        ∀ c, c < 8 → s.m.cstate c = 2 → r.m.cstate c = 0 ∧ r.m.chInit c = true ∧ (r.m.chan c).saved = false) ∧
    (s.m.Writes fn ⟨.pwrMod, 0, 0⟩ Off.PWR_MOD_CMD → (∀ c, c < 8 → s.m.c2Refused c = true) → Answers (.pwrModCmdM2 fn) s fun r => SameWork s r ∧
      r.m.rdF .pwrMod 0 0 Off.PWR_MOD_STA 28 21 = Code.BUSY ∧ ∀ c, c < 8 → r.m.cstate c = s.m.cstate c)) ∧
  (∀ (s : State) (fn : Fn), s.m.Settled → s.m.vin = true → s.m.Writes fn ⟨.pwrMod, 0, 0⟩ Off.PWR_MOD_CMD →
    ((∀ c, c < 8 → s.m.c2Refused c = false ∧ (s.m.chan c).fab.colls = []) → Answers (.pwrModCmdM2 fn) s fun r =>
      (∀ c, c < 8 → r.m.cstate c = 2) ∧ SameBytes s r ∧ r.m.rdF .pwrMod 0 0 Off.PWR_MOD_STA 28 21 = Code.OK) ∧
    Does (.pwrModCmdM3 fn) s fun r => r.m.rdF .pwrMod 0 0 Off.PWR_MOD_STA 4 4 = 1 ∧ r.m.rdF .pwrMod 0 0 Off.PWR_MOD_STA 28 21 = Code.OK ∧
      SameBytes s r ∧ r.m.rqt = s.m.rqt ∧ ∀ c, c < 8 → r.m.rdF .fltCh c 0 Off.FLT_STA 2 2 = 1 ∧ ∀ k, tileCh k = c → (r.m.tile k).mvms = [])

/-! ### The host port, contexts and functions -/

/-- Configuration and function power: retry status is answered and counted before the hub is ready; after it VFs are enabled and disabled, with
the contexts of those that fall away CLEANING; D3hot concerns one function (R432, R447, R449, R472). The host link: HUB_STA takes rate,
width and flit mode, and a lower rate than 64 GT/s or a lower width than ×16 sets DEGRADED and raises LINK_DEGRADE (R430, R452). -/
def Obligations.FunctionsComeAndGo : Prop :=
  (∀ (s : State) (num : Fin 64) (ctx : CtxId) (d3 : Bool), s.m.Settled → s.m.vin = true →
    (s.m.hubReady = false →
      Gives (.vfEnable num) s ((s.m.bump .hub 0 0 Off.HUB_RRS 1).says (.retryStatus 0)) ∧
      (s.m.perstLow = false → ∀ fn, fn ≠ .mgt → Gives (.configRequest fn) s ((s.m.bump .hub 0 0 Off.HUB_RRS 1).says (.retryStatus (fnIx fn))))) ∧
    (s.m.hubReady = true → s.m.hubFail = false →
      Gives (.vfEnable num) s (({ s.m with numVfs := max s.m.numVfs num.val } : Dev).says (.configOk 0 true)) ∧
      (s.m.perstLow = false → ∀ fn, fn ≠ .mgt → Gives (.configRequest fn) s (s.m.says (.configOk (fnIx fn) (fnIx fn = 0 || s.m.fnEnabled (fnIx fn)))))) ∧
    (num.val < s.m.numVfs → Answers (.vfDisable num) s fun r => SameBytes s r ∧ r.m.rqt = s.m.rqt ∧ r.m.numVfs = num.val ∧
      (∀ k, k ≤ num.val → r.m.ctxState k = s.m.ctxState k ∧ r.m.ctx k = s.m.ctx k) ∧
      ∀ k, num.val < k → k < 64 → s.m.ctxState k = 1 → r.m.ctxState k = 2 ∧ (r.m.ctx k).cleaning = .vfOff ∧
        r.m.rdF .hubCx 0 k Off.HUB_CX_STA 23 16 = 0) ∧
    (s.m.fnEnabled ctx.val = true → Answers (.functionD3hot ctx d3) s fun r => SameBytes s r ∧ r.m.regs = s.m.regs ∧ r.m.rqt = s.m.rqt ∧
      r.m.ctx ctx.val = { s.m.ctx ctx.val with d3 := d3 } ∧ ∀ k, k ≠ ctx.val → r.m.ctx k = s.m.ctx k)) ∧
  (∀ (s : State) (rate : LinkRate) (width : Fin 17) (flit : Bool), s.m.Settled → s.m.vin = true → s.m.perstLow = false → 1 ≤ rate.val →
    Answers (.hostLinkTrained rate width flit) s fun r => SameWork s r ∧
      r.m.rdF .hub 0 0 Off.HUB_STA 2 0 = rate.val ∧ r.m.rdF .hub 0 0 Off.HUB_STA 7 3 = width.val ∧
      r.m.rdF .hub 0 0 Off.HUB_STA 8 8 = flit.toNat ∧
      (r.m.rdF .hub 0 0 Off.HUB_STA 9 9 = 1 ↔ rate.val < 6 ∨ width.val < 16) ∧
      ((rate.val < 6 ∨ width.val < 16) → bit (r.m.rd .hub 0 0 Off.PG_FLT) 4 = true) ∧
      SameRegs s r fun a => a = pageOff .hub 0 0 Off.HUB_STA ∨ a = pageOff .hub 0 0 Off.PG_FLT ∨ a = pageOff .hub 0 0 Off.PG_CNT)

/-- CREATE: RANGE where the function is not enabled or STG_SIZE is 0, BUSY where the context is not NONE; else PENDING with a staging area taken
in every channel that has the room, and ACTIVE and OK when its zeroing is done (R448). What an ACTIVE context leaves by: DESTROY puts it
into CLEANING, PENDING; so does a Function Level Reset, counted, and one of PF0 for every context; the end of a cleaning makes it NONE, and
OK the command where DESTROY began it; after a Function Level Reset of a function that stays enabled it is created again (R449, R452). -/
def Obligations.ContextsLiveAndEnd : Prop :=
  (∀ (s : State) (fn : Fn) (ctx : CtxId), s.m.Settled →
    (s.m.Writes fn ⟨.hubCx, 0, ctx.val⟩ Off.HUB_CX_CMD → s.m.fnEnabled ctx.val = false ∨ s.m.rdF .hubCx 0 ctx.val Off.HUB_CX_CFG 16 0 = 0 →
      Answers (.hubCxCreate fn ctx) s fun r => SameWork s r ∧ r.m.rdF .hubCx 0 ctx.val Off.HUB_CX_STA 15 8 = Code.RANGE ∧
        SameRegs s r (· = cxOff .hubCx ctx.val Off.HUB_CX_STA)) ∧
    (s.m.Writes fn ⟨.hubCx, 0, ctx.val⟩ Off.HUB_CX_CMD → s.m.fnEnabled ctx.val = true → s.m.rdF .hubCx 0 ctx.val Off.HUB_CX_CFG 16 0 ≠ 0 → s.m.ctxState ctx.val ≠ 0 →
      Answers (.hubCxCreate fn ctx) s fun r => SameWork s r ∧ r.m.rdF .hubCx 0 ctx.val Off.HUB_CX_STA 15 8 = Code.BUSY ∧
        SameRegs s r (· = cxOff .hubCx ctx.val Off.HUB_CX_STA)) ∧
    (s.m.Writes fn ⟨.hubCx, 0, ctx.val⟩ Off.HUB_CX_CMD → s.m.fnEnabled ctx.val = true → s.m.rdF .hubCx 0 ctx.val Off.HUB_CX_CFG 16 0 ≠ 0 → s.m.ctxState ctx.val = 0 →
      (s.m.ctx ctx.val).creating = false → s.m.stagingFits ctx.val = true →
      Answers (.hubCxCreate fn ctx) s fun r => (r.m.ctx ctx.val).creating = true ∧ r.m.ctxState ctx.val = 0 ∧
        r.m.rdF .hubCx 0 ctx.val Off.HUB_CX_STA 15 8 = Code.PENDING ∧ SameRegs s r (· = cxOff .hubCx ctx.val Off.HUB_CX_STA) ∧
        r.m.rqt = s.m.rqt ∧ r.m.tiles = s.m.tiles ∧ (∀ k, k ≠ ctx.val → r.m.ctx k = s.m.ctx k) ∧
        ∀ ch, ch < 8 → (r.m.memOf ch).ranges = (s.m.memOf ch).ranges ++
          [⟨pickRange (s.m.memOf ch) (s.m.stagingFrames ctx.val), s.m.stagingFrames ctx.val, ctx.val, true⟩]) ∧
    (s.m.vin = true → (s.m.ctx ctx.val).creating = true → Answers (.createDone ctx) s fun r => SameBytes s r ∧ r.m.rqt = s.m.rqt ∧
      r.m.ctxState ctx.val = 1 ∧ (r.m.ctx ctx.val).creating = false ∧ r.m.rdF .hubCx 0 ctx.val Off.HUB_CX_STA 15 8 = Code.OK ∧
      r.m.rdF .hubCx 0 ctx.val Off.HUB_CX_STA 23 16 = 0xFF)) ∧
  (∀ (s : State) (fn : Fn) (ctx : CtxId), s.m.Settled →
    (s.m.Writes fn ⟨.hubCx, 0, ctx.val⟩ Off.HUB_CX_CMD → s.m.ctxState ctx.val = 1 → Answers (.hubCxDestroy fn ctx) s fun r => SameBytes s r ∧ r.m.rqt = s.m.rqt ∧ r.m.tiles = s.m.tiles ∧
      r.m.ctxState ctx.val = 2 ∧ (r.m.ctx ctx.val).cleaning = .destroy ∧ r.m.rdF .hubCx 0 ctx.val Off.HUB_CX_STA 15 8 = Code.PENDING) ∧
    (s.m.Writes fn ⟨.hubCx, 0, ctx.val⟩ Off.HUB_CX_CMD → s.m.ctxState ctx.val = 0 → Answers (.hubCxDestroy fn ctx) s fun r => SameWork s r ∧
      r.m.rdF .hubCx 0 ctx.val Off.HUB_CX_STA 15 8 = Code.RANGE) ∧
    (s.m.vin = true → s.m.fnEnabled ctx.val = true → s.m.ctxState ctx.val = 1 → Answers (.functionLevelReset ctx) s fun r =>
      SameBytes s r ∧ r.m.rqt = s.m.rqt ∧ r.m.ctxState ctx.val = 2 ∧ (r.m.ctx ctx.val).cleaning = .flr ∧ (r.m.ctx ctx.val).d3 = false ∧
      (ctx.val = 0 → r.m.numVfs = 0 ∧ ∀ k, k < 64 → s.m.ctxState k = 1 → r.m.ctxState k = 2)) ∧
    (s.m.vin = true → s.m.ctxState ctx.val = 2 → (s.m.ctx ctx.val).dmaOff = true → (s.m.ctx ctx.val).cleaning = .destroy →
      s.m.rdF .hubCx 0 ctx.val Off.HUB_CX_STA 15 8 = Code.PENDING → Answers (.contextCleaningDone ctx) s fun r => SameBytes s r ∧ r.m.rqt = s.m.rqt ∧
      r.m.ctxState ctx.val = 0 ∧ (r.m.ctx ctx.val).cleaning = .none ∧ r.m.rdF .hubCx 0 ctx.val Off.HUB_CX_STA 15 8 = Code.OK ∧
      r.m.rdF .hubCx 0 ctx.val Off.HUB_CX_STA 23 16 = 0xFF) ∧
    (s.m.vin = true → s.m.ctxState ctx.val = 2 → (s.m.ctx ctx.val).dmaOff = true → (s.m.ctx ctx.val).cleaning ≠ .destroy →
      ((s.m.ctx ctx.val).cleaning = .flr → s.m.fnEnabled ctx.val = false) → Answers (.contextCleaningDone ctx) s fun r => SameBytes s r ∧ r.m.rqt = s.m.rqt ∧
      r.m.mems = s.m.mems ∧ r.m.ctxState ctx.val = 0 ∧ (r.m.ctx ctx.val).cleaning = .none ∧ r.m.rdF .hubCx 0 ctx.val Off.HUB_CX_STA 23 16 = 0xFF) ∧
    (s.m.vin = true → s.m.ctxState ctx.val = 2 → (s.m.ctx ctx.val).dmaOff = true → (s.m.ctx ctx.val).cleaning = .flr → s.m.fnEnabled ctx.val = true →
      s.m.stagingFits ctx.val = true → Answers (.contextCleaningDone ctx) s fun r => r.m.rqt = s.m.rqt ∧ r.m.ctxState ctx.val = 1 ∧ (r.m.ctx ctx.val).cleaning = .none))

/-! ### Accesses -/

/-- BAR2 of PF0: through an enabled aperture of an open channel a read gives the bytes of the tier at BASE × 4 GiB, and a write stores there and
nowhere else (over directories, leaves and logs, which R193 forbids it, as well), except that a HALTED channel's are discarded and counted;
a closed channel answers all ones; without an enabled aperture a read gives zeros, and either is counted. A virtual function reaches its
staging area in the channel of the window (R444 to R446). -/
def Obligations.Bar2ReachesMemory : Prop :=
  ∀ (s : State) (off n : Nat) (bs : List Byte), s.m.Settled → s.m.fnOn .pf0 = true → s.m.hubFail = false → off < 2 ^ 36 →
    let w := s.m.rd .hub 0 0 (Off.HUB_AP + 4 * (off / 2 ^ 32))
    let ch := fld w 9 7
    let d := tierBase ch (fld w 10 10 + 1) + fld w 6 0 * 2 ^ 32 + off % 2 ^ 32
    (bit w 11 = true → bit (s.m.rd .hub 0 0 Off.HUB_CTL) 0 = true → s.m.chClosed ch = false →
      (off % 2 ^ 32 + n ≤ 2 ^ 32 → Gives (.bar2Access .pf0 off (.read n)) s (s.m.says (.readData 0 off (s.m.viewBytes d n)))) ∧
      (s.m.fltState ch ≠ 2 → off % 2 ^ 32 + bs.length ≤ 2 ^ 32 → Gives (.bar2Access .pf0 off (.write bs)) s (s.m.hostPoke d bs) ∧
        ((∀ a, d ≤ a → a < d + bs.length → s.m.metaUnit a = none) → s.m.hostPoke d bs = s.m.setBytes d bs)) ∧
      (s.m.fltState ch = 2 → Gives (.bar2Access .pf0 off (.write bs)) s (s.m.bump .hub 0 0 Off.HUB_HALTWR 1))) ∧
    (bit w 11 = true → bit (s.m.rd .hub 0 0 Off.HUB_CTL) 0 = true → s.m.chClosed ch = true →
      Gives (.bar2Access .pf0 off (.read n)) s ((s.m.bump .hub 0 0 Off.HUB_LDN 1).says (.readData 0 off (List.replicate n 0xFF))) ∧
      Gives (.bar2Access .pf0 off (.write bs)) s (s.m.bump .hub 0 0 Off.HUB_LDN 1)) ∧
    (bit w 11 = false →
      Gives (.bar2Access .pf0 off (.read n)) s ((s.m.bump .hub 0 0 Off.HUB_APMISS 1).says (.readData 0 off (List.replicate n 0))) ∧
      Gives (.bar2Access .pf0 off (.write bs)) s (s.m.bump .hub 0 0 Off.HUB_APMISS 1)) ∧
    (∀ k : Fin 63, s.m.fnOn (.vf k) = true → off / 2 ^ 28 < 8 → bit (s.m.rd .hub 0 0 Off.HUB_CTL) 1 = true → s.m.chClosed (off / 2 ^ 28) = false →
      let area := s.m.staging (off / 2 ^ 28) (k.val + 1)
      (0 < n → off % 2 ^ 28 + n ≤ area.2 →
        Gives (.bar2Access (.vf k) off (.read n)) s (s.m.says (.readData (k.val + 1) off (s.m.viewBytes (area.1 + off % 2 ^ 28) n)))) ∧
      (bs ≠ [] → off % 2 ^ 28 + bs.length ≤ area.2 → s.m.fltState (off / 2 ^ 28) ≠ 2 →
        Gives (.bar2Access (.vf k) off (.write bs)) s (s.m.hostPoke (area.1 + off % 2 ^ 28) bs)))

/-- Isolation. Through its BAR2 a virtual function changes no byte outside its context's staging area in the channel of the window, and no
serving state; a register write to a page outside its grant changes nothing but HUB_DENY and what raising ACCESS_DENY leaves in the hub's
header; and a read of one gives 0 (R436, R441, R445). -/
def Obligations.FunctionsAreIsolated : Prop :=
  ∀ (s : State) (n : Fin 63) (a : Nat), s.m.Settled →
    (∀ bs : List Byte, Answers (.bar2Access (.vf n) a (.write bs)) s fun r =>
      (∀ b, b < (s.m.staging (a / 2 ^ 28) (n.val + 1)).1 ∨
        (s.m.staging (a / 2 ^ 28) (n.val + 1)).1 + (s.m.staging (a / 2 ^ 28) (n.val + 1)).2 ≤ b → r.m.byte b = s.m.byte b) ∧
      r.m.rqt = s.m.rqt ∧ r.m.seqs = s.m.seqs ∧ r.m.ctxs = s.m.ctxs ∧ r.m.mems = s.m.mems ∧ r.m.tiles = s.m.tiles ∧ r.m.out = s.m.out ∧
      SameRegs s r fun x => x = pageOff .hub 0 0 Off.HUB_APMISS ∨ x = pageOff .hub 0 0 (Off.HUB_APMISS + 4) ∨
        x = pageOff .hub 0 0 Off.HUB_LDN ∨ x = pageOff .hub 0 0 (Off.HUB_LDN + 4) ∨
        x = pageOff .hub 0 0 Off.HUB_HALTWR ∨ x = pageOff .hub 0 0 (Off.HUB_HALTWR + 4)) ∧
    ∀ p, Page.ofAddr a = some p → rqtOfAddr a = none →
      (p.grantsWrite (n.val + 1) = false → ∀ (size : Fin 4) (v : Word64), Answers (.registerWrite (.vf n) a size v) s fun r =>
        SameWork s r ∧ r.m.out = s.m.out ∧ SameRegs s r fun x => x = pageOff .hub 0 0 Off.HUB_DENY ∨
          x = pageOff .hub 0 0 (Off.HUB_DENY + 4) ∨ x = pageOff .hub 0 0 Off.PG_FLT ∨ x = pageOff .hub 0 0 Off.PG_CNT) ∧
      (p.grantsRead (n.val + 1) = false → s.m.fnOn (.vf n) = true → Answers (.counterLoRead (.vf n) a) s fun r =>
        SameWork s r ∧ r.m.out = s.m.out ++ [.readData (n.val + 1) a (toBytes 4 0)] ∧ bit (r.m.rd .hub 0 0 Off.PG_FLT) 3 = true)

/-- An aligned 32-bit write of an ordinary register stores the bits the register admits, clears those written 1 to clear, and leaves the rest of
the word, every other word and everything else alone; a 64-bit write does so to both words; a narrower write of a page changes nothing but
HUB_BADSZ, and one of a request table window writes the entry's field; a write of HUB_AP takes effect unless BASE lies beyond the tier (R4,
R5, R435, R444). An access outside a function's grant is counted and raises ACCESS_DENY; a read of it gives 0 (R436). -/
def Obligations.RegistersAreWritten : Prop :=
  (∀ (s : State) (fn : Fn) (v : Word), s.m.Settled →
    (∀ (p : Page) (o : Nat) (row : RegRow), p.valid = true → p.kind ∈ ordinaryPages → s.m.Writes fn p o → 0x100 ≤ o → o < 0x1000 → o % 4 = 0 → p.kind.row o = some row →
      let stored (row : RegRow) (o : Nat) (v : Word) : Word := let old := s.m.reg (p.base + o)
        (old &&& ~~~row.rw &&& ~~~(v &&& row.w1c)) ||| (normWord p.kind p.inst o old v &&& row.rw)
      (Answers (.registerWrite fn (p.base + o) 2 (v.setWidth 64)) s fun r => SameWork s r ∧ r.m.reg (p.base + o) = stored row o v ∧
        SameRegs s r (· = p.base + o) ∧ r.m.out = s.m.out) ∧
      ∀ (row' : RegRow) (v' : Word), s.m.Writes fn p (o + 4) → o % 8 = 0 → o + 4 < 0x1000 → p.kind.row (o + 4) = some row' →
        Answers (.registerWrite fn (p.base + o) 3 (v' ++ v)) s fun r => SameWork s r ∧ r.m.reg (p.base + o) = stored row o v ∧
          r.m.reg (p.base + o + 4) = stored row' (o + 4) v' ∧ SameRegs s r fun a => a = p.base + o ∨ a = p.base + o + 4) ∧
    (∀ (p : Page) (o : Nat) (size : Fin 4), p.valid = true → p.kind ∈ ordinaryPages → fn ≠ .mgt → s.m.fnOn fn = true → s.m.refuses fn (p.base + o) true = false →
      o < 0x1000 → size.val < 2 → Gives (.registerWrite fn (p.base + o) size (v.setWidth 64)) s (s.m.bump .hub 0 0 Off.HUB_BADSZ 1)) ∧
    (∀ (r : SeqRef) (o : Fin 128) (size : Fin 4), size.val < 3 → o.val % 2 ^ size.val = 0 → s.m.TableOn fn r →
      exec (.registerWrite fn (chanWin r.ch.val + 0x20000 + 128 * r.e.val + o.val) size (v.setWidth 64)) s =
        exec (.rqtEntryFieldWrite fn r o (toBytes (2 ^ size.val) v.toNat)) s) ∧
    (∀ i : Fin 16, s.m.Writes fn ⟨.hub, 0, 0⟩ (Off.HUB_AP + 4 * i.val) → Answers (.hubApWrite fn i v) s fun r => SameWork s r ∧
      (fld v 6 0 ≤ 63 → r.m.rdF .hub 0 0 (Off.HUB_AP + 4 * i.val) 11 0 = fld v 11 0) ∧
      (63 < fld v 6 0 → bit v 10 = false → r.m.rd .hub 0 0 (Off.HUB_AP + 4 * i.val) = s.m.rd .hub 0 0 (Off.HUB_AP + 4 * i.val)) ∧
      SameRegs s r (· = pageOff .hub 0 0 (Off.HUB_AP + 4 * i.val)))) ∧
  (∀ (s : State) (fn : Fn) (a : Nat), s.m.Settled → fn ≠ .mgt → s.m.fnOn fn = true →
    (s.m.refuses fn a true = true → Answers (.accessDeny fn a true) s fun r => SameWork s r ∧ r.m.out = s.m.out ∧
      bit (r.m.rd .hub 0 0 Off.PG_FLT) 3 = true ∧
      (s.m.rdF .hub 0 0 Off.PG_CTL 0 0 = 0 → r.m.rd64 .hub 0 0 Off.HUB_DENY = (s.m.rd64 .hub 0 0 Off.HUB_DENY + 1) % 2 ^ 64)) ∧
    (s.m.refuses fn a false = true → Answers (.accessDeny fn a false) s fun r => SameWork s r ∧
      r.m.out = s.m.out ++ [.readData (fnIx fn) a (toBytes 4 0)] ∧ bit (r.m.rd .hub 0 0 Off.PG_FLT) 3 = true))

/-- Counters: a read of a low word gives it and latches the high word of that instant; a read of the high word that follows gives the latch,
whatever the counter has become; CNT_CLR sets every counter and PG_CNT of its page to 0, and no word of another page (R438, R439). -/
def Obligations.CountersAreLatched : Prop :=
  ∀ (s : State) (fn : Fn) (p : Page) (o : Nat), s.m.Settled → p.valid = true →
    (s.m.Reads fn p → pairLo p.kind o = true → o + 4 < 0x1000 → o % 4 = 0 → Answers (.counterLoRead fn (p.base + o)) s fun r =>
      SameWork s r ∧ r.m.regs = s.m.regs ∧ r.m.out = s.m.out ++ [.readData (fnIx fn) (p.base + o) (toBytes 4 (s.m.pageWord p 0 o).toNat)] ∧
      ∀ u : State, u.m.Settled → u.m.Reads fn p → u.m.latch = r.m.latch →
        pairLo p.kind (o + 4) = false →
        Answers (.counterLoRead fn (p.base + o + 4)) u fun t =>
          t.m.out = u.m.out ++ [.readData (fnIx fn) (p.base + o + 4) (toBytes 4 (s.m.pageWord p 0 (o + 4)).toNat)]) ∧
    (s.m.Writes fn p Off.PG_CTL → Answers (.cntClr fn p.base 2) s fun r => SameWork s r ∧
      r.m.rd p.kind p.ch p.inst Off.PG_CNT = 0 ∧
      (∀ row ∈ p.kind.rows, row.ctr = true → ∀ i, i < row.n → r.m.reg (p.base + row.off + 4 * i) = 0) ∧
      SameRegs s r fun a => p.base ≤ a ∧ a < p.base + 0x1000)

/-! ### Faults and recovery -/

/-- A source that a page owns is raised: its sticky bit is set and PG_CNT counts. At RECORD nothing else happens but the event record, which
carries the code 1 + index; a source of the hub at HALT stops the hub (R371 to R373, R375, R376). Parity errors: a place's error raises its
source; one that a BAR2 read met ends that read alone; the end of a quiet period is noted for the next boundary; a hub link that fails
closes its channel and raises HUB_LINK (R10, R381, R392, R446). -/
def Obligations.SourcesAreCounted : Prop :=
  (∀ (s : State), s.m.Settled →
    (∀ (ch : ChId) (ix : Fin 96) (x : FltAt), s.m.aux = true → s.m.vin = true → ix.val ≠ 87 → (ix.val = 44 → x = .none) → (s.m.chan ch.val).baseBad < 2 →
      (collector ix.val).2 < (collector ix.val).1.nsrc → s.m.Records ch.val ix.val →
      Answers (.faultSourceRaise (.chan ch ix) x) s fun r => SameBytes s r ∧ r.m.rqt = s.m.rqt ∧ r.m.seqs = s.m.seqs ∧ r.m.fltState ch.val = s.m.fltState ch.val ∧
        bit (r.m.rd (collector ix.val).1 ch.val 0 Off.PG_FLT) (collector ix.val).2 = true) ∧
    (∀ (ch : ChId) (cl : ClId) (t : Fin 132), s.m.aux = true → (s.m.chan ch.val).baseBad < 2 → s.m.Records ch.val 87 → s.m.vin = true →
      let k := (ch.val * 8 + cl.val) * 132 + t.val
      (otherCopy (s.m.tile k)).isSome = true →
      Answers (.faultSourceRaise (.chan ch 87) (.tile cl t)) s fun r => r.m.tile k = copyFails (s.m.tile k) ∧ SameBytes s r ∧ r.m.rqt = s.m.rqt ∧
        bit (r.m.rd (collector 87).1 ch.val 0 Off.PG_FLT) (collector 87).2 = true) ∧
    (∀ (ch : ChId) (ix : Fin 96), s.m.aux = true → s.m.vin = true → ix.val ≠ 87 → (s.m.chan ch.val).baseBad < 2 →
      (collector ix.val).2 < (collector ix.val).1.nsrc → s.m.Records ch.val ix.val →
      Answers (.faultSourceRaise (.chan ch ix) .none) s fun r => SameWork s r ∧ SameRegs s r (raiseRegs ch.val ix.val) ∧
        bit (r.m.rd (collector ix.val).1 ch.val 0 Off.PG_FLT) (collector ix.val).2 = true ∧
        (r.m.rd (collector ix.val).1 ch.val 0 Off.PG_CNT).toNat = min 0xFFFFFFFF ((s.m.rd (collector ix.val).1 ch.val 0 Off.PG_CNT).toNat + 1) ∧
        r.m.fltState ch.val = s.m.fltState ch.val ∧ r.m.out = s.m.out ∧
        ((s.m.chan ch.val).evr.used.get 0 (1 + ix.val) = 0 → (r.m.chan ch.val).evr.next = (s.m.chan ch.val).evr.next + 1 ∧
          ((r.m.chan ch.val).evr.recs.get none ((s.m.chan ch.val).evr.next % 8192)).map (·.code) = some (1 + ix.val))) ∧
    (∀ n, s.m.vin = true → s.m.rdF .hub 0 0 Off.PG_SEV0 (2 * n.val + 1) (2 * n.val) = 0 →
      bit (s.m.rd .hub 0 0 Off.PG_FLT) n.val = false → Answers (.faultSourceRaise (.hub n) .none) s fun r => SameWork s r ∧
        bit (r.m.rd .hub 0 0 Off.PG_FLT) n.val = true ∧ r.m.hubHalt = s.m.hubHalt) ∧
    (∀ n, s.m.vin = true → s.m.rdF .hub 0 0 Off.PG_SEV0 (2 * n.val + 1) (2 * n.val) = 3 →
      Answers (.faultSourceRaise (.hub n) .none) s fun r => SameWork s r ∧ r.m.hubHalt = true)) ∧
  (∀ (s : State) (ch : ChId), s.m.Settled → s.m.aux = true →
    (∀ ix : Fin 96, ix.val ∈ paritySources → s.m.fltState ch.val = 0 → 2 ≤ s.m.sevOf ch.val ix.val → Does (.parityError (.block ch ix)) s fun r =>
      r.m.fltState ch.val = s.m.sevOf ch.val ix.val - 1 ∧ r.m.rdF .fltCh ch.val 0 Off.FLT_STA 10 4 = ix.val ∧ SameBytes s r ∧ r.m.rqt = s.m.rqt) ∧
    (∀ ix : Fin 96, ix.val ∈ paritySources → s.m.Records ch.val ix.val → Answers (.parityError (.block ch ix)) s fun r => SameWork s r ∧
      SameRegs s r (raiseRegs ch.val ix.val) ∧ bit (r.m.rd (collector ix.val).1 ch.val 0 Off.PG_FLT) (collector ix.val).2 = true) ∧
    (s.m.Records ch.val 5 → Answers (.parityError (.corrected ch)) s fun r => SameWork s r ∧ SameRegs s r (raiseRegs ch.val 5) ∧
      bit (r.m.rd .fltCh ch.val 0 Off.PG_FLT) 5 = true) ∧
    (s.m.Records ch.val 4 → Answers (.parityError (.memory ch .engine)) s fun r => SameWork s r ∧ SameRegs s r (raiseRegs ch.val 4) ∧
      bit (r.m.rd .fltCh ch.val 0 Off.PG_FLT) 4 = true) ∧
    (∀ fn, Gives (.parityError (.memory ch (.bar2 fn))) s (s.m.says (.abort (match fn with | .vf n => n.val + 1 | _ => 0)))) ∧
    (∀ x : CtxId, s.m.phase x.val = Ph.COPY → Does (.parityError (.memory ch (.loadCopy x))) s fun r => r.m.phase x.val = Ph.NONE ∧
      r.m.rdF .ldrCx 0 x.val Off.LDR_CMD_STA 7 0 = Code.REJECTED ∧ r.m.rdF .ldrCx 0 x.val Off.LDR_CMD_STA 15 8 = 0x0F ∧ SameBytes s r) ∧
    (∀ n : Fin 2, s.m.rdF .hub 0 0 Off.PG_SEV0 (2 * n.val + 1) (2 * n.val) < 3 → bit (s.m.rd .hub 0 0 Off.PG_FLT) n.val = false →
      Answers (.parityError (.hub n)) s fun r => SameWork s r ∧ bit (r.m.rd .hub 0 0 Off.PG_FLT) n.val = true ∧ r.m.hubHalt = s.m.hubHalt) ∧
    (∀ n : Fin 2, s.m.rdF .hub 0 0 Off.PG_SEV0 (2 * n.val + 1) (2 * n.val) = 3 →
      Answers (.parityError (.hub n)) s fun r => SameWork s r ∧ bit (r.m.rd .hub 0 0 Off.PG_FLT) n.val = true ∧ r.m.hubHalt = true) ∧
    (s.m.fltState ch.val = 1 → (s.m.chan ch.val).quietEnd ≤ s.m.mgtNs + s.m.periodNs →
      Gives (.quietPeriodExpire ch) s (s.m.modChan ch.val fun c => { c with quietDone := true })) ∧
    (s.m.vin = true → Answers (.hubLinkFail ch) s fun r => SameWork s r ∧ r.m.chClosed ch.val = true ∧
      bit (r.m.rd .hub 0 0 Off.PG_FLT) 2 = true ∧ ∀ c, c ≠ ch.val → r.m.chan c = s.m.chan c))

/-- What a raise does to a NORMAL channel with no pattern loaded and no collective running follows from the severity in force: CONTAIN enters
CONTAINED and HALT enters HALTED, with the source's index as CAUSE, SAFE set, the work of tiles dropped and memory, request table and
sequences kept; the four fixed sources always act at HALT (R374, R376, R378, R384). FLT_CMD: CONTAIN and HALT take a NORMAL channel into
CONTAINED and HALTED with CAUSE 126 and FORCED, OK (R384, R396). -/
def Obligations.SeverityDecides : Prop :=
  ((∀ (s : State) (ch : ChId) (ix : Fin 96), s.m.Settled → s.m.aux = true → s.m.vin = true → s.m.fltState ch.val = 0 → s.m.NoWork ch.val →
    ix.val ≠ 87 → (s.m.chan ch.val).baseBad < 2 → (collector ix.val).2 < (collector ix.val).1.nsrc → 2 ≤ s.m.sevOf ch.val ix.val →
    Answers (.faultSourceRaise (.chan ch ix) .none) s fun r => r.m.fltState ch.val = s.m.sevOf ch.val ix.val - 1 ∧
      r.m.rdF .fltCh ch.val 0 Off.FLT_STA 10 4 = ix.val ∧ r.m.rdF .fltCh ch.val 0 Off.FLT_STA 2 2 = 1 ∧
      r.m.rdF .fltCh ch.val 0 Off.FLT_STA 3 3 = 0 ∧ r.m.rd64 .fltCh ch.val 0 Off.FLT_TENTER = (s.m.chan ch.val).time % 2 ^ 64 ∧
      SameBytes s r ∧ r.m.rqt = s.m.rqt ∧ r.m.seqs = s.m.seqs ∧ ∀ k, tileCh k = ch.val → (r.m.tile k).mvms = []) ∧
  (∀ (s : State) (ch : ChId) (ix : Fin 96) (x : FltAt), s.m.aux = true → s.m.vin = true → s.m.fltState ch.val = 0 →
    ix.val ≠ 87 → (ix.val = 44 → x = .none) → (s.m.chan ch.val).baseBad < 2 → (collector ix.val).2 < (collector ix.val).1.nsrc → 2 ≤ s.m.sevOf ch.val ix.val →
    Does (.faultSourceRaise (.chan ch ix) x) s fun r => r.m.fltState ch.val = s.m.sevOf ch.val ix.val - 1 ∧
      r.m.rdF .fltCh ch.val 0 Off.FLT_STA 10 4 = ix.val ∧ r.m.rdF .fltCh ch.val 0 Off.FLT_STA 2 2 = 1 ∧
      r.m.rd64 .fltCh ch.val 0 Off.FLT_TENTER = (s.m.chan ch.val).time % 2 ^ 64 ∧ SameBytes s r ∧ r.m.rqt = s.m.rqt ∧ r.m.seqs = s.m.seqs ∧
      ∀ k, tileCh k = ch.val → (r.m.tile k).mvms = []) ∧
  ∀ (m : Dev) (ch ix : Nat), ix ∈ [0, 84, 85, 95] → m.sevOf ch ix = 3) ∧
  ((∀ (s : State) (fn : Fn) (ch : ChId), s.m.Writes fn ⟨.fltCh, ch.val, 0⟩ Off.FLT_CMD → 
    (s.m.fltState ch.val = 0 → Does (.fltCmdContain fn ch) s fun r => r.m.fltState ch.val = 1 ∧ r.m.rdF .fltCh ch.val 0 Off.FLT_STA 10 4 = 126 ∧
      r.m.rdF .fltCh ch.val 0 Off.FLT_STA 3 3 = 1 ∧ r.m.rdF .fltCh ch.val 0 Off.FLT_STA 23 16 = Code.OK ∧ SameBytes s r ∧ r.m.rqt = s.m.rqt) ∧
    (s.m.fltState ch.val < 2 → Does (.fltCmdHalt fn ch) s fun r => r.m.fltState ch.val = 2 ∧ r.m.rdF .fltCh ch.val 0 Off.FLT_STA 10 4 = 126 ∧
      r.m.rdF .fltCh ch.val 0 Off.FLT_STA 3 3 = 1 ∧ r.m.rdF .fltCh ch.val 0 Off.FLT_STA 23 16 = Code.OK ∧ SameBytes s r ∧ r.m.rqt = s.m.rqt)) ∧
  ∀ (s : State) (fn : Fn) (ch : ChId), s.m.Settled → s.m.Writes fn ⟨.fltCh, ch.val, 0⟩ Off.FLT_CMD → s.m.fltState ch.val = 0 → s.m.NoWork ch.val →
    (Answers (.fltCmdContain fn ch) s fun r => r.m.fltState ch.val = 1 ∧ r.m.rdF .fltCh ch.val 0 Off.FLT_STA 10 4 = 126 ∧
      r.m.rdF .fltCh ch.val 0 Off.FLT_STA 3 3 = 1 ∧ r.m.rdF .fltCh ch.val 0 Off.FLT_STA 23 16 = Code.OK ∧ SameBytes s r ∧ r.m.rqt = s.m.rqt) ∧
    (Answers (.fltCmdHalt fn ch) s fun r => r.m.fltState ch.val = 2 ∧ r.m.rdF .fltCh ch.val 0 Off.FLT_STA 10 4 = 126 ∧
      r.m.rdF .fltCh ch.val 0 Off.FLT_STA 3 3 = 1 ∧ r.m.rdF .fltCh ch.val 0 Off.FLT_STA 23 16 = Code.OK ∧ SameBytes s r ∧ r.m.rqt = s.m.rqt))

/-- The headers of channel pages: PG_FRC raises each source it names, forced; a 1 written to PG_FLT clears the sticky bit and nothing else;
PG_SEV takes the field of every source the page owns but one of fixed severity, and no other field (R372, R374, R439, R440). -/
def Obligations.HeadersAct : Prop :=
  ∀ (s : State) (fn : Fn) (k : PageKind) (ch : ChId) (b : Nat) (w : Word), s.m.Settled →
    k ∈ [.fltCh, .arrCh, .corCh, .accCh, .attCh, .kvpCh, .rqtCh, .ldrCh, .plcCh, .spdCh, .synCh, .evfCh, .monCh, .thmCh, .bkgCh, .mgtCh, .secCh, .pwrCh] →
    PageKind.collBase k = some b →
    (s.m.Writes fn ⟨k, ch.val, 0⟩ Off.PG_FLT → Answers (.pgFltClear fn (pageOff k ch.val 0 0) w) s fun r => SameWork s r ∧ r.m.out = s.m.out ∧
      r.m.rd k ch.val 0 Off.PG_FLT = s.m.rd k ch.val 0 Off.PG_FLT &&& ~~~w ∧ SameRegs s r (· = pageOff k ch.val 0 Off.PG_FLT)) ∧
    (∀ second : Bool, let o := if second then Off.PG_SEV1 else Off.PG_SEV0
      s.m.Writes fn ⟨k, ch.val, 0⟩ o → Answers (.pgSevWrite fn (pageOff k ch.val 0 0) second w) s fun r => SameWork s r ∧ SameRegs s r (· = pageOff k ch.val 0 o) ∧
      ∀ n, n < 16 → r.m.rdF k ch.val 0 o (2 * n + 1) (2 * n) =
        if n < k.nsrc ∧ fixedHalt (b + n) = false then fld w (2 * n + 1) (2 * n) else s.m.rdF k ch.val 0 o (2 * n + 1) (2 * n)) ∧
    (∀ n, n < k.nsrc → s.m.Records ch.val (b + n) → s.m.Writes fn ⟨k, ch.val, 0⟩ Off.PG_FRC → Answers (.pgFrcWrite fn (pageOff k ch.val 0 0) (BitVec.ofNat 32 (2 ^ n))) s fun r =>
      SameWork s r ∧ SameRegs s r (raiseRegs ch.val (b + n)) ∧ bit (r.m.rd k ch.val 0 Off.PG_FLT) n = true ∧
      ((s.m.chan ch.val).evr.used.get 0 (1 + (b + n)) = 0 →
        ((r.m.chan ch.val).evr.recs.get none ((s.m.chan ch.val).evr.next % 8192)).map (fun e => e.flags / 4 % 2) = some 1))

/-- The hub forwards the oldest complete group of a channel and enters what it carried in the delivery table; FLT_DLV_SEL shows an entry of that
table (R385, R397). -/
def Obligations.GroupsAreForwarded : Prop :=
  ∀ s : State, s.m.Settled →
    (∀ (ch : ChId) (g : RingGroup), s.m.hubGroups.find? (fun g => g.seq.ch.val = ch.val) = some g → s.m.hubHalt = false → s.m.vin = true →
      Answers (.hubGroupComplete ch) s fun r => SameWork s r ∧ r.m.regs = s.m.regs ∧ r.m.hubGroups = s.m.hubGroups.erase g ∧
        r.m.out = s.m.out ++ g.writes.filter (fun o => !s.m.muted o) ∧
        (r.m.dlvOf g.seq.ix).recs = g.word % 2 ^ 32 ∧ (r.m.dlvOf g.seq.ix).pos = g.pos ∧ (r.m.dlvOf g.seq.ix).live = s.m.live g.seq.ix) ∧
    (∀ (fn : Fn) (w : Word), s.m.Writes fn ⟨.fltMod, 0, 0⟩ Off.FLT_DLV_SEL → Answers (.fltDlvSelWrite fn w) s fun r => SameWork s r ∧
      let d := s.m.dlvOf (fld w 11 9 * 512 + fld w 8 0)
      r.m.rd .fltMod 0 0 Off.FLT_DLV_SEL = w &&& 0xFFF#32 ∧ r.m.rd .fltMod 0 0 Off.FLT_DLV_REC = BitVec.ofNat 32 d.recs ∧
      r.m.rd .fltMod 0 0 Off.FLT_DLV_POS = BitVec.ofNat 32 (d.pos % 2 ^ 23) ∧
      SameRegs s r fun a => a = pageOff .fltMod 0 0 Off.FLT_DLV_SEL ∨ a = pageOff .fltMod 0 0 Off.FLT_DLV_REC ∨
        a = pageOff .fltMod 0 0 Off.FLT_DLV_POS)

/-! ### Monitoring, thermal protection and blocking runs -/

/-- A monitor converter that is on counts each conversion. While a slot still settles an output is discarded and counted; an output that does
not end its slot joins the slot's words; the last output of a regular slot that measures no rail, diode or reference writes the mean with
the next TAG to the slot's result register and goes on to the next slot, after the last one to slot 0 (R399, R401, R403). What the readings
feed: a fast meter's sample adds to the plank's sums; the inlet temperature reaches every channel, and a failed thermistor counts as 35 °C;
the offset of a cluster moves one eighth of the way to its diodes' mean, within ±10 °C (R404 to R406). -/
def Obligations.ReadingsAreTaken : Prop :=
  ((∀ (s : State) (c : ClusterRef) (code : BitVec 24) (ov : Bool), s.m.alive c.ch.val = true → bit (s.m.monSet c.ix Off.MON_CTL) 0 = true →
    Does (.monConversionEnd c code ov) s fun r => SameBytes s r ∧ r.m.rqt = s.m.rqt ∧
      (s.m.rdF .mon c.ch.val c.cl.val Off.PG_CTL 0 0 = 0 →
        r.m.rd64 .mon c.ch.val c.cl.val Off.MON_CONV = (s.m.rd64 .mon c.ch.val c.cl.val Off.MON_CONV + 1) % 2 ^ 64)) ∧
  ∀ (s : State) (c : ClusterRef) (code : BitVec 24), s.m.Settled → s.m.alive c.ch.val = true → bit (s.m.monSet c.ix Off.MON_CTL) 0 = true →
    bit (s.m.monSet c.ix Off.MON_CTL) 4 = true →
    let m := (s.m.clus c.ix).mon
    m.inj = none → m.queue = [] → fld (s.m.monSlot c.ix) 9 0 = m.src → fld (s.m.monSet c.ix Off.MON_CTL) 3 1 = m.rate →
    (m.discard = 0 → m.words.length + 1 ≤ fld (s.m.monSlot c.ix) 13 10 →
      Answers (.monConversionEnd c code false) s fun r => SameBytes s r ∧ r.m.tiles = s.m.tiles ∧ r.m.rqt = s.m.rqt ∧
      (r.m.clus c.ix).mon = { m with words := m.words ++ [code.toInt] }) ∧
    (0 < m.discard → Answers (.monConversionEnd c code false) s fun r => SameBytes s r ∧ r.m.tiles = s.m.tiles ∧ r.m.rqt = s.m.rqt ∧
      (r.m.clus c.ix).mon = { m with discard := m.discard - 1 } ∧
      (s.m.rdF .mon c.ch.val c.cl.val Off.PG_CTL 0 0 = 0 →
        r.m.rd64 .mon c.ch.val c.cl.val Off.MON_DISC = (s.m.rd64 .mon c.ch.val c.cl.val Off.MON_DISC + 1) % 2 ^ 64)) ∧
    (m.discard = 0 → m.ovl = false → m.slot < 16 → fld (s.m.monSlot c.ix) 5 0 < 20 → m.words.length = fld (s.m.monSlot c.ix) 13 10 →
      Answers (.monConversionEnd c code false) s fun r => SameBytes s r ∧ r.m.tiles = s.m.tiles ∧ r.m.rqt = s.m.rqt ∧
        fld (r.m.monReg c.ix (Off.MON_RES + 4 * m.slot)) 23 0 = (meanRne (m.words ++ [code.toInt]) % 2 ^ 24).toNat ∧
        fld (r.m.monReg c.ix (Off.MON_RES + 4 * m.slot)) 31 24 = (fld (s.m.monReg c.ix (Off.MON_RES + 4 * m.slot)) 31 24 + 1) % 256 ∧
        (r.m.clus c.ix).mon.slot = (if fld (s.m.monSet c.ix Off.MON_CTL) 8 5 ≤ m.slot then 0 else m.slot + 1) ∧
        (r.m.clus c.ix).mon.words = [] ∧ (r.m.clus c.ix).mon.discard = 3)) ∧
  (∀ (s : State) (c : ClusterRef), s.m.Settled → s.m.alive c.ch.val = true →
    (∀ (r : Fin 5) (ma mv : Nat), Answers (.fastMeterSample (.rail c r) ma mv) s fun t => SameBytes s t ∧ t.m.regs = s.m.regs ∧ t.m.tiles = s.m.tiles ∧
      (∀ i : Nat, (t.m.clus c.ix).meters[i]? = ((s.m.clus c.ix).meters[i]?).map fun x =>
        if i = r.val then { x with n := x.n + 1, amps := x.amps + ma, volts := x.volts + mv } else x)) ∧
    (∀ ma mv : Nat, Gives (.fastMeterSample .vin ma mv) s { s.m with vinMeter :=
        { s.m.vinMeter with n := s.m.vinMeter.n + 1, amps := s.m.vinMeter.amps + ma, volts := s.m.vinMeter.volts + mv } }) ∧
    (∀ v : BitVec 16, (s.m.mgt 8).restarting = false → Answers (.inletTempRead (some v)) s fun t => SameWork s t ∧
      (∀ ch, ch < 8 → t.m.rd .thmCh ch 0 Off.THM_TIN = v.setWidth 32) ∧
      SameRegs s t fun a => ∃ ch, ch < 8 ∧ a = pageOff .thmCh ch 0 Off.THM_TIN) ∧
    ((s.m.mgt 8).restarting = false → Answers (.inletTempRead none) s fun t => SameWork s t ∧
      ∀ ch, ch < 8 → t.m.rdF .thmCh ch 0 Off.THM_TIN 15 0 = 35 * 16 ∧ t.m.rdF .thmCh ch 0 Off.THM_TIN 16 16 = 1) ∧
    (256 ≤ (s.m.therm c.ix).sinceOffset → (s.m.therm c.ix).started = true →
      let th := s.m.therm c.ix
      let hs := s.m.healthy c.ch.val ((List.range 4).map (c.cl.val * 4 + ·))
      let o := F32.add th.o (F32.scaleDown (F32.sub (F32.ofRat (hs.sum < 0) hs.sum.natAbs (16 * hs.length)) th.tModel) 3 false)
      let ten := F32.ofNat 10
      Does (.thermalOffsetUpdate c) s fun t => SameBytes s t ∧ t.m.tiles = s.m.tiles ∧ (t.m.therm c.ix).sinceOffset = 0 ∧
        (t.m.therm c.ix).o = if hs.isEmpty then th.o else if F32.lt ten o then ten else if F32.lt o (F32.flip ten) then F32.flip ten else o))

/-- Throttling: the grace time of an ask ends; an enforced cut tightens to three quarters every 64 planks, never below an eighth of B0 nor below
1, unless the cluster has cooled; an enforced clock slows further unless the cluster has cooled, and steps back after the return to WARNING;
THM_LIM takes only limits in order (R409, R411 to R413). Shutdown: an orderly stop whose sequences are all done ends in HALTED with CAUSE
THM_SHUTDOWN; a comparator's trip is a hard stop, with THERMTRIP_N asserted and CAUSE THERMTRIP. Memory stays (R384, R415, R416). -/
def Obligations.HeatIsShed : Prop :=
  (∀ (s : State) (c : ClusterRef), s.m.Settled → s.m.alive c.ch.val = true →
    let th := s.m.therm c.ix
    (th.state = .asked → th.grace ≤ 1 → Gives (.throttleGraceExpire c) s (s.m.modTherm c.ix fun th => { th with graceEnded := true })) ∧
    (∀ k : Cut, th.cut = some k → th.state = .enforced → 64 ≤ th.tick → Answers (.throttleTighten c) s fun r => r.m.regs = s.m.regs ∧ SameBytes s r ∧
      r.m.therm c.ix = { th with tick := 0, cut := some (if notCooler th then { k with l := max (max 1 (k.sum / 64 / 8)) (3 * k.l / 4) } else k) } ∧
      ∀ d, d ≠ c.ix → r.m.therm d = s.m.therm d) ∧
    (64 ≤ th.tick → 0 < th.clock → th.state = .enforced → Answers (.clockSlowStep c) s fun r => r.m.regs = s.m.regs ∧ SameBytes s r ∧
      r.m.therm c.ix = { th with tick := 0, clock := if F32.lt th.tCl th.clockT then th.clock else 2, clockT := th.tCl }) ∧
    (64 ≤ th.tick → 0 < th.clock → th.state = .warning ∨ th.state = .nominal → Answers (.clockSlowStep c) s fun r => r.m.regs = s.m.regs ∧
      SameBytes s r ∧ r.m.therm c.ix = { th with tick := 0, clock := th.clock - 1 }) ∧
    (∀ (fn : Fn) (v : Word), s.m.Writes fn ⟨.thmCh, c.ch.val, 0⟩ Off.THM_LIM → Answers (.thmLimWrite fn c.ch v) s fun r => SameWork s r ∧
      r.m.rdF .thmCh c.ch.val 0 Off.THM_LIM 23 0 = (if limOk v then fld v 23 0 else s.m.rdF .thmCh c.ch.val 0 Off.THM_LIM 23 0) ∧
      SameRegs s r (· = pageOff .thmCh c.ch.val 0 Off.THM_LIM))) ∧
  ((∀ (s : State) (ch : ChId), s.m.alive ch.val = true →
    ((s.m.chan ch.val).orderly = true → (s.m.chan ch.val).stopCkpt = true → s.m.stopLeft ch.val = false → s.m.fltState ch.val ≠ 2 →
      Does (.orderlyStopComplete ch) s fun r => r.m.fltState ch.val = 2 ∧ r.m.rdF .fltCh ch.val 0 Off.FLT_STA 10 4 = 84 ∧
        (r.m.chan ch.val).orderly = false ∧ SameBytes s r ∧ r.m.rqt = s.m.rqt) ∧
    (∀ (c : ClusterRef) (d : Fin 4), c.ch = ch → s.m.vin = true → (s.m.chan ch.val).tripped = false → s.m.fltState ch.val ≠ 2 →
      Does (.diodeComparatorTrip c d) s fun r =>
        r.m.fltState ch.val = 2 ∧ r.m.rdF .fltCh ch.val 0 Off.FLT_STA 10 4 = 85 ∧ r.m.thermtrip = true ∧ (r.m.chan ch.val).tripped = true ∧
          SameBytes s r ∧ r.m.rqt = s.m.rqt)) ∧
  ∀ (s : State) (ch : ChId), s.m.Settled → s.m.alive ch.val = true → s.m.fltState ch.val = 0 → s.m.NoWork ch.val →
    ((s.m.chan ch.val).orderly = true → (s.m.chan ch.val).stopCkpt = true → s.m.stopLeft ch.val = false →
      Answers (.orderlyStopComplete ch) s fun r => r.m.fltState ch.val = 2 ∧ r.m.rdF .fltCh ch.val 0 Off.FLT_STA 10 4 = 84 ∧
        (r.m.chan ch.val).orderly = false ∧ SameBytes s r ∧ r.m.rqt = s.m.rqt) ∧
    (∀ (c : ClusterRef) (d : Fin 4), c.ch = ch → (s.m.chan ch.val).tripped = false → Answers (.diodeComparatorTrip c d) s fun r =>
      r.m.fltState ch.val = 2 ∧ r.m.rdF .fltCh ch.val 0 Off.FLT_STA 10 4 = 85 ∧ r.m.thermtrip = true ∧ (r.m.chan ch.val).tripped = true ∧
        SameBytes s r ∧ r.m.rqt = s.m.rqt))

/-- Blocking runs: RUN makes a core's run due, BUSY where one is due or under way; one that has waited BKG_LATE planks raises BKG_LATE and goes
ahead; the end of one stores the new tables of each tile it measured, and its tiles return at the next boundary (R419, R420, R422, R429).
ARR_TCMD: OFFLINE of a tile in IDLE is OK and keeps it out of the pool until ONLINE; a tile in PROGRAMMING or BLOCKING is BUSY, a RETIRED
one and another command RANGE; ARR_TCMD_STA names the tile (R64). -/
def Obligations.TilesAreServiced : Prop :=
  (∀ (s : State) (core : CoreRef), s.m.Settled →
    let b := (s.m.core core.ix).bkg
    (∀ fn : Fn, s.m.Writes fn ⟨.bkgCh, core.ch.val, 0⟩ Off.BKG_CMD → b.due = none → b.running = none → Answers (.bkgCmdRun fn core) s fun r => SameBytes s r ∧
      (r.m.core core.ix).bkg.due = some (s.m.chan core.ch.val).time ∧ r.m.rdF .bkgCh core.ch.val 0 Off.BKG_CMD_STA 7 0 = Code.OK ∧
      SameRegs s r (· = pageOff .bkgCh core.ch.val 0 Off.BKG_CMD_STA)) ∧
    (∀ fn : Fn, s.m.Writes fn ⟨.bkgCh, core.ch.val, 0⟩ Off.BKG_CMD → b.due.isSome = true ∨ b.running.isSome = true → Answers (.bkgCmdRun fn core) s fun r => SameWork s r ∧
      r.m.rdF .bkgCh core.ch.val 0 Off.BKG_CMD_STA 7 0 = Code.BUSY ∧ SameRegs s r (· = pageOff .bkgCh core.ch.val 0 Off.BKG_CMD_STA)) ∧
    (s.m.running core.ch.val = true → b.due.isSome = true → b.running = none → b.late = false →
      max 1 (s.m.inForce .bkgCh core.ch.val 0 Off.BKG_LATE 23 0) ≤ b.waited → s.m.Records core.ch.val 89 →
      Answers (.bkgLateExpire core) s fun r => SameBytes s r ∧ r.m.tiles = s.m.tiles ∧ (r.m.core core.ix).bkg = { b with late := true } ∧
        bit (r.m.rd .bkgCh core.ch.val 0 Off.PG_FLT) 3 = true) ∧
    (∀ l : List TileCal, s.m.programs core.ch.val = true → b.running.isSome = true → b.done = false →
      Does (.blockingRunDone core l) s fun r => SameBytes s r ∧ r.m.rqt = s.m.rqt ∧ (r.m.core core.ix).bkg = { b with done := true }) ∧
    (∀ c : TileCal, s.m.programs core.ch.val = true → b.running.isSome = true → b.done = false → c.tile.val < 16 → c.convFail = [] →
      c.driverFail = false → c.rowConvFail = false →
      let k := core.cluster.ix * 132 + core.co.val * 16 + c.tile.val
      (s.m.tile k).state ≠ .programming → (s.m.tile k).state ≠ .retired →
      Answers (.blockingRunDone core [c]) s fun r => SameBytes s r ∧ r.m.tile k = sealTable (newTables c (s.m.tile k)) ∧
        (∀ j, j ≠ k → r.m.tile j = s.m.tile j) ∧ (r.m.core core.ix).bkg = { b with done := true })) ∧
  (∀ (s : State) (fn : Fn) (core : CoreRef) (w : Word), s.m.Settled →
    let co := core.cl.val * 8 + core.co.val
    s.m.Writes fn ⟨.arr, core.ch.val, co⟩ Off.ARR_TCMD →
    let k := (core.ch.val * 8 + core.cl.val) * 132 + core.co.val * 16 + fld w 3 0
    let t := s.m.tile k
    let shows (r : State) (code : Nat) : Prop := r.m.rd .arr core.ch.val co Off.ARR_TCMD_STA = BitVec.ofNat 32 (code + fld w 3 0 * 256) ∧
      SameRegs s r (· = pageOff .arr core.ch.val co Off.ARR_TCMD_STA) ∧ SameBytes s r
    (t.state = .retired ∨ (fld w 6 4 ≠ 1 ∧ fld w 6 4 ≠ 2) → Answers (.arrTcmd fn core w) s fun r => SameWork s r ∧ shows r Code.RANGE) ∧
    (fld w 6 4 = 1 ∨ fld w 6 4 = 2 → t.state = .programming ∨ t.state = .blocking →
      Answers (.arrTcmd fn core w) s fun r => SameWork s r ∧ shows r Code.BUSY) ∧
    (fld w 6 4 = 1 → t.state = .idle → Answers (.arrTcmd fn core w) s fun r => r.m.tile k = { t with offline := true } ∧ shows r Code.OK ∧
      ∀ j, j ≠ k → r.m.tile j = s.m.tile j) ∧
    (fld w 6 4 = 2 → t.state = .idle ∨ t.state = .ready → Answers (.arrTcmd fn core w) s fun r =>
      r.m.tile k = { t with offline := false } ∧ shows r Code.OK ∧ ∀ j, j ≠ k → r.m.tile j = s.m.tile j))

/-! ### Tiles, correction and drift -/

/-- MVMs: a descriptor for the READY tile or spare that serves an index puts one MVM on the held codes of its execution at the end of the queue,
EXACT where every code is zero (R45), and a transpose read likewise where it is enabled and the row converters work; elsewhere the PAE does
the transpose work from the W5 copy, and its leaf joins the group; a descriptor for a tile that is not READY raises ARR_SEQ and reads
nothing (R48, R50, R53, R56, R57, R63). -/
def Obligations.ReadsAreQueued : Prop :=
  ∀ (s : State) (tile : TileRef) (d : MvmDesc) (dev : AnalogDev), s.m.running tile.ch.val = true →
    let k := s.m.serving tile.ix
    let t := s.m.tile k
    let c := s.m.tileServes k
    let joins (q : QPart) (tr : Bool) (r : State) : Prop := SameBytes s r ∧ r.m.rqt = s.m.rqt ∧ (∀ j, j ≠ k → r.m.tile j = s.m.tile j) ∧
      (r.m.tile k).levels = t.levels ∧ ∃ x : Mvm, (r.m.tile k).mvms = t.mvms ++ [x] ∧ x.d = d ∧ x.inp = q.inp ∧ x.transpose = tr ∧
        x.exact = q.inp.codes.all (· = 0) ∧ x.phase = .reading ∧ x.reads = 1
    (∀ sl e q, t.state = .ready → t.slices[d.slice.val]? = some sl → s.m.heldInput t sl c d false = some (e, q) → (queued t).length < 5 → w5Bad sl q.inp false = false →
      Forms (.mvmDescriptor tile d dev) s (joins q false)) ∧
    (∀ sl e q, t.state = .ready → t.slices[d.slice.val]? = some sl → s.m.transOk k = true → s.m.heldInput t sl c d true = some (e, q) → (queued t).length < 5 →
      w5Bad sl q.inp true = false → Forms (.transposeRead tile d dev) s (joins q true)) ∧
    (∀ sl e l b p, t.state = .ready → t.slices[d.slice.val]? = some sl → s.m.transOk k = false → s.m.execOf c d.exec = some e → e.transpose = true →
      s.m.sliceBlock t sl = some (l, b) → s.m.patOfLayer (t.ctx.getD 0) sl.layer = some p → (s.m.clus (c / 8)).pae.run = none →
      s.m.Awaits c d.group.val d.epoch.val (leafIx l b c true) d.vec.val →
      Forms (.transposeRead tile d dev) s fun r => SameBytes s r ∧ r.m.tiles = s.m.tiles ∧ (r.m.clus (c / 8)).pae.kind = 4 ∧
        ∃ vals : List F32, vals.length = b.rspan ∧ (r.m.group c d.group.val).leaves =
          (s.m.group c d.group.val).leaves ++ [⟨leafIx l b c true, d.vec.val, vals, b.cspan, 1, false⟩]) ∧
    (t.state ≠ .ready → s.m.Records (tileCh k) 12 → Forms (.mvmDescriptor tile d dev) s fun r => SameBytes s r ∧ r.m.tiles = s.m.tiles ∧
      bit (r.m.rd .arrCh (tileCh k) 0 Off.PG_FLT) 4 = true)

/-- The correction path, which writes no cell: the values of the read at the front of the queue are formed and wait for the pounce share,
without a check for a transpose or EXACT read, after the band check for any other one, unless that is off or a band converter saturated; of
a duplicated pair the first decided waits for the other; a result that fails the check with reads left is queued for a re-read. A pounce
share that comes first is noted; one for which the result waits lets it enter its group as a leaf. A re-read whose result stands waits like
a first read, with its further reads counted (R55, R67, R68, R82 to R86). -/
def Obligations.SumsAreCorrected : Prop :=
  ∀ (s : State) (tile : TileRef) (m : Mvm) (sl : Slice), s.m.running tile.ch.val = true →
    let k := s.m.serving tile.ix
    let t := s.m.tile k
    let c := s.m.tileServes k
    let swap (x : Mvm) : List Mvm := t.mvms.map fun y => if y = m then x else y
    let ys := colValues Config.pairPos t sl m (s.m.digOn k)
    let holds (r : State) : Prop := SameBytes s r ∧ (∀ j, j ≠ k → r.m.tile j = s.m.tile j) ∧ (r.m.tile k).levels = t.levels
    (∀ (late : Nat) (dev : AnalogDev), ∀ x ∈ [Instr.mvmSumsArrive tile, .pounceShareDone ⟨tile, late⟩, .rereadComplete tile dev],
      Forms x s fun r => r.m.rqt = s.m.rqt ∧ ∀ j, (r.m.tile j).levels = (s.m.tile j).levels) ∧
    (t.slices[m.d.slice.val]? = some sl →
    ((queued t).head? = some m → m.phase = .reading → m.transpose = false → m.exact = false → sl.dup.isSome = true →
      (∀ e, s.m.execOf c m.d.exec = some e → e.accepted = false ∧ e.seen + 1 < e.mvms) → (∀ k2 m2, s.m.dupMvm sl m = some (k2, m2) → m2.phase ≠ .decided) →
      (s.m.dupMvm sl m).isSome = true →
      let fail := !s.m.unchecked k m && overConf (s.m.figureOf k sl m).1 (s.m.figureOf k sl m).2 (s.m.confOf k sl).1
      Forms (.mvmSumsArrive tile) s fun r => holds r ∧ (r.m.tile k).mvms = swap { m with vals := ys, failed := fail, phase := .decided }) ∧
    ((queued t).head? = some m → m.phase = .reading → m.pounce = false →
      let more := ∀ e, s.m.execOf c m.d.exec = some e → e.accepted = false ∧ e.seen + 1 < e.mvms
      (m.transpose = true → Forms (.mvmSumsArrive tile) s fun r => holds r ∧
        r.m.tile k = { t with mvms := swap { m with vals := rowValues t sl m, phase := .waiting } }) ∧
      (more → m.transpose = false → m.exact = true → Forms (.mvmSumsArrive tile) s fun r => holds r ∧
        r.m.tile k = { t with mvms := swap { m with vals := ys, phase := .waiting } } ∧
        ∀ e, s.m.execOf c m.d.exec = some e → ∃ x, r.m.execOf c m.d.exec = some x ∧ x.seen = e.seen + 1) ∧
      (more → m.transpose = false → m.exact = false → sl.dup = none → s.m.inForce .cor (coreCh c) (coreIn c) Off.COR_CTL 2 2 = 0 →
        let ok := s.m.unchecked k m || !overConf (s.m.figureOf k sl m).1 (s.m.figureOf k sl m).2 (s.m.confOf k sl).1
        (ok = true → Forms (.mvmSumsArrive tile) s fun r => holds r ∧ (r.m.tile k).mvms = swap { m with lowConf := false, vals := ys, phase := .waiting } ∧
          ∀ e, s.m.execOf c m.d.exec = some e → ∃ x, r.m.execOf c m.d.exec = some x ∧ x.seen = e.seen + 1) ∧
        (ok = false → m.reads < (s.m.confOf k sl).2 → Forms (.mvmSumsArrive tile) s fun r => holds r ∧
          ∃ x ∈ (r.m.tile k).mvms, x = { m with phase := .rereading }))) ∧
    (∀ late, t.mvms.find? (fun m => !m.pounce) = some m → m.phase ≠ .waiting → Forms (.pounceShareDone ⟨tile, late⟩) s fun r => holds r ∧
      r.m.regs = s.m.regs ∧ r.m.tile k = { t with mvms := swap { m with pounce := true } }) ∧
    (∀ late, t.mvms.find? (fun m => !m.pounce) = some m → m.phase = .waiting →
      let leaf := s.m.leafOf k sl { m with pounce := true } m.vals
      s.m.Awaits c m.d.group.val m.d.epoch.val leaf.ix leaf.vec →
      Forms (.pounceShareDone ⟨tile, late⟩) s fun r => holds r ∧ (r.m.tile k).mvms = (swap { m with pounce := true }).erase { m with pounce := true } ∧
        (r.m.group c m.d.group.val).leaves = (s.m.group c m.d.group.val).leaves ++ [leaf]) ∧
    (∀ dev, (queued t).head? = some m → m.phase = .rereading → m.pounce = false → sl.dup = none →
      s.m.inForce .cor (coreCh c) (coreIn c) Off.COR_CTL 2 2 = 0 →
      let m' := (addReads t sl (s.m.readHow k m.bits m.gain) dev (if m.reads = 1 then 1 else 2) m).1
      (s.m.unchecked k m' || !overConf (s.m.figureOf k sl m').1 (s.m.figureOf k sl m').2 (s.m.confOf k sl).1) = true →
      Forms (.rereadComplete tile dev) s fun r => holds r ∧
        ∃ x ∈ (r.m.tile k).mvms, x.d = m.d ∧ x.phase = .waiting ∧ x.reads = m.reads + (if m.reads = 1 then 1 else 2) ∧ x.lowConf = false))

/-- Drift tracking: the readings of a probe of a tile in READY or a spare in SHADOW join the interval's sums; an interval's end starts every
tile in READY afresh with new coefficients for the next boundary; with one READY tile, enough probes and no jump, they are the quotients of
the probes' means and the baseline; a refresh that has waited REFRESH_WAIT planks without a spare is done in place (R73 to R76, R78).
Localisation: each probe of a sub-block that has had fewer than four adds its readings and takes 96 ns of slack; after four of each, a tile
without a flagged column is marked suspect, from now on unless it was before, and the first flag of a column has it re-programmed, with a
digital stand-in meanwhile (R89, R90). -/
def Obligations.DriftIsTracked : Prop :=
  (∀ (s : State) (ch : ChId), s.m.Settled → s.m.running ch.val = true →
    (∀ (cl : ClId) (i : Fin 132) (dev : AnalogDev), let k := (ch.val * 8 + cl.val) * 132 + i.val
      let t := s.m.tile k
      let ci := coreIn (s.m.tileServes k)
      let rd := slotRead 0 0 1 (rowContrib t.levels probeRow fun p => decide (2121 ≤ p)) dev (fun p => decide (2121 ≤ p)) ReadRes.empty
      s.m.inForce .cor ch.val ci Off.COR_CTL 4 4 = 1 → t.state = .ready ∨ t.state = .shadow → 96 ≤ t.slack →
      t.probes < s.m.inForce .corCh ch.val 0 Off.COR_DRIFT 20 16 → Answers (.referenceProbe ⟨ch, cl, i⟩ dev) s fun r => SameBytes s r ∧
        r.m.tile k = { t with
          probeSum := (t.probeSum.zipIdx).map (fun e => F32.add e.1 (F32.ofInt (rd.sums.get 0 (2121 + e.2) * (codeStep 0 : Int)))),
          probes := t.probes + 1, slack := t.slack - 96 } ∧
        ∀ j, j ≠ k → r.m.tile j = s.m.tile j) ∧
    ((s.m.chan ch.val).driftLeft = 0 → s.m.Records ch.val 20 → s.m.Records ch.val 21 → Answers (.driftIntervalEnd ch) s fun r => SameBytes s r ∧
      (r.m.chan ch.val).driftLeft = max 1 (s.m.inForce .corCh ch.val 0 Off.COR_DRIFT 15 0) ∧ (r.m.chan ch.val).longSum = [] ∧
      ∀ k, tileCh k = ch.val → (s.m.tile k).state = .ready → (r.m.tile k).probes = 0 ∧ (r.m.tile k).coefNext.isSome = true ∧
        (r.m.tile k).drift = (s.m.tile k).drift ∧ (r.m.tile k).levels = (s.m.tile k).levels) ∧
    (∀ k t, (s.m.chan ch.val).driftLeft = 0 → (s.m.tiles.filter fun e => tileCh e.1 = ch.val ∧ e.2.state = .ready) = [(k, t)] → s.m.tile k = t →
      s.m.inForce .corCh ch.val 0 Off.COR_DRIFT 20 16 ≤ t.probes * 2 → s.m.inForce .cor ch.val (coreIn (s.m.tileServes k)) Off.COR_CTL 4 4 = 1 → t.zeroW = 0 →
      s.m.Records ch.val 21 → Answers (.driftIntervalEnd ch) s fun r => SameBytes s r ∧
        let d := (t.probeBase.zipIdx).map fun e => F32.div (F32.div (nth 0#32 t.probeSum e.2) (F32.ofNat t.probes)) e.1
        r.m.tile k = { t with coefNext := some (d, t.dOff), zeroSum := List.replicate 7 0#32, probeSum := List.replicate 7 0#32, probes := 0, missRun := 0,
                              probePlan := false }) ∧
    (∀ (tile : TileRef) (p : Nat), tile.ch = ch →
      let k := ((s.m.sparesOf tile.ix).find? fun sp => (s.m.tile sp).role = .adopted tile.ix && (s.m.tile sp).state ≠ .retired).getD tile.ix
      (s.m.tile k).refreshDue = some p → p + max 1 (s.m.inForce .corCh (tileCh k) 0 Off.COR_RFW 15 0) ≤ (s.m.chan (tileCh k)).plank →
      s.m.spareWith (tileCl tile.ix) (· = .standin tile.ix) = none →
      Gives (.refreshWaitExpire tile) s (s.m.modTile k fun t => { t with refreshLate := true }))) ∧
  (∀ (s : State) (tile : TileRef) (lr : LocRun), s.m.Settled → s.m.running tile.ch.val = true →
    let k := s.m.serving tile.ix
    let t := s.m.tile k
    let plank := (s.m.chan (tileCh k)).plank
    t.loc = some lr →
    (∀ (m : Fin 8) (dev : AnalogDev), lr.done.get 0 m.val < 4 → 96 ≤ t.slack → Answers (.localisationProbe tile m dev) s fun r => SameBytes s r ∧
      (∃ x : LocRun, r.m.tile k = { t with loc := some x, slack := t.slack - 96 } ∧ x.done = lr.done.put m.val (lr.done.get 0 m.val + 1) ∧ x.gain = lr.gain) ∧
      ∀ j, j ≠ k → r.m.tile j = s.m.tile j) ∧
    ((∀ m, m < 8 → 4 ≤ lr.done.get 0 m) → (∀ j ∈ bandCols t, flagged Config.pairPos t lr j = false) → Answers (.localisationRunEnd tile) s fun r => SameBytes s r ∧
      r.m.regs = s.m.regs ∧ r.m.tile k = { t with loc := none, suspect := true, suspectAt := (if t.suspect then t.suspectAt else plank) } ∧
      ∀ j, j ≠ k → r.m.tile j = s.m.tile j) ∧
    (∀ j, (∀ m, m < 8 → 4 ≤ lr.done.get 0 m) → (bandCols t).filter (flagged Config.pairPos t lr) = [j] → t.digCols.length < 4 → t.digCols.contains j = false →
      t.flaggedAt.get 0 j = 0 → (∀ e ∈ t.colMap, e.1 ≠ j) → Answers (.localisationRunEnd tile) s fun r => SameBytes s r ∧ r.m.regs = s.m.regs ∧
        r.m.tile k = { t with loc := none, flaggedAt := t.flaggedAt.set 0 j (plank + 1), digCols := t.digCols ++ [j], window := [], colJobs := t.colJobs ++ [(j, none)] } ∧
        ∀ i, i ≠ k → r.m.tile i = s.m.tile i))

/-- Shadow replay: a replay of the MVM in the shadow buffer is counted and empties the buffer, and what it finds is held at most; the digital
check counts each side that differs and lets the values go; the end of a dwell that has lasted waits for the boundary (R100 to R103). -/
def Obligations.ShadowsAreCompared : Prop :=
  ∀ (s : State) (c : ClusterRef), s.m.Settled → s.m.running c.ch.val = true →
    let sh := (s.m.clus c.ix).shadow
    let vk := s.m.serving (c.ix * 132 + sh.victim)
    let sk := c.ix * 132 + 128 + sh.spare
    (∀ (dev : AnalogDev) (m : Mvm) (vs ss : Slice), s.m.inForce .corCh c.ch.val 0 Off.COR_SHD_CTL 0 0 = 1 → sh.valid = true → (s.m.tile sk).state = .shadow →
      sh.sample = some m → (s.m.tile vk).slices[m.d.slice.val]? = some vs →
      (s.m.tile sk).slices[m.d.slice.val]? = some ss → Answers (.shadowReplay c dev) s fun r => SameBytes s r ∧ r.m.tiles = s.m.tiles ∧
        (s.m.rdF .corCh c.ch.val 0 Off.PG_CTL 0 0 = 0 →
          r.m.rd64 .corCh c.ch.val 0 Off.COR_SHD_CMP = (s.m.rd64 .corCh c.ch.val 0 Off.COR_SHD_CMP + 1) % 2 ^ 64) ∧
        ∃ h, (r.m.clus c.ix).shadow = { sh with sample := none, held := h } ∧ (h = sh.held ∨ h.isSome = true)) ∧
    (∀ (a b dig : List F32) (g p : Int) (codes : List Int), sh.held = some (a, b, dig, g :: p :: codes) → sh.vicCnt = 0 → sh.sprCnt = 0 →
      let var (t : Tile) : Fr := sigmaCol2 g.toNat p.toNat (sumSq codes) 1 t.vConv t.vCell
      let diff (x : List F32) (k : Nat) : Nat := (zOver (zSum x dig (var (s.m.tile k)) 1) dig.length).toNat
      Answers (.shadowDigitalCheck c) s fun r => SameBytes s r ∧ r.m.tiles = s.m.tiles ∧ r.m.regs = s.m.regs ∧
        (r.m.clus c.ix).shadow = { sh with held := none, vicCnt := diff a vk, sprCnt := diff b sk }) ∧
    (sh.since + 2 ^ s.m.inForce .corCh c.ch.val 0 Off.COR_SHD_CTL 20 16 ≤ (s.m.chan c.ch.val).plank →
      Gives (.shadowDwellEnd c) s (s.m.modClus c.ix fun x => { x with shadow := { x.shadow with dwellEnd := true } }))

/-! ### Formats and accumulation -/

/-- The fuller: an execution of a loaded layer, forward or transpose, is entered in its core with its rotated vectors and held codes, and no
decision is taken early where early decisions are off; a key and a value are written into their page's frame, whose FILL rises; a hold of
wide mode that has run out ends at the next boundary (R113, R118, R123, R126, R128, R135, R192). Accumulation: a leaf of another epoch only
counts in ACC_STALE; one that an open group waits for joins it and is counted once; the single leaf of a one-value FP32 group that needs no
acceptance is written to DEST in the scratchpad and frees the group; the adapter leaf of a micro-batch's vector joins the group of the
lowest core that holds a slice; a vector engine's own part counts in ACC_TOPK; a channel's root joins its module's node on another channel
(R142 to R145, R148, R149, R155, R156, R272). -/
def Obligations.VectorsAreAccumulated : Prop :=
  (∀ s : State,
    (∀ (core : CoreRef) (q : ExecReq) (l : Layer), s.m.running core.ch.val = true → s.m.layerOf q.ctx.val q.layer = some l →
      q.transpose = true ∨ s.m.inForce .fulCh core.ch.val 0 Off.FUL_CTL 1 1 = 0 →
      Forms (.fullerQuantiseDone core (.exec q)) s fun r => SameBytes s r ∧ r.m.tiles = s.m.tiles ∧
        (r.m.core core.ix).execs = (s.m.core core.ix).execs.filter (fun y => y.id ≠ q.exec) ++
          [newExec l core.ix (s.m.rdF .pnc core.ch.val (coreIn core.ix) Off.PNC_CTL 5 0) (s.m.clus core.cluster.ix).storm.wide q]) ∧
    (∀ (core : CoreRef) (w : KvRow) (p : Pattern) (st : Step) (l : Layer) (pg : PageSt) (f : Frame) (j nh : Nat), s.m.running core.ch.val = true →
      s.m.seqPat w.seq.ix = some p → (s.m.seq w.seq.ix).step = some st → p.layers[w.layer]? = some l →
      let key := pageKey w.layer (w.pos / spanP p)
      (s.m.seq w.seq.ix).pages.find? (fun e => e.1 = key) = some (key, pg) → headPlace (spanP p) l pg w.head = some (f, j, nh) →
      st.start ≤ w.pos → w.pos < st.stop + st.drafts → pg.state ≠ .present ∨ (∀ a, st.kind ≠ .recompute a) → f.tier ≤ 2 →
      core.cluster.ix = w.seq.ch.val * 8 + (s.m.seq w.seq.ix).home →
      Forms (.fullerQuantiseDone core (.kv [w])) s fun r => r.m.tiles = s.m.tiles ∧ r.m.rqt = s.m.rqt ∧
        (r.m.seq w.seq.ix).pages = (s.m.seq w.seq.ix).pages.put key { pg with fill := max pg.fill (w.pos % spanP p + 1) }) ∧
    (∀ c : ClusterRef, s.m.Settled → s.m.running c.ch.val = true → (s.m.clus c.ix).storm.wide = true → (s.m.clus c.ix).storm.left ≤ 1 →
      Gives (.wideModeHoldEnd c) s (s.m.modClus c.ix fun x => { x with storm := { x.storm with ended := true } }))) ∧
  (∀ (s : State) (core : CoreRef) (g : Fin 16), s.m.running core.ch.val = true →
    let gr := s.m.group core.ix g.val
    (∀ (epoch : Fin 4) (leaf : Nat) (vec : Fin 16) (vals : List F32) (len : Nat),
      let cmd : Instr := .leafArrival core (.group g epoch leaf vec vals len)
      (gr.epoch ≠ epoch.val → Forms cmd s fun r => r.m = s.m.bump .acc core.ch.val (core.ix % 64) Off.ACC_STALE 1) ∧
      (gr.src ≠ 0 → s.m.Awaits core.ix g.val epoch.val leaf vec.val → Forms cmd s fun r => SameBytes s r ∧ r.m.tiles = s.m.tiles ∧
        (r.m.group core.ix g.val).leaves = gr.leaves ++ [⟨leaf, vec.val, vals, len, 1, false⟩] ∧ (r.m.group core.ix g.val).state = .opened ∧
        (r.m.group core.ix g.val).len = (if gr.leaves.any (fun x => x.ix = leaf) then gr.len else lenAdd gr.len len)) ∧
      (∀ (x : F32) (a : Fin (2 ^ 22)), gr.epoch = epoch.val → gr.state = .opened → gr.leaves = [] → gr.seen = [] → gr.nLeaf = 1 → gr.vecs = 1 → gr.bias = [] → gr.src = 1 →
        gr.ofmt = 0 → s.m.Records core.ch.val 30 → vals = [x] → vec.val = 0 → leaf = 0 → gr.dest = .scratchpad a → a.val + 4 ≤ 0x400000 →
        Forms cmd s fun r => SameBytes s r ∧ r.m.tiles = s.m.tiles ∧ (r.m.group core.ix g.val).state = .free ∧
          (∀ i, i < 4 → some (r.m.t0.get 0 (core.ix * 2 ^ 22 + a.val + i)) = (toBytes 4 x.toNat)[i]?) ∧
          ∀ b, b < core.ix * 2 ^ 22 + a.val ∨ core.ix * 2 ^ 22 + a.val + 4 ≤ b → r.m.t0.get 0 b = s.m.t0.get 0 b)) ∧
    (∀ (vec : Fin 16) (l : Layer) (e : Exec) (q : SeqRef) (img : AdpImg) (aOff bOff : Nat), s.m.serves core.ch.val = true → s.m.layerOf gr.ctx gr.layer = some l →
      s.m.execOf core.ix gr.exec = some e → e.seq = some q → s.m.pinnedAdapter q.ix = some img → img.layers.find? (·.1 = gr.layer) = some (gr.layer, aOff, bOff) →
      ((redTiles l false gr.first).map tileCore).head? = some core.ix → gr.src = 0 → gr.transpose = false → s.m.Awaits core.ix g.val gr.epoch (gr.nLeaf - 1) vec.val →
      Forms (.leafArrival core (.adapter g vec)) s fun r => SameBytes s r ∧ r.m.tiles = s.m.tiles ∧ (r.m.group core.ix g.val).leaves = gr.leaves ++
        [⟨gr.nLeaf - 1, vec.val, adapterVals img aOff bOff l.rows gr.first gr.cols (nth [] e.xs vec.val), img.rank, 1, false⟩]) ∧
    (∀ (ctx : CtxId) (layer run base : Nat) (xs : List F32), (s.m.topkCores ctx.val layer).contains core.ix = true →
      s.m.keyCores (.topk 1 ctx.val layer run) = some [core.ix] → s.m.rdF .acc core.ch.val (coreIn core.ix) Off.PG_CTL 0 0 = 0 →
      let k := (match s.m.layerOf ctx.val layer with | some l => if l.kind = 7 then l.moeK else 64 | none => 64)
      Forms (.leafArrival core (.part ctx layer run base xs)) s fun r => SameBytes s r ∧ r.m.tiles = s.m.tiles ∧
        r.m.rd64 .acc core.ch.val (coreIn core.ix) Off.ACC_TOPK = (s.m.rd64 .acc core.ch.val (coreIn core.ix) Off.ACC_TOPK + 1) % 2 ^ 64 ∧
        (r.m.treeNode core.ix (.topk 3 ctx.val layer run)).root = some (localTop k base xs)) ∧
    (∀ (key : NodeKey) (e : Nat) (cores : List Nat) (v : LeafVal), s.m.keyCores key = some (e :: cores) → core.ix ∈ e :: cores →
      (e :: cores).find? (fun c => coreCh c = core.ch.val) = some core.ix → (s.m.treeNode core.ix (key.at 2)).root = some v → coreCh e ≠ core.ch.val →
      s.m.fabricJoins core.ch.val (coreCh e) = true → key.at 2 ≠ key.at 3 → s.m.treeNode e (key.at 3) = TreeNode.fresh →
      let ids := ((e :: cores).map coreCh).eraseDups
      1 < ids.length → Forms (.leafArrival core (.module key)) s fun r => SameBytes s r ∧ r.m.tiles = s.m.tiles ∧
        r.m.treeNode e (key.at 3) = ⟨ids.length, [(ids.idxOf core.ch.val, v)], none⟩))

/-- A tile that was re-programmed for a refresh verifies: it holds its levels, mass tables and a fresh drift baseline, one pass older, and is
READY from the next boundary on; a tile that is not in PROGRAMMING does not change (R61, R74, R262, R263). -/
def Obligations.TilesVerify : Prop :=
  ∀ (s : State) (ch : ChId) (cl : ClId) (tile : Fin 132) (iters : Nat) (probe : List F32), s.m.Settled → s.m.programs ch.val = true →
    let k := (ch.val * 8 + cl.val) * 132 + tile.val
    let t := s.m.tile k
    (t.state = .programming → t.next = none → t.prog = some .refresh → t.wear + 1 < 9000000 →
      Answers (.tileVerifyDone ch cl tile [] iters probe) s fun r => SameBytes s r ∧
        r.m.tile k = { programmed { t with wear := t.wear + 1 } probe with next := some .ready } ∧ ∀ j, j ≠ k → r.m.tile j = s.m.tile j) ∧
    (t.state ≠ .programming → ∀ missed, Gives (.tileVerifyDone ch cl tile missed iters probe) s s.m)

/-! ### Attention -/

/-- The DAEs: an item of a decode step, with the query rows of its place, issues to an idle DAE of its sequence's home cluster, or of another
one where XCL_EN allows it, and then holds the leaf's blocks and empty partials; each arriving block but the last leaves the partials of
R168 and the blocks that are left; the last one frees the DAE, and the leaf waits at the node that merges the leaves; an entry that cannot
be followed raises PAGE_WALK and ends the item (R166, R168, R170, R175, R177, R183). The PAEs: an item of a chunk issues to the idle PAE of
the home cluster and stages its leaf; when the engine has worked it off, the PAE is free and the leaf's partial waits at the node that
merges the leaves; a backward item, with the queries and L that the forward pass saved, adds its gradients (R166, R170, R178, R180 to R182).
A block of a spill layer gives its group one leaf of as many values as the block has columns, without any tile (R264). -/
def Obligations.AttentionRuns : Prop :=
  (∀ (s : State) (core : CoreRef), s.m.Settled →
    (∀ (item : AttnItem) (p : ItemPlace) (qs : List QRow), s.m.daePlace item = some p → queryRows p item.qs = some qs → (s.m.core core.ix).dae = none →
      core.ch = item.seq.ch → s.m.serves core.ch.val = true →
      core.cl.val = (s.m.seq item.seq.ix).home ∨
        s.m.inForce .attCh core.ch.val 0 Off.ATT_CTL 1 1 = 1 ∧ (s.m.clus core.cluster.ix).therm.state ≠ .enforced →
      Answers (.daeItemStart core item) s fun r => SameBytes s r ∧ r.m.seqs = s.m.seqs ∧ r.m.tiles = s.m.tiles ∧
        r.m.core core.ix = { s.m.core core.ix with dae := some ⟨item, qs, leafBlocks p.l p.a p.b item.leaf, freshRows p.l qs, []⟩ } ∧
        (s.m.rdF .att core.ch.val core.cl.val Off.PG_CTL 0 0 = 0 → r.m.rd64 .att core.ch.val core.cl.val Off.ATT_DITEM =
          (s.m.rd64 .att core.ch.val core.cl.val Off.ATT_DITEM + 1) % 2 ^ 64)) ∧
    (∀ (a : AttnRun) (p : ItemPlace) (b : List Nat) (bs : List (List Nat)) (late : Nat), s.m.running core.ch.val = true → (s.m.core core.ix).dae = some a →
      a.blocks = b :: bs → s.m.daePlace a.item = some p →
      let got := s.m.readKv (some core.ix) a.item.seq.ix a.item.layer p.pat p.l ((a.qs.map (·.head)).eraseDups) b
      (∀ kvs, got = .got kvs → bs ≠ [] → Answers (.daeBlockArrive ⟨core, late⟩) s fun r => SameBytes s r ∧ r.m.seqs = s.m.seqs ∧ r.m.tiles = s.m.tiles ∧
        (r.m.core core.ix).dae = some { a with blocks := bs, rows := (blockRows 3 true p.l a.qs a.rows b kvs).1 }) ∧
      (∀ kvs, got = .got kvs → bs = [] → 1 < p.leaves.length →
        let key : NodeKey := .attn a.item.seq a.item.layer a.item.group a.item.part
        s.m.treeNode (s.m.homeCore a.item.seq.ix) key = TreeNode.fresh →
        Answers (.daeBlockArrive ⟨core, late⟩) s fun r => SameBytes s r ∧ r.m.tiles = s.m.tiles ∧ (r.m.core core.ix).dae = none ∧
          r.m.treeNode (s.m.homeCore a.item.seq.ix) key =
            ⟨p.leaves.length, [(p.leaves.idxOf a.item.leaf, .attn (blockRows 3 true p.l a.qs a.rows b kvs).1)], none⟩) ∧
      (got = .fault → s.m.Records core.ch.val 34 → Answers (.daeBlockArrive ⟨core, late⟩) s fun r => SameBytes s r ∧
        r.m.core core.ix = { s.m.core core.ix with dae := none } ∧ bit (r.m.rd .attCh core.ch.val 0 Off.PG_FLT) 3 = true))) ∧
  (∀ (s : State) (c : ClusterRef), s.m.Settled → s.m.serves c.ch.val = true →
    (∀ (item : AttnItem) (p : ItemPlace) (qs : List QRow) (kvs : List KvAt), s.m.paePlace item = some p → queryRows p item.qs = some qs → (s.m.clus c.ix).pae.run = none →
      c.ch = item.seq.ch → c.cl.val = (s.m.seq item.seq.ix).home →
      let bs := leafBlocks p.l p.a p.b item.leaf
      s.m.readKv none item.seq.ix item.layer p.pat p.l ((qs.map (·.head)).eraseDups) bs.flatten = .got kvs →
      Answers (.paeItemStart c item) s fun r => SameBytes s r ∧ r.m.tiles = s.m.tiles ∧ (r.m.clus c.ix).pae.kind = 1 ∧
        (r.m.clus c.ix).pae.run = some ⟨item, qs, bs, freshRows p.l qs, kvs⟩ ∧ (r.m.clus c.ix).pae.ctx = (s.m.seq item.seq.ix).ctx) ∧
    (∀ (a : AttnRun) (p : ItemPlace), (s.m.clus c.ix).pae.run = some a → s.m.paePlace a.item = some p →
      let key : NodeKey := .attn a.item.seq a.item.layer a.item.group a.item.part
      s.m.treeNode (s.m.homeCore a.item.seq.ix) key = TreeNode.fresh → 1 < p.leaves.length →
      Answers (.paeStageDone c) s fun r => (r.m.clus c.ix).pae.kind = 0 ∧ (r.m.clus c.ix).pae.run = none ∧ r.m.tiles = s.m.tiles ∧
        (s.m.tuning a.item.seq.ix = false → SameBytes s r) ∧
        r.m.treeNode (s.m.homeCore a.item.seq.ix) key =
          ⟨p.leaves.length, [(p.leaves.idxOf a.item.leaf, .attn (leafRows p.l.qfmt p.l a.qs a.staged a.blocks a.rows).1)], none⟩) ∧
    (∀ (item : BwdItem) (p : ItemPlace) (kvs : List KvAt), s.m.bwdPlace item = some p → (s.m.clus c.ix).pae.run = none → c.ch = item.seq.ch →
      c.cl.val = (s.m.seq item.seq.ix).home → item.rows.length = p.rows.length → (∀ q ∈ p.rows, s.m.absentPages item.seq.ix q.2.2 = []) →
      s.m.readKv none item.seq.ix item.layer p.pat p.l ((p.rows.map (·.1)).eraseDups) (leafBlocks p.l p.a p.b item.leaf).flatten = .got kvs →
      Answers (.paeBackwardItem c item) s fun r => SameBytes s r ∧ r.m.seqs = s.m.seqs ∧ r.m.tiles = s.m.tiles ∧ (r.m.clus c.ix).pae.kind = 3 ∧
        ∃ rows : List BwdRow, rows.map (fun q => (q.head, q.g, q.pos, q.dO)) = (p.rows.zip item.rows).map (fun e => (e.1.1, e.1.2.1, e.1.2.2, e.2.1)) ∧
          (r.m.clus c.ix).pae.back = some (addBwd (s.m.clus c.ix).pae.back (backward p.l item.seq item.layer rows (leafBlocks p.l p.a p.b item.leaf) kvs)))) ∧
  (∀ (s : State) (c : ClusterRef) (item : SpillItem) (l : Layer) (b : Block) (p : Pattern) (x : List F32), s.m.serves c.ch.val = true →
    s.m.layerOf item.ctx.val item.layer = some l → s.m.patOfLayer item.ctx.val item.layer = some p → l.blocks[item.block]? = some b →
    s.m.blockSpills l b = true → (l.spill = true → (s.m.spillOn item.ctx.val l).contains c.ch.val = true) → item.core.cluster = c →
    (s.m.clus c.ix).pae.run = none → item.xs = [x] →
    let gr := s.m.group item.core.ix item.group.val
    s.m.Awaits item.core.ix item.group.val gr.epoch item.leaf 0 →
    Forms (.spillLayerItem c item) s fun r => SameBytes s r ∧ r.m.tiles = s.m.tiles ∧
      ∃ vals : List F32, vals.length = b.cspan ∧
        (r.m.group item.core.ix item.group.val).leaves = gr.leaves ++ [⟨item.leaf, 0, vals, b.rspan, 1, false⟩])

/-! ### State memory and serving -/

/-- Page moves and checkpoints: the end of a copy is noted for the boundary, once the mover has found directory, entry and headers in order; a
copy that failed leaves the page where it was and raises MOVE_FAIL; a checkpoint becomes the one that NEWEST names, in the slot that NEWEST
did not name, whose first frame then begins with its header, and with it an orderly stop parks the sequence or pauses it (R192, R196, R208,
R209, R415). Hoods: the end of the copies is noted; an expiry that falls in the running plank is noted unless a resume is in; a restore
whose copies are done waits for its boundary; one whose log fails its check, or whose wait for frames has ended, is refused with REJECTED or
NOSPACE, and the hood stays (R210 to R212). -/
def Obligations.StateMemoryIsKept : Prop :=
  (∀ (s : State) (r : SeqRef), s.m.Settled → s.m.serves r.ch.val = true →
    (∀ (layer page j : Nat) (pg : PageSt) (mv : PMove), (s.m.seq r.ix).pages.find? (fun e => e.1 = pageKey layer page) = some (j, pg) → pg.move = some mv →
      mv.done = false →
      (∀ fs : List Frame, s.m.dirOk r.ix = true → s.m.walkPage r.ix (pageKey layer page) = some fs → s.m.headersOk r.ix (pageKey layer page) fs = true →
        Gives (.pageMoveDone r layer page true) s
          (s.m.modSeq r.ix fun q => { q with pages := q.pages.put (pageKey layer page) { pg with move := some { mv with done := true } } })) ∧
      Does (.pageMoveDone r layer page false) s (fun t => SameBytes s t ∧ t.m.rqt = s.m.rqt ∧
        (t.m.seq r.ix).pages.get pg (pageKey layer page) = { pg with move := none } ∧ bit (t.m.rd .kvpCh r.ch.val 0 Off.PG_FLT) 5 = true) ∧
      (s.m.Records r.ch.val 41 → Answers (.pageMoveDone r layer page false) s fun t => SameBytes s t ∧ t.m.tiles = s.m.tiles ∧ t.m.rqt = s.m.rqt ∧
        (t.m.seq r.ix).pages.get pg (pageKey layer page) = { pg with move := none } ∧ bit (t.m.rd .kvpCh r.ch.val 0 Off.PG_FLT) 5 = true)) ∧
    (∀ c : Ckpt, (s.m.seq r.ix).copying = some c →
      let q := s.m.seq r.ix
      let base := (slotOf q (1 - q.newest)).head?.map frameBase
      ((∀ ttl, q.stopping ≠ .thermal ttl) → Answers (.checkpointValid r) s fun t => t.m.rqt = s.m.rqt ∧ t.m.tiles = s.m.tiles ∧
        (∀ a, (∀ b, base = some b → a < b ∨ b + 256 ≤ a) → t.m.byte a = s.m.byte a) ∧
        (∀ b, base = some b → t.m.bytes b 256 = s.m.ckptHeader r.ix c) ∧ (∀ x, x ≠ r.ix → t.m.seq x = s.m.seq x) ∧
        t.m.seq r.ix = { q with copying := none, newest := 1 - q.newest, slotA := if 1 - q.newest = 0 then c else q.slotA,
                                slotB := if 1 - q.newest = 0 then q.slotB else c
                                stopping := match q.stopping with | .park ttl x t1 _ cp => .park ttl x t1 t1 cp | x => x }) ∧
      (∀ ttl, q.stopping = .thermal ttl → Answers (.checkpointValid r) s fun t => t.m.tiles = s.m.tiles ∧ (t.m.seq r.ix).copying = none ∧
        (t.m.seq r.ix).stopping = .no ∧ (t.m.seq r.ix).newest = 1 - q.newest ∧
        t.m.st r.ix = if s.m.inForce .thmCh r.ch.val 0 Off.THM_CTL 1 1 = 1 ∧ (q.ringRsv = true ∨ 1 ≤ s.m.ringFree r.ix) then St.PARKED else St.PAUSED))) ∧
  (∀ (s : State) (r : SeqRef), s.m.Settled → s.m.serves r.ch.val = true →
    let q := s.m.seq r.ix
    (∀ (ttl t : Nat) (ck : Bool), q.stopping = .park ttl (some t) true ck false → t ≠ 4 →
      Gives (.hoodCopyDone r) s (s.m.modSeq r.ix fun q => { q with stopping := .park ttl (some t) true ck true })) ∧
    (∀ (ttl : Nat) (ck : Bool), q.stopping = .park ttl (some 4) true ck false → Answers (.hoodCopyDone r) s fun u =>
      SameBytes s u ∧ u.m.regs = s.m.regs ∧ u.m.rqt = s.m.rqt ∧ u.m.seq r.ix = { q with stopping := .park ttl (some 4) true ck true } ∧
      (∀ x, x ≠ r.ix → u.m.seq x = s.m.seq x) ∧ s.m.out <+: u.m.out) ∧
    (s.m.st r.ix = St.PARKED → s.m.ent r.ix Ent.EXPIRY 8 ≤ s.m.timeOf r.ix + s.m.periodNs → q.restore = none → s.m.resumeIn r.ix = false →
      Gives (.hoodExpire r) s (s.m.modSeq r.ix fun q => { q with past := true })) ∧
    (∀ (k : Nat) (host : HostView), q.restore = some (k, true) → q.ready = false →
      let whole (e : Nat × PageSt) (f : Frame × Nat) : Bool :=
        if f.1.tier = 4 then s.m.hoodHeaderOk host r.ix e.1 f.2 e.2 f.1 else s.m.headerOk r.ix e.1 f.2 f.1
      let wholes := q.pages.all fun e => e.2.state ≠ .present || (e.2.frames.zipIdx).all (whole e)
      (q.inPlace = true ∨ (wholes = true ∧ ∀ e ∈ q.pages, ∀ f ∈ e.2.frames, f.tier ≠ 4) →
        Gives (.hoodRestoreDone r host true) s (s.m.modSeq r.ix fun q => { q with ready := true })) ∧
      (q.inPlace = false → wholes = true → Answers (.hoodRestoreDone r host true) s fun t => t.m.rqt = s.m.rqt ∧ t.m.tiles = s.m.tiles ∧
        (t.m.seq r.ix).ready = true ∧ (t.m.seq r.ix).restore = q.restore ∧ ∀ x, x ≠ r.ix → t.m.seq x = s.m.seq x) ∧
      (q.inPlace = false → wholes = false → Does (.hoodRestoreDone r host true) s fun t => SameBytes s t ∧ t.m.rqt = s.m.rqt ∧
        t.m.seq r.ix = q ∧ bit (t.m.rd .kvpCh r.ch.val 0 Off.PG_FLT) 1 = true) ∧
      Does (.hoodRestoreDone r host false) s (fun t => (t.m.seq r.ix).restore = none ∧ t.m.st r.ix = s.m.st r.ix ∧
        t.m.ent r.ix (Ent.CMD_W + 1) 1 = Code.REJECTED ∧ bit (t.m.rd .kvpCh r.ch.val 0 Off.PG_FLT) 2 = true) ∧
      (s.m.Records r.ch.val 38 → Answers (.hoodRestoreDone r host false) s fun t => SameBytes s t ∧ (t.m.seq r.ix).restore = none ∧
        t.m.st r.ix = s.m.st r.ix ∧ t.m.ent r.ix (Ent.CMD_W + 1) 1 = Code.REJECTED ∧ bit (t.m.rd .kvpCh r.ch.val 0 Off.PG_FLT) 2 = true)) ∧
    (∀ k : Nat, q.restore = some (k, false) → (if s.m.deadline r.ix = 0 then k ≤ s.m.planksOf r.ix else s.m.deadline r.ix ≤ s.m.timeOf r.ix) → Answers (.restoreWaitExpire r) s fun t => SameBytes s t ∧
      t.m.regs = s.m.regs ∧ (t.m.seq r.ix).restore = none ∧ t.m.st r.ix = s.m.st r.ix ∧ t.m.ent r.ix (Ent.CMD_W + 1) 1 = Code.NOSPACE))

/-- Endings: a deadline that passes ends a sequence in PREFILL or DECODE, or with KEEP its turn; one in DECODE that does not KEEP ends DONE with
DEADLINE and STOP_WHY 4; a hold that lasts too long ends one FAILED with NOSTATE and STOP_WHY 7; the end of the backward pass ends a tuning
step DONE with code OK. Other entries keep their state (R199, R221, R233, R234, R240, R276). Records that waited for ring room are written
in order, as many as the ring has free slots, and the rest wait on; a lone one goes to the first free slot with the status word behind it,
as one group (R237, R240). -/
def Obligations.SequencesEnd : Prop :=
  (∀ (s : State) (r : SeqRef), s.m.Settled → s.m.serves r.ch.val = true →
    (s.m.st r.ix = St.PREFILL ∨ s.m.st r.ix = St.DECODE → (∀ y z, (s.m.seq r.ix).stopping ≠ .ending y z) → s.m.deadline r.ix ≠ 0 →
      s.m.deadline r.ix ≤ s.m.timeOf r.ix → Does (.deadlineExpire r) s fun t => t.m.stopWhy r.ix = 4 ∧ t.m.reason r.ix = Code.DEADLINE ∧
        (t.m.seq r.ix).step = none ∧ if s.m.flag r.ix 0 then (t.m.st r.ix = St.PAUSED ∨ t.m.st r.ix = s.m.st r.ix)
          else (t.m.seq r.ix).pages = [] ∧ (t.m.st r.ix = St.DONE ∨ t.m.st r.ix = St.STOPPING)) ∧
    (∀ p n, s.m.live r.ix = true → s.m.st r.ix ≠ St.ADMITTED → (∀ y z, (s.m.seq r.ix).stopping ≠ .ending y z) → (s.m.seq r.ix).held = some (p, n) →
      (if s.m.deadline r.ix = 0 then p + n ≤ s.m.planksOf r.ix else s.m.deadline r.ix ≤ s.m.timeOf r.ix) → Does (.kvpHoldExpire r) s fun t =>
        t.m.stopWhy r.ix = 7 ∧ t.m.reason r.ix = Code.NOSTATE ∧ (t.m.seq r.ix).pages = [] ∧ (t.m.st r.ix = St.FAILED ∨ t.m.st r.ix = St.STOPPING)) ∧
    (∀ k : Step, s.m.st r.ix = St.PREFILL → (s.m.seq r.ix).step = some k → k.kind = .backward → (∀ y z, (s.m.seq r.ix).stopping ≠ .ending y z) →
      ∀ grads losses, Does (.tuningBackwardDone r grads losses) s fun t => (t.m.seq r.ix).step = none ∧ (t.m.seq r.ix).pages = [] ∧
        t.m.stopWhy r.ix = 0 ∧ t.m.reason r.ix = Code.OK ∧ (t.m.st r.ix = St.DONE ∨ t.m.st r.ix = St.STOPPING)) ∧
    (s.m.st r.ix = St.DECODE → s.m.EndsNow r.ix → (s.m.seq r.ix).group = [] → s.m.flag r.ix 0 = false → s.m.deadline r.ix ≠ 0 → s.m.deadline r.ix ≤ s.m.timeOf r.ix →
      Answers (.deadlineExpire r) s fun t => t.m.tiles = s.m.tiles ∧ t.m.st r.ix = St.DONE ∧ t.m.stopWhy r.ix = 4 ∧ t.m.reason r.ix = Code.DEADLINE ∧
        t.m.written r.ix = (s.m.written r.ix + 1) % 2 ^ 32 ∧ (t.m.seq r.ix).pages = [] ∧ ∀ x, x ≠ r.ix → t.m.st x = s.m.st x) ∧
    (∀ p n, s.m.st r.ix = St.DECODE → s.m.EndsNow r.ix → (s.m.seq r.ix).held = some (p, n) → (s.m.seq r.ix).replay = [] → s.m.deadline r.ix = 0 →
      p + n ≤ s.m.planksOf r.ix → Answers (.kvpHoldExpire r) s fun t => t.m.tiles = s.m.tiles ∧ t.m.st r.ix = St.FAILED ∧ t.m.stopWhy r.ix = 7 ∧
        t.m.reason r.ix = Code.NOSTATE ∧ (t.m.seq r.ix).pages = [] ∧ ∀ x, x ≠ r.ix → t.m.st x = s.m.st x) ∧
    (∀ k : Step, s.m.st r.ix = St.PREFILL → (s.m.seq r.ix).step = some k → k.kind = .backward → (s.m.seq r.ix).stopping = .no → (s.m.seq r.ix).pend = [] →
      1 ≤ s.m.ringFree r.ix → ∀ losses, Answers (.tuningBackwardDone r [] losses) s fun t => t.m.tiles = s.m.tiles ∧ t.m.st r.ix = St.DONE ∧
        t.m.reason r.ix = Code.OK ∧ t.m.stopWhy r.ix = 0 ∧ (t.m.seq r.ix).step = none ∧ ∀ x, x ≠ r.ix → t.m.st x = s.m.st x)) ∧
  ((∀ (s : State) (r : SeqRef), s.m.serves r.ch.val = true → (s.m.seq r.ix).pend ≠ [] → 1 ≤ s.m.ringFree r.ix →
    let n := min (s.m.seq r.ix).pend.length (s.m.ringFree r.ix)
    Does (.pendingRecordWrite r) s fun t => SameBytes s t ∧ (t.m.seq r.ix).pend = (s.m.seq r.ix).pend.drop n ∧
      t.m.written r.ix = (s.m.written r.ix + n) % 2 ^ 32) ∧
  ∀ (s : State) (r : SeqRef) (p : PendRec), s.m.Settled → s.m.serves r.ch.val = true → (s.m.seq r.ix).pend = [p] → (s.m.seq r.ix).stopping = .no →
    (s.m.seq r.ix).group = [] → 1 ≤ s.m.ringFree r.ix → (s.m.chan r.ch.val).linkUp = true → Answers (.pendingRecordWrite r) s fun t => SameBytes s t ∧
      (t.m.seq r.ix).pend = [] ∧ t.m.st r.ix = s.m.st r.ix ∧ t.m.written r.ix = (s.m.written r.ix + 1) % 2 ^ 32 ∧
      ∃ g : RingGroup, t.m.hubGroups = s.m.hubGroups ++ [g] ∧ g.seq = r ∧ g.word % 2 ^ 32 = t.m.written r.ix ∧
        g.writes.head? = some (.hostWrite (s.m.seq r.ix).ctx
          (s.m.ent r.ix Ent.RING_ADDR 8 + 4 * (s.m.written r.ix % 2 ^ nfld (s.m.ent r.ix Ent.RING_CFG 4) 4 0)) (toBytes 4 p.word)))

/-- STATE_W: a 1 admits a FREE entry and a 0 frees a DONE or FAILED one; any other write of it changes nothing but RQT_IGNWR. A write through a
virtual function sets CONTEXT (R217 to R219). The other fields of an entry: each byte that may be written in the entry's state reads back,
and a write that touches one that may not changes nothing but RQT_IGNWR; a command is stored with CMD_STA PENDING; CONSUMED is not taken
beyond the ring (R217, R218, R240, R242). -/
def Obligations.EntriesAreWritten : Prop :=
  (∀ (s : State) (fn : Fn) (r : SeqRef), s.m.Settled → s.m.TableOn fn r →
    (s.m.st r.ix = St.FREE → Answers (.stateWAdmit fn r) s fun t => OnlyEntry s t r.ix (fun o => o < 4 ∨ (fn ≠ .pf0 ∧ o = Ent.CONTEXT)) ∧
      t.m.st r.ix = St.ADMITTED ∧ t.m.stateW r.ix / 16 = s.m.stateW r.ix / 16 ∧ (fn ≠ .pf0 → t.m.ent r.ix Ent.CONTEXT 1 = fnIx fn)) ∧
    (s.m.st r.ix = St.DONE ∨ s.m.st r.ix = St.FAILED → Answers (.stateWFree fn r) s fun t => OnlyEntry s t r.ix (· < 4) ∧ t.m.st r.ix = St.FREE) ∧
    (s.m.st r.ix ≠ St.FREE → Gives (.stateWAdmit fn r) s (s.m.bump .rqtCh r.ch.val 0 Off.RQT_IGNWR 1)) ∧
    (s.m.live r.ix = true → Gives (.stateWFree fn r) s (s.m.bump .rqtCh r.ch.val 0 Off.RQT_IGNWR 1))) ∧
  (∀ (s : State) (fn : Fn) (r : SeqRef), s.m.Settled → s.m.TableOn fn r →
    (∀ (off : Fin 128) (bs : List Byte), bs ≠ [] → off.val + bs.length ≤ 128 → (off.val ≠ Ent.CONSUMED ∨ bs.length ≠ 4) →
      (∀ i, i < bs.length → entryWritable (decide (fn = .pf0)) (s.m.st r.ix) (off.val + i) = true) → Answers (.rqtEntryFieldWrite fn r off bs) s fun t =>
        OnlyEntry s t r.ix (fun o => (off.val ≤ o ∧ o < off.val + bs.length) ∨ (fn ≠ .pf0 ∧ o = Ent.CONTEXT)) ∧ (fn ≠ .pf0 → t.m.ent r.ix Ent.CONTEXT 1 = fnIx fn) ∧ ∀ i, i < bs.length → some (t.m.rqt.get 0 (r.ix * 128 + off.val + i)) = bs[i]?) ∧
    (∀ (off : Fin 128) (bs : List Byte) (i : Nat), i < bs.length → off.val + bs.length ≤ 128 → 8 ≤ off.val → (off.val ≠ Ent.CONSUMED ∨ bs.length ≠ 4) →
      entryWritable (decide (fn = .pf0)) (s.m.st r.ix) (off.val + i) = false →
      Gives (.rqtEntryFieldWrite fn r off bs) s (s.m.bump .rqtCh r.ch.val 0 Off.RQT_IGNWR 1)) ∧
    (∀ (c : Instr) (k : Nat), (c, k) ∈ [(.cmdNone fn r, 0), (.cmdPause fn r, 1), (.cmdResume fn r, 2), (.cmdPark fn r, 3), (.cmdCancel fn r, 4)] →
      Answers c s fun t => OnlyEntry s t r.ix (fun o => 4 ≤ o ∧ o < 8) ∧ t.m.ent r.ix Ent.CMD_W 4 = k + Code.PENDING * 256) ∧
    (∀ v : Word, (s.m.written r.ix + 2 ^ 32 - v.toNat) % 2 ^ 32 ≤ 2 ^ nfld (s.m.ent r.ix Ent.RING_CFG 4) 4 0 →
      Answers (.consumedWrite fn r v) s fun t => OnlyEntry s t r.ix (fun o => Ent.CONSUMED ≤ o ∧ o < Ent.CONSUMED + 4) ∧ t.m.ent r.ix Ent.CONSUMED 4 = v.toNat) ∧
    (∀ v : Word, 2 ^ nfld (s.m.ent r.ix Ent.RING_CFG 4) 4 0 < (s.m.written r.ix + 2 ^ 32 - v.toNat) % 2 ^ 32 →
      Gives (.consumedWrite fn r v) s (s.m.bump .rqtCh r.ch.val 0 Off.RQT_BADCONS 1)))

/-! ### Single rules -/

/-- R248. A write to RQT_PART is not applied, and the register keeps its old value, where the new range overlaps another context's partition or
runs beyond entry 511, and where an entry would change owner while it is not FREE; in every other case it is applied. -/
def Obligations.PartitionsAreGuarded : Prop :=
  ∀ (s : State) (fn : Fn) (ch : ChId) (n : CtxId) (v : Word), s.m.Settled → s.m.Writes fn ⟨.rqtCh, ch.val, 0⟩ (Off.RQT_PART + 4 * n.val) →
    let b := fld v 8 0
    let c := fld v 18 9
    let was := s.m.part ch.val n.val
    let overlaps : Prop := ∃ m, m < 64 ∧ m ≠ n.val ∧ ∃ i, (b ≤ i ∧ i < b + c) ∧ (s.m.part ch.val m).1 ≤ i ∧ i < (s.m.part ch.val m).1 + (s.m.part ch.val m).2.1
    let beyond : Prop := 512 < b + c
    let moves : Prop := ∃ i, i < 512 ∧ s.m.st (ch.val * 512 + i) ≠ St.FREE ∧ ¬ ((was.1 ≤ i ∧ i < was.1 + was.2.1) ↔ (b ≤ i ∧ i < b + c))
    (overlaps ∨ beyond ∨ moves → Gives (.rqtPartWrite fn ch n v) s s.m) ∧
    (¬ (overlaps ∨ beyond ∨ moves) → Answers (.rqtPartWrite fn ch n v) s fun t => SameWork s t ∧
      t.m.part ch.val n.val = (b, c, fld v 22 19, min 256 (fld v 31 23)) ∧ SameRegs s t (· = pageOff .rqtCh ch.val 0 (Off.RQT_PART + 4 * n.val)))

/-! ### Planks -/

/-- The boundary of a module that stands in M2 (every channel NORMAL in C2, no context created) with its own time: the plank counter and device
time advance by one plank, every register is in force as it was written before, and memory and the request tables stay. In general the
boundary runs the steps of R16 in their order, over all channels step by step. Without VIN only the time of the management side goes on
(R12, R16, R458). PLK_CTL: outside a module that follows another's time, values in range are accepted PENDING, to apply at a boundary three
planks on; values out of range are RANGE, and while a change waits every write is BUSY (R14, R250). -/
def Obligations.PlanksAdvance : Prop :=
  (∀ (s : State) (env : BoundaryEnv),
    (s.m.vin = true →
      let one := (s.m.timeStep env.late).eachCh fun m ch => (m.takeOffers ch env.lent).commitStep2 env ch
      let five := (one.loseT3.step4 env).eachServing fun m ch => m.scanStep ch
      Gives (.plankBoundary env) s ((five.thermStep.planStep env).dropStaged.issueAll env).settle) ∧
    (s.m.Settled → s.m.vin = false → Gives (.plankBoundary env) s { s.m with
      mgtNs := s.m.mgtNs + s.m.periodNs, opSecs := s.m.opSecs + ((s.m.mgtNs + s.m.periodNs) / 1000000000 - s.m.mgtNs / 1000000000) }) ∧
    (s.m.Settled → s.m.vin = true → (∀ ch, ch < 8 → s.m.cstate ch = 2 ∧ s.m.fltState ch = 0) → s.m.ctxs = [] → s.m.timeMode = 0 → s.m.ftime.skew = 0 → s.m.ftime.slew = 0 →
      s.m.ftime.change = none → Answers (.plankBoundary env) s fun t => t.m.plank = s.m.plank + 1 ∧ t.m.time = s.m.time + s.m.periodNs ∧
        t.m.mgtNs = s.m.mgtNs + s.m.periodNs ∧ t.m.eff = s.m.regs ∧ t.m.mem = s.m.mem ∧ t.m.rqt = s.m.rqt ∧ t.m.seqs = s.m.seqs ∧ t.pending = s.pending)) ∧
  (∀ (s : State) (fn : Fn) (v : Word), s.m.Settled → s.m.Writes fn ⟨.plk, 0, 0⟩ Off.PLK_CTL → s.m.timeMode = 0 →
    let keeps (t : State) (code : Nat) : Prop := SameWork s t ∧ t.m.rdF .plk 0 0 Off.PLK_STA 7 0 = code ∧ SameRegs s t (· = pageOff .plk 0 0 Off.PLK_STA) ∧
      t.m.ftime = s.m.ftime
    (s.m.ftime.change.isSome = true → Answers (.plkCtlWrite fn v) s fun t => keeps t Code.BUSY) ∧
    (s.m.ftime.change = none → fld v 7 0 < 4 ∨ 128 < fld v 7 0 ∨ fld v 14 8 < 50 ∨ 100 < fld v 14 8 → Answers (.plkCtlWrite fn v) s fun t => keeps t Code.RANGE) ∧
    (s.m.ftime.change = none → 4 ≤ fld v 7 0 → fld v 7 0 ≤ 128 → 50 ≤ fld v 14 8 → fld v 14 8 ≤ 100 → s.m.minWinAll + 1600 ≤ fld v 7 0 * 1000 →
      Answers (.plkCtlWrite fn v) s fun t => SameWork s t ∧ t.m.ftime = { s.m.ftime with change := some (s.m.plank + 3, fld v 7 0, fld v 14 8) } ∧
        t.m.rdF .plk 0 0 Off.PLK_STA 7 0 = Code.PENDING ∧ t.m.rd64 .plk 0 0 Off.PLK_APPLY = (s.m.plank + 3) % 2 ^ 64 ∧ t.m.periodNs = s.m.periodNs))

/-! ### Loading, adapters and placement -/

/-- LDR_CMD: in an ACTIVE context LOAD and SWAP start at FETCH with STATUS PENDING, ABORT ends a swap before its wave with OK, GO lets a swap
that is READY_WAVE begin, and UNLOAD begins; each is RANGE or BUSY where it does not fit, and a context that is NONE refuses every one with
RANGE (R255, R267, R281). -/
def Obligations.LoadsAreCommanded : Prop :=
  ∀ (s : State) (fn : Fn) (ctx : CtxId), s.m.Settled →
    let n := ctx.val
    s.m.Writes fn ⟨.ldrCx, 0, n⟩ Off.LDR_CMD →
    let onlySta (t : State) : Prop := SameBytes s t ∧ t.m.rqt = s.m.rqt ∧ t.m.seqs = s.m.seqs ∧ SameRegs s t (· = cxOff .ldrCx n Off.LDR_CMD_STA)
    let code_ (t : State) (code : Nat) : Prop := t.m.rdF .ldrCx 0 n Off.LDR_CMD_STA 7 0 = code
    let refused (c : Instr) (code : Nat) : Prop := Answers c s fun t => onlySta t ∧ SameWork s t ∧ code_ t code ∧ t.m.phase n = s.m.phase n
    (s.m.ctxState n = 0 → ∀ c ∈ [Instr.ldrLoad fn ctx, .ldrSwap fn ctx, .ldrAbort fn ctx, .ldrGo fn ctx, .ldrUnload fn ctx], refused c Code.RANGE) ∧
    (s.m.ctxState n = 1 →
      (∀ (c : Instr) (sw : Bool), (c, sw) ∈ [(.ldrLoad fn ctx, false), (.ldrSwap fn ctx, true)] →
        (s.m.phase n = 0 → (s.m.patOf n).isSome = sw → Answers c s fun t => onlySta t ∧ t.m.tiles = s.m.tiles ∧ code_ t Code.PENDING ∧ t.m.phase n = 1 ∧
          t.m.ctx n = { s.m.ctx n with load := { Load.fresh with swap := sw } } ∧ ∀ k, k ≠ n → t.m.ctx k = s.m.ctx k) ∧
        (s.m.phase n = 0 → (s.m.patOf n).isSome ≠ sw → refused c Code.RANGE) ∧ (s.m.phase n ≠ 0 → refused c Code.BUSY)) ∧
      ((s.m.ctx n).load.swap = true → s.m.phase n ∈ [1, 2, 3, 4, 5] → Answers (.ldrAbort fn ctx) s fun t => code_ t Code.OK ∧ t.m.phase n = 0 ∧ t.m.rqt = s.m.rqt ∧
        t.m.ctx n = { s.m.ctx n with newPat := none, load := Load.fresh } ∧ ∀ k, k ≠ n → t.m.ctx k = s.m.ctx k) ∧
      ((s.m.ctx n).load.swap = true → s.m.phase n = 6 → refused (.ldrAbort fn ctx) Code.BUSY) ∧ ((s.m.ctx n).load.swap = false → refused (.ldrAbort fn ctx) Code.RANGE) ∧
      (s.m.phase n = 5 → Answers (.ldrGo fn ctx) s fun t => onlySta t ∧ t.m.tiles = s.m.tiles ∧ code_ t Code.PENDING ∧ t.m.phase n = 5 ∧
        t.m.ctx n = { s.m.ctx n with load := { (s.m.ctx n).load with goNow := true } }) ∧ (s.m.phase n ≠ 5 → refused (.ldrGo fn ctx) Code.RANGE) ∧
      ((s.m.patOf n).isSome = true → (s.m.ctx n).load.swap = false → Answers (.ldrUnload fn ctx) s fun t => onlySta t ∧ SameWork s t ∧ code_ t Code.PENDING ∧ t.m.phase n = 7) ∧
      ((s.m.patOf n).isSome = true → Answers (.ldrUnload fn ctx) s fun t => SameBytes s t ∧ t.m.rqt = s.m.rqt ∧ t.m.seqs = s.m.seqs ∧ code_ t Code.PENDING ∧ t.m.phase n = 7) ∧
      (s.m.patOf n = none → refused (.ldrUnload fn ctx) Code.RANGE))

/-! ### Single rules -/

/-- R256. A write to LDR_NEXT, LDR_SIZE, LDR_PROG or LDR_RCMP while PHASE is not NONE is not applied: the register keeps its old value, as do
the others, and LDR_WR_STA reports BUSY; a write that is applied, which every one is while PHASE is NONE, sets LDR_WR_STA to OK, and the
register takes the bits that it has. -/
def Obligations.LoadRegistersHold : Prop :=
  ∀ (s : State) (fn : Fn) (ctx : CtxId) (reg : LdrReg) (v : Word), s.m.Settled → s.m.Writes fn ⟨.ldrCx, 0, ctx.val⟩ (ldrRegOff reg) →
    let at_ (o : Nat) : Nat := cxOff .ldrCx ctx.val o
    (s.m.phase ctx.val ≠ 0 → Answers (.ldrConfigWrite fn ctx reg v) s fun t => SameWork s t ∧
      t.m.rd .ldrCx 0 ctx.val Off.LDR_WR_STA = BitVec.ofNat 32 Code.BUSY ∧ SameRegs s t (· = at_ Off.LDR_WR_STA) ∧
      ∀ r : LdrReg, t.m.rd .ldrCx 0 ctx.val (ldrRegOff r) = s.m.rd .ldrCx 0 ctx.val (ldrRegOff r)) ∧
    (s.m.phase ctx.val = 0 → Answers (.ldrConfigWrite fn ctx reg v) s fun t => SameWork s t ∧
      t.m.rd .ldrCx 0 ctx.val Off.LDR_WR_STA = BitVec.ofNat 32 Code.OK ∧
      t.m.rd .ldrCx 0 ctx.val (ldrRegOff reg) =
        v &&& (match reg with | .nextLo => 0xFFFFF000#32 | .progLo => 0xFFFFFFF0#32 | .rcmpLo => 0xFFFFFFC0#32 | _ => 0xFFFFFFFF#32) ∧
      SameRegs s t fun a => a = at_ (ldrRegOff reg) ∨ a = at_ Off.LDR_WR_STA)

/-! ### Loading, adapters and placement -/

/-- The phases of a load: the fetched image stands for its checks; a check that fails ends it REJECTED with its DETAIL, and the loaded pattern
stays; one that passes them all goes on to COPY with the image's pattern, or ends NOSPACE; the copied bytes go on to PROGRAM, or the load
ends REJECTED with 0x0F; with every slice verified the new pattern is loaded and STATUS is OK, or a swap is READY_WAVE; an UNLOAD ends when
no entry is live (R257, R258, R266, R281). -/
def Obligations.LoadsProceed : Prop :=
  ∀ (s : State) (ctx : CtxId) (host : HostView), s.m.Settled → s.m.vin = true →
    let n := ctx.val
    let c := s.m.ctx n
    let ends (t : State) (code detail : Nat) : Prop := t.m.phase n = 0 ∧ t.m.rdF .ldrCx 0 n Off.LDR_CMD_STA 7 0 = code ∧
      t.m.rdF .ldrCx 0 n Off.LDR_CMD_STA 15 8 = detail % 256 ∧ t.m.ctx n = { c with newPat := none, load := Load.fresh }
    let checks := s.m.loadChecks n c.load.swap c.load.image (s.m.rd64 .ldrCx 0 n Off.LDR_SIZE)
    (s.m.phase n = 1 → Answers (.loadFetchDone ctx host) s fun t => SameBytes s t ∧ t.m.rqt = s.m.rqt ∧ t.m.tiles = s.m.tiles ∧ t.m.phase n = 2 ∧
      t.m.ctx n = { c with load := { c.load with image := cutImage host (s.m.rd64 .ldrCx 0 n Off.LDR_NEXT) (s.m.rd64 .ldrCx 0 n Off.LDR_SIZE) } } ∧
      SameRegs s t (· = cxOff .ldrCx n Off.LDR_CMD_STA)) ∧
    (s.m.phase n = 2 → Answers (.loadCheckDone ctx) s fun t => t.m.rqt = s.m.rqt ∧ (∀ f, checks.1 = some f → ends t Code.REJECTED f.1) ∧
      ∀ p, checks = (none, some p) →
        (ends t Code.NOSPACE 0x20 ∨ ends t Code.NOSPACE 0x21 ∨ (t.m.phase n = 3 ∧ (t.m.ctx n).load.placed = true ∧ (t.m.ctx n).pat = c.pat ∧
          ∃ q, (t.m.ctx n).newPat = some q ∧ q.layers.length = p.layers.length ∧ q.vocab = p.vocab ∧ (t.m.ctx n).load.tiles = newTiles q))) ∧
    (∀ (p : Pattern) (m : Dev), s.m.phase n = 2 → checks = (none, some p) →
      let a := s.m.modCtx n fun c => { c with newPat := some p }
      (if c.load.swap then some (a.placeAhead n .load (placeSeq p)) else a.placeLoad n p (placeSeq p)) = some m →
      let need := match (m.ctx n).newPat with | some q => m.partFrames n q | none => []
      ((need.all fun e => m.rangeFits e.1 e.2) = true → Answers (.loadCheckDone ctx) s fun t => t.m.rqt = s.m.rqt ∧ t.m.phase n = 3 ∧
        (t.m.ctx n).load.placed = true ∧ (t.m.ctx n).pat = c.pat ∧ (t.m.ctx n).newPat = (m.ctx n).newPat) ∧
      ((need.all fun e => m.rangeFits e.1 e.2) = false → Answers (.loadCheckDone ctx) s fun t => t.m.rqt = s.m.rqt ∧ ends t Code.NOSPACE 0x21)) ∧
    (∀ p, s.m.phase n = 3 → s.m.loadMoves n = true → c.newPat = some p →
      let img := cutImage host (s.m.rd64 .ldrCx 0 n Off.LDR_NEXT) (s.m.rd64 .ldrCx 0 n Off.LDR_SIZE)
      (p.layers.all fun l => w5Clean img (p.w5 + l.w5Off) (l.blocks.map blockW5).sum) = true → w5Clean img (p.embed + 4 * p.vocab) (p.embedSize - 4 * p.vocab) = true →
      Does (.loadCopyDone ctx host false) s fun t => t.m.rqt = s.m.rqt ∧ ends t Code.REJECTED 0x0F) ∧
    (∀ p, s.m.phase n = 3 → s.m.loadMoves n = true → c.newPat = some p →
      let img := cutImage host (s.m.rd64 .ldrCx 0 n Off.LDR_NEXT) (s.m.rd64 .ldrCx 0 n Off.LDR_SIZE)
      (p.layers.all fun l => w5Clean img (p.w5 + l.w5Off) (l.blocks.map blockW5).sum) = true → w5Clean img (p.embed + 4 * p.vocab) (p.embedSize - 4 * p.vocab) = true →
      (Answers (.loadCopyDone ctx host true) s fun t => SameBytes s t ∧ t.m.rqt = s.m.rqt ∧ t.m.phase n = 4 ∧
        t.m.ctx n = { c with newPat := some { p with img := img, imgAddr := s.m.rd64 .ldrCx 0 n Off.LDR_NEXT } }) ∧
      (s.m.Records (((s.m.partFrames n p).map (·.1)).headD 0) 50 → Answers (.loadCopyDone ctx host false) s fun t => t.m.rqt = s.m.rqt ∧ ends t Code.REJECTED 0x0F)) ∧
    (s.m.phase n = 4 → s.m.loadMoves n = true → s.m.allVerified n = true →
      (c.load.swap = true → Answers (.loadProgramDone ctx) s fun t => SameBytes s t ∧ t.m.rqt = s.m.rqt ∧ t.m.tiles = s.m.tiles ∧ t.m.ctxs = s.m.ctxs ∧ t.m.phase n = 5) ∧
      (c.load.swap = false → ∀ p, c.newPat = some p → Answers (.loadProgramDone ctx) s fun t => t.m.rqt = s.m.rqt ∧ t.m.phase n = 0 ∧
        t.m.rdF .ldrCx 0 n Off.LDR_CMD_STA 7 0 = Code.OK ∧ (t.m.ctx n).newPat = none ∧ (t.m.ctx n).load = Load.fresh ∧
        ∃ q, (t.m.ctx n).pat = some q ∧ q.layers.length = p.layers.length ∧ q.imgAddr = p.imgAddr)) ∧
    (s.m.phase n = 7 → (∀ e ∈ s.m.seqs, e.2.ctx = n → s.m.live e.1 = false) → Answers (.unloadComplete ctx) s fun t => t.m.rqt = s.m.rqt ∧ t.m.seqs = s.m.seqs ∧
      t.m.phase n = 0 ∧ t.m.rdF .ldrCx 0 n Off.LDR_CMD_STA 7 0 = Code.OK ∧ (t.m.ctx n).pat = none ∧ (t.m.ctx n).newPat = none ∧ (t.m.ctx n).adps = [])

/-- Adapters: LOAD of a slot of a loaded context starts and is PENDING; a good image then stands by, and a bad one is REJECTED with its DETAIL;
COMMIT makes what stands by the active generation, PENDING until every channel has it; UNLOAD empties a slot that no entry names. Each is
RANGE or BUSY where it does not fit (R273, R274). A placement snapshot is PENDING until its boundary, and BUSY while one waits; PLC_CH_CTL
takes a write unless LOW reaches HIGH or HIGH is above 500 (R296, R298). -/
def Obligations.AdaptersAndPlacement : Prop :=
  (∀ (s : State) (fn : Fn) (ctx : CtxId) (slot : Fin 64), s.m.Settled →
    let n := ctx.val
    let a := s.m.adpOf n slot.val
    let sta (code detail : Nat) : Word := BitVec.ofNat 32 (code + slot.val * 2 ^ 8 + detail * 2 ^ 14)
    let gets (c : Instr) (word : Word) (b : Adp) : Prop := Answers c s fun t => t.m.rqt = s.m.rqt ∧ t.m.seqs = s.m.seqs ∧ t.m.tiles = s.m.tiles ∧
      SameRegs s t (· = cxOff .adpCx n Off.ADP_CMD_STA) ∧ t.m.rd .adpCx 0 n Off.ADP_CMD_STA = word ∧ t.m.adpOf n slot.val = b ∧ (t.m.ctx n).pat = (s.m.ctx n).pat
    (s.m.Writes fn ⟨.adpCx, 0, n⟩ Off.ADP_CMD → s.m.ctxState n = 1 →
      (a.state ≠ 2 → a.state ≠ 3 → a.old = none → (s.m.patOf n).isSome = true → gets (.adpLoad fn ctx slot) (sta Code.PENDING 0) { a with state := 3 }) ∧
      (a.state = 2 ∨ a.state = 3 ∨ a.old.isSome = true → gets (.adpLoad fn ctx slot) (sta Code.BUSY 0) a) ∧
      (∀ img, a.state = 2 → a.standby = some img → gets (.adpCommit fn ctx slot) (sta Code.PENDING 0)
        { a with state := 1, gen := (a.gen + 1) % 65536, old := a.active, active := some img, standby := none, wait := s.m.adpChans n img, committing := true }) ∧
      (a.state ≠ 2 → gets (.adpCommit fn ctx slot) (sta Code.RANGE 0) a) ∧
      (s.m.slotNamed n slot.val = false → gets (.adpUnload fn ctx slot) (sta Code.OK 0) Adp.fresh) ∧
      (s.m.slotNamed n slot.val = true → gets (.adpUnload fn ctx slot) (sta Code.BUSY 0) a)) ∧
    (∀ (host : HostView) (p : Pattern), s.m.loadMoves n = true → a.state = 3 → s.m.patOf n = some p →
      let size := (s.m.rd .adpCx 0 n Off.ADP_SIZE).toNat
      let read := parseAdapter p (cutImage host (s.m.rd64 .adpCx 0 n Off.ADP_SRC / 4096 * 4096) size) size
      (∀ img, read = .inl img → ((s.m.ctx n).newPat.all fun q => adapterFits p q img) = true →
        gets (.adapterLoadDone ctx slot host) (sta Code.OK 0) { a with state := 2, standby := some img }) ∧
      (∀ img, read = .inl img → ((s.m.ctx n).newPat.all fun q => adapterFits p q img) = false →
        gets (.adapterLoadDone ctx slot host) (sta Code.REJECTED 0x03) { a with state := if a.active.isSome then 1 else 0 }) ∧
      (∀ d, read = .inr d → gets (.adapterLoadDone ctx slot host) (sta Code.REJECTED d) { a with state := if a.active.isSome then 1 else 0 }))) ∧
  (∀ (s : State) (fn : Fn) (ctx : CtxId) (ch : ChId) (v : Word), s.m.Settled →
    (s.m.Writes fn ⟨.plcCx, 0, ctx.val⟩ Off.PLC_CX_SNAP_CMD → Answers (.plcCxSnapGo fn ctx) s fun t => SameBytes s t ∧ t.m.rqt = s.m.rqt ∧ t.m.tiles = s.m.tiles ∧
      t.m.ctx ctx.val = { s.m.ctx ctx.val with snapGo := true } ∧ (∀ k, k ≠ ctx.val → t.m.ctx k = s.m.ctx k) ∧
      t.m.rdF .plcCx 0 ctx.val Off.PLC_CX_SNAP_STA 7 0 = (if (s.m.ctx ctx.val).snapGo then Code.BUSY else Code.PENDING) ∧
      SameRegs s t (· = cxOff .plcCx ctx.val Off.PLC_CX_SNAP_STA)) ∧
    (s.m.Writes fn ⟨.plcCh, ch.val, 0⟩ Off.PLC_CH_CTL →
      (fld v 17 8 < fld v 27 18 → fld v 27 18 ≤ 500 → Answers (.plcChCtlWrite fn ch v) s fun t => SameWork s t ∧
        t.m.rd .plcCh ch.val 0 Off.PLC_CH_CTL = v &&& 0x1FFFFFFF#32 ∧ SameRegs s t (· = pageOff .plcCh ch.val 0 Off.PLC_CH_CTL)) ∧
      (fld v 27 18 ≤ fld v 17 8 ∨ 500 < fld v 27 18 → Gives (.plcChCtlWrite fn ch v) s s.m)))

/-! ### Single rules -/

/-- R300. A scratchpad address is 22 bits wide: bits [8:0] select a byte within a 512-byte row, [13:9] one of 32 banks, [21:14] one of the
bank's 256 rows; a bank holds 128 KiB, and consecutive rows lie in consecutive banks. -/
def Obligations.ScratchpadAddresses : Prop :=
  spdBytes = 2 ^ 22 ∧
  (∀ a : BitVec 22, bankOf a.toNat = (a.extractLsb' 9 5).toNat ∧ rowOf a.toNat = (a.extractLsb' 14 8).toNat * 32 + (a.extractLsb' 9 5).toNat ∧
    a.toNat = rowOf a.toNat * 512 + (a.extractLsb' 0 9).toNat) ∧
  (∀ a, bankOf (a + 512) = (bankOf a + 1) % 32) ∧
  ∀ b r, b < 32 → r < 256 → bankOf ((r * 32 + b) * 512) = b ∧ rowOf ((r * 32 + b) * 512) = r * 32 + b ∧ 256 * 512 = 128 * 1024

/-! ### Scratchpads -/

/-- Scratchpad requests: one that may not be issued raises a source and does nothing else; one that finds no room in its region, or no
scoreboard entry, waits; else it takes an entry in issue order. Its accesses start when no earlier overlapping request holds it back: a
write stores its bytes and no others, a read returns them. A gather slot that has waited is written by its mask. A channel that is not
NORMAL discards a request (R302 to R306, R310, R312, R317). -/
def Obligations.ScratchRequestsRun : Prop :=
  ∀ (s : State) (core : CoreRef) (q : SpdReq), s.m.Settled →
    let c := core.ix
    let p := s.m.spd c
    let frame (t : State) : Prop := SameBytes s t ∧ t.m.rqt = s.m.rqt ∧ t.m.seqs = s.m.seqs ∧ t.m.tiles = s.m.tiles ∧ ∀ k, k ≠ c → t.m.core k = s.m.core k
    let enters (t : State) (as : List Nat) : Prop := ∃ e : SbEnt, (t.m.spd c).ents = p.ents ++ [e] ∧ e.id = p.next ∧ e.req = q ∧ e.addrs = as ∧
      (t.m.spd c).next = p.next + 1 ∧ t.m.t0 = s.m.t0 ∧ (∀ a ∈ as, (t.m.spd c).banks.get Pd.up (bankOf a) = Pd.up)
    let free : Prop := p.wait = [] ∧ sbUsed p < 64 ∧ p.gather = []
    (s.m.alive core.ch.val = true → s.m.fltState core.ch.val = 0 →
      (spdAddrs p.regions q = none → s.m.Records core.ch.val 60 → Answers (.spdRequestIssue core q) s fun t => frame t ∧ t.m.cores = s.m.cores ∧ t.m.t0 = s.m.t0 ∧
        bit (t.m.rd .spdCh core.ch.val 0 Off.PG_FLT) 5 = true ∧ SameRegs s t (raiseRegs core.ch.val 60)) ∧
      (∀ as, spdAddrs p.regions q = some as →
        (regionReady p.regions q = false → Gives (.spdRequestIssue core q) s (s.m.modSpd c fun p => { p with rwait := p.rwait ++ [q] })) ∧
        (regionReady p.regions q = true → 64 ≤ sbUsed p ∨ p.wait ≠ [] →
          Gives (.spdRequestIssue core q) s ((s.m.modSpd c fun p => { p with wait := p.wait ++ [q] }).spdBump c Off.SPD_SBFULL 1)) ∧
        (regionReady p.regions q = true → free → (q.write && narrow q) = false →
          Answers (.spdRequestIssue core q) s fun t => frame t ∧ enters t as ∧ (t.m.spd c).rwait = p.rwait) ∧
        (∀ g len cycles, q.range = .region g len → regionReady p.regions q = true → free → p.rwait = [q] → s.m.running core.ch.val = true →
          Answers (.regionRoomAvailable core ⟨g, cycles⟩) s fun t => frame t ∧ enters t as ∧ (t.m.spd c).rwait = []))) ∧
    (s.m.alive core.ch.val = true → s.m.fltState core.ch.val ≠ 0 → Gives (.spdRequestIssue core q) s
      (if q.write = true ∧ q.who = .dma then s.m.modSpd c fun p => { p with dmaEnd := 0x09 } else s.m)) ∧
    (s.m.running core.ch.val = true →
      (∀ e : SbEnt, p.ents.find? (·.id = e.id) = some e → p.wait = [] →
        ((∃ x ∈ p.ents, holdsBack x e = true) → Gives (.spdAccessStart core e.id) s (s.m.spdBump c Off.SPD_SBWAIT 1)) ∧
        ((∀ x ∈ p.ents, holdsBack x e = false) → Answers (.spdAccessStart core e.id) s fun t => frame t ∧ (t.m.spd c).ents = p.ents.filter (fun x => x.id ≠ e.id) ∧
          (e.req.write = false → t.m.t0 = s.m.t0 ∧ (t.m.spd c).readOut = e.addrs.map fun a => s.m.t0.get 0 (c * 2 ^ 22 + a)) ∧
          (∀ a, e.req.write = true → e.addrs = spanFrom a e.req.data.length →
            ∀ x, t.m.t0.get 0 (c * 2 ^ 22 + x) = if a ≤ x ∧ x < a + e.req.data.length then nth 0 e.req.data (x - a) else s.m.t0.get 0 (c * 2 ^ 22 + x)))) ∧
      (∀ (slot : Fin 4) (g : GSlot), p.gather[slot.val]? = some g → p.ents = [] → p.wait = [] → Store.wf (fun _ => none) g.bytes = true →
        Answers (.gatherSlotTimeout core slot) s fun t => frame t ∧ (t.m.spd c).gather = p.gather.filter (fun x => x.id ≠ g.id) ∧
          ∀ k, t.m.t0.get 0 (c * 2 ^ 22 + g.row * 512 + k) = (g.bytes.get none k).getD (s.m.t0.get 0 (c * 2 ^ 22 + g.row * 512 + k))))

/-- Power-down: an idle bank or memory unit that is up waits, then powers down when its writes have drained, counted in SPD_PDN; where they are
late they are dropped, with BANK_DROP, HBM_DROP or T2_DROP raised, and it powers down all the same (R314, R315). -/
def Obligations.IdleUnitsPowerDown : Prop :=
  ∀ (s : State), s.m.Settled →
    (∀ (core : CoreRef) (b : Fin 32), s.m.alive core.ch.val = true →
      let c := core.ix
      let frame (t : State) : Prop := SameBytes s t ∧ t.m.t0 = s.m.t0 ∧ t.m.rqt = s.m.rqt ∧ t.m.seqs = s.m.seqs ∧ (∀ k, k ≠ b.val → t.m.bankPd c k = s.m.bankPd c k) ∧
        ∀ k, k ≠ c → t.m.core k = s.m.core k
      (s.m.inForce .spdCh core.ch.val 0 Off.SPD_CH_CTL 0 0 = 1 → s.m.bankPd c b.val = Pd.up →
        max 1 (s.m.inForce .spdCh core.ch.val 0 Off.SPD_PDIDLE 7 0) ≤ (s.m.chan core.ch.val).plank + 1 - (s.m.spd c).used.get 0 b.val →
        Answers (.bankIdleExpire (.bank core b)) s fun t => frame t ∧ t.m.regs = s.m.regs ∧ t.m.bankPd c b.val = Pd.waiting (s.m.spd c).next) ∧
      (∀ t0, s.m.bankPd c b.val = Pd.waiting t0 →
        (s.m.bankWrites c b.val t0 = [] → Answers (.bankWritesDrained (.bank core b)) s fun t => frame t ∧ t.m.bankPd c b.val = Pd.down ∧
          (s.m.rdF .spdCh core.ch.val 0 Off.PG_CTL 0 0 = 0 → t.m.rd64 .spdCh core.ch.val 0 Off.SPD_PDN = (s.m.rd64 .spdCh core.ch.val 0 Off.SPD_PDN + 1) % 2 ^ 64)) ∧
        (s.m.bankWrites c b.val t0 ≠ [] → Gives (.bankWritesDrained (.bank core b)) s s.m ∧ ((s.m.spd c).wait = [] → s.m.Records core.ch.val 57 →
          ∀ late, Answers (.bankPdWaitExpire ⟨.bank core b, late⟩) s fun t => frame t ∧ t.m.bankPd c b.val = Pd.down ∧ t.m.bankWrites c b.val t0 = [] ∧
            bit (t.m.rd .spdCh core.ch.val 0 Off.PG_FLT) 2 = true)))) ∧
    (∀ (ch : ChId) (u : PdTarget) (k ix : Nat), (∃ pc, u = .hbm ch pc ∧ k = pc.val ∧ ix = 58) ∨ (∃ r, u = .t2 ch r ∧ k = 128 + r.val ∧ ix = 59) → PdTarget.there u = true → s.m.alive ch.val = true →
      let frame (t : State) : Prop := SameBytes s t ∧ t.m.rqt = s.m.rqt ∧ t.m.tiles = s.m.tiles ∧ t.m.cores = s.m.cores ∧ ∀ j, j ≠ k → t.m.unitPd ch.val j = s.m.unitPd ch.val j
      (s.m.inForce .spdCh ch.val 0 Off.SPD_CH_CTL 1 1 = 1 → s.m.unitPd ch.val k = Pd.up → Answers (.bankIdleExpire u) s fun t => frame t ∧ t.m.regs = s.m.regs ∧
        t.m.unitPd ch.val k = Pd.waiting 0) ∧
      (∀ t0, s.m.unitPd ch.val k = Pd.waiting t0 →
        (Answers (.bankWritesDrained u) s fun t => frame t ∧ t.m.unitPd ch.val k = Pd.down) ∧
        (Answers (.bankPdWaitExpire ⟨u, []⟩) s fun t => frame t ∧ t.m.seqs = s.m.seqs ∧ t.m.unitPd ch.val k = Pd.down) ∧
        (∀ f late, s.m.Records ch.val ix → Answers (.bankPdWaitExpire ⟨u, f :: late⟩) s fun t => frame t ∧ t.m.unitPd ch.val k = Pd.down ∧
          bit (t.m.rd .spdCh ch.val 0 Off.PG_FLT) (ix - 55) = true)))

/-! ### Synchronisation -/

/-- SYN_CX_CMD: MAP gives a virtual ID a FREE object and the peer binding of SYN_CX_PEER, UNMAP takes the mapping away unless a wait on the
ARMED object is open, ARM arms the object with SYN_CX_TARGET, SIGNAL and CONSUME count it up and down within 0 to TARGET, and outside it the
object is BROKEN; an unmapped ID, a pattern ID and a zero amount are RANGE (R324, R325, R329, R330, R342). -/
def Obligations.HostSyncCommands : Prop :=
  ∀ (s : State) (fn : Fn) (ch : ChId) (ctx : CtxId) (vid : Fin 4096) (v : BitVec 16), s.m.Settled → s.m.Writes fn ⟨.synCx, ch.val, ctx.val⟩ Off.SYN_CX_CMD →
    let n := ctx.val
    let frame (t : State) (code : Nat) : Prop := SameBytes s t ∧ t.m.rqt = s.m.rqt ∧ t.m.seqs = s.m.seqs ∧ t.m.tiles = s.m.tiles ∧
      t.m.rd .synCx ch.val n Off.SYN_CX_CMD_STA = BitVec.ofNat 32 (code + vid.val * 256) ∧
      (∀ c w, mapKey c w ≠ mapKey n vid.val → t.m.mapOf ch.val c w = s.m.mapOf ch.val c w) ∧
      SameRegs s t fun a => inPage .synCx ch.val n a ∨ inPage .synCh ch.val 0 a ∨ raiseRegs ch.val 63 a
    let same (t : State) : Prop := t.m.sync ch.val = s.m.sync ch.val
    let others (t : State) (o : Nat) : Prop := ∀ k, k ≠ o → t.m.obj ch.val k = s.m.obj ch.val k
    let peer := s.m.rd .synCx ch.val n Off.SYN_CX_PEER
    (s.m.mapOf ch.val n vid.val = none →
      (∀ o, s.m.freePhys ch.val = some o → Answers (.synMap fn ch ctx vid) s fun t => frame t Code.OK ∧ others t o ∧
        t.m.mapOf ch.val n vid.val = some ⟨o, peer⟩ ∧ t.m.obj ch.val o = { SyObj.fresh with ctx := n }) ∧
      ∀ c ∈ [Instr.synUnmap fn ch ctx vid, .synArm fn ch ctx vid, .synSignal fn ch ctx vid v, .synConsume fn ch ctx vid v],
        Answers c s fun t => frame t Code.RANGE ∧ same t) ∧
    (∀ m, s.m.mapOf ch.val n vid.val = some m →
      let x := s.m.obj ch.val m.obj
      (Answers (.synMap fn ch ctx vid) s fun t => frame t Code.OK ∧ (∀ k, t.m.obj ch.val k = s.m.obj ch.val k) ∧ t.m.mapOf ch.val n vid.val = some ⟨m.obj, peer⟩) ∧
      (x.state ≠ 1 ∨ (∀ w ∈ x.waits, w.met = true) → Answers (.synUnmap fn ch ctx vid) s fun t => frame t Code.OK ∧ others t m.obj ∧
        t.m.mapOf ch.val n vid.val = none ∧ t.m.obj ch.val m.obj = SyObj.fresh) ∧
      (x.state = 1 → (∃ w ∈ x.waits, w.met = false) → Answers (.synUnmap fn ch ctx vid) s fun t => frame t Code.BUSY ∧ same t) ∧
      (vid.val < 1024 → ∀ c ∈ [Instr.synArm fn ch ctx vid, .synSignal fn ch ctx vid v, .synConsume fn ch ctx vid v], Answers c s fun t => frame t Code.RANGE ∧ same t) ∧
      (1024 ≤ vid.val →
        (Answers (.synArm fn ch ctx vid) s fun t => frame t Code.OK ∧ others t m.obj ∧ (t.m.obj ch.val m.obj).state = 1 ∧ (t.m.obj ch.val m.obj).count = 0 ∧
          (t.m.obj ch.val m.obj).target = max 1 (s.m.rdF .synCx ch.val n Off.SYN_CX_TARGET 23 0)) ∧
        (v = 0 → ∀ c ∈ [Instr.synSignal fn ch ctx vid v, .synConsume fn ch ctx vid v], Answers c s fun t => frame t Code.RANGE ∧ same t) ∧
        (v ≠ 0 → x.state = 1 →
          (x.count + v.toNat ≤ x.target → Answers (.synSignal fn ch ctx vid v) s fun t => frame t Code.OK ∧ others t m.obj ∧
            t.m.obj ch.val m.obj = { x with count := x.count + v.toNat, waits := x.waits.map fun w => if w.threshold ≤ x.count + v.toNat then { w with met := true } else w }) ∧
          (v.toNat ≤ x.count → Answers (.synConsume fn ch ctx vid v) s fun t => frame t Code.OK ∧ others t m.obj ∧
            t.m.obj ch.val m.obj = { x with count := x.count - v.toNat, waits := x.waits.map fun w => if w.threshold ≤ x.count - v.toNat then { w with met := true } else w }) ∧
          (x.target < x.count + v.toNat → x.waits = [] → s.m.Records ch.val 64 → m.obj < 16384 ∨ x.ctx = n → Answers (.synSignal fn ch ctx vid v) s fun t => frame t Code.RANGE ∧ others t m.obj ∧
            t.m.obj ch.val m.obj = { x with state := 2, code := Code.RANGE } ∧ bit (t.m.rd .synCh ch.val 0 Off.PG_FLT) 3 = true) ∧
          (x.count < v.toNat → x.waits = [] → s.m.Records ch.val 63 → m.obj < 16384 ∨ x.ctx = n → Answers (.synConsume fn ch ctx vid v) s fun t => frame t Code.RANGE ∧ others t m.obj ∧
            t.m.obj ch.val m.obj = { x with state := 2, code := Code.RANGE } ∧ bit (t.m.rd .synCh ch.val 0 Off.PG_FLT) 2 = true))))

/-! ### Single rules -/

/-- R329. A signal or consume that reaches a FREE or BROKEN object is discarded and counted in SYN_DISC, whoever sends it: an engine, the host,
another node. The host command returns RANGE. -/
def Obligations.DeadObjectsDiscard : Prop :=
  ∀ (s : State) (ch : ChId) (obj : Fin 65536), s.m.Settled →
    let x := s.m.obj ch.val obj.val
    let discarded (t : State) : Prop := SameBytes s t ∧ t.m.rqt = s.m.rqt ∧ t.m.seqs = s.m.seqs ∧ t.m.tiles = s.m.tiles ∧ t.m.sync ch.val = s.m.sync ch.val ∧
      t.m.rd64 .synCh ch.val 0 Off.SYN_DISC = (s.m.rd64 .synCh ch.val 0 Off.SYN_DISC + 1) % 2 ^ 64
    x.state ≠ 1 → s.m.rdF .synCh ch.val 0 Off.PG_CTL 0 0 = 0 →
    (s.m.alive ch.val = true → ∀ (ctx : CtxId) (v : Nat), x.state = 0 ∨ x.ctx = ctx.val →
      ∀ op ∈ [SyncOp.signal v, .consume v], Answers (.engineSignal ch obj ctx op) s discarded) ∧
    (∀ (fn : Fn) (ctx : CtxId) (vid : Fin 4096) (v : BitVec 16) (m : SyMap), s.m.Writes fn ⟨.synCx, ch.val, ctx.val⟩ Off.SYN_CX_CMD →
      s.m.mapOf ch.val ctx.val vid.val = some m → m.obj = obj.val → 1024 ≤ vid.val → v ≠ 0 →
      ∀ c ∈ [Instr.synSignal fn ch ctx vid v, .synConsume fn ch ctx vid v], Answers c s fun t => discarded t ∧
        t.m.rd .synCx ch.val ctx.val Off.SYN_CX_CMD_STA = BitVec.ofNat 32 (Code.RANGE + vid.val * 256)) ∧
    (∀ (p : PortIx) (node : Fin 32768) (g : RemoteSignal) (m : SyMap), s.m.fabOn ch.val = true → s.m.node = some node.val → g.dstCh = ch → s.m.fltState ch.val = 0 → s.m.inForce .synCh ch.val 0 Off.SYN_CTL 0 0 = 1 →
      s.m.mapOf ch.val g.dstCtx.val g.vid.val = some m → m.obj = obj.val → peerOk m g = true → s.m.covered ch.val g = true → s.m.collOf ch.val obj.val = none →
      Answers (.remoteSignalArrive ⟨ch, p, node, g⟩) s discarded)

/-! ### Synchronisation -/

/-- Engines and remote signals: an engine arms, counts and waits on objects of its context, and an operation on another context's object is
blocked with SYN_TENANT; a wait that is too old ends; a bound remote signal counts once its data has come and is held until then, one that
no binding admits is blocked; an object whose held signal is too old breaks with LINK; a refused signal goes out again until it is too old
(R322, R326, R327, R332, R333, R335, R336). -/
def Obligations.SignalsAreApplied : Prop :=
  ∀ (s : State) (ch : ChId) (obj : Fin 65536) (ctx : CtxId) (v who : Nat), s.m.Settled →
    let o := obj.val
    let x := s.m.obj ch.val o
    let frame (t : State) : Prop := SameBytes s t ∧ t.m.rqt = s.m.rqt ∧ t.m.seqs = s.m.seqs ∧ t.m.tiles = s.m.tiles ∧ (∀ k, k ≠ o → t.m.obj ch.val k = s.m.obj ch.val k) ∧
      (t.m.sync ch.val).maps = (s.m.sync ch.val).maps
    let counted (n : Nat) : SyObj := { x with count := n, waits := x.waits.map fun w => if w.threshold ≤ n then { w with met := true } else w }
    (s.m.alive ch.val = true →
      (x.ctx = ctx.val → x.state = 1 →
        (x.count + v ≤ x.target → Answers (.engineSignal ch obj ctx (.signal v)) s fun t => frame t ∧ t.m.obj ch.val o = counted (x.count + v)) ∧
        (v ≤ x.count → Answers (.engineSignal ch obj ctx (.consume v)) s fun t => frame t ∧ t.m.obj ch.val o = counted (x.count - v)) ∧
        (∀ seq, s.m.fltState ch.val = 0 → Answers (.engineSignal ch obj ctx (.wait v who seq)) s fun t => frame t ∧ t.m.regs = s.m.regs ∧
          ∃ w : SyWait, t.m.obj ch.val o = { x with waits := x.waits ++ [w] } ∧ w.who = who ∧ w.threshold = v ∧ w.seq = seq ∧ w.met = decide (v ≤ x.count))) ∧
      (x.ctx = ctx.val → v < 2 ^ 24 → Answers (.engineSignal ch obj ctx (.arm v)) s fun t => frame t ∧ t.m.regs = s.m.regs ∧
        t.m.obj ch.val o = { x with state := 1, count := 0, target := max 1 v, code := 0, waits := x.waits.filter fun w => !w.met }) ∧
      (x.state ≠ 0 → x.ctx ≠ ctx.val → s.m.Records ch.val 66 → Answers (.engineSignal ch obj ctx (.signal v)) s fun t => frame t ∧ t.m.obj ch.val o = x ∧
        bit (t.m.rd .synCh ch.val 0 Off.PG_FLT) 5 = true) ∧
      (∀ w, x.waits.find? (fun w => w.who = who && !w.met) = some w → w.until_ ≤ (s.m.chan ch.val).plank → w.seq = none → s.m.collOf ch.val o = none →
        Answers (.syncWaitTimeout ch obj who) s fun t => frame t ∧ t.m.obj ch.val o = { x with waits := x.waits.erase w }) ∧
      (s.m.heldFor ch.val o ≠ 0 → x.waits = [] → s.m.Records ch.val 65 → Answers (.signalHoldTimeout ch obj) s fun t => frame t ∧
        t.m.obj ch.val o = { x with state := 2, code := Code.LINK } ∧ t.m.heldFor ch.val o = 0 ∧ bit (t.m.rd .synCh ch.val 0 Off.PG_FLT) 4 = true)) ∧
    (∀ (p : PortIx) (node : Fin 32768) (g : RemoteSignal), s.m.fabOn ch.val = true → s.m.node = some node.val → g.dstCh = ch → s.m.fltState ch.val = 0 → s.m.inForce .synCh ch.val 0 Off.SYN_CTL 0 0 = 1 →
      (∀ m, s.m.mapOf ch.val g.dstCtx.val g.vid.val = some m → m.obj = o → peerOk m g = true → x.state = 1 → s.m.collOf ch.val o = none →
        (s.m.covered ch.val g = true → g.consume = false → x.count + g.value ≤ x.target → Answers (.remoteSignalArrive ⟨ch, p, node, g⟩) s fun t => frame t ∧
          t.m.obj ch.val o = counted (x.count + g.value)) ∧
        (s.m.covered ch.val g = false → (s.m.sync ch.val).held.length < 1024 → s.m.heldFor ch.val o < 8 → Answers (.remoteSignalArrive ⟨ch, p, node, g⟩) s fun t => frame t ∧ t.m.obj ch.val o = x ∧
          (t.m.sync ch.val).held = (s.m.sync ch.val).held ++ [⟨g, o, (s.m.sync ch.val).nextHeld⟩])) ∧
      (s.m.mapOf ch.val g.dstCtx.val g.vid.val = none → s.m.Records ch.val 66 → Answers (.remoteSignalArrive ⟨ch, p, node, g⟩) s fun t => frame t ∧ t.m.obj ch.val o = x ∧
        bit (t.m.rd .synCh ch.val 0 Off.PG_FLT) 5 = true)) ∧
    (∀ y : SentSig, s.m.fabOn ch.val = true → y.refused = true → (s.m.sync ch.val).sent = [y] →
      (y.since + s.m.holdNs ch.val ≤ (s.m.chan ch.val).time → y.seq = none → Answers (.signalResendTimer ch y.id) s fun t => frame t ∧ t.m.obj ch.val o = x ∧
        (t.m.sync ch.val).sent = [] ∧ t.m.out = s.m.out) ∧
      ((s.m.chan ch.val).time < y.since + s.m.holdNs ch.val → (s.m.stream ch.val y.sig.stream).held = false → s.m.fltState ch.val = 0 → ∀ p : Nat,
        (s.m.stream ch.val y.sig.stream).port = some p → s.m.port ch.val p = { Port.fresh with state := 3 } →
        Answers (.signalResendTimer ch y.id) s fun t => frame t ∧ t.m.obj ch.val o = x ∧ (t.m.sync ch.val).sent = [{ y with refused := false }] ∧
          t.m.out = s.m.out ++ [.fabric ch.val (some p) (.signal y.node y.sig)]))

/-! ### The fabric -/

/-- Ports: PORT_EN takes a DISABLED port to DOWN and any port to DISABLED; a detected signal or the retry starts training; lock and HELLO bring
the port UP, with HELLO sent; a failure takes a first training to DOWN, and the third of a retrain within 10 s to DOWN with PORT_DOWN
raised; a trigger takes an UP port to RETRAIN, and one of too many replays raises RETRY_RATE; a HELLO tells of the partner (R346, R353,
R458). Flits on an UP port: one whose CRC or FEC fails is NAKed and counted; one out of its sequence is NAKed; one in sequence is
acknowledged, returns credits, and frees what it acknowledges in the replay buffer (R347 to R349). -/
def Obligations.PortsCarryFlits : Prop :=
  (∀ (s : State) (ch : ChId) (p : PortIx) (h : Hello), s.m.Settled →
    let port (s : State) : Port := s.m.port ch.val p.val
    let quiet (t : State) : Prop := SameBytes s t ∧ t.m.rqt = s.m.rqt ∧ t.m.seqs = s.m.seqs ∧ t.m.tiles = s.m.tiles
    let frame (t : State) : Prop := quiet t ∧ ∀ c q, (c ≠ ch.val ∨ q ≠ p.val) → t.m.port c q = s.m.port c q
    (∀ (fn : Fn) (v : Word), s.m.Writes fn ⟨.evfCh, ch.val, 0⟩ Off.EVF_CTL → Answers (.evfCtlWrite fn ch v) s fun t => SameWork s t ∧ SameRegs s t (· = pageOff .evfCh ch.val 0 Off.EVF_CTL) ∧
      t.m.rdF .evfCh ch.val 0 Off.EVF_CTL 8 0 = fld v 8 0 ∧ ∀ q, q < 8 →
        (bit v q = false → (s.m.port ch.val q).state ≠ 0 → t.m.port ch.val q = Port.fresh) ∧
        (bit v q = true → (s.m.port ch.val q).state = 0 → t.m.port ch.val q = { s.m.port ch.val q with state := 1 }) ∧
        (bit v q = true → (s.m.port ch.val q).state ≠ 0 → t.m.port ch.val q = s.m.port ch.val q)) ∧
    (s.m.fabOn ch.val = true →
      (∀ c ∈ [Instr.portSignalDetect ch p, .portRetryTimer ch p],
        ((port s).state = 1 → Answers c s fun t => frame t ∧ t.m.regs = s.m.regs ∧ port t = { port s with state := 2, partner := none }) ∧
        ((port s).state ≠ 1 → Gives c s s.m)) ∧
      (h.standby = false →
        ((port s).state = 2 → Answers (.portTrainingDone ch p h) s fun t => frame t ∧ (port t).state = 3 ∧ (port t).partner = some h ∧ (port t).seqRx = 0 ∧
          t.m.out = s.m.out ++ [.fabric ch.val (some p.val) (.hello s.m.node ch.val p.val (s.m.fltState ch.val) false)]) ∧
        ((port s).state = 4 → Answers (.portTrainingDone ch p h) s fun t => frame t ∧ (port t).state = 3 ∧ (port t).partner = some h) ∧
        ((port s).state = 3 → Answers (.helloReceive ch p h) s fun t => frame t ∧ port t = { port s with partner := some h } ∧ t.m.out = s.m.out)) ∧
      (h.standby = true → (port s).state = 3 → Answers (.helloReceive ch p h) s fun t => frame t ∧ (port t).state = 1 ∧ t.m.out = s.m.out) ∧
      ((port s).state = 4 → (port s).fast = false → 2 ≤ ((port s).fails.filter fun t => decide (s.m.chMs ch.val < t + 10000)).length →
        Does (.portTrainingFail ch p) s fun t => SameBytes s t ∧ t.m.rqt = s.m.rqt ∧ port t = { Port.fresh with state := 1 } ∧ bit (t.m.rd .evfCh ch.val 0 Off.PG_FLT) 1 = true) ∧
      ((port s).state = 3 → ∀ why, Does (.portRetrainTrigger ch p why) s fun t => SameBytes s t ∧ t.m.rqt = s.m.rqt ∧ (port t).state = 4 ∧ (port t).replay = []) ∧
      ((port s).state = 2 → Answers (.portTrainingFail ch p) s fun t => frame t ∧ t.m.regs = s.m.regs ∧ port t = { port s with state := 1 }) ∧
      ((port s).state = 4 → (port s).fast = true → Answers (.portTrainingFail ch p) s fun t => frame t ∧ t.m.regs = s.m.regs ∧ port t = { port s with fast := false }) ∧
      ((port s).state = 4 → (port s).fast = false →
        let recent := (port s).fails.filter fun t => decide (s.m.chMs ch.val < t + 10000)
        (recent.length < 2 → Answers (.portTrainingFail ch p) s fun t => frame t ∧ t.m.regs = s.m.regs ∧ port t = { port s with fails := s.m.chMs ch.val :: recent }) ∧
        (2 ≤ recent.length → s.m.Records ch.val 68 → Answers (.portTrainingFail ch p) s fun t => frame t ∧ port t = { Port.fresh with state := 1 } ∧
          bit (t.m.rd .evfCh ch.val 0 Off.PG_FLT) 1 = true)) ∧
      ((port s).state = 3 → s.m.Records ch.val 69 → ∀ why, Answers (.portRetrainTrigger ch p why) s fun t => quiet t ∧ (port t).state = 4 ∧ (port t).fast = true ∧
        (port t).replay = [] ∧ (why = .replays → bit (t.m.rd .evfCh ch.val 0 Off.PG_FLT) 2 = true)))) ∧
  (∀ (s : State) (ch : ChId) (p : PortIx) (f : Flit), s.m.Settled → s.m.fabOn ch.val = true → (s.m.port ch.val p.val).state = 3 →
    let pt := s.m.port ch.val p.val
    let frame (t : State) : Prop := SameBytes s t ∧ t.m.rqt = s.m.rqt ∧ t.m.seqs = s.m.seqs ∧ t.m.tiles = s.m.tiles ∧
      ∀ c q, (c ≠ ch.val ∨ q ≠ p.val) → t.m.port c q = s.m.port c q
    (f.crcOk = false ∨ f.fecUnc ≠ 0 → Gives (.flitReceive ch p f) s
      ((((s.m.portBump ch.val p.val Off.EVF_FECCOR f.fecCor).portBump ch.val p.val Off.EVF_FECUNC f.fecUnc).portBump ch.val p.val Off.EVF_CRCERR 1).says
        (.fabric ch.val (some p.val) (.flitNak pt.seqRx)))) ∧
    (f.crcOk = true → f.fecUnc = 0 → Answers (.flitReceive ch p f) s fun t => frame t ∧ (t.m.port ch.val p.val).seqRx =
      if f.granules ≠ [] ∧ f.seq.val = (pt.seqRx + 1) % 4096 then f.seq.val else pt.seqRx) ∧
    (f.crcOk = true → f.fecUnc = 0 → f.nak = false → pt.txq = [] →
      let took (n : Nat) (os : List Out) (t : State) : Prop := frame t ∧ (t.m.port ch.val p.val).seqRx = n ∧ t.m.out = s.m.out ++ os ∧
        (t.m.port ch.val p.val).credits = modifyAt (fun c => c + 16 * f.crd.val) f.crdVc.val pt.credits ∧
        (t.m.port ch.val p.val).replay = pt.replay.filter fun e => !decide ((f.ack.val + 4096 - e.1) % 4096 < 64)
      (f.granules = [] → Answers (.flitReceive ch p f) s (took pt.seqRx [])) ∧
      (f.granules ≠ [] → f.seq.val ≠ (pt.seqRx + 1) % 4096 → Answers (.flitReceive ch p f) s (took pt.seqRx [.fabric ch.val (some p.val) (.flitNak pt.seqRx)])) ∧
      (f.granules.length < 16 → f.granules ≠ [] → f.seq.val = (pt.seqRx + 1) % 4096 → pt.owed = [0, 0, 0, 0] →
        Answers (.flitReceive ch p f) s (took f.seq.val [.fabric ch.val (some p.val) (.flitCtrl f.seq.val 0 0)]))))

/-- Memory of another node's: a WRITE stores its bytes exactly where its range was lent to its source, and no byte changes for any other; a READ
of a lent range answers its bytes; either is otherwise refused, with REM_REJECT where the range was not lent, discarded at HOPS 15 with
HOP_LIMIT raised, forwarded, or answered NOTREADY (R350, R353 to R355, R358). -/
def Obligations.RemoteAccessesAreChecked : Prop :=
  ∀ (s : State) (ch : ChId) (p : PortIx) (h : MsgHdr) (data : List Byte), s.m.Settled → s.m.fabOn ch.val = true →
    let here : Prop := s.m.node = some (addrNode h.dst) ∧ addrCh h.dst = ch.val ∧ h.hops.val ≠ 15
    let frame (t : State) : Prop := t.m.rqt = s.m.rqt ∧ t.m.seqs = s.m.seqs ∧ t.m.tiles = s.m.tiles ∧ t.m.sync ch.val = s.m.sync ch.val
    let a := devAddr h.dst
    let key := arrKey h.srcNode.val h.srcCh.val h.stream
    let now := (arriveBytes ((s.m.fab ch.val).arrived.get Arrived.fresh key) h.offset data.length).1
    let after := s.m.modFab ch.val fun x => { x with arrived := x.arrived.set Arrived.fresh key now }
    let hop : Prop := s.m.node.isSome = true ∧ h.hops.val = 15
    (here → s.m.refusal ch.val h data.length = none → Does (.fabricWriteReceive ch p h data) s fun t =>
      (t.m.fab ch.val).arrived.get Arrived.fresh key = now) ∧
    (∀ code, here → s.m.refusal ch.val h data.length = some code → code ≠ Code.TENANT → Answers (.fabricWriteReceive ch p h data) s fun t => frame t ∧ SameBytes s t) ∧
    (∀ code, here → s.m.refusal ch.val h h.len = some code → code ≠ Code.TENANT → Answers (.fabricReadReceive ch p h) s fun t => frame t ∧ SameBytes s t) ∧
    (¬ here → ¬ hop → ∀ c ∈ [Instr.fabricWriteReceive ch p h data, .fabricReadReceive ch p h], Answers c s fun t => frame t ∧ SameBytes s t) ∧
    (hop → ∀ c ∈ [Instr.fabricWriteReceive ch p h data, .fabricReadReceive ch p h], Does c s fun t => SameBytes s t ∧ t.m.rqt = s.m.rqt ∧
      bit (t.m.rd .evfCh ch.val 0 Off.PG_FLT) 8 = true) ∧
    (here → s.m.refusal ch.val h data.length = some Code.TENANT → Does (.fabricWriteReceive ch p h data) s fun t => SameBytes s t ∧ t.m.rqt = s.m.rqt ∧
      bit (t.m.rd .evfCh ch.val 0 Off.PG_FLT) 5 = true) ∧
    (here → s.m.refusal ch.val h h.len = some Code.TENANT → Does (.fabricReadReceive ch p h) s fun t => SameBytes s t ∧ t.m.rqt = s.m.rqt ∧
      bit (t.m.rd .evfCh ch.val 0 Off.PG_FLT) 5 = true) ∧
    (here → s.m.refusal ch.val h h.len = none → Gives (.fabricReadReceive ch p h) s ((s.m.wakeUnit ch.val a).send ch.val h.srcNode.val h.srcCh.val
      (.readResp { h with dst := BitVec.ofNat 64 (h.srcNode.val * 2 ^ 49 + h.srcCh.val * 2 ^ 46), hops := 0, status := 0 } (s.m.viewBytes a h.len)))) ∧
    (here → s.m.refusal ch.val h data.length = none → (∀ x ∈ (s.m.sync ch.val).held, after.covered ch.val x.sig = false) →
      Answers (.fabricWriteReceive ch p h data) s fun t => frame t ∧
      (∀ x, t.m.byte x = if a ≤ x ∧ x < a + data.length then nth 0 data (x - a) else s.m.byte x) ∧
      ∀ k, (t.m.fab ch.val).arrived.get Arrived.fresh k = if k = key then now else (s.m.fab ch.val).arrived.get Arrived.fresh k) ∧
    (s.m.Records ch.val 72 → s.m.Records ch.val 75 → (¬ here ∨ (s.m.refusal ch.val h data.length).isSome = true) → Answers (.fabricWriteReceive ch p h data) s fun t => frame t ∧ SameBytes s t) ∧
    (s.m.Records ch.val 72 → here → s.m.refusal ch.val h data.length = some Code.TENANT → Answers (.fabricWriteReceive ch p h data) s fun t =>
      bit (t.m.rd .evfCh ch.val 0 Off.PG_FLT) 5 = true) ∧
    (s.m.Records ch.val 75 → s.m.node.isSome = true → h.hops.val = 15 → ∀ c ∈ [Instr.fabricWriteReceive ch p h data, .fabricReadReceive ch p h], Answers c s fun t => frame t ∧ SameBytes s t ∧
      t.m.out = s.m.out ∧ bit (t.m.rd .evfCh ch.val 0 Off.PG_FLT) 8 = true) ∧
    (s.m.Records ch.val 72 → s.m.Records ch.val 75 → Answers (.fabricReadReceive ch p h) s fun t => frame t ∧ SameBytes s t) ∧
    (∀ (m q : Nat), here → s.m.refusal ch.val h h.len = none → h.len ≤ 2016 → s.m.routeMask ch.val h.srcNode.val h.srcCh.val = some m →
      s.m.choosePort ch.val m 1 = some q → s.m.port ch.val q = { Port.fresh with state := 3 } → Answers (.fabricReadReceive ch p h) s fun t =>
        let back : Word64 := BitVec.ofNat 64 (h.srcNode.val * 2 ^ 49 + h.srcCh.val * 2 ^ 46)
        t.m.out = s.m.out ++ [.fabric ch.val (some q) (.readResp { h with dst := back, hops := 0, status := 0 } (s.m.viewBytes a h.len))])

/-- A READ of this channel ends with its response, whose bytes are stored where it asked, or with LINK when none comes; a refusal of a message
ends a READ with its status, and holds a refused signal back or ends it; a DIGEST waits for its signal; a failure notice ends a run that is
not done, and its object breaks with the code (R354, R335, R361, R362). -/
def Obligations.ReadsAndRunsEnd : Prop :=
  ∀ (s : State) (ch : ChId) (p : PortIx) (me src : Fin 32768) (from_ : ChId), s.m.Settled → s.m.fabOn ch.val = true → s.m.node = some me.val →
    let quiet (t : State) : Prop := t.m.rqt = s.m.rqt ∧ t.m.seqs = s.m.seqs ∧ t.m.tiles = s.m.tiles ∧ t.m.out = s.m.out
    let way : MsgWay := ⟨ch, p, me, ch, src, from_⟩
    let over_ (t : State) (r : OpenRead) (status : Nat) : Prop := (t.m.fab ch.val).reads = (s.m.fab ch.val).reads.erase r ∧ (t.m.fab ch.val).ended.get 0 r.tag = status + 1
    (∀ (h : MsgHdr) (data : List Byte) (r : OpenRead), addrNode h.dst = me.val → addrCh h.dst = ch.val → h.hops.val ≠ 15 →
      (s.m.fab ch.val).reads.find? (fun r => r.tag = h.tag && r.stream = h.stream) = some r →
      Does (.readRespReceive ⟨ch, p⟩ h data) s (fun t => over_ t r (if s.m.fltState ch.val = 0 then peerCode h.status.toNat else Code.WITHDRAWN)) ∧
      Does (.replyReceive way h.stream h.tag h.status) s (fun t => over_ t r (peerCode h.status.toNat)) ∧
      (s.m.fltState ch.val = 0 → h.status = 0 → Answers (.readRespReceive ⟨ch, p⟩ h data) s fun t => quiet t ∧ over_ t r 0 ∧
        ∀ x, t.m.byte x = if r.dest ≤ x ∧ x < r.dest + data.length then nth 0 data (x - r.dest) else s.m.byte x) ∧
      (r.seq = none → h.status ≠ 0 → s.m.fltState ch.val = 0 → Answers (.readRespReceive ⟨ch, p⟩ h data) s fun t => quiet t ∧ SameBytes s t ∧ over_ t r (peerCode h.status.toNat)) ∧
      (r.seq = none → Answers (.replyReceive way h.stream h.tag h.status) s fun t => quiet t ∧ SameBytes s t ∧ over_ t r (peerCode h.status.toNat))) ∧
    (∀ (h : MsgHdr) (data : List Byte), addrNode h.dst ≠ me.val ∨ addrCh h.dst ≠ ch.val → h.hops.val ≠ 15 →
      Gives (.readRespReceive ⟨ch, p⟩ h data) s (s.m.forward ch.val h fun h => .readResp h data)) ∧
    (∀ w : MsgWay, s.m.fabOn w.ch.val = true → w.node ≠ me ∨ w.dstCh ≠ w.ch → ∀ (st tag : Nat) (status : Byte),
      let on_ (stream : Nat) (m : FabMsg) : Dev :=
        (s.m.sendTo w.ch.val w.node.val w.dstCh.val (some (65536 + arrKey w.srcNode.val w.srcCh.val stream)) m).getD s.m
      Gives (.replyReceive w st tag status) s (on_ st (.reply w.node.val w.dstCh.val st tag status.toNat)) ∧
      Gives (.notreadyReceive ⟨w.ch, w.p, w.node, w.dstCh⟩ st ⟨w.srcNode, w.srcCh⟩) s (on_ st (.notReady w.node.val w.dstCh.val st)) ∧
      ∀ ctx : CtxId, Gives (.collFailReceive w ctx st tag status) s (on_ 0 (.collFail w.node.val w.dstCh.val ctx.val st tag status.toNat))) ∧
    (∀ (tag : Nat) (r : OpenRead), (s.m.fab ch.val).reads.find? (·.tag = tag) = some r → Does (.readTimeout ch tag) s fun t => over_ t r Code.LINK) ∧
    (∀ (tag : Nat) (r : OpenRead), (s.m.fab ch.val).reads.find? (·.tag = tag) = some r → r.seq = none → Answers (.readTimeout ch tag) s fun t => quiet t ∧ SameBytes s t ∧
      over_ t r Code.LINK) ∧
    (∀ (y : SentSig) (status : Byte), ((s.m.fab ch.val).reads.find? fun r => r.tag = y.sig.mark && r.stream = y.sig.stream) = none →
      ((s.m.sync ch.val).sent.find? fun x => x.sig.stream = y.sig.stream && x.sig.mark = y.sig.mark) = some y →
      Does (.replyReceive way y.sig.stream y.sig.mark status) s fun t => (t.m.sync ch.val).sent =
        if status.toNat = Code.NOSPACE then (s.m.sync ch.val).sent.map fun z => if z.id = y.id then { z with refused := true } else z
        else (s.m.sync ch.val).sent.erase y) ∧
    (∀ (c : Coll) (tag : Nat), (s.m.fab ch.val).reads = [] → (s.m.sync ch.val).sent = [] →
      ((s.m.fab ch.val).colls.find? fun x => x.o.stream = c.o.stream && x.done) = some c → tag < c.o.parts.length →
      Gives (.replyReceive way c.o.stream tag (BitVec.ofNat 8 Code.REJECTED)) s ((s.m.sendColl c tag 15).getD s.m)) ∧
    (∀ (y : SentSig) (status : Byte), (s.m.fab ch.val).reads = [] → (s.m.sync ch.val).sent = [y] → y.seq = none → Answers (.replyReceive way y.sig.stream y.sig.mark status) s fun t =>
      quiet t ∧ SameBytes s t ∧ t.m.regs = s.m.regs ∧ (t.m.sync ch.val).sent = if status.toNat = Code.NOSPACE then [{ y with refused := true }] else []) ∧
    (∀ d : Digest, d.dstCh = ch →
      (∀ (x : HeldSig) (c : Coll), s.m.fltState ch.val = 0 → (s.m.sync ch.val).held = [x] → s.m.covered ch.val x.sig = true → (s.m.fab ch.val).digests = [] →
        s.m.collOf ch.val x.obj = some c → d.srcNode = x.sig.srcNode → d.srcCh = x.sig.srcCh → d.stream = x.sig.stream → d.markEnd = x.sig.mark →
        d.collId = c.o.collId → d.inst = c.o.inst → digestOf d (s.m.bytes (devAddr d.addr) d.len) = d.digest →
        let a := (s.m.modFab ch.val fun x => { x with digests := x.digests ++ [d] }).modFab ch.val fun x => { x with digests := x.digests.erase d }
        let b := (a.applySig ch.val x.obj x.sig.consume x.sig.value).1.collTake c d (s.m.bytes (devAddr d.addr) d.len)
        Gives (.digestReceive ⟨ch, p, me, d⟩) s (b.modSync ch.val fun y => { y with held := y.held.erase x }).settle) ∧
      (s.m.fltState ch.val = 0 → (∀ x ∈ (s.m.sync ch.val).held, s.m.covered ch.val x.sig = false) → Gives (.digestReceive ⟨ch, p, me, d⟩) s
        (s.m.modFab ch.val fun x => { x with digests := x.digests ++ [d] })) ∧
      (s.m.fltState ch.val = 0 → (s.m.sync ch.val).held = [] → Gives (.digestReceive ⟨ch, p, me, d⟩) s (s.m.modFab ch.val fun x => { x with digests := x.digests ++ [d] })) ∧
      (s.m.fltState ch.val ≠ 0 → Gives (.digestReceive ⟨ch, p, me, d⟩) s s.m)) ∧
    (∀ (c : Coll) (ctx : CtxId) (id inst : Nat) (code : Byte),
      (s.m.fab ch.val).colls.find? (fun c => c.o.ctx.val = ctx.val && c.o.collId = id && c.o.inst = inst) = some c → c.o.ch = ch →
      (c.done = true → Gives (.collFailReceive way ctx id inst code) s s.m) ∧
      (c.done = false → Does (.collFailReceive way ctx id inst code) s fun t => (t.m.fab ch.val).colls = (s.m.fab ch.val).colls.filter (fun x => x.o ≠ c.o) ∧
        ∀ o, s.m.collObj c.o = some o → (s.m.obj ch.val o).state = 1 → (t.m.obj ch.val o).state = 2 ∧ (t.m.obj ch.val o).code = peerCode code.toNat)) ∧
    (∀ (c : Coll) (ctx : CtxId) (id inst : Nat) (code : Byte) (o : Nat),
      (s.m.fab ch.val).colls.find? (fun c => c.o.ctx.val = ctx.val && c.o.collId = id && c.o.inst = inst) = some c → c.o.ch = ch → c.me ≠ 0 → c.done = false →
      s.m.collObj c.o = some o → (s.m.obj ch.val o).state = 1 → (s.m.obj ch.val o).waits = [] → Answers (.collFailReceive way ctx id inst code) s fun t => quiet t ∧ SameBytes s t ∧
        (t.m.fab ch.val).colls = (s.m.fab ch.val).colls.filter (fun x => x.o ≠ c.o) ∧
        t.m.obj ch.val o = { s.m.obj ch.val o with state := 2, code := peerCode code.toNat })

/-- Streams: a NOTREADY holds only the stream that it answers, whose message goes out again on its timer and is given up 1 s after the first; an
idle stream gives up its port once all its flits are acknowledged (R352, R358). -/
def Obligations.StreamsAreHeld : Prop :=
  ∀ (s : State) (ch : ChId) (st : Nat), s.m.Settled → s.m.fabOn ch.val = true →
    let x := s.m.stream ch.val st
    let frame (t : State) : Prop := SameBytes s t ∧ t.m.rqt = s.m.rqt ∧ t.m.seqs = s.m.seqs ∧ t.m.tiles = s.m.tiles ∧ ∀ k, k ≠ st → t.m.stream ch.val k = s.m.stream ch.val k
    (∀ (p : PortIx) (me node : Fin 32768) (from_ : ChId), s.m.node = some me.val → (s.m.streamTo ch.val st node.val = true → Answers (.notreadyReceive ⟨ch, p, me, ch⟩ st ⟨node, from_⟩) s fun t => frame t ∧ t.m.regs = s.m.regs ∧ t.m.out = s.m.out ∧
        t.m.stream ch.val st = { x with held := true, since := x.since.or (some (s.m.chan ch.val).time) }) ∧
      (s.m.streamTo ch.val st node.val = false → Gives (.notreadyReceive ⟨ch, p, me, ch⟩ st ⟨node, from_⟩) s s.m)) ∧
    (∀ (t0 node dch : Nat) (m : FabMsg), x.since = some t0 → x.last = some (node, dch, m) →
      let idle := s.m.modStream ch.val st fun y => { y with held := false }
      (x.held = true → t0 + 1000000000 ≤ (s.m.chan ch.val).time → Does (.notreadyResendTimer ch st) s fun t =>
        t.m.stream ch.val st = { x with held := false, since := none, last := none, wait := [] }) ∧
      (x.held = true → (s.m.chan ch.val).time < t0 + 1000000000 → Gives (.notreadyResendTimer ch st) s ((idle.sendTo ch.val node dch (some st) m).getD idle)) ∧
      (x.held = false → Gives (.notreadyResendTimer ch st) s (x.wait.foldl (fun s e => (s.sendStream ch.val e.1 e.2.1 st e.2.2).getD s)
        (s.m.modStream ch.val st fun y => { y with since := none, wait := [] })))) ∧
    (∀ (t0 node dch p : Nat) (m : FabMsg), x.since = some t0 → x.last = some (node, dch, m) → x.held = true →
      (t0 + 1000000000 ≤ (s.m.chan ch.val).time → (s.m.fab ch.val).reads = [] → Answers (.notreadyResendTimer ch st) s fun t => frame t ∧ t.m.out = s.m.out ∧
        t.m.stream ch.val st = { x with held := false, since := none, last := none, wait := [] }) ∧
      ((s.m.chan ch.val).time < t0 + 1000000000 → s.m.fltState ch.val = 0 → x.port = some p → s.m.port ch.val p = { Port.fresh with state := 3 } → msgVc m < 3 → msgGranules m ≤ 64 →
        Answers (.notreadyResendTimer ch st) s fun t => frame t ∧ t.m.out = s.m.out ++ [.fabric ch.val (some p) m] ∧ t.m.stream ch.val st = { x with held := false })) ∧
    (∀ p : Nat, x.port = some p →
      let busy := (s.m.port ch.val p).txq.any (fun m => m.stream = some st) || (s.m.port ch.val p).replay.any (fun e => e.2.any fun m => m.stream = some st)
      (busy = false → Answers (.streamIdleExpire ch st) s fun t => frame t ∧ t.m.regs = s.m.regs ∧ t.m.out = s.m.out ∧ t.m.stream ch.val st = { x with port := none }) ∧
      (busy = true → Gives (.streamIdleExpire ch st) s s.m))

/-! ### Node IDs and time -/

/-- Node IDs: ASSIGN and EVF_NODE give the ID unless another is valid while a context is loaded, and then the ID stays; on the chain the first
ENUM on ch0.p0 gives it, with the routes of the chain, and one that names another ID raises ID_CONFLICT; the root takes BASE; ENUM with the
ID + 1 goes out again until the neighbour has it; EVF_RT_DATA writes the entry at IDX, and IDX moves on (R356, R357, R369, R370). -/
def Obligations.NodesAreNumbered : Prop :=
  ∀ (s : State), s.m.Settled →
    let quiet (t : State) : Prop := SameBytes s t ∧ t.m.rqt = s.m.rqt ∧ t.m.seqs = s.m.seqs ∧ t.m.tiles = s.m.tiles ∧ t.m.ctxs = s.m.ctxs
    (∀ (ch : ChId) (p : PortIx) (id : Fin 32768), s.m.fabOn ch.val = true →
      (s.m.assignOk id.val = true → Answers (.assignReceive ch p id) s fun t => quiet t ∧ t.m.node = some id.val) ∧
      (s.m.assignOk id.val = false → Answers (.assignReceive ch p id) s fun t => quiet t ∧ t.m.node = s.m.node)) ∧
    (∀ id : Nat, s.m.fabOn 0 = true → s.m.chainOn = true → id < 32768 →
      (s.m.node = none → Answers (.enumReceive 0 0 id) s fun t => quiet t ∧ t.m.node = some id ∧ ∀ k d, k < 32768 →
        (s.m.chainBase ≤ k → k < id → t.m.routeMask 0 k d = some 1) ∧ (id < k → t.m.routeMask 0 k d = some 2) ∧
        ∀ c, 0 < c → c < 8 → k ≠ id → t.m.routeMask c k d = some (s.m.rdF .evfCh c 0 Off.EVF_SIB 7 0)) ∧
      (s.m.node = some id → Gives (.enumReceive 0 0 id) s s.m) ∧
      (∀ n, s.m.node = some n → n ≠ id → Does (.enumReceive 0 0 id) s fun t => SameBytes s t ∧ t.m.rqt = s.m.rqt ∧ t.m.node = s.m.node ∧
        bit (t.m.rd .evfCh 0 0 Off.PG_FLT) 6 = true) ∧
      (∀ n, s.m.node = some n → n ≠ id → s.m.Records 0 73 → Answers (.enumReceive 0 0 id) s fun t => quiet t ∧ t.m.node = s.m.node ∧
        bit (t.m.rd .evfCh 0 0 Off.PG_FLT) 6 = true)) ∧
    (∀ n : Nat, s.m.fabOn 0 = true → s.m.node = some n →
      let told := (s.m.port 0 1).partner.any fun h => decide (h.node.map (·.val) = some (n + 1))
      Gives .enumRepeatTimer s (if s.m.chainOn && !told then s.m.sendEnum n else s.m)) ∧
    (∀ n : Nat, s.m.fabOn 0 = true → s.m.chainOn = true → s.m.node = some n → n < 32767 → s.m.port 0 1 = { Port.fresh with state := 3 } →
      Answers .enumRepeatTimer s fun t => quiet t ∧ t.m.out = s.m.out ++ [.fabric 0 (some 1) (.enum (n + 1))]) ∧
    (∀ (fn : Fn) (v : Word),
      (s.m.Writes fn ⟨.evfMod, 0, 0⟩ Off.EVF_ENUM → Answers (.evfEnumWrite fn v) s fun t => quiet t ∧ t.m.rd .evfMod 0 0 Off.EVF_ENUM = v &&& 0x7FFF0003#32 ∧
        t.m.node = if bit v 0 = true ∧ bit v 1 = true ∧ s.m.assignOk (fld v 30 16) = true then some (fld v 30 16) else s.m.node) ∧
      (s.m.Writes fn ⟨.evfMod, 0, 0⟩ Off.EVF_NODE → bit v 15 = true → Answers (.evfNodeWrite fn v) s fun t => quiet t ∧
        t.m.node = (if s.m.assignOk (fld v 14 0) then some (fld v 14 0) else s.m.node) ∧
        t.m.rdF .evfMod 0 0 Off.EVF_NODE 23 16 = if s.m.assignOk (fld v 14 0) then Code.OK else Code.REJECTED) ∧
      (s.m.Writes fn ⟨.evfMod, 0, 0⟩ Off.EVF_NODE → bit v 15 = false → Answers (.evfNodeWrite fn v) s fun t => quiet t ∧
        t.m.node = (if s.m.anyLoaded then s.m.node else none) ∧
        t.m.rdF .evfMod 0 0 Off.EVF_NODE 23 16 = if s.m.anyLoaded && s.m.node.isSome then Code.REJECTED else Code.OK)) ∧
    (∀ (fn : Fn) (ch : ChId) (v : Word), s.m.Writes fn ⟨.evfCh, ch.val, 0⟩ Off.EVF_RT_DATA → Answers (.evfRtDataWrite fn ch v) s fun t => SameWork s t ∧
      (t.m.fab ch.val).routes.find? (fun r => r.lo ≤ s.m.rdF .evfCh ch.val 0 Off.EVF_RT_IDX 14 0 && s.m.rdF .evfCh ch.val 0 Off.EVF_RT_IDX 14 0 ≤ r.hi) =
        some ⟨s.m.rdF .evfCh ch.val 0 Off.EVF_RT_IDX 14 0, s.m.rdF .evfCh ch.val 0 Off.EVF_RT_IDX 14 0, some (fld v 7 0), bit v 8⟩ ∧
      t.m.rdF .evfCh ch.val 0 Off.EVF_RT_IDX 14 0 = (s.m.rdF .evfCh ch.val 0 Off.EVF_RT_IDX 14 0 + 1) % 32768 ∧
      SameRegs s t (· = pageOff .evfCh ch.val 0 Off.EVF_RT_IDX))

/-- Time: in FABRIC mode the first TIME message sets device time and the plank counter while no context is loaded, and a later one is slewed; a
module in MASTER mode that hears a lower master sets CONFLICT; a master sends its time, and none without a node ID; the end of a holdover
sets TIME_LOST; in PIN mode an edge within ±PIN_WIN moves the boundary onto it, one outside is counted, and the third raises TIME_LOST; a
write of MODE clears CONFLICT (R363 to R366). -/
def Obligations.TimeIsKept : Prop :=
  ∀ (s : State), s.m.Settled →
    let quiet (t : State) : Prop := SameBytes s t ∧ t.m.rqt = s.m.rqt ∧ t.m.seqs = s.m.seqs ∧ t.m.tiles = s.m.tiles ∧ t.m.ctxs = s.m.ctxs
    (∀ (ch : ChId) (p : PortIx) (m : TimeMsg), s.m.fabOn ch.val = true →
      let k := ch.val * 8 + p.val
      let at_ := m.time.toNat + s.m.ftime.delays.get 0 k
      (Answers (.timeReceive ch p m) s fun t => quiet t ∧ t.m.ftime.heard = s.m.ftime.heard.set (0, 0) k (m.master.val + 1, m.hops)) ∧
      (s.m.timeMode = 3 → s.m.ftime.heard = [] → (s.m.port ch.val p.val).state = 3 → m.hops < 255 → Answers (.timeReceive ch p m) s fun t => quiet t ∧ t.m.tsta 2 0 = 1 ∧ t.m.tsta 17 3 = m.master.val ∧
        t.m.tsta 18 18 = 1 ∧ t.m.tsta 26 19 = m.hops + 1 ∧ t.m.ftime.from_ = some k ∧
        (s.m.ftime.from_ = none → s.m.anyLoaded = false → t.m.time = at_ ∧ t.m.plank = m.plank.toNat ∧
          ∀ c, c < 8 → (s.m.chan c).linkUp = true → (t.m.chan c).time = at_ ∧ (t.m.chan c).plank = m.plank.toNat) ∧
        (s.m.ftime.from_ ≠ none ∨ s.m.anyLoaded = true → t.m.time = s.m.time ∧ t.m.plank = s.m.plank ∧ t.m.ftime.slew = (at_ : Int) - s.m.time)) ∧
      (∀ n, s.m.timeMode = 1 → s.m.node = some n → m.master.val < n → Answers (.timeReceive ch p m) s fun t => quiet t ∧ t.m.tsta 27 27 = 1) ∧
      (s.m.timeMode = 0 → Answers (.timeReceive ch p m) s fun t => quiet t ∧ t.m.time = s.m.time ∧ t.m.plank = s.m.plank ∧
        t.m.ftime.slew = s.m.ftime.slew ∧ t.m.ftime.from_ = s.m.ftime.from_) ∧
      (∀ d : Nat, Gives (.linkDelayMeasure ch p d) s (s.m.modTime fun t => { t with delays := t.delays.set 0 k d })) ∧
      (∀ n, s.m.node = some n → n < 32768 → s.m.timeMode = 1 → s.m.tsta 27 27 = 0 → s.m.ftime.heard = [] → s.m.ftime.from_ = none →
        s.m.port ch.val p.val = { Port.fresh with state := 3 } → (∀ c q, (c ≠ ch.val ∨ q ≠ p.val) → (s.m.port c q).state ≠ 3) → Answers .timeSendTimer s fun t => quiet t ∧
          ∃ msg : TimeMsg, t.m.out = s.m.out ++ [.fabric ch.val (some p.val) (.time msg)] ∧ msg.master.val = n ∧ msg.hops = 0 ∧
            msg.time = BitVec.ofNat 64 s.m.time ∧ msg.plank = BitVec.ofNat 64 s.m.plank)) ∧
    (s.m.vin = true →
      (s.m.node = none → Gives .timeSendTimer s s.m) ∧
      (Answers .timeSendTimer s fun t => quiet t ∧ t.m.time = s.m.time ∧ t.m.plank = s.m.plank ∧ s.m.out <+: t.m.out) ∧
      (s.m.followsTime = true → s.m.tsta 1 1 = 1 → Does .timeHoldoverExpire s fun t => SameBytes s t ∧ t.m.rqt = s.m.rqt ∧ t.m.tsta 2 0 = 4 ∧
        bit (t.m.rd .evfCh s.m.timeCh 0 Off.PG_FLT) 7 = true) ∧
      (s.m.followsTime = true → s.m.tsta 1 1 = 0 → Gives .timeHoldoverExpire s s.m) ∧
      (∀ off : Int, Does (.plankInEdge off) s fun t => SameBytes s t ∧ t.m.rqt = s.m.rqt ∧ t.m.time = s.m.time ∧ t.m.plank = s.m.plank) ∧
      (s.m.followsTime = true → s.m.tsta 1 1 = 1 → s.m.Records s.m.timeCh 74 → Answers .timeHoldoverExpire s fun t => quiet t ∧ t.m.tsta 2 0 = 4 ∧ t.m.ftime.slew = 0 ∧
        bit (t.m.rd .evfCh s.m.timeCh 0 Off.PG_FLT) 7 = true) ∧
      (∀ off : Int, let win := 10 * max 1 (s.m.rdF .evfMod 0 0 Off.EVF_TIME_CTL 15 8)
        (s.m.timeMode ≠ 2 → Gives (.plankInEdge off) s s.m) ∧
        (s.m.timeMode = 2 → off.natAbs ≤ win → Answers (.plankInEdge off) s fun t => quiet t ∧ t.m.ftime = { s.m.ftime with edge := true, misses := 0, skew := off } ∧ t.m.tsta 2 0 = 1) ∧
        (s.m.timeMode = 2 → win < off.natAbs → s.m.ftime.misses ≠ 2 → Answers (.plankInEdge off) s fun t => quiet t ∧ t.m.ftime = { s.m.ftime with misses := s.m.ftime.misses + 1 } ∧
          t.m.tsta 2 0 = s.m.tsta 2 0) ∧
        (s.m.timeMode = 2 → win < off.natAbs → s.m.ftime.misses = 2 → s.m.Records s.m.timeCh 74 → Answers (.plankInEdge off) s fun t => quiet t ∧ t.m.tsta 2 0 = 4 ∧
          bit (t.m.rd .evfCh s.m.timeCh 0 Off.PG_FLT) 7 = true))) ∧
    (∀ (fn : Fn) (v : Word), s.m.Writes fn ⟨.evfMod, 0, 0⟩ Off.EVF_TIME_CTL → Answers (.evfTimeCtlWrite fn v) s fun t => quiet t ∧ t.m.timeMode = fld v 1 0 ∧ t.m.tsta 27 27 = 0 ∧
      t.m.rdF .evfMod 0 0 Off.EVF_TIME_CTL 15 8 = max 1 (fld v 15 8) ∧
      SameRegs s t fun a => a = pageOff .evfMod 0 0 Off.EVF_TIME_CTL ∨ a = pageOff .evfMod 0 0 Off.EVF_TIME_STA)
end

