-- ==== Sys2Proof/Laws/Store.lean ====
section
/-! SUPPORT. Laws of sparse data: a read after a write of the same key gives the value written, a write leaves every other key alone,
and every operation keeps the canonical form. -/

namespace Sys2Proof
variable {α : Type}

/-! ### Reads -/

@[simp] theorem Store.get_nil (d : α) (k : Nat) : Store.get d k [] = d := rfl

theorem Store.get_erase_same (d : α) (k : Nat) (m : Store α) : (m.erase k).get d k = d := by
  induction m with
  | nil => rfl
  | cons e m ih =>
    obtain ⟨j, v⟩ := e
    by_cases h : j = k <;> simp [Store.erase, Store.get, h, ih]

theorem Store.get_erase_other (d : α) {k j : Nat} (h : j ≠ k) (m : Store α) : (m.erase k).get d j = m.get d j := by
  induction m with
  | nil => rfl
  | cons e m ih =>
    obtain ⟨i, v⟩ := e
    by_cases hi : i = k
    · subst hi; simp [Store.erase, Store.get, ih, Ne.symm h]
    · simp [Store.erase, Store.get, hi, ih]

@[simp] theorem Store.get_put_same (d : α) (k : Nat) (v : α) (m : Store α) : (m.put k v).get d k = v := by
  induction m with
  | nil => simp [Store.put, Store.get]
  | cons e m ih =>
    obtain ⟨j, w⟩ := e
    simp only [Store.put]
    split
    · simp [Store.get]
    · split
      · simp [Store.get]
      · rename_i h _; simp [Store.get, h, ih]

theorem Store.get_put_other (d : α) {k j : Nat} (h : j ≠ k) (v : α) (m : Store α) : (m.put k v).get d j = m.get d j := by
  induction m with
  | nil => simp [Store.put, Store.get, Ne.symm h]
  | cons e m ih =>
    obtain ⟨i, w⟩ := e
    simp only [Store.put]
    split
    · rename_i hi; subst hi; simp [Store.get, Ne.symm h]
    · split
      · simp [Store.get, Ne.symm h]
      · simp [Store.get, ih]

@[simp] theorem Store.get_setD_same [DecidableEq α] (d : Nat → α) (k : Nat) (v : α) (m : Store α) :
    (m.setD d k v).get (d k) k = v := by
  simp only [Store.setD]
  split
  · rename_i h; rw [Store.get_erase_same]; exact h.symm
  · simp

theorem Store.get_setD_other [DecidableEq α] (d : Nat → α) {k j : Nat} (h : j ≠ k) (v e : α) (m : Store α) :
    (m.setD d k v).get e j = m.get e j := by
  simp only [Store.setD]
  split
  · exact Store.get_erase_other e h m
  · exact Store.get_put_other e h v m

@[simp] theorem Store.get_set_same [DecidableEq α] (d : α) (k : Nat) (v : α) (m : Store α) : (m.set d k v).get d k = v :=
  Store.get_setD_same (fun _ => d) k v m

theorem Store.get_set_other [DecidableEq α] (d : α) {k j : Nat} (h : j ≠ k) (v : α) (m : Store α) :
    (m.set d k v).get d j = m.get d j :=
  Store.get_setD_other (fun _ => d) h v d m

theorem Store.get_keep (d : α) (p : Nat → Bool) (k : Nat) (m : Store α) : (m.keep p).get d k = if p k then m.get d k else d := by
  induction m with
  | nil => simp [Store.keep, Store.get]
  | cons e m ih =>
    obtain ⟨j, v⟩ := e
    simp only [Store.keep] at ih ⊢
    by_cases hp : p j
    · simp only [List.filter_cons, hp, Store.get]
      by_cases hj : j = k
      · subst hj; simp [Store.get, hp]
      · simp [Store.get, hj, ih]
    · simp only [List.filter_cons, hp, Store.get]
      by_cases hj : j = k
      · subst hj; simp [hp] at ih ⊢; exact ih
      · simp [hj, ih]

theorem Store.get_drop (d : α) (lo hi k : Nat) (m : Store α) :
    (m.drop lo hi).get d k = if lo ≤ k ∧ k < hi then d else m.get d k := by
  simp only [Store.drop, Store.get_keep]
  by_cases h : lo ≤ k ∧ k < hi
  · have : (decide (k < lo) || decide (hi ≤ k)) = false := by simp; omega
    simp [this, h]
  · have : (decide (k < lo) || decide (hi ≤ k)) = true := by simp; omega
    simp [this, h]

/-! ### The canonical form -/

theorem Store.wfFrom_mono [DecidableEq α] (d : Nat → α) {a b : Nat} (h : a ≤ b) {m : Store α} (w : m.wfFrom d b = true) :
    m.wfFrom d a = true := by
  cases m with
  | nil => rfl
  | cons e m =>
    obtain ⟨j, v⟩ := e
    simp only [Store.wfFrom, Bool.and_eq_true, decide_eq_true_eq] at w ⊢
    exact ⟨⟨Nat.le_trans h w.1.1, w.1.2⟩, w.2⟩

theorem Store.wfFrom_erase [DecidableEq α] (d : Nat → α) (k : Nat) (m : Store α) :
    ∀ b, m.wfFrom d b = true → (m.erase k).wfFrom d b = true := by
  induction m with
  | nil => intro b _; rfl
  | cons e m ih =>
    obtain ⟨j, v⟩ := e
    intro b w
    simp only [Store.wfFrom, Bool.and_eq_true, decide_eq_true_eq] at w
    by_cases h : j = k
    · rw [Store.erase, if_pos h]
      exact ih b (Store.wfFrom_mono d (by omega) w.2)
    · rw [Store.erase, if_neg h]
      simp only [Store.wfFrom, Bool.and_eq_true, decide_eq_true_eq]
      exact ⟨w.1, ih _ w.2⟩

theorem Store.wfFrom_put [DecidableEq α] (d : Nat → α) (k : Nat) (v : α) (hv : v ≠ d k) (m : Store α) :
    ∀ b, b ≤ k → m.wfFrom d b = true → (m.put k v).wfFrom d b = true := by
  induction m with
  | nil => intro b hb _; simp [Store.put, Store.wfFrom, hb, hv]
  | cons e m ih =>
    obtain ⟨j, u⟩ := e
    intro b hb w
    simp only [Store.wfFrom, Bool.and_eq_true, decide_eq_true_eq] at w
    simp only [Store.put]
    split
    · rename_i h; subst h
      simp only [Store.wfFrom, Bool.and_eq_true, decide_eq_true_eq]
      exact ⟨⟨hb, hv⟩, w.2⟩
    · split
      · simp only [Store.wfFrom, Bool.and_eq_true, decide_eq_true_eq]
        exact ⟨⟨hb, hv⟩, ⟨by omega, w.1.2⟩, w.2⟩
      · simp only [Store.wfFrom, Bool.and_eq_true, decide_eq_true_eq]
        exact ⟨w.1, ih _ (by omega) w.2⟩

theorem Store.wf_setD [DecidableEq α] (d : Nat → α) (k : Nat) (v : α) {m : Store α} (w : m.wf d = true) :
    (m.setD d k v).wf d = true := by
  simp only [Store.setD]
  split
  · exact Store.wfFrom_erase d k m 0 w
  · rename_i h; exact Store.wfFrom_put d k v h m 0 (Nat.zero_le k) w

theorem Store.wf_set [DecidableEq α] (d : α) (k : Nat) (v : α) {m : Store α} (w : m.wf (fun _ => d) = true) :
    (m.set d k v).wf (fun _ => d) = true := Store.wf_setD _ k v w

theorem Store.wfFrom_keep [DecidableEq α] (d : Nat → α) (p : Nat → Bool) (m : Store α) :
    ∀ b, m.wfFrom d b = true → (m.keep p).wfFrom d b = true := by
  induction m with
  | nil => intro b _; rfl
  | cons e m ih =>
    obtain ⟨j, v⟩ := e
    intro b w
    simp only [Store.wfFrom, Bool.and_eq_true, decide_eq_true_eq] at w
    simp only [Store.keep] at ih ⊢
    by_cases hp : p j
    · simp only [List.filter_cons, hp, if_true, Store.wfFrom, Bool.and_eq_true, decide_eq_true_eq]
      exact ⟨w.1, ih _ w.2⟩
    · simp only [List.filter_cons, hp]
      exact ih b (Store.wfFrom_mono d (by omega) w.2)

theorem Store.wf_drop [DecidableEq α] (d : Nat → α) (lo hi : Nat) {m : Store α} (w : m.wf d = true) : (m.drop lo hi).wf d = true :=
  Store.wfFrom_keep d _ m 0 w

/-- What a rewritten store holds is never what its key reads as unlisted. -/
theorem Store.wfFrom_mapV' [DecidableEq α] (d : Nat → α) (f : Nat → α → α) (m : Store α) :
    ∀ b, m.wfFrom d b = true → (m.mapV' d f).wfFrom d b = true := by
  induction m with
  | nil => intro b _; rfl
  | cons e m ih =>
    obtain ⟨j, v⟩ := e
    intro b w
    simp only [Store.wfFrom, Bool.and_eq_true, decide_eq_true_eq] at w
    simp only [Store.mapV', List.filterMap_cons] at ih ⊢
    by_cases h : f j v = d j
    · simp only [h, if_true]
      exact ih b (Store.wfFrom_mono d (by omega) w.2)
    · simp only [h, if_false, Store.wfFrom, Bool.and_eq_true, decide_eq_true_eq]
      exact ⟨⟨w.1.1, h⟩, ih _ w.2⟩

/-- Two stores in canonical form that read the same everywhere are the same data. -/
theorem Store.ext_wf [DecidableEq α] (d : α) : ∀ (m n : Store α) (b : Nat), m.wfFrom (fun _ => d) b = true →
    n.wfFrom (fun _ => d) b = true → (∀ k, m.get d k = n.get d k) → m = n := by
  have low : ∀ (m : Store α) (b k : Nat), m.wfFrom (fun _ => d) b = true → k < b → m.get d k = d := by
    intro m
    induction m with
    | nil => intro b k _ _; rfl
    | cons e m ih =>
      obtain ⟨j, v⟩ := e
      intro b k w h
      simp only [Store.wfFrom, Bool.and_eq_true, decide_eq_true_eq] at w
      have : j ≠ k := by omega
      simp only [Store.get, if_neg this]
      exact ih _ k w.2 (by omega)
  intro m
  induction m with
  | nil =>
    intro n b _ wn h
    cases n with
    | nil => rfl
    | cons e n =>
      obtain ⟨j, v⟩ := e
      simp only [Store.wfFrom, Bool.and_eq_true, decide_eq_true_eq] at wn
      have := h j
      simp [Store.get] at this
      exact absurd this.symm wn.1.2
  | cons e m ih =>
    obtain ⟨j, v⟩ := e
    intro n b wm wn h
    cases n with
    | nil =>
      simp only [Store.wfFrom, Bool.and_eq_true, decide_eq_true_eq] at wm
      have := h j
      simp [Store.get] at this
      exact absurd this wm.1.2
    | cons e n =>
      obtain ⟨i, u⟩ := e
      simp only [Store.wfFrom, Bool.and_eq_true, decide_eq_true_eq] at wm wn
      have hij : i = j := by
        rcases Nat.lt_trichotomy i j with hl | he | hl
        · have := h i
          simp only [Store.get, if_neg (by omega : ¬ j = i)] at this
          rw [low m _ i wm.2 (by omega)] at this
          exact absurd this.symm wn.1.2
        · exact he
        · have := h j
          simp only [Store.get, if_neg (by omega : ¬ i = j)] at this
          rw [low n _ j wn.2 (by omega)] at this
          exact absurd this wm.1.2
      subst hij
      have huv : v = u := by simpa [Store.get] using h i
      subst huv
      have hmn : m = n := by
        apply ih n (i + 1) wm.2 wn.2
        intro k
        by_cases hk : i = k
        · subst hk; rw [low m _ i wm.2 (by omega), low n _ i wn.2 (by omega)]
        · have := h k
          simpa [Store.get, hk] using this
      rw [hmn]

end Sys2Proof
end

