-- ==== Sys2Proof/Laws/State.lean ====
section
/-! SUPPORT. What each named update of the module leaves alone, field by field, and what the parts of State read after it. -/

namespace Sys2Proof.Machine
open Sys2Proof

/-! ### setReg -/

@[simp] theorem Dev.setReg_out (s : Dev) (a : Nat) (w : Word) : (s.setReg a w).out = s.out := rfl
@[simp] theorem Dev.setReg_eff (s : Dev) (a : Nat) (w : Word) : (s.setReg a w).eff = s.eff := rfl
@[simp] theorem Dev.setReg_latch (s : Dev) (a : Nat) (w : Word) : (s.setReg a w).latch = s.latch := rfl
@[simp] theorem Dev.setReg_mem (s : Dev) (a : Nat) (w : Word) : (s.setReg a w).mem = s.mem := rfl
@[simp] theorem Dev.setReg_t0 (s : Dev) (a : Nat) (w : Word) : (s.setReg a w).t0 = s.t0 := rfl
@[simp] theorem Dev.setReg_cbuf (s : Dev) (a : Nat) (w : Word) : (s.setReg a w).cbuf = s.cbuf := rfl
@[simp] theorem Dev.setReg_chans (s : Dev) (a : Nat) (w : Word) : (s.setReg a w).chans = s.chans := rfl
@[simp] theorem Dev.setReg_clusters (s : Dev) (a : Nat) (w : Word) : (s.setReg a w).clusters = s.clusters := rfl
@[simp] theorem Dev.setReg_cores (s : Dev) (a : Nat) (w : Word) : (s.setReg a w).cores = s.cores := rfl
@[simp] theorem Dev.setReg_tiles (s : Dev) (a : Nat) (w : Word) : (s.setReg a w).tiles = s.tiles := rfl
@[simp] theorem Dev.setReg_ctxs (s : Dev) (a : Nat) (w : Word) : (s.setReg a w).ctxs = s.ctxs := rfl
@[simp] theorem Dev.setReg_trees (s : Dev) (a : Nat) (w : Word) : (s.setReg a w).trees = s.trees := rfl
@[simp] theorem Dev.setReg_staged (s : Dev) (a : Nat) (w : Word) : (s.setReg a w).staged = s.staged := rfl
@[simp] theorem Dev.setReg_tamper (s : Dev) (a : Nat) (w : Word) : (s.setReg a w).tamper = s.tamper := rfl
@[simp] theorem Dev.setReg_rqt (s : Dev) (a : Nat) (w : Word) : (s.setReg a w).rqt = s.rqt := rfl
@[simp] theorem Dev.setReg_seqs (s : Dev) (a : Nat) (w : Word) : (s.setReg a w).seqs = s.seqs := rfl
@[simp] theorem Dev.setReg_mems (s : Dev) (a : Nat) (w : Word) : (s.setReg a w).mems = s.mems := rfl
@[simp] theorem Dev.setReg_mgts (s : Dev) (a : Nat) (w : Word) : (s.setReg a w).mgts = s.mgts := rfl
@[simp] theorem Dev.setReg_fws (s : Dev) (a : Nat) (w : Word) : (s.setReg a w).fws = s.fws := rfl
@[simp] theorem Dev.setReg_dlv (s : Dev) (a : Nat) (w : Word) : (s.setReg a w).dlv = s.dlv := rfl
@[simp] theorem Dev.setReg_hubGroups (s : Dev) (a : Nat) (w : Word) : (s.setReg a w).hubGroups = s.hubGroups := rfl
@[simp] theorem Dev.setReg_time (s : Dev) (a : Nat) (w : Word) : (s.setReg a w).time = s.time := rfl
@[simp] theorem Dev.setReg_plank (s : Dev) (a : Nat) (w : Word) : (s.setReg a w).plank = s.plank := rfl
@[simp] theorem Dev.setReg_ftime (s : Dev) (a : Nat) (w : Word) : (s.setReg a w).ftime = s.ftime := rfl
@[simp] theorem Dev.setReg_mgtNs (s : Dev) (a : Nat) (w : Word) : (s.setReg a w).mgtNs = s.mgtNs := rfl
@[simp] theorem Dev.setReg_opSecs (s : Dev) (a : Nat) (w : Word) : (s.setReg a w).opSecs = s.opSecs := rfl
@[simp] theorem Dev.setReg_porCount (s : Dev) (a : Nat) (w : Word) : (s.setReg a w).porCount = s.porCount := rfl
@[simp] theorem Dev.setReg_vinMeter (s : Dev) (a : Nat) (w : Word) : (s.setReg a w).vinMeter = s.vinMeter := rfl
@[simp] theorem Dev.setReg_vinHist (s : Dev) (a : Nat) (w : Word) : (s.setReg a w).vinHist = s.vinHist := rfl
@[simp] theorem Dev.setReg_vinLow (s : Dev) (a : Nat) (w : Word) : (s.setReg a w).vinLow = s.vinLow := rfl
@[simp] theorem Dev.setReg_aux (s : Dev) (a : Nat) (w : Word) : (s.setReg a w).aux = s.aux := rfl
@[simp] theorem Dev.setReg_vin (s : Dev) (a : Nat) (w : Word) : (s.setReg a w).vin = s.vin := rfl
@[simp] theorem Dev.setReg_auxPg (s : Dev) (a : Nat) (w : Word) : (s.setReg a w).auxPg = s.auxPg := rfl
@[simp] theorem Dev.setReg_thermtrip (s : Dev) (a : Nat) (w : Word) : (s.setReg a w).thermtrip = s.thermtrip := rfl
@[simp] theorem Dev.setReg_selfOff (s : Dev) (a : Nat) (w : Word) : (s.setReg a w).selfOff = s.selfOff := rfl
@[simp] theorem Dev.setReg_perstLow (s : Dev) (a : Nat) (w : Word) : (s.setReg a w).perstLow = s.perstLow := rfl
@[simp] theorem Dev.setReg_perstReset (s : Dev) (a : Nat) (w : Word) : (s.setReg a w).perstReset = s.perstReset := rfl
@[simp] theorem Dev.setReg_hubReady (s : Dev) (a : Nat) (w : Word) : (s.setReg a w).hubReady = s.hubReady := rfl
@[simp] theorem Dev.setReg_numVfs (s : Dev) (a : Nat) (w : Word) : (s.setReg a w).numVfs = s.numVfs := rfl
@[simp] theorem Dev.setReg_hubHalt (s : Dev) (a : Nat) (w : Word) : (s.setReg a w).hubHalt = s.hubHalt := rfl
@[simp] theorem Dev.setReg_slotId (s : Dev) (a : Nat) (w : Word) : (s.setReg a w).slotId = s.slotId := rfl
@[simp] theorem Dev.setReg_ticket (s : Dev) (a : Nat) (w : Word) : (s.setReg a w).ticket = s.ticket := rfl
@[simp] theorem Dev.setReg_get_byte (s : Dev) (a : Nat) (w : Word) (j : Nat) : (s.setReg a w).byte j = s.byte j := rfl
@[simp] theorem Dev.setReg_get_chan (s : Dev) (a : Nat) (w : Word) (j : Nat) : (s.setReg a w).chan j = s.chan j := rfl
@[simp] theorem Dev.setReg_get_clus (s : Dev) (a : Nat) (w : Word) (j : Nat) : (s.setReg a w).clus j = s.clus j := rfl
@[simp] theorem Dev.setReg_get_core (s : Dev) (a : Nat) (w : Word) (j : Nat) : (s.setReg a w).core j = s.core j := rfl
@[simp] theorem Dev.setReg_get_tile (s : Dev) (a : Nat) (w : Word) (j : Nat) : (s.setReg a w).tile j = s.tile j := rfl
@[simp] theorem Dev.setReg_get_ctx (s : Dev) (a : Nat) (w : Word) (j : Nat) : (s.setReg a w).ctx j = s.ctx j := rfl
@[simp] theorem Dev.setReg_get_mgt (s : Dev) (a : Nat) (w : Word) (j : Nat) : (s.setReg a w).mgt j = s.mgt j := rfl
@[simp] theorem Dev.setReg_get_seq (s : Dev) (a : Nat) (w : Word) (j : Nat) : (s.setReg a w).seq j = s.seq j := rfl
@[simp] theorem Dev.setReg_get_memOf (s : Dev) (a : Nat) (w : Word) (j : Nat) : (s.setReg a w).memOf j = s.memOf j := rfl
@[simp] theorem Dev.setReg_get_dlvOf (s : Dev) (a : Nat) (w : Word) (j : Nat) : (s.setReg a w).dlvOf j = s.dlvOf j := rfl
@[simp] theorem Dev.setReg_get_inForce (s : Dev) (a : Nat) (w : Word) (k' : PageKind) (x i' o' hi' lo' : Nat) : (s.setReg a w).inForce k' x i' o' hi' lo' = s.inForce k' x i' o' hi' lo' := rfl

/-! ### wr -/

@[simp] theorem Dev.wr_out (s : Dev) (k : PageKind) (ch inst o : Nat) (w : Word) : (s.wr k ch inst o w).out = s.out := rfl
@[simp] theorem Dev.wr_eff (s : Dev) (k : PageKind) (ch inst o : Nat) (w : Word) : (s.wr k ch inst o w).eff = s.eff := rfl
@[simp] theorem Dev.wr_latch (s : Dev) (k : PageKind) (ch inst o : Nat) (w : Word) : (s.wr k ch inst o w).latch = s.latch := rfl
@[simp] theorem Dev.wr_mem (s : Dev) (k : PageKind) (ch inst o : Nat) (w : Word) : (s.wr k ch inst o w).mem = s.mem := rfl
@[simp] theorem Dev.wr_t0 (s : Dev) (k : PageKind) (ch inst o : Nat) (w : Word) : (s.wr k ch inst o w).t0 = s.t0 := rfl
@[simp] theorem Dev.wr_cbuf (s : Dev) (k : PageKind) (ch inst o : Nat) (w : Word) : (s.wr k ch inst o w).cbuf = s.cbuf := rfl
@[simp] theorem Dev.wr_chans (s : Dev) (k : PageKind) (ch inst o : Nat) (w : Word) : (s.wr k ch inst o w).chans = s.chans := rfl
@[simp] theorem Dev.wr_clusters (s : Dev) (k : PageKind) (ch inst o : Nat) (w : Word) : (s.wr k ch inst o w).clusters = s.clusters := rfl
@[simp] theorem Dev.wr_cores (s : Dev) (k : PageKind) (ch inst o : Nat) (w : Word) : (s.wr k ch inst o w).cores = s.cores := rfl
@[simp] theorem Dev.wr_tiles (s : Dev) (k : PageKind) (ch inst o : Nat) (w : Word) : (s.wr k ch inst o w).tiles = s.tiles := rfl
@[simp] theorem Dev.wr_ctxs (s : Dev) (k : PageKind) (ch inst o : Nat) (w : Word) : (s.wr k ch inst o w).ctxs = s.ctxs := rfl
@[simp] theorem Dev.wr_trees (s : Dev) (k : PageKind) (ch inst o : Nat) (w : Word) : (s.wr k ch inst o w).trees = s.trees := rfl
@[simp] theorem Dev.wr_staged (s : Dev) (k : PageKind) (ch inst o : Nat) (w : Word) : (s.wr k ch inst o w).staged = s.staged := rfl
@[simp] theorem Dev.wr_tamper (s : Dev) (k : PageKind) (ch inst o : Nat) (w : Word) : (s.wr k ch inst o w).tamper = s.tamper := rfl
@[simp] theorem Dev.wr_rqt (s : Dev) (k : PageKind) (ch inst o : Nat) (w : Word) : (s.wr k ch inst o w).rqt = s.rqt := rfl
@[simp] theorem Dev.wr_seqs (s : Dev) (k : PageKind) (ch inst o : Nat) (w : Word) : (s.wr k ch inst o w).seqs = s.seqs := rfl
@[simp] theorem Dev.wr_mems (s : Dev) (k : PageKind) (ch inst o : Nat) (w : Word) : (s.wr k ch inst o w).mems = s.mems := rfl
@[simp] theorem Dev.wr_mgts (s : Dev) (k : PageKind) (ch inst o : Nat) (w : Word) : (s.wr k ch inst o w).mgts = s.mgts := rfl
@[simp] theorem Dev.wr_fws (s : Dev) (k : PageKind) (ch inst o : Nat) (w : Word) : (s.wr k ch inst o w).fws = s.fws := rfl
@[simp] theorem Dev.wr_dlv (s : Dev) (k : PageKind) (ch inst o : Nat) (w : Word) : (s.wr k ch inst o w).dlv = s.dlv := rfl
@[simp] theorem Dev.wr_hubGroups (s : Dev) (k : PageKind) (ch inst o : Nat) (w : Word) : (s.wr k ch inst o w).hubGroups = s.hubGroups := rfl
@[simp] theorem Dev.wr_time (s : Dev) (k : PageKind) (ch inst o : Nat) (w : Word) : (s.wr k ch inst o w).time = s.time := rfl
@[simp] theorem Dev.wr_plank (s : Dev) (k : PageKind) (ch inst o : Nat) (w : Word) : (s.wr k ch inst o w).plank = s.plank := rfl
@[simp] theorem Dev.wr_ftime (s : Dev) (k : PageKind) (ch inst o : Nat) (w : Word) : (s.wr k ch inst o w).ftime = s.ftime := rfl
@[simp] theorem Dev.wr_mgtNs (s : Dev) (k : PageKind) (ch inst o : Nat) (w : Word) : (s.wr k ch inst o w).mgtNs = s.mgtNs := rfl
@[simp] theorem Dev.wr_opSecs (s : Dev) (k : PageKind) (ch inst o : Nat) (w : Word) : (s.wr k ch inst o w).opSecs = s.opSecs := rfl
@[simp] theorem Dev.wr_porCount (s : Dev) (k : PageKind) (ch inst o : Nat) (w : Word) : (s.wr k ch inst o w).porCount = s.porCount := rfl
@[simp] theorem Dev.wr_vinMeter (s : Dev) (k : PageKind) (ch inst o : Nat) (w : Word) : (s.wr k ch inst o w).vinMeter = s.vinMeter := rfl
@[simp] theorem Dev.wr_vinHist (s : Dev) (k : PageKind) (ch inst o : Nat) (w : Word) : (s.wr k ch inst o w).vinHist = s.vinHist := rfl
@[simp] theorem Dev.wr_vinLow (s : Dev) (k : PageKind) (ch inst o : Nat) (w : Word) : (s.wr k ch inst o w).vinLow = s.vinLow := rfl
@[simp] theorem Dev.wr_aux (s : Dev) (k : PageKind) (ch inst o : Nat) (w : Word) : (s.wr k ch inst o w).aux = s.aux := rfl
@[simp] theorem Dev.wr_vin (s : Dev) (k : PageKind) (ch inst o : Nat) (w : Word) : (s.wr k ch inst o w).vin = s.vin := rfl
@[simp] theorem Dev.wr_auxPg (s : Dev) (k : PageKind) (ch inst o : Nat) (w : Word) : (s.wr k ch inst o w).auxPg = s.auxPg := rfl
@[simp] theorem Dev.wr_thermtrip (s : Dev) (k : PageKind) (ch inst o : Nat) (w : Word) : (s.wr k ch inst o w).thermtrip = s.thermtrip := rfl
@[simp] theorem Dev.wr_selfOff (s : Dev) (k : PageKind) (ch inst o : Nat) (w : Word) : (s.wr k ch inst o w).selfOff = s.selfOff := rfl
@[simp] theorem Dev.wr_perstLow (s : Dev) (k : PageKind) (ch inst o : Nat) (w : Word) : (s.wr k ch inst o w).perstLow = s.perstLow := rfl
@[simp] theorem Dev.wr_perstReset (s : Dev) (k : PageKind) (ch inst o : Nat) (w : Word) : (s.wr k ch inst o w).perstReset = s.perstReset := rfl
@[simp] theorem Dev.wr_hubReady (s : Dev) (k : PageKind) (ch inst o : Nat) (w : Word) : (s.wr k ch inst o w).hubReady = s.hubReady := rfl
@[simp] theorem Dev.wr_numVfs (s : Dev) (k : PageKind) (ch inst o : Nat) (w : Word) : (s.wr k ch inst o w).numVfs = s.numVfs := rfl
@[simp] theorem Dev.wr_hubHalt (s : Dev) (k : PageKind) (ch inst o : Nat) (w : Word) : (s.wr k ch inst o w).hubHalt = s.hubHalt := rfl
@[simp] theorem Dev.wr_slotId (s : Dev) (k : PageKind) (ch inst o : Nat) (w : Word) : (s.wr k ch inst o w).slotId = s.slotId := rfl
@[simp] theorem Dev.wr_ticket (s : Dev) (k : PageKind) (ch inst o : Nat) (w : Word) : (s.wr k ch inst o w).ticket = s.ticket := rfl
@[simp] theorem Dev.wr_get_byte (s : Dev) (k : PageKind) (ch inst o : Nat) (w : Word) (j : Nat) : (s.wr k ch inst o w).byte j = s.byte j := rfl
@[simp] theorem Dev.wr_get_chan (s : Dev) (k : PageKind) (ch inst o : Nat) (w : Word) (j : Nat) : (s.wr k ch inst o w).chan j = s.chan j := rfl
@[simp] theorem Dev.wr_get_clus (s : Dev) (k : PageKind) (ch inst o : Nat) (w : Word) (j : Nat) : (s.wr k ch inst o w).clus j = s.clus j := rfl
@[simp] theorem Dev.wr_get_core (s : Dev) (k : PageKind) (ch inst o : Nat) (w : Word) (j : Nat) : (s.wr k ch inst o w).core j = s.core j := rfl
@[simp] theorem Dev.wr_get_tile (s : Dev) (k : PageKind) (ch inst o : Nat) (w : Word) (j : Nat) : (s.wr k ch inst o w).tile j = s.tile j := rfl
@[simp] theorem Dev.wr_get_ctx (s : Dev) (k : PageKind) (ch inst o : Nat) (w : Word) (j : Nat) : (s.wr k ch inst o w).ctx j = s.ctx j := rfl
@[simp] theorem Dev.wr_get_mgt (s : Dev) (k : PageKind) (ch inst o : Nat) (w : Word) (j : Nat) : (s.wr k ch inst o w).mgt j = s.mgt j := rfl
@[simp] theorem Dev.wr_get_seq (s : Dev) (k : PageKind) (ch inst o : Nat) (w : Word) (j : Nat) : (s.wr k ch inst o w).seq j = s.seq j := rfl
@[simp] theorem Dev.wr_get_memOf (s : Dev) (k : PageKind) (ch inst o : Nat) (w : Word) (j : Nat) : (s.wr k ch inst o w).memOf j = s.memOf j := rfl
@[simp] theorem Dev.wr_get_dlvOf (s : Dev) (k : PageKind) (ch inst o : Nat) (w : Word) (j : Nat) : (s.wr k ch inst o w).dlvOf j = s.dlvOf j := rfl
@[simp] theorem Dev.wr_get_inForce (s : Dev) (k : PageKind) (ch inst o : Nat) (w : Word) (k' : PageKind) (x i' o' hi' lo' : Nat) : (s.wr k ch inst o w).inForce k' x i' o' hi' lo' = s.inForce k' x i' o' hi' lo' := rfl

/-! ### wrF -/

@[simp] theorem Dev.wrF_out (s : Dev) (k : PageKind) (ch inst o hi lo v : Nat) : (s.wrF k ch inst o hi lo v).out = s.out := rfl
@[simp] theorem Dev.wrF_eff (s : Dev) (k : PageKind) (ch inst o hi lo v : Nat) : (s.wrF k ch inst o hi lo v).eff = s.eff := rfl
@[simp] theorem Dev.wrF_latch (s : Dev) (k : PageKind) (ch inst o hi lo v : Nat) : (s.wrF k ch inst o hi lo v).latch = s.latch := rfl
@[simp] theorem Dev.wrF_mem (s : Dev) (k : PageKind) (ch inst o hi lo v : Nat) : (s.wrF k ch inst o hi lo v).mem = s.mem := rfl
@[simp] theorem Dev.wrF_t0 (s : Dev) (k : PageKind) (ch inst o hi lo v : Nat) : (s.wrF k ch inst o hi lo v).t0 = s.t0 := rfl
@[simp] theorem Dev.wrF_cbuf (s : Dev) (k : PageKind) (ch inst o hi lo v : Nat) : (s.wrF k ch inst o hi lo v).cbuf = s.cbuf := rfl
@[simp] theorem Dev.wrF_chans (s : Dev) (k : PageKind) (ch inst o hi lo v : Nat) : (s.wrF k ch inst o hi lo v).chans = s.chans := rfl
@[simp] theorem Dev.wrF_clusters (s : Dev) (k : PageKind) (ch inst o hi lo v : Nat) : (s.wrF k ch inst o hi lo v).clusters = s.clusters := rfl
@[simp] theorem Dev.wrF_cores (s : Dev) (k : PageKind) (ch inst o hi lo v : Nat) : (s.wrF k ch inst o hi lo v).cores = s.cores := rfl
@[simp] theorem Dev.wrF_tiles (s : Dev) (k : PageKind) (ch inst o hi lo v : Nat) : (s.wrF k ch inst o hi lo v).tiles = s.tiles := rfl
@[simp] theorem Dev.wrF_ctxs (s : Dev) (k : PageKind) (ch inst o hi lo v : Nat) : (s.wrF k ch inst o hi lo v).ctxs = s.ctxs := rfl
@[simp] theorem Dev.wrF_trees (s : Dev) (k : PageKind) (ch inst o hi lo v : Nat) : (s.wrF k ch inst o hi lo v).trees = s.trees := rfl
@[simp] theorem Dev.wrF_staged (s : Dev) (k : PageKind) (ch inst o hi lo v : Nat) : (s.wrF k ch inst o hi lo v).staged = s.staged := rfl
@[simp] theorem Dev.wrF_tamper (s : Dev) (k : PageKind) (ch inst o hi lo v : Nat) : (s.wrF k ch inst o hi lo v).tamper = s.tamper := rfl
@[simp] theorem Dev.wrF_rqt (s : Dev) (k : PageKind) (ch inst o hi lo v : Nat) : (s.wrF k ch inst o hi lo v).rqt = s.rqt := rfl
@[simp] theorem Dev.wrF_seqs (s : Dev) (k : PageKind) (ch inst o hi lo v : Nat) : (s.wrF k ch inst o hi lo v).seqs = s.seqs := rfl
@[simp] theorem Dev.wrF_mems (s : Dev) (k : PageKind) (ch inst o hi lo v : Nat) : (s.wrF k ch inst o hi lo v).mems = s.mems := rfl
@[simp] theorem Dev.wrF_mgts (s : Dev) (k : PageKind) (ch inst o hi lo v : Nat) : (s.wrF k ch inst o hi lo v).mgts = s.mgts := rfl
@[simp] theorem Dev.wrF_fws (s : Dev) (k : PageKind) (ch inst o hi lo v : Nat) : (s.wrF k ch inst o hi lo v).fws = s.fws := rfl
@[simp] theorem Dev.wrF_dlv (s : Dev) (k : PageKind) (ch inst o hi lo v : Nat) : (s.wrF k ch inst o hi lo v).dlv = s.dlv := rfl
@[simp] theorem Dev.wrF_hubGroups (s : Dev) (k : PageKind) (ch inst o hi lo v : Nat) : (s.wrF k ch inst o hi lo v).hubGroups = s.hubGroups := rfl
@[simp] theorem Dev.wrF_time (s : Dev) (k : PageKind) (ch inst o hi lo v : Nat) : (s.wrF k ch inst o hi lo v).time = s.time := rfl
@[simp] theorem Dev.wrF_plank (s : Dev) (k : PageKind) (ch inst o hi lo v : Nat) : (s.wrF k ch inst o hi lo v).plank = s.plank := rfl
@[simp] theorem Dev.wrF_ftime (s : Dev) (k : PageKind) (ch inst o hi lo v : Nat) : (s.wrF k ch inst o hi lo v).ftime = s.ftime := rfl
@[simp] theorem Dev.wrF_mgtNs (s : Dev) (k : PageKind) (ch inst o hi lo v : Nat) : (s.wrF k ch inst o hi lo v).mgtNs = s.mgtNs := rfl
@[simp] theorem Dev.wrF_opSecs (s : Dev) (k : PageKind) (ch inst o hi lo v : Nat) : (s.wrF k ch inst o hi lo v).opSecs = s.opSecs := rfl
@[simp] theorem Dev.wrF_porCount (s : Dev) (k : PageKind) (ch inst o hi lo v : Nat) : (s.wrF k ch inst o hi lo v).porCount = s.porCount := rfl
@[simp] theorem Dev.wrF_vinMeter (s : Dev) (k : PageKind) (ch inst o hi lo v : Nat) : (s.wrF k ch inst o hi lo v).vinMeter = s.vinMeter := rfl
@[simp] theorem Dev.wrF_vinHist (s : Dev) (k : PageKind) (ch inst o hi lo v : Nat) : (s.wrF k ch inst o hi lo v).vinHist = s.vinHist := rfl
@[simp] theorem Dev.wrF_vinLow (s : Dev) (k : PageKind) (ch inst o hi lo v : Nat) : (s.wrF k ch inst o hi lo v).vinLow = s.vinLow := rfl
@[simp] theorem Dev.wrF_aux (s : Dev) (k : PageKind) (ch inst o hi lo v : Nat) : (s.wrF k ch inst o hi lo v).aux = s.aux := rfl
@[simp] theorem Dev.wrF_vin (s : Dev) (k : PageKind) (ch inst o hi lo v : Nat) : (s.wrF k ch inst o hi lo v).vin = s.vin := rfl
@[simp] theorem Dev.wrF_auxPg (s : Dev) (k : PageKind) (ch inst o hi lo v : Nat) : (s.wrF k ch inst o hi lo v).auxPg = s.auxPg := rfl
@[simp] theorem Dev.wrF_thermtrip (s : Dev) (k : PageKind) (ch inst o hi lo v : Nat) : (s.wrF k ch inst o hi lo v).thermtrip = s.thermtrip := rfl
@[simp] theorem Dev.wrF_selfOff (s : Dev) (k : PageKind) (ch inst o hi lo v : Nat) : (s.wrF k ch inst o hi lo v).selfOff = s.selfOff := rfl
@[simp] theorem Dev.wrF_perstLow (s : Dev) (k : PageKind) (ch inst o hi lo v : Nat) : (s.wrF k ch inst o hi lo v).perstLow = s.perstLow := rfl
@[simp] theorem Dev.wrF_perstReset (s : Dev) (k : PageKind) (ch inst o hi lo v : Nat) : (s.wrF k ch inst o hi lo v).perstReset = s.perstReset := rfl
@[simp] theorem Dev.wrF_hubReady (s : Dev) (k : PageKind) (ch inst o hi lo v : Nat) : (s.wrF k ch inst o hi lo v).hubReady = s.hubReady := rfl
@[simp] theorem Dev.wrF_numVfs (s : Dev) (k : PageKind) (ch inst o hi lo v : Nat) : (s.wrF k ch inst o hi lo v).numVfs = s.numVfs := rfl
@[simp] theorem Dev.wrF_hubHalt (s : Dev) (k : PageKind) (ch inst o hi lo v : Nat) : (s.wrF k ch inst o hi lo v).hubHalt = s.hubHalt := rfl
@[simp] theorem Dev.wrF_slotId (s : Dev) (k : PageKind) (ch inst o hi lo v : Nat) : (s.wrF k ch inst o hi lo v).slotId = s.slotId := rfl
@[simp] theorem Dev.wrF_ticket (s : Dev) (k : PageKind) (ch inst o hi lo v : Nat) : (s.wrF k ch inst o hi lo v).ticket = s.ticket := rfl
@[simp] theorem Dev.wrF_get_byte (s : Dev) (k : PageKind) (ch inst o hi lo v : Nat) (j : Nat) : (s.wrF k ch inst o hi lo v).byte j = s.byte j := rfl
@[simp] theorem Dev.wrF_get_chan (s : Dev) (k : PageKind) (ch inst o hi lo v : Nat) (j : Nat) : (s.wrF k ch inst o hi lo v).chan j = s.chan j := rfl
@[simp] theorem Dev.wrF_get_clus (s : Dev) (k : PageKind) (ch inst o hi lo v : Nat) (j : Nat) : (s.wrF k ch inst o hi lo v).clus j = s.clus j := rfl
@[simp] theorem Dev.wrF_get_core (s : Dev) (k : PageKind) (ch inst o hi lo v : Nat) (j : Nat) : (s.wrF k ch inst o hi lo v).core j = s.core j := rfl
@[simp] theorem Dev.wrF_get_tile (s : Dev) (k : PageKind) (ch inst o hi lo v : Nat) (j : Nat) : (s.wrF k ch inst o hi lo v).tile j = s.tile j := rfl
@[simp] theorem Dev.wrF_get_ctx (s : Dev) (k : PageKind) (ch inst o hi lo v : Nat) (j : Nat) : (s.wrF k ch inst o hi lo v).ctx j = s.ctx j := rfl
@[simp] theorem Dev.wrF_get_mgt (s : Dev) (k : PageKind) (ch inst o hi lo v : Nat) (j : Nat) : (s.wrF k ch inst o hi lo v).mgt j = s.mgt j := rfl
@[simp] theorem Dev.wrF_get_seq (s : Dev) (k : PageKind) (ch inst o hi lo v : Nat) (j : Nat) : (s.wrF k ch inst o hi lo v).seq j = s.seq j := rfl
@[simp] theorem Dev.wrF_get_memOf (s : Dev) (k : PageKind) (ch inst o hi lo v : Nat) (j : Nat) : (s.wrF k ch inst o hi lo v).memOf j = s.memOf j := rfl
@[simp] theorem Dev.wrF_get_dlvOf (s : Dev) (k : PageKind) (ch inst o hi lo v : Nat) (j : Nat) : (s.wrF k ch inst o hi lo v).dlvOf j = s.dlvOf j := rfl
@[simp] theorem Dev.wrF_get_inForce (s : Dev) (k : PageKind) (ch inst o hi lo v : Nat) (k' : PageKind) (x i' o' hi' lo' : Nat) : (s.wrF k ch inst o hi lo v).inForce k' x i' o' hi' lo' = s.inForce k' x i' o' hi' lo' := rfl

/-! ### wr64 -/

@[simp] theorem Dev.wr64_out (s : Dev) (k : PageKind) (ch inst o v : Nat) : (s.wr64 k ch inst o v).out = s.out := rfl
@[simp] theorem Dev.wr64_eff (s : Dev) (k : PageKind) (ch inst o v : Nat) : (s.wr64 k ch inst o v).eff = s.eff := rfl
@[simp] theorem Dev.wr64_latch (s : Dev) (k : PageKind) (ch inst o v : Nat) : (s.wr64 k ch inst o v).latch = s.latch := rfl
@[simp] theorem Dev.wr64_mem (s : Dev) (k : PageKind) (ch inst o v : Nat) : (s.wr64 k ch inst o v).mem = s.mem := rfl
@[simp] theorem Dev.wr64_t0 (s : Dev) (k : PageKind) (ch inst o v : Nat) : (s.wr64 k ch inst o v).t0 = s.t0 := rfl
@[simp] theorem Dev.wr64_cbuf (s : Dev) (k : PageKind) (ch inst o v : Nat) : (s.wr64 k ch inst o v).cbuf = s.cbuf := rfl
@[simp] theorem Dev.wr64_chans (s : Dev) (k : PageKind) (ch inst o v : Nat) : (s.wr64 k ch inst o v).chans = s.chans := rfl
@[simp] theorem Dev.wr64_clusters (s : Dev) (k : PageKind) (ch inst o v : Nat) : (s.wr64 k ch inst o v).clusters = s.clusters := rfl
@[simp] theorem Dev.wr64_cores (s : Dev) (k : PageKind) (ch inst o v : Nat) : (s.wr64 k ch inst o v).cores = s.cores := rfl
@[simp] theorem Dev.wr64_tiles (s : Dev) (k : PageKind) (ch inst o v : Nat) : (s.wr64 k ch inst o v).tiles = s.tiles := rfl
@[simp] theorem Dev.wr64_ctxs (s : Dev) (k : PageKind) (ch inst o v : Nat) : (s.wr64 k ch inst o v).ctxs = s.ctxs := rfl
@[simp] theorem Dev.wr64_trees (s : Dev) (k : PageKind) (ch inst o v : Nat) : (s.wr64 k ch inst o v).trees = s.trees := rfl
@[simp] theorem Dev.wr64_staged (s : Dev) (k : PageKind) (ch inst o v : Nat) : (s.wr64 k ch inst o v).staged = s.staged := rfl
@[simp] theorem Dev.wr64_tamper (s : Dev) (k : PageKind) (ch inst o v : Nat) : (s.wr64 k ch inst o v).tamper = s.tamper := rfl
@[simp] theorem Dev.wr64_rqt (s : Dev) (k : PageKind) (ch inst o v : Nat) : (s.wr64 k ch inst o v).rqt = s.rqt := rfl
@[simp] theorem Dev.wr64_seqs (s : Dev) (k : PageKind) (ch inst o v : Nat) : (s.wr64 k ch inst o v).seqs = s.seqs := rfl
@[simp] theorem Dev.wr64_mems (s : Dev) (k : PageKind) (ch inst o v : Nat) : (s.wr64 k ch inst o v).mems = s.mems := rfl
@[simp] theorem Dev.wr64_mgts (s : Dev) (k : PageKind) (ch inst o v : Nat) : (s.wr64 k ch inst o v).mgts = s.mgts := rfl
@[simp] theorem Dev.wr64_fws (s : Dev) (k : PageKind) (ch inst o v : Nat) : (s.wr64 k ch inst o v).fws = s.fws := rfl
@[simp] theorem Dev.wr64_dlv (s : Dev) (k : PageKind) (ch inst o v : Nat) : (s.wr64 k ch inst o v).dlv = s.dlv := rfl
@[simp] theorem Dev.wr64_hubGroups (s : Dev) (k : PageKind) (ch inst o v : Nat) : (s.wr64 k ch inst o v).hubGroups = s.hubGroups := rfl
@[simp] theorem Dev.wr64_time (s : Dev) (k : PageKind) (ch inst o v : Nat) : (s.wr64 k ch inst o v).time = s.time := rfl
@[simp] theorem Dev.wr64_plank (s : Dev) (k : PageKind) (ch inst o v : Nat) : (s.wr64 k ch inst o v).plank = s.plank := rfl
@[simp] theorem Dev.wr64_ftime (s : Dev) (k : PageKind) (ch inst o v : Nat) : (s.wr64 k ch inst o v).ftime = s.ftime := rfl
@[simp] theorem Dev.wr64_mgtNs (s : Dev) (k : PageKind) (ch inst o v : Nat) : (s.wr64 k ch inst o v).mgtNs = s.mgtNs := rfl
@[simp] theorem Dev.wr64_opSecs (s : Dev) (k : PageKind) (ch inst o v : Nat) : (s.wr64 k ch inst o v).opSecs = s.opSecs := rfl
@[simp] theorem Dev.wr64_porCount (s : Dev) (k : PageKind) (ch inst o v : Nat) : (s.wr64 k ch inst o v).porCount = s.porCount := rfl
@[simp] theorem Dev.wr64_vinMeter (s : Dev) (k : PageKind) (ch inst o v : Nat) : (s.wr64 k ch inst o v).vinMeter = s.vinMeter := rfl
@[simp] theorem Dev.wr64_vinHist (s : Dev) (k : PageKind) (ch inst o v : Nat) : (s.wr64 k ch inst o v).vinHist = s.vinHist := rfl
@[simp] theorem Dev.wr64_vinLow (s : Dev) (k : PageKind) (ch inst o v : Nat) : (s.wr64 k ch inst o v).vinLow = s.vinLow := rfl
@[simp] theorem Dev.wr64_aux (s : Dev) (k : PageKind) (ch inst o v : Nat) : (s.wr64 k ch inst o v).aux = s.aux := rfl
@[simp] theorem Dev.wr64_vin (s : Dev) (k : PageKind) (ch inst o v : Nat) : (s.wr64 k ch inst o v).vin = s.vin := rfl
@[simp] theorem Dev.wr64_auxPg (s : Dev) (k : PageKind) (ch inst o v : Nat) : (s.wr64 k ch inst o v).auxPg = s.auxPg := rfl
@[simp] theorem Dev.wr64_thermtrip (s : Dev) (k : PageKind) (ch inst o v : Nat) : (s.wr64 k ch inst o v).thermtrip = s.thermtrip := rfl
@[simp] theorem Dev.wr64_selfOff (s : Dev) (k : PageKind) (ch inst o v : Nat) : (s.wr64 k ch inst o v).selfOff = s.selfOff := rfl
@[simp] theorem Dev.wr64_perstLow (s : Dev) (k : PageKind) (ch inst o v : Nat) : (s.wr64 k ch inst o v).perstLow = s.perstLow := rfl
@[simp] theorem Dev.wr64_perstReset (s : Dev) (k : PageKind) (ch inst o v : Nat) : (s.wr64 k ch inst o v).perstReset = s.perstReset := rfl
@[simp] theorem Dev.wr64_hubReady (s : Dev) (k : PageKind) (ch inst o v : Nat) : (s.wr64 k ch inst o v).hubReady = s.hubReady := rfl
@[simp] theorem Dev.wr64_numVfs (s : Dev) (k : PageKind) (ch inst o v : Nat) : (s.wr64 k ch inst o v).numVfs = s.numVfs := rfl
@[simp] theorem Dev.wr64_hubHalt (s : Dev) (k : PageKind) (ch inst o v : Nat) : (s.wr64 k ch inst o v).hubHalt = s.hubHalt := rfl
@[simp] theorem Dev.wr64_slotId (s : Dev) (k : PageKind) (ch inst o v : Nat) : (s.wr64 k ch inst o v).slotId = s.slotId := rfl
@[simp] theorem Dev.wr64_ticket (s : Dev) (k : PageKind) (ch inst o v : Nat) : (s.wr64 k ch inst o v).ticket = s.ticket := rfl
@[simp] theorem Dev.wr64_get_byte (s : Dev) (k : PageKind) (ch inst o v : Nat) (j : Nat) : (s.wr64 k ch inst o v).byte j = s.byte j := rfl
@[simp] theorem Dev.wr64_get_chan (s : Dev) (k : PageKind) (ch inst o v : Nat) (j : Nat) : (s.wr64 k ch inst o v).chan j = s.chan j := rfl
@[simp] theorem Dev.wr64_get_clus (s : Dev) (k : PageKind) (ch inst o v : Nat) (j : Nat) : (s.wr64 k ch inst o v).clus j = s.clus j := rfl
@[simp] theorem Dev.wr64_get_core (s : Dev) (k : PageKind) (ch inst o v : Nat) (j : Nat) : (s.wr64 k ch inst o v).core j = s.core j := rfl
@[simp] theorem Dev.wr64_get_tile (s : Dev) (k : PageKind) (ch inst o v : Nat) (j : Nat) : (s.wr64 k ch inst o v).tile j = s.tile j := rfl
@[simp] theorem Dev.wr64_get_ctx (s : Dev) (k : PageKind) (ch inst o v : Nat) (j : Nat) : (s.wr64 k ch inst o v).ctx j = s.ctx j := rfl
@[simp] theorem Dev.wr64_get_mgt (s : Dev) (k : PageKind) (ch inst o v : Nat) (j : Nat) : (s.wr64 k ch inst o v).mgt j = s.mgt j := rfl
@[simp] theorem Dev.wr64_get_seq (s : Dev) (k : PageKind) (ch inst o v : Nat) (j : Nat) : (s.wr64 k ch inst o v).seq j = s.seq j := rfl
@[simp] theorem Dev.wr64_get_memOf (s : Dev) (k : PageKind) (ch inst o v : Nat) (j : Nat) : (s.wr64 k ch inst o v).memOf j = s.memOf j := rfl
@[simp] theorem Dev.wr64_get_dlvOf (s : Dev) (k : PageKind) (ch inst o v : Nat) (j : Nat) : (s.wr64 k ch inst o v).dlvOf j = s.dlvOf j := rfl
@[simp] theorem Dev.wr64_get_inForce (s : Dev) (k : PageKind) (ch inst o v : Nat) (k' : PageKind) (x i' o' hi' lo' : Nat) : (s.wr64 k ch inst o v).inForce k' x i' o' hi' lo' = s.inForce k' x i' o' hi' lo' := rfl

/-! ### bump -/

/-- A counter that is bumped stays, or takes its new value. -/
theorem Dev.bump_cases (s : Dev) (k : PageKind) (ch inst o n : Nat) :
    s.bump k ch inst o n = s ∨ s.bump k ch inst o n = s.wr64 k ch inst o (s.rd64 k ch inst o + n) := ite_eq_or_eq ..
theorem Dev.bump_field {α : Type} (g : Dev → α) (h : ∀ (m : Dev) (k : PageKind) (ch inst o v : Nat), g (m.wr64 k ch inst o v) = g m)
    (s : Dev) (k : PageKind) (ch inst o n : Nat) : g (s.bump k ch inst o n) = g s := by
  rcases s.bump_cases k ch inst o n with e | e
  · exact congrArg g e
  · exact (congrArg g e).trans (h ..)

@[simp] theorem Dev.bump_out (s : Dev) (k : PageKind) (ch inst o n : Nat) : (s.bump k ch inst o n).out = s.out := Dev.bump_field (·.out) (fun _ _ _ _ _ _ => rfl) ..
@[simp] theorem Dev.bump_eff (s : Dev) (k : PageKind) (ch inst o n : Nat) : (s.bump k ch inst o n).eff = s.eff := Dev.bump_field (·.eff) (fun _ _ _ _ _ _ => rfl) ..
@[simp] theorem Dev.bump_latch (s : Dev) (k : PageKind) (ch inst o n : Nat) : (s.bump k ch inst o n).latch = s.latch := Dev.bump_field (·.latch) (fun _ _ _ _ _ _ => rfl) ..
@[simp] theorem Dev.bump_mem (s : Dev) (k : PageKind) (ch inst o n : Nat) : (s.bump k ch inst o n).mem = s.mem := Dev.bump_field (·.mem) (fun _ _ _ _ _ _ => rfl) ..
@[simp] theorem Dev.bump_t0 (s : Dev) (k : PageKind) (ch inst o n : Nat) : (s.bump k ch inst o n).t0 = s.t0 := Dev.bump_field (·.t0) (fun _ _ _ _ _ _ => rfl) ..
@[simp] theorem Dev.bump_cbuf (s : Dev) (k : PageKind) (ch inst o n : Nat) : (s.bump k ch inst o n).cbuf = s.cbuf := Dev.bump_field (·.cbuf) (fun _ _ _ _ _ _ => rfl) ..
@[simp] theorem Dev.bump_chans (s : Dev) (k : PageKind) (ch inst o n : Nat) : (s.bump k ch inst o n).chans = s.chans := Dev.bump_field (·.chans) (fun _ _ _ _ _ _ => rfl) ..
@[simp] theorem Dev.bump_clusters (s : Dev) (k : PageKind) (ch inst o n : Nat) : (s.bump k ch inst o n).clusters = s.clusters := Dev.bump_field (·.clusters) (fun _ _ _ _ _ _ => rfl) ..
@[simp] theorem Dev.bump_cores (s : Dev) (k : PageKind) (ch inst o n : Nat) : (s.bump k ch inst o n).cores = s.cores := Dev.bump_field (·.cores) (fun _ _ _ _ _ _ => rfl) ..
@[simp] theorem Dev.bump_tiles (s : Dev) (k : PageKind) (ch inst o n : Nat) : (s.bump k ch inst o n).tiles = s.tiles := Dev.bump_field (·.tiles) (fun _ _ _ _ _ _ => rfl) ..
@[simp] theorem Dev.bump_ctxs (s : Dev) (k : PageKind) (ch inst o n : Nat) : (s.bump k ch inst o n).ctxs = s.ctxs := Dev.bump_field (·.ctxs) (fun _ _ _ _ _ _ => rfl) ..
@[simp] theorem Dev.bump_trees (s : Dev) (k : PageKind) (ch inst o n : Nat) : (s.bump k ch inst o n).trees = s.trees := Dev.bump_field (·.trees) (fun _ _ _ _ _ _ => rfl) ..
@[simp] theorem Dev.bump_staged (s : Dev) (k : PageKind) (ch inst o n : Nat) : (s.bump k ch inst o n).staged = s.staged := Dev.bump_field (·.staged) (fun _ _ _ _ _ _ => rfl) ..
@[simp] theorem Dev.bump_tamper (s : Dev) (k : PageKind) (ch inst o n : Nat) : (s.bump k ch inst o n).tamper = s.tamper := Dev.bump_field (·.tamper) (fun _ _ _ _ _ _ => rfl) ..
@[simp] theorem Dev.bump_rqt (s : Dev) (k : PageKind) (ch inst o n : Nat) : (s.bump k ch inst o n).rqt = s.rqt := Dev.bump_field (·.rqt) (fun _ _ _ _ _ _ => rfl) ..
@[simp] theorem Dev.bump_seqs (s : Dev) (k : PageKind) (ch inst o n : Nat) : (s.bump k ch inst o n).seqs = s.seqs := Dev.bump_field (·.seqs) (fun _ _ _ _ _ _ => rfl) ..
@[simp] theorem Dev.bump_mems (s : Dev) (k : PageKind) (ch inst o n : Nat) : (s.bump k ch inst o n).mems = s.mems := Dev.bump_field (·.mems) (fun _ _ _ _ _ _ => rfl) ..
@[simp] theorem Dev.bump_mgts (s : Dev) (k : PageKind) (ch inst o n : Nat) : (s.bump k ch inst o n).mgts = s.mgts := Dev.bump_field (·.mgts) (fun _ _ _ _ _ _ => rfl) ..
@[simp] theorem Dev.bump_fws (s : Dev) (k : PageKind) (ch inst o n : Nat) : (s.bump k ch inst o n).fws = s.fws := Dev.bump_field (·.fws) (fun _ _ _ _ _ _ => rfl) ..
@[simp] theorem Dev.bump_dlv (s : Dev) (k : PageKind) (ch inst o n : Nat) : (s.bump k ch inst o n).dlv = s.dlv := Dev.bump_field (·.dlv) (fun _ _ _ _ _ _ => rfl) ..
@[simp] theorem Dev.bump_hubGroups (s : Dev) (k : PageKind) (ch inst o n : Nat) : (s.bump k ch inst o n).hubGroups = s.hubGroups := Dev.bump_field (·.hubGroups) (fun _ _ _ _ _ _ => rfl) ..
@[simp] theorem Dev.bump_time (s : Dev) (k : PageKind) (ch inst o n : Nat) : (s.bump k ch inst o n).time = s.time := Dev.bump_field (·.time) (fun _ _ _ _ _ _ => rfl) ..
@[simp] theorem Dev.bump_plank (s : Dev) (k : PageKind) (ch inst o n : Nat) : (s.bump k ch inst o n).plank = s.plank := Dev.bump_field (·.plank) (fun _ _ _ _ _ _ => rfl) ..
@[simp] theorem Dev.bump_ftime (s : Dev) (k : PageKind) (ch inst o n : Nat) : (s.bump k ch inst o n).ftime = s.ftime := Dev.bump_field (·.ftime) (fun _ _ _ _ _ _ => rfl) ..
@[simp] theorem Dev.bump_mgtNs (s : Dev) (k : PageKind) (ch inst o n : Nat) : (s.bump k ch inst o n).mgtNs = s.mgtNs := Dev.bump_field (·.mgtNs) (fun _ _ _ _ _ _ => rfl) ..
@[simp] theorem Dev.bump_opSecs (s : Dev) (k : PageKind) (ch inst o n : Nat) : (s.bump k ch inst o n).opSecs = s.opSecs := Dev.bump_field (·.opSecs) (fun _ _ _ _ _ _ => rfl) ..
@[simp] theorem Dev.bump_porCount (s : Dev) (k : PageKind) (ch inst o n : Nat) : (s.bump k ch inst o n).porCount = s.porCount := Dev.bump_field (·.porCount) (fun _ _ _ _ _ _ => rfl) ..
@[simp] theorem Dev.bump_vinMeter (s : Dev) (k : PageKind) (ch inst o n : Nat) : (s.bump k ch inst o n).vinMeter = s.vinMeter := Dev.bump_field (·.vinMeter) (fun _ _ _ _ _ _ => rfl) ..
@[simp] theorem Dev.bump_vinHist (s : Dev) (k : PageKind) (ch inst o n : Nat) : (s.bump k ch inst o n).vinHist = s.vinHist := Dev.bump_field (·.vinHist) (fun _ _ _ _ _ _ => rfl) ..
@[simp] theorem Dev.bump_vinLow (s : Dev) (k : PageKind) (ch inst o n : Nat) : (s.bump k ch inst o n).vinLow = s.vinLow := Dev.bump_field (·.vinLow) (fun _ _ _ _ _ _ => rfl) ..
@[simp] theorem Dev.bump_aux (s : Dev) (k : PageKind) (ch inst o n : Nat) : (s.bump k ch inst o n).aux = s.aux := Dev.bump_field (·.aux) (fun _ _ _ _ _ _ => rfl) ..
@[simp] theorem Dev.bump_vin (s : Dev) (k : PageKind) (ch inst o n : Nat) : (s.bump k ch inst o n).vin = s.vin := Dev.bump_field (·.vin) (fun _ _ _ _ _ _ => rfl) ..
@[simp] theorem Dev.bump_auxPg (s : Dev) (k : PageKind) (ch inst o n : Nat) : (s.bump k ch inst o n).auxPg = s.auxPg := Dev.bump_field (·.auxPg) (fun _ _ _ _ _ _ => rfl) ..
@[simp] theorem Dev.bump_thermtrip (s : Dev) (k : PageKind) (ch inst o n : Nat) : (s.bump k ch inst o n).thermtrip = s.thermtrip := Dev.bump_field (·.thermtrip) (fun _ _ _ _ _ _ => rfl) ..
@[simp] theorem Dev.bump_selfOff (s : Dev) (k : PageKind) (ch inst o n : Nat) : (s.bump k ch inst o n).selfOff = s.selfOff := Dev.bump_field (·.selfOff) (fun _ _ _ _ _ _ => rfl) ..
@[simp] theorem Dev.bump_perstLow (s : Dev) (k : PageKind) (ch inst o n : Nat) : (s.bump k ch inst o n).perstLow = s.perstLow := Dev.bump_field (·.perstLow) (fun _ _ _ _ _ _ => rfl) ..
@[simp] theorem Dev.bump_perstReset (s : Dev) (k : PageKind) (ch inst o n : Nat) : (s.bump k ch inst o n).perstReset = s.perstReset := Dev.bump_field (·.perstReset) (fun _ _ _ _ _ _ => rfl) ..
@[simp] theorem Dev.bump_hubReady (s : Dev) (k : PageKind) (ch inst o n : Nat) : (s.bump k ch inst o n).hubReady = s.hubReady := Dev.bump_field (·.hubReady) (fun _ _ _ _ _ _ => rfl) ..
@[simp] theorem Dev.bump_numVfs (s : Dev) (k : PageKind) (ch inst o n : Nat) : (s.bump k ch inst o n).numVfs = s.numVfs := Dev.bump_field (·.numVfs) (fun _ _ _ _ _ _ => rfl) ..
@[simp] theorem Dev.bump_hubHalt (s : Dev) (k : PageKind) (ch inst o n : Nat) : (s.bump k ch inst o n).hubHalt = s.hubHalt := Dev.bump_field (·.hubHalt) (fun _ _ _ _ _ _ => rfl) ..
@[simp] theorem Dev.bump_slotId (s : Dev) (k : PageKind) (ch inst o n : Nat) : (s.bump k ch inst o n).slotId = s.slotId := Dev.bump_field (·.slotId) (fun _ _ _ _ _ _ => rfl) ..
@[simp] theorem Dev.bump_ticket (s : Dev) (k : PageKind) (ch inst o n : Nat) : (s.bump k ch inst o n).ticket = s.ticket := Dev.bump_field (·.ticket) (fun _ _ _ _ _ _ => rfl) ..
@[simp] theorem Dev.bump_get_byte (s : Dev) (k : PageKind) (ch inst o n : Nat) (j : Nat) : (s.bump k ch inst o n).byte j = s.byte j := by simp [Dev.byte]
@[simp] theorem Dev.bump_get_chan (s : Dev) (k : PageKind) (ch inst o n : Nat) (j : Nat) : (s.bump k ch inst o n).chan j = s.chan j := by simp [Dev.chan]
@[simp] theorem Dev.bump_get_clus (s : Dev) (k : PageKind) (ch inst o n : Nat) (j : Nat) : (s.bump k ch inst o n).clus j = s.clus j := by simp [Dev.clus]
@[simp] theorem Dev.bump_get_core (s : Dev) (k : PageKind) (ch inst o n : Nat) (j : Nat) : (s.bump k ch inst o n).core j = s.core j := by simp [Dev.core]
@[simp] theorem Dev.bump_get_tile (s : Dev) (k : PageKind) (ch inst o n : Nat) (j : Nat) : (s.bump k ch inst o n).tile j = s.tile j := by simp [Dev.tile]
@[simp] theorem Dev.bump_get_ctx (s : Dev) (k : PageKind) (ch inst o n : Nat) (j : Nat) : (s.bump k ch inst o n).ctx j = s.ctx j := by simp [Dev.ctx]
@[simp] theorem Dev.bump_get_mgt (s : Dev) (k : PageKind) (ch inst o n : Nat) (j : Nat) : (s.bump k ch inst o n).mgt j = s.mgt j := by simp [Dev.mgt]
@[simp] theorem Dev.bump_get_seq (s : Dev) (k : PageKind) (ch inst o n : Nat) (j : Nat) : (s.bump k ch inst o n).seq j = s.seq j := by simp [Dev.seq]
@[simp] theorem Dev.bump_get_memOf (s : Dev) (k : PageKind) (ch inst o n : Nat) (j : Nat) : (s.bump k ch inst o n).memOf j = s.memOf j := by simp [Dev.memOf]
@[simp] theorem Dev.bump_get_dlvOf (s : Dev) (k : PageKind) (ch inst o n : Nat) (j : Nat) : (s.bump k ch inst o n).dlvOf j = s.dlvOf j := by simp [Dev.dlvOf]
@[simp] theorem Dev.bump_get_inForce (s : Dev) (k : PageKind) (ch inst o n : Nat) (k' : PageKind) (x i' o' hi' lo' : Nat) : (s.bump k ch inst o n).inForce k' x i' o' hi' lo' = s.inForce k' x i' o' hi' lo' := by simp [Dev.inForce]

/-! ### emit -/

@[simp] theorem Dev.emit_regs (s : Dev) (o : Out) : (s.emit o).regs = s.regs := by unfold Dev.emit; split <;> rfl
@[simp] theorem Dev.emit_eff (s : Dev) (o : Out) : (s.emit o).eff = s.eff := by unfold Dev.emit; split <;> rfl
@[simp] theorem Dev.emit_latch (s : Dev) (o : Out) : (s.emit o).latch = s.latch := by unfold Dev.emit; split <;> rfl
@[simp] theorem Dev.emit_mem (s : Dev) (o : Out) : (s.emit o).mem = s.mem := by unfold Dev.emit; split <;> rfl
@[simp] theorem Dev.emit_t0 (s : Dev) (o : Out) : (s.emit o).t0 = s.t0 := by unfold Dev.emit; split <;> rfl
@[simp] theorem Dev.emit_cbuf (s : Dev) (o : Out) : (s.emit o).cbuf = s.cbuf := by unfold Dev.emit; split <;> rfl
@[simp] theorem Dev.emit_chans (s : Dev) (o : Out) : (s.emit o).chans = s.chans := by unfold Dev.emit; split <;> rfl
@[simp] theorem Dev.emit_clusters (s : Dev) (o : Out) : (s.emit o).clusters = s.clusters := by unfold Dev.emit; split <;> rfl
@[simp] theorem Dev.emit_cores (s : Dev) (o : Out) : (s.emit o).cores = s.cores := by unfold Dev.emit; split <;> rfl
@[simp] theorem Dev.emit_tiles (s : Dev) (o : Out) : (s.emit o).tiles = s.tiles := by unfold Dev.emit; split <;> rfl
@[simp] theorem Dev.emit_ctxs (s : Dev) (o : Out) : (s.emit o).ctxs = s.ctxs := by unfold Dev.emit; split <;> rfl
@[simp] theorem Dev.emit_trees (s : Dev) (o : Out) : (s.emit o).trees = s.trees := by unfold Dev.emit; split <;> rfl
@[simp] theorem Dev.emit_staged (s : Dev) (o : Out) : (s.emit o).staged = s.staged := by unfold Dev.emit; split <;> rfl
@[simp] theorem Dev.emit_tamper (s : Dev) (o : Out) : (s.emit o).tamper = s.tamper := by unfold Dev.emit; split <;> rfl
@[simp] theorem Dev.emit_rqt (s : Dev) (o : Out) : (s.emit o).rqt = s.rqt := by unfold Dev.emit; split <;> rfl
@[simp] theorem Dev.emit_seqs (s : Dev) (o : Out) : (s.emit o).seqs = s.seqs := by unfold Dev.emit; split <;> rfl
@[simp] theorem Dev.emit_mems (s : Dev) (o : Out) : (s.emit o).mems = s.mems := by unfold Dev.emit; split <;> rfl
@[simp] theorem Dev.emit_mgts (s : Dev) (o : Out) : (s.emit o).mgts = s.mgts := by unfold Dev.emit; split <;> rfl
@[simp] theorem Dev.emit_fws (s : Dev) (o : Out) : (s.emit o).fws = s.fws := by unfold Dev.emit; split <;> rfl
@[simp] theorem Dev.emit_dlv (s : Dev) (o : Out) : (s.emit o).dlv = s.dlv := by unfold Dev.emit; split <;> rfl
@[simp] theorem Dev.emit_hubGroups (s : Dev) (o : Out) : (s.emit o).hubGroups = s.hubGroups := by unfold Dev.emit; split <;> rfl
@[simp] theorem Dev.emit_time (s : Dev) (o : Out) : (s.emit o).time = s.time := by unfold Dev.emit; split <;> rfl
@[simp] theorem Dev.emit_plank (s : Dev) (o : Out) : (s.emit o).plank = s.plank := by unfold Dev.emit; split <;> rfl
@[simp] theorem Dev.emit_ftime (s : Dev) (o : Out) : (s.emit o).ftime = s.ftime := by unfold Dev.emit; split <;> rfl
@[simp] theorem Dev.emit_mgtNs (s : Dev) (o : Out) : (s.emit o).mgtNs = s.mgtNs := by unfold Dev.emit; split <;> rfl
@[simp] theorem Dev.emit_opSecs (s : Dev) (o : Out) : (s.emit o).opSecs = s.opSecs := by unfold Dev.emit; split <;> rfl
@[simp] theorem Dev.emit_porCount (s : Dev) (o : Out) : (s.emit o).porCount = s.porCount := by unfold Dev.emit; split <;> rfl
@[simp] theorem Dev.emit_vinMeter (s : Dev) (o : Out) : (s.emit o).vinMeter = s.vinMeter := by unfold Dev.emit; split <;> rfl
@[simp] theorem Dev.emit_vinHist (s : Dev) (o : Out) : (s.emit o).vinHist = s.vinHist := by unfold Dev.emit; split <;> rfl
@[simp] theorem Dev.emit_vinLow (s : Dev) (o : Out) : (s.emit o).vinLow = s.vinLow := by unfold Dev.emit; split <;> rfl
@[simp] theorem Dev.emit_aux (s : Dev) (o : Out) : (s.emit o).aux = s.aux := by unfold Dev.emit; split <;> rfl
@[simp] theorem Dev.emit_vin (s : Dev) (o : Out) : (s.emit o).vin = s.vin := by unfold Dev.emit; split <;> rfl
@[simp] theorem Dev.emit_auxPg (s : Dev) (o : Out) : (s.emit o).auxPg = s.auxPg := by unfold Dev.emit; split <;> rfl
@[simp] theorem Dev.emit_thermtrip (s : Dev) (o : Out) : (s.emit o).thermtrip = s.thermtrip := by unfold Dev.emit; split <;> rfl
@[simp] theorem Dev.emit_selfOff (s : Dev) (o : Out) : (s.emit o).selfOff = s.selfOff := by unfold Dev.emit; split <;> rfl
@[simp] theorem Dev.emit_perstLow (s : Dev) (o : Out) : (s.emit o).perstLow = s.perstLow := by unfold Dev.emit; split <;> rfl
@[simp] theorem Dev.emit_perstReset (s : Dev) (o : Out) : (s.emit o).perstReset = s.perstReset := by unfold Dev.emit; split <;> rfl
@[simp] theorem Dev.emit_hubReady (s : Dev) (o : Out) : (s.emit o).hubReady = s.hubReady := by unfold Dev.emit; split <;> rfl
@[simp] theorem Dev.emit_numVfs (s : Dev) (o : Out) : (s.emit o).numVfs = s.numVfs := by unfold Dev.emit; split <;> rfl
@[simp] theorem Dev.emit_hubHalt (s : Dev) (o : Out) : (s.emit o).hubHalt = s.hubHalt := by unfold Dev.emit; split <;> rfl
@[simp] theorem Dev.emit_slotId (s : Dev) (o : Out) : (s.emit o).slotId = s.slotId := by unfold Dev.emit; split <;> rfl
@[simp] theorem Dev.emit_ticket (s : Dev) (o : Out) : (s.emit o).ticket = s.ticket := by unfold Dev.emit; split <;> rfl
@[simp] theorem Dev.emit_get_reg (s : Dev) (o : Out) (j : Nat) : (s.emit o).reg j = s.reg j := by simp [Dev.reg]
@[simp] theorem Dev.emit_get_byte (s : Dev) (o : Out) (j : Nat) : (s.emit o).byte j = s.byte j := by simp [Dev.byte]
@[simp] theorem Dev.emit_get_chan (s : Dev) (o : Out) (j : Nat) : (s.emit o).chan j = s.chan j := by simp [Dev.chan]
@[simp] theorem Dev.emit_get_clus (s : Dev) (o : Out) (j : Nat) : (s.emit o).clus j = s.clus j := by simp [Dev.clus]
@[simp] theorem Dev.emit_get_core (s : Dev) (o : Out) (j : Nat) : (s.emit o).core j = s.core j := by simp [Dev.core]
@[simp] theorem Dev.emit_get_tile (s : Dev) (o : Out) (j : Nat) : (s.emit o).tile j = s.tile j := by simp [Dev.tile]
@[simp] theorem Dev.emit_get_ctx (s : Dev) (o : Out) (j : Nat) : (s.emit o).ctx j = s.ctx j := by simp [Dev.ctx]
@[simp] theorem Dev.emit_get_mgt (s : Dev) (o : Out) (j : Nat) : (s.emit o).mgt j = s.mgt j := by simp [Dev.mgt]
@[simp] theorem Dev.emit_get_seq (s : Dev) (o : Out) (j : Nat) : (s.emit o).seq j = s.seq j := by simp [Dev.seq]
@[simp] theorem Dev.emit_get_memOf (s : Dev) (o : Out) (j : Nat) : (s.emit o).memOf j = s.memOf j := by simp [Dev.memOf]
@[simp] theorem Dev.emit_get_dlvOf (s : Dev) (o : Out) (j : Nat) : (s.emit o).dlvOf j = s.dlvOf j := by simp [Dev.dlvOf]
@[simp] theorem Dev.emit_get_rd (s : Dev) (o : Out) (k' : PageKind) (x i' o' : Nat) : (s.emit o).rd k' x i' o' = s.rd k' x i' o' := by simp [Dev.rd]
@[simp] theorem Dev.emit_get_rdF (s : Dev) (o : Out) (k' : PageKind) (x i' o' hi' lo' : Nat) : (s.emit o).rdF k' x i' o' hi' lo' = s.rdF k' x i' o' hi' lo' := by simp [Dev.rdF]
@[simp] theorem Dev.emit_get_inForce (s : Dev) (o : Out) (k' : PageKind) (x i' o' hi' lo' : Nat) : (s.emit o).inForce k' x i' o' hi' lo' = s.inForce k' x i' o' hi' lo' := by simp [Dev.inForce]

/-! ### emits -/

@[simp] theorem Dev.emits_regs (s : Dev) (os : List Out) : (s.emits os).regs = s.regs := rfl
@[simp] theorem Dev.emits_eff (s : Dev) (os : List Out) : (s.emits os).eff = s.eff := rfl
@[simp] theorem Dev.emits_latch (s : Dev) (os : List Out) : (s.emits os).latch = s.latch := rfl
@[simp] theorem Dev.emits_mem (s : Dev) (os : List Out) : (s.emits os).mem = s.mem := rfl
@[simp] theorem Dev.emits_t0 (s : Dev) (os : List Out) : (s.emits os).t0 = s.t0 := rfl
@[simp] theorem Dev.emits_cbuf (s : Dev) (os : List Out) : (s.emits os).cbuf = s.cbuf := rfl
@[simp] theorem Dev.emits_chans (s : Dev) (os : List Out) : (s.emits os).chans = s.chans := rfl
@[simp] theorem Dev.emits_clusters (s : Dev) (os : List Out) : (s.emits os).clusters = s.clusters := rfl
@[simp] theorem Dev.emits_cores (s : Dev) (os : List Out) : (s.emits os).cores = s.cores := rfl
@[simp] theorem Dev.emits_tiles (s : Dev) (os : List Out) : (s.emits os).tiles = s.tiles := rfl
@[simp] theorem Dev.emits_ctxs (s : Dev) (os : List Out) : (s.emits os).ctxs = s.ctxs := rfl
@[simp] theorem Dev.emits_trees (s : Dev) (os : List Out) : (s.emits os).trees = s.trees := rfl
@[simp] theorem Dev.emits_staged (s : Dev) (os : List Out) : (s.emits os).staged = s.staged := rfl
@[simp] theorem Dev.emits_tamper (s : Dev) (os : List Out) : (s.emits os).tamper = s.tamper := rfl
@[simp] theorem Dev.emits_rqt (s : Dev) (os : List Out) : (s.emits os).rqt = s.rqt := rfl
@[simp] theorem Dev.emits_seqs (s : Dev) (os : List Out) : (s.emits os).seqs = s.seqs := rfl
@[simp] theorem Dev.emits_mems (s : Dev) (os : List Out) : (s.emits os).mems = s.mems := rfl
@[simp] theorem Dev.emits_mgts (s : Dev) (os : List Out) : (s.emits os).mgts = s.mgts := rfl
@[simp] theorem Dev.emits_fws (s : Dev) (os : List Out) : (s.emits os).fws = s.fws := rfl
@[simp] theorem Dev.emits_dlv (s : Dev) (os : List Out) : (s.emits os).dlv = s.dlv := rfl
@[simp] theorem Dev.emits_hubGroups (s : Dev) (os : List Out) : (s.emits os).hubGroups = s.hubGroups := rfl
@[simp] theorem Dev.emits_time (s : Dev) (os : List Out) : (s.emits os).time = s.time := rfl
@[simp] theorem Dev.emits_plank (s : Dev) (os : List Out) : (s.emits os).plank = s.plank := rfl
@[simp] theorem Dev.emits_ftime (s : Dev) (os : List Out) : (s.emits os).ftime = s.ftime := rfl
@[simp] theorem Dev.emits_mgtNs (s : Dev) (os : List Out) : (s.emits os).mgtNs = s.mgtNs := rfl
@[simp] theorem Dev.emits_opSecs (s : Dev) (os : List Out) : (s.emits os).opSecs = s.opSecs := rfl
@[simp] theorem Dev.emits_porCount (s : Dev) (os : List Out) : (s.emits os).porCount = s.porCount := rfl
@[simp] theorem Dev.emits_vinMeter (s : Dev) (os : List Out) : (s.emits os).vinMeter = s.vinMeter := rfl
@[simp] theorem Dev.emits_vinHist (s : Dev) (os : List Out) : (s.emits os).vinHist = s.vinHist := rfl
@[simp] theorem Dev.emits_vinLow (s : Dev) (os : List Out) : (s.emits os).vinLow = s.vinLow := rfl
@[simp] theorem Dev.emits_aux (s : Dev) (os : List Out) : (s.emits os).aux = s.aux := rfl
@[simp] theorem Dev.emits_vin (s : Dev) (os : List Out) : (s.emits os).vin = s.vin := rfl
@[simp] theorem Dev.emits_auxPg (s : Dev) (os : List Out) : (s.emits os).auxPg = s.auxPg := rfl
@[simp] theorem Dev.emits_thermtrip (s : Dev) (os : List Out) : (s.emits os).thermtrip = s.thermtrip := rfl
@[simp] theorem Dev.emits_selfOff (s : Dev) (os : List Out) : (s.emits os).selfOff = s.selfOff := rfl
@[simp] theorem Dev.emits_perstLow (s : Dev) (os : List Out) : (s.emits os).perstLow = s.perstLow := rfl
@[simp] theorem Dev.emits_perstReset (s : Dev) (os : List Out) : (s.emits os).perstReset = s.perstReset := rfl
@[simp] theorem Dev.emits_hubReady (s : Dev) (os : List Out) : (s.emits os).hubReady = s.hubReady := rfl
@[simp] theorem Dev.emits_numVfs (s : Dev) (os : List Out) : (s.emits os).numVfs = s.numVfs := rfl
@[simp] theorem Dev.emits_hubHalt (s : Dev) (os : List Out) : (s.emits os).hubHalt = s.hubHalt := rfl
@[simp] theorem Dev.emits_slotId (s : Dev) (os : List Out) : (s.emits os).slotId = s.slotId := rfl
@[simp] theorem Dev.emits_ticket (s : Dev) (os : List Out) : (s.emits os).ticket = s.ticket := rfl
@[simp] theorem Dev.emits_get_reg (s : Dev) (os : List Out) (j : Nat) : (s.emits os).reg j = s.reg j := rfl
@[simp] theorem Dev.emits_get_byte (s : Dev) (os : List Out) (j : Nat) : (s.emits os).byte j = s.byte j := rfl
@[simp] theorem Dev.emits_get_chan (s : Dev) (os : List Out) (j : Nat) : (s.emits os).chan j = s.chan j := rfl
@[simp] theorem Dev.emits_get_clus (s : Dev) (os : List Out) (j : Nat) : (s.emits os).clus j = s.clus j := rfl
@[simp] theorem Dev.emits_get_core (s : Dev) (os : List Out) (j : Nat) : (s.emits os).core j = s.core j := rfl
@[simp] theorem Dev.emits_get_tile (s : Dev) (os : List Out) (j : Nat) : (s.emits os).tile j = s.tile j := rfl
@[simp] theorem Dev.emits_get_ctx (s : Dev) (os : List Out) (j : Nat) : (s.emits os).ctx j = s.ctx j := rfl
@[simp] theorem Dev.emits_get_mgt (s : Dev) (os : List Out) (j : Nat) : (s.emits os).mgt j = s.mgt j := rfl
@[simp] theorem Dev.emits_get_seq (s : Dev) (os : List Out) (j : Nat) : (s.emits os).seq j = s.seq j := rfl
@[simp] theorem Dev.emits_get_memOf (s : Dev) (os : List Out) (j : Nat) : (s.emits os).memOf j = s.memOf j := rfl
@[simp] theorem Dev.emits_get_dlvOf (s : Dev) (os : List Out) (j : Nat) : (s.emits os).dlvOf j = s.dlvOf j := rfl
@[simp] theorem Dev.emits_get_rd (s : Dev) (os : List Out) (k' : PageKind) (x i' o' : Nat) : (s.emits os).rd k' x i' o' = s.rd k' x i' o' := rfl
@[simp] theorem Dev.emits_get_rdF (s : Dev) (os : List Out) (k' : PageKind) (x i' o' hi' lo' : Nat) : (s.emits os).rdF k' x i' o' hi' lo' = s.rdF k' x i' o' hi' lo' := rfl
@[simp] theorem Dev.emits_get_inForce (s : Dev) (os : List Out) (k' : PageKind) (x i' o' hi' lo' : Nat) : (s.emits os).inForce k' x i' o' hi' lo' = s.inForce k' x i' o' hi' lo' := rfl

/-! ### setByte -/

@[simp] theorem Dev.setByte_out (s : Dev) (a : Nat) (b : Byte) : (s.setByte a b).out = s.out := rfl
@[simp] theorem Dev.setByte_regs (s : Dev) (a : Nat) (b : Byte) : (s.setByte a b).regs = s.regs := rfl
@[simp] theorem Dev.setByte_eff (s : Dev) (a : Nat) (b : Byte) : (s.setByte a b).eff = s.eff := rfl
@[simp] theorem Dev.setByte_latch (s : Dev) (a : Nat) (b : Byte) : (s.setByte a b).latch = s.latch := rfl
@[simp] theorem Dev.setByte_t0 (s : Dev) (a : Nat) (b : Byte) : (s.setByte a b).t0 = s.t0 := rfl
@[simp] theorem Dev.setByte_cbuf (s : Dev) (a : Nat) (b : Byte) : (s.setByte a b).cbuf = s.cbuf := rfl
@[simp] theorem Dev.setByte_chans (s : Dev) (a : Nat) (b : Byte) : (s.setByte a b).chans = s.chans := rfl
@[simp] theorem Dev.setByte_clusters (s : Dev) (a : Nat) (b : Byte) : (s.setByte a b).clusters = s.clusters := rfl
@[simp] theorem Dev.setByte_cores (s : Dev) (a : Nat) (b : Byte) : (s.setByte a b).cores = s.cores := rfl
@[simp] theorem Dev.setByte_tiles (s : Dev) (a : Nat) (b : Byte) : (s.setByte a b).tiles = s.tiles := rfl
@[simp] theorem Dev.setByte_ctxs (s : Dev) (a : Nat) (b : Byte) : (s.setByte a b).ctxs = s.ctxs := rfl
@[simp] theorem Dev.setByte_trees (s : Dev) (a : Nat) (b : Byte) : (s.setByte a b).trees = s.trees := rfl
@[simp] theorem Dev.setByte_staged (s : Dev) (a : Nat) (b : Byte) : (s.setByte a b).staged = s.staged := rfl
@[simp] theorem Dev.setByte_tamper (s : Dev) (a : Nat) (b : Byte) : (s.setByte a b).tamper = s.tamper := rfl
@[simp] theorem Dev.setByte_rqt (s : Dev) (a : Nat) (b : Byte) : (s.setByte a b).rqt = s.rqt := rfl
@[simp] theorem Dev.setByte_seqs (s : Dev) (a : Nat) (b : Byte) : (s.setByte a b).seqs = s.seqs := rfl
@[simp] theorem Dev.setByte_mems (s : Dev) (a : Nat) (b : Byte) : (s.setByte a b).mems = s.mems := rfl
@[simp] theorem Dev.setByte_mgts (s : Dev) (a : Nat) (b : Byte) : (s.setByte a b).mgts = s.mgts := rfl
@[simp] theorem Dev.setByte_fws (s : Dev) (a : Nat) (b : Byte) : (s.setByte a b).fws = s.fws := rfl
@[simp] theorem Dev.setByte_dlv (s : Dev) (a : Nat) (b : Byte) : (s.setByte a b).dlv = s.dlv := rfl
@[simp] theorem Dev.setByte_hubGroups (s : Dev) (a : Nat) (b : Byte) : (s.setByte a b).hubGroups = s.hubGroups := rfl
@[simp] theorem Dev.setByte_time (s : Dev) (a : Nat) (b : Byte) : (s.setByte a b).time = s.time := rfl
@[simp] theorem Dev.setByte_plank (s : Dev) (a : Nat) (b : Byte) : (s.setByte a b).plank = s.plank := rfl
@[simp] theorem Dev.setByte_ftime (s : Dev) (a : Nat) (b : Byte) : (s.setByte a b).ftime = s.ftime := rfl
@[simp] theorem Dev.setByte_mgtNs (s : Dev) (a : Nat) (b : Byte) : (s.setByte a b).mgtNs = s.mgtNs := rfl
@[simp] theorem Dev.setByte_opSecs (s : Dev) (a : Nat) (b : Byte) : (s.setByte a b).opSecs = s.opSecs := rfl
@[simp] theorem Dev.setByte_porCount (s : Dev) (a : Nat) (b : Byte) : (s.setByte a b).porCount = s.porCount := rfl
@[simp] theorem Dev.setByte_vinMeter (s : Dev) (a : Nat) (b : Byte) : (s.setByte a b).vinMeter = s.vinMeter := rfl
@[simp] theorem Dev.setByte_vinHist (s : Dev) (a : Nat) (b : Byte) : (s.setByte a b).vinHist = s.vinHist := rfl
@[simp] theorem Dev.setByte_vinLow (s : Dev) (a : Nat) (b : Byte) : (s.setByte a b).vinLow = s.vinLow := rfl
@[simp] theorem Dev.setByte_aux (s : Dev) (a : Nat) (b : Byte) : (s.setByte a b).aux = s.aux := rfl
@[simp] theorem Dev.setByte_vin (s : Dev) (a : Nat) (b : Byte) : (s.setByte a b).vin = s.vin := rfl
@[simp] theorem Dev.setByte_auxPg (s : Dev) (a : Nat) (b : Byte) : (s.setByte a b).auxPg = s.auxPg := rfl
@[simp] theorem Dev.setByte_thermtrip (s : Dev) (a : Nat) (b : Byte) : (s.setByte a b).thermtrip = s.thermtrip := rfl
@[simp] theorem Dev.setByte_selfOff (s : Dev) (a : Nat) (b : Byte) : (s.setByte a b).selfOff = s.selfOff := rfl
@[simp] theorem Dev.setByte_perstLow (s : Dev) (a : Nat) (b : Byte) : (s.setByte a b).perstLow = s.perstLow := rfl
@[simp] theorem Dev.setByte_perstReset (s : Dev) (a : Nat) (b : Byte) : (s.setByte a b).perstReset = s.perstReset := rfl
@[simp] theorem Dev.setByte_hubReady (s : Dev) (a : Nat) (b : Byte) : (s.setByte a b).hubReady = s.hubReady := rfl
@[simp] theorem Dev.setByte_numVfs (s : Dev) (a : Nat) (b : Byte) : (s.setByte a b).numVfs = s.numVfs := rfl
@[simp] theorem Dev.setByte_hubHalt (s : Dev) (a : Nat) (b : Byte) : (s.setByte a b).hubHalt = s.hubHalt := rfl
@[simp] theorem Dev.setByte_slotId (s : Dev) (a : Nat) (b : Byte) : (s.setByte a b).slotId = s.slotId := rfl
@[simp] theorem Dev.setByte_ticket (s : Dev) (a : Nat) (b : Byte) : (s.setByte a b).ticket = s.ticket := rfl
@[simp] theorem Dev.setByte_get_reg (s : Dev) (a : Nat) (b : Byte) (j : Nat) : (s.setByte a b).reg j = s.reg j := rfl
@[simp] theorem Dev.setByte_get_chan (s : Dev) (a : Nat) (b : Byte) (j : Nat) : (s.setByte a b).chan j = s.chan j := rfl
@[simp] theorem Dev.setByte_get_clus (s : Dev) (a : Nat) (b : Byte) (j : Nat) : (s.setByte a b).clus j = s.clus j := rfl
@[simp] theorem Dev.setByte_get_core (s : Dev) (a : Nat) (b : Byte) (j : Nat) : (s.setByte a b).core j = s.core j := rfl
@[simp] theorem Dev.setByte_get_tile (s : Dev) (a : Nat) (b : Byte) (j : Nat) : (s.setByte a b).tile j = s.tile j := rfl
@[simp] theorem Dev.setByte_get_ctx (s : Dev) (a : Nat) (b : Byte) (j : Nat) : (s.setByte a b).ctx j = s.ctx j := rfl
@[simp] theorem Dev.setByte_get_mgt (s : Dev) (a : Nat) (b : Byte) (j : Nat) : (s.setByte a b).mgt j = s.mgt j := rfl
@[simp] theorem Dev.setByte_get_seq (s : Dev) (a : Nat) (b : Byte) (j : Nat) : (s.setByte a b).seq j = s.seq j := rfl
@[simp] theorem Dev.setByte_get_memOf (s : Dev) (a : Nat) (b : Byte) (j : Nat) : (s.setByte a b).memOf j = s.memOf j := rfl
@[simp] theorem Dev.setByte_get_dlvOf (s : Dev) (a : Nat) (b : Byte) (j : Nat) : (s.setByte a b).dlvOf j = s.dlvOf j := rfl
@[simp] theorem Dev.setByte_get_rd (s : Dev) (a : Nat) (b : Byte) (k' : PageKind) (x i' o' : Nat) : (s.setByte a b).rd k' x i' o' = s.rd k' x i' o' := rfl
@[simp] theorem Dev.setByte_get_rdF (s : Dev) (a : Nat) (b : Byte) (k' : PageKind) (x i' o' hi' lo' : Nat) : (s.setByte a b).rdF k' x i' o' hi' lo' = s.rdF k' x i' o' hi' lo' := rfl
@[simp] theorem Dev.setByte_get_inForce (s : Dev) (a : Nat) (b : Byte) (k' : PageKind) (x i' o' hi' lo' : Nat) : (s.setByte a b).inForce k' x i' o' hi' lo' = s.inForce k' x i' o' hi' lo' := rfl

/-! ### zero -/

@[simp] theorem Dev.zero_out (s : Dev) (a n : Nat) : (s.zero a n).out = s.out := rfl
@[simp] theorem Dev.zero_regs (s : Dev) (a n : Nat) : (s.zero a n).regs = s.regs := rfl
@[simp] theorem Dev.zero_eff (s : Dev) (a n : Nat) : (s.zero a n).eff = s.eff := rfl
@[simp] theorem Dev.zero_latch (s : Dev) (a n : Nat) : (s.zero a n).latch = s.latch := rfl
@[simp] theorem Dev.zero_t0 (s : Dev) (a n : Nat) : (s.zero a n).t0 = s.t0 := rfl
@[simp] theorem Dev.zero_cbuf (s : Dev) (a n : Nat) : (s.zero a n).cbuf = s.cbuf := rfl
@[simp] theorem Dev.zero_chans (s : Dev) (a n : Nat) : (s.zero a n).chans = s.chans := rfl
@[simp] theorem Dev.zero_clusters (s : Dev) (a n : Nat) : (s.zero a n).clusters = s.clusters := rfl
@[simp] theorem Dev.zero_cores (s : Dev) (a n : Nat) : (s.zero a n).cores = s.cores := rfl
@[simp] theorem Dev.zero_tiles (s : Dev) (a n : Nat) : (s.zero a n).tiles = s.tiles := rfl
@[simp] theorem Dev.zero_ctxs (s : Dev) (a n : Nat) : (s.zero a n).ctxs = s.ctxs := rfl
@[simp] theorem Dev.zero_trees (s : Dev) (a n : Nat) : (s.zero a n).trees = s.trees := rfl
@[simp] theorem Dev.zero_staged (s : Dev) (a n : Nat) : (s.zero a n).staged = s.staged := rfl
@[simp] theorem Dev.zero_tamper (s : Dev) (a n : Nat) : (s.zero a n).tamper = s.tamper := rfl
@[simp] theorem Dev.zero_rqt (s : Dev) (a n : Nat) : (s.zero a n).rqt = s.rqt := rfl
@[simp] theorem Dev.zero_seqs (s : Dev) (a n : Nat) : (s.zero a n).seqs = s.seqs := rfl
@[simp] theorem Dev.zero_mems (s : Dev) (a n : Nat) : (s.zero a n).mems = s.mems := rfl
@[simp] theorem Dev.zero_mgts (s : Dev) (a n : Nat) : (s.zero a n).mgts = s.mgts := rfl
@[simp] theorem Dev.zero_fws (s : Dev) (a n : Nat) : (s.zero a n).fws = s.fws := rfl
@[simp] theorem Dev.zero_dlv (s : Dev) (a n : Nat) : (s.zero a n).dlv = s.dlv := rfl
@[simp] theorem Dev.zero_hubGroups (s : Dev) (a n : Nat) : (s.zero a n).hubGroups = s.hubGroups := rfl
@[simp] theorem Dev.zero_time (s : Dev) (a n : Nat) : (s.zero a n).time = s.time := rfl
@[simp] theorem Dev.zero_plank (s : Dev) (a n : Nat) : (s.zero a n).plank = s.plank := rfl
@[simp] theorem Dev.zero_ftime (s : Dev) (a n : Nat) : (s.zero a n).ftime = s.ftime := rfl
@[simp] theorem Dev.zero_mgtNs (s : Dev) (a n : Nat) : (s.zero a n).mgtNs = s.mgtNs := rfl
@[simp] theorem Dev.zero_opSecs (s : Dev) (a n : Nat) : (s.zero a n).opSecs = s.opSecs := rfl
@[simp] theorem Dev.zero_porCount (s : Dev) (a n : Nat) : (s.zero a n).porCount = s.porCount := rfl
@[simp] theorem Dev.zero_vinMeter (s : Dev) (a n : Nat) : (s.zero a n).vinMeter = s.vinMeter := rfl
@[simp] theorem Dev.zero_vinHist (s : Dev) (a n : Nat) : (s.zero a n).vinHist = s.vinHist := rfl
@[simp] theorem Dev.zero_vinLow (s : Dev) (a n : Nat) : (s.zero a n).vinLow = s.vinLow := rfl
@[simp] theorem Dev.zero_aux (s : Dev) (a n : Nat) : (s.zero a n).aux = s.aux := rfl
@[simp] theorem Dev.zero_vin (s : Dev) (a n : Nat) : (s.zero a n).vin = s.vin := rfl
@[simp] theorem Dev.zero_auxPg (s : Dev) (a n : Nat) : (s.zero a n).auxPg = s.auxPg := rfl
@[simp] theorem Dev.zero_thermtrip (s : Dev) (a n : Nat) : (s.zero a n).thermtrip = s.thermtrip := rfl
@[simp] theorem Dev.zero_selfOff (s : Dev) (a n : Nat) : (s.zero a n).selfOff = s.selfOff := rfl
@[simp] theorem Dev.zero_perstLow (s : Dev) (a n : Nat) : (s.zero a n).perstLow = s.perstLow := rfl
@[simp] theorem Dev.zero_perstReset (s : Dev) (a n : Nat) : (s.zero a n).perstReset = s.perstReset := rfl
@[simp] theorem Dev.zero_hubReady (s : Dev) (a n : Nat) : (s.zero a n).hubReady = s.hubReady := rfl
@[simp] theorem Dev.zero_numVfs (s : Dev) (a n : Nat) : (s.zero a n).numVfs = s.numVfs := rfl
@[simp] theorem Dev.zero_hubHalt (s : Dev) (a n : Nat) : (s.zero a n).hubHalt = s.hubHalt := rfl
@[simp] theorem Dev.zero_slotId (s : Dev) (a n : Nat) : (s.zero a n).slotId = s.slotId := rfl
@[simp] theorem Dev.zero_ticket (s : Dev) (a n : Nat) : (s.zero a n).ticket = s.ticket := rfl
@[simp] theorem Dev.zero_get_reg (s : Dev) (a n : Nat) (j : Nat) : (s.zero a n).reg j = s.reg j := rfl
@[simp] theorem Dev.zero_get_chan (s : Dev) (a n : Nat) (j : Nat) : (s.zero a n).chan j = s.chan j := rfl
@[simp] theorem Dev.zero_get_clus (s : Dev) (a n : Nat) (j : Nat) : (s.zero a n).clus j = s.clus j := rfl
@[simp] theorem Dev.zero_get_core (s : Dev) (a n : Nat) (j : Nat) : (s.zero a n).core j = s.core j := rfl
@[simp] theorem Dev.zero_get_tile (s : Dev) (a n : Nat) (j : Nat) : (s.zero a n).tile j = s.tile j := rfl
@[simp] theorem Dev.zero_get_ctx (s : Dev) (a n : Nat) (j : Nat) : (s.zero a n).ctx j = s.ctx j := rfl
@[simp] theorem Dev.zero_get_mgt (s : Dev) (a n : Nat) (j : Nat) : (s.zero a n).mgt j = s.mgt j := rfl
@[simp] theorem Dev.zero_get_seq (s : Dev) (a n : Nat) (j : Nat) : (s.zero a n).seq j = s.seq j := rfl
@[simp] theorem Dev.zero_get_memOf (s : Dev) (a n : Nat) (j : Nat) : (s.zero a n).memOf j = s.memOf j := rfl
@[simp] theorem Dev.zero_get_dlvOf (s : Dev) (a n : Nat) (j : Nat) : (s.zero a n).dlvOf j = s.dlvOf j := rfl
@[simp] theorem Dev.zero_get_rd (s : Dev) (a n : Nat) (k' : PageKind) (x i' o' : Nat) : (s.zero a n).rd k' x i' o' = s.rd k' x i' o' := rfl
@[simp] theorem Dev.zero_get_rdF (s : Dev) (a n : Nat) (k' : PageKind) (x i' o' hi' lo' : Nat) : (s.zero a n).rdF k' x i' o' hi' lo' = s.rdF k' x i' o' hi' lo' := rfl
@[simp] theorem Dev.zero_get_inForce (s : Dev) (a n : Nat) (k' : PageKind) (x i' o' hi' lo' : Nat) : (s.zero a n).inForce k' x i' o' hi' lo' = s.inForce k' x i' o' hi' lo' := rfl

/-! ### draw -/

@[simp] theorem Dev.draw_out (s : Dev) (n : Nat) : (s.draw n).1.out = s.out := rfl
@[simp] theorem Dev.draw_regs (s : Dev) (n : Nat) : (s.draw n).1.regs = s.regs := rfl
@[simp] theorem Dev.draw_eff (s : Dev) (n : Nat) : (s.draw n).1.eff = s.eff := rfl
@[simp] theorem Dev.draw_latch (s : Dev) (n : Nat) : (s.draw n).1.latch = s.latch := rfl
@[simp] theorem Dev.draw_mem (s : Dev) (n : Nat) : (s.draw n).1.mem = s.mem := rfl
@[simp] theorem Dev.draw_t0 (s : Dev) (n : Nat) : (s.draw n).1.t0 = s.t0 := rfl
@[simp] theorem Dev.draw_cbuf (s : Dev) (n : Nat) : (s.draw n).1.cbuf = s.cbuf := rfl
@[simp] theorem Dev.draw_chans (s : Dev) (n : Nat) : (s.draw n).1.chans = s.chans := rfl
@[simp] theorem Dev.draw_clusters (s : Dev) (n : Nat) : (s.draw n).1.clusters = s.clusters := rfl
@[simp] theorem Dev.draw_cores (s : Dev) (n : Nat) : (s.draw n).1.cores = s.cores := rfl
@[simp] theorem Dev.draw_tiles (s : Dev) (n : Nat) : (s.draw n).1.tiles = s.tiles := rfl
@[simp] theorem Dev.draw_ctxs (s : Dev) (n : Nat) : (s.draw n).1.ctxs = s.ctxs := rfl
@[simp] theorem Dev.draw_trees (s : Dev) (n : Nat) : (s.draw n).1.trees = s.trees := rfl
@[simp] theorem Dev.draw_staged (s : Dev) (n : Nat) : (s.draw n).1.staged = s.staged := rfl
@[simp] theorem Dev.draw_tamper (s : Dev) (n : Nat) : (s.draw n).1.tamper = s.tamper := rfl
@[simp] theorem Dev.draw_rqt (s : Dev) (n : Nat) : (s.draw n).1.rqt = s.rqt := rfl
@[simp] theorem Dev.draw_seqs (s : Dev) (n : Nat) : (s.draw n).1.seqs = s.seqs := rfl
@[simp] theorem Dev.draw_mems (s : Dev) (n : Nat) : (s.draw n).1.mems = s.mems := rfl
@[simp] theorem Dev.draw_mgts (s : Dev) (n : Nat) : (s.draw n).1.mgts = s.mgts := rfl
@[simp] theorem Dev.draw_fws (s : Dev) (n : Nat) : (s.draw n).1.fws = s.fws := rfl
@[simp] theorem Dev.draw_dlv (s : Dev) (n : Nat) : (s.draw n).1.dlv = s.dlv := rfl
@[simp] theorem Dev.draw_hubGroups (s : Dev) (n : Nat) : (s.draw n).1.hubGroups = s.hubGroups := rfl
@[simp] theorem Dev.draw_time (s : Dev) (n : Nat) : (s.draw n).1.time = s.time := rfl
@[simp] theorem Dev.draw_plank (s : Dev) (n : Nat) : (s.draw n).1.plank = s.plank := rfl
@[simp] theorem Dev.draw_ftime (s : Dev) (n : Nat) : (s.draw n).1.ftime = s.ftime := rfl
@[simp] theorem Dev.draw_mgtNs (s : Dev) (n : Nat) : (s.draw n).1.mgtNs = s.mgtNs := rfl
@[simp] theorem Dev.draw_opSecs (s : Dev) (n : Nat) : (s.draw n).1.opSecs = s.opSecs := rfl
@[simp] theorem Dev.draw_porCount (s : Dev) (n : Nat) : (s.draw n).1.porCount = s.porCount := rfl
@[simp] theorem Dev.draw_vinMeter (s : Dev) (n : Nat) : (s.draw n).1.vinMeter = s.vinMeter := rfl
@[simp] theorem Dev.draw_vinHist (s : Dev) (n : Nat) : (s.draw n).1.vinHist = s.vinHist := rfl
@[simp] theorem Dev.draw_vinLow (s : Dev) (n : Nat) : (s.draw n).1.vinLow = s.vinLow := rfl
@[simp] theorem Dev.draw_aux (s : Dev) (n : Nat) : (s.draw n).1.aux = s.aux := rfl
@[simp] theorem Dev.draw_vin (s : Dev) (n : Nat) : (s.draw n).1.vin = s.vin := rfl
@[simp] theorem Dev.draw_auxPg (s : Dev) (n : Nat) : (s.draw n).1.auxPg = s.auxPg := rfl
@[simp] theorem Dev.draw_thermtrip (s : Dev) (n : Nat) : (s.draw n).1.thermtrip = s.thermtrip := rfl
@[simp] theorem Dev.draw_selfOff (s : Dev) (n : Nat) : (s.draw n).1.selfOff = s.selfOff := rfl
@[simp] theorem Dev.draw_perstLow (s : Dev) (n : Nat) : (s.draw n).1.perstLow = s.perstLow := rfl
@[simp] theorem Dev.draw_perstReset (s : Dev) (n : Nat) : (s.draw n).1.perstReset = s.perstReset := rfl
@[simp] theorem Dev.draw_hubReady (s : Dev) (n : Nat) : (s.draw n).1.hubReady = s.hubReady := rfl
@[simp] theorem Dev.draw_numVfs (s : Dev) (n : Nat) : (s.draw n).1.numVfs = s.numVfs := rfl
@[simp] theorem Dev.draw_hubHalt (s : Dev) (n : Nat) : (s.draw n).1.hubHalt = s.hubHalt := rfl
@[simp] theorem Dev.draw_slotId (s : Dev) (n : Nat) : (s.draw n).1.slotId = s.slotId := rfl
@[simp] theorem Dev.draw_get_reg (s : Dev) (n : Nat) (j : Nat) : (s.draw n).1.reg j = s.reg j := rfl
@[simp] theorem Dev.draw_get_byte (s : Dev) (n : Nat) (j : Nat) : (s.draw n).1.byte j = s.byte j := rfl
@[simp] theorem Dev.draw_get_chan (s : Dev) (n : Nat) (j : Nat) : (s.draw n).1.chan j = s.chan j := rfl
@[simp] theorem Dev.draw_get_clus (s : Dev) (n : Nat) (j : Nat) : (s.draw n).1.clus j = s.clus j := rfl
@[simp] theorem Dev.draw_get_core (s : Dev) (n : Nat) (j : Nat) : (s.draw n).1.core j = s.core j := rfl
@[simp] theorem Dev.draw_get_tile (s : Dev) (n : Nat) (j : Nat) : (s.draw n).1.tile j = s.tile j := rfl
@[simp] theorem Dev.draw_get_ctx (s : Dev) (n : Nat) (j : Nat) : (s.draw n).1.ctx j = s.ctx j := rfl
@[simp] theorem Dev.draw_get_mgt (s : Dev) (n : Nat) (j : Nat) : (s.draw n).1.mgt j = s.mgt j := rfl
@[simp] theorem Dev.draw_get_seq (s : Dev) (n : Nat) (j : Nat) : (s.draw n).1.seq j = s.seq j := rfl
@[simp] theorem Dev.draw_get_memOf (s : Dev) (n : Nat) (j : Nat) : (s.draw n).1.memOf j = s.memOf j := rfl
@[simp] theorem Dev.draw_get_dlvOf (s : Dev) (n : Nat) (j : Nat) : (s.draw n).1.dlvOf j = s.dlvOf j := rfl
@[simp] theorem Dev.draw_get_rd (s : Dev) (n : Nat) (k' : PageKind) (x i' o' : Nat) : (s.draw n).1.rd k' x i' o' = s.rd k' x i' o' := rfl
@[simp] theorem Dev.draw_get_rdF (s : Dev) (n : Nat) (k' : PageKind) (x i' o' hi' lo' : Nat) : (s.draw n).1.rdF k' x i' o' hi' lo' = s.rdF k' x i' o' hi' lo' := rfl
@[simp] theorem Dev.draw_get_inForce (s : Dev) (n : Nat) (k' : PageKind) (x i' o' hi' lo' : Nat) : (s.draw n).1.inForce k' x i' o' hi' lo' = s.inForce k' x i' o' hi' lo' := rfl

/-! ### modChan -/

@[simp] theorem Dev.modChan_out (s : Dev) (ch : Nat) (f : Chan → Chan) : (s.modChan ch f).out = s.out := rfl
@[simp] theorem Dev.modChan_regs (s : Dev) (ch : Nat) (f : Chan → Chan) : (s.modChan ch f).regs = s.regs := rfl
@[simp] theorem Dev.modChan_eff (s : Dev) (ch : Nat) (f : Chan → Chan) : (s.modChan ch f).eff = s.eff := rfl
@[simp] theorem Dev.modChan_latch (s : Dev) (ch : Nat) (f : Chan → Chan) : (s.modChan ch f).latch = s.latch := rfl
@[simp] theorem Dev.modChan_mem (s : Dev) (ch : Nat) (f : Chan → Chan) : (s.modChan ch f).mem = s.mem := rfl
@[simp] theorem Dev.modChan_t0 (s : Dev) (ch : Nat) (f : Chan → Chan) : (s.modChan ch f).t0 = s.t0 := rfl
@[simp] theorem Dev.modChan_cbuf (s : Dev) (ch : Nat) (f : Chan → Chan) : (s.modChan ch f).cbuf = s.cbuf := rfl
@[simp] theorem Dev.modChan_clusters (s : Dev) (ch : Nat) (f : Chan → Chan) : (s.modChan ch f).clusters = s.clusters := rfl
@[simp] theorem Dev.modChan_cores (s : Dev) (ch : Nat) (f : Chan → Chan) : (s.modChan ch f).cores = s.cores := rfl
@[simp] theorem Dev.modChan_tiles (s : Dev) (ch : Nat) (f : Chan → Chan) : (s.modChan ch f).tiles = s.tiles := rfl
@[simp] theorem Dev.modChan_ctxs (s : Dev) (ch : Nat) (f : Chan → Chan) : (s.modChan ch f).ctxs = s.ctxs := rfl
@[simp] theorem Dev.modChan_trees (s : Dev) (ch : Nat) (f : Chan → Chan) : (s.modChan ch f).trees = s.trees := rfl
@[simp] theorem Dev.modChan_staged (s : Dev) (ch : Nat) (f : Chan → Chan) : (s.modChan ch f).staged = s.staged := rfl
@[simp] theorem Dev.modChan_tamper (s : Dev) (ch : Nat) (f : Chan → Chan) : (s.modChan ch f).tamper = s.tamper := rfl
@[simp] theorem Dev.modChan_rqt (s : Dev) (ch : Nat) (f : Chan → Chan) : (s.modChan ch f).rqt = s.rqt := rfl
@[simp] theorem Dev.modChan_seqs (s : Dev) (ch : Nat) (f : Chan → Chan) : (s.modChan ch f).seqs = s.seqs := rfl
@[simp] theorem Dev.modChan_mems (s : Dev) (ch : Nat) (f : Chan → Chan) : (s.modChan ch f).mems = s.mems := rfl
@[simp] theorem Dev.modChan_mgts (s : Dev) (ch : Nat) (f : Chan → Chan) : (s.modChan ch f).mgts = s.mgts := rfl
@[simp] theorem Dev.modChan_fws (s : Dev) (ch : Nat) (f : Chan → Chan) : (s.modChan ch f).fws = s.fws := rfl
@[simp] theorem Dev.modChan_dlv (s : Dev) (ch : Nat) (f : Chan → Chan) : (s.modChan ch f).dlv = s.dlv := rfl
@[simp] theorem Dev.modChan_hubGroups (s : Dev) (ch : Nat) (f : Chan → Chan) : (s.modChan ch f).hubGroups = s.hubGroups := rfl
@[simp] theorem Dev.modChan_time (s : Dev) (ch : Nat) (f : Chan → Chan) : (s.modChan ch f).time = s.time := rfl
@[simp] theorem Dev.modChan_plank (s : Dev) (ch : Nat) (f : Chan → Chan) : (s.modChan ch f).plank = s.plank := rfl
@[simp] theorem Dev.modChan_ftime (s : Dev) (ch : Nat) (f : Chan → Chan) : (s.modChan ch f).ftime = s.ftime := rfl
@[simp] theorem Dev.modChan_mgtNs (s : Dev) (ch : Nat) (f : Chan → Chan) : (s.modChan ch f).mgtNs = s.mgtNs := rfl
@[simp] theorem Dev.modChan_opSecs (s : Dev) (ch : Nat) (f : Chan → Chan) : (s.modChan ch f).opSecs = s.opSecs := rfl
@[simp] theorem Dev.modChan_porCount (s : Dev) (ch : Nat) (f : Chan → Chan) : (s.modChan ch f).porCount = s.porCount := rfl
@[simp] theorem Dev.modChan_vinMeter (s : Dev) (ch : Nat) (f : Chan → Chan) : (s.modChan ch f).vinMeter = s.vinMeter := rfl
@[simp] theorem Dev.modChan_vinHist (s : Dev) (ch : Nat) (f : Chan → Chan) : (s.modChan ch f).vinHist = s.vinHist := rfl
@[simp] theorem Dev.modChan_vinLow (s : Dev) (ch : Nat) (f : Chan → Chan) : (s.modChan ch f).vinLow = s.vinLow := rfl
@[simp] theorem Dev.modChan_aux (s : Dev) (ch : Nat) (f : Chan → Chan) : (s.modChan ch f).aux = s.aux := rfl
@[simp] theorem Dev.modChan_vin (s : Dev) (ch : Nat) (f : Chan → Chan) : (s.modChan ch f).vin = s.vin := rfl
@[simp] theorem Dev.modChan_auxPg (s : Dev) (ch : Nat) (f : Chan → Chan) : (s.modChan ch f).auxPg = s.auxPg := rfl
@[simp] theorem Dev.modChan_thermtrip (s : Dev) (ch : Nat) (f : Chan → Chan) : (s.modChan ch f).thermtrip = s.thermtrip := rfl
@[simp] theorem Dev.modChan_selfOff (s : Dev) (ch : Nat) (f : Chan → Chan) : (s.modChan ch f).selfOff = s.selfOff := rfl
@[simp] theorem Dev.modChan_perstLow (s : Dev) (ch : Nat) (f : Chan → Chan) : (s.modChan ch f).perstLow = s.perstLow := rfl
@[simp] theorem Dev.modChan_perstReset (s : Dev) (ch : Nat) (f : Chan → Chan) : (s.modChan ch f).perstReset = s.perstReset := rfl
@[simp] theorem Dev.modChan_hubReady (s : Dev) (ch : Nat) (f : Chan → Chan) : (s.modChan ch f).hubReady = s.hubReady := rfl
@[simp] theorem Dev.modChan_numVfs (s : Dev) (ch : Nat) (f : Chan → Chan) : (s.modChan ch f).numVfs = s.numVfs := rfl
@[simp] theorem Dev.modChan_hubHalt (s : Dev) (ch : Nat) (f : Chan → Chan) : (s.modChan ch f).hubHalt = s.hubHalt := rfl
@[simp] theorem Dev.modChan_slotId (s : Dev) (ch : Nat) (f : Chan → Chan) : (s.modChan ch f).slotId = s.slotId := rfl
@[simp] theorem Dev.modChan_ticket (s : Dev) (ch : Nat) (f : Chan → Chan) : (s.modChan ch f).ticket = s.ticket := rfl
@[simp] theorem Dev.modChan_get_reg (s : Dev) (ch : Nat) (f : Chan → Chan) (j : Nat) : (s.modChan ch f).reg j = s.reg j := rfl
@[simp] theorem Dev.modChan_get_byte (s : Dev) (ch : Nat) (f : Chan → Chan) (j : Nat) : (s.modChan ch f).byte j = s.byte j := rfl
@[simp] theorem Dev.modChan_get_clus (s : Dev) (ch : Nat) (f : Chan → Chan) (j : Nat) : (s.modChan ch f).clus j = s.clus j := rfl
@[simp] theorem Dev.modChan_get_core (s : Dev) (ch : Nat) (f : Chan → Chan) (j : Nat) : (s.modChan ch f).core j = s.core j := rfl
@[simp] theorem Dev.modChan_get_tile (s : Dev) (ch : Nat) (f : Chan → Chan) (j : Nat) : (s.modChan ch f).tile j = s.tile j := rfl
@[simp] theorem Dev.modChan_get_ctx (s : Dev) (ch : Nat) (f : Chan → Chan) (j : Nat) : (s.modChan ch f).ctx j = s.ctx j := rfl
@[simp] theorem Dev.modChan_get_mgt (s : Dev) (ch : Nat) (f : Chan → Chan) (j : Nat) : (s.modChan ch f).mgt j = s.mgt j := rfl
@[simp] theorem Dev.modChan_get_seq (s : Dev) (ch : Nat) (f : Chan → Chan) (j : Nat) : (s.modChan ch f).seq j = s.seq j := rfl
@[simp] theorem Dev.modChan_get_memOf (s : Dev) (ch : Nat) (f : Chan → Chan) (j : Nat) : (s.modChan ch f).memOf j = s.memOf j := rfl
@[simp] theorem Dev.modChan_get_dlvOf (s : Dev) (ch : Nat) (f : Chan → Chan) (j : Nat) : (s.modChan ch f).dlvOf j = s.dlvOf j := rfl
@[simp] theorem Dev.modChan_get_rd (s : Dev) (ch : Nat) (f : Chan → Chan) (k' : PageKind) (x i' o' : Nat) : (s.modChan ch f).rd k' x i' o' = s.rd k' x i' o' := rfl
@[simp] theorem Dev.modChan_get_rdF (s : Dev) (ch : Nat) (f : Chan → Chan) (k' : PageKind) (x i' o' hi' lo' : Nat) : (s.modChan ch f).rdF k' x i' o' hi' lo' = s.rdF k' x i' o' hi' lo' := rfl
@[simp] theorem Dev.modChan_get_inForce (s : Dev) (ch : Nat) (f : Chan → Chan) (k' : PageKind) (x i' o' hi' lo' : Nat) : (s.modChan ch f).inForce k' x i' o' hi' lo' = s.inForce k' x i' o' hi' lo' := rfl

/-! ### modClus -/

@[simp] theorem Dev.modClus_out (s : Dev) (c : Nat) (f : Cluster → Cluster) : (s.modClus c f).out = s.out := rfl
@[simp] theorem Dev.modClus_regs (s : Dev) (c : Nat) (f : Cluster → Cluster) : (s.modClus c f).regs = s.regs := rfl
@[simp] theorem Dev.modClus_eff (s : Dev) (c : Nat) (f : Cluster → Cluster) : (s.modClus c f).eff = s.eff := rfl
@[simp] theorem Dev.modClus_latch (s : Dev) (c : Nat) (f : Cluster → Cluster) : (s.modClus c f).latch = s.latch := rfl
@[simp] theorem Dev.modClus_mem (s : Dev) (c : Nat) (f : Cluster → Cluster) : (s.modClus c f).mem = s.mem := rfl
@[simp] theorem Dev.modClus_t0 (s : Dev) (c : Nat) (f : Cluster → Cluster) : (s.modClus c f).t0 = s.t0 := rfl
@[simp] theorem Dev.modClus_cbuf (s : Dev) (c : Nat) (f : Cluster → Cluster) : (s.modClus c f).cbuf = s.cbuf := rfl
@[simp] theorem Dev.modClus_chans (s : Dev) (c : Nat) (f : Cluster → Cluster) : (s.modClus c f).chans = s.chans := rfl
@[simp] theorem Dev.modClus_cores (s : Dev) (c : Nat) (f : Cluster → Cluster) : (s.modClus c f).cores = s.cores := rfl
@[simp] theorem Dev.modClus_tiles (s : Dev) (c : Nat) (f : Cluster → Cluster) : (s.modClus c f).tiles = s.tiles := rfl
@[simp] theorem Dev.modClus_ctxs (s : Dev) (c : Nat) (f : Cluster → Cluster) : (s.modClus c f).ctxs = s.ctxs := rfl
@[simp] theorem Dev.modClus_trees (s : Dev) (c : Nat) (f : Cluster → Cluster) : (s.modClus c f).trees = s.trees := rfl
@[simp] theorem Dev.modClus_staged (s : Dev) (c : Nat) (f : Cluster → Cluster) : (s.modClus c f).staged = s.staged := rfl
@[simp] theorem Dev.modClus_tamper (s : Dev) (c : Nat) (f : Cluster → Cluster) : (s.modClus c f).tamper = s.tamper := rfl
@[simp] theorem Dev.modClus_rqt (s : Dev) (c : Nat) (f : Cluster → Cluster) : (s.modClus c f).rqt = s.rqt := rfl
@[simp] theorem Dev.modClus_seqs (s : Dev) (c : Nat) (f : Cluster → Cluster) : (s.modClus c f).seqs = s.seqs := rfl
@[simp] theorem Dev.modClus_mems (s : Dev) (c : Nat) (f : Cluster → Cluster) : (s.modClus c f).mems = s.mems := rfl
@[simp] theorem Dev.modClus_mgts (s : Dev) (c : Nat) (f : Cluster → Cluster) : (s.modClus c f).mgts = s.mgts := rfl
@[simp] theorem Dev.modClus_fws (s : Dev) (c : Nat) (f : Cluster → Cluster) : (s.modClus c f).fws = s.fws := rfl
@[simp] theorem Dev.modClus_dlv (s : Dev) (c : Nat) (f : Cluster → Cluster) : (s.modClus c f).dlv = s.dlv := rfl
@[simp] theorem Dev.modClus_hubGroups (s : Dev) (c : Nat) (f : Cluster → Cluster) : (s.modClus c f).hubGroups = s.hubGroups := rfl
@[simp] theorem Dev.modClus_time (s : Dev) (c : Nat) (f : Cluster → Cluster) : (s.modClus c f).time = s.time := rfl
@[simp] theorem Dev.modClus_plank (s : Dev) (c : Nat) (f : Cluster → Cluster) : (s.modClus c f).plank = s.plank := rfl
@[simp] theorem Dev.modClus_ftime (s : Dev) (c : Nat) (f : Cluster → Cluster) : (s.modClus c f).ftime = s.ftime := rfl
@[simp] theorem Dev.modClus_mgtNs (s : Dev) (c : Nat) (f : Cluster → Cluster) : (s.modClus c f).mgtNs = s.mgtNs := rfl
@[simp] theorem Dev.modClus_opSecs (s : Dev) (c : Nat) (f : Cluster → Cluster) : (s.modClus c f).opSecs = s.opSecs := rfl
@[simp] theorem Dev.modClus_porCount (s : Dev) (c : Nat) (f : Cluster → Cluster) : (s.modClus c f).porCount = s.porCount := rfl
@[simp] theorem Dev.modClus_vinMeter (s : Dev) (c : Nat) (f : Cluster → Cluster) : (s.modClus c f).vinMeter = s.vinMeter := rfl
@[simp] theorem Dev.modClus_vinHist (s : Dev) (c : Nat) (f : Cluster → Cluster) : (s.modClus c f).vinHist = s.vinHist := rfl
@[simp] theorem Dev.modClus_vinLow (s : Dev) (c : Nat) (f : Cluster → Cluster) : (s.modClus c f).vinLow = s.vinLow := rfl
@[simp] theorem Dev.modClus_aux (s : Dev) (c : Nat) (f : Cluster → Cluster) : (s.modClus c f).aux = s.aux := rfl
@[simp] theorem Dev.modClus_vin (s : Dev) (c : Nat) (f : Cluster → Cluster) : (s.modClus c f).vin = s.vin := rfl
@[simp] theorem Dev.modClus_auxPg (s : Dev) (c : Nat) (f : Cluster → Cluster) : (s.modClus c f).auxPg = s.auxPg := rfl
@[simp] theorem Dev.modClus_thermtrip (s : Dev) (c : Nat) (f : Cluster → Cluster) : (s.modClus c f).thermtrip = s.thermtrip := rfl
@[simp] theorem Dev.modClus_selfOff (s : Dev) (c : Nat) (f : Cluster → Cluster) : (s.modClus c f).selfOff = s.selfOff := rfl
@[simp] theorem Dev.modClus_perstLow (s : Dev) (c : Nat) (f : Cluster → Cluster) : (s.modClus c f).perstLow = s.perstLow := rfl
@[simp] theorem Dev.modClus_perstReset (s : Dev) (c : Nat) (f : Cluster → Cluster) : (s.modClus c f).perstReset = s.perstReset := rfl
@[simp] theorem Dev.modClus_hubReady (s : Dev) (c : Nat) (f : Cluster → Cluster) : (s.modClus c f).hubReady = s.hubReady := rfl
@[simp] theorem Dev.modClus_numVfs (s : Dev) (c : Nat) (f : Cluster → Cluster) : (s.modClus c f).numVfs = s.numVfs := rfl
@[simp] theorem Dev.modClus_hubHalt (s : Dev) (c : Nat) (f : Cluster → Cluster) : (s.modClus c f).hubHalt = s.hubHalt := rfl
@[simp] theorem Dev.modClus_slotId (s : Dev) (c : Nat) (f : Cluster → Cluster) : (s.modClus c f).slotId = s.slotId := rfl
@[simp] theorem Dev.modClus_ticket (s : Dev) (c : Nat) (f : Cluster → Cluster) : (s.modClus c f).ticket = s.ticket := rfl
@[simp] theorem Dev.modClus_get_reg (s : Dev) (c : Nat) (f : Cluster → Cluster) (j : Nat) : (s.modClus c f).reg j = s.reg j := rfl
@[simp] theorem Dev.modClus_get_byte (s : Dev) (c : Nat) (f : Cluster → Cluster) (j : Nat) : (s.modClus c f).byte j = s.byte j := rfl
@[simp] theorem Dev.modClus_get_chan (s : Dev) (c : Nat) (f : Cluster → Cluster) (j : Nat) : (s.modClus c f).chan j = s.chan j := rfl
@[simp] theorem Dev.modClus_get_core (s : Dev) (c : Nat) (f : Cluster → Cluster) (j : Nat) : (s.modClus c f).core j = s.core j := rfl
@[simp] theorem Dev.modClus_get_tile (s : Dev) (c : Nat) (f : Cluster → Cluster) (j : Nat) : (s.modClus c f).tile j = s.tile j := rfl
@[simp] theorem Dev.modClus_get_ctx (s : Dev) (c : Nat) (f : Cluster → Cluster) (j : Nat) : (s.modClus c f).ctx j = s.ctx j := rfl
@[simp] theorem Dev.modClus_get_mgt (s : Dev) (c : Nat) (f : Cluster → Cluster) (j : Nat) : (s.modClus c f).mgt j = s.mgt j := rfl
@[simp] theorem Dev.modClus_get_seq (s : Dev) (c : Nat) (f : Cluster → Cluster) (j : Nat) : (s.modClus c f).seq j = s.seq j := rfl
@[simp] theorem Dev.modClus_get_memOf (s : Dev) (c : Nat) (f : Cluster → Cluster) (j : Nat) : (s.modClus c f).memOf j = s.memOf j := rfl
@[simp] theorem Dev.modClus_get_dlvOf (s : Dev) (c : Nat) (f : Cluster → Cluster) (j : Nat) : (s.modClus c f).dlvOf j = s.dlvOf j := rfl
@[simp] theorem Dev.modClus_get_rd (s : Dev) (c : Nat) (f : Cluster → Cluster) (k' : PageKind) (x i' o' : Nat) : (s.modClus c f).rd k' x i' o' = s.rd k' x i' o' := rfl
@[simp] theorem Dev.modClus_get_rdF (s : Dev) (c : Nat) (f : Cluster → Cluster) (k' : PageKind) (x i' o' hi' lo' : Nat) : (s.modClus c f).rdF k' x i' o' hi' lo' = s.rdF k' x i' o' hi' lo' := rfl
@[simp] theorem Dev.modClus_get_inForce (s : Dev) (c : Nat) (f : Cluster → Cluster) (k' : PageKind) (x i' o' hi' lo' : Nat) : (s.modClus c f).inForce k' x i' o' hi' lo' = s.inForce k' x i' o' hi' lo' := rfl

/-! ### modCore -/

@[simp] theorem Dev.modCore_out (s : Dev) (c : Nat) (f : Core → Core) : (s.modCore c f).out = s.out := rfl
@[simp] theorem Dev.modCore_regs (s : Dev) (c : Nat) (f : Core → Core) : (s.modCore c f).regs = s.regs := rfl
@[simp] theorem Dev.modCore_eff (s : Dev) (c : Nat) (f : Core → Core) : (s.modCore c f).eff = s.eff := rfl
@[simp] theorem Dev.modCore_latch (s : Dev) (c : Nat) (f : Core → Core) : (s.modCore c f).latch = s.latch := rfl
@[simp] theorem Dev.modCore_mem (s : Dev) (c : Nat) (f : Core → Core) : (s.modCore c f).mem = s.mem := rfl
@[simp] theorem Dev.modCore_t0 (s : Dev) (c : Nat) (f : Core → Core) : (s.modCore c f).t0 = s.t0 := rfl
@[simp] theorem Dev.modCore_cbuf (s : Dev) (c : Nat) (f : Core → Core) : (s.modCore c f).cbuf = s.cbuf := rfl
@[simp] theorem Dev.modCore_chans (s : Dev) (c : Nat) (f : Core → Core) : (s.modCore c f).chans = s.chans := rfl
@[simp] theorem Dev.modCore_clusters (s : Dev) (c : Nat) (f : Core → Core) : (s.modCore c f).clusters = s.clusters := rfl
@[simp] theorem Dev.modCore_tiles (s : Dev) (c : Nat) (f : Core → Core) : (s.modCore c f).tiles = s.tiles := rfl
@[simp] theorem Dev.modCore_ctxs (s : Dev) (c : Nat) (f : Core → Core) : (s.modCore c f).ctxs = s.ctxs := rfl
@[simp] theorem Dev.modCore_trees (s : Dev) (c : Nat) (f : Core → Core) : (s.modCore c f).trees = s.trees := rfl
@[simp] theorem Dev.modCore_staged (s : Dev) (c : Nat) (f : Core → Core) : (s.modCore c f).staged = s.staged := rfl
@[simp] theorem Dev.modCore_tamper (s : Dev) (c : Nat) (f : Core → Core) : (s.modCore c f).tamper = s.tamper := rfl
@[simp] theorem Dev.modCore_rqt (s : Dev) (c : Nat) (f : Core → Core) : (s.modCore c f).rqt = s.rqt := rfl
@[simp] theorem Dev.modCore_seqs (s : Dev) (c : Nat) (f : Core → Core) : (s.modCore c f).seqs = s.seqs := rfl
@[simp] theorem Dev.modCore_mems (s : Dev) (c : Nat) (f : Core → Core) : (s.modCore c f).mems = s.mems := rfl
@[simp] theorem Dev.modCore_mgts (s : Dev) (c : Nat) (f : Core → Core) : (s.modCore c f).mgts = s.mgts := rfl
@[simp] theorem Dev.modCore_fws (s : Dev) (c : Nat) (f : Core → Core) : (s.modCore c f).fws = s.fws := rfl
@[simp] theorem Dev.modCore_dlv (s : Dev) (c : Nat) (f : Core → Core) : (s.modCore c f).dlv = s.dlv := rfl
@[simp] theorem Dev.modCore_hubGroups (s : Dev) (c : Nat) (f : Core → Core) : (s.modCore c f).hubGroups = s.hubGroups := rfl
@[simp] theorem Dev.modCore_time (s : Dev) (c : Nat) (f : Core → Core) : (s.modCore c f).time = s.time := rfl
@[simp] theorem Dev.modCore_plank (s : Dev) (c : Nat) (f : Core → Core) : (s.modCore c f).plank = s.plank := rfl
@[simp] theorem Dev.modCore_ftime (s : Dev) (c : Nat) (f : Core → Core) : (s.modCore c f).ftime = s.ftime := rfl
@[simp] theorem Dev.modCore_mgtNs (s : Dev) (c : Nat) (f : Core → Core) : (s.modCore c f).mgtNs = s.mgtNs := rfl
@[simp] theorem Dev.modCore_opSecs (s : Dev) (c : Nat) (f : Core → Core) : (s.modCore c f).opSecs = s.opSecs := rfl
@[simp] theorem Dev.modCore_porCount (s : Dev) (c : Nat) (f : Core → Core) : (s.modCore c f).porCount = s.porCount := rfl
@[simp] theorem Dev.modCore_vinMeter (s : Dev) (c : Nat) (f : Core → Core) : (s.modCore c f).vinMeter = s.vinMeter := rfl
@[simp] theorem Dev.modCore_vinHist (s : Dev) (c : Nat) (f : Core → Core) : (s.modCore c f).vinHist = s.vinHist := rfl
@[simp] theorem Dev.modCore_vinLow (s : Dev) (c : Nat) (f : Core → Core) : (s.modCore c f).vinLow = s.vinLow := rfl
@[simp] theorem Dev.modCore_aux (s : Dev) (c : Nat) (f : Core → Core) : (s.modCore c f).aux = s.aux := rfl
@[simp] theorem Dev.modCore_vin (s : Dev) (c : Nat) (f : Core → Core) : (s.modCore c f).vin = s.vin := rfl
@[simp] theorem Dev.modCore_auxPg (s : Dev) (c : Nat) (f : Core → Core) : (s.modCore c f).auxPg = s.auxPg := rfl
@[simp] theorem Dev.modCore_thermtrip (s : Dev) (c : Nat) (f : Core → Core) : (s.modCore c f).thermtrip = s.thermtrip := rfl
@[simp] theorem Dev.modCore_selfOff (s : Dev) (c : Nat) (f : Core → Core) : (s.modCore c f).selfOff = s.selfOff := rfl
@[simp] theorem Dev.modCore_perstLow (s : Dev) (c : Nat) (f : Core → Core) : (s.modCore c f).perstLow = s.perstLow := rfl
@[simp] theorem Dev.modCore_perstReset (s : Dev) (c : Nat) (f : Core → Core) : (s.modCore c f).perstReset = s.perstReset := rfl
@[simp] theorem Dev.modCore_hubReady (s : Dev) (c : Nat) (f : Core → Core) : (s.modCore c f).hubReady = s.hubReady := rfl
@[simp] theorem Dev.modCore_numVfs (s : Dev) (c : Nat) (f : Core → Core) : (s.modCore c f).numVfs = s.numVfs := rfl
@[simp] theorem Dev.modCore_hubHalt (s : Dev) (c : Nat) (f : Core → Core) : (s.modCore c f).hubHalt = s.hubHalt := rfl
@[simp] theorem Dev.modCore_slotId (s : Dev) (c : Nat) (f : Core → Core) : (s.modCore c f).slotId = s.slotId := rfl
@[simp] theorem Dev.modCore_ticket (s : Dev) (c : Nat) (f : Core → Core) : (s.modCore c f).ticket = s.ticket := rfl
@[simp] theorem Dev.modCore_get_reg (s : Dev) (c : Nat) (f : Core → Core) (j : Nat) : (s.modCore c f).reg j = s.reg j := rfl
@[simp] theorem Dev.modCore_get_byte (s : Dev) (c : Nat) (f : Core → Core) (j : Nat) : (s.modCore c f).byte j = s.byte j := rfl
@[simp] theorem Dev.modCore_get_chan (s : Dev) (c : Nat) (f : Core → Core) (j : Nat) : (s.modCore c f).chan j = s.chan j := rfl
@[simp] theorem Dev.modCore_get_clus (s : Dev) (c : Nat) (f : Core → Core) (j : Nat) : (s.modCore c f).clus j = s.clus j := rfl
@[simp] theorem Dev.modCore_get_tile (s : Dev) (c : Nat) (f : Core → Core) (j : Nat) : (s.modCore c f).tile j = s.tile j := rfl
@[simp] theorem Dev.modCore_get_ctx (s : Dev) (c : Nat) (f : Core → Core) (j : Nat) : (s.modCore c f).ctx j = s.ctx j := rfl
@[simp] theorem Dev.modCore_get_mgt (s : Dev) (c : Nat) (f : Core → Core) (j : Nat) : (s.modCore c f).mgt j = s.mgt j := rfl
@[simp] theorem Dev.modCore_get_seq (s : Dev) (c : Nat) (f : Core → Core) (j : Nat) : (s.modCore c f).seq j = s.seq j := rfl
@[simp] theorem Dev.modCore_get_memOf (s : Dev) (c : Nat) (f : Core → Core) (j : Nat) : (s.modCore c f).memOf j = s.memOf j := rfl
@[simp] theorem Dev.modCore_get_dlvOf (s : Dev) (c : Nat) (f : Core → Core) (j : Nat) : (s.modCore c f).dlvOf j = s.dlvOf j := rfl
@[simp] theorem Dev.modCore_get_rd (s : Dev) (c : Nat) (f : Core → Core) (k' : PageKind) (x i' o' : Nat) : (s.modCore c f).rd k' x i' o' = s.rd k' x i' o' := rfl
@[simp] theorem Dev.modCore_get_rdF (s : Dev) (c : Nat) (f : Core → Core) (k' : PageKind) (x i' o' hi' lo' : Nat) : (s.modCore c f).rdF k' x i' o' hi' lo' = s.rdF k' x i' o' hi' lo' := rfl
@[simp] theorem Dev.modCore_get_inForce (s : Dev) (c : Nat) (f : Core → Core) (k' : PageKind) (x i' o' hi' lo' : Nat) : (s.modCore c f).inForce k' x i' o' hi' lo' = s.inForce k' x i' o' hi' lo' := rfl

/-! ### modTile -/

@[simp] theorem Dev.modTile_out (s : Dev) (t : Nat) (f : Tile → Tile) : (s.modTile t f).out = s.out := rfl
@[simp] theorem Dev.modTile_regs (s : Dev) (t : Nat) (f : Tile → Tile) : (s.modTile t f).regs = s.regs := rfl
@[simp] theorem Dev.modTile_eff (s : Dev) (t : Nat) (f : Tile → Tile) : (s.modTile t f).eff = s.eff := rfl
@[simp] theorem Dev.modTile_latch (s : Dev) (t : Nat) (f : Tile → Tile) : (s.modTile t f).latch = s.latch := rfl
@[simp] theorem Dev.modTile_mem (s : Dev) (t : Nat) (f : Tile → Tile) : (s.modTile t f).mem = s.mem := rfl
@[simp] theorem Dev.modTile_t0 (s : Dev) (t : Nat) (f : Tile → Tile) : (s.modTile t f).t0 = s.t0 := rfl
@[simp] theorem Dev.modTile_cbuf (s : Dev) (t : Nat) (f : Tile → Tile) : (s.modTile t f).cbuf = s.cbuf := rfl
@[simp] theorem Dev.modTile_chans (s : Dev) (t : Nat) (f : Tile → Tile) : (s.modTile t f).chans = s.chans := rfl
@[simp] theorem Dev.modTile_clusters (s : Dev) (t : Nat) (f : Tile → Tile) : (s.modTile t f).clusters = s.clusters := rfl
@[simp] theorem Dev.modTile_cores (s : Dev) (t : Nat) (f : Tile → Tile) : (s.modTile t f).cores = s.cores := rfl
@[simp] theorem Dev.modTile_ctxs (s : Dev) (t : Nat) (f : Tile → Tile) : (s.modTile t f).ctxs = s.ctxs := rfl
@[simp] theorem Dev.modTile_trees (s : Dev) (t : Nat) (f : Tile → Tile) : (s.modTile t f).trees = s.trees := rfl
@[simp] theorem Dev.modTile_staged (s : Dev) (t : Nat) (f : Tile → Tile) : (s.modTile t f).staged = s.staged := rfl
@[simp] theorem Dev.modTile_tamper (s : Dev) (t : Nat) (f : Tile → Tile) : (s.modTile t f).tamper = s.tamper := rfl
@[simp] theorem Dev.modTile_rqt (s : Dev) (t : Nat) (f : Tile → Tile) : (s.modTile t f).rqt = s.rqt := rfl
@[simp] theorem Dev.modTile_seqs (s : Dev) (t : Nat) (f : Tile → Tile) : (s.modTile t f).seqs = s.seqs := rfl
@[simp] theorem Dev.modTile_mems (s : Dev) (t : Nat) (f : Tile → Tile) : (s.modTile t f).mems = s.mems := rfl
@[simp] theorem Dev.modTile_mgts (s : Dev) (t : Nat) (f : Tile → Tile) : (s.modTile t f).mgts = s.mgts := rfl
@[simp] theorem Dev.modTile_fws (s : Dev) (t : Nat) (f : Tile → Tile) : (s.modTile t f).fws = s.fws := rfl
@[simp] theorem Dev.modTile_dlv (s : Dev) (t : Nat) (f : Tile → Tile) : (s.modTile t f).dlv = s.dlv := rfl
@[simp] theorem Dev.modTile_hubGroups (s : Dev) (t : Nat) (f : Tile → Tile) : (s.modTile t f).hubGroups = s.hubGroups := rfl
@[simp] theorem Dev.modTile_time (s : Dev) (t : Nat) (f : Tile → Tile) : (s.modTile t f).time = s.time := rfl
@[simp] theorem Dev.modTile_plank (s : Dev) (t : Nat) (f : Tile → Tile) : (s.modTile t f).plank = s.plank := rfl
@[simp] theorem Dev.modTile_ftime (s : Dev) (t : Nat) (f : Tile → Tile) : (s.modTile t f).ftime = s.ftime := rfl
@[simp] theorem Dev.modTile_mgtNs (s : Dev) (t : Nat) (f : Tile → Tile) : (s.modTile t f).mgtNs = s.mgtNs := rfl
@[simp] theorem Dev.modTile_opSecs (s : Dev) (t : Nat) (f : Tile → Tile) : (s.modTile t f).opSecs = s.opSecs := rfl
@[simp] theorem Dev.modTile_porCount (s : Dev) (t : Nat) (f : Tile → Tile) : (s.modTile t f).porCount = s.porCount := rfl
@[simp] theorem Dev.modTile_vinMeter (s : Dev) (t : Nat) (f : Tile → Tile) : (s.modTile t f).vinMeter = s.vinMeter := rfl
@[simp] theorem Dev.modTile_vinHist (s : Dev) (t : Nat) (f : Tile → Tile) : (s.modTile t f).vinHist = s.vinHist := rfl
@[simp] theorem Dev.modTile_vinLow (s : Dev) (t : Nat) (f : Tile → Tile) : (s.modTile t f).vinLow = s.vinLow := rfl
@[simp] theorem Dev.modTile_aux (s : Dev) (t : Nat) (f : Tile → Tile) : (s.modTile t f).aux = s.aux := rfl
@[simp] theorem Dev.modTile_vin (s : Dev) (t : Nat) (f : Tile → Tile) : (s.modTile t f).vin = s.vin := rfl
@[simp] theorem Dev.modTile_auxPg (s : Dev) (t : Nat) (f : Tile → Tile) : (s.modTile t f).auxPg = s.auxPg := rfl
@[simp] theorem Dev.modTile_thermtrip (s : Dev) (t : Nat) (f : Tile → Tile) : (s.modTile t f).thermtrip = s.thermtrip := rfl
@[simp] theorem Dev.modTile_selfOff (s : Dev) (t : Nat) (f : Tile → Tile) : (s.modTile t f).selfOff = s.selfOff := rfl
@[simp] theorem Dev.modTile_perstLow (s : Dev) (t : Nat) (f : Tile → Tile) : (s.modTile t f).perstLow = s.perstLow := rfl
@[simp] theorem Dev.modTile_perstReset (s : Dev) (t : Nat) (f : Tile → Tile) : (s.modTile t f).perstReset = s.perstReset := rfl
@[simp] theorem Dev.modTile_hubReady (s : Dev) (t : Nat) (f : Tile → Tile) : (s.modTile t f).hubReady = s.hubReady := rfl
@[simp] theorem Dev.modTile_numVfs (s : Dev) (t : Nat) (f : Tile → Tile) : (s.modTile t f).numVfs = s.numVfs := rfl
@[simp] theorem Dev.modTile_hubHalt (s : Dev) (t : Nat) (f : Tile → Tile) : (s.modTile t f).hubHalt = s.hubHalt := rfl
@[simp] theorem Dev.modTile_slotId (s : Dev) (t : Nat) (f : Tile → Tile) : (s.modTile t f).slotId = s.slotId := rfl
@[simp] theorem Dev.modTile_ticket (s : Dev) (t : Nat) (f : Tile → Tile) : (s.modTile t f).ticket = s.ticket := rfl
@[simp] theorem Dev.modTile_get_reg (s : Dev) (t : Nat) (f : Tile → Tile) (j : Nat) : (s.modTile t f).reg j = s.reg j := rfl
@[simp] theorem Dev.modTile_get_byte (s : Dev) (t : Nat) (f : Tile → Tile) (j : Nat) : (s.modTile t f).byte j = s.byte j := rfl
@[simp] theorem Dev.modTile_get_chan (s : Dev) (t : Nat) (f : Tile → Tile) (j : Nat) : (s.modTile t f).chan j = s.chan j := rfl
@[simp] theorem Dev.modTile_get_clus (s : Dev) (t : Nat) (f : Tile → Tile) (j : Nat) : (s.modTile t f).clus j = s.clus j := rfl
@[simp] theorem Dev.modTile_get_core (s : Dev) (t : Nat) (f : Tile → Tile) (j : Nat) : (s.modTile t f).core j = s.core j := rfl
@[simp] theorem Dev.modTile_get_ctx (s : Dev) (t : Nat) (f : Tile → Tile) (j : Nat) : (s.modTile t f).ctx j = s.ctx j := rfl
@[simp] theorem Dev.modTile_get_mgt (s : Dev) (t : Nat) (f : Tile → Tile) (j : Nat) : (s.modTile t f).mgt j = s.mgt j := rfl
@[simp] theorem Dev.modTile_get_seq (s : Dev) (t : Nat) (f : Tile → Tile) (j : Nat) : (s.modTile t f).seq j = s.seq j := rfl
@[simp] theorem Dev.modTile_get_memOf (s : Dev) (t : Nat) (f : Tile → Tile) (j : Nat) : (s.modTile t f).memOf j = s.memOf j := rfl
@[simp] theorem Dev.modTile_get_dlvOf (s : Dev) (t : Nat) (f : Tile → Tile) (j : Nat) : (s.modTile t f).dlvOf j = s.dlvOf j := rfl
@[simp] theorem Dev.modTile_get_rd (s : Dev) (t : Nat) (f : Tile → Tile) (k' : PageKind) (x i' o' : Nat) : (s.modTile t f).rd k' x i' o' = s.rd k' x i' o' := rfl
@[simp] theorem Dev.modTile_get_rdF (s : Dev) (t : Nat) (f : Tile → Tile) (k' : PageKind) (x i' o' hi' lo' : Nat) : (s.modTile t f).rdF k' x i' o' hi' lo' = s.rdF k' x i' o' hi' lo' := rfl
@[simp] theorem Dev.modTile_get_inForce (s : Dev) (t : Nat) (f : Tile → Tile) (k' : PageKind) (x i' o' hi' lo' : Nat) : (s.modTile t f).inForce k' x i' o' hi' lo' = s.inForce k' x i' o' hi' lo' := rfl

/-! ### modCtx -/

@[simp] theorem Dev.modCtx_out (s : Dev) (n : Nat) (f : Ctx → Ctx) : (s.modCtx n f).out = s.out := rfl
@[simp] theorem Dev.modCtx_regs (s : Dev) (n : Nat) (f : Ctx → Ctx) : (s.modCtx n f).regs = s.regs := rfl
@[simp] theorem Dev.modCtx_eff (s : Dev) (n : Nat) (f : Ctx → Ctx) : (s.modCtx n f).eff = s.eff := rfl
@[simp] theorem Dev.modCtx_latch (s : Dev) (n : Nat) (f : Ctx → Ctx) : (s.modCtx n f).latch = s.latch := rfl
@[simp] theorem Dev.modCtx_mem (s : Dev) (n : Nat) (f : Ctx → Ctx) : (s.modCtx n f).mem = s.mem := rfl
@[simp] theorem Dev.modCtx_t0 (s : Dev) (n : Nat) (f : Ctx → Ctx) : (s.modCtx n f).t0 = s.t0 := rfl
@[simp] theorem Dev.modCtx_cbuf (s : Dev) (n : Nat) (f : Ctx → Ctx) : (s.modCtx n f).cbuf = s.cbuf := rfl
@[simp] theorem Dev.modCtx_chans (s : Dev) (n : Nat) (f : Ctx → Ctx) : (s.modCtx n f).chans = s.chans := rfl
@[simp] theorem Dev.modCtx_clusters (s : Dev) (n : Nat) (f : Ctx → Ctx) : (s.modCtx n f).clusters = s.clusters := rfl
@[simp] theorem Dev.modCtx_cores (s : Dev) (n : Nat) (f : Ctx → Ctx) : (s.modCtx n f).cores = s.cores := rfl
@[simp] theorem Dev.modCtx_tiles (s : Dev) (n : Nat) (f : Ctx → Ctx) : (s.modCtx n f).tiles = s.tiles := rfl
@[simp] theorem Dev.modCtx_trees (s : Dev) (n : Nat) (f : Ctx → Ctx) : (s.modCtx n f).trees = s.trees := rfl
@[simp] theorem Dev.modCtx_staged (s : Dev) (n : Nat) (f : Ctx → Ctx) : (s.modCtx n f).staged = s.staged := rfl
@[simp] theorem Dev.modCtx_tamper (s : Dev) (n : Nat) (f : Ctx → Ctx) : (s.modCtx n f).tamper = s.tamper := rfl
@[simp] theorem Dev.modCtx_rqt (s : Dev) (n : Nat) (f : Ctx → Ctx) : (s.modCtx n f).rqt = s.rqt := rfl
@[simp] theorem Dev.modCtx_seqs (s : Dev) (n : Nat) (f : Ctx → Ctx) : (s.modCtx n f).seqs = s.seqs := rfl
@[simp] theorem Dev.modCtx_mems (s : Dev) (n : Nat) (f : Ctx → Ctx) : (s.modCtx n f).mems = s.mems := rfl
@[simp] theorem Dev.modCtx_mgts (s : Dev) (n : Nat) (f : Ctx → Ctx) : (s.modCtx n f).mgts = s.mgts := rfl
@[simp] theorem Dev.modCtx_fws (s : Dev) (n : Nat) (f : Ctx → Ctx) : (s.modCtx n f).fws = s.fws := rfl
@[simp] theorem Dev.modCtx_dlv (s : Dev) (n : Nat) (f : Ctx → Ctx) : (s.modCtx n f).dlv = s.dlv := rfl
@[simp] theorem Dev.modCtx_hubGroups (s : Dev) (n : Nat) (f : Ctx → Ctx) : (s.modCtx n f).hubGroups = s.hubGroups := rfl
@[simp] theorem Dev.modCtx_time (s : Dev) (n : Nat) (f : Ctx → Ctx) : (s.modCtx n f).time = s.time := rfl
@[simp] theorem Dev.modCtx_plank (s : Dev) (n : Nat) (f : Ctx → Ctx) : (s.modCtx n f).plank = s.plank := rfl
@[simp] theorem Dev.modCtx_ftime (s : Dev) (n : Nat) (f : Ctx → Ctx) : (s.modCtx n f).ftime = s.ftime := rfl
@[simp] theorem Dev.modCtx_mgtNs (s : Dev) (n : Nat) (f : Ctx → Ctx) : (s.modCtx n f).mgtNs = s.mgtNs := rfl
@[simp] theorem Dev.modCtx_opSecs (s : Dev) (n : Nat) (f : Ctx → Ctx) : (s.modCtx n f).opSecs = s.opSecs := rfl
@[simp] theorem Dev.modCtx_porCount (s : Dev) (n : Nat) (f : Ctx → Ctx) : (s.modCtx n f).porCount = s.porCount := rfl
@[simp] theorem Dev.modCtx_vinMeter (s : Dev) (n : Nat) (f : Ctx → Ctx) : (s.modCtx n f).vinMeter = s.vinMeter := rfl
@[simp] theorem Dev.modCtx_vinHist (s : Dev) (n : Nat) (f : Ctx → Ctx) : (s.modCtx n f).vinHist = s.vinHist := rfl
@[simp] theorem Dev.modCtx_vinLow (s : Dev) (n : Nat) (f : Ctx → Ctx) : (s.modCtx n f).vinLow = s.vinLow := rfl
@[simp] theorem Dev.modCtx_aux (s : Dev) (n : Nat) (f : Ctx → Ctx) : (s.modCtx n f).aux = s.aux := rfl
@[simp] theorem Dev.modCtx_vin (s : Dev) (n : Nat) (f : Ctx → Ctx) : (s.modCtx n f).vin = s.vin := rfl
@[simp] theorem Dev.modCtx_auxPg (s : Dev) (n : Nat) (f : Ctx → Ctx) : (s.modCtx n f).auxPg = s.auxPg := rfl
@[simp] theorem Dev.modCtx_thermtrip (s : Dev) (n : Nat) (f : Ctx → Ctx) : (s.modCtx n f).thermtrip = s.thermtrip := rfl
@[simp] theorem Dev.modCtx_selfOff (s : Dev) (n : Nat) (f : Ctx → Ctx) : (s.modCtx n f).selfOff = s.selfOff := rfl
@[simp] theorem Dev.modCtx_perstLow (s : Dev) (n : Nat) (f : Ctx → Ctx) : (s.modCtx n f).perstLow = s.perstLow := rfl
@[simp] theorem Dev.modCtx_perstReset (s : Dev) (n : Nat) (f : Ctx → Ctx) : (s.modCtx n f).perstReset = s.perstReset := rfl
@[simp] theorem Dev.modCtx_hubReady (s : Dev) (n : Nat) (f : Ctx → Ctx) : (s.modCtx n f).hubReady = s.hubReady := rfl
@[simp] theorem Dev.modCtx_numVfs (s : Dev) (n : Nat) (f : Ctx → Ctx) : (s.modCtx n f).numVfs = s.numVfs := rfl
@[simp] theorem Dev.modCtx_hubHalt (s : Dev) (n : Nat) (f : Ctx → Ctx) : (s.modCtx n f).hubHalt = s.hubHalt := rfl
@[simp] theorem Dev.modCtx_slotId (s : Dev) (n : Nat) (f : Ctx → Ctx) : (s.modCtx n f).slotId = s.slotId := rfl
@[simp] theorem Dev.modCtx_ticket (s : Dev) (n : Nat) (f : Ctx → Ctx) : (s.modCtx n f).ticket = s.ticket := rfl
@[simp] theorem Dev.modCtx_get_reg (s : Dev) (n : Nat) (f : Ctx → Ctx) (j : Nat) : (s.modCtx n f).reg j = s.reg j := rfl
@[simp] theorem Dev.modCtx_get_byte (s : Dev) (n : Nat) (f : Ctx → Ctx) (j : Nat) : (s.modCtx n f).byte j = s.byte j := rfl
@[simp] theorem Dev.modCtx_get_chan (s : Dev) (n : Nat) (f : Ctx → Ctx) (j : Nat) : (s.modCtx n f).chan j = s.chan j := rfl
@[simp] theorem Dev.modCtx_get_clus (s : Dev) (n : Nat) (f : Ctx → Ctx) (j : Nat) : (s.modCtx n f).clus j = s.clus j := rfl
@[simp] theorem Dev.modCtx_get_core (s : Dev) (n : Nat) (f : Ctx → Ctx) (j : Nat) : (s.modCtx n f).core j = s.core j := rfl
@[simp] theorem Dev.modCtx_get_tile (s : Dev) (n : Nat) (f : Ctx → Ctx) (j : Nat) : (s.modCtx n f).tile j = s.tile j := rfl
@[simp] theorem Dev.modCtx_get_mgt (s : Dev) (n : Nat) (f : Ctx → Ctx) (j : Nat) : (s.modCtx n f).mgt j = s.mgt j := rfl
@[simp] theorem Dev.modCtx_get_seq (s : Dev) (n : Nat) (f : Ctx → Ctx) (j : Nat) : (s.modCtx n f).seq j = s.seq j := rfl
@[simp] theorem Dev.modCtx_get_memOf (s : Dev) (n : Nat) (f : Ctx → Ctx) (j : Nat) : (s.modCtx n f).memOf j = s.memOf j := rfl
@[simp] theorem Dev.modCtx_get_dlvOf (s : Dev) (n : Nat) (f : Ctx → Ctx) (j : Nat) : (s.modCtx n f).dlvOf j = s.dlvOf j := rfl
@[simp] theorem Dev.modCtx_get_rd (s : Dev) (n : Nat) (f : Ctx → Ctx) (k' : PageKind) (x i' o' : Nat) : (s.modCtx n f).rd k' x i' o' = s.rd k' x i' o' := rfl
@[simp] theorem Dev.modCtx_get_rdF (s : Dev) (n : Nat) (f : Ctx → Ctx) (k' : PageKind) (x i' o' hi' lo' : Nat) : (s.modCtx n f).rdF k' x i' o' hi' lo' = s.rdF k' x i' o' hi' lo' := rfl
@[simp] theorem Dev.modCtx_get_inForce (s : Dev) (n : Nat) (f : Ctx → Ctx) (k' : PageKind) (x i' o' hi' lo' : Nat) : (s.modCtx n f).inForce k' x i' o' hi' lo' = s.inForce k' x i' o' hi' lo' := rfl

/-! ### modMgt -/

@[simp] theorem Dev.modMgt_out (s : Dev) (t : Nat) (f : Mgt → Mgt) : (s.modMgt t f).out = s.out := rfl
@[simp] theorem Dev.modMgt_regs (s : Dev) (t : Nat) (f : Mgt → Mgt) : (s.modMgt t f).regs = s.regs := rfl
@[simp] theorem Dev.modMgt_eff (s : Dev) (t : Nat) (f : Mgt → Mgt) : (s.modMgt t f).eff = s.eff := rfl
@[simp] theorem Dev.modMgt_latch (s : Dev) (t : Nat) (f : Mgt → Mgt) : (s.modMgt t f).latch = s.latch := rfl
@[simp] theorem Dev.modMgt_mem (s : Dev) (t : Nat) (f : Mgt → Mgt) : (s.modMgt t f).mem = s.mem := rfl
@[simp] theorem Dev.modMgt_t0 (s : Dev) (t : Nat) (f : Mgt → Mgt) : (s.modMgt t f).t0 = s.t0 := rfl
@[simp] theorem Dev.modMgt_cbuf (s : Dev) (t : Nat) (f : Mgt → Mgt) : (s.modMgt t f).cbuf = s.cbuf := rfl
@[simp] theorem Dev.modMgt_chans (s : Dev) (t : Nat) (f : Mgt → Mgt) : (s.modMgt t f).chans = s.chans := rfl
@[simp] theorem Dev.modMgt_clusters (s : Dev) (t : Nat) (f : Mgt → Mgt) : (s.modMgt t f).clusters = s.clusters := rfl
@[simp] theorem Dev.modMgt_cores (s : Dev) (t : Nat) (f : Mgt → Mgt) : (s.modMgt t f).cores = s.cores := rfl
@[simp] theorem Dev.modMgt_tiles (s : Dev) (t : Nat) (f : Mgt → Mgt) : (s.modMgt t f).tiles = s.tiles := rfl
@[simp] theorem Dev.modMgt_ctxs (s : Dev) (t : Nat) (f : Mgt → Mgt) : (s.modMgt t f).ctxs = s.ctxs := rfl
@[simp] theorem Dev.modMgt_trees (s : Dev) (t : Nat) (f : Mgt → Mgt) : (s.modMgt t f).trees = s.trees := rfl
@[simp] theorem Dev.modMgt_staged (s : Dev) (t : Nat) (f : Mgt → Mgt) : (s.modMgt t f).staged = s.staged := rfl
@[simp] theorem Dev.modMgt_tamper (s : Dev) (t : Nat) (f : Mgt → Mgt) : (s.modMgt t f).tamper = s.tamper := rfl
@[simp] theorem Dev.modMgt_rqt (s : Dev) (t : Nat) (f : Mgt → Mgt) : (s.modMgt t f).rqt = s.rqt := rfl
@[simp] theorem Dev.modMgt_seqs (s : Dev) (t : Nat) (f : Mgt → Mgt) : (s.modMgt t f).seqs = s.seqs := rfl
@[simp] theorem Dev.modMgt_mems (s : Dev) (t : Nat) (f : Mgt → Mgt) : (s.modMgt t f).mems = s.mems := rfl
@[simp] theorem Dev.modMgt_fws (s : Dev) (t : Nat) (f : Mgt → Mgt) : (s.modMgt t f).fws = s.fws := rfl
@[simp] theorem Dev.modMgt_dlv (s : Dev) (t : Nat) (f : Mgt → Mgt) : (s.modMgt t f).dlv = s.dlv := rfl
@[simp] theorem Dev.modMgt_hubGroups (s : Dev) (t : Nat) (f : Mgt → Mgt) : (s.modMgt t f).hubGroups = s.hubGroups := rfl
@[simp] theorem Dev.modMgt_time (s : Dev) (t : Nat) (f : Mgt → Mgt) : (s.modMgt t f).time = s.time := rfl
@[simp] theorem Dev.modMgt_plank (s : Dev) (t : Nat) (f : Mgt → Mgt) : (s.modMgt t f).plank = s.plank := rfl
@[simp] theorem Dev.modMgt_ftime (s : Dev) (t : Nat) (f : Mgt → Mgt) : (s.modMgt t f).ftime = s.ftime := rfl
@[simp] theorem Dev.modMgt_mgtNs (s : Dev) (t : Nat) (f : Mgt → Mgt) : (s.modMgt t f).mgtNs = s.mgtNs := rfl
@[simp] theorem Dev.modMgt_opSecs (s : Dev) (t : Nat) (f : Mgt → Mgt) : (s.modMgt t f).opSecs = s.opSecs := rfl
@[simp] theorem Dev.modMgt_porCount (s : Dev) (t : Nat) (f : Mgt → Mgt) : (s.modMgt t f).porCount = s.porCount := rfl
@[simp] theorem Dev.modMgt_vinMeter (s : Dev) (t : Nat) (f : Mgt → Mgt) : (s.modMgt t f).vinMeter = s.vinMeter := rfl
@[simp] theorem Dev.modMgt_vinHist (s : Dev) (t : Nat) (f : Mgt → Mgt) : (s.modMgt t f).vinHist = s.vinHist := rfl
@[simp] theorem Dev.modMgt_vinLow (s : Dev) (t : Nat) (f : Mgt → Mgt) : (s.modMgt t f).vinLow = s.vinLow := rfl
@[simp] theorem Dev.modMgt_aux (s : Dev) (t : Nat) (f : Mgt → Mgt) : (s.modMgt t f).aux = s.aux := rfl
@[simp] theorem Dev.modMgt_vin (s : Dev) (t : Nat) (f : Mgt → Mgt) : (s.modMgt t f).vin = s.vin := rfl
@[simp] theorem Dev.modMgt_auxPg (s : Dev) (t : Nat) (f : Mgt → Mgt) : (s.modMgt t f).auxPg = s.auxPg := rfl
@[simp] theorem Dev.modMgt_thermtrip (s : Dev) (t : Nat) (f : Mgt → Mgt) : (s.modMgt t f).thermtrip = s.thermtrip := rfl
@[simp] theorem Dev.modMgt_selfOff (s : Dev) (t : Nat) (f : Mgt → Mgt) : (s.modMgt t f).selfOff = s.selfOff := rfl
@[simp] theorem Dev.modMgt_perstLow (s : Dev) (t : Nat) (f : Mgt → Mgt) : (s.modMgt t f).perstLow = s.perstLow := rfl
@[simp] theorem Dev.modMgt_perstReset (s : Dev) (t : Nat) (f : Mgt → Mgt) : (s.modMgt t f).perstReset = s.perstReset := rfl
@[simp] theorem Dev.modMgt_hubReady (s : Dev) (t : Nat) (f : Mgt → Mgt) : (s.modMgt t f).hubReady = s.hubReady := rfl
@[simp] theorem Dev.modMgt_numVfs (s : Dev) (t : Nat) (f : Mgt → Mgt) : (s.modMgt t f).numVfs = s.numVfs := rfl
@[simp] theorem Dev.modMgt_hubHalt (s : Dev) (t : Nat) (f : Mgt → Mgt) : (s.modMgt t f).hubHalt = s.hubHalt := rfl
@[simp] theorem Dev.modMgt_slotId (s : Dev) (t : Nat) (f : Mgt → Mgt) : (s.modMgt t f).slotId = s.slotId := rfl
@[simp] theorem Dev.modMgt_ticket (s : Dev) (t : Nat) (f : Mgt → Mgt) : (s.modMgt t f).ticket = s.ticket := rfl
@[simp] theorem Dev.modMgt_get_reg (s : Dev) (t : Nat) (f : Mgt → Mgt) (j : Nat) : (s.modMgt t f).reg j = s.reg j := rfl
@[simp] theorem Dev.modMgt_get_byte (s : Dev) (t : Nat) (f : Mgt → Mgt) (j : Nat) : (s.modMgt t f).byte j = s.byte j := rfl
@[simp] theorem Dev.modMgt_get_chan (s : Dev) (t : Nat) (f : Mgt → Mgt) (j : Nat) : (s.modMgt t f).chan j = s.chan j := rfl
@[simp] theorem Dev.modMgt_get_clus (s : Dev) (t : Nat) (f : Mgt → Mgt) (j : Nat) : (s.modMgt t f).clus j = s.clus j := rfl
@[simp] theorem Dev.modMgt_get_core (s : Dev) (t : Nat) (f : Mgt → Mgt) (j : Nat) : (s.modMgt t f).core j = s.core j := rfl
@[simp] theorem Dev.modMgt_get_tile (s : Dev) (t : Nat) (f : Mgt → Mgt) (j : Nat) : (s.modMgt t f).tile j = s.tile j := rfl
@[simp] theorem Dev.modMgt_get_ctx (s : Dev) (t : Nat) (f : Mgt → Mgt) (j : Nat) : (s.modMgt t f).ctx j = s.ctx j := rfl
@[simp] theorem Dev.modMgt_get_seq (s : Dev) (t : Nat) (f : Mgt → Mgt) (j : Nat) : (s.modMgt t f).seq j = s.seq j := rfl
@[simp] theorem Dev.modMgt_get_memOf (s : Dev) (t : Nat) (f : Mgt → Mgt) (j : Nat) : (s.modMgt t f).memOf j = s.memOf j := rfl
@[simp] theorem Dev.modMgt_get_dlvOf (s : Dev) (t : Nat) (f : Mgt → Mgt) (j : Nat) : (s.modMgt t f).dlvOf j = s.dlvOf j := rfl
@[simp] theorem Dev.modMgt_get_rd (s : Dev) (t : Nat) (f : Mgt → Mgt) (k' : PageKind) (x i' o' : Nat) : (s.modMgt t f).rd k' x i' o' = s.rd k' x i' o' := rfl
@[simp] theorem Dev.modMgt_get_rdF (s : Dev) (t : Nat) (f : Mgt → Mgt) (k' : PageKind) (x i' o' hi' lo' : Nat) : (s.modMgt t f).rdF k' x i' o' hi' lo' = s.rdF k' x i' o' hi' lo' := rfl
@[simp] theorem Dev.modMgt_get_inForce (s : Dev) (t : Nat) (f : Mgt → Mgt) (k' : PageKind) (x i' o' hi' lo' : Nat) : (s.modMgt t f).inForce k' x i' o' hi' lo' = s.inForce k' x i' o' hi' lo' := rfl

/-! ### modSeq -/

@[simp] theorem Dev.modSeq_out (s : Dev) (r : Nat) (f : Seq → Seq) : (s.modSeq r f).out = s.out := rfl
@[simp] theorem Dev.modSeq_regs (s : Dev) (r : Nat) (f : Seq → Seq) : (s.modSeq r f).regs = s.regs := rfl
@[simp] theorem Dev.modSeq_eff (s : Dev) (r : Nat) (f : Seq → Seq) : (s.modSeq r f).eff = s.eff := rfl
@[simp] theorem Dev.modSeq_latch (s : Dev) (r : Nat) (f : Seq → Seq) : (s.modSeq r f).latch = s.latch := rfl
@[simp] theorem Dev.modSeq_mem (s : Dev) (r : Nat) (f : Seq → Seq) : (s.modSeq r f).mem = s.mem := rfl
@[simp] theorem Dev.modSeq_t0 (s : Dev) (r : Nat) (f : Seq → Seq) : (s.modSeq r f).t0 = s.t0 := rfl
@[simp] theorem Dev.modSeq_cbuf (s : Dev) (r : Nat) (f : Seq → Seq) : (s.modSeq r f).cbuf = s.cbuf := rfl
@[simp] theorem Dev.modSeq_chans (s : Dev) (r : Nat) (f : Seq → Seq) : (s.modSeq r f).chans = s.chans := rfl
@[simp] theorem Dev.modSeq_clusters (s : Dev) (r : Nat) (f : Seq → Seq) : (s.modSeq r f).clusters = s.clusters := rfl
@[simp] theorem Dev.modSeq_cores (s : Dev) (r : Nat) (f : Seq → Seq) : (s.modSeq r f).cores = s.cores := rfl
@[simp] theorem Dev.modSeq_tiles (s : Dev) (r : Nat) (f : Seq → Seq) : (s.modSeq r f).tiles = s.tiles := rfl
@[simp] theorem Dev.modSeq_ctxs (s : Dev) (r : Nat) (f : Seq → Seq) : (s.modSeq r f).ctxs = s.ctxs := rfl
@[simp] theorem Dev.modSeq_trees (s : Dev) (r : Nat) (f : Seq → Seq) : (s.modSeq r f).trees = s.trees := rfl
@[simp] theorem Dev.modSeq_staged (s : Dev) (r : Nat) (f : Seq → Seq) : (s.modSeq r f).staged = s.staged := rfl
@[simp] theorem Dev.modSeq_tamper (s : Dev) (r : Nat) (f : Seq → Seq) : (s.modSeq r f).tamper = s.tamper := rfl
@[simp] theorem Dev.modSeq_rqt (s : Dev) (r : Nat) (f : Seq → Seq) : (s.modSeq r f).rqt = s.rqt := rfl
@[simp] theorem Dev.modSeq_mems (s : Dev) (r : Nat) (f : Seq → Seq) : (s.modSeq r f).mems = s.mems := rfl
@[simp] theorem Dev.modSeq_mgts (s : Dev) (r : Nat) (f : Seq → Seq) : (s.modSeq r f).mgts = s.mgts := rfl
@[simp] theorem Dev.modSeq_fws (s : Dev) (r : Nat) (f : Seq → Seq) : (s.modSeq r f).fws = s.fws := rfl
@[simp] theorem Dev.modSeq_dlv (s : Dev) (r : Nat) (f : Seq → Seq) : (s.modSeq r f).dlv = s.dlv := rfl
@[simp] theorem Dev.modSeq_hubGroups (s : Dev) (r : Nat) (f : Seq → Seq) : (s.modSeq r f).hubGroups = s.hubGroups := rfl
@[simp] theorem Dev.modSeq_time (s : Dev) (r : Nat) (f : Seq → Seq) : (s.modSeq r f).time = s.time := rfl
@[simp] theorem Dev.modSeq_plank (s : Dev) (r : Nat) (f : Seq → Seq) : (s.modSeq r f).plank = s.plank := rfl
@[simp] theorem Dev.modSeq_ftime (s : Dev) (r : Nat) (f : Seq → Seq) : (s.modSeq r f).ftime = s.ftime := rfl
@[simp] theorem Dev.modSeq_mgtNs (s : Dev) (r : Nat) (f : Seq → Seq) : (s.modSeq r f).mgtNs = s.mgtNs := rfl
@[simp] theorem Dev.modSeq_opSecs (s : Dev) (r : Nat) (f : Seq → Seq) : (s.modSeq r f).opSecs = s.opSecs := rfl
@[simp] theorem Dev.modSeq_porCount (s : Dev) (r : Nat) (f : Seq → Seq) : (s.modSeq r f).porCount = s.porCount := rfl
@[simp] theorem Dev.modSeq_vinMeter (s : Dev) (r : Nat) (f : Seq → Seq) : (s.modSeq r f).vinMeter = s.vinMeter := rfl
@[simp] theorem Dev.modSeq_vinHist (s : Dev) (r : Nat) (f : Seq → Seq) : (s.modSeq r f).vinHist = s.vinHist := rfl
@[simp] theorem Dev.modSeq_vinLow (s : Dev) (r : Nat) (f : Seq → Seq) : (s.modSeq r f).vinLow = s.vinLow := rfl
@[simp] theorem Dev.modSeq_aux (s : Dev) (r : Nat) (f : Seq → Seq) : (s.modSeq r f).aux = s.aux := rfl
@[simp] theorem Dev.modSeq_vin (s : Dev) (r : Nat) (f : Seq → Seq) : (s.modSeq r f).vin = s.vin := rfl
@[simp] theorem Dev.modSeq_auxPg (s : Dev) (r : Nat) (f : Seq → Seq) : (s.modSeq r f).auxPg = s.auxPg := rfl
@[simp] theorem Dev.modSeq_thermtrip (s : Dev) (r : Nat) (f : Seq → Seq) : (s.modSeq r f).thermtrip = s.thermtrip := rfl
@[simp] theorem Dev.modSeq_selfOff (s : Dev) (r : Nat) (f : Seq → Seq) : (s.modSeq r f).selfOff = s.selfOff := rfl
@[simp] theorem Dev.modSeq_perstLow (s : Dev) (r : Nat) (f : Seq → Seq) : (s.modSeq r f).perstLow = s.perstLow := rfl
@[simp] theorem Dev.modSeq_perstReset (s : Dev) (r : Nat) (f : Seq → Seq) : (s.modSeq r f).perstReset = s.perstReset := rfl
@[simp] theorem Dev.modSeq_hubReady (s : Dev) (r : Nat) (f : Seq → Seq) : (s.modSeq r f).hubReady = s.hubReady := rfl
@[simp] theorem Dev.modSeq_numVfs (s : Dev) (r : Nat) (f : Seq → Seq) : (s.modSeq r f).numVfs = s.numVfs := rfl
@[simp] theorem Dev.modSeq_hubHalt (s : Dev) (r : Nat) (f : Seq → Seq) : (s.modSeq r f).hubHalt = s.hubHalt := rfl
@[simp] theorem Dev.modSeq_slotId (s : Dev) (r : Nat) (f : Seq → Seq) : (s.modSeq r f).slotId = s.slotId := rfl
@[simp] theorem Dev.modSeq_ticket (s : Dev) (r : Nat) (f : Seq → Seq) : (s.modSeq r f).ticket = s.ticket := rfl
@[simp] theorem Dev.modSeq_get_reg (s : Dev) (r : Nat) (f : Seq → Seq) (j : Nat) : (s.modSeq r f).reg j = s.reg j := rfl
@[simp] theorem Dev.modSeq_get_byte (s : Dev) (r : Nat) (f : Seq → Seq) (j : Nat) : (s.modSeq r f).byte j = s.byte j := rfl
@[simp] theorem Dev.modSeq_get_chan (s : Dev) (r : Nat) (f : Seq → Seq) (j : Nat) : (s.modSeq r f).chan j = s.chan j := rfl
@[simp] theorem Dev.modSeq_get_clus (s : Dev) (r : Nat) (f : Seq → Seq) (j : Nat) : (s.modSeq r f).clus j = s.clus j := rfl
@[simp] theorem Dev.modSeq_get_core (s : Dev) (r : Nat) (f : Seq → Seq) (j : Nat) : (s.modSeq r f).core j = s.core j := rfl
@[simp] theorem Dev.modSeq_get_tile (s : Dev) (r : Nat) (f : Seq → Seq) (j : Nat) : (s.modSeq r f).tile j = s.tile j := rfl
@[simp] theorem Dev.modSeq_get_ctx (s : Dev) (r : Nat) (f : Seq → Seq) (j : Nat) : (s.modSeq r f).ctx j = s.ctx j := rfl
@[simp] theorem Dev.modSeq_get_mgt (s : Dev) (r : Nat) (f : Seq → Seq) (j : Nat) : (s.modSeq r f).mgt j = s.mgt j := rfl
@[simp] theorem Dev.modSeq_get_memOf (s : Dev) (r : Nat) (f : Seq → Seq) (j : Nat) : (s.modSeq r f).memOf j = s.memOf j := rfl
@[simp] theorem Dev.modSeq_get_dlvOf (s : Dev) (r : Nat) (f : Seq → Seq) (j : Nat) : (s.modSeq r f).dlvOf j = s.dlvOf j := rfl
@[simp] theorem Dev.modSeq_get_rd (s : Dev) (r : Nat) (f : Seq → Seq) (k' : PageKind) (x i' o' : Nat) : (s.modSeq r f).rd k' x i' o' = s.rd k' x i' o' := rfl
@[simp] theorem Dev.modSeq_get_rdF (s : Dev) (r : Nat) (f : Seq → Seq) (k' : PageKind) (x i' o' hi' lo' : Nat) : (s.modSeq r f).rdF k' x i' o' hi' lo' = s.rdF k' x i' o' hi' lo' := rfl
@[simp] theorem Dev.modSeq_get_inForce (s : Dev) (r : Nat) (f : Seq → Seq) (k' : PageKind) (x i' o' hi' lo' : Nat) : (s.modSeq r f).inForce k' x i' o' hi' lo' = s.inForce k' x i' o' hi' lo' := rfl

/-! ### modMem -/

@[simp] theorem Dev.modMem_out (s : Dev) (ch : Nat) (f : Mem → Mem) : (s.modMem ch f).out = s.out := rfl
@[simp] theorem Dev.modMem_regs (s : Dev) (ch : Nat) (f : Mem → Mem) : (s.modMem ch f).regs = s.regs := rfl
@[simp] theorem Dev.modMem_eff (s : Dev) (ch : Nat) (f : Mem → Mem) : (s.modMem ch f).eff = s.eff := rfl
@[simp] theorem Dev.modMem_latch (s : Dev) (ch : Nat) (f : Mem → Mem) : (s.modMem ch f).latch = s.latch := rfl
@[simp] theorem Dev.modMem_mem (s : Dev) (ch : Nat) (f : Mem → Mem) : (s.modMem ch f).mem = s.mem := rfl
@[simp] theorem Dev.modMem_t0 (s : Dev) (ch : Nat) (f : Mem → Mem) : (s.modMem ch f).t0 = s.t0 := rfl
@[simp] theorem Dev.modMem_cbuf (s : Dev) (ch : Nat) (f : Mem → Mem) : (s.modMem ch f).cbuf = s.cbuf := rfl
@[simp] theorem Dev.modMem_chans (s : Dev) (ch : Nat) (f : Mem → Mem) : (s.modMem ch f).chans = s.chans := rfl
@[simp] theorem Dev.modMem_clusters (s : Dev) (ch : Nat) (f : Mem → Mem) : (s.modMem ch f).clusters = s.clusters := rfl
@[simp] theorem Dev.modMem_cores (s : Dev) (ch : Nat) (f : Mem → Mem) : (s.modMem ch f).cores = s.cores := rfl
@[simp] theorem Dev.modMem_tiles (s : Dev) (ch : Nat) (f : Mem → Mem) : (s.modMem ch f).tiles = s.tiles := rfl
@[simp] theorem Dev.modMem_ctxs (s : Dev) (ch : Nat) (f : Mem → Mem) : (s.modMem ch f).ctxs = s.ctxs := rfl
@[simp] theorem Dev.modMem_trees (s : Dev) (ch : Nat) (f : Mem → Mem) : (s.modMem ch f).trees = s.trees := rfl
@[simp] theorem Dev.modMem_staged (s : Dev) (ch : Nat) (f : Mem → Mem) : (s.modMem ch f).staged = s.staged := rfl
@[simp] theorem Dev.modMem_tamper (s : Dev) (ch : Nat) (f : Mem → Mem) : (s.modMem ch f).tamper = s.tamper := rfl
@[simp] theorem Dev.modMem_rqt (s : Dev) (ch : Nat) (f : Mem → Mem) : (s.modMem ch f).rqt = s.rqt := rfl
@[simp] theorem Dev.modMem_seqs (s : Dev) (ch : Nat) (f : Mem → Mem) : (s.modMem ch f).seqs = s.seqs := rfl
@[simp] theorem Dev.modMem_mgts (s : Dev) (ch : Nat) (f : Mem → Mem) : (s.modMem ch f).mgts = s.mgts := rfl
@[simp] theorem Dev.modMem_fws (s : Dev) (ch : Nat) (f : Mem → Mem) : (s.modMem ch f).fws = s.fws := rfl
@[simp] theorem Dev.modMem_dlv (s : Dev) (ch : Nat) (f : Mem → Mem) : (s.modMem ch f).dlv = s.dlv := rfl
@[simp] theorem Dev.modMem_hubGroups (s : Dev) (ch : Nat) (f : Mem → Mem) : (s.modMem ch f).hubGroups = s.hubGroups := rfl
@[simp] theorem Dev.modMem_time (s : Dev) (ch : Nat) (f : Mem → Mem) : (s.modMem ch f).time = s.time := rfl
@[simp] theorem Dev.modMem_plank (s : Dev) (ch : Nat) (f : Mem → Mem) : (s.modMem ch f).plank = s.plank := rfl
@[simp] theorem Dev.modMem_ftime (s : Dev) (ch : Nat) (f : Mem → Mem) : (s.modMem ch f).ftime = s.ftime := rfl
@[simp] theorem Dev.modMem_mgtNs (s : Dev) (ch : Nat) (f : Mem → Mem) : (s.modMem ch f).mgtNs = s.mgtNs := rfl
@[simp] theorem Dev.modMem_opSecs (s : Dev) (ch : Nat) (f : Mem → Mem) : (s.modMem ch f).opSecs = s.opSecs := rfl
@[simp] theorem Dev.modMem_porCount (s : Dev) (ch : Nat) (f : Mem → Mem) : (s.modMem ch f).porCount = s.porCount := rfl
@[simp] theorem Dev.modMem_vinMeter (s : Dev) (ch : Nat) (f : Mem → Mem) : (s.modMem ch f).vinMeter = s.vinMeter := rfl
@[simp] theorem Dev.modMem_vinHist (s : Dev) (ch : Nat) (f : Mem → Mem) : (s.modMem ch f).vinHist = s.vinHist := rfl
@[simp] theorem Dev.modMem_vinLow (s : Dev) (ch : Nat) (f : Mem → Mem) : (s.modMem ch f).vinLow = s.vinLow := rfl
@[simp] theorem Dev.modMem_aux (s : Dev) (ch : Nat) (f : Mem → Mem) : (s.modMem ch f).aux = s.aux := rfl
@[simp] theorem Dev.modMem_vin (s : Dev) (ch : Nat) (f : Mem → Mem) : (s.modMem ch f).vin = s.vin := rfl
@[simp] theorem Dev.modMem_auxPg (s : Dev) (ch : Nat) (f : Mem → Mem) : (s.modMem ch f).auxPg = s.auxPg := rfl
@[simp] theorem Dev.modMem_thermtrip (s : Dev) (ch : Nat) (f : Mem → Mem) : (s.modMem ch f).thermtrip = s.thermtrip := rfl
@[simp] theorem Dev.modMem_selfOff (s : Dev) (ch : Nat) (f : Mem → Mem) : (s.modMem ch f).selfOff = s.selfOff := rfl
@[simp] theorem Dev.modMem_perstLow (s : Dev) (ch : Nat) (f : Mem → Mem) : (s.modMem ch f).perstLow = s.perstLow := rfl
@[simp] theorem Dev.modMem_perstReset (s : Dev) (ch : Nat) (f : Mem → Mem) : (s.modMem ch f).perstReset = s.perstReset := rfl
@[simp] theorem Dev.modMem_hubReady (s : Dev) (ch : Nat) (f : Mem → Mem) : (s.modMem ch f).hubReady = s.hubReady := rfl
@[simp] theorem Dev.modMem_numVfs (s : Dev) (ch : Nat) (f : Mem → Mem) : (s.modMem ch f).numVfs = s.numVfs := rfl
@[simp] theorem Dev.modMem_hubHalt (s : Dev) (ch : Nat) (f : Mem → Mem) : (s.modMem ch f).hubHalt = s.hubHalt := rfl
@[simp] theorem Dev.modMem_slotId (s : Dev) (ch : Nat) (f : Mem → Mem) : (s.modMem ch f).slotId = s.slotId := rfl
@[simp] theorem Dev.modMem_ticket (s : Dev) (ch : Nat) (f : Mem → Mem) : (s.modMem ch f).ticket = s.ticket := rfl
@[simp] theorem Dev.modMem_get_reg (s : Dev) (ch : Nat) (f : Mem → Mem) (j : Nat) : (s.modMem ch f).reg j = s.reg j := rfl
@[simp] theorem Dev.modMem_get_byte (s : Dev) (ch : Nat) (f : Mem → Mem) (j : Nat) : (s.modMem ch f).byte j = s.byte j := rfl
@[simp] theorem Dev.modMem_get_chan (s : Dev) (ch : Nat) (f : Mem → Mem) (j : Nat) : (s.modMem ch f).chan j = s.chan j := rfl
@[simp] theorem Dev.modMem_get_clus (s : Dev) (ch : Nat) (f : Mem → Mem) (j : Nat) : (s.modMem ch f).clus j = s.clus j := rfl
@[simp] theorem Dev.modMem_get_core (s : Dev) (ch : Nat) (f : Mem → Mem) (j : Nat) : (s.modMem ch f).core j = s.core j := rfl
@[simp] theorem Dev.modMem_get_tile (s : Dev) (ch : Nat) (f : Mem → Mem) (j : Nat) : (s.modMem ch f).tile j = s.tile j := rfl
@[simp] theorem Dev.modMem_get_ctx (s : Dev) (ch : Nat) (f : Mem → Mem) (j : Nat) : (s.modMem ch f).ctx j = s.ctx j := rfl
@[simp] theorem Dev.modMem_get_mgt (s : Dev) (ch : Nat) (f : Mem → Mem) (j : Nat) : (s.modMem ch f).mgt j = s.mgt j := rfl
@[simp] theorem Dev.modMem_get_seq (s : Dev) (ch : Nat) (f : Mem → Mem) (j : Nat) : (s.modMem ch f).seq j = s.seq j := rfl
@[simp] theorem Dev.modMem_get_dlvOf (s : Dev) (ch : Nat) (f : Mem → Mem) (j : Nat) : (s.modMem ch f).dlvOf j = s.dlvOf j := rfl
@[simp] theorem Dev.modMem_get_rd (s : Dev) (ch : Nat) (f : Mem → Mem) (k' : PageKind) (x i' o' : Nat) : (s.modMem ch f).rd k' x i' o' = s.rd k' x i' o' := rfl
@[simp] theorem Dev.modMem_get_rdF (s : Dev) (ch : Nat) (f : Mem → Mem) (k' : PageKind) (x i' o' hi' lo' : Nat) : (s.modMem ch f).rdF k' x i' o' hi' lo' = s.rdF k' x i' o' hi' lo' := rfl
@[simp] theorem Dev.modMem_get_inForce (s : Dev) (ch : Nat) (f : Mem → Mem) (k' : PageKind) (x i' o' hi' lo' : Nat) : (s.modMem ch f).inForce k' x i' o' hi' lo' = s.inForce k' x i' o' hi' lo' := rfl

/-! ### modDlv -/

@[simp] theorem Dev.modDlv_out (s : Dev) (k : Nat) (f : Dlv → Dlv) : (s.modDlv k f).out = s.out := rfl
@[simp] theorem Dev.modDlv_regs (s : Dev) (k : Nat) (f : Dlv → Dlv) : (s.modDlv k f).regs = s.regs := rfl
@[simp] theorem Dev.modDlv_eff (s : Dev) (k : Nat) (f : Dlv → Dlv) : (s.modDlv k f).eff = s.eff := rfl
@[simp] theorem Dev.modDlv_latch (s : Dev) (k : Nat) (f : Dlv → Dlv) : (s.modDlv k f).latch = s.latch := rfl
@[simp] theorem Dev.modDlv_mem (s : Dev) (k : Nat) (f : Dlv → Dlv) : (s.modDlv k f).mem = s.mem := rfl
@[simp] theorem Dev.modDlv_t0 (s : Dev) (k : Nat) (f : Dlv → Dlv) : (s.modDlv k f).t0 = s.t0 := rfl
@[simp] theorem Dev.modDlv_cbuf (s : Dev) (k : Nat) (f : Dlv → Dlv) : (s.modDlv k f).cbuf = s.cbuf := rfl
@[simp] theorem Dev.modDlv_chans (s : Dev) (k : Nat) (f : Dlv → Dlv) : (s.modDlv k f).chans = s.chans := rfl
@[simp] theorem Dev.modDlv_clusters (s : Dev) (k : Nat) (f : Dlv → Dlv) : (s.modDlv k f).clusters = s.clusters := rfl
@[simp] theorem Dev.modDlv_cores (s : Dev) (k : Nat) (f : Dlv → Dlv) : (s.modDlv k f).cores = s.cores := rfl
@[simp] theorem Dev.modDlv_tiles (s : Dev) (k : Nat) (f : Dlv → Dlv) : (s.modDlv k f).tiles = s.tiles := rfl
@[simp] theorem Dev.modDlv_ctxs (s : Dev) (k : Nat) (f : Dlv → Dlv) : (s.modDlv k f).ctxs = s.ctxs := rfl
@[simp] theorem Dev.modDlv_trees (s : Dev) (k : Nat) (f : Dlv → Dlv) : (s.modDlv k f).trees = s.trees := rfl
@[simp] theorem Dev.modDlv_staged (s : Dev) (k : Nat) (f : Dlv → Dlv) : (s.modDlv k f).staged = s.staged := rfl
@[simp] theorem Dev.modDlv_tamper (s : Dev) (k : Nat) (f : Dlv → Dlv) : (s.modDlv k f).tamper = s.tamper := rfl
@[simp] theorem Dev.modDlv_rqt (s : Dev) (k : Nat) (f : Dlv → Dlv) : (s.modDlv k f).rqt = s.rqt := rfl
@[simp] theorem Dev.modDlv_seqs (s : Dev) (k : Nat) (f : Dlv → Dlv) : (s.modDlv k f).seqs = s.seqs := rfl
@[simp] theorem Dev.modDlv_mems (s : Dev) (k : Nat) (f : Dlv → Dlv) : (s.modDlv k f).mems = s.mems := rfl
@[simp] theorem Dev.modDlv_mgts (s : Dev) (k : Nat) (f : Dlv → Dlv) : (s.modDlv k f).mgts = s.mgts := rfl
@[simp] theorem Dev.modDlv_fws (s : Dev) (k : Nat) (f : Dlv → Dlv) : (s.modDlv k f).fws = s.fws := rfl
@[simp] theorem Dev.modDlv_hubGroups (s : Dev) (k : Nat) (f : Dlv → Dlv) : (s.modDlv k f).hubGroups = s.hubGroups := rfl
@[simp] theorem Dev.modDlv_time (s : Dev) (k : Nat) (f : Dlv → Dlv) : (s.modDlv k f).time = s.time := rfl
@[simp] theorem Dev.modDlv_plank (s : Dev) (k : Nat) (f : Dlv → Dlv) : (s.modDlv k f).plank = s.plank := rfl
@[simp] theorem Dev.modDlv_ftime (s : Dev) (k : Nat) (f : Dlv → Dlv) : (s.modDlv k f).ftime = s.ftime := rfl
@[simp] theorem Dev.modDlv_mgtNs (s : Dev) (k : Nat) (f : Dlv → Dlv) : (s.modDlv k f).mgtNs = s.mgtNs := rfl
@[simp] theorem Dev.modDlv_opSecs (s : Dev) (k : Nat) (f : Dlv → Dlv) : (s.modDlv k f).opSecs = s.opSecs := rfl
@[simp] theorem Dev.modDlv_porCount (s : Dev) (k : Nat) (f : Dlv → Dlv) : (s.modDlv k f).porCount = s.porCount := rfl
@[simp] theorem Dev.modDlv_vinMeter (s : Dev) (k : Nat) (f : Dlv → Dlv) : (s.modDlv k f).vinMeter = s.vinMeter := rfl
@[simp] theorem Dev.modDlv_vinHist (s : Dev) (k : Nat) (f : Dlv → Dlv) : (s.modDlv k f).vinHist = s.vinHist := rfl
@[simp] theorem Dev.modDlv_vinLow (s : Dev) (k : Nat) (f : Dlv → Dlv) : (s.modDlv k f).vinLow = s.vinLow := rfl
@[simp] theorem Dev.modDlv_aux (s : Dev) (k : Nat) (f : Dlv → Dlv) : (s.modDlv k f).aux = s.aux := rfl
@[simp] theorem Dev.modDlv_vin (s : Dev) (k : Nat) (f : Dlv → Dlv) : (s.modDlv k f).vin = s.vin := rfl
@[simp] theorem Dev.modDlv_auxPg (s : Dev) (k : Nat) (f : Dlv → Dlv) : (s.modDlv k f).auxPg = s.auxPg := rfl
@[simp] theorem Dev.modDlv_thermtrip (s : Dev) (k : Nat) (f : Dlv → Dlv) : (s.modDlv k f).thermtrip = s.thermtrip := rfl
@[simp] theorem Dev.modDlv_selfOff (s : Dev) (k : Nat) (f : Dlv → Dlv) : (s.modDlv k f).selfOff = s.selfOff := rfl
@[simp] theorem Dev.modDlv_perstLow (s : Dev) (k : Nat) (f : Dlv → Dlv) : (s.modDlv k f).perstLow = s.perstLow := rfl
@[simp] theorem Dev.modDlv_perstReset (s : Dev) (k : Nat) (f : Dlv → Dlv) : (s.modDlv k f).perstReset = s.perstReset := rfl
@[simp] theorem Dev.modDlv_hubReady (s : Dev) (k : Nat) (f : Dlv → Dlv) : (s.modDlv k f).hubReady = s.hubReady := rfl
@[simp] theorem Dev.modDlv_numVfs (s : Dev) (k : Nat) (f : Dlv → Dlv) : (s.modDlv k f).numVfs = s.numVfs := rfl
@[simp] theorem Dev.modDlv_hubHalt (s : Dev) (k : Nat) (f : Dlv → Dlv) : (s.modDlv k f).hubHalt = s.hubHalt := rfl
@[simp] theorem Dev.modDlv_slotId (s : Dev) (k : Nat) (f : Dlv → Dlv) : (s.modDlv k f).slotId = s.slotId := rfl
@[simp] theorem Dev.modDlv_ticket (s : Dev) (k : Nat) (f : Dlv → Dlv) : (s.modDlv k f).ticket = s.ticket := rfl
@[simp] theorem Dev.modDlv_get_reg (s : Dev) (k : Nat) (f : Dlv → Dlv) (j : Nat) : (s.modDlv k f).reg j = s.reg j := rfl
@[simp] theorem Dev.modDlv_get_byte (s : Dev) (k : Nat) (f : Dlv → Dlv) (j : Nat) : (s.modDlv k f).byte j = s.byte j := rfl
@[simp] theorem Dev.modDlv_get_chan (s : Dev) (k : Nat) (f : Dlv → Dlv) (j : Nat) : (s.modDlv k f).chan j = s.chan j := rfl
@[simp] theorem Dev.modDlv_get_clus (s : Dev) (k : Nat) (f : Dlv → Dlv) (j : Nat) : (s.modDlv k f).clus j = s.clus j := rfl
@[simp] theorem Dev.modDlv_get_core (s : Dev) (k : Nat) (f : Dlv → Dlv) (j : Nat) : (s.modDlv k f).core j = s.core j := rfl
@[simp] theorem Dev.modDlv_get_tile (s : Dev) (k : Nat) (f : Dlv → Dlv) (j : Nat) : (s.modDlv k f).tile j = s.tile j := rfl
@[simp] theorem Dev.modDlv_get_ctx (s : Dev) (k : Nat) (f : Dlv → Dlv) (j : Nat) : (s.modDlv k f).ctx j = s.ctx j := rfl
@[simp] theorem Dev.modDlv_get_mgt (s : Dev) (k : Nat) (f : Dlv → Dlv) (j : Nat) : (s.modDlv k f).mgt j = s.mgt j := rfl
@[simp] theorem Dev.modDlv_get_seq (s : Dev) (k : Nat) (f : Dlv → Dlv) (j : Nat) : (s.modDlv k f).seq j = s.seq j := rfl
@[simp] theorem Dev.modDlv_get_memOf (s : Dev) (k : Nat) (f : Dlv → Dlv) (j : Nat) : (s.modDlv k f).memOf j = s.memOf j := rfl
@[simp] theorem Dev.modDlv_get_rd (s : Dev) (k : Nat) (f : Dlv → Dlv) (k' : PageKind) (x i' o' : Nat) : (s.modDlv k f).rd k' x i' o' = s.rd k' x i' o' := rfl
@[simp] theorem Dev.modDlv_get_rdF (s : Dev) (k : Nat) (f : Dlv → Dlv) (k' : PageKind) (x i' o' hi' lo' : Nat) : (s.modDlv k f).rdF k' x i' o' hi' lo' = s.rdF k' x i' o' hi' lo' := rfl
@[simp] theorem Dev.modDlv_get_inForce (s : Dev) (k : Nat) (f : Dlv → Dlv) (k' : PageKind) (x i' o' hi' lo' : Nat) : (s.modDlv k f).inForce k' x i' o' hi' lo' = s.inForce k' x i' o' hi' lo' := rfl

/-! ### Parts after their own updates -/

@[simp] theorem Dev.modChan_same (s : Dev) (k : Nat) (f : Chan → Chan) : (s.modChan k f).chan k = f (s.chan k) := Store.get_set_same Chan.fresh ..
theorem Dev.modChan_other (s : Dev) {k j : Nat} (h : j ≠ k) (f : Chan → Chan) : (s.modChan k f).chan j = s.chan j := Store.get_set_other Chan.fresh h ..
@[simp] theorem Dev.modClus_same (s : Dev) (k : Nat) (f : Cluster → Cluster) : (s.modClus k f).clus k = f (s.clus k) := Store.get_set_same Cluster.fresh ..
theorem Dev.modClus_other (s : Dev) {k j : Nat} (h : j ≠ k) (f : Cluster → Cluster) : (s.modClus k f).clus j = s.clus j := Store.get_set_other Cluster.fresh h ..
@[simp] theorem Dev.modCore_same (s : Dev) (k : Nat) (f : Core → Core) : (s.modCore k f).core k = f (s.core k) := Store.get_set_same Core.fresh ..
theorem Dev.modCore_other (s : Dev) {k j : Nat} (h : j ≠ k) (f : Core → Core) : (s.modCore k f).core j = s.core j := Store.get_set_other Core.fresh h ..
@[simp] theorem Dev.modTile_same (s : Dev) (k : Nat) (f : Tile → Tile) : (s.modTile k f).tile k = f (s.tile k) := Store.get_setD_same Tile.reset ..
theorem Dev.modTile_other (s : Dev) {k j : Nat} (h : j ≠ k) (f : Tile → Tile) : (s.modTile k f).tile j = s.tile j := Store.get_setD_other Tile.reset h ..
@[simp] theorem Dev.modCtx_same (s : Dev) (k : Nat) (f : Ctx → Ctx) : (s.modCtx k f).ctx k = f (s.ctx k) := Store.get_set_same Ctx.fresh ..
theorem Dev.modCtx_other (s : Dev) {k j : Nat} (h : j ≠ k) (f : Ctx → Ctx) : (s.modCtx k f).ctx j = s.ctx j := Store.get_set_other Ctx.fresh h ..
@[simp] theorem Dev.modMgt_same (s : Dev) (k : Nat) (f : Mgt → Mgt) : (s.modMgt k f).mgt k = f (s.mgt k) := Store.get_set_same Mgt.fresh ..
theorem Dev.modMgt_other (s : Dev) {k j : Nat} (h : j ≠ k) (f : Mgt → Mgt) : (s.modMgt k f).mgt j = s.mgt j := Store.get_set_other Mgt.fresh h ..
@[simp] theorem Dev.modSeq_same (s : Dev) (k : Nat) (f : Seq → Seq) : (s.modSeq k f).seq k = f (s.seq k) := Store.get_set_same Seq.fresh ..
theorem Dev.modSeq_other (s : Dev) {k j : Nat} (h : j ≠ k) (f : Seq → Seq) : (s.modSeq k f).seq j = s.seq j := Store.get_set_other Seq.fresh h ..
@[simp] theorem Dev.modMem_same (s : Dev) (k : Nat) (f : Mem → Mem) : (s.modMem k f).memOf k = f (s.memOf k) := Store.get_set_same Mem.fresh ..
theorem Dev.modMem_other (s : Dev) {k j : Nat} (h : j ≠ k) (f : Mem → Mem) : (s.modMem k f).memOf j = s.memOf j := Store.get_set_other Mem.fresh h ..
@[simp] theorem Dev.modDlv_same (s : Dev) (k : Nat) (f : Dlv → Dlv) : (s.modDlv k f).dlvOf k = f (s.dlvOf k) := Store.get_set_same Dlv.fresh ..
theorem Dev.modDlv_other (s : Dev) {k j : Nat} (h : j ≠ k) (f : Dlv → Dlv) : (s.modDlv k f).dlvOf j = s.dlvOf j := Store.get_set_other Dlv.fresh h ..

/-! ### Registers and memory -/

@[simp] theorem Dev.setReg_reg_same (s : Dev) (a : Nat) (w : Word) : (s.setReg a w).reg a = w := Store.get_setD_same regReset ..
theorem Dev.setReg_reg_other (s : Dev) {a b : Nat} (h : b ≠ a) (w : Word) : (s.setReg a w).reg b = s.reg b :=
  Store.get_setD_other regReset h ..
@[simp] theorem Dev.wr_rd_same (s : Dev) (k : PageKind) (ch inst o : Nat) (w : Word) : (s.wr k ch inst o w).rd k ch inst o = w :=
  s.setReg_reg_same ..
theorem Dev.wr_reg_other (s : Dev) {k : PageKind} {ch inst o b : Nat} (h : b ≠ pageOff k ch inst o) (w : Word) :
    (s.wr k ch inst o w).reg b = s.reg b := s.setReg_reg_other h w
theorem Dev.wr_rd_other (s : Dev) {k k' : PageKind} {ch inst o c i p : Nat} (h : pageOff k' c i p ≠ pageOff k ch inst o) (w : Word) :
    (s.wr k ch inst o w).rd k' c i p = s.rd k' c i p := s.setReg_reg_other h w
/-- A counter that is bumped leaves every register but its own two words alone. -/
theorem Dev.bump_reg_other (s : Dev) {k : PageKind} {ch inst o n b : Nat} (h : b ≠ pageOff k ch inst o)
    (h' : b ≠ pageOff k ch inst (o + 4)) : (s.bump k ch inst o n).reg b = s.reg b := by
  unfold Dev.bump
  split
  · rfl
  · unfold Dev.wr64; rw [Dev.wr_reg_other _ h', Dev.wr_reg_other _ h]

@[simp] theorem Dev.setByte_byte_same (s : Dev) (a : Nat) (b : Byte) : (s.setByte a b).byte a = b := Store.get_set_same ..
theorem Dev.setByte_byte_other (s : Dev) {a c : Nat} (h : c ≠ a) (b : Byte) : (s.setByte a b).byte c = s.byte c :=
  Store.get_set_other 0 h ..
theorem Dev.zero_byte (s : Dev) (a n c : Nat) : (s.zero a n).byte c = if a ≤ c ∧ c < a + n then 0 else s.byte c :=
  Store.get_drop ..

/-! ### setBytes -/

@[simp] theorem Dev.setBytes_out (s : Dev) (a : Nat) (bs : List Byte) : (s.setBytes a bs).out = s.out := by
  induction bs generalizing s a with
  | nil => rfl
  | cons b bs ih => simp [Dev.setBytes, ih]
@[simp] theorem Dev.setBytes_regs (s : Dev) (a : Nat) (bs : List Byte) : (s.setBytes a bs).regs = s.regs := by
  induction bs generalizing s a with
  | nil => rfl
  | cons b bs ih => simp [Dev.setBytes, ih]
@[simp] theorem Dev.setBytes_eff (s : Dev) (a : Nat) (bs : List Byte) : (s.setBytes a bs).eff = s.eff := by
  induction bs generalizing s a with
  | nil => rfl
  | cons b bs ih => simp [Dev.setBytes, ih]
@[simp] theorem Dev.setBytes_latch (s : Dev) (a : Nat) (bs : List Byte) : (s.setBytes a bs).latch = s.latch := by
  induction bs generalizing s a with
  | nil => rfl
  | cons b bs ih => simp [Dev.setBytes, ih]
@[simp] theorem Dev.setBytes_t0 (s : Dev) (a : Nat) (bs : List Byte) : (s.setBytes a bs).t0 = s.t0 := by
  induction bs generalizing s a with
  | nil => rfl
  | cons b bs ih => simp [Dev.setBytes, ih]
@[simp] theorem Dev.setBytes_cbuf (s : Dev) (a : Nat) (bs : List Byte) : (s.setBytes a bs).cbuf = s.cbuf := by
  induction bs generalizing s a with
  | nil => rfl
  | cons b bs ih => simp [Dev.setBytes, ih]
@[simp] theorem Dev.setBytes_chans (s : Dev) (a : Nat) (bs : List Byte) : (s.setBytes a bs).chans = s.chans := by
  induction bs generalizing s a with
  | nil => rfl
  | cons b bs ih => simp [Dev.setBytes, ih]
@[simp] theorem Dev.setBytes_clusters (s : Dev) (a : Nat) (bs : List Byte) : (s.setBytes a bs).clusters = s.clusters := by
  induction bs generalizing s a with
  | nil => rfl
  | cons b bs ih => simp [Dev.setBytes, ih]
@[simp] theorem Dev.setBytes_cores (s : Dev) (a : Nat) (bs : List Byte) : (s.setBytes a bs).cores = s.cores := by
  induction bs generalizing s a with
  | nil => rfl
  | cons b bs ih => simp [Dev.setBytes, ih]
@[simp] theorem Dev.setBytes_tiles (s : Dev) (a : Nat) (bs : List Byte) : (s.setBytes a bs).tiles = s.tiles := by
  induction bs generalizing s a with
  | nil => rfl
  | cons b bs ih => simp [Dev.setBytes, ih]
@[simp] theorem Dev.setBytes_ctxs (s : Dev) (a : Nat) (bs : List Byte) : (s.setBytes a bs).ctxs = s.ctxs := by
  induction bs generalizing s a with
  | nil => rfl
  | cons b bs ih => simp [Dev.setBytes, ih]
@[simp] theorem Dev.setBytes_trees (s : Dev) (a : Nat) (bs : List Byte) : (s.setBytes a bs).trees = s.trees := by
  induction bs generalizing s a with
  | nil => rfl
  | cons b bs ih => simp [Dev.setBytes, ih]
@[simp] theorem Dev.setBytes_staged (s : Dev) (a : Nat) (bs : List Byte) : (s.setBytes a bs).staged = s.staged := by
  induction bs generalizing s a with
  | nil => rfl
  | cons b bs ih => simp [Dev.setBytes, ih]
@[simp] theorem Dev.setBytes_tamper (s : Dev) (a : Nat) (bs : List Byte) : (s.setBytes a bs).tamper = s.tamper := by
  induction bs generalizing s a with
  | nil => rfl
  | cons b bs ih => simp [Dev.setBytes, ih]
@[simp] theorem Dev.setBytes_rqt (s : Dev) (a : Nat) (bs : List Byte) : (s.setBytes a bs).rqt = s.rqt := by
  induction bs generalizing s a with
  | nil => rfl
  | cons b bs ih => simp [Dev.setBytes, ih]
@[simp] theorem Dev.setBytes_seqs (s : Dev) (a : Nat) (bs : List Byte) : (s.setBytes a bs).seqs = s.seqs := by
  induction bs generalizing s a with
  | nil => rfl
  | cons b bs ih => simp [Dev.setBytes, ih]
@[simp] theorem Dev.setBytes_mems (s : Dev) (a : Nat) (bs : List Byte) : (s.setBytes a bs).mems = s.mems := by
  induction bs generalizing s a with
  | nil => rfl
  | cons b bs ih => simp [Dev.setBytes, ih]
@[simp] theorem Dev.setBytes_mgts (s : Dev) (a : Nat) (bs : List Byte) : (s.setBytes a bs).mgts = s.mgts := by
  induction bs generalizing s a with
  | nil => rfl
  | cons b bs ih => simp [Dev.setBytes, ih]
@[simp] theorem Dev.setBytes_fws (s : Dev) (a : Nat) (bs : List Byte) : (s.setBytes a bs).fws = s.fws := by
  induction bs generalizing s a with
  | nil => rfl
  | cons b bs ih => simp [Dev.setBytes, ih]
@[simp] theorem Dev.setBytes_dlv (s : Dev) (a : Nat) (bs : List Byte) : (s.setBytes a bs).dlv = s.dlv := by
  induction bs generalizing s a with
  | nil => rfl
  | cons b bs ih => simp [Dev.setBytes, ih]
@[simp] theorem Dev.setBytes_hubGroups (s : Dev) (a : Nat) (bs : List Byte) : (s.setBytes a bs).hubGroups = s.hubGroups := by
  induction bs generalizing s a with
  | nil => rfl
  | cons b bs ih => simp [Dev.setBytes, ih]
@[simp] theorem Dev.setBytes_time (s : Dev) (a : Nat) (bs : List Byte) : (s.setBytes a bs).time = s.time := by
  induction bs generalizing s a with
  | nil => rfl
  | cons b bs ih => simp [Dev.setBytes, ih]
@[simp] theorem Dev.setBytes_plank (s : Dev) (a : Nat) (bs : List Byte) : (s.setBytes a bs).plank = s.plank := by
  induction bs generalizing s a with
  | nil => rfl
  | cons b bs ih => simp [Dev.setBytes, ih]
@[simp] theorem Dev.setBytes_ftime (s : Dev) (a : Nat) (bs : List Byte) : (s.setBytes a bs).ftime = s.ftime := by
  induction bs generalizing s a with
  | nil => rfl
  | cons b bs ih => simp [Dev.setBytes, ih]
@[simp] theorem Dev.setBytes_mgtNs (s : Dev) (a : Nat) (bs : List Byte) : (s.setBytes a bs).mgtNs = s.mgtNs := by
  induction bs generalizing s a with
  | nil => rfl
  | cons b bs ih => simp [Dev.setBytes, ih]
@[simp] theorem Dev.setBytes_opSecs (s : Dev) (a : Nat) (bs : List Byte) : (s.setBytes a bs).opSecs = s.opSecs := by
  induction bs generalizing s a with
  | nil => rfl
  | cons b bs ih => simp [Dev.setBytes, ih]
@[simp] theorem Dev.setBytes_porCount (s : Dev) (a : Nat) (bs : List Byte) : (s.setBytes a bs).porCount = s.porCount := by
  induction bs generalizing s a with
  | nil => rfl
  | cons b bs ih => simp [Dev.setBytes, ih]
@[simp] theorem Dev.setBytes_vinMeter (s : Dev) (a : Nat) (bs : List Byte) : (s.setBytes a bs).vinMeter = s.vinMeter := by
  induction bs generalizing s a with
  | nil => rfl
  | cons b bs ih => simp [Dev.setBytes, ih]
@[simp] theorem Dev.setBytes_vinHist (s : Dev) (a : Nat) (bs : List Byte) : (s.setBytes a bs).vinHist = s.vinHist := by
  induction bs generalizing s a with
  | nil => rfl
  | cons b bs ih => simp [Dev.setBytes, ih]
@[simp] theorem Dev.setBytes_vinLow (s : Dev) (a : Nat) (bs : List Byte) : (s.setBytes a bs).vinLow = s.vinLow := by
  induction bs generalizing s a with
  | nil => rfl
  | cons b bs ih => simp [Dev.setBytes, ih]
@[simp] theorem Dev.setBytes_aux (s : Dev) (a : Nat) (bs : List Byte) : (s.setBytes a bs).aux = s.aux := by
  induction bs generalizing s a with
  | nil => rfl
  | cons b bs ih => simp [Dev.setBytes, ih]
@[simp] theorem Dev.setBytes_vin (s : Dev) (a : Nat) (bs : List Byte) : (s.setBytes a bs).vin = s.vin := by
  induction bs generalizing s a with
  | nil => rfl
  | cons b bs ih => simp [Dev.setBytes, ih]
@[simp] theorem Dev.setBytes_auxPg (s : Dev) (a : Nat) (bs : List Byte) : (s.setBytes a bs).auxPg = s.auxPg := by
  induction bs generalizing s a with
  | nil => rfl
  | cons b bs ih => simp [Dev.setBytes, ih]
@[simp] theorem Dev.setBytes_thermtrip (s : Dev) (a : Nat) (bs : List Byte) : (s.setBytes a bs).thermtrip = s.thermtrip := by
  induction bs generalizing s a with
  | nil => rfl
  | cons b bs ih => simp [Dev.setBytes, ih]
@[simp] theorem Dev.setBytes_selfOff (s : Dev) (a : Nat) (bs : List Byte) : (s.setBytes a bs).selfOff = s.selfOff := by
  induction bs generalizing s a with
  | nil => rfl
  | cons b bs ih => simp [Dev.setBytes, ih]
@[simp] theorem Dev.setBytes_perstLow (s : Dev) (a : Nat) (bs : List Byte) : (s.setBytes a bs).perstLow = s.perstLow := by
  induction bs generalizing s a with
  | nil => rfl
  | cons b bs ih => simp [Dev.setBytes, ih]
@[simp] theorem Dev.setBytes_perstReset (s : Dev) (a : Nat) (bs : List Byte) : (s.setBytes a bs).perstReset = s.perstReset := by
  induction bs generalizing s a with
  | nil => rfl
  | cons b bs ih => simp [Dev.setBytes, ih]
@[simp] theorem Dev.setBytes_hubReady (s : Dev) (a : Nat) (bs : List Byte) : (s.setBytes a bs).hubReady = s.hubReady := by
  induction bs generalizing s a with
  | nil => rfl
  | cons b bs ih => simp [Dev.setBytes, ih]
@[simp] theorem Dev.setBytes_numVfs (s : Dev) (a : Nat) (bs : List Byte) : (s.setBytes a bs).numVfs = s.numVfs := by
  induction bs generalizing s a with
  | nil => rfl
  | cons b bs ih => simp [Dev.setBytes, ih]
@[simp] theorem Dev.setBytes_hubHalt (s : Dev) (a : Nat) (bs : List Byte) : (s.setBytes a bs).hubHalt = s.hubHalt := by
  induction bs generalizing s a with
  | nil => rfl
  | cons b bs ih => simp [Dev.setBytes, ih]
@[simp] theorem Dev.setBytes_slotId (s : Dev) (a : Nat) (bs : List Byte) : (s.setBytes a bs).slotId = s.slotId := by
  induction bs generalizing s a with
  | nil => rfl
  | cons b bs ih => simp [Dev.setBytes, ih]
@[simp] theorem Dev.setBytes_ticket (s : Dev) (a : Nat) (bs : List Byte) : (s.setBytes a bs).ticket = s.ticket := by
  induction bs generalizing s a with
  | nil => rfl
  | cons b bs ih => simp [Dev.setBytes, ih]

/-! ### The answer of a command -/

@[simp] theorem State.done_eq (s : State) (m : Dev) : s.done m = .next { s with m := m.settle } := rfl
@[simp] theorem Dev.only_true (s : Dev) (f : Dev → Dev) : s.only true f = f s := rfl
@[simp] theorem Dev.only_false (s : Dev) (f : Dev → Dev) : s.only false f = s := rfl

end Sys2Proof.Machine
end

