-- ==== Sys2Proof/Laws/Settle.lean ====
section
/-! SUPPORT. What settling a command does: nothing where no change of fault state waits, and after it none waits. -/

namespace Sys2Proof.Machine
open Sys2Proof

@[simp] theorem Chan.undue_due (c : Chan) : c.undue.due = false := rfl
@[simp] theorem Chan.fresh_due : Chan.fresh.due = false := rfl

theorem Dev.settled_iff (m : Dev) : m.Settled ↔ (m.chans.any fun e => e.2.due) = false := by
  simp [Dev.Settled]

/-- Where nothing waits, settling changes nothing. -/
theorem Dev.settle_of_settled {m : Dev} (h : m.Settled) : m.settle = m := by
  rw [Dev.settled_iff] at h
  rw [Dev.settle, Dev.settleFor, if_neg (by simp [h])]

/-- After settling nothing waits, however many rounds it takes. -/
theorem Dev.settleFor_settled (n : Nat) : ∀ m : Dev, (m.settleFor n).Settled := by
  induction n with
  | zero =>
    intro m
    simp only [Dev.settleFor, Dev.Settled, List.all_eq_true]
    intro e he
    simp only [Store.mapV, List.mem_filterMap] at he
    obtain ⟨x, _, hx⟩ := he
    split at hx
    · exact absurd hx (by simp)
    · cases hx; rfl
  | succ n ih =>
    intro m
    rw [Dev.settleFor]
    split
    · exact ih _
    · rename_i h; rw [Dev.settled_iff]; simpa using h

theorem Dev.settle_settled (m : Dev) : m.settle.Settled := Dev.settleFor_settled 16 m

/-- Whether anything waits depends on the channels alone. -/
theorem Dev.Settled.of_chans {m n : Dev} (h : m.Settled) (e : n.chans = m.chans) : n.Settled := by
  unfold Dev.Settled at h ⊢; rw [e]; exact h

theorem Store.mem_put_due {k : Nat} {c : Chan} (hc : c.due = false) {m : Store Chan} (h : ∀ e ∈ m, e.2.due = false) :
    ∀ e ∈ m.put k c, e.2.due = false := by
  induction m with
  | nil => intro e he; simp [Store.put] at he; subst he; exact hc
  | cons x m ih =>
    obtain ⟨j, w⟩ := x
    intro e he
    simp only [Store.put] at he
    have hm : ∀ e ∈ m, e.2.due = false := fun e he => h e (List.mem_cons_of_mem _ he)
    split at he
    · rcases List.mem_cons.1 he with rfl | he
      · exact hc
      · exact hm e he
    · split at he
      · rcases List.mem_cons.1 he with rfl | he
        · exact hc
        · exact h e he
      · rcases List.mem_cons.1 he with rfl | he
        · exact h _ (List.mem_cons_self ..)
        · exact ih hm e he

theorem Store.mem_of_mem_erase {α : Type} {k : Nat} {m : Store α} {e : Nat × α} (h : e ∈ m.erase k) : e ∈ m := by
  induction m with
  | nil => exact h
  | cons x m ih =>
    obtain ⟨j, w⟩ := x
    simp only [Store.erase] at h
    split at h
    · exact List.mem_cons_of_mem _ (ih h)
    · rcases List.mem_cons.1 h with rfl | h
      · exact List.mem_cons_self ..
      · exact List.mem_cons_of_mem _ (ih h)

theorem Store.get_due {k : Nat} {m : Store Chan} (h : ∀ e ∈ m, e.2.due = false) : (m.get Chan.fresh k).due = false := by
  induction m with
  | nil => rfl
  | cons x m ih =>
    obtain ⟨j, w⟩ := x
    simp only [Store.get]
    split
    · exact h _ (List.mem_cons_self ..)
    · exact ih fun e he => h e (List.mem_cons_of_mem _ he)

/-- Nothing waits in any channel of a settled module. -/
theorem Dev.Settled.chan {m : Dev} (h : m.Settled) (ch : Nat) : (m.chan ch).due = false :=
  Store.get_due fun e he => by simpa using List.all_eq_true.1 h e he

/-- An update of a channel that leaves nothing waiting there keeps the module settled. -/
theorem Dev.Settled.modChan {m : Dev} (h : m.Settled) {ch : Nat} {f : Chan → Chan} (hf : (f (m.chan ch)).due = false) :
    (m.modChan ch f).Settled := by
  have hm : ∀ e ∈ m.chans, e.2.due = false := fun e he => by simpa using List.all_eq_true.1 h e he
  refine List.all_eq_true.2 fun e he => ?_
  simp only [Dev.modChan, Store.set, Store.setD] at he
  split at he
  · simpa using hm e (Store.mem_of_mem_erase he)
  · simpa using Store.mem_put_due hf hm e he

/-- A command whose effect leaves nothing waiting answers exactly that effect. -/
theorem State.done_of_settled (s : State) {m : Dev} (h : m.Settled) : s.done m = .next { s with m := m } := by
  rw [State.done, Dev.settle_of_settled h]

theorem Dev.reset_settled : Dev.reset.Settled := rfl

end Sys2Proof.Machine
end

