-- ==== Sys2Proof/Tests/States.lean ====
section
/-! SUPPORT. Small states for the tests: the module after a start, and what single tests add to it. -/

namespace Sys2Proof.Tests
open Sys2Proof Sys2Proof.Machine

/-- A state with its module changed. -/
@[noinline] def on (s : State) (f : Dev → Dev) : State := ⟨s.pending, f s.m⟩

/-- Both supplies are there, every controller acknowledges at an address of its own, and every hub link is up. -/
def cold : State := ⟨[], { Dev.reset with
  vin := true, auxPg := true, perstLow := false,
  chans := (List.range 8).map fun c => (c, { Chan.fresh with linkUp := true }),
  mgts := (List.range 9).map fun t => (t, { Mgt.fresh with acks := true, da := some (t + 8) }) }⟩

/-- The hub answers. -/
def hubUp : State := on cold fun m => { m with hubReady := true }

/-- Channel 0 is READY. -/
def up : State := on hubUp fun m => m.wr .pwrCh 0 0 Off.PWR_CH_STA 4

/-- A setting of channel 0's pages, in force since the last boundary. -/
@[noinline] def set (k : PageKind) (inst o hi lo v : Nat) (s : State) : State :=
  on s fun m => let m := m.wrF k 0 inst o hi lo v; { m with eff := m.regs }

/-- The source of channel 0 acts at RECORD. -/
@[noinline] def rec (ix : Nat) (s : State) : State :=
  let (k, n) := collector ix
  on s fun m => m.wrF k 0 0 Off.PG_SEV0 (2 * n + 1) (2 * n) 0

/-- A source of channel 0 acts at a severity. -/
@[noinline] def sev (ix v : Nat) (s : State) : State :=
  let (k, n) := collector ix
  on s fun m => m.wrF k 0 0 Off.PG_SEV0 (2 * n + 1) (2 * n) v

/-- Channel 0 is in a fault state. -/
@[noinline] def flt (st : Nat) (s : State) : State := on s fun m => m.wrF .fltCh 0 0 Off.FLT_STA 1 0 st

/-- The Pemor monitor of channel 0 at a level, enabled. -/
@[noinline] def pemAt (l : PemorLevel) (s : State) : State :=
  on s fun m => (m.wrF .mgtCh 0 0 Off.MGT_CTL 1 0 3).modPem 0 fun p => { p with level := l }

/-- A layer of one block of 256 rows and columns, on no tile. -/
def layer0 : Layer where
  kind := 0
  draft := false
  modelOk := true
  spillOk := true
  splitCh := false
  dup := false
  rows := 256
  cols := 256
  maxReads := 4
  confLim4 := 16
  inScale := F32.one
  wScale := F32.one
  outMul := 0
  rotE := 0
  satLim := 0
  zerLim := 0
  kvFmt := 4
  kvE := 0
  rotSeed := 0
  qkSeed := 0
  vSeed := 0
  tree := 0
  w5Off := 0
  resOff := 0
  resCnt := 0
  vecOff := none
  attKind := 0
  win := 0
  glbMode := 0
  glbStride := 1
  ng := 0
  hKv := 1
  g := 1
  dH := 64
  hpc := 1
  segLen := 256
  qblk := 0
  qfmt := 3
  bfmt := 0
  smScale := F32.one
  moeK := 0
  nExpert := 0
  stateBytes := 0
  blocks := [⟨0, 0, 256, 1, 1, 0, 256, 256, 0, 0, 1, 0, 0, 0, [0]⟩]
  spill := false
  switched := false
  inPlace := false
  programming := false

/-- An attention layer. -/
def attn0 : Layer := { layer0 with kind := 2, blocks := [] }

/-- A pattern of these two layers. -/
def pat0 : Pattern where
  maxLen := 4096
  vocab := 16
  chunk := 0
  draftLim := 0
  layers := [layer0, attn0]
  trees := []
  w5 := 0
  w5Size := 0
  resid := 0
  residSize := 0
  vectors := 0
  vectorsSize := 0
  embed := 0
  embedSize := 0
  img := []
  imgAddr := 0
  imgSize := 0

/-- Context 1 is ACTIVE with that pattern, on channel 0. -/
def loaded : State := on up fun m =>
  ((m.wr .hubCx 0 1 Off.HUB_CX_STA 1).wr .hubCx 0 1 Off.HUB_CX_CFG 0x1000000).modCtx 1 fun c => { c with pat := some pat0 }

/-- An entry field of entry 0 of channel 0. -/
@[noinline] def ent (o n v : Nat) (s : State) : State := on s fun m => m.setEnt 0 o n v

/-- Entry 0 of channel 0 is context 1's, in a state. -/
@[noinline] def entry (st : Nat) (s : State) : State :=
  on (ent Ent.STATE_W 4 st (ent Ent.CONTEXT 1 1 s)) fun m =>
    (m.wr .rqtCh 0 0 (Off.RQT_PART + 4) 0x200).modSeq 0 fun q => { q with ctx := 1 }

/-- The hub's target has no address on the management bus. -/
def hubUnaddressed : State := on up fun m => m.modMgt 8 fun x => { x with da := none }

/-- Channel 7 has one in-band interrupt on the bus. -/
def ibiWaiting : State := on up fun m => m.modMgt 7 fun x => { x with ibi := some (1,2,3,4), evs := [(1,2,3,4)] }

/-- Channel 7 runs firmware of kind 1 with security version 3. -/
def firmwareRuns : State := on up fun m => m.modFw (fwKey 7 1) fun f => { f with running := true, runSvn := 3 }

/-- The hub holds a valid image of kind 2 in slot B. -/
def slotBHolds : State := on up fun m => m.modFw (fwKey 8 2) fun f => { f with slotB := ⟨true, 3, [1]⟩ }

/-- The hub's firmware page names a size and a source. -/
def secAsked (v : Word) : State := on up fun m => (m.wr .secMod 0 0 Off.SEC_FW_SIZE v).wr .secMod 0 0 Off.SEC_FW_SRC 0x1000

/-- Channel 7's recorder holds two records and two used tags. -/
def recorderFull : State := on up fun m => m.modEvr 7 fun e => { e with
  next := 3, recs := [(1, some ⟨1,1,0,0,0,0,[]⟩), (2, some ⟨2,1,0,0,0,0,[]⟩)], used := [(9, 2), (10, 1)] }

/-- A nonce for FULL is out on a locked Pemor monitor. -/
def nonceGiven : State := on (pemAt .locked up) fun m => m.modPem 0 fun p => { p with nonce := some (0, .full), nonces := 1 }

/-- Only the standby supply is there. -/
def auxOnly : State := ⟨[], { Dev.reset with auxPg := true, slotId := 5, regs := [(pageOff .pwrMod 0 0 Off.PWR_MOD_STA, 0x10)] }⟩

/-- The supply may go: the module has answered, and holds memory and a tile. -/
def lossDue : State := on up fun m => { m.wrF .pwrMod 0 0 Off.PWR_MOD_STA 4 4 1 with
  thermtrip := true, mem := [(5, 7)], tiles := [(3, { Tile.reset 3 with levels := [(1, 1)], slack := 4 })] }

/-- A management target that has not come up. -/
def targetSilent (t : Nat) : State := on up fun m => m.modMgt t fun x => { x with acks := false, da := none }

/-- Channel 0 is at a step of its start. -/
def starting (st : Nat) : State := on hubUp fun m => (m.wr .pwrCh 0 0 Off.PWR_CH_STA (BitVec.ofNat 32 (8 + 16 * st + 256))).modMem 0 fun x
  => { x with zeroed := true }

/-- Channel 0 is HALTED with bytes in T1 and in channel 1's part. -/
def dirtyHalted : State := on (flt 2 up) fun m => (m.setBytes 4 [1,2]).setBytes (2^46 + 3) [4]

/-- Channel 0 has been idle for 300 planks, with idle entry set. -/
def idleLong : State := set .pwrCh 0 Off.PWR_CH_CTL 8 8 1 (on up fun m => m.modChan 0 fun c => { c with idle := 300 })

/-- Channel 0 is in C2, saved, long without supply. -/
def inC2 : State := on up fun m => (m.wr .pwrCh 0 0 Off.PWR_CH_STA 2).modChan 0 fun c => { c with saved := true, unpwr := 259200 }

/-- Every channel is READY. -/
def allReady : State := on up fun m => (List.range 8).foldl (fun m c => m.wr .pwrCh c 0 Off.PWR_CH_STA 4) m

/-- All virtual functions are on and every T1 is zeroed. -/
def vfsOn : State := on up fun m => { m with numVfs := 63, mems := (List.range 8).map fun c => (c, { Mem.fresh with zeroed := true }) }

/-- Context `n` is ACTIVE. -/
def active (n : Nat) (s : State) : State := on s fun m => (m.wrF .hubCx 0 n Off.HUB_CX_STA 1 0 1)

/-- Context `n` has a configuration word. -/
def configured (n v : Nat) (s : State) : State := on s fun m => m.wr .hubCx 0 n Off.HUB_CX_CFG (BitVec.ofNat 32 v)

/-- Context 63 is being destroyed, its accesses off. -/
def cleaned : State := on vfsOn fun m => (m.wr .hubCx 0 63 Off.HUB_CX_STA 0x102).modCtx 63 fun c =>
  { c with dmaOff := true, cleaning := .destroy }

/-- The first aperture register holds `v`, and BAR2 is enabled. -/
def aperture (v : Word) (s : State) : State := on s fun m => (m.wr .hub 0 0 Off.HUB_AP v).wrF .hub 0 0 Off.HUB_CTL 1 0 3

/-- Context 63 may write its staging range through BAR2. -/
def stagingOpen : State := on (configured 63 16 (active 63 (aperture 0 vfsOn))) fun m => m.modMem 0 fun x =>
  { x with ranges := [⟨3, 1, 63, true⟩] }

/-- A 64-bit counter of channel 0 holds a value in both halves. -/
def counted : State := on up fun m => (m.wr .rqtCh 0 0 Off.RQT_IGNWR 7).wr .rqtCh 0 0 (Off.RQT_IGNWR + 4) 9

/-- Source `n` of the hub acts at `v`. -/
def hubSeverity (n v : Nat) : State := on up fun m => m.wrF .hub 0 0 Off.PG_SEV0 (2*n+1) (2*n) v

/-- A group of two host writes of entry 511. -/
def ringGroup : RingGroup := ⟨⟨0, 511⟩, [.hostWrite 1 0x1000 [1], .msix 1 2], 7 + 2^36, 5, true⟩

/-- The current monitor of cluster 0 samples. -/
def monitorOn (f : Mon → Mon) : State := on up fun m => let
  m := ((m.wrF .mon 0 0 Off.MON_CTL 8 0 0x1F1).wrF .mon 0 0 Off.MON_SLOT 13 0 0x405).modMon 0 f; { m with eff := m.regs }

/-- The thermal state of cluster 7, changed. -/
def thermal (f : Therm → Therm) : State := on (rec 82 up) fun m => m.modTherm 7 f

/-- A cut by layers. -/
def oneCut : Cut := ⟨3, 640, false⟩

/-- The last core of channel 0. -/
def core63 : CoreRef := ⟨0, 7, 7⟩

/-- The background calibration of core 63, changed. -/
def background (f : Bkg → Bkg) : State := on (rec 89 up) fun m => m.modBkg 63 f

/-- What a blocking run brings for one tile. -/
def tileCal : TileCal := ⟨15, [(3, F32.one)], [], [], F32.one, F32.one, [], [], List.replicate 7 F32.one, [], false, false, [(3, 5)], [(7,
  9)]⟩

/-- Tile 15 of core 63 in a state. -/
def tileIn (st : TState) : State := on up fun m => m.modTile (7*132+7*16+15) fun t => { t with state := st }

/-- One slice of 256 rows and columns, with two cells set. -/
def oneSlice : Slice := ⟨0, 0, false, 0, 256, 0, 2, 2, 256, 0, 1, 1, 256, 0, [(0, 3), (2049, -2)], [], none, [400], [400], [400], [400],
  none, true⟩

/-- Tile 15 of core 63. -/
def lastTile : TileRef := ⟨0, 7, 7, 15⟩

/-- A descriptor of execution 5. -/
def descriptor : MvmDesc := ⟨0, 5, none, 15, 0, 0⟩

/-- A descriptor of execution 6. -/
def descriptorZero : MvmDesc := ⟨0, 6, none, 15, 0, 0⟩

/-- A descriptor of execution 7. -/
def descriptorTranspose : MvmDesc := ⟨0, 7, none, 15, 0, 0⟩

/-- Quantised codes of one row block. -/
def quantPart (codes : List Int) : QPart := ⟨0, 256, 0, ⟨codes, []⟩, false⟩

/-- An execution of layer 0 that has been quantised. -/
def execution (id : Nat) (tp : Bool) (codes : List Int) : Exec :=
  ⟨id, tp, 1, 0, none, 0, 0, [], 0, List.replicate 3 ⟨0, 0, false, [], [[{ quantPart codes with fmt := 1 },
    { quantPart codes with fmt := 2 }]]⟩, 0, false, false, 5, 0,
    false, false, tp, false, 0, [], []⟩

/-- An execution for a transpose read. -/
def transposeExec : Exec := { execution 7 true [2] with
  counts := List.replicate 3 ⟨0, 0, false, [], [[{ quantPart [2] with fmt := 1, span := 1 }]]⟩ }

/-- The three executions of the core. -/
def executions : List Exec := [execution 5 false [3, -2, 1], execution 6 false [], transposeExec]

/-- The layer, on the last tile. -/
def tiledLayer : Layer := { layer0 with blocks := layer0.blocks.map fun b => { b with tiles := [1051] } }

/-- A pattern of this layer. -/
def tiledPattern : Pattern := { pat0 with layers := [tiledLayer, attn0] }

/-- The last tile is READY with the slice, changed by `f`. -/
def tileReady (f : Tile → Tile) : State := on (rec 12 loaded) fun m => ((m.modTile lastTile.ix fun t =>
  f { t with state := .ready, ctx := some 1, slices := [oneSlice], levels := [(0, 3), (2129, -2)], slack := 1000 }).modCore 63 fun c =>
  { c with execs := executions }).modCtx 1 fun c => { c with pat := some tiledPattern }

/-- A read of nothing. -/
def noMvm : Mvm := ⟨descriptor, ⟨[], []⟩, false, false, 0, 0, [], 0, 0, 0, 0, false, 0, false, [], false, false, [], [], .waiting⟩

/-- The read that a command starts in the last tile. -/
def mvmAfter (s : State) (c : Instr) : Mvm := match exec c s with | .next t => ((t.m.tile lastTile.ix).mvms.headD noMvm) | _ => noMvm

/-- The read of an all-zero vector. -/
def exactMvm : Mvm := { mvmAfter (tileReady id) (.mvmDescriptor lastTile descriptorZero []) with pounce := false }

/-- The read of a vector. -/
def oneMvm : Mvm := { mvmAfter (tileReady id) (.mvmDescriptor lastTile descriptor []) with pounce := false }

/-- A transpose read. -/
def transposeMvm : Mvm := { mvmAfter (set .arr 63 Off.ARR_CTL 3 3 1 (tileReady id)) (.transposeRead lastTile descriptorTranspose []) with
  pounce := false }

/-- The tile runs a read. -/
def running (x : Mvm) : State := tileReady fun t => { t with mvms := [x] }

/-- A read that is being repeated. -/
def rereadMvm : Mvm := { oneMvm with phase := .rereading }

/-- Seven ones. -/
def ones7 : List F32 := List.replicate 7 F32.one

/-- Every probe of the drift interval is there, and the interval ends. -/
def driftDue : State := on (rec 21 (tileReady fun t => { t with
  probes := 16, probeSum := List.replicate 7 (F32.ofNat 16), probeBase := ones7 })) fun m => m.modChan 0 fun c => { c with driftLeft := 0 }

/-- A localisation run with `n` probes taken. -/
def locRun (n : Nat) (sums : Store Int) : LocRun := ⟨(List.range 8).map fun i => (i,
  if i < n / 4 then 4 else if i = n / 4 then n % 4 else 0), 3, sums⟩

/-- The tile is in such a run. -/
def locating (n : Nat) (sus : Bool) : State := tileReady fun t => { t with
  loc := some (locRun n []), suspect := sus, suspectAt := 3, slices := [] }

/-- A spare shadows the last tile. -/
def shadowing (f : Shadow → Shadow) : State := set .corCh 0 Off.COR_SHD_CTL 0 0 1 (on (tileReady id) fun m =>
  (m.modTile (7*132+131) fun t => { t with state := .shadow, slices := [oneSlice], levels := [(0, 3), (2129, -2)] }).modClus 7 fun x =>
    { x with shadow := f { x.shadow with valid := true, victim := 127, spare := 3, sample := some oneMvm } })

/-- A request to quantise one vector of ones. -/
def quantReq : ExecReq := ⟨false, 1, 0, 5, none, [List.replicate 256 F32.one]⟩

/-- Group 15 of core 63 is open for two leaves. -/
def groupOpen (f : Group → Group) : State := on loaded fun m => m.modGroup 63 15 fun g =>
  f { g with state := .opened, nLeaf := 2, vecs := 1, cols := 1, epoch := 3, ctx := 1 }

/-- Entry 0 of the table is in a state. -/
def entryIn (st : Nat) : State := on (entry st loaded) fun m => m

/-- A page of six positions in T1. -/
def onePage (originWord : Option PMove) : PageSt := ⟨.present, 4, false, false, false, 6, [⟨1, 0, 20000⟩], originWord, false, 0, 0⟩

/-- A sequence decodes: its page, leaf and directory are in T1. -/
def decoding : State := on (rec 34 (entryIn 3)) fun m => ((m.modSeq 0 fun q =>
  { q with home := 7, pages := [(pageKey 1 0, onePage none)], step := some ⟨.decode, 5, 6, 0, false, 0, 0, [[(1, 1)]], 0, false⟩ }).modMem 0
  fun x =>
  { x with t1 := [(1, ⟨65, true⟩), (2, ⟨65, true⟩), (20000, ⟨2, true⟩)], dirs := [(1, 0, 0)], leaves := [⟨2, 0, 0, 0⟩] }).setEnt 0
    Ent.PT_ROOT 8 (2 ^ 18)

/-- An attention layer that reads four positions together. -/
def promptLayer : Layer := { attn0 with qblk := 4 }

/-- A pattern of this layer. -/
def promptPattern : Pattern := { pat0 with layers := [layer0, promptLayer], chunk := 8 }

/-- The sequence is in its prompt. -/
def prompting : State := on decoding fun m => (m.modCtx 1 fun c => { c with pat := some promptPattern }).modSeq 0 fun q =>
  { q with step := some ⟨.prefill, 2, 6, 0, false, 0, 0, [[(1, 1)]], 0, false⟩ }

/-- Entry 0 of channel 0. -/
def seq0 : SeqRef := ⟨0, 0⟩

/-- One row of one head for the decode engine. -/
def decodeItem : AttnItem := ⟨seq0, 1, 0, 1, 0, [List.replicate 64 F32.one]⟩

/-- Four rows for the prompt engine. -/
def promptItem : AttnItem := ⟨seq0, 1, 0, 1, 0, List.replicate 4 (List.replicate 64 F32.one)⟩

/-- What a command leaves the decode engine with. -/
def daeAfter (s : State) (c : Instr) : Option AttnRun := match exec c s with | .next t => (t.m.core 63).dae | _ => none

/-- What a command leaves the prompt engine with. -/
def paeAfter (s : State) (c : Instr) : Option AttnRun := match exec c s with | .next t => (t.m.clus 7).pae.run | _ => none

/-- The run of the decode item. -/
def daeRun : AttnRun := (daeAfter decoding (.daeItemStart core63 decodeItem)).getD ⟨decodeItem, [], [], [], []⟩

/-- The run of the prompt item. -/
def paeRun : AttnRun := (paeAfter prompting (.paeItemStart ⟨0, 7⟩ promptItem)).getD ⟨decodeItem, [], [], [], []⟩

/-- The sequence is in a backward step. -/
def backwardRuns : State := on (ent Ent.CLEN 4 6 prompting) fun m => m.modSeq 0 fun q =>
  { q with tune := some ⟨false, []⟩, step := some ⟨.backward, 0, 4, 0, false, 0, 0, [[(1, 1)]], 0, false⟩ }

/-- A backward item of one row. -/
def backwardItem : BwdItem := ⟨seq0, 1, 0, 1, 0, [(List.replicate 64 F32.one, List.replicate 64 F32.one)]⟩

/-- A group waits for the result of a spilled layer. -/
def spillGroup : State := on loaded fun m => m.modGroup 63 15 fun g => { g with
  state := .opened, nLeaf := 2, vecs := 1, cols := 1, epoch := 3, ctx := 1 }

/-- A spilled layer for one vector. -/
def spillItem : SpillItem := ⟨1, 0, 0, [List.replicate 256 F32.one], ⟨0, 7, 7⟩, 15, 0⟩

/-- A move of a page to another frame of T1. -/
def pageMove : PMove := ⟨[⟨2, 0, 3⟩], false, false, true, []⟩

/-- The page is being moved. -/
def moving : State := on (rec 41 decoding) fun m => m.modSeq 0 fun q => { q with pages := [(pageKey 1 0, onePage (some pageMove))] }

/-- A checkpoint at position 5. -/
def checkpoint : Ckpt := { Ckpt.none with valid := true, clen := 5 }

/-- The sequence is being restored. -/
def restoring (ok : Bool) : State := on (rec 38 (entryIn 5)) fun m => m.modSeq 0 fun q => { q with restore := some (0, ok) }

/-- A backward step of four positions. -/
def backwardStep : Step := ⟨.backward, 0, 4, 0, false, 0, 0, [], 0, false⟩

/-- The sequence runs it. -/
def tuning : State := on (entryIn 2) fun m => m.modSeq 0 fun q => { q with step := some backwardStep, tune := some ⟨false, []⟩ }

/-- One record for the ring. -/
def pendingRec : PendRec := ⟨7, 3, 0, 0⟩

/-- Every channel is in C2. -/
def allC2 : State := on hubUp fun m => (List.range 8).foldl (fun m c => m.wr .pwrCh c 0 Off.PWR_CH_STA 2) m

/-- The load of context 1 is in a phase. -/
def phase (n : Nat) (s : State) : State := on s fun m => m.wrF .ldrCx 0 1 Off.LDR_CMD_STA 18 16 n

/-- Context 1 loads on channel 0, in a phase. -/
def loading (n : Nat) (f : Ctx → Ctx) : State := phase n (on (set .plcCx 1 Off.PLC_CX_CFG 7 0 1 (rec 50 loaded)) fun m =>
  (m.modCtx 1 f).modMem 0 fun x => { x with zeroed := true })

/-- The bytes of a little-endian value at an address. -/
def bytesAt (n v : Nat) (a : Nat) : List (Nat × Byte) := (toBytes n v).zipIdx.map fun e => (a + e.2, e.1)

/-- The smallest image: a header, six sections, one layer. -/
def image : List (Nat × Byte) := bytesAt 4 0x54504B47 0 ++ bytesAt 4 0x10000 4 ++ bytesAt 8 0x240 8 ++ bytesAt 4 1 0x10 ++
  bytesAt 4 6 0x14 ++ bytesAt 4 4096 0x18 ++ bytesAt 4 16 0x1C ++ bytesAt 4 64 0x20 ++
  ((List.range 6).map fun i => bytesAt 4 (i+1) (0x100 + 32*i) ++ bytesAt 8 (if i = 0 then 0x1C0 else 0x240) (0x108 + 32*i) ++
    bytesAt 8 (if i = 0 then 128 else 0) (0x110+32*i)).flatten ++
  bytesAt 1 4 0x1C0 ++ bytesAt 1 16 (0x1C0+0x18) ++ bytesAt 8 (2^64-1) (0x1C0+0x48)

/-- The load names the image's size. -/
def sized (s : State) : State := on s fun m => m.wr64 .ldrCx 0 1 Off.LDR_SIZE 0x240

/-- The load checks an image. -/
def checking (im : List (Nat × Byte)) : State := sized (loading 2 fun c =>
  { c with pat := none, load := { c.load with image := cutImage im 0 0x240 } })

/-- The load copies its vectors. -/
def copying : State := sized (loading 3 fun c => { c with
  newPat := some { pat0 with embed := 0x100, embedSize := 80 }, load := { c.load with placed := true } })

/-- The load programs a tile. -/
def programming (sw : Bool) : State := sized (on (loading 4 fun c => { c with
  newPat := some pat0, load := { c.load with placed := true, swap := sw, tiles := [0] } }) fun m => m.modTile 0 fun t =>
  { t with state := .ready })

/-- Adapter 63 of context 1, changed. -/
def adapter (f : Adp → Adp) : State := on loaded fun m => m.modAdp 1 63 f

/-- An adapter of no leaf. -/
def adapterImage : AdpImg := ⟨1, F32.one, [], [], 64⟩

/-- A pattern of one projection layer. -/
def projection : Pattern := { pat0 with layers := [{ layer0 with kind := 1, blocks := [] }] }

/-- The adapter is being loaded. -/
def adapterLoads : State := on (set .plcCx 1 Off.PLC_CX_CFG 7 0 1 (adapter fun a => { a with state := 3 })) fun m => (m.modCtx 1 fun c =>
  { c with pat := some projection }).wr .adpCx 0 1 Off.ADP_SIZE 0x450

/-- The smallest adapter image. -/
def adapterFile : List (Nat × Byte) := bytesAt 4 0x50414B47 0 ++ bytesAt 4 0x10000 4 ++ bytesAt 8 0x450 8 ++ bytesAt 2 1 0x10 ++
  bytesAt 2 1 0x12 ++ bytesAt 4 0 0x40 ++ bytesAt 4 0x50 0x44 ++ bytesAt 4 0x250 0x48

/-- What the adapter's bytes say. -/
def adapterRead (hv : List (Nat × Byte)) := parseAdapter projection (cutImage hv 0 0x450) 0x450

/-- A read request of a scratchpad. -/
def readReq (a n : Nat) : SpdReq := ⟨.dma, false, .contiguous a n, []⟩

/-- A write request of a scratchpad. -/
def writeReq (a : Nat) (d : List Byte) : SpdReq := ⟨.dma, true, .contiguous a d.length, d⟩

/-- Region 63 of the last scratchpad is open. -/
def regionOpen (f : Spd → Spd) : State := on up fun m => m.modSpd 63 fun p =>
  f { p with regions := [(63, { Region.fresh with valid := true, base := 2, prod := 0, cons := 1, ctx := 1 })] }

/-- A write into it. -/
def regionWrite : SpdReq := ⟨.dma, true, .region 63 4, [1,2,3,4]⟩

/-- An entry of the scoreboard that reads 512 bytes. -/
def readEntry (i : Nat) : SbEnt := ⟨i, readReq 0 512, 0, 128, spanFrom 0 512, none, 0⟩

/-- That write waits for room. -/
def regionWaits : State := regionOpen fun p => { p with rwait := [regionWrite] }

/-- An entry that writes the last word. -/
def writeEntry : SbEnt := ⟨1, writeReq 0x3FFFFC [1,2,3,4], 0xFFFFF, 0x100000, spanFrom 0x3FFFFC 4, none, 0⟩

/-- An entry that reads the last word. -/
def lastReadEntry : SbEnt := ⟨2, readReq 0x3FFFFC 4, 0xFFFFF, 0x100000, spanFrom 0x3FFFFC 4, none, 0⟩

/-- The scoreboard holds these entries. -/
def scoreboard (es : List SbEnt) : State := on up fun m => m.modSpd 63 fun p => { p with ents := es, next := 3 }

/-- A gather with two words. -/
def gatherSlot : GSlot := ⟨7, 8191, [(3, some 5), (511, some 6)]⟩

/-- The last scratchpad, changed, where banks may power down. -/
def bankIdle (f : Spd → Spd) : State := on (rec 57 (set .spdCh 0 Off.SPD_CH_CTL 1 0 3 up)) fun m => (m.modSpd 63 f).modChan 0 fun c =>
  { c with plank := 300 }

/-- An entry that writes in bank 31. -/
def bankEntry : SbEnt := ⟨1, writeReq (31*512) [1,2,3,4], 31*128, 31*128+1, spanFrom (31*512) 4, none, 0⟩

/-- Units of channel 0 may power down. -/
def unitsIdle : State := on (rec 58 (rec 59 (set .spdCh 0 Off.SPD_CH_CTL 1 0 3 up))) fun m => m

/-- Two memory units wait to power down. -/
def unitsWait : State := on unitsIdle fun m => m.modChan 0 fun c => { c with memPd := [(127, .waiting 0), (135, .waiting 0)] }

/-- The synchronisation table of channel 0, changed. -/
def syncOn (f : Sync → Sync) : State := on (rec 63 (rec 64 (rec 65 (rec 66 (set .synCh 0 Off.SYN_CTL 0 0 1 loaded))))) fun m =>
  m.modSync 0 f

/-- Object `o` is mapped at virtual number `v`. -/
def mapped (v o : Nat) (x : SyObj) : State := syncOn fun y => { y with
  maps := [(mapKey 1 v, some ⟨o, 0⟩)], objs := [(o, { x with ctx := 1 })] }

/-- An object that counts to 5. -/
def armed : SyObj := { SyObj.fresh with state := 1, count := 3, target := 5 }

/-- A map of the last object. -/
def objectMap : SyMap := ⟨65535, 0⟩

/-- A wait for the count 4. -/
def oneWait : SyWait := ⟨7, 4, none, false, 100⟩

/-- An object in a state, of context 1. -/
def deadObject (st : Nat) : SyObj := { SyObj.fresh with state := st, ctx := 1 }

/-- A signal from another node. -/
def remoteSignal : RemoteSignal := ⟨0, 1, 1025, 3, 2, 1, false, 2, 7, 0⟩

/-- What a map must hold for it. -/
def originWord : Word := BitVec.ofNat 32 (2^24 + 3 + 2 * 2^15 + 2^18)

/-- The last object is mapped for signals from that node. -/
def remoteMapped (x : SyObj) (f : Sync → Sync) : State := syncOn fun y =>
  f { y with maps := [(mapKey 1 1025, some ⟨65535, originWord⟩)], objs := [(65535, { x with ctx := 1 })] }

/-- A signal sent and refused. -/
def refusedSignal : SentSig := ⟨9, remoteSignal, 3, 0, true, none⟩

/-- The channel has sent it. -/
def signalSent (t : Nat) : State := on (syncOn fun y => { y with sent := [refusedSignal] }) fun m => ((m.modChan 0 fun c =>
  { c with time := t }).modStream 0 7 fun x => { x with port := some 5 }).modPort 0 5 fun p => { p with state := 3 }

/-- A HELLO message of node 3. -/
def hello (sb : Bool) : Hello := ⟨some 3, 1, 2, 0, sb⟩

/-- Port 7 of channel 0, changed. -/
def portOf (f : Port → Port) : State := on (rec 68 (rec 69 up)) fun m => m.modPort 0 7 f

/-- Port 7 in a state. -/
def portIn (n : Nat) : State := portOf fun p => { p with state := n }

/-- A flit with a sequence number. -/
def flitOf (crc : Bool) (seq : Fin 4096) (g : List (Fin 4)) : Flit := ⟨2, 0, crc, seq, 3, false, 2, 31, g⟩

/-- Port 7 is UP with two flits kept. -/
def portUp : State := portOf fun p => { p with state := 3, seqRx := 4095, replay := [(3, []), (4, [])] }

/-- The module is node 5, changed. -/
def nodeUp (f : Dev → Dev) : State := on (rec 72 (rec 75 up)) fun m => f ((m.wr .evfMod 0 0 Off.EVF_NODE 0x8005))

/-- A global address. -/
def globalAddr (node ch a : Nat) : Word64 := BitVec.ofNat 64 (node * 2^49 + ch * 2^46 + a)

/-- A header of a write to this node. -/
def header (hops : Fin 16) (len : Nat) : MsgHdr := ⟨hops, 7, 3, 2, 1, globalAddr 5 0 0x1000, 0, 9, len, 0⟩

/-- Channel 0 has lent 16 bytes to node 3. -/
def lent : State := nodeUp fun m => (m.modFab 0 fun x => { x with
  lends := [⟨0, 0x1000, 16, 3, 2, 1⟩], routes := [⟨0, 9, some 0x20, true⟩] }).modPort 0 5 fun p => { p with state := 3 }

/-- A read that waits for its response. -/
def openRead : OpenRead := ⟨9, 7, 0x2000, none⟩

/-- Channel 0 waits for it, in a fault state. -/
def readOpen (st : Nat) : State := flt st (on up fun m => m.modFab 0 fun x => { x with reads := [openRead] })

/-- A header with a status. -/
def statusHeader (st : Byte) : MsgHdr := { header 0 4 with status := st }

/-- A signal sent and not yet answered. -/
def signalOpen : State := syncOn fun y => { y with sent := [{ refusedSignal with refused := false }] }

/-- A digest of a collective's bytes. -/
def digest : Digest := ⟨0, 1, 3, 1, 3, 2, 1, 0, 7, 9, 4, 5, 0x1000⟩

/-- A collective of two members. -/
def collOpen : CollOpen := ⟨0, 1, 3, 1, [(3, 2, 0), (5, 0, 0x1000)], .sum, 1023, 7, ⟨0,0,0⟩, .sum 4 1 0 false 0 0, []⟩

/-- It has taken a contribution. -/
def collective : Coll := ⟨collOpen, 1, some (.sum true [F32.one] 1 1), [], [], false, false, false⟩

/-- The channel runs it. -/
def collRuns : State := on (mapped 1023 3 armed) fun m => (m.modFab 0 fun x => { x with colls := [collective] })

/-- Stream 65535 goes out of port 5. -/
def streamOut (t : Nat) (f : Stream → Stream) : State := on up fun m => ((m.modChan 0 fun c =>
  { c with time := t }).modStream 0 65535 fun x => f { x with port := some 5, last := some (32767, 3, .write (header 0 4) [1]) }).modPort 0
  5 fun p => { p with state := 3 }

/-- It is held. -/
def streamHeld (t : Nat) : State := streamOut t fun x => { x with held := true, since := some 5 }

/-- The module has no node number. -/
def unnumbered : State := rec 73 up

/-- The module is node 5 with a context. -/
def numbered : State := on (rec 73 loaded) fun m => m.wr .evfMod 0 0 Off.EVF_NODE 0x8005

/-- Channel 1 is reached by a sibling link. -/
def sibling (s : State) : State := on s fun m => (m.wr .evfMod 0 0 Off.EVF_ENUM 0x00030001).wr .evfCh 1 0 Off.EVF_SIB 0x42

/-- Fabric time is in a mode, port 7 UP. -/
def timed (mode : Nat) (f : Dev → Dev) (s : State) : State := on (rec 74 s) fun m =>
  f ((m.wrF .evfMod 0 0 Off.EVF_TIME_CTL 1 0 mode).modPort 0 7 fun p => { p with state := 3 })

/-- A TIME message. -/
def timeMsg (ma : Fin 32768) (hops : Nat) : TimeMsg := ⟨ma, hops, 12345, 77, 90, none⟩

/-- A group waits for a read of the tile. -/
def transposeGroup : State := on (rec 30 (tileReady id)) fun m => m.modGroup 63 15 fun g =>
  { g with state := .opened, nLeaf := 2, vecs := 1, cols := 1, epoch := 0, ctx := 1 }

/-- A read whose sums are far off. -/
def wrongMvm : Mvm := { oneMvm with sums := [(0, 1000000)] }

/-- An image with vectors. -/
def vectorImage : List (Nat × Byte) := bytesAt 4 0x54504B47 0 ++ bytesAt 4 0x10000 4 ++ bytesAt 8 0x280 8 ++ bytesAt 4 1 0x10 ++
  bytesAt 4 6 0x14 ++ bytesAt 4 4096 0x18 ++ bytesAt 4 16 0x1C ++ bytesAt 4 64 0x20 ++
  ((List.range 6).map fun i => bytesAt 4 (i+1) (0x100 + 32*i) ++ bytesAt 8 (if i = 0 then 0x1C0 else if i ≤ 3 then 0x240 else 0x280) (0x108
    + 32*i) ++ bytesAt 8 (if i = 0 then 128 else if i = 3 then 64 else 0) (0x110+32*i)).flatten ++
  bytesAt 1 4 0x1C0 ++ bytesAt 1 16 (0x1C0+0x18) ++ bytesAt 8 (2^64-1) (0x1C0+0x48)

/-- The load checks it. -/
def checkingVectors (ranges : List T1Range) : State := on (loading 2 fun c =>
  { c with pat := none, load := { c.load with image := cutImage vectorImage 0 0x280 } }) fun m =>
  (m.wr64 .ldrCx 0 1 Off.LDR_SIZE 0x280).modMem 0 fun x => { x with ranges := ranges }

/-- What it says. -/
def vectorPattern : Pattern := ((checkingVectors []).m.loadChecks 1 false (cutImage vectorImage 0 0x280) 0x280).2.getD pat0

/-- The module once it is placed. -/
def placedVectors (s : State) : Dev := ((s.m.modCtx 1 fun c => { c with newPat := some vectorPattern }).placeLoad 1 vectorPattern (placeSeq
  vectorPattern)).getD s.m

/-- The module is node 5. -/
def asNode (s : State) : State := on s fun m => m.wr .evfMod 0 0 Off.EVF_NODE 0x8005

/-- Where the answer to node 3 goes. -/
def answerWay : MsgWay := ⟨0, 5, 5, 0, 3, 2⟩

/-- Messages to node 9 go out of port 5. -/
def forwarding : State := on (asNode up) fun m => (m.modFab 0 fun x => { x with routes := [⟨0, 9, some 0x20, true⟩] }).modPort 0 5 fun p =>
  { p with state := 3 }

/-- A signal not yet answered. -/
def openSignal : SentSig := { refusedSignal with refused := false }

/-- A signal held for a collective. -/
def heldSignal : HeldSig := ⟨{ remoteSignal with mark := 9, stream := 7, vid := 1023 }, 3, 0⟩

/-- The digest of bytes of this node. -/
def digestHere : Digest := { digest with level := 0, addr := globalAddr 5 0 0x1000 }

/-- The digest those bytes have. -/
def digestEqual : Digest := { digestHere with
  digest := digestOf digestHere ((asNode collRuns).m.bytes (devAddr digestHere.addr) digestHere.len) }

/-- The collective, seen by its first member. -/
def collFirst : Coll := { collective with me := 0 }

/-- The first member runs it, with the signal held. -/
def collHeld : State := on (asNode collRuns) fun m => (m.modFab 0 fun x =>
  { x with colls := [collFirst], arrived := [(arrKey 3 2 7, ⟨9, []⟩)] }).modSync 0 fun y => { y with held := [heldSignal] }

/-- The slice, held by a second tile too. -/
def dupSlice : Slice := { oneSlice with dup := some 1050 }

/-- Two tiles read it. -/
def dupRuns : State := on (tileReady fun t => { t with slices := [dupSlice], mvms := [oneMvm] }) fun m => m.modTile 1050 fun t =>
  { t with state := .ready, ctx := some 1, slices := [dupSlice], mvms := [oneMvm] }

/-- A read that waits for its pounce share. -/
def waitingMvm : Mvm := { oneMvm with phase := .waiting, vals := [F32.one, F32.one] }

/-- The tile has it. -/
def shareAwaited : State := on transposeGroup fun m => m.modTile 1051 fun t => { t with mvms := [waitingMvm] }

/-- The tile may be probed. -/
def probing : State := set .corCh 0 Off.COR_DRIFT 20 16 16 (set .cor 63 Off.COR_CTL 4 4 1 (rec 20 (rec 21 (tileReady id))))

/-- The drift interval ends, 16 planks long. -/
def driftLast : State := set .corCh 0 Off.COR_DRIFT 20 16 16 (set .cor 63 Off.COR_CTL 4 4 1 driftDue)

/-- A localisation run that flags one column. -/
def oneFlagged : State := tileReady fun t => { t with loc := some (locRun 32 [(0, 100000)]), slices := [{ oneSlice with w := [] }] }

/-- A key and a value of position 5. -/
def kvRow : KvRow := ⟨seq0, 1, 0, 5, List.replicate 64 F32.one, List.replicate 64 F32.one⟩

/-- Group 15 takes sums of the arrays. -/
def groupArray (f : Group → Group) : State := rec 30 (groupOpen fun g => f { g with src := 1 })

/-- An adapter of one leaf. -/
def adapterOne : AdpImg := ⟨1, F32.one, [(0, 0x450, 0x4D0)], [], 0x500⟩

/-- The sequence uses it. -/
def adapterServes : State := on (ent Ent.ADAPTER 2 63 (entry 3 transposeGroup)) fun m => (((m.modAdp 1 63 fun a =>
  { a with state := 1, active := some adapterOne }).modSeq 0 fun q =>
  { q with step := some ⟨.decode, 5, 6, 0, false, 0, 0, [[(1, 1)]], 0, false⟩ }).modCore 63 fun c =>
    { c with execs := [{ execution 5 false [] with seq := some seq0, xs := [List.replicate 256 F32.one] }] }).modGroup 63 15 fun g =>
  { g with exec := 5, layer := 0, first := 0 }

/-- A tree of tiles. -/
def treeOf (tiles : List Nat) : TreeDesc := let d : TreeDesc := ⟨1, 0, false, 0, tiles, 0⟩; { d with crc := treeCrc d }

/-- The layer's tree is held. -/
def treeHeld : State := on (tileReady id) fun m => { m with trees := [treeOf [1051]] }

/-- A node at the channels' level. -/
def channelNode : NodeKey := .sum 2 1 0 false 0 0

/-- A leaf of one sum. -/
def leafValue : LeafVal := .sum true [F32.one] 1 1

/-- The layer's tree goes over two channels. -/
def channelTree : State := on (tileReady id) fun m =>
  { ((((((m.modCore 64 fun c => { c with nodes := [(channelNode, ⟨1, [(0, leafValue)], some leafValue⟩)] }).wr .evfCh 0 0 (Off.EVF_SIB + 4) 2).wr .evfMod 0 0 Off.EVF_NODE 0x8005).wr .evfCh 1 0 Off.EVF_SIB 1).modPort 0 1 fun p =>
  { p with state := 3 }).modPort 1 0 fun p => { p with state := 3 }) with trees := [treeOf [1051, 1056]] }

/-- Where the decode item runs. -/
def itemPlace (s : State) : ItemPlace := (s.m.daePlace decodeItem).getD ⟨pat0, attn0, [], 0, 0, []⟩

/-- Where the prompt item runs. -/
def promptPlace (s : State) : ItemPlace := (s.m.paePlace promptItem).getD ⟨pat0, attn0, [], 0, 0, []⟩

/-- The rows of an item. -/
def itemRows (p : ItemPlace) (i : AttnItem) : List QRow := (queryRows p i.qs).getD []

/-- The keys and values an item reads. -/
def keysRead (s : State) (core : Option Nat) (p : ItemPlace) (heads poss : List Nat) : List KvAt :=
  match s.m.readKv core 0 1 p.pat p.l heads poss with | .got k => k | _ => []

/-- The sequence runs a step from `a` to `b`. -/
def stepOf (k : StepKind) (a b : Nat) (s : State) : State := on s fun m => m.modSeq 0 fun q =>
  { q with step := some ⟨k, a, b, 0, false, 0, 0, [[(1, 1)]], 0, false⟩ }

/-- The decode run with blocks left. -/
def daeBlocks (bs : List (List Nat)) : AttnRun := { daeRun with blocks := bs }

/-- The decode engine waits for them. -/
def daeWaits (bs : List (List Nat)) (s : State) : State := on s fun m => m.modCore 63 fun x => { x with dae := some (daeBlocks bs) }

/-- The same with the pages gone. -/
def daeUnpaged : State := on (daeWaits [[0]] decoding) fun m => m.modSeq 0 fun q => { q with pages := [] }

/-- The prompt engine waits for its stage. -/
def paeWaits : State := on (stepOf .prefill 260 264 prompting) fun m => m.modClus 7 fun x =>
  { x with pae := { x.pae with run := some paeRun, kind := 1, ctx := 1 } }

/-- A backward item of four rows. -/
def backwardRows : BwdItem := { backwardItem with rows := List.replicate 4 (List.replicate 64 F32.one, List.replicate 64 F32.one) }

/-- Where it runs. -/
def backwardPlace : ItemPlace := (backwardRuns.m.bwdPlace backwardRows).getD ⟨pat0, attn0, [], 0, 0, []⟩

/-- The layer's tile is RETIRED. -/
def spillTile : State := on (rec 30 spillGroup) fun m => m.modTile 0 fun t => { t with state := .retired, slices := [oneSlice] }

/-- The frames' headers are written. -/
def movedHeaders : State := on moving fun m => m.putHeaders 0 (pageKey 1 0) (onePage (some pageMove))

end Sys2Proof.Tests
end

