-- ==== Sys2Proof/Tests/Slice0.lean ====
section
/-! SUPPORT. Tests: for every obligation with hypotheses, states and operands that meet them; ill-formed commands; the spec's worked
examples; single steps. -/

namespace Sys2Proof.Tests
open Sys2Proof Sys2Proof.Machine

set_option maxRecDepth 100000
set_option Elab.async false
set_option synthInstance.maxSize 4000

/-- A condition on what an option holds, decided. -/
theorem ofSome {α : Type} {o : Option α} {P : α → Prop} [DecidablePred P] (h : (o.all fun a => decide (P a)) = true) : ∀ a, o = some a → P a := by
  rintro a rfl; simpa using h

/-- The same for a pair. -/
theorem ofPair {α β : Type} {o : Option (α × β)} {P : α → β → Prop} [∀ a b, Decidable (P a b)] (h : (o.all fun a => decide (P a.1 a.2)) = true) :
    ∀ a b, o = some (a, b) → P a b := by
  rintro a b rfl; simpa using h

/-- An option holds something with a property. -/
theorem anySome {α : Type} {o : Option α} {P : α → Prop} [DecidablePred P] (h : (o.any fun a => decide (P a)) = true) : ∃ a, o = some a ∧ P a := by
  cases o <;> simp_all

/-- What stops nothing does not end. -/
theorem noEnding {x : Stopping} (h : x = .no) : ∀ y z, x ≠ .ending y z := by rintro y z rfl; cases h

/-- What stops nothing is not stopped by heat. -/
theorem noThermal {x : Stopping} (h : x = .no) : ∀ y, x ≠ .thermal y := by rintro y rfl; cases h

/-- A command that answers a next state answers the one it answers. -/
theorem ofNext {o : Host.Outcome State Fault Refusal} {d : State} (h : (match o with | .next _ => true | _ => false) = true) :
    o = .next (match o with | .next t => t | _ => d) := by cases o <;> first | rfl | cases h

/-- Every entry of an empty table is FREE. -/
theorem free_of {s : State} (r : Nat) (h : s.m.rqt = []) : s.m.st r = St.FREE := by
  simp [Dev.st, Dev.stateW, Dev.ent, h, Store.get]; decide +kernel

/-- A channel in C2 whose supply went off seven milliseconds after the start. -/
def offRecently : State := on inC2 fun m => { (m.modChan 0 fun c => { c with offAt := some 7 }) with mgtNs := 1008 * 1000000 }

/-- A range fits in an empty T1, whatever the working area is. -/
theorem fits_of {m : Dev} {ch n : Nat} (h : m.memOf ch = { Mem.fresh with zeroed := true }) (h1 : m.t1Used ch = 0) (h2 : m.rsvOf ch = 0)
    (hn : n + 16384 ≤ t1Frames) : m.rangeFits ch n = true := by
  have hw : Config.workFrames ≤ 16384 := Nat.min_le_left _ _
  have hp : pickRange (m.memOf ch) n = if Config.workFrames ≤ t1Frames - n then t1Frames - n else 0 := by
    rw [h]; unfold pickRange; simp [Mem.fresh]; split <;> simp [*]
  unfold Dev.rangeFits Dev.t1Free Dev.t1Tot
  have hk : Config.workFrames ≤ t1Frames - n := by omega
  rw [hp, h1, h2, h, if_pos hk]
  simp [Mem.fresh]; omega

/-- GET_INFO answers 39 bytes. -/
theorem info_length : (up.m.infoOf 7).length = 39 := by
  simp [Dev.infoOf, toBytes]

/-- The target of channel 7 serves GET_INFO. -/
theorem serves_info : up.m.Serves 7 0 (up.m.infoOf 7).length := by
  unfold Dev.Serves; rw [info_length]; decide +kernel

/-- A staging area fits in an empty T1. -/
theorem staging_fits {m : Dev} {n : Nat} (h : ∀ c : ChId, m.memOf c.val = { Mem.fresh with zeroed := true } ∧ m.t1Used c.val = 0 ∧ m.rsvOf c.val = 0)
    (hn : m.stagingFrames n + 16384 ≤ t1Frames) : m.stagingFits n = true :=
  List.all_eq_true.2 fun ch _ => fits_of (h ch).1 (h ch).2.1 (h ch).2.2 hn

/-- Rank 7 is there on both modules. -/
theorem there_low : PdTarget.there (.t2 0 7) = true := by unfold PdTarget.there; cases Config.isL2 <;> rfl

/-- Where only port 7 of channel 0 is known, every other port is as after reset. -/
theorem port_other {s : State} {p0 : Port} (h : s.m.chans = (List.range 8).map fun c => (c, { Chan.fresh with linkUp := true, fab := { Chan.fresh.fab with ports := if c = 0 then [(7, p0)] else [] } })) :
    ∀ c q, c ≠ 0 ∨ q ≠ 7 → s.m.port c q = Port.fresh := by
  intro c q hc
  unfold Dev.port Dev.fab Dev.chan
  rw [h]
  by_cases h8 : c < 8
  · interval_cases c <;> first | (simp [List.range_succ, Store.get]; done) | (simp [List.range_succ, Store.get]; omega)
  · simp only [List.range_succ, List.range_zero, List.nil_append, List.cons_append, List.map_cons, List.map_nil, Store.get]
    repeat rw [if_neg (by omega)]
    rfl

/-- No port but port 7 of channel 0 is UP. -/
theorem port_alone : ∀ (c q : Nat), c ≠ 0 ∨ q ≠ 7 → ((timed 1 id numbered).m.port c q).state ≠ 3 := by
  intro c q h
  rw [port_other (p0 := { Port.fresh with state := 3 }) (by decide +kernel) c q h]
  decide

/-- The checks of a load pass where those before check 0x10 do, and no execution is longer than the work window. -/
theorem checks_pass (s : State) (ctx : CtxId) (p : Pattern)
    (h0 : s.m.imageChecks ctx.val (s.m.ctx ctx.val).load.swap (s.m.ctx ctx.val).load.image (s.m.rd64 .ldrCx 0 ctx.val Off.LDR_SIZE) = (none, some p))
    (h : ∀ l ∈ p.layers, layerMax p l ≤ s.m.workWindow) :
    s.m.loadChecks ctx.val (s.m.ctx ctx.val).load.swap (s.m.ctx ctx.val).load.image (s.m.rd64 .ldrCx 0 ctx.val Off.LDR_SIZE) = (none, some p) := by
  have e : (firstBad p fun l _ => layerMax p l ≤ s.m.workWindow) = none := by
    simp only [firstBad, Option.map_eq_none_iff, List.find?_eq_none]
    intro x hx
    have := h x.1 (List.fst_mem_of_mem_zipIdx hx)
    simpa using this
  unfold Dev.loadChecks
  rw [h0]; simp only [e]; rfl

/-- The parts of the placed pattern fit. -/
theorem fits_vector : ((match ((placedVectors (checkingVectors [])).ctx 1).newPat with | some q => (placedVectors (checkingVectors [])).partFrames 1 q | none => []).all fun e => (placedVectors (checkingVectors [])).rangeFits e.fst e.snd) = true := by
  rw [(by decide +kernel : (match ((placedVectors (checkingVectors [])).ctx 1).newPat with | some q => (placedVectors (checkingVectors [])).partFrames 1 q | none => []) = [(0, 1)])]
  simpa using fits_of (m := placedVectors (checkingVectors [])) (by decide +kernel) (by decide +kernel) (by decide +kernel) (by decide +kernel)

/-- The module placed beside a range that takes all of T1. -/
def fullT1 : Dev := placedVectors (checkingVectors [⟨0, 2^20, 3, true⟩])

/-- The parts of the pattern take one frame of channel 0. -/
theorem full_need : (match (fullT1.ctx 1).newPat with | some q => fullT1.partFrames 1 q | none => []) = [(0, 1)] := by decide +kernel

/-- The staging range takes all of T1. -/
theorem full_mem : (fullT1.memOf 0).zeroed = true ∧ ((fullT1.memOf 0).ranges.map (·.n)).sum = t1Frames := by decide +kernel

/-- Nothing fits where the ranges take all of T1. -/
theorem unfit_of {m : Dev} {ch n : Nat} (h : (m.memOf ch).zeroed = true) (hs : ((m.memOf ch).ranges.map (·.n)).sum = t1Frames) (hn : n ≠ 0) :
    m.rangeFits ch n = false := by
  have e : m.t1Free ch = 0 := by
    unfold Dev.t1Free Dev.t1Tot
    rw [if_pos h, hs]; generalize t1Frames = a; generalize Config.workFrames = w; omega
  unfold Dev.rangeFits; rw [e]; simp [hn]

/-- The parts do not fit beside it. -/
theorem fits_full : ((match (fullT1.ctx 1).newPat with | some q => fullT1.partFrames 1 q | none => []).all fun e => fullT1.rangeFits e.fst e.snd) = false := by
  rw [full_need, List.all_cons, unfit_of full_mem.1 full_mem.2 Nat.one_ne_zero]; rfl

/-- A shorter response is served too. -/
theorem Dev.serves_le {s : State} {t len n k : Nat} (h : s.m.Serves t len k) (hn : n ≤ k) : s.m.Serves t len n :=
  ⟨h.1, h.2.1, h.2.2.1, Nat.le_trans (Nat.add_le_add_left hn 6) h.2.2.2⟩

/-- A partition that fits where no other context has one and every entry is FREE. -/
theorem part_fits {s : State} {ch n : Nat} {v : Word} (h0 : ∀ m, m < 64 → (s.m.part ch m).snd.fst = 0) (h1 : fld v 8 0 + fld v 18 9 ≤ 512) (h2 : s.m.rqt = []) :
    ¬((∃ m, m < 64 ∧ m ≠ n ∧ ∃ i, (fld v 8 0 ≤ i ∧ i < fld v 8 0 + fld v 18 9) ∧ (s.m.part ch m).fst ≤ i ∧ i < (s.m.part ch m).fst + (s.m.part ch m).snd.fst) ∨
      512 < fld v 8 0 + fld v 18 9 ∨ ∃ i, i < 512 ∧ s.m.st (ch * 512 + i) ≠ St.FREE ∧
        ¬((s.m.part ch n).fst ≤ i ∧ i < (s.m.part ch n).fst + (s.m.part ch n).snd.fst ↔ fld v 8 0 ≤ i ∧ i < fld v 8 0 + fld v 18 9)) := by
  rintro (⟨m, hm, _, i, _, h3, h4⟩ | h | ⟨i, _, h, _⟩)
  · have := h0 m hm; omega
  · omega
  · exact h (free_of _ h2)

/-! ### The hypotheses of the obligations are met -/

/-- States and operands meet the hypotheses of every clause of `Obligations.StepRunsFront`. -/
theorem test_meets_StepRunsFront :
    ∃ (s : State) (c : Instr) (rest : List Instr), s.pending = c :: rest :=
  ⟨⟨[.vinStart, .perstNRelease], up.m⟩, .vinStart, [.perstNRelease], by decide +kernel⟩

/-- States and operands meet the hypotheses of every clause of `Obligations.NothingStops`. -/
theorem test_meets_NothingStops :
    ∃ (s : State), s.pending = [] :=
  ⟨up, by decide +kernel⟩

/-- States and operands meet the hypotheses of every clause of `Obligations.StepLeavesNothingWaiting`. -/
theorem test_meets_StepLeavesNothingWaiting :
    (∃ (s : State) (t : State), s.m.Settled ∧ step s = Host.Outcome.next t) ∧
    (∃ (c : Instr) (s : State) (t : State), exec c s = Host.Outcome.next t) :=
  ⟨⟨⟨[.vinStart], up.m⟩, (match step ⟨[.vinStart], up.m⟩ with | .next t => t | _ => cold), by unfold Dev.Settled; decide +kernel,
      ofNext (d := cold) (by decide +kernel)⟩,
    ⟨.vinStart, cold, (match exec .vinStart cold with | .next t => t | _ => cold), ofNext (d := cold) (by decide +kernel)⟩⟩

/-- States and operands meet the hypotheses of every clause of `Obligations.AddressMapIsDisjoint`. -/
theorem test_meets_AddressMapIsDisjoint :
    (∃ (p : Page) (o : Nat), p.valid = true ∧ o < 4096) ∧
    (∃ (ch : Nat) (e : Nat) (o : Nat), ch < 8 ∧ e < 512 ∧ o < 128) :=
  ⟨⟨⟨.spd, 7, 63⟩, 0, by decide +kernel⟩,
    ⟨7, 511, 127, by decide +kernel⟩⟩

/-- States and operands meet the hypotheses of every clause of `Obligations.MemoryAndRegistersHold`. -/
theorem test_meets_MemoryAndRegistersHold :
    (∃ (a : Nat) (bs : List Byte) (b : Nat), (b < a ∨ a + bs.length ≤ b)) ∧
    (∃ (m : Dev) (n : Dev), (Memory.wf m.mem ∧ Memory.wf n.mem ∧ Registers.wf m.regs) ∧ (∀ (a : Nat), m.byte a = n.byte a)) ∧
    (∃ (p : Page) (q : Page) (o : Nat) (r : Nat), p.valid = true ∧ q.valid = true ∧ o < 4096 ∧ r < 4096) :=
  ⟨⟨7, [1,2,3], 6, by decide +kernel⟩,
    ⟨up.m, up.m, by decide +kernel, fun _ => rfl⟩,
    ⟨⟨.kvpCh, 7, 0⟩, ⟨.kvpCh, 6, 0⟩, 0xFFF, 0xFFF, by decide +kernel⟩⟩

/-- States and operands meet the hypotheses of every clause of `Obligations.ManagementBusAnswers`. -/
theorem test_meets_ManagementBusAnswers :
    (∃ (s : State) (t : MgtIx), s.m.Settled ∧ s.m.tgtAcks t.val = true ∧ ((s.m.mgt t.val).evs = [] ∨ (s.m.mgt t.val).ibi.isSome = true)) ∧
    (∃ (s : State) (t : MgtIx) (c : Instr), s.m.Settled ∧ s.m.tgtAcks t.val = false ∧ (c ∈ [Instr.getpid t, Instr.getbcr t, Instr.getdcr t,
      Instr.getstatus t, Instr.getmwl t, Instr.getmrl t, Instr.mgtResponseRead t, Instr.enec (some t), Instr.disec (some t)] ∨ (∃ a,
      c = Instr.setnewda t a) ∨ (∃ n, c = Instr.setmwl (some t) n) ∨ (∃ n i, c = Instr.setmrl (some t) n i) ∨ ∃ tag,
      c ∈ [Instr.getInfo t tag, Instr.getTime t tag, Instr.evrClear t tag, Instr.serviceOut t tag, Instr.mgtRestart t tag,
      Instr.getEvents t tag]) ∧ s.m.tgtOnBus t.val = true ∧ (s.m.mgt t.val).da = none) ∧
    (∃ (s : State) (u : Nat), s.m.Settled ∧ u < 9 ∧ s.m.tgtOnBus u = true) ∧
    (∃ (s : State) (t : MgtIx) (e : Nat × Nat × Nat × Nat) (es : List (Nat × Nat × Nat × Nat)), s.m.Settled ∧ s.m.tgtAcks t.val = true ∧
      sortBy (fun a b => decide (a.fst ≤ b.fst)) (s.m.mgt t.val).evs = e :: es ∧ (s.m.mgt t.val).ibi = none) :=
  ⟨⟨up, 8, by unfold Dev.Settled; decide +kernel⟩,
    ⟨hubUnaddressed, 8, (.getpid 8), by unfold Dev.Settled; decide +kernel⟩,
    ⟨up, 7, by unfold Dev.Settled; decide +kernel⟩,
    ⟨(on ibiWaiting fun m => m.modMgt 7 fun x => { x with ibi := none }), 7, (1,2,3,4), [], by unfold Dev.Settled; decide +kernel⟩⟩

/-- States and operands meet the hypotheses of every clause of `Obligations.ManagementReads`. -/
theorem test_meets_ManagementReads :
    (∃ (s : State) (t : MgtIx), s.m.Settled ∧ s.m.Serves t.val 0 9 ∧ s.m.Serves t.val 0 1) ∧
    (∃ (s : State) (t : MgtIx) (ix : Byte) (off : Nat), (s.m.Settled ∧ t.val < 8 ∧ BitVec.toNat ix ≤ 1 ∧
      s.m.rdF .mgtCh t.val 0 Off.PG_CTL 0 0 = 0 ∧ s.m.Serves t.val 0 0) ∧
      s.m.Serves t.val 3 (List.take 1024 (List.drop off (Config.cert t.val (BitVec.toNat ix)))).length ∧
      s.m.Serves t.val 0 (s.m.infoOf t.val).length) ∧
    (∃ (s : State) (t : MgtIx) (n : Nat), s.m.Settled ∧ t.val < 8 ∧ 1 ≤ n ∧ n ≤ 31 ∧ s.m.Serves t.val 7 (1 + 32 * n)) ∧
    (∃ (s : State) (ch : ChId) (nonce : List Byte), s.m.Settled ∧ nonce.length = 32 ∧ s.m.Serves ch.val 32 512) ∧
    (∃ (s : State) (ch : ChId) (off : Nat) (n : Nat), s.m.Settled ∧ 1 ≤ n ∧ n ≤ 64 ∧ off % 4 = 0 ∧ (∀ (i : Nat),
      i < n → inWindow ch.val (off + 4 * i) = true) ∧ s.m.Serves ch.val 5 (4 * n)) ∧
    (∃ (s : State) (ch : ChId), s.m.Settled ∧ s.m.Serves ch.val 5 4) ∧
    (∃ (s : State) (t : MgtIx) (k : Nat) (st : Nat) (cause : Nat) (seq : Nat), s.m.Settled ∧ s.m.tgtAcks t.val = true ∧
      (s.m.mgt t.val).ibiEn = true ∧ (s.m.mgt t.val).ibi = some (k, st, cause, seq)) :=
  ⟨⟨up, 8, by unfold Dev.Settled Dev.Serves; decide +kernel⟩,
    ⟨up, 7, 1, 0, by unfold Dev.Settled Dev.Serves; decide +kernel, Dev.serves_le (by unfold Dev.Serves; decide +kernel)
      (List.length_take_le 1024 _), serves_info⟩,
    ⟨up, 7, 31, by unfold Dev.Settled Dev.Serves; decide +kernel⟩,
    ⟨up, 7, (List.replicate 32 7), by unfold Dev.Settled Dev.Serves; decide +kernel⟩,
    ⟨(on up fun m => m.modMgt 7 fun x => x), 7, (pageOff .mgtCh 7 0 0), 64, by unfold Dev.Settled Dev.Serves; decide +kernel⟩,
    ⟨up, 8, by unfold Dev.Settled Dev.Serves; decide +kernel⟩,
    ⟨ibiWaiting, 7, 1, 2, 3, 4, by unfold Dev.Settled; decide +kernel⟩⟩

/-- States and operands meet the hypotheses of every clause of `Obligations.ManagementActs`. -/
theorem test_meets_ManagementActs :
    (∃ (s : State) (ch : ChId) (k : PageKind) (o : Nat) (row : RegRow), s.m.Settled ∧ (k = .thmCh ∨ k = .mgtCh) ∧ 256 ≤ o ∧ o < 4096 ∧
      o % 4 = 0 ∧ k.row o = some row ∧ row.ctr = false ∧ s.m.mgtUp { kind := k, ch := ch.val, inst := 0 } = true ∧ s.m.Serves ch.val 8 0 ∧
      s.m.Serves ch.val 0 0 ∧ s.m.fltState ch.val ≠ 2 ∧ s.m.fltState ch.val = 0 ∧ s.m.NoWork ch.val) ∧
    (∃ (s : State) (ch : ChId) (kind : Byte) (chunk : List Byte), s.m.Settled ∧ fwHas ch.val (BitVec.toNat kind) = true ∧ 1 ≤ chunk.length ∧
      chunk.length ≤ 1016 ∧ s.m.Serves ch.val (5 + chunk.length) 0 ∧ (s.m.fw (fwKey ch.val (BitVec.toNat kind))).path ≠ some 1) ∧
    (∃ (s : State) (ch : ChId) (kind : Byte) (off : Nat) (chunk : List Byte), s.m.Settled ∧ fwHas ch.val (BitVec.toNat kind) = true ∧
      1 ≤ chunk.length ∧ chunk.length ≤ 1016 ∧ off ≠ 0 ∧ off + chunk.length ≤ fwCap (BitVec.toNat kind) + 128 ∧
      s.m.Serves ch.val (5 + chunk.length) 0 ∧ (s.m.fw (fwKey ch.val (BitVec.toNat kind))).path = some 0) ∧
    (∃ (s : State) (ch : ChId) (kind : Byte), s.m.Settled ∧ fwHas ch.val (BitVec.toNat kind) = true ∧ s.m.Serves ch.val 1 0 ∧
      (s.m.fw (fwKey ch.val (BitVec.toNat kind))).running = true ∧ (s.m.fw (fwKey ch.val (BitVec.toNat kind))).commits < 64) ∧
    (∃ (s : State) (t : MgtIx) (kind : Byte), s.m.Settled ∧ fwHas t.val (BitVec.toNat kind) = true ∧ s.m.Serves t.val 1 0 ∧
      (fwSlot (s.m.fw (fwKey t.val (BitVec.toNat kind))) (fwOther (s.m.fw (fwKey t.val (BitVec.toNat kind))))).valid = false) ∧
    (∃ (s : State) (t : MgtIx) (kind : Byte), s.m.Settled ∧ fwHas t.val (BitVec.toNat kind) = true ∧ s.m.Serves t.val 1 0 ∧
      (fwSlot (s.m.fw (fwKey t.val (BitVec.toNat kind))) (fwOther (s.m.fw (fwKey t.val (BitVec.toNat kind))))).valid = true) :=
  ⟨⟨up, 7, .mgtCh, Off.MGT_CTL, ((PageKind.row .mgtCh Off.MGT_CTL).getD ⟨0x100,1,0,0,0,false⟩),
      by unfold Dev.Settled Dev.Serves Dev.NoWork; decide +kernel⟩,
    ⟨up, 7, 1, (List.replicate 1016 3), by unfold Dev.Settled Dev.Serves; decide +kernel⟩,
    ⟨(on up fun m => m.modFw (fwKey 7 1) fun f => { f with path := some 0 }), 7, 1, 1016, (List.replicate 1016 3),
      by unfold Dev.Settled Dev.Serves; decide +kernel⟩,
    ⟨firmwareRuns, 7, 1, by unfold Dev.Settled Dev.Serves; decide +kernel⟩,
    ⟨firmwareRuns, 7, 1, by unfold Dev.Settled Dev.Serves; decide +kernel⟩,
    ⟨slotBHolds, 8, 2, by unfold Dev.Settled Dev.Serves; decide +kernel⟩⟩

/-- States and operands meet the hypotheses of every clause of `Obligations.SecFwCommands`. -/
theorem test_meets_SecFwCommands :
    (∃ (s : State) (fn : Fn) (w : Word), s.m.Settled ∧ s.m.Writes fn ⟨.secMod, 0, 0⟩ Off.SEC_FW_CMD ∧ fwTargets w ≠ [] ∧
      1 ≤ BitVec.toNat (s.m.rd .secMod 0 0 Off.SEC_FW_SIZE) ∧ BitVec.toNat (s.m.rd .secMod 0 0 Off.SEC_FW_SIZE) ≤ fwCap (fld w 1 0) + 128 ∧
      (∀ (d : Nat), d ∈ fwTargets w → (s.m.fw (fwKey d (fld w 1 0))).path = none)) ∧
    (∃ (s : State) (fn : Fn) (w : Word) (d : Nat), s.m.Settled ∧ s.m.Writes fn ⟨.secMod, 0, 0⟩ Off.SEC_FW_CMD ∧ fwTargets w ≠ [] ∧
      d ∈ fwTargets w ∧ (s.m.fw (fwKey d (fld w 1 0))).path = some 0) ∧
    (∃ (s : State) (fn : Fn) (w : Word), s.m.Settled ∧ s.m.Writes fn ⟨.secMod, 0, 0⟩ Off.SEC_FW_CMD ∧ fwTargets w ≠ [] ∧ (∀ (d : Nat),
      d ∈ fwTargets w → (fwSlot (s.m.fw (fwKey d (fld w 1 0))) (fwOther (s.m.fw (fwKey d (fld w 1 0))))).valid = true)) :=
  ⟨⟨(secAsked 3), .pf0, 0x201, by unfold Dev.Settled Dev.Writes; decide +kernel⟩,
    ⟨(on (secAsked 3) fun m => m.modFw (fwKey 8 2) fun f => { f with path := some 0 }), .pf0, 0x1000002, 8,
      by unfold Dev.Settled Dev.Writes; decide +kernel⟩,
    ⟨slotBHolds, .pf0, 0x1000002, by unfold Dev.Settled Dev.Writes; decide +kernel⟩⟩

/-- States and operands meet the hypotheses of every clause of `Obligations.RecorderCommands`. -/
theorem test_meets_RecorderCommands :
    ∃ (s : State) (ch : ChId) (fn : Fn) (rdr : Nat), s.m.Settled ∧ (fn = Fn.pf0 ∧ rdr = 0 ∨ fn = Fn.mgt ∧ rdr = 1) ∧ s.m.Writes fn ⟨.evrCh,
      ch.val, 0⟩ (Off.EVR_CUR + 4) ∧ (s.m.chan ch.val).evr.cursors.length = 3 ∧ s.m.Writes fn ⟨.evrCh, ch.val, 0⟩ Off.EVR_CUR ∧
      (s.m.chan ch.val).evr.curLo.length = 3 ∧ s.m.aux = true ∧ (s.m.chan ch.val).evr.stored < (s.m.chan ch.val).evr.next ∧
      s.m.Records ch.val 91 :=
  ⟨recorderFull, 7, .pf0, 0, by unfold Dev.Settled Dev.Records Dev.Writes; decide +kernel⟩

/-- States and operands meet the hypotheses of every clause of `Obligations.PemorPrintsAndDenies`. -/
theorem test_meets_PemorPrintsAndDenies :
    (∃ (s : State) (ch : ChId) (off : Nat) (n : Nat), s.m.Settled ∧ s.m.PemOpen ch.val 1 ∧ 1 ≤ n ∧ n ≤ 64 ∧ off % 4 = 0 ∧ (∀ (i : Nat),
      i < n → inWindow ch.val (off + 4 * i) = true) ∧ s.m.pemOn ch.val = true ∧ 115200 ∈ [115200, 460800, 921600, 1500000, 3000000]) ∧
    (∃ (s : State) (ch : ChId) (n : Nat), s.m.Settled ∧ s.m.PemOpen ch.val 1 ∧ 1 ≤ n ∧ n ≤ 32 ∧ (s.m.chan ch.val).evr.cursors.length = 3) ∧
    (∃ (s : State) (ch : ChId) (addr : Word64) (n : Nat), s.m.Settled ∧ s.m.PemOpen ch.val 2 ∧ 1 ≤ n ∧ n ≤ 256 ∧
      BitVec.toNat addr / 2 ^ 46 = ch.val ∧ BitVec.toNat addr / 2 ^ 44 % 4 ≤ 1 ∧
      BitVec.toNat addr % 2 ^ 44 + n ≤ tierBytes (BitVec.toNat addr / 2 ^ 44 % 4)) ∧
    (∃ (s : State) (ch : ChId), s.m.Settled ∧ s.m.pemOn ch.val = true ∧ s.m.rdF .mgtCh ch.val 0 Off.MGT_CTL 0 0 = 0) ∧
    (∃ (s : State) (ch : ChId) (c : Instr), s.m.Settled ∧ s.m.pemOn ch.val = true ∧
      ((s.m.mgt ch.val).bootRom = true ∨ (s.m.pem ch.val).level = PemorLevel.locked) ∧ c ∈ [Instr.pemorStatus ch, Instr.pemorJtagOpen ch,
      Instr.pemorJtagClose ch]) ∧
    (∃ (s : State) (ch : ChId) (c : Instr), (s.m.Settled ∧ s.m.pemOn ch.val = true ∧ (s.m.pem ch.val).level = PemorLevel.read) ∧ ∃ a n,
      c = Instr.pemorMem ch a n) :=
  ⟨⟨(pemAt .read up), 0, (pageOff .mgtCh 0 0 0), 64, by unfold Dev.Settled Dev.PemOpen; decide +kernel⟩,
    ⟨(pemAt .read up), 0, 32, by unfold Dev.Settled Dev.PemOpen; decide +kernel⟩,
    ⟨(pemAt .full up), 0, 0, 256, by unfold Dev.Settled Dev.PemOpen; decide +kernel⟩,
    ⟨(on up fun m => m.wr .mgtCh 7 0 Off.MGT_CTL 0), 7, by unfold Dev.Settled; decide +kernel⟩,
    ⟨up, 7, .pemorStatus 7, by unfold Dev.Settled; decide +kernel⟩,
    ⟨pemAt .read up, 0, .pemorMem 0 0 1, by unfold Dev.Settled; decide +kernel, ⟨_, _, rfl⟩⟩⟩

/-- States and operands meet the hypotheses of every clause of `Obligations.PemorUnlocksAndActs`. -/
theorem test_meets_PemorUnlocksAndActs :
    (∃ (s : State) (ch : ChId) (level : PemorLevel), s.m.Settled ∧ level ≠ PemorLevel.locked ∧ s.m.PemOpen ch.val 0 ∧
      s.m.rdF .mgtCh ch.val 0 Off.MGT_CTL 0 0 = 1 ∧ (s.m.pem ch.val).lockout = false) ∧
    (∃ (s : State) (ch : ChId) (sig : List Byte) (k : Nat) (level : PemorLevel), s.m.Settled ∧ s.m.PemOpen ch.val 0 ∧
      s.m.rdF .mgtCh ch.val 0 Off.MGT_CTL 0 0 = 1 ∧ (s.m.pem ch.val).lockout = false ∧ (s.m.pem ch.val).nonce = some (k, level) ∧
      sig.length = 64 ∧ s.m.Records ch.val 93) ∧
    (∃ (s : State) (ch : ChId) (k : PageKind) (o : Nat) (row : RegRow), s.m.Settled ∧ s.m.PemOpen ch.val 2 ∧ (k = .thmCh ∨ k = .mgtCh) ∧
      256 ≤ o ∧ o < 4096 ∧ o % 4 = 0 ∧ k.row o = some row ∧ s.m.mgtUp { kind := k, ch := ch.val, inst := 0 } = true ∧ s.m.PemOpen ch.val 0 ∧
      s.m.pemOn ch.val = true ∧ s.m.rdF .mgtCh ch.val 0 Off.MGT_CTL 1 1 = 1) ∧
    (∃ (s : State) (ch : ChId) (ix : Fin 96), s.m.Settled ∧ s.m.PemOpen ch.val 2 ∧ (collector ix.val).snd < (collector ix.val).fst.nsrc ∧
      s.m.Records ch.val ix.val) ∧
    (∃ (s : State) (ch : ChId), s.m.Settled ∧ s.m.PemOpen ch.val 2 ∧ (s.m.pem ch.val).jtag = true) :=
  ⟨⟨(pemAt .locked up), 0, .full, by unfold Dev.Settled Dev.PemOpen; decide +kernel⟩,
    ⟨nonceGiven, 0, (List.replicate 64 1), 0, .full, by unfold Dev.Settled Dev.Records Dev.PemOpen; decide +kernel⟩,
    ⟨(pemAt .full up), 0, .mgtCh, Off.MGT_CTL, ((PageKind.row .mgtCh Off.MGT_CTL).getD ⟨0x100,1,0,0,0,false⟩),
      by unfold Dev.Settled Dev.PemOpen; decide +kernel⟩,
    ⟨(pemAt .full up), 0, 5, by unfold Dev.Settled Dev.Records Dev.PemOpen; decide +kernel⟩,
    ⟨(on (pemAt .full up) fun m => m.modPem 0 fun p => { p with jtag := true }), 0, by unfold Dev.Settled Dev.PemOpen; decide +kernel⟩⟩

/-- States and operands meet the hypotheses of every clause of `Obligations.SuppliesAndPowerOn`. -/
theorem test_meets_SuppliesAndPowerOn :
    (∃ (t : Tile), t.state = TState.retired) ∧
    (∃ (s : State), s.m.Settled ∧ s.m.auxPg = true ∧ s.m.vin = false ∧ s.m.selfOff = false ∧ (∀ (ch : Nat),
      ch < 8 → (fwSlot (s.m.fw (fwKey ch 1)) (s.m.fw (fwKey ch 1)).active).valid = true ∧ (s.m.chan ch).baseBad < 2)) ∧
    (∃ (s : State), s.m.Settled ∧ s.m.vin = true ∧ s.m.thermtrip = true ∧ s.m.rdF .pwrMod 0 0 Off.PWR_MOD_STA 4 4 = 1 ∧ s.m.aux = true) :=
  ⟨⟨({ ((tileReady id).m.tile 1051) with state := .retired }), by decide +kernel⟩,
    ⟨auxOnly, by unfold Dev.Settled; decide +kernel⟩,
    ⟨lossDue, by unfold Dev.Settled; decide +kernel⟩⟩

/-- States and operands meet the hypotheses of every clause of `Obligations.StartsComplete`. -/
theorem test_meets_StartsComplete :
    (∃ (s : State) (t : MgtIx), s.m.Settled ∧ s.m.aux = true ∧ (s.m.mgt t.val).acks = true ∧ (s.m.mgt t.val).restarting = true ∧
      (fwSlot (s.m.fw (fwKey t.val 0)) (s.m.fw (fwKey t.val 0)).active).valid = true) ∧
    (∃ (s : State) (t : MgtIx) (ch : ChId), s.m.Settled ∧ s.m.aux = true ∧ (s.m.mgt t.val).acks = false ∧ ch.val = t.val ∧
      (s.m.mgt t.val).restarting = false ∧ (fwSlot (s.m.fw (fwKey t.val 0)) (s.m.fw (fwKey t.val 0)).active).valid = true) ∧
    (∃ (s : State) (ch : ChId) (w : InitWait) (k : Nat), s.m.Settled ∧ s.m.powered ch.val = true ∧ s.m.chInit ch.val = true ∧
      s.m.cstate ch.val ≠ 2 ∧ s.m.fltState ch.val ≠ 2 ∧ (w, k) ∈ [(InitWait.training, 2), (InitWait.t1Zero, 3), (InitWait.arrayCheck, 4),
      (InitWait.retention, 5)] ∧ 4 ≤ s.m.initStep ch.val ∧ s.m.cstate ch.val = 0 ∧ s.m.startDone ch.val = true ∧ s.m.fltState ch.val = 0 ∧
      s.m.coolEnough ch.val = true ∧ (s.m.memOf ch.val).zeroed = true ∧ s.m.NoWork ch.val ∧ s.m.vin = true ∧ s.m.perstLow = false) :=
  ⟨⟨(on up fun m => (m.modMgt 7 fun x => { x with restarting := true }).modFw (fwKey 7 0) fun f =>
      { f with slotA := ⟨true, 3, [1]⟩, slotB := ⟨true, 3, [1]⟩ }), 7, by unfold Dev.Settled; decide +kernel⟩,
    ⟨(targetSilent 7), 7, 7, by unfold Dev.Settled; decide +kernel⟩,
    ⟨(starting 4), 0, .training, 2, by unfold Dev.Settled Dev.NoWork; decide +kernel⟩⟩

/-- States and operands meet the hypotheses of every clause of `Obligations.ResetsClear`. -/
theorem test_meets_ResetsClear :
    (∃ (s : State) (fn : Fn) (ch : ChId), s.m.Settled ∧ s.m.vin = true ∧ s.m.Writes fn ⟨.pwrCh, ch.val, 0⟩ Off.PWR_CH_CMD ∧
      s.m.chClosed ch.val = false ∧ s.m.chInit ch.val = false ∧ s.m.fltState ch.val = 0 ∧ s.m.hubReady = true) ∧
    (∃ (s : State), s.m.Settled ∧ s.m.hubReady = false ∧ s.m.perstReset = false) ∧
    (∃ (s : State), s.m.Settled ∧ s.m.perstReset = true ∧ s.m.vin = true ∧ (∀ (ch : Nat),
      ch < 8 → (fwSlot (s.m.fw (fwKey ch 1)) (s.m.fw (fwKey ch 1)).active).valid = true ∧ (s.m.chan ch).baseBad < 2)) ∧
    (∃ (s : State) (fn : Fn) (ch : ChId), s.m.Settled ∧ s.m.vin = true ∧ s.m.Writes fn ⟨.pwrCh, ch.val, 0⟩ Off.PWR_CH_CMD ∧
      s.m.chClosed ch.val = false ∧ s.m.chInit ch.val = true) ∧
    (∃ (s : State) (fn : Fn) (ch : ChId), (s.m.Settled ∧ s.m.vin = true ∧ s.m.Writes fn ⟨.pwrCh, ch.val, 0⟩ Off.PWR_CH_CMD ∧
      s.m.chClosed ch.val = false ∧ s.m.chInit ch.val = false ∧ s.m.fltState ch.val = 2 ∧
      (fwSlot (s.m.fw (fwKey ch.val 1)) (s.m.fw (fwKey ch.val 1)).active).valid = true ∧ (s.m.chan ch.val).baseBad < 2 ∧ s.m.ctxs = [] ∧
      s.m.cstate ch.val ≠ 2) ∧ (∀ (r : Nat), s.m.st r = St.FREE)) :=
  ⟨⟨up, .pf0, 0, by unfold Dev.Settled Dev.Writes; decide +kernel⟩,
    ⟨cold, by unfold Dev.Settled; decide +kernel⟩,
    ⟨(on cold fun m => { m with perstReset := true, perstLow := true, mem := [(5,6)] }), by unfold Dev.Settled; decide +kernel⟩,
    ⟨(starting 4), .pf0, 0, by unfold Dev.Settled Dev.Writes; decide +kernel⟩,
    ⟨dirtyHalted, .pf0, 0, by unfold Dev.Settled Dev.Writes; decide +kernel, fun r => free_of r (by decide +kernel)⟩⟩

/-- States and operands meet the hypotheses of every clause of `Obligations.PowerStatesMove`. -/
theorem test_meets_PowerStatesMove :
    (∃ (s : State) (fn : Fn) (ch : ChId), s.m.Settled ∧ s.m.vin = true ∧ s.m.Writes fn ⟨.pwrCh, ch.val, 0⟩ Off.PWR_CH_CMD ∧
      s.m.cstate ch.val ≠ 2 ∧ s.m.c2Refused ch.val = false ∧ (s.m.chan ch.val).fab.colls = [] ∧ s.m.serves ch.val = true ∧
      s.m.cstate ch.val = 0 ∧ s.m.inForce .pwrCh ch.val 0 Off.PWR_CH_CTL 8 8 = 1 ∧ s.m.chBusy ch.val = false ∧
      max 1 (s.m.inForce .pwrCh ch.val 0 Off.PWR_CH_CTL 7 0) ≤ (s.m.chan ch.val).idle) ∧
    (∃ (s : State) (fn : Fn) (ch : ChId) (t0 : Nat), s.m.Settled ∧ s.m.vin = true ∧ s.m.Writes fn ⟨.pwrCh, ch.val, 0⟩ Off.PWR_CH_CMD ∧
      s.m.cstate ch.val = 2 ∧ (s.m.chan ch.val).offAt = some t0 ∧ t0 + 31536001000 ≤ s.m.mgtMs) ∧
    (∃ (s : State) (fn : Fn) (ch : ChId) (t0 : Nat), (s.m.Settled ∧ s.m.vin = true ∧ s.m.Writes fn ⟨.pwrCh, ch.val, 0⟩ Off.PWR_CH_CMD ∧
      s.m.cstate ch.val = 2 ∧ (s.m.chan ch.val).offAt = some t0 ∧ s.m.mgtMs < t0 + 259201000 ∧ s.m.Writes fn ⟨.pwrMod, 0,
      0⟩ Off.PWR_MOD_CMD ∧ (∃ c, c < 8 ∧ s.m.cstate c = 2)) ∧ (∀ (c : Nat), c < 8 → s.m.cstate c = 2 → ∃ t0, (s.m.chan c).offAt = some t0 ∧
      s.m.mgtMs < t0 + 259201000)) ∧
    (∃ (s : State) (fn : Fn), s.m.Settled ∧ s.m.vin = true ∧ s.m.Writes fn ⟨.pwrMod, 0, 0⟩ Off.PWR_MOD_CMD ∧ (∀ (c : Nat),
      c < 8 → s.m.cstate c ≠ 2)) ∧
    (∃ (s : State) (fn : Fn), s.m.Settled ∧ s.m.vin = true ∧ s.m.Writes fn ⟨.pwrMod, 0, 0⟩ Off.PWR_MOD_CMD ∧ (∀ (c : Nat),
      c < 8 → s.m.c2Refused c = true)) ∧
    (∃ (s : State) (fn : Fn), s.m.Settled ∧ s.m.vin = true ∧ s.m.Writes fn ⟨.pwrMod, 0, 0⟩ Off.PWR_MOD_CMD ∧ (∀ (c : Nat),
      c < 8 → s.m.c2Refused c = false ∧ (s.m.chan c).fab.colls = [])) :=
  ⟨⟨idleLong, .pf0, 0, by unfold Dev.Settled Dev.Writes; decide +kernel⟩,
    ⟨(on inC2 fun m => { (m.modChan 0 fun c => { c with offAt := some 7 }) with mgtNs := 31536001008 * 1000000 }), .pf0, 0, 7,
      by unfold Dev.Settled Dev.Writes; decide +kernel⟩,
    ⟨offRecently, .pf0, 0, 7, by unfold Dev.Settled Dev.Writes; decide +kernel, fun c hc h => anySome ((by decide +kernel : ∀ c,
      c < 8 → offRecently.m.cstate c = 2 →
      ((offRecently.m.chan c).offAt.any fun t0 => decide (offRecently.m.mgtMs < t0 + 259201000)) = true) c hc h)⟩,
    ⟨up, .pf0, by unfold Dev.Settled Dev.Writes; decide +kernel⟩,
    ⟨(on hubUp fun m => m.wr .pwrCh 0 0 Off.PWR_CH_STA 8), .pf0, by unfold Dev.Settled Dev.Writes; decide +kernel⟩,
    ⟨allReady, .pf0, by unfold Dev.Settled Dev.Writes; decide +kernel⟩⟩

/-- States and operands meet the hypotheses of every clause of `Obligations.FunctionsComeAndGo`. -/
theorem test_meets_FunctionsComeAndGo :
    (∃ (s : State) (fn : Fn), s.m.Settled ∧ s.m.vin = true ∧ s.m.hubReady = false ∧ s.m.perstLow = false ∧ fn ≠ Fn.mgt) ∧
    (∃ (s : State) (fn : Fn), s.m.Settled ∧ s.m.vin = true ∧ s.m.hubReady = true ∧ s.m.hubFail = false ∧ s.m.perstLow = false ∧ fn ≠ Fn.mgt) ∧
    (∃ (s : State) (num : Fin 64), s.m.Settled ∧ s.m.vin = true ∧ num.val < s.m.numVfs) ∧
    (∃ (s : State) (ctx : CtxId), s.m.Settled ∧ s.m.vin = true ∧ s.m.fnEnabled ctx.val = true) ∧
    (∃ (s : State) (rate : LinkRate), s.m.Settled ∧ s.m.vin = true ∧ s.m.perstLow = false ∧ 1 ≤ rate.val) :=
  ⟨⟨cold, .pf0, by unfold Dev.Settled; decide +kernel⟩,
    ⟨up, (.vf 62), by unfold Dev.Settled; decide +kernel⟩,
    ⟨(active 63 (active 4 vfsOn)), 0, by unfold Dev.Settled; decide +kernel⟩,
    ⟨(active 63 (active 4 vfsOn)), 5, by unfold Dev.Settled; decide +kernel⟩,
    ⟨up, 6, by unfold Dev.Settled; decide +kernel⟩⟩

/-- States and operands meet the hypotheses of every clause of `Obligations.ContextsLiveAndEnd`. -/
theorem test_meets_ContextsLiveAndEnd :
    (∃ (s : State) (fn : Fn) (ctx : CtxId), s.m.Settled ∧ s.m.Writes fn ⟨.hubCx, 0, ctx.val⟩ Off.HUB_CX_CMD ∧
      (s.m.fnEnabled ctx.val = false ∨ s.m.rdF .hubCx 0 ctx.val Off.HUB_CX_CFG 16 0 = 0) ∧ s.m.ctxState ctx.val = 0) ∧
    (∃ (s : State) (fn : Fn) (ctx : CtxId), s.m.Settled ∧ s.m.Writes fn ⟨.hubCx, 0, ctx.val⟩ Off.HUB_CX_CMD ∧ s.m.fnEnabled ctx.val = true ∧
      s.m.rdF .hubCx 0 ctx.val Off.HUB_CX_CFG 16 0 ≠ 0 ∧ s.m.ctxState ctx.val ≠ 0) ∧
    (∃ (s : State) (fn : Fn) (ctx : CtxId), (s.m.Settled ∧ s.m.Writes fn ⟨.hubCx, 0, ctx.val⟩ Off.HUB_CX_CMD ∧
      s.m.fnEnabled ctx.val = true ∧ s.m.rdF .hubCx 0 ctx.val Off.HUB_CX_CFG 16 0 ≠ 0 ∧ s.m.ctxState ctx.val = 0 ∧
      (s.m.ctx ctx.val).creating = false) ∧ s.m.stagingFits ctx.val = true) ∧
    (∃ (s : State) (ctx : CtxId), s.m.Settled ∧ s.m.vin = true ∧ (s.m.ctx ctx.val).creating = true) ∧
    (∃ (s : State) (fn : Fn) (ctx : CtxId), s.m.Settled ∧ s.m.Writes fn ⟨.hubCx, 0, ctx.val⟩ Off.HUB_CX_CMD ∧ s.m.ctxState ctx.val = 1 ∧
      s.m.vin = true ∧ s.m.fnEnabled ctx.val = true) ∧
    (∃ (s : State) (ctx : CtxId), s.m.Settled ∧ s.m.vin = true ∧ s.m.ctxState ctx.val = 2 ∧ (s.m.ctx ctx.val).dmaOff = true ∧
      (s.m.ctx ctx.val).cleaning = CleanWhy.destroy ∧ s.m.rdF .hubCx 0 ctx.val Off.HUB_CX_STA 15 8 = Code.PENDING) ∧
    (∃ (s : State) (ctx : CtxId), s.m.Settled ∧ s.m.vin = true ∧ s.m.ctxState ctx.val = 2 ∧ (s.m.ctx ctx.val).dmaOff = true ∧
      (s.m.ctx ctx.val).cleaning ≠ CleanWhy.destroy ∧ ((s.m.ctx ctx.val).cleaning = CleanWhy.flr → s.m.fnEnabled ctx.val = false)) ∧
    (∃ (s : State) (ctx : CtxId), (s.m.Settled ∧ s.m.vin = true ∧ s.m.ctxState ctx.val = 2 ∧ (s.m.ctx ctx.val).dmaOff = true ∧
      (s.m.ctx ctx.val).cleaning = CleanWhy.flr ∧ s.m.fnEnabled ctx.val = true) ∧ s.m.stagingFits ctx.val = true) :=
  ⟨⟨up, .pf0, 0, by unfold Dev.Settled Dev.Writes; decide +kernel⟩,
    ⟨(configured 63 16 (active 63 vfsOn)), .pf0, 63, by unfold Dev.Settled Dev.Writes; decide +kernel⟩,
    ⟨(configured 63 16 vfsOn), .pf0, 63, by unfold Dev.Settled Dev.Writes; decide +kernel,
      staging_fits (by decide +kernel) (by decide +kernel)⟩,
    ⟨(on (configured 63 16 vfsOn) fun m => m.modCtx 63 fun c => { c with creating := true }), 63, by unfold Dev.Settled; decide +kernel⟩,
    ⟨(active 63 vfsOn), .pf0, 63, by unfold Dev.Settled Dev.Writes; decide +kernel⟩,
    ⟨cleaned, 63, by unfold Dev.Settled; decide +kernel⟩,
    ⟨(on cleaned fun m => m.modCtx 63 fun c => { c with cleaning := .vfOff }), 63, by unfold Dev.Settled; decide +kernel⟩,
    ⟨(on cleaned fun m => m.modCtx 63 fun c => { c with cleaning := .flr }), 63, by unfold Dev.Settled; decide +kernel,
      staging_fits (by decide +kernel) (by decide +kernel)⟩⟩

/-- States and operands meet the hypotheses of every clause of `Obligations.Bar2ReachesMemory`. -/
theorem test_meets_Bar2ReachesMemory :
    (∃ (s : State) (off : Nat) (n : Nat), s.m.Settled ∧ s.m.fnOn Fn.pf0 = true ∧ s.m.hubFail = false ∧ off < 2 ^ 36 ∧
      bit (s.m.rd .hub 0 0 (Off.HUB_AP + 4 * (off / 2 ^ 32))) 11 = true ∧ bit (s.m.rd .hub 0 0 Off.HUB_CTL) 0 = true ∧
      s.m.chClosed (fld (s.m.rd .hub 0 0 (Off.HUB_AP + 4 * (off / 2 ^ 32))) 9 7) = false ∧ off % 2 ^ 32 + n ≤ 2 ^ 32) ∧
    (∃ (s : State) (off : Nat) (bs : List Byte), s.m.Settled ∧ s.m.fnOn Fn.pf0 = true ∧ s.m.hubFail = false ∧ off < 2 ^ 36 ∧
      bit (s.m.rd .hub 0 0 (Off.HUB_AP + 4 * (off / 2 ^ 32))) 11 = true ∧ bit (s.m.rd .hub 0 0 Off.HUB_CTL) 0 = true ∧
      s.m.chClosed (fld (s.m.rd .hub 0 0 (Off.HUB_AP + 4 * (off / 2 ^ 32))) 9 7) = false ∧
      s.m.fltState (fld (s.m.rd .hub 0 0 (Off.HUB_AP + 4 * (off / 2 ^ 32))) 9 7) ≠ 2 ∧ off % 2 ^ 32 + bs.length ≤ 2 ^ 32 ∧ (∀ (a : Nat),
      tierBase (fld (s.m.rd .hub 0 0 (Off.HUB_AP + 4 * (off / 2 ^ 32))) 9 7) (fld (s.m.rd .hub 0 0 (Off.HUB_AP + 4 * (off / 2 ^ 32))) 10 10
      + 1) + fld (s.m.rd .hub 0 0 (Off.HUB_AP + 4 * (off / 2 ^ 32))) 6 0 * 2 ^ 32 + off % 2 ^ 32 ≤ a → a < tierBase (fld (s.m.rd .hub 0 0
      (Off.HUB_AP + 4 * (off / 2 ^ 32))) 9 7) (fld (s.m.rd .hub 0 0 (Off.HUB_AP + 4 * (off / 2 ^ 32))) 10 10 + 1) + fld (s.m.rd .hub 0 0
      (Off.HUB_AP + 4 * (off / 2 ^ 32))) 6 0 * 2 ^ 32 + off % 2 ^ 32 + bs.length → s.m.metaUnit a = none)) ∧
    (∃ (s : State) (off : Nat), s.m.Settled ∧ s.m.fnOn Fn.pf0 = true ∧ s.m.hubFail = false ∧ off < 2 ^ 36 ∧
      bit (s.m.rd .hub 0 0 (Off.HUB_AP + 4 * (off / 2 ^ 32))) 11 = true ∧ bit (s.m.rd .hub 0 0 Off.HUB_CTL) 0 = true ∧
      s.m.chClosed (fld (s.m.rd .hub 0 0 (Off.HUB_AP + 4 * (off / 2 ^ 32))) 9 7) = false ∧
      s.m.fltState (fld (s.m.rd .hub 0 0 (Off.HUB_AP + 4 * (off / 2 ^ 32))) 9 7) = 2) ∧
    (∃ (s : State) (off : Nat), s.m.Settled ∧ s.m.fnOn Fn.pf0 = true ∧ s.m.hubFail = false ∧ off < 2 ^ 36 ∧
      bit (s.m.rd .hub 0 0 (Off.HUB_AP + 4 * (off / 2 ^ 32))) 11 = true ∧ bit (s.m.rd .hub 0 0 Off.HUB_CTL) 0 = true ∧
      s.m.chClosed (fld (s.m.rd .hub 0 0 (Off.HUB_AP + 4 * (off / 2 ^ 32))) 9 7) = true) ∧
    (∃ (s : State) (off : Nat), s.m.Settled ∧ s.m.fnOn Fn.pf0 = true ∧ s.m.hubFail = false ∧ off < 2 ^ 36 ∧
      bit (s.m.rd .hub 0 0 (Off.HUB_AP + 4 * (off / 2 ^ 32))) 11 = false) ∧
    (∃ (s : State) (off : Nat) (n : Nat) (k : Fin 63), s.m.Settled ∧ s.m.fnOn Fn.pf0 = true ∧ s.m.hubFail = false ∧ off < 2 ^ 36 ∧
      s.m.fnOn (Fn.vf k) = true ∧ off / 2 ^ 28 < 8 ∧ bit (s.m.rd .hub 0 0 Off.HUB_CTL) 1 = true ∧ s.m.chClosed (off / 2 ^ 28) = false ∧
      0 < n ∧ off % 2 ^ 28 + n ≤ (s.m.staging (off / 2 ^ 28) (k.val + 1)).snd) ∧
    (∃ (s : State) (off : Nat) (bs : List Byte) (k : Fin 63), s.m.Settled ∧ s.m.fnOn Fn.pf0 = true ∧ s.m.hubFail = false ∧ off < 2 ^ 36 ∧
      s.m.fnOn (Fn.vf k) = true ∧ off / 2 ^ 28 < 8 ∧ bit (s.m.rd .hub 0 0 Off.HUB_CTL) 1 = true ∧ s.m.chClosed (off / 2 ^ 28) = false ∧
      bs ≠ [] ∧ off % 2 ^ 28 + bs.length ≤ (s.m.staging (off / 2 ^ 28) (k.val + 1)).snd ∧ s.m.fltState (off / 2 ^ 28) ≠ 2) :=
  ⟨⟨(aperture 0x800 up), 5, 3, by unfold Dev.Settled; decide +kernel⟩,
    ⟨(aperture 0x800 up), 5, [1,2], by unfold Dev.Settled; decide +kernel⟩,
    ⟨(flt 2 (aperture 0x800 up)), 5, by unfold Dev.Settled; decide +kernel⟩,
    ⟨(on (aperture 0x800 up) fun m => m.modChan 0 fun c => { c with linkUp := false }), 5, by unfold Dev.Settled; decide +kernel⟩,
    ⟨up, (2^36-1), by unfold Dev.Settled; decide +kernel⟩,
    ⟨stagingOpen, (16*4096-1), 1, 62, by unfold Dev.Settled; decide +kernel⟩,
    ⟨stagingOpen, (16*4096-1), [1], 62, by unfold Dev.Settled; decide +kernel⟩⟩

/-- States and operands meet the hypotheses of every clause of `Obligations.FunctionsAreIsolated`. -/
theorem test_meets_FunctionsAreIsolated :
    ∃ (s : State) (n : Fin 63) (a : Nat) (p : Page), s.m.Settled ∧ Page.ofAddr a = some p ∧ rqtOfAddr a = none ∧
      p.grantsWrite (n.val + 1) = false ∧ p.grantsRead (n.val + 1) = false ∧ s.m.fnOn (Fn.vf n) = true :=
  ⟨stagingOpen, 62, (cxOff .ldrCx 62 0x104), ⟨.ldrCx, 0, 62⟩, by unfold Dev.Settled; decide +kernel⟩

/-- States and operands meet the hypotheses of every clause of `Obligations.RegistersAreWritten`. -/
theorem test_meets_RegistersAreWritten :
    (∃ (s : State) (fn : Fn) (p : Page) (o : Nat) (row : RegRow), s.m.Settled ∧ p.valid = true ∧ p.kind ∈ ordinaryPages ∧
      s.m.Writes fn p o ∧ 256 ≤ o ∧ o < 4096 ∧ o % 4 = 0 ∧ p.kind.row o = some row) ∧
    (∃ (s : State) (fn : Fn) (p : Page) (o : Nat) (row : RegRow) (row' : RegRow), s.m.Settled ∧ p.valid = true ∧ p.kind ∈ ordinaryPages ∧
      s.m.Writes fn p o ∧ 256 ≤ o ∧ o < 4096 ∧ o % 4 = 0 ∧ p.kind.row o = some row ∧ s.m.Writes fn p (o + 4) ∧ o % 8 = 0 ∧ o + 4 < 4096 ∧
      p.kind.row (o + 4) = some row') ∧
    (∃ (s : State) (fn : Fn) (p : Page) (o : Nat) (size : Fin 4), s.m.Settled ∧ p.valid = true ∧ p.kind ∈ ordinaryPages ∧ fn ≠ Fn.mgt ∧
      s.m.fnOn fn = true ∧ s.m.refuses fn (p.base + o) true = false ∧ o < 4096 ∧ size.val < 2) ∧
    (∃ (s : State) (fn : Fn) (r : SeqRef) (o : Fin 128) (size : Fin 4), s.m.Settled ∧ size.val < 3 ∧ o.val % 2 ^ size.val = 0 ∧
      s.m.TableOn fn r) ∧
    (∃ (s : State) (fn : Fn) (i : Fin 16), s.m.Settled ∧ s.m.Writes fn ⟨.hub, 0, 0⟩ (Off.HUB_AP + 4 * i.val)) ∧
    (∃ (s : State) (fn : Fn) (a : Nat), s.m.Settled ∧ fn ≠ Fn.mgt ∧ s.m.fnOn fn = true ∧ s.m.refuses fn a true = true) ∧
    (∃ (s : State) (fn : Fn) (a : Nat), s.m.Settled ∧ fn ≠ Fn.mgt ∧ s.m.fnOn fn = true ∧ s.m.refuses fn a false = true) :=
  ⟨⟨up, .pf0, ⟨.kvpCh, 0, 0⟩, Off.KVP_CTL, ((PageKind.row .kvpCh Off.KVP_CTL).getD ⟨0x100,1,0,0,0,false⟩),
      by unfold Dev.Settled Dev.Writes; decide +kernel⟩,
    ⟨up, .pf0, ⟨.kvpCh, 0, 0⟩, 0x100, ((PageKind.row .kvpCh 0x100).getD ⟨0x100,1,0,0,0,false⟩),
      ((PageKind.row .kvpCh 0x104).getD ⟨0x100,1,0,0,0,false⟩), by unfold Dev.Settled Dev.Writes; decide +kernel⟩,
    ⟨up, .pf0, ⟨.kvpCh, 0, 0⟩, Off.KVP_CTL, 1, by unfold Dev.Settled; decide +kernel⟩,
    ⟨(entry 3 loaded), .pf0, seq0, 0x44, 2, by unfold Dev.Settled Dev.TableOn; decide +kernel⟩,
    ⟨up, .pf0, 15, by unfold Dev.Settled Dev.Writes; decide +kernel⟩,
    ⟨up, (.pf0), (pageOff .mgtCh 0 0 0x100), by unfold Dev.Settled; decide +kernel⟩,
    ⟨vfsOn, (.vf 5), (pageOff .mgtCh 0 0 0x100), by unfold Dev.Settled; decide +kernel⟩⟩

/-- States and operands meet the hypotheses of every clause of `Obligations.CountersAreLatched`. -/
theorem test_meets_CountersAreLatched :
    ∃ (s : State) (fn : Fn) (p : Page) (o : Nat), s.m.Settled ∧ p.valid = true ∧ s.m.Reads fn p ∧ pairLo p.kind o = true ∧ o + 4 < 4096 ∧
      o % 4 = 0 ∧ s.m.Writes fn p Off.PG_CTL :=
  ⟨counted, .pf0, ⟨.rqtCh, 0, 0⟩, Off.RQT_IGNWR, by unfold Dev.Settled Dev.Writes Dev.Reads; decide +kernel⟩

/-- States and operands meet the hypotheses of every clause of `Obligations.SourcesAreCounted`. -/
theorem test_meets_SourcesAreCounted :
    (∃ (s : State) (ch : ChId) (ix : Fin 96) (x : FltAt), s.m.Settled ∧ s.m.aux = true ∧ s.m.vin = true ∧ ix.val ≠ 87 ∧
      (ix.val = 44 → x = FltAt.none) ∧ (s.m.chan ch.val).baseBad < 2 ∧ (collector ix.val).snd < (collector ix.val).fst.nsrc ∧
      s.m.Records ch.val ix.val ∧ ix.val ∈ paritySources) ∧
    (∃ (s : State) (ch : ChId) (cl : ClId) (t : Fin 132), s.m.Settled ∧ s.m.aux = true ∧ (s.m.chan ch.val).baseBad < 2 ∧
      s.m.Records ch.val 87 ∧ s.m.vin = true ∧ (otherCopy (s.m.tile ((ch.val * 8 + cl.val) * 132 + t.val))).isSome = true) ∧
    (∃ (s : State) (ch : ChId) (ix : Fin 96), s.m.Settled ∧ s.m.aux = true ∧ s.m.vin = true ∧ ix.val ≠ 87 ∧ (s.m.chan ch.val).baseBad < 2 ∧
      (collector ix.val).snd < (collector ix.val).fst.nsrc ∧ s.m.Records ch.val ix.val ∧ s.m.Records ch.val 5) ∧
    (∃ (s : State) (n : Fin 5), s.m.Settled ∧ s.m.vin = true ∧ s.m.rdF .hub 0 0 Off.PG_SEV0 (2 * n.val + 1) (2 * n.val) = 0 ∧
      bit (s.m.rd .hub 0 0 Off.PG_FLT) n.val = false) ∧
    (∃ (s : State) (n : Fin 5), s.m.Settled ∧ s.m.vin = true ∧ s.m.rdF .hub 0 0 Off.PG_SEV0 (2 * n.val + 1) (2 * n.val) = 3) ∧
    (∃ (s : State) (ch : ChId) (ix : Fin 96), s.m.Settled ∧ s.m.aux = true ∧ ix.val ∈ paritySources ∧ s.m.fltState ch.val = 0 ∧
      2 ≤ s.m.sevOf ch.val ix.val) ∧
    (∃ (s : State) (ch : ChId), s.m.Settled ∧ s.m.aux = true ∧ s.m.Records ch.val 4) ∧
    (∃ (s : State) (x : CtxId), s.m.Settled ∧ s.m.aux = true ∧ s.m.phase x.val = Ph.COPY) ∧
    (∃ (s : State) (n : Fin 2), s.m.Settled ∧ s.m.aux = true ∧ s.m.rdF .hub 0 0 Off.PG_SEV0 (2 * n.val + 1) (2 * n.val) < 3 ∧
      bit (s.m.rd .hub 0 0 Off.PG_FLT) n.val = false) ∧
    (∃ (s : State) (n : Fin 2), s.m.Settled ∧ s.m.aux = true ∧ s.m.rdF .hub 0 0 Off.PG_SEV0 (2 * n.val + 1) (2 * n.val) = 3) ∧
    (∃ (s : State) (ch : ChId), s.m.Settled ∧ s.m.aux = true ∧ s.m.fltState ch.val = 1 ∧
      (s.m.chan ch.val).quietEnd ≤ s.m.mgtNs + s.m.periodNs) :=
  ⟨⟨(rec 10 up), 0, 10, (.none), by unfold Dev.Settled Dev.Records; decide +kernel⟩,
    ⟨(on (rec 87 up) fun m => m.modTile 1051 fun t => { t with copyA := some CalTable.base, copyB := some CalTable.base }), 0, 7, 127,
      by unfold Dev.Settled Dev.Records; decide +kernel⟩,
    ⟨up, 0, 21, by unfold Dev.Settled Dev.Records; decide +kernel⟩,
    ⟨(hubSeverity 4 0), 4, by unfold Dev.Settled; decide +kernel⟩,
    ⟨up, 0, by unfold Dev.Settled; decide +kernel⟩,
    ⟨(sev 10 2 up), 0, 10, by unfold Dev.Settled; decide +kernel⟩,
    ⟨(rec 4 up), 0, by unfold Dev.Settled Dev.Records; decide +kernel⟩,
    ⟨(loading 3 id), (1 : CtxId), by unfold Dev.Settled; decide +kernel⟩,
    ⟨(hubSeverity 1 0), (1 : Fin 2), by unfold Dev.Settled; decide +kernel⟩,
    ⟨up, 21, by unfold Dev.Settled; decide +kernel⟩,
    ⟨(flt 1 up), 0, by unfold Dev.Settled; decide +kernel⟩⟩

/-- States and operands meet the hypotheses of every clause of `Obligations.SeverityDecides`. -/
theorem test_meets_SeverityDecides :
    (∃ (s : State) (ch : ChId) (ix : Fin 96), s.m.Settled ∧ s.m.aux = true ∧ s.m.vin = true ∧ s.m.fltState ch.val = 0 ∧ s.m.NoWork ch.val ∧
      ix.val ≠ 87 ∧ (s.m.chan ch.val).baseBad < 2 ∧ (collector ix.val).snd < (collector ix.val).fst.nsrc ∧ 2 ≤ s.m.sevOf ch.val ix.val) ∧
    (∃ (s : State) (ch : ChId) (ix : Fin 96) (x : FltAt), s.m.aux = true ∧ s.m.vin = true ∧ s.m.fltState ch.val = 0 ∧ ix.val ≠ 87 ∧
      (ix.val = 44 → x = FltAt.none) ∧ (s.m.chan ch.val).baseBad < 2 ∧ (collector ix.val).snd < (collector ix.val).fst.nsrc ∧
      2 ≤ s.m.sevOf ch.val ix.val) ∧
    (∃ (s : State) (fn : Fn) (ch : ChId), s.m.Writes fn ⟨.fltCh, ch.val, 0⟩ Off.FLT_CMD ∧ s.m.fltState ch.val = 0 ∧
      s.m.fltState ch.val < 2 ∧ s.m.Settled ∧ s.m.NoWork ch.val) :=
  ⟨⟨up, 0, 95, by unfold Dev.Settled Dev.NoWork; decide +kernel⟩,
    ⟨(sev 10 2 up), 0, 10, (.none), by decide +kernel⟩,
    ⟨up, .pf0, 0, by unfold Dev.Settled Dev.Writes Dev.NoWork; decide +kernel⟩⟩

/-- States and operands meet the hypotheses of every clause of `Obligations.HeadersAct`. -/
theorem test_meets_HeadersAct :
    (∃ (s : State) (fn : Fn) (k : PageKind) (ch : ChId) (b : Nat) (second : Bool), s.m.Settled ∧ k ∈ [.fltCh, .arrCh, .corCh, .accCh,
      .attCh, .kvpCh, .rqtCh, .ldrCh, .plcCh, .spdCh, .synCh, .evfCh, .monCh, .thmCh, .bkgCh, .mgtCh, .secCh, .pwrCh] ∧
      PageKind.collBase k = some b ∧ s.m.Writes fn { kind := k, ch := ch.val, inst := 0 } (if second = true then Off.PG_SEV1 else
      Off.PG_SEV0) ∧ s.m.Writes fn { kind := k, ch := ch.val, inst := 0 } Off.PG_FLT) ∧
    (∃ (s : State) (fn : Fn) (k : PageKind) (ch : ChId) (b : Nat) (n : Nat), s.m.Settled ∧ k ∈ [.fltCh, .arrCh, .corCh, .accCh, .attCh,
      .kvpCh, .rqtCh, .ldrCh, .plcCh, .spdCh, .synCh, .evfCh, .monCh, .thmCh, .bkgCh, .mgtCh, .secCh, .pwrCh] ∧
      PageKind.collBase k = some b ∧ n < k.nsrc ∧ s.m.Records ch.val (b + n) ∧
      s.m.Writes fn { kind := k, ch := ch.val, inst := 0 } Off.PG_FRC) :=
  ⟨⟨(rec 12 up), .pf0, .arrCh, 0, 8, false, by unfold Dev.Settled Dev.Writes; decide +kernel⟩,
    ⟨(rec 12 up), .mgt, .arrCh, 0, 8, 4, by unfold Dev.Settled Dev.Records Dev.Writes; decide +kernel⟩⟩

/-- States and operands meet the hypotheses of every clause of `Obligations.GroupsAreForwarded`. -/
theorem test_meets_GroupsAreForwarded :
    (∃ (s : State) (ch : ChId) (g : RingGroup), s.m.Settled ∧ List.find? (fun g => decide (g.seq.ch.val = ch.val)) s.m.hubGroups = some g ∧
      s.m.hubHalt = false ∧ s.m.vin = true) ∧
    (∃ (s : State) (fn : Fn), s.m.Settled ∧ s.m.Writes fn ⟨.fltMod, 0, 0⟩ Off.FLT_DLV_SEL) :=
  ⟨⟨(on up fun m => { m with hubGroups := [ringGroup] }), 0, ringGroup, by unfold Dev.Settled; decide +kernel⟩,
    ⟨(on up fun m => m.modDlv 4095 fun d => { d with recs := 5, pos := 2^23 - 1 }), .pf0, by unfold Dev.Settled Dev.Writes; decide +kernel⟩⟩

/-- States and operands meet the hypotheses of every clause of `Obligations.ReadingsAreTaken`. -/
theorem test_meets_ReadingsAreTaken :
    (∃ (s : State) (c : ClusterRef), s.m.alive c.ch.val = true ∧ bit (s.m.monSet c.ix Off.MON_CTL) 0 = true) ∧
    (∃ (s : State) (c : ClusterRef), s.m.Settled ∧ s.m.alive c.ch.val = true ∧ bit (s.m.monSet c.ix Off.MON_CTL) 0 = true ∧
      bit (s.m.monSet c.ix Off.MON_CTL) 4 = true ∧ (s.m.clus c.ix).mon.inj = none ∧ (s.m.clus c.ix).mon.queue = [] ∧
      fld (s.m.monSlot c.ix) 9 0 = (s.m.clus c.ix).mon.src ∧ fld (s.m.monSet c.ix Off.MON_CTL) 3 1 = (s.m.clus c.ix).mon.rate ∧
      (s.m.clus c.ix).mon.discard = 0 ∧ (s.m.clus c.ix).mon.words.length + 1 ≤ fld (s.m.monSlot c.ix) 13 10) ∧
    (∃ (s : State) (c : ClusterRef), s.m.Settled ∧ s.m.alive c.ch.val = true ∧ bit (s.m.monSet c.ix Off.MON_CTL) 0 = true ∧
      bit (s.m.monSet c.ix Off.MON_CTL) 4 = true ∧ (s.m.clus c.ix).mon.inj = none ∧ (s.m.clus c.ix).mon.queue = [] ∧
      fld (s.m.monSlot c.ix) 9 0 = (s.m.clus c.ix).mon.src ∧ fld (s.m.monSet c.ix Off.MON_CTL) 3 1 = (s.m.clus c.ix).mon.rate ∧
      0 < (s.m.clus c.ix).mon.discard ∧ (s.m.mgt 8).restarting = false) ∧
    (∃ (s : State) (c : ClusterRef), s.m.Settled ∧ s.m.alive c.ch.val = true ∧ bit (s.m.monSet c.ix Off.MON_CTL) 0 = true ∧
      bit (s.m.monSet c.ix Off.MON_CTL) 4 = true ∧ (s.m.clus c.ix).mon.inj = none ∧ (s.m.clus c.ix).mon.queue = [] ∧
      fld (s.m.monSlot c.ix) 9 0 = (s.m.clus c.ix).mon.src ∧ fld (s.m.monSet c.ix Off.MON_CTL) 3 1 = (s.m.clus c.ix).mon.rate ∧
      (s.m.clus c.ix).mon.discard = 0 ∧ (s.m.clus c.ix).mon.ovl = false ∧ (s.m.clus c.ix).mon.slot < 16 ∧ fld (s.m.monSlot c.ix) 5 0 < 20 ∧
      (s.m.clus c.ix).mon.words.length = fld (s.m.monSlot c.ix) 13 10) ∧
    (∃ (s : State) (c : ClusterRef), s.m.Settled ∧ s.m.alive c.ch.val = true ∧ 256 ≤ (s.m.therm c.ix).sinceOffset ∧
      (s.m.therm c.ix).started = true) :=
  ⟨⟨(monitorOn fun m => { m with src := 5, discard := 0, words := [5, 6] }), ⟨0, 0⟩, by decide +kernel⟩,
    ⟨(monitorOn fun m => { m with src := 5, discard := 0 }), ⟨0, 0⟩, by unfold Dev.Settled; decide +kernel⟩,
    ⟨up, ⟨0, 7⟩, by unfold Dev.Settled; decide +kernel⟩,
    ⟨(monitorOn fun m => { m with src := 5, discard := 0, words := [5] }), ⟨0, 0⟩, by unfold Dev.Settled; decide +kernel⟩,
    ⟨(thermal fun t => { t with sinceOffset := 256, started := true, diodes := [some 1600, some 1600, none, none], o := 0x411C0000#32 }),
      ⟨0, 7⟩, by unfold Dev.Settled; decide +kernel⟩⟩

/-- States and operands meet the hypotheses of every clause of `Obligations.HeatIsShed`. -/
theorem test_meets_HeatIsShed :
    (∃ (s : State) (c : ClusterRef), s.m.Settled ∧ s.m.alive c.ch.val = true ∧ (s.m.therm c.ix).state = ThState.asked ∧
      (s.m.therm c.ix).grace ≤ 1) ∧
    (∃ (s : State) (c : ClusterRef) (k : Cut), s.m.Settled ∧ s.m.alive c.ch.val = true ∧ (s.m.therm c.ix).cut = some k ∧
      (s.m.therm c.ix).state = ThState.enforced ∧ 64 ≤ (s.m.therm c.ix).tick) ∧
    (∃ (s : State) (c : ClusterRef), s.m.Settled ∧ s.m.alive c.ch.val = true ∧ 64 ≤ (s.m.therm c.ix).tick ∧ 0 < (s.m.therm c.ix).clock ∧
      (s.m.therm c.ix).state = ThState.enforced) ∧
    (∃ (s : State) (c : ClusterRef), s.m.Settled ∧ s.m.alive c.ch.val = true ∧ 64 ≤ (s.m.therm c.ix).tick ∧ 0 < (s.m.therm c.ix).clock ∧
      ((s.m.therm c.ix).state = ThState.warning ∨ (s.m.therm c.ix).state = ThState.nominal)) ∧
    (∃ (s : State) (c : ClusterRef) (fn : Fn), s.m.Settled ∧ s.m.alive c.ch.val = true ∧ s.m.Writes fn ⟨.thmCh, c.ch.val, 0⟩ Off.THM_LIM) ∧
    (∃ (s : State) (ch : ChId), s.m.alive ch.val = true ∧ (s.m.chan ch.val).orderly = true ∧ (s.m.chan ch.val).stopCkpt = true ∧
      s.m.stopLeft ch.val = false ∧ s.m.fltState ch.val ≠ 2 ∧ s.m.Settled ∧ s.m.fltState ch.val = 0 ∧ s.m.NoWork ch.val) ∧
    (∃ (s : State) (ch : ChId) (c : ClusterRef), s.m.alive ch.val = true ∧ c.ch = ch ∧ s.m.vin = true ∧ (s.m.chan ch.val).tripped = false ∧
      s.m.fltState ch.val ≠ 2 ∧ s.m.Settled ∧ s.m.fltState ch.val = 0 ∧ s.m.NoWork ch.val) :=
  ⟨⟨(thermal fun t => { t with state := .asked, grace := 1 }), ⟨0, 7⟩, by unfold Dev.Settled; decide +kernel⟩,
    ⟨(thermal fun t => { t with state := .enforced, tick := 64, cut := some oneCut }), ⟨0, 7⟩, oneCut,
      by unfold Dev.Settled; decide +kernel⟩,
    ⟨(thermal fun t => { t with state := .enforced, tick := 64, clock := 1 }), ⟨0, 7⟩, by unfold Dev.Settled; decide +kernel⟩,
    ⟨(thermal fun t => { t with state := .warning, tick := 64, clock := 2 }), ⟨0, 7⟩, by unfold Dev.Settled; decide +kernel⟩,
    ⟨up, ⟨0, 7⟩, .pf0, by unfold Dev.Settled Dev.Writes; decide +kernel⟩,
    ⟨(on up fun m => m.modChan 0 fun c => { c with orderly := true, stopCkpt := true }), 0,
      by unfold Dev.Settled Dev.NoWork; decide +kernel⟩,
    ⟨up, 0, ⟨0, 7⟩, by unfold Dev.Settled Dev.NoWork; decide +kernel⟩⟩

/-- States and operands meet the hypotheses of every clause of `Obligations.TilesAreServiced`. -/
theorem test_meets_TilesAreServiced :
    (∃ (s : State) (core : CoreRef) (fn : Fn), s.m.Settled ∧ s.m.Writes fn ⟨.bkgCh, core.ch.val, 0⟩ Off.BKG_CMD ∧
      (s.m.core core.ix).bkg.due = none ∧ (s.m.core core.ix).bkg.running = none) ∧
    (∃ (s : State) (core : CoreRef) (fn : Fn), s.m.Settled ∧ s.m.Writes fn ⟨.bkgCh, core.ch.val, 0⟩ Off.BKG_CMD ∧
      ((s.m.core core.ix).bkg.due.isSome = true ∨ (s.m.core core.ix).bkg.running.isSome = true) ∧ s.m.programs core.ch.val = true ∧
      (s.m.core core.ix).bkg.running.isSome = true ∧ (s.m.core core.ix).bkg.done = false) ∧
    (∃ (s : State) (core : CoreRef), s.m.Settled ∧ s.m.running core.ch.val = true ∧ (s.m.core core.ix).bkg.due.isSome = true ∧
      (s.m.core core.ix).bkg.running = none ∧ (s.m.core core.ix).bkg.late = false ∧
      max 1 (s.m.inForce .bkgCh core.ch.val 0 Off.BKG_LATE 23 0) ≤ (s.m.core core.ix).bkg.waited ∧ s.m.Records core.ch.val 89) ∧
    (∃ (s : State) (core : CoreRef) (c : TileCal), s.m.Settled ∧ s.m.programs core.ch.val = true ∧
      (s.m.core core.ix).bkg.running.isSome = true ∧ (s.m.core core.ix).bkg.done = false ∧ c.tile.val < 16 ∧ c.convFail = [] ∧
      c.driverFail = false ∧ c.rowConvFail = false ∧ (s.m.tile (core.cluster.ix * 132 + core.co.val * 16 + c.tile.val)).state ≠
      TState.programming ∧ (s.m.tile (core.cluster.ix * 132 + core.co.val * 16 + c.tile.val)).state ≠ TState.retired) ∧
    (∃ (s : State) (fn : Fn) (core : CoreRef) (w : Word), s.m.Settled ∧
      s.m.Writes fn { kind := .arr, ch := core.ch.val, inst := core.cl.val * 8 + core.co.val } Off.ARR_TCMD ∧
      ((s.m.tile ((core.ch.val * 8 + core.cl.val) * 132 + core.co.val * 16 + fld w 3 0)).state = TState.retired ∨ fld w 6 4 ≠ 1 ∧
      fld w 6 4 ≠ 2)) ∧
    (∃ (s : State) (fn : Fn) (core : CoreRef) (w : Word), s.m.Settled ∧
      s.m.Writes fn { kind := .arr, ch := core.ch.val, inst := core.cl.val * 8 + core.co.val } Off.ARR_TCMD ∧
      (fld w 6 4 = 1 ∨ fld w 6 4 = 2) ∧ ((s.m.tile ((core.ch.val * 8 + core.cl.val) * 132 + core.co.val * 16 + fld w 3 0)).state =
      TState.programming ∨ (s.m.tile ((core.ch.val * 8 + core.cl.val) * 132 + core.co.val * 16 + fld w 3 0)).state = TState.blocking)) ∧
    (∃ (s : State) (fn : Fn) (core : CoreRef) (w : Word), s.m.Settled ∧
      s.m.Writes fn { kind := .arr, ch := core.ch.val, inst := core.cl.val * 8 + core.co.val } Off.ARR_TCMD ∧ fld w 6 4 = 1 ∧
      (s.m.tile ((core.ch.val * 8 + core.cl.val) * 132 + core.co.val * 16 + fld w 3 0)).state = TState.idle) ∧
    (∃ (s : State) (fn : Fn) (core : CoreRef) (w : Word), s.m.Settled ∧
      s.m.Writes fn { kind := .arr, ch := core.ch.val, inst := core.cl.val * 8 + core.co.val } Off.ARR_TCMD ∧ fld w 6 4 = 2 ∧
      ((s.m.tile ((core.ch.val * 8 + core.cl.val) * 132 + core.co.val * 16 + fld w 3 0)).state = TState.idle ∨ (s.m.tile ((core.ch.val * 8 +
      core.cl.val) * 132 + core.co.val * 16 + fld w 3 0)).state = TState.ready)) :=
  ⟨⟨up, core63, .pf0, by unfold Dev.Settled Dev.Writes; decide +kernel⟩,
    ⟨(background fun b => { b with running := some 5 }), core63, .pf0, by unfold Dev.Settled Dev.Writes; decide +kernel⟩,
    ⟨(background fun b => { b with due := some 5, waited := 2^24 }), core63, by unfold Dev.Settled Dev.Records; decide +kernel⟩,
    ⟨(background fun b => { b with running := some 5 }), core63, tileCal, by unfold Dev.Settled; decide +kernel⟩,
    ⟨(tileIn .idle), .pf0, core63, 0x3F, by unfold Dev.Settled Dev.Writes; decide +kernel⟩,
    ⟨(tileIn .blocking), .pf0, core63, 0x2F, by unfold Dev.Settled Dev.Writes; decide +kernel⟩,
    ⟨(tileIn .idle), .pf0, core63, 0x1F, by unfold Dev.Settled Dev.Writes; decide +kernel⟩,
    ⟨(tileIn .ready), .pf0, core63, 0x2F, by unfold Dev.Settled Dev.Writes; decide +kernel⟩⟩

/-- States and operands meet the hypotheses of every clause of `Obligations.ReadsAreQueued`. -/
theorem test_meets_ReadsAreQueued :
    (∃ (s : State) (tile : TileRef) (d : MvmDesc) (sl : Slice) (e : Exec) (q : QPart), s.m.running tile.ch.val = true ∧
      (s.m.tile (s.m.serving tile.ix)).state = TState.ready ∧ (s.m.tile (s.m.serving tile.ix)).slices[d.slice.val]? = some sl ∧
      s.m.heldInput (s.m.tile (s.m.serving tile.ix)) sl (s.m.tileServes (s.m.serving tile.ix)) d false = some (e, q) ∧
      (queued (s.m.tile (s.m.serving tile.ix))).length < 5 ∧ w5Bad sl q.inp false = false) ∧
    (∃ (s : State) (tile : TileRef) (d : MvmDesc) (sl : Slice) (e : Exec) (q : QPart), s.m.running tile.ch.val = true ∧
      (s.m.tile (s.m.serving tile.ix)).state = TState.ready ∧ (s.m.tile (s.m.serving tile.ix)).slices[d.slice.val]? = some sl ∧
      s.m.transOk (s.m.serving tile.ix) = true ∧ s.m.heldInput (s.m.tile (s.m.serving tile.ix)) sl (s.m.tileServes (s.m.serving tile.ix)) d
      true = some (e, q) ∧ (queued (s.m.tile (s.m.serving tile.ix))).length < 5 ∧ w5Bad sl q.inp true = false) ∧
    (∃ (s : State) (tile : TileRef) (d : MvmDesc) (sl : Slice) (e : Exec) (l : Layer) (b : Block) (p : Pattern),
      s.m.running tile.ch.val = true ∧ (s.m.tile (s.m.serving tile.ix)).state = TState.ready ∧
      (s.m.tile (s.m.serving tile.ix)).slices[d.slice.val]? = some sl ∧ s.m.transOk (s.m.serving tile.ix) = false ∧
      s.m.execOf (s.m.tileServes (s.m.serving tile.ix)) d.exec = some e ∧ e.transpose = true ∧
      s.m.sliceBlock (s.m.tile (s.m.serving tile.ix)) sl = some (l, b) ∧
      s.m.patOfLayer ((s.m.tile (s.m.serving tile.ix)).ctx.getD 0) sl.layer = some p ∧
      (s.m.clus (s.m.tileServes (s.m.serving tile.ix) / 8)).pae.run = none ∧
      s.m.Awaits (s.m.tileServes (s.m.serving tile.ix)) d.group.val d.epoch.val (leafIx l b (s.m.tileServes (s.m.serving tile.ix)) true)
      d.vec.val) ∧
    (∃ (s : State) (tile : TileRef), s.m.running tile.ch.val = true ∧ (s.m.tile (s.m.serving tile.ix)).state ≠ TState.ready ∧
      s.m.Records (tileCh (s.m.serving tile.ix)) 12) :=
  ⟨⟨(tileReady id), lastTile, descriptorZero, oneSlice, (execution 6 false []), { quantPart [] with fmt := 2 }, by decide +kernel⟩,
    ⟨(set .arr 63 Off.ARR_CTL 3 3 1 (tileReady id)), lastTile, descriptorTranspose, oneSlice, transposeExec,
      { quantPart [2] with fmt := 1, span := 1 }, by decide +kernel⟩,
    ⟨(on transposeGroup fun m => m.modTile 1051 fun t => { t with transBad := true }), lastTile, descriptorTranspose, oneSlice,
      transposeExec, tiledLayer, (tiledLayer.blocks.headD ⟨0, 0, 256, 1, 1, 0, 256, 256, 0, 0, 1, 0, 0, 0, [0]⟩), tiledPattern,
      by unfold Dev.Awaits Dev.Records; decide +kernel⟩,
    ⟨(rec 12 up), lastTile, by unfold Dev.Records; decide +kernel⟩⟩

/-- States and operands meet the hypotheses of every clause of `Obligations.SumsAreCorrected`. -/
theorem test_meets_SumsAreCorrected :
    (∃ (s : State) (tile : TileRef) (late : Nat) (dev : AnalogDev), s.m.running tile.ch.val = true ∧
      Instr.mvmSumsArrive tile ∈ [Instr.mvmSumsArrive tile, Instr.pounceShareDone ⟨tile, late⟩, Instr.rereadComplete tile dev]) ∧
    (∃ (s : State) (tile : TileRef) (m : Mvm) (sl : Slice), (s.m.running tile.ch.val = true ∧
      (s.m.tile (s.m.serving tile.ix)).slices[m.d.slice.val]? = some sl ∧ (queued (s.m.tile (s.m.serving tile.ix))).head? = some m ∧
      m.phase = MvmPhase.reading ∧ m.transpose = false ∧ m.exact = false ∧ sl.dup.isSome = true ∧ (s.m.dupMvm sl m).isSome = true) ∧
      (∀ (e : Exec), s.m.execOf (s.m.tileServes (s.m.serving tile.ix)) m.d.exec = some e → e.accepted = false ∧ e.seen + 1 < e.mvms) ∧
      (∀ (k2 : Nat) (m2 : Mvm), s.m.dupMvm sl m = some (k2, m2) → m2.phase ≠ MvmPhase.decided)) ∧
    (∃ (s : State) (tile : TileRef) (m : Mvm) (sl : Slice), s.m.running tile.ch.val = true ∧
      (s.m.tile (s.m.serving tile.ix)).slices[m.d.slice.val]? = some sl ∧ (queued (s.m.tile (s.m.serving tile.ix))).head? = some m ∧
      m.phase = MvmPhase.reading ∧ m.pounce = false ∧ m.transpose = true) ∧
    (∃ (s : State) (tile : TileRef) (m : Mvm) (sl : Slice), (s.m.running tile.ch.val = true ∧
      (s.m.tile (s.m.serving tile.ix)).slices[m.d.slice.val]? = some sl ∧ (queued (s.m.tile (s.m.serving tile.ix))).head? = some m ∧
      m.phase = MvmPhase.reading ∧ m.pounce = false ∧ m.transpose = false ∧ m.exact = true) ∧ (∀ (e : Exec),
      s.m.execOf (s.m.tileServes (s.m.serving tile.ix)) m.d.exec = some e → e.accepted = false ∧ e.seen + 1 < e.mvms)) ∧
    (∃ (s : State) (tile : TileRef) (m : Mvm) (sl : Slice), (s.m.running tile.ch.val = true ∧
      (s.m.tile (s.m.serving tile.ix)).slices[m.d.slice.val]? = some sl ∧ (queued (s.m.tile (s.m.serving tile.ix))).head? = some m ∧
      m.phase = MvmPhase.reading ∧ m.pounce = false ∧ m.transpose = false ∧ m.exact = false ∧ sl.dup = none ∧
      s.m.inForce .cor (coreCh (s.m.tileServes (s.m.serving tile.ix))) (coreIn (s.m.tileServes (s.m.serving tile.ix))) Off.COR_CTL 2 2 = 0 ∧
      (s.m.unchecked (s.m.serving tile.ix) m || !overConf (s.m.figureOf (s.m.serving tile.ix) sl m).fst (s.m.figureOf (s.m.serving tile.ix)
      sl m).snd (s.m.confOf (s.m.serving tile.ix) sl).fst) = true) ∧ (∀ (e : Exec),
      s.m.execOf (s.m.tileServes (s.m.serving tile.ix)) m.d.exec = some e → e.accepted = false ∧ e.seen + 1 < e.mvms)) ∧
    (∃ (s : State) (tile : TileRef) (m : Mvm) (sl : Slice), (s.m.running tile.ch.val = true ∧
      (s.m.tile (s.m.serving tile.ix)).slices[m.d.slice.val]? = some sl ∧ (queued (s.m.tile (s.m.serving tile.ix))).head? = some m ∧
      m.phase = MvmPhase.reading ∧ m.pounce = false ∧ m.transpose = false ∧ m.exact = false ∧ sl.dup = none ∧
      s.m.inForce .cor (coreCh (s.m.tileServes (s.m.serving tile.ix))) (coreIn (s.m.tileServes (s.m.serving tile.ix))) Off.COR_CTL 2 2 = 0 ∧
      (s.m.unchecked (s.m.serving tile.ix) m || !overConf (s.m.figureOf (s.m.serving tile.ix) sl m).fst (s.m.figureOf (s.m.serving tile.ix)
      sl m).snd (s.m.confOf (s.m.serving tile.ix) sl).fst) = false ∧ m.reads < (s.m.confOf (s.m.serving tile.ix) sl).snd) ∧ (∀ (e : Exec),
      s.m.execOf (s.m.tileServes (s.m.serving tile.ix)) m.d.exec = some e → e.accepted = false ∧ e.seen + 1 < e.mvms)) ∧
    (∃ (s : State) (tile : TileRef) (m : Mvm) (sl : Slice), s.m.running tile.ch.val = true ∧
      (s.m.tile (s.m.serving tile.ix)).slices[m.d.slice.val]? = some sl ∧ List.find? (fun m =>
      !m.pounce) (s.m.tile (s.m.serving tile.ix)).mvms = some m ∧ m.phase ≠ MvmPhase.waiting) ∧
    (∃ (s : State) (tile : TileRef) (m : Mvm) (sl : Slice), s.m.running tile.ch.val = true ∧
      (s.m.tile (s.m.serving tile.ix)).slices[m.d.slice.val]? = some sl ∧ List.find? (fun m =>
      !m.pounce) (s.m.tile (s.m.serving tile.ix)).mvms = some m ∧ m.phase = MvmPhase.waiting ∧
      s.m.Awaits (s.m.tileServes (s.m.serving tile.ix)) m.d.group.val m.d.epoch.val (s.m.leafOf (s.m.serving tile.ix) sl { m with
      pounce := true } m.vals).ix (s.m.leafOf (s.m.serving tile.ix) sl { m with pounce := true } m.vals).vec) ∧
    (∃ (s : State) (tile : TileRef) (m : Mvm) (sl : Slice) (dev : AnalogDev), s.m.running tile.ch.val = true ∧
      (s.m.tile (s.m.serving tile.ix)).slices[m.d.slice.val]? = some sl ∧ (queued (s.m.tile (s.m.serving tile.ix))).head? = some m ∧
      m.phase = MvmPhase.rereading ∧ m.pounce = false ∧ sl.dup = none ∧
      s.m.inForce .cor (coreCh (s.m.tileServes (s.m.serving tile.ix))) (coreIn (s.m.tileServes (s.m.serving tile.ix))) Off.COR_CTL 2 2 = 0 ∧
      (s.m.unchecked (s.m.serving tile.ix) (addReads (s.m.tile (s.m.serving tile.ix)) sl (s.m.readHow (s.m.serving tile.ix) m.bits m.gain)
      dev (if m.reads = 1 then 1 else 2) m).fst || !overConf (s.m.figureOf (s.m.serving tile.ix) sl (addReads (s.m.tile (s.m.serving
      tile.ix)) sl (s.m.readHow (s.m.serving tile.ix) m.bits m.gain) dev (if m.reads = 1 then 1 else 2) m).fst).fst (s.m.figureOf
      (s.m.serving tile.ix) sl (addReads (s.m.tile (s.m.serving tile.ix)) sl (s.m.readHow (s.m.serving tile.ix) m.bits m.gain) dev (if
      m.reads = 1 then 1 else 2) m).fst).snd (s.m.confOf (s.m.serving tile.ix) sl).fst) = true) :=
  ⟨⟨(running oneMvm), lastTile, 3, [(3, 5)], by decide +kernel⟩,
    ⟨dupRuns, lastTile, oneMvm, dupSlice, by decide +kernel, ofSome (by decide +kernel), ofPair (by decide +kernel)⟩,
    ⟨(running transposeMvm), lastTile, transposeMvm, oneSlice, by decide +kernel⟩,
    ⟨(running exactMvm), lastTile, exactMvm, oneSlice, by decide +kernel, ofSome (by decide +kernel)⟩,
    ⟨(set .cor 63 Off.COR_CTL 2 2 0 (running oneMvm)), lastTile, oneMvm, oneSlice, by decide +kernel, ofSome (by decide +kernel)⟩,
    ⟨(set .cor 63 Off.COR_CTL 2 2 0 (running wrongMvm)), lastTile, wrongMvm, oneSlice, by decide +kernel, ofSome (by decide +kernel)⟩,
    ⟨(running oneMvm), lastTile, oneMvm, oneSlice, by decide +kernel⟩,
    ⟨shareAwaited, lastTile, waitingMvm, oneSlice, by unfold Dev.Awaits Dev.Records; decide +kernel⟩,
    ⟨(set .cor 63 Off.COR_CTL 2 2 0 (running rereadMvm)), lastTile, rereadMvm, oneSlice, [], by decide +kernel⟩⟩

/-- States and operands meet the hypotheses of every clause of `Obligations.DriftIsTracked`. -/
theorem test_meets_DriftIsTracked :
    (∃ (s : State) (ch : ChId) (cl : ClId) (i : Fin 132), s.m.Settled ∧ s.m.running ch.val = true ∧
      s.m.inForce .cor ch.val (coreIn (s.m.tileServes ((ch.val * 8 + cl.val) * 132 + i.val))) Off.COR_CTL 4 4 = 1 ∧
      ((s.m.tile ((ch.val * 8 + cl.val) * 132 + i.val)).state = TState.ready ∨ (s.m.tile ((ch.val * 8 + cl.val) * 132 + i.val)).state =
      TState.shadow) ∧ 96 ≤ (s.m.tile ((ch.val * 8 + cl.val) * 132 + i.val)).slack ∧
      (s.m.tile ((ch.val * 8 + cl.val) * 132 + i.val)).probes < s.m.inForce .corCh ch.val 0 Off.COR_DRIFT 20 16) ∧
    (∃ (s : State) (ch : ChId), s.m.Settled ∧ s.m.running ch.val = true ∧ (s.m.chan ch.val).driftLeft = 0 ∧ s.m.Records ch.val 20 ∧
      s.m.Records ch.val 21) ∧
    (∃ (s : State) (ch : ChId) (k : Nat) (t : Tile), s.m.Settled ∧ s.m.running ch.val = true ∧ (s.m.chan ch.val).driftLeft = 0 ∧
      List.filter (fun e => decide (tileCh e.fst = ch.val ∧ e.snd.state = TState.ready)) s.m.tiles = [(k, t)] ∧ s.m.tile k = t ∧
      s.m.inForce .corCh ch.val 0 Off.COR_DRIFT 20 16 ≤ t.probes * 2 ∧ s.m.inForce .cor ch.val (coreIn (s.m.tileServes k)) Off.COR_CTL 4 4 =
      1 ∧ t.zeroW = 0 ∧ s.m.Records ch.val 21) ∧
    (∃ (s : State) (ch : ChId) (tile : TileRef) (p : Nat), s.m.Settled ∧ s.m.running ch.val = true ∧ tile.ch = ch ∧
      (s.m.tile ((List.find? (fun sp => decide ((s.m.tile sp).role = SpareRole.adopted tile.ix) && decide ((s.m.tile sp).state ≠
      TState.retired)) (s.m.sparesOf tile.ix)).getD tile.ix)).refreshDue = some p ∧
      p + max 1 (s.m.inForce .corCh (tileCh ((List.find? (fun sp => decide ((s.m.tile sp).role = SpareRole.adopted tile.ix) && decide
      ((s.m.tile sp).state ≠ TState.retired)) (s.m.sparesOf tile.ix)).getD tile.ix)) 0 Off.COR_RFW 15 0) ≤ (s.m.chan (tileCh ((List.find?
      (fun sp => decide ((s.m.tile sp).role = SpareRole.adopted tile.ix) && decide ((s.m.tile sp).state ≠ TState.retired)) (s.m.sparesOf
      tile.ix)).getD tile.ix))).plank ∧ (s.m.spareWith (tileCl tile.ix) fun x => decide (x = SpareRole.standin tile.ix)) = none) ∧
    (∃ (s : State) (tile : TileRef) (lr : LocRun) (m : Fin 8), s.m.Settled ∧ s.m.running tile.ch.val = true ∧
      (s.m.tile (s.m.serving tile.ix)).loc = some lr ∧ Store.get 0 m.val lr.done < 4 ∧ 96 ≤ (s.m.tile (s.m.serving tile.ix)).slack) ∧
    (∃ (s : State) (tile : TileRef) (lr : LocRun), s.m.Settled ∧ s.m.running tile.ch.val = true ∧
      (s.m.tile (s.m.serving tile.ix)).loc = some lr ∧ (∀ (m : Nat), m < 8 → 4 ≤ Store.get 0 m lr.done) ∧ (∀ (j : Nat),
      j ∈ bandCols (s.m.tile (s.m.serving tile.ix)) → flagged Config.pairPos (s.m.tile (s.m.serving tile.ix)) lr j = false)) ∧
    (∃ (s : State) (tile : TileRef) (lr : LocRun) (j : Nat), s.m.Settled ∧ s.m.running tile.ch.val = true ∧
      (s.m.tile (s.m.serving tile.ix)).loc = some lr ∧ (∀ (m : Nat), m < 8 → 4 ≤ Store.get 0 m lr.done) ∧
      List.filter (flagged Config.pairPos (s.m.tile (s.m.serving tile.ix)) lr) (bandCols (s.m.tile (s.m.serving tile.ix))) = [j] ∧
      (s.m.tile (s.m.serving tile.ix)).digCols.length < 4 ∧ (s.m.tile (s.m.serving tile.ix)).digCols.contains j = false ∧
      Store.get 0 j (s.m.tile (s.m.serving tile.ix)).flaggedAt = 0 ∧ (∀ (e : Nat × Nat),
      e ∈ (s.m.tile (s.m.serving tile.ix)).colMap → e.fst ≠ j)) :=
  ⟨⟨probing, 0, 7, 127, by unfold Dev.Settled; decide +kernel⟩,
    ⟨(on probing fun m => m.modChan 0 fun c => { c with driftLeft := 0 }), 0, by unfold Dev.Settled Dev.Records; decide +kernel⟩,
    ⟨driftLast, 0, 1051, (driftLast.m.tile 1051), by unfold Dev.Settled Dev.Records; decide +kernel⟩,
    ⟨(on (tileReady fun t => { t with refreshDue := some 0 }) fun m => m.modChan 0 fun c => { c with plank := 70000 }), 0, lastTile, 0,
      by unfold Dev.Settled; decide +kernel⟩,
    ⟨(locating 31 false), lastTile, (locRun 31 []), 7, by unfold Dev.Settled; decide +kernel⟩,
    ⟨(locating 32 true), lastTile, (locRun 32 []), by unfold Dev.Settled; decide +kernel⟩,
    ⟨oneFlagged, lastTile, (locRun 32 [(0, 100000)]), 0, by unfold Dev.Settled; decide +kernel⟩⟩

/-- States and operands meet the hypotheses of every clause of `Obligations.ShadowsAreCompared`. -/
theorem test_meets_ShadowsAreCompared :
    (∃ (s : State) (c : ClusterRef) (m : Mvm) (vs : Slice) (ss : Slice), s.m.Settled ∧ s.m.running c.ch.val = true ∧
      s.m.inForce .corCh c.ch.val 0 Off.COR_SHD_CTL 0 0 = 1 ∧ (s.m.clus c.ix).shadow.valid = true ∧
      (s.m.tile (c.ix * 132 + 128 + (s.m.clus c.ix).shadow.spare)).state = TState.shadow ∧ (s.m.clus c.ix).shadow.sample = some m ∧
      (s.m.tile (s.m.serving (c.ix * 132 + (s.m.clus c.ix).shadow.victim))).slices[m.d.slice.val]? = some vs ∧
      (s.m.tile (c.ix * 132 + 128 + (s.m.clus c.ix).shadow.spare)).slices[m.d.slice.val]? = some ss) ∧
    (∃ (s : State) (c : ClusterRef) (a : List F32) (b : List F32) (dig : List F32) (g : Int) (p : Int) (codes : List Int), s.m.Settled ∧
      s.m.running c.ch.val = true ∧ (s.m.clus c.ix).shadow.held = some (a, b, dig, g :: p :: codes) ∧ (s.m.clus c.ix).shadow.vicCnt = 0 ∧
      (s.m.clus c.ix).shadow.sprCnt = 0) ∧
    (∃ (s : State) (c : ClusterRef), s.m.Settled ∧ s.m.running c.ch.val = true ∧
      (s.m.clus c.ix).shadow.since + 2 ^ s.m.inForce .corCh c.ch.val 0 Off.COR_SHD_CTL 20 16 ≤ (s.m.chan c.ch.val).plank) :=
  ⟨⟨(shadowing id), ⟨0, 7⟩, oneMvm, oneSlice, oneSlice, by unfold Dev.Settled; decide +kernel⟩,
    ⟨(shadowing fun x => { x with held := some ([0x40A00000#32, 0], [0,0], [0,0], [0, 1, 3, -2, 1]) }), ⟨0, 7⟩, [0x40A00000#32, 0], [0,0],
      [0,0], 0, 1, [3,-2,1], by unfold Dev.Settled; decide +kernel⟩,
    ⟨(on (shadowing id) fun m => m.modChan 0 fun c => { c with plank := 2 ^ 31 }), ⟨0, 7⟩, by unfold Dev.Settled; decide +kernel⟩⟩

/-- States and operands meet the hypotheses of every clause of `Obligations.VectorsAreAccumulated`. -/
theorem test_meets_VectorsAreAccumulated :
    (∃ (s : State) (core : CoreRef) (q : ExecReq) (l : Layer), s.m.running core.ch.val = true ∧ s.m.layerOf q.ctx.val q.layer = some l ∧
      (q.transpose = true ∨ s.m.inForce .fulCh core.ch.val 0 Off.FUL_CTL 1 1 = 0)) ∧
    (∃ (s : State) (core : CoreRef) (w : KvRow) (p : Pattern) (st : Step) (l : Layer) (pg : PageSt) (f : Frame) (j : Nat) (nh : Nat),
      (s.m.running core.ch.val = true ∧ s.m.seqPat w.seq.ix = some p ∧ (s.m.seq w.seq.ix).step = some st ∧ p.layers[w.layer]? = some l ∧
      List.find? (fun e => decide (e.fst = pageKey w.layer (w.pos / spanP p))) (s.m.seq w.seq.ix).pages = some (pageKey w.layer (w.pos /
      spanP p), pg) ∧ headPlace (spanP p) l pg w.head = some (f, j, nh) ∧ st.start ≤ w.pos ∧ w.pos < st.stop + st.drafts ∧ f.tier ≤ 2 ∧
      core.cluster.ix = w.seq.ch.val * 8 + (s.m.seq w.seq.ix).home) ∧ (pg.state ≠ PState.present ∨ ∀ (a : Nat),
      st.kind ≠ StepKind.recompute a)) ∧
    (∃ (s : State) (c : ClusterRef), s.m.Settled ∧ s.m.running c.ch.val = true ∧ (s.m.clus c.ix).storm.wide = true ∧
      (s.m.clus c.ix).storm.left ≤ 1) ∧
    (∃ (s : State) (core : CoreRef) (g : Fin 16) (epoch : Fin 4), s.m.running core.ch.val = true ∧
      (s.m.group core.ix g.val).epoch ≠ epoch.val) ∧
    (∃ (s : State) (core : CoreRef) (g : Fin 16) (epoch : Fin 4) (leaf : Nat) (vec : Fin 16), s.m.running core.ch.val = true ∧
      (s.m.group core.ix g.val).src ≠ 0 ∧ s.m.Awaits core.ix g.val epoch.val leaf vec.val) ∧
    (∃ (s : State) (core : CoreRef) (g : Fin 16) (epoch : Fin 4) (leaf : Nat) (vec : Fin 16) (vals : List F32) (x : F32) (a : Fin (2 ^ 22)),
      s.m.running core.ch.val = true ∧ (s.m.group core.ix g.val).epoch = epoch.val ∧ (s.m.group core.ix g.val).state = GState.opened ∧
      (s.m.group core.ix g.val).leaves = [] ∧ (s.m.group core.ix g.val).seen = [] ∧ (s.m.group core.ix g.val).nLeaf = 1 ∧
      (s.m.group core.ix g.val).vecs = 1 ∧ (s.m.group core.ix g.val).bias = [] ∧ (s.m.group core.ix g.val).src = 1 ∧
      (s.m.group core.ix g.val).ofmt = 0 ∧ s.m.Records core.ch.val 30 ∧ vals = [x] ∧ vec.val = 0 ∧ leaf = 0 ∧
      (s.m.group core.ix g.val).dest = GroupDest.scratchpad a ∧ a.val + 4 ≤ 4194304) ∧
    (∃ (s : State) (core : CoreRef) (g : Fin 16) (vec : Fin 16) (l : Layer) (e : Exec) (q : SeqRef) (img : AdpImg) (aOff : Nat) (bOff :
      Nat), s.m.running core.ch.val = true ∧ s.m.serves core.ch.val = true ∧
      s.m.layerOf (s.m.group core.ix g.val).ctx (s.m.group core.ix g.val).layer = some l ∧
      s.m.execOf core.ix (s.m.group core.ix g.val).exec = some e ∧ e.seq = some q ∧ s.m.pinnedAdapter q.ix = some img ∧ List.find? (fun x =>
      decide (x.fst = (s.m.group core.ix g.val).layer)) img.layers = some ((s.m.group core.ix g.val).layer, aOff, bOff) ∧
      (List.map tileCore (redTiles l false (s.m.group core.ix g.val).first)).head? = some core.ix ∧ (s.m.group core.ix g.val).src = 0 ∧
      (s.m.group core.ix g.val).transpose = false ∧ s.m.Awaits core.ix g.val (s.m.group core.ix g.val).epoch ((s.m.group core.ix
      g.val).nLeaf - 1) vec.val) ∧
    (∃ (s : State) (core : CoreRef) (ctx : CtxId) (layer : Nat) (run : Nat), s.m.running core.ch.val = true ∧
      (s.m.topkCores ctx.val layer).contains core.ix = true ∧ s.m.keyCores (NodeKey.topk 1 ctx.val layer run) = some [core.ix] ∧
      s.m.rdF .acc core.ch.val (coreIn core.ix) Off.PG_CTL 0 0 = 0) ∧
    (∃ (s : State) (core : CoreRef) (key : NodeKey) (e : Nat) (cores : List Nat) (v : LeafVal), s.m.running core.ch.val = true ∧
      s.m.keyCores key = some (e :: cores) ∧ core.ix ∈ e :: cores ∧ List.find? (fun c =>
      decide (coreCh c = core.ch.val)) (e :: cores) = some core.ix ∧ (s.m.treeNode core.ix (key.at 2)).root = some v ∧
      coreCh e ≠ core.ch.val ∧ s.m.fabricJoins core.ch.val (coreCh e) = true ∧ key.at 2 ≠ key.at 3 ∧
      s.m.treeNode e (key.at 3) = TreeNode.fresh ∧ 1 < (List.map coreCh (e :: cores)).eraseDups.length) :=
  ⟨⟨(set .ful 63 Off.FUL_CTL 1 0 0 (set .fulCh 0 Off.FUL_CTL 1 1 0 loaded)), core63, quantReq, layer0, by decide +kernel⟩,
    ⟨decoding, core63, kvRow, pat0, ⟨.decode, 5, 6, 0, false, 0, 0, [[(1, 1)]], 0, false⟩, attn0, (onePage none), ⟨1, 0, 20000⟩, 0, 1,
      by decide +kernel, .inr fun _ => nofun⟩,
    ⟨(on up fun m => m.modClus 7 fun x => { x with storm := { x.storm with wide := true, left := 1 } }), ⟨0, 7⟩,
      by unfold Dev.Settled; decide +kernel⟩,
    ⟨(groupOpen id), core63, 15, 2, by decide +kernel⟩,
    ⟨(groupArray id), core63, 15, 3, 0, 0, by unfold Dev.Awaits Dev.Records; decide +kernel⟩,
    ⟨(groupArray fun g => { g with nLeaf := 1, dest := .scratchpad 0x3FFFFC }), core63, 15, 3, 0, 0, [F32.one], F32.one, 0x3FFFFC,
      by unfold Dev.Records; decide +kernel⟩,
    ⟨adapterServes, core63, 15, 0, tiledLayer, { execution 5 false [] with seq := some seq0, xs := [List.replicate 256 F32.one] }, seq0,
      adapterOne, 0x450, 0x4D0, by unfold Dev.Awaits Dev.Records; decide +kernel⟩,
    ⟨treeHeld, core63, 1, 0, 0, by decide +kernel⟩,
    ⟨channelTree, ⟨1, 0, 0⟩, channelNode, 63, [64], leafValue, by decide +kernel⟩⟩

/-- States and operands meet the hypotheses of every clause of `Obligations.TilesVerify`. -/
theorem test_meets_TilesVerify :
    (∃ (s : State) (ch : ChId) (cl : ClId) (tile : Fin 132), s.m.Settled ∧ s.m.programs ch.val = true ∧
      (s.m.tile ((ch.val * 8 + cl.val) * 132 + tile.val)).state = TState.programming ∧
      (s.m.tile ((ch.val * 8 + cl.val) * 132 + tile.val)).next = none ∧
      (s.m.tile ((ch.val * 8 + cl.val) * 132 + tile.val)).prog = some ProgWhy.refresh ∧
      (s.m.tile ((ch.val * 8 + cl.val) * 132 + tile.val)).wear + 1 < 9000000) ∧
    (∃ (s : State) (ch : ChId) (cl : ClId) (tile : Fin 132), s.m.Settled ∧ s.m.programs ch.val = true ∧
      (s.m.tile ((ch.val * 8 + cl.val) * 132 + tile.val)).state ≠ TState.programming) :=
  ⟨⟨(tileReady fun t => { t with state := .programming, prog := some .refresh }), 0, 7, 127, by unfold Dev.Settled; decide +kernel⟩,
    ⟨(tileReady id), 0, 7, 127, by unfold Dev.Settled; decide +kernel⟩⟩

/-- States and operands meet the hypotheses of every clause of `Obligations.AttentionRuns`. -/
theorem test_meets_AttentionRuns :
    (∃ (s : State) (core : CoreRef) (item : AttnItem) (p : ItemPlace) (qs : List QRow), s.m.Settled ∧ s.m.daePlace item = some p ∧
      queryRows p item.qs = some qs ∧ (s.m.core core.ix).dae = none ∧ core.ch = item.seq.ch ∧ s.m.serves core.ch.val = true ∧
      (core.cl.val = (s.m.seq item.seq.ix).home ∨ s.m.inForce .attCh core.ch.val 0 Off.ATT_CTL 1 1 = 1 ∧
      (s.m.clus core.cluster.ix).therm.state ≠ ThState.enforced)) ∧
    (∃ (s : State) (core : CoreRef) (a : AttnRun) (p : ItemPlace) (b : List Nat) (bs : List (List Nat)) (kvs : List KvAt), s.m.Settled ∧
      s.m.running core.ch.val = true ∧ (s.m.core core.ix).dae = some a ∧ a.blocks = b :: bs ∧ s.m.daePlace a.item = some p ∧
      s.m.readKv (some core.ix) a.item.seq.ix a.item.layer p.pat p.l (List.map (fun x => x.head) a.qs).eraseDups b = KvRead.got kvs ∧
      bs ≠ []) ∧
    (∃ (s : State) (core : CoreRef) (a : AttnRun) (p : ItemPlace) (b : List Nat) (bs : List (List Nat)) (kvs : List KvAt), s.m.Settled ∧
      s.m.running core.ch.val = true ∧ (s.m.core core.ix).dae = some a ∧ a.blocks = b :: bs ∧ s.m.daePlace a.item = some p ∧
      s.m.readKv (some core.ix) a.item.seq.ix a.item.layer p.pat p.l (List.map (fun x => x.head) a.qs).eraseDups b = KvRead.got kvs ∧
      bs = [] ∧ 1 < p.leaves.length ∧ s.m.treeNode (s.m.homeCore a.item.seq.ix) (NodeKey.attn a.item.seq a.item.layer a.item.group
      a.item.part) = TreeNode.fresh) ∧
    (∃ (s : State) (core : CoreRef) (a : AttnRun) (p : ItemPlace) (b : List Nat) (bs : List (List Nat)), s.m.Settled ∧
      s.m.running core.ch.val = true ∧ (s.m.core core.ix).dae = some a ∧ a.blocks = b :: bs ∧ s.m.daePlace a.item = some p ∧
      s.m.readKv (some core.ix) a.item.seq.ix a.item.layer p.pat p.l (List.map (fun x => x.head) a.qs).eraseDups b = KvRead.fault ∧
      s.m.Records core.ch.val 34) ∧
    (∃ (s : State) (c : ClusterRef) (item : AttnItem) (p : ItemPlace) (qs : List QRow) (kvs : List KvAt), s.m.Settled ∧
      s.m.serves c.ch.val = true ∧ s.m.paePlace item = some p ∧ queryRows p item.qs = some qs ∧ (s.m.clus c.ix).pae.run = none ∧
      c.ch = item.seq.ch ∧ c.cl.val = (s.m.seq item.seq.ix).home ∧ s.m.readKv none item.seq.ix item.layer p.pat p.l (List.map (fun x =>
      x.head) qs).eraseDups (leafBlocks p.l p.a p.b item.leaf).flatten = KvRead.got kvs) ∧
    (∃ (s : State) (c : ClusterRef) (a : AttnRun) (p : ItemPlace), s.m.Settled ∧ s.m.serves c.ch.val = true ∧
      (s.m.clus c.ix).pae.run = some a ∧ s.m.paePlace a.item = some p ∧
      s.m.treeNode (s.m.homeCore a.item.seq.ix) (NodeKey.attn a.item.seq a.item.layer a.item.group a.item.part) = TreeNode.fresh ∧
      1 < p.leaves.length) ∧
    (∃ (s : State) (c : ClusterRef) (item : BwdItem) (p : ItemPlace) (kvs : List KvAt), s.m.Settled ∧ s.m.serves c.ch.val = true ∧
      s.m.bwdPlace item = some p ∧ (s.m.clus c.ix).pae.run = none ∧ c.ch = item.seq.ch ∧ c.cl.val = (s.m.seq item.seq.ix).home ∧
      item.rows.length = p.rows.length ∧ (∀ (q : Nat × Nat × Nat), q ∈ p.rows → s.m.absentPages item.seq.ix q.snd.snd = []) ∧
      s.m.readKv none item.seq.ix item.layer p.pat p.l (List.map (fun x =>
      x.fst) p.rows).eraseDups (leafBlocks p.l p.a p.b item.leaf).flatten = KvRead.got kvs) ∧
    (∃ (s : State) (c : ClusterRef) (item : SpillItem) (l : Layer) (b : Block) (p : Pattern) (x : List F32), s.m.serves c.ch.val = true ∧
      s.m.layerOf item.ctx.val item.layer = some l ∧ s.m.patOfLayer item.ctx.val item.layer = some p ∧ l.blocks[item.block]? = some b ∧
      s.m.blockSpills l b = true ∧ (l.spill = true → (s.m.spillOn item.ctx.val l).contains c.ch.val = true) ∧ item.core.cluster = c ∧
      (s.m.clus c.ix).pae.run = none ∧ item.xs = [x] ∧ s.m.Awaits item.core.ix item.group.val (s.m.group item.core.ix item.group.val).epoch
      item.leaf 0) :=
  ⟨⟨decoding, core63, decodeItem, (itemPlace decoding), (itemRows (itemPlace decoding) decodeItem), by unfold Dev.Settled; decide +kernel⟩,
    ⟨(daeWaits [[0], [1]] decoding), core63, (daeBlocks [[0], [1]]), (itemPlace decoding), [0], [[1]],
      (keysRead decoding (some 63) (itemPlace decoding) [0] [0]), by unfold Dev.Settled; decide +kernel⟩,
    ⟨(daeWaits [[0]] (stepOf .decode 260 261 decoding)), core63, (daeBlocks [[0]]), (itemPlace (stepOf .decode 260 261 decoding)), [0], [],
      (keysRead (daeWaits [[0]] (stepOf .decode 260 261 decoding)) (some 63) (itemPlace decoding) [0] [0]),
      by unfold Dev.Settled; decide +kernel⟩,
    ⟨daeUnpaged, core63, (daeBlocks [[0]]), (itemPlace decoding), [0], [], by unfold Dev.Settled Dev.Records; decide +kernel⟩,
    ⟨prompting, ⟨0, 7⟩, promptItem, (promptPlace prompting), (itemRows (promptPlace prompting) promptItem),
      (keysRead prompting none (promptPlace prompting) [0] [0,1,2,3,4,5]), by unfold Dev.Settled; decide +kernel⟩,
    ⟨paeWaits, ⟨0, 7⟩, paeRun, (promptPlace paeWaits), by unfold Dev.Settled; decide +kernel⟩,
    ⟨backwardRuns, ⟨0, 7⟩, backwardRows, backwardPlace, (keysRead backwardRuns none backwardPlace [0] [0,1,2,3]),
      by unfold Dev.Settled; decide +kernel⟩,
    ⟨spillTile, ⟨0, 7⟩, spillItem, layer0, (layer0.blocks.headD ⟨0, 0, 256, 1, 1, 0, 256, 256, 0, 0, 1, 0, 0, 0, [0]⟩), pat0,
      (List.replicate 256 F32.one), by unfold Dev.Awaits Dev.Records; decide +kernel⟩⟩

/-- States and operands meet the hypotheses of every clause of `Obligations.StateMemoryIsKept`. -/
theorem test_meets_StateMemoryIsKept :
    (∃ (s : State) (r : SeqRef) (layer : Nat) (page : Nat) (j : Nat) (pg : PageSt) (mv : PMove) (fs : List Frame), s.m.Settled ∧
      s.m.serves r.ch.val = true ∧ List.find? (fun e => decide (e.fst = pageKey layer page)) (s.m.seq r.ix).pages = some (j, pg) ∧
      pg.move = some mv ∧ mv.done = false ∧ s.m.dirOk r.ix = true ∧ s.m.walkPage r.ix (pageKey layer page) = some fs ∧
      s.m.headersOk r.ix (pageKey layer page) fs = true) ∧
    (∃ (s : State) (r : SeqRef) (layer : Nat) (page : Nat) (j : Nat) (pg : PageSt) (mv : PMove), s.m.Settled ∧ s.m.serves r.ch.val = true ∧
      List.find? (fun e => decide (e.fst = pageKey layer page)) (s.m.seq r.ix).pages = some (j, pg) ∧ pg.move = some mv ∧ mv.done = false ∧
      s.m.Records r.ch.val 41) ∧
    (∃ (s : State) (r : SeqRef) (c : Ckpt), (s.m.Settled ∧ s.m.serves r.ch.val = true ∧ (s.m.seq r.ix).copying = some c) ∧ (∀ (ttl : Nat),
      (s.m.seq r.ix).stopping ≠ Stopping.thermal ttl)) ∧
    (∃ (s : State) (r : SeqRef) (c : Ckpt) (ttl : Nat), s.m.Settled ∧ s.m.serves r.ch.val = true ∧ (s.m.seq r.ix).copying = some c ∧
      (s.m.seq r.ix).stopping = Stopping.thermal ttl) ∧
    (∃ (s : State) (r : SeqRef) (ttl : Nat) (t : Nat) (ck : Bool), s.m.Settled ∧ s.m.serves r.ch.val = true ∧
      (s.m.seq r.ix).stopping = Stopping.park ttl (some t) true ck false ∧ t ≠ 4) ∧
    (∃ (s : State) (r : SeqRef) (ttl : Nat) (ck : Bool), s.m.Settled ∧ s.m.serves r.ch.val = true ∧
      (s.m.seq r.ix).stopping = Stopping.park ttl (some 4) true ck false) ∧
    (∃ (s : State) (r : SeqRef), s.m.Settled ∧ s.m.serves r.ch.val = true ∧ s.m.st r.ix = St.PARKED ∧
      s.m.ent r.ix Ent.EXPIRY 8 ≤ s.m.timeOf r.ix + s.m.periodNs ∧ (s.m.seq r.ix).restore = none ∧ s.m.resumeIn r.ix = false) ∧
    (∃ (s : State) (r : SeqRef) (k : Nat) (host : HostView), s.m.Settled ∧ s.m.serves r.ch.val = true ∧ (s.m.seq r.ix).restore = some (k,
      true) ∧ (s.m.seq r.ix).ready = false ∧ ((s.m.seq r.ix).inPlace = true ∨ (List.all (s.m.seq r.ix).pages fun e =>
      decide (e.snd.state ≠ PState.present) || e.snd.frames.zipIdx.all fun f =>
      if f.fst.tier = 4 then s.m.hoodHeaderOk host r.ix e.fst f.snd e.snd f.fst else s.m.headerOk r.ix e.fst f.snd f.fst) = true ∧
      ∀ (e : Nat × PageSt), e ∈ (s.m.seq r.ix).pages → ∀ (f : Frame), f ∈ e.snd.frames → f.tier ≠ 4) ∧ (s.m.seq r.ix).inPlace = false ∧
      (List.all (s.m.seq r.ix).pages fun e => decide (e.snd.state ≠ PState.present) || e.snd.frames.zipIdx.all fun f =>
      if f.fst.tier = 4 then s.m.hoodHeaderOk host r.ix e.fst f.snd e.snd f.fst else s.m.headerOk r.ix e.fst f.snd f.fst) = true ∧
      s.m.Records r.ch.val 38) ∧
    (∃ (s : State) (r : SeqRef) (k : Nat) (host : HostView), s.m.Settled ∧ s.m.serves r.ch.val = true ∧ (s.m.seq r.ix).restore = some (k,
      true) ∧ (s.m.seq r.ix).ready = false ∧ (s.m.seq r.ix).inPlace = false ∧ (List.all (s.m.seq r.ix).pages fun e =>
      decide (e.snd.state ≠ PState.present) || e.snd.frames.zipIdx.all fun f =>
      if f.fst.tier = 4 then s.m.hoodHeaderOk host r.ix e.fst f.snd e.snd f.fst else s.m.headerOk r.ix e.fst f.snd f.fst) = false) ∧
    (∃ (s : State) (r : SeqRef) (k : Nat), s.m.Settled ∧ s.m.serves r.ch.val = true ∧ (s.m.seq r.ix).restore = some (k, false) ∧
      (if s.m.deadline r.ix = 0 then k ≤ s.m.planksOf r.ix else s.m.deadline r.ix ≤ s.m.timeOf r.ix)) :=
  ⟨⟨movedHeaders, seq0, 1, 0, (pageKey 1 0), (onePage (some pageMove)), pageMove, [⟨1, 0, 20000⟩], by unfold Dev.Settled; decide +kernel⟩,
    ⟨moving, seq0, 1, 0, (pageKey 1 0), (onePage (some pageMove)), pageMove, by unfold Dev.Settled Dev.Records; decide +kernel⟩,
    ⟨(on (entryIn 3) fun m => m.modSeq 0 fun q => { q with copying := some checkpoint }), seq0, checkpoint,
      by unfold Dev.Settled; decide +kernel, noThermal (by decide +kernel)⟩,
    ⟨(on (entryIn 3) fun m => m.modSeq 0 fun q => { q with copying := some checkpoint, stopping := .thermal 5 }), seq0, checkpoint, 5,
      by unfold Dev.Settled; decide +kernel⟩,
    ⟨(on (entryIn 6) fun m => m.modSeq 0 fun q => { q with stopping := .park 5 (some 2) true false false }), seq0, 5, 2, false,
      by unfold Dev.Settled; decide +kernel⟩,
    ⟨(on (entryIn 6) fun m => m.modSeq 0 fun q => { q with stopping := .park 5 (some 4) true false false }), seq0, 5, false,
      by unfold Dev.Settled; decide +kernel⟩,
    ⟨(entryIn 5), seq0, by unfold Dev.Settled; decide +kernel⟩,
    ⟨(restoring true), seq0, 0, [], by unfold Dev.Settled Dev.Records; decide +kernel⟩,
    ⟨(on decoding fun m => m.modSeq 0 fun q => { q with restore := some (0, true) }), seq0, 0, [], by unfold Dev.Settled; decide +kernel⟩,
    ⟨(restoring false), seq0, 0, by unfold Dev.Settled; decide +kernel⟩⟩

/-- States and operands meet the hypotheses of every clause of `Obligations.SequencesEnd`. -/
theorem test_meets_SequencesEnd :
    (∃ (s : State) (r : SeqRef), (s.m.Settled ∧ s.m.serves r.ch.val = true ∧ (s.m.st r.ix = St.PREFILL ∨ s.m.st r.ix = St.DECODE) ∧
      s.m.deadline r.ix ≠ 0 ∧ s.m.deadline r.ix ≤ s.m.timeOf r.ix ∧ s.m.st r.ix = St.DECODE ∧ s.m.EndsNow r.ix ∧ (s.m.seq r.ix).group = [] ∧
      s.m.flag r.ix 0 = false) ∧ (∀ (y z : Nat), (s.m.seq r.ix).stopping ≠ Stopping.ending y z)) ∧
    (∃ (s : State) (r : SeqRef) (p : Nat) (n : Nat), (s.m.Settled ∧ s.m.serves r.ch.val = true ∧ s.m.live r.ix = true ∧
      s.m.st r.ix ≠ St.ADMITTED ∧ (s.m.seq r.ix).held = some (p, n) ∧ (if s.m.deadline r.ix = 0 then p + n ≤ s.m.planksOf r.ix else
      s.m.deadline r.ix ≤ s.m.timeOf r.ix) ∧ s.m.st r.ix = St.DECODE ∧ s.m.EndsNow r.ix ∧ (s.m.seq r.ix).replay = [] ∧
      s.m.deadline r.ix = 0 ∧ p + n ≤ s.m.planksOf r.ix) ∧ (∀ (y z : Nat), (s.m.seq r.ix).stopping ≠ Stopping.ending y z)) ∧
    (∃ (s : State) (r : SeqRef) (k : Step), (s.m.Settled ∧ s.m.serves r.ch.val = true ∧ s.m.st r.ix = St.PREFILL ∧
      (s.m.seq r.ix).step = some k ∧ k.kind = StepKind.backward ∧ (s.m.seq r.ix).stopping = Stopping.no ∧ (s.m.seq r.ix).pend = [] ∧
      1 ≤ s.m.ringFree r.ix) ∧ (∀ (y z : Nat), (s.m.seq r.ix).stopping ≠ Stopping.ending y z)) ∧
    (∃ (s : State) (r : SeqRef), s.m.serves r.ch.val = true ∧ (s.m.seq r.ix).pend ≠ [] ∧ 1 ≤ s.m.ringFree r.ix) ∧
    (∃ (s : State) (r : SeqRef) (p : PendRec), s.m.Settled ∧ s.m.serves r.ch.val = true ∧ (s.m.seq r.ix).pend = [p] ∧
      (s.m.seq r.ix).stopping = Stopping.no ∧ (s.m.seq r.ix).group = [] ∧ 1 ≤ s.m.ringFree r.ix ∧ (s.m.chan r.ch.val).linkUp = true) :=
  ⟨⟨(ent Ent.DEADLINE 8 1 (on (entryIn 3) fun m => m.modChan 0 fun c => { c with time := 1 })), seq0,
      by unfold Dev.Settled Dev.EndsNow; decide +kernel, noEnding (by decide +kernel)⟩,
    ⟨(on (entryIn 3) fun m => (m.modChan 0 fun c => { c with plank := 7 }).modSeq 0 fun q => { q with held := some (3, 4) }), seq0, 3, 4,
      by unfold Dev.Settled Dev.EndsNow; decide +kernel, noEnding (by decide +kernel)⟩,
    ⟨tuning, seq0, backwardStep, by unfold Dev.Settled; decide +kernel, noEnding (by decide +kernel)⟩,
    ⟨(ent Ent.RING_ADDR 8 0x2000 (on (entryIn 3) fun m => m.modSeq 0 fun q => { q with pend := [pendingRec, pendingRec] })), seq0,
      by decide +kernel⟩,
    ⟨(ent Ent.RING_ADDR 8 0x2000 (on (entryIn 3) fun m => m.modSeq 0 fun q => { q with pend := [pendingRec] })), seq0, pendingRec,
      by unfold Dev.Settled; decide +kernel⟩⟩

/-- States and operands meet the hypotheses of every clause of `Obligations.EntriesAreWritten`. -/
theorem test_meets_EntriesAreWritten :
    (∃ (s : State) (fn : Fn) (r : SeqRef) (off : Fin 128) (bs : List Byte), s.m.Settled ∧ s.m.TableOn fn r ∧ bs ≠ [] ∧
      off.val + bs.length ≤ 128 ∧ (off.val ≠ Ent.CONSUMED ∨ bs.length ≠ 4) ∧ (∀ (i : Nat),
      i < bs.length → entryWritable (decide (fn = Fn.pf0)) (s.m.st r.ix) (off.val + i) = true) ∧ s.m.st r.ix = St.FREE) ∧
    (∃ (s : State) (fn : Fn) (r : SeqRef), s.m.Settled ∧ s.m.TableOn fn r ∧ (s.m.st r.ix = St.DONE ∨ s.m.st r.ix = St.FAILED)) ∧
    (∃ (s : State) (fn : Fn) (r : SeqRef) (off : Fin 128) (bs : List Byte) (i : Nat), s.m.Settled ∧ s.m.TableOn fn r ∧ i < bs.length ∧
      off.val + bs.length ≤ 128 ∧ 8 ≤ off.val ∧ (off.val ≠ Ent.CONSUMED ∨ bs.length ≠ 4) ∧
      entryWritable (decide (fn = Fn.pf0)) (s.m.st r.ix) (off.val + i) = false ∧ s.m.st r.ix ≠ St.FREE ∧ s.m.live r.ix = true) ∧
    (∃ (s : State) (fn : Fn) (r : SeqRef) (c : Instr) (k : Nat), s.m.Settled ∧ s.m.TableOn fn r ∧ (c, k) ∈ [(Instr.cmdNone fn r, 0),
      (Instr.cmdPause fn r, 1), (Instr.cmdResume fn r, 2), (Instr.cmdPark fn r, 3), (Instr.cmdCancel fn r, 4)]) ∧
    (∃ (s : State) (fn : Fn) (r : SeqRef) (v : Word), s.m.Settled ∧ s.m.TableOn fn r ∧
      (s.m.written r.ix + 2 ^ 32 - BitVec.toNat v) % 2 ^ 32 ≤ 2 ^ nfld (s.m.ent r.ix Ent.RING_CFG 4) 4 0) ∧
    (∃ (s : State) (fn : Fn) (r : SeqRef) (v : Word), s.m.Settled ∧ s.m.TableOn fn r ∧
      2 ^ nfld (s.m.ent r.ix Ent.RING_CFG 4) 4 0 < (s.m.written r.ix + 2 ^ 32 - BitVec.toNat v) % 2 ^ 32) :=
  ⟨⟨(entryIn 0), .pf0, seq0, 0x68, [1,2,3,4,5,6,7,8], by unfold Dev.Settled Dev.TableOn; decide +kernel⟩,
    ⟨(entryIn 8), .pf0, seq0, by unfold Dev.Settled Dev.TableOn; decide +kernel⟩,
    ⟨(entryIn 3), .pf0, seq0, 0x7F, [1], 0, by unfold Dev.Settled Dev.TableOn; decide +kernel⟩,
    ⟨(entryIn 3), .pf0, seq0, (.cmdNone .pf0 seq0), 0, by unfold Dev.Settled Dev.TableOn; decide +kernel⟩,
    ⟨(entryIn 3), .pf0, seq0, 0xFFFFFFFF, by unfold Dev.Settled Dev.TableOn; decide +kernel⟩,
    ⟨(entryIn 3), .pf0, seq0, 0xFFFFFFFE, by unfold Dev.Settled Dev.TableOn; decide +kernel⟩⟩

/-- States and operands meet the hypotheses of every clause of `Obligations.PartitionsAreGuarded`. -/
theorem test_meets_PartitionsAreGuarded :
    (∃ (s : State) (fn : Fn) (ch : ChId) (n : CtxId) (v : Word), (s.m.Settled ∧ s.m.Writes fn ⟨.rqtCh, ch.val,
      0⟩ (Off.RQT_PART + 4 * n.val)) ∧ ((∃ m, m < 64 ∧ m ≠ n.val ∧ ∃ i, (fld v 8 0 ≤ i ∧ i < fld v 8 0 + fld v 18 9) ∧
      (s.m.part ch.val m).fst ≤ i ∧ i < (s.m.part ch.val m).fst + (s.m.part ch.val m).snd.fst) ∨ 512 < fld v 8 0 + fld v 18 9 ∨ ∃ i,
      i < 512 ∧ s.m.st (ch.val * 512 + i) ≠ St.FREE ∧ ¬((s.m.part ch.val n.val).fst ≤ i ∧
      i < (s.m.part ch.val n.val).fst + (s.m.part ch.val n.val).snd.fst ↔ fld v 8 0 ≤ i ∧ i < fld v 8 0 + fld v 18 9))) ∧
    (∃ (s : State) (fn : Fn) (ch : ChId) (n : CtxId) (v : Word), (s.m.Settled ∧ s.m.Writes fn ⟨.rqtCh, ch.val,
      0⟩ (Off.RQT_PART + 4 * n.val)) ∧ ¬((∃ m, m < 64 ∧ m ≠ n.val ∧ ∃ i, (fld v 8 0 ≤ i ∧ i < fld v 8 0 + fld v 18 9) ∧
      (s.m.part ch.val m).fst ≤ i ∧ i < (s.m.part ch.val m).fst + (s.m.part ch.val m).snd.fst) ∨ 512 < fld v 8 0 + fld v 18 9 ∨ ∃ i,
      i < 512 ∧ s.m.st (ch.val * 512 + i) ≠ St.FREE ∧ ¬((s.m.part ch.val n.val).fst ≤ i ∧
      i < (s.m.part ch.val n.val).fst + (s.m.part ch.val n.val).snd.fst ↔ fld v 8 0 ≤ i ∧ i < fld v 8 0 + fld v 18 9))) :=
  ⟨⟨up, .pf0, 0, 63, (BitVec.ofNat 32 (511 + 512 * 2)), by unfold Dev.Settled Dev.Writes; decide +kernel, .inr (.inl (by decide +kernel))⟩,
    ⟨up, .pf0, 0, 63, (BitVec.ofNat 32 (511 + 512 * 1 + 2^31)), by unfold Dev.Settled Dev.Writes; decide +kernel,
      part_fits (by decide +kernel) (by decide +kernel) (by decide +kernel)⟩⟩

/-- States and operands meet the hypotheses of every clause of `Obligations.PlanksAdvance`. -/
theorem test_meets_PlanksAdvance :
    (∃ (s : State), s.m.vin = true ∧ s.m.Settled ∧ (∀ (ch : Nat), ch < 8 → s.m.cstate ch = 2 ∧ s.m.fltState ch = 0) ∧ s.m.ctxs = [] ∧
      s.m.timeMode = 0 ∧ s.m.ftime.skew = 0 ∧ s.m.ftime.slew = 0 ∧ s.m.ftime.change = none) ∧
    (∃ (s : State), s.m.Settled ∧ s.m.vin = false) ∧
    (∃ (s : State) (fn : Fn), s.m.Settled ∧ s.m.Writes fn ⟨.plk, 0, 0⟩ Off.PLK_CTL ∧ s.m.timeMode = 0 ∧ s.m.ftime.change.isSome = true) ∧
    (∃ (s : State) (fn : Fn) (v : Word), s.m.Settled ∧ s.m.Writes fn ⟨.plk, 0, 0⟩ Off.PLK_CTL ∧ s.m.timeMode = 0 ∧ s.m.ftime.change = none ∧
      (fld v 7 0 < 4 ∨ 128 < fld v 7 0 ∨ fld v 14 8 < 50 ∨ 100 < fld v 14 8)) ∧
    (∃ (s : State) (fn : Fn) (v : Word), s.m.Settled ∧ s.m.Writes fn ⟨.plk, 0, 0⟩ Off.PLK_CTL ∧ s.m.timeMode = 0 ∧ s.m.ftime.change = none ∧
      4 ≤ fld v 7 0 ∧ fld v 7 0 ≤ 128 ∧ 50 ≤ fld v 14 8 ∧ fld v 14 8 ≤ 100 ∧ s.m.minWinAll + 1600 ≤ fld v 7 0 * 1000) :=
  ⟨⟨allC2, by unfold Dev.Settled; decide +kernel⟩,
    ⟨(on allC2 fun m => { m with vin := false }), by unfold Dev.Settled; decide +kernel⟩,
    ⟨(on up fun m => { m with ftime := { m.ftime with change := some (5, 20, 80) } }), .pf0,
      by unfold Dev.Settled Dev.Writes; decide +kernel⟩,
    ⟨up, .pf0, 0x5003, by unfold Dev.Settled Dev.Writes; decide +kernel⟩,
    ⟨up, .pf0, 0x6480, by unfold Dev.Settled Dev.Writes; decide +kernel⟩⟩

/-- States and operands meet the hypotheses of every clause of `Obligations.LoadsAreCommanded`. -/
theorem test_meets_LoadsAreCommanded :
    (∃ (s : State) (fn : Fn) (ctx : CtxId), s.m.Settled ∧ s.m.Writes fn ⟨.ldrCx, 0, ctx.val⟩ Off.LDR_CMD ∧ s.m.ctxState ctx.val = 0 ∧
      Instr.ldrLoad fn ctx ∈ [Instr.ldrLoad fn ctx, Instr.ldrSwap fn ctx, Instr.ldrAbort fn ctx, Instr.ldrGo fn ctx,
      Instr.ldrUnload fn ctx]) ∧
    (∃ (s : State) (fn : Fn) (ctx : CtxId) (c : Instr) (sw : Bool), s.m.Settled ∧ s.m.Writes fn ⟨.ldrCx, 0, ctx.val⟩ Off.LDR_CMD ∧
      s.m.ctxState ctx.val = 1 ∧ (c, sw) ∈ [(Instr.ldrLoad fn ctx, false), (Instr.ldrSwap fn ctx, true)] ∧ s.m.phase ctx.val = 0 ∧
      (s.m.patOf ctx.val).isSome = sw ∧ (s.m.ctx ctx.val).load.swap = false ∧ s.m.phase ctx.val ≠ 5 ∧ (s.m.patOf ctx.val).isSome = true) ∧
    (∃ (s : State) (fn : Fn) (ctx : CtxId) (c : Instr) (sw : Bool), s.m.Settled ∧ s.m.Writes fn ⟨.ldrCx, 0, ctx.val⟩ Off.LDR_CMD ∧
      s.m.ctxState ctx.val = 1 ∧ (c, sw) ∈ [(Instr.ldrLoad fn ctx, false), (Instr.ldrSwap fn ctx, true)] ∧ s.m.phase ctx.val = 0 ∧
      (s.m.patOf ctx.val).isSome ≠ sw) ∧
    (∃ (s : State) (fn : Fn) (ctx : CtxId) (c : Instr) (sw : Bool), s.m.Settled ∧ s.m.Writes fn ⟨.ldrCx, 0, ctx.val⟩ Off.LDR_CMD ∧
      s.m.ctxState ctx.val = 1 ∧ (c, sw) ∈ [(Instr.ldrLoad fn ctx, false), (Instr.ldrSwap fn ctx, true)] ∧ s.m.phase ctx.val ≠ 0) ∧
    (∃ (s : State) (fn : Fn) (ctx : CtxId), s.m.Settled ∧ s.m.Writes fn ⟨.ldrCx, 0, ctx.val⟩ Off.LDR_CMD ∧ s.m.ctxState ctx.val = 1 ∧
      (s.m.ctx ctx.val).load.swap = true ∧ s.m.phase ctx.val ∈ [1, 2, 3, 4, 5] ∧ s.m.phase ctx.val = 5) ∧
    (∃ (s : State) (fn : Fn) (ctx : CtxId), s.m.Settled ∧ s.m.Writes fn ⟨.ldrCx, 0, ctx.val⟩ Off.LDR_CMD ∧ s.m.ctxState ctx.val = 1 ∧
      (s.m.ctx ctx.val).load.swap = true ∧ s.m.phase ctx.val = 6) ∧
    (∃ (s : State) (fn : Fn) (ctx : CtxId), s.m.Settled ∧ s.m.Writes fn ⟨.ldrCx, 0, ctx.val⟩ Off.LDR_CMD ∧ s.m.ctxState ctx.val = 1 ∧
      s.m.patOf ctx.val = none) :=
  ⟨⟨up, .pf0, 63, by unfold Dev.Settled Dev.Writes; decide +kernel⟩,
    ⟨loaded, .pf0, 1, (.ldrSwap .pf0 1), true, by unfold Dev.Settled Dev.Writes; decide +kernel⟩,
    ⟨loaded, .pf0, 1, (.ldrLoad .pf0 1), false, by unfold Dev.Settled Dev.Writes; decide +kernel⟩,
    ⟨(loading 3 id), .pf0, 1, (.ldrLoad .pf0 1), false, by unfold Dev.Settled Dev.Writes; decide +kernel⟩,
    ⟨(loading 5 fun c => { c with newPat := some pat0, load := { c.load with swap := true, placed := true } }), .pf0, 1,
      by unfold Dev.Settled Dev.Writes; decide +kernel⟩,
    ⟨(loading 6 fun c => { c with newPat := some pat0, load := { c.load with swap := true, placed := true } }), .pf0, 1,
      by unfold Dev.Settled Dev.Writes; decide +kernel⟩,
    ⟨(active 63 up), .pf0, 63, by unfold Dev.Settled Dev.Writes; decide +kernel⟩⟩

/-- States and operands meet the hypotheses of every clause of `Obligations.LoadRegistersHold`. -/
theorem test_meets_LoadRegistersHold :
    (∃ (s : State) (fn : Fn) (ctx : CtxId) (reg : LdrReg), s.m.Settled ∧ s.m.Writes fn ⟨.ldrCx, 0, ctx.val⟩ (ldrRegOff reg) ∧
      s.m.phase ctx.val ≠ 0) ∧
    (∃ (s : State) (fn : Fn) (ctx : CtxId) (reg : LdrReg), s.m.Settled ∧ s.m.Writes fn ⟨.ldrCx, 0, ctx.val⟩ (ldrRegOff reg) ∧
      s.m.phase ctx.val = 0) :=
  ⟨⟨(loading 3 id), .pf0, 1, .progLo, by unfold Dev.Settled Dev.Writes; decide +kernel⟩,
    ⟨loaded, .pf0, 1, .nextLo, by unfold Dev.Settled Dev.Writes; decide +kernel⟩⟩

/-- States and operands meet the hypotheses of every clause of `Obligations.LoadsProceed`, where a layer of the pattern takes no longer than the work window. -/
theorem test_meets_LoadsProceed (h : ∀ l ∈ vectorPattern.layers, layerMax vectorPattern l ≤ 14400) :
    (∃ (s : State) (ctx : CtxId), s.m.Settled ∧ s.m.vin = true ∧ s.m.phase ctx.val = 1) ∧
    (∃ (s : State) (ctx : CtxId), s.m.Settled ∧ s.m.vin = true ∧ s.m.phase ctx.val = 2) ∧
    (∃ (s : State) (ctx : CtxId) (p : Pattern) (m : Dev), (s.m.Settled ∧ s.m.vin = true ∧ s.m.phase ctx.val = 2 ∧
      (if (s.m.ctx ctx.val).load.swap = true then some ((s.m.modCtx ctx.val fun c =>
      { c with newPat := some p }).placeAhead ctx.val ProgWhy.load (placeSeq p)) else (s.m.modCtx ctx.val fun c =>
      { c with newPat := some p }).placeLoad ctx.val p (placeSeq p)) = some m) ∧
      s.m.loadChecks ctx.val (s.m.ctx ctx.val).load.swap (s.m.ctx ctx.val).load.image (s.m.rd64 .ldrCx 0 ctx.val Off.LDR_SIZE) = (none,
      some p) ∧ ((match (m.ctx ctx.val).newPat with | some q => m.partFrames ctx.val q | none => []).all fun e =>
      m.rangeFits e.fst e.snd) = true) ∧
    (∃ (s : State) (ctx : CtxId) (p : Pattern) (m : Dev), (s.m.Settled ∧ s.m.vin = true ∧ s.m.phase ctx.val = 2 ∧
      (if (s.m.ctx ctx.val).load.swap = true then some ((s.m.modCtx ctx.val fun c =>
      { c with newPat := some p }).placeAhead ctx.val ProgWhy.load (placeSeq p)) else (s.m.modCtx ctx.val fun c =>
      { c with newPat := some p }).placeLoad ctx.val p (placeSeq p)) = some m) ∧
      s.m.loadChecks ctx.val (s.m.ctx ctx.val).load.swap (s.m.ctx ctx.val).load.image (s.m.rd64 .ldrCx 0 ctx.val Off.LDR_SIZE) = (none,
      some p) ∧ ((match (m.ctx ctx.val).newPat with | some q => m.partFrames ctx.val q | none => []).all fun e =>
      m.rangeFits e.fst e.snd) = false) ∧
    (∃ (s : State) (ctx : CtxId) (host : HostView) (p : Pattern), s.m.Settled ∧ s.m.vin = true ∧ s.m.phase ctx.val = 3 ∧
      s.m.loadMoves ctx.val = true ∧ (s.m.ctx ctx.val).newPat = some p ∧ (p.layers.all fun l =>
      w5Clean (cutImage host (s.m.rd64 .ldrCx 0 ctx.val Off.LDR_NEXT) (s.m.rd64 .ldrCx 0 ctx.val Off.LDR_SIZE)) (p.w5 + l.w5Off) (List.map
      blockW5 l.blocks).sum) = true ∧ w5Clean (cutImage host (s.m.rd64 .ldrCx 0 ctx.val Off.LDR_NEXT) (s.m.rd64 .ldrCx 0 ctx.val
      Off.LDR_SIZE)) (p.embed + 4 * p.vocab) (p.embedSize - 4 * p.vocab) = true ∧ s.m.Records ((List.map (fun x =>
      x.fst) (s.m.partFrames ctx.val p)).headD 0) 50) ∧
    (∃ (s : State) (ctx : CtxId), s.m.Settled ∧ s.m.vin = true ∧ s.m.phase ctx.val = 4 ∧ s.m.loadMoves ctx.val = true ∧
      s.m.allVerified ctx.val = true ∧ (s.m.ctx ctx.val).load.swap = true) ∧
    (∃ (s : State) (ctx : CtxId) (p : Pattern), s.m.Settled ∧ s.m.vin = true ∧ s.m.phase ctx.val = 4 ∧ s.m.loadMoves ctx.val = true ∧
      s.m.allVerified ctx.val = true ∧ (s.m.ctx ctx.val).load.swap = false ∧ (s.m.ctx ctx.val).newPat = some p) ∧
    (∃ (s : State) (ctx : CtxId), s.m.Settled ∧ s.m.vin = true ∧ s.m.phase ctx.val = 7 ∧ (∀ (e : Nat × Sys2Proof.Seq),
      e ∈ s.m.seqs → e.snd.ctx = ctx.val → s.m.live e.fst = false)) :=
  ⟨⟨(sized (loading 1 id)), 1, by unfold Dev.Settled; decide +kernel⟩,
    ⟨(checking image), 1, by unfold Dev.Settled; decide +kernel⟩,
    ⟨(checkingVectors []), 1, vectorPattern, (placedVectors (checkingVectors [])), by unfold Dev.Settled; decide +kernel,
      checks_pass _ 1 vectorPattern (by decide +kernel) fun l hl => (h l hl).trans_eq (by decide +kernel), fits_vector⟩,
    ⟨(checkingVectors [⟨0, 2^20, 3, true⟩]), 1, vectorPattern, (placedVectors (checkingVectors [⟨0, 2^20, 3, true⟩])),
      by unfold Dev.Settled; decide +kernel, checks_pass _ 1 vectorPattern (by decide +kernel) fun l hl =>
      (h l hl).trans_eq (by decide +kernel), fits_full⟩,
    ⟨copying, 1, image, { pat0 with embed := 0x100, embedSize := 80 }, by unfold Dev.Settled Dev.Records; decide +kernel⟩,
    ⟨(programming true), 1, by unfold Dev.Settled; decide +kernel⟩,
    ⟨(programming false), 1, pat0, by unfold Dev.Settled; decide +kernel⟩,
    ⟨(loading 7 id), 1, by unfold Dev.Settled; decide +kernel⟩⟩

/-- States and operands meet the hypotheses of every clause of `Obligations.AdaptersAndPlacement`. -/
theorem test_meets_AdaptersAndPlacement :
    (∃ (s : State) (fn : Fn) (ctx : CtxId) (slot : Fin 64), s.m.Settled ∧ s.m.Writes fn ⟨.adpCx, 0, ctx.val⟩ Off.ADP_CMD ∧
      s.m.ctxState ctx.val = 1 ∧ (s.m.adpOf ctx.val slot.val).state ≠ 2 ∧ (s.m.adpOf ctx.val slot.val).state ≠ 3 ∧
      (s.m.adpOf ctx.val slot.val).old = none ∧ (s.m.patOf ctx.val).isSome = true ∧ s.m.slotNamed ctx.val slot.val = false) ∧
    (∃ (s : State) (fn : Fn) (ctx : CtxId) (slot : Fin 64), s.m.Settled ∧ s.m.Writes fn ⟨.adpCx, 0, ctx.val⟩ Off.ADP_CMD ∧
      s.m.ctxState ctx.val = 1 ∧ ((s.m.adpOf ctx.val slot.val).state = 2 ∨ (s.m.adpOf ctx.val slot.val).state = 3 ∨ (s.m.adpOf ctx.val
      slot.val).old.isSome = true)) ∧
    (∃ (s : State) (fn : Fn) (ctx : CtxId) (slot : Fin 64) (img : AdpImg), s.m.Settled ∧ s.m.Writes fn ⟨.adpCx, 0, ctx.val⟩ Off.ADP_CMD ∧
      s.m.ctxState ctx.val = 1 ∧ (s.m.adpOf ctx.val slot.val).state = 2 ∧ (s.m.adpOf ctx.val slot.val).standby = some img) ∧
    (∃ (s : State) (fn : Fn) (ctx : CtxId) (slot : Fin 64), s.m.Settled ∧ s.m.Writes fn ⟨.adpCx, 0, ctx.val⟩ Off.ADP_CMD ∧
      s.m.ctxState ctx.val = 1 ∧ s.m.slotNamed ctx.val slot.val = true) ∧
    (∃ (s : State) (ctx : CtxId) (slot : Fin 64) (host : HostView) (p : Pattern) (img : AdpImg), s.m.Settled ∧
      s.m.loadMoves ctx.val = true ∧ (s.m.adpOf ctx.val slot.val).state = 3 ∧ s.m.patOf ctx.val = some p ∧
      parseAdapter p (cutImage host (s.m.rd64 .adpCx 0 ctx.val Off.ADP_SRC / 4096 * 4096) (BitVec.toNat (s.m.rd .adpCx 0 ctx.val
      Off.ADP_SIZE))) (BitVec.toNat (s.m.rd .adpCx 0 ctx.val Off.ADP_SIZE)) = Sum.inl img ∧ Option.all (fun q =>
      adapterFits p q img) (s.m.ctx ctx.val).newPat = true) ∧
    (∃ (s : State) (ctx : CtxId) (slot : Fin 64) (host : HostView) (p : Pattern) (img : AdpImg), s.m.Settled ∧
      s.m.loadMoves ctx.val = true ∧ (s.m.adpOf ctx.val slot.val).state = 3 ∧ s.m.patOf ctx.val = some p ∧
      parseAdapter p (cutImage host (s.m.rd64 .adpCx 0 ctx.val Off.ADP_SRC / 4096 * 4096) (BitVec.toNat (s.m.rd .adpCx 0 ctx.val
      Off.ADP_SIZE))) (BitVec.toNat (s.m.rd .adpCx 0 ctx.val Off.ADP_SIZE)) = Sum.inl img ∧ Option.all (fun q =>
      adapterFits p q img) (s.m.ctx ctx.val).newPat = false) ∧
    (∃ (s : State) (ctx : CtxId) (slot : Fin 64) (host : HostView) (p : Pattern) (d : Nat), s.m.Settled ∧ s.m.loadMoves ctx.val = true ∧
      (s.m.adpOf ctx.val slot.val).state = 3 ∧ s.m.patOf ctx.val = some p ∧
      parseAdapter p (cutImage host (s.m.rd64 .adpCx 0 ctx.val Off.ADP_SRC / 4096 * 4096) (BitVec.toNat (s.m.rd .adpCx 0 ctx.val
      Off.ADP_SIZE))) (BitVec.toNat (s.m.rd .adpCx 0 ctx.val Off.ADP_SIZE)) = Sum.inr d) ∧
    (∃ (s : State) (fn : Fn) (ctx : CtxId), s.m.Settled ∧ s.m.Writes fn ⟨.plcCx, 0, ctx.val⟩ Off.PLC_CX_SNAP_CMD) ∧
    (∃ (s : State) (fn : Fn) (ch : ChId) (v : Word), s.m.Settled ∧ s.m.Writes fn ⟨.plcCh, ch.val, 0⟩ Off.PLC_CH_CTL ∧
      fld v 17 8 < fld v 27 18 ∧ fld v 27 18 ≤ 500) ∧
    (∃ (s : State) (fn : Fn) (ch : ChId) (v : Word), s.m.Settled ∧ s.m.Writes fn ⟨.plcCh, ch.val, 0⟩ Off.PLC_CH_CTL ∧
      (fld v 27 18 ≤ fld v 17 8 ∨ 500 < fld v 27 18)) :=
  ⟨⟨(adapter id), .pf0, 1, 63, by unfold Dev.Settled Dev.Writes; decide +kernel⟩,
    ⟨(adapter fun a => { a with state := 2, standby := some adapterImage }), .pf0, 1, 63, by unfold Dev.Settled Dev.Writes; decide +kernel⟩,
    ⟨(adapter fun a => { a with state := 2, standby := some adapterImage, gen := 65535 }), .pf0, 1, 63, adapterImage,
      by unfold Dev.Settled Dev.Writes; decide +kernel⟩,
    ⟨(on (ent Ent.ADAPTER 2 63 (entry 3 (adapter id))) fun m => m), .pf0, 1, 63, by unfold Dev.Settled Dev.Writes; decide +kernel⟩,
    ⟨adapterLoads, 1, 63, adapterFile, projection, (match adapterRead adapterFile with | .inl i => i | _ => adapterImage),
      by unfold Dev.Settled; decide +kernel⟩,
    ⟨(on adapterLoads fun m => m.modCtx 1 fun c => { c with newPat := some { projection with layers := [] } }), 1, 63, adapterFile,
      projection, (match adapterRead adapterFile with | .inl i => i | _ => adapterImage), by unfold Dev.Settled; decide +kernel⟩,
    ⟨adapterLoads, 1, 63, [], projection, 1, by unfold Dev.Settled; decide +kernel⟩,
    ⟨loaded, .pf0, 1, by unfold Dev.Settled Dev.Writes; decide +kernel⟩,
    ⟨loaded, .pf0, 0, (BitVec.ofNat 32 (500 * 2^18 + 499 * 256)), by unfold Dev.Settled Dev.Writes; decide +kernel⟩,
    ⟨loaded, .pf0, 0, 0, by unfold Dev.Settled Dev.Writes; decide +kernel⟩⟩

/-- States and operands meet the hypotheses of every clause of `Obligations.ScratchRequestsRun`. -/
theorem test_meets_ScratchRequestsRun :
    (∃ (s : State) (core : CoreRef) (q : SpdReq), s.m.Settled ∧ s.m.alive core.ch.val = true ∧ s.m.fltState core.ch.val = 0 ∧
      spdAddrs (s.m.spd core.ix).regions q = none ∧ s.m.Records core.ch.val 60) ∧
    (∃ (s : State) (core : CoreRef) (q : SpdReq) (as : List Nat), s.m.Settled ∧ s.m.alive core.ch.val = true ∧
      s.m.fltState core.ch.val = 0 ∧ spdAddrs (s.m.spd core.ix).regions q = some as ∧ regionReady (s.m.spd core.ix).regions q = false) ∧
    (∃ (s : State) (core : CoreRef) (q : SpdReq) (as : List Nat), s.m.Settled ∧ s.m.alive core.ch.val = true ∧
      s.m.fltState core.ch.val = 0 ∧ spdAddrs (s.m.spd core.ix).regions q = some as ∧ regionReady (s.m.spd core.ix).regions q = true ∧
      (64 ≤ sbUsed (s.m.spd core.ix) ∨ (s.m.spd core.ix).wait ≠ [])) ∧
    (∃ (s : State) (core : CoreRef) (q : SpdReq) (as : List Nat), s.m.Settled ∧ s.m.alive core.ch.val = true ∧
      s.m.fltState core.ch.val = 0 ∧ spdAddrs (s.m.spd core.ix).regions q = some as ∧ regionReady (s.m.spd core.ix).regions q = true ∧
      (s.m.spd core.ix).wait = [] ∧ sbUsed (s.m.spd core.ix) < 64 ∧ (s.m.spd core.ix).gather = [] ∧ (q.write && narrow q) = false) ∧
    (∃ (s : State) (core : CoreRef) (q : SpdReq) (as : List Nat) (g : Fin 64) (len : Nat), s.m.Settled ∧ s.m.alive core.ch.val = true ∧
      s.m.fltState core.ch.val = 0 ∧ spdAddrs (s.m.spd core.ix).regions q = some as ∧ q.range = SpdRange.region g len ∧
      regionReady (s.m.spd core.ix).regions q = true ∧ (s.m.spd core.ix).wait = [] ∧ sbUsed (s.m.spd core.ix) < 64 ∧
      (s.m.spd core.ix).gather = [] ∧ (s.m.spd core.ix).rwait = [q] ∧ s.m.running core.ch.val = true) ∧
    (∃ (s : State) (core : CoreRef), s.m.Settled ∧ s.m.alive core.ch.val = true ∧ s.m.fltState core.ch.val ≠ 0) ∧
    (∃ (s : State) (core : CoreRef) (e : SbEnt), s.m.Settled ∧ s.m.running core.ch.val = true ∧ List.find? (fun x =>
      decide (x.id = e.id)) (s.m.spd core.ix).ents = some e ∧ (s.m.spd core.ix).wait = [] ∧ (∃ x, x ∈ (s.m.spd core.ix).ents ∧
      holdsBack x e = true)) ∧
    (∃ (s : State) (core : CoreRef) (e : SbEnt), s.m.Settled ∧ s.m.running core.ch.val = true ∧ List.find? (fun x =>
      decide (x.id = e.id)) (s.m.spd core.ix).ents = some e ∧ (s.m.spd core.ix).wait = [] ∧ (∀ (x : SbEnt),
      x ∈ (s.m.spd core.ix).ents → holdsBack x e = false)) ∧
    (∃ (s : State) (core : CoreRef) (slot : Fin 4) (g : GSlot), s.m.Settled ∧ s.m.running core.ch.val = true ∧
      (s.m.spd core.ix).gather[slot.val]? = some g ∧ (s.m.spd core.ix).ents = [] ∧ (s.m.spd core.ix).wait = [] ∧ Store.wf (fun _ =>
      none) g.bytes = true) :=
  ⟨⟨(rec 60 up), core63, (readReq 0x3FFFFF 2), by unfold Dev.Settled Dev.Records; decide +kernel⟩,
    ⟨(regionOpen fun p => { p with regions := [(63, { Region.fresh with valid := true, base := 2, wIss := 512 })] }), core63, regionWrite,
      (spanFrom (2*512 + 0) 4), by unfold Dev.Settled; decide +kernel⟩,
    ⟨(on up fun m => m.modSpd 63 fun p => { p with ents := (List.range 64).map readEntry, next := 64 }), core63, (readReq 0x3FFFFC 4),
      (spanFrom 0x3FFFFC 4), by unfold Dev.Settled; decide +kernel⟩,
    ⟨up, core63, (readReq 0x3FFFFC 4), (spanFrom 0x3FFFFC 4), by unfold Dev.Settled; decide +kernel⟩,
    ⟨regionWaits, core63, regionWrite, (spanFrom 1024 4), 63, 4, by unfold Dev.Settled; decide +kernel⟩,
    ⟨(flt 1 up), core63, by unfold Dev.Settled; decide +kernel⟩,
    ⟨(scoreboard [writeEntry, lastReadEntry]), core63, lastReadEntry, by unfold Dev.Settled; decide +kernel⟩,
    ⟨(scoreboard [writeEntry, lastReadEntry]), core63, writeEntry, by unfold Dev.Settled; decide +kernel⟩,
    ⟨(on up fun m => m.modSpd 63 fun p => { p with gather := [⟨6, 3, []⟩, gatherSlot] }), core63, 1, gatherSlot,
      by unfold Dev.Settled; decide +kernel⟩⟩

/-- States and operands meet the hypotheses of every clause of `Obligations.IdleUnitsPowerDown`. -/
theorem test_meets_IdleUnitsPowerDown :
    (∃ (s : State) (core : CoreRef) (b : Fin 32), s.m.Settled ∧ s.m.alive core.ch.val = true ∧
      s.m.inForce .spdCh core.ch.val 0 Off.SPD_CH_CTL 0 0 = 1 ∧ s.m.bankPd core.ix b.val = Pd.up ∧
      max 1 (s.m.inForce .spdCh core.ch.val 0 Off.SPD_PDIDLE 7 0) ≤ (s.m.chan core.ch.val).plank + 1 - Store.get 0 b.val (s.m.spd
      core.ix).used) ∧
    (∃ (s : State) (core : CoreRef) (b : Fin 32) (t0 : Nat), s.m.Settled ∧ s.m.alive core.ch.val = true ∧
      s.m.bankPd core.ix b.val = Pd.waiting t0 ∧ s.m.bankWrites core.ix b.val t0 = []) ∧
    (∃ (s : State) (core : CoreRef) (b : Fin 32) (t0 : Nat), s.m.Settled ∧ s.m.alive core.ch.val = true ∧
      s.m.bankPd core.ix b.val = Pd.waiting t0 ∧ s.m.bankWrites core.ix b.val t0 ≠ [] ∧ (s.m.spd core.ix).wait = [] ∧
      s.m.Records core.ch.val 57) ∧
    (∃ (s : State) (ch : ChId) (u : PdTarget) (k : Nat) (ix : Nat), (s.m.Settled ∧ s.m.alive ch.val = true ∧
      s.m.inForce .spdCh ch.val 0 Off.SPD_CH_CTL 1 1 = 1 ∧ s.m.unitPd ch.val k = Pd.up) ∧ ((∃ pc, u = PdTarget.hbm ch pc ∧ k = pc.val ∧
      ix = 58) ∨ ∃ r, u = PdTarget.t2 ch r ∧ k = 128 + r.val ∧ ix = 59) ∧ PdTarget.there u = true) ∧
    (∃ (s : State) (ch : ChId) (u : PdTarget) (k : Nat) (ix : Nat) (t0 : Nat), (s.m.Settled ∧ s.m.alive ch.val = true ∧
      s.m.unitPd ch.val k = Pd.waiting t0) ∧ ((∃ pc, u = PdTarget.hbm ch pc ∧ k = pc.val ∧ ix = 58) ∨ ∃ r, u = PdTarget.t2 ch r ∧
      k = 128 + r.val ∧ ix = 59) ∧ PdTarget.there u = true) ∧
    (∃ (s : State) (ch : ChId) (u : PdTarget) (k : Nat) (ix : Nat) (t0 : Nat), (s.m.Settled ∧ s.m.alive ch.val = true ∧
      s.m.unitPd ch.val k = Pd.waiting t0 ∧ s.m.Records ch.val ix) ∧ ((∃ pc, u = PdTarget.hbm ch pc ∧ k = pc.val ∧ ix = 58) ∨ ∃ r,
      u = PdTarget.t2 ch r ∧ k = 128 + r.val ∧ ix = 59) ∧ PdTarget.there u = true) :=
  ⟨⟨(bankIdle id), core63, 31, by unfold Dev.Settled; decide +kernel⟩,
    ⟨(bankIdle fun p => { p with banks := [(31, .waiting 3)] }), core63, 31, 3, by unfold Dev.Settled; decide +kernel⟩,
    ⟨(bankIdle fun p => { p with banks := [(31, .waiting 3)], ents := [bankEntry] }), core63, 31, 3,
      by unfold Dev.Settled Dev.Records; decide +kernel⟩,
    ⟨unitsIdle, 0, (.t2 0 7), 135, 59, by unfold Dev.Settled; decide +kernel, .inr ⟨7, rfl, rfl, rfl⟩, there_low⟩,
    ⟨unitsWait, 0, (.t2 0 7), 135, 59, 0, by unfold Dev.Settled; decide +kernel, .inr ⟨7, rfl, rfl, rfl⟩, there_low⟩,
    ⟨unitsWait, 0, (.hbm 0 127), 127, 58, 0, by unfold Dev.Settled Dev.Records; decide +kernel, .inl ⟨127, rfl, rfl, rfl⟩, rfl⟩⟩

/-- States and operands meet the hypotheses of every clause of `Obligations.HostSyncCommands`. -/
theorem test_meets_HostSyncCommands :
    (∃ (s : State) (fn : Fn) (ch : ChId) (ctx : CtxId) (vid : Fin 4096) (o : Nat), s.m.Settled ∧ s.m.Writes fn ⟨.synCx, ch.val,
      ctx.val⟩ Off.SYN_CX_CMD ∧ s.m.mapOf ch.val ctx.val vid.val = none ∧ s.m.freePhys ch.val = some o) ∧
    (∃ (s : State) (fn : Fn) (ch : ChId) (ctx : CtxId) (vid : Fin 4096) (v : BitVec 16), s.m.Settled ∧ s.m.Writes fn ⟨.synCx, ch.val,
      ctx.val⟩ Off.SYN_CX_CMD ∧ s.m.mapOf ch.val ctx.val vid.val = none ∧ Instr.synUnmap fn ch ctx vid ∈ [Instr.synUnmap fn ch ctx vid,
      Instr.synArm fn ch ctx vid, Instr.synSignal fn ch ctx vid v, Instr.synConsume fn ch ctx vid v]) ∧
    (∃ (s : State) (fn : Fn) (ch : ChId) (ctx : CtxId) (vid : Fin 4096) (v : BitVec 16) (m : SyMap), s.m.Settled ∧ s.m.Writes fn ⟨.synCx,
      ch.val, ctx.val⟩ Off.SYN_CX_CMD ∧ s.m.mapOf ch.val ctx.val vid.val = some m ∧ 1024 ≤ vid.val ∧ v = 0 ∧
      Instr.synSignal fn ch ctx vid v ∈ [Instr.synSignal fn ch ctx vid v, Instr.synConsume fn ch ctx vid v] ∧
      ((s.m.obj ch.val m.obj).state ≠ 1 ∨ ∀ (w : SyWait), w ∈ (s.m.obj ch.val m.obj).waits → w.met = true)) ∧
    (∃ (s : State) (fn : Fn) (ch : ChId) (ctx : CtxId) (vid : Fin 4096) (m : SyMap), s.m.Settled ∧ s.m.Writes fn ⟨.synCx, ch.val,
      ctx.val⟩ Off.SYN_CX_CMD ∧ s.m.mapOf ch.val ctx.val vid.val = some m ∧ (s.m.obj ch.val m.obj).state = 1 ∧ (∃ w,
      w ∈ (s.m.obj ch.val m.obj).waits ∧ w.met = false)) ∧
    (∃ (s : State) (fn : Fn) (ch : ChId) (ctx : CtxId) (vid : Fin 4096) (v : BitVec 16) (m : SyMap), s.m.Settled ∧ s.m.Writes fn ⟨.synCx,
      ch.val, ctx.val⟩ Off.SYN_CX_CMD ∧ s.m.mapOf ch.val ctx.val vid.val = some m ∧ vid.val < 1024 ∧
      Instr.synArm fn ch ctx vid ∈ [Instr.synArm fn ch ctx vid, Instr.synSignal fn ch ctx vid v, Instr.synConsume fn ch ctx vid v]) ∧
    (∃ (s : State) (fn : Fn) (ch : ChId) (ctx : CtxId) (vid : Fin 4096) (v : BitVec 16) (m : SyMap), s.m.Settled ∧ s.m.Writes fn ⟨.synCx,
      ch.val, ctx.val⟩ Off.SYN_CX_CMD ∧ s.m.mapOf ch.val ctx.val vid.val = some m ∧ 1024 ≤ vid.val ∧ v ≠ 0 ∧
      (s.m.obj ch.val m.obj).state = 1 ∧ (s.m.obj ch.val m.obj).count + v.toNat ≤ (s.m.obj ch.val m.obj).target ∧
      v.toNat ≤ (s.m.obj ch.val m.obj).count) ∧
    (∃ (s : State) (fn : Fn) (ch : ChId) (ctx : CtxId) (vid : Fin 4096) (v : BitVec 16) (m : SyMap), s.m.Settled ∧ s.m.Writes fn ⟨.synCx,
      ch.val, ctx.val⟩ Off.SYN_CX_CMD ∧ s.m.mapOf ch.val ctx.val vid.val = some m ∧ 1024 ≤ vid.val ∧ v ≠ 0 ∧
      (s.m.obj ch.val m.obj).state = 1 ∧ (s.m.obj ch.val m.obj).target < (s.m.obj ch.val m.obj).count + v.toNat ∧
      (s.m.obj ch.val m.obj).waits = [] ∧ s.m.Records ch.val 64 ∧ (m.obj < 16384 ∨ (s.m.obj ch.val m.obj).ctx = ctx.val)) ∧
    (∃ (s : State) (fn : Fn) (ch : ChId) (ctx : CtxId) (vid : Fin 4096) (v : BitVec 16) (m : SyMap), s.m.Settled ∧ s.m.Writes fn ⟨.synCx,
      ch.val, ctx.val⟩ Off.SYN_CX_CMD ∧ s.m.mapOf ch.val ctx.val vid.val = some m ∧ 1024 ≤ vid.val ∧ v ≠ 0 ∧
      (s.m.obj ch.val m.obj).state = 1 ∧ (s.m.obj ch.val m.obj).count < v.toNat ∧ (s.m.obj ch.val m.obj).waits = [] ∧
      s.m.Records ch.val 63 ∧ (m.obj < 16384 ∨ (s.m.obj ch.val m.obj).ctx = ctx.val)) :=
  ⟨⟨(syncOn id), .pf0, 0, 1, 4095, 16384, by unfold Dev.Settled Dev.Writes; decide +kernel⟩,
    ⟨(syncOn id), .pf0, 0, 1, 4095, 2, by unfold Dev.Settled Dev.Writes; decide +kernel⟩,
    ⟨(mapped 1024 65535 armed), .pf0, 0, 1, 1024, 0, objectMap, by unfold Dev.Settled Dev.Writes; decide +kernel⟩,
    ⟨(mapped 4095 65535 { armed with waits := [oneWait] }), .pf0, 0, 1, 4095, objectMap, by unfold Dev.Settled Dev.Writes; decide +kernel⟩,
    ⟨(mapped 1023 65535 armed), .pf0, 0, 1, 1023, 2, objectMap, by unfold Dev.Settled Dev.Writes; decide +kernel⟩,
    ⟨(mapped 1024 65535 armed), .pf0, 0, 1, 1024, 2, objectMap, by unfold Dev.Settled Dev.Writes; decide +kernel⟩,
    ⟨(mapped 1024 65535 armed), .pf0, 0, 1, 1024, 3, objectMap, by unfold Dev.Settled Dev.Records Dev.Writes; decide +kernel⟩,
    ⟨(mapped 1024 65535 armed), .pf0, 0, 1, 1024, 4, objectMap, by unfold Dev.Settled Dev.Records Dev.Writes; decide +kernel⟩⟩

/-- States and operands meet the hypotheses of every clause of `Obligations.DeadObjectsDiscard`. -/
theorem test_meets_DeadObjectsDiscard :
    (∃ (s : State) (ch : ChId) (obj : Fin 65536) (ctx : CtxId) (v : Nat), s.m.Settled ∧ (s.m.obj ch.val obj.val).state ≠ 1 ∧
      s.m.rdF .synCh ch.val 0 Off.PG_CTL 0 0 = 0 ∧ s.m.alive ch.val = true ∧
      ((s.m.obj ch.val obj.val).state = 0 ∨ (s.m.obj ch.val obj.val).ctx = ctx.val) ∧ SyncOp.signal v ∈ [SyncOp.signal v, SyncOp.consume v]) ∧
    (∃ (s : State) (ch : ChId) (obj : Fin 65536) (fn : Fn) (ctx : CtxId) (vid : Fin 4096) (v : BitVec 16) (m : SyMap), s.m.Settled ∧
      (s.m.obj ch.val obj.val).state ≠ 1 ∧ s.m.rdF .synCh ch.val 0 Off.PG_CTL 0 0 = 0 ∧ s.m.Writes fn ⟨.synCx, ch.val,
      ctx.val⟩ Off.SYN_CX_CMD ∧ s.m.mapOf ch.val ctx.val vid.val = some m ∧ m.obj = obj.val ∧ 1024 ≤ vid.val ∧ v ≠ 0 ∧
      Instr.synSignal fn ch ctx vid v ∈ [Instr.synSignal fn ch ctx vid v, Instr.synConsume fn ch ctx vid v]) ∧
    (∃ (s : State) (ch : ChId) (obj : Fin 65536) (node : Fin 32768) (g : RemoteSignal) (m : SyMap), s.m.Settled ∧
      (s.m.obj ch.val obj.val).state ≠ 1 ∧ s.m.rdF .synCh ch.val 0 Off.PG_CTL 0 0 = 0 ∧ s.m.fabOn ch.val = true ∧ s.m.node = some node.val ∧
      g.dstCh = ch ∧ s.m.fltState ch.val = 0 ∧ s.m.inForce .synCh ch.val 0 Off.SYN_CTL 0 0 = 1 ∧
      s.m.mapOf ch.val g.dstCtx.val g.vid.val = some m ∧ m.obj = obj.val ∧ peerOk m g = true ∧ s.m.covered ch.val g = true ∧
      s.m.collOf ch.val obj.val = none) :=
  ⟨⟨(mapped 1024 65535 (deadObject 2)), 0, 65535, 1, 3, by unfold Dev.Settled; decide +kernel⟩,
    ⟨(mapped 1024 65535 (deadObject 2)), 0, 65535, .pf0, 1, 1024, 3, objectMap, by unfold Dev.Settled Dev.Writes; decide +kernel⟩,
    ⟨(asNode (remoteMapped (deadObject 2) id)), 0, 65535, 5, remoteSignal, ⟨65535, originWord⟩, by unfold Dev.Settled; decide +kernel⟩⟩

/-- States and operands meet the hypotheses of every clause of `Obligations.SignalsAreApplied`. -/
theorem test_meets_SignalsAreApplied :
    (∃ (s : State) (ch : ChId) (obj : Fin 65536) (ctx : CtxId) (v : Nat), s.m.Settled ∧ s.m.alive ch.val = true ∧
      (s.m.obj ch.val obj.val).ctx = ctx.val ∧ (s.m.obj ch.val obj.val).state = 1 ∧
      (s.m.obj ch.val obj.val).count + v ≤ (s.m.obj ch.val obj.val).target) ∧
    (∃ (s : State) (ch : ChId) (obj : Fin 65536) (ctx : CtxId) (v : Nat), s.m.Settled ∧ s.m.alive ch.val = true ∧
      (s.m.obj ch.val obj.val).ctx = ctx.val ∧ (s.m.obj ch.val obj.val).state = 1 ∧ v ≤ (s.m.obj ch.val obj.val).count ∧ v < 2 ^ 24 ∧
      s.m.fltState ch.val = 0) ∧
    (∃ (s : State) (ch : ChId) (obj : Fin 65536) (ctx : CtxId), s.m.Settled ∧ s.m.alive ch.val = true ∧ (s.m.obj ch.val obj.val).state ≠ 0 ∧
      (s.m.obj ch.val obj.val).ctx ≠ ctx.val ∧ s.m.Records ch.val 66) ∧
    (∃ (s : State) (ch : ChId) (obj : Fin 65536) (who : Nat) (w : SyWait), s.m.Settled ∧ s.m.alive ch.val = true ∧ List.find? (fun w =>
      decide (w.who = who) && !w.met) (s.m.obj ch.val obj.val).waits = some w ∧ w.until_ ≤ (s.m.chan ch.val).plank ∧ w.seq = none ∧
      s.m.collOf ch.val obj.val = none) ∧
    (∃ (s : State) (ch : ChId) (obj : Fin 65536), s.m.Settled ∧ s.m.alive ch.val = true ∧ s.m.heldFor ch.val obj.val ≠ 0 ∧
      (s.m.obj ch.val obj.val).waits = [] ∧ s.m.Records ch.val 65) ∧
    (∃ (s : State) (ch : ChId) (obj : Fin 65536) (node : Fin 32768) (g : RemoteSignal) (m : SyMap), s.m.Settled ∧ s.m.fabOn ch.val = true ∧
      s.m.node = some node.val ∧ g.dstCh = ch ∧ s.m.fltState ch.val = 0 ∧ s.m.inForce .synCh ch.val 0 Off.SYN_CTL 0 0 = 1 ∧
      s.m.mapOf ch.val g.dstCtx.val g.vid.val = some m ∧ m.obj = obj.val ∧ peerOk m g = true ∧ (s.m.obj ch.val obj.val).state = 1 ∧
      s.m.collOf ch.val obj.val = none ∧ s.m.covered ch.val g = true ∧ g.consume = false ∧
      (s.m.obj ch.val obj.val).count + g.value ≤ (s.m.obj ch.val obj.val).target) ∧
    (∃ (s : State) (ch : ChId) (obj : Fin 65536) (node : Fin 32768) (g : RemoteSignal) (m : SyMap), s.m.Settled ∧ s.m.fabOn ch.val = true ∧
      s.m.node = some node.val ∧ g.dstCh = ch ∧ s.m.fltState ch.val = 0 ∧ s.m.inForce .synCh ch.val 0 Off.SYN_CTL 0 0 = 1 ∧
      s.m.mapOf ch.val g.dstCtx.val g.vid.val = some m ∧ m.obj = obj.val ∧ peerOk m g = true ∧ (s.m.obj ch.val obj.val).state = 1 ∧
      s.m.collOf ch.val obj.val = none ∧ s.m.covered ch.val g = false ∧ (s.m.sync ch.val).held.length < 1024 ∧
      s.m.heldFor ch.val obj.val < 8) ∧
    (∃ (s : State) (ch : ChId) (node : Fin 32768) (g : RemoteSignal), s.m.Settled ∧ s.m.fabOn ch.val = true ∧ s.m.node = some node.val ∧
      g.dstCh = ch ∧ s.m.fltState ch.val = 0 ∧ s.m.inForce .synCh ch.val 0 Off.SYN_CTL 0 0 = 1 ∧
      s.m.mapOf ch.val g.dstCtx.val g.vid.val = none ∧ s.m.Records ch.val 66) ∧
    (∃ (s : State) (ch : ChId) (y : SentSig), s.m.Settled ∧ s.m.fabOn ch.val = true ∧ y.refused = true ∧ (s.m.sync ch.val).sent = [y] ∧
      y.since + s.m.holdNs ch.val ≤ (s.m.chan ch.val).time ∧ y.seq = none) ∧
    (∃ (s : State) (ch : ChId) (y : SentSig) (p : Nat), s.m.Settled ∧ s.m.fabOn ch.val = true ∧ y.refused = true ∧
      (s.m.sync ch.val).sent = [y] ∧ (s.m.chan ch.val).time < y.since + s.m.holdNs ch.val ∧ (s.m.stream ch.val y.sig.stream).held = false ∧
      s.m.fltState ch.val = 0 ∧ (s.m.stream ch.val y.sig.stream).port = some p ∧ s.m.port ch.val p = { Port.fresh with state := 3 }) :=
  ⟨⟨(mapped 1024 65535 { armed with waits := [oneWait] }), 0, 65535, 1, 2, by unfold Dev.Settled; decide +kernel⟩,
    ⟨(mapped 1024 65535 armed), 0, 65535, 1, 3, by unfold Dev.Settled; decide +kernel⟩,
    ⟨(mapped 1024 65535 armed), 0, 65535, 2, by unfold Dev.Settled Dev.Records; decide +kernel⟩,
    ⟨(on (mapped 1024 65535 { armed with waits := [oneWait] }) fun m => m.modChan 0 fun c => { c with plank := 100 }), 0, 65535, 7, oneWait,
      by unfold Dev.Settled; decide +kernel⟩,
    ⟨(remoteMapped armed fun y => { y with held := [⟨remoteSignal, 65535, 0⟩] }), 0, 65535,
      by unfold Dev.Settled Dev.Records; decide +kernel⟩,
    ⟨(asNode (remoteMapped armed id)), 0, 65535, 5, remoteSignal, ⟨65535, originWord⟩, by unfold Dev.Settled; decide +kernel⟩,
    ⟨(asNode (remoteMapped armed id)), 0, 65535, 5, { remoteSignal with mark := 5 }, ⟨65535, originWord⟩,
      by unfold Dev.Settled; decide +kernel⟩,
    ⟨(asNode (remoteMapped armed id)), 0, 5, { remoteSignal with vid := 4095 }, by unfold Dev.Settled Dev.Records; decide +kernel⟩,
    ⟨(signalSent 4095000), 0, refusedSignal, by unfold Dev.Settled; decide +kernel⟩,
    ⟨(signalSent 3), 0, refusedSignal, 5, by unfold Dev.Settled; decide +kernel⟩⟩

/-- States and operands meet the hypotheses of every clause of `Obligations.PortsCarryFlits`. -/
theorem test_meets_PortsCarryFlits :
    (∃ (s : State) (ch : ChId) (fn : Fn), s.m.Settled ∧ s.m.Writes fn ⟨.evfCh, ch.val, 0⟩ Off.EVF_CTL) ∧
    (∃ (s : State) (ch : ChId) (p : PortIx), s.m.Settled ∧ s.m.fabOn ch.val = true ∧
      Instr.portSignalDetect ch p ∈ [Instr.portSignalDetect ch p, Instr.portRetryTimer ch p] ∧ (s.m.port ch.val p.val).state = 1) ∧
    (∃ (s : State) (ch : ChId) (p : PortIx) (h : Hello), s.m.Settled ∧ s.m.fabOn ch.val = true ∧ h.standby = false ∧
      (s.m.port ch.val p.val).state = 2 ∧ Instr.portSignalDetect ch p ∈ [Instr.portSignalDetect ch p, Instr.portRetryTimer ch p] ∧
      (s.m.port ch.val p.val).state ≠ 1) ∧
    (∃ (s : State) (ch : ChId) (p : PortIx) (h : Hello), s.m.Settled ∧ s.m.fabOn ch.val = true ∧ h.standby = false ∧
      (s.m.port ch.val p.val).state = 4 ∧ (s.m.port ch.val p.val).fast = false ∧ (List.filter (fun t =>
      decide (s.m.chMs ch.val < t + 10000)) (s.m.port ch.val p.val).fails).length < 2) ∧
    (∃ (s : State) (ch : ChId) (p : PortIx) (h : Hello), s.m.Settled ∧ s.m.fabOn ch.val = true ∧ h.standby = false ∧
      (s.m.port ch.val p.val).state = 3) ∧
    (∃ (s : State) (ch : ChId) (p : PortIx) (h : Hello), s.m.Settled ∧ s.m.fabOn ch.val = true ∧ h.standby = true ∧
      (s.m.port ch.val p.val).state = 3) ∧
    (∃ (s : State) (ch : ChId) (p : PortIx), s.m.Settled ∧ s.m.fabOn ch.val = true ∧ (s.m.port ch.val p.val).state = 4 ∧
      (s.m.port ch.val p.val).fast = false ∧ 2 ≤ (List.filter (fun t =>
      decide (s.m.chMs ch.val < t + 10000)) (s.m.port ch.val p.val).fails).length ∧ s.m.Records ch.val 68) ∧
    (∃ (s : State) (ch : ChId) (p : PortIx), s.m.Settled ∧ s.m.fabOn ch.val = true ∧ (s.m.port ch.val p.val).state = 3 ∧
      s.m.Records ch.val 69) ∧
    (∃ (s : State) (ch : ChId) (p : PortIx), s.m.Settled ∧ s.m.fabOn ch.val = true ∧ (s.m.port ch.val p.val).state = 4 ∧
      (s.m.port ch.val p.val).fast = true) ∧
    (∃ (s : State) (ch : ChId) (p : PortIx) (f : Flit), s.m.Settled ∧ s.m.fabOn ch.val = true ∧ (s.m.port ch.val p.val).state = 3 ∧
      (f.crcOk = false ∨ f.fecUnc ≠ 0)) ∧
    (∃ (s : State) (ch : ChId) (p : PortIx) (f : Flit), s.m.Settled ∧ s.m.fabOn ch.val = true ∧ (s.m.port ch.val p.val).state = 3 ∧
      f.crcOk = true ∧ f.fecUnc = 0 ∧ f.nak = false ∧ (s.m.port ch.val p.val).txq = [] ∧ f.granules = []) ∧
    (∃ (s : State) (ch : ChId) (p : PortIx) (f : Flit), s.m.Settled ∧ s.m.fabOn ch.val = true ∧ (s.m.port ch.val p.val).state = 3 ∧
      f.crcOk = true ∧ f.fecUnc = 0 ∧ f.nak = false ∧ (s.m.port ch.val p.val).txq = [] ∧ f.granules ≠ [] ∧
      f.seq.val ≠ ((s.m.port ch.val p.val).seqRx + 1) % 4096) ∧
    (∃ (s : State) (ch : ChId) (p : PortIx) (f : Flit), s.m.Settled ∧ s.m.fabOn ch.val = true ∧ (s.m.port ch.val p.val).state = 3 ∧
      f.crcOk = true ∧ f.fecUnc = 0 ∧ f.nak = false ∧ (s.m.port ch.val p.val).txq = [] ∧ f.granules.length < 16 ∧ f.granules ≠ [] ∧
      f.seq.val = ((s.m.port ch.val p.val).seqRx + 1) % 4096 ∧ (s.m.port ch.val p.val).owed = [0, 0, 0, 0]) :=
  ⟨⟨(portIn 3), 0, .pf0, by unfold Dev.Settled Dev.Writes; decide +kernel⟩,
    ⟨(portIn 1), 0, 7, by unfold Dev.Settled; decide +kernel⟩,
    ⟨(portIn 2), 0, 7, (hello false), by unfold Dev.Settled; decide +kernel⟩,
    ⟨(portIn 4), 0, 7, (hello false), by unfold Dev.Settled; decide +kernel⟩,
    ⟨(portIn 3), 0, 7, (hello false), by unfold Dev.Settled; decide +kernel⟩,
    ⟨(portIn 3), 0, 7, (hello true), by unfold Dev.Settled; decide +kernel⟩,
    ⟨(portOf fun p => { p with state := 4, fails := [0, 0] }), 0, 7, by unfold Dev.Settled Dev.Records; decide +kernel⟩,
    ⟨(portOf fun p => { p with state := 3, replay := [(3, [])] }), 0, 7, by unfold Dev.Settled Dev.Records; decide +kernel⟩,
    ⟨(portOf fun p => { p with state := 4, fast := true }), 0, 7, by unfold Dev.Settled; decide +kernel⟩,
    ⟨portUp, 0, 7, (flitOf false 0 [1]), by unfold Dev.Settled; decide +kernel⟩,
    ⟨portUp, 0, 7, (flitOf true 0 []), by unfold Dev.Settled; decide +kernel⟩,
    ⟨portUp, 0, 7, (flitOf true 4095 [1]), by unfold Dev.Settled; decide +kernel⟩,
    ⟨portUp, 0, 7, (flitOf true 0 (List.replicate 15 1)), by unfold Dev.Settled; decide +kernel⟩⟩

/-- States and operands meet the hypotheses of every clause of `Obligations.RemoteAccessesAreChecked`. -/
theorem test_meets_RemoteAccessesAreChecked :
    (∃ (s : State) (ch : ChId) (h : MsgHdr) (data : List Byte), s.m.Settled ∧ s.m.fabOn ch.val = true ∧ s.m.node = some (addrNode h.dst) ∧
      addrCh h.dst = ch.val ∧ h.hops.val ≠ 15 ∧ s.m.refusal ch.val h data.length = none ∧ (∀ (x : HeldSig),
      x ∈ (s.m.sync ch.val).held → (s.m.modFab ch.val fun x => { x with
      arrived := Store.set Arrived.fresh (arrKey h.srcNode.val h.srcCh.val h.stream) (arriveBytes (Store.get Arrived.fresh (arrKey h.srcNode.val h.srcCh.val h.stream) (s.m.fab ch.val).arrived) h.offset data.length).fst x.arrived }).covered ch.val x.sig = false)) ∧
    (∃ (s : State) (ch : ChId) (h : MsgHdr) (data : List Byte) (code : Nat), s.m.Settled ∧ s.m.fabOn ch.val = true ∧
      s.m.node = some (addrNode h.dst) ∧ addrCh h.dst = ch.val ∧ h.hops.val ≠ 15 ∧ s.m.refusal ch.val h data.length = some code ∧
      code ≠ Code.TENANT ∧ s.m.refusal ch.val h h.len = some code ∧ s.m.Records ch.val 72 ∧ s.m.Records ch.val 75) ∧
    (∃ (s : State) (ch : ChId) (p : PortIx) (h : MsgHdr) (data : List Byte), s.m.Settled ∧ s.m.fabOn ch.val = true ∧
      ¬(s.m.node = some (addrNode h.dst) ∧ addrCh h.dst = ch.val ∧ h.hops.val ≠ 15) ∧ ¬(s.m.node.isSome = true ∧ h.hops.val = 15) ∧
      Instr.fabricWriteReceive ch p h data ∈ [Instr.fabricWriteReceive ch p h data, Instr.fabricReadReceive ch p h]) ∧
    (∃ (s : State) (ch : ChId) (p : PortIx) (h : MsgHdr) (data : List Byte), s.m.Settled ∧ s.m.fabOn ch.val = true ∧
      s.m.node.isSome = true ∧ h.hops.val = 15 ∧ Instr.fabricWriteReceive ch p h data ∈ [Instr.fabricWriteReceive ch p h data,
      Instr.fabricReadReceive ch p h] ∧ s.m.Records ch.val 75 ∧ s.m.node.isSome = true ∧ h.hops.val = 15 ∧ s.m.Records ch.val 72 ∧
      (¬(s.m.node = some (addrNode h.dst) ∧ addrCh h.dst = ch.val ∧ h.hops.val ≠ 15) ∨ (s.m.refusal ch.val h data.length).isSome = true)) ∧
    (∃ (s : State) (ch : ChId) (h : MsgHdr) (data : List Byte), s.m.Settled ∧ s.m.fabOn ch.val = true ∧ s.m.node = some (addrNode h.dst) ∧
      addrCh h.dst = ch.val ∧ h.hops.val ≠ 15 ∧ s.m.refusal ch.val h data.length = some Code.TENANT ∧ s.m.Records ch.val 72 ∧
      s.m.refusal ch.val h h.len = none) ∧
    (∃ (s : State) (ch : ChId) (h : MsgHdr), s.m.Settled ∧ s.m.fabOn ch.val = true ∧ s.m.node = some (addrNode h.dst) ∧
      addrCh h.dst = ch.val ∧ h.hops.val ≠ 15 ∧ s.m.refusal ch.val h h.len = some Code.TENANT) ∧
    (∃ (s : State) (ch : ChId) (h : MsgHdr) (m : Nat) (q : Nat), s.m.Settled ∧ s.m.fabOn ch.val = true ∧ s.m.node = some (addrNode h.dst) ∧
      addrCh h.dst = ch.val ∧ h.hops.val ≠ 15 ∧ s.m.refusal ch.val h h.len = none ∧ h.len ≤ 2016 ∧
      s.m.routeMask ch.val h.srcNode.val h.srcCh.val = some m ∧ s.m.choosePort ch.val m 1 = some q ∧
      s.m.port ch.val q = { Port.fresh with state := 3 }) :=
  ⟨⟨lent, 0, (header 3 4), [1], by unfold Dev.Settled; decide +kernel⟩,
    ⟨lent, 0, (header 0 0), [], ((lent.m.refusal 0 (header 0 0) 0).getD 0), by unfold Dev.Settled Dev.Records; decide +kernel⟩,
    ⟨(nodeUp fun m => m.wr .evfMod 0 0 Off.EVF_NODE 0x8009), 0, 5, (header 0 4), [1], by unfold Dev.Settled; decide +kernel⟩,
    ⟨lent, 0, 5, (header 15 4), [1], by unfold Dev.Settled Dev.Records; decide +kernel⟩,
    ⟨lent, 0, (header 0 4), (List.replicate 17 5), by unfold Dev.Settled Dev.Records; decide +kernel⟩,
    ⟨lent, 0, (header 0 17), by unfold Dev.Settled; decide +kernel⟩,
    ⟨lent, 0, (header 3 16), 0x20, 5, by unfold Dev.Settled; decide +kernel⟩⟩

/-- States and operands meet the hypotheses of every clause of `Obligations.ReadsAndRunsEnd`. -/
theorem test_meets_ReadsAndRunsEnd :
    (∃ (s : State) (ch : ChId) (me : Fin 32768) (h : MsgHdr) (r : OpenRead), s.m.Settled ∧ s.m.fabOn ch.val = true ∧
      s.m.node = some me.val ∧ addrNode h.dst = me.val ∧ addrCh h.dst = ch.val ∧ h.hops.val ≠ 15 ∧ List.find? (fun r =>
      decide (r.tag = h.tag) && decide (r.stream = h.stream)) (s.m.fab ch.val).reads = some r ∧ s.m.fltState ch.val = 0 ∧ h.status = 0 ∧
      r.seq = none) ∧
    (∃ (s : State) (ch : ChId) (me : Fin 32768) (h : MsgHdr) (r : OpenRead), s.m.Settled ∧ s.m.fabOn ch.val = true ∧
      s.m.node = some me.val ∧ addrNode h.dst = me.val ∧ addrCh h.dst = ch.val ∧ h.hops.val ≠ 15 ∧ List.find? (fun r =>
      decide (r.tag = h.tag) && decide (r.stream = h.stream)) (s.m.fab ch.val).reads = some r ∧ r.seq = none ∧ h.status ≠ 0 ∧
      s.m.fltState ch.val = 0) ∧
    (∃ (s : State) (ch : ChId) (me : Fin 32768) (h : MsgHdr), s.m.Settled ∧ s.m.fabOn ch.val = true ∧ s.m.node = some me.val ∧
      (addrNode h.dst ≠ me.val ∨ addrCh h.dst ≠ ch.val) ∧ h.hops.val ≠ 15) ∧
    (∃ (s : State) (ch : ChId) (me : Fin 32768) (w : MsgWay), s.m.Settled ∧ s.m.fabOn ch.val = true ∧ s.m.node = some me.val ∧
      s.m.fabOn w.ch.val = true ∧ (w.node ≠ me ∨ w.dstCh ≠ w.ch)) ∧
    (∃ (s : State) (ch : ChId) (me : Fin 32768) (tag : Nat) (r : OpenRead), s.m.Settled ∧ s.m.fabOn ch.val = true ∧ s.m.node = some me.val ∧
      List.find? (fun x => decide (x.tag = tag)) (s.m.fab ch.val).reads = some r ∧ r.seq = none) ∧
    (∃ (s : State) (ch : ChId) (me : Fin 32768) (y : SentSig), s.m.Settled ∧ s.m.fabOn ch.val = true ∧ s.m.node = some me.val ∧
      List.find? (fun r => decide (r.tag = y.sig.mark) && decide (r.stream = y.sig.stream)) (s.m.fab ch.val).reads = none ∧
      List.find? (fun x => decide (x.sig.stream = y.sig.stream) && decide (x.sig.mark = y.sig.mark)) (s.m.sync ch.val).sent = some y ∧
      (s.m.fab ch.val).reads = [] ∧ (s.m.sync ch.val).sent = [y] ∧ y.seq = none) ∧
    (∃ (s : State) (ch : ChId) (me : Fin 32768) (c : Coll) (tag : Nat), s.m.Settled ∧ s.m.fabOn ch.val = true ∧ s.m.node = some me.val ∧
      (s.m.fab ch.val).reads = [] ∧ (s.m.sync ch.val).sent = [] ∧ List.find? (fun x =>
      decide (x.o.stream = c.o.stream) && x.done) (s.m.fab ch.val).colls = some c ∧ tag < c.o.parts.length) ∧
    (∃ (s : State) (ch : ChId) (me : Fin 32768) (d : Digest) (x : HeldSig) (c : Coll), s.m.Settled ∧ s.m.fabOn ch.val = true ∧
      s.m.node = some me.val ∧ d.dstCh = ch ∧ s.m.fltState ch.val = 0 ∧ (s.m.sync ch.val).held = [x] ∧ s.m.covered ch.val x.sig = true ∧
      (s.m.fab ch.val).digests = [] ∧ s.m.collOf ch.val x.obj = some c ∧ d.srcNode = x.sig.srcNode ∧ d.srcCh = x.sig.srcCh ∧
      d.stream = x.sig.stream ∧ d.markEnd = x.sig.mark ∧ d.collId = c.o.collId ∧ d.inst = c.o.inst ∧
      digestOf d (s.m.bytes (devAddr d.addr) d.len) = d.digest) ∧
    (∃ (s : State) (ch : ChId) (me : Fin 32768) (d : Digest), s.m.Settled ∧ s.m.fabOn ch.val = true ∧ s.m.node = some me.val ∧
      d.dstCh = ch ∧ s.m.fltState ch.val = 0 ∧ (∀ (x : HeldSig), x ∈ (s.m.sync ch.val).held → s.m.covered ch.val x.sig = false) ∧
      (s.m.sync ch.val).held = []) ∧
    (∃ (s : State) (ch : ChId) (me : Fin 32768) (d : Digest), s.m.Settled ∧ s.m.fabOn ch.val = true ∧ s.m.node = some me.val ∧
      d.dstCh = ch ∧ s.m.fltState ch.val ≠ 0) ∧
    (∃ (s : State) (ch : ChId) (me : Fin 32768) (c : Coll) (ctx : CtxId) (id : Nat) (inst : Nat), s.m.Settled ∧ s.m.fabOn ch.val = true ∧
      s.m.node = some me.val ∧ List.find? (fun c => decide (c.o.ctx.val = ctx.val) && decide (c.o.collId = id) && decide (c.o.inst = inst))
      (s.m.fab ch.val).colls = some c ∧ c.o.ch = ch ∧ c.done = true) ∧
    (∃ (s : State) (ch : ChId) (me : Fin 32768) (c : Coll) (ctx : CtxId) (id : Nat) (inst : Nat) (o : Nat), s.m.Settled ∧
      s.m.fabOn ch.val = true ∧ s.m.node = some me.val ∧ List.find? (fun c =>
      decide (c.o.ctx.val = ctx.val) && decide (c.o.collId = id) && decide (c.o.inst = inst)) (s.m.fab ch.val).colls = some c ∧
      c.o.ch = ch ∧ c.me ≠ 0 ∧ c.done = false ∧ s.m.collObj c.o = some o ∧ (s.m.obj ch.val o).state = 1 ∧ (s.m.obj ch.val o).waits = []) :=
  ⟨⟨(asNode (readOpen 0)), 0, 5, (statusHeader 0), openRead, by unfold Dev.Settled; decide +kernel⟩,
    ⟨(asNode (readOpen 0)), 0, 5, (statusHeader 7), openRead, by unfold Dev.Settled; decide +kernel⟩,
    ⟨(asNode (readOpen 0)), 0, 5, { statusHeader 0 with dst := globalAddr 5 3 0x1000 }, by unfold Dev.Settled; decide +kernel⟩,
    ⟨forwarding, 0, 5, { answerWay with node := 7 }, by unfold Dev.Settled; decide +kernel⟩,
    ⟨(asNode (readOpen 1)), 0, 5, 9, openRead, by unfold Dev.Settled; decide +kernel⟩,
    ⟨(asNode signalOpen), 0, 5, openSignal, by unfold Dev.Settled; decide +kernel⟩,
    ⟨(on forwarding fun m => m.modFab 0 fun x => { x with colls := [{ collFirst with done := true }] }), 0, 5,
      { collFirst with done := true }, 1, by unfold Dev.Settled; decide +kernel⟩,
    ⟨collHeld, 0, 5, digestEqual, heldSignal, collFirst, by unfold Dev.Settled; decide +kernel⟩,
    ⟨(asNode up), 0, 5, digest, by unfold Dev.Settled; decide +kernel⟩,
    ⟨(asNode (flt 2 up)), 0, 5, digest, by unfold Dev.Settled; decide +kernel⟩,
    ⟨(on (asNode collRuns) fun m => m.modFab 0 fun x => { x with colls := [{ collective with done := true }] }), 0, 5,
      { collective with done := true }, 1, 3, 1, by unfold Dev.Settled; decide +kernel⟩,
    ⟨(asNode collRuns), 0, 5, collective, 1, 3, 1, 3, by unfold Dev.Settled; decide +kernel⟩⟩

/-- States and operands meet the hypotheses of every clause of `Obligations.StreamsAreHeld`. -/
theorem test_meets_StreamsAreHeld :
    (∃ (s : State) (ch : ChId) (st : Nat) (me : Fin 32768) (node : Fin 32768), s.m.Settled ∧ s.m.fabOn ch.val = true ∧
      s.m.node = some me.val ∧ s.m.streamTo ch.val st node.val = true) ∧
    (∃ (s : State) (ch : ChId) (st : Nat) (me : Fin 32768) (node : Fin 32768), s.m.Settled ∧ s.m.fabOn ch.val = true ∧
      s.m.node = some me.val ∧ s.m.streamTo ch.val st node.val = false) ∧
    (∃ (s : State) (ch : ChId) (st : Nat) (t0 : Nat) (node : Nat) (dch : Nat) (m : FabMsg), s.m.Settled ∧ s.m.fabOn ch.val = true ∧
      (s.m.stream ch.val st).since = some t0 ∧ (s.m.stream ch.val st).last = some (node, dch, m) ∧ (s.m.stream ch.val st).held = true ∧
      t0 + 1000000000 ≤ (s.m.chan ch.val).time ∧ (s.m.fab ch.val).reads = []) ∧
    (∃ (s : State) (ch : ChId) (st : Nat) (t0 : Nat) (node : Nat) (dch : Nat) (p : Nat) (m : FabMsg), s.m.Settled ∧
      s.m.fabOn ch.val = true ∧ (s.m.stream ch.val st).since = some t0 ∧ (s.m.stream ch.val st).last = some (node, dch, m) ∧
      (s.m.stream ch.val st).held = true ∧ (s.m.chan ch.val).time < t0 + 1000000000 ∧ s.m.fltState ch.val = 0 ∧
      (s.m.stream ch.val st).port = some p ∧ s.m.port ch.val p = { Port.fresh with state := 3 } ∧ msgVc m < 3 ∧ msgGranules m ≤ 64) ∧
    (∃ (s : State) (ch : ChId) (st : Nat) (t0 : Nat) (node : Nat) (dch : Nat) (m : FabMsg), s.m.Settled ∧ s.m.fabOn ch.val = true ∧
      (s.m.stream ch.val st).since = some t0 ∧ (s.m.stream ch.val st).last = some (node, dch, m) ∧ (s.m.stream ch.val st).held = false) ∧
    (∃ (s : State) (ch : ChId) (st : Nat) (p : Nat), s.m.Settled ∧ s.m.fabOn ch.val = true ∧ (s.m.stream ch.val st).port = some p ∧
      (((s.m.port ch.val p).txq.any fun m => decide (m.stream = some st)) || (s.m.port ch.val p).replay.any fun e => e.snd.any fun m =>
      decide (m.stream = some st)) = false) ∧
    (∃ (s : State) (ch : ChId) (st : Nat) (p : Nat), s.m.Settled ∧ s.m.fabOn ch.val = true ∧ (s.m.stream ch.val st).port = some p ∧
      (((s.m.port ch.val p).txq.any fun m => decide (m.stream = some st)) || (s.m.port ch.val p).replay.any fun e => e.snd.any fun m =>
      decide (m.stream = some st)) = true) :=
  ⟨⟨(asNode (streamOut 7 id)), 0, 65535, 5, 32767, by unfold Dev.Settled; decide +kernel⟩,
    ⟨(asNode (streamOut 7 id)), 0, 65535, 5, 32766, by unfold Dev.Settled; decide +kernel⟩,
    ⟨(streamHeld 1000000005), 0, 65535, 5, 32767, 3, (.write (header 0 4) [1]), by unfold Dev.Settled; decide +kernel⟩,
    ⟨(streamHeld 1000000004), 0, 65535, 5, 32767, 3, 5, (.write (header 0 4) [1]), by unfold Dev.Settled; decide +kernel⟩,
    ⟨(streamOut 7 fun x => { x with since := some 5, wait := [(32767, 3, .write (header 0 4) [2])] }), 0, 65535, 5, 32767, 3,
      (.write (header 0 4) [1]), by unfold Dev.Settled; decide +kernel⟩,
    ⟨(streamOut 7 id), 0, 65535, 5, by unfold Dev.Settled; decide +kernel⟩,
    ⟨(on (streamOut 7 id) fun m => m.modPort 0 5 fun p => { p with txq := [⟨0, 3, some 65535, .enum 3⟩] }), 0, 65535, 5,
      by unfold Dev.Settled; decide +kernel⟩⟩

/-- States and operands meet the hypotheses of every clause of `Obligations.NodesAreNumbered`. -/
theorem test_meets_NodesAreNumbered :
    (∃ (s : State) (ch : ChId) (id : Fin 32768), s.m.Settled ∧ s.m.fabOn ch.val = true ∧ s.m.assignOk id.val = true) ∧
    (∃ (s : State) (ch : ChId) (id : Fin 32768), s.m.Settled ∧ s.m.fabOn ch.val = true ∧ s.m.assignOk id.val = false) ∧
    (∃ (s : State) (id : Nat), s.m.Settled ∧ s.m.fabOn 0 = true ∧ s.m.chainOn = true ∧ id < 32768 ∧ s.m.node = none) ∧
    (∃ (s : State) (id : Nat), s.m.Settled ∧ s.m.fabOn 0 = true ∧ s.m.chainOn = true ∧ id < 32768 ∧ s.m.node = some id) ∧
    (∃ (s : State) (id : Nat) (n : Nat), s.m.Settled ∧ s.m.fabOn 0 = true ∧ s.m.chainOn = true ∧ id < 32768 ∧ s.m.node = some n ∧ n ≠ id ∧
      s.m.Records 0 73) ∧
    (∃ (s : State) (n : Nat), s.m.Settled ∧ s.m.fabOn 0 = true ∧ s.m.chainOn = true ∧ s.m.node = some n ∧ n < 32767 ∧
      s.m.port 0 1 = { Port.fresh with state := 3 }) ∧
    (∃ (s : State) (fn : Fn) (v : Word), s.m.Settled ∧ s.m.Writes fn ⟨.evfMod, 0, 0⟩ Off.EVF_NODE ∧ bit v 15 = true ∧
      s.m.Writes fn ⟨.evfMod, 0, 0⟩ Off.EVF_ENUM) ∧
    (∃ (s : State) (fn : Fn) (v : Word), s.m.Settled ∧ s.m.Writes fn ⟨.evfMod, 0, 0⟩ Off.EVF_NODE ∧ bit v 15 = false) ∧
    (∃ (s : State) (fn : Fn) (ch : ChId), s.m.Settled ∧ s.m.Writes fn ⟨.evfCh, ch.val, 0⟩ Off.EVF_RT_DATA) :=
  ⟨⟨unnumbered, 0, 32767, by unfold Dev.Settled; decide +kernel⟩,
    ⟨numbered, 0, 32767, by unfold Dev.Settled; decide +kernel⟩,
    ⟨(sibling unnumbered), 5, by unfold Dev.Settled; decide +kernel⟩,
    ⟨(sibling numbered), 5, by unfold Dev.Settled; decide +kernel⟩,
    ⟨(sibling numbered), 6, 5, by unfold Dev.Settled Dev.Records; decide +kernel⟩,
    ⟨(on (sibling numbered) fun m => m.modPort 0 1 fun p => { p with state := 3 }), 5, by unfold Dev.Settled; decide +kernel⟩,
    ⟨numbered, .pf0, 0xFFFF, by unfold Dev.Settled Dev.Writes; decide +kernel⟩,
    ⟨numbered, .pf0, 0x7FFF, by unfold Dev.Settled Dev.Writes; decide +kernel⟩,
    ⟨(on unnumbered fun m => m.wr .evfCh 0 0 Off.EVF_RT_IDX 0x7FFF), .pf0, 0, by unfold Dev.Settled Dev.Writes; decide +kernel⟩⟩

/-- States and operands meet the hypotheses of every clause of `Obligations.TimeIsKept`. -/
theorem test_meets_TimeIsKept :
    (∃ (s : State) (ch : ChId) (p : PortIx) (m : TimeMsg), s.m.Settled ∧ s.m.fabOn ch.val = true ∧ s.m.timeMode = 3 ∧ s.m.ftime.heard = [] ∧
      (s.m.port ch.val p.val).state = 3 ∧ m.hops < 255 ∧ s.m.vin = true ∧ s.m.node = none ∧ s.m.followsTime = true ∧ s.m.tsta 1 1 = 0) ∧
    (∃ (s : State) (ch : ChId) (m : TimeMsg) (n : Nat), s.m.Settled ∧ s.m.fabOn ch.val = true ∧ s.m.timeMode = 1 ∧ s.m.node = some n ∧
      m.master.val < n) ∧
    (∃ (s : State) (ch : ChId), s.m.Settled ∧ s.m.fabOn ch.val = true ∧ s.m.timeMode = 0) ∧
    (∃ (s : State) (ch : ChId) (p : PortIx) (n : Nat), (s.m.Settled ∧ s.m.fabOn ch.val = true ∧ s.m.node = some n ∧ n < 32768 ∧
      s.m.timeMode = 1 ∧ s.m.tsta 27 27 = 0 ∧ s.m.ftime.heard = [] ∧ s.m.ftime.from_ = none ∧
      s.m.port ch.val p.val = { Port.fresh with state := 3 }) ∧ (∀ (c q : Nat), c ≠ ch.val ∨ q ≠ p.val → (s.m.port c q).state ≠ 3)) ∧
    (∃ (s : State), s.m.Settled ∧ s.m.vin = true ∧ s.m.followsTime = true ∧ s.m.tsta 1 1 = 1 ∧ s.m.Records s.m.timeCh 74) ∧
    (∃ (s : State), s.m.Settled ∧ s.m.vin = true ∧ s.m.timeMode ≠ 2) ∧
    (∃ (s : State) (off : Int), s.m.Settled ∧ s.m.vin = true ∧ s.m.timeMode = 2 ∧
      off.natAbs ≤ 10 * max 1 (s.m.rdF .evfMod 0 0 Off.EVF_TIME_CTL 15 8)) ∧
    (∃ (s : State) (off : Int), s.m.Settled ∧ s.m.vin = true ∧ s.m.timeMode = 2 ∧
      10 * max 1 (s.m.rdF .evfMod 0 0 Off.EVF_TIME_CTL 15 8) < off.natAbs ∧ s.m.ftime.misses ≠ 2) ∧
    (∃ (s : State) (off : Int), s.m.Settled ∧ s.m.vin = true ∧ s.m.timeMode = 2 ∧
      10 * max 1 (s.m.rdF .evfMod 0 0 Off.EVF_TIME_CTL 15 8) < off.natAbs ∧ s.m.ftime.misses = 2 ∧ s.m.Records s.m.timeCh 74) ∧
    (∃ (s : State) (fn : Fn), s.m.Settled ∧ s.m.Writes fn ⟨.evfMod, 0, 0⟩ Off.EVF_TIME_CTL) :=
  ⟨⟨(timed 3 id loaded), 0, 7, (timeMsg 4 0), by unfold Dev.Settled; decide +kernel⟩,
    ⟨(timed 1 id numbered), 0, (timeMsg 4 0), 5, by unfold Dev.Settled; decide +kernel⟩,
    ⟨(timed 0 id numbered), 0, by unfold Dev.Settled; decide +kernel⟩,
    ⟨(timed 1 id numbered), 0, 7, 5, by unfold Dev.Settled; decide +kernel, port_alone⟩,
    ⟨(timed 3 (fun m => m.wr .evfMod 0 0 Off.EVF_TIME_STA 2) up), by unfold Dev.Settled Dev.Records; decide +kernel⟩,
    ⟨up, by unfold Dev.Settled; decide +kernel⟩,
    ⟨(timed 2 id up), (-10), by unfold Dev.Settled; decide +kernel⟩,
    ⟨(timed 2 id up), (100000), by unfold Dev.Settled; decide +kernel⟩,
    ⟨(timed 2 (fun m => { m with ftime := { m.ftime with misses := 2 } }) up), (-100000), by unfold Dev.Settled Dev.Records; decide +kernel⟩,
    ⟨(timed 2 (fun m => m.wr .evfMod 0 0 Off.EVF_TIME_STA 0x8000000) up), .pf0, by unfold Dev.Settled Dev.Writes; decide +kernel⟩⟩

/-! ### Ill-formed commands are refused by the well-formedness check, one for each of its conditions -/

/-- A host address beyond 64 bits. -/
def farHost : HostView := [(2 ^ 64, 0)]

/-- Ill-formed commands of boundaries, arrays and attention. -/
def illFormedWork : List Instr := [
  .plankBoundary { BoundaryEnv.none with host := farHost },
  .plankBoundary { BoundaryEnv.none with logits := [⟨seq0, 4194305, false, 0, []⟩] },
  .plankBoundary { BoundaryEnv.none with logits := [⟨seq0, 0, false, 0, [(2 ^ 24, 0)]⟩] },
  .plankBoundary { BoundaryEnv.none with planned := [(64, 1)] },
  .fullerQuantiseDone core63 (.exec { quantReq with xs := [] }),
  .fullerQuantiseDone core63 (.kv []),
  .leafArrival core63 (.module (.sum 2 1 0 false 0 0)),
  .leafArrival core63 (.part 1 0 0 (2 ^ 24) [0]),
  .daeItemStart core63 { decodeItem with qs := [] },
  .paeItemStart ⟨0, 7⟩ { promptItem with qs := [] },
  .paeBackwardItem ⟨0, 7⟩ { backwardItem with rows := [] },
  .spillLayerItem ⟨0, 7⟩ { spillItem with xs := [] },
  .tileVerifyDone 0 0 0 (List.replicate 2129 0) 0 [],
  .tileVerifyDone 0 0 0 [] 0 (List.replicate 2129 0),
  .blockingRunDone core63 [{ tileCal with b := [(2128, 0)] }],
  .blockingRunDone core63 [{ tileCal with o := [(2128, 0)] }],
  .blockingRunDone core63 [{ tileCal with convFail := [532] }],
  .blockingRunDone core63 [{ tileCal with taps := [(2048, 0)] }],
  .blockingRunDone core63 [{ tileCal with taps := [(0, 32)] }],
  .blockingRunDone core63 [{ tileCal with thr := [(1044, 0)] }],
  .blockingRunDone core63 [{ tileCal with thr := [(0, 64)] }]]

/-- Ill-formed commands of sequences, loads and scratchpads. -/
def illFormedServing : List Instr := [
  .pageMoveDone seq0 65536 0 true, .pageMoveDone seq0 0 (2 ^ 24) true,
  .hoodRestoreDone seq0 farHost true, .loadFetchDone 1 farHost, .loadCopyDone 1 farHost true, .adapterLoadDone 1 0 farHost,
  .rqtEntryFieldWrite .pf0 seq0 0 [], .rqtEntryFieldWrite .pf0 seq0 127 [0, 0],
  .spdRequestIssue core63 (readReq (2 ^ 22) 4), .spdRequestIssue core63 (readReq 0 0), .spdRequestIssue core63 (readReq 0 16385),
  .spdRequestIssue core63 ⟨.dma, false, .transposed (2 ^ 22) 64, []⟩,
  .spdRequestIssue core63 ⟨.dma, false, .strided (2 ^ 22) 4 1 0, []⟩, .spdRequestIssue core63 ⟨.dma, false, .strided 0 4 0 0, []⟩,
  .spdRequestIssue core63 ⟨.dma, false, .region 0 0, []⟩, .spdRequestIssue core63 ⟨.dma, false, .region 0 16385, []⟩,
  .spdAccessStart core63 64]

/-- Ill-formed commands of the fabric. -/
def illFormedFabric : List Instr := [
  .remoteSignalArrive ⟨0, 0, 0, { remoteSignal with value := 65536 }⟩, .remoteSignalArrive ⟨0, 0, 0, { remoteSignal with stream := 65536 }⟩,
  .remoteSignalArrive ⟨0, 0, 0, { remoteSignal with mark := 2 ^ 48 }⟩,
  .flitReceive 0 0 (flitOf true 0 (List.replicate 65 0)),
  .fabricWriteReceive 0 0 { header 0 1 with stream := 65536 } [0], .fabricWriteReceive 0 0 { header 0 1 with offset := 2 ^ 48 } [0],
  .fabricWriteReceive 0 0 { header 0 1 with tag := 65536 } [0], .fabricWriteReceive 0 0 (header 0 131073) [0],
  .fabricWriteReceive 0 0 (header 0 0) [], .fabricWriteReceive 0 0 (header 0 2) [0], .fabricReadReceive 0 0 (header 0 0),
  .readRespReceive ⟨0, 0⟩ { header 0 1 with tag := 65536 } [0], .readTimeout 0 65536,
  .digestReceive ⟨0, 0, 0, { digest with stream := 65536 }⟩, .digestReceive ⟨0, 0, 0, { digest with markEnd := 2 ^ 48 }⟩,
  .replyReceive answerWay 65536 0 0, .replyReceive answerWay 0 65536 0, .enumReceive 0 0 65536,
  .notreadyReceive ⟨0, 5, 5, 0⟩ 65536 ⟨3, 2⟩, .notreadyResendTimer 0 65536, .streamIdleExpire 0 65536]

/-- Ill-formed commands of the host port, the records and the management bus. -/
def illFormedHost : List Instr := [
  .pgFrcWrite .pf0 1 0, .pgFltClear .pf0 1 0, .pgSevWrite .pf0 1 false 0, .cntClr .pf0 1 0,
  .fastMeterSample .vin (2 ^ 20) 0, .fastMeterSample .vin 0 (2 ^ 20),
  .bar2Access .pf0 (2 ^ 36) (.read 1), .bar2Access .pf0 0 (.read 0), .bar2Access .pf0 0 (.write []),
  .accessDeny .pf0 (2 ^ 32) false, .counterLoRead .pf0 (2 ^ 32), .registerWrite .pf0 (2 ^ 32) 2 0,
  .readReg 7 0 (2 ^ 32) 1, .readReg 7 0 0 0, .readReg 7 0 0 65, .writeReg 7 0 (2 ^ 32) [0], .writeReg 7 0 0 [],
  .writeReg 7 0 0 (List.replicate 65 0), .evrRead 7 0 (2 ^ 48) 1, .evrRead 7 0 0 0, .evrRead 7 0 0 33, .attest 7 0 [],
  .getCert 7 0 0 65536, .fwStage 7 0 0 (2 ^ 32) [0], .fwStage 7 0 0 0 [], .fwStage 7 0 0 0 (List.replicate 1017 0),
  .secFwStage .pf0 0 farHost, .pemorUnlock 0 .locked, .pemorResp 0 []]

theorem test_wf_refuses_work : (illFormedWork.all fun c => !c.wf) = true := by decide +kernel
theorem test_wf_refuses_serving : (illFormedServing.all fun c => !c.wf) = true := by decide +kernel
theorem test_wf_refuses_fabric : (illFormedFabric.all fun c => !c.wf) = true := by decide +kernel
theorem test_wf_refuses_host : (illFormedHost.all fun c => !c.wf) = true := by decide +kernel

/-! ### Worked examples of the spec -/

/-- The slice of R45's worked example: its masses, and the active rows of each plane, in every sub-block. -/
def exampleMass : List Nat := [1380, 1420, 1350, 1400, 1440, 1390, 1410, 1370]

/-- Plane 0 of the worked example takes two passes, plane 2 one (02_array_engine.md, "Slots, splits and time"). -/
theorem test_planes_split : ([130, 118, 40, 126].map fun n =>
    (planePasses exampleMass [10940] (List.replicate 8 n) 8 (chkLimit 5) true true).1.length) = [2, 2, 1, 2] := by decide +kernel

/-- The largest element of a KV4 block is 2.9: the scale is 0x2E, the codes of 2.9, -1.0 and 0.2 are 7, -2 and 0, and one counts in ZER
(04_formats_and_rotation.md). -/
theorem test_kv4_block : kvScale 4 0x4039999A#32 = 0x2E#8 ∧
    kvCodes 4 0x2E#8 [0x4039999A#32, 0xBF800000#32, 0x3E4CCCCD#32] = ([7, -2, 0], 0, 1) := by decide +kernel

/-- 32 elements 16,384 bytes apart lie in one bank, 16,896 bytes apart in 32 (11_scratchpads.md). -/
theorem test_column_banks : ((List.range 32).map fun i => bankOf (16384 * i)).eraseDups.length = 1 ∧
    ((List.range 32).map fun i => bankOf (16896 * i)).eraseDups.length = 32 := by decide +kernel

/-- ARR_TSTA5 of tile ch3.cl5.co2.t5 is at 0x100_0000 + 0x35_0000 + 0x154 (16_host_port_and_registers.md). -/
theorem test_register_place : pageOff .arr 3 (5 * 8 + 2) (0x140 + 4 * 5) = 0x1350154 := by decide +kernel

/-- HUB_AP2 holds CH 5, T2, BASE 100 and EN: BAR2 offset 0x2_0000_1000 reaches device address 0x0001_5064_0000_1000. -/
theorem test_aperture : (match exec (.bar2Access .pf0 0x200001000 (.write [7]))
      (on allReady fun m => (m.wrF .hub 0 0 Off.HUB_CTL 1 0 3).wr .hub 0 0 (Off.HUB_AP + 8) (BitVec.ofNat 32 (100 + 5 * 128 + 1024 + 2048))) with
    | .next t => t.m.mem | _ => []) = [(0x0001506400001000, 7)] := by decide +kernel

/-- ch3 of a module strapped at SLOT_ID 0x15 has the PID 0x0B46_9600_3540 (18_management_security_records.md). -/
theorem test_pid : (on up fun m => { m with slotId := 0x15 }).m.pid 3 = 0x0B4696003540 := by decide +kernel

/-- With the stop sequence A B A C, the tokens A B A B A leave the progress at 3 (08_request_serving.md). -/
theorem test_stop_progress : [1, 2, 1, 2, 1].foldl (fun k t => advanceOne [1, 2, 1, 3] k t) 0 = 3 := by decide +kernel

/-! ### Single steps -/

/-- A step on an empty queue leaves the state as it is. -/
theorem test_idle : (match step up with | .next t => decide (t = up) | _ => false) = true := by decide +kernel

/-- The command at the front runs, and the queue keeps the rest. -/
theorem test_front : (match step ⟨[.synMap .pf0 1 5 0, .vinStart], loaded.m⟩ with | .next t => t.pending | _ => []) = [.vinStart] := by decide +kernel

/-- A source that acts at CONTAIN contains its channel, and no other (R376). -/
theorem test_contains : (match exec (.fltCmdContain .pf0 0) up with | .next t => [t.m.fltState 0, t.m.fltState 1] | _ => []) = [1, 0] := by decide +kernel

/-- Signals count up to the target, and the object is met. -/
theorem test_signal : (match exec (.synSignal .pf0 0 1 4095 2) (mapped 4095 65535 armed) with | .next t => (t.m.obj 0 65535).count | _ => 0) = 5 := by
  decide +kernel

/-- A write of a reset value leaves nothing listed, so equal memories stay equal data. -/
theorem test_canonical : ((Dev.reset.setBytes 7 [1]).setBytes 7 [0]).mem = [] := by decide +kernel

/-- The largest E4M3 value is 448; 449 and 1,000 saturate to it (R116). -/
theorem test_e4m3_saturates : (e4m3Of 0x43E00000#32, e4m3Of 0x43E08000#32, e4m3Of 0x447A0000#32) = (0x7E#8, 0x7E#8, 0x7E#8) := by decide +kernel

/-- FP32 addition rounds to nearest, ties to even: 2^24 + 1 = 2^24, and 2^24 + 3 = 2^24 + 4. -/
theorem test_add_ties : (F32.add 0x4B800000#32 F32.one, F32.add 0x4B800000#32 0x40400000#32) = (0x4B800000#32, 0x4B800002#32) := by decide +kernel

/-- exp(0) is 1, and ln(1) is 0. -/
theorem test_exp_ln : (F32.exp 0, F32.ln F32.one) = (F32.one, 0#32) := by decide +kernel

end Sys2Proof.Tests
end

section
/-! The address map of R441: every page that exists holds exactly the offsets from its base, and the request table windows lie on none. -/

namespace Sys2Proof

/-! ### Offsets within a page -/

theorem Page.base_mod (p : Page) : p.base % 0x1000 = 0 := by
  obtain ⟨k, ch, i⟩ := p
  cases k <;> simp only [Page.base, chanWin] <;> omega

theorem Page.base_add_mod (p : Page) {o : Nat} (ho : o < 0x1000) : (p.base + o) % 0x1000 = o := by
  have := p.base_mod; omega

theorem Page.base_add_mod_four (p : Page) (o : Nat) : (p.base + o) % 4 = o % 4 := by
  have := p.base_mod; omega

theorem Page.base_add_mod_eight (p : Page) (o : Nat) : (p.base + o) % 8 = o % 8 := by
  have := p.base_mod; omega

/-! ### The page of an offset, region by region of R441 -/

/-- Offset `w` of a channel's window falls in the page that stands there. -/
theorem Page.ofAddr_chanWin {ch w : Nat} (hc : ch < 8) (hw : w < 0x400000) : Page.ofAddr (chanWin ch + w) = Page.ofWindow ch w := by
  have hq : (chanWin ch + w) / 0x400000 - 1 = ch := by simp only [chanWin]; omega
  have hr : (chanWin ch + w) % 0x400000 = w := by simp only [chanWin]; omega
  rw [Page.ofAddr, if_neg (by simp only [chanWin]; omega), if_pos (by simp only [chanWin]; omega), hq, hr]

/-- The module's pages, in their order. -/
def moduleKinds : List PageKind := [.hub, .plk, .fltMod, .evfMod, .pwrMod, .secMod]
/-- A context's pages in the hub, in their order. -/
def hubContextKinds : List PageKind := [.hubCx, .ldrCx, .adpCx, .plcCx]
/-- The pages that a channel's window holds once, in their order. -/
def channelKinds : List PageKind :=
  [.fltCh, .pwrCh, .mgtCh, .secCh, .evrCh, .plkCh, .rqtCh, .kvpCh, .ldrCh, .plcCh, .arrCh, .corCh, .fulCh, .accCh, .attCh, .spdCh, .synCh,
   .evfCh, .monCh, .thmCh, .bkgCh]
/-- A context's pages in a channel's window, in their order. -/
def contextKinds : List PageKind := [.rqtCx, .kvpCx, .synCx]
/-- A cluster's pages, in their order. -/
def clusterKinds : List PageKind := [.att, .mon, .arrSpr]
/-- A core's pages, in their order. -/
def coreKinds : List PageKind := [.arr, .cor, .pnc, .ful, .acc, .spd]

theorem Page.ofAddr_module {n o : Nat} (hn : n < 6) (ho : o < 0x1000) :
    Page.ofAddr (n * 0x1000 + o) = moduleKinds[n]?.map (⟨·, 0, 0⟩) := by
  have hq : (n * 0x1000 + o) / 0x1000 = n := by omega
  rw [Page.ofAddr, if_pos (by omega), Page.ofHub, if_pos (by omega), hq]
  interval_cases n <;> rfl

theorem Page.ofAddr_hubContext {i n o : Nat} (hi : i < 64) (hn : n < 4) (ho : o < 0x1000) :
    Page.ofAddr (0x100000 + i * 0x4000 + n * 0x1000 + o) = hubContextKinds[n]?.map (⟨·, 0, i⟩) := by
  have hq : (0x100000 + i * 0x4000 + n * 0x1000 + o - 0x100000) / 0x4000 = i := by omega
  have hr : (0x100000 + i * 0x4000 + n * 0x1000 + o - 0x100000) % 0x4000 / 0x1000 = n := by omega
  rw [Page.ofAddr, if_pos (by omega), Page.ofHub, if_neg (by omega), if_pos (by omega), hq, hr]
  interval_cases n <;> rfl

theorem Page.ofWindow_channel (ch : Nat) {n o : Nat} (hn : n < 21) (ho : o < 0x1000) :
    Page.ofWindow ch (n * 0x1000 + o) = channelKinds[n]?.map (⟨·, ch, 0⟩) := by
  have hq : (n * 0x1000 + o) / 0x1000 = n := by omega
  rw [Page.ofWindow, if_pos (by omega), hq]
  interval_cases n <;> rfl

theorem Page.ofWindow_context (ch : Nat) {i n o : Nat} (hi : i < 64) (hn : n < 4) (ho : o < 0x1000) :
    Page.ofWindow ch (0x40000 + i * 0x4000 + n * 0x1000 + o) = contextKinds[n]?.map (⟨·, ch, i⟩) := by
  have hq : (0x40000 + i * 0x4000 + n * 0x1000 + o - 0x40000) / 0x4000 = i := by omega
  have hr : (0x40000 + i * 0x4000 + n * 0x1000 + o - 0x40000) % 0x4000 / 0x1000 = n := by omega
  rw [Page.ofWindow, if_neg (by omega), if_pos (by omega), hq, hr]
  interval_cases n <;> rfl

theorem Page.ofWindow_cluster (ch : Nat) {i n o : Nat} (hi : i < 8) (hn : n < 4) (ho : o < 0x1000) :
    Page.ofWindow ch (0x140000 + i * 0x4000 + n * 0x1000 + o) = clusterKinds[n]?.map (⟨·, ch, i⟩) := by
  have hq : (0x140000 + i * 0x4000 + n * 0x1000 + o - 0x140000) / 0x4000 = i := by omega
  have hr : (0x140000 + i * 0x4000 + n * 0x1000 + o - 0x140000) % 0x4000 / 0x1000 = n := by omega
  rw [Page.ofWindow, if_neg (by omega), if_neg (by omega), if_pos (by omega), hq, hr]
  interval_cases n <;> rfl

theorem Page.ofWindow_core (ch : Nat) {i n o : Nat} (hi : i < 64) (hn : n < 8) (ho : o < 0x1000) :
    Page.ofWindow ch (0x200000 + i * 0x8000 + n * 0x1000 + o) = coreKinds[n]?.map (⟨·, ch, i⟩) := by
  have hq : (0x200000 + i * 0x8000 + n * 0x1000 + o - 0x200000) / 0x8000 = i := by omega
  have hr : (0x200000 + i * 0x8000 + n * 0x1000 + o - 0x200000) % 0x8000 / 0x1000 = n := by omega
  rw [Page.ofWindow, if_neg (by omega), if_neg (by omega), if_neg (by omega), if_pos (by omega), hq, hr]
  interval_cases n <;> rfl

/-! ### Where a page stands -/

theorem Page.base_module {k : PageKind} (hk : k ∈ moduleKinds) (ch i : Nat) : Page.base ⟨k, ch, i⟩ = moduleKinds.idxOf k * 0x1000 := by
  fin_cases hk <;> simp [Page.base, moduleKinds]

theorem Page.base_hubContext {k : PageKind} (hk : k ∈ hubContextKinds) (ch i : Nat) :
    Page.base ⟨k, ch, i⟩ = 0x100000 + i * 0x4000 + hubContextKinds.idxOf k * 0x1000 := by
  fin_cases hk <;> simp [Page.base, hubContextKinds]

theorem Page.base_channel {k : PageKind} (hk : k ∈ channelKinds) (ch i : Nat) :
    Page.base ⟨k, ch, i⟩ = chanWin ch + channelKinds.idxOf k * 0x1000 := by
  fin_cases hk <;> simp [Page.base, channelKinds]

theorem Page.base_context {k : PageKind} (hk : k ∈ contextKinds) (ch i : Nat) :
    Page.base ⟨k, ch, i⟩ = chanWin ch + 0x40000 + i * 0x4000 + contextKinds.idxOf k * 0x1000 := by
  fin_cases hk <;> simp [Page.base, contextKinds]

theorem Page.base_cluster {k : PageKind} (hk : k ∈ clusterKinds) (ch i : Nat) :
    Page.base ⟨k, ch, i⟩ = chanWin ch + 0x140000 + i * 0x4000 + clusterKinds.idxOf k * 0x1000 := by
  fin_cases hk <;> simp [Page.base, clusterKinds]

theorem Page.base_core {k : PageKind} (hk : k ∈ coreKinds) (ch i : Nat) :
    Page.base ⟨k, ch, i⟩ = chanWin ch + 0x200000 + i * 0x8000 + coreKinds.idxOf k * 0x1000 := by
  fin_cases hk <;> simp [Page.base, coreKinds]

/-- The page at its own place among a region's kinds. -/
theorem getElem?_idxOf_map {l : List PageKind} {k : PageKind} (hk : k ∈ l) (ch i : Nat) :
    l[l.idxOf k]?.map (fun k => (⟨k, ch, i⟩ : Page)) = some ⟨k, ch, i⟩ := by
  rw [List.getElem?_idxOf hk]; rfl

/-- A valid page is one of the six shapes of R441. -/
theorem Page.valid_cases {k : PageKind} {ch i : Nat} (hv : Page.valid ⟨k, ch, i⟩ = true) :
    (k ∈ moduleKinds ∧ ch = 0 ∧ i = 0) ∨ (k ∈ hubContextKinds ∧ ch = 0 ∧ i < 64) ∨ (k ∈ channelKinds ∧ ch < 8 ∧ i = 0) ∨
    (k ∈ contextKinds ∧ ch < 8 ∧ i < 64) ∨ (k ∈ clusterKinds ∧ ch < 8 ∧ i < 8) ∨ (k ∈ coreKinds ∧ ch < 8 ∧ i < 64) := by
  cases k <;> simp [Page.valid] at hv <;> simp [moduleKinds, hubContextKinds, channelKinds, contextKinds, clusterKinds, coreKinds, hv]

/-- Every offset of a page that exists falls in that page (R441). -/
theorem Page.ofAddr_base_add {p : Page} (hv : p.valid = true) {o : Nat} (ho : o < 0x1000) : Page.ofAddr (p.base + o) = some p := by
  obtain ⟨k, ch, i⟩ := p
  obtain ⟨hk, rfl, rfl⟩ | ⟨hk, rfl, hi⟩ | ⟨hk, hc, rfl⟩ | ⟨hk, hc, hi⟩ | ⟨hk, hc, hi⟩ | ⟨hk, hc, hi⟩ := Page.valid_cases hv
  · have hn : moduleKinds.idxOf k < 6 := List.idxOf_lt_length_of_mem hk
    rw [Page.base_module hk, Page.ofAddr_module hn ho, getElem?_idxOf_map hk]
  · have hn : hubContextKinds.idxOf k < 4 := List.idxOf_lt_length_of_mem hk
    rw [Page.base_hubContext hk, Page.ofAddr_hubContext hi hn ho, getElem?_idxOf_map hk]
  · have hn : channelKinds.idxOf k < 21 := List.idxOf_lt_length_of_mem hk
    rw [Page.base_channel hk, Nat.add_assoc, Page.ofAddr_chanWin hc (by omega), Page.ofWindow_channel ch hn ho, getElem?_idxOf_map hk]
  · have hn : contextKinds.idxOf k < 3 := List.idxOf_lt_length_of_mem hk
    rw [Page.base_context hk]
    simp only [Nat.add_assoc (chanWin ch)]
    rw [Page.ofAddr_chanWin hc (by omega), Page.ofWindow_context ch hi (by omega) ho, getElem?_idxOf_map hk]
  · have hn : clusterKinds.idxOf k < 3 := List.idxOf_lt_length_of_mem hk
    rw [Page.base_cluster hk]
    simp only [Nat.add_assoc (chanWin ch)]
    rw [Page.ofAddr_chanWin hc (by omega), Page.ofWindow_cluster ch hi (by omega) ho, getElem?_idxOf_map hk]
  · have hn : coreKinds.idxOf k < 6 := List.idxOf_lt_length_of_mem hk
    rw [Page.base_core hk]
    simp only [Nat.add_assoc (chanWin ch)]
    rw [Page.ofAddr_chanWin hc (by omega), Page.ofWindow_core ch hi (by omega) ho, getElem?_idxOf_map hk]

/-- No page overlaps a request table window (R216, R441). -/
theorem rqtOfAddr_base_add {p : Page} (hv : p.valid = true) {o : Nat} (ho : o < 0x1000) : rqtOfAddr (p.base + o) = none := by
  obtain ⟨k, ch, i⟩ := p
  refine if_neg ?_
  obtain ⟨hk, rfl, rfl⟩ | ⟨hk, rfl, hi⟩ | ⟨hk, hc, rfl⟩ | ⟨hk, hc, hi⟩ | ⟨hk, hc, hi⟩ | ⟨hk, hc, hi⟩ := Page.valid_cases hv
  · have hn : moduleKinds.idxOf k < 6 := List.idxOf_lt_length_of_mem hk
    rw [Page.base_module hk]; omega
  · have hn : hubContextKinds.idxOf k < 4 := List.idxOf_lt_length_of_mem hk
    rw [Page.base_hubContext hk]; omega
  · have hn : channelKinds.idxOf k < 21 := List.idxOf_lt_length_of_mem hk
    rw [Page.base_channel hk, chanWin]; omega
  · have hn : contextKinds.idxOf k < 3 := List.idxOf_lt_length_of_mem hk
    rw [Page.base_context hk, chanWin]; omega
  · have hn : clusterKinds.idxOf k < 3 := List.idxOf_lt_length_of_mem hk
    rw [Page.base_cluster hk, chanWin]; omega
  · have hn : coreKinds.idxOf k < 6 := List.idxOf_lt_length_of_mem hk
    rw [Page.base_core hk, chanWin]; omega

/-- Two words of pages that exist stand at the same offset only if they are the same word of the same page. -/
theorem Page.base_add_inj {p q : Page} (hp : p.valid = true) (hq : q.valid = true) {o r : Nat} (ho : o < 0x1000) (hr : r < 0x1000)
    (h : p.base + o = q.base + r) : p = q ∧ o = r := by
  have hpq : p = q := Option.some.inj <| by rw [← Page.ofAddr_base_add hp ho, h, Page.ofAddr_base_add hq hr]
  subst hpq
  exact ⟨rfl, Nat.add_left_cancel h⟩

/-- A byte of a request table entry, by its offset in BAR0 (R216, R441). -/
theorem rqtOfAddr_entry {ch e o : Nat} (hc : ch < 8) (he : e < 512) (ho : o < 128) :
    rqtOfAddr (chanWin ch + 0x20000 + 128 * e + o) = some (ch, e, o) := by
  rw [rqtOfAddr, if_pos (by simp only [chanWin]; omega)]
  simp only [chanWin, Option.some.injEq, Prod.mk.injEq]
  omega

/-- A word of a page that exists holds at reset what its page map gives (R4). -/
theorem regReset_base_add {p : Page} (hv : p.valid = true) {o : Nat} (ho : o < 0x1000) : regReset (p.base + o) = p.reset o := by
  rw [regReset, Page.ofAddr_base_add hv ho, Page.base_add_mod p ho]

end Sys2Proof

end

section
/-! What power-on reset leaves (O5). -/

namespace Sys2Proof.Machine
open Sys2Proof

/-! ### What reset leaves -/

theorem Dev.reset_reg (a : Nat) : Dev.reset.reg a = regReset a := rfl
theorem Dev.reset_inForce (k : PageKind) (ch inst o hi lo : Nat) :
    Dev.reset.inForce k ch inst o hi lo = Dev.reset.rdF k ch inst o hi lo := rfl
theorem Dev.reset_byte (a : Nat) : Dev.reset.byte a = 0 := rfl

/-- After reset a word of a page that exists reads what its page map gives (R4). -/
theorem Dev.reset_rd {k : PageKind} {ch i o : Nat} (hv : Page.valid ⟨k, ch, i⟩ = true) (ho : o < 0x1000) :
    Dev.reset.rd k ch i o = Page.reset ⟨k, ch, i⟩ o :=
  regReset_base_add hv ho

/-- A page that stands once in a channel's window exists in each of the eight channels. -/
theorem Page.valid_channel {k : PageKind} (hk : k ∈ channelKinds) {ch : Nat} (hc : ch < 8) : Page.valid ⟨k, ch, 0⟩ = true := by
  fin_cases hk <;> simp [Page.valid, hc]

theorem Dev.reset_rd_channel {k : PageKind} (hk : k ∈ channelKinds) {ch o : Nat} (hc : ch < 8) (ho : o < 0x1000) :
    Dev.reset.rd k ch 0 o = Page.reset ⟨k, ch, 0⟩ o :=
  Dev.reset_rd (Page.valid_channel hk hc) ho

/-- A channel is NORMAL, in C0 and not READY after reset (R462). -/
theorem Dev.reset_channel_state {ch : Nat} (hc : ch < 8) :
    Dev.reset.fltState ch = 0 ∧ Dev.reset.cstate ch = 0 ∧ Dev.reset.chReady ch = false := by
  have hf : Dev.reset.rd .fltCh ch 0 Off.FLT_STA = 0x7F0 := Dev.reset_rd_channel (by decide) hc (by decide)
  have hp : Dev.reset.rd .pwrCh ch 0 Off.PWR_CH_STA = 0x18 := Dev.reset_rd_channel (by decide) hc (by decide)
  simp only [Dev.fltState, Dev.cstate, Dev.chReady, Dev.rdF, hf, hp]
  decide

/-- Settles O5: each word reads its page map's reset value, by the place of its page in the address map. -/
theorem resetValues : Obligations.ResetValues := by
  unfold Obligations.ResetValues
  refine ⟨Dev.reset_reg, Dev.reset_inForce, Dev.reset_byte, fun ch hc => Dev.reset_channel_state hc, fun ch hc => ⟨?_, ?_, ?_, ?_⟩, rfl, rfl, rfl⟩
  · exact Dev.reset_rd_channel (by decide) hc (by decide)
  · exact Dev.reset_rd_channel (by decide) hc (by decide)
  · exact Dev.reset_rd_channel (by decide) hc (by decide)
  · exact Dev.reset_rd_channel (by decide) hc (by decide)

end Sys2Proof.Machine

end

section
/-! Bits and fields of a register word. -/

namespace Sys2Proof

/-- A bit that is written reads back. -/
theorem bit_setBit_same (w : Word) {i : Nat} (hi : i < 32) (b : Bool) : bit (setBit w i b) i = b := by
  set x := w.toNat
  set q := x / 2 ^ i
  have hx : q * 2 ^ i + x % 2 ^ i = x := by rw [Nat.mul_comm]; exact Nat.div_add_mod x (2 ^ i)
  have hval : x - q % 2 * 2 ^ i + b.toNat * 2 ^ i = (q - q % 2 + b.toNat) * 2 ^ i + x % 2 ^ i := by
    rw [Nat.add_mul, Nat.sub_mul]
    have : q % 2 * 2 ^ i ≤ q * 2 ^ i := Nat.mul_le_mul_right _ (Nat.mod_le ..)
    omega
  have hdiv : (x - q % 2 * 2 ^ i + b.toNat * 2 ^ i) / 2 ^ i = q - q % 2 + b.toNat := by
    rw [hval, Nat.mul_comm, Nat.mul_add_div (Nat.two_pow_pos i), Nat.div_eq_of_lt (Nat.mod_lt _ (Nat.two_pow_pos i)), Nat.add_zero]
  have hb : b.toNat % 2 = b.toNat := by cases b <;> rfl
  have hset : (setBit w i b).toNat = (x - q % 2 * 2 ^ i + b.toNat * 2 ^ i) % 2 ^ 32 := by
    simp [setBit, setFld, fld, x, q, hb]
  rw [bit, hset, Nat.testBit_mod_two_pow, Nat.testBit_eq_decide_div_mod_eq, hdiv]
  cases b <;> simp [hi] <;> omega

theorem testBit_fld (w : Word) (hi lo i : Nat) : (fld w hi lo).testBit i = (decide (i < hi + 1 - lo) && bit w (i + lo)) := by
  rw [fld, Nat.testBit_mod_two_pow, Nat.testBit_div_two_pow, bit]

/-- A bit that a mask covers takes the value stored under it. -/
theorem bit_merge (old v : Word) {m : Word} {i : Nat} (hm : bit m i = true) : bit ((old &&& ~~~m) ||| (v &&& m)) i = bit v i := by
  change m.getLsbD i = true at hm
  change BitVec.getLsbD _ i = v.getLsbD i
  simp [hm]

/-- A field that a mask covers takes the value stored under it. -/
theorem fld_merge (old v : Word) {m : Word} {hi lo : Nat} (hm : ∀ i, lo ≤ i → i ≤ hi → bit m i = true) :
    fld ((old &&& ~~~m) ||| (v &&& m)) hi lo = fld v hi lo := by
  apply Nat.eq_of_testBit_eq
  intro i
  rw [testBit_fld, testBit_fld]
  by_cases h : i < hi + 1 - lo
  · rw [bit_merge old v (hm _ (by omega) (by omega))]
  · simp [h]

/-- Storing the present value under a mask changes nothing. -/
theorem merge_self (old m : Word) : (old &&& ~~~m) ||| (old &&& m) = old := by
  ext i hi; simp; cases old[i] <;> cases m[i] <;> rfl

end Sys2Proof

end

section
/-! Register writes, rule by rule: what a refused access leaves, when a write reaches its page, and what an ordinary register stores. -/

namespace Sys2Proof.Machine
open Sys2Proof

/-! ### Raising a source of the hub, and refusing an access (R375, R436) -/

/-- What raising a source of the hub leaves in its page header. -/
def Dev.hubMark (s : Dev) (n : Nat) : Dev :=
  let s := s.wr .hub 0 0 Off.PG_FLT (setBit (s.rd .hub 0 0 Off.PG_FLT) n true)
  s.wr .hub 0 0 Off.PG_CNT (BitVec.ofNat 32 (satAdd 0xFFFFFFFF (s.rd .hub 0 0 Off.PG_CNT).toNat 1))

/-- Raising a source of the hub marks the header, and at HALT stops the hub as well. -/
theorem Dev.hubRaise_cases (s : Dev) (n : Nat) : s.hubRaise n = s.hubMark n ∨ s.hubRaise n = { s.hubMark n with hubHalt := true } :=
  (ite_eq_or_eq ..).symm

/-- What neither a register write nor the hub's halt touches, raising a source of the hub leaves alone. -/
theorem Dev.hubRaise_field {α : Type} (g : Dev → α) (hreg : ∀ (m : Dev) (k : PageKind) (ch i o : Nat) (w : Word), g (m.wr k ch i o w) = g m)
    (hhalt : ∀ m : Dev, g { m with hubHalt := true } = g m) (s : Dev) (n : Nat) : g (s.hubRaise n) = g s := by
  have hmark : g (s.hubMark n) = g s := (hreg ..).trans (hreg ..)
  rcases s.hubRaise_cases n with e | e
  · rw [e, hmark]
  · rw [e, hhalt, hmark]

theorem Dev.hubRaise_reg (s : Dev) (n a : Nat) : (s.hubRaise n).reg a = (s.hubMark n).reg a := by
  rcases s.hubRaise_cases n with e | e
  · rw [e]
  · rw [e]; rfl

/-- Raising a source of the hub sets its sticky bit. -/
theorem Dev.hubRaise_flt (s : Dev) {n : Nat} (hn : n < 32) : bit ((s.hubRaise n).rd .hub 0 0 Off.PG_FLT) n = true := by
  rw [Dev.rd, Dev.hubRaise_reg, Dev.hubMark, Dev.wr_reg_other _ (by decide)]
  exact (congrArg (bit · n) (Dev.wr_rd_same ..)).trans (bit_setBit_same _ hn true)

/-- Outside the hub's header raising a source of the hub changes no register. -/
theorem Dev.hubRaise_reg_other (s : Dev) (n : Nat) {a : Nat} (hf : a ≠ pageOff .hub 0 0 Off.PG_FLT) (hc : a ≠ pageOff .hub 0 0 Off.PG_CNT) :
    (s.hubRaise n).reg a = s.reg a := by
  rw [Dev.hubRaise_reg, Dev.hubMark, Dev.wr_reg_other _ hc, Dev.wr_reg_other _ hf]

/-- What neither a register write nor the hub's halt touches, a refused access leaves alone. -/
theorem Dev.deny_field {α : Type} (g : Dev → α) (hreg : ∀ (m : Dev) (k : PageKind) (ch i o : Nat) (w : Word), g (m.wr k ch i o w) = g m)
    (hhalt : ∀ m : Dev, g { m with hubHalt := true } = g m) (s : Dev) : g s.deny = g s :=
  (Dev.hubRaise_field g hreg hhalt ..).trans (Dev.bump_field g (fun _ _ _ _ _ _ => (hreg ..).trans (hreg ..)) ..)

@[simp] theorem Dev.deny_out (s : Dev) : s.deny.out = s.out := s.deny_field (·.out) (fun _ _ _ _ _ _ => rfl) fun _ => rfl
@[simp] theorem Dev.deny_chans (s : Dev) : s.deny.chans = s.chans := s.deny_field (·.chans) (fun _ _ _ _ _ _ => rfl) fun _ => rfl

theorem Dev.deny_flt (s : Dev) : bit (s.deny.rd .hub 0 0 Off.PG_FLT) 3 = true := Dev.hubRaise_flt _ (by decide)

/-- A 64-bit counter takes its value modulo 2^64. -/
theorem Dev.wr64_rd64 (s : Dev) (k : PageKind) (ch i o v : Nat) : (s.wr64 k ch i o v).rd64 k ch i o = v % 2 ^ 64 := by
  have hlo : (s.wr64 k ch i o v).rd k ch i o = BitVec.ofNat 32 v :=
    (Dev.wr_rd_other _ (by simp [pageOff]) _).trans (Dev.wr_rd_same ..)
  have hhi : (s.wr64 k ch i o v).rd k ch i (o + 4) = BitVec.ofNat 32 (v / 2 ^ 32) := Dev.wr_rd_same ..
  rw [Dev.rd64, hlo, hhi, BitVec.toNat_ofNat, BitVec.toNat_ofNat]
  omega

/-- A counter that is not frozen counts, modulo 2^64 (R439). -/
theorem Dev.bump_rd64 {s : Dev} {k : PageKind} {ch i : Nat} (hf : s.rdF k ch i Off.PG_CTL 0 0 = 0) (o : Nat) {n : Nat} (hn : n ≠ 0) :
    (s.bump k ch i o n).rd64 k ch i o = (s.rd64 k ch i o + n) % 2 ^ 64 := by
  rw [Dev.bump, if_neg (by simp [hn, hf]), Dev.wr64_rd64]

/-- A refused access is counted (R436). -/
theorem Dev.deny_count {s : Dev} (hf : s.rdF .hub 0 0 Off.PG_CTL 0 0 = 0) :
    s.deny.rd64 .hub 0 0 Off.HUB_DENY = (s.rd64 .hub 0 0 Off.HUB_DENY + 1) % 2 ^ 64 := by
  rw [← Dev.bump_rd64 hf Off.HUB_DENY Nat.one_ne_zero]
  simp only [Dev.rd64, Dev.rd, Dev.deny]
  rw [Dev.hubRaise_reg_other _ _ (by decide) (by decide), Dev.hubRaise_reg_other _ _ (by decide) (by decide)]

/-! ### What a write or a refused access leaves alone -/

theorem sameWork_setReg (s : State) (a : Nat) (w : Word) : SameWork s { s with m := s.m.setReg a w } := by
  constructor <;> rfl

theorem SameWork.trans {s t u : State} (h : SameWork s t) (g : SameWork t u) : SameWork s u := by
  constructor
  · exact g.pending.trans h.pending
  · exact g.mem.trans h.mem
  · exact g.t0.trans h.t0
  · exact g.cbuf.trans h.cbuf
  · exact g.rqt.trans h.rqt
  · exact g.seqs.trans h.seqs
  · exact g.ctxs.trans h.ctxs
  · exact g.mems.trans h.mems
  · exact g.tiles.trans h.tiles
  · exact g.cores.trans h.cores
  · exact g.clusters.trans h.clusters

theorem sameWork_deny (s : State) : SameWork s { s with m := s.m.deny } where
  pending := rfl
  mem := s.m.deny_field (·.mem) (fun _ _ _ _ _ _ => rfl) fun _ => rfl
  t0 := s.m.deny_field (·.t0) (fun _ _ _ _ _ _ => rfl) fun _ => rfl
  cbuf := s.m.deny_field (·.cbuf) (fun _ _ _ _ _ _ => rfl) fun _ => rfl
  rqt := s.m.deny_field (·.rqt) (fun _ _ _ _ _ _ => rfl) fun _ => rfl
  seqs := s.m.deny_field (·.seqs) (fun _ _ _ _ _ _ => rfl) fun _ => rfl
  ctxs := s.m.deny_field (·.ctxs) (fun _ _ _ _ _ _ => rfl) fun _ => rfl
  mems := s.m.deny_field (·.mems) (fun _ _ _ _ _ _ => rfl) fun _ => rfl
  tiles := s.m.deny_field (·.tiles) (fun _ _ _ _ _ _ => rfl) fun _ => rfl
  cores := s.m.deny_field (·.cores) (fun _ _ _ _ _ _ => rfl) fun _ => rfl
  clusters := s.m.deny_field (·.clusters) (fun _ _ _ _ _ _ => rfl) fun _ => rfl

theorem sameWork_emit (s : State) (o : Out) : SameWork s { s with m := s.m.emit o } := by
  constructor <;> simp

/-! ### A granted write reaches its page -/

/-- A write that the grant covers, of a word of a page that exists, is a write of the page (R435, R436, R446). -/
theorem Dev.hostWrite_granted {s : Dev} {fn : Fn} {p : Page} {o : Nat} (hfn : fn ≠ .mgt) (hv : p.valid = true) (ho : o < 0x1000) (h4 : o % 4 = 0)
    (hw : s.Writes fn p o) (v : Word) (env : WrEnv) : s.hostWrite fn (p.base + o) v env = s.pageWrite p 0 o v env := by
  obtain ⟨hon, hmay, hcx, hup⟩ : s.fnOn fn = true ∧ s.mayWrite p o fn = true ∧ (ctxPage p.kind = true → s.ctxState p.inst ≠ 2) ∧
      (p.kind.inHub = false → s.windowUp p = true ∧ (fn = .pf0 → s.fltState p.ch = 2 → p.kind = .fltCh ∨ p.kind = .pwrCh)) := by
    cases fn with
    | mgt => exact absurd rfl hfn
    | pf0 => exact hw
    | vf n => exact hw
  have hal : (p.base + o) % 4 = 0 := (p.base_add_mod_four o).trans h4
  have hopen : (ctxPage p.kind && decide (s.ctxState p.inst = 2)) = false := by
    cases h : ctxPage p.kind
    · rfl
    · simp [hcx h]
  simp only [Dev.hostWrite, hon, rqtOfAddr_base_add hv ho, Page.ofAddr_base_add hv ho, p.base_add_mod ho, hmay, hopen, hal]
  cases hh : p.kind.inHub
  · obtain ⟨hwin, hhalt⟩ := hup hh
    simp only [hwin]
    by_cases hf : fn = .pf0 ∧ s.fltState p.ch = 2
    · rcases hhalt hf.1 hf.2 with hk | hk <;> simp [hk]
    · simp [hf]
  · simp

theorem Dev.mgtWrite_granted {s : Dev} {p : Page} {o : Nat} (hv : p.valid = true) (ho : o < 0x1000) (h4 : o % 4 = 0)
    (hw : s.Writes .mgt p o) (rdr : Nat) (v : Word) (env : WrEnv) : s.mgtWrite rdr (p.base + o) v env = s.pageWrite p rdr o v env := by
  obtain ⟨hmay, hup⟩ : s.mayWrite p o .mgt = true ∧ s.mgtUp p = true := hw
  simp [Dev.mgtWrite, Page.ofAddr_base_add hv ho, p.base_add_mod ho, p.base_add_mod_four, h4, hmay, hup]

/-- The reader of the event recorder that a function's register write stands for: the host 0, management 1. -/
def writeReader (fn : Fn) : Nat := if fn = .mgt then 1 else 0

/-- A register write that is granted and reaches its page is a write of that page. -/
theorem Dev.writeWord_granted {s : Dev} {fn : Fn} {p : Page} {o : Nat} (hv : p.valid = true) (ho : o < 0x1000) (h4 : o % 4 = 0)
    (hw : s.Writes fn p o) (v : Word) (env : WrEnv) : s.writeWord fn (p.base + o) v env = s.pageWrite p (writeReader fn) o v env := by
  cases fn with
  | mgt => exact Dev.mgtWrite_granted hv ho h4 hw 1 v env
  | pf0 => exact Dev.hostWrite_granted (by decide) hv ho h4 hw v env
  | vf n => exact Dev.hostWrite_granted (by simp) hv ho h4 hw v env

/-! ### Ordinary registers -/

/-- What an ordinary register holds after a write of `v`: the bits that its row admits take the value, those written 1 to clear are
cleared, the rest stays (R4, R5). -/
def storedWord (p : Page) (row : RegRow) (o : Nat) (old v : Word) : Word :=
  (old &&& ~~~row.rw &&& ~~~(v &&& row.w1c)) ||| (normWord p.kind p.inst o old v &&& row.rw)

/-- Where no bit is written 1 to clear, a register takes the value under its mask. -/
theorem storedWord_of_no_clear {row : RegRow} (h : row.w1c = 0) (p : Page) (o : Nat) (old v : Word) :
    storedWord p row o old v = (old &&& ~~~row.rw) ||| (normWord p.kind p.inst o old v &&& row.rw) := by
  have hkeep : ~~~(v &&& 0) = BitVec.allOnes 32 := by simp
  rw [storedWord, h, hkeep, BitVec.and_allOnes]

theorem Dev.plainWrite_of_row {p : Page} {o : Nat} {row : RegRow} (hr : p.kind.row o = some row) (s : Dev) (v : Word) :
    s.plainWrite p o v = s.setReg (p.base + o) (storedWord p row o (s.reg (p.base + o)) v) := by
  rw [Dev.plainWrite, hr]; rfl

/-- Nothing starts on a page whose every word is an ordinary register. -/
theorem Dev.pageWrite_ordinary {p : Page} (hk : p.kind ∈ ordinaryPages) {o : Nat} (ho : 0x100 ≤ o) (s : Dev) (rdr : Nat) (v : Word) (env : WrEnv) :
    s.pageWrite p rdr o v env = s.plainWrite p o v := by
  obtain ⟨k, ch, i⟩ := p
  rw [Dev.pageWrite, if_neg (by omega)]
  change k ∈ ordinaryPages at hk
  fin_cases hk <;> rfl

/-- A granted write of an ordinary register sets its word, and nothing else. -/
theorem Dev.writeWord_ordinary {s : Dev} {fn : Fn} {p : Page} {o : Nat} {row : RegRow} (hv : p.valid = true) (hk : p.kind ∈ ordinaryPages)
    (hlo : 0x100 ≤ o) (ho : o < 0x1000) (h4 : o % 4 = 0) (hr : p.kind.row o = some row) (hw : s.Writes fn p o) (v : Word) (env : WrEnv) :
    s.writeWord fn (p.base + o) v env = s.setReg (p.base + o) (storedWord p row o (s.reg (p.base + o)) v) := by
  rw [Dev.writeWord_granted hv ho h4 hw, Dev.pageWrite_ordinary hk hlo, Dev.plainWrite_of_row hr]

/-- A page of ordinary registers stands in a channel's window. -/
theorem ordinary_bounds {p : Page} (hv : p.valid = true) (hk : p.kind ∈ ordinaryPages) : p.ch < 8 ∧ p.inst < 64 := by
  obtain ⟨k, ch, i⟩ := p
  change k ∈ ordinaryPages at hk
  fin_cases hk <;> simp [Page.valid] at hv ⊢ <;> omega

/-- A register write does not reach the words of another page. -/
theorem Dev.setReg_rd_page {p : Page} (hv : p.valid = true) {o : Nat} (ho : o < 0x1000) {k : PageKind} {ch i r : Nat}
    (hq : Page.valid ⟨k, ch, i⟩ = true) (hr : r < 0x1000) (hne : p.kind ≠ k) (s : Dev) (w : Word) :
    (s.setReg (p.base + o) w).rd k ch i r = s.rd k ch i r := by
  refine s.setReg_reg_other (fun h => ?_) w
  obtain ⟨hp, -⟩ := Page.base_add_inj hq hv hr ho h
  exact hne (by rw [← hp])

/-- A write of an ordinary register changes no grant: what decides whether a write reaches its page stands on other pages. -/
theorem Dev.Writes.setReg_ordinary {s : Dev} {fn : Fn} {p : Page} {r : Nat} (h : s.Writes fn p r) (hv : p.valid = true) (hk : p.kind ∈ ordinaryPages)
    {o : Nat} (ho : o < 0x1000) (w : Word) : (s.setReg (p.base + o) w).Writes fn p r := by
  obtain ⟨hch, hinst⟩ := ordinary_bounds hv hk
  have hne : ∀ k, k ∉ ordinaryPages → p.kind ≠ k := fun k hn e => hn (e ▸ hk)
  have hmod : (s.setReg (p.base + o) w).rd .pwrMod 0 0 Off.PWR_MOD_STA = s.rd .pwrMod 0 0 Off.PWR_MOD_STA :=
    Dev.setReg_rd_page hv ho (by decide) (by decide) (hne _ (by decide)) s w
  have hcx : (s.setReg (p.base + o) w).rd .hubCx 0 p.inst Off.HUB_CX_STA = s.rd .hubCx 0 p.inst Off.HUB_CX_STA :=
    Dev.setReg_rd_page hv ho (by simp [Page.valid, hinst]) (by decide) (hne _ (by decide)) s w
  have hpwr : (s.setReg (p.base + o) w).rd .pwrCh p.ch 0 Off.PWR_CH_STA = s.rd .pwrCh p.ch 0 Off.PWR_CH_STA :=
    Dev.setReg_rd_page hv ho (by simp [Page.valid, hch]) (by decide) (hne _ (by decide)) s w
  have hflt : (s.setReg (p.base + o) w).rd .fltCh p.ch 0 Off.FLT_STA = s.rd .fltCh p.ch 0 Off.FLT_STA :=
    Dev.setReg_rd_page hv ho (by simp [Page.valid, hch]) (by decide) (hne _ (by decide)) s w
  have hfail : (s.setReg (p.base + o) w).hubFail = s.hubFail := congrArg (fun w => decide (fld w 3 3 = 1)) hmod
  have hon : (s.setReg (p.base + o) w).fnOn fn = s.fnOn fn := rfl
  have hctx : (s.setReg (p.base + o) w).ctxState p.inst = s.ctxState p.inst := congrArg (fld · 1 0) hcx
  have hstate : (s.setReg (p.base + o) w).fltState p.ch = s.fltState p.ch := congrArg (fld · 1 0) hflt
  have hc : (s.setReg (p.base + o) w).cstate p.ch = s.cstate p.ch := congrArg (fld · 1 0) hpwr
  have hmay : (s.setReg (p.base + o) w).mayWrite p r fn = s.mayWrite p r fn := by cases fn <;> simp only [Dev.mayWrite, hfail]
  have hwin : (s.setReg (p.base + o) w).windowUp p = s.windowUp p := by rw [Dev.windowUp, Dev.chClosed, hc]; rfl
  have hmgt : (s.setReg (p.base + o) w).mgtUp p = s.mgtUp p := by rw [Dev.mgtUp, hc]; rfl
  cases fn with
  | mgt => simpa only [Dev.Writes, hmay, hmgt] using h
  | pf0 => simpa only [Dev.Writes, hon, hmay, hctx, hwin, hstate] using h
  | vf n => simpa only [Dev.Writes, hon, hmay, hctx, hwin, hstate] using h

end Sys2Proof.Machine

end

section
/-! How a write of each size reaches its register or its request table entry, and what an aperture stores. -/

namespace Sys2Proof.Machine
open Sys2Proof

/-! ### The sizes of a write (R435) -/

theorem exec_registerWrite (fn : Fn) (a : Nat) (size : Fin 4) (v : Word64) (s : State) :
    exec (.registerWrite fn a size v) s = s.done (s.m.sizedWrite fn a (2 ^ size.val) v.toNat) := rfl
theorem exec_rqtEntryFieldWrite (fn : Fn) (r : SeqRef) (o : Fin 128) (bs : List Byte) (s : State) :
    exec (.rqtEntryFieldWrite fn r o bs) s = s.done (s.m.rqtWrite fn r.ch.val r.e.val o.val bs) := rfl
theorem exec_hubApWrite (fn : Fn) (i : Fin 16) (v : Word) (s : State) :
    exec (.hubApWrite fn i v) s = s.done (s.m.put fn (pageOff .hub 0 0 (Off.HUB_AP + 4 * i.val)) v) := rfl
theorem exec_accessDeny (fn : Fn) (a : Nat) (write : Bool) (s : State) :
    exec (.accessDeny fn a write) s = s.done (s.m.denied fn a write) := rfl

theorem Dev.sizedWrite_word (s : Dev) (fn : Fn) (a : Nat) (v : Word) : s.sizedWrite fn a 4 v.toNat = s.writeWord fn a v WrEnv.none := by
  rw [Dev.sizedWrite, if_pos rfl, BitVec.ofNat_toNat, BitVec.setWidth_eq]

/-- An aligned 64-bit write is one of the low word, then one of the high word. -/
theorem Dev.sizedWrite_pair (s : Dev) (fn : Fn) {a : Nat} (ha : a % 8 = 0) (hi lo : Word) :
    s.sizedWrite fn a 8 (hi ++ lo).toNat = (s.writeWord fn a lo WrEnv.none).writeWord fn (a + 4) hi WrEnv.none := by
  have happ : (hi ++ lo).toNat = hi.toNat * 2 ^ 32 + lo.toNat := by
    rw [BitVec.toNat_append, Nat.shiftLeft_eq, Nat.mul_comm, ← Nat.two_pow_add_eq_or_of_lt lo.isLt]
  have hhi : (hi ++ lo).toNat / 2 ^ 32 = hi.toNat := by have := lo.isLt; omega
  have hlo : BitVec.ofNat 32 (hi ++ lo).toNat = lo := by
    apply BitVec.eq_of_toNat_eq
    rw [BitVec.toNat_ofNat, happ]
    have := lo.isLt
    omega
  rw [Dev.sizedWrite, if_neg (by decide), if_pos ⟨rfl, ha⟩, hhi, hlo, BitVec.ofNat_toNat, BitVec.setWidth_eq]

/-- A page takes no narrower write: it is discarded and counted. -/
theorem Dev.sizedWrite_narrow_page {s : Dev} {fn : Fn} {a n : Nat} (hn : n < 4) (hfn : fn ≠ .mgt) (hon : s.fnOn fn = true)
    (hr : rqtOfAddr a = none) (hg : s.refuses fn a true = false) (v : Nat) : s.sizedWrite fn a n v = s.bump .hub 0 0 Off.HUB_BADSZ 1 := by
  rw [Dev.sizedWrite, if_neg (by omega), if_neg (by omega)]
  simp [hr, hfn, hon, hg]

/-- A request table window takes a write of up to four bytes, at its own alignment. -/
theorem Dev.sizedWrite_entry {s : Dev} {fn : Fn} {a n ch e o : Nat} (hn : n ≤ 4) (hfn : fn ≠ .mgt) (hon : s.fnOn fn = true) (ha : a % n = 0)
    (hr : rqtOfAddr a = some (ch, e, o)) (v : Word) : s.sizedWrite fn a n v.toNat = s.rqtWrite fn ch e o (toBytes n v.toNat) := by
  obtain rfl | hlt := Nat.eq_or_lt_of_le hn
  · have hword : s.writeWord fn a v WrEnv.none = s.hostWrite fn a v WrEnv.none := by
      cases fn with
      | mgt => exact absurd rfl hfn
      | pf0 => rfl
      | vf k => rfl
    rw [Dev.sizedWrite_word, hword]
    simp [Dev.hostWrite, hon, hr, ha]
  · rw [Dev.sizedWrite, if_neg (by omega), if_neg (by omega)]
    simp [hr, hfn, ha]

/-! ### The apertures of BAR2 (R444) -/

theorem row_hubAp (i : Fin 16) : PageKind.row .hub (Off.HUB_AP + 4 * i.val) = some ⟨0x140, 16, 0, 0xFFF, 0, false⟩ := by
  revert i; decide

/-- The aperture's register keeps its value where BASE lies beyond the tier, and takes what is written else. -/
theorem normWord_hubAp (i : Fin 16) (old v : Word) : normWord .hub 0 (Off.HUB_AP + 4 * i.val) old v =
    if (!bit v 10 ∨ Config.isL2) ∧ 63 < fld v 6 0 then old else v := by
  have hlt : Off.HUB_AP + 4 * i.val < Off.HUB_AP + 64 := by omega
  simp only [normWord, hlt, Nat.le_add_right, true_and]

/-- A granted write of an aperture stores its twelve bits. -/
theorem Dev.put_hubAp {s : Dev} {fn : Fn} {i : Fin 16} (hw : s.Writes fn ⟨.hub, 0, 0⟩ (Off.HUB_AP + 4 * i.val)) (v : Word) :
    let o := Off.HUB_AP + 4 * i.val
    let old := s.rd .hub 0 0 o
    s.put fn (pageOff .hub 0 0 o) v = s.wr .hub 0 0 o ((old &&& ~~~0xFFF#32) ||| (normWord .hub 0 o old v &&& 0xFFF#32)) := by
  intro o old
  have ho : o = 0x140 + 4 * i.val := rfl
  have hbody : s.pageWrite ⟨.hub, 0, 0⟩ (writeReader fn) o v WrEnv.none = s.plainWrite ⟨.hub, 0, 0⟩ o v := by
    rw [Dev.pageWrite, if_neg (by omega)]; rfl
  have hstored : storedWord ⟨.hub, 0, 0⟩ ⟨0x140, 16, 0, 0xFFF, 0, false⟩ o old v =
      (old &&& ~~~0xFFF#32) ||| (normWord .hub 0 o old v &&& 0xFFF#32) := storedWord_of_no_clear rfl ..
  rw [Dev.put, pageOff, Dev.writeWord_granted rfl (by omega) (by omega) hw, hbody, Dev.plainWrite_of_row (row_hubAp i), ← hstored]
  rfl

end Sys2Proof.Machine

end

section
/-! Register writes, and accesses outside a grant (O23). -/

namespace Sys2Proof.Machine
open Sys2Proof

/-- A granted 32-bit write of an ordinary register. -/
theorem answers_word_write {s : State} (hs : s.m.Settled) {fn : Fn} {p : Page} {o : Nat} {row : RegRow} (hv : p.valid = true) (hk : p.kind ∈ ordinaryPages)
    (hw : s.m.Writes fn p o) (hlo : 0x100 ≤ o) (ho : o < 0x1000) (h4 : o % 4 = 0) (hr : p.kind.row o = some row) (v : Word) :
    Answers (.registerWrite fn (p.base + o) 2 (v.setWidth 64)) s fun r => SameWork s r ∧
      r.m.reg (p.base + o) = storedWord p row o (s.m.reg (p.base + o)) v ∧ SameRegs s r (· = p.base + o) ∧ r.m.out = s.m.out := by
  have hm : s.m.sizedWrite fn (p.base + o) (2 ^ 2) (v.setWidth 64).toNat =
      s.m.setReg (p.base + o) (storedWord p row o (s.m.reg (p.base + o)) v) := by
    rw [BitVec.toNat_setWidth_of_le (by decide)]
    exact (Dev.sizedWrite_word ..).trans (Dev.writeWord_ordinary hv hk hlo ho h4 hr hw v _)
  refine ⟨_, (congrArg s.done hm).trans (s.done_of_settled (hs.of_chans rfl)), sameWork_setReg .., Dev.setReg_reg_same .., ?_, rfl⟩
  exact fun a ha => Dev.setReg_reg_other _ ha _

/-- A granted 64-bit write of two ordinary registers. -/
theorem answers_pair_write {s : State} (hs : s.m.Settled) {fn : Fn} {p : Page} {o : Nat} {row row' : RegRow} (hv : p.valid = true)
    (hk : p.kind ∈ ordinaryPages) (hw : s.m.Writes fn p o) (hw' : s.m.Writes fn p (o + 4)) (hlo : 0x100 ≤ o) (ho : o + 4 < 0x1000) (h8 : o % 8 = 0)
    (hr : p.kind.row o = some row) (hr' : p.kind.row (o + 4) = some row') (v v' : Word) :
    Answers (.registerWrite fn (p.base + o) 3 (v' ++ v)) s fun r => SameWork s r ∧
      r.m.reg (p.base + o) = storedWord p row o (s.m.reg (p.base + o)) v ∧
      r.m.reg (p.base + o + 4) = storedWord p row' (o + 4) (s.m.reg (p.base + o + 4)) v' ∧
      SameRegs s r fun a => a = p.base + o ∨ a = p.base + o + 4 := by
  set w := storedWord p row o (s.m.reg (p.base + o)) v
  set w' := storedWord p row' (o + 4) (s.m.reg (p.base + o + 4)) v'
  have hm : s.m.sizedWrite fn (p.base + o) (2 ^ 3) (v' ++ v).toNat = (s.m.setReg (p.base + o) w).setReg (p.base + o + 4) w' := by
    refine (Dev.sizedWrite_pair _ _ ((p.base_add_mod_eight o).trans h8) ..).trans ?_
    rw [Dev.writeWord_ordinary hv hk hlo (by omega) (by omega) hr hw, Nat.add_assoc,
      Dev.writeWord_ordinary hv hk (by omega) ho (by omega) hr' (hw'.setReg_ordinary hv hk (by omega) _), Dev.setReg_reg_other _ (by omega)]
    rfl
  refine ⟨_, (congrArg s.done hm).trans (s.done_of_settled (hs.of_chans rfl)), ?_, ?_, Dev.setReg_reg_same .., ?_⟩
  · exact (sameWork_setReg s _ w).trans (sameWork_setReg _ _ w')
  · exact (Dev.setReg_reg_other _ (by omega) _).trans (Dev.setReg_reg_same ..)
  · intro a ha
    obtain ⟨hlow, hhigh⟩ := not_or.1 ha
    exact (Dev.setReg_reg_other _ hhigh _).trans (Dev.setReg_reg_other _ hlow _)

/-- A write narrower than a word of a page is discarded and counted. -/
theorem gives_narrow_write {s : State} (hs : s.m.Settled) {fn : Fn} {p : Page} {o : Nat} {size : Fin 4} (hv : p.valid = true) (hfn : fn ≠ .mgt)
    (hon : s.m.fnOn fn = true) (hg : s.m.refuses fn (p.base + o) true = false) (ho : o < 0x1000) (hsz : size.val < 2) (v : Word64) :
    Gives (.registerWrite fn (p.base + o) size v) s (s.m.bump .hub 0 0 Off.HUB_BADSZ 1) := by
  have hn : 2 ^ size.val < 4 := Nat.pow_lt_pow_right (by decide) hsz
  rw [Gives, exec_registerWrite, Dev.sizedWrite_narrow_page hn hfn hon (rqtOfAddr_base_add hv ho) hg,
    s.done_of_settled (hs.of_chans (Dev.bump_chans ..))]

/-- A write into a request table window is one of the entry's field. -/
theorem exec_entry_write {s : State} {fn : Fn} {r : SeqRef} {o : Fin 128} {size : Fin 4} (hsz : size.val < 3) (hal : o.val % 2 ^ size.val = 0)
    (ht : s.m.TableOn fn r) (v : Word) :
    exec (.registerWrite fn (chanWin r.ch.val + 0x20000 + 128 * r.e.val + o.val) size (v.setWidth 64)) s =
      exec (.rqtEntryFieldWrite fn r o (toBytes (2 ^ size.val) v.toNat)) s := by
  obtain ⟨hfn, hon, -⟩ := ht
  have hn : 2 ^ size.val ≤ 4 := Nat.pow_le_pow_right (by decide) (Nat.le_of_lt_succ hsz)
  have ha : (chanWin r.ch.val + 0x20000 + 128 * r.e.val + o.val) % 2 ^ size.val = 0 := by
    have h128 : 2 ^ size.val ∣ 128 := Nat.pow_dvd_pow 2 (by omega : size.val ≤ 7)
    have hw : (128 : Nat) ∣ chanWin r.ch.val + 0x20000 + 128 * r.e.val := by simp only [chanWin]; omega
    exact Nat.mod_eq_zero_of_dvd ((Nat.dvd_add_right (h128.trans hw)).2 (Nat.dvd_of_mod_eq_zero hal))
  rw [exec_registerWrite, exec_rqtEntryFieldWrite, BitVec.toNat_setWidth_of_le (by decide),
    Dev.sizedWrite_entry hn hfn hon ha (rqtOfAddr_entry r.ch.isLt r.e.isLt o.isLt)]

/-- A granted write of an aperture. -/
theorem answers_hubApWrite {s : State} (hs : s.m.Settled) {fn : Fn} {i : Fin 16} (hw : s.m.Writes fn ⟨.hub, 0, 0⟩ (Off.HUB_AP + 4 * i.val)) (v : Word) :
    Answers (.hubApWrite fn i v) s fun r => SameWork s r ∧
      (fld v 6 0 ≤ 63 → r.m.rdF .hub 0 0 (Off.HUB_AP + 4 * i.val) 11 0 = fld v 11 0) ∧
      (63 < fld v 6 0 → bit v 10 = false → r.m.rd .hub 0 0 (Off.HUB_AP + 4 * i.val) = s.m.rd .hub 0 0 (Off.HUB_AP + 4 * i.val)) ∧
      SameRegs s r (· = pageOff .hub 0 0 (Off.HUB_AP + 4 * i.val)) := by
  have hmask : ∀ b, 0 ≤ b → b ≤ 11 → bit 0xFFF#32 b = true := by decide
  refine ⟨_, (congrArg s.done (Dev.put_hubAp hw v)).trans (s.done_of_settled (hs.of_chans rfl)), sameWork_setReg .., ?_, ?_, ?_⟩
  · intro hb
    rw [Dev.rdF, Dev.wr_rd_same, normWord_hubAp, if_neg (by omega), fld_merge _ _ hmask]
  · intro hb ht
    rw [Dev.wr_rd_same, normWord_hubAp, if_pos ⟨.inl (by simp [ht]), hb⟩, merge_self]
  · exact fun a ha => Dev.wr_reg_other _ ha _

/-- A refused write is counted, and raises ACCESS_DENY (R436). -/
theorem answers_denied_write {s : State} (hs : s.m.Settled) {fn : Fn} {a : Nat} (hfn : fn ≠ .mgt) (hon : s.m.fnOn fn = true)
    (hr : s.m.refuses fn a true = true) :
    Answers (.accessDeny fn a true) s fun r => SameWork s r ∧ r.m.out = s.m.out ∧ bit (r.m.rd .hub 0 0 Off.PG_FLT) 3 = true ∧
      (s.m.rdF .hub 0 0 Off.PG_CTL 0 0 = 0 → r.m.rd64 .hub 0 0 Off.HUB_DENY = (s.m.rd64 .hub 0 0 Off.HUB_DENY + 1) % 2 ^ 64) := by
  have hm : s.m.denied fn a true = s.m.deny := by simp [Dev.denied, hfn, hon, hr]
  refine ⟨_, (congrArg s.done hm).trans (s.done_of_settled (hs.of_chans (Dev.deny_chans _))), sameWork_deny s, Dev.deny_out _, Dev.deny_flt _, ?_⟩
  exact Dev.deny_count

/-- A refused read is counted, raises ACCESS_DENY, and gives 0 (R436). -/
theorem answers_denied_read {s : State} (hs : s.m.Settled) {fn : Fn} {a : Nat} (hfn : fn ≠ .mgt) (hon : s.m.fnOn fn = true)
    (hr : s.m.refuses fn a false = true) :
    Answers (.accessDeny fn a false) s fun r => SameWork s r ∧ r.m.out = s.m.out ++ [.readData (fnIx fn) a (toBytes 4 0)] ∧
      bit (r.m.rd .hub 0 0 Off.PG_FLT) 3 = true := by
  have hm : s.m.denied fn a false = s.m.deny.emit (.readData (fnIx fn) a (toBytes 4 0)) := by simp [Dev.denied, hfn, hon, hr]
  have hout : (s.m.deny.emit (.readData (fnIx fn) a (toBytes 4 0))).out = s.m.out ++ [.readData (fnIx fn) a (toBytes 4 0)] :=
    congrArg (· ++ [Out.readData (fnIx fn) a (toBytes 4 0)]) (Dev.deny_out s.m)
  refine ⟨_, (congrArg s.done hm).trans (s.done_of_settled (hs.of_chans ?_)), (sameWork_deny s).trans (sameWork_emit _ _), hout, ?_⟩
  · simp
  · simpa using s.m.deny_flt

/-- Settles O23: each clause from what the access does, by the place of its word in the address map. -/
theorem registersAreWritten : Obligations.RegistersAreWritten := by
  unfold Obligations.RegistersAreWritten
  refine ⟨fun s fn v hs => ⟨?_, ?_, ?_, ?_⟩, fun s fn a hs hfn hon => ⟨?_, ?_⟩⟩
  · intro p o row hv hk hw hlo ho h4 hr
    exact ⟨answers_word_write hs hv hk hw hlo ho h4 hr v,
      fun row' v' hw' h8 ho' hr' => answers_pair_write hs hv hk hw hw' hlo ho' h8 hr hr' v v'⟩
  · exact fun p o size hv _ hfn hon hg ho hsz => gives_narrow_write hs hv hfn hon hg ho hsz _
  · exact fun r o size hsz hal ht => exec_entry_write hsz hal ht v
  · exact fun i hw => answers_hubApWrite hs hw v
  · exact answers_denied_write hs hfn hon
  · exact answers_denied_read hs hfn hon

end Sys2Proof.Machine

end

section
/-! The plank boundary of a module in M2, and a page it lends to itself (O43). -/

namespace Sys2Proof.Machine

/-- A PRESENT page whose one frame lies in T3, lent by channel 1 of the module. -/
def lentPage : PageSt where
  state := .present
  fmt := 4
  isGlobal := true
  tent := false
  isState := false
  fill := 0
  frames := [⟨3, 1, 0⟩]
  move := none
  dropping := false
  cur := 0
  curIx := 0

/-- A module in M2 with its own time: every channel is NORMAL in C2, no context is created, and the sequence of entry 0 of channel 0 has
kept a page that channel 1 lends. -/
def lentInM2 : Dev :=
  { (List.range 8).foldl (fun m ch => m.wr .pwrCh ch 0 Off.PWR_CH_STA 2) Dev.reset with
    vin := true
    seqs := [(0, { Seq.fresh with pages := [(0, lentPage)] })] }

theorem lentInM2_settled : lentInM2.Settled := by unfold Dev.Settled; decide +kernel

theorem lentInM2_sleeps : ∀ ch, ch < 8 → lentInM2.cstate ch = 2 ∧ lentInM2.fltState ch = 0 := by decide +kernel

theorem lentInM2_keeps_own_time : lentInM2.timeMode = 0 ∧ lentInM2.ftime.skew = 0 ∧ lentInM2.ftime.slew = 0 ∧ lentInM2.ftime.change = none := by
  decide +kernel

/-- The boundary finds the peer out of reach and makes the page ABSENT (R196). -/
theorem boundary_loses_lentPage :
    ((lentInM2.boundary BoundaryEnv.none).settle.seq 0).pages.map (fun e => e.2.state) = [.absent] := by decide +kernel

theorem lentInM2_page : (lentInM2.seq 0).pages.map (fun e => e.2.state) = [.present] := by decide +kernel

/-- Refutes O43: a module in M2 need not keep its sequences over a boundary. The lender of a page in T3 cannot be reached in C2, so the
boundary makes the page ABSENT (R196), though every hypothesis of the clause holds. -/
theorem not_planksAdvance : ¬ Obligations.PlanksAdvance := by
  unfold Obligations.PlanksAdvance
  intro h
  obtain ⟨hmode, hskew, hslew, hchange⟩ := lentInM2_keeps_own_time
  obtain ⟨-, -, hm2⟩ := h.1 ⟨[], lentInM2⟩ BoundaryEnv.none
  obtain ⟨t, ht, -, -, -, -, -, -, hseqs, -⟩ := hm2 lentInM2_settled rfl lentInM2_sleeps rfl hmode hskew hslew hchange
  obtain rfl : ⟨[], (lentInM2.boundary BoundaryEnv.none).settle⟩ = t := Host.Outcome.next.inj ht
  have hpage := boundary_loses_lentPage
  rw [Dev.seq, hseqs] at hpage
  exact absurd (hpage.symm.trans lentInM2_page) (by decide)

end Sys2Proof.Machine

end

section
/-! What settling a command does to memory: it stays, unless a sequence that waited for a broken object has ended. -/

namespace Sys2Proof.Machine

/-- No entry has a status word due. -/
def Dev.Unsaid (m : Dev) : Prop := ∀ r, (m.seq r).swDue = false

/-- From `s` to `t` memory stays, unless a status word has come to be due. -/
structure Dev.Spares (s t : Dev) : Prop where
  unsaid : t.Unsaid → s.Unsaid
  mem : t.Unsaid → t.mem = s.mem

namespace Dev.Spares
variable {s t u : Dev}

theorem refl (s : Dev) : s.Spares s := ⟨id, fun _ => rfl⟩

theorem trans (h : s.Spares t) (g : t.Spares u) : s.Spares u :=
  ⟨fun hu => h.unsaid (g.unsaid hu), fun hu => (g.mem hu).trans (h.mem (g.unsaid hu))⟩

theorem same (h : s.Spares t) (hmem : u.mem = t.mem) (hseqs : u.seqs = t.seqs) : s.Spares u :=
  h.trans ⟨fun hu r => by simpa only [Dev.seq, hseqs] using hu r, fun _ => hmem⟩

theorem foldl {α : Type} {f : Dev → α → Dev} (h : s.Spares t) (hf : ∀ (u : Dev) a, u.Spares (f u a)) (l : List α) : s.Spares (l.foldl f t) := by
  induction l generalizing t with
  | nil => exact h
  | cons a l ih => exact ih (h.trans (hf t a))

theorem branch {c : Prop} [Decidable c] (ht : s.Spares t) (hu : s.Spares u) : s.Spares (if c then t else u) := by
  split
  · exact ht
  · exact hu

/-! ### Single updates -/

theorem modChan (h : s.Spares t) (ch : Nat) (f : Chan → Chan) : s.Spares (t.modChan ch f) := h.same rfl rfl

theorem modPort (h : s.Spares t) (ch p : Nat) (f : Port → Port) : s.Spares (t.modPort ch p f) := h.same rfl rfl

theorem bump (h : s.Spares t) (k : PageKind) (ch i o n : Nat) : s.Spares (t.bump k ch i o n) :=
  h.same (Dev.bump_mem ..) (Dev.bump_seqs ..)

theorem modMgt (h : s.Spares t) (tgt : Nat) (f : Mgt → Mgt) : s.Spares (t.modMgt tgt f) := h.same rfl rfl

theorem setEnt (h : s.Spares t) (r o n v : Nat) : s.Spares (t.setEnt r o n v) := h.same rfl rfl

theorem emit (h : s.Spares t) (o : Out) : s.Spares (t.emit o) := h.same (Dev.emit_mem ..) (Dev.emit_seqs ..)

/-- An update of a sequence that leaves its status word as due as it was. -/
theorem modSeq (h : s.Spares t) {r : Nat} {f : Seq → Seq} (hf : ∀ q, (f q).swDue = q.swDue) : s.Spares (t.modSeq r f) := by
  refine h.trans ⟨fun hu j => ?_, fun _ => rfl⟩
  have hj := hu j
  by_cases hjr : j = r
  · subst hjr; simpa [hf] using hj
  · simpa [Dev.modSeq_other t hjr] using hj

theorem freeFrames (h : s.Spares t) (fs : List Frame) : s.Spares (t.freeFrames fs) := by
  refine h.foldl (fun u f => ?_) fs
  unfold Dev.freeFrame
  split <;> exact (refl u).same rfl rfl

/-! ### Sequences that a broken object ends (R203, R330, R391) -/

theorem freeBeyond (h : s.Spares t) (r len : Nat) (count : Bool) : s.Spares (t.freeBeyond r len count) := by
  unfold Dev.freeBeyond
  split
  · exact h
  · dsimp only
    split
    · refine .bump (.modSeq (h.freeFrames _) fun _ => ?_) ..
      rfl
    · exact .modSeq (h.freeFrames _) fun _ => rfl

theorem dropStep (h : s.Spares t) (r : Nat) : s.Spares (t.dropStep r) := by
  unfold Dev.dropStep
  split
  · exact h
  · dsimp only
    split
    · exact .modSeq (h.freeFrames _) fun _ => rfl
    · refine .setEnt (.freeBeyond (.modSeq (h.freeFrames _) fun _ => ?_) ..) ..
      rfl

theorem absentAll (h : s.Spares t) (r : Nat) : s.Spares (t.absentAll r) := by
  unfold Dev.absentAll
  exact .modSeq (h.freeFrames _) fun _ => rfl

theorem abandon (h : s.Spares t) (r : Nat) : s.Spares (t.abandon r) :=
  (h.dropStep r).trans (.branch ((refl _).absentAll r) (refl _))

end Dev.Spares

/-- An ending changes nothing, or ends with a status word that is due. -/
theorem Dev.endSeq_cases (s : Dev) (r why code : Nat) (onTok : Bool) :
    s.endSeq r why code onTok = s ∨ ∃ t irq, s.endSeq r why code onTok = Dev.note t r irq :=
  (ite_eq_or_eq _ _ _).imp_right fun h => ⟨_, _, h⟩

theorem Dev.note_not_unsaid (s : Dev) (r : Nat) (irq : Bool) : ¬ (s.note r irq).Unsaid := fun h => by
  simpa [Dev.note] using h r

namespace Dev.Spares
variable {s t : Dev}

theorem endSeq (h : s.Spares t) (r why code : Nat) (onTok : Bool) : s.Spares (t.endSeq r why code onTok) := by
  obtain he | ⟨u, irq, he⟩ := t.endSeq_cases r why code onTok
  · rwa [he]
  · have hdue := u.note_not_unsaid r irq
    rw [he]
    exact ⟨fun hu => absurd hu hdue, fun hu => absurd hu hdue⟩

theorem failSeq (h : s.Spares t) (r code : Nat) : s.Spares (t.failSeq r code) := by
  unfold Dev.failSeq
  exact .endSeq (.branch (.bump (.bump h ..) ..) h) ..

theorem stepFail (h : s.Spares t) (r code : Nat) : s.Spares (t.stepFail r code) := by
  unfold Dev.stepFail
  split
  · exact h
  · dsimp only
    split
    · refine .failSeq (.modSeq (h.abandon r) fun _ => ?_) ..
      rfl
    · exact .modSeq (h.abandon r) fun _ => rfl

theorem failWait (h : s.Spares t) (code : Nat) (w : SyWait) : s.Spares (t.failWait code w) := by
  unfold Dev.failWait
  split
  · exact h
  · exact .branch h (.branch (h.stepFail ..) (.failSeq (h.abandon _) ..))

theorem breakObj (h : s.Spares t) (ch o code : Nat) : s.Spares (t.breakObj ch o code) := by
  unfold Dev.breakObj
  have hcount : s.Spares ((t.modObj ch o fun x => { x with state := 2, code := code, waits := [] }).syBump ch Off.SYN_BROKEN 1) :=
    .bump (h.modChan ..) ..
  exact .foldl (.branch (hcount.bump ..) hcount) (fun u w => (refl u).failWait code w) _

/-! ### What leaves a channel (R350, R362, R384, R393) -/

theorem pump (n ch p : Nat) : ∀ {t : Dev}, s.Spares t → s.Spares (t.pump ch p n) := by
  induction n with
  | zero => exact id
  | succ n ih => exact fun h => .branch h (ih (.foldl (.bump (.modChan h ..) ..) (fun u _ => (refl u).emit _) _))

theorem queueMsg (h : s.Spares t) (ch p : Nat) (st : Option Nat) (m : FabMsg) : s.Spares (t.queueMsg ch p st m) :=
  pump 128 ch p (h.modPort ..)

theorem send (h : s.Spares t) (ch node dstCh : Nat) (m : FabMsg) : s.Spares (t.send ch node dstCh m) := by
  unfold Dev.send Dev.sendTo
  split
  · exact h
  · dsimp only
    split
    · exact h
    · exact h.queueMsg ..

theorem collBreak (h : s.Spares t) (c : Coll) (code : Nat) : s.Spares (t.collBreak c code) := by
  have hrun : s.Spares ((t.dropColl c.o.ch.val c.o).evfBump c.o.ch.val Off.EVF_COLLFAIL 1) := .bump (.modChan h ..) ..
  unfold Dev.collBreak
  dsimp only
  split
  · exact .branch (hrun.breakObj ..) hrun
  · exact hrun

theorem failAll (h : s.Spares t) (c : Coll) (code : Nat) (ps : List Nat) : s.Spares (t.failAll c code ps) := by
  refine h.foldl (fun u i => ?_) ps
  split
  · exact (refl u).send ..
  · exact refl u

theorem noticeRoot (h : s.Spares t) (c : Coll) (code : Nat) : s.Spares (t.noticeRoot c code) := by
  unfold Dev.noticeRoot
  split
  · exact .branch h ((h.failAll ..).collBreak ..)
  · split
    · exact h.send ..
    · exact h

theorem dropFabric (h : s.Spares t) (ch : Nat) : s.Spares (t.dropFabric ch) := by
  unfold Dev.dropFabric
  refine .modChan (.bump (.foldl h (fun u c => ?_) _) ..) ..
  exact .branch ((refl u).noticeRoot ..) (refl u)

theorem dropSync (h : s.Spares t) (ch : Nat) : s.Spares (t.dropSync ch) :=
  .foldl (.bump (.modChan h ..) ..) (fun u _ => (refl u).bump ..) _

theorem dropScratch (h : s.Spares t) (ch : Nat) : s.Spares (t.dropScratch ch) := h.same rfl rfl

theorem haltWords (h : s.Spares t) (ch : Nat) : s.Spares (t.haltWords ch) :=
  .branch h (.foldl h (fun u _ => .branch (.branch (((refl u).emit _).emit _) ((refl u).emit _)) (refl u)) _)

theorem raiseIbi (h : s.Spares t) (tgt kind state cause seq : Nat) : s.Spares (t.raiseIbi tgt kind state cause seq) := by
  unfold Dev.raiseIbi Dev.postIbi
  exact .branch (.branch ((h.modMgt ..).modMgt ..|>.emit _) ((h.modMgt ..).modMgt ..)) (h.modMgt ..)

theorem noteReady (h : s.Spares t) (was : Bool) : s.Spares (t.noteReady was) := by
  have hdraw : s.Spares (t.draw 256).1 := h.same rfl rfl
  exact .branch (hdraw.raiseIbi 8 3 1 0 (t.draw 256).2) h

theorem helloAll (h : s.Spares t) (ch : Nat) (standby : Bool) : s.Spares (t.helloAll ch standby) :=
  .foldl h (fun u _ => .branch ((refl u).queueMsg ..) (refl u)) _

/-! ### Settling -/

theorem settleCh (h : s.Spares t) (ch : Nat) : s.Spares (t.settleCh ch) := by
  have hhalted : ∀ {u : Dev}, s.Spares u → s.Spares (((u.haltWords ch).noteReady (u.chReady ch)).modChan ch fun c => { c with placeDue := true }) :=
    fun hu => ((hu.haltWords ch).noteReady _).modChan ch _
  have hundue := h.modChan ch fun c => { c with safeDue := false, haltDue := false, noticeDue := false }
  have hsafe := branch (c := (t.chan ch).safeDue = true) (((hundue.dropFabric ch).dropSync ch).dropScratch ch) hundue
  have hhalt := branch (c := (t.chan ch).haltDue = true) (hhalted hsafe) hsafe
  exact branch (c := (t.chan ch).noticeDue = true) (hhalt.helloAll ch false) hhalt

theorem settleFor (n : Nat) : ∀ {t : Dev}, s.Spares t → s.Spares (t.settleFor n) := by
  induction n with
  | zero => exact fun h => h.same rfl rfl
  | succ n ih => exact fun h => .branch (ih (.foldl h (fun u ch => (refl u).settleCh ch) _)) h

end Dev.Spares

/-- What settling leaves without a status word due, it leaves with its memory as it was. -/
theorem Dev.spares_settle (s : Dev) : s.Spares s.settle := Dev.Spares.settleFor 16 (.refl s)

end Sys2Proof.Machine

end

section
/-! A parity error in a load's copy, and the T1 that the load had taken (O25). -/

namespace Sys2Proof.Machine

/-- Context 1 is in the COPY phase of a load: frame 0 of channel 0's T1 is set aside for its digital parts, and the first byte is there. -/
def copyingLoad : Dev :=
  { Dev.reset.wrF .ldrCx 0 1 Off.LDR_CMD_STA 18 16 Ph.COPY with
    mem := [(tierBase 0 1, 1)]
    mems := [(0, { Mem.fresh with ranges := [⟨0, 1, 1, false⟩] })] }

theorem copyingLoad_phase : copyingLoad.phase 1 = Ph.COPY := by decide +kernel

theorem copyingLoad_byte : copyingLoad.byte (tierBase 0 1) = 1 := rfl

/-- The load ends, and what it had taken of T1 is written with zeros (R258, R261). -/
theorem parityError_clears_copyingLoad :
    (copyingLoad.parityError (.memory 0 (.loadCopy 1))).settle.mem = [] ∧
    (copyingLoad.parityError (.memory 0 (.loadCopy 1))).settle.seqs = [] := by decide +kernel

/-- Refutes O25: an error met by a load's copy does not keep every byte. The load ends REJECTED, and the T1 set aside for it is cleared before
it is freed, so a byte that the copy had brought there is gone; what settling adds cannot account for it, as no sequence has ended. -/
theorem not_sourcesAreCounted : ¬ Obligations.SourcesAreCounted := by
  unfold Obligations.SourcesAreCounted
  rintro ⟨-, hparity⟩
  obtain ⟨-, -, -, -, -, hcopy, -⟩ := hparity ⟨[], copyingLoad⟩ 0 rfl rfl
  obtain ⟨m, hm, -, -, -, hbytes⟩ := hcopy 1 copyingLoad_phase
  have hend : (copyingLoad.parityError (.memory 0 (.loadCopy 1))).settle = m.settle := congrArg State.m (Host.Outcome.next.inj hm)
  obtain ⟨hmem, hseqs⟩ := parityError_clears_copyingLoad
  rw [hend] at hmem hseqs
  have hunsaid : m.settle.Unsaid := fun r => by rw [Dev.seq, hseqs]; rfl
  have hcleared : m.mem = [] := (m.spares_settle.mem hunsaid).symm.trans hmem
  have hkept : m.byte (tierBase 0 1) = 1 := (hbytes _).trans copyingLoad_byte
  rw [Dev.byte, hcleared] at hkept
  exact absurd hkept (by decide)

end Sys2Proof.Machine

end


section
/-! A tile that the carder has finished verifies (O37). -/

namespace Sys2Proof.Machine
open Sys2Proof

theorem exec_tileVerifyDone (ch : ChId) (cl : ClId) (tile : Fin 132) (missed : List Nat) (iters : Nat) (probe : List F32) (s : State) :
    exec (.tileVerifyDone ch cl tile missed iters probe) s =
      s.done (s.m.only (s.m.programs ch.val) fun m => m.tileVerifyDone ((ch.val * 8 + cl.val) * 132 + tile.val) missed iters probe) := rfl

theorem tileCh_key (ch : ChId) (cl : ClId) (tile : Fin 132) : tileCh ((ch.val * 8 + cl.val) * 132 + tile.val) = ch.val := by
  unfold tileCh; omega

theorem Dev.programs_fltState {s : Dev} {ch : Nat} (h : s.programs ch = true) : s.fltState ch = 0 := by
  simp only [Dev.programs, Dev.running, Bool.and_eq_true, decide_eq_true_eq] at h
  obtain ⟨⟨⟨⟨-, hflt⟩, -⟩, -⟩, -⟩ := h
  exact hflt

theorem Dev.modTile_congr {s : Dev} {k : Nat} {f g : Tile → Tile} (h : f (s.tile k) = g (s.tile k)) : s.modTile k f = s.modTile k g := by
  rw [Dev.modTile, h, Dev.modTile]

/-- A tile that the carder does not program takes no verify (R262). -/
theorem Dev.tileVerifyDone_idle {s : Dev} {k : Nat} (h : (s.tile k).state ≠ .programming) (missed : List Nat) (iters : Nat) (probe : List F32) :
    s.tileVerifyDone k missed iters probe = s := by
  have hv : s.verifyTile k missed iters probe = s := if_pos (.inl h)
  simp [Dev.tileVerifyDone, h, hv]

/-- A programming pass that stays below the warning limit adds one to the tile's wear and is counted (R61, R277). -/
theorem Dev.wearPass_below {s : Dev} {k : Nat} (h : (s.tile k).wear + 1 < 9000000) :
    s.wearPass k = (s.modTile k fun t => { t with wear := t.wear + 1 }).bump .ldrCh (tileCh k) 0 Off.LDR_PASS 1 := by
  have hwarn : ¬ 9000000 ≤ (s.tile k).wear + 1 := by omega
  have hend : ¬ 10000000 ≤ (s.tile k).wear + 1 := by omega
  simp only [Dev.wearPass, hwarn, hend]
  exact congrArg (Dev.bump · .ldrCh (tileCh k) 0 Off.LDR_PASS 1) (Dev.modTile_congr (by simp))

/-- A pass for a refresh whose columns all verify changes its tile and two counters. -/
theorem Dev.tileVerifyDone_refresh {s : Dev} {k : Nat} (hst : (s.tile k).state = .programming) (hnext : (s.tile k).next = none)
    (hprog : (s.tile k).prog = some .refresh) (hwear : (s.tile k).wear + 1 < 9000000) (hflt : s.fltState (tileCh k) = 0) (iters : Nat)
    (probe : List F32) :
    s.tileVerifyDone k [] iters probe = (((s.bump .ldrCh (tileCh k) 0 Off.LDR_VITER iters).modTile k fun t => { t with wear := t.wear + 1 }).bump
      .ldrCh (tileCh k) 0 Off.LDR_PASS 1).modTile k fun t => { programmed t probe with next := some .ready } := by
  have hw : ((s.bump .ldrCh (tileCh k) 0 Off.LDR_VITER iters).tile k).wear + 1 < 9000000 := by simpa using hwear
  have hv : s.tileVerifyDone k [] iters probe = s.verifyTile k [] iters probe := by simp [Dev.tileVerifyDone, hprog]
  rw [hv, Dev.verifyTile, if_neg (by simp [hst, hnext, hflt]), if_neg (by simp [hprog]), Dev.remapMissed]
  dsimp only
  rw [if_pos rfl, Dev.wearPass_below hw]
  exact Dev.modTile_congr (by simp [hst, hprog, verifiedState])

/-- A command whose effect leaves nothing waiting answers the state with that effect. -/
theorem answers_done {c : Instr} {s : State} {m : Dev} {P : State → Prop} (hc : exec c s = s.done m) (hm : m.Settled) (hp : P { s with m := m }) :
    Answers c s P :=
  ⟨_, hc.trans (s.done_of_settled hm), hp⟩

/-- Settles O37: what the pass leaves, and no change without one. -/
theorem tilesVerify : Obligations.TilesVerify := by
  unfold Obligations.TilesVerify
  intro s ch cl tile iters probe hs hp k t
  have hflt : s.m.fltState (tileCh k) = 0 := tileCh_key ch cl tile ▸ Dev.programs_fltState hp
  have hexec : ∀ missed, exec (.tileVerifyDone ch cl tile missed iters probe) s = s.done (s.m.tileVerifyDone k missed iters probe) := by
    intro missed
    rw [exec_tileVerifyDone, hp, Dev.only_true]
  refine ⟨fun hst hnext hprog hwear => ?_, fun hst missed => ?_⟩
  · have hm := Dev.tileVerifyDone_refresh hst hnext hprog hwear hflt iters probe
    refine answers_done ((hexec []).trans (congrArg s.done hm)) (hs.of_chans (by simp)) ⟨fun a => by simp, by simp [t], fun j hj => ?_⟩
    rw [Dev.modTile_other _ hj, Dev.bump_get_tile, Dev.modTile_other _ hj, Dev.bump_get_tile]
  · rw [Gives, hexec, Dev.tileVerifyDone_idle hst]
    exact s.done_of_settled hs

end Sys2Proof.Machine
end


section
/-! What raising a fault source does: an invariant principle over the updates that it is made of, and all of it where the source acts at
RECORD. -/

namespace Sys2Proof.Machine
open Sys2Proof

/-! ### Recording (R501 to R504) -/

/-- A record of an event that is not privileged changes the channel's recorder and its counter. -/
theorem Dev.writeRec_plain (s : Dev) (ch : Nat) {e : Ev} (hp : e.priv = false) :
    ∃ f, (∀ c : Chan, (f c).due = c.due) ∧ s.writeRec ch e = (s.modChan ch f).bump .evrCh ch 0 Off.EVR_REC 1 := by
  unfold Dev.writeRec
  simp only [hp, Bool.false_and, Bool.false_eq_true, if_false]
  exact ⟨_, fun _ => by rfl, rfl⟩

/-- An event that is not privileged is recorded, or counted as suppressed. -/
theorem Dev.record_plain (s : Dev) (ch : Nat) {e : Ev} (hp : e.priv = false) :
    ∃ f o, (∀ c : Chan, (f c).due = c.due) ∧ (o = Off.EVR_REC ∨ o = Off.EVR_SUPP) ∧
      s.record ch e = (s.modChan ch f).bump .evrCh ch 0 o 1 := by
  unfold Dev.record
  dsimp only
  split
  · obtain ⟨f, hf, he⟩ := s.writeRec_plain ch hp
    exact ⟨f, _, hf, .inl rfl, he⟩
  · exact ⟨_, _, fun _ => by rfl, .inr rfl, rfl⟩

/-! ### A source that acts at RECORD (R372, R373, R376) -/

/-- The words of a page's header that a raise of its source `n` leaves: the sticky bit set, PG_CNT one up (R373). -/
def Dev.pageMark (s : Dev) (k : PageKind) (ch n : Nat) : Dev :=
  let s := s.wr k ch 0 Off.PG_FLT (setBit (s.rd k ch 0 Off.PG_FLT) n true)
  s.wr k ch 0 Off.PG_CNT (BitVec.ofNat 32 (satAdd 0xFFFFFFFF (s.rd k ch 0 Off.PG_CNT).toNat 1))

theorem Dev.markTile_none (s : Dev) (ch ix : Nat) : s.markTile ch ix .none = s := by simp [Dev.markTile, fltTile]

/-- Where a raise names no place, what it counts and records is the mark in its page's header and one event. -/
theorem Dev.noteRaise_none (s : Dev) (ch ix : Nat) (forced : Bool) (data : List Nat) :
    s.noteRaise ch ix forced .none data =
      (s.pageMark (collector ix).1 ch (collector ix).2).record ch ⟨1 + ix, 0, ix, 8, false, forced, data⟩ :=
  congrArg (Dev.record · ch ⟨1 + ix, 0, ix, 8, false, forced, data⟩) (Dev.markTile_none ..)

/-- A source that acts at RECORD is counted and recorded, and that is all. -/
theorem Dev.raise_of_records {s : Dev} {ch ix : Nat} (hr : s.Records ch ix) (hix : ix < 96) (hn : (collector ix).2 < (collector ix).1.nsrc) :
    s.raise ch ix = s.noteRaise ch ix false .none [] := by
  have hsev : s.sevOf ch ix = 0 := hr
  rw [Dev.raise, Dev.raiseAt]
  simp only
  rw [if_neg (by omega), hsev]
  rfl

/-- Raised at RECORD, a source of a channel changes its page's header, the channel's recorder and one counter of the recorder. -/
theorem Dev.raise_recorded {s : Dev} {ch ix : Nat} (hr : s.Records ch ix) (hix : ix < 96) (hn : (collector ix).2 < (collector ix).1.nsrc) :
    ∃ f o, (∀ c : Chan, (f c).due = c.due) ∧ (o = Off.EVR_REC ∨ o = Off.EVR_SUPP) ∧
      s.raise ch ix = ((s.pageMark (collector ix).1 ch (collector ix).2).modChan ch f).bump .evrCh ch 0 o 1 := by
  rw [Dev.raise_of_records hr hix hn, Dev.noteRaise_none]
  exact Dev.record_plain _ _ rfl

/-- The sticky bit of a source that was raised at RECORD is set. -/
theorem Dev.pageMark_bit (s : Dev) (k : PageKind) (ch : Nat) {n : Nat} (hn : n < 32) :
    bit ((s.pageMark k ch n).rd k ch 0 Off.PG_FLT) n = true := by
  rw [Dev.pageMark, Dev.wr_rd_other _ (by simp [pageOff]), Dev.wr_rd_same]
  exact bit_setBit_same _ hn true

/-! ### An invariant that every raise keeps (R372 to R384, R393) -/

/-- A predicate that each update of a raise keeps: register words, channels, tiles, clusters, targets, what leaves the module, and the stop
of a channel's engines. -/
structure Dev.RaiseKeeps (P : Dev → Prop) : Prop where
  setReg : ∀ {m : Dev} (a : Nat) (w : Word), P m → P (m.setReg a w)
  modChan : ∀ {m : Dev} (ch : Nat) (f : Chan → Chan), P m → P (m.modChan ch f)
  modTile : ∀ {m : Dev} (k : Nat) (f : Tile → Tile), P m → P (m.modTile k f)
  modClus : ∀ {m : Dev} (c : Nat) (f : Cluster → Cluster), P m → P (m.modClus c f)
  modMgt : ∀ {m : Dev} (t : Nat) (f : Mgt → Mgt), P m → P (m.modMgt t f)
  emit : ∀ {m : Dev} (o : Out), P m → P (m.emit o)
  safeState : ∀ {m : Dev} (ch : Nat), P m → P (m.safeState ch)

namespace Dev.RaiseKeeps
variable {P : Dev → Prop} {m : Dev} (h : Dev.RaiseKeeps P)
include h

omit h in
theorem branch {c : Prop} [Decidable c] {s t : Dev} (hs : P s) (ht : P t) : P (if c then s else t) := by
  split
  · exact hs
  · exact ht

theorem wr64 (k : PageKind) (ch i o v : Nat) (hm : P m) : P (m.wr64 k ch i o v) := h.setReg _ _ (h.setReg _ _ hm)

theorem bump (k : PageKind) (ch i o n : Nat) (hm : P m) : P (m.bump k ch i o n) := branch hm (h.wr64 _ _ _ _ _ hm)

theorem raiseIbi (t kind state cause seq : Nat) (hm : P m) : P (m.raiseIbi t kind state cause seq) := by
  have hpost : ∀ {s : Dev} (e : Nat × Nat × Nat × Nat), P s → P (s.postIbi t e) := fun e hs =>
    branch (h.emit _ (h.modMgt _ _ hs)) (h.modMgt _ _ hs)
  exact branch (hpost _ (h.modMgt _ _ hm)) (h.modMgt _ _ hm)

theorem record (ch : Nat) (e : Ev) (hm : P m) : P (m.record ch e) := by
  have hcount := fun f o => h.bump .evrCh ch 0 o 1 (h.modChan ch f hm)
  exact branch (branch (h.raiseIbi _ _ _ _ _ (hcount _ _)) (hcount _ _)) (hcount _ _)

theorem markTile (ch ix : Nat) (at_ : FltAt) (hm : P m) : P (m.markTile ch ix at_) := by
  unfold Dev.markTile
  refine branch ?_ hm
  split
  · next k _ =>
    have hbad := branch (c := ix = 13) (h.modTile k (fun t => { t with transBad := true }) hm) hm
    exact branch hbad (h.setReg _ _ hbad)
  · exact hm

theorem noteRaise (ch ix : Nat) (forced : Bool) (at_ : FltAt) (data : List Nat) (hm : P m) : P (m.noteRaise ch ix forced at_ data) :=
  h.record _ _ (h.markTile _ _ _ (h.setReg _ _ (h.setReg _ _ hm)))

/-! ### Redundant actions (R62, R104, R377, R424) -/

theorem retireTile (k : Nat) (hm : P m) : P (m.retireTile k) := branch (h.modTile _ _ hm) (h.modTile _ _ hm)

theorem adoptSpare (k sp : Nat) (hm : P m) : P (m.adoptSpare k sp) :=
  branch (h.bump _ _ _ _ _ (h.modTile _ _ hm)) (branch (h.bump _ _ _ _ _ (h.modTile _ _ hm)) (h.modTile _ _ hm))

theorem retireAdopt (k : Nat) (hm : P m) : P (m.retireAdopt k) := by
  have hr := h.retireTile k hm
  unfold Dev.retireAdopt
  dsimp only
  split
  · exact h.adoptSpare _ _ hr
  · split
    · exact h.modClus _ _ (h.adoptSpare _ _ hr)
    · exact hr

theorem remapConverter (k conv : Nat) (hm : P m) : P (m.remapConverter k conv) := by
  unfold Dev.remapConverter
  exact branch (h.modTile _ _ hm) (h.retireAdopt _ hm)

theorem distrustMonitor (cl : Nat) (hm : P m) : P (m.distrustMonitor cl) := h.setReg _ _ (h.modClus _ _ hm)

theorem degradeTiles {ch ix : Nat} {at_ : FltAt} {s : Dev} (hm : P m) (hs : m.degradeTiles ch ix at_ = some s) : P s := by
  unfold Dev.degradeTiles at hs
  split at hs
  · exact Option.some.inj hs ▸ hm
  · split at hs
    · split at hs
      · exact Option.some.inj hs ▸ h.remapConverter _ _ hm
      · exact Option.some.inj hs ▸ h.retireAdopt _ hm
    · split at hs
      · exact Option.some.inj hs ▸ h.modTile _ _ hm
      · exact Option.some.inj hs ▸ h.retireAdopt _ hm

theorem degrade {ch ix : Nat} {at_ : FltAt} {s : Dev} (hm : P m) (hs : m.degrade ch ix at_ = some s) : P s := by
  unfold Dev.degrade at hs
  split at hs
  · exact h.degradeTiles hm hs
  · split at hs
    · refine Option.some.inj hs ▸ ?_
      split
      · exact h.distrustMonitor _ hm
      · exact hm
    · split at hs
      · exact Option.some.inj hs ▸ hm
      · split at hs
        · refine Option.some.inj hs ▸ ?_
          split
          · split
            · exact h.remapConverter _ _ hm
            · exact hm
          · split
            · exact h.retireAdopt _ hm
            · exact hm
          · exact hm
        · split at hs
          · exact Option.some.inj hs ▸ hm
          · exact absurd hs (by simp)

/-! ### The safe state (R378, R384, R393) -/

theorem fltNotice (ch : Nat) (hm : P m) : P (m.fltNotice ch) := by
  have hrec := fun e => h.record ch e hm
  have hibi := fun e c a b d f (hc : Decidable c) => branch (c := c) (h.raiseIbi ch a b d f (hrec e)) (hrec e)
  exact branch (h.emit _ (branch (h.raiseIbi _ _ _ _ _ (hrec _)) (hrec _))) (branch (h.raiseIbi _ _ _ _ _ (hrec _)) (hrec _))

theorem enterFlt (ch st cause : Nat) (forced : Bool) (hm : P m) : P (m.enterFlt ch st cause forced) := h.wr64 _ _ _ _ _ (h.setReg _ _ hm)

theorem contain (ch cause : Nat) (forced : Bool) (hm : P m) : P (m.contain ch cause forced) := by
  unfold Dev.contain
  split
  · exact h.fltNotice _ (h.modChan _ _ (h.safeState _ (h.bump _ _ _ _ _ (h.modChan _ _ (h.enterFlt _ _ _ _ hm)))))
  · exact h.modChan _ _ hm
  · exact hm

theorem halt (ch cause : Nat) (forced : Bool) (hm : P m) : P (m.halt ch cause forced) :=
  branch hm (h.fltNotice _ (h.modChan _ _ (h.safeState _ (h.bump _ _ _ _ _ (h.enterFlt _ _ _ _ hm)))))

theorem actSev (ch ix sev : Nat) (forced : Bool) (at_ : FltAt) (hm : P m) : P (m.actSev ch ix sev forced at_) := by
  unfold Dev.actSev
  split
  · exact hm
  · split
    · exact h.contain _ _ _ hm
    · next s hs => exact branch (h.modChan _ _ hm) (h.degrade hm hs)
  · exact h.contain _ _ _ hm
  · exact h.halt _ _ _ hm

theorem raiseAt (ch ix : Nat) (forced : Bool) (at_ : FltAt) (data : List Nat) (hm : P m) : P (m.raiseAt ch ix forced at_ data) := by
  unfold Dev.raiseAt
  exact branch hm (h.actSev _ _ _ _ _ (h.noteRaise _ _ _ _ _ hm))

end Dev.RaiseKeeps

end Sys2Proof.Machine
end


section
/-! Blocking runs and tile commands (O31). -/

namespace Sys2Proof.Machine
open Sys2Proof

theorem exec_bkgCmdRun (fn : Fn) (core : CoreRef) (s : State) : exec (.bkgCmdRun fn core) s =
    s.done (s.m.put fn (pageOff .bkgCh core.ch.val 0 Off.BKG_CMD) (BitVec.ofNat 32 (core.cl.val + core.co.val * 8 + 64))) := rfl
theorem exec_bkgLateExpire (core : CoreRef) (s : State) :
    exec (.bkgLateExpire core) s = s.done (s.m.only (s.m.running core.ch.val) fun m => m.runLate core) := rfl
theorem exec_blockingRunDone (core : CoreRef) (l : List TileCal) (s : State) :
    exec (.blockingRunDone core l) s = s.done (s.m.only (s.m.programs core.ch.val) fun m => m.runDone core l) := rfl
theorem exec_arrTcmd (fn : Fn) (core : CoreRef) (w : Word) (s : State) : exec (.arrTcmd fn core w) s =
    s.done (s.m.put fn (pageOff .arr core.ch.val (core.cl.val * 8 + core.co.val) Off.ARR_TCMD) w) := rfl

/-! ### Status words -/

/-- The low byte of a word takes what is written to it. -/
theorem fld_setFld_byte (w : Word) (v : Nat) : fld (setFld w 7 0 v) 7 0 = v % 256 := by
  have hw := w.isLt
  have h : (setFld w 7 0 v).toNat = w.toNat - w.toNat % 256 + v % 256 := by
    simp only [setFld, fld, BitVec.toNat_ofNat]
    omega
  rw [fld, h]
  omega

theorem Dev.wrF_rdF_byte (s : Dev) (k : PageKind) (ch i o v : Nat) : (s.wrF k ch i o 7 0 v).rdF k ch i o 7 0 = v % 256 := by
  rw [Dev.rdF, Dev.wrF, Dev.wr_rd_same, fld_setFld_byte]

/-! ### BKG_CMD (R419, R429) -/

/-- The word of BKG_CMD that names a core with RUN. -/
theorem bkgCmd_fields (cl co : Fin 8) : let w : Word := BitVec.ofNat 32 (cl.val + co.val * 8 + 64)
    fld w 2 0 = cl.val ∧ fld w 5 3 = co.val ∧ fld w 8 6 = 1 := by
  revert cl co; decide

/-- RUN is refused where a run is due or under way, and else makes one due. -/
theorem Dev.bkgCmd_run (s : Dev) (core : CoreRef) : s.bkgCmd core.ch.val (BitVec.ofNat 32 (core.cl.val + core.co.val * 8 + 64)) =
    if (s.core core.ix).bkg.due.isSome ∨ (s.core core.ix).bkg.running.isSome then s.wrF .bkgCh core.ch.val 0 Off.BKG_CMD_STA 7 0 Code.BUSY
    else (s.bkgDue core.ix).wrF .bkgCh core.ch.val 0 Off.BKG_CMD_STA 7 0 Code.OK := by
  obtain ⟨hcl, hco, hrun⟩ := bkgCmd_fields core.cl core.co
  have hix : core.ch.val * 64 + core.cl.val * 8 + core.co.val = core.ix := by simp only [CoreRef.ix]; omega
  simp only [Dev.bkgCmd, hcl, hco, hrun, hix, ne_eq, not_true_eq_false, if_false]

/-- A run that falls due marks the core, and beside it at most some spares of its cluster (R419). -/
theorem Dev.bkgDue_cases (s : Dev) (c : Nat) : ∃ T, s.bkgDue c = ({ s with tiles := T } : Dev).modCore c fun x =>
    { x with bkg := { x.bkg with due := if x.bkg.due.isSome then x.bkg.due else some (s.chan (c / 64)).time } } := by
  have hspares (l : List Nat) (m : Dev) : ∃ T, l.foldl (fun s i => s.modTile (c / 8 * 132 + 128 + i) fun t => { t with calDue := true }) m =
      { m with tiles := T } := by
    induction l generalizing m with
    | nil => exact ⟨m.tiles, rfl⟩
    | cons i l ih => exact ih (m.modTile _ _)
  unfold Dev.bkgDue
  dsimp only
  split
  · exact ⟨s.tiles, rfl⟩
  · obtain ⟨T, hT⟩ := hspares (List.range 4) s
    exact ⟨T, by rw [hT]; rfl⟩

theorem Dev.pageWrite_bkgCmd (s : Dev) (ch i rdr : Nat) (w : Word) (env : WrEnv) :
    s.pageWrite ⟨.bkgCh, ch, i⟩ rdr Off.BKG_CMD w env = s.bkgCmd ch w := by
  rw [Dev.pageWrite, if_neg (by decide), Dev.bodyWrite]
  exact if_pos rfl
theorem Dev.pageWrite_tileCmd (s : Dev) (ch i rdr : Nat) (w : Word) (env : WrEnv) :
    s.pageWrite ⟨.arr, ch, i⟩ rdr Off.ARR_TCMD w env = s.tileCmd ch i w := by
  rw [Dev.pageWrite, if_neg (by decide), Dev.bodyWrite]
  exact if_pos rfl
theorem Dev.put_granted {s : Dev} {fn : Fn} {k : PageKind} {ch i o : Nat} (hv : Page.valid ⟨k, ch, i⟩ = true) (ho : o < 0x1000) (h4 : o % 4 = 0)
    (hw : s.Writes fn ⟨k, ch, i⟩ o) (w : Word) : s.put fn (pageOff k ch i o) w = s.pageWrite ⟨k, ch, i⟩ (writeReader fn) o w WrEnv.none :=
  Dev.writeWord_granted hv ho h4 hw w WrEnv.none

theorem exec_bkgCmdRun_granted {s : State} {fn : Fn} {core : CoreRef} (hw : s.m.Writes fn ⟨.bkgCh, core.ch.val, 0⟩ Off.BKG_CMD) :
    exec (.bkgCmdRun fn core) s = s.done (s.m.bkgCmd core.ch.val (BitVec.ofNat 32 (core.cl.val + core.co.val * 8 + 64))) := by
  rw [exec_bkgCmdRun, Dev.put_granted (Page.valid_channel (by decide) core.ch.isLt) (by decide) (by decide) hw, Dev.pageWrite_bkgCmd]
/-- A register write leaves every channel as it was. -/
theorem Dev.Settled.wrF {m : Dev} (h : m.Settled) (k : PageKind) (ch i o hi lo v : Nat) : (m.wrF k ch i o hi lo v).Settled := h

theorem Dev.Settled.modCore {m : Dev} (h : m.Settled) (k : Nat) (f : Core → Core) : (m.modCore k f).Settled := h

theorem Dev.wrF_reg_other (s : Dev) {k : PageKind} {ch i o a : Nat} (h : a ≠ pageOff k ch i o) (hi lo v : Nat) :
    (s.wrF k ch i o hi lo v).reg a = s.reg a := Dev.wr_reg_other _ h _

/-- A run that falls due changes neither a byte nor a register nor a channel. -/
theorem Dev.bkgDue_keeps (s : Dev) (c : Nat) : (∀ a, (s.bkgDue c).byte a = s.byte a) ∧ (∀ a, (s.bkgDue c).reg a = s.reg a) ∧
    (s.bkgDue c).chans = s.chans := by
  obtain ⟨T, hT⟩ := s.bkgDue_cases c
  rw [hT]
  exact ⟨fun _ => rfl, fun _ => rfl, rfl⟩

/-- The time of a run that falls due is the channel's (R419). -/
theorem Dev.bkgDue_due {s : Dev} {c : Nat} (h : (s.core c).bkg.due = none) : ((s.bkgDue c).core c).bkg.due = some (s.chan (c / 64)).time := by
  obtain ⟨T, hT⟩ := s.bkgDue_cases c
  have hnone : (({ s with tiles := T } : Dev).core c).bkg.due = none := h
  rw [hT, Dev.modCore_same]
  simp [hnone]

theorem answers_bkgCmd_ok {s : State} {core : CoreRef} (hs : s.m.Settled) {fn : Fn} (hw : s.m.Writes fn ⟨.bkgCh, core.ch.val, 0⟩ Off.BKG_CMD)
    (hdue : (s.m.core core.ix).bkg.due = none) (hrun : (s.m.core core.ix).bkg.running = none) :
    Answers (.bkgCmdRun fn core) s fun r => SameBytes s r ∧ (r.m.core core.ix).bkg.due = some (s.m.chan core.ch.val).time ∧
      r.m.rdF .bkgCh core.ch.val 0 Off.BKG_CMD_STA 7 0 = Code.OK ∧ SameRegs s r (· = pageOff .bkgCh core.ch.val 0 Off.BKG_CMD_STA) := by
  obtain ⟨hbyte, hreg, hchans⟩ := s.m.bkgDue_keeps core.ix
  have hch : core.ix / 64 = core.ch.val := by simp only [CoreRef.ix]; omega
  have hm := (s.m.bkgCmd_run core).trans (if_neg (by simp [hdue, hrun]))
  refine answers_done ((exec_bkgCmdRun_granted hw).trans (congrArg s.done hm)) ((hs.of_chans hchans).wrF ..)
    ⟨fun a => (Dev.wrF_get_byte ..).trans (hbyte a), ?_, Dev.wrF_rdF_byte .., fun a ha => (Dev.wrF_reg_other _ ha ..).trans (hreg a)⟩
  rw [Dev.wrF_get_core, Dev.bkgDue_due hdue, hch]

theorem answers_bkgCmd_busy {s : State} {core : CoreRef} (hs : s.m.Settled) {fn : Fn} (hw : s.m.Writes fn ⟨.bkgCh, core.ch.val, 0⟩ Off.BKG_CMD)
    (hbusy : (s.m.core core.ix).bkg.due.isSome = true ∨ (s.m.core core.ix).bkg.running.isSome = true) :
    Answers (.bkgCmdRun fn core) s fun r => SameWork s r ∧ r.m.rdF .bkgCh core.ch.val 0 Off.BKG_CMD_STA 7 0 = Code.BUSY ∧
      SameRegs s r (· = pageOff .bkgCh core.ch.val 0 Off.BKG_CMD_STA) := by
  have hm := (s.m.bkgCmd_run core).trans (if_pos hbusy)
  exact answers_done ((exec_bkgCmdRun_granted hw).trans (congrArg s.done hm)) (hs.wrF ..)
    ⟨sameWork_setReg .., Dev.wrF_rdF_byte .., fun a ha => Dev.wr_reg_other _ ha _⟩

/-! ### BKG_LATE (R420) -/

/-- A word of a channel's BKG page is none of the recorder's counters. -/
theorem Dev.bump_evr_rd_bkg (s : Dev) (ch o p n : Nat) (ho : o < 0xFFC) (hp : p < 0x1000) :
    (s.bump .evrCh ch 0 o n).rd .bkgCh ch 0 p = s.rd .bkgCh ch 0 p :=
  Dev.bump_reg_other _ (by simp [pageOff, Page.base]; omega) (by simp [pageOff, Page.base]; omega)

/-- What a source recorded at RECORD leaves alone: a raise changes a register or a channel's records. -/
theorem Dev.raise_recorded_keeps {s : Dev} {ch ix : Nat} (hs : s.Settled) (hr : s.Records ch ix) (hix : ix < 96)
    (hn : (collector ix).2 < (collector ix).1.nsrc) :
    (s.raise ch ix).Settled ∧ (s.raise ch ix).mem = s.mem ∧ (s.raise ch ix).tiles = s.tiles ∧ (s.raise ch ix).cores = s.cores := by
  obtain ⟨f, o, hf, -, hraise⟩ := Dev.raise_recorded hr hix hn
  have hmark : (s.pageMark (collector ix).1 ch (collector ix).2).Settled := hs
  rw [hraise]
  exact ⟨.of_chans (.modChan hmark ((hf _).trans (hs.chan ch))) (Dev.bump_chans ..), Dev.bump_mem .., Dev.bump_tiles .., Dev.bump_cores ..⟩

/-- BKG_LATE shows in its page. -/
theorem Dev.raise_late_bit {s : Dev} {ch : Nat} (hr : s.Records ch 89) : bit ((s.raise ch 89).rd .bkgCh ch 0 Off.PG_FLT) 3 = true := by
  obtain ⟨f, o, -, ho, hraise⟩ := Dev.raise_recorded hr (by decide) (by decide)
  have hpage : collector 89 = (.bkgCh, 3) := rfl
  rw [hpage] at hraise
  rw [hraise, Dev.bump_evr_rd_bkg _ _ _ _ _ (by rcases ho with rfl | rfl <;> decide) (by decide), Dev.modChan_get_rd]
  exact Dev.pageMark_bit s .bkgCh ch (by decide)

theorem answers_bkgLate {s : State} {core : CoreRef} (hs : s.m.Settled) (hrun : s.m.running core.ch.val = true)
    (hdue : (s.m.core core.ix).bkg.due.isSome = true) (hidle : (s.m.core core.ix).bkg.running = none) (hlate : (s.m.core core.ix).bkg.late = false)
    (hwait : max 1 (s.m.inForce .bkgCh core.ch.val 0 Off.BKG_LATE 23 0) ≤ (s.m.core core.ix).bkg.waited) (hrec : s.m.Records core.ch.val 89) :
    Answers (.bkgLateExpire core) s fun r => SameBytes s r ∧ r.m.tiles = s.m.tiles ∧
      (r.m.core core.ix).bkg = { (s.m.core core.ix).bkg with late := true } ∧ bit (r.m.rd .bkgCh core.ch.val 0 Off.PG_FLT) 3 = true := by
  have hsome : (s.m.core core.ix).bkg.due ≠ none := Option.isSome_iff_ne_none.1 hdue
  let m := s.m.modBkg core.ix fun b => { b with late := true }
  have hlateRun : s.m.runLate core = m.raise core.ch.val 89 := by
    rw [Dev.runLate]
    exact if_neg (by simp [hsome, hidle, hlate]; omega)
  have hexec : exec (.bkgLateExpire core) s = s.done (m.raise core.ch.val 89) := by rw [exec_bkgLateExpire, hrun, Dev.only_true, hlateRun]
  have hset : m.Settled := hs
  have hmrec : m.Records core.ch.val 89 := hrec
  obtain ⟨hsettled, hmem, htiles, hcores⟩ := Dev.raise_recorded_keeps hset hmrec (by decide) (by decide)
  refine answers_done hexec hsettled ⟨fun a => congrArg (·.get 0 a) hmem, htiles, ?_, Dev.raise_late_bit hmrec⟩
  have hcore : (m.core core.ix).bkg = { (s.m.core core.ix).bkg with late := true } := congrArg Core.bkg (Dev.modCore_same ..)
  exact (congrArg (fun l : Store Core => (l.get Core.fresh core.ix).bkg) hcores).trans hcore

/-! ### The end of a run (R422) -/

/-- A listed value that stays listed reads as what it was rewritten to. -/
theorem Store.get_mapV {α : Type} [DecidableEq α] {d : α} {f : Nat → α → α} {k : Nat} {m : Store α} (hv : m.get d k ≠ d)
    (hf : f k (m.get d k) ≠ d) : (m.mapV d f).get d k = f k (m.get d k) := by
  induction m with
  | nil => exact absurd rfl hv
  | cons e m ih =>
    obtain ⟨j, v⟩ := e
    by_cases hj : j = k
    · subst hj
      simp only [Store.get, if_true] at hf ⊢
      simp [Store.mapV, hf, Store.get]
    · simp only [Store.get, if_neg hj] at hv hf ⊢
      have ih := ih hv hf
      by_cases hd : f j v = d
      · simpa [Store.mapV, hd] using ih
      · simpa [Store.mapV, hd, Store.get, hj] using ih

/-- While a run is measured, memory, the request table and the run itself are what they were. -/
structure Dev.InRun (s : Dev) (c : Nat) (m : Dev) : Prop where
  mem : m.mem = s.mem
  rqt : m.rqt = s.rqt
  run : (m.core c).bkg = (s.core c).bkg

/-- What the stop of a channel's engines makes of a core (R378). -/
def stopCore (ch c : Nat) (x : Core) : Core :=
  if c / 64 = ch then
    { x with execs := [], nodes := [], dae := none, groups := x.groups.mapV Group.fresh fun _ g =>
        { g with state := .free, leaves := [], result := [] } }
  else x

theorem Dev.safeState_cores (s : Dev) (ch : Nat) : (s.safeState ch).cores = s.cores.mapV Core.fresh (stopCore ch) := rfl

@[simp] theorem stopCore_bkg (ch c : Nat) (x : Core) : (stopCore ch c x).bkg = x.bkg := by
  unfold stopCore
  split <;> rfl

/-- The stop of a channel's engines leaves a run of its cores under way. -/
theorem Dev.safeState_bkg {s : Dev} {c : Nat} (ch : Nat) (h : (s.core c).bkg.running.isSome = true) :
    ((s.safeState ch).core c).bkg = (s.core c).bkg := by
  have listed : ∀ x : Core, x.bkg.running.isSome = true → x ≠ Core.fresh := fun x hx he => by subst he; exact absurd hx (by decide)
  have hcore : (s.safeState ch).core c = stopCore ch c (s.core c) := by
    rw [Dev.core, Dev.safeState_cores]
    exact Store.get_mapV (listed _ h) (listed _ (by rw [stopCore_bkg]; exact h))
  rw [hcore, stopCore_bkg]

theorem Dev.InRun.keeps {s : Dev} {c : Nat} (h : (s.core c).bkg.running.isSome = true) : Dev.RaiseKeeps (s.InRun c) where
  setReg _ _ hm := ⟨hm.mem, hm.rqt, hm.run⟩
  modChan _ _ hm := ⟨hm.mem, hm.rqt, hm.run⟩
  modTile _ _ hm := ⟨hm.mem, hm.rqt, hm.run⟩
  modClus _ _ hm := ⟨hm.mem, hm.rqt, hm.run⟩
  modMgt _ _ hm := ⟨hm.mem, hm.rqt, hm.run⟩
  emit _ hm := ⟨(Dev.emit_mem ..).trans hm.mem, (Dev.emit_rqt ..).trans hm.rqt, (congrArg Core.bkg (Dev.emit_get_core ..)).trans hm.run⟩
  safeState ch hm := ⟨hm.mem, hm.rqt, (Dev.safeState_bkg ch (hm.run ▸ h)).trans hm.run⟩

/-- One tile's measurements change what a raise changes, and its tables. -/
theorem Dev.RaiseKeeps.calTile {P : Dev → Prop} (h : Dev.RaiseKeeps P) (core : CoreRef) (c : TileCal) {m : Dev} (hm : P m) :
    P (m.calTile core c) := by
  have hconv (l : List Nat) (tile : Fin 132) : ∀ m, P m →
      P (l.foldl (fun s n => s.raiseAt core.ch.val 88 false (.conv core.cl tile (Fin.ofNat 532 n)) []) m) := by
    induction l with
    | nil => exact fun m hm => hm
    | cons n l ih => exact fun m hm => ih _ (h.raiseAt _ _ _ _ _ hm)
  have hrow : ∀ {m : Dev} k, P m → P (if c.rowConvFail then m.raiseTile 13 k else m) := fun k hm => branch (h.raiseAt _ _ _ _ _ hm) hm
  unfold Dev.calTile
  have hall : ∀ {m : Dev} k, P m → P (c.convFail.foldl
      (fun s n => s.raiseAt core.ch.val 88 false (.conv core.cl (Fin.ofNat 132 (k % 132)) (Fin.ofNat 532 n)) [])
      (if c.rowConvFail then m.raiseTile 13 k else m)) := fun k hm => hconv _ _ _ (hrow k hm)
  have hstored := fun k f n => h.bump .bkgCh core.ch.val 0 Off.BKG_STORE 1 (h.bump .bkgCh core.ch.val 0 Off.BKG_TAPS n (h.modTile k f hm))
  exact branch hm (branch (h.raiseAt _ _ _ _ _ (hall _ (hstored _ _ _))) (hall _ (hstored _ _ _)))

/-- The end of a run that is under way: each tile's measurements in turn, and then the run is done. -/
theorem Dev.runDone_measured {s : Dev} {core : CoreRef} (hrun : (s.core core.ix).bkg.running.isSome = true)
    (hdone : (s.core core.ix).bkg.done = false) (l : List TileCal) :
    s.runDone core l = (l.foldl (fun m c => m.calTile core c) s).modBkg core.ix fun b => { b with done := true } :=
  if_neg (by simp [Option.isSome_iff_ne_none.1 hrun, hdone])

/-- The core tile that a measurement is of. -/
def calKey (core : CoreRef) (c : TileCal) : Nat := core.cluster.ix * 132 + core.co.val * 16 + c.tile.val

/-- The measurements of a core tile without a failure: its tables, and two counters. -/
theorem Dev.calTile_sound {s : Dev} {core : CoreRef} {c : TileCal} (htile : c.tile.val < 16) (hconv : c.convFail = [])
    (hdriver : c.driverFail = false) (hrow : c.rowConvFail = false) (hprog : (s.tile (calKey core c)).state ≠ .programming)
    (hret : (s.tile (calKey core c)).state ≠ .retired) :
    ∃ n, s.calTile core c = ((s.modTile (calKey core c) fun t => sealTable (newTables c t)).bump .bkgCh core.ch.val 0
      Off.BKG_TAPS n).bump .bkgCh core.ch.val 0 Off.BKG_STORE 1 := by
  unfold calKey at *
  unfold Dev.calTile
  simp only [htile, hconv, hdriver, hrow, hprog, hret, if_true, decide_true, Bool.true_or, Bool.not_true, Bool.false_eq_true, or_self, if_false,
    List.foldl_nil]
  exact ⟨_, rfl⟩

theorem does_blockingRunDone {s : State} {core : CoreRef} (l : List TileCal) (hprog : s.m.programs core.ch.val = true)
    (hrun : (s.m.core core.ix).bkg.running.isSome = true) (hdone : (s.m.core core.ix).bkg.done = false) :
    Does (.blockingRunDone core l) s fun r => SameBytes s r ∧ r.m.rqt = s.m.rqt ∧
      (r.m.core core.ix).bkg = { (s.m.core core.ix).bkg with done := true } := by
  have hkeep := Dev.InRun.keeps hrun
  have hfold : ∀ m, s.m.InRun core.ix m → s.m.InRun core.ix (l.foldl (fun m c => m.calTile core c) m) := by
    induction l with
    | nil => exact fun m hm => hm
    | cons c l ih => exact fun m hm => ih _ (hkeep.calTile core c hm)
  obtain ⟨hmem, hrqt, hbkg⟩ := hfold s.m ⟨rfl, rfl, rfl⟩
  refine ⟨(l.foldl (fun m c => m.calTile core c) s.m).modBkg core.ix fun b => { b with done := true }, ?_,
    fun a => congrArg (·.get 0 a) hmem, (Dev.modCore_rqt ..).trans hrqt, ?_⟩
  · rw [exec_blockingRunDone, hprog, Dev.only_true, Dev.runDone_measured hrun hdone, State.done]
  · rw [Dev.modBkg, Dev.modCore_same, hbkg]

theorem answers_blockingRunDone {s : State} {core : CoreRef} {c : TileCal} (hs : s.m.Settled) (hprog : s.m.programs core.ch.val = true)
    (hrun : (s.m.core core.ix).bkg.running.isSome = true) (hdone : (s.m.core core.ix).bkg.done = false) (htile : c.tile.val < 16)
    (hconv : c.convFail = []) (hdriver : c.driverFail = false) (hrow : c.rowConvFail = false)
    (hp : (s.m.tile (calKey core c)).state ≠ .programming) (hr : (s.m.tile (calKey core c)).state ≠ .retired) :
    Answers (.blockingRunDone core [c]) s fun r => SameBytes s r ∧
      r.m.tile (calKey core c) = sealTable (newTables c (s.m.tile (calKey core c))) ∧
      (∀ j, j ≠ calKey core c → r.m.tile j = s.m.tile j) ∧
      (r.m.core core.ix).bkg = { (s.m.core core.ix).bkg with done := true } := by
  obtain ⟨n, hcal⟩ := Dev.calTile_sound htile hconv hdriver hrow hp hr
  have hm : s.m.runDone core [c] = (s.m.calTile core c).modBkg core.ix fun b => { b with done := true } := Dev.runDone_measured hrun hdone [c]
  have hexec : exec (.blockingRunDone core [c]) s = s.done ((s.m.calTile core c).modBkg core.ix fun b => { b with done := true }) := by
    rw [exec_blockingRunDone, hprog, Dev.only_true, hm]
  have hset : (s.m.calTile core c).Settled := hs.of_chans (by rw [hcal]; simp)
  refine answers_done hexec (hset.modCore ..) ⟨fun a => ?_, ?_, fun j hj => ?_, ?_⟩
  · rw [Dev.modBkg, Dev.modCore_get_byte, hcal]; simp
  · rw [Dev.modBkg, Dev.modCore_get_tile, hcal]; simp
  · rw [Dev.modBkg, Dev.modCore_get_tile, hcal, Dev.bump_get_tile, Dev.bump_get_tile, Dev.modTile_other _ hj]
  · rw [Dev.modBkg, Dev.modCore_same, hcal]; simp

/-! ### ARR_TCMD (R64) -/

/-- ARR_TCMD_STA after a command: its code, and the tile it names. -/
def Dev.tileReply (m : Dev) (ch co : Nat) (w : Word) (code : Nat) : Dev :=
  m.wr .arr ch co Off.ARR_TCMD_STA (BitVec.ofNat 32 (code + fld w 3 0 * 256))

/-- The tile of a core that a word of ARR_TCMD names. -/
def cmdTile (core : CoreRef) (w : Word) : Nat := (core.ch.val * 8 + core.cl.val) * 132 + core.co.val * 16 + fld w 3 0

/-- ARR_TCMD, for the tile that it names (R64). -/
theorem Dev.tileCmd_eq (s : Dev) (core : CoreRef) (w : Word) :
    s.tileCmd core.ch.val (core.cl.val * 8 + core.co.val) w =
      let t := s.tile (cmdTile core w)
      let reply (m : Dev) (code : Nat) : Dev := m.tileReply core.ch.val (core.cl.val * 8 + core.co.val) w code
      if fld w 6 4 ≠ 1 ∧ fld w 6 4 ≠ 2 ∨ t.state = .retired then reply s Code.RANGE
      else if t.state = .programming ∨ t.state = .blocking then reply s Code.BUSY
      else if fld w 6 4 = 2 then reply (s.modTile (cmdTile core w) fun t => { t with offline := false }) Code.OK
      else if t.state = .idle then reply (s.modTile (cmdTile core w) fun t => { t with offline := true }) Code.OK
      else if (s.freeSpare (tileCl (cmdTile core w)) true).isNone then reply s Code.NOSPACE
      else reply (s.modTile (cmdTile core w) fun t => { t with offline := true }) Code.PENDING := by
  have hcl : (core.cl.val * 8 + core.co.val) / 8 = core.cl.val := by omega
  have hco : (core.cl.val * 8 + core.co.val) % 8 = core.co.val := by omega
  rw [Dev.tileCmd, hcl, hco]
  rfl

section
variable {s : Dev} {core : CoreRef} {w : Word}

theorem Dev.tileCmd_range (h : fld w 6 4 ≠ 1 ∧ fld w 6 4 ≠ 2 ∨ (s.tile (cmdTile core w)).state = .retired) :
    s.tileCmd core.ch.val (core.cl.val * 8 + core.co.val) w = s.tileReply core.ch.val (core.cl.val * 8 + core.co.val) w Code.RANGE := by
  rw [Dev.tileCmd_eq]
  exact if_pos h

theorem Dev.tileCmd_busy (hop : fld w 6 4 = 1 ∨ fld w 6 4 = 2)
    (h : (s.tile (cmdTile core w)).state = .programming ∨ (s.tile (cmdTile core w)).state = .blocking) :
    s.tileCmd core.ch.val (core.cl.val * 8 + core.co.val) w = s.tileReply core.ch.val (core.cl.val * 8 + core.co.val) w Code.BUSY := by
  have hret : (s.tile (cmdTile core w)).state ≠ .retired := by rcases h with h | h <;> simp [h]
  rw [Dev.tileCmd_eq]
  have hrange : ¬ (fld w 6 4 ≠ 1 ∧ fld w 6 4 ≠ 2 ∨ (s.tile (cmdTile core w)).state = .retired) := by simp only [hret, or_false]; omega
  exact (if_neg hrange).trans (if_pos h)

theorem Dev.tileCmd_offline (hop : fld w 6 4 = 1) (h : (s.tile (cmdTile core w)).state = .idle) :
    s.tileCmd core.ch.val (core.cl.val * 8 + core.co.val) w =
      (s.modTile (cmdTile core w) fun t => { t with offline := true }).tileReply core.ch.val (core.cl.val * 8 + core.co.val) w Code.OK := by
  rw [Dev.tileCmd_eq]
  simp [hop, h]

theorem Dev.tileCmd_online (hop : fld w 6 4 = 2) (h : (s.tile (cmdTile core w)).state = .idle ∨ (s.tile (cmdTile core w)).state = .ready) :
    s.tileCmd core.ch.val (core.cl.val * 8 + core.co.val) w =
      (s.modTile (cmdTile core w) fun t => { t with offline := false }).tileReply core.ch.val (core.cl.val * 8 + core.co.val) w Code.OK := by
  rw [Dev.tileCmd_eq]
  rcases h with h | h <;> simp [hop, h]

end

theorem exec_arrTcmd_granted {s : State} {fn : Fn} {core : CoreRef} {w : Word}
    (hw : s.m.Writes fn ⟨.arr, core.ch.val, core.cl.val * 8 + core.co.val⟩ Off.ARR_TCMD) :
    exec (.arrTcmd fn core w) s = s.done (s.m.tileCmd core.ch.val (core.cl.val * 8 + core.co.val) w) := by
  have hv : Page.valid ⟨.arr, core.ch.val, core.cl.val * 8 + core.co.val⟩ = true := by
    simp [Page.valid]; omega
  rw [exec_arrTcmd, Dev.put_granted hv (by decide) (by decide) hw, Dev.pageWrite_tileCmd]

/-- What ARR_TCMD_STA shows after a reply with a code, and that nothing else but what came before it has changed. -/
structure TileReplied (s r : State) (core : CoreRef) (w : Word) (code : Nat) : Prop where
  status : r.m.rd .arr core.ch.val (core.cl.val * 8 + core.co.val) Off.ARR_TCMD_STA = BitVec.ofNat 32 (code + fld w 3 0 * 256)
  regs : SameRegs s r (· = pageOff .arr core.ch.val (core.cl.val * 8 + core.co.val) Off.ARR_TCMD_STA)
  bytes : SameBytes s r

theorem tileReplied_tileReply (s : State) {m : Dev} (hregs : ∀ a, m.reg a = s.m.reg a) (hbytes : ∀ a, m.byte a = s.m.byte a) (core : CoreRef)
    (w : Word) (code : Nat) :
    TileReplied s { s with m := m.tileReply core.ch.val (core.cl.val * 8 + core.co.val) w code } core w code where
  status := Dev.wr_rd_same ..
  regs a ha := (Dev.wr_reg_other _ ha _).trans (hregs a)
  bytes a := (Dev.wr_get_byte ..).trans (hbytes a)

theorem Dev.Settled.tileReply {m : Dev} (h : m.Settled) (ch co : Nat) (w : Word) (code : Nat) : (m.tileReply ch co w code).Settled :=
  h.of_chans (Dev.wr_chans ..)

/-- A command refused leaves no trace but its code. -/
theorem answers_tileCmd_refused {s : State} {fn : Fn} {core : CoreRef} {w : Word} {code : Nat} (hs : s.m.Settled)
    (hw : s.m.Writes fn ⟨.arr, core.ch.val, core.cl.val * 8 + core.co.val⟩ Off.ARR_TCMD)
    (hm : s.m.tileCmd core.ch.val (core.cl.val * 8 + core.co.val) w = s.m.tileReply core.ch.val (core.cl.val * 8 + core.co.val) w code) :
    Answers (.arrTcmd fn core w) s fun r => SameWork s r ∧ TileReplied s r core w code :=
  answers_done ((exec_arrTcmd_granted hw).trans (congrArg s.done hm)) (hs.tileReply ..)
    ⟨sameWork_setReg .., tileReplied_tileReply s (fun _ => rfl) (fun _ => rfl) core w code⟩

/-- A command taken at once changes its tile, and no other. -/
theorem answers_tileCmd_taken {s : State} {fn : Fn} {core : CoreRef} {w : Word} {k : Nat} {f : Tile → Tile} (hs : s.m.Settled)
    (hw : s.m.Writes fn ⟨.arr, core.ch.val, core.cl.val * 8 + core.co.val⟩ Off.ARR_TCMD)
    (hm : s.m.tileCmd core.ch.val (core.cl.val * 8 + core.co.val) w =
      (s.m.modTile k f).tileReply core.ch.val (core.cl.val * 8 + core.co.val) w Code.OK) :
    Answers (.arrTcmd fn core w) s fun r => r.m.tile k = f (s.m.tile k) ∧ TileReplied s r core w Code.OK ∧
      ∀ j, j ≠ k → r.m.tile j = s.m.tile j := by
  have hset : (s.m.modTile k f).Settled := hs
  refine answers_done ((exec_arrTcmd_granted hw).trans (congrArg s.done hm)) (hset.tileReply ..)
    ⟨?_, tileReplied_tileReply s (m := s.m.modTile k f) (fun _ => rfl) (fun _ => rfl) core w _, fun j hj => ?_⟩
  · exact (Dev.wr_get_tile ..).trans (Dev.modTile_same ..)
  · exact (Dev.wr_get_tile ..).trans (Dev.modTile_other _ hj f)

theorem Answers.imp {c : Instr} {s : State} {P Q : State → Prop} (h : Answers c s P) (hpq : ∀ r, P r → Q r) : Answers c s Q := by
  obtain ⟨r, hc, hp⟩ := h
  exact ⟨r, hc, hpq r hp⟩

/-- Settles O31: a run's start, its lateness and its end, and the commands of a tile. -/
theorem tilesAreServiced : Obligations.TilesAreServiced := by
  unfold Obligations.TilesAreServiced
  refine ⟨?_, ?_⟩
  · intro s core hs b
    exact ⟨fun fn hw hdue hrun => answers_bkgCmd_ok hs hw hdue hrun, fun fn hw hbusy => answers_bkgCmd_busy hs hw hbusy,
    fun hr hdue hrun hlate hwait hrec => answers_bkgLate hs hr hdue hrun hlate hwait hrec,
    fun l hp hrun hdone => does_blockingRunDone l hp hrun hdone,
    fun c hp hrun hdone htile hconv hdriver hrow hprog hret => answers_blockingRunDone hs hp hrun hdone htile hconv hdriver hrow hprog hret⟩
  intro s fn core w hs co hw k t shows
  have hshows : ∀ r code, TileReplied s r core w code → shows r code := fun r code hr => ⟨hr.status, hr.regs, hr.bytes⟩
  refine ⟨fun h => ?_, fun hop h => ?_, fun hop h => ?_, fun hop h => ?_⟩
  · exact (answers_tileCmd_refused hs hw (Dev.tileCmd_range h.symm)).imp fun r ⟨hsame, hr⟩ => ⟨hsame, hshows _ _ hr⟩
  · exact (answers_tileCmd_refused hs hw (Dev.tileCmd_busy hop h)).imp fun r ⟨hsame, hr⟩ => ⟨hsame, hshows _ _ hr⟩
  · exact (answers_tileCmd_taken hs hw (Dev.tileCmd_offline hop h)).imp fun r ⟨hk, hr, hj⟩ => ⟨hk, hshows _ _ hr, hj⟩
  · exact (answers_tileCmd_taken hs hw (Dev.tileCmd_online hop h)).imp fun r ⟨hk, hr, hj⟩ => ⟨hk, hshows _ _ hr, hj⟩

end Sys2Proof.Machine
end


section
/-! What follows a command of the engines that form sums (R359, R378): collectives take their leaves, and changes of fault state have their
effects. Neither touches a tile, unless LONG_SUM is raised or a sequence ends. -/

namespace Sys2Proof.Machine
open Sys2Proof

/-- A predicate that lasts through what follows a command: it does not feel updates that leave the tiles, the settings in force and the
sequences alone, it lasts through updates of a sequence that make no status word due and through LONG_SUM, and it holds where a sequence ends. -/
structure Dev.FollowKeeps (P : Dev → Prop) : Prop where
  same : ∀ {t u : Dev}, P t → u.tiles = t.tiles → u.eff = t.eff → u.seqs = t.seqs → P u
  modSeq : ∀ {t : Dev} {r : Nat} {f : Seq → Seq}, P t → (∀ q, (f q).swDue = q.swDue) → P (t.modSeq r f)
  note : ∀ (t : Dev) (r : Nat) (irq : Bool), P (t.note r irq)
  markLong : ∀ {t : Dev} {ch : Nat} (ctx layer n : Nat), ch < 8 → P t → P (t.markLong ch ctx layer n)

namespace Dev.FollowKeeps
open Dev.RaiseKeeps (branch)
variable {P : Dev → Prop} {t u : Dev} (h : Dev.FollowKeeps P)

theorem foldl {α : Type} {f : Dev → α → Dev} (hf : ∀ (u : Dev) a, P u → P (f u a)) (l : List α) (ht : P t) : P (l.foldl f t) := by
  induction l generalizing t with
  | nil => exact ht
  | cons a l ih => exact ih (hf t a ht)

include h

/-! ### Single updates -/

theorem modChan (ch : Nat) (f : Chan → Chan) (ht : P t) : P (t.modChan ch f) := h.same ht rfl rfl rfl

theorem putNode (c : Nat) (key : NodeKey) (n : TreeNode) (ht : P t) : P (t.putNode c key n) := h.same ht rfl rfl rfl

theorem setEnt (r o n v : Nat) (ht : P t) : P (t.setEnt r o n v) := h.same ht rfl rfl rfl

theorem bump (k : PageKind) (ch i o n : Nat) (ht : P t) : P (t.bump k ch i o n) :=
  h.same ht (Dev.bump_tiles ..) (Dev.bump_eff ..) (Dev.bump_seqs ..)

theorem emit (o : Out) (ht : P t) : P (t.emit o) := h.same ht (Dev.emit_tiles ..) (Dev.emit_eff ..) (Dev.emit_seqs ..)

theorem freeFrames (fs : List Frame) (ht : P t) : P (t.freeFrames fs) := by
  refine foldl (fun u f hu => ?_) fs ht
  unfold Dev.freeFrame
  split <;> exact h.same hu rfl rfl rfl

/-! ### Sequences that a broken object ends (R203, R330, R391) -/

theorem freeBeyond (r len : Nat) (count : Bool) (ht : P t) : P (t.freeBeyond r len count) := by
  unfold Dev.freeBeyond
  split
  · exact ht
  · dsimp only
    split
    · refine h.bump _ _ _ _ _ (h.modSeq (h.freeFrames _ ht) fun _ => ?_)
      rfl
    · exact h.modSeq (h.freeFrames _ ht) fun _ => rfl

theorem abandon (r : Nat) (ht : P t) : P (t.abandon r) := by
  have hdrop : P (t.dropStep r) := by
    unfold Dev.dropStep
    split
    · exact ht
    · dsimp only
      split
      · exact h.modSeq (h.freeFrames _ ht) fun _ => rfl
      · exact h.setEnt _ _ _ _ (h.freeBeyond _ _ _ (h.modSeq (h.freeFrames _ ht) fun _ => rfl))
  have habsent : P ((t.dropStep r).absentAll r) := by
    unfold Dev.absentAll
    exact h.modSeq (h.freeFrames _ hdrop) fun _ => rfl
  exact branch habsent hdrop

theorem endSeq (r why code : Nat) (onTok : Bool) (ht : P t) : P (t.endSeq r why code onTok) := by
  obtain he | ⟨u, irq, he⟩ := t.endSeq_cases r why code onTok
  · rwa [he]
  · exact he ▸ h.note u r irq

theorem failSeq (r code : Nat) (ht : P t) : P (t.failSeq r code) := by
  unfold Dev.failSeq
  exact h.endSeq _ _ _ _ (branch (h.bump _ _ _ _ _ (h.bump _ _ _ _ _ ht)) ht)

theorem stepFail (r code : Nat) (ht : P t) : P (t.stepFail r code) := by
  unfold Dev.stepFail
  split
  · exact ht
  · dsimp only
    split
    · exact h.failSeq _ _ (h.modSeq (h.abandon r ht) fun _ => rfl)
    · exact h.modSeq (h.abandon r ht) fun _ => rfl

theorem breakObj (ch o code : Nat) (ht : P t) : P (t.breakObj ch o code) := by
  have hfail (u : Dev) (w : SyWait) (hu : P u) : P (u.failWait code w) := by
    unfold Dev.failWait
    split
    · exact hu
    · exact branch hu (branch (h.stepFail _ _ hu) (h.failSeq _ _ (h.abandon _ hu)))
  unfold Dev.breakObj
  have hcount : P ((t.modObj ch o fun x => { x with state := 2, code := code, waits := [] }).syBump ch Off.SYN_BROKEN 1) :=
    h.bump _ _ _ _ _ (h.same ht rfl rfl rfl)
  exact foldl hfail _ (branch (h.bump _ _ _ _ _ hcount) hcount)

/-! ### Messages (R350, R360, R362) -/

theorem queueMsg (ch p : Nat) (st : Option Nat) (m : FabMsg) (ht : P t) : P (t.queueMsg ch p st m) := by
  have hpump (n : Nat) : ∀ {t : Dev}, P t → P (t.pump ch p n) := by
    induction n with
    | zero => exact id
    | succ n ih => exact fun ht => branch ht (ih (foldl (fun u _ hu => h.emit _ hu) _ (h.bump _ _ _ _ _ (h.same ht rfl rfl rfl))))
  exact hpump 128 (h.same ht rfl rfl rfl)

theorem sendTo {ch node dstCh : Nat} {stream : Option Nat} {m : FabMsg} (ht : P t) (hu : t.sendTo ch node dstCh stream m = some u) : P u := by
  unfold Dev.sendTo at hu
  split at hu
  · exact absurd hu (by simp)
  · dsimp only at hu
    split at hu
    · exact absurd hu (by simp)
    · obtain rfl := Option.some.inj hu
      refine h.queueMsg _ _ _ _ ?_
      split
      · exact h.same ht rfl rfl rfl
      · exact ht

theorem send (ch node dstCh : Nat) (m : FabMsg) (ht : P t) : P (t.send ch node dstCh m) := by
  unfold Dev.send
  cases hs : t.sendTo ch node dstCh none m with
  | none => exact ht
  | some u => exact h.sendTo ht hs

theorem sendStream {ch node dstCh st : Nat} {m : FabMsg} (ht : P t) (hu : t.sendStream ch node dstCh st m = some u) : P u := by
  unfold Dev.sendStream at hu
  split at hu
  · exact Option.some.inj hu ▸ h.same ht rfl rfl rfl
  · obtain ⟨v, hv, rfl⟩ := Option.map_eq_some_iff.1 hu
    exact h.same (h.sendTo ht hv) rfl rfl rfl

theorem sendWrites {ch ctx st : Nat} (n : Nat) : ∀ {t : Dev} {dst : Word64} {data : List Byte}, P t →
    t.sendWrites ch ctx st dst data n = some u → P u := by
  induction n with
  | zero => exact fun ht hu => Option.some.inj hu ▸ ht
  | succ n ih =>
    intro t dst data ht hu
    rw [Dev.sendWrites] at hu
    split at hu
    · exact Option.some.inj hu ▸ ht
    · split at hu
      next v hv =>
        unfold Dev.sendWrite at hv
        split at hv
        · exact absurd hv (by simp)
        · obtain ⟨w, hw, rfl⟩ := Option.map_eq_some_iff.1 hv
          refine ih ?_ hu
          exact h.same (h.sendStream ht hw) rfl rfl rfl
      next => exact absurd hu (by simp)

theorem sendColl {c : Coll} {target level : Nat} (ht : P t) (hu : t.sendColl c target level = some u) : P u := by
  unfold Dev.sendColl at hu
  dsimp only at hu
  split at hu
  · split at hu
    · exact absurd hu (by simp)
    · next v hv =>
      split at hu
      · exact absurd hu (by simp)
      · next w hw => exact h.sendStream (h.sendStream (h.sendWrites _ ht hv) hw) hu
  · exact absurd hu (by simp)

/-! ### Collectives (R359, R362) -/

theorem collBreak (c : Coll) (code : Nat) (ht : P t) : P (t.collBreak c code) := by
  have hrun : P ((t.dropColl c.o.ch.val c.o).evfBump c.o.ch.val Off.EVF_COLLFAIL 1) := h.bump _ _ _ _ _ (h.same ht rfl rfl rfl)
  unfold Dev.collBreak
  dsimp only
  split
  · exact branch (h.breakObj _ _ _ hrun) hrun
  · exact hrun

theorem noticeRoot (c : Coll) (code : Nat) (ht : P t) : P (t.noticeRoot c code) := by
  have hall (ps : List Nat) : P (t.failAll c code ps) := by
    refine foldl (fun u i hu => ?_) ps ht
    split
    · exact h.send _ _ _ _ hu
    · exact hu
  unfold Dev.noticeRoot
  split
  · exact branch ht (h.collBreak _ _ (hall _))
  · split
    · exact h.send _ _ _ _ ht
    · exact ht

theorem countMerges (core : CoreRef) (key : NodeKey) (n : Nat) (m : Merged) (ht : P t) : P (t.countMerges core.ix key n m) := by
  have hch : coreCh core.ix < 8 := by simp only [coreCh, CoreRef.ix]; omega
  unfold Dev.countMerges
  dsimp only
  split
  · exact h.bump _ _ _ _ _ (h.bump _ _ _ _ _ ht)
  · exact h.markLong _ _ _ hch (h.bump _ _ _ _ _ ht)
  · exact h.bump _ _ _ _ _ ht

theorem releaseColl (c : Coll) (ht : P t) : P (t.releaseColl c) := by
  have hroot := h.putNode c.o.core.ix (c.o.key.at 4) ⟨0, [], c.val⟩ ht
  refine foldl (fun u l hu => ?_) _ (h.same (h.bump .evfCh c.o.ch.val 0 Off.EVF_COLL 1 hroot) rfl rfl rfl)
  cases hs : u.sendColl c (c.me + 2 ^ l) 15 with
  | none => exact hu
  | some v => exact h.sendColl hu hs

theorem collStep (n : Nat) : ∀ {t : Dev} (c : Coll), P t → P (t.collStep c n) := by
  induction n with
  | zero => exact fun c ht => h.same ht rfl rfl rfl
  | succ n ih =>
    intro t c ht
    unfold Dev.collStep
    split
    · exact h.same ht rfl rfl rfl
    · split
      · exact ih _ (h.countMerges _ _ _ _ ht)
      · exact h.same ht rfl rfl rfl
    · refine branch (h.same ht rfl rfl rfl) (branch (h.releaseColl c ht) ?_)
      split
      · next u hu => exact h.same (h.sendColl ht hu) rfl rfl rfl
      · exact h.collBreak _ _ ht

theorem feedColls (ht : P t) : P t.feedColls := by
  refine foldl (fun u ch hu => foldl (fun u c hu => ?_) _ hu) _ ht
  unfold Dev.feedColl
  refine branch hu ?_
  split
  · exact h.collStep 16 _ (h.same hu rfl rfl rfl)
  · exact hu

/-! ### Settling (R378, R384, R393) -/

theorem haltWords (ch : Nat) (ht : P t) : P (t.haltWords ch) :=
  branch ht (foldl (fun _ _ hu => branch (branch (h.emit _ (h.emit _ hu)) (h.emit _ hu)) hu) _ ht)

theorem noteReady (was : Bool) (ht : P t) : P (t.noteReady was) := by
  have hdraw : P (t.draw 256).1 := h.same ht rfl rfl rfl
  have hpost : P ((t.draw 256).1.raiseIbi 8 3 1 0 (t.draw 256).2) := by
    unfold Dev.raiseIbi Dev.postIbi
    have htgt : ∀ f g, P (((t.draw 256).1.modMgt 8 f).modMgt 8 g) := fun f g => h.same hdraw rfl rfl rfl
    exact branch (branch (h.emit _ (htgt _ _)) (htgt _ _)) (h.same hdraw rfl rfl rfl)
  exact branch hpost ht

theorem dropFabric (ch : Nat) (ht : P t) : P (t.dropFabric ch) := by
  unfold Dev.dropFabric
  exact h.modChan _ _ (h.bump _ _ _ _ _ (foldl (fun u c hu => branch (h.noticeRoot c _ hu) hu) _ ht))

theorem settleCh (ch : Nat) (ht : P t) : P (t.settleCh ch) := by
  have hhalted : ∀ {u : Dev}, P u → P (((u.haltWords ch).noteReady (u.chReady ch)).modChan ch fun c => { c with placeDue := true }) :=
    fun hu => h.modChan _ _ (h.noteReady _ (h.haltWords ch hu))
  have hsync : ∀ {u : Dev}, P u → P (u.dropSync ch) := fun hu =>
    foldl (fun u _ hu => h.bump _ _ _ _ _ hu) _ (h.bump _ _ _ _ _ (h.modChan _ _ hu))
  have hscratch : ∀ {u : Dev}, P u → P (u.dropScratch ch) := fun hu => h.same hu rfl rfl rfl
  have hundue := h.modChan ch (fun c => { c with safeDue := false, haltDue := false, noticeDue := false }) ht
  have hsafe := branch (c := (t.chan ch).safeDue = true) (hscratch (hsync (h.dropFabric ch hundue))) hundue
  have hhalt := branch (c := (t.chan ch).haltDue = true) (hhalted hsafe) hsafe
  exact branch (c := (t.chan ch).noticeDue = true) (foldl (fun u _ hu => branch (h.queueMsg _ _ _ _ hu) hu) _ hhalt) hhalt

theorem settle (ht : P t) : P t.settle := by
  have hfor (n : Nat) : ∀ {t : Dev}, P t → P (t.settleFor n) := by
    induction n with
    | zero => exact fun ht => h.same ht rfl rfl rfl
    | succ n ih => exact fun ht => branch (ih (foldl (fun u ch hu => h.settleCh ch hu) _ ht)) ht
  exact hfor 16 ht

end Dev.FollowKeeps

/-! ### Tiles (R154, R159) -/

/-- No status word is due, and LONG_SUM is off in every channel. -/
structure Dev.Calm (m : Dev) : Prop where
  unsaid : m.Unsaid
  silent : ∀ ch, ch < 8 → m.inForce .accCh ch 0 Off.ACC_CTL 0 0 = 0

theorem Dev.Calm.of_eq {t u : Dev} (h : u.Calm) (heff : u.eff = t.eff) (hseqs : u.seqs = t.seqs) : t.Calm where
  unsaid r := by simpa only [Dev.seq, hseqs] using h.unsaid r
  silent ch hch := by simpa only [Dev.inForce, heff] using h.silent ch hch

/-- A module that is calm now was calm at `s`, and has its tiles. -/
def Dev.TilesOf (s t : Dev) : Prop := t.Calm → s.Calm ∧ t.tiles = s.tiles

theorem Dev.TilesOf.same {s t u : Dev} (ht : s.TilesOf t) (htiles : u.tiles = t.tiles) (heff : u.eff = t.eff) (hseqs : u.seqs = t.seqs) :
    s.TilesOf u :=
  fun hcalm => (ht (hcalm.of_eq heff hseqs)).imp_right htiles.trans

/-- No raise changes the settings in force or a sequence. -/
theorem Dev.raiseKeeps_settings (s : Dev) : Dev.RaiseKeeps fun m => m.eff = s.eff ∧ m.seqs = s.seqs where
  setReg _ _ hm := hm
  modChan _ _ hm := hm
  modTile _ _ hm := hm
  modClus _ _ hm := hm
  modMgt _ _ hm := hm
  emit _ hm := ⟨(Dev.emit_eff ..).trans hm.1, (Dev.emit_seqs ..).trans hm.2⟩
  safeState _ hm := hm

/-- Where LONG_SUM is raised, the module is not calm. -/
theorem Dev.TilesOf.markLong {s t : Dev} (ht : s.TilesOf t) {ch : Nat} (ctx layer n : Nat) (hch : ch < 8) :
    s.TilesOf (t.markLong ch ctx layer n) := by
  unfold Dev.markLong
  dsimp only
  refine Dev.RaiseKeeps.branch ht ?_
  generalize hm : (t.wrF .accCh ch 0 Off.ACC_CH_STA 0 0 1).bump .accCh ch 0 Off.ACC_XUNB n = m
  have hmarked : s.TilesOf m := by
    rw [← hm]
    have hsta : s.TilesOf (t.wrF .accCh ch 0 Off.ACC_CH_STA 0 0 1) := ht.same (Dev.wrF_tiles ..) (Dev.wrF_eff ..) (Dev.wrF_seqs ..)
    exact hsta.same (Dev.bump_tiles ..) (Dev.bump_eff ..) (Dev.bump_seqs ..)
  split
  · next hon =>
    have hraise (f : Chan → Chan) : ((m.modChan ch f).raise ch 30).eff = m.eff ∧ ((m.modChan ch f).raise ch 30).seqs = m.seqs :=
      (Dev.raiseKeeps_settings m).raiseAt ch 30 false .none [] ⟨rfl, rfl⟩
    obtain ⟨heff, hseqs⟩ := hraise fun x => { x with longSum := (ctx * 65536 + layer) :: x.longSum }
    exact fun hcalm => absurd (hon.1.symm.trans ((hcalm.of_eq heff hseqs).silent ch hch)) (by decide)
  · exact hmarked

theorem Dev.followKeeps_tilesOf (s : Dev) : Dev.FollowKeeps s.TilesOf where
  same ht htiles heff hseqs := ht.same htiles heff hseqs
  modSeq {t r f} ht hf hcalm := by
    refine ht ⟨fun j => ?_, hcalm.silent⟩
    have hj := hcalm.unsaid j
    by_cases hjr : j = r
    · subst hjr; simpa [hf] using hj
    · simpa [Dev.modSeq_other t hjr] using hj
  note t r irq hcalm := absurd hcalm.unsaid (t.note_not_unsaid r irq)
  markLong ctx layer n hch ht := ht.markLong ctx layer n hch

/-- What follows a command leaves every tile as it was, if it ends calm. -/
theorem Dev.follow_tiles {m : Dev} (h : m.feedColls.settle.Calm) : m.feedColls.settle.tiles = m.tiles :=
  (m.followKeeps_tilesOf.settle (m.followKeeps_tilesOf.feedColls fun hm => ⟨hm, rfl⟩) h).2

end Sys2Proof.Machine
end


section
/-! A group that is released when a leaf enters another one (O32, O33): the reduction it passes its root to may turn out broken, and the
containment that follows abandons the reads of every tile of the channel. -/

namespace Sys2Proof.Machine
open Sys2Proof

/-- A block of no rows, on tile 0. -/
def emptyBlock : Block where
  row0 := 0
  col0 := 0
  rspan := 0
  cspan := 0
  inFmt := 0
  tFmt := 0
  rowGroup := 256
  colGroup := 256
  gain := 0
  tGain := 0
  planPasses := 0
  resOff := 0
  resN := 0
  w5Off := 0
  tiles := [0]

/-- A layer of that block. -/
def oneBlockLayer : Layer where
  kind := 0
  draft := false
  modelOk := true
  spillOk := true
  splitCh := false
  dup := false
  rows := 0
  cols := 0
  maxReads := 1
  confLim4 := 16
  inScale := F32.one
  wScale := F32.one
  outMul := 0
  rotE := 0
  satLim := 0
  zerLim := 0
  kvFmt := 4
  kvE := 0
  rotSeed := 0
  qkSeed := 0
  vSeed := 0
  tree := 0
  w5Off := 0
  resOff := 0
  resCnt := 0
  vecOff := none
  attKind := 0
  win := 0
  glbMode := 0
  glbStride := 1
  ng := 0
  hKv := 1
  g := 1
  dH := 64
  hpc := 1
  segLen := 0
  qblk := 0
  qfmt := 3
  bfmt := 0
  smScale := F32.one
  moeK := 0
  nExpert := 0
  stateBytes := 0
  blocks := [emptyBlock]
  spill := false
  switched := false
  inPlace := false
  programming := false

/-- A pattern of that layer. -/
def oneLayerPattern : Pattern where
  maxLen := 4096
  vocab := 16
  chunk := 0
  draftLim := 0
  layers := [oneBlockLayer]
  trees := []
  w5 := 0
  w5Size := 0
  resid := 0
  residSize := 0
  vectors := 0
  vectorsSize := 0
  embed := 0
  embedSize := 0
  img := []
  imgAddr := 0
  imgSize := 0

/-- A descriptor for the slice of tile 0, under execution 1 and for group 0. -/
def transposeDesc : MvmDesc := ⟨0, 1, none, 0, 0, 0⟩

/-- A transpose read that waits for its pounce share. -/
def waitingRead : Mvm where
  d := transposeDesc
  inp := ⟨[], []⟩
  transpose := true
  exact := true
  bits := 0
  gain := 0
  sums := []
  wOff := 0
  pSum := 0
  slots := 0
  sat := 0
  bandSat := false
  reads := 1
  pounce := false
  vals := []
  failed := false
  lowConf := false
  drift := []
  dOff := []
  phase := .waiting

/-- An execution of transpose reads, accepted from its start. -/
def transposeExecution : Exec where
  id := 1
  transpose := true
  ctx := 0
  layer := 0
  seq := none
  fmt := 0
  gainUp := 0
  xs := []
  nElem := 0
  counts := []
  convSat := 0
  anySat := false
  ovf := false
  mvms := 1
  seen := 0
  asked := false
  bad8 := false
  accepted := true
  repeated := false
  issued := 0
  snap := []
  snapMvms := []

/-- The descriptor of the layer's reduction, whose check word does not hold. -/
def brokenTree : TreeDesc := ⟨0, 0, false, 0, [0], 0⟩

/-- A module whose core 0 holds group 1 for its reduction, while group 0 of the same execution is open for two leaves. The row converters of
tile 0 are bad; tiles 0 and 1 each have a read that waits. LONG_SUM is off in every channel. -/
def heldGroup : Dev :=
  { Dev.reset with
    vin := true
    eff := (List.range 8).map fun ch => (pageOff .accCh ch 0 Off.ACC_CTL, 0)
    tiles := [
      (0, { Tile.fresh .ready with slices := [sliceOf 0 0 false emptyBlock none], mvms := [waitingRead], transBad := true }),
      (1, { Tile.fresh .ready with mvms := [waitingRead] })]
    cores := [(0, { Core.fresh with
      groups := [
        (0, { Group.fresh with state := .opened, nLeaf := 2, vecs := 1, exec := 1 }),
        (1, { Group.fresh with state := .held, dest := .node, exec := 1 })]
      execs := [transposeExecution] })]
    ctxs := [(0, { Ctx.fresh with pat := some oneLayerPattern })]
    trees := [brokenTree] }

def tile0 : TileRef := ⟨0, 0, 0, 0⟩

theorem heldGroup_running : heldGroup.running tile0.ch.val = true := by decide +kernel

theorem heldGroup_serving : heldGroup.serving tile0.ix = 0 := by decide +kernel

theorem heldGroup_tileServes : heldGroup.tileServes 0 = 0 := by decide +kernel

theorem heldGroup_transOk : heldGroup.transOk 0 = false := by decide +kernel

theorem heldGroup_read : (heldGroup.tile 1).mvms = [waitingRead] := rfl

/-- A module is calm where it has no sequence and LONG_SUM is off. -/
theorem Dev.calm_of_noSeqs {m : Dev} (hseqs : m.seqs = []) (hsilent : ∀ ch, ch < 8 → m.inForce .accCh ch 0 Off.ACC_CTL 0 0 = 0) : m.Calm :=
  ⟨fun r => by rw [Dev.seq, hseqs]; rfl, hsilent⟩

theorem Dev.tile_of_tiles {m n : Dev} (h : m.tiles = n.tiles) (j : Nat) : m.tile j = n.tile j := by rw [Dev.tile, h, Dev.tile]

/-- A command that changes the reads of a tile and leaves the module calm does not form what keeps that tile. -/
theorem not_forms_of_mvms {c : Instr} {s : State} {m : Dev} {P : State → Prop} {j : Nat} (hexec : exec c s = s.doneTree m)
    (hcalm : m.feedColls.settle.Calm) (hmvms : (m.feedColls.settle.tile j).mvms ≠ (s.m.tile j).mvms) (hp : ∀ r, P r → r.m.tile j = s.m.tile j) :
    ¬ Forms c s P := by
  rintro ⟨n, hn, hpn⟩
  rw [hexec, State.doneTree, State.done] at hn
  have hend : m.feedColls.settle = n.feedColls.settle := (State.mk.inj (Host.Outcome.next.inj hn)).2
  rw [hend] at hcalm hmvms
  exact hmvms (congrArg Tile.mvms ((Dev.tile_of_tiles (Dev.follow_tiles hcalm) j).trans (hp _ hpn)))

/-- The reads of tile 1 are gone from a calm module. -/
def Dev.readAbandoned (m : Dev) : Bool :=
  m.seqs.isEmpty && (List.range 8).all (fun ch => m.inForce .accCh ch 0 Off.ACC_CTL 0 0 = 0) && (m.tile 1).mvms.isEmpty

/-- A command that abandons the read of tile 1 does not form what keeps that tile. -/
theorem not_forms_of_readAbandoned {c : Instr} {m : Dev} {P : State → Prop}
    (hexec : exec c ⟨[], heldGroup⟩ = State.doneTree ⟨[], heldGroup⟩ m)
    (hgone : m.feedColls.settle.readAbandoned = true) (hp : ∀ r, P r → r.m.tile 1 = heldGroup.tile 1) : ¬ Forms c ⟨[], heldGroup⟩ P := by
  simp only [Dev.readAbandoned, Bool.and_eq_true, List.isEmpty_iff, List.all_eq_true, List.mem_range, decide_eq_true_eq] at hgone
  obtain ⟨⟨hseqs, hsilent⟩, hmvms⟩ := hgone
  refine not_forms_of_mvms hexec (Dev.calm_of_noSeqs hseqs hsilent) (j := 1) ?_ hp
  rw [hmvms, heldGroup_read]
  exact (List.cons_ne_nil _ _).symm

/-! ### Transpose work on the PAE (R56, R142, R378) -/

theorem exec_transposeRead (tile : TileRef) (d : MvmDesc) (dev : AnalogDev) (s : State) :
    exec (.transposeRead tile d dev) s = s.doneTree (s.m.only (s.m.running tile.ch.val) fun m => m.transposeStart tile.ix d dev) := rfl

/-- The leaf of the PAE has group 1 released too, and channel 0 is contained. -/
theorem transposeStart_abandons : (heldGroup.transposeStart tile0.ix transposeDesc []).feedColls.settle.readAbandoned = true := by decide +kernel

/-- The group that the leaf is for is open, and waits for one more after it. -/
theorem heldGroup_awaits : heldGroup.Awaits 0 0 0 0 0 := by unfold Dev.Awaits Dev.Records; decide +kernel

/-- Refutes O32: the leaf of a transpose read on the PAE may end in the containment of its channel. The execution was accepted before, so
another of its groups is released at the leaf, and the descriptor of the reduction that it enters fails its check (R150): every tile of the
channel loses its reads, so the tiles do not stay. -/
theorem not_readsAreQueued : ¬ Obligations.ReadsAreQueued := by
  unfold Obligations.ReadsAreQueued
  intro h
  obtain ⟨-, -, hpae, -⟩ := h ⟨[], heldGroup⟩ tile0 transposeDesc [] heldGroup_running
  simp only [heldGroup_serving, heldGroup_tileServes] at hpae
  refine not_forms_of_readAbandoned ?_ transposeStart_abandons (fun r hr => ?_) (hpae (sliceOf 0 0 false emptyBlock none) transposeExecution
    oneBlockLayer emptyBlock oneLayerPattern rfl rfl heldGroup_transOk (by decide +kernel) rfl
    (by decide +kernel) (by decide +kernel) (by decide +kernel) heldGroup_awaits)
  · rw [exec_transposeRead, heldGroup_running, Dev.only_true]
  · obtain ⟨-, htiles, -⟩ := hr
    exact Dev.tile_of_tiles htiles 1

/-! ### The pounce share of a read (R55, R142, R378) -/

theorem exec_pounceShareDone (share : PounceShare) (s : State) :
    exec (.pounceShareDone share) s = s.doneTree (s.m.only (s.m.running share.tile.ch.val) fun m => m.pounceDone share.tile.ix share.late) := rfl

/-- The leaf of the read has group 1 released too, and channel 0 is contained. -/
theorem pounceDone_abandons : (heldGroup.pounceDone tile0.ix 0).feedColls.settle.readAbandoned = true := by decide +kernel

/-- Refutes O33: the leaf that a pounce share lets enter its group may end in the containment of its channel. The execution was accepted
before, so another of its groups is released at the leaf, and the descriptor of the reduction that it enters fails its check (R150): every
other tile of the channel loses its reads too. -/
theorem not_sumsAreCorrected : ¬ Obligations.SumsAreCorrected := by
  unfold Obligations.SumsAreCorrected
  intro h
  obtain ⟨-, hpath⟩ := h ⟨[], heldGroup⟩ tile0 waitingRead (sliceOf 0 0 false emptyBlock none) heldGroup_running
  simp only [heldGroup_serving, heldGroup_tileServes] at hpath
  obtain ⟨-, -, -, hwaits, -⟩ := hpath rfl
  refine not_forms_of_readAbandoned ?_ pounceDone_abandons (fun r hr => ?_) (hwaits 0 rfl rfl heldGroup_awaits)
  · rw [exec_pounceShareDone, heldGroup_running, Dev.only_true]
  · obtain ⟨⟨-, hother, -⟩, -⟩ := hr
    exact hother 1 (by decide)

end Sys2Proof.Machine
end


section
/-! Shadow replay (O35): the counts of a replay stand on the array's core pages and on its channel's COR page, and nothing else changes but the
cluster's shadow. -/

namespace Sys2Proof.Machine
open Sys2Proof

theorem exec_shadowReplay (c : ClusterRef) (dev : AnalogDev) (s : State) :
    exec (.shadowReplay c dev) s = s.done (s.m.only (s.m.running c.ch.val) fun m => m.shadowReplay c.ix dev) := rfl
theorem exec_shadowDigitalCheck (c : ClusterRef) (s : State) :
    exec (.shadowDigitalCheck c) s = s.done (s.m.only (s.m.running c.ch.val) fun m => m.shadowCheck c.ix) := rfl
theorem exec_shadowDwellEnd (c : ClusterRef) (s : State) :
    exec (.shadowDwellEnd c) s = s.done (s.m.only (s.m.running c.ch.val) fun m => m.dwellEnd c.ix) := rfl

theorem clusterRef_ix_div (c : ClusterRef) : c.ix / 8 = c.ch.val := by simp only [ClusterRef.ix]; omega

/-! ### Counts on the core pages of the array (R41, R63) -/

/-- From `s` to `t` only words of the array's core pages have changed, as far as memory, tiles, channels, clusters and COR pages tell. -/
structure Dev.ArrCounted (s t : Dev) : Prop where
  mem : t.mem = s.mem
  tiles : t.tiles = s.tiles
  chans : t.chans = s.chans
  clusters : t.clusters = s.clusters
  cor : ∀ ch o, o < 0x1000 → t.rd .corCh ch 0 o = s.rd .corCh ch 0 o

/-- A word of a core's page is none of a channel's COR page. -/
theorem pageOff_corCh_ne_arr (ch d : Nat) (i : Nat) {o p : Nat} (ho : o < 0x1000) (hp : p < 0x1000) :
    pageOff .corCh ch 0 o ≠ pageOff .arr d i p := by
  simp only [pageOff, Page.base, chanWin]
  omega

namespace Dev.ArrCounted
variable {s t : Dev}

theorem refl (s : Dev) : s.ArrCounted s := ⟨rfl, rfl, rfl, rfl, fun _ _ _ => rfl⟩

theorem wr (h : s.ArrCounted t) (c : Nat) {o : Nat} (ho : o < 0x1000) (w : Word) : s.ArrCounted (t.wr .arr (coreCh c) (coreIn c) o w) where
  mem := (Dev.wr_mem ..).trans h.mem
  tiles := (Dev.wr_tiles ..).trans h.tiles
  chans := (Dev.wr_chans ..).trans h.chans
  clusters := (Dev.wr_clusters ..).trans h.clusters
  cor ch p hp := (Dev.wr_rd_other t (pageOff_corCh_ne_arr ch _ _ hp ho) w).trans (h.cor ch p hp)

theorem bump (h : s.ArrCounted t) (c : Nat) {o : Nat} (ho : o + 4 < 0x1000) (n : Nat) : s.ArrCounted (t.bump .arr (coreCh c) (coreIn c) o n) := by
  unfold Dev.bump
  split
  · exact h
  · exact (h.wr c (by omega) _).wr c ho _

theorem countRead (h : s.ArrCounted t) (k : Nat) (r : ReadRes) : s.ArrCounted (t.countRead k r) :=
  ((h.bump _ (by decide) _).bump _ (by decide) _).bump _ (by decide) _

theorem countSat (h : s.ArrCounted t) (k n : Nat) : s.ArrCounted (t.countSat k n) := by
  unfold Dev.countSat
  split
  · exact h
  · have hplace : Off.ARR_TCSAT + 4 * (t.statusIx k % 132 % 16) < 0x1000 := by unfold Off.ARR_TCSAT; omega
    dsimp only
    split
    · exact h.bump _ (by decide) _
    · exact (h.wr _ hplace _).bump _ (by decide) _

theorem rd64 (h : s.ArrCounted t) (ch : Nat) {o : Nat} (ho : o + 4 < 0x1000) : t.rd64 .corCh ch 0 o = s.rd64 .corCh ch 0 o := by
  rw [Dev.rd64, h.cor ch o (by omega), h.cor ch (o + 4) ho, Dev.rd64]

end Dev.ArrCounted

/-! ### SHADOW_REPLAY (R100, R101) -/

/-- A replay that has been counted: one more in COR_SHD_CMP, and the shadow buffer empty. -/
def Dev.replayCounted (t : Dev) (cl : Nat) : Dev :=
  (t.bump .corCh (cl / 8) 0 Off.COR_SHD_CMP 1).modClus cl fun x => { x with shadow := { x.shadow with sample := none } }

/-- A replay that disagreed: one more in COR_SHD_DIS, and what it found held for the digital check. -/
def Dev.replayHeld (t : Dev) (cl : Nat) (h : List F32 × List F32 × List F32 × List Int) : Dev :=
  (t.bump .corCh (cl / 8) 0 Off.COR_SHD_DIS 1).modClus cl fun x => { x with shadow := { x.shadow with held := some h } }

/-- A replay of the MVM in the shadow buffer is counted, and held where it disagreed. -/
theorem Dev.shadowReplay_cases {s : Dev} {cl : Nat} {m : Mvm} {vs ss : Slice} (hon : s.inForce .corCh (cl / 8) 0 Off.COR_SHD_CTL 0 0 = 1)
    (hvalid : (s.clus cl).shadow.valid = true) (hspare : (s.tile (cl * 132 + 128 + (s.clus cl).shadow.spare)).state = .shadow)
    (hsample : (s.clus cl).shadow.sample = some m)
    (hvic : (s.tile (s.serving (cl * 132 + (s.clus cl).shadow.victim))).slices[m.d.slice.val]? = some vs)
    (hspr : (s.tile (cl * 132 + 128 + (s.clus cl).shadow.spare)).slices[m.d.slice.val]? = some ss) (dev : AnalogDev) :
    ∃ t, s.ArrCounted t ∧
      (s.shadowReplay cl dev = t.replayCounted cl ∨ ∃ h, s.shadowReplay cl dev = (t.replayCounted cl).replayHeld cl h) := by
  have hruns : ¬ (s.inForce .corCh (cl / 8) 0 Off.COR_SHD_CTL 0 0 = 0 ∨ ¬ (s.clus cl).shadow.valid ∨
      (s.tile (cl * 132 + 128 + (s.clus cl).shadow.spare)).state ≠ .shadow) := by simp [hon, hvalid, hspare]
  unfold Dev.shadowReplay
  dsimp only
  rw [if_neg hruns, hsample]
  dsimp only
  rw [hvic, hspr]
  dsimp only
  split
  · exact ⟨_, ((Dev.ArrCounted.refl s).countRead _ _).countSat _ _, .inr ⟨_, rfl⟩⟩
  · exact ⟨_, ((Dev.ArrCounted.refl s).countRead _ _).countSat _ _, .inl rfl⟩

/-- What a counted replay leaves alone, and what it counts. -/
theorem Dev.replayCounted_frame (t : Dev) (cl : Nat) :
    (t.replayCounted cl).mem = t.mem ∧ (t.replayCounted cl).tiles = t.tiles ∧ (t.replayCounted cl).chans = t.chans ∧
    ((t.replayCounted cl).clus cl).shadow = { (t.clus cl).shadow with sample := none } ∧
    (t.rdF .corCh (cl / 8) 0 Off.PG_CTL 0 0 = 0 →
      (t.replayCounted cl).rd64 .corCh (cl / 8) 0 Off.COR_SHD_CMP = (t.rd64 .corCh (cl / 8) 0 Off.COR_SHD_CMP + 1) % 2 ^ 64) :=
  ⟨Dev.bump_mem .., Dev.bump_tiles .., Dev.bump_chans .., by simp [Dev.replayCounted],
    fun hf => Dev.bump_rd64 hf Off.COR_SHD_CMP Nat.one_ne_zero⟩

/-- What holding a replay leaves alone: COR_SHD_CMP keeps its count. -/
theorem Dev.replayHeld_frame (t : Dev) (cl : Nat) (h : List F32 × List F32 × List F32 × List Int) :
    (t.replayHeld cl h).mem = t.mem ∧ (t.replayHeld cl h).tiles = t.tiles ∧ (t.replayHeld cl h).chans = t.chans ∧
    ((t.replayHeld cl h).clus cl).shadow = { (t.clus cl).shadow with held := some h } ∧
    (t.replayHeld cl h).rd64 .corCh (cl / 8) 0 Off.COR_SHD_CMP = t.rd64 .corCh (cl / 8) 0 Off.COR_SHD_CMP := by
  have hword (o : Nat) (ho : o < Off.COR_SHD_DIS) : (t.replayHeld cl h).rd .corCh (cl / 8) 0 o = t.rd .corCh (cl / 8) 0 o :=
    Dev.bump_reg_other t (by simp only [pageOff]; omega) (by simp only [pageOff]; omega)
  exact ⟨Dev.bump_mem .., Dev.bump_tiles .., Dev.bump_chans .., by simp [Dev.replayHeld],
    by rw [Dev.rd64, hword _ (by decide), hword _ (by decide), Dev.rd64]⟩

/-- What a replay of the MVM in the shadow buffer leaves: its sample gone, what it found held at most, and one more in COR_SHD_CMP. -/
structure Dev.Replayed (s r : Dev) (cl : Nat) : Prop where
  mem : r.mem = s.mem
  tiles : r.tiles = s.tiles
  chans : r.chans = s.chans
  count : s.rdF .corCh (cl / 8) 0 Off.PG_CTL 0 0 = 0 →
    r.rd64 .corCh (cl / 8) 0 Off.COR_SHD_CMP = (s.rd64 .corCh (cl / 8) 0 Off.COR_SHD_CMP + 1) % 2 ^ 64
  shadow : ∃ h, (r.clus cl).shadow = { (s.clus cl).shadow with sample := none, held := h } ∧ (h = (s.clus cl).shadow.held ∨ h.isSome = true)

theorem Dev.ArrCounted.replayed {s t : Dev} (h : s.ArrCounted t) (cl : Nat) : s.Replayed (t.replayCounted cl) cl := by
  obtain ⟨hmem, htiles, hchans, hshadow, hcount⟩ := t.replayCounted_frame cl
  have hclus : t.clus cl = s.clus cl := by rw [Dev.clus, h.clusters, Dev.clus]
  refine ⟨hmem.trans h.mem, htiles.trans h.tiles, hchans.trans h.chans, fun hf => ?_, _, hshadow.trans ?_, .inl rfl⟩
  · rw [hcount ((congrArg (fld · 0 0) (h.cor _ _ (by decide))).trans hf), h.rd64 _ (by decide)]
  · rw [hclus]

theorem Dev.Replayed.held {s r : Dev} {cl : Nat} (h : s.Replayed r cl) (x : List F32 × List F32 × List F32 × List Int) :
    s.Replayed (r.replayHeld cl x) cl := by
  obtain ⟨hmem, htiles, hchans, hshadow, hcount⟩ := r.replayHeld_frame cl x
  obtain ⟨y, hy, -⟩ := h.shadow
  refine ⟨hmem.trans h.mem, htiles.trans h.tiles, hchans.trans h.chans, fun hf => hcount.trans (h.count hf), some x, ?_, .inr rfl⟩
  rw [hshadow, hy]

theorem answers_shadowReplay {s : State} {c : ClusterRef} (hs : s.m.Settled) (hrun : s.m.running c.ch.val = true) {dev : AnalogDev}
    (hr : s.m.Replayed (s.m.shadowReplay c.ix dev) c.ix) :
    Answers (.shadowReplay c dev) s fun r => SameBytes s r ∧ r.m.tiles = s.m.tiles ∧
      (s.m.rdF .corCh c.ch.val 0 Off.PG_CTL 0 0 = 0 →
        r.m.rd64 .corCh c.ch.val 0 Off.COR_SHD_CMP = (s.m.rd64 .corCh c.ch.val 0 Off.COR_SHD_CMP + 1) % 2 ^ 64) ∧
      ∃ h, (r.m.clus c.ix).shadow = { (s.m.clus c.ix).shadow with sample := none, held := h } ∧
        (h = (s.m.clus c.ix).shadow.held ∨ h.isSome = true) := by
  refine answers_done (by rw [exec_shadowReplay, hrun, Dev.only_true]) (hs.of_chans hr.chans)
    ⟨fun a => congrArg (·.get 0 a) hr.mem, hr.tiles, ?_, hr.shadow⟩
  simpa only [clusterRef_ix_div] using hr.count

/-! ### SHADOW_DIGITAL_CHECK (R102, R103) -/

theorem Dev.victimCounted_below {s : Dev} {cl : Nat} (h : (s.clus cl).shadow.vicCnt < 2) : s.victimCounted cl = s := if_pos h

theorem Dev.spareCounted_below {s : Dev} {cl : Nat} (h : (s.clus cl).shadow.sprCnt < 2) : s.spareCounted cl = s := if_pos h

/-- Whether the values of a tile differ from the digital ones, as a count, under the variance of the replayed MVM (R102). -/
def digitalDiff (t : Tile) (g p : Int) (codes : List Int) (x dig : List F32) : Nat :=
  (zOver (zSum x dig (sigmaCol2 g.toNat p.toNat (sumSq codes) 1 t.vConv t.vCell) 1) dig.length).toNat

/-- The first check of a shadow's two tiles counts each side at most once, which leads to nothing more yet. -/
theorem Dev.shadowCheck_first {s : Dev} {cl : Nat} {a b dig : List F32} {g p : Int} {codes : List Int}
    (hheld : (s.clus cl).shadow.held = some (a, b, dig, g :: p :: codes)) (hvic : (s.clus cl).shadow.vicCnt = 0)
    (hspr : (s.clus cl).shadow.sprCnt = 0) :
    s.shadowCheck cl = s.modClus cl fun x => { x with shadow := { x.shadow with
      held := none
      vicCnt := x.shadow.vicCnt + digitalDiff (s.tile (s.serving (cl * 132 + (s.clus cl).shadow.victim))) g p codes a dig
      sprCnt := x.shadow.sprCnt + digitalDiff (s.tile (cl * 132 + 128 + (s.clus cl).shadow.spare)) g p codes b dig } } := by
  have hone (t : Tile) (x : List F32) : digitalDiff t g p codes x dig ≤ 1 := Bool.toNat_le _
  unfold Dev.shadowCheck
  dsimp only
  rw [hheld]
  have hbelow : ∀ n, n ≤ 1 → 0 + n < 2 := by omega
  refine Eq.trans (congrArg (Dev.spareCounted · cl) (Dev.victimCounted_below ?_)) (Dev.spareCounted_below ?_)
  · rw [Dev.modClus_same, hvic]
    exact hbelow _ (hone _ a)
  · rw [Dev.modClus_same, hspr]
    exact hbelow _ (hone _ b)

/-! ### SHADOW_DWELL_END (R100) -/

theorem Dev.dwellEnd_passed {s : Dev} {cl : Nat}
    (h : (s.clus cl).shadow.since + 2 ^ s.inForce .corCh (cl / 8) 0 Off.COR_SHD_CTL 20 16 ≤ (s.chan (cl / 8)).plank) :
    s.dwellEnd cl = s.modClus cl fun x => { x with shadow := { x.shadow with dwellEnd := true } } :=
  if_neg (Nat.not_lt.2 h)

/-- An update of a cluster leaves every channel as it was. -/
theorem Dev.Settled.modClus {m : Dev} (h : m.Settled) (cl : Nat) (f : Cluster → Cluster) : (m.modClus cl f).Settled := h

/-- Settles O35: a replay by what it counts and holds, the digital check by its two counts, and the dwell's end by its test. -/
theorem shadowsAreCompared : Obligations.ShadowsAreCompared := by
  unfold Obligations.ShadowsAreCompared
  intro s c hs hrun sh vk sk
  refine ⟨fun dev m vs ss hon hvalid hspare hsample hvic hspr => ?_, fun a b dig g p codes hheld hv hp => ?_, fun h => ?_⟩
  · obtain ⟨t, ht, hcases⟩ := Dev.shadowReplay_cases ((clusterRef_ix_div c).symm ▸ hon) hvalid hspare hsample hvic hspr dev
    refine answers_shadowReplay hs hrun ?_
    obtain hm | ⟨x, hm⟩ := hcases
    · exact hm ▸ ht.replayed c.ix
    · exact hm ▸ (ht.replayed c.ix).held x
  · have hm := Dev.shadowCheck_first hheld hv hp
    refine answers_done (by rw [exec_shadowDigitalCheck, hrun, Dev.only_true, hm]) (hs.modClus ..) ⟨fun _ => rfl, rfl, rfl, ?_⟩
    rw [Dev.modClus_same]
    simp only [sh, vk, sk] at hv hp ⊢
    simp only [hv, hp, Nat.zero_add]
    rfl
  · have hm := Dev.dwellEnd_passed (s := s.m) (cl := c.ix) ((clusterRef_ix_div c).symm ▸ h)
    rw [Gives, exec_shadowDwellEnd, hrun, Dev.only_true, hm]
    exact s.done_of_settled (hs.modClus ..)

end Sys2Proof.Machine
end


section
/-! The end of a drift interval in which one source is raised twice (O34): the second raise acts at its severity for a source whose sticky bit is
set (R373, R374), so the interval's end may contain its channel. -/

namespace Sys2Proof.Machine
open Sys2Proof

/-- A READY tile that has had too few probes in three intervals; a fourth raises PROBE_MISS (R76). -/
def missedTile : Tile := { Tile.fresh .ready with missRun := 3 }

/-- An ABSENT page, which has a leaf in the page table and no frame. -/
def absentPage : PageSt where
  state := .absent
  fmt := 4
  isGlobal := true
  tent := false
  isState := false
  fill := 0
  frames := []
  move := none
  dropping := false
  cur := 0
  curIx := 0

/-- A collective in progress on its root, channel 0, without other participants. -/
def loneCollective : Coll where
  o := {
    ch := 0
    ctx := 0
    collId := 0
    inst := 0
    parts := []
    op := .sum
    vid := 0
    stream := 0
    core := ⟨0, 0, 0⟩
    key := .sum 3 0 0 false 0 0
    data := [] }
  me := 0
  val := none
  have_ := []
  early := []
  sent := false
  retried := false
  done := false

/-- The armed object of that collective, on which a step of sequence 0 waits. -/
def awaitedObject : SyObj where
  state := 1
  count := 0
  target := 1
  ctx := 0
  code := 0
  waits := [⟨0, 1, some ⟨0, 0⟩, false, 0⟩]

/-- The T1 of channel 0. What is set aside for a load covers the working area, whatever the firmware makes that (R194), and the frame after it
is free and was of context 1. -/
def loadedT1 : Mem := { Mem.fresh with t1 := [(16385, ⟨2, false⟩)], ranges := [⟨0, 16385, 0, true⟩] }

/-- A module at the end of channel 0's drift interval. Tiles 0 and 1 each miss their probes for the fourth time, and PG_SEV1 sets PROBE_MISS to
CONTAIN for a raise while its sticky bit is set. Sequence 0 decodes, has had three steps fail within this second, and waits for a collective;
sequence 1 has a page whose leaf is not placed yet. The free frame of T1 holds a byte of context 1. -/
def missingProbes : Dev :=
  { Dev.reset.wrF .corCh 0 0 Off.PG_SEV1 13 12 2 with
    vin := true
    mem := [(tierBase 0 1 + 16385 * frameBytes, 1)]
    mems := [(0, loadedT1)]
    tiles := [(0, missedTile), (1, missedTile)]
    ctxs := [(0, { Ctx.fresh with pat := some oneLayerPattern })]
    rqt := [(Ent.STATE_W, BitVec.ofNat 8 St.DECODE)]
    seqs := [(0, { Seq.fresh with failMs := [0, 0, 0] }), (1, { Seq.fresh with pages := [(0, absentPage)] })]
    chans := [(0, { Chan.fresh with
      driftLeft := 0
      sync := { Sync.fresh with objs := [(16384, awaitedObject)], maps := [(mapKey 0 0, some ⟨16384, 0⟩)] }
      fab := { Fab.fresh with colls := [loneCollective] } })] }

theorem missingProbes_settled : missingProbes.Settled := by unfold Dev.Settled; decide +kernel

theorem missingProbes_running : missingProbes.running 0 = true := by decide +kernel

/-- PROBE_MISS and DRIFT_JUMP act at RECORD as long as they have not been raised. -/
theorem missingProbes_records : missingProbes.Records 0 20 ∧ missingProbes.Records 0 21 := by unfold Dev.Records; decide +kernel

theorem missingProbes_byte : missingProbes.byte (tierBase 0 1 + 16385 * frameBytes) = 1 := by decide +kernel

/-! ### The free frame of `loadedT1` (R190, R191)

The size of the working area is not known, so what takes a frame does not evaluate before the frame it takes is named. -/

theorem freeT1Ix_loadedT1 : freeT1Ix loadedT1 2 Config.workFrames = 16385 := by
  have hle : Config.workFrames ≤ 16384 := Nat.min_le_left _ _
  have hlt : Config.workFrames < 16385 := by omega
  simp [freeT1Ix, nextFree, loadedT1, Mem.fresh, hlt, Nat.not_lt_of_lt hlt, Nat.ne_of_gt hlt]

/-- What taking frame `i` of a channel's T1 for a context does, whichever frames are free. -/
def Dev.takenT1 (s : Dev) (ch ctx i : Nat) : Dev :=
  let old := ((s.memOf ch).t1.get FrameSt.fresh i).owner
  let s := s.modMem ch fun m => { m with t1 := m.t1.set FrameSt.fresh i ⟨ctx + 1, true⟩ }
  let s := if old ≠ 0 ∧ old ≠ ctx + 1 then
      (s.zero (tierBase ch 1 + i * frameBytes) frameBytes).bump .kvpCh ch 0 Off.KVP_SCRUB 1
    else s
  s.bump .kvpCh ch 0 Off.KVP_ALLOC 1

theorem Dev.takeT1One_taken {s : Dev} {ch i : Nat} (ctx : Nat) (h : freeT1Ix (s.memOf ch) ((s.memOf ch).ranges.length + 1) Config.workFrames = i) :
    s.takeT1One ch ctx = (s.takenT1 ch ctx i, ⟨1, ch, i⟩) := by
  subst h
  rfl

/-- The first leaf of a channel, placed in frame `i` of its T1. -/
def Dev.firstLeaf (s : Dev) (ch r ptr i : Nat) : Dev :=
  (s.takenT1 ch leafOwner i).modMem ch fun m => { m with leaves := m.leaves ++ [⟨i, 0, r, ptr⟩] }

theorem Dev.addLeaf_first {s : Dev} {ch : Nat} (r ptr : Nat) (h : s.memOf ch = loadedT1) : s.addLeaf ch r ptr = s.firstLeaf ch r ptr 16385 := by
  have hfree : freeT1Ix (s.memOf ch) ((s.memOf ch).ranges.length + 1) Config.workFrames = 16385 := by rw [h]; exact freeT1Ix_loadedT1
  have hleaves : (s.memOf ch).leaves = [] := by rw [h]; rfl
  unfold Dev.addLeaf Dev.firstLeaf
  simp [hleaves, Dev.takeT1One_taken leafOwner hfree]

/-- The leaves that a channel's sequences need. -/
def Dev.wantedLeaves (s : Dev) (ch : Nat) : List (Nat × Nat) := (s.seqsOf ch).flatMap fun r => (s.leavesOf r).map fun p => (r, p)

theorem Dev.fitLeaves_first {s : Dev} {ch r ptr : Nat} (hmem : s.memOf ch = loadedT1) (hwant : s.wantedLeaves ch = [(r, ptr)]) :
    s.fitLeaves ch = (s.modMem ch fun m => { m with leaves := [] }).firstLeaf ch r ptr 16385 := by
  have hleaves : (s.memOf ch).leaves = [] := by rw [hmem]; rfl
  have hnext : (s.modMem ch fun m => { m with leaves := [] }).memOf ch = loadedT1 := by rw [Dev.modMem_same, hmem]; rfl
  unfold Dev.wantedLeaves at hwant
  rw [← Dev.addLeaf_first r ptr hnext]
  unfold Dev.fitLeaves
  simp [hleaves, hwant, Dev.freeFrames]

/-! ### From the end of a collective to the leaves that are placed (R330, R362, R391) -/

/-- A sequence whose turn and work have ended, before it gives back what it holds (R235). -/
def Dev.endingSeq (s : Dev) (r why code : Nat) : Dev :=
  let s := (s.abandon r).modSeq r fun q => { q with restore := none, held := none }
  let s := (s.setStateW r (s.st r) code 0 why).abandonHood r
  (s.modSeq r fun q => { q with stopping := .ending why code, ringRsv := false, replay := [] }).setSt r St.STOPPING

/-- A sequence that has given back its frames, before the leaves of its channel follow (R191). -/
def Dev.seqFreed (s : Dev) (r : Nat) : Dev :=
  let s := (s.freeFrames (seqFrames (s.seq r))).freeDir r
  s.modSeq r fun q => { q with
    kept := ((s.dlvOf r).pos, q.logW.drop (s.dlvOf r).pos), pages := [], log := [], logW := [], ckptFrames := [], work := []
    slotA := Ckpt.none, slotB := Ckpt.none, copying := none, ckptAgain := false, rsv := 0, step := none, held := none, replay := [], restore := none
    hoodTier := 0, hoodAux := [], restoreLog := [], inPlace := false, past := false }

theorem Dev.freeAll_freed (s : Dev) (r : Nat) : s.freeAll r = (s.seqFreed r).fitLeaves (entCh r) := rfl

/-- The final record of a sequence that has given back what it holds (R240). -/
def Dev.seqEnded (s : Dev) (r why code : Nat) : Dev :=
  let s := s.statusOnly r (recordWord 0 (s.seq r).epochTok true code true) why
  let wrote := (s.seq r).pend.isEmpty
  let s := if wrote then s.finishSeq r else s
  s.note r wrote

theorem Dev.endSeq_ended {s : Dev} {r why code : Nat} (hlive : (liveSt (s.st r)) = true) (hadm : s.st r ≠ St.ADMITTED)
    (hstop : (s.seq r).stopping = .no) (hwhy : 4 < why) :
    s.endSeq r why code false = ((s.endingSeq r why code).freeAll r).seqEnded r why code := by
  have hkeep (t : Dev) : t.turnOnly r why = false := by simp [Dev.turnOnly, Nat.not_le_of_lt hwhy]
  simp only [Dev.endSeq, Dev.endingSeq, Dev.seqEnded, hlive, hadm, hstop, hkeep, Bool.not_true, Bool.or_false, decide_false, Bool.false_eq_true, if_false,
    Bool.not_false, Bool.true_and, Bool.false_and]
  rfl

/-- A step that has failed for the fourth time within 1 s ends its sequence (R391). -/
theorem Dev.stepFail_fourth {s : Dev} {r code : Nat} (fails : List Nat) (hlive : s.live r = true)
    (hfails : (s.chMs (entCh r) :: (s.seq r).failMs.filter fun t => decide (s.chMs (entCh r) < t + 1000)) = fails) (hmany : 3 < fails.length)
    (hcode : code ≠ Code.NOSTATE) :
    s.stepFail r code = ((s.abandon r).modSeq r fun q => { q with failMs := fails }).endSeq r 7 code false := by
  unfold Dev.stepFail
  simp [hlive, hfails, hmany, Dev.failSeq, hcode]

/-- An object that has broken, before its waiters return (R330). -/
def Dev.objBroken (s : Dev) (ch o code : Nat) : Dev :=
  let b := s.obj ch o
  let s := (s.modObj ch o fun x => { x with state := 2, code := code, waits := [] }).syBump ch Off.SYN_BROKEN 1
  if o ≥ 16384 then s.bump .synCx ch b.ctx Off.SYN_CX_BROKEN 1 else s

theorem Dev.breakObj_one {s : Dev} {ch o code : Nat} {w : SyWait} (h : (s.obj ch o).waits.filter (fun w => !w.met) = [w]) :
    s.breakObj ch o code = (s.objBroken ch o code).failWait code w := by
  unfold Dev.breakObj
  dsimp only
  rw [h]
  rfl

theorem Dev.failWait_withdrawn {s : Dev} {w : SyWait} {r : Nat} (hseq : w.seq.map SeqRef.ix = some r) (hlive : s.live r = true) :
    s.failWait Code.WITHDRAWN w = s.stepFail r Code.WITHDRAWN := by
  obtain ⟨q, hq, rfl⟩ := Option.map_eq_some_iff.mp hseq
  simp [Dev.failWait, hq, hlive]

/-- A run that has left its channel (R362). -/
def Dev.collGone (s : Dev) (c : Coll) : Dev := (s.dropColl c.o.ch.val c.o).evfBump c.o.ch.val Off.EVF_COLLFAIL 1

theorem Dev.collBreak_armed {s : Dev} {c : Coll} {o : Nat} (code : Nat) (hobj : (s.collGone c).collObj c.o = some o)
    (harmed : ((s.collGone c).obj c.o.ch.val o).state = 1) : s.collBreak c code = (s.collGone c).breakObj c.o.ch.val o code := by
  unfold Dev.collGone at *
  unfold Dev.collBreak
  simp only [hobj, harmed]
  rfl

/-- What waits on the fabric goes (R378). -/
def Dev.fabricGone (s : Dev) (ch : Nat) : Dev :=
  (s.evfBump ch Off.EVF_COLLFAIL ((s.fab ch).colls.filter fun c => !c.done).length).modFab ch fun x => { x with colls := [], digests := [], reads := [] }

/-- A run without other participants ends at its root. -/
theorem Dev.dropFabric_lone {s : Dev} {ch : Nat} {c : Coll} (hruns : (s.fab ch).colls = [c]) (hdone : c.done = false) (hroot : c.me = 0)
    (halone : c.o.parts = []) : s.dropFabric ch = (s.collBreak c Code.WITHDRAWN).fabricGone ch := by
  unfold Dev.dropFabric Dev.fabricGone
  simp [hruns, hdone, hroot, halone, Dev.noticeRoot, Dev.rootFail, Dev.failAll]

/-! ### What follows a containment (R378, R393) -/

/-- What is left to settle after the fabric of channel 0, which is CONTAINED. -/
def Dev.settleRest (s : Dev) : Dev :=
  ((List.range' 1 7).foldl (fun s ch => s.settleCh ch) ((((s.dropSync 0).dropScratch 0).helloAll 0 false))).settleFor 15

theorem Dev.settleCh_contained {s : Dev} {ch : Nat} (hsafe : (s.chan ch).safeDue = true) (hhalt : (s.chan ch).haltDue = false)
    (hnotice : (s.chan ch).noticeDue = true) :
    s.settleCh ch = ((((s.modChan ch Chan.undue).dropFabric ch).dropSync ch).dropScratch ch).helloAll ch false := by
  unfold Dev.settleCh
  simp only [hsafe, hhalt, hnotice]
  rfl

theorem Dev.settle_contained {s : Dev} (hdue : (s.chans.any fun e => e.2.due) = true) (hsafe : (s.chan 0).safeDue = true)
    (hhalt : (s.chan 0).haltDue = false) (hnotice : (s.chan 0).noticeDue = true) :
    s.settle = ((s.modChan 0 Chan.undue).dropFabric 0).settleRest := by
  have hch := Dev.settleCh_contained hsafe hhalt hnotice
  have hrange : List.range 8 = 0 :: List.range' 1 7 := rfl
  unfold Dev.settle Dev.settleFor
  rw [if_pos hdue, hrange, List.foldl_cons, hch]
  rfl

/-! ### The interval's end of `missingProbes`, state by state -/

namespace missingProbes

/-- The channel is CONTAINED, and its fabric is still to stop. -/
def contained : Dev := (missingProbes.driftEnd 0).modChan 0 Chan.undue

/-- The collective has left, and its object is BROKEN. -/
def broken : Dev := (contained.collGone loneCollective).objBroken 0 16384 Code.WITHDRAWN

/-- The step that waited has failed, the fourth within 1 s. -/
def failed : Dev := (broken.abandon 0).modSeq 0 fun q => { q with failMs := [0, 0, 0, 0] }

/-- Sequence 0 has ended and has given back what it held. -/
def freed : Dev := (failed.endingSeq 0 7 Code.WITHDRAWN).seqFreed 0

/-- The leaf of sequence 1 lies in the frame that was free. -/
def leafPlaced : Dev := (freed.modMem 0 fun m => { m with leaves := [] }).firstLeaf 0 1 0 16385

theorem freeAll_failed : (failed.endingSeq 0 7 Code.WITHDRAWN).freeAll 0 = leafPlaced := by
  have hmem : freed.memOf 0 = loadedT1 := by decide +kernel
  have hwant : freed.wantedLeaves 0 = [(1, 0)] := by decide +kernel
  exact (Dev.freeAll_freed _ _).trans (Dev.fitLeaves_first hmem hwant)

theorem stepFail_broken : broken.stepFail 0 Code.WITHDRAWN = leafPlaced.seqEnded 0 7 Code.WITHDRAWN := by
  have hstep : broken.stepFail 0 Code.WITHDRAWN = failed.endSeq 0 7 Code.WITHDRAWN false :=
    Dev.stepFail_fourth [0, 0, 0, 0] (by decide +kernel) (by decide +kernel) (by decide) (by decide)
  rw [hstep, Dev.endSeq_ended (by decide +kernel) (by decide +kernel) (by decide +kernel) (by decide), freeAll_failed]

theorem collBreak_contained : contained.collBreak loneCollective Code.WITHDRAWN = leafPlaced.seqEnded 0 7 Code.WITHDRAWN := by
  have hbreak : contained.collBreak loneCollective Code.WITHDRAWN = (contained.collGone loneCollective).breakObj 0 16384 Code.WITHDRAWN :=
    Dev.collBreak_armed _ (by decide +kernel) (by decide +kernel)
  have hwaits : ((contained.collGone loneCollective).obj 0 16384).waits.filter (fun w => !w.met) = awaitedObject.waits := by decide +kernel
  have hlive : broken.live 0 = true := by decide +kernel
  calc contained.collBreak loneCollective Code.WITHDRAWN
      = broken.failWait Code.WITHDRAWN ⟨0, 1, some ⟨0, 0⟩, false, 0⟩ := hbreak.trans (Dev.breakObj_one hwaits)
    _ = broken.stepFail 0 Code.WITHDRAWN := Dev.failWait_withdrawn rfl hlive
    _ = leafPlaced.seqEnded 0 7 Code.WITHDRAWN := stepFail_broken

theorem settle_driftEnd : (missingProbes.driftEnd 0).settle = ((leafPlaced.seqEnded 0 7 Code.WITHDRAWN).fabricGone 0).settleRest := by
  have hruns : (contained.fab 0).colls = [loneCollective] := by decide +kernel
  have hfabric : contained.dropFabric 0 = (contained.collBreak loneCollective Code.WITHDRAWN).fabricGone 0 :=
    Dev.dropFabric_lone hruns rfl rfl rfl
  rw [Dev.settle_contained (by decide +kernel) (by decide +kernel) (by decide +kernel) (by decide +kernel), ← collBreak_contained, ← hfabric]
  rfl

/-- The frame was cleared for its new owner (R190, R191). -/
theorem settled_byte : (missingProbes.driftEnd 0).settle.byte (tierBase 0 1 + 16385 * frameBytes) = 0 := by
  rw [settle_driftEnd]
  decide +kernel

end missingProbes

theorem exec_driftIntervalEnd (ch : ChId) (s : State) :
    exec (.driftIntervalEnd ch) s = s.done (s.m.only (s.m.running ch.val) fun m => m.driftEnd ch.val) := rfl

/-- Refutes O34: the end of a drift interval need not keep every byte. PROBE_MISS acts at RECORD when the interval ends, but its first raise
sets the sticky bit, and the second, for another tile, acts at PG_SEV1 (R374): it may contain the channel. A collective ends with that, and a
sequence whose step waited for it (R362, R391); the leaf that is then placed for another sequence takes a frame, which is cleared first. -/
theorem not_driftIsTracked : ¬ Obligations.DriftIsTracked := by
  unfold Obligations.DriftIsTracked
  rintro ⟨hdrift, -⟩
  obtain ⟨-, hend, -⟩ := hdrift ⟨[], missingProbes⟩ 0 missingProbes_settled missingProbes_running
  obtain ⟨hmiss, hjump⟩ := missingProbes_records
  obtain ⟨r, hr, hbytes, -⟩ := hend rfl hmiss hjump
  have hexec : exec (.driftIntervalEnd 0) ⟨[], missingProbes⟩ = .next ⟨[], (missingProbes.driftEnd 0).settle⟩ := by
    rw [exec_driftIntervalEnd]
    exact congrArg (State.done _) (congrArg (missingProbes.only · _) missingProbes_running)
  obtain rfl : ⟨[], (missingProbes.driftEnd 0).settle⟩ = r := Host.Outcome.next.inj (hexec.symm.trans hr)
  exact absurd (missingProbes.settled_byte.symm.trans ((hbytes _).trans missingProbes_byte)) (by decide)

end Sys2Proof.Machine
end


section
/-! Formats and accumulation (O36): what the fuller enters in its core and writes into a page, and what an arriving leaf leaves in a group or at a
node of a tree. -/

namespace Sys2Proof.Machine
open Sys2Proof

theorem exec_fullerQuantiseDone {core : CoreRef} {s : State} (hrun : s.m.running core.ch.val = true) (w : FullerWork) :
    exec (.fullerQuantiseDone core w) s = s.doneTree (s.m.fullerDone core.ix w) := by
  change s.doneTree (s.m.only _ _) = _
  rw [hrun, Dev.only_true]
theorem exec_wideModeHoldEnd {c : ClusterRef} {s : State} (hrun : s.m.running c.ch.val = true) :
    exec (.wideModeHoldEnd c) s = s.done (s.m.holdEnd c.ix) := by
  change s.done (s.m.only _ _) = _
  rw [hrun, Dev.only_true]
theorem exec_leafArrival {core : CoreRef} {s : State} (hrun : s.m.running core.ch.val = true) (leaf : LeafMsg) :
    exec (.leafArrival core leaf) s = s.doneTree (s.m.leafArrive core leaf) := by
  change s.doneTree (s.m.only _ _) = _
  rw [hrun, Dev.only_true]

/-- A command whose own effect is `m` forms what holds of `m`. -/
theorem forms_doneTree {c : Instr} {s : State} {m : Dev} {P : State → Prop} (hc : exec c s = s.doneTree m) (hp : P { s with m := m }) :
    Forms c s P := ⟨m, hc, hp⟩

@[simp] theorem coreCh_ix (core : CoreRef) : coreCh core.ix = core.ch.val := by simp only [coreCh, CoreRef.ix]; omega
@[simp] theorem coreRef_ix_div (core : CoreRef) : core.ix / 8 = core.cluster.ix := by
  simp only [CoreRef.ix, CoreRef.cluster, ClusterRef.ix]; omega
@[simp] theorem entCh_ix (r : SeqRef) : entCh r.ix = r.ch.val := by simp only [entCh, SeqRef.ix]; omega

/-! ### Updates that leave the work of the cores alone -/

/-- From `s` to `t` registers and records may have changed; memory, scratchpads, tiles, cores, the request table and sequences stay. -/
structure Dev.Noted (s t : Dev) : Prop where
  mem : t.mem = s.mem
  t0 : t.t0 = s.t0
  tiles : t.tiles = s.tiles
  cores : t.cores = s.cores
  rqt : t.rqt = s.rqt
  seqs : t.seqs = s.seqs

namespace Dev.Noted
variable {s t : Dev}

theorem refl (s : Dev) : s.Noted s := ⟨rfl, rfl, rfl, rfl, rfl, rfl⟩

theorem bump (h : s.Noted t) (k : PageKind) (ch i o n : Nat) : s.Noted (t.bump k ch i o n) where
  mem := (Dev.bump_mem ..).trans h.mem
  t0 := (Dev.bump_t0 ..).trans h.t0
  tiles := (Dev.bump_tiles ..).trans h.tiles
  cores := (Dev.bump_cores ..).trans h.cores
  rqt := (Dev.bump_rqt ..).trans h.rqt
  seqs := (Dev.bump_seqs ..).trans h.seqs

theorem wr (h : s.Noted t) (k : PageKind) (ch i o : Nat) (w : Word) : s.Noted (t.wr k ch i o w) := ⟨h.mem, h.t0, h.tiles, h.cores, h.rqt, h.seqs⟩

theorem modChan (h : s.Noted t) (ch : Nat) (f : Chan → Chan) : s.Noted (t.modChan ch f) := ⟨h.mem, h.t0, h.tiles, h.cores, h.rqt, h.seqs⟩

/-- A raise that is only recorded (R373). -/
theorem raise (h : s.Noted t) {ch ix : Nat} (hr : t.Records ch ix) (hix : ix < 96) (hn : (collector ix).2 < (collector ix).1.nsrc) :
    s.Noted (t.raise ch ix) := by
  obtain ⟨f, o, -, -, hraise⟩ := Dev.raise_recorded hr hix hn
  exact hraise ▸ (((h.wr _ _ _ _ _).wr _ _ _ _ _).modChan ch f).bump .evrCh ch 0 o 1

theorem core (h : s.Noted t) (c : Nat) : t.core c = s.core c := by rw [Dev.core, h.cores, Dev.core]

theorem group (h : s.Noted t) (c g : Nat) : t.group c g = s.group c g := by rw [Dev.group, h.core, Dev.group]

theorem seq (h : s.Noted t) (r : Nat) : t.seq r = s.seq r := by rw [Dev.seq, h.seqs, Dev.seq]

end Dev.Noted

/-- Whether a source acts at RECORD depends on the header of its page alone (R374). -/
theorem Dev.Records.of_page {s t : Dev} {ch ix : Nat} (hr : s.Records ch ix)
    (h : ∀ o, o < 0x100 → t.rd (collector ix).1 ch 0 o = s.rd (collector ix).1 ch 0 o) : t.Records ch ix := by
  unfold Dev.Records Dev.sevOf at hr ⊢
  simp only [Dev.rdF] at hr ⊢
  rwa [h Off.PG_SEV0 (by decide), h Off.PG_FLT (by decide), h Off.PG_SEV1 (by decide)]

theorem Dev.Records.modChan {s : Dev} {ch ix : Nat} (hr : s.Records ch ix) (k : Nat) (f : Chan → Chan) : (s.modChan k f).Records ch ix :=
  hr.of_page fun _ _ => rfl

theorem Dev.Records.modGroup {s : Dev} {ch ix : Nat} (hr : s.Records ch ix) (c g : Nat) (f : Group → Group) : (s.modGroup c g f).Records ch ix :=
  hr.of_page fun _ _ => rfl

/-! ### The fuller (R113, R126, R128) -/

/-- An execution is entered; where nothing is decided early, the rest is counting. -/
theorem Dev.quantiseDone_noted {s : Dev} {c : Nat} {q : ExecReq} {l : Layer} (hl : s.layerOf q.ctx.val q.layer = some l)
    (hlate : q.transpose = true ∨ s.inForce .fulCh (coreCh c) 0 Off.FUL_CTL 1 1 = 0) :
    (s.modCore c fun x => { x with execs := x.execs.filter (fun y => y.id ≠ q.exec) ++
      [newExec l c (s.rdF .pnc (coreCh c) (coreIn c) Off.PNC_CTL 5 0) (s.clus (c / 8)).storm.wide q] }).Noted (s.quantiseDone c q) := by
  have helems : ∀ {t u : Dev} (e : Exec), t.Noted u → t.Noted (u.countElems c e) := fun e h => ((h.bump ..).bump ..).bump ..
  unfold Dev.quantiseDone
  rw [hl]
  dsimp only
  split
  · exact helems _ ((Dev.Noted.refl _).bump ..)
  · next htrans =>
    have hoff := hlate.resolve_left htrans
    rw [if_neg (by simp [hoff])]
    split
    · exact (helems _ ((Dev.Noted.refl _).bump ..)).bump ..
    · exact (Dev.Noted.refl _).bump ..

/-! ### Keys and values (R118, R188, R192) -/

/-- From `s` to `t` only bytes of memory and of scratchpads have changed. -/
def Dev.BytesOnly (s t : Dev) : Prop := ∃ mem t0, t = { s with mem := mem, t0 := t0 }

namespace Dev.BytesOnly
variable {s t : Dev}

theorem refl (s : Dev) : s.BytesOnly s := ⟨s.mem, s.t0, rfl⟩

theorem trans {u : Dev} (h : s.BytesOnly t) (g : t.BytesOnly u) : s.BytesOnly u := by
  obtain ⟨_, _, rfl⟩ := h
  obtain ⟨mem, t0, rfl⟩ := g
  exact ⟨mem, t0, rfl⟩

theorem setBytes (h : s.BytesOnly t) (a : Nat) (bs : List Byte) : s.BytesOnly (t.setBytes a bs) := by
  induction bs generalizing t a with
  | nil => exact h
  | cons b bs ih => exact ih (h.trans ⟨_, t.t0, rfl⟩) (a + 1)

theorem putScratch (h : s.BytesOnly t) (c a : Nat) (bs : List Byte) : s.BytesOnly (t.putScratch c a bs) := by
  induction bs generalizing t a with
  | nil => exact h
  | cons b bs ih => exact ih (h.trans ⟨t.mem, _, rfl⟩) (a + 1)

theorem foldl {α : Type} {f : Dev → α → Dev} (hf : ∀ (u : Dev) a, s.BytesOnly u → s.BytesOnly (f u a)) (l : List α) (h : s.BytesOnly t) :
    s.BytesOnly (l.foldl f t) := by
  induction l generalizing t with
  | nil => exact h
  | cons a l ih => exact ih (hf t a h)

theorem frameWrite (h : s.BytesOnly t) (r key k : Nat) (f : Frame) (o : Nat) (bs : List Byte) : s.BytesOnly (t.frameWrite r key k f o bs) :=
  foldl (fun _ _ hu => hu.putScratch ..) _ (h.setBytes ..)

end Dev.BytesOnly

/-- A key and a value of a position that the step takes are written into their page's frame, and the page's FILL rises. -/
theorem Dev.putKv_written {s : Dev} {c : Nat} {w : KvRow} {p : Pattern} {st : Step} {l : Layer} {pg : PageSt} {f : Frame} {j nh : Nat}
    (hpat : s.seqPat w.seq.ix = some p) (hstep : (s.seq w.seq.ix).step = some st) (hlayer : p.layers[w.layer]? = some l)
    (hpage : (s.seq w.seq.ix).pages.find? (fun e => e.1 = pageKey w.layer (w.pos / spanP p)) = some (pageKey w.layer (w.pos / spanP p), pg))
    (hplace : headPlace (spanP p) l pg w.head = some (f, j, nh)) (hfrom : st.start ≤ w.pos) (hto : w.pos < st.stop + st.drafts)
    (hkind : pg.state ≠ .present ∨ ∀ a, st.kind ≠ .recompute a) (htier : f.tier ≤ 2)
    (hhome : c / 8 = entCh w.seq.ix * 8 + (s.seq w.seq.ix).home) :
    ∃ t, s.BytesOnly t ∧ (t.modSeq w.seq.ix fun q =>
      { q with pages := q.pages.put (pageKey w.layer (w.pos / spanP p)) { pg with fill := max pg.fill (w.pos % spanP p + 1) } }).Noted
        (s.putKv c w) := by
  unfold Dev.putKv
  simp only [hpat, hstep, hlayer, hpage, hplace]
  rw [if_neg]
  · exact ⟨_, .foldl (fun _ _ hu => hu.frameWrite ..) _ (.refl s), (((Dev.Noted.refl _).bump ..).bump ..).bump ..⟩
  · split
    · next a hst => simp [hfrom, hto, hhome, htier, hkind.resolve_right fun h => h a hst]
    · simp [hfrom, hto, hhome, htier]

/-! ### Wide mode (R135) -/

theorem Dev.holdEnd_last {s : Dev} {cl : Nat} (hwide : (s.clus cl).storm.wide = true) (hleft : (s.clus cl).storm.left ≤ 1) :
    s.holdEnd cl = s.modClus cl fun x => { x with storm := { x.storm with ended := true } } :=
  if_pos (by simp [hwide, hleft])

/-! ### A leaf enters a group (R142 to R144, R154) -/

@[simp] theorem Dev.modGroup_same (s : Dev) (c g : Nat) (f : Group → Group) : (s.modGroup c g f).group c g = f (s.group c g) := by
  simp only [Dev.group, Dev.modGroup, Dev.modCore_same, Store.get_set_same]

/-- From `s` to `t` memory, scratchpads and tiles stay. -/
structure Dev.DataKept (s t : Dev) : Prop where
  mem : t.mem = s.mem
  t0 : t.t0 = s.t0
  tiles : t.tiles = s.tiles

theorem Dev.DataKept.trans {s t u : Dev} (h : s.DataKept t) (g : t.DataKept u) : s.DataKept u :=
  ⟨g.mem.trans h.mem, g.t0.trans h.t0, g.tiles.trans h.tiles⟩

theorem Dev.Noted.data {s t : Dev} (h : s.Noted t) : s.DataKept t := ⟨h.mem, h.t0, h.tiles⟩

/-- What an update does to a group counts, not what it would do to another. -/
theorem Dev.modGroup_congr {s : Dev} {c g : Nat} {f h : Group → Group} (hfh : f (s.group c g) = h (s.group c g)) :
    s.modGroup c g f = s.modGroup c g h :=
  congrArg (fun x => s.modCore c fun y => { y with groups := y.groups.set Group.fresh g x }) hfh

theorem Dev.modGroup_data (s : Dev) (c g : Nat) (f : Group → Group) : s.DataKept (s.modGroup c g f) := ⟨rfl, rfl, rfl⟩

/-- No word of a core's ACC page is one of a channel's. -/
theorem pageOff_accCh_ne_acc (ch d i : Nat) {o p : Nat} (ho : o < 0x1000) (hp : p < 0x1000) : pageOff .accCh ch 0 o ≠ pageOff .acc d i p := by
  simp only [pageOff, Page.base, chanWin]
  omega

/-- No word of a cluster's ATT page is one of a channel's ACC page. -/
theorem pageOff_accCh_ne_att (ch d i : Nat) {o p : Nat} (ho : o < 0x1000) (hp : p < 0x1000) : pageOff .accCh ch 0 o ≠ pageOff .att d i p := by
  simp only [pageOff, Page.base, chanWin]
  omega

/-- A group that is marked UNBOUNDED, where LONG_SUM would only be recorded (R154). -/
theorem Dev.markUnbounded_recorded {s : Dev} {c : Nat} (g : Nat) (hr : s.Records (coreCh c) 30) :
    (s.modGroup c g fun x => { x with unbounded := true }).Noted (s.markUnbounded c g) := by
  unfold Dev.markUnbounded
  dsimp only
  generalize hm : ((s.modGroup c g fun x => { x with unbounded := true }).wrF .acc (coreCh c) (coreIn c) Off.ACC_STA 10 10 1).bump .acc
    (coreCh c) (coreIn c) Off.ACC_UNB 1 = m
  have hnoted : (s.modGroup c g fun x => { x with unbounded := true }).Noted m := hm ▸ ((Dev.Noted.refl _).wr ..).bump ..
  have hrec : m.Records (coreCh c) 30 := (Dev.Records.modGroup hr c g _).of_page fun o ho => by
    have hne {p : Nat} (hp : p < 0x1000) : pageOff .accCh (coreCh c) 0 o ≠ pageOff .acc (coreCh c) (coreIn c) p :=
      pageOff_accCh_ne_acc _ _ _ (by omega) hp
    rw [← hm]
    exact (Dev.bump_reg_other _ (hne (by decide)) (hne (by decide))).trans (Dev.wr_rd_other _ (hne (by decide)) _)
  split
  · exact (hnoted.modChan ..).raise (hrec.modChan ..) (by decide) (by decide)
  · exact hnoted

/-- The status of a group changes its DEPTH and UNBOUNDED alone. -/
theorem Dev.groupStatus_recorded {s : Dev} {c : Nat} (g : Nat) (hr : s.Records (coreCh c) 30) :
    s.DataKept (s.groupStatus c g) ∧ ∃ d u, (s.groupStatus c g).group c g = { s.group c g with depth := d, unbounded := u } := by
  unfold Dev.groupStatus
  dsimp only
  generalize ((groupFormed (s.group c g)).map (·.2.2)).foldl max 0 = d
  have hdepth := s.modGroup_data c g fun x => { x with depth := d }
  split
  · have hmark := Dev.markUnbounded_recorded (s := s.modGroup c g fun x => { x with depth := d }) g (hr.modGroup ..)
    exact ⟨hdepth.trans (((Dev.modGroup_data ..).trans hmark.data)), d, true, by rw [hmark.group, Dev.modGroup_same, Dev.modGroup_same]⟩
  · exact ⟨hdepth, d, (s.group c g).unbounded, Dev.modGroup_same ..⟩

/-- A group with one leaf more; LEN and NPART count a leaf once, whatever the number of vectors (R144). -/
def withLeaf (gr : Group) (l : Leaf) : Group :=
  { gr with
    leaves := gr.leaves ++ [l]
    seen := gr.seen ++ [(l.ix, l.vec)]
    len := if gr.leaves.any (fun x => x.ix = l.ix) then gr.len else lenAdd gr.len l.len
    npart := if gr.leaves.any (fun x => x.ix = l.ix) then gr.npart else npartAdd gr.npart l.npart }

theorem Dev.leafAt_stale {s : Dev} {c g epoch : Nat} (h : (s.group c g).epoch ≠ epoch) (l : Leaf) :
    s.leafAt c g epoch l = s.bump .acc (coreCh c) (coreIn c) Off.ACC_STALE 1 := if_pos h

/-- A leaf that an open group has room for is taken, and the group closes with its last one. -/
theorem Dev.leafAt_taken {s : Dev} {c g : Nat} {l : Leaf} (hstate : (s.group c g).state = .opened) (hix : l.ix < (s.group c g).nLeaf)
    (hvec : l.vec < (s.group c g).vecs) (hseen : (s.group c g).seen.contains (l.ix, l.vec) = false) :
    s.leafAt c g (s.group c g).epoch l = ((s.modGroup c g (withLeaf · l)).groupStatus c g).closeGroup c g := by
  have hroom : ¬ ((s.group c g).state = .free ∨ (s.group c g).nLeaf ≤ l.ix ∨ (s.group c g).vecs ≤ l.vec) := by
    simp [hstate, hix, hvec]
  unfold Dev.leafAt
  dsimp only
  rw [if_neg (by simp), if_neg (by simp only [hseen, Bool.false_eq_true, not_false_eq_true]), if_neg hroom]
  refine congrArg (fun m : Dev => (m.groupStatus c g).closeGroup c g) (Dev.modGroup_congr ?_)
  simp only [withLeaf, Bool.not_eq_true', ite_not, ← Bool.not_eq_true]

/-- A group that still waits for leaves does not close. -/
theorem Dev.closeGroup_waiting {s : Dev} {c g : Nat} (h : (s.group c g).leaves.length ≠ (s.group c g).nLeaf * (s.group c g).vecs) :
    s.closeGroup c g = s := if_neg fun hall => h hall.2.1

/-- A leaf that an open group waits for, with more to come, joins it. -/
theorem Dev.leafAt_awaited {s : Dev} {c g epoch : Nat} {l : Leaf} (h : s.Awaits c g epoch l.ix l.vec) :
    s.DataKept (s.leafAt c g epoch l) ∧
      ∃ d u, (s.leafAt c g epoch l).group c g = { withLeaf (s.group c g) l with depth := d, unbounded := u } := by
  obtain ⟨hstate, rfl, hix, hvec, hseen, hmore, hr⟩ := h
  obtain ⟨hdata, d, u, hgroup⟩ := Dev.groupStatus_recorded (s := s.modGroup c g (withLeaf · l)) g (hr.modGroup ..)
  rw [Dev.modGroup_same] at hgroup
  rw [Dev.leafAt_taken hstate hix hvec hseen, Dev.closeGroup_waiting]
  swap
  · rw [hgroup]; simpa [withLeaf] using hmore
  exact ⟨(s.modGroup_data ..).trans hdata, d, u, hgroup⟩

/-! ### The last leaf of a group (R142, R145, R147) -/

/-- The roots of a group's vectors, bias applied. -/
def groupRoots (gr : Group) : List (List F32) :=
  (List.range gr.vecs).map fun v =>
    let r := treeReduce vadd [] ((leavesOf gr v).map (·.vals))
    if gr.bias.isEmpty then r else vadd r gr.bias

/-- A group that is held, with its roots. -/
def holdGroup (gr : Group) : Group :=
  { gr with state := .held, result := groupRoots gr, lowConf := gr.lowConf || gr.leaves.any (·.lowConf) }

/-- A group that has all its leaves and needs no acceptance is released. -/
theorem Dev.closeGroup_released {s : Dev} {c g : Nat} (hstate : (s.group c g).state = .opened)
    (hall : (s.group c g).leaves.length = (s.group c g).nLeaf * (s.group c g).vecs) (hsome : 0 < (s.group c g).nLeaf)
    (hsrc : (s.group c g).src ≠ 0) : s.closeGroup c g = (s.modGroup c g holdGroup).releaseGroup c g := by
  unfold Dev.closeGroup
  dsimp only
  rw [if_pos ⟨hstate, hall, hsome⟩, if_pos (by simp [Dev.groupAccepted, hsrc])]
  rfl

/-- A held group whose DEST lies in the scratchpad is written there, value by value, and is FREE. -/
theorem Dev.releaseGroup_scratchpad {s : Dev} {c g : Nat} {a : Fin (2 ^ 22)} (hheld : (s.group c g).state = .held)
    (hdest : (s.group c g).dest = .scratchpad a) : ∃ t, s.DataKept t ∧ (t.group c g).state = .free ∧
      s.releaseGroup c g = t.putScratch c a.val (((s.group c g).result.flatten.map (ofmtBytes (s.group c g).ofmt)).map (·.1)).flatten := by
  unfold Dev.releaseGroup
  dsimp only
  rw [if_neg (not_not_intro hheld), hdest]
  refine ⟨_, ((Dev.Noted.refl s).bump ..).data.trans (Dev.modGroup_data _ c g _), ?_, rfl⟩
  rw [Dev.modGroup_same]

theorem Dev.putScratch_keeps (s : Dev) (c a : Nat) (bs : List Byte) :
    (s.putScratch c a bs).mem = s.mem ∧ (s.putScratch c a bs).tiles = s.tiles ∧ (s.putScratch c a bs).cores = s.cores := by
  induction bs generalizing s a with
  | nil => exact ⟨rfl, rfl, rfl⟩
  | cons b bs ih => exact ih _ (a + 1)

/-- Bytes that fit in a scratchpad stand in it from their address on, and every other byte stays. -/
theorem Dev.putScratch_get (s : Dev) (c a : Nat) (bs : List Byte) (hfit : a + bs.length ≤ 2 ^ 22) :
    (∀ i, i < bs.length → some ((s.putScratch c a bs).t0.get 0 (c * 2 ^ 22 + a + i)) = bs[i]?) ∧
    ∀ b, b < c * 2 ^ 22 + a ∨ c * 2 ^ 22 + a + bs.length ≤ b → (s.putScratch c a bs).t0.get 0 b = s.t0.get 0 b := by
  induction bs generalizing s a with
  | nil => exact ⟨fun i hi => absurd hi (Nat.not_lt_zero i), fun _ _ => rfl⟩
  | cons x bs ih =>
    rw [List.length_cons] at hfit
    obtain ⟨hin, hout⟩ := ih { s with t0 := s.t0.set 0 (c * 2 ^ 22 + a % 2 ^ 22) x } (a + 1) (by omega)
    have hplace : c * 2 ^ 22 + a % 2 ^ 22 = c * 2 ^ 22 + a := by rw [Nat.mod_eq_of_lt (by omega)]
    rw [hplace] at hin hout
    rw [Dev.putScratch, hplace]
    generalize c * 2 ^ 22 = base at hin hout ⊢
    refine ⟨fun i hi => ?_, fun b hb => ?_⟩
    · cases i with
      | zero => exact congrArg some ((hout _ (.inl (by omega))).trans (Store.get_set_same 0 _ x s.t0))
      | succ i =>
        have hi := hin i (by simpa using hi)
        rwa [show base + (a + 1) + i = base + a + (i + 1) by omega] at hi
    · rw [List.length_cons] at hb
      exact (hout b (by omega)).trans (Store.get_set_other 0 (by omega) x s.t0)

/-- The root of a group of one vector and one leaf, without bias, is that leaf's values. -/
theorem groupRoots_single {gr : Group} {l : Leaf} (hvecs : gr.vecs = 1) (hleaves : gr.leaves = [l]) (hvec : l.vec = 0) (hbias : gr.bias = []) :
    groupRoots gr = [l.vals] := by
  have hreduce : treeReduce vadd [] [l.vals] = l.vals := rfl
  simp [groupRoots, leavesOf, hvecs, hleaves, hvec, hbias, sortBy, insertBy, hreduce]

/-- The only leaf of a one-value FP32 group that needs no acceptance is written to DEST and frees the group. -/
theorem Dev.leafAt_only {s : Dev} {c g len : Nat} {x : F32} {a : Fin (2 ^ 22)} (hstate : (s.group c g).state = .opened)
    (hleaves : (s.group c g).leaves = []) (hseen : (s.group c g).seen = []) (hnLeaf : (s.group c g).nLeaf = 1) (hvecs : (s.group c g).vecs = 1)
    (hbias : (s.group c g).bias = []) (hsrc : (s.group c g).src = 1) (hofmt : (s.group c g).ofmt = 0) (hr : s.Records (coreCh c) 30)
    (hdest : (s.group c g).dest = .scratchpad a) : ∃ t, s.DataKept t ∧ (t.group c g).state = .free ∧
      s.leafAt c g (s.group c g).epoch ⟨0, 0, [x], len, 1, false⟩ = t.putScratch c a.val (toBytes 4 x.toNat) := by
  obtain ⟨hdata, d, u, hgroup⟩ := Dev.groupStatus_recorded (s := s.modGroup c g (withLeaf · ⟨0, 0, [x], len, 1, false⟩)) g (hr.modGroup ..)
  rw [Dev.modGroup_same] at hgroup
  rw [Dev.leafAt_taken hstate (by simp [hnLeaf]) (by simp [hvecs]) (by simp [hseen])]
  generalize (s.modGroup c g (withLeaf · ⟨0, 0, [x], len, 1, false⟩)).groupStatus c g = m at hdata hgroup
  rw [Dev.closeGroup_released (by rw [hgroup]; exact hstate) (by simp [hgroup, withLeaf, hleaves, hnLeaf, hvecs])
    (by simp [hgroup, withLeaf, hnLeaf]) (by simp [hgroup, withLeaf, hsrc])]
  have hheld : (m.modGroup c g holdGroup).group c g = holdGroup (m.group c g) := Dev.modGroup_same ..
  obtain ⟨t, ht, hfree, hrelease⟩ := Dev.releaseGroup_scratchpad (s := m.modGroup c g holdGroup) (c := c) (g := g) (a := a) (by rw [hheld]; rfl)
    (by rw [hheld, hgroup]; exact hdest)
  refine ⟨t, (((s.modGroup_data ..).trans hdata).trans (m.modGroup_data ..)).trans ht, hfree, hrelease.trans ?_⟩
  have hroots : groupRoots (m.group c g) = [[x]] := by
    rw [hgroup]
    exact groupRoots_single (l := ⟨0, 0, [x], len, 1, false⟩) hvecs (by simp [withLeaf, hleaves]) rfl hbias
  have hfmt : (m.group c g).ofmt = 0 := by rw [hgroup]; exact hofmt
  rw [hheld]
  simp [holdGroup, hroots, hfmt, ofmtBytes]

/-! ### The adapter leaf (R272) -/

theorem Dev.Awaits.bump_att {s : Dev} {c g epoch ix vec : Nat} (h : s.Awaits c g epoch ix vec) (ch i n : Nat) :
    (s.bump .att ch i Off.ATT_PMAC n).Awaits c g epoch ix vec := by
  obtain ⟨hstate, hepoch, hix, hvec, hseen, hmore, hr⟩ := h
  have hgroup := ((Dev.Noted.refl s).bump .att ch i Off.ATT_PMAC n).group c g
  refine ⟨hgroup ▸ hstate, hgroup ▸ hepoch, hgroup ▸ hix, hgroup ▸ hvec, hgroup ▸ hseen, hgroup ▸ hmore, hr.of_page fun o ho => ?_⟩
  exact Dev.bump_reg_other s (pageOff_accCh_ne_att _ _ _ (by omega) (by decide)) (pageOff_accCh_ne_att _ _ _ (by omega) (by decide))

/-- The adapter leaf of a vector that its group waits for is the group's last leaf. -/
theorem Dev.adapterLeaf_taken {s : Dev} {c g vec : Nat} {l : Layer} {e : Exec} {q : SeqRef} {img : AdpImg} {aOff bOff : Nat}
    (hserves : s.serves (coreCh c) = true) (hl : s.layerOf (s.group c g).ctx (s.group c g).layer = some l)
    (he : s.execOf c (s.group c g).exec = some e) (hq : e.seq = some q) (himg : s.pinnedAdapter q.ix = some img)
    (hplace : img.layers.find? (·.1 = (s.group c g).layer) = some ((s.group c g).layer, aOff, bOff))
    (hlow : ((redTiles l false (s.group c g).first).map tileCore).head? = some c) (hstate : (s.group c g).state = .opened)
    (hsrc : (s.group c g).src = 0) (htrans : (s.group c g).transpose = false) :
    s.adapterLeaf c g vec = (s.bump .att (coreCh c) (c / 8 % 8) Off.ATT_PMAC (img.rank * (l.rows + (s.group c g).cols))).leafAt c g
      (s.group c g).epoch ⟨(s.group c g).nLeaf - 1, vec,
        adapterVals img aOff bOff l.rows (s.group c g).first (s.group c g).cols (nth [] e.xs vec), img.rank, 1, false⟩ := by
  unfold Dev.adapterLeaf
  simp only [hl, he, hq, himg, hplace, hlow, Option.bind_some, Option.map_some]
  exact if_neg (by simp [hstate, hsrc, htrans, hserves])

/-- The adapter leaf joins a group that waits for it, with more to come. -/
theorem Dev.adapterLeaf_awaited {s : Dev} {c g vec : Nat} {l : Layer} {e : Exec} {q : SeqRef} {img : AdpImg} {aOff bOff : Nat}
    (hserves : s.serves (coreCh c) = true) (hl : s.layerOf (s.group c g).ctx (s.group c g).layer = some l)
    (he : s.execOf c (s.group c g).exec = some e) (hq : e.seq = some q) (himg : s.pinnedAdapter q.ix = some img)
    (hplace : img.layers.find? (·.1 = (s.group c g).layer) = some ((s.group c g).layer, aOff, bOff))
    (hlow : ((redTiles l false (s.group c g).first).map tileCore).head? = some c) (hsrc : (s.group c g).src = 0)
    (htrans : (s.group c g).transpose = false) (haw : s.Awaits c g (s.group c g).epoch ((s.group c g).nLeaf - 1) vec) :
    s.DataKept (s.adapterLeaf c g vec) ∧ ((s.adapterLeaf c g vec).group c g).leaves = (s.group c g).leaves ++
      [⟨(s.group c g).nLeaf - 1, vec, adapterVals img aOff bOff l.rows (s.group c g).first (s.group c g).cols (nth [] e.xs vec), img.rank, 1, false⟩] := by
  have hcounted := (Dev.Noted.refl s).bump .att (coreCh c) (c / 8 % 8) Off.ATT_PMAC (img.rank * (l.rows + (s.group c g).cols))
  obtain ⟨hdata, d, u, hgroup⟩ := Dev.leafAt_awaited (l := ⟨_, vec, adapterVals img aOff bOff l.rows (s.group c g).first (s.group c g).cols
    (nth [] e.xs vec), img.rank, 1, false⟩) (haw.bump_att (coreCh c) (c / 8 % 8) (img.rank * (l.rows + (s.group c g).cols)))
  obtain ⟨hstate, -⟩ := haw
  rw [Dev.adapterLeaf_taken hserves hl he hq himg hplace hlow hstate hsrc htrans]
  refine ⟨hcounted.data.trans hdata, (congrArg Group.leaves hgroup).trans ?_⟩
  rw [hcounted.group]
  rfl

/-! ### Nodes of trees (R148, R149, R156) -/

theorem Dev.treeNode_putNode (s : Dev) (c : Nat) (key : NodeKey) (n : TreeNode) : (s.putNode c key n).treeNode c key = n := by
  have hgone : ((s.core c).nodes.filter fun e => decide (e.1 ≠ key)).find? (fun e => decide (e.1 = key)) = none := by simp [List.find?_eq_none]
  simp only [Dev.treeNode, Dev.putNode, Dev.modCore_same, List.find?_append, hgone]
  simp

theorem Dev.treeNode_dropNode_other (s : Dev) {c d : Nat} (h : d ≠ c) (key k : NodeKey) : (s.dropNode c key).treeNode d k = s.treeNode d k := by
  rw [Dev.treeNode, Dev.dropNode, Dev.modCore_other s h, Dev.treeNode]

/-- A value of the only core that takes part rises to the module's root on that core. -/
theorem Dev.rise_lone (s : Dev) (key : NodeKey) (c : Nat) (v : LeafVal) (lvs : List Nat) :
    s.rise [c] key c v lvs = s.putNode c (key.at 3) ⟨0, [], some v⟩ := by
  induction lvs with
  | nil => rfl
  | cons lv lvs ih =>
    unfold Dev.rise
    simpa [List.eraseDups_cons] using ih

/-- The first of several leaves opens a node and waits there. -/
theorem Dev.nodeLeaf_first {s : Dev} {c : Nat} {key : NodeKey} (hfresh : s.treeNode c key = TreeNode.fresh) {n : Nat} (hn : 1 < n) (leaf : Nat)
    (v : LeafVal) : s.nodeLeaf c key n leaf v = (s.putNode c key ⟨n, [(leaf, v)], none⟩, none) := by
  have htake : nodeTake TreeNode.fresh n leaf v = some ⟨n, [(leaf, v)], none⟩ := rfl
  unfold Dev.nodeLeaf
  rw [hfresh, htake]
  exact if_pos hn

/-- The first channel's root that arrives at its module's node on another channel leaves its own and waits there. -/
theorem Dev.moduleLeaf_first {s : Dev} {key : NodeKey} {src c e : Nat} {cores : List Nat} {v : LeafVal} (hcores : s.keyCores key = some (e :: cores))
    (hfind : (e :: cores).find? (fun x => coreCh x = src) = some c) (hroot : (s.treeNode c (key.at 2)).root = some v) (hfar : coreCh e ≠ src)
    (hfresh : s.treeNode e (key.at 3) = TreeNode.fresh) (hmany : 1 < (((e :: cores).map coreCh).eraseDups).length) :
    s.moduleLeaf key src = (s.dropNode c (key.at 2)).putNode e (key.at 3)
      ⟨(((e :: cores).map coreCh).eraseDups).length, [((((e :: cores).map coreCh).eraseDups).idxOf src, v)], none⟩ := by
  have hc : coreCh c = src := by simpa using List.find?_some hfind
  have hce : e ≠ c := fun h => hfar (h ▸ hc)
  have hnode := Dev.nodeLeaf_first ((s.treeNode_dropNode_other hce (key.at 2) (key.at 3)).trans hfresh) hmany
    ((((e :: cores).map coreCh).eraseDups).idxOf src) v
  unfold Dev.moduleLeaf
  simp only [hcores, hfind, hroot, List.headD_cons, if_neg hfar, hnode]

theorem Dev.keyCores_of_trees {s t : Dev} (h : t.trees = s.trees) (key : NodeKey) : t.keyCores key = s.keyCores key := by
  unfold Dev.keyCores Dev.treeOf Dev.topkCores
  rw [h]

/-! ### Commands -/

/-- A leaf that a PAE or a vector engine sends to a group of its own kind, or too late, comes to the group itself. -/
theorem Dev.leafArrive_group {s : Dev} {core : CoreRef} {g : Fin 16} {epoch : Fin 4}
    (h : (s.group core.ix g.val).epoch ≠ epoch.val ∨ (s.group core.ix g.val).src ≠ 0) (leaf : Nat) (vec : Fin 16) (vals : List F32) (len : Nat) :
    s.leafArrive core (.group g epoch leaf vec vals len) = s.leafAt core.ix g.val epoch.val ⟨leaf, vec.val, vals, len, 1, false⟩ :=
  if_neg fun hall => by
    simp only [Bool.and_eq_true, decide_eq_true_eq] at hall
    exact h.elim (absurd hall.1.2) (absurd hall.2)

/-- A vector engine's own part is counted, and its top k is the root of a reduction that it alone takes part in (R156). -/
theorem Dev.leafArrive_part {s : Dev} {core : CoreRef} {ctx : CtxId} {layer run : Nat} (hcores : (s.topkCores ctx.val layer).contains core.ix = true)
    (halone : s.keyCores (.topk 1 ctx.val layer run) = some [core.ix]) (base : Nat) (xs : List F32) :
    s.leafArrive core (.part ctx layer run base xs) = (s.bump .acc core.ch.val (coreIn core.ix) Off.ACC_TOPK 1).putNode core.ix
      (.topk 3 ctx.val layer run) ⟨0, [], some (localTop
        (match s.layerOf ctx.val layer with | some l => if l.kind = 7 then l.moeK else 64 | none => 64) base xs)⟩ := by
  unfold Dev.leafArrive
  dsimp only
  rw [if_neg (by rw [hcores]; decide), Dev.enterTree, Dev.keyCores_of_trees (Dev.bump_trees ..), halone]
  exact Dev.rise_lone ..

/-- The first channel's root that the fabric brings to its module's node leaves its own core and waits there (R9, R148). -/
theorem Dev.leafArrive_module {s : Dev} {core : CoreRef} {key : NodeKey} {e : Nat} {cores : List Nat} {v : LeafVal}
    (hcores : s.keyCores key = some (e :: cores)) (hfind : (e :: cores).find? (fun x => coreCh x = core.ch.val) = some core.ix)
    (hroot : (s.treeNode core.ix (key.at 2)).root = some v) (hfar : coreCh e ≠ core.ch.val) (hjoins : s.fabricJoins core.ch.val (coreCh e) = true)
    (hfresh : s.treeNode e (key.at 3) = TreeNode.fresh) (hmany : 1 < (((e :: cores).map coreCh).eraseDups).length) :
    s.leafArrive core (.module key) = (s.dropNode core.ix (key.at 2)).putNode e (key.at 3)
      ⟨(((e :: cores).map coreCh).eraseDups).length, [((((e :: cores).map coreCh).eraseDups).idxOf core.ch.val, v)], none⟩ := by
  rw [← Dev.moduleLeaf_first hcores hfind hroot hfar hfresh hmany]
  unfold Dev.leafArrive
  simp only [hcores, hjoins, if_true]

/-- Settles O36, clause by clause: what the fuller enters and writes, and what each kind of leaf leaves where it arrives. -/
theorem vectorsAreAccumulated : Obligations.VectorsAreAccumulated := by
  unfold Obligations.VectorsAreAccumulated
  refine ⟨fun s => ⟨?_, ?_, ?_⟩, fun s core g hrun => ⟨fun epoch leaf vec vals len => ⟨?_, ?_, ?_⟩, ?_, ?_, ?_⟩⟩
  · intro core q l hrun hl hlate
    have hnoted := Dev.quantiseDone_noted (c := core.ix) hl ((coreCh_ix core).symm ▸ hlate)
    refine forms_doneTree (exec_fullerQuantiseDone hrun _) ⟨fun a => congrArg (·.get 0 a) hnoted.mem, hnoted.tiles, ?_⟩
    refine (congrArg Core.execs (hnoted.core core.ix)).trans ?_
    rw [Dev.modCore_same, coreCh_ix, coreRef_ix_div]
  · intro core w p st l pg f j nh hrun hpat hstep hlayer key hpage hplace hfrom hto hkind htier hhome
    obtain ⟨t, ⟨mem, t0, rfl⟩, hnoted⟩ := Dev.putKv_written (c := core.ix) hpat hstep hlayer hpage hplace hfrom hto hkind htier
      (by rw [coreRef_ix_div, hhome, entCh_ix])
    refine forms_doneTree (exec_fullerQuantiseDone hrun _) ⟨hnoted.tiles, hnoted.rqt, ?_⟩
    refine (congrArg Seq.pages (hnoted.seq w.seq.ix)).trans ?_
    rw [Dev.modSeq_same]
    rfl
  · intro c hs hrun hwide hleft
    rw [Gives, exec_wideModeHoldEnd hrun, Dev.holdEnd_last hwide hleft]
    exact s.done_of_settled (hs.modClus ..)
  · intro hepoch
    have harrive := (Dev.leafArrive_group (.inl hepoch) leaf vec vals len).trans (Dev.leafAt_stale hepoch _)
    rw [coreCh_ix] at harrive
    exact forms_doneTree ((exec_leafArrival hrun _).trans (congrArg _ harrive)) rfl
  · intro hsrc haw
    obtain ⟨hdata, d, u, hgroup⟩ := Dev.leafAt_awaited (l := ⟨leaf, vec.val, vals, len, 1, false⟩) haw
    refine forms_doneTree ((exec_leafArrival hrun _).trans (congrArg _ (Dev.leafArrive_group (.inr hsrc) ..)))
      ⟨fun b => congrArg (·.get 0 b) hdata.mem, hdata.tiles, ?_⟩
    obtain ⟨hstate, -⟩ := haw
    simp only [hgroup]
    exact ⟨rfl, hstate, rfl⟩
  · intro x a hepoch hstate hleaves hseen hnLeaf hvecs hbias hsrc hofmt hr hvals hvec hleaf hdest hfit
    obtain ⟨t, hdata, hgone, hput⟩ := Dev.leafAt_only (len := len) (x := x) hstate hleaves hseen hnLeaf hvecs hbias hsrc hofmt
      ((coreCh_ix core).symm ▸ hr) hdest
    obtain ⟨hmem, htiles, hcores⟩ := t.putScratch_keeps core.ix a.val (toBytes 4 x.toNat)
    obtain ⟨hin, hout⟩ := t.putScratch_get core.ix a.val (toBytes 4 x.toNat) hfit
    rw [hepoch] at hput
    refine forms_doneTree (m := t.putScratch core.ix a.val (toBytes 4 x.toNat)) ?_ ⟨fun b => congrArg (·.get 0 b) (hmem.trans hdata.mem),
      htiles.trans hdata.tiles, ?_, hin, fun b hb => (hout b hb).trans (congrArg (·.get 0 b) hdata.t0)⟩
    · rw [exec_leafArrival hrun, Dev.leafArrive_group (.inr (by simp [hsrc])), hvals, hvec, hleaf, hput]
    · exact (congrArg (fun cs => ((Store.get Core.fresh core.ix cs).groups.get Group.fresh g.val).state) hcores).trans hgone
  · intro vec l e q img aOff bOff hserves hl he hq himg hfind hlow hsrc htrans haw
    obtain ⟨hdata, hjoined⟩ := Dev.adapterLeaf_awaited ((coreCh_ix core).symm ▸ hserves) hl he hq himg hfind hlow hsrc htrans haw
    exact forms_doneTree (exec_leafArrival hrun _) ⟨fun b => congrArg (·.get 0 b) hdata.mem, hdata.tiles, hjoined⟩
  · intro ctx layer run base xs hcores halone hfree k
    have hcount := Dev.bump_rd64 hfree Off.ACC_TOPK Nat.one_ne_zero
    have hnoted := (Dev.Noted.refl s.m).bump .acc core.ch.val (coreIn core.ix) Off.ACC_TOPK 1
    refine forms_doneTree ((exec_leafArrival hrun _).trans (congrArg _ (Dev.leafArrive_part hcores halone base xs)))
      ⟨fun b => congrArg (·.get 0 b) hnoted.mem, hnoted.tiles, hcount, ?_⟩
    exact congrArg TreeNode.root (Dev.treeNode_putNode ..)
  · intro key e cores v hcores _ hfind hroot hfar hjoins _ hfresh ids hmany
    have harrive := Dev.leafArrive_module hcores hfind hroot hfar hjoins hfresh hmany
    refine forms_doneTree ((exec_leafArrival hrun _).trans (congrArg _ harrive)) ⟨fun _ => rfl, rfl, ?_⟩
    exact Dev.treeNode_putNode ..

end Sys2Proof.Machine
end


section
/-! Items on the attention engines (O38): what an item that issues leaves on its engine, what a block and a staged leaf come to, and where the leaf
waits; and the leaf of a block of a spill layer. -/

namespace Sys2Proof.Machine
open Sys2Proof

theorem exec_daeItemStart (core : CoreRef) (item : AttnItem) (s : State) :
    exec (.daeItemStart core item) s = s.done (s.m.daeStart core item) := rfl
theorem exec_daeBlockArrive {core : CoreRef} {s : State} (hrun : s.m.running core.ch.val = true) (late : Nat) :
    exec (.daeBlockArrive ⟨core, late⟩) s = s.done (s.m.daeBlock core late) := by
  change s.done (s.m.only _ _) = _
  rw [hrun, Dev.only_true]
theorem exec_paeItemStart (c : ClusterRef) (item : AttnItem) (s : State) :
    exec (.paeItemStart c item) s = s.done (s.m.paeStart c item) := rfl
theorem exec_paeStageDone {c : ClusterRef} {s : State} (hrun : s.m.running c.ch.val = true) :
    exec (.paeStageDone c) s = s.done (s.m.paeStage c) := by
  change s.done (s.m.only _ _) = _
  rw [hrun, Dev.only_true]
theorem exec_paeBackwardItem (c : ClusterRef) (item : BwdItem) (s : State) :
    exec (.paeBackwardItem c item) s = s.done (s.m.paeBackward c item) := rfl
theorem exec_spillLayerItem {c : ClusterRef} {s : State} (hrun : s.m.running c.ch.val = true) (item : SpillItem) :
    exec (.spillLayerItem c item) s = s.doneTree (s.m.spillItem c item) := by
  change s.doneTree (s.m.only _ _) = _
  rw [hrun, Dev.only_true]

/-- A channel that performs the boundary steps runs its engines. -/
theorem Dev.running_of_serves {s : Dev} {ch : Nat} (h : s.serves ch = true) : s.running ch = true := by
  simp only [Dev.serves, Bool.and_eq_true] at h
  obtain ⟨h, -⟩ := h
  simpa only [Dev.running, Bool.and_eq_true] using h

/-! ### Counters of one page and words of another -/

/-- A counter of a page leaves the words of every page of another kind alone (R441). -/
theorem Dev.bump_rd_page {k k' : PageKind} {ch i d j o r : Nat} (hv : Page.valid ⟨k, ch, i⟩ = true) (hv' : Page.valid ⟨k', d, j⟩ = true)
    (hne : k ≠ k') (ho : o + 4 < 0x1000) (hr : r < 0x1000) (s : Dev) (n : Nat) : (s.bump k ch i o n).rd k' d j r = s.rd k' d j r := by
  have hapart {q : Nat} (hq : q < 0x1000) : pageOff k' d j r ≠ pageOff k ch i q := fun h => by
    obtain ⟨hp, -⟩ := Page.base_add_inj hv' hv hr hq h
    exact hne (congrArg Page.kind hp).symm
  exact Dev.bump_reg_other s (hapart (by omega)) (hapart ho)

theorem Dev.bump_rd64_page {k k' : PageKind} {ch i d j o r : Nat} (hv : Page.valid ⟨k, ch, i⟩ = true) (hv' : Page.valid ⟨k', d, j⟩ = true)
    (hne : k ≠ k') (ho : o + 4 < 0x1000) (hr : r + 4 < 0x1000) (s : Dev) (n : Nat) : (s.bump k ch i o n).rd64 k' d j r = s.rd64 k' d j r := by
  rw [Dev.rd64, Dev.bump_rd_page hv hv' hne ho (by omega), Dev.bump_rd_page hv hv' hne ho hr, Dev.rd64]

theorem valid_corePage (core : CoreRef) {k : PageKind} (hk : k = .ful ∨ k = .pnc) : Page.valid ⟨k, coreCh core.ix, coreIn core.ix⟩ = true := by
  have hin : coreIn core.ix < 64 := Nat.mod_lt _ (by decide)
  rcases hk with rfl | rfl <;> simp [Page.valid, hin]

theorem valid_attPage (ch : ChId) (cl : ClId) : Page.valid ⟨.att, ch.val, cl.val⟩ = true := by simp [Page.valid]

/-! ### Updates that only count -/

/-- From `s` to `t` counters have risen; what serving uses, and the channels, stay. -/
structure Dev.Counted (s t : Dev) : Prop where
  noted : s.Noted t
  chans : t.chans = s.chans
  clusters : t.clusters = s.clusters

namespace Dev.Counted
variable {s t : Dev}

theorem refl (s : Dev) : s.Counted s := ⟨.refl s, rfl, rfl⟩

theorem bump (h : s.Counted t) (k : PageKind) (ch i o n : Nat) : s.Counted (t.bump k ch i o n) :=
  ⟨h.noted.bump .., (Dev.bump_chans ..).trans h.chans, (Dev.bump_clusters ..).trans h.clusters⟩

theorem countSoftmax (h : s.Counted t) (ch : Nat) (x : Nat × Nat) : s.Counted (t.countSoftmax ch x) := (h.bump ..).bump ..

theorem countQueries (h : s.Counted t) (c : Nat) (p : ItemPlace) (leaf : Nat) : s.Counted (t.countQueries c p leaf) := by
  unfold Dev.countQueries
  split
  · exact h.bump ..
  · exact h

theorem clus (h : s.Counted t) (c : Nat) : t.clus c = s.clus c := by rw [Dev.clus, h.clusters, Dev.clus]

theorem settled (h : s.Counted t) (hs : s.Settled) : t.Settled := hs.of_chans h.chans

theorem byte (h : s.Counted t) (a : Nat) : t.byte a = s.byte a := congrArg (·.get 0 a) h.noted.mem

end Dev.Counted

/-! ### Waits of a core's engines (R19, R176) -/

/-- From `s` to `t` time has been taken and counted: memory, tiles, sequences and the nodes of the vector engines stay. -/
structure Dev.Waited (s t : Dev) : Prop where
  mem : t.mem = s.mem
  tiles : t.tiles = s.tiles
  seqs : t.seqs = s.seqs
  nodes : ∀ c, (t.core c).nodes = (s.core c).nodes
  settled : s.Settled → t.Settled

namespace Dev.Waited
variable {s t : Dev}

theorem refl (s : Dev) : s.Waited s := ⟨rfl, rfl, rfl, fun _ => rfl, id⟩

theorem counted (h : s.Waited t) {u : Dev} (g : t.Counted u) : s.Waited u where
  mem := g.noted.mem.trans h.mem
  tiles := g.noted.tiles.trans h.tiles
  seqs := g.noted.seqs.trans h.seqs
  nodes c := (congrArg Core.nodes (g.noted.core c)).trans (h.nodes c)
  settled hs := g.settled (h.settled hs)

theorem modCore (h : s.Waited t) (c : Nat) {f : Core → Core} (hf : ∀ x, (f x).nodes = x.nodes) : s.Waited (t.modCore c f) where
  mem := h.mem
  tiles := h.tiles
  seqs := h.seqs
  nodes d := by
    by_cases hd : d = c
    · subst hd
      rw [Dev.modCore_same, hf, h.nodes]
    · rw [Dev.modCore_other _ hd, h.nodes]
  settled := h.settled

theorem modChan (h : s.Waited t) (ch : Nat) {f : Chan → Chan} (hf : ∀ x, (f x).due = x.due) : s.Waited (t.modChan ch f) :=
  ⟨h.mem, h.tiles, h.seqs, h.nodes, fun hs => (h.settled hs).modChan ((hf _).trans ((h.settled hs).chan ch))⟩

/-- A wait comes out of the core's slack, or makes the step's work carried work (R19). -/
theorem takeCore (s : Dev) (c ns : Nat) (r : SeqRef) : s.Waited (s.takeCore c ns (some r)) := by
  unfold Dev.takeCore
  split
  · exact refl s
  split
  · exact (refl s).modCore c fun _ => rfl
  have hcarried := (refl s).modChan r.ch.val (f := fun c =>
    { c with carried := if c.carried.contains r.e.val then c.carried else r.e.val :: c.carried }) fun _ => rfl
  change s.Waited (Dev.slipOnce _ _ _)
  unfold Dev.slipOnce
  split
  · exact hcarried
  · exact (hcarried.modChan _ fun _ => by rfl).counted ((Dev.Counted.refl _).bump ..)

theorem byte (h : s.Waited t) (a : Nat) : t.byte a = s.byte a := congrArg (·.get 0 a) h.mem

theorem treeNode (h : s.Waited t) (c : Nat) (key : NodeKey) : t.treeNode c key = s.treeNode c key := by
  rw [Dev.treeNode, h.nodes, Dev.treeNode]

end Dev.Waited

theorem Dev.homeCore_of_seqs {s t : Dev} (h : t.seqs = s.seqs) (r : Nat) : t.homeCore r = s.homeCore r := by
  rw [Dev.homeCore, Dev.seq, h, Dev.homeCore, Dev.seq]

/-! ### The leaf of an item (R167, R170) -/

/-- The node that merges the leaves of an item's rows. -/
abbrev leafKey (item : AttnItem) : NodeKey := .attn item.seq item.layer item.group item.part

/-- A node at which one leaf of an item's rows waits for the others. -/
def leafWaits (item : AttnItem) (p : ItemPlace) (rows : List AttnPartial) : TreeNode :=
  ⟨p.leaves.length, [(p.leaves.idxOf item.leaf, .attn rows)], none⟩

/-- The first of several leaves waits at the home core's node. -/
theorem Dev.itemLeaf_first {s : Dev} {item : AttnItem} {p : ItemPlace}
    (hfresh : s.treeNode (s.homeCore item.seq.ix) (leafKey item) = TreeNode.fresh) (hmany : 1 < p.leaves.length) (rows : List AttnPartial) :
    s.itemLeaf item p rows = s.putNode (s.homeCore item.seq.ix) (leafKey item) (leafWaits item p rows) := by
  have htake : nodeTake TreeNode.fresh p.leaves.length (p.leaves.idxOf item.leaf) (.attn rows) = some (leafWaits item p rows) := rfl
  unfold Dev.itemLeaf
  dsimp only
  rw [hfresh, htake]
  exact if_pos hmany

theorem Dev.putNode_dae (s : Dev) (c d : Nat) (key : NodeKey) (n : TreeNode) : ((s.putNode c key n).core d).dae = (s.core d).dae := by
  unfold Dev.putNode
  by_cases hd : d = c
  · rw [hd, Dev.modCore_same]
  · rw [Dev.modCore_other _ hd]

/-! ### The DAEs (R166, R168, R175, R177, R183) -/

/-- What an item counts that issues to a DAE: itself, a cluster other than its home, a row pass after the first, its queries (R123, R177). -/
def Dev.daeCounted (s : Dev) (core : CoreRef) (item : AttnItem) (p : ItemPlace) : Dev :=
  let s := s.bump .att core.ch.val core.cl.val Off.ATT_DITEM 1
  let s := s.bump .attCh core.ch.val 0 Off.ATT_XCL (decide (core.cl.val ≠ (s.seq item.seq.ix).home)).toNat
  let s := s.bump .attCh core.ch.val 0 Off.ATT_REPASS (decide (item.part ≠ 0)).toNat
  s.countQueries core.ix p item.leaf

theorem Dev.daeCounted_counted (s : Dev) (core : CoreRef) (item : AttnItem) (p : ItemPlace) : s.Counted (s.daeCounted core item p) :=
  ((((Dev.Counted.refl s).bump ..).bump ..).bump ..).countQueries ..

theorem Dev.daeCounted_items {s : Dev} {core : CoreRef} (hfree : s.rdF .att core.ch.val core.cl.val Off.PG_CTL 0 0 = 0) (item : AttnItem)
    (p : ItemPlace) : (s.daeCounted core item p).rd64 .att core.ch.val core.cl.val Off.ATT_DITEM =
      (s.rd64 .att core.ch.val core.cl.val Off.ATT_DITEM + 1) % 2 ^ 64 := by
  have hatt := valid_attPage core.ch core.cl
  have hattCh : Page.valid ⟨.attCh, core.ch.val, 0⟩ = true := by simp [Page.valid]
  have hqueries (t : Dev) : (t.countQueries core.ix p item.leaf).rd64 .att core.ch.val core.cl.val Off.ATT_DITEM =
      t.rd64 .att core.ch.val core.cl.val Off.ATT_DITEM := by
    unfold Dev.countQueries
    split
    · exact Dev.bump_rd64_page (valid_corePage core (.inl rfl)) hatt (by decide) (by decide) (by decide) ..
    · rfl
  rw [Dev.daeCounted, hqueries, Dev.bump_rd64_page hattCh hatt (by decide) (by decide) (by decide),
    Dev.bump_rd64_page hattCh hatt (by decide) (by decide) (by decide), Dev.bump_rd64 hfree _ Nat.one_ne_zero]

/-- An item issues to an idle DAE of its sequence's channel, where the cluster may take it. -/
theorem Dev.daeStart_issued {s : Dev} {core : CoreRef} {item : AttnItem} {p : ItemPlace} {qs : List QRow} (hp : s.daePlace item = some p)
    (hqs : queryRows p item.qs = some qs) (hidle : (s.core core.ix).dae = none) (hch : core.ch = item.seq.ch) (hserves : s.serves core.ch.val = true)
    (hcl : core.cl.val = (s.seq item.seq.ix).home ∨
      s.inForce .attCh core.ch.val 0 Off.ATT_CTL 1 1 = 1 ∧ (s.clus core.cluster.ix).therm.state ≠ .enforced) :
    s.daeStart core item = (s.daeCounted core item p).modCore core.ix fun x =>
      { x with dae := some ⟨item, qs, leafBlocks p.l p.a p.b item.leaf, freshRows p.l qs, []⟩ } := by
  have hhere : ¬ (core.cl.val ≠ (s.seq item.seq.ix).home ∧
      (s.inForce .attCh core.ch.val 0 Off.ATT_CTL 1 1 = 0 ∨ (s.clus (core.ch.val * 8 + core.cl.val)).therm.state = .enforced)) := by
    rintro ⟨haway, hbarred⟩
    obtain ⟨hxcl, hcool⟩ := hcl.resolve_left haway
    exact hbarred.elim (by omega) hcool
  unfold Dev.daeStart
  simp only [hp, hqs]
  rw [if_neg]
  · simp only [Dev.daeCounted, Dev.bump_get_seq]
  · simpa [hidle, ← hch, hserves, Dev.engines] using hhere

section
variable {s : Dev} {core : CoreRef} {a : AttnRun} {p : ItemPlace} {b : List Nat} {bs : List (List Nat)} {kvs : List KvAt}
  (hdae : (s.core core.ix).dae = some a) (hblocks : a.blocks = b :: bs) (hp : s.daePlace a.item = some p)
include hdae hblocks hp

/-- A block whose keys and values were read gives every row its next partial; with the last one the leaf is formed. -/
theorem Dev.daeBlock_got
    (hgot : s.readKv (some core.ix) a.item.seq.ix a.item.layer p.pat p.l ((a.qs.map (·.head)).eraseDups) b = .got kvs) (late : Nat) :
    ∃ t, s.Waited t ∧ s.daeBlock core late =
      if bs.isEmpty then (t.modCore core.ix fun x => { x with dae := none }).itemLeaf a.item p (blockRows 3 true p.l a.qs a.rows b kvs).1
      else t.modCore core.ix fun x => { x with dae := some { a with blocks := bs, rows := (blockRows 3 true p.l a.qs a.rows b kvs).1 } } := by
  unfold Dev.daeBlock
  simp only [hdae, hblocks, hp, hgot]
  exact ⟨_, (Dev.Waited.takeCore s core.ix _ a.item.seq).counted
    ((((((Dev.Counted.refl _).countSoftmax ..).bump ..).bump ..).bump ..).bump ..), rfl⟩

/-- The last block frees the DAE, and the first leaf of its rows waits at the node of the home core. -/
theorem Dev.daeBlock_last
    (hgot : s.readKv (some core.ix) a.item.seq.ix a.item.layer p.pat p.l ((a.qs.map (·.head)).eraseDups) b = .got kvs) (hlast : bs = [])
    (hfresh : s.treeNode (s.homeCore a.item.seq.ix) (leafKey a.item) = TreeNode.fresh) (hmany : 1 < p.leaves.length) (late : Nat) :
    ∃ t, s.Waited t ∧ (t.core core.ix).dae = none ∧ s.daeBlock core late =
      t.putNode (s.homeCore a.item.seq.ix) (leafKey a.item) (leafWaits a.item p (blockRows 3 true p.l a.qs a.rows b kvs).1) := by
  obtain ⟨t, ht, hm⟩ := Dev.daeBlock_got hdae hblocks hp hgot late
  have hfreed := ht.modCore core.ix (f := fun x => { x with dae := none }) fun _ => rfl
  have hhome := Dev.homeCore_of_seqs hfreed.seqs a.item.seq.ix
  rw [if_pos (by simp [hlast]), Dev.itemLeaf_first (by rw [hhome, hfreed.treeNode, hfresh]) hmany, hhome] at hm
  exact ⟨_, hfreed, congrArg Core.dae (Dev.modCore_same ..), hm⟩

/-- A block that no walk reaches frees the DAE and raises PAGE_WALK. -/
theorem Dev.daeBlock_fault
    (hgot : s.readKv (some core.ix) a.item.seq.ix a.item.layer p.pat p.l ((a.qs.map (·.head)).eraseDups) b = .fault) (late : Nat) :
    s.daeBlock core late = (s.modCore core.ix fun x => { x with dae := none }).raise core.ch.val 34 := by
  unfold Dev.daeBlock
  simp only [hdae, hblocks, hp, hgot]

end

/-- PAGE_WALK shows in its page. -/
theorem Dev.raise_walk_bit {s : Dev} {ch : Nat} (hch : ch < 8) (hr : s.Records ch 34) :
    bit ((s.raise ch 34).rd .attCh ch 0 Off.PG_FLT) 3 = true := by
  obtain ⟨f, o, -, ho, hraise⟩ := Dev.raise_recorded hr (by decide) (by decide)
  have hpage : collector 34 = (.attCh, 3) := rfl
  rw [hpage] at hraise
  have hfits : o + 4 < 0x1000 := by rcases ho with rfl | rfl <;> decide
  rw [hraise, Dev.bump_rd_page (by simp [Page.valid, hch]) (by simp [Page.valid, hch]) (by decide) hfits (by decide), Dev.modChan_get_rd]
  exact Dev.pageMark_bit s .attCh ch (by decide)

/-! ### The PAEs (R166, R174, R178, R180 to R182) -/

/-- An item issues to the idle PAE of its sequence's home cluster and stages its leaf. -/
theorem Dev.paeStart_issued {s : Dev} {c : ClusterRef} {item : AttnItem} {p : ItemPlace} {qs : List QRow} {kvs : List KvAt}
    (hp : s.paePlace item = some p) (hqs : queryRows p item.qs = some qs) (hidle : (s.clus c.ix).pae.run = none) (hch : c.ch = item.seq.ch)
    (hhome : c.cl.val = (s.seq item.seq.ix).home) (hserves : s.serves c.ch.val = true)
    (hgot : s.readKv none item.seq.ix item.layer p.pat p.l ((qs.map (·.head)).eraseDups) (leafBlocks p.l p.a p.b item.leaf).flatten = .got kvs) :
    ∃ t, s.Counted t ∧ s.paeStart c item = t.modClus c.ix fun x => { x with pae := { x.pae with
      run := some ⟨item, qs, leafBlocks p.l p.a p.b item.leaf, freshRows p.l qs, kvs⟩, kind := 1, ctx := (t.seq item.seq.ix).ctx } } := by
  have hfree : ¬ ((s.clus c.ix).pae.run.isSome ∨ c.ch ≠ item.seq.ch ∨ c.cl.val ≠ (s.seq item.seq.ix).home ∨ !s.engines c.ch.val) := by
    simp [hidle, ← hch, hhome, Dev.engines, hserves]
  unfold Dev.paeStart
  simp only [hp, hqs, if_neg hfree, hgot]
  exact ⟨_, ((Dev.Counted.refl s).bump ..).countQueries .., rfl⟩

/-- Query rows that a forward pass keeps are bytes of memory (R181). -/
theorem Dev.keepQueries_bytes (s : Dev) (item : AttnItem) (p : ItemPlace) (qs : List QRow) : s.BytesOnly (s.keepQueries item p qs) := by
  unfold Dev.keepQueries
  dsimp only
  split
  · exact .foldl (fun _ _ hu => hu.setBytes ..) _ (.refl s)
  · exact .refl s

theorem Dev.keepQueries_off {s : Dev} {item : AttnItem} (h : s.tuning item.seq.ix = false) (p : ItemPlace) (qs : List QRow) :
    s.keepQueries item p qs = s := if_neg (by simp [h])

/-- Only the forward pass of a tuning step changes memory. -/
theorem Dev.keepQueries_mem (s : Dev) (item : AttnItem) (p : ItemPlace) (qs : List QRow) :
    ∃ mem t0, s.keepQueries item p qs = { s with mem := mem, t0 := t0 } ∧ (s.tuning item.seq.ix = false → mem = s.mem) := by
  obtain ⟨mem, t0, hkept⟩ := s.keepQueries_bytes item p qs
  refine ⟨mem, t0, hkept, fun hoff => ?_⟩
  rw [Dev.keepQueries_off hoff] at hkept
  exact (congrArg Dev.mem hkept).symm

/-- A PAE that has worked off its item. -/
def paeFreed (x : Cluster) : Cluster := { x with pae := { x.pae with run := none, kind := 0, ctx := 0 } }

/-- A staged leaf that has been worked off goes to the node of the home core; a tuning step's forward pass keeps the queries. -/
theorem Dev.paeStage_worked {s : Dev} {c : ClusterRef} {a : AttnRun} {p : ItemPlace} (hrun : (s.clus c.ix).pae.run = some a)
    (hp : s.paePlace a.item = some p) : ∃ t, (s.modClus c.ix paeFreed).Counted t ∧
      s.paeStage c = (t.keepQueries a.item p a.qs).itemLeaf a.item p (leafRows p.l.qfmt p.l a.qs a.staged a.blocks a.rows).1 := by
  have hp' : (s.modClus c.ix paeFreed).paePlace a.item = some p := hp
  unfold paeFreed at hp' ⊢
  unfold Dev.paeStage
  simp only [hrun, hp']
  exact ⟨_, (((Dev.Counted.refl _).countSoftmax ..).bump ..).bump .., rfl⟩

/-- The first leaf of its rows waits at the node of the home core. -/
theorem Dev.paeStage_first {s : Dev} {c : ClusterRef} {a : AttnRun} {p : ItemPlace} (hrun : (s.clus c.ix).pae.run = some a)
    (hp : s.paePlace a.item = some p) (hfresh : s.treeNode (s.homeCore a.item.seq.ix) (leafKey a.item) = TreeNode.fresh)
    (hmany : 1 < p.leaves.length) : ∃ t mem t0, (s.modClus c.ix paeFreed).Counted t ∧ (s.tuning a.item.seq.ix = false → mem = s.mem) ∧
      s.paeStage c = ({ t with mem := mem, t0 := t0 } : Dev).putNode (s.homeCore a.item.seq.ix) (leafKey a.item)
        (leafWaits a.item p (leafRows p.l.qfmt p.l a.qs a.staged a.blocks a.rows).1) := by
  obtain ⟨t, ht, hm⟩ := Dev.paeStage_worked hrun hp
  obtain ⟨mem, t0, hkept, hmem⟩ := t.keepQueries_mem a.item p a.qs
  have hhome : t.homeCore a.item.seq.ix = s.homeCore a.item.seq.ix := Dev.homeCore_of_seqs ht.noted.seqs _
  have htuning : t.tuning a.item.seq.ix = s.tuning a.item.seq.ix := by rw [Dev.tuning, ht.noted.seq]; rfl
  have hnode : t.treeNode (t.homeCore a.item.seq.ix) (leafKey a.item) = TreeNode.fresh := by
    rw [hhome, ((Dev.Waited.refl _).counted ht).treeNode]
    exact hfresh
  refine ⟨t, mem, t0, ht, fun hoff => (hmem (htuning.trans hoff)).trans ht.noted.mem, ?_⟩
  rw [hm, hkept, ← hhome]
  exact Dev.itemLeaf_first (s := { t with mem := mem, t0 := t0 }) hnode hmany _

/-- A backward item, with the queries and L that the forward pass saved, adds its gradients. -/
theorem Dev.paeBackward_added {s : Dev} {c : ClusterRef} {item : BwdItem} {p : ItemPlace} {kvs : List KvAt} (hp : s.bwdPlace item = some p)
    (hidle : (s.clus c.ix).pae.run = none) (hch : c.ch = item.seq.ch) (hhome : c.cl.val = (s.seq item.seq.ix).home)
    (hserves : s.serves c.ch.val = true) (hrows : item.rows.length = p.rows.length) (hpages : ∀ q ∈ p.rows, s.absentPages item.seq.ix q.2.2 = [])
    (hgot : s.readKv none item.seq.ix item.layer p.pat p.l ((p.rows.map (·.1)).eraseDups) (leafBlocks p.l p.a p.b item.leaf).flatten = .got kvs) :
    ∃ t rows, s.Counted t ∧
      rows.map (fun q => (q.head, q.g, q.pos, q.dO)) = (p.rows.zip item.rows).map (fun e => (e.1.1, e.1.2.1, e.1.2.2, e.2.1)) ∧
      s.paeBackward c item = t.modClus c.ix fun x => { x with pae := { x.pae with
        kind := 3, ctx := (t.seq item.seq.ix).ctx
        back := some (addBwd x.pae.back (backward p.l item.seq item.layer rows (leafBlocks p.l p.a p.b item.leaf) kvs)) } } := by
  have hpresent : p.rows.any (fun q => !(s.absentPages item.seq.ix q.2.2).isEmpty) = false :=
    List.any_eq_false.2 fun q hq => by simp [hpages q hq]
  have hfree : ¬ ((s.clus c.ix).pae.run.isSome ∨ c.ch ≠ item.seq.ch ∨ c.cl.val ≠ (s.seq item.seq.ix).home ∨ !s.engines c.ch.val
      ∨ item.rows.length ≠ p.rows.length ∨ p.rows.any (fun q => !(s.absentPages item.seq.ix q.2.2).isEmpty)) := by
    rw [hpresent]
    simp [hidle, ← hch, hhome, Dev.engines, hserves, hrows]
  unfold Dev.paeBackward
  simp only [hp, if_neg hfree, hgot]
  exact ⟨_, _, (((Dev.Counted.refl s).bump ..).bump ..).bump .., by rw [List.map_map]; rfl, rfl⟩

/-! ### Spill layers (R264) -/

theorem Dev.Noted.modClus {s t : Dev} (h : s.Noted t) (c : Nat) (f : Cluster → Cluster) : s.Noted (t.modClus c f) :=
  ⟨h.mem, h.t0, h.tiles, h.cores, h.rqt, h.seqs⟩

/-- What a group waits for depends on its core, and on the header of its channel's ACC page. -/
theorem Dev.Awaits.of_noted {s t : Dev} {c g epoch ix vec : Nat} (h : s.Awaits c g epoch ix vec) (hn : s.Noted t)
    (hrd : ∀ o, o < 0x100 → t.rd .accCh (coreCh c) 0 o = s.rd .accCh (coreCh c) 0 o) : t.Awaits c g epoch ix vec := by
  obtain ⟨hstate, hepoch, hix, hvec, hseen, hmore, hr⟩ := h
  have hgroup := hn.group c g
  exact ⟨hgroup ▸ hstate, hgroup ▸ hepoch, hgroup ▸ hix, hgroup ▸ hvec, hgroup ▸ hseen, hgroup ▸ hmore, hr.of_page hrd⟩

/-- A block of a spill layer makes one leaf of its vector, of a value for each of its columns, and counts its work. -/
theorem Dev.spillItem_leaf {s : Dev} {c : ClusterRef} {item : SpillItem} {l : Layer} {b : Block} {p : Pattern} {x : List F32}
    (hserves : s.serves c.ch.val = true) (hl : s.layerOf item.ctx.val item.layer = some l) (hp : s.patOfLayer item.ctx.val item.layer = some p)
    (hb : l.blocks[item.block]? = some b) (hspills : s.blockSpills l b = true)
    (hon : l.spill = true → (s.spillOn item.ctx.val l).contains c.ch.val = true) (hcore : item.core.cluster = c)
    (hidle : (s.clus c.ix).pae.run = none) (hxs : item.xs = [x]) :
    ∃ t vals, s.Noted t ∧ (∀ o, o < 0x100 → t.rd .accCh (coreCh item.core.ix) 0 o = s.rd .accCh (coreCh item.core.ix) 0 o) ∧
      vals.length = b.cspan ∧ s.spillItem c item = t.leafAt item.core.ix item.group.val (s.group item.core.ix item.group.val).epoch
        ⟨item.leaf, 0, vals, b.rspan, 1, false⟩ := by
  have hfree : ¬ (!s.blockSpills l b ∨ (l.spill ∧ !(s.spillOn item.ctx.val l).contains c.ch.val) ∨ item.core.cluster ≠ c ∨
      (s.clus c.ix).pae.run.isSome ∨ !s.engines c.ch.val) := by
    simp only [hspills, hcore, hidle, Dev.engines, hserves]
    simpa using hon
  let t := (s.paeDid c.ix 2 item.ctx.val (b.rspan * b.cspan * 1)).bump .ful (coreCh item.core.ix) (coreIn item.core.ix) Off.FUL_ROT 1
  have ht : s.Noted t := (((Dev.Noted.refl s).modClus ..).bump ..).bump ..
  have hacc : Page.valid ⟨.accCh, coreCh item.core.ix, 0⟩ = true := by simp [Page.valid]
  have hatt : Page.valid ⟨.att, c.ix / 8, c.ix % 8⟩ = true := by
    simp [Page.valid, clusterRef_ix_div, Nat.mod_lt]
  unfold Dev.spillItem
  simp only [hl, hp, hb, if_neg hfree, hxs]
  rw [← ht.group item.core.ix item.group.val]
  refine ⟨_, _, ht.bump .pnc (coreCh item.core.ix) (coreIn item.core.ix) Off.PNC_RES _, fun o ho => ?_, ?_, rfl⟩
  · rw [Dev.bump_rd_page (valid_corePage item.core (.inr rfl)) hacc (by decide) (by decide) (by omega),
      Dev.bump_rd_page (valid_corePage item.core (.inl rfl)) hacc (by decide) (by decide) (by omega)]
    exact Dev.bump_rd_page hatt hacc (by decide) (by decide) (by omega) ..
  · rw [List.length_map, List.length_range]

/-- Settles O38, clause by clause: items on the DAEs and on the PAEs, and a block of a spill layer. -/
theorem attentionRuns : Obligations.AttentionRuns := by
  unfold Obligations.AttentionRuns
  refine ⟨fun s core hs => ⟨?_, ?_⟩, fun s c hs hserves => ⟨?_, ?_, ?_⟩, ?_⟩
  · intro item p qs hp hqs hidle hch hserves hcl
    have hissue := Dev.daeStart_issued hp hqs hidle hch hserves hcl
    have hcount := s.m.daeCounted_counted core item p
    refine answers_done ((exec_daeItemStart ..).trans (congrArg s.done hissue)) ((hcount.settled hs).modCore ..)
      ⟨hcount.byte, hcount.noted.seqs, hcount.noted.tiles, ?_, fun hfree => Dev.daeCounted_items hfree item p⟩
    rw [Dev.modCore_same, hcount.noted.core]
  · intro a p b bs late hrun hdae hblocks hp got
    refine ⟨?_, ?_, ?_⟩
    · intro kvs hgot hmore
      obtain ⟨t, ht, hm⟩ := Dev.daeBlock_got hdae hblocks hp hgot late
      rw [if_neg (by simpa using hmore)] at hm
      refine answers_done ((exec_daeBlockArrive hrun late).trans (congrArg s.done hm)) ((ht.settled hs).modCore ..)
        ⟨ht.byte, ht.seqs, ht.tiles, ?_⟩
      rw [Dev.modCore_same]
    · intro kvs hgot hlast hmany key hfresh
      obtain ⟨t, ht, hidle, hm⟩ := Dev.daeBlock_last hdae hblocks hp hgot hlast hfresh hmany late
      exact answers_done ((exec_daeBlockArrive hrun late).trans (congrArg s.done hm)) ((ht.settled hs).modCore ..)
        ⟨ht.byte, ht.tiles, (Dev.putNode_dae ..).trans hidle, Dev.treeNode_putNode ..⟩
    · intro hgot hr
      have hrec : (s.m.modCore core.ix fun x => { x with dae := none }).Records core.ch.val 34 := hr
      obtain ⟨hsettled, hmem, -, hcores⟩ := Dev.raise_recorded_keeps (hs.modCore core.ix _) hrec (by decide) (by decide)
      refine answers_done ((exec_daeBlockArrive hrun late).trans (congrArg s.done (Dev.daeBlock_fault hdae hblocks hp hgot late))) hsettled
        ⟨fun a => congrArg (·.get 0 a) hmem, ?_, Dev.raise_walk_bit core.ch.isLt hrec⟩
      exact (congrArg (Store.get Core.fresh core.ix) hcores).trans (Dev.modCore_same ..)
  · intro item p qs kvs hp hqs hidle hch hhome bs hgot
    obtain ⟨t, ht, hm⟩ := Dev.paeStart_issued hp hqs hidle hch hhome hserves hgot
    refine answers_done ((exec_paeItemStart ..).trans (congrArg s.done hm)) ((ht.settled hs).modClus ..) ⟨ht.byte, ht.noted.tiles, ?_⟩
    rw [Dev.modClus_same, ht.noted.seq]
    exact ⟨rfl, rfl, rfl⟩
  · intro a p hrun hp key hfresh hmany
    obtain ⟨t, mem, t0, ht, hmem, hm⟩ := Dev.paeStage_first hrun hp hfresh hmany
    have hclus : t.clus c.ix = paeFreed (s.m.clus c.ix) := (ht.clus c.ix).trans (Dev.modClus_same ..)
    exact answers_done ((exec_paeStageDone (Dev.running_of_serves hserves)).trans (congrArg s.done hm)) (ht.settled (hs.modClus ..))
      ⟨congrArg (·.pae.kind) hclus, congrArg (·.pae.run) hclus, ht.noted.tiles, fun hoff b => congrArg (·.get 0 b) (hmem hoff),
        Dev.treeNode_putNode ..⟩
  · intro item p kvs hp hidle hch hhome hrows hpages hgot
    obtain ⟨t, rows, ht, hproj, hm⟩ := Dev.paeBackward_added hp hidle hch hhome hserves hrows hpages hgot
    refine answers_done ((exec_paeBackwardItem ..).trans (congrArg s.done hm)) ((ht.settled hs).modClus ..)
      ⟨ht.byte, ht.noted.seqs, ht.noted.tiles, ?_⟩
    rw [Dev.modClus_same, ht.clus]
    exact ⟨rfl, rows, hproj, rfl⟩
  · intro s c item l b p x hserves hl hp hb hspills hon hcore hidle hxs gr haw
    obtain ⟨t, vals, ht, hrd, hlen, hm⟩ := Dev.spillItem_leaf hserves hl hp hb hspills hon hcore hidle hxs
    obtain ⟨hdata, d, u, hgroup⟩ := Dev.leafAt_awaited (l := ⟨item.leaf, 0, vals, b.rspan, 1, false⟩) (haw.of_noted ht hrd)
    refine forms_doneTree ((exec_spillLayerItem (Dev.running_of_serves hserves) item).trans (congrArg _ hm))
      ⟨fun a => congrArg (·.get 0 a) (ht.data.trans hdata).mem, (ht.data.trans hdata).tiles, vals, hlen, ?_⟩
    refine (congrArg Group.leaves hgroup).trans ?_
    rw [ht.group]
    rfl

end Sys2Proof.Machine
end


section
/-! Accesses through BAR2 (O21): where an aperture or a window leads, and what each kind of access does there. -/

namespace Sys2Proof.Machine
open Sys2Proof

theorem exec_bar2Access (fn : Fn) (off : Nat) (op : Bar2Op) (s : State) : exec (.bar2Access fn off op) s = s.done (s.m.bar2 fn off op) := rfl

/-- An access that leaves the channels alone gives what it does. -/
theorem gives_bar2 {s : State} (hs : s.m.Settled) {fn : Fn} {off : Nat} {op : Bar2Op} {m : Dev} (hm : s.m.bar2 fn off op = m)
    (hc : m.chans = s.m.chans) : Gives (.bar2Access fn off op) s m := by
  rw [Gives, exec_bar2Access, hm, s.done_of_settled (hs.of_chans hc)]

/-! ### Where an offset leads (R444 to R446) -/

/-- The device address that an aperture with word `w` maps an offset to. -/
def apAddr (w : Word) (off : Nat) : Nat := tierBase (fld w 9 7) (fld w 10 10 + 1) + fld w 6 0 * 2 ^ 32 + off % 2 ^ 32

/-- The word of the aperture that an offset of PF0 falls in. -/
def Dev.apWord (s : Dev) (off : Nat) : Word := s.rd .hub 0 0 (Off.HUB_AP + 4 * (off / 2 ^ 32))

theorem Dev.bar2Map_aperture {s : Dev} {off : Nat} (hoff : off < 2 ^ 36) (hon : bit (s.apWord off) 11 = true)
    (hctl : bit (s.rd .hub 0 0 Off.HUB_CTL) 0 = true) :
    s.bar2Map .pf0 off = some (fld (s.apWord off) 9 7, apAddr (s.apWord off) off, 2 ^ 32 - off % 2 ^ 32) :=
  if_pos ⟨by omega, hon, hctl⟩

theorem Dev.bar2Map_no_aperture {s : Dev} {off : Nat} (hoff : bit (s.apWord off) 11 = false) : s.bar2Map .pf0 off = none :=
  if_neg fun h => Bool.false_ne_true (hoff.symm.trans h.2.1)

theorem Dev.bar2Map_window {s : Dev} {k : Fin 63} {off : Nat} (hch : off / 2 ^ 28 < 8) (hctl : bit (s.rd .hub 0 0 Off.HUB_CTL) 1 = true)
    (hin : off % 2 ^ 28 < (s.staging (off / 2 ^ 28) (k.val + 1)).2) :
    s.bar2Map (.vf k) off = some (off / 2 ^ 28, (s.staging (off / 2 ^ 28) (k.val + 1)).1 + off % 2 ^ 28,
      (s.staging (off / 2 ^ 28) (k.val + 1)).2 - off % 2 ^ 28) :=
  if_pos ⟨hch, hctl, hin⟩

theorem fld_channel_lt (w : Word) : fld w 9 7 < 8 := Nat.mod_lt _ (by decide)

section
variable {s : Dev} (hhub : s.hubFail = false)
include hhub

theorem Dev.bar2_aperture (hfn : s.fnOn .pf0 = true) {off ch d reach : Nat} (hmap : s.bar2Map .pf0 off = some (ch, d, reach)) (hch : ch < 8)
    (op : Bar2Op) : s.bar2 .pf0 off op = if s.chClosed ch then s.linkDownAccess .pf0 off op else s.memAccess .pf0 off ch d reach op := by
  simp [Dev.bar2, hfn, hhub, hmap, hch]

theorem Dev.bar2_no_aperture (hfn : s.fnOn .pf0 = true) {off : Nat} (hmap : s.bar2Map .pf0 off = none) (op : Bar2Op) :
    s.bar2 .pf0 off op = s.apMiss .pf0 off op := by
  simp [Dev.bar2, hfn, hhub, hmap]

theorem Dev.bar2_window {k : Fin 63} (hfn : s.fnOn (.vf k) = true) {off ch d reach : Nat} (hopen : s.chClosed (off / 2 ^ 28) = false)
    (hmap : s.bar2Map (.vf k) off = some (ch, d, reach)) (op : Bar2Op) :
    s.bar2 (.vf k) off op = s.memAccess (.vf k) off ch d reach op := by
  unfold Dev.bar2
  dsimp only
  rw [if_neg (by simp [hfn, hhub]), if_neg fun h => Bool.false_ne_true (hopen.symm.trans h.2)]
  simp only [hmap]

end

/-! ### What an access does where it reaches memory (R193, R444) -/

theorem Dev.memAccess_read (s : Dev) (fn : Fn) (off ch d : Nat) {reach n : Nat} (hfit : n ≤ reach) :
    s.memAccess fn off ch d reach (.read n) = s.says (.readData (fnIx fn) off (s.viewBytes d n)) := by
  have hview : ((List.range n).map fun i => if i < reach then s.viewByte (d + i) else 0) = s.viewBytes d n :=
    List.map_congr_left fun i hi => if_pos (Nat.lt_of_lt_of_le (List.mem_range.1 hi) hfit)
  unfold Dev.memAccess
  dsimp only
  rw [if_neg (Nat.not_lt.2 hfit), hview]
  rfl

theorem Dev.memAccess_write {s : Dev} {ch : Nat} (hrun : s.fltState ch ≠ 2) (fn : Fn) (off d : Nat) {reach : Nat} {bs : List Byte}
    (hfit : bs.length ≤ reach) : s.memAccess fn off ch d reach (.write bs) = s.hostPoke d bs := by
  unfold Dev.memAccess
  dsimp only
  rw [if_neg hrun, if_neg (Nat.not_lt.2 hfit), List.take_of_length_le hfit]

theorem Dev.memAccess_halted {s : Dev} {ch : Nat} (hhalt : s.fltState ch = 2) (fn : Fn) (off d reach : Nat) (bs : List Byte) :
    s.memAccess fn off ch d reach (.write bs) = s.bump .hub 0 0 Off.HUB_HALTWR 1 := if_pos hhalt

theorem Dev.hostPoke_chans (s : Dev) (a : Nat) (bs : List Byte) : (s.hostPoke a bs).chans = s.chans := by
  induction bs generalizing s a with
  | nil => rfl
  | cons b bs ih =>
    unfold Dev.hostPoke
    refine (ih ..).trans ?_
    split <;> rfl

/-- Where no directory, leaf or log lies, a host write stores its bytes, and nothing else changes. -/
theorem Dev.hostPoke_outside {s : Dev} {a : Nat} {bs : List Byte} (h : ∀ x, a ≤ x → x < a + bs.length → s.metaUnit x = none) :
    s.hostPoke a bs = s.setBytes a bs := by
  induction bs generalizing s a with
  | nil => rfl
  | cons b bs ih =>
    have hfirst : s.metaUnit a = none := h a (Nat.le_refl a) (by simp)
    unfold Dev.hostPoke Dev.setBytes
    simp only [hfirst]
    refine ih fun x hlo hhi => ?_
    exact h x (by omega) (by simp; omega)

/-- Settles O21, clause by clause: apertures of an open and of a closed channel, no aperture, and the window of a virtual function. -/
theorem bar2ReachesMemory : Obligations.Bar2ReachesMemory := by
  unfold Obligations.Bar2ReachesMemory
  intro s off n bs hs hfn hhub hoff w ch d
  refine ⟨fun hon hctl hopen => ?_, fun hon hctl hclosed => ?_, fun hno => ?_, fun k hvf hch hctl hopen => ?_⟩
  · have hmem (op : Bar2Op) : s.m.bar2 .pf0 off op = s.m.memAccess .pf0 off ch d (2 ^ 32 - off % 2 ^ 32) op :=
      (Dev.bar2_aperture hhub hfn (Dev.bar2Map_aperture hoff hon hctl) (fld_channel_lt w) op).trans (if_neg (Bool.eq_false_iff.1 hopen))
    refine ⟨fun hfit => ?_, fun hrun hfit => ⟨?_, Dev.hostPoke_outside⟩, fun hhalt => ?_⟩
    · exact gives_bar2 hs ((hmem _).trans (Dev.memAccess_read _ _ _ _ _ (by omega))) rfl
    · exact gives_bar2 hs ((hmem _).trans (Dev.memAccess_write hrun _ _ _ (by omega))) (Dev.hostPoke_chans ..)
    · exact gives_bar2 hs ((hmem _).trans (Dev.memAccess_halted hhalt ..)) (Dev.bump_chans ..)
  · have hdown (op : Bar2Op) : s.m.bar2 .pf0 off op = s.m.linkDownAccess .pf0 off op :=
      (Dev.bar2_aperture hhub hfn (Dev.bar2Map_aperture hoff hon hctl) (fld_channel_lt w) op).trans (if_pos hclosed)
    exact ⟨gives_bar2 hs (hdown _) (Dev.bump_chans ..), gives_bar2 hs (hdown _) (Dev.bump_chans ..)⟩
  · have hmiss := Dev.bar2_no_aperture hhub hfn (Dev.bar2Map_no_aperture hno)
    exact ⟨gives_bar2 hs (hmiss _) (Dev.bump_chans ..), gives_bar2 hs (hmiss _) (Dev.bump_chans ..)⟩
  · intro area
    have hmem (op : Bar2Op) (hin : off % 2 ^ 28 < area.2) := Dev.bar2_window hhub hvf hopen (Dev.bar2Map_window hch hctl hin) op
    refine ⟨fun hn hfit => ?_, fun hbs hfit hrun => ?_⟩
    · exact gives_bar2 hs ((hmem _ (by omega)).trans (Dev.memAccess_read _ _ _ _ _ (Nat.le_sub_of_add_le' hfit))) rfl
    · have hlen := List.length_pos_iff.2 hbs
      exact gives_bar2 hs ((hmem _ (by omega)).trans (Dev.memAccess_write hrun _ _ _ (Nat.le_sub_of_add_le' hfit))) (Dev.hostPoke_chans ..)

end Sys2Proof.Machine
end


section
/-! Entries of the request table: the bytes of a field, STATE_W (R217 to R221), and what an update of one entry leaves alone. -/

namespace Sys2Proof
open Sys2Proof.Machine

/-! ### Bytes in order -/

@[simp] theorem length_toBytes (n v : Nat) : (toBytes n v).length = n := by
  induction n generalizing v with
  | zero => rfl
  | succ n ih => exact congrArg (· + 1) (ih _)

theorem ofBytes_toBytes (n v : Nat) : ofBytes (toBytes n v) = v % 256 ^ n := by
  induction n generalizing v with
  | zero => simp [toBytes, ofBytes, Nat.mod_one]
  | succ n ih =>
    rw [toBytes, ofBytes, ih, BitVec.toNat_ofNat, Nat.pow_succ' (n := n), Nat.mod_mul (a := 256)]

theorem ofBytes_lt (bs : List Byte) : ofBytes bs < 256 ^ bs.length := by
  induction bs with
  | nil => simp [ofBytes]
  | cons b bs ih =>
    have hb : b.toNat < 256 := b.isLt
    rw [ofBytes, List.length_cons, Nat.pow_succ']
    omega

/-- Bytes stored in order read back, and every other key reads as before. -/
theorem putEntry_get (r o k : Nat) (bs : List Byte) (m : Store Byte) : (putEntry r o bs m).get 0 k =
    if r * 128 + o ≤ k ∧ k < r * 128 + o + bs.length then bs.getD (k - (r * 128 + o)) 0 else m.get 0 k := by
  induction bs generalizing o m with
  | nil => rw [if_neg (by simp), putEntry]
  | cons b bs ih =>
    rw [putEntry, ih, List.length_cons]
    rcases Nat.lt_trichotomy k (r * 128 + o) with h | h | h
    · rw [if_neg (by omega), if_neg (by omega), Store.get_set_other 0 (by omega)]
    · subst h
      rw [if_neg (by omega), if_pos (by omega), Store.get_set_same, Nat.sub_self, List.getD_cons_zero]
    · obtain ⟨d, rfl⟩ : ∃ d, k = r * 128 + o + 1 + d := ⟨k - (r * 128 + o + 1), by omega⟩
      rw [Store.get_set_other 0 (by omega), show r * 128 + o + 1 + d - (r * 128 + o) = d + 1 by omega,
        show r * 128 + o + 1 + d - (r * 128 + (o + 1)) = d by omega, List.getD_cons_succ]
      by_cases hd : d < bs.length
      · rw [if_pos (by omega), if_pos (by omega)]
      · rw [if_neg (by omega), if_neg (by omega)]

theorem putEntry_get_range (r o : Nat) (bs : List Byte) (m : Store Byte) :
    (List.range bs.length).map (fun i => (putEntry r o bs m).get 0 (r * 128 + o + i)) = bs := by
  refine List.ext_getElem (by simp) fun i hi _ => ?_
  have hlt : i < bs.length := by simpa using hi
  rw [List.getElem_map, List.getElem_range, putEntry_get, if_pos (by omega), Nat.add_sub_cancel_left, List.getD_eq_getElem _ _ hlt]

end Sys2Proof

namespace Sys2Proof.Machine
open Sys2Proof

/-! ### Memory, byte by byte -/

theorem Dev.setBytes_mem (s : Dev) (a : Nat) (bs : List Byte) : (s.setBytes a bs).mem = putEntry 0 a bs s.mem := by
  induction bs generalizing s a with
  | nil => rfl
  | cons b bs ih => rw [Dev.setBytes, ih, putEntry, Nat.zero_mul, Nat.zero_add, Dev.setByte]

theorem Dev.setBytes_byte_other (s : Dev) {a c : Nat} {bs : List Byte} (h : c < a ∨ a + bs.length ≤ c) :
    (s.setBytes a bs).byte c = s.byte c := by
  rw [Dev.byte, Dev.setBytes_mem, putEntry_get, if_neg (by omega), Dev.byte]

theorem Dev.setBytes_bytes (s : Dev) (a : Nat) (bs : List Byte) : (s.setBytes a bs).bytes a bs.length = bs := by
  have h := putEntry_get_range 0 a bs s.mem
  rw [← Dev.setBytes_mem, Nat.zero_mul, Nat.zero_add] at h
  exact h

/-! ### Fields of an entry (R217) -/

@[simp] theorem Dev.setEnt_get_seq (s : Dev) (r o n v j : Nat) : (s.setEnt r o n v).seq j = s.seq j := rfl

theorem Dev.ent_of_rqt {s t : Dev} (h : t.rqt = s.rqt) (x o n : Nat) : t.ent x o n = s.ent x o n := by rw [Dev.ent, h, Dev.ent]

theorem Dev.ent_lt (s : Dev) (r o n : Nat) : s.ent r o n < 256 ^ n := by
  have h := ofBytes_lt ((List.range n).map fun i => s.rqt.get 0 (r * 128 + o + i))
  rwa [List.length_map, List.length_range] at h

theorem Dev.ent_setEnt_same (s : Dev) (r o n v : Nat) : (s.setEnt r o n v).ent r o n = v % 256 ^ n := by
  have h := putEntry_get_range r o (toBytes n v) s.rqt
  rw [length_toBytes] at h
  rw [Dev.ent, Dev.setEnt, h, ofBytes_toBytes]

theorem Dev.ent_setEnt_of_ne (s : Dev) {r o n v x p k : Nat} (h : ∀ i, i < k → ∀ j, j < n → x * 128 + p + i ≠ r * 128 + o + j) :
    (s.setEnt r o n v).ent x p k = s.ent x p k := by
  unfold Dev.ent
  refine congrArg ofBytes (List.map_congr_left fun i hi => ?_)
  have hi := List.mem_range.1 hi
  rw [Dev.setEnt, putEntry_get, length_toBytes, if_neg]
  intro hin
  exact h i hi (x * 128 + p + i - (r * 128 + o)) (by omega) (by omega)

/-- A field of an entry leaves the fields beside it alone. -/
theorem Dev.ent_setEnt_apart (s : Dev) {r o n v p k : Nat} (h : p + k ≤ o ∨ o + n ≤ p) : (s.setEnt r o n v).ent r p k = s.ent r p k :=
  s.ent_setEnt_of_ne fun _ _ _ _ => by omega

/-- A field of an entry leaves every other entry alone. -/
theorem Dev.ent_setEnt_entry (s : Dev) {r o n v x p k : Nat} (hx : x ≠ r) (ho : o + n ≤ 128) (hp : p + k ≤ 128) :
    (s.setEnt r o n v).ent x p k = s.ent x p k :=
  s.ent_setEnt_of_ne fun _ _ _ _ => by omega

/-! ### STATE_W (R219, R220) -/

theorem Dev.stateW_lt (s : Dev) (r : Nat) : s.stateW r < 2 ^ 32 := s.ent_lt r Ent.STATE_W 4

theorem Dev.st_lt (s : Dev) (r : Nat) : s.st r < 16 := Nat.mod_lt _ (by decide)

theorem Dev.st_of_stateW {s t : Dev} {r : Nat} (h : t.stateW r = s.stateW r) : t.st r = s.st r := congrArg (nfld · 3 0) h

theorem Dev.st_of_rqt {s t : Dev} (h : t.rqt = s.rqt) (r : Nat) : t.st r = s.st r := Dev.st_of_stateW (Dev.ent_of_rqt h ..)

theorem Dev.stateW_setEnt (s : Dev) (r : Nat) {o n : Nat} (v : Nat) (h : 4 ≤ o) : (s.setEnt r o n v).stateW r = s.stateW r :=
  s.ent_setEnt_apart (.inl h)

/-- What STATE_W says beside STATE depends on its upper bits. -/
theorem Dev.reason_of_head {s t : Dev} {r : Nat} (h : t.stateW r / 16 = s.stateW r / 16) : t.reason r = s.reason r := by
  simp only [Dev.reason, nfld]
  omega
theorem Dev.stopWhy_of_head {s t : Dev} {r : Nat} (h : t.stateW r / 16 = s.stateW r / 16) : t.stopWhy r = s.stopWhy r := by
  simp only [Dev.stopWhy, nfld]
  omega

section
variable (s : Dev) (r : Nat) {st : Nat} (hst : st < 16)
include hst

theorem Dev.setSt_stateW : (s.setSt r st).stateW r = s.stateW r / 16 * 16 + st := by
  have hw := s.stateW_lt r
  rw [Dev.setSt, Dev.stateW, Dev.ent_setEnt_same]
  exact Nat.mod_eq_of_lt (by omega)

theorem Dev.setSt_st : (s.setSt r st).st r = st := by
  rw [Dev.st, s.setSt_stateW r hst, nfld]
  omega

theorem Dev.setSt_head : (s.setSt r st).stateW r / 16 = s.stateW r / 16 := by
  rw [s.setSt_stateW r hst]
  omega

section
variable {reason detail why : Nat} (hreason : reason < 256) (hdetail : detail < 256) (hwhy : why < 8)
include hreason hdetail hwhy

theorem Dev.setStateW_stateW : (s.setStateW r st reason detail why).stateW r = st + reason * 256 + detail * 65536 + why * 2 ^ 24 := by
  rw [Dev.setStateW, Dev.stateW, Dev.ent_setEnt_same]
  exact Nat.mod_eq_of_lt (by omega)

theorem Dev.setStateW_shows : (s.setStateW r st reason detail why).st r = st ∧ (s.setStateW r st reason detail why).reason r = reason ∧
    (s.setStateW r st reason detail why).stopWhy r = why := by
  simp only [Dev.st, Dev.reason, Dev.stopWhy, s.setStateW_stateW r hst hreason hdetail hwhy, nfld]
  omega

end
end

/-! ### Updates that leave entries and sequences alone -/

/-- From `s` to `t` the request table and what the module keeps of the sequences stay. -/
structure Dev.SameTable (s t : Dev) : Prop where
  rqt : t.rqt = s.rqt
  seqs : t.seqs = s.seqs

namespace Dev.SameTable
variable {s t u : Dev}

theorem refl (s : Dev) : s.SameTable s := ⟨rfl, rfl⟩

theorem trans (h : s.SameTable t) (g : t.SameTable u) : s.SameTable u := ⟨g.rqt.trans h.rqt, g.seqs.trans h.seqs⟩

theorem bump (h : s.SameTable t) (k : PageKind) (ch i o n : Nat) : s.SameTable (t.bump k ch i o n) :=
  ⟨(Dev.bump_rqt ..).trans h.rqt, (Dev.bump_seqs ..).trans h.seqs⟩

theorem ent (h : s.SameTable t) (x o n : Nat) : t.ent x o n = s.ent x o n := Dev.ent_of_rqt h.rqt ..

theorem stateW (h : s.SameTable t) (x : Nat) : t.stateW x = s.stateW x := h.ent ..

theorem st (h : s.SameTable t) (x : Nat) : t.st x = s.st x := Dev.st_of_rqt h.rqt x

theorem seq (h : s.SameTable t) (x : Nat) : t.seq x = s.seq x := by rw [Dev.seq, h.seqs, Dev.seq]

/-- A fold that carries something beside the module. -/
theorem foldl_fst {α β : Type} {f : Dev × β → α → Dev × β} (hf : ∀ (acc : Dev × β) a, acc.1.SameTable (f acc a).1) (l : List α) (b : β) :
    s.SameTable (l.foldl f (s, b)).1 := by
  suffices h : ∀ acc : Dev × β, acc.1.SameTable (l.foldl f acc).1 from h (s, b)
  induction l with
  | nil => exact fun acc => refl acc.1
  | cons a l ih => exact fun acc => (hf acc a).trans (ih _)

end Dev.SameTable

/-- From `s` to `t` memory, the request table and sequences stay: what raising a source leaves alone. -/
structure Dev.Signalled (s t : Dev) : Prop where
  mem : t.mem = s.mem
  table : s.SameTable t

theorem Dev.Signalled.refl (s : Dev) : s.Signalled s := ⟨rfl, .refl s⟩

theorem Dev.Signalled.byte {s t : Dev} (h : s.Signalled t) (a : Nat) : t.byte a = s.byte a := congrArg (·.get 0 a) h.mem

theorem Dev.Signalled.raiseKeeps (s : Dev) : Dev.RaiseKeeps s.Signalled where
  setReg _ _ h := ⟨h.mem, h.table.rqt, h.table.seqs⟩
  modChan _ _ h := ⟨h.mem, h.table.rqt, h.table.seqs⟩
  modTile _ _ h := ⟨h.mem, h.table.rqt, h.table.seqs⟩
  modClus _ _ h := ⟨h.mem, h.table.rqt, h.table.seqs⟩
  modMgt _ _ h := ⟨h.mem, h.table.rqt, h.table.seqs⟩
  emit _ h := ⟨(Dev.emit_mem ..).trans h.mem, (Dev.emit_rqt ..).trans h.table.rqt, (Dev.emit_seqs ..).trans h.table.seqs⟩
  safeState _ h := ⟨h.mem, h.table.rqt, h.table.seqs⟩

theorem Dev.raise_signalled (s : Dev) (ch ix : Nat) : s.Signalled (s.raise ch ix) :=
  (Dev.Signalled.raiseKeeps s).raiseAt _ _ _ _ _ (.refl s)

/-! ### Frames come and go (R190, R191) -/

/-- From `s` to `t` frames may have been taken, cleared and freed: the table, sequences, tiles and channels stay. -/
structure Dev.Stowed (s t : Dev) : Prop where
  table : s.SameTable t
  tiles : t.tiles = s.tiles
  chans : t.chans = s.chans

namespace Dev.Stowed
variable {s t u : Dev}

theorem refl (s : Dev) : s.Stowed s := ⟨.refl s, rfl, rfl⟩

theorem trans (h : s.Stowed t) (g : t.Stowed u) : s.Stowed u := ⟨h.table.trans g.table, g.tiles.trans h.tiles, g.chans.trans h.chans⟩

theorem foldl {α : Type} {f : Dev → α → Dev} (hf : ∀ (u : Dev) a, u.Stowed (f u a)) (l : List α) (h : s.Stowed t) :
    s.Stowed (l.foldl f t) := by
  induction l generalizing t with
  | nil => exact h
  | cons a l ih => exact ih (h.trans (hf t a))

theorem bump (h : s.Stowed t) (k : PageKind) (ch i o n : Nat) : s.Stowed (t.bump k ch i o n) :=
  ⟨h.table.bump .., (Dev.bump_tiles ..).trans h.tiles, (Dev.bump_chans ..).trans h.chans⟩

theorem modMem (h : s.Stowed t) (ch : Nat) (f : Mem → Mem) : s.Stowed (t.modMem ch f) := ⟨⟨h.table.rqt, h.table.seqs⟩, h.tiles, h.chans⟩

theorem setBytes (h : s.Stowed t) (a : Nat) (bs : List Byte) : s.Stowed (t.setBytes a bs) :=
  h.trans ⟨⟨Dev.setBytes_rqt .., Dev.setBytes_seqs ..⟩, Dev.setBytes_tiles .., Dev.setBytes_chans ..⟩

theorem freeFrames (h : s.Stowed t) (fs : List Frame) : s.Stowed (t.freeFrames fs) := by
  refine foldl (fun u f => ?_) fs h
  unfold Dev.freeFrame
  split <;> exact ⟨⟨rfl, rfl⟩, rfl, rfl⟩

theorem freeDir (h : s.Stowed t) (r : Nat) : s.Stowed (t.freeDir r) := by
  unfold Dev.freeDir
  exact (h.freeFrames _).modMem _ _

theorem takeT1One (h : s.Stowed t) (ch ctx : Nat) : s.Stowed (t.takeT1One ch ctx).1 := by
  have hclear {u : Dev} (a : Nat) (hu : s.Stowed u) : s.Stowed ((u.zero a frameBytes).bump .kvpCh ch 0 Off.KVP_SCRUB 1) :=
    .bump (t := u.zero a frameBytes) (hu.trans ⟨⟨rfl, rfl⟩, rfl, rfl⟩) ..
  unfold Dev.takeT1One
  exact .bump (Dev.RaiseKeeps.branch (hclear _ (h.modMem _ _)) (h.modMem _ _)) ..

theorem addLeaf (h : s.Stowed t) (ch r ptr : Nat) : s.Stowed (t.addLeaf ch r ptr) := by
  unfold Dev.addLeaf
  refine modMem ?_ _ _
  split
  · exact h
  · exact h.takeT1One ..

theorem fitLeaves (h : s.Stowed t) (ch : Nat) : s.Stowed (t.fitLeaves ch) := by
  unfold Dev.fitLeaves
  exact foldl (fun u _ => (refl u).addLeaf ..) _ ((h.freeFrames _).modMem _ _)

theorem settled (h : s.Stowed t) (hs : s.Settled) : t.Settled := hs.of_chans h.chans

end Dev.Stowed

/-! ### Updates of one entry -/

/-- From `s` to `t` one entry and its sequence may have changed: the other entries and sequences and the tiles stay, and no change of fault state
comes to wait. -/
structure Dev.Within (r : Nat) (s t : Dev) : Prop where
  tiles : t.tiles = s.tiles
  settled : s.Settled → t.Settled
  ent : ∀ x, x ≠ r → ∀ o n, o + n ≤ 128 → t.ent x o n = s.ent x o n
  seq : ∀ x, x ≠ r → t.seq x = s.seq x

namespace Dev.Within
variable {r : Nat} {s t u : Dev}

theorem refl (r : Nat) (s : Dev) : Within r s s := ⟨rfl, id, fun _ _ _ _ _ => rfl, fun _ _ => rfl⟩

theorem trans (h : Within r s t) (g : Within r t u) : Within r s u where
  tiles := g.tiles.trans h.tiles
  settled hs := g.settled (h.settled hs)
  ent x hx o n ho := (g.ent x hx o n ho).trans (h.ent x hx o n ho)
  seq x hx := (g.seq x hx).trans (h.seq x hx)

theorem stowed (h : Within r s t) (g : t.Stowed u) : Within r s u where
  tiles := g.tiles.trans h.tiles
  settled hs := g.settled (h.settled hs)
  ent x hx o n ho := (g.table.ent x o n).trans (h.ent x hx o n ho)
  seq x hx := (g.table.seq x).trans (h.seq x hx)

theorem bump (h : Within r s t) (k : PageKind) (ch i o n : Nat) : Within r s (t.bump k ch i o n) := h.stowed ((Dev.Stowed.refl t).bump ..)

theorem modSeq (h : Within r s t) (f : Seq → Seq) : Within r s (t.modSeq r f) :=
  ⟨h.tiles, h.settled, h.ent, fun x hx => (Dev.modSeq_other t hx f).trans (h.seq x hx)⟩

theorem setEnt (h : Within r s t) {o n : Nat} (ho : o + n ≤ 128) (v : Nat) : Within r s (t.setEnt r o n v) :=
  ⟨h.tiles, h.settled, fun x hx p k hp => (t.ent_setEnt_entry hx ho hp).trans (h.ent x hx p k hp), h.seq⟩

theorem modChan (h : Within r s t) (ch : Nat) {f : Chan → Chan} (hf : ∀ c, (f c).due = c.due) : Within r s (t.modChan ch f) :=
  ⟨h.tiles, fun hs => (h.settled hs).modChan ((hf _).trans ((h.settled hs).chan ch)), h.ent, h.seq⟩

theorem st (h : Within r s t) {x : Nat} (hx : x ≠ r) : t.st x = s.st x := Dev.st_of_stateW (h.ent x hx _ _ (by decide))

theorem branch {c : Prop} [Decidable c] (ht : Within r s t) (hu : Within r s u) : Within r s (if c then t else u) := by
  split
  · exact ht
  · exact hu

end Dev.Within

end Sys2Proof.Machine
end


section
/-! Endings of sequences (R231 to R235, R240): what abandoning a step, giving back what a sequence holds, its last record and its status word
leave of the entry. -/

namespace Sys2Proof

/-- A sequence whose group has been closed (R237). -/
def Seq.closed (q : Seq) : Seq := { q with group := [], swDue := false, irqDue := false }

/-- A sequence that holds nothing any more (R235); its words from DLV_POS on are kept (R387). -/
def Seq.emptied (q : Seq) (pos : Nat) : Seq :=
  { q with
    kept := (pos, q.logW.drop pos), pages := [], log := [], logW := [], ckptFrames := [], work := [], slotA := Ckpt.none, slotB := Ckpt.none
    copying := none, ckptAgain := false, rsv := 0, step := none, held := none, replay := [], restore := none, hoodTier := 0, hoodAux := []
    restoreLog := [], inPlace := false, past := false }

end Sys2Proof

namespace Sys2Proof.Machine
open Sys2Proof

/-- From `s` to `t` an entry keeps what its STATE_W says beside STATE, the step in flight and the pages of its sequence. -/
structure Dev.Told (r : Nat) (s t : Dev) : Prop where
  head : t.stateW r / 16 = s.stateW r / 16
  step : (t.seq r).step = (s.seq r).step
  pages : (t.seq r).pages = (s.seq r).pages

namespace Dev.Told
variable {r : Nat} {s t u : Dev}

theorem refl (r : Nat) (s : Dev) : Told r s s := ⟨rfl, rfl, rfl⟩

theorem trans (h : Told r s t) (g : Told r t u) : Told r s u := ⟨g.head.trans h.head, g.step.trans h.step, g.pages.trans h.pages⟩

theorem table (h : Told r s t) (g : t.SameTable u) : Told r s u :=
  h.trans ⟨congrArg (· / 16) (g.stateW r), congrArg Seq.step (g.seq r), congrArg Seq.pages (g.seq r)⟩

theorem bump (h : Told r s t) (k : PageKind) (ch i o n : Nat) : Told r s (t.bump k ch i o n) := h.table ((Dev.SameTable.refl t).bump ..)

theorem modSeq (h : Told r s t) {f : Seq → Seq} (hstep : (f (t.seq r)).step = (t.seq r).step) (hpages : (f (t.seq r)).pages = (t.seq r).pages) :
    Told r s (t.modSeq r f) := by
  refine h.trans ⟨rfl, ?_, ?_⟩
  · rw [Dev.modSeq_same, hstep]
  · rw [Dev.modSeq_same, hpages]

theorem setEnt (h : Told r s t) {o : Nat} (ho : 4 ≤ o) (n v : Nat) : Told r s (t.setEnt r o n v) :=
  h.trans ⟨congrArg (· / 16) (t.stateW_setEnt r v ho), rfl, rfl⟩

theorem setSt (h : Told r s t) {st : Nat} (hst : st < 16) : Told r s (t.setSt r st) := h.trans ⟨t.setSt_head r hst, rfl, rfl⟩

theorem branch {c : Prop} [Decidable c] (ht : Told r s t) (hu : Told r s u) : Told r s (if c then t else u) := by
  split
  · exact ht
  · exact hu

end Dev.Told

/-! ### Status words and records (R237, R240, R241) -/

section
variable {r : Nat} {s t : Dev}

theorem Dev.Told.note (h : Dev.Told r s t) (irq : Bool) : Dev.Told r s (t.note r irq) := h.modSeq rfl rfl
theorem Dev.Within.note (h : Dev.Within r s t) (irq : Bool) : Dev.Within r s (t.note r irq) := h.modSeq _

theorem Dev.Told.putRec (h : Dev.Told r s t) (word : Nat) : Dev.Told r s (t.putRec r word) :=
  ((Dev.Told.modSeq (h.setEnt (by decide) ..) rfl rfl).bump ..).bump ..
theorem Dev.Within.putRec (h : Dev.Within r s t) (word : Nat) : Dev.Within r s (t.putRec r word) :=
  (((h.setEnt (by decide) _).modSeq _).bump ..).bump ..

theorem Dev.Told.statusOnly (h : Dev.Told r s t) (word why : Nat) : Dev.Told r s (t.statusOnly r word why) :=
  .branch (h.putRec word) (h.modSeq rfl rfl)

theorem Dev.Told.finishSeq (h : Dev.Told r s t) : Dev.Told r s (t.finishSeq r) := by
  have hst : (if t.stopWhy r = 7 then St.FAILED else St.DONE) < 16 := by split <;> decide
  exact .note (((Dev.Told.modSeq (h.setSt hst) rfl rfl).bump ..).bump ..) true
theorem Dev.Within.finishSeq (h : Dev.Within r s t) : Dev.Within r s (t.finishSeq r) :=
  .note ((((h.setEnt (by decide) _).modSeq _).bump ..).bump ..) true

end

/-- Whether the group of an entry closes with the message of R241. -/
def Dev.ringIrq (s : Dev) (r : Nat) : Bool :=
  (s.seq r).irqDue && s.flag r 2 && s.inForce .rqtCh (entCh r) 0 Off.RQT_CTL 1 1 = 1 && !(s.chan (entCh r)).irqSent.contains (s.seq r).ctx

/-- The module once the group of an entry is closed, before it stands on the hub link. -/
def Dev.ringShut (s : Dev) (r : Nat) : Dev :=
  (if s.ringIrq r then s.modChan (entCh r) fun c => { c with irqSent := (s.seq r).ctx :: c.irqSent } else s).modSeq r Seq.closed

/-- The group of an entry: its records, the status word and the message (R237, R241). -/
def Dev.ringGroup (s : Dev) (r word : Nat) : RingGroup where
  seq := ⟨Fin.ofNat 8 (entCh r), Fin.ofNat 512 (entIx r)⟩
  writes := ((s.seq r).group.zipIdx.map fun e => Out.hostWrite (s.seq r).ctx (s.ent r Ent.RING_ADDR 8 +
      4 * ((s.written r + 2 ^ 32 - (s.seq r).group.length + e.2) % 2 ^ 32 % 2 ^ nfld (s.ent r Ent.RING_CFG 4) 4 0)) (toBytes 4 e.1)) ++
    [Out.hostWrite (s.seq r).ctx (s.ent r Ent.STATUS_ADDR 8) (toBytes 8 word)] ++
    if s.ringIrq r then [Out.msix (s.seq r).ctx (s.rdF .rqtCx (entCh r) (s.seq r).ctx Off.RQT_CX_CFG 10 0)] else []
  word := word
  pos := (s.ringShut r).clen r
  complete := false

theorem Dev.closeRingWith_eq (s : Dev) (r word : Nat) : s.closeRingWith r word =
    if !(s.seq r).swDue then s
    else if ((s.ringShut r).chan (entCh r)).linkUp ∧ (s.ringShut r).fltState (entCh r) = 0 then
      { s.ringShut r with hubGroups := (s.ringShut r).hubGroups ++ [s.ringGroup r word] }
    else s.ringShut r := rfl

/-- From `s` to `t` a group may have been closed. The entry itself stays. -/
structure Dev.RingClosed (r : Nat) (s t : Dev) : Prop where
  within : Dev.Within r s t
  mem : t.mem = s.mem
  rqt : t.rqt = s.rqt
  seq : t.seq r = s.seq r ∨ t.seq r = (s.seq r).closed

theorem Dev.ringShut_closed (s : Dev) (r : Nat) : Dev.RingClosed r s (s.ringShut r) := by
  unfold Dev.ringShut
  split
  · exact ⟨((Dev.Within.refl r s).modChan _ fun _ => by rfl).modSeq _, rfl, rfl, .inr (Dev.modSeq_same ..)⟩
  · exact ⟨(Dev.Within.refl r s).modSeq _, rfl, rfl, .inr (Dev.modSeq_same ..)⟩

theorem Dev.closeRingWith_closed (s : Dev) (r word : Nat) : Dev.RingClosed r s (s.closeRingWith r word) := by
  have hshut := s.ringShut_closed r
  rw [Dev.closeRingWith_eq]
  split
  · exact ⟨.refl r s, rfl, rfl, .inl rfl⟩
  · split
    · exact ⟨hshut.within.stowed ⟨⟨rfl, rfl⟩, rfl, rfl⟩, hshut.mem, hshut.rqt, hshut.seq⟩
    · exact hshut

theorem Dev.closeRing_closed (s : Dev) (r : Nat) : Dev.RingClosed r s (s.closeRing r) := s.closeRingWith_closed r _

theorem Dev.RingClosed.field {r : Nat} {s t : Dev} (h : Dev.RingClosed r s t) {α : Type} (g : Seq → α) (hg : ∀ q, g q.closed = g q) :
    g (t.seq r) = g (s.seq r) := by
  rcases h.seq with hq | hq
  · rw [hq]
  · rw [hq, hg]

theorem Dev.RingClosed.told {r : Nat} {s t : Dev} (h : Dev.RingClosed r s t) : Dev.Told r s t :=
  ⟨congrArg (· / 16) (Dev.ent_of_rqt h.rqt ..), h.field Seq.step fun _ => rfl, h.field Seq.pages fun _ => rfl⟩

/-- A finished sequence is FAILED where its STOP_WHY is 7, else DONE (R221). -/
def endState (why : Nat) : Nat := if why = 7 then St.FAILED else St.DONE

theorem Dev.finishSeq_rqt (s : Dev) (r : Nat) : (s.finishSeq r).rqt = (s.setSt r (endState (s.stopWhy r))).rqt := by
  unfold Dev.finishSeq
  simp only [Dev.note, Dev.modSeq_rqt, Dev.bump_rqt]
  rfl

theorem Dev.finishSeq_st (s : Dev) (r : Nat) : (s.finishSeq r).st r = endState (s.stopWhy r) := by
  have hst : endState (s.stopWhy r) < 16 := by unfold endState; split <;> decide
  rw [Dev.st_of_rqt (s.finishSeq_rqt r), s.setSt_st r hst]

/-- A finished sequence keeps what its entry says beside STATE_W. -/
theorem Dev.finishSeq_ent (s : Dev) (r : Nat) {o : Nat} (ho : 4 ≤ o) (n : Nat) : (s.finishSeq r).ent r o n = s.ent r o n := by
  rw [Dev.ent_of_rqt (s.finishSeq_rqt r)]
  exact s.ent_setEnt_apart (.inr ho)

theorem Dev.putRec_rqt (s : Dev) (r word : Nat) : (s.putRec r word).rqt = (s.setEnt r Ent.WRITTEN 4 ((s.written r + 1) % 2 ^ 32)).rqt := by
  simp only [Dev.putRec, Dev.bump_rqt, Dev.modSeq_rqt]

theorem Dev.putRec_written (s : Dev) (r word : Nat) : (s.putRec r word).written r = (s.written r + 1) % 2 ^ 32 := by
  rw [Dev.written, Dev.ent_of_rqt (s.putRec_rqt r word), Dev.ent_setEnt_same]
  exact Nat.mod_mod _ _

theorem Dev.putRec_ent (s : Dev) (r word : Nat) {o n : Nat} (h : o + n ≤ Ent.WRITTEN ∨ Ent.WRITTEN + 4 ≤ o) :
    (s.putRec r word).ent r o n = s.ent r o n := by
  rw [Dev.ent_of_rqt (s.putRec_rqt r word), s.ent_setEnt_apart h]

theorem Dev.putRec_seq (s : Dev) (r word : Nat) :
    (s.putRec r word).seq r = { s.seq r with group := (s.seq r).group ++ [word], lastWord := word, swDue := true } := by
  simp only [Dev.putRec, Dev.bump_get_seq, Dev.modSeq_same, Dev.setEnt_get_seq]

/-! ### What a sequence gives back (R203, R233, R235, R271) -/

/-- From `s` to `t` the fields of an entry from offset `b` on stay, beside those that count the prompt and the length, and its records that
wait; the other entries and the tiles stay. -/
structure Dev.Rests (b r : Nat) (s t : Dev) : Prop where
  within : Dev.Within r s t
  ent : ∀ o n, (b ≤ o ∧ o + n ≤ Ent.PROMPT_LEN) ∨ Ent.CLEN ≤ o → t.ent r o n = s.ent r o n
  pend : (t.seq r).pend = (s.seq r).pend

namespace Dev.Rests
variable {b r : Nat} {s t u : Dev}

theorem refl (b r : Nat) (s : Dev) : Rests b r s s := ⟨.refl r s, fun _ _ _ => rfl, rfl⟩

theorem stowed (h : Rests b r s t) (g : t.Stowed u) : Rests b r s u where
  within := h.within.stowed g
  ent o n ho := (g.table.ent r o n).trans (h.ent o n ho)
  pend := (congrArg Seq.pend (g.table.seq r)).trans h.pend

theorem trans {c : Nat} (h : Rests b r s t) (g : Rests c r t u) (hc : c ≤ b) : Rests b r s u where
  within := h.within.trans g.within
  ent o n ho := (g.ent o n (by omega)).trans (h.ent o n ho)
  pend := g.pend.trans h.pend

theorem bump (h : Rests b r s t) (k : PageKind) (ch i o n : Nat) : Rests b r s (t.bump k ch i o n) := h.stowed ((Dev.Stowed.refl t).bump ..)

theorem freeFrames (h : Rests b r s t) (fs : List Frame) : Rests b r s (t.freeFrames fs) := h.stowed ((Dev.Stowed.refl t).freeFrames fs)

theorem modSeq (h : Rests b r s t) {f : Seq → Seq} (hf : ∀ q, (f q).pend = q.pend) : Rests b r s (t.modSeq r f) where
  within := h.within.modSeq f
  ent := h.ent
  pend := by rw [Dev.modSeq_same, hf, h.pend]

theorem setEnt (h : Rests b r s t) {o n : Nat} (ho : o + n ≤ b ∨ (Ent.PROMPT_LEN ≤ o ∧ o + n ≤ Ent.CLEN)) (hb : b ≤ Ent.CLEN) (v : Nat) :
    Rests b r s (t.setEnt r o n v) where
  within := h.within.setEnt (by simp only [Ent.PROMPT_LEN, Ent.CLEN] at *; omega) v
  ent p k hp := (t.ent_setEnt_apart (by simp only [Ent.PROMPT_LEN, Ent.CLEN] at *; omega)).trans (h.ent p k hp)
  pend := h.pend

theorem branch {c : Prop} [Decidable c] (ht : Rests b r s t) (hu : Rests b r s u) : Rests b r s (if c then t else u) := by
  split
  · exact ht
  · exact hu

theorem freeBeyond (h : Rests b r s t) (len : Nat) (count : Bool) : Rests b r s (t.freeBeyond r len count) := by
  unfold Dev.freeBeyond
  split
  · exact h
  · exact .branch (.bump (.modSeq (h.freeFrames _) fun _ => by rfl) ..) (.modSeq (h.freeFrames _) fun _ => by rfl)

theorem absentAll (h : Rests b r s t) : Rests b r s (t.absentAll r) := by
  unfold Dev.absentAll
  exact .modSeq (h.freeFrames _) fun _ => rfl

theorem dropStep (h : Rests b r s t) (hb : b ≤ Ent.CLEN) : Rests b r s (t.dropStep r) := by
  unfold Dev.dropStep
  split
  · exact h
  · have hwork := Rests.modSeq (f := fun q => { q with step := none, work := [] }) (h.freeFrames (t.seq r).work) fun _ => rfl
    dsimp only
    split
    · exact hwork
    · exact .setEnt (.freeBeyond hwork ..) (.inr (by decide)) hb _

theorem abandon (h : Rests b r s t) (hb : b ≤ Ent.CLEN) : Rests b r s (t.abandon r) := by
  have hdrop := h.dropStep hb
  exact .branch hdrop.absentAll hdrop

theorem flag (h : Rests b r s t) (hb : b ≤ Ent.FLAGS) (i : Nat) : t.flag r i = s.flag r i :=
  congrArg (·.testBit i) (h.ent _ _ (.inl ⟨hb, by decide⟩))

theorem written (h : Rests b r s t) : t.written r = s.written r := h.ent _ _ (.inr (by decide))

theorem ringRoom (h : Rests b r s t) : t.ringRoom r = s.ringRoom r := by
  rw [Dev.ringRoom, h.written, h.ent _ _ (.inr (by decide)), h.ent _ _ (.inr (by decide)), Dev.ringRoom]

theorem st (h : Rests 0 r s t) : t.st r = s.st r := Dev.st_of_stateW (h.ent _ _ (.inl ⟨Nat.zero_le _, by decide⟩))

end Dev.Rests

/-- Updates that leave the table alone, then one of the sequence. -/
theorem Dev.Stowed.modSeq_seq {s t : Dev} (h : s.Stowed t) (r : Nat) (f : Seq → Seq) : (t.modSeq r f).seq r = f (s.seq r) := by
  rw [Dev.modSeq_same, h.table.seq]

theorem Dev.freeBeyond_step (s : Dev) (r len : Nat) (count : Bool) : ((s.freeBeyond r len count).seq r).step = (s.seq r).step := by
  unfold Dev.freeBeyond
  split
  · rfl
  · dsimp only
    split
    · rw [Dev.bump_get_seq, ((Dev.Stowed.refl s).freeFrames _).modSeq_seq]
    · rw [((Dev.Stowed.refl s).freeFrames _).modSeq_seq]

theorem Dev.dropStep_step (s : Dev) (r : Nat) : ((s.dropStep r).seq r).step = none := by
  unfold Dev.dropStep
  split
  case h_1 hnone => exact hnone
  case h_2 =>
    dsimp only
    split
    · rw [((Dev.Stowed.refl s).freeFrames _).modSeq_seq]
    · rw [Dev.setEnt_get_seq, Dev.freeBeyond_step, ((Dev.Stowed.refl s).freeFrames _).modSeq_seq]

theorem Dev.absentAll_step (s : Dev) (r : Nat) : ((s.absentAll r).seq r).step = (s.seq r).step := by
  unfold Dev.absentAll
  rw [((Dev.Stowed.refl s).freeFrames _).modSeq_seq]

/-- No step is in flight once it has been abandoned. -/
theorem Dev.abandon_step (s : Dev) (r : Nat) : ((s.abandon r).seq r).step = none := by
  unfold Dev.abandon Dev.dropMarked
  dsimp only
  split
  · rw [Dev.absentAll_step, Dev.dropStep_step]
  · exact s.dropStep_step r

/-! ### The stages of an ending (R231 to R235) -/

/-- An entry whose step in flight has been abandoned, with what it waits for. -/
def Dev.abandoned (s : Dev) (r : Nat) : Dev := (s.abandon r).modSeq r fun q => { q with restore := none, held := none }

/-- An entry whose turn has ended: no step is in flight, and STATE_W shows why. -/
def Dev.turnEnded (s : Dev) (r why code : Nat) : Dev := (s.abandoned r).setStateW r ((s.abandoned r).st r) code 0 why

/-- The records of this boundary, the last of which carries STOP, where one can (R233). -/
def Dev.stopMark (s : Dev) (r code : Nat) (onTok : Bool) : Option (List Nat) := if onTok then markLast code (s.seq r).group else none

/-- The group once its last record may have been marked. -/
def Dev.marked (s : Dev) (r : Nat) : Option (List Nat) → Dev
  | some ws => s.modSeq r fun q => { q with group := ws, lastWord := (ws.getLast?).getD 0 }
  | none => s

/-- Whether a sequence parks (R210). -/
def Dev.parks (s : Dev) (r : Nat) : Bool := match (s.seq r).stopping with | .park .. => true | _ => false

/-- A turn that ends with KEEP: the sequence stays, PAUSED unless it parks (R235). -/
def Dev.turnKept (s : Dev) (r : Nat) (parking : Bool) : Dev :=
  let s := (s.setEnt r Ent.PROMPT_LEN 4 0).setEnt r Ent.PROMPT_POS 4 0
  let s := s.modSeq r fun q => { q with logW := q.logW.take (s.clen r) }
  if parking then s else (s.startCkpt r).setSt r St.PAUSED

/-- A sequence that ends: it is STOPPING and holds nothing any more (R235, R240). -/
def Dev.givenUp (s : Dev) (r why code : Nat) : Dev :=
  let s := (s.abandonHood r).modSeq r fun q => { q with stopping := .ending why code, ringRsv := false, replay := [] }
  (s.setSt r St.STOPPING).freeAll r

/-- The status-only record of an ending, where no token record carries STOP. -/
def Dev.lastRecord (s : Dev) (r why code : Nat) : Option (List Nat) → Dev
  | some _ => s
  | none => s.statusOnly r (recordWord 0 (s.seq r).epochTok true code true) why

/-- A sequence that has given up is done once no record waits. -/
def Dev.settleEnd (s : Dev) (r : Nat) (keep parking : Bool) : Dev :=
  let wrote := (s.seq r).pend.isEmpty
  let s := if !keep && wrote then s.finishSeq r else s
  s.note r (wrote || (keep && !parking))

/-- The turn of an entry has ended and its last record may have been marked. -/
def Dev.turnMarked (s : Dev) (r why code : Nat) (onTok : Bool) : Dev :=
  (s.turnEnded r why code).marked r ((s.turnEnded r why code).stopMark r code onTok)

theorem Dev.abandoned_rests (s : Dev) (r : Nat) : Dev.Rests 0 r s (s.abandoned r) :=
  ((Dev.Rests.refl 0 r s).abandon (by decide)).modSeq fun _ => rfl

theorem Dev.turnOnly_abandoned (s : Dev) (r why : Nat) : (s.abandoned r).turnOnly r why = s.turnOnly r why := by
  rw [Dev.turnOnly, (s.abandoned_rests r).flag (by decide) 0, Dev.turnOnly]

theorem Dev.endSeq_eq {s : Dev} {r why code : Nat} {onTok : Bool} (hlive : s.live r = true) (hadm : s.st r ≠ St.ADMITTED)
    (hstop : ∀ y z, (s.seq r).stopping ≠ .ending y z) :
    s.endSeq r why code onTok = Dev.settleEnd (Dev.lastRecord (if s.turnOnly r why then
        (s.turnMarked r why code onTok).turnKept r ((s.abandoned r).parks r) else (s.turnMarked r why code onTok).givenUp r why code) r why code
      ((s.turnEnded r why code).stopMark r code onTok)) r (s.turnOnly r why) ((s.abandoned r).parks r) := by
  have hgo : ¬ ((!s.live r || decide (s.st r = St.ADMITTED) || match (s.seq r).stopping with | .ending _ _ => true | _ => false) = true) := by
    split
    case h_1 y z h => exact absurd h (hstop y z)
    case h_2 => simp [hlive, hadm]
  rw [← s.turnOnly_abandoned]
  exact (if_neg hgo).trans rfl

/-! ### What the stages leave -/

section
variable (s : Dev) (r : Nat) {why code : Nat} (hwhy : why < 8) (hcode : code < 256)

theorem Dev.turnEnded_step (why code : Nat) : ((s.turnEnded r why code).seq r).step = none := by
  unfold Dev.turnEnded Dev.setStateW Dev.abandoned
  rw [Dev.setEnt_get_seq, Dev.modSeq_same]
  exact s.abandon_step r

theorem Dev.turnEnded_rests (why code : Nat) : Dev.Rests 4 r s (s.turnEnded r why code) := by
  have h := s.abandoned_rests r
  exact .setEnt ⟨h.within, fun o n ho => h.ent o n (by omega), h.pend⟩ (.inl (by decide)) (by decide) _

include hwhy hcode in
theorem Dev.turnEnded_shows : (s.turnEnded r why code).st r = s.st r ∧ (s.turnEnded r why code).reason r = code ∧
    (s.turnEnded r why code).stopWhy r = why := by
  unfold Dev.turnEnded
  rw [(s.abandoned_rests r).st]
  exact (s.abandoned r).setStateW_shows r (s.st_lt r) hcode (by decide) hwhy

theorem Dev.marked_told (m : Option (List Nat)) : Dev.Told r s (s.marked r m) := by
  unfold Dev.marked
  cases m with
  | none => exact .refl r s
  | some ws => exact (Dev.Told.refl r s).modSeq rfl rfl

theorem Dev.marked_rests (m : Option (List Nat)) : Dev.Rests 4 r s (s.marked r m) := by
  unfold Dev.marked
  cases m with
  | none => exact .refl 4 r s
  | some ws => exact (Dev.Rests.refl 4 r s).modSeq fun _ => rfl

theorem Dev.marked_st (m : Option (List Nat)) : (s.marked r m).st r = s.st r := by cases m <;> rfl

theorem Dev.statusOnly_st (word why : Nat) : (s.statusOnly r word why).st r = s.st r := by
  unfold Dev.statusOnly
  split
  · refine Dev.st_of_stateW ?_
    exact s.putRec_ent r word (.inl (by decide))
  · rfl

theorem Dev.statusOnly_writes {word why : Nat} (hpend : (s.seq r).pend = []) (hfree : 1 ≤ s.ringFree r) :
    s.statusOnly r word why = s.putRec r word := if_pos ⟨by rw [hpend]; rfl, hfree⟩

theorem Dev.lastRecord_told (m : Option (List Nat)) (why code : Nat) : Dev.Told r s (s.lastRecord r why code m) := by
  cases m with
  | none => exact (Dev.Told.refl r s).statusOnly _ _
  | some ws => exact .refl r s

theorem Dev.lastRecord_st (m : Option (List Nat)) (why code : Nat) : (s.lastRecord r why code m).st r = s.st r := by
  cases m with
  | none => exact s.statusOnly_st r _ _
  | some ws => rfl

theorem Dev.settleEnd_told (keep parking : Bool) : Dev.Told r s (s.settleEnd r keep parking) :=
  .note (.branch (Dev.Told.refl r s).finishSeq (.refl r s)) _

theorem Dev.settleEnd_kept_st (parking : Bool) : (s.settleEnd r true parking).st r = s.st r := rfl

theorem Dev.settleEnd_ended_st (parking : Bool) : (s.settleEnd r false parking).st r = endState (s.stopWhy r) ∨
    (s.settleEnd r false parking).st r = s.st r := by
  unfold Dev.settleEnd
  cases hw : (s.seq r).pend.isEmpty
  · exact .inr rfl
  · exact .inl (s.finishSeq_st r)

theorem Dev.settleEnd_done (parking : Bool) (hpend : (s.seq r).pend = []) : s.settleEnd r false parking = (s.finishSeq r).note r true := by
  unfold Dev.settleEnd
  rw [hpend]
  rfl

/-! ### A turn that is kept (R235) -/

theorem Dev.moverWalk_signalled (key : Nat) : s.Signalled (s.moverWalk r key).1 := by
  unfold Dev.moverWalk
  split
  · exact s.raise_signalled (entCh r) 36
  · split
    · exact .refl s
    · exact s.raise_signalled (entCh r) 37

theorem Dev.slotCopy_table (slot : List Frame) (save : Bool) (m : Nat) : ∀ (s : Dev) (pos a n : Nat), s.SameTable (s.slotCopy slot save m pos a n) := by
  induction m with
  | zero => exact fun s _ _ _ => .refl s
  | succ m ih =>
    intro s pos a n
    unfold Dev.slotCopy
    split
    · exact .refl s
    · split
      · exact .refl s
      · refine .trans ?_ (ih _ _ _ _)
        split <;> exact ⟨rfl, rfl⟩

theorem Dev.slotBody_table (c : Ckpt) (slot : List Frame) (save : Bool) : s.SameTable (s.slotBody r c slot save) := by
  refine Dev.SameTable.foldl_fst (fun acc run => ?_) _ _
  dsimp only
  split
  · exact Dev.slotCopy_table slot save _ acc.1 _ _ _
  · exact .refl acc.1

theorem Dev.startCkpt_told : Dev.Told r s (s.startCkpt r) := by
  have hwalk : s.SameTable ((s.ckptNow r).partials.foldl (fun (acc : Dev × Bool) e => if acc.2 then
      ((acc.1.moverWalk r e.1).1, (acc.1.moverWalk r e.1).2.isSome) else acc) (s, true)).1 := by
    refine Dev.SameTable.foldl_fst (fun acc e => ?_) _ _
    split
    · exact (acc.1.moverWalk_signalled r e.1).table
    · exact .refl acc.1
  have hzero (t : Dev) (a n : Nat) : t.SameTable (t.zero a n) := ⟨rfl, rfl⟩
  unfold Dev.startCkpt
  dsimp only
  split
  · exact (Dev.Told.refl r s).table hwalk
  · split
    · exact .modSeq ((Dev.Told.refl r s).table (hwalk.trans ((hzero _ _ _).trans (Dev.slotBody_table ..)))) rfl rfl
    · exact .modSeq ((Dev.Told.refl r s).table (hwalk.trans (Dev.slotBody_table ..))) rfl rfl

theorem Dev.turnKept_told (parking : Bool) : Dev.Told r s (s.turnKept r parking) := by
  have hprompt : Dev.Told r s ((s.setEnt r Ent.PROMPT_LEN 4 0).setEnt r Ent.PROMPT_POS 4 0) :=
    .setEnt (.setEnt (.refl r s) (by decide) 4 0) (by decide) 4 0
  unfold Dev.turnKept
  dsimp only
  split
  · exact hprompt.modSeq rfl rfl
  · exact .setSt (.trans (hprompt.modSeq rfl rfl) (Dev.startCkpt_told ..)) (by decide)

theorem Dev.turnKept_st (parking : Bool) : (s.turnKept r parking).st r = St.PAUSED ∨ (s.turnKept r parking).st r = s.st r := by
  unfold Dev.turnKept
  dsimp only
  split
  · refine .inr (Dev.st_of_stateW ?_)
    exact (Dev.stateW_setEnt _ r _ (by decide)).trans (s.stateW_setEnt r _ (by decide))
  · exact .inl (Dev.setSt_st _ r (by decide))

/-! ### A sequence that gives up (R235) -/

theorem Dev.abandonHood_rests : Dev.Rests 4 r s (s.abandonHood r) := by
  unfold Dev.abandonHood
  dsimp only
  split
  · exact .modSeq (.freeFrames (.refl 4 r s) _) fun _ => rfl
  · exact .refl 4 r s

theorem Dev.abandonHood_rqt : (s.abandonHood r).rqt = s.rqt := by
  unfold Dev.abandonHood
  dsimp only
  split
  · exact ((Dev.Stowed.refl s).freeFrames _).table.rqt
  · rfl

theorem Dev.freeAll_emptied (s : Dev) (r : Nat) : s.freeAll r = (((s.freeFrames (seqFrames (s.seq r))).freeDir r).modSeq r
    (·.emptied (((s.freeFrames (seqFrames (s.seq r))).freeDir r).dlvOf r).pos)).fitLeaves (entCh r) := rfl

/-- What freeing everything that a sequence holds leaves of the entry and its sequence. -/
theorem Dev.freeAll_leaves (s : Dev) (r : Nat) : Dev.Rests 0 r s (s.freeAll r) ∧ (s.freeAll r).rqt = s.rqt ∧
    ∃ pos, (s.freeAll r).seq r = (s.seq r).emptied pos := by
  have hfree : s.Stowed ((s.freeFrames (seqFrames (s.seq r))).freeDir r) := ((Dev.Stowed.refl s).freeFrames _).freeDir r
  have hfit (t : Dev) : t.Stowed (t.fitLeaves (entCh r)) := (Dev.Stowed.refl t).fitLeaves _
  rw [s.freeAll_emptied r]
  have hempty (pos : Nat) : Dev.Rests 0 r s (((s.freeFrames (seqFrames (s.seq r))).freeDir r).modSeq r (·.emptied pos)) :=
    .modSeq ((Dev.Rests.refl 0 r s).stowed hfree) fun _ => rfl
  exact ⟨(hempty _).stowed (hfit _), (hfit _).table.rqt.trans ((Dev.modSeq_rqt ..).trans hfree.table.rqt),
    _, ((hfit _).table.seq r).trans (hfree.modSeq_seq r _)⟩

/-- A sequence that gives up holds nothing, and only its STATE changes of what STATE_W says. -/
theorem Dev.givenUp_leaves (why code : Nat) : Dev.Rests 4 r s (s.givenUp r why code) ∧ (s.givenUp r why code).st r = St.STOPPING ∧
    (s.givenUp r why code).stateW r / 16 = s.stateW r / 16 ∧ ((s.givenUp r why code).seq r).pages = [] ∧
    ((s.givenUp r why code).seq r).step = none ∧ ((s.givenUp r why code).seq r).ringRsv = false := by
  unfold Dev.givenUp
  dsimp only
  generalize hu : ((s.abandonHood r).modSeq r fun q => { q with stopping := .ending why code, ringRsv := false, replay := [] }) = u
  have hrests : Dev.Rests 4 r s u := hu ▸ (s.abandonHood_rests r).modSeq fun _ => rfl
  have hhead : u.stateW r = s.stateW r := hu ▸ Dev.ent_of_rqt (s.abandonHood_rqt r) ..
  have hrsv : (u.seq r).ringRsv = false := by rw [← hu, Dev.modSeq_same]
  have hstop : Dev.Rests 4 r s (u.setSt r St.STOPPING) := hrests.setEnt (.inl (by decide)) (by decide) _
  obtain ⟨hfree, hrqt, pos, hseq⟩ := (u.setSt r St.STOPPING).freeAll_leaves r
  refine ⟨hstop.trans hfree (Nat.zero_le _), ?_, ?_, ?_, ?_, ?_⟩
  · rw [Dev.st_of_rqt hrqt, u.setSt_st r (by decide)]
  · rw [Dev.stateW, Dev.ent_of_rqt hrqt, ← Dev.stateW, u.setSt_head r (by decide), hhead]
  · rw [hseq, Seq.emptied]
  · rw [hseq, Seq.emptied]
  · rw [hseq, Seq.emptied]
    exact hrsv

end

/-! ### An ending (R231 to R235) -/

/-- An entry shows why it ends, and no step of it is in flight. -/
structure Dev.ShowsEnd (s : Dev) (r why code : Nat) : Prop where
  stopWhy : s.stopWhy r = why
  reason : s.reason r = code
  step : (s.seq r).step = none

theorem Dev.ShowsEnd.told {s t : Dev} {r why code : Nat} (h : s.ShowsEnd r why code) (g : Dev.Told r s t) : t.ShowsEnd r why code :=
  ⟨(Dev.stopWhy_of_head g.head).trans h.stopWhy, (Dev.reason_of_head g.head).trans h.reason, g.step.trans h.step⟩

section
variable {s : Dev} {r why code : Nat} {onTok : Bool} (hlive : s.live r = true) (hadm : s.st r ≠ St.ADMITTED)
  (hstop : ∀ y z, (s.seq r).stopping ≠ .ending y z) (hwhy : why < 8) (hcode : code < 256)

include hwhy hcode in
theorem Dev.turnMarked_shows (s : Dev) (r : Nat) (onTok : Bool) : (s.turnMarked r why code onTok).ShowsEnd r why code ∧
    (s.turnMarked r why code onTok).st r = s.st r := by
  obtain ⟨hst, hreason, hstopWhy⟩ := s.turnEnded_shows r hwhy hcode
  exact ⟨Dev.ShowsEnd.told ⟨hstopWhy, hreason, s.turnEnded_step r why code⟩ (Dev.marked_told ..), (Dev.marked_st ..).trans hst⟩

include hlive hadm hstop hwhy hcode

/-- An ending with KEEP ends the turn: the sequence is PAUSED, or keeps its state. -/
theorem Dev.endSeq_kept (hkeep : s.turnOnly r why = true) : (s.endSeq r why code onTok).ShowsEnd r why code ∧
    ((s.endSeq r why code onTok).st r = St.PAUSED ∨ (s.endSeq r why code onTok).st r = s.st r) := by
  obtain ⟨hshows, hst⟩ := s.turnMarked_shows hwhy hcode r onTok
  rw [Dev.endSeq_eq hlive hadm hstop, hkeep, if_pos rfl]
  refine ⟨hshows.told (((Dev.turnKept_told ..).trans (Dev.lastRecord_told ..)).trans (Dev.settleEnd_told ..)), ?_⟩
  rw [Dev.settleEnd_kept_st, Dev.lastRecord_st, ← hst]
  exact Dev.turnKept_st ..

/-- An ending without KEEP ends the sequence: it holds nothing and is DONE or FAILED, or STOPPING while a record waits. -/
theorem Dev.endSeq_gives_up (hkeep : s.turnOnly r why = false) : (s.endSeq r why code onTok).ShowsEnd r why code ∧
    ((s.endSeq r why code onTok).seq r).pages = [] ∧
    ((s.endSeq r why code onTok).st r = endState why ∨ (s.endSeq r why code onTok).st r = St.STOPPING) := by
  obtain ⟨hshows, -⟩ := s.turnMarked_shows hwhy hcode r onTok
  obtain ⟨-, hst, hhead, hpages, hstep, -⟩ := (s.turnMarked r why code onTok).givenUp_leaves r why code
  rw [Dev.endSeq_eq hlive hadm hstop, hkeep, if_neg Bool.false_ne_true]
  generalize (s.turnMarked r why code onTok).givenUp r why code = u at hst hhead hpages hstep
  generalize (s.turnEnded r why code).stopMark r code onTok = m
  have hu : u.ShowsEnd r why code := ⟨(Dev.stopWhy_of_head hhead).trans hshows.stopWhy, (Dev.reason_of_head hhead).trans hshows.reason, hstep⟩
  have hlast := u.lastRecord_told r m why code
  have htold := hlast.trans (Dev.settleEnd_told _ r false ((s.abandoned r).parks r))
  refine ⟨hu.told htold, htold.pages.trans hpages, ?_⟩
  rcases Dev.settleEnd_ended_st (u.lastRecord r why code m) r ((s.abandoned r).parks r) with h | h
  · exact .inl (h.trans (congrArg endState (hu.told hlast).stopWhy))
  · exact .inr (h.trans ((u.lastRecord_st r m why code).trans hst))

/-- A sequence that ends without KEEP, and whose last record is written at once. -/
theorem Dev.endSeq_ends_now (hkeep : s.turnOnly r why = false) (hpend : (s.seq r).pend = []) (hfree : 1 ≤ s.ringFree r) :
    Dev.Within r s (s.endSeq r why code false) ∧ (s.endSeq r why code false).st r = endState why ∧
    (s.endSeq r why code false).written r = (s.written r + 1) % 2 ^ 32 := by
  obtain ⟨hshows, -⟩ := s.turnMarked_shows hwhy hcode r false
  obtain ⟨hgiven, -, hhead, -, -, hrsv⟩ := (s.turnMarked r why code false).givenUp_leaves r why code
  have hrests := ((s.turnEnded_rests r why code).trans (Dev.marked_rests _ r _) le_rfl).trans hgiven le_rfl
  rw [Dev.endSeq_eq hlive hadm hstop, hkeep, if_neg Bool.false_ne_true]
  generalize (s.turnMarked r why code false).givenUp r why code = u at hhead hrsv hrests
  have hwrite := u.statusOnly_writes r (word := recordWord 0 (u.seq r).epochTok true code true) (why := why) (hrests.pend.trans hpend) (by
    have := hrests.ringRoom
    unfold Dev.ringFree at *
    rw [hrsv]
    simp only [Bool.toNat_false]
    omega)
  have hquiet : ((u.putRec r (recordWord 0 (u.seq r).epochTok true code true)).seq r).pend = [] := by rw [Dev.putRec_seq]; exact hrests.pend.trans hpend
  change Dev.Within r s (Dev.settleEnd (u.statusOnly r _ why) r false _) ∧ (Dev.settleEnd (u.statusOnly r _ why) r false _).st r = _ ∧
    (Dev.settleEnd (u.statusOnly r _ why) r false _).written r = _
  rw [hwrite, Dev.settleEnd_done _ _ _ hquiet]
  refine ⟨.note (Dev.Within.finishSeq (hrests.within.putRec _)) true, ?_, ?_⟩
  · have hwhyU : (u.putRec r (recordWord 0 (u.seq r).epochTok true code true)).stopWhy r = why :=
      (Dev.stopWhy_of_head (((Dev.Told.refl r u).putRec _).head.trans hhead)).trans hshows.stopWhy
    exact (Dev.finishSeq_st ..).trans (congrArg endState hwhyU)
  · exact (Dev.finishSeq_ent _ r (by decide) 4).trans ((u.putRec_written r _).trans (by rw [hrests.written]))

end

end Sys2Proof.Machine
end


section
/-! What ends a sequence: its deadline, a hold that lasts too long, and the end of a tuning step (O40). -/

namespace Sys2Proof.Machine
open Sys2Proof

theorem does_done {c : Instr} {s : State} {m : Dev} {P : State → Prop} (hc : exec c s = s.done m) (hp : P { s with m := m }) : Does c s P :=
  ⟨m, hc, hp⟩

section
variable {s : State} {r : SeqRef} (hserves : s.m.serves r.ch.val = true)
include hserves

theorem exec_deadlineExpire : exec (.deadlineExpire r) s = s.done (s.m.deadlineHit r.ix) := by
  change s.done (s.m.only _ _) = _
  rw [hserves, Dev.only_true]

theorem exec_kvpHoldExpire : exec (.kvpHoldExpire r) s = s.done (s.m.holdExpired r.ix) := by
  change s.done (s.m.only _ _) = _
  rw [hserves, Dev.only_true]

theorem exec_tuningBackwardDone (grads losses : List F32) :
    exec (.tuningBackwardDone r grads losses) s = s.done (s.m.tuningDone r.ix grads losses) := by
  change s.done (s.m.only _ _) = _
  rw [hserves, Dev.only_true]

theorem exec_pendingRecordWrite : exec (.pendingRecordWrite r) s = s.done (s.m.pendingWrite r.ix) := by
  change s.done (s.m.only _ _) = _
  rw [hserves, Dev.only_true]

end

/-! ### An ended sequence closes its group -/

/-- What an ending without KEEP leaves of an entry. -/
structure Dev.Ended (s : Dev) (r why code : Nat) : Prop where
  shows : s.ShowsEnd r why code
  pages : (s.seq r).pages = []
  st : s.st r = endState why ∨ s.st r = St.STOPPING

theorem Dev.Ended.closed {s t : Dev} {r why code : Nat} (h : s.Ended r why code) (g : Dev.RingClosed r s t) : t.Ended r why code := by
  refine ⟨h.shows.told g.told, g.told.pages.trans h.pages, ?_⟩
  rw [Dev.st_of_rqt g.rqt]
  exact h.st

theorem Dev.Ended.table {s t : Dev} {r why code : Nat} (h : s.Ended r why code) (g : s.SameTable t) : t.Ended r why code := by
  have htold := (Dev.Told.refl r s).table g
  refine ⟨h.shows.told htold, htold.pages.trans h.pages, ?_⟩
  rw [g.st]
  exact h.st

/-- A sequence that has ended by its last record, which the ring takes at once. -/
structure Dev.EndedNow (s t : Dev) (r why code : Nat) : Prop where
  within : Dev.Within r s t
  ended : t.Ended r why code
  done : t.st r = endState why
  written : t.written r = (s.written r + 1) % 2 ^ 32

theorem Dev.EndedNow.closed {s t u : Dev} {r why code : Nat} (h : s.EndedNow t r why code) (g : Dev.RingClosed r t u) : s.EndedNow u r why code where
  within := h.within.trans g.within
  ended := h.ended.closed g
  done := (Dev.st_of_rqt g.rqt r).trans h.done
  written := (Dev.ent_of_rqt g.rqt ..).trans h.written

theorem Dev.EndedNow.after {s t u : Dev} {r why code : Nat} (h : t.EndedNow u r why code) (g : Dev.Within r s t) (hw : t.written r = s.written r) :
    s.EndedNow u r why code := ⟨g.trans h.within, h.ended, h.done, h.written.trans (by rw [hw])⟩

section
variable {s : Dev} {r why code : Nat} (hlive : s.live r = true) (hadm : s.st r ≠ St.ADMITTED) (hwhy : why < 8) (hcode : code < 256)
  (hkeep : s.turnOnly r why = false)
include hlive hadm hwhy hcode hkeep

theorem Dev.endSeq_ended_at {onTok : Bool} (hstop : ∀ y z, (s.seq r).stopping ≠ .ending y z) : (s.endSeq r why code onTok).Ended r why code := by
  obtain ⟨hshows, hpages, hst⟩ := Dev.endSeq_gives_up (onTok := onTok) hlive hadm hstop hwhy hcode hkeep
  exact ⟨hshows, hpages, hst⟩

theorem Dev.endSeq_ended_now (hstop : (s.seq r).stopping = .no) (hpend : (s.seq r).pend = []) (hfree : 1 ≤ s.ringFree r) :
    s.EndedNow (s.endSeq r why code false) r why code := by
  have hstop' (y z : Nat) : (s.seq r).stopping ≠ .ending y z := by rw [hstop]; exact Stopping.noConfusion
  obtain ⟨hwithin, hdone, hwritten⟩ := Dev.endSeq_ends_now hlive hadm hstop' hwhy hcode hkeep hpend hfree
  exact ⟨hwithin, Dev.endSeq_ended_at hlive hadm hwhy hcode hkeep hstop', hdone, hwritten⟩

end

/-! ### The deadline (R233, R235) -/

theorem live_of_decode {s : Dev} {r : Nat} (h : s.st r = St.DECODE) : s.live r = true := by rw [Dev.live, h]; rfl
theorem live_of_prefill {s : Dev} {r : Nat} (h : s.st r = St.PREFILL) : s.live r = true := by rw [Dev.live, h]; rfl

theorem Dev.deadlineHit_ends {s : Dev} {r : Nat} (hst : s.st r = St.PREFILL ∨ s.st r = St.DECODE) (hset : s.deadline r ≠ 0)
    (hpast : s.deadline r ≤ s.timeOf r) : s.deadlineHit r = s.endSeq r 4 Code.DEADLINE (!(s.seq r).group.isEmpty) := by
  unfold Dev.deadlineHit
  exact if_pos ⟨hset, hpast, hst.imp_right .inl⟩

theorem Dev.turnOnly_of_flag {s : Dev} {r why : Nat} (h : s.flag r 0 = false) : s.turnOnly r why = false := by rw [Dev.turnOnly, h]; rfl

theorem Dev.turnOnly_deadline (s : Dev) (r : Nat) : s.turnOnly r 4 = s.flag r 0 := by rw [Dev.turnOnly]; exact Bool.and_true _

theorem Dev.turnOnly_nostate (s : Dev) (r : Nat) : s.turnOnly r 7 = false := by rw [Dev.turnOnly]; exact Bool.and_false _

theorem Dev.turnOnly_tuning (s : Dev) (r : Nat) : s.turnOnly r 0 = false := by rw [Dev.turnOnly]; exact Bool.and_false _

/-! ### A hold that lasts too long (R199, R234) -/

/-- NOSTATE is counted before the sequence ends (R199). -/
def Dev.nostateCounted (s : Dev) (r : Nat) : Dev :=
  (s.bump .kvpCh (entCh r) 0 Off.KVP_NOSTATE 1).bump .kvpCx (entCh r) (s.seq r).ctx Off.KVP_CX_NOSTATE 1

theorem Dev.failSeq_nostate (s : Dev) (r : Nat) : s.failSeq r Code.NOSTATE = (s.nostateCounted r).endSeq r 7 Code.NOSTATE false := by
  unfold Dev.failSeq Dev.nostateCounted
  simp only [if_true]

theorem Dev.nostateCounted_stowed (s : Dev) (r : Nat) : s.Stowed (s.nostateCounted r) := ((Dev.Stowed.refl s).bump ..).bump ..

section
variable {s : Dev} {r : Nat}

theorem Dev.SameTable.live {t : Dev} (h : s.SameTable t) (x : Nat) : t.live x = s.live x := congrArg liveSt (h.st x)

theorem Dev.SameTable.ringFree {t : Dev} (h : s.SameTable t) (x : Nat) : t.ringFree x = s.ringFree x := by
  simp only [Dev.ringFree, Dev.ringRoom, Dev.written, h.ent, h.seq]

theorem Dev.failSeq_ended (hlive : s.live r = true) (hadm : s.st r ≠ St.ADMITTED) (hstop : ∀ y z, (s.seq r).stopping ≠ .ending y z) :
    (s.failSeq r Code.NOSTATE).Ended r 7 Code.NOSTATE := by
  have hcount := (s.nostateCounted_stowed r).table
  rw [Dev.failSeq_nostate]
  refine Dev.endSeq_ended_at ((hcount.live r).trans hlive) ?_ (by decide) (by decide) (Dev.turnOnly_nostate ..) ?_
  · rwa [hcount.st]
  · rwa [hcount.seq]

theorem Dev.failSeq_ended_now (hlive : s.live r = true) (hadm : s.st r ≠ St.ADMITTED) (hstop : (s.seq r).stopping = .no)
    (hpend : (s.seq r).pend = []) (hfree : 1 ≤ s.ringFree r) : s.EndedNow (s.failSeq r Code.NOSTATE) r 7 Code.NOSTATE := by
  have hstowed := s.nostateCounted_stowed r
  have hcount := hstowed.table
  rw [Dev.failSeq_nostate]
  refine .after (Dev.endSeq_ended_now ((hcount.live r).trans hlive) ?_ (by decide) (by decide) (Dev.turnOnly_nostate ..) ?_ ?_ ?_)
    ((Dev.Within.refl r s).stowed hstowed) (hcount.ent ..)
  · rwa [hcount.st]
  · rwa [hcount.seq]
  · rwa [hcount.seq]
  · rwa [hcount.ringFree]

/-- A growth that fails ends the sequence, whether or not it replays (R199, R391). -/
theorem Dev.growFail_ended (hlive : s.live r = true) (hadm : s.st r ≠ St.ADMITTED) (hstop : ∀ y z, (s.seq r).stopping ≠ .ending y z) :
    (s.growFail r).Ended r 7 Code.NOSTATE := by
  have hclosed := (Dev.failSeq_ended hlive hadm hstop).closed ((s.failSeq r Code.NOSTATE).closeRing_closed r)
  unfold Dev.growFail
  split
  · exact hclosed
  · exact hclosed.table ((Dev.raise_signalled _ _ _).table.bump ..)

/-- A wait ends at the deadline, and without one after as many planks as it may last. -/
theorem wait_over {d t p n : Nat} (h : if d = 0 then n ≤ p else d ≤ t) : if d ≠ 0 then t ≥ d else p ≥ n := by
  split at h
  case isTrue hd => rwa [if_neg (not_not_intro hd)]
  case isFalse hd => rwa [if_pos hd]

theorem Dev.holdExpired_grows {p n : Nat} (hheld : (s.seq r).held = some (p, n)) :
    (if s.deadline r = 0 then p + n ≤ s.planksOf r else s.deadline r ≤ s.timeOf r) → s.holdExpired r = s.growFail r := by
  generalize hd : s.deadline r = d
  intro hlong
  simp only [Dev.holdExpired, hheld, hd]
  exact if_pos (wait_over hlong)

/-! ### The end of the backward pass (R276) -/

/-- The words of floats, in order. -/
def floatBytes (l : List F32) : List Byte := (l.map fun x => toBytes 4 x.toNat).flatten

/-- Gradients and losses stand in memory, and the backward pass is no longer in flight (R276). -/
def Dev.tuned (s : Dev) (r : Nat) (grads losses : List F32) : Dev :=
  let a := s.ent r Ent.TUNE_PTR 8
  let s := s.setBytes (s.peek (a + 0x20) 8) ((floatBytes grads).take (s.peek (a + 0x28) 4))
  let s := s.setBytes (s.peek (a + 0x30) 8) ((floatBytes losses).take (4 * s.ent r Ent.PROMPT_LEN 4))
  s.modSeq r fun q => { q with step := none }

theorem Dev.tuningDone_tuned {k : Step} (hstep : (s.seq r).step = some k) (hkind : k.kind = .backward) (grads losses : List F32) :
    s.tuningDone r grads losses = ((s.tuned r grads losses).endSeq r 0 Code.OK false).closeRing r := by
  unfold Dev.tuningDone
  simp only [hstep, hkind]
  rfl

theorem Dev.tuned_leaves (s : Dev) (r : Nat) (grads losses : List F32) : Dev.Rests 0 r s (s.tuned r grads losses) ∧
    (s.tuned r grads losses).rqt = s.rqt ∧ ((s.tuned r grads losses).seq r).stopping = (s.seq r).stopping ∧
    ((s.tuned r grads losses).seq r).ringRsv = (s.seq r).ringRsv := by
  unfold Dev.tuned
  dsimp only
  generalize s.ent r Ent.TUNE_PTR 8 = a
  have hgrads := (Dev.Stowed.refl s).setBytes (s.peek (a + 0x20) 8) ((floatBytes grads).take (s.peek (a + 0x28) 4))
  generalize s.setBytes (s.peek (a + 0x20) 8) ((floatBytes grads).take (s.peek (a + 0x28) 4)) = t at hgrads ⊢
  have hlosses := hgrads.setBytes (t.peek (a + 0x30) 8) ((floatBytes losses).take (4 * t.ent r Ent.PROMPT_LEN 4))
  refine ⟨((Dev.Rests.refl 0 r s).stowed hlosses).modSeq fun _ => rfl, (Dev.modSeq_rqt ..).trans hlosses.table.rqt, ?_, ?_⟩ <;>
    rw [hlosses.modSeq_seq]

section
variable (hst : s.st r = St.PREFILL) {k : Step} (hstep : (s.seq r).step = some k) (hkind : k.kind = .backward)
include hst hstep hkind

theorem Dev.tuningDone_ended (hstop : ∀ y z, (s.seq r).stopping ≠ .ending y z) (grads losses : List F32) :
    (s.tuningDone r grads losses).Ended r 0 Code.OK := by
  obtain ⟨-, hrqt, hstop', -⟩ := s.tuned_leaves r grads losses
  have hprefill : (s.tuned r grads losses).st r = St.PREFILL := (Dev.st_of_rqt hrqt r).trans hst
  rw [Dev.tuningDone_tuned hstep hkind]
  refine (Dev.endSeq_ended_at (live_of_prefill hprefill) ?_ (by decide) (by decide) (Dev.turnOnly_tuning ..) ?_).closed (Dev.closeRing_closed ..)
  · rw [hprefill]
    decide
  · rwa [hstop']

theorem Dev.tuningDone_ended_now (hstop : (s.seq r).stopping = .no) (hpend : (s.seq r).pend = []) (hfree : 1 ≤ s.ringFree r)
    (grads losses : List F32) : s.EndedNow (s.tuningDone r grads losses) r 0 Code.OK := by
  obtain ⟨hrests, hrqt, hstop', hrsv⟩ := s.tuned_leaves r grads losses
  have hprefill : (s.tuned r grads losses).st r = St.PREFILL := (Dev.st_of_rqt hrqt r).trans hst
  rw [Dev.tuningDone_tuned hstep hkind]
  refine .after (.closed (Dev.endSeq_ended_now (live_of_prefill hprefill) ?_ (by decide) (by decide) (Dev.turnOnly_tuning ..) (hstop'.trans hstop)
    (hrests.pend.trans hpend) ?_) (Dev.closeRing_closed ..)) hrests.within hrests.written
  · rw [hprefill]
    decide
  · rwa [Dev.ringFree, hrests.ringRoom, hrsv]

end

end

/-! ### The endings as commands -/

section
variable {s : State} {r : SeqRef} (hserves : s.m.serves r.ch.val = true)
include hserves

theorem does_deadlineExpire (hst : s.m.st r.ix = St.PREFILL ∨ s.m.st r.ix = St.DECODE) (hstop : ∀ y z, (s.m.seq r.ix).stopping ≠ .ending y z)
    (hset : s.m.deadline r.ix ≠ 0) (hpast : s.m.deadline r.ix ≤ s.m.timeOf r.ix) :
    Does (.deadlineExpire r) s fun t => t.m.stopWhy r.ix = 4 ∧ t.m.reason r.ix = Code.DEADLINE ∧ (t.m.seq r.ix).step = none ∧
      if s.m.flag r.ix 0 then (t.m.st r.ix = St.PAUSED ∨ t.m.st r.ix = s.m.st r.ix)
      else (t.m.seq r.ix).pages = [] ∧ (t.m.st r.ix = St.DONE ∨ t.m.st r.ix = St.STOPPING) := by
  have hlive : s.m.live r.ix = true := hst.elim live_of_prefill live_of_decode
  have hadm : s.m.st r.ix ≠ St.ADMITTED := by rcases hst with h | h <;> rw [h] <;> decide
  refine does_done (exec_deadlineExpire hserves) ?_
  dsimp only
  rw [Dev.deadlineHit_ends hst hset hpast]
  cases hflag : s.m.flag r.ix 0 with
  | true =>
    obtain ⟨hshows, hkept⟩ := Dev.endSeq_kept (onTok := !(s.m.seq r.ix).group.isEmpty) hlive hadm hstop (by decide : 4 < 8)
      (by decide : Code.DEADLINE < 256) ((s.m.turnOnly_deadline r.ix).trans hflag)
    exact ⟨hshows.stopWhy, hshows.reason, hshows.step, hkept⟩
  | false =>
    have hended := Dev.endSeq_ended_at (onTok := !(s.m.seq r.ix).group.isEmpty) hlive hadm (by decide : 4 < 8) (by decide : Code.DEADLINE < 256)
      (Dev.turnOnly_of_flag hflag) hstop
    exact ⟨hended.shows.stopWhy, hended.shows.reason, hended.shows.step, hended.pages, hended.st⟩

theorem does_kvpHoldExpire (p n : Nat) (hlive : s.m.live r.ix = true) (hadm : s.m.st r.ix ≠ St.ADMITTED)
    (hstop : ∀ y z, (s.m.seq r.ix).stopping ≠ .ending y z) (hheld : (s.m.seq r.ix).held = some (p, n)) :
    (if s.m.deadline r.ix = 0 then p + n ≤ s.m.planksOf r.ix else s.m.deadline r.ix ≤ s.m.timeOf r.ix) → Does (.kvpHoldExpire r) s fun t =>
      t.m.stopWhy r.ix = 7 ∧ t.m.reason r.ix = Code.NOSTATE ∧ (t.m.seq r.ix).pages = [] ∧ (t.m.st r.ix = St.FAILED ∨ t.m.st r.ix = St.STOPPING) := by
  have hended := Dev.growFail_ended hlive hadm hstop
  suffices hdoes : s.m.holdExpired r.ix = s.m.growFail r.ix → _ from hdoes ∘ Dev.holdExpired_grows hheld
  intro hgrows
  refine does_done (exec_kvpHoldExpire hserves) ?_
  rw [hgrows]
  exact ⟨hended.shows.stopWhy, hended.shows.reason, hended.pages, hended.st⟩

theorem does_tuningBackwardDone (k : Step) (hst : s.m.st r.ix = St.PREFILL) (hstep : (s.m.seq r.ix).step = some k) (hkind : k.kind = .backward)
    (hstop : ∀ y z, (s.m.seq r.ix).stopping ≠ .ending y z) (grads losses : List F32) :
    Does (.tuningBackwardDone r grads losses) s fun t => (t.m.seq r.ix).step = none ∧ (t.m.seq r.ix).pages = [] ∧
      t.m.stopWhy r.ix = 0 ∧ t.m.reason r.ix = Code.OK ∧ (t.m.st r.ix = St.DONE ∨ t.m.st r.ix = St.STOPPING) := by
  have hended := Dev.tuningDone_ended hst hstep hkind hstop grads losses
  exact does_done (exec_tuningBackwardDone hserves grads losses)
    ⟨hended.shows.step, hended.pages, hended.shows.stopWhy, hended.shows.reason, hended.st⟩

variable (hs : s.m.Settled)
include hs

theorem answers_deadlineExpire (hst : s.m.st r.ix = St.DECODE) (hends : s.m.EndsNow r.ix) (hgroup : (s.m.seq r.ix).group = [])
    (hflag : s.m.flag r.ix 0 = false) (hset : s.m.deadline r.ix ≠ 0) (hpast : s.m.deadline r.ix ≤ s.m.timeOf r.ix) :
    Answers (.deadlineExpire r) s fun t => t.m.tiles = s.m.tiles ∧ t.m.st r.ix = St.DONE ∧ t.m.stopWhy r.ix = 4 ∧ t.m.reason r.ix = Code.DEADLINE ∧
      t.m.written r.ix = (s.m.written r.ix + 1) % 2 ^ 32 ∧ (t.m.seq r.ix).pages = [] ∧ ∀ x, x ≠ r.ix → t.m.st x = s.m.st x := by
  obtain ⟨-, hstop, hpend, hfree⟩ := hends
  have hnow := Dev.endSeq_ended_now (live_of_decode hst) (by rw [hst]; decide) (by decide : 4 < 8) (by decide : Code.DEADLINE < 256)
    (Dev.turnOnly_of_flag hflag) hstop hpend hfree
  have hexec := exec_deadlineExpire hserves
  rw [Dev.deadlineHit_ends (.inr hst) hset hpast, hgroup] at hexec
  exact answers_done hexec (hnow.within.settled hs) ⟨hnow.within.tiles, hnow.done, hnow.ended.shows.stopWhy, hnow.ended.shows.reason, hnow.written,
    hnow.ended.pages, fun x hx => hnow.within.st hx⟩

theorem answers_kvpHoldExpire (p n : Nat) (hst : s.m.st r.ix = St.DECODE) (hends : s.m.EndsNow r.ix) (hheld : (s.m.seq r.ix).held = some (p, n))
    (hreplay : (s.m.seq r.ix).replay = []) (hset : s.m.deadline r.ix = 0) (hlong : p + n ≤ s.m.planksOf r.ix) :
    Answers (.kvpHoldExpire r) s fun t => t.m.tiles = s.m.tiles ∧ t.m.st r.ix = St.FAILED ∧ t.m.stopWhy r.ix = 7 ∧
      t.m.reason r.ix = Code.NOSTATE ∧ (t.m.seq r.ix).pages = [] ∧ ∀ x, x ≠ r.ix → t.m.st x = s.m.st x := by
  obtain ⟨-, hstop, hpend, hfree⟩ := hends
  have hnow := (Dev.failSeq_ended_now (live_of_decode hst) (by rw [hst]; decide) hstop hpend hfree).closed (Dev.closeRing_closed _ r.ix)
  have hgrows := Dev.holdExpired_grows hheld (by rwa [if_pos hset])
  have hexec := exec_kvpHoldExpire hserves
  rw [hgrows, Dev.growFail, hreplay] at hexec
  exact answers_done hexec (hnow.within.settled hs) ⟨hnow.within.tiles, hnow.done, hnow.ended.shows.stopWhy, hnow.ended.shows.reason,
    hnow.ended.pages, fun x hx => hnow.within.st hx⟩

theorem answers_tuningBackwardDone (k : Step) (hst : s.m.st r.ix = St.PREFILL) (hstep : (s.m.seq r.ix).step = some k) (hkind : k.kind = .backward)
    (hstop : (s.m.seq r.ix).stopping = .no) (hpend : (s.m.seq r.ix).pend = []) (hfree : 1 ≤ s.m.ringFree r.ix) (losses : List F32) :
    Answers (.tuningBackwardDone r [] losses) s fun t => t.m.tiles = s.m.tiles ∧ t.m.st r.ix = St.DONE ∧
      t.m.reason r.ix = Code.OK ∧ t.m.stopWhy r.ix = 0 ∧ (t.m.seq r.ix).step = none ∧ ∀ x, x ≠ r.ix → t.m.st x = s.m.st x := by
  have hnow := Dev.tuningDone_ended_now hst hstep hkind hstop hpend hfree [] losses
  exact answers_done (exec_tuningBackwardDone hserves [] losses) (hnow.within.settled hs) ⟨hnow.within.tiles, hnow.done, hnow.ended.shows.reason,
    hnow.ended.shows.stopWhy, hnow.ended.shows.step, fun x hx => hnow.within.st hx⟩

end

end Sys2Proof.Machine
end


section
/-! Records that waited for ring room (R237, R240), and what ends a sequence (O40). -/

namespace Sys2Proof.Machine
open Sys2Proof

/-! ### One record that waits -/

/-- An entry whose first waiting record has been written. -/
def Dev.pendWritten (s : Dev) (r : Nat) (p : PendRec) : Dev := ((s.modSeq r fun q => { q with pend := q.pend.tail }).putRec r p.word).note r true

/-- Whether a sequence gives up. -/
def Dev.givesUp (s : Dev) (r : Nat) : Bool := match (s.seq r).stopping with | .ending _ _ => true | _ => false

/-- The status word that follows a record which waited; with the last record an ending sequence is done. -/
def Dev.pendClosed (s : Dev) (r : Nat) (p : PendRec) : Dev :=
  if !(s.seq r).pend.isEmpty then s.closeRingWith r (s.statusWordAs r p.st p.why p.reason)
  else (if s.givesUp r && s.st r = St.STOPPING then s.finishSeq r else s).closeRing r

/-- A record that waits is written where it is the first to wait and a slot is free. -/
def Dev.pendStep (r : Nat) (s : Dev) (p : PendRec) : Dev :=
  if (s.seq r).pend.head? = some p ∧ s.ringFree r ≥ 1 then (s.pendWritten r p).pendClosed r p else s

theorem Dev.pendingWrite_steps (s : Dev) (r : Nat) : s.pendingWrite r = (s.seq r).pend.foldl (Dev.pendStep r) s := rfl

section
variable (s : Dev) (r : Nat) (p : PendRec)

theorem Dev.pendWritten_seq : (s.pendWritten r p).seq r = { s.seq r with
    pend := (s.seq r).pend.tail, group := (s.seq r).group ++ [p.word], lastWord := p.word, swDue := true, irqDue := true } := by
  rw [Dev.pendWritten, Dev.note, Dev.modSeq_same, Dev.putRec_seq, Dev.modSeq_same, Bool.or_true]

theorem Dev.pendWritten_written : (s.pendWritten r p).written r = (s.written r + 1) % 2 ^ 32 := Dev.putRec_written ..

theorem Dev.pendWritten_ent {o n : Nat} (h : o + n ≤ Ent.WRITTEN ∨ Ent.WRITTEN + 4 ≤ o) : (s.pendWritten r p).ent r o n = s.ent r o n :=
  (Dev.putRec_ent _ r _ h).trans rfl

theorem Dev.putRec_mem (word : Nat) : (s.putRec r word).mem = s.mem := by simp only [Dev.putRec, Dev.bump_mem, Dev.modSeq_mem, Dev.setEnt]

theorem Dev.finishSeq_mem : (s.finishSeq r).mem = s.mem := by
  simp only [Dev.finishSeq, Dev.note, Dev.modSeq_mem, Dev.bump_mem, Dev.setSt, Dev.setEnt]

theorem Dev.finishSeq_pend : ((s.finishSeq r).seq r).pend = (s.seq r).pend := by
  simp only [Dev.finishSeq, Dev.note, Dev.modSeq_same, Dev.bump_get_seq, Dev.setSt, Dev.setEnt_get_seq]

theorem Dev.pendWritten_mem : (s.pendWritten r p).mem = s.mem := by rw [Dev.pendWritten, Dev.note, Dev.modSeq_mem, Dev.putRec_mem, Dev.modSeq_mem]

end

/-- A written record closes its group, and the last one may end the sequence first. -/
theorem Dev.pendClosed_closes (s : Dev) (r : Nat) (p : PendRec) : ∃ t word, s.pendClosed r p = t.closeRingWith r word ∧
    (t = s ∨ (s.seq r).pend = [] ∧ t = s.finishSeq r) := by
  unfold Dev.pendClosed
  cases hq : (s.seq r).pend with
  | cons p ps => exact ⟨s, _, rfl, .inl rfl⟩
  | nil =>
    cases s.givesUp r && decide (s.st r = St.STOPPING) with
    | true => exact ⟨s.finishSeq r, _, rfl, .inr ⟨rfl, rfl⟩⟩
    | false => exact ⟨s, _, rfl, .inl rfl⟩

theorem Dev.pendClosed_leaves (s : Dev) (r : Nat) (p : PendRec) : (s.pendClosed r p).mem = s.mem ∧ ((s.pendClosed r p).seq r).pend = (s.seq r).pend ∧
    (s.pendClosed r p).written r = s.written r ∧ ((s.seq r).pend ≠ [] → (s.pendClosed r p).ringFree r = s.ringFree r) := by
  obtain ⟨t, word, hclosed, ht⟩ := s.pendClosed_closes r p
  have h := t.closeRingWith_closed r word
  rw [hclosed, h.mem, h.field Seq.pend fun _ => rfl, Dev.written, Dev.ent_of_rqt h.rqt, ← Dev.written]
  rcases ht with rfl | ⟨hnil, rfl⟩
  · refine ⟨rfl, rfl, rfl, fun _ => ?_⟩
    rw [Dev.ringFree, Dev.ringRoom, Dev.written, Dev.ent_of_rqt h.rqt, Dev.ent_of_rqt h.rqt, Dev.ent_of_rqt h.rqt, h.field Seq.ringRsv fun _ => rfl]
    rfl
  · exact ⟨s.finishSeq_mem r, s.finishSeq_pend r, s.finishSeq_ent r (by decide) 4, fun hne => absurd hnil hne⟩

/-! ### Records that wait are written in order -/

/-- A slot taken leaves one slot fewer. -/
theorem Dev.pendWritten_ringFree {s : Dev} {r : Nat} (hfree : 1 ≤ s.ringFree r) (p : PendRec) :
    (s.pendWritten r p).ringFree r = s.ringFree r - 1 := by
  have hsize : 2 ^ nfld (s.ent r Ent.RING_CFG 4) 4 0 ≤ 2 ^ 31 := Nat.pow_le_pow_right (by decide) (Nat.le_of_lt_succ (Nat.mod_lt _ (by decide)))
  have hcons := s.ent_lt r Ent.CONSUMED 4
  have hwritten : s.written r < 2 ^ 32 := s.ent_lt r Ent.WRITTEN 4
  unfold Dev.ringFree Dev.ringRoom at *
  rw [s.pendWritten_written, s.pendWritten_ent r p (.inl (by decide)), s.pendWritten_ent r p (.inl (by decide)), s.pendWritten_seq]
  dsimp only
  generalize 2 ^ nfld (s.ent r Ent.RING_CFG 4) 4 0 = size at *
  omega

theorem Dev.pendStep_full {s : Dev} {r : Nat} (hfull : s.ringFree r = 0) (p : PendRec) : Dev.pendStep r s p = s :=
  if_neg fun h => by omega

theorem Dev.pendStep_writes {s : Dev} {r : Nat} {p : PendRec} {ps : List PendRec} (hpend : (s.seq r).pend = p :: ps) (hfree : 1 ≤ s.ringFree r) :
    Dev.pendStep r s p = (s.pendWritten r p).pendClosed r p := if_pos ⟨by rw [hpend]; rfl, hfree⟩

theorem Dev.pendSteps_full {s : Dev} {r : Nat} (hfull : s.ringFree r = 0) (l : List PendRec) : l.foldl (Dev.pendStep r) s = s := by
  induction l with
  | nil => rfl
  | cons p ps ih => rw [List.foldl_cons, Dev.pendStep_full hfull, ih]

/-- As many records are written as the ring has free slots. -/
theorem Dev.pendSteps_write {s : Dev} {r : Nat} {l : List PendRec} (hpend : (s.seq r).pend = l) : (l.foldl (Dev.pendStep r) s).mem = s.mem ∧
    ((l.foldl (Dev.pendStep r) s).seq r).pend = l.drop (min l.length (s.ringFree r)) ∧
    (l.foldl (Dev.pendStep r) s).written r = (s.written r + min l.length (s.ringFree r)) % 2 ^ 32 := by
  have hwritten (s : Dev) : s.written r < 2 ^ 32 := s.ent_lt r Ent.WRITTEN 4
  induction l generalizing s with
  | nil =>
    have hw := hwritten s
    simp only [List.foldl_nil, List.length_nil, Nat.zero_min, List.drop_nil, hpend, Nat.add_zero]
    exact ⟨trivial, trivial, (Nat.mod_eq_of_lt hw).symm⟩
  | cons p ps ih =>
    obtain hfull | hfree := Nat.eq_zero_or_pos (s.ringFree r)
    · rw [Dev.pendSteps_full hfull, hfull, Nat.min_zero, hpend]
      exact ⟨rfl, rfl, (Nat.mod_eq_of_lt (hwritten s)).symm⟩
    · obtain ⟨hmem, hrest, hone, hroom⟩ := (s.pendWritten r p).pendClosed_leaves r p
      rw [s.pendWritten_seq, hpend] at hrest hroom
      rw [s.pendWritten_mem] at hmem
      rw [s.pendWritten_written] at hone
      rw [Dev.pendWritten_ringFree hfree] at hroom
      obtain ⟨hmems, hrests, hcount⟩ := ih hrest
      rw [List.foldl_cons, Dev.pendStep_writes hpend hfree]
      generalize (s.pendWritten r p).pendClosed r p = t at *
      have hn : min (p :: ps).length (s.ringFree r) = min ps.length (t.ringFree r) + 1 := by
        rw [List.length_cons]
        cases ps with
        | nil => rw [List.length_nil]; omega
        | cons => rw [hroom (List.cons_ne_nil _ _)]; omega
      refine ⟨hmems.trans hmem, hrests.trans ?_, hcount.trans ?_⟩
      · rw [hn, List.drop_succ_cons]
      · rw [hn, hone]
        omega

/-! ### A lone record (R237, R240) -/

/-- A counter leaves the words at other offsets of every page alone (R441). -/
theorem Dev.bump_rd_offset (s : Dev) {k k' : PageKind} {ch i d j o b : Nat} (ho : o + 4 < 0x1000) (hb : b < 0x1000) (h : b ≠ o) (h' : b ≠ o + 4)
    (n : Nat) : (s.bump k ch i o n).rd k' d j b = s.rd k' d j b := by
  have hapart {q : Nat} (hq : q < 0x1000) (hne : b ≠ q) : pageOff k' d j b ≠ pageOff k ch i q := fun heq => hne <| by
    have hmod := congrArg (· % 0x1000) heq
    simpa only [pageOff, Page.base_add_mod _ hb, Page.base_add_mod _ hq] using hmod
  exact s.bump_reg_other (hapart (by omega) h) (hapart ho h')

theorem Dev.pendWritten_fltState (s : Dev) (r : Nat) (p : PendRec) (ch : Nat) : (s.pendWritten r p).fltState ch = s.fltState ch := by
  refine congrArg (fld · 1 0) ?_
  simp only [Dev.pendWritten, Dev.note, Dev.putRec]
  refine (Dev.bump_rd_offset _ ?_ ?_ ?_ ?_ _).trans ((Dev.bump_rd_offset _ ?_ ?_ ?_ ?_ _).trans rfl) <;> decide

theorem Dev.pendWritten_chans (s : Dev) (r : Nat) (p : PendRec) : (s.pendWritten r p).chans = s.chans := by
  simp only [Dev.pendWritten, Dev.note, Dev.putRec, Dev.modSeq_chans, Dev.bump_chans, Dev.setEnt]

theorem Dev.pendWritten_hubGroups (s : Dev) (r : Nat) (p : PendRec) : (s.pendWritten r p).hubGroups = s.hubGroups := by
  simp only [Dev.pendWritten, Dev.note, Dev.putRec, Dev.modSeq_hubGroups, Dev.bump_hubGroups, Dev.setEnt]

theorem Dev.ringShut_linkUp (s : Dev) (r ch : Nat) : ((s.ringShut r).chan ch).linkUp = (s.chan ch).linkUp := by
  unfold Dev.ringShut
  split
  · by_cases h : ch = entCh r
    · subst h
      rw [Dev.modSeq_get_chan, Dev.modChan_same]
    · rw [Dev.modSeq_get_chan, Dev.modChan_other _ h]
  · rfl

theorem Dev.ringShut_fltState (s : Dev) (r ch : Nat) : (s.ringShut r).fltState ch = s.fltState ch := by
  unfold Dev.ringShut
  split <;> rfl

theorem Dev.ringShut_hubGroups (s : Dev) (r : Nat) : (s.ringShut r).hubGroups = s.hubGroups := by
  unfold Dev.ringShut
  split <;> rfl

/-- A group that is due goes onto the hub link of a channel that is NORMAL (R237, R385). -/
theorem Dev.closeRing_group {s : Dev} {r : Nat} (hdue : (s.seq r).swDue = true) (hlink : (s.chan (entCh r)).linkUp = true)
    (hflt : s.fltState (entCh r) = 0) : (s.closeRing r).hubGroups = s.hubGroups ++ [s.ringGroup r (s.statusWord r)] := by
  rw [Dev.closeRing, Dev.closeRingWith_eq, hdue, if_neg (by decide), if_pos ⟨(s.ringShut_linkUp r _).trans hlink, (s.ringShut_fltState r _).trans hflt⟩,
    s.ringShut_hubGroups]

/-- The status word counts the records in its low half (R238). -/
theorem Dev.statusWord_count (s : Dev) (r : Nat) : s.statusWord r % 2 ^ 32 = s.written r := by
  have hw : s.written r < 2 ^ 32 := s.ent_lt r Ent.WRITTEN 4
  unfold Dev.statusWord Dev.statusWordAs
  dsimp only
  split <;> omega

theorem Dev.serves_fltState {s : Dev} {ch : Nat} (h : s.serves ch = true) : s.fltState ch = 0 := by
  simp only [Dev.serves, Bool.and_eq_true, decide_eq_true_eq] at h
  obtain ⟨⟨⟨⟨-, hflt⟩, -⟩, -⟩, -⟩ := h
  exact hflt

theorem entIx_ix (r : SeqRef) : entIx r.ix = r.e.val := by
  have he := r.e.isLt
  simp only [entIx, SeqRef.ix]
  omega

theorem Dev.ringGroup_seq (s : Dev) (r : SeqRef) (word : Nat) : (s.ringGroup r.ix word).seq = r := by
  simp only [Dev.ringGroup, entCh_ix, entIx_ix, Fin.ofNat_eq_cast, Fin.cast_val_eq_self]

/-- A lone record goes to the slot that was the first free one. -/
theorem Dev.ringGroup_lone {s : Dev} {r : Nat} {p : PendRec} (hgroup : (s.seq r).group = []) (word : Nat) :
    ((s.pendWritten r p).ringGroup r word).writes.head? = some (.hostWrite (s.seq r).ctx
      (s.ent r Ent.RING_ADDR 8 + 4 * (s.written r % 2 ^ nfld (s.ent r Ent.RING_CFG 4) 4 0)) (toBytes 4 p.word)) := by
  have hw : s.written r < 2 ^ 32 := s.ent_lt r Ent.WRITTEN 4
  have hslot : ((s.written r + 1) % 2 ^ 32 + 2 ^ 32 - 1 + 0) % 2 ^ 32 = s.written r := by omega
  simp only [Dev.ringGroup, s.pendWritten_seq, hgroup, List.nil_append, List.zipIdx_singleton, List.map_cons, List.map_nil, List.cons_append,
    List.head?_cons, s.pendWritten_written, List.length_singleton, hslot]
  rw [s.pendWritten_ent r p (.inl (by decide)), s.pendWritten_ent r p (.inl (by decide))]

section
variable {s : State} {r : SeqRef} (hserves : s.m.serves r.ch.val = true)
include hserves

theorem does_pendingRecordWrite : let n := min (s.m.seq r.ix).pend.length (s.m.ringFree r.ix)
    Does (.pendingRecordWrite r) s fun t => SameBytes s t ∧ (t.m.seq r.ix).pend = (s.m.seq r.ix).pend.drop n ∧
      t.m.written r.ix = (s.m.written r.ix + n) % 2 ^ 32 := by
  obtain ⟨hmem, hpend, hwritten⟩ := Dev.pendSteps_write (s := s.m) (r := r.ix) rfl
  exact does_done (exec_pendingRecordWrite hserves) ⟨fun a => congrArg (·.get 0 a) hmem, hpend, hwritten⟩

theorem answers_pendingRecordWrite (p : PendRec) (hs : s.m.Settled) (hpend : (s.m.seq r.ix).pend = [p]) (hstop : (s.m.seq r.ix).stopping = .no)
    (hgroup : (s.m.seq r.ix).group = []) (hfree : 1 ≤ s.m.ringFree r.ix) (hlink : (s.m.chan r.ch.val).linkUp = true) :
    Answers (.pendingRecordWrite r) s fun t => SameBytes s t ∧ (t.m.seq r.ix).pend = [] ∧ t.m.st r.ix = s.m.st r.ix ∧
      t.m.written r.ix = (s.m.written r.ix + 1) % 2 ^ 32 ∧
      ∃ g : RingGroup, t.m.hubGroups = s.m.hubGroups ++ [g] ∧ g.seq = r ∧ g.word % 2 ^ 32 = t.m.written r.ix ∧
        g.writes.head? = some (.hostWrite (s.m.seq r.ix).ctx
          (s.m.ent r.ix Ent.RING_ADDR 8 + 4 * (s.m.written r.ix % 2 ^ nfld (s.m.ent r.ix Ent.RING_CFG 4) 4 0)) (toBytes 4 p.word)) := by
  have hseq := s.m.pendWritten_seq r.ix p
  rw [hpend] at hseq
  have hstep : s.m.pendingWrite r.ix = (s.m.pendWritten r.ix p).closeRing r.ix := by
    rw [Dev.pendingWrite_steps, hpend, List.foldl_cons, List.foldl_nil, Dev.pendStep_writes hpend hfree, Dev.pendClosed, Dev.givesUp, hseq, hstop]
    rfl
  have hclosed := (s.m.pendWritten r.ix p).closeRing_closed r.ix
  have hchan (ch : Nat) : (s.m.pendWritten r.ix p).chan ch = s.m.chan ch := by rw [Dev.chan, Dev.pendWritten_chans, Dev.chan]
  have hgroups := Dev.closeRing_group (s := s.m.pendWritten r.ix p) (r := r.ix) (by rw [hseq]) (by rwa [hchan, entCh_ix])
    (by rw [entCh_ix, Dev.pendWritten_fltState, Dev.serves_fltState hserves])
  rw [Dev.pendWritten_hubGroups] at hgroups
  have hwritten : ((s.m.pendWritten r.ix p).closeRing r.ix).written r.ix = (s.m.pendWritten r.ix p).written r.ix := Dev.ent_of_rqt hclosed.rqt ..
  refine answers_done ((exec_pendingRecordWrite hserves).trans (congrArg s.done hstep))
    (hclosed.within.settled (hs.of_chans (s.m.pendWritten_chans r.ix p))) ⟨fun a => ?_, ?_, ?_, ?_, _, hgroups, Dev.ringGroup_seq .., ?_, ?_⟩
  · exact congrArg (·.get 0 a) (hclosed.mem.trans (s.m.pendWritten_mem r.ix p))
  · exact (hclosed.field Seq.pend fun _ => rfl).trans (congrArg Seq.pend hseq)
  · exact (Dev.st_of_rqt hclosed.rqt _).trans (Dev.st_of_stateW (s.m.pendWritten_ent r.ix p (.inl (by decide))))
  · exact hwritten.trans (s.m.pendWritten_written r.ix p)
  · exact ((s.m.pendWritten r.ix p).statusWord_count r.ix).trans hwritten.symm
  · exact Dev.ringGroup_lone hgroup _

end

/-- Settles O40: an ending abandons the step in flight, shows why and gives back what the sequence holds; its last record, as every record that waits,
goes to the ring in order as slots are free. -/
theorem sequencesEnd : Obligations.SequencesEnd := by
  unfold Obligations.SequencesEnd
  refine ⟨fun s r hs hserves => ⟨does_deadlineExpire hserves, does_kvpHoldExpire hserves, does_tuningBackwardDone hserves,
    answers_deadlineExpire hserves hs, answers_kvpHoldExpire hserves hs, answers_tuningBackwardDone hserves hs⟩,
    fun s r hserves _ _ => does_pendingRecordWrite hserves, fun s r p hs hserves => answers_pendingRecordWrite hserves p hs⟩

end Sys2Proof.Machine
end


section
/-! The sticky bit of a source once it has been raised, whatever the raise brings with it (R373, R376), and frames that are freed. -/

namespace Sys2Proof.Machine
open Sys2Proof

/-- From `s` to `t` the sticky bits of every page stay. -/
structure Dev.SameFlags (s t : Dev) : Prop where
  rd : ∀ k ch i, t.rd k ch i Off.PG_FLT = s.rd k ch i Off.PG_FLT

namespace Dev.SameFlags
variable {s t u : Dev}

theorem refl (s : Dev) : s.SameFlags s := ⟨fun _ _ _ => rfl⟩

theorem trans (h : s.SameFlags t) (g : t.SameFlags u) : s.SameFlags u :=
  ⟨fun k ch i => (g.rd k ch i).trans (h.rd k ch i)⟩

theorem of_regs (h : s.SameFlags t) (hregs : u.regs = t.regs) : s.SameFlags u :=
  h.trans ⟨fun k ch i => congrArg (fun m : Store Word => m.get (regReset (pageOff k ch i Off.PG_FLT)) (pageOff k ch i Off.PG_FLT)) hregs⟩

theorem modChan (h : s.SameFlags t) (ch : Nat) (f : Chan → Chan) : s.SameFlags (t.modChan ch f) := h.of_regs rfl

theorem safeState (h : s.SameFlags t) (ch : Nat) : s.SameFlags (t.safeState ch) := h.of_regs rfl

theorem wr (h : s.SameFlags t) {o : Nat} (ho : o < 0x1000) (hne : o ≠ Off.PG_FLT) (k : PageKind) (ch i : Nat) (w : Word) : s.SameFlags (t.wr k ch i o w) := by
  refine h.trans ⟨fun k' ch' i' => t.wr_rd_other (fun heq => hne ?_) w⟩
  have hmod := congrArg (· % 0x1000) heq
  simp only [pageOff, Page.base_add_mod _ ho, Page.base_add_mod _ (show Off.PG_FLT < 0x1000 by decide)] at hmod
  exact hmod.symm

theorem bump (h : s.SameFlags t) {o : Nat} (ho : o + 4 < 0x1000) (hne : Off.PG_FLT ≠ o) (hne' : Off.PG_FLT ≠ o + 4) (k : PageKind) (ch i n : Nat) :
    s.SameFlags (t.bump k ch i o n) :=
  h.trans ⟨fun _ _ _ => t.bump_rd_offset ho (by decide) hne hne' n⟩

theorem branch {c : Prop} [Decidable c] (ht : s.SameFlags t) (hu : s.SameFlags u) : s.SameFlags (if c then t else u) := by
  split
  · exact ht
  · exact hu

theorem emit (h : s.SameFlags t) (o : Out) : s.SameFlags (t.emit o) := h.of_regs (Dev.emit_regs ..)

theorem raiseIbi (h : s.SameFlags t) (tgt kind state cause seq : Nat) : s.SameFlags (t.raiseIbi tgt kind state cause seq) := by
  have hmod {u : Dev} (hu : s.SameFlags u) (f : Mgt → Mgt) : s.SameFlags (u.modMgt tgt f) := hu.of_regs rfl
  exact branch (branch ((hmod (hmod h _) _).emit _) (hmod (hmod h _) _)) (hmod h _)

theorem record (h : s.SameFlags t) (ch : Nat) (e : Ev) : s.SameFlags (t.record ch e) := by
  have hcount {o : Nat} (ho : o = Off.EVR_REC ∨ o = Off.EVR_SUPP) (f : Chan → Chan) : s.SameFlags ((t.modChan ch f).bump .evrCh ch 0 o 1) := by
    refine bump (t := t.modChan ch f) (h.of_regs rfl) ?_ ?_ ?_ .. <;> rcases ho with rfl | rfl <;> decide
  exact branch (branch ((hcount (.inl rfl) _).raiseIbi ..) (hcount (.inl rfl) _)) (hcount (.inr rfl) _)

theorem fltNotice (h : s.SameFlags t) (ch : Nat) : s.SameFlags (t.fltNotice ch) := by
  have hibi (c : Prop) [Decidable c] (e : Ev) (a b d : Nat) : s.SameFlags (if c then (t.record ch e).raiseIbi ch 1 a b d else t.record ch e) :=
    branch ((h.record ch e).raiseIbi ..) (h.record ch e)
  exact branch ((hibi ..).emit _) (hibi ..)

theorem enterFlt (h : s.SameFlags t) (ch st cause : Nat) (forced : Bool) : s.SameFlags (t.enterFlt ch st cause forced) := by
  have hsta (w : Word) : s.SameFlags (t.wr .fltCh ch 0 Off.FLT_STA w) := h.wr (by decide) (by decide) _ _ _ w
  exact .wr (.wr (hsta _) (by decide) (by decide) _ _ _ _) (by decide) (by decide) _ _ _ _

theorem contain (h : s.SameFlags t) (ch cause : Nat) (forced : Bool) : s.SameFlags (t.contain ch cause forced) := by
  unfold Dev.contain
  split
  · exact fltNotice (modChan (safeState (bump (modChan (h.enterFlt ch 1 cause forced) ch _) (by decide) (by decide) (by decide) _ _ _ _) ch) ch _) ch
  · exact h.modChan ch _
  · exact h

theorem halt (h : s.SameFlags t) (ch cause : Nat) (forced : Bool) : s.SameFlags (t.halt ch cause forced) :=
  branch h (fltNotice (modChan (safeState (bump (h.enterFlt ch 2 cause forced) (by decide) (by decide) (by decide) _ _ _ _) ch) ch _) ch)

/-- A source without a redundant action contains or halts its channel, or does neither (R376). -/
theorem actSev (h : s.SameFlags t) {ch ix : Nat} {at_ : FltAt} (hdeg : t.degrade ch ix at_ = none) (sev : Nat) (forced : Bool) :
    s.SameFlags (t.actSev ch ix sev forced at_) := by
  unfold Dev.actSev
  split
  · exact h
  · rw [hdeg]
    exact h.contain ..
  · exact h.contain ..
  · exact h.halt ..

end Dev.SameFlags

/-- A raised source without a redundant action shows in its page, whatever its severity. -/
theorem Dev.raise_bit (s : Dev) (ch : Nat) {ix : Nat} (hix : ix < 96) (hn : (collector ix).2 < (collector ix).1.nsrc)
    (hword : (collector ix).2 < 32) (hdeg : ∀ t : Dev, t.degrade ch ix .none = none) :
    bit ((s.raise ch ix).rd (collector ix).1 ch 0 Off.PG_FLT) (collector ix).2 = true := by
  have hmark := s.pageMark_bit (collector ix).1 ch hword
  have hraise : s.raise ch ix = (s.noteRaise ch ix false .none []).actSev ch ix (s.sevOf ch ix) false .none := by
    rw [Dev.raise, Dev.raiseAt]
    simp only
    rw [if_neg (by omega)]
  have hsame : (s.pageMark (collector ix).1 ch (collector ix).2).SameFlags (s.raise ch ix) := by
    rw [hraise, Dev.noteRaise_none]
    exact ((Dev.SameFlags.refl _).record ch _).actSev (hdeg _) _ _
  rwa [hsame.rd]

/-- A source of the page-table walks, the mover or the logs shows in KVP (R371, R376). -/
theorem Dev.raise_kvp_bit (s : Dev) (ch : Nat) {ix : Nat} (hix : ix = 37 ∨ ix = 38 ∨ ix = 41) :
    bit ((s.raise ch ix).rd .kvpCh ch 0 Off.PG_FLT) (ix - 36) = true := by
  rcases hix with rfl | rfl | rfl <;>
    exact s.raise_bit ch (by decide) (by decide) (by decide) fun _ => rfl

/-! ### Frames that are freed -/

/-- From `s` to `t` frames may have been freed: nothing but the marks of the frames and of the hood areas has changed. -/
def Dev.Freed (s t : Dev) : Prop := ∃ ms cs, t = { s with mems := ms, ctxs := cs }

theorem Dev.freeFrame_freed (s : Dev) (f : Frame) : s.Freed (s.freeFrame f) := by
  unfold Dev.freeFrame
  dsimp only
  split <;> exact ⟨_, _, rfl⟩

theorem Dev.Freed.trans {s t u : Dev} (h : s.Freed t) (g : t.Freed u) : s.Freed u := by
  obtain ⟨ms, cs, rfl⟩ := h
  obtain ⟨ms', cs', rfl⟩ := g
  exact ⟨ms', cs', rfl⟩

theorem Dev.freeFrames_freed (s : Dev) (fs : List Frame) : s.Freed (s.freeFrames fs) := by
  induction fs generalizing s with
  | nil => exact ⟨_, _, rfl⟩
  | cons f fs ih => exact (s.freeFrame_freed f).trans (ih _)

theorem Dev.freeDir_freed (s : Dev) (r : Nat) : s.Freed (s.freeDir r) := (s.freeFrames_freed _).trans ⟨_, _, rfl⟩

end Sys2Proof.Machine
end


section
/-! Page moves and checkpoints (R192, R196, R208, R209, R415). -/

namespace Sys2Proof.Machine
open Sys2Proof

section
variable {s : State} {r : SeqRef} (hserves : s.m.serves r.ch.val = true)
include hserves

theorem exec_pageMoveDone (layer page : Nat) (ok : Bool) : exec (.pageMoveDone r layer page ok) s = s.done (s.m.moveDone r.ix layer page ok) := by
  change s.done (s.m.only _ _) = _
  rw [hserves, Dev.only_true]

theorem exec_checkpointValid : exec (.checkpointValid r) s = s.done (s.m.ckptValid r.ix) := by
  change s.done (s.m.only _ _) = _
  rw [hserves, Dev.only_true]

end

/-! ### Page moves (R192, R196) -/

/-- A page whose copy has failed stays at its source. -/
def Dev.moveStays (s : Dev) (r key : Nat) (pg : PageSt) (mv : PMove) : Dev :=
  (s.freeFrames mv.dst).modSeq r fun q => { q with pages := q.pages.put key { pg with move := none } }

section
variable {s : Dev} {r layer page j : Nat} {pg : PageSt} {mv : PMove} (hfind : (s.seq r).pages.find? (fun e => e.1 = pageKey layer page) = some (j, pg))
  (hmove : pg.move = some mv) (hdone : mv.done = false)
include hfind hmove hdone

theorem Dev.moveDone_noted {fs : List Frame} (hdir : s.dirOk r = true) (hwalk : s.walkPage r (pageKey layer page) = some fs)
    (hheaders : s.headersOk r (pageKey layer page) fs = true) : s.moveDone r layer page true =
      s.modSeq r fun q => { q with pages := q.pages.put (pageKey layer page) { pg with move := some { mv with done := true } } } := by
  have hmover : s.moverWalk r (pageKey layer page) = (s, some fs) := by
    unfold Dev.moverWalk
    simp only [hdir, hwalk, hheaders, if_true]
  unfold Dev.moveDone
  simp only [hfind, hmove, hdone, hmover, Bool.not_true, Bool.false_eq_true, if_false]

theorem Dev.moveDone_failed : s.moveDone r layer page false = (s.moveStays r (pageKey layer page) pg mv).raise (entCh r) 41 := by
  unfold Dev.moveDone
  simp only [hfind, hmove, hdone, Bool.not_false, Bool.false_eq_true, if_false, if_true]
  rfl

end

theorem Dev.moveStays_freed (s : Dev) (r key : Nat) (pg : PageSt) (mv : PMove) : ∃ t, s.Freed t ∧ s.moveStays r key pg mv =
    t.modSeq r fun q => { q with pages := q.pages.put key { pg with move := none } } := ⟨_, s.freeFrames_freed _, rfl⟩

/-- What a failed copy leaves: memory, the table and its page, which says no move any more; MOVE_FAIL shows. -/
theorem Dev.moveStays_raise (s : Dev) (r key : Nat) (pg : PageSt) (mv : PMove) :
    (∀ a, ((s.moveStays r key pg mv).raise (entCh r) 41).byte a = s.byte a) ∧ ((s.moveStays r key pg mv).raise (entCh r) 41).rqt = s.rqt ∧
    (((s.moveStays r key pg mv).raise (entCh r) 41).seq r).pages.get pg key = { pg with move := none } ∧
    bit (((s.moveStays r key pg mv).raise (entCh r) 41).rd .kvpCh (entCh r) 0 Off.PG_FLT) 5 = true := by
  have hraise := (s.moveStays r key pg mv).raise_signalled (entCh r) 41
  have hbit := (s.moveStays r key pg mv).raise_kvp_bit (entCh r) (ix := 41) (by decide)
  obtain ⟨t, ⟨ms, cs, rfl⟩, hstays⟩ := s.moveStays_freed r key pg mv
  rw [hstays] at hraise hbit ⊢
  refine ⟨hraise.byte, hraise.table.rqt, ?_, hbit⟩
  rw [hraise.table.seq, Dev.modSeq_same]
  exact Store.get_put_same ..

section
variable {s : State} {r : SeqRef} (hserves : s.m.serves r.ch.val = true) {layer page j : Nat} {pg : PageSt} {mv : PMove}
  (hfind : (s.m.seq r.ix).pages.find? (fun e => e.1 = pageKey layer page) = some (j, pg)) (hmove : pg.move = some mv) (hdone : mv.done = false)
include hserves hfind hmove hdone

theorem does_pageMoveDone_failed : Does (.pageMoveDone r layer page false) s fun t => SameBytes s t ∧ t.m.rqt = s.m.rqt ∧
    (t.m.seq r.ix).pages.get pg (pageKey layer page) = { pg with move := none } ∧ bit (t.m.rd .kvpCh r.ch.val 0 Off.PG_FLT) 5 = true := by
  have hleaves := s.m.moveStays_raise r.ix (pageKey layer page) pg mv
  rw [← Dev.moveDone_failed hfind hmove hdone, entCh_ix] at hleaves
  exact does_done (exec_pageMoveDone hserves ..) hleaves

theorem answers_pageMoveDone_failed (hs : s.m.Settled) (hrec : s.m.Records r.ch.val 41) :
    Answers (.pageMoveDone r layer page false) s fun t => SameBytes s t ∧ t.m.tiles = s.m.tiles ∧ t.m.rqt = s.m.rqt ∧
      (t.m.seq r.ix).pages.get pg (pageKey layer page) = { pg with move := none } ∧ bit (t.m.rd .kvpCh r.ch.val 0 Off.PG_FLT) 5 = true := by
  obtain ⟨hbytes, hrqt, hpage, hbit⟩ := s.m.moveStays_raise r.ix (pageKey layer page) pg mv
  obtain ⟨t, ⟨ms, cs, rfl⟩, hstays⟩ := s.m.moveStays_freed r.ix (pageKey layer page) pg mv
  have hexec := exec_pageMoveDone hserves layer page false
  rw [Dev.moveDone_failed hfind hmove hdone] at hexec
  rw [entCh_ix] at *
  have hkeeps := Dev.raise_recorded_keeps (s := s.m.moveStays r.ix (pageKey layer page) pg mv) (ch := r.ch.val) (ix := 41)
    (by rw [hstays]; exact hs) (by rw [hstays]; exact hrec) (by decide) (by decide)
  obtain ⟨hsettled, -, htiles, -⟩ := hkeeps
  exact answers_done hexec hsettled ⟨hbytes, htiles.trans (by rw [hstays]; rfl), hrqt, hpage, hbit⟩

end

/-! ### Checkpoints (R208, R209) -/

theorem Dev.length_ckptHeader (s : Dev) (r : Nat) (c : Ckpt) : (s.ckptHeader r c).length = 256 := by
  simp only [Dev.ckptHeader, List.length_append, length_toBytes, List.length_replicate]

/-- The module once the header of a checkpoint stands in the first frame of its slot. -/
def Dev.ckptHeaded (s : Dev) (r : Nat) (c : Ckpt) : Dev :=
  match slotOf (s.seq r) (1 - (s.seq r).newest) with
  | f :: _ => s.setBytes (frameBase f) (s.ckptHeader r c)
  | [] => s

theorem Dev.ckptHeaded_stowed (s : Dev) (r : Nat) (c : Ckpt) : s.Stowed (s.ckptHeaded r c) := by
  unfold Dev.ckptHeaded
  split
  · exact (Dev.Stowed.refl s).setBytes ..
  · exact .refl s

theorem Dev.ckptHeaded_byte (s : Dev) (r : Nat) (c : Ckpt) {a : Nat}
    (ha : ∀ b, (slotOf (s.seq r) (1 - (s.seq r).newest)).head?.map frameBase = some b → a < b ∨ b + 256 ≤ a) :
    (s.ckptHeaded r c).byte a = s.byte a := by
  unfold Dev.ckptHeaded
  split
  case h_1 f fs hslot =>
    rw [hslot] at ha
    have hapart := ha (frameBase f) rfl
    rw [← s.length_ckptHeader r c] at hapart
    exact s.setBytes_byte_other hapart
  case h_2 => rfl

theorem Dev.ckptHeaded_bytes (s : Dev) (r : Nat) (c : Ckpt) {b : Nat}
    (hb : (slotOf (s.seq r) (1 - (s.seq r).newest)).head?.map frameBase = some b) : (s.ckptHeaded r c).bytes b 256 = s.ckptHeader r c := by
  unfold Dev.ckptHeaded
  split
  case h_1 f fs hslot =>
    rw [hslot] at hb
    obtain rfl : frameBase f = b := Option.some.inj hb
    have h := s.setBytes_bytes (frameBase f) (s.ckptHeader r c)
    rwa [s.length_ckptHeader r c] at h
  case h_2 hslot =>
    rw [hslot] at hb
    exact absurd hb (by simp)

end Sys2Proof.Machine

namespace Sys2Proof

/-- What an orderly park knows once its checkpoint stands (R210). -/
def Stopping.sealed : Stopping → Stopping
  | .park ttl t t1 _ cp => .park ttl t t1 t1 cp
  | x => x

/-- A sequence whose checkpoint stands in the slot that NEWEST names from now on (R209). -/
def Seq.sealed (q : Seq) (c : Ckpt) : Seq :=
  let q := { q with copying := none, newest := 1 - q.newest }
  let q := if q.newest = 0 then { q with slotA := c } else { q with slotB := c }
  { q with stopping := q.stopping.sealed }

theorem Seq.sealed_eq (q : Seq) (c : Ckpt) : q.sealed c =
    { q with
      copying := none, newest := 1 - q.newest, slotA := if 1 - q.newest = 0 then c else q.slotA, slotB := if 1 - q.newest = 0 then q.slotB else c
      stopping := q.stopping.sealed } := by
  unfold Seq.sealed
  by_cases h : 1 - q.newest = 0 <;> simp only [h, if_true, if_false]

theorem Stopping.sealed_thermal {x : Stopping} {ttl : Nat} : x.sealed = .thermal ttl ↔ x = .thermal ttl := by
  cases x <;> simp [Stopping.sealed]

end Sys2Proof

namespace Sys2Proof.Machine
open Sys2Proof

/-- The module once a checkpoint is valid (R209). -/
def Dev.ckptSealed (s : Dev) (r : Nat) (c : Ckpt) : Dev :=
  ((s.ckptHeaded r c).modSeq r (·.sealed c)).bump .kvpCh (entCh r) 0 Off.KVP_CKPT_CNT 1

theorem Dev.ckptSealed_seq (s : Dev) (r : Nat) (c : Ckpt) : (s.ckptSealed r c).seq r = (s.seq r).sealed c := by
  rw [Dev.ckptSealed, Dev.bump_get_seq, (s.ckptHeaded_stowed r c).modSeq_seq]

theorem Dev.ckptValid_seals {s : Dev} {r : Nat} {c : Ckpt} (hcopy : (s.seq r).copying = some c) : s.ckptValid r =
    match ((s.ckptSealed r c).seq r).stopping with
    | .thermal ttl => ((s.ckptSealed r c).thermalPark r ttl).closeRing r
    | _ => s.ckptSealed r c := by
  unfold Dev.ckptValid
  simp only [hcopy]
  rfl

theorem Dev.ckptSealed_stopping (s : Dev) (r : Nat) (c : Ckpt) : ((s.ckptSealed r c).seq r).stopping = (s.seq r).stopping.sealed := by
  rw [s.ckptSealed_seq, Seq.sealed_eq]

theorem Dev.ckptValid_plain {s : Dev} {r : Nat} {c : Ckpt} (hcopy : (s.seq r).copying = some c) (hstop : ∀ ttl, (s.seq r).stopping ≠ .thermal ttl) :
    s.ckptValid r = s.ckptSealed r c := by
  rw [Dev.ckptValid_seals hcopy]
  split
  case h_1 ttl h =>
    rw [s.ckptSealed_stopping] at h
    exact absurd (Stopping.sealed_thermal.1 h) (hstop ttl)
  case h_2 => rfl

theorem Dev.ckptValid_thermal {s : Dev} {r : Nat} {c : Ckpt} {ttl : Nat} (hcopy : (s.seq r).copying = some c)
    (hstop : (s.seq r).stopping = .thermal ttl) : s.ckptValid r = ((s.ckptSealed r c).thermalPark r ttl).closeRing r := by
  rw [Dev.ckptValid_seals hcopy, s.ckptSealed_stopping, hstop]
  rfl

theorem Dev.ckptSealed_within (s : Dev) (r : Nat) (c : Ckpt) : Dev.Within r s (s.ckptSealed r c) :=
  (((Dev.Within.refl r s).stowed (s.ckptHeaded_stowed r c)).modSeq _).bump ..

theorem Dev.ckptSealed_rqt (s : Dev) (r : Nat) (c : Ckpt) : (s.ckptSealed r c).rqt = s.rqt := by
  rw [Dev.ckptSealed, Dev.bump_rqt, Dev.modSeq_rqt, (s.ckptHeaded_stowed r c).table.rqt]

theorem Dev.ckptSealed_mem (s : Dev) (r : Nat) (c : Ckpt) : (s.ckptSealed r c).mem = (s.ckptHeaded r c).mem := by
  rw [Dev.ckptSealed, Dev.bump_mem, Dev.modSeq_mem]

theorem Dev.ckptHeaded_eff (s : Dev) (r : Nat) (c : Ckpt) : (s.ckptHeaded r c).eff = s.eff := by
  unfold Dev.ckptHeaded
  split
  · exact Dev.setBytes_eff ..
  · rfl

theorem Dev.ckptSealed_eff (s : Dev) (r : Nat) (c : Ckpt) : (s.ckptSealed r c).eff = s.eff := by
  rw [Dev.ckptSealed, Dev.bump_eff, Dev.modSeq_eff, Dev.ckptHeaded_eff]

/-! ### An orderly thermal stop (R415) -/

/-- Whether a checkpointed sequence is parked in place: PARK_EN is in force, and its ring has room for the record of an ending (R415). -/
def Dev.parksInPlace (s : Dev) (r : Nat) : Bool :=
  s.inForce .thmCh (entCh r) 0 Off.THM_CTL 1 1 = 1 && ((s.seq r).ringRsv || s.ringFree r ≥ 1)

theorem Dev.parksInPlace_iff (s : Dev) (r : Nat) : s.parksInPlace r = true ↔
    s.inForce .thmCh (entCh r) 0 Off.THM_CTL 1 1 = 1 ∧ ((s.seq r).ringRsv = true ∨ 1 ≤ s.ringFree r) := by
  simp only [Dev.parksInPlace, Bool.and_eq_true, Bool.or_eq_true, decide_eq_true_eq, ge_iff_le]

theorem Dev.parksInPlace_congr {s t : Dev} {r : Nat} (heff : t.eff = s.eff) (hrqt : t.rqt = s.rqt) (hrsv : (t.seq r).ringRsv = (s.seq r).ringRsv) :
    t.parksInPlace r = s.parksInPlace r := by
  have hforce : t.inForce .thmCh (entCh r) 0 Off.THM_CTL 1 1 = s.inForce .thmCh (entCh r) 0 Off.THM_CTL 1 1 := by rw [Dev.inForce, heff, Dev.inForce]
  have hfree : t.ringFree r = s.ringFree r := by simp only [Dev.ringFree, Dev.ringRoom, Dev.written, Dev.ent_of_rqt hrqt, hrsv]
  rw [Dev.parksInPlace, hforce, hfree, hrsv, Dev.parksInPlace]

/-- The state in which an orderly thermal stop leaves a sequence, parked in place or not (R415). -/
def Dev.thermalState (s : Dev) (r ttl : Nat) (park : Bool) : Dev :=
  let s := s.modSeq r fun q => { q with stopping := .no, rsv := 0, ringRsv := park, inPlace := park }
  if park then (s.setSt r St.PARKED).setEnt r Ent.EXPIRY 8 (s.timeOf r + ttl * 1000000) else s.setStateW r St.PAUSED Code.HALTED 0 (s.stopWhy r)

/-- A command of the entry that waited for its park is answered (R415). -/
def Dev.parkAnswered (s : Dev) (r : Nat) (q : Seq) (park : Bool) : Dev :=
  let w := s.ent r Ent.CMD_W 4
  if q.ringRsv && q.cmdOpen && nfld w 15 8 = Code.PENDING && nfld w 2 0 = 0 then s.cmdSta r (if park then Code.OK else Code.HALTED) else s

theorem Dev.thermalPark_eq (s : Dev) (r ttl : Nat) : s.thermalPark r ttl =
    ((s.thermalState r ttl (s.parksInPlace r)).parkAnswered r (s.seq r) (s.parksInPlace r)).note r true := rfl

section
variable (s : Dev) (r ttl : Nat) (park : Bool)

theorem Dev.thermalState_st : (s.thermalState r ttl park).st r = if park then St.PARKED else St.PAUSED := by
  cases park
  · exact (Dev.setStateW_shows _ r (by decide) (by decide) (by decide) (Nat.mod_lt _ (by decide))).1
  · exact (Dev.st_of_stateW (Dev.stateW_setEnt _ r _ (by decide))).trans (Dev.setSt_st _ r (by decide))

theorem Dev.thermalState_within : Dev.Within r s (s.thermalState r ttl park) := by
  have hseq := (Dev.Within.refl r s).modSeq fun q => { q with stopping := .no, rsv := 0, ringRsv := park, inPlace := park }
  exact .branch (.setEnt (hseq.setEnt (by decide) _) (by decide) _) (hseq.setEnt (by decide) _)

theorem Dev.thermalState_seq : (s.thermalState r ttl park).seq r =
    { s.seq r with stopping := .no, rsv := 0, ringRsv := park, inPlace := park } := by
  cases park
  · exact (Dev.setEnt_get_seq ..).trans (Dev.modSeq_same ..)
  · exact (Dev.setEnt_get_seq ..).trans ((Dev.setEnt_get_seq ..).trans (Dev.modSeq_same ..))

theorem Dev.parkAnswered_leaves (q : Seq) : Dev.Within r s (s.parkAnswered r q park) ∧ (s.parkAnswered r q park).st r = s.st r ∧
    (s.parkAnswered r q park).seq r = s.seq r := by
  unfold Dev.parkAnswered
  dsimp only
  split
  · exact ⟨(Dev.Within.refl r s).setEnt (by decide) _, Dev.st_of_stateW (s.stateW_setEnt r _ (by decide)), rfl⟩
  · exact ⟨.refl r s, rfl, rfl⟩

end

/-- What an orderly thermal stop leaves of a sequence (R415). -/
theorem Dev.thermalPark_leaves (s : Dev) (r ttl : Nat) : Dev.Within r s (s.thermalPark r ttl) ∧
    (s.thermalPark r ttl).st r = (if s.parksInPlace r then St.PARKED else St.PAUSED) ∧
    ((s.thermalPark r ttl).seq r).copying = (s.seq r).copying ∧ ((s.thermalPark r ttl).seq r).stopping = .no ∧
    ((s.thermalPark r ttl).seq r).newest = (s.seq r).newest := by
  obtain ⟨hwithin, hst, hseq⟩ := (s.thermalState r ttl (s.parksInPlace r)).parkAnswered_leaves r (s.parksInPlace r) (s.seq r)
  rw [s.thermalState_seq] at hseq
  rw [s.thermalPark_eq r ttl, Dev.note, Dev.modSeq_same, hseq]
  exact ⟨((s.thermalState_within ..).trans hwithin).modSeq _, hst.trans (s.thermalState_st ..), rfl, rfl, rfl⟩

/-! ### Checkpoints as commands -/

section
variable {s : State} {r : SeqRef} (hserves : s.m.serves r.ch.val = true) (hs : s.m.Settled) {c : Ckpt} (hcopy : (s.m.seq r.ix).copying = some c)
include hserves hs hcopy

theorem answers_checkpointValid_plain (hstop : ∀ ttl, (s.m.seq r.ix).stopping ≠ .thermal ttl) :
    Answers (.checkpointValid r) s fun t => t.m.rqt = s.m.rqt ∧ t.m.tiles = s.m.tiles ∧
      (∀ a, (∀ b, (slotOf (s.m.seq r.ix) (1 - (s.m.seq r.ix).newest)).head?.map frameBase = some b → a < b ∨ b + 256 ≤ a) → t.m.byte a = s.m.byte a) ∧
      (∀ b, (slotOf (s.m.seq r.ix) (1 - (s.m.seq r.ix).newest)).head?.map frameBase = some b → t.m.bytes b 256 = s.m.ckptHeader r.ix c) ∧
      (∀ x, x ≠ r.ix → t.m.seq x = s.m.seq x) ∧ t.m.seq r.ix = (s.m.seq r.ix).sealed c := by
  have hwithin := s.m.ckptSealed_within r.ix c
  have hmem := s.m.ckptSealed_mem r.ix c
  refine answers_done ((exec_checkpointValid hserves).trans (congrArg s.done (Dev.ckptValid_plain hcopy hstop))) (hwithin.settled hs)
    ⟨s.m.ckptSealed_rqt r.ix c, hwithin.tiles, fun a ha => ?_, fun b hb => ?_, hwithin.seq, s.m.ckptSealed_seq r.ix c⟩
  · exact (congrArg (·.get 0 a) hmem).trans (s.m.ckptHeaded_byte r.ix c ha)
  · exact (congrArg (fun m : Store Byte => (List.range 256).map fun i => m.get 0 (b + i)) hmem).trans (s.m.ckptHeaded_bytes r.ix c hb)

theorem answers_checkpointValid_thermal {ttl : Nat} (hstop : (s.m.seq r.ix).stopping = .thermal ttl) :
    Answers (.checkpointValid r) s fun t => t.m.tiles = s.m.tiles ∧ (t.m.seq r.ix).copying = none ∧
      (t.m.seq r.ix).stopping = .no ∧ (t.m.seq r.ix).newest = 1 - (s.m.seq r.ix).newest ∧
      t.m.st r.ix = if s.m.inForce .thmCh r.ch.val 0 Off.THM_CTL 1 1 = 1 ∧ ((s.m.seq r.ix).ringRsv = true ∨ 1 ≤ s.m.ringFree r.ix) then St.PARKED
        else St.PAUSED := by
  obtain ⟨hpark, hst, hcopying, hstopping, hnewest⟩ := (s.m.ckptSealed r.ix c).thermalPark_leaves r.ix ttl
  have hclosed := ((s.m.ckptSealed r.ix c).thermalPark r.ix ttl).closeRing_closed r.ix
  have hseq := s.m.ckptSealed_seq r.ix c
  rw [Seq.sealed_eq] at hseq
  have hwithin := ((s.m.ckptSealed_within r.ix c).trans hpark).trans hclosed.within
  have hplace : (s.m.ckptSealed r.ix c).parksInPlace r.ix = s.m.parksInPlace r.ix :=
    Dev.parksInPlace_congr (s.m.ckptSealed_eff r.ix c) (s.m.ckptSealed_rqt r.ix c) (by rw [hseq])
  refine answers_done ((exec_checkpointValid hserves).trans (congrArg s.done (Dev.ckptValid_thermal hcopy hstop))) (hwithin.settled hs)
    ⟨hwithin.tiles, ?_, ?_, ?_, ?_⟩
  · rw [hclosed.field Seq.copying fun _ => rfl, hcopying, hseq]
  · rw [hclosed.field Seq.stopping fun _ => rfl, hstopping]
  · rw [hclosed.field Seq.newest fun _ => rfl, hnewest, hseq]
  · rw [Dev.st_of_rqt hclosed.rqt, hst, hplace, ← entCh_ix r]
    exact if_congr (s.m.parksInPlace_iff r.ix) rfl rfl

end

end Sys2Proof.Machine
end


section
/-! Hoods: the end of their copies, their expiry, and a restore (R210 to R212). -/

namespace Sys2Proof.Machine
open Sys2Proof

section
variable {s : State} {r : SeqRef} (hserves : s.m.serves r.ch.val = true)
include hserves

theorem exec_hoodCopyDone : exec (.hoodCopyDone r) s = s.done (s.m.hoodCopied r.ix) := by
  change s.done (s.m.only _ _) = _
  rw [hserves, Dev.only_true]

theorem exec_hoodExpire : exec (.hoodExpire r) s = s.done (s.m.hoodPast r.ix s.m.periodNs) := by
  change s.done (s.m.only _ _) = _
  rw [hserves, Dev.only_true]

theorem exec_hoodRestoreDone (host : HostView) (logOk : Bool) : exec (.hoodRestoreDone r host logOk) s = s.done (s.m.restoreDone r.ix host logOk) := by
  change s.done (s.m.only _ _) = _
  rw [hserves, Dev.only_true]

theorem exec_restoreWaitExpire : exec (.restoreWaitExpire r) s = s.done (s.m.restoreExpired r.ix) := by
  change s.done (s.m.only _ _) = _
  rw [hserves, Dev.only_true]

end

/-- A command whose effect leaves the channels alone gives that effect. -/
theorem gives_done {c : Instr} {s : State} {m : Dev} (hs : s.m.Settled) (hc : exec c s = s.done m) (hm : m.chans = s.m.chans) : Gives c s m :=
  hc.trans (s.done_of_settled (hs.of_chans hm))

/-! ### The end of the copies (R210) -/

theorem Dev.hoodCopied_inside {s : Dev} {r ttl t : Nat} {ck : Bool} (hstop : (s.seq r).stopping = .park ttl (some t) true ck false) (ht : t ≠ 4) :
    s.hoodCopied r = s.modSeq r fun q => { q with stopping := .park ttl (some t) true ck true } := by
  unfold Dev.hoodCopied
  simp only [hstop, if_neg ht]

/-- The copies of a hood in T4 go to the host, and the end is noted. -/
theorem Dev.hoodCopied_host {s : Dev} {r ttl : Nat} {ck : Bool} (hstop : (s.seq r).stopping = .park ttl (some 4) true ck false) :
    ∃ os, s.hoodCopied r = (s.emits os).modSeq r fun q => { q with stopping := .park ttl (some 4) true ck true } := by
  unfold Dev.hoodCopied
  simp only [hstop, if_true]
  exact ⟨_, rfl⟩

/-! ### The expiry (R212) -/

theorem Dev.hoodPast_noted {s : Dev} {r ns : Nat} (hst : s.st r = St.PARKED) (hexp : s.ent r Ent.EXPIRY 8 ≤ s.timeOf r + ns)
    (hrest : (s.seq r).restore = none) (hin : s.resumeIn r = false) : s.hoodPast r ns = s.modSeq r fun q => { q with past := true } := by
  unfold Dev.hoodPast
  rw [if_pos ⟨hst, hexp, by rw [hrest]; rfl, by rw [hin]; rfl⟩]

/-! ### A restore that is refused (R212) -/

/-- Frames that a refused restore gives back. -/
def Dev.restoreFreed (s : Dev) (r : Nat) : Dev :=
  s.freeFrames ((s.seq r).restoreLog ++ (((s.seq r).pages.map fun e => match e.2.move with | some m => m.dst | none => []).flatten))

/-- A sequence whose restore has been refused. -/
def unrestored (q : Seq) : Seq :=
  { q with restoreLog := [], restore := none, ready := false, pages := q.pages.map fun e => (e.1, { e.2 with move := none }) }

theorem Dev.refuseRestore_eq (s : Dev) (r code : Nat) : s.refuseRestore r code = (((s.restoreFreed r).modSeq r unrestored).freeDir r).cmdSta r code := rfl

/-- A refused restore leaves memory, registers and STATE; the resume is answered with the code. -/
structure Dev.Refused (s t : Dev) (r code : Nat) : Prop where
  mem : t.mem = s.mem
  regs : t.regs = s.regs
  chans : t.chans = s.chans
  restore : (t.seq r).restore = none
  st : t.st r = s.st r
  answer : t.ent r (Ent.CMD_W + 1) 1 = code

theorem Dev.refuseRestore_refused (s : Dev) (r : Nat) {code : Nat} (hcode : code < 256) : s.Refused (s.refuseRestore r code) r code := by
  rw [Dev.refuseRestore_eq]
  obtain ⟨ms, cs, hfreed⟩ : s.Freed (s.restoreFreed r) := s.freeFrames_freed _
  obtain ⟨ms', cs', hdir⟩ := ((s.restoreFreed r).modSeq r unrestored).freeDir_freed r
  rw [hdir, hfreed]
  refine ⟨rfl, rfl, rfl, ?_, ?_, ?_⟩
  · rw [Dev.cmdSta, Dev.setEnt_get_seq]
    exact congrArg Seq.restore (Dev.modSeq_same s r unrestored)
  · exact Dev.st_of_stateW (Dev.stateW_setEnt _ r code (by decide))
  · exact (Dev.ent_setEnt_same ..).trans (Nat.mod_eq_of_lt hcode)

/-- A refused restore that also raises a source keeps what the refusal leaves, but for registers and channels. -/
theorem Dev.Refused.raise_table {s t : Dev} {r code : Nat} (h : s.Refused t r code) (ch ix : Nat) : (t.raise ch ix).mem = s.mem ∧
    ((t.raise ch ix).seq r).restore = none ∧ (t.raise ch ix).st r = s.st r ∧ (t.raise ch ix).ent r (Ent.CMD_W + 1) 1 = code := by
  have hraise := t.raise_signalled ch ix
  exact ⟨hraise.mem.trans h.mem, (congrArg Seq.restore (hraise.table.seq r)).trans h.restore, (hraise.table.st r).trans h.st,
    (hraise.table.ent ..).trans h.answer⟩

theorem Dev.restoreExpired_refuses {s : Dev} {r k : Nat} (hrest : (s.seq r).restore = some (k, false)) :
    (if s.deadline r = 0 then k ≤ s.planksOf r else s.deadline r ≤ s.timeOf r) → s.restoreExpired r = s.refuseRestore r Code.NOSPACE := by
  generalize hd : s.deadline r = d
  intro hlong
  simp only [Dev.restoreExpired, hrest, hd]
  refine if_pos ?_
  split at hlong
  case isTrue h0 => exact .inr ⟨h0, hlong⟩
  case isFalse h0 => exact .inl ⟨h0, hlong⟩

/-! ### A restore whose copies are done (R212) -/

/-- Whether a frame of a hood comes back with a header that names it (R189). -/
def Dev.frameWhole (s : Dev) (host : HostView) (r : Nat) (e : Nat × PageSt) (f : Frame × Nat) : Bool :=
  if f.1.tier = 4 then s.hoodHeaderOk host r e.1 f.2 e.2 f.1 else s.headerOk r e.1 f.2 f.1

/-- Whether every frame of the pages that are PRESENT does. -/
def Dev.hoodWhole (s : Dev) (host : HostView) (r : Nat) : Bool :=
  (s.seq r).pages.all fun e => e.2.state ≠ .present || (e.2.frames.zipIdx).all (s.frameWhole host r e)

theorem Dev.hoodWhole_any (s : Dev) (host : HostView) (r : Nat) : ((s.seq r).pages.any fun e => e.2.state = .present &&
    (e.2.frames.zipIdx).any fun f => !(if f.1.tier = 4 then s.hoodHeaderOk host r e.1 f.2 e.2 f.1 else s.headerOk r e.1 f.2 f.1)) =
    !s.hoodWhole host r := by
  rw [Dev.hoodWhole, List.not_all_eq_any_not]
  refine congrArg (List.any _) (funext fun e => ?_)
  simp only [Bool.not_or, List.not_all_eq_any_not, ne_eq, decide_not, Bool.not_not, Dev.frameWhole]

section
variable {s : Dev} {r k : Nat} (hrest : (s.seq r).restore = some (k, true)) (hready : (s.seq r).ready = false) (host : HostView)
include hrest hready

theorem Dev.restoreDone_refuses : s.restoreDone r host false = (s.refuseRestore r Code.REJECTED).raise (entCh r) 38 := by
  unfold Dev.restoreDone
  simp only [hrest, hready, Bool.false_eq_true, false_and, if_false, Bool.not_false, if_true]

theorem Dev.restoreDone_inPlace (hplace : (s.seq r).inPlace = true) : s.restoreDone r host true = s.modSeq r fun q => { q with ready := true } := by
  unfold Dev.restoreDone
  simp only [hrest, hready, hplace, Bool.false_eq_true, false_and, if_false, Bool.not_true, if_true]

section
variable (hplace : (s.seq r).inPlace = false)
include hplace

theorem Dev.restoreDone_torn (hwhole : s.hoodWhole host r = false) : s.restoreDone r host true = s.raise (entCh r) 37 := by
  unfold Dev.restoreDone
  simp only [hrest, hready, hplace, Bool.false_eq_true, false_and, if_false, Bool.not_true, s.hoodWhole_any, hwhole, Bool.not_false, if_true]

theorem Dev.restoreDone_whole (hwhole : s.hoodWhole host r = true) : s.restoreDone r host true =
    ((s.seq r).pages.foldl (fun s e => s.restorePage host r e) s).modSeq r fun q => { q with ready := true } := by
  unfold Dev.restoreDone
  simp only [hrest, hready, hplace, Bool.false_eq_true, false_and, if_false, Bool.not_true, s.hoodWhole_any, hwhole]

end

end

/-! ### Pages of a restore (R212) -/

/-- From `s` to `t` bytes, frames and the pages of one sequence may have changed. -/
structure Dev.Restored (r : Nat) (s t : Dev) : Prop where
  rqt : t.rqt = s.rqt
  tiles : t.tiles = s.tiles
  chans : t.chans = s.chans
  seq : ∀ x, x ≠ r → t.seq x = s.seq x
  restore : (t.seq r).restore = (s.seq r).restore

theorem Dev.Restored.refl (r : Nat) (s : Dev) : Dev.Restored r s s := ⟨rfl, rfl, rfl, fun _ _ => rfl, rfl⟩

theorem Dev.Restored.trans {r : Nat} {s t u : Dev} (h : Dev.Restored r s t) (g : Dev.Restored r t u) : Dev.Restored r s u where
  rqt := g.rqt.trans h.rqt
  tiles := g.tiles.trans h.tiles
  chans := g.chans.trans h.chans
  seq x hx := (g.seq x hx).trans (h.seq x hx)
  restore := g.restore.trans h.restore

theorem Dev.Restored.stowed {r : Nat} {s t u : Dev} (h : Dev.Restored r s t) (g : t.Stowed u) : Dev.Restored r s u :=
  h.trans ⟨g.table.rqt, g.tiles, g.chans, fun x _ => g.table.seq x, congrArg Seq.restore (g.table.seq r)⟩

theorem Dev.Restored.modSeq {r : Nat} {s t : Dev} (h : Dev.Restored r s t) {f : Seq → Seq} (hf : ∀ q, (f q).restore = q.restore) :
    Dev.Restored r s (t.modSeq r f) :=
  h.trans ⟨rfl, rfl, rfl, fun _ hx => Dev.modSeq_other t hx f, by rw [Dev.modSeq_same, hf]⟩

theorem Dev.hoodFetch_stowed (s : Dev) (host : HostView) (r : Nat) (f to_ : Frame) : s.Stowed (s.hoodFetch host r f to_) := ⟨⟨rfl, rfl⟩, rfl, rfl⟩

theorem Dev.restorePage_restored (s : Dev) (host : HostView) (r : Nat) (e : Nat × PageSt) : Dev.Restored r s (s.restorePage host r e) := by
  unfold Dev.restorePage
  split
  · exact .refl r s
  · split
    · split
      · exact (Dev.Restored.refl r s).stowed (.foldl (fun u (x : Frame × Frame) => u.hoodFetch_stowed host r x.1 x.2) _ (.refl s))
      · exact .refl r s
    · exact .modSeq ((Dev.Restored.refl r s).stowed ((Dev.Stowed.refl s).freeFrames _)) fun _ => rfl

theorem Dev.restorePages_restored (host : HostView) (r : Nat) (pages : Store PageSt) (s : Dev) :
    Dev.Restored r s (pages.foldl (fun s e => s.restorePage host r e) s) := by
  induction pages generalizing s with
  | nil => exact .refl r s
  | cons e pages ih => exact (s.restorePage_restored host r e).trans (ih _)

/-- A hood without frames in T4 needs nothing from the host. -/
theorem Dev.restorePages_inside (host : HostView) (r : Nat) {pages : Store PageSt} (hin : ∀ e ∈ pages, ∀ f ∈ e.2.frames, f.tier ≠ 4) (s : Dev) :
    pages.foldl (fun s e => s.restorePage host r e) s = s := by
  induction pages with
  | nil => rfl
  | cons e pages ih =>
    have hnone : (e.2.frames.any fun f => f.tier = 4) = false := by simpa using hin e List.mem_cons_self
    have hpage : s.restorePage host r e = s := by
      unfold Dev.restorePage
      rw [hnone, Bool.not_false, Bool.or_true, if_pos rfl]
    rw [List.foldl_cons, hpage]
    exact ih fun e he => hin e (List.mem_cons_of_mem _ he)

/-! ### Hoods as commands -/

section
variable {s : State} {r : SeqRef} (hserves : s.m.serves r.ch.val = true)

section
variable (hs : s.m.Settled)
include hserves hs

theorem gives_hoodCopyDone (ttl t : Nat) (ck : Bool) (hstop : (s.m.seq r.ix).stopping = .park ttl (some t) true ck false) (ht : t ≠ 4) :
    Gives (.hoodCopyDone r) s (s.m.modSeq r.ix fun q => { q with stopping := .park ttl (some t) true ck true }) :=
  gives_done hs ((exec_hoodCopyDone hserves).trans (congrArg s.done (Dev.hoodCopied_inside hstop ht))) rfl

theorem answers_hoodCopyDone (ttl : Nat) (ck : Bool) (hstop : (s.m.seq r.ix).stopping = .park ttl (some 4) true ck false) :
    Answers (.hoodCopyDone r) s fun u => SameBytes s u ∧ u.m.regs = s.m.regs ∧ u.m.rqt = s.m.rqt ∧
      u.m.seq r.ix = { s.m.seq r.ix with stopping := .park ttl (some 4) true ck true } ∧ (∀ x, x ≠ r.ix → u.m.seq x = s.m.seq x) ∧
      s.m.out <+: u.m.out := by
  obtain ⟨os, hcopied⟩ := Dev.hoodCopied_host hstop
  exact answers_done ((exec_hoodCopyDone hserves).trans (congrArg s.done hcopied)) (hs.of_chans rfl)
    ⟨fun _ => rfl, rfl, rfl, Dev.modSeq_same .., fun _ hx => Dev.modSeq_other _ hx _, List.prefix_append ..⟩

theorem gives_hoodExpire (hst : s.m.st r.ix = St.PARKED) (hexp : s.m.ent r.ix Ent.EXPIRY 8 ≤ s.m.timeOf r.ix + s.m.periodNs)
    (hrest : (s.m.seq r.ix).restore = none) (hin : s.m.resumeIn r.ix = false) :
    Gives (.hoodExpire r) s (s.m.modSeq r.ix fun q => { q with past := true }) :=
  gives_done hs ((exec_hoodExpire hserves).trans (congrArg s.done (Dev.hoodPast_noted hst hexp hrest hin))) rfl

theorem answers_restoreWaitExpire (k : Nat) (hrest : (s.m.seq r.ix).restore = some (k, false)) :
    (if s.m.deadline r.ix = 0 then k ≤ s.m.planksOf r.ix else s.m.deadline r.ix ≤ s.m.timeOf r.ix) → Answers (.restoreWaitExpire r) s fun t =>
      SameBytes s t ∧ t.m.regs = s.m.regs ∧ (t.m.seq r.ix).restore = none ∧ t.m.st r.ix = s.m.st r.ix ∧
      t.m.ent r.ix (Ent.CMD_W + 1) 1 = Code.NOSPACE := by
  have hrefused := s.m.refuseRestore_refused r.ix (by decide : Code.NOSPACE < 256)
  suffices hanswers : s.m.restoreExpired r.ix = s.m.refuseRestore r.ix Code.NOSPACE → _ from hanswers ∘ Dev.restoreExpired_refuses hrest
  intro hexpired
  exact answers_done ((exec_restoreWaitExpire hserves).trans (congrArg s.done hexpired)) (hs.of_chans hrefused.chans)
    ⟨fun a => congrArg (·.get 0 a) hrefused.mem, hrefused.regs, hrefused.restore, hrefused.st, hrefused.answer⟩

end

section
variable {k : Nat} (hrest : (s.m.seq r.ix).restore = some (k, true)) (hready : (s.m.seq r.ix).ready = false) (host : HostView)
include hserves hrest hready

theorem does_hoodRestoreDone_torn (hplace : (s.m.seq r.ix).inPlace = false) (hwhole : s.m.hoodWhole host r.ix = false) :
    Does (.hoodRestoreDone r host true) s fun t => SameBytes s t ∧ t.m.rqt = s.m.rqt ∧ t.m.seq r.ix = s.m.seq r.ix ∧
      bit (t.m.rd .kvpCh r.ch.val 0 Off.PG_FLT) 1 = true := by
  have hraise := s.m.raise_signalled r.ch.val 37
  have hdone := Dev.restoreDone_torn hrest hready host hplace hwhole
  rw [entCh_ix] at hdone
  exact does_done ((exec_hoodRestoreDone hserves host true).trans (congrArg s.done hdone))
    ⟨hraise.byte, hraise.table.rqt, hraise.table.seq _, s.m.raise_kvp_bit r.ch.val (by decide)⟩

theorem does_hoodRestoreDone_refused : Does (.hoodRestoreDone r host false) s fun t => (t.m.seq r.ix).restore = none ∧ t.m.st r.ix = s.m.st r.ix ∧
    t.m.ent r.ix (Ent.CMD_W + 1) 1 = Code.REJECTED ∧ bit (t.m.rd .kvpCh r.ch.val 0 Off.PG_FLT) 2 = true := by
  obtain ⟨-, hrestore, hst, hanswer⟩ := (s.m.refuseRestore_refused r.ix (by decide : Code.REJECTED < 256)).raise_table r.ch.val 38
  have hdone := Dev.restoreDone_refuses hrest hready host
  rw [entCh_ix] at hdone
  exact does_done ((exec_hoodRestoreDone hserves host false).trans (congrArg s.done hdone))
    ⟨hrestore, hst, hanswer, Dev.raise_kvp_bit _ r.ch.val (by decide)⟩

variable (hs : s.m.Settled)
include hs

theorem answers_hoodRestoreDone_refused (hrec : s.m.Records r.ch.val 38) :
    Answers (.hoodRestoreDone r host false) s fun t => SameBytes s t ∧ (t.m.seq r.ix).restore = none ∧
      t.m.st r.ix = s.m.st r.ix ∧ t.m.ent r.ix (Ent.CMD_W + 1) 1 = Code.REJECTED ∧ bit (t.m.rd .kvpCh r.ch.val 0 Off.PG_FLT) 2 = true := by
  have hrefused := s.m.refuseRestore_refused r.ix (by decide : Code.REJECTED < 256)
  obtain ⟨hmem, hrestore, hst, hanswer⟩ := hrefused.raise_table r.ch.val 38
  have hrecords : (s.m.refuseRestore r.ix Code.REJECTED).Records r.ch.val 38 :=
    hrec.of_page fun _ _ => by simp only [Dev.rd, Dev.reg, hrefused.regs]
  obtain ⟨hsettled, -, -, -⟩ := Dev.raise_recorded_keeps (hs.of_chans hrefused.chans) hrecords (by decide) (by decide)
  have hdone := Dev.restoreDone_refuses hrest hready host
  rw [entCh_ix] at hdone
  exact answers_done ((exec_hoodRestoreDone hserves host false).trans (congrArg s.done hdone)) hsettled
    ⟨fun a => congrArg (·.get 0 a) hmem, hrestore, hst, hanswer, Dev.raise_kvp_bit _ r.ch.val (by decide)⟩

theorem gives_hoodRestoreDone (hin : (s.m.seq r.ix).inPlace = true ∨
    (s.m.hoodWhole host r.ix = true ∧ ∀ e ∈ (s.m.seq r.ix).pages, ∀ f ∈ e.2.frames, f.tier ≠ 4)) :
    Gives (.hoodRestoreDone r host true) s (s.m.modSeq r.ix fun q => { q with ready := true }) := by
  suffices hdone : s.m.restoreDone r.ix host true = s.m.modSeq r.ix fun q => { q with ready := true } from
    gives_done hs ((exec_hoodRestoreDone hserves host true).trans (congrArg s.done hdone)) rfl
  cases hplace : (s.m.seq r.ix).inPlace with
  | true => exact Dev.restoreDone_inPlace hrest hready host hplace
  | false =>
    obtain ⟨hwhole, hinside⟩ := hin.resolve_left (by rw [hplace]; exact Bool.false_ne_true)
    rw [Dev.restoreDone_whole hrest hready host hplace hwhole, Dev.restorePages_inside host r.ix hinside]

theorem answers_hoodRestoreDone (hplace : (s.m.seq r.ix).inPlace = false) (hwhole : s.m.hoodWhole host r.ix = true) :
    Answers (.hoodRestoreDone r host true) s fun t => t.m.rqt = s.m.rqt ∧ t.m.tiles = s.m.tiles ∧ (t.m.seq r.ix).ready = true ∧
      (t.m.seq r.ix).restore = (s.m.seq r.ix).restore ∧ ∀ x, x ≠ r.ix → t.m.seq x = s.m.seq x := by
  have hpages := Dev.restorePages_restored host r.ix (s.m.seq r.ix).pages s.m
  have hdone := hpages.modSeq (f := fun q => { q with ready := true }) fun _ => rfl
  exact answers_done ((exec_hoodRestoreDone hserves host true).trans (congrArg s.done (Dev.restoreDone_whole hrest hready host hplace hwhole)))
    (hs.of_chans hdone.chans) ⟨hdone.rqt, hdone.tiles, congrArg Seq.ready (Dev.modSeq_same ..), hdone.restore, hdone.seq⟩

end

end

/-- Settles O39: each end of a copy is noted where the walk finds the page in order, and a failed copy, a bad log or a wait that has ended gives back what
was taken and says so. -/
theorem stateMemoryIsKept : Obligations.StateMemoryIsKept := by
  unfold Obligations.StateMemoryIsKept
  refine ⟨fun s r hs hserves => ⟨fun layer page j pg mv hfind hmove hdone => ⟨fun fs hdir hwalk hheaders => ?_,
      does_pageMoveDone_failed hserves hfind hmove hdone, answers_pageMoveDone_failed hserves hfind hmove hdone hs⟩, fun c hcopy => ⟨fun hstop => ?_,
      fun _ hstop => answers_checkpointValid_thermal hserves hs hcopy hstop⟩⟩,
    fun s r hs hserves => ⟨gives_hoodCopyDone hserves hs, answers_hoodCopyDone hserves hs, gives_hoodExpire hserves hs,
      fun k host hrest hready => ⟨gives_hoodRestoreDone hserves hrest hready host hs, answers_hoodRestoreDone hserves hrest hready host hs,
        does_hoodRestoreDone_torn hserves hrest hready host, does_hoodRestoreDone_refused hserves hrest hready host,
        answers_hoodRestoreDone_refused hserves hrest hready host hs⟩, answers_restoreWaitExpire hserves hs⟩⟩
  · exact gives_done hs ((exec_pageMoveDone hserves layer page true).trans
      (congrArg s.done (Dev.moveDone_noted hfind hmove hdone hdir hwalk hheaders))) rfl
  · have hplain := answers_checkpointValid_plain hserves hs hcopy hstop
    rw [Seq.sealed_eq] at hplain
    exact hplain

end Sys2Proof.Machine
end

section
/-! The place of a request table entry in the address map (O6). -/

namespace Sys2Proof

/-- A byte of a request table entry stands on no page (R216, R441). -/
theorem Page.ofAddr_entry {ch e o : Nat} (hc : ch < 8) (he : e < 512) (ho : o < 128) :
    Page.ofAddr (chanWin ch + 0x20000 + 128 * e + o) = none := by
  simp only [Nat.add_assoc (chanWin ch)]
  rw [Page.ofAddr_chanWin hc (by omega), Page.ofWindow, if_neg (by omega), if_neg (by omega), if_neg (by omega), if_neg (by omega)]

end Sys2Proof

namespace Sys2Proof.Machine

/-- Settles O6: pages by their regions in the address map, entries by the gap between the channel's pages and its contexts' pages. -/
theorem addressMapIsDisjoint : Obligations.AddressMapIsDisjoint := by
  unfold Obligations.AddressMapIsDisjoint
  exact ⟨fun _ hv _ ho => ⟨Page.ofAddr_base_add hv ho, rqtOfAddr_base_add hv ho⟩,
    fun _ _ _ hc he ho => ⟨rqtOfAddr_entry hc he ho, Page.ofAddr_entry hc he ho⟩⟩

end Sys2Proof.Machine
end

section
/-! A write of RQT_PART: when it is applied, and what it stores (O42). -/

namespace Sys2Proof.Machine
open Sys2Proof

/-! ### What a partition stores of STEP_MAX (R248) -/

/-- A STEP_MAX above 256 is stored as 256, and the bits below it stay. -/
theorem toNat_lowerTo_stepMax (v : Word) : (lowerTo 31 23 256 v).toNat = v.toNat % 2 ^ 23 + min 256 (fld v 31 23) * 2 ^ 23 := by
  have hv := v.isLt
  rw [lowerTo]
  split
  next h => simp only [setFld, fld, BitVec.toNat_ofNat] at h ⊢; omega
  next h => simp only [fld] at h ⊢; omega

theorem fld_lowerTo_stepMax (v : Word) : fld (lowerTo 31 23 256 v) 31 23 = min 256 (fld v 31 23) := by
  rw [fld, toNat_lowerTo_stepMax]; omega

/-- BASE, COUNT and PRIO_MAX are stored as written. -/
theorem fld_lowerTo_stepMax_below (v : Word) : fld (lowerTo 31 23 256 v) 8 0 = fld v 8 0 ∧
    fld (lowerTo 31 23 256 v) 18 9 = fld v 18 9 ∧ fld (lowerTo 31 23 256 v) 22 19 = fld v 22 19 := by
  simp only [fld, toNat_lowerTo_stepMax]; omega

/-! ### When the write is applied (R248) -/

/-- Two ranges have an entry in common. -/
theorem ranges_meet_iff (b c b' c' : Nat) :
    (∃ i, (b ≤ i ∧ i < b + c) ∧ b' ≤ i ∧ i < b' + c') ↔ 0 < c ∧ 0 < c' ∧ b < b' + c' ∧ b' < b + c := by
  constructor
  · rintro ⟨i, ⟨_, _⟩, _, _⟩; omega
  · intro _; exact ⟨max b b', by omega⟩

/-- What R248 refuses in a partition of `c` entries from `b` on: it overlaps another context's, it runs beyond entry 511, or an entry that is
not FREE would change owner. -/
def Dev.PartRefused (s : Dev) (ch n b c : Nat) : Prop :=
  (∃ m, m < 64 ∧ m ≠ n ∧ ∃ i, (b ≤ i ∧ i < b + c) ∧ (s.part ch m).1 ≤ i ∧ i < (s.part ch m).1 + (s.part ch m).2.1) ∨ 512 < b + c ∨
  ∃ i, i < 512 ∧ s.st (ch * 512 + i) ≠ St.FREE ∧
    ¬ (((s.part ch n).1 ≤ i ∧ i < (s.part ch n).1 + (s.part ch n).2.1) ↔ (b ≤ i ∧ i < b + c))

/-- A write of a partition's register keeps the old word where R248 refuses it, and stores the new one with its STEP_MAX limited else. -/
theorem Dev.partWrite_eq (s : Dev) (ch n : Nat) (v : Word) [Decidable (s.PartRefused ch n (fld v 8 0) (fld v 18 9))] :
    s.partWrite ch n v = if s.PartRefused ch n (fld v 8 0) (fld v 18 9) then s
      else s.wr .rqtCh ch 0 (Off.RQT_PART + 4 * n) (lowerTo 31 23 256 v) := by
  obtain ⟨hbase, hcount, -⟩ := fld_lowerTo_stepMax_below v
  simp only [Dev.partWrite, hbase, hcount, Dev.PartRefused, ranges_meet_iff]
  refine if_congr ?_ rfl rfl
  simp only [Bool.or_eq_true, List.any_eq_true, List.mem_range, ← Bool.decide_and, Bool.and_eq_true, decide_eq_true_eq, bne_iff_ne, decide_eq_decide,
    ne_eq, and_assoc, or_assoc, and_comm (a := ¬ (_ ↔ _))]

/-- A granted write of a partition's register is one of the partition. -/
theorem Dev.put_rqtPart {s : Dev} {fn : Fn} {ch : ChId} {n : CtxId} (hw : s.Writes fn ⟨.rqtCh, ch.val, 0⟩ (Off.RQT_PART + 4 * n.val)) (v : Word) :
    s.put fn (pageOff .rqtCh ch.val 0 (Off.RQT_PART + 4 * n.val)) v = s.partWrite ch.val n.val v := by
  have hv : Page.valid ⟨.rqtCh, ch.val, 0⟩ = true := Page.valid_channel (by decide) ch.isLt
  have hn := n.isLt
  have ho : Off.RQT_PART = 0x200 := rfl
  have hix : (Off.RQT_PART + 4 * n.val - Off.RQT_PART) / 4 = n.val := by omega
  have hin : Off.RQT_PART ≤ Off.RQT_PART + 4 * n.val ∧ Off.RQT_PART + 4 * n.val < Off.RQT_PART + 256 := by omega
  rw [Dev.put, pageOff, Dev.writeWord_granted hv (by omega) (by omega) hw, Dev.pageWrite, if_neg (by omega)]
  simp only [Dev.bodyWrite, if_pos hin, hix]

theorem exec_rqtPartWrite (fn : Fn) (ch : ChId) (n : CtxId) (v : Word) (s : State) : exec (.rqtPartWrite fn ch n v) s =
    s.done (s.m.put fn (pageOff .rqtCh ch.val 0 (Off.RQT_PART + 4 * n.val)) v) := rfl

/-- The partition that a stored word describes. -/
theorem Dev.part_wr (s : Dev) (ch n : Nat) (w : Word) : (s.wr .rqtCh ch 0 (Off.RQT_PART + 4 * n) w).part ch n =
    (fld w 8 0, fld w 18 9, fld w 22 19, fld w 31 23) := by
  simp only [Dev.part, Dev.wr_rd_same]

/-- A write that R248 refuses leaves the register its old word. -/
theorem gives_rqtPartWrite_refused {s : State} {fn : Fn} {ch : ChId} {n : CtxId} {v : Word} (hs : s.m.Settled)
    (hw : s.m.Writes fn ⟨.rqtCh, ch.val, 0⟩ (Off.RQT_PART + 4 * n.val)) (h : s.m.PartRefused ch.val n.val (fld v 8 0) (fld v 18 9)) :
    Gives (.rqtPartWrite fn ch n v) s s.m := by
  classical
  rw [Gives, exec_rqtPartWrite, Dev.put_rqtPart hw, Dev.partWrite_eq, if_pos h, s.done_of_settled hs]

/-- A write that R248 does not refuse stores the partition, and changes its own word only. -/
theorem answers_rqtPartWrite_applied {s : State} {fn : Fn} {ch : ChId} {n : CtxId} {v : Word} (hs : s.m.Settled)
    (hw : s.m.Writes fn ⟨.rqtCh, ch.val, 0⟩ (Off.RQT_PART + 4 * n.val)) (h : ¬ s.m.PartRefused ch.val n.val (fld v 8 0) (fld v 18 9)) :
    Answers (.rqtPartWrite fn ch n v) s fun t => SameWork s t ∧
      t.m.part ch.val n.val = (fld v 8 0, fld v 18 9, fld v 22 19, min 256 (fld v 31 23)) ∧
      SameRegs s t (· = pageOff .rqtCh ch.val 0 (Off.RQT_PART + 4 * n.val)) := by
  classical
  obtain ⟨hbase, hcount, hprio⟩ := fld_lowerTo_stepMax_below v
  refine ⟨{ s with m := s.m.wr .rqtCh ch.val 0 (Off.RQT_PART + 4 * n.val) (lowerTo 31 23 256 v) }, ?_, sameWork_setReg .., ?_,
    fun a ha => Dev.wr_reg_other _ ha _⟩
  · rw [exec_rqtPartWrite, Dev.put_rqtPart hw, Dev.partWrite_eq, if_neg h, s.done_of_settled (hs.of_chans (Dev.wr_chans ..))]
  rw [Dev.part_wr, hbase, hcount, hprio, fld_lowerTo_stepMax]

/-- Settles O42: the statement's condition is `Dev.PartRefused`, which decides whether the write is applied. -/
theorem partitionsAreGuarded : Obligations.PartitionsAreGuarded := by
  unfold Obligations.PartitionsAreGuarded
  intro s fn ch n v hs hw
  exact ⟨gives_rqtPartWrite_refused hs hw, answers_rqtPartWrite_applied hs hw⟩

end Sys2Proof.Machine
end

section
/-! A command written while a park is still PENDING (O41): the entry's word is stored, and the sequence no longer waits to report the park (R242). -/

namespace Sys2Proof.Machine
open Sys2Proof

/-! ### Writes that reach an entry (R216, R242) -/

theorem exec_cmdNone (fn : Fn) (r : SeqRef) (s : State) : exec (.cmdNone fn r) s = s.done (s.m.putEnt fn r Ent.CMD_W 0) := rfl

/-- A 32-bit write of a function that reaches an entry is one of the entry. -/
theorem Dev.putEnt_tableOn {s : Dev} {fn : Fn} {r : SeqRef} (ht : s.TableOn fn r) (o v : Nat) :
    s.putEnt fn r o v = s.entryWrite (fnIx fn) r.ix o (toBytes 4 v) := by
  obtain ⟨hfn, hon, hfail, hclosed, hclean, hown⟩ := ht
  cases fn with
  | mgt => exact absurd rfl hfn
  | pf0 =>
    cases h : s.partOwner r.ch.val r.e.val with
    | none => simp [Dev.putEnt, Dev.rqtWrite, hon, hfail, hclosed, SeqRef.ix, h]
    | some k => simp [Dev.putEnt, Dev.rqtWrite, hon, hfail, hclosed, SeqRef.ix, h, hclean k h]
  | vf n =>
    have h := hown n rfl
    simp [Dev.putEnt, Dev.rqtWrite, hon, hfail, hclosed, SeqRef.ix, h, hclean _ h]

theorem Dev.entryWrite_cmdW (s : Dev) (fn r v : Nat) : s.entryWrite fn r Ent.CMD_W (toBytes 4 v) = s.writeCmdW r (v % 256 ^ 4) := by
  rw [← ofBytes_toBytes]; rfl

/-- A command that is written takes the place of one whose result was still awaited. -/
theorem Dev.writeCmdW_cmdOpen (s : Dev) (r v : Nat) : ((s.writeCmdW r v).seq r).cmdOpen = false := by
  rw [Dev.writeCmdW, Dev.setEnt_get_seq]
  split
  next => rw [Dev.modSeq_same]
  next h => exact eq_false_of_ne_true h

theorem Dev.writeCmdW_chans (s : Dev) (r v : Nat) : (s.writeCmdW r v).chans = s.chans := by
  rw [Dev.writeCmdW]
  split <;> rfl

/-- After a NONE that reaches an entry, no result of a command is awaited. -/
theorem answers_cmdNone_cmdOpen {s : State} (hs : s.m.Settled) {fn : Fn} {r : SeqRef} (ht : s.m.TableOn fn r) :
    Answers (.cmdNone fn r) s fun t => (t.m.seq r.ix).cmdOpen = false := by
  refine ⟨{ s with m := s.m.writeCmdW r.ix 0 }, ?_, Dev.writeCmdW_cmdOpen ..⟩
  rw [exec_cmdNone, Dev.putEnt_tableOn ht, Dev.entryWrite_cmdW, Nat.zero_mod, s.done_of_settled (hs.of_chans (Dev.writeCmdW_chans ..))]

/-- Where a result is awaited, a NONE changes more than its entry. -/
theorem not_answers_cmdNone_onlyEntry {s : State} (hs : s.m.Settled) {fn : Fn} {r : SeqRef} (ht : s.m.TableOn fn r)
    (hopen : (s.m.seq r.ix).cmdOpen = true) (p : Nat → Prop) (P : State → Prop) :
    ¬ Answers (.cmdNone fn r) s fun t => OnlyEntry s t r.ix p ∧ P t := by
  rintro ⟨t, hexec, honly, -⟩
  obtain ⟨u, hu, hshut⟩ := answers_cmdNone_cmdOpen hs ht
  obtain rfl : t = u := Host.Outcome.next.inj (hexec.symm.trans hu)
  rw [Dev.seq, honly.seqs, ← Dev.seq, hopen] at hshut
  exact absurd hshut (by decide)

/-! ### The park -/

/-- The paused sequence of entry 0 of channel 0, whose ring has a free slot and whose TTL is 1 s, on a module that serves its host. -/
def pausedEntry : Dev :=
  (({ Dev.reset with vin := true, perstLow := false, hubReady := true, chans := [(0, { Chan.fresh with linkUp := true })] }
    : Dev).setEnt 0 Ent.STATE_W 4 St.PAUSED).setEnt 0 Ent.TTL 4 1000

/-- The same once PARK is applied: it is STOPPING, and CMD_STA shows PENDING (R243, R245). -/
def parkingEntry : State := ⟨[], pausedEntry.applyPark 0⟩

theorem parkingEntry_settled : parkingEntry.m.Settled := by unfold Dev.Settled; decide +kernel

theorem parkingEntry_tableOn : parkingEntry.m.TableOn .pf0 ⟨0, 0⟩ := by unfold Dev.TableOn; decide +kernel

theorem parkingEntry_cmdOpen : (parkingEntry.m.seq 0).cmdOpen = true := by decide +kernel

/-- Refutes O41: a command need not change its entry only. The sequence of an entry that is being parked waits to report the park in CMD_STA,
and a NONE written meanwhile ends that wait (R242): the sequence does not stay. -/
theorem not_entriesAreWritten : ¬ Obligations.EntriesAreWritten := by
  unfold Obligations.EntriesAreWritten
  rintro ⟨-, hfields⟩
  obtain ⟨-, -, hcmd, -⟩ := hfields parkingEntry .pf0 ⟨0, 0⟩ parkingEntry_settled parkingEntry_tableOn
  exact not_answers_cmdNone_onlyEntry parkingEntry_settled parkingEntry_tableOn parkingEntry_cmdOpen _ _
    (hcmd (.cmdNone .pf0 ⟨0, 0⟩) 0 (List.mem_cons_self ..))

end Sys2Proof.Machine
end

section
/-! An UNLOAD that stops a swap, and the T1 that the context holds (O44). -/

namespace Sys2Proof.Machine

/-- Context 1 is ACTIVE and holds a pattern, a swap of it is in FETCH, and frame 0 of channel 0's T1 is set aside for its digital parts, whose
first byte is 1. The host port is open to PF0. -/
def swappingCtx : Dev :=
  let m : Dev := { Dev.reset with
    vin := true, perstLow := false, hubReady := true
    mem := [(tierBase 0 1, 1)]
    mems := [(0, { Mem.fresh with ranges := [⟨0, 1, 1, false⟩] })] }
  ((m.wr .hubCx 0 1 Off.HUB_CX_STA 1).wrF .ldrCx 0 1 Off.LDR_CMD_STA 18 16 Ph.FETCH).modCtx 1 fun c =>
    { c with pat := some oneLayerPattern, load := { Load.fresh with swap := true } }

theorem swappingCtx_settled : swappingCtx.Settled := by unfold Dev.Settled; decide +kernel

theorem swappingCtx_writes : swappingCtx.Writes .pf0 ⟨.ldrCx, 0, 1⟩ Off.LDR_CMD := by unfold Dev.Writes; decide +kernel

theorem swappingCtx_active : swappingCtx.ctxState 1 = 1 := by decide +kernel

theorem swappingCtx_loaded : (swappingCtx.patOf 1).isSome = true := by decide +kernel

theorem swappingCtx_byte : swappingCtx.byte (tierBase 0 1) = 1 := rfl

/-- UNLOAD frees what the swap took at once: the context's parts in T1 are written with zeros before the old pattern's take their place (R261,
R281). -/
theorem unload_clears_swappingCtx : (swappingCtx.put .pf0 (cxOff .ldrCx (1 : CtxId).val Off.LDR_CMD) 4).settle.byte (tierBase 0 1) = 0 := by
  decide +kernel

/-- An UNLOAD is a write of LDR_CMD. -/
theorem dev_of_exec_ldrUnload {q : List Instr} {m : Dev} {fn : Fn} {ctx : CtxId} {t : State} (h : exec (.ldrUnload fn ctx) ⟨q, m⟩ = .next t) :
    t.m = (m.put fn (cxOff .ldrCx ctx.val Off.LDR_CMD) 4).settle := (congrArg State.m (Host.Outcome.next.inj h)).symm

/-- Refutes O44: an UNLOAD of a loaded context does not keep every byte. It stops the swap in progress, and the T1 that is set aside for the
context is cleared and allotted afresh. -/
theorem not_loadsAreCommanded : ¬ Obligations.LoadsAreCommanded := by
  unfold Obligations.LoadsAreCommanded
  intro h
  obtain ⟨-, hactive⟩ := h ⟨[], swappingCtx⟩ .pf0 1 swappingCtx_settled swappingCtx_writes
  obtain ⟨-, -, -, -, -, -, -, hunload, -⟩ := hactive swappingCtx_active
  obtain ⟨t, hexec, hbytes, -⟩ := hunload swappingCtx_loaded
  have hkept : t.m.byte (tierBase 0 1) = swappingCtx.byte (tierBase 0 1) := hbytes _
  rw [dev_of_exec_ldrUnload hexec, unload_clears_swappingCtx, swappingCtx_byte] at hkept
  exact absurd hkept (by decide)

end Sys2Proof.Machine
end

section
/-! The registers of a load (O45): LDR_NEXT, LDR_SIZE, LDR_PROG and LDR_RCMP. -/

namespace Sys2Proof.Machine
open Sys2Proof

theorem valid_hubContext {k : PageKind} (hk : k ∈ hubContextKinds) (n : CtxId) : Page.valid ⟨k, 0, n.val⟩ = true := by
  fin_cases hk <;> simp [Page.valid]

/-- A granted write to a page that a context owns finds the context not CLEANING (R449). -/
theorem Dev.Writes.ctxState_ne {m : Dev} {fn : Fn} {k : PageKind} {ch n o : Nat} (hw : m.Writes fn ⟨k, ch, n⟩ o) (hk : ctxPage k = true)
    (hmgt : k.mgt = false) (ho : 0x100 ≤ o) : m.ctxState n ≠ 2 := by
  cases fn with
  | mgt =>
    obtain ⟨hmay, -⟩ := hw
    simp only [Dev.mayWrite, hmgt, Bool.false_or, decide_eq_true_eq] at hmay
    omega
  | pf0 => obtain ⟨-, -, hcx, -⟩ := hw; exact hcx hk
  | vf _ => obtain ⟨-, -, hcx, -⟩ := hw; exact hcx hk

theorem exec_ldrConfigWrite (fn : Fn) (ctx : CtxId) (reg : LdrReg) (v : Word) (s : State) :
    exec (.ldrConfigWrite fn ctx reg v) s = s.done (s.m.put fn (cxOff .ldrCx ctx.val (ldrRegOff reg)) v) := rfl

theorem ldrRegOff_lt (reg : LdrReg) : ldrRegOff reg < 0x1000 := by cases reg <;> decide

theorem ldrRegOff_ge (reg : LdrReg) : 0x100 ≤ ldrRegOff reg := by cases reg <;> decide

theorem ldrRegOff_aligned (reg : LdrReg) : ldrRegOff reg % 4 = 0 := by cases reg <;> rfl

theorem ldrRegOff_ne_wrSta (reg : LdrReg) : ldrRegOff reg ≠ Off.LDR_WR_STA := by cases reg <;> decide

/-- Words of one page at different offsets are different words. -/
theorem pageOff_ne {k : PageKind} {ch i o p : Nat} (h : o ≠ p) : pageOff k ch i o ≠ pageOff k ch i p := fun he => h (Nat.add_left_cancel he)

theorem Dev.pageWrite_ldrReg (s : Dev) (n rdr : Nat) (reg : LdrReg) (v : Word) (env : WrEnv) :
    s.pageWrite ⟨.ldrCx, 0, n⟩ rdr (ldrRegOff reg) v env = s.ldrWrite n (ldrRegOff reg) v := by cases reg <;> rfl

/-- The bits that a load register has (R280). -/
def ldrRegMask : LdrReg → Word
  | .nextLo => 0xFFFFF000#32
  | .progLo => 0xFFFFFFF0#32
  | .rcmpLo => 0xFFFFFFC0#32
  | _ => 0xFFFFFFFF#32

/-- A write of a load register is not applied while PHASE is not NONE (R256). -/
theorem Dev.ldrWrite_held {s : Dev} {n : Nat} (hcx : s.ctxState n ≠ 2) (hph : s.phase n ≠ 0) (o : Nat) (v : Word) :
    s.ldrWrite n o v = s.wr .ldrCx 0 n Off.LDR_WR_STA (BitVec.ofNat 32 Code.BUSY) := by
  rw [Dev.ldrWrite, if_neg hcx, if_pos hph]

/-- While PHASE is NONE a load register takes the bits that it has (R256). -/
theorem Dev.ldrWrite_applied {s : Dev} {n : Nat} (hcx : s.ctxState n ≠ 2) (hph : s.phase n = 0) (reg : LdrReg) (v : Word) :
    s.ldrWrite n (ldrRegOff reg) v =
      (s.wr .ldrCx 0 n (ldrRegOff reg) (v &&& ldrRegMask reg)).wr .ldrCx 0 n Off.LDR_WR_STA (BitVec.ofNat 32 Code.OK) := by
  rw [Dev.ldrWrite, if_neg hcx, if_neg (not_not.2 hph)]
  cases reg <;> rfl

/-- Settles O45: a granted write of a load register is `Dev.ldrWrite`, which PHASE holds back or applies. -/
theorem loadRegistersHold : Obligations.LoadRegistersHold := by
  unfold Obligations.LoadRegistersHold
  intro s fn ctx reg v hs hw
  have hcx := hw.ctxState_ne rfl rfl (ldrRegOff_ge reg)
  have hexec : exec (.ldrConfigWrite fn ctx reg v) s = s.done (s.m.ldrWrite ctx.val (ldrRegOff reg) v) := by
    rw [exec_ldrConfigWrite, cxOff, Dev.put_granted (valid_hubContext (by decide) ctx) (ldrRegOff_lt reg) (ldrRegOff_aligned reg) hw,
      Dev.pageWrite_ldrReg]
  refine ⟨fun hph => ?_, fun hph => ?_⟩
  · rw [Dev.ldrWrite_held hcx hph] at hexec
    refine answers_done hexec (hs.of_chans (Dev.wr_chans ..))
      ⟨sameWork_setReg .., Dev.wr_rd_same .., fun a ha => Dev.wr_reg_other _ ha _, fun r => ?_⟩
    exact Dev.wr_rd_other _ (pageOff_ne (ldrRegOff_ne_wrSta r)) _
  · rw [Dev.ldrWrite_applied hcx hph] at hexec
    refine answers_done hexec (hs.of_chans ((Dev.wr_chans ..).trans (Dev.wr_chans ..)))
      ⟨(sameWork_setReg s _ _).trans (sameWork_setReg ..), Dev.wr_rd_same .., ?_, fun a ha => ?_⟩
    · exact (Dev.wr_rd_other _ (pageOff_ne (ldrRegOff_ne_wrSta reg)) _).trans ((Dev.wr_rd_same ..).trans (by cases reg <;> rfl))
    · obtain ⟨hreg, hsta⟩ := not_or.1 ha
      exact (Dev.wr_reg_other _ hsta _).trans (Dev.wr_reg_other _ hreg _)

end Sys2Proof.Machine
end

section
/-! Fields of a register word, and words of the hub's pages. -/

namespace Sys2Proof.Machine
open Sys2Proof

/-! ### Fields of a word -/

/-- A word whose field is replaced has the new bits there and its own bits elsewhere. -/
theorem bit_setFld (w : Word) {hi lo : Nat} (hlo : lo ≤ hi) (hhi : hi < 32) (v i : Nat) :
    bit (setFld w hi lo v) i = if lo ≤ i ∧ i ≤ hi then v.testBit (i - lo) else bit w i := by
  set n := hi + 1 - lo
  set x := w.toNat
  have hxlt : x < 2 ^ 32 := w.isLt
  have hsplit : x = 2 ^ lo * (2 ^ n * (x / 2 ^ lo / 2 ^ n) + x / 2 ^ lo % 2 ^ n) + x % 2 ^ lo := by
    rw [Nat.div_add_mod, Nat.div_add_mod]
  have hval : x - x / 2 ^ lo % 2 ^ n * 2 ^ lo + v % 2 ^ n * 2 ^ lo = 2 ^ lo * (2 ^ n * (x / 2 ^ lo / 2 ^ n) + v % 2 ^ n) + x % 2 ^ lo := by
    conv_lhs => enter [1, 1]; rw [hsplit]
    rw [Nat.mul_add, Nat.mul_add, Nat.mul_comm (x / 2 ^ lo % 2 ^ n), Nat.mul_comm (v % 2 ^ n)]
    omega
  have hset : (setFld w hi lo v).toNat = (x - x / 2 ^ lo % 2 ^ n * 2 ^ lo + v % 2 ^ n * 2 ^ lo) % 2 ^ 32 := BitVec.toNat_ofNat ..
  have hnew : bit (setFld w hi lo v) i = (decide (i < 32) && if i < lo then (x % 2 ^ lo).testBit i
      else if i - lo < n then (v % 2 ^ n).testBit (i - lo) else (x / 2 ^ lo / 2 ^ n).testBit (i - lo - n)) := by
    rw [bit, hset, hval, Nat.testBit_mod_two_pow, Nat.testBit_two_pow_mul_add _ (Nat.mod_lt _ (Nat.two_pow_pos lo)),
      Nat.testBit_two_pow_mul_add _ (Nat.mod_lt _ (Nat.two_pow_pos n))]
  have hold : bit w i = if i < lo then (x % 2 ^ lo).testBit i
      else if i - lo < n then (x / 2 ^ lo % 2 ^ n).testBit (i - lo) else (x / 2 ^ lo / 2 ^ n).testBit (i - lo - n) := by
    rw [← Nat.testBit_two_pow_mul_add _ (Nat.mod_lt _ (Nat.two_pow_pos n)),
      ← Nat.testBit_two_pow_mul_add _ (Nat.mod_lt _ (Nat.two_pow_pos lo)), ← hsplit, bit]
  rw [hnew]
  by_cases hin : lo ≤ i ∧ i ≤ hi
  · have hi32 : i < 32 := by omega
    have hn : i - lo < n := by omega
    rw [if_pos hin, if_neg (by omega), if_pos hn, Nat.testBit_mod_two_pow]
    simp [hi32, hn]
  · rw [if_neg hin]
    by_cases hi32 : i < 32
    · rw [hold]
      simp only [hi32, decide_true, Bool.true_and]
      by_cases hlow : i < lo
      · rw [if_pos hlow, if_pos hlow]
      · rw [if_neg hlow, if_neg hlow, if_neg (by omega), if_neg (by omega)]
    · have hbeyond : bit w i = false := Nat.testBit_lt_two_pow (hxlt.trans_le (Nat.pow_le_pow_right (by decide) (by omega)))
      simp [hi32, hbeyond]

/-- A field that is written reads back, cut to its bits. -/
theorem fld_setFld_same (w : Word) {hi lo : Nat} (hlo : lo ≤ hi) (hhi : hi < 32) (v : Nat) :
    fld (setFld w hi lo v) hi lo = v % 2 ^ (hi + 1 - lo) := by
  apply Nat.eq_of_testBit_eq
  intro i
  rw [testBit_fld, bit_setFld w hlo hhi, Nat.testBit_mod_two_pow]
  by_cases h : i < hi + 1 - lo
  · rw [if_pos (by omega), Nat.add_sub_cancel]
  · simp [h]

/-- A field apart from the one that is written keeps its value. -/
theorem fld_setFld_apart (w : Word) {hi lo hi' lo' : Nat} (hlo : lo ≤ hi) (hhi : hi < 32) (h : hi < lo' ∨ hi' < lo) (v : Nat) :
    fld (setFld w hi lo v) hi' lo' = fld w hi' lo' := by
  apply Nat.eq_of_testBit_eq
  intro i
  rw [testBit_fld, testBit_fld, bit_setFld w hlo hhi]
  by_cases hin : i < hi' + 1 - lo'
  · rw [if_neg (by omega)]
  · simp [hin]

theorem Dev.wrF_rdF_same (s : Dev) (k : PageKind) (ch i o : Nat) {hi lo : Nat} (hlo : lo ≤ hi) (hhi : hi < 32) (v : Nat) :
    (s.wrF k ch i o hi lo v).rdF k ch i o hi lo = v % 2 ^ (hi + 1 - lo) := by
  rw [Dev.rdF, Dev.wrF, Dev.wr_rd_same, fld_setFld_same _ hlo hhi]

theorem Dev.wrF_rdF_apart (s : Dev) (k : PageKind) (ch i o : Nat) {hi lo hi' lo' : Nat} (hlo : lo ≤ hi) (hhi : hi < 32)
    (h : hi < lo' ∨ hi' < lo) (v : Nat) : (s.wrF k ch i o hi lo v).rdF k ch i o hi' lo' = s.rdF k ch i o hi' lo' := by
  rw [Dev.rdF, Dev.wrF, Dev.wr_rd_same, fld_setFld_apart _ hlo hhi h, Dev.rdF]

/-! ### Tiles given back, and the parts of a pattern in T1 (R58, R261, R530) -/

/-- From `s` to `t` nothing but tiles has changed. -/
def Dev.Retiled (s t : Dev) : Prop := ∃ T, t = { s with tiles := T }

namespace Dev.Retiled
variable {s t u : Dev}

theorem refl (s : Dev) : s.Retiled s := ⟨s.tiles, rfl⟩

theorem trans (h : s.Retiled t) (g : t.Retiled u) : s.Retiled u := by
  obtain ⟨T, rfl⟩ := h
  obtain ⟨T', rfl⟩ := g
  exact ⟨T', rfl⟩

theorem regs (h : s.Retiled t) : t.regs = s.regs := by obtain ⟨_, rfl⟩ := h; rfl
theorem mem (h : s.Retiled t) : t.mem = s.mem := by obtain ⟨_, rfl⟩ := h; rfl
theorem chans (h : s.Retiled t) : t.chans = s.chans := by obtain ⟨_, rfl⟩ := h; rfl
theorem ctxs (h : s.Retiled t) : t.ctxs = s.ctxs := by obtain ⟨_, rfl⟩ := h; rfl
theorem rqt (h : s.Retiled t) : t.rqt = s.rqt := by obtain ⟨_, rfl⟩ := h; rfl
theorem seqs (h : s.Retiled t) : t.seqs = s.seqs := by obtain ⟨_, rfl⟩ := h; rfl

theorem modTile (h : s.Retiled t) (k : Nat) (f : Tile → Tile) : s.Retiled (t.modTile k f) := h.trans ⟨_, rfl⟩

theorem foldl {α : Type} {f : Dev → α → Dev} (h : s.Retiled t) (hf : ∀ (u : Dev) a, u.Retiled (f u a)) (l : List α) :
    s.Retiled (l.foldl f t) :=
  List.foldlRecOn l f h fun u hu a _ => hu.trans (hf u a)

theorem releaseIndex (h : s.Retiled t) (k : Nat) : s.Retiled (t.releaseIndex k) :=
  (h.modTile ..).foldl (fun u _ => (refl u).modTile ..) _

theorem startTiles (h : s.Retiled t) (ks : List Nat) : s.Retiled (t.startTiles ks) := h.foldl (fun u _ => (refl u).modTile ..) ks

end Dev.Retiled

/-- From `s` to `t` nothing but the bytes of memory and the marks of what is in use there has changed. -/
def Dev.Reparted (s t : Dev) : Prop := ∃ ms b, t = { s with mems := ms, mem := b }

namespace Dev.Reparted
variable {s t u : Dev}

theorem refl (s : Dev) : s.Reparted s := ⟨s.mems, s.mem, rfl⟩

theorem trans (h : s.Reparted t) (g : t.Reparted u) : s.Reparted u := by
  obtain ⟨ms, b, rfl⟩ := h
  obtain ⟨ms', b', rfl⟩ := g
  exact ⟨ms', b', rfl⟩

theorem foldl {α : Type} {f : Dev → α → Dev} (h : s.Reparted t) (hf : ∀ (u : Dev) a, u.Reparted (f u a)) (l : List α) :
    s.Reparted (l.foldl f t) :=
  List.foldlRecOn l f h fun u hu a _ => hu.trans (hf u a)

theorem regs (h : s.Reparted t) : t.regs = s.regs := by obtain ⟨_, _, rfl⟩ := h; rfl
theorem chans (h : s.Reparted t) : t.chans = s.chans := by obtain ⟨_, _, rfl⟩ := h; rfl
theorem tiles (h : s.Reparted t) : t.tiles = s.tiles := by obtain ⟨_, _, rfl⟩ := h; rfl
theorem ctxs (h : s.Reparted t) : t.ctxs = s.ctxs := by obtain ⟨_, _, rfl⟩ := h; rfl
theorem rqt (h : s.Reparted t) : t.rqt = s.rqt := by obtain ⟨_, _, rfl⟩ := h; rfl
theorem seqs (h : s.Reparted t) : t.seqs = s.seqs := by obtain ⟨_, _, rfl⟩ := h; rfl

theorem reg (h : s.Reparted t) (a : Nat) : t.reg a = s.reg a := congrArg (·.get (regReset a) a) h.regs

theorem ctx (h : s.Reparted t) (n : Nat) : t.ctx n = s.ctx n := congrArg (·.get Ctx.fresh n) h.ctxs

theorem modMem (h : s.Reparted t) (ch : Nat) (f : Mem → Mem) : s.Reparted (t.modMem ch f) := h.trans ⟨_, _, rfl⟩

theorem zero (h : s.Reparted t) (a n : Nat) : s.Reparted (t.zero a n) := h.trans ⟨_, _, rfl⟩

theorem takeRange (h : s.Reparted t) (ch ctx n : Nat) : s.Reparted (t.takeRange ch ctx n) := by
  unfold Dev.takeRange
  split
  · exact h
  · exact h.modMem ..

theorem freeParts (h : s.Reparted t) (ctx : Nat) : s.Reparted (t.freeParts ctx) :=
  h.foldl (fun u _ => ((refl u).foldl (fun v _ => (refl v).zero ..) _).modMem ..) _

theorem refitParts (h : s.Reparted t) (ctx : Nat) : s.Reparted (t.refitParts ctx) := by
  unfold Dev.refitParts
  split
  · exact h
  · exact (h.freeParts ctx).foldl (fun u _ => (refl u).takeRange ..) _

end Dev.Reparted

end Sys2Proof.Machine
end

section
/-! Adapter commands, placement snapshots and PLC_CH_CTL (O47). -/

namespace Sys2Proof.Machine
open Sys2Proof

/-! ### Commands -/

theorem exec_adpLoad (fn : Fn) (ctx : CtxId) (slot : Fin 64) (s : State) : exec (.adpLoad fn ctx slot) s =
    s.done (s.m.put fn (cxOff .adpCx ctx.val Off.ADP_CMD) (BitVec.ofNat 32 (slot.val + 256))) := rfl
theorem exec_adpCommit (fn : Fn) (ctx : CtxId) (slot : Fin 64) (s : State) : exec (.adpCommit fn ctx slot) s =
    s.done (s.m.put fn (cxOff .adpCx ctx.val Off.ADP_CMD) (BitVec.ofNat 32 (slot.val + 512))) := rfl
theorem exec_adpUnload (fn : Fn) (ctx : CtxId) (slot : Fin 64) (s : State) : exec (.adpUnload fn ctx slot) s =
    s.done (s.m.put fn (cxOff .adpCx ctx.val Off.ADP_CMD) (BitVec.ofNat 32 (slot.val + 768))) := rfl
theorem exec_adapterLoadDone (ctx : CtxId) (slot : Fin 64) (host : HostView) (s : State) : exec (.adapterLoadDone ctx slot host) s =
    s.done (s.m.only (s.m.loadMoves ctx.val) fun m => m.adpLoaded ctx.val slot.val host) := rfl
theorem exec_plcCxSnapGo (fn : Fn) (ctx : CtxId) (s : State) : exec (.plcCxSnapGo fn ctx) s =
    s.done (s.m.put fn (cxOff .plcCx ctx.val Off.PLC_CX_SNAP_CMD) 1) := rfl
theorem exec_plcChCtlWrite (fn : Fn) (ch : ChId) (v : Word) (s : State) : exec (.plcChCtlWrite fn ch v) s =
    s.done (s.m.put fn (pageOff .plcCh ch.val 0 Off.PLC_CH_CTL) v) := rfl

theorem Dev.pageWrite_adpCmd (s : Dev) (n rdr : Nat) (w : Word) (env : WrEnv) :
    s.pageWrite ⟨.adpCx, 0, n⟩ rdr Off.ADP_CMD w env = s.adpCommand n w := by
  rw [Dev.pageWrite, if_neg (by decide), Dev.bodyWrite]
  exact if_pos rfl

theorem Dev.put_adpCmd {s : Dev} {fn : Fn} {ctx : CtxId} (hw : s.Writes fn ⟨.adpCx, 0, ctx.val⟩ Off.ADP_CMD) (w : Word) :
    s.put fn (cxOff .adpCx ctx.val Off.ADP_CMD) w = s.adpCommand ctx.val w := by
  rw [cxOff, Dev.put_granted (valid_hubContext (by decide) ctx) (by decide) (by decide) hw, Dev.pageWrite_adpCmd]

/-- The fields of a word written to ADP_CMD (R282). -/
theorem adpCmd_fields {slot cmd : Nat} (hslot : slot < 64) (hcmd : cmd < 4) : fld (BitVec.ofNat 32 (slot + cmd * 256)) 5 0 = slot ∧
    fld (BitVec.ofNat 32 (slot + cmd * 256)) 9 8 = cmd := by
  simp only [fld, BitVec.toNat_ofNat]
  omega

section
variable {s : State} {fn : Fn} {ctx : CtxId} (hw : s.m.Writes fn ⟨.adpCx, 0, ctx.val⟩ Off.ADP_CMD) (hcx : s.m.ctxState ctx.val = 1)
  (slot : Fin 64)
include hw hcx

theorem exec_adpLoad_active : exec (.adpLoad fn ctx slot) s = s.done (s.m.adpLoadCmd ctx.val slot.val) := by
  obtain ⟨hslot, hcmd⟩ := adpCmd_fields slot.isLt (cmd := 1) (by decide)
  simp only [exec_adpLoad, Dev.put_adpCmd hw, Dev.adpCommand, Dev.adpGate, hcx, hslot, hcmd]

theorem exec_adpCommit_active : exec (.adpCommit fn ctx slot) s = s.done (s.m.adpCommitCmd ctx.val slot.val) := by
  obtain ⟨hslot, hcmd⟩ := adpCmd_fields slot.isLt (cmd := 2) (by decide)
  simp only [exec_adpCommit, Dev.put_adpCmd hw, Dev.adpCommand, Dev.adpGate, hcx, hslot, hcmd]

theorem exec_adpUnload_active : exec (.adpUnload fn ctx slot) s = s.done (s.m.adpUnloadCmd ctx.val slot.val) := by
  obtain ⟨hslot, hcmd⟩ := adpCmd_fields slot.isLt (cmd := 3) (by decide)
  simp only [exec_adpUnload, Dev.put_adpCmd hw, Dev.adpCommand, Dev.adpGate, hcx, hslot, hcmd]

end

/-! ### What a command on a slot leaves -/

/-- The slot's status word, and nothing else among registers, work and the loaded pattern, has changed; the slot is now `b`. -/
structure AdpAnswered (s t : State) (n slot : Nat) (word : Word) (b : Adp) : Prop where
  rqt : t.m.rqt = s.m.rqt
  seqs : t.m.seqs = s.m.seqs
  tiles : t.m.tiles = s.m.tiles
  regs : SameRegs s t (· = cxOff .adpCx n Off.ADP_CMD_STA)
  sta : t.m.rd .adpCx 0 n Off.ADP_CMD_STA = word
  adp : t.m.adpOf n slot = b
  pat : (t.m.ctx n).pat = (s.m.ctx n).pat

/-- The parts of an answer, in the order in which the obligation lists them. -/
theorem AdpAnswered.all {s t : State} {n slot : Nat} {word : Word} {b : Adp} (h : AdpAnswered s t n slot word b) :
    t.m.rqt = s.m.rqt ∧ t.m.seqs = s.m.seqs ∧ t.m.tiles = s.m.tiles ∧ SameRegs s t (· = cxOff .adpCx n Off.ADP_CMD_STA) ∧
      t.m.rd .adpCx 0 n Off.ADP_CMD_STA = word ∧ t.m.adpOf n slot = b ∧ (t.m.ctx n).pat = (s.m.ctx n).pat :=
  ⟨h.rqt, h.seqs, h.tiles, h.regs, h.sta, h.adp, h.pat⟩

/-- The word of ADP_CMD_STA for a slot (R282). -/
def adpStaWord (slot code detail : Nat) : Word := BitVec.ofNat 32 (code + slot * 2 ^ 8 + detail * 2 ^ 14)

theorem Dev.adpSta_eq (s : Dev) (n slot code detail : Nat) :
    s.adpSta n slot code detail = s.wr .adpCx 0 n Off.ADP_CMD_STA (adpStaWord slot code detail) := rfl

/-- A command that leaves the slots alone reports its status. -/
theorem answers_adpSta {s : State} {c : Instr} {n slot code detail : Nat} (hs : s.m.Settled)
    (hc : exec c s = s.done (s.m.adpSta n slot code detail)) :
    Answers c s fun t => AdpAnswered s t n slot (adpStaWord slot code detail) (s.m.adpOf n slot) := by
  rw [Dev.adpSta_eq] at hc
  exact answers_done hc (hs.of_chans (Dev.wr_chans ..)) ⟨Dev.wr_rqt .., Dev.wr_seqs .., Dev.wr_tiles .., fun _ ha => Dev.wr_reg_other _ ha _,
    Dev.wr_rd_same .., congrArg (·.adps.get Adp.fresh slot) (Dev.wr_get_ctx ..), congrArg Ctx.pat (Dev.wr_get_ctx ..)⟩

/-- A command that changes its slot, and at most places the context's parts in T1 afresh, reports its status. -/
theorem answers_slot {s : State} {c : Instr} {n slot code detail : Nat} {f : Ctx → Ctx} {m : Dev} (hs : s.m.Settled)
    (hm : (s.m.modCtx n f).Reparted m) (hpat : (f (s.m.ctx n)).pat = (s.m.ctx n).pat) (hc : exec c s = s.done (m.adpSta n slot code detail)) :
    Answers c s fun t => AdpAnswered s t n slot (adpStaWord slot code detail) ((f (s.m.ctx n)).adps.get Adp.fresh slot) := by
  have hctx : (m.adpSta n slot code detail).ctx n = f (s.m.ctx n) := (Dev.wr_get_ctx ..).trans ((hm.ctx n).trans (Dev.modCtx_same ..))
  refine answers_done hc (hs.of_chans ((Dev.wr_chans ..).trans hm.chans)) ⟨(Dev.wr_rqt ..).trans hm.rqt, (Dev.wr_seqs ..).trans hm.seqs,
    (Dev.wr_tiles ..).trans hm.tiles, fun a ha => (Dev.wr_reg_other _ ha _).trans (hm.reg a), Dev.wr_rd_same .., ?_, ?_⟩
  · exact congrArg (·.adps.get Adp.fresh slot) hctx
  · exact (congrArg Ctx.pat hctx).trans hpat

/-- The update of one adapter slot of a context. -/
def setSlot (slot : Nat) (f : Adp → Adp) (c : Ctx) : Ctx := { c with adps := c.adps.set Adp.fresh slot (f (c.adps.get Adp.fresh slot)) }

theorem setSlot_get (slot : Nat) (f : Adp → Adp) (c : Ctx) : (setSlot slot f c).adps.get Adp.fresh slot = f (c.adps.get Adp.fresh slot) :=
  Store.get_set_same ..

/-- The same where the slot takes a new value. -/
theorem answers_modAdp {s : State} {c : Instr} {n slot code detail : Nat} {f : Adp → Adp} {m : Dev} (hs : s.m.Settled)
    (hm : (s.m.modAdp n slot f).Reparted m) (hc : exec c s = s.done (m.adpSta n slot code detail)) :
    Answers c s fun t => AdpAnswered s t n slot (adpStaWord slot code detail) (f (s.m.adpOf n slot)) := by
  have h := answers_slot (f := setSlot slot f) hs hm rfl hc
  rwa [setSlot_get] at h

/-! ### The commands of ADP_CMD (R273, R274) -/

section
variable {s : State} {fn : Fn} {ctx : CtxId} {slot : Fin 64} (hs : s.m.Settled) (hw : s.m.Writes fn ⟨.adpCx, 0, ctx.val⟩ Off.ADP_CMD)
  (hcx : s.m.ctxState ctx.val = 1)
include hs hw hcx

theorem answers_adpLoad_pending (hstaged : (s.m.adpOf ctx.val slot.val).state ≠ 2) (hloading : (s.m.adpOf ctx.val slot.val).state ≠ 3)
    (hold : (s.m.adpOf ctx.val slot.val).old = none) (hpat : (s.m.patOf ctx.val).isSome = true) :
    Answers (.adpLoad fn ctx slot) s fun t => AdpAnswered s t ctx.val slot.val (adpStaWord slot.val Code.PENDING 0)
      { s.m.adpOf ctx.val slot.val with state := 3 } := by
  have hfree : ¬ ((s.m.adpOf ctx.val slot.val).state = 3 ∨ (s.m.adpOf ctx.val slot.val).state = 2 ∨ s.m.oldHeld ctx.val slot.val = true) := by
    simp [hstaged, hloading, Dev.oldHeld, hold]
  have hloaded : ¬ (s.m.patOf ctx.val).isNone = true := by simpa using Option.isSome_iff_ne_none.1 hpat
  have hexec := exec_adpLoad_active hw hcx slot
  rw [Dev.adpLoadCmd, if_neg hfree, if_neg hloaded] at hexec
  exact answers_modAdp hs (.refl _) hexec

theorem answers_adpLoad_busy (hbusy : (s.m.adpOf ctx.val slot.val).state = 2 ∨ (s.m.adpOf ctx.val slot.val).state = 3 ∨
    (s.m.adpOf ctx.val slot.val).old.isSome = true) :
    Answers (.adpLoad fn ctx slot) s fun t => AdpAnswered s t ctx.val slot.val (adpStaWord slot.val Code.BUSY 0) (s.m.adpOf ctx.val slot.val) := by
  have hheld : (s.m.adpOf ctx.val slot.val).state = 3 ∨ (s.m.adpOf ctx.val slot.val).state = 2 ∨ s.m.oldHeld ctx.val slot.val = true :=
    or_left_comm.1 hbusy
  have hexec := exec_adpLoad_active hw hcx slot
  rw [Dev.adpLoadCmd, if_pos hheld] at hexec
  exact answers_adpSta hs hexec

theorem answers_adpCommit_pending {img : AdpImg} (hstate : (s.m.adpOf ctx.val slot.val).state = 2)
    (hstandby : (s.m.adpOf ctx.val slot.val).standby = some img) :
    Answers (.adpCommit fn ctx slot) s fun t => AdpAnswered s t ctx.val slot.val (adpStaWord slot.val Code.PENDING 0)
      { s.m.adpOf ctx.val slot.val with
        state := 1, gen := ((s.m.adpOf ctx.val slot.val).gen + 1) % 65536, old := (s.m.adpOf ctx.val slot.val).active, active := some img,
        standby := none, wait := s.m.adpChans ctx.val img, committing := true } := by
  have hexec := exec_adpCommit_active hw hcx slot
  simp only [Dev.adpCommitCmd, hstate, hstandby] at hexec
  have hanswers := answers_modAdp hs (.refl _) hexec
  rwa [hstandby] at hanswers

theorem answers_adpCommit_range (hstate : (s.m.adpOf ctx.val slot.val).state ≠ 2) :
    Answers (.adpCommit fn ctx slot) s fun t => AdpAnswered s t ctx.val slot.val (adpStaWord slot.val Code.RANGE 0) (s.m.adpOf ctx.val slot.val) := by
  have hexec := exec_adpCommit_active hw hcx slot
  unfold Dev.adpCommitCmd at hexec
  dsimp only at hexec
  split at hexec
  next h _ => exact absurd h hstate
  next => exact answers_adpSta hs hexec

theorem answers_adpUnload_ok (hfree : s.m.slotNamed ctx.val slot.val = false) :
    Answers (.adpUnload fn ctx slot) s fun t => AdpAnswered s t ctx.val slot.val (adpStaWord slot.val Code.OK 0) Adp.fresh := by
  have hexec := exec_adpUnload_active hw hcx slot
  rw [Dev.adpUnloadCmd, if_neg (by simp [hfree])] at hexec
  have hanswers := answers_slot hs (.refitParts (.refl _) ctx.val) rfl hexec
  rwa [Store.get_erase_same] at hanswers

theorem answers_adpUnload_busy (hnamed : s.m.slotNamed ctx.val slot.val = true) :
    Answers (.adpUnload fn ctx slot) s fun t => AdpAnswered s t ctx.val slot.val (adpStaWord slot.val Code.BUSY 0) (s.m.adpOf ctx.val slot.val) := by
  have hexec := exec_adpUnload_active hw hcx slot
  rw [Dev.adpUnloadCmd, if_pos hnamed] at hexec
  exact answers_adpSta hs hexec

end

/-! ### The end of an adapter's load (R272, R273) -/

/-- What the image of an adapter's load is read as. -/
def Dev.adpRead (s : Dev) (n : Nat) (p : Pattern) (host : HostView) : AdpImg ⊕ Nat :=
  let size := (s.rd .adpCx 0 n Off.ADP_SIZE).toNat
  parseAdapter p (cutImage host (s.rd64 .adpCx 0 n Off.ADP_SRC / 4096 * 4096) size) size

section
variable {s : State} {ctx : CtxId} {slot : Fin 64} {host : HostView} {p : Pattern} (hs : s.m.Settled) (hmoves : s.m.loadMoves ctx.val = true)
  (hstate : (s.m.adpOf ctx.val slot.val).state = 3) (hpat : s.m.patOf ctx.val = some p)
include hs hmoves hstate hpat

omit hs hstate hpat in
theorem exec_adapterLoadDone_moves : exec (.adapterLoadDone ctx slot host) s = s.done (s.m.adpLoaded ctx.val slot.val host) := by
  rw [exec_adapterLoadDone, hmoves, Dev.only_true]

theorem answers_adapterLoadDone_staged {img : AdpImg} (hread : s.m.adpRead ctx.val p host = .inl img)
    (hfits : ((s.m.ctx ctx.val).newPat.all fun q => adapterFits p q img) = true) :
    Answers (.adapterLoadDone ctx slot host) s fun t => AdpAnswered s t ctx.val slot.val (adpStaWord slot.val Code.OK 0)
      { s.m.adpOf ctx.val slot.val with state := 2, standby := some img } := by
  unfold Dev.adpRead at hread
  have hexec := exec_adapterLoadDone_moves (slot := slot) (host := host) hmoves
  simp only [Dev.adpLoaded, hstate, hpat, hread, hfits, if_true] at hexec
  exact answers_modAdp hs (.refitParts (.refl _) ctx.val) hexec

theorem answers_adapterLoadDone_unfit {img : AdpImg} (hread : s.m.adpRead ctx.val p host = .inl img)
    (hfits : ((s.m.ctx ctx.val).newPat.all fun q => adapterFits p q img) = false) :
    Answers (.adapterLoadDone ctx slot host) s fun t => AdpAnswered s t ctx.val slot.val (adpStaWord slot.val Code.REJECTED 0x03)
      { s.m.adpOf ctx.val slot.val with state := if (s.m.adpOf ctx.val slot.val).active.isSome then 1 else 0 } := by
  unfold Dev.adpRead at hread
  have hexec := exec_adapterLoadDone_moves (slot := slot) (host := host) hmoves
  simp only [Dev.adpLoaded, hstate, hpat, hread, hfits, Bool.false_eq_true, if_false] at hexec
  exact answers_modAdp hs (.refl _) hexec

theorem answers_adapterLoadDone_bad {d : Nat} (hread : s.m.adpRead ctx.val p host = .inr d) :
    Answers (.adapterLoadDone ctx slot host) s fun t => AdpAnswered s t ctx.val slot.val (adpStaWord slot.val Code.REJECTED d)
      { s.m.adpOf ctx.val slot.val with state := if (s.m.adpOf ctx.val slot.val).active.isSome then 1 else 0 } := by
  unfold Dev.adpRead at hread
  have hexec := exec_adapterLoadDone_moves (slot := slot) (host := host) hmoves
  simp only [Dev.adpLoaded, hstate, hpat, hread] at hexec
  exact answers_modAdp hs (.refl _) hexec

end

/-! ### Placement snapshots and PLC_CH_CTL (R296, R298) -/

theorem Dev.pageWrite_snapCmd (s : Dev) (n rdr : Nat) (w : Word) (env : WrEnv) :
    s.pageWrite ⟨.plcCx, 0, n⟩ rdr Off.PLC_CX_SNAP_CMD w env = s.snapCmd n w := by
  rw [Dev.pageWrite, if_neg (by decide), Dev.bodyWrite]
  exact if_pos rfl

theorem Dev.pageWrite_plcChCtl (s : Dev) (ch i rdr : Nat) (w : Word) (env : WrEnv) :
    s.pageWrite ⟨.plcCh, ch, i⟩ rdr Off.PLC_CH_CTL w env = s.plcChCtl ch w := by
  rw [Dev.pageWrite, if_neg (by decide), Dev.bodyWrite]
  exact if_pos rfl

theorem exec_plcCxSnapGo_granted {s : State} {fn : Fn} {ctx : CtxId} (hw : s.m.Writes fn ⟨.plcCx, 0, ctx.val⟩ Off.PLC_CX_SNAP_CMD) :
    exec (.plcCxSnapGo fn ctx) s = s.done (s.m.snapCmd ctx.val 1) := by
  rw [exec_plcCxSnapGo, cxOff, Dev.put_granted (valid_hubContext (by decide) ctx) (by decide) (by decide) hw, Dev.pageWrite_snapCmd]

/-- GO while no snapshot waits: it waits for its boundary (R296). -/
theorem Dev.snapCmd_idle {s : Dev} {n : Nat} (h : (s.ctx n).snapGo = false) : s.snapCmd n 1 =
    (s.modCtx n fun c => { c with snapGo := true }).wrF .plcCx 0 n Off.PLC_CX_SNAP_STA 7 0 Code.PENDING := by
  rw [Dev.snapCmd, if_neg (by decide), if_neg (by simp [h])]

/-- GO while a snapshot waits is BUSY (R296). -/
theorem Dev.snapCmd_waiting {s : Dev} {n : Nat} (h : (s.ctx n).snapGo = true) : s.snapCmd n 1 =
    s.wrF .plcCx 0 n Off.PLC_CX_SNAP_STA 7 0 Code.BUSY := by
  rw [Dev.snapCmd, if_neg (by decide), if_pos h]

theorem answers_plcCxSnapGo {s : State} {fn : Fn} {ctx : CtxId} (hs : s.m.Settled) (hw : s.m.Writes fn ⟨.plcCx, 0, ctx.val⟩ Off.PLC_CX_SNAP_CMD) :
    Answers (.plcCxSnapGo fn ctx) s fun t => SameBytes s t ∧ t.m.rqt = s.m.rqt ∧ t.m.tiles = s.m.tiles ∧
      t.m.ctx ctx.val = { s.m.ctx ctx.val with snapGo := true } ∧ (∀ k, k ≠ ctx.val → t.m.ctx k = s.m.ctx k) ∧
      t.m.rdF .plcCx 0 ctx.val Off.PLC_CX_SNAP_STA 7 0 = (if (s.m.ctx ctx.val).snapGo then Code.BUSY else Code.PENDING) ∧
      SameRegs s t (· = cxOff .plcCx ctx.val Off.PLC_CX_SNAP_STA) := by
  have hexec := exec_plcCxSnapGo_granted hw
  cases h : (s.m.ctx ctx.val).snapGo with
  | false =>
    rw [Dev.snapCmd_idle h] at hexec
    exact answers_done hexec (hs.of_chans (Dev.wrF_chans ..)) ⟨fun a => Dev.wrF_get_byte .., Dev.wrF_rqt .., Dev.wrF_tiles ..,
      (Dev.wrF_get_ctx ..).trans (Dev.modCtx_same ..), fun k hk => (Dev.wrF_get_ctx ..).trans (Dev.modCtx_other _ hk _),
      Dev.wrF_rdF_byte .., fun a ha => Dev.wrF_reg_other _ ha ..⟩
  | true =>
    rw [Dev.snapCmd_waiting h] at hexec
    have hgo : s.m.ctx ctx.val = { s.m.ctx ctx.val with snapGo := true } := by rw [← h]
    exact answers_done hexec (hs.of_chans (Dev.wrF_chans ..)) ⟨fun a => Dev.wrF_get_byte .., Dev.wrF_rqt .., Dev.wrF_tiles ..,
      (Dev.wrF_get_ctx ..).trans hgo, fun k _ => Dev.wrF_get_ctx .., Dev.wrF_rdF_byte .., fun a ha => Dev.wrF_reg_other _ ha ..⟩

theorem exec_plcChCtlWrite_granted {s : State} {fn : Fn} {ch : ChId} (hw : s.m.Writes fn ⟨.plcCh, ch.val, 0⟩ Off.PLC_CH_CTL) (v : Word) :
    exec (.plcChCtlWrite fn ch v) s = s.done (s.m.plcChCtl ch.val v) := by
  rw [exec_plcChCtlWrite, Dev.put_granted (Page.valid_channel (by decide) ch.isLt) (by decide) (by decide) hw, Dev.pageWrite_plcChCtl]

section
variable {s : State} {fn : Fn} {ch : ChId} {v : Word} (hs : s.m.Settled) (hw : s.m.Writes fn ⟨.plcCh, ch.val, 0⟩ Off.PLC_CH_CTL)
include hs hw

/-- A write of PLC_CH_CTL whose LOW is below its HIGH, and HIGH within its bound, is applied (R298). -/
theorem answers_plcChCtlWrite_applied (hlow : fld v 17 8 < fld v 27 18) (hhigh : fld v 27 18 ≤ 500) : Answers (.plcChCtlWrite fn ch v) s fun t =>
    SameWork s t ∧ t.m.rd .plcCh ch.val 0 Off.PLC_CH_CTL = v &&& 0x1FFFFFFF#32 ∧ SameRegs s t (· = pageOff .plcCh ch.val 0 Off.PLC_CH_CTL) := by
  have hexec := exec_plcChCtlWrite_granted hw v
  rw [Dev.plcChCtl, if_neg (by omega)] at hexec
  exact answers_done hexec (hs.of_chans (Dev.wr_chans ..)) ⟨sameWork_setReg .., Dev.wr_rd_same .., fun _ ha => Dev.wr_reg_other _ ha _⟩

/-- Any other is not (R298). -/
theorem gives_plcChCtlWrite_refused (h : fld v 27 18 ≤ fld v 17 8 ∨ 500 < fld v 27 18) : Gives (.plcChCtlWrite fn ch v) s s.m := by
  have hexec := exec_plcChCtlWrite_granted hw v
  rw [Dev.plcChCtl, if_pos h] at hexec
  exact gives_done hs hexec rfl

end

/-- Settles O47: each answer of the commands of ADP_CMD and of a load's end is one status word and one slot's new value. -/
theorem adaptersAndPlacement : Obligations.AdaptersAndPlacement := by
  unfold Obligations.AdaptersAndPlacement
  refine ⟨fun s fn ctx slot hs => ⟨fun hw hcx => ?_, fun host p hmoves hstate hpat => ?_⟩,
    fun s fn ctx ch v hs => ⟨fun hw => ?_, fun hw => ?_⟩⟩
  · exact ⟨fun h2 h3 hold hpat => (answers_adpLoad_pending hs hw hcx h2 h3 hold hpat).imp fun _ h => h.all,
      fun hbusy => (answers_adpLoad_busy hs hw hcx hbusy).imp fun _ h => h.all,
      fun _ h2 hstandby => (answers_adpCommit_pending hs hw hcx h2 hstandby).imp fun _ h => h.all,
      fun h2 => (answers_adpCommit_range hs hw hcx h2).imp fun _ h => h.all,
      fun hfree => (answers_adpUnload_ok hs hw hcx hfree).imp fun _ h => h.all,
      fun hnamed => (answers_adpUnload_busy hs hw hcx hnamed).imp fun _ h => h.all⟩
  · exact ⟨fun _ hread hfits => (answers_adapterLoadDone_staged hs hmoves hstate hpat hread hfits).imp fun _ h => h.all,
      fun _ hread hfits => (answers_adapterLoadDone_unfit hs hmoves hstate hpat hread hfits).imp fun _ h => h.all,
      fun _ hread => (answers_adapterLoadDone_bad hs hmoves hstate hpat hread).imp fun _ h => h.all⟩
  · exact answers_plcCxSnapGo hs hw
  · exact ⟨answers_plcChCtlWrite_applied hs hw, gives_plcChCtlWrite_refused hs hw⟩

end Sys2Proof.Machine
end

section
/-! What a load leaves alone: the words of a context's pages, placements, and what ends a load or swap (R257 to R259, R284 to R286, R530). -/

namespace Sys2Proof.Machine
open Sys2Proof

/-! ### One register word, and posted writes -/

theorem Dev.rdF_of_regs {s t : Dev} (h : t.regs = s.regs) (k : PageKind) (ch i o hi lo : Nat) : t.rdF k ch i o hi lo = s.rdF k ch i o hi lo :=
  congrArg (fun r : Store Word => fld (r.get (regReset (pageOff k ch i o)) (pageOff k ch i o)) hi lo) h

theorem Dev.phase_of_regs {s t : Dev} (h : t.regs = s.regs) (n : Nat) : t.phase n = s.phase n := Dev.rdF_of_regs h ..

/-- From `s` to `t` the register word at `a` may have changed, and something may have left the module. -/
structure Dev.OnlyWord (a : Nat) (s t : Dev) : Prop where
  rqt : t.rqt = s.rqt
  seqs : t.seqs = s.seqs
  mem : t.mem = s.mem
  tiles : t.tiles = s.tiles
  chans : t.chans = s.chans
  ctxs : t.ctxs = s.ctxs
  reg : ∀ b, b ≠ a → t.reg b = s.reg b

namespace Dev.OnlyWord
variable {a : Nat} {s t : Dev}

theorem refl (a : Nat) (s : Dev) : Dev.OnlyWord a s s := ⟨rfl, rfl, rfl, rfl, rfl, rfl, fun _ _ => rfl⟩

theorem wrF {k : PageKind} {ch i o : Nat} (h : Dev.OnlyWord (pageOff k ch i o) s t) (hi lo v : Nat) :
    Dev.OnlyWord (pageOff k ch i o) s (t.wrF k ch i o hi lo v) :=
  ⟨(Dev.wrF_rqt ..).trans h.rqt, (Dev.wrF_seqs ..).trans h.seqs, (Dev.wrF_mem ..).trans h.mem, (Dev.wrF_tiles ..).trans h.tiles,
    (Dev.wrF_chans ..).trans h.chans, (Dev.wrF_ctxs ..).trans h.ctxs, fun b hb => (Dev.wrF_reg_other _ hb ..).trans (h.reg b hb)⟩

theorem emit (h : Dev.OnlyWord a s t) (o : Out) : Dev.OnlyWord a s (t.emit o) :=
  ⟨(Dev.emit_rqt ..).trans h.rqt, (Dev.emit_seqs ..).trans h.seqs, (Dev.emit_mem ..).trans h.mem, (Dev.emit_tiles ..).trans h.tiles,
    (Dev.emit_chans ..).trans h.chans, (Dev.emit_ctxs ..).trans h.ctxs,
    fun b hb => (congrArg (fun r : Store Word => r.get (regReset b) b) (Dev.emit_regs ..)).trans (h.reg b hb)⟩

theorem ctx (h : Dev.OnlyWord a s t) (n : Nat) : t.ctx n = s.ctx n := congrArg (·.get Ctx.fresh n) h.ctxs

theorem byte (h : Dev.OnlyWord a s t) (b : Nat) : t.byte b = s.byte b := congrArg (·.get 0 b) h.mem

end Dev.OnlyWord

/-! ### LDR_CMD_STA (R257 to R259) -/

theorem Dev.progWord_regs (s : Dev) (n status detail layer : Nat) : (s.progWord n status detail layer).regs = s.regs := Dev.emit_regs ..

theorem Dev.ldrSta_onlyWord (s : Dev) (n code detail : Nat) : Dev.OnlyWord (cxOff .ldrCx n Off.LDR_CMD_STA) s (s.ldrSta n code detail) :=
  ((Dev.OnlyWord.refl _ s).wrF ..).wrF ..

theorem Dev.setPhase_onlyWord (s : Dev) (n ph : Nat) : Dev.OnlyWord (cxOff .ldrCx n Off.LDR_CMD_STA) s (s.setPhase n ph) :=
  ((Dev.OnlyWord.refl _ s).wrF ..).emit _

theorem Dev.setPhase_phase (s : Dev) (n ph : Nat) : (s.setPhase n ph).phase n = ph % 8 :=
  (Dev.phase_of_regs (Dev.progWord_regs ..) n).trans (Dev.wrF_rdF_same _ _ _ _ _ (by decide) (by decide) _)

theorem Dev.ldrSta_code (s : Dev) (n code detail : Nat) : (s.ldrSta n code detail).rdF .ldrCx 0 n Off.LDR_CMD_STA 7 0 = code % 256 :=
  (Dev.wrF_rdF_apart _ _ _ _ _ (by decide) (by decide) (by decide) _).trans (Dev.wrF_rdF_byte ..)

theorem Dev.ldrSta_detail (s : Dev) (n code detail : Nat) : (s.ldrSta n code detail).rdF .ldrCx 0 n Off.LDR_CMD_STA 15 8 = detail % 256 :=
  Dev.wrF_rdF_same _ _ _ _ _ (by decide) (by decide) _

/-! ### A load or swap fails (R257 to R259) -/

/-- What a load or swap has brought in is dropped from a context. -/
def dropLoad (c : Ctx) : Ctx := { c with newPat := none, load := Load.fresh }

/-- What it held goes back: its tiles, its pattern, then its room in T1. -/
theorem Dev.dropNew_steps (s : Dev) (n : Nat) : ∃ u, s.Retiled u ∧ (u.modCtx n dropLoad).Reparted (s.dropNew n) := by
  refine ⟨_, (Dev.Retiled.refl s).foldl (fun u k => (Dev.Retiled.refl u).releaseIndex k) (s.ctxTiles n fun sl => sl.newPat), ?_⟩
  unfold Dev.dropNew
  dsimp only
  split
  · exact .refitParts (.refl _) n
  · exact .freeParts (.refl _) n

/-- A load or swap of context `n` has ended with a status and its detail: PHASE is NONE, and what it brought in is dropped (R258). -/
structure Dev.LoadEnded (s t : Dev) (n code detail : Nat) : Prop where
  rqt : t.rqt = s.rqt
  chans : t.chans = s.chans
  reg : ∀ a, a ≠ cxOff .ldrCx n Off.LDR_CMD_STA → t.reg a = s.reg a
  phase : t.phase n = 0
  code : t.rdF .ldrCx 0 n Off.LDR_CMD_STA 7 0 = code % 256
  detail : t.rdF .ldrCx 0 n Off.LDR_CMD_STA 15 8 = detail % 256
  ctx : t.ctx n = dropLoad (s.ctx n)

theorem Dev.failLoad_ended (s : Dev) (n code detail layer : Nat) : s.LoadEnded (s.failLoad n code detail layer) n code detail := by
  set r := (s.ldrSta n code detail).progWord n code detail layer
  have hword : Dev.OnlyWord (cxOff .ldrCx n Off.LDR_CMD_STA) s r := (s.ldrSta_onlyWord n code detail).emit _
  obtain ⟨u, htiles, hparts⟩ := r.dropNew_steps n
  have hregs : (r.dropNew n).regs = r.regs := hparts.regs.trans htiles.regs
  have hfail : s.failLoad n code detail layer = (r.dropNew n).wrF .ldrCx 0 n Off.LDR_CMD_STA 18 16 Ph.NONE := rfl
  have hsta {hi lo : Nat} (h : hi < 16) : (s.failLoad n code detail layer).rdF .ldrCx 0 n Off.LDR_CMD_STA hi lo =
      (s.ldrSta n code detail).rdF .ldrCx 0 n Off.LDR_CMD_STA hi lo :=
    (Dev.wrF_rdF_apart _ _ _ _ _ (by decide) (by decide) (.inr h) _).trans (Dev.rdF_of_regs (hregs.trans (Dev.progWord_regs ..)) ..)
  refine ⟨?_, ?_, fun a ha => ?_, ?_, (hsta (by decide)).trans (Dev.ldrSta_code ..), (hsta (by decide)).trans (Dev.ldrSta_detail ..), ?_⟩
  · exact (Dev.wrF_rqt ..).trans (hparts.rqt.trans (htiles.rqt.trans hword.rqt))
  · exact (Dev.wrF_chans ..).trans (hparts.chans.trans (htiles.chans.trans hword.chans))
  · rw [hfail, Dev.wrF_reg_other _ ha]
    exact (congrArg (fun m : Store Word => m.get (regReset a) a) hregs).trans (hword.reg a ha)
  · exact Dev.wrF_rdF_same _ _ _ _ _ (by decide) (by decide) _
  · rw [hfail, Dev.wrF_get_ctx, hparts.ctx, Dev.modCtx_same, Dev.ctx, htiles.ctxs, ← Dev.ctx, hword.ctx]

/-! ### Layers are placed (R266, R284 to R286) -/

theorem length_modifyAt {α : Type} (f : α → α) : ∀ (i : Nat) (l : List α), (modifyAt f i l).length = l.length
  | _, [] => by cases ‹Nat› <;> rfl
  | 0, _ :: _ => rfl
  | i + 1, _ :: xs => congrArg (· + 1) (length_modifyAt f i xs)

/-- Two patterns with as many layers, and one vocabulary. -/
def SameShape (p q : Pattern) : Prop := q.layers.length = p.layers.length ∧ q.vocab = p.vocab

/-- From `s` to `t` tiles may have been taken for the pattern that a load or swap of context `n` brings in, whose blocks name them. -/
structure Dev.Placing (n : Nat) (s t : Dev) : Prop where
  regs : t.regs = s.regs
  rqt : t.rqt = s.rqt
  chans : t.chans = s.chans
  ctx : ∃ f : Pattern → Pattern, (∀ p, SameShape p (f p)) ∧ t.ctx n = { s.ctx n with newPat := (s.ctx n).newPat.map f }

namespace Dev.Placing
variable {n : Nat} {s t u : Dev}

theorem refl (n : Nat) (s : Dev) : Dev.Placing n s s :=
  ⟨rfl, rfl, rfl, id, fun _ => ⟨rfl, rfl⟩, by rw [Option.map_id, id]⟩

theorem trans (h : Dev.Placing n s t) (g : Dev.Placing n t u) : Dev.Placing n s u := by
  obtain ⟨f, hf, ht⟩ := h.ctx
  obtain ⟨f', hf', hu⟩ := g.ctx
  refine ⟨g.regs.trans h.regs, g.rqt.trans h.rqt, g.chans.trans h.chans, f' ∘ f, fun p => ?_, ?_⟩
  · obtain ⟨hlen, hvocab⟩ := hf p
    obtain ⟨hlen', hvocab'⟩ := hf' (f p)
    exact ⟨hlen'.trans hlen, hvocab'.trans hvocab⟩
  · rw [hu, ht, Option.map_map]

theorem of_retiled (h : s.Retiled t) : Dev.Placing n s t := by
  have hctx : t.ctx n = s.ctx n := congrArg (·.get Ctx.fresh n) h.ctxs
  obtain ⟨-, -, -, g⟩ := refl n s
  exact ⟨h.regs, h.rqt, h.chans, hctx ▸ g⟩

theorem modLayers (s : Dev) (n li : Nat) (f : Layer → Layer) :
    Dev.Placing n s (s.modCtx n fun c => { c with newPat := c.newPat.map fun p => { p with layers := modifyAt f li p.layers } }) :=
  ⟨rfl, rfl, rfl, fun p => { p with layers := modifyAt f li p.layers }, fun _ => ⟨length_modifyAt .., rfl⟩, Dev.modCtx_same ..⟩

theorem holdBlocks (s : Dev) (n li : Nat) (l : Layer) (why : ProgWhy) (ps : List (Nat × List Nat)) :
    Dev.Placing n s (s.holdBlocks n li true l why ps) := by
  refine (of_retiled ?_).trans (modLayers _ n li _)
  refine (Dev.Retiled.refl s).foldl (fun u p => ?_) ps
  split
  · exact (Dev.Retiled.refl u).foldl (fun v _ => (Dev.Retiled.refl v).modTile ..) _
  · exact .refl u

theorem spillLayer (s : Dev) (n li : Nat) : Dev.Placing n s (s.spillLayer n li true) := modLayers s n li _

theorem placeRecords {li : Nat} {l : Layer} {why : ProgWhy} {ch : Nat} {rs : List (Nat × List Nat)}
    (h : s.placeRecords n li true l why ch rs = some t) : Dev.Placing n s t := by
  induction rs generalizing s with
  | nil => exact Option.some.inj h ▸ refl n s
  | cons r rs ih =>
    unfold Dev.placeRecords at h
    split at h
    · exact (holdBlocks ..).trans (ih h)
    · exact absurd h (by simp)

theorem placeLayer {li : Nat} {why : ProgWhy} (h : s.placeLayer n li true why = some t) : Dev.Placing n s t := by
  unfold Dev.placeLayer at h
  split at h
  · exact absurd h (by simp)
  · split at h
    · exact absurd h (by simp)
    · split at h
      · exact Option.some.inj h ▸ refl n s
      · rcases (Option.orElse_eq_some ..).1 h with h | ⟨-, h⟩
        · obtain ⟨ch, -, hch⟩ := List.exists_of_findSome?_eq_some h
          exact placeRecords hch
        · split at h
          · obtain ⟨ps, -, rfl⟩ := Option.map_eq_some_iff.1 h
            exact holdBlocks ..
          · exact absurd h (by simp)

theorem placeAhead {why : ProgWhy} (ls : List Nat) (s : Dev) : Dev.Placing n s (s.placeAhead n why ls) := by
  induction ls generalizing s with
  | nil => exact refl n s
  | cons li ls ih =>
    unfold Dev.placeAhead
    split
    · next s' h => exact (placeLayer h).trans (ih s')
    · exact ih s

theorem placeLoad {p : Pattern} {ls : List Nat} (h : s.placeLoad n p ls = some t) : Dev.Placing n s t := by
  induction ls generalizing s with
  | nil => exact Option.some.inj h ▸ refl n s
  | cons li ls ih =>
    unfold Dev.placeLoad at h
    split at h
    · next s' hplace => exact (placeLayer hplace).trans (ih h)
    · split at h
      · split at h
        · exact (spillLayer ..).trans (ih h)
        · exact absurd h (by simp)
      · exact absurd h (by simp)

end Dev.Placing

end Sys2Proof.Machine
end

section
/-! A raise leaves the contexts and the words of their pages alone (R376). -/

namespace Sys2Proof.Machine
open Sys2Proof

/-! ### Words of the hub's context pages -/

/-- From `s` to `t` the words of the hub's context pages stay (R441). -/
structure Dev.CxKept (s t : Dev) : Prop where
  reg : ∀ a, 0x100000 ≤ a → a < 0x400000 → t.reg a = s.reg a

/-- An offset outside the hub's context pages. -/
def OffCx (a : Nat) : Prop := a < 0x100000 ∨ 0x400000 ≤ a

/-- A word of a channel's page stands outside the hub's context pages. -/
theorem offCx_channel {k : PageKind} (hk : k ∈ channelKinds) (ch i o : Nat) : OffCx (pageOff k ch i o) := by
  right
  rw [pageOff, Page.base_channel hk, chanWin]
  omega

theorem offCx_fltMod {o : Nat} (ho : o < 0x1000) : OffCx (pageOff .fltMod 0 0 o) := by
  left
  simp only [pageOff, Page.base]
  omega

namespace Dev.CxKept
variable {s t u : Dev}

theorem refl (s : Dev) : s.CxKept s := ⟨fun _ _ _ => rfl⟩

theorem trans (h : s.CxKept t) (g : t.CxKept u) : s.CxKept u := ⟨fun a hlo hhi => (g.reg a hlo hhi).trans (h.reg a hlo hhi)⟩

theorem of_regs (h : s.CxKept t) (hregs : u.regs = t.regs) : s.CxKept u :=
  h.trans ⟨fun a _ _ => congrArg (fun m : Store Word => m.get (regReset a) a) hregs⟩

theorem branch {c : Prop} [Decidable c] (ht : s.CxKept t) (hu : s.CxKept u) : s.CxKept (if c then t else u) := by
  split
  · exact ht
  · exact hu

theorem modChan (h : s.CxKept t) (ch : Nat) (f : Chan → Chan) : s.CxKept (t.modChan ch f) := h.of_regs rfl

theorem safeState (h : s.CxKept t) (ch : Nat) : s.CxKept (t.safeState ch) := h.of_regs rfl

theorem emit (h : s.CxKept t) (o : Out) : s.CxKept (t.emit o) := h.of_regs (Dev.emit_regs ..)

theorem wr (h : s.CxKept t) {k : PageKind} {ch i o : Nat} (ho : OffCx (pageOff k ch i o)) (w : Word) : s.CxKept (t.wr k ch i o w) :=
  h.trans ⟨fun a hlo hhi => t.wr_reg_other (fun heq => by unfold OffCx at ho; omega) w⟩

theorem bump (h : s.CxKept t) {k : PageKind} {ch i o : Nat} (ho : OffCx (pageOff k ch i o)) (ho' : OffCx (pageOff k ch i (o + 4))) (n : Nat) :
    s.CxKept (t.bump k ch i o n) :=
  branch h ((h.wr ho _).wr ho' _)

theorem raiseIbi (h : s.CxKept t) (tgt kind state cause seq : Nat) : s.CxKept (t.raiseIbi tgt kind state cause seq) := by
  have hmod {u : Dev} (hu : s.CxKept u) (f : Mgt → Mgt) : s.CxKept (u.modMgt tgt f) := hu.of_regs rfl
  exact branch (branch ((hmod (hmod h _) _).emit _) (hmod (hmod h _) _)) (hmod h _)

theorem record (h : s.CxKept t) (ch : Nat) (e : Ev) : s.CxKept (t.record ch e) := by
  have hcount (o : Nat) (f : Chan → Chan) : s.CxKept ((t.modChan ch f).bump .evrCh ch 0 o 1) :=
    (h.modChan ch f).bump (offCx_channel (by decide) ..) (offCx_channel (by decide) ..) 1
  exact branch (branch ((hcount ..).raiseIbi ..) (hcount ..)) (hcount ..)

theorem fltNotice (h : s.CxKept t) (ch : Nat) : s.CxKept (t.fltNotice ch) := by
  have hibi (c : Prop) [Decidable c] (e : Ev) (a b d : Nat) : s.CxKept (if c then (t.record ch e).raiseIbi ch 1 a b d else t.record ch e) :=
    branch ((h.record ch e).raiseIbi ..) (h.record ch e)
  exact branch ((hibi ..).emit _) (hibi ..)

theorem enterFlt (h : s.CxKept t) (ch st cause : Nat) (forced : Bool) : s.CxKept (t.enterFlt ch st cause forced) := by
  have hflt (o : Nat) : OffCx (pageOff .fltCh ch 0 o) := offCx_channel (by decide) ..
  exact ((h.wr (hflt _) _).wr (hflt _) _).wr (hflt _) _

theorem contain (h : s.CxKept t) (ch cause : Nat) (forced : Bool) : s.CxKept (t.contain ch cause forced) := by
  have hflt (o : Nat) : OffCx (pageOff .fltCh ch 0 o) := offCx_channel (by decide) ..
  unfold Dev.contain
  split
  · exact fltNotice (modChan (safeState (bump (modChan (h.enterFlt ch 1 cause forced) ch _) (hflt _) (hflt _) _) ch) ch _) ch
  · exact h.modChan ch _
  · exact h

theorem halt (h : s.CxKept t) (ch cause : Nat) (forced : Bool) : s.CxKept (t.halt ch cause forced) :=
  branch h (fltNotice (modChan (safeState (bump (h.enterFlt ch 2 cause forced) (offCx_fltMod (by decide)) (offCx_fltMod (by decide)) _) ch) ch _) ch)

/-- A source without a redundant action contains or halts its channel, or does neither (R376). -/
theorem actSev (h : s.CxKept t) {ch ix : Nat} {at_ : FltAt} (hdeg : t.degrade ch ix at_ = none) (sev : Nat) (forced : Bool) :
    s.CxKept (t.actSev ch ix sev forced at_) := by
  unfold Dev.actSev
  split
  · exact h
  · rw [hdeg]
    exact h.contain ..
  · exact h.contain ..
  · exact h.halt ..

theorem pageMark (h : s.CxKept t) {k : PageKind} (hk : k ∈ channelKinds) (ch n : Nat) : s.CxKept (t.pageMark k ch n) :=
  (h.wr (offCx_channel hk ..) _).wr (offCx_channel hk ..) _

/-- The source of a copy that fails, LOAD_XFER. -/
theorem raise_copy (s : Dev) (ch : Nat) : s.CxKept (s.raise ch 50) := by
  have hraise : s.raise ch 50 = ((s.pageMark .ldrCh ch 5).record ch ⟨51, 0, 50, 8, false, false, []⟩).actSev ch 50 (s.sevOf ch 50) false .none :=
    congrArg (Dev.actSev · ch 50 (s.sevOf ch 50) false .none) (s.noteRaise_none ch 50 false [])
  rw [hraise]
  exact actSev (((refl s).pageMark (by decide) ch 5).record ch _) rfl _ _

end Dev.CxKept

theorem Dev.raiseKeeps_ctxs (s : Dev) : Dev.RaiseKeeps fun m => m.ctxs = s.ctxs where
  setReg _ _ h := h
  modChan _ _ h := h
  modTile _ _ h := h
  modClus _ _ h := h
  modMgt _ _ h := h
  emit _ h := (Dev.emit_ctxs ..).trans h
  safeState _ h := h

theorem Dev.raise_ctxs (s : Dev) (ch ix : Nat) : (s.raise ch ix).ctxs = s.ctxs := (s.raiseKeeps_ctxs).raiseAt _ _ _ _ _ rfl

end Sys2Proof.Machine
end

section
/-! The phases of a load, a swap and an unload (O46). -/

namespace Sys2Proof.Machine
open Sys2Proof

/-! ### Commands -/

section
variable {s : State} {ctx : CtxId}

theorem exec_loadFetchDone (hvin : s.m.vin = true) (host : HostView) : exec (.loadFetchDone ctx host) s = s.done (s.m.fetchDone ctx.val host) := by
  change s.done (s.m.only _ _) = _
  rw [hvin, Dev.only_true]

theorem exec_loadCheckDone (hvin : s.m.vin = true) : exec (.loadCheckDone ctx) s = s.done (s.m.checkDone ctx.val) := by
  change s.done (s.m.only _ _) = _
  rw [hvin, Dev.only_true]

theorem exec_unloadComplete (hvin : s.m.vin = true) : exec (.unloadComplete ctx) s = s.done (s.m.unloadDone ctx.val) := by
  change s.done (s.m.only _ _) = _
  rw [hvin, Dev.only_true]

theorem exec_loadCopyDone (hmoves : s.m.loadMoves ctx.val = true) (host : HostView) (ok : Bool) :
    exec (.loadCopyDone ctx host ok) s = s.done (s.m.copyDone ctx.val host ok) := by
  change s.done (s.m.only _ _) = _
  rw [hmoves, Dev.only_true]

theorem exec_loadProgramDone (hmoves : s.m.loadMoves ctx.val = true) : exec (.loadProgramDone ctx) s = s.done (s.m.programDone ctx.val) := by
  change s.done (s.m.only _ _) = _
  rw [hmoves, Dev.only_true]

end

/-! ### FETCH (R257) -/

/-- The bytes of a context's image, as the host holds them (R255). -/
def Dev.hostImage (s : Dev) (n : Nat) (host : HostView) : Store Byte :=
  cutImage host (s.rd64 .ldrCx 0 n Off.LDR_NEXT) (s.rd64 .ldrCx 0 n Off.LDR_SIZE)

theorem Dev.fetchDone_fetched {s : Dev} {n : Nat} (hph : s.phase n = 1) (host : HostView) : s.fetchDone n host =
    (s.modLoad n fun l => { l with image := s.hostImage n host }).setPhase n Ph.CHECK := by
  rw [Dev.fetchDone, if_neg (not_not.2 hph), Dev.hostImage]

theorem answers_loadFetchDone {s : State} {ctx : CtxId} (hs : s.m.Settled) (hvin : s.m.vin = true) (hph : s.m.phase ctx.val = 1) (host : HostView) :
    Answers (.loadFetchDone ctx host) s fun t => SameBytes s t ∧ t.m.rqt = s.m.rqt ∧ t.m.tiles = s.m.tiles ∧ t.m.phase ctx.val = 2 ∧
      t.m.ctx ctx.val = { s.m.ctx ctx.val with load := { (s.m.ctx ctx.val).load with image := s.m.hostImage ctx.val host } } ∧
      SameRegs s t (· = cxOff .ldrCx ctx.val Off.LDR_CMD_STA) := by
  have hexec := exec_loadFetchDone (ctx := ctx) hvin host
  rw [Dev.fetchDone_fetched hph host] at hexec
  have hword := (s.m.modLoad ctx.val fun l => { l with image := s.m.hostImage ctx.val host }).setPhase_onlyWord ctx.val Ph.CHECK
  exact answers_done hexec (hs.of_chans hword.chans) 
    ⟨hword.byte, hword.rqt, hword.tiles, Dev.setPhase_phase .., (hword.ctx _).trans (Dev.modCtx_same ..), hword.reg⟩

/-! ### CHECK (R257, R258, R266, R530) -/

/-- The checks of a load that need no weight data. -/
def Dev.checksOf (s : Dev) (n : Nat) : Option (Nat × Nat) × Option Pattern :=
  s.loadChecks n (s.ctx n).load.swap (s.ctx n).load.image (s.rd64 .ldrCx 0 n Off.LDR_SIZE)

/-- The tiles of a pattern that has passed its checks, if it is placed. -/
def Dev.loadPlaced (s : Dev) (n : Nat) (p : Pattern) : Option Dev :=
  let a := s.modCtx n fun c => { c with newPat := some p }
  if (s.ctx n).load.swap then some (a.placeAhead n .load (placeSeq p)) else a.placeLoad n p (placeSeq p)

/-- The frames that the parts of the placed pattern need on each channel. -/
def Dev.loadNeed (m : Dev) (n : Nat) : List (Nat × Nat) := match (m.ctx n).newPat with | some q => m.partFrames n q | none => []

/-- The tiles of the pattern that a load or swap has brought into a context. -/
def newTilesOf (c : Ctx) : List Nat := match c.newPat with | some q => newTiles q | none => []

/-- A placed pattern whose parts find room goes on to COPY. -/
def Dev.startCopy (m : Dev) (n : Nat) : Dev :=
  let u := (m.loadNeed n).foldl (fun u e => u.takeRange e.1 n e.2) m
  (u.modLoad n fun l => { l with tiles := newTilesOf (u.ctx n), placed := true }).setPhase n Ph.COPY

section
variable {s : Dev} {n : Nat} (hph : s.phase n = 2)
include hph

theorem Dev.checkDone_rejected {f : Nat × Nat} (h : (s.checksOf n).1 = some f) : s.checkDone n = s.failLoad n Code.REJECTED f.1 f.2 := by
  unfold Dev.checksOf at h
  simp only [Dev.checkDone, hph, h]
  rfl

theorem Dev.checkDone_unread (h : s.checksOf n = (none, none)) : s.checkDone n = s.failLoad n Code.REJECTED 0x03 0 := by
  unfold Dev.checksOf at h
  simp only [Dev.checkDone, hph, h]
  rfl

variable {p : Pattern} (hchecks : s.checksOf n = (none, some p))
include hchecks

theorem Dev.checkDone_unplaced (h : s.loadPlaced n p = none) :
    s.checkDone n = (s.modCtx n fun c => { c with newPat := some p }).failLoad n Code.NOSPACE 0x20 0 := by
  unfold Dev.checksOf at hchecks
  unfold Dev.loadPlaced at h
  simp only [Dev.checkDone, hph, hchecks]
  simp only [h]
  rfl

theorem Dev.checkDone_placed {m : Dev} (h : s.loadPlaced n p = some m) : s.checkDone n =
    if ((m.loadNeed n).all fun e => m.rangeFits e.1 e.2) = true then m.startCopy n else m.failLoad n Code.NOSPACE 0x21 0 := by
  have hroom : s.checkDone n =
      if ((m.loadNeed n).any fun e => !m.rangeFits e.1 e.2) = true then m.failLoad n Code.NOSPACE 0x21 0 else m.startCopy n := by
    unfold Dev.checksOf at hchecks
    unfold Dev.loadPlaced at h
    simp only [Dev.checkDone, hph, hchecks]
    simp only [h]
    rfl
  rw [hroom, ← List.not_all_eq_any_not]
  cases (m.loadNeed n).all fun e => m.rangeFits e.1 e.2 <;> rfl

omit hph hchecks in
/-- Placing a pattern changes nothing but tiles and where its blocks are. -/
theorem Dev.loadPlaced_placing {m : Dev} (h : s.loadPlaced n p = some m) : Dev.Placing n (s.modCtx n fun c => { c with newPat := some p }) m := by
  unfold Dev.loadPlaced at h
  dsimp only at h
  split at h
  · exact Option.some.inj h ▸ .placeAhead _ _
  · exact .placeLoad h

end

/-- A placed pattern keeps its shape, and the loaded one stands beside it. -/
theorem Dev.loadPlaced_ctx {s m : Dev} {n : Nat} {p : Pattern} (h : s.loadPlaced n p = some m) :
    ∃ q, SameShape p q ∧ m.ctx n = { s.ctx n with newPat := some q } := by
  obtain ⟨f, hf, hctx⟩ := (Dev.loadPlaced_placing h).ctx
  rw [Dev.modCtx_same] at hctx
  exact ⟨f p, hf p, hctx⟩

/-- The context is one whose load goes on with COPY: its tiles are those of the pattern that it brings in (R257). -/
structure Dev.Copying (m t : Dev) (n : Nat) : Prop where
  rqt : t.rqt = m.rqt
  chans : t.chans = m.chans
  phase : t.phase n = 3
  ctx : t.ctx n = { m.ctx n with load := { (m.ctx n).load with tiles := newTilesOf (m.ctx n), placed := true } }

theorem Dev.startCopy_copying (m : Dev) (n : Nat) : m.Copying (m.startCopy n) n := by
  set u := (m.loadNeed n).foldl (fun u e => u.takeRange e.1 n e.2) m with hu
  have hparts : m.Reparted u := (Dev.Reparted.refl m).foldl (fun v e => (Dev.Reparted.refl v).takeRange ..) _
  have hword := (u.modLoad n fun l => { l with tiles := newTilesOf (u.ctx n), placed := true }).setPhase_onlyWord n Ph.COPY
  refine ⟨hword.rqt.trans hparts.rqt, hword.chans.trans hparts.chans, Dev.setPhase_phase .., ?_⟩
  exact (hword.ctx n).trans ((Dev.modCtx_same ..).trans (by rw [hparts.ctx]))

theorem Dev.Copying.newPat {m t : Dev} {n : Nat} (h : m.Copying t n) : (t.ctx n).newPat = (m.ctx n).newPat := by rw [h.ctx]

/-- What a load or swap that ends leaves of its context: PHASE NONE, its status and DETAIL, and the loaded pattern. -/
def LoadEnds (s t : State) (n code detail : Nat) : Prop :=
  t.m.phase n = 0 ∧ t.m.rdF .ldrCx 0 n Off.LDR_CMD_STA 7 0 = code ∧ t.m.rdF .ldrCx 0 n Off.LDR_CMD_STA 15 8 = detail % 256 ∧
    t.m.ctx n = { s.m.ctx n with newPat := none, load := Load.fresh }

/-- A load ends from a state that differs from `s` in what it has brought in so far. -/
theorem Dev.LoadEnded.ends {s : State} {m t : Dev} {n code detail : Nat} (h : m.LoadEnded t n code detail) (hcode : code < 256)
    (hctx : dropLoad (m.ctx n) = dropLoad (s.m.ctx n)) : LoadEnds s { s with m := t } n code detail :=
  ⟨h.phase, h.code.trans (Nat.mod_eq_of_lt hcode), h.detail, h.ctx.trans hctx⟩

section
variable {s : State} {ctx : CtxId} (hs : s.m.Settled) (hvin : s.m.vin = true) (hph : s.m.phase ctx.val = 2)
include hs hvin hph

theorem answers_loadCheckDone_rejected {f : Nat × Nat} (h : (s.m.checksOf ctx.val).1 = some f) :
    Answers (.loadCheckDone ctx) s fun t => t.m.rqt = s.m.rqt ∧ LoadEnds s t ctx.val Code.REJECTED f.1 := by
  have hexec := exec_loadCheckDone (ctx := ctx) hvin
  rw [Dev.checkDone_rejected hph h] at hexec
  have hended := s.m.failLoad_ended ctx.val Code.REJECTED f.1 f.2
  exact answers_done hexec (hs.of_chans hended.chans) ⟨hended.rqt, hended.ends (by decide) rfl⟩

theorem answers_loadCheckDone_unread (h : s.m.checksOf ctx.val = (none, none)) : Answers (.loadCheckDone ctx) s fun t => t.m.rqt = s.m.rqt := by
  have hexec := exec_loadCheckDone (ctx := ctx) hvin
  rw [Dev.checkDone_unread hph h] at hexec
  have hended := s.m.failLoad_ended ctx.val Code.REJECTED 0x03 0
  exact answers_done hexec (hs.of_chans hended.chans) hended.rqt

variable {p : Pattern} (hchecks : s.m.checksOf ctx.val = (none, some p))
include hchecks

theorem answers_loadCheckDone_unplaced (h : s.m.loadPlaced ctx.val p = none) :
    Answers (.loadCheckDone ctx) s fun t => t.m.rqt = s.m.rqt ∧ LoadEnds s t ctx.val Code.NOSPACE 0x20 := by
  have hexec := exec_loadCheckDone (ctx := ctx) hvin
  rw [Dev.checkDone_unplaced hph hchecks h] at hexec
  have hended := (s.m.modCtx ctx.val fun c => { c with newPat := some p }).failLoad_ended ctx.val Code.NOSPACE 0x20 0
  exact answers_done hexec (hs.of_chans hended.chans) ⟨hended.rqt, hended.ends (by decide) (by rw [Dev.modCtx_same]; rfl)⟩

variable {m : Dev} (h : s.m.loadPlaced ctx.val p = some m)
include h

theorem answers_loadCheckDone_noRoom (hfits : ((m.loadNeed ctx.val).all fun e => m.rangeFits e.1 e.2) = false) :
    Answers (.loadCheckDone ctx) s fun t => t.m.rqt = s.m.rqt ∧ LoadEnds s t ctx.val Code.NOSPACE 0x21 := by
  have hexec := exec_loadCheckDone (ctx := ctx) hvin
  rw [Dev.checkDone_placed hph hchecks h, if_neg (by simp [hfits])] at hexec
  have hplacing := Dev.loadPlaced_placing h
  obtain ⟨q, -, hctx⟩ := Dev.loadPlaced_ctx h
  have hended := m.failLoad_ended ctx.val Code.NOSPACE 0x21 0
  exact answers_done hexec (hs.of_chans (hended.chans.trans hplacing.chans))
    ⟨hended.rqt.trans hplacing.rqt, hended.ends (by decide) (by rw [hctx]; rfl)⟩

theorem answers_loadCheckDone_copy (hfits : ((m.loadNeed ctx.val).all fun e => m.rangeFits e.1 e.2) = true) :
    Answers (.loadCheckDone ctx) s fun t => t.m.rqt = s.m.rqt ∧ m.Copying t.m ctx.val := by
  have hexec := exec_loadCheckDone (ctx := ctx) hvin
  rw [Dev.checkDone_placed hph hchecks h, if_pos hfits] at hexec
  have hplacing := Dev.loadPlaced_placing h
  have hcopying := m.startCopy_copying ctx.val
  exact answers_done hexec (hs.of_chans (hcopying.chans.trans hplacing.chans)) ⟨hcopying.rqt.trans hplacing.rqt, hcopying⟩

end

/-- The context of a load that goes on with COPY: its new pattern has the shape of the image's, and the loaded one stays. -/
theorem Dev.Copying.loaded {s m t : Dev} {n : Nat} {p : Pattern} (hcopying : m.Copying t n) (h : s.loadPlaced n p = some m) :
    (t.ctx n).load.placed = true ∧ (t.ctx n).pat = (s.ctx n).pat ∧
      ∃ q, (t.ctx n).newPat = some q ∧ q.layers.length = p.layers.length ∧ q.vocab = p.vocab ∧ (t.ctx n).load.tiles = newTiles q := by
  obtain ⟨q, ⟨hlen, hvocab⟩, hctx⟩ := Dev.loadPlaced_ctx h
  have ht := hcopying.ctx
  rw [hctx] at ht
  rw [ht]
  exact ⟨rfl, rfl, q, rfl, hlen, hvocab, rfl⟩

/-- The end of the checks, whichever they are (R257, R258, R266). -/
theorem answers_loadCheckDone {s : State} {ctx : CtxId} (hs : s.m.Settled) (hvin : s.m.vin = true) (hph : s.m.phase ctx.val = 2) :
    Answers (.loadCheckDone ctx) s fun t => t.m.rqt = s.m.rqt ∧
      (∀ f, (s.m.checksOf ctx.val).1 = some f → LoadEnds s t ctx.val Code.REJECTED f.1) ∧
      ∀ p, s.m.checksOf ctx.val = (none, some p) →
        (LoadEnds s t ctx.val Code.NOSPACE 0x20 ∨ LoadEnds s t ctx.val Code.NOSPACE 0x21 ∨ (t.m.phase ctx.val = 3 ∧
          (t.m.ctx ctx.val).load.placed = true ∧ (t.m.ctx ctx.val).pat = (s.m.ctx ctx.val).pat ∧
          ∃ q, (t.m.ctx ctx.val).newPat = some q ∧ q.layers.length = p.layers.length ∧ q.vocab = p.vocab ∧
            (t.m.ctx ctx.val).load.tiles = newTiles q)) := by
  rcases hchecks : s.m.checksOf ctx.val with ⟨_ | f, p?⟩
  · cases p? with
    | none => exact (answers_loadCheckDone_unread hs hvin hph hchecks).imp fun t hrqt => ⟨hrqt, nofun, nofun⟩
    | some p =>
      suffices hend : Answers (.loadCheckDone ctx) s fun t => t.m.rqt = s.m.rqt ∧
          (LoadEnds s t ctx.val Code.NOSPACE 0x20 ∨ LoadEnds s t ctx.val Code.NOSPACE 0x21 ∨
            ∃ m, s.m.loadPlaced ctx.val p = some m ∧ m.Copying t.m ctx.val) by
        refine hend.imp fun t ⟨hrqt, ht⟩ => ⟨hrqt, nofun, fun p' hp' => ?_⟩
        obtain rfl : p = p' := Option.some.inj (congrArg Prod.snd hp')
        exact ht.imp_right (Or.imp_right fun ⟨m, hplaced, hcopying⟩ => ⟨hcopying.phase, hcopying.loaded hplaced⟩)
      cases hplaced : s.m.loadPlaced ctx.val p with
      | none => exact (answers_loadCheckDone_unplaced hs hvin hph hchecks hplaced).imp fun t ⟨hrqt, hends⟩ => ⟨hrqt, .inl hends⟩
      | some m =>
        cases hfits : (m.loadNeed ctx.val).all fun e => m.rangeFits e.1 e.2 with
        | false => exact (answers_loadCheckDone_noRoom hs hvin hph hchecks hplaced hfits).imp fun t ⟨hrqt, hends⟩ => ⟨hrqt, .inr (.inl hends)⟩
        | true =>
          exact (answers_loadCheckDone_copy hs hvin hph hchecks hplaced hfits).imp fun t ⟨hrqt, hcopying⟩ =>
            ⟨hrqt, .inr (.inr ⟨m, rfl, hcopying⟩)⟩
  · exact (answers_loadCheckDone_rejected hs hvin hph (congrArg Prod.fst hchecks)).imp fun t ⟨hrqt, hends⟩ =>
      ⟨hrqt, fun g hg => Option.some.inj hg ▸ hends, nofun⟩

end Sys2Proof.Machine
end

section
/-! COPY, PROGRAM and UNLOAD (R257, R258, R266, R281). -/

namespace Sys2Proof.Machine
open Sys2Proof

/-! ### COPY (R257, R258) -/

theorem firstBad_none {p : Pattern} {ok : Layer → Bool} (h : p.layers.all ok = true) : firstBad p (fun l _ => ok l) = none := by
  rw [firstBad, Option.map_eq_none_iff, List.find?_eq_none]
  intro e he
  obtain ⟨-, -, hmem⟩ := List.mem_zipIdx he
  simpa using List.all_eq_true.1 h e.1 (hmem ▸ List.getElem_mem _)

/-- The weights of a pattern are free of reserved codes in an image (R258, check 0x07). -/
def WeightsClean (p : Pattern) (img : Store Byte) : Prop :=
  (p.layers.all fun l => w5Clean img (p.w5 + l.w5Off) (l.blocks.map blockW5).sum) = true ∧
    w5Clean img (p.embed + 4 * p.vocab) (p.embedSize - 4 * p.vocab) = true

/-- Where the words of a context's LDR page stand (R441). -/
theorem ldrCx_word (ctx : CtxId) {o : Nat} (ho : o < 0x1000) : 0x100000 ≤ cxOff .ldrCx ctx.val o ∧ cxOff .ldrCx ctx.val o < 0x400000 := by
  simp only [cxOff, pageOff, Page.base]
  omega

/-- The copied bytes become those of the new pattern. -/
def Dev.withImage (s : Dev) (n : Nat) (p : Pattern) (host : HostView) : Dev :=
  s.modCtx n fun c => { c with newPat := some { p with img := s.hostImage n host, imgAddr := s.rd64 .ldrCx 0 n Off.LDR_NEXT } }

/-- The channel that reports a failed copy: the first that receives parts. -/
def Dev.copyCh (s : Dev) (n : Nat) (p : Pattern) : Nat := ((s.partFrames n p).map (·.1)).headD 0

section
variable {s : Dev} {n : Nat} {p : Pattern} {host : HostView} (hph : s.phase n = 3) (hnew : (s.ctx n).newPat = some p)
  (hclean : WeightsClean p (s.hostImage n host))
include hph hnew hclean

theorem Dev.copyDone_failed : s.copyDone n host false = (s.failLoad n Code.REJECTED 0x0F 0).raise (s.copyCh n p) 50 := by
  obtain ⟨hlayers, hembed⟩ := hclean
  unfold Dev.hostImage at hlayers hembed
  simp only [Dev.copyDone, hph, hnew, firstBad_none hlayers, hembed]
  rfl

theorem Dev.copyDone_copied : s.copyDone n host true =
    ((s.withImage n p host).startTiles ((s.withImage n p host).ctx n).load.tiles).setPhase n Ph.PROGRAM := by
  obtain ⟨hlayers, hembed⟩ := hclean
  unfold Dev.hostImage at hlayers hembed
  simp only [Dev.copyDone, hph, hnew, firstBad_none hlayers, hembed]
  rfl

end

section
variable {s : State} {ctx : CtxId} {p : Pattern} {host : HostView} (hmoves : s.m.loadMoves ctx.val = true) (hph : s.m.phase ctx.val = 3)
  (hnew : (s.m.ctx ctx.val).newPat = some p) (hclean : WeightsClean p (s.m.hostImage ctx.val host))
include hmoves hph hnew hclean

theorem answers_loadCopyDone_copied (hs : s.m.Settled) : Answers (.loadCopyDone ctx host true) s fun t => SameBytes s t ∧ t.m.rqt = s.m.rqt ∧
    t.m.phase ctx.val = 4 ∧
    t.m.ctx ctx.val = { s.m.ctx ctx.val with
      newPat := some { p with img := s.m.hostImage ctx.val host, imgAddr := s.m.rd64 .ldrCx 0 ctx.val Off.LDR_NEXT } } := by
  have hexec := exec_loadCopyDone (ctx := ctx) hmoves host true
  rw [Dev.copyDone_copied hph hnew hclean] at hexec
  set a := s.m.withImage ctx.val p host
  have htiles : a.Retiled (a.startTiles (a.ctx ctx.val).load.tiles) := (Dev.Retiled.refl a).startTiles _
  have hword := (a.startTiles (a.ctx ctx.val).load.tiles).setPhase_onlyWord ctx.val Ph.PROGRAM
  refine answers_done hexec (hs.of_chans (hword.chans.trans htiles.chans)) ⟨fun b => ?_, hword.rqt.trans htiles.rqt, Dev.setPhase_phase .., ?_⟩
  · exact (hword.byte b).trans (congrArg (·.get 0 b) htiles.mem)
  · exact (hword.ctx _).trans ((congrArg (·.get Ctx.fresh ctx.val) htiles.ctxs).trans (Dev.modCtx_same ..))

omit hmoves hph hnew hclean in
/-- LOAD_XFER is raised after the load has ended, and leaves what it shows. -/
theorem loadEnds_raise (ch : Nat) : ((s.m.failLoad ctx.val Code.REJECTED 0x0F 0).raise ch 50).rqt = s.m.rqt ∧
    LoadEnds s { s with m := (s.m.failLoad ctx.val Code.REJECTED 0x0F 0).raise ch 50 } ctx.val Code.REJECTED 0x0F := by
  set t := s.m.failLoad ctx.val Code.REJECTED 0x0F 0
  have hended : s.m.LoadEnded t ctx.val Code.REJECTED 0x0F := s.m.failLoad_ended ctx.val Code.REJECTED 0x0F 0
  obtain ⟨hphase, hcode, hdetail, hctx⟩ : LoadEnds s { s with m := t } ctx.val Code.REJECTED 0x0F := hended.ends (by decide) rfl
  have hsta : (t.raise ch 50).rd .ldrCx 0 ctx.val Off.LDR_CMD_STA = t.rd .ldrCx 0 ctx.val Off.LDR_CMD_STA :=
    have ⟨hlo, hhi⟩ := ldrCx_word ctx (show Off.LDR_CMD_STA < 0x1000 by decide)
    (Dev.CxKept.raise_copy t ch).reg _ hlo hhi
  have hfield (hi lo : Nat) : (t.raise ch 50).rdF .ldrCx 0 ctx.val Off.LDR_CMD_STA hi lo = t.rdF .ldrCx 0 ctx.val Off.LDR_CMD_STA hi lo :=
    congrArg (fld · hi lo) hsta
  exact ⟨(t.raise_signalled ch 50).table.rqt.trans hended.rqt, (hfield ..).trans hphase, (hfield ..).trans hcode, (hfield ..).trans hdetail,
    (congrArg (·.get Ctx.fresh ctx.val) (t.raise_ctxs ch 50)).trans hctx⟩

theorem does_loadCopyDone_failed : Does (.loadCopyDone ctx host false) s fun t => t.m.rqt = s.m.rqt ∧ LoadEnds s t ctx.val Code.REJECTED 0x0F := by
  have hexec := exec_loadCopyDone (ctx := ctx) hmoves host false
  rw [Dev.copyDone_failed hph hnew hclean] at hexec
  exact does_done hexec (loadEnds_raise _)

theorem answers_loadCopyDone_failed (hs : s.m.Settled) (hrec : s.m.Records (s.m.copyCh ctx.val p) 50) :
    Answers (.loadCopyDone ctx host false) s fun t => t.m.rqt = s.m.rqt ∧ LoadEnds s t ctx.val Code.REJECTED 0x0F := by
  have hexec := exec_loadCopyDone (ctx := ctx) hmoves host false
  rw [Dev.copyDone_failed hph hnew hclean] at hexec
  have hended := s.m.failLoad_ended ctx.val Code.REJECTED 0x0F 0
  have hpage : (s.m.failLoad ctx.val Code.REJECTED 0x0F 0).Records (s.m.copyCh ctx.val p) 50 := by
    refine hrec.of_page fun o ho => hended.reg _ ?_
    obtain ⟨-, hword⟩ := ldrCx_word ctx (show Off.LDR_CMD_STA < 0x1000 by decide)
    have hhdr : 0x400000 ≤ pageOff .ldrCh (s.m.copyCh ctx.val p) 0 o := by simp only [pageOff, Page.base, chanWin]; omega
    exact (hword.trans_le hhdr).ne'
  obtain ⟨hsettled, -⟩ := Dev.raise_recorded_keeps (hs.of_chans hended.chans) hpage (by decide) (by decide)
  exact answers_done hexec hsettled (loadEnds_raise _)

end

/-! ### PROGRAM (R257, R266, R268) -/

section
variable {s : Dev} {n : Nat} (hph : s.phase n = 4) (hverified : s.allVerified n = true)
include hph hverified

theorem Dev.programDone_swap (h : (s.ctx n).load.swap = true) : s.programDone n = s.setPhase n Ph.READY_WAVE := by
  rw [Dev.programDone, if_neg (by simp [hph, hverified]), if_pos h]

theorem Dev.programDone_load (h : (s.ctx n).load.swap = false) : s.programDone n = s.finishLoad n := by
  rw [Dev.programDone, if_neg (by simp [hph, hverified]), if_neg (by simp [h])]

end

/-- The plan's depth is counted afresh for the loaded pattern (R18). -/
theorem Dev.setDepth_modCtx (s : Dev) (n : Nat) : ∃ d e, s.setDepth n = s.modCtx n fun c => { c with depth := d, depthP := e } := by
  unfold Dev.setDepth
  dsimp only
  split <;> exact ⟨_, _, rfl⟩

/-- No word of a context's PLC page is one of its LDR page. -/
theorem pageOff_ldrCx_ne_plcCx (n : Nat) {o p : Nat} (ho : o < 0x1000) (hp : p < 0x1000) : pageOff .ldrCx 0 n o ≠ pageOff .plcCx 0 n p := by
  simp only [pageOff, Page.base]
  omega

theorem Dev.wr64_ldrCx_rd (s : Dev) (n : Nat) {o p : Nat} (ho : o < 0x1000) (hp : p + 4 < 0x1000) (v : Nat) :
    (s.wr64 .plcCx 0 n p v).rd .ldrCx 0 n o = s.rd .ldrCx 0 n o := by
  rw [Dev.wr64, Dev.wr_rd_other _ (pageOff_ldrCx_ne_plcCx n ho hp), Dev.wr_rd_other _ (pageOff_ldrCx_ne_plcCx n ho (by omega))]

/-- The pattern that a load has brought in, as the loaded one: no layer of it is switched or being programmed (R268). -/
def adopted (p : Pattern) : Pattern :=
  { p with layers := p.layers.map fun l => { l with switched := false, inPlace := false, programming := false } }

/-- The new pattern of context `n` has become the loaded one. -/
structure Dev.Adopted (s t : Dev) (n : Nat) : Prop where
  rqt : t.rqt = s.rqt
  chans : t.chans = s.chans
  sta : t.rd .ldrCx 0 n Off.LDR_CMD_STA = s.rd .ldrCx 0 n Off.LDR_CMD_STA
  pat : (t.ctx n).pat = (s.ctx n).newPat.map adopted
  newPat : (t.ctx n).newPat = none
  load : (t.ctx n).load = Load.fresh

/-- The slices of a tile of context `n` are the loaded pattern's. -/
def keepSlices (n : Nat) (t : Tile) : Tile := if t.ctx = some n then { t with slices := t.slices.map fun sl => { sl with newPat := false } } else t

/-- The new pattern becomes the loaded one. -/
def adoptNew (c : Ctx) : Ctx := { c with pat := c.newPat.map adopted, newPat := none, load := Load.fresh }

/-- The tiles' slices and the context first, then the room in T1, then the words of the PLC page. -/
theorem Dev.adoptPattern_steps (s : Dev) (n : Nat) : ∃ u d e w a z, s.Retiled u ∧
    ((u.modCtx n adoptNew).modCtx n fun c => { c with depth := d, depthP := e }).Reparted w ∧
    s.adoptPattern n = (((w.wr64 .plcCx 0 n Off.PLC_CX_IMG a).wr64 .plcCx 0 n Off.PLC_CX_IMGSZ z).wrF .plcCx 0 n Off.PLC_CX_STA 0 0 0).placed n := by
  set u := { s with tiles := s.tiles.mapV' Tile.reset fun _ => keepSlices n }
  obtain ⟨d, e, hdepth⟩ := (u.modCtx n adoptNew).setDepth_modCtx n
  refine ⟨u, d, e, ((u.modCtx n adoptNew).setDepth n).refitParts n, _, _, ⟨_, rfl⟩, ?_, rfl⟩
  rw [← hdepth]
  exact .refitParts (.refl _) n

theorem Dev.adoptPattern_adopted (s : Dev) (n : Nat) : s.Adopted (s.adoptPattern n) n := by
  obtain ⟨u, d, e, w, a, z, htiles, hparts, hadopt⟩ := s.adoptPattern_steps n
  have hctx : (s.adoptPattern n).ctx n = { adoptNew (s.ctx n) with depth := d, depthP := e } := by
    rw [hadopt, Dev.placed, Dev.wr64_get_ctx, Dev.wrF_get_ctx, Dev.wr64_get_ctx, Dev.wr64_get_ctx, hparts.ctx,
      Dev.modCtx_same, Dev.modCtx_same, Dev.ctx, htiles.ctxs, ← Dev.ctx]
  refine ⟨?_, ?_, ?_, congrArg Ctx.pat hctx, congrArg Ctx.newPat hctx, congrArg Ctx.load hctx⟩
  · rw [hadopt, Dev.placed, Dev.wr64_rqt, Dev.wrF_rqt, Dev.wr64_rqt, Dev.wr64_rqt, hparts.rqt, Dev.modCtx_rqt, Dev.modCtx_rqt, htiles.rqt]
  · rw [hadopt, Dev.placed, Dev.wr64_chans, Dev.wrF_chans, Dev.wr64_chans, Dev.wr64_chans, hparts.chans, Dev.modCtx_chans, Dev.modCtx_chans,
      htiles.chans]
  · rw [hadopt, Dev.placed, Dev.wr64_ldrCx_rd _ _ (by decide) (by decide), Dev.wrF,
      Dev.wr_rd_other _ (pageOff_ldrCx_ne_plcCx n (by decide) (by decide)), Dev.wr64_ldrCx_rd _ _ (by decide) (by decide),
      Dev.wr64_ldrCx_rd _ _ (by decide) (by decide)]
    exact (hparts.reg _).trans (congrArg (fun m : Store Word => m.get _ _) htiles.regs)

theorem Dev.finishLoad_load {s : Dev} {n : Nat} (h : (s.ctx n).load.swap = false) : s.finishLoad n =
    ((((s.ldrSta n Code.OK 0).progWord n Code.OK 0 0).adoptPattern n).wr .ldrCx 0 n Off.LDR_EPOCH 0).wrF .ldrCx 0 n Off.LDR_CMD_STA 18 16
      Ph.NONE := by
  rw [Dev.finishLoad]
  simp only [h, Bool.false_eq_true, if_false]

section
variable {s : State} {ctx : CtxId} (hs : s.m.Settled) (hmoves : s.m.loadMoves ctx.val = true) (hph : s.m.phase ctx.val = 4)
  (hverified : s.m.allVerified ctx.val = true)
include hs hmoves hph hverified

theorem answers_loadProgramDone_swap (hswap : (s.m.ctx ctx.val).load.swap = true) : Answers (.loadProgramDone ctx) s fun t =>
    SameBytes s t ∧ t.m.rqt = s.m.rqt ∧ t.m.tiles = s.m.tiles ∧ t.m.ctxs = s.m.ctxs ∧ t.m.phase ctx.val = 5 := by
  have hexec := exec_loadProgramDone (ctx := ctx) hmoves
  rw [Dev.programDone_swap hph hverified hswap] at hexec
  have hword := s.m.setPhase_onlyWord ctx.val Ph.READY_WAVE
  exact answers_done hexec (hs.of_chans hword.chans) ⟨hword.byte, hword.rqt, hword.tiles, hword.ctxs, Dev.setPhase_phase ..⟩

theorem answers_loadProgramDone_load (hswap : (s.m.ctx ctx.val).load.swap = false) {p : Pattern} (hnew : (s.m.ctx ctx.val).newPat = some p) :
    Answers (.loadProgramDone ctx) s fun t => t.m.rqt = s.m.rqt ∧ t.m.phase ctx.val = 0 ∧
      t.m.rdF .ldrCx 0 ctx.val Off.LDR_CMD_STA 7 0 = Code.OK ∧ (t.m.ctx ctx.val).newPat = none ∧ (t.m.ctx ctx.val).load = Load.fresh ∧
      ∃ q, (t.m.ctx ctx.val).pat = some q ∧ q.layers.length = p.layers.length ∧ q.imgAddr = p.imgAddr := by
  have hexec := exec_loadProgramDone (ctx := ctx) hmoves
  rw [Dev.programDone_load hph hverified hswap, Dev.finishLoad_load hswap] at hexec
  set r := (s.m.ldrSta ctx.val Code.OK 0).progWord ctx.val Code.OK 0 0
  have hword : Dev.OnlyWord (cxOff .ldrCx ctx.val Off.LDR_CMD_STA) s.m r := (s.m.ldrSta_onlyWord ctx.val Code.OK 0).emit _
  have hadopted := r.adoptPattern_adopted ctx.val
  refine answers_done hexec (hs.of_chans ?_) ⟨?_, Dev.wrF_rdF_same _ _ _ _ _ (by decide) (by decide) _, ?_, ?_, ?_,
    adopted p, ?_, List.length_map .., rfl⟩
  · exact (Dev.wrF_chans ..).trans ((Dev.wr_chans ..).trans (hadopted.chans.trans hword.chans))
  · exact (Dev.wrF_rqt ..).trans ((Dev.wr_rqt ..).trans (hadopted.rqt.trans hword.rqt))
  · calc _ = (r.adoptPattern ctx.val).rdF .ldrCx 0 ctx.val Off.LDR_CMD_STA 7 0 :=
          (Dev.wrF_rdF_apart _ _ _ _ _ (by decide) (by decide) (by decide) _).trans
            (congrArg (fld · 7 0) (Dev.wr_rd_other _ (pageOff_ne (by decide)) _))
      _ = r.rdF .ldrCx 0 ctx.val Off.LDR_CMD_STA 7 0 := congrArg (fld · 7 0) hadopted.sta
      _ = Code.OK := (Dev.rdF_of_regs (Dev.progWord_regs ..) ..).trans (Dev.ldrSta_code ..)
  all_goals dsimp only; rw [Dev.wrF_get_ctx, Dev.wr_get_ctx]
  · exact hadopted.newPat
  · exact hadopted.load
  · rw [hadopted.pat, hword.ctx, hnew, Option.map_some]

end

/-! ### UNLOAD (R281) -/

theorem Dev.unloadDone_freed {s : Dev} {n : Nat} (hph : s.phase n = 7) (hdead : ∀ e ∈ s.seqs, e.2.ctx = n → s.live e.1 = false) :
    s.unloadDone n =
    (((s.freePattern n).ldrSta n Code.OK 0).wrF .ldrCx 0 n Off.LDR_CMD_STA 18 16 Ph.NONE).placed n := by
  have hnone : ¬ (s.phase n ≠ Ph.UNLOAD ∨ (s.seqs.any fun e => e.2.ctx = n && s.live e.1) = true) := by
    rw [not_or, not_not, List.any_eq_true]
    refine ⟨hph, fun ⟨e, he, hlive⟩ => ?_⟩
    simp only [Bool.and_eq_true, decide_eq_true_eq] at hlive
    obtain ⟨hctx, hlive⟩ := hlive
    rw [hdead e he hctx] at hlive
    exact absurd hlive (by decide)
  rw [Dev.unloadDone, if_neg hnone]

/-- A context that holds no pattern, no load and no adapter. -/
def emptied (c : Ctx) : Ctx := { c with pat := none, newPat := none, load := Load.fresh, adps := [], depth := 0, depthP := 0 }

theorem Dev.freePattern_steps (s : Dev) (n : Nat) : ∃ u v, s.Retiled u ∧ u.Reparted v ∧ s.freePattern n = v.modCtx n emptied :=
  ⟨_, _, (Dev.Retiled.refl s).foldl (fun u k => (Dev.Retiled.refl u).releaseIndex k) _, .freeParts (.refl _) n, rfl⟩

theorem answers_unloadComplete {s : State} {ctx : CtxId} (hs : s.m.Settled) (hvin : s.m.vin = true) (hph : s.m.phase ctx.val = 7)
    (hdead : ∀ e ∈ s.m.seqs, e.2.ctx = ctx.val → s.m.live e.1 = false) : Answers (.unloadComplete ctx) s fun t => t.m.rqt = s.m.rqt ∧
      t.m.seqs = s.m.seqs ∧ t.m.phase ctx.val = 0 ∧ t.m.rdF .ldrCx 0 ctx.val Off.LDR_CMD_STA 7 0 = Code.OK ∧ (t.m.ctx ctx.val).pat = none ∧
      (t.m.ctx ctx.val).newPat = none ∧ (t.m.ctx ctx.val).adps = [] := by
  have hexec := exec_unloadComplete (ctx := ctx) hvin
  rw [Dev.unloadDone_freed hph hdead] at hexec
  obtain ⟨u, v, htiles, hparts, hfreed⟩ := s.m.freePattern_steps ctx.val
  set r := ((s.m.freePattern ctx.val).ldrSta ctx.val Code.OK 0).wrF .ldrCx 0 ctx.val Off.LDR_CMD_STA 18 16 Ph.NONE
  have hword : Dev.OnlyWord (cxOff .ldrCx ctx.val Off.LDR_CMD_STA) (s.m.freePattern ctx.val) r :=
    ((s.m.freePattern ctx.val).ldrSta_onlyWord ..).wrF ..
  have hctx : (r.placed ctx.val).ctx ctx.val = emptied (v.ctx ctx.val) := by
    rw [Dev.placed, Dev.wr64_get_ctx, hword.ctx, hfreed, Dev.modCtx_same]
  have hsta (hi lo : Nat) : (r.placed ctx.val).rdF .ldrCx 0 ctx.val Off.LDR_CMD_STA hi lo = r.rdF .ldrCx 0 ctx.val Off.LDR_CMD_STA hi lo :=
    congrArg (fld · hi lo) (Dev.wr64_ldrCx_rd _ _ (by decide) (by decide) _)
  refine answers_done hexec (hs.of_chans ?_) ⟨?_, ?_, ?_, ?_, ?_, ?_, ?_⟩
  · exact (Dev.wr64_chans ..).trans (hword.chans.trans (hfreed ▸ hparts.chans.trans htiles.chans))
  · exact (Dev.wr64_rqt ..).trans (hword.rqt.trans (hfreed ▸ hparts.rqt.trans htiles.rqt))
  · exact (Dev.wr64_seqs ..).trans (hword.seqs.trans (hfreed ▸ hparts.seqs.trans htiles.seqs))
  · exact (hsta ..).trans (Dev.wrF_rdF_same _ _ _ _ _ (by decide) (by decide) _)
  · exact (hsta ..).trans ((Dev.wrF_rdF_apart _ _ _ _ _ (by decide) (by decide) (by decide) _).trans (Dev.ldrSta_code ..))
  · exact congrArg Ctx.pat hctx
  · exact congrArg Ctx.newPat hctx
  · exact congrArg Ctx.adps hctx

/-- Settles O46: each event of a load takes its phase to the next, or ends it with a status, and nothing of the request table changes. -/
theorem loadsProceed : Obligations.LoadsProceed := by
  unfold Obligations.LoadsProceed
  intro s ctx host hs hvin
  refine ⟨fun hph => answers_loadFetchDone hs hvin hph host, fun hph => answers_loadCheckDone hs hvin hph,
    fun p m hph hchecks hplaced => ⟨fun hfits => ?_,
    fun hfits => answers_loadCheckDone_noRoom hs hvin hph hchecks hplaced hfits⟩,
    fun p hph hmoves hnew hlayers hembed => does_loadCopyDone_failed hmoves hph hnew ⟨hlayers, hembed⟩,
    fun p hph hmoves hnew hlayers hembed => ⟨answers_loadCopyDone_copied hmoves hph hnew ⟨hlayers, hembed⟩ hs,
      answers_loadCopyDone_failed hmoves hph hnew ⟨hlayers, hembed⟩ hs⟩,
    fun hph hmoves hverified => ⟨answers_loadProgramDone_swap hs hmoves hph hverified,
      fun hswap p hnew => answers_loadProgramDone_load hs hmoves hph hverified hswap hnew⟩,
    fun hph hdead => answers_unloadComplete hs hvin hph hdead⟩
  refine (answers_loadCheckDone_copy hs hvin hph hchecks hplaced hfits).imp fun t ⟨hrqt, hcopying⟩ => ?_
  obtain ⟨hplacedBit, hpat, -⟩ := hcopying.loaded hplaced
  exact ⟨hrqt, hcopying.phase, hplacedBit, hpat, hcopying.newPat⟩

end Sys2Proof.Machine
end

section
/-! No step leaves a change of fault state waiting (O3). Every command settles the module as the last thing it does (`State.done`), and a step with
no command changes nothing. -/

namespace Sys2Proof.Machine
open Sys2Proof

/-- Whatever a command does to the module, it answers the next state through `State.done`: none stops, and none leaves out the settling. -/
theorem exec_eq_done (c : Instr) (s : State) : ∃ m, exec c s = s.done m := by
  cases c <;> exact ⟨_, rfl⟩

/-- What a command leaves is settled, whether or not the state before it was. -/
theorem settled_of_exec {c : Instr} {s t : State} (h : exec c s = .next t) : t.m.Settled := by
  obtain ⟨m, hm⟩ := exec_eq_done c s
  obtain rfl : { s with m := m.settle } = t := Host.Outcome.next.inj (hm.symm.trans h)
  exact m.settle_settled

/-- A step runs the command at the front of the queue, or changes nothing. -/
theorem step_cases {s t : State} (h : step s = .next t) :
    (∃ c rest, s.pending = c :: rest ∧ exec c { s with pending := rest } = .next t) ∨ s.pending = [] ∧ t = s := by
  rw [step] at h
  split at h
  case h_1 hnil => exact .inr ⟨hnil, (Host.Outcome.next.inj h).symm⟩
  case h_2 c rest hcons => exact .inl ⟨c, rest, hcons, h⟩

theorem Dev.Settled.step {s t : State} (hs : s.m.Settled) (h : Machine.step s = .next t) : t.m.Settled := by
  obtain ⟨c, rest, -, hc⟩ | ⟨-, rfl⟩ := step_cases h
  · exact settled_of_exec hc
  · exact hs

/-- Nothing waits in a channel: no drop, no word of the hub, no HELLO message (R378, R384, R393). -/
theorem Chan.due_eq_false_iff (c : Chan) : c.due = false ↔ c.safeDue = false ∧ c.haltDue = false ∧ c.noticeDue = false := by
  simp [Chan.due, and_assoc]

/-- Settles O3: a command ends by settling the module, and a step without one leaves a settled module as it is. -/
theorem stepLeavesNothingWaiting : Obligations.StepLeavesNothingWaiting := by
  unfold Obligations.StepLeavesNothingWaiting
  refine ⟨fun s t hs h => hs.step h, fun c s t h => ?_⟩
  have ht : t.m.Settled := settled_of_exec h
  exact ⟨ht, fun ch => (t.m.chan ch).due_eq_false_iff.1 (ht.chan ch)⟩

end Sys2Proof.Machine
end

section
/-! What the bits of a scratchpad address select (O48). -/

namespace Sys2Proof.Machine
open Sys2Proof

/-- The bank, the row and the byte of a 22-bit address are its fields (R300). -/
theorem scratchpad_address_fields (a : BitVec 22) : bankOf a.toNat = (a.extractLsb' 9 5).toNat ∧
    rowOf a.toNat = (a.extractLsb' 14 8).toNat * 32 + (a.extractLsb' 9 5).toNat ∧ a.toNat = rowOf a.toNat * 512 + (a.extractLsb' 0 9).toNat := by
  have hlt : a.toNat < 2 ^ 22 := a.isLt
  simp only [bankOf, rowOf, BitVec.extractLsb'_toNat, Nat.shiftRight_eq_div_pow, Nat.reducePow, true_and]
  omega

/-- The address of row `r` of bank `b`. -/
theorem scratchpad_row_address {b : Nat} (r : Nat) (hb : b < 32) : bankOf ((r * 32 + b) * 512) = b ∧ rowOf ((r * 32 + b) * 512) = r * 32 + b := by
  simp only [bankOf, rowOf]
  omega

/-- Settles O48: the fields of an address, and the banks of consecutive rows. -/
theorem scratchpadAddresses : Obligations.ScratchpadAddresses := by
  unfold Obligations.ScratchpadAddresses
  refine ⟨rfl, scratchpad_address_fields, fun a => ?_, fun b r hb _ => ?_⟩
  · simp only [bankOf]
    omega
  · obtain ⟨hbank, hrow⟩ := scratchpad_row_address r hb
    exact ⟨hbank, hrow, rfl⟩

end Sys2Proof.Machine
end

section
/-! Rules of the scratchpads' operations: what each leaves of the rest of the module, and what it leaves in the scratchpad it acts on. -/

namespace Sys2Proof.Machine
open Sys2Proof

theorem coreRef_ix_channel (core : CoreRef) : core.ix / 64 = core.ch.val := coreCh_ix core

/-! ### The data of one scratchpad -/

@[simp] theorem Dev.modSpd_spd (s : Dev) (c : Nat) (f : Spd → Spd) : (s.modSpd c f).spd c = f (s.spd c) := by simp [Dev.spd, Dev.modSpd]
@[simp] theorem Dev.bump_spd (s : Dev) (k : PageKind) (ch i o n c : Nat) : (s.bump k ch i o n).spd c = s.spd c := by simp [Dev.spd]
@[simp] theorem Dev.spdBump_spd (s : Dev) (d o n c : Nat) : (s.spdBump d o n).spd c = s.spd c := s.bump_spd ..
@[simp] theorem Dev.spdCh_spd (s : Dev) (d o n c : Nat) : (s.spdCh d o n).spd c = s.spd c := s.bump_spd ..

/-! ### Work that stays in one core -/

/-- From `s` to `t` core `c`, registers and records may have changed: memory, scratchpad bytes, the request table, sequences, tiles and the other
cores stay, and no change of fault state comes to wait. -/
structure Dev.InCore (c : Nat) (s t : Dev) : Prop where
  mem : t.mem = s.mem
  t0 : t.t0 = s.t0
  rqt : t.rqt = s.rqt
  seqs : t.seqs = s.seqs
  tiles : t.tiles = s.tiles
  others : ∀ k, k ≠ c → t.core k = s.core k
  settled : s.Settled → t.Settled

namespace Dev.InCore
variable {c : Nat} {s t u : Dev}

theorem refl (c : Nat) (s : Dev) : InCore c s s := ⟨rfl, rfl, rfl, rfl, rfl, fun _ _ => rfl, id⟩

theorem trans (h : InCore c s t) (g : InCore c t u) : InCore c s u where
  mem := g.mem.trans h.mem
  t0 := g.t0.trans h.t0
  rqt := g.rqt.trans h.rqt
  seqs := g.seqs.trans h.seqs
  tiles := g.tiles.trans h.tiles
  others k hk := (g.others k hk).trans (h.others k hk)
  settled hs := g.settled (h.settled hs)

theorem noted (h : InCore c s t) (g : t.Noted u) (hsettled : t.Settled → u.Settled) : InCore c s u :=
  h.trans ⟨g.mem, g.t0, g.rqt, g.seqs, g.tiles, fun k _ => g.core k, hsettled⟩

theorem bump (h : InCore c s t) (k : PageKind) (ch i o n : Nat) : InCore c s (t.bump k ch i o n) :=
  h.noted ((Dev.Noted.refl t).bump ..) fun hs => hs.of_chans (Dev.bump_chans ..)

theorem modCore (h : InCore c s t) (f : Core → Core) : InCore c s (t.modCore c f) :=
  h.trans ⟨rfl, rfl, rfl, rfl, rfl, fun _ hk => t.modCore_other hk f, id⟩

theorem modSpd (h : InCore c s t) (f : Spd → Spd) : InCore c s (t.modSpd c f) := h.modCore _

theorem branch {p : Prop} [Decidable p] (ht : InCore c s t) (hu : InCore c s u) : InCore c s (if p then t else u) := by
  split
  · exact ht
  · exact hu

/-- A raise that is only recorded (R373). -/
theorem raise (h : InCore c s t) {ch ix : Nat} (hr : t.Records ch ix) (hix : ix < 96) (hn : (collector ix).2 < (collector ix).1.nsrc) :
    InCore c s (t.raise ch ix) :=
  h.noted ((Dev.Noted.refl t).raise hr hix hn) fun hs => (Dev.raise_recorded_keeps hs hr hix hn).1

/-- Time that no step has planned comes out of the core's slack, or is lost with it (R19). -/
theorem takeCore (h : InCore c s t) (ns : Nat) : InCore c s (t.takeCore c ns none) := branch h (branch (h.modCore _) h)

end Dev.InCore

/-! ### Bytes of a scratchpad -/

/-- A write of a scratchpad changes its bytes alone. -/
theorem Dev.putT0_eq (s : Dev) (c : Nat) (as : List Nat) (bs : List Byte) : s.putT0 c as bs = { s with t0 := (s.putT0 c as bs).t0 } := by
  unfold Dev.putT0
  generalize as.zip bs = l
  induction l generalizing s with
  | nil => rfl
  | cons e l ih => exact ih { s with t0 := s.t0.set 0 (c * 2 ^ 22 + e.1) e.2 }

theorem spanFrom_succ (a n : Nat) : spanFrom a (n + 1) = a :: spanFrom (a + 1) n := by
  simp only [spanFrom, List.range_succ_eq_map, List.map_cons, List.map_map, Nat.add_zero]
  exact congrArg _ (List.map_congr_left fun i _ => by simp only [Function.comp]; omega)

/-- A contiguous write stores its bytes in order (R302). -/
theorem Dev.putT0_span (s : Dev) (c a : Nat) (bs : List Byte) :
    (s.putT0 c (spanFrom a bs.length) bs).t0 = putEntry 0 (c * 2 ^ 22 + a) bs s.t0 := by
  induction bs generalizing s a with
  | nil => rfl
  | cons b bs ih =>
    rw [List.length_cons, spanFrom_succ, putEntry, Nat.zero_mul, Nat.zero_add, Nat.add_assoc]
    exact ih { s with t0 := s.t0.set 0 (c * 2 ^ 22 + a) b } (a + 1)

/-- A contiguous write stores its bytes and no others. -/
theorem Dev.putT0_span_get (s : Dev) (c a : Nat) (bs : List Byte) (x : Nat) : (s.putT0 c (spanFrom a bs.length) bs).t0.get 0 (c * 2 ^ 22 + x) =
    if a ≤ x ∧ x < a + bs.length then nth 0 bs (x - a) else s.t0.get 0 (c * 2 ^ 22 + x) := by
  rw [Dev.putT0_span, putEntry_get, Nat.zero_mul, Nat.zero_add, Nat.add_sub_add_left, nth]
  exact if_congr (by omega) rfl rfl

/-- A key below every key of a store is unlisted. -/
theorem Store.get_of_wfFrom_lt {α : Type} [DecidableEq α] {d : Nat → α} {b k : Nat} {m : Store α} (hwf : m.wfFrom d b = true) (hk : k < b)
    (e : α) : m.get e k = e := by
  induction m generalizing b with
  | nil => rfl
  | cons x m ih =>
    obtain ⟨j, v⟩ := x
    simp only [Store.wfFrom, Bool.and_eq_true, decide_eq_true_eq] at hwf
    obtain ⟨⟨hj, -⟩, hrest⟩ := hwf
    rw [Store.get, if_neg (by omega)]
    exact ih hrest (by omega)

theorem Dev.putMasked_cons (s : Dev) (c row j : Nat) (b : Byte) (m : Store (Option Byte)) : s.putMasked c row ((j, some b) :: m) =
    Dev.putMasked { s with t0 := s.t0.set 0 (c * 2 ^ 22 + row * 512 + j) b } c row m := rfl

/-- A masked write changes the scratchpad's bytes alone. -/
theorem Dev.putMasked_eq (s : Dev) (c row : Nat) (m : Store (Option Byte)) : s.putMasked c row m = { s with t0 := (s.putMasked c row m).t0 } := by
  unfold Dev.putMasked
  induction m generalizing s with
  | nil => rfl
  | cons e m ih =>
    obtain ⟨j, v⟩ := e
    cases v with
    | none => exact ih s
    | some b => exact ih { s with t0 := s.t0.set 0 (c * 2 ^ 22 + row * 512 + j) b }

/-- A masked write stores the bytes that the mask holds and no others (R306). -/
theorem Dev.putMasked_get (s : Dev) (c row : Nat) {m : Store (Option Byte)} {b : Nat} (hwf : m.wfFrom (fun _ => none) b = true) (k : Nat) :
    (s.putMasked c row m).t0.get 0 (c * 2 ^ 22 + row * 512 + k) = (m.get none k).getD (s.t0.get 0 (c * 2 ^ 22 + row * 512 + k)) := by
  induction m generalizing s b with
  | nil => rfl
  | cons e m ih =>
    obtain ⟨j, v⟩ := e
    simp only [Store.wfFrom, Bool.and_eq_true, decide_eq_true_eq] at hwf
    obtain ⟨⟨-, hv⟩, hrest⟩ := hwf
    obtain ⟨x, rfl⟩ := Option.ne_none_iff_exists'.1 hv
    rw [Dev.putMasked_cons, ih _ hrest]
    by_cases hjk : j = k
    · subst hjk
      rw [Store.get_of_wfFrom_lt hrest (Nat.lt_succ_self j), Store.get_set_same, Store.get, if_pos rfl]
      rfl
    · rw [Store.get_set_other 0 (by omega), Store.get, if_neg hjk]

/-! ### Waking banks (R314) -/

/-- A request wakes one bank it goes to, and marks it as used. -/
def Dev.wakeBank (s : Dev) (c plank b : Nat) : Dev :=
  let s := if ((s.spd c).banks.get Pd.up b) ≠ Pd.up then
      (s.modSpd c fun p => { p with banks := p.banks.set Pd.up b Pd.up }).spdCh c Off.SPD_WAKE 1 else s
  s.modSpd c fun p => { p with used := p.used.set 0 b (plank + 1) }

theorem Dev.wakeBanks_eq (s : Dev) (c : Nat) (as : List Nat) :
    s.wakeBanks c as = (as.map bankOf).eraseDups.foldl (fun t b => t.wakeBank c (s.chan (c / 64)).plank b) s := rfl

/-- From `s` to `t` the banks of `l` have been woken in the scratchpad of core `c`, and none has gone down. -/
structure Dev.Woken (c : Nat) (l : List Nat) (s t : Dev) : Prop where
  inCore : Dev.InCore c s t
  spd : ∃ banks used, t.spd c = { s.spd c with banks := banks, used := used } ∧
    ∀ b, b ∈ l ∨ (s.spd c).banks.get Pd.up b = Pd.up → banks.get Pd.up b = Pd.up

theorem Dev.wakeBank_woken (s : Dev) (c plank b : Nat) : Dev.Woken c [b] s (s.wakeBank c plank b) := by
  unfold Dev.wakeBank
  by_cases hup : (s.spd c).banks.get Pd.up b = Pd.up
  · rw [if_neg (not_not_intro hup)]
    refine ⟨(Dev.InCore.refl c s).modSpd _, _, _, Dev.modSpd_spd .., fun j hj => ?_⟩
    rcases hj with hj | hj
    · rwa [List.mem_singleton.1 hj]
    · exact hj
  · rw [if_pos hup]
    refine ⟨(((Dev.InCore.refl c s).modSpd _).bump ..).modSpd _, _, _, by rw [Dev.modSpd_spd, Dev.spdCh_spd, Dev.modSpd_spd], fun j hj => ?_⟩
    by_cases hjb : j = b
    · subst hjb
      exact Store.get_set_same Pd.up j Pd.up (s.spd c).banks
    · rw [Store.get_set_other _ hjb]
      exact hj.resolve_left fun h => hjb (List.mem_singleton.1 h)

theorem Dev.Woken.trans {c : Nat} {l r : List Nat} {s t u : Dev} (h : Dev.Woken c l s t) (g : Dev.Woken c r t u) : Dev.Woken c (l ++ r) s u := by
  obtain ⟨hcore, banks, used, hspd, hup⟩ := h
  obtain ⟨gcore, banks', used', gspd, gup⟩ := g
  rw [hspd] at gspd gup
  refine ⟨hcore.trans gcore, banks', used', gspd, fun b hb => gup b ?_⟩
  rcases hb with hb | hb
  · exact (List.mem_append.1 hb).symm.imp_right fun hl => hup b (.inl hl)
  · exact .inr (hup b (.inr hb))

/-- A request wakes every bank it goes to. -/
theorem Dev.wakeBanks_woken (s : Dev) (c : Nat) (as : List Nat) : Dev.Woken c (as.map bankOf).eraseDups s (s.wakeBanks c as) := by
  rw [Dev.wakeBanks_eq]
  generalize (s.chan (c / 64)).plank = plank, (as.map bankOf).eraseDups = l
  induction l generalizing s with
  | nil => exact ⟨.refl c s, _, _, rfl, fun b hb => hb.resolve_left (List.not_mem_nil)⟩
  | cons b l ih => exact (s.wakeBank_woken c plank b).trans (ih _)

/-! ### The issue stage (R302, R303, R310, R312, R317) -/

/-- From `s` to `t` a request has taken the next entry of the scoreboard of core `c`, and the banks it goes to are up. -/
structure Dev.Issued (c : Nat) (q : SpdReq) (as : List Nat) (s t : Dev) : Prop where
  inCore : Dev.InCore c s t
  entry : ∃ e : SbEnt, (t.spd c).ents = (s.spd c).ents ++ [e] ∧ e.id = (s.spd c).next ∧ e.req = q ∧ e.addrs = as
  next : (t.spd c).next = (s.spd c).next + 1
  rwait : (t.spd c).rwait = (s.spd c).rwait
  awake : ∀ a ∈ as, (t.spd c).banks.get Pd.up (bankOf a) = Pd.up

/-- A request that is not for the gather buffer, which is empty, takes an entry (R303, R306). -/
theorem Dev.issueReq_issued {s : Dev} {c : Nat} {q : SpdReq} (hwide : (q.write && narrow q) = false) (hgather : (s.spd c).gather = [])
    (as : List Nat) : Dev.Issued c q as s (s.issueReq c q as) := by
  obtain ⟨hcore, banks, used, hspd, hup⟩ := s.wakeBanks_woken c as
  have hslots : ((s.wakeBanks c as).spd c).gather = [] := by rw [hspd, hgather]
  unfold Dev.issueReq
  simp only [hwide, hslots, List.filter_nil, List.foldl_nil, Bool.false_eq_true, if_false]
  refine ⟨hcore.modSpd _, ?_, ?_, ?_, ?_⟩
  · simp only [Dev.modSpd_spd, hspd]
    exact ⟨_, rfl, rfl, rfl, rfl⟩
  · simp only [Dev.modSpd_spd, hspd]
  · simp only [Dev.modSpd_spd, hspd]
  · intro a ha
    simp only [Dev.modSpd_spd, hspd]
    exact hup _ (.inl (List.mem_eraseDups.2 (List.mem_map_of_mem ha)))

section
variable {s : Dev} {c : Nat} {q : SpdReq} {as : List Nat}

theorem Dev.spdIssue_discarded (hflt : s.fltState (c / 64) ≠ 0) :
    s.spdIssue c q = if q.write = true ∧ q.who = .dma then s.modSpd c fun p => { p with dmaEnd := 0x09 } else s := by
  rw [Dev.spdIssue]
  simp [hflt]

variable (hnormal : s.fltState (c / 64) = 0)
include hnormal

theorem Dev.spdIssue_refused (hno : spdAddrs (s.spd c).regions q = none) : s.spdIssue c q = s.raise (c / 64) 60 := by
  rw [Dev.spdIssue]
  simp [hnormal, hno]

variable (has : spdAddrs (s.spd c).regions q = some as)
include has

theorem Dev.spdIssue_region_waits (hready : regionReady (s.spd c).regions q = false) :
    s.spdIssue c q = s.modSpd c fun p => { p with rwait := p.rwait ++ [q] } := by
  rw [Dev.spdIssue]
  simp [hnormal, has, hready]

variable (hready : regionReady (s.spd c).regions q = true)
include hready

theorem Dev.spdIssue_stops (hfull : 64 ≤ sbUsed (s.spd c) ∨ (s.spd c).wait ≠ []) :
    s.spdIssue c q = (s.modSpd c fun p => { p with wait := p.wait ++ [q] }).spdBump c Off.SPD_SBFULL 1 := by
  rw [Dev.spdIssue]
  simp [hnormal, has, hready, hfull]

theorem Dev.spdIssue_issues (hwait : (s.spd c).wait = []) (hroom : sbUsed (s.spd c) < 64) : s.spdIssue c q = s.issueReq c q as := by
  rw [Dev.spdIssue]
  simp [hnormal, has, hready, hwait, hroom]

end

@[simp] theorem Dev.takeCore_spd (s : Dev) (c ns d : Nat) : (s.takeCore c ns none).spd d = s.spd d := by
  unfold Dev.takeCore
  split
  · rfl
  split
  · by_cases hd : d = c
    · rw [hd, Dev.spd, Dev.modCore_same, Dev.spd]
    · rw [Dev.spd, Dev.modCore_other _ hd, Dev.spd]
  · rfl

theorem Dev.takeCore_regs (s : Dev) (c ns : Nat) : (s.takeCore c ns none).regs = s.regs := by
  unfold Dev.takeCore
  split
  · rfl
  split <;> rfl

/-- The only request that waits on a region proceeds to the issue stage once there is room (R312). -/
theorem Dev.regionRoom_issues {s : Dev} {c : Nat} {q : SpdReq} {g : Fin 64} {len : Nat} (hrange : q.range = .region g len)
    (hready : regionReady (s.spd c).regions q = true) (hrwait : (s.spd c).rwait = [q]) (cycles : Nat) : s.regionRoom c g.val cycles =
      (((s.spdBump c Off.SPD_RWAIT cycles).takeCore c (ceilDiv (cycles * 5) 8) none).modSpd c fun p =>
        { p with rwait := p.rwait.erase q }).spdIssue c q := by
  unfold Dev.regionRoom
  simp [hrwait, hrange, hready]

/-! ### Accesses (R301, R304, R306, R311) -/

@[simp] theorem advanceRegion_ents (p : Spd) (e : SbEnt) : (advanceRegion p e).ents = p.ents := by unfold advanceRegion; split <;> rfl
@[simp] theorem advanceRegion_readOut (p : Spd) (e : SbEnt) : (advanceRegion p e).readOut = p.readOut := by unfold advanceRegion; split <;> rfl

@[simp] theorem Dev.putT0_spd (s : Dev) (c : Nat) (as : List Nat) (bs : List Byte) (d : Nat) : (s.putT0 c as bs).spd d = s.spd d := by
  rw [Dev.putT0_eq]
  rfl

@[simp] theorem Dev.putMasked_spd (s : Dev) (c row : Nat) (m : Store (Option Byte)) (d : Nat) : (s.putMasked c row m).spd d = s.spd d := by
  rw [Dev.putMasked_eq]
  rfl

/-- The accesses of an entry that is not a write leave what is outside the core alone. -/
theorem Dev.runEntry_read (s : Dev) (c : Nat) {e : SbEnt} (hread : e.req.write = false) : Dev.InCore c s (s.runEntry c e) := by
  simp only [Dev.runEntry, hread, Bool.false_and, Bool.false_eq_true, if_false]
  exact (((Dev.InCore.refl c s).modSpd _).modSpd _).bump ..

/-- The accesses of a write change the bytes of the scratchpad; what else is outside the core stays. -/
theorem Dev.runEntry_write (s : Dev) (c : Nat) {e : SbEnt} (hwrite : e.req.write = true) :
    Dev.InCore c { s with t0 := (s.putT0 c e.addrs e.req.data).t0 } (s.runEntry c e) := by
  rw [← Dev.putT0_eq]
  simp only [Dev.runEntry, hwrite, Bool.true_and, if_true]
  have hacc := ((Dev.InCore.refl c (s.putT0 c e.addrs e.req.data)).modSpd fun p =>
    advanceRegion { p with ents := p.ents.filter fun x => decide (x.id ≠ e.id) } e).bump .spd (c / 64) (c % 64) Off.SPD_ACC (rowsOf e.addrs).length
  exact .branch (hacc.modSpd _) hacc

/-- The accesses of an entry release it; a read leaves the bytes it names as the last data read (R303). -/
theorem Dev.runEntry_spd (s : Dev) (c : Nat) (e : SbEnt) : ((s.runEntry c e).spd c).ents = (s.spd c).ents.filter (fun x => x.id ≠ e.id) ∧
    (e.req.write = false → ((s.runEntry c e).spd c).readOut = e.addrs.map fun a => s.t0.get 0 (c * 2 ^ 22 + a)) := by
  cases hw : e.req.write with
  | false => simp [Dev.runEntry, hw]
  | true =>
    simp only [Dev.runEntry, hw]
    split <;> simp

section
variable {s : Dev} {c : Nat}

theorem Dev.spdStart_heldBack {e x : SbEnt} (hfind : (s.spd c).ents.find? (·.id = e.id) = some e) (hx : x ∈ (s.spd c).ents)
    (hheld : holdsBack x e = true) : s.spdStart c e.id = s.spdBump c Off.SPD_SBWAIT 1 := by
  unfold Dev.spdStart
  rw [hfind]
  exact if_pos (List.any_eq_true.2 ⟨x, hx, hheld⟩)

theorem Dev.spdStart_runs {e : SbEnt} (hfind : (s.spd c).ents.find? (·.id = e.id) = some e) (hwait : (s.spd c).wait = [])
    (hfree : ∀ x ∈ (s.spd c).ents, holdsBack x e = false) : s.spdStart c e.id = s.runEntry c e := by
  unfold Dev.spdStart
  rw [hfind]
  dsimp only
  rw [if_neg (by simpa using hfree), hwait]
  rfl

theorem Dev.putMasked_modSpd (s : Dev) (c d row : Nat) (f : Spd → Spd) (m : Store (Option Byte)) :
    (s.modSpd d f).putMasked c row m = (s.putMasked c row m).modSpd d f := by
  unfold Dev.putMasked
  induction m generalizing s with
  | nil => rfl
  | cons e m ih =>
    obtain ⟨j, v⟩ := e
    cases v with
    | none => exact ih s
    | some b => exact ih { s with t0 := s.t0.set 0 (c * 2 ^ 22 + row * 512 + j) b }

/-- With no entry to go first, a slot is flushed by one masked row write (R306). -/
theorem Dev.flushSlot_eq (hents : (s.spd c).ents = []) (g : GSlot) : s.flushSlot c g =
    (((s.putMasked c g.row g.bytes).modSpd c fun p => { p with gather := p.gather.filter fun x => decide (x.id ≠ g.id) }).spdBump
      c Off.SPD_ACC 1).spdBump c Off.SPD_GFLUSH 1 := by
  rw [← Dev.putMasked_modSpd]
  unfold Dev.flushSlot
  rw [hents]
  rfl

theorem Dev.gatherTimeout_flushes {k : Nat} {g : GSlot} (hslot : (s.spd c).gather[k]? = some g)
    (hwait : (s.spd c).wait = []) : s.gatherTimeout c k = s.flushSlot c g := by
  unfold Dev.gatherTimeout
  rw [hslot]
  dsimp only
  rw [hwait]
  rfl

end

end Sys2Proof.Machine
end

section
/-! Scratchpad requests (O49): what each command of a core's scratchpad answers. -/

namespace Sys2Proof.Machine
open Sys2Proof

theorem exec_spdRequestIssue {core : CoreRef} {s : State} (halive : s.m.alive core.ch.val = true) (q : SpdReq) :
    exec (.spdRequestIssue core q) s = s.done (s.m.spdIssue core.ix q) := by
  change s.done (s.m.only _ _) = _
  rw [halive, Dev.only_true]
theorem exec_spdAccessStart {core : CoreRef} {s : State} (hrun : s.m.running core.ch.val = true) (id : Nat) :
    exec (.spdAccessStart core id) s = s.done (s.m.spdStart core.ix id) := by
  change s.done (s.m.only _ _) = _
  rw [hrun, Dev.only_true]
theorem exec_gatherSlotTimeout {core : CoreRef} {s : State} (hrun : s.m.running core.ch.val = true) (slot : Fin 4) :
    exec (.gatherSlotTimeout core slot) s = s.done (s.m.gatherTimeout core.ix slot.val) := by
  change s.done (s.m.only _ _) = _
  rw [hrun, Dev.only_true]
theorem exec_regionRoomAvailable {core : CoreRef} {s : State} (hrun : s.m.running core.ch.val = true) (room : RegionRoom) :
    exec (.regionRoomAvailable core room) s = s.done (s.m.regionRoom core.ix room.rgn.val room.cycles) := by
  change s.done (s.m.only _ _) = _
  rw [hrun, Dev.only_true]

/-! ### What a raise at RECORD changes of the registers (R373) -/

/-- Raised at RECORD, a source changes the header of its page and a counter of the recorder, and no other register. -/
theorem sameRegs_raise {s : State} {ch ix : Nat} (hr : s.m.Records ch ix) (hix : ix < 96) (hn : (collector ix).2 < (collector ix).1.nsrc) :
    SameRegs s { s with m := s.m.raise ch ix } (raiseRegs ch ix) := by
  intro a ha
  simp only [raiseRegs, not_or] at ha
  obtain ⟨hflt, hcnt, hrec, hrec', hsupp, hsupp'⟩ := ha
  obtain ⟨f, o, -, ho, hraise⟩ := Dev.raise_recorded hr hix hn
  have hcounter : a ≠ pageOff .evrCh ch 0 o ∧ a ≠ pageOff .evrCh ch 0 (o + 4) := by
    rcases ho with rfl | rfl
    · exact ⟨hrec, hrec'⟩
    · exact ⟨hsupp, hsupp'⟩
  change (s.m.raise ch ix).reg a = s.m.reg a
  rw [hraise, Dev.bump_reg_other _ hcounter.1 hcounter.2, Dev.modChan_get_reg, Dev.pageMark, Dev.wr_reg_other _ hcnt, Dev.wr_reg_other _ hflt]

/-- The sources of the scratchpads, pseudo-channels and ranks show in SPD_CH (R318, R371). -/
theorem Dev.raise_spd_bit (s : Dev) (ch : Nat) {ix : Nat} (hix : ix = 57 ∨ ix = 58 ∨ ix = 59 ∨ ix = 60) :
    bit ((s.raise ch ix).rd .spdCh ch 0 Off.PG_FLT) (ix - 55) = true := by
  rcases hix with rfl | rfl | rfl | rfl <;>
    exact s.raise_bit ch (by decide) (by decide) (by decide) fun _ => rfl

/-! ### The issue stage -/

/-- Outside core `c` nothing but registers, records and scratchpad bytes has changed. -/
def SpdFrame (c : Nat) (s t : State) : Prop :=
  SameBytes s t ∧ t.m.rqt = s.m.rqt ∧ t.m.seqs = s.m.seqs ∧ t.m.tiles = s.m.tiles ∧ ∀ k, k ≠ c → t.m.core k = s.m.core k

/-- A request for the bytes `as` has taken the next entry of the scoreboard of core `c`, and the banks it goes to are up. -/
def SpdEnters (c : Nat) (q : SpdReq) (as : List Nat) (s t : State) : Prop :=
  ∃ e : SbEnt, (t.m.spd c).ents = (s.m.spd c).ents ++ [e] ∧ e.id = (s.m.spd c).next ∧ e.req = q ∧ e.addrs = as ∧
    (t.m.spd c).next = (s.m.spd c).next + 1 ∧ t.m.t0 = s.m.t0 ∧ ∀ a ∈ as, (t.m.spd c).banks.get Pd.up (bankOf a) = Pd.up

theorem Dev.InCore.spdFrame {s : State} {c : Nat} {T : Store Byte} {m : Dev} (h : Dev.InCore c { s.m with t0 := T } m) :
    SpdFrame c s { s with m := m } :=
  ⟨fun a => congrArg (·.get 0 a) h.mem, h.rqt, h.seqs, h.tiles, h.others⟩

/-- A request that is issued once nothing but the requests that wait on regions has changed in its scratchpad. -/
theorem Dev.Issued.enters {s : State} {c : Nat} {q : SpdReq} {as : List Nat} {l : List SpdReq} {n m : Dev} (h : Dev.Issued c q as n m)
    (hcore : Dev.InCore c s.m n) (hspd : n.spd c = { s.m.spd c with rwait := l }) :
    SpdFrame c s { s with m := m } ∧ SpdEnters c q as s { s with m := m } ∧ (m.spd c).rwait = l := by
  obtain ⟨hissue, ⟨e, hents, hid, hreq, haddrs⟩, hnext, hrwait, hawake⟩ := h
  rw [hspd] at hents hid hnext hrwait
  have hm := hcore.trans hissue
  exact ⟨hm.spdFrame, ⟨e, hents, hid, hreq, haddrs, hnext, hm.t0, hawake⟩, hrwait⟩

section
variable {s : State} {core : CoreRef} {q : SpdReq} (hs : s.m.Settled) (halive : s.m.alive core.ch.val = true)
include hs halive

/-- In a channel that is not NORMAL a request is discarded, and a DMA write ends with WITHDRAWN (R317). -/
theorem gives_spdRequestIssue_discarded (hflt : s.m.fltState core.ch.val ≠ 0) : Gives (.spdRequestIssue core q) s
    (if q.write = true ∧ q.who = .dma then s.m.modSpd core.ix fun p => { p with dmaEnd := 0x09 } else s.m) := by
  rw [← coreRef_ix_channel] at hflt
  refine gives_done hs ((exec_spdRequestIssue halive q).trans (congrArg s.done (Dev.spdIssue_discarded hflt))) ?_
  split <;> rfl

variable (hnormal : s.m.fltState core.ch.val = 0)
include hnormal

/-- A request that may not be issued is recorded as an address fault (R310, R312). -/
theorem answers_spdRequestIssue_refused (hno : spdAddrs (s.m.spd core.ix).regions q = none) (hrec : s.m.Records core.ch.val 60) :
    Answers (.spdRequestIssue core q) s fun t => SpdFrame core.ix s t ∧ t.m.cores = s.m.cores ∧ t.m.t0 = s.m.t0 ∧
      bit (t.m.rd .spdCh core.ch.val 0 Off.PG_FLT) 5 = true ∧ SameRegs s t (raiseRegs core.ch.val 60) := by
  rw [← coreRef_ix_channel] at hnormal
  have hraise : s.m.spdIssue core.ix q = s.m.raise core.ch.val 60 := by rw [Dev.spdIssue_refused hnormal hno, coreRef_ix_channel]
  have hcore := (Dev.InCore.refl core.ix s.m).raise hrec (by decide) (by decide)
  have hnoted := (Dev.Noted.refl s.m).raise hrec (by decide) (by decide)
  exact answers_done ((exec_spdRequestIssue halive q).trans (congrArg s.done hraise)) (hcore.settled hs)
    ⟨hcore.spdFrame, hnoted.cores, hnoted.t0, s.m.raise_spd_bit _ (by decide), sameRegs_raise hrec (by decide) (by decide)⟩

variable {as : List Nat} (has : spdAddrs (s.m.spd core.ix).regions q = some as)
include has

/-- A request whose region has no room, or no data, waits on it (R312). -/
theorem gives_spdRequestIssue_waits (hready : regionReady (s.m.spd core.ix).regions q = false) :
    Gives (.spdRequestIssue core q) s (s.m.modSpd core.ix fun p => { p with rwait := p.rwait ++ [q] }) := by
  rw [← coreRef_ix_channel] at hnormal
  exact gives_done hs ((exec_spdRequestIssue halive q).trans (congrArg s.done (Dev.spdIssue_region_waits hnormal has hready))) rfl

variable (hready : regionReady (s.m.spd core.ix).regions q = true)
include hready

/-- A request that finds no scoreboard entry, or others that wait for one, waits for it (R303). -/
theorem gives_spdRequestIssue_stops (hfull : 64 ≤ sbUsed (s.m.spd core.ix) ∨ (s.m.spd core.ix).wait ≠ []) :
    Gives (.spdRequestIssue core q) s ((s.m.modSpd core.ix fun p => { p with wait := p.wait ++ [q] }).spdBump core.ix Off.SPD_SBFULL 1) := by
  rw [← coreRef_ix_channel] at hnormal
  exact gives_done hs ((exec_spdRequestIssue halive q).trans (congrArg s.done (Dev.spdIssue_stops hnormal has hready hfull))) (Dev.bump_chans ..)

variable (hwait : (s.m.spd core.ix).wait = []) (hroom : sbUsed (s.m.spd core.ix) < 64) (hgather : (s.m.spd core.ix).gather = [])
  (hwide : (q.write && narrow q) = false)
include hwait hroom hgather hwide

/-- A request that finds an entry takes it (R303). -/
theorem answers_spdRequestIssue_enters : Answers (.spdRequestIssue core q) s fun t => SpdFrame core.ix s t ∧ SpdEnters core.ix q as s t ∧
    (t.m.spd core.ix).rwait = (s.m.spd core.ix).rwait := by
  rw [← coreRef_ix_channel] at hnormal
  have hissued := Dev.issueReq_issued hwide hgather as
  exact answers_done ((exec_spdRequestIssue halive q).trans (congrArg s.done (Dev.spdIssue_issues hnormal has hready hwait hroom)))
    (hissued.inCore.settled hs) (hissued.enters (.refl ..) rfl)

end

/-- The only request that waits on a region takes an entry once there is room (R312). -/
theorem answers_regionRoomAvailable {s : State} {core : CoreRef} {q : SpdReq} {g : Fin 64} {len : Nat} {as : List Nat} (hs : s.m.Settled)
    (hrun : s.m.running core.ch.val = true) (hnormal : s.m.fltState core.ch.val = 0) (hrange : q.range = .region g len)
    (has : spdAddrs (s.m.spd core.ix).regions q = some as) (hready : regionReady (s.m.spd core.ix).regions q = true)
    (hwait : (s.m.spd core.ix).wait = []) (hroom : sbUsed (s.m.spd core.ix) < 64) (hgather : (s.m.spd core.ix).gather = [])
    (hrwait : (s.m.spd core.ix).rwait = [q]) (cycles : Nat) : Answers (.regionRoomAvailable core ⟨g, cycles⟩) s fun t =>
      SpdFrame core.ix s t ∧ SpdEnters core.ix q as s t ∧ (t.m.spd core.ix).rwait = [] := by
  let n := ((s.m.spdBump core.ix Off.SPD_RWAIT cycles).takeCore core.ix (ceilDiv (cycles * 5) 8) none).modSpd core.ix fun p =>
    { p with rwait := p.rwait.erase q }
  have hn : Dev.InCore core.ix s.m n := (((Dev.InCore.refl core.ix s.m).bump ..).takeCore _).modSpd _
  have hspd : n.spd core.ix = { s.m.spd core.ix with rwait := [] } := by simp [n, hrwait]
  have hflt : n.fltState (core.ix / 64) = 0 := by
    rw [coreRef_ix_channel, ← hnormal]
    have hregs : n.regs = (s.m.spdBump core.ix Off.SPD_RWAIT cycles).regs := Dev.takeCore_regs ..
    have hsta : n.rd .fltCh core.ch.val 0 Off.FLT_STA = s.m.rd .fltCh core.ch.val 0 Off.FLT_STA := by
      rw [Dev.rd, Dev.reg, hregs]
      exact s.m.bump_rd_offset (by decide) (by decide) (by decide) (by decide) cycles
    exact congrArg (fld · 1 0) hsta
  have hwide : (q.write && narrow q) = false := by simp [narrow, hrange]
  have hissue : n.spdIssue core.ix q = n.issueReq core.ix q as :=
    Dev.spdIssue_issues hflt (by rw [hspd]; exact has) (by rw [hspd]; exact hready) (by rw [hspd]; exact hwait) (by rw [hspd]; exact hroom)
  have hissued : Dev.Issued core.ix q as n (n.issueReq core.ix q as) := Dev.issueReq_issued hwide (by rw [hspd]; exact hgather) as
  exact answers_done ((exec_regionRoomAvailable hrun _).trans (congrArg s.done ((Dev.regionRoom_issues hrange hready hrwait cycles).trans hissue)))
    (hissued.inCore.settled (hn.settled hs)) (hissued.enters hn hspd)

/-! ### Accesses -/

section
variable {s : State} {core : CoreRef} {e : SbEnt} (hs : s.m.Settled) (hrun : s.m.running core.ch.val = true)
  (hfind : (s.m.spd core.ix).ents.find? (·.id = e.id) = some e)
include hs hrun hfind

/-- An access that an earlier request holds back waits, which is counted (R304). -/
theorem gives_spdAccessStart_heldBack (hheld : ∃ x ∈ (s.m.spd core.ix).ents, holdsBack x e = true) :
    Gives (.spdAccessStart core e.id) s (s.m.spdBump core.ix Off.SPD_SBWAIT 1) := by
  obtain ⟨x, hx, hback⟩ := hheld
  exact gives_done hs ((exec_spdAccessStart hrun e.id).trans (congrArg s.done (Dev.spdStart_heldBack hfind hx hback))) (Dev.bump_chans ..)

/-- An access that nothing holds back runs: a read returns the bytes it names, a write stores its bytes and no others (R301, R304). -/
theorem answers_spdAccessStart_runs (hwait : (s.m.spd core.ix).wait = []) (hfree : ∀ x ∈ (s.m.spd core.ix).ents, holdsBack x e = false) :
    Answers (.spdAccessStart core e.id) s fun t => SpdFrame core.ix s t ∧
      (t.m.spd core.ix).ents = (s.m.spd core.ix).ents.filter (fun x => x.id ≠ e.id) ∧
      (e.req.write = false → t.m.t0 = s.m.t0 ∧ (t.m.spd core.ix).readOut = e.addrs.map fun a => s.m.t0.get 0 (core.ix * 2 ^ 22 + a)) ∧
      (∀ a, e.req.write = true → e.addrs = spanFrom a e.req.data.length → ∀ x, t.m.t0.get 0 (core.ix * 2 ^ 22 + x) =
        if a ≤ x ∧ x < a + e.req.data.length then nth 0 e.req.data (x - a) else s.m.t0.get 0 (core.ix * 2 ^ 22 + x)) := by
  have hexec := (exec_spdAccessStart hrun e.id).trans (congrArg s.done (Dev.spdStart_runs hfind hwait hfree))
  obtain ⟨hents, hread⟩ := s.m.runEntry_spd core.ix e
  cases hwrite : e.req.write with
  | false =>
    have hcore := s.m.runEntry_read core.ix hwrite
    exact answers_done hexec (hcore.settled hs) ⟨hcore.spdFrame, hents, fun _ => ⟨hcore.t0, hread hwrite⟩, by simp⟩
  | true =>
    have hcore := s.m.runEntry_write core.ix hwrite
    refine answers_done hexec (hcore.settled hs) ⟨hcore.spdFrame, hents, by simp, fun a _ haddrs x => ?_⟩
    rw [← Dev.putT0_span_get, ← haddrs]
    exact congrArg (·.get 0 (core.ix * 2 ^ 22 + x)) hcore.t0

end

/-- A gather slot that has waited is written by its mask (R306). -/
theorem answers_gatherSlotTimeout {s : State} {core : CoreRef} {slot : Fin 4} {g : GSlot} (hs : s.m.Settled)
    (hrun : s.m.running core.ch.val = true) (hslot : (s.m.spd core.ix).gather[slot.val]? = some g) (hents : (s.m.spd core.ix).ents = [])
    (hwait : (s.m.spd core.ix).wait = []) (hwf : Store.wf (fun _ => none) g.bytes = true) : Answers (.gatherSlotTimeout core slot) s fun t =>
      SpdFrame core.ix s t ∧ (t.m.spd core.ix).gather = (s.m.spd core.ix).gather.filter (fun x => x.id ≠ g.id) ∧
      ∀ k, t.m.t0.get 0 (core.ix * 2 ^ 22 + g.row * 512 + k) = (g.bytes.get none k).getD (s.m.t0.get 0 (core.ix * 2 ^ 22 + g.row * 512 + k)) := by
  have hflush := (Dev.gatherTimeout_flushes hslot hwait).trans (Dev.flushSlot_eq hents g)
  have hcore : Dev.InCore core.ix { s.m with t0 := (s.m.putMasked core.ix g.row g.bytes).t0 } (s.m.gatherTimeout core.ix slot.val) := by
    rw [← Dev.putMasked_eq, hflush]
    exact (((Dev.InCore.refl core.ix _).modSpd _).bump ..).bump ..
  refine answers_done (exec_gatherSlotTimeout hrun slot) (hcore.settled hs) ⟨hcore.spdFrame, ?_, fun k => ?_⟩
  · change ((s.m.gatherTimeout core.ix slot.val).spd core.ix).gather = _
    rw [hflush, Dev.spdBump_spd, Dev.spdBump_spd, Dev.modSpd_spd, Dev.putMasked_spd]
  · rw [← Dev.putMasked_get s.m core.ix g.row hwf k]
    exact congrArg (·.get 0 (core.ix * 2 ^ 22 + g.row * 512 + k)) hcore.t0

/-- Settles O49: by what the issue stage does with the request, then by what starts the accesses. -/
theorem scratchRequestsRun : Obligations.ScratchRequestsRun := by
  unfold Obligations.ScratchRequestsRun
  intro s core q hs
  refine ⟨fun halive hnormal => ⟨fun hno hrec => answers_spdRequestIssue_refused hs halive hnormal hno hrec,
      fun as has => ⟨?_, ?_, ?_, ?_⟩⟩,
    fun halive hflt => gives_spdRequestIssue_discarded hs halive hflt, fun hrun => ⟨fun e hfind hwait => ⟨?_, ?_⟩, ?_⟩⟩
  · exact fun hready => gives_spdRequestIssue_waits hs halive hnormal has hready
  · exact fun hready hfull => gives_spdRequestIssue_stops hs halive hnormal has hready hfull
  · exact fun hready ⟨hwait, hroom, hgather⟩ hwide =>
      answers_spdRequestIssue_enters hs halive hnormal has hready hwait hroom hgather hwide
  · exact fun g len cycles hrange hready ⟨hwait, hroom, hgather⟩ hrwait hrun =>
      answers_regionRoomAvailable hs hrun hnormal hrange has hready hwait hroom hgather hrwait cycles
  · exact fun hheld => gives_spdAccessStart_heldBack hs hrun hfind hheld
  · exact fun hfree => answers_spdAccessStart_runs hs hrun hfind hwait hfree
  · exact fun slot g hslot hents hwait hwf => answers_gatherSlotTimeout hs hrun hslot hents hwait hwf

end Sys2Proof.Machine
end

section
/-! Power-down of banks and memory units (O50): the wait, the end of the wait with the writes drained, and its end with writes that are late. -/

namespace Sys2Proof.Machine
open Sys2Proof

theorem exec_bankIdleExpire {u : PdTarget} {s : State} (halive : s.m.alive (pdCh u) = true) :
    exec (.bankIdleExpire u) s = s.done (s.m.pdRequest u) := by
  change s.done (s.m.only _ _) = _
  rw [halive, Dev.only_true]
theorem exec_bankWritesDrained {u : PdTarget} {s : State} (halive : s.m.alive (pdCh u) = true) :
    exec (.bankWritesDrained u) s = s.done (s.m.pdDrained u) := by
  change s.done (s.m.only _ _) = _
  rw [halive, Dev.only_true]
theorem exec_bankPdWaitExpire {u : PdTarget} {s : State} (halive : s.m.alive (pdCh u) = true) (late : List Nat) :
    exec (.bankPdWaitExpire ⟨u, late⟩) s = s.done ((s.m.lateWrites late u).pdExpired late.length u) := by
  change s.done (s.m.only _ _) = _
  rw [halive, Dev.only_true]

/-! ### Counters and sources of SPD_CH (R318, R319) -/

/-- A counter of the body of a page leaves the severities of every source as they are (R374). -/
theorem Dev.Records.bump {s : Dev} {ch ix : Nat} (hr : s.Records ch ix) (k : PageKind) (d i : Nat) {o : Nat} (ho : 0x100 ≤ o) (ho' : o + 4 < 0x1000)
    (n : Nat) : (s.bump k d i o n).Records ch ix :=
  hr.of_page fun _ hp => s.bump_rd_offset ho' (by omega) (by omega) (by omega) n

theorem Dev.Records.spdCh {s : Dev} {ch ix : Nat} (hr : s.Records ch ix) (c : Nat) {o : Nat} (ho : 0x100 ≤ o) (ho' : o + 4 < 0x1000) (n : Nat) :
    (s.spdCh c o n).Records ch ix := hr.bump .spdCh (c / 64) 0 ho ho' n

theorem Dev.Noted.spd {s t : Dev} (h : s.Noted t) (c : Nat) : t.spd c = s.spd c := congrArg Core.spd (h.core c)

/-! ### Banks (R314) -/

@[simp] theorem Dev.setBank_same (s : Dev) (c b : Nat) (p : Pd) : (s.setBank c b p).bankPd c b = p := by
  rw [Dev.bankPd, Dev.setBank, Dev.modSpd_spd]
  exact Store.get_set_same Pd.up b p _

theorem Dev.setBank_other (s : Dev) {c b k : Nat} (h : k ≠ b) (p : Pd) : (s.setBank c b p).bankPd c k = s.bankPd c k := by
  rw [Dev.bankPd, Dev.setBank, Dev.modSpd_spd]
  exact Store.get_set_other Pd.up h p _

theorem Dev.setBank_rdF (s : Dev) (c b : Nat) (p : Pd) (k : PageKind) (ch i o hi lo : Nat) :
    (s.setBank c b p).rdF k ch i o hi lo = s.rdF k ch i o hi lo := Dev.modCore_get_rdF ..

theorem Dev.setBank_rd64 (s : Dev) (c b : Nat) (p : Pd) (k : PageKind) (ch i o : Nat) : (s.setBank c b p).rd64 k ch i o = s.rd64 k ch i o := by
  simp only [Dev.rd64, Dev.setBank, Dev.modSpd, Dev.modCore_get_rd]

@[simp] theorem Dev.spdCh_bankPd (s : Dev) (d o n c b : Nat) : (s.spdCh d o n).bankPd c b = s.bankPd c b := by
  rw [Dev.bankPd, Dev.spdCh_spd, Dev.bankPd]

/-- Outside bank `b` of core `c` nothing but registers and records has changed; the core's scoreboard may have lost entries. -/
def BankFrame (c b : Nat) (s t : State) : Prop := SameBytes s t ∧ t.m.t0 = s.m.t0 ∧ t.m.rqt = s.m.rqt ∧ t.m.seqs = s.m.seqs ∧
  (∀ k, k ≠ b → t.m.bankPd c k = s.m.bankPd c k) ∧ ∀ k, k ≠ c → t.m.core k = s.m.core k

theorem Dev.InCore.bankFrame {s : State} {c b : Nat} {m : Dev} (h : Dev.InCore c s.m m) (hbanks : ∀ k, k ≠ b → m.bankPd c k = s.m.bankPd c k) :
    BankFrame c b s { s with m := m } :=
  ⟨fun a => congrArg (·.get 0 a) h.mem, h.t0, h.rqt, h.seqs, hbanks, h.others⟩

/-- Late writes leave the scoreboard, and a DMA write among them ends with DROPPED (R314 step 4). -/
def Dev.dropLate (s : Dev) (c : Nat) (late : List SbEnt) : Dev := s.modSpd c fun p => { p with
  ents := p.ents.filter fun e => !late.any fun x => x.id = e.id
  dmaEnd := if late.any fun e => e.req.who = .dma then 0x0E else p.dmaEnd }

/-- A bank powers down without its late writes, and both are counted. -/
def Dev.bankDown (s : Dev) (c b : Nat) (late : List SbEnt) : Dev :=
  (((s.dropLate c late).setBank c b Pd.down).spdCh c Off.SPD_PDN 1).spdCh c Off.SPD_DROP late.length

theorem Dev.bankDown_inCore (s : Dev) (c b : Nat) (late : List SbEnt) : Dev.InCore c s (s.bankDown c b late) :=
  ((((Dev.InCore.refl c s).modSpd _).modSpd _).bump ..).bump ..

@[simp] theorem Dev.bankDown_spd (s : Dev) (c b : Nat) (late : List SbEnt) : (s.bankDown c b late).spd c = { s.spd c with
    ents := (s.spd c).ents.filter fun e => !late.any fun x => x.id = e.id
    dmaEnd := if late.any fun e => e.req.who = .dma then 0x0E else (s.spd c).dmaEnd
    banks := (s.spd c).banks.set Pd.up b Pd.down } := by
  rw [Dev.bankDown, Dev.spdCh_spd, Dev.spdCh_spd, Dev.setBank, Dev.modSpd_spd, Dev.dropLate, Dev.modSpd_spd]

/-- No write that the bank waited for is left. -/
theorem Dev.bankDown_bankWrites (s : Dev) (c b t0 : Nat) : (s.bankDown c b (s.bankWrites c b t0)).bankWrites c b t0 = [] := by
  rw [Dev.bankWrites, Dev.bankDown_spd, List.filter_eq_nil_iff]
  intro e he hlate
  obtain ⟨he, hkept⟩ := List.mem_filter.1 he
  have hmem : e ∈ s.bankWrites c b t0 := List.mem_filter.2 ⟨he, hlate⟩
  have hany : ((s.bankWrites c b t0).any fun x => x.id = e.id) = true := List.any_eq_true.2 ⟨e, hmem, by simp⟩
  simp [hany] at hkept

theorem Dev.bankDown_records {s : Dev} {ch ix : Nat} (hr : s.Records ch ix) (c b : Nat) (late : List SbEnt) :
    (s.bankDown c b late).Records ch ix := by
  have hdown : ((s.dropLate c late).setBank c b Pd.down).Records ch ix := hr.of_page fun _ _ => rfl
  exact (hdown.spdCh c (by decide) (by decide) 1).spdCh c (by decide) (by decide) late.length

section
variable {core : CoreRef} {b : Fin 32}

theorem Dev.pdRequest_bank {s : Dev} (hon : s.inForce .spdCh core.ch.val 0 Off.SPD_CH_CTL 0 0 = 1) (hup : s.bankPd core.ix b.val = Pd.up)
    (hidle : max 1 (s.inForce .spdCh core.ch.val 0 Off.SPD_PDIDLE 7 0) ≤ (s.chan core.ch.val).plank + 1 - (s.spd core.ix).used.get 0 b.val) :
    s.pdRequest (.bank core b) = s.setBank core.ix b.val (Pd.waiting (s.spd core.ix).next) := by
  simp only [Dev.pdRequest, coreRef_ix_channel]
  exact if_pos ⟨hon, hup, hidle⟩

theorem Dev.pdDrained_bank {s : Dev} {t0 : Nat} (hpd : s.bankPd core.ix b.val = Pd.waiting t0) : s.pdDrained (.bank core b) =
    if (s.bankWrites core.ix b.val t0).isEmpty then (s.setBank core.ix b.val Pd.down).spdCh core.ix Off.SPD_PDN 1 else s := by
  simp only [Dev.pdDrained, hpd]

/-- Beside staged copies, late writes to a bank drop nothing. -/
theorem Dev.lateWrites_bank (s : Dev) (late : List Nat) : ∃ l, s.lateWrites late (.bank core b) = { s with staged := l } := by
  simp only [Dev.lateWrites]
  split <;> exact ⟨_, rfl⟩

/-- Where no request waits for an entry, a bank whose writes are late powers down without them, and the source is raised. -/
theorem Dev.pdExpired_bank {s : Dev} {t0 : Nat} (hpd : s.bankPd core.ix b.val = Pd.waiting t0) (hlate : s.bankWrites core.ix b.val t0 ≠ [])
    (hwait : (s.spd core.ix).wait = []) (hrec : s.Records core.ch.val 57) (n : Nat) :
    s.pdExpired n (.bank core b) = (s.bankDown core.ix b.val (s.bankWrites core.ix b.val t0)).raise core.ch.val 57 := by
  have hnoted := (Dev.Noted.refl _).raise (s.bankDown_records hrec core.ix b.val (s.bankWrites core.ix b.val t0)) (by decide) (by decide)
  have hnone : ((s.bankDown core.ix b.val (s.bankWrites core.ix b.val t0)).raise core.ch.val 57 |>.spd core.ix).wait = [] := by
    rw [hnoted.spd, Dev.bankDown_spd, hwait]
  simp only [Dev.pdExpired, hpd, coreRef_ix_channel]
  rw [if_neg (by simpa using hlate)]
  exact congrArg (fun l : List SpdReq => Dev.issueWaiting _ core.ix l.length) hnone

end

section
variable {s : State} {core : CoreRef} {b : Fin 32} (hs : s.m.Settled) (halive : s.m.alive core.ch.val = true)
include hs halive

/-- An idle bank waits to power down (R314). -/
theorem answers_bankIdleExpire_bank (hon : s.m.inForce .spdCh core.ch.val 0 Off.SPD_CH_CTL 0 0 = 1) (hup : s.m.bankPd core.ix b.val = Pd.up)
    (hidle : max 1 (s.m.inForce .spdCh core.ch.val 0 Off.SPD_PDIDLE 7 0) ≤
      (s.m.chan core.ch.val).plank + 1 - (s.m.spd core.ix).used.get 0 b.val) :
    Answers (.bankIdleExpire (.bank core b)) s fun t => BankFrame core.ix b.val s t ∧ t.m.regs = s.m.regs ∧
      t.m.bankPd core.ix b.val = Pd.waiting (s.m.spd core.ix).next := by
  have hcore : Dev.InCore core.ix s.m (s.m.setBank core.ix b.val (Pd.waiting (s.m.spd core.ix).next)) := (Dev.InCore.refl ..).modSpd _
  exact answers_done ((exec_bankIdleExpire (u := .bank core b) halive).trans (congrArg s.done (Dev.pdRequest_bank hon hup hidle))) (hcore.settled hs)
    ⟨hcore.bankFrame fun _ hk => s.m.setBank_other hk _, rfl, s.m.setBank_same ..⟩

variable {t0 : Nat} (hpd : s.m.bankPd core.ix b.val = Pd.waiting t0)
include hpd

/-- A bank that waits powers down once no earlier write is left, which is counted (R314 step 3). -/
theorem answers_bankWritesDrained_bank (hnone : s.m.bankWrites core.ix b.val t0 = []) :
    Answers (.bankWritesDrained (.bank core b)) s fun t => BankFrame core.ix b.val s t ∧ t.m.bankPd core.ix b.val = Pd.down ∧
      (s.m.rdF .spdCh core.ch.val 0 Off.PG_CTL 0 0 = 0 →
        t.m.rd64 .spdCh core.ch.val 0 Off.SPD_PDN = (s.m.rd64 .spdCh core.ch.val 0 Off.SPD_PDN + 1) % 2 ^ 64) := by
  have hdrained : s.m.pdDrained (.bank core b) = (s.m.setBank core.ix b.val Pd.down).spdCh core.ix Off.SPD_PDN 1 := by
    rw [Dev.pdDrained_bank hpd, hnone]
    exact if_pos rfl
  have hcore : Dev.InCore core.ix s.m ((s.m.setBank core.ix b.val Pd.down).spdCh core.ix Off.SPD_PDN 1) := ((Dev.InCore.refl ..).modSpd _).bump ..
  have hcount (hfree : s.m.rdF .spdCh core.ch.val 0 Off.PG_CTL 0 0 = 0) :
      ((s.m.setBank core.ix b.val Pd.down).spdCh core.ix Off.SPD_PDN 1).rd64 .spdCh core.ch.val 0 Off.SPD_PDN =
        (s.m.rd64 .spdCh core.ch.val 0 Off.SPD_PDN + 1) % 2 ^ 64 := by
    rw [← s.m.setBank_rdF core.ix b.val Pd.down] at hfree
    rw [Dev.spdCh, coreRef_ix_channel, Dev.bump_rd64 hfree Off.SPD_PDN Nat.one_ne_zero, Dev.setBank_rd64]
  refine answers_done ((exec_bankWritesDrained (u := .bank core b) halive).trans (congrArg s.done hdrained)) (hcore.settled hs)
    ⟨hcore.bankFrame fun k hk => ?_, ?_, hcount⟩
  · rw [Dev.spdCh_bankPd, Dev.setBank_other _ hk]
  · rw [Dev.spdCh_bankPd, Dev.setBank_same]

variable (hlate : s.m.bankWrites core.ix b.val t0 ≠ [])
include hlate

/-- While an earlier write is left, the bank goes on waiting. -/
theorem gives_bankWritesDrained_bank : Gives (.bankWritesDrained (.bank core b)) s s.m := by
  have hwaits : s.m.pdDrained (.bank core b) = s.m := by rw [Dev.pdDrained_bank hpd, if_neg (by simpa using hlate)]
  exact gives_done hs ((exec_bankWritesDrained (u := .bank core b) halive).trans (congrArg s.done hwaits)) rfl

/-- A bank whose writes are late at the end of its wait powers down without them, with BANK_LATE_WR (R314 step 4). -/
theorem answers_bankPdWaitExpire_bank (hwait : (s.m.spd core.ix).wait = []) (hrec : s.m.Records core.ch.val 57) (late : List Nat) :
    Answers (.bankPdWaitExpire ⟨.bank core b, late⟩) s fun t => BankFrame core.ix b.val s t ∧ t.m.bankPd core.ix b.val = Pd.down ∧
      t.m.bankWrites core.ix b.val t0 = [] ∧ bit (t.m.rd .spdCh core.ch.val 0 Off.PG_FLT) 2 = true := by
  obtain ⟨l, hstaged⟩ := s.m.lateWrites_bank (core := core) (b := b) late
  let n : Dev := { s.m with staged := l }
  let d := n.bankDown core.ix b.val (n.bankWrites core.ix b.val t0)
  have hexpired : (s.m.lateWrites late (.bank core b)).pdExpired late.length (.bank core b) = d.raise core.ch.val 57 := by
    rw [hstaged]
    exact Dev.pdExpired_bank (s := n) hpd hlate hwait hrec _
  have hdrec : d.Records core.ch.val 57 := Dev.bankDown_records (s := n) hrec ..
  have hn : Dev.InCore core.ix s.m n := ⟨rfl, rfl, rfl, rfl, rfl, fun _ _ => rfl, id⟩
  have hcore : Dev.InCore core.ix s.m (d.raise core.ch.val 57) := (hn.trans (n.bankDown_inCore ..)).raise hdrec (by decide) (by decide)
  have hspd : (d.raise core.ch.val 57).spd core.ix = d.spd core.ix := ((Dev.Noted.refl d).raise hdrec (by decide) (by decide)).spd _
  have hbank (k : Nat) : (d.raise core.ch.val 57).bankPd core.ix k = ((n.spd core.ix).banks.set Pd.up b.val Pd.down).get Pd.up k := by
    rw [Dev.bankPd, hspd, Dev.bankDown_spd]
  refine answers_done ((exec_bankPdWaitExpire (u := .bank core b) halive late).trans (congrArg s.done hexpired)) (hcore.settled hs)
    ⟨hcore.bankFrame fun k hk => ?_, ?_, ?_, d.raise_spd_bit _ (.inl rfl)⟩
  · exact (hbank k).trans (Store.get_set_other Pd.up hk ..)
  · exact (hbank b.val).trans (Store.get_set_same Pd.up ..)
  · exact (congrArg (fun p : Spd => p.ents.filter _) hspd).trans (n.bankDown_bankWrites ..)

end

end Sys2Proof.Machine
end

section
/-! Power-down of pseudo-channels and ranks, and with banks (O50). -/

namespace Sys2Proof.Machine
open Sys2Proof

/-- Recording an event that is not privileged changes a counter and, of the channel, no power of a memory unit. -/
theorem Dev.record_memPd (s : Dev) (ch : Nat) {e : Ev} (hp : e.priv = false) :
    ∃ f o, (∀ c : Chan, (f c).memPd = c.memPd) ∧ s.record ch e = (s.modChan ch f).bump .evrCh ch 0 o 1 := by
  unfold Dev.record
  dsimp only
  split
  · unfold Dev.writeRec
    simp only [hp, Bool.false_and, Bool.false_eq_true, if_false]
    exact ⟨_, _, fun _ => by rfl, rfl⟩
  · exact ⟨_, _, fun _ => by rfl, rfl⟩

theorem Dev.bump_unitPd (s : Dev) (k : PageKind) (ch i o n d j : Nat) : (s.bump k ch i o n).unitPd d j = s.unitPd d j := by
  rw [Dev.unitPd, Dev.bump_get_chan, Dev.unitPd]

theorem Dev.modChan_unitPd (s : Dev) (ch : Nat) {f : Chan → Chan} (hf : ∀ c, (f c).memPd = c.memPd) (d j : Nat) :
    (s.modChan ch f).unitPd d j = s.unitPd d j := by
  by_cases hd : d = ch
  · rw [hd, Dev.unitPd, Dev.modChan_same, hf, Dev.unitPd]
  · rw [Dev.unitPd, Dev.modChan_other _ hd, Dev.unitPd]

theorem Dev.pageMark_unitPd (s : Dev) (k : PageKind) (ch n d j : Nat) : (s.pageMark k ch n).unitPd d j = s.unitPd d j := by
  simp only [Dev.unitPd, Dev.pageMark, Dev.wr_get_chan]

/-- Raised at RECORD, a source leaves the power of every memory unit as it is. -/
theorem Dev.raise_unitPd {s : Dev} {ch ix : Nat} (hr : s.Records ch ix) (hix : ix < 96) (hn : (collector ix).2 < (collector ix).1.nsrc) (d j : Nat) :
    (s.raise ch ix).unitPd d j = s.unitPd d j := by
  let e : Ev := ⟨1 + ix, 0, ix, 8, false, false, []⟩
  obtain ⟨f, o, hf, hrecord⟩ := (s.pageMark (collector ix).1 ch (collector ix).2).record_memPd ch (e := e) rfl
  rw [Dev.raise_of_records hr hix hn, Dev.noteRaise_none, hrecord, Dev.bump_unitPd, Dev.modChan_unitPd _ _ hf, Dev.pageMark_unitPd]

/-! ### Memory units (R315) -/

/-- `u` is memory unit `k` of a channel, a pseudo-channel or a rank, and `ix` the source that its late writes set (R315, R318). -/
def IsMemUnit (u : PdTarget) (ch : ChId) (k ix : Nat) : Prop :=
  (∃ pc, u = .hbm ch pc ∧ k = pc.val ∧ ix = 58) ∨ ∃ r, u = .t2 ch r ∧ k = 128 + r.val ∧ ix = 59

@[simp] theorem Dev.setUnit_same (s : Dev) (ch k : Nat) (p : Pd) : (s.setUnit ch k p).unitPd ch k = p := by
  rw [Dev.unitPd, Dev.setUnit, Dev.modChan_same]
  exact Store.get_set_same Pd.up k p _

theorem Dev.setUnit_other (s : Dev) (ch : Nat) {k j : Nat} (h : j ≠ k) (p : Pd) : (s.setUnit ch k p).unitPd ch j = s.unitPd ch j := by
  rw [Dev.unitPd, Dev.setUnit, Dev.modChan_same]
  exact Store.get_set_other Pd.up h p _

/-- From `s` to `t` unit `k` of a channel, registers, records, sequences and frames may have changed: memory, the request table, tiles, cores and the
channel's other units stay, and no change of fault state comes to wait. -/
structure Dev.InUnit (ch k : Nat) (s t : Dev) : Prop where
  mem : t.mem = s.mem
  rqt : t.rqt = s.rqt
  tiles : t.tiles = s.tiles
  cores : t.cores = s.cores
  others : ∀ j, j ≠ k → t.unitPd ch j = s.unitPd ch j
  settled : s.Settled → t.Settled

namespace Dev.InUnit
variable {ch k : Nat} {s t : Dev}

theorem refl (ch k : Nat) (s : Dev) : InUnit ch k s s := ⟨rfl, rfl, rfl, rfl, fun _ _ => rfl, id⟩

theorem setUnit (h : InUnit ch k s t) (p : Pd) : InUnit ch k s (t.setUnit ch k p) where
  mem := h.mem
  rqt := h.rqt
  tiles := h.tiles
  cores := h.cores
  others j hj := (t.setUnit_other ch hj p).trans (h.others j hj)
  settled hs := (h.settled hs).modChan ((h.settled hs).chan ch)

theorem bump (h : InUnit ch k s t) (kind : PageKind) (d i o n : Nat) : InUnit ch k s (t.bump kind d i o n) where
  mem := (Dev.bump_mem ..).trans h.mem
  rqt := (Dev.bump_rqt ..).trans h.rqt
  tiles := (Dev.bump_tiles ..).trans h.tiles
  cores := (Dev.bump_cores ..).trans h.cores
  others j hj := (Dev.bump_unitPd ..).trans (h.others j hj)
  settled hs := (h.settled hs).of_chans (Dev.bump_chans ..)

theorem raise (h : InUnit ch k s t) {d ix : Nat} (hr : t.Records d ix) (hix : ix < 96) (hn : (collector ix).2 < (collector ix).1.nsrc) :
    InUnit ch k s (t.raise d ix) := by
  have hnoted := (Dev.Noted.refl t).raise hr hix hn
  exact ⟨hnoted.mem.trans h.mem, hnoted.rqt.trans h.rqt, hnoted.tiles.trans h.tiles, hnoted.cores.trans h.cores,
    fun j hj => (Dev.raise_unitPd hr hix hn ch j).trans (h.others j hj), fun hs => (Dev.raise_recorded_keeps (h.settled hs) hr hix hn).1⟩

end Dev.InUnit

/-- Outside unit `k` of a channel nothing but registers, records, sequences and frames has changed. -/
def UnitFrame (ch k : Nat) (s t : State) : Prop :=
  SameBytes s t ∧ t.m.rqt = s.m.rqt ∧ t.m.tiles = s.m.tiles ∧ t.m.cores = s.m.cores ∧ ∀ j, j ≠ k → t.m.unitPd ch j = s.m.unitPd ch j

theorem Dev.InUnit.unitFrame {s : State} {ch k : Nat} {m : Dev} (h : Dev.InUnit ch k s.m m) : UnitFrame ch k s { s with m := m } :=
  ⟨fun a => congrArg (·.get 0 a) h.mem, h.rqt, h.tiles, h.cores, h.others⟩

/-! ### Writes that came late (R316) -/

/-- From `s` to `t` what the module keeps of sequences and of frames may have changed, and nothing else. -/
def Dev.Unmoved (s t : Dev) : Prop := ∃ qs ms cs, t = { s with seqs := qs, mems := ms, ctxs := cs }

namespace Dev.Unmoved
variable {s t : Dev}

theorem refl (s : Dev) : s.Unmoved s := ⟨_, _, _, rfl⟩

theorem trans {u : Dev} (h : s.Unmoved t) (g : t.Unmoved u) : s.Unmoved u := by
  obtain ⟨_, _, _, rfl⟩ := h
  obtain ⟨qs, ms, cs, rfl⟩ := g
  exact ⟨qs, ms, cs, rfl⟩

theorem foldl {α : Type} {f : Dev → α → Dev} (hf : ∀ (u : Dev) a, u.Unmoved (f u a)) (l : List α) (h : s.Unmoved t) :
    s.Unmoved (l.foldl f t) := by
  induction l generalizing t with
  | nil => exact h
  | cons a l ih => exact ih (h.trans (hf t a))

theorem modSeq (h : s.Unmoved t) (r : Nat) (f : Seq → Seq) : s.Unmoved (t.modSeq r f) := h.trans ⟨_, _, _, rfl⟩

theorem freeFrames (h : s.Unmoved t) (fs : List Frame) : s.Unmoved (t.freeFrames fs) := by
  obtain ⟨ms, cs, hfreed⟩ := t.freeFrames_freed fs
  exact h.trans ⟨_, ms, cs, hfreed⟩

theorem branch {p : Prop} [Decidable p] (ht : s.Unmoved t) {u : Dev} (hu : s.Unmoved u) : s.Unmoved (if p then t else u) := by
  split
  · exact ht
  · exact hu

/-- A late write ends page moves to its frame, and the checkpoint that it was part of. -/
theorem lateWrite (h : s.Unmoved t) (f : Frame) : s.Unmoved (t.lateWrite f) := by
  have again {v w : Dev} (hw : v.Unmoved w) (p : Prop) [Decidable p] (r : Nat) (g : Seq → Seq) : v.Unmoved (if p then w.modSeq r g else w) :=
    branch (hw.modSeq r g) hw
  refine foldl (fun v r => again (branch (refl v) (foldl (fun w e => ?_) _ (refl v))) ..) _ h
  split
  · exact ((refl w).freeFrames _).modSeq ..
  · exact refl w

end Dev.Unmoved

theorem IsMemUnit.pdCh {u : PdTarget} {ch : ChId} {k ix : Nat} (hu : IsMemUnit u ch k ix) : pdCh u = ch.val := by
  rcases hu with ⟨pc, rfl, -⟩ | ⟨r, rfl, -⟩ <;> rfl

/-- The source of a memory unit's late writes is one of SPD_CH (R318). -/
theorem IsMemUnit.source {u : PdTarget} {ch : ChId} {k ix : Nat} (hu : IsMemUnit u ch k ix) : ix = 58 ∨ ix = 59 := by
  rcases hu with ⟨pc, -, -, rfl⟩ | ⟨r, -, -, rfl⟩
  · exact .inl rfl
  · exact .inr rfl

/-- A memory unit powers down, which is counted. -/
def Dev.unitDown (s : Dev) (ch k : Nat) : Dev := (s.setUnit ch k Pd.down).bump .spdCh ch 0 Off.SPD_PDN 1

theorem Dev.unitDown_inUnit {ch k : Nat} {s t : Dev} (h : Dev.InUnit ch k s t) : Dev.InUnit ch k s (t.unitDown ch k) := (h.setUnit _).bump ..

@[simp] theorem Dev.unitDown_same (s : Dev) (ch k : Nat) : (s.unitDown ch k).unitPd ch k = Pd.down := by
  rw [Dev.unitDown, Dev.bump_unitPd, Dev.setUnit_same]

section
variable {u : PdTarget} {ch : ChId} {k ix : Nat} (hu : IsMemUnit u ch k ix) (s : Dev)
include hu

/-- Late writes to a memory unit change what the module keeps of sequences and of frames. -/
theorem Dev.lateWrites_unmoved (late : List Nat) : s.Unmoved (s.lateWrites late u) := by
  rcases hu with ⟨pc, rfl, rfl, rfl⟩ | ⟨r, rfl, rfl, rfl⟩
  · simp only [Dev.lateWrites]
    split
    · exact .foldl (fun v _ => (Dev.Unmoved.refl v).lateWrite _) _ (.refl s)
    · exact .refl s
  · simp only [Dev.lateWrites]
    split
    · exact .branch (.foldl (fun v _ => ((Dev.Unmoved.refl v).lateWrite _).lateWrite _) _ (.refl s)) (.refl s)
    · exact .refl s

theorem Dev.lateWrites_nil : s.lateWrites [] u = s := by
  rcases hu with ⟨pc, rfl, rfl, rfl⟩ | ⟨r, rfl, rfl, rfl⟩
  · simp only [Dev.lateWrites, List.foldl_nil]
    split <;> rfl
  · simp only [Dev.lateWrites, List.foldl_nil, ite_self]
    split <;> rfl

variable (hthere : PdTarget.there u = true)
include hthere

theorem Dev.pdRequest_unit (hon : s.inForce .spdCh ch.val 0 Off.SPD_CH_CTL 1 1 = 1) (hup : s.unitPd ch.val k = Pd.up) :
    s.pdRequest u = s.setUnit ch.val k (Pd.waiting 0) := by
  rcases hu with ⟨pc, rfl, rfl, rfl⟩ | ⟨r, rfl, rfl, rfl⟩
  · exact if_pos ⟨hon, hup⟩
  · exact if_pos ⟨hthere, hon, hup⟩

variable {t0 : Nat} (hpd : s.unitPd ch.val k = Pd.waiting t0)
include hpd

theorem Dev.pdDrained_unit : s.pdDrained u = s.unitDown ch.val k := by
  rcases hu with ⟨pc, rfl, rfl, rfl⟩ | ⟨r, rfl, rfl, rfl⟩
  · simp only [Dev.pdDrained, hpd]
    rfl
  · simp only [Dev.pdDrained, hpd]
    exact if_pos hthere

theorem Dev.pdExpired_unit (n : Nat) : s.pdExpired n u = s.unitExpired ch.val k ix n := by
  rcases hu with ⟨pc, rfl, rfl, rfl⟩ | ⟨r, rfl, rfl, rfl⟩
  · simp only [Dev.pdExpired, hpd]
  · simp only [Dev.pdExpired, hpd]
    exact if_pos hthere

end

theorem Dev.unitExpired_none (s : Dev) (ch k ix : Nat) : s.unitExpired ch k ix 0 = s.unitDown ch k := rfl

theorem Dev.unitExpired_late (s : Dev) (ch k ix n : Nat) :
    s.unitExpired ch k ix (n + 1) = ((s.unitDown ch k).bump .spdCh ch 0 Off.SPD_DROP (n + 1)).raise ch ix := rfl

section
variable {s : State} {u : PdTarget} {ch : ChId} {k ix : Nat} (hs : s.m.Settled) (halive : s.m.alive ch.val = true) (hu : IsMemUnit u ch k ix)
  (hthere : PdTarget.there u = true)
include hs halive hu hthere

/-- An idle memory unit waits to power down (R315). -/
theorem answers_bankIdleExpire_unit (hon : s.m.inForce .spdCh ch.val 0 Off.SPD_CH_CTL 1 1 = 1) (hup : s.m.unitPd ch.val k = Pd.up) :
    Answers (.bankIdleExpire u) s fun t => UnitFrame ch.val k s t ∧ t.m.regs = s.m.regs ∧ t.m.unitPd ch.val k = Pd.waiting 0 := by
  rw [← hu.pdCh] at halive
  have hunit := (Dev.InUnit.refl ch.val k s.m).setUnit (Pd.waiting 0)
  exact answers_done ((exec_bankIdleExpire halive).trans (congrArg s.done (s.m.pdRequest_unit hu hthere hon hup))) (hunit.settled hs)
    ⟨hunit.unitFrame, rfl, s.m.setUnit_same ..⟩

variable {t0 : Nat} (hpd : s.m.unitPd ch.val k = Pd.waiting t0)
include hpd

/-- A memory unit powers down once its writes have drained (R315). -/
theorem answers_bankWritesDrained_unit : Answers (.bankWritesDrained u) s fun t => UnitFrame ch.val k s t ∧ t.m.unitPd ch.val k = Pd.down := by
  rw [← hu.pdCh] at halive
  have hunit := Dev.unitDown_inUnit (Dev.InUnit.refl ch.val k s.m)
  exact answers_done ((exec_bankWritesDrained halive).trans (congrArg s.done (s.m.pdDrained_unit hu hthere hpd))) (hunit.settled hs)
    ⟨hunit.unitFrame, s.m.unitDown_same ..⟩

/-- A memory unit without late writes powers down at the end of its wait. -/
theorem answers_bankPdWaitExpire_unit_none : Answers (.bankPdWaitExpire ⟨u, []⟩) s fun t =>
    UnitFrame ch.val k s t ∧ t.m.seqs = s.m.seqs ∧ t.m.unitPd ch.val k = Pd.down := by
  rw [← hu.pdCh] at halive
  have hunit := Dev.unitDown_inUnit (Dev.InUnit.refl ch.val k s.m)
  have hexpired : (s.m.lateWrites [] u).pdExpired 0 u = s.m.unitDown ch.val k := by
    rw [s.m.lateWrites_nil hu, s.m.pdExpired_unit hu hthere hpd, Dev.unitExpired_none]
  exact answers_done ((exec_bankPdWaitExpire halive []).trans (congrArg s.done hexpired)) (hunit.settled hs)
    ⟨hunit.unitFrame, Dev.bump_seqs .., s.m.unitDown_same ..⟩

/-- A memory unit with late writes powers down without them, and its source is raised (R315). -/
theorem answers_bankPdWaitExpire_unit_late (hrec : s.m.Records ch.val ix) (f : Nat) (late : List Nat) :
    Answers (.bankPdWaitExpire ⟨u, f :: late⟩) s fun t => UnitFrame ch.val k s t ∧ t.m.unitPd ch.val k = Pd.down ∧
      bit (t.m.rd .spdCh ch.val 0 Off.PG_FLT) (ix - 55) = true := by
  rw [← hu.pdCh] at halive
  obtain ⟨qs, ms, cs, hlate⟩ := s.m.lateWrites_unmoved hu (f :: late)
  let n : Dev := { s.m with seqs := qs, mems := ms, ctxs := cs }
  let d := (n.unitDown ch.val k).bump .spdCh ch.val 0 Off.SPD_DROP (late.length + 1)
  have hexpired : (s.m.lateWrites (f :: late) u).pdExpired (late.length + 1) u = d.raise ch.val ix := by
    rw [hlate, Dev.pdExpired_unit hu n hthere hpd, Dev.unitExpired_late]
  have hn : Dev.InUnit ch.val k s.m n := ⟨rfl, rfl, rfl, rfl, fun _ _ => rfl, id⟩
  have hset : (n.setUnit ch.val k Pd.down).Records ch.val ix := hrec.of_page fun _ _ => rfl
  have hdrec : d.Records ch.val ix := (hset.bump _ _ _ (by decide) (by decide) _).bump _ _ _ (by decide) (by decide) _
  obtain ⟨hix, hsrc⟩ : ix < 96 ∧ (collector ix).2 < (collector ix).1.nsrc := by rcases hu.source with rfl | rfl <;> decide
  have hunit : Dev.InUnit ch.val k s.m (d.raise ch.val ix) := ((Dev.unitDown_inUnit hn).bump ..).raise hdrec hix hsrc
  refine answers_done ((exec_bankPdWaitExpire halive (f :: late)).trans (congrArg s.done hexpired)) (hunit.settled hs)
    ⟨hunit.unitFrame, ?_, d.raise_spd_bit _ ?_⟩
  · change (d.raise ch.val ix).unitPd ch.val k = Pd.down
    rw [Dev.raise_unitPd hdrec hix hsrc, Dev.bump_unitPd, Dev.unitDown_same]
  · exact hu.source.elim (fun h => .inr (.inl h)) fun h => .inr (.inr (.inl h))

end

/-- Settles O50: banks by their scoreboard, memory units by the event's own list of late frames. -/
theorem idleUnitsPowerDown : Obligations.IdleUnitsPowerDown := by
  unfold Obligations.IdleUnitsPowerDown
  intro s hs
  refine ⟨fun core b halive => ⟨fun hon hup hidle => answers_bankIdleExpire_bank hs halive hon hup hidle, fun t0 hpd =>
      ⟨fun hnone => answers_bankWritesDrained_bank hs halive hpd hnone, fun hlate => ⟨gives_bankWritesDrained_bank hs halive hpd hlate,
        fun hwait hrec late => answers_bankPdWaitExpire_bank hs halive hpd hlate hwait hrec late⟩⟩⟩,
    fun ch u k ix hu hthere halive => ⟨fun hon hup => answers_bankIdleExpire_unit hs halive hu hthere hon hup, fun t0 hpd =>
      ⟨answers_bankWritesDrained_unit hs halive hu hthere hpd, answers_bankPdWaitExpire_unit_none hs halive hu hthere hpd,
        fun f late hrec => answers_bankPdWaitExpire_unit_late hs halive hu hthere hpd hrec f late⟩⟩⟩

end Sys2Proof.Machine
end

section
/-! Single steps, device memory and register words (O1, O2, O4, O7). -/

namespace Sys2Proof.Machine
open Sys2Proof

/-- Settles O1: the queue's front and its rest decide the step. -/
theorem stepRunsFront : Obligations.StepRunsFront := by
  unfold Obligations.StepRunsFront
  intro s c rest hfront
  rw [step, hfront]

/-- With nothing waiting the machine idles. -/
theorem step_of_no_command {s : State} (h : s.pending = []) : step s = .next s := by
  rw [step, h]

/-- Every state has a next one. -/
theorem exists_step (s : State) : ∃ t, step s = .next t := by
  cases hp : s.pending with
  | nil => exact ⟨s, step_of_no_command hp⟩
  | cons c rest =>
    obtain ⟨m, hm⟩ := exec_eq_done c { s with pending := rest }
    exact ⟨_, (stepRunsFront s c rest hp).trans hm⟩

/-- Settles O2: every command answers through `State.done`, which keeps the queue. -/
theorem nothingStops : Obligations.NothingStops := by
  unfold Obligations.NothingStops
  refine ⟨fun s => step_of_no_command, fun c s => ?_, fun s k t _ => exists_step t⟩
  obtain ⟨m, hm⟩ := exec_eq_done c s
  exact ⟨_, hm, rfl⟩

/-- Settles O4: the module after reset lists no channel, no byte and no word. -/
theorem resetIsSettled : Obligations.ResetIsSettled :=
  ⟨Dev.reset_settled, rfl, rfl, rfl⟩

/-! ### The canonical form of memory and registers -/

theorem Memory.wf_setByte {m : Dev} (h : Memory.wf m.mem) (a : Nat) (b : Byte) : Memory.wf (m.setByte a b).mem :=
  Store.wf_set 0 a b h

theorem Memory.wf_setBytes {m : Dev} (h : Memory.wf m.mem) (a : Nat) (bs : List Byte) : Memory.wf (m.setBytes a bs).mem := by
  induction bs generalizing m a with
  | nil => exact h
  | cons b bs ih => exact ih (Memory.wf_setByte h a b) (a + 1)

/-- A written word reads back, and a word of another place keeps its value. -/
theorem Dev.wr_rd_page (m : Dev) {p q : Page} {o r : Nat} (w : Word) (hp : p.valid = true) (hq : q.valid = true) (ho : o < 0x1000)
    (hr : r < 0x1000) :
    (m.wr p.kind p.ch p.inst o w).rd q.kind q.ch q.inst r = if p = q ∧ o = r then w else m.rd q.kind q.ch q.inst r := by
  split
  · next h => obtain ⟨rfl, rfl⟩ := h; exact Dev.wr_rd_same ..
  · next h => exact Dev.wr_rd_other _ (fun e => h (Page.base_add_inj hp hq ho hr e.symm)) _

/-- Settles O7: bytes, the canonical form, and words of pages. -/
theorem memoryAndRegistersHold : Obligations.MemoryAndRegistersHold := by
  unfold Obligations.MemoryAndRegistersHold
  refine ⟨fun m a bs => ⟨m.setBytes_bytes a bs, fun b hb => m.setBytes_byte_other hb, fun n b => m.zero_byte a n b⟩,
    ⟨fun m a bs h => Memory.wf_setBytes h a bs, fun m a n h => Store.wf_drop _ a (a + n) h, fun m a w h => Store.wf_setD _ a w h,
      fun m n hm hn h => Store.ext_wf 0 m.mem n.mem 0 hm hn h⟩,
    fun m p q o r w hp hq ho hr => m.wr_rd_page w hp hq ho hr⟩

end Sys2Proof.Machine
end

section
/-! What a virtual function can change and read outside its grant (O22), and the counter latch (O24). -/

namespace Sys2Proof
open Sys2Proof.Machine

/-! ### Offsets of one page -/

/-- Which of the groups of `j` pages from page `k` on an offset falls in depends on its page alone. -/
theorem page_group (k j : Nat) {o r : Nat} (h : o / 0x1000 = r / 0x1000) :
    (o - 0x1000 * k) / (0x1000 * j) = (r - 0x1000 * k) / (0x1000 * j) := by
  have hk : (o - 0x1000 * k) / 0x1000 = (r - 0x1000 * k) / 0x1000 := by omega
  rw [← Nat.div_div_eq_div_mul, hk, Nat.div_div_eq_div_mul]

/-- So does the page of the group. -/
theorem page_kind (k j : Nat) {o r : Nat} (h : o / 0x1000 = r / 0x1000) :
    (o - 0x1000 * k) % (0x1000 * j) / 0x1000 = (r - 0x1000 * k) % (0x1000 * j) / 0x1000 := by
  have hk : (o - 0x1000 * k) / 0x1000 = (r - 0x1000 * k) / 0x1000 := by omega
  rw [Nat.mod_mul_right_div_self, hk, Nat.mod_mul_right_div_self]

/-- The page of an offset is that of every other offset in the same 4 KiB. -/
theorem Page.ofAddr_congr {a b : Nat} (h : a / 0x1000 = b / 0x1000) : Page.ofAddr a = Page.ofAddr b := by
  have hub : a < 0x400000 ↔ b < 0x400000 := by omega
  have top : a < 0x2400000 ↔ b < 0x2400000 := by omega
  have hhub : Page.ofHub a = Page.ofHub b := by
    have hlow : a < 0x6000 ↔ b < 0x6000 := by omega
    have hcx : (0x100000 ≤ a ∧ a < 0x200000) ↔ (0x100000 ≤ b ∧ b < 0x200000) := by omega
    have hinst : (a - 0x100000) / 0x4000 = (b - 0x100000) / 0x4000 := page_group 0x100 4 h
    have hkind : (a - 0x100000) % 0x4000 / 0x1000 = (b - 0x100000) % 0x4000 / 0x1000 := page_kind 0x100 4 h
    simp only [Page.ofHub, hlow, hcx, hinst, hkind, h]
  have hwin (ch : Nat) {o r : Nat} (hor : o / 0x1000 = r / 0x1000) : Page.ofWindow ch o = Page.ofWindow ch r := by
    have hcxi : (o - 0x40000) / 0x4000 = (r - 0x40000) / 0x4000 := page_group 0x40 4 hor
    have hcxk : (o - 0x40000) % 0x4000 / 0x1000 = (r - 0x40000) % 0x4000 / 0x1000 := page_kind 0x40 4 hor
    have hcli : (o - 0x140000) / 0x4000 = (r - 0x140000) / 0x4000 := page_group 0x140 4 hor
    have hclk : (o - 0x140000) % 0x4000 / 0x1000 = (r - 0x140000) % 0x4000 / 0x1000 := page_kind 0x140 4 hor
    have hcoi : (o - 0x200000) / 0x8000 = (r - 0x200000) / 0x8000 := page_group 0x200 8 hor
    have hcok : (o - 0x200000) % 0x8000 / 0x1000 = (r - 0x200000) % 0x8000 / 0x1000 := page_kind 0x200 8 hor
    have hch : o < 0x15000 ↔ r < 0x15000 := by omega
    have hcx : (0x40000 ≤ o ∧ o < 0x140000) ↔ (0x40000 ≤ r ∧ r < 0x140000) := by omega
    have hcl : (0x140000 ≤ o ∧ o < 0x160000) ↔ (0x140000 ≤ r ∧ r < 0x160000) := by omega
    have hco : (0x200000 ≤ o ∧ o < 0x400000) ↔ (0x200000 ≤ r ∧ r < 0x400000) := by omega
    simp only [Page.ofWindow, hch, hcx, hcl, hco, hcxi, hcxk, hcli, hclk, hcoi, hcok, hor]
  have hch : a / 0x400000 = b / 0x400000 := by omega
  simp only [Page.ofAddr, hub, top, hhub, hch, hwin _ (show a % 0x400000 / 0x1000 = b % 0x400000 / 0x1000 by omega)]

/-- So is its place in a request table window, or outside one. -/
theorem rqtOfAddr_none_congr {a b : Nat} (h : a / 0x1000 = b / 0x1000) (ha : rqtOfAddr a = none) : rqtOfAddr b = none := by
  unfold rqtOfAddr at ha ⊢
  split at ha
  · simp at ha
  · rw [if_neg (by omega)]

end Sys2Proof

namespace Sys2Proof.Machine
open Sys2Proof

/-! ### A page outside a function's grant (R436, R441) -/

/-- The registers that a refused access may change: HUB_DENY and the hub's header. -/
def denyRegs (x : Nat) : Prop :=
  x = pageOff .hub 0 0 Off.HUB_DENY ∨ x = pageOff .hub 0 0 (Off.HUB_DENY + 4) ∨ x = pageOff .hub 0 0 Off.PG_FLT ∨ x = pageOff .hub 0 0 Off.PG_CNT

/-- What refused accesses may do: serving goes on, nothing leaves, and only the registers of a refusal change. -/
structure Dev.Denied (s t : Dev) : Prop where
  work : ∀ q : List Instr, SameWork ⟨q, s⟩ ⟨q, t⟩
  out : t.out = s.out
  chans : t.chans = s.chans
  regs : ∀ x, ¬ denyRegs x → t.reg x = s.reg x

theorem Dev.Denied.refl (s : Dev) : s.Denied s := ⟨fun _ => by constructor <;> rfl, rfl, rfl, fun _ _ => rfl⟩

theorem Dev.Denied.deny {s t : Dev} (h : s.Denied t) : s.Denied t.deny where
  work q := (h.work q).trans (sameWork_deny ⟨q, t⟩)
  out := t.deny_out.trans h.out
  chans := t.deny_chans.trans h.chans
  regs x hx := by
    simp only [denyRegs, not_or] at hx
    obtain ⟨hlo, hhi, hflt, hcnt⟩ := hx
    exact (Dev.hubRaise_reg_other _ _ hflt hcnt).trans ((Dev.bump_reg_other _ hlo hhi).trans (h.regs x (by simp [denyRegs, *])))

section
variable {n : Fin 63} {a : Nat} {p : Page} (hp : Page.ofAddr a = some p) (hr : rqtOfAddr a = none)
include hp hr

/-- A word write of a page that the grant does not cover is refused, where the hub answers at all. -/
theorem Dev.hostWrite_ungranted (hg : p.grantsWrite (n.val + 1) = false) (s : Dev) (w : Word) (env : WrEnv) :
    s.hostWrite (.vf n) a w env = s ∨ s.hostWrite (.vf n) a w env = s.deny := by
  by_cases hon : s.fnOn (.vf n) = true
  · exact .inr (by simp [Dev.hostWrite, hon, hr, hp, Dev.mayWrite, hg])
  · exact .inl (if_pos (by simpa using hon))

theorem Dev.refuses_ungranted (hg : p.grantsWrite (n.val + 1) = false) (s : Dev) : s.refuses (.vf n) a true = true := by
  simp [Dev.refuses, hr, hp, Dev.mayWrite, hg]

/-- Every write of such a page, of whatever size, is refused. -/
theorem Dev.denied_sizedWrite (hg : p.grantsWrite (n.val + 1) = false) (s : Dev) (size v : Nat) : s.Denied (s.sizedWrite (.vf n) a size v) := by
  have word {t : Dev} (ht : s.Denied t) {b : Nat} (hb : a / 0x1000 = b / 0x1000) (w : Word) (env : WrEnv) :
      s.Denied (t.writeWord (.vf n) b w env) := by
    rcases Dev.hostWrite_ungranted ((Page.ofAddr_congr hb).symm.trans hp) (rqtOfAddr_none_congr hb hr) hg t w env with e | e
    · exact (show t.writeWord (.vf n) b w env = t from e).symm ▸ ht
    · exact (show t.writeWord (.vf n) b w env = t.deny from e).symm ▸ ht.deny
  unfold Dev.sizedWrite
  split
  · exact word (.refl s) rfl _ _
  · split
    · next h8 => exact word (word (.refl s) rfl _ _) (by omega) _ _
    · rw [if_neg (by simp [hr])]
      split
      · exact .refl s
      · rw [if_pos (Dev.refuses_ungranted hp hr hg s)]
        exact (Dev.Denied.refl s).deny

/-- A read of a page that the grant does not cover gives 0. -/
theorem Dev.readWord_ungranted (hg : p.grantsRead (n.val + 1) = false) {s : Dev} (hon : s.fnOn (.vf n) = true) :
    s.readWord (.vf n) a = s.deny.emit (.readData (n.val + 1) a (toBytes 4 0)) := by
  simp [Dev.readWord, Dev.hostRead, hon, hr, hp, Dev.mayRead, hg, fnIx]

end

/-! ### Host writes of memory (R193, R445) -/

/-- What neither a byte of memory nor the fields that host writes have changed decide, a host write leaves alone. -/
theorem Dev.hostPoke_field {α : Type} (g : Dev → α) (hbyte : ∀ (m : Dev) a b, g (m.setByte a b) = g m)
    (htamper : ∀ (m : Dev) l, g { m with tamper := l } = g m) (s : Dev) (a : Nat) (bs : List Byte) : g (s.hostPoke a bs) = g s := by
  induction bs generalizing s a with
  | nil => rfl
  | cons b bs ih =>
    unfold Dev.hostPoke
    refine (ih ..).trans ?_
    split
    · exact htamper ..
    · exact hbyte ..

/-- A host write changes no byte outside its range. -/
theorem Dev.hostPoke_byte_other (s : Dev) {a c : Nat} {bs : List Byte} (h : c < a ∨ a + bs.length ≤ c) : (s.hostPoke a bs).byte c = s.byte c := by
  induction bs generalizing s a with
  | nil => rfl
  | cons b bs ih =>
    have hlen : (b :: bs).length = bs.length + 1 := rfl
    unfold Dev.hostPoke
    refine (ih _ (by omega)).trans ?_
    split
    · rfl
    · exact Dev.setByte_byte_other _ (by omega) b

/-- The counters that an access through BAR2 may move. -/
def bar2Regs (x : Nat) : Prop :=
  x = pageOff .hub 0 0 Off.HUB_APMISS ∨ x = pageOff .hub 0 0 (Off.HUB_APMISS + 4) ∨ x = pageOff .hub 0 0 Off.HUB_LDN ∨
    x = pageOff .hub 0 0 (Off.HUB_LDN + 4) ∨ x = pageOff .hub 0 0 Off.HUB_HALTWR ∨ x = pageOff .hub 0 0 (Off.HUB_HALTWR + 4)

/-- What a write through BAR2 may do where the window maps the `len` bytes from `base` on. -/
structure Dev.PokedIn (base len : Nat) (s t : Dev) : Prop where
  bytes : ∀ b, b < base ∨ base + len ≤ b → t.byte b = s.byte b
  rqt : t.rqt = s.rqt
  seqs : t.seqs = s.seqs
  ctxs : t.ctxs = s.ctxs
  mems : t.mems = s.mems
  tiles : t.tiles = s.tiles
  out : t.out = s.out
  chans : t.chans = s.chans
  regs : ∀ x, ¬ bar2Regs x → t.reg x = s.reg x

theorem Dev.PokedIn.refl (base len : Nat) (s : Dev) : s.PokedIn base len s :=
  ⟨fun _ _ => rfl, rfl, rfl, rfl, rfl, rfl, rfl, rfl, fun _ _ => rfl⟩

/-- Counting in one of its counters. -/
theorem Dev.PokedIn.bump (base len : Nat) (s : Dev) {o : Nat} (hlo : bar2Regs (pageOff .hub 0 0 o)) (hhi : bar2Regs (pageOff .hub 0 0 (o + 4)))
    (k : Nat) : s.PokedIn base len (s.bump .hub 0 0 o k) where
  bytes := by simp
  rqt := by simp
  seqs := by simp
  ctxs := by simp
  mems := by simp
  tiles := by simp
  out := by simp
  chans := by simp
  regs x hx := Dev.bump_reg_other s (fun e => hx (e ▸ hlo)) (fun e => hx (e ▸ hhi))

/-- A host write that stays within the range. -/
theorem Dev.PokedIn.hostPoke {base len : Nat} {s t : Dev} (h : s.PokedIn base len t) {a : Nat} {bs : List Byte} (hlo : base ≤ a)
    (hhi : a + bs.length ≤ base + len) : s.PokedIn base len (t.hostPoke a bs) where
  bytes b hb := (t.hostPoke_byte_other (by omega)).trans (h.bytes b hb)
  rqt := (t.hostPoke_field (·.rqt) (fun _ _ _ => rfl) (fun _ _ => rfl) a bs).trans h.rqt
  seqs := (t.hostPoke_field (·.seqs) (fun _ _ _ => rfl) (fun _ _ => rfl) a bs).trans h.seqs
  ctxs := (t.hostPoke_field (·.ctxs) (fun _ _ _ => rfl) (fun _ _ => rfl) a bs).trans h.ctxs
  mems := (t.hostPoke_field (·.mems) (fun _ _ _ => rfl) (fun _ _ => rfl) a bs).trans h.mems
  tiles := (t.hostPoke_field (·.tiles) (fun _ _ _ => rfl) (fun _ _ => rfl) a bs).trans h.tiles
  out := (t.hostPoke_field (·.out) (fun _ _ _ => rfl) (fun _ _ => rfl) a bs).trans h.out
  chans := (t.hostPoke_chans a bs).trans h.chans
  regs x hx := (congrArg (Store.get (regReset x) x) (t.hostPoke_field (·.regs) (fun _ _ _ => rfl) (fun _ _ => rfl) a bs)).trans (h.regs x hx)

/-- A write where the window maps `reach` bytes is cut to them. -/
theorem Dev.pokedIn_memAccess {base len d reach : Nat} (hlo : base ≤ d) (hhi : d + reach ≤ base + len) (s : Dev) (fn : Fn) (off ch : Nat)
    (bs : List Byte) : s.PokedIn base len (s.memAccess fn off ch d reach (.write bs)) := by
  have hmiss := Dev.PokedIn.bump base len s (o := Off.HUB_APMISS) (by simp [bar2Regs]) (by simp [bar2Regs]) 1
  have hlen : d + (bs.take reach).length ≤ base + len := by rw [List.length_take]; omega
  unfold Dev.memAccess
  split
  · simp_all
  · next e =>
    obtain rfl := Bar2Op.write.inj e
    split
    · exact .bump base len s (by simp [bar2Regs]) (by simp [bar2Regs]) 1
    · split
      · exact hmiss.hostPoke hlo hlen
      · exact (Dev.PokedIn.refl base len s).hostPoke hlo hlen

/-- A virtual function's write through BAR2 stays in its staging area of the window's channel. -/
theorem Dev.pokedIn_bar2 (s : Dev) (n : Fin 63) (a : Nat) (bs : List Byte) :
    s.PokedIn (s.staging (a / 2 ^ 28) (n.val + 1)).1 (s.staging (a / 2 ^ 28) (n.val + 1)).2 (s.bar2 (.vf n) a (.write bs)) := by
  set area := s.staging (a / 2 ^ 28) (n.val + 1) with harea
  have hbump {o : Nat} (hlo : bar2Regs (pageOff .hub 0 0 o)) (hhi : bar2Regs (pageOff .hub 0 0 (o + 4))) :=
    Dev.PokedIn.bump area.1 area.2 s hlo hhi 1
  unfold Dev.bar2
  dsimp only
  split
  · exact .refl ..
  split
  · exact hbump (o := Off.HUB_LDN) (by simp [bar2Regs]) (by simp [bar2Regs])
  split
  · exact hbump (o := Off.HUB_APMISS) (by simp [bar2Regs]) (by simp [bar2Regs])
  · next ch d reach hmap =>
    simp only [Dev.bar2Map, ← harea] at hmap
    split at hmap
    · next hin =>
      obtain ⟨-, -, hin⟩ := hin
      obtain ⟨rfl, rfl, rfl⟩ : a / 2 ^ 28 = ch ∧ area.1 + a % 2 ^ 28 = d ∧ area.2 - a % 2 ^ 28 = reach := by simpa using hmap
      exact Dev.pokedIn_memAccess (by omega) (by omega) s _ _ _ bs
    · exact absurd hmap (by simp)

theorem exec_counterLoRead (fn : Fn) (off : Nat) (s : State) : exec (.counterLoRead fn off) s = s.done (s.m.readWord fn off) := rfl

/-- Settles O22: writes through BAR2, writes of pages, reads of pages. -/
theorem functionsAreIsolated : Obligations.FunctionsAreIsolated := by
  unfold Obligations.FunctionsAreIsolated
  intro s n a hs
  refine ⟨fun bs => ?_, fun p hp hr => ⟨fun hg size v => ?_, fun hg hon => ?_⟩⟩
  · have h := s.m.pokedIn_bar2 n a bs
    exact answers_done (exec_bar2Access ..) (hs.of_chans h.chans) ⟨h.bytes, h.rqt, h.seqs, h.ctxs, h.mems, h.tiles, h.out, h.regs⟩
  · have h := Dev.denied_sizedWrite hp hr hg s.m (2 ^ size.val) v.toNat
    exact answers_done (exec_registerWrite ..) (hs.of_chans h.chans) ⟨h.work s.pending, h.out, h.regs⟩
  · have hm := Dev.readWord_ungranted hp hr hg hon
    refine answers_done ((exec_counterLoRead ..).trans (congrArg s.done hm)) (hs.of_chans (by simp)) ⟨?_, ?_, ?_⟩
    · exact (sameWork_deny s).trans (sameWork_emit _ _)
    · exact congrArg (· ++ [Out.readData (n.val + 1) a (toBytes 4 0)]) s.m.deny_out
    · simpa using s.m.deny_flt

/-! ### Reads of a granted page, and the counter latch (R438) -/

/-- A granted read of a word of a page reads the page, and its word leaves the module. -/
theorem Dev.readWord_granted {s : Dev} {fn : Fn} {p : Page} (hv : p.valid = true) (hr : s.Reads fn p) {o : Nat} (ho : o < 0x1000) (h4 : o % 4 = 0) :
    s.readWord fn (p.base + o) = (s.readPage p (fnIx fn) 0 o).1.says
      (.readData (fnIx fn) (p.base + o) (toBytes 4 (s.readPage p (fnIx fn) 0 o).2.toNat)) := by
  obtain ⟨hfn, hon, hmay, hup⟩ := hr
  have hword : (p.base + o) % 0x1000 / 4 * 4 = o := by rw [p.base_add_mod ho]; omega
  have hread : s.hostRead fn (p.base + o) = s.readPage p (fnIx fn) 0 o := by
    simp [Dev.hostRead, hon, rqtOfAddr_base_add hv ho, Page.ofAddr_base_add hv ho, hmay, hup, hword]
  have hdef : s.readWord fn (p.base + o) = (s.hostRead fn (p.base + o)).1.emit
      (.readData (fnIx fn) (p.base + o) (toBytes 4 (s.hostRead fn (p.base + o)).2.toNat)) := by
    cases fn with
    | mgt => exact absurd rfl hfn
    | pf0 => rfl
    | vf n => rfl
  rw [hdef, hread]
  rfl

/-- The low word of a pair is read as it is, and loads the reader's latch with the high word. -/
theorem Dev.readPage_low {p : Page} {o : Nat} (h : pairLo p.kind o = true) (s : Dev) (f rdr : Nat) : s.readPage p f rdr o =
    ({ s with latch := s.latch.set (0, 0) (latchKey p f) (o, s.pageWord p rdr (o + 4)) }, s.pageWord p rdr o) := if_pos h

/-- The high word of a pair that the reader's latch holds is read from the latch. -/
theorem Dev.readPage_high {p : Page} {o : Nat} (h : pairLo p.kind o = true) (hhi : pairLo p.kind (o + 4) = false) {s : Dev} {f : Nat} {w : Word}
    (hl : s.latch.get (0, 0) (latchKey p f) = (o, w)) (rdr : Nat) : s.readPage p f rdr (o + 4) = (s, w) := by
  rw [Dev.readPage, if_neg (by simp [hhi]), if_pos ⟨by omega, h⟩]
  dsimp only
  rw [hl]
  exact congrArg (Prod.mk s) (if_pos rfl)

/-! ### Clearing the counters of a page (R439) -/

/-- Setting registers to 0 one after the other: those named read 0, and the others keep their value. -/
theorem Dev.foldl_clear_reg (as : List Nat) (s : Dev) (x : Nat) :
    (as.foldl (fun s a => s.setReg a 0) s).reg x = if x ∈ as then 0 else s.reg x := by
  induction as generalizing s with
  | nil => rfl
  | cons a as ih =>
    rw [List.foldl_cons, ih]
    by_cases hx : x = a
    · subst hx; simp
    · rw [Dev.setReg_reg_other _ hx]; simp [hx]

/-- Nothing but registers changes. -/
theorem Dev.foldl_clear_only_regs (as : List Nat) (s : Dev) :
    as.foldl (fun s a => s.setReg a 0) s = { s with regs := (as.foldl (fun s a => s.setReg a 0) s).regs } := by
  induction as generalizing s with
  | nil => rfl
  | cons a as ih => rw [List.foldl_cons]; exact (ih _).trans rfl

/-- The offsets of a page's counters. -/
def pageCounters (k : PageKind) : List Nat := (k.rows.filter (·.ctr)).flatMap fun r => (List.range r.n).map fun i => r.off + 4 * i

theorem mem_pageCounters {k : PageKind} {o : Nat} : o ∈ pageCounters k ↔ ∃ r ∈ k.rows, r.ctr = true ∧ ∃ i, i < r.n ∧ r.off + 4 * i = o := by
  simp [pageCounters, and_assoc]

theorem row_bound (k : PageKind) : (k.rows.all fun r => r.off + 4 * r.n ≤ 0x1000) = true := by
  cases k <;> rfl

/-- Every counter stands on its page. -/
theorem pageCounters_lt (k : PageKind) : ∀ o ∈ pageCounters k, o < 0x1000 := by
  intro o ho
  obtain ⟨r, hr, -, i, hi, rfl⟩ := mem_pageCounters.1 ho
  have hrow : r.off + 4 * r.n ≤ 0x1000 := by simpa using List.all_eq_true.1 (row_bound k) r hr
  omega

/-- CNT_CLR sets PG_CNT and the counters of the page to 0, one after the other. -/
theorem Dev.clearCounters_eq (s : Dev) (p : Page) :
    s.clearCounters p = ((Off.PG_CNT :: pageCounters p.kind).map (p.base + ·)).foldl (fun s a => s.setReg a 0) s := by
  simp [Dev.clearCounters, pageCounters, List.foldl_flatMap, List.foldl_map, Nat.add_assoc]

/-- A granted write of CNT_CLR. -/
theorem answers_cntClr {s : State} (hs : s.m.Settled) {fn : Fn} {p : Page} (hv : p.valid = true) (hw : s.m.Writes fn p Off.PG_CTL) :
    Answers (.cntClr fn p.base 2) s fun r => SameWork s r ∧ r.m.rd p.kind p.ch p.inst Off.PG_CNT = 0 ∧
      (∀ row ∈ p.kind.rows, row.ctr = true → ∀ i, i < row.n → r.m.reg (p.base + row.off + 4 * i) = 0) ∧
      SameRegs s r fun a => p.base ≤ a ∧ a < p.base + 0x1000 := by
  set as := (Off.PG_CNT :: pageCounters p.kind).map (p.base + ·) with has
  obtain ⟨w, hplain⟩ : ∃ w, s.m.plainWrite p Off.PG_CTL 2 = s.m.setReg (p.base + Off.PG_CTL) w := by
    have hrow : p.kind.row Off.PG_CTL = some ⟨0x008, 1, 0, 1, 0, false⟩ := rfl
    exact ⟨_, Dev.plainWrite_of_row hrow s.m 2⟩
  have hm : s.m.put fn (p.base + Off.PG_CTL) 2 = as.foldl (fun s a => s.setReg a 0) (s.m.setReg (p.base + Off.PG_CTL) w) := by
    refine (Dev.writeWord_granted hv (by decide) (by decide) hw _ _).trans ?_
    rw [has, ← Dev.clearCounters_eq, ← hplain]
    rfl
  have honly := Dev.foldl_clear_only_regs as (s.m.setReg (p.base + Off.PG_CTL) w)
  have hreg := Dev.foldl_clear_reg as (s.m.setReg (p.base + Off.PG_CTL) w)
  have hmem {o : Nat} (ho : o = Off.PG_CNT ∨ o ∈ pageCounters p.kind) : p.base + o ∈ as :=
    List.mem_map_of_mem (List.mem_cons.2 ho)
  refine answers_done (congrArg s.done hm) (hs.of_chans (by rw [honly]; rfl)) ⟨?_, ?_, fun row hrow hctr i hi => ?_, fun a ha => ?_⟩
  · rw [honly]; constructor <;> rfl
  · exact (hreg _).trans (if_pos (hmem (.inl rfl)))
  · refine (hreg _).trans (if_pos ?_)
    rw [Nat.add_assoc]
    exact hmem (.inr (mem_pageCounters.2 ⟨row, hrow, hctr, i, hi, rfl⟩))
  · have hout : ∀ o, o < 0x1000 → a ≠ p.base + o := fun o ho e => ha ⟨by omega, by omega⟩
    refine (hreg a).trans ((if_neg fun hin => ?_).trans (Dev.setReg_reg_other _ (hout _ (by decide)) w))
    obtain ⟨o, ho, rfl⟩ := List.mem_map.1 hin
    rcases List.mem_cons.1 ho with rfl | ho
    · exact hout _ (by decide) rfl
    · exact hout _ (pageCounters_lt _ o ho) rfl

/-- Settles O24: the latch is loaded by the low word and read by the high one, and CNT_CLR clears one page. -/
theorem countersAreLatched : Obligations.CountersAreLatched := by
  unfold Obligations.CountersAreLatched
  intro s fn p o hs hv
  refine ⟨fun hr hlow ho h4 => ?_, answers_cntClr hs hv⟩
  have hm := Dev.readWord_granted hv hr (by omega : o < 0x1000) h4
  rw [Dev.readPage_low hlow] at hm
  refine answers_done ((exec_counterLoRead ..).trans (congrArg s.done hm)) (hs.of_chans rfl)
    ⟨by constructor <;> rfl, rfl, rfl, fun u hu hur hl hhigh => ?_⟩
  have hlatch : u.m.latch.get (0, 0) (latchKey p (fnIx fn)) = (o, s.m.pageWord p 0 (o + 4)) := by rw [hl]; exact Store.get_set_same ..
  have hread := Dev.readPage_high hlow hhigh hlatch 0
  have hmu := Dev.readWord_granted hv hur (by omega : o + 4 < 0x1000) (by omega)
  rw [hread] at hmu
  exact answers_done ((exec_counterLoRead ..).trans (congrArg u.done hmu)) (hu.of_chans rfl) rfl

end Sys2Proof.Machine
end

section
/-! What the management side changes: targets, recorders, monitors, firmware, registers and what leaves the module; serving goes on
(R485 to R488, R501 to R504). -/

namespace Sys2Proof

/-- What an in-band interrupt may change of a target: its summary, and what is pending. -/
def Mgt.Notified (a b : Mgt) : Prop := ∃ evs ibi, b = { a with evs := evs, ibi := ibi }

theorem Mgt.Notified.refl (a : Mgt) : a.Notified a := ⟨_, _, rfl⟩
theorem Mgt.Notified.trans {a b c : Mgt} (h : a.Notified b) (g : b.Notified c) : a.Notified c := by
  obtain ⟨_, _, rfl⟩ := h
  obtain ⟨_, _, rfl⟩ := g
  exact ⟨_, _, rfl⟩

end Sys2Proof

namespace Sys2Proof.Machine
open Sys2Proof

theorem Dev.wr64_eq_regs (s : Dev) (k : PageKind) (ch i o v : Nat) : ∃ regs, s.wr64 k ch i o v = { s with regs := regs } := ⟨_, rfl⟩

/-- A counter that is bumped changes register words and nothing else. -/
theorem Dev.bump_eq_regs (s : Dev) (k : PageKind) (ch i o n : Nat) : ∃ regs, s.bump k ch i o n = { s with regs := regs } := by
  unfold Dev.bump
  split
  · exact ⟨s.regs, rfl⟩
  · exact s.wr64_eq_regs ..

/-! ### The frame of the management side -/

/-- From `s` to `t` the management side has acted: of the registers only those in `R` may have changed, of a channel only its recorder and its
monitor, and no change of fault state comes to wait. -/
structure Dev.Aside (R : Nat → Prop) (s t : Dev) : Prop where
  shape : t = { s with out := t.out, regs := t.regs, latch := t.latch, chans := t.chans, mgts := t.mgts, fws := t.fws, ticket := t.ticket }
  reg : ∀ a, ¬ R a → t.reg a = s.reg a
  chan : ∀ j, ∃ r p, t.chan j = { s.chan j with evr := r, pemor := p }
  settled : s.Settled → t.Settled

namespace Dev.Aside
variable {R : Nat → Prop} {s t u : Dev}

theorem refl (R : Nat → Prop) (s : Dev) : s.Aside R s := ⟨rfl, fun _ _ => rfl, fun _ => ⟨_, _, rfl⟩, id⟩

theorem trans (h : s.Aside R t) (g : t.Aside R u) : s.Aside R u where
  shape := by rw [g.shape, h.shape]
  reg a ha := (g.reg a ha).trans (h.reg a ha)
  chan j := by
    obtain ⟨r, p, e⟩ := h.chan j
    obtain ⟨r', p', e'⟩ := g.chan j
    exact ⟨r', p', by rw [e', e]⟩
  settled hs := g.settled (h.settled hs)

theorem mono {Q : Nat → Prop} (h : s.Aside R t) (hq : ∀ a, R a → Q a) : s.Aside Q t :=
  ⟨h.shape, fun a ha => h.reg a fun hr => ha (hq a hr), h.chan, h.settled⟩

theorem sameWork (h : s.Aside R t) (q : List Instr) : SameWork ⟨q, s⟩ ⟨q, t⟩ := by
  rw [h.shape]; constructor <;> rfl

/-- What leaves registers and channels alone and changes nothing of the serving side. -/
theorem same (h : s.Aside R t) (hu : u = { t with out := u.out, latch := u.latch, mgts := u.mgts, fws := u.fws, ticket := u.ticket }) :
    s.Aside R u :=
  h.trans ⟨by rw [hu], fun a _ => by rw [hu]; rfl, fun j => ⟨(t.chan j).evr, (t.chan j).pemor, by rw [hu]; rfl⟩,
    fun ht => ht.of_chans (by rw [hu])⟩

theorem emit (h : s.Aside R t) (o : Out) : s.Aside R (t.emit o) := h.same (by unfold Dev.emit; split <;> rfl)
theorem said (h : s.Aside R t) (o : Out) : s.Aside R (t.says o) := h.same rfl
theorem modMgt (h : s.Aside R t) (k : Nat) (f : Mgt → Mgt) : s.Aside R (t.modMgt k f) := h.same rfl
theorem modFw (h : s.Aside R t) (k : Nat) (f : Fw → Fw) : s.Aside R (t.modFw k f) := h.same rfl
theorem draw (h : s.Aside R t) (n : Nat) : s.Aside R (t.draw n).1 := h.same rfl

theorem setReg (h : s.Aside R t) {a : Nat} (ha : R a) (w : Word) : s.Aside R (t.setReg a w) :=
  h.trans ⟨rfl, fun b hb => Dev.setReg_reg_other t (fun e : b = a => hb (e ▸ ha)) w, fun _ => ⟨_, _, rfl⟩, fun hs => hs.of_chans rfl⟩

theorem wr (h : s.Aside R t) {k : PageKind} {ch i o : Nat} (ha : R (pageOff k ch i o)) (w : Word) : s.Aside R (t.wr k ch i o w) := h.setReg ha w

theorem bump (h : s.Aside R t) {k : PageKind} {ch i o : Nat} (hlo : R (pageOff k ch i o)) (hhi : R (pageOff k ch i (o + 4))) (n : Nat) :
    s.Aside R (t.bump k ch i o n) := by
  unfold Dev.bump
  split
  · exact h
  · exact (h.wr hlo _).wr hhi _

/-- An update of a channel's recorder and monitor. -/
theorem modChan (h : s.Aside R t) {ch : Nat} {f : Chan → Chan} (hf : ∀ c, ∃ r p, f c = { c with evr := r, pemor := p }) :
    s.Aside R (t.modChan ch f) := by
  refine h.trans ⟨rfl, fun _ _ => rfl, fun j => ?_, fun ht => ht.modChan ?_⟩
  · by_cases hj : j = ch
    · subst hj
      obtain ⟨r, p, e⟩ := hf (t.chan j)
      exact ⟨r, p, (Dev.modChan_same ..).trans e⟩
    · exact ⟨_, _, Dev.modChan_other _ hj _⟩
  · obtain ⟨r, p, e⟩ := hf (t.chan ch)
    rw [e]
    exact ht.chan ch

theorem modEvr (h : s.Aside R t) (ch : Nat) (f : Recorder → Recorder) : s.Aside R (t.modEvr ch f) := h.modChan fun _ => ⟨_, _, rfl⟩
theorem modPem (h : s.Aside R t) (ch : Nat) (f : Pemor → Pemor) : s.Aside R (t.modPem ch f) := h.modChan fun _ => ⟨_, _, rfl⟩

end Dev.Aside

/-! ### In-band interrupts (R485, R486) -/

/-- From `s` to `t` targets have taken events, and nothing else has changed but what leaves the module. -/
structure Dev.Alerted (s t : Dev) : Prop where
  shape : t = { s with out := t.out, mgts := t.mgts, ticket := t.ticket }
  mgt : ∀ j, (s.mgt j).Notified (t.mgt j)

namespace Dev.Alerted
variable {s t u : Dev}

theorem refl (s : Dev) : s.Alerted s := ⟨rfl, fun _ => .refl _⟩
theorem trans (h : s.Alerted t) (g : t.Alerted u) : s.Alerted u := ⟨by rw [g.shape, h.shape], fun j => (h.mgt j).trans (g.mgt j)⟩

theorem modMgt {k : Nat} {f : Mgt → Mgt} (hf : ∀ m, Mgt.Notified m (f m)) : s.Alerted (s.modMgt k f) := by
  refine ⟨rfl, fun j => ?_⟩
  by_cases hj : j = k
  · subst hj; rw [Dev.modMgt_same]; exact hf _
  · rw [Dev.modMgt_other _ hj]; exact .refl _

theorem emit (o : Out) : s.Alerted (s.emit o) := ⟨by unfold Dev.emit; split <;> rfl, fun j => by rw [Dev.emit_get_mgt]; exact .refl _⟩

end Dev.Alerted

theorem Dev.postIbi_told (s : Dev) (t : Nat) (e : Nat × Nat × Nat × Nat) : s.Alerted (s.postIbi t e) := by
  have hpend : s.Alerted (s.modMgt t fun m => { m with ibi := some (ibiMerge (s.mgt t).ibi e) }) := .modMgt fun _ => ⟨_, _, rfl⟩
  unfold Dev.postIbi
  dsimp only
  split
  · exact hpend.trans (.emit _)
  · exact hpend

theorem Dev.raiseIbi_told (s : Dev) (t kind state cause seq : Nat) : s.Alerted (s.raiseIbi t kind state cause seq) := by
  have hevs : s.Alerted (s.modMgt t fun m => { m with evs := (m.evs.filter fun x => x.1 ≠ kind) ++ [(kind, state, cause, seq % 256)] }) :=
    .modMgt fun _ => ⟨_, _, rfl⟩
  unfold Dev.raiseIbi
  dsimp only
  split
  · exact hevs.trans (Dev.postIbi_told ..)
  · exact hevs

theorem Dev.raiseIbiBare_told (s : Dev) (t kind state cause : Nat) : s.Alerted (s.raiseIbiBare t kind state cause) :=
  Dev.Alerted.trans (t := (s.draw 256).1) ⟨rfl, fun _ => .refl _⟩ (Dev.raiseIbi_told ..)

theorem Dev.postIbi_evs (s : Dev) (t : Nat) (e : Nat × Nat × Nat × Nat) : ((s.postIbi t e).mgt t).evs = (s.mgt t).evs := by
  unfold Dev.postIbi
  dsimp only
  split <;> simp

/-- The summary of a target holds the newest event of each kind. -/
theorem Dev.raiseIbi_evs (s : Dev) (t kind state cause seq : Nat) :
    ((s.raiseIbi t kind state cause seq).mgt t).evs = ((s.mgt t).evs.filter fun x => x.1 ≠ kind) ++ [(kind, state, cause, seq % 256)] := by
  unfold Dev.raiseIbi
  dsimp only
  split
  · rw [Dev.postIbi_evs, Dev.modMgt_same]
  · rw [Dev.modMgt_same]

theorem Dev.raiseIbiBare_evs (s : Dev) (t kind state cause : Nat) :
    ∃ q, ((s.raiseIbiBare t kind state cause).mgt t).evs = ((s.mgt t).evs.filter fun x => x.1 ≠ kind) ++ [(kind, state, cause, q)] :=
  ⟨_, Dev.raiseIbi_evs ..⟩

theorem Dev.Aside.told {R : Nat → Prop} {s t u : Dev} (h : s.Aside R t) (g : t.Alerted u) : s.Aside R u := h.same (by rw [g.shape])

/-! ### Records (R501 to R504) -/

/-- The counters of a channel's recorder. -/
def recRegs (ch a : Nat) : Prop :=
  a = pageOff .evrCh ch 0 Off.EVR_REC ∨ a = pageOff .evrCh ch 0 (Off.EVR_REC + 4) ∨
  a = pageOff .evrCh ch 0 Off.EVR_SUPP ∨ a = pageOff .evrCh ch 0 (Off.EVR_SUPP + 4)

/-- From `s` to `t` a channel's recorder has taken an event. -/
structure Dev.Logged (ch : Nat) (s t : Dev) : Prop where
  shape : t = { s with out := t.out, regs := t.regs, chans := t.chans, mgts := t.mgts, ticket := t.ticket }
  reg : ∀ a, ¬ recRegs ch a → t.reg a = s.reg a
  chan : ∃ r, t.chans = (s.modChan ch fun c => { c with evr := r }).chans
  mgt : ∀ j, (s.mgt j).Notified (t.mgt j)

namespace Dev.Logged
variable {ch : Nat} {s t u : Dev}

theorem fw (h : Dev.Logged ch s t) (k : Nat) : t.fw k = s.fw k := by rw [h.shape]; rfl

theorem chan_same (h : Dev.Logged ch s t) : ∃ r, t.chan ch = { s.chan ch with evr := r } := by
  obtain ⟨r, e⟩ := h.chan
  exact ⟨r, by rw [Dev.chan, e]; exact Dev.modChan_same ..⟩

theorem chan_other (h : Dev.Logged ch s t) {j : Nat} (hj : j ≠ ch) : t.chan j = s.chan j := by
  obtain ⟨r, e⟩ := h.chan
  rw [Dev.chan, e]
  exact Dev.modChan_other _ hj _

theorem pem (h : Dev.Logged ch s t) (j : Nat) : t.pem j = s.pem j := by
  by_cases hj : j = ch
  · subst hj
    obtain ⟨r, e⟩ := h.chan_same
    rw [Dev.pem, e]
    rfl
  · exact congrArg Chan.pemor (h.chan_other hj)

theorem told (h : Dev.Logged ch s t) (g : t.Alerted u) : Dev.Logged ch s u where
  shape := by rw [g.shape, h.shape]
  reg a ha := by rw [g.shape]; exact h.reg a ha
  chan := by rw [g.shape]; exact h.chan
  mgt j := (h.mgt j).trans (g.mgt j)

theorem settled (h : Dev.Logged ch s t) (hs : s.Settled) : t.Settled := by
  obtain ⟨r, e⟩ := h.chan
  exact Dev.Settled.of_chans (hs.modChan (hs.chan ch)) e

theorem aside (h : Dev.Logged ch s t) : s.Aside (recRegs ch) t where
  shape := by rw [h.shape]
  reg := h.reg
  chan j := by
    by_cases hj : j = ch
    · subst hj
      obtain ⟨r, e⟩ := h.chan_same
      exact ⟨r, (s.chan j).pemor, e⟩
    · exact ⟨_, _, h.chan_other hj⟩
  settled := h.settled

/-- A new state of the recorder, and one of its counters. -/
theorem of_bump (s : Dev) (ch : Nat) (r : Recorder) {o : Nat} (ho : o = Off.EVR_REC ∨ o = Off.EVR_SUPP) (n : Nat) :
    Dev.Logged ch s ((s.modChan ch fun c => { c with evr := r }).bump .evrCh ch 0 o n) where
  shape := by
    obtain ⟨regs, e⟩ := (s.modChan ch fun c => { c with evr := r }).bump_eq_regs .evrCh ch 0 o n
    rw [e]
    rfl
  reg a ha := by
    simp only [recRegs, not_or] at ha
    obtain ⟨h1, h2, h3, h4⟩ := ha
    rcases ho with rfl | rfl
    · exact Dev.bump_reg_other _ h1 h2
    · exact Dev.bump_reg_other _ h3 h4
  chan := ⟨r, Dev.bump_chans ..⟩
  mgt j := by rw [Dev.bump_get_mgt]; exact .refl _

end Dev.Logged

theorem Dev.writeRec_logged (s : Dev) (ch : Nat) (e : Ev) : Dev.Logged ch s (s.writeRec ch e) := by
  unfold Dev.writeRec
  dsimp only
  split
  · exact (Dev.Logged.of_bump s ch _ (.inl rfl) 1).told (Dev.raiseIbi_told ..)
  · exact Dev.Logged.of_bump s ch _ (.inl rfl) 1

theorem Dev.record_logged (s : Dev) (ch : Nat) (e : Ev) : Dev.Logged ch s (s.record ch e) := by
  unfold Dev.record
  dsimp only
  split
  · exact s.writeRec_logged ch e
  · exact Dev.Logged.of_bump s ch _ (.inr rfl) 1

theorem Dev.Aside.record {R : Nat → Prop} {s t : Dev} (h : s.Aside R t) {ch : Nat} (hr : ∀ a, recRegs ch a → R a) (e : Ev) :
    s.Aside R (t.record ch e) := h.trans ((t.record_logged ch e).aside.mono hr)

/-! ### Requests and responses (R487, R488) -/

/-- A request that is taken: acknowledged, and counted in its channel. -/
def Dev.asked (s : Dev) (t : Nat) : Dev :=
  if t < 8 then (s.says (.i3c t true [])).bump .mgtCh t 0 Off.MGT_REQ 1 else s.says (.i3c t true [])

/-- The counters of requests and of their rejections. -/
def reqRegs (t a : Nat) : Prop :=
  a = pageOff .mgtCh t 0 Off.MGT_REQ ∨ a = pageOff .mgtCh t 0 (Off.MGT_REQ + 4) ∨
  a = pageOff .mgtCh t 0 Off.MGT_REJ ∨ a = pageOff .mgtCh t 0 (Off.MGT_REJ + 4)

theorem Dev.asked_aside (s : Dev) (t : Nat) : s.Aside (reqRegs t) (s.asked t) := by
  unfold Dev.asked
  split
  · exact ((Dev.Aside.refl _ s).said _).bump (.inl rfl) (.inr (.inl rfl)) 1
  · exact (Dev.Aside.refl _ s).said _

theorem Dev.asked_eq (s : Dev) (t : Nat) : s.asked t = { s with out := (s.asked t).out, regs := (s.asked t).regs } := by
  unfold Dev.asked
  split
  · obtain ⟨regs, e⟩ := (s.says (.i3c t true [])).bump_eq_regs .mgtCh t 0 Off.MGT_REQ 1
    rw [e]
    rfl
  · rfl

@[simp] theorem Dev.asked_mgt (s : Dev) (t j : Nat) : (s.asked t).mgt j = s.mgt j := by rw [Dev.asked_eq]; rfl
@[simp] theorem Dev.asked_chan (s : Dev) (t j : Nat) : (s.asked t).chan j = s.chan j := by rw [Dev.asked_eq]; rfl
@[simp] theorem Dev.asked_fw (s : Dev) (t k : Nat) : (s.asked t).fw k = s.fw k := by rw [Dev.asked_eq]; rfl

/-- A request to a target that serves it runs, and its result is the response. -/
theorem Dev.request_serves {s : Dev} {t len n : Nat} (h : s.Serves t len n) (tag : Nat) (boot : Bool) (run : Dev → Dev × Nat × List Byte) :
    s.request t tag len boot run = (run (s.asked t)).1.respond t tag (run (s.asked t)).2.1 (run (s.asked t)).2.2 := by
  obtain ⟨hack, hrom, hmwl, -⟩ := h
  have hmgt : (s.asked t).mgt t = s.mgt t := s.asked_mgt t t
  have hasked : (if t < 8 then (s.emit (.i3c t true [])).bump .mgtCh t 0 Off.MGT_REQ 1 else s.emit (.i3c t true [])) = s.asked t := rfl
  unfold Dev.request
  simp only [hack, hasked, hmgt, hrom]
  rw [if_neg (by simp), if_neg (by simp; omega)]

/-- What responding with a frame changes. -/
structure Dev.Answered (t : Nat) (frm : List Byte) (s u : Dev) : Prop where
  shape : u = { s with out := u.out, regs := u.regs, mgts := u.mgts, ticket := u.ticket }
  reg : ∀ a, ¬ reqRegs t a → u.reg a = s.reg a
  mgt : Mgt.Notified { s.mgt t with resp := some frm } (u.mgt t)
  others : ∀ j, j ≠ t → (s.mgt j).Notified (u.mgt j)
  evs : ∃ e, (u.mgt t).evs = ((s.mgt t).evs.filter fun x => x.1 ≠ 4) ++ [e] ∧ e.1 = 4

namespace Dev.Answered
variable {t : Nat} {frm : List Byte} {s u : Dev}

theorem resp (h : Dev.Answered t frm s u) : (u.mgt t).resp = some frm := by
  obtain ⟨_, _, e⟩ := h.mgt
  rw [e]

theorem chan (h : Dev.Answered t frm s u) (j : Nat) : u.chan j = s.chan j := by rw [h.shape]; rfl
theorem fw (h : Dev.Answered t frm s u) (k : Nat) : u.fw k = s.fw k := by rw [h.shape]; rfl

theorem aside (h : Dev.Answered t frm s u) : s.Aside (reqRegs t) u :=
  ⟨by rw [h.shape], h.reg, fun j => ⟨_, _, h.chan j⟩, fun hs => hs.of_chans (by rw [h.shape])⟩

end Dev.Answered

/-- A response that fits the read limit is kept as it is; a rejection is counted. -/
theorem Dev.respond_answered {s : Dev} {t : Nat} {payload : List Byte} (hfit : 6 + payload.length ≤ (s.mgt t).mrl) (tag status : Nat) :
    Dev.Answered t (frame status tag payload) s (s.respond t tag status payload) := by
  set kept := s.modMgt t fun m => { m with resp := some (frame status tag payload) } with hkept
  have hcount : ∀ v, v = kept ∨ v = kept.bump .mgtCh t 0 Off.MGT_REJ 1 →
      v = { s with regs := v.regs, mgts := v.mgts } ∧ (∀ a, ¬ reqRegs t a → v.reg a = s.reg a) ∧ ∀ j, v.mgt j = kept.mgt j := by
    rintro v (rfl | rfl)
    · exact ⟨rfl, fun _ _ => rfl, fun _ => rfl⟩
    · obtain ⟨regs, e⟩ := kept.bump_eq_regs .mgtCh t 0 Off.MGT_REJ 1
      refine ⟨by rw [e, hkept]; rfl, fun a ha => ?_, fun j => Dev.bump_get_mgt ..⟩
      simp only [reqRegs, not_or] at ha
      obtain ⟨-, -, hlo, hhi⟩ := ha
      exact Dev.bump_reg_other _ hlo hhi
  obtain ⟨v, hv, he⟩ : ∃ v, (v = kept ∨ v = kept.bump .mgtCh t 0 Off.MGT_REJ 1) ∧ s.respond t tag status payload = v.raiseIbiBare t 4 status tag := by
    have hover : decide ((s.mgt t).mrl < 6 + payload.length) = false := by simp; omega
    unfold Dev.respond
    simp only [hover, Bool.false_eq_true, if_false]
    split
    · exact ⟨_, .inr rfl, rfl⟩
    · exact ⟨_, .inl rfl, rfl⟩
  obtain ⟨hshape, hreg, hmgt⟩ := hcount v hv
  have htold := v.raiseIbiBare_told t 4 status tag
  rw [he]
  refine ⟨by rw [htold.shape, hshape], fun a ha => ?_, ?_, fun j hj => ?_, ?_⟩
  · rw [htold.shape]; exact hreg a ha
  · have h := htold.mgt t
    rwa [hmgt, hkept, Dev.modMgt_same] at h
  · have h := htold.mgt j
    rwa [hmgt, hkept, Dev.modMgt_other _ hj] at h
  · obtain ⟨q, hq⟩ := v.raiseIbiBare_evs t 4 status tag
    rw [hmgt, hkept, Dev.modMgt_same] at hq
    exact ⟨_, hq, rfl⟩

end Sys2Proof.Machine
end

section
/-! Common command codes and reads of the response on the management bus (O8). -/

namespace Sys2Proof.Machine
open Sys2Proof

/-! ### Direct codes (R481, R484) -/

section
variable {s : Dev} {t : Nat}

theorem Dev.cccRead_acks (h : s.tgtAcks t = true) (bs : List Byte) : s.cccRead t bs = s.says (.i3c t true bs) := if_pos h

theorem Dev.cccRead_nacks (h : s.tgtAcks t = false) (bs : List Byte) : s.cccRead t bs = s.says (.i3c t false []) :=
  if_neg (Bool.eq_false_iff.1 h)

theorem Dev.cccWrite_acks (h : s.tgtAcks t = true) (f : Dev → Nat → Dev) : s.cccWrite (some t) f = f (s.says (.i3c t true [])) t := if_pos h

theorem Dev.cccWrite_nacks (h : s.tgtAcks t = false) (f : Dev → Nat → Dev) : s.cccWrite (some t) f = s.says (.i3c t false []) :=
  if_neg (Bool.eq_false_iff.1 h)

theorem Dev.request_nacks (h : s.tgtAcks t = false) (tag len : Nat) (boot : Bool) (run : Dev → Dev × Nat × List Byte) :
    s.request t tag len boot run = s.says (.i3c t false []) := if_pos (by simp [h])

end

/-! ### Codes to every target on the bus (R482, R484) -/

/-- From `s` to `t` nothing but targets of the bus has changed, and of these only those in `l`. -/
structure Dev.Bussed (l : List Nat) (s t : Dev) : Prop where
  shape : t = { s with out := t.out, mgts := t.mgts }
  others : ∀ j, j ∉ l → t.mgt j = s.mgt j

theorem Dev.Bussed.tgtOnBus {l : List Nat} {s t : Dev} (h : s.Bussed l t) {j : Nat} (hj : j ∉ l) : t.tgtOnBus j = s.tgtOnBus j := by
  have haux : t.aux = s.aux := by rw [h.shape]
  unfold Dev.tgtOnBus
  rw [h.others j hj, haux]

theorem Dev.Bussed.modMgt (s : Dev) (k : Nat) (f : Mgt → Mgt) : s.Bussed [k] (s.modMgt k f) :=
  ⟨rfl, fun _ hj => Dev.modMgt_other _ (by simpa using hj) f⟩

theorem Dev.Bussed.sameWork {l : List Nat} {s t : Dev} (h : s.Bussed l t) (q : List Instr) : SameWork ⟨q, s⟩ ⟨q, t⟩ := by
  rw [h.shape]; constructor <;> rfl

section
variable {f : Dev → Nat → Dev} (hf : ∀ (s : Dev) (k : Nat), s.Bussed [k] (f s k))
include hf

theorem Dev.bussed_if (s : Dev) (k : Nat) : s.Bussed [k] (if s.tgtOnBus k then f s k else s) := by
  split
  · exact hf s k
  · exact ⟨rfl, fun _ _ => rfl⟩

/-- A code to every target changes only those. -/
theorem Dev.bussed_foldl (l : List Nat) (s : Dev) : s.Bussed l (l.foldl (fun s k => if s.tgtOnBus k then f s k else s) s) := by
  induction l generalizing s with
  | nil => exact ⟨rfl, fun _ _ => rfl⟩
  | cons k ks ih =>
    have hk := Dev.bussed_if hf s k
    have hks := ih (if s.tgtOnBus k then f s k else s)
    refine ⟨by rw [List.foldl_cons, hks.shape, hk.shape], fun j hj => ?_⟩
    rw [List.mem_cons, not_or] at hj
    exact (hks.others j hj.2).trans (hk.others j (by simpa using hj.1))

/-- Each target on the bus takes the code once: what one execution does to it, the code to all does. -/
theorem Dev.foldl_bus_target {P : Mgt → Mgt → Prop} {u : Nat} (hP : ∀ s, s.tgtOnBus u = true → P (s.mgt u) ((f s u).mgt u)) {l : List Nat}
    (hl : l.Nodup) (hu : u ∈ l) {s : Dev} (hon : s.tgtOnBus u = true) :
    P (s.mgt u) ((l.foldl (fun s k => if s.tgtOnBus k then f s k else s) s).mgt u) := by
  induction l generalizing s with
  | nil => exact absurd hu (by simp)
  | cons k ks ih =>
    obtain ⟨hk, hks⟩ := List.nodup_cons.1 hl
    rw [List.foldl_cons]
    by_cases hku : k = u
    · subst hku
      rw [if_pos hon, (Dev.bussed_foldl hf ks _).others k hk]
      exact hP s hon
    · have hstep := Dev.bussed_if hf s k
      have huk : u ∉ [k] := by simpa using Ne.symm hku
      have h := ih hks ((List.mem_cons.1 hu).resolve_left (Ne.symm hku)) ((hstep.tgtOnBus huk).trans hon)
      rwa [hstep.others u huk] at h

/-- A broadcast code: serving and the registers stay, and a target on the bus takes it. -/
theorem answers_broadcast {P : Mgt → Mgt → Prop} {u : Nat} (hP : ∀ s, s.tgtOnBus u = true → P (s.mgt u) ((f s u).mgt u)) {c : Instr} {s : State}
    (hs : s.m.Settled) (hc : exec c s = s.done (s.m.cccWrite none f)) (hu : u < 9) (hon : s.m.tgtOnBus u = true) :
    Answers c s fun r => (SameWork s r ∧ r.m.regs = s.m.regs) ∧ P (s.m.mgt u) (r.m.mgt u) := by
  have hb := Dev.bussed_foldl hf (List.range 9) s.m
  refine answers_done hc (hs.of_chans (by rw [show s.m.cccWrite none f = _ from hb.shape])) ⟨⟨hb.sameWork s.pending, ?_⟩, ?_⟩
  · exact (congrArg Dev.regs hb.shape).trans rfl
  · exact Dev.foldl_bus_target hf hP List.nodup_range (List.mem_range.2 hu) hon

end

theorem Dev.postIbi_bussed (s : Dev) (t : Nat) (e : Nat × Nat × Nat × Nat) : s.Bussed [t] (s.postIbi t e) := by
  have hpend := Dev.Bussed.modMgt s t fun m => { m with ibi := some (ibiMerge (s.mgt t).ibi e) }
  unfold Dev.postIbi
  dsimp only
  split
  · exact ⟨rfl, hpend.others⟩
  · exact hpend

theorem Dev.flushSummary_bussed (s : Dev) (t : Nat) : s.Bussed [t] (s.flushSummary t) := by
  unfold Dev.flushSummary
  dsimp only
  split
  · split
    · exact Dev.postIbi_bussed ..
    · exact ⟨rfl, fun _ _ => rfl⟩
  · exact ⟨rfl, fun _ _ => rfl⟩

theorem Dev.flushSummary_told (s : Dev) (t : Nat) : s.Alerted (s.flushSummary t) := by
  unfold Dev.flushSummary
  dsimp only
  split
  · split
    · exact Dev.postIbi_told ..
    · exact .refl s
  · exact .refl s

/-- An update of targets, then what it leaves to be sent. -/
theorem Dev.bussed_enable (s : Dev) (k : Nat) : s.Bussed [k] ((s.modMgt k fun m => { m with ibiEn := true }).flushSummary k) := by
  have h := Dev.Bussed.modMgt s k fun m => { m with ibiEn := true }
  have g := (s.modMgt k fun m => { m with ibiEn := true }).flushSummary_bussed k
  exact ⟨by rw [g.shape]; rfl, fun j hj => (g.others j hj).trans (h.others j hj)⟩

/-- ENEC leaves interrupts enabled, whatever it sends. -/
theorem Dev.enable_ibiEn (s : Dev) (k : Nat) : (((s.modMgt k fun m => { m with ibiEn := true }).flushSummary k).mgt k).ibiEn = true := by
  obtain ⟨_, _, e⟩ := ((s.modMgt k fun m => { m with ibiEn := true }).flushSummary_told k).mgt k
  rw [e, Dev.modMgt_same]

/-! ### An event that waited (R486) -/

theorem sortBy_eq_nil {α : Type} (le : α → α → Bool) {l : List α} (h : l = []) : sortBy le l = [] := by rw [h]; rfl

theorem Dev.flushSummary_none {s : Dev} {t : Nat} (h : (s.mgt t).evs = [] ∨ (s.mgt t).ibi.isSome = true) : s.flushSummary t = s := by
  unfold Dev.flushSummary
  dsimp only
  split
  · next e he =>
    rcases h with h | h
    · rw [sortBy_eq_nil _ h] at he; exact absurd he (by simp)
    · rw [if_neg (by simp [Option.isSome_iff_ne_none.1 h])]
  · rfl

end Sys2Proof.Machine

namespace Sys2Proof

/-- Of two writes of one key, neither of what the key reads as unlisted, the second counts. -/
theorem Store.put_put {α : Type} (k : Nat) (v w : α) (m : Store α) : (m.put k v).put k w = m.put k w := by
  induction m with
  | nil => simp [Store.put]
  | cons e m ih =>
    obtain ⟨j, u⟩ := e
    simp only [Store.put]
    split
    · simp [Store.put]
    · next hj =>
      split
      · simp [Store.put]
      · next hlt => simp [Store.put, hj, hlt, ih]

theorem Store.set_set {α : Type} [DecidableEq α] {d v w : α} (k : Nat) (hv : v ≠ d) (hw : w ≠ d) (m : Store α) :
    (m.set d k v).set d k w = m.set d k w := by
  simp only [Store.set, Store.setD, hv, hw, if_false, Store.put_put]

end Sys2Proof

namespace Sys2Proof.Machine
open Sys2Proof

/-- Two updates of a target that leave its summary, which holds an event, are one. -/
theorem Dev.modMgt_modMgt {s : Dev} {t : Nat} {f g : Mgt → Mgt} (hf : (f (s.mgt t)).evs ≠ []) (hg : (g (f (s.mgt t))).evs ≠ []) :
    (s.modMgt t f).modMgt t g = s.modMgt t fun m => g (f m) := by
  have hne : ∀ {m : Mgt}, m.evs ≠ [] → m ≠ Mgt.fresh := fun h e => h (by rw [e]; rfl)
  have hget : (s.modMgt t f).mgt t = f (s.mgt t) := Dev.modMgt_same ..
  unfold Dev.modMgt at hget ⊢
  simp only [hget, Store.set_set t (hne hf) (hne hg)]

/-- With interrupts enabled, the event of highest priority of the summary is sent where none is pending. -/
theorem Dev.enable_sends {s : Dev} {t : Nat} (hacks : s.tgtAcks t = true) {e : Nat × Nat × Nat × Nat} {es : List (Nat × Nat × Nat × Nat)}
    (he : sortBy (fun a b => decide (a.1 ≤ b.1)) (s.mgt t).evs = e :: es) (hibi : (s.mgt t).ibi = none) :
    (s.modMgt t fun m => { m with ibiEn := true }).flushSummary t =
      (s.modMgt t fun m => { m with ibiEn := true, ibi := some e }).says (.ibi t e.1 e.2.1 e.2.2.1 e.2.2.2) := by
  have hevs : (s.mgt t).evs ≠ [] := fun h => by rw [sortBy_eq_nil _ h] at he; exact absurd he (by simp)
  obtain ⟨-, hack, hrst, hda⟩ : s.aux = true ∧ (s.mgt t).acks = true ∧ (s.mgt t).restarting = false ∧ (s.mgt t).da.isSome = true := by
    simpa [Dev.tgtAcks, and_assoc] using hacks
  unfold Dev.flushSummary
  simp only [Dev.modMgt_same, he, List.head?_cons, hibi, hack, hrst, hda]
  rw [if_pos (by simp), Dev.postIbi]
  simp only [Dev.modMgt_same, hibi, ibiMerge]
  rw [if_pos (by simp), Dev.modMgt_modMgt (f := fun m => { m with ibiEn := true }) (g := fun m => { m with ibi := some e }) hevs hevs]
  rfl

/-! ### The statement -/

/-- Direct codes that read, and the read of the response. -/
theorem gives_ccc_reads {s : State} {t : MgtIx} (hs : s.m.Settled) (h : s.m.tgtAcks t.val = true) :
    Gives (.getpid t) s (s.m.says (.i3c t.val true
      (bigBytes 6 (0x5A3 * 2 ^ 33 + 0x9600 * 2 ^ 16 + t.val * 2 ^ 12 + s.m.slotId.toNat * 2 ^ 6)))) ∧
    Gives (.getbcr t) s (s.m.says (.i3c t.val true [0x0E])) ∧
    Gives (.getdcr t) s (s.m.says (.i3c t.val true [0x00])) ∧
    Gives (.getstatus t) s (s.m.says (.i3c t.val true
      [0, BitVec.ofNat 8 (s.m.summary t.val % 16 + if (s.m.mgt t.val).bootRom then 64 else 0)])) ∧
    Gives (.getmwl t) s (s.m.says (.i3c t.val true (bigBytes 2 (s.m.mgt t.val).mwl))) ∧
    Gives (.getmrl t) s (s.m.says (.i3c t.val true (bigBytes 2 (s.m.mgt t.val).mrl ++ [BitVec.ofNat 8 (s.m.mgt t.val).ibiMax]))) := by
  have gives {c : Instr} {bs : List Byte} (hc : exec c s = s.done (s.m.cccRead t.val bs)) : Gives c s (s.m.says (.i3c t.val true bs)) :=
    gives_done hs (hc.trans (congrArg s.done (Dev.cccRead_acks h bs))) rfl
  have hrom : (s.m.mgt t.val).bootRom.toNat * 64 = if (s.m.mgt t.val).bootRom then 64 else 0 := by cases (s.m.mgt t.val).bootRom <;> rfl
  exact ⟨gives rfl, gives rfl, gives rfl, hrom ▸ gives rfl, gives rfl, gives rfl⟩

/-- A read of the response gives the response that is kept. -/
theorem gives_responseRead {s : State} {t : MgtIx} (hs : s.m.Settled) (h : s.m.tgtAcks t.val = true) (r : Option (List Byte)) :
    Gives (.mgtResponseRead t) { s with m := s.m.modMgt t.val fun m => { m with resp := r } }
      ((s.m.modMgt t.val fun m => { m with resp := r }).says (.i3c t.val true (r.getD (frame Code.PENDING 0 [])))) := by
  set m := s.m.modMgt t.val fun m => { m with resp := r } with hm
  have hmgt : m.mgt t.val = { s.m.mgt t.val with resp := r } := Dev.modMgt_same ..
  have hacks : m.tgtAcks t.val = true := by
    simp only [Dev.tgtAcks, hmgt] at h ⊢
    exact h
  have hread : m.respRead t.val = m.says (.i3c t.val true (r.getD (frame Code.PENDING 0 []))) := by
    rw [Dev.respRead, Dev.cccRead_acks hacks, hmgt]
  exact gives_done (s := { s with m := m }) (hs.of_chans rfl) (congrArg (State.done { s with m := m }) hread) rfl

/-- A target that does not acknowledge its address answers no direct code and no transfer of its own. -/
theorem gives_nack {s : State} {t : MgtIx} (hs : s.m.Settled) (h : s.m.tgtAcks t.val = false) {c : Instr}
    (hc : c ∈ [Instr.getpid t, .getbcr t, .getdcr t, .getstatus t, .getmwl t, .getmrl t, .mgtResponseRead t, .enec (some t), .disec (some t)] ∨
      (∃ a, c = .setnewda t a) ∨ (∃ n, c = .setmwl (some t) n) ∨ (∃ n i, c = .setmrl (some t) n i) ∨
      (∃ tag, c ∈ [Instr.getInfo t tag, .getTime t tag, .evrClear t tag, .serviceOut t tag, .mgtRestart t tag, .getEvents t tag])) :
    Gives c s (s.m.says (.i3c t.val false [])) := by
  have gives {m : Dev} (hm : m = s.m.says (.i3c t.val false [])) (he : exec c s = s.done m) : Gives c s (s.m.says (.i3c t.val false [])) :=
    gives_done hs (he.trans (congrArg s.done hm)) rfl
  rcases hc with hc | ⟨a, rfl⟩ | ⟨n, rfl⟩ | ⟨n, i, rfl⟩ | ⟨tag, hc⟩
  · simp only [List.mem_cons, List.not_mem_nil, or_false] at hc
    rcases hc with rfl | rfl | rfl | rfl | rfl | rfl | rfl | rfl | rfl
    iterate 7 exact gives (Dev.cccRead_nacks h _) rfl
    iterate 2 exact gives (Dev.cccWrite_nacks h _) rfl
  · exact gives (Dev.cccWrite_nacks h _) rfl
  · exact gives (Dev.cccWrite_nacks h _) rfl
  · exact gives (Dev.cccWrite_nacks h _) rfl
  · simp only [List.mem_cons, List.not_mem_nil, or_false] at hc
    rcases hc with rfl | rfl | rfl | rfl | rfl | rfl
    all_goals exact gives (Dev.request_nacks h _ _ _ _) rfl

theorem Dev.entdaa_takes {s : Dev} {t : Nat} (hon : s.tgtOnBus t = true) (hda : (s.mgt t).da = none) (addr : Nat) :
    s.entdaa t addr = (s.says (.i3c t true (bigBytes 6 (s.pid t) ++ [0x0E, 0x00]))).modMgt t fun m => { m with da := some addr } :=
  if_pos ⟨hon, hda⟩

/-- Settles O8: codes that read, codes that are refused, and codes that write to one target or to all. -/
theorem managementBusAnswers : Obligations.ManagementBusAnswers := by
  unfold Obligations.ManagementBusAnswers
  refine ⟨fun s t hs h => ?_, fun s t hs h c hc => gives_nack hs h hc, fun s t addr n ibi hs => ⟨fun hon hda => ?_, fun u hu hon => ?_, fun h => ?_⟩⟩
  · obtain ⟨hpid, hbcr, hdcr, hsta, hmwl, hmrl⟩ := gives_ccc_reads hs h
    exact ⟨hpid, hbcr, hdcr, hsta, hmwl, hmrl, gives_responseRead hs h⟩
  · exact gives_done hs (congrArg s.done (Dev.entdaa_takes hon hda addr.toNat)) rfl
  · have toAll {c : Instr} (f : Mgt → Mgt) (hc : exec c s = s.done (s.m.cccWrite none fun s k => s.modMgt k f)) :=
      answers_broadcast (P := fun a b => b = f a) (fun s k => .modMgt s k f) (fun s _ => Dev.modMgt_same ..) hs hc hu hon
    refine ⟨toAll (fun m => { m with da := none }) rfl, ?_, toAll (fun m => { m with ibiEn := false }) rfl,
      toAll (fun m => { m with mwl := min 1030 n.toNat }) rfl, ?_⟩
    · exact answers_broadcast (P := fun _ b => b.ibiEn = true) Dev.bussed_enable (fun s _ => s.enable_ibiEn u) hs rfl hu hon
    · cases ibi with
      | none => exact toAll (fun m => { m with mrl := min 1030 n.toNat }) rfl
      | some k => exact toAll (fun m => { m with mrl := min 1030 n.toNat, ibiMax := min 4 k.toNat }) rfl
  · intro said
    have write {c : Instr} {f : Dev → Nat → Dev} {m : Dev} (hc : exec c s = s.done (s.m.cccWrite (some t.val) f)) (hm : f said t.val = m)
        (hch : m.chans = s.m.chans) : Gives c s m :=
      gives_done hs (hc.trans (congrArg s.done ((Dev.cccWrite_acks h f).trans hm))) hch
    refine ⟨write rfl rfl rfl, write rfl rfl rfl, fun hnone => ?_, fun e es he hibi => ?_, write rfl rfl rfl, ?_⟩
    · exact write rfl (Dev.flushSummary_none (by rw [Dev.modMgt_same]; exact hnone)) rfl
    · exact write rfl (Dev.enable_sends (s := said) h he hibi) rfl
    · cases ibi <;> exact write rfl rfl rfl

end Sys2Proof.Machine
end

section
/-! The event recorder's commands (O12). -/

namespace Sys2Proof

@[simp] theorem nth_modifyAt_same {α : Type} (d : α) (f : α → α) {i : Nat} {l : List α} (h : i < l.length) :
    nth d (modifyAt f i l) i = f (nth d l i) := by
  induction l generalizing i with
  | nil => exact absurd h (by simp)
  | cons x xs ih =>
    cases i with
    | zero => rfl
    | succ i => exact ih (Nat.lt_of_succ_lt_succ h)

theorem nth_modifyAt_other {α : Type} (d : α) (f : α → α) {i j : Nat} (h : j ≠ i) (l : List α) : nth d (modifyAt f i l) j = nth d l j := by
  induction l generalizing i j with
  | nil => cases i <;> rfl
  | cons x xs ih =>
    cases i with
    | zero =>
      cases j with
      | zero => exact absurd rfl h
      | succ j => rfl
    | succ i =>
      cases j with
      | zero => rfl
      | succ j => exact ih fun e => h (congrArg _ e)

end Sys2Proof

namespace Sys2Proof.Machine
open Sys2Proof

/-! ### A raise at RECORD, as a record (R373) -/

/-- A source raised at RECORD marks its page's header, then records. -/
theorem Dev.raise_record {s : Dev} {ch ix : Nat} (hr : s.Records ch ix) (hix : ix < 96) (hn : (collector ix).2 < (collector ix).1.nsrc) :
    s.raise ch ix = (s.pageMark (collector ix).1 ch (collector ix).2).record ch ⟨1 + ix, 0, ix, 8, false, false, []⟩ := by
  rw [Dev.raise_of_records hr hix hn, Dev.noteRaise_none]

@[simp] theorem Dev.pageMark_get_chan (s : Dev) (k : PageKind) (ch n j : Nat) : (s.pageMark k ch n).chan j = s.chan j := rfl

theorem Dev.pageMark_aside (s : Dev) (k : PageKind) (ch n : Nat) :
    s.Aside (fun a => a = pageOff k ch 0 Off.PG_FLT ∨ a = pageOff k ch 0 Off.PG_CNT) (s.pageMark k ch n) :=
  ((Dev.Aside.refl _ s).wr (.inl rfl) _).wr (.inr rfl) _

/-- A source raised at RECORD changes registers of its raise, the recorder, and no more. -/
theorem Dev.raise_aside {s : Dev} {ch ix : Nat} (hr : s.Records ch ix) (hix : ix < 96) (hn : (collector ix).2 < (collector ix).1.nsrc) :
    s.Aside (raiseRegs ch ix) (s.raise ch ix) := by
  rw [Dev.raise_record hr hix hn]
  exact ((s.pageMark_aside _ ch _).mono fun a h => h.elim .inl fun h => .inr (.inl h)).record (fun a h => .inr (.inr h)) _

/-! ### Fields of a recorder that no record changes -/

theorem Dev.Alerted.chan {s t : Dev} (h : s.Alerted t) (j : Nat) : t.chan j = s.chan j := by rw [h.shape]; rfl

theorem Dev.record_nvFail (s : Dev) (ch : Nat) (e : Ev) : ((s.record ch e).chan ch).evr.nvFail = (s.chan ch).evr.nvFail := by
  unfold Dev.record Dev.writeRec
  dsimp only
  split
  · split
    · rw [(Dev.raiseIbi_told ..).chan]; simp
    · simp
  · simp

theorem Dev.modEvr_evr (s : Dev) (ch : Nat) (f : Recorder → Recorder) : ((s.modEvr ch f).chan ch).evr = f (s.chan ch).evr :=
  congrArg Chan.evr (Dev.modChan_same ..)

/-! ### The statement -/

/-- A change of a channel's recorder alone: serving and registers stay. -/
theorem answers_modEvr {P : State → Prop} {c : Instr} {s : State} {ch : Nat} {f : Recorder → Recorder} (hs : s.m.Settled)
    (hc : exec c s = s.done (s.m.modEvr ch f)) (hp : P { s with m := s.m.modEvr ch f }) :
    Answers c s fun r => SameWork s r ∧ r.m.regs = s.m.regs ∧ P r := by
  have h := (Dev.Aside.refl (fun _ => False) s.m).modEvr ch f
  exact answers_done hc (h.settled hs) ⟨h.sameWork s.pending, rfl, hp⟩

theorem Dev.nvWrite_ok {s : Dev} {ch : Nat} (haux : s.aux = true) (hleft : (s.chan ch).evr.stored < (s.chan ch).evr.next) :
    s.nvWrite ch true = s.modEvr ch fun r => { r with stored := r.stored + 1 } := by
  unfold Dev.nvWrite
  rw [if_neg (by simp [haux]; exact hleft)]
  rfl

theorem Dev.nvWrite_fails {s : Dev} {ch : Nat} (haux : s.aux = true) (hleft : (s.chan ch).evr.stored < (s.chan ch).evr.next) :
    s.nvWrite ch false = (s.modEvr ch fun r => { r with nvFail := true }).raise ch 91 := by
  unfold Dev.nvWrite
  rw [if_neg (by simp [haux]; exact hleft)]
  rfl

/-- A write to non-volatile memory that fails is kept and raised (R501). -/
theorem answers_nvFail {s : State} {ch : ChId} (hs : s.m.Settled) (haux : s.m.aux = true)
    (hleft : (s.m.chan ch.val).evr.stored < (s.m.chan ch.val).evr.next) (hrec : s.m.Records ch.val 91) :
    Answers (.evrNvWrite ch false) s fun r => SameWork s r ∧ (r.m.chan ch.val).evr.nvFail = true ∧
      bit (r.m.rd .mgtCh ch.val 0 Off.PG_FLT) 1 = true := by
  have hrecs : (s.m.modEvr ch.val fun r => { r with nvFail := true }).Records ch.val 91 := hrec
  have h := ((Dev.Aside.refl (fun _ => False) s.m).modEvr ch.val fun r => { r with nvFail := true }).mono (Q := raiseRegs ch.val 91) (fun _ => False.elim)
  have h := h.trans (Dev.raise_aside hrecs (by decide) (by decide))
  refine answers_done (congrArg s.done (Dev.nvWrite_fails haux hleft)) (h.settled hs) ⟨h.sameWork s.pending, ?_, ?_⟩
  · change (((s.m.modEvr ch.val fun r => { r with nvFail := true }).raise ch.val 91).chan ch.val).evr.nvFail = true
    rw [Dev.raise_record hrecs (by decide) (by decide), Dev.record_nvFail, Dev.pageMark_get_chan, Dev.modEvr_evr]
  · have hdeg : ∀ t : Dev, t.degrade ch.val 91 .none = none := fun _ => rfl
    have hbit := (s.m.modEvr ch.val fun r => { r with nvFail := true }).raise_bit ch.val (by decide) (by decide) (by decide) hdeg
    have hpage : collector 91 = (.mgtCh, 1) := rfl
    rw [hpage] at hbit
    exact hbit

/-- EVR_CUR reaches the writer's own cursor (R506). -/
theorem exec_evrCurWrite {s : State} {fn : Fn} {ch : ChId} {rdr : Nat} (hfn : (fn = .pf0 ∧ rdr = 0) ∨ (fn = .mgt ∧ rdr = 1)) (w : Word) :
    (s.m.Writes fn ⟨.evrCh, ch.val, 0⟩ (Off.EVR_CUR + 4) →
      exec (.evrCurWrite fn ch true w) s = s.done (s.m.curWrite ch.val rdr true w)) ∧
    (s.m.Writes fn ⟨.evrCh, ch.val, 0⟩ Off.EVR_CUR → exec (.evrCurWrite fn ch false w) s = s.done (s.m.curWrite ch.val rdr false w)) := by
  have hrdr : writeReader fn = rdr := by rcases hfn with ⟨rfl, rfl⟩ | ⟨rfl, rfl⟩ <;> rfl
  have hv : Page.valid ⟨.evrCh, ch.val, 0⟩ = true := Page.valid_channel (by decide) ch.isLt
  refine ⟨fun hw => ?_, fun hw => ?_⟩
  · exact congrArg s.done ((Dev.put_granted hv (by decide) (by decide) hw w).trans (hrdr ▸ rfl))
  · exact congrArg s.done ((Dev.put_granted hv (by decide) (by decide) hw w).trans (hrdr ▸ rfl))

/-- Settles O12: each command changes one recorder, a failed write beside it what its raise leaves. -/
theorem recorderCommands : Obligations.RecorderCommands := by
  unfold Obligations.RecorderCommands
  intro s ch hs
  refine ⟨fun haux hleft => ?_, answers_nvFail hs, fun code haux => ?_, fun fn rdr w hfn => ⟨fun hw hlen => ?_, fun hw hlen => ?_⟩⟩
  · exact answers_modEvr hs (congrArg s.done (Dev.nvWrite_ok haux hleft)) (congrArg Recorder.stored (Dev.modEvr_evr s.m ch.val _))
  · refine answers_modEvr hs (congrArg s.done (show (s.m.only s.m.aux _) = _ by rw [haux, Dev.only_true]; rfl)) ⟨?_, fun c hc => ?_⟩
    · rw [Dev.modEvr_evr]; exact Store.get_set_same ..
    · rw [Dev.modEvr_evr]; exact Store.get_set_other _ hc _ _
  · have hrdr : rdr < 3 := by rcases hfn with ⟨-, rfl⟩ | ⟨-, rfl⟩ <;> decide
    refine answers_modEvr hs ((exec_evrCurWrite hfn w).1 hw) ⟨?_, fun k hk => ?_⟩
    · rw [Dev.cursor, Dev.evr, Dev.modEvr_evr]
      exact nth_modifyAt_same 0 _ (hlen ▸ hrdr)
    · rw [Dev.cursor, Dev.evr, Dev.modEvr_evr]
      exact nth_modifyAt_other 0 _ hk _
  · have hrdr : rdr < 3 := by rcases hfn with ⟨-, rfl⟩ | ⟨-, rfl⟩ <;> decide
    refine answers_modEvr hs ((exec_evrCurWrite hfn w).2 hw) ⟨?_, fun k => ?_⟩
    · rw [Dev.modEvr_evr]
      exact nth_modifyAt_same 0 _ (hlen ▸ hrdr)
    · rw [Dev.cursor, Dev.evr, Dev.modEvr_evr]
      rfl

end Sys2Proof.Machine
end

section
/-! What the Pemor monitor prints, and what it denies (O13). -/

namespace Sys2Proof.Machine
open Sys2Proof

/-! ### Words that management reads (R490, R510) -/

/-- A management read changes its reader's latch and nothing else. -/
theorem Dev.mgtRead_eq (s : Dev) (rdr a : Nat) : ∃ l, (s.mgtRead rdr a).1 = { s with latch := l } := by
  unfold Dev.mgtRead Dev.readPage
  split
  · exact ⟨_, rfl⟩
  · dsimp only
    split
    · split
      · exact ⟨_, rfl⟩
      · split
        · exact ⟨s.latch, rfl⟩
        · exact ⟨s.latch, rfl⟩
    · exact ⟨s.latch, rfl⟩

/-- Bytes of words, the low byte of each first. -/
def wordsBytes (ws : List Word) : List Byte := ws.flatMap fun w => toBytes 4 w.toNat

theorem Dev.foldl_mgtRead (rdr : Nat) (as : List Nat) (s : Dev) (acc : List Byte) : ∃ l ws,
    as.foldl (fun (r : Dev × List Byte) a => ((r.1.mgtRead rdr a).1, r.2 ++ toBytes 4 (r.1.mgtRead rdr a).2.toNat)) (s, acc) =
      ({ s with latch := l }, acc ++ wordsBytes ws) ∧ ws.length = as.length ∧ ws.head? = as.head?.map fun a => (s.mgtRead rdr a).2 := by
  induction as generalizing s acc with
  | nil => exact ⟨s.latch, [], by simp [wordsBytes], rfl, rfl⟩
  | cons a as ih =>
    obtain ⟨l, hl⟩ := s.mgtRead_eq rdr a
    obtain ⟨l', ws, hfold, hlen, -⟩ := ih (s.mgtRead rdr a).1 (acc ++ toBytes 4 (s.mgtRead rdr a).2.toNat)
    refine ⟨l', (s.mgtRead rdr a).2 :: ws, ?_, by simp [hlen], rfl⟩
    rw [List.foldl_cons, hfold, hl]
    simp [wordsBytes]

/-- A read of words of the target's window gives them, the first as the state holds it. -/
theorem Dev.readRegs_ok {rdr t off n : Nat} (hn : 1 ≤ n) (hmax : n ≤ 64) (h4 : off % 4 = 0) (hin : ∀ i, i < n → inWindow t (off + 4 * i) = true)
    (s : Dev) : ∃ l ws, s.readRegs rdr t off n = ({ s with latch := l }, Code.OK, wordsBytes ws) ∧ ws.length = n ∧
      ws.head? = some (s.mgtRead rdr off).2 := by
  obtain ⟨l, ws, hfold, hlen, hhead⟩ := Dev.foldl_mgtRead rdr ((List.range n).map fun i => off + 4 * i) s []
  have hall : ((List.range n).all fun i => inWindow t (off + 4 * i)) = true := by simpa using hin
  refine ⟨l, ws, ?_, by simpa using hlen, ?_⟩
  · unfold Dev.readRegs
    rw [if_neg (by simp [hall, h4]; omega)]
    rw [List.foldl_map] at hfold
    dsimp only
    rw [hfold]
    rfl
  · obtain ⟨m, rfl⟩ : ∃ m, n = m + 1 := ⟨n - 1, by omega⟩
    simpa [List.range_succ_eq_map] using hhead

/-! ### Commands of the monitor (R508 to R510) -/

section
variable {s : Dev} {ch need : Nat}

/-- A command at or below the monitor's level runs. -/
theorem Dev.pemCmd_open (h : s.PemOpen ch need) (run : Dev → Dev) : s.pemCmd ch need run = run s := by
  obtain ⟨hon, hrom, hlevel⟩ := h
  unfold Dev.pemCmd
  rw [if_neg (by simp [hon]), if_neg (by simp [hrom]; exact hlevel)]

/-- A command above it, or in boot ROM mode, is denied. -/
theorem Dev.pemCmd_denied (hon : s.pemOn ch = true) (h : (s.mgt ch).bootRom = true ∨ lvl (s.pem ch).level < need) (run : Dev → Dev) :
    s.pemCmd ch need run = s.says (.uart ch "denied" []) := by
  unfold Dev.pemCmd
  rw [if_neg (by simp [hon]), if_pos h]
  rfl

end

/-- Words of four bytes each are read back from their bytes. -/
theorem ofBytes_wordsBytes (ws : List Word) {i : Nat} (hi : i < ws.length) :
    ofBytes (((wordsBytes ws).drop (4 * i)).take 4) = (ws[i]).toNat := by
  induction ws generalizing i with
  | nil => exact absurd hi (by simp)
  | cons w ws ih =>
    have hlen : (toBytes 4 w.toNat).length = 4 := by simp [toBytes]
    cases i with
    | zero =>
      have htake : (wordsBytes (w :: ws)).take 4 = toBytes 4 w.toNat := by simp [wordsBytes, hlen]
      rw [Nat.mul_zero, List.drop_zero, htake, ofBytes_toBytes]
      exact Nat.mod_eq_of_lt w.isLt
    | succ i =>
      have hdrop : (wordsBytes (w :: ws)).drop (4 * (i + 1)) = (wordsBytes ws).drop (4 * i) := by
        rw [wordsBytes, List.flatMap_cons, Nat.mul_succ, Nat.add_comm, ← List.drop_drop, List.drop_left' hlen, wordsBytes]
      rw [hdrop]
      exact ih (Nat.lt_of_succ_lt_succ hi)

theorem answers_pemorRd {s : State} {ch : ChId} (hs : s.m.Settled) (h : s.m.PemOpen ch.val 1) {off n : Nat} (hn : 1 ≤ n) (hmax : n ≤ 64)
    (h4 : off % 4 = 0) (hin : ∀ i, i < n → inWindow ch.val (off + 4 * i) = true) :
    Answers (.pemorRd ch off n) s fun r => SameWork s r ∧ r.m.regs = s.m.regs ∧
      ∃ ws, ws.length = n ∧ ws.head? = some (s.m.mgtRead 2 off).2.toNat ∧ r.m.out = s.m.out ++ [.uart ch.val "rd" ws] := by
  obtain ⟨l, ws, hread, hlen, hhead⟩ := Dev.readRegs_ok (rdr := 2) hn hmax h4 hin s.m
  set ns := (List.range n).map fun i => ofBytes (((wordsBytes ws).drop (4 * i)).take 4) with hns
  have hm : s.m.pemRead ch.val off n = ({ s.m with latch := l } : Dev).says (.uart ch.val "rd" ns) := by
    refine (Dev.pemCmd_open h _).trans ?_
    rw [hread]
    rfl
  have hfirst : ns.head? = some (s.m.mgtRead 2 off).2.toNat := by
    obtain ⟨m, rfl⟩ : ∃ m, n = m + 1 := ⟨n - 1, by omega⟩
    have h0 : ws[0]'(by omega) = (s.m.mgtRead 2 off).2 := by simpa [List.head?_eq_getElem?, List.getElem?_eq_getElem, hlen] using hhead
    rw [hns, List.range_succ_eq_map, List.map_cons, List.head?_cons, ofBytes_wordsBytes ws (by omega), h0]
  exact answers_done (congrArg s.done hm) (hs.of_chans rfl) ⟨by constructor <;> rfl, rfl, ns, by simp [hns], hfirst, rfl⟩

/-- Records are printed, and the Pemor cursor moves past them (R506). -/
theorem answers_pemorEvr {s : State} {ch : ChId} (hs : s.m.Settled) (h : s.m.PemOpen ch.val 1) {q n : Nat} (hn : 1 ≤ n) (hmax : n ≤ 32)
    (hlen : (s.m.chan ch.val).evr.cursors.length = 3) :
    Answers (.pemorEvr ch (some q) (some n)) s fun r => SameWork s r ∧
      r.m.out = s.m.out ++ [.uart ch.val "evr" (((s.m.recsFrom ch.val q n).flatMap recBytes).map (·.toNat))] ∧
      r.m.cursor ch.val 0 = s.m.cursor ch.val 0 ∧
      r.m.cursor ch.val 2 = (match (s.m.recsFrom ch.val q n).getLast? with | some x => x.seq + 1 | none => q) % 2 ^ 48 := by
  set next := (match (s.m.recsFrom ch.val q n).getLast? with | some x => x.seq + 1 | none => q) % 2 ^ 48 with hnext
  set m := s.m.modEvr ch.val fun r => { r with cursors := modifyAt (fun _ => next) 2 r.cursors } with hmdef
  have hm : s.m.pemEvr ch.val (some q) (some n) =
      m.says (.uart ch.val "evr" (((s.m.recsFrom ch.val q n).flatMap recBytes).map (·.toNat))) := by
    refine (Dev.pemCmd_open h _).trans ?_
    exact if_neg (by simp; omega)
  have haside := ((Dev.Aside.refl (fun _ => False) s.m).modEvr ch.val fun r => { r with cursors := modifyAt (fun _ => next) 2 r.cursors })
  have hcur : ∀ k, m.cursor ch.val k = nth 0 (modifyAt (fun _ => next) 2 (s.m.chan ch.val).evr.cursors) k := fun k => by
    rw [hmdef, Dev.cursor, Dev.evr, Dev.modEvr_evr]
  refine answers_done (congrArg s.done hm) ((haside.said _).settled hs) ⟨(haside.said _).sameWork s.pending, rfl, ?_, ?_⟩
  · exact (hcur 0).trans (nth_modifyAt_other 0 _ (by decide) _)
  · exact (hcur 2).trans (nth_modifyAt_same 0 _ (by rw [hlen]; decide))

/-- Commands that only print. -/
theorem gives_pemor_prints {s : State} {ch : ChId} (hs : s.m.Settled) (h : s.m.PemOpen ch.val 1) :
    Gives (.pemorStatus ch) s (s.m.says (.uart ch.val "status"
      [s.m.fltState ch.val, fld (s.m.pageWord ⟨.thmCh, ch.val, 0⟩ 2 Off.THM_CH_STA) 2 0, s.m.cstate ch.val, (s.m.chReady ch.val).toNat])) ∧
    ∀ cl : ClId, Gives (.pemorMon ch cl) s (s.m.says (.uart ch.val "mon"
      ((List.range 16).map fun i => (s.m.pageWord ⟨.mon, ch.val, cl.val⟩ 2 (Off.MON_RES + 4 * i)).toNat))) :=
  ⟨gives_done hs (congrArg s.done (Dev.pemCmd_open h _)) rfl, fun _ => gives_done hs (congrArg s.done (Dev.pemCmd_open h _)) rfl⟩

theorem gives_pemorBaud {s : State} {ch : ChId} (hs : s.m.Settled) (h : s.m.PemOpen ch.val 1) {rate : Nat}
    (hrate : rate ∈ [115200, 460800, 921600, 1500000, 3000000]) :
    Gives (.pemorBaud ch rate) s ((s.m.says (.uart ch.val "baud" [rate])).modPem ch.val fun p => { p with baud := rate }) := by
  have hm : s.m.pemBaud ch.val rate = (s.m.says (.uart ch.val "baud" [rate])).modPem ch.val fun p => { p with baud := rate } :=
    (Dev.pemCmd_open h _).trans (if_pos (List.contains_iff_mem.2 hrate))
  have haside := ((Dev.Aside.refl (fun _ => False) s.m).said (.uart ch.val "baud" [rate])).modPem ch.val fun p => { p with baud := rate }
  exact (congrArg s.done hm).trans (s.done_of_settled (haside.settled hs))

theorem gives_pemorMem {s : State} {ch : ChId} (hs : s.m.Settled) (h : s.m.PemOpen ch.val 2) {addr : Word64} {n : Nat} (hn : 1 ≤ n) (hmax : n ≤ 256)
    (hch : addr.toNat / 2 ^ 46 = ch.val) (htier : addr.toNat / 2 ^ 44 % 4 ≤ 1) (hin : addr.toNat % 2 ^ 44 + n ≤ tierBytes (addr.toNat / 2 ^ 44 % 4)) :
    Gives (.pemorMem ch addr n) s (s.m.says (.uart ch.val "mem" ((s.m.viewBytes addr.toNat n).map (·.toNat)))) := by
  have hm : s.m.pemMem ch.val addr.toNat n = s.m.says (.uart ch.val "mem" ((s.m.viewBytes addr.toNat n).map (·.toNat))) :=
    (Dev.pemCmd_open h _).trans (if_neg (by rw [hch]; omega))
  exact gives_done hs (congrArg s.done hm) rfl

/-- A command that needs a level the monitor is not at is denied. -/
theorem gives_denied {s : State} {ch : ChId} (hs : s.m.Settled) (hon : s.m.pemOn ch.val = true) {need : Nat}
    (h : (s.m.mgt ch.val).bootRom = true ∨ lvl (s.m.pem ch.val).level < need) {c : Instr} {run : Dev → Dev}
    (hc : exec c s = s.done (s.m.pemCmd ch.val need run)) : Gives c s (s.m.says (.uart ch.val "denied" [])) :=
  gives_done hs (hc.trans (congrArg s.done (Dev.pemCmd_denied hon h run))) rfl

/-- Settles O13: what each command prints at its level, and that it is denied above the monitor's level. -/
theorem pemorPrintsAndDenies : Obligations.PemorPrintsAndDenies := by
  unfold Obligations.PemorPrintsAndDenies
  refine ⟨fun s ch hs => ⟨fun hon => ?_, fun h => ?_, fun h addr n hn hmax hch htier hin => gives_pemorMem hs h hn hmax hch htier hin⟩,
    fun s ch hs hon => ⟨fun h c hc => ?_, fun h c hc => ?_, fun hen level => ?_⟩⟩
  · exact gives_done hs (congrArg s.done (if_pos hon)) rfl
  · obtain ⟨hstatus, hmon⟩ := gives_pemor_prints hs h
    exact ⟨hstatus, fun _ _ hn hmax h4 hin => answers_pemorRd hs h hn hmax h4 hin, fun _ _ hn hmax hlen => answers_pemorEvr hs h hn hmax hlen, hmon,
      fun _ hrate => gives_pemorBaud hs h hrate⟩
  · have hlow {need : Nat} (hneed : 0 < need) : (s.m.mgt ch.val).bootRom = true ∨ lvl (s.m.pem ch.val).level < need :=
      h.imp_right fun hl => by rw [hl]; exact hneed
    have one := hlow Nat.one_pos
    have two := hlow Nat.two_pos
    simp only [List.mem_cons, List.not_mem_nil, or_false] at hc
    rcases hc with (rfl | rfl | rfl) | ⟨o, n, rfl⟩ | ⟨q, n, rfl⟩ | ⟨cl, rfl⟩ | ⟨b, rfl⟩ | ⟨o, w, rfl⟩ | ⟨i, rfl⟩ | ⟨a, n, rfl⟩
    · exact gives_denied hs hon one rfl
    · exact gives_denied hs hon two rfl
    · exact gives_denied hs hon two rfl
    · exact gives_denied hs hon one rfl
    · exact gives_denied hs hon one rfl
    · exact gives_denied hs hon one rfl
    · exact gives_denied hs hon one rfl
    · exact gives_denied hs hon two rfl
    · exact gives_denied hs hon two rfl
    · exact gives_denied hs hon two rfl
  · have two : (s.m.mgt ch.val).bootRom = true ∨ lvl (s.m.pem ch.val).level < 2 := .inr (by rw [h]; decide)
    simp only [List.mem_cons, List.not_mem_nil, or_false] at hc
    rcases hc with (rfl | rfl) | ⟨o, w, rfl⟩ | ⟨i, rfl⟩ | ⟨a, n, rfl⟩ <;> exact gives_denied hs hon two rfl
  · by_cases hrom : (s.m.mgt ch.val).bootRom = true
    · exact gives_denied hs hon (.inl hrom) rfl
    · have hopen : s.m.PemOpen ch.val 0 := ⟨hon, by simpa using hrom, Nat.zero_le _⟩
      exact gives_done hs (congrArg s.done ((Dev.pemCmd_open hopen _).trans (if_pos (.inl hen)))) rfl

end Sys2Proof.Machine
end

section
/-! Requests that read, attestation, and in-band interrupts (O9). -/

namespace Sys2Proof.Machine
open Sys2Proof

/-! ### A request that a target serves -/

theorem Dev.raiseIbiBare_regs (s : Dev) (t kind state cause : Nat) : (s.raiseIbiBare t kind state cause).regs = s.regs := by
  rw [(s.raiseIbiBare_told t kind state cause).shape]

/-- A response that is no rejection changes no register. -/
theorem Dev.respond_regs {s : Dev} {t : Nat} {payload : List Byte} (hfit : 6 + payload.length ≤ (s.mgt t).mrl) {status : Nat}
    (h : status ≠ Code.RANGE ∧ status ≠ Code.REJECTED) (tag : Nat) : (s.respond t tag status payload).regs = s.regs := by
  have hover : decide ((s.mgt t).mrl < 6 + payload.length) = false := by simp; omega
  unfold Dev.respond
  simp only [hover, Bool.false_eq_true, if_false]
  rw [if_neg (by simp [h]), Dev.raiseIbiBare_regs]
  rfl

/-- A served request: what it does beside its channel's work, then its response. -/
theorem answers_request {c : Instr} {s : State} {t tag len n : Nat} {boot : Bool} {run : Dev → Dev × Nat × List Byte} (hs : s.m.Settled)
    (h : s.m.Serves t len n) (hc : exec c s = s.done (s.m.request t tag len boot run)) {R : Nat → Prop}
    (haside : (s.m.asked t).Aside R (run (s.m.asked t)).1) (hmrl : ((run (s.m.asked t)).1.mgt t).mrl = (s.m.mgt t).mrl)
    (hlen : (run (s.m.asked t)).2.2.length ≤ n) {P : State → Prop}
    (hP : ∀ r, Dev.Answered t (frame (run (s.m.asked t)).2.1 tag (run (s.m.asked t)).2.2) (run (s.m.asked t)).1 r →
      r = (run (s.m.asked t)).1.respond t tag (run (s.m.asked t)).2.1 (run (s.m.asked t)).2.2 → P { s with m := r }) :
    Answers c s fun r => SameWork s r ∧ P r := by
  have hanswered := Dev.respond_answered (s := (run (s.m.asked t)).1) (t := t) (payload := (run (s.m.asked t)).2.2)
    (by rw [hmrl]; have := h.2.2.2; omega) tag (run (s.m.asked t)).2.1
  have hall := ((s.m.asked_aside t).mono (Q := fun _ => True) fun _ _ => trivial).trans
    ((haside.mono fun _ _ => trivial).trans (hanswered.aside.mono fun _ _ => trivial))
  exact answers_done (hc.trans (congrArg s.done (Dev.request_serves h tag boot run))) (hall.settled hs)
    ⟨hall.sameWork s.pending, hP _ hanswered rfl⟩

/-- A served request that only reads. -/
theorem answers_reading {c : Instr} {s : State} {t tag len n : Nat} {boot : Bool} {status : Nat} {payload : List Byte}
    {run : Dev → Dev × Nat × List Byte} (hs : s.m.Settled) (h : s.m.Serves t len n) (hc : exec c s = s.done (s.m.request t tag len boot run))
    (hrun : run (s.m.asked t) = (s.m.asked t, status, payload)) (hlen : payload.length ≤ n) :
    Answers c s fun r => SameWork s r ∧ (r.m.mgt t).resp = some (frame status tag payload) := by
  refine answers_request hs h hc (R := fun _ => False) (by rw [hrun]; exact .refl _ _) (by rw [hrun]; simp) (by rw [hrun]; exact hlen) ?_
  intro r hr _
  rw [hrun] at hr
  exact hr.resp

/-! ### What is read -/

theorem Dev.asked_calendar (s : Dev) (t j : Nat) : (s.asked t).calendar j = s.calendar j := by rw [Dev.asked_eq]; rfl
theorem Dev.asked_summary (s : Dev) (t j : Nat) : (s.asked t).summary j = s.summary j := by rw [Dev.asked_eq]; rfl
theorem Dev.asked_recsFrom (s : Dev) (t ch first n : Nat) : (s.asked t).recsFrom ch first n = s.recsFrom ch first n := by rw [Dev.asked_eq]; rfl

/-- A word of another page of the channel stays over a request. -/
theorem Dev.asked_rd (s : Dev) {t : Nat} (ht : t < 8) {k : PageKind} (hk : k ∈ channelKinds) (hne : PageKind.mgtCh ≠ k) {o : Nat} (ho : o < 0x1000) :
    (s.asked t).rd k t 0 o = s.rd k t 0 o := by
  rw [Dev.asked, if_pos ht]
  exact Dev.bump_rd_page (Page.valid_channel (by decide) ht) (Page.valid_channel hk ht) hne (by decide) ho _ _

theorem Dev.asked_infoOf (s : Dev) (t : Nat) : (s.asked t).infoOf t = s.infoOf t := by
  unfold Dev.infoOf
  by_cases ht : t < 8
  · have htherm (cl : Nat) : (s.asked t).therm cl = s.therm cl := by rw [Dev.asked_eq]; rfl
    have hpid : (s.asked t).pid t = s.pid t := by rw [Dev.asked_eq]; rfl
    simp only [if_pos ht, hpid, htherm, s.asked_rd ht (k := .fltCh) (by decide) (by decide) (by decide : Off.FLT_STA < 0x1000),
      s.asked_rd ht (k := .pwrCh) (by decide) (by decide) (by decide : Off.PWR_CH_STA < 0x1000)]
  · simp only [if_neg ht, Dev.asked]
    rfl

theorem length_recBytes (r : EvRec) : (recBytes r).length = 32 := by simp [recBytes]

theorem length_recsFrom_le (s : Dev) (ch first n : Nat) : (s.recsFrom ch first n).length ≤ n := by
  simpa [Dev.recsFrom] using List.length_filterMap_le (fun i => s.recAt ch (first + i)) (List.range n)

theorem length_flatMap_recBytes (rs : List EvRec) : (rs.flatMap recBytes).length = 32 * rs.length := by
  induction rs with
  | nil => rfl
  | cons r rs ih => simp [length_recBytes, ih]; omega

/-- EVR_READ of up to 31 records (R506). -/
theorem Dev.readEvr_ok {t n : Nat} (ht : t < 8) (hn : 1 ≤ n) (hmax : n ≤ 31) (s : Dev) (first : Nat) : s.readEvr t first n =
    (s, Code.OK, BitVec.ofNat 8 (s.recsFrom t first n).length :: (s.recsFrom t first n).flatMap recBytes) := by
  have hlen := length_recsFrom_le s t first n
  unfold Dev.readEvr
  rw [if_neg (by omega), List.take_of_length_le (by omega)]

/-! ### Attestation (R499, R500) -/

theorem length_shaRound (v : List W64) (kw : W64 × W64) : (shaRound v kw).length = v.length := by
  unfold shaRound
  split
  · rfl
  · rfl

theorem length_foldl_shaRound (kws : List (W64 × W64)) (v : List W64) : (kws.foldl shaRound v).length = v.length := by
  induction kws generalizing v with
  | nil => rfl
  | cons kw kws ih => rw [List.foldl_cons, ih, length_shaRound]

theorem length_shaBlock (h : List W64) (b : List Byte) : (shaBlock h b).length = h.length := by
  unfold shaBlock
  simp [length_foldl_shaRound]

theorem length_foldl_shaBlock {α : Type} (f : α → List Byte) (is : List α) (h : List W64) :
    (is.foldl (fun h i => shaBlock h (f i)) h).length = h.length := by
  induction is generalizing h with
  | nil => rfl
  | cons i is ih => rw [List.foldl_cons, ih, length_shaBlock]

theorem length_flatten_words (ws : List W64) : ((ws.map fun w => (toBytes 8 w.toNat).reverse).flatten).length = 8 * ws.length := by
  induction ws with
  | nil => rfl
  | cons w ws ih => simp only [List.map_cons, List.flatten_cons, List.length_append, List.length_reverse, length_toBytes, List.length_cons, ih]; omega

/-- A digest holds 64 bytes. -/
theorem length_sha512 (m : List Byte) : (sha512 m).length = 64 := by
  unfold sha512
  dsimp only
  rw [length_flatten_words, length_foldl_shaBlock (fun i => ((shaPad m).drop (128 * i)).take 128)]
  rfl

/-- Filled up to a length and cut to it, a list has it. -/
theorem length_take_fill {α : Type} (l : List α) (n : Nat) (d : α) : ((l ++ List.replicate n d).take n).length = n := by simp

theorem length_fwEntry (s : Dev) (ch i : Nat) : (s.fwEntry ch i).length = 72 := by
  have hmeas : (s.measOf ch i).length = 64 := by
    unfold Dev.measOf measBytes
    split <;> exact length_take_fill ..
  unfold Dev.fwEntry
  dsimp only
  rw [List.length_append, hmeas]
  split <;> simp

/-- What a report holds up to its nonce (R499). -/
def reportHead (s : Dev) (ch : Nat) : List Byte :=
  toBytes 4 0x54414B47 ++ toBytes 2 1 ++ toBytes 1 ch ++ toBytes 1 s.slotId.toNat ++ (Config.serial ++ List.replicate 16 0).take 16 ++
    [0xB1#8, 0xB1#8] ++ List.replicate 6 0

theorem length_reportHead (s : Dev) (ch : Nat) : (reportHead s ch).length = 32 := by
  simp only [reportHead, List.length_append, length_toBytes, length_take_fill, List.length_replicate, List.length_cons, List.length_nil]

/-- A report is its head, the nonce, and 384 bytes more. -/
theorem Dev.reportBody_parts (s : Dev) (ch : Nat) (nonce : List Byte) : ∃ rest, rest.length = 384 ∧
    s.reportBody ch nonce = reportHead s ch ++ ((nonce ++ List.replicate 32 0).take 32 ++ rest) := by
  refine ⟨_, ?_, by unfold Dev.reportBody reportHead; simp only [List.append_assoc]; rfl⟩
  simp [length_fwEntry, length_sha512, Dev.configDigest]

/-- A report over a nonce: 448 bytes that begin with the mark of R499 and carry the nonce. -/
theorem Dev.reportBody_spec (s : Dev) (ch : Nat) {nonce : List Byte} (hn : nonce.length = 32) : (s.reportBody ch nonce).length = 448 ∧
    (s.reportBody ch nonce).take 4 = [0x47, 0x4B, 0x41, 0x54] ∧ ((s.reportBody ch nonce).drop 0x20).take 32 = nonce := by
  obtain ⟨rest, hrest, hbody⟩ := s.reportBody_parts ch nonce
  have hnonce : (nonce ++ List.replicate 32 0).take 32 = nonce := List.take_left' hn
  rw [hnonce] at hbody
  refine ⟨by simp [hbody, length_reportHead, hn, hrest], by rw [hbody]; rfl, ?_⟩
  rw [hbody, List.drop_left' (length_reportHead s ch), List.take_left' hn]

theorem Dev.attestCmd_ok {t : Nat} (ht : t < 8) {nonce : List Byte} (hn : nonce.length = 32) (s : Dev) : s.attestCmd t nonce =
    ((s.modMgt t fun m => { m with reports := m.reports + 1 }).bump .secCh t 0 Off.SEC_ATT 1, Code.OK,
      s.reportBody t nonce ++ (Config.idSign t (s.reportBody t nonce) ++ List.replicate 64 0).take 64) := if_neg (by omega)

theorem answers_attest {s : State} {ch : ChId} {tag : Byte} (hs : s.m.Settled) {nonce : List Byte} (hn : nonce.length = 32)
    (h : s.m.Serves ch.val 32 512) :
    Answers (.attest ⟨ch.val, by omega⟩ tag nonce) s fun r => SameWork s r ∧ (r.m.mgt ch.val).reports = (s.m.mgt ch.val).reports + 1 ∧
      ∃ body sig : List Byte, sig.length = 64 ∧ (r.m.mgt ch.val).resp = some (frame Code.OK tag.toNat (body ++ sig)) ∧
        body.take 4 = [0x47, 0x4B, 0x41, 0x54] ∧ (body.drop 0x20).take 32 = nonce := by
  set a := s.m.asked ch.val with ha
  obtain ⟨hlen, hmark, hnonce⟩ := a.reportBody_spec ch.val hn
  have hrun := Dev.attestCmd_ok ch.isLt hn a
  have hserves : s.m.Serves ch.val nonce.length 512 := by rw [hn]; exact h
  have hmgt : ((a.modMgt ch.val fun m => { m with reports := m.reports + 1 }).bump .secCh ch.val 0 Off.SEC_ATT 1).mgt ch.val =
      { s.m.mgt ch.val with reports := (s.m.mgt ch.val).reports + 1 } := by
    rw [Dev.bump_get_mgt, Dev.modMgt_same, ha, Dev.asked_mgt]
  have haside := ((Dev.Aside.refl (fun _ => True) a).modMgt ch.val fun m => { m with reports := m.reports + 1 }).bump
    (k := .secCh) (ch := ch.val) (i := 0) (o := Off.SEC_ATT) trivial trivial 1
  refine answers_request hs hserves rfl (by rw [hrun]; exact haside) (by rw [hrun, hmgt]) ?_ ?_
  · rw [hrun, List.length_append, hlen, length_take_fill]
  · intro r hr _
    rw [hrun] at hr
    obtain ⟨_, _, e⟩ := hr.mgt
    refine ⟨?_, _, _, length_take_fill .., hr.resp, hmark, hnonce⟩
    change (r.mgt ch.val).reports = _
    rw [e]
    exact congrArg Mgt.reports hmgt

/-! ### Words of the window (R490) -/

theorem length_wordsBytes (ws : List Word) : (wordsBytes ws).length = 4 * ws.length := by
  induction ws with
  | nil => rfl
  | cons w ws ih => simp only [wordsBytes, List.flatMap_cons, List.length_append, length_toBytes, List.length_cons] at ih ⊢; omega

theorem answers_readReg {s : State} {ch : ChId} {tag : Byte} (hs : s.m.Settled) {off n : Nat} (hn : 1 ≤ n) (hmax : n ≤ 64) (h4 : off % 4 = 0)
    (hin : ∀ i, i < n → inWindow ch.val (off + 4 * i) = true) (h : s.m.Serves ch.val 5 (4 * n)) :
    Answers (.readReg ⟨ch.val, by omega⟩ tag off n) s fun r => SameWork s r ∧ ∃ ws : List Word, ws.length = n ∧
      (r.m.mgt ch.val).resp = some (frame Code.OK tag.toNat (wordsBytes ws)) ∧ ws.head? = some ((s.m.asked ch.val).mgtRead 1 off).2 := by
  obtain ⟨l, ws, hread, hlen, hhead⟩ := Dev.readRegs_ok (rdr := 1) hn hmax h4 hin (s.m.asked ch.val)
  refine answers_request hs h rfl (R := fun _ => False) (by rw [hread]; exact (Dev.Aside.refl _ _).same rfl) ?_ ?_ ?_
  · rw [hread]
    exact congrArg Mgt.mrl (s.m.asked_mgt ch.val ch.val)
  · rw [hread]
    exact (length_wordsBytes ws).trans_le (by omega)
  · intro r hr _
    rw [hread] at hr
    exact ⟨ws, hlen, hr.resp, hhead⟩

/-- A word of a page that no view answers, and that is in no pair, is read as it is stored. -/
theorem Dev.mgtRead_stored {s : Dev} {p : Page} {o : Nat} (hv : p.valid = true) (hup : s.mgtUp p = true) (ho : o < 0x1000) (h4 : o % 4 = 0)
    (hlo : pairLo p.kind o = false) (hhi : pairLo p.kind (o - 4) = false) (rdr : Nat) : (s.mgtRead rdr (p.base + o)).2 = s.pageWord p rdr o := by
  have hword : (p.base + o) % 0x1000 / 4 * 4 = o := by rw [p.base_add_mod ho]; omega
  simp [Dev.mgtRead, Page.ofAddr_base_add hv ho, hup, hword, Dev.readPage, hlo, hhi]

/-- KVP_CKPT is read as it is stored. -/
theorem Dev.asked_mgtRead_ckpt {s : Dev} {ch : ChId} (hup : s.mgtUp ⟨.kvpCh, ch.val, 0⟩ = true) :
    ((s.asked ch.val).mgtRead 1 (pageOff .kvpCh ch.val 0 Off.KVP_CKPT)).2 = s.rd .kvpCh ch.val 0 Off.KVP_CKPT := by
  have hc : (s.asked ch.val).cstate ch.val = s.cstate ch.val :=
    congrArg (fld · 1 0) (s.asked_rd ch.isLt (k := .pwrCh) (by decide) (by decide) (by decide : Off.PWR_CH_STA < 0x1000))
  have hvin : (s.asked ch.val).vin = s.vin := by rw [Dev.asked_eq]
  have hup' : (s.asked ch.val).mgtUp ⟨.kvpCh, ch.val, 0⟩ = true := by
    rw [Dev.mgtUp] at hup ⊢
    rw [hc, hvin]
    exact hup
  have hread := Dev.mgtRead_stored (Page.valid_channel (by decide) ch.isLt) hup' (by decide : Off.KVP_CKPT < 0x1000) (by decide) rfl rfl 1
  exact hread.trans (s.asked_rd ch.isLt (by decide) (by decide) (by decide))

theorem inWindow_channel {k : PageKind} (hk : k ∈ channelKinds) (ch : ChId) {o : Nat} (ho : o < 0x1000) :
    inWindow ch.val (pageOff k ch.val 0 o) = true := by
  have hpage : Page.ofAddr (pageOff k ch.val 0 o) = some ⟨k, ch.val, 0⟩ := Page.ofAddr_base_add (Page.valid_channel hk ch.isLt) ho
  have hhub : k.inHub = false := by fin_cases hk <;> rfl
  simp [inWindow, hpage, hhub]

theorem answers_readReg_ckpt {s : State} {ch : ChId} {tag : Byte} (hs : s.m.Settled) (h : s.m.Serves ch.val 5 4) :
    Answers (.readReg ⟨ch.val, by omega⟩ tag (pageOff .kvpCh ch.val 0 Off.KVP_CKPT) 1) s fun r => SameWork s r ∧
      (s.m.mgtUp ⟨.kvpCh, ch.val, 0⟩ = true →
        (r.m.mgt ch.val).resp = some (frame Code.OK tag.toNat (toBytes 4 (s.m.rd .kvpCh ch.val 0 Off.KVP_CKPT).toNat))) := by
  have hin : ∀ i, i < 1 → inWindow ch.val (pageOff .kvpCh ch.val 0 Off.KVP_CKPT + 4 * i) = true := fun i hi => by
    obtain rfl : i = 0 := by omega
    exact inWindow_channel (by decide) ch (by decide)
  have h4 : pageOff .kvpCh ch.val 0 Off.KVP_CKPT % 4 = 0 := (Page.base_add_mod_four _ _).trans (by decide)
  obtain ⟨r, hr, hwork, ws, hlen, hresp, hhead⟩ := answers_readReg (tag := tag) hs (Nat.le_refl 1) (by decide) h4 hin h
  refine ⟨r, hr, hwork, fun hup => ?_⟩
  obtain ⟨w, rfl⟩ := List.length_eq_one_iff.1 hlen
  rw [hresp, wordsBytes, List.flatMap_singleton, Option.some.inj hhead, Dev.asked_mgtRead_ckpt hup]

/-! ### Sending an interrupt again (R486) -/

theorem Dev.ibiAgain_pending {s : Dev} {t k st cause seq : Nat} (hacks : s.tgtAcks t = true) (hen : (s.mgt t).ibiEn = true)
    (hibi : (s.mgt t).ibi = some (k, st, cause, seq)) (accepted : Bool) : s.ibiAgain t accepted =
      if accepted then
        let u := (s.says (.ibi t k st cause seq)).modMgt t fun m => { m with ibi := none }
        if t < 8 then u.bump .mgtCh t 0 Off.MGT_IBI 1 else u
      else s.says (.ibi t k st cause seq) := by
  unfold Dev.ibiAgain
  dsimp only
  rw [hibi]
  exact if_neg (by simp [hacks, hen])

theorem answers_ibiAccepted {s : State} {t : MgtIx} {k st cause seq : Nat} (hs : s.m.Settled) (hacks : s.m.tgtAcks t.val = true)
    (hen : (s.m.mgt t.val).ibiEn = true) (hibi : (s.m.mgt t.val).ibi = some (k, st, cause, seq)) :
    Answers (.ibiRetry t true) s fun r =>
      r.m.out = s.m.out ++ [.ibi t.val k st cause seq] ∧ (r.m.mgt t.val).ibi = none ∧ SameWork s r ∧
      (t.val < 8 → s.m.rdF .mgtCh t.val 0 Off.PG_CTL 0 0 = 0 →
        r.m.rd64 .mgtCh t.val 0 Off.MGT_IBI = (s.m.rd64 .mgtCh t.val 0 Off.MGT_IBI + 1) % 2 ^ 64) := by
  set u := (s.m.says (.ibi t.val k st cause seq)).modMgt t.val fun m => { m with ibi := none } with hu
  have hm := Dev.ibiAgain_pending hacks hen hibi true
  have hnone : (u.mgt t.val).ibi = none := congrArg Mgt.ibi (Dev.modMgt_same ..)
  have hside := ((Dev.Aside.refl (fun _ => True) s.m).said (.ibi t.val k st cause seq)).modMgt t.val fun m => { m with ibi := none }
  by_cases ht : t.val < 8
  · replace hm : s.m.ibiAgain t.val true = u.bump .mgtCh t.val 0 Off.MGT_IBI 1 := hm.trans (if_pos ht)
    have hall := hside.bump (k := .mgtCh) (ch := t.val) (i := 0) (o := Off.MGT_IBI) trivial trivial 1
    refine answers_done (congrArg s.done hm) (hall.settled hs) ⟨Dev.bump_out .., ?_, hall.sameWork s.pending, fun _ hctl => ?_⟩
    · exact (congrArg Mgt.ibi (Dev.bump_get_mgt ..)).trans hnone
    · exact Dev.bump_rd64 (s := u) hctl Off.MGT_IBI one_ne_zero
  · replace hm : s.m.ibiAgain t.val true = u := hm.trans (if_neg ht)
    exact answers_done (congrArg s.done hm) (hside.settled hs) ⟨rfl, hnone, hside.sameWork s.pending, fun h => absurd h ht⟩

/-! ### The statement -/

/-- The summary of a target holds its response alone once GET_EVENTS has cleared it. -/
theorem answers_getEvents {s : State} {t : MgtIx} {tag : Byte} (hs : s.m.Settled) (h : s.m.Serves t.val 0 1) :
    Answers (.getEvents t tag) s fun r => SameWork s r ∧
      (r.m.mgt t.val).resp = some (frame Code.OK tag.toNat [BitVec.ofNat 8 (s.m.summary t.val)]) ∧ r.m.summary t.val = 2 ^ 3 := by
  have hrun : (s.m.asked t.val).eventsCmd t.val =
      ((s.m.asked t.val).modMgt t.val fun m => { m with evs := [] }, Code.OK, [BitVec.ofNat 8 (s.m.summary t.val)]) := by
    rw [Dev.eventsCmd, Dev.asked_summary]
  have hside := (Dev.Aside.refl (fun _ => False) (s.m.asked t.val)).modMgt t.val fun m => { m with evs := [] }
  refine answers_request hs h rfl (by rw [hrun]; exact hside) ?_ (by rw [hrun]; exact Nat.le_refl 1) ?_
  · rw [hrun, Dev.modMgt_same, Dev.asked_mgt]
  · intro r hr _
    rw [hrun] at hr
    have hresp := hr.resp
    obtain ⟨e, hevs, he⟩ := hr.evs
    rw [Dev.modMgt_same] at hevs
    refine ⟨hresp, ?_⟩
    change r.summary t.val = 2 ^ 3
    rw [Dev.summary, hevs]
    simp [he, List.eraseDups_cons]

/-- GET_INFO counts in MGT_REQ, where the counters of the page run. -/
theorem answers_getInfo {s : State} {t : MgtIx} {tag : Byte} (hs : s.m.Settled) (h : s.m.Serves t.val 0 (s.m.infoOf t.val).length)
    (ht : t.val < 8) (hctl : s.m.rdF .mgtCh t.val 0 Off.PG_CTL 0 0 = 0) :
    Answers (.getInfo t tag) s fun r => SameWork s r ∧ (r.m.mgt t.val).resp = some (frame Code.OK tag.toNat (s.m.infoOf t.val)) ∧
      r.m.rd64 .mgtCh t.val 0 Off.MGT_REQ = (s.m.rd64 .mgtCh t.val 0 Off.MGT_REQ + 1) % 2 ^ 64 := by
  have hinfo := s.m.asked_infoOf t.val
  refine answers_request hs h rfl (.refl (fun _ => False) _) (by simp) (by dsimp only; rw [hinfo]) ?_
  intro r hr hdef
  have hresp := hr.resp
  dsimp only at hresp hdef
  rw [hinfo] at hresp hdef
  refine ⟨hresp, ?_⟩
  have hregs : r.regs = (s.m.asked t.val).regs := by
    rw [hdef]
    exact Dev.respond_regs (by rw [Dev.asked_mgt]; exact h.2.2.2) (by decide) _
  have hcount : (s.m.asked t.val).rd64 .mgtCh t.val 0 Off.MGT_REQ = (s.m.rd64 .mgtCh t.val 0 Off.MGT_REQ + 1) % 2 ^ 64 := by
    rw [Dev.asked, if_pos ht]
    exact Dev.bump_rd64 (s := s.m.says (.i3c t.val true [])) hctl Off.MGT_REQ one_ne_zero
  rw [← hcount]
  simp only [Dev.rd64, Dev.rd, Dev.reg, hregs]

/-- Settles O9: requests that read, the report, words of the window, and the interrupt that is sent again. -/
theorem managementReads : Obligations.ManagementReads := by
  unfold Obligations.ManagementReads
  refine ⟨fun s t tag hs => ⟨fun h => ?_, answers_getEvents hs, fun h ht hctl => answers_getInfo hs h ht hctl, fun ix off ht hix h => ?_,
    fun first n ht hn hmax h => ?_, fun op crc len h => ?_⟩, fun s ch tag hs => ?_,
    fun s t k st cause seq hs hacks hen hibi => ⟨?_, answers_ibiAccepted hs hacks hen hibi⟩⟩
  · have hcal := s.m.asked_calendar t.val t.val
    have hset : toBytes 1 ((s.m.asked t.val).mgt t.val).tset.toNat = [if (s.m.mgt t.val).tset then 1 else 0] := by
      rw [Dev.asked_mgt]; cases (s.m.mgt t.val).tset <;> rfl
    exact answers_reading hs h rfl (by rw [hcal, hset]) (by simp)
  · exact answers_reading hs h rfl (if_neg (by omega)) (Nat.le_refl _)
  · refine answers_reading hs h rfl ((Dev.readEvr_ok ht hn hmax _ first).trans (by rw [Dev.asked_recsFrom])) ?_
    have hle := length_recsFrom_le s.m t.val first n
    rw [List.length_cons, length_flatMap_recBytes]
    omega
  · exact answers_reading hs h rfl rfl (Nat.le_refl 0)
  · intro t
    refine ⟨fun nonce hn h => answers_attest hs hn h, fun off n hn hmax h4 hin h => ?_, answers_readReg_ckpt hs⟩
    have hasked : s.m.asked ch.val = (s.m.says (.i3c ch.val true [])).bump .mgtCh ch.val 0 Off.MGT_REQ 1 := if_pos ch.isLt
    obtain ⟨r, hr, hwork, ws, hlen, hresp, hhead⟩ := answers_readReg (tag := tag) hs hn hmax h4 hin h
    exact ⟨r, hr, hwork, ws, hlen, hresp, hasked ▸ hhead⟩
  · exact gives_done hs (congrArg s.done (Dev.ibiAgain_pending hacks hen hibi false)) rfl

end Sys2Proof.Machine
end

section
/-! Unlocking the Pemor monitor, and its commands of level FULL (O14). -/

namespace Sys2Proof.Machine
open Sys2Proof

/-! ### Raises with a mark FORCED, at RECORD (R373, R439) -/

theorem Dev.raiseAt_record {s : Dev} {ch ix : Nat} (hr : s.Records ch ix) (hix : ix < 96) (hn : (collector ix).2 < (collector ix).1.nsrc)
    (forced : Bool) (data : List Nat) : s.raiseAt ch ix forced .none data =
      (s.pageMark (collector ix).1 ch (collector ix).2).record ch ⟨1 + ix, 0, ix, 8, false, forced, data⟩ := by
  have hsev : s.sevOf ch ix = 0 := hr
  rw [← Dev.noteRaise_none, Dev.raiseAt]
  simp only
  rw [if_neg (by omega), hsev]
  rfl

/-- A raise at RECORD, forced or not, leaves the serving side and the monitors alone, and its sticky bit set. -/
theorem Dev.raiseAt_recorded {s : Dev} {ch ix : Nat} (hr : s.Records ch ix) (hix : ix < 96) (hn : (collector ix).2 < (collector ix).1.nsrc)
    (h32 : (collector ix).2 < 32) (forced : Bool) (data : List Nat) : s.Aside (raiseRegs ch ix) (s.raiseAt ch ix forced .none data) ∧
      bit ((s.raiseAt ch ix forced .none data).rd (collector ix).1 ch 0 Off.PG_FLT) (collector ix).2 = true ∧
      ∀ j, (s.raiseAt ch ix forced .none data).pem j = s.pem j := by
  set m := s.pageMark (collector ix).1 ch (collector ix).2 with hm
  rw [Dev.raiseAt_record hr hix hn, ← hm]
  set e : Ev := ⟨1 + ix, 0, ix, 8, false, forced, data⟩
  refine ⟨?_, ?_, fun j => ?_⟩
  · exact ((s.pageMark_aside _ ch _).mono fun a h => h.elim .inl fun h => .inr (.inl h)).record (fun a h => .inr (.inr h)) e
  · rw [((Dev.SameFlags.refl m).record ch e).rd]
    exact s.pageMark_bit _ ch h32
  · rw [(m.record_logged ch e).pem]
    exact congrArg Chan.pemor (Dev.pageMark_get_chan ..)

/-- What a recorder takes leaves the words of every other kind of page alone. -/
theorem Dev.Logged.rd {ch : Nat} {s t : Dev} (h : Dev.Logged ch s t) (hch : ch < 8) {k : PageKind} {c i o : Nat}
    (hv : Page.valid ⟨k, c, i⟩ = true) (hne : k ≠ .evrCh) (ho : o < 0x1000) : t.rd k c i o = s.rd k c i o := by
  have hother : ∀ q, q < 0x1000 → pageOff k c i o ≠ pageOff .evrCh ch 0 q := fun q hq e =>
    hne (congrArg Page.kind (Page.base_add_inj hv (Page.valid_channel (by decide) hch) ho hq e).1)
  refine h.reg _ ?_
  unfold recRegs
  rintro (e | e | e | e)
  · exact hother _ (by decide) e
  · exact hother _ (by decide) e
  · exact hother _ (by decide) e
  · exact hother _ (by decide) e

/-! ### The monitor's own state -/

theorem Dev.modPem_same (s : Dev) (ch : Nat) (f : Pemor → Pemor) : (s.modPem ch f).pem ch = f (s.pem ch) :=
  congrArg Chan.pemor (Dev.modChan_same ..)

theorem Dev.pemRecord_pem (s : Dev) (ch code level path j : Nat) : (s.pemRecord ch code level path).pem j = s.pem j :=
  (s.record_logged ch _).pem j

theorem Dev.pemRecord_aside (s : Dev) (ch code level path : Nat) : s.Aside (fun _ => True) (s.pemRecord ch code level path) :=
  (Dev.Aside.refl _ s).record (fun _ _ => trivial) _

/-- A bump leaves the monitors alone. -/
theorem Dev.bump_pem (s : Dev) (k : PageKind) (ch i o n j : Nat) : (s.bump k ch i o n).pem j = s.pem j := congrArg Chan.pemor (Dev.bump_get_chan ..)

theorem Dev.says_pem (s : Dev) (o : Out) (j : Nat) : (s.says o).pem j = s.pem j := rfl

/-- What changes the monitor of a channel beside serving gives its answer. -/
theorem answers_aside {P : State → Prop} {c : Instr} {s : State} {m : Dev} {R : Nat → Prop} (hs : s.m.Settled) (hc : exec c s = s.done m)
    (h : s.m.Aside R m) (hp : P { s with m := m }) : Answers c s fun r => SameWork s r ∧ P r :=
  answers_done hc (h.settled hs) ⟨h.sameWork s.pending, hp⟩

/-- Return to LOCKED closes JTAG too (R509). -/
theorem Dev.relock_spec (s : Dev) (ch : Nat) : s.Aside (fun _ => True) (s.relock ch) ∧ ((s.relock ch).pem ch).level = .locked ∧
    ((s.relock ch).pem ch).jtag = false := by
  have hpem := s.modPem_same ch fun p => { p with level := .locked, jtag := false }
  have hside := (Dev.Aside.refl (fun _ => True) s).modPem ch fun p => { p with level := .locked, jtag := false }
  unfold Dev.relock
  dsimp only
  split
  · rw [hpem]; exact ⟨hside, rfl, rfl⟩
  · rw [Dev.pemRecord_pem, hpem]
    exact ⟨hside.trans (Dev.pemRecord_aside ..), rfl, rfl⟩

/-! ### resp (R510) -/

/-- The monitor after a failed attempt: its level stays. -/
theorem Dev.unlockFailed_spec {s : Dev} {ch : Nat} (level : Nat) (hr : ((s.pemRecord ch 0x0311 level 0).bump .secCh ch 0 Off.SEC_UFAIL 1).Records ch 93) :
    s.Aside (fun _ => True) (s.unlockFailed ch level) ∧ ((s.unlockFailed ch level).pem ch).nonce = (s.pem ch).nonce ∧
      ((s.unlockFailed ch level).pem ch).level = (s.pem ch).level ∧ ((s.unlockFailed ch level).pem ch).opened = (s.pem ch).opened := by
  obtain ⟨hraise, -, hpem⟩ := Dev.raiseAt_recorded hr (by decide) (by decide) (by decide) false []
  set u := ((s.pemRecord ch 0x0311 level 0).bump .secCh ch 0 Off.SEC_UFAIL 1).raise ch 93 with hu
  have hupem : u.pem ch = s.pem ch := (hpem ch).trans ((Dev.bump_pem ..).trans (Dev.pemRecord_pem ..))
  have haside : s.Aside (fun _ => True) u :=
    ((s.pemRecord_aside ch 0x0311 level 0).bump trivial trivial 1).trans (hraise.mono fun _ _ => trivial)
  unfold Dev.unlockFailed
  dsimp only
  rw [← hu]
  set f : Pemor → Pemor := fun p => if 3 ≤ (u.mgtMs :: (u.pem ch).fails.filter fun t => decide (u.mgtMs < t + 600000)).length then
    { p with fails := [], lockout := true } else { p with fails := u.mgtMs :: (u.pem ch).fails.filter fun t => decide (u.mgtMs < t + 600000) }
  have hf : ∀ p, (f p).nonce = p.nonce ∧ (f p).level = p.level ∧ (f p).opened = p.opened := fun p => by
    simp only [f]
    split <;> exact ⟨rfl, rfl, rfl⟩
  refine ⟨(haside.modPem ch f).same rfl, ?_⟩
  have hline : ((u.modPem ch f).line ch "failed" []).pem ch = f (s.pem ch) := by
    rw [← hupem]
    exact u.modPem_same ch f
  rw [hline]
  exact hf _

/-- UNLOCK_FAIL acts at RECORD still after the attempt was recorded and counted. -/
theorem Dev.Records.unlock {s : Dev} {ch : Nat} (hch : ch < 8) (h : s.Records ch 93) (f : Pemor → Pemor) (level : Nat) :
    (((s.modPem ch f).pemRecord ch 0x0311 level 0).bump .secCh ch 0 Off.SEC_UFAIL 1).Records ch 93 := by
  set t := s.modPem ch f
  set u := (t.pemRecord ch 0x0311 level 0).bump .secCh ch 0 Off.SEC_UFAIL 1 with hu
  have hrd : ∀ o, o < 0x100 → u.rd .secCh ch 0 o = s.rd .secCh ch 0 o := fun o ho => by
    have hbump : u.rd .secCh ch 0 o = (t.pemRecord ch 0x0311 level 0).rd .secCh ch 0 o := by
      refine Dev.bump_reg_other _ ?_ ?_ <;> simp [pageOff, Off.SEC_UFAIL] <;> omega
    exact hbump.trans ((t.record_logged ch (Ev.plain 0x0311 2 true [level, 0])).rd hch (Page.valid_channel (by decide) hch) (by decide) (by omega))
  refine Eq.trans ?_ h
  unfold Dev.sevOf
  simp only [show collector 93 = (.secCh, 1) from rfl, Dev.rdF, hrd _ (by decide : Off.PG_SEV0 < 0x100), hrd _ (by decide : Off.PG_SEV1 < 0x100),
    hrd _ (by decide : Off.PG_FLT < 0x100)]

theorem answers_pemorResp {s : State} {ch : ChId} {sig : List Byte} {k : Nat} {level : PemorLevel} (hs : s.m.Settled) (h : s.m.PemOpen ch.val 0)
    (hen : s.m.rdF .mgtCh ch.val 0 Off.MGT_CTL 0 0 = 1) (hlock : (s.m.pem ch.val).lockout = false) (hnonce : (s.m.pem ch.val).nonce = some (k, level))
    (hsig : sig.length = 64) (hr : s.m.Records ch.val 93) :
    let good := Config.debugVerify ([0x50, 0x45, 0x4D, 0x4F, 0x52] ++ (Config.serial ++ List.replicate 16 0).take 16 ++
      [BitVec.ofNat 8 ch.val, BitVec.ofNat 8 (lvl level)] ++ nonceBytes ch.val k) sig
    Answers (.pemorResp ch sig) s fun r => SameWork s r ∧ (r.m.pem ch.val).nonce = none ∧
      (r.m.pem ch.val).level = (if good = true then level else (s.m.pem ch.val).level) ∧ (r.m.pem ch.val).opened = (good || (s.m.pem ch.val).opened) := by
  intro good
  set t := s.m.modPem ch.val fun p => { p with nonce := none } with ht
  have htpem : t.pem ch.val = { s.m.pem ch.val with nonce := none } := s.m.modPem_same ch.val _
  have htside : s.m.Aside (fun _ => True) t := (Dev.Aside.refl _ s.m).modPem ch.val _
  have hm : s.m.pemResp ch.val sig = if good = true then
      (((t.modPem ch.val fun p => { p with level := level, opened := true }).pemRecord ch.val 0x0310 (lvl level) 0).bump .secCh ch.val 0 Off.SEC_UNLK 1).line
        ch.val "open" [lvl level]
    else t.unlockFailed ch.val (lvl level) := by
    refine (Dev.pemCmd_open h _).trans ?_
    rw [if_neg (by simp [hen, hlock])]
    simp only [hnonce, hsig, true_and]
    rfl
  by_cases hgood : good = true
  · rw [if_pos hgood] at hm
    set v := t.modPem ch.val fun p => { p with level := level, opened := true } with hv
    have hvpem : v.pem ch.val = { s.m.pem ch.val with nonce := none, level := level, opened := true } := by rw [hv, Dev.modPem_same, htpem]
    have hvside : s.m.Aside (fun _ => True) v := htside.modPem ch.val _
    have hside := ((hvside.trans (v.pemRecord_aside ch.val 0x0310 (lvl level) 0)).bump (k := .secCh) (ch := ch.val) (i := 0) (o := Off.SEC_UNLK)
      trivial trivial 1).said (.uart ch.val "open" [lvl level])
    have hpem : ((v.pemRecord ch.val 0x0310 (lvl level) 0).bump .secCh ch.val 0 Off.SEC_UNLK 1).pem ch.val =
        { s.m.pem ch.val with nonce := none, level := level, opened := true } := by
      rw [← hvpem]
      exact (Dev.bump_pem ..).trans (Dev.pemRecord_pem ..)
    refine answers_aside hs (congrArg s.done hm) hside ⟨congrArg Pemor.nonce hpem, ?_, ?_⟩
    · rw [if_pos hgood]; exact congrArg Pemor.level hpem
    · rw [hgood]; exact congrArg Pemor.opened hpem
  · rw [if_neg hgood] at hm
    obtain ⟨hside, hn, hl, ho⟩ := t.unlockFailed_spec (lvl level) (.unlock ch.isLt hr _ _)
    rw [htpem] at hn hl ho
    refine answers_aside hs (congrArg s.done hm) (htside.trans hside) ⟨hn, ?_, ?_⟩
    · rw [if_neg hgood]; exact hl
    · rw [Bool.eq_false_iff.2 hgood]; exact ho

/-! ### wr, force, jtag (R490, R510) -/

/-- Management writes the registers of THM_CH and MGT_CH pages as ordinary ones (R490). -/
theorem Dev.pageWrite_thm_mgt {k : PageKind} (hk : k = .thmCh ∨ k = .mgtCh) {o : Nat} (ho : 0x100 ≤ o) (s : Dev) (ch rdr : Nat) (w : Word)
    (env : WrEnv) : s.pageWrite ⟨k, ch, 0⟩ rdr o w env = s.plainWrite ⟨k, ch, 0⟩ o w := by
  rw [Dev.pageWrite, if_neg (by omega)]
  rcases hk with rfl | rfl <;> rfl

theorem Dev.mgtWrite_thm_mgt {k : PageKind} (hk : k = .thmCh ∨ k = .mgtCh) {o : Nat} (hlo : 0x100 ≤ o) (ho : o < 0x1000) (h4 : o % 4 = 0)
    {row : RegRow} (hrow : k.row o = some row) {s : Dev} {ch : Nat} (hch : ch < 8) (hup : s.mgtUp ⟨k, ch, 0⟩ = true) (rdr : Nat) (w : Word) (env : WrEnv) :
    s.mgtWrite rdr (pageOff k ch 0 o) w env = s.setReg (pageOff k ch 0 o)
      (storedWord ⟨k, ch, 0⟩ row o (s.rd k ch 0 o) w) := by
  have hin : k ∈ channelKinds := by rcases hk with rfl | rfl <;> decide
  have hmay : s.mayWrite ⟨k, ch, 0⟩ o .mgt = true := by rcases hk with rfl | rfl <;> rfl
  have h := Dev.mgtWrite_granted (Page.valid_channel hin hch) ho h4 (show s.Writes .mgt ⟨k, ch, 0⟩ o from ⟨hmay, hup⟩) rdr w env
  rw [Dev.pageWrite_thm_mgt hk hlo, Dev.plainWrite_of_row hrow] at h
  exact h

/-- WRITE_REG of one word of those pages. -/
theorem Dev.writeRegs_one {k : PageKind} (hk : k = .thmCh ∨ k = .mgtCh) {o : Nat} (hlo : 0x100 ≤ o) (ho : o < 0x1000) (h4 : o % 4 = 0)
    {row : RegRow} (hrow : k.row o = some row) {s : Dev} (ch : ChId) (hup : s.mgtUp ⟨k, ch.val, 0⟩ = true) (rdr : Nat) (w : Word) :
    s.writeRegs rdr ch.val (pageOff k ch.val 0 o) [w] = (s.setReg (pageOff k ch.val 0 o)
      (storedWord ⟨k, ch.val, 0⟩ row o (s.rd k ch.val 0 o) w), Code.OK, []) := by
  have hin : k ∈ channelKinds := by rcases hk with rfl | rfl <;> decide
  have hpage : Page.ofAddr (pageOff k ch.val 0 o) = some ⟨k, ch.val, 0⟩ := Page.ofAddr_base_add (Page.valid_channel hin ch.isLt) ho
  have hmod : pageOff k ch.val 0 o % 0x1000 = o := Page.base_add_mod _ ho
  have hmay : s.mgtMay ch.val (pageOff k ch.val 0 o) = true := by
    rw [Dev.mgtMay, inWindow_channel hin ch ho, hpage, hmod]
    rcases hk with rfl | rfl <;> rfl
  have h4' : pageOff k ch.val 0 o % 4 = 0 := (Page.base_add_mod_four _ o).trans h4
  unfold Dev.writeRegs
  rw [if_neg (by simp [hmay, h4'])]
  exact congrArg (fun m => (m, Code.OK, [])) (Dev.mgtWrite_thm_mgt hk hlo ho h4 hrow ch.isLt hup rdr w WrEnv.none)

theorem answers_pemorWr {s : State} {ch : ChId} (hs : s.m.Settled) (h : s.m.PemOpen ch.val 2) {k : PageKind} {o : Nat} {row : RegRow} {w : Word}
    (hk : k = .thmCh ∨ k = .mgtCh) (hlo : 0x100 ≤ o) (ho : o < 0x1000) (h4 : o % 4 = 0) (hrow : k.row o = some row)
    (hup : s.m.mgtUp ⟨k, ch.val, 0⟩ = true) : Answers (.pemorWr ch (pageOff k ch.val 0 o) w) s fun r => SameWork s r ∧
      r.m.rd k ch.val 0 o = ((s.m.rd k ch.val 0 o &&& ~~~row.rw &&& ~~~(w &&& row.w1c)) ||| (normWord k 0 o (s.m.rd k ch.val 0 o) w &&& row.rw)) ∧
      SameRegs s r (· = pageOff k ch.val 0 o) ∧ r.m.out = s.m.out ++ [.uart ch.val "ok" []] := by
  set v := storedWord ⟨k, ch.val, 0⟩ row o (s.m.rd k ch.val 0 o) w
  have hm : s.m.pemWrite ch.val (pageOff k ch.val 0 o) w = (s.m.setReg (pageOff k ch.val 0 o) v).says (.uart ch.val "ok" []) := by
    refine (Dev.pemCmd_open h _).trans ?_
    rw [Dev.writeRegs_one hk hlo ho h4 hrow ch hup 2 w]
    rfl
  have hside := ((Dev.Aside.refl (· = pageOff k ch.val 0 o) s.m).setReg rfl v).said (.uart ch.val "ok" [])
  exact answers_aside hs (congrArg s.done hm) hside ⟨Dev.setReg_reg_same .., hside.reg, rfl⟩

theorem answers_pemorForce {s : State} {ch : ChId} (hs : s.m.Settled) (h : s.m.PemOpen ch.val 2) {ix : Fin 96}
    (hn : (collector ix.val).2 < (collector ix.val).1.nsrc) (hr : s.m.Records ch.val ix.val) :
    Answers (.pemorForce ch ix) s fun r => SameWork s r ∧ bit (r.m.rd (collector ix.val).1 ch.val 0 Off.PG_FLT) (collector ix.val).2 = true := by
  have h32 : ∀ ix : Fin 96, (collector ix.val).2 < 32 := by decide
  obtain ⟨hside, hbit, -⟩ := Dev.raiseAt_recorded hr ix.isLt hn (h32 ix) true []
  exact answers_aside hs (congrArg s.done (Dev.pemCmd_open h _)) hside hbit

theorem answers_jtagOpen {s : State} {ch : ChId} (hs : s.m.Settled) (h : s.m.PemOpen ch.val 2) (hen : s.m.rdF .mgtCh ch.val 0 Off.MGT_CTL 1 1 = 1) :
    Answers (.pemorJtagOpen ch) s fun r => SameWork s r ∧ (r.m.pem ch.val).jtag = true ∧ (r.m.pem ch.val).jtagOpened = true := by
  set t := s.m.modPem ch.val fun p => { p with jtag := true, jtagOpened := true } with ht
  have hm : s.m.jtagOpen ch.val = t.pemRecord ch.val 0x0310 2 1 := (Dev.pemCmd_open h _).trans (if_neg (by simp [hen]))
  have hpem : (t.pemRecord ch.val 0x0310 2 1).pem ch.val = { s.m.pem ch.val with jtag := true, jtagOpened := true } := by
    rw [Dev.pemRecord_pem, ht, Dev.modPem_same]
  refine answers_aside hs (congrArg s.done hm) (((Dev.Aside.refl _ s.m).modPem ch.val _).trans (t.pemRecord_aside ..)) ⟨?_, ?_⟩
  · exact congrArg Pemor.jtag hpem
  · exact congrArg Pemor.jtagOpened hpem

theorem answers_jtagClose {s : State} {ch : ChId} (hs : s.m.Settled) (h : s.m.PemOpen ch.val 2) (hj : (s.m.pem ch.val).jtag = true) :
    Answers (.pemorJtagClose ch) s fun r => SameWork s r ∧ (r.m.pem ch.val).jtag = false := by
  set t := s.m.modPem ch.val fun p => { p with jtag := false } with ht
  have hm : s.m.jtagClose ch.val = t.pemRecord ch.val 0x0312 2 1 := (Dev.pemCmd_open h _).trans (if_pos hj)
  have hpem : (t.pemRecord ch.val 0x0312 2 1).pem ch.val = { s.m.pem ch.val with jtag := false } := by
    rw [Dev.pemRecord_pem, ht, Dev.modPem_same]
  exact answers_aside hs (congrArg s.done hm) (((Dev.Aside.refl _ s.m).modPem ch.val _).trans (t.pemRecord_aside ..)) (congrArg Pemor.jtag hpem)

/-! ### The statement -/

/-- unlock prints a fresh nonce (R510). -/
theorem gives_pemorUnlock {s : State} {ch : ChId} {level : PemorLevel} (hs : s.m.Settled) (hlevel : level ≠ .locked) (h : s.m.PemOpen ch.val 0)
    (hen : s.m.rdF .mgtCh ch.val 0 Off.MGT_CTL 0 0 = 1) (hlock : (s.m.pem ch.val).lockout = false) :
    Gives (.pemorUnlock ch level) s ((s.m.modPem ch.val fun p => { p with nonce := some (p.nonces, level), nonces := p.nonces + 1 }).says
      (.uart ch.val "nonce" (hexWords (nonceBytes ch.val (s.m.pem ch.val).nonces)))) := by
  have hside := (Dev.Aside.refl (fun _ => False) s.m).modPem ch.val fun p => { p with nonce := some (p.nonces, level), nonces := p.nonces + 1 }
  refine (congrArg s.done ((Dev.pemCmd_open h _).trans ?_)).trans (s.done_of_settled ((hside.said _).settled hs))
  exact if_neg (by simp [hen, hlock, hlevel])

/-- A change of a monitor's own state gives that change. -/
theorem gives_modPem {c : Instr} {s : State} {ch : Nat} {f : Pemor → Pemor} (hs : s.m.Settled) (hc : exec c s = s.done (s.m.modPem ch f)) :
    Gives c s (s.m.modPem ch f) :=
  hc.trans (s.done_of_settled (((Dev.Aside.refl (fun _ => False) s.m).modPem ch f).settled hs))

/-- Settles O14: what each command makes of the monitor's state, over the frame of records and raises. -/
theorem pemorUnlocksAndActs : Obligations.PemorUnlocksAndActs := by
  unfold Obligations.PemorUnlocksAndActs
  refine ⟨fun s ch hs => ?_, fun s ch hs h => ⟨fun k o row w hk hlo ho h4 hrow hup => answers_pemorWr hs h hk hlo ho h4 hrow hup,
    fun ix hn hr => answers_pemorForce hs h hn hr, answers_jtagOpen hs h, answers_jtagClose hs h⟩⟩
  intro p
  obtain ⟨hside, hlevel, hjtag⟩ := s.m.relock_spec ch.val
  refine ⟨fun level hlevel h hen hlock => gives_pemorUnlock hs hlevel h hen hlock,
    fun sig k level h hen hlock hnonce hsig hr => answers_pemorResp hs h hen hlock hnonce hsig hr, fun h => ?_, fun hon => ?_,
    gives_modPem hs rfl, gives_modPem hs rfl⟩
  · exact answers_aside hs (congrArg s.done (Dev.pemCmd_open h _)) hside ⟨hlevel, hjtag⟩
  · exact answers_aside hs (congrArg s.done (if_pos hon)) hside ⟨hlevel, hjtag⟩

end Sys2Proof.Machine
end

section
/-! Firmware: what staging and activation change, and SEC_FW_CMD (O11). -/

namespace Sys2Proof.Machine
open Sys2Proof

/-! ### Firmware by key (R493) -/

@[simp] theorem Dev.modFw_fw_same (s : Dev) (k : Nat) (f : Fw → Fw) : (s.modFw k f).fw k = f (s.fw k) := Store.get_set_same ..
theorem Dev.modFw_fw_other (s : Dev) {k j : Nat} (h : j ≠ k) (f : Fw → Fw) : (s.modFw k f).fw j = s.fw j := Store.get_set_other _ h _ _

theorem fwKey_ne {d e : Nat} (h : d ≠ e) (kind : Nat) : fwKey d kind ≠ fwKey e kind := by unfold fwKey; omega

@[simp] theorem Dev.fwRecord_fw (s : Dev) (code die kind slot svn k : Nat) : (s.fwRecord code die kind slot svn).fw k = s.fw k := by
  unfold Dev.fwRecord
  split
  · exact (s.record_logged die _).fw k
  · rfl

theorem Dev.fwRecord_aside (s : Dev) (code die kind slot svn : Nat) :
    s.Aside (fun a => die < 8 ∧ recRegs die a) (s.fwRecord code die kind slot svn) := by
  unfold Dev.fwRecord
  split
  · next h => exact (Dev.Aside.refl _ s).record (fun _ ha => ⟨h, ha⟩) _
  · exact .refl _ s

/-! ### Staging (R495) -/

/-- Bytes stored one after the other from a place on are read there, and nowhere else. -/
theorem get_foldl_set (bs : List Byte) (off i : Nat) (b : Store Byte) (a : Nat) :
    ((bs.zipIdx i).foldl (fun (b : Store Byte) e => b.set 0 (off + e.2) e.1) b).get 0 a =
      if off + i ≤ a ∧ a < off + i + bs.length then nth 0 bs (a - (off + i)) else b.get 0 a := by
  induction bs generalizing i b with
  | nil => rw [if_neg (by simp)]; rfl
  | cons x bs ih =>
    rw [List.zipIdx_cons, List.foldl_cons, ih]
    by_cases ha : a = off + i
    · subst ha
      rw [if_neg (by omega), if_pos (by simp), Store.get_set_same]
      simp [nth]
    · rw [Store.get_set_other _ ha, List.length_cons]
      by_cases hin : off + (i + 1) ≤ a ∧ a < off + (i + 1) + bs.length
      · obtain ⟨j, rfl⟩ : ∃ j, a = off + (i + 1) + j := ⟨a - (off + (i + 1)), by omega⟩
        rw [if_pos hin, if_pos (by omega), show off + (i + 1) + j - (off + (i + 1)) = j by omega, show off + (i + 1) + j - (off + i) = j + 1 by omega]
        rfl
      · rw [if_neg hin, if_neg (by omega)]

theorem fwTake_staged {f : Fw} {off : Nat} (path : Nat) (bs : List Byte) (a : Nat) : (fwTake f path off bs).staged.get 0 a =
    if off ≤ a ∧ a < off + bs.length then nth 0 bs (a - off) else if off = 0 then 0 else f.staged.get 0 a := by
  have h := get_foldl_set bs off 0 (if off = 0 then [] else f.staged) a
  have hfw : (fwTake f path off bs).staged =
      (bs.zipIdx).foldl (fun (b : Store Byte) e => b.set 0 (off + e.2) e.1) (if off = 0 then [] else f.staged) := by
    unfold fwTake
    dsimp only
    split <;> rfl
  rw [hfw, h]
  simp only [Nat.add_zero]
  split
  · rfl
  · split <;> rfl

theorem fwTake_got (f : Fw) (path off : Nat) (bs : List Byte) : (fwTake f path off bs).got =
    (if off = 0 then [] else f.got) ++ [(off, off + bs.length)] := by
  unfold fwTake
  dsimp only
  split <;> rfl

/-- The end of a staging leaves the bytes. -/
theorem Dev.fwStaged_fw (s : Dev) (die kind : Nat) : ∃ p, (s.fwStaged die kind).fw (fwKey die kind) = { s.fw (fwKey die kind) with path := p } := by
  unfold Dev.fwStaged
  dsimp only
  split
  · rw [Dev.fwRecord_fw, Dev.modFw_fw_same]; exact ⟨_, rfl⟩
  · exact ⟨_, rfl⟩

theorem Dev.fwStaged_fw_other (s : Dev) {die kind k : Nat} (h : k ≠ fwKey die kind) : (s.fwStaged die kind).fw k = s.fw k := by
  unfold Dev.fwStaged
  dsimp only
  split
  · rw [Dev.fwRecord_fw, Dev.modFw_fw_other _ h]
  · rfl

theorem Dev.fwStaged_aside (s : Dev) (die kind : Nat) : s.Aside (fun _ => True) (s.fwStaged die kind) := by
  unfold Dev.fwStaged
  dsimp only
  split
  · exact ((Dev.Aside.refl _ s).modFw _ _).trans ((Dev.fwRecord_aside ..).mono fun _ _ => trivial)
  · exact .refl _ s

/-- What a command does for one die: beside serving, and to no other firmware. -/
structure Dev.OneDie (k : Nat) (s t : Dev) : Prop where
  aside : s.Aside (fun _ => True) t
  others : ∀ j, j ≠ k → t.fw j = s.fw j

theorem Dev.fwWhole_oneDie (s : Dev) (die kind : Nat) (bs : List Byte) : Dev.OneDie (fwKey die kind) s (s.fwWhole die kind bs) where
  aside := (((Dev.Aside.refl _ s).modFw _ _).trans (Dev.fwStaged_aside ..)).modFw _ _
  others j hj := by rw [Dev.fwWhole, Dev.modFw_fw_other _ hj, Dev.fwStaged_fw_other _ hj, Dev.modFw_fw_other _ hj]

theorem Dev.fwWhole_fw (s : Dev) (die kind : Nat) (bs : List Byte) :
    ((s.fwWhole die kind bs).fw (fwKey die kind)).got = [(0, bs.length)] ∧
      ∀ i, i < bs.length → ((s.fwWhole die kind bs).fw (fwKey die kind)).staged.get 0 i = nth 0 bs i := by
  obtain ⟨p, hp⟩ := (s.modFw (fwKey die kind) fun f => fwTake f 1 0 bs).fwStaged_fw die kind
  have hfw : (s.fwWhole die kind bs).fw (fwKey die kind) = { fwTake (s.fw (fwKey die kind)) 1 0 bs with path := none } := by
    rw [Dev.fwWhole, Dev.modFw_fw_same, hp, Dev.modFw_fw_same]
  rw [hfw]
  refine ⟨(fwTake_got ..).trans (by simp), fun i hi => ?_⟩
  exact (fwTake_staged 1 bs i).trans (by rw [if_pos (by omega), Nat.sub_zero])

/-! ### Activation of a verified slot (R495, R496) -/

theorem Dev.fwActivate_valid {s : Dev} {die kind : Nat} (h : (fwSlot (s.fw (fwKey die kind)) (fwOther (s.fw (fwKey die kind)))).valid = true) :
    s.fwActivate die kind = ((s.modFw (fwKey die kind) fun f => { f with active := fwOther (s.fw (fwKey die kind)), pending := true }).fwRecord 0x0303 die kind
      (fwOther (s.fw (fwKey die kind))) (fwSlot (s.fw (fwKey die kind)) (fwOther (s.fw (fwKey die kind)))).svn, Code.OK, 0) := if_pos h

theorem Dev.fwActivate_oneDie {s : Dev} {die kind : Nat} (h : (fwSlot (s.fw (fwKey die kind)) (fwOther (s.fw (fwKey die kind)))).valid = true) :
    Dev.OneDie (fwKey die kind) s (s.fwActivate die kind).1 ∧ (s.fwActivate die kind).2 = (Code.OK, 0) ∧
      (s.fwActivate die kind).1.fw (fwKey die kind) =
        { s.fw (fwKey die kind) with active := fwOther (s.fw (fwKey die kind)), pending := true } := by
  rw [Dev.fwActivate_valid h]
  refine ⟨⟨((Dev.Aside.refl _ s).modFw _ _).trans ((Dev.fwRecord_aside ..).mono fun _ _ => trivial), fun j hj => ?_⟩, rfl, ?_⟩
  · exact (Dev.fwRecord_fw ..).trans (Dev.modFw_fw_other _ hj _)
  · exact (Dev.fwRecord_fw ..).trans (Dev.modFw_fw_same ..)

/-! ### The dies of a command, and SEC_FW_STA (R515) -/

theorem fwTargets_sorted (w : Word) : (fwTargets w).Pairwise (· < ·) ∧ ∀ d ∈ fwTargets w, d ≤ 8 := by
  have hchs : (((List.range 8).filter fun ch => bit w (2 + ch)).Pairwise (· < ·)) := List.pairwise_lt_range.filter _
  have hlt : ∀ d ∈ (List.range 8).filter fun ch => bit w (2 + ch), d < 8 := fun d hd => List.mem_range.1 (List.mem_filter.1 hd).1
  unfold fwTargets
  split
  · split
    · refine ⟨List.pairwise_append.2 ⟨hchs, by simp, fun a ha b hb => ?_⟩, fun d hd => ?_⟩
      · have := hlt a ha; simp at hb; omega
      · rcases List.mem_append.1 hd with h | h
        · exact (hlt d h).le
        · simp at h; omega
    · rw [List.append_nil]; exact ⟨hchs, fun d hd => (hlt d hd).le⟩
  · exact ⟨hchs, fun d hd => (hlt d hd).le⟩
  · simp
  · simp

/-- The command code stands beside the kind and the dies. -/
theorem fwTargets_setFld (w : Word) (c : Nat) : fwTargets (setFld w 11 10 c) = fwTargets w ∧ fld (setFld w 11 10 c) 1 0 = fld w 1 0 := by
  have hkind : fld (setFld w 11 10 c) 1 0 = fld w 1 0 := fld_setFld_apart w (by decide) (by decide) (.inr (by decide)) c
  have hbit : ∀ i, i < 10 ∨ 11 < i → bit (setFld w 11 10 c) i = bit w i := fun i hi => by
    rw [bit_setFld w (by decide) (by decide), if_neg (by omega)]
  refine ⟨?_, hkind⟩
  unfold fwTargets
  have hchs : ((List.range 8).filter fun ch => bit (setFld w 11 10 c) (2 + ch)) = (List.range 8).filter fun ch => bit w (2 + ch) :=
    List.filter_congr fun ch hch => hbit _ (.inl (by have := List.mem_range.1 hch; omega))
  rw [hkind, hchs, hbit 12 (.inr (by decide))]

/-- Done bits of channels in ascending order: the sum of distinct powers shows each of them. -/
theorem doneBits (l : List Nat) : ∀ n, l.Pairwise (· < ·) → (∀ d ∈ l, d < 8 ∧ n < 2 ^ (16 + d)) → n < 2 ^ 24 → n % 2 ^ 16 = 0 →
    l.foldl (fun n ch => n + 2 ^ (16 + ch)) n < 2 ^ 24 ∧ l.foldl (fun n ch => n + 2 ^ (16 + ch)) n % 2 ^ 16 = 0 ∧
      ∀ d, d ∈ l ∨ n.testBit (16 + d) = true → (l.foldl (fun n ch => n + 2 ^ (16 + ch)) n).testBit (16 + d) = true := by
  induction l with
  | nil => intro n _ _ hn hmod; exact ⟨hn, hmod, fun d hd => hd.resolve_left (by simp)⟩
  | cons c l ih =>
    intro n hsort hb hn hmod
    obtain ⟨hc, hsort⟩ := List.pairwise_cons.1 hsort
    obtain ⟨hc8, hnc⟩ := hb c List.mem_cons_self
    have hstep : n + 2 ^ (16 + c) < 2 ^ (16 + c + 1) := by rw [Nat.pow_succ]; omega
    have hmono : ∀ e, 16 + c + 1 ≤ e → n + 2 ^ (16 + c) < 2 ^ e := fun e he => hstep.trans_le (Nat.pow_le_pow_right (by decide) he)
    have hpow : 2 ^ (16 + c) % 2 ^ 16 = 0 := by rw [Nat.pow_add]; simp
    have hrec := ih (n + 2 ^ (16 + c)) hsort (fun d hd => ⟨(hb d (List.mem_cons_of_mem _ hd)).1, hmono _ (by have := hc d hd; omega)⟩)
      (hmono _ (by omega)) (by rw [Nat.add_mod, hmod, hpow]; rfl)
    obtain ⟨hlt, hz, hbits⟩ := hrec
    refine ⟨hlt, hz, fun d hd => hbits d ?_⟩
    rw [Nat.add_comm n]
    rcases hd with hd | hd
    · rcases List.mem_cons.1 hd with rfl | hd
      · exact .inr (by rw [Nat.testBit_two_pow_add_eq, Nat.testBit_lt_two_pow hnc]; rfl)
      · exact .inl hd
    · have hdc : 16 + d < 16 + c := by
        by_contra hle
        rw [Nat.testBit_lt_two_pow (hnc.trans_le (Nat.pow_le_pow_right (by decide) (by omega)))] at hd
        exact absurd hd (by simp)
      exact .inr (by rw [Nat.testBit_two_pow_add_gt hdc]; exact hd)

/-- What SEC_FW_STA holds after a command on dies in ascending order. -/
theorem Dev.fwSta_reads (s : Dev) {code : Nat} (hcode : code < 256) {done : List Nat} (hsort : done.Pairwise (· < ·)) (hle : ∀ d ∈ done, d ≤ 8) :
    (s.fwSta code 0 done).rdF .secMod 0 0 Off.SEC_FW_STA 7 0 = code ∧
      (code = 0 → ∀ d ∈ done, (s.fwSta code 0 done).rdF .secMod 0 0 Off.SEC_FW_STA (16 + d) (16 + d) = 1) := by
  obtain ⟨hlt, hmod, hbits⟩ := doneBits (done.filter (· < 8)) 0 (hsort.filter _)
    (fun d hd => ⟨by simpa using (List.mem_filter.1 hd).2, Nat.two_pow_pos _⟩) (by decide) (by decide)
  set m := (done.filter (· < 8)).foldl (fun n ch => n + 2 ^ (16 + ch)) 0 with hm
  set h := if done.contains 8 then 2 ^ 24 else 0 with hh
  have hhub : h = 0 ∨ h = 2 ^ 24 := by rw [hh]; split <;> simp
  have hval : ((s.fwSta code 0 done).rd .secMod 0 0 Off.SEC_FW_STA).toNat = code + m + h := by
    have hrd : (s.fwSta code 0 done).rd .secMod 0 0 Off.SEC_FW_STA = BitVec.ofNat 32 (code + 0 * 256 + m + h) := Dev.wr_rd_same ..
    rw [hrd, BitVec.toNat_ofNat, Nat.mod_eq_of_lt (by omega)]
    omega
  refine ⟨?_, fun hzero d hd => ?_⟩
  · rw [Dev.rdF, fld, hval]; omega
  · have hbit : (code + m + h).testBit (16 + d) = true := by
      rw [hzero, Nat.zero_add]
      by_cases hd8 : d = 8
      · subst hd8
        have hpos : h = 2 ^ 24 := by rw [hh, if_pos (List.contains_iff_mem.2 hd)]
        rw [hpos, Nat.add_comm, Nat.testBit_two_pow_add_eq, Nat.testBit_lt_two_pow hlt]
        rfl
      · have hlt8 : d < 8 := by have := hle d hd; omega
        have hin := hbits d (.inl (List.mem_filter.2 ⟨hd, by simpa using hlt8⟩))
        rcases hhub with e | e
        · rw [e]; exact hin
        · rw [e, Nat.add_comm, Nat.testBit_two_pow_add_gt (by omega)]; exact hin
    rw [Dev.rdF, fld, hval, show 16 + d + 1 - (16 + d) = 1 by omega, Nat.pow_one]
    simpa [Nat.testBit_eq_decide_div_mod_eq] using hbit

/-! ### A command over its dies -/

section
variable {kind : Nat} {f : Dev → Nat → Dev} {pre : Fw → Prop} {P : Fw → Fw → Prop}
  (hf : ∀ (s : Dev) (d : Nat), pre (s.fw (fwKey d kind)) →
    Dev.OneDie (fwKey d kind) s (f s d) ∧ P (s.fw (fwKey d kind)) ((f s d).fw (fwKey d kind)))
include hf

/-- What each die takes by itself, the command gives to all of them. -/
theorem Dev.foldl_dies (l : List Nat) : ∀ s : Dev, l.Nodup → (∀ d ∈ l, pre (s.fw (fwKey d kind))) →
    s.Aside (fun _ => True) (l.foldl f s) ∧ (∀ k, (∀ d ∈ l, k ≠ fwKey d kind) → (l.foldl f s).fw k = s.fw k) ∧
      ∀ d ∈ l, P (s.fw (fwKey d kind)) ((l.foldl f s).fw (fwKey d kind)) := by
  induction l with
  | nil => exact fun s _ _ => ⟨.refl _ s, fun _ _ => rfl, fun d hd => absurd hd (by simp)⟩
  | cons c l ih =>
    intro s hl hpre
    obtain ⟨hc, hl⟩ := List.nodup_cons.1 hl
    obtain ⟨hone, hP⟩ := hf s c (hpre c List.mem_cons_self)
    have hother : ∀ d ∈ l, (f s c).fw (fwKey d kind) = s.fw (fwKey d kind) := fun d hd =>
      hone.others _ (fwKey_ne (ne_of_mem_of_not_mem hd hc) kind)
    obtain ⟨haside, hkeep, hrest⟩ := ih (f s c) hl fun d hd => by rw [hother d hd]; exact hpre d (List.mem_cons_of_mem _ hd)
    rw [List.foldl_cons]
    refine ⟨hone.aside.trans haside, fun k hk => ?_, fun d hd => ?_⟩
    · exact (hkeep k fun d hd => hk d (List.mem_cons_of_mem _ hd)).trans (hone.others k (hk c List.mem_cons_self))
    · rcases List.mem_cons.1 hd with rfl | hd
      · rw [hkeep _ fun e he => fwKey_ne (ne_of_mem_of_not_mem he hc).symm kind]; exact hP
      · rw [← hother d hd]; exact hrest d hd

end

/-- A command of firmware that reaches the page runs on what was written, its code among it (R515). -/
theorem Dev.writeWord_secFw {s : Dev} {fn : Fn} (hw : s.Writes fn ⟨.secMod, 0, 0⟩ Off.SEC_FW_CMD) (w : Word) (env : WrEnv) :
    s.writeWord fn (pageOff .secMod 0 0 Off.SEC_FW_CMD) w env = s.secFwCmd w env.host := by
  have h := Dev.writeWord_granted (p := ⟨.secMod, 0, 0⟩) (by decide) (by decide) (by decide) hw w env
  exact h.trans (by rw [Dev.pageWrite, if_neg (by decide), Dev.bodyWrite]; exact if_pos rfl)

theorem exec_secFwStage_granted {s : State} {fn : Fn} (hw : s.m.Writes fn ⟨.secMod, 0, 0⟩ Off.SEC_FW_CMD) (w : Word) (host : HostView) :
    exec (.secFwStage fn w host) s = s.done (s.m.secStage (setFld w 11 10 1) host) := by
  change s.done (s.m.writeWord fn _ _ _) = _
  rw [Dev.writeWord_secFw hw, Dev.secFwCmd, fld_setFld_same w (by decide) (by decide)]
  rfl

theorem exec_secFwActivate_granted {s : State} {fn : Fn} (hw : s.m.Writes fn ⟨.secMod, 0, 0⟩ Off.SEC_FW_CMD) (w : Word) :
    exec (.secFwActivate fn w) s = s.done (s.m.secActivate (setFld w 11 10 2)) := by
  change s.done (s.m.writeWord fn _ _ _) = _
  rw [Dev.writeWord_secFw hw, Dev.secFwCmd, fld_setFld_same w (by decide) (by decide)]
  rfl

/-- Activation of verified slots alone: each is activated, and none fails. -/
theorem Dev.foldl_activate {kind : Nat} (l : List Nat) : ∀ (s : Dev) (done : List Nat), l.Nodup →
    (∀ d ∈ l, (fwSlot (s.fw (fwKey d kind)) (fwOther (s.fw (fwKey d kind)))).valid = true) →
    l.foldl (fun (r : Dev × List Nat × Nat × Nat) d =>
      let (s, c, x) := r.1.fwActivate d kind
      if c = Code.OK then (s, r.2.1 ++ [d], r.2.2)
      else (s, r.2.1, if r.2.2.1 = Code.OK then (c, x) else r.2.2)) (s, done, Code.OK, 0) =
    (l.foldl (fun s d => (s.fwActivate d kind).1) s, done ++ l, Code.OK, 0) := by
  induction l with
  | nil => intro s done _ _; rw [List.append_nil]; rfl
  | cons c l ih =>
    intro s done hl hvalid
    obtain ⟨hc, hl⟩ := List.nodup_cons.1 hl
    obtain ⟨hone, hcode, -⟩ := Dev.fwActivate_oneDie (hvalid c List.mem_cons_self)
    have hrest : ∀ d ∈ l, (fwSlot ((s.fwActivate c kind).1.fw (fwKey d kind)) (fwOther ((s.fwActivate c kind).1.fw (fwKey d kind)))).valid = true :=
      fun d hd => by
        rw [hone.others _ (fwKey_ne (ne_of_mem_of_not_mem hd hc) kind)]
        exact hvalid d (List.mem_cons_of_mem _ hd)
    have hstep := ih (s.fwActivate c kind).1 (done ++ [c]) hl hrest
    rw [List.append_assoc] at hstep
    rw [List.foldl_cons, List.foldl_cons]
    dsimp only
    rw [if_pos (congrArg Prod.fst hcode)]
    exact hstep

/-- A firmware command's answer: what it does to the dies beside serving, then SEC_FW_STA. -/
theorem answers_fwSta {c : Instr} {s : State} (hs : s.m.Settled) {m : Dev} {code : Nat} {done : List Nat} (hc : exec c s = s.done (m.fwSta code 0 done))
    (h : s.m.Aside (fun _ => True) m) (hcode : code < 256) (hsort : done.Pairwise (· < ·)) (hle : ∀ d ∈ done, d ≤ 8) {P : State → Prop}
    (hp : (m.fwSta code 0 done).rdF .secMod 0 0 Off.SEC_FW_STA 7 0 = code → (code = 0 → ∀ d ∈ done,
      (m.fwSta code 0 done).rdF .secMod 0 0 Off.SEC_FW_STA (16 + d) (16 + d) = 1) → P { s with m := m.fwSta code 0 done }) :
    Answers c s fun r => SameWork s r ∧ P r := by
  obtain ⟨hsta, hdone⟩ := m.fwSta_reads hcode hsort hle
  exact answers_aside hs hc (h.wr trivial _) (hp hsta hdone)

section
variable {s : State} {fn : Fn} (hs : s.m.Settled) (hw : s.m.Writes fn ⟨.secMod, 0, 0⟩ Off.SEC_FW_CMD) (w : Word)
include hs hw

theorem answers_secStage {host : HostView} (hds : fwTargets w ≠ []) (hn : 1 ≤ (s.m.rd .secMod 0 0 Off.SEC_FW_SIZE).toNat)
    (hcap : (s.m.rd .secMod 0 0 Off.SEC_FW_SIZE).toNat ≤ fwCap (fld w 1 0) + 0x80)
    (hfree : ∀ d ∈ fwTargets w, (s.m.fw (fwKey d (fld w 1 0))).path = none) :
    Answers (.secFwStage fn w host) s fun r => SameWork s r ∧ r.m.rdF .secMod 0 0 Off.SEC_FW_STA 7 0 = Code.OK ∧
      ∀ d ∈ fwTargets w, r.m.rdF .secMod 0 0 Off.SEC_FW_STA (16 + d) (16 + d) = 1 ∧
        (r.m.fw (fwKey d (fld w 1 0))).got = [(0, (s.m.rd .secMod 0 0 Off.SEC_FW_SIZE).toNat)] ∧
          ∀ i, i < (s.m.rd .secMod 0 0 Off.SEC_FW_SIZE).toNat →
            (r.m.fw (fwKey d (fld w 1 0))).staged.get 0 i = hostByte host (s.m.rd64 .secMod 0 0 Off.SEC_FW_SRC + i) := by
  obtain ⟨hsort, hle⟩ := fwTargets_sorted w
  obtain ⟨htargets, hkind⟩ := fwTargets_setFld w 1
  set n := (s.m.rd .secMod 0 0 Off.SEC_FW_SIZE).toNat
  set bs := (List.range n).map fun i => hostByte host (s.m.rd64 .secMod 0 0 Off.SEC_FW_SRC + i) with hbs
  have hlen : bs.length = n := by simp [hbs]
  have hbusy : ((fwTargets w).any fun d => (s.m.fw (fwKey d (fld w 1 0))).path.isSome) = false := by
    rw [List.any_eq_false]; intro d hd; rw [hfree d hd]; decide
  have hm : s.m.secStage (setFld w 11 10 1) host = ((fwTargets w).foldl (fun s d => s.fwWhole d (fld w 1 0) bs) s.m).fwSta Code.OK 0 (fwTargets w) := by
    unfold Dev.secStage
    rw [htargets, hkind]
    dsimp only
    rw [if_neg (by simpa using hds), if_neg (by rw [hbusy]; decide), if_neg (by omega)]
  obtain ⟨haside, -, hfw⟩ := Dev.foldl_dies (kind := fld w 1 0) (f := fun s d => s.fwWhole d (fld w 1 0) bs) (pre := fun _ => True)
    (P := fun _ g => g.got = [(0, bs.length)] ∧ ∀ i, i < bs.length → g.staged.get 0 i = nth 0 bs i)
    (fun s d _ => ⟨s.fwWhole_oneDie d _ bs, s.fwWhole_fw d _ bs⟩) (fwTargets w) s.m (hsort.imp Nat.ne_of_lt) fun _ _ => trivial
  refine answers_fwSta hs ((exec_secFwStage_granted hw w host).trans (congrArg s.done hm)) haside (by decide) hsort hle ?_
  intro hsta hdone
  refine ⟨hsta, fun d hd => ⟨hdone rfl d hd, ?_, fun i hi => ?_⟩⟩
  · exact (hfw d hd).1.trans (by rw [hlen])
  · refine ((hfw d hd).2 i (by omega)).trans ?_
    simp [nth, hbs, hi]

theorem answers_secStage_busy {host : HostView} (hds : fwTargets w ≠ []) {d : Nat} (hd : d ∈ fwTargets w)
    (hpath : (s.m.fw (fwKey d (fld w 1 0))).path = some 0) :
    Answers (.secFwStage fn w host) s fun r => SameWork s r ∧ r.m.fws = s.m.fws ∧ r.m.rdF .secMod 0 0 Off.SEC_FW_STA 7 0 = Code.BUSY := by
  obtain ⟨htargets, hkind⟩ := fwTargets_setFld w 1
  have hbusy : ((fwTargets w).any fun d => (s.m.fw (fwKey d (fld w 1 0))).path.isSome) = true :=
    List.any_eq_true.2 ⟨d, hd, by rw [hpath]; rfl⟩
  have hm : s.m.secStage (setFld w 11 10 1) host = s.m.fwSta Code.BUSY 0 [] := by
    unfold Dev.secStage
    rw [htargets, hkind]
    dsimp only
    rw [if_neg (by simpa using hds), if_pos hbusy]
  exact answers_fwSta hs ((exec_secFwStage_granted hw w host).trans (congrArg s.done hm)) (.refl _ _) (by decide)
    List.Pairwise.nil (by simp) fun hsta _ => ⟨rfl, hsta⟩

theorem answers_secActivate (hds : fwTargets w ≠ [])
    (hvalid : ∀ d ∈ fwTargets w, (fwSlot (s.m.fw (fwKey d (fld w 1 0))) (fwOther (s.m.fw (fwKey d (fld w 1 0))))).valid = true) :
    Answers (.secFwActivate fn w) s fun r => SameWork s r ∧ r.m.rdF .secMod 0 0 Off.SEC_FW_STA 7 0 = Code.OK ∧
      ∀ d ∈ fwTargets w, r.m.rdF .secMod 0 0 Off.SEC_FW_STA (16 + d) (16 + d) = 1 ∧
        (r.m.fw (fwKey d (fld w 1 0))).active = fwOther (s.m.fw (fwKey d (fld w 1 0))) := by
  obtain ⟨hsort, hle⟩ := fwTargets_sorted w
  obtain ⟨htargets, hkind⟩ := fwTargets_setFld w 2
  have hnodup : (fwTargets w).Nodup := hsort.imp Nat.ne_of_lt
  have hm : s.m.secActivate (setFld w 11 10 2) =
      ((fwTargets w).foldl (fun s d => (s.fwActivate d (fld w 1 0)).1) s.m).fwSta Code.OK 0 (fwTargets w) := by
    unfold Dev.secActivate
    rw [htargets, hkind]
    dsimp only
    rw [if_neg (by simpa using hds), Dev.foldl_activate _ _ [] hnodup hvalid]
    rfl
  obtain ⟨haside, -, hfw⟩ := Dev.foldl_dies (kind := fld w 1 0) (f := fun s d => (s.fwActivate d (fld w 1 0)).1)
    (pre := fun g => (fwSlot g (fwOther g)).valid = true) (P := fun g g' => g'.active = fwOther g)
    (fun s d h => by
      obtain ⟨hone, -, hact⟩ := Dev.fwActivate_oneDie h
      exact ⟨hone, congrArg Fw.active hact⟩) (fwTargets w) s.m hnodup hvalid
  exact answers_fwSta hs ((exec_secFwActivate_granted hw w).trans (congrArg s.done hm)) haside (by decide) hsort hle
    fun hsta hdone => ⟨hsta, fun d hd => ⟨hdone rfl d hd, hfw d hd⟩⟩

end

/-- Settles O11: staging takes the image into every die, or into none, and activation switches every die. -/
theorem secFwCommands : Obligations.SecFwCommands := by
  unfold Obligations.SecFwCommands
  intro s fn w host hs hw kind ds n done hds
  exact ⟨fun hn hcap hfree => answers_secStage hs hw w hds hn hcap hfree, fun _ hd hpath => answers_secStage_busy hs hw w hds hd hpath,
    fun hvalid => answers_secActivate hs hw w hds hvalid⟩

end Sys2Proof.Machine
end

section
/-! What settling does to a channel that has left service, where no collective of it runs (R362, R378, R384, R393). -/

namespace Sys2Proof.Machine
open Sys2Proof

/-! ### Where a change of state waits -/

/-- Of the channels listed, at most the one at `ch` that is read has a change of state to follow. -/
def dueOnly (ch : Nat) : Store Chan → Prop
  | [] => True
  | e :: m => (e.1 < ch ∧ e.2.due = false ∧ dueOnly ch m) ∨ (∀ x ∈ e :: m, x.2.due = false) ∨ (e.1 = ch ∧ ∀ x ∈ m, x.2.due = false)

section
variable {ch : Nat} {m : Store Chan}

theorem dueOnly_of_none (h : ∀ e ∈ m, e.2.due = false) : dueOnly ch m := by
  cases m with
  | nil => trivial
  | cons e m => exact .inr (.inl h)

theorem dueOnly_put_same (h : dueOnly ch m) (c : Chan) : dueOnly ch (m.put ch c) := by
  induction m with
  | nil => exact .inr (.inr ⟨rfl, by simp⟩)
  | cons e m ih =>
    rw [Store.put]
    split
    · next he => rcases h with ⟨hlt, -⟩ | hall | ⟨-, hrest⟩
                 · omega
                 · exact .inr (.inr ⟨rfl, fun x hx => hall x (List.mem_cons_of_mem _ hx)⟩)
                 · exact .inr (.inr ⟨rfl, hrest⟩)
    · next hne =>
      split
      · next hlt => rcases h with ⟨hgt, -⟩ | hall | ⟨heq, -⟩
                    · omega
                    · exact .inr (.inr ⟨rfl, hall⟩)
                    · exact absurd heq hne
      · next hge => rcases h with ⟨hlt, hdue, hm⟩ | hall | ⟨heq, -⟩
                    · exact .inl ⟨hlt, hdue, ih hm⟩
                    · exact .inl ⟨by omega, hall e List.mem_cons_self, ih (dueOnly_of_none fun x hx => hall x (List.mem_cons_of_mem _ hx))⟩
                    · exact absurd heq hne

theorem dueOnly_put_other (h : dueOnly ch m) {j : Nat} (hj : j ≠ ch) {c : Chan} (hc : c.due = false) : dueOnly ch (m.put j c) := by
  induction m with
  | nil => exact .inr (.inl (by simp [hc]))
  | cons e m ih =>
    rcases h with ⟨hlt, hdue, hm⟩ | hall | ⟨heq, hrest⟩
    · rw [Store.put]
      split
      · next he => exact .inl ⟨he ▸ hlt, hc, hm⟩
      · split
        · exact .inl ⟨by omega, hc, .inl ⟨hlt, hdue, hm⟩⟩
        · exact .inl ⟨hlt, hdue, ih hm⟩
    · exact dueOnly_of_none (Store.mem_put_due hc hall)
    · rw [Store.put]
      split
      · next he => exact absurd (he.symm.trans heq) hj
      · split
        · exact .inl ⟨by omega, hc, .inr (.inr ⟨heq, hrest⟩)⟩
        · exact .inr (.inr ⟨heq, Store.mem_put_due hc hrest⟩)

theorem dueOnly_erase (h : dueOnly ch m) (j : Nat) : dueOnly ch (Store.erase j m) := by
  induction m with
  | nil => trivial
  | cons e m ih =>
    rcases h with ⟨hlt, hdue, hm⟩ | hall | ⟨heq, hrest⟩
    · rw [Store.erase]
      split
      · exact ih hm
      · exact .inl ⟨hlt, hdue, ih hm⟩
    · exact dueOnly_of_none fun x hx => hall x (Store.mem_of_mem_erase hx)
    · have hm : ∀ x ∈ Store.erase j m, x.2.due = false := fun x hx => hrest x (Store.mem_of_mem_erase hx)
      rw [Store.erase]
      split
      · exact dueOnly_of_none hm
      · exact .inr (.inr ⟨heq, hm⟩)

theorem dueOnly_get_other (h : dueOnly ch m) {j : Nat} (hj : j ≠ ch) : (m.get Chan.fresh j).due = false := by
  induction m with
  | nil => rfl
  | cons e m ih =>
    rcases h with ⟨-, hdue, hm⟩ | hall | ⟨heq, hrest⟩
    · rw [Store.get]
      split
      · exact hdue
      · exact ih hm
    · exact Store.get_due hall
    · rw [Store.get, if_neg fun e => hj (e.symm.trans heq)]
      exact Store.get_due hrest

/-- Once the channel itself has nothing to follow, nothing waits. -/
theorem dueOnly_none (h : dueOnly ch m) (hch : (m.get Chan.fresh ch).due = false) : ∀ e ∈ m, e.2.due = false := by
  induction m with
  | nil => simp
  | cons e m ih =>
    rcases h with ⟨hlt, hdue, hm⟩ | hall | ⟨heq, hrest⟩
    · rw [Store.get, if_neg (by omega)] at hch
      exact List.forall_mem_cons.2 ⟨hdue, ih hm hch⟩
    · exact hall
    · rw [Store.get, if_pos heq] at hch
      exact List.forall_mem_cons.2 ⟨hch, hrest⟩

end

theorem Dev.Settled.dueOnly {s : Dev} (h : s.Settled) (ch : Nat) : dueOnly ch s.chans :=
  dueOnly_of_none fun e he => by simpa using List.all_eq_true.1 h e he

theorem dueOnly_modChan_same {s : Dev} {ch : Nat} (h : dueOnly ch s.chans) (f : Chan → Chan) : dueOnly ch (s.modChan ch f).chans := by
  simp only [Dev.modChan, Store.set, Store.setD]
  split
  · exact dueOnly_erase h ch
  · exact dueOnly_put_same h _

theorem dueOnly_modChan_other {s : Dev} {ch j : Nat} (h : dueOnly ch s.chans) (hj : j ≠ ch) {f : Chan → Chan} (hf : (f (s.chan j)).due = false) :
    dueOnly ch (s.modChan j f).chans := by
  simp only [Dev.modChan, Store.set, Store.setD]
  split
  · exact dueOnly_erase h j
  · exact dueOnly_put_other h hj hf

/-! ### One channel -/

/-- The registers that follow a change of a channel's fault state: those of its SYN and EVF pages, and its contexts' SYN pages. -/
def followRegs (ch a : Nat) : Prop := (chanWin ch + 0x10000 ≤ a ∧ a < chanWin ch + 0x12000) ∨ chanWin ch + 0x40000 ≤ a

/-- From `s` to `t` a channel's fabric and sync unit have followed its fault state: nothing that serves has changed but the requests of its
scratchpads. -/
structure Dev.Follow (ch : Nat) (s t : Dev) : Prop where
  shape : t = { s with out := t.out, regs := t.regs, chans := t.chans, cores := t.cores, mgts := t.mgts, ticket := t.ticket }
  reg : ∀ a, ¬ followRegs ch a → t.reg a = s.reg a
  chan : ∃ p f y, t.chan ch = { s.chan ch with placeDue := p, fab := f, sync := y }
  others : ∀ j, j ≠ ch → t.chan j = s.chan j
  only : dueOnly ch s.chans → dueOnly ch t.chans
  mgt : ∀ j, (s.mgt j).Notified (t.mgt j)

namespace Dev.Follow
variable {ch : Nat} {s t u : Dev}

theorem refl (ch : Nat) (s : Dev) : Dev.Follow ch s s := ⟨rfl, fun _ _ => rfl, ⟨_, _, _, rfl⟩, fun _ _ => rfl, id, fun _ => .refl _⟩

theorem trans (h : Dev.Follow ch s t) (g : Dev.Follow ch t u) : Dev.Follow ch s u where
  shape := by rw [g.shape, h.shape]
  reg a ha := (g.reg a ha).trans (h.reg a ha)
  chan := by
    obtain ⟨p, f, y, e⟩ := h.chan
    obtain ⟨p', f', y', e'⟩ := g.chan
    exact ⟨p', f', y', by rw [e', e]⟩
  others j hj := (g.others j hj).trans (h.others j hj)
  only hd := g.only (h.only hd)
  mgt j := (h.mgt j).trans (g.mgt j)

theorem foldl {α : Type} {f : Dev → α → Dev} (hf : ∀ u a, Dev.Follow ch u (f u a)) (as : List α) : ∀ {t : Dev}, Dev.Follow ch s t →
    Dev.Follow ch s (as.foldl f t) := by
  induction as with
  | nil => exact id
  | cons a as ih => exact fun h => ih (h.trans (hf _ a))

theorem branch {c : Prop} [Decidable c] (ht : Dev.Follow ch s t) (hu : Dev.Follow ch s u) : Dev.Follow ch s (if c then t else u) := by
  split
  · exact ht
  · exact hu

theorem emit (h : Dev.Follow ch s t) (o : Out) : Dev.Follow ch s (t.emit o) := by
  refine h.trans ⟨by unfold Dev.emit; split <;> rfl, fun a _ => by rw [Dev.reg, Dev.emit_regs]; rfl, ⟨_, _, _, by rw [Dev.emit_get_chan]⟩,
    fun j _ => Dev.emit_get_chan .., fun hd => by rw [Dev.emit_chans]; exact hd, fun j => by rw [Dev.emit_get_mgt]; exact .refl _⟩

theorem modChan (h : Dev.Follow ch s t) {f : Chan → Chan} (hf : ∀ c, ∃ p x y, f c = { c with placeDue := p, fab := x, sync := y }) :
    Dev.Follow ch s (t.modChan ch f) := by
  refine h.trans ⟨rfl, fun _ _ => rfl, ?_, fun _ hj => Dev.modChan_other _ hj f, fun hd => dueOnly_modChan_same hd f,
    fun _ => .refl _⟩
  obtain ⟨p, x, y, e⟩ := hf (t.chan ch)
  exact ⟨p, x, y, (Dev.modChan_same ..).trans e⟩

theorem modFab (h : Dev.Follow ch s t) (f : Fab → Fab) : Dev.Follow ch s (t.modFab ch f) := h.modChan fun _ => ⟨_, _, _, rfl⟩
theorem modSync (h : Dev.Follow ch s t) (f : Sync → Sync) : Dev.Follow ch s (t.modSync ch f) := h.modChan fun _ => ⟨_, _, _, rfl⟩

theorem cores (h : Dev.Follow ch s t) (x : Store Core) : Dev.Follow ch s { t with cores := x } :=
  h.trans ⟨rfl, fun _ _ => rfl, ⟨_, _, _, rfl⟩, fun _ _ => rfl, id, fun _ => .refl _⟩

theorem told (h : Dev.Follow ch s t) (g : t.Alerted u) : Dev.Follow ch s u :=
  h.trans ⟨by rw [g.shape], fun _ _ => by rw [g.shape]; rfl, ⟨_, _, _, by rw [g.chan]⟩, fun j _ => g.chan j, fun hd => by rw [g.shape]; exact hd, g.mgt⟩

theorem bump (h : Dev.Follow ch s t) {k : PageKind} {i o : Nat} (hlo : followRegs ch (pageOff k ch i o)) (hhi : followRegs ch (pageOff k ch i (o + 4)))
    (n : Nat) : Dev.Follow ch s (t.bump k ch i o n) := by
  refine h.trans ⟨?_, fun a ha => ?_, ⟨_, _, _, by rw [Dev.bump_get_chan]⟩, fun j _ => Dev.bump_get_chan ..,
    fun hd => by rw [Dev.bump_chans]; exact hd, fun j => by rw [Dev.bump_get_mgt]; exact .refl _⟩
  · obtain ⟨regs, e⟩ := t.bump_eq_regs k ch i o n
    rw [e]
  · exact Dev.bump_reg_other _ (fun e => ha (e ▸ hlo)) fun e => ha (e ▸ hhi)

/-! ### What leaves on the ports -/

theorem pump {p : Nat} (hp : p < 8) (n : Nat) : ∀ {t : Dev}, Dev.Follow ch s t → Dev.Follow ch s (t.pump ch p n) := by
  have hreg : ∀ o, o < 0x1000 → followRegs ch (pageOff .evfCh ch 0 o) := fun o ho => .inl (by simp only [pageOff, Page.base]; omega)
  induction n with
  | zero => exact id
  | succ n ih =>
    intro t h
    have hport := Dev.Follow.modFab h fun x => { x with ports := x.ports.set Port.fresh p { x.ports.get Port.fresh p with
      seqTx := ((t.port ch p).seqTx + 1) % 4096
      txq := (fillFlit ((t.port ch p).txq.length + 1) ⟨(t.port ch p).txq, (t.port ch p).credits, 64, []⟩).q
      replay := (x.ports.get Port.fresh p).replay ++ [(((t.port ch p).seqTx + 1) % 4096,
        (fillFlit ((t.port ch p).txq.length + 1) ⟨(t.port ch p).txq, (t.port ch p).credits, 64, []⟩).ended)]
      credits := (fillFlit ((t.port ch p).txq.length + 1) ⟨(t.port ch p).txq, (t.port ch p).credits, 64, []⟩).credits } }
    have hflit := hport.bump (k := .evfCh) (i := 0) (o := Off.EVF_TXFLIT + p * 0x40) (hreg _ (by simp only [Off.EVF_TXFLIT]; omega))
      (hreg _ (by simp only [Off.EVF_TXFLIT]; omega)) 1
    exact .branch h (ih (.foldl (fun u m => (refl ch u).emit _) _ hflit))

theorem queueMsg (h : Dev.Follow ch s t) {p : Nat} (hp : p < 8) (st : Option Nat) (m : FabMsg) : Dev.Follow ch s (t.queueMsg ch p st m) :=
  pump hp 128 (h.modFab _)

theorem helloAll (h : Dev.Follow ch s t) (standby : Bool) : Dev.Follow ch s (t.helloAll ch standby) := by
  have hup : ∀ p ∈ t.upPorts ch, p < 8 := fun p hp => List.mem_range.1 (List.mem_filter.1 hp).1
  unfold Dev.helloAll
  revert hup
  generalize t.upPorts ch = ps
  intro hup
  induction ps generalizing t with
  | nil => exact h
  | cons p ps ih =>
    exact ih (.branch (h.queueMsg (hup p List.mem_cons_self) none _) h) fun q hq => hup q (List.mem_cons_of_mem _ hq)

/-! ### What the channel drops -/

/-- Without a collective, the channel's reads and digests are all that the fabric drops. -/
theorem dropFabric (h : Dev.Follow ch s t) (hruns : (t.fab ch).colls = []) : Dev.Follow ch s (t.dropFabric ch) := by
  have hnone : t.dropFabric ch = (t.evfBump ch Off.EVF_COLLFAIL 0).modFab ch fun x => { x with colls := [], digests := [], reads := [] } := by
    unfold Dev.dropFabric
    rw [hruns]
    simp only [List.filter_nil, List.foldl_nil, hruns, List.length_nil]
  rw [hnone]
  exact modFab (t := t.evfBump ch Off.EVF_COLLFAIL 0) h _

theorem dropSync (h : Dev.Follow ch s t) : Dev.Follow ch s (t.dropSync ch) := by
  refine .foldl (fun u e => (refl ch u).bump ?_ ?_ 1) _ (.bump (h.modSync _) ?_ ?_ _)
  · exact .inr (by simp only [pageOff, Page.base]; omega)
  · exact .inr (by simp only [pageOff, Page.base]; omega)
  · exact .inl (by simp only [pageOff, Page.base, Off.SYN_BROKEN]; omega)
  · exact .inl (by simp only [pageOff, Page.base, Off.SYN_BROKEN]; omega)

theorem dropScratch (h : Dev.Follow ch s t) : Dev.Follow ch s (t.dropScratch ch) := h.cores _

theorem haltWords (h : Dev.Follow ch s t) : Dev.Follow ch s (t.haltWords ch) :=
  .branch h (.foldl (fun u _ => .branch (.branch (((refl ch u).emit _).emit _) ((refl ch u).emit _)) (refl ch u)) _ h)

theorem noteReady (h : Dev.Follow ch s t) (was : Bool) : Dev.Follow ch s (t.noteReady was) := .branch (h.told (t.raiseIbiBare_told 8 3 1 0)) h

end Dev.Follow

/-- A channel without a collective follows its own fault state alone. -/
theorem Dev.settleCh_follow {s : Dev} {ch : Nat} (hruns : (s.fab ch).colls = []) : Dev.Follow ch (s.modChan ch Chan.undue) (s.settleCh ch) := by
  have hcolls : ((s.modChan ch Chan.undue).fab ch).colls = [] := (congrArg (fun c : Chan => c.fab.colls) (Dev.modChan_same ..)).trans hruns
  have hrefl := Dev.Follow.refl ch (s.modChan ch Chan.undue)
  have hsafe : Dev.Follow ch (s.modChan ch Chan.undue) (if (s.chan ch).safeDue then
      (((s.modChan ch Chan.undue).dropFabric ch).dropSync ch).dropScratch ch else s.modChan ch Chan.undue) :=
    .branch (hrefl.dropFabric hcolls).dropSync.dropScratch hrefl
  have hhalt {u : Dev} (hu : Dev.Follow ch (s.modChan ch Chan.undue) u) : Dev.Follow ch (s.modChan ch Chan.undue)
      (if (s.chan ch).haltDue then ((u.haltWords ch).noteReady (u.chReady ch)).modChan ch fun c => { c with placeDue := true } else u) :=
    .branch ((hu.haltWords.noteReady _).modChan fun _ => ⟨_, _, _, rfl⟩) hu
  exact Dev.Follow.branch ((hhalt hsafe).helloAll false) (hhalt hsafe)

/-- A channel with nothing to follow stays as it is. -/
theorem Dev.settleCh_undue {s : Dev} {ch : Nat} (h : (s.chan ch).due = false) : s.settleCh ch = s.modChan ch Chan.undue := by
  obtain ⟨⟨hsafe, hhalt⟩, hnotice⟩ : ((s.chan ch).safeDue = false ∧ (s.chan ch).haltDue = false) ∧ (s.chan ch).noticeDue = false := by
    simpa [Chan.due] using h
  unfold Dev.settleCh
  simp [hsafe, hhalt, hnotice]
  rfl

theorem Chan.undue_of_not_due {c : Chan} (h : c.due = false) : c.undue = c := by
  obtain ⟨⟨hsafe, hhalt⟩, hnotice⟩ : (c.safeDue = false ∧ c.haltDue = false) ∧ c.noticeDue = false := by simpa [Chan.due] using h
  cases c
  simp only at hsafe hhalt hnotice
  subst hsafe hhalt hnotice
  rfl

/-! ### The module -/

/-- From `s` to `t` a channel has followed its fault state, and nothing is left to follow. -/
structure Dev.Followed (ch : Nat) (s t : Dev) : Prop where
  shape : t = { s with out := t.out, regs := t.regs, chans := t.chans, cores := t.cores, mgts := t.mgts, ticket := t.ticket }
  reg : ∀ a, ¬ followRegs ch a → t.reg a = s.reg a
  chan : ∃ d h n p f y, t.chan ch = { s.chan ch with safeDue := d, haltDue := h, noticeDue := n, placeDue := p, fab := f, sync := y }
  others : ∀ j, j ≠ ch → t.chan j = s.chan j
  mgt : ∀ j, (s.mgt j).Notified (t.mgt j)

namespace Dev.Followed
variable {ch : Nat} {s t u : Dev}

theorem refl (ch : Nat) (s : Dev) : Dev.Followed ch s s := ⟨rfl, fun _ _ => rfl, ⟨_, _, _, _, _, _, rfl⟩, fun _ _ => rfl, fun _ => .refl _⟩

theorem trans (h : Dev.Followed ch s t) (g : Dev.Followed ch t u) : Dev.Followed ch s u where
  shape := by rw [g.shape, h.shape]
  reg a ha := (g.reg a ha).trans (h.reg a ha)
  chan := by
    obtain ⟨_, _, _, _, _, _, e⟩ := h.chan
    obtain ⟨_, _, _, _, _, _, e'⟩ := g.chan
    exact ⟨_, _, _, _, _, _, by rw [e', e]⟩
  others j hj := (g.others j hj).trans (h.others j hj)
  mgt j := (h.mgt j).trans (g.mgt j)

end Dev.Followed

/-- The channel itself settles. -/
theorem Dev.settleCh_same {s : Dev} {ch : Nat} (h : dueOnly ch s.chans) (hruns : (s.fab ch).colls = []) :
    Dev.Followed ch s (s.settleCh ch) ∧ (s.settleCh ch).Settled := by
  have hf := Dev.settleCh_follow hruns
  obtain ⟨p, f, y, hch⟩ := hf.chan
  rw [Dev.modChan_same] at hch
  have hdue : ((s.settleCh ch).chan ch).due = false := by rw [hch]; rfl
  refine ⟨⟨?_, hf.reg, ⟨_, _, _, _, _, _, hch⟩, fun j hj => (hf.others j hj).trans (Dev.modChan_other _ hj _), hf.mgt⟩, ?_⟩
  · rw [hf.shape]; rfl
  · have hnone := dueOnly_none (hf.only (dueOnly_modChan_same h _)) hdue
    exact List.all_eq_true.2 fun e he => by simpa using hnone e he

/-- Another channel has nothing to follow. -/
theorem Dev.settleCh_other {s : Dev} {ch j : Nat} (h : dueOnly ch s.chans) (hj : j ≠ ch) :
    Dev.Followed ch s (s.settleCh j) ∧ dueOnly ch (s.settleCh j).chans ∧ (s.settleCh j).chan ch = s.chan ch ∧
      (s.Settled → (s.settleCh j).Settled) := by
  have hdue : (s.chan j).due = false := dueOnly_get_other h hj
  have hall : ∀ i, (s.modChan j Chan.undue).chan i = s.chan i := fun i => by
    by_cases hi : i = j
    · subst hi; rw [Dev.modChan_same, Chan.undue_of_not_due hdue]
    · exact Dev.modChan_other _ hi _
  rw [Dev.settleCh_undue hdue]
  exact ⟨⟨rfl, fun _ _ => rfl, ⟨_, _, _, _, _, _, hall ch⟩, fun i _ => hall i, fun _ => .refl _⟩, dueOnly_modChan_other h hj rfl, hall ch,
    fun hs => hs.modChan rfl⟩

/-- A round over the channels settles the module, where the channel that has changed is among them. -/
theorem Dev.foldl_settleCh {ch : Nat} (chs : List Nat) : ∀ {s : Dev}, dueOnly ch s.chans → (s.fab ch).colls = [] ∨ s.Settled → ch ∈ chs ∨ s.Settled →
    Dev.Followed ch s (chs.foldl (fun s j => s.settleCh j) s) ∧ (chs.foldl (fun s j => s.settleCh j) s).Settled := by
  induction chs with
  | nil => exact fun _ _ hin => ⟨.refl _ _, hin.resolve_left (by simp)⟩
  | cons j chs ih =>
    intro s h hruns hin
    by_cases hj : j = ch
    · subst hj
      have hstep : Dev.Followed j s (s.settleCh j) ∧ (s.settleCh j).Settled := by
        rcases hruns with hruns | hs
        · exact Dev.settleCh_same h hruns
        · have hall : (s.modChan j Chan.undue).chan j = s.chan j := by rw [Dev.modChan_same, Chan.undue_of_not_due (hs.chan j)]
          rw [Dev.settleCh_undue (hs.chan j)]
          exact ⟨⟨rfl, fun _ _ => rfl, ⟨_, _, _, _, _, _, hall⟩, fun i hi => Dev.modChan_other _ hi _, fun _ => .refl _⟩, hs.modChan rfl⟩
      obtain ⟨hrest, hend⟩ := ih (hstep.2.dueOnly j) (.inr hstep.2) (.inr hstep.2)
      exact ⟨hstep.1.trans hrest, hend⟩
    · obtain ⟨hstep, honly, hch, hsettled⟩ := Dev.settleCh_other h hj
      obtain ⟨hrest, hend⟩ := ih honly (hruns.imp (fun e => (congrArg (fun c : Chan => c.fab.colls) hch).trans e) hsettled)
        (hin.imp (fun e => (List.mem_cons.1 e).resolve_left (Ne.symm hj)) hsettled)
      exact ⟨hstep.trans hrest, hend⟩

/-- Settling does to the module what the channel's fault state brings with it. -/
theorem Dev.settle_followed {s : Dev} {ch : Nat} (hch : ch < 8) (h : dueOnly ch s.chans) (hruns : (s.fab ch).colls = []) :
    Dev.Followed ch s s.settle := by
  rw [Dev.settle, Dev.settleFor]
  split
  · obtain ⟨hround, hend⟩ := Dev.foldl_settleCh (List.range 8) h (.inl hruns) (.inl (List.mem_range.2 hch))
    rw [Dev.settled_iff] at hend
    rw [Dev.settleFor, if_neg (by simp [hend])]
    exact hround
  · exact .refl ch s

end Sys2Proof.Machine
end

section
/-! Entry to CONTAINED and HALTED, and what settling leaves of it (R376, R378, R384). -/

namespace Sys2Proof.Machine
open Sys2Proof

/-! ### Changes of registers, of one channel's state, and of targets -/

/-- From `s` to `t` a channel's fault state has moved: of the registers only those in `R` have changed, of channels only that one, and nothing
that serves. -/
structure Dev.Moves (R : Nat → Prop) (ch : Nat) (s t : Dev) : Prop where
  shape : t = { s with out := t.out, regs := t.regs, chans := t.chans, mgts := t.mgts, ticket := t.ticket }
  reg : ∀ a, ¬ R a → t.reg a = s.reg a
  chan : ∃ d qe qd x y z e, t.chan ch =
    { s.chan ch with deferred := d, quietEnd := qe, quietDone := qd, safeDue := x, haltDue := y, noticeDue := z, evr := e }
  others : ∀ j, j ≠ ch → t.chan j = s.chan j
  only : dueOnly ch s.chans → dueOnly ch t.chans
  mgt : ∀ j, (s.mgt j).Notified (t.mgt j)

namespace Dev.Moves
variable {R : Nat → Prop} {ch : Nat} {s t u : Dev}

theorem refl (R : Nat → Prop) (ch : Nat) (s : Dev) : Dev.Moves R ch s s :=
  ⟨rfl, fun _ _ => rfl, ⟨_, _, _, _, _, _, _, rfl⟩, fun _ _ => rfl, id, fun _ => .refl _⟩

theorem trans (h : Dev.Moves R ch s t) (g : Dev.Moves R ch t u) : Dev.Moves R ch s u where
  shape := by rw [g.shape, h.shape]
  reg a ha := (g.reg a ha).trans (h.reg a ha)
  chan := by
    obtain ⟨_, _, _, _, _, _, _, e⟩ := h.chan
    obtain ⟨_, _, _, _, _, _, _, e'⟩ := g.chan
    exact ⟨_, _, _, _, _, _, _, by rw [e', e]⟩
  others j hj := (g.others j hj).trans (h.others j hj)
  only hd := g.only (h.only hd)
  mgt j := (h.mgt j).trans (g.mgt j)

theorem modChan (h : Dev.Moves R ch s t) {f : Chan → Chan} (hf : ∀ c, ∃ d qe qd x y z e, f c =
    { c with deferred := d, quietEnd := qe, quietDone := qd, safeDue := x, haltDue := y, noticeDue := z, evr := e }) :
    Dev.Moves R ch s (t.modChan ch f) := by
  refine h.trans ⟨rfl, fun _ _ => rfl, ?_, fun _ hj => Dev.modChan_other _ hj f, fun hd => dueOnly_modChan_same hd f, fun _ => .refl _⟩
  obtain ⟨_, _, _, _, _, _, _, e⟩ := hf (t.chan ch)
  exact ⟨_, _, _, _, _, _, _, (Dev.modChan_same ..).trans e⟩

theorem wr (h : Dev.Moves R ch s t) {k : PageKind} {c i o : Nat} (ha : R (pageOff k c i o)) (w : Word) : Dev.Moves R ch s (t.wr k c i o w) :=
  h.trans ⟨rfl, fun b hb => Dev.setReg_reg_other t (fun e : b = _ => hb (e ▸ ha)) w, ⟨_, _, _, _, _, _, _, rfl⟩, fun _ _ => rfl, id, fun _ => .refl _⟩

theorem bump (h : Dev.Moves R ch s t) {k : PageKind} {c i o : Nat} (hlo : R (pageOff k c i o)) (hhi : R (pageOff k c i (o + 4))) (n : Nat) :
    Dev.Moves R ch s (t.bump k c i o n) := by
  unfold Dev.bump
  split
  · exact h
  · exact (h.wr hlo _).wr hhi _

theorem told (h : Dev.Moves R ch s t) (g : t.Alerted u) : Dev.Moves R ch s u :=
  h.trans ⟨by rw [g.shape], fun _ _ => by rw [g.shape]; rfl, ⟨_, _, _, _, _, _, _, by rw [g.chan]⟩, fun j _ => g.chan j,
    fun hd => by rw [g.shape]; exact hd, g.mgt⟩

theorem logged (h : Dev.Moves R ch s t) (hr : ∀ a, recRegs ch a → R a) (g : Dev.Logged ch t u) : Dev.Moves R ch s u := by
  obtain ⟨r, hr'⟩ := g.chan
  obtain ⟨r₂, hch⟩ := g.chan_same
  exact h.trans ⟨g.shape, fun a ha => g.reg a fun e => ha (hr a e), ⟨_, _, _, _, _, _, _, hch⟩, fun j hj => g.chan_other hj,
    fun hd => by rw [hr']; exact dueOnly_modChan_same hd _, g.mgt⟩

end Dev.Moves

theorem Dev.emit_alerted (s : Dev) (o : Out) : s.Alerted (s.emit o) := .emit o

/-- The notices of a change are a record, an interrupt and a message. -/
theorem Dev.fltNotice_logged (s : Dev) (ch : Nat) : Dev.Logged ch s (s.fltNotice ch) := by
  have hrec := s.record_logged ch (Ev.plain 0x100 0 true [s.fltState ch, s.rdF .fltCh ch 0 Off.FLT_STA 10 4])
  unfold Dev.fltNotice
  dsimp only
  split
  · have hibi := hrec.told (Dev.raiseIbi_told _ ch 1 (s.fltState ch) (s.rdF .fltCh ch 0 Off.FLT_STA 10 4)
      (Dev.lastSeq (s.record ch (Ev.plain 0x100 0 true [s.fltState ch, s.rdF .fltCh ch 0 Off.FLT_STA 10 4])) ch))
    split
    · exact hibi.told (Dev.emit_alerted ..)
    · exact hibi
  · split
    · exact hrec.told (Dev.emit_alerted ..)
    · exact hrec

/-! ### The entry -/

/-- FLT_STA of a channel that has entered a state. -/
def enteredWord (w : Word) (st cause : Nat) (forced : Bool) : Word :=
  setFld (setFld (setFld (setFld w 1 0 st) 2 2 1) 3 3 forced.toNat) 10 4 cause

theorem fld_enteredWord (w : Word) {st cause : Nat} (hst : st < 4) (hcause : cause < 128) (forced : Bool) :
    fld (enteredWord w st cause forced) 1 0 = st ∧ fld (enteredWord w st cause forced) 2 2 = 1 ∧
      fld (enteredWord w st cause forced) 3 3 = forced.toNat ∧ fld (enteredWord w st cause forced) 10 4 = cause := by
  unfold enteredWord
  refine ⟨?_, ?_, ?_, ?_⟩
  · rw [fld_setFld_apart _ (by decide) (by decide) (.inr (by decide)), fld_setFld_apart _ (by decide) (by decide) (.inr (by decide)),
      fld_setFld_apart _ (by decide) (by decide) (.inr (by decide)), fld_setFld_same _ (by decide) (by decide)]
    exact Nat.mod_eq_of_lt hst
  · rw [fld_setFld_apart _ (by decide) (by decide) (.inr (by decide)), fld_setFld_apart _ (by decide) (by decide) (.inr (by decide)),
      fld_setFld_same _ (by decide) (by decide)]
    rfl
  · rw [fld_setFld_apart _ (by decide) (by decide) (.inr (by decide)), fld_setFld_same _ (by decide) (by decide)]
    cases forced <;> rfl
  · rw [fld_setFld_same _ (by decide) (by decide)]
    exact Nat.mod_eq_of_lt hcause

/-- Counters of an entry: those of the entries, and the recorder's. -/
def entryRegs (ch a : Nat) : Prop :=
  a = pageOff .fltCh ch 0 Off.FLT_CONTAIN ∨ a = pageOff .fltCh ch 0 (Off.FLT_CONTAIN + 4) ∨
  a = pageOff .fltMod 0 0 Off.FLT_MOD_HALT ∨ a = pageOff .fltMod 0 0 (Off.FLT_MOD_HALT + 4) ∨ recRegs ch a

/-- The words that an entry writes, and its counters. -/
def stopRegs (ch a : Nat) : Prop :=
  a = pageOff .fltCh ch 0 Off.FLT_STA ∨ a = pageOff .fltCh ch 0 Off.FLT_TENTER ∨ a = pageOff .fltCh ch 0 (Off.FLT_TENTER + 4) ∨ entryRegs ch a

/-- A word below the counters of an entry. -/
theorem not_entryRegs {ch o : Nat} (ho : o < 0x1000) (h : o ≠ Off.FLT_CONTAIN ∧ o ≠ Off.FLT_CONTAIN + 4) : ¬ entryRegs ch (pageOff .fltCh ch 0 o) := by
  unfold entryRegs recRegs
  simp only [pageOff, Page.base, chanWin, Off.FLT_CONTAIN, Off.FLT_MOD_HALT, Off.EVR_REC, Off.EVR_SUPP] at h ⊢
  omega

/-- From `s` to `t` the channel has entered a fault state: its words say so, its tiles have dropped their work, and memory, the request table and
the sequences are as they were. -/
structure Dev.Entered (ch st cause : Nat) (forced : Bool) (s t : Dev) : Prop where
  shape : t = { s with out := t.out, regs := t.regs, chans := t.chans, tiles := t.tiles, cores := t.cores, clusters := t.clusters, mgts := t.mgts,
                       hubGroups := t.hubGroups, ticket := t.ticket }
  sta : t.rd .fltCh ch 0 Off.FLT_STA = enteredWord (s.rd .fltCh ch 0 Off.FLT_STA) st cause forced
  time : t.rd64 .fltCh ch 0 Off.FLT_TENTER = (s.chan ch).time % 2 ^ 64
  reg : ∀ a, ¬ stopRegs ch a → t.reg a = s.reg a
  chan : ∃ d qe qd x y z e, t.chan ch =
    { s.chan ch with deferred := d, quietEnd := qe, quietDone := qd, safeDue := x, haltDue := y, noticeDue := z, evr := e }
  others : ∀ j, j ≠ ch → t.chan j = s.chan j
  only : dueOnly ch s.chans → dueOnly ch t.chans
  tiles : t.tiles = (s.stopArray ch).tiles
  mgt : ∀ j, (s.mgt j).Notified (t.mgt j)

/-- Registers alone differ after a write, where they alone differed before it. -/
theorem Dev.setReg_regs_only {s u : Dev} (h : u = { s with regs := u.regs }) (a : Nat) (w : Word) :
    u.setReg a w = { s with regs := (u.setReg a w).regs } := by
  generalize u.regs = regs at h
  subst h
  rfl

theorem Dev.enterFlt_eq (s : Dev) (ch st cause : Nat) (forced : Bool) :
    s.enterFlt ch st cause forced = { s with regs := (s.enterFlt ch st cause forced).regs } :=
  Dev.setReg_regs_only (Dev.setReg_regs_only (Dev.setReg_regs_only rfl _ _) _ _) _ _

theorem Dev.enterFlt_chans (s : Dev) (ch st cause : Nat) (forced : Bool) : (s.enterFlt ch st cause forced).chans = s.chans := by
  rw [s.enterFlt_eq ch st cause forced]

theorem Dev.enterFlt_mgts (s : Dev) (ch st cause : Nat) (forced : Bool) : (s.enterFlt ch st cause forced).mgts = s.mgts := by
  rw [s.enterFlt_eq ch st cause forced]

theorem Dev.enterFlt_chan (s : Dev) (ch st cause : Nat) (forced : Bool) (j : Nat) : (s.enterFlt ch st cause forced).chan j = s.chan j := by
  rw [Dev.chan, s.enterFlt_chans ch st cause forced]; rfl

theorem Dev.enterFlt_sta (s : Dev) (ch st cause : Nat) (forced : Bool) :
    (s.enterFlt ch st cause forced).rd .fltCh ch 0 Off.FLT_STA = enteredWord (s.rd .fltCh ch 0 Off.FLT_STA) st cause forced := by
  unfold Dev.enterFlt Dev.wr64
  rw [Dev.wr_rd_other _ (by simp [pageOff, Off.FLT_STA, Off.FLT_TENTER]), Dev.wr_rd_other _ (by simp [pageOff, Off.FLT_STA, Off.FLT_TENTER]),
    Dev.wr_rd_same]
  rfl

theorem Dev.enterFlt_time (s : Dev) (ch st cause : Nat) (forced : Bool) :
    (s.enterFlt ch st cause forced).rd64 .fltCh ch 0 Off.FLT_TENTER = (s.chan ch).time % 2 ^ 64 := Dev.wr64_rd64 ..

theorem Dev.enterFlt_reg (s : Dev) {ch a : Nat} (h : ¬ stopRegs ch a) (st cause : Nat) (forced : Bool) :
    (s.enterFlt ch st cause forced).reg a = s.reg a := by
  simp only [stopRegs, not_or] at h
  obtain ⟨hsta, hlo, hhi, -⟩ := h
  unfold Dev.enterFlt Dev.wr64
  rw [Dev.wr_reg_other _ hhi, Dev.wr_reg_other _ hlo, Dev.wr_reg_other _ hsta]

theorem Dev.safeState_eq (s : Dev) (ch : Nat) : s.safeState ch = { s with
    tiles := (s.safeState ch).tiles, cores := (s.safeState ch).cores, clusters := (s.safeState ch).clusters,
    hubGroups := (s.safeState ch).hubGroups } := rfl

/-- The stop of tiles looks at the tiles and the channel's plank. -/
theorem Dev.safeState_tiles {s u : Dev} {ch : Nat} (htiles : u.tiles = s.tiles) (hplank : (u.chan ch).plank = (s.chan ch).plank) :
    (u.safeState ch).tiles = (s.stopArray ch).tiles := by
  simp only [Dev.safeState, Dev.stopArray, htiles, hplank]

/-- The parts of an entry change what an entry changes. -/
theorem Dev.entered_shape {s e u x t : Dev} (he : e = { s with regs := e.regs })
    (hu : u = { e with out := u.out, regs := u.regs, chans := u.chans, mgts := u.mgts, ticket := u.ticket })
    (hx : x = { u with tiles := x.tiles, cores := x.cores, clusters := x.clusters, hubGroups := x.hubGroups })
    (ht : t = { x with out := t.out, regs := t.regs, chans := t.chans, mgts := t.mgts, ticket := t.ticket }) :
    t = { s with out := t.out, regs := t.regs, chans := t.chans, tiles := t.tiles, cores := t.cores, clusters := t.clusters, mgts := t.mgts,
                 hubGroups := t.hubGroups, ticket := t.ticket } := by
  rw [ht, hx, hu, he]

/-- An entry: the words, changes before the stop of the engines, the stop, and changes after it. -/
theorem Dev.entered_of {ch st cause : Nat} {forced : Bool} {s u t : Dev} (hu : Dev.Moves (entryRegs ch) ch (s.enterFlt ch st cause forced) u)
    (ht : Dev.Moves (entryRegs ch) ch (u.safeState ch) t) : Dev.Entered ch st cause forced s t := by
  have hent := s.enterFlt_eq ch st cause forced
  have hsta := s.enterFlt_sta ch st cause forced
  have htime := s.enterFlt_time ch st cause forced
  have hkept (a) (ha : ¬ stopRegs ch a) := s.enterFlt_reg ha st cause forced
  have hchans := s.enterFlt_chans ch st cause forced
  have hchan := s.enterFlt_chan ch st cause forced
  have hmgts := s.enterFlt_mgts ch st cause forced
  generalize s.enterFlt ch st cause forced = e at hu hent hsta htime hkept hchans hchan hmgts
  have hsafe := u.safeState_eq ch
  have htiles := Dev.safeState_tiles (s := s) (u := u) (ch := ch)
  have hengines : (u.safeState ch).chans = u.chans ∧ (u.safeState ch).mgts = u.mgts ∧ (u.safeState ch).regs = u.regs := ⟨rfl, rfl, rfl⟩
  generalize u.safeState ch = x at ht hsafe htiles hengines
  obtain ⟨hxchans, hxmgts, hxregs⟩ := hengines
  have hreg : ∀ a, ¬ entryRegs ch a → t.reg a = e.reg a := fun a ha => by rw [ht.reg a ha, ← hu.reg a ha, Dev.reg, hxregs]; rfl
  have hrd : ∀ o, o < 0x1000 → o ≠ Off.FLT_CONTAIN ∧ o ≠ Off.FLT_CONTAIN + 4 → t.rd .fltCh ch 0 o = e.rd .fltCh ch 0 o :=
    fun o ho h => hreg _ (not_entryRegs ho h)
  have hxchan : ∀ j, x.chan j = u.chan j := fun j => by rw [Dev.chan, hxchans]; rfl
  obtain ⟨_, _, _, _, _, _, _, huch⟩ := hu.chan
  obtain ⟨_, _, _, _, _, _, _, htch⟩ := ht.chan
  rw [hchan] at huch
  rw [hxchan, huch] at htch
  refine ⟨Dev.entered_shape hent hu.shape hsafe ht.shape, (hrd _ (by decide) (by decide)).trans hsta, ?_,
    fun a ha => (hreg a fun h => ha (.inr (.inr (.inr h)))).trans (hkept a ha), ⟨_, _, _, _, _, _, _, htch⟩,
    fun j hj => by rw [ht.others j hj, hxchan, hu.others j hj, hchan], fun hd => ht.only (hxchans ▸ hu.only (hchans ▸ hd)), ?_, fun j => ?_⟩
  · rw [Dev.rd64, hrd _ (by decide) (by decide), hrd _ (by decide) (by decide)]
    exact htime
  · rw [ht.shape]
    exact htiles (by rw [hu.shape, hent]) (by rw [huch])
  · have hbefore : (s.mgt j).Notified (u.mgt j) := by
      have h := hu.mgt j
      rwa [Dev.mgt, hmgts] at h
    have hafter := ht.mgt j
    rw [Dev.mgt, hxmgts] at hafter
    exact hbefore.trans hafter

theorem Dev.contain_entered {s : Dev} {ch : Nat} (h : s.fltState ch = 0) (cause : Nat) (forced : Bool) :
    Dev.Entered ch 1 cause forced s (s.contain ch cause forced) := by
  have he : s.contain ch cause forced = (((((s.enterFlt ch 1 cause forced).startQuiet ch).bump .fltCh ch 0 Off.FLT_CONTAIN 1).safeState ch).modChan ch
      fun c => { c with safeDue := true, noticeDue := true }).fltNotice ch := by
    unfold Dev.contain
    simp only [h]
  rw [he]
  have hquiet : Dev.Moves (entryRegs ch) ch (s.enterFlt ch 1 cause forced) ((s.enterFlt ch 1 cause forced).startQuiet ch) :=
    .modChan (.refl _ ch _) fun _ => ⟨_, _, _, _, _, _, _, rfl⟩
  have hcount := hquiet.bump (k := .fltCh) (c := ch) (i := 0) (o := Off.FLT_CONTAIN) (.inl rfl) (.inr (.inl rfl)) 1
  exact Dev.entered_of hcount (.logged (.modChan (.refl _ ch _) fun _ => ⟨_, _, _, _, _, _, _, rfl⟩)
    (fun a ha => .inr (.inr (.inr (.inr ha)))) (Dev.fltNotice_logged ..))

theorem Dev.halt_entered {s : Dev} {ch : Nat} (h : s.fltState ch ≠ 2) (cause : Nat) (forced : Bool) :
    Dev.Entered ch 2 cause forced s (s.halt ch cause forced) := by
  have he : s.halt ch cause forced = ((((s.enterFlt ch 2 cause forced).bump .fltMod 0 0 Off.FLT_MOD_HALT 1).safeState ch).modChan ch
      fun c => { c with quietDone := false, deferred := [], safeDue := true, haltDue := true, noticeDue := true }).fltNotice ch :=
    if_neg h
  rw [he]
  have hcount := (Dev.Moves.refl (entryRegs ch) ch (s.enterFlt ch 2 cause forced)).bump (k := .fltMod) (c := 0) (i := 0) (o := Off.FLT_MOD_HALT)
    (.inr (.inr (.inl rfl))) (.inr (.inr (.inr (.inl rfl)))) 1
  exact Dev.entered_of hcount (.logged (.modChan (.refl _ ch _) fun _ => ⟨_, _, _, _, _, _, _, rfl⟩)
    (fun a ha => .inr (.inr (.inr (.inr ha)))) (Dev.fltNotice_logged ..))

/-! ### The work of tiles (R60, R378) -/

theorem stopTile_mvms (k plank : Nat) (t : Tile) : (stopTile k plank t).mvms = [] := by
  unfold stopTile
  dsimp only
  split <;> rfl

/-- What holds of every listed value, and of the default, holds of a value that is read. -/
theorem Store.get_of_forall {α : Type} {P : α → Prop} {d : α} {k : Nat} (hd : P d) {m : Store α} (h : ∀ e ∈ m, e.1 = k → P e.2) : P (m.get d k) := by
  induction m with
  | nil => exact hd
  | cons e m ih =>
    rw [Store.get]
    split
    · next hk => exact h e List.mem_cons_self hk
    · exact ih fun x hx => h x (List.mem_cons_of_mem _ hx)

/-- No tile of a stopped channel has work left. -/
theorem Dev.stopArray_mvms (s : Dev) {ch k : Nat} (hk : tileCh k = ch) : ((s.stopArray ch).tile k).mvms = [] := by
  refine Store.get_of_forall (P := fun t : Tile => t.mvms = []) rfl fun e he hek => ?_
  obtain ⟨x, -, hx⟩ := List.mem_filterMap.1 he
  obtain ⟨-, hsome⟩ := Option.ite_none_left_eq_some.1 hx
  obtain rfl := Option.some.inj hsome
  dsimp only at hek ⊢
  rw [if_pos (hek ▸ hk)]
  exact stopTile_mvms ..

theorem Dev.Entered.mvms {ch st cause : Nat} {forced : Bool} {s t : Dev} (h : Dev.Entered ch st cause forced s t) {k : Nat} (hk : tileCh k = ch) :
    (t.tile k).mvms = [] := by
  have e : t.tile k = (s.stopArray ch).tile k := by rw [Dev.tile, h.tiles]; rfl
  rw [e]
  exact s.stopArray_mvms hk

end Sys2Proof.Machine
end

section
/-! Management requests that act (O10). -/

theorem Sys2Proof.Mgt.Notified.mrl {a b : Sys2Proof.Mgt} (h : a.Notified b) : b.mrl = a.mrl := by
  obtain ⟨_, _, rfl⟩ := h
  rfl

namespace Sys2Proof.Machine
open Sys2Proof

/-! ### A request that changes the management side alone -/

section
variable {c : Instr} {s : State} {t tag len status : Nat} {boot : Bool} {run : Dev → Dev × Nat × List Byte} {m : Dev}

/-- A served request without a payload in its response. -/
theorem answers_acting (hs : s.m.Settled) (h : s.m.Serves t len 0) (hc : exec c s = s.done (s.m.request t tag len boot run))
    (hrun : run (s.m.asked t) = (m, status, [])) (haside : (s.m.asked t).Aside (fun _ => True) m) (hmrl : (m.mgt t).mrl = (s.m.mgt t).mrl)
    {P : State → Prop} (hP : ∀ r, Dev.Answered t (frame status tag []) m r → P { s with m := r }) :
    Answers c s fun r => SameWork s r ∧ P r := by
  refine answers_request hs h hc (by rw [hrun]; exact haside) (by rw [hrun]; exact hmrl) (by rw [hrun]; exact Nat.zero_le 0) ?_
  rw [hrun]
  exact fun r hr _ => hP r hr

end

/-- What acts beside a channel's recorder keeps a target's read limit. -/
theorem Dev.fwRecord_mrl (s : Dev) (code die kind slot svn t : Nat) : ((s.fwRecord code die kind slot svn).mgt t).mrl = (s.mgt t).mrl := by
  unfold Dev.fwRecord
  split
  · exact ((s.record_logged die _).mgt t).mrl
  · rfl

/-! ### SET_TIME (R489, R502) -/

theorem answers_setTime {s : State} {ch : ChId} {tag : Byte} {ms : Word64} (hs : s.m.Settled) (h : s.m.Serves ch.val 8 0) :
    Answers (.setTime ⟨ch.val, by omega⟩ tag ms) s fun r => SameWork s r ∧
      r.m.calendar ch.val = ms.toNat ∧ (r.m.mgt ch.val).tset = true ∧ (r.m.mgt ch.val).resp = some (frame Code.OK tag.toNat []) := by
  set a := s.m.asked ch.val with ha
  set f : Mgt → Mgt := fun m => { m with calBase := ms.toNat, calAt := a.mgtMs, tset := true } with hf
  set e := Ev.plain 0x0320 1 true ((toBytes 8 (a.calendar ch.val)).map (·.toNat))
  have hcmd : a.setTimeCmd ch.val ms.toNat = (a.modMgt ch.val f).record ch.val e :=
    (if_pos ch.isLt).trans (if_pos ch.isLt)
  have hrec := (a.modMgt ch.val f).record_logged ch.val e
  obtain ⟨evs, ibi, hmgt⟩ := hrec.mgt ch.val
  rw [Dev.modMgt_same, ha, Dev.asked_mgt, ← ha] at hmgt
  refine answers_acting hs h rfl (by rw [← ha, hcmd]) ((Dev.Aside.modMgt (.refl _ a) ch.val f).record (fun _ _ => trivial) e) ?_ ?_
  · rw [hmgt]
  · intro r hr
    obtain ⟨_, _, hafter⟩ := hr.mgt
    rw [hmgt] at hafter
    have hclock : r.mgtMs = a.mgtMs := by rw [hr.shape, Dev.mgtMs, hrec.shape]; rfl
    refine ⟨?_, congrArg Mgt.tset hafter, hr.resp⟩
    change r.calendar ch.val = _
    rw [Dev.calendar, hafter, hclock]
    exact (congrArg (ms.toNat + ·) (Nat.sub_self _)).trans (Nat.add_zero _)

/-! ### EVR_CLEAR (R507) -/

/-- A record whose code gives no interrupt takes the next SEQ. -/
theorem Dev.writeRec_evr {s : Dev} {ch : Nat} {e : Ev} (h : e.priv = false ∨ 0x312 < e.code) : ∃ rc : EvRec,
    rc.seq = (s.chan ch).evr.next % 2 ^ 48 ∧ rc.code = e.code ∧
    rc.flags = e.priv.toNat + (s.mgt ch).tset.toNat * 2 + e.forced.toNat * 4 + e.priv.toNat * 8 ∧
    ((s.writeRec ch e).chan ch).evr.recs = (s.chan ch).evr.recs.set none ((s.chan ch).evr.next % 8192) (some rc) ∧
    ((s.writeRec ch e).chan ch).evr.next = (s.chan ch).evr.next + 1 ∧
    ((s.writeRec ch e).chan ch).evr.oldest = max (s.chan ch).evr.oldest ((s.chan ch).evr.next + 1 - 8192) := by
  have hquiet : (e.priv && decide (0x300 ≤ e.code) && decide (e.code ≤ 0x312)) = false := by
    rcases h with h | h
    · rw [h]; rfl
    · simp; omega
  unfold Dev.writeRec
  dsimp only
  rw [hquiet]
  rw [if_neg Bool.false_ne_true, Dev.bump_get_chan, Dev.modChan_same]
  exact ⟨_, rfl, rfl, rfl, rfl, rfl, rfl⟩

/-- A clear empties the recorder and writes one record. -/
theorem Dev.evrClear_eq (s : Dev) (ch : Nat) : ∃ e : Ev, e.code = 0x0321 ∧ s.evrClear ch =
    (s.modEvr ch fun r => { r with recs := [], oldest := r.next, stored := r.next }).writeRec ch e := by
  unfold Dev.evrClear
  exact ⟨Ev.plain 0x0321 1 true _, rfl, rfl⟩

theorem Dev.evrClear_aside (s : Dev) (ch : Nat) : s.Aside (fun _ => True) (s.evrClear ch) ∧
    ∀ j, (s.mgt j).Notified ((s.evrClear ch).mgt j) := by
  obtain ⟨e, -, heq⟩ := s.evrClear_eq ch
  have hempty := (Dev.Aside.refl (fun _ => True) s).modEvr ch fun r => { r with recs := [], oldest := r.next, stored := r.next }
  have hlog := (s.modEvr ch fun r => { r with recs := [], oldest := r.next, stored := r.next }).writeRec_logged ch e
  rw [heq]
  exact ⟨hempty.trans (hlog.aside.mono fun _ _ => trivial), hlog.mgt⟩

/-- After a clear its own record is the oldest and the newest. -/
theorem Dev.evrClear_evr (s : Dev) (ch : Nat) :
    ((s.evrClear ch).chan ch).evr.oldest = (s.chan ch).evr.next ∧ ((s.evrClear ch).chan ch).evr.next = (s.chan ch).evr.next + 1 ∧
    (((s.evrClear ch).recAt ch (s.chan ch).evr.next).map (·.code) = some 0x0321 ∨ 2 ^ 48 ≤ (s.chan ch).evr.next) ∧
    ∀ q, q < (s.chan ch).evr.next → (s.evrClear ch).recAt ch q = none := by
  set u := s.modEvr ch fun r => { r with recs := [], oldest := r.next, stored := r.next } with hu
  obtain ⟨e, he, hclear⟩ := s.evrClear_eq ch
  obtain ⟨rc, hseq, hcode, -, hrecs, hnext, hold⟩ := Dev.writeRec_evr (s := u) (ch := ch) (e := e) (.inr (by omega))
  have hevr : (u.chan ch).evr = { (s.chan ch).evr with recs := [], oldest := (s.chan ch).evr.next, stored := (s.chan ch).evr.next } :=
    Dev.modEvr_evr ..
  rw [← hclear, hevr] at hrecs hnext hold
  rw [hevr] at hseq
  dsimp only at hseq hrecs hnext hold
  set n := (s.chan ch).evr.next
  replace hold : ((s.evrClear ch).chan ch).evr.oldest = n := hold.trans (by omega)
  refine ⟨hold, hnext, ?_, fun q hq => ?_⟩
  · by_cases hbig : 2 ^ 48 ≤ n
    · exact .inr hbig
    · left
      rw [Dev.recAt, Dev.evr, hrecs, Store.get_set_same]
      dsimp only
      rw [hseq, hold, Nat.mod_eq_of_lt (by omega), if_pos ⟨rfl, Nat.le_refl n⟩, Option.map_some, hcode, he]
  · rw [Dev.recAt]
    split
    · exact if_neg (by rw [Dev.evr, hold]; omega)
    · rfl

theorem answers_evrClear {s : State} {ch : ChId} {tag : Byte} (hs : s.m.Settled) (h : s.m.Serves ch.val 0 0) :
    Answers (.evrClear ⟨ch.val, by omega⟩ tag) s fun r => SameWork s r ∧
      (r.m.chan ch.val).evr.oldest = (s.m.chan ch.val).evr.next ∧ (r.m.chan ch.val).evr.next = (s.m.chan ch.val).evr.next + 1 ∧
      ((r.m.recAt ch.val (s.m.chan ch.val).evr.next).map (·.code) = some 0x0321 ∨ 2 ^ 48 ≤ (s.m.chan ch.val).evr.next) ∧
      ∀ q, q < (s.m.chan ch.val).evr.next → r.m.recAt ch.val q = none := by
  set a := s.m.asked ch.val with ha
  have hevr := a.evrClear_evr ch.val
  rw [ha, Dev.asked_chan, ← ha] at hevr
  obtain ⟨hside, hmgt⟩ := a.evrClear_aside ch.val
  refine answers_acting hs h rfl (if_pos ch.isLt) hside ?_ ?_
  · exact (hmgt ch.val).mrl.trans (congrArg Mgt.mrl (s.m.asked_mgt ch.val ch.val))
  · intro r hr
    have hch : r.chan ch.val = (a.evrClear ch.val).chan ch.val := hr.chan ch.val
    have hrecAt (q : Nat) : r.recAt ch.val q = (a.evrClear ch.val).recAt ch.val q := by rw [Dev.recAt, Dev.recAt, Dev.evr, Dev.evr, hch]
    change (r.chan ch.val).evr.oldest = _ ∧ (r.chan ch.val).evr.next = _ ∧ ((r.recAt ch.val _).map _ = _ ∨ _) ∧ ∀ q, _ → r.recAt ch.val q = none
    simp only [hch, hrecAt]
    exact hevr

/-! ### Firmware (R495 to R497) -/

section
variable {s : State} {t : MgtIx} {tag : Byte} {kind : Byte}

theorem fwCap_ge (kind : Nat) : 2 ^ 20 ≤ fwCap kind := by
  unfold fwCap
  split
  · exact Nat.le_refl _
  · split <;> decide

/-- A chunk of an image that is taken (R495). -/
theorem Dev.stageChunk_taken {m : Dev} {t kind off : Nat} {bs : List Byte} (hhas : fwHas t kind = true) (hlen : 1 ≤ bs.length) (hmax : bs.length ≤ 1016)
    (hfit : off + bs.length ≤ fwCap kind + 0x80) (hpath : (m.fw (fwKey t kind)).path ≠ some 1) (hgo : off ≠ 0 → (m.fw (fwKey t kind)).path ≠ none) :
    m.stageChunk t kind off bs = ((m.modFw (fwKey t kind) fun f => fwTake f 0 off bs).fwStaged t kind, Code.OK, []) := by
  have hchunk : m.fwChunk t kind off bs = ((m.modFw (fwKey t kind) fun f => fwTake f 0 off bs).fwStaged t kind, Code.OK) := by
    unfold Dev.fwChunk
    dsimp only
    rw [if_neg (by omega), if_neg hpath, if_neg (by rintro ⟨h, h'⟩; exact hgo h h')]
  unfold Dev.stageChunk
  rw [if_neg (by simp only [hhas, Bool.not_true, Bool.false_eq_true, false_or]; omega)]
  simp only [hchunk]

theorem Dev.fwStaged_mrl (s : Dev) (die kind t : Nat) : ((s.fwStaged die kind).mgt t).mrl = (s.mgt t).mrl := by
  unfold Dev.fwStaged
  dsimp only
  split
  · exact Dev.fwRecord_mrl ..
  · rfl

/-- FW_STAGE takes a chunk: what it makes of the firmware, up to the end of the staging. -/
theorem answers_fwStage {off : Nat} {bs : List Byte} (hs : s.m.Settled) (hhas : fwHas t.val kind.toNat = true) (hlen : 1 ≤ bs.length)
    (hmax : bs.length ≤ 1016) (hfit : off + bs.length ≤ fwCap kind.toNat + 0x80) (h : s.m.Serves t.val (5 + bs.length) 0)
    (hpath : (s.m.fw (fwKey t.val kind.toNat)).path ≠ some 1) (hgo : off ≠ 0 → (s.m.fw (fwKey t.val kind.toNat)).path ≠ none) {Q : Fw → Prop}
    (hQ : ∀ p, Q { fwTake (s.m.fw (fwKey t.val kind.toNat)) 0 off bs with path := p }) :
    Answers (.fwStage t tag kind off bs) s fun r => SameWork s r ∧ (r.m.mgt t.val).resp = some (frame Code.OK tag.toNat []) ∧
      Q (r.m.fw (fwKey t.val kind.toNat)) := by
  set a := s.m.asked t.val with ha
  have hfw : a.fw (fwKey t.val kind.toNat) = s.m.fw (fwKey t.val kind.toNat) := s.m.asked_fw ..
  have hrun := Dev.stageChunk_taken (m := a) hhas hlen hmax hfit (by rwa [hfw]) (by rwa [hfw])
  refine answers_acting hs h rfl hrun (((Dev.Aside.refl _ a).modFw _ _).trans (Dev.fwStaged_aside ..)) ?_ ?_
  · exact (Dev.fwStaged_mrl ..).trans (congrArg Mgt.mrl (s.m.asked_mgt t.val t.val))
  · intro r hr
    obtain ⟨p, hp⟩ := (a.modFw (fwKey t.val kind.toNat) fun f => fwTake f 0 off bs).fwStaged_fw t.val kind.toNat
    refine ⟨hr.resp, ?_⟩
    change Q (r.fw _)
    rw [hr.fw, hp, Dev.modFw_fw_same, hfw]
    exact hQ p

/-- A write of the slot that is not active leaves the active one (R495). -/
theorem fwSlot_fwSetSlot_other (f : Fw) (v : FwSlot) : fwSlot (fwSetSlot f (fwOther f) v) (fwOther f) = v ∧
    fwSlot (fwSetSlot f (fwOther f) v) f.active = fwSlot f f.active := by
  rcases Nat.eq_zero_or_pos f.active with h | h
  · simp [fwSlot, fwOther, fwSetSlot, h]
  · have hother : 1 - f.active = 0 := by omega
    simp [fwSlot, fwOther, fwSetSlot, hother, h.ne']

/-- A staging from offset 0 on invalidates the slot that is not active, and no other (R495). -/
theorem fwTake_slots (f : Fw) (path : Nat) (bs : List Byte) (p : Option Nat) :
    fwSlot { fwTake f path 0 bs with path := p } (fwOther f) = FwSlot.empty ∧
      fwSlot { fwTake f path 0 bs with path := p } f.active = fwSlot f f.active :=
  fwSlot_fwSetSlot_other f FwSlot.empty

/-- FW_ACTIVATE runs the activation of the die (R495). -/
theorem answers_fwActivate {m : Dev} {status x : Nat} (hs : s.m.Settled) (hhas : fwHas t.val kind.toNat = true) (h : s.m.Serves t.val 1 0)
    (hact : (s.m.asked t.val).fwActivate t.val kind.toNat = (m, status, x)) (haside : (s.m.asked t.val).Aside (fun _ => True) m)
    (hmrl : (m.mgt t.val).mrl = (s.m.mgt t.val).mrl) {Q : Fw → Prop} (hQ : Q (m.fw (fwKey t.val kind.toNat))) :
    Answers (.fwActivate t tag kind) s fun r => SameWork s r ∧ Q (r.m.fw (fwKey t.val kind.toNat)) ∧
      (r.m.mgt t.val).resp = some (frame status tag.toNat []) := by
  refine answers_acting hs h rfl ?_ haside hmrl fun r hr => ⟨?_, hr.resp⟩
  · unfold Dev.activateCmd
    rw [if_neg (by simp [hhas]), hact]
  · change Q (r.fw _)
    rwa [hr.fw]

end

section
variable {s : State} {t : MgtIx} {tag kind : Byte} (hs : s.m.Settled) (hhas : fwHas t.val kind.toNat = true) (h : s.m.Serves t.val 1 0)
include hs hhas h

/-- A slot verified before becomes the active one; what the slots hold stays (R495). -/
theorem answers_fwActivate_verified (hvalid : (fwSlot (s.m.fw (fwKey t.val kind.toNat)) (fwOther (s.m.fw (fwKey t.val kind.toNat)))).valid = true) :
    Answers (.fwActivate t tag kind) s fun r => SameWork s r ∧
      let f := s.m.fw (fwKey t.val kind.toNat)
      let f' := r.m.fw (fwKey t.val kind.toNat)
      f'.active = fwOther f ∧ f'.pending = true ∧ f'.slotA = f.slotA ∧ f'.slotB = f.slotB ∧
        f'.runSlot = f.runSlot ∧ (r.m.mgt t.val).resp = some (frame Code.OK tag.toNat []) := by
  have hfw : (s.m.asked t.val).fw (fwKey t.val kind.toNat) = s.m.fw (fwKey t.val kind.toNat) := s.m.asked_fw ..
  rw [← hfw] at hvalid
  obtain ⟨hone, -, hafter⟩ := Dev.fwActivate_oneDie hvalid
  have hact := Dev.fwActivate_valid hvalid
  have hmrl : ((((s.m.asked t.val).fwActivate t.val kind.toNat).1).mgt t.val).mrl = (s.m.mgt t.val).mrl := by
    rw [hact, Dev.fwRecord_mrl]
    exact congrArg Mgt.mrl (s.m.asked_mgt t.val t.val)
  obtain ⟨r, hr, hwork, hq, hresp⟩ := answers_fwActivate (tag := tag) hs hhas h (m := ((s.m.asked t.val).fwActivate t.val kind.toNat).1) (by rw [hact]) hone.aside hmrl
    (Q := (· = { s.m.fw (fwKey t.val kind.toNat) with active := fwOther (s.m.fw (fwKey t.val kind.toNat)), pending := true })) (by rw [hafter, hfw])
  refine ⟨r, hr, hwork, ?_⟩
  dsimp only
  rw [hq]
  exact ⟨rfl, rfl, rfl, rfl, rfl, hresp⟩

/-- A staged image fills its slot and becomes active, or is REJECTED by the first check that fails (R494, R496). -/
theorem answers_fwActivate_staged (hfresh : (fwSlot (s.m.fw (fwKey t.val kind.toNat)) (fwOther (s.m.fw (fwKey t.val kind.toNat)))).valid = false) :
    Answers (.fwActivate t tag kind) s fun r => SameWork s r ∧
      let g := s.m.fw (fwKey t.val kind.toNat)
      let f' := r.m.fw (fwKey t.val kind.toNat)
      (fwCheck g kind.toNat = 0 → f'.active = fwOther g ∧ f'.pending = true ∧ (fwSlot f' (fwOther g)).valid = true ∧
        (fwSlot f' (fwOther g)).svn = fwPeek g.staged 8 2 ∧ fwSlot f' g.active = fwSlot g g.active ∧ (r.m.mgt t.val).resp = some (frame Code.OK tag.toNat [])) ∧
      (fwCheck g kind.toNat ≠ 0 → f' = g ∧ (r.m.mgt t.val).resp = some (frame Code.REJECTED tag.toNat [])) := by
  set a := s.m.asked t.val with ha
  set g := s.m.fw (fwKey t.val kind.toNat) with hg
  have hfw : a.fw (fwKey t.val kind.toNat) = g := s.m.asked_fw ..
  have hmrl (m : Dev) (code slot svn : Nat) (hm : m.mgts = a.mgts) : ((m.fwRecord code t.val kind.toNat slot svn).mgt t.val).mrl = (s.m.mgt t.val).mrl := by
    rw [Dev.fwRecord_mrl, Dev.mgt, hm]
    exact congrArg Mgt.mrl (s.m.asked_mgt t.val t.val)
  by_cases hd : fwCheck g kind.toNat = 0
  · set f' : Fw → Fw := fun f => { fwSetSlot f (fwOther f) ⟨true, fwPeek g.staged 8 2, sha512 (fwBytes g.staged (fwSigned g.staged))⟩ with
      active := fwOther f, pending := true, staged := [], got := [], path := none } with hf'
    have hact : a.fwActivate t.val kind.toNat =
        ((a.modFw (fwKey t.val kind.toNat) f').fwRecord 0x0303 t.val kind.toNat (fwOther g) (fwPeek g.staged 8 2), Code.OK, 0) := by
      unfold Dev.fwActivate
      simp only [hfw, hfresh, hd]
      rw [if_neg (by simp), if_neg (by simp)]
    obtain ⟨r, hr, hwork, hq, hresp⟩ := answers_fwActivate (tag := tag) hs hhas h hact
      (((Dev.Aside.refl _ a).modFw _ _).trans ((Dev.fwRecord_aside ..).mono fun _ _ => trivial)) (hmrl _ _ _ _ rfl) (Q := (· = f' g))
      (by rw [Dev.fwRecord_fw, Dev.modFw_fw_same, hfw])
    refine ⟨r, hr, hwork, fun _ => ?_, fun h => absurd hd h⟩
    obtain ⟨hslot, hkept⟩ := fwSlot_fwSetSlot_other g ⟨true, fwPeek g.staged 8 2, sha512 (fwBytes g.staged (fwSigned g.staged))⟩
    rw [hq]
    exact ⟨rfl, rfl, congrArg FwSlot.valid hslot, congrArg FwSlot.svn hslot, hkept, hresp⟩
  · have hact : a.fwActivate t.val kind.toNat =
        (a.fwRecord 0x0301 t.val kind.toNat (fwOther g) (fwPeek g.staged 8 2), Code.REJECTED, fwCheck g kind.toNat) := by
      unfold Dev.fwActivate
      simp only [hfw, hfresh]
      rw [if_neg (by simp), if_pos hd]
    obtain ⟨r, hr, hwork, hq, hresp⟩ := answers_fwActivate (tag := tag) hs hhas h hact ((Dev.fwRecord_aside ..).mono fun _ _ => trivial)
      (hmrl _ _ _ _ rfl) (Q := (· = g)) (by rw [Dev.fwRecord_fw, hfw])
    exact ⟨r, hr, hwork, fun h => absurd h hd, fun _ => ⟨hq, hresp⟩⟩

end

/-- SVN_COMMIT raises the fused minimum to the running image's (R497). -/
theorem answers_svnCommit {s : State} {t : MgtIx} {tag kind : Byte} (hs : s.m.Settled) (hhas : fwHas t.val kind.toNat = true)
    (h : s.m.Serves t.val 1 0) (hrunning : (s.m.fw (fwKey t.val kind.toNat)).running = true) (hleft : (s.m.fw (fwKey t.val kind.toNat)).commits < 64) :
    Answers (.svnCommit t tag kind) s fun r => SameWork s r ∧
      let f := s.m.fw (fwKey t.val kind.toNat)
      let f' := r.m.fw (fwKey t.val kind.toNat)
      f'.minSvn = max f.minSvn f.runSvn ∧ f'.commits = f.commits + 1 ∧ (r.m.mgt t.val).resp = some (frame Code.OK tag.toNat []) := by
  set a := s.m.asked t.val with ha
  have hfw : a.fw (fwKey t.val kind.toNat) = s.m.fw (fwKey t.val kind.toNat) := s.m.asked_fw ..
  set f := s.m.fw (fwKey t.val kind.toNat) with hf
  obtain ⟨g, hmin, hcommits, hrun⟩ : ∃ g : Fw → Fw, (g f).minSvn = max f.minSvn f.runSvn ∧ (g f).commits = f.commits + 1 ∧
      a.commitCmd t.val kind.toNat =
        ((a.modFw (fwKey t.val kind.toNat) g).fwRecord 0x0304 t.val kind.toNat f.runSlot f.runSvn, Code.OK, []) := by
    unfold Dev.commitCmd Dev.svnCommit
    simp only [hfw]
    rw [if_neg (by simp [hhas]), if_neg (by simp [hrunning]), if_neg (by omega)]
    exact ⟨_, rfl, rfl, rfl⟩
  refine answers_acting hs h rfl hrun (((Dev.Aside.refl _ a).modFw _ _).trans ((Dev.fwRecord_aside ..).mono fun _ _ => trivial)) ?_ ?_
  · exact (Dev.fwRecord_mrl ..).trans (congrArg Mgt.mrl (s.m.asked_mgt t.val t.val))
  · intro r hr
    have hafter : r.fw (fwKey t.val kind.toNat) = g f := by rw [hr.fw, Dev.fwRecord_fw, Dev.modFw_fw_same, hfw]
    exact ⟨(congrArg Fw.minSvn hafter).trans hmin, (congrArg Fw.commits hafter).trans hcommits, hr.resp⟩

/-! ### WRITE_REG and MGT_RESTART (R490, R492) -/

/-- A register that is no counter stands apart from the counters of requests. -/
theorem not_reqRegs {k : PageKind} (hk : k = .thmCh ∨ k = .mgtCh) {ch o : Nat} (ho : o < 0x1000) {row : RegRow} (hrow : k.row o = some row)
    (hctr : row.ctr = false) : ¬ reqRegs ch (pageOff k ch 0 o) := by
  rcases hk with rfl | rfl
  · simp only [reqRegs, pageOff, Page.base, chanWin, Off.MGT_REQ, Off.MGT_REJ]
    omega
  · have hne : ∀ x, (∀ r, PageKind.row .mgtCh x = some r → r.ctr = true) → pageOff .mgtCh ch 0 o ≠ pageOff .mgtCh ch 0 x := fun x hx e => by
      have hox : o = x := Nat.add_left_cancel e
      subst hox
      exact absurd (hx row hrow) (by simp [hctr])
    have hctrs : ∀ x ∈ [Off.MGT_REQ, Off.MGT_REQ + 4, Off.MGT_REJ, Off.MGT_REJ + 4], ∀ r, PageKind.row .mgtCh x = some r → r.ctr = true := by
      decide
    simp only [reqRegs, not_or]
    exact ⟨hne _ (hctrs _ (by decide)), hne _ (hctrs _ (by decide)), hne _ (hctrs _ (by decide)), hne _ (hctrs _ (by decide))⟩

/-- Management reaches the same pages after a request was taken. -/
theorem Dev.asked_mgtUp {s : Dev} {ch : Nat} (hch : ch < 8) {k : PageKind} (hup : s.mgtUp ⟨k, ch, 0⟩ = true) :
    (s.asked ch).mgtUp ⟨k, ch, 0⟩ = true := by
  have hstate : (s.asked ch).cstate ch = s.cstate ch :=
    congrArg (fld · 1 0) (s.asked_rd hch (k := .pwrCh) (by decide) (by decide) (by decide : Off.PWR_CH_STA < 0x1000))
  have hvin : (s.asked ch).vin = s.vin := by rw [Dev.asked_eq]
  rw [Dev.mgtUp] at hup ⊢
  rw [hstate, hvin]
  exact hup

theorem answers_writeReg {s : State} {ch : ChId} {tag : Byte} (hs : s.m.Settled) {k : PageKind} {o : Nat} {row : RegRow} {w : Word}
    (hk : k = .thmCh ∨ k = .mgtCh) (hlo : 0x100 ≤ o) (ho : o < 0x1000) (h4 : o % 4 = 0) (hrow : k.row o = some row) (hctr : row.ctr = false)
    (hup : s.m.mgtUp ⟨k, ch.val, 0⟩ = true) (h : s.m.Serves ch.val 8 0) :
    Answers (.writeReg ⟨ch.val, by omega⟩ tag (pageOff k ch.val 0 o) [w]) s fun r => SameWork s r ∧
      r.m.rd k ch.val 0 o = ((s.m.rd k ch.val 0 o &&& ~~~row.rw &&& ~~~(w &&& row.w1c)) ||| (normWord k 0 o (s.m.rd k ch.val 0 o) w &&& row.rw)) ∧
      (r.m.mgt ch.val).resp = some (frame Code.OK tag.toNat []) := by
  have hout := not_reqRegs hk (ch := ch.val) ho hrow hctr
  have hrun := Dev.writeRegs_one hk hlo ho h4 hrow ch (Dev.asked_mgtUp ch.isLt hup) 1 w
  have hrd : (s.m.asked ch.val).rd k ch.val 0 o = s.m.rd k ch.val 0 o := (s.m.asked_aside ch.val).reg _ hout
  rw [hrd] at hrun
  refine answers_acting hs h rfl hrun ((Dev.Aside.refl _ _).setReg trivial _) (congrArg Mgt.mrl (s.m.asked_mgt ch.val ch.val)) fun r hr => ⟨?_, hr.resp⟩
  exact (hr.reg _ hout).trans (Dev.setReg_reg_same ..)

theorem answers_mgtRestart {s : State} {ch : ChId} {tag : Byte} (hs : s.m.Settled) (h : s.m.Serves ch.val 0 0) :
    Answers (.mgtRestart ⟨ch.val, by omega⟩ tag) s fun r => SameWork s r ∧
      (r.m.mgt ch.val).restarting = true ∧ r.m.tgtAcks ch.val = false ∧ (r.m.chan ch.val).pemor.level = .locked := by
  set a := s.m.asked ch.val
  set b := a.modMgt ch.val fun m => { m with restarting := true } with hb
  set u := b.modChan ch.val fun c => { c with pemor := { c.pemor with level := .locked, nonce := none, jtag := false } } with hu
  have hcmd : a.restartCmd ch.val = u := if_pos ch.isLt
  have hmgt : u.mgt ch.val = { a.mgt ch.val with restarting := true } := Dev.modMgt_same a ch.val fun m => { m with restarting := true }
  have hside : a.Aside (fun _ => True) u := ((Dev.Aside.refl _ a).modMgt _ _).modChan fun _ => ⟨_, _, rfl⟩
  refine answers_acting hs h rfl (congrArg (fun m => (m, Code.OK, [])) hcmd) hside ?_ ?_
  · exact (congrArg Mgt.mrl hmgt).trans (show (a.mgt ch.val).mrl = _ from congrArg Mgt.mrl (s.m.asked_mgt ch.val ch.val))
  · intro r hr
    obtain ⟨_, _, hafter⟩ := hr.mgt
    rw [hmgt] at hafter
    refine ⟨congrArg Mgt.restarting hafter, ?_, ?_⟩
    · change r.tgtAcks ch.val = false
      rw [Dev.tgtAcks, hafter]
      simp
    · change (r.chan ch.val).pemor.level = .locked
      rw [hr.chan, hu, Dev.modChan_same]

/-! ### SERVICE_OUT (R384, R491) -/

/-- What SERVICE_OUT leaves: the channel HALTED with CAUSE 126, memory and the request table, and the response. -/
structure Dev.OutOfService (ch : Nat) (resp : List Byte) (s r : Dev) : Prop where
  state : r.fltState ch = 2
  cause : r.rdF .fltCh ch 0 Off.FLT_STA 10 4 = 126
  mem : r.mem = s.mem
  rqt : r.rqt = s.rqt
  resp : (r.mgt ch).resp = some resp

theorem Dev.OutOfService.kept {ch : Nat} {resp : List Byte} {s r u : Dev} (h : Dev.OutOfService ch resp s r) (g : Dev.Followed ch r u) :
    Dev.OutOfService ch resp s u := by
  have hsta : u.rd .fltCh ch 0 Off.FLT_STA = r.rd .fltCh ch 0 Off.FLT_STA :=
    g.reg _ (by simp only [followRegs, pageOff, Page.base, Off.FLT_STA]; omega)
  obtain ⟨_, _, hmgt⟩ := g.mgt ch
  exact ⟨(congrArg (fld · 1 0) hsta).trans h.state, (congrArg (fld · 10 4) hsta).trans h.cause, by rw [g.shape]; exact h.mem,
    by rw [g.shape]; exact h.rqt, by rw [hmgt]; exact h.resp⟩

/-- SERVICE_OUT: the entry to HALTED, its record, and the response. -/
theorem Dev.serviceOut_served {s : Dev} {ch : Nat} (hch : ch < 8) (hflt : s.fltState ch ≠ 2) (tag : Nat) (h : s.Serves ch 0 0) :
    Dev.OutOfService ch (frame Code.OK tag []) s (s.request ch tag 0 false fun m => m.serviceOutCmd ch) ∧
      (dueOnly ch s.chans → dueOnly ch (s.request ch tag 0 false fun m => m.serviceOutCmd ch).chans) ∧
      ((s.request ch tag 0 false fun m => m.serviceOutCmd ch).fab ch) = s.fab ch := by
  have hkeep : (s.asked ch).fltState ch = s.fltState ch :=
    congrArg (fld · 1 0) (s.asked_rd hch (k := .fltCh) (by decide) (by decide) (by decide : Off.FLT_STA < 0x1000))
  have hent := Dev.halt_entered (hkeep.trans_ne hflt) 126 false
  rw [Dev.request_serves h, Dev.serviceOutCmd, if_pos hch]
  generalize (s.asked ch).halt ch 126 false = u at hent
  have hlog := u.record_logged ch (Ev.plain 0x0322 1 true [])
  generalize u.record ch (Ev.plain 0x0322 1 true []) = v at hlog
  have hans := Dev.respond_answered (s := v) (t := ch) (payload := []) (by rw [(hlog.mgt ch).mrl, (hent.mgt ch).mrl, Dev.asked_mgt]; exact h.2.2.2)
    tag Code.OK
  generalize v.respond ch tag Code.OK [] = r at hans
  have hsta : r.rd .fltCh ch 0 Off.FLT_STA = enteredWord ((s.asked ch).rd .fltCh ch 0 Off.FLT_STA) 2 126 false := by
    have hpage : ¬ reqRegs ch (pageOff .fltCh ch 0 Off.FLT_STA) := by
      simp only [reqRegs, pageOff, Page.base, chanWin, Off.FLT_STA, Off.MGT_REQ, Off.MGT_REJ]; omega
    exact (hans.reg _ hpage).trans ((hlog.rd hch (Page.valid_channel (by decide) hch) (by decide) (by decide)).trans hent.sta)
  obtain ⟨hst, -, -, hcause⟩ := fld_enteredWord ((s.asked ch).rd .fltCh ch 0 Off.FLT_STA) (st := 2) (cause := 126) (by decide) (by decide) false
  have hasked := s.asked_eq ch
  refine ⟨⟨(congrArg (fld · 1 0) hsta).trans hst, (congrArg (fld · 10 4) hsta).trans hcause, ?_, ?_, hans.resp⟩, fun hd => ?_, ?_⟩
  · rw [hans.shape, hlog.shape, hent.shape, hasked]
  · rw [hans.shape, hlog.shape, hent.shape, hasked]
  · obtain ⟨e, hchans⟩ := hlog.chan
    have hv : dueOnly ch v.chans := hchans ▸ dueOnly_modChan_same (hent.only (by rw [hasked]; exact hd)) _
    rw [hans.shape]
    exact hv
  · obtain ⟨e, hv⟩ := hlog.chan_same
    obtain ⟨_, _, _, _, _, _, _, hu⟩ := hent.chan
    rw [Dev.fab, hans.chan, hv, hu, Dev.asked_chan]
    rfl

theorem does_serviceOut {s : State} {ch : ChId} {tag : Byte} (h : s.m.Serves ch.val 0 0) (hflt : s.m.fltState ch.val ≠ 2) :
    Does (.serviceOut ⟨ch.val, by omega⟩ tag) s fun r => Dev.OutOfService ch.val (frame Code.OK tag.toNat []) s.m r.m :=
  ⟨_, rfl, (Dev.serviceOut_served ch.isLt hflt tag.toNat h).1⟩

theorem answers_serviceOut {s : State} {ch : ChId} {tag : Byte} (hs : s.m.Settled) (h : s.m.Serves ch.val 0 0) (hflt : s.m.fltState ch.val ≠ 2)
    (hwork : s.m.NoWork ch.val) :
    Answers (.serviceOut ⟨ch.val, by omega⟩ tag) s fun r => Dev.OutOfService ch.val (frame Code.OK tag.toNat []) s.m r.m := by
  obtain ⟨hout, honly, hfab⟩ := Dev.serviceOut_served ch.isLt hflt tag.toNat h
  exact ⟨_, rfl, hout.kept (Dev.settle_followed ch.isLt (honly (hs.dueOnly _)) ((congrArg Fab.colls hfab).trans hwork.2))⟩

/-! ### The statement -/

/-- Settles O10: each request by what it changes beside serving; SERVICE_OUT by its entry to HALTED, which settling leaves as it is. -/
theorem managementActs : Obligations.ManagementActs := by
  unfold Obligations.ManagementActs
  refine ⟨fun s ch tag hs => ?_, fun s t tag kind hs hhas h => ?_, fun s ch tag h hflt => ?_⟩
  · intro t
    refine ⟨fun ms h => answers_setTime hs h, fun h => answers_evrClear hs h, fun kind chunk hhas hlen hmax h hpath => ?_,
      fun kind off chunk hhas hlen hmax hoff hfit h hpath => ?_, fun kind hhas h hrun hleft => answers_svnCommit hs hhas h hrun hleft,
      fun k o row w hk hlo ho h4 hrow hctr hup h => answers_writeReg hs hk hlo ho h4 hrow hctr hup h, fun h => answers_mgtRestart hs h⟩
    · have hcap := fwCap_ge kind.toNat
      obtain ⟨r, hr, hwork, hresp, hother, hactive, hbytes⟩ := answers_fwStage (t := t) (tag := tag) (off := 0) (bs := chunk) hs hhas hlen hmax (by omega) h hpath
        (absurd rfl) (Q := fun f' => fwSlot f' (fwOther (s.m.fw (fwKey ch.val kind.toNat))) = FwSlot.empty ∧
          fwSlot f' (s.m.fw (fwKey ch.val kind.toNat)).active = fwSlot (s.m.fw (fwKey ch.val kind.toNat)) (s.m.fw (fwKey ch.val kind.toNat)).active ∧
          ∀ i, i < chunk.length → f'.staged.get 0 i = chunk.getD i 0) fun p => by
            obtain ⟨hslot, hkept⟩ := fwTake_slots (s.m.fw (fwKey ch.val kind.toNat)) 0 chunk p
            refine ⟨hslot, hkept, fun i hi => ?_⟩
            exact (fwTake_staged 0 chunk i).trans (if_pos (by omega))
      exact ⟨r, hr, hwork, hresp, hother, hactive, hbytes⟩
    · obtain ⟨r, hr, hwork, hresp, hq⟩ := answers_fwStage (t := t) (tag := tag) (off := off) (bs := chunk) hs hhas hlen hmax hfit h (by simp [t, hpath])
        (by simp [t, hpath]) (Q := fun f' => f'.slotA = (s.m.fw (fwKey ch.val kind.toNat)).slotA ∧ f'.slotB = (s.m.fw (fwKey ch.val kind.toNat)).slotB ∧
          f'.got = (s.m.fw (fwKey ch.val kind.toNat)).got ++ [(off, off + chunk.length)] ∧
          ∀ a, f'.staged.get 0 a = if off ≤ a ∧ a < off + chunk.length then nth 0 chunk (a - off) else (s.m.fw (fwKey ch.val kind.toNat)).staged.get 0 a)
        fun p => by
          refine ⟨by simp [fwTake, hoff, t], by simp [fwTake, hoff, t], ?_, fun a => ?_⟩
          · exact (fwTake_got ..).trans (by rw [if_neg hoff])
          · exact (fwTake_staged 0 chunk a).trans (by rw [if_neg hoff])
      exact ⟨r, hr, hwork, hresp, hq⟩
  · intro g
    have hfw : (s.m.asked t.val).fw (fwKey t.val kind.toNat) = g := s.m.asked_fw ..
    exact ⟨fun hfresh => answers_fwActivate_staged hs hhas h hfresh, fun hvalid => answers_fwActivate_verified hs hhas h hvalid⟩
  · intro halts
    have hsame (r : State) (g : Dev.OutOfService ch.val (frame Code.OK tag.toNat []) s.m r.m) : halts r :=
      ⟨g.state, g.cause, fun a => by rw [Dev.byte, g.mem]; rfl, g.rqt, g.resp⟩
    obtain ⟨m, hm, hdone⟩ := does_serviceOut (tag := tag) h hflt
    refine ⟨⟨m, hm, hsame _ hdone⟩, fun hs _ hwork => ?_⟩
    obtain ⟨r, hr, hout⟩ := answers_serviceOut (tag := tag) hs h hflt hwork
    exact ⟨r, hr, hsame _ hout⟩

end Sys2Proof.Machine
end

section
/-! What a raise at CONTAIN or HALT does, and FLT_CMD (O26). -/

namespace Sys2Proof.Machine
open Sys2Proof

/-! ### What counts and records a raise -/

theorem Dev.wr_rd_offset (s : Dev) {k k' : PageKind} {ch i d j o r : Nat} (ho : o < 0x1000) (hr : r < 0x1000) (h : r ≠ o) (w : Word) :
    (s.wr k ch i o w).rd k' d j r = s.rd k' d j r := by
  refine s.wr_rd_other (fun heq => h ?_) w
  have hmod := congrArg (· % 0x1000) heq
  simpa only [pageOff, Page.base_add_mod _ ho, Page.base_add_mod _ hr] using hmod

/-- From `s` to `t` a raise in a channel has been counted and recorded: its state, and what serves but tiles' marks, are as they were. -/
structure Dev.Noticed (ch : Nat) (s t : Dev) : Prop where
  shape : t = { s with out := t.out, regs := t.regs, chans := t.chans, tiles := t.tiles, mgts := t.mgts, ticket := t.ticket }
  sta : t.rd .fltCh ch 0 Off.FLT_STA = s.rd .fltCh ch 0 Off.FLT_STA
  chan : ∃ r, t.chan ch = { s.chan ch with evr := r }
  only : dueOnly ch s.chans → dueOnly ch t.chans

namespace Dev.Noticed
variable {ch : Nat} {s t u : Dev}

theorem refl (ch : Nat) (s : Dev) : Dev.Noticed ch s s := ⟨rfl, rfl, ⟨_, rfl⟩, id⟩

theorem trans (h : Dev.Noticed ch s t) (g : Dev.Noticed ch t u) : Dev.Noticed ch s u where
  shape := by rw [g.shape, h.shape]
  sta := g.sta.trans h.sta
  chan := by
    obtain ⟨_, e⟩ := h.chan
    obtain ⟨_, e'⟩ := g.chan
    exact ⟨_, by rw [e', e]⟩
  only hd := g.only (h.only hd)

theorem wr (h : Dev.Noticed ch s t) {o : Nat} (ho : o < 0x1000) (hne : Off.FLT_STA ≠ o) (k : PageKind) (c i : Nat) (w : Word) :
    Dev.Noticed ch s (t.wr k c i o w) := h.trans ⟨rfl, t.wr_rd_offset ho (by decide) hne w, ⟨_, rfl⟩, id⟩

theorem modTile (h : Dev.Noticed ch s t) (k : Nat) (f : Tile → Tile) : Dev.Noticed ch s (t.modTile k f) := h.trans ⟨rfl, rfl, ⟨_, rfl⟩, id⟩

theorem record (h : Dev.Noticed ch s t) (e : Ev) : Dev.Noticed ch s (t.record ch e) := by
  have g := t.record_logged ch e
  obtain ⟨r, hr⟩ := g.chan
  refine h.trans ⟨by rw [g.shape], g.reg _ ?_, g.chan_same, fun hd => hr ▸ dueOnly_modChan_same hd _⟩
  simp only [recRegs, pageOff, Page.base, chanWin, Off.FLT_STA, Off.EVR_REC, Off.EVR_SUPP]
  omega

theorem fltState (h : Dev.Noticed ch s t) : t.fltState ch = s.fltState ch := congrArg (fld · 1 0) h.sta

end Dev.Noticed

theorem Dev.markTile_noticed (s : Dev) (ch ix : Nat) (x : FltAt) : Dev.Noticed ch s (s.markTile ch ix x) := by
  have hrefl := Dev.Noticed.refl ch s
  unfold Dev.markTile
  split
  · split
    · next k _ =>
      have htrans : Dev.Noticed ch s (if ix = 13 then s.modTile k fun t => { t with transBad := true } else s) := by
        split
        · exact hrefl.modTile ..
        · exact hrefl
      have hword {u : Dev} (hu : Dev.Noticed ch s u) : Dev.Noticed ch s (if isSpare (u.statusIx k) then u else
          u.wrF .arr ch (tileCore (u.statusIx k) % 64) (Off.ARR_TSTA + 4 * (u.statusIx k % 132 % 16)) 5 5 1) := by
        split
        · exact hu
        · exact hu.wr (by simp only [Off.ARR_TSTA]; omega) (by simp only [Off.ARR_TSTA, Off.FLT_STA]; omega) ..
      exact hword htrans
    · exact hrefl
  · exact hrefl

theorem Dev.noteRaise_noticed (s : Dev) (ch ix : Nat) (forced : Bool) (x : FltAt) (data : List Nat) :
    Dev.Noticed ch s (s.noteRaise ch ix forced x data) := by
  have hmark := (Dev.Noticed.refl ch s).wr (o := Off.PG_FLT) (by decide) (by decide) (collector ix).1 ch 0
    (setBit (s.rd (collector ix).1 ch 0 Off.PG_FLT) (collector ix).2 true)
  exact ((hmark.wr (o := Off.PG_CNT) (by decide) (by decide) (collector ix).1 ch 0 _).trans (Dev.markTile_noticed _ ch ix x)).record _

/-! ### A channel that leaves service -/

/-- From `s` to `t` a channel has left service: its words say so, its tiles hold no work, and memory, the request table and the sequences are
as they were. -/
structure Dev.Stopped (ch st cause : Nat) (forced : Bool) (s t : Dev) : Prop where
  state : t.fltState ch = st
  cause : t.rdF .fltCh ch 0 Off.FLT_STA 10 4 = cause
  safe : t.rdF .fltCh ch 0 Off.FLT_STA 2 2 = 1
  forced : t.rdF .fltCh ch 0 Off.FLT_STA 3 3 = forced.toNat
  time : t.rd64 .fltCh ch 0 Off.FLT_TENTER = (s.chan ch).time % 2 ^ 64
  shape : t = { s with out := t.out, regs := t.regs, chans := t.chans, tiles := t.tiles, cores := t.cores, clusters := t.clusters, mgts := t.mgts,
                       hubGroups := t.hubGroups, ticket := t.ticket }
  chan : ∃ d qe qd x y z p f w e, t.chan ch = { s.chan ch with
    deferred := d, quietEnd := qe, quietDone := qd, safeDue := x, haltDue := y, noticeDue := z, placeDue := p, fab := f, sync := w, evr := e }
  mvms : ∀ k, tileCh k = ch → (t.tile k).mvms = []

/-- What settling needs of a channel that leaves service: no other has a change to follow, and its fabric is as it was. -/
structure Dev.Alone (ch : Nat) (s t : Dev) : Prop where
  only : dueOnly ch s.chans → dueOnly ch t.chans
  fab : t.fab ch = s.fab ch

section
variable {ch st cause : Nat} {forced : Bool} {s t u : Dev}

theorem Dev.Noticed.stopped (h : Dev.Noticed ch s u) (g : Dev.Entered ch st cause forced u t) (hst : st < 4) (hcause : cause < 128) :
    Dev.Stopped ch st cause forced s t ∧ Dev.Alone ch s t := by
  obtain ⟨h1, h2, h3, h4⟩ := fld_enteredWord (u.rd .fltCh ch 0 Off.FLT_STA) hst hcause forced
  obtain ⟨r, hu⟩ := h.chan
  obtain ⟨_, _, _, _, _, _, _, ht⟩ := g.chan
  rw [hu] at ht
  refine ⟨⟨(congrArg (fld · 1 0) g.sta).trans h1, (congrArg (fld · 10 4) g.sta).trans h4, (congrArg (fld · 2 2) g.sta).trans h2,
    (congrArg (fld · 3 3) g.sta).trans h3, g.time.trans (by rw [hu]), by rw [g.shape, h.shape], ⟨_, _, _, _, _, _, _, _, _, _, ht⟩, fun _ => g.mvms⟩,
    ⟨fun hd => g.only (h.only hd), by rw [Dev.fab, ht]; rfl⟩⟩

/-- What follows a change of state leaves the channel stopped. -/
theorem Dev.Stopped.kept (h : Dev.Stopped ch st cause forced s t) (g : Dev.Followed ch t u) : Dev.Stopped ch st cause forced s u := by
  have hrd : ∀ o, o < 0x1000 → u.rd .fltCh ch 0 o = t.rd .fltCh ch 0 o := fun o ho =>
    g.reg _ (by simp only [followRegs, pageOff, Page.base]; omega)
  have hsta (hi lo : Nat) : u.rdF .fltCh ch 0 Off.FLT_STA hi lo = t.rdF .fltCh ch 0 Off.FLT_STA hi lo := congrArg (fld · hi lo) (hrd _ (by decide))
  obtain ⟨_, _, _, _, _, _, _, _, _, _, ht⟩ := h.chan
  obtain ⟨_, _, _, _, _, _, hu⟩ := g.chan
  rw [ht] at hu
  refine ⟨(hsta 1 0).trans h.state, (hsta 10 4).trans h.cause, (hsta 2 2).trans h.safe, (hsta 3 3).trans h.forced, ?_, by rw [g.shape, h.shape],
    ⟨_, _, _, _, _, _, _, _, _, _, hu⟩, fun k hk => ?_⟩
  · rw [Dev.rd64, hrd _ (by decide), hrd _ (by decide)]
    exact h.time
  · rw [Dev.tile, g.shape]
    exact h.mvms k hk

theorem Dev.Stopped.sameBytes {s r : State} (h : Dev.Stopped ch st cause forced s.m r.m) : SameBytes s r := fun a => by
  rw [h.shape]
  rfl

theorem Dev.Stopped.settle (hch : ch < 8) (h : Dev.Stopped ch st cause forced s t) (g : Dev.Alone ch s t) (hs : s.Settled) (hwork : s.NoWork ch) :
    Dev.Stopped ch st cause forced s t.settle :=
  h.kept (Dev.settle_followed hch (g.only (hs.dueOnly ch)) ((congrArg Fab.colls g.fab).trans hwork.2))

/-- Entry to CONTAINED from NORMAL, or to HALTED from any other state (R376). -/
theorem Dev.Noticed.enter (h : Dev.Noticed ch s u) (hst : st = 1 ∧ s.fltState ch = 0 ∨ st = 2 ∧ s.fltState ch ≠ 2) (hcause : cause < 128) :
    Dev.Stopped ch st cause forced s (if st = 1 then u.contain ch cause forced else u.halt ch cause forced) ∧
      Dev.Alone ch s (if st = 1 then u.contain ch cause forced else u.halt ch cause forced) := by
  rcases hst with ⟨rfl, hflt⟩ | ⟨rfl, hflt⟩
  · rw [if_pos rfl]
    exact h.stopped (Dev.contain_entered (h.fltState.trans hflt) cause forced) (by decide) hcause
  · rw [if_neg (by decide)]
    exact h.stopped (Dev.halt_entered (h.fltState.trans_ne hflt) cause forced) (by decide) hcause

end

/-- A raise at CONTAIN or HALT takes the channel out of service, with the source as the cause (R376). -/
theorem Dev.raiseAt_stopped {s : Dev} {ch ix : Nat} (hix : ix < 96) (hn : (collector ix).2 < (collector ix).1.nsrc) {st : Nat}
    (hsev : s.sevOf ch ix = st + 1) (hst : st = 1 ∧ s.fltState ch = 0 ∨ st = 2 ∧ s.fltState ch ≠ 2) (forced : Bool) (x : FltAt) (data : List Nat) :
    Dev.Stopped ch st ix forced s (s.raiseAt ch ix forced x data) ∧ Dev.Alone ch s (s.raiseAt ch ix forced x data) := by
  have hraise : s.raiseAt ch ix forced x data = if st = 1 then (s.noteRaise ch ix forced x data).contain ch ix forced
      else (s.noteRaise ch ix forced x data).halt ch ix forced := by
    unfold Dev.raiseAt
    dsimp only
    rw [if_neg (by omega), hsev]
    rcases hst with ⟨rfl, -⟩ | ⟨rfl, -⟩ <;> rfl
  rw [hraise]
  exact (s.noteRaise_noticed ch ix forced x data).enter hst (by omega)

/-! ### A source that is raised (R373) -/

/-- A channel that was counted and recorded before it left service. -/
theorem Dev.Noticed.before_stop {ch st cause : Nat} {forced : Bool} {s u t : Dev} (h : Dev.Noticed ch s u)
    (g : Dev.Stopped ch st cause forced u t ∧ Dev.Alone ch u t) : Dev.Stopped ch st cause forced s t ∧ Dev.Alone ch s t := by
  obtain ⟨g, halone⟩ := g
  obtain ⟨r, hu⟩ := h.chan
  obtain ⟨_, _, _, _, _, _, _, _, _, _, ht⟩ := g.chan
  rw [hu] at ht
  exact ⟨⟨g.state, g.cause, g.safe, g.forced, g.time.trans (by rw [hu]), by rw [g.shape, h.shape], ⟨_, _, _, _, _, _, _, _, _, _, ht⟩, g.mvms⟩,
    ⟨fun hd => halone.only (h.only hd), halone.fab.trans (by rw [Dev.fab, hu]; rfl)⟩⟩

/-- The condition behind a source leaves the state of a channel, and the severities of its sources (R424). -/
theorem Dev.conditionMet_noticed (s : Dev) (ch : Nat) {ix : Nat} (h : ix ≠ 87) (x : FltAt) :
    Dev.Noticed ch s (s.conditionMet ch ix x) ∧ ∀ c i, (s.conditionMet ch ix x).sevOf c i = s.sevOf c i := by
  unfold Dev.conditionMet
  rw [if_neg h]
  split
  · split
    · next cl _ =>
      have hrd {o : Nat} (ho : o < 0x1000) (hne : o ≠ Off.MON_CH_STA) (k : PageKind) (c i : Nat) : (s.monChSta cl 0 true).rd k c i o = s.rd k c i o :=
        s.wr_rd_offset (by decide) ho hne _
      refine ⟨(Dev.Noticed.refl ch s).wr (by decide) (by decide) .., fun c i => ?_⟩
      simp only [Dev.sevOf, Dev.rdF, hrd (show Off.PG_SEV0 < 0x1000 by decide) (by decide), hrd (show Off.PG_SEV1 < 0x1000 by decide) (by decide),
        hrd (show Off.PG_FLT < 0x1000 by decide) (by decide)]
    · exact ⟨.refl ch s, fun _ _ => rfl⟩
  · exact ⟨.refl ch s, fun _ _ => rfl⟩

theorem Dev.sourceRaise_stopped {s : Dev} {ch : ChId} {ix : Fin 96} {x : FltAt} (haux : s.aux = true) (hvin : s.vin = true) (h87 : ix.val ≠ 87)
    (h44 : ix.val = 44 → x = .none) (hbase : (s.chan ch.val).baseBad < 2) (hn : (collector ix.val).2 < (collector ix.val).1.nsrc) {st : Nat}
    (hsev : s.sevOf ch.val ix.val = st + 1) (hst : st = 1 ∧ s.fltState ch.val = 0 ∨ st = 2 ∧ s.fltState ch.val ≠ 2) :
    Dev.Stopped ch.val st ix.val false s (s.sourceRaise (.chan ch ix) x) ∧ Dev.Alone ch.val s (s.sourceRaise (.chan ch ix) x) := by
  obtain ⟨hcond, hsame⟩ := s.conditionMet_noticed ch.val h87 x
  have hstop := hcond.before_stop (Dev.raiseAt_stopped ix.isLt hn ((hsame ..).trans hsev) (by rwa [hcond.fltState]) false x [])
  have hbaseOk : (((s.conditionMet ch.val ix.val x).raiseAt ch.val ix.val false x []).chan ch.val).baseBad < 2 := by
    obtain ⟨_, _, _, _, _, _, _, _, _, _, ht⟩ := hstop.1.chan
    rw [ht]
    exact hbase
  have hraise : s.sourceRaise (.chan ch ix) x = (s.conditionMet ch.val ix.val x).raiseAt ch.val ix.val false x [] := by
    unfold Dev.sourceRaise
    dsimp only
    rw [if_neg (by simp [haux, hvin]), Dev.baseCheck, if_neg (by omega)]
    split
    · rw [if_neg fun h => absurd (h44 h) (by simp)]
    · rfl
  rw [hraise]
  exact hstop

/-- Severities have two bits. -/
theorem Dev.sevOf_le (s : Dev) (ch ix : Nat) : s.sevOf ch ix ≤ 3 := by
  have hfld (w : Word) (n : Nat) : fld w (2 * n + 1) (2 * n) ≤ 3 := by
    rw [fld, show 2 * n + 1 + 1 - 2 * n = 2 by omega]
    exact Nat.le_of_lt_succ (Nat.mod_lt _ (by decide))
  unfold Dev.sevOf
  dsimp only
  split
  · exact Nat.le_refl 3
  · split
    · exact Nat.max_le.2 ⟨hfld .., hfld ..⟩
    · exact hfld ..

/-! ### FLT_CMD (R396) -/

/-- A write of the status field of FLT_STA leaves the channel stopped. -/
theorem Dev.Stopped.of_regs {ch st cause : Nat} {forced : Bool} {s t u : Dev} (h : Dev.Stopped ch st cause forced s t) (hregs : u = { t with regs := u.regs })
    (hfld : ∀ hi lo, hi < 16 → u.rdF .fltCh ch 0 Off.FLT_STA hi lo = t.rdF .fltCh ch 0 Off.FLT_STA hi lo)
    (htime : u.rd64 .fltCh ch 0 Off.FLT_TENTER = t.rd64 .fltCh ch 0 Off.FLT_TENTER) : Dev.Stopped ch st cause forced s u where
  state := (hfld 1 0 (by decide)).trans h.state
  cause := (hfld 10 4 (by decide)).trans h.cause
  safe := (hfld 2 2 (by decide)).trans h.safe
  forced := (hfld 3 3 (by decide)).trans h.forced
  time := htime.trans h.time
  shape := by rw [hregs, h.shape]
  chan := by rw [hregs]; exact h.chan
  mvms := by rw [hregs]; exact h.mvms

theorem Dev.Alone.of_regs {ch : Nat} {s t u : Dev} (h : Dev.Alone ch s t) (hregs : u = { t with regs := u.regs }) : Dev.Alone ch s u where
  only := by rw [hregs]; exact h.only
  fab := by rw [hregs]; exact h.fab

/-- The status of a command stands beside the state. -/
theorem Dev.Stopped.code {ch st cause : Nat} {forced : Bool} {s t : Dev} (h : Dev.Stopped ch st cause forced s t ∧ Dev.Alone ch s t) {v : Nat} (hv : v < 256) :
    (Dev.Stopped ch st cause forced s (t.wrF .fltCh ch 0 Off.FLT_STA 23 16 v) ∧ Dev.Alone ch s (t.wrF .fltCh ch 0 Off.FLT_STA 23 16 v)) ∧
      (t.wrF .fltCh ch 0 Off.FLT_STA 23 16 v).rdF .fltCh ch 0 Off.FLT_STA 23 16 = v := by
  obtain ⟨h, halone⟩ := h
  have hrd : (t.wrF .fltCh ch 0 Off.FLT_STA 23 16 v).rd .fltCh ch 0 Off.FLT_STA = setFld (t.rd .fltCh ch 0 Off.FLT_STA) 23 16 v := Dev.wr_rd_same ..
  have htime : (t.wrF .fltCh ch 0 Off.FLT_STA 23 16 v).rd64 .fltCh ch 0 Off.FLT_TENTER = t.rd64 .fltCh ch 0 Off.FLT_TENTER := by
    simp only [Dev.rd64, Dev.wrF, t.wr_rd_offset (show Off.FLT_STA < 0x1000 by decide) (show Off.FLT_TENTER < 0x1000 by decide) (by decide),
      t.wr_rd_offset (show Off.FLT_STA < 0x1000 by decide) (show Off.FLT_TENTER + 4 < 0x1000 by decide) (by decide)]
  have hregs : t.wrF .fltCh ch 0 Off.FLT_STA 23 16 v = { t with regs := (t.wrF .fltCh ch 0 Off.FLT_STA 23 16 v).regs } := Dev.setReg_regs_only rfl _ _
  generalize t.wrF .fltCh ch 0 Off.FLT_STA 23 16 v = u at hrd htime hregs
  refine ⟨⟨h.of_regs hregs (fun hi lo hhi => ?_) htime, halone.of_regs hregs⟩, ?_⟩
  · rw [Dev.rdF, hrd, fld_setFld_apart _ (by decide) (by decide) (.inr hhi)]
    rfl
  · rw [Dev.rdF, hrd, fld_setFld_same _ (by decide) (by decide)]
    exact Nat.mod_eq_of_lt hv

/-- CONTAIN and HALT of FLT_CMD: the entry, forced, with CAUSE 126 (R384, R396). -/
theorem Dev.fltCmd_stopped {s : Dev} {ch st : Nat} (hst : st = 1 ∧ s.fltState ch = 0 ∨ st = 2 ∧ s.fltState ch ≠ 2) {w : Word} (hw : fld w 1 0 = st) :
    (Dev.Stopped ch st 126 true s (s.fltCmd ch w) ∧ Dev.Alone ch s (s.fltCmd ch w)) ∧ (s.fltCmd ch w).rdF .fltCh ch 0 Off.FLT_STA 23 16 = Code.OK := by
  have hcmd : s.fltCmd ch w = (if st = 1 then s.contain ch 126 true else s.halt ch 126 true).wrF .fltCh ch 0 Off.FLT_STA 23 16 Code.OK := by
    unfold Dev.fltCmd
    rcases hst with ⟨rfl, -⟩ | ⟨rfl, -⟩
    · simp only [hw, if_true]
    · simp only [hw]
      rw [if_neg (by decide)]
  rw [hcmd]
  exact Dev.Stopped.code ((Dev.Noticed.refl ch s).enter hst (by decide)) (by decide)

theorem exec_fltCmd {s : State} {fn : Fn} {ch : ChId} (hw : s.m.Writes fn ⟨.fltCh, ch.val, 0⟩ Off.FLT_CMD) :
    exec (.fltCmdContain fn ch) s = s.done (s.m.fltCmd ch.val 1) ∧ exec (.fltCmdHalt fn ch) s = s.done (s.m.fltCmd ch.val 2) := by
  have hput (w : Word) : s.m.put fn (pageOff .fltCh ch.val 0 Off.FLT_CMD) w = s.m.fltCmd ch.val w := by
    rw [Dev.put_granted (Page.valid_channel (by decide) ch.isLt) (by decide) (by decide) hw, Dev.pageWrite, if_neg (by decide), Dev.bodyWrite]
    exact if_pos rfl
  exact ⟨congrArg s.done (hput 1), congrArg s.done (hput 2)⟩

/-! ### The statement -/

/-- What FLT_CMD leaves, before what follows it and after. -/
theorem does_fltCmd {c : Instr} {s : State} {ch : ChId} {st : Nat} {w : Word} (hc : exec c s = s.done (s.m.fltCmd ch.val w)) (hw : fld w 1 0 = st)
    (hst : st = 1 ∧ s.m.fltState ch.val = 0 ∨ st = 2 ∧ s.m.fltState ch.val ≠ 2) :
    let left (r : State) : Prop := r.m.fltState ch.val = st ∧ r.m.rdF .fltCh ch.val 0 Off.FLT_STA 10 4 = 126 ∧
      r.m.rdF .fltCh ch.val 0 Off.FLT_STA 3 3 = 1 ∧ r.m.rdF .fltCh ch.val 0 Off.FLT_STA 23 16 = Code.OK ∧ SameBytes s r ∧ r.m.rqt = s.m.rqt
    Does c s left ∧ (s.m.Settled → s.m.NoWork ch.val → Answers c s left) := by
  intro left
  obtain ⟨⟨hstop, halone⟩, hcode⟩ := Dev.fltCmd_stopped hst hw
  refine ⟨⟨_, hc, hstop.state, hstop.cause, hstop.forced, hcode, hstop.sameBytes, ?_⟩, fun hs hwork => ⟨_, hc, ?_⟩⟩
  · rw [hstop.shape]
  · have hfollow := Dev.settle_followed ch.isLt (halone.only (hs.dueOnly ch.val)) ((congrArg Fab.colls halone.fab).trans hwork.2)
    have hafter := hstop.kept hfollow
    have hsta : (s.m.fltCmd ch.val w).settle.rd .fltCh ch.val 0 Off.FLT_STA = (s.m.fltCmd ch.val w).rd .fltCh ch.val 0 Off.FLT_STA :=
      hfollow.reg _ (by simp only [followRegs, pageOff, Page.base, Off.FLT_STA]; omega)
    exact ⟨hafter.state, hafter.cause, hafter.forced, (congrArg (fld · 23 16) hsta).trans hcode, hafter.sameBytes, by rw [hafter.shape]⟩

/-- Settles O26: a raise at CONTAIN or HALT, and FLT_CMD, are entries to that state; settling keeps what they leave. -/
theorem severityDecides : Obligations.SeverityDecides := by
  unfold Obligations.SeverityDecides
  have hsev (m : Dev) (ch ix : Nat) (h : 2 ≤ m.sevOf ch ix) (hflt : m.fltState ch = 0) :
      ∃ st, m.sevOf ch ix = st + 1 ∧ (st = 1 ∧ m.fltState ch = 0 ∨ st = 2 ∧ m.fltState ch ≠ 2) := by
    have hle := m.sevOf_le ch ix
    exact ⟨m.sevOf ch ix - 1, by omega, by omega⟩
  refine ⟨⟨fun s ch ix hs haux hvin hflt hwork h87 hbase hn h2 => ?_, fun s ch ix x haux hvin hflt h87 h44 hbase hn h2 => ?_, fun m ch ix hix => ?_⟩,
    fun s fn ch hw => ⟨fun hflt => ?_, fun hflt => ?_⟩, fun s fn ch hs hw hflt hwork => ⟨?_, ?_⟩⟩
  · obtain ⟨st, hst, hcase⟩ := hsev _ _ _ h2 hflt
    obtain ⟨hstop, halone⟩ := Dev.sourceRaise_stopped (x := .none) haux hvin h87 (fun _ => rfl) hbase hn hst hcase
    have hafter := hstop.settle ch.isLt halone hs hwork
    refine ⟨_, rfl, hafter.state.trans (by omega), hafter.cause, hafter.safe, hafter.forced, hafter.time, hafter.sameBytes, ?_, ?_, hafter.mvms⟩ <;>
      exact (by rw [hafter.shape])
  · obtain ⟨st, hst, hcase⟩ := hsev _ _ _ h2 hflt
    obtain ⟨hstop, -⟩ := Dev.sourceRaise_stopped haux hvin h87 h44 hbase hn hst hcase
    refine ⟨_, rfl, hstop.state.trans (by omega), hstop.cause, hstop.safe, hstop.time, hstop.sameBytes, ?_, ?_, hstop.mvms⟩ <;>
      exact (by rw [hstop.shape])
  · have hfixed : fixedHalt ix = true := by revert ix; decide
    unfold Dev.sevOf
    simp only [hfixed, if_true]
  · exact (does_fltCmd (exec_fltCmd hw).1 rfl (.inl ⟨rfl, hflt⟩)).1
  · exact (does_fltCmd (exec_fltCmd hw).2 rfl (.inr ⟨rfl, by omega⟩)).1
  · exact (does_fltCmd (exec_fltCmd hw).1 rfl (.inl ⟨rfl, hflt⟩)).2 hs hwork
  · exact (does_fltCmd (exec_fltCmd hw).2 rfl (.inr ⟨rfl, by omega⟩)).2 hs hwork

end Sys2Proof.Machine
end

section
/-! The page header's registers (O27). -/

namespace Sys2Proof.Machine
open Sys2Proof

/-- Channel pages with sources of the collector that answer in the channel's window. -/
def sourcePages : List PageKind :=
  [.fltCh, .arrCh, .corCh, .accCh, .attCh, .kvpCh, .rqtCh, .ldrCh, .plcCh, .spdCh, .synCh, .evfCh, .monCh, .thmCh, .bkgCh, .mgtCh, .secCh, .pwrCh]

theorem sourcePages_collector {k : PageKind} (hk : k ∈ sourcePages) {b : Nat} (hb : PageKind.collBase k = some b) :
    k ∈ channelKinds ∧ k.nsrc ≤ 16 ∧ ∀ n, n < k.nsrc → b + n < 96 ∧ collector (b + n) = (k, n) := by
  have hall : ∀ k ∈ sourcePages, ∃ b, PageKind.collBase k = some b ∧ k ∈ channelKinds ∧ k.nsrc ≤ 16 ∧
      ∀ n < k.nsrc, b + n < 96 ∧ collector (b + n) = (k, n) := by
    intro k hk
    fin_cases hk <;> exact ⟨_, rfl, by decide, by decide, by decide⟩
  obtain ⟨b', hb', hin, hn, hcoll⟩ := hall k hk
  obtain rfl := Option.some.inj (hb'.symm.trans hb)
  exact ⟨hin, hn, hcoll⟩

/-! ### PG_SEV (R374, R440) -/

/-- Fields taken one by one from a word: those below a bound that are not kept. -/
theorem fld_foldl_setFld (keep : Nat → Bool) (w : Word) {N : Nat} (hN : N ≤ 16) (v : Word) {n : Nat} (hn : n < 16) :
    fld ((List.range N).foldl (fun v n => if keep n then v else setFld v (2 * n + 1) (2 * n) (fld w (2 * n + 1) (2 * n))) v) (2 * n + 1) (2 * n) =
      if n < N ∧ keep n = false then fld w (2 * n + 1) (2 * n) else fld v (2 * n + 1) (2 * n) := by
  induction N with
  | zero => rfl
  | succ N ih =>
    rw [List.range_succ, List.foldl_append, List.foldl_cons, List.foldl_nil]
    specialize ih (by omega)
    by_cases hk : keep N
    · rw [if_pos hk, ih]
      by_cases hnN : n = N
      · subst hnN; simp [hk]
      · simp only [show n < N ↔ n < N + 1 by omega]
    · rw [if_neg hk]
      by_cases hnN : n = N
      · subst hnN
        rw [fld_setFld_same _ (by omega) (by omega), if_pos ⟨by omega, by simpa using hk⟩]
        exact Nat.mod_eq_of_lt (Nat.mod_lt _ (Nat.two_pow_pos _))
      · rw [fld_setFld_apart _ (by omega) (by omega) (by omega), ih]
        simp only [show n < N ↔ n < N + 1 by omega]

theorem Dev.pgSev_eq {s : Dev} {p : Page} {b : Nat} (hb : PageKind.collBase p.kind = some b) (o : Nat) (w : Word) :
    s.pgSev p o w = s.setReg (p.base + o) ((List.range p.kind.nsrc).foldl (fun v n =>
      if fixedHalt (b + n) then v else setFld v (2 * n + 1) (2 * n) (fld w (2 * n + 1) (2 * n))) (s.reg (p.base + o))) := by
  unfold Dev.pgSev
  simp only [hb]

/-! ### PG_FRC (R374) -/

/-- A word with one bit set names one source. -/
theorem filter_bit_pow {N n : Nat} (hN : N ≤ 32) (hn : n < N) : (List.range N).filter (fun i => bit (BitVec.ofNat 32 (2 ^ n)) i) = [n] := by
  have hbit : ∀ i ∈ List.range N, bit (BitVec.ofNat 32 (2 ^ n)) i = decide (i = n) := fun i _ => by
    rw [bit, BitVec.toNat_ofNat, Nat.mod_eq_of_lt (Nat.pow_lt_pow_right (by decide) (by omega)), Nat.testBit_two_pow]
    simp [eq_comm]
  rw [List.filter_congr hbit, List.filter_eq, List.count_eq_one_of_mem List.nodup_range (List.mem_range.2 hn)]
  rfl

theorem Dev.pgForce_one {s : Dev} {p : Page} {b n : Nat} (hb : PageKind.collBase p.kind = some b) (hn : n < p.kind.nsrc) (hN : p.kind.nsrc ≤ 16) :
    s.pgForce p (BitVec.ofNat 32 (2 ^ n)) = s.raiseAt p.ch (b + n) true .none [] := by
  unfold Dev.pgForce
  rw [filter_bit_pow (by omega) hn, hb]

/-- A first raise of a code is recorded, with the mark of a forced one (R373, R503). -/
theorem Dev.raiseAt_forced {s : Dev} {ch ix : Nat} (hr : s.Records ch ix) (hix : ix < 96) (hn : (collector ix).2 < (collector ix).1.nsrc)
    (hfree : (s.chan ch).evr.used.get 0 (1 + ix) = 0) :
    (((s.raiseAt ch ix true .none []).chan ch).evr.recs.get none ((s.chan ch).evr.next % 8192)).map (fun e => e.flags / 4 % 2) = some 1 := by
  set m := s.pageMark (collector ix).1 ch (collector ix).2
  set e : Ev := ⟨1 + ix, 0, ix, 8, false, true, []⟩
  have hrec : m.record ch e = m.writeRec ch e := by
    unfold Dev.record
    dsimp only
    rw [if_pos]
    change (s.chan ch).evr.used.get 0 (1 + ix) < _
    rw [hfree]
    omega
  obtain ⟨rc, -, -, hflags, hrecs, -, -⟩ := Dev.writeRec_evr (s := m) (ch := ch) (e := e) (.inl rfl)
  have hflag : rc.flags / 4 % 2 = 1 := by
    rw [hflags]
    cases (m.mgt ch).tset <;> simp [e]
  rw [Dev.raiseAt_record hr hix hn, hrec, hrecs]
  change ((Store.set none ((s.chan ch).evr.next % 8192) (some rc) _).get none _).map _ = _
  rw [Store.get_set_same]
  exact congrArg some hflag

/-! ### The statement -/

/-- A write of a header register reaches its page. -/
theorem Dev.put_header {s : Dev} {fn : Fn} {k : PageKind} {ch o : Nat} (hv : Page.valid ⟨k, ch, 0⟩ = true) (ho : o < 0x100) (h4 : o % 4 = 0)
    (hw : s.Writes fn ⟨k, ch, 0⟩ o) (w : Word) : s.put fn (pageOff k ch 0 0 + o) w = s.headerWrite ⟨k, ch, 0⟩ o w := by
  have hput := Dev.put_granted hv (by omega) h4 hw w
  exact hput.trans (if_pos ho)

/-- Settles O27: each header register by its own meaning; a forced raise at RECORD is a raise that marks its record. -/
theorem headersAct : Obligations.HeadersAct := by
  unfold Obligations.HeadersAct
  intro s fn k ch b w hs hk hb
  obtain ⟨hin, hN, hcoll⟩ := sourcePages_collector hk hb
  have hv : Page.valid ⟨k, ch.val, 0⟩ = true := Page.valid_channel hin ch.isLt
  refine ⟨fun hw => ?_, fun second => ?_, fun n hn hr hw => ?_⟩
  · set v := s.m.rd k ch.val 0 Off.PG_FLT &&& ~~~w
    have hm : s.m.put fn (pageOff k ch.val 0 0 + Off.PG_FLT) w = s.m.setReg (pageOff k ch.val 0 Off.PG_FLT) v :=
      (Dev.put_header hv (by decide) (by decide) hw w).trans rfl
    have hside := (Dev.Aside.refl (· = pageOff k ch.val 0 Off.PG_FLT) s.m).setReg rfl v
    exact answers_aside hs (congrArg s.done hm) hside ⟨rfl, Dev.setReg_reg_same .., hside.reg⟩
  · intro o hw
    have ho : o = Off.PG_SEV0 ∨ o = Off.PG_SEV1 := by cases second <;> simp [o]
    have hm : s.m.put fn (pageOff k ch.val 0 0 + o) w = s.m.pgSev ⟨k, ch.val, 0⟩ o w := by
      have hsmall : o < 0x100 ∧ o % 4 = 0 := by rcases ho with h | h <;> rw [h] <;> decide
      refine (Dev.put_header hv hsmall.1 hsmall.2 hw w).trans ?_
      rcases ho with h | h <;> rw [h] <;> rfl
    set v := (List.range k.nsrc).foldl (fun v n =>
      if fixedHalt (b + n) then v else setFld v (2 * n + 1) (2 * n) (fld w (2 * n + 1) (2 * n))) (s.m.rd k ch.val 0 o) with hvd
    have heq : s.m.pgSev ⟨k, ch.val, 0⟩ o w = s.m.setReg (pageOff k ch.val 0 o) v := Dev.pgSev_eq (p := ⟨k, ch.val, 0⟩) hb o w
    have hside := (Dev.Aside.refl (· = pageOff k ch.val 0 o) s.m).setReg rfl v
    refine answers_aside hs (congrArg s.done (hm.trans heq)) hside ⟨hside.reg, fun n hn => ?_⟩
    have hrd : (s.m.setReg (pageOff k ch.val 0 o) v).rd k ch.val 0 o = v := Dev.setReg_reg_same ..
    exact (congrArg (fld · (2 * n + 1) (2 * n)) hrd).trans (fld_foldl_setFld (fun n => fixedHalt (b + n)) w hN _ hn)
  · obtain ⟨hix, hpage⟩ := hcoll n hn
    have hsrc : (collector (b + n)).2 < (collector (b + n)).1.nsrc := by rw [hpage]; exact hn
    have hm : s.m.put fn (pageOff k ch.val 0 0 + Off.PG_FRC) (BitVec.ofNat 32 (2 ^ n)) = s.m.raiseAt ch.val (b + n) true .none [] := by
      exact (Dev.put_header hv (by decide) (by decide) hw _).trans (Dev.pgForce_one (p := ⟨k, ch.val, 0⟩) hb hn hN)
    obtain ⟨hside, hbit, -⟩ := Dev.raiseAt_recorded hr hix hsrc (by rw [hpage]; omega) true []
    rw [hpage] at hbit
    exact answers_aside hs (congrArg s.done hm) hside ⟨hside.reg, hbit, Dev.raiseAt_forced hr hix hsrc⟩

end Sys2Proof.Machine
end

section
/-! Throttling and thermal shutdown (O30). -/

namespace Sys2Proof.Machine
open Sys2Proof

/-! ### A cluster's thermal state (R411 to R413) -/

theorem Dev.modTherm_same (s : Dev) (cl : Nat) (f : Therm → Therm) : (s.modTherm cl f).therm cl = f (s.therm cl) :=
  congrArg Cluster.therm (Dev.modClus_same ..)

theorem Dev.modTherm_other (s : Dev) {cl d : Nat} (h : d ≠ cl) (f : Therm → Therm) : (s.modTherm cl f).therm d = s.therm d :=
  congrArg Cluster.therm (Dev.modClus_other _ h _)

/-- An event with its cause takes effect. -/
theorem exec_only {i : Instr} {s : State} {b : Bool} {f : Dev → Dev} (hc : exec i s = s.done (s.m.only b f)) (hb : b = true) :
    exec i s = s.done (f s.m) := by rw [hc, hb, Dev.only_true]

section
variable {s : State} {c : ClusterRef} (hs : s.m.Settled) (halive : s.m.alive c.ch.val = true)
include hs

/-- A command that changes the thermal state of one cluster alone. -/
theorem answers_modTherm {i : Instr} {f : Therm → Therm} (hc : exec i s = s.done (s.m.modTherm c.ix f)) {th : Therm} (hth : f (s.m.therm c.ix) = th) :
    Answers i s fun r => r.m.regs = s.m.regs ∧ SameBytes s r ∧ r.m.therm c.ix = th ∧ ∀ d, d ≠ c.ix → r.m.therm d = s.m.therm d :=
  answers_done hc (hs.of_chans rfl) ⟨rfl, fun _ => rfl, (s.m.modTherm_same ..).trans hth, fun _ hd => s.m.modTherm_other hd f⟩

include halive

theorem gives_graceExpire (hstate : (s.m.therm c.ix).state = .asked) (hgrace : (s.m.therm c.ix).grace ≤ 1) :
    Gives (.throttleGraceExpire c) s (s.m.modTherm c.ix fun th => { th with graceEnded := true }) :=
  gives_done hs ((exec_only rfl halive).trans (congrArg s.done (if_pos ⟨hstate, hgrace⟩))) rfl

theorem answers_tighten {k : Cut} (hcut : (s.m.therm c.ix).cut = some k) (hstate : (s.m.therm c.ix).state = .enforced) (htick : 64 ≤ (s.m.therm c.ix).tick) :
    Answers (.throttleTighten c) s fun r => r.m.regs = s.m.regs ∧ SameBytes s r ∧
      r.m.therm c.ix = { s.m.therm c.ix with tick := 0, cut := some (if notCooler (s.m.therm c.ix) then
        { k with l := max (max 1 (k.sum / 64 / 8)) (3 * k.l / 4) } else k) } ∧
      ∀ d, d ≠ c.ix → r.m.therm d = s.m.therm d := by
  have hm : s.m.tighten c.ix = s.m.modTherm c.ix fun th => { th with tick := 0, cut := some (if notCooler (s.m.therm c.ix) then
      { k with l := max (max 1 (k.sum / 512)) (3 * k.l / 4) } else k) } := by
    unfold Dev.tighten
    simp only [hcut]
    exact if_pos ⟨hstate, htick⟩
  exact answers_modTherm hs ((exec_only rfl halive).trans (congrArg s.done hm)) (by rw [Nat.div_div_eq_div_mul])

/-- The two steps of a slowed clock (R413). -/
theorem answers_clockStep (htick : 64 ≤ (s.m.therm c.ix).tick) (hclock : 0 < (s.m.therm c.ix).clock) :
    ((s.m.therm c.ix).state = .enforced → Answers (.clockSlowStep c) s fun r => r.m.regs = s.m.regs ∧ SameBytes s r ∧
      r.m.therm c.ix = { s.m.therm c.ix with
        tick := 0, clockT := (s.m.therm c.ix).tCl
        clock := if F32.lt (s.m.therm c.ix).tCl (s.m.therm c.ix).clockT then (s.m.therm c.ix).clock else 2 }) ∧
    ((s.m.therm c.ix).state = .warning ∨ (s.m.therm c.ix).state = .nominal → Answers (.clockSlowStep c) s fun r => r.m.regs = s.m.regs ∧ SameBytes s r ∧
      r.m.therm c.ix = { s.m.therm c.ix with tick := 0, clock := (s.m.therm c.ix).clock - 1 }) := by
  have hnot : ¬ ((s.m.therm c.ix).tick < 64 ∨ (s.m.therm c.ix).clock = 0) := by omega
  refine ⟨fun hstate => ?_, fun hstate => ?_⟩
  · have hm : s.m.clockStep c.ix = s.m.modTherm c.ix fun th => { th with
        tick := 0, clock := if F32.lt th.tCl th.clockT then th.clock else 2, clockT := th.tCl } := (if_neg hnot).trans (if_pos hstate)
    obtain ⟨r, hr, hregs, hbytes, hth, -⟩ := answers_modTherm hs (i := .clockSlowStep c) ((exec_only rfl halive).trans (congrArg s.done hm)) rfl
    exact ⟨r, hr, hregs, hbytes, hth⟩
  · obtain ⟨hout, hcode⟩ : (s.m.therm c.ix).state ≠ .enforced ∧ (s.m.therm c.ix).state.code ≤ 1 := by rcases hstate with h | h <;> rw [h] <;> decide
    have hm : s.m.clockStep c.ix = s.m.modTherm c.ix fun th => { th with tick := 0, clock := th.clock - 1 } :=
      (if_neg hnot).trans ((if_neg hout).trans (if_pos hcode))
    obtain ⟨r, hr, hregs, hbytes, hth, -⟩ := answers_modTherm hs (i := .clockSlowStep c) ((exec_only rfl halive).trans (congrArg s.done hm)) rfl
    exact ⟨r, hr, hregs, hbytes, hth⟩

end

/-- THM_LIM takes limits in order, and no others (R409). -/
theorem answers_thmLim {s : State} {fn : Fn} {ch : ChId} {v : Word} (hs : s.m.Settled) (hw : s.m.Writes fn ⟨.thmCh, ch.val, 0⟩ Off.THM_LIM) :
    Answers (.thmLimWrite fn ch v) s fun r => SameWork s r ∧
      r.m.rdF .thmCh ch.val 0 Off.THM_LIM 23 0 = (if limOk v then fld v 23 0 else s.m.rdF .thmCh ch.val 0 Off.THM_LIM 23 0) ∧
      SameRegs s r (· = pageOff .thmCh ch.val 0 Off.THM_LIM) := by
  obtain ⟨row, hrow, hclear, hmask⟩ : ∃ row, PageKind.row .thmCh Off.THM_LIM = some row ∧ row.w1c = 0 ∧
      ∀ i < 24, bit row.rw i = true := ⟨_, rfl, rfl, by decide⟩
  set old := s.m.rd .thmCh ch.val 0 Off.THM_LIM with hold
  set w := storedWord ⟨.thmCh, ch.val, 0⟩ row Off.THM_LIM old v with hwd
  have hm : s.m.put fn (pageOff .thmCh ch.val 0 Off.THM_LIM) v = s.m.setReg (pageOff .thmCh ch.val 0 Off.THM_LIM) w := by
    rw [Dev.put_granted (Page.valid_channel (by decide) ch.isLt) (by decide) (by decide) hw, Dev.pageWrite_thm_mgt (.inl rfl) (by decide),
      Dev.plainWrite_of_row hrow]
    rfl
  have hside := (Dev.Aside.refl (· = pageOff .thmCh ch.val 0 Off.THM_LIM) s.m).setReg rfl w
  refine answers_aside hs (congrArg s.done hm) hside ⟨?_, hside.reg⟩
  have hrd : (s.m.setReg (pageOff .thmCh ch.val 0 Off.THM_LIM) w).rd .thmCh ch.val 0 Off.THM_LIM = w := Dev.setReg_reg_same ..
  have hnorm : normWord .thmCh 0 Off.THM_LIM old v = if limOk v then v else old := rfl
  refine (congrArg (fld · 23 0) hrd).trans ?_
  rw [hwd, storedWord_of_no_clear hclear, fld_merge _ _ fun i _ hi => hmask i (by omega)]
  change fld (normWord .thmCh 0 Off.THM_LIM old v) 23 0 = _
  rw [hnorm]
  split <;> rfl

/-! ### Shutdown (R414 to R416) -/

/-- A source of fixed severity takes its channel to HALTED (R374, R384). -/
theorem Dev.raise_fixed {s : Dev} {ch ix : Nat} (hfix : fixedHalt ix = true) (hix : ix < 96) (hn : (collector ix).2 < (collector ix).1.nsrc)
    (hflt : s.fltState ch ≠ 2) : Dev.Stopped ch 2 ix false s (s.raise ch ix) ∧ Dev.Alone ch s (s.raise ch ix) := by
  have hsev : s.sevOf ch ix = 3 := by
    unfold Dev.sevOf
    simp only [hfix, if_true]
  exact Dev.raiseAt_stopped hix hn hsev (.inr ⟨rfl, hflt⟩) false .none []

/-- What is prepared of a channel before its stop: its thermal marks. -/
structure Dev.Readied (ch : Nat) (s m : Dev) : Prop where
  shape : m = { s with chans := m.chans, thermtrip := m.thermtrip }
  chan : ∃ o k t, m.chan ch = { s.chan ch with orderly := o, stopCkpt := k, tripped := t }
  settled : s.Settled → m.Settled

section
variable {s : State} {m t : Dev} {ch : Nat}

/-- A stop by a fixed source: HALTED with its cause, memory and the request table as they were (R384). -/
def Halts (ch ix : Nat) (s r : State) : Prop :=
  r.m.fltState ch = 2 ∧ r.m.rdF .fltCh ch 0 Off.FLT_STA 10 4 = ix ∧ SameBytes s r ∧ r.m.rqt = s.m.rqt

theorem Dev.Stopped.halts {r : State} {ix : Nat} (h : Dev.Stopped ch 2 ix false m r.m) (g : Dev.Readied ch s.m m) : Halts ch ix s r := by
  refine ⟨h.state, h.cause, fun a => ?_, ?_⟩
  · rw [h.shape, g.shape]; rfl
  · rw [h.shape, g.shape]

/-- The thermal marks of a channel that has left service. -/
theorem Dev.Stopped.marks {ix : Nat} {t : Dev} (h : Dev.Stopped ch 2 ix false m t) : (t.chan ch).orderly = (m.chan ch).orderly ∧
    (t.chan ch).tripped = (m.chan ch).tripped ∧ t.thermtrip = m.thermtrip := by
  obtain ⟨_, _, _, _, _, _, _, _, _, _, ht⟩ := h.chan
  exact ⟨by rw [ht], by rw [ht], by rw [h.shape]⟩

/-- A stop by a fixed source, before what follows it and after. -/
theorem answers_fixedStop {c : Instr} {ix : Nat} (hch : ch < 8) (hc : exec c s = s.done (m.raise ch ix)) (g : Dev.Readied ch s.m m)
    (hfix : fixedHalt ix = true) (hix : ix < 96) (hn : (collector ix).2 < (collector ix).1.nsrc) (hflt : s.m.fltState ch ≠ 2) {P : Dev → Prop}
    (hP : ∀ t, Dev.Stopped ch 2 ix false m t → P t) :
    Does c s (fun r => Halts ch ix s r ∧ P r.m) ∧
      (s.m.Settled → s.m.NoWork ch → Answers c s fun r => Halts ch ix s r ∧ P r.m) := by
  have hsame : m.fltState ch = s.m.fltState ch := by rw [g.shape]; rfl
  obtain ⟨hstop, halone⟩ := Dev.raise_fixed hfix hix hn (hsame.trans_ne hflt)
  refine ⟨⟨_, hc, hstop.halts g, hP _ hstop⟩, fun hs hwork => ?_⟩
  have hwork' : m.NoWork ch := by
    obtain ⟨_, _, _, hch⟩ := g.chan
    exact ⟨by rw [g.shape]; exact hwork.1, by rw [hch]; exact hwork.2⟩
  have hafter := hstop.settle hch halone (g.settled hs) hwork'
  exact ⟨_, hc, hafter.halts g, hP _ hafter⟩

end

/-- An orderly stop whose sequences are all done (R415). -/
theorem answers_orderlyDone {s : State} {ch : ChId} (halive : s.m.alive ch.val = true) (horderly : (s.m.chan ch.val).orderly = true)
    (hckpt : (s.m.chan ch.val).stopCkpt = true) (hleft : s.m.stopLeft ch.val = false) (hflt : s.m.fltState ch.val ≠ 2) :
    Does (.orderlyStopComplete ch) s (fun r => Halts ch.val 84 s r ∧ (r.m.chan ch.val).orderly = false) ∧
      (s.m.Settled → s.m.NoWork ch.val → Answers (.orderlyStopComplete ch) s fun r => Halts ch.val 84 s r ∧ (r.m.chan ch.val).orderly = false) := by
  have hready : Dev.Readied ch.val s.m (s.m.modChan ch.val fun c => { c with orderly := false, stopCkpt := false }) :=
    ⟨rfl, ⟨_, _, _, Dev.modChan_same ..⟩, fun hs => hs.modChan (hs.chan ch.val)⟩
  have hc : exec (.orderlyStopComplete ch) s = s.done ((s.m.modChan ch.val fun c => { c with orderly := false, stopCkpt := false }).raise ch.val 84) :=
    (exec_only rfl halive).trans (congrArg s.done (if_pos ⟨horderly, hckpt, by simp [hleft]⟩))
  exact answers_fixedStop ch.isLt hc hready rfl (by decide) (by decide) hflt (P := fun t => (t.chan ch.val).orderly = false)
    fun t ht => ht.marks.1.trans (by rw [Dev.modChan_same])

/-- A comparator's trip (R416). -/
theorem answers_trip {s : State} {c : ClusterRef} {d : Fin 4} (hvin : s.m.vin = true) (htripped : (s.m.chan c.ch.val).tripped = false)
    (hflt : s.m.fltState c.ch.val ≠ 2) :
    Does (.diodeComparatorTrip c d) s (fun r => Halts c.ch.val 85 s r ∧ r.m.thermtrip = true ∧ (r.m.chan c.ch.val).tripped = true) ∧
      (s.m.Settled → s.m.NoWork c.ch.val → Answers (.diodeComparatorTrip c d) s fun r =>
        Halts c.ch.val 85 s r ∧ r.m.thermtrip = true ∧ (r.m.chan c.ch.val).tripped = true) := by
  set m : Dev := { s.m.modChan c.ch.val fun x => { x with tripped := true, orderly := false, stopCkpt := false } with thermtrip := true } with hm
  have hchan : m.chan c.ch.val = { s.m.chan c.ch.val with tripped := true, orderly := false, stopCkpt := false } :=
    Dev.modChan_same s.m c.ch.val fun x => { x with tripped := true, orderly := false, stopCkpt := false }
  have hsettled : s.m.Settled → (s.m.modChan c.ch.val fun x => { x with tripped := true, orderly := false, stopCkpt := false }).Settled :=
    fun hs => hs.modChan (hs.chan c.ch.val)
  have hready : Dev.Readied c.ch.val s.m m := ⟨rfl, ⟨_, _, _, hchan⟩, fun hs => (hsettled hs).of_chans rfl⟩
  have hc : exec (.diodeComparatorTrip c d) s = s.done (m.raise c.ch.val 85) :=
    (exec_only rfl hvin).trans (congrArg s.done (if_neg (by simp [htripped])))
  exact answers_fixedStop c.ch.isLt hc hready rfl (by decide) (by decide) hflt (P := fun t => t.thermtrip = true ∧ (t.chan c.ch.val).tripped = true)
    fun t ht => ⟨ht.marks.2.2, ht.marks.2.1.trans (by rw [hchan])⟩

/-! ### The statement -/

/-- Settles O30: the steps of a cluster's thermal state, and both stops as raises of a source that always halts. -/
theorem heatIsShed : Obligations.HeatIsShed := by
  unfold Obligations.HeatIsShed
  refine ⟨fun s c hs halive => ?_, fun s ch halive => ⟨fun ho hk hl hflt => ?_, fun c d hc hvin ht hflt => ?_⟩,
    fun s ch hs halive hflt hwork => ⟨fun ho hk hl => ?_, fun c d hc ht => ?_⟩⟩
  · intro th
    exact ⟨gives_graceExpire hs halive, fun k hcut hstate htick => answers_tighten hs halive hcut hstate htick,
      fun htick hclock => (answers_clockStep hs halive htick hclock).1, fun htick hclock => (answers_clockStep hs halive htick hclock).2,
      fun fn v hw => answers_thmLim hs hw⟩
  · obtain ⟨m, hm, ⟨hst, hcause, hbytes, hrqt⟩, hord⟩ := (answers_orderlyDone halive ho hk hl hflt).1
    exact ⟨m, hm, hst, hcause, hord, hbytes, hrqt⟩
  · subst hc
    obtain ⟨m, hm, ⟨hst, hcause, hbytes, hrqt⟩, htrip, hmark⟩ := (answers_trip (d := d) hvin ht hflt).1
    exact ⟨m, hm, hst, hcause, htrip, hmark, hbytes, hrqt⟩
  · obtain ⟨r, hr, ⟨hst, hcause, hbytes, hrqt⟩, hord⟩ := (answers_orderlyDone halive ho hk hl (by omega)).2 hs hwork
    exact ⟨r, hr, hst, hcause, hord, hbytes, hrqt⟩
  · subst hc
    have hvin : s.m.vin = true := by
      unfold Dev.alive at halive
      simp only [Bool.and_eq_true] at halive
      exact halive.1
    obtain ⟨r, hr, ⟨hst, hcause, hbytes, hrqt⟩, htrip, hmark⟩ := (answers_trip (d := d) hvin ht (by omega)).2 hs hwork
    exact ⟨r, hr, hst, hcause, htrip, hmark, hbytes, hrqt⟩

end Sys2Proof.Machine
end

section
/-! The hub's groups and delivery table (O28). -/

namespace Sys2Proof.Machine
open Sys2Proof

/-- The oldest group of a channel leaves in order, and the delivery table takes what it carried (R385, R386). -/
theorem answers_groupComplete {s : State} (hs : s.m.Settled) {ch : ChId} {g : RingGroup}
    (hg : s.m.hubGroups.find? (fun g => g.seq.ch.val = ch.val) = some g) (hhalt : s.m.hubHalt = false) (hvin : s.m.vin = true) :
    Answers (.hubGroupComplete ch) s fun r => SameWork s r ∧ r.m.regs = s.m.regs ∧ r.m.hubGroups = s.m.hubGroups.erase g ∧
      r.m.out = s.m.out ++ g.writes.filter (fun o => !s.m.muted o) ∧
      (r.m.dlvOf g.seq.ix).recs = g.word % 2 ^ 32 ∧ (r.m.dlvOf g.seq.ix).pos = g.pos ∧ (r.m.dlvOf g.seq.ix).live = s.m.live g.seq.ix := by
  set u : Dev := { s.m with hubGroups := s.m.hubGroups.erase g }.emits g.writes with hu
  set f : Dlv → Dlv := fun d => { d with
    recs := g.word % 2 ^ 32, pos := g.pos, gen := nfld g.word 63 48, last := nfld g.word 39 32, ctx := (s.m.seq g.seq.ix).ctx, live := u.live g.seq.ix }
  have hm : s.m.groupComplete ch.val = u.modDlv g.seq.ix f := by
    unfold Dev.groupComplete
    rw [hg]
    exact if_neg (by simp [hhalt, hvin])
  have hdlv : (u.modDlv g.seq.ix f).dlvOf g.seq.ix = f (u.dlvOf g.seq.ix) := Dev.modDlv_same ..
  refine answers_done (congrArg s.done hm) (hs.of_chans rfl) ⟨by constructor <;> rfl, rfl, rfl, rfl, ?_, ?_, ?_⟩
  · exact congrArg Dlv.recs hdlv
  · exact congrArg Dlv.pos hdlv
  · exact congrArg Dlv.live hdlv

/-- FLT_DLV_SEL shows an entry of the delivery table (R397). -/
theorem answers_dlvSel {s : State} (hs : s.m.Settled) {fn : Fn} {w : Word} (hw : s.m.Writes fn ⟨.fltMod, 0, 0⟩ Off.FLT_DLV_SEL) :
    Answers (.fltDlvSelWrite fn w) s fun r => SameWork s r ∧
      let d := s.m.dlvOf (fld w 11 9 * 512 + fld w 8 0)
      r.m.rd .fltMod 0 0 Off.FLT_DLV_SEL = w &&& 0xFFF#32 ∧ r.m.rd .fltMod 0 0 Off.FLT_DLV_REC = BitVec.ofNat 32 d.recs ∧
      r.m.rd .fltMod 0 0 Off.FLT_DLV_POS = BitVec.ofNat 32 (d.pos % 2 ^ 23) ∧
      SameRegs s r fun a => a = pageOff .fltMod 0 0 Off.FLT_DLV_SEL ∨ a = pageOff .fltMod 0 0 Off.FLT_DLV_REC ∨
        a = pageOff .fltMod 0 0 Off.FLT_DLV_POS := by
  have hm : s.m.put fn (pageOff .fltMod 0 0 Off.FLT_DLV_SEL) w = s.m.dlvSel w := by
    rw [Dev.put_granted (by decide) (by decide) (by decide) hw, Dev.pageWrite, if_neg (by decide), Dev.bodyWrite]
    exact if_pos rfl
  set R : Nat → Prop := fun a => a = pageOff .fltMod 0 0 Off.FLT_DLV_SEL ∨ a = pageOff .fltMod 0 0 Off.FLT_DLV_REC ∨ a = pageOff .fltMod 0 0 Off.FLT_DLV_POS
  have hside : s.m.Aside R (s.m.dlvSel w) := (((Dev.Aside.refl R s.m).wr (.inl rfl) _).wr (.inr (.inl rfl)) _).wr (.inr (.inr rfl)) _
  refine answers_aside hs (congrArg s.done hm) hside ⟨?_, ?_, Dev.wr_rd_same .., hside.reg⟩
  · change (s.m.dlvSel w).rd .fltMod 0 0 Off.FLT_DLV_SEL = _
    rw [Dev.dlvSel, Dev.wr_rd_offset _ (by decide) (by decide) (by decide), Dev.wr_rd_offset _ (by decide) (by decide) (by decide), Dev.wr_rd_same]
  · change (s.m.dlvSel w).rd .fltMod 0 0 Off.FLT_DLV_REC = _
    rw [Dev.dlvSel, Dev.wr_rd_offset _ (by decide) (by decide) (by decide), Dev.wr_rd_same]
    rfl

/-- Settles O28: what forwarding a group and selecting an entry change. -/
theorem groupsAreForwarded : Obligations.GroupsAreForwarded := by
  unfold Obligations.GroupsAreForwarded
  exact fun s hs => ⟨fun ch g hg hhalt hvin => answers_groupComplete hs hg hhalt hvin, fun fn w hw => answers_dlvSel hs hw⟩

end Sys2Proof.Machine
end

section
/-! Contexts: how their status word and their record change (R447 to R449). -/

namespace Sys2Proof.Machine
open Sys2Proof

/-- The word of BAR0 that holds the status of a context (R452). -/
abbrev cxWord (n : Nat) : Nat := cxOff .hubCx n Off.HUB_CX_STA

theorem cxWord_ne {k n : Nat} (h : k ≠ n) : cxWord k ≠ cxWord n := by
  have hk : cxWord k = 0x0100000 + k * 0x4000 + 0x108 := rfl
  have hn : cxWord n = 0x0100000 + n * 0x4000 + 0x108 := rfl
  omega

/-- From `s` to `t` nothing has changed but the status word of a context and its record. -/
structure Dev.OnlyCx (n : Nat) (s t : Dev) : Prop where
  shape : ∃ regs ctxs, t = { s with regs := regs, ctxs := ctxs }
  reg : ∀ a, a ≠ cxWord n → t.reg a = s.reg a
  ctx : ∀ k, k ≠ n → t.ctx k = s.ctx k

namespace Dev.OnlyCx
variable {n : Nat} {s t u : Dev}

theorem refl (n : Nat) (s : Dev) : Dev.OnlyCx n s s := ⟨⟨_, _, rfl⟩, fun _ _ => rfl, fun _ _ => rfl⟩

theorem trans (h : Dev.OnlyCx n s t) (g : Dev.OnlyCx n t u) : Dev.OnlyCx n s u where
  shape := by
    obtain ⟨_, _, rfl⟩ := h.shape
    obtain ⟨_, _, rfl⟩ := g.shape
    exact ⟨_, _, rfl⟩
  reg a ha := (g.reg a ha).trans (h.reg a ha)
  ctx k hk := (g.ctx k hk).trans (h.ctx k hk)

/-- The status word is written. -/
theorem sta (h : Dev.OnlyCx n s t) (hi lo v : Nat) : Dev.OnlyCx n s (t.wrF .hubCx 0 n Off.HUB_CX_STA hi lo v) :=
  h.trans ⟨⟨_, _, rfl⟩, fun _ ha => Dev.wrF_reg_other _ ha .., fun _ _ => rfl⟩

theorem modCtx (h : Dev.OnlyCx n s t) (f : Ctx → Ctx) : Dev.OnlyCx n s (t.modCtx n f) :=
  h.trans ⟨⟨_, _, rfl⟩, fun _ _ => rfl, fun _ hk => Dev.modCtx_other _ hk f⟩

theorem sta_other (h : Dev.OnlyCx n s t) {k : Nat} (hk : k ≠ n) (hi lo : Nat) :
    t.rdF .hubCx 0 k Off.HUB_CX_STA hi lo = s.rdF .hubCx 0 k Off.HUB_CX_STA hi lo :=
  congrArg (fld · hi lo) (h.reg _ (cxWord_ne hk))

theorem numVfs (h : Dev.OnlyCx n s t) : t.numVfs = s.numVfs := by
  obtain ⟨_, _, rfl⟩ := h.shape
  rfl

theorem chans (h : Dev.OnlyCx n s t) : t.chans = s.chans := by
  obtain ⟨_, _, rfl⟩ := h.shape
  rfl

end Dev.OnlyCx

/-- The fields of a status word do not overlap: a code changes neither the state nor the channels that are done. -/
theorem Dev.cxSta_fields (s : Dev) (n code : Nat) (hcode : code < 256) : (s.cxSta n code).rdF .hubCx 0 n Off.HUB_CX_STA 15 8 = code ∧
    (s.cxSta n code).ctxState n = s.ctxState n ∧
    (s.cxSta n code).rdF .hubCx 0 n Off.HUB_CX_STA 23 16 = s.rdF .hubCx 0 n Off.HUB_CX_STA 23 16 :=
  ⟨(Dev.wrF_rdF_same _ _ _ _ _ (by decide) (by decide) _).trans (Nat.mod_eq_of_lt hcode),
    Dev.wrF_rdF_apart _ _ _ _ _ (by decide) (by decide) (by decide) _, Dev.wrF_rdF_apart _ _ _ _ _ (by decide) (by decide) (by decide) _⟩

theorem Dev.cxDone_fields (s : Dev) (n mask : Nat) (hmask : mask < 256) : (s.cxDone n mask).rdF .hubCx 0 n Off.HUB_CX_STA 23 16 = mask ∧
    (s.cxDone n mask).ctxState n = s.ctxState n ∧
    (s.cxDone n mask).rdF .hubCx 0 n Off.HUB_CX_STA 15 8 = s.rdF .hubCx 0 n Off.HUB_CX_STA 15 8 :=
  ⟨(Dev.wrF_rdF_same _ _ _ _ _ (by decide) (by decide) _).trans (Nat.mod_eq_of_lt hmask),
    Dev.wrF_rdF_apart _ _ _ _ _ (by decide) (by decide) (by decide) _, Dev.wrF_rdF_apart _ _ _ _ _ (by decide) (by decide) (by decide) _⟩

theorem Dev.cxState_fields (s : Dev) (n st : Nat) (hst : st < 4) : (s.cxState n st).ctxState n = st ∧
    (s.cxState n st).rdF .hubCx 0 n Off.HUB_CX_STA 15 8 = s.rdF .hubCx 0 n Off.HUB_CX_STA 15 8 :=
  ⟨(Dev.wrF_rdF_same _ _ _ _ _ (by decide) (by decide) _).trans (Nat.mod_eq_of_lt hst),
    Dev.wrF_rdF_apart _ _ _ _ _ (by decide) (by decide) (by decide) _⟩

theorem Dev.cxClean_only (s : Dev) (n : Nat) (why : CleanWhy) : Dev.OnlyCx n s (s.cxClean n why) := by
  unfold Dev.cxClean
  split
  · split
    · exact .refl n s
    · exact (Dev.OnlyCx.refl n s).modCtx _
  · split
    · exact .refl n s
    · exact (((Dev.OnlyCx.refl n s).modCtx _).sta ..).sta ..

/-- The record of a context that enters CLEANING. -/
def cleaned (why : CleanWhy) (c : Ctx) : Ctx := { c with cleaning := why, creating := false, dmaOff := false }

/-- An ACTIVE context enters CLEANING (R449). -/
theorem Dev.cxClean_active {s : Dev} {n : Nat} (h : s.ctxState n = 1) (why : CleanWhy) : (s.cxClean n why).ctxState n = 2 ∧
    (s.cxClean n why).ctx n = Machine.cleaned why (s.ctx n) ∧ (s.cxClean n why).rdF .hubCx 0 n Off.HUB_CX_STA 23 16 = 0 := by
  have hclean : s.cxClean n why = ((s.modCtx n (Machine.cleaned why)).cxState n 2).cxDone n 0 := by
    rw [Dev.cxClean, if_neg (by omega)]
    exact if_neg (by omega)
  obtain ⟨hdone, hstate, -⟩ := ((s.modCtx n (Machine.cleaned why)).cxState n 2).cxDone_fields n 0 (by decide)
  rw [hclean]
  exact ⟨hstate.trans (Dev.cxState_fields _ n 2 (by decide)).1, s.modCtx_same n _, hdone⟩

/-! ### The contexts of the functions that fall away (R449) -/

/-- From `s` to `t` nothing has changed but the status words of contexts and their records; those of enabled functions stay, and the others that were
ACTIVE are CLEANING. -/
structure Dev.CleanedIn (why : CleanWhy) (ns : List Nat) (s t : Dev) : Prop where
  shape : ∃ regs ctxs, t = { s with regs := regs, ctxs := ctxs }
  keep : ∀ k, k ∉ ns ∨ s.fnEnabled k = true → t.reg (cxWord k) = s.reg (cxWord k) ∧ t.ctx k = s.ctx k
  clean : ∀ k ∈ ns, s.fnEnabled k = false → s.ctxState k = 1 →
    t.ctxState k = 2 ∧ (t.ctx k).cleaning = why ∧ t.rdF .hubCx 0 k Off.HUB_CX_STA 23 16 = 0

theorem Dev.foldl_cxClean (why : CleanWhy) (ns : List Nat) (hnd : ns.Nodup) : ∀ s : Dev, Dev.CleanedIn why ns s
    (ns.foldl (fun s n => if s.fnEnabled n then s else s.cxClean n why) s) := by
  induction ns with
  | nil => exact fun s => ⟨⟨_, _, rfl⟩, fun _ _ => ⟨rfl, rfl⟩, fun k hk => absurd hk (by simp)⟩
  | cons n ns ih =>
    intro s
    obtain ⟨hn, hns⟩ := List.nodup_cons.1 hnd
    set u : Dev := if s.fnEnabled n then s else s.cxClean n why with hu
    have hone : Dev.OnlyCx n s u := by
      rw [hu]
      split
      · exact .refl n s
      · exact s.cxClean_only n why
    have hfn : ∀ k, u.fnEnabled k = s.fnEnabled k := fun k => by rw [Dev.fnEnabled, Dev.fnEnabled, hone.numVfs]
    have hrest := ih hns u
    rw [List.foldl_cons, ← hu]
    refine ⟨?_, fun k hk => ?_, fun k hk hoff hact => ?_⟩
    · obtain ⟨_, _, hshape⟩ := hrest.shape
      obtain ⟨_, _, hone⟩ := hone.shape
      rw [hshape, hone]
      exact ⟨_, _, rfl⟩
    · obtain ⟨hword, hctx⟩ := hrest.keep k (hk.imp (fun h => fun hin => h (List.mem_cons_of_mem _ hin)) (hfn k).trans)
      rw [hword, hctx]
      by_cases hkn : k = n
      · subst hkn
        have hon : s.fnEnabled k = true := hk.resolve_left fun h => h List.mem_cons_self
        rw [hu, if_pos hon]
        exact ⟨rfl, rfl⟩
      · exact ⟨hone.reg _ (cxWord_ne hkn), hone.ctx k hkn⟩
    · by_cases hkn : k = n
      · subst hkn
        obtain ⟨hword, hctx⟩ := hrest.keep k (.inl hn)
        have huk : u = s.cxClean k why := by rw [hu, if_neg (by simp [hoff])]
        obtain ⟨hstate, hrecord, hdone⟩ := Dev.cxClean_active hact why
        rw [huk] at hword hctx ⊢
        exact ⟨(congrArg (fld · 1 0) hword).trans hstate, (congrArg Ctx.cleaning hctx).trans (congrArg Ctx.cleaning hrecord),
          (congrArg (fld · 23 16) hword).trans hdone⟩
      · have hin : k ∈ ns := (List.mem_cons.1 hk).resolve_left hkn
        exact hrest.clean k hin ((hfn k).trans hoff) ((hone.sta_other hkn 1 0).trans hact)

theorem Dev.cleanDisabled_cleaned (s : Dev) (why : CleanWhy) : Dev.CleanedIn why (List.range 64) s (s.cleanDisabled why) :=
  Dev.foldl_cxClean why _ List.nodup_range s

end Sys2Proof.Machine
end

section
/-! Configuration, virtual functions and the host link (O19). -/

namespace Sys2Proof.Machine
open Sys2Proof

section
variable {s : State} (hs : s.m.Settled)
include hs

/-- A configuration request of a function, once the module hears it (R472). -/
theorem gives_configRequest {m : Dev} {fn : Fn} (hfn : fn ≠ .mgt) (hm : s.m.configReq (fnIx fn) = m) (hchans : m.chans = s.m.chans) :
    Gives (.configRequest fn) s m := by
  have hof : s.m.configOf fn = s.m.configReq (fnIx fn) := by
    cases fn with
    | mgt => exact absurd rfl hfn
    | pf0 => rfl
    | vf n => rfl
  exact gives_done hs (congrArg s.done (hof.trans hm)) hchans

variable (hvin : s.m.vin = true)
include hvin

theorem gives_vfEnable_early (num : Fin 64) (h : s.m.hubReady = false) :
    Gives (.vfEnable num) s ((s.m.bump .hub 0 0 Off.HUB_RRS 1).says (.retryStatus 0)) := by
  have hm : s.m.vfEnable num.val = (s.m.bump .hub 0 0 Off.HUB_RRS 1).emit (.retryStatus 0) := if_pos (by simp [h])
  exact gives_done hs ((exec_only rfl hvin).trans (congrArg s.done hm)) (Dev.bump_chans ..)

theorem gives_vfEnable_ready (num : Fin 64) (h : s.m.hubReady = true) (hfail : s.m.hubFail = false) :
    Gives (.vfEnable num) s (({ s.m with numVfs := max s.m.numVfs num.val } : Dev).says (.configOk 0 true)) := by
  have hm : s.m.vfEnable num.val = ({ s.m with numVfs := max s.m.numVfs num.val } : Dev).emit (.configOk 0 true) := by
    rw [Dev.vfEnable, if_neg (by simp [h])]
    exact if_neg (of_decide_eq_false hfail)
  exact gives_done hs ((exec_only rfl hvin).trans (congrArg s.done hm)) rfl

theorem gives_configRequest_early {fn : Fn} (hfn : fn ≠ .mgt) (hperst : s.m.perstLow = false) (h : s.m.hubReady = false) :
    Gives (.configRequest fn) s ((s.m.bump .hub 0 0 Off.HUB_RRS 1).says (.retryStatus (fnIx fn))) := by
  refine gives_configRequest hs hfn ?_ (Dev.bump_chans ..)
  rw [Dev.configReq, if_neg (by simp [hvin, hperst])]
  exact if_pos (by simp [h])

theorem gives_configRequest_ready {fn : Fn} (hfn : fn ≠ .mgt) (hperst : s.m.perstLow = false) (h : s.m.hubReady = true)
    (hfail : s.m.hubFail = false) :
    Gives (.configRequest fn) s (s.m.says (.configOk (fnIx fn) (fnIx fn = 0 || s.m.fnEnabled (fnIx fn)))) := by
  have hsta : s.m.rdF .pwrMod 0 0 Off.PWR_MOD_STA 3 3 = 0 := by
    have hne : s.m.rdF .pwrMod 0 0 Off.PWR_MOD_STA 3 3 ≠ 1 := of_decide_eq_false hfail
    have hlt : s.m.rdF .pwrMod 0 0 Off.PWR_MOD_STA 3 3 < 2 := Nat.mod_lt _ (by decide)
    omega
  refine gives_configRequest hs hfn ?_ rfl
  rw [Dev.configReq, if_neg (by simp [hvin, hperst]), if_neg (by simp [h]), hsta, decide_eq_true rfl, Bool.and_true]
  rfl

/-- VF_DISABLE puts the contexts of the functions that fall away into CLEANING, and no other (R447, R449). -/
theorem answers_vfDisable {num : Fin 64} (h : num.val < s.m.numVfs) : Answers (.vfDisable num) s fun r =>
    SameBytes s r ∧ r.m.rqt = s.m.rqt ∧ r.m.numVfs = num.val ∧
      (∀ k, k ≤ num.val → r.m.ctxState k = s.m.ctxState k ∧ r.m.ctx k = s.m.ctx k) ∧
      ∀ k, num.val < k → k < 64 → s.m.ctxState k = 1 → r.m.ctxState k = 2 ∧ (r.m.ctx k).cleaning = .vfOff ∧
        r.m.rdF .hubCx 0 k Off.HUB_CX_STA 23 16 = 0 := by
  set u : Dev := { s.m with numVfs := num.val } with hu
  have hm : s.m.vfDisable num.val = u.cleanDisabled .vfOff := if_neg (by omega)
  obtain ⟨⟨regs, ctxs, hshape⟩, hkeep, hclean⟩ := u.cleanDisabled_cleaned .vfOff
  generalize u.cleanDisabled .vfOff = t at hm hshape hkeep hclean
  have hexec : exec (.vfDisable num) s = s.done t := (exec_only (f := (·.vfDisable num.val)) rfl hvin).trans (congrArg s.done hm)
  subst hshape
  refine answers_done hexec (hs.of_chans rfl) ⟨fun _ => rfl, rfl, rfl, fun k hk => ?_, fun k hk hlt hact => ?_⟩
  · have hon : u.fnEnabled k = true := by simp [Dev.fnEnabled, hu, hk]
    obtain ⟨hword, hctx⟩ := hkeep k (.inr hon)
    exact ⟨congrArg (fld · 1 0) hword, hctx⟩
  · have hoff : u.fnEnabled k = false := by simp only [Dev.fnEnabled, hu, Bool.or_eq_false_iff, decide_eq_false_iff_not]; omega
    exact hclean k (List.mem_range.2 hlt) hoff hact

theorem answers_functionD3hot {ctx : CtxId} (d3 : Bool) (h : s.m.fnEnabled ctx.val = true) : Answers (.functionD3hot ctx d3) s fun r =>
    SameBytes s r ∧ r.m.regs = s.m.regs ∧ r.m.rqt = s.m.rqt ∧
      r.m.ctx ctx.val = { s.m.ctx ctx.val with d3 := d3 } ∧ ∀ k, k ≠ ctx.val → r.m.ctx k = s.m.ctx k := by
  have hm : s.m.d3hot ctx.val d3 = s.m.modCtx ctx.val fun c => { c with d3 := d3 } := if_pos h
  exact answers_done ((exec_only rfl hvin).trans (congrArg s.done hm)) (hs.of_chans rfl)
    ⟨fun _ => rfl, rfl, rfl, s.m.modCtx_same ctx.val _, fun k hk => s.m.modCtx_other hk _⟩

end

/-! ### The host link (R430) -/

/-- HUB_STA after link training (R430). -/
def linkWord (rate width : Nat) (flit low : Bool) : Word := BitVec.ofNat 32 (rate + width * 8 + flit.toNat * 256 + low.toNat * 512)

theorem linkWord_fields {rate width : Nat} (hr : rate < 8) (hw : width < 32) (flit low : Bool) :
    fld (linkWord rate width flit low) 2 0 = rate ∧ fld (linkWord rate width flit low) 7 3 = width ∧
    fld (linkWord rate width flit low) 8 8 = flit.toNat ∧ fld (linkWord rate width flit low) 9 9 = low.toNat := by
  have hf := flit.toNat_le
  have hl := low.toNat_le
  simp only [linkWord, fld, BitVec.toNat_ofNat]
  omega

theorem sameWork_hubRaise (s : State) (n : Nat) : SameWork s { s with m := s.m.hubRaise n } where
  pending := rfl
  mem := s.m.hubRaise_field (·.mem) (fun _ _ _ _ _ _ => rfl) (fun _ => rfl) n
  t0 := s.m.hubRaise_field (·.t0) (fun _ _ _ _ _ _ => rfl) (fun _ => rfl) n
  cbuf := s.m.hubRaise_field (·.cbuf) (fun _ _ _ _ _ _ => rfl) (fun _ => rfl) n
  rqt := s.m.hubRaise_field (·.rqt) (fun _ _ _ _ _ _ => rfl) (fun _ => rfl) n
  seqs := s.m.hubRaise_field (·.seqs) (fun _ _ _ _ _ _ => rfl) (fun _ => rfl) n
  ctxs := s.m.hubRaise_field (·.ctxs) (fun _ _ _ _ _ _ => rfl) (fun _ => rfl) n
  mems := s.m.hubRaise_field (·.mems) (fun _ _ _ _ _ _ => rfl) (fun _ => rfl) n
  tiles := s.m.hubRaise_field (·.tiles) (fun _ _ _ _ _ _ => rfl) (fun _ => rfl) n
  cores := s.m.hubRaise_field (·.cores) (fun _ _ _ _ _ _ => rfl) (fun _ => rfl) n
  clusters := s.m.hubRaise_field (·.clusters) (fun _ _ _ _ _ _ => rfl) (fun _ => rfl) n

theorem Dev.hubRaise_chans (s : Dev) (n : Nat) : (s.hubRaise n).chans = s.chans :=
  s.hubRaise_field (·.chans) (fun _ _ _ _ _ _ => rfl) (fun _ => rfl) n

/-- Link training shows rate, width and mode, and tells of a link that is slower or narrower than full (R430, R451). -/
theorem answers_hostLinkTrained {s : State} {rate : LinkRate} {width : Fin 17} {flit : Bool} (hs : s.m.Settled) (hvin : s.m.vin = true)
    (hperst : s.m.perstLow = false) (hrate : 1 ≤ rate.val) : Answers (.hostLinkTrained rate width flit) s fun r => SameWork s r ∧
      r.m.rdF .hub 0 0 Off.HUB_STA 2 0 = rate.val ∧ r.m.rdF .hub 0 0 Off.HUB_STA 7 3 = width.val ∧
      r.m.rdF .hub 0 0 Off.HUB_STA 8 8 = flit.toNat ∧
      (r.m.rdF .hub 0 0 Off.HUB_STA 9 9 = 1 ↔ rate.val < 6 ∨ width.val < 16) ∧
      ((rate.val < 6 ∨ width.val < 16) → bit (r.m.rd .hub 0 0 Off.PG_FLT) 4 = true) ∧
      SameRegs s r fun a => a = pageOff .hub 0 0 Off.HUB_STA ∨ a = pageOff .hub 0 0 Off.PG_FLT ∨ a = pageOff .hub 0 0 Off.PG_CNT := by
  set low : Bool := decide (rate.val < 6) || decide (width.val < 16) with hlow
  have hiff : low = true ↔ rate.val < 6 ∨ width.val < 16 := by simp [hlow]
  set u : Dev := s.m.wr .hub 0 0 Off.HUB_STA (linkWord rate.val width.val flit low) with hu
  have hm : s.m.linkTrained rate.val width.val flit = if low then u.hubRaise 4 else u := if_pos ⟨hvin, by simp [hperst], hrate⟩
  obtain ⟨h20, h73, h88, h99⟩ := linkWord_fields (by omega : rate.val < 8) (by omega : width.val < 32) flit low
  have hwork : SameWork s { s with m := u } := sameWork_setReg s _ _
  have hword : u.rd .hub 0 0 Off.HUB_STA = linkWord rate.val width.val flit low := Dev.wr_rd_same ..
  have hone : low.toNat = 1 ↔ rate.val < 6 ∨ width.val < 16 := by rw [← hiff]; cases low <;> simp
  cases hc : low with
  | false =>
    rw [hc] at hm
    refine answers_done (congrArg s.done hm) (hs.of_chans rfl) ⟨hwork, ?_, ?_, ?_, ?_, fun h => ?_, fun a ha => ?_⟩
    · exact (congrArg (fld · 2 0) hword).trans h20
    · exact (congrArg (fld · 7 3) hword).trans h73
    · exact (congrArg (fld · 8 8) hword).trans h88
    · exact (iff_of_eq (congrArg (· = 1) ((congrArg (fld · 9 9) hword).trans h99))).trans hone
    · exact absurd (hiff.2 h) (by simp [hc])
    · exact Dev.wr_reg_other _ (fun h => ha (.inl h)) _
  | true =>
    rw [hc] at hm
    have hword' : (u.hubRaise 4).rd .hub 0 0 Off.HUB_STA = linkWord rate.val width.val flit low :=
      (u.hubRaise_reg_other 4 (by decide) (by decide)).trans hword
    refine answers_done (congrArg s.done hm) (hs.of_chans (u.hubRaise_chans 4))
      ⟨hwork.trans (sameWork_hubRaise { s with m := u } 4), ?_, ?_, ?_, ?_, fun _ => u.hubRaise_flt (by decide), fun a ha => ?_⟩
    · exact (congrArg (fld · 2 0) hword').trans h20
    · exact (congrArg (fld · 7 3) hword').trans h73
    · exact (congrArg (fld · 8 8) hword').trans h88
    · exact (iff_of_eq (congrArg (· = 1) ((congrArg (fld · 9 9) hword').trans h99))).trans hone
    · obtain ⟨hsta, hrest⟩ := not_or.1 ha
      obtain ⟨hflt, hcnt⟩ := not_or.1 hrest
      exact (u.hubRaise_reg_other 4 hflt hcnt).trans (Dev.wr_reg_other _ hsta _)

/-- Settles O19: requests by whether the hub is ready, the contexts that fall away by `Dev.CleanedIn`, and link training. -/
theorem functionsComeAndGo : Obligations.FunctionsComeAndGo := by
  unfold Obligations.FunctionsComeAndGo
  refine ⟨fun s num ctx d3 hs hvin => ⟨fun h => ⟨gives_vfEnable_early hs hvin num h, fun hperst fn hfn => ?_⟩,
    fun h hfail => ⟨gives_vfEnable_ready hs hvin num h hfail, fun hperst fn hfn => ?_⟩, fun h => answers_vfDisable hs hvin h,
    fun h => answers_functionD3hot hs hvin d3 h⟩, fun s rate width flit hs hvin hperst hrate => answers_hostLinkTrained hs hvin hperst hrate⟩
  · exact gives_configRequest_early hs hvin hfn hperst h
  · exact gives_configRequest_ready hs hvin hfn hperst h hfail

end Sys2Proof.Machine
end

section
/-! What ends a context (O20). -/

namespace Sys2Proof.Machine
open Sys2Proof

/-- A context that a Function Level Reset cleaned; 600,000 frames of channel 0 are reserved for it. -/
def resetCtx : Ctx := { Ctx.fresh with dmaOff := true, cleaning := .flr, t1Short := [600000] }

/-- Context 63 ends its cleaning with a staging area of one unit to take, and its record is listed after one of a higher key. -/
def reserved : Dev :=
  { (Dev.reset.wr .hubCx 0 63 Off.HUB_CX_STA 2).wr .hubCx 0 63 Off.HUB_CX_CFG 1 with
    vin := true, numVfs := 63, ctxs := [(64, { Ctx.fresh with d3 := true }), (63, resetCtx)]
    mems := (List.range 8).map fun ch => (ch, { Mem.fresh with zeroed := true }) }

/-- An empty, zeroed T1 has room for one frame as long as the reservations leave one, whatever the working area is. -/
theorem Dev.rangeFits_one {m : Dev} {ch : Nat} (h : m.memOf ch = { Mem.fresh with zeroed := true }) (h1 : m.t1Used ch = 0) :
    m.rangeFits ch 1 = decide (m.rsvOf ch < t1Frames - Config.workFrames) := by
  have hw : Config.workFrames ≤ 16384 := Nat.min_le_left _ _
  have hk : Config.workFrames ≤ t1Frames - 1 := hw.trans (by decide)
  have hp : pickRange (m.memOf ch) 1 = t1Frames - 1 := by
    rw [h, pickRange]
    simp [Mem.fresh, hk]
  have hfree : m.t1Free ch = t1Frames - Config.workFrames - m.rsvOf ch := by
    rw [Dev.t1Free, Dev.t1Tot, h, h1]
    simp [Mem.fresh]
  rw [Dev.rangeFits, hp, hfree]
  simp only [decide_eq_true hk, Bool.and_true, decide_eq_false Nat.one_ne_zero, Bool.false_or, decide_eq_decide]
  omega

/-- The state of context 63 at the end of its cleaning, before it would be created again. -/
def unreserved : Dev :=
  ((reserved.modCtx 63 fun c => { c with cleaning := .none, dmaOff := false }).cxState 63 0).cxDone 63 0xFF

theorem reserved_fits : reserved.stagingFits 63 = true := by
  refine List.all_eq_true.2 fun ch _ => ?_
  have hn : reserved.stagingFrames 63 = 1 := by decide +kernel
  have hmem : ∀ c : ChId, reserved.memOf c.val = { Mem.fresh with zeroed := true } ∧ reserved.t1Used c.val = 0 ∧ reserved.rsvOf c.val ≤ 600000 := by
    decide +kernel
  obtain ⟨hzero, hused, hrsv⟩ := hmem ch
  have hw : Config.workFrames ≤ 16384 := Nat.min_le_left _ _
  rw [hn, Dev.rangeFits_one hzero hused, decide_eq_true_iff, t1Frames]
  omega

/-- The end of the cleaning lists the record of context 63 a second time, so its reservation counts twice, and the staging area does not fit. -/
theorem unreserved_full : unreserved.stagingFits 63 = false := by
  refine List.all_eq_false.2 ⟨0, by decide, ?_⟩
  have hn : unreserved.stagingFrames 63 = 1 := by decide +kernel
  have hrsv : unreserved.rsvOf 0 = 1200000 := by decide +kernel
  rw [hn, Dev.rangeFits_one (by decide +kernel) (by decide +kernel), decide_eq_true_iff, t1Frames]
  exact fun h => absurd (hrsv ▸ h) (by omega)

theorem reserved_cleaningDone : reserved.cleaningDone 63 = unreserved.cxSta 63 Code.NOSPACE := by
  have hcleaning : (reserved.ctx 63).cleaning = .flr := by decide +kernel
  rw [Dev.cleaningDone, if_neg (by decide +kernel)]
  simp only [hcleaning]
  rw [if_neg (by decide +kernel)]
  exact if_pos (congrArg (!·) unreserved_full)

/-- Refutes O20: context 63 is created again after a Function Level Reset only while its staging area still fits, and the statement's condition
that it fits is of the state before the command. Where the records of contexts are not listed in the order of their keys, the end of the
cleaning lists the record of context 63 twice; the frames reserved for it (R294) then count twice, no room is left, and the context stays NONE. -/
theorem not_contextsLiveAndEnd : ¬ Obligations.ContextsLiveAndEnd := by
  unfold Obligations.ContextsLiveAndEnd
  intro h
  obtain ⟨-, -, -, -, -, hflr⟩ := h.2 ⟨[], reserved⟩ .pf0 63 (by unfold Dev.Settled; decide +kernel)
  obtain ⟨t, ht, -, hactive, -⟩ := hflr rfl (by decide +kernel) (by decide +kernel) (by decide +kernel) (by decide +kernel) reserved_fits
  have hexec : exec (.contextCleaningDone 63) ⟨[], reserved⟩ = State.done ⟨[], reserved⟩ (unreserved.cxSta 63 Code.NOSPACE) :=
    (exec_only (f := (·.cleaningDone 63)) rfl rfl).trans (congrArg _ reserved_cleaningDone)
  rw [State.done_of_settled _ (by unfold Dev.Settled; decide +kernel)] at hexec
  obtain rfl := Host.Outcome.next.inj (hexec.symm.trans ht)
  have hnone : (unreserved.cxSta 63 Code.NOSPACE).ctxState 63 = 0 := by decide +kernel
  exact absurd (hnone.symm.trans hactive) (by decide)

end Sys2Proof.Machine
end

section
/-! A thermal model that is far off (O29): MODEL_OFF may contain the channel. -/

namespace Sys2Proof.Machine
open Sys2Proof

/-- What follows a command leaves every tile as it was, if it ends calm. -/
theorem Dev.settle_tiles {m : Dev} (h : m.settle.Calm) : m.settle.tiles = m.tiles :=
  (m.followKeeps_tilesOf.settle (fun hm => ⟨hm, rfl⟩) h).2

/-- A command that changes the reads of a tile and leaves the module calm does not do what keeps that tile. -/
theorem not_does_of_mvms {c : Instr} {s : State} {m : Dev} {P : State → Prop} {j : Nat} (hexec : exec c s = s.done m) (hcalm : m.settle.Calm)
    (hmvms : (m.settle.tile j).mvms ≠ (s.m.tile j).mvms) (hp : ∀ r, P r → r.m.tile j = s.m.tile j) : ¬ Does c s P := by
  rintro ⟨n, hn, hpn⟩
  rw [hexec, State.done] at hn
  have hend : m.settle = n.settle := (State.mk.inj (Host.Outcome.next.inj hn)).2
  rw [hend] at hcalm hmvms
  exact hmvms (congrArg Tile.mvms ((Dev.tile_of_tiles (Dev.settle_tiles hcalm) j).trans (hp _ hpn)))

/-- A module whose cluster 0 reads 0 °C where its model has -1000 °C, with every source of THM at CONTAIN; tile 1 has a read that waits. -/
def modelOff : Dev :=
  { heldGroup with
    regs := (heldGroup.wr .thmCh 0 0 Off.PG_SEV0 0xAAAAAAAA).regs
    clusters := [(0, { Cluster.fresh with
      therm := { Cluster.fresh.therm with
        started := true, sinceOffset := 256, o := 0, tModel := F32.flip (F32.ofNat 1000), diodes := [some 0] } })] }

def cluster0 : ClusterRef := ⟨0, 0⟩

theorem exec_thermalOffsetUpdate (c : ClusterRef) (s : State) :
    exec (.thermalOffsetUpdate c) s = s.done (s.m.only (s.m.alive c.ch.val) fun m => m.offsetUpdate c.ix) := rfl

/-- The offset ends at 10 °C, far from what is left, and MODEL_OFF contains channel 0. -/
theorem offsetUpdate_abandons : (modelOff.offsetUpdate cluster0.ix).settle.readAbandoned = true := by decide +kernel

/-- Refutes O29: the update of a cluster's offset need not keep the tiles. With the offset at its limit and more than 8 °C left it raises a source
(R406), which may act at CONTAIN: the channel then loses its reads (R378). -/
theorem not_readingsAreTaken : ¬ Obligations.ReadingsAreTaken := by
  unfold Obligations.ReadingsAreTaken
  rintro ⟨-, hfed⟩
  have halive : modelOff.alive cluster0.ch.val = true := by decide +kernel
  obtain ⟨-, -, -, -, hoffset⟩ := hfed ⟨[], modelOff⟩ cluster0 (by unfold Dev.Settled; decide +kernel) halive
  have hgone := offsetUpdate_abandons
  simp only [Dev.readAbandoned, Bool.and_eq_true, List.isEmpty_iff, List.all_eq_true, List.mem_range, decide_eq_true_eq] at hgone
  obtain ⟨⟨hseqs, hsilent⟩, hmvms⟩ := hgone
  refine not_does_of_mvms (j := 1) ?_ (Dev.calm_of_noSeqs hseqs hsilent) ?_ (fun r hr => ?_) (hoffset (by decide +kernel) rfl)
  · rw [exec_thermalOffsetUpdate, halive, Dev.only_true]
  · rw [hmvms]
    exact (List.cons_ne_nil _ _).symm
  · obtain ⟨-, htiles, -⟩ := hr
    exact Dev.tile_of_tiles htiles 1

end Sys2Proof.Machine
end

section
/-! One channel's record. Sync units and the fabric act on the record of one channel, on registers, on the recorder and on what leaves the
module; `Dev.InChan` says so, with the new record written out but for its recorder. -/

namespace Sys2Proof.Machine
open Sys2Proof

/-- A channel with another sync unit. -/
def withSync (c : Chan) (y : Sync) : Chan := { c with sync := y }

/-- A channel with another fabric. -/
def withFab (c : Chan) (f : Fab) : Chan := { c with fab := f }

@[simp] theorem withSync_sync (c : Chan) (y : Sync) : (withSync c y).sync = y := rfl
@[simp] theorem withSync_fab (c : Chan) (y : Sync) : (withSync c y).fab = c.fab := rfl
@[simp] theorem withFab_sync (c : Chan) (f : Fab) : (withFab c f).sync = c.sync := rfl
@[simp] theorem withFab_fab (c : Chan) (f : Fab) : (withFab c f).fab = f := rfl

/-- From `s` to `t` channel `ch` has come to be `c`, but for its recorder; beside it only registers of `R`, the notices of controllers and what has
left the module have changed. -/
structure Dev.InChan (R : Nat → Prop) (ch : Nat) (c : Chan) (s t : Dev) : Prop where
  shape : t = { s with out := t.out, regs := t.regs, chans := t.chans, mgts := t.mgts, ticket := t.ticket }
  reg : ∀ a, ¬ R a → t.reg a = s.reg a
  chan : ∃ r, t.chan ch = { c with evr := r }
  others : ∀ j, j ≠ ch → t.chan j = s.chan j
  settled : s.Settled → t.Settled

namespace Dev.InChan
variable {R : Nat → Prop} {ch : Nat} {c : Chan} {s t u : Dev}

theorem refl (R : Nat → Prop) (ch : Nat) (s : Dev) : Dev.InChan R ch (s.chan ch) s s := ⟨rfl, fun _ _ => rfl, ⟨_, rfl⟩, fun _ _ => rfl, id⟩

/-- What leaves the channels alone. -/
theorem same (h : Dev.InChan R ch c s t) (hu : u = { t with out := u.out, regs := u.regs, mgts := u.mgts, ticket := u.ticket })
    (hreg : ∀ a, ¬ R a → u.reg a = t.reg a) : Dev.InChan R ch c s u where
  shape := by rw [hu, h.shape]
  reg a ha := (hreg a ha).trans (h.reg a ha)
  chan := by rw [hu]; exact h.chan
  others j hj := by rw [hu]; exact h.others j hj
  settled hs := (h.settled hs).of_chans (by rw [hu])

theorem wr (h : Dev.InChan R ch c s t) {k : PageKind} {d i o : Nat} (ha : R (pageOff k d i o)) (w : Word) : Dev.InChan R ch c s (t.wr k d i o w) :=
  h.same rfl fun b hb => Dev.wr_reg_other _ (fun e : b = _ => hb (e ▸ ha)) w

theorem bump (h : Dev.InChan R ch c s t) {k : PageKind} {d i o : Nat} (hlo : R (pageOff k d i o)) (hhi : R (pageOff k d i (o + 4))) (n : Nat) :
    Dev.InChan R ch c s (t.bump k d i o n) := by
  obtain ⟨regs, e⟩ := t.bump_eq_regs k d i o n
  exact h.same (by rw [e]) fun a ha => Dev.bump_reg_other _ (fun e => ha (e ▸ hlo)) fun e => ha (e ▸ hhi)

theorem emit (h : Dev.InChan R ch c s t) (o : Out) : Dev.InChan R ch c s (t.emit o) :=
  h.same (by unfold Dev.emit; split <;> rfl) fun a _ => by rw [Dev.reg, Dev.emit_regs]; rfl

/-- The channel's record changes, but for its recorder and what follows its fault state. -/
theorem modChan (h : Dev.InChan R ch c s t) (f : Chan → Chan) (hevr : ∀ r, f { c with evr := r } = { f c with evr := r })
    (hdue : ∀ x, (f x).due = x.due) : Dev.InChan R ch (f c) s (t.modChan ch f) where
  shape := by rw [h.shape]; rfl
  reg a ha := h.reg a ha
  chan := by
    obtain ⟨r, hr⟩ := h.chan
    exact ⟨r, (Dev.modChan_same ..).trans ((congrArg f hr).trans (hevr r))⟩
  others j hj := (Dev.modChan_other _ hj f).trans (h.others j hj)
  settled hs := (h.settled hs).modChan ((hdue _).trans ((h.settled hs).chan ch))

theorem modSync (h : Dev.InChan R ch c s t) (f : Sync → Sync) : Dev.InChan R ch (withSync c (f c.sync)) s (t.modSync ch f) :=
  h.modChan (fun c => withSync c (f c.sync)) (fun _ => rfl) fun _ => rfl

theorem modFab (h : Dev.InChan R ch c s t) (f : Fab → Fab) : Dev.InChan R ch (withFab c (f c.fab)) s (t.modFab ch f) :=
  h.modChan (fun c => withFab c (f c.fab)) (fun _ => rfl) fun _ => rfl

/-- The channel's recorder takes an event. -/
theorem record (h : Dev.InChan R ch c s t) (hr : ∀ a, recRegs ch a → R a) (e : Ev) : Dev.InChan R ch c s (t.record ch e) := by
  have hlog := t.record_logged ch e
  refine ⟨by rw [hlog.shape, h.shape], fun a ha => (hlog.reg a fun h => ha (hr a h)).trans (h.reg a ha), ?_,
    fun j hj => (hlog.chan_other hj).trans (h.others j hj), fun hs => hlog.settled (h.settled hs)⟩
  obtain ⟨r, hr⟩ := hlog.chan_same
  obtain ⟨q, hq⟩ := h.chan
  exact ⟨r, by rw [hr, hq]⟩

/-- A source raised at RECORD that names no tile (R373). -/
theorem raiseAt (h : Dev.InChan R ch c s t) {ix : Nat} (hrec : t.Records ch ix) (hix : ix < 96) (hn : (collector ix).2 < (collector ix).1.nsrc)
    (hR : ∀ a, raiseRegs ch ix a → R a) (forced : Bool) (data : List Nat) : Dev.InChan R ch c s (t.raiseAt ch ix forced .none data) := by
  rw [Dev.raiseAt_record hrec hix hn]
  exact record (wr (wr h (hR _ (.inl rfl)) _) (hR _ (.inr (.inl rfl))) _) (fun a ha => hR a (.inr (.inr ha))) _

/-! ### What it leaves -/

variable (h : Dev.InChan R ch c s t)
include h

theorem sync : t.sync ch = c.sync := by
  obtain ⟨r, hr⟩ := h.chan
  rw [Dev.sync, hr]

theorem fab : t.fab ch = c.fab := by
  obtain ⟨r, hr⟩ := h.chan
  rw [Dev.fab, hr]

theorem mem : t.mem = s.mem := by rw [h.shape]
theorem byte (a : Nat) : t.byte a = s.byte a := by rw [Dev.byte, h.mem, Dev.byte]
theorem rqt : t.rqt = s.rqt := by rw [h.shape]
theorem seqs : t.seqs = s.seqs := by rw [h.shape]
theorem tiles : t.tiles = s.tiles := by rw [h.shape]
theorem eff : t.eff = s.eff := by rw [h.shape]
theorem inForce (k : PageKind) (d i o hi lo : Nat) : t.inForce k d i o hi lo = s.inForce k d i o hi lo := by rw [Dev.inForce, h.eff, Dev.inForce]

end Dev.InChan

/-- A command whose answer is settled leaves what it does. -/
theorem Dev.InChan.answers {R : Nat → Prop} {ch : Nat} {c : Chan} {s : State} {m : Dev} (h : Dev.InChan R ch c s.m m) (hs : s.m.Settled) {i : Instr}
    {P : State → Prop} (hexec : exec i s = s.done m) (hp : P { s with m := m }) : Answers i s P :=
  answers_done hexec (h.settled hs) hp

/-! ### Objects of a sync unit (R321) -/

/-- An object of a sync unit. -/
def objIn (y : Sync) (o : Nat) : SyObj := y.objs.get SyObj.fresh o

/-- A sync unit with one object changed. -/
def withObj (y : Sync) (o : Nat) (x : SyObj) : Sync := { y with objs := y.objs.set SyObj.fresh o x }

@[simp] theorem objIn_withObj_same (y : Sync) (o : Nat) (x : SyObj) : objIn (withObj y o x) o = x := Store.get_set_same SyObj.fresh ..
theorem objIn_withObj_other (y : Sync) {o k : Nat} (h : k ≠ o) (x : SyObj) : objIn (withObj y o x) k = objIn y k :=
  Store.get_set_other SyObj.fresh h ..

theorem Dev.InChan.modObj {R : Nat → Prop} {ch : Nat} {c : Chan} {s t : Dev} (h : Dev.InChan R ch c s t) (o : Nat) (f : SyObj → SyObj) :
    Dev.InChan R ch (withSync c (withObj c.sync o (f (objIn c.sync o)))) s (t.modObj ch o f) :=
  h.modSync fun y => withObj y o (f (objIn y o))

theorem Dev.InChan.obj {R : Nat → Prop} {ch : Nat} {c : Chan} {s t : Dev} (h : Dev.InChan R ch c s t) (o : Nat) : t.obj ch o = objIn c.sync o :=
  congrArg (objIn · o) h.sync

theorem Dev.InChan.mapOf {R : Nat → Prop} {ch : Nat} {c : Chan} {s t : Dev} (h : Dev.InChan R ch c s t) (n w : Nat) :
    t.mapOf ch n w = c.sync.maps.get none (mapKey n w) := congrArg (fun y : Sync => y.maps.get none (mapKey n w)) h.sync

/-- A sync unit without the signals that are held for an object. -/
def dropHeld (o : Nat) (y : Sync) : Sync := { y with held := y.held.filter fun h => decide (h.obj ≠ o) }

/-- An object that is armed counts from 0, and the signals held for it before go (R322). -/
theorem Dev.InChan.armObj {R : Nat → Prop} {ch : Nat} {c : Chan} {s t : Dev} (h : Dev.InChan R ch c s t) (o target ctx : Nat) :
    ∃ y, Dev.InChan R ch (withSync c y) s (t.armObj ch o target ctx) ∧ y.maps = c.sync.maps ∧ (∀ k, k ≠ o → objIn y k = objIn c.sync k) ∧
      objIn y o = { objIn c.sync o with
        state := 1, count := 0, target := max 1 target % 2 ^ 24, code := 0, ctx := ctx, waits := (objIn c.sync o).waits.filter fun w => !w.met } := by
  set arm : SyObj → SyObj := fun x => { x with
    state := 1, count := 0, target := max 1 target % 2 ^ 24, code := 0, ctx := ctx, waits := x.waits.filter fun w => !w.met }
  set y : Sync := if (t.obj ch o).state = 1 then dropHeld o c.sync else c.sync with hy
  have hdrop : Dev.InChan R ch (withSync c y) s (if (t.obj ch o).state = 1 then t.modSync ch (dropHeld o) else t) := by
    rw [hy]
    split
    · exact h.modSync (dropHeld o)
    · exact h
  have hmaps : y.maps = c.sync.maps := by rw [hy]; split <;> rfl
  have hobjs : ∀ k, objIn y k = objIn c.sync k := fun k => by rw [hy]; split <;> rfl
  refine ⟨withObj y o (arm (objIn y o)), hdrop.modObj o arm, hmaps, fun k hk => (objIn_withObj_other _ hk _).trans (hobjs k), ?_⟩
  rw [objIn_withObj_same, hobjs]

/-! ### What reaches an object (R326, R329, R330) -/

/-- An object whose COUNT has come to a value, with the waits that the value satisfies. -/
def counted (x : SyObj) (n : Nat) : SyObj :=
  { x with count := n, waits := x.waits.map fun w => if w.threshold ≤ n then { w with met := true } else w }

/-- The counters of a sync unit. -/
def synRegs (ch a : Nat) : Prop := inPage .synCh ch 0 a

theorem synRegs_of {ch o : Nat} (ho : o < 0x1000) : synRegs ch (pageOff .synCh ch 0 o) := by
  simp only [synRegs, inPage, pageOff]
  omega

/-- A signal or consume that finds its object FREE or BROKEN is discarded and counted (R329). -/
theorem Dev.applySig_dead {s : Dev} {ch o : Nat} (h : (s.obj ch o).state ≠ 1) (consume : Bool) (value : Nat) :
    s.applySig ch o consume value = (s.syBump ch Off.SYN_DISC 1, false) := if_pos h

/-- Where no one waits for it, breaking an object changes it and counts. -/
theorem Dev.breakObj_unawaited {s : Dev} {ch o : Nat} (h : (s.obj ch o).waits = []) (code : Nat) :
    let u := (s.modObj ch o fun x => { x with state := 2, code := code, waits := [] }).syBump ch Off.SYN_BROKEN 1
    s.breakObj ch o code = if o ≥ 16384 then u.bump .synCx ch (s.obj ch o).ctx Off.SYN_CX_BROKEN 1 else u := by
  rw [Dev.breakObj, h]
  rfl

/-- It changes no header of a page. -/
theorem Dev.breakObj_rd {s : Dev} {ch o : Nat} (h : (s.obj ch o).waits = []) (code : Nat) {k : PageKind} {d i r : Nat} (hr : r < 0x100) :
    (s.breakObj ch o code).rd k d i r = s.rd k d i r := by
  have hunit : ((s.modObj ch o fun x => { x with state := 2, code := code, waits := [] }).syBump ch Off.SYN_BROKEN 1).rd k d i r = s.rd k d i r :=
    Dev.bump_rd_offset _ (o := Off.SYN_BROKEN) (by decide) (by omega) (by simp only [Off.SYN_BROKEN]; omega) (by simp only [Off.SYN_BROKEN]; omega) 1
  rw [Dev.breakObj_unawaited h]
  split
  · exact (Dev.bump_rd_offset _ (o := Off.SYN_CX_BROKEN) (by decide) (by omega) (by simp only [Off.SYN_CX_BROKEN]; omega)
      (by simp only [Off.SYN_CX_BROKEN]; omega) 1).trans hunit
  · exact hunit

section
variable {R : Nat → Prop} {ch : Nat} {c : Chan} {s t : Dev} (h : Dev.InChan R ch c s t) (hR : ∀ a, synRegs ch a → R a)
include h hR

theorem Dev.InChan.syBump {o : Nat} (ho : o + 4 < 0x1000) (n : Nat) : Dev.InChan R ch c s (t.syBump ch o n) :=
  h.bump (hR _ (synRegs_of (by omega))) (hR _ (synRegs_of ho)) n

/-- A signal or consume that an ARMED object takes moves COUNT, and satisfies the waits that COUNT has reached (R326, R329). -/
theorem Dev.applySig_counts {o : Nat} {consume : Bool} {value : Nat} (hstate : (objIn c.sync o).state = 1)
    (hlow : consume = true → value ≤ (objIn c.sync o).count) (hhigh : consume = false → (objIn c.sync o).count + value ≤ (objIn c.sync o).target) :
    (t.applySig ch o consume value).2 = true ∧ ∃ y, Dev.InChan R ch (withSync c y) s (t.applySig ch o consume value).1 ∧
      y.maps = c.sync.maps ∧ (∀ k, k ≠ o → objIn y k = objIn c.sync k) ∧
      objIn y o = counted (objIn c.sync o) (if consume then (objIn c.sync o).count - value else (objIn c.sync o).count + value) := by
  have hobj := h.obj o
  set x := objIn c.sync o
  set n := if consume then x.count - value else x.count + value with hn
  have happly : t.applySig ch o consume value = (((t.modObj ch o fun y => { y with
      count := if consume then y.count - value else y.count + value }).syBump ch Off.SYN_SIG 1).meetWaits ch o, true) := by
    simp only [Dev.applySig, hobj]
    rw [if_neg (by simp [hstate]), if_neg (by cases consume <;> simp_all), if_neg (by cases consume <;> simp_all)]
  set moved := withObj c.sync o { x with count := n } with hmoved
  have hobjMoved : objIn moved o = { x with count := n } := objIn_withObj_same ..
  refine ⟨congrArg Prod.snd happly, withObj moved o (counted (objIn moved o) n), ?_, rfl, fun k hk => ?_, ?_⟩
  · rw [happly, hobjMoved]
    have hcount := (h.modObj o fun y => { y with count := if consume then y.count - value else y.count + value }).syBump hR (o := Off.SYN_SIG) (by decide) 1
    have hmet := hcount.modObj o fun x => { x with waits := x.waits.map fun w => if w.threshold ≤ x.count then { w with met := true } else w }
    simp only [withSync_sync, objIn_withObj_same] at hmet
    exact hmet
  · rw [objIn_withObj_other _ hk, objIn_withObj_other _ hk]
  · rw [objIn_withObj_same, hobjMoved]
    rfl

/-- An object that no one waits for breaks (R330). -/
theorem Dev.InChan.breakObj {o : Nat} (hcx : 16384 ≤ o → ∀ q, q < 0x1000 → R (pageOff .synCx ch (objIn c.sync o).ctx q))
    (hwaits : (objIn c.sync o).waits = []) (code : Nat) :
    Dev.InChan R ch (withSync c (withObj c.sync o { objIn c.sync o with state := 2, code := code })) s (t.breakObj ch o code) := by
  have hx : ({ objIn c.sync o with state := 2, code := code, waits := [] } : SyObj) = { objIn c.sync o with state := 2, code := code } := by
    rw [← hwaits]
  have hbroken := (h.modObj o fun x => { x with state := 2, code := code, waits := [] }).syBump hR (o := Off.SYN_BROKEN) (by decide) 1
  rw [hx] at hbroken
  rw [Dev.breakObj_unawaited ((congrArg SyObj.waits (h.obj o)).trans hwaits), h.obj o]
  split
  · next ho => exact hbroken.bump (o := Off.SYN_CX_BROKEN) (hcx ho _ (by decide)) (hcx ho _ (by decide)) 1
  · exact hbroken

end

end Sys2Proof.Machine
end

section
/-! The host's sync commands (O51). -/

namespace Sys2Proof.Machine
open Sys2Proof

/-! ### Commands and their result (R342) -/

theorem synWord_fields {cmd : Nat} (hcmd : cmd < 8) (vid : Fin 4096) (value : BitVec 16) : fld (synWord cmd vid value) 11 0 = vid.val ∧
    fld (synWord cmd vid value) 14 12 = cmd ∧ fld (synWord cmd vid value) 31 16 = value.toNat := by
  have hvid := vid.isLt
  have hval := value.isLt
  simp only [synWord, fld, BitVec.toNat_ofNat]
  omega

/-- The registers that a host's sync command may change. -/
def synCmdRegs (ch n a : Nat) : Prop := inPage .synCx ch n a ∨ inPage .synCh ch 0 a ∨ raiseRegs ch 63 a

/-- A host's sync command has been answered: its code stands in SYN_CX_CMD_STA; memory, sequences, tiles, the other mappings and the registers
of other pages stay. -/
def SynReplied (s : State) (ch n vid : Nat) (t : State) (code : Nat) : Prop := SameBytes s t ∧ t.m.rqt = s.m.rqt ∧ t.m.seqs = s.m.seqs ∧
  t.m.tiles = s.m.tiles ∧ t.m.rd .synCx ch n Off.SYN_CX_CMD_STA = BitVec.ofNat 32 (code + vid * 256) ∧
  (∀ c w, mapKey c w ≠ mapKey n vid → t.m.mapOf ch c w = s.m.mapOf ch c w) ∧ SameRegs s t (synCmdRegs ch n)

section
variable {s : State} {fn : Fn} {ch : ChId} {ctx : CtxId} {vid : Fin 4096} {i : Instr} {m : Dev} {c : Chan}

theorem synCmdRegs_unit {a : Nat} (h : synRegs ch.val a) : synCmdRegs ch.val ctx.val a := .inr (.inl h)

theorem synCmdRegs_cx {q : Nat} (hq : q < 0x1000) : synCmdRegs ch.val ctx.val (pageOff .synCx ch.val ctx.val q) :=
  .inl ⟨by simp only [pageOff]; omega, by simp only [pageOff]; omega⟩

/-- What a host's sync command does before it replies, and its reply. -/
theorem answers_synSta {code : Nat} {P : State → Prop} (hs : s.m.Settled) (h : Dev.InChan (synCmdRegs ch.val ctx.val) ch.val c s.m m)
    (hexec : exec i s = s.done (m.synSta ch.val ctx.val vid.val code))
    (hmaps : ∀ k w, mapKey k w ≠ mapKey ctx.val vid.val → c.sync.maps.get none (mapKey k w) = s.m.mapOf ch.val k w)
    (hp : ∀ t, SynReplied s ch.val ctx.val vid.val t code → t.m.sync ch.val = c.sync →
      (∀ q, q < 0x100 → t.m.rd .synCh ch.val 0 q = m.rd .synCh ch.val 0 q) → P t) : Answers i s P := by
  have hsta := h.wr (synCmdRegs_cx (q := Off.SYN_CX_CMD_STA) (by decide)) (BitVec.ofNat 32 (code + vid.val * 256))
  exact hsta.answers hs hexec (hp _ ⟨hsta.byte, hsta.rqt, hsta.seqs, hsta.tiles, Dev.wr_rd_same .., fun k w hk => (hsta.mapOf k w).trans (hmaps k w hk), hsta.reg⟩
    hsta.sync fun q hq => Dev.wr_rd_offset _ (by decide) (by omega) (by simp only [Off.SYN_CX_CMD_STA]; omega) _)

/-! ### Commands that reach their page -/

section
variable (hw : s.m.Writes fn ⟨.synCx, ch.val, ctx.val⟩ Off.SYN_CX_CMD)
include hw

theorem Dev.put_synCmd (w : Word) : s.m.put fn (pageOff .synCx ch.val ctx.val Off.SYN_CX_CMD) w = s.m.synCommand ch.val ctx.val w := by
  have hv : Page.valid ⟨.synCx, ch.val, ctx.val⟩ = true := by simp [Page.valid]
  rw [Dev.put_granted hv (by decide) (by decide) hw, Dev.pageWrite, if_neg (by decide), Dev.bodyWrite]
  exact if_pos rfl

theorem exec_synMap : exec (.synMap fn ch ctx vid) s = s.done (s.m.synMap ch.val ctx.val vid.val) := by
  obtain ⟨hvid, hcmd, -⟩ := synWord_fields (cmd := 1) (by decide) vid 0
  have hm : s.m.synCommand ch.val ctx.val (synWord 1 vid 0) = s.m.synMap ch.val ctx.val vid.val := by simp only [Dev.synCommand, hvid, hcmd]
  exact congrArg s.done ((Dev.put_synCmd hw _).trans hm)

theorem exec_synUnmap : exec (.synUnmap fn ch ctx vid) s = s.done (s.m.synUnmap ch.val ctx.val vid.val) := by
  obtain ⟨hvid, hcmd, -⟩ := synWord_fields (cmd := 2) (by decide) vid 0
  have hm : s.m.synCommand ch.val ctx.val (synWord 2 vid 0) = s.m.synUnmap ch.val ctx.val vid.val := by simp only [Dev.synCommand, hvid, hcmd]
  exact congrArg s.done ((Dev.put_synCmd hw _).trans hm)

theorem exec_synArm : exec (.synArm fn ch ctx vid) s = s.done (s.m.synOp ch.val ctx.val vid.val 3 1) := by
  obtain ⟨hvid, hcmd, -⟩ := synWord_fields (cmd := 3) (by decide) vid 0
  have hm : s.m.synCommand ch.val ctx.val (synWord 3 vid 0) = s.m.synOp ch.val ctx.val vid.val 3 1 := by simp only [Dev.synCommand, hvid, hcmd]
  exact congrArg s.done ((Dev.put_synCmd hw _).trans hm)

theorem exec_synSignal (v : BitVec 16) : exec (.synSignal fn ch ctx vid v) s = s.done (s.m.synOp ch.val ctx.val vid.val 4 v.toNat) := by
  obtain ⟨hvid, hcmd, hval⟩ := synWord_fields (cmd := 4) (by decide) vid v
  have hm : s.m.synCommand ch.val ctx.val (synWord 4 vid v) = s.m.synOp ch.val ctx.val vid.val 4 v.toNat := by
    simp only [Dev.synCommand, hvid, hcmd, hval]
  exact congrArg s.done ((Dev.put_synCmd hw _).trans hm)

theorem exec_synConsume (v : BitVec 16) : exec (.synConsume fn ch ctx vid v) s = s.done (s.m.synOp ch.val ctx.val vid.val 5 v.toNat) := by
  obtain ⟨hvid, hcmd, hval⟩ := synWord_fields (cmd := 5) (by decide) vid v
  have hm : s.m.synCommand ch.val ctx.val (synWord 5 vid v) = s.m.synOp ch.val ctx.val vid.val 5 v.toNat := by
    simp only [Dev.synCommand, hvid, hcmd, hval]
  exact congrArg s.done ((Dev.put_synCmd hw _).trans hm)

end

/-! ### Commands that are refused (R324, R329) -/

/-- A command that is refused replies, and changes nothing else. -/
theorem answers_synRefused {code : Nat} (hs : s.m.Settled) (hexec : exec i s = s.done (s.m.synSta ch.val ctx.val vid.val code)) :
    Answers i s fun t => SynReplied s ch.val ctx.val vid.val t code ∧ t.m.sync ch.val = s.m.sync ch.val :=
  answers_synSta hs (.refl _ _ _) hexec (fun _ _ _ => rfl) fun _ ht hsync _ => ⟨ht, hsync⟩

theorem Dev.synOp_unmapped {s : Dev} {ch n vid : Nat} (h : s.mapOf ch n vid = none) (cmd value : Nat) :
    s.synOp ch n vid cmd value = s.synSta ch n vid Code.RANGE := by rw [Dev.synOp, h]

theorem Dev.synOp_pattern {s : Dev} {ch n vid : Nat} {e : SyMap} (h : s.mapOf ch n vid = some e) (hvid : vid < 1024) (cmd value : Nat) :
    s.synOp ch n vid cmd value = s.synSta ch n vid Code.RANGE := by
  rw [Dev.synOp, h]
  exact if_pos hvid

theorem Dev.synOp_zero {s : Dev} {ch n vid cmd : Nat} {e : SyMap} (h : s.mapOf ch n vid = some e) (hvid : 1024 ≤ vid) (hcmd : cmd ≠ 3) :
    s.synOp ch n vid cmd 0 = s.synSta ch n vid Code.RANGE := by
  rw [Dev.synOp, h]
  simp only
  rw [if_neg (by omega), if_neg hcmd]
  exact if_pos trivial

/-! ### MAP and UNMAP (R324, R325) -/

/-- A sync unit with one virtual ID mapped or not. -/
def withMap (y : Sync) (n vid : Nat) (e : Option SyMap) : Sync := { y with maps := y.maps.set none (mapKey n vid) e }

theorem maps_withMap_same (y : Sync) (n vid : Nat) (e : Option SyMap) : (withMap y n vid e).maps.get none (mapKey n vid) = e :=
  Store.get_set_same none ..

theorem maps_withMap_other (y : Sync) {n vid k w : Nat} (h : mapKey k w ≠ mapKey n vid) (e : Option SyMap) :
    (withMap y n vid e).maps.get none (mapKey k w) = y.maps.get none (mapKey k w) := Store.get_set_other none h ..

theorem answers_synMap_new {o : Nat} (hs : s.m.Settled) (hw : s.m.Writes fn ⟨.synCx, ch.val, ctx.val⟩ Off.SYN_CX_CMD)
    (hmap : s.m.mapOf ch.val ctx.val vid.val = none) (ho : s.m.freePhys ch.val = some o) : Answers (.synMap fn ch ctx vid) s fun t =>
      SynReplied s ch.val ctx.val vid.val t Code.OK ∧ (∀ k, k ≠ o → t.m.obj ch.val k = s.m.obj ch.val k) ∧
        t.m.mapOf ch.val ctx.val vid.val = some ⟨o, s.m.rd .synCx ch.val ctx.val Off.SYN_CX_PEER⟩ ∧
        t.m.obj ch.val o = { SyObj.fresh with ctx := ctx.val } := by
  set e : SyMap := ⟨o, s.m.rd .synCx ch.val ctx.val Off.SYN_CX_PEER⟩
  have hm : s.m.synMap ch.val ctx.val vid.val = ((s.m.modSync ch.val fun y => withMap y ctx.val vid.val (some e)).modObj ch.val o fun _ =>
      { SyObj.fresh with ctx := ctx.val }).synSta ch.val ctx.val vid.val Code.OK := by
    simp only [Dev.synMap, hmap, ho]
    rfl
  have hput := ((Dev.InChan.refl (synCmdRegs ch.val ctx.val) ch.val s.m).modSync fun y => withMap y ctx.val vid.val (some e)).modObj o fun _ =>
    { SyObj.fresh with ctx := ctx.val }
  refine answers_synSta hs hput ((exec_synMap hw).trans (congrArg s.done hm)) (fun k w hk => maps_withMap_other (s.m.sync ch.val) hk (some e))
    fun t ht hsync _ => ⟨ht, fun k hk => ?_, ?_, ?_⟩
  · exact (congrArg (objIn · k) hsync).trans (objIn_withObj_other _ hk _)
  · exact (congrArg (fun y : Sync => y.maps.get none (mapKey ctx.val vid.val)) hsync).trans (maps_withMap_same (s.m.sync ch.val) _ _ (some e))
  · exact (congrArg (objIn · o) hsync).trans (objIn_withObj_same ..)

theorem answers_synMap_again {e : SyMap} (hs : s.m.Settled) (hw : s.m.Writes fn ⟨.synCx, ch.val, ctx.val⟩ Off.SYN_CX_CMD)
    (hmap : s.m.mapOf ch.val ctx.val vid.val = some e) : Answers (.synMap fn ch ctx vid) s fun t =>
      SynReplied s ch.val ctx.val vid.val t Code.OK ∧ (∀ k, t.m.obj ch.val k = s.m.obj ch.val k) ∧
        t.m.mapOf ch.val ctx.val vid.val = some ⟨e.obj, s.m.rd .synCx ch.val ctx.val Off.SYN_CX_PEER⟩ := by
  set e' : SyMap := ⟨e.obj, s.m.rd .synCx ch.val ctx.val Off.SYN_CX_PEER⟩
  have hm : s.m.synMap ch.val ctx.val vid.val = (s.m.modSync ch.val fun y => withMap y ctx.val vid.val (some e')).synSta ch.val ctx.val vid.val Code.OK := by
    simp only [Dev.synMap, hmap]
    rfl
  have hput := (Dev.InChan.refl (synCmdRegs ch.val ctx.val) ch.val s.m).modSync fun y => withMap y ctx.val vid.val (some e')
  refine answers_synSta hs hput ((exec_synMap hw).trans (congrArg s.done hm)) (fun k w hk => maps_withMap_other _ hk _) fun t ht hsync _ =>
    ⟨ht, fun k => (congrArg (objIn · k) hsync :), ?_⟩
  exact (congrArg (fun y : Sync => y.maps.get none (mapKey ctx.val vid.val)) hsync).trans (maps_withMap_same ..)

theorem answers_synUnmap_free {e : SyMap} (hs : s.m.Settled) (hw : s.m.Writes fn ⟨.synCx, ch.val, ctx.val⟩ Off.SYN_CX_CMD)
    (hmap : s.m.mapOf ch.val ctx.val vid.val = some e)
    (hfree : (s.m.obj ch.val e.obj).state ≠ 1 ∨ ∀ w ∈ (s.m.obj ch.val e.obj).waits, w.met = true) : Answers (.synUnmap fn ch ctx vid) s fun t =>
      SynReplied s ch.val ctx.val vid.val t Code.OK ∧ (∀ k, k ≠ e.obj → t.m.obj ch.val k = s.m.obj ch.val k) ∧
        t.m.mapOf ch.val ctx.val vid.val = none ∧ t.m.obj ch.val e.obj = SyObj.fresh := by
  set drop : Sync → Sync := fun y => { withMap y ctx.val vid.val none with held := y.held.filter fun h => decide (h.obj ≠ e.obj) }
  have hopen : ((s.m.obj ch.val e.obj).state = 1 && (s.m.obj ch.val e.obj).waits.any fun w => !w.met) = false := by
    rcases hfree with h | h
    · simp [h]
    · have hnone : ((s.m.obj ch.val e.obj).waits.any fun w => !w.met) = false := List.any_eq_false.2 fun w hmem => by simp [h w hmem]
      rw [hnone, Bool.and_false]
  have hm : s.m.synUnmap ch.val ctx.val vid.val = ((s.m.modSync ch.val drop).modObj ch.val e.obj fun _ => SyObj.fresh).synSta ch.val ctx.val vid.val Code.OK := by
    simp only [Dev.synUnmap, Dev.dropMap, hmap, hopen]
    rfl
  have hput := ((Dev.InChan.refl (synCmdRegs ch.val ctx.val) ch.val s.m).modSync drop).modObj e.obj fun _ => SyObj.fresh
  refine answers_synSta hs hput ((exec_synUnmap hw).trans (congrArg s.done hm)) (fun k w hk => maps_withMap_other (s.m.sync ch.val) hk none)
    fun t ht hsync _ => ⟨ht, fun k hk => ?_, ?_, ?_⟩
  · exact (congrArg (objIn · k) hsync).trans (objIn_withObj_other _ hk _)
  · exact (congrArg (fun y : Sync => y.maps.get none (mapKey ctx.val vid.val)) hsync).trans (maps_withMap_same (s.m.sync ch.val) _ _ none)
  · exact (congrArg (objIn · e.obj) hsync).trans (objIn_withObj_same ..)

theorem answers_synUnmap_busy {e : SyMap} (hs : s.m.Settled) (hw : s.m.Writes fn ⟨.synCx, ch.val, ctx.val⟩ Off.SYN_CX_CMD)
    (hmap : s.m.mapOf ch.val ctx.val vid.val = some e) (harmed : (s.m.obj ch.val e.obj).state = 1)
    (hopen : ∃ w ∈ (s.m.obj ch.val e.obj).waits, w.met = false) : Answers (.synUnmap fn ch ctx vid) s fun t =>
      SynReplied s ch.val ctx.val vid.val t Code.BUSY ∧ t.m.sync ch.val = s.m.sync ch.val := by
  obtain ⟨w, hmem, hmet⟩ := hopen
  have hany : ((s.m.obj ch.val e.obj).state = 1 && (s.m.obj ch.val e.obj).waits.any fun w => !w.met) = true := by
    rw [decide_eq_true harmed, Bool.true_and]
    exact List.any_eq_true.2 ⟨w, hmem, by simp [hmet]⟩
  have hm : s.m.synUnmap ch.val ctx.val vid.val = s.m.synSta ch.val ctx.val vid.val Code.BUSY := by
    simp only [Dev.synUnmap, hmap]
    exact if_pos hany
  exact answers_synRefused hs ((exec_synUnmap hw).trans (congrArg s.done hm))

/-! ### ARM, SIGNAL and CONSUME (R322, R329, R330) -/

section
variable {e : SyMap} (hs : s.m.Settled) (hmap : s.m.mapOf ch.val ctx.val vid.val = some e) (hvid : 1024 ≤ vid.val)
include hs hmap hvid

theorem answers_synArm (hw : s.m.Writes fn ⟨.synCx, ch.val, ctx.val⟩ Off.SYN_CX_CMD) : Answers (.synArm fn ch ctx vid) s fun t =>
    SynReplied s ch.val ctx.val vid.val t Code.OK ∧ (∀ k, k ≠ e.obj → t.m.obj ch.val k = s.m.obj ch.val k) ∧
      (t.m.obj ch.val e.obj).state = 1 ∧ (t.m.obj ch.val e.obj).count = 0 ∧
      (t.m.obj ch.val e.obj).target = max 1 (s.m.rdF .synCx ch.val ctx.val Off.SYN_CX_TARGET 23 0) := by
  set target := s.m.rdF .synCx ch.val ctx.val Off.SYN_CX_TARGET 23 0 with htarget
  have hlt : target < 2 ^ 24 := Nat.mod_lt _ (by decide)
  have hm : s.m.synOp ch.val ctx.val vid.val 3 1 = (s.m.armObj ch.val e.obj (max 1 target) ctx.val).synSta ch.val ctx.val vid.val Code.OK := by
    rw [Dev.synOp, hmap]
    simp only
    rw [if_neg (by omega), if_pos trivial]
  obtain ⟨y, harmed, hmaps, hothers, hobj⟩ := (Dev.InChan.refl (synCmdRegs ch.val ctx.val) ch.val s.m).armObj e.obj (max 1 target) ctx.val
  refine answers_synSta hs harmed ((exec_synArm hw).trans (congrArg s.done hm)) (fun k w _ => congrArg (Store.get none (mapKey k w)) hmaps)
    fun t ht hsync _ => ⟨ht, fun k hk => (congrArg (objIn · k) hsync).trans (hothers k hk), ?_⟩
  have hobj' : t.m.obj ch.val e.obj = _ := (congrArg (objIn · e.obj) hsync).trans hobj
  rw [hobj']
  exact ⟨rfl, rfl, by simp only []; omega⟩

/-- A SIGNAL or CONSUME that its object takes (R329). -/
theorem answers_synCounts {cmd value n : Nat} (hexec : exec i s = s.done (s.m.synOp ch.val ctx.val vid.val cmd value))
    (hcmd : cmd ≠ 3) (hvalue : value ≠ 0) (harmed : (s.m.obj ch.val e.obj).state = 1)
    (hlow : cmd = 5 → value ≤ (s.m.obj ch.val e.obj).count) (hhigh : cmd ≠ 5 → (s.m.obj ch.val e.obj).count + value ≤ (s.m.obj ch.val e.obj).target)
    (hn : n = if cmd = 5 then (s.m.obj ch.val e.obj).count - value else (s.m.obj ch.val e.obj).count + value) :
    Answers i s fun t => SynReplied s ch.val ctx.val vid.val t Code.OK ∧ (∀ k, k ≠ e.obj → t.m.obj ch.val k = s.m.obj ch.val k) ∧
      t.m.obj ch.val e.obj = counted (s.m.obj ch.val e.obj) n := by
  have hrefl := Dev.InChan.refl (synCmdRegs ch.val ctx.val) ch.val s.m
  obtain ⟨hok, y, hcount, hmaps, hothers, hobj⟩ := Dev.applySig_counts hrefl (fun a => synCmdRegs_unit) (o := e.obj) (consume := decide (cmd = 5))
    (value := value) harmed (fun h => hlow (of_decide_eq_true h)) fun h => hhigh (of_decide_eq_false h)
  have hm : s.m.synOp ch.val ctx.val vid.val cmd value = ((s.m.applySig ch.val e.obj (cmd = 5) value).1.bump .synCx ch.val ctx.val Off.SYN_CX_SIG 1).synSta
      ch.val ctx.val vid.val Code.OK := by
    rw [Dev.synOp, hmap]
    simp only
    rw [if_neg (by omega), if_neg hcmd, if_neg hvalue]
    exact if_pos hok
  have hbump := hcount.bump (k := .synCx) (d := ch.val) (i := ctx.val) (o := Off.SYN_CX_SIG) (synCmdRegs_cx (by decide)) (synCmdRegs_cx (by decide)) 1
  refine answers_synSta hs hbump (hexec.trans (congrArg s.done hm)) (fun k w _ => congrArg (Store.get none (mapKey k w)) hmaps)
    fun t ht hsync _ => ⟨ht, fun k hk => (congrArg (objIn · k) hsync).trans (hothers k hk), ?_⟩
  refine (congrArg (objIn · e.obj) hsync).trans (hobj.trans (congrArg (counted _) ?_))
  rw [hn]
  by_cases h : cmd = 5 <;> simp only [h, decide_true, decide_false, if_true, if_false] <;> rfl

/-- A SIGNAL or CONSUME that takes COUNT out of 0 to TARGET breaks its object (R330). -/
theorem answers_synBreaks {cmd value ix n : Nat} (hexec : exec i s = s.done (s.m.synOp ch.val ctx.val vid.val cmd value)) (hcmd : cmd = 4 ∨ cmd = 5)
    (hn : ix = n + 61) (hvalue : value ≠ 0) (harmed : (s.m.obj ch.val e.obj).state = 1)
    (hout : cmd = 4 ∧ ix = 64 ∧ (s.m.obj ch.val e.obj).target < (s.m.obj ch.val e.obj).count + value ∨
      cmd = 5 ∧ ix = 63 ∧ (s.m.obj ch.val e.obj).count < value)
    (hwaits : (s.m.obj ch.val e.obj).waits = []) (hrec : s.m.Records ch.val ix) (hctx : e.obj < 16384 ∨ (s.m.obj ch.val e.obj).ctx = ctx.val) :
    Answers i s fun t => SynReplied s ch.val ctx.val vid.val t Code.RANGE ∧ (∀ k, k ≠ e.obj → t.m.obj ch.val k = s.m.obj ch.val k) ∧
      t.m.obj ch.val e.obj = { s.m.obj ch.val e.obj with state := 2, code := Code.RANGE } ∧
      bit (t.m.rd .synCh ch.val 0 Off.PG_FLT) n = true := by
  set b := s.m.breakObj ch.val e.obj Code.RANGE with hb
  have happly : s.m.applySig ch.val e.obj (decide (cmd = 5)) value = (b.raise ch.val ix, false) := by
    rcases hout with ⟨rfl, rfl, hhigh⟩ | ⟨rfl, rfl, hlow⟩ <;> simp only [Dev.applySig]
    · rw [if_neg (by simp [harmed]), if_neg (by simp), if_pos (by simp [hhigh])]
    · rw [if_neg (by simp [harmed]), if_pos (by simp [hlow])]
  have hm : s.m.synOp ch.val ctx.val vid.val cmd value = (b.raise ch.val ix).synSta ch.val ctx.val vid.val Code.RANGE := by
    rw [Dev.synOp, hmap]
    simp only
    rw [if_neg (by omega), if_neg (by omega), if_neg hvalue, happly]
    exact if_neg (by simp)
  have hbroken := (Dev.InChan.refl (synCmdRegs ch.val ctx.val) ch.val s.m).breakObj (fun a => synCmdRegs_unit) (o := e.obj)
    (fun ho q hq => by
      have hown : (objIn (s.m.chan ch.val).sync e.obj).ctx = ctx.val := hctx.resolve_left (by omega)
      rw [hown]
      exact synCmdRegs_cx hq) hwaits Code.RANGE
  have hix : ix = 63 ∨ ix = 64 := by omega
  have hrec' : b.Records ch.val ix := hrec.of_page fun r hr => Dev.breakObj_rd hwaits _ hr
  have hcoll : (collector ix).1 = .synCh ∧ (collector ix).2 = n := by
    obtain rfl : n = ix - 61 := by omega
    rcases hix with rfl | rfl <;> decide
  obtain ⟨-, hflt, -⟩ := Dev.raiseAt_recorded hrec' (by omega) (by rcases hix with rfl | rfl <;> decide) (by rw [hcoll.2]; omega) false []
  rw [hcoll.1, hcoll.2] at hflt
  have hraised := hbroken.raiseAt hrec' (by omega) (by rcases hix with rfl | rfl <;> decide)
    (fun a ha => .inr (.inr (by rcases hix with rfl | rfl <;> exact ha))) false []
  refine answers_synSta hs hraised (hexec.trans (congrArg s.done hm)) (fun k w _ => rfl) fun t ht hsync hhead => ⟨ht, fun k hk => ?_, ?_, ?_⟩
  · exact (congrArg (objIn · k) hsync).trans (objIn_withObj_other _ hk _)
  · exact (congrArg (objIn · e.obj) hsync).trans (objIn_withObj_same ..)
  · rw [hhead _ (by decide)]
    exact hflt

end
end
/-- Settles O51: by whether the ID is mapped, whether a host may operate on it, and what the amount does to COUNT. -/
theorem hostSyncCommands : Obligations.HostSyncCommands := by
  unfold Obligations.HostSyncCommands
  intro s fn ch ctx vid v hs hw
  refine ⟨fun hmap => ⟨fun o ho => answers_synMap_new hs hw hmap ho, ?_⟩, fun e hmap => ⟨answers_synMap_again hs hw hmap,
    fun hfree => answers_synUnmap_free hs hw hmap hfree, fun harmed hopen => answers_synUnmap_busy hs hw hmap harmed hopen,
    fun hvid => ?_, fun hvid => ⟨answers_synArm hs hmap hvid hw, fun hv => ?_, fun hv harmed => ⟨fun hhigh => ?_, fun hlow => ?_,
      fun hhigh hwaits hrec hctx => ?_, fun hlow hwaits hrec hctx => ?_⟩⟩⟩⟩
  · have hunmap : s.m.synUnmap ch.val ctx.val vid.val = s.m.synSta ch.val ctx.val vid.val Code.RANGE := by rw [Dev.synUnmap, hmap]
    simp only [List.forall_mem_cons, List.not_mem_nil, false_imp_iff, implies_true, and_true]
    exact ⟨answers_synRefused hs ((exec_synUnmap hw).trans (congrArg s.done hunmap)),
      answers_synRefused hs ((exec_synArm hw).trans (congrArg s.done (Dev.synOp_unmapped hmap ..))),
      answers_synRefused hs ((exec_synSignal hw v).trans (congrArg s.done (Dev.synOp_unmapped hmap ..))),
      answers_synRefused hs ((exec_synConsume hw v).trans (congrArg s.done (Dev.synOp_unmapped hmap ..)))⟩
  · simp only [List.forall_mem_cons, List.not_mem_nil, false_imp_iff, implies_true, and_true]
    exact ⟨answers_synRefused hs ((exec_synArm hw).trans (congrArg s.done (Dev.synOp_pattern hmap hvid ..))),
      answers_synRefused hs ((exec_synSignal hw v).trans (congrArg s.done (Dev.synOp_pattern hmap hvid ..))),
      answers_synRefused hs ((exec_synConsume hw v).trans (congrArg s.done (Dev.synOp_pattern hmap hvid ..)))⟩
  · subst hv
    simp only [List.forall_mem_cons, List.not_mem_nil, false_imp_iff, implies_true, and_true]
    exact ⟨answers_synRefused hs ((exec_synSignal hw 0).trans (congrArg s.done (Dev.synOp_zero hmap hvid (by decide)))),
      answers_synRefused hs ((exec_synConsume hw 0).trans (congrArg s.done (Dev.synOp_zero hmap hvid (by decide))))⟩
  all_goals have hvalue : v.toNat ≠ 0 := fun h0 => hv (BitVec.eq_of_toNat_eq h0)
  · exact answers_synCounts hs hmap hvid (n := (s.m.obj ch.val e.obj).count + v.toNat) (exec_synSignal hw v) (by decide) hvalue harmed
      (fun h => absurd h (by decide)) (fun _ => hhigh) (if_neg (by decide)).symm
  · exact answers_synCounts hs hmap hvid (n := (s.m.obj ch.val e.obj).count - v.toNat) (exec_synConsume hw v) (by decide) hvalue harmed
      (fun _ => hlow) (fun h => absurd rfl h) (if_pos rfl).symm
  · exact answers_synBreaks hs hmap hvid (n := 3) (exec_synSignal hw v) (.inl rfl) rfl hvalue harmed (.inl ⟨rfl, rfl, hhigh⟩) hwaits hrec hctx
  · exact answers_synBreaks hs hmap hvid (n := 2) (exec_synConsume hw v) (.inr rfl) rfl hvalue harmed (.inr ⟨rfl, rfl, hlow⟩) hwaits hrec hctx

end Sys2Proof.Machine
end

section
/-! Signals that are discarded (O52), and remote signals that are admitted. -/

namespace Sys2Proof.Machine
open Sys2Proof

/-- Any register may change. -/
def anyReg (_ : Nat) : Prop := True

/-! ### Counters of a sync unit -/

theorem Dev.syBump_rd {s : Dev} {ch o : Nat} (ho : o + 4 < 0x1000) {k : PageKind} {d i r : Nat} (hr : r < 0x1000) (h : r ≠ o) (h' : r ≠ o + 4) (n : Nat) :
    (s.syBump ch o n).rd k d i r = s.rd k d i r := Dev.bump_rd_offset s ho hr h h' n

theorem Dev.syBump_fltState (s : Dev) {ch o : Nat} (ho : o + 4 < 0x1000) (h : Off.FLT_STA ≠ o) (h' : Off.FLT_STA ≠ o + 4) (n d : Nat) :
    (s.syBump ch o n).fltState d = s.fltState d := by rw [Dev.fltState, Dev.rdF, Dev.syBump_rd ho (by decide) h h', ← Dev.rdF, ← Dev.fltState]

/-! ### Remote signals that are admitted (R333, R335) -/

/-- A message without an address that names this node and channel is taken. -/
theorem Dev.routeWay_here {s : Dev} {w : MsgWay} (hnode : s.node = some w.node.val) (hch : w.dstCh = w.ch) (st : Nat) (m : FabMsg) (take : Dev → Dev) :
    s.routeWay w st m take = take s := by
  rw [Dev.routeWay, hnode]
  exact if_pos ⟨rfl, hch⟩

section
variable {s : State} {ch : ChId} {p : PortIx} {node : Fin 32768} {g : RemoteSignal}

theorem exec_remoteSignal (hon : s.m.fabOn ch.val = true) (hnode : s.m.node = some node.val) (hdst : g.dstCh = ch) :
    exec (.remoteSignalArrive ⟨ch, p, node, g⟩) s = s.done (s.m.signalIn g) :=
  (exec_only (f := fun m => m.routeWay ⟨ch, p, node, g.dstCh, g.srcNode, g.srcCh⟩ g.stream (.signal node.val g) fun m => m.signalIn g) rfl hon).trans
    (congrArg s.done (Dev.routeWay_here (w := ⟨ch, p, node, g.dstCh, g.srcNode, g.srcCh⟩) hnode hdst _ _ _))

end

/-- The runs of a channel depend on its fabric and on the mappings. -/
theorem Dev.collOf_congr {s u : Dev} {ch : Nat} (hfab : u.fab ch = s.fab ch) (hmap : ∀ d n w, u.mapOf d n w = s.mapOf d n w) (o : Nat) :
    u.collOf ch o = s.collOf ch o := by
  have hobj : u.collObj = s.collObj := funext fun o => congrArg (Option.map _) (hmap ..)
  rw [Dev.collOf, hfab, hobj, ← Dev.collOf]

/-- A signal whose data has come, and that ends no contribution of a collective, reaches its object. -/
theorem Dev.trySig_covered {s : Dev} {ch o : Nat} {g : RemoteSignal} (hcov : s.covered ch g = true) (hcoll : s.collOf ch o = none) :
    s.trySig ch o g = ((s.applySig ch o g.consume g.value).1, true) := by
  rw [Dev.trySig, hcov, hcoll]
  rfl

theorem Dev.trySig_early {s : Dev} {ch o : Nat} {g : RemoteSignal} (hcov : s.covered ch g = false) : s.trySig ch o g = (s, false) := by
  rw [Dev.trySig, hcov]
  rfl

/-- What a remote signal meets once it is counted, with the trial that an admitted one undergoes. -/
def Dev.takeSignal (s : Dev) (trial : Nat → RemoteSignal → Dev × Bool) (ch : Nat) (g : RemoteSignal) : Dev :=
  let back (code : Nat) (s : Dev) : Dev := s.send ch g.srcNode.val g.srcCh.val (.reply g.srcNode.val g.srcCh.val g.stream g.mark code)
  if s.fltState ch ≠ 0 then back Code.WITHDRAWN s
  else if s.inForce .synCh ch 0 Off.SYN_CTL 0 0 = 0 then back Code.LINK s
  else match (s.mapOf ch g.dstCtx.val g.vid.val).filter fun m => peerOk m g with
    | none => back Code.TENANT (s.blockSig ch g.srcCtx.val g.srcNode.val g.dstCtx.val)
    | some m =>
      let (s', done) := trial m.obj g
      if done then s'
      else if (s'.sync ch).held.length ≥ 1024 ∨ s'.heldFor ch m.obj ≥ 8 then back Code.NOSPACE (s'.syBump ch Off.SYN_NOROOM 1)
      else s'.holdSig ch m.obj g

theorem Dev.signalIn_eq (s : Dev) (g : RemoteSignal) : s.signalIn g =
    (s.syBump g.dstCh.val Off.SYN_RSIG 1).takeSignal ((s.syBump g.dstCh.val Off.SYN_RSIG 1).trySig g.dstCh.val) g.dstCh.val g := rfl

section
variable {s t : Dev} {trial : Nat → RemoteSignal → Dev × Bool} {ch : Nat} {g : RemoteSignal} {m : SyMap} {done : Bool} (hflt : s.fltState ch = 0) (hctl : s.inForce .synCh ch 0 Off.SYN_CTL 0 0 = 1)
include hflt hctl

/-- A signal of a source that no entry admits is refused. -/
theorem Dev.takeSignal_blocked (hmap : s.mapOf ch g.dstCtx.val g.vid.val = none) : s.takeSignal trial ch g =
    (s.blockSig ch g.srcCtx.val g.srcNode.val g.dstCtx.val).send ch g.srcNode.val g.srcCh.val
      (.reply g.srcNode.val g.srcCh.val g.stream g.mark Code.TENANT) := by
  simp only [Dev.takeSignal, hmap, hflt, hctl, ne_eq, not_true, if_false, Nat.one_ne_zero]
  rfl

/-- A signal of an admitted source is tried, and held while it has to wait. -/
theorem Dev.takeSignal_admitted (hmap : s.mapOf ch g.dstCtx.val g.vid.val = some m) (hpeer : peerOk m g = true)
    (htry : trial m.obj g = (t, done)) : s.takeSignal trial ch g =
    if done then t
    else if (t.sync ch).held.length ≥ 1024 ∨ t.heldFor ch m.obj ≥ 8 then
      (t.syBump ch Off.SYN_NOROOM 1).send ch g.srcNode.val g.srcCh.val (.reply g.srcNode.val g.srcCh.val g.stream g.mark Code.NOSPACE)
    else t.holdSig ch m.obj g := by
  simp only [Dev.takeSignal, hmap, hflt, hctl, ne_eq, not_true, if_false, Nat.one_ne_zero, Option.filter, hpeer, if_true, htry]

end

/-! ### Signals that reach a FREE or BROKEN object (R329) -/

/-- A signal has been discarded: only counters have changed, and SYN_DISC has counted it. -/
def Discarded (s : State) (ch : Nat) (t : State) : Prop := SameBytes s t ∧ t.m.rqt = s.m.rqt ∧ t.m.seqs = s.m.seqs ∧ t.m.tiles = s.m.tiles ∧
  t.m.sync ch = s.m.sync ch ∧ t.m.rd64 .synCh ch 0 Off.SYN_DISC = (s.m.rd64 .synCh ch 0 Off.SYN_DISC + 1) % 2 ^ 64

section
variable {s : State} {ch : Nat} {t : Dev} {i : Instr}

/-- What discards a signal after it has changed other registers of its own, and replies after it. -/
theorem answers_discarded (hs : s.m.Settled) (h : Dev.InChan anyReg ch (s.m.chan ch) s.m t) (hrd : ∀ r < 0x1000, r ∉ [Off.SYN_RSIG, Off.SYN_RSIG + 4] →
    t.rd .synCh ch 0 r = s.m.rd .synCh ch 0 r) (hfreeze : s.m.rdF .synCh ch 0 Off.PG_CTL 0 0 = 0)
    (hexec : exec i s = s.done (t.syBump ch Off.SYN_DISC 1)) : Answers i s (Discarded s ch) := by
  have hdisc := h.syBump (fun _ _ => trivial) (o := Off.SYN_DISC) (by decide) 1
  have hfreeze' : t.rdF .synCh ch 0 Off.PG_CTL 0 0 = 0 := by
    rw [Dev.rdF, hrd _ (by decide) (by decide), ← Dev.rdF, hfreeze]
  have hcount : t.rd64 .synCh ch 0 Off.SYN_DISC = s.m.rd64 .synCh ch 0 Off.SYN_DISC := by
    rw [Dev.rd64, hrd _ (by decide) (by decide), hrd _ (by decide) (by decide), ← Dev.rd64]
  refine hdisc.answers hs hexec ⟨hdisc.byte, hdisc.rqt, hdisc.seqs, hdisc.tiles, hdisc.sync, ?_⟩
  exact (Dev.bump_rd64 hfreeze' Off.SYN_DISC (by decide)).trans (by rw [hcount])

end

/-- Settles O52: an engine, the host and another node each reach the object by the same operation, which discards. -/
theorem deadObjectsDiscard : Obligations.DeadObjectsDiscard := by
  unfold Obligations.DeadObjectsDiscard
  intro s ch obj hs x discarded hdead hfreeze
  have hrefl := Dev.InChan.refl anyReg ch.val s.m
  refine ⟨fun halive ctx v hown op hop => ?_, fun fn ctx vid v m hw hmap hobj hvid hv c hc => ?_,
    fun p node g m hon hnode hdst hflt hctl hmap hobj hpeer hcov hcoll => ?_⟩
  · have hown' : ¬ ((s.m.obj ch.val obj.val).state ≠ 0 ∧ (s.m.obj ch.val obj.val).ctx ≠ ctx.val) := fun h => hown.elim h.1 h.2
    have hm : s.m.engineOp ch.val obj.val ctx.val op = s.m.syBump ch.val Off.SYN_DISC 1 := by
      simp only [List.mem_cons, List.not_mem_nil, or_false] at hop
      rcases hop with rfl | rfl
      · exact (if_neg hown').trans (congrArg Prod.fst (Dev.applySig_dead hdead false v))
      · exact (if_neg hown').trans (congrArg Prod.fst (Dev.applySig_dead hdead true v))
    exact answers_discarded hs hrefl (fun _ _ _ => rfl) hfreeze
      ((exec_only (f := fun m => m.engineOp ch.val obj.val ctx.val op) rfl halive).trans (congrArg s.done hm))
  · have hvalue : v.toNat ≠ 0 := fun h0 => hv (BitVec.eq_of_toNat_eq h0)
    have hm {cmd : Nat} (hcmd : cmd ≠ 3) : s.m.synOp ch.val ctx.val vid.val cmd v.toNat =
        (s.m.syBump ch.val Off.SYN_DISC 1).synSta ch.val ctx.val vid.val Code.RANGE := by
      rw [Dev.synOp, hmap]
      simp only
      rw [if_neg (by omega), if_neg hcmd, if_neg hvalue, hobj, Dev.applySig_dead hdead]
      exact if_neg (by simp)
    have hexec : exec c s = s.done ((s.m.syBump ch.val Off.SYN_DISC 1).synSta ch.val ctx.val vid.val Code.RANGE) := by
      simp only [List.mem_cons, List.not_mem_nil, or_false] at hc
      rcases hc with rfl | rfl
      · exact (exec_synSignal hw v).trans (congrArg s.done (hm (by decide)))
      · exact (exec_synConsume hw v).trans (congrArg s.done (hm (by decide)))
    have hsta := (hrefl.syBump (fun _ _ => trivial) (o := Off.SYN_DISC) (by decide) 1).wr (k := .synCx) (d := ch.val) (i := ctx.val) (o := Off.SYN_CX_CMD_STA) trivial
      (BitVec.ofNat 32 (Code.RANGE + vid.val * 256))
    have hcount (r : Nat) (hr : r < 0x1000) (hne : r ≠ Off.SYN_CX_CMD_STA) : ((s.m.syBump ch.val Off.SYN_DISC 1).synSta ch.val ctx.val vid.val Code.RANGE).rd
        .synCh ch.val 0 r = (s.m.syBump ch.val Off.SYN_DISC 1).rd .synCh ch.val 0 r := Dev.wr_rd_offset _ (by decide) hr hne _
    refine hsta.answers hs hexec ⟨⟨hsta.byte, hsta.rqt, hsta.seqs, hsta.tiles, hsta.sync, ?_⟩, Dev.wr_rd_same ..⟩
    refine Eq.trans ?_ (Dev.bump_rd64 hfreeze Off.SYN_DISC (by decide))
    exact congrArg₂ (fun a b : Word => a.toNat + b.toNat * 2 ^ 32) (hcount _ (by decide) (by decide)) (hcount _ (by decide) (by decide))
  · subst hdst
    have hcount := hrefl.syBump (fun _ _ => trivial) (o := Off.SYN_RSIG) (by decide) 1
    set u := s.m.syBump g.dstCh.val Off.SYN_RSIG 1 with hu
    have hsync : u.sync g.dstCh.val = s.m.sync g.dstCh.val := hcount.sync
    have hfab : u.fab g.dstCh.val = s.m.fab g.dstCh.val := hcount.fab
    have htry : u.trySig g.dstCh.val m.obj g = (u.syBump g.dstCh.val Off.SYN_DISC 1, true) := by
      have hcov' : u.covered g.dstCh.val g = true := by rw [Dev.covered, hfab]; exact hcov
      have hcoll' : u.collOf g.dstCh.val m.obj = none := by
        rw [hobj, ← hcoll]
        exact Dev.collOf_congr hfab (fun d n w => by rw [Dev.mapOf, Dev.sync, hu, Dev.syBump, Dev.bump_get_chan, ← Dev.sync, ← Dev.mapOf]) _
      have hdead' : (u.obj g.dstCh.val m.obj).state ≠ 1 := by
        rw [Dev.obj, hsync, hobj]
        exact hdead
      rw [Dev.trySig_covered hcov' hcoll', Dev.applySig_dead hdead']
    have hm : s.m.signalIn g = u.syBump g.dstCh.val Off.SYN_DISC 1 := by
      rw [Dev.signalIn_eq, Dev.takeSignal_admitted ((Dev.syBump_fltState s.m (by decide) (by decide) (by decide) ..).trans hflt)
        ((Dev.bump_get_inForce ..).trans hctl) ?_ hpeer htry]
      · exact if_pos rfl
      · rw [Dev.mapOf, hsync]
        exact hmap
    exact answers_discarded hs hcount (fun r hr hne => by
      simp only [List.mem_cons, List.not_mem_nil, or_false, not_or] at hne
      exact Dev.syBump_rd (by decide) hr hne.1 hne.2 1) hfreeze ((exec_remoteSignal hon hnode rfl).trans (congrArg s.done hm))

end Sys2Proof.Machine
end

section
/-! What leaves on a port (R348, R349). -/

namespace Sys2Proof.Machine
open Sys2Proof

/-- A port of a fabric. -/
def portIn (f : Fab) (p : Nat) : Port := f.ports.get Port.fresh p

/-- A fabric with one port changed. -/
def withPort (f : Fab) (p : Nat) (x : Port) : Fab := { f with ports := f.ports.set Port.fresh p x }

@[simp] theorem portIn_withPort_same (f : Fab) (p : Nat) (x : Port) : portIn (withPort f p x) p = x := Store.get_set_same Port.fresh ..
theorem portIn_withPort_other (f : Fab) {p q : Nat} (h : q ≠ p) (x : Port) : portIn (withPort f p x) q = portIn f q :=
  Store.get_set_other Port.fresh h ..

section
variable {R : Nat → Prop} {ch : Nat} {c : Chan} {s t : Dev}

theorem Dev.InChan.port (h : Dev.InChan R ch c s t) (p : Nat) : t.port ch p = portIn c.fab p := congrArg (portIn · p) h.fab

theorem Dev.InChan.modPort (h : Dev.InChan R ch c s t) (p : Nat) (f : Port → Port) :
    Dev.InChan R ch (withFab c (withPort c.fab p (f (portIn c.fab p)))) s (t.modPort ch p f) := h.modFab fun x => withPort x p (f (portIn x p))

end

/-- From `f` to `g` a port has sent: its sequence number, queue, replay buffer and credits may have changed. -/
structure Pumped (p : Nat) (f g : Fab) : Prop where
  shape : ∃ ports, g = { f with ports := ports }
  others : ∀ q, q ≠ p → portIn g q = portIn f q
  port : ∃ a b d e, portIn g p = { portIn f p with seqTx := a, txq := b, replay := d, credits := e }

namespace Pumped
variable {p : Nat} {f g k : Fab}

theorem refl (p : Nat) (f : Fab) : Pumped p f f := ⟨⟨_, rfl⟩, fun _ _ => rfl, _, _, _, _, rfl⟩

theorem trans (h : Pumped p f g) (h' : Pumped p g k) : Pumped p f k where
  shape := by
    obtain ⟨_, rfl⟩ := h.shape
    obtain ⟨_, rfl⟩ := h'.shape
    exact ⟨_, rfl⟩
  others q hq := (h'.others q hq).trans (h.others q hq)
  port := by
    obtain ⟨_, _, _, _, e⟩ := h.port
    obtain ⟨a, b, d, x, e'⟩ := h'.port
    exact ⟨a, b, d, x, by rw [e', e]⟩

theorem withPort (f : Fab) (p a : Nat) (b : List TxMsg) (d : List (Nat × List TxMsg)) (e : List Nat) :
    Pumped p f (Machine.withPort f p { portIn f p with seqTx := a, txq := b, replay := d, credits := e }) :=
  ⟨⟨_, rfl⟩, fun _ hq => portIn_withPort_other _ hq _, a, b, d, e, portIn_withPort_same ..⟩

theorem state (h : Pumped p f g) : (portIn g p).state = (portIn f p).state := by
  obtain ⟨_, _, _, _, e⟩ := h.port
  rw [e]

end Pumped

section
variable {R : Nat → Prop} {ch p : Nat} {s : Dev}

/-- What a port sends changes its own block and counts (R348, R349). -/
theorem Dev.InChan.pump (hR : R (pageOff .evfCh ch 0 (Off.EVF_TXFLIT + p * 0x40))) (hR' : R (pageOff .evfCh ch 0 (Off.EVF_TXFLIT + p * 0x40 + 4)))
    (n : Nat) : ∀ {c : Chan} {t : Dev}, Dev.InChan R ch c s t → ∃ g, Pumped p c.fab g ∧ Dev.InChan R ch (withFab c g) s (t.pump ch p n) := by
  induction n with
  | zero => exact fun {c _} h => ⟨c.fab, .refl p c.fab, h⟩
  | succ n ih =>
    intro c t h
    set pt := t.port ch p
    set f := fillFlit (pt.txq.length + 1) ⟨pt.txq, pt.credits, 64, []⟩
    set sq := (pt.seqTx + 1) % 4096
    have hflit := (h.modPort p fun x => { x with seqTx := sq, txq := f.q, replay := x.replay ++ [(sq, f.ended)], credits := f.credits }).bump
      (k := .evfCh) (i := 0) hR hR' 1
    have hsaid (ms : List TxMsg) : ∀ {u : Dev} {d : Chan}, Dev.InChan R ch d s u →
        Dev.InChan R ch d s (ms.foldl (fun s m => s.emit (.fabric ch (some p) m.msg)) u) := by
      induction ms with
      | nil => exact id
      | cons m ms ihm => exact fun hu => ihm (hu.emit _)
    obtain ⟨g, hg, hrest⟩ := ih (hsaid f.ended hflit)
    by_cases hstop : pt.state ≠ 3 ∨ 64 ≤ pt.replay.length ∨ f.room = 64
    · exact ⟨c.fab, .refl p c.fab, by rw [Dev.pump, if_pos hstop]; exact h⟩
    · refine ⟨g, (Pumped.withPort c.fab p _ _ _ _).trans hg, ?_⟩
      rw [Dev.pump, if_neg hstop]
      exact hrest

theorem Dev.InChan.queueMsg {c : Chan} {t : Dev} (h : Dev.InChan R ch c s t) (hR : R (pageOff .evfCh ch 0 (Off.EVF_TXFLIT + p * 0x40)))
    (hR' : R (pageOff .evfCh ch 0 (Off.EVF_TXFLIT + p * 0x40 + 4))) (st : Option Nat) (m : FabMsg) :
    ∃ g, Pumped p c.fab g ∧ Dev.InChan R ch (withFab c g) s (t.queueMsg ch p st m) := by
  obtain ⟨g, hg, hpump⟩ := (h.modPort p fun x => { x with txq := x.txq ++ [⟨msgVc m, msgGranules m, st, m⟩] }).pump hR hR' 128
  exact ⟨g, (Pumped.withPort c.fab p _ _ _ _).trans hg, hpump⟩

end

/-! ### A port with nothing queued -/

/-- A port with nothing queued sends nothing. -/
theorem Dev.pump_empty {s : Dev} {ch p : Nat} (h : (s.port ch p).txq = []) (n : Nat) : s.pump ch p n = s := by
  cases n with
  | zero => rfl
  | succ n =>
    have hroom : (fillFlit ((s.port ch p).txq.length + 1) ⟨(s.port ch p).txq, (s.port ch p).credits, 64, []⟩).room = 64 := by
      rw [h]
      rfl
    rw [Dev.pump]
    exact if_pos (.inr (.inr hroom))

theorem msgGranules_pos (m : FabMsg) : 0 < msgGranules m := by
  cases m <;> simp only [msgGranules] <;> omega

/-- A message that alone is queued, with the credits for it, goes out in one flit. -/
theorem fillFlit_one {credits : List Nat} {st : Option Nat} {m : FabMsg} (hfit : msgGranules m ≤ 64)
    (hcred : msgGranules m ≤ nth 0 credits (msgVc m)) : ∃ e r, r ≠ 64 ∧
      fillFlit 2 ⟨[⟨msgVc m, msgGranules m, st, m⟩], credits, 64, []⟩ = ⟨[], e, r, [⟨msgVc m, msgGranules m, st, m⟩]⟩ := by
  have hpos := msgGranules_pos m
  set x : TxMsg := ⟨msgVc m, msgGranules m, st, m⟩ with hx
  have hmay : decide (0 < nth 0 credits (msgVc m)) = true := decide_eq_true (by omega)
  have hnext : nextTx credits [x] = some x := by
    by_cases hvc : msgVc m = 3
    · simp [nextTx, hx, hvc, hvc ▸ hmay]
    · simp [nextTx, hx, hvc]
      omega
  have hgo : min 64 (min (msgGranules m) (nth 0 credits (msgVc m))) = msgGranules m := by omega
  refine ⟨modifyAt (fun k => k - msgGranules m) (msgVc m) credits, 64 - msgGranules m, by omega, ?_⟩
  rw [fillFlit, hnext]
  simp only [hx, hgo]
  rw [if_neg (by omega), if_pos (Nat.le_refl _), List.erase_cons_head]
  rfl

theorem Dev.port_modPort_same (s : Dev) (ch p : Nat) (f : Port → Port) : (s.modPort ch p f).port ch p = f (s.port ch p) :=
  (((Dev.InChan.refl (fun _ => True) ch s).modPort p f).port p).trans (portIn_withPort_same ..)

/-- An UP port with one message that fits in a flit sends it. -/
theorem Dev.pump_one {s : Dev} {ch p n : Nat} {st : Option Nat} {m : FabMsg} (hup : (s.port ch p).state = 3)
    (hone : (s.port ch p).txq = [⟨msgVc m, msgGranules m, st, m⟩]) (hroom : (s.port ch p).replay.length < 64) (hfit : msgGranules m ≤ 64)
    (hcred : msgGranules m ≤ nth 0 (s.port ch p).credits (msgVc m)) : (s.pump ch p (n + 1)).out = s.out ++ [.fabric ch (some p) m] := by
  obtain ⟨credits, room, hleft, hfill⟩ := fillFlit_one (st := st) hfit hcred
  have hfill' : fillFlit ((s.port ch p).txq.length + 1) ⟨(s.port ch p).txq, (s.port ch p).credits, 64, []⟩ =
      ⟨[], credits, room, [⟨msgVc m, msgGranules m, st, m⟩]⟩ := by
    rw [hone]
    exact hfill
  rw [Dev.pump]
  simp only [hfill']
  rw [if_neg (not_or.2 ⟨not_not.2 hup, not_or.2 ⟨not_le.2 hroom, hleft⟩⟩)]
  generalize hq : (fun x : Port => _) = f
  set t := (s.modPort ch p f).portBump ch p Off.EVF_TXFLIT 1
  have hidle : (t.emit (.fabric ch (some p) m)).port ch p = f (s.port ch p) := by
    simp only [Dev.port, Dev.fab, Dev.chan, Dev.emit_chans, t, Dev.portBump, Dev.bump_chans]
    exact Dev.port_modPort_same ..
  rw [List.foldl_cons, List.foldl_nil, Dev.pump_empty (by rw [hidle, ← hq])]
  exact congrArg (· ++ [Out.fabric ch (some p) m]) (Dev.bump_out ..)

/-- A message that an UP port with nothing queued takes goes out at once. -/
theorem Dev.queueMsg_out {s : Dev} {ch p : Nat} (hup : (s.port ch p).state = 3) (hidle : (s.port ch p).txq = [])
    (hroom : (s.port ch p).replay.length < 64) (st : Option Nat) {m : FabMsg} (hfit : msgGranules m ≤ 64)
    (hcred : msgGranules m ≤ nth 0 (s.port ch p).credits (msgVc m)) : (s.queueMsg ch p st m).out = s.out ++ [.fabric ch (some p) m] := by
  have hport := s.port_modPort_same ch p fun y => { y with txq := y.txq ++ [⟨msgVc m, msgGranules m, st, m⟩] }
  rw [hidle, List.nil_append] at hport
  exact Dev.pump_one (st := st) (by rw [hport]; exact hup) (by rw [hport]) (by rw [hport]; exact hroom) hfit (by rw [hport]; exact hcred)

/-! ### What sending changes (R351 to R355) -/

/-- A stream of a fabric. -/
def streamIn (f : Fab) (k : Nat) : Stream := f.streams.get Stream.fresh k

/-- A fabric with one stream changed. -/
def withStream (f : Fab) (k : Nat) (x : Stream) : Fab := { f with streams := f.streams.set Stream.fresh k x }

@[simp] theorem streamIn_withStream_same (f : Fab) (k : Nat) (x : Stream) : streamIn (withStream f k x) k = x := Store.get_set_same Stream.fresh ..
theorem streamIn_withStream_other (f : Fab) {k j : Nat} (h : j ≠ k) (x : Stream) : streamIn (withStream f k x) j = streamIn f j :=
  Store.get_set_other Stream.fresh h ..

/-- From `f` to `g` a message has been sent: ports, and the stream that it is on, may have changed. -/
structure Sent (st : Option Nat) (f g : Fab) : Prop where
  shape : ∃ ports streams, g = { f with ports := ports, streams := streams }
  streams : ∀ k, some k ≠ st → streamIn g k = streamIn f k

namespace Sent
variable {st : Option Nat} {p : Nat} {f g k : Fab}

theorem refl (st : Option Nat) (f : Fab) : Sent st f f := ⟨⟨_, _, rfl⟩, fun _ _ => rfl⟩

theorem trans (h : Sent st f g) (h' : Sent st g k) : Sent st f k where
  shape := by
    obtain ⟨_, _, rfl⟩ := h.shape
    obtain ⟨_, _, rfl⟩ := h'.shape
    exact ⟨_, _, rfl⟩
  streams j hj := (h'.streams j hj).trans (h.streams j hj)

theorem of_pumped (h : Pumped p f g) (st : Option Nat) : Sent st f g := by
  obtain ⟨ports, rfl⟩ := h.shape
  exact ⟨⟨_, _, rfl⟩, fun _ _ => rfl⟩

theorem withStream (f : Fab) (j : Nat) (x : Stream) : Sent (some j) f (Machine.withStream f j x) :=
  ⟨⟨_, _, rfl⟩, fun _ hi => streamIn_withStream_other f (fun e => hi (congrArg some e)) x⟩

variable (h : Sent st f g)
include h

theorem reads : g.reads = f.reads := by
  obtain ⟨_, _, rfl⟩ := h.shape
  rfl

theorem colls : g.colls = f.colls := by
  obtain ⟨_, _, rfl⟩ := h.shape
  rfl

theorem arrived : g.arrived = f.arrived := by
  obtain ⟨_, _, rfl⟩ := h.shape
  rfl

end Sent

/-- The ports that a message takes by its route are UP ports of the channel (R355). -/
theorem Dev.choosePort_up {s : Dev} {ch mask vc p : Nat} (h : s.choosePort ch mask vc = some p) : p < 8 ∧ (s.port ch p).state = 3 := by
  have hup (q : Nat) (hq : q ∈ (List.range 8).filter fun p => mask.testBit p && decide ((s.port ch p).state = 3)) :
      q < 8 ∧ (s.port ch q).state = 3 := by
    obtain ⟨hlt, hq⟩ := List.mem_filter.1 hq
    exact ⟨List.mem_range.1 hlt, of_decide_eq_true (Bool.and_eq_true_iff.1 hq).2⟩
  have hbest (cred : Nat → Nat) (qs : List Nat) (hqs : ∀ q ∈ qs, q < 8 ∧ (s.port ch q).state = 3) (b : Option Nat)
      (hb : ∀ q, b = some q → q < 8 ∧ (s.port ch q).state = 3) (q : Nat) (hq : qs.foldl (fun (b : Option Nat) p => match b with
        | none => some p | some q => if cred p > cred q then some p else some q) b = some q) : q < 8 ∧ (s.port ch q).state = 3 := by
    induction qs generalizing b with
    | nil => exact hb q hq
    | cons x xs ih =>
      refine ih (fun q hq => hqs q (.tail _ hq)) _ (fun r hr => ?_) hq
      cases b with
      | none => exact Option.some.inj hr ▸ hqs x (.head _)
      | some y =>
        simp only at hr
        split at hr
        · exact Option.some.inj hr ▸ hqs x (.head _)
        · exact hb r hr
  unfold Dev.choosePort at h
  dsimp only at h
  split at h
  · exact hbest _ _ hup none (by simp) p h
  · exact hup p (List.mem_of_mem_head? h)

/-- The registers that count what a channel's ports send. -/
def txReg (ch a : Nat) : Prop := ∃ p, p < 8 ∧ (a = pageOff .evfCh ch 0 (Off.EVF_TXFLIT + p * 0x40) ∨ a = pageOff .evfCh ch 0 (Off.EVF_TXFLIT + p * 0x40 + 4))

section
variable {R : Nat → Prop} {ch : Nat} {c : Chan} {s t : Dev}

theorem Dev.InChan.modStream (h : Dev.InChan R ch c s t) (k : Nat) (f : Stream → Stream) :
    Dev.InChan R ch (withFab c (withStream c.fab k (f (streamIn c.fab k)))) s (t.modStream ch k f) := h.modFab fun x => withStream x k (f (streamIn x k))

theorem Dev.InChan.stream (h : Dev.InChan R ch c s t) (k : Nat) : t.stream ch k = streamIn c.fab k := congrArg (streamIn · k) h.fab

/-- A message that no stream orders leaves on an UP port. -/
theorem Dev.InChan.send (h : Dev.InChan R ch c s t) (hR : ∀ a, txReg ch a → R a) (node dch : Nat) (m : FabMsg) :
    ∃ g, Sent none c.fab g ∧ Dev.InChan R ch (withFab c g) s (t.send ch node dch m) := by
  unfold Dev.send Dev.sendTo
  split
  · exact ⟨c.fab, .refl _ _, h⟩
  · dsimp only
    cases hp : t.choosePort ch ((t.routeMask ch node dch).getD 0) (msgVc m) with
    | none => exact ⟨c.fab, .refl _ _, h⟩
    | some p =>
      obtain ⟨hlt, -⟩ := Dev.choosePort_up hp
      obtain ⟨g, hg, hsent⟩ := h.queueMsg (hR _ ⟨p, hlt, .inl rfl⟩) (hR _ ⟨p, hlt, .inr rfl⟩) none m
      exact ⟨g, .of_pumped hg none, hsent⟩

/-- A link-maintenance message on one port. -/
theorem Dev.InChan.sendOn (h : Dev.InChan R ch c s t) (hR : ∀ a, txReg ch a → R a) {p : Nat} (hp : p < 8) (m : FabMsg) :
    ∃ g, Pumped p c.fab g ∧ Dev.InChan R ch (withFab c g) s (t.sendOn ch p m) := by
  unfold Dev.sendOn
  split
  · exact h.queueMsg (hR _ ⟨p, hp, .inl rfl⟩) (hR _ ⟨p, hp, .inr rfl⟩) none m
  · exact ⟨c.fab, .refl _ _, h⟩

/-- A message of a stream leaves on the stream's port, or on one of its route that becomes the stream's. -/
theorem Dev.InChan.sendTo (h : Dev.InChan R ch c s t) (hR : ∀ a, R a) {node dch k : Nat} {m : FabMsg} {u : Dev}
    (hu : t.sendTo ch node dch (some k) m = some u) : ∃ g, Sent (some k) c.fab g ∧ Dev.InChan R ch (withFab c g) s u := by
  unfold Dev.sendTo at hu
  split at hu
  · cases hu
  · dsimp only at hu
    split at hu
    · cases hu
    · next p hp =>
      have hpin := h.modStream k fun x => { x with port := some p }
      obtain ⟨g, hg, hsent⟩ := hpin.queueMsg (hR _) (hR _) (some k) m
      exact ⟨g, (Sent.withStream c.fab k _).trans (.of_pumped hg _), Option.some.inj hu ▸ hsent⟩

theorem Dev.InChan.sendToD (h : Dev.InChan R ch c s t) (hR : ∀ a, R a) (node dch k : Nat) (m : FabMsg) :
    ∃ g, Sent (some k) c.fab g ∧ Dev.InChan R ch (withFab c g) s ((t.sendTo ch node dch (some k) m).getD t) := by
  cases hu : t.sendTo ch node dch (some k) m with
  | none => exact ⟨c.fab, .refl _ _, h⟩
  | some u => exact h.sendTo hR hu

theorem Dev.InChan.sendStream (h : Dev.InChan R ch c s t) (hR : ∀ a, R a) {node dch k : Nat} {m : FabMsg} {u : Dev}
    (hu : t.sendStream ch node dch k m = some u) : ∃ g, Sent (some k) c.fab g ∧ Dev.InChan R ch (withFab c g) s u := by
  unfold Dev.sendStream at hu
  split at hu
  · exact ⟨_, .withStream c.fab k _, Option.some.inj hu ▸ h.modStream k _⟩
  · obtain ⟨v, hv, rfl⟩ := Option.map_eq_some_iff.1 hu
    obtain ⟨g, hg, hsent⟩ := h.sendTo hR hv
    exact ⟨_, hg.trans (.withStream g k _), hsent.modStream k _⟩

theorem Dev.InChan.sendStreamD (h : Dev.InChan R ch c s t) (hR : ∀ a, R a) (node dch k : Nat) (m : FabMsg) :
    ∃ g, Sent (some k) c.fab g ∧ Dev.InChan R ch (withFab c g) s ((t.sendStream ch node dch k m).getD t) := by
  cases hu : t.sendStream ch node dch k m with
  | none => exact ⟨c.fab, .refl _ _, h⟩
  | some u => exact h.sendStream hR hu

end

end Sys2Proof.Machine
end

section
/-! Signals of engines and of other nodes (O53). -/

namespace Sys2Proof.Machine
open Sys2Proof

/-! ### What a stream's port sends -/

/-- A message of a stream that has an UP port leaves there (R352). -/
theorem Dev.sendTo_pinned {s : Dev} {ch k p : Nat} {m : FabMsg} (hon : s.fabOn ch = true) (hflt : s.fltState ch = 0)
    (hport : (s.stream ch k).port = some p) (hup : (s.port ch p).state = 3) (node dch : Nat) :
    s.sendTo ch node dch (some k) m = some ((s.modStream ch k fun x => { x with port := some p }).queueMsg ch p (some k) m) := by
  have hclosed : (!s.fabOn ch || (s.fltState ch ≠ 0 && !maintenance m)) = false := by simp [hon, hflt]
  unfold Dev.sendTo
  rw [if_neg (by rw [hclosed]; decide)]
  simp only [hport, Option.filter_some, hup, decide_true, if_true, Option.some_or]

/-- On a port that has nothing to send it goes out at once. -/
theorem Dev.sendTo_out {s u : Dev} {ch k p node dch : Nat} {m : FabMsg} (hon : s.fabOn ch = true) (hflt : s.fltState ch = 0)
    (hpin : (s.stream ch k).port = some p) (hport : s.port ch p = { Port.fresh with state := 3 }) (hfit : msgGranules m ≤ 64)
    (hcred : msgGranules m ≤ nth 0 Port.fresh.credits (msgVc m)) (hu : s.sendTo ch node dch (some k) m = some u) :
    u.out = s.out ++ [.fabric ch (some p) m] := by
  set t := s.modStream ch k fun x => { x with port := some p }
  have hport' : t.port ch p = { Port.fresh with state := 3 } :=
    ((Dev.InChan.refl (fun _ => True) ch s).modStream k fun x => { x with port := some p }).port p |>.trans hport
  rw [Dev.sendTo_pinned hon hflt hpin (by rw [hport]) node dch] at hu
  rw [← Option.some.inj hu, Dev.queueMsg_out (by rw [hport']) (by rw [hport']; rfl) (by rw [hport']; decide) _ hfit (by rw [hport']; exact hcred)]
  rfl

theorem pageOff_mod (k : PageKind) (d i : Nat) {o : Nat} (h : o < 0x1000) : pageOff k d i o % 0x1000 = o := Page.base_add_mod _ h

/-- What counts the flits that a channel sends stands behind 0x200 of its page. -/
theorem txReg_offset {ch d i o : Nat} {k : PageKind} (ho : o < 0x1000) (h : txReg ch (pageOff k d i o)) : 0x100 ≤ o := by
  obtain ⟨p, hp, h | h⟩ := h
  all_goals
    have hmod : _ % 0x1000 = _ % 0x1000 := congrArg (· % 0x1000) h
    rw [pageOff_mod _ _ _ ho, pageOff_mod _ _ _ (by simp only [Off.EVF_TXFLIT]; omega)] at hmod
    simp only [Off.EVF_TXFLIT] at hmod
    omega

/-! ### The frame of a signal -/

/-- Nothing but an object, the signals that wait, registers and what the fabric sends has changed. -/
def SigFrame (s : State) (ch o : Nat) (t : State) : Prop := SameBytes s t ∧ t.m.rqt = s.m.rqt ∧ t.m.seqs = s.m.seqs ∧ t.m.tiles = s.m.tiles ∧
  (∀ k, k ≠ o → t.m.obj ch k = s.m.obj ch k) ∧ (t.m.sync ch).maps = (s.m.sync ch).maps

section
variable {s : State} {ch o : Nat} {c : Chan} {m : Dev}

theorem sigFrame_of (h : Dev.InChan anyReg ch c s.m m) (hothers : ∀ k, k ≠ o → objIn c.sync k = s.m.obj ch k)
    (hmaps : c.sync.maps = (s.m.sync ch).maps) : SigFrame s ch o { s with m := m } :=
  ⟨h.byte, h.rqt, h.seqs, h.tiles, fun k hk => (h.obj k).trans (hothers k hk), (congrArg Sync.maps h.sync).trans hmaps⟩

end

/-! ### Operations of engines (R322, R326, R332) -/

/-- A blocked signal is counted and raises SYN_TENANT (R332). -/
theorem Dev.InChan.blockSig {ch : Nat} {c : Chan} {s t : Dev} (h : Dev.InChan anyReg ch c s t) (hrec : t.Records ch 66) (ctx node dst : Nat) :
    Dev.InChan anyReg ch c s (t.blockSig ch ctx node dst) ∧ bit ((t.blockSig ch ctx node dst).rd .synCh ch 0 Off.PG_FLT) 5 = true := by
  have hcount := (h.syBump (fun _ _ => trivial) (o := Off.SYN_TENANT) (by decide) 1).bump (k := .synCx) (d := ch) (i := dst) (o := Off.SYN_CX_TENANT)
    trivial trivial 1
  have hrec' := (hrec.bump .synCh ch 0 (o := Off.SYN_TENANT) (by decide) (by decide) 1).bump .synCx ch dst (o := Off.SYN_CX_TENANT) (by decide) (by decide) 1
  obtain ⟨-, hflt, -⟩ := Dev.raiseAt_recorded hrec' (by decide) (by decide) (by decide) false [ctx, node % 256, node / 256]
  exact ⟨hcount.raiseAt hrec' (by decide) (by decide) (fun _ _ => trivial) false _, hflt⟩

section
variable {s : State} {ch : ChId} {o : Fin 65536} {ctx : CtxId} (hs : s.m.Settled) (halive : s.m.alive ch.val = true)

theorem exec_engineOp (halive : s.m.alive ch.val = true) (op : SyncOp) :
    exec (.engineSignal ch o ctx op) s = s.done (s.m.engineOp ch.val o.val ctx.val op) :=
  exec_only (f := fun m => m.engineOp ch.val o.val ctx.val op) rfl halive

include hs halive

/-- A signal or consume of the object's context that COUNT takes. -/
theorem answers_engineCounts {op : SyncOp} {consume : Bool} {value n : Nat} (hop : s.m.engineOp ch.val o.val ctx.val op =
      (s.m.applySig ch.val o.val consume value).1) (harmed : (s.m.obj ch.val o.val).state = 1)
    (hlow : consume = true → value ≤ (s.m.obj ch.val o.val).count) (hhigh : consume = false → (s.m.obj ch.val o.val).count + value ≤ (s.m.obj ch.val o.val).target)
    (hn : (if consume then (s.m.obj ch.val o.val).count - value else (s.m.obj ch.val o.val).count + value) = n) :
    Answers (.engineSignal ch o ctx op) s fun t => SigFrame s ch.val o.val t ∧ t.m.obj ch.val o.val = counted (s.m.obj ch.val o.val) n := by
  obtain ⟨-, y, hcount, hmaps, hothers, hobj⟩ := Dev.applySig_counts (.refl anyReg ch.val s.m) (fun _ _ => trivial) (o := o.val) harmed hlow hhigh
  exact hcount.answers hs ((exec_engineOp halive op).trans (congrArg s.done hop))
    ⟨sigFrame_of hcount hothers hmaps, (hcount.obj o.val).trans (hobj.trans (congrArg (counted _) hn))⟩

theorem answers_engineWait {v who : Nat} (seq : Option SeqRef) (harmed : (s.m.obj ch.val o.val).state = 1) (hflt : s.m.fltState ch.val = 0) :
    Answers (.engineSignal ch o ctx (.wait v who seq)) s fun t => SigFrame s ch.val o.val t ∧ t.m.regs = s.m.regs ∧
      ∃ w : SyWait, t.m.obj ch.val o.val = { s.m.obj ch.val o.val with waits := (s.m.obj ch.val o.val).waits ++ [w] } ∧
        w.who = who ∧ w.threshold = v ∧ w.seq = seq ∧ w.met = decide (v ≤ (s.m.obj ch.val o.val).count) := by
  set w : SyWait := ⟨who, v, seq, false, (s.m.chan ch.val).plank + max 1 (s.m.inForce .synCh ch.val 0 Off.SYN_WAITMAX 23 0)⟩
  set f : SyObj → SyObj := fun y => { y with waits := y.waits ++ [{ w with met := decide (y.state = 1 ∧ v ≤ y.count) }] }
  have hop : s.m.engineOp ch.val o.val ctx.val (.wait v who seq) = s.m.modObj ch.val o.val f := by
    refine (if_neg (not_not.2 hflt)).trans (if_neg ?_)
    rw [harmed]
    decide
  have hwait := (Dev.InChan.refl anyReg ch.val s.m).modObj o.val f
  refine hwait.answers hs ((exec_engineOp halive _).trans (congrArg s.done hop)) ⟨sigFrame_of hwait (fun k hk => objIn_withObj_other _ hk _) rfl, rfl, _,
    (hwait.obj o.val).trans (objIn_withObj_same ..), rfl, rfl, rfl, ?_⟩
  exact decide_eq_decide.2 ⟨And.right, fun h => ⟨harmed, h⟩⟩

theorem answers_engineArm {v : Nat} (hctx : (s.m.obj ch.val o.val).ctx = ctx.val) (hv : v < 2 ^ 24) :
    Answers (.engineSignal ch o ctx (.arm v)) s fun t => SigFrame s ch.val o.val t ∧ t.m.regs = s.m.regs ∧ t.m.obj ch.val o.val =
      { s.m.obj ch.val o.val with
        state := 1, count := 0, target := max 1 v, code := 0, waits := (s.m.obj ch.val o.val).waits.filter fun w => !w.met } := by
  have hop : s.m.engineOp ch.val o.val ctx.val (.arm v) = s.m.armObj ch.val o.val v ctx.val := if_pos (.inr hctx)
  have hregs : (s.m.armObj ch.val o.val v ctx.val).regs = s.m.regs := by
    unfold Dev.armObj
    dsimp only
    split <;> rfl
  obtain ⟨y, harmed, hmaps, hothers, hobj⟩ := (Dev.InChan.refl anyReg ch.val s.m).armObj o.val v ctx.val
  refine harmed.answers hs ((exec_engineOp halive _).trans (congrArg s.done hop)) ⟨sigFrame_of harmed hothers hmaps, hregs, ?_⟩
  refine (harmed.obj o.val).trans (hobj.trans ?_)
  rw [Nat.mod_eq_of_lt (by omega), ← hctx]
  rfl

theorem answers_engineBlocked {v : Nat} (hused : (s.m.obj ch.val o.val).state ≠ 0) (hctx : (s.m.obj ch.val o.val).ctx ≠ ctx.val)
    (hrec : s.m.Records ch.val 66) : Answers (.engineSignal ch o ctx (.signal v)) s fun t => SigFrame s ch.val o.val t ∧
      t.m.obj ch.val o.val = s.m.obj ch.val o.val ∧ bit (t.m.rd .synCh ch.val 0 Off.PG_FLT) 5 = true := by
  obtain ⟨hblock, hflt⟩ := (Dev.InChan.refl anyReg ch.val s.m).blockSig hrec ctx.val (s.m.node.getD 0) (s.m.obj ch.val o.val).ctx
  exact hblock.answers hs ((exec_engineOp halive _).trans (congrArg s.done (if_pos ⟨hused, hctx⟩)))
    ⟨sigFrame_of hblock (fun _ _ => rfl) rfl, hblock.obj o.val, hflt⟩

/-! ### Timeouts (R327, R336) -/

theorem answers_waitTimeout {who : Nat} {w : SyWait} (hw : (s.m.obj ch.val o.val).waits.find? (fun w => w.who = who && !w.met) = some w)
    (hold : w.until_ ≤ (s.m.chan ch.val).plank) (hseq : w.seq = none) (hcoll : s.m.collOf ch.val o.val = none) :
    Answers (.syncWaitTimeout ch o who) s fun t => SigFrame s ch.val o.val t ∧
      t.m.obj ch.val o.val = { s.m.obj ch.val o.val with waits := (s.m.obj ch.val o.val).waits.erase w } := by
  set f : SyObj → SyObj := fun x => { x with waits := x.waits.erase w }
  have hended := ((Dev.InChan.refl anyReg ch.val s.m).modObj o.val f).syBump (fun _ _ => trivial) (o := Off.SYN_WAITTO) (by decide) 1
  set t := (s.m.modObj ch.val o.val f).syBump ch.val Off.SYN_WAITTO 1 
  have hfail : t.failWait Code.TIMEOUT w = t := by rw [Dev.failWait, hseq]
  have hmap (d n k : Nat) : t.mapOf d n k = s.m.mapOf d n k := by
    by_cases hd : d = ch.val
    · subst hd
      exact hended.mapOf n k
    · rw [Dev.mapOf, Dev.sync, hended.others d hd, ← Dev.sync, ← Dev.mapOf]
  have hop : s.m.waitTimeout ch.val o.val who = t := by
    rw [Dev.waitTimeout, hw]
    refine (if_neg (Nat.not_lt.2 hold)).trans ?_
    change (match (t.failWait Code.TIMEOUT w).collOf ch.val o.val with
      | some c => ((t.failWait Code.TIMEOUT w).dropColl ch.val c.o).evfBump ch.val Off.EVF_COLLFAIL 1
      | none => t.failWait Code.TIMEOUT w) = t
    rw [hfail, (Dev.collOf_congr hended.fab hmap o.val).trans hcoll]
  exact hended.answers hs ((exec_only (f := fun m => m.waitTimeout ch.val o.val who) rfl halive).trans (congrArg s.done hop))
    ⟨sigFrame_of hended (fun k hk => objIn_withObj_other _ hk _) rfl, (hended.obj o.val).trans (objIn_withObj_same ..)⟩

theorem answers_holdTimeout (hheld : s.m.heldFor ch.val o.val ≠ 0) (hwaits : (s.m.obj ch.val o.val).waits = []) (hrec : s.m.Records ch.val 65) :
    Answers (.signalHoldTimeout ch o) s fun t => SigFrame s ch.val o.val t ∧
      t.m.obj ch.val o.val = { s.m.obj ch.val o.val with state := 2, code := Code.LINK } ∧ t.m.heldFor ch.val o.val = 0 ∧
      bit (t.m.rd .synCh ch.val 0 Off.PG_FLT) 4 = true := by
  have hdrop := ((Dev.InChan.refl anyReg ch.val s.m).modSync (dropHeld o.val)).syBump (fun _ _ => trivial) (o := Off.SYN_HOLDTO) (by decide) 1
  have hbreak := hdrop.breakObj (fun _ _ => trivial) (fun _ _ _ => trivial) hwaits Code.LINK
  set t := (s.m.modSync ch.val (dropHeld o.val)).syBump ch.val Off.SYN_HOLDTO 1
  have hwaits' : (t.obj ch.val o.val).waits = [] := (congrArg SyObj.waits (hdrop.obj o.val)).trans hwaits
  have hrec' : (t.breakObj ch.val o.val Code.LINK).Records ch.val 65 :=
    Dev.Records.of_page (Dev.Records.bump (hrec.modChan ch.val _) .synCh ch.val 0 (o := Off.SYN_HOLDTO) (by decide) (by decide) 1)
      fun r hr => Dev.breakObj_rd hwaits' _ hr
  obtain ⟨-, hflt, -⟩ := Dev.raiseAt_recorded hrec' (by decide) (by decide) (by decide) false []
  have hraise := hbreak.raiseAt hrec' (by decide) (by decide) (fun _ _ => trivial) false []
  have hop : s.m.holdTimeout ch.val o.val = (t.breakObj ch.val o.val Code.LINK).raise ch.val 65 := if_neg hheld
  refine hraise.answers hs ((exec_only (f := fun m => m.holdTimeout ch.val o.val) rfl halive).trans (congrArg s.done hop))
    ⟨sigFrame_of hraise (fun k hk => objIn_withObj_other _ hk _) rfl, (hraise.obj o.val).trans (objIn_withObj_same ..), ?_, hflt⟩
  have hnone : ((dropHeld o.val (s.m.sync ch.val)).held.filter fun h => h.obj = o.val) = [] :=
    List.filter_eq_nil_iff.2 fun x hx => by simpa [dropHeld] using fun h => absurd h (by simpa [dropHeld] using (List.mem_filter.1 hx).2)
  exact congrArg List.length ((congrArg (fun y : Sync => y.held.filter fun h => h.obj = o.val) hraise.sync).trans hnone)

end

/-! ### Remote signals (R333, R335) -/

section
variable {s : State} {g : RemoteSignal} {p : PortIx} {node : Fin 32768} (hs : s.m.Settled) (hon : s.m.fabOn g.dstCh.val = true)
  (hnode : s.m.node = some node.val) (hflt : s.m.fltState g.dstCh.val = 0) (hctl : s.m.inForce .synCh g.dstCh.val 0 Off.SYN_CTL 0 0 = 1)
include hs hon hnode hflt hctl

/-- What an admitted signal does once it is counted. -/
theorem exec_remoteAdmitted {m : SyMap} {t : Dev} {done : Bool} (hmap : s.m.mapOf g.dstCh.val g.dstCtx.val g.vid.val = some m) (hpeer : peerOk m g = true)
    (htry : (s.m.syBump g.dstCh.val Off.SYN_RSIG 1).trySig g.dstCh.val m.obj g = (t, done)) :
    exec (.remoteSignalArrive ⟨g.dstCh, p, node, g⟩) s = s.done (if done then t
      else if (t.sync g.dstCh.val).held.length ≥ 1024 ∨ t.heldFor g.dstCh.val m.obj ≥ 8 then
        (t.syBump g.dstCh.val Off.SYN_NOROOM 1).send g.dstCh.val g.srcNode.val g.srcCh.val
          (.reply g.srcNode.val g.srcCh.val g.stream g.mark Code.NOSPACE)
      else t.holdSig g.dstCh.val m.obj g) := by
  have _ := hs
  have hmap' : (s.m.syBump g.dstCh.val Off.SYN_RSIG 1).mapOf g.dstCh.val g.dstCtx.val g.vid.val = some m :=
    (((Dev.InChan.refl anyReg g.dstCh.val s.m).syBump (fun _ _ => trivial) (o := Off.SYN_RSIG) (by decide) 1).mapOf _ _).trans hmap
  refine (exec_remoteSignal hon hnode rfl).trans (congrArg s.done ?_)
  rw [Dev.signalIn_eq, Dev.takeSignal_admitted ((Dev.syBump_fltState s.m (by decide) (by decide) (by decide) ..).trans hflt)
    ((Dev.bump_get_inForce ..).trans hctl) hmap' hpeer htry]

theorem answers_remoteCounts {m : SyMap} (hmap : s.m.mapOf g.dstCh.val g.dstCtx.val g.vid.val = some m) (hpeer : peerOk m g = true)
    (harmed : (s.m.obj g.dstCh.val m.obj).state = 1) (hcoll : s.m.collOf g.dstCh.val m.obj = none) (hcov : s.m.covered g.dstCh.val g = true)
    (hup : g.consume = false) (hhigh : (s.m.obj g.dstCh.val m.obj).count + g.value ≤ (s.m.obj g.dstCh.val m.obj).target) :
    Answers (.remoteSignalArrive ⟨g.dstCh, p, node, g⟩) s fun t => SigFrame s g.dstCh.val m.obj t ∧
      t.m.obj g.dstCh.val m.obj = counted (s.m.obj g.dstCh.val m.obj) ((s.m.obj g.dstCh.val m.obj).count + g.value) := by
  have hseen := (Dev.InChan.refl anyReg g.dstCh.val s.m).syBump (fun _ _ => trivial) (o := Off.SYN_RSIG) (by decide) 1
  have hcov' : (s.m.syBump g.dstCh.val Off.SYN_RSIG 1).covered g.dstCh.val g = true := by
    rw [Dev.covered, hseen.fab]
    exact hcov
  have hcoll' : (s.m.syBump g.dstCh.val Off.SYN_RSIG 1).collOf g.dstCh.val m.obj = none :=
    (Dev.collOf_congr hseen.fab (fun d n w => by rw [Dev.mapOf, Dev.sync, Dev.syBump, Dev.bump_get_chan, ← Dev.sync, ← Dev.mapOf]) _).trans hcoll
  obtain ⟨-, y, hcount, hmaps, hothers, hobj⟩ := Dev.applySig_counts hseen (fun _ _ => trivial) (o := m.obj) (consume := g.consume) (value := g.value) harmed
    (fun h => absurd (hup.symm.trans h) (by decide)) (fun _ => hhigh)
  refine hcount.answers hs ((exec_remoteAdmitted hs hon hnode hflt hctl hmap hpeer (Dev.trySig_covered hcov' hcoll')).trans (congrArg s.done (if_pos rfl)))
    ⟨sigFrame_of hcount hothers hmaps, (hcount.obj _).trans (hobj.trans (congrArg (counted _) ?_))⟩
  rw [hup]
  rfl

/-- A sync unit that holds one more signal. -/
def holdOne (y : Sync) (g : RemoteSignal) (o : Nat) : Sync := { y with nextHeld := y.nextHeld + 1, held := y.held ++ [⟨g, o, y.nextHeld⟩] }

theorem answers_remoteHeld {m : SyMap} (hmap : s.m.mapOf g.dstCh.val g.dstCtx.val g.vid.val = some m) (hpeer : peerOk m g = true)
    (hcov : s.m.covered g.dstCh.val g = false) (hroom : (s.m.sync g.dstCh.val).held.length < 1024) (hfor : s.m.heldFor g.dstCh.val m.obj < 8) :
    Answers (.remoteSignalArrive ⟨g.dstCh, p, node, g⟩) s fun t => SigFrame s g.dstCh.val m.obj t ∧
      t.m.obj g.dstCh.val m.obj = s.m.obj g.dstCh.val m.obj ∧
      (t.m.sync g.dstCh.val).held = (s.m.sync g.dstCh.val).held ++ [⟨g, m.obj, (s.m.sync g.dstCh.val).nextHeld⟩] := by
  have hseen := (Dev.InChan.refl anyReg g.dstCh.val s.m).syBump (fun _ _ => trivial) (o := Off.SYN_RSIG) (by decide) 1
  set u := s.m.syBump g.dstCh.val Off.SYN_RSIG 1
  have hcov' : u.covered g.dstCh.val g = false := by
    rw [Dev.covered, hseen.fab]
    exact hcov
  have hfull : ¬ ((u.sync g.dstCh.val).held.length ≥ 1024 ∨ u.heldFor g.dstCh.val m.obj ≥ 8) := by
    rw [Dev.heldFor, hseen.sync]
    exact not_or.2 ⟨Nat.not_le.2 hroom, Nat.not_le.2 hfor⟩
  have hheld := (hseen.modSync fun y => holdOne y g m.obj).syBump (fun _ _ => trivial) (o := Off.SYN_HELDN) (by decide) 1
  exact hheld.answers hs ((exec_remoteAdmitted hs hon hnode hflt hctl hmap hpeer (Dev.trySig_early hcov')).trans
    (congrArg s.done ((if_neg (by decide)).trans (if_neg hfull)))) ⟨sigFrame_of hheld (fun _ _ => rfl) rfl, hheld.obj _, congrArg Sync.held hheld.sync⟩

theorem answers_remoteBlocked (o : Nat) (hmap : s.m.mapOf g.dstCh.val g.dstCtx.val g.vid.val = none) (hrec : s.m.Records g.dstCh.val 66) :
    Answers (.remoteSignalArrive ⟨g.dstCh, p, node, g⟩) s fun t => SigFrame s g.dstCh.val o t ∧
      t.m.obj g.dstCh.val o = s.m.obj g.dstCh.val o ∧ bit (t.m.rd .synCh g.dstCh.val 0 Off.PG_FLT) 5 = true := by
  have hseen := (Dev.InChan.refl anyReg g.dstCh.val s.m).syBump (fun _ _ => trivial) (o := Off.SYN_RSIG) (by decide) 1
  have hmap' : (s.m.syBump g.dstCh.val Off.SYN_RSIG 1).mapOf g.dstCh.val g.dstCtx.val g.vid.val = none := (hseen.mapOf _ _).trans hmap
  have hrec' := hrec.bump .synCh g.dstCh.val 0 (o := Off.SYN_RSIG) (by decide) (by decide) 1
  obtain ⟨hblock, hbit⟩ := hseen.blockSig hrec' g.srcCtx.val g.srcNode.val g.dstCtx.val
  set v := (s.m.syBump g.dstCh.val Off.SYN_RSIG 1).blockSig g.dstCh.val g.srcCtx.val g.srcNode.val g.dstCtx.val
  set reply : FabMsg := .reply g.srcNode.val g.srcCh.val g.stream g.mark Code.TENANT
  obtain ⟨f, -, hsent⟩ := hblock.send (fun _ _ => trivial) g.srcNode.val g.srcCh.val reply
  obtain ⟨_, -, hkept⟩ := (Dev.InChan.refl (txReg g.dstCh.val) g.dstCh.val v).send (fun _ h => h) g.srcNode.val g.srcCh.val reply
  have hop : s.m.signalIn g = v.send g.dstCh.val g.srcNode.val g.srcCh.val reply := by
    rw [Dev.signalIn_eq, Dev.takeSignal_blocked ((Dev.syBump_fltState s.m (by decide) (by decide) (by decide) ..).trans hflt)
      ((Dev.bump_get_inForce ..).trans hctl) hmap']
  refine hsent.answers hs ((exec_remoteSignal hon hnode rfl).trans (congrArg s.done hop)) ⟨sigFrame_of hsent (fun _ _ => rfl) rfl, hsent.obj o, ?_⟩
  rw [Dev.rd, hkept.reg _ fun h => absurd (txReg_offset (by decide) h) (by decide), ← Dev.rd]
  exact hbit

end

/-! ### Refused signals (R335) -/

section
variable {s : State} {ch : ChId} {y : SentSig} (hs : s.m.Settled) (hon : s.m.fabOn ch.val = true) (href : y.refused = true)
  (hsent : (s.m.sync ch.val).sent = [y]) (o : Nat)
include hs hon href hsent

/-- A sync unit with other signals underway. -/
def withSent (y : Sync) (l : List SentSig) : Sync := { y with sent := l }

theorem answers_resendOld (hold : y.since + s.m.holdNs ch.val ≤ (s.m.chan ch.val).time) (hseq : y.seq = none) :
    Answers (.signalResendTimer ch y.id) s fun t => SigFrame s ch.val o t ∧ t.m.obj ch.val o = s.m.obj ch.val o ∧
      (t.m.sync ch.val).sent = [] ∧ t.m.out = s.m.out := by
  have hfind : (s.m.sync ch.val).sent.find? (fun x => x.id = y.id && x.refused) = some y := by simp [hsent, href]
  have hended := (Dev.InChan.refl anyReg ch.val s.m).modSync fun x => withSent x (x.sent.filter fun z => decide (z.id ≠ y.id))
  have hop : s.m.resendSig ch.val y.id = s.m.modSync ch.val fun x => withSent x (x.sent.filter fun z => decide (z.id ≠ y.id)) := by
    rw [Dev.resendSig, hfind]
    refine (if_pos hold).trans ?_
    simp only [hseq]
    rfl
  have hnone : ((s.m.chan ch.val).sync.sent.filter fun z => decide (z.id ≠ y.id)) = [] := by
    rw [← Dev.sync, hsent]
    simp
  exact hended.answers hs ((exec_only (f := fun m => m.resendSig ch.val y.id) rfl hon).trans (congrArg s.done hop))
    ⟨sigFrame_of hended (fun _ _ => rfl) rfl, hended.obj o, (congrArg Sync.sent hended.sync).trans hnone, rfl⟩

theorem answers_resendAgain {p : Nat} (hyoung : (s.m.chan ch.val).time < y.since + s.m.holdNs ch.val)
    (hheld : (s.m.stream ch.val y.sig.stream).held = false) (hflt : s.m.fltState ch.val = 0) (hpin : (s.m.stream ch.val y.sig.stream).port = some p)
    (hport : s.m.port ch.val p = { Port.fresh with state := 3 }) : Answers (.signalResendTimer ch y.id) s fun t => SigFrame s ch.val o t ∧
      t.m.obj ch.val o = s.m.obj ch.val o ∧ (t.m.sync ch.val).sent = [{ y with refused := false }] ∧
      t.m.out = s.m.out ++ [.fabric ch.val (some p) (.signal y.node y.sig)] := by
  have hfind : (s.m.sync ch.val).sent.find? (fun x => x.id = y.id && x.refused) = some y := by simp [hsent, href]
  set f : Sync → Sync := fun x => withSent x (x.sent.map fun z => if z.id = y.id then { z with refused := false } else z)
  have hretry := (Dev.InChan.refl anyReg ch.val s.m).modSync f
  set t := s.m.modSync ch.val f with ht
  have hpin' : (t.stream ch.val y.sig.stream).port = some p := (congrArg Stream.port (hretry.stream _)).trans hpin
  have hport' : t.port ch.val p = { Port.fresh with state := 3 } := (hretry.port p).trans hport
  have hstream : (t.stream ch.val y.sig.stream).held = false := (congrArg Stream.held (hretry.stream _)).trans hheld
  obtain ⟨u, hu⟩ : ∃ u, t.sendTo ch.val y.node y.sig.dstCh.val (some y.sig.stream) (.signal y.node y.sig) = some u :=
    ⟨_, Dev.sendTo_pinned (s := t) hon hflt hpin' (by rw [hport']) ..⟩
  obtain ⟨g, -, hout⟩ := hretry.sendTo (fun _ => trivial) hu
  have hlast := hout.modStream y.sig.stream fun x => { x with last := some (y.node, y.sig.dstCh.val, .signal y.node y.sig) }
  have hop : s.m.resendSig ch.val y.id = u.modStream ch.val y.sig.stream fun x => { x with last := some (y.node, y.sig.dstCh.val, .signal y.node y.sig) } := by
    rw [Dev.resendSig, hfind]
    refine (if_neg (Nat.not_le.2 hyoung)).trans ?_
    refine (congrArg (Option.getD · t) (show t.sendStream ch.val y.node y.sig.dstCh.val y.sig.stream (.signal y.node y.sig) = some _ from ?_))
    rw [Dev.sendStream, if_neg (by rw [hstream]; decide), hu]
    rfl
  have hsaid : u.out = s.m.out ++ [.fabric ch.val (some p) (.signal y.node y.sig)] :=
    Dev.sendTo_out (s := t) hon hflt hpin' hport' (show 1 ≤ 64 by decide) (show 1 ≤ 128 by decide) hu
  have hone : (f (s.m.chan ch.val).sync).sent = [{ y with refused := false }] := by
    change ((s.m.sync ch.val).sent.map fun z => if z.id = y.id then { z with refused := false } else z) = _
    rw [hsent]
    simp
  exact hlast.answers hs ((exec_only (f := fun m => m.resendSig ch.val y.id) rfl hon).trans (congrArg s.done hop))
    ⟨sigFrame_of hlast (fun _ _ => rfl) rfl, hlast.obj o, (congrArg Sync.sent hlast.sync).trans hone, hsaid⟩

end

/-- Settles O53: by who signals, and by what the object, its mapping and the data that it waits for allow. -/
theorem signalsAreApplied : Obligations.SignalsAreApplied := by
  unfold Obligations.SignalsAreApplied
  intro s ch obj ctx v who hs o x frame cnt
  refine ⟨fun halive => ⟨fun hctx harmed => ?_, fun hctx hv => answers_engineArm hs halive hctx hv, fun hused hctx hrec =>
    answers_engineBlocked hs halive hused hctx hrec, fun w hw hold hseq hcoll => answers_waitTimeout hs halive hw hold hseq hcoll,
    fun hheld hwaits hrec => answers_holdTimeout hs halive hheld hwaits hrec⟩, fun p node g hon hnode hdst hflt hctl => ?_, fun y hon href hsent => ?_⟩
  · have hown : ¬ ((s.m.obj ch.val obj.val).state ≠ 0 ∧ (s.m.obj ch.val obj.val).ctx ≠ ctx.val) := fun h => h.2 hctx
    exact ⟨fun hhigh => answers_engineCounts (consume := false) hs halive (if_neg hown) harmed (fun h => absurd h (by decide)) (fun _ => hhigh) rfl,
      fun hlow => answers_engineCounts (consume := true) hs halive (if_neg hown) harmed (fun _ => hlow) (fun h => absurd h (by decide)) rfl,
      fun seq hflt => answers_engineWait hs halive seq harmed hflt⟩
  · subst hdst
    refine ⟨fun m hmap hobj hpeer harmed hcoll => ?_, fun hmap hrec => answers_remoteBlocked hs hon hnode hflt hctl o hmap hrec⟩
    clear_value o
    obtain rfl : m.obj = o := hobj
    exact ⟨fun hcov hup hhigh => answers_remoteCounts hs hon hnode hflt hctl hmap hpeer harmed hcoll hcov hup hhigh,
      fun hcov hroom hfor => answers_remoteHeld hs hon hnode hflt hctl hmap hpeer hcov hroom hfor⟩
  · exact ⟨fun hold hseq => answers_resendOld hs hon href hsent o hold hseq,
      fun hyoung hheld hflt p hpin hport => answers_resendAgain hs hon href hsent o hyoung hheld hflt hpin hport⟩

end Sys2Proof.Machine
end

section
/-! What ends sequences leaves the channels alone: only the table, the frames and counters change (R203, R234, R391). -/

namespace Sys2Proof.Machine
open Sys2Proof

section
variable (s : Dev) (r : Nat)

@[simp] theorem Dev.setEnt_chans (o n v : Nat) : (s.setEnt r o n v).chans = s.chans := rfl
@[simp] theorem Dev.freeFrames_chans (fs : List Frame) : (s.freeFrames fs).chans = s.chans := ((Dev.Stowed.refl s).freeFrames fs).chans
@[simp] theorem Dev.note_chans (irq : Bool) : (s.note r irq).chans = s.chans := rfl
@[simp] theorem Dev.setStateW_chans (st reason detail why : Nat) : (s.setStateW r st reason detail why).chans = s.chans :=
  s.setEnt_chans ..
@[simp] theorem Dev.setSt_chans (st : Nat) : (s.setSt r st).chans = s.chans := s.setEnt_chans ..

@[simp] theorem Dev.freeBeyond_chans (len : Nat) (count : Bool) : (s.freeBeyond r len count).chans = s.chans := by
  unfold Dev.freeBeyond
  split
  · rfl
  · dsimp only
    split <;> simp

@[simp] theorem Dev.dropStep_chans : (s.dropStep r).chans = s.chans := by
  unfold Dev.dropStep
  split
  · rfl
  · dsimp only
    split <;> simp

@[simp] theorem Dev.abandon_chans : (s.abandon r).chans = s.chans := by
  unfold Dev.abandon Dev.dropMarked Dev.absentAll
  dsimp only
  split <;> simp

@[simp] theorem Dev.abandonHood_chans : (s.abandonHood r).chans = s.chans := by
  unfold Dev.abandonHood
  dsimp only
  split <;> simp

@[simp] theorem Dev.freeAll_chans : (s.freeAll r).chans = s.chans := by
  rw [s.freeAll_emptied r, ((Dev.Stowed.refl _).fitLeaves _).chans, Dev.modSeq_chans, ((Dev.Stowed.refl _).freeDir r).chans, Dev.freeFrames_chans]

@[simp] theorem Dev.putRec_chans (word : Nat) : (s.putRec r word).chans = s.chans := by simp [Dev.putRec]

@[simp] theorem Dev.statusOnly_chans (word why : Nat) : (s.statusOnly r word why).chans = s.chans := by
  unfold Dev.statusOnly
  split <;> simp

@[simp] theorem Dev.finishSeq_chans : (s.finishSeq r).chans = s.chans := by simp [Dev.finishSeq]

@[simp] theorem Dev.abandoned_chans : (s.abandoned r).chans = s.chans := (Dev.modSeq_chans ..).trans (s.abandon_chans r)
@[simp] theorem Dev.turnEnded_chans (why code : Nat) : (s.turnEnded r why code).chans = s.chans := s.abandoned_chans r

@[simp] theorem Dev.marked_chans (ws : Option (List Nat)) : (s.marked r ws).chans = s.chans := by cases ws <;> simp [Dev.marked]

@[simp] theorem Dev.turnMarked_chans (why code : Nat) (onTok : Bool) : (s.turnMarked r why code onTok).chans = s.chans :=
  (Dev.marked_chans ..).trans (s.turnEnded_chans ..)

@[simp] theorem Dev.givenUp_chans (why code : Nat) : (s.givenUp r why code).chans = s.chans := by
  unfold Dev.givenUp
  rw [Dev.freeAll_chans, Dev.setSt_chans, Dev.modSeq_chans, Dev.abandonHood_chans]

@[simp] theorem Dev.lastRecord_chans (why code : Nat) (ws : Option (List Nat)) : (s.lastRecord r why code ws).chans = s.chans := by
  cases ws <;> simp [Dev.lastRecord]

@[simp] theorem Dev.settleEnd_chans (keep parking : Bool) : (s.settleEnd r keep parking).chans = s.chans := by
  unfold Dev.settleEnd
  dsimp only
  split <;> simp

/-- An ending without KEEP leaves the channels alone. -/
theorem Dev.endSeq_chans {why : Nat} (hwhy : 4 < why) (code : Nat) : (s.endSeq r why code false).chans = s.chans := by
  have hkeep : s.turnOnly r why = false := by simp [Dev.turnOnly, Nat.not_le_of_lt hwhy]
  by_cases hgo : s.live r = true ∧ s.st r ≠ St.ADMITTED ∧ ∀ y z, (s.seq r).stopping ≠ .ending y z
  · obtain ⟨hlive, hadm, hstop⟩ := hgo
    rw [Dev.endSeq_eq hlive hadm hstop, hkeep, if_neg (by decide), Dev.settleEnd_chans, Dev.lastRecord_chans, Dev.givenUp_chans, Dev.turnMarked_chans]
  · refine congrArg Dev.chans (if_pos ?_)
    by_cases hlive : s.live r = true
    · by_cases hadm : s.st r = St.ADMITTED
      · simp [hadm]
      · have hstop : ¬ ∀ y z, (s.seq r).stopping ≠ .ending y z := fun h => hgo ⟨hlive, hadm, h⟩
        push Not at hstop
        obtain ⟨y, z, h⟩ := hstop
        simp [h]
    · rw [Bool.not_eq_true] at hlive
      simp only [Dev.live] at hlive
      simp [hlive]

theorem Dev.failSeq_chans (code : Nat) : (s.failSeq r code).chans = s.chans := by
  unfold Dev.failSeq
  rw [Dev.endSeq_chans _ _ (by decide)]
  split <;> simp

theorem Dev.stepFail_chans (code : Nat) : (s.stepFail r code).chans = s.chans := by
  unfold Dev.stepFail
  split
  · rfl
  · dsimp only
    split
    · rw [Dev.failSeq_chans, Dev.modSeq_chans, Dev.abandon_chans]
    · rw [Dev.modSeq_chans, Dev.abandon_chans]

end

theorem Dev.failWait_chans (s : Dev) (code : Nat) (w : SyWait) : (s.failWait code w).chans = s.chans := by
  unfold Dev.failWait
  split
  · rfl
  · split
    · rfl
    · split
      · exact s.stepFail_chans ..
      · rw [Dev.failSeq_chans, Dev.abandon_chans]

end Sys2Proof.Machine
end

section
/-! NOTREADY and idle streams (O57). -/

namespace Sys2Proof.Machine
open Sys2Proof

/-! ### READs that end (R354) -/

/-- A fabric in which a READ has ended with a status. -/
def readEnded (f : Fab) (r : OpenRead) (status : Nat) : Fab := { f with reads := f.reads.erase r, ended := f.ended.set 0 r.tag (status + 1) }

/-- Of the channels, the end of a READ changes its channel's reads alone. -/
theorem Dev.endRead_chans (s : Dev) (ch : Nat) (r : OpenRead) (status : Nat) :
    (s.endRead ch r status).chans = (s.modFab ch fun f => readEnded f r status).chans := by
  unfold Dev.endRead
  change (match r.seq with | some q => _ | none => _ : Dev).chans = _
  split
  · split
    · rfl
    · split
      · exact Dev.stepFail_chans ..
      · rw [Dev.failSeq_chans, Dev.abandon_chans]
        rfl
  · rfl

theorem Dev.fab_of_chans {s t : Dev} (h : t.chans = s.chans) (ch : Nat) : t.fab ch = s.fab ch := congrArg (fun m => (Store.get Chan.fresh ch m).fab) h
theorem Dev.sync_of_chans {s t : Dev} (h : t.chans = s.chans) (ch : Nat) : t.sync ch = s.sync ch := congrArg (fun m => (Store.get Chan.fresh ch m).sync) h

theorem Dev.fab_modFab (s : Dev) (ch : Nat) (f : Fab → Fab) : (s.modFab ch f).fab ch = f (s.fab ch) :=
  ((Dev.InChan.refl (fun _ => True) ch s).modFab f).fab

theorem Dev.endRead_fab (s : Dev) (ch : Nat) (r : OpenRead) (status : Nat) : (s.endRead ch r status).fab ch = readEnded (s.fab ch) r status :=
  (Dev.fab_of_chans (s.endRead_chans ch r status) ch).trans (s.fab_modFab ch _)

/-- A READ that no sequence waits for ends without more. -/
theorem Dev.endRead_alone (s : Dev) (ch : Nat) {r : OpenRead} (h : r.seq = none) (status : Nat) :
    s.endRead ch r status = s.modFab ch fun f => readEnded f r status := by
  rw [Dev.endRead, h]
  rfl

theorem Dev.endReads_stream (l : List OpenRead) (s : Dev) (ch k status : Nat) :
    (l.foldl (fun s r => s.endRead ch r status) s).stream ch k = s.stream ch k := by
  induction l generalizing s with
  | nil => rfl
  | cons r l ih =>
    have hone : (s.endRead ch r status).stream ch k = s.stream ch k := by
      rw [Dev.stream, Dev.endRead_fab]
      rfl
    exact (ih _).trans hone

/-! ### What a stream sends again (R358) -/

/-- Messages of a stream that go out one after the other. -/
theorem Dev.InChan.sendAll {R : Nat → Prop} {ch k : Nat} {s : Dev} (hR : ∀ a, R a) (l : List (Nat × Nat × FabMsg)) : ∀ {c : Chan} {t : Dev},
    Dev.InChan R ch c s t → ∃ g, Dev.InChan R ch (withFab c g) s (l.foldl (fun s e => (s.sendStream ch e.1 e.2.1 k e.2.2).getD s) t) := by
  induction l with
  | nil => exact fun {c _} h => ⟨c.fab, h⟩
  | cons e l ih =>
    intro c t h
    obtain ⟨g, -, hg⟩ := h.sendStreamD hR e.1 e.2.1 k e.2.2
    obtain ⟨g', hg'⟩ := ih hg
    exact ⟨g', hg'⟩

theorem gives_inChan {c : Instr} {s : State} {R : Nat → Prop} {ch : Nat} {x : Chan} {m : Dev} (h : Dev.InChan R ch x s.m m) (hs : s.m.Settled)
    (hc : exec c s = s.done m) : Gives c s m := hc.trans (s.done_of_settled (h.settled hs))

/-! ### Streams -/

/-- One stream of a channel has changed, and what the fabric sends. -/
def StreamFrame (s : State) (ch st : Nat) (t : State) : Prop := SameBytes s t ∧ t.m.rqt = s.m.rqt ∧ t.m.seqs = s.m.seqs ∧ t.m.tiles = s.m.tiles ∧
  ∀ k, k ≠ st → t.m.stream ch k = s.m.stream ch k

section
variable {s : State} {ch : ChId} {st : Nat}

theorem streamFrame_of {c : Chan} {m : Dev} (h : Dev.InChan anyReg ch.val c s.m m) (hothers : ∀ k, k ≠ st → streamIn c.fab k = s.m.stream ch.val k) :
    StreamFrame s ch.val st { s with m := m } := ⟨h.byte, h.rqt, h.seqs, h.tiles, fun k hk => (h.stream k).trans (hothers k hk)⟩

/-- What changes one stream alone. -/
theorem answers_modStream {i : Instr} (hs : s.m.Settled) (f : Stream → Stream) (hexec : exec i s = s.done (s.m.modStream ch.val st f)) :
    Answers i s fun t => StreamFrame s ch.val st t ∧ t.m.regs = s.m.regs ∧ t.m.out = s.m.out ∧ t.m.stream ch.val st = f (s.m.stream ch.val st) := by
  have hmod := (Dev.InChan.refl anyReg ch.val s.m).modStream st f
  exact hmod.answers hs hexec ⟨streamFrame_of hmod fun k hk => streamIn_withStream_other _ hk _, rfl, rfl,
    (hmod.stream st).trans (streamIn_withStream_same ..)⟩

/-- A NOTREADY reaches the stream that it names where the stream's last message went to its source. -/
theorem exec_notready {p : PortIx} {me node : Fin 32768} {from_ : ChId} (hon : s.m.fabOn ch.val = true) (hnode : s.m.node = some me.val) :
    exec (.notreadyReceive ⟨ch, p, me, ch⟩ st ⟨node, from_⟩) s = s.done (s.m.only (s.m.streamTo ch.val st node.val) fun m => m.notReadyIn ch.val st) := by
  set w : MsgWay := ⟨ch, p, me, ch, node, from_⟩
  exact (exec_only (f := fun m => m.routeWay w st (.notReady w.node.val w.dstCh.val st) fun m =>
    m.only (m.streamTo w.ch.val st w.srcNode.val) fun m => m.notReadyIn w.ch.val st) rfl (by rw [hon, hnode]; rfl)).trans
    (congrArg s.done (Dev.routeWay_here (w := w) hnode rfl _ _ _))

theorem Dev.streamTo_last {m : Dev} {ch st node : Nat} (h : m.streamTo ch st node = true) : (m.stream ch st).last.isSome = true := by
  unfold Dev.streamTo at h
  split at h
  · next hlast => rw [hlast]; rfl
  · cases h

/-! ### The timer of a held stream (R358) -/

section
variable {t0 node dch : Nat} {m : FabMsg} (hs : s.m.Settled) (hon : s.m.fabOn ch.val = true) (hsince : (s.m.stream ch.val st).since = some t0)
  (hlast : (s.m.stream ch.val st).last = some (node, dch, m))
include hon hsince hlast

/-- A stream that gives up what it has sent and what waits. -/
def givenUpStream (x : Stream) : Stream := { x with held := false, since := none, last := none, wait := [] }

theorem exec_notreadyTimer_old (hheld : (s.m.stream ch.val st).held = true) (hold : t0 + 1000000000 ≤ (s.m.chan ch.val).time) :
    exec (.notreadyResendTimer ch st) s = s.done (((s.m.fab ch.val).reads.filter fun r => r.stream = st).foldl (fun s r => s.endRead ch.val r Code.LINK)
      (s.m.modStream ch.val st givenUpStream)) := by
  refine (exec_only (f := fun m => m.notReadyTimer ch.val st) rfl hon).trans (congrArg s.done ?_)
  have hreads : ((s.m.modStream ch.val st givenUpStream).fab ch.val).reads = (s.m.fab ch.val).reads := by
    rw [((Dev.InChan.refl anyReg ch.val s.m).modStream st givenUpStream).fab]
    rfl
  simp only [Dev.notReadyTimer, hsince, hlast, hheld, Bool.not_true, Bool.false_eq_true, if_false]
  rw [if_pos hold, ← hreads]
  rfl

theorem exec_notreadyTimer_young (hheld : (s.m.stream ch.val st).held = true) (hyoung : (s.m.chan ch.val).time < t0 + 1000000000) :
    let idle := s.m.modStream ch.val st fun y => { y with held := false }
    exec (.notreadyResendTimer ch st) s = s.done ((idle.sendTo ch.val node dch (some st) m).getD idle) := by
  intro idle
  refine (exec_only (f := fun m => m.notReadyTimer ch.val st) rfl hon).trans (congrArg s.done ?_)
  simp only [Dev.notReadyTimer, hsince, hlast, hheld, Bool.not_true, Bool.false_eq_true, if_false]
  rw [if_neg (Nat.not_le.2 hyoung)]

theorem exec_notreadyTimer_free (hheld : (s.m.stream ch.val st).held = false) :
    exec (.notreadyResendTimer ch st) s = s.done ((s.m.stream ch.val st).wait.foldl (fun s e => (s.sendStream ch.val e.1 e.2.1 st e.2.2).getD s)
      (s.m.modStream ch.val st fun y => { y with since := none, wait := [] })) := by
  refine (exec_only (f := fun m => m.notReadyTimer ch.val st) rfl hon).trans (congrArg s.done ?_)
  simp only [Dev.notReadyTimer, hsince, hlast, hheld, Bool.not_false, if_true]

include hs

/-- The held message goes out again on the stream's port. -/
theorem answers_notready_again {p : Nat} (hheld : (s.m.stream ch.val st).held = true) (hyoung : (s.m.chan ch.val).time < t0 + 1000000000)
    (hflt : s.m.fltState ch.val = 0) (hpin : (s.m.stream ch.val st).port = some p) (hport : s.m.port ch.val p = { Port.fresh with state := 3 })
    (hvc : msgVc m < 3) (hfit : msgGranules m ≤ 64) : Answers (.notreadyResendTimer ch st) s fun t => StreamFrame s ch.val st t ∧
      t.m.out = s.m.out ++ [.fabric ch.val (some p) m] ∧ t.m.stream ch.val st = { s.m.stream ch.val st with held := false } := by
  set f : Stream → Stream := fun y => { y with held := false }
  have hidle := (Dev.InChan.refl anyReg ch.val s.m).modStream st f
  set idle := s.m.modStream ch.val st f
  have hstream : idle.stream ch.val st = f (s.m.stream ch.val st) := (hidle.stream st).trans (streamIn_withStream_same ..)
  have hport' : idle.port ch.val p = { Port.fresh with state := 3 } := (hidle.port p).trans hport
  have hpin' : (idle.stream ch.val st).port = some p := (congrArg Stream.port hstream).trans hpin
  have hcred : msgGranules m ≤ nth 0 Port.fresh.credits (msgVc m) := by
    have h : ∀ v < 3, 64 ≤ nth 0 Port.fresh.credits v := by decide
    exact hfit.trans (h _ hvc)
  have hsend := Dev.sendTo_pinned (s := idle) (m := m) hon hflt hpin' (by rw [hport']) node dch
  have hout := Dev.sendTo_out (s := idle) hon hflt hpin' hport' hfit hcred hsend
  have hpinned := hidle.modStream st fun x => { x with port := some p }
  obtain ⟨g, hg, hqueued⟩ := hpinned.queueMsg (p := p) trivial trivial (some st) m
  have hop : (idle.sendTo ch.val node dch (some st) m).getD idle =
      (idle.modStream ch.val st fun x => { x with port := some p }).queueMsg ch.val p (some st) m := by rw [hsend, Option.getD_some]
  have hown : streamIn g st = { s.m.stream ch.val st with held := false } := by
    refine ((Sent.of_pumped hg none).streams st (by simp)).trans ?_
    rw [withFab_fab, streamIn_withStream_same, withFab_fab, streamIn_withStream_same]
    change ({ s.m.stream ch.val st with port := some p, held := false } : Stream) = _
    rw [← hpin]
  have hothers (k : Nat) (hk : k ≠ st) : streamIn g k = s.m.stream ch.val k := by
    refine ((Sent.of_pumped hg none).streams k (by simp)).trans ?_
    rw [withFab_fab, streamIn_withStream_other _ hk, withFab_fab, streamIn_withStream_other _ hk]
    rfl
  set u := (idle.modStream ch.val st fun x => { x with port := some p }).queueMsg ch.val p (some st) m
  have hst : u.stream ch.val st = { s.m.stream ch.val st with held := false } := (hqueued.stream st).trans hown
  have hexec : exec (.notreadyResendTimer ch st) s = s.done ((idle.sendTo ch.val node dch (some st) m).getD idle) :=
    exec_notreadyTimer_young hon hsince hlast hheld hyoung
  rw [hop] at hexec
  exact hqueued.answers hs hexec ⟨streamFrame_of hqueued hothers, hout, by rw [← hst]⟩

end

end

/-- Settles O57: a NOTREADY by the stream's last message, its timer by the time since the first, an idle stream by its flits. -/
theorem streamsAreHeld : Obligations.StreamsAreHeld := by
  unfold Obligations.StreamsAreHeld
  intro s ch st hs hon x frame
  refine ⟨fun p me node from_ hnode => ⟨fun hto => ?_, fun hto => ?_⟩, fun t0 node dch m hsince hlast => ⟨fun hheld hold => ?_, fun hheld hyoung => ?_,
    fun hheld => ?_⟩, fun t0 node dch p m hsince hlast hheld => ⟨fun hold hreads => ?_, fun hyoung hflt hpin hport hvc hfit =>
      answers_notready_again hs hon hsince hlast hheld hyoung hflt hpin hport hvc hfit⟩, fun p hport => ⟨fun hidle => ?_, fun hbusy => ?_⟩⟩
  · have hm : s.m.notReadyIn ch.val st = s.m.modStream ch.val st fun x =>
        if x.last.isSome then { x with held := true, since := x.since.or (some (s.m.chan ch.val).time) } else x := rfl
    have hanswers := answers_modStream hs _ ((exec_notready (p := p) (from_ := from_) hon hnode).trans (by rw [hto, Dev.only_true, hm]))
    rw [if_pos (Dev.streamTo_last hto)] at hanswers
    exact hanswers
  · exact gives_done hs ((exec_notready (p := p) (from_ := from_) hon hnode).trans (by rw [hto]; rfl)) rfl
  · exact does_done (exec_notreadyTimer_old hon hsince hlast hheld hold)
      ((Dev.endReads_stream ..).trans (congrArg (streamIn · st) (s.m.fab_modFab ch.val _) |>.trans (streamIn_withStream_same ..)))
  · obtain ⟨g, -, hg⟩ := ((Dev.InChan.refl anyReg ch.val s.m).modStream st fun y => { y with held := false }).sendToD (fun _ => trivial) node dch st m
    exact gives_inChan hg hs (exec_notreadyTimer_young hon hsince hlast hheld hyoung)
  · obtain ⟨g, hg⟩ := ((Dev.InChan.refl anyReg ch.val s.m).modStream st fun y => { y with since := none, wait := [] }).sendAll (k := st)
      (fun _ => trivial) x.wait
    exact gives_inChan hg hs (exec_notreadyTimer_free hon hsince hlast hheld)
  · obtain ⟨t, hexec, hframe, -, hout, hstream⟩ := answers_modStream hs givenUpStream
      ((exec_notreadyTimer_old hon hsince hlast hheld hold).trans (by rw [hreads]; rfl))
    exact ⟨t, hexec, hframe, hout, hstream⟩
  · have hm : s.m.streamIdle ch.val st = s.m.modStream ch.val st fun x => { x with port := none } := by
      rw [Dev.streamIdle, hport]
      exact if_neg (by rw [hidle]; decide)
    exact answers_modStream hs _ ((exec_only (f := fun m => m.streamIdle ch.val st) rfl hon).trans (congrArg s.done hm))
  · have hm : s.m.streamIdle ch.val st = s.m := by
      rw [Dev.streamIdle, hport]
      exact if_pos hbusy
    exact gives_done hs ((exec_only (f := fun m => m.streamIdle ch.val st) rfl hon).trans (congrArg s.done hm)) rfl

end Sys2Proof.Machine
end

section
/-! How READs, signals and runs end (O56): what ends a READ. -/

namespace Sys2Proof.Machine
open Sys2Proof

theorem Dev.setBytes_byte (s : Dev) (a : Nat) (bs : List Byte) (x : Nat) :
    (s.setBytes a bs).byte x = if a ≤ x ∧ x < a + bs.length then nth 0 bs (x - a) else s.byte x := by
  have h := putEntry_get 0 a x bs s.mem
  rw [← Dev.setBytes_mem, Nat.zero_mul, Nat.zero_add] at h
  exact h

/-! ### The way of a message (R350, R355) -/

/-- A message with an address that names this node and channel is taken. -/
theorem Dev.route_here {s : Dev} {ch p : Nat} {h : MsgHdr} (hnode : s.node = some (addrNode h.dst)) (hch : addrCh h.dst = ch) (hhops : h.hops.val ≠ 15)
    (m : MsgHdr → FabMsg) (take : Dev → Dev) : s.route ch p h m take = take s := by
  rw [Dev.route, hnode]
  exact (if_neg hhops).trans (if_pos ⟨rfl, hch⟩)

/-- One for another is forwarded. -/
theorem Dev.route_forward {s : Dev} {ch p n : Nat} {h : MsgHdr} (hnode : s.node = some n) (haway : addrNode h.dst ≠ n ∨ addrCh h.dst ≠ ch)
    (hhops : h.hops.val ≠ 15) (m : MsgHdr → FabMsg) (take : Dev → Dev) : s.route ch p h m take = s.forward ch h m := by
  rw [Dev.route, hnode]
  exact (if_neg hhops).trans (if_neg fun h => haway.elim (absurd h.1) (absurd h.2))

/-- A message without an address that names another node or channel is sent on. -/
theorem Dev.routeWay_away {s : Dev} {w : MsgWay} {n : Nat} (hnode : s.node = some n) (haway : w.node.val ≠ n ∨ w.dstCh ≠ w.ch) (st : Nat) (m : FabMsg)
    (take : Dev → Dev) : s.routeWay w st m take =
      (s.sendTo w.ch.val w.node.val w.dstCh.val (some (65536 + arrKey w.srcNode.val w.srcCh.val st)) m).getD s := by
  rw [Dev.routeWay, hnode]
  exact if_neg fun h => haway.elim (absurd h.1) (absurd h.2)

/-! ### READs that end (R350, R354) -/

/-- A READ of a channel is over: it is open no more, and its status stands for its tag. -/
def ReadOver (s : State) (ch : Nat) (t : State) (r : OpenRead) (status : Nat) : Prop :=
  (t.m.fab ch).reads = (s.m.fab ch).reads.erase r ∧ (t.m.fab ch).ended.get 0 r.tag = status + 1

theorem readOver_of {s : State} {ch : Nat} {r : OpenRead} {status : Nat} {m : Dev} (h : m.fab ch = readEnded (s.m.fab ch) r status) :
    ReadOver s ch { s with m := m } r status :=
  ⟨congrArg Fab.reads h, (congrArg (fun f : Fab => f.ended.get 0 r.tag) h).trans (Store.get_set_same 0 r.tag (status + 1) (s.m.fab ch).ended)⟩

/-- The table, sequences, tiles, and what has left the module stay. -/
def FabQuiet (s t : State) : Prop := t.m.rqt = s.m.rqt ∧ t.m.seqs = s.m.seqs ∧ t.m.tiles = s.m.tiles ∧ t.m.out = s.m.out

section
variable {s : State} {ch : ChId} {i : Instr} {r : OpenRead} {status : Nat}

/-- A READ that no sequence waits for, or that succeeds, ends alone. -/
theorem answers_endRead (hs : s.m.Settled) (hexec : exec i s = s.done (s.m.modFab ch.val fun f => readEnded f r status)) :
    Answers i s fun t => FabQuiet s t ∧ SameBytes s t ∧ ReadOver s ch.val t r status := by
  have hend := (Dev.InChan.refl anyReg ch.val s.m).modFab fun f => readEnded f r status
  exact hend.answers hs hexec ⟨⟨hend.rqt, hend.seqs, hend.tiles, rfl⟩, hend.byte, readOver_of hend.fab⟩

theorem does_endRead (hexec : exec i s = s.done (s.m.endRead ch.val r status)) : Does i s fun t => ReadOver s ch.val t r status :=
  does_done hexec (readOver_of (s.m.endRead_fab ch.val r status))

/-- The data of a READ are stored where it asked. -/
theorem answers_readData {data : List Byte} (hs : s.m.Settled)
    (hexec : exec i s = s.done ((s.m.setBytes r.dest data).modFab ch.val fun f => readEnded f r 0)) :
    Answers i s fun t => FabQuiet s t ∧ ReadOver s ch.val t r 0 ∧
      ∀ x, t.m.byte x = if r.dest ≤ x ∧ x < r.dest + data.length then nth 0 data (x - r.dest) else s.m.byte x := by
  set u := s.m.setBytes r.dest data with hu
  have hend := (Dev.InChan.refl anyReg ch.val u).modFab fun f => readEnded f r 0
  have hfab : u.fab ch.val = s.m.fab ch.val := Dev.fab_of_chans (Dev.setBytes_chans ..) _
  refine answers_done hexec (hend.settled (hs.of_chans (Dev.setBytes_chans ..))) ⟨⟨hend.rqt.trans (Dev.setBytes_rqt ..),
    hend.seqs.trans (Dev.setBytes_seqs ..), hend.tiles.trans (Dev.setBytes_tiles ..), Dev.setBytes_out ..⟩, readOver_of ?_, fun x => ?_⟩
  · rw [hend.fab, ← hfab]
    rfl
  · rw [hend.byte, hu, Dev.setBytes_byte]

/-- A READ that has succeeded keeps its sequence going. -/
theorem Dev.endRead_ok (s : Dev) (ch : Nat) (r : OpenRead) : s.endRead ch r 0 = s.modFab ch fun f => readEnded f r 0 := by
  unfold Dev.endRead
  split <;> rfl

end

section
variable {s : State} {ch : ChId} {p : PortIx} {me src : Fin 32768} {from_ : ChId} {h : MsgHdr} {r : OpenRead} (hon : s.m.fabOn ch.val = true)
  (hnode : s.m.node = some me.val)

theorem Dev.replyIn_read {m : Dev} {ch st tag : Nat} (hfind : (m.fab ch).reads.find? (fun r => r.tag = tag && r.stream = st) = some r) (status : Nat) :
    m.replyIn ch st tag status = m.endRead ch r (peerCode status) := by rw [Dev.replyIn, hfind]

include hon hnode

/-- A response of a READ that is open. -/
theorem exec_readResp (data : List Byte) (hdst : addrNode h.dst = me.val) (hch : addrCh h.dst = ch.val) (hhops : h.hops.val ≠ 15)
    (hfind : (s.m.fab ch.val).reads.find? (fun r => r.tag = h.tag && r.stream = h.stream) = some r) :
    exec (.readRespReceive ⟨ch, p⟩ h data) s = s.done (if s.m.fltState ch.val ≠ 0 then s.m.endRead ch.val r Code.WITHDRAWN
      else (if h.status = 0 then s.m.setBytes r.dest data else s.m).endRead ch.val r (peerCode h.status.toNat)) := by
  refine (exec_only (f := fun m => m.readRespIn ch.val p.val h data) rfl hon).trans (congrArg s.done ?_)
  rw [Dev.readRespIn, Dev.route_here (hdst ▸ hnode) hch hhops]
  simp only [hfind]

/-- A refusal that reaches this node and channel. -/
theorem exec_reply (st tag : Nat) (status : Byte) :
    exec (.replyReceive ⟨ch, p, me, ch, src, from_⟩ st tag status) s = s.done (s.m.replyIn ch.val st tag status.toNat) := by
  set w : MsgWay := ⟨ch, p, me, ch, src, from_⟩
  exact (exec_only (f := fun m => m.routeWay w st (.reply w.node.val w.dstCh.val st tag status.toNat) fun m => m.replyIn w.ch.val st tag status.toNat) rfl
    hon).trans (congrArg s.done (Dev.routeWay_here (w := w) hnode rfl _ _ _))

theorem exec_collFail (ctx : CtxId) (id inst : Nat) (code : Byte) :
    exec (.collFailReceive ⟨ch, p, me, ch, src, from_⟩ ctx id inst code) s = s.done (s.m.collFailIn ch.val ctx.val id inst code.toNat) := by
  set w : MsgWay := ⟨ch, p, me, ch, src, from_⟩
  exact (exec_only (f := fun m => m.routeWay w 0 (.collFail w.node.val w.dstCh.val ctx.val id inst code.toNat) fun m =>
    m.collFailIn w.ch.val ctx.val id inst code.toNat) rfl hon).trans (congrArg s.done (Dev.routeWay_here (w := w) hnode rfl _ _ _))

theorem exec_digest {d : Digest} (hdst : d.dstCh = ch) : exec (.digestReceive ⟨ch, p, me, d⟩) s = s.done (s.m.digestIn d) := by
  set w : MsgWay := ⟨ch, p, me, d.dstCh, d.srcNode, d.srcCh⟩
  exact (exec_only (f := fun m => m.routeWay w d.stream (.digest w.node.val d) fun m => m.digestIn d) rfl hon).trans
    (congrArg s.done (Dev.routeWay_here (w := w) hnode hdst _ _ _))

end

end Sys2Proof.Machine
end

section
/-! How READs, signals and runs end (O56): signals that are refused, digests, and runs that fail. -/

namespace Sys2Proof.Machine
open Sys2Proof

/-! ### Objects that break, whoever waits (R330) -/

theorem Dev.failWaits_chans (code : Nat) (l : List SyWait) (s : Dev) : (l.foldl (fun s w => s.failWait code w) s).chans = s.chans := by
  induction l generalizing s with
  | nil => rfl
  | cons w l ih => exact (ih _).trans (s.failWait_chans code w)

/-- Of the channels, a broken object changes itself alone. -/
theorem Dev.breakObj_chans (s : Dev) (ch o code : Nat) :
    (s.breakObj ch o code).chans = (s.modObj ch o fun x => { x with state := 2, code := code, waits := [] }).chans := by
  unfold Dev.breakObj
  refine (Dev.failWaits_chans ..).trans ?_
  split
  · exact (Dev.bump_chans ..).trans (Dev.bump_chans ..)
  · exact Dev.bump_chans ..

theorem Dev.breakObj_fab (s : Dev) (ch o code : Nat) : (s.breakObj ch o code).fab ch = s.fab ch :=
  (Dev.fab_of_chans (s.breakObj_chans ch o code) ch).trans
    ((Dev.InChan.refl anyReg ch s).modObj o fun x => { x with state := 2, code := code, waits := [] }).fab

theorem Dev.breakObj_obj (s : Dev) (ch o code : Nat) : (s.breakObj ch o code).obj ch o = { s.obj ch o with state := 2, code := code, waits := [] } := by
  have hmod := (Dev.InChan.refl anyReg ch s).modObj o fun x => { x with state := 2, code := code, waits := [] }
  exact (congrArg (fun y => objIn y o) ((Dev.sync_of_chans (s.breakObj_chans ch o code) ch).trans hmod.sync)).trans (objIn_withObj_same ..)

/-! ### Runs that fail (R330, R362) -/

/-- A fabric without a run. -/
def withoutColl (f : Fab) (o : CollOpen) : Fab := { f with colls := f.colls.filter fun c => decide (c.o ≠ o) }

section
variable {R : Nat → Prop} {s t : Dev} {x : Chan} {c : Coll} {u : Dev}

theorem Dev.InChan.dropColl {ch : Nat} (h : Dev.InChan R ch x s t) (o : CollOpen) :
    Dev.InChan R ch (withFab x (withoutColl x.fab o)) s (t.dropColl ch o) := h.modFab fun f => withoutColl f o

/-- A run ends on its channel, and its object breaks if it is ARMED. -/
theorem Dev.collBreak_fab (h : Dev.InChan anyReg c.o.ch.val x s t) (code : Nat) : (t.collBreak c code).fab c.o.ch.val = withoutColl x.fab c.o ∧
    ∀ o, x.sync.maps.get none (mapKey c.o.ctx.val c.o.vid.val) = some o → (objIn x.sync o.obj).state = 1 →
      (t.collBreak c code).obj c.o.ch.val o.obj = { objIn x.sync o.obj with state := 2, code := code, waits := [] } := by
  have hgone := (h.dropColl c.o).bump (k := .evfCh) (d := c.o.ch.val) (i := 0) (o := Off.EVF_COLLFAIL) trivial trivial 1
  change Dev.InChan anyReg c.o.ch.val _ s (t.collGone c) at hgone
  have hbreak : t.collBreak c code = match (t.collGone c).collObj c.o with
    | some o => if ((t.collGone c).obj c.o.ch.val o).state = 1 then (t.collGone c).breakObj c.o.ch.val o code else t.collGone c
    | none => t.collGone c := rfl
  have hobj : (t.collGone c).collObj c.o = (x.sync.maps.get none (mapKey c.o.ctx.val c.o.vid.val)).map (·.obj) :=
    congrArg (Option.map SyMap.obj) (hgone.mapOf ..)
  rw [hbreak, hobj]
  cases x.sync.maps.get none (mapKey c.o.ctx.val c.o.vid.val) with
  | none => exact ⟨hgone.fab, fun o ho => by cases ho⟩
  | some e =>
    have hstate : (t.collGone c).obj c.o.ch.val e.obj = objIn x.sync e.obj := hgone.obj e.obj
    simp only [Option.map_some, hstate]
    by_cases harmed : (objIn x.sync e.obj).state = 1
    · rw [if_pos harmed]
      refine ⟨((t.collGone c).breakObj_fab ..).trans hgone.fab, fun o ho _ => ?_⟩
      obtain rfl : e = o := Option.some.inj ho
      rw [Dev.breakObj_obj, hstate]
    · rw [if_neg harmed]
      refine ⟨hgone.fab, fun o ho h1 => ?_⟩
      obtain rfl : e = o := Option.some.inj ho
      exact absurd h1 harmed

/-- A notice goes to the other participants. -/
theorem Dev.InChan.failAll (code : Nat) (ps : List Nat) : ∀ {x : Chan} {t : Dev}, Dev.InChan anyReg c.o.ch.val x s t →
    ∃ g, Sent none x.fab g ∧ Dev.InChan anyReg c.o.ch.val (withFab x g) s (t.failAll c code ps) := by
  induction ps with
  | nil => exact fun {x _} h => ⟨x.fab, .refl _ _, h⟩
  | cons i ps ih =>
    intro x t h
    have hone : ∃ g, Sent none x.fab g ∧ Dev.InChan anyReg c.o.ch.val (withFab x g) s (match c.o.parts[i]? with
        | some (node, ch, _) => t.send c.o.ch.val node.val ch.val (.collFail node.val ch.val c.o.ctx.val c.o.collId c.o.inst code)
        | none => t) := by
      split
      · exact h.send (fun _ _ => trivial) _ _ _
      · exact ⟨x.fab, .refl _ _, h⟩
    obtain ⟨g, hg, hsent⟩ := hone
    obtain ⟨g', hg', hall⟩ := ih hsent
    exact ⟨g', hg.trans hg', hall⟩

/-! ### Results that are sent again (R360, R361) -/

theorem Dev.InChan.sendWrites {ch ctx k : Nat} (n : Nat) : ∀ {x : Chan} {t u : Dev} {dst : Word64} {data : List Byte}, Dev.InChan anyReg ch x s t →
    t.sendWrites ch ctx k dst data n = some u → ∃ g, Dev.InChan anyReg ch (withFab x g) s u := by
  induction n with
  | zero => exact fun {x _ _ _ _} h hu => ⟨x.fab, Option.some.inj hu ▸ h⟩
  | succ n ih =>
    intro x t u dst data h hu
    unfold Dev.sendWrites at hu
    split at hu
    · exact ⟨x.fab, Option.some.inj hu ▸ h⟩
    · split at hu
      · next v hv =>
        unfold Dev.sendWrite at hv
        split at hv
        · cases hv
        · obtain ⟨w, hw, rfl⟩ := Option.map_eq_some_iff.1 hv
          obtain ⟨g, -, hsent⟩ := h.sendStream (fun _ => trivial) hw
          obtain ⟨g', hrest⟩ := ih (hsent.modStream k _) hu
          exact ⟨g', hrest⟩
      · cases hu

theorem Dev.InChan.sendColl (h : Dev.InChan anyReg c.o.ch.val x s t) {target level : Nat} (hu : t.sendColl c target level = some u) :
    ∃ g, Dev.InChan anyReg c.o.ch.val (withFab x g) s u := by
  unfold Dev.sendColl at hu
  dsimp only at hu
  split at hu
  · split at hu
    · cases hu
    · next v hv =>
      obtain ⟨g, hwritten⟩ := h.sendWrites _ hv
      split at hu
      · cases hu
      · next w hw =>
        obtain ⟨g', -, hdigest⟩ := hwritten.sendStream (fun _ => trivial) hw
        obtain ⟨g'', -, hsignal⟩ := hdigest.sendStream (fun _ => trivial) hu
        exact ⟨g'', hsignal⟩
  · cases hu

theorem Dev.sendColl_settled (hs : t.Settled) (target level : Nat) : ((t.sendColl c target level).getD t).Settled := by
  cases hu : t.sendColl c target level with
  | none => exact hs
  | some u =>
    obtain ⟨g, hsent⟩ := (Dev.InChan.refl anyReg c.o.ch.val t).sendColl hu
    exact hsent.settled hs

end

/-! ### Signals that are held (R335, R361) -/

section
variable {ch : Nat} {s t : Dev} {h : HeldSig}

/-- Signals whose data have not come wait on. -/
theorem Dev.releaseHeld_waits (hcov : ∀ x ∈ (s.sync ch).held, s.covered ch x.sig = false) : s.releaseHeld ch = s := by
  unfold Dev.releaseHeld
  generalize (s.sync ch).held = l at hcov ⊢
  induction l with
  | nil => rfl
  | cons x l ih =>
    rw [List.foldl_cons]
    refine (congrArg (fun u => List.foldl _ u l) (?_ : _ = s)).trans (ih fun y hy => hcov y (.tail _ hy))
    split
    · rw [Dev.trySig_early (hcov x (.head _))]
      rfl
    · rfl

/-- The signal that waits for a digest is taken with the contribution that the digest admits. -/
theorem Dev.releaseHeld_one (hheld : (s.sync ch).held = [h]) (htry : s.trySig ch h.obj h.sig = (t, true)) :
    s.releaseHeld ch = t.modSync ch fun x => { x with held := x.held.erase h } := by
  unfold Dev.releaseHeld
  rw [hheld, List.foldl_cons, List.foldl_nil, if_pos (by rw [hheld]; simp), htry]
  rfl

end

end Sys2Proof.Machine
end

section
/-! How READs, signals and runs end (O56). -/

namespace Sys2Proof.Machine
open Sys2Proof

/-! ### Digests (R361) -/

/-- A contribution whose digest is right is taken with its signal. -/
theorem Dev.trySig_digest {s : Dev} {ch o : Nat} {g : RemoteSignal} {c : Coll} {d : Digest} (hcov : s.covered ch g = true) (hcoll : s.collOf ch o = some c)
    (hfind : (s.fab ch).digests = [d]) (hsrc : d.srcNode = g.srcNode) (hch : d.srcCh = g.srcCh) (hst : d.stream = g.stream) (hmark : d.markEnd = g.mark)
    (hid : d.collId = c.o.collId) (hinst : d.inst = c.o.inst) (hdigest : digestOf d (s.bytes (devAddr d.addr) d.len) = d.digest) :
    s.trySig ch o g = ((((s.modFab ch fun x => { x with digests := x.digests.erase d }).applySig ch o g.consume g.value).1.collTake c d
      (s.bytes (devAddr d.addr) d.len)), true) := by
  unfold Dev.trySig
  rw [hcov, hcoll, if_neg (by decide)]
  dsimp only
  have hsame : (s.fab ch).digests.find? (fun d => decide (d.srcNode = g.srcNode) && decide (d.srcCh = g.srcCh) && decide (d.stream = g.stream) &&
      decide (d.markEnd = g.mark) && decide (d.collId = c.o.collId) && decide (d.inst = c.o.inst)) = some d := by
    rw [hfind]
    simp [hsrc, hch, hst, hmark, hid, hinst]
  rw [hsame]
  exact if_pos hdigest

section
variable {s : State} {ch : ChId} {p : PortIx} {me src : Fin 32768} {from_ : ChId} (hs : s.m.Settled) (hon : s.m.fabOn ch.val = true)
  (hnode : s.m.node = some me.val)
include hs hon hnode

/-! ### Refusals of signals and runs (R335, R362) -/

/-- A refusal of a signal holds it back, or ends it. -/
theorem does_replySignal {y : SentSig} {status : Byte}
    (hreads : (s.m.fab ch.val).reads.find? (fun r => r.tag = y.sig.mark && r.stream = y.sig.stream) = none)
    (hsent : (s.m.sync ch.val).sent.find? (fun x => x.sig.stream = y.sig.stream && x.sig.mark = y.sig.mark) = some y) :
    Does (.replyReceive ⟨ch, p, me, ch, src, from_⟩ y.sig.stream y.sig.mark status) s fun t => (t.m.sync ch.val).sent =
      if status.toNat = Code.NOSPACE then (s.m.sync ch.val).sent.map fun z => if z.id = y.id then { z with refused := true } else z
      else (s.m.sync ch.val).sent.erase y := by
  have _ := hs
  refine does_done (exec_reply hon hnode ..) ?_
  change ((s.m.replyIn ch.val y.sig.stream y.sig.mark status.toNat).sync ch.val).sent = _
  have hsync (l : List SentSig) : ((s.m.modSync ch.val fun y => withSent y l).sync ch.val).sent = l :=
    congrArg Sync.sent ((Dev.InChan.refl anyReg ch.val s.m).modSync fun y => withSent y l).sync
  simp only [Dev.replyIn, hreads, hsent]
  by_cases hspace : status.toNat = Code.NOSPACE
  · rw [if_pos hspace, if_pos hspace]
    exact congrArg Sync.sent ((Dev.InChan.refl anyReg ch.val s.m).modSync _).sync
  · rw [if_neg hspace, if_neg hspace]
    have hend := congrArg Sync.sent ((Dev.InChan.refl anyReg ch.val s.m).modSync fun x => withSent x (x.sent.erase y)).sync
    split
    · exact (congrArg Sync.sent (Dev.sync_of_chans (Dev.failWait_chans ..) _)).trans hend
    · exact hend

theorem answers_replySignal {y : SentSig} {status : Byte} (hreads : (s.m.fab ch.val).reads = []) (hsent : (s.m.sync ch.val).sent = [y])
    (hseq : y.seq = none) : Answers (.replyReceive ⟨ch, p, me, ch, src, from_⟩ y.sig.stream y.sig.mark status) s fun t =>
      FabQuiet s t ∧ SameBytes s t ∧ t.m.regs = s.m.regs ∧
        (t.m.sync ch.val).sent = if status.toNat = Code.NOSPACE then [{ y with refused := true }] else [] := by
  set again : Sync → Sync := fun x => withSent x (x.sent.map fun z => if z.id = y.id then { z with refused := true } else z)
  set gone : Sync → Sync := fun x => withSent x (x.sent.erase y)
  have hreply : s.m.replyIn ch.val y.sig.stream y.sig.mark status.toNat = s.m.modSync ch.val (if status.toNat = Code.NOSPACE then again else gone) := by
    have hnone : (s.m.fab ch.val).reads.find? (fun r => r.tag = y.sig.mark && r.stream = y.sig.stream) = none := by rw [hreads]; rfl
    have hsome : (s.m.sync ch.val).sent.find? (fun x => x.sig.stream = y.sig.stream && x.sig.mark = y.sig.mark) = some y := by simp [hsent]
    simp only [Dev.replyIn, hnone, hsome, hseq]
    split <;> rfl
  have hmod := (Dev.InChan.refl anyReg ch.val s.m).modSync (if status.toNat = Code.NOSPACE then again else gone)
  refine hmod.answers hs ((exec_reply hon hnode ..).trans (congrArg s.done hreply)) ⟨⟨hmod.rqt, hmod.seqs, hmod.tiles, rfl⟩, hmod.byte, rfl, ?_⟩
  refine (congrArg Sync.sent hmod.sync).trans ?_
  change ((if status.toNat = Code.NOSPACE then again else gone) (s.m.sync ch.val)).sent = _
  split
  · change (s.m.sync ch.val).sent.map _ = _
    rw [hsent]
    simp
  · change (s.m.sync ch.val).sent.erase y = _
    rw [hsent]
    simp

/-- A result is sent again where a participant asks for it. -/
theorem gives_replyAgain {c : Coll} {tag : Nat} (hreads : (s.m.fab ch.val).reads = []) (hsent : (s.m.sync ch.val).sent = [])
    (hfind : (s.m.fab ch.val).colls.find? (fun x => x.o.stream = c.o.stream && x.done) = some c) (htag : tag < c.o.parts.length) :
    Gives (.replyReceive ⟨ch, p, me, ch, src, from_⟩ c.o.stream tag (BitVec.ofNat 8 Code.REJECTED)) s ((s.m.sendColl c tag 15).getD s.m) := by
  have hreply : s.m.replyIn ch.val c.o.stream tag (BitVec.ofNat 8 Code.REJECTED).toNat = (s.m.sendColl c tag 15).getD s.m := by
    simp only [Dev.replyIn, hreads, hsent, hfind, List.find?_nil]
    exact if_pos ⟨rfl, htag⟩
  exact ((exec_reply hon hnode ..).trans (congrArg s.done hreply)).trans (s.done_of_settled (Dev.sendColl_settled hs ..))

/-! ### Failure notices (R362) -/

section
variable {c : Coll} {ctx : CtxId} {id inst : Nat} {code : Byte}
  (hfind : (s.m.fab ch.val).colls.find? (fun c => c.o.ctx.val = ctx.val && c.o.collId = id && c.o.inst = inst) = some c) (hch : c.o.ch = ch)
include hfind

theorem gives_collFail_done (hdone : c.done = true) : Gives (.collFailReceive ⟨ch, p, me, ch, src, from_⟩ ctx id inst code) s s.m := by
  have hm : s.m.collFailIn ch.val ctx.val id inst code.toNat = s.m := by
    simp only [Dev.collFailIn, hfind, Dev.rootFail, hdone, if_true, ite_self]
  exact gives_done hs ((exec_collFail hon hnode ..).trans (congrArg s.done hm)) rfl

include hch

theorem does_collFail (hdone : c.done = false) : Does (.collFailReceive ⟨ch, p, me, ch, src, from_⟩ ctx id inst code) s fun t =>
    (t.m.fab ch.val).colls = (s.m.fab ch.val).colls.filter (fun x => x.o ≠ c.o) ∧
      ∀ o, s.m.collObj c.o = some o → (s.m.obj ch.val o).state = 1 →
        (t.m.obj ch.val o).state = 2 ∧ (t.m.obj ch.val o).code = peerCode code.toNat := by
  have _ := hs
  subst hch
  have hbreak {x : Chan} {t : Dev} (h : Dev.InChan anyReg c.o.ch.val x s.m t) (hsync : x.sync = s.m.sync c.o.ch.val)
      (hcolls : x.fab.colls = (s.m.fab c.o.ch.val).colls) : ((t.collBreak c (peerCode code.toNat)).fab c.o.ch.val).colls =
        (s.m.fab c.o.ch.val).colls.filter (fun x => x.o ≠ c.o) ∧ ∀ o, s.m.collObj c.o = some o → (s.m.obj c.o.ch.val o).state = 1 →
        ((t.collBreak c (peerCode code.toNat)).obj c.o.ch.val o).state = 2 ∧
          ((t.collBreak c (peerCode code.toNat)).obj c.o.ch.val o).code = peerCode code.toNat := by
    obtain ⟨hfab, hobj⟩ := Dev.collBreak_fab h (peerCode code.toNat)
    refine ⟨(congrArg Fab.colls hfab).trans (congrArg (List.filter _) hcolls), fun o ho harmed => ?_⟩
    obtain ⟨e, he, rfl⟩ := Option.map_eq_some_iff.1 ho
    have hbroken := hobj e (by rw [hsync]; exact he) (by rw [hsync]; exact harmed)
    exact ⟨congrArg SyObj.state hbroken, congrArg SyObj.code hbroken⟩
  refine does_done (exec_collFail hon hnode ..) ?_
  simp only [Dev.collFailIn, hfind, Dev.rootFail, hdone, Bool.false_eq_true, if_false]
  by_cases hroot : c.me = 0
  · rw [if_pos hroot]
    obtain ⟨g, hg, hall⟩ := (Dev.InChan.refl anyReg c.o.ch.val s.m).failAll (c := c) (peerCode code.toNat)
      ((List.range c.o.parts.length).filter fun i => decide (i ≠ c.me))
    exact hbreak hall rfl hg.colls
  · rw [if_neg hroot]
    exact hbreak (.refl _ _ _) rfl rfl

theorem answers_collFail {o : Nat} (hme : c.me ≠ 0) (hdone : c.done = false) (hobj : s.m.collObj c.o = some o) (harmed : (s.m.obj ch.val o).state = 1)
    (hwaits : (s.m.obj ch.val o).waits = []) : Answers (.collFailReceive ⟨ch, p, me, ch, src, from_⟩ ctx id inst code) s fun t =>
      FabQuiet s t ∧ SameBytes s t ∧ (t.m.fab ch.val).colls = (s.m.fab ch.val).colls.filter (fun x => x.o ≠ c.o) ∧
        t.m.obj ch.val o = { s.m.obj ch.val o with state := 2, code := peerCode code.toNat } := by
  subst hch
  have hgone := ((Dev.InChan.refl anyReg c.o.ch.val s.m).dropColl c.o).bump (k := .evfCh) (d := c.o.ch.val) (i := 0) (o := Off.EVF_COLLFAIL)
    trivial trivial 1
  change Dev.InChan anyReg c.o.ch.val _ s.m (s.m.collGone c) at hgone
  have hout : (s.m.collGone c).out = s.m.out := Dev.bump_out ..
  have hobj' : (s.m.collGone c).obj c.o.ch.val o = s.m.obj c.o.ch.val o := hgone.obj o
  have hcoll : (s.m.collGone c).collObj c.o = some o := (congrArg (Option.map SyMap.obj) (hgone.mapOf ..)).trans hobj
  have hbroken := hgone.breakObj (fun _ _ => trivial) (o := o) (fun _ _ _ => trivial) hwaits (peerCode code.toNat)
  have hsaid : ((s.m.collGone c).breakObj c.o.ch.val o (peerCode code.toNat)).out = s.m.out := by
    rw [Dev.breakObj_unawaited (by rw [hobj']; exact hwaits)]
    split
    · exact (Dev.bump_out ..).trans ((Dev.bump_out ..).trans hout)
    · exact (Dev.bump_out ..).trans hout
  have hm : s.m.collFailIn c.o.ch.val ctx.val id inst code.toNat = (s.m.collGone c).breakObj c.o.ch.val o (peerCode code.toNat) := by
    simp only [Dev.collFailIn, hfind, hdone, Bool.false_eq_true, if_false]
    rw [if_neg hme]
    exact Dev.collBreak_armed _ hcoll (by rw [hobj']; exact harmed)
  exact hbroken.answers hs ((exec_collFail hon hnode ..).trans (congrArg s.done hm)) ⟨⟨hbroken.rqt, hbroken.seqs, hbroken.tiles, hsaid⟩, hbroken.byte,
    congrArg Fab.colls hbroken.fab, (hbroken.obj o).trans (objIn_withObj_same ..)⟩

end

end

/-! ### Messages for others (R355) -/

theorem gives_away {s : State} {i : Instr} {ch node dch k : Nat} {m : FabMsg} (hs : s.m.Settled)
    (hexec : exec i s = s.done ((s.m.sendTo ch node dch (some k) m).getD s.m)) : Gives i s ((s.m.sendTo ch node dch (some k) m).getD s.m) := by
  obtain ⟨g, -, hsent⟩ := (Dev.InChan.refl anyReg ch s.m).sendToD (fun _ => trivial) node dch k m
  exact gives_inChan hsent hs hexec

section
variable {s : State} {ch : ChId} {p : PortIx} {me : Fin 32768} (hs : s.m.Settled) (hon : s.m.fabOn ch.val = true) (hnode : s.m.node = some me.val)
include hs

/-- Messages without an address that name another node or channel go on. -/
theorem gives_passedOn {w : MsgWay} (hnode : s.m.node = some me.val) (hon : s.m.fabOn w.ch.val = true) (haway : w.node ≠ me ∨ w.dstCh ≠ w.ch)
    (st tag : Nat) (status : Byte) :
    let on_ (stream : Nat) (m : FabMsg) : Dev :=
      (s.m.sendTo w.ch.val w.node.val w.dstCh.val (some (65536 + arrKey w.srcNode.val w.srcCh.val stream)) m).getD s.m
    Gives (.replyReceive w st tag status) s (on_ st (.reply w.node.val w.dstCh.val st tag status.toNat)) ∧
    Gives (.notreadyReceive ⟨w.ch, w.p, w.node, w.dstCh⟩ st ⟨w.srcNode, w.srcCh⟩) s (on_ st (.notReady w.node.val w.dstCh.val st)) ∧
    ∀ ctx : CtxId, Gives (.collFailReceive w ctx st tag status) s (on_ 0 (.collFail w.node.val w.dstCh.val ctx.val st tag status.toNat)) := by
  have haway' : w.node.val ≠ me.val ∨ w.dstCh ≠ w.ch := haway.imp_left fun h e => h (Fin.ext e)
  refine ⟨gives_away hs ?_, gives_away hs ?_, fun ctx => gives_away hs ?_⟩
  · exact (exec_only (f := fun m => m.routeWay w st (.reply w.node.val w.dstCh.val st tag status.toNat) fun m =>
      m.replyIn w.ch.val st tag status.toNat) rfl hon).trans (congrArg s.done (Dev.routeWay_away hnode haway' _ _ _))
  · exact (exec_only (f := fun m => m.routeWay w st (.notReady w.node.val w.dstCh.val st) fun m =>
      m.only (m.streamTo w.ch.val st w.srcNode.val) fun m => m.notReadyIn w.ch.val st) rfl (by rw [hon, hnode]; rfl)).trans
      (congrArg s.done (Dev.routeWay_away hnode haway' _ _ _))
  · exact (exec_only (f := fun m => m.routeWay w 0 (.collFail w.node.val w.dstCh.val ctx.val st tag status.toNat) fun m =>
      m.collFailIn w.ch.val ctx.val st tag status.toNat) rfl hon).trans (congrArg s.done (Dev.routeWay_away hnode haway' _ _ _))

include hon hnode

/-- A DIGEST waits while no signal can use it. -/
theorem gives_digestWaits {d : Digest} (hdst : d.dstCh = ch) (hflt : s.m.fltState ch.val = 0)
    (hcov : ∀ x ∈ (s.m.sync ch.val).held, s.m.covered ch.val x.sig = false) :
    Gives (.digestReceive ⟨ch, p, me, d⟩) s (s.m.modFab ch.val fun x => { x with digests := x.digests ++ [d] }) := by
  subst hdst
  set f : Fab → Fab := fun x => { x with digests := x.digests ++ [d] }
  have hkept := (Dev.InChan.refl anyReg d.dstCh.val s.m).modFab f
  have hm : s.m.digestIn d = s.m.modFab d.dstCh.val f := by
    refine (if_neg (not_not.2 hflt)).trans (Dev.releaseHeld_waits fun x hx => ?_)
    rw [hkept.sync] at hx
    rw [Dev.covered, hkept.fab]
    exact hcov x hx
  exact gives_inChan hkept hs ((exec_digest hon hnode rfl).trans (congrArg s.done hm))

/-- A DIGEST whose signal waits for it, and no other, is used at once. -/
theorem gives_digestUsed {d : Digest} {x : HeldSig} {c : Coll} (hdst : d.dstCh = ch) (hflt : s.m.fltState ch.val = 0)
    (hheld : (s.m.sync ch.val).held = [x]) (hcov : s.m.covered ch.val x.sig = true) (hnone : (s.m.fab ch.val).digests = [])
    (hcoll : s.m.collOf ch.val x.obj = some c) (hsrc : d.srcNode = x.sig.srcNode) (hch : d.srcCh = x.sig.srcCh) (hst : d.stream = x.sig.stream)
    (hmark : d.markEnd = x.sig.mark) (hid : d.collId = c.o.collId) (hinst : d.inst = c.o.inst)
    (hdigest : digestOf d (s.m.bytes (devAddr d.addr) d.len) = d.digest) :
    let a := (s.m.modFab ch.val fun x => { x with digests := x.digests ++ [d] }).modFab ch.val fun x => { x with digests := x.digests.erase d }
    let b := (a.applySig ch.val x.obj x.sig.consume x.sig.value).1.collTake c d (s.m.bytes (devAddr d.addr) d.len)
    Gives (.digestReceive ⟨ch, p, me, d⟩) s (b.modSync ch.val fun y => { y with held := y.held.erase x }).settle := by
  subst hdst
  have _ := hs
  set f : Fab → Fab := fun x => { x with digests := x.digests ++ [d] }
  have hkept := (Dev.InChan.refl anyReg d.dstCh.val s.m).modFab f
  set t := s.m.modFab d.dstCh.val f
  have hcov' : t.covered d.dstCh.val x.sig = true := by
    rw [Dev.covered, hkept.fab]
    exact hcov
  have hmap (e n k : Nat) : t.mapOf e n k = s.m.mapOf e n k := by
    by_cases he : e = d.dstCh.val
    · rw [he]
      exact hkept.mapOf n k
    · rw [Dev.mapOf, Dev.sync, hkept.others e he, ← Dev.sync, ← Dev.mapOf]
  have hobj : t.collObj = s.m.collObj := funext fun o => congrArg (Option.map _) (hmap ..)
  have hcoll' : t.collOf d.dstCh.val x.obj = some c := by
    rw [← hcoll, Dev.collOf, hkept.fab, hobj, Dev.collOf]
    rfl
  have hdigests : (t.fab d.dstCh.val).digests = [d] := by
    rw [hkept.fab]
    exact congrArg (· ++ [d]) hnone
  have htry := Dev.trySig_digest hcov' hcoll' hdigests hsrc hch hst hmark hid hinst hdigest
  have hm : s.m.digestIn d = _ := (if_neg (not_not.2 hflt)).trans (Dev.releaseHeld_one (by rw [hkept.sync]; exact hheld) htry)
  exact (exec_digest hon hnode rfl).trans (congrArg s.done hm)

end

theorem exec_readTimeout {s : State} {ch : ChId} {tag : Nat} {r : OpenRead} (hon : s.m.fabOn ch.val = true)
    (hfind : (s.m.fab ch.val).reads.find? (·.tag = tag) = some r) :
    exec (.readTimeout ch tag) s = s.done (s.m.endRead ch.val r Code.LINK) := by
  refine (exec_only (f := fun m => m.readTimeout ch.val tag) rfl hon).trans (congrArg s.done ?_)
  rw [Dev.readTimeout, hfind]

/-- Settles O56: each message by the READ, the signal or the run that it names. -/
theorem readsAndRunsEnd : Obligations.ReadsAndRunsEnd := by
  unfold Obligations.ReadsAndRunsEnd
  intro s ch p me src from_ hs hon hnode quiet way over_
  refine ⟨fun h data r hdst hch hhops hfind => ?_, fun h data haway hhops => ?_, fun w hw haway st tag status => gives_passedOn hs hnode hw haway st tag status,
    fun tag r hfind => ?_, fun tag r hfind hseq => ?_, fun y status hreads hsent => does_replySignal hs hon hnode hreads hsent,
    fun c tag hreads hsent hfind htag => gives_replyAgain hs hon hnode hreads hsent hfind htag,
    fun y status hreads hsent hseq => answers_replySignal hs hon hnode hreads hsent hseq, fun d hdst =>
      ⟨fun x c hflt hheld hcov hnone hcoll hsrc hch hst hmark hid hinst hdigest =>
        gives_digestUsed hs hon hnode hdst hflt hheld hcov hnone hcoll hsrc hch hst hmark hid hinst hdigest,
      fun hflt hcov => gives_digestWaits hs hon hnode hdst hflt hcov,
      fun hflt hheld => gives_digestWaits hs hon hnode hdst hflt (by rw [hheld]; simp), fun hflt => ?_⟩,
    fun c ctx id inst code hfind hch => ⟨fun hdone => gives_collFail_done hs hon hnode hfind hdone, fun hdone => does_collFail hs hon hnode hfind hch hdone⟩,
    fun c ctx id inst code o hfind hch hme hdone hobj harmed hwaits => answers_collFail hs hon hnode hfind hch hme hdone hobj harmed hwaits⟩
  · have hexec := exec_readResp (p := p) hon hnode data hdst hch hhops hfind
    have hreply := (exec_reply (p := p) (src := src) (from_ := from_) hon hnode h.stream h.tag h.status).trans
      (congrArg s.done (Dev.replyIn_read hfind h.status.toNat))
    refine ⟨?_, does_endRead hreply, fun hflt hok => answers_readData hs (hexec.trans (congrArg s.done ?_)), fun hseq hbad hflt => answers_endRead hs
      (hexec.trans (congrArg s.done ?_)), fun hseq => answers_endRead hs (hreply.trans (congrArg s.done (Dev.endRead_alone _ _ hseq _)))⟩
    · refine does_done hexec ?_
      by_cases hflt : s.m.fltState ch.val = 0
      · rw [if_pos hflt, if_neg (not_not.2 hflt)]
        refine readOver_of ((Dev.endRead_fab ..).trans (congrArg (readEnded · r _) (Dev.fab_of_chans ?_ _)))
        split
        · exact Dev.setBytes_chans ..
        · rfl
      · rw [if_neg hflt, if_pos hflt]
        exact readOver_of (s.m.endRead_fab ..)
    · rw [if_neg (not_not.2 hflt), if_pos hok, hok]
      exact Dev.endRead_ok ..
    · rw [if_neg (not_not.2 hflt), if_neg hbad]
      exact Dev.endRead_alone _ _ hseq _
  · exact gives_away hs ((exec_only (f := fun m => m.readRespIn ch.val p.val h data) rfl hon).trans
      (congrArg s.done (Dev.route_forward hnode haway hhops _ _)))
  · exact does_endRead (exec_readTimeout hon hfind)
  · exact answers_endRead hs ((exec_readTimeout hon hfind).trans (congrArg s.done (Dev.endRead_alone _ _ hseq _)))
  · have hm : s.m.digestIn d = s.m := if_pos (by rw [hdst]; exact hflt)
    exact gives_done hs ((exec_digest hon hnode hdst).trans (congrArg s.done hm)) rfl

end Sys2Proof.Machine
end

section
/-! A raise at any severity leaves every channel's fabric as it is: what follows an entry to the safe state comes when the command settles. -/

namespace Sys2Proof.Machine
open Sys2Proof

/-! ### Redundant actions leave the channels alone (R376, R377) -/

section
variable (s : Dev) (k : Nat)

@[simp] theorem Dev.retireTile_chans : (s.retireTile k).chans = s.chans := by
  unfold Dev.retireTile Dev.retireNow
  dsimp only
  split <;> simp

@[simp] theorem Dev.adoptSpare_chans (sp : Nat) : (s.adoptSpare k sp).chans = s.chans := by
  unfold Dev.adoptSpare
  dsimp only
  split
  · simp
  · split <;> simp

@[simp] theorem Dev.retireAdopt_chans : (s.retireAdopt k).chans = s.chans := by
  unfold Dev.retireAdopt
  dsimp only
  split
  · simp
  · split <;> simp

@[simp] theorem Dev.remapConverter_chans (conv : Nat) : (s.remapConverter k conv).chans = s.chans := by
  unfold Dev.remapConverter
  dsimp only
  split <;> simp

@[simp] theorem Dev.distrustMonitor_chans (cl : Nat) : (s.distrustMonitor cl).chans = s.chans := by
  unfold Dev.distrustMonitor
  rw [Dev.wrF_chans, Dev.modClus_chans]

end

theorem Dev.degradeTiles_chans {s u : Dev} {ch ix : Nat} {x : FltAt} (h : s.degradeTiles ch ix x = some u) : u.chans = s.chans := by
  unfold Dev.degradeTiles at h
  split at h
  · rw [← Option.some.inj h]
  · split at h
    · split at h <;> rw [← Option.some.inj h] <;> simp
    · split at h <;> rw [← Option.some.inj h] <;> simp

theorem Dev.degrade_chans {s u : Dev} {ch ix : Nat} {x : FltAt} (h : s.degrade ch ix x = some u) : u.chans = s.chans := by
  unfold Dev.degrade at h
  split at h
  · exact Dev.degradeTiles_chans h
  · split at h
    · rw [← Option.some.inj h]
      split <;> simp
    · split at h
      · rw [← Option.some.inj h]
      · split at h
        · rw [← Option.some.inj h]
          split
          · split <;> simp
          · split <;> simp
          · rfl
        · split at h
          · rw [← Option.some.inj h]
          · cases h

/-! ### Fabrics that stay -/

/-- From `s` to `t` every channel's fabric stays. -/
structure FabsAs (s t : Dev) : Prop where
  fab : ∀ d, t.fab d = s.fab d

namespace FabsAs
variable {s t u : Dev}

theorem refl (s : Dev) : FabsAs s s := ⟨fun _ => rfl⟩

theorem trans (h : FabsAs s t) (g : FabsAs t u) : FabsAs s u := ⟨fun d => (g.fab d).trans (h.fab d)⟩

theorem of_chans (h : t.chans = s.chans) : FabsAs s t := ⟨fun d => Dev.fab_of_chans h d⟩

theorem modChan (s : Dev) (ch : Nat) {f : Chan → Chan} (hf : ∀ c, (f c).fab = c.fab) : FabsAs s (s.modChan ch f) where
  fab d := by
    by_cases hd : d = ch
    · rw [hd, Dev.fab, Dev.modChan_same, hf, Dev.fab]
    · rw [Dev.fab, Dev.modChan_other _ hd, Dev.fab]

theorem logged {ch : Nat} (h : Dev.Logged ch s t) : FabsAs s t where
  fab d := by
    by_cases hd : d = ch
    · obtain ⟨r, hr⟩ := h.chan_same
      rw [hd, Dev.fab, hr, Dev.fab]
    · rw [Dev.fab, h.chan_other hd, Dev.fab]

end FabsAs

theorem Dev.contain_fabs (s : Dev) (ch cause : Nat) (forced : Bool) : FabsAs s (s.contain ch cause forced) := by
  unfold Dev.contain
  split
  · have hquiet (t : Dev) : FabsAs t (t.startQuiet ch) := .modChan t ch fun _ => rfl
    have hsafe (t : Dev) : FabsAs t ((t.bump .fltCh ch 0 Off.FLT_CONTAIN 1).safeState ch) := .of_chans (t.bump_chans ..)
    have hdue (t : Dev) : FabsAs t (t.modChan ch fun c => { c with safeDue := true, noticeDue := true }) := .modChan t ch fun _ => rfl
    exact ((FabsAs.of_chans (s.enterFlt_chans ..)).trans (hquiet _)).trans ((hsafe _).trans ((hdue _).trans (.logged (Dev.fltNotice_logged _ _))))
  · exact .modChan s ch fun _ => rfl
  · exact .refl s

theorem Dev.halt_fabs (s : Dev) (ch cause : Nat) (forced : Bool) : FabsAs s (s.halt ch cause forced) := by
  unfold Dev.halt
  split
  · exact .refl s
  · have hsafe (t : Dev) : FabsAs t ((t.bump .fltMod 0 0 Off.FLT_MOD_HALT 1).safeState ch) := .of_chans (t.bump_chans ..)
    have hdue (t : Dev) : FabsAs t (t.modChan ch fun c =>
      { c with quietDone := false, deferred := [], safeDue := true, haltDue := true, noticeDue := true }) := .modChan t ch fun _ => rfl
    exact (FabsAs.of_chans (s.enterFlt_chans ..)).trans ((hsafe _).trans ((hdue _).trans (.logged (Dev.fltNotice_logged _ _))))

theorem Dev.markTile_chans (s : Dev) (ch ix : Nat) (x : FltAt) : (s.markTile ch ix x).chans = s.chans := by
  have hmark (u : Dev) (sp : Bool) (c o : Nat) (hu : u.chans = s.chans) :
      (if sp = true then u else u.wrF .arr ch c o 5 5 1).chans = s.chans := by
    split
    · exact hu
    · exact (u.wrF_chans ..).trans hu
  unfold Dev.markTile
  split
  · split
    · refine hmark _ _ _ _ ?_
      split <;> rfl
    · rfl
  · rfl

theorem Dev.noteRaise_fabs (s : Dev) (ch ix : Nat) (forced : Bool) (x : FltAt) (data : List Nat) : FabsAs s (s.noteRaise ch ix forced x data) := by
  unfold Dev.noteRaise
  refine FabsAs.trans (.of_chans ?_) (.logged (Dev.record_logged ..))
  rw [Dev.markTile_chans]
  rfl

theorem Dev.actSev_fabs (s : Dev) (ch ix sev : Nat) (forced : Bool) (x : FltAt) : FabsAs s (s.actSev ch ix sev forced x) := by
  unfold Dev.actSev
  split
  · exact .refl s
  · split
    · exact s.contain_fabs ch ix forced
    · next u hu =>
      split
      · exact .modChan s ch fun _ => rfl
      · exact .of_chans (Dev.degrade_chans hu)
  · exact s.contain_fabs ch ix forced
  · exact s.halt_fabs ch ix forced

theorem Dev.raiseAt_fabs (s : Dev) (ch ix : Nat) (forced : Bool) (x : FltAt) (data : List Nat) : FabsAs s (s.raiseAt ch ix forced x data) := by
  unfold Dev.raiseAt
  dsimp only
  split
  · exact .refl s
  · exact (s.noteRaise_fabs ch ix forced x data).trans (Dev.actSev_fabs _ ch ix _ forced x)

end Sys2Proof.Machine
end

section
/-! What has arrived on a channel's streams stays when signals that waited for it are applied (O55). -/

namespace Sys2Proof.Machine
open Sys2Proof

/-- From `s` to `t` every channel's account of what has arrived stays. -/
structure ArrivedAs (s t : Dev) : Prop where
  arrived : ∀ d, (t.fab d).arrived = (s.fab d).arrived

namespace ArrivedAs
variable {s t u : Dev}

theorem refl (s : Dev) : ArrivedAs s s := ⟨fun _ => rfl⟩

theorem trans (h : ArrivedAs s t) (g : ArrivedAs t u) : ArrivedAs s u := ⟨fun d => (g.arrived d).trans (h.arrived d)⟩

theorem of_fabs (h : FabsAs s t) : ArrivedAs s t := ⟨fun d => congrArg Fab.arrived (h.fab d)⟩

theorem of_chans (h : t.chans = s.chans) : ArrivedAs s t := of_fabs (.of_chans h)

theorem raise (s : Dev) (ch ix : Nat) : ArrivedAs s (s.raise ch ix) := of_fabs (s.raiseAt_fabs ch ix false .none [])

theorem bump (s : Dev) (k : PageKind) (ch i o n : Nat) : ArrivedAs s (s.bump k ch i o n) := of_chans (s.bump_chans ..)

theorem modObj (s : Dev) (ch o : Nat) (f : SyObj → SyObj) : ArrivedAs s (s.modObj ch o f) :=
  of_fabs (.modChan s ch (f := fun c => withSync c (withObj c.sync o (f (objIn c.sync o)))) fun _ => rfl)

theorem modSync (s : Dev) (ch : Nat) (f : Sync → Sync) : ArrivedAs s (s.modSync ch f) :=
  of_fabs (.modChan s ch (f := fun c => withSync c (f c.sync)) fun _ => rfl)

theorem breakObj (s : Dev) (ch o code : Nat) : ArrivedAs s (s.breakObj ch o code) :=
  (modObj s ch o _).trans (of_chans (s.breakObj_chans ch o code))

/-- What acts on one channel. -/
theorem inChan {ch : Nat} {c : Chan} (h : Dev.InChan anyReg ch c s t) (hc : c.fab.arrived = (s.fab ch).arrived) : ArrivedAs s t where
  arrived d := by
    by_cases hd : d = ch
    · rw [hd, h.fab, hc]
    · rw [Dev.fab, h.others d hd, Dev.fab]

theorem modFab (s : Dev) (ch : Nat) (f : Fab → Fab) (hf : ∀ x, (f x).arrived = x.arrived) : ArrivedAs s (s.modFab ch f) :=
  inChan ((Dev.InChan.refl anyReg ch s).modFab f) (hf _)

theorem modStream (s : Dev) (ch k : Nat) (f : Stream → Stream) : ArrivedAs s (s.modStream ch k f) := modFab s ch _ fun _ => rfl

theorem dropColl (s : Dev) (ch : Nat) (o : CollOpen) : ArrivedAs s (s.dropColl ch o) := modFab s ch _ fun _ => rfl

theorem modColl (s : Dev) (ch : Nat) (o : CollOpen) (f : Coll → Coll) : ArrivedAs s (s.modColl ch o f) := modFab s ch _ fun _ => rfl

/-! ### Messages -/

theorem sent {ch : Nat} {st : Option Nat} {g : Fab} (h : Dev.InChan anyReg ch (withFab (s.chan ch) g) s t) (hg : Sent st (s.fab ch) g) :
    ArrivedAs s t := inChan h hg.arrived

theorem send (s : Dev) (ch node dch : Nat) (m : FabMsg) : ArrivedAs s (s.send ch node dch m) := by
  obtain ⟨g, hg, h⟩ := (Dev.InChan.refl anyReg ch s).send (fun _ _ => trivial) node dch m
  exact sent h hg

theorem sendStream {ch node dch k : Nat} {m : FabMsg} (h : s.sendStream ch node dch k m = some t) : ArrivedAs s t := by
  obtain ⟨g, hg, hsent⟩ := (Dev.InChan.refl anyReg ch s).sendStream (fun _ => trivial) h
  exact sent hsent hg

theorem sendWrites {ch ctx k : Nat} (n : Nat) : ∀ {s t : Dev} {dst : Word64} {data : List Byte}, s.sendWrites ch ctx k dst data n = some t →
    ArrivedAs s t := by
  induction n with
  | zero => exact fun h => Option.some.inj h ▸ refl _
  | succ n ih =>
    intro s t dst data h
    unfold Dev.sendWrites at h
    split at h
    · exact Option.some.inj h ▸ refl _
    · split at h
      · next v hv =>
        unfold Dev.sendWrite at hv
        split at hv
        · cases hv
        · obtain ⟨w, hw, rfl⟩ := Option.map_eq_some_iff.1 hv
          exact ((sendStream hw).trans (modStream w ..)).trans (ih h)
      · cases h

theorem sendColl {c : Coll} {target level : Nat} (h : s.sendColl c target level = some t) : ArrivedAs s t := by
  unfold Dev.sendColl at h
  dsimp only at h
  split at h
  · split at h
    · cases h
    · next v hv =>
      split at h
      · cases h
      · next w hw => exact ((sendWrites _ hv).trans (sendStream hw)).trans (sendStream h)
  · cases h

theorem sendCollD (s : Dev) (c : Coll) (target level : Nat) : ArrivedAs s ((s.sendColl c target level).getD s) := by
  cases h : s.sendColl c target level with
  | none => exact refl s
  | some t => exact sendColl h

/-! ### Collectives (R359 to R362) -/

theorem failAll (s : Dev) (c : Coll) (code : Nat) (ps : List Nat) : ArrivedAs s (s.failAll c code ps) := by
  obtain ⟨g, hg, h⟩ := (Dev.InChan.refl anyReg c.o.ch.val s).failAll code ps
  exact sent h hg

theorem collBreak (s : Dev) (c : Coll) (code : Nat) : ArrivedAs s (s.collBreak c code) := by
  have hgone : ArrivedAs s ((s.dropColl c.o.ch.val c.o).evfBump c.o.ch.val Off.EVF_COLLFAIL 1) := (dropColl s ..).trans (bump _ ..)
  unfold Dev.collBreak
  dsimp only
  split
  · split
    · exact hgone.trans (breakObj _ ..)
    · exact hgone
  · exact hgone

theorem noticeRoot (s : Dev) (c : Coll) (code : Nat) : ArrivedAs s (s.noticeRoot c code) := by
  unfold Dev.noticeRoot
  split
  · unfold Dev.rootFail
    split
    · exact refl s
    · exact (failAll s c code _).trans (collBreak _ c code)
  · split
    · exact send ..
    · exact refl s

theorem releaseColl (s : Dev) (c : Coll) : ArrivedAs s (s.releaseColl c) := by
  unfold Dev.releaseColl
  dsimp only
  have hput : ArrivedAs s (s.putNode c.o.core.ix (c.o.key.at 4) ⟨0, [], c.val⟩) := of_chans rfl
  have hgo (ls : List Nat) : ∀ t, ArrivedAs t (ls.foldl (fun s l => (s.sendColl c (c.me + 2 ^ l) 15).getD s) t) := by
    induction ls with
    | nil => exact fun t => refl t
    | cons l ls ih => exact fun t => (sendCollD t c _ _).trans (ih _)
  exact ((hput.trans (bump _ ..)).trans (modColl _ ..)).trans (hgo _ _)

theorem countMerges (s : Dev) (k : Nat) (key : NodeKey) (n : Nat) (m : Merged) : ArrivedAs s (s.countMerges k key n m) := by
  have hlong (t : Dev) (ch ctx layer n : Nat) : ArrivedAs t (t.markLong ch ctx layer n) := by
    unfold Dev.markLong
    dsimp only
    have hcount : ArrivedAs t ((t.wrF .accCh ch 0 Off.ACC_CH_STA 0 0 1).bump .accCh ch 0 Off.ACC_XUNB n) := (of_chans (t.wrF_chans ..)).trans (bump _ ..)
    have hkey (u : Dev) (key : Nat) : ArrivedAs u (u.modChan ch fun x => { x with longSum := key :: x.longSum }) :=
      of_fabs (.modChan u ch fun _ => rfl)
    split
    · exact refl t
    · split
      · exact (hcount.trans (hkey ..)).trans (raise ..)
      · exact hcount
  unfold Dev.countMerges
  dsimp only
  split
  · exact (bump s ..).trans (bump _ ..)
  · exact (bump s ..).trans (hlong ..)
  · exact bump s ..

theorem collStep (n : Nat) : ∀ (s : Dev) (c : Coll), ArrivedAs s (s.collStep c n) := by
  induction n with
  | zero => exact fun s c => modColl ..
  | succ n ih =>
    intro s c
    unfold Dev.collStep
    split
    · exact modColl ..
    · split
      · exact (countMerges s _ _ _ _).trans (ih _ _)
      · exact modColl ..
    · split
      · exact modColl ..
      · split
        · exact releaseColl s c
        · split
          · next u hu => exact (sendColl hu).trans (modColl ..)
          · exact collBreak s c _

theorem collTake (s : Dev) (c : Coll) (d : Digest) (data : List Byte) : ArrivedAs s (s.collTake c d data) := by
  unfold Dev.collTake
  dsimp only
  split
  · exact releaseColl ..
  · exact collStep ..

theorem collReject (s : Dev) (c : Coll) (d : Digest) : ArrivedAs s (s.collReject c d) := by
  have hnoted : ArrivedAs s ((s.evfBump c.o.ch.val Off.EVF_DIGEST 1).raise c.o.ch.val 70) := (bump s ..).trans (raise ..)
  unfold Dev.collReject
  dsimp only
  split
  · exact hnoted.trans (noticeRoot ..)
  · split
    · exact (hnoted.trans (modColl ..)).trans (send ..)
    · exact (hnoted.trans (failAll ..)).trans (collBreak ..)

/-! ### Signals that wait -/

theorem applySig (s : Dev) (ch o : Nat) (consume : Bool) (value : Nat) : ArrivedAs s (s.applySig ch o consume value).1 := by
  have hbroken (ix : Nat) : ArrivedAs s ((s.breakObj ch o Code.RANGE).raise ch ix) := (breakObj s ..).trans (raise ..)
  have hcounted (f g : SyObj → SyObj) : ArrivedAs s (((s.modObj ch o f).syBump ch Off.SYN_SIG 1).modObj ch o g) :=
    ((modObj s ..).trans (bump _ ..)).trans (modObj ..)
  unfold Dev.applySig
  dsimp only
  split
  · exact bump s ..
  · split
    · exact hbroken 63
    · split
      · exact hbroken 64
      · exact hcounted _ fun x => { x with waits := x.waits.map fun w => if w.threshold ≤ x.count then { w with met := true } else w }

theorem trySig (s : Dev) (ch o : Nat) (g : RemoteSignal) : ArrivedAs s (s.trySig ch o g).1 := by
  have htaken (c : Coll) (d : Digest) (data : List Byte) (f : Fab → Fab) (hf : ∀ x, (f x).arrived = x.arrived) :
      ArrivedAs s (((s.modFab ch f).applySig ch o g.consume g.value).1.collTake c d data) :=
    ((modFab s ch f hf).trans (applySig ..)).trans (collTake ..)
  have hrejected (c : Coll) (d : Digest) (f : Fab → Fab) (hf : ∀ x, (f x).arrived = x.arrived) : ArrivedAs s ((s.modFab ch f).collReject c d) :=
    (modFab s ch f hf).trans (collReject ..)
  unfold Dev.trySig
  split
  · exact refl s
  · split
    · exact applySig ..
    · dsimp only
      split
      · exact refl s
      · split
        · exact htaken _ _ _ _ fun _ => rfl
        · exact hrejected _ _ _ fun _ => rfl

/-- Signals that were held leave what has arrived as it is (R335, R337). -/
theorem releaseHeld (s : Dev) (ch : Nat) : ArrivedAs s (s.releaseHeld ch) := by
  unfold Dev.releaseHeld
  generalize (s.sync ch).held = l
  induction l generalizing s with
  | nil => exact refl s
  | cons x l ih =>
    rw [List.foldl_cons]
    refine ArrivedAs.trans ?_ (ih _)
    split
    · have h := trySig s ch x.obj x.sig
      cases htry : s.trySig ch x.obj x.sig with
      | mk v done =>
        rw [htry] at h
        dsimp only
        split
        · exact h.trans (modSync ..)
        · exact h
    · exact refl s

end ArrivedAs

end Sys2Proof.Machine
end

section
/-! A fabric source that is raised at any severity: its sticky bit is set, and only registers of the collector, of the fault pages and of the
recorder change. -/

namespace Sys2Proof.Machine
open Sys2Proof

/-- From `s` to `t` registers outside `R` keep their words. -/
structure RegsAs (R : Nat → Prop) (s t : Dev) : Prop where
  reg : ∀ a, ¬ R a → t.reg a = s.reg a

namespace RegsAs
variable {R : Nat → Prop} {s t u : Dev}

theorem refl (R : Nat → Prop) (s : Dev) : RegsAs R s s := ⟨fun _ _ => rfl⟩

theorem of_regs (R : Nat → Prop) (h : t.regs = s.regs) : RegsAs R s t := ⟨fun _ _ => by rw [Dev.reg, h, Dev.reg]⟩

theorem trans (h : RegsAs R s t) (g : RegsAs R t u) : RegsAs R s u := ⟨fun a ha => (g.reg a ha).trans (h.reg a ha)⟩

theorem wr (s : Dev) {k : PageKind} {ch i o : Nat} (ha : R (pageOff k ch i o)) (w : Word) : RegsAs R s (s.wr k ch i o w) :=
  ⟨fun b hb => Dev.wr_reg_other _ (fun e : b = _ => hb (e ▸ ha)) w⟩

theorem bump (s : Dev) {k : PageKind} {ch i o : Nat} (hlo : R (pageOff k ch i o)) (hhi : R (pageOff k ch i (o + 4))) (n : Nat) :
    RegsAs R s (s.bump k ch i o n) := ⟨fun _ ha => Dev.bump_reg_other _ (fun e => ha (e ▸ hlo)) fun e => ha (e ▸ hhi)⟩

theorem logged {ch : Nat} (h : Dev.Logged ch s t) (hr : ∀ a, recRegs ch a → R a) : RegsAs R s t := ⟨fun a ha => h.reg a fun h => ha (hr a h)⟩

theorem rd (h : RegsAs R s t) {k : PageKind} {ch i o : Nat} (ha : ¬ R (pageOff k ch i o)) : t.rd k ch i o = s.rd k ch i o := h.reg _ ha

end RegsAs

/-- The registers that a change of a channel's fault state writes: the fault pages and the recorder. -/
def fltRegs (ch a : Nat) : Prop := inPage .fltCh ch 0 a ∨ inPage .fltMod 0 0 a ∨ recRegs ch a

section
variable (s : Dev) (ch ix : Nat)

theorem fltRegs_ch {ch o : Nat} (ho : o < 0x1000) : fltRegs ch (pageOff .fltCh ch 0 o) := by
  refine .inl ⟨?_, ?_⟩ <;> simp only [pageOff] <;> omega

theorem fltRegs_mod {ch o : Nat} (ho : o < 0x1000) : fltRegs ch (pageOff .fltMod 0 0 o) := by
  refine .inr (.inl ⟨?_, ?_⟩) <;> simp only [pageOff] <;> omega

theorem RegsAs.fltNotice : RegsAs (fltRegs ch) s (s.fltNotice ch) := .logged (Dev.fltNotice_logged s ch) fun _ h => .inr (.inr h)

theorem RegsAs.enterFlt (st cause : Nat) (forced : Bool) : RegsAs (fltRegs ch) s (s.enterFlt ch st cause forced) := by
  have hone (o : Nat) (ho : o < 0x1000) (t : Dev) (w : Word) : RegsAs (fltRegs ch) t (t.wr .fltCh ch 0 o w) := .wr t (fltRegs_ch ho) w
  exact ((hone Off.FLT_STA (by decide) _ _).trans (hone Off.FLT_TENTER (by decide) _ _)).trans (hone (Off.FLT_TENTER + 4) (by decide) _ _)

theorem RegsAs.contain (forced : Bool) : RegsAs (fltRegs ch) s (s.contain ch ix forced) := by
  have hcount (t : Dev) : RegsAs (fltRegs ch) t (t.bump .fltCh ch 0 Off.FLT_CONTAIN 1) := .bump t (fltRegs_ch (by decide)) (fltRegs_ch (by decide)) 1
  have hdue (t : Dev) : RegsAs (fltRegs ch) t ((t.safeState ch).modChan ch fun c => { c with safeDue := true, noticeDue := true }) := .of_regs _ rfl
  have hquiet (t : Dev) : RegsAs (fltRegs ch) t (t.startQuiet ch) := .of_regs _ rfl
  unfold Dev.contain
  split
  · exact (((RegsAs.enterFlt ..).trans (hquiet _)).trans (hcount _)).trans ((hdue _).trans (.fltNotice _ ch))
  · exact hquiet s
  · exact .refl _ s

theorem RegsAs.halt (forced : Bool) : RegsAs (fltRegs ch) s (s.halt ch ix forced) := by
  have hcount (t : Dev) : RegsAs (fltRegs ch) t (t.bump .fltMod 0 0 Off.FLT_MOD_HALT 1) := .bump t (fltRegs_mod (by decide)) (fltRegs_mod (by decide)) 1
  have hdue (t : Dev) : RegsAs (fltRegs ch) t ((t.safeState ch).modChan ch fun c =>
    { c with quietDone := false, deferred := [], safeDue := true, haltDue := true, noticeDue := true }) := .of_regs _ rfl
  unfold Dev.halt
  split
  · exact .refl _ s
  · exact ((RegsAs.enterFlt ..).trans (hcount _)).trans ((hdue _).trans (.fltNotice _ ch))

/-- What degrades at a source of the fabric changes nothing more (R346, R377). -/
theorem Dev.degrade_fabric {u : Dev} {x : FltAt} (hix : 67 ≤ ix ∧ ix < 76) (h : s.degrade ch ix x = some u) : u = s := by
  unfold Dev.degrade at h
  rw [if_neg (by simp; omega), if_neg (by omega), if_neg (by omega), if_neg (by omega)] at h
  split at h
  · exact (Option.some.inj h).symm
  · cases h

theorem RegsAs.actSev (sev : Nat) (forced : Bool) (x : FltAt) (hix : 67 ≤ ix ∧ ix < 76) : RegsAs (fltRegs ch) s (s.actSev ch ix sev forced x) := by
  unfold Dev.actSev
  split
  · exact .refl _ s
  · split
    · exact .contain ..
    · next u hu =>
      rw [s.degrade_fabric ch ix hix hu]
      split
      · exact .of_regs _ rfl
      · exact .refl _ s
  · exact .contain ..
  · exact .halt ..

end

/-! ### Sources of the fabric (R370, R373) -/

/-- The fabric's pages are none of them. -/
theorem not_fltRegs_evf {ch d o : Nat} {k : PageKind} (hk : k = .evfCh ∧ d = ch ∨ k = .evfMod ∧ d = 0) (ho : o < 0x1000) : ¬ fltRegs ch (pageOff k d 0 o) := by
  rcases hk with ⟨rfl, rfl⟩ | ⟨rfl, rfl⟩ <;>
    simp only [fltRegs, inPage, recRegs, pageOff, Page.base, chanWin, Off.EVR_REC, Off.EVR_SUPP] <;> omega

section
variable {ch ix : Nat} (hix : 67 ≤ ix ∧ ix < 76)
include hix

theorem collector_fabric : collector ix = (.evfCh, ix - 67) := by
  obtain ⟨hlo, hhi⟩ := hix
  interval_cases ix <;> rfl

/-- The port that a source of the fabric names tells nothing more. -/
theorem Dev.noteRaise_port (s : Dev) (forced : Bool) (p : PortIx) (data : List Nat) :
    s.noteRaise ch ix forced (.port p) data = s.noteRaise ch ix forced .none data := by
  have hmark (t : Dev) (x : FltAt) : t.markTile ch ix x = t := if_neg (by omega)
  unfold Dev.noteRaise
  dsimp only
  rw [hmark, hmark]

/-- A source of the fabric that is raised acts by its severity, once it has been counted and recorded. -/
theorem Dev.raiseAt_fabric (s : Dev) (x : FltAt) (hx : x = .none ∨ ∃ p, x = .port p) (data : List Nat) :
    s.raiseAt ch ix false x data = ((s.pageMark .evfCh ch (ix - 67)).record ch ⟨1 + ix, 0, ix, 8, false, false, data⟩).actSev ch ix (s.sevOf ch ix) false x := by
  have hnote : s.noteRaise ch ix false x data = (s.pageMark .evfCh ch (ix - 67)).record ch ⟨1 + ix, 0, ix, 8, false, false, data⟩ := by
    have hnone : s.noteRaise ch ix false x data = s.noteRaise ch ix false .none data := by
      obtain rfl | ⟨p, rfl⟩ := hx
      · rfl
      · exact s.noteRaise_port hix ..
    rw [hnone, Dev.noteRaise_none, collector_fabric hix]
  have hsrc : PageKind.evfCh.nsrc = 9 := rfl
  rw [← hnote, Dev.raiseAt, collector_fabric hix]
  exact if_neg (by omega)

/-- A raised source of the fabric shows in its page, and leaves the words of other registers alone. -/
theorem Dev.raiseAt_fabric_reg (s : Dev) (x : FltAt) (hx : x = .none ∨ ∃ p, x = .port p) (data : List Nat) :
    RegsAs (fun a => raiseRegs ch ix a ∨ fltRegs ch a) s (s.raiseAt ch ix false x data) ∧
      bit ((s.raiseAt ch ix false x data).rd .evfCh ch 0 Off.PG_FLT) (ix - 67) = true := by
  rw [s.raiseAt_fabric hix x hx]
  set m := s.pageMark .evfCh ch (ix - 67) with hm
  have hraised {o : Nat} (ho : o = Off.PG_FLT ∨ o = Off.PG_CNT) : raiseRegs ch ix (pageOff .evfCh ch 0 o) := by
    unfold raiseRegs
    rw [collector_fabric hix]
    exact ho.elim (fun e => .inl (e ▸ rfl)) fun e => .inr (.inl (e ▸ rfl))
  have hact := RegsAs.actSev (m.record ch ⟨1 + ix, 0, ix, 8, false, false, data⟩) ch ix (s.sevOf ch ix) false x hix
  have hlog : RegsAs (fltRegs ch) m (m.record ch ⟨1 + ix, 0, ix, 8, false, false, data⟩) := .logged (Dev.record_logged ..) fun _ h => .inr (.inr h)
  have hkept := hlog.trans hact
  refine ⟨RegsAs.trans ?_ ⟨fun a ha => hkept.reg a fun h => ha (.inr h)⟩, ?_⟩
  · exact (RegsAs.wr s (.inl (hraised (.inl rfl))) _).trans (.wr _ (.inl (hraised (.inr rfl))) _)
  · rw [hkept.rd (not_fltRegs_evf (.inl ⟨rfl, rfl⟩) (by decide)), hm]
    exact s.pageMark_bit .evfCh ch (by omega)

omit hix in
theorem Dev.actSev_record (s : Dev) (forced : Bool) (x : FltAt) : s.actSev ch ix 0 forced x = s := rfl

/-- At RECORD the port that it names makes no difference. -/
theorem Dev.raiseAt_port {s : Dev} (hr : s.Records ch ix) (p : PortIx) (data : List Nat) :
    s.raiseAt ch ix false (.port p) data = s.raiseAt ch ix false .none data := by
  have hsev : s.sevOf ch ix = 0 := hr
  rw [s.raiseAt_fabric hix _ (.inr ⟨p, rfl⟩), s.raiseAt_fabric hix _ (.inl rfl), hsev, Dev.actSev_record, Dev.actSev_record]

theorem not_raiseRegs_evfMod {o : Nat} (ho : o < 0x1000) : ¬ raiseRegs ch ix (pageOff .evfMod 0 0 o) := by
  simp only [raiseRegs, collector_fabric hix, pageOff, Page.base, chanWin, Off.PG_FLT, Off.PG_CNT, Off.EVR_REC, Off.EVR_SUPP]
  omega

end

end Sys2Proof.Machine
end

section
/-! WRITEs and READs of other nodes (O55): the way of a message, refusals, and what a lent range takes. -/

namespace Sys2Proof.Machine
open Sys2Proof

/-! ### Records that tell no one (R485, R503) -/

theorem Dev.record_out (s : Dev) (ch : Nat) {e : Ev} (h : e.priv = false) : (s.record ch e).out = s.out := by
  unfold Dev.record Dev.writeRec
  dsimp only
  split
  · rw [if_neg (by rw [h]; simp), Dev.bump_out]
    rfl
  · rw [Dev.bump_out]
    rfl

theorem Dev.raiseAt_out {s : Dev} {ch ix : Nat} (hr : s.Records ch ix) (hix : ix < 96) (hn : (collector ix).2 < (collector ix).1.nsrc) (forced : Bool)
    (data : List Nat) : (s.raiseAt ch ix forced .none data).out = s.out := by
  rw [Dev.raiseAt_record hr hix hn]
  exact Dev.record_out _ ch rfl

/-! ### Units that wake (R313) -/

/-- A channel with other power states of its memory units. -/
def withPd (c : Chan) (m : Store Pd) : Chan := { c with memPd := m }

/-- An access wakes the unit that it finds in power-down: nothing else of the channel changes. -/
theorem Dev.wakeUnit_inChan (s : Dev) (ch a : Nat) : ∃ m, Dev.InChan (inPage .spdCh ch 0) ch (withPd (s.chan ch) m) s (s.wakeUnit ch a) := by
  have hsame : ∃ m, Dev.InChan (inPage .spdCh ch 0) ch (withPd (s.chan ch) m) s s := ⟨(s.chan ch).memPd, .refl _ ch s⟩
  have hreg {o : Nat} (ho : o < 0x1000) : inPage .spdCh ch 0 (pageOff .spdCh ch 0 o) := by
    simp only [inPage, pageOff]
    omega
  unfold Dev.wakeUnit
  dsimp only
  split
  · exact hsame
  · split
    · have hset := (Dev.InChan.refl (inPage .spdCh ch 0) ch s).modChan (fun c => withPd c (c.memPd.set Pd.up (Config.memUnit a) Pd.up))
        (fun _ => rfl) fun _ => rfl
      exact ⟨_, hset.bump (k := .spdCh) (d := ch) (i := 0) (o := Off.SPD_WAKE) (hreg (by decide)) (hreg (by decide)) 1⟩
    · exact hsame

theorem not_inPage_spd {ch o d : Nat} {k : PageKind} (hk : k = .fltCh ∧ d = ch ∨ k = .pwrCh ∧ d = ch ∨ k = .evfCh ∧ d = ch ∨ k = .evfMod ∧ d = 0)
    (ho : o < 0x1000) : ¬ inPage .spdCh ch 0 (pageOff k d 0 o) := by
  rcases hk with ⟨rfl, rfl⟩ | ⟨rfl, rfl⟩ | ⟨rfl, rfl⟩ | ⟨rfl, rfl⟩ <;> simp only [inPage, pageOff, Page.base, chanWin] <;> omega

theorem Dev.InChan.mono {R Q : Nat → Prop} {ch : Nat} {c : Chan} {s t : Dev} (h : Dev.InChan R ch c s t) (hq : ∀ a, R a → Q a) : Dev.InChan Q ch c s t :=
  ⟨h.shape, fun a ha => h.reg a fun hr => ha (hq a hr), h.chan, h.others, h.settled⟩

/-- What the module has written at an address follows from the frames' holders, sequences, contexts and the node ID. -/
theorem Dev.metaUnit_congr {s t : Dev} (hmems : t.mems = s.mems) (hseqs : t.seqs = s.seqs) (hctxs : t.ctxs = s.ctxs) (hnode : t.node = s.node)
    (a : Nat) : t.metaUnit a = s.metaUnit a := by
  have hseq (r : Nat) : t.seq r = s.seq r := by rw [Dev.seq, hseqs, Dev.seq]
  have hmem (d : Nat) : t.memOf d = s.memOf d := by rw [Dev.memOf, hmems, Dev.memOf]
  have hpat (r : Nat) : t.seqPat r = s.seqPat r := by
    rw [Dev.seqPat, Dev.seqPat, hseq, Dev.patOf, Dev.patOf, Dev.ctx, Dev.ctx, hctxs]
  have hleaf (r ptr e : Nat) : t.leafEntry r ptr e = s.leafEntry r ptr e := by
    unfold Dev.leafEntry
    rw [hseq, hpat]
  have hdir (r o : Nat) : t.dirUnit r o = s.dirUnit r o := by
    unfold Dev.dirUnit
    simp only [hseq, hmem]
  have hentry (e : PtEntry) : t.entryBytes e = s.entryBytes e := by
    unfold Dev.entryBytes Dev.globalOf
    rw [hnode]
  unfold Dev.metaUnit Dev.logAt
  simp only [hmem, hdir, hleaf, hentry, hseqs, hseq]

/-- The bytes of memory, with what the module has written there, stay where one channel's record and registers change. -/
theorem Dev.InChan.viewBytes {R : Nat → Prop} {ch : Nat} {c : Chan} {s t : Dev} (h : Dev.InChan R ch c s t) (hnode : t.node = s.node)
    (a n : Nat) : t.viewBytes a n = s.viewBytes a n := by
  have htamper : t.tamper = s.tamper := by rw [h.shape]
  have hmeta := Dev.metaUnit_congr (s := s) (t := t) (by rw [h.shape]) h.seqs (by rw [h.shape]) hnode
  unfold Dev.viewBytes Dev.viewByte Dev.unitNow
  simp only [hmeta, htamper, h.byte]

/-! ### Messages that act on the fabric alone -/

/-- From `s` to `t` one channel's fabric has acted: its sync unit and all that serves stay. -/
def Dev.OnFabric (ch : Nat) (s t : Dev) : Prop := ∃ c, c.sync = s.sync ch ∧ Dev.InChan anyReg ch c s t

namespace Dev.OnFabric
variable {ch : Nat} {s t : Dev}

theorem refl (ch : Nat) (s : Dev) : Dev.OnFabric ch s s := ⟨_, rfl, .refl _ ch s⟩

theorem bump (h : Dev.OnFabric ch s t) (k : PageKind) (d i o n : Nat) : Dev.OnFabric ch s (t.bump k d i o n) := by
  obtain ⟨c, hc, h⟩ := h
  exact ⟨c, hc, h.bump trivial trivial n⟩

theorem modFab (h : Dev.OnFabric ch s t) (f : Fab → Fab) : Dev.OnFabric ch s (t.modFab ch f) := by
  obtain ⟨c, hc, h⟩ := h
  exact ⟨withFab c (f c.fab), hc, h.modFab f⟩

theorem raise (h : Dev.OnFabric ch s t) {ix : Nat} (hrec : t.Records ch ix) (hix : ix < 96) (hn : (collector ix).2 < (collector ix).1.nsrc) :
    Dev.OnFabric ch s (t.raise ch ix) := by
  obtain ⟨c, hc, h⟩ := h
  exact ⟨c, hc, h.raiseAt hrec hix hn (fun _ _ => trivial) false []⟩

theorem send (h : Dev.OnFabric ch s t) (node dch : Nat) (m : FabMsg) : Dev.OnFabric ch s (t.send ch node dch m) := by
  obtain ⟨c, hc, h⟩ := h
  obtain ⟨g, -, hsent⟩ := h.send (fun _ _ => trivial) node dch m
  exact ⟨withFab c g, hc, hsent⟩

theorem sendToD (h : Dev.OnFabric ch s t) (node dch k : Nat) (m : FabMsg) : Dev.OnFabric ch s ((t.sendTo ch node dch (some k) m).getD t) := by
  obtain ⟨c, hc, h⟩ := h
  obtain ⟨g, -, hsent⟩ := h.sendToD (fun _ => trivial) node dch k m
  exact ⟨withFab c g, hc, hsent⟩

theorem sendOn (h : Dev.OnFabric ch s t) {p : Nat} (hp : p < 8) (m : FabMsg) : Dev.OnFabric ch s (t.sendOn ch p m) := by
  obtain ⟨c, hc, h⟩ := h
  obtain ⟨g, -, hsent⟩ := h.sendOn (fun _ _ => trivial) hp m
  exact ⟨withFab c g, hc, hsent⟩

/-- A module without an ID answers, or counts what it does not answer (R358). -/
theorem notReady (s : Dev) (ch : Nat) {p : Nat} (hp : p < 8) (node src stream : Nat) : Dev.OnFabric ch s (s.notReady ch p node src stream) := by
  unfold Dev.notReady
  dsimp only
  split
  · exact ((refl ch s).modFab _).bump ..
  · exact (((refl ch s).modFab _).sendOn hp _).bump ..

/-- A refusal goes back, with REM_REJECT counted and raised where the range was not lent (R354). -/
theorem refused (s : Dev) (ch : Nat) (h : MsgHdr) {code : Nat} (hrec : code = Code.TENANT → s.Records ch 72) :
    Dev.OnFabric ch s ((if code = Code.TENANT then (s.evfBump ch Off.EVF_REMREJ 1).raise ch 72 else s).refuse ch h code) := by
  refine send ?_ ..
  split
  · next hcode => exact ((refl ch s).bump ..).raise ((hrec hcode).bump .evfCh ch 0 (o := Off.EVF_REMREJ) (by decide) (by decide) 1) (by decide) (by decide)
  · exact refl ch s

/-- The way of a message (R350, R355, R358). -/
theorem route {p : Nat} (hp : p < 8) {h : MsgHdr} {m : MsgHdr → FabMsg} {take : Dev → Dev}
    (hhop : s.node.isSome = true → h.hops.val = 15 → s.Records ch 75)
    (htake : s.node = some (addrNode h.dst) → addrCh h.dst = ch → h.hops.val ≠ 15 → Dev.OnFabric ch s (take s)) :
    Dev.OnFabric ch s (s.route ch p h m take) := by
  unfold Dev.route
  split
  · exact notReady s ch hp ..
  · next n hn =>
    split
    · next h15 =>
      have hrec := (hhop (by rw [hn]; rfl) h15).bump .evfCh ch 0 (o := Off.EVF_HOPDROP) (by decide) (by decide) 1
      exact ((refl ch s).bump ..).raise hrec (by decide) (by decide)
    · next h15 =>
      split
      · next hhere => exact htake (hhere.1 ▸ hn) hhere.2 h15
      · exact (refl ch s).sendToD ..

end Dev.OnFabric

/-- The table, sequences, tiles and the channel's sync unit stay. -/
def FabFrame (s : State) (ch : Nat) (t : State) : Prop :=
  t.m.rqt = s.m.rqt ∧ t.m.seqs = s.m.seqs ∧ t.m.tiles = s.m.tiles ∧ t.m.sync ch = s.m.sync ch

theorem answers_onFabric {i : Instr} {s : State} {ch : Nat} {m : Dev} (hs : s.m.Settled) (hexec : exec i s = s.done m) (h : Dev.OnFabric ch s.m m)
    {P : State → Prop} (hp : P { s with m := m }) : Answers i s fun t => FabFrame s ch t ∧ SameBytes s t ∧ P t := by
  obtain ⟨c, hc, h⟩ := h
  exact h.answers hs hexec ⟨⟨h.rqt, h.seqs, h.tiles, h.sync.trans hc⟩, h.byte, hp⟩

end Sys2Proof.Machine
end

section
/-! WRITEs and READs of other nodes (O55), clause by clause. -/

namespace Sys2Proof.Machine
open Sys2Proof

/-! ### A WRITE that is taken (R353, R354) -/

/-- A fabric with what has arrived from one source. -/
def withArrived (f : Fab) (key : Nat) (x : Arrived) : Fab := { f with arrived := f.arrived.set Arrived.fresh key x }

/-- The bytes of a WRITE stored and counted as arrived, before signals that waited for them. -/
def Dev.writeTaken (s : Dev) (ch a key : Nat) (now : Arrived) (early : Bool) (data : List Byte) : Dev :=
  let u := ((s.wakeUnit ch a).setBytes a data).modFab ch fun x => withArrived x key now
  if early then u.evfBump ch Off.EVF_REORD 1 else u

/-- What a WRITE that is taken leaves. -/
structure Dev.Took (s : Dev) (ch a key : Nat) (now : Arrived) (data : List Byte) (t : Dev) : Prop where
  rqt : t.rqt = s.rqt
  seqs : t.seqs = s.seqs
  tiles : t.tiles = s.tiles
  sync : t.sync ch = s.sync ch
  fab : t.fab ch = withArrived (s.fab ch) key now
  byte : ∀ x, t.byte x = if a ≤ x ∧ x < a + data.length then nth 0 data (x - a) else s.byte x
  settled : s.Settled → t.Settled

theorem Dev.writeTaken_took (s : Dev) (ch a key : Nat) (now : Arrived) (early : Bool) (data : List Byte) :
    Dev.Took s ch a key now data (s.writeTaken ch a key now early data) := by
  obtain ⟨m, hwake⟩ := s.wakeUnit_inChan ch a
  set u := (s.wakeUnit ch a).setBytes a data with hu
  have harrived := (Dev.InChan.refl anyReg ch u).modFab fun x => withArrived x key now
  have hall : Dev.InChan anyReg ch (withFab (u.chan ch) (withArrived (u.chan ch).fab key now)) u (s.writeTaken ch a key now early data) := by
    unfold Dev.writeTaken
    dsimp only
    rw [← hu]
    split
    · exact harrived.bump (k := .evfCh) (d := ch) (i := 0) (o := Off.EVF_REORD) trivial trivial 1
    · exact harrived
  have hchans : u.chans = (s.wakeUnit ch a).chans := Dev.setBytes_chans ..
  have hsync : u.sync ch = s.sync ch := (Dev.sync_of_chans hchans ch).trans hwake.sync
  have hfab : u.fab ch = s.fab ch := (Dev.fab_of_chans hchans ch).trans hwake.fab
  exact {
    rqt := hall.rqt.trans ((Dev.setBytes_rqt ..).trans hwake.rqt)
    seqs := hall.seqs.trans ((Dev.setBytes_seqs ..).trans hwake.seqs)
    tiles := hall.tiles.trans ((Dev.setBytes_tiles ..).trans hwake.tiles)
    sync := hall.sync.trans hsync
    fab := hall.fab.trans (congrArg (withArrived · key now) hfab)
    byte := fun x => by rw [hall.byte, hu, Dev.setBytes_byte, hwake.byte]
    settled := fun hs => hall.settled ((hwake.settled hs).of_chans hchans) }

/-- Whether a signal's data have come follows from what has arrived (R335). -/
theorem Dev.covered_congr {s t : Dev} {ch : Nat} (h : (t.fab ch).arrived = (s.fab ch).arrived) (g : RemoteSignal) :
    t.covered ch g = s.covered ch g := by
  unfold Dev.covered
  rw [h]

/-! ### What a message meets -/

/-- A WRITE, with the rule by which its bytes join what has arrived. -/
def Dev.writeBy (s : Dev) (arrive : Arrived → Nat → Nat → Arrived × Bool) (ch p : Nat) (h : MsgHdr) (data : List Byte) : Dev :=
  s.route ch p h (fun h => .write h data) fun s =>
    match s.refusal ch h data.length with
    | some code =>
      let s := if code = Code.TENANT then (s.evfBump ch Off.EVF_REMREJ 1).raise ch 72 else s
      s.refuse ch h code
    | none =>
      let s := (s.wakeUnit ch (devAddr h.dst)).setBytes (devAddr h.dst) data
      let key := arrKey h.srcNode.val h.srcCh.val h.stream
      let (a, early) := arrive ((s.fab ch).arrived.get Arrived.fresh key) h.offset data.length
      let s := s.modFab ch fun x => { x with arrived := x.arrived.set Arrived.fresh key a }
      (if early then s.evfBump ch Off.EVF_REORD 1 else s).releaseHeld ch

theorem Dev.writeIn_eq (s : Dev) (ch p : Nat) (h : MsgHdr) (data : List Byte) : s.writeIn ch p h data = s.writeBy arriveBytes ch p h data := rfl

section
variable {s : Dev} {ch p : Nat} {h : MsgHdr} (hnode : s.node = some (addrNode h.dst)) (hch : addrCh h.dst = ch) (hhops : h.hops.val ≠ 15)
include hnode hch hhops

theorem Dev.writeIn_refused {data : List Byte} {code : Nat} (href : s.refusal ch h data.length = some code) : s.writeIn ch p h data =
    (if code = Code.TENANT then (s.evfBump ch Off.EVF_REMREJ 1).raise ch 72 else s).refuse ch h code := by
  rw [Dev.writeIn, Dev.route_here hnode hch hhops, href]

theorem Dev.readIn_refused {code : Nat} (href : s.refusal ch h h.len = some code) : s.readIn ch p h =
    (if code = Code.TENANT then (s.evfBump ch Off.EVF_REMREJ 1).raise ch 72 else s).refuse ch h code := by
  rw [Dev.readIn, Dev.route_here hnode hch hhops, href]

theorem Dev.writeBy_taken {data : List Byte} {arrive : Arrived → Nat → Nat → Arrived × Bool} {now : Arrived} {early : Bool}
    (href : s.refusal ch h data.length = none)
    (hnow : arrive ((s.fab ch).arrived.get Arrived.fresh (arrKey h.srcNode.val h.srcCh.val h.stream)) h.offset data.length = (now, early)) :
    s.writeBy arrive ch p h data = (s.writeTaken ch (devAddr h.dst) (arrKey h.srcNode.val h.srcCh.val h.stream) now early data).releaseHeld ch := by
  obtain ⟨m, hwake⟩ := s.wakeUnit_inChan ch (devAddr h.dst)
  have hfab : ((s.wakeUnit ch (devAddr h.dst)).setBytes (devAddr h.dst) data).fab ch = s.fab ch :=
    (Dev.fab_of_chans (Dev.setBytes_chans ..) ch).trans hwake.fab
  rw [Dev.writeBy, Dev.route_here hnode hch hhops]
  simp only [href, hfab, hnow]
  rfl

theorem Dev.writeIn_taken {data : List Byte} (href : s.refusal ch h data.length = none) :
    let key := arrKey h.srcNode.val h.srcCh.val h.stream
    let r := arriveBytes ((s.fab ch).arrived.get Arrived.fresh key) h.offset data.length
    s.writeIn ch p h data = (s.writeTaken ch (devAddr h.dst) key r.1 r.2 data).releaseHeld ch :=
  (s.writeIn_eq ..).trans (Dev.writeBy_taken hnode hch hhops href (Prod.mk.eta).symm)

end

section
variable {s : Dev} {ch : Nat}

theorem Dev.hopDropped {p n : Nat} {h : MsgHdr} (hnode : s.node = some n) (hhops : h.hops.val = 15) (m : MsgHdr → FabMsg) (take : Dev → Dev) :
    s.route ch p h m take = (s.evfBump ch Off.EVF_HOPDROP 1).raise ch 75 := by
  rw [Dev.route, hnode]
  exact if_pos hhops

/-- A source of the fabric that is raised leaves memory and the table, and its bit is set. -/
theorem Dev.raised_fabric (s : Dev) (ch : Nat) {ix : Nat} (hix : 67 ≤ ix ∧ ix < 76) : s.Signalled (s.raise ch ix) ∧
    bit ((s.raise ch ix).rd .evfCh ch 0 Off.PG_FLT) (ix - 67) = true := ⟨s.raise_signalled ch ix, (s.raiseAt_fabric_reg hix .none (.inl rfl) []).2⟩

theorem Dev.bump_signalled (s : Dev) (k : PageKind) (ch i o n : Nat) : s.Signalled (s.bump k ch i o n) :=
  (Dev.Signalled.raiseKeeps s).bump k ch i o n (.refl s)

/-- REM_REJECT is counted and raised, and the refusal goes back. -/
theorem Dev.rejected (s : Dev) (ch : Nat) (h : MsgHdr) :
    let t := ((s.evfBump ch Off.EVF_REMREJ 1).raise ch 72).refuse ch h Code.TENANT
    (∀ a, t.byte a = s.byte a) ∧ t.rqt = s.rqt ∧ bit (t.rd .evfCh ch 0 Off.PG_FLT) 5 = true := by
  intro t
  have hcount := s.bump_signalled .evfCh ch 0 Off.EVF_REMREJ 1
  obtain ⟨hraise, hbit⟩ := (s.evfBump ch Off.EVF_REMREJ 1).raised_fabric ch (ix := 72) (by decide)
  set u := (s.evfBump ch Off.EVF_REMREJ 1).raise ch 72
  obtain ⟨g, -, hsent⟩ := (Dev.InChan.refl (txReg ch) ch u).send (fun _ h => h) h.srcNode.val h.srcCh.val
    (.reply h.srcNode.val h.srcCh.val h.stream h.tag Code.TENANT)
  refine ⟨fun a => (hsent.byte a).trans ((hraise.byte a).trans (hcount.byte a)), hsent.rqt.trans (hraise.table.rqt.trans hcount.table.rqt), ?_⟩
  exact (congrArg (bit · 5) (hsent.reg _ fun h => absurd (txReg_offset (by decide) h) (by decide))).trans hbit

/-- HOP_LIMIT is counted and raised. -/
theorem Dev.hopLimited (s : Dev) (ch : Nat) :
    let t := (s.evfBump ch Off.EVF_HOPDROP 1).raise ch 75
    (∀ a, t.byte a = s.byte a) ∧ t.rqt = s.rqt ∧ bit (t.rd .evfCh ch 0 Off.PG_FLT) 8 = true := by
  intro t
  have hcount := s.bump_signalled .evfCh ch 0 Off.EVF_HOPDROP 1
  obtain ⟨hraise, hbit⟩ := (s.evfBump ch Off.EVF_HOPDROP 1).raised_fabric ch (ix := 75) (by decide)
  exact ⟨fun a => (hraise.byte a).trans (hcount.byte a), hraise.table.rqt.trans hcount.table.rqt, hbit⟩

end

end Sys2Proof.Machine
end

section
/-! Accesses of other nodes are checked (O55): the statement. -/

namespace Sys2Proof.Machine
open Sys2Proof

section
variable {s : State} {ch : ChId} {p : PortIx} {h : MsgHdr} {data : List Byte}

theorem exec_write (hon : s.m.fabOn ch.val = true) :
    exec (.fabricWriteReceive ch p h data) s = s.done (s.m.writeIn ch.val p.val h data) :=
  exec_only (f := fun m => m.writeIn ch.val p.val h data) rfl hon

theorem exec_read (hon : s.m.fabOn ch.val = true) :
    exec (.fabricReadReceive ch p h) s = s.done (s.m.readIn ch.val p.val h) :=
  exec_only (f := fun m => m.readIn ch.val p.val h) rfl hon

/-- A WRITE that is not taken acts on the fabric alone. -/
theorem Dev.OnFabric.writeIn (hhop : s.m.node.isSome = true → h.hops.val = 15 → s.m.Records ch.val 75)
    (hrefused : s.m.node = some (addrNode h.dst) → addrCh h.dst = ch.val → h.hops.val ≠ 15 →
      ∃ code, s.m.refusal ch.val h data.length = some code ∧ (code = Code.TENANT → s.m.Records ch.val 72)) :
    Dev.OnFabric ch.val s.m (s.m.writeIn ch.val p.val h data) := by
  refine Dev.OnFabric.route p.isLt hhop fun hnode hch hhops => ?_
  obtain ⟨code, href, hrec⟩ := hrefused hnode hch hhops
  rw [href]
  exact .refused s.m ch.val h hrec

/-- A READ acts on the fabric, and may wake the memory that it reads. -/
theorem Dev.OnFabric.readIn (hhop : s.m.node.isSome = true → h.hops.val = 15 → s.m.Records ch.val 75)
    (hrefused : s.m.node = some (addrNode h.dst) → addrCh h.dst = ch.val → h.hops.val ≠ 15 →
      s.m.refusal ch.val h h.len = some Code.TENANT → s.m.Records ch.val 72) :
    Dev.OnFabric ch.val s.m (s.m.readIn ch.val p.val h) := by
  refine Dev.OnFabric.route p.isLt hhop fun hnode hch hhops => ?_
  cases href : s.m.refusal ch.val h h.len with
  | some code => exact .refused s.m ch.val h fun hcode => hrefused hnode hch hhops (hcode ▸ href)
  | none =>
    obtain ⟨m, hwake⟩ := s.m.wakeUnit_inChan ch.val (devAddr h.dst)
    have hwoken : Dev.OnFabric ch.val s.m (s.m.wakeUnit ch.val (devAddr h.dst)) := ⟨withPd (s.m.chan ch.val) m, rfl, hwake.mono fun _ _ => trivial⟩
    exact hwoken.send ..

end

/-! ### A READ that is taken (R350) -/

theorem Dev.refusal_none {s : Dev} {ch len : Nat} {h : MsgHdr} (href : s.refusal ch h len = none) : s.fltState ch = 0 := by
  by_contra hflt
  rw [Dev.refusal, if_pos hflt] at href
  cases href

/-- A message without a stream leaves at once on an UP port of its route that has nothing to send. -/
theorem Dev.send_out {s : Dev} {ch node dch mask q : Nat} {m : FabMsg} (hon : s.fabOn ch = true) (hflt : s.fltState ch = 0)
    (hmask : s.routeMask ch node dch = some mask) (hq : s.choosePort ch mask (msgVc m) = some q) (hport : s.port ch q = { Port.fresh with state := 3 })
    (hfit : msgGranules m ≤ 64) (hcred : msgGranules m ≤ nth 0 Port.fresh.credits (msgVc m)) :
    (s.send ch node dch m).out = s.out ++ [.fabric ch (some q) m] := by
  have hsend : s.send ch node dch m = s.queueMsg ch q none m := by
    have hopen : (!s.fabOn ch || (s.fltState ch ≠ 0 && !maintenance m)) = false := by simp [hon, hflt]
    unfold Dev.send Dev.sendTo
    rw [if_neg (by rw [hopen]; decide)]
    simp only [hmask, Option.getD_some, hq, Option.none_or]
  rw [hsend]
  exact Dev.queueMsg_out (by rw [hport]) (by rw [hport]; rfl) (by rw [hport]; decide) none hfit (by rw [hport]; exact hcred)

section
variable {s t : Dev} {ch : Nat}

theorem Dev.choosePort_congr (hport : ∀ p, t.port ch p = s.port ch p) (hctl : t.rd .evfCh ch 0 Off.EVF_CTL = s.rd .evfCh ch 0 Off.EVF_CTL)
    (mask vc : Nat) : t.choosePort ch mask vc = s.choosePort ch mask vc := by
  have hports : t.port ch = s.port ch := funext hport
  unfold Dev.choosePort Dev.rdF
  rw [hports, hctl]

theorem Dev.routeMask_congr (hnode : t.node = s.node) (hfab : t.fab ch = s.fab ch) (hsib : ∀ n, n < 8 →
    t.rd .evfCh ch 0 (Off.EVF_SIB + 4 * n) = s.rd .evfCh ch 0 (Off.EVF_SIB + 4 * n)) (node : Nat) {dch : Nat} (hdch : dch < 8) :
    t.routeMask ch node dch = s.routeMask ch node dch := by
  unfold Dev.routeMask
  simp only [hnode, hfab, Dev.rdF, hsib dch hdch, hsib 0 (by decide)]

theorem Dev.wakeUnit_out (s : Dev) (ch a : Nat) : (s.wakeUnit ch a).out = s.out := by
  unfold Dev.wakeUnit
  dsimp only
  split
  · rfl
  · split
    · exact Dev.bump_out ..
    · rfl

/-- What waking a memory unit leaves of the fabric. -/
structure Dev.Woke (ch : Nat) (s t : Dev) : Prop where
  node : t.node = s.node
  fab : t.fab ch = s.fab ch
  evf : ∀ o, o < 0x1000 → t.rd .evfCh ch 0 o = s.rd .evfCh ch 0 o
  flt : t.fltState ch = s.fltState ch
  on : t.fabOn ch = s.fabOn ch
  view : ∀ a n, t.viewBytes a n = s.viewBytes a n
  settled : s.Settled → t.Settled

theorem Dev.wakeUnit_woke (s : Dev) (ch a : Nat) : Dev.Woke ch s (s.wakeUnit ch a) := by
  obtain ⟨m, h⟩ := s.wakeUnit_inChan ch a
  set t := s.wakeUnit ch a
  have hrd {k : PageKind} {d o : Nat} (hk : k = .fltCh ∧ d = ch ∨ k = .pwrCh ∧ d = ch ∨ k = .evfCh ∧ d = ch ∨ k = .evfMod ∧ d = 0) (ho : o < 0x1000) :
      t.rd k d 0 o = s.rd k d 0 o := h.reg _ (not_inPage_spd hk ho)
  have hnode : t.node = s.node := by rw [Dev.node, hrd (.inr (.inr (.inr ⟨rfl, rfl⟩))) (by decide), Dev.node]
  have hvin : t.vin = s.vin := by rw [h.shape]
  exact {
    node := hnode
    fab := h.fab
    evf := fun o ho => hrd (.inr (.inr (.inl ⟨rfl, rfl⟩))) ho
    flt := by rw [Dev.fltState, Dev.rdF, hrd (.inl ⟨rfl, rfl⟩) (by decide), Dev.fltState, Dev.rdF]
    on := by rw [Dev.fabOn, Dev.cstate, Dev.rdF, hvin, hrd (.inr (.inl ⟨rfl, rfl⟩)) (by decide), Dev.fabOn, Dev.cstate, Dev.rdF]
    view := h.viewBytes hnode
    settled := h.settled }

/-- The READ response that a lent range answers. -/
def readBack (h : MsgHdr) (data : List Byte) : FabMsg :=
  .readResp { h with dst := BitVec.ofNat 64 (h.srcNode.val * 2 ^ 49 + h.srcCh.val * 2 ^ 46), hops := 0, status := 0 } data

theorem Dev.readIn_taken {p : Nat} {h : MsgHdr} (hnode : s.node = some (addrNode h.dst)) (hch : addrCh h.dst = ch) (hhops : h.hops.val ≠ 15)
    (href : s.refusal ch h h.len = none) : s.readIn ch p h = (s.wakeUnit ch (devAddr h.dst)).send ch h.srcNode.val h.srcCh.val
      (readBack h (s.viewBytes (devAddr h.dst) h.len)) := by
  rw [Dev.readIn, Dev.route_here hnode hch hhops]
  simp only [href, (s.wakeUnit_woke ch (devAddr h.dst)).view]
  rfl

end

section
variable {s : State} {ch : ChId} {p : PortIx} {h : MsgHdr} {data : List Byte} (hs : s.m.Settled) (hon : s.m.fabOn ch.val = true)
  (hnode : s.m.node = some (addrNode h.dst)) (hch : addrCh h.dst = ch.val) (hhops : h.hops.val ≠ 15)
include hs hon hnode hch hhops

theorem gives_readTaken (href : s.m.refusal ch.val h h.len = none) : Gives (.fabricReadReceive ch p h) s ((s.m.wakeUnit ch.val (devAddr h.dst)).send
    ch.val h.srcNode.val h.srcCh.val (readBack h (s.m.viewBytes (devAddr h.dst) h.len))) := by
  have hwoke := s.m.wakeUnit_woke ch.val (devAddr h.dst)
  obtain ⟨g, -, hsent⟩ := (Dev.InChan.refl anyReg ch.val (s.m.wakeUnit ch.val (devAddr h.dst))).send (fun _ _ => trivial) h.srcNode.val h.srcCh.val
    (readBack h (s.m.viewBytes (devAddr h.dst) h.len))
  exact ((exec_read hon).trans (congrArg s.done (Dev.readIn_taken hnode hch hhops href))).trans (s.done_of_settled (hsent.settled (hwoke.settled hs)))

theorem answers_readOut {m q : Nat} (href : s.m.refusal ch.val h h.len = none) (hlen : h.len ≤ 2016)
    (hmask : s.m.routeMask ch.val h.srcNode.val h.srcCh.val = some m) (hq : s.m.choosePort ch.val m 1 = some q)
    (hport : s.m.port ch.val q = { Port.fresh with state := 3 }) : Answers (.fabricReadReceive ch p h) s fun t =>
      t.m.out = s.m.out ++ [.fabric ch.val (some q) (readBack h (s.m.viewBytes (devAddr h.dst) h.len))] := by
  have hwoke := s.m.wakeUnit_woke ch.val (devAddr h.dst)
  set t := s.m.wakeUnit ch.val (devAddr h.dst) with ht
  set msg := readBack h (s.m.viewBytes (devAddr h.dst) h.len) with hmsg
  have hports (n : Nat) : t.port ch.val n = s.m.port ch.val n := congrArg (portIn · n) hwoke.fab
  have hfit : msgGranules msg ≤ 64 := by
    simp [hmsg, readBack, msgGranules, Dev.viewBytes, ceilDiv]
    omega
  have hroute : t.routeMask ch.val h.srcNode.val h.srcCh.val = some m :=
    (Dev.routeMask_congr hwoke.node hwoke.fab (fun n hn => hwoke.evf _ (by simp only [Off.EVF_SIB]; omega)) _ h.srcCh.isLt).trans hmask
  have hchoice : t.choosePort ch.val m 1 = some q := (Dev.choosePort_congr hports (hwoke.evf _ (by decide)) m 1).trans hq
  have hout := Dev.send_out (m := msg) (hwoke.on.trans hon) (hwoke.flt.trans (Dev.refusal_none href)) hroute hchoice ((hports q).trans hport) hfit
    (hfit.trans (show 64 ≤ nth 0 Port.fresh.credits 1 by decide))
  exact ⟨_, gives_readTaken hs hon hnode hch hhops href, hout.trans (congrArg (· ++ _) (Dev.wakeUnit_out ..))⟩

omit hs hon in
theorem Dev.writeIn_took (href : s.m.refusal ch.val h data.length = none) :
    let key := arrKey h.srcNode.val h.srcCh.val h.stream
    ∃ t, Dev.Took s.m ch.val (devAddr h.dst) key (arriveBytes ((s.m.fab ch.val).arrived.get Arrived.fresh key) h.offset data.length).1 data t ∧
      s.m.writeIn ch.val p.val h data = t.releaseHeld ch.val :=
  ⟨_, s.m.writeTaken_took .., Dev.writeIn_taken hnode hch hhops href⟩

omit hs in
/-- What a WRITE brings joins what has arrived on its stream. -/
theorem does_writeTaken (href : s.m.refusal ch.val h data.length = none) :
    let key := arrKey h.srcNode.val h.srcCh.val h.stream
    Does (.fabricWriteReceive ch p h data) s fun t => (t.m.fab ch.val).arrived.get Arrived.fresh key =
      (arriveBytes ((s.m.fab ch.val).arrived.get Arrived.fresh key) h.offset data.length).1 := by
  intro key
  obtain ⟨t, htook, hin⟩ := Dev.writeIn_took (p := p) hnode hch hhops href
  refine does_done ((exec_write hon).trans (congrArg s.done hin)) ?_
  refine (congrArg (Store.get Arrived.fresh key) ((ArrivedAs.releaseHeld t ch.val).arrived ch.val)).trans ?_
  rw [htook.fab]
  exact Store.get_set_same ..

/-- Its bytes are stored, and signals that still wait stay. -/
theorem answers_writeTaken (href : s.m.refusal ch.val h data.length = none) :
    let key := arrKey h.srcNode.val h.srcCh.val h.stream
    let now := (arriveBytes ((s.m.fab ch.val).arrived.get Arrived.fresh key) h.offset data.length).1
    let after := s.m.modFab ch.val fun x => withArrived x key now
    (∀ x ∈ (s.m.sync ch.val).held, after.covered ch.val x.sig = false) → Answers (.fabricWriteReceive ch p h data) s fun t => FabFrame s ch.val t ∧
      (∀ x, t.m.byte x = if devAddr h.dst ≤ x ∧ x < devAddr h.dst + data.length then nth 0 data (x - devAddr h.dst) else s.m.byte x) ∧
      ∀ k, (t.m.fab ch.val).arrived.get Arrived.fresh k = if k = key then now else (s.m.fab ch.val).arrived.get Arrived.fresh k := by
  intro key now after hcov
  obtain ⟨t, htook, hin⟩ := Dev.writeIn_took (p := p) hnode hch hhops href
  have hafter : after.fab ch.val = withArrived (s.m.fab ch.val) key now := ((Dev.InChan.refl anyReg ch.val s.m).modFab fun x => withArrived x key now).fab
  have hsame (g : RemoteSignal) : t.covered ch.val g = after.covered ch.val g :=
    Dev.covered_congr (congrArg Fab.arrived (htook.fab.trans hafter.symm)) g
  have hwaits : t.releaseHeld ch.val = t := Dev.releaseHeld_waits fun x hx => (hsame x.sig).trans (hcov x (htook.sync ▸ hx))
  refine answers_done ((exec_write hon).trans (congrArg s.done (hin.trans hwaits))) (htook.settled hs)
    ⟨⟨htook.rqt, htook.seqs, htook.tiles, htook.sync⟩, htook.byte, fun k => ?_⟩
  rw [htook.fab]
  split
  · next hk => rw [hk]; exact Store.get_set_same ..
  · next hk => exact Store.get_set_other _ hk ..

end

theorem Answers.framed {i : Instr} {s : State} {ch : Nat} {P : State → Prop} (h : Answers i s fun t => FabFrame s ch t ∧ SameBytes s t ∧ P t) :
    Answers i s fun t => FabFrame s ch t ∧ SameBytes s t := by
  obtain ⟨t, ht, hframe, hbytes, -⟩ := h
  exact ⟨t, ht, hframe, hbytes⟩

/-- Settles O55: a message is forwarded, discarded, refused, or taken where its range was lent. -/
theorem remoteAccessesAreChecked : Obligations.RemoteAccessesAreChecked := by
  unfold Obligations.RemoteAccessesAreChecked
  intro s ch p h data hs hon here frame a key now after hop
  have hwrite (hact : Dev.OnFabric ch.val s.m (s.m.writeIn ch.val p.val h data)) :=
    (answers_onFabric (P := fun _ => True) hs (exec_write hon) hact trivial).framed
  have hread (hact : Dev.OnFabric ch.val s.m (s.m.readIn ch.val p.val h)) :=
    (answers_onFabric (P := fun _ => True) hs (exec_read hon) hact trivial).framed
  have hboth {Q : Instr → Prop} (hw : Q (.fabricWriteReceive ch p h data)) (hr : Q (.fabricReadReceive ch p h)) :
      ∀ c ∈ [Instr.fabricWriteReceive ch p h data, .fabricReadReceive ch p h], Q c := by simpa using ⟨hw, hr⟩
  refine ⟨fun ⟨hnode, hch, hhops⟩ href => does_writeTaken hon hnode hch hhops href, fun code ⟨_, _, hhops⟩ href hcode => ?_,
    fun code ⟨_, _, hhops⟩ href hcode => ?_, fun haway hlow => ?_, fun ⟨hnode, hhops⟩ => ?_, fun ⟨hnode, hch, hhops⟩ href => ?_,
    fun ⟨hnode, hch, hhops⟩ href => ?_, fun ⟨hnode, hch, hhops⟩ href => gives_readTaken hs hon hnode hch hhops href,
    fun ⟨hnode, hch, hhops⟩ href hcov => answers_writeTaken hs hon hnode hch hhops href hcov, fun hrej hlim hcase => ?_,
    fun hrej ⟨hnode, hch, hhops⟩ href => ?_, fun hlim hnode hhops => ?_, fun hrej hlim => ?_,
    fun m q ⟨hnode, hch, hhops⟩ href hlen hmask hq hport => answers_readOut hs hon hnode hch hhops href hlen hmask hq hport⟩
  · exact hwrite (.writeIn (fun _ h15 => absurd h15 hhops) fun _ _ _ => ⟨code, href, fun e => absurd e hcode⟩)
  · exact hread (.readIn (fun _ h15 => absurd h15 hhops) fun _ _ _ hten => absurd (Option.some.inj (href.symm.trans hten)) hcode)
  · exact hboth (hwrite (.writeIn (fun hnode h15 => absurd ⟨hnode, h15⟩ hlow) fun hnode hch hhops => absurd ⟨hnode, hch, hhops⟩ haway))
      (hread (.readIn (fun hnode h15 => absurd ⟨hnode, h15⟩ hlow) fun hnode hch hhops _ => absurd ⟨hnode, hch, hhops⟩ haway))
  · obtain ⟨n, hn⟩ := Option.isSome_iff_exists.1 hnode
    have hdrop := Dev.hopLimited s.m ch.val
    exact hboth (does_done ((exec_write hon).trans (congrArg s.done (Dev.hopDropped hn hhops ..))) hdrop)
      (does_done ((exec_read hon).trans (congrArg s.done (Dev.hopDropped hn hhops ..))) hdrop)
  · exact does_done ((exec_write hon).trans (congrArg s.done (Dev.writeIn_refused hnode hch hhops href))) (Dev.rejected s.m ch.val h)
  · exact does_done ((exec_read hon).trans (congrArg s.done (Dev.readIn_refused hnode hch hhops href))) (Dev.rejected s.m ch.val h)
  · refine hwrite (.writeIn (fun _ _ => hlim) fun hnode hch hhops => ?_)
    obtain ⟨code, href⟩ := Option.isSome_iff_exists.1 (hcase.resolve_left (not_not.2 ⟨hnode, hch, hhops⟩))
    exact ⟨code, href, fun _ => hrej⟩
  · obtain ⟨-, -, hbit⟩ := Dev.rejected s.m ch.val h
    have hact : Dev.OnFabric ch.val s.m (s.m.writeIn ch.val p.val h data) :=
      .writeIn (fun _ h15 => absurd h15 hhops) fun _ _ _ => ⟨Code.TENANT, href, fun _ => hrej⟩
    obtain ⟨c, -, hchan⟩ := hact
    refine hchan.answers hs (exec_write hon) ?_
    rw [Dev.writeIn_refused hnode hch hhops href]
    exact hbit
  · obtain ⟨n, hn⟩ := Option.isSome_iff_exists.1 hnode
    obtain ⟨-, -, hbit⟩ := Dev.hopLimited s.m ch.val
    have hrec := hlim.bump .evfCh ch.val 0 (o := Off.EVF_HOPDROP) (by decide) (by decide) 1
    have hout := (Dev.raiseAt_out hrec (by decide) (by decide) false []).trans (Dev.bump_out ..)
    have hact : Dev.OnFabric ch.val s.m ((s.m.evfBump ch.val Off.EVF_HOPDROP 1).raise ch.val 75) :=
      ((Dev.OnFabric.refl ch.val s.m).bump ..).raise hrec (by decide) (by decide)
    have hlost (i : Instr) (hexec : exec i s = s.done ((s.m.evfBump ch.val Off.EVF_HOPDROP 1).raise ch.val 75)) := 
      answers_onFabric (P := fun t => t.m.out = s.m.out ∧ bit (t.m.rd .evfCh ch.val 0 Off.PG_FLT) 8 = true) hs hexec hact ⟨hout, hbit⟩
    exact hboth (hlost _ ((exec_write hon).trans (congrArg s.done (Dev.hopDropped hn hhops ..))))
      (hlost _ ((exec_read hon).trans (congrArg s.done (Dev.hopDropped hn hhops ..))))
  · exact hread (.readIn (fun _ _ => hlim) fun _ _ _ _ => hrej)

end Sys2Proof.Machine
end

section
/-! What the module says on the ports of all its channels, and its node ID (R346, R356, R357). -/

namespace Sys2Proof.Machine
open Sys2Proof

/-- A channel with other ports. -/
def withPorts (c : Chan) (ports : Store Port) : Chan := withFab c { c.fab with ports := ports }

/-- From `s` to `t` messages have left on ports of the channels: of the channels, ports and recorders have changed; beside them only registers of
`R`, the notices of controllers and what has left the module. -/
structure Dev.Spoke (R : Nat → Prop) (s t : Dev) : Prop where
  shape : t = { s with out := t.out, regs := t.regs, chans := t.chans, mgts := t.mgts, ticket := t.ticket }
  reg : ∀ a, ¬ R a → t.reg a = s.reg a
  chan : ∀ j, ∃ ports r, t.chan j = { withPorts (s.chan j) ports with evr := r }
  settled : s.Settled → t.Settled

/-- The registers that count what the channels' ports send. -/
def txRegs (a : Nat) : Prop := ∃ ch, ch < 8 ∧ txReg ch a

theorem txRegs_evfMod {o : Nat} (ho : o < 0x1000) : ¬ txRegs (pageOff .evfMod 0 0 o) := by
  rintro ⟨ch, -, p, hp, h | h⟩ <;> simp only [pageOff, Page.base, chanWin, Off.EVF_TXFLIT] at h <;> omega

theorem txRegs_evfCh {ch o : Nat} (ho : o < 0x200) : ¬ txRegs (pageOff .evfCh ch 0 o) := by
  rintro ⟨c, hc, p, hp, h | h⟩ <;> simp only [pageOff, Page.base, chanWin, Off.EVF_TXFLIT] at h <;> omega

namespace Dev.Spoke
variable {R : Nat → Prop} {s t u : Dev}

theorem refl (R : Nat → Prop) (s : Dev) : Dev.Spoke R s s := ⟨rfl, fun _ _ => rfl, fun _ => ⟨_, _, rfl⟩, id⟩

theorem trans (h : Dev.Spoke R s t) (g : Dev.Spoke R t u) : Dev.Spoke R s u where
  shape := by rw [g.shape, h.shape]
  reg a ha := (g.reg a ha).trans (h.reg a ha)
  chan j := by
    obtain ⟨_, _, e⟩ := h.chan j
    obtain ⟨ports, r, e'⟩ := g.chan j
    exact ⟨ports, r, by rw [e', e]; rfl⟩
  settled hs := g.settled (h.settled hs)

theorem mono {Q : Nat → Prop} (h : Dev.Spoke R s t) (hq : ∀ a, R a → Q a) : Dev.Spoke Q s t :=
  ⟨h.shape, fun a ha => h.reg a fun hr => ha (hq a hr), h.chan, h.settled⟩

theorem wr (s : Dev) {k : PageKind} {d i o : Nat} (ha : R (pageOff k d i o)) (w : Word) : Dev.Spoke R s (s.wr k d i o w) :=
  ⟨rfl, fun b hb => Dev.wr_reg_other _ (fun e : b = _ => hb (e ▸ ha)) w, fun _ => ⟨_, _, rfl⟩, id⟩

theorem bump (s : Dev) {k : PageKind} {d i o : Nat} (hlo : R (pageOff k d i o)) (hhi : R (pageOff k d i (o + 4))) (n : Nat) :
    Dev.Spoke R s (s.bump k d i o n) := by
  obtain ⟨regs, e⟩ := s.bump_eq_regs k d i o n
  exact ⟨by rw [e], fun a ha => Dev.bump_reg_other _ (fun e => ha (e ▸ hlo)) fun e => ha (e ▸ hhi), fun _ => ⟨_, _, by rw [e]; rfl⟩,
    fun hs => hs.of_chans (by rw [e])⟩

theorem inChan {ch p : Nat} {g : Fab} (h : Dev.InChan R ch (withFab (s.chan ch) g) s t) (hg : Pumped p (s.fab ch) g) : Dev.Spoke R s t where
  shape := h.shape
  reg := h.reg
  chan j := by
    by_cases hj : j = ch
    · obtain ⟨ports, rfl⟩ := hg.shape
      obtain ⟨r, hr⟩ := h.chan
      exact ⟨ports, r, by rw [hj, hr]; rfl⟩
    · exact ⟨(s.fab j).ports, (s.chan j).evr, by rw [h.others j hj]; rfl⟩
  settled := h.settled

variable (h : Dev.Spoke R s t)
include h

theorem rqt : t.rqt = s.rqt := by rw [h.shape]
theorem seqs : t.seqs = s.seqs := by rw [h.shape]
theorem tiles : t.tiles = s.tiles := by rw [h.shape]
theorem ctxs : t.ctxs = s.ctxs := by rw [h.shape]
theorem byte (a : Nat) : t.byte a = s.byte a := by rw [Dev.byte, h.shape, Dev.byte]
theorem time : t.time = s.time := by rw [h.shape]
theorem plank : t.plank = s.plank := by rw [h.shape]
theorem ftime : t.ftime = s.ftime := by rw [h.shape]
theorem anyLoaded : t.anyLoaded = s.anyLoaded := by rw [Dev.anyLoaded, h.ctxs, Dev.anyLoaded]
theorem rd {k : PageKind} {d i o : Nat} (ha : ¬ R (pageOff k d i o)) : t.rd k d i o = s.rd k d i o := h.reg _ ha

theorem routes (c : Nat) : (t.fab c).routes = (s.fab c).routes := by
  obtain ⟨_, _, e⟩ := h.chan c
  rw [Dev.fab, e]
  rfl

end Dev.Spoke

/-! ### HELLO on every port (R346) -/

section
variable (s : Dev)

theorem Dev.sendOn_spoke {ch p : Nat} (hch : ch < 8) (hp : p < 8) (m : FabMsg) : Dev.Spoke txRegs s (s.sendOn ch p m) := by
  obtain ⟨g, hg, h⟩ := (Dev.InChan.refl txRegs ch s).sendOn (fun a ha => ⟨ch, hch, ha⟩) hp m
  exact .inChan h hg

theorem Dev.foldl_spoke {α : Type} {f : Dev → α → Dev} (l : List α) (hf : ∀ a ∈ l, ∀ t, Dev.Spoke txRegs t (f t a)) : Dev.Spoke txRegs s (l.foldl f s) := by
  induction l generalizing s with
  | nil => exact .refl _ s
  | cons a l ih => exact (hf a (.head _) s).trans (ih _ fun b hb => hf b (.tail _ hb))

theorem Dev.helloModule_spoke : Dev.Spoke txRegs s s.helloModule :=
  s.foldl_spoke _ fun _ hch t => t.foldl_spoke _ fun _ hp u =>
    u.sendOn_spoke (List.mem_range.1 hch) (List.mem_range.1 (List.mem_filter.1 hp).1) _

end

/-! ### The node ID (R356) -/

/-- The node ID and what is said about it. -/
def nodeRegs (a : Nat) : Prop := a = pageOff .evfMod 0 0 Off.EVF_NODE ∨ txRegs a

/-- The ID that a word of EVF_NODE tells. -/
def nodeOf (w : Word) : Option Nat := if bit w 15 then some (fld w 14 0) else none

theorem Dev.node_eq (s : Dev) : s.node = nodeOf (s.rd .evfMod 0 0 Off.EVF_NODE) := rfl

theorem nodeOf_named (w : Word) {n : Nat} (hn : n < 32768) : nodeOf (setFld (setFld w 14 0 n) 15 15 1) = some n := by
  have hvalid : bit (setFld (setFld w 14 0 n) 15 15 1) 15 = true := by
    rw [bit_setFld _ (by decide) (by decide), if_pos (by decide)]
    rfl
  rw [nodeOf, if_pos hvalid, fld_setFld_apart _ (by decide) (by decide) (.inr (by decide)), fld_setFld_same _ (by decide) (by decide)]
  exact congrArg some (Nat.mod_eq_of_lt hn)

section
variable {s : Dev} {n : Nat}

/-- The ID becomes valid, and neighbours hear of it. -/
theorem Dev.setNode_spoke (hn : n < 32768) : Dev.Spoke nodeRegs s (s.setNode n) ∧ (s.setNode n).node = some n := by
  unfold Dev.setNode
  dsimp only
  split
  · next h => exact ⟨.refl _ s, h⟩
  · set t := s.wr .evfMod 0 0 Off.EVF_NODE (setFld (setFld (s.rd .evfMod 0 0 Off.EVF_NODE) 14 0 n) 15 15 1) with ht
    have hhello := t.helloModule_spoke
    refine ⟨(Dev.Spoke.wr s (.inl rfl) _).trans (hhello.mono fun _ h => .inr h), ?_⟩
    rw [Dev.node_eq, hhello.rd (txRegs_evfMod (by decide)), ht, Dev.wr_rd_same]
    exact nodeOf_named _ hn

end

end Sys2Proof.Machine
end

section
/-! Node IDs, chain enumeration and routes (O58). -/

namespace Sys2Proof.Machine
open Sys2Proof

/-- Memory, the table, sequences, tiles and contexts stay. -/
def ModQuiet (s t : State) : Prop := SameBytes s t ∧ t.m.rqt = s.m.rqt ∧ t.m.seqs = s.m.seqs ∧ t.m.tiles = s.m.tiles ∧ t.m.ctxs = s.m.ctxs

/-- From `s` to `t` the channels' records have changed; beside them only registers of `R`, the notices of controllers and what has left the
module. -/
structure Dev.Linked (R : Nat → Prop) (s t : Dev) : Prop where
  shape : t = { s with out := t.out, regs := t.regs, chans := t.chans, mgts := t.mgts, ticket := t.ticket }
  reg : ∀ a, ¬ R a → t.reg a = s.reg a
  settled : s.Settled → t.Settled

theorem Dev.Spoke.linked {R : Nat → Prop} {s t : Dev} (h : Dev.Spoke R s t) : Dev.Linked R s t := ⟨h.shape, h.reg, h.settled⟩

theorem Dev.InChan.linked {R : Nat → Prop} {ch : Nat} {c : Chan} {s t : Dev} (h : Dev.InChan R ch c s t) : Dev.Linked R s t := ⟨h.shape, h.reg, h.settled⟩

namespace Dev.Linked
variable {R Q : Nat → Prop} {s t u : Dev}

theorem trans (h : Dev.Linked R s t) (g : Dev.Linked R t u) : Dev.Linked R s u :=
  ⟨by rw [g.shape, h.shape], fun a ha => (g.reg a ha).trans (h.reg a ha), fun hs => g.settled (h.settled hs)⟩

theorem mono (h : Dev.Linked R s t) (hq : ∀ a, R a → Q a) : Dev.Linked Q s t := ⟨h.shape, fun a ha => h.reg a fun hr => ha (hq a hr), h.settled⟩

theorem quiet (h : Dev.Linked R s t) (q : List Instr) : ModQuiet ⟨q, s⟩ ⟨q, t⟩ := by
  refine ⟨fun a => ?_, ?_, ?_, ?_, ?_⟩
  · show t.byte a = s.byte a
    rw [Dev.byte, h.shape, Dev.byte]
  all_goals (dsimp only; rw [h.shape])

theorem rd (h : Dev.Linked R s t) {k : PageKind} {d i o : Nat} (ha : ¬ R (pageOff k d i o)) : t.rd k d i o = s.rd k d i o := h.reg _ ha

theorem node (h : Dev.Linked R s t) (ha : ¬ R (pageOff .evfMod 0 0 Off.EVF_NODE)) : t.node = s.node := by rw [Dev.node_eq, h.rd ha, Dev.node_eq]

end Dev.Linked

/-- What leaves the module linked as before answers, with what else it leaves. -/
theorem Dev.Linked.answers {R : Nat → Prop} {s : State} {m : Dev} (h : Dev.Linked R s.m m) (hs : s.m.Settled) {i : Instr} {P : State → Prop}
    (hexec : exec i s = s.done m) (hp : P { s with m := m }) : Answers i s fun t => ModQuiet s t ∧ P t :=
  answers_done hexec (h.settled hs) ⟨h.quiet s.pending, hp⟩

/-! ### The routes of the chain (R357) -/

/-- The entries that chain enumeration fills in a channel. -/
def chainRoutes (n base ch : Nat) : List RouteRange :=
  if ch = 0 then
    (if base < n then [RouteRange.mk base (n - 1) (some 1) true] else []) ++ (if n < 32767 then [RouteRange.mk (n + 1) 32767 (some 2) true] else [])
  else [RouteRange.mk 0 32767 none true]

/-- A fabric with entries before its own. -/
def withRoutes (f : Fab) (rs : List RouteRange) : Fab := { f with routes := rs ++ f.routes }

theorem Dev.foldl_routes (X : Nat → List RouteRange) (l : List Nat) (hl : l.Nodup) (s : Dev) :
    let t := l.foldl (fun s ch => s.modFab ch fun x => withRoutes x (X ch)) s
    Dev.Linked (fun _ => False) s t ∧ ∀ c, t.fab c = if c ∈ l then withRoutes (s.fab c) (X c) else s.fab c := by
  induction l generalizing s with
  | nil => exact ⟨⟨rfl, fun _ _ => rfl, id⟩, fun _ => rfl⟩
  | cons ch l ih =>
    obtain ⟨hnot, hl⟩ := List.nodup_cons.1 hl
    have hone := (Dev.InChan.refl (fun _ => False) ch s).modFab fun x => withRoutes x (X ch)
    obtain ⟨hlink, hfab⟩ := ih hl (s.modFab ch fun x => withRoutes x (X ch))
    refine ⟨hone.linked.trans hlink, fun c => (hfab c).trans ?_⟩
    by_cases hc : c = ch
    · subst hc
      rw [if_neg hnot, if_pos (.head _), hone.fab]
      rfl
    · have hother : (s.modFab ch fun x => withRoutes x (X ch)).fab c = s.fab c := by rw [Dev.fab, hone.others c hc, Dev.fab]
      simp only [hother, List.mem_cons, hc, false_or]

theorem Dev.fillRoutes_routes (s : Dev) (n base : Nat) : Dev.Linked (fun _ => False) s (s.fillRoutes n base) ∧
    ∀ c, c < 8 → ((s.fillRoutes n base).fab c).routes = chainRoutes n base c ++ (s.fab c).routes := by
  obtain ⟨hlink, hfab⟩ := Dev.foldl_routes (chainRoutes n base) (List.range 8) List.nodup_range s
  refine ⟨hlink, fun c hc => ?_⟩
  refine (congrArg Fab.routes (hfab c)).trans ?_
  rw [if_pos (List.mem_range.2 hc)]
  rfl

/-- ENUM with the next ID leaves on ch0.p1. -/
theorem Dev.sendEnum_linked (s : Dev) (n : Nat) : Dev.Spoke (fun a => a = pageOff .evfMod 0 0 Off.EVF_ENUMFWD ∨ a = pageOff .evfMod 0 0 (Off.EVF_ENUMFWD + 4) ∨ txRegs a) s
    (s.sendEnum n) := by
  unfold Dev.sendEnum
  split
  · exact ((s.sendOn_spoke (by decide) (by decide) _).mono fun _ h => .inr (.inr h)).trans (.bump _ (.inl rfl) (.inr (.inl rfl)) 1)
  · exact .refl _ s

/-- The registers that a module which takes an ID writes, and tells its neighbours. -/
def chainRegs (a : Nat) : Prop := nodeRegs a ∨ a = pageOff .evfMod 0 0 Off.EVF_ENUMFWD ∨ a = pageOff .evfMod 0 0 (Off.EVF_ENUMFWD + 4)

theorem not_chainRegs_evfMod {o : Nat} (ho : o < 0x1000) (hne : o ∉ [Off.EVF_NODE, Off.EVF_ENUMFWD, Off.EVF_ENUMFWD + 4]) :
    ¬ chainRegs (pageOff .evfMod 0 0 o) := by
  simp only [List.mem_cons, List.not_mem_nil, or_false, not_or] at hne
  rintro ((h | h) | h | h)
  · simp only [pageOff] at h; omega
  · exact txRegs_evfMod ho h
  · simp only [pageOff] at h; omega
  · simp only [pageOff] at h; omega

theorem not_chainRegs_evfCh {ch o : Nat} (ho : o < 0x200) : ¬ chainRegs (pageOff .evfCh ch 0 o) := by
  rintro ((h | h) | h | h)
  · simp only [pageOff, Page.base, chanWin, Off.EVF_NODE] at h; omega
  · exact txRegs_evfCh ho h
  · simp only [pageOff, Page.base, chanWin, Off.EVF_ENUMFWD] at h; omega
  · simp only [pageOff, Page.base, chanWin, Off.EVF_ENUMFWD] at h; omega

/-- A module of the chain takes its ID, fills its routes and sends ENUM on. -/
theorem Dev.joinChain {s : Dev} {n base : Nat} (hn : n < 32768) : let t := ((s.setNode n).fillRoutes n base).sendEnum n
    Dev.Linked chainRegs s t ∧ t.node = some n ∧ ∀ c, c < 8 → (t.fab c).routes = chainRoutes n base c ++ (s.fab c).routes := by
  intro t
  obtain ⟨hset, hnode⟩ := Dev.setNode_spoke (s := s) hn
  obtain ⟨hfill, hroutes⟩ := (s.setNode n).fillRoutes_routes n base
  have hsend := ((s.setNode n).fillRoutes n base).sendEnum_linked n
  have hsend' : Dev.Linked chainRegs ((s.setNode n).fillRoutes n base) t :=
    hsend.linked.mono fun _ h => h.elim (fun e => .inr (.inl e)) fun h => h.elim (fun e => .inr (.inr e)) fun h => .inl (.inr h)
  refine ⟨((hset.linked.mono fun _ h => .inl h).trans (hfill.mono fun _ h => h.elim)).trans hsend', ?_, fun c hc => ?_⟩
  · rw [hsend.linked.node ?_, hfill.node id, hnode]
    rintro (h | h | h)
    · simp only [pageOff, Off.EVF_NODE, Off.EVF_ENUMFWD] at h; omega
    · simp only [pageOff, Off.EVF_NODE, Off.EVF_ENUMFWD] at h; omega
    · exact txRegs_evfMod (by decide) h
  · rw [hsend.routes c, hroutes c hc, hset.routes c]

theorem find_route {k : Nat} {r : RouteRange} (hlo : r.lo ≤ k) (hhi : k ≤ r.hi) (rs : List RouteRange) :
    (r :: rs).find? (fun r => decide (r.lo ≤ k) && decide (k ≤ r.hi)) = some r := List.find?_cons_of_pos (by simp [hlo, hhi])

/-- What the routes of the chain allow. -/
theorem Dev.routeMask_chain {t : Dev} {n base k d c : Nat} {old : List RouteRange} (hnode : t.node = some n) (hk : k < 32768)
    (hroutes : (t.fab c).routes = chainRoutes n base c ++ old) :
    (c = 0 → base ≤ k → k < n → t.routeMask c k d = some 1) ∧ (c = 0 → n < k → t.routeMask c k d = some 2) ∧
      (c ≠ 0 → k ≠ n → t.routeMask c k d = some (t.rdF .evfCh c 0 Off.EVF_SIB 7 0)) := by
  have haway (hne : k ≠ n) : t.routeMask c k d = match (chainRoutes n base c ++ old).find? fun r => r.lo ≤ k && k ≤ r.hi with
      | some r => if r.valid then some (match r.ports with | some m => m | none => t.rdF .evfCh c 0 Off.EVF_SIB 7 0) else none
      | none => none := by
    unfold Dev.routeMask
    rw [hnode, hroutes]
    exact if_neg fun h => hne (Option.some.inj h).symm
  refine ⟨fun hc hlo hhi => ?_, fun hc hlo => ?_, fun hc hne => ?_⟩
  · have hfind := find_route (r := ⟨base, n - 1, some 1, true⟩) hlo (show k ≤ n - 1 by omega)
    rw [haway (by omega), chainRoutes, if_pos hc, if_pos (show base < n by omega), List.append_assoc, List.singleton_append, hfind]
    rfl
  · have hfind := find_route (r := ⟨n + 1, 32767, some 2, true⟩) hlo (show k ≤ 32767 by omega)
    rw [haway (by omega), chainRoutes, if_pos hc, if_pos (show n < 32767 by omega), List.append_assoc, List.singleton_append]
    have hskip : (if base < n then [RouteRange.mk base (n - 1) (some 1) true] else []).find? (fun r => decide (r.lo ≤ k) && decide (k ≤ r.hi)) = none := by
      split
      · exact List.find?_cons_of_neg (by simp; omega)
      · rfl
    rw [List.find?_append, hskip, Option.none_or, hfind]
    rfl
  · have hfind := find_route (r := ⟨0, 32767, none, true⟩) (Nat.zero_le k) (show k ≤ 32767 by omega)
    rw [haway hne, chainRoutes, if_neg hc, List.singleton_append, hfind]
    rfl

end Sys2Proof.Machine
end

section
/-! Node IDs, chain enumeration and routes (O58): the statement. -/

namespace Sys2Proof.Machine
open Sys2Proof

/-! ### Messages that name an ID (R356, R357) -/

section
variable {s : State} (hs : s.m.Settled)
include hs

theorem answers_assign {ch : ChId} {p : PortIx} {id : Fin 32768} (hon : s.m.fabOn ch.val = true) :
    (s.m.assignOk id.val = true → Answers (.assignReceive ch p id) s fun t => ModQuiet s t ∧ t.m.node = some id.val) ∧
    (s.m.assignOk id.val = false → Answers (.assignReceive ch p id) s fun t => ModQuiet s t ∧ t.m.node = s.m.node) := by
  have hexec : exec (.assignReceive ch p id) s = s.done (s.m.assignIn ch.val p.val id.val) :=
    exec_only (f := fun m => m.assignIn ch.val p.val id.val) rfl hon
  refine ⟨fun hok => ?_, fun hno => ?_⟩
  · obtain ⟨hset, hnode⟩ := Dev.setNode_spoke (s := s.m) id.isLt
    exact hset.linked.answers hs (hexec.trans (congrArg s.done (if_pos hok))) hnode
  · have hsaid := s.m.sendOn_spoke ch.isLt p.isLt (.reply 0 0 0 id.val Code.REJECTED)
    exact hsaid.linked.answers hs (hexec.trans (congrArg s.done (if_neg (by rw [hno]; decide)))) (hsaid.linked.node (txRegs_evfMod (by decide)))

end

section
variable {s : State} {id : Nat} (hon : s.m.fabOn 0 = true) (hchain : s.m.chainOn = true) (hid : id < 32768)
include hon hchain hid

theorem exec_enum : exec (.enumReceive 0 0 id) s = s.done (match s.m.node with
    | none => ((s.m.setNode id).fillRoutes id s.m.chainBase).sendEnum id
    | some n => if n = id then s.m
      else (s.m.sendOn 0 0 (.reply 0 0 0 id Code.REJECTED)).raiseAt 0 73 false (.port 0) [id % 256, id / 256]) := by
  refine (exec_only (f := fun m => m.enumIn 0 0 id) rfl hon).trans (congrArg s.done ?_)
  have hopen : (!s.m.chainOn || decide ((0 : Nat) ≠ 0) || decide ((0 : Nat) ≠ 0) || decide (32767 < id)) = false := by simp [hchain]; omega
  unfold Dev.enumIn
  rw [hopen]
  rfl

theorem answers_enumFirst (hs : s.m.Settled) (hnode : s.m.node = none) : Answers (.enumReceive 0 0 id) s fun t => ModQuiet s t ∧ t.m.node = some id ∧
    ∀ k d, k < 32768 → (s.m.chainBase ≤ k → k < id → t.m.routeMask 0 k d = some 1) ∧ (id < k → t.m.routeMask 0 k d = some 2) ∧
      ∀ c, 0 < c → c < 8 → k ≠ id → t.m.routeMask c k d = some (s.m.rdF .evfCh c 0 Off.EVF_SIB 7 0) := by
  obtain ⟨hlink, hnamed, hroutes⟩ := Dev.joinChain (s := s.m) (base := s.m.chainBase) hid
  have hexec := exec_enum hon hchain hid
  rw [hnode] at hexec
  refine hlink.answers hs hexec ⟨hnamed, fun k d hk => ?_⟩
  obtain ⟨hlow, hhigh, -⟩ := Dev.routeMask_chain (d := d) hnamed hk (hroutes 0 (by decide))
  refine ⟨hlow rfl, hhigh rfl, fun c hc0 hc hne => ?_⟩
  obtain ⟨-, -, hsib⟩ := Dev.routeMask_chain (d := d) hnamed hk (hroutes c hc)
  rw [hsib (by omega) hne, Dev.rdF, hlink.rd (not_chainRegs_evfCh (by decide)), Dev.rdF]

/-- ENUM that names another ID raises ID_CONFLICT, and the ID stays. -/
theorem enumConflict {n : Nat} (hnode : s.m.node = some n) (hne : n ≠ id) :
    let t := (s.m.sendOn 0 0 (.reply 0 0 0 id Code.REJECTED)).raiseAt 0 73 false (.port 0) [id % 256, id / 256]
    exec (.enumReceive 0 0 id) s = s.done t ∧ t.node = s.m.node ∧ bit (t.rd .evfCh 0 0 Off.PG_FLT) 6 = true ∧
      (∀ a, t.byte a = s.m.byte a) ∧ t.rqt = s.m.rqt ∧ (s.m.Records 0 73 → Dev.Linked anyReg s.m t) := by
  intro t
  have hexec := exec_enum hon hchain hid
  rw [hnode] at hexec
  have hsaid := s.m.sendOn_spoke (ch := 0) (p := 0) (by decide) (by decide) (.reply 0 0 0 id Code.REJECTED)
  set u := s.m.sendOn 0 0 (.reply 0 0 0 id Code.REJECTED) with hu
  obtain ⟨hregs, hbit⟩ := u.raiseAt_fabric_reg (ch := 0) (ix := 73) (by decide) (.port 0) (.inr ⟨0, rfl⟩) [id % 256, id / 256]
  have hsig : u.Signalled t := (Dev.Signalled.raiseKeeps u).raiseAt _ _ _ _ _ (.refl u)
  refine ⟨hexec.trans (congrArg s.done (if_neg hne)), ?_, hbit, fun a => (hsig.byte a).trans (hsaid.byte a), hsig.table.rqt.trans hsaid.rqt, fun hrec => ?_⟩
  · rw [Dev.node_eq, hregs.rd ?_, hsaid.rd (txRegs_evfMod (by decide)), Dev.node_eq]
    rintro (h | h)
    · exact not_raiseRegs_evfMod (by decide) (by decide) h
    · exact not_fltRegs_evf (.inr ⟨rfl, rfl⟩) (by decide) h
  · have hrec' : u.Records 0 73 := hrec.of_page fun o ho => hsaid.rd (txRegs_evfCh (by omega))
    have hraised := (Dev.InChan.refl anyReg 0 u).raiseAt hrec' (by decide) (by decide) (fun _ _ => trivial) false [id % 256, id / 256]
    rw [← Dev.raiseAt_port (by decide) hrec' 0] at hraised
    exact (hsaid.linked.mono fun _ _ => trivial).trans hraised.linked

end

/-! ### ENUM that goes out again (R357) -/

section
variable {s : State} {n : Nat} (hon : s.m.fabOn 0 = true) (hnode : s.m.node = some n)
include hon hnode

theorem exec_enumTimer : exec .enumRepeatTimer s = s.done (if s.m.chainOn && !((s.m.port 0 1).partner.any fun h => decide (h.node.map (·.val) = some (n + 1)))
    then s.m.sendEnum n else s.m) := by
  refine (exec_only (f := fun m => m.enumTimer) rfl hon).trans (congrArg s.done ?_)
  rw [Dev.enumTimer, hnode]
  cases (s.m.port 0 1).partner <;> rfl

theorem gives_enumTimer (hs : s.m.Settled) : Gives .enumRepeatTimer s
    (if s.m.chainOn && !((s.m.port 0 1).partner.any fun h => decide (h.node.map (·.val) = some (n + 1))) then s.m.sendEnum n else s.m) := by
  refine (exec_enumTimer hon hnode).trans (s.done_of_settled ?_)
  split
  · exact (s.m.sendEnum_linked n).settled hs
  · exact hs

theorem answers_enumAgain (hs : s.m.Settled) (hchain : s.m.chainOn = true) (hn : n < 32767) (hport : s.m.port 0 1 = { Port.fresh with state := 3 }) :
    Answers .enumRepeatTimer s fun t => ModQuiet s t ∧ t.m.out = s.m.out ++ [.fabric 0 (some 1) (.enum (n + 1))] := by
  have hgo : (s.m.chainOn && !((s.m.port 0 1).partner.any fun h => decide (h.node.map (·.val) = some (n + 1)))) = true := by rw [hchain, hport]; rfl
  have hup : n < 32767 ∧ (s.m.port 0 1).state = 3 := ⟨hn, by rw [hport]⟩
  have hsent : s.m.sendOn 0 1 (.enum (n + 1)) = s.m.queueMsg 0 1 none (.enum (n + 1)) := if_pos hon
  refine (s.m.sendEnum_linked n).linked.answers hs ((exec_enumTimer hon hnode).trans (congrArg s.done (if_pos hgo))) ?_
  refine (congrArg Dev.out (if_pos hup)).trans ((Dev.bump_out ..).trans ?_)
  rw [hsent]
  exact Dev.queueMsg_out hup.2 (by rw [hport]; rfl) (by rw [hport]; decide) none (show 1 ≤ 64 by decide) (by rw [hport]; show 1 ≤ nth 0 Port.fresh.credits 3; decide)

end

/-! ### Registers (R356, R357, R369, R370) -/

theorem Dev.put_evfMod {s : Dev} {fn : Fn} {o : Nat} (ho : 0x100 ≤ o) (ho' : o < 0x1000) (h4 : o % 4 = 0) (hw : s.Writes fn ⟨.evfMod, 0, 0⟩ o) (w : Word) :
    s.put fn (pageOff .evfMod 0 0 o) w = s.bodyWrite ⟨.evfMod, 0, 0⟩ (writeReader fn) o w WrEnv.none :=
  (Dev.put_granted (by decide) ho' h4 hw w).trans (if_neg (by omega))

section
variable {s : State} {fn : Fn} (v : Word) (hs : s.m.Settled)
include hs

/-- With CHAIN_EN and ROOT the module takes BASE, if it may. -/
theorem answers_enumWrite (hw : s.m.Writes fn ⟨.evfMod, 0, 0⟩ Off.EVF_ENUM) : Answers (.evfEnumWrite fn v) s fun t => ModQuiet s t ∧
    t.m.rd .evfMod 0 0 Off.EVF_ENUM = v &&& 0x7FFF0003#32 ∧
    t.m.node = if bit v 0 = true ∧ bit v 1 = true ∧ s.m.assignOk (fld v 30 16) = true then some (fld v 30 16) else s.m.node := by
  have hexec : exec (.evfEnumWrite fn v) s = s.done (s.m.enumWrite v) :=
    congrArg s.done ((Dev.put_evfMod (by decide) (by decide) (by decide) hw v).trans rfl)
  set u := s.m.wr .evfMod 0 0 Off.EVF_ENUM (v &&& 0x7FFF0003#32) with hu
  have hwrite : Dev.Linked (fun a => chainRegs a ∨ a = pageOff .evfMod 0 0 Off.EVF_ENUM) s.m u := (Dev.Spoke.wr s.m (.inr rfl) _).linked
  have hnode : u.node = s.m.node := (Dev.Spoke.wr (R := fun a => a = pageOff .evfMod 0 0 Off.EVF_ENUM) s.m rfl _).linked.node (by simp [pageOff])
  have hok : u.assignOk (fld v 30 16) = s.m.assignOk (fld v 30 16) := by rw [Dev.assignOk, hnode, Dev.assignOk]; rfl
  have hword : u.rd .evfMod 0 0 Off.EVF_ENUM = v &&& 0x7FFF0003#32 := Dev.wr_rd_same ..
  have hgo : s.m.enumWrite v = if bit v 0 && bit v 1 && u.assignOk (fld v 30 16) then ((u.setNode (fld v 30 16)).fillRoutes (fld v 30 16) (fld v 30 16)).sendEnum
    (fld v 30 16) else u := rfl
  rw [hgo, hok] at hexec
  by_cases hroot : bit v 0 = true ∧ bit v 1 = true ∧ s.m.assignOk (fld v 30 16) = true
  · rw [if_pos (by simp [hroot])] at hexec
    obtain ⟨hlink, hnamed, -⟩ := Dev.joinChain (s := u) (base := fld v 30 16) (show fld v 30 16 < 32768 from Nat.mod_lt _ (by decide))
    refine (hwrite.trans (hlink.mono fun _ h => .inl h)).answers hs hexec ⟨?_, ?_⟩
    · rw [hlink.rd (not_chainRegs_evfMod (by decide) (by decide)), hword]
    · rw [if_pos hroot]
      exact hnamed
  · rw [if_neg (by simpa [and_assoc] using hroot)] at hexec
    exact hwrite.answers hs hexec ⟨hword, by rw [if_neg hroot]; exact hnode⟩

omit hs in
theorem nodeOf_status (w : Word) (code : Nat) : nodeOf (setFld w 23 16 code) = nodeOf w := by
  rw [nodeOf, bit_setFld _ (by decide) (by decide), if_neg (show ¬ (16 ≤ 15 ∧ 15 ≤ 23) by decide),
    fld_setFld_apart _ (by decide) (by decide) (.inr (by decide)), nodeOf]

/-- The status of EVF_NODE is written. -/
theorem answers_nodeStatus {m : Dev} {code : Nat} (hcode : code < 256) (h : Dev.Linked nodeRegs s.m m) {i : Instr} (hexec : exec i s = s.done
    (m.wrF .evfMod 0 0 Off.EVF_NODE 23 16 code)) : Answers i s fun t => ModQuiet s t ∧ t.m.node = m.node ∧ t.m.rdF .evfMod 0 0 Off.EVF_NODE 23 16 = code := by
  have hsta : Dev.Linked nodeRegs m (m.wrF .evfMod 0 0 Off.EVF_NODE 23 16 code) := (Dev.Spoke.wr m (.inl rfl) _).linked
  have hword : (m.wrF .evfMod 0 0 Off.EVF_NODE 23 16 code).rd .evfMod 0 0 Off.EVF_NODE = setFld (m.rd .evfMod 0 0 Off.EVF_NODE) 23 16 code := Dev.wr_rd_same ..
  refine (h.trans hsta).answers hs hexec ⟨?_, ?_⟩
  · rw [Dev.node_eq, hword, nodeOf_status, Dev.node_eq]
  · rw [Dev.rdF, hword, fld_setFld_same _ (by decide) (by decide)]
    exact Nat.mod_eq_of_lt hcode

section
variable (hw : s.m.Writes fn ⟨.evfMod, 0, 0⟩ Off.EVF_NODE)
include hw

omit hs in
theorem exec_nodeWrite : exec (.evfNodeWrite fn v) s = s.done (s.m.nodeWrite v) :=
  congrArg s.done ((Dev.put_evfMod (by decide) (by decide) (by decide) hw v).trans rfl)

/-- VALID 1 acts as ASSIGN. -/
theorem answers_nodeNamed (hv : bit v 15 = true) : Answers (.evfNodeWrite fn v) s fun t => ModQuiet s t ∧
    t.m.node = (if s.m.assignOk (fld v 14 0) then some (fld v 14 0) else s.m.node) ∧
    t.m.rdF .evfMod 0 0 Off.EVF_NODE 23 16 = if s.m.assignOk (fld v 14 0) then Code.OK else Code.REJECTED := by
  have hexec := exec_nodeWrite v hw
  rw [Dev.nodeWrite, if_pos hv] at hexec
  split
  · next hok =>
    obtain ⟨hset, hnamed⟩ := Dev.setNode_spoke (s := s.m) (show fld v 14 0 < 32768 from Nat.mod_lt _ (by decide))
    rw [if_pos hok] at hexec
    simpa only [hnamed] using answers_nodeStatus hs (by decide) hset.linked hexec
  · next hno =>
    rw [if_neg hno] at hexec
    exact answers_nodeStatus hs (by decide) (Dev.Spoke.refl nodeRegs s.m).linked hexec

/-- VALID 0 removes the ID while no context is loaded. -/
theorem answers_nodeRemoved (hv : bit v 15 = false) : Answers (.evfNodeWrite fn v) s fun t => ModQuiet s t ∧
    t.m.node = (if s.m.anyLoaded then s.m.node else none) ∧
    t.m.rdF .evfMod 0 0 Off.EVF_NODE 23 16 = if s.m.anyLoaded && s.m.node.isSome then Code.REJECTED else Code.OK := by
  have hexec := exec_nodeWrite v hw
  rw [Dev.nodeWrite, if_neg (by rw [hv]; decide)] at hexec
  by_cases hbusy : (s.m.anyLoaded && s.m.node.isSome) = true
  · rw [if_pos hbusy] at hexec
    obtain ⟨hloaded, -⟩ := Bool.and_eq_true_iff.1 hbusy
    rw [if_pos hbusy, if_pos hloaded]
    exact answers_nodeStatus hs (by decide) (Dev.Spoke.refl nodeRegs s.m).linked hexec
  · rw [if_neg hbusy] at hexec
    set w := setFld (setFld (s.m.rd .evfMod 0 0 Off.EVF_NODE) 14 0 (fld v 14 0)) 15 15 0
    set u := s.m.wr .evfMod 0 0 Off.EVF_NODE w with hu
    have hwrite : Dev.Spoke nodeRegs s.m u := .wr s.m (.inl rfl) w
    have hnone : nodeOf w = none := if_neg (by rw [bit_setFld _ (by decide) (by decide), if_pos (by decide)]; decide)
    have hgone : u.node = none := by rw [Dev.node_eq, hu, Dev.wr_rd_same, hnone]
    have hsaid : Dev.Linked nodeRegs s.m (if s.m.node.isSome then u.helloModule else u) ∧ (if s.m.node.isSome then u.helloModule else u).node = none := by
      split
      · have hhello := u.helloModule_spoke
        exact ⟨(hwrite.trans (hhello.mono fun _ h => .inr h)).linked, (hhello.linked.node (txRegs_evfMod (by decide))).trans hgone⟩
      · exact ⟨hwrite.linked, hgone⟩
    have hnode : (if s.m.anyLoaded = true then s.m.node else none) = none := by
      split
      · next hloaded => simpa [hloaded] using hbusy
      · rfl
    rw [if_neg hbusy, hnode, ← hsaid.2]
    exact answers_nodeStatus hs (by decide) hsaid.1 hexec

end

end

theorem Dev.InChan.sameWork {R : Nat → Prop} {ch : Nat} {c : Chan} {s t : Dev} (h : Dev.InChan R ch c s t) (q : List Instr) :
    SameWork ⟨q, s⟩ ⟨q, t⟩ := by
  rw [h.shape]
  constructor <;> rfl

/-- A write of EVF_RT_DATA fills the entry at IDX, and IDX moves on (R370). -/
theorem answers_routeWrite {s : State} {fn : Fn} {ch : ChId} (v : Word) (hs : s.m.Settled) (hw : s.m.Writes fn ⟨.evfCh, ch.val, 0⟩ Off.EVF_RT_DATA) :
    let i := s.m.rdF .evfCh ch.val 0 Off.EVF_RT_IDX 14 0
    Answers (.evfRtDataWrite fn ch v) s fun t => SameWork s t ∧
      (t.m.fab ch.val).routes.find? (fun r => r.lo ≤ i && i ≤ r.hi) = some ⟨i, i, some (fld v 7 0), bit v 8⟩ ∧
      t.m.rdF .evfCh ch.val 0 Off.EVF_RT_IDX 14 0 = (i + 1) % 32768 ∧ SameRegs s t (· = pageOff .evfCh ch.val 0 Off.EVF_RT_IDX) := by
  intro i
  have hexec : exec (.evfRtDataWrite fn ch v) s = s.done (s.m.routeWrite ch.val v) :=
    congrArg s.done (((Dev.put_granted (Page.valid_channel (by decide) ch.isLt) (by decide) (by decide) hw v).trans (if_neg (by decide))).trans rfl)
  set f : Fab → Fab := fun x => { x with routes := ⟨i, i, some (fld v 7 0), bit v 8⟩ :: x.routes.filter fun r => !(r.lo = i && r.hi = i) }
  have hroute := (Dev.InChan.refl (· = pageOff .evfCh ch.val 0 Off.EVF_RT_IDX) ch.val s.m).modFab f
  have hidx := hroute.wr (k := .evfCh) (d := ch.val) (i := 0) (o := Off.EVF_RT_IDX) rfl
    (setFld ((s.m.modFab ch.val f).rd .evfCh ch.val 0 Off.EVF_RT_IDX) 14 0 ((i + 1) % 32768))
  refine hidx.answers hs hexec ⟨?_, ?_, ?_, hidx.reg⟩
  · exact hidx.sameWork s.pending
  · refine (congrArg (fun x : Fab => x.routes.find? fun r => r.lo ≤ i && i ≤ r.hi) hidx.fab).trans ?_
    exact find_route (r := ⟨i, i, some (fld v 7 0), bit v 8⟩) (Nat.le_refl i) (Nat.le_refl i) _
  · refine (congrArg (fld · 14 0) (Dev.wr_rd_same ..)).trans ?_
    rw [fld_setFld_same _ (by decide) (by decide)]
    exact Nat.mod_eq_of_lt (Nat.mod_lt _ (by decide))

/-- Settles O58: the ID is given, told to neighbours, and taken away; the chain's routes; entries that software writes. -/
theorem nodesAreNumbered : Obligations.NodesAreNumbered := by
  unfold Obligations.NodesAreNumbered
  intro s hs quiet
  refine ⟨fun ch p id hon => answers_assign hs hon, fun id hon hchain hid => ⟨fun hnode => answers_enumFirst hon hchain hid hs hnode, fun hnode => ?_,
      fun n hnode hne => ?_, fun n hnode hne hrec => ?_⟩, fun n hon hnode => gives_enumTimer hon hnode hs,
    fun n hon hchain hnode hn hport => answers_enumAgain hon hnode hs hchain hn hport,
    fun fn v => ⟨fun hw => answers_enumWrite v hs hw, fun hw hv => answers_nodeNamed v hs hw hv, fun hw hv => answers_nodeRemoved v hs hw hv⟩,
    fun fn ch v hw => answers_routeWrite v hs hw⟩
  · have hexec := exec_enum hon hchain hid
    rw [hnode] at hexec
    exact (hexec.trans (congrArg s.done (if_pos rfl))).trans (s.done_of_settled hs)
  · obtain ⟨hexec, hkept, hbit, hbytes, hrqt, -⟩ := enumConflict hon hchain hid hnode hne
    exact does_done hexec ⟨hbytes, hrqt, hkept, hbit⟩
  · obtain ⟨hexec, hkept, hbit, -, -, hlink⟩ := enumConflict hon hchain hid hnode hne
    exact (hlink hrec).answers hs hexec ⟨hkept, hbit⟩

end Sys2Proof.Machine
end

section
/-! Device time and plank alignment (O59): what time keeping leaves alone, and TIME messages (R363 to R365). -/

namespace Sys2Proof.Machine
open Sys2Proof

/-- From `s` to `t` time keeping has acted: what serves stays. -/
structure Dev.Timed (R : Nat → Prop) (s t : Dev) : Prop where
  shape : t = { s with
    out := t.out, regs := t.regs, chans := t.chans, mgts := t.mgts, ticket := t.ticket, time := t.time, plank := t.plank, ftime := t.ftime }
  reg : ∀ a, ¬ R a → t.reg a = s.reg a
  settled : s.Settled → t.Settled

theorem Dev.Linked.timed {R : Nat → Prop} {s t : Dev} (h : Dev.Linked R s t) : Dev.Timed R s t := ⟨by rw [h.shape], h.reg, h.settled⟩

/-- The registers of the module's fabric page. -/
def evfModRegs (a : Nat) : Prop := inPage .evfMod 0 0 a

theorem evfModRegs_of {o : Nat} (ho : o < 0x1000) : evfModRegs (pageOff .evfMod 0 0 o) := by
  simp only [evfModRegs, inPage, pageOff]
  omega

namespace Dev.Timed
variable {R Q : Nat → Prop} {s t u : Dev}

theorem refl (R : Nat → Prop) (s : Dev) : Dev.Timed R s s := ⟨rfl, fun _ _ => rfl, id⟩

theorem trans (h : Dev.Timed R s t) (g : Dev.Timed R t u) : Dev.Timed R s u :=
  ⟨by rw [g.shape, h.shape], fun a ha => (g.reg a ha).trans (h.reg a ha), fun hs => g.settled (h.settled hs)⟩

theorem mono (h : Dev.Timed R s t) (hq : ∀ a, R a → Q a) : Dev.Timed Q s t := ⟨h.shape, fun a ha => h.reg a fun hr => ha (hq a hr), h.settled⟩

theorem modTime (h : Dev.Timed R s t) (f : FTime → FTime) : Dev.Timed R s (t.modTime f) := h.trans ⟨rfl, fun _ _ => rfl, id⟩

theorem wr (h : Dev.Timed R s t) {k : PageKind} {d i o : Nat} (ha : R (pageOff k d i o)) (w : Word) : Dev.Timed R s (t.wr k d i o w) :=
  h.trans (Dev.Spoke.wr t ha w).linked.timed

theorem bump (h : Dev.Timed R s t) {k : PageKind} {d i o : Nat} (hlo : R (pageOff k d i o)) (hhi : R (pageOff k d i (o + 4))) (n : Nat) :
    Dev.Timed R s (t.bump k d i o n) := h.trans (Dev.Spoke.bump t hlo hhi n).linked.timed

theorem quiet (h : Dev.Timed R s t) (q : List Instr) : ModQuiet ⟨q, s⟩ ⟨q, t⟩ := by
  refine ⟨fun a => ?_, ?_, ?_, ?_, ?_⟩
  · show t.byte a = s.byte a
    rw [Dev.byte, h.shape, Dev.byte]
  all_goals (dsimp only; rw [h.shape])

theorem ctxs (h : Dev.Timed R s t) : t.ctxs = s.ctxs := by rw [h.shape]

theorem rd (h : Dev.Timed R s t) {k : PageKind} {d i o : Nat} (ha : ¬ R (pageOff k d i o)) : t.rd k d i o = s.rd k d i o := h.reg _ ha

theorem answers {s : State} {m : Dev} (h : Dev.Timed R s.m m) (hs : s.m.Settled) {i : Instr} {P : State → Prop} (hexec : exec i s = s.done m)
    (hp : P { s with m := m }) : Answers i s fun t => ModQuiet s t ∧ P t := answers_done hexec (h.settled hs) ⟨h.quiet s.pending, hp⟩

end Dev.Timed

/-! ### The clock (R364) -/

/-- A channel that the hub's link reaches, at another time. -/
def clocked (c : Chan) (time plank : Nat) : Chan := if c.linkUp then { c with time := time, plank := plank } else c

/-- A channel that the hub's link reaches takes a time. -/
def Dev.clockOne (s : Dev) (ch time plank : Nat) : Dev :=
  if (s.chan ch).linkUp then s.modChan ch fun c => { c with time := time, plank := plank } else s

/-- The channels of a list do. -/
def Dev.clockAll (s : Dev) (l : List Nat) (time plank : Nat) : Dev := l.foldl (fun s ch => s.clockOne ch time plank) s

/-- From `s` to `t` channels have taken a time. -/
structure Dev.Clocked (s t : Dev) : Prop where
  shape : t = { s with chans := t.chans }
  settled : s.Settled → t.Settled

theorem Dev.clockOne_clocked (s : Dev) (ch time plank : Nat) : Dev.Clocked s (s.clockOne ch time plank) ∧
    ∀ c, (s.clockOne ch time plank).chan c = if c = ch then clocked (s.chan c) time plank else s.chan c := by
  unfold Dev.clockOne
  split
  · next hup =>
    refine ⟨⟨rfl, fun hs => hs.modChan (hs.chan ch)⟩, fun c => ?_⟩
    by_cases hc : c = ch
    · rw [if_pos hc, hc, Dev.modChan_same, clocked, if_pos hup]
    · rw [if_neg hc, Dev.modChan_other _ hc]
  · next hdown =>
    refine ⟨⟨rfl, id⟩, fun c => ?_⟩
    split
    · next hc => rw [hc, clocked, if_neg hdown]
    · rfl

theorem clocked_clocked (c : Chan) (time plank : Nat) : clocked (clocked c time plank) time plank = clocked c time plank := by
  by_cases hup : c.linkUp = true
  · have hone : clocked c time plank = { c with time := time, plank := plank } := if_pos hup
    rw [hone]
    exact if_pos hup
  · have hone : clocked c time plank = c := if_neg hup
    rw [hone, hone]

theorem Dev.clockAll_clocked (l : List Nat) (time plank : Nat) : ∀ s : Dev, Dev.Clocked s (s.clockAll l time plank) ∧
    ∀ c, (s.clockAll l time plank).chan c = if c ∈ l then clocked (s.chan c) time plank else s.chan c := by
  induction l with
  | nil => exact fun s => ⟨⟨rfl, id⟩, fun _ => rfl⟩
  | cons ch l ih =>
    intro s
    obtain ⟨hone, hchan⟩ := s.clockOne_clocked ch time plank
    obtain ⟨hrest, hchan'⟩ := ih (s.clockOne ch time plank)
    refine ⟨⟨by rw [Dev.clockAll, List.foldl_cons, ← Dev.clockAll, hrest.shape, hone.shape], fun hs => hrest.settled (hone.settled hs)⟩,
      fun c => (hchan' c).trans ?_⟩
    rw [hchan]
    by_cases hc : c = ch
    · simp only [hc, if_true, List.mem_cons, true_or, clocked_clocked, ite_self]
    · simp only [hc, if_false, List.mem_cons, false_or]

/-- A module at another time, with other records of its channels. -/
def Dev.atTime (s : Dev) (chans : Store Chan) (time plank : Nat) : Dev := { s with time := time, plank := plank, chans := chans }

theorem Dev.atTime_chans (s : Dev) (chans : Store Chan) (time plank : Nat) : (s.atTime chans time plank).chans = chans := rfl

theorem Dev.atTime_time (s : Dev) (chans : Store Chan) (time plank : Nat) : (s.atTime chans time plank).time = time := rfl
theorem Dev.atTime_plank (s : Dev) (chans : Store Chan) (time plank : Nat) : (s.atTime chans time plank).plank = plank := rfl
theorem Dev.atTime_ftime (s : Dev) (chans : Store Chan) (time plank : Nat) : (s.atTime chans time plank).ftime = s.ftime := rfl

theorem Dev.atTime_timed {s : Dev} {chans : Store Chan} (time plank : Nat) (h : s.Settled → (s.atTime chans time plank).Settled) :
    Dev.Timed (fun _ => False) s (s.atTime chans time plank) := ⟨rfl, fun _ _ => rfl, h⟩

theorem Dev.setClock_eq (s : Dev) (time plank : Nat) : s.setClock time plank = s.atTime (s.clockAll (List.range 8) time plank).chans time plank := by
  have hfold (l : List Nat) : ∀ u : Dev, l.foldl (fun (m : Store Chan) ch =>
      let c := m.get Chan.fresh ch
      if c.linkUp then m.set Chan.fresh ch { c with time := time, plank := plank } else m) u.chans = (u.clockAll l time plank).chans := by
    induction l with
    | nil => exact fun _ => rfl
    | cons ch l ih =>
      intro u
      have hone : (u.clockOne ch time plank).chans = (let c := u.chans.get Chan.fresh ch
          if c.linkUp then u.chans.set Chan.fresh ch { c with time := time, plank := plank } else u.chans) := by
        unfold Dev.clockOne
        exact apply_ite Dev.chans ..
      rw [List.foldl_cons, ← hone]
      exact ih _
  unfold Dev.setClock Dev.atTime
  rw [hfold]

/-- Device time and plank number are set, in the hub and in every channel that its link reaches. -/
theorem Dev.setClock_timed (s : Dev) (time plank : Nat) : Dev.Timed (fun _ => False) s (s.setClock time plank) ∧
    (s.setClock time plank).time = time ∧ (s.setClock time plank).plank = plank ∧ (s.setClock time plank).ftime = s.ftime ∧
    ∀ c, c < 8 → (s.setClock time plank).chan c = clocked (s.chan c) time plank := by
  obtain ⟨hall, hchan⟩ := Dev.clockAll_clocked (List.range 8) time plank s
  rw [Dev.setClock_eq]
  refine ⟨Dev.atTime_timed time plank fun hs => (hall.settled hs).of_chans (Dev.atTime_chans ..), Dev.atTime_time .., Dev.atTime_plank ..,
    Dev.atTime_ftime .., fun c hc => ?_⟩
  have hclock := hchan c
  rw [if_pos (List.mem_range.2 hc), Dev.chan] at hclock
  rw [Dev.chan, Dev.atTime_chans, hclock]

end Sys2Proof.Machine
end

section
/-! TIME messages (O59): what they say, and what the module takes of them (R363 to R365, R367). -/

namespace Sys2Proof.Machine
open Sys2Proof

/-! ### EVF_TIME_STA -/

/-- The word of EVF_TIME_STA. -/
def Dev.staWord (s : Dev) : Word := s.rd .evfMod 0 0 Off.EVF_TIME_STA

theorem Dev.tsta_eq (s : Dev) (hi lo : Nat) : s.tsta hi lo = fld s.staWord hi lo := rfl

theorem Dev.setTsta_staWord (s : Dev) (hi lo v : Nat) : (s.setTsta hi lo v).staWord = setFld s.staWord hi lo v := Dev.wr_rd_same ..

theorem Dev.setTsta_timed {R : Nat → Prop} {s t : Dev} (h : Dev.Timed R s t) (hR : R (pageOff .evfMod 0 0 Off.EVF_TIME_STA)) (hi lo v : Nat) :
    Dev.Timed R s (t.setTsta hi lo v) := h.wr hR _

/-- The word of EVF_TIME_STA stays where another register is written. -/
theorem Dev.staWord_of {R : Nat → Prop} {s t : Dev} (h : Dev.Timed R s t) (hR : ¬ R (pageOff .evfMod 0 0 Off.EVF_TIME_STA)) : t.staWord = s.staWord := h.rd hR

/-- LOCKED, with the master that time comes from and the hops to it. -/
def Dev.locked (s : Dev) (master hops : Nat) : Dev := (((s.setTsta 2 0 1).setTsta 17 3 master).setTsta 18 18 1).setTsta 26 19 hops

theorem Dev.locked_timed (s : Dev) (master hops : Nat) : Dev.Timed evfModRegs s (s.locked master hops) :=
  have hsta := evfModRegs_of (o := Off.EVF_TIME_STA) (by decide)
  Dev.setTsta_timed (Dev.setTsta_timed (Dev.setTsta_timed (Dev.setTsta_timed (.refl _ s) hsta ..) hsta ..) hsta ..) hsta ..

theorem Dev.locked_tsta (s : Dev) {master hops : Nat} (hm : master < 32768) (hh : hops < 256) : let t := s.locked master hops
    t.tsta 2 0 = 1 ∧ t.tsta 17 3 = master ∧ t.tsta 18 18 = 1 ∧ t.tsta 26 19 = hops := by
  intro t
  have hword : t.staWord = setFld (setFld (setFld (setFld s.staWord 2 0 1) 17 3 master) 18 18 1) 26 19 hops := by
    simp only [t, Dev.locked, Dev.setTsta_staWord]
  simp only [Dev.tsta_eq, hword]
  refine ⟨?_, ?_, ?_, ?_⟩
  · rw [fld_setFld_apart _ (by decide) (by decide) (.inr (by decide)), fld_setFld_apart _ (by decide) (by decide) (.inr (by decide)),
      fld_setFld_apart _ (by decide) (by decide) (.inr (by decide)), fld_setFld_same _ (by decide) (by decide)]
    rfl
  · rw [fld_setFld_apart _ (by decide) (by decide) (.inr (by decide)), fld_setFld_apart _ (by decide) (by decide) (.inr (by decide)),
      fld_setFld_same _ (by decide) (by decide)]
    exact Nat.mod_eq_of_lt hm
  · rw [fld_setFld_apart _ (by decide) (by decide) (.inr (by decide)), fld_setFld_same _ (by decide) (by decide)]
    rfl
  · rw [fld_setFld_same _ (by decide) (by decide)]
    exact Nat.mod_eq_of_lt hh

theorem Dev.locked_conflict (s : Dev) (master hops : Nat) : (s.locked master hops).tsta 27 27 = s.tsta 27 27 := by
  simp only [Dev.tsta_eq, Dev.locked, Dev.setTsta_staWord]
  rw [fld_setFld_apart _ (by decide) (by decide) (.inl (by decide)), fld_setFld_apart _ (by decide) (by decide) (.inl (by decide)),
    fld_setFld_apart _ (by decide) (by decide) (.inl (by decide)), fld_setFld_apart _ (by decide) (by decide) (.inl (by decide))]

/-- From `s` to `t` the clock, what time keeping keeps and the channels' records stay. -/
structure Dev.SameClock (s t : Dev) : Prop where
  ftime : t.ftime = s.ftime
  chans : t.chans = s.chans
  time : t.time = s.time
  plank : t.plank = s.plank

theorem Dev.SameClock.trans {s t u : Dev} (h : Dev.SameClock s t) (g : Dev.SameClock t u) : Dev.SameClock s u :=
  ⟨g.ftime.trans h.ftime, g.chans.trans h.chans, g.time.trans h.time, g.plank.trans h.plank⟩

section
variable (s : Dev) (f : FTime → FTime) (master hops : Nat)

theorem Dev.modTime_staWord : (s.modTime f).staWord = s.staWord := rfl
theorem Dev.modTime_ftime : (s.modTime f).ftime = f s.ftime := rfl
theorem Dev.modTime_chan (c : Nat) : (s.modTime f).chan c = s.chan c := rfl
theorem Dev.modTime_time : (s.modTime f).time = s.time := rfl
theorem Dev.modTime_plank : (s.modTime f).plank = s.plank := rfl
theorem Dev.setTsta_clock (hi lo v : Nat) : Dev.SameClock s (s.setTsta hi lo v) := ⟨rfl, rfl, rfl, rfl⟩

theorem Dev.locked_clock : Dev.SameClock s (s.locked master hops) :=
  (((s.setTsta_clock ..).trans (Dev.setTsta_clock ..)).trans (Dev.setTsta_clock ..)).trans (Dev.setTsta_clock ..)

theorem Dev.locked_ftime : (s.locked master hops).ftime = s.ftime := (s.locked_clock master hops).ftime
theorem Dev.locked_chan (c : Nat) : (s.locked master hops).chan c = s.chan c := congrArg (·.get Chan.fresh c) (s.locked_clock master hops).chans
theorem Dev.locked_time : (s.locked master hops).time = s.time := (s.locked_clock master hops).time
theorem Dev.locked_plank : (s.locked master hops).plank = s.plank := (s.locked_clock master hops).plank

end

/-! ### A TIME message that is taken (R364) -/

/-- The clock takes the time of a message at first, and is slewed to it later. -/
def Dev.steer (s : Dev) (at_ plank : Nat) (off : Int) : Dev :=
  if s.ftime.from_.isNone && !s.anyLoaded then (s.setClock at_ plank).modTime fun t => { t with slew := 0 }
  else s.modTime fun t => { t with slew := off }

/-- A change of period that the master named is known, unless one is (R367). -/
def Dev.learnChange (s : Dev) (m : TimeMsg) : Dev :=
  match m.change, s.ftime.change with
  | some (b, per, fill), none =>
    (s.modTime fun t => { t with change := some (b.toNat, per, fill) }).wr64 .plk 0 0 Off.PLK_APPLY b.toNat
  | _, _ => s

/-- A message is taken: the clock follows it, the module says so, and a change of period that the master named is known. -/
def Dev.takeTime (s : Dev) (k : Nat) (m : TimeMsg) : Dev :=
  let at_ := m.time.toNat + s.ftime.delays.get 0 k
  let off : Int := (at_ : Int) - s.time
  let s := (s.wrF .evfMod 0 0 Off.EVF_TOFF 15 0 (toffOf off)).steer at_ m.plank.toNat off
  ((s.modTime fun t => { t with from_ := some k, lastMsg := s.plank }).locked m.master.val (m.hops + 1)).learnChange m

/-- A message is noted for the port that it came on. -/
def Dev.noteTime (s : Dev) (k : Nat) (m : TimeMsg) : Dev :=
  (s.bump .evfMod 0 0 Off.EVF_TIMEMSG 1).modTime fun t =>
    { t with heard := t.heard.set (0, 0) k (m.master.val + 1, m.hops), minWins := t.minWins.set 0 k m.minWin }

/-- A module in MASTER mode that hears a lower master sets CONFLICT (R365). -/
def Dev.noteMaster (s : Dev) (m : TimeMsg) : Dev :=
  let lower := match s.node with | some n => decide (m.master.val < n) | none => false
  if s.timeMode = 1 && lower then s.setTsta 27 27 1 else s

theorem Dev.timeIn_eq (s : Dev) (ch p : Nat) (m : TimeMsg) : s.timeIn ch p m =
    let t := (s.noteTime (ch * 8 + p) m).noteMaster m
    if !t.followsTime || t.timePort ≠ some (ch * 8 + p) then t else t.takeTime (ch * 8 + p) m := rfl

/-- What learning of a change leaves. -/
structure Dev.Learnt (s t : Dev) : Prop where
  timed : Dev.Timed (fun a => a = pageOff .plk 0 0 Off.PLK_APPLY ∨ a = pageOff .plk 0 0 (Off.PLK_APPLY + 4)) s t
  time : t.time = s.time
  plank : t.plank = s.plank
  chans : t.chans = s.chans
  ftime : t.ftime = { s.ftime with change := t.ftime.change }

theorem Dev.learnChange_learnt (s : Dev) (m : TimeMsg) : Dev.Learnt s (s.learnChange m) := by
  unfold Dev.learnChange
  split
  · exact ⟨(((Dev.Timed.refl _ s).modTime _).wr (.inl rfl) _).wr (.inr rfl) _, rfl, rfl, rfl, rfl⟩
  · exact ⟨.refl _ s, rfl, rfl, rfl, rfl⟩

/-- What steering the clock leaves: set at first, slewed later. -/
structure Dev.Steered (at_ plank : Nat) (off : Int) (s t : Dev) : Prop where
  timed : Dev.Timed evfModRegs s t
  sta : t.staWord = s.staWord
  ftime : t.ftime = { s.ftime with slew := t.ftime.slew }
  first : s.ftime.from_ = none → s.anyLoaded = false → t.time = at_ ∧ t.plank = plank ∧ ∀ c, c < 8 → t.chan c = clocked (s.chan c) at_ plank
  later : s.ftime.from_ ≠ none ∨ s.anyLoaded = true → t.time = s.time ∧ t.plank = s.plank ∧ t.ftime.slew = off

theorem Dev.steer_steered (s : Dev) (at_ plank : Nat) (off : Int) : Dev.Steered at_ plank off s (s.steer at_ plank off) := by
  have hcond : (s.ftime.from_.isNone && !s.anyLoaded) = true ↔ s.ftime.from_ = none ∧ s.anyLoaded = false := by simp
  by_cases h : s.ftime.from_ = none ∧ s.anyLoaded = false
  · obtain ⟨htimed, htime, hplank, hftime, hchan⟩ := s.setClock_timed at_ plank
    rw [Dev.steer, if_pos (hcond.2 h)]
    refine ⟨(htimed.mono fun _ h => h.elim).modTime _, (Dev.modTime_staWord ..).trans (htimed.rd id), ?_, fun _ _ => ⟨?_, ?_, fun c hc => ?_⟩, fun hlate => ?_⟩
    · rw [Dev.modTime_ftime, hftime]
    · rw [Dev.modTime_time, htime]
    · rw [Dev.modTime_plank, hplank]
    · rw [Dev.modTime_chan, hchan c hc]
    · exact hlate.elim (absurd h.1) fun hl => absurd (h.2.symm.trans hl) (by decide)
  · rw [Dev.steer, if_neg (mt hcond.1 h)]
    exact ⟨(Dev.Timed.refl _ s).modTime _, rfl, rfl, fun hf hl => absurd ⟨hf, hl⟩ h, fun _ => ⟨rfl, rfl, rfl⟩⟩

/-- What taking a message leaves. -/
structure Dev.TookTime (k : Nat) (m : TimeMsg) (s t : Dev) : Prop where
  timed : Dev.Timed anyReg s t
  heard : t.ftime.heard = s.ftime.heard
  conflict : t.tsta 27 27 = s.tsta 27 27
  source : t.ftime.from_ = some k
  lock : m.hops < 255 → t.tsta 2 0 = 1 ∧ t.tsta 17 3 = m.master.val ∧ t.tsta 18 18 = 1 ∧ t.tsta 26 19 = m.hops + 1
  first : s.ftime.from_ = none → s.anyLoaded = false → t.time = m.time.toNat + s.ftime.delays.get 0 k ∧ t.plank = m.plank.toNat ∧
    ∀ c, c < 8 → t.chan c = clocked (s.chan c) (m.time.toNat + s.ftime.delays.get 0 k) m.plank.toNat
  later : s.ftime.from_ ≠ none ∨ s.anyLoaded = true → t.time = s.time ∧ t.plank = s.plank ∧
    t.ftime.slew = (m.time.toNat + s.ftime.delays.get 0 k : Nat) - (s.time : Int)

theorem Dev.takeTime_took (s : Dev) (k : Nat) (m : TimeMsg) : Dev.TookTime k m s (s.takeTime k m) := by
  set at_ := m.time.toNat + s.ftime.delays.get 0 k with hat
  set off : Int := (at_ : Int) - s.time with hoff
  set u := s.wrF .evfMod 0 0 Off.EVF_TOFF 15 0 (toffOf off) with hu
  have hsteer := u.steer_steered at_ m.plank.toNat off
  set v := u.steer at_ m.plank.toNat off with hv
  set w := v.modTime fun t => { t with from_ := some k, lastMsg := v.plank } with hw
  have hlearn := (w.locked m.master.val (m.hops + 1)).learnChange_learnt m
  have htake : s.takeTime k m = (w.locked m.master.val (m.hops + 1)).learnChange m := rfl
  rw [htake]
  set x := (w.locked m.master.val (m.hops + 1)).learnChange m
  have hwrite : Dev.Timed evfModRegs s u := (Dev.Timed.refl _ s).wr (evfModRegs_of (o := Off.EVF_TOFF) (by decide)) _
  have hpage : Dev.Timed evfModRegs s (w.locked m.master.val (m.hops + 1)) :=
    ((hwrite.trans hsteer.timed).modTime _).trans (w.locked_timed ..)
  have hsta : x.staWord = (w.locked m.master.val (m.hops + 1)).staWord :=
    Dev.staWord_of hlearn.timed (by simp only [pageOff, Page.base, Off.EVF_TIME_STA, Off.PLK_APPLY]; omega)
  have hword : w.staWord = s.staWord := hsteer.sta.trans (Dev.wr_rd_other _ (by simp only [pageOff, Off.EVF_TIME_STA, Off.EVF_TOFF]; omega) _)
  have hftime : x.ftime = { s.ftime with slew := v.ftime.slew, from_ := some k, lastMsg := v.plank, change := x.ftime.change } := by
    rw [hlearn.ftime, Dev.locked_ftime, hw, Dev.modTime_ftime, hsteer.ftime]
    rfl
  refine ⟨(hpage.mono fun _ _ => trivial).trans (hlearn.timed.mono fun _ _ => trivial), ?_, ?_, ?_, fun hhops => ?_, fun hf hl => ?_, fun hlate => ?_⟩
  · rw [hftime]
  · rw [Dev.tsta_eq, hsta, ← Dev.tsta_eq, Dev.locked_conflict, Dev.tsta_eq, hword, Dev.tsta_eq]
  · rw [hftime]
  · have hlocked := w.locked_tsta m.master.isLt (show m.hops + 1 < 256 by omega)
    simpa only [Dev.tsta_eq, hsta] using hlocked
  · obtain ⟨htime, hplank, hchan⟩ := hsteer.first hf hl
    refine ⟨?_, ?_, fun c hc => ?_⟩
    · rw [hlearn.time, Dev.locked_time, hw, Dev.modTime_time, htime]
    · rw [hlearn.plank, Dev.locked_plank, hw, Dev.modTime_plank, hplank]
    · rw [Dev.chan, hlearn.chans, ← Dev.chan, Dev.locked_chan, hw, Dev.modTime_chan, hchan c hc]
      rfl
  · obtain ⟨htime, hplank, hslew⟩ := hsteer.later hlate
    refine ⟨?_, ?_, ?_⟩
    · rw [hlearn.time, Dev.locked_time, hw, Dev.modTime_time, htime]
      rfl
    · rw [hlearn.plank, Dev.locked_plank, hw, Dev.modTime_plank, hplank]
      rfl
    · rw [hftime]
      exact hslew

end Sys2Proof.Machine
end

section
/-! TIME messages (O59): what a module answers to one. -/

namespace Sys2Proof.Machine
open Sys2Proof

/-- What noting a message leaves: what was heard. -/
structure Dev.HeardTime (k : Nat) (m : TimeMsg) (s t : Dev) : Prop where
  timed : Dev.Timed evfModRegs s t
  ftime : t.ftime = { s.ftime with heard := s.ftime.heard.set (0, 0) k (m.master.val + 1, m.hops), minWins := s.ftime.minWins.set 0 k m.minWin }
  time : t.time = s.time
  plank : t.plank = s.plank
  chans : t.chans = s.chans
  mode : t.timeMode = s.timeMode
  node : t.node = s.node

theorem Dev.noteTime_heard (s : Dev) (k : Nat) (m : TimeMsg) : Dev.HeardTime k m s (s.noteTime k m) := by
  have hpage {o : Nat} (ho : o < 0x1000) := evfModRegs_of ho
  have hrd {o : Nat} (ho : o < 0x140) : (s.noteTime k m).rd .evfMod 0 0 o = s.rd .evfMod 0 0 o :=
    Dev.bump_rd_offset s (o := Off.EVF_TIMEMSG) (by decide) (by omega) (by simp only [Off.EVF_TIMEMSG]; omega) (by simp only [Off.EVF_TIMEMSG]; omega) 1
  exact {
    timed := ((Dev.Timed.refl _ s).bump (o := Off.EVF_TIMEMSG) (hpage (by decide)) (hpage (by decide)) 1).modTime _
    ftime := by rw [Dev.noteTime, Dev.modTime_ftime, Dev.bump_ftime]
    time := by rw [Dev.noteTime, Dev.modTime_time, Dev.bump_time]
    plank := by rw [Dev.noteTime, Dev.modTime_plank, Dev.bump_plank]
    chans := Dev.bump_chans ..
    mode := by rw [Dev.timeMode, Dev.rdF, hrd (by decide), Dev.timeMode, Dev.rdF]
    node := by rw [Dev.node_eq, hrd (by decide), Dev.node_eq] }

/-- A master that hears a lower one sets CONFLICT. -/
theorem Dev.HeardTime.noteMaster {k : Nat} {m : TimeMsg} {s u : Dev} (h : Dev.HeardTime k m s u) : Dev.HeardTime k m s (u.noteMaster m) ∧
    ∀ n, s.timeMode = 1 → s.node = some n → m.master.val < n → (u.noteMaster m).tsta 27 27 = 1 := by
  have hpage {o : Nat} (ho : o < 0x1000) := evfModRegs_of ho
  have hother {o : Nat} (ho : o < 0x10C) : (u.setTsta 27 27 1).rd .evfMod 0 0 o = u.rd .evfMod 0 0 o :=
    Dev.wr_rd_other u (o := Off.EVF_TIME_STA) (by simp only [pageOff, Off.EVF_TIME_STA]; omega) _
  have hset : Dev.HeardTime k m s (u.setTsta 27 27 1) := {
    timed := Dev.setTsta_timed h.timed (hpage (by decide)) ..
    ftime := (Dev.wrF_ftime ..).trans h.ftime
    time := (Dev.wrF_time ..).trans h.time
    plank := (Dev.wrF_plank ..).trans h.plank
    chans := (Dev.wrF_chans ..).trans h.chans
    mode := (congrArg (fld · 1 0) (hother (by decide))).trans h.mode
    node := (congrArg nodeOf (hother (by decide))).trans h.node }
  have hbit : (u.setTsta 27 27 1).tsta 27 27 = 1 := by
    rw [Dev.tsta_eq, Dev.setTsta_staWord, fld_setFld_same _ (by decide) (by decide)]
    rfl
  unfold Dev.noteMaster
  rw [h.mode, h.node]
  cases s.node with
  | none => exact ⟨by simpa using h, fun _ _ hn => by cases hn⟩
  | some n =>
    by_cases hlow : s.timeMode = 1 ∧ m.master.val < n
    · have hgo : (decide (s.timeMode = 1) && decide (m.master.val < n)) = true := by simpa using hlow
      dsimp only
      rw [if_pos hgo]
      exact ⟨hset, fun _ _ _ _ => hbit⟩
    · have hno : ¬ (decide (s.timeMode = 1) && decide (m.master.val < n)) = true := by simpa using hlow
      dsimp only
      rw [if_neg hno]
      exact ⟨h, fun k hone hn hk => absurd ⟨hone, Option.some.inj hn ▸ hk⟩ hlow⟩

section
variable {s : State} {ch : ChId} {p : PortIx} {m : TimeMsg} (hs : s.m.Settled) (hon : s.m.fabOn ch.val = true)
include hon

theorem exec_time {t : Dev} (ht : t = (s.m.noteTime (ch.val * 8 + p.val) m).noteMaster m) : exec (.timeReceive ch p m) s =
    s.done (if !t.followsTime || t.timePort ≠ some (ch.val * 8 + p.val) then t else t.takeTime (ch.val * 8 + p.val) m) := by
  rw [ht]
  exact (exec_only (f := fun d => d.timeIn ch.val p.val m) rfl hon).trans (congrArg s.done (s.m.timeIn_eq ..))

include hs

/-- What was heard stands for the port; CONFLICT that it sets stays. -/
theorem answers_timeHeard : Answers (.timeReceive ch p m) s fun t => ModQuiet s t ∧
    t.m.ftime.heard = s.m.ftime.heard.set (0, 0) (ch.val * 8 + p.val) (m.master.val + 1, m.hops) ∧
    ∀ n, s.m.timeMode = 1 → s.m.node = some n → m.master.val < n → t.m.tsta 27 27 = 1 := by
  obtain ⟨hnote, hconflict⟩ := (s.m.noteTime_heard (ch.val * 8 + p.val) m).noteMaster
  have hexec := exec_time (p := p) (m := m) hon rfl
  set t := (s.m.noteTime (ch.val * 8 + p.val) m).noteMaster m
  have htook := t.takeTime_took (ch.val * 8 + p.val) m
  by_cases hfree : (!t.followsTime || t.timePort ≠ some (ch.val * 8 + p.val)) = true
  · rw [if_pos hfree] at hexec
    exact hnote.timed.answers hs hexec ⟨by rw [hnote.ftime], hconflict⟩
  · rw [if_neg hfree] at hexec
    refine ((hnote.timed.mono fun _ _ => trivial).trans htook.timed).answers hs hexec ⟨?_, fun n hone hn hlow => ?_⟩
    · rw [htook.heard, hnote.ftime]
    · rw [htook.conflict, hconflict n hone hn hlow]

/-- In FREE mode nothing is taken. -/
theorem answers_timeFree (hmode : s.m.timeMode = 0) : Answers (.timeReceive ch p m) s fun t => ModQuiet s t ∧ t.m.time = s.m.time ∧
    t.m.plank = s.m.plank ∧ t.m.ftime.slew = s.m.ftime.slew ∧ t.m.ftime.from_ = s.m.ftime.from_ := by
  obtain ⟨hnote, hconflict⟩ := (s.m.noteTime_heard (ch.val * 8 + p.val) m).noteMaster
  have hexec := exec_time (p := p) (m := m) hon rfl
  set t := (s.m.noteTime (ch.val * 8 + p.val) m).noteMaster m
  have hfollows : t.followsTime = false := by simp [Dev.followsTime, hnote.mode, hmode]
  rw [if_pos (by rw [hfollows]; rfl)] at hexec
  exact hnote.timed.answers hs hexec ⟨hnote.time, hnote.plank, by rw [hnote.ftime], by rw [hnote.ftime]⟩

/-- In FABRIC mode the only message heard is taken. -/
theorem answers_timeFabric (hmode : s.m.timeMode = 3) (hheard : s.m.ftime.heard = []) (hup : (s.m.port ch.val p.val).state = 3) (hhops : m.hops < 255) :
    let at_ := m.time.toNat + s.m.ftime.delays.get 0 (ch.val * 8 + p.val)
    Answers (.timeReceive ch p m) s fun t => ModQuiet s t ∧ t.m.tsta 2 0 = 1 ∧ t.m.tsta 17 3 = m.master.val ∧ t.m.tsta 18 18 = 1 ∧
      t.m.tsta 26 19 = m.hops + 1 ∧ t.m.ftime.from_ = some (ch.val * 8 + p.val) ∧
      (s.m.ftime.from_ = none → s.m.anyLoaded = false → t.m.time = at_ ∧ t.m.plank = m.plank.toNat ∧
        ∀ c, c < 8 → (s.m.chan c).linkUp = true → (t.m.chan c).time = at_ ∧ (t.m.chan c).plank = m.plank.toNat) ∧
      (s.m.ftime.from_ ≠ none ∨ s.m.anyLoaded = true → t.m.time = s.m.time ∧ t.m.plank = s.m.plank ∧ t.m.ftime.slew = (at_ : Int) - s.m.time) := by
  intro at_
  obtain ⟨hnote, hconflict⟩ := (s.m.noteTime_heard (ch.val * 8 + p.val) m).noteMaster
  have hexec := exec_time (p := p) (m := m) hon rfl
  set t := (s.m.noteTime (ch.val * 8 + p.val) m).noteMaster m
  have htook := t.takeTime_took (ch.val * 8 + p.val) m
  have hfollows : t.followsTime = true := by simp [Dev.followsTime, hnote.mode, hmode]
  have hport : (t.port ((ch.val * 8 + p.val) / 8) ((ch.val * 8 + p.val) % 8)).state = 3 := by
    have hp := p.isLt
    rw [show (ch.val * 8 + p.val) / 8 = ch.val by omega, show (ch.val * 8 + p.val) % 8 = p.val by omega, Dev.port, Dev.fab_of_chans hnote.chans]
    exact hup
  have hsource : t.timePort = some (ch.val * 8 + p.val) := by
    have hset : t.ftime.heard = [(ch.val * 8 + p.val, m.master.val + 1, m.hops)] := by
      rw [hnote.ftime, hheard]
      simp [Store.set, Store.setD, Store.put]
    unfold Dev.timePort
    rw [hset]
    simp only [List.filter_cons, hport, decide_true, if_true, List.filter_nil]
    rfl
  have hloaded : t.anyLoaded = s.m.anyLoaded := by rw [Dev.anyLoaded, hnote.timed.ctxs, Dev.anyLoaded]
  have hat : m.time.toNat + t.ftime.delays.get 0 (ch.val * 8 + p.val) = at_ := by rw [hnote.ftime]
  rw [if_neg (by rw [hfollows, hsource]; simp)] at hexec
  obtain ⟨hsta, hmaster, hvalid, hhop⟩ := htook.lock hhops
  refine ((hnote.timed.mono fun _ _ => trivial).trans htook.timed).answers hs hexec ⟨hsta, hmaster, hvalid, hhop, htook.source, fun hf hl => ?_, fun hlate => ?_⟩
  · obtain ⟨htime, hplank, hchan⟩ := htook.first (by rw [hnote.ftime]; exact hf) (hloaded.trans hl)
    refine ⟨htime.trans hat, hplank, fun c hc hlink => ?_⟩
    have hclock : (t.takeTime (ch.val * 8 + p.val) m).chan c = clocked (s.m.chan c) at_ m.plank.toNat := by
      rw [hchan c hc, hat, Dev.chan, hnote.chans, ← Dev.chan]
    have hset : clocked (s.m.chan c) at_ m.plank.toNat = { s.m.chan c with time := at_, plank := m.plank.toNat } := if_pos hlink
    exact ⟨congrArg Chan.time (hclock.trans hset), congrArg Chan.plank (hclock.trans hset)⟩
  · obtain ⟨htime, hplank, hslew⟩ := htook.later (by rw [hnote.ftime, hloaded]; exact hlate)
    exact ⟨htime.trans hnote.time, hplank.trans hnote.plank, hslew.trans (by rw [hat, hnote.time])⟩

end

end Sys2Proof.Machine
end

section
/-! Device time and plank alignment (O59): masters, holdovers and edges (R363 to R366). -/

namespace Sys2Proof.Machine
open Sys2Proof

/-! ### What is sent is added to what has left (R348) -/

theorem Dev.emit_before (s : Dev) (o : Out) : s.out <+: (s.emit o).out := by
  unfold Dev.emit
  split
  · exact ⟨[], List.append_nil _⟩
  · exact ⟨_, rfl⟩

theorem Dev.pump_before (ch p n : Nat) : ∀ s : Dev, s.out <+: (s.pump ch p n).out := by
  have hall (ms : List TxMsg) : ∀ u : Dev, u.out <+: (ms.foldl (fun s m => s.emit (.fabric ch (some p) m.msg)) u).out := by
    induction ms with
    | nil => exact fun _ => ⟨[], List.append_nil _⟩
    | cons m ms ih => exact fun u => (u.emit_before _).trans (ih _)
  induction n with
  | zero => exact fun _ => ⟨[], List.append_nil _⟩
  | succ n ih =>
    intro s
    unfold Dev.pump
    dsimp only
    split
    · exact ⟨[], List.append_nil _⟩
    · refine List.IsPrefix.trans ?_ (ih _)
      refine List.IsPrefix.trans ?_ (hall _ _)
      rw [Dev.portBump, Dev.bump_out]
      exact ⟨[], List.append_nil _⟩

theorem Dev.sendOn_before (s : Dev) (ch p : Nat) (m : FabMsg) : s.out <+: (s.sendOn ch p m).out := by
  unfold Dev.sendOn
  split
  · exact Dev.pump_before ch p 128 (s.modPort ch p fun x => { x with txq := x.txq ++ [⟨msgVc m, msgGranules m, none, m⟩] })
  · exact ⟨[], List.append_nil _⟩

/-! ### A module that sends its time (R364, R365, R367) -/

/-- The UP ports of the module. -/
def Dev.modulePorts (s : Dev) : List (Nat × Nat) := ((List.range 8).map fun ch => (s.upPorts ch).map fun p => (ch, p)).flatten

theorem Dev.modulePorts_lt {s : Dev} {e : Nat × Nat} (h : e ∈ s.modulePorts) : e.1 < 8 ∧ e.2 < 8 := by
  obtain ⟨l, hl, he⟩ := List.mem_flatten.1 h
  obtain ⟨ch, hch, rfl⟩ := List.mem_map.1 hl
  obtain ⟨p, hp, rfl⟩ := List.mem_map.1 he
  exact ⟨List.mem_range.1 hch, List.mem_range.1 (List.mem_filter.1 hp).1⟩

theorem filter_only {l : List Nat} (hl : l.Nodup) {a : Nat} (ha : a ∈ l) {q : Nat → Bool} (hq : ∀ b, q b = true ↔ b = a) : l.filter q = [a] := by
  have heq : q = (· == a) := funext fun b => Bool.eq_iff_iff.2 (by rw [hq, beq_iff_eq])
  rw [heq, List.filter_beq, List.count_eq_one_of_mem hl ha]
  rfl

theorem flatten_only {β : Type} {f : Nat → List β} {a : Nat} (hf : ∀ b, b ≠ a → f b = []) : ∀ {l : List Nat}, l.Nodup → a ∈ l → (l.map f).flatten = f a := by
  intro l hl ha
  induction l with
  | nil => cases ha
  | cons b l ih =>
    obtain ⟨hb, hl⟩ := List.nodup_cons.1 hl
    rw [List.map_cons, List.flatten_cons]
    by_cases hab : b = a
    · subst hab
      have hrest : (l.map f).flatten = [] := by
        rw [List.flatten_eq_nil_iff]
        intro x hx
        obtain ⟨c, hc, rfl⟩ := List.mem_map.1 hx
        exact hf c fun e => hb (e ▸ hc)
      rw [hrest, List.append_nil]
    · rw [hf b hab, List.nil_append]
      exact ih hl ((List.mem_cons.1 ha).resolve_left (Ne.symm hab))

theorem Dev.modulePorts_one {s : Dev} {ch p : Nat} (hch : ch < 8) (hp : p < 8) (hup : (s.port ch p).state = 3)
    (hdown : ∀ c q, (c ≠ ch ∨ q ≠ p) → (s.port c q).state ≠ 3) : s.modulePorts = [(ch, p)] := by
  have hself : s.upPorts ch = [p] := filter_only List.nodup_range (List.mem_range.2 hp) fun b => by
    rw [decide_eq_true_eq]
    exact ⟨fun h => by_contra fun hne => hdown ch b (.inr hne) h, fun h => h ▸ hup⟩
  have hnone (c : Nat) (hc : c ≠ ch) : (s.upPorts c).map (fun q => (c, q)) = [] := by
    rw [List.map_eq_nil_iff]
    exact List.filter_eq_nil_iff.2 fun q _ => by simpa using hdown c q (.inl hc)
  exact (flatten_only hnone List.nodup_range (List.mem_range.2 hch)).trans (by rw [hself]; rfl)

/-- The TIME message that a module says: its own ID where it is the master, its master's where it follows one. -/
def Dev.timeSaid (s : Dev) (n : Nat) (master : Bool) : TimeMsg :=
  ⟨Fin.ofNat 32768 (if master then n else s.tsta 17 3), if master then 0 else s.tsta 26 19, BitVec.ofNat 64 s.time, BitVec.ofNat 64 s.plank, s.minWin,
    s.ftime.change.map fun c => (BitVec.ofNat 64 c.1, c.2.1, c.2.2)⟩

/-- Whether a module with ID `n` is a master of time. -/
def Dev.timeMaster (s : Dev) : Bool := s.timeMode = 1 && s.tsta 27 27 = 0

/-- Whether a port is told the time: not that of the same module, nor that which time comes from, nor one that has heard as good a master. -/
def Dev.wantsTime (s : Dev) (n who hops : Nat) (e : Nat × Nat) : Bool :=
  let same := match (s.port e.1 e.2).partner with | some h => decide (h.node.map (·.val) = some n) | none => false
  let v := s.ftime.heard.get (0, 0) (e.1 * 8 + e.2)
  !same && s.ftime.from_ ≠ some (e.1 * 8 + e.2) && (v.1 ≠ who + 1 || hops < v.2)

theorem Dev.timeSend_none {s : Dev} (hn : s.node = none) : s.timeSend = s := by
  unfold Dev.timeSend
  rw [hn]

theorem Dev.timeSend_some {s : Dev} {n : Nat} (hn : s.node = some n) : s.timeSend = if !s.timeMaster && !(s.followsTime && s.tsta 0 0 = 1) then s else
    (s.modulePorts.filter (s.wantsTime n (if s.timeMaster then n else s.tsta 17 3) (if s.timeMaster then 0 else s.tsta 26 19))).foldl
      (fun t e => t.sendOn e.1 e.2 (.time (s.timeSaid n s.timeMaster))) s := by
  unfold Dev.timeSend
  rw [hn]
  rfl

/-- What a module sends leaves its own time alone. -/
theorem Dev.timeSend_spoke (s : Dev) : Dev.Spoke txRegs s s.timeSend ∧ s.out <+: s.timeSend.out := by
  cases hn : s.node with
  | none => rw [Dev.timeSend_none hn]; exact ⟨.refl _ s, ⟨[], List.append_nil _⟩⟩
  | some n =>
    rw [Dev.timeSend_some hn]
    split
    · exact ⟨.refl _ s, ⟨[], List.append_nil _⟩⟩
    · refine ⟨s.foldl_spoke _ fun e he t => ?_, ?_⟩
      · obtain ⟨hch, hp⟩ := Dev.modulePorts_lt (List.mem_filter.1 he).1
        exact t.sendOn_spoke hch hp _
      · exact List.foldlRecOn (motive := fun t : Dev => s.out <+: t.out) _ _ ⟨[], List.append_nil _⟩ fun t ht e _ => ht.trans (t.sendOn_before ..)

section
variable {s : State} (hs : s.m.Settled)
include hs

theorem gives_timeSilent (hvin : s.m.vin = true) (hn : s.m.node = none) : Gives .timeSendTimer s s.m := by
  refine gives_done hs ((exec_only (f := fun m => m.timeSend) rfl hvin).trans (congrArg s.done ?_)) rfl
  exact Dev.timeSend_none hn

theorem answers_timeSend (hvin : s.m.vin = true) : Answers .timeSendTimer s fun t => ModQuiet s t ∧ t.m.time = s.m.time ∧ t.m.plank = s.m.plank ∧
    s.m.out <+: t.m.out :=
  have ⟨hsaid, hout⟩ := s.m.timeSend_spoke
  hsaid.linked.answers hs (exec_only (f := fun m => m.timeSend) rfl hvin) ⟨hsaid.time, hsaid.plank, hout⟩

/-- A master says its time on its only port. -/
theorem answers_timeSaid {n ch p : Nat} (hon : s.m.fabOn ch = true) (hch : ch < 8) (hp : p < 8) (hn : s.m.node = some n) (hid : n < 32768)
    (hmode : s.m.timeMode = 1) (hsta : s.m.tsta 27 27 = 0) (hheard : s.m.ftime.heard = []) (hfrom : s.m.ftime.from_ = none)
    (hport : s.m.port ch p = { Port.fresh with state := 3 }) (hdown : ∀ c q, (c ≠ ch ∨ q ≠ p) → (s.m.port c q).state ≠ 3) :
    Answers .timeSendTimer s fun t => ModQuiet s t ∧ ∃ msg : TimeMsg, t.m.out = s.m.out ++ [.fabric ch (some p) (.time msg)] ∧ msg.master.val = n ∧
      msg.hops = 0 ∧ msg.time = BitVec.ofNat 64 s.m.time ∧ msg.plank = BitVec.ofNat 64 s.m.plank := by
  have hvin : s.m.vin = true := by simp only [Dev.fabOn, Bool.and_eq_true] at hon; exact hon.1
  have hmaster : s.m.timeMaster = true := by simp [Dev.timeMaster, hmode, hsta]
  have hports := Dev.modulePorts_one hch hp (by rw [hport]) hdown
  have hwants : s.m.wantsTime n n 0 (ch, p) = true := by simp [Dev.wantsTime, hheard, hfrom, hport, Port.fresh]
  have hsend : s.m.timeSend = s.m.queueMsg ch p none (.time (s.m.timeSaid n true)) := by
    rw [Dev.timeSend_some hn, hmaster, hports]
    simp only [Bool.not_true, Bool.false_and, Bool.false_eq_true, if_false, if_true, List.filter_cons, hwants, List.filter_nil, List.foldl_cons, List.foldl_nil]
    exact if_pos hon
  refine s.m.timeSend_spoke.1.linked.answers hs (exec_only (f := fun m => m.timeSend) rfl hvin) ⟨s.m.timeSaid n true, ?_, ?_, rfl, rfl, rfl⟩
  · rw [hsend]
    exact Dev.queueMsg_out (by rw [hport]) (by rw [hport]; rfl) (by rw [hport]; decide) none (show 1 ≤ 64 by decide)
      (by rw [hport]; show 1 ≤ nth 0 Port.fresh.credits 3; decide)
  · exact Nat.mod_eq_of_lt hid

end

/-! ### Delays and holdovers (R364) -/

section
variable {s : State} (hs : s.m.Settled)
include hs

theorem gives_linkDelay {ch : ChId} (p : PortIx) (d : Nat) (hon : s.m.fabOn ch.val = true) :
    Gives (.linkDelayMeasure ch p d) s (s.m.modTime fun t => { t with delays := t.delays.set 0 (ch.val * 8 + p.val) d }) :=
  gives_done hs (exec_only (f := fun m => m.linkDelay ch.val p.val d) rfl hon) rfl

end

end Sys2Proof.Machine
end

section
/-! Device time and plank alignment (O59): holdovers, and edges of the plank input (R364, R366). -/

namespace Sys2Proof.Machine
open Sys2Proof

/-! ### TIME_LOST (R364, R366) -/

theorem Dev.raiseKeeps_clock (s : Dev) : Dev.RaiseKeeps fun m => m.time = s.time ∧ m.plank = s.plank where
  setReg _ _ h := h
  modChan _ _ h := h
  modTile _ _ h := h
  modClus _ _ h := h
  modMgt _ _ h := h
  emit _ h := ⟨(Dev.emit_time ..).trans h.1, (Dev.emit_plank ..).trans h.2⟩
  safeState _ h := h

/-- TIME_LOST is raised, and time keeping is in state LOST. -/
structure Dev.TimeLost (s t : Dev) (ch : Nat) : Prop where
  byte : ∀ a, t.byte a = s.byte a
  rqt : t.rqt = s.rqt
  time : t.time = s.time
  plank : t.plank = s.plank
  lost : t.tsta 2 0 = 4
  fault : bit (t.rd .evfCh ch 0 Off.PG_FLT) 7 = true

section
variable (s : Dev) (ch : Nat)

theorem Dev.raise_timeLost (h : s.tsta 2 0 = 4) : Dev.TimeLost s (s.raise ch 74) ch := by
  obtain ⟨hregs, hbit⟩ := s.raiseAt_fabric_reg (ch := ch) (ix := 74) (by decide) .none (.inl rfl) []
  have hsig := s.raise_signalled ch 74
  obtain ⟨htime, hplank⟩ := s.raiseKeeps_clock.raiseAt ch 74 false .none [] ⟨rfl, rfl⟩
  refine ⟨hsig.byte, hsig.table.rqt, htime, hplank, ?_, hbit⟩
  rw [Dev.tsta, Dev.rdF, Dev.raise, hregs.rd, ← Dev.rdF, ← Dev.tsta, h]
  rintro (h | h)
  · exact not_raiseRegs_evfMod (by decide) (by decide) h
  · exact not_fltRegs_evf (.inr ⟨rfl, rfl⟩) (by decide) h

/-- At RECORD nothing else that serves changes. -/
theorem Dev.raise_timed {ix : Nat} (hix : 67 ≤ ix ∧ ix < 76) (hrec : s.Records ch ix) : Dev.Timed anyReg s (s.raise ch ix) ∧
    (s.raise ch ix).ftime = s.ftime := by
  have hn : (collector ix).2 < (collector ix).1.nsrc := by
    rw [collector_fabric hix]
    show ix - 67 < 9
    omega
  have hraise := (Dev.InChan.refl anyReg ch s).raiseAt hrec (by omega) hn (fun _ _ => trivial) false []
  exact ⟨hraise.linked.timed, by rw [Dev.raise, hraise.shape]⟩

end

/-! ### What a holdover and an edge leave before a source is raised -/

/-- From `s` to `t` words of the module's fabric page, behind its header, and what time keeping keeps have changed. -/
structure Dev.Kept (s t : Dev) : Prop where
  shape : t = { s with regs := t.regs, ftime := t.ftime }
  timed : Dev.Timed evfModRegs s t
  header : ∀ ch o, o < 0x100 → t.rd .evfCh ch 0 o = s.rd .evfCh ch 0 o

namespace Dev.Kept
variable {s t u : Dev}

theorem refl (s : Dev) : Dev.Kept s s := ⟨rfl, .refl _ s, fun _ _ _ => rfl⟩

theorem trans (h : Dev.Kept s t) (g : Dev.Kept t u) : Dev.Kept s u :=
  ⟨by rw [g.shape, h.shape], h.timed.trans g.timed, fun ch o ho => (g.header ch o ho).trans (h.header ch o ho)⟩

theorem modTime (h : Dev.Kept s t) (f : FTime → FTime) : Dev.Kept s (t.modTime f) := h.trans ⟨rfl, (Dev.Timed.refl _ t).modTime f, fun _ _ _ => rfl⟩

theorem wr (h : Dev.Kept s t) {o : Nat} (hlo : 0x100 ≤ o) (hhi : o < 0x1000) (w : Word) : Dev.Kept s (t.wr .evfMod 0 0 o w) :=
  h.trans ⟨rfl, (Dev.Timed.refl _ t).wr (evfModRegs_of hhi) w, fun _ _ ho => t.wr_rd_offset hhi (by omega) (by omega) w⟩

theorem bump (h : Dev.Kept s t) {o : Nat} (hlo : 0x100 ≤ o) (hhi : o + 4 < 0x1000) (n : Nat) : Dev.Kept s (t.bump .evfMod 0 0 o n) := by
  obtain ⟨regs, e⟩ := t.bump_eq_regs .evfMod 0 0 o n
  refine h.trans ⟨by rw [e], (Dev.Timed.refl _ t).bump (evfModRegs_of (by omega)) (evfModRegs_of hhi) n, fun ch q hq => ?_⟩
  refine Dev.bump_reg_other _ (fun e => ?_) fun e => ?_ <;>
  · have hmod := congrArg (· % 0x1000) e
    simp only [pageOff_mod _ _ _ (show q < 0x1000 by omega), pageOff_mod _ _ _ (show o < 0x1000 by omega), pageOff_mod _ _ _ hhi] at hmod
    omega

theorem records (h : Dev.Kept s t) {ch ix : Nat} (hix : 67 ≤ ix ∧ ix < 76) (hrec : s.Records ch ix) : t.Records ch ix :=
  hrec.of_page fun o ho => by
    rw [collector_fabric hix]
    exact h.header ch o ho

theorem time (h : Dev.Kept s t) : t.time = s.time := by rw [h.shape]
theorem plank (h : Dev.Kept s t) : t.plank = s.plank := by rw [h.shape]

theorem bytes (h : Dev.Kept s t) (a : Nat) : t.byte a = s.byte a := by rw [h.shape]; rfl
theorem rqt (h : Dev.Kept s t) : t.rqt = s.rqt := by rw [h.shape]

/-- What is kept, and then TIME_LOST. -/
theorem lost (h : Dev.Kept s t) (hsta : t.tsta 2 0 = 4) (ch : Nat) : Dev.TimeLost s (t.raise ch 74) ch :=
  have r := t.raise_timeLost ch hsta
  ⟨fun a => (r.byte a).trans (h.bytes a), r.rqt.trans h.rqt, r.time.trans h.time, r.plank.trans h.plank, r.lost, r.fault⟩

end Dev.Kept

theorem Dev.setTsta_kept (s : Dev) (hi lo v : Nat) : Dev.Kept s (s.setTsta hi lo v) := (Dev.Kept.refl s).wr (by decide) (by decide) _

/-- The state field takes a value. -/
theorem Dev.setTsta_state (s : Dev) {v : Nat} (hv : v < 8) : (s.setTsta 2 0 v).tsta 2 0 = v := by
  rw [Dev.tsta_eq, Dev.setTsta_staWord, fld_setFld_same _ (by decide) (by decide)]
  exact Nat.mod_eq_of_lt hv

/-! ### Holdovers (R364) -/

section
variable {s : State} (hvin : s.m.vin = true)
include hvin

/-- The module as a holdover's end leaves it before TIME_LOST is raised. -/
def Dev.unslewed (s : Dev) : Dev := (s.setTsta 2 0 4).modTime fun t => { t with slew := 0 }

omit hvin in
theorem Dev.unslewed_kept (s : Dev) : Dev.Kept s s.unslewed := (s.setTsta_kept 2 0 4).modTime _

omit hvin in
theorem Dev.unslewed_state (s : Dev) : s.unslewed.tsta 2 0 = 4 := s.setTsta_state (by decide)

omit hvin in
theorem Dev.unslewed_slew (s : Dev) : s.unslewed.ftime.slew = 0 := rfl

theorem exec_holdover : exec .timeHoldoverExpire s = s.done (if s.m.followsTime && s.m.tsta 1 1 = 1 then s.m.unslewed.raise s.m.timeCh 74 else s.m) :=
  exec_only (f := fun m => m.holdoverEnd) rfl hvin

section
variable (hfollows : s.m.followsTime = true) (hheld : s.m.tsta 1 1 = 1)
include hfollows hheld

theorem does_holdoverEnd : Does .timeHoldoverExpire s fun t => SameBytes s t ∧ t.m.rqt = s.m.rqt ∧ t.m.tsta 2 0 = 4 ∧
    bit (t.m.rd .evfCh s.m.timeCh 0 Off.PG_FLT) 7 = true :=
  have hlost := s.m.unslewed_kept.lost s.m.unslewed_state s.m.timeCh
  does_done ((exec_holdover hvin).trans (congrArg s.done (if_pos (by simp [hfollows, hheld])))) ⟨hlost.byte, hlost.rqt, hlost.lost, hlost.fault⟩

theorem answers_holdoverEnd (hs : s.m.Settled) (hrec : s.m.Records s.m.timeCh 74) : Answers .timeHoldoverExpire s fun t => ModQuiet s t ∧
    t.m.tsta 2 0 = 4 ∧ t.m.ftime.slew = 0 ∧ bit (t.m.rd .evfCh s.m.timeCh 0 Off.PG_FLT) 7 = true := by
  have hkept := s.m.unslewed_kept
  have hlost := hkept.lost s.m.unslewed_state s.m.timeCh
  obtain ⟨hraise, hftime⟩ := s.m.unslewed.raise_timed s.m.timeCh (by decide) (hkept.records (by decide) hrec)
  exact ((hkept.timed.mono fun _ _ => trivial).trans hraise).answers hs ((exec_holdover hvin).trans (congrArg s.done (if_pos (by simp [hfollows, hheld]))))
    ⟨hlost.lost, (congrArg FTime.slew hftime).trans s.m.unslewed_slew, hlost.fault⟩

end

theorem gives_noHoldover (hs : s.m.Settled) (hheld : s.m.tsta 1 1 = 0) : Gives .timeHoldoverExpire s s.m :=
  gives_done hs ((exec_holdover hvin).trans (congrArg s.done (if_neg (by simp [hheld])))) rfl

end

end Sys2Proof.Machine
end

section
/-! Device time and plank alignment (O59): edges of the plank input, EVF_TIME_CTL, and time keeping as a whole (R363 to R366). -/

namespace Sys2Proof.Machine
open Sys2Proof

/-! ### Edges (R366) -/

/-- The module as an edge within the window leaves it. -/
def Dev.edgeTaken (s : Dev) (off : Int) : Dev :=
  (((s.modTime fun t => { t with edge := true, misses := 0, skew := off }).wrF .evfMod 0 0 Off.EVF_TOFF 15 0 (toffOf off)).setTsta 2 0 1)

/-- The module as an edge outside it leaves it, before TIME_LOST is raised. -/
def Dev.edgeCounted (s : Dev) : Dev := (s.bump .evfMod 0 0 Off.EVF_PINMISS 1).modTime fun t => { t with misses := t.misses + 1 }

section
variable (s : Dev)

theorem Dev.edgeTaken_kept (off : Int) : Dev.Kept s (s.edgeTaken off) :=
  ((((Dev.Kept.refl s).modTime _).wr (by decide) (by decide) _).wr (by decide) (by decide) _)

theorem Dev.edgeTaken_state (off : Int) : (s.edgeTaken off).tsta 2 0 = 1 := Dev.setTsta_state _ (by decide)

theorem Dev.edgeTaken_ftime (off : Int) : (s.edgeTaken off).ftime = { s.ftime with edge := true, misses := 0, skew := off } := rfl

theorem Dev.edgeCounted_kept : Dev.Kept s s.edgeCounted := ((Dev.Kept.refl s).bump (by decide) (by decide) 1).modTime _

theorem Dev.edgeCounted_ftime : s.edgeCounted.ftime = { s.ftime with misses := s.ftime.misses + 1 } := by
  rw [Dev.edgeCounted, Dev.modTime_ftime, Dev.bump_ftime]

theorem Dev.edgeCounted_state : s.edgeCounted.tsta 2 0 = s.tsta 2 0 := by
  rw [Dev.edgeCounted, Dev.tsta_eq, Dev.modTime_staWord, Dev.staWord, Dev.tsta_eq, Dev.staWord]
  exact congrArg (fld · 2 0) (Dev.bump_reg_other _ (by simp [pageOff, Off.EVF_TIME_STA, Off.EVF_PINMISS]) (by simp [pageOff, Off.EVF_TIME_STA, Off.EVF_PINMISS]))

/-- The half width of the window, in ns. -/
def Dev.pinWin : Nat := 10 * max 1 (s.rdF .evfMod 0 0 Off.EVF_TIME_CTL 15 8)

theorem Dev.timeCh_of {t : Dev} (h : t.ftime.from_ = s.ftime.from_) : t.timeCh = s.timeCh := by rw [Dev.timeCh, h, Dev.timeCh]

theorem Dev.plankIn_eq (off : Int) : s.plankIn off = if s.timeMode ≠ 2 then s else if off.natAbs ≤ s.pinWin then s.edgeTaken off else
    if s.ftime.misses = 2 then (s.edgeCounted.setTsta 2 0 4).raise s.timeCh 74 else s.edgeCounted := by
  have hmiss : (s.bump .evfMod 0 0 Off.EVF_PINMISS 1).edgeMissed =
      if (s.bump .evfMod 0 0 Off.EVF_PINMISS 1).ftime.misses + 1 = 3 then (s.edgeCounted.setTsta 2 0 4).raise s.edgeCounted.timeCh 74 else s.edgeCounted := rfl
  have hch : s.edgeCounted.timeCh = s.timeCh := s.timeCh_of (by rw [s.edgeCounted_ftime])
  rw [hch, Dev.bump_ftime] at hmiss
  have hnum : (s.ftime.misses + 1 = 3) = (s.ftime.misses = 2) := propext (by omega)
  simp only [hnum] at hmiss
  rw [← hmiss]
  rfl

end

section
variable {s : State} (hvin : s.m.vin = true) (off : Int)
include hvin

theorem exec_plankIn : exec (.plankInEdge off) s = s.done (s.m.plankIn off) := exec_only (f := fun m => m.plankIn off) rfl hvin

theorem gives_edgeIgnored (hs : s.m.Settled) (hmode : s.m.timeMode ≠ 2) : Gives (.plankInEdge off) s s.m :=
  gives_done hs ((exec_plankIn hvin off).trans (congrArg s.done (if_pos hmode))) rfl

theorem does_plankIn : Does (.plankInEdge off) s fun t => SameBytes s t ∧ t.m.rqt = s.m.rqt ∧ t.m.time = s.m.time ∧ t.m.plank = s.m.plank := by
  refine does_done (exec_plankIn hvin off) ?_
  have hkeep {m : Dev} (h : Dev.Kept s.m m) : SameBytes s { s with m := m } ∧ m.rqt = s.m.rqt ∧ m.time = s.m.time ∧ m.plank = s.m.plank :=
    ⟨h.bytes, h.rqt, h.time, h.plank⟩
  rw [s.m.plankIn_eq]
  split
  · exact hkeep (.refl _)
  · split
    · exact hkeep (s.m.edgeTaken_kept off)
    · split
      · have hlost := (s.m.edgeCounted_kept.trans (s.m.edgeCounted.setTsta_kept 2 0 4)).lost (Dev.setTsta_state _ (by decide)) s.m.timeCh
        exact ⟨hlost.byte, hlost.rqt, hlost.time, hlost.plank⟩
      · exact hkeep s.m.edgeCounted_kept

section
variable (hs : s.m.Settled) (hmode : s.m.timeMode = 2)
include hs hmode

theorem answers_edgeTaken (hin : off.natAbs ≤ s.m.pinWin) : Answers (.plankInEdge off) s fun t => ModQuiet s t ∧
    t.m.ftime = { s.m.ftime with edge := true, misses := 0, skew := off } ∧ t.m.tsta 2 0 = 1 := by
  have hexec := exec_plankIn hvin off
  rw [s.m.plankIn_eq, if_neg (by simp [hmode]), if_pos hin] at hexec
  exact (s.m.edgeTaken_kept off).timed.answers hs hexec ⟨s.m.edgeTaken_ftime off, s.m.edgeTaken_state off⟩

variable (hout : s.m.pinWin < off.natAbs)
include hout

theorem answers_edgeCounted (hmiss : s.m.ftime.misses ≠ 2) : Answers (.plankInEdge off) s fun t => ModQuiet s t ∧
    t.m.ftime = { s.m.ftime with misses := s.m.ftime.misses + 1 } ∧ t.m.tsta 2 0 = s.m.tsta 2 0 := by
  have hexec := exec_plankIn hvin off
  rw [s.m.plankIn_eq, if_neg (by simp [hmode]), if_neg (by omega), if_neg hmiss] at hexec
  exact s.m.edgeCounted_kept.timed.answers hs hexec ⟨s.m.edgeCounted_ftime, s.m.edgeCounted_state⟩

theorem answers_edgeLost (hmiss : s.m.ftime.misses = 2) (hrec : s.m.Records s.m.timeCh 74) : Answers (.plankInEdge off) s fun t => ModQuiet s t ∧
    t.m.tsta 2 0 = 4 ∧ bit (t.m.rd .evfCh s.m.timeCh 0 Off.PG_FLT) 7 = true := by
  have hexec := exec_plankIn hvin off
  rw [s.m.plankIn_eq, if_neg (by simp [hmode]), if_neg (by omega), if_pos hmiss] at hexec
  have hkept := s.m.edgeCounted_kept.trans (s.m.edgeCounted.setTsta_kept 2 0 4)
  have hlost := hkept.lost (Dev.setTsta_state _ (by decide)) s.m.timeCh
  obtain ⟨hraise, -⟩ := (s.m.edgeCounted.setTsta 2 0 4).raise_timed s.m.timeCh (by decide) (hkept.records (by decide) hrec)
  exact ((hkept.timed.mono fun _ _ => trivial).trans hraise).answers hs hexec ⟨hlost.lost, hlost.fault⟩

end

end

end Sys2Proof.Machine
end

section
/-! EVF_TIME_CTL, and time keeping as a whole (O59, R363 to R367). -/

namespace Sys2Proof.Machine
open Sys2Proof

/-! ### EVF_TIME_CTL (R363, R365) -/

theorem fld_and (w m : Word) (hi lo : Nat) : fld (w &&& m) hi lo = fld w hi lo &&& fld m hi lo := by
  refine Nat.eq_of_testBit_eq fun i => ?_
  rw [Nat.testBit_and, testBit_fld, testBit_fld, testBit_fld, bit, BitVec.toNat_and, Nat.testBit_and, ← bit, ← bit]
  cases decide (i < hi + 1 - lo) <;> rfl

/-- The word that a write of EVF_TIME_CTL leaves: a PIN_WIN of 0 counts as 1. -/
def timeCtlWord (v : Word) : Word := (if fld v 15 8 = 0 then setFld v 15 8 1 else v) &&& 0xFF03#32

theorem timeCtlWord_mode (v : Word) : fld (timeCtlWord v) 1 0 = fld v 1 0 := by
  rw [timeCtlWord, fld_and, show fld 0xFF03#32 1 0 = 2 ^ 2 - 1 by decide, Nat.and_two_pow_sub_one_eq_mod]
  have hlt (w : Word) : fld w 1 0 % 2 ^ 2 = fld w 1 0 := Nat.mod_eq_of_lt (Nat.mod_lt _ (by decide))
  rw [hlt]
  split
  · exact fld_setFld_apart v (hi := 15) (lo := 8) (hi' := 1) (lo' := 0) (by decide) (by decide) (.inr (by decide)) 1
  · rfl

theorem timeCtlWord_window (v : Word) : fld (timeCtlWord v) 15 8 = max 1 (fld v 15 8) := by
  rw [timeCtlWord, fld_and, show fld 0xFF03#32 15 8 = 2 ^ 8 - 1 by decide, Nat.and_two_pow_sub_one_eq_mod]
  have hlt (w : Word) : fld w 15 8 % 2 ^ 8 = fld w 15 8 := Nat.mod_eq_of_lt (Nat.mod_lt _ (by decide))
  rw [hlt]
  split
  · next h =>
    rw [fld_setFld_same _ (by decide) (by decide), h]
    rfl
  · next h => omega

/-- The registers that EVF_TIME_CTL changes. -/
def timeCtlRegs (a : Nat) : Prop := a = pageOff .evfMod 0 0 Off.EVF_TIME_CTL ∨ a = pageOff .evfMod 0 0 Off.EVF_TIME_STA

/-- The module after MODE is written: CONFLICT is clear. -/
def Dev.modeSet (s : Dev) (v : Word) : Dev := (s.wr .evfMod 0 0 Off.EVF_TIME_CTL (timeCtlWord v)).setTsta 27 27 0

/-- What the module followed is forgotten. -/
def Dev.timeForgot (s : Dev) : Dev :=
  (s.wr .evfMod 0 0 Off.EVF_TIME_STA 0).modTime fun t => { t with from_ := none, slew := 0, misses := 0, edge := false, skew := 0 }

/-- What a write of EVF_TIME_CTL leaves. -/
structure Dev.ModeIs (v : Word) (s t : Dev) : Prop where
  timed : Dev.Timed timeCtlRegs s t
  word : t.rd .evfMod 0 0 Off.EVF_TIME_CTL = timeCtlWord v
  clear : t.tsta 27 27 = 0

theorem Dev.ModeIs.setTsta {v : Word} {s t : Dev} (h : Dev.ModeIs v s t) {hi lo n : Nat} (hlo : lo ≤ hi) (hhi : hi < 27) : Dev.ModeIs v s (t.setTsta hi lo n) where
  timed := Dev.setTsta_timed h.timed (.inr rfl) ..
  word := (Dev.wr_rd_other _ (by decide) _).trans h.word
  clear := by
    rw [Dev.tsta_eq, Dev.setTsta_staWord, fld_setFld_apart _ hlo (by omega) (.inl hhi), ← Dev.tsta_eq, h.clear]

theorem Dev.timeForgot_timed (s : Dev) : Dev.Timed timeCtlRegs s s.timeForgot := ((Dev.Timed.refl timeCtlRegs s).wr (.inr rfl) 0).modTime _

theorem Dev.timeForgot_rd (s : Dev) (k : PageKind) (ch i o : Nat) : s.timeForgot.rd k ch i o = (s.wr .evfMod 0 0 Off.EVF_TIME_STA 0).rd k ch i o := rfl

theorem Dev.ModeIs.forgot {v : Word} {s t : Dev} (h : Dev.ModeIs v s t) : Dev.ModeIs v s t.timeForgot where
  timed := h.timed.trans t.timeForgot_timed
  word := by rw [Dev.timeForgot_rd, Dev.wr_rd_other _ (by decide), h.word]
  clear := by
    rw [Dev.tsta, Dev.rdF, Dev.timeForgot_rd, Dev.wr_rd_same]
    rfl

section
variable (s : Dev) (v : Word)

theorem Dev.modeSet_is : Dev.ModeIs v s (s.modeSet v) where
  timed := Dev.setTsta_timed ((Dev.Timed.refl _ s).wr (.inl rfl) _) (.inr rfl) ..
  word := (Dev.wr_rd_other _ (by decide) _).trans (Dev.wr_rd_same ..)
  clear := by
    rw [Dev.modeSet, Dev.tsta_eq, Dev.setTsta_staWord, fld_setFld_same _ (by decide) (by decide)]
    rfl

theorem Dev.timeCtl_is : Dev.ModeIs v s (s.timeCtl v) := by
  have hset := s.modeSet_is v
  unfold Dev.timeCtl
  extract_lets old w u u'
  split
  · exact hset
  · have hforgot : Dev.ModeIs v s u' := hset.forgot
    split
    · exact (hforgot.setTsta (by decide) (by decide)).setTsta (by decide) (by decide)
    · exact hforgot

end

theorem answers_timeCtl {s : State} (hs : s.m.Settled) {fn : Fn} (v : Word) (hw : s.m.Writes fn ⟨.evfMod, 0, 0⟩ Off.EVF_TIME_CTL) :
    Answers (.evfTimeCtlWrite fn v) s fun t => ModQuiet s t ∧ t.m.timeMode = fld v 1 0 ∧ t.m.tsta 27 27 = 0 ∧
      t.m.rdF .evfMod 0 0 Off.EVF_TIME_CTL 15 8 = max 1 (fld v 15 8) ∧ SameRegs s t timeCtlRegs := by
  have hset := s.m.timeCtl_is v
  have hbody : s.m.bodyWrite ⟨.evfMod, 0, 0⟩ (writeReader fn) Off.EVF_TIME_CTL v WrEnv.none = s.m.timeCtl v := by
    unfold Dev.bodyWrite
    dsimp only
    rw [if_neg (by decide), if_neg (by decide), if_pos rfl]
  refine hset.timed.answers hs (m := s.m.timeCtl v) (congrArg s.done ((Dev.put_evfMod (by decide) (by decide) (by decide) hw v).trans hbody))
    ⟨?_, hset.clear, ?_, hset.timed.reg⟩
  · exact (congrArg (fld · 1 0) hset.word).trans (timeCtlWord_mode v)
  · exact (congrArg (fld · 15 8) hset.word).trans (timeCtlWord_window v)

/-- Settles O59: time is taken from the first TIME message and then slewed, a holdover's end and the third edge missed raise TIME_LOST, and
EVF_TIME_CTL clears CONFLICT. -/
theorem timeIsKept : Obligations.TimeIsKept := by
  unfold Obligations.TimeIsKept
  intro s hs quiet
  refine ⟨fun ch p m hon => ?_, fun hvin => ?_, fun fn v hw => answers_timeCtl hs v hw⟩
  · intro k at_
    obtain ⟨t, ht, hquiet, hheard, hconflict⟩ := answers_timeHeard (p := p) (m := m) hs hon
    exact ⟨⟨t, ht, hquiet, hheard⟩, fun hmode hheard hup hhops => answers_timeFabric hs hon hmode hheard hup hhops,
      fun n hmode hn hlow => ⟨t, ht, hquiet, hconflict n hmode hn hlow⟩, fun hmode => answers_timeFree hs hon hmode,
      fun d => gives_linkDelay hs p d hon,
      fun n hn hid hmode hsta hheard hfrom hport hdown => answers_timeSaid hs hon ch.isLt p.isLt hn hid hmode hsta hheard hfrom hport hdown⟩
  · exact ⟨gives_timeSilent hs hvin, answers_timeSend hs hvin, does_holdoverEnd hvin, fun _ => gives_noHoldover hvin hs,
      does_plankIn hvin, fun hfollows hheld hrec => answers_holdoverEnd hvin hfollows hheld hs hrec,
      fun off => ⟨gives_edgeIgnored hvin off hs, answers_edgeTaken hvin off hs, answers_edgeCounted hvin off hs, answers_edgeLost hvin off hs⟩⟩

end Sys2Proof.Machine
end

section
/-! Port states and training (O54): detection, HELLO and what training leaves (R346, R353, R357, R393, R458). -/

namespace Sys2Proof.Machine
open Sys2Proof

/-! ### One port of a channel -/

/-- From `f` to `g` one port has become `x`. -/
structure Ported (p : Nat) (x : Port) (f g : Fab) : Prop where
  others : ∀ q, q ≠ p → portIn g q = portIn f q
  port : portIn g p = x

theorem Ported.refl (p : Nat) (f : Fab) : Ported p (portIn f p) f f := ⟨fun _ _ => rfl, rfl⟩

theorem Ported.pumped {p : Nat} {x : Port} {f g k : Fab} (h : Ported p x f g) (hk : Pumped p g k) : ∃ a b d e,
    Ported p { x with seqTx := a, txq := b, replay := d, credits := e } f k := by
  obtain ⟨a, b, d, e, hp⟩ := hk.port
  exact ⟨a, b, d, e, fun q hq => (hk.others q hq).trans (h.others q hq), by rw [hp, h.port]⟩

/-- Memory, the table, sequences and tiles stay. -/
def PortQuiet (s t : State) : Prop := SameBytes s t ∧ t.m.rqt = s.m.rqt ∧ t.m.seqs = s.m.seqs ∧ t.m.tiles = s.m.tiles

/-- All ports but one stay. -/
def PortFrame (ch p : Nat) (s t : State) : Prop := PortQuiet s t ∧ ∀ c q, (c ≠ ch ∨ q ≠ p) → t.m.port c q = s.m.port c q

section
variable {R : Nat → Prop} {ch : Nat} {c : Chan} {s t : Dev}

theorem Dev.InChan.portQuiet (h : Dev.InChan R ch c s t) (q : List Instr) : PortQuiet ⟨q, s⟩ ⟨q, t⟩ := ⟨h.byte, h.rqt, h.seqs, h.tiles⟩

/-- A port takes a value that follows from the one it had. -/
theorem Dev.InChan.setPort {g : Fab} {p : Nat} {x : Port} (h : Dev.InChan R ch (withFab (s.chan ch) g) s t) (hg : Ported p x (s.fab ch) g)
    (f : Port → Port) : ∃ k, Ported p (f x) (s.fab ch) k ∧ Dev.InChan R ch (withFab (s.chan ch) k) s (t.modPort ch p f) := by
  refine ⟨withPort g p (f (portIn g p)), ⟨fun q hq => (portIn_withPort_other g hq _).trans (hg.others q hq), ?_⟩, h.modPort p f⟩
  rw [portIn_withPort_same, hg.port]

theorem Dev.InChan.portFrame {g : Fab} {p : Nat} {x : Port} (h : Dev.InChan R ch (withFab (s.chan ch) g) s t) (hg : Ported p x (s.fab ch) g)
    (q : List Instr) : PortFrame ch p ⟨q, s⟩ ⟨q, t⟩ := by
  refine ⟨h.portQuiet q, fun d r hdr => ?_⟩
  show t.port d r = s.port d r
  by_cases hd : d = ch
  · rw [hd, h.port]
    exact hg.others r (hdr.resolve_left (not_not.2 hd))
  · rw [Dev.port, Dev.fab, h.others d hd]
    rfl

end

/-- One port takes a value. -/
theorem Dev.setPort_inChan (s : Dev) (ch p : Nat) (f : Port → Port) : ∃ g, Ported p (f (s.port ch p)) (s.fab ch) g ∧
    Dev.InChan (fun _ => False) ch (withFab (s.chan ch) g) s (s.modPort ch p f) :=
  Dev.InChan.setPort (g := s.fab ch) (.refl _ ch s) (.refl p _) f

/-- A command that changes one port of a channel. -/
theorem answers_port {R : Nat → Prop} {s : State} {ch p : Nat} {g : Fab} {x : Port} {m : Dev} (hs : s.m.Settled)
    (h : Dev.InChan R ch (withFab (s.m.chan ch) g) s.m m) (hg : Ported p x (s.m.fab ch) g) {i : Instr} (hexec : exec i s = s.done m) {P : State → Prop}
    (hp : m.port ch p = x → P { s with m := m }) : Answers i s fun t => PortFrame ch p s t ∧ P t :=
  answers_done hexec (h.settled hs) ⟨h.portFrame hg s.pending, hp ((h.port p).trans hg.port)⟩

/-! ### A detected signal, and the retry (R346) -/

section
variable {s : State} {ch : ChId} {p : PortIx} (hs : s.m.Settled)
include hs

/-- A port that trains: its partner is not known yet. -/
def trainingPort (x : Port) : Port := { x with state := 2, partner := none }

theorem answers_startTraining {c : Instr} (hc : c ∈ [Instr.portSignalDetect ch p, .portRetryTimer ch p]) (hon : s.m.fabOn ch.val = true)
    (hdown : (s.m.port ch.val p.val).state = 1) : Answers c s fun t => PortFrame ch.val p.val s t ∧ t.m.regs = s.m.regs ∧
      t.m.port ch.val p.val = { s.m.port ch.val p.val with state := 2, partner := none } := by
  have hexec : exec c s = s.done (s.m.startTraining ch.val p.val) := by
    simp only [List.mem_cons, List.not_mem_nil, or_false] at hc
    obtain rfl | rfl := hc <;> rfl
  obtain ⟨g, hg, h⟩ := s.m.setPort_inChan ch.val p.val trainingPort
  exact answers_port hs h hg (hexec.trans (congrArg s.done (if_pos ⟨hdown, hon⟩))) fun h => ⟨rfl, h⟩

theorem gives_noTraining {c : Instr} (hc : c ∈ [Instr.portSignalDetect ch p, .portRetryTimer ch p]) (hdown : (s.m.port ch.val p.val).state ≠ 1) :
    Gives c s s.m := by
  have hexec : exec c s = s.done (s.m.startTraining ch.val p.val) := by
    simp only [List.mem_cons, List.not_mem_nil, or_false] at hc
    obtain rfl | rfl := hc <;> rfl
  exact gives_done hs (hexec.trans (congrArg s.done (if_neg fun h => hdown h.1))) rfl

end

/-! ### HELLO (R346, R357, R393, R458) -/

/-- The registers that a HELLO changes: the sibling entries, and the recorder's counters. -/
def helloRegs (ch a : Nat) : Prop := recRegs ch a ∨ ∃ n, n < 8 ∧ a = pageOff .evfCh ch 0 (Off.EVF_SIB + 4 * n)

theorem helloRegs_sib {ch n : Nat} (hn : n < 8) : helloRegs ch (pageOff .evfCh ch 0 (Off.EVF_SIB + 4 * n)) := .inr ⟨n, hn, rfl⟩

/-- A port that a HELLO has told of its partner: one in standby takes it DOWN. -/
def helloPort (x : Port) (h : Hello) : Port :=
  if h.standby then { x with partner := some h, state := 1, txq := [], replay := [] } else { x with partner := some h }

section
variable {ch p : Nat} {s t : Dev} {g : Fab} {x : Port}

theorem Dev.learnSibling_eq (t : Dev) (ch p : Nat) (e : Hello) : t.learnSibling ch p e = t ∨
    ∃ w, t.learnSibling ch p e = t.wr .evfCh ch 0 (Off.EVF_SIB + 4 * e.ch.val) w := by
  unfold Dev.learnSibling
  generalize t.node = a, e.node = b
  cases a with
  | none => exact .inl rfl
  | some n =>
    cases b with
    | none => exact .inl rfl
    | some k =>
      dsimp only
      split
      · exact .inr ⟨_, rfl⟩
      · exact .inl rfl

theorem Dev.InChan.learnSibling {c : Chan} (h : Dev.InChan (helloRegs ch) ch c s t) (p : Nat) (e : Hello) :
    Dev.InChan (helloRegs ch) ch c s (t.learnSibling ch p e) ∧ (t.learnSibling ch p e).out = t.out := by
  have hwrite (w : Word) : Dev.InChan (helloRegs ch) ch c s (t.wr .evfCh ch 0 (Off.EVF_SIB + 4 * e.ch.val) w) := h.wr (helloRegs_sib e.ch.isLt) w
  obtain hnone | ⟨w, hw⟩ := t.learnSibling_eq ch p e
  · rw [hnone]
    exact ⟨h, rfl⟩
  · rw [hw]
    exact ⟨hwrite w, Dev.wr_out ..⟩

theorem Dev.InChan.takeHello (h : Dev.InChan (helloRegs ch) ch (withFab (s.chan ch) g) s t) (hg : Ported p x (s.fab ch) g) (e : Hello) :
    ∃ k, Ported p (helloPort x e) (s.fab ch) k ∧ Dev.InChan (helloRegs ch) ch (withFab (s.chan ch) k) s (t.takeHello ch p e) ∧
      (t.takeHello ch p e).out = t.out := by
  obtain ⟨k, hk, htold⟩ := h.setPort hg fun y => { y with partner := some e }
  obtain ⟨hlearn, hout⟩ := htold.learnSibling p e
  unfold Dev.takeHello
  extract_lets old u was node v
  have hv : Dev.InChan (helloRegs ch) ch (withFab (s.chan ch) k) s v ∧ v.out = t.out := by
    unfold v
    split
    · exact ⟨hlearn.record (fun _ h => .inl h) _, (Dev.record_out _ ch rfl).trans hout⟩
    · exact ⟨hlearn, hout⟩
  obtain ⟨hv, hvout⟩ := hv
  unfold helloPort
  split
  · obtain ⟨l, hl, hdown⟩ := hv.setPort hk fun y => { y with state := 1, txq := [], replay := [] }
    exact ⟨l, hl, hdown, hvout⟩
  · exact ⟨k, hk, hv, hvout⟩

end

end Sys2Proof.Machine
end

section
/-! Training that ends, and HELLO on a port that is UP (O54, R346, R393, R458). -/

namespace Sys2Proof.Machine
open Sys2Proof

/-! ### Flits that go out in two goes (R348) -/

/-- Whether a port sends no further flit. -/
def pumpStops (x : Port) : Prop := x.state ≠ 3 ∨ 64 ≤ x.replay.length ∨ (fillFlit (x.txq.length + 1) ⟨x.txq, x.credits, 64, []⟩).room = 64

/-- A flit that leaves. -/
def Dev.flitOut (s : Dev) (ch p : Nat) : Dev :=
  let pt := s.port ch p
  let f := fillFlit (pt.txq.length + 1) ⟨pt.txq, pt.credits, 64, []⟩
  let sq := (pt.seqTx + 1) % 4096
  let s := s.modPort ch p fun x => { x with seqTx := sq, txq := f.q, replay := x.replay ++ [(sq, f.ended)], credits := f.credits }
  f.ended.foldl (fun s m => s.emit (.fabric ch (some p) m.msg)) (s.portBump ch p Off.EVF_TXFLIT 1)

theorem Dev.pump_stopped {s : Dev} {ch p : Nat} (h : pumpStops (s.port ch p)) (n : Nat) : s.pump ch p n = s := by
  cases n with
  | zero => rfl
  | succ n =>
    rw [Dev.pump]
    exact if_pos h

theorem Dev.pump_going {s : Dev} {ch p : Nat} (h : ¬ pumpStops (s.port ch p)) (n : Nat) : s.pump ch p (n + 1) = (s.flitOut ch p).pump ch p n := by
  rw [Dev.pump]
  exact if_neg h

theorem Dev.pump_pump (ch p m n : Nat) : ∀ s : Dev, (s.pump ch p n).pump ch p m = s.pump ch p (n + m) := by
  induction n with
  | zero => exact fun s => by rw [Nat.zero_add]; rfl
  | succ n ih =>
    intro s
    by_cases h : pumpStops (s.port ch p)
    · rw [Dev.pump_stopped h, Dev.pump_stopped h, Dev.pump_stopped h]
    · rw [Dev.pump_going h, ih, Nat.succ_add, Dev.pump_going h]

/-! ### Lock and HELLO (R346) -/

/-- A HELLO changes no register that says whether the fabric runs, who the module is, or what the channel's fault state is. -/
theorem not_helloRegs {ch d o : Nat} {k : PageKind} (hk : k = .fltCh ∧ d = ch ∨ k = .pwrCh ∧ d = ch ∨ k = .evfMod ∧ d = 0) (ho : o < 0x1000) :
    ¬ helloRegs ch (pageOff k d 0 o) := by
  rintro (h | ⟨n, hn, h⟩)
  all_goals
    rcases hk with ⟨rfl, rfl⟩ | ⟨rfl, rfl⟩ | ⟨rfl, rfl⟩ <;>
      simp only [recRegs, pageOff, Page.base, chanWin, Off.EVR_REC, Off.EVR_SUPP, Off.EVF_SIB] at h <;> omega

section
variable {ch p : Nat} {s t : Dev} {g : Fab} {x : Port}

/-- What a module says of itself stays with a HELLO that it hears. -/
theorem Dev.InChan.says {c : Chan} (h : Dev.InChan (helloRegs ch) ch c s t) : t.fabOn ch = s.fabOn ch ∧ t.node = s.node ∧ t.fltState ch = s.fltState ch := by
  have hcs : t.cstate ch = s.cstate ch := congrArg (fld · 1 0) (h.reg _ (not_helloRegs (.inr (.inl ⟨rfl, rfl⟩)) (by decide)))
  have hnode : t.rd .evfMod 0 0 Off.EVF_NODE = s.rd .evfMod 0 0 Off.EVF_NODE := h.reg _ (not_helloRegs (.inr (.inr ⟨rfl, rfl⟩)) (by decide))
  have hflt : t.fltState ch = s.fltState ch := congrArg (fld · 1 0) (h.reg _ (not_helloRegs (.inl ⟨rfl, rfl⟩) (by decide)))
  have hvin : t.vin = s.vin := by rw [h.shape]
  exact ⟨by rw [Dev.fabOn, hvin, hcs, Dev.fabOn], by rw [Dev.node_eq, hnode, Dev.node_eq], hflt⟩

/-- The module's HELLO goes out, with what waited on the port. -/
theorem Dev.InChan.sayHello (h : Dev.InChan (helloRegs ch) ch (withFab (s.chan ch) g) s t) (hg : Ported p x (s.fab ch) g) (hp : p < 8) :
    let u := (t.helloOn ch p false).pump ch p 128
    ∃ k a b d e, Ported p { x with seqTx := a, txq := b, replay := d, credits := e } (s.fab ch) k ∧ Dev.InChan anyReg ch (withFab (s.chan ch) k) s u := by
  obtain ⟨k, hk, hsent⟩ := (h.mono fun _ _ => trivial : Dev.InChan anyReg ch (withFab (s.chan ch) g) s t).sendOn (fun _ _ => trivial) hp
    (.hello t.node ch p (t.fltState ch) false)
  obtain ⟨l, hl, hpump⟩ := hsent.pump (p := p) trivial trivial 128
  obtain ⟨a, b, d, e, hport⟩ := hg.pumped (hk.trans hl)
  exact ⟨l, a, b, d, e, hport, hpump⟩

/-- A port that has trained in full says HELLO at once. -/
theorem Dev.helloOn_out {t : Dev} (hon : t.fabOn ch = true) (hport : ∃ f h, t.port ch p = { Port.fresh with state := 3, partner := h, fails := f }) :
    ((t.helloOn ch p false).pump ch p 128).out = t.out ++ [.fabric ch (some p) (.hello t.node ch p (t.fltState ch) false)] := by
  obtain ⟨f, h, hport⟩ := hport
  set m : FabMsg := .hello t.node ch p (t.fltState ch) false
  set u := t.modPort ch p fun y => { y with txq := y.txq ++ [⟨msgVc m, msgGranules m, none, m⟩] } with hu
  have hsend : t.helloOn ch p false = u.pump ch p 128 := if_pos hon
  have hup : u.port ch p = { Port.fresh with state := 3, partner := h, fails := f, txq := [⟨msgVc m, msgGranules m, none, m⟩] } := by
    rw [hu, Dev.port_modPort_same, hport]
    rfl
  rw [hsend, Dev.pump_pump]
  exact Dev.pump_one (st := none) (by rw [hup]) (by rw [hup]) (by rw [hup]; exact Nat.zero_lt_succ 63) (show 1 ≤ 64 by decide)
    (by rw [hup]; show 1 ≤ nth 0 Port.fresh.credits 3; decide)

end

section
variable {s : State} {ch : ChId} {p : PortIx} {h : Hello} (hs : s.m.Settled) (hon : s.m.fabOn ch.val = true)
include hs hon

/-- A port that trains in full comes UP afresh. -/
def upPort (x : Port) : Port := { Port.fresh with state := 3, fails := x.fails }

/-- A port that locks again comes UP as it was. -/
def relockPort (x : Port) : Port := { x with state := 3, fast := false }

variable (hwake : h.standby = false)
include hwake

theorem answers_trainedFull (hstate : (s.m.port ch.val p.val).state = 2) : Answers (.portTrainingDone ch p h) s fun t => PortFrame ch.val p.val s t ∧
    (t.m.port ch.val p.val).state = 3 ∧ (t.m.port ch.val p.val).partner = some h ∧ (t.m.port ch.val p.val).seqRx = 0 ∧
    t.m.out = s.m.out ++ [.fabric ch.val (some p.val) (.hello s.m.node ch.val p.val (s.m.fltState ch.val) false)] := by
  obtain ⟨g, hg, hup⟩ := s.m.setPort_inChan ch.val p.val upPort
  obtain ⟨k, hk, htold, hout⟩ := (hup.mono fun _ h => h.elim).takeHello hg h
  have hexec : exec (.portTrainingDone ch p h) s =
      s.done ((((s.m.modPort ch.val p.val upPort).takeHello ch.val p.val h).helloOn ch.val p.val false).pump ch.val p.val 128) :=
    (exec_only (f := fun m => m.trained ch.val p.val h) rfl hon).trans (congrArg s.done (if_pos hstate))
  set t := (s.m.modPort ch.val p.val upPort).takeHello ch.val p.val h
  obtain ⟨honn, hnode, hflt⟩ := htold.says
  rw [helloPort, hwake] at hk
  obtain ⟨l, a, b, d, e, hl, hsaid⟩ := htold.sayHello hk p.isLt
  refine answers_port hs hsaid hl hexec fun hport => ⟨by rw [hport]; rfl, by rw [hport]; rfl, by rw [hport]; rfl, ?_⟩
  have hsay := Dev.helloOn_out (p := p.val) (honn.trans hon) ⟨(s.m.port ch.val p.val).fails, some h, (htold.port _).trans hk.port⟩
  rw [hnode, hflt, hout] at hsay
  exact hsay

theorem answers_trainedAgain (hstate : (s.m.port ch.val p.val).state = 4) : Answers (.portTrainingDone ch p h) s fun t => PortFrame ch.val p.val s t ∧
    (t.m.port ch.val p.val).state = 3 ∧ (t.m.port ch.val p.val).partner = some h := by
  obtain ⟨g, hg, hup⟩ := s.m.setPort_inChan ch.val p.val relockPort
  obtain ⟨k, hk, htold, -⟩ := (hup.mono fun _ h => h.elim).takeHello hg h
  have hexec : exec (.portTrainingDone ch p h) s =
      s.done ((((s.m.modPort ch.val p.val relockPort).takeHello ch.val p.val h).helloOn ch.val p.val false).pump ch.val p.val 128) :=
    (exec_only (f := fun m => m.trained ch.val p.val h) rfl hon).trans (congrArg s.done ((if_neg (by omega)).trans (if_pos hstate)))
  rw [helloPort, hwake] at hk
  obtain ⟨l, a, b, d, e, hl, hsaid⟩ := htold.sayHello hk p.isLt
  exact answers_port hs hsaid hl hexec fun hport => ⟨by rw [hport]; rfl, by rw [hport]; rfl⟩

omit hwake

theorem answers_hello (hstate : (s.m.port ch.val p.val).state = 3) : Answers (.helloReceive ch p h) s fun t => PortFrame ch.val p.val s t ∧
    t.m.port ch.val p.val = helloPort (s.m.port ch.val p.val) h ∧ t.m.out = s.m.out := by
  obtain ⟨k, hk, htold, hout⟩ := Dev.InChan.takeHello (g := s.m.fab ch.val) (.refl _ ch.val s.m) (.refl p.val _) h
  exact answers_port hs htold hk ((exec_only (f := fun m => m.helloIn ch.val p.val h) rfl hon).trans (congrArg s.done (if_pos hstate)))
    fun hport => ⟨hport, hout⟩

end

end Sys2Proof.Machine
end

section
/-! Training that fails, and ports that retrain (O54, R346, R353). -/

namespace Sys2Proof.Machine
open Sys2Proof

section
variable {s t : Dev} {ch ix : Nat}

/-- A fabric source that names a port leaves memory, the table and the fabrics, and shows. -/
theorem Dev.raisePort_as (s : Dev) {ch ix : Nat} (hix : 67 ≤ ix ∧ ix < 76) (p : PortIx) (data : List Nat) :
    let t := s.raiseAt ch ix false (.port p) data
    s.Signalled t ∧ (∀ d q, t.port d q = s.port d q) ∧ bit (t.rd .evfCh ch 0 Off.PG_FLT) (ix - 67) = true := by
  refine ⟨(Dev.Signalled.raiseKeeps s).raiseAt _ _ _ _ _ (.refl s), fun d q => ?_, (s.raiseAt_fabric_reg hix (.port p) (.inr ⟨p, rfl⟩) data).2⟩
  rw [Dev.port, (s.raiseAt_fabs ch ix false (.port p) data).fab, Dev.port]

/-- At RECORD only the channel's recorder and registers change. -/
theorem Dev.InChan.raisePort {c : Chan} (h : Dev.InChan anyReg ch c s t) (hix : 67 ≤ ix ∧ ix < 76) (hrec : t.Records ch ix) (p : PortIx) (data : List Nat) :
    Dev.InChan anyReg ch c s (t.raiseAt ch ix false (.port p) data) := by
  have hn : (collector ix).2 < (collector ix).1.nsrc := by
    rw [collector_fabric hix]
    show ix - 67 < 9
    omega
  rw [Dev.raiseAt_port hix hrec]
  exact h.raiseAt hrec (by omega) hn (fun _ _ => trivial) false data

end

/-! ### Training that fails (R346) -/

/-- The failures of full trainings in the last 10 s. -/
def recentFails (x : Port) (now : Nat) : List Nat := x.fails.filter fun t => decide (now < t + 10000)

section
variable {s : State} {ch : ChId} {p : PortIx} (hon : s.m.fabOn ch.val = true)
include hon

theorem exec_trainFail : exec (.portTrainingFail ch p) s = s.done (s.m.trainFail ch.val p.val) := exec_only (f := fun m => m.trainFail ch.val p.val) rfl hon

section
variable (hs : s.m.Settled)
include hs

theorem answers_firstFail (hstate : (s.m.port ch.val p.val).state = 2) : Answers (.portTrainingFail ch p) s fun t => PortFrame ch.val p.val s t ∧
    t.m.regs = s.m.regs ∧ t.m.port ch.val p.val = { s.m.port ch.val p.val with state := 1 } := by
  obtain ⟨g, hg, h⟩ := s.m.setPort_inChan ch.val p.val fun x => { x with state := 1 }
  exact answers_port hs h hg ((exec_trainFail hon).trans (congrArg s.done (if_pos hstate))) fun hport => ⟨rfl, hport⟩

variable (hstate : (s.m.port ch.val p.val).state = 4)
include hstate

theorem answers_relockFail (hfast : (s.m.port ch.val p.val).fast = true) : Answers (.portTrainingFail ch p) s fun t => PortFrame ch.val p.val s t ∧
    t.m.regs = s.m.regs ∧ t.m.port ch.val p.val = { s.m.port ch.val p.val with fast := false } := by
  obtain ⟨g, hg, h⟩ := s.m.setPort_inChan ch.val p.val fun x => { x with fast := false }
  exact answers_port hs h hg ((exec_trainFail hon).trans (congrArg s.done ((if_neg (by omega)).trans ((if_pos hstate).trans (if_pos hfast)))))
    fun hport => ⟨rfl, hport⟩

end

variable (hstate : (s.m.port ch.val p.val).state = 4) (hfast : (s.m.port ch.val p.val).fast = false)
include hstate hfast

theorem exec_fullFail : exec (.portTrainingFail ch p) s = s.done (if 2 ≤ (recentFails (s.m.port ch.val p.val) (s.m.chMs ch.val)).length then
    (s.m.modPort ch.val p.val fun _ => { Port.fresh with state := 1 }).raiseAt ch.val 68 false (.port (Fin.ofNat 8 p.val)) [p.val]
    else s.m.modPort ch.val p.val fun x => { x with fails := s.m.chMs ch.val :: recentFails (s.m.port ch.val p.val) (s.m.chMs ch.val) }) := by
  refine (exec_trainFail hon).trans (congrArg s.done ((if_neg (by omega)).trans ((if_pos hstate).trans ((if_neg (by rw [hfast]; decide)).trans ?_))))
  exact if_congr (by rw [List.length_cons, ← recentFails]; omega) rfl rfl

theorem answers_fullFail (hs : s.m.Settled) (hfew : (recentFails (s.m.port ch.val p.val) (s.m.chMs ch.val)).length < 2) :
    Answers (.portTrainingFail ch p) s fun t => PortFrame ch.val p.val s t ∧ t.m.regs = s.m.regs ∧
      t.m.port ch.val p.val = { s.m.port ch.val p.val with fails := s.m.chMs ch.val :: recentFails (s.m.port ch.val p.val) (s.m.chMs ch.val) } := by
  obtain ⟨g, hg, h⟩ := s.m.setPort_inChan ch.val p.val fun x =>
    { x with fails := s.m.chMs ch.val :: recentFails (s.m.port ch.val p.val) (s.m.chMs ch.val) }
  exact answers_port hs h hg ((exec_fullFail hon hstate hfast).trans (congrArg s.done (if_neg (by omega)))) fun hport => ⟨rfl, hport⟩

variable (hmany : 2 ≤ (recentFails (s.m.port ch.val p.val) (s.m.chMs ch.val)).length)
include hmany

theorem does_thirdFail : Does (.portTrainingFail ch p) s fun t => SameBytes s t ∧ t.m.rqt = s.m.rqt ∧
    t.m.port ch.val p.val = { Port.fresh with state := 1 } ∧ bit (t.m.rd .evfCh ch.val 0 Off.PG_FLT) 1 = true := by
  set u := s.m.modPort ch.val p.val fun _ => { Port.fresh with state := 1 } with hu
  obtain ⟨hsig, hport, hbit⟩ := u.raisePort_as (ch := ch.val) (ix := 68) (by decide) (Fin.ofNat 8 p.val) [p.val]
  exact does_done ((exec_fullFail hon hstate hfast).trans (congrArg s.done (if_pos hmany)))
    ⟨hsig.byte, hsig.table.rqt, (hport ..).trans (Dev.port_modPort_same ..), hbit⟩

theorem answers_thirdFail (hs : s.m.Settled) (hrec : s.m.Records ch.val 68) : Answers (.portTrainingFail ch p) s fun t => PortFrame ch.val p.val s t ∧
    t.m.port ch.val p.val = { Port.fresh with state := 1 } ∧ bit (t.m.rd .evfCh ch.val 0 Off.PG_FLT) 1 = true := by
  obtain ⟨g, hg, h⟩ := s.m.setPort_inChan ch.val p.val fun _ => { Port.fresh with state := 1 }
  have hraised := (h.mono fun _ h => h.elim : Dev.InChan anyReg _ _ _ _).raisePort (ix := 68) (by decide) (hrec.modChan ..) (Fin.ofNat 8 p.val) [p.val]
  exact answers_port hs hraised hg ((exec_fullFail hon hstate hfast).trans (congrArg s.done (if_pos hmany)))
    fun hport => ⟨hport, (Dev.raisePort_as _ (ix := 68) (by decide) (Fin.ofNat 8 p.val) [p.val]).2.2⟩

end

/-! ### Ports that retrain (R346, R353) -/

/-- The registers of a channel's fabric page behind its header. -/
def evfBody (ch a : Nat) : Prop := ∃ o, 0x100 ≤ o ∧ o < 0x1000 ∧ a = pageOff .evfCh ch 0 o

theorem evfBody_of {ch o : Nat} (hlo : 0x100 ≤ o) (hhi : o < 0x1000) : evfBody ch (pageOff .evfCh ch 0 o) := ⟨o, hlo, hhi, rfl⟩

theorem not_evfBody {ch o : Nat} (ho : o < 0x100) : ¬ evfBody ch (pageOff .evfCh ch 0 o) := by
  rintro ⟨q, hlo, -, h⟩
  simp only [pageOff] at h
  omega

/-- The counters of a port. -/
theorem evfBody_port {ch o p : Nat} (hlo : 0x100 ≤ o) (hhi : o < 0x400) (hp : p < 8) : evfBody ch (pageOff .evfCh ch 0 (o + p * 0x40)) ∧
    evfBody ch (pageOff .evfCh ch 0 (o + p * 0x40 + 4)) := ⟨evfBody_of (by omega) (by omega), evfBody_of (by omega) (by omega)⟩

/-- From `s` to `t` a channel's ports and streams have changed, and one port is `x` but for what waits on it. -/
def Dev.Waiting (ch p : Nat) (x : Port) (s t : Dev) : Prop :=
  ∃ g, Dev.InChan (evfBody ch) ch (withFab (s.chan ch) g) s t ∧ ∃ b, portIn g p = { x with txq := b }

section
variable {ch p : Nat} {x : Port} {s t : Dev}

theorem Dev.Waiting.port (h : Dev.Waiting ch p x s t) : ∃ b, t.port ch p = { x with txq := b } := by
  obtain ⟨g, hg, b, hb⟩ := h
  exact ⟨b, (hg.port p).trans hb⟩

/-- A message goes out again on another port. -/
theorem Dev.Waiting.queueMsg (h : Dev.Waiting ch p x s t) {q : Nat} (hlt : q < 8) (hq : q ≠ p) (st : Option Nat) (m : FabMsg) :
    Dev.Waiting ch p x s (t.queueMsg ch q st m) := by
  obtain ⟨g, hg, b, hb⟩ := h
  obtain ⟨hlo, hhi⟩ := evfBody_port (ch := ch) (o := Off.EVF_TXFLIT) (by decide) (by decide) hlt
  obtain ⟨k, hk, hsent⟩ := hg.queueMsg hlo hhi st m
  exact ⟨k, hsent, b, (hk.others p (Ne.symm hq)).trans hb⟩

theorem Dev.Waiting.modStream (h : Dev.Waiting ch p x s t) (st : Nat) (f : Stream → Stream) : Dev.Waiting ch p x s (t.modStream ch st f) := by
  obtain ⟨g, hg, b, hb⟩ := h
  exact ⟨_, hg.modStream st f, b, hb⟩

theorem Dev.Waiting.wait (h : Dev.Waiting ch p x s t) (m : TxMsg) : Dev.Waiting ch p x s (t.modPort ch p fun y => { y with txq := y.txq ++ [m] }) := by
  obtain ⟨g, hg, b, hb⟩ := h
  refine ⟨_, hg.modPort p fun y => { y with txq := y.txq ++ [m] }, b ++ [m], ?_⟩
  show portIn (withPort g p { portIn g p with txq := (portIn g p).txq ++ [m] }) p = _
  rw [portIn_withPort_same, hb]

/-- A message of a port that retrains: on another port of its route, or waiting. -/
def Dev.resend (s : Dev) (ch p : Nat) (other : Option Nat) (m : TxMsg) : Dev :=
  match other with
  | some q => (match m.stream with | some st => s.modStream ch st fun x => { x with port := some q } | none => s).queueMsg ch q m.stream m.msg
  | none => s.modPort ch p fun x => { x with txq := x.txq ++ [m] }

theorem Dev.Waiting.resend (h : Dev.Waiting ch p x s t) (m : TxMsg) {other : Option Nat} (ho : ∀ q, other = some q → q < 8 ∧ q ≠ p) :
    Dev.Waiting ch p x s (t.resend ch p other m) := by
  cases other with
  | none => exact h.wait m
  | some q =>
    unfold Dev.resend
    dsimp only
    obtain ⟨hlt, hq⟩ := ho q rfl
    refine Dev.Waiting.queueMsg ?_ hlt hq m.stream m.msg
    split
    · exact h.modStream ..
    · exact h

/-- The port that a message of a port that retrains goes out on. -/
def Dev.otherPort (s : Dev) (ch : Nat) (m : TxMsg) : Option Nat :=
  match msgDest m.msg with
  | some (n, c) => s.choosePort ch ((s.routeMask ch n c).getD 0) m.vc
  | none => none

theorem Dev.otherPort_up {m : TxMsg} {q : Nat} (h : t.otherPort ch m = some q) : q < 8 ∧ (t.port ch q).state = 3 := by
  unfold Dev.otherPort at h
  split at h
  · exact Dev.choosePort_up h
  · cases h

/-- All messages of a port that retrains. -/
def Dev.resendAll (s : Dev) (ch p : Nat) (ms : List TxMsg) : Dev := ms.foldl (fun s m => s.resend ch p (s.otherPort ch m) m) s

theorem Dev.Waiting.resendAll (hx : x.state ≠ 3) (ms : List TxMsg) : ∀ {t : Dev}, Dev.Waiting ch p x s t → Dev.Waiting ch p x s (t.resendAll ch p ms) := by
  induction ms with
  | nil => exact id
  | cons m ms ih =>
    intro t h
    refine ih (h.resend m fun q hq => ?_)
    obtain ⟨b, hb⟩ := h.port
    obtain ⟨hlt, hup⟩ := Dev.otherPort_up hq
    refine ⟨hlt, fun hqp => hx ?_⟩
    rw [hqp, hb] at hup
    exact hup

end

/-- A port as its retrain begins: a message of which only a part has gone out waits on it no longer. -/
def retrainPort (x : Port) : Port :=
  { x with state := 4, fast := true, replay := [], txq := x.txq.filter fun m => !decide (m.left < msgGranules m.msg) }

/-- The messages that such a port hands over. -/
def retrainMsgs (x : Port) : List TxMsg :=
  (x.replay.map (·.2)).flatten ++ (x.txq.filter fun m => decide (m.left < msgGranules m.msg)).map fun m => { m with left := msgGranules m.msg }

/-- The module as a retrain leaves it, before RETRY_RATE is raised. -/
def Dev.handOver (s : Dev) (ch p : Nat) : Dev := ((s.modPort ch p retrainPort).portBump ch p Off.EVF_RETRAIN 1).resendAll ch p (retrainMsgs (s.port ch p))

section
variable (s : Dev) (ch p : Nat)

theorem Dev.handOver_waiting (hp : p < 8) : Dev.Waiting ch p (retrainPort (s.port ch p)) s (s.handOver ch p) := by
  obtain ⟨g, hg, h⟩ := s.setPort_inChan ch p retrainPort
  obtain ⟨hlo, hhi⟩ := evfBody_port (ch := ch) (o := Off.EVF_RETRAIN) (by decide) (by decide) hp
  have hbump := (h.mono fun _ h => h.elim).bump hlo hhi 1
  exact Dev.Waiting.resendAll (show 4 ≠ 3 by decide) _ ⟨g, hbump, _, hg.port⟩

/-- A retrain raises RETRY_RATE where too many replays are its reason. -/
theorem Dev.retrain_eq (why : RetrainWhy) (hup : (s.port ch p).state = 3) : s.retrain ch p why =
    if why = .replays then (s.handOver ch p).raiseAt ch 69 false (.port (Fin.ofNat 8 p)) [p] else s.handOver ch p := by
  have hgo : s.retrain ch p why = match why with
      | .replays => (s.handOver ch p).raiseAt ch 69 false (.port (Fin.ofNat 8 p)) [p]
      | _ => s.handOver ch p := if_neg (not_not.2 hup)
  rw [hgo]
  cases why <;> rfl

end

section
variable {s : State} {ch : ChId} {p : PortIx} (hon : s.m.fabOn ch.val = true) (hup : (s.m.port ch.val p.val).state = 3) (why : RetrainWhy)
include hon hup

theorem exec_retrain : exec (.portRetrainTrigger ch p why) s = s.done (if why = .replays then
    (s.m.handOver ch.val p.val).raiseAt ch.val 69 false (.port (Fin.ofNat 8 p.val)) [p.val] else s.m.handOver ch.val p.val) :=
  (exec_only (f := fun m => m.retrain ch.val p.val why) rfl hon).trans (congrArg s.done (s.m.retrain_eq ch.val p.val why hup))

theorem does_retrain : Does (.portRetrainTrigger ch p why) s fun t => SameBytes s t ∧ t.m.rqt = s.m.rqt ∧ (t.m.port ch.val p.val).state = 4 ∧
    (t.m.port ch.val p.val).replay = [] := by
  refine does_done (exec_retrain hon hup why) ?_
  have hwait := s.m.handOver_waiting ch.val p.val p.isLt
  obtain ⟨b, hport⟩ := hwait.port
  obtain ⟨g, hg, -⟩ := hwait
  split
  · obtain ⟨hsig, hports, -⟩ := (s.m.handOver ch.val p.val).raisePort_as (ch := ch.val) (ix := 69) (by decide) (Fin.ofNat 8 p.val) [p.val]
    have hport' := (hports ch.val p.val).trans hport
    exact ⟨fun a => (hsig.byte a).trans (hg.byte a), hsig.table.rqt.trans hg.rqt, congrArg Port.state hport', congrArg Port.replay hport'⟩
  · exact ⟨hg.byte, hg.rqt, congrArg Port.state hport, congrArg Port.replay hport⟩

theorem answers_retrain (hs : s.m.Settled) (hrec : s.m.Records ch.val 69) : Answers (.portRetrainTrigger ch p why) s fun t => PortQuiet s t ∧
    (t.m.port ch.val p.val).state = 4 ∧ (t.m.port ch.val p.val).fast = true ∧ (t.m.port ch.val p.val).replay = [] ∧
    (why = .replays → bit (t.m.rd .evfCh ch.val 0 Off.PG_FLT) 2 = true) := by
  have hexec := exec_retrain hon hup why
  have hwait := s.m.handOver_waiting ch.val p.val p.isLt
  obtain ⟨b, hport⟩ := hwait.port
  obtain ⟨g, hg, -⟩ := hwait
  by_cases hwhy : why = .replays
  · rw [if_pos hwhy] at hexec
    obtain ⟨-, hports, hbit⟩ := (s.m.handOver ch.val p.val).raisePort_as (ch := ch.val) (ix := 69) (by decide) (Fin.ofNat 8 p.val) [p.val]
    have hrec' : (s.m.handOver ch.val p.val).Records ch.val 69 := hrec.of_page fun o ho => hg.reg _ (not_evfBody ho)
    have hraised := (hg.mono fun _ _ => trivial).raisePort (ix := 69) (by decide) hrec' (Fin.ofNat 8 p.val) [p.val]
    have hport' := (hports ch.val p.val).trans hport
    exact hraised.answers hs hexec ⟨hraised.portQuiet s.pending, congrArg Port.state hport', congrArg Port.fast hport', congrArg Port.replay hport', fun _ => hbit⟩
  · rw [if_neg hwhy] at hexec
    exact hg.answers hs hexec ⟨hg.portQuiet s.pending, congrArg Port.state hport, congrArg Port.fast hport, congrArg Port.replay hport, fun h => absurd h hwhy⟩

end

end Sys2Proof.Machine
end

section
/-! EVF_CTL: the ports follow their enable bits (O54, R346). -/

namespace Sys2Proof.Machine
open Sys2Proof

theorem fld_bit (w : Word) (i : Nat) : fld w i i = (bit w i).toNat := by
  have hone : i + 1 - i = 1 := by omega
  rw [fld, bit, hone, Nat.testBit, Nat.shiftRight_eq_div_pow, Nat.one_and_eq_mod_two]
  obtain h | h := Nat.mod_two_eq_zero_or_one (w.toNat / 2 ^ i) <;> simp [h]

/-- What its enable bit makes of a port. -/
def enabledPort (en : Bool) (x : Port) : Port := if !en && x.state ≠ 0 then Port.fresh else if en && x.state = 0 then { x with state := 1 } else x

theorem enabledPort_off {x : Port} (h : x.state ≠ 0) : enabledPort false x = Port.fresh := if_pos (by simp [h])

theorem enabledPort_down {x : Port} (h : x.state = 0) : enabledPort true x = { x with state := 1 } := (if_neg (by simp)).trans (if_pos (by simp [h]))

theorem enabledPort_on {x : Port} (h : x.state ≠ 0) : enabledPort true x = x := (if_neg (by simp)).trans (if_neg (by simp [h]))

/-- Whether a port is enabled. -/
def Dev.portOn (s : Dev) (ch p : Nat) : Bool := s.rdF .evfCh ch 0 Off.EVF_CTL p p = 1 && s.fabOn ch

/-- A port takes the state that its bit gives it. -/
def Dev.enablePort (s : Dev) (ch p : Nat) : Dev :=
  if !s.portOn ch p && (s.port ch p).state ≠ 0 then s.modPort ch p fun _ => Port.fresh
  else if s.portOn ch p && (s.port ch p).state = 0 then s.modPort ch p fun x => { x with state := 1 }
  else s

theorem Dev.enablePorts_eq (s : Dev) (ch : Nat) : s.enablePorts ch = (List.range 8).foldl (fun s p => s.enablePort ch p) s := rfl

section
variable {ch : Nat} {s t u : Dev} {g : Fab}

/-- Where no register changes, the enable bits stay. -/
theorem Dev.InChan.portOn {c : Chan} (h : Dev.InChan (fun _ => False) ch c s t) (p : Nat) : t.portOn ch p = s.portOn ch p := by
  have hrd (k : PageKind) (o : Nat) : t.rd k ch 0 o = s.rd k ch 0 o := h.reg _ id
  have hvin : t.vin = s.vin := by rw [h.shape]
  rw [Dev.portOn, Dev.rdF, hrd, Dev.fabOn, hvin, Dev.cstate, Dev.rdF, hrd]
  rfl

theorem Dev.InChan.enablePort (h : Dev.InChan (fun _ => False) ch (withFab (s.chan ch) g) s t) (p : Nat) :
    ∃ k, Dev.InChan (fun _ => False) ch (withFab (s.chan ch) k) s (t.enablePort ch p) ∧
      ∀ q, portIn k q = if q = p then enabledPort (s.portOn ch p) (portIn g p) else portIn g q := by
  have hport : t.port ch p = portIn g p := h.port p
  have hset (x : Port) (q : Nat) : portIn (withPort g p x) q = if q = p then x else portIn g q := by
    split
    · next hq => rw [hq, portIn_withPort_same]
    · next hq => exact portIn_withPort_other g hq x
  unfold Dev.enablePort enabledPort
  rw [h.portOn, hport]
  split
  · exact ⟨withPort g p Port.fresh, h.modPort p fun _ => Port.fresh, hset _⟩
  · split
    · exact ⟨withPort g p { portIn g p with state := 1 }, h.modPort p fun x => { x with state := 1 }, hset _⟩
    · refine ⟨g, h, fun q => ?_⟩
      split
      · next hq => rw [hq]
      · rfl

theorem Dev.InChan.enableAll (l : List Nat) (hl : l.Nodup) : ∀ {t : Dev} {g : Fab}, Dev.InChan (fun _ => False) ch (withFab (s.chan ch) g) s t →
    ∃ k, Dev.InChan (fun _ => False) ch (withFab (s.chan ch) k) s (l.foldl (fun s p => s.enablePort ch p) t) ∧
      ∀ q, portIn k q = if q ∈ l then enabledPort (s.portOn ch q) (portIn g q) else portIn g q := by
  induction l with
  | nil => exact fun {t g} h => ⟨g, h, fun _ => rfl⟩
  | cons p l ih =>
    intro t g h
    obtain ⟨hp, hl⟩ := List.nodup_cons.1 hl
    obtain ⟨k, hk, hone⟩ := h.enablePort p
    obtain ⟨k', hk', hrest⟩ := ih hl hk
    refine ⟨k', hk', fun q => ?_⟩
    rw [hrest, hone]
    by_cases hq : q = p
    · subst hq
      rw [if_neg hp, if_pos rfl, if_pos (List.mem_cons_self ..)]
    · simp only [hq, if_false, List.mem_cons, false_or]

/-- What changes one channel, and then again. -/
theorem Dev.InChan.trans {R : Nat → Prop} {c d : Chan} (h : Dev.InChan R ch c s t) (g : Dev.InChan R ch d t u) : Dev.InChan R ch d s u where
  shape := by rw [g.shape, h.shape]
  reg a ha := (g.reg a ha).trans (h.reg a ha)
  chan := g.chan
  others j hj := (g.others j hj).trans (h.others j hj)
  settled hs := g.settled (h.settled hs)

end

section
variable {s : State} {fn : Fn} {ch : ChId} (hw : s.m.Writes fn ⟨.evfCh, ch.val, 0⟩ Off.EVF_CTL)
include hw

/-- EVF_CTL is written only where the channel's fabric runs. -/
theorem Dev.Writes.fabOn : s.m.fabOn ch.val = true := by
  cases fn with
  | mgt =>
    have hno : s.m.mayWrite ⟨.evfCh, ch.val, 0⟩ Off.EVF_CTL .mgt = true := hw.1
    cases hno
  | pf0 =>
    obtain ⟨hon, -, -, hup⟩ := hw
    obtain ⟨hup, -⟩ := hup rfl
    simp only [Dev.windowUp, Dev.chClosed, Dev.fnOn, Dev.fabOn, Bool.and_eq_true] at *
    simp_all
  | vf n =>
    obtain ⟨-, hno, -⟩ := hw
    simp [Dev.mayWrite, Page.grantsWrite] at hno

/-- The word that a write of EVF_CTL leaves. -/
def evfCtlWord (old v : Word) : Word := (old &&& ~~~0x1FF#32) ||| (v &&& 0x1FF#32)

theorem exec_evfCtl (v : Word) : exec (.evfCtlWrite fn ch v) s =
    s.done ((s.m.wr .evfCh ch.val 0 Off.EVF_CTL (evfCtlWord (s.m.rd .evfCh ch.val 0 Off.EVF_CTL) v)).enablePorts ch.val) := by
  have hrow : PageKind.row .evfCh Off.EVF_CTL = some ⟨0x100, 1, 0x1FF, 0x1FF, 0, false⟩ := rfl
  have hbody : s.m.pageWrite ⟨.evfCh, ch.val, 0⟩ (writeReader fn) Off.EVF_CTL v WrEnv.none = s.m.evfCtl ⟨.evfCh, ch.val, 0⟩ v := by
    rw [Dev.pageWrite, if_neg (by decide), Dev.bodyWrite]
    exact if_pos rfl
  refine congrArg s.done ((Dev.put_granted (Page.valid_channel (by decide) ch.isLt) (by decide) (by decide) hw v).trans (hbody.trans ?_))
  rw [Dev.evfCtl, Dev.plainWrite_of_row hrow, storedWord_of_no_clear rfl]
  rfl

theorem answers_evfCtl (hs : s.m.Settled) (v : Word) : Answers (.evfCtlWrite fn ch v) s fun t => SameWork s t ∧
    SameRegs s t (· = pageOff .evfCh ch.val 0 Off.EVF_CTL) ∧ t.m.rdF .evfCh ch.val 0 Off.EVF_CTL 8 0 = fld v 8 0 ∧
    ∀ q, q < 8 → t.m.port ch.val q = enabledPort (bit v q) (s.m.port ch.val q) := by
  have hexec := exec_evfCtl hw v
  rw [Dev.enablePorts_eq] at hexec
  set w := evfCtlWord (s.m.rd .evfCh ch.val 0 Off.EVF_CTL) v with hword
  set u := s.m.wr .evfCh ch.val 0 Off.EVF_CTL w with hu
  have hwrite : Dev.InChan (· = pageOff .evfCh ch.val 0 Off.EVF_CTL) ch.val (s.m.chan ch.val) s.m u := 
    (Dev.InChan.refl (fun a => a = pageOff .evfCh ch.val 0 Off.EVF_CTL) ch.val s.m).wr (k := .evfCh) (d := ch.val) (i := 0) (o := Off.EVF_CTL) rfl w
  have hrd : u.rd .evfCh ch.val 0 Off.EVF_CTL = w := Dev.wr_rd_same ..
  have hfld : fld w 8 0 = fld v 8 0 := fld_merge _ _ fun i _ hi => by interval_cases i <;> decide
  have hon : u.fabOn ch.val = true := by
    have hcs : u.cstate ch.val = s.m.cstate ch.val :=
      congrArg (fld · 1 0) (hwrite.reg _ (by simp only [pageOff, Page.base, chanWin, Off.PWR_CH_STA, Off.EVF_CTL]; omega))
    have hvin : u.vin = s.m.vin := Dev.wr_vin ..
    rw [Dev.fabOn, hcs, hvin, ← Dev.fabOn]
    exact Dev.Writes.fabOn hw
  have hen (q : Nat) (hq : q < 8) : u.portOn ch.val q = bit v q := by
    have hbit (x : Word) : bit x q = (fld x 8 0).testBit q := by
      rw [testBit_fld, decide_eq_true (show q < 8 + 1 - 0 by omega)]
      rfl
    rw [Dev.portOn, hon, Dev.rdF, hrd, fld_bit, hbit w, hfld, ← hbit v]
    cases bit v q <;> rfl
  obtain ⟨k, hk, hports⟩ := Dev.InChan.enableAll (g := u.fab ch.val) (List.range 8) List.nodup_range (.refl _ ch.val u)
  have hall := hwrite.trans (hk.mono fun _ h => h.elim)
  refine hall.answers hs hexec ⟨hall.sameWork s.pending, hall.reg, ?_, fun q hq => ?_⟩
  · exact (congrArg (fld · 8 0) ((hk.reg _ id).trans hrd)).trans hfld
  · have hport := (hk.port q).trans (hports q)
    have hsame : portIn (u.fab ch.val) q = s.m.port ch.val q := congrArg (portIn · q) hwrite.fab
    rw [if_pos (List.mem_range.2 hq), hen q hq, hsame] at hport
    exact hport

end

end Sys2Proof.Machine
end

section
/-! Flits on a port that is UP (O54, R347 to R349). -/

namespace Sys2Proof.Machine
open Sys2Proof

theorem Dev.emit_fabric (s : Dev) (ch : Nat) (p : Option Nat) (m : FabMsg) : s.emit (.fabric ch p m) = s.says (.fabric ch p m) := rfl

/-- The flits that an acknowledgement leaves in the replay buffer, and the credits that it returns. -/
def ackedPort (f : Flit) (x : Port) : Port :=
  { x with credits := modifyAt (fun c => c + 16 * f.crd.val) f.crdVc.val x.credits
           replay := x.replay.filter fun e => !decide ((f.ack.val + 4096 - e.1) % 4096 < 64) }

/-- A NAK sends what has not been acknowledged again. -/
def Dev.replayAll (s : Dev) (ch p : Nat) : Dev :=
  ((s.port ch p).replay.foldl (fun s e => s.emit (.fabric ch (some p) (.replay e.1))) s).portBump ch p Off.EVF_REPLAY 1

/-- What a port owes after the granules of a flit. -/
def owedAfter (f : Flit) (owed : List Nat) : List Nat := f.granules.foldl (fun o g => modifyAt (· + 1) g.val o) owed

/-- A flit in sequence is acknowledged, and credits go back. -/
def Dev.ackFlit (s : Dev) (ch p : Nat) (f : Flit) (owed : List Nat) : Dev :=
  match (List.range 4).find? fun v => nth 0 owed v ≥ 16 with
  | some v =>
    let n := min 31 (nth 0 owed v / 16)
    (s.modPort ch p fun x => { x with seqRx := f.seq.val, owed := modifyAt (fun o => o - 16 * n) v owed }).emit (.fabric ch (some p) (.flitCtrl f.seq.val v n))
  | none => (s.modPort ch p fun x => { x with seqRx := f.seq.val, owed := owed }).emit (.fabric ch (some p) (.flitCtrl f.seq.val 0 0))

/-- The granules of a flit are taken, if it is in sequence. -/
def Dev.takeGranules (s : Dev) (ch p : Nat) (f : Flit) (n : Nat) : Dev :=
  if f.granules.isEmpty then s
  else if f.seq.val ≠ (n + 1) % 4096 then s.emit (.fabric ch (some p) (.flitNak n))
  else (s.portBump ch p Off.EVF_RXFLIT 1).ackFlit ch p f (owedAfter f ((s.portBump ch p Off.EVF_RXFLIT 1).port ch p).owed)

/-- The codewords of a flit are counted. -/
def Dev.countFec (s : Dev) (ch p : Nat) (f : Flit) : Dev := (s.portBump ch p Off.EVF_FECCOR f.fecCor).portBump ch p Off.EVF_FECUNC f.fecUnc

/-- What an intact flit returns is taken. -/
def Dev.flitBack (s : Dev) (ch p : Nat) (f : Flit) : Dev :=
  let t := (s.countFec ch p f).modPort ch p (ackedPort f)
  if f.nak then t.replayAll ch p else t

theorem Dev.flitIn_good {s : Dev} {ch p : Nat} {f : Flit} (hup : (s.port ch p).state = 3) (hcrc : f.crcOk = true) (hfec : f.fecUnc = 0) :
    s.flitIn ch p f = ((s.flitBack ch p f).takeGranules ch p f (s.port ch p).seqRx).pump ch p 128 := by
  unfold Dev.flitIn
  rw [if_neg (not_not.2 hup)]
  rw [if_neg (by simp [hcrc, hfec])]
  rfl

theorem nth_owedAfter_le (f : Flit) (v : Nat) (owed : List Nat) : nth 0 (owedAfter f owed) v ≤ nth 0 owed v + f.granules.length := by
  unfold owedAfter
  induction f.granules generalizing owed with
  | nil => exact Nat.le_refl _
  | cons g gs ih =>
    have hone : nth 0 (modifyAt (· + 1) g.val owed) v ≤ nth 0 owed v + 1 := by
      by_cases hv : v = g.val
      · by_cases hlen : g.val < owed.length
        · rw [hv, nth_modifyAt_same 0 _ hlen]
        · rw [nth, List.getD_eq_default _ _ (by rw [length_modifyAt]; omega)]
          exact Nat.zero_le _
      · rw [nth_modifyAt_other 0 _ hv]
        exact Nat.le_succ _
    rw [List.foldl_cons, List.length_cons]
    exact (ih _).trans (by omega)

/-! ### What a flit changes -/

section
variable {ch p : Nat} {s t : Dev} {g : Fab} {x : Port} {f : Flit}

/-- The flit's number and what the port owes. -/
def gotFlit (x : Port) (n : Nat) (owed : List Nat) : Port := { x with seqRx := n, owed := owed }

theorem Dev.InChan.ackFlit (h : Dev.InChan anyReg ch (withFab (s.chan ch) g) s t) (hg : Ported p x (s.fab ch) g) (owed : List Nat) :
    ∃ k o, Ported p (gotFlit x f.seq.val o) (s.fab ch) k ∧ Dev.InChan anyReg ch (withFab (s.chan ch) k) s (t.ackFlit ch p f owed) := by
  unfold Dev.ackFlit
  split
  · next v _ =>
    obtain ⟨k, hk, hgot⟩ := h.setPort hg fun x => gotFlit x f.seq.val (modifyAt (fun o => o - 16 * min 31 (nth 0 owed v / 16)) v owed)
    exact ⟨k, _, hk, hgot.emit _⟩
  · obtain ⟨k, hk, hgot⟩ := h.setPort hg fun x => gotFlit x f.seq.val owed
    exact ⟨k, _, hk, hgot.emit _⟩

/-- The number that a port has received up to. -/
def seqAfter (f : Flit) (n : Nat) : Nat := if f.granules ≠ [] ∧ f.seq.val = (n + 1) % 4096 then f.seq.val else n

theorem Dev.InChan.takeGranules (h : Dev.InChan anyReg ch (withFab (s.chan ch) g) s t) (hg : Ported p x (s.fab ch) g) :
    ∃ k o, Ported p (gotFlit x (seqAfter f x.seqRx) o) (s.fab ch) k ∧
      Dev.InChan anyReg ch (withFab (s.chan ch) k) s (t.takeGranules ch p f x.seqRx) := by
  by_cases hnone : f.granules = []
  · rw [Dev.takeGranules, if_pos (by simp [hnone]), seqAfter, if_neg fun h => h.1 hnone]
    exact ⟨g, x.owed, hg, h⟩
  · rw [Dev.takeGranules, if_neg (by simp [hnone])]
    by_cases hseq : f.seq.val = (x.seqRx + 1) % 4096
    · rw [if_neg (not_not.2 hseq), seqAfter, if_pos ⟨hnone, hseq⟩]
      exact (h.bump (k := .evfCh) (d := ch) (i := 0) (o := Off.EVF_RXFLIT + p * 0x40) trivial trivial 1).ackFlit hg _
    · rw [if_pos hseq, seqAfter, if_neg fun h => hseq h.2]
      exact ⟨g, x.owed, hg, h.emit _⟩

theorem Dev.InChan.flitBack (h : Dev.InChan anyReg ch (withFab (s.chan ch) g) s t) (hg : Ported p x (s.fab ch) g) (f : Flit) :
    ∃ k, Ported p (ackedPort f x) (s.fab ch) k ∧ Dev.InChan anyReg ch (withFab (s.chan ch) k) s (t.flitBack ch p f) := by
  have hfec : Dev.InChan anyReg ch (withFab (s.chan ch) g) s (t.countFec ch p f) :=
    (h.bump (k := .evfCh) (d := ch) (i := 0) (o := Off.EVF_FECCOR + p * 0x40) trivial trivial _).bump (k := .evfCh) (d := ch) (i := 0)
      (o := Off.EVF_FECUNC + p * 0x40) trivial trivial _
  obtain ⟨k, hk, hack⟩ := hfec.setPort hg (ackedPort f)
  have hsaid (es : List (Nat × List TxMsg)) : ∀ {u : Dev}, Dev.InChan anyReg ch (withFab (s.chan ch) k) s u →
      Dev.InChan anyReg ch (withFab (s.chan ch) k) s (es.foldl (fun s e => s.emit (.fabric ch (some p) (.replay e.1))) u) := by
    induction es with
    | nil => exact id
    | cons e es ih => exact fun hu => ih (hu.emit _)
  refine ⟨k, hk, ?_⟩
  unfold Dev.flitBack
  dsimp only
  split
  · exact (hsaid _ hack).bump (k := .evfCh) (d := ch) (i := 0) (o := Off.EVF_REPLAY + p * 0x40) trivial trivial 1
  · exact hack

/-- What an intact flit leaves before further flits go out. -/
theorem Dev.flitGood_inChan (s : Dev) (ch p : Nat) (f : Flit) : ∃ k o, Ported p (gotFlit (ackedPort f (s.port ch p)) (seqAfter f (s.port ch p).seqRx) o) (s.fab ch) k ∧
    Dev.InChan anyReg ch (withFab (s.chan ch) k) s ((s.flitBack ch p f).takeGranules ch p f (s.port ch p).seqRx) := by
  obtain ⟨g, hg, hback⟩ := Dev.InChan.flitBack (g := s.fab ch) (.refl anyReg ch s) (.refl p _) f
  exact hback.takeGranules hg

/-- What leaves with a flit: nothing, a NAK, or an acknowledgement. -/
theorem Dev.takeGranules_out (t : Dev) (n : Nat) :
    (f.granules = [] → (t.takeGranules ch p f n).out = t.out) ∧
    (f.granules ≠ [] → f.seq.val ≠ (n + 1) % 4096 → (t.takeGranules ch p f n).out = t.out ++ [.fabric ch (some p) (.flitNak n)]) ∧
    (f.granules.length < 16 → f.granules ≠ [] → f.seq.val = (n + 1) % 4096 → (t.port ch p).owed = [0, 0, 0, 0] →
      (t.takeGranules ch p f n).out = t.out ++ [.fabric ch (some p) (.flitCtrl f.seq.val 0 0)]) := by
  unfold Dev.takeGranules
  refine ⟨fun h => by rw [if_pos (by simp [h])], fun h hseq => ?_, fun hlen h hseq howed => ?_⟩
  · rw [if_neg (by simp [h]), if_pos hseq, Dev.emit_fabric]
    rfl
  · rw [if_neg (by simp [h]), if_neg (not_not.2 hseq)]
    set u := t.portBump ch p Off.EVF_RXFLIT 1 with hu
    have hport : u.port ch p = t.port ch p := congrArg (portIn · p) (Dev.fab_of_chans (Dev.bump_chans ..) ch)
    have hfew (v : Nat) : nth 0 (owedAfter f (u.port ch p).owed) v < 16 := by
      have hle := nth_owedAfter_le f v (u.port ch p).owed
      have hzero : nth 0 (u.port ch p).owed v = 0 := by
        rw [hport, howed]
        match v with
        | 0 | 1 | 2 | 3 => rfl
        | _ + 4 => rfl
      omega
    have hnone : ((List.range 4).find? fun v => decide (nth 0 (owedAfter f (u.port ch p).owed) v ≥ 16)) = none :=
      List.find?_eq_none.2 fun v _ => by simpa using hfew v
    unfold Dev.ackFlit
    rw [hnone]
    exact congrArg (· ++ [Out.fabric ch (some p) (.flitCtrl f.seq.val 0 0)]) (Dev.bump_out ..)

end

end Sys2Proof.Machine
end

section
/-! Flits and ports as a whole (O54, R346 to R349, R353). -/

namespace Sys2Proof.Machine
open Sys2Proof

section
variable {s : State} {ch : ChId} {p : PortIx} {f : Flit} (hs : s.m.Settled) (hon : s.m.fabOn ch.val = true) (hup : (s.m.port ch.val p.val).state = 3)
include hs hon hup

/-- A flit that fails its check is NAKed and counted. -/
theorem gives_flitBad (hbad : f.crcOk = false ∨ f.fecUnc ≠ 0) : Gives (.flitReceive ch p f) s
    (((s.m.countFec ch.val p.val f).portBump ch.val p.val Off.EVF_CRCERR 1).says (.fabric ch.val (some p.val) (.flitNak (s.m.port ch.val p.val).seqRx))) := by
  have hcond : (!f.crcOk) = true ∨ f.fecUnc ≠ 0 := by simpa using hbad
  have hcount : ((s.m.countFec ch.val p.val f).portBump ch.val p.val Off.EVF_CRCERR 1).chans = s.m.chans := by
    rw [Dev.portBump, Dev.bump_chans, Dev.countFec, Dev.portBump, Dev.bump_chans, Dev.portBump, Dev.bump_chans]
  exact gives_done hs ((exec_only (f := fun m => m.flitIn ch.val p.val f) rfl hon).trans
    (congrArg s.done ((if_neg (not_not.2 hup)).trans (if_pos hcond)))) hcount

variable (hcrc : f.crcOk = true) (hfec : f.fecUnc = 0)
include hcrc hfec

omit hs in
theorem exec_flitGood : exec (.flitReceive ch p f) s =
    s.done (((s.m.flitBack ch.val p.val f).takeGranules ch.val p.val f (s.m.port ch.val p.val).seqRx).pump ch.val p.val 128) :=
  (exec_only (f := fun m => m.flitIn ch.val p.val f) rfl hon).trans (congrArg s.done (Dev.flitIn_good hup hcrc hfec))

/-- An intact flit in sequence is received. -/
theorem answers_flitGood : Answers (.flitReceive ch p f) s fun t => PortFrame ch.val p.val s t ∧
    (t.m.port ch.val p.val).seqRx = seqAfter f (s.m.port ch.val p.val).seqRx := by
  obtain ⟨k, o, hk, hgot⟩ := s.m.flitGood_inChan ch.val p.val f
  obtain ⟨l, hl, hpump⟩ := hgot.pump (p := p.val) trivial trivial 128
  obtain ⟨a, b, d, e, hport⟩ := hk.pumped hl
  exact answers_port hs hpump hport (exec_flitGood hon hup hcrc hfec) fun h => by rw [h]; rfl

/-- What a flit returns, where nothing waits to be sent. -/
def FlitTook (s : State) (ch : ChId) (p : PortIx) (f : Flit) (n : Nat) (os : List Out) (t : State) : Prop :=
  PortFrame ch.val p.val s t ∧ (t.m.port ch.val p.val).seqRx = n ∧ t.m.out = s.m.out ++ os ∧
    (t.m.port ch.val p.val).credits = modifyAt (fun c => c + 16 * f.crd.val) f.crdVc.val (s.m.port ch.val p.val).credits ∧
    (t.m.port ch.val p.val).replay = (s.m.port ch.val p.val).replay.filter fun e => !decide ((f.ack.val + 4096 - e.1) % 4096 < 64)

variable (hnak : f.nak = false) (hidle : (s.m.port ch.val p.val).txq = [])
include hnak hidle

/-- What goes out is what the granules ask for. -/
theorem answers_flitTook {n : Nat} {os : List Out} (hn : seqAfter f (s.m.port ch.val p.val).seqRx = n)
    (hout : ∀ t : Dev, (t.port ch.val p.val).owed = (s.m.port ch.val p.val).owed →
      (t.takeGranules ch.val p.val f (s.m.port ch.val p.val).seqRx).out = t.out ++ os) : Answers (.flitReceive ch p f) s (FlitTook s ch p f n os) := by
  obtain ⟨g, hg, hback⟩ := Dev.InChan.flitBack (p := p.val) (g := s.m.fab ch.val) (.refl anyReg ch.val s.m) (.refl p.val _) f
  obtain ⟨k, o, hk, hgot⟩ := hback.takeGranules (f := f) hg
  have hexec := exec_flitGood hon hup hcrc hfec
  have hport := (hgot.port p.val).trans hk.port
  have hbackOut : (s.m.flitBack ch.val p.val f).out = s.m.out := by
    rw [Dev.flitBack, if_neg (by rw [hnak]; decide)]
    exact ((Dev.bump_out ..).trans (Dev.bump_out ..))
  have hacked := (hback.port p.val).trans hg.port
  have howed := hout (s.m.flitBack ch.val p.val f) (by rw [hacked]; rfl)
  have hseq : (ackedPort f (portIn (s.m.fab ch.val) p.val)).seqRx = (s.m.port ch.val p.val).seqRx := rfl
  rw [hseq] at hport hgot hk
  set u := (s.m.flitBack ch.val p.val f).takeGranules ch.val p.val f (s.m.port ch.val p.val).seqRx
  rw [Dev.pump_empty (by rw [hport]; exact hidle)] at hexec
  exact answers_port hs hgot hk hexec fun h => ⟨by rw [h]; exact hn, by rw [howed, hbackOut], by rw [h]; rfl, by rw [h]; rfl⟩

end

/-- Settles O54: ports are enabled and train, fail and retrain, and flits are checked, acknowledged and returned. -/
theorem portsCarryFlits : Obligations.PortsCarryFlits := by
  unfold Obligations.PortsCarryFlits
  refine ⟨fun s ch p h hs => ?_, fun s ch p f hs hon hup => ?_⟩
  · intro port quiet frame
    refine ⟨fun fn v hw => ?_, fun hon => ⟨fun c hc => ⟨answers_startTraining hs hc hon, gives_noTraining hs hc⟩, fun hwake =>
        ⟨answers_trainedFull hs hon hwake, answers_trainedAgain hs hon hwake, fun hup => ?_⟩, fun hsleep hup => ?_,
      does_thirdFail hon, fun hup why => does_retrain hon hup why, answers_firstFail hon hs, answers_relockFail hon hs,
      fun hstate hfast => ⟨answers_fullFail hon hstate hfast hs, fun hmany hrec => answers_thirdFail hon hstate hfast hmany hs hrec⟩,
      fun hup hrec why => answers_retrain hon hup why hs hrec⟩⟩
    · obtain ⟨t, ht, hwork, hregs, hfld, hports⟩ := answers_evfCtl hw hs v
      refine ⟨t, ht, hwork, hregs, hfld, fun q hq => ⟨fun hv hst => ?_, fun hv hst => ?_, fun hv hst => ?_⟩⟩ <;> rw [hports q hq, hv]
      · exact enabledPort_off hst
      · exact enabledPort_down hst
      · exact enabledPort_on hst
    · obtain ⟨t, ht, hframe, hport, hout⟩ := answers_hello (h := h) hs hon hup
      exact ⟨t, ht, hframe, by rw [helloPort, hwake] at hport; exact hport, hout⟩
    · obtain ⟨t, ht, hframe, hport, hout⟩ := answers_hello (h := h) hs hon hup
      refine ⟨t, ht, hframe, ?_, hout⟩
      show (t.m.port ch.val p.val).state = 1
      rw [hport, helloPort, hsleep]
      rfl
  · intro pt frame
    have hframe {t : State} (h : PortFrame ch.val p.val s t) : frame t := by
      obtain ⟨⟨hbytes, hrqt, hseqs, htiles⟩, hports⟩ := h
      exact ⟨hbytes, hrqt, hseqs, htiles, hports⟩
    refine ⟨gives_flitBad hs hon hup, fun hcrc hfec => ?_, fun hcrc hfec hnak hidle => ?_⟩
    · obtain ⟨t, ht, hf, hseq⟩ := answers_flitGood hs hon hup hcrc hfec
      exact ⟨t, ht, hframe hf, hseq⟩
    · intro took
      have htook {n : Nat} {os : List Out} (hn : seqAfter f pt.seqRx = n)
          (hout : ∀ t : Dev, (t.port ch.val p.val).owed = pt.owed → (t.takeGranules ch.val p.val f pt.seqRx).out = t.out ++ os) :
          Answers (.flitReceive ch p f) s (took n os) := by
        obtain ⟨t, ht, hf, hrest⟩ := answers_flitTook hs hon hup hcrc hfec hnak hidle hn hout
        exact ⟨t, ht, hframe hf, hrest⟩
      refine ⟨fun hnone => htook (if_neg fun h => h.1 hnone) fun t _ => ?_, fun hsome hseq => htook (if_neg fun h => hseq h.2) fun t _ => ?_,
        fun hlen hsome hseq howed => htook (if_pos ⟨hsome, hseq⟩) fun t ht => ?_⟩
      · obtain ⟨hout, -⟩ := t.takeGranules_out (ch := ch.val) (p := p.val) (f := f) pt.seqRx
        rw [hout hnone, List.append_nil]
      · obtain ⟨-, hout, -⟩ := t.takeGranules_out (ch := ch.val) (p := p.val) (f := f) pt.seqRx
        exact hout hsome hseq
      · obtain ⟨-, -, hout⟩ := t.takeGranules_out (ch := ch.val) (p := p.val) (f := f) pt.seqRx
        exact hout hlen hsome hseq (ht.trans howed)

end Sys2Proof.Machine
end

section
/-! Supplies and power-on reset (O15): what a tile keeps (R455, R466). -/

namespace Sys2Proof.Machine
open Sys2Proof

/-- A tile that loses its logic while it is being programmed has one more pass of wear to its name. -/
theorem keepTile_wear_programming (k : Nat) {t : Tile} (h : t.state = .programming) : (keepTile k t).wear = t.wear + 1 := by
  show t.wear + (decide (t.state = .programming)).toNat = t.wear + 1
  rw [h]
  rfl

/-- Refutes O15: its clause on keepTile says that wear stays for every tile, but a tile that was being programmed counts the pass that the reset
cut off, so tile 0 fresh and in state PROGRAMMING goes from wear 0 to wear 1. -/
theorem not_suppliesAndPowerOn : ¬ Obligations.SuppliesAndPowerOn := by
  unfold Obligations.SuppliesAndPowerOn
  rintro ⟨⟨-, hkeep⟩, -⟩
  have hwear := keepTile_wear_programming 0 (t := { Tile.reset 0 with state := .programming }) rfl
  obtain ⟨-, -, hsame, -⟩ := hkeep 0 { Tile.reset 0 with state := .programming }
  omega

end Sys2Proof.Machine
end

section
/-! Channel reset and HALTED reset (O17): the state that refutes it (R418, R463). -/

namespace Sys2Proof.Machine
open Sys2Proof

/-- A HALTED channel 0 that the sparse channel store lists twice: the first entry, which is the one that is read, has sound copies of the base
table, the second has none. -/
def twiceListed : Dev :=
  let m : Dev := { Dev.reset with
    vin := true, hubReady := true, perstLow := false
    chans := [(0, { Chan.fresh with linkUp := true }), (0, { Chan.fresh with baseBad := 2 })]
    fws := [(fwKey 0 1, { Fw.fresh with slotA := { FwSlot.empty with valid := true } })] }
  (m.wr .fltCh 0 0 Off.FLT_STA 2).wr .pwrCh 0 0 Off.PWR_CH_STA 4

theorem twiceListed_settled : twiceListed.Settled := by unfold Dev.Settled; decide +kernel

theorem twiceListed_writes : twiceListed.Writes .pf0 ⟨.pwrCh, 0, 0⟩ Off.PWR_CH_CMD := by unfold Dev.Writes; decide +kernel

theorem twiceListed_halted : twiceListed.chClosed 0 = false ∧ twiceListed.chInit 0 = false ∧ twiceListed.fltState 0 = 2 := by decide +kernel

theorem twiceListed_boots : (fwSlot (twiceListed.fw (fwKey 0 1)) (twiceListed.fw (fwKey 0 1)).active).valid = true ∧ (twiceListed.chan 0).baseBad < 2 := by
  decide +kernel

/-- Nothing waits in a request table without bytes. -/
theorem Dev.st_of_empty {s : Dev} (h : s.rqt = []) (r : Nat) : s.st r = St.FREE := by
  simp only [Dev.st, Dev.stateW, Dev.ent, h, Store.get_nil]
  decide

/-- The reset clears the first entry to what an unlisted channel reads as, which takes it off the list; the second then stands for the channel, and
its base table halts it at once. -/
theorem chanReset_twiceListed : (twiceListed.put .pf0 (pageOff .pwrCh 0 0 Off.PWR_CH_CMD) 3).settle.fltState 0 = 2 := by decide +kernel

/-- A channel reset is a write of PWR_CH_CMD. -/
theorem dev_of_exec_channelReset {s t : State} {fn : Fn} {ch : ChId} (h : exec (.channelReset fn ch) s = .next t) :
    t.m = (s.m.put fn (pageOff .pwrCh ch.val 0 Off.PWR_CH_CMD) 3).settle := (congrArg State.m (Host.Outcome.next.inj h)).symm

/-- Refutes O17: a channel reset of a HALTED channel whose base table reads as sound does not always leave it NORMAL. Where the channel store is not in
canonical form, and nothing in the statement asks for that, the entry that the reset uncovers may have no sound copy, and the channel is
HALTED again. -/
theorem not_resetsClear : ¬ Obligations.ResetsClear := by
  unfold Obligations.ResetsClear
  rintro ⟨-, h⟩
  obtain ⟨hopen, hinit, hflt⟩ := twiceListed_halted
  obtain ⟨hvalid, hbase⟩ := twiceListed_boots
  obtain ⟨-, -, -, hreset, -⟩ := h ⟨[], twiceListed⟩ .pf0 0 [] twiceListed_settled rfl twiceListed_writes hopen
  obtain ⟨t, ht, hnormal, -⟩ := hreset hinit hflt rfl (Dev.st_of_empty rfl) hbase hvalid
  rw [dev_of_exec_channelReset ht] at hnormal
  exact absurd (hnormal.symm.trans chanReset_twiceListed) (by decide)

end Sys2Proof.Machine
end

section
/-! The start of the management side (O16, R470, R481, R492, R495, R522). -/

namespace Sys2Proof.Machine
open Sys2Proof

/-- From `s` to `t` a controller's firmware has come to run: the targets keep what they are, but for their notices. -/
structure Dev.Booted (k : Nat) (s t : Dev) : Prop where
  aside : s.Aside anyReg t
  mgt : ∀ j, (s.mgt j).Notified (t.mgt j)
  running : (t.fw k).running = true

theorem Dev.fwRecord_told (s : Dev) (code die kind slot svn j : Nat) : (s.mgt j).Notified ((s.fwRecord code die kind slot svn).mgt j) := by
  unfold Dev.fwRecord
  split
  · exact (s.record_logged die _).mgt j
  · exact .refl _

theorem Dev.fwRun_booted (s : Dev) (die kind slot : Nat) : Dev.Booted (fwKey die kind) s (s.fwRun die kind slot) where
  aside := ((Dev.Aside.refl _ s).modFw _ _).trans ((Dev.fwRecord_aside ..).mono fun _ _ => trivial)
  mgt j := Dev.fwRecord_told (s.modFw (fwKey die kind) _) ..
  running := by
    unfold Dev.fwRun
    rw [Dev.fwRecord_fw, Dev.modFw_fw_same]

/-- Where the active slot verifies, its image runs. -/
theorem Dev.fwBoot_valid {s : Dev} {die kind : Nat} (h : (fwSlot (s.fw (fwKey die kind)) (s.fw (fwKey die kind)).active).valid = true) :
    s.fwBoot die kind = (s.fwRun die kind (s.fw (fwKey die kind)).active, true) := if_pos h

/-- A target that has verified its firmware. -/
def verifiedMgt (m : Mgt) : Mgt := { m with acks := true, bootRom := false, restarting := false }

/-- AUX_PG rises with the ninth controller that acknowledges. -/
def Dev.auxCheck (s : Dev) : Dev := if (List.range 9).all fun i => (s.mgt i).acks then { s with auxPg := true } else s

theorem Dev.auxCheck_as (s : Dev) (q : List Instr) : SameWork ⟨q, s⟩ ⟨q, s.auxCheck⟩ ∧ s.auxCheck.mgts = s.mgts ∧ s.auxCheck.fws = s.fws ∧
    s.auxCheck.regs = s.regs ∧ s.auxCheck.chans = s.chans := by
  unfold Dev.auxCheck
  split <;> exact ⟨⟨rfl, rfl, rfl, rfl, rfl, rfl, rfl, rfl, rfl, rfl, rfl⟩, rfl, rfl, rfl, rfl⟩

theorem Dev.auxCheck_pg {s : Dev} (h : ∀ i, i < 9 → (s.mgt i).acks = true) : s.auxCheck.auxPg = true := by
  have hall : ((List.range 9).all fun i => (s.mgt i).acks) = true := List.all_eq_true.2 fun i hi => h i (List.mem_range.1 hi)
  rw [Dev.auxCheck, if_pos hall]

section
variable {s : State} {t : MgtIx} (hs : s.m.Settled)

/-- What a controller's verified firmware leaves at first. -/
theorem Dev.verified_mgt {u : Dev} (h : Dev.Booted (fwKey t.val 0) s.m u) : ∃ evs ibi,
    (u.modMgt t.val verifiedMgt).mgt t.val = verifiedMgt { s.m.mgt t.val with evs := evs, ibi := ibi } := by
  obtain ⟨evs, ibi, hmgt⟩ := h.mgt t.val
  exact ⟨evs, ibi, by rw [Dev.modMgt_same, hmgt]⟩

variable (haux : s.m.aux = true) (hvalid : (fwSlot (s.m.fw (fwKey t.val 0)) (s.m.fw (fwKey t.val 0)).active).valid = true)
include hs haux hvalid

/-- A controller that restarts answers again, and keeps its response. -/
theorem answers_verifyRestart (hacks : (s.m.mgt t.val).acks = true) (hre : (s.m.mgt t.val).restarting = true) : Answers (.mgtFwVerifyDone t) s fun r =>
    SameWork s r ∧ (r.m.mgt t.val).restarting = false ∧ (r.m.mgt t.val).acks = true ∧ (r.m.mgt t.val).bootRom = false ∧
      (r.m.mgt t.val).resp = (s.m.mgt t.val).resp := by
  have hrun := s.m.fwRun_booted t.val 0 (s.m.fw (fwKey t.val 0)).active
  set u := s.m.fwRun t.val 0 (s.m.fw (fwKey t.val 0)).active with hu
  have hm : s.m.mgtVerified t.val = (u.modMgt t.val verifiedMgt).flushSummary t.val := by
    unfold Dev.mgtVerified
    rw [Dev.fwBoot_valid hvalid]
    exact (if_neg (by simp [haux, hacks, hre])).trans (if_pos hre)
  obtain ⟨evs, ibi, hmgt⟩ := Dev.verified_mgt hrun
  have htold := (u.modMgt t.val verifiedMgt).flushSummary_told t.val
  obtain ⟨evs', ibi', hafter⟩ := htold.mgt t.val
  have hside : s.m.Aside anyReg ((u.modMgt t.val verifiedMgt).flushSummary t.val) := (hrun.aside.modMgt _ _).told htold
  rw [hmgt] at hafter
  refine answers_done (m := (u.modMgt t.val verifiedMgt).flushSummary t.val) (congrArg s.done hm) (hside.settled hs) ⟨hside.sameWork s.pending, ?_⟩
  dsimp only
  rw [hafter]
  exact ⟨rfl, rfl, rfl, rfl⟩

/-- A controller that starts acknowledges from then on; the ninth raises AUX_PG. -/
theorem answers_verifyStart (hacks : (s.m.mgt t.val).acks = false) (hre : (s.m.mgt t.val).restarting = false) : Answers (.mgtFwVerifyDone t) s fun r =>
    SameWork s r ∧ (r.m.mgt t.val).acks = true ∧ (r.m.mgt t.val).bootRom = false ∧ (r.m.fw (fwKey t.val 0)).running = true ∧
      ((∀ i, i < 9 → i ≠ t.val → (s.m.mgt i).acks = true) → r.m.auxPg = true) := by
  have hrun := s.m.fwRun_booted t.val 0 (s.m.fw (fwKey t.val 0)).active
  set u := s.m.fwRun t.val 0 (s.m.fw (fwKey t.val 0)).active with hu
  set v := u.modMgt t.val verifiedMgt with hv
  set w := if t.val < 8 then v.pwrRecord t.val 0x0200 0 0 else v with hw
  have hm : s.m.mgtVerified t.val = w.auxCheck := by
    unfold Dev.mgtVerified
    rw [Dev.fwBoot_valid hvalid]
    exact (if_neg (by simp [haux, hacks])).trans (if_neg (by simp [hre]))
  have hlog : v.Aside anyReg w ∧ (∀ j, (v.mgt j).Notified (w.mgt j)) ∧ ∀ k, w.fw k = v.fw k := by
    unfold w
    split
    · have hrec := v.record_logged t.val (Ev.plain 0x0200 6 true [0, 0])
      exact ⟨hrec.aside.mono fun _ _ => trivial, hrec.mgt, hrec.fw⟩
    · exact ⟨.refl _ v, fun _ => .refl _, fun _ => rfl⟩
  obtain ⟨hlog, htold, hfw⟩ := hlog
  obtain ⟨evs, ibi, hmgt⟩ := Dev.verified_mgt hrun
  obtain ⟨evs', ibi', hafter⟩ := htold t.val
  rw [← hv] at hmgt
  rw [hmgt] at hafter
  have hside : s.m.Aside anyReg w := (hrun.aside.modMgt _ _).trans hlog
  have hrunning : (w.fw (fwKey t.val 0)).running = true := by rw [hfw]; exact hrun.running
  have hothers (i : Nat) (hi : i ≠ t.val) : (w.mgt i).acks = (s.m.mgt i).acks := by
    obtain ⟨_, _, h⟩ := htold i
    obtain ⟨_, _, h'⟩ := hrun.mgt i
    rw [h, hv, Dev.modMgt_other _ hi, h']
  obtain ⟨hwork, hmgts, hfws, -, hchans⟩ := w.auxCheck_as s.pending
  have hsame (i : Nat) : w.auxCheck.mgt i = w.mgt i := by rw [Dev.mgt, hmgts, Dev.mgt]
  refine answers_done (congrArg s.done hm) ((hside.settled hs).of_chans hchans) ⟨(hside.sameWork s.pending).trans hwork, ?_, ?_, ?_, fun hacked => ?_⟩
  · rw [hsame, hafter]
    rfl
  · rw [hsame, hafter]
    rfl
  · rw [Dev.fw, hfws, ← Dev.fw]
    exact hrunning
  · refine Dev.auxCheck_pg fun i hi => ?_
    by_cases hit : i = t.val
    · rw [hit, hafter]
      rfl
    · rw [hothers i hit]
      exact hacked i hi hit

omit hvalid in
/-- At its limit a controller acknowledges in boot ROM mode. -/
theorem answers_verifyLimit (hacks : (s.m.mgt t.val).acks = false) {ch : ChId} (hch : ch.val = t.val) : Answers (.initLimitExpire ch .mgtVerify) s fun r =>
    SameWork s r ∧ r.m.regs = s.m.regs ∧ (r.m.mgt t.val).acks = true ∧ (r.m.mgt t.val).bootRom = true := by
  set v := s.m.modMgt ch.val fun m => { m with acks := true, bootRom := true } with hv
  have hm : s.m.initLimit ch.val .mgtVerify = v.auxCheck := by
    unfold Dev.initLimit
    exact if_pos (by simp [haux, hch, hacks])
  have hmgt : v.mgt t.val = { s.m.mgt t.val with acks := true, bootRom := true } := by rw [hv, hch, Dev.modMgt_same]
  have hside : s.m.Aside anyReg v := (Dev.Aside.refl _ s.m).modMgt _ _
  obtain ⟨hwork, hmgts, -, hregs, hchans⟩ := v.auxCheck_as s.pending
  have hsame : v.auxCheck.mgt t.val = v.mgt t.val := by rw [Dev.mgt, hmgts, Dev.mgt]
  refine answers_done (congrArg s.done hm) ((hside.settled hs).of_chans hchans) ⟨(hside.sameWork s.pending).trans hwork, hregs, ?_, ?_⟩ <;>
    rw [hsame, hmgt]

end

end Sys2Proof.Machine
end

section
/-! The end of a start: the hub's, a channel's and T2's (O16, R472, R474, R475). -/

namespace Sys2Proof.Machine
open Sys2Proof

theorem Dev.noteReady_told (s : Dev) (was : Bool) : s.Alerted (s.noteReady was) := by
  unfold Dev.noteReady
  split
  · exact s.raiseIbiBare_told ..
  · exact .refl s

/-- The hub answers configuration requests from HUB_CONFIG_READY on. -/
theorem answers_hubConfigReady {s : State} (hs : s.m.Settled) (hvin : s.m.vin = true) (hperst : s.m.perstLow = false) :
    Answers .hubConfigReady s fun r => r.m.hubReady = true ∧ SameWork s r ∧ r.m.regs = s.m.regs := by
  have hm : s.m.hubConfigReady = Dev.noteReady s.m.modReady { s.m with hubReady := true } := if_pos ⟨hvin, by simp [hperst]⟩
  have htold := Dev.noteReady_told { s.m with hubReady := true } s.m.modReady
  refine answers_done (congrArg s.done hm) (hs.of_chans (by rw [htold.shape])) ⟨?_, ?_, ?_⟩ <;> dsimp only <;> rw [htold.shape]
  constructor <;> rfl

/-- T2 counts as zeroed. -/
theorem gives_t2Zeroed {s : State} {ch : ChId} (hs : s.m.Settled) (hpow : s.m.powered ch.val = true) (hz : (s.m.memOf ch.val).zeroed = true) :
    Gives (.t2ZeroingDone ch) s (s.m.modMem ch.val fun m => { m with zeroed2 := true }) :=
  gives_done hs (congrArg s.done (if_pos ⟨hpow, hz⟩)) rfl

/-! ### The state word of a channel (R478, R480) -/

/-- From `s` to `t` a channel's start has been noted, and its state word reads `w`. -/
structure Dev.StartNoted (ch : Nat) (w : Word) (s t : Dev) : Prop where
  shape : t = { s with out := t.out, regs := t.regs, mems := t.mems, mgts := t.mgts, ticket := t.ticket }
  word : t.rd .pwrCh ch 0 Off.PWR_CH_STA = w

namespace Dev.StartNoted
variable {ch : Nat} {w : Word} {s t u : Dev}

theorem refl (ch : Nat) (s : Dev) : Dev.StartNoted ch (s.rd .pwrCh ch 0 Off.PWR_CH_STA) s s := ⟨rfl, rfl⟩

theorem trans (h : Dev.StartNoted ch w s t) {v : Word} (g : Dev.StartNoted ch v t u) : Dev.StartNoted ch v s u := ⟨by rw [g.shape, h.shape], g.word⟩

theorem setReg (h : Dev.StartNoted ch w s t) {a : Nat} (ha : a ≠ pageOff .pwrCh ch 0 Off.PWR_CH_STA) (v : Word) :
    Dev.StartNoted ch w s (t.setReg a v) := h.trans ⟨rfl, (Dev.setReg_reg_other _ (Ne.symm ha) v).trans h.word⟩

theorem chSta (h : Dev.StartNoted ch w s t) (hi lo v : Nat) : Dev.StartNoted ch (setFld w hi lo v) s (t.chSta ch hi lo v) :=
  have hshape : t.chSta ch hi lo v = { t with regs := (t.chSta ch hi lo v).regs } := Dev.setReg_regs_only (Eq.refl t) _ _
  h.trans ⟨by rw [hshape], (Dev.wr_rd_same ..).trans (congrArg (setFld · hi lo v) h.word)⟩

theorem modMem (h : Dev.StartNoted ch w s t) (f : Mem → Mem) : Dev.StartNoted ch w s (t.modMem ch f) := h.trans ⟨rfl, h.word⟩

theorem told (h : Dev.StartNoted ch w s t) (g : t.Alerted u) : Dev.StartNoted ch w s u where
  shape := by rw [g.shape, h.shape]
  word := by
    rw [g.shape]
    exact h.word

theorem modCmd (h : Dev.StartNoted ch w s t) (c : Prop) [Decidable c] (code : Nat) : Dev.StartNoted ch w s (if c then t.modCmdSta code else t) := by
  split
  · exact h.setReg (by simp only [pageOff, Page.base, chanWin, Off.PWR_MOD_STA, Off.PWR_CH_STA]; omega) _
  · exact h

/-- A command that waits for READY is OK. -/
theorem pending (h : Dev.StartNoted ch w s t) : Dev.StartNoted ch (if fld w 15 8 = Code.PENDING then setFld w 15 8 Code.OK else w) s
    (if t.rdF .pwrCh ch 0 Off.PWR_CH_STA 15 8 = Code.PENDING then t.pwrSta ch Code.OK else t) := by
  have hfld : t.rdF .pwrCh ch 0 Off.PWR_CH_STA 15 8 = fld w 15 8 := congrArg (fld · 15 8) h.word
  rw [hfld]
  split
  · exact h.chSta 15 8 Code.OK
  · exact h

end Dev.StartNoted

/-- The state word of a READY channel. -/
def readyWord (w : Word) : Word := setFld (setFld (setFld w 2 2 1) 3 3 0) 6 4 0

theorem fld_readyWord (w : Word) : fld (readyWord w) 2 2 = 1 ∧ fld (readyWord w) 3 3 = 0 ∧ fld (readyWord w) 6 4 = 0 ∧
    fld (readyWord w) 15 8 = fld w 15 8 := by
  unfold readyWord
  refine ⟨?_, ?_, ?_, ?_⟩
  · rw [fld_setFld_apart _ (by decide) (by decide) (.inr (by decide)), fld_setFld_apart _ (by decide) (by decide) (.inr (by decide))]
    exact fld_setFld_same _ (by decide) (by decide) _
  · rw [fld_setFld_apart _ (by decide) (by decide) (.inr (by decide))]
    exact fld_setFld_same _ (by decide) (by decide) _
  · exact fld_setFld_same _ (by decide) (by decide) _
  · rw [fld_setFld_apart _ (by decide) (by decide) (.inl (by decide)), fld_setFld_apart _ (by decide) (by decide) (.inl (by decide)),
      fld_setFld_apart _ (by decide) (by decide) (.inl (by decide))]

/-- OK stands for PENDING, and beside the other fields. -/
theorem fld_okWord (w : Word) : fld (setFld w 15 8 Code.OK) 15 8 = Code.OK ∧ ∀ hi lo, hi < 8 → fld (setFld w 15 8 Code.OK) hi lo = fld w hi lo :=
  ⟨fld_setFld_same _ (by decide) (by decide) _, fun _ _ h => fld_setFld_apart _ (by decide) (by decide) (.inr h) _⟩

/-! ### READY (R474) -/

section
variable {s : State} {ch : ChId}

/-- A channel whose start is complete, NORMAL and cool becomes READY; a command that waited for it is OK. -/
theorem answers_readySet (hs : s.m.Settled) (hpow : s.m.powered ch.val = true) (hinit : s.m.chInit ch.val = true) (hstep : 4 ≤ s.m.initStep ch.val)
    (hcst : s.m.cstate ch.val = 0) (hdone : s.m.startDone ch.val = true) (hflt : s.m.fltState ch.val = 0) (hcool : s.m.coolEnough ch.val = true) :
    Answers (.channelReadySet ch) s fun r => r.m.chReady ch.val = true ∧ r.m.chInit ch.val = false ∧ r.m.initStep ch.val = 0 ∧
      (r.m.chan ch.val).inReset = false ∧ SameBytes s r ∧ r.m.tiles = s.m.tiles ∧
      (s.m.rdF .pwrCh ch.val 0 Off.PWR_CH_STA 15 8 = Code.PENDING → r.m.rdF .pwrCh ch.val 0 Off.PWR_CH_STA 15 8 = Code.OK) := by
  set u := s.m.modChan ch.val fun c => { c with inReset := false } with hu
  have hchan : (u.chan ch.val).inReset = false := by rw [hu, Dev.modChan_same]
  have hsettled : u.Settled := hs.modChan (hs.chan ch.val)
  have hword : u.rd .pwrCh ch.val 0 Off.PWR_CH_STA = s.m.rd .pwrCh ch.val 0 Off.PWR_CH_STA := rfl
  set w := s.m.rd .pwrCh ch.val 0 Off.PWR_CH_STA with hw
  have hbase := hword ▸ Dev.StartNoted.refl ch.val u
  have hflt' : u.fltState ch.val = 0 := hflt
  have hcool' : u.coolEnough ch.val = true := hcool
  have hnoted : ∃ v, (v = if fld (readyWord w) 15 8 = Code.PENDING then setFld (readyWord w) 15 8 Code.OK else readyWord w) ∧
      Dev.StartNoted ch.val v u (s.m.readySet ch.val) := by
    refine ⟨_, rfl, ?_⟩
    have hcond : ¬ (!s.m.powered ch.val ∨ !s.m.chInit ch.val ∨ s.m.initStep ch.val < 4 ∨ s.m.cstate ch.val = 2 ∨ !s.m.startDone ch.val) := by
      simp [hpow, hinit, hcst, hdone]
      omega
    unfold Dev.readySet
    rw [if_neg hcond]
    dsimp only
    rw [← hu, if_neg (not_not.2 hflt'), if_neg (ne_true_of_eq_false (congrArg not hcool'))]
    have hset := ((hbase.chSta 2 2 1).chSta 3 3 0).chSta 6 4 0
    have htime := hset.setReg (a := pageOff .pwrCh ch.val 0 Off.PWR_CH_TREADY) (by simp only [pageOff, Off.PWR_CH_TREADY, Off.PWR_CH_STA]; omega)
      (BitVec.ofNat 32 (min 65535 (u.mgtMs - (u.chan ch.val).startAt)))
    exact (((htime.modMem _).pending.modCmd _ _).told (Dev.raiseIbiBare_told ..)).told (Dev.noteReady_told ..)
  obtain ⟨v, hv, hnoted⟩ := hnoted
  have hc : exec (.channelReadySet ch) s = s.done (s.m.readySet ch.val) := rfl
  generalize s.m.readySet ch.val = t at hc hnoted
  obtain ⟨hshape, hread⟩ := hnoted
  obtain ⟨hready, hstart, hat, hcode⟩ := fld_readyWord w
  obtain ⟨hok, hkept⟩ := fld_okWord (readyWord w)
  have hlow (hi lo : Nat) (h : hi < 8) : fld v hi lo = fld (readyWord w) hi lo := by
    rw [hv]
    split
    · exact hkept hi lo h
    · rfl
  have hfld (hi lo : Nat) : t.rdF .pwrCh ch.val 0 Off.PWR_CH_STA hi lo = fld v hi lo := congrArg (fld · hi lo) hread
  refine answers_done hc (hsettled.of_chans (by rw [hshape])) ⟨?_, ?_, ?_, ?_, fun a => ?_, ?_, fun hpend => ?_⟩ <;> dsimp only
  · rw [Dev.chReady, hfld, hlow 2 2 (by decide), hready]
    rfl
  · rw [Dev.chInit, hfld, hlow 3 3 (by decide), hstart]
    rfl
  · rw [Dev.initStep, hfld, hlow 6 4 (by decide), hat]
  · rw [hshape]
    exact hchan
  · rw [hshape]
    rfl
  · rw [hshape]
    rfl
  · rw [hfld, hv, if_pos (hcode.trans hpend), hok]

end

end Sys2Proof.Machine
end

section
/-! A start that overruns a limit, and the statement of O16 (R476, R478). -/

namespace Sys2Proof.Machine
open Sys2Proof

/-- A source of fixed severity writes the words of its page, of the fault pages and of the recorder, and no others. -/
theorem RegsAs.raise_fixed (s : Dev) (ch : Nat) {ix : Nat} (hfix : fixedHalt ix = true) (hix : ix < 96)
    (hn : (collector ix).2 < (collector ix).1.nsrc) : RegsAs (fun a => raiseRegs ch ix a ∨ fltRegs ch a) s (s.raise ch ix) := by
  have hsev : s.sevOf ch ix = 3 := by
    unfold Dev.sevOf
    simp only [hfix, if_true]
  set m := s.pageMark (collector ix).1 ch (collector ix).2 with hm
  set u := m.record ch ⟨1 + ix, 0, ix, 8, false, false, []⟩ with hu
  have hraise : s.raise ch ix = u.halt ch ix false := by
    unfold Dev.raise Dev.raiseAt
    dsimp only
    rw [if_neg (by omega), hsev, Dev.noteRaise_none]
    rfl
  have hmark : RegsAs (fun a => raiseRegs ch ix a ∨ fltRegs ch a) s m := by
    rw [hm]
    exact (RegsAs.wr s (.inl (.inl rfl)) _).trans (.wr _ (.inl (.inr (.inl rfl))) _)
  have hlog : RegsAs (fltRegs ch) m u := .logged (Dev.record_logged ..) fun _ h => .inr (.inr h)
  have hkept := hlog.trans (RegsAs.halt u ch ix false)
  rw [hraise]
  exact hmark.trans ⟨fun a ha => hkept.reg a fun h => ha (.inr h)⟩

/-- The state word of a channel is none of the registers that INIT_FAIL and what follows it write. -/
theorem chSta_kept {ch : Nat} (hch : ch < 8) : ¬ (raiseRegs ch 95 (pageOff .pwrCh ch 0 Off.PWR_CH_STA) ∨ fltRegs ch (pageOff .pwrCh ch 0 Off.PWR_CH_STA)) ∧
    ¬ followRegs ch (pageOff .pwrCh ch 0 Off.PWR_CH_STA) := by
  have hcoll : collector 95 = (.pwrCh, 1) := rfl
  constructor
  · simp only [raiseRegs, hcoll, fltRegs, inPage, recRegs, pageOff, Page.base, chanWin, Off.EVR_REC, Off.EVR_SUPP, Off.PG_FLT, Off.PG_CNT, Off.PWR_CH_STA]
    omega
  · simp only [followRegs, pageOff, Page.base, chanWin, Off.PWR_CH_STA]
    omega

/-- The state word of a channel whose start has failed at a step. -/
def failedWord (w : Word) (step : Nat) : Word := setFld (setFld w 3 3 0) 6 4 step

theorem fld_failedWord (w : Word) {step : Nat} (h : step < 8) : fld (failedWord w step) 3 3 = 0 ∧ fld (failedWord w step) 6 4 = step := by
  unfold failedWord
  refine ⟨?_, ?_⟩
  · rw [fld_setFld_apart _ (by decide) (by decide) (.inr (by decide))]
    exact fld_setFld_same _ (by decide) (by decide) _
  · rw [fld_setFld_same _ (by decide) (by decide)]
    exact Nat.mod_eq_of_lt h

/-- A start that has failed: INIT is over at the step that failed, and the channel HALTED with INIT_FAIL (R476, R478). -/
structure Dev.StartFailed (ch step : Nat) (s t : Dev) : Prop where
  init : t.chInit ch = false
  at_step : t.initStep ch = step
  flt : t.fltState ch = 2
  cause : t.rdF .fltCh ch 0 Off.FLT_STA 10 4 = 95
  mem : t.mem = s.mem
  rqt : t.rqt = s.rqt

/-- INIT_FAIL in a channel whose state word says so, now and when all has settled. -/
theorem Dev.StartNoted.failed {s v : Dev} {ch step : Nat} (hch : ch < 8) (hstep : step < 8)
    (hnoted : Dev.StartNoted ch (failedWord (s.rd .pwrCh ch 0 Off.PWR_CH_STA) step) s v) (hflt : v.fltState ch ≠ 2) :
    Dev.StartFailed ch step s ((v.modChan ch fun c => { c with inReset := false }).raise ch 95) ∧
      (s.Settled → s.NoWork ch → Dev.StartFailed ch step s ((v.modChan ch fun c => { c with inReset := false }).raise ch 95).settle) := by
  set m := v.modChan ch fun c => { c with inReset := false } with hm
  have hfltm : m.fltState ch ≠ 2 := hflt
  obtain ⟨hstop, halone⟩ := Dev.raise_fixed (s := m) (ix := 95) rfl (by decide) (by decide) hfltm
  obtain ⟨hraised, hfollow⟩ := chSta_kept hch
  obtain ⟨hinit, hat⟩ := fld_failedWord (s.rd .pwrCh ch 0 Off.PWR_CH_STA) hstep
  have hmem : v.mem = s.mem := by rw [hnoted.shape]
  have hrqt : v.rqt = s.rqt := by rw [hnoted.shape]
  have hsta : (m.raise ch 95).rd .pwrCh ch 0 Off.PWR_CH_STA = failedWord (s.rd .pwrCh ch 0 Off.PWR_CH_STA) step :=
    ((RegsAs.raise_fixed m ch (ix := 95) rfl (by decide) (by decide)).rd hraised).trans hnoted.word
  have hfailed {t : Dev} (h : Dev.Stopped ch 2 95 false m t) (hw : t.rd .pwrCh ch 0 Off.PWR_CH_STA = failedWord (s.rd .pwrCh ch 0 Off.PWR_CH_STA) step) :
      Dev.StartFailed ch step s t :=
    { init := by rw [Dev.chInit, Dev.rdF, hw, hinit]; rfl
      at_step := by rw [Dev.initStep, Dev.rdF, hw, hat]
      flt := h.state
      cause := h.cause
      mem := by rw [h.shape]; exact hmem
      rqt := by rw [h.shape]; exact hrqt }
  refine ⟨hfailed hstop hsta, fun hs hwork => ?_⟩
  have hsame : v.chan ch = s.chan ch := by
    rw [hnoted.shape]
    rfl
  have hchan : m.chan ch = { s.chan ch with inReset := false } := by rw [hm, Dev.modChan_same, hsame]
  have hsv : v.Settled := hs.of_chans (by rw [hnoted.shape])
  have hsettled : m.Settled := hsv.modChan (hsv.chan ch)
  have hcolls : (m.fab ch).colls = [] := (congrArg (fun c : Chan => c.fab.colls) hchan).trans hwork.2
  have hafter := Dev.settle_followed hch (halone.only (hsettled.dueOnly ch)) ((congrArg Fab.colls halone.fab).trans hcolls)
  exact hfailed (hstop.kept hafter) ((hafter.reg _ hfollow).trans hsta)

/-- A wait that reaches its limit fails the start. -/
theorem Dev.initFail_failed {s : Dev} {ch step : Nat} (hch : ch < 8) (hstep : step < 8) (hflt : s.fltState ch ≠ 2) :
    Dev.StartFailed ch step s (s.initFail ch step) ∧ (s.Settled → s.NoWork ch → Dev.StartFailed ch step s (s.initFail ch step).settle) := by
  have hflts (u : Dev) (hi lo n : Nat) : (u.chSta ch hi lo n).fltState ch = u.fltState ch :=
    congrArg (fld · 1 0) (u.wr_rd_offset (o := Off.PWR_CH_STA) (r := Off.FLT_STA) (by decide) (by decide) (by decide) _)
  exact (((Dev.StartNoted.refl ch s).chSta 3 3 0).chSta 6 4 step).failed hch hstep (by rw [hflts, hflts]; exact hflt)

/-- INIT_LIMIT_EXPIRE of a wait in a channel that starts. -/
theorem Dev.initLimit_fails {s : Dev} {ch : Nat} (hpow : s.powered ch = true) (hinit : s.chInit ch = true) (hcst : s.cstate ch ≠ 2) {w : InitWait}
    {k : Nat} (hw : (w, k) ∈ [(InitWait.training, 2), (.t1Zero, 3), (.arrayCheck, 4), (.retention, 5)]) : s.initLimit ch w = s.initFail ch k ∧ k < 8 := by
  have hcond : (s.powered ch = true ∧ s.chInit ch = true ∧ s.cstate ch ≠ 2) := ⟨hpow, hinit, hcst⟩
  simp only [List.mem_cons, Prod.mk.injEq, List.not_mem_nil, or_false] at hw
  obtain ⟨rfl, rfl⟩ | ⟨rfl, rfl⟩ | ⟨rfl, rfl⟩ | ⟨rfl, rfl⟩ := hw <;> exact ⟨if_pos hcond, by decide⟩

/-- Settles O16: what a controller's verified firmware leaves, the words of READY, and a start's failure as a raise of a source that always halts. -/
theorem startsComplete : Obligations.StartsComplete := by
  unfold Obligations.StartsComplete
  refine ⟨fun s t hs haux => ⟨fun hacks hre hvalid => answers_verifyRestart hs haux hvalid hacks hre,
      fun hacks hre hvalid => answers_verifyStart hs haux hvalid hacks hre, fun hacks ch hch => answers_verifyLimit hs haux hacks hch⟩,
    fun s ch hs => ⟨answers_hubConfigReady hs, answers_readySet hs, gives_t2Zeroed hs, fun hpow hinit hcst hflt w k hw => ?_,
      fun hpow hinit hcst hflt hwork => ?_⟩⟩
  · obtain ⟨hm, hk⟩ := Dev.initLimit_fails hpow hinit hcst hw
    obtain ⟨hfail, -⟩ := Dev.initFail_failed ch.isLt hk hflt
    exact does_done (congrArg s.done hm) ⟨hfail.init, hfail.at_step, hfail.flt, hfail.cause, fun a => congrArg (·.get 0 a) hfail.mem, hfail.rqt⟩
  · obtain ⟨hm, hk⟩ := Dev.initLimit_fails (w := .t1Zero) (k := 3) hpow hinit (by omega) (by decide)
    obtain ⟨-, hfail⟩ := Dev.initFail_failed (s := s.m) ch.isLt hk (by omega)
    have hafter := hfail hs hwork
    exact ⟨_, congrArg s.done hm, hafter.init, hafter.at_step, hafter.flt, hafter.cause, fun a => congrArg (·.get 0 a) hafter.mem⟩

end Sys2Proof.Machine
end

section
/-! A channel that is switched off (O18, R458, R466, R468). -/

namespace Sys2Proof.Machine
open Sys2Proof

/-- From `s` to `t` a channel's power has been switched: its record, its engines and what loses its contents, and of the registers those in `R`. -/
structure Dev.Switched (R : Nat → Prop) (ch : Nat) (s t : Dev) : Prop where
  shape : t = { s with out := t.out, regs := t.regs, t0 := t.t0, cbuf := t.cbuf, chans := t.chans, clusters := t.clusters, cores := t.cores,
                       tiles := t.tiles, staged := t.staged, mgts := t.mgts, ticket := t.ticket }
  reg : ∀ a, ¬ R a → t.reg a = s.reg a
  others : ∀ j, j ≠ ch → t.chan j = s.chan j
  settled : s.Settled → t.Settled

namespace Dev.Switched
variable {R : Nat → Prop} {ch : Nat} {s t u : Dev}

theorem refl (R : Nat → Prop) (ch : Nat) (s : Dev) : Dev.Switched R ch s s := ⟨rfl, fun _ _ => rfl, fun _ _ => rfl, id⟩

theorem trans (h : Dev.Switched R ch s t) (g : Dev.Switched R ch t u) : Dev.Switched R ch s u where
  shape := by rw [g.shape, h.shape]
  reg a ha := (g.reg a ha).trans (h.reg a ha)
  others j hj := (g.others j hj).trans (h.others j hj)
  settled hs := g.settled (h.settled hs)

theorem mono {Q : Nat → Prop} (h : Dev.Switched R ch s t) (hq : ∀ a, R a → Q a) : Dev.Switched Q ch s t :=
  ⟨h.shape, fun a ha => h.reg a fun hr => ha (hq a hr), h.others, h.settled⟩

theorem inChan {c : Chan} (h : Dev.InChan R ch c s t) : Dev.Switched R ch s t := ⟨by rw [h.shape], h.reg, h.others, h.settled⟩

/-- What stops engines, and loses what they hold. -/
theorem engines (s : Dev) {t : Dev} (ht : t = { s with t0 := t.t0, cbuf := t.cbuf, clusters := t.clusters, cores := t.cores,
                                                              tiles := t.tiles, staged := t.staged }) : Dev.Switched R ch s t :=
  ⟨by rw [ht], fun _ _ => by rw [ht]; rfl, fun _ _ => by rw [ht]; rfl, fun hs => hs.of_chans (by rw [ht])⟩

theorem modChan (s : Dev) {f : Chan → Chan} (hf : ∀ c, (f c).due = c.due) : Dev.Switched R ch s (s.modChan ch f) :=
  ⟨rfl, fun _ _ => rfl, fun _ hj => Dev.modChan_other _ hj f, fun hs => hs.modChan ((hf _).trans (hs.chan ch))⟩

section
variable (h : Dev.Switched R ch s t)
include h

theorem byte (a : Nat) : t.byte a = s.byte a := by rw [Dev.byte, h.shape, Dev.byte]
theorem rqt : t.rqt = s.rqt := by rw [h.shape]
theorem rd {k : PageKind} {d i o : Nat} (ha : ¬ R (pageOff k d i o)) : t.rd k d i o = s.rd k d i o := h.reg _ ha

end

end Dev.Switched

/-! ### Standby (R458) -/

/-- HELLO on the UP ports of a channel stays in its fabric. -/
theorem Dev.helloAll_switched (s : Dev) (ch : Nat) (standby : Bool) : Dev.Switched (txReg ch) ch s (s.helloAll ch standby) ∧
    ((s.helloAll ch standby).fab ch).colls = (s.fab ch).colls := by
  have hone (t : Dev) {p : Nat} (hp : p < 8) : Dev.Switched (txReg ch) ch t (t.helloOn ch p standby) ∧
      ((t.helloOn ch p standby).fab ch).colls = (t.fab ch).colls := by
    obtain ⟨g, hg, hsent⟩ := (Dev.InChan.refl (txReg ch) ch t).sendOn (fun _ h => h) hp (.hello t.node ch p (t.fltState ch) standby)
    exact ⟨.inChan hsent, (congrArg Fab.colls hsent.fab).trans (Sent.of_pumped hg none).colls⟩
  have hall (l : List Nat) (hl : ∀ p ∈ l, p < 8) : ∀ {t : Dev}, Dev.Switched (txReg ch) ch s t ∧ (t.fab ch).colls = (s.fab ch).colls →
      Dev.Switched (txReg ch) ch s (l.foldl (fun s p => s.helloOn ch p standby) t) ∧
        ((l.foldl (fun s p => s.helloOn ch p standby) t).fab ch).colls = (s.fab ch).colls := by
    induction l with
    | nil => exact id
    | cons p l ih =>
      rintro t ⟨h, hcolls⟩
      obtain ⟨hnext, hkeep⟩ := hone t (hl p (.head _))
      exact ih (fun q hq => hl q (.tail _ hq)) ⟨h.trans hnext, hkeep.trans hcolls⟩
  exact hall _ (fun p hp => List.mem_range.1 (List.mem_filter.1 hp).1) ⟨.refl _ ch s, rfl⟩

/-- Where no collective runs, a channel's reads and digests are all that its fabric drops. -/
theorem Dev.dropFabric_idle {s : Dev} {ch : Nat} (hruns : (s.fab ch).colls = []) :
    s.dropFabric ch = s.modFab ch fun x => { x with colls := [], digests := [], reads := [] } := by
  unfold Dev.dropFabric
  rw [hruns]
  simp only [List.filter_nil, List.foldl_nil, hruns, List.length_nil]
  rfl

/-- A channel's standby, up to its state word. -/
def Dev.quiesce (s : Dev) (ch : Nat) : Dev := ((((s.helloAll ch true).stopArray ch).endRunsOff ch).dropFabric ch).dropScratch ch

theorem Dev.quiesce_switched {s : Dev} {ch : Nat} (hruns : (s.fab ch).colls = []) : Dev.Switched (txReg ch) ch s (s.quiesce ch) := by
  obtain ⟨hhello, hcolls⟩ := s.helloAll_switched ch true
  set t := s.helloAll ch true with ht
  have hidle : (((t.stopArray ch).endRunsOff ch).fab ch).colls = [] := hcolls.trans hruns
  have hdrop (u : Dev) : Dev.Switched (txReg ch) ch u (u.modFab ch fun x => { x with colls := [], digests := [], reads := [] }) := .modChan u fun _ => rfl
  unfold Dev.quiesce
  rw [← ht, Dev.dropFabric_idle hidle]
  exact ((hhello.trans (.engines t (t := t.stopArray ch) rfl)).trans (.engines _ (t := (t.stopArray ch).endRunsOff ch) rfl)).trans
    ((hdrop _).trans (.engines _ rfl))

/-- What is left of it once its state word is written. -/
def Dev.cutPower (s : Dev) (ch : Nat) : Dev :=
  ((((((s.enablePorts ch).dropVolatile ch).arraysOff ch).modChan ch fun c => { c with saved := true, idle := 0, memPd := [] }).bump
    .pwrCh ch 0 Off.PWR_C2 1).pwrRecord ch 0x0203 2 2)

theorem Dev.enterC2_eq (s : Dev) (ch : Nat) : s.enterC2 ch = ((((s.quiesce ch).chSta ch 1 0 2).chSta ch 2 2 0).pwrSta ch Code.OK).cutPower ch := rfl

/-- The registers that the cut writes. -/
def cutRegs (ch a : Nat) : Prop := a = pageOff .pwrCh ch 0 Off.PWR_C2 ∨ a = pageOff .pwrCh ch 0 (Off.PWR_C2 + 4) ∨ recRegs ch a

theorem Dev.cutPower_switched (s : Dev) (ch : Nat) : Dev.Switched (cutRegs ch) ch s (s.cutPower ch) ∧ ((s.cutPower ch).chan ch).saved = true := by
  obtain ⟨k, hports, -⟩ := Dev.InChan.enableAll (s := s) (g := s.fab ch) (List.range 8) List.nodup_range (.refl _ ch s)
  rw [← Dev.enablePorts_eq] at hports
  have hen : Dev.Switched (cutRegs ch) ch s (s.enablePorts ch) := (Dev.Switched.inChan hports).mono fun _ h => h.elim
  set a := s.enablePorts ch with ha
  set b := a.dropVolatile ch with hb
  set c := (b.arraysOff ch).modChan ch fun c => { c with saved := true, idle := 0, memPd := [] } with hc
  set d := c.bump .pwrCh ch 0 Off.PWR_C2 1 with hd
  have hvol : Dev.Switched (cutRegs ch) ch a b := by
    rw [hb]
    unfold Dev.dropVolatile
    exact (Dev.Switched.engines a rfl).trans (.modChan _ fun _ => rfl)
  have hnote : Dev.Switched (cutRegs ch) ch b (b.arraysOff ch) := .modChan b fun x => by split <;> rfl
  have hoff : Dev.Switched (cutRegs ch) ch b c := hnote.trans (.modChan _ fun _ => rfl)
  have hcount : Dev.Switched (cutRegs ch) ch c d := .inChan ((Dev.InChan.refl _ ch c).bump (.inl rfl) (.inr (.inl rfl)) 1)
  have hlog : Dev.Switched (cutRegs ch) ch d (s.cutPower ch) := .inChan ((Dev.InChan.refl _ ch d).record (fun _ h => .inr (.inr h)) _)
  have hsaved : (d.chan ch).saved = true := by rw [hd, Dev.bump_get_chan, hc, Dev.modChan_same]
  refine ⟨(hen.trans hvol).trans ((hoff.trans hcount).trans hlog), ?_⟩
  obtain ⟨r, hr⟩ := (d.record_logged ch (Ev.plain 0x0203 6 true [2, 2])).chan_same
  exact (congrArg Chan.saved hr).trans hsaved

/-- The registers that a change of a channel's power writes. -/
def powRegs (ch a : Nat) : Prop := a = pageOff .pwrCh ch 0 Off.PWR_CH_STA ∨ txReg ch a ∨ cutRegs ch a

/-- The state word of a channel in C2. -/
def offWord (w : Word) : Word := setFld (setFld (setFld w 1 0 2) 2 2 0) 15 8 Code.OK

theorem fld_offWord (w : Word) : fld (offWord w) 1 0 = 2 ∧ fld (offWord w) 2 2 = 0 ∧ fld (offWord w) 15 8 = Code.OK := by
  obtain ⟨hok, hlow⟩ := fld_okWord (setFld (setFld w 1 0 2) 2 2 0)
  refine ⟨(hlow 1 0 (by decide)).trans ?_, (hlow 2 2 (by decide)).trans ?_, hok⟩
  · rw [fld_setFld_apart _ (by decide) (by decide) (.inr (by decide))]
    exact fld_setFld_same _ (by decide) (by decide) _
  · exact fld_setFld_same _ (by decide) (by decide) _

theorem not_cutRegs (ch : Nat) : ¬ cutRegs ch (pageOff .pwrCh ch 0 Off.PWR_CH_STA) := by
  simp only [cutRegs, recRegs, pageOff, Page.base, chanWin, Off.EVR_REC, Off.EVR_SUPP, Off.PWR_C2, Off.PWR_CH_STA]
  omega

/-- A channel that is in C2, as its words and its record say (R458). -/
structure Dev.Off (ch : Nat) (t : Dev) : Prop where
  cstate : t.cstate ch = 2
  ready : t.chReady ch = false
  saved : (t.chan ch).saved = true
  code : t.rdF .pwrCh ch 0 Off.PWR_CH_STA 15 8 = Code.OK

/-- A channel that enters C2 is in C2 then; where no collective runs, nothing else changes but what it drops. -/
theorem Dev.enterC2_off (s : Dev) (ch : Nat) : Dev.Off ch (s.enterC2 ch) ∧ ((s.fab ch).colls = [] → Dev.Switched (powRegs ch) ch s (s.enterC2 ch)) := by
  rw [Dev.enterC2_eq]
  have hword := (((Dev.StartNoted.refl ch (s.quiesce ch)).chSta 1 0 2).chSta 2 2 0).chSta 15 8 Code.OK
  have hset : Dev.Switched (powRegs ch) ch (s.quiesce ch) ((((s.quiesce ch).chSta ch 1 0 2).chSta ch 2 2 0).pwrSta ch Code.OK) := by
    have hone (u : Dev) (hi lo v : Nat) : Dev.Switched (powRegs ch) ch u (u.chSta ch hi lo v) :=
      .inChan ((Dev.InChan.refl _ ch u).wr (k := .pwrCh) (d := ch) (i := 0) (o := Off.PWR_CH_STA) (.inl rfl) _)
    exact ((hone _ 1 0 2).trans (hone _ 2 2 0)).trans (hone _ 15 8 Code.OK)
  set u := (((s.quiesce ch).chSta ch 1 0 2).chSta ch 2 2 0).pwrSta ch Code.OK with hu
  obtain ⟨hcut, hsaved⟩ := u.cutPower_switched ch
  obtain ⟨hcst, hready, hcode⟩ := fld_offWord ((s.quiesce ch).rd .pwrCh ch 0 Off.PWR_CH_STA)
  have hread : (u.cutPower ch).rd .pwrCh ch 0 Off.PWR_CH_STA = offWord ((s.quiesce ch).rd .pwrCh ch 0 Off.PWR_CH_STA) :=
    (hcut.rd (not_cutRegs ch)).trans hword.word
  refine ⟨⟨?_, ?_, hsaved, ?_⟩, fun hruns => ?_⟩
  · rw [Dev.cstate, Dev.rdF, hread, hcst]
  · rw [Dev.chReady, Dev.rdF, hread, hready]
    rfl
  · rw [Dev.rdF, hread, hcode]
  · exact ((Dev.quiesce_switched hruns).mono fun _ h => .inr (.inl h)).trans (hset.trans (hcut.mono fun _ h => .inr (.inr h)))

end Sys2Proof.Machine
end

section
/-! PWR_CH_CMD: C2 and C0 of a channel (O18, R458, R460, R468, R480). -/

namespace Sys2Proof.Machine
open Sys2Proof

section
variable {s : State} {fn : Fn} {ch : ChId} (hw : s.m.Writes fn ⟨.pwrCh, ch.val, 0⟩ Off.PWR_CH_CMD)
include hw

theorem exec_pwrC2 : exec (.pwrChCmdC2 fn ch) s = s.done (s.m.c2Cmd ch.val) := by
  have hbody : s.m.pageWrite ⟨.pwrCh, ch.val, 0⟩ (writeReader fn) Off.PWR_CH_CMD 1 WrEnv.none = s.m.c2Cmd ch.val := by
    rw [Dev.pageWrite, if_neg (by decide), Dev.bodyWrite]
    exact if_pos rfl
  exact congrArg s.done ((Dev.put_granted (Page.valid_channel (by decide) ch.isLt) (by decide) (by decide) hw 1).trans hbody)

theorem exec_pwrC0 (drifted : List (Nat × Nat)) : exec (.pwrChCmdC0 fn ch drifted) s = s.done (s.m.c0Cmd ch.val drifted) := by
  have hbody : s.m.pageWrite ⟨.pwrCh, ch.val, 0⟩ (writeReader fn) Off.PWR_CH_CMD 2 ⟨[], drifted⟩ = s.m.c0Cmd ch.val drifted := by
    rw [Dev.pageWrite, if_neg (by decide), Dev.bodyWrite]
    exact if_pos rfl
  exact congrArg s.done ((Dev.writeWord_granted (Page.valid_channel (by decide) ch.isLt) (by decide) (by decide) hw 2 _).trans hbody)

variable (hcst : s.m.cstate ch.val ≠ 2) (hidle : s.m.c2Refused ch.val = false)
include hcst hidle

theorem exec_enterC2 : exec (.pwrChCmdC2 fn ch) s = s.done (s.m.enterC2 ch.val) :=
  (exec_pwrC2 hw).trans (congrArg s.done ((if_neg (by simp [hidle])).trans (if_neg hcst)))

/-- C2 of an idle channel (R458). -/
theorem does_enterC2 : Does (.pwrChCmdC2 fn ch) s fun r => r.m.cstate ch.val = 2 ∧ r.m.chReady ch.val = false ∧ (r.m.chan ch.val).saved = true ∧
    r.m.rdF .pwrCh ch.val 0 Off.PWR_CH_STA 15 8 = Code.OK := by
  obtain ⟨hoff, -⟩ := s.m.enterC2_off ch.val
  exact does_done (exec_enterC2 hw hcst hidle) ⟨hoff.cstate, hoff.ready, hoff.saved, hoff.code⟩

theorem answers_enterC2 (hs : s.m.Settled) (hruns : (s.m.chan ch.val).fab.colls = []) : Answers (.pwrChCmdC2 fn ch) s fun r => r.m.cstate ch.val = 2 ∧
    r.m.chReady ch.val = false ∧ (r.m.chan ch.val).saved = true ∧ SameBytes s r ∧ r.m.rqt = s.m.rqt ∧
    r.m.rdF .pwrCh ch.val 0 Off.PWR_CH_STA 15 8 = Code.OK := by
  obtain ⟨hoff, hkeep⟩ := s.m.enterC2_off ch.val
  have hkept := hkeep hruns
  exact answers_done (exec_enterC2 hw hcst hidle) (hkept.settled hs) ⟨hoff.cstate, hoff.ready, hoff.saved, hkept.byte, hkept.rqt, hoff.code⟩

end

end Sys2Proof.Machine
end

section
/-! The return from C2 (O18, R460, R468). -/

namespace Sys2Proof.Machine
open Sys2Proof

/-- A channel's record once its arrays have power again (R468). -/
def poweredChan (ms : Nat) (c : Chan) : Chan :=
  match c.offAt with
  | some t => { c with offAt := none, unpwr := min 0xFFFFFFFF ((ms - t) / 1000) }
  | none => c

theorem poweredChan_evr (ms : Nat) (c : Chan) (r : Recorder) : poweredChan ms { c with evr := r } = { poweredChan ms c with evr := r } := by
  unfold poweredChan
  cases h : c.offAt <;> simp only [h]

theorem poweredChan_due (ms : Nat) (c : Chan) : (poweredChan ms c).due = c.due := by
  unfold poweredChan
  split <;> rfl

/-- A channel's record as it returns from C2. -/
def wokenChan (ms : Nat) (c : Chan) : Chan := { poweredChan ms c with saved := false, startAt := ms }

theorem wokenChan_unpwr {ms t : Nat} {c : Chan} (h : c.offAt = some t) : (wokenChan ms c).unpwr = min 0xFFFFFFFF ((ms - t) / 1000) := by
  unfold wokenChan poweredChan
  simp only [h]

/-- The state word of a channel that returns. -/
def wakeWord (w : Word) : Word := setFld (setFld (setFld (setFld w 1 0 0) 3 3 1) 6 4 4) 15 8 Code.PENDING

/-- A return from C2, up to its retention verify. -/
def Dev.wake (s : Dev) (ch : Nat) : Dev :=
  let s := (s.arraysOn ch).modChan ch fun c => { c with saved := false, startAt := s.mgtMs }
  ((((s.chSta ch 1 0 0).chSta ch 3 3 1).chSta ch 6 4 4).pwrSta ch Code.PENDING).pwrRecord ch 0x0203 2 0

theorem Dev.c0Cmd_eq {s : Dev} {ch : Nat} (h : s.cstate ch = 2) (drifted : List (Nat × Nat)) :
    s.c0Cmd ch drifted = ((s.wake ch).retention ch drifted).enablePorts ch := if_neg (not_not.2 h)

theorem powRegs_sta (ch : Nat) : powRegs ch (pageOff .pwrCh ch 0 Off.PWR_CH_STA) := .inl rfl

theorem Dev.InChan.chSta {ch : Nat} {c : Chan} {s t : Dev} (h : Dev.InChan (powRegs ch) ch c s t) (hi lo v : Nat) :
    Dev.InChan (powRegs ch) ch c s (t.chSta ch hi lo v) := h.wr (k := .pwrCh) (d := ch) (i := 0) (o := Off.PWR_CH_STA) (powRegs_sta ch) _

/-- A channel that wakes has its arrays powered, and its start pending. -/
theorem Dev.wake_inChan (s : Dev) (ch : Nat) : Dev.InChan (powRegs ch) ch (wokenChan s.mgtMs (s.chan ch)) s (s.wake ch) ∧
    (s.wake ch).rd .pwrCh ch 0 Off.PWR_CH_STA = wakeWord (s.rd .pwrCh ch 0 Off.PWR_CH_STA) := by
  have hrefl := Dev.InChan.refl (powRegs ch) ch s
  have hpower : Dev.InChan (powRegs ch) ch (poweredChan s.mgtMs (s.chan ch)) s (s.arraysOn ch) :=
    hrefl.modChan (poweredChan s.mgtMs) (poweredChan_evr _ _) (poweredChan_due _)
  have hwake := hpower.modChan (fun c => { c with saved := false, startAt := s.mgtMs }) (fun _ => rfl) fun _ => rfl
  set t := (s.arraysOn ch).modChan ch fun c => { c with saved := false, startAt := s.mgtMs } with ht
  have hsame : t.rd .pwrCh ch 0 Off.PWR_CH_STA = s.rd .pwrCh ch 0 Off.PWR_CH_STA := rfl
  have hword := ((((Dev.StartNoted.refl ch t).chSta 1 0 0).chSta 3 3 1).chSta 6 4 4).chSta 15 8 Code.PENDING
  have hset := (((hwake.chSta 1 0 0).chSta 3 3 1).chSta 6 4 4).chSta 15 8 Code.PENDING
  rw [hsame] at hword
  refine ⟨hset.record (fun _ h => .inr (.inr (.inr (.inr h)))) _, ?_⟩
  have hkeep := (Dev.record_logged ((((t.chSta ch 1 0 0).chSta ch 3 3 1).chSta ch 6 4 4).chSta ch 15 8 Code.PENDING) ch (Ev.plain 0x0203 6 true [2, 0])).reg
    (pageOff .pwrCh ch 0 Off.PWR_CH_STA) fun h => not_cutRegs ch (.inr (.inr h))
  exact hkeep.trans hword.word

theorem fld_wakeWord (w : Word) : fld (wakeWord w) 1 0 = 0 ∧ fld (wakeWord w) 3 3 = 1 ∧ fld (wakeWord w) 6 4 = 4 ∧
    fld (wakeWord w) 15 8 = Code.PENDING := by
  unfold wakeWord
  refine ⟨?_, ?_, ?_, fld_setFld_same _ (by decide) (by decide) _⟩
  · rw [fld_setFld_apart _ (by decide) (by decide) (.inr (by decide)), fld_setFld_apart _ (by decide) (by decide) (.inr (by decide)),
      fld_setFld_apart _ (by decide) (by decide) (.inr (by decide))]
    exact fld_setFld_same _ (by decide) (by decide) _
  · rw [fld_setFld_apart _ (by decide) (by decide) (.inr (by decide)), fld_setFld_apart _ (by decide) (by decide) (.inr (by decide))]
    exact fld_setFld_same _ (by decide) (by decide) _
  · rw [fld_setFld_apart _ (by decide) (by decide) (.inr (by decide))]
    exact fld_setFld_same _ (by decide) (by decide) _

/-- A channel that returns from C2: INIT from a step on, and its command waits for READY (R460). -/
structure Dev.Returns (ch step : Nat) (t : Dev) : Prop where
  cstate : t.cstate ch = 0
  init : t.chInit ch = true
  at_step : t.initStep ch = step
  code : t.rdF .pwrCh ch 0 Off.PWR_CH_STA 15 8 = Code.PENDING

theorem Dev.Returns.of_word {ch : Nat} {w : Word} {t : Dev} (h : t.rd .pwrCh ch 0 Off.PWR_CH_STA = wakeWord w) : Dev.Returns ch 4 t := by
  obtain ⟨hcst, hinit, hstep, hcode⟩ := fld_wakeWord w
  refine ⟨?_, ?_, ?_, ?_⟩
  · rw [Dev.cstate, Dev.rdF, h, hcst]
  · rw [Dev.chInit, Dev.rdF, h, hinit]
    rfl
  · rw [Dev.initStep, Dev.rdF, h, hstep]
  · rw [Dev.rdF, h, hcode]

theorem Dev.Returns.of_verifyWord {ch : Nat} {w : Word} {t : Dev} (h : t.rd .pwrCh ch 0 Off.PWR_CH_STA = setFld (wakeWord w) 6 4 5) :
    Dev.Returns ch 5 t := by
  obtain ⟨hcst, hinit, -, hcode⟩ := fld_wakeWord w
  have hlow (hi lo : Nat) (hlt : hi < 4) : t.rdF .pwrCh ch 0 Off.PWR_CH_STA hi lo = fld (wakeWord w) hi lo := by
    rw [Dev.rdF, h]
    exact fld_setFld_apart _ (by decide) (by decide) (.inr hlt) _
  refine ⟨(hlow 1 0 (by decide)).trans hcst, ?_, ?_, ?_⟩
  · rw [Dev.chInit, hlow 3 3 (by decide), hinit]
    rfl
  · rw [Dev.initStep, Dev.rdF, h]
    exact fld_setFld_same _ (by decide) (by decide) _
  · rw [Dev.rdF, h, fld_setFld_apart _ (by decide) (by decide) (.inl (by decide)), hcode]

/-! ### The retention verify (R468) -/

/-- Up to 72 h without power nothing is verified. -/
theorem Dev.retention_none {s : Dev} {ch : Nat} (h : (s.chan ch).unpwr ≤ 259200) (drifted : List (Nat × Nat)) : s.retention ch drifted = s := if_pos h

theorem Dev.InChan.unpwr {R : Nat → Prop} {ch : Nat} {c : Chan} {s t : Dev} (h : Dev.InChan R ch c s t) : (t.chan ch).unpwr = c.unpwr := by
  obtain ⟨r, hr⟩ := h.chan
  rw [hr]

theorem Dev.InChan.saved {R : Nat → Prop} {ch : Nat} {c : Chan} {s t : Dev} (h : Dev.InChan R ch c s t) : (t.chan ch).saved = c.saved := by
  obtain ⟨r, hr⟩ := h.chan
  rw [hr]

/-- The unpowered time that a channel wakes with, in seconds. -/
theorem Dev.wake_unpwr {s : Dev} {ch t0 : Nat} (h : (s.chan ch).offAt = some t0) : ((s.wake ch).chan ch).unpwr = min 0xFFFFFFFF ((s.mgtMs - t0) / 1000) := by
  have hwoken : ((s.wake ch).chan ch).unpwr = (wokenChan s.mgtMs (s.chan ch)).unpwr := (s.wake_inChan ch).1.unpwr
  exact hwoken.trans (wokenChan_unpwr h)

theorem withFab_saved (c : Chan) (f : Fab) : (withFab c f).saved = c.saved := rfl

theorem secs_soon {ms t0 : Nat} (h : ms < t0 + 259201000) : min 0xFFFFFFFF ((ms - t0) / 1000) ≤ 259200 := by omega

theorem secs_late {ms t0 : Nat} (h : t0 + 31536001000 ≤ ms) : 31536000 < min 0xFFFFFFFF ((ms - t0) / 1000) := by omega

theorem Dev.enablePorts_inChan (s : Dev) (ch : Nat) : ∃ k, Dev.InChan (fun _ => False) ch (withFab (s.chan ch) k) s (s.enablePorts ch) := by
  obtain ⟨k, hports, -⟩ := Dev.InChan.enableAll (s := s) (g := s.fab ch) (List.range 8) List.nodup_range (.refl _ ch s)
  exact ⟨k, hports⟩

/-- A return within 72 h: the channel's record and its state word change, and nothing that it holds. -/
theorem Dev.c0Cmd_soon {s : Dev} {ch t0 : Nat} (hcst : s.cstate ch = 2) (hoff : (s.chan ch).offAt = some t0) (hsoon : s.mgtMs < t0 + 259201000)
    (drifted : List (Nat × Nat)) : Dev.Returns ch 4 (s.c0Cmd ch drifted) ∧ ((s.c0Cmd ch drifted).chan ch).saved = false ∧
      ∃ c, Dev.InChan (powRegs ch) ch c s (s.c0Cmd ch drifted) := by
  obtain ⟨hwake, hword⟩ := s.wake_inChan ch
  have hnone : (s.wake ch).retention ch drifted = s.wake ch := 
    Dev.retention_none ((Dev.wake_unpwr hoff).trans_le (secs_soon hsoon)) drifted
  rw [Dev.c0Cmd_eq hcst, hnone]
  obtain ⟨k, hports⟩ := (s.wake ch).enablePorts_inChan ch
  refine ⟨.of_word ((hports.reg _ id).trans hword), ?_, _, hwake.trans (hports.mono fun _ h => h.elim)⟩
  have hsaved : ((s.wake ch).chan ch).saved = false := hwake.saved
  rw [hports.saved, withFab_saved, hsaved]

/-- A tile that is written anew for retention. -/
def reprogrammed (t : Tile) : Tile := { t with next := some .programming, prog := some .retention }

/-- Tiles that are written anew. -/
def Dev.reprogramAll (s : Dev) (ks : List Nat) : Dev := ks.foldl (fun s k => s.modTile k reprogrammed) s

theorem Dev.reprogramAll_shape (ks : List Nat) : ∀ s : Dev, s.reprogramAll ks = { s with tiles := (s.reprogramAll ks).tiles } := by
  induction ks with
  | nil => exact fun _ => rfl
  | cons k ks ih =>
    intro s
    exact (ih (s.modTile k reprogrammed)).trans rfl

theorem Dev.reprogramAll_rd (s : Dev) (ks : List Nat) (k : PageKind) (d i o : Nat) : (s.reprogramAll ks).rd k d i o = s.rd k d i o := by
  rw [Dev.reprogramAll_shape]
  rfl

/-- A tile stays due for retention, whatever other tiles become due. -/
theorem Dev.reprogramAll_keeps {s : Dev} {k : Nat} (ks : List Nat) (h : (s.tile k).prog = some .retention ∧ (s.tile k).next = some .programming) :
    ((s.reprogramAll ks).tile k).prog = some .retention ∧ ((s.reprogramAll ks).tile k).next = some .programming := by
  induction ks generalizing s with
  | nil => exact h
  | cons j ks ih =>
    refine ih ?_
    by_cases hk : k = j
    · subst hk
      rw [Dev.modTile_same]
      exact ⟨rfl, rfl⟩
    · rw [Dev.modTile_other _ hk]
      exact h

theorem Dev.reprogramAll_tile {k : Nat} (ks : List Nat) (hk : k ∈ ks) : ∀ s : Dev,
    ((s.reprogramAll ks).tile k).prog = some .retention ∧ ((s.reprogramAll ks).tile k).next = some .programming := by
  induction ks with
  | nil => cases hk
  | cons j ks ih =>
    intro s
    by_cases hj : k = j
    · subst hj
      refine Dev.reprogramAll_keeps (s := s.modTile k reprogrammed) ks ?_
      rw [Dev.modTile_same]
      exact ⟨rfl, rfl⟩
    · exact ih ((List.mem_cons.1 hk).resolve_left hj) _

/-- Beyond 365 days every tile that holds slices is written anew. -/
theorem Dev.retention_full {s : Dev} {ch : Nat} (h : 31536000 < (s.chan ch).unpwr) (drifted : List (Nat × Nat)) : s.retention ch drifted =
    ((s.bump .pwrCh ch 0 Off.PWR_VTILE (s.heldTiles ch).length).chSta ch 6 4 5).reprogramAll (s.heldTiles ch) := by
  unfold Dev.retention
  dsimp only
  rw [if_neg (by omega), if_neg (by omega)]
  rfl

/-- A return after a year: every tile that holds slices is due for retention. -/
theorem Dev.c0Cmd_late {s : Dev} {ch t0 : Nat} (hcst : s.cstate ch = 2) (hoff : (s.chan ch).offAt = some t0) (hlate : t0 + 31536001000 ≤ s.mgtMs)
    (drifted : List (Nat × Nat)) : Dev.Returns ch 5 (s.c0Cmd ch drifted) ∧ Dev.Switched anyReg ch s (s.c0Cmd ch drifted) ∧
      ∀ k ∈ s.heldTiles ch, ((s.c0Cmd ch drifted).tile k).prog = some .retention ∧ ((s.c0Cmd ch drifted).tile k).next = some .programming := by
  obtain ⟨hwake, hword⟩ := s.wake_inChan ch
  have hsecs : 31536000 < ((s.wake ch).chan ch).unpwr := (secs_late hlate).trans_eq (Dev.wake_unpwr hoff).symm
  have hheld : (s.wake ch).heldTiles ch = s.heldTiles ch := by
    unfold Dev.heldTiles
    rw [hwake.tiles]
  rw [Dev.c0Cmd_eq hcst, Dev.retention_full hsecs, hheld]
  generalize s.wake ch = t at hwake hword
  generalize s.heldTiles ch = ks
  set u := t.bump .pwrCh ch 0 Off.PWR_VTILE ks.length with hu
  have hcount : Dev.Switched anyReg ch t u := .inChan ((Dev.InChan.refl _ ch t).bump trivial trivial _)
  have hsame : u.rd .pwrCh ch 0 Off.PWR_CH_STA = t.rd .pwrCh ch 0 Off.PWR_CH_STA :=
    Dev.bump_rd_offset _ (o := Off.PWR_VTILE) (by decide) (by decide) (by decide) (by decide) _
  set v := u.chSta ch 6 4 5 with hv
  have hstep : Dev.Switched anyReg ch u v := .inChan ((Dev.InChan.refl _ ch u).wr (k := .pwrCh) (d := ch) (i := 0) (o := Off.PWR_CH_STA) trivial _)
  have hverify : v.rd .pwrCh ch 0 Off.PWR_CH_STA = setFld (u.rd .pwrCh ch 0 Off.PWR_CH_STA) 6 4 5 := ((Dev.StartNoted.refl ch u).chSta 6 4 5).word
  have htiles : Dev.Switched anyReg ch v (v.reprogramAll ks) := .engines v (by rw [Dev.reprogramAll_shape])
  have hkept : (v.reprogramAll ks).rd .pwrCh ch 0 Off.PWR_CH_STA = v.rd .pwrCh ch 0 Off.PWR_CH_STA :=
    Dev.reprogramAll_rd ..
  have hdue := fun k hk => Dev.reprogramAll_tile (k := k) ks hk v
  generalize v.reprogramAll ks = x at htiles hkept hdue
  obtain ⟨k, hports⟩ := x.enablePorts_inChan ch
  refine ⟨.of_verifyWord (w := s.rd .pwrCh ch 0 Off.PWR_CH_STA) ?_, ?_, fun k hk => ?_⟩
  · rw [Dev.rd, hports.reg _ id, ← Dev.rd, hkept, hverify, hsame, hword]
  · exact (((Dev.Switched.inChan hwake).mono fun _ _ => trivial).trans (hcount.trans hstep)).trans
      (htiles.trans ((Dev.Switched.inChan hports).mono fun _ h => h.elim))
  · rw [Dev.tile, hports.tiles, ← Dev.tile]
    exact hdue k hk

section
variable {s : State} {fn : Fn} {ch : ChId} {t0 : Nat} (hs : s.m.Settled) (hw : s.m.Writes fn ⟨.pwrCh, ch.val, 0⟩ Off.PWR_CH_CMD)
  (hcst : s.m.cstate ch.val = 2) (hoff : (s.m.chan ch.val).offAt = some t0)
include hs hw hcst hoff

/-- C0 after a year without power. -/
theorem answers_c0Late (hlate : t0 + 31536001000 ≤ s.m.mgtMs) (drifted : List (Nat × Nat)) : Answers (.pwrChCmdC0 fn ch drifted) s fun r =>
    r.m.cstate ch.val = 0 ∧ r.m.chInit ch.val = true ∧ r.m.initStep ch.val = 5 ∧ SameBytes s r ∧ r.m.rqt = s.m.rqt ∧
    r.m.rdF .pwrCh ch.val 0 Off.PWR_CH_STA 15 8 = Code.PENDING ∧
    ∀ k ∈ s.m.heldTiles ch.val, (r.m.tile k).prog = some .retention ∧ (r.m.tile k).next = some .programming := by
  obtain ⟨hret, hkept, hdue⟩ := Dev.c0Cmd_late hcst hoff hlate drifted
  exact answers_done (exec_pwrC0 hw drifted) (hkept.settled hs) ⟨hret.cstate, hret.init, hret.at_step, hkept.byte, hkept.rqt, hret.code, hdue⟩

/-- C0 within 72 h. -/
theorem answers_c0Soon (hsoon : s.m.mgtMs < t0 + 259201000) (drifted : List (Nat × Nat)) : Answers (.pwrChCmdC0 fn ch drifted) s fun r =>
    r.m.cstate ch.val = 0 ∧ r.m.chInit ch.val = true ∧ r.m.initStep ch.val = 4 ∧ (r.m.chan ch.val).saved = false ∧ SameBytes s r ∧
    r.m.rqt = s.m.rqt ∧ r.m.tiles = s.m.tiles ∧ r.m.rdF .pwrCh ch.val 0 Off.PWR_CH_STA 15 8 = Code.PENDING := by
  obtain ⟨hret, hsaved, c, hkept⟩ := Dev.c0Cmd_soon hcst hoff hsoon drifted
  exact answers_done (exec_pwrC0 hw drifted) (hkept.settled hs)
    ⟨hret.cstate, hret.init, hret.at_step, hsaved, hkept.byte, hkept.rqt, hkept.tiles, hret.code⟩

end

end Sys2Proof.Machine
end

section
/-! PWR_MOD_CMD: M0 and M2 over the channels (O18, R460, R479). -/

namespace Sys2Proof.Machine
open Sys2Proof

/-! ### One channel after another -/

/-- Where a step per channel leaves the others as they were, each channel ends as its own step left it. -/
theorem foldl_chans {f : Dev → Nat → Dev} {Rel : Nat → Dev → Dev → Prop} {Pre Post : Nat → Dev → Prop} {All : Dev → Prop}
    (hstep : ∀ ch t, Pre ch t → Rel ch t (f t ch) ∧ Post ch (f t ch)) (hall : ∀ ch t u, Rel ch t u → All t → All u)
    (hpre : ∀ ch c t u, c ≠ ch → Rel ch t u → Pre c t → Pre c u) (hpost : ∀ ch c t u, c ≠ ch → Rel ch t u → Post c t → Post c u)
    (l : List Nat) (hl : l.Nodup) : ∀ s, All s → (∀ c ∈ l, Pre c s) →
      All (l.foldl f s) ∧ (∀ c ∈ l, Post c (l.foldl f s)) ∧ ∀ c, c ∉ l → Post c s → Post c (l.foldl f s) := by
  induction l with
  | nil => exact fun s hs _ => ⟨hs, by simp, fun _ _ h => h⟩
  | cons ch l ih =>
    obtain ⟨hch, hl⟩ := List.nodup_cons.1 hl
    intro s hs hready
    obtain ⟨hrel, hdone⟩ := hstep ch s (hready ch (.head _))
    have hother : ∀ c ∈ l, c ≠ ch := fun c hc e => hch (e ▸ hc)
    obtain ⟨hend, hposts, hkeep⟩ := ih hl (f s ch) (hall _ _ _ hrel hs) fun c hc => hpre _ _ _ _ (hother c hc) hrel (hready c (.tail _ hc))
    refine ⟨hend, fun c hc => ?_, fun c hc h => ?_⟩
    · rcases List.mem_cons.1 hc with rfl | hc
      · exact hkeep c hch hdone
      · exact hposts c hc
    · obtain ⟨hne, hnot⟩ := not_or.1 (List.mem_cons.not.1 hc)
      exact hkeep c hnot (hpost _ _ _ _ hne hrel h)

/-- A change of one channel's power reaches no other channel's state word, and no load. -/
theorem not_powRegs {ch c : Nat} (h : c ≠ ch) : ¬ powRegs ch (pageOff .pwrCh c 0 Off.PWR_CH_STA) := by
  rintro (h | ⟨p, hp, h⟩ | h)
  · simp only [pageOff, Page.base, chanWin] at h
    omega
  · simp only [pageOff, Page.base, chanWin, Off.PWR_CH_STA, Off.EVF_TXFLIT] at h
    omega
  · simp only [cutRegs, recRegs, pageOff, Page.base, chanWin, Off.PWR_CH_STA, Off.PWR_C2, Off.EVR_REC, Off.EVR_SUPP] at h
    omega

theorem not_powRegs_load (ch n : Nat) : ¬ powRegs ch (pageOff .ldrCx 0 n Off.LDR_CMD_STA) := by
  rintro (h | ⟨p, hp, h⟩ | h)
  · simp only [pageOff, Page.base, chanWin, Off.PWR_CH_STA, Off.LDR_CMD_STA] at h
    omega
  · simp only [pageOff, Page.base, chanWin, Off.LDR_CMD_STA, Off.EVF_TXFLIT] at h
    omega
  · simp only [cutRegs, recRegs, pageOff, Page.base, chanWin, Off.LDR_CMD_STA, Off.PWR_C2, Off.EVR_REC, Off.EVR_SUPP] at h
    omega

/-- What C2 is refused for lies in the request table, contexts, settings in force, lent frames, sequences and two words. -/
theorem Dev.c2Refused_congr {s t : Dev} {c : Nat} (hrqt : t.rqt = s.rqt) (hctxs : t.ctxs = s.ctxs) (heff : t.eff = s.eff) (hmems : t.mems = s.mems)
    (hseqs : t.seqs = s.seqs) (hsta : t.rd .pwrCh c 0 Off.PWR_CH_STA = s.rd .pwrCh c 0 Off.PWR_CH_STA)
    (hload : ∀ n, t.rd .ldrCx 0 n Off.LDR_CMD_STA = s.rd .ldrCx 0 n Off.LDR_CMD_STA) : t.c2Refused c = s.c2Refused c := by
  have hinit : t.chInit c = s.chInit c := by rw [Dev.chInit, Dev.rdF, hsta, ← Dev.rdF, ← Dev.chInit]
  have hentries : t.entries c = s.entries c := by rw [Dev.entries, hrqt, ← Dev.entries]
  have hst (r : Nat) : t.st r = s.st r := by rw [Dev.st, Dev.stateW, Dev.ent, hrqt, ← Dev.ent, ← Dev.stateW, ← Dev.st]
  have hphase (n : Nat) : t.phase n = s.phase n := congrArg (fld · 18 16) (hload n)
  have hmask (n : Nat) : t.mask n = s.mask n := by
    unfold Dev.mask Dev.inForce
    rw [heff]
  have hin : t.t3In c = s.t3In c := by rw [Dev.t3In, Dev.memOf, hmems, ← Dev.memOf, ← Dev.t3In]
  have hout : t.t3Out c = s.t3Out c := by rw [Dev.t3Out, hseqs, ← Dev.t3Out]
  unfold Dev.c2Refused
  simp only [hinit, hentries, hst, hctxs, hphase, hmask, hin, hout]

/-! ### The status of a module command (R479) -/

/-- A module command's status is a word of its own. -/
theorem Dev.modCmdSta_as (s : Dev) {code : Nat} (hcode : code < 256) : s.Aside (· = pageOff .pwrMod 0 0 Off.PWR_MOD_STA) (s.modCmdSta code) ∧
    (s.modCmdSta code).rdF .pwrMod 0 0 Off.PWR_MOD_STA 28 21 = code ∧
    (s.modCmdSta code).rdF .pwrMod 0 0 Off.PWR_MOD_STA 4 4 = s.rdF .pwrMod 0 0 Off.PWR_MOD_STA 4 4 := by
  have hread : (s.modCmdSta code).rd .pwrMod 0 0 Off.PWR_MOD_STA = setFld (s.rd .pwrMod 0 0 Off.PWR_MOD_STA) 28 21 code := Dev.wr_rd_same ..
  refine ⟨(Dev.Aside.refl (· = pageOff .pwrMod 0 0 Off.PWR_MOD_STA) s).setReg rfl _, ?_, ?_⟩
  · rw [Dev.rdF, hread, fld_setFld_same _ (by decide) (by decide)]
    exact Nat.mod_eq_of_lt hcode
  · rw [Dev.rdF, hread, fld_setFld_apart _ (by decide) (by decide) (.inr (by decide)), ← Dev.rdF]

theorem pwrSta_ne_mod (c : Nat) : pageOff .pwrCh c 0 Off.PWR_CH_STA ≠ pageOff .pwrMod 0 0 Off.PWR_MOD_STA := by
  simp only [pageOff, Page.base, chanWin, Off.PWR_CH_STA, Off.PWR_MOD_STA]
  omega

/-- What it leaves of a channel. -/
theorem Dev.modCmdSta_chan (s : Dev) (code c : Nat) : (s.modCmdSta code).rd .pwrCh c 0 Off.PWR_CH_STA = s.rd .pwrCh c 0 Off.PWR_CH_STA ∧
    (s.modCmdSta code).chan c = s.chan c := 
  ⟨Dev.setReg_reg_other _ (pwrSta_ne_mod c) _, Dev.wr_get_chan ..⟩

section
variable {s : State} {fn : Fn} (hw : s.m.Writes fn ⟨.pwrMod, 0, 0⟩ Off.PWR_MOD_CMD)
include hw

theorem exec_pwrM0 (drifted : List (Nat × Nat)) : exec (.pwrModCmdM0 fn drifted) s = s.done (s.m.m0Cmd drifted) := by
  have hbody : s.m.pageWrite ⟨.pwrMod, 0, 0⟩ (writeReader fn) Off.PWR_MOD_CMD 0 ⟨[], drifted⟩ = s.m.m0Cmd drifted := by
    rw [Dev.pageWrite, if_neg (by decide), Dev.bodyWrite]
    exact if_pos rfl
  exact congrArg s.done ((Dev.writeWord_granted rfl (by decide) (by decide) hw 0 _).trans hbody)

theorem exec_pwrM2 : exec (.pwrModCmdM2 fn) s = s.done s.m.m2Cmd := by
  have hbody : s.m.pageWrite ⟨.pwrMod, 0, 0⟩ (writeReader fn) Off.PWR_MOD_CMD 2 WrEnv.none = s.m.m2Cmd := by
    rw [Dev.pageWrite, if_neg (by decide), Dev.bodyWrite]
    exact if_pos rfl
  exact congrArg s.done ((Dev.put_granted rfl (by decide) (by decide) hw 2).trans hbody)

theorem exec_pwrM3 : exec (.pwrModCmdM3 fn) s = s.done s.m.m3Cmd := by
  have hbody : s.m.pageWrite ⟨.pwrMod, 0, 0⟩ (writeReader fn) Off.PWR_MOD_CMD 3 WrEnv.none = s.m.m3Cmd := by
    rw [Dev.pageWrite, if_neg (by decide), Dev.bodyWrite]
    exact if_pos rfl
  exact congrArg s.done ((Dev.put_granted rfl (by decide) (by decide) hw 3).trans hbody)

/-- M0 with no channel in C2. -/
theorem answers_m0Idle (hs : s.m.Settled) (hon : ∀ c, c < 8 → s.m.cstate c ≠ 2) (drifted : List (Nat × Nat)) : Answers (.pwrModCmdM0 fn drifted) s fun r =>
    SameWork s r ∧ r.m.rdF .pwrMod 0 0 Off.PWR_MOD_STA 28 21 = Code.OK ∧ SameRegs s r (· = pageOff .pwrMod 0 0 Off.PWR_MOD_STA) := by
  have hall : ((List.range 8).all fun ch => s.m.cstate ch ≠ 2) = true :=
    List.all_eq_true.2 fun c hc => decide_eq_true (hon c (List.mem_range.1 hc))
  obtain ⟨hside, hcode, -⟩ := s.m.modCmdSta_as (code := Code.OK) (by decide)
  exact answers_aside hs ((exec_pwrM0 hw drifted).trans (congrArg s.done (if_pos hall))) hside ⟨hcode, hside.reg⟩

/-- M0 with channels in C2: each of them returns (R460). -/
theorem answers_m0Back (hs : s.m.Settled) (hoff : ∃ c, c < 8 ∧ s.m.cstate c = 2)
    (hsoon : ∀ c, c < 8 → s.m.cstate c = 2 → ∃ t0, (s.m.chan c).offAt = some t0 ∧ s.m.mgtMs < t0 + 259201000) (drifted : List (Nat × Nat)) :
    Answers (.pwrModCmdM0 fn drifted) s fun r => r.m.rdF .pwrMod 0 0 Off.PWR_MOD_STA 28 21 = Code.PENDING ∧ SameBytes s r ∧ r.m.rqt = s.m.rqt ∧
      r.m.tiles = s.m.tiles ∧ ∀ c, c < 8 → s.m.cstate c = 2 → r.m.cstate c = 0 ∧ r.m.chInit c = true ∧ (r.m.chan c).saved = false := by
  obtain ⟨c, hc, hcst⟩ := hoff
  have hnot : ¬ ((List.range 8).all fun ch => s.m.cstate ch ≠ 2) = true := fun h =>
    absurd hcst (of_decide_eq_true (List.all_eq_true.1 h c (List.mem_range.2 hc)))
  have hexec := (exec_pwrM0 hw drifted).trans (congrArg s.done (if_neg hnot))
  have hround := foldl_chans (f := fun t ch => if t.cstate ch = 2 then t.c0Cmd ch drifted else t)
    (Rel := fun ch t u => ∃ c, Dev.InChan (powRegs ch) ch c t u)
    (Pre := fun c t => c < 8 ∧ t.cstate c = s.m.cstate c ∧ t.chan c = s.m.chan c ∧ t.mgtNs = s.m.mgtNs)
    (Post := fun c t => s.m.cstate c = 2 → t.cstate c = 0 ∧ t.chInit c = true ∧ (t.chan c).saved = false)
    (All := fun t => t.Settled ∧ t.mem = s.m.mem ∧ t.rqt = s.m.rqt ∧ t.tiles = s.m.tiles)
    ?_ ?_ ?_ ?_ (List.range 8) List.nodup_range s.m ⟨hs, rfl, rfl, rfl⟩ fun c hc => ⟨List.mem_range.1 hc, rfl, rfl, rfl⟩
  · obtain ⟨⟨hsettled, hmem, hrqt, htiles⟩, hback, -⟩ := hround
    rw [← Dev.eachCh] at hsettled hmem hrqt htiles hback
    generalize s.m.eachCh (fun t ch => if t.cstate ch = 2 then t.c0Cmd ch drifted else t) = x at hexec hsettled hmem hrqt htiles hback
    obtain ⟨hside, hcode, -⟩ := x.modCmdSta_as (code := Code.PENDING) (by decide)
    have hwork := hside.sameWork s.pending
    refine answers_done hexec (hside.settled hsettled) ⟨hcode, fun a => ?_, hwork.rqt.trans hrqt, hwork.tiles.trans htiles, fun c hc h2 => ?_⟩
    · exact congrArg (·.get 0 a) (hwork.mem.trans hmem)
    · obtain ⟨hcst, hinit, hsaved⟩ := hback c (List.mem_range.2 hc) h2
      obtain ⟨hword, hchan⟩ := x.modCmdSta_chan Code.PENDING c
      exact ⟨(congrArg (fld · 1 0) hword).trans hcst, (congrArg (fun w => decide (fld w 3 3 = 1)) hword).trans hinit,
        (congrArg Chan.saved hchan).trans hsaved⟩
  · rintro ch t ⟨hch, hcst, hchan, hns⟩
    split
    · next h2 =>
      obtain ⟨t0, hoff, hlt⟩ := hsoon ch hch (hcst.symm.trans h2)
      obtain ⟨hret, hsaved, hkept⟩ := Dev.c0Cmd_soon (t0 := t0) h2 (by rw [hchan, hoff]) (by rw [Dev.mgtMs, hns]; exact hlt) drifted
      exact ⟨hkept, fun _ => ⟨hret.cstate, hret.init, hsaved⟩⟩
    · next h2 => exact ⟨⟨_, .refl _ ch t⟩, fun h => absurd (hcst.trans h) h2⟩
  · rintro ch t u ⟨d, hrel⟩ ⟨hsettled, hmem, hrqt, htiles⟩
    exact ⟨hrel.settled hsettled, hrel.mem.trans hmem, hrel.rqt.trans hrqt, hrel.tiles.trans htiles⟩
  · rintro ch c t u hne ⟨d, hrel⟩ ⟨hc, hcst, hchan, hns⟩
    exact ⟨hc, (congrArg (fld · 1 0) (hrel.reg _ (not_powRegs hne))).trans hcst, (hrel.others c hne).trans hchan, by rw [hrel.shape]; exact hns⟩
  · rintro ch c t u hne ⟨d, hrel⟩ hpost h2
    obtain ⟨hcst, hinit, hsaved⟩ := hpost h2
    have hword := hrel.reg _ (not_powRegs hne)
    exact ⟨(congrArg (fld · 1 0) hword).trans hcst, (congrArg (fun w => decide (fld w 3 3 = 1)) hword).trans hinit,
      (congrArg Chan.saved (hrel.others c hne)).trans hsaved⟩

/-! ### M2 (R460) -/

/-- Each channel refuses C2, and M2 is BUSY. -/
theorem answers_m2Busy (hs : s.m.Settled) (hbusy : ∀ c, c < 8 → s.m.c2Refused c = true) : Answers (.pwrModCmdM2 fn) s fun r => SameWork s r ∧
    r.m.rdF .pwrMod 0 0 Off.PWR_MOD_STA 28 21 = Code.BUSY ∧ ∀ c, c < 8 → r.m.cstate c = s.m.cstate c := by
  have hany : ((List.range 8).any fun ch => s.m.c2Refused ch) = true := List.any_eq_true.2 ⟨0, by decide, hbusy 0 (by decide)⟩
  have hm : s.m.m2Cmd = (s.m.eachCh fun s ch => s.c2Cmd ch).modCmdSta Code.BUSY := by
    unfold Dev.m2Cmd
    rw [hany]
    rfl
  have hround := foldl_chans (f := fun t ch => t.c2Cmd ch) (Rel := fun ch t u => t.Aside (· = pageOff .pwrCh ch 0 Off.PWR_CH_STA) u)
    (Pre := fun c t => t.c2Refused c = true ∧ t.cstate c = s.m.cstate c) (Post := fun c t => t.cstate c = s.m.cstate c)
    (All := fun t => s.m.Aside anyReg t) ?_ ?_ ?_ ?_ (List.range 8) List.nodup_range s.m (.refl _ s.m)
    fun c hc => ⟨hbusy c (List.mem_range.1 hc), rfl⟩
  · obtain ⟨hside, hkept, -⟩ := hround
    rw [← Dev.eachCh] at hside hkept
    generalize s.m.eachCh (fun t ch => t.c2Cmd ch) = x at hm hside hkept
    obtain ⟨hlast, hcode, -⟩ := x.modCmdSta_as (code := Code.BUSY) (by decide)
    have hall := hside.trans (hlast.mono fun _ _ => trivial)
    refine answers_aside hs ((exec_pwrM2 hw).trans (congrArg s.done hm)) hall ⟨hcode, fun c hc => ?_⟩
    exact (congrArg (fld · 1 0) (x.modCmdSta_chan Code.BUSY c).1).trans (hkept c (List.mem_range.2 hc))
  · rintro ch t ⟨hrefused, hcst⟩
    have hbusy : t.c2Cmd ch = t.chSta ch 15 8 Code.BUSY := if_pos hrefused
    have hword := ((Dev.StartNoted.refl ch t).chSta 15 8 Code.BUSY).word
    rw [hbusy]
    refine ⟨(Dev.Aside.refl (· = pageOff .pwrCh ch 0 Off.PWR_CH_STA) t).setReg rfl _, ?_⟩
    rw [Dev.cstate, Dev.rdF, hword, fld_setFld_apart _ (by decide) (by decide) (.inr (by decide)), ← hcst]
    rfl
  · exact fun ch t u hrel hall => hall.trans (hrel.mono fun _ _ => trivial)
  · rintro ch c t u hne hrel ⟨hrefused, hcst⟩
    have hword := hrel.reg _ fun h => not_powRegs hne (.inl h)
    have hwork := hrel.sameWork s.pending
    refine ⟨(Dev.c2Refused_congr hwork.rqt hwork.ctxs (by rw [hrel.shape]) hwork.mems hwork.seqs hword fun n => ?_).trans hrefused,
      (congrArg (fld · 1 0) hword).trans hcst⟩
    exact hrel.reg _ fun h => not_powRegs_load ch n (.inl h)
  · rintro ch c t u hne hrel hcst
    exact (congrArg (fld · 1 0) (hrel.reg _ fun h => not_powRegs hne (.inl h))).trans hcst

omit hw in
/-- C2 of a channel that refuses nothing, in C2 already or not. -/
theorem Dev.c2Cmd_off {t : Dev} {ch : Nat} (hfree : t.c2Refused ch = false) (hruns : (t.chan ch).fab.colls = []) :
    Dev.Switched (powRegs ch) ch t (t.c2Cmd ch) ∧ (t.c2Cmd ch).cstate ch = 2 := by
  have hgo : t.c2Cmd ch = if t.cstate ch = 2 then t.chSta ch 15 8 Code.OK else t.enterC2 ch := if_neg (by simp [hfree])
  rw [hgo]
  split
  · next h2 =>
    have hword := ((Dev.StartNoted.refl ch t).chSta 15 8 Code.OK).word
    refine ⟨.inChan ((Dev.InChan.refl _ ch t).chSta 15 8 Code.OK), ?_⟩
    rw [Dev.cstate, Dev.rdF, hword, fld_setFld_apart _ (by decide) (by decide) (.inr (by decide))]
    exact h2
  · obtain ⟨hoff, hkept⟩ := t.enterC2_off ch
    exact ⟨hkept hruns, hoff.cstate⟩

/-- No channel refuses C2, and M2 puts them all into it. -/
theorem answers_m2All (hs : s.m.Settled) (hfree : ∀ c, c < 8 → s.m.c2Refused c = false ∧ (s.m.chan c).fab.colls = []) :
    Answers (.pwrModCmdM2 fn) s fun r => (∀ c, c < 8 → r.m.cstate c = 2) ∧ SameBytes s r ∧ r.m.rdF .pwrMod 0 0 Off.PWR_MOD_STA 28 21 = Code.OK := by
  have hany : ((List.range 8).any fun ch => s.m.c2Refused ch) = false :=
    List.any_eq_false.2 fun c hc => by simp [(hfree c (List.mem_range.1 hc)).1]
  have hm : s.m.m2Cmd = (s.m.eachCh fun s ch => s.c2Cmd ch).modCmdSta Code.OK := by
    unfold Dev.m2Cmd
    rw [hany]
    rfl
  have hround := foldl_chans (f := fun t ch => t.c2Cmd ch) (Rel := fun ch t u => Dev.Switched (powRegs ch) ch t u)
    (Pre := fun c t => t.c2Refused c = false ∧ (t.chan c).fab.colls = []) (Post := fun c t => t.cstate c = 2)
    (All := fun t => t.Settled ∧ t.mem = s.m.mem) ?_ ?_ ?_ ?_ (List.range 8) List.nodup_range s.m ⟨hs, rfl⟩
    fun c hc => hfree c (List.mem_range.1 hc)
  · obtain ⟨⟨hsettled, hmem⟩, hoff, -⟩ := hround
    rw [← Dev.eachCh] at hsettled hmem hoff
    generalize s.m.eachCh (fun t ch => t.c2Cmd ch) = x at hm hsettled hmem hoff
    obtain ⟨hlast, hcode, -⟩ := x.modCmdSta_as (code := Code.OK) (by decide)
    have hwork := hlast.sameWork s.pending
    refine answers_done ((exec_pwrM2 hw).trans (congrArg s.done hm)) (hlast.settled hsettled) ⟨fun c hc => ?_, fun a => ?_, hcode⟩
    · exact (congrArg (fld · 1 0) (x.modCmdSta_chan Code.OK c).1).trans (hoff c (List.mem_range.2 hc))
    · exact congrArg (·.get 0 a) (hwork.mem.trans hmem)
  · exact fun ch t ⟨hfree, hruns⟩ => Dev.c2Cmd_off hfree hruns
  · exact fun ch t u hrel ⟨hsettled, hmem⟩ => ⟨hrel.settled hsettled, by rw [hrel.shape]; exact hmem⟩
  · rintro ch c t u hne hrel ⟨hfree, hruns⟩
    refine ⟨(Dev.c2Refused_congr hrel.rqt ?_ ?_ ?_ ?_ (hrel.rd (not_powRegs hne)) fun n => hrel.rd (not_powRegs_load ch n)).trans hfree, ?_⟩
    · rw [hrel.shape]
    · rw [hrel.shape]
    · rw [hrel.shape]
    · rw [hrel.shape]
    · rw [hrel.others c hne, hruns]
  · exact fun ch c t u hne hrel hcst => (congrArg (fld · 1 0) (hrel.rd (not_powRegs hne))).trans hcst

end

end Sys2Proof.Machine
end

section
/-! M3, C1, and the statement of O18 (R457, R461). -/

namespace Sys2Proof.Machine
open Sys2Proof

/-! ### The safe state without a fault (R378, R461) -/

/-- Every listed tile of a channel is without work. -/
def Dev.TilesIdle (c : Nat) (s : Dev) : Prop := ∀ e ∈ s.tiles, tileCh e.1 = c → e.2.mvms = []

theorem Dev.TilesIdle.tile {c k : Nat} {s : Dev} (h : Dev.TilesIdle c s) (hk : tileCh k = c) : (s.tile k).mvms = [] :=
  Store.get_of_forall (P := fun t : Tile => t.mvms = []) rfl fun e he hek => h e he (hek ▸ hk)

/-- A tile that is listed after a stop was listed before it, and has been stopped where it lies in the channel. -/
theorem Dev.stopArray_mem {s : Dev} {ch : Nat} {e : Nat × Tile} (he : e ∈ (s.stopArray ch).tiles) :
    ∃ x ∈ s.tiles, e.1 = x.1 ∧ e.2.mvms = if tileCh x.1 = ch then [] else x.2.mvms := by
  obtain ⟨x, hmem, hx⟩ := List.mem_filterMap.1 he
  obtain ⟨-, hsome⟩ := Option.ite_none_left_eq_some.1 hx
  obtain rfl := Option.some.inj hsome
  refine ⟨x, hmem, rfl, ?_⟩
  dsimp only
  split
  · exact stopTile_mvms ..
  · rfl

theorem Dev.stopArray_idle (s : Dev) (ch : Nat) : Dev.TilesIdle ch (s.stopArray ch) := fun _ he hk => by
  obtain ⟨x, -, hkey, hmvms⟩ := Dev.stopArray_mem he
  rw [hmvms, if_pos (hkey ▸ hk)]

theorem Dev.TilesIdle.stopArray {s : Dev} {c : Nat} (h : Dev.TilesIdle c s) (ch : Nat) : Dev.TilesIdle c (s.stopArray ch) := fun _ he hk => by
  obtain ⟨x, hmem, hkey, hmvms⟩ := Dev.stopArray_mem he
  rw [hmvms]
  split
  · rfl
  · exact h x hmem (hkey ▸ hk)

/-- A channel is put into the safe state, and its recorder says so. -/
def Dev.makeSafe (s : Dev) (ch : Nat) : Dev := (s.forceSafe ch).pwrRecord ch 0x0203 3 3

/-- From `s` to `t` a channel has come to the safe state: its array has stopped, and its words and its recorder have changed. -/
structure Dev.Safed (ch : Nat) (s t : Dev) : Prop where
  mem : t.mem = s.mem
  rqt : t.rqt = s.rqt
  tiles : t.tiles = (s.stopArray ch).tiles
  others : ∀ c, c ≠ ch → t.rd .fltCh c 0 Off.FLT_STA = s.rd .fltCh c 0 Off.FLT_STA
  safe : t.rdF .fltCh ch 0 Off.FLT_STA 2 2 = 1

theorem not_recRegs_flt (ch c : Nat) : ¬ recRegs ch (pageOff .fltCh c 0 Off.FLT_STA) := by
  simp only [recRegs, pageOff, Page.base, chanWin, Off.EVR_REC, Off.EVR_SUPP, Off.FLT_STA]
  omega

theorem flt_ne {c ch : Nat} (h : c ≠ ch) : pageOff .fltCh c 0 Off.FLT_STA ≠ pageOff .fltCh ch 0 Off.FLT_STA := by
  simp only [pageOff, Page.base, chanWin]
  omega

/-- What stops in a channel, with the change that is due to it. -/
theorem Dev.safeState_due (w : Dev) (ch : Nat) : let u := (w.safeState ch).modChan ch fun c => { c with safeDue := true }
    u.mem = w.mem ∧ u.rqt = w.rqt ∧ u.tiles = (w.stopArray ch).tiles ∧ ∀ a, u.reg a = w.reg a := ⟨rfl, rfl, rfl, fun _ => rfl⟩

theorem Dev.setReg_stopArray (s : Dev) (a : Nat) (w : Word) (ch : Nat) : ((s.setReg a w).stopArray ch).tiles = (s.stopArray ch).tiles := rfl

theorem Dev.makeSafe_safed (s : Dev) (ch : Nat) : Dev.Safed ch s (s.makeSafe ch) := by
  have hsafe : s.makeSafe ch = (((s.wrF .fltCh ch 0 Off.FLT_STA 2 2 1).safeState ch).modChan ch fun c => { c with safeDue := true }).pwrRecord ch 0x0203 3 3 := rfl
  have hread : (s.wrF .fltCh ch 0 Off.FLT_STA 2 2 1).rd .fltCh ch 0 Off.FLT_STA = setFld (s.rd .fltCh ch 0 Off.FLT_STA) 2 2 1 := Dev.wr_rd_same ..
  have hother (c : Nat) (hc : c ≠ ch) : (s.wrF .fltCh ch 0 Off.FLT_STA 2 2 1).rd .fltCh c 0 Off.FLT_STA = s.rd .fltCh c 0 Off.FLT_STA :=
    Dev.wr_reg_other _ (flt_ne hc) _
  have htiles : ((s.wrF .fltCh ch 0 Off.FLT_STA 2 2 1).stopArray ch).tiles = (s.stopArray ch).tiles := Dev.setReg_stopArray ..
  have hmem : (s.wrF .fltCh ch 0 Off.FLT_STA 2 2 1).mem = s.mem := Dev.wrF_mem ..
  have hrqt : (s.wrF .fltCh ch 0 Off.FLT_STA 2 2 1).rqt = s.rqt := Dev.wrF_rqt ..
  rw [hsafe]
  generalize s.wrF .fltCh ch 0 Off.FLT_STA 2 2 1 = w at hread hother htiles hmem hrqt
  obtain ⟨hum, huq, hut, hur⟩ := w.safeState_due ch
  generalize (w.safeState ch).modChan ch (fun c => { c with safeDue := true }) = u at hum huq hut hur
  have hlog := u.record_logged ch (Ev.plain 0x0203 6 true [3, 3])
  refine ⟨?_, ?_, ?_, fun c hc => ?_, ?_⟩
  · exact (congrArg Dev.mem hlog.shape).trans (hum.trans hmem)
  · exact (congrArg Dev.rqt hlog.shape).trans (huq.trans hrqt)
  · exact (congrArg Dev.tiles hlog.shape).trans (hut.trans htiles)
  · exact (hlog.reg _ (not_recRegs_flt ch c)).trans ((hur _).trans (hother c hc))
  · have hword := (hlog.reg _ (not_recRegs_flt ch ch)).trans ((hur _).trans hread)
    exact (congrArg (fld · 2 2) hword).trans (fld_setFld_same _ (by decide) (by decide) _)

theorem flt_ne_mod (c : Nat) : pageOff .fltCh c 0 Off.FLT_STA ≠ pageOff .pwrMod 0 0 Off.PWR_MOD_STA := by
  simp only [pageOff, Page.base, chanWin, Off.FLT_STA, Off.PWR_MOD_STA]
  omega

/-! ### M3 (R461) -/

/-- M3: each channel is safe, and VIN may go. -/
theorem does_m3 {s : State} {fn : Fn} (hw : s.m.Writes fn ⟨.pwrMod, 0, 0⟩ Off.PWR_MOD_CMD) : Does (.pwrModCmdM3 fn) s fun r =>
    r.m.rdF .pwrMod 0 0 Off.PWR_MOD_STA 4 4 = 1 ∧ r.m.rdF .pwrMod 0 0 Off.PWR_MOD_STA 28 21 = Code.OK ∧ SameBytes s r ∧ r.m.rqt = s.m.rqt ∧
      ∀ c, c < 8 → r.m.rdF .fltCh c 0 Off.FLT_STA 2 2 = 1 ∧ ∀ k, tileCh k = c → (r.m.tile k).mvms = [] := by
  have hm : s.m.m3Cmd = ((s.m.eachCh fun t ch => t.makeSafe ch).modSta 4 4 1).modCmdSta Code.OK := rfl
  have hround := foldl_chans (f := fun t ch => t.makeSafe ch) (Rel := Dev.Safed) (Pre := fun _ _ => True)
    (Post := fun c t => t.rdF .fltCh c 0 Off.FLT_STA 2 2 = 1 ∧ Dev.TilesIdle c t) (All := fun t => t.mem = s.m.mem ∧ t.rqt = s.m.rqt)
    ?_ ?_ ?_ ?_ (List.range 8) List.nodup_range s.m ⟨rfl, rfl⟩ fun _ _ => trivial
  · obtain ⟨⟨hmem, hrqt⟩, hsafe, -⟩ := hround
    rw [← Dev.eachCh] at hmem hrqt hsafe
    generalize s.m.eachCh (fun t ch => t.makeSafe ch) = x at hm hmem hrqt hsafe
    have hoff : (x.modSta 4 4 1).rd .pwrMod 0 0 Off.PWR_MOD_STA = setFld (x.rd .pwrMod 0 0 Off.PWR_MOD_STA) 4 4 1 := Dev.wr_rd_same ..
    have hside : x.Aside (· = pageOff .pwrMod 0 0 Off.PWR_MOD_STA) (x.modSta 4 4 1) := (Dev.Aside.refl (· = pageOff .pwrMod 0 0 Off.PWR_MOD_STA) x).setReg rfl _
    generalize x.modSta 4 4 1 = y at hm hoff hside
    obtain ⟨hlast, hcode, hbit⟩ := y.modCmdSta_as (code := Code.OK) (by decide)
    have hall := hside.trans hlast
    have hwork := hall.sameWork s.pending
    refine does_done ((exec_pwrM3 hw).trans (congrArg s.done hm)) ⟨hbit.trans ?_, hcode, fun a => ?_, hwork.rqt.trans hrqt, fun c hc => ?_⟩
    · rw [Dev.rdF, hoff]
      exact fld_setFld_same _ (by decide) (by decide) _
    · exact congrArg (·.get 0 a) (hwork.mem.trans hmem)
    · obtain ⟨hflt, hidle⟩ := hsafe c (List.mem_range.2 hc)
      refine ⟨(congrArg (fld · 2 2) (hall.reg _ (flt_ne_mod c))).trans hflt, fun k hk => ?_⟩
      exact Dev.TilesIdle.tile (c := c) (fun e he => hidle e (hwork.tiles ▸ he)) hk
  · exact fun ch t _ => ⟨t.makeSafe_safed ch, (t.makeSafe_safed ch).safe, fun e he => t.stopArray_idle ch e ((t.makeSafe_safed ch).tiles ▸ he)⟩
  · exact fun ch t u h ⟨hmem, hrqt⟩ => ⟨h.mem.trans hmem, h.rqt.trans hrqt⟩
  · exact fun _ _ _ _ _ _ _ => trivial
  · exact fun ch c t u hne h ⟨hsafe, hidle⟩ => ⟨(congrArg (fld · 2 2) (h.others c hne)).trans hsafe, fun e he => hidle.stopArray ch e (h.tiles ▸ he)⟩

/-- C1 of a channel that is idle long enough, and not busy (R457). -/
theorem answers_c1 {s : State} {ch : ChId} (hs : s.m.Settled) (hserves : s.m.serves ch.val = true) (hcst : s.m.cstate ch.val = 0)
    (hc1 : s.m.inForce .pwrCh ch.val 0 Off.PWR_CH_CTL 8 8 = 1) (hbusy : s.m.chBusy ch.val = false)
    (hidle : max 1 (s.m.inForce .pwrCh ch.val 0 Off.PWR_CH_CTL 7 0) ≤ (s.m.chan ch.val).idle) : Answers (.c1Entry ch) s fun r =>
    SameWork s r ∧ r.m.cstate ch.val = 1 ∧ SameRegs s r (· = pageOff .pwrCh ch.val 0 Off.PWR_CH_STA) := by
  have hm : s.m.c1Enter ch.val = s.m.chSta ch.val 1 0 1 := if_pos ⟨hserves, hcst, hc1, hidle, by rw [hbusy]; rfl⟩
  have hside : s.m.Aside (· = pageOff .pwrCh ch.val 0 Off.PWR_CH_STA) (s.m.chSta ch.val 1 0 1) :=
    (Dev.Aside.refl (· = pageOff .pwrCh ch.val 0 Off.PWR_CH_STA) s.m).setReg rfl _
  refine answers_aside hs (congrArg s.done hm) hside ⟨?_, hside.reg⟩
  have hword := ((Dev.StartNoted.refl ch.val s.m).chSta 1 0 1).word
  rw [Dev.cstate, Dev.rdF, hword]
  exact fld_setFld_same _ (by decide) (by decide) _

/-- Settles O18: one channel's way into C2 and back, and the module's commands as one channel after another. -/
theorem powerStatesMove : Obligations.PowerStatesMove := by
  unfold Obligations.PowerStatesMove
  refine ⟨fun s fn ch hs _ => ⟨answers_c1 hs, fun hw hcst hidle hruns => answers_enterC2 hw hcst hidle hs hruns, does_enterC2,
    fun t0 hw hcst hoff hlate drifted => answers_c0Late hs hw hcst hoff hlate drifted,
    fun t0 hw hcst hoff hsoon drifted => answers_c0Soon hs hw hcst hoff hsoon drifted, fun hw hon drifted => answers_m0Idle hw hs hon drifted,
    fun hw hoff hsoon drifted => answers_m0Back hw hs hoff hsoon drifted, fun hw hbusy => answers_m2Busy hw hs hbusy⟩,
    fun s fn hs _ hw => ⟨answers_m2All hw hs, does_m3 hw⟩⟩

end Sys2Proof.Machine
end
